-- ==== Sys2Proof/Word.lean ====
section
/-! DEFINITION. The word and byte types of the AT-2560: 64-bit words (chapter 00, "Word"), bytes, 48-bit
addresses (R411), channels, pipelines and ports. -/

namespace Sys2Proof

/-- A 64-bit register or memory word (R16, R35). -/
abbrev Word := BitVec 64

/-- One byte. -/
abbrev Byte := BitVec 8

/-- A string of bytes in the order in which they are sent (R3, R19). -/
abbrev Bytes := List Byte

/-- A channel, or a channel pair, 0 to 15. -/
abbrev Chan := Fin 16

/-- A pipeline: 0 to 7 are DP0 to DP7, 8 to 15 are UP0 to UP7. -/
abbrev Pipe := Fin 16

/-- A logical client port, 0 to 63. -/
abbrev LPort := Fin 64

/-- A physical client port, 0 to 15. -/
abbrev PPort := Fin 16

/-- A frame counter value (R71). -/
abbrev FrameCtr := BitVec 48

end Sys2Proof
end

