-- ==== Sys2Proof/Syntax.lean ====
section
/-! DEFINITION. The commands of the AT-2560, one constructor for each row of opcode_table.json, and the types of their
operands. An operand carries what the row leaves to the outside: the unit concerned, the initiator and value of a
register access, bytes received, readings, verdicts of the analogue or cryptographic checks the spec gives to the device
without restating them. -/

namespace Sys2Proof

/-- The mode of the hart that issues an access (R317). -/
inductive CoreMode where
  | m | s | u
  deriving DecidableEq, Repr

/-- Who issues a register or memory access: a hart in some mode, the host, or a management message (R317). -/
inductive Initiator where
  | core (c : Fin 8) (mode : CoreMode)
  | host
  | mgmt
  deriving DecidableEq, Repr

/-- The shape of a core access: a naturally sized 64-bit load or store, a narrower one, or an AMO or LR/SC (R319). -/
inductive AccessForm where
  | word | narrow | atomic
  deriving DecidableEq, Repr

/-- What an error is about, for the targeted self-tests of Table 16.6. -/
inductive Resource where
  /-- No resource that Table 16.6 lists. -/
  | none
  /-- A row of the cell buffer, of the flow table, or of another on-die memory: array and row. -/
  | cellRow (row : BitVec 16)
  | flowRow (row : BitVec 16)
  | sramRow (array : BitVec 8) (row : BitVec 16)
  | hbmRow (addr : BitVec 48)
  | pipeline (i : Pipe)
  | channel (k : Chan)
  | lane (n : Fin 80)
  deriving DecidableEq, Repr

/-- The classes of R351. -/
inductive ErrClass where
  | corrected | contained | fatal
  deriving DecidableEq, Repr

/-- An error as it arrives at FLT: source, unit, class by the reporting rule, KIND of Table 16.4, syndrome, address,
raised through injection, and the resource to test (R350, R351, R354). -/
structure ErrEvent where
  src : Fin 64
  unit : BitVec 16
  cls : ErrClass
  kind : Fin 9
  synd : BitVec 8
  addr : BitVec 48
  inj : Bool
  res : Resource
  deriving DecidableEq, Repr

/-- A reading of the time counter as an operand: seconds, nanoseconds and 2⁻¹⁶ ns (R295, R307). -/
structure Stamp where
  s : BitVec 48
  ns : BitVec 30
  fr : BitVec 16
  deriving DecidableEq, Repr

/-- Conditions of calibration (R65): receive and transmit engine temperature in 0.1 °C, channel power in 0.1 dBm (two's
complement), burst duty in 1/256. -/
structure CalCond where
  rxT : BitVec 16
  txT : BitVec 16
  pwr : BitVec 16
  duty : BitVec 8
  deriving DecidableEq, Repr

/-- What a laser source answers to a poll (R62): its address is acknowledged, it reports its ready state, an alarm. -/
structure SrcReading where
  ack : Bool
  ready : Bool
  alarm : Bool
  deriving DecidableEq, Repr

/-- Words as one checker meets them (R18, R359): the checker's index within its source, and the bits found inverted in the
words it checks: number of the word, its data bits in [71:8] and its check bits in [7:0]. -/
structure Checks where
  idx : BitVec 10 := 0
  flips : List (BitVec 16 × BitVec 72) := []
  deriving DecidableEq, Repr

/-- The word that a checker outside packet paths checks, for the outcomes of Table 16.2. -/
inductive StateWord where
  /-- A word that no rule names: an error in it that cannot be corrected is fatal (R351). -/
  | none
  /-- Register storage, a bank, an ACU window or FLT state; the always-on domain. -/
  | regStorage
  | alwaysOn
  /-- Core local SRAM or L2 at an address, read by a hart at a level. -/
  | coreMem (a : BitVec 48) (c : Fin 8) (mode : CoreMode)
  /-- A word of a stack of the Cellar (R221, R222). -/
  | cellar (a : BitVec 48)
  /-- A word of a Chaperone's copies, limits or checker (R142). -/
  | chaperone (k : Chan)
  /-- The key words of a slot, of a root, of a KEK (R263). -/
  | keySlot (n : Fin 8192)
  | root (n : Fin 64)
  | kek (k : Chan)
  /-- A packet that has entered a pipeline or waits at its idle-slot port, one in reassembly, one handed to a MAC, and one
  that a burst carries, each by its place (R21). -/
  | pipeInput (p : Pipe) (i : BitVec 16)
  | pipeIdle (p : Pipe) (i : BitVec 16)
  | reassembly (k : Chan) (sid : BitVec 16)
  | handed (p : LPort) (i : BitVec 16)
  | carried (k : Chan) (b i : BitVec 16)
  | flowBucket (b : Fin 262144)
  | rule (n : BitVec 16)
  | actionList (n : BitVec 14)
  | policer (n : BitVec 16)
  /-- Rate, burst or enable words: leaf queue key, service node key, port key. -/
  | leafObj (key : Fin 262144)
  | svcObj (key : Fin 262144)
  | portObj (key : Fin 16384)
  /-- The two token words of a leaf, a service node, a port or a policer. -/
  | leafTokens (key : Fin 262144)
  | svcTokens (key : Fin 262144)
  | portTokens (key : Fin 16384)
  | policerTokens (n : BitVec 16)
  /-- Queue state or a cell descriptor of a leaf. -/
  | leafState (key : Fin 262144)
  | flowCounter (cid : BitVec 22)
  | task (n : BitVec 12)
  /-- Cells of a packet queued in a leaf: the `i`-th from the head. -/
  | packet (key : Fin 262144) (i : BitVec 24)
  deriving DecidableEq, Repr

/-- What a source reports (R350, R351): a word that one of its checkers checks, with its data, the bits inverted, its
address, and the resource to test; or an error of another kind of Table 16.4. -/
inductive ErrReport where
  | word (unit : BitVec 16) (idx : BitVec 10) (data : Word) (flip : BitVec 72) (addr : BitVec 48)
      (w : StateWord) (res : Resource)
  | other (unit : BitVec 16) (kind : Fin 9) (addr : BitVec 48) (res : Resource)
  deriving DecidableEq, Repr

/-- A read transaction of the host (R407): its address, and the data bytes that were clocked. -/
structure HostFrame where
  addr : BitVec 48
  bytes : Fin 9
  deriving DecidableEq, Repr

/-- An equaliser window (R68): symbols of each of 16 points in the two polarisations, and the tap updates accumulated over it
from decisions and from probe and pilots. -/
structure EqWindow where
  counts : List (BitVec 17)
  aided : List (BitVec 32)
  piloted : List (BitVec 32)
  deriving DecidableEq, Repr

/-- A packet's pass: its pipeline, and its words as the checkers meet them (R20, R155). -/
structure PassTurn where
  pipe : Pipe
  checks : Checks
  deriving DecidableEq, Repr

/-- A verification time of the MAC merge sublayer (R291): the attempt before was answered; the link partner asks for an
answer. -/
structure VerifyTime where
  resp : Bool
  peer : Bool
  deriving DecidableEq, Repr

/-- The three commas at a link group (R367, R368): of each active lane in order the scrambler's register at its third comma, and that
comma's arrival in picoseconds. -/
structure CommasSeen where
  grp : Fin 2
  lanes : List (BitVec 58 × BitVec 32)
  deriving DecidableEq, Repr

/-- What returns an ACTIVE link group to DETECT (Table 17.2). -/
inductive GroupFail where
  | commas | termination | crcErrors
  deriving DecidableEq, Repr

/-- The sources of cipher requests, in the order of Table 11.2. -/
inductive CipSrc where
  | lineDs | runAhead | lineUs | macTx | macRx | fwRing
  deriving DecidableEq, Repr

/-- A word of a spill page (R221): word `w` of cell `i`, a descriptor word, a word of one of the two copies of its link. -/
inductive PageWord where
  | cell (i : Fin 62) (w : Fin 16)
  | descriptor (w : BitVec 8)
  | link (copy : Fin 2)
  deriving DecidableEq, Repr

/-- The widest SPI mode a flash reports, in lines (R24). -/
inductive FlashWidth where
  | one | four | eight
  deriving DecidableEq, Repr

/-- A configuration bank (R41, Table 2.6): of a channel's sub-window, of a whole block, of a logical port. -/
inductive Bank where
  | lph (k : Chan)
  | dsf (k : Chan)
  | act (k : Chan)
  | ube (k : Chan)
  | cls
  | sch
  | gcl (p : LPort)
  deriving DecidableEq, Repr


/-- The commands: the rows of opcode_table.json. -/
inductive Instr where
  /-- POWER_UP (R405): Supplies rise in the order of Table 19.9 and the always-on domain starts on RC32. -/
  | powerUp
  /-- VR_EN_RISE (R405): A rise of VR_EN enables the regulators and holds the device in reset until PGOOD has been high for 1 ms. -/
  | vrEnRise
  /-- VR_EN_FALL (R405): VR_EN low turns every in-package regulator off and leaves only the always-on domain powered. -/
  | vrEnFall
  /-- POWER_LOSS (R405): The fall of any supply is a loss of power: interfaces go to Table 19.17 and keys are zeroised. -/
  | powerLoss (vaon : Bool)
  /-- RESET_N_ASSERT (R406): RESET_N held low resets every domain and puts every interface in the state of Table 19.17. -/
  | resetNAssert
  /-- RESET_RELEASE (R23): On release from reset the device zeroes its memories, samples MGR, starts IOSC and runs the boot ROM on core 0 with every block except CFG stopped. -/
  | resetRelease (mgr safeN : Bool)
  /-- SFDP_READ_DONE (R24): The SFDP read completes, or goes unanswered, and the SPI controller switches to the widest mode the flash advertises. -/
  | sfdpReadDone (answered : Bool) (width : FlashWidth) (mib : BitVec 16)
  /-- COPY_HEADERS_READ (R27): The headers of copies A and B have been read and the boot ROM ranks the copies by SEQ and boot_retry. -/
  | copyHeadersRead (a b : Bytes) (errA errB : Bool)
  /-- COPY_VALIDATED (R26): A copy's sections have been read and hashed and its eight checks are decided in order, setting its reason code. -/
  | copyValidated (readOk : Bool) (sections : List Bytes)
  /-- HBM_BOOT_TRAINING (R216): The boot ROM trains each stack with up to three attempts; a stack that fails all three is absent. -/
  | hbmBootTraining (n : Fin 4) (tries : Fin 4) (t : BitVec 16) (duty : BitVec 8)
  /-- BASE_FIRMWARE_ENTRY (R23): CLK, PWR, FLT, TSK and ACU are up and control jumps to base firmware at level 1. -/
  | baseFirmwareEntry
  /-- CONFIG_RECORD (R29): Base firmware applies one 16-byte configuration record with the rights of level 2. -/
  | configRecord
  /-- CONFIG_WAIT_TIMEOUT (R30): A wait record not satisfied within 10 ms fails the customer configuration. -/
  | configWaitTimeout
  /-- CFG_RESET_WRITE (R46): A level 0 or 1 write of KEY 0xD1E5 to CFG_RESET resets the device. -/
  | cfgResetWrite (i : Initiator) (v : Word)
  /-- SPI_COMMAND (R34): GO in CFG_SPI_CMD starts a flash command; program or erase touching the booted copy is refused and sets PROT. -/
  | spiCommand (i : Initiator) (v : Word)
  /-- SPI_COMMAND_DONE (R33): A flash command completes, GO reads 0 and ERR is set if the flash did not respond. -/
  | spiCommandDone (ok : Bool) (data : Bytes)
  /-- HOST_WRITE (R407): A whole host I2C or SPI write transaction of 6 address and 8 data bytes is applied at level 3 through the ACU. -/
  | hostWrite (frame : Bytes)
  /-- HOST_READ (R407): A host read transaction returns the 8-byte value after the stretch or 0x00 padding the format allows. -/
  | hostRead (f : HostFrame)
  /-- REGISTER_WRITE (R36): A write to a register that has no row of its own is checked by the ACU and takes effect as its field kinds state. -/
  | registerWrite (i : Initiator) (f : AccessForm) (a : BitVec 48) (v : Word)
  /-- BLOCK_STOP (R37): Writing 0 to bit n of CFG_BLK_RUN stops block n after its unit of work in progress. -/
  | blockStop (i : Initiator) (n : Fin 64) (v : Word)
  /-- BLOCK_STOPPED (R37): The stopped block sets its CFG_BLK_STOPPED bit within 200 µs and accepts no input. -/
  | blockStopped (n : Fin 64)
  /-- BLOCK_RESTART (R37): Writing 1 to bit n of CFG_BLK_RUN restarts block n and clears its stopped bit. -/
  | blockRestart (i : Initiator) (n : Fin 64) (v : Word)
  /-- SX_WRITE (R39): A write to a static field is taken only if the owning block is stopped; otherwise it is discarded and sets CFG_WWR. -/
  | sxWrite (i : Initiator) (a : BitVec 48) (v : Word)
  /-- SH_WRITE (R42): A write to a shadow-banked field goes to the shadow bank, or is discarded with WPEND while a swap is pending. -/
  | shWrite (i : Initiator) (a : BitVec 48) (v : Word)
  /-- ST_WRITE (R45): A write to a staged field is staged in its group, or discarded with CFG_GRP_WDISC while the group's commit is pending. -/
  | stWrite (i : Initiator) (a : BitVec 48) (v : Word)
  /-- BANK_SWAP_REQUEST (R41): Setting SWAP in BLOCK_BANK requests a swap at the next boundary of the selected kind. -/
  | bankSwapRequest (i : Initiator) (b : Bank) (v : Word)
  /-- BANK_CANCEL (R42): Setting CANCEL withdraws a pending swap that has not taken place. -/
  | bankCancel (i : Initiator) (b : Bank) (v : Word)
  /-- BANK_SWAP (R41): At the boundary every SH field of the block or sub-window swaps in one block clock and ACTIVE toggles. -/
  | bankSwap (b : Bank)
  /-- BANK_SHADOW_COPY_DONE (R41): The new shadow bank has been loaded from the active bank and PENDING clears. -/
  | bankShadowCopyDone (b : Bank)
  /-- GROUP_COMMIT (R44): A write of CFG_GRP_COMMIT makes the named group's commit pending, immediate or at a frame boundary of channel CH. -/
  | groupCommit (i : Initiator) (v : Word)
  /-- GROUP_COMMIT_EFFECT (R44): Every staged value of the group takes effect in every block of the group at once. -/
  | groupCommitEffect (g : Fin 64)
  /-- GROUP_ABORT (R45): A write of CFG_GRP_ABORT discards the named group's staged values unless its commit is pending. -/
  | groupAbort (i : Initiator) (v : Word)
  /-- PORT_SELECT_WRITE (R48): A write of LPH_PORT.SEL requests a line port move and asserts the port-move hold to all Chaperones. -/
  | portSelectWrite (i : Initiator) (v : Word)
  /-- PORT_MOVE_START (R48): When every gate has reported closed the optical port switch starts to move. -/
  | portMoveStart
  /-- PORT_HOLD_RELEASE (R48): 1 ms after the move starts the hold is released, ACTIVE takes the new port and DONE is set, or a new move starts. -/
  | portHoldRelease
  /-- RECEIVER_ENABLE (R58): RX_EN written 1 powers receiver k and starts cold or warm acquisition. -/
  | receiverEnable (i : Initiator) (k : Chan) (v : Word)
  /-- RECEIVER_DISABLE (R58): RX_EN written 0 powers receiver k down within 1 µs and DSF sees loss of signal. -/
  | receiverDisable (i : Initiator) (k : Chan) (v : Word)
  /-- CR_LOCK_ACQUIRED (R58): Receiver k reaches carrier-recovery lock and stores its state for warm starts. -/
  | crLockAcquired (k : Chan) (cd fofs : BitVec 16)
  /-- CARRIER_LOSS (R58): Carrier recovery of receiver k loses track and CR_LOCK falls. -/
  | carrierLoss (k : Chan)
  /-- LOS_ASSERT (R57): Channel power below −28 dBm for 10 µs asserts RX_LOS and drops CR_LOCK. -/
  | losAssert (k : Chan) (pwr : BitVec 16)
  /-- LOS_CLEAR (R57): Channel power at or above −27 dBm for 10 µs clears RX_LOS. -/
  | losClear (k : Chan) (pwr : BitVec 16)
  /-- LO_LINE_LOW (R64): LO line k below +4 dBm makes receiver k lose LO_LOCK. -/
  | loLineLow (k : Chan)
  /-- COMB_LOW (R64): Upstream comb line k below +12 dBm sets COMB_LOW and raises a contained fault. -/
  | combLow (k : Chan) (pwr : BitVec 16)
  /-- TRANSMITTER_ENABLE (R65): TX_EN written 1 powers modulator k and starts its bias calibration from fuse values. -/
  | transmitterEnable (i : Initiator) (k : Chan) (v : Word)
  /-- CODEWORD_DECODED (R55): The decoder ends a codeword as final good or as uncorrectable after MAX_ITER iterations. -/
  | codewordDecoded (k : Chan) (next : Bool) (cw : Fin 5000) (iter : BitVec 8) (bitc : BitVec 16) (info : BitVec 20480)
      (parity : BitVec 4020)
  /-- PROVISIONAL_RELEASE (R55): After iteration 2 with a low enough syndrome weight the decoder releases the hard decision as provisional output. -/
  | provisionalRelease (k : Chan) (next : Bool) (cw : Fin 5000) (info : BitVec 20480) (parity : BitVec 4020)
  /-- CAL_CONDITION_CHECK (R65): Every 1 ms the device compares present conditions with each calibration stamp and moves drifted calibrations on. -/
  | calConditionCheck (k : Chan) (now avg : CalCond)
  /-- CAL_TRIM_REQUEST (R65): A write of RX_TRIM or TX_TRIM moves a STAMPED calibration to DRIFTED. -/
  | calTrimRequest (i : Initiator) (k : Chan) (v : Word)
  /-- CAL_TRIM_START (R65): With trim resources free, and for modulator bias a burst beginning, a DRIFTED calibration starts trimming. -/
  | calTrimStart (k : Chan) (tx : Bool) (now : CalCond)
  /-- CAL_TRIM_COMPLETE (R65): A trim completes, stores its result and stamp and restores normal margins. -/
  | calTrimComplete (k : Chan) (tx : Bool) (avg : CalCond)
  /-- EQ_WINDOW_CLOSE (R68): A 65,536-symbol diversity window closes and its updates are applied, discarded with a freeze, or count towards unfreezing. -/
  | eqWindowClose (k : Chan) (w : EqWindow)
  /-- LASER_POLL (R62): Every 100 ms with POLL_EN the device reads each source's state and alarms over the laser bus. -/
  | laserPoll (r0 r1 r2 r3 : SrcReading)
  /-- LASER_SOURCE_ACCESS (R70): GO in LPH_LSRC_CMD starts one byte access to a source after any poll in progress. -/
  | laserSourceAccess (i : Initiator) (v : Word)
  /-- LASER_ACCESS_DONE (R70): The byte access completes, returning data or setting ERR if not acknowledged. -/
  | laserAccessDone (ack : Bool) (data : BitVec 8)
  /-- FAW_MATCH (R74): In HUNT a 64-symbol window passes the amplitude and word tests, recording the hypothesis and frame A. -/
  | fawMatch (k : Chan) (amp : BitVec 32) (signs : BitVec 256)
  /-- EXPECTED_WINDOW (R75): At the expected position the alignment machine examines the window and moves between PRE1, PRE2, SYNC and HUNT. -/
  | expectedWindow (k : Chan) (amp : BitVec 32) (signs : BitVec 256)
  /-- FRAME_HEADER (R79): A frame header is checked valid or invalid and its FC, HE_ID and key-index states are taken. -/
  | frameHeader (k : Chan) (hdr ops : Bytes)
  /-- FLYWHEEL_TICK (R77): The per-channel flywheel ticks once per frame period and times the operations channel and circuit emulation. -/
  | flywheelTick (k : Chan)
  /-- OHS_INSERT_BLOCK (R95): An insertion port completes a 512-bit block and holds it for its upstream channel, replacing any unused block. -/
  | ohsInsertBlock (p : Fin 4) (blk : Bytes)
  /-- OHS_SHORT_BLOCK (R95): FSI arriving before a block completes discards the partial block and counts SHORT. -/
  | ohsShortBlock (p : Fin 4)
  /-- MAP_ENTRY (R120): A bandwidth map entry passed by DSF is judged by UBE and accepted, ignored or discarded as a grant. -/
  | mapEntry (k : Chan) (n : Fin 512) (entry : Bytes)
  /-- FRAGMENT (R88): A delineated fragment passes the stream filter, decryption and Table 4.7 and may complete a packet. -/
  | fragment (k : Chan) (info : Bytes) (busy : Bool) (c : Checks)
  /-- REASSEMBLY_TIMEOUT (R88): The RTO-th flywheel tick after the frame that carried FIRST aborts an incomplete assembly. -/
  | reassemblyTimeout (k : Chan) (sid : BitVec 16)
  /-- DSF_IND_READ (R97): A GO with RD = 1 reads a stream map, stream context or circuit context entry into DSF_IND_DATA. -/
  | dsfIndRead (i : Initiator) (v : Word)
  /-- DSF_IND_WRITE (R97): A GO with RD = 0 writes an entry, refused for range or the 16,384-entry limit, aborting any reassembly of the stream. -/
  | dsfIndWrite (i : Initiator) (v : Word)
  /-- ACT_ENABLE (R100): EN written 1 lets pair k leave Initial on sync. -/
  | actEnable (i : Initiator) (k : Chan) (v : Word)
  /-- ACT_DISABLE (R100): EN written 0 moves pair k to Initial. -/
  | actDisable (i : Initiator) (k : Chan) (v : Word)
  /-- ACT_RESTART (R100): RESTART written 1 moves pair k to Initial. -/
  | actRestart (i : Initiator) (k : Chan) (v : Word)
  /-- ACT_GROUP_STAGE (R110): During frame N + 1 ACT stages the TN and EQD changes of frame N and commits group k at the next boundary. -/
  | actGroupStage (k : Chan)
  /-- T_ASG_EXPIRY (R100): Expiry of the assignment wait draws a new random backoff for an Announcing pair. -/
  | tAsgExpiry (k : Chan)
  /-- T_RNG_EXPIRY (R100): Expiry of the ranging timer returns the pair to Listening and discards its TN. -/
  | tRngExpiry (k : Chan)
  /-- T_INT_EXPIRY (R100): Expiry of the Intermittent timer moves the pair to Initial. -/
  | tIntExpiry (k : Chan)
  /-- STOPPED_HOLD_EXPIRY (R113): HOLD ms after entering Stopped the pair enters Initial. -/
  | stoppedHoldExpiry (k : Chan)
  /-- UNKNOWN_MESSAGE (R105): A downstream message with a bad MCRC or a type not in Table 5.3 is counted and never answered. -/
  | unknownMessage (k : Chan) (n : Fin 64) (msg : Bytes)
  /-- LINE_PARAMS (R110): A LINE_PARAMS message sets PARAMS_OK, ANN_EN, DISC_PROF, RND_MAX and PRE_EQD, or is refused whole. -/
  | lineParams (k : Chan) (n : Fin 64) (msg : Bytes)
  /-- ASSIGN_TN (R100): An ASSIGN_TN naming the serial number gives the pair TN_NEW and moves it to Ranging. -/
  | assignTn (k : Chan) (n : Fin 64) (msg : Bytes)
  /-- RANGING_TIME (R110): A RANGING_TIME stores or adjusts the EQD of a path and moves a Ranging pair to Operating. -/
  | rangingTime (k : Chan) (n : Fin 64) (msg : Bytes)
  /-- BURST_PROFILE (R111): A BURST_PROFILE is written to UBE's shadow bank with a frame-boundary swap at FC_EFF. -/
  | burstProfile (k : Chan) (n : Fin 64) (msg : Bytes)
  /-- AUTH_CHALLENGE (R267): KLN derives K_AUTH and KEK_k from RK and queues AUTH_RESP with the computed tag. -/
  | authChallenge (k : Chan) (n : Fin 64) (msg : Bytes)
  /-- KEY_INSTALL (R268): KEY_CONTROL OP 0 unwraps a new root, sets the epoch and derives index KIDX for every binding. -/
  | keyInstall (k : Chan) (n : Fin 64) (msg : Bytes)
  /-- KEY_DERIVE (R268): KEY_CONTROL OP 1 keeps the root and derives index KIDX under a higher epoch. -/
  | keyDerive (k : Chan) (n : Fin 64) (msg : Bytes)
  /-- KEY_ERASE_INDEX (R268): KEY_CONTROL OP 2 erases slot base + KIDX − 1 of every binding of the usage. -/
  | keyEraseIndex (k : Chan) (n : Fin 64) (msg : Bytes)
  /-- KEY_ERASE_ALL (R268): KEY_CONTROL OP 3 erases both slots of every binding, the root and both epochs. -/
  | keyEraseAll (k : Chan) (n : Fin 64) (msg : Bytes)
  /-- STREAM_ASSIGN (R117): A STREAM_ASSIGN is placed in the firmware receive queue. -/
  | streamAssign (k : Chan) (n : Fin 64) (msg : Bytes)
  /-- ALLOC_ASSIGN (R107): An ALLOC_ASSIGN is placed in the firmware receive queue for firmware to answer. -/
  | allocAssign (k : Chan) (n : Fin 64) (msg : Bytes)
  /-- POWER_MODE (R117): A POWER_MODE is placed in the firmware receive queue for firmware and PWR. -/
  | powerMode (k : Chan) (n : Fin 64) (msg : Bytes)
  /-- TIME_OF_DAY (R300): A TIME_OF_DAY on the pair in use gives one servo sample, or is counted as rejected or ignored. -/
  | timeOfDay (k : Chan) (n : Fin 64) (msg : Bytes)
  /-- DISABLE (R112): A DISABLE naming the serial number sets DIS_CP or DIS_DEV and moves the pair, or every pair, to Silenced. -/
  | disable (k : Chan) (n : Fin 64) (msg : Bytes)
  /-- ENABLE (R112): An ENABLE clears DIS_CP, or DIS_DEV and every DIS_CP. -/
  | enable (k : Chan) (n : Fin 64) (msg : Bytes)
  /-- DEACTIVATE (R113): A DEACTIVATE moves the pair to Stopped and starts the hold. -/
  | deactivate (k : Chan) (n : Fin 64) (msg : Bytes)
  /-- PROT_SWITCH (R115): An accepted PROT_SWITCH records an order to move the line port at frame FC_EFF. -/
  | protSwitch (k : Chan) (n : Fin 64) (msg : Bytes)
  /-- PROT_SWITCH_EFFECT (R115): At the start of frame FC_EFF the ordered port is written to LPH_PORT.SEL. -/
  | protSwitchEffect
  /-- AUTO_PROT_EXPIRY (R115): Every enabled channel having held RX_LOS for PROT_LOS ms sets SEL to the other port. -/
  | autoProtExpiry
  /-- WAKE_LIST (R78): A WAKE_LIST message naming terminals is passed to PWR. -/
  | wakeList (k : Chan) (n : Fin 64) (msg : Bytes)
  /-- REG_WRITE (R116): A REG_WRITE is carried out at level 3 through the ACU and acknowledged when complete. -/
  | regWrite (k : Chan) (n : Fin 64) (msg : Bytes)
  /-- REG_READ (R116): A REG_READ is carried out at level 3 and answered with REG_VALUE. -/
  | regRead (k : Chan) (n : Fin 64) (msg : Bytes)
  /-- RXQ_POP (R117): POP in ACT_RXQ_CTL removes the head entry of the firmware receive queue. -/
  | rxqPop (i : Initiator) (v : Word)
  /-- TXQ_SEND (R118): GO in ACT_TXQ_CMD queues an ACK, POWER_REQ or REG_VALUE for pair CP, or is refused with ERR. -/
  | txqSend (i : Initiator) (v : Word)
  /-- MAP_RECONCILE (R134): When map N has been judged the Hamper matches predicted bursts to real grants and trims, extends, returns or builds them. -/
  | mapReconcile (k : Chan)
  /-- NOFRAG_WAIT_EXPIRY (R130): A NOFRAG packet passed over in NF_WAIT granted frames is dropped and counts PKT_DROP. -/
  | nofragWaitExpiry (k : Chan)
  /-- BURST_START (R121): At the window's first symbol the burst engine raises BE_GATE and sends preamble, delimiter and body. -/
  | burstStart (k : Chan)
  /-- UPSTREAM_FRAGMENT_ENCODE (R257): As a fragment reaches the encoder it is checked, encrypted under KI_US with the HIGH_FC test, or replaced by idle fill. -/
  | upstreamFragmentEncode (k : Chan) (late : Bool) (c : Checks)
  /-- BURST_LEFT_MODULATOR (R136): The burst's last body symbol has been sent: cells of completed packets are released, shaper debits and queue entries become final. -/
  | burstLeftModulator (k : Chan)
  /-- CHP_FRAME_PARSE (R140): The Chaperone checks the header and every map entry itself and forms the channel's windows. -/
  | chpFrameParse (k : Chan) (header : Bytes) (entries : List Bytes)
  /-- SHUTTER_DRIVE (R141): The Chaperone drives or stops the shutter as its conditions come to hold or cease. -/
  | shutterDrive (k : Chan)
  /-- SHUT_RDY_RISE (R141): SHUT_RDY rises 25 µs after the shutter drive begins. -/
  | shutRdyRise (k : Chan)
  /-- CHP_CLOSE (R142): Loss of SYNC, LOS, CR_LOCK falling, the port-move hold or TN_V and ANN both 0 remove gate and shutter drive. -/
  | chpClose (k : Chan)
  /-- CHP_GATE_OUTSIDE_WINDOW (R142): BE_GATE true outside every window shuts the channel down with cause 1. -/
  | chpGateOutsideWindow (k : Chan)
  /-- CHP_CLOCK_LOSS (R142): No Chaperone clock edge for 8 ns shuts the channel down with cause 2. -/
  | chpClockLoss (k : Chan)
  /-- CHP_GATE_TOO_LONG (R142): A gate opening longer than 250 × MAX_LEN + 256 symbols shuts the channel down with cause 3. -/
  | chpGateTooLong (k : Chan) (symbols : BitVec 32)
  /-- CHP_DUTY_EXCEEDED (R142): Gate-open symbols over 8 frames above DUTY_MAX shut the channel down with cause 4. -/
  | chpDutyExceeded (k : Chan)
  /-- CHP_DIVIDER_MISMATCH (R142): Divider and DSF strobe differing by more than 2 symbols shut the channel down with cause 5. -/
  | chpDividerMismatch (k : Chan) (diff : BitVec 16)
  /-- CHP_COPY_UNCORRECTABLE (R142): An uncorrectable word in a Chaperone copy, limit or checker shuts the channel down with cause 6. -/
  | chpCopyUncorrectable (k : Chan)
  /-- CHP_FATAL_SHUTDOWN (R142): A device fatal fault or CHP being stopped shuts every channel down with cause 7. -/
  | chpFatalShutdown
  /-- CHP_RELEASE (R144): RELEASE at level 0 or 1 runs the self-test and clears CHP_SIL, or sets REL_FAIL. -/
  | chpRelease (i : Initiator) (k : Chan) (v : Word) (held pass : Bool)
  /-- UBE_IND_READ (R146): A GO with RD = 1 reads an allocation or upstream stream context. -/
  | ubeIndRead (i : Initiator) (v : Word)
  /-- UBE_IND_WRITE (R146): A GO with RD = 0 writes an allocation context (staged) or stream context, with refusals of R146. -/
  | ubeIndWrite (i : Initiator) (v : Word)
  /-- PACKET_PASS (R155): A packet's pass is parsed, looked up and its action list carried out to a disposition. -/
  | packetPass (t : PassTurn)
  /-- IDLE_SLOT_ENTRY (R14): A recirculated, reinjected or cascade packet takes an idle slot of its pipeline, or is dropped at a full idle-slot queue. -/
  | idleSlotEntry (n : Pipe)
  /-- REINJECT_NEW_PASS (R158): GO with MODE 0 offers a slow-path packet to start a new first pass. -/
  | reinjectNewPass (i : Initiator) (v : Word)
  /-- REINJECT_TO_QUEUE (R158): GO with MODE 1 offers a packet to be placed straight in leaf QUEUE. -/
  | reinjectToQueue (i : Initiator) (v : Word)
  /-- REINJECT_OFFERED (R158): The reinjected packet has been offered to the idle-slot port and GO reads 0. -/
  | reinjectOffered
  /-- CLS_IND_READ (R179): A GO with RD = 1 reads a rule, action list or channel-pair group. -/
  | clsIndRead (i : Initiator) (v : Word)
  /-- CLS_IND_WRITE (R179): A GO with RD = 0 writes an entry, refused if it breaks R164, R176 or R177. -/
  | clsIndWrite (i : Initiator) (v : Word)
  /-- VERSION_COMMIT_REQUEST (R174): A write of CLS_VER_COMMIT sets PENDING. -/
  | versionCommitRequest (i : Initiator) (v : Word)
  /-- VERSION_COMMIT (R174): When drain counter CUR + 1 is 0 and no sweep runs, CUR advances, PENDING clears and a version-commit swap occurs. -/
  | versionCommit
  /-- SWEEP_DONE (R175): A sweep of all rules ends, having set BORN and retired rules, and any queued sweep starts. -/
  | sweepDone
  /-- SPQ_CONSUME (R180): A CONS write to a slow-path queue frees entries unless the count would go out of range. -/
  | spqConsume (i : Initiator) (q : Fin 8) (v : Word)
  /-- FLOW_INSERT (R186): An insert through FLW_IND_CMD searches for a place or displacement chain. -/
  | flowInsert (i : Initiator) (v : Word)
  /-- FLOW_INSERT_COMPLETE (R187): The insertion's moves are made from the chain ends and the entry placed, stashed, or refused full. -/
  | flowInsertComplete
  /-- LEARN_INSERT (R189): The insertion engine takes a learn request from the learn queue and inserts its key. -/
  | learnInsert
  /-- FLOW_LOOKUP_CMD (R204): OP lookup finds the given key and returns the entry. -/
  | flowLookupCmd (i : Initiator) (v : Word)
  /-- FLOW_UPDATE (R204): OP update changes STATIC, lists, flags and USER of the entry with the key. -/
  | flowUpdate (i : Initiator) (v : Word)
  /-- FLOW_DELETE (R191): OP delete clears VALID at once and holds the CIDX. -/
  | flowDelete (i : Initiator) (v : Word)
  /-- STASH_PLACE (R188): When the engine is idle it tries to place stash entries directly in their buckets. -/
  | stashPlace
  /-- AGE_TICK (R190): Each ageing tick NOW advances and the ager deletes entries past AGE_FIN or AGE_MAX. -/
  | ageTick
  /-- CIDX_HOLD_EXPIRY (R191): 16 µs after a deletion an age record may be written, the CIDX counters are zeroed and the CIDX freed. -/
  | cidxHoldExpiry
  /-- DELTA_FLUSH (R194): A delta word evicted or with bit 39 or 63 set is added to its HBM counter and zeroed. -/
  | deltaFlush (cid : BitVec 22)
  /-- COUNTER_READ (R195): GO in FLW_CRD_CMD returns HBM counts plus delta, subtracting them with CLR. -/
  | counterRead (i : Initiator) (v : Word)
  /-- AGEQ_CONSUME (R191): A CONS write to FLW_AGEQ frees age records unless out of range. -/
  | ageqConsume (i : Initiator) (v : Word)
  /-- RUNAHEAD_ISSUE (R196): The run-ahead issues a single-fragment packet on provisional bits to its downstream pipeline. -/
  | runaheadIssue (k : Chan) (info : Bytes) (idx : BitVec 10) (flips : List (BitVec 16 × BitVec 72))
  /-- CODEWORD_VERDICT (R197): SPC gives a codeword Match or Mismatch in codeword order from its digests. -/
  | codewordVerdict (k : Chan)
  /-- SPEC_TIMEOUT (R201): A speculative packet with no verdict TMO µs after issue is squashed and counted in TIMEOUT. -/
  | specTimeout (k : Chan)
  /-- SPILL_PAGE_WRITE (R211): With 62 committed tail cells the spill mover writes them as one page to the Cellar segment. -/
  | spillPageWrite (key : Fin 262144)
  /-- SPILL_WRITE_DONE (R211): The page write completes and the cells' on-die places are freed. -/
  | spillWriteDone (key : Fin 262144) (page : BitVec 24)
  /-- CELLAR_RETURN_READ (R212): A short head segment with 62 free staging places starts reading the oldest page. -/
  | cellarReturnRead (key : Fin 262144)
  /-- RETURN_READ_DONE (R212): The page's cells join the head segment, the page is freed and S may become 0. -/
  | returnReadDone (key : Fin 262144) (page : BitVec 24) (flips : List (PageWord × BitVec 72))
  /-- HBM_CONDITION_CHECK (R217): Every 1 ms each stack's conditions are compared with its stamp and PERIOD is tested. -/
  | hbmConditionCheck (n : Fin 4) (t : BitVec 16) (duty : BitVec 8)
  /-- HBM_RETRAIN_REQUEST (R217): RETRAIN written 1 moves a STAMPED stack to DRIFTED. -/
  | hbmRetrainRequest (i : Initiator) (v : Word)
  /-- HBM_RETRAIN_START (R217): A DRIFTED stack with no other stack retraining starts its retrain. -/
  | hbmRetrainStart (t : BitVec 16) (duty : BitVec 8)
  /-- HBM_RETRAIN_STEP (R219): One retrain step runs in a refresh slot of its pseudo-channel. -/
  | hbmRetrainStep (n : Fin 4)
  /-- HBM_RETRAIN_DONE (R217): All 512 steps complete and the stack is STAMPED with normal margins. -/
  | hbmRetrainDone (n : Fin 4) (t : BitVec 16) (duty : BitVec 8)
  /-- SCRUB_READ (R222): The scrubber reads a Cellar word and writes back a corrected single-bit error. -/
  | scrubRead (flip : BitVec 72)
  /-- HBM_ROW_TEST (R223): FLT orders a row self-test; CEL fences the row and runs March C−. -/
  | hbmRowTest (a : BitVec 48)
  /-- HBM_ROW_TEST_DONE (R223): The row test ends transient, repaired or retired and the fence is released or kept. -/
  | hbmRowTestDone (a : BitVec 48) (pass spare : Bool)
  /-- CEL_IND_READ (R225): A GO with RD = 1 reads a profile or queue entry. -/
  | celIndRead (i : Initiator) (v : Word)
  /-- CEL_IND_WRITE (R225): A GO with RD = 0 writes a profile or queue entry, with refusals of R225. -/
  | celIndWrite (i : Initiator) (v : Word)
  /-- POOL_WRITE (R224): A pool or FLOOR write discards every queued cell, or is discarded with POOL_ERR. -/
  | poolWrite (i : Initiator) (which : Fin 4) (v : Word)
  /-- SCHEDULE_SELECT (R229): A parent selects an eligible child by strict priority and start-tag WFQ and charges its buckets. -/
  | scheduleSelect (p : LPort)
  /-- SHAPER_REFILL (R233): At each refill of a level every bucket's TOK rises by RATE/256 up to BURST. -/
  | shaperRefill (dir : Fin 2) (level : Fin 3)
  /-- SCH_IND_READ (R249): A GO with RD = 1 reads a leaf, subscriber, service node, port or policer. -/
  | schIndRead (i : Initiator) (v : Word)
  /-- SCH_IND_WRITE (R249): A GO with RD = 0 writes an entry, refused for range, PIR < CIR or R227. -/
  | schIndWrite (i : Initiator) (v : Word)
  /-- LEAF_FLUSH (R237): GO in SCH_FLUSH frees every packet admitted to the leaf before the write and reports PKTS. -/
  | leafFlush (i : Initiator) (v : Word)
  /-- HISTOGRAM_SAMPLE (R240): Each 1.024 ms period every leaf's depth and delay are added to their bins. -/
  | histogramSample
  /-- HISTOGRAM_CLEAR (R241): CLR zeroes the histogram region and SAMPLES. -/
  | histogramClear (i : Initiator) (v : Word)
  /-- GATE_ENTRY_START (R242): A gate-list entry starts and sets the port's eight gates. -/
  | gateEntryStart (p : LPort)
  /-- GATE_LIST_CHANGE (R243): At CCT the administrative list becomes operational and CHANGED is set. -/
  | gateListChange (p : LPort)
  /-- GATE_HOLD_ASSERT (R246): HOLD_ADV before a Set-And-Hold-MAC entry, hold is asserted to the MAC merge sublayer. -/
  | gateHoldAssert (p : LPort)
  /-- GATE_HOLD_RELEASE (R246): REL_ADV before a Set-And-Release-MAC entry, hold is released. -/
  | gateHoldRelease (p : LPort)
  /-- CIPHER_DISPATCH (R251): A queued cipher request is dispatched to a lane by class. -/
  | cipherDispatch (lane : Fin 80)
  /-- CIPHER_COMPLETE (R251): A cipher request completes and its result returns to its source in order. -/
  | cipherComplete (src : CipSrc)
  /-- KEY_GENERATION_DRAINED (R261): A generation's last bound request completes, applying a held rewrite, zeroising or emptying the slot. -/
  | keyGenerationDrained (slot : Fin 8192)
  /-- KLN_DERIVE (R271): KLN_CMD OP 0 derives a key from a root into a slot. -/
  | klnDerive (i : Initiator) (v : Word)
  /-- KLN_UNWRAP (R271): KLN_CMD OP 1 unwraps a key under a firmware root into a slot. -/
  | klnUnwrap (i : Initiator) (v : Word)
  /-- KLN_LOAD (R271): KLN_CMD OP 2 loads a key into a slot. -/
  | klnLoad (i : Initiator) (v : Word)
  /-- KLN_ERASE (R271): KLN_CMD OP 3 erases a slot. -/
  | klnErase (i : Initiator) (v : Word)
  /-- KLN_ROOT_LOAD (R271): KLN_CMD OP 4 loads a firmware root. -/
  | klnRootLoad (i : Initiator) (v : Word)
  /-- KLN_ROOT_ERASE (R271): KLN_CMD OP 5 erases a firmware root. -/
  | klnRootErase (i : Initiator) (v : Word)
  /-- KLN_QUERY (R271): KLN_CMD OP 6 returns a slot's state in KLN_SLOTINFO. -/
  | klnQuery (i : Initiator) (v : Word)
  /-- BIND_READ (R277): A GO with RD = 1 reads a binding. -/
  | bindRead (i : Initiator) (v : Word)
  /-- BIND_WRITE (R270): A GO with RD = 0 writes a binding, deriving its keys or erasing its slots, with refusals of R277. -/
  | bindWrite (i : Initiator) (v : Word)
  /-- RK_PROGRAM (R266): PROG at level 0 programs RK into fuses once, or sets PROG_ERR. -/
  | rkProgram (i : Initiator) (v : Word)
  /-- CIP_IND_READ (R276): A GO with RD = 1 reads a transmit or receive SA. -/
  | cipIndRead (i : Initiator) (v : Word)
  /-- CIP_IND_WRITE (R276): A GO with RD = 0 writes an SA, refused for NEXT_PN 0; a NEXT_PN write clears EXH. -/
  | cipIndWrite (i : Initiator) (v : Word)
  /-- FW_RING_POST (R275): A PROD write to CIP_FWQ posts descriptors unless the count would exceed 1,024. -/
  | fwRingPost (i : Initiator) (v : Word)
  /-- FW_DESCRIPTOR (R275): A firmware descriptor is served, STATUS written and CONS advanced. -/
  | fwDescriptor (err : Bool)
  /-- PORT_ENABLE (R279): EN = 1 in MAC_PHY_CTL starts lane acquisition under the current BRK. -/
  | portEnable (i : Initiator) (P : PPort) (v : Word)
  /-- PORT_DISABLE (R279): EN = 0 ends frames in progress and powers the port's lanes down. -/
  | portDisable (i : Initiator) (P : PPort) (v : Word)
  /-- LINK_CHANGE (R283): LINK of a logical port rises or falls with PCS lock, alignment and fault signalling. -/
  | linkChange (p : LPort) (lanes : BitVec 8) (aligned localF remoteF quiet hiSer : Bool)
  /-- MAC_RECEIVE_FRAME (R285): A received frame is judged by Table 12.3, filtered, verified under MACsec and passed to its pipeline. -/
  | macReceiveFrame (p : LPort) (frame : Bytes) (code line : Bool) (frags : BitVec 16) (assy : Bool) (corr unc : BitVec 16)
  /-- PFC_PAUSE_EXPIRY (R290): A pause timer reaching 0 unpauses its class. -/
  | pfcPauseExpiry (p : LPort) (t : Fin 8)
  /-- PFC_XOFF (R288): A receive queue entering or leaving XOFF sends a PFC frame. -/
  | pfcXoff (p : LPort)
  /-- PFC_REFRESH (R288): While XOFF holds a PFC frame is sent again every PFC_TIME/2 quanta. -/
  | pfcRefresh (p : LPort)
  /-- MAC_TRANSMIT (R289): A packet is padded, protected, corrected for PTP, given its FCS and sent. -/
  | macTransmit (p : LPort) (c : Checks)
  /-- MM_VERIFY_ATTEMPT (R291): Every VERIFY_MS the MAC merge sublayer makes a verification attempt. -/
  | mmVerifyAttempt (p : LPort) (t : VerifyTime)
  /-- CLIENT_LIGHT_LOW (R281): A client light fibre below +16 dBm sets LIGHT_LOW and raises a contained fault. -/
  | clientLightLow (P : PPort)
  /-- SECOND_BOUNDARY (R295): NS carries into S by counting, making a second boundary. -/
  | secondBoundary
  /-- PPS_OUT_FALL (R313): PPS_OUT falls PPS_W ms after it rose. -/
  | ppsOutFall
  /-- TOD_OUT_SEND (R315): 10 ms after each boundary a time-of-day message starts on TOD_OUT. -/
  | todOutSend
  /-- TOD_IN_MESSAGE (R315): A 16-byte message received on TOD_IN is recorded or counted in TODI_BAD. -/
  | todInMessage (m : Bytes)
  /-- TIME_LOAD (R296): LOAD sets the counter to TIM_SET_S and TIM_SET_NS as a step. -/
  | timeLoad (i : Initiator) (v : Word)
  /-- TIME_STEP (R296): STEP adds TIM_STEP_OFS to the counter as a step, re-phasing gate lists. -/
  | timeStep (i : Initiator) (v : Word)
  /-- TOD_READ_LATCH (R296): A read of TIM_TOD_S latches the whole counter for TIM_TOD_NS. -/
  | todReadLatch (i : Initiator)
  /-- TPLL_HOLDOVER (R297): The selected frequency input ceasing to be valid puts the time PLL in holdover. -/
  | tpllHoldover
  /-- TPLL_HOLDOVER_EXIT (R297): 1 s after the input is valid again the time PLL leaves holdover. -/
  | tpllHoldoverExit
  /-- TIME_SAMPLE_WRITE (R306): A write of TIM_SAMPLE gives one servo sample while TSRC = 3. -/
  | timeSampleWrite (i : Initiator) (v : Word)
  /-- PPS_IN_EDGE (R314): A PPS_IN rising edge is time-stamped and gives a sample under TSRC = 2, or is ignored. -/
  | ppsInEdge
  /-- SERVO_SAMPLE_TIMEOUT (R304): No sample for SAMPLE_TO s moves the servo to HOLDOVER. -/
  | servoSampleTimeout
  /-- SERVO_HOLDOVER_EXPIRY (R304): HOLD_MAX s in HOLDOVER moves the servo to FREE. -/
  | servoHoldoverExpiry
  /-- TSQ_POP (R312): POP removes the head entry of the transmit time-stamp queue. -/
  | tsqPop (i : Initiator) (p : LPort) (v : Word)
  /-- TSQ_LOG_CLEAR (R312): LOG_CLR empties the loss log. -/
  | tsqLogClear (i : Initiator) (p : LPort) (v : Word)
  /-- TASK_POST (R322): A write to TSK_POST enters the post queue, stalling the hart while the queue is full. -/
  | taskPost (i : Initiator) (v : Word)
  /-- POST_APPLY (R322): The post queue applies one post, setting a task's flag bit. -/
  | postApply
  /-- HW_EVENT_SOURCE (R321): A hardware source routed by TSK_SRC sets its task's flag bit. -/
  | hwEventSource (n : Fin 64)
  /-- TASK_ASSIGN (R323): The scheduler assigns a READY task to an idle core and interrupts the hart. -/
  | taskAssign
  /-- TASK_DONE (R324): DONE completes the core's task, releasing successors and reloading DEP. -/
  | taskDone (i : Initiator) (c : Fin 8) (v : Word)
  /-- TASK_YIELD (R324): DONE with REQUEUE returns the task to IDLE with its flags and DEP kept. -/
  | taskYield (i : Initiator) (c : Fin 8) (v : Word)
  /-- TASK_CANCEL (R325): CANCEL sets EN = 0 on a task. -/
  | taskCancel (i : Initiator) (v : Word)
  /-- TASK_ENABLE (R325): ENABLE sets EN = 1 on a task. -/
  | taskEnable (i : Initiator) (v : Word)
  /-- TSK_IND_READ (R332): A GO with RD = 1 reads a task context. -/
  | tskIndRead (i : Initiator) (v : Word)
  /-- TSK_IND_WRITE (R332): A GO with RD = 0 writes an idle disabled task's context. -/
  | tskIndWrite (i : Initiator) (v : Word)
  /-- ACU_WINDOW_READ (R330): A GO with RD = 1 reads an ACU window. -/
  | acuWindowRead (i : Initiator) (v : Word)
  /-- ACU_WINDOW_WRITE (R330): A GO with RD = 0 writes a window whole in one ACU clock. -/
  | acuWindowWrite (i : Initiator) (v : Word)
  /-- POWER_REQUEST_FULL (R334): A request for Full powers every trimmed unit up. -/
  | powerRequestFull (i : Initiator) (v : Word)
  /-- POWER_REQUEST_TRIM (R334): A request for Trim powers off the units marked in PWR_TRIM. -/
  | powerRequestTrim (i : Initiator) (v : Word)
  /-- POWER_REQUEST_DOZE (R336): A request for Doze trims units and dozes every modulator. -/
  | powerRequestDoze (i : Initiator) (v : Word)
  /-- POWER_REQUEST_TASTE (R339): A request for Taste waits for all harts in WFI. -/
  | powerRequestTaste (i : Initiator) (v : Word)
  /-- POWER_REQUEST_OFF (R339): A request for Off waits for all harts in WFI. -/
  | powerRequestOff (i : Initiator) (v : Word)
  /-- POWER_ENTRY_START (R340): The last hart executing WFI starts entry to Taste or Off and arms the wake sources. -/
  | powerEntryStart (c : Fin 8)
  /-- POWER_ENTRY_COMPLETE (R346): Entry reaches Taste or Off, or ends in an immediate wake with ABANDON. -/
  | powerEntryComplete
  /-- POWER_TRANSITION_END (R349): A transition ends and a pending request is taken up or discarded with PEND_DROP. -/
  | powerTransitionEnd
  /-- LINE_MODE_AWAKE (R337): GO with MODE 0 schedules the pair to wake at FC_EFF. -/
  | lineModeAwake (i : Initiator) (k : Chan) (v : Word)
  /-- LINE_MODE_DOZE (R337): GO with MODE 1 schedules the pair's modulator to doze from FC_EFF. -/
  | lineModeDoze (i : Initiator) (k : Chan) (v : Word)
  /-- LINE_MODE_SLEEP (R338): GO with MODE 2 schedules the pair to sleep from FC_EFF for DUR frames. -/
  | lineModeSleep (i : Initiator) (k : Chan) (v : Word)
  /-- LINE_MODE_APPLY (R337): At the tick of frame FC_EFF the scheduled line mode takes effect. -/
  | lineModeApply (k : Chan)
  /-- DOZE_END (R337): After DUR frames of doze the pair's modulator is awake again. -/
  | dozeEnd (k : Chan)
  /-- SLEEP_EARLY_WAKE (R338): At the tick of frame FC_EFF + DUR − 8 the receiver warm-starts. -/
  | sleepEarlyWake (k : Chan)
  /-- SLEEP_END (R338): At the tick of FC_EFF + DUR + 8 the pair runs on in Operating or enters Intermittent. -/
  | sleepEnd (k : Chan)
  /-- TASTE_CYCLE (R342): Every INT ms in Taste the taste slice is powered and a frame header is tested for the wake flag. -/
  | tasteCycle (ready : Bool) (a b : Option Bytes) (stamp : BitVec 32)
  /-- TASTE_CYCLE_TIMEOUT (R342): A cycle undecided by 2.0 ms is a miss and the slice powers down. -/
  | tasteCycleTimeout (stamp : BitVec 32)
  /-- WAKE_I2C (R345): The host I2C address appearing on the bus latches wake source I2C. -/
  | wakeI2c (stamp : BitVec 32)
  /-- WAKE_SPI (R344): The host SPI chip select falling latches wake source SPI. -/
  | wakeSpi (stamp : BitVec 32)
  /-- WAKE_SD (R344): Client signal detect above −12 dBm for 10 µs latches wake source SD. -/
  | wakeSd (P : PPort) (stamp : BitVec 32)
  /-- WAKE_N (R344): WAKE_N held low for 1 µs latches wake source WAKE_N. -/
  | wakeN (stamp : BitVec 32)
  /-- WAKE_TIMER (R344): PWR_TMR reaching 0 latches wake source TIMER. -/
  | wakeTimer (stamp : BitVec 32)
  /-- WAKE_START (R347): A latched wake source powers the control domains and restarts core 0. -/
  | wakeStart (mgr safeN : Bool)
  /-- WAKE_RETRY (R348): A regulator or oscillator not ready in time is powered off and restarted, or the wake fails. -/
  | wakeRetry
  /-- WAKE_COMPLETE (R347): A wake completes in Full and sets WAKE. -/
  | wakeComplete
  /-- WAKE_LOG_POP (R346): POP removes the head entry of the wake replay FIFO. -/
  | wakeLogPop (i : Initiator) (v : Word)
  /-- FAULT_LATCH (R351): An error from a source is classed, recorded, merged or made consequential. -/
  | faultLatch (src : Fin 64) (r : ErrReport)
  /-- FAULT_REACTION (R353): The configured reaction of a latched error runs, one at a time in latch order. -/
  | faultReaction
  /-- SELF_TEST_DONE (R354): A targeted self-test ends with a transient or lasting verdict and its outcome. -/
  | selfTestDone (pass : Bool) (pool : Fin 7) (places : BitVec 20) (buckets : List (Fin 262144))
  /-- QUIET_WINDOW_END (R358): QW µs after a reaction ends its quiet window closes. -/
  | quietWindowEnd
  /-- RESET_DEVICE_EXPIRY (R353): 1 ms after RESET_DEVICE enters the safe state the device resets. -/
  | resetDeviceExpiry
  /-- TEMP_WARNING (R352): A junction sensor rising above TEMP_WARN raises one contained error. -/
  | tempWarning (t : BitVec 16)
  /-- SAFE_N_LOW (R360): SAFE_N held low for 100 ns enters the safe state. -/
  | safeNLow
  /-- SAFE_ENTER (R360): ENTER in FLT_SAFE enters the safe state. -/
  | safeEnter (i : Initiator) (v : Word)
  /-- SAFE_EXIT (R362): EXIT at level 0 ends the safe state if its conditions hold, or sets EXIT_ERR. -/
  | safeExit (i : Initiator) (v : Word)
  /-- RECORD_READ (R363): A GO with REL = 0 reads a fault record into FLT_REC_DATA. -/
  | recordRead (i : Initiator) (v : Word)
  /-- RECORD_RELEASE (R363): A GO with REL = 1 releases a record and ends an ISOLATE. -/
  | recordRelease (i : Initiator) (v : Word)
  /-- INJECT_ARM (R359): ARM inverts the MASK check bits in the next word, or every word, the chosen checker checks. -/
  | injectArm (i : Initiator) (v : Word)
  /-- INJECT_DISARM (R359): Writing ARM 0 with CONT = 1 stops continuous injection. -/
  | injectDisarm (i : Initiator) (v : Word)
  /-- LINK_GROUP_ENABLE (R371): EN in CAS_GRP_CTL moves a link group to DETECT or DOWN. -/
  | linkGroupEnable (i : Initiator) (g : Fin 2) (v : Word)
  /-- TERMINATION_PROBE (R371): Every 1 ms in DETECT the common-mode probe looks for a termination and starts training. -/
  | terminationProbe (g : Fin 2) (lanes : BitVec 4)
  /-- TRAIN_DONE (R371): Detected lanes hold bit lock error-free, or 20 ms pass with one locked, and the group moves to COMMA. -/
  | trainDone (g : Fin 2) (locked : BitVec 4) (late : Bool)
  /-- COMMA_LOCK (R371): Three commas at exact spacing on every locked lane move the group to CAPS. -/
  | commaLock (c : CommasSeen)
  /-- LINK_STATE_TIMEOUT (R371): 50 ms in TRAIN, COMMA or CAPS return the group to DETECT. -/
  | linkStateTimeout (g : Fin 2)
  /-- LINK_GROUP_FAIL (R371): Missed commas, CRC errors, lost termination or changed CAPS return an ACTIVE group to DETECT. -/
  | linkGroupFail (g : Fin 2) (why : GroupFail)
  /-- CAS_EQ_WINDOW (R372): A 65,536-bit lane window closes, applying or freezing equaliser updates. -/
  | casEqWindow (g : Fin 2) (lane : Fin 4) (swings : BitVec 17)
  /-- CONTAINER_RECEIVE (R370): A container is checked, forwarded, consumed or discarded with the rest of its packet. -/
  | containerReceive (g : Fin 2) (line : List (List Bool)) (t out : Stamp) (order : List (Fin 16)) (closed : Bool) (flash : Option Bytes)
  /-- CAPS (R371): A received CAPS is agreed and the group becomes ACTIVE on the common lanes and rate. -/
  | caps (g : Fin 2) (line : List (List Bool)) (t out : Stamp) (order : List (Fin 16)) (closed : Bool) (flash : Option Bytes)
  /-- HEARTBEAT (R374): A received HEARTBEAT updates election candidacy and member liveness. -/
  | heartbeat (g : Fin 2) (line : List (List Bool)) (t out : Stamp) (order : List (Fin 16)) (closed : Bool) (flash : Option Bytes)
  /-- JOIN (R375): The manager gives a joining serial number an ID, or refuses a seventeenth device. -/
  | join (g : Fin 2) (line : List (List Bool)) (t out : Stamp) (order : List (Fin 16)) (closed : Bool) (flash : Option Bytes)
  /-- ASSIGN (R375): A received ASSIGN gives the device its ID or marks it refused. -/
  | assign (g : Fin 2) (line : List (List Bool)) (t out : Stamp) (order : List (Fin 16)) (closed : Bool) (flash : Option Bytes)
  /-- VIEW (R376): A VIEW with a newer EPOCH is applied, or a manager steps down to a lower key. -/
  | view (g : Fin 2) (line : List (List Bool)) (t out : Stamp) (order : List (Fin 16)) (closed : Bool) (flash : Option Bytes)
  /-- READ_REQ (R377): The manager reads its flash for a worker and answers with BOOT containers. -/
  | readReq (g : Fin 2) (line : List (List Bool)) (t out : Stamp) (order : List (Fin 16)) (closed : Bool) (flash : Option Bytes)
  /-- BOOT_CONTAINER (R377): A worker takes the flash bytes of a BOOT message for its boot. -/
  | bootContainer (g : Fin 2) (line : List (List Bool)) (t out : Stamp) (order : List (Fin 16)) (closed : Bool) (flash : Option Bytes)
  /-- TIME (R380): A TIME broadcast is corrected, passed on and gives a worker a sample. -/
  | time (g : Fin 2) (line : List (List Bool)) (t out : Stamp) (order : List (Fin 16)) (closed : Bool) (flash : Option Bytes)
  /-- PROBE (R380): A received PROBE is answered with PROBE_RESP. -/
  | probe (g : Fin 2) (line : List (List Bool)) (t out : Stamp) (order : List (Fin 16)) (closed : Bool) (flash : Option Bytes)
  /-- PROBE_RESP (R380): A PROBE_RESP gives the link delay of the group. -/
  | probeResp (g : Fin 2) (line : List (List Bool)) (t out : Stamp) (order : List (Fin 16)) (closed : Bool) (flash : Option Bytes)
  /-- CASCADE_ARRIVAL (R379): A received PKT packet is offered to the idle-slot port of its pipeline and placed in RLEAF. -/
  | cascadeArrival (g : Fin 2)
  /-- HEARTBEAT_TICK (R375): Every 1 ms a member sends HEARTBEAT and PROBE on each ACTIVE group. -/
  | heartbeatTick
  /-- MEMBER_CHECK_TICK (R375): At each 1 ms tick the manager marks members with three empty intervals as left and sends VIEW. -/
  | memberCheckTick (joins : List (BitVec 64)) (order : List (Fin 16)) (closed : Bool)
  /-- ELECTION_TIMEOUT (R374): A device whose candidate has been its own key for 5 ms becomes manager. -/
  | electionTimeout (order : List (Fin 16)) (closed : Bool)
  /-- MGR_LOST (R376): Three empty intervals from the manager set MGR_LOST and restart election. -/
  | mgrLost
  /-- JOIN_RETRY (R375): A refused device retries JOIN every 1 s. -/
  | joinRetry
  /-- BOOT_WAIT_EXPIRY (R377): A flashless worker without an ID at BOOT_WAIT treats both copies invalid. -/
  | bootWaitExpiry
  /-- CAS_IND_READ (R378): A GO with RD = 1 reads a redirect, slot or member entry. -/
  | casIndRead (i : Initiator) (v : Word)
  /-- CAS_IND_WRITE (R378): A GO with RD = 0 writes a redirect or slot entry; member writes are refused. -/
  | casIndWrite (i : Initiator) (v : Word)
  /-- CORE_CLOCK_SWITCH (R385): A CLK_CORE write of SEL switches the harts and L2 glitch-free, or is discarded. -/
  | coreClockSwitch (i : Initiator) (v : Word)
  /-- CPLL_CONFIG (R386): A CLK_CORE write of CPLL_EN or FREQ starts or retunes CPLL, or is discarded. -/
  | cpllConfig (i : Initiator) (v : Word)
  /-- CPLL_LOSS (R383): CPLL losing lock returns the harts to IOSC and raises a contained error. -/
  | cpllLoss
  /-- SPLL_LOSS (R382): Loss of SPLL lock or of IOSC in use is a fatal error. -/
  | spllLoss (iosc : Bool)
  /-- XTAL_FAIL (R384): No crystal edge in four RC32 periods moves the always-on domain to RC32. -/
  | xtalFail
  /-- XTAL_ADOPT (R405): After 1,024 good crystal cycles the always-on domain moves to the crystal. -/
  | xtalAdopt
  /-- SYNC_REF_LOSS (R297): A SYNC_REF input leaving ±50 ppm clears its OK bit and sets its loss event. -/
  | syncRefLoss (n : Fin 2)
  /-- CLOCK_MEASURE (R387): GO in CLK_MEAS counts domain DOM over 50,000 REF cycles. -/
  | clockMeasure (i : Initiator) (v : Word)
  /-- CLOCK_MEASURE_DONE (R387): The 1 ms count ends and COUNT is written. -/
  | clockMeasureDone (count : BitVec 32)
  /-- CLEARING_READ (R6): A core read of an RC field returns its value and clears it to 0, with coinciding events counted after the clear. -/
  | clearingRead (c : Fin 8) (mode : CoreMode) (a : BitVec 48)
  /-- LO_LINE_RESTORED (R64): LO line k rising back to +4 dBm or more lets receiver k's ring regain LO_LOCK. -/
  | loLineRestored (k : Chan)
  /-- COMB_RESTORED (R64): Upstream comb line k rising back to +12 dBm or more clears COMB_LOW. -/
  | combRestored (k : Chan) (pwr : BitVec 16)
  /-- CLIENT_LIGHT_RESTORED (R281): A client light fibre rising back to +16 dBm or more clears LIGHT_LOW for its port. -/
  | clientLightRestored (P : PPort)
  /-- SYNC_REF_RESTORE (R297): A SYNC_REF input coming back within ±50 ppm sets its OK bit and makes it valid again for the time PLL, starting the 1 s before holdover ends. -/
  | syncRefRestore (n : Fin 2)
  /-- CPLL_LOCK_ACQUIRED (R385): CPLL reaches lock within 50 µs of being started or retuned and CPLL_LOCK becomes 1, allowing SEL = 1. -/
  | cpllLockAcquired
  /-- XTAL_ADOPT_TIMEOUT (R405): If the always-on domain has not moved to the crystal 2 s after VAON came into range, XTAL_FAIL is set as R384 states. -/
  | xtalAdoptTimeout
  /-- PPS_IN_TOD_WAIT_EXPIRY (R314): 900 ms after an accepted PPS_IN edge with no TOD_IN message, the reference second is C rounded and the sample is formed. -/
  | ppsInTodWaitExpiry
  /-- PPS_IN_SOURCE_LOST (R304): With TSRC = 2, PPS_IN giving no accepted edge for 2 s is source lost and moves a LOCKING or LOCKED servo to HOLDOVER. -/
  | ppsInSourceLost
  /-- TEMP_WARNING_REARM (R352): Every junction sensor falling 2 °C below TEMP_WARN re-arms the temperature warning. -/
  | tempWarningRearm (t : BitVec 16)
  /-- SAFE_N_HIGH (R362): The SAFE_N ball returning high updates its level so that an EXIT can be accepted. -/
  | safeNHigh
  deriving DecidableEq, Repr

end Sys2Proof
end

