-- ==== Sys2Proof/Decode.lean ====
section
/-! DEFINITION. Words of the table. No row of opcode_table.json gives a command any bits, so no word spells one. -/

namespace Sys2Proof

/-- The command that a word of the table spells: none, since the table gives no row an encoding. -/
def decodeTableWord (_nbits _w : Nat) : Option Instr := none

end Sys2Proof
end

