-- ==== Sys2Proof/Machine/Bits.lean ====
section
/-! DEFINITION. Bit fields of words, big-endian byte strings (R3), saturating and signed arithmetic, and the lists of
the units a mask names. -/

namespace Sys2Proof.Machine

/-- Field [lo + w − 1 : lo] of a word as a number (R3). -/
def fieldOf (v : Word) (lo w : Nat) : Nat := (v.toNat >>> lo) % 2 ^ w

/-- A word with its field [lo + w − 1 : lo] replaced by the low `w` bits of `n` (R3). -/
def setField (v : Word) (lo w n : Nat) : Word :=
  BitVec.ofNat 64 (v.toNat % 2 ^ lo + (n % 2 ^ w) * 2 ^ lo + v.toNat >>> (lo + w) * 2 ^ (lo + w))

/-- Bit `i` of a number. -/
def bitOf (n i : Nat) : Bool := n.testBit i

/-- The number with bit `i` set or cleared. -/
def withBit (n i : Nat) (b : Bool) : Nat :=
  if n.testBit i == b then n else if b then n + 2 ^ i else n - 2 ^ i

/-- A byte from a number. -/
def byte (n : Nat) : Byte := BitVec.ofNat 8 n

/-- The number a byte string spells, most significant byte first (R3). -/
def beNat (l : Bytes) : Nat := l.foldl (fun a b => a * 256 + b.toNat) 0

/-- The `k` low bytes of a number, most significant byte first (R3). -/
def beBytes : Nat → Nat → Bytes
  | 0, _ => []
  | k + 1, n => byte (n / 256 ^ k) :: beBytes k n

/-- `len` bytes of a string from offset `off` (fewer where the string ends). -/
def slice (l : Bytes) (off len : Nat) : Bytes := (l.drop off).take len

/-- The number at bytes `off` to `off + len − 1`. -/
def beAt (l : Bytes) (off len : Nat) : Nat := beNat (slice l off len)

/-- The byte string with `new` written over the bytes at `off`. -/
def overwrite (l : Bytes) (off : Nat) (new : Bytes) : Bytes :=
  l.take off ++ new ++ l.drop (off + new.length)

/-- The 64-bit word at byte offset `off`. -/
def wordAt (l : Bytes) (off : Nat) : Word := BitVec.ofNat 64 (beAt l off 8)

/-- The bytes of a word, bits [63:56] first (R19). -/
def wordBytes (w : Word) : Bytes := beBytes 8 w.toNat

/-- `n` zero bytes. -/
def zeros (n : Nat) : Bytes := List.replicate n 0

/-- A string padded with zero bytes to at least `n` bytes. -/
def padTo (n : Nat) (l : Bytes) : Bytes := l ++ zeros (n - l.length)

/-- Exclusive OR of two strings, over the shorter. -/
def xorBytes (a b : Bytes) : Bytes := List.zipWith (· ^^^ ·) a b

/-- Addition that stays at the largest value of `w` bits. -/
def satAdd (w a b : Nat) : Nat := min (2 ^ w - 1) (a + b)

/-- The signed value of the low `w` bits of a number. -/
def signed (w n : Nat) : Int :=
  let m := n % 2 ^ w
  if 2 * m < 2 ^ w then (m : Int) else (m : Int) - 2 ^ w

/-- The `w`-bit two's complement pattern of an integer. -/
def unsigned (w : Nat) (i : Int) : Nat := (i % (2 ^ w : Nat)).toNat

/-- A number moved to the nearer end of a range it lies outside (R415). -/
def clamp (lo hi n : Nat) : Nat := if n < lo then lo else if hi < n then hi else n

/-- An integer moved to the nearer end of a range it lies outside. -/
def clampInt (lo hi n : Int) : Int := if n < lo then lo else if hi < n then hi else n

/-- The indices below `n` whose bit is set in a mask, rising. -/
def maskList (n mask : Nat) : List Nat := (List.range n).filter (fun i => mask.testBit i)

/-- 1 for true, 0 for false. -/
def b2n (b : Bool) : Nat := if b then 1 else 0

/-- Bits set in the low `n` bits of a number. -/
def popcount (n v : Nat) : Nat := (maskList n v).length

/-- Replaces element `i` of a list (no change beyond its end). -/
def setAt {α : Type} (l : List α) (i : Nat) (v : α) : List α := l.set i v

/-- Puts a value into a sorted list, after the values whose key is not larger. -/
def insertBy {α : Type} (key : α → Nat) (x : α) : List α → List α
  | [] => [x]
  | y :: t => if key x < key y then x :: y :: t else y :: insertBy key x t

/-- A list in rising order of a key; values of one key keep their order. -/
def sortBy {α : Type} (key : α → Nat) (l : List α) : List α := l.foldl (fun a x => insertBy key x a) []

end Sys2Proof.Machine
end

