-- ==== Sys2Proof/Machine/Crc.lean ====
section
/-! DEFINITION. The check codes of the device: the (72,64) code of R17 and R18, the Ethernet CRC-32, the CRC-32C, and
plain most-significant-bit-first remainders of the shorter codes. -/

namespace Sys2Proof.Machine

/-- The byte values with exactly three bits set, in ascending order (R17). -/
def weightThree : List Nat := (List.range 256).filter (fun v => popcount 8 v == 3)

/-- Column value of data bit `i` (R17). -/
def col (i : Nat) : Nat :=
  if i < 56 then weightThree.getD i 0
  else [0x1F, 0x2F, 0x37, 0x3B, 0x3D, 0x3E, 0x4F, 0x57].getD (i - 56) 0

/-- The check byte of a word: exclusive OR of col(i) over every data bit that is 1 (R17). -/
def checkByte (v : Word) : Byte :=
  byte ((List.range 64).foldl (fun c i => if v.toNat.testBit i then c ^^^ col i else c) 0)

/-- What a checker finds (R18). -/
inductive Checked where
  | good
  | corrected (w : Word) (check : Byte)
  | uncorrectable
  deriving DecidableEq, Repr

/-- A checker: syndrome zero is good, a column inverts its bit, a power of two inverts its check bit, and any other
syndrome is uncorrectable (R18). -/
def checkWord (w : Word) (stored : Byte) : Checked :=
  let syn := stored ^^^ checkByte w
  if syn = 0 then .good
  else match (List.range 64).find? (fun i => col i == syn.toNat) with
    | some i => .corrected (w ^^^ BitVec.ofNat 64 (2 ^ i)) stored
    | none =>
      if (List.range 8).any (fun j => 2 ^ j == syn.toNat) then .corrected w (stored ^^^ syn) else .uncorrectable

/-- One byte of a reflected 32-bit CRC with reversed polynomial `poly`. -/
def crcReflByte (poly : Nat) (c : Nat) (b : Byte) : Nat :=
  (List.range 8).foldl (fun c _ => if c % 2 = 1 then (c / 2) ^^^ poly else c / 2) (c ^^^ b.toNat)

/-- A reflected 32-bit CRC with initial value and final inversion all-ones. -/
def crcRefl (poly : Nat) (l : Bytes) : Nat := (l.foldl (crcReflByte poly) 0xFFFFFFFF) ^^^ 0xFFFFFFFF

/-- The Ethernet CRC-32 as a number. -/
def crc32 (l : Bytes) : Nat := crcRefl 0xEDB88320 l

/-- The Ethernet FCS in the order in which its bytes are sent. -/
def fcsBytes (l : Bytes) : Bytes := (beBytes 4 (crc32 l)).reverse

/-- CRC-32C as R79 defines it. -/
def crc32c (l : Bytes) : Nat := crcRefl 0x82F63B78 l

/-- One bit of a most-significant-bit-first CRC of width `w`. -/
def crcMsbBit (w poly : Nat) (c : Nat) (bit : Bool) : Nat :=
  let top := c.testBit (w - 1) != bit
  let c' := (c * 2) % 2 ^ w
  if top then c' ^^^ poly else c'

/-- A most-significant-bit-first CRC of width `w` over bytes, from initial value `init`. -/
def crcMsb (w poly init : Nat) (l : Bytes) : Nat :=
  l.foldl (fun c b => (List.range 8).foldl (fun c i => crcMsbBit w poly c (b.toNat.testBit (7 - i))) c) init

/-- The header error check of an encapsulation header's bits [63:13] (R83). -/
def hec (h : Nat) : Nat :=
  ((List.range 51).foldl (fun r i => crcMsbBit 13 0x1CF5 r (h.testBit (63 - i))) 0) ^^^ 0x0B5D

/-- An encapsulation header with its HEC. -/
def withHec (h : Nat) : Nat := h / 8192 * 8192 + hec h

/-- The header passes its HEC. -/
def hecOk (h : Nat) : Bool := h % 8192 == hec h

/-- A string followed by its CRC-32C, most significant byte first (R79). -/
def withCrc32c (l : Bytes) : Bytes := l ++ beBytes 4 (crc32c l)

/-- A string of `n` bytes ends in the CRC-32C of the bytes before. -/
def crc32cOk (n : Nat) (l : Bytes) : Bool := l.length == n && beAt l (n - 4) 4 == crc32c (l.take (n - 4))

end Sys2Proof.Machine
end

