-- ==== Sys2Proof/Machine/Parse.lean ====
section
/-! DEFINITION. The parse graph, the header checks, the symmetric hashes, the lookup key and the edits of a pass, as
functions of bytes and settings alone (R148 to R168). -/

namespace Sys2Proof.Machine

/-- A header of the stack: HID, byte offset from the pass's start, length (R150). -/
structure Hdr where
  hid : Nat
  off : Nat
  len : Nat
  deriving DecidableEq, Repr

/-- What the parser uses beside the bytes: PRS_SRC_CFG and PRS_TUN. -/
structure ParseCfg where
  depth : Nat
  maxHdr : Nat
  malfPol : Nat
  vxlan : Nat
  geneve : Nat
  gtpu : Nat
  deriving DecidableEq, Repr

/-- The result of parsing. -/
structure Parsed where
  stack : List Hdr
  deep : Bool
  malf : Nat
  trim : Bool
  bytes : Bytes
  deriving DecidableEq, Repr

/-- One byte as a number; 0 beyond the end. -/
def b8 (l : Bytes) (i : Nat) : Nat := (l.getD i 0).toNat

/-- Two bytes as a number. -/
def b16 (l : Bytes) (i : Nat) : Nat := b8 l i * 256 + b8 l (i + 1)

/-- Four bytes as a number. -/
def b32 (l : Bytes) (i : Nat) : Nat := b16 l i * 65536 + b16 l (i + 2)

/-- Dispatch E (R149). -/
def dispatchE (t : Nat) : Option Nat :=
  if t = 0x8100 then some 0x02 else if t = 0x88A8 then some 0x03 else if t = 0x88E7 then some 0x04
  else if t = 0x8847 ∨ t = 0x8848 then some 0x05 else if t = 0x8864 then some 0x06
  else if t = 0x0800 then some 0x07 else if t = 0x86DD then some 0x08 else if t = 0xAEFE then some 0x16
  else if t = 0x88F7 then some 0x17 else if t = 0x88E5 then some 0x18 else none

/-- Dispatch P (R149). -/
def dispatchP (t : Nat) : Option Nat :=
  if t = 0 then some 0x09 else if t = 43 then some 0x0A else if t = 44 then some 0x0B
  else if t = 60 then some 0x0C else if t = 17 then some 0x0D else if t = 6 then some 0x0E
  else if t = 132 then some 0x0F else if t = 1 then some 0x10 else if t = 58 then some 0x11
  else if t = 47 then some 0x12 else if t = 50 then some 0x19 else none

/-- IPV4 or IPV6 by a nibble. -/
def dispatchN (n : Nat) : Option Nat := if n = 4 then some 0x07 else if n = 6 then some 0x08 else none

/-- IPV4 or IPV6 by the nibble at byte `e`. Beyond byte 255, which the parser does not read, the header there is taken to be one
(DESIGN CHOICE, log 193): it is too deep whatever it is (R151). -/
def firstNibble (l : Bytes) (e : Nat) : Option Nat := if 256 ≤ e then some 0x07 else dispatchN (b8 l e / 16)

/-- Length of GTPU: 8, 4 more with E, S or PN, then the extension headers (Table 7.1). One whose length byte lies beyond byte 255
is not read, and counts with the least length (R151). -/
def gtpuLen (l : Bytes) (o : Nat) : Nat :=
  let f := b8 l o
  if f % 8 = 0 then 8
  else if f.testBit 2 then
    let ext (fuel : Nat) : Nat :=
      ((List.range fuel).foldl (fun (a : Nat × Nat) _ =>
        if a.2 = 0 then a
        else if 256 ≤ o + a.1 then (a.1 + 4, 0)
        else
          let n := 4 * b8 l (o + a.1)
          (a.1 + n, if n = 0 then 0 else b8 l (o + a.1 + n - 1))) (12, b8 l (o + 11))).1
    ext 64
  else 12

/-- Length of a header (Table 7.1). -/
def hdrLen (l : Bytes) (hid o : Nat) : Nat :=
  match hid with
  | 0x01 => 14
  | 0x02 => 4
  | 0x03 => 4
  | 0x04 => 18
  | 0x05 => 4
  | 0x06 => 8
  | 0x07 => b8 l o % 16 * 4
  | 0x08 => 40
  | 0x09 => (b8 l (o + 1) + 1) * 8
  | 0x0A => (b8 l (o + 1) + 1) * 8
  | 0x0B => 8
  | 0x0C => (b8 l (o + 1) + 1) * 8
  | 0x0D => 8
  | 0x0E => b8 l (o + 12) / 16 * 4
  | 0x0F => 12
  | 0x10 => 8
  | 0x11 => 8
  | 0x12 => 4 + 4 * (b8 l o / 128 + b8 l o / 32 % 2 + b8 l o / 16 % 2)
  | 0x13 => 8
  | 0x14 => 8 + b8 l o % 64 * 4
  | 0x15 => gtpuLen l o
  | 0x16 => 4
  | 0x17 => 34
  | 0x18 => if (b8 l o).testBit 5 then 14 else 6
  | _ => 8

/-- The next header after one at `o` (Table 7.1). -/
def hdrNext (c : ParseCfg) (l : Bytes) (h : Hdr) : Option Nat :=
  let o := h.off
  let e := o + h.len
  match h.hid with
  | 0x01 => dispatchE (b16 l (o + 12))
  | 0x02 => dispatchE (b16 l (o + 2))
  | 0x03 => dispatchE (b16 l (o + 2))
  | 0x04 => dispatchE (b16 l (o + 16))
  | 0x05 => if b8 l (o + 2) % 2 = 0 then some 0x05 else firstNibble l e
  | 0x06 =>
    if b8 l (o + 1) ≠ 0 then none
    else if b16 l (o + 6) = 0x0021 then some 0x07
    else if b16 l (o + 6) = 0x0057 then some 0x08 else none
  | 0x07 => if b16 l (o + 6) % 8192 ≠ 0 then none else dispatchP (b8 l (o + 9))
  | 0x08 => dispatchP (b8 l (o + 6))
  | 0x09 => dispatchP (b8 l o)
  | 0x0A => dispatchP (b8 l o)
  | 0x0B => if b16 l (o + 2) / 8 ≠ 0 then none else dispatchP (b8 l o)
  | 0x0C => dispatchP (b8 l o)
  | 0x0D =>
    let p := b16 l (o + 2)
    if p = c.vxlan then some 0x13 else if p = c.geneve then some 0x14 else if p = c.gtpu then some 0x15
    else if p = 319 ∨ p = 320 then some 0x17 else none
  | 0x12 => if b16 l (o + 2) = 0x6558 then some 0x01 else dispatchE (b16 l (o + 2))
  | 0x13 => some 0x01
  | 0x14 => if b16 l (o + 2) = 0x6558 then some 0x01 else dispatchE (b16 l (o + 2))
  | 0x15 => if b8 l (o + 1) = 0xFF then firstNibble l e else none
  | _ => none

/-- Sum of the 16-bit words of a string (an odd last byte is padded). -/
def sum16 : Bytes → Nat
  | [] => 0
  | [a] => a.toNat * 256
  | a :: b :: t => a.toNat * 256 + b.toNat + sum16 t

/-- One's complement folding to 16 bits. -/
def fold16 (n : Nat) : Nat :=
  let f (n : Nat) : Nat := n % 65536 + n / 65536
  f (f (f n))

/-- The Internet checksum of a string. -/
def inetSum (l : Bytes) : Nat := 65535 - fold16 (sum16 l)

/-- Total length an IP header states, from its first byte. -/
def ipTotal (l : Bytes) (h : Hdr) : Nat := if h.hid = 0x07 then b16 l (h.off + 2) else b16 l (h.off + 4) + 40

/-- The header is IPV4 or IPV6. -/
def Hdr.isIp (h : Hdr) : Bool := h.hid == 0x07 || h.hid == 0x08

/-- The header is VLAN_C or VLAN_S. -/
def Hdr.isTag (h : Hdr) : Bool := h.hid == 0x02 || h.hid == 0x03

/-- The first failing check of Table 7.2 for a header; `stack` holds the headers before it; 0: none. A frame of exactly 64
bytes does not fail reason 11 (R152). -/
def hdrCheck (l : Bytes) (stack : List Hdr) (h : Hdr) : Nat :=
  let o := h.off
  let avail := l.length - 4 - o
  let ipEnd := match (stack.filter Hdr.isIp).getLast? with
    | some i => i.off + ipTotal l i
    | none => l.length - 4
  if avail < h.len then 1
  else if (h.hid = 0x07 ∧ b8 l o / 16 ≠ 4) ∨ (h.hid = 0x08 ∧ b8 l o / 16 ≠ 6) then 2
  else if h.hid = 0x07 ∧ b8 l o % 16 < 5 then 3
  else if h.hid = 0x07 ∧ fold16 (sum16 (slice l o h.len)) ≠ 65535 then 4
  else if h.isIp ∧ avail < ipTotal l h then 5
  else if h.hid = 0x07 ∧ ipTotal l h < h.len then 6
  else if h.hid = 0x09 ∧ (stack.getLast?.map (·.hid)) ≠ some 0x08 then 7
  else if (h.hid = 0x0E ∧ b8 l (o + 12) / 16 < 5) ∨
      (h.hid = 0x0D ∧ (b16 l (o + 4) < 8 ∨ ipEnd - o < b16 l (o + 4))) then 8
  else if h.hid = 0x06 ∧ avail < b16 l (o + 4) + 6 then 9
  else if (h.hid = 0x12 ∧ (b8 l (o + 1) % 8 ≠ 0 ∨ (b8 l o).testBit 6)) ∨ (h.hid = 0x14 ∧ b8 l o / 64 ≠ 0) ∨
      (h.hid = 0x13 ∧ !(b8 l o).testBit 3) ∨ (h.hid = 0x15 ∧ b8 l o / 32 ≠ 1) then 10
  else if h.isIp ∧ !stack.any Hdr.isIp ∧ ipTotal l h < avail ∧ l.length ≠ 64 then 11
  else 0

/-- Bytes of a header that give its length. -/
def lenBytes (hid : Nat) : Nat :=
  match hid with
  | 0x07 => 1
  | 0x09 => 2
  | 0x0A => 2
  | 0x0C => 2
  | 0x0E => 13
  | 0x12 => 1
  | 0x14 => 1
  | 0x15 => 1
  | 0x18 => 1
  | _ => 0

/-- The next header would make the packet deep (R151): one whose length stands beyond byte 255 ends beyond every DEPTH. -/
def tooDeep (c : ParseCfg) (stack : List Hdr) (h : Hdr) : Bool :=
  decide (c.depth < h.off + h.len) || decide (256 < h.off + lenBytes h.hid) || decide (c.maxHdr ≤ stack.length) ||
    (h.isTag && decide (4 ≤ stack.countP Hdr.isTag)) ||
    (h.hid == 0x05 && decide (8 ≤ stack.countP (fun x => x.hid == 0x05))) ||
    (h.hid == 0x04 && stack.any (fun x => x.hid == 0x04))

/-- The packet cut 4 bytes after the end of an IP packet, its FCS kept in place (R153). -/
def trimAt (l : Bytes) (h : Hdr) : Bytes := l.take (h.off + ipTotal l h) ++ l.drop (l.length - 4)

/-- Parses from header `hid` at `o` (R149 to R153); `fuel` bounds the headers. -/
def parseFrom (c : ParseCfg) : Nat → Parsed → Nat → Nat → Parsed
  | 0, r, _, _ => r
  | fuel + 1, r, hid, o =>
    let h : Hdr := ⟨hid, o, hdrLen r.bytes hid o⟩
    if tooDeep c r.stack h then { r with deep := true }
    else
      let m := hdrCheck r.bytes r.stack h
      let trim := m == 11 && decide (2 ≤ c.malfPol)
      if m ≠ 0 ∧ !trim then { r with malf := m, stack := r.stack ++ [h] }
      else
        let r := if trim then { r with trim := true, bytes := trimAt r.bytes h } else r
        let r := { r with stack := r.stack ++ [h] }
        match hdrNext c r.bytes h with
        | some n => parseFrom c fuel r n (o + h.len)
        | none => r

/-- Parses a pass. -/
def parse (c : ParseCfg) (l : Bytes) (hid : Nat) : Parsed := parseFrom c 17 ⟨[], false, 0, false, l⟩ hid 0

/-! ### Fields of the key (R161, Table 7.5) -/

/-- The first header of the stack that satisfies a test. -/
def Parsed.first (r : Parsed) (f : Hdr → Bool) : Option Hdr := r.stack.find? f

/-- The first header with a HID. -/
def Parsed.hid (r : Parsed) (n : Nat) : Option Hdr := r.first (fun h => h.hid == n)

/-- The packet is a fragment (R154). -/
def Parsed.frag (r : Parsed) : Bool :=
  r.stack.any (fun h =>
    (h.hid == 0x07 && (decide (b16 r.bytes (h.off + 6) % 8192 ≠ 0) || (b8 r.bytes (h.off + 6)).testBit 5)) ||
      h.hid == 0x0B)

/-- Where the EtherType that names the next header stands in a header that carries one. -/
def etypePos (h : Hdr) : Option Nat :=
  if h.hid = 0x01 then some (h.off + 12)
  else if h.isTag ∨ h.hid = 0x12 ∨ h.hid = 0x14 then some (h.off + 2)
  else if h.hid = 0x04 then some (h.off + 16)
  else none

/-- ETYPE: the last EtherType read before the first header that is not ETH, VLAN_C, VLAN_S or PBB_I. -/
def Parsed.etype (r : Parsed) : Nat :=
  match (r.stack.takeWhile (fun h => h.hid == 0x01 || h.isTag || h.hid == 0x04)).getLast? with
  | some h => (etypePos h).elim 0 (b16 r.bytes)
  | none => 0

/-- The first IPV4 or IPV6. -/
def Parsed.ip (r : Parsed) : Option Hdr := r.first Hdr.isIp

/-- The first UDP, TCP, SCTP, ICMP or ICMPV6 after that IP header. -/
def Parsed.l4 (r : Parsed) : Option Hdr :=
  ((r.stack.dropWhile (fun h => !h.isIp)).drop 1).find? (fun h => decide (0x0D ≤ h.hid ∧ h.hid ≤ 0x11))

/-- PROTO: the protocol field of the first IPV4, or the last next-header value read in the first IPV6 and its extension
headers. -/
def Parsed.proto (r : Parsed) : Nat :=
  match r.stack.dropWhile (fun h => !h.isIp) with
  | [] => 0
  | i :: t =>
    if i.hid = 0x07 then b8 r.bytes (i.off + 9)
    else match (t.takeWhile (fun h => decide (0x09 ≤ h.hid ∧ h.hid ≤ 0x0C))).getLast? with
      | some x => b8 r.bytes x.off
      | none => b8 r.bytes (i.off + 6)

/-- Source and destination addresses of an IP header as 128-bit numbers. -/
def Parsed.addrs (r : Parsed) (h : Hdr) : Nat × Nat :=
  if h.hid = 0x07 then (b32 r.bytes (h.off + 12), b32 r.bytes (h.off + 16))
  else (beAt r.bytes (h.off + 8) 16, beAt r.bytes (h.off + 24) 16)

/-- Source and destination ports of UDP, TCP or SCTP, 0 for fragments and other protocols (R159). -/
def Parsed.ports (r : Parsed) : Nat × Nat :=
  match r.l4 with
  | some h => if decide (h.hid ≤ 0x0F) && !r.frag then (b16 r.bytes h.off, b16 r.bytes (h.off + 2)) else (0, 0)
  | none => (0, 0)

/-- VID of the n-th tag. -/
def Parsed.vid (r : Parsed) (n : Nat) : Nat :=
  ((r.stack.filter Hdr.isTag)[n]?).elim 0 (fun h => b16 r.bytes h.off % 4096)

/-- PCP of the n-th tag. -/
def Parsed.pcp (r : Parsed) (n : Nat) : Nat :=
  ((r.stack.filter Hdr.isTag)[n]?).elim 0 (fun h => b16 r.bytes h.off / 8192)

/-- The 40-byte tuple of R159, and its format (R182). -/
def Parsed.tuple (r : Parsed) : Bytes × Nat :=
  match r.ip with
  | some h =>
    let a := r.addrs h
    let p := r.ports
    let s := a.1 * 65536 + p.1
    let d := a.2 * 65536 + p.2
    let lo := min s d
    let hi := max s d
    (beBytes 16 (lo / 65536) ++ beBytes 16 (hi / 65536) ++ beBytes 2 (lo % 65536) ++ beBytes 2 (hi % 65536)
      ++ [byte r.proto, 0, 0, 0], if h.hid = 0x07 then 1 else 2)
  | none =>
    let da := (r.hid 0x01).elim 0 (fun h => beAt r.bytes h.off 6)
    let sa := (r.hid 0x01).elim 0 (fun h => beAt r.bytes (h.off + 6) 6)
    (beBytes 16 (min da sa) ++ beBytes 16 (max da sa) ++ beBytes 2 r.etype ++ beBytes 2 (r.vid 0) ++ zeros 4, 0)

/-- The side bit S (R183): the source endpoint is the higher one. -/
def Parsed.side (r : Parsed) : Bool :=
  match r.ip with
  | some h =>
    let a := r.addrs h
    let p := r.ports
    decide (a.2 * 65536 + p.2 < a.1 * 65536 + p.1)
  | none =>
    let da := (r.hid 0x01).elim 0 (fun h => beAt r.bytes h.off 6)
    let sa := (r.hid 0x01).elim 0 (fun h => beAt r.bytes (h.off + 6) 6)
    decide (da < sa)

/-- H1 of a tuple (R159). -/
def hash1 (seed : Nat) (t : Bytes) : Nat := crc32c (beBytes 4 seed ++ t)

/-- H2 of a tuple (R159). -/
def hash2 (seed : Nat) (t : Bytes) : Nat :=
  let x := (List.range 10).foldl (fun x i => x ^^^ beAt t (4 * i) 4) seed
  let x := ((x ^^^ (x >>> 16)) * 0x7FEB352D) % 2 ^ 32
  let x := ((x ^^^ (x >>> 15)) * 0x846CA68B) % 2 ^ 32
  x ^^^ (x >>> 16)

/-- TUN_ID: the first of VXLAN or GENEVE VNI, GTPU TEID, GRE key, PBB_I I-SID or ESP SPI. -/
def Parsed.tunId (r : Parsed) : Nat :=
  (r.stack.findSome? (fun h =>
    let o := h.off
    if h.hid = 0x13 ∨ h.hid = 0x14 then some (beAt r.bytes (o + 4) 3)
    else if h.hid = 0x15 then some (b32 r.bytes (o + 4))
    else if h.hid = 0x12 ∧ (b8 r.bytes o).testBit 5 then some (b32 r.bytes (o + 4 + 4 * (b8 r.bytes o / 128)))
    else if h.hid = 0x04 then some (beAt r.bytes (o + 1) 3)
    else if h.hid = 0x19 then some (b32 r.bytes o)
    else none)).getD 0

/-- PFLAGS (Table 7.5). -/
def Parsed.pflags (r : Parsed) : Nat :=
  let da := (r.hid 0x01).elim 0 (fun h => beAt r.bytes h.off 6)
  let bc := da == 2 ^ 48 - 1
  128 * b2n r.deep + 64 * b2n r.trim + 32 * b2n r.frag
    + 16 * b2n (r.stack.any (fun h => decide (0x12 ≤ h.hid ∧ h.hid ≤ 0x15)))
    + 8 * b2n (r.stack.any (fun h => (h.hid == 0x07 && decide (20 < h.len)) || decide (0x09 ≤ h.hid ∧ h.hid ≤ 0x0C)))
    + 4 * b2n (da.testBit 40 && !bc) + 2 * b2n bc

/-- HID of the last header parsed. -/
def Parsed.lastHid (r : Parsed) : Nat := r.stack.getLast?.elim 0 (·.hid)

/-- The 640-bit key (Table 7.5). -/
def Parsed.key (r : Parsed) (dir : Nat) (second : Bool) (src sid meta_ tun : Nat) : Nat :=
  let l := r.bytes
  let put (lo v : Nat) : Nat := v * 2 ^ lo
  let eth (o n : Nat) := (r.hid 0x01).elim 0 (fun h => beAt l (h.off + o) n)
  let mpls := r.stack.filter (fun h => h.hid == 0x05)
  let m0 := mpls.head?.elim 0 (fun h => b32 l h.off)
  let l3 := r.ip.elim 0 (fun h => if h.hid = 0x07 then 1 else 2)
  let tos := r.ip.elim 0 (fun h => if h.hid = 0x07 then b8 l (h.off + 1) else b16 l h.off / 16 % 256)
  let ttl := r.ip.elim 0 (fun h => if h.hid = 0x07 then b8 l (h.off + 8) else b8 l (h.off + 7))
  let flow := r.ip.elim 0 (fun h => if h.hid = 0x08 then b32 l h.off % 2 ^ 20 else 0)
  let a := r.ip.elim (0, 0) (fun h => r.addrs h)
  let l4 := r.l4.elim (0, 0) (fun h =>
    if h.hid ≤ 0x0F then (b16 l h.off, b16 l (h.off + 2)) else (b8 l h.off * 256 + b8 l (h.off + 1), 0))
  let flags := r.l4.elim 0 (fun h => if h.hid = 0x0E then b8 l (h.off + 13) else 0)
  let app := (r.stack.findSome? (fun h =>
    if h.hid = 0x16 then some (b8 l (h.off + 1))
    else if h.hid = 0x17 then some (b8 l (h.off + 4) * 256 + b8 l h.off % 16)
    else if h.hid = 0x15 then some (b8 l (h.off + 1))
    else none)).getD 0
  put 639 dir + put 638 (b2n second) + put 632 src + put 624 r.pflags + put 608 sid + put 592 meta_
    + put 576 r.etype + put 528 (eth 0 6) + put 480 (eth 6 6) + put 468 (r.vid 0) + put 465 (r.pcp 0)
    + put 453 (r.vid 1) + put 450 (r.pcp 1) + put 448 l3 + put 428 (m0 / 4096) + put 425 (m0 / 512 % 8)
    + put 421 mpls.length + put 415 (tos / 4) + put 413 (tos % 4) + put 405 ttl + put 385 flow + put 256 a.1
    + put 128 a.2 + put 112 l4.1 + put 96 l4.2 + put 88 r.proto + put 80 flags + put 64 app + put 32 tun
    + put 27 r.lastHid + put 22 r.stack.length

/-! ### Edits (R166, R167) -/

/-- A header as edits see it: its instance among the parsed headers of its HID; none: pushed in this pass. -/
structure EHdr where
  h : Hdr
  inst : Option Nat
  deriving DecidableEq, Repr

/-- A packet being edited. -/
structure Edit where
  bytes : Bytes
  hdrs : List EHdr
  /-- Start offset, a head cell, EDIT_MISS counted, a TTL of 0 or 1 found. -/
  start : Nat
  head : Bool
  miss : Nat
  ttl : Bool
  deriving DecidableEq, Repr

/-- The headers of a pass from its first ETH on, each with its instance number. -/
def editHdrs (stack : List Hdr) : List EHdr :=
  (List.range stack.length).map (fun i =>
    let h := stack.getD i ⟨0, 0, 0⟩
    ⟨h, some ((stack.take i).countP (fun x => x.hid == h.hid))⟩)

/-- Removes `n` bytes at `o`; headers behind move forward. -/
def Edit.cut (e : Edit) (o n : Nat) : Edit :=
  { e with bytes := e.bytes.take o ++ e.bytes.drop (o + n),
           hdrs := e.hdrs.map (fun x => if o + n ≤ x.h.off then { x with h := { x.h with off := x.h.off - n } } else x),
           start := e.start + n }

/-- Inserts bytes at `o`; headers at or behind move back. -/
def Edit.put (e : Edit) (o : Nat) (b : Bytes) : Edit :=
  { e with bytes := e.bytes.take o ++ b ++ e.bytes.drop o,
           hdrs := e.hdrs.map (fun x => if o ≤ x.h.off then { x with h := { x.h with off := x.h.off + b.length } } else x),
           head := true }

/-- An edit that finds nothing to do. -/
def Edit.missed (e : Edit) : Edit := { e with miss := e.miss + 1 }

/-- The edit acts on the first ETH and the headers after it. -/
def Edit.scope (e : Edit) : List EHdr := e.hdrs.dropWhile (fun x => x.h.hid != 0x01)

/-- POP_TAG: each tag goes with the two bytes of TPID before it. -/
def Edit.popTag (e : Edit) (n : Nat) : Edit :=
  if e.scope.countP (fun x => x.h.isTag) < n then e.missed
  else (List.range n).foldl (fun e _ =>
    match e.scope.find? (fun x => x.h.isTag) with
    | some x => { e with hdrs := e.hdrs.erase x }.cut (x.h.off - 2) 4
    | none => e) e

/-- PUSH_TAG after SA. -/
def Edit.pushTag (e : Edit) (s : Bool) (tci : Nat) : Edit :=
  match e.scope with
  | x :: _ =>
    let o := x.h.off + 12
    let e := e.put o (beBytes 2 (if s then 0x88A8 else 0x8100) ++ beBytes 2 tci)
    let pre := e.hdrs.takeWhile (fun y => decide (y.h.off ≤ x.h.off))
    { e with hdrs := pre ++ ⟨⟨if s then 0x03 else 0x02, o + 2, 4⟩, none⟩ :: e.hdrs.drop pre.length }
  | [] => e.missed

/-- The first label goes, wherever it stands; a bottom label sets the EtherType of the header before it. -/
def Edit.popLabel (etype : Nat) (e : Edit) : Edit :=
  match e.scope.find? (fun x => x.h.hid == 0x05), (e.scope.takeWhile (fun x => x.h.hid != 0x05)).getLast? with
  | some x, some p =>
    let bottom := b8 e.bytes (x.h.off + 2) % 2 == 1
    let e := { e with hdrs := e.hdrs.erase x }.cut x.h.off 4
    match bottom, etypePos p.h with
    | true, some o => { e with bytes := overwrite e.bytes o (beBytes 2 etype) }
    | _, _ => e
  | _, _ => e

/-- POP_MPLS: the first `n` labels, each where it stands. -/
def Edit.popMpls (e : Edit) (n etype : Nat) : Edit :=
  if e.scope.countP (fun x => x.h.hid == 0x05) < n then e.missed
  else (List.range n).foldl (fun e _ => e.popLabel etype) e

/-- PUSH_MPLS before the first label, or after the tags. -/
def Edit.pushMpls (e : Edit) (label tc ttl : Nat) : Edit :=
  let w (s : Nat) : Bytes := beBytes 4 (label * 4096 + tc * 512 + s * 256 + ttl)
  let at_ (e : Edit) (o s : Nat) : Edit :=
    let e := e.put o (w s)
    let pre := e.hdrs.takeWhile (fun y => decide (y.h.off < o))
    { e with hdrs := pre ++ ⟨⟨0x05, o, 4⟩, none⟩ :: e.hdrs.drop pre.length }
  match e.scope.find? (fun x => x.h.hid == 0x05) with
  | some x => at_ e x.h.off 0
  | none =>
    match e.scope with
    | x :: t =>
      let last := ((t.takeWhile (fun y => y.h.isTag)).getLast?).getD x
      let o := last.h.off + last.h.len
      let e := match etypePos last.h with
        | some p => { e with bytes := overwrite e.bytes p (beBytes 2 0x8847) }
        | none => e
      at_ e o 1
    | [] => e.missed

/-- RFC 1624 update of a checksum for one changed word. -/
def sumUpdate (c old new : Nat) : Nat := 65535 - fold16 ((65535 - c) + (65535 - old) + new)

/-- The UDP or TCP checksum agrees again after `old` became `new`, for changes to the addresses of IP header `ip` or the
ports of `l4` (R167). -/
def fixL4 (ip l4 : Hdr) (old new : Bytes) : Bytes :=
  let pos := l4.off + (if l4.hid = 0x0D then 6 else 16)
  let c := b16 new pos
  let words := (if ip.hid = 0x07 then (List.range 4).map (fun i => ip.off + 12 + 2 * i)
    else (List.range 16).map (fun i => ip.off + 8 + 2 * i)) ++ [l4.off, l4.off + 2]
  if l4.hid = 0x0D ∧ ip.hid = 0x07 ∧ c = 0 then new
  else overwrite new pos (beBytes 2 (words.foldl (fun c o => sumUpdate c (b16 old o) (b16 new o)) c))

/-- REWRITE of `n` bytes at `off` within an instance of a header. -/
def Edit.rewrite (e : Edit) (hid inst off n v : Nat) : Edit :=
  match e.scope.find? (fun x => x.h.hid == hid && x.inst == some inst) with
  | some x =>
    if x.h.len < off + n then e.missed
    else
      let new := overwrite e.bytes (x.h.off + off) (beBytes n v)
      match e.hdrs.find? (fun y => y.h.isIp),
          ((e.hdrs.dropWhile (fun y => !y.h.isIp)).find? (fun y => y.h.hid == 0x0D || y.h.hid == 0x0E)) with
      | some i, some t => { e with bytes := fixL4 i.h t.h e.bytes new }
      | _, _ => { e with bytes := new }
  | none => e.missed

/-- DEC_TTL. -/
def Edit.decTtl (e : Edit) : Edit :=
  match e.scope.find? (fun x => x.h.isIp) with
  | some x =>
    let o := x.h.off + (if x.h.hid = 0x07 then 8 else 7)
    if b8 e.bytes o < 2 then { e with ttl := true }
    else { e with bytes := overwrite e.bytes o [byte (b8 e.bytes o - 1)] }
  | none => e.missed

/-- The header checksum of the first IPV4 is recomputed where its bytes changed (R167). -/
def Edit.ipSum (old : Bytes) (oldHdrs : List EHdr) (e : Edit) : Edit :=
  match oldHdrs.find? (fun x => x.h.hid == 0x07), e.hdrs.find? (fun x => x.h.hid == 0x07) with
  | some a, some b =>
    let h := b.h
    if slice old a.h.off a.h.len = slice e.bytes h.off h.len then e
    else
      let z := overwrite e.bytes (h.off + 10) [0, 0]
      { e with bytes := overwrite z (h.off + 10) (beBytes 2 (inetSum (slice z h.off h.len))) }
  | _, _ => e

/-- One word of an action list as an edit (Table 7.6); other words change nothing. -/
def Edit.word (e : Edit) (w : Word) : Edit :=
  let f := fieldOf w
  match f 58 6 with
  | 0x0A => e.pushTag (f 16 1 == 1) (f 0 16)
  | 0x0B => e.popTag (f 0 3)
  | 0x0C => e.pushMpls (f 12 20) (f 9 3) (f 0 8)
  | 0x0D => e.popMpls (f 16 4) (f 0 16)
  | 0x0E => e.rewrite (f 48 5) (f 46 2) (f 39 7) (f 37 2 + 1) (f 0 32)
  | 0x0F => e.decTtl
  | _ => e

/-- Phase 2 of a list (R165): edits in list order, then the header checksum. -/
def runEdits (l : Bytes) (stack : List Hdr) (start : Nat) (head : Bool) (words : List Word) : Edit :=
  let e0 : Edit := ⟨l, editHdrs stack, start, head, 0, false⟩
  (words.foldl Edit.word e0).ipSum l e0.hdrs

end Sys2Proof.Machine
end

