-- ==== Sys2Proof/Config.lean ====
section
/-! DEFINITION. What one device fixes for good (its fuses) and the free values: constants without a body, so that no
proof can rest on a value the spec leaves open. -/

namespace Sys2Proof.Config

/-- The serial number in the fuses, read through ACT_SN: vendor code in bits 63 to 32, unit number below. -/
opaque fuseSerial : BitVec 64

/-- The root key RK as the fuses hold it when the device is delivered: none where RK has not been programmed (R266). -/
opaque fuseRk : Option (BitVec 256)

/-- SHA-384 of the public key that the fuses hold (R26). -/
opaque fuseKeyHash : BitVec 384

/-- The contents of the boot ROM, one byte per address (Table 14.1): the spec does not print them. -/
opaque bootRom : Nat → BitVec 8

/-- FLT_CHK_INFO of each checker number: which checkers the device has, and what each covers, the spec does not list. -/
opaque checkerInfo : Nat → BitVec 64

/-- Free values: the `n`-th value drawn in a run, for a result the spec leaves open. Nothing constrains it. -/
opaque freeValue : Nat → BitVec 64

end Sys2Proof.Config
end

