-- ==== Sys2Proof/Machine/Regs.lean ====
section
/-! DEFINITION. The registers of the device: their addresses (R411, R412, Table 20.2 and the register tables of
chapters 02 to 18) and the places of their fields. Written out from the register tables of the spec. A name with an
argument `u` is an array over channels, pipelines or ports, whose number is the 8-bit number of a 64 KiB sub-window (physical
ports: 7 bits beside the window's base); `n` is an index in an array of registers, which stays within its sub-window. -/

namespace Sys2Proof.Machine

/-- A field of a register: the register's address and the field's lowest bit and width (R3). -/
structure RF where
  addr : Nat
  lo : Nat
  w : Nat
  deriving DecidableEq, Repr

/-- CFG_BOOT_STATUS, RO (chapter 02). -/
def CFG_BOOT_STATUS : RF := ⟨0x1000000, 0, 64⟩
def CFG_BOOT_STATUS_CFG_IDX : RF := ⟨(CFG_BOOT_STATUS).addr, 49, 10⟩
def CFG_BOOT_STATUS_CFG_FAIL : RF := ⟨(CFG_BOOT_STATUS).addr, 48, 1⟩
def CFG_BOOT_STATUS_SEQ : RF := ⟨(CFG_BOOT_STATUS).addr, 16, 32⟩
def CFG_BOOT_STATUS_IOW : RF := ⟨(CFG_BOOT_STATUS).addr, 12, 4⟩
def CFG_BOOT_STATUS_FAIL_B : RF := ⟨(CFG_BOOT_STATUS).addr, 8, 4⟩
def CFG_BOOT_STATUS_FAIL_A : RF := ⟨(CFG_BOOT_STATUS).addr, 4, 4⟩
def CFG_BOOT_STATUS_SRC : RF := ⟨(CFG_BOOT_STATUS).addr, 3, 1⟩
def CFG_BOOT_STATUS_RETRY : RF := ⟨(CFG_BOOT_STATUS).addr, 2, 1⟩
def CFG_BOOT_STATUS_FALLBACK : RF := ⟨(CFG_BOOT_STATUS).addr, 1, 1⟩
def CFG_BOOT_STATUS_COPY : RF := ⟨(CFG_BOOT_STATUS).addr, 0, 1⟩
/-- CFG_RESET, WO (chapter 02). -/
def CFG_RESET : RF := ⟨0x1000008, 0, 64⟩
def CFG_RESET_KEY : RF := ⟨(CFG_RESET).addr, 0, 16⟩
/-- CFG_BLK_RUN, RW (chapter 02). -/
def CFG_BLK_RUN : RF := ⟨0x1000010, 0, 64⟩
/-- CFG_BLK_STOPPED, RO (chapter 02). -/
def CFG_BLK_STOPPED : RF := ⟨0x1000018, 0, 64⟩
/-- CFG_WWR, W1C (chapter 02). -/
def CFG_WWR : RF := ⟨0x1000020, 0, 64⟩
/-- CFG_GRP_COMMIT, WO (chapter 02). -/
def CFG_GRP_COMMIT : RF := ⟨0x1000028, 0, 64⟩
def CFG_GRP_COMMIT_CH : RF := ⟨(CFG_GRP_COMMIT).addr, 8, 4⟩
def CFG_GRP_COMMIT_WHEN : RF := ⟨(CFG_GRP_COMMIT).addr, 7, 1⟩
def CFG_GRP_COMMIT_GROUP : RF := ⟨(CFG_GRP_COMMIT).addr, 0, 6⟩
/-- CFG_GRP_ABORT, WO (chapter 02). -/
def CFG_GRP_ABORT : RF := ⟨0x1000030, 0, 64⟩
def CFG_GRP_ABORT_GROUP : RF := ⟨(CFG_GRP_ABORT).addr, 0, 6⟩
/-- CFG_GRP_PEND, RO (chapter 02). -/
def CFG_GRP_PEND : RF := ⟨0x1000038, 0, 64⟩
/-- CFG_GRP_WDISC, W1C (chapter 02). -/
def CFG_GRP_WDISC : RF := ⟨0x1000040, 0, 64⟩
/-- CFG_SPI_CMD, RW (chapter 02). -/
def CFG_SPI_CMD : RF := ⟨0x1000048, 0, 64⟩
def CFG_SPI_CMD_GO : RF := ⟨(CFG_SPI_CMD).addr, 63, 1⟩
def CFG_SPI_CMD_LEN : RF := ⟨(CFG_SPI_CMD).addr, 40, 9⟩
def CFG_SPI_CMD_OPCODE : RF := ⟨(CFG_SPI_CMD).addr, 32, 8⟩
def CFG_SPI_CMD_ADDR : RF := ⟨(CFG_SPI_CMD).addr, 0, 32⟩
/-- CFG_SPI_STATUS, RO (chapter 02). -/
def CFG_SPI_STATUS : RF := ⟨0x1000050, 0, 64⟩
def CFG_SPI_STATUS_ERR : RF := ⟨(CFG_SPI_STATUS).addr, 1, 1⟩
def CFG_SPI_STATUS_PROT : RF := ⟨(CFG_SPI_STATUS).addr, 0, 1⟩
/-- CFG_REC_FAIL, RO (chapter 02). -/
def CFG_REC_FAIL : RF := ⟨0x1000058, 0, 64⟩
def CFG_REC_FAIL_VALID : RF := ⟨(CFG_REC_FAIL).addr, 63, 1⟩
def CFG_REC_FAIL_CAUSE : RF := ⟨(CFG_REC_FAIL).addr, 20, 3⟩
def CFG_REC_FAIL_IDX : RF := ⟨(CFG_REC_FAIL).addr, 0, 20⟩
/-- CFG_SPI_BUF, RW (chapter 02). -/
def CFG_SPI_BUF (n : Nat) : RF := ⟨0x1000100 + n % 4096 * 8, 0, 64⟩
/-- CLK_STATUS, RO (chapter 18). -/
def CLK_STATUS : RF := ⟨0x2000020, 0, 64⟩
def CLK_STATUS_IOSC_OK : RF := ⟨(CLK_STATUS).addr, 63, 1⟩
def CLK_STATUS_XTAL_OK : RF := ⟨(CLK_STATUS).addr, 62, 1⟩
def CLK_STATUS_RC32 : RF := ⟨(CLK_STATUS).addr, 61, 1⟩
def CLK_STATUS_REF_OK : RF := ⟨(CLK_STATUS).addr, 60, 1⟩
def CLK_STATUS_SPLL_LOCK : RF := ⟨(CLK_STATUS).addr, 59, 1⟩
def CLK_STATUS_CPLL_LOCK : RF := ⟨(CLK_STATUS).addr, 58, 1⟩
def CLK_STATUS_SREF0_OK : RF := ⟨(CLK_STATUS).addr, 57, 1⟩
def CLK_STATUS_SREF1_OK : RF := ⟨(CLK_STATUS).addr, 56, 1⟩
def CLK_STATUS_CORE_SRC : RF := ⟨(CLK_STATUS).addr, 55, 1⟩
/-- CLK_CORE, RW (chapter 18). -/
def CLK_CORE : RF := ⟨0x2000028, 0, 64⟩
def CLK_CORE_ERR : RF := ⟨(CLK_CORE).addr, 63, 1⟩
def CLK_CORE_CPLL_EN : RF := ⟨(CLK_CORE).addr, 9, 1⟩
def CLK_CORE_SEL : RF := ⟨(CLK_CORE).addr, 8, 1⟩
def CLK_CORE_FREQ : RF := ⟨(CLK_CORE).addr, 0, 5⟩
/-- CLK_REF_CFG, RW (chapter 18). -/
def CLK_REF_CFG : RF := ⟨0x2000030, 0, 64⟩
def CLK_REF_CFG_SREF1_F : RF := ⟨(CLK_REF_CFG).addr, 2, 2⟩
def CLK_REF_CFG_SREF0_F : RF := ⟨(CLK_REF_CFG).addr, 0, 2⟩
/-- CLK_EVT, W1C (chapter 18). -/
def CLK_EVT : RF := ⟨0x2000038, 0, 64⟩
def CLK_EVT_CDC_SAT : RF := ⟨(CLK_EVT).addr, 4, 1⟩
def CLK_EVT_SREF1_LOSS : RF := ⟨(CLK_EVT).addr, 3, 1⟩
def CLK_EVT_SREF0_LOSS : RF := ⟨(CLK_EVT).addr, 2, 1⟩
def CLK_EVT_CPLL_LOSS : RF := ⟨(CLK_EVT).addr, 1, 1⟩
def CLK_EVT_XTAL_FAIL : RF := ⟨(CLK_EVT).addr, 0, 1⟩
/-- CLK_MEAS, RW (chapter 18). -/
def CLK_MEAS : RF := ⟨0x2000040, 0, 64⟩
def CLK_MEAS_GO : RF := ⟨(CLK_MEAS).addr, 63, 1⟩
def CLK_MEAS_ERR : RF := ⟨(CLK_MEAS).addr, 62, 1⟩
def CLK_MEAS_DOM : RF := ⟨(CLK_MEAS).addr, 32, 6⟩
def CLK_MEAS_COUNT : RF := ⟨(CLK_MEAS).addr, 0, 32⟩
/-- PWR_REQ, RW (chapter 15). -/
def PWR_REQ : RF := ⟨0x3000020, 0, 64⟩
def PWR_REQ_GO : RF := ⟨(PWR_REQ).addr, 63, 1⟩
def PWR_REQ_STATE : RF := ⟨(PWR_REQ).addr, 48, 3⟩
def PWR_REQ_ERR : RF := ⟨(PWR_REQ).addr, 47, 1⟩
/-- PWR_TRIM, RW (chapter 15). -/
def PWR_TRIM : RF := ⟨0x3000028, 0, 64⟩
def PWR_TRIM_CP : RF := ⟨(PWR_TRIM).addr, 32, 16⟩
def PWR_TRIM_PORT : RF := ⟨(PWR_TRIM).addr, 16, 16⟩
def PWR_TRIM_PIPE : RF := ⟨(PWR_TRIM).addr, 0, 16⟩
/-- PWR_STATUS, RO (chapter 15). -/
def PWR_STATUS : RF := ⟨0x3000030, 0, 64⟩
def PWR_STATUS_CUR : RF := ⟨(PWR_STATUS).addr, 61, 3⟩
def PWR_STATUS_BUSY : RF := ⟨(PWR_STATUS).addr, 60, 1⟩
def PWR_STATUS_TARGET : RF := ⟨(PWR_STATUS).addr, 57, 3⟩
def PWR_STATUS_PEND_V : RF := ⟨(PWR_STATUS).addr, 56, 1⟩
def PWR_STATUS_PEND : RF := ⟨(PWR_STATUS).addr, 53, 3⟩
def PWR_STATUS_FROM : RF := ⟨(PWR_STATUS).addr, 50, 3⟩
def PWR_STATUS_PIPE_KEPT : RF := ⟨(PWR_STATUS).addr, 0, 16⟩
/-- PWR_EVT, W1C (chapter 15). -/
def PWR_EVT : RF := ⟨0x3000038, 0, 64⟩
def PWR_EVT_WAKE_FAIL : RF := ⟨(PWR_EVT).addr, 3, 1⟩
def PWR_EVT_ABANDON : RF := ⟨(PWR_EVT).addr, 2, 1⟩
def PWR_EVT_WAKE : RF := ⟨(PWR_EVT).addr, 1, 1⟩
def PWR_EVT_PEND_DROP : RF := ⟨(PWR_EVT).addr, 0, 1⟩
/-- PWR_WAKE_EN, RW (chapter 15). -/
def PWR_WAKE_EN : RF := ⟨0x3000040, 0, 64⟩
def PWR_WAKE_EN_SD_PORT : RF := ⟨(PWR_WAKE_EN).addr, 16, 16⟩
def PWR_WAKE_EN_EN : RF := ⟨(PWR_WAKE_EN).addr, 0, 7⟩
/-- PWR_WAKE_LOG, RW (chapter 15). -/
def PWR_WAKE_LOG : RF := ⟨0x3000048, 0, 64⟩
def PWR_WAKE_LOG_POP : RF := ⟨(PWR_WAKE_LOG).addr, 63, 1⟩
def PWR_WAKE_LOG_OVF : RF := ⟨(PWR_WAKE_LOG).addr, 62, 1⟩
def PWR_WAKE_LOG_COUNT : RF := ⟨(PWR_WAKE_LOG).addr, 56, 4⟩
def PWR_WAKE_LOG_SRC : RF := ⟨(PWR_WAKE_LOG).addr, 32, 3⟩
def PWR_WAKE_LOG_STAMP : RF := ⟨(PWR_WAKE_LOG).addr, 0, 32⟩
/-- PWR_TASTE, RW (chapter 15). -/
def PWR_TASTE : RF := ⟨0x3000050, 0, 64⟩
def PWR_TASTE_CP : RF := ⟨(PWR_TASTE).addr, 60, 4⟩
def PWR_TASTE_TN : RF := ⟨(PWR_TASTE).addr, 48, 10⟩
def PWR_TASTE_INT : RF := ⟨(PWR_TASTE).addr, 32, 11⟩
def PWR_TASTE_MISS_MAX : RF := ⟨(PWR_TASTE).addr, 8, 8⟩
/-- PWR_TASTE_STAT, RO (chapter 15). -/
def PWR_TASTE_STAT : RF := ⟨0x3000058, 0, 64⟩
def PWR_TASTE_STAT_CYCLES : RF := ⟨(PWR_TASTE_STAT).addr, 32, 32⟩
def PWR_TASTE_STAT_MISSES : RF := ⟨(PWR_TASTE_STAT).addr, 16, 16⟩
def PWR_TASTE_STAT_MISS_RUN : RF := ⟨(PWR_TASTE_STAT).addr, 0, 8⟩
/-- PWR_TMR, RW (chapter 15). -/
def PWR_TMR : RF := ⟨0x3000060, 0, 64⟩
def PWR_TMR_MS : RF := ⟨(PWR_TMR).addr, 0, 32⟩
/-- PWR_RESUME, RW (chapter 15). -/
def PWR_RESUME : RF := ⟨0x3000068, 0, 64⟩
def PWR_RESUME_ADDR : RF := ⟨(PWR_RESUME).addr, 0, 48⟩
/-- PWR_CNT, RC (chapter 15). -/
def PWR_CNT : RF := ⟨0x3000070, 0, 64⟩
def PWR_CNT_WAKES : RF := ⟨(PWR_CNT).addr, 32, 32⟩
def PWR_CNT_RETRIES : RF := ⟨(PWR_CNT).addr, 16, 16⟩
def PWR_CNT_FAILS : RF := ⟨(PWR_CNT).addr, 0, 16⟩
/-- PWR_CP_PM, RW (chapter 15). -/
def PWR_CP_PM (n : Nat) : RF := ⟨0x3000100 + n % 1024 * 16, 0, 64⟩
def PWR_CP_PM_GO (n : Nat) : RF := ⟨(PWR_CP_PM n).addr, 63, 1⟩
def PWR_CP_PM_ERR (n : Nat) : RF := ⟨(PWR_CP_PM n).addr, 62, 1⟩
def PWR_CP_PM_MODE (n : Nat) : RF := ⟨(PWR_CP_PM n).addr, 60, 2⟩
def PWR_CP_PM_ASLEEP (n : Nat) : RF := ⟨(PWR_CP_PM n).addr, 59, 1⟩
def PWR_CP_PM_DOZE (n : Nat) : RF := ⟨(PWR_CP_PM n).addr, 58, 1⟩
def PWR_CP_PM_DUR (n : Nat) : RF := ⟨(PWR_CP_PM n).addr, 0, 32⟩
/-- PWR_CP_FC, RW (chapter 15). -/
def PWR_CP_FC (n : Nat) : RF := ⟨0x3000108 + n % 1024 * 16, 0, 64⟩
def PWR_CP_FC_FC_EFF (n : Nat) : RF := ⟨(PWR_CP_FC n).addr, 0, 48⟩
/-- FLT_STATUS, W1C (chapter 16). -/
def FLT_STATUS : RF := ⟨0x4000020, 0, 64⟩
/-- FLT_SUMMARY, RO (chapter 16). -/
def FLT_SUMMARY : RF := ⟨0x4000028, 0, 64⟩
def FLT_SUMMARY_FATAL : RF := ⟨(FLT_SUMMARY).addr, 63, 1⟩
def FLT_SUMMARY_SAFE : RF := ⟨(FLT_SUMMARY).addr, 62, 1⟩
def FLT_SUMMARY_SAFE_CAUSE : RF := ⟨(FLT_SUMMARY).addr, 59, 3⟩
def FLT_SUMMARY_SAFE_N : RF := ⟨(FLT_SUMMARY).addr, 58, 1⟩
def FLT_SUMMARY_BUSY : RF := ⟨(FLT_SUMMARY).addr, 57, 1⟩
def FLT_SUMMARY_RECS : RF := ⟨(FLT_SUMMARY).addr, 0, 7⟩
/-- FLT_CFG, RW (chapter 16). -/
def FLT_CFG : RF := ⟨0x4000030, 0, 64⟩
def FLT_CFG_QW : RF := ⟨(FLT_CFG).addr, 32, 16⟩
def FLT_CFG_ST_HOLD : RF := ⟨(FLT_CFG).addr, 16, 16⟩
def FLT_CFG_TEMP_WARN : RF := ⟨(FLT_CFG).addr, 0, 8⟩
/-- FLT_REC_CMD, RW (chapter 16). -/
def FLT_REC_CMD : RF := ⟨0x4000038, 0, 64⟩
def FLT_REC_CMD_GO : RF := ⟨(FLT_REC_CMD).addr, 63, 1⟩
def FLT_REC_CMD_ERR : RF := ⟨(FLT_REC_CMD).addr, 62, 1⟩
def FLT_REC_CMD_REL : RF := ⟨(FLT_REC_CMD).addr, 61, 1⟩
def FLT_REC_CMD_INDEX : RF := ⟨(FLT_REC_CMD).addr, 0, 6⟩
/-- FLT_REC_DATA, RO (chapter 16). -/
def FLT_REC_DATA (n : Nat) : RF := ⟨0x4000040 + n % 4096 * 8, 0, 64⟩
/-- FLT_SAFE, RW (chapter 16). -/
def FLT_SAFE : RF := ⟨0x4000058, 0, 64⟩
def FLT_SAFE_ENTER : RF := ⟨(FLT_SAFE).addr, 63, 1⟩
def FLT_SAFE_EXIT : RF := ⟨(FLT_SAFE).addr, 62, 1⟩
def FLT_SAFE_EXIT_ERR : RF := ⟨(FLT_SAFE).addr, 61, 1⟩
/-- FLT_INJ, RW (chapter 16). -/
def FLT_INJ : RF := ⟨0x4000060, 0, 64⟩
def FLT_INJ_ARM : RF := ⟨(FLT_INJ).addr, 63, 1⟩
def FLT_INJ_CONT : RF := ⟨(FLT_INJ).addr, 62, 1⟩
def FLT_INJ_ERR : RF := ⟨(FLT_INJ).addr, 61, 1⟩
def FLT_INJ_CHECKER : RF := ⟨(FLT_INJ).addr, 32, 16⟩
def FLT_INJ_MASK : RF := ⟨(FLT_INJ).addr, 0, 8⟩
/-- FLT_CHK, RW (chapter 16). -/
def FLT_CHK : RF := ⟨0x4000068, 0, 64⟩
def FLT_CHK_CHECKER : RF := ⟨(FLT_CHK).addr, 32, 16⟩
/-- FLT_CHK_INFO, RO (chapter 16). -/
def FLT_CHK_INFO : RF := ⟨0x4000070, 0, 64⟩
def FLT_CHK_INFO_VALID : RF := ⟨(FLT_CHK_INFO).addr, 63, 1⟩
def FLT_CHK_INFO_KIND : RF := ⟨(FLT_CHK_INFO).addr, 56, 4⟩
def FLT_CHK_INFO_BASE : RF := ⟨(FLT_CHK_INFO).addr, 0, 48⟩
/-- FLT_CNT, RC (chapter 16). -/
def FLT_CNT : RF := ⟨0x4000078, 0, 64⟩
def FLT_CNT_CORRECTED : RF := ⟨(FLT_CNT).addr, 32, 32⟩
def FLT_CNT_CONSEQ : RF := ⟨(FLT_CNT).addr, 16, 16⟩
def FLT_CNT_MERGED : RF := ⟨(FLT_CNT).addr, 0, 16⟩
/-- FLT_TEMP, RO (chapter 16). -/
def FLT_TEMP : RF := ⟨0x4000080, 0, 64⟩
def FLT_TEMP_MAX : RF := ⟨(FLT_TEMP).addr, 16, 16⟩
def FLT_TEMP_NOW : RF := ⟨(FLT_TEMP).addr, 0, 16⟩
/-- FLT_REPAIR, RO (chapter 16). -/
def FLT_REPAIR : RF := ⟨0x4000088, 0, 64⟩
def FLT_REPAIR_FENCES : RF := ⟨(FLT_REPAIR).addr, 56, 8⟩
def FLT_REPAIR_PERM : RF := ⟨(FLT_REPAIR).addr, 48, 8⟩
def FLT_REPAIR_SPARES : RF := ⟨(FLT_REPAIR).addr, 32, 16⟩
def FLT_REPAIR_RETIRED : RF := ⟨(FLT_REPAIR).addr, 16, 16⟩
def FLT_REPAIR_LANES : RF := ⟨(FLT_REPAIR).addr, 8, 8⟩
/-- FLT_REACT, RW (chapter 16). -/
def FLT_REACT (n : Nat) : RF := ⟨0x4000100 + n % 4096 * 8, 0, 64⟩
def FLT_REACT_ST_EN (n : Nat) : RF := ⟨(FLT_REACT n).addr, 63, 1⟩
def FLT_REACT_RC (n : Nat) : RF := ⟨(FLT_REACT n).addr, 8, 3⟩
def FLT_REACT_RU (n : Nat) : RF := ⟨(FLT_REACT n).addr, 4, 3⟩
def FLT_REACT_RF (n : Nat) : RF := ⟨(FLT_REACT n).addr, 0, 3⟩
/-- TSK_IND_CMD, RW (chapter 14). -/
def TSK_IND_CMD : RF := ⟨0x5000020, 0, 64⟩
def TSK_IND_CMD_GO : RF := ⟨(TSK_IND_CMD).addr, 63, 1⟩
def TSK_IND_CMD_ERR : RF := ⟨(TSK_IND_CMD).addr, 62, 1⟩
def TSK_IND_CMD_RD : RF := ⟨(TSK_IND_CMD).addr, 61, 1⟩
def TSK_IND_CMD_INDEX : RF := ⟨(TSK_IND_CMD).addr, 0, 12⟩
/-- TSK_IND_DATA, RW (chapter 14). -/
def TSK_IND_DATA (n : Nat) : RF := ⟨0x5000028 + n % 4096 * 8, 0, 64⟩
/-- TSK_POST, WO (chapter 14). -/
def TSK_POST : RF := ⟨0x5000058, 0, 64⟩
def TSK_POST_TASK : RF := ⟨(TSK_POST).addr, 16, 12⟩
def TSK_POST_FLAG : RF := ⟨(TSK_POST).addr, 0, 6⟩
/-- TSK_TASK_CMD, WO (chapter 14). -/
def TSK_TASK_CMD : RF := ⟨0x5000060, 0, 64⟩
def TSK_TASK_CMD_OP : RF := ⟨(TSK_TASK_CMD).addr, 62, 2⟩
def TSK_TASK_CMD_TASK : RF := ⟨(TSK_TASK_CMD).addr, 0, 12⟩
/-- TSK_STATUS, RO (chapter 14). -/
def TSK_STATUS : RF := ⟨0x5000068, 0, 64⟩
def TSK_STATUS_READY : RF := ⟨(TSK_STATUS).addr, 32, 13⟩
def TSK_STATUS_PQ : RF := ⟨(TSK_STATUS).addr, 0, 11⟩
/-- TSK_EVT, W1C (chapter 14). -/
def TSK_EVT : RF := ⟨0x5000070, 0, 64⟩
def TSK_EVT_TRC_LOST : RF := ⟨(TSK_EVT).addr, 2, 1⟩
def TSK_EVT_DEP_UFL : RF := ⟨(TSK_EVT).addr, 1, 1⟩
def TSK_EVT_ABORT : RF := ⟨(TSK_EVT).addr, 0, 1⟩
/-- TSK_CNT, RC (chapter 14). -/
def TSK_CNT : RF := ⟨0x5000078, 0, 64⟩
def TSK_CNT_ASSIGN : RF := ⟨(TSK_CNT).addr, 32, 32⟩
def TSK_CNT_STALL : RF := ⟨(TSK_CNT).addr, 0, 32⟩
/-- TSK_TRC_BASE, SX (chapter 14). -/
def TSK_TRC_BASE : RF := ⟨0x5000080, 0, 64⟩
def TSK_TRC_BASE_BASE : RF := ⟨(TSK_TRC_BASE).addr, 0, 48⟩
/-- TSK_TRC_CTL, RW (chapter 14). -/
def TSK_TRC_CTL : RF := ⟨0x5000088, 0, 64⟩
def TSK_TRC_CTL_EN : RF := ⟨(TSK_TRC_CTL).addr, 63, 1⟩
def TSK_TRC_CTL_WRAP : RF := ⟨(TSK_TRC_CTL).addr, 62, 1⟩
def TSK_TRC_CTL_SIZE : RF := ⟨(TSK_TRC_CTL).addr, 57, 5⟩
def TSK_TRC_CTL_PROD : RF := ⟨(TSK_TRC_CTL).addr, 25, 25⟩
def TSK_TRC_CTL_CONS : RF := ⟨(TSK_TRC_CTL).addr, 0, 25⟩
/-- TSK_TRC_LOST, RC (chapter 14). -/
def TSK_TRC_LOST : RF := ⟨0x5000090, 0, 64⟩
/-- TSK_CORE_CUR, RO (chapter 14). -/
def TSK_CORE_CUR (n : Nat) : RF := ⟨0x5000100 + n % 1024 * 16, 0, 64⟩
def TSK_CORE_CUR_VALID (n : Nat) : RF := ⟨(TSK_CORE_CUR n).addr, 63, 1⟩
def TSK_CORE_CUR_PRIO (n : Nat) : RF := ⟨(TSK_CORE_CUR n).addr, 56, 4⟩
def TSK_CORE_CUR_TASK (n : Nat) : RF := ⟨(TSK_CORE_CUR n).addr, 36, 12⟩
/-- TSK_CORE_CMD, RW (chapter 14). -/
def TSK_CORE_CMD (n : Nat) : RF := ⟨0x5000108 + n % 1024 * 16, 0, 64⟩
def TSK_CORE_CMD_ACCEPT (n : Nat) : RF := ⟨(TSK_CORE_CMD n).addr, 63, 1⟩
def TSK_CORE_CMD_DONE (n : Nat) : RF := ⟨(TSK_CORE_CMD n).addr, 62, 1⟩
def TSK_CORE_CMD_REQUEUE (n : Nat) : RF := ⟨(TSK_CORE_CMD n).addr, 61, 1⟩
/-- TSK_CORE_FLG, RO (chapter 14). -/
def TSK_CORE_FLG (n : Nat) : RF := ⟨0x5000180 + n % 4096 * 8, 0, 64⟩
/-- TSK_SRC, RW (chapter 14). -/
def TSK_SRC (n : Nat) : RF := ⟨0x5000200 + n % 4096 * 8, 0, 64⟩
def TSK_SRC_EN (n : Nat) : RF := ⟨(TSK_SRC n).addr, 63, 1⟩
def TSK_SRC_TASK (n : Nat) : RF := ⟨(TSK_SRC n).addr, 16, 12⟩
def TSK_SRC_FLAG (n : Nat) : RF := ⟨(TSK_SRC n).addr, 0, 6⟩
/-- TSK_CORE_ENT, RO (chapter 14). -/
def TSK_CORE_ENT (n : Nat) : RF := ⟨0x5000400 + n % 1024 * 16, 0, 64⟩
/-- TSK_CORE_ARG, RO (chapter 14). -/
def TSK_CORE_ARG (n : Nat) : RF := ⟨0x5000408 + n % 1024 * 16, 0, 64⟩
/-- ACU_IND_CMD, RW (chapter 14). -/
def ACU_IND_CMD : RF := ⟨0x6000020, 0, 64⟩
def ACU_IND_CMD_GO : RF := ⟨(ACU_IND_CMD).addr, 63, 1⟩
def ACU_IND_CMD_ERR : RF := ⟨(ACU_IND_CMD).addr, 62, 1⟩
def ACU_IND_CMD_RD : RF := ⟨(ACU_IND_CMD).addr, 61, 1⟩
def ACU_IND_CMD_INDEX : RF := ⟨(ACU_IND_CMD).addr, 0, 8⟩
/-- ACU_WIN_DATA, RW (chapter 14). -/
def ACU_WIN_DATA (n : Nat) : RF := ⟨0x6000028 + n % 4096 * 8, 0, 64⟩
/-- ACU_FAULT_ADDR, RO (chapter 14). -/
def ACU_FAULT_ADDR : RF := ⟨0x6000038, 0, 64⟩
def ACU_FAULT_ADDR_ADDR : RF := ⟨(ACU_FAULT_ADDR).addr, 0, 48⟩
/-- ACU_FAULT_INFO, RO (chapter 14). -/
def ACU_FAULT_INFO : RF := ⟨0x6000040, 0, 64⟩
def ACU_FAULT_INFO_VALID : RF := ⟨(ACU_FAULT_INFO).addr, 63, 1⟩
def ACU_FAULT_INFO_WR : RF := ⟨(ACU_FAULT_INFO).addr, 62, 1⟩
def ACU_FAULT_INFO_LEVEL : RF := ⟨(ACU_FAULT_INFO).addr, 60, 2⟩
def ACU_FAULT_INFO_INIT : RF := ⟨(ACU_FAULT_INFO).addr, 56, 4⟩
/-- ACU_CNT, RC (chapter 14). -/
def ACU_CNT : RF := ⟨0x6000048, 0, 64⟩
def ACU_CNT_REFUSED : RF := ⟨(ACU_CNT).addr, 0, 32⟩
/-- LPH_BANK, RW (chapter 02). -/
def LPH_BANK (u : Nat) : RF := ⟨0x8000010 + u % 256 * 0x10000, 0, 64⟩
def LPH_BANK_LATE (u : Nat) : RF := ⟨(LPH_BANK u).addr, 9, 1⟩
def LPH_BANK_WPEND (u : Nat) : RF := ⟨(LPH_BANK u).addr, 8, 1⟩
def LPH_BANK_RDSEL (u : Nat) : RF := ⟨(LPH_BANK u).addr, 7, 1⟩
def LPH_BANK_ACTIVE (u : Nat) : RF := ⟨(LPH_BANK u).addr, 6, 1⟩
def LPH_BANK_PENDING (u : Nat) : RF := ⟨(LPH_BANK u).addr, 5, 1⟩
def LPH_BANK_CANCEL (u : Nat) : RF := ⟨(LPH_BANK u).addr, 4, 1⟩
def LPH_BANK_SWAP (u : Nat) : RF := ⟨(LPH_BANK u).addr, 3, 1⟩
def LPH_BANK_BOUNDARY (u : Nat) : RF := ⟨(LPH_BANK u).addr, 0, 3⟩
/-- LPH_BANK_AT, RW (chapter 02). -/
def LPH_BANK_AT (u : Nat) : RF := ⟨0x8000018 + u % 256 * 0x10000, 0, 64⟩
def LPH_BANK_AT_AT_EN (u : Nat) : RF := ⟨(LPH_BANK_AT u).addr, 48, 1⟩
def LPH_BANK_AT_AT (u : Nat) : RF := ⟨(LPH_BANK_AT u).addr, 0, 48⟩
/-- LPH_CH_CTL, RW (chapter 03). -/
def LPH_CH_CTL (u : Nat) : RF := ⟨0x8000020 + u % 256 * 0x10000, 0, 64⟩
def LPH_CH_CTL_WARM (u : Nat) : RF := ⟨(LPH_CH_CTL u).addr, 2, 1⟩
def LPH_CH_CTL_TX_EN (u : Nat) : RF := ⟨(LPH_CH_CTL u).addr, 1, 1⟩
def LPH_CH_CTL_RX_EN (u : Nat) : RF := ⟨(LPH_CH_CTL u).addr, 0, 1⟩
/-- LPH_RX_CFG, SH (chapter 03). -/
def LPH_RX_CFG (u : Nat) : RF := ⟨0x8000028 + u % 256 * 0x10000, 0, 64⟩
def LPH_RX_CFG_CD_PSNM (u : Nat) : RF := ⟨(LPH_RX_CFG u).addr, 16, 16⟩
def LPH_RX_CFG_CD_SEARCH (u : Nat) : RF := ⟨(LPH_RX_CFG u).addr, 15, 1⟩
def LPH_RX_CFG_GAIN_SH (u : Nat) : RF := ⟨(LPH_RX_CFG u).addr, 8, 4⟩
/-- LPH_EQ_DIV, SH (chapter 03). -/
def LPH_EQ_DIV (u : Nat) : RF := ⟨0x8000030 + u % 256 * 0x10000, 0, 64⟩
def LPH_EQ_DIV_DIV_MIN (u : Nat) : RF := ⟨(LPH_EQ_DIV u).addr, 16, 16⟩
def LPH_EQ_DIV_DIV_RESUME (u : Nat) : RF := ⟨(LPH_EQ_DIV u).addr, 0, 4⟩
/-- LPH_DEC_CFG, SH (chapter 03). -/
def LPH_DEC_CFG (u : Nat) : RF := ⟨0x8000038 + u % 256 * 0x10000, 0, 64⟩
def LPH_DEC_CFG_PROV_SYN (u : Nat) : RF := ⟨(LPH_DEC_CFG u).addr, 12, 12⟩
def LPH_DEC_CFG_PROV_EN (u : Nat) : RF := ⟨(LPH_DEC_CFG u).addr, 8, 1⟩
def LPH_DEC_CFG_MAX_ITER (u : Nat) : RF := ⟨(LPH_DEC_CFG u).addr, 0, 6⟩
/-- LPH_TX_CFG, SH (chapter 03). -/
def LPH_TX_CFG (u : Nat) : RF := ⟨0x8000040 + u % 256 * 0x10000, 0, 64⟩
def LPH_TX_CFG_LAUNCH (u : Nat) : RF := ⟨(LPH_TX_CFG u).addr, 0, 8⟩
/-- LPH_RX_STATUS, RO (chapter 03). -/
def LPH_RX_STATUS (u : Nat) : RF := ⟨0x8000048 + u % 256 * 0x10000, 0, 64⟩
def LPH_RX_STATUS_CR_LOCK (u : Nat) : RF := ⟨(LPH_RX_STATUS u).addr, 63, 1⟩
def LPH_RX_STATUS_LO_LOCK (u : Nat) : RF := ⟨(LPH_RX_STATUS u).addr, 62, 1⟩
def LPH_RX_STATUS_FROZEN (u : Nat) : RF := ⟨(LPH_RX_STATUS u).addr, 61, 1⟩
def LPH_RX_STATUS_RX_LOS (u : Nat) : RF := ⟨(LPH_RX_STATUS u).addr, 60, 1⟩
def LPH_RX_STATUS_PWR (u : Nat) : RF := ⟨(LPH_RX_STATUS u).addr, 32, 16⟩
def LPH_RX_STATUS_FOFS (u : Nat) : RF := ⟨(LPH_RX_STATUS u).addr, 16, 16⟩
def LPH_RX_STATUS_CD_EST (u : Nat) : RF := ⟨(LPH_RX_STATUS u).addr, 0, 16⟩
/-- LPH_RX_EVT, W1C (chapter 03). -/
def LPH_RX_EVT (u : Nat) : RF := ⟨0x8000050 + u % 256 * 0x10000, 0, 64⟩
def LPH_RX_EVT_FREEZE (u : Nat) : RF := ⟨(LPH_RX_EVT u).addr, 3, 1⟩
def LPH_RX_EVT_LOS (u : Nat) : RF := ⟨(LPH_RX_EVT u).addr, 2, 1⟩
def LPH_RX_EVT_CR_UNLOCK (u : Nat) : RF := ⟨(LPH_RX_EVT u).addr, 1, 1⟩
def LPH_RX_EVT_LO_UNLOCK (u : Nat) : RF := ⟨(LPH_RX_EVT u).addr, 0, 1⟩
/-- LPH_TX_STATUS, RO (chapter 03). -/
def LPH_TX_STATUS (u : Nat) : RF := ⟨0x8000058 + u % 256 * 0x10000, 0, 64⟩
def LPH_TX_STATUS_GATE (u : Nat) : RF := ⟨(LPH_TX_STATUS u).addr, 63, 1⟩
def LPH_TX_STATUS_SHUTTER (u : Nat) : RF := ⟨(LPH_TX_STATUS u).addr, 62, 1⟩
def LPH_TX_STATUS_COMB_LOW (u : Nat) : RF := ⟨(LPH_TX_STATUS u).addr, 61, 1⟩
def LPH_TX_STATUS_COMB_PWR (u : Nat) : RF := ⟨(LPH_TX_STATUS u).addr, 0, 16⟩
/-- LPH_CAL_WIN, RW (chapter 03). -/
def LPH_CAL_WIN (u : Nat) : RF := ⟨0x8000060 + u % 256 * 0x10000, 0, 64⟩
def LPH_CAL_WIN_RX_DT (u : Nat) : RF := ⟨(LPH_CAL_WIN u).addr, 24, 8⟩
def LPH_CAL_WIN_RX_DP (u : Nat) : RF := ⟨(LPH_CAL_WIN u).addr, 16, 8⟩
def LPH_CAL_WIN_TX_DT (u : Nat) : RF := ⟨(LPH_CAL_WIN u).addr, 8, 8⟩
def LPH_CAL_WIN_TX_DD (u : Nat) : RF := ⟨(LPH_CAL_WIN u).addr, 0, 8⟩
/-- LPH_CAL_RX, RO (chapter 03). -/
def LPH_CAL_RX (u : Nat) : RF := ⟨0x8000068 + u % 256 * 0x10000, 0, 64⟩
def LPH_CAL_RX_STATE (u : Nat) : RF := ⟨(LPH_CAL_RX u).addr, 62, 2⟩
def LPH_CAL_RX_T (u : Nat) : RF := ⟨(LPH_CAL_RX u).addr, 32, 16⟩
def LPH_CAL_RX_P (u : Nat) : RF := ⟨(LPH_CAL_RX u).addr, 0, 16⟩
/-- LPH_CAL_TX, RO (chapter 03). -/
def LPH_CAL_TX (u : Nat) : RF := ⟨0x8000070 + u % 256 * 0x10000, 0, 64⟩
def LPH_CAL_TX_STATE (u : Nat) : RF := ⟨(LPH_CAL_TX u).addr, 62, 2⟩
def LPH_CAL_TX_T (u : Nat) : RF := ⟨(LPH_CAL_TX u).addr, 32, 16⟩
def LPH_CAL_TX_DUTY (u : Nat) : RF := ⟨(LPH_CAL_TX u).addr, 0, 8⟩
/-- LPH_CAL_CTL, RW (chapter 03). -/
def LPH_CAL_CTL (u : Nat) : RF := ⟨0x8000078 + u % 256 * 0x10000, 0, 64⟩
def LPH_CAL_CTL_TX_UNST (u : Nat) : RF := ⟨(LPH_CAL_CTL u).addr, 3, 1⟩
def LPH_CAL_CTL_RX_UNST (u : Nat) : RF := ⟨(LPH_CAL_CTL u).addr, 2, 1⟩
def LPH_CAL_CTL_TX_TRIM (u : Nat) : RF := ⟨(LPH_CAL_CTL u).addr, 1, 1⟩
def LPH_CAL_CTL_RX_TRIM (u : Nat) : RF := ⟨(LPH_CAL_CTL u).addr, 0, 1⟩
/-- LPH_PORT, RW (chapter 03). -/
def LPH_PORT : RF := ⟨0x8100020, 0, 64⟩
def LPH_PORT_DONE : RF := ⟨(LPH_PORT).addr, 3, 1⟩
def LPH_PORT_PENDING : RF := ⟨(LPH_PORT).addr, 2, 1⟩
def LPH_PORT_ACTIVE : RF := ⟨(LPH_PORT).addr, 1, 1⟩
def LPH_PORT_SEL : RF := ⟨(LPH_PORT).addr, 0, 1⟩
/-- LPH_LSRC_CTL, RW (chapter 03). -/
def LPH_LSRC_CTL : RF := ⟨0x8100028, 0, 64⟩
def LPH_LSRC_CTL_ADDR1 : RF := ⟨(LPH_LSRC_CTL).addr, 16, 7⟩
def LPH_LSRC_CTL_ADDR0 : RF := ⟨(LPH_LSRC_CTL).addr, 8, 7⟩
def LPH_LSRC_CTL_POLL_EN : RF := ⟨(LPH_LSRC_CTL).addr, 2, 1⟩
def LPH_LSRC_CTL_LIGHT_EN : RF := ⟨(LPH_LSRC_CTL).addr, 1, 1⟩
def LPH_LSRC_CTL_LO_EN : RF := ⟨(LPH_LSRC_CTL).addr, 0, 1⟩
/-- LPH_LSRC_STATUS, RO (chapter 03). -/
def LPH_LSRC_STATUS : RF := ⟨0x8100030, 0, 64⟩
def LPH_LSRC_STATUS_NAK1 : RF := ⟨(LPH_LSRC_STATUS).addr, 9, 1⟩
def LPH_LSRC_STATUS_NAK0 : RF := ⟨(LPH_LSRC_STATUS).addr, 8, 1⟩
def LPH_LSRC_STATUS_FAULT1 : RF := ⟨(LPH_LSRC_STATUS).addr, 5, 1⟩
def LPH_LSRC_STATUS_FAULT0 : RF := ⟨(LPH_LSRC_STATUS).addr, 4, 1⟩
def LPH_LSRC_STATUS_READY1 : RF := ⟨(LPH_LSRC_STATUS).addr, 1, 1⟩
def LPH_LSRC_STATUS_READY0 : RF := ⟨(LPH_LSRC_STATUS).addr, 0, 1⟩
/-- LPH_LSRC_CMD, RW (chapter 03). -/
def LPH_LSRC_CMD : RF := ⟨0x8100038, 0, 64⟩
def LPH_LSRC_CMD_GO : RF := ⟨(LPH_LSRC_CMD).addr, 63, 1⟩
def LPH_LSRC_CMD_ERR : RF := ⟨(LPH_LSRC_CMD).addr, 62, 1⟩
def LPH_LSRC_CMD_SRC : RF := ⟨(LPH_LSRC_CMD).addr, 56, 2⟩
def LPH_LSRC_CMD_RD : RF := ⟨(LPH_LSRC_CMD).addr, 55, 1⟩
def LPH_LSRC_CMD_PAGE : RF := ⟨(LPH_LSRC_CMD).addr, 40, 8⟩
def LPH_LSRC_CMD_REG : RF := ⟨(LPH_LSRC_CMD).addr, 32, 8⟩
def LPH_LSRC_CMD_DATA : RF := ⟨(LPH_LSRC_CMD).addr, 0, 8⟩
/-- LPH_TEMP, RO (chapter 03). -/
def LPH_TEMP : RF := ⟨0x8100040, 0, 64⟩
def LPH_TEMP_TX_ENG : RF := ⟨(LPH_TEMP).addr, 16, 16⟩
def LPH_TEMP_RX_ENG : RF := ⟨(LPH_TEMP).addr, 0, 16⟩
/-- DSF_BANK, RW (chapter 02). -/
def DSF_BANK (u : Nat) : RF := ⟨0x9000010 + u % 256 * 0x10000, 0, 64⟩
def DSF_BANK_LATE (u : Nat) : RF := ⟨(DSF_BANK u).addr, 9, 1⟩
def DSF_BANK_WPEND (u : Nat) : RF := ⟨(DSF_BANK u).addr, 8, 1⟩
def DSF_BANK_RDSEL (u : Nat) : RF := ⟨(DSF_BANK u).addr, 7, 1⟩
def DSF_BANK_ACTIVE (u : Nat) : RF := ⟨(DSF_BANK u).addr, 6, 1⟩
def DSF_BANK_PENDING (u : Nat) : RF := ⟨(DSF_BANK u).addr, 5, 1⟩
def DSF_BANK_CANCEL (u : Nat) : RF := ⟨(DSF_BANK u).addr, 4, 1⟩
def DSF_BANK_SWAP (u : Nat) : RF := ⟨(DSF_BANK u).addr, 3, 1⟩
def DSF_BANK_BOUNDARY (u : Nat) : RF := ⟨(DSF_BANK u).addr, 0, 3⟩
/-- DSF_BANK_AT, RW (chapter 02). -/
def DSF_BANK_AT (u : Nat) : RF := ⟨0x9000018 + u % 256 * 0x10000, 0, 64⟩
def DSF_BANK_AT_AT_EN (u : Nat) : RF := ⟨(DSF_BANK_AT u).addr, 48, 1⟩
def DSF_BANK_AT_AT (u : Nat) : RF := ⟨(DSF_BANK_AT u).addr, 0, 48⟩
/-- DSF_CH_CFG, SH (chapter 04). -/
def DSF_CH_CFG (u : Nat) : RF := ⟨0x9000020 + u % 256 * 0x10000, 0, 64⟩
def DSF_CH_CFG_RTO (u : Nat) : RF := ⟨(DSF_CH_CFG u).addr, 8, 8⟩
def DSF_CH_CFG_FAW_TOL (u : Nat) : RF := ⟨(DSF_CH_CFG u).addr, 0, 8⟩
/-- DSF_SYNC, RO (chapter 04). -/
def DSF_SYNC (u : Nat) : RF := ⟨0x9000028 + u % 256 * 0x10000, 0, 64⟩
def DSF_SYNC_STATE (u : Nat) : RF := ⟨(DSF_SYNC u).addr, 62, 2⟩
def DSF_SYNC_LOF (u : Nat) : RF := ⟨(DSF_SYNC u).addr, 61, 1⟩
def DSF_SYNC_HYP (u : Nat) : RF := ⟨(DSF_SYNC u).addr, 56, 5⟩
def DSF_SYNC_MISS (u : Nat) : RF := ⟨(DSF_SYNC u).addr, 54, 2⟩
def DSF_SYNC_FC (u : Nat) : RF := ⟨(DSF_SYNC u).addr, 0, 48⟩
/-- DSF_EVT, W1C (chapter 04). -/
def DSF_EVT (u : Nat) : RF := ⟨0x9000030 + u % 256 * 0x10000, 0, 64⟩
def DSF_EVT_CH_MIS (u : Nat) : RF := ⟨(DSF_EVT u).addr, 5, 1⟩
def DSF_EVT_FRAG_HUNT (u : Nat) : RF := ⟨(DSF_EVT u).addr, 4, 1⟩
def DSF_EVT_HEC (u : Nat) : RF := ⟨(DSF_EVT u).addr, 3, 1⟩
def DSF_EVT_FC_JUMP (u : Nat) : RF := ⟨(DSF_EVT u).addr, 2, 1⟩
def DSF_EVT_SYNC_GAIN (u : Nat) : RF := ⟨(DSF_EVT u).addr, 1, 1⟩
def DSF_EVT_LOF (u : Nat) : RF := ⟨(DSF_EVT u).addr, 0, 1⟩
/-- DSF_RA_CNT, RC (chapter 04). -/
def DSF_RA_CNT (u : Nat) : RF := ⟨0x9000038 + u % 256 * 0x10000, 0, 64⟩
def DSF_RA_CNT_ABORT (u : Nat) : RF := ⟨(DSF_RA_CNT u).addr, 32, 32⟩
def DSF_RA_CNT_FCS_ERR (u : Nat) : RF := ⟨(DSF_RA_CNT u).addr, 0, 32⟩
/-- DSF_PM, RO (chapter 04). -/
def DSF_PM (u : Nat) (n : Nat) : RF := ⟨0x9000040 + u % 256 * 0x10000 + n % 4096 * 8, 0, 64⟩
def DSF_PM_SEC_TAG (u : Nat) (n : Nat) : RF := ⟨(DSF_PM u n).addr, 48, 16⟩
def DSF_PM_IRREG (u : Nat) (n : Nat) : RF := ⟨(DSF_PM u n).addr, 47, 1⟩
def DSF_PM_COUNT (u : Nat) (n : Nat) : RF := ⟨(DSF_PM u n).addr, 0, 47⟩
/-- DSF_IND_CMD, RW (chapter 04). -/
def DSF_IND_CMD : RF := ⟨0x9100020, 0, 64⟩
def DSF_IND_CMD_GO : RF := ⟨(DSF_IND_CMD).addr, 63, 1⟩
def DSF_IND_CMD_ERR : RF := ⟨(DSF_IND_CMD).addr, 62, 1⟩
def DSF_IND_CMD_RD : RF := ⟨(DSF_IND_CMD).addr, 61, 1⟩
def DSF_IND_CMD_TABLE : RF := ⟨(DSF_IND_CMD).addr, 56, 2⟩
def DSF_IND_CMD_INDEX : RF := ⟨(DSF_IND_CMD).addr, 0, 20⟩
/-- DSF_IND_DATA, RW (chapter 04). -/
def DSF_IND_DATA (n : Nat) : RF := ⟨0x9100028 + n % 4096 * 8, 0, 64⟩
/-- ACT_BANK, RW (chapter 02). -/
def ACT_BANK (u : Nat) : RF := ⟨0xA000010 + u % 256 * 0x10000, 0, 64⟩
def ACT_BANK_LATE (u : Nat) : RF := ⟨(ACT_BANK u).addr, 9, 1⟩
def ACT_BANK_WPEND (u : Nat) : RF := ⟨(ACT_BANK u).addr, 8, 1⟩
def ACT_BANK_RDSEL (u : Nat) : RF := ⟨(ACT_BANK u).addr, 7, 1⟩
def ACT_BANK_ACTIVE (u : Nat) : RF := ⟨(ACT_BANK u).addr, 6, 1⟩
def ACT_BANK_PENDING (u : Nat) : RF := ⟨(ACT_BANK u).addr, 5, 1⟩
def ACT_BANK_CANCEL (u : Nat) : RF := ⟨(ACT_BANK u).addr, 4, 1⟩
def ACT_BANK_SWAP (u : Nat) : RF := ⟨(ACT_BANK u).addr, 3, 1⟩
def ACT_BANK_BOUNDARY (u : Nat) : RF := ⟨(ACT_BANK u).addr, 0, 3⟩
/-- ACT_BANK_AT, RW (chapter 02). -/
def ACT_BANK_AT (u : Nat) : RF := ⟨0xA000018 + u % 256 * 0x10000, 0, 64⟩
def ACT_BANK_AT_AT_EN (u : Nat) : RF := ⟨(ACT_BANK_AT u).addr, 48, 1⟩
def ACT_BANK_AT_AT (u : Nat) : RF := ⟨(ACT_BANK_AT u).addr, 0, 48⟩
/-- ACT_CP_CTL, RW (chapter 05). -/
def ACT_CP_CTL (u : Nat) : RF := ⟨0xA000020 + u % 256 * 0x10000, 0, 64⟩
def ACT_CP_CTL_MGMT_EN (u : Nat) : RF := ⟨(ACT_CP_CTL u).addr, 3, 1⟩
def ACT_CP_CTL_PROT_AUTH (u : Nat) : RF := ⟨(ACT_CP_CTL u).addr, 2, 1⟩
def ACT_CP_CTL_RESTART (u : Nat) : RF := ⟨(ACT_CP_CTL u).addr, 1, 1⟩
def ACT_CP_CTL_EN (u : Nat) : RF := ⟨(ACT_CP_CTL u).addr, 0, 1⟩
/-- ACT_CP_TMR, SH (chapter 05). -/
def ACT_CP_TMR (u : Nat) : RF := ⟨0xA000028 + u % 256 * 0x10000, 0, 64⟩
def ACT_CP_TMR_T_INT (u : Nat) : RF := ⟨(ACT_CP_TMR u).addr, 36, 12⟩
def ACT_CP_TMR_T_RNG (u : Nat) : RF := ⟨(ACT_CP_TMR u).addr, 24, 12⟩
def ACT_CP_TMR_T_ASG (u : Nat) : RF := ⟨(ACT_CP_TMR u).addr, 16, 8⟩
def ACT_CP_TMR_BO_MAX (u : Nat) : RF := ⟨(ACT_CP_TMR u).addr, 0, 4⟩
/-- ACT_CP_STATE, RO (chapter 05). -/
def ACT_CP_STATE (u : Nat) : RF := ⟨0xA000030 + u % 256 * 0x10000, 0, 64⟩
def ACT_CP_STATE_STATE (u : Nat) : RF := ⟨(ACT_CP_STATE u).addr, 61, 3⟩
def ACT_CP_STATE_PARAMS_OK (u : Nat) : RF := ⟨(ACT_CP_STATE u).addr, 60, 1⟩
def ACT_CP_STATE_TN_VALID (u : Nat) : RF := ⟨(ACT_CP_STATE u).addr, 59, 1⟩
def ACT_CP_STATE_AUTH_SENT (u : Nat) : RF := ⟨(ACT_CP_STATE u).addr, 58, 1⟩
def ACT_CP_STATE_DIS_CP (u : Nat) : RF := ⟨(ACT_CP_STATE u).addr, 57, 1⟩
def ACT_CP_STATE_DIS_DEV (u : Nat) : RF := ⟨(ACT_CP_STATE u).addr, 56, 1⟩
def ACT_CP_STATE_CHP_SIL (u : Nat) : RF := ⟨(ACT_CP_STATE u).addr, 55, 1⟩
def ACT_CP_STATE_EQD0_V (u : Nat) : RF := ⟨(ACT_CP_STATE u).addr, 54, 1⟩
def ACT_CP_STATE_EQD1_V (u : Nat) : RF := ⟨(ACT_CP_STATE u).addr, 53, 1⟩
def ACT_CP_STATE_TN (u : Nat) : RF := ⟨(ACT_CP_STATE u).addr, 32, 10⟩
def ACT_CP_STATE_HE_ID (u : Nat) : RF := ⟨(ACT_CP_STATE u).addr, 16, 16⟩
def ACT_CP_STATE_ANN_CNT (u : Nat) : RF := ⟨(ACT_CP_STATE u).addr, 8, 8⟩
/-- ACT_CP_EQD, RO (chapter 05). -/
def ACT_CP_EQD (u : Nat) : RF := ⟨0xA000038 + u % 256 * 0x10000, 0, 64⟩
def ACT_CP_EQD_EQD1 (u : Nat) : RF := ⟨(ACT_CP_EQD u).addr, 32, 32⟩
def ACT_CP_EQD_EQD0 (u : Nat) : RF := ⟨(ACT_CP_EQD u).addr, 0, 32⟩
/-- ACT_CP_EVT, W1C (chapter 05). -/
def ACT_CP_EVT (u : Nat) : RF := ⟨0xA000040 + u % 256 * 0x10000, 0, 64⟩
def ACT_CP_EVT_UQ_OVF (u : Nat) : RF := ⟨(ACT_CP_EVT u).addr, 5, 1⟩
def ACT_CP_EVT_PROF_REJ (u : Nat) : RF := ⟨(ACT_CP_EVT u).addr, 4, 1⟩
def ACT_CP_EVT_EQD_RANGE (u : Nat) : RF := ⟨(ACT_CP_EVT u).addr, 3, 1⟩
def ACT_CP_EVT_HE_CHG (u : Nat) : RF := ⟨(ACT_CP_EVT u).addr, 2, 1⟩
def ACT_CP_EVT_STATE_CHG (u : Nat) : RF := ⟨(ACT_CP_EVT u).addr, 1, 1⟩
def ACT_CP_EVT_ASSIGNED (u : Nat) : RF := ⟨(ACT_CP_EVT u).addr, 0, 1⟩
/-- ACT_CP_CNT, RC (chapter 05). -/
def ACT_CP_CNT (u : Nat) : RF := ⟨0xA000048 + u % 256 * 0x10000, 0, 64⟩
def ACT_CP_CNT_MSG_OK (u : Nat) : RF := ⟨(ACT_CP_CNT u).addr, 32, 32⟩
def ACT_CP_CNT_HE_MIS (u : Nat) : RF := ⟨(ACT_CP_CNT u).addr, 24, 8⟩
def ACT_CP_CNT_MSG_CRC (u : Nat) : RF := ⟨(ACT_CP_CNT u).addr, 12, 12⟩
def ACT_CP_CNT_MSG_REJ (u : Nat) : RF := ⟨(ACT_CP_CNT u).addr, 0, 12⟩
/-- ACT_PROT, RW (chapter 05). -/
def ACT_PROT : RF := ⟨0xA100020, 0, 64⟩
def ACT_PROT_PROT_LOS : RF := ⟨(ACT_PROT).addr, 8, 12⟩
def ACT_PROT_AUTO_PROT : RF := ⟨(ACT_PROT).addr, 0, 1⟩
/-- ACT_SN, RO (chapter 05). -/
def ACT_SN : RF := ⟨0xA100028, 0, 64⟩
def ACT_SN_VENDOR : RF := ⟨(ACT_SN).addr, 32, 32⟩
def ACT_SN_UNIT : RF := ⟨(ACT_SN).addr, 0, 32⟩
/-- ACT_RXQ_CTL, RW (chapter 05). -/
def ACT_RXQ_CTL : RF := ⟨0xA100030, 0, 64⟩
def ACT_RXQ_CTL_POP : RF := ⟨(ACT_RXQ_CTL).addr, 63, 1⟩
def ACT_RXQ_CTL_OVF : RF := ⟨(ACT_RXQ_CTL).addr, 62, 1⟩
def ACT_RXQ_CTL_MIRROR : RF := ⟨(ACT_RXQ_CTL).addr, 61, 1⟩
def ACT_RXQ_CTL_COUNT : RF := ⟨(ACT_RXQ_CTL).addr, 32, 9⟩
def ACT_RXQ_CTL_CP : RF := ⟨(ACT_RXQ_CTL).addr, 0, 4⟩
/-- ACT_RXQ_FC, RO (chapter 05). -/
def ACT_RXQ_FC : RF := ⟨0xA100038, 0, 64⟩
def ACT_RXQ_FC_FC : RF := ⟨(ACT_RXQ_FC).addr, 0, 48⟩
/-- ACT_RXQ_DATA, RO (chapter 05). -/
def ACT_RXQ_DATA (n : Nat) : RF := ⟨0xA100040 + n % 4096 * 8, 0, 64⟩
/-- ACT_TXQ_CMD, RW (chapter 05). -/
def ACT_TXQ_CMD : RF := ⟨0xA100080, 0, 64⟩
def ACT_TXQ_CMD_GO : RF := ⟨(ACT_TXQ_CMD).addr, 63, 1⟩
def ACT_TXQ_CMD_ERR : RF := ⟨(ACT_TXQ_CMD).addr, 62, 1⟩
def ACT_TXQ_CMD_CP : RF := ⟨(ACT_TXQ_CMD).addr, 0, 4⟩
/-- ACT_TXQ_DATA, RW (chapter 05). -/
def ACT_TXQ_DATA (n : Nat) : RF := ⟨0xA100088 + n % 4096 * 8, 0, 64⟩
/-- UBE_BANK, RW (chapter 02). -/
def UBE_BANK (u : Nat) : RF := ⟨0xB000010 + u % 256 * 0x10000, 0, 64⟩
def UBE_BANK_LATE (u : Nat) : RF := ⟨(UBE_BANK u).addr, 9, 1⟩
def UBE_BANK_WPEND (u : Nat) : RF := ⟨(UBE_BANK u).addr, 8, 1⟩
def UBE_BANK_RDSEL (u : Nat) : RF := ⟨(UBE_BANK u).addr, 7, 1⟩
def UBE_BANK_ACTIVE (u : Nat) : RF := ⟨(UBE_BANK u).addr, 6, 1⟩
def UBE_BANK_PENDING (u : Nat) : RF := ⟨(UBE_BANK u).addr, 5, 1⟩
def UBE_BANK_CANCEL (u : Nat) : RF := ⟨(UBE_BANK u).addr, 4, 1⟩
def UBE_BANK_SWAP (u : Nat) : RF := ⟨(UBE_BANK u).addr, 3, 1⟩
def UBE_BANK_BOUNDARY (u : Nat) : RF := ⟨(UBE_BANK u).addr, 0, 3⟩
/-- UBE_BANK_AT, RW (chapter 02). -/
def UBE_BANK_AT (u : Nat) : RF := ⟨0xB000018 + u % 256 * 0x10000, 0, 64⟩
def UBE_BANK_AT_AT_EN (u : Nat) : RF := ⟨(UBE_BANK_AT u).addr, 48, 1⟩
def UBE_BANK_AT_AT (u : Nat) : RF := ⟨(UBE_BANK_AT u).addr, 0, 48⟩
/-- UBE_PROF, SH (chapter 06). -/
def UBE_PROF (u : Nat) (n : Nat) : RF := ⟨0xB000020 + u % 256 * 0x10000 + n % 4096 * 8, 0, 64⟩
def UBE_PROF_VALID (u : Nat) (n : Nat) : RF := ⟨(UBE_PROF u n).addr, 63, 1⟩
def UBE_PROF_DELIM (u : Nat) (n : Nat) : RF := ⟨(UBE_PROF u n).addr, 34, 2⟩
def UBE_PROF_MOD (u : Nat) (n : Nat) : RF := ⟨(UBE_PROF u n).addr, 32, 1⟩
def UBE_PROF_PRE_LEN (u : Nat) (n : Nat) : RF := ⟨(UBE_PROF u n).addr, 16, 16⟩
def UBE_PROF_GUARD (u : Nat) (n : Nat) : RF := ⟨(UBE_PROF u n).addr, 0, 12⟩
/-- UBE_CH_CFG, RW (chapter 06). -/
def UBE_CH_CFG (u : Nat) : RF := ⟨0xB000040 + u % 256 * 0x10000, 0, 64⟩
def UBE_CH_CFG_NF_WAIT (u : Nat) : RF := ⟨(UBE_CH_CFG u).addr, 24, 8⟩
def UBE_CH_CFG_PRED_EN (u : Nat) : RF := ⟨(UBE_CH_CFG u).addr, 16, 1⟩
def UBE_CH_CFG_MAX_LEN (u : Nat) : RF := ⟨(UBE_CH_CFG u).addr, 0, 16⟩
/-- UBE_CH_STAT, RO (chapter 06). -/
def UBE_CH_STAT (u : Nat) : RF := ⟨0xB000048 + u % 256 * 0x10000, 0, 64⟩
def UBE_CH_STAT_SHUT_RDY (u : Nat) : RF := ⟨(UBE_CH_STAT u).addr, 63, 1⟩
def UBE_CH_STAT_PRED (u : Nat) : RF := ⟨(UBE_CH_STAT u).addr, 62, 1⟩
def UBE_CH_STAT_TENT_CELLS (u : Nat) : RF := ⟨(UBE_CH_STAT u).addr, 0, 32⟩
/-- UBE_CH_CNT0, RC (chapter 06). -/
def UBE_CH_CNT0 (u : Nat) : RF := ⟨0xB000050 + u % 256 * 0x10000, 0, 64⟩
def UBE_CH_CNT0_BURSTS (u : Nat) : RF := ⟨(UBE_CH_CNT0 u).addr, 32, 32⟩
def UBE_CH_CNT0_GRANT_BAD (u : Nat) : RF := ⟨(UBE_CH_CNT0 u).addr, 16, 16⟩
def UBE_CH_CNT0_LATE_FILL (u : Nat) : RF := ⟨(UBE_CH_CNT0 u).addr, 0, 16⟩
/-- UBE_CH_CNT1, RC (chapter 06). -/
def UBE_CH_CNT1 (u : Nat) : RF := ⟨0xB000058 + u % 256 * 0x10000, 0, 64⟩
def UBE_CH_CNT1_REWIND (u : Nat) : RF := ⟨(UBE_CH_CNT1 u).addr, 32, 32⟩
def UBE_CH_CNT1_CUT (u : Nat) : RF := ⟨(UBE_CH_CNT1 u).addr, 16, 16⟩
def UBE_CH_CNT1_PKT_DROP (u : Nat) : RF := ⟨(UBE_CH_CNT1 u).addr, 0, 16⟩
/-- UBE_IND_CMD, RW (chapter 06). -/
def UBE_IND_CMD : RF := ⟨0xB100020, 0, 64⟩
def UBE_IND_CMD_GO : RF := ⟨(UBE_IND_CMD).addr, 63, 1⟩
def UBE_IND_CMD_ERR : RF := ⟨(UBE_IND_CMD).addr, 62, 1⟩
def UBE_IND_CMD_RD : RF := ⟨(UBE_IND_CMD).addr, 61, 1⟩
def UBE_IND_CMD_TABLE : RF := ⟨(UBE_IND_CMD).addr, 56, 2⟩
def UBE_IND_CMD_INDEX : RF := ⟨(UBE_IND_CMD).addr, 0, 18⟩
/-- UBE_IND_DATA, RW (chapter 06). -/
def UBE_IND_DATA : RF := ⟨0xB100028, 0, 64⟩
/-- CHP_COPY, ST (chapter 06). -/
def CHP_COPY (u : Nat) : RF := ⟨0xC000020 + u % 256 * 0x10000, 0, 64⟩
def CHP_COPY_TN_V (u : Nat) : RF := ⟨(CHP_COPY u).addr, 63, 1⟩
def CHP_COPY_ANN (u : Nat) : RF := ⟨(CHP_COPY u).addr, 62, 1⟩
def CHP_COPY_TN (u : Nat) : RF := ⟨(CHP_COPY u).addr, 48, 10⟩
def CHP_COPY_EQD (u : Nat) : RF := ⟨(CHP_COPY u).addr, 0, 32⟩
/-- CHP_LIMIT, SX (chapter 06). -/
def CHP_LIMIT (u : Nat) : RF := ⟨0xC000028 + u % 256 * 0x10000, 0, 64⟩
def CHP_LIMIT_DUTY_MAX (u : Nat) : RF := ⟨(CHP_LIMIT u).addr, 16, 9⟩
def CHP_LIMIT_MAX_LEN (u : Nat) : RF := ⟨(CHP_LIMIT u).addr, 0, 16⟩
/-- CHP_CTL, RW (chapter 06). -/
def CHP_CTL (u : Nat) : RF := ⟨0xC000030 + u % 256 * 0x10000, 0, 64⟩
def CHP_CTL_REL_FAIL (u : Nat) : RF := ⟨(CHP_CTL u).addr, 1, 1⟩
def CHP_CTL_RELEASE (u : Nat) : RF := ⟨(CHP_CTL u).addr, 0, 1⟩
/-- CHP_STATUS, RO (chapter 06). -/
def CHP_STATUS (u : Nat) : RF := ⟨0xC000038 + u % 256 * 0x10000, 0, 64⟩
def CHP_STATUS_SIL (u : Nat) : RF := ⟨(CHP_STATUS u).addr, 63, 1⟩
def CHP_STATUS_CAUSE (u : Nat) : RF := ⟨(CHP_STATUS u).addr, 60, 3⟩
def CHP_STATUS_SHUT_RDY (u : Nat) : RF := ⟨(CHP_STATUS u).addr, 59, 1⟩
def CHP_STATUS_SHUTTER (u : Nat) : RF := ⟨(CHP_STATUS u).addr, 58, 1⟩
def CHP_STATUS_GATE (u : Nat) : RF := ⟨(CHP_STATUS u).addr, 57, 1⟩
def CHP_STATUS_WIN (u : Nat) : RF := ⟨(CHP_STATUS u).addr, 56, 1⟩
def CHP_STATUS_CLK_OK (u : Nat) : RF := ⟨(CHP_STATUS u).addr, 55, 1⟩
def CHP_STATUS_TIME_OK (u : Nat) : RF := ⟨(CHP_STATUS u).addr, 54, 1⟩
/-- CHP_CNT, RC (chapter 06). -/
def CHP_CNT (u : Nat) : RF := ⟨0xC000040 + u % 256 * 0x10000, 0, 64⟩
def CHP_CNT_WINDOWS (u : Nat) : RF := ⟨(CHP_CNT u).addr, 32, 32⟩
def CHP_CNT_CLOSES (u : Nat) : RF := ⟨(CHP_CNT u).addr, 16, 16⟩
def CHP_CNT_HDR_ERR (u : Nat) : RF := ⟨(CHP_CNT u).addr, 8, 8⟩
def CHP_CNT_ENT_ERR (u : Nat) : RF := ⟨(CHP_CNT u).addr, 0, 8⟩
/-- CHP_AMAP, ST (chapter 06). -/
def CHP_AMAP (u : Nat) (n : Nat) : RF := ⟨0xC000800 + u % 256 * 0x10000 + n % 4096 * 8, 0, 64⟩
/-- CHP_SIL_ALL, RO (chapter 06). -/
def CHP_SIL_ALL : RF := ⟨0xC100020, 0, 64⟩
def CHP_SIL_ALL_SIL : RF := ⟨(CHP_SIL_ALL).addr, 0, 16⟩
/-- PRS_CNT0, RC (chapter 07). -/
def PRS_CNT0 (u : Nat) : RF := ⟨0x10000020 + u % 256 * 0x10000, 0, 64⟩
def PRS_CNT0_PASSES (u : Nat) : RF := ⟨(PRS_CNT0 u).addr, 32, 32⟩
def PRS_CNT0_DEEP (u : Nat) : RF := ⟨(PRS_CNT0 u).addr, 0, 32⟩
/-- PRS_CNT1, RC (chapter 07). -/
def PRS_CNT1 (u : Nat) : RF := ⟨0x10000028 + u % 256 * 0x10000, 0, 64⟩
def PRS_CNT1_FRAG (u : Nat) : RF := ⟨(PRS_CNT1 u).addr, 32, 32⟩
def PRS_CNT1_TRIM (u : Nat) : RF := ⟨(PRS_CNT1 u).addr, 0, 32⟩
/-- PRS_ISP_CNT, RC (chapter 07). -/
def PRS_ISP_CNT (u : Nat) : RF := ⟨0x10000030 + u % 256 * 0x10000, 0, 64⟩
def PRS_ISP_CNT_ISP_OVF (u : Nat) : RF := ⟨(PRS_ISP_CNT u).addr, 32, 32⟩
def PRS_ISP_CNT_RECIRC2 (u : Nat) : RF := ⟨(PRS_ISP_CNT u).addr, 0, 32⟩
/-- PRS_MALF, RC (chapter 07). -/
def PRS_MALF (u : Nat) (n : Nat) : RF := ⟨0x10000040 + u % 256 * 0x10000 + n % 4096 * 8, 0, 64⟩
def PRS_MALF_COUNT (u : Nat) (n : Nat) : RF := ⟨(PRS_MALF u n).addr, 0, 32⟩
/-- PRS_TUN, SX (chapter 07). -/
def PRS_TUN : RF := ⟨0x10100020, 0, 64⟩
def PRS_TUN_VXLAN_PORT : RF := ⟨(PRS_TUN).addr, 32, 16⟩
def PRS_TUN_GENEVE_PORT : RF := ⟨(PRS_TUN).addr, 16, 16⟩
def PRS_TUN_GTPU_PORT : RF := ⟨(PRS_TUN).addr, 0, 16⟩
/-- PRS_SRC_CFG, RW (chapter 07). -/
def PRS_SRC_CFG (n : Nat) : RF := ⟨0x10101000 + n % 4096 * 8, 0, 64⟩
def PRS_SRC_CFG_DEPTH (n : Nat) : RF := ⟨(PRS_SRC_CFG n).addr, 16, 9⟩
def PRS_SRC_CFG_MAXHDR (n : Nat) : RF := ⟨(PRS_SRC_CFG n).addr, 8, 5⟩
def PRS_SRC_CFG_MALF_POL (n : Nat) : RF := ⟨(PRS_SRC_CFG n).addr, 4, 2⟩
def PRS_SRC_CFG_DEEP_POL (n : Nat) : RF := ⟨(PRS_SRC_CFG n).addr, 0, 1⟩
/-- CLS_BANK, RW (chapter 02). -/
def CLS_BANK : RF := ⟨0x11000010, 0, 64⟩
def CLS_BANK_LATE : RF := ⟨(CLS_BANK).addr, 9, 1⟩
def CLS_BANK_WPEND : RF := ⟨(CLS_BANK).addr, 8, 1⟩
def CLS_BANK_RDSEL : RF := ⟨(CLS_BANK).addr, 7, 1⟩
def CLS_BANK_ACTIVE : RF := ⟨(CLS_BANK).addr, 6, 1⟩
def CLS_BANK_PENDING : RF := ⟨(CLS_BANK).addr, 5, 1⟩
def CLS_BANK_CANCEL : RF := ⟨(CLS_BANK).addr, 4, 1⟩
def CLS_BANK_SWAP : RF := ⟨(CLS_BANK).addr, 3, 1⟩
def CLS_BANK_BOUNDARY : RF := ⟨(CLS_BANK).addr, 0, 3⟩
/-- CLS_BANK_AT, RW (chapter 02). -/
def CLS_BANK_AT : RF := ⟨0x11000018, 0, 64⟩
def CLS_BANK_AT_AT_EN : RF := ⟨(CLS_BANK_AT).addr, 48, 1⟩
def CLS_BANK_AT_AT : RF := ⟨(CLS_BANK_AT).addr, 0, 48⟩
/-- CLS_IND_CMD, RW (chapter 07). -/
def CLS_IND_CMD : RF := ⟨0x11000020, 0, 64⟩
def CLS_IND_CMD_GO : RF := ⟨(CLS_IND_CMD).addr, 63, 1⟩
def CLS_IND_CMD_ERR : RF := ⟨(CLS_IND_CMD).addr, 62, 1⟩
def CLS_IND_CMD_RD : RF := ⟨(CLS_IND_CMD).addr, 61, 1⟩
def CLS_IND_CMD_TABLE : RF := ⟨(CLS_IND_CMD).addr, 56, 2⟩
def CLS_IND_CMD_INDEX : RF := ⟨(CLS_IND_CMD).addr, 0, 15⟩
/-- CLS_IND_DATA, RW (chapter 07). -/
def CLS_IND_DATA (n : Nat) : RF := ⟨0x11000028 + n % 4096 * 8, 0, 64⟩
/-- CLS_VER, RO (chapter 07). -/
def CLS_VER : RF := ⟨0x11000100, 0, 64⟩
def CLS_VER_SWEEP : RF := ⟨(CLS_VER).addr, 33, 1⟩
def CLS_VER_PENDING : RF := ⟨(CLS_VER).addr, 32, 1⟩
def CLS_VER_OLDEST : RF := ⟨(CLS_VER).addr, 16, 16⟩
def CLS_VER_CUR : RF := ⟨(CLS_VER).addr, 0, 16⟩
/-- CLS_VER_COMMIT, WO (chapter 07). -/
def CLS_VER_COMMIT : RF := ⟨0x11000108, 0, 64⟩
def CLS_VER_COMMIT_GO : RF := ⟨(CLS_VER_COMMIT).addr, 0, 1⟩
/-- CLS_DRAIN, RO (chapter 07). -/
def CLS_DRAIN (n : Nat) : RF := ⟨0x11000110 + n % 4096 * 8, 0, 64⟩
def CLS_DRAIN_COUNT (n : Nat) : RF := ⟨(CLS_DRAIN n).addr, 0, 32⟩
/-- CLS_HASH, SX (chapter 07). -/
def CLS_HASH : RF := ⟨0x11000130, 0, 64⟩
def CLS_HASH_SEED : RF := ⟨(CLS_HASH).addr, 0, 32⟩
/-- CLS_SP_MAP, RW (chapter 07). -/
def CLS_SP_MAP : RF := ⟨0x11000138, 0, 64⟩
def CLS_SP_MAP_Q_TTL : RF := ⟨(CLS_SP_MAP).addr, 12, 3⟩
def CLS_SP_MAP_Q_LEARN : RF := ⟨(CLS_SP_MAP).addr, 9, 3⟩
def CLS_SP_MAP_Q_DEEP : RF := ⟨(CLS_SP_MAP).addr, 6, 3⟩
def CLS_SP_MAP_Q_FRAG : RF := ⟨(CLS_SP_MAP).addr, 3, 3⟩
def CLS_SP_MAP_Q_MALF : RF := ⟨(CLS_SP_MAP).addr, 0, 3⟩
/-- CLS_SPQ_BASE, SX (chapter 07). -/
def CLS_SPQ_BASE : RF := ⟨0x11000140, 0, 64⟩
def CLS_SPQ_BASE_BASE : RF := ⟨(CLS_SPQ_BASE).addr, 0, 48⟩
/-- CLS_SPQ, RW (chapter 07). -/
def CLS_SPQ (n : Nat) : RF := ⟨0x11000148 + n % 4096 * 8, 0, 64⟩
def CLS_SPQ_EN (n : Nat) : RF := ⟨(CLS_SPQ n).addr, 63, 1⟩
def CLS_SPQ_POL (n : Nat) : RF := ⟨(CLS_SPQ n).addr, 32, 16⟩
def CLS_SPQ_PROD (n : Nat) : RF := ⟨(CLS_SPQ n).addr, 16, 13⟩
def CLS_SPQ_CONS (n : Nat) : RF := ⟨(CLS_SPQ n).addr, 0, 13⟩
/-- CLS_RI_ADDR, RW (chapter 07). -/
def CLS_RI_ADDR : RF := ⟨0x11000188, 0, 64⟩
def CLS_RI_ADDR_ADDR : RF := ⟨(CLS_RI_ADDR).addr, 0, 48⟩
/-- CLS_RI_CMD, RW (chapter 07). -/
def CLS_RI_CMD : RF := ⟨0x11000190, 0, 64⟩
def CLS_RI_CMD_GO : RF := ⟨(CLS_RI_CMD).addr, 63, 1⟩
def CLS_RI_CMD_DROP : RF := ⟨(CLS_RI_CMD).addr, 62, 1⟩
def CLS_RI_CMD_MODE : RF := ⟨(CLS_RI_CMD).addr, 61, 1⟩
def CLS_RI_CMD_DIR : RF := ⟨(CLS_RI_CMD).addr, 60, 1⟩
def CLS_RI_CMD_ERR : RF := ⟨(CLS_RI_CMD).addr, 59, 1⟩
def CLS_RI_CMD_SRC : RF := ⟨(CLS_RI_CMD).addr, 50, 6⟩
def CLS_RI_CMD_SID : RF := ⟨(CLS_RI_CMD).addr, 34, 16⟩
def CLS_RI_CMD_LEN : RF := ⟨(CLS_RI_CMD).addr, 20, 14⟩
def CLS_RI_CMD_QUEUE : RF := ⟨(CLS_RI_CMD).addr, 0, 17⟩
/-- CLS_CNT0, RC (chapter 07). -/
def CLS_CNT0 : RF := ⟨0x11000198, 0, 64⟩
def CLS_CNT0_HIT : RF := ⟨(CLS_CNT0).addr, 32, 32⟩
def CLS_CNT0_MISS : RF := ⟨(CLS_CNT0).addr, 16, 16⟩
def CLS_CNT0_RETIRED : RF := ⟨(CLS_CNT0).addr, 0, 16⟩
/-- CLS_CNT1, RC (chapter 07). -/
def CLS_CNT1 : RF := ⟨0x110001A0, 0, 64⟩
def CLS_CNT1_NOQ : RF := ⟨(CLS_CNT1).addr, 48, 16⟩
def CLS_CNT1_QMIS : RF := ⟨(CLS_CNT1).addr, 32, 16⟩
def CLS_CNT1_CPG_DROP : RF := ⟨(CLS_CNT1).addr, 24, 8⟩
def CLS_CNT1_EDIT_MISS : RF := ⟨(CLS_CNT1).addr, 8, 16⟩
def CLS_CNT1_EDIT_ERR : RF := ⟨(CLS_CNT1).addr, 0, 8⟩
/-- CLS_SP_CNT, RC (chapter 07). -/
def CLS_SP_CNT : RF := ⟨0x110001A8, 0, 64⟩
def CLS_SP_CNT_SP_DROP : RF := ⟨(CLS_SP_CNT).addr, 32, 32⟩
def CLS_SP_CNT_SP_POL : RF := ⟨(CLS_SP_CNT).addr, 0, 32⟩
/-- CLS_MIR, SH (chapter 07). -/
def CLS_MIR (n : Nat) : RF := ⟨0x11000200 + n % 4096 * 8, 0, 64⟩
def CLS_MIR_EN (n : Nat) : RF := ⟨(CLS_MIR n).addr, 63, 1⟩
def CLS_MIR_QDIR (n : Nat) : RF := ⟨(CLS_MIR n).addr, 62, 1⟩
def CLS_MIR_QUEUE (n : Nat) : RF := ⟨(CLS_MIR n).addr, 32, 17⟩
def CLS_MIR_SID (n : Nat) : RF := ⟨(CLS_MIR n).addr, 16, 16⟩
def CLS_MIR_TRUNC (n : Nat) : RF := ⟨(CLS_MIR n).addr, 0, 14⟩
/-- FLW_CFG, RW (chapter 08). -/
def FLW_CFG : RF := ⟨0x12000020, 0, 64⟩
def FLW_CFG_LEARN_HOLD : RF := ⟨(FLW_CFG).addr, 16, 8⟩
def FLW_CFG_MAX_KICK : RF := ⟨(FLW_CFG).addr, 8, 4⟩
def FLW_CFG_AGE_NOTIFY : RF := ⟨(FLW_CFG).addr, 2, 1⟩
def FLW_CFG_AGE_EN : RF := ⟨(FLW_CFG).addr, 1, 1⟩
def FLW_CFG_HW_LEARN : RF := ⟨(FLW_CFG).addr, 0, 1⟩
/-- FLW_AGE, RW (chapter 08). -/
def FLW_AGE : RF := ⟨0x12000028, 0, 64⟩
def FLW_AGE_AGE_TICK : RF := ⟨(FLW_AGE).addr, 32, 16⟩
def FLW_AGE_AGE_MAX : RF := ⟨(FLW_AGE).addr, 16, 16⟩
def FLW_AGE_AGE_FIN : RF := ⟨(FLW_AGE).addr, 0, 16⟩
/-- FLW_CBASE, SX (chapter 08). -/
def FLW_CBASE : RF := ⟨0x12000030, 0, 64⟩
def FLW_CBASE_BASE : RF := ⟨(FLW_CBASE).addr, 0, 48⟩
/-- FLW_IND_CMD, RW (chapter 08). -/
def FLW_IND_CMD : RF := ⟨0x12000038, 0, 64⟩
def FLW_IND_CMD_GO : RF := ⟨(FLW_IND_CMD).addr, 63, 1⟩
def FLW_IND_CMD_ERR : RF := ⟨(FLW_IND_CMD).addr, 62, 1⟩
def FLW_IND_CMD_STATUS : RF := ⟨(FLW_IND_CMD).addr, 58, 4⟩
def FLW_IND_CMD_OP : RF := ⟨(FLW_IND_CMD).addr, 56, 2⟩
def FLW_IND_CMD_LOC : RF := ⟨(FLW_IND_CMD).addr, 0, 21⟩
/-- FLW_IND_DATA, RW (chapter 08). -/
def FLW_IND_DATA (n : Nat) : RF := ⟨0x12000040 + n % 4096 * 8, 0, 64⟩
/-- FLW_STATUS, RO (chapter 08). -/
def FLW_STATUS : RF := ⟨0x12000080, 0, 64⟩
def FLW_STATUS_ENTRIES : RF := ⟨(FLW_STATUS).addr, 32, 21⟩
def FLW_STATUS_STASH : RF := ⟨(FLW_STATUS).addr, 16, 5⟩
def FLW_STATUS_LQ : RF := ⟨(FLW_STATUS).addr, 0, 9⟩
/-- FLW_CNT0, RC (chapter 08). -/
def FLW_CNT0 : RF := ⟨0x12000088, 0, 64⟩
def FLW_CNT0_MISS : RF := ⟨(FLW_CNT0).addr, 32, 32⟩
def FLW_CNT0_INS_FULL : RF := ⟨(FLW_CNT0).addr, 16, 16⟩
def FLW_CNT0_LEARN_DROP : RF := ⟨(FLW_CNT0).addr, 0, 16⟩
/-- FLW_CNT1, RC (chapter 08). -/
def FLW_CNT1 : RF := ⟨0x12000090, 0, 64⟩
def FLW_CNT1_AGED : RF := ⟨(FLW_CNT1).addr, 32, 32⟩
def FLW_CNT1_LEARN_SUP : RF := ⟨(FLW_CNT1).addr, 16, 16⟩
def FLW_CNT1_AGE_LOST : RF := ⟨(FLW_CNT1).addr, 0, 16⟩
/-- FLW_CRD_CMD, RW (chapter 08). -/
def FLW_CRD_CMD : RF := ⟨0x12000098, 0, 64⟩
def FLW_CRD_CMD_GO : RF := ⟨(FLW_CRD_CMD).addr, 63, 1⟩
def FLW_CRD_CMD_CLR : RF := ⟨(FLW_CRD_CMD).addr, 62, 1⟩
def FLW_CRD_CMD_CID : RF := ⟨(FLW_CRD_CMD).addr, 0, 22⟩
/-- FLW_CRD_BYTES, RO (chapter 08). -/
def FLW_CRD_BYTES : RF := ⟨0x120000A0, 0, 64⟩
/-- FLW_CRD_PKTS, RO (chapter 08). -/
def FLW_CRD_PKTS : RF := ⟨0x120000A8, 0, 64⟩
/-- FLW_AGEQ, RW (chapter 08). -/
def FLW_AGEQ : RF := ⟨0x120000B0, 0, 64⟩
def FLW_AGEQ_PROD : RF := ⟨(FLW_AGEQ).addr, 32, 15⟩
def FLW_AGEQ_CONS : RF := ⟨(FLW_AGEQ).addr, 0, 15⟩
/-- SPC_CTL, RW (chapter 08). -/
def SPC_CTL : RF := ⟨0x13000020, 0, 64⟩
def SPC_CTL_TMO : RF := ⟨(SPC_CTL).addr, 16, 4⟩
def SPC_CTL_EN : RF := ⟨(SPC_CTL).addr, 0, 16⟩
/-- SPC_CNT, RC (chapter 08). -/
def SPC_CNT (n : Nat) : RF := ⟨0x13000100 + n % 4096 * 8, 0, 64⟩
def SPC_CNT_COMMIT (n : Nat) : RF := ⟨(SPC_CNT n).addr, 32, 32⟩
def SPC_CNT_SQUASH (n : Nat) : RF := ⟨(SPC_CNT n).addr, 0, 32⟩
/-- SPC_CWC, RC (chapter 08). -/
def SPC_CWC (n : Nat) : RF := ⟨0x13000200 + n % 4096 * 8, 0, 64⟩
def SPC_CWC_MISMATCH (n : Nat) : RF := ⟨(SPC_CWC n).addr, 32, 32⟩
def SPC_CWC_TIMEOUT (n : Nat) : RF := ⟨(SPC_CWC n).addr, 16, 16⟩
def SPC_CWC_SKIP (n : Nat) : RF := ⟨(SPC_CWC n).addr, 0, 16⟩
/-- SPC_OCC, RO (chapter 08). -/
def SPC_OCC (n : Nat) : RF := ⟨0x13000300 + n % 4096 * 8, 0, 64⟩
def SPC_OCC_HELD (n : Nat) : RF := ⟨(SPC_OCC n).addr, 0, 13⟩
/-- CEL_POOL_RA, SX (chapter 09). -/
def CEL_POOL_RA : RF := ⟨0x14000020, 0, 64⟩
def CEL_POOL_RA_RA : RF := ⟨(CEL_POOL_RA).addr, 0, 20⟩
/-- CEL_POOL_DS, SX (chapter 09). -/
def CEL_POOL_DS : RF := ⟨0x14000028, 0, 64⟩
def CEL_POOL_DS_RES : RF := ⟨(CEL_POOL_DS).addr, 40, 20⟩
def CEL_POOL_DS_SHR : RF := ⟨(CEL_POOL_DS).addr, 20, 20⟩
def CEL_POOL_DS_STG : RF := ⟨(CEL_POOL_DS).addr, 0, 20⟩
/-- CEL_POOL_US, SX (chapter 09). -/
def CEL_POOL_US : RF := ⟨0x14000030, 0, 64⟩
def CEL_POOL_US_RES : RF := ⟨(CEL_POOL_US).addr, 40, 20⟩
def CEL_POOL_US_SHR : RF := ⟨(CEL_POOL_US).addr, 20, 20⟩
def CEL_POOL_US_STG : RF := ⟨(CEL_POOL_US).addr, 0, 20⟩
/-- CEL_FLOOR, SX (chapter 09). -/
def CEL_FLOOR : RF := ⟨0x14000038, 0, 64⟩
def CEL_FLOOR_FLOOR3 : RF := ⟨(CEL_FLOOR).addr, 24, 8⟩
def CEL_FLOOR_FLOOR2 : RF := ⟨(CEL_FLOOR).addr, 16, 8⟩
def CEL_FLOOR_FLOOR1 : RF := ⟨(CEL_FLOOR).addr, 8, 8⟩
def CEL_FLOOR_FLOOR0 : RF := ⟨(CEL_FLOOR).addr, 0, 8⟩
/-- CEL_STATUS, RO (chapter 09). -/
def CEL_STATUS : RF := ⟨0x14000040, 0, 64⟩
def CEL_STATUS_STK_OK : RF := ⟨(CEL_STATUS).addr, 60, 4⟩
def CEL_STATUS_FREE_PAGES : RF := ⟨(CEL_STATUS).addr, 0, 25⟩
/-- CEL_FREE_DS, RO (chapter 09). -/
def CEL_FREE_DS : RF := ⟨0x14000048, 0, 64⟩
def CEL_FREE_DS_RES : RF := ⟨(CEL_FREE_DS).addr, 40, 20⟩
def CEL_FREE_DS_SHR : RF := ⟨(CEL_FREE_DS).addr, 20, 20⟩
def CEL_FREE_DS_STG : RF := ⟨(CEL_FREE_DS).addr, 0, 20⟩
/-- CEL_FREE_US, RO (chapter 09). -/
def CEL_FREE_US : RF := ⟨0x14000050, 0, 64⟩
def CEL_FREE_US_RES : RF := ⟨(CEL_FREE_US).addr, 40, 20⟩
def CEL_FREE_US_SHR : RF := ⟨(CEL_FREE_US).addr, 20, 20⟩
def CEL_FREE_US_STG : RF := ⟨(CEL_FREE_US).addr, 0, 20⟩
/-- CEL_IND_CMD, RW (chapter 09). -/
def CEL_IND_CMD : RF := ⟨0x14000058, 0, 64⟩
def CEL_IND_CMD_GO : RF := ⟨(CEL_IND_CMD).addr, 63, 1⟩
def CEL_IND_CMD_ERR : RF := ⟨(CEL_IND_CMD).addr, 62, 1⟩
def CEL_IND_CMD_RD : RF := ⟨(CEL_IND_CMD).addr, 61, 1⟩
def CEL_IND_CMD_TABLE : RF := ⟨(CEL_IND_CMD).addr, 56, 2⟩
def CEL_IND_CMD_INDEX : RF := ⟨(CEL_IND_CMD).addr, 0, 18⟩
/-- CEL_IND_DATA, RW (chapter 09). -/
def CEL_IND_DATA (n : Nat) : RF := ⟨0x14000060 + n % 4096 * 8, 0, 64⟩
/-- CEL_TRAIN_WIN, RW (chapter 09). -/
def CEL_TRAIN_WIN : RF := ⟨0x14000070, 0, 64⟩
def CEL_TRAIN_WIN_DT : RF := ⟨(CEL_TRAIN_WIN).addr, 24, 8⟩
def CEL_TRAIN_WIN_DD : RF := ⟨(CEL_TRAIN_WIN).addr, 16, 8⟩
def CEL_TRAIN_WIN_PERIOD : RF := ⟨(CEL_TRAIN_WIN).addr, 0, 16⟩
/-- CEL_TRAIN_CTL, RW (chapter 09). -/
def CEL_TRAIN_CTL : RF := ⟨0x14000078, 0, 64⟩
def CEL_TRAIN_CTL_UNST : RF := ⟨(CEL_TRAIN_CTL).addr, 4, 4⟩
def CEL_TRAIN_CTL_RETRAIN : RF := ⟨(CEL_TRAIN_CTL).addr, 0, 4⟩
/-- CEL_TRAIN, RO (chapter 09). -/
def CEL_TRAIN (n : Nat) : RF := ⟨0x14000080 + n % 4096 * 8, 0, 64⟩
def CEL_TRAIN_STATE (n : Nat) : RF := ⟨(CEL_TRAIN n).addr, 62, 2⟩
def CEL_TRAIN_T (n : Nat) : RF := ⟨(CEL_TRAIN n).addr, 32, 16⟩
def CEL_TRAIN_RETRAINS (n : Nat) : RF := ⟨(CEL_TRAIN n).addr, 16, 16⟩
def CEL_TRAIN_DUTY (n : Nat) : RF := ⟨(CEL_TRAIN n).addr, 0, 8⟩
/-- CEL_SCRUB, RW (chapter 09). -/
def CEL_SCRUB : RF := ⟨0x140000A0, 0, 64⟩
def CEL_SCRUB_EN : RF := ⟨(CEL_SCRUB).addr, 63, 1⟩
def CEL_SCRUB_HOURS : RF := ⟨(CEL_SCRUB).addr, 32, 16⟩
def CEL_SCRUB_PROG : RF := ⟨(CEL_SCRUB).addr, 0, 18⟩
/-- CEL_REPAIR, RO (chapter 09). -/
def CEL_REPAIR : RF := ⟨0x140000A8, 0, 64⟩
def CEL_REPAIR_FENCED : RF := ⟨(CEL_REPAIR).addr, 60, 4⟩
def CEL_REPAIR_RESULT : RF := ⟨(CEL_REPAIR).addr, 58, 2⟩
def CEL_REPAIR_ADDR : RF := ⟨(CEL_REPAIR).addr, 0, 48⟩
/-- CEL_CNT_DS, RC (chapter 09). -/
def CEL_CNT_DS : RF := ⟨0x140000B0, 0, 64⟩
def CEL_CNT_DS_NOBUF : RF := ⟨(CEL_CNT_DS).addr, 32, 32⟩
def CEL_CNT_DS_QMAX : RF := ⟨(CEL_CNT_DS).addr, 16, 16⟩
def CEL_CNT_DS_NOSPILL : RF := ⟨(CEL_CNT_DS).addr, 0, 16⟩
/-- CEL_CNT_US, RC (chapter 09). -/
def CEL_CNT_US : RF := ⟨0x140000B8, 0, 64⟩
def CEL_CNT_US_NOBUF : RF := ⟨(CEL_CNT_US).addr, 32, 32⟩
def CEL_CNT_US_QMAX : RF := ⟨(CEL_CNT_US).addr, 16, 16⟩
def CEL_CNT_US_NOSPILL : RF := ⟨(CEL_CNT_US).addr, 0, 16⟩
/-- CEL_CNT2, RC (chapter 09). -/
def CEL_CNT2 : RF := ⟨0x140000C0, 0, 64⟩
def CEL_CNT2_FLUSHED : RF := ⟨(CEL_CNT2).addr, 32, 32⟩
def CEL_CNT2_LOST : RF := ⟨(CEL_CNT2).addr, 0, 32⟩
/-- CEL_EVT, W1C (chapter 09). -/
def CEL_EVT : RF := ⟨0x140000C8, 0, 64⟩
def CEL_EVT_POOL_ERR : RF := ⟨(CEL_EVT).addr, 3, 1⟩
def CEL_EVT_STK_FAIL : RF := ⟨(CEL_EVT).addr, 2, 1⟩
def CEL_EVT_LOST : RF := ⟨(CEL_EVT).addr, 1, 1⟩
def CEL_EVT_REP_NONE : RF := ⟨(CEL_EVT).addr, 0, 1⟩
/-- SCH_BANK, RW (chapter 02). -/
def SCH_BANK : RF := ⟨0x15000010, 0, 64⟩
def SCH_BANK_LATE : RF := ⟨(SCH_BANK).addr, 9, 1⟩
def SCH_BANK_WPEND : RF := ⟨(SCH_BANK).addr, 8, 1⟩
def SCH_BANK_RDSEL : RF := ⟨(SCH_BANK).addr, 7, 1⟩
def SCH_BANK_ACTIVE : RF := ⟨(SCH_BANK).addr, 6, 1⟩
def SCH_BANK_PENDING : RF := ⟨(SCH_BANK).addr, 5, 1⟩
def SCH_BANK_CANCEL : RF := ⟨(SCH_BANK).addr, 4, 1⟩
def SCH_BANK_SWAP : RF := ⟨(SCH_BANK).addr, 3, 1⟩
def SCH_BANK_BOUNDARY : RF := ⟨(SCH_BANK).addr, 0, 3⟩
/-- SCH_BANK_AT, RW (chapter 02). -/
def SCH_BANK_AT : RF := ⟨0x15000018, 0, 64⟩
def SCH_BANK_AT_AT_EN : RF := ⟨(SCH_BANK_AT).addr, 48, 1⟩
def SCH_BANK_AT_AT : RF := ⟨(SCH_BANK_AT).addr, 0, 48⟩
/-- SCH_REFILL, SH (chapter 10). -/
def SCH_REFILL : RF := ⟨0x15000020, 0, 64⟩
def SCH_REFILL_US_PORT : RF := ⟨(SCH_REFILL).addr, 20, 4⟩
def SCH_REFILL_US_SVC : RF := ⟨(SCH_REFILL).addr, 16, 4⟩
def SCH_REFILL_US_LEAF : RF := ⟨(SCH_REFILL).addr, 12, 4⟩
def SCH_REFILL_DS_PORT : RF := ⟨(SCH_REFILL).addr, 8, 4⟩
def SCH_REFILL_DS_SVC : RF := ⟨(SCH_REFILL).addr, 4, 4⟩
def SCH_REFILL_DS_LEAF : RF := ⟨(SCH_REFILL).addr, 0, 4⟩
/-- SCH_ADJ, SH (chapter 10). -/
def SCH_ADJ : RF := ⟨0x15000028, 0, 64⟩
def SCH_ADJ_DS_ADJ : RF := ⟨(SCH_ADJ).addr, 0, 8⟩
/-- SCH_IND_CMD, RW (chapter 10). -/
def SCH_IND_CMD : RF := ⟨0x15000030, 0, 64⟩
def SCH_IND_CMD_GO : RF := ⟨(SCH_IND_CMD).addr, 63, 1⟩
def SCH_IND_CMD_ERR : RF := ⟨(SCH_IND_CMD).addr, 62, 1⟩
def SCH_IND_CMD_RD : RF := ⟨(SCH_IND_CMD).addr, 61, 1⟩
def SCH_IND_CMD_DIR : RF := ⟨(SCH_IND_CMD).addr, 60, 1⟩
def SCH_IND_CMD_TABLE : RF := ⟨(SCH_IND_CMD).addr, 56, 3⟩
def SCH_IND_CMD_INDEX : RF := ⟨(SCH_IND_CMD).addr, 0, 17⟩
/-- SCH_IND_DATA, RW (chapter 10). -/
def SCH_IND_DATA (n : Nat) : RF := ⟨0x15000038 + n % 4096 * 8, 0, 64⟩
/-- SCH_FLUSH, RW (chapter 10). -/
def SCH_FLUSH : RF := ⟨0x15000058, 0, 64⟩
def SCH_FLUSH_GO : RF := ⟨(SCH_FLUSH).addr, 63, 1⟩
def SCH_FLUSH_DIR : RF := ⟨(SCH_FLUSH).addr, 60, 1⟩
def SCH_FLUSH_PKTS : RF := ⟨(SCH_FLUSH).addr, 24, 32⟩
def SCH_FLUSH_LEAF : RF := ⟨(SCH_FLUSH).addr, 0, 17⟩
/-- SCH_HIST_BASE, SX (chapter 10). -/
def SCH_HIST_BASE : RF := ⟨0x15000060, 0, 64⟩
def SCH_HIST_BASE_BASE : RF := ⟨(SCH_HIST_BASE).addr, 0, 48⟩
/-- SCH_HIST_CTL, RW (chapter 10). -/
def SCH_HIST_CTL : RF := ⟨0x15000068, 0, 64⟩
def SCH_HIST_CTL_EN : RF := ⟨(SCH_HIST_CTL).addr, 63, 1⟩
def SCH_HIST_CTL_CLR : RF := ⟨(SCH_HIST_CTL).addr, 62, 1⟩
def SCH_HIST_CTL_SAMPLES : RF := ⟨(SCH_HIST_CTL).addr, 0, 32⟩
/-- SCH_CNT, RC (chapter 10). -/
def SCH_CNT : RF := ⟨0x15000070, 0, 64⟩
def SCH_CNT_LEAF_OFF_DS : RF := ⟨(SCH_CNT).addr, 32, 32⟩
def SCH_CNT_LEAF_OFF_US : RF := ⟨(SCH_CNT).addr, 0, 32⟩
/-- GCL_BANK, RW (chapter 02). -/
def GCL_BANK (u : Nat) : RF := ⟨0x16000010 + u % 256 * 0x10000, 0, 64⟩
def GCL_BANK_LATE (u : Nat) : RF := ⟨(GCL_BANK u).addr, 9, 1⟩
def GCL_BANK_WPEND (u : Nat) : RF := ⟨(GCL_BANK u).addr, 8, 1⟩
def GCL_BANK_RDSEL (u : Nat) : RF := ⟨(GCL_BANK u).addr, 7, 1⟩
def GCL_BANK_ACTIVE (u : Nat) : RF := ⟨(GCL_BANK u).addr, 6, 1⟩
def GCL_BANK_PENDING (u : Nat) : RF := ⟨(GCL_BANK u).addr, 5, 1⟩
def GCL_BANK_CANCEL (u : Nat) : RF := ⟨(GCL_BANK u).addr, 4, 1⟩
def GCL_BANK_SWAP (u : Nat) : RF := ⟨(GCL_BANK u).addr, 3, 1⟩
def GCL_BANK_BOUNDARY (u : Nat) : RF := ⟨(GCL_BANK u).addr, 0, 3⟩
/-- GCL_BANK_AT, RW (chapter 02). -/
def GCL_BANK_AT (u : Nat) : RF := ⟨0x16000018 + u % 256 * 0x10000, 0, 64⟩
def GCL_BANK_AT_AT_EN (u : Nat) : RF := ⟨(GCL_BANK_AT u).addr, 48, 1⟩
def GCL_BANK_AT_AT (u : Nat) : RF := ⟨(GCL_BANK_AT u).addr, 0, 48⟩
/-- GCL_ADMIN, SH (chapter 10). -/
def GCL_ADMIN (u : Nat) : RF := ⟨0x16000020 + u % 256 * 0x10000, 0, 64⟩
def GCL_ADMIN_GATE_EN (u : Nat) : RF := ⟨(GCL_ADMIN u).addr, 63, 1⟩
def GCL_ADMIN_LEN (u : Nat) : RF := ⟨(GCL_ADMIN u).addr, 48, 11⟩
def GCL_ADMIN_INIT_GATES (u : Nat) : RF := ⟨(GCL_ADMIN u).addr, 0, 8⟩
/-- GCL_ADMIN_BTS, SH (chapter 10). -/
def GCL_ADMIN_BTS (u : Nat) : RF := ⟨0x16000028 + u % 256 * 0x10000, 0, 64⟩
def GCL_ADMIN_BTS_BT_S (u : Nat) : RF := ⟨(GCL_ADMIN_BTS u).addr, 16, 48⟩
/-- GCL_ADMIN_BTN, SH (chapter 10). -/
def GCL_ADMIN_BTN (u : Nat) : RF := ⟨0x16000030 + u % 256 * 0x10000, 0, 64⟩
def GCL_ADMIN_BTN_BT_NS (u : Nat) : RF := ⟨(GCL_ADMIN_BTN u).addr, 0, 30⟩
/-- GCL_ADMIN_CYC, SH (chapter 10). -/
def GCL_ADMIN_CYC (u : Nat) : RF := ⟨0x16000038 + u % 256 * 0x10000, 0, 64⟩
def GCL_ADMIN_CYC_CYC_EXT (u : Nat) : RF := ⟨(GCL_ADMIN_CYC u).addr, 32, 32⟩
def GCL_ADMIN_CYC_CT (u : Nat) : RF := ⟨(GCL_ADMIN_CYC u).addr, 0, 32⟩
/-- GCL_PREEMPT, SH (chapter 10). -/
def GCL_PREEMPT (u : Nat) : RF := ⟨0x16000040 + u % 256 * 0x10000, 0, 64⟩
def GCL_PREEMPT_PREEMPT_EN (u : Nat) : RF := ⟨(GCL_PREEMPT u).addr, 63, 1⟩
def GCL_PREEMPT_HOLD_ADV (u : Nat) : RF := ⟨(GCL_PREEMPT u).addr, 32, 16⟩
def GCL_PREEMPT_REL_ADV (u : Nat) : RF := ⟨(GCL_PREEMPT u).addr, 16, 16⟩
def GCL_PREEMPT_PMASK (u : Nat) : RF := ⟨(GCL_PREEMPT u).addr, 8, 8⟩
def GCL_PREEMPT_GB_ADJ (u : Nat) : RF := ⟨(GCL_PREEMPT u).addr, 0, 8⟩
/-- GCL_OPER, RO (chapter 10). -/
def GCL_OPER (u : Nat) : RF := ⟨0x16000048 + u % 256 * 0x10000, 0, 64⟩
def GCL_OPER_RUN (u : Nat) : RF := ⟨(GCL_OPER u).addr, 63, 1⟩
def GCL_OPER_HOLD (u : Nat) : RF := ⟨(GCL_OPER u).addr, 62, 1⟩
def GCL_OPER_OPER_LEN (u : Nat) : RF := ⟨(GCL_OPER u).addr, 48, 11⟩
def GCL_OPER_ENTRY (u : Nat) : RF := ⟨(GCL_OPER u).addr, 32, 10⟩
def GCL_OPER_GATES (u : Nat) : RF := ⟨(GCL_OPER u).addr, 0, 8⟩
/-- GCL_CCTS, RO (chapter 10). -/
def GCL_CCTS (u : Nat) : RF := ⟨0x16000050 + u % 256 * 0x10000, 0, 64⟩
def GCL_CCTS_CCT_S (u : Nat) : RF := ⟨(GCL_CCTS u).addr, 16, 48⟩
/-- GCL_CCTN, RO (chapter 10). -/
def GCL_CCTN (u : Nat) : RF := ⟨0x16000058 + u % 256 * 0x10000, 0, 64⟩
def GCL_CCTN_CCT_NS (u : Nat) : RF := ⟨(GCL_CCTN u).addr, 0, 30⟩
/-- GCL_EVT, W1C (chapter 10). -/
def GCL_EVT (u : Nat) : RF := ⟨0x16000060 + u % 256 * 0x10000, 0, 64⟩
def GCL_EVT_STEP (u : Nat) : RF := ⟨(GCL_EVT u).addr, 2, 1⟩
def GCL_EVT_CHANGED (u : Nat) : RF := ⟨(GCL_EVT u).addr, 1, 1⟩
def GCL_EVT_LATE_START (u : Nat) : RF := ⟨(GCL_EVT u).addr, 0, 1⟩
/-- GCL_CNT, RC (chapter 10). -/
def GCL_CNT (u : Nat) : RF := ⟨0x16000068 + u % 256 * 0x10000, 0, 64⟩
def GCL_CNT_GB_HOLD (u : Nat) : RF := ⟨(GCL_CNT u).addr, 32, 32⟩
def GCL_CNT_PREEMPT (u : Nat) : RF := ⟨(GCL_CNT u).addr, 0, 32⟩
/-- GCL_LIST, SH (chapter 10). -/
def GCL_LIST (u : Nat) (n : Nat) : RF := ⟨0x16002000 + u % 256 * 0x10000 + n % 4096 * 8, 0, 64⟩
def GCL_LIST_OP (u : Nat) (n : Nat) : RF := ⟨(GCL_LIST u n).addr, 62, 2⟩
def GCL_LIST_GATES (u : Nat) (n : Nat) : RF := ⟨(GCL_LIST u n).addr, 48, 8⟩
def GCL_LIST_INTERVAL (u : Nat) (n : Nat) : RF := ⟨(GCL_LIST u n).addr, 0, 32⟩
/-- CIP_FWQ_BASE, SX (chapter 11). -/
def CIP_FWQ_BASE : RF := ⟨0x18000020, 0, 64⟩
def CIP_FWQ_BASE_BASE : RF := ⟨(CIP_FWQ_BASE).addr, 0, 48⟩
/-- CIP_FWQ, RW (chapter 11). -/
def CIP_FWQ : RF := ⟨0x18000028, 0, 64⟩
def CIP_FWQ_EN : RF := ⟨(CIP_FWQ).addr, 63, 1⟩
def CIP_FWQ_CONS : RF := ⟨(CIP_FWQ).addr, 32, 11⟩
def CIP_FWQ_PROD : RF := ⟨(CIP_FWQ).addr, 0, 11⟩
/-- CIP_CNT0, RC (chapter 11). -/
def CIP_CNT0 : RF := ⟨0x18000030, 0, 64⟩
def CIP_CNT0_KEY_ABSENT : RF := ⟨(CIP_CNT0).addr, 32, 32⟩
def CIP_CNT0_TAG_FAIL : RF := ⟨(CIP_CNT0).addr, 0, 32⟩
/-- CIP_CNT1, RC (chapter 11). -/
def CIP_CNT1 : RF := ⟨0x18000038, 0, 64⟩
def CIP_CNT1_RETIRED_REQ : RF := ⟨(CIP_CNT1).addr, 32, 32⟩
def CIP_CNT1_FW_BAD : RF := ⟨(CIP_CNT1).addr, 16, 16⟩
def CIP_CNT1_EXH_DROP : RF := ⟨(CIP_CNT1).addr, 0, 16⟩
/-- CIP_CNT2, RC (chapter 11). -/
def CIP_CNT2 : RF := ⟨0x18000040, 0, 64⟩
def CIP_CNT2_REPLAY : RF := ⟨(CIP_CNT2).addr, 32, 32⟩
def CIP_CNT2_RA_YIELD : RF := ⟨(CIP_CNT2).addr, 16, 16⟩
def CIP_CNT2_QFULL : RF := ⟨(CIP_CNT2).addr, 0, 16⟩
/-- CIP_IND_CMD, RW (chapter 11). -/
def CIP_IND_CMD : RF := ⟨0x18000048, 0, 64⟩
def CIP_IND_CMD_GO : RF := ⟨(CIP_IND_CMD).addr, 63, 1⟩
def CIP_IND_CMD_ERR : RF := ⟨(CIP_IND_CMD).addr, 62, 1⟩
def CIP_IND_CMD_RD : RF := ⟨(CIP_IND_CMD).addr, 61, 1⟩
def CIP_IND_CMD_TABLE : RF := ⟨(CIP_IND_CMD).addr, 56, 2⟩
def CIP_IND_CMD_INDEX : RF := ⟨(CIP_IND_CMD).addr, 0, 10⟩
/-- CIP_IND_DATA, RW (chapter 11). -/
def CIP_IND_DATA (n : Nat) : RF := ⟨0x18000050 + n % 4096 * 8, 0, 64⟩
/-- CIP_PNTHR, W1C (chapter 11). -/
def CIP_PNTHR (n : Nat) : RF := ⟨0x18000080 + n % 4096 * 8, 0, 64⟩
/-- CIP_PNEXH, W1C (chapter 11). -/
def CIP_PNEXH (n : Nat) : RF := ⟨0x180000A0 + n % 4096 * 8, 0, 64⟩
/-- KLN_CMD, RW (chapter 11). -/
def KLN_CMD : RF := ⟨0x19000020, 0, 64⟩
def KLN_CMD_GO : RF := ⟨(KLN_CMD).addr, 63, 1⟩
def KLN_CMD_ERR : RF := ⟨(KLN_CMD).addr, 62, 1⟩
def KLN_CMD_STATUS : RF := ⟨(KLN_CMD).addr, 58, 4⟩
def KLN_CMD_OP : RF := ⟨(KLN_CMD).addr, 54, 4⟩
def KLN_CMD_ROOT : RF := ⟨(KLN_CMD).addr, 42, 6⟩
def KLN_CMD_USE : RF := ⟨(KLN_CMD).addr, 16, 2⟩
def KLN_CMD_SLOT : RF := ⟨(KLN_CMD).addr, 0, 13⟩
/-- KLN_DATA, WO (chapter 11). -/
def KLN_DATA (n : Nat) : RF := ⟨0x19000028 + n % 4096 * 8, 0, 64⟩
/-- KLN_SLOTINFO, RO (chapter 11). -/
def KLN_SLOTINFO : RF := ⟨0x19000050, 0, 64⟩
def KLN_SLOTINFO_STATE : RF := ⟨(KLN_SLOTINFO).addr, 62, 2⟩
def KLN_SLOTINFO_USE : RF := ⟨(KLN_SLOTINFO).addr, 60, 2⟩
def KLN_SLOTINFO_PREV : RF := ⟨(KLN_SLOTINFO).addr, 59, 1⟩
def KLN_SLOTINFO_REWR : RF := ⟨(KLN_SLOTINFO).addr, 58, 1⟩
def KLN_SLOTINFO_HIGH_FC : RF := ⟨(KLN_SLOTINFO).addr, 0, 48⟩
/-- KLN_BIND_CMD, RW (chapter 11). -/
def KLN_BIND_CMD : RF := ⟨0x19000058, 0, 64⟩
def KLN_BIND_CMD_GO : RF := ⟨(KLN_BIND_CMD).addr, 63, 1⟩
def KLN_BIND_CMD_ERR : RF := ⟨(KLN_BIND_CMD).addr, 62, 1⟩
def KLN_BIND_CMD_RD : RF := ⟨(KLN_BIND_CMD).addr, 61, 1⟩
def KLN_BIND_CMD_INDEX : RF := ⟨(KLN_BIND_CMD).addr, 0, 12⟩
/-- KLN_BIND_DATA, RW (chapter 11). -/
def KLN_BIND_DATA : RF := ⟨0x19000060, 0, 64⟩
def KLN_BIND_DATA_VALID : RF := ⟨(KLN_BIND_DATA).addr, 63, 1⟩
def KLN_BIND_DATA_USAGE : RF := ⟨(KLN_BIND_DATA).addr, 60, 2⟩
def KLN_BIND_DATA_CP : RF := ⟨(KLN_BIND_DATA).addr, 56, 4⟩
def KLN_BIND_DATA_SGRP : RF := ⟨(KLN_BIND_DATA).addr, 48, 8⟩
def KLN_BIND_DATA_BASE : RF := ⟨(KLN_BIND_DATA).addr, 0, 13⟩
/-- KLN_EVT, W1C (chapter 11). -/
def KLN_EVT : RF := ⟨0x19000068, 0, 64⟩
def KLN_EVT_UNWRAP : RF := ⟨(KLN_EVT).addr, 16, 16⟩
def KLN_EVT_RETIRE : RF := ⟨(KLN_EVT).addr, 0, 16⟩
/-- KLN_RK, RW (chapter 11). -/
def KLN_RK : RF := ⟨0x19000070, 0, 64⟩
def KLN_RK_PROG_ERR : RF := ⟨(KLN_RK).addr, 2, 1⟩
def KLN_RK_RK_SET : RF := ⟨(KLN_RK).addr, 1, 1⟩
def KLN_RK_PROG : RF := ⟨(KLN_RK).addr, 0, 1⟩
/-- KLN_CNT, RC (chapter 11). -/
def KLN_CNT : RF := ⟨0x19000078, 0, 64⟩
def KLN_CNT_DERIVED : RF := ⟨(KLN_CNT).addr, 32, 32⟩
def KLN_CNT_KC_REJ : RF := ⟨(KLN_CNT).addr, 16, 16⟩
def KLN_CNT_RETIRED : RF := ⟨(KLN_CNT).addr, 0, 16⟩
/-- KLN_CP_STAT, RO (chapter 11). -/
def KLN_CP_STAT (n : Nat) : RF := ⟨0x19000100 + n % 4096 * 8, 0, 64⟩
def KLN_CP_STAT_KI_DS (n : Nat) : RF := ⟨(KLN_CP_STAT n).addr, 62, 2⟩
def KLN_CP_STAT_KI_US (n : Nat) : RF := ⟨(KLN_CP_STAT n).addr, 60, 2⟩
def KLN_CP_STAT_KEK_V (n : Nat) : RF := ⟨(KLN_CP_STAT n).addr, 59, 1⟩
def KLN_CP_STAT_ROOT_V (n : Nat) : RF := ⟨(KLN_CP_STAT n).addr, 56, 3⟩
def KLN_CP_STAT_CUR (n : Nat) : RF := ⟨(KLN_CP_STAT n).addr, 50, 6⟩
def KLN_CP_STAT_FC_REF (n : Nat) : RF := ⟨(KLN_CP_STAT n).addr, 0, 48⟩
/-- MAC_PORT_CFG, RW (chapter 12). -/
def MAC_PORT_CFG (u : Nat) : RF := ⟨0x1C000020 + u % 256 * 0x10000, 0, 64⟩
def MAC_PORT_CFG_EN (u : Nat) : RF := ⟨(MAC_PORT_CFG u).addr, 63, 1⟩
def MAC_PORT_CFG_DROP_DOWN (u : Nat) : RF := ⟨(MAC_PORT_CFG u).addr, 62, 1⟩
def MAC_PORT_CFG_DEF_Q (u : Nat) : RF := ⟨(MAC_PORT_CFG u).addr, 59, 3⟩
def MAC_PORT_CFG_MAXLEN (u : Nat) : RF := ⟨(MAC_PORT_CFG u).addr, 0, 14⟩
/-- MAC_PORT_STAT, RO (chapter 12). -/
def MAC_PORT_STAT (u : Nat) : RF := ⟨0x1C000028 + u % 256 * 0x10000, 0, 64⟩
def MAC_PORT_STAT_LINK (u : Nat) : RF := ⟨(MAC_PORT_STAT u).addr, 63, 1⟩
def MAC_PORT_STAT_LOCAL_F (u : Nat) : RF := ⟨(MAC_PORT_STAT u).addr, 62, 1⟩
def MAC_PORT_STAT_REMOTE_F (u : Nat) : RF := ⟨(MAC_PORT_STAT u).addr, 61, 1⟩
def MAC_PORT_STAT_LINK_CHG (u : Nat) : RF := ⟨(MAC_PORT_STAT u).addr, 60, 1⟩
/-- MAC_PCP_MAP, RW (chapter 12). -/
def MAC_PCP_MAP (u : Nat) : RF := ⟨0x1C000030 + u % 256 * 0x10000, 0, 64⟩
def MAC_PCP_MAP_QMAP (u : Nat) : RF := ⟨(MAC_PCP_MAP u).addr, 0, 24⟩
/-- MAC_PFC_CFG, RW (chapter 12). -/
def MAC_PFC_CFG (u : Nat) : RF := ⟨0x1C000038 + u % 256 * 0x10000, 0, 64⟩
def MAC_PFC_CFG_PFC_RX (u : Nat) : RF := ⟨(MAC_PFC_CFG u).addr, 56, 8⟩
def MAC_PFC_CFG_PFC_TX (u : Nat) : RF := ⟨(MAC_PFC_CFG u).addr, 48, 8⟩
def MAC_PFC_CFG_PFC_TIME (u : Nat) : RF := ⟨(MAC_PFC_CFG u).addr, 32, 16⟩
def MAC_PFC_CFG_XOFF_TH (u : Nat) : RF := ⟨(MAC_PFC_CFG u).addr, 16, 16⟩
def MAC_PFC_CFG_XON_TH (u : Nat) : RF := ⟨(MAC_PFC_CFG u).addr, 0, 16⟩
/-- MAC_PFC_STAT, RO (chapter 12). -/
def MAC_PFC_STAT (u : Nat) : RF := ⟨0x1C000040 + u % 256 * 0x10000, 0, 64⟩
def MAC_PFC_STAT_XOFF (u : Nat) : RF := ⟨(MAC_PFC_STAT u).addr, 56, 8⟩
def MAC_PFC_STAT_PAUSED (u : Nat) : RF := ⟨(MAC_PFC_STAT u).addr, 48, 8⟩
/-- MAC_MM_CFG, RW (chapter 12). -/
def MAC_MM_CFG (u : Nat) : RF := ⟨0x1C000048 + u % 256 * 0x10000, 0, 64⟩
def MAC_MM_CFG_MM_EN (u : Nat) : RF := ⟨(MAC_MM_CFG u).addr, 63, 1⟩
def MAC_MM_CFG_VERIFY_DIS (u : Nat) : RF := ⟨(MAC_MM_CFG u).addr, 62, 1⟩
def MAC_MM_CFG_ADD_FRAG (u : Nat) : RF := ⟨(MAC_MM_CFG u).addr, 60, 2⟩
def MAC_MM_CFG_VERIFY_MS (u : Nat) : RF := ⟨(MAC_MM_CFG u).addr, 40, 8⟩
def MAC_MM_CFG_VERIFY_ST (u : Nat) : RF := ⟨(MAC_MM_CFG u).addr, 0, 3⟩
/-- MAC_SEC_CFG, RW (chapter 12). -/
def MAC_SEC_CFG (u : Nat) : RF := ⟨0x1C000050 + u % 256 * 0x10000, 0, 64⟩
def MAC_SEC_CFG_TX_EN (u : Nat) : RF := ⟨(MAC_SEC_CFG u).addr, 63, 1⟩
def MAC_SEC_CFG_RX_EN (u : Nat) : RF := ⟨(MAC_SEC_CFG u).addr, 62, 1⟩
def MAC_SEC_CFG_TX_AN (u : Nat) : RF := ⟨(MAC_SEC_CFG u).addr, 60, 2⟩
def MAC_SEC_CFG_CLEAR_TAGS (u : Nat) : RF := ⟨(MAC_SEC_CFG u).addr, 58, 2⟩
def MAC_SEC_CFG_TX_CONF (u : Nat) : RF := ⟨(MAC_SEC_CFG u).addr, 57, 1⟩
/-- MAC_SEC_SCI, RW (chapter 12). -/
def MAC_SEC_SCI (u : Nat) : RF := ⟨0x1C000058 + u % 256 * 0x10000, 0, 64⟩
/-- MAC_SEC_RXSC, RW (chapter 12). -/
def MAC_SEC_RXSC (u : Nat) (n : Nat) : RF := ⟨0x1C000060 + u % 256 * 0x10000 + n % 4096 * 8, 0, 64⟩
/-- MAC_FLT, RW (chapter 12). -/
def MAC_FLT (u : Nat) (n : Nat) : RF := ⟨0x1C000100 + u % 256 * 0x10000 + n % 4096 * 8, 0, 64⟩
def MAC_FLT_EN (u : Nat) (n : Nat) : RF := ⟨(MAC_FLT u n).addr, 63, 1⟩
def MAC_FLT_DROP (u : Nat) (n : Nat) : RF := ⟨(MAC_FLT u n).addr, 62, 1⟩
def MAC_FLT_QUEUE (u : Nat) (n : Nat) : RF := ⟨(MAC_FLT u n).addr, 59, 3⟩
def MAC_FLT_M_ET (u : Nat) (n : Nat) : RF := ⟨(MAC_FLT u n).addr, 58, 1⟩
def MAC_FLT_M_VID (u : Nat) (n : Nat) : RF := ⟨(MAC_FLT u n).addr, 57, 1⟩
def MAC_FLT_ETYPE (u : Nat) (n : Nat) : RF := ⟨(MAC_FLT u n).addr, 32, 16⟩
def MAC_FLT_VID (u : Nat) (n : Nat) : RF := ⟨(MAC_FLT u n).addr, 16, 12⟩
def MAC_FLT_VID_MASK (u : Nat) (n : Nat) : RF := ⟨(MAC_FLT u n).addr, 0, 12⟩
/-- MAC_CNT, RC (chapter 12). -/
def MAC_CNT (u : Nat) (n : Nat) : RF := ⟨0x1C000200 + u % 256 * 0x10000 + n % 4096 * 8, 0, 64⟩
/-- MAC_PHY_CTL, RW (chapter 12). -/
def MAC_PHY_CTL (u : Nat) : RF := ⟨0x1C400020 + u % 128 * 0x10000, 0, 64⟩
def MAC_PHY_CTL_EN (u : Nat) : RF := ⟨(MAC_PHY_CTL u).addr, 63, 1⟩
def MAC_PHY_CTL_BRK (u : Nat) : RF := ⟨(MAC_PHY_CTL u).addr, 61, 2⟩
def MAC_PHY_CTL_LOOP (u : Nat) : RF := ⟨(MAC_PHY_CTL u).addr, 59, 2⟩
/-- MAC_PHY_STAT, RO (chapter 12). -/
def MAC_PHY_STAT (u : Nat) : RF := ⟨0x1C400028 + u % 128 * 0x10000, 0, 64⟩
def MAC_PHY_STAT_LANE_LOCK (u : Nat) : RF := ⟨(MAC_PHY_STAT u).addr, 60, 4⟩
def MAC_PHY_STAT_ALIGN (u : Nat) : RF := ⟨(MAC_PHY_STAT u).addr, 59, 1⟩
def MAC_PHY_STAT_HI_SER (u : Nat) : RF := ⟨(MAC_PHY_STAT u).addr, 58, 1⟩
def MAC_PHY_STAT_LIGHT_LOW (u : Nat) : RF := ⟨(MAC_PHY_STAT u).addr, 57, 1⟩
def MAC_PHY_STAT_BRK_WWR (u : Nat) : RF := ⟨(MAC_PHY_STAT u).addr, 56, 1⟩
/-- MAC_FEC_CNT, RC (chapter 12). -/
def MAC_FEC_CNT (u : Nat) : RF := ⟨0x1C400030 + u % 128 * 0x10000, 0, 64⟩
def MAC_FEC_CNT_CORR (u : Nat) : RF := ⟨(MAC_FEC_CNT u).addr, 32, 32⟩
def MAC_FEC_CNT_UNCORR (u : Nat) : RF := ⟨(MAC_FEC_CNT u).addr, 0, 32⟩
/-- MAC_LSRC_CTL, RW (chapter 12). -/
def MAC_LSRC_CTL : RF := ⟨0x1C500020, 0, 64⟩
def MAC_LSRC_CTL_ADDR3 : RF := ⟨(MAC_LSRC_CTL).addr, 16, 7⟩
def MAC_LSRC_CTL_ADDR2 : RF := ⟨(MAC_LSRC_CTL).addr, 8, 7⟩
def MAC_LSRC_CTL_CL_EN : RF := ⟨(MAC_LSRC_CTL).addr, 0, 1⟩
/-- MAC_LSRC_STATUS, RO (chapter 12). -/
def MAC_LSRC_STATUS : RF := ⟨0x1C500028, 0, 64⟩
def MAC_LSRC_STATUS_NAK3 : RF := ⟨(MAC_LSRC_STATUS).addr, 9, 1⟩
def MAC_LSRC_STATUS_NAK2 : RF := ⟨(MAC_LSRC_STATUS).addr, 8, 1⟩
def MAC_LSRC_STATUS_FAULT3 : RF := ⟨(MAC_LSRC_STATUS).addr, 5, 1⟩
def MAC_LSRC_STATUS_FAULT2 : RF := ⟨(MAC_LSRC_STATUS).addr, 4, 1⟩
def MAC_LSRC_STATUS_READY3 : RF := ⟨(MAC_LSRC_STATUS).addr, 1, 1⟩
def MAC_LSRC_STATUS_READY2 : RF := ⟨(MAC_LSRC_STATUS).addr, 0, 1⟩
/-- MAC_PFC_POOL, RW (chapter 12). -/
def MAC_PFC_POOL : RF := ⟨0x1C500030, 0, 64⟩
def MAC_PFC_POOL_POOL_XON : RF := ⟨(MAC_PFC_POOL).addr, 20, 20⟩
def MAC_PFC_POOL_POOL_XOFF : RF := ⟨(MAC_PFC_POOL).addr, 0, 20⟩
/-- TIM_PORT_CFG, RW (chapter 13). -/
def TIM_PORT_CFG (u : Nat) : RF := ⟨0x1D000020 + u % 256 * 0x10000, 0, 64⟩
def TIM_PORT_CFG_TS_TX (u : Nat) : RF := ⟨(TIM_PORT_CFG u).addr, 63, 1⟩
def TIM_PORT_CFG_ONE_STEP (u : Nat) : RF := ⟨(TIM_PORT_CFG u).addr, 62, 1⟩
def TIM_PORT_CFG_TC_EN (u : Nat) : RF := ⟨(TIM_PORT_CFG u).addr, 61, 1⟩
def TIM_PORT_CFG_TC_LINE (u : Nat) : RF := ⟨(TIM_PORT_CFG u).addr, 60, 1⟩
def TIM_PORT_CFG_RX_LAT (u : Nat) : RF := ⟨(TIM_PORT_CFG u).addr, 16, 16⟩
def TIM_PORT_CFG_TX_LAT (u : Nat) : RF := ⟨(TIM_PORT_CFG u).addr, 0, 16⟩
/-- TIM_TSQ_CTL, RW (chapter 13). -/
def TIM_TSQ_CTL (u : Nat) : RF := ⟨0x1D000028 + u % 256 * 0x10000, 0, 64⟩
def TIM_TSQ_CTL_POP (u : Nat) : RF := ⟨(TIM_TSQ_CTL u).addr, 63, 1⟩
def TIM_TSQ_CTL_LOG_CLR (u : Nat) : RF := ⟨(TIM_TSQ_CTL u).addr, 62, 1⟩
def TIM_TSQ_CTL_OVF (u : Nat) : RF := ⟨(TIM_TSQ_CTL u).addr, 61, 1⟩
def TIM_TSQ_CTL_COUNT (u : Nat) : RF := ⟨(TIM_TSQ_CTL u).addr, 48, 10⟩
def TIM_TSQ_CTL_LOSS_N (u : Nat) : RF := ⟨(TIM_TSQ_CTL u).addr, 40, 5⟩
def TIM_TSQ_CTL_LOST (u : Nat) : RF := ⟨(TIM_TSQ_CTL u).addr, 0, 32⟩
/-- TIM_TSQ_DATA, RO (chapter 13). -/
def TIM_TSQ_DATA (u : Nat) (n : Nat) : RF := ⟨0x1D000030 + u % 256 * 0x10000 + n % 4096 * 8, 0, 64⟩
def TIM_TSQ_DATA_S (u : Nat) (n : Nat) : RF := ⟨(TIM_TSQ_DATA u n).addr, 16, 48⟩
def TIM_TSQ_DATA_MSGTYPE (u : Nat) (n : Nat) : RF := ⟨(TIM_TSQ_DATA u n).addr, 12, 4⟩
def TIM_TSQ_DATA_DOMAIN (u : Nat) (n : Nat) : RF := ⟨(TIM_TSQ_DATA u n).addr, 0, 8⟩
def TIM_TSQ_DATA_NS (u : Nat) (n : Nat) : RF := ⟨(TIM_TSQ_DATA u n).addr, 32, 32⟩
def TIM_TSQ_DATA_FR (u : Nat) (n : Nat) : RF := ⟨(TIM_TSQ_DATA u n).addr, 16, 16⟩
def TIM_TSQ_DATA_SEQID (u : Nat) (n : Nat) : RF := ⟨(TIM_TSQ_DATA u n).addr, 0, 16⟩
/-- TIM_TSQ_LOSS, RO (chapter 13). -/
def TIM_TSQ_LOSS (u : Nat) (n : Nat) : RF := ⟨0x1D000040 + u % 256 * 0x10000 + n % 4096 * 8, 0, 64⟩
/-- TIM_TOD_S, RO (chapter 13). -/
def TIM_TOD_S : RF := ⟨0x1D400020, 0, 64⟩
def TIM_TOD_S_S : RF := ⟨(TIM_TOD_S).addr, 16, 48⟩
/-- TIM_TOD_NS, RO (chapter 13). -/
def TIM_TOD_NS : RF := ⟨0x1D400028, 0, 64⟩
def TIM_TOD_NS_NS : RF := ⟨(TIM_TOD_NS).addr, 32, 32⟩
def TIM_TOD_NS_FR : RF := ⟨(TIM_TOD_NS).addr, 16, 16⟩
/-- TIM_SET_S, RW (chapter 13). -/
def TIM_SET_S : RF := ⟨0x1D400030, 0, 64⟩
def TIM_SET_S_S : RF := ⟨(TIM_SET_S).addr, 16, 48⟩
/-- TIM_SET_NS, RW (chapter 13). -/
def TIM_SET_NS : RF := ⟨0x1D400038, 0, 64⟩
def TIM_SET_NS_NS : RF := ⟨(TIM_SET_NS).addr, 32, 32⟩
def TIM_SET_NS_FR : RF := ⟨(TIM_SET_NS).addr, 16, 16⟩
/-- TIM_STEP_OFS, RW (chapter 13). -/
def TIM_STEP_OFS : RF := ⟨0x1D400040, 0, 64⟩
/-- TIM_CTL, RW (chapter 13). -/
def TIM_CTL : RF := ⟨0x1D400048, 0, 64⟩
def TIM_CTL_LOAD : RF := ⟨(TIM_CTL).addr, 63, 1⟩
def TIM_CTL_STEP : RF := ⟨(TIM_CTL).addr, 62, 1⟩
def TIM_CTL_TSRC : RF := ⟨(TIM_CTL).addr, 24, 3⟩
def TIM_CTL_SRC_CP : RF := ⟨(TIM_CTL).addr, 20, 4⟩
def TIM_CTL_ALT_CP : RF := ⟨(TIM_CTL).addr, 16, 4⟩
def TIM_CTL_ALT_EN : RF := ⟨(TIM_CTL).addr, 15, 1⟩
def TIM_CTL_FSRC : RF := ⟨(TIM_CTL).addr, 12, 3⟩
def TIM_CTL_BW : RF := ⟨(TIM_CTL).addr, 8, 2⟩
def TIM_CTL_FPORT : RF := ⟨(TIM_CTL).addr, 0, 4⟩
/-- TIM_SERVO, RW (chapter 13). -/
def TIM_SERVO : RF := ⟨0x1D400050, 0, 64⟩
def TIM_SERVO_KP : RF := ⟨(TIM_SERVO).addr, 48, 16⟩
def TIM_SERVO_KI : RF := ⟨(TIM_SERVO).addr, 32, 16⟩
def TIM_SERVO_STEP_TH : RF := ⟨(TIM_SERVO).addr, 0, 32⟩
/-- TIM_LOCK, RW (chapter 13). -/
def TIM_LOCK : RF := ⟨0x1D400058, 0, 64⟩
def TIM_LOCK_LOCK_TH : RF := ⟨(TIM_LOCK).addr, 48, 16⟩
def TIM_LOCK_LOCK_N : RF := ⟨(TIM_LOCK).addr, 40, 8⟩
def TIM_LOCK_SAMPLE_TO : RF := ⟨(TIM_LOCK).addr, 32, 8⟩
def TIM_LOCK_HOLD_MAX : RF := ⟨(TIM_LOCK).addr, 0, 32⟩
/-- TIM_LINE_ADJ, RW (chapter 13). -/
def TIM_LINE_ADJ : RF := ⟨0x1D400060, 0, 64⟩
def TIM_LINE_ADJ_LINE_ADJ : RF := ⟨(TIM_LINE_ADJ).addr, 0, 32⟩
/-- TIM_SAMPLE, WO (chapter 13). -/
def TIM_SAMPLE : RF := ⟨0x1D400068, 0, 64⟩
/-- TIM_STATUS, RO (chapter 13). -/
def TIM_STATUS : RF := ⟨0x1D400070, 0, 64⟩
def TIM_STATUS_STATE : RF := ⟨(TIM_STATUS).addr, 62, 2⟩
def TIM_STATUS_F_HOLD : RF := ⟨(TIM_STATUS).addr, 61, 1⟩
def TIM_STATUS_CP_V : RF := ⟨(TIM_STATUS).addr, 60, 1⟩
def TIM_STATUS_CP : RF := ⟨(TIM_STATUS).addr, 56, 4⟩
def TIM_STATUS_LAST_E : RF := ⟨(TIM_STATUS).addr, 0, 32⟩
/-- TIM_RATE, RO (chapter 13). -/
def TIM_RATE : RF := ⟨0x1D400078, 0, 64⟩
def TIM_RATE_RATE : RF := ⟨(TIM_RATE).addr, 32, 32⟩
def TIM_RATE_INTEG : RF := ⟨(TIM_RATE).addr, 0, 32⟩
/-- TIM_EVT, W1C (chapter 13). -/
def TIM_EVT : RF := ⟨0x1D400080, 0, 64⟩
def TIM_EVT_SRC_SW : RF := ⟨(TIM_EVT).addr, 5, 1⟩
def TIM_EVT_F_LOSS : RF := ⟨(TIM_EVT).addr, 4, 1⟩
def TIM_EVT_FREE_EVT : RF := ⟨(TIM_EVT).addr, 3, 1⟩
def TIM_EVT_HOLD : RF := ⟨(TIM_EVT).addr, 2, 1⟩
def TIM_EVT_LOCK : RF := ⟨(TIM_EVT).addr, 1, 1⟩
def TIM_EVT_STEP : RF := ⟨(TIM_EVT).addr, 0, 1⟩
/-- TIM_CNT, RC (chapter 13). -/
def TIM_CNT : RF := ⟨0x1D400088, 0, 64⟩
def TIM_CNT_TOD_OK : RF := ⟨(TIM_CNT).addr, 32, 32⟩
def TIM_CNT_TOD_IGN : RF := ⟨(TIM_CNT).addr, 24, 8⟩
def TIM_CNT_TOD_REJ : RF := ⟨(TIM_CNT).addr, 16, 8⟩
def TIM_CNT_SMP_DISC : RF := ⟨(TIM_CNT).addr, 8, 8⟩
def TIM_CNT_PPS_IGN : RF := ⟨(TIM_CNT).addr, 4, 4⟩
def TIM_CNT_TODI_BAD : RF := ⟨(TIM_CNT).addr, 0, 4⟩
/-- TIM_PPS, RW (chapter 13). -/
def TIM_PPS : RF := ⟨0x1D400090, 0, 64⟩
def TIM_PPS_PPS_OUT_EN : RF := ⟨(TIM_PPS).addr, 63, 1⟩
def TIM_PPS_PPS_QUAL : RF := ⟨(TIM_PPS).addr, 62, 1⟩
def TIM_PPS_PPS_IN_EN : RF := ⟨(TIM_PPS).addr, 61, 1⟩
def TIM_PPS_PPS_W : RF := ⟨(TIM_PPS).addr, 32, 16⟩
def TIM_PPS_PPS_OUT_OFS : RF := ⟨(TIM_PPS).addr, 16, 16⟩
def TIM_PPS_PPS_IN_OFS : RF := ⟨(TIM_PPS).addr, 0, 16⟩
/-- TIM_PPS_IN_S, RO (chapter 13). -/
def TIM_PPS_IN_S : RF := ⟨0x1D400098, 0, 64⟩
def TIM_PPS_IN_S_S : RF := ⟨(TIM_PPS_IN_S).addr, 16, 48⟩
/-- TIM_PPS_IN_NS, RO (chapter 13). -/
def TIM_PPS_IN_NS : RF := ⟨0x1D4000A0, 0, 64⟩
def TIM_PPS_IN_NS_NS : RF := ⟨(TIM_PPS_IN_NS).addr, 32, 32⟩
def TIM_PPS_IN_NS_FR : RF := ⟨(TIM_PPS_IN_NS).addr, 16, 16⟩
/-- TIM_TODS, RW (chapter 13). -/
def TIM_TODS : RF := ⟨0x1D4000A8, 0, 64⟩
def TIM_TODS_TODO_EN : RF := ⟨(TIM_TODS).addr, 63, 1⟩
def TIM_TODS_TODI_EN : RF := ⟨(TIM_TODS).addr, 62, 1⟩
def TIM_TODS_BAUD : RF := ⟨(TIM_TODS).addr, 61, 1⟩
def TIM_TODS_UTC_V : RF := ⟨(TIM_TODS).addr, 18, 1⟩
def TIM_TODS_LEAP59 : RF := ⟨(TIM_TODS).addr, 17, 1⟩
def TIM_TODS_LEAP61 : RF := ⟨(TIM_TODS).addr, 16, 1⟩
def TIM_TODS_UTC_OFS : RF := ⟨(TIM_TODS).addr, 0, 16⟩
/-- TIM_TODS_RX, RO (chapter 13). -/
def TIM_TODS_RX : RF := ⟨0x1D4000B0, 0, 64⟩
def TIM_TODS_RX_SECONDS : RF := ⟨(TIM_TODS_RX).addr, 16, 48⟩
def TIM_TODS_RX_STATUS : RF := ⟨(TIM_TODS_RX).addr, 8, 8⟩
def TIM_TODS_RX_FLAGS : RF := ⟨(TIM_TODS_RX).addr, 0, 8⟩
/-- OHS_CTL, RW (chapter 04). -/
def OHS_CTL (n : Nat) : RF := ⟨0x1E000020 + n % 1024 * 32, 0, 64⟩
def OHS_CTL_X_EN (n : Nat) : RF := ⟨(OHS_CTL n).addr, 15, 1⟩
def OHS_CTL_X_SRC (n : Nat) : RF := ⟨(OHS_CTL n).addr, 8, 4⟩
def OHS_CTL_I_EN (n : Nat) : RF := ⟨(OHS_CTL n).addr, 7, 1⟩
def OHS_CTL_I_DST (n : Nat) : RF := ⟨(OHS_CTL n).addr, 0, 4⟩
/-- OHS_STAT, RO (chapter 04). -/
def OHS_STAT (n : Nat) : RF := ⟨0x1E000028 + n % 1024 * 32, 0, 64⟩
def OHS_STAT_X_AIS (n : Nat) : RF := ⟨(OHS_STAT n).addr, 63, 1⟩
def OHS_STAT_I_READY (n : Nat) : RF := ⟨(OHS_STAT n).addr, 62, 1⟩
def OHS_STAT_X_TRUNC (n : Nat) : RF := ⟨(OHS_STAT n).addr, 61, 1⟩
/-- OHS_CNT, RC (chapter 04). -/
def OHS_CNT (n : Nat) : RF := ⟨0x1E000030 + n % 1024 * 32, 0, 64⟩
def OHS_CNT_OVW (n : Nat) : RF := ⟨(OHS_CNT n).addr, 32, 32⟩
def OHS_CNT_SHORT (n : Nat) : RF := ⟨(OHS_CNT n).addr, 0, 32⟩
/-- CAS_CTL, RW (chapter 17). -/
def CAS_CTL : RF := ⟨0x20000020, 0, 64⟩
def CAS_CTL_TIME_EN : RF := ⟨(CAS_CTL).addr, 63, 1⟩
def CAS_CTL_BOOT_WAIT : RF := ⟨(CAS_CTL).addr, 8, 8⟩
def CAS_CTL_ERR_MAX : RF := ⟨(CAS_CTL).addr, 0, 8⟩
/-- CAS_ROLE, RO (chapter 17). -/
def CAS_ROLE : RF := ⟨0x20000028, 0, 64⟩
def CAS_ROLE_ROLE : RF := ⟨(CAS_ROLE).addr, 62, 2⟩
def CAS_ROLE_STRAP : RF := ⟨(CAS_ROLE).addr, 61, 1⟩
def CAS_ROLE_ID_V : RF := ⟨(CAS_ROLE).addr, 60, 1⟩
def CAS_ROLE_ID : RF := ⟨(CAS_ROLE).addr, 56, 4⟩
def CAS_ROLE_MGR : RF := ⟨(CAS_ROLE).addr, 52, 4⟩
def CAS_ROLE_EPOCH : RF := ⟨(CAS_ROLE).addr, 32, 16⟩
def CAS_ROLE_PRESENT : RF := ⟨(CAS_ROLE).addr, 0, 16⟩
/-- CAS_GRP_CTL, RW (chapter 17). -/
def CAS_GRP_CTL (n : Nat) : RF := ⟨0x20000030 + n % 4096 * 8, 0, 64⟩
def CAS_GRP_CTL_EN (n : Nat) : RF := ⟨(CAS_GRP_CTL n).addr, 63, 1⟩
def CAS_GRP_CTL_LANE_EN (n : Nat) : RF := ⟨(CAS_GRP_CTL n).addr, 56, 4⟩
def CAS_GRP_CTL_RATE_MAX (n : Nat) : RF := ⟨(CAS_GRP_CTL n).addr, 48, 1⟩
def CAS_GRP_CTL_DENS_MIN (n : Nat) : RF := ⟨(CAS_GRP_CTL n).addr, 0, 16⟩
/-- CAS_GRP_STAT, RO (chapter 17). -/
def CAS_GRP_STAT (n : Nat) : RF := ⟨0x20000040 + n % 4096 * 8, 0, 64⟩
def CAS_GRP_STAT_STATE (n : Nat) : RF := ⟨(CAS_GRP_STAT n).addr, 61, 3⟩
def CAS_GRP_STAT_RATE (n : Nat) : RF := ⟨(CAS_GRP_STAT n).addr, 60, 1⟩
def CAS_GRP_STAT_LANES (n : Nat) : RF := ⟨(CAS_GRP_STAT n).addr, 56, 4⟩
def CAS_GRP_STAT_FROZEN (n : Nat) : RF := ⟨(CAS_GRP_STAT n).addr, 52, 4⟩
def CAS_GRP_STAT_PEER_V (n : Nat) : RF := ⟨(CAS_GRP_STAT n).addr, 51, 1⟩
def CAS_GRP_STAT_PEER (n : Nat) : RF := ⟨(CAS_GRP_STAT n).addr, 44, 4⟩
/-- CAS_GRP_CNT, RC (chapter 17). -/
def CAS_GRP_CNT (n : Nat) : RF := ⟨0x20000050 + n % 4096 * 8, 0, 64⟩
def CAS_GRP_CNT_CONT (n : Nat) : RF := ⟨(CAS_GRP_CNT n).addr, 32, 32⟩
def CAS_GRP_CNT_CRC_ERR (n : Nat) : RF := ⟨(CAS_GRP_CNT n).addr, 16, 16⟩
def CAS_GRP_CNT_RESTARTS (n : Nat) : RF := ⟨(CAS_GRP_CNT n).addr, 8, 8⟩
/-- CAS_ASYM, RW (chapter 17). -/
def CAS_ASYM (n : Nat) : RF := ⟨0x20000060 + n % 4096 * 8, 0, 64⟩
def CAS_ASYM_ASYM (n : Nat) : RF := ⟨(CAS_ASYM n).addr, 0, 16⟩
/-- CAS_EVT, W1C (chapter 17). -/
def CAS_EVT : RF := ⟨0x20000070, 0, 64⟩
def CAS_EVT_FREEZE : RF := ⟨(CAS_EVT).addr, 6, 1⟩
def CAS_EVT_GRP_DOWN1 : RF := ⟨(CAS_EVT).addr, 5, 1⟩
def CAS_EVT_GRP_DOWN0 : RF := ⟨(CAS_EVT).addr, 4, 1⟩
def CAS_EVT_JOIN_REF : RF := ⟨(CAS_EVT).addr, 3, 1⟩
def CAS_EVT_MGR_LOST : RF := ⟨(CAS_EVT).addr, 2, 1⟩
def CAS_EVT_VIEW_CHG : RF := ⟨(CAS_EVT).addr, 1, 1⟩
def CAS_EVT_CONFLICT : RF := ⟨(CAS_EVT).addr, 0, 1⟩
/-- CAS_CNT, RC (chapter 17). -/
def CAS_CNT : RF := ⟨0x20000078, 0, 64⟩
def CAS_CNT_TX_DROP : RF := ⟨(CAS_CNT).addr, 32, 32⟩
def CAS_CNT_GONE : RF := ⟨(CAS_CNT).addr, 16, 16⟩
def CAS_CNT_NOMEM : RF := ⟨(CAS_CNT).addr, 8, 8⟩
def CAS_CNT_HOP_DROP : RF := ⟨(CAS_CNT).addr, 0, 8⟩
/-- CAS_IND_CMD, RW (chapter 17). -/
def CAS_IND_CMD : RF := ⟨0x20000080, 0, 64⟩
def CAS_IND_CMD_GO : RF := ⟨(CAS_IND_CMD).addr, 63, 1⟩
def CAS_IND_CMD_ERR : RF := ⟨(CAS_IND_CMD).addr, 62, 1⟩
def CAS_IND_CMD_RD : RF := ⟨(CAS_IND_CMD).addr, 61, 1⟩
def CAS_IND_CMD_TABLE : RF := ⟨(CAS_IND_CMD).addr, 56, 2⟩
def CAS_IND_CMD_INDEX : RF := ⟨(CAS_IND_CMD).addr, 0, 18⟩
/-- CAS_IND_DATA, RW (chapter 17). -/
def CAS_IND_DATA (n : Nat) : RF := ⟨0x20000088 + n % 4096 * 8, 0, 64⟩

end Sys2Proof.Machine
end

