-- ==== Sys2Proof/Machine/RegTable.lean ====
section
/-! DEFINITION. The register tables of the spec as data: for every register its place (Table 20.2), its reset value, and
for every field its access code (Table 0.5) and the range its Meaning states (R415). Written out from the register
tables of chapters 02 to 18; reserved fields are left out, since they read 0 and are not written (R7). -/

namespace Sys2Proof.Machine

/-- The access codes of Table 0.5. -/
inductive Kind where
  | rw | ro | rc | w1c | w1s | wo | sh | st | sx
  deriving DecidableEq, Repr

/-- One field: lowest bit, width, access code, and the range outside which R415 moves a
written value (a field whose range begins below 0 is a two's complement number). -/
structure FieldRow where
  lo : Nat
  w : Nat
  kind : Kind
  mn : Int
  mx : Int
  deriving DecidableEq, Repr

/-- One register or array of registers: block number, address of unit 0 index 0, number of units (each 64 KiB apart), number
of registers in the array and their step, reset value, fields. -/
structure RegRow where
  blk : Nat
  base : Nat
  units : Nat
  off : Nat
  cnt : Nat
  step : Nat
  rst : Nat
  fields : List FieldRow
  deriving DecidableEq, Repr

/-- Registers of CFG: CFG_BOOT_STATUS, CFG_RESET, CFG_BLK_RUN, CFG_BLK_STOPPED, CFG_WWR, CFG_GRP_COMMIT, CFG_GRP_ABORT, CFG_GRP_PEND, CFG_GRP_WDISC, CFG_SPI_CMD, CFG_SPI_STATUS, CFG_REC_FAIL. -/
def rowsCFG0 : List RegRow :=
  [⟨0x1, 0x1000000, 1, 0x0, 1, 8, 0x0,
    [⟨49, 10, .ro, 0, 1023⟩, ⟨48, 1, .ro, 0, 1⟩, ⟨16, 32, .ro, 0, 4294967295⟩, ⟨12, 4, .ro, 0, 15⟩,
     ⟨8, 4, .ro, 0, 15⟩, ⟨4, 4, .ro, 0, 15⟩, ⟨3, 1, .ro, 0, 1⟩, ⟨2, 1, .ro, 0, 1⟩,
     ⟨1, 1, .ro, 0, 1⟩, ⟨0, 1, .ro, 0, 1⟩]⟩,
   ⟨0x1, 0x1000000, 1, 0x8, 1, 8, 0x0,
    [⟨0, 16, .wo, 0, 65535⟩]⟩,
   ⟨0x1, 0x1000000, 1, 0x10, 1, 8, 0x2,
    [⟨0, 64, .rw, 0, 0xFFFFFFFFFFFFFFFF⟩]⟩,
   ⟨0x1, 0x1000000, 1, 0x18, 1, 8, 0xFFFFFFFFFFFFFFFD,
    [⟨0, 64, .ro, 0, 0xFFFFFFFFFFFFFFFF⟩]⟩,
   ⟨0x1, 0x1000000, 1, 0x20, 1, 8, 0x0,
    [⟨0, 64, .w1c, 0, 0xFFFFFFFFFFFFFFFF⟩]⟩,
   ⟨0x1, 0x1000000, 1, 0x28, 1, 8, 0x0,
    [⟨8, 4, .wo, 0, 15⟩, ⟨7, 1, .wo, 0, 1⟩, ⟨0, 6, .wo, 0, 63⟩]⟩,
   ⟨0x1, 0x1000000, 1, 0x30, 1, 8, 0x0,
    [⟨0, 6, .wo, 0, 63⟩]⟩,
   ⟨0x1, 0x1000000, 1, 0x38, 1, 8, 0x0,
    [⟨0, 64, .ro, 0, 0xFFFFFFFFFFFFFFFF⟩]⟩,
   ⟨0x1, 0x1000000, 1, 0x40, 1, 8, 0x0,
    [⟨0, 64, .w1c, 0, 0xFFFFFFFFFFFFFFFF⟩]⟩,
   ⟨0x1, 0x1000000, 1, 0x48, 1, 8, 0x0,
    [⟨63, 1, .w1s, 0, 1⟩, ⟨40, 9, .rw, 0, 256⟩, ⟨32, 8, .rw, 0, 255⟩, ⟨0, 32, .rw, 0, 4294967295⟩]⟩,
   ⟨0x1, 0x1000000, 1, 0x50, 1, 8, 0x0,
    [⟨1, 1, .w1c, 0, 1⟩, ⟨0, 1, .w1c, 0, 1⟩]⟩,
   ⟨0x1, 0x1000000, 1, 0x58, 1, 8, 0x0,
    [⟨63, 1, .ro, 0, 1⟩, ⟨20, 3, .ro, 0, 7⟩, ⟨0, 20, .ro, 0, 1048575⟩]⟩]

/-- Registers of CFG: CFG_SPI_BUF. -/
def rowsCFG1 : List RegRow :=
  [⟨0x1, 0x1000000, 1, 0x100, 32, 8, 0x0,
    [⟨0, 64, .rw, 0, 0xFFFFFFFFFFFFFFFF⟩]⟩]

/-- Registers of CLK: CLK_STATUS, CLK_CORE, CLK_REF_CFG, CLK_EVT, CLK_MEAS. -/
def rowsCLK : List RegRow :=
  [⟨0x2, 0x2000000, 1, 0x20, 1, 8, 0x0,
    [⟨63, 1, .ro, 0, 1⟩, ⟨62, 1, .ro, 0, 1⟩, ⟨61, 1, .ro, 0, 1⟩, ⟨60, 1, .ro, 0, 1⟩,
     ⟨59, 1, .ro, 0, 1⟩, ⟨58, 1, .ro, 0, 1⟩, ⟨57, 1, .ro, 0, 1⟩, ⟨56, 1, .ro, 0, 1⟩,
     ⟨55, 1, .ro, 0, 1⟩]⟩,
   ⟨0x2, 0x2000000, 1, 0x28, 1, 8, 0x14,
    [⟨63, 1, .w1c, 0, 1⟩, ⟨9, 1, .rw, 0, 1⟩, ⟨8, 1, .rw, 0, 1⟩, ⟨0, 5, .rw, 8, 20⟩]⟩,
   ⟨0x2, 0x2000000, 1, 0x30, 1, 8, 0xF,
    [⟨2, 2, .rw, 0, 3⟩, ⟨0, 2, .rw, 0, 3⟩]⟩,
   ⟨0x2, 0x2000000, 1, 0x38, 1, 8, 0x0,
    [⟨4, 1, .w1c, 0, 1⟩, ⟨3, 1, .w1c, 0, 1⟩, ⟨2, 1, .w1c, 0, 1⟩, ⟨1, 1, .w1c, 0, 1⟩,
     ⟨0, 1, .w1c, 0, 1⟩]⟩,
   ⟨0x2, 0x2000000, 1, 0x40, 1, 8, 0x0,
    [⟨63, 1, .w1s, 0, 1⟩, ⟨62, 1, .w1c, 0, 1⟩, ⟨32, 6, .rw, 0, 63⟩, ⟨0, 32, .ro, 0, 4294967295⟩]⟩]

/-- Registers of PWR: PWR_REQ, PWR_TRIM, PWR_STATUS, PWR_EVT, PWR_WAKE_EN, PWR_WAKE_LOG, PWR_TASTE, PWR_TASTE_STAT, PWR_TMR, PWR_RESUME, PWR_CNT, PWR_CP_PM. -/
def rowsPWR0 : List RegRow :=
  [⟨0x3, 0x3000000, 1, 0x20, 1, 8, 0x0,
    [⟨63, 1, .w1s, 0, 1⟩, ⟨48, 3, .rw, 0, 7⟩, ⟨47, 1, .w1c, 0, 1⟩]⟩,
   ⟨0x3, 0x3000000, 1, 0x28, 1, 8, 0x0,
    [⟨32, 16, .rw, 0, 65535⟩, ⟨16, 16, .rw, 0, 65535⟩, ⟨0, 16, .rw, 0, 65535⟩]⟩,
   ⟨0x3, 0x3000000, 1, 0x30, 1, 8, 0x0,
    [⟨61, 3, .ro, 0, 7⟩, ⟨60, 1, .ro, 0, 1⟩, ⟨57, 3, .ro, 0, 7⟩, ⟨56, 1, .ro, 0, 1⟩,
     ⟨53, 3, .ro, 0, 7⟩, ⟨50, 3, .ro, 0, 7⟩, ⟨0, 16, .ro, 0, 65535⟩]⟩,
   ⟨0x3, 0x3000000, 1, 0x38, 1, 8, 0x0,
    [⟨3, 1, .w1c, 0, 1⟩, ⟨2, 1, .w1c, 0, 1⟩, ⟨1, 1, .w1c, 0, 1⟩, ⟨0, 1, .w1c, 0, 1⟩]⟩,
   ⟨0x3, 0x3000000, 1, 0x40, 1, 8, 0x37,
    [⟨16, 16, .rw, 0, 65535⟩, ⟨0, 7, .rw, 0, 127⟩]⟩,
   ⟨0x3, 0x3000000, 1, 0x48, 1, 8, 0x0,
    [⟨63, 1, .w1s, 0, 1⟩, ⟨62, 1, .w1c, 0, 1⟩, ⟨56, 4, .ro, 0, 15⟩, ⟨32, 3, .ro, 0, 7⟩,
     ⟨0, 32, .ro, 0, 4294967295⟩]⟩,
   ⟨0x3, 0x3000000, 1, 0x50, 1, 8, 0x8000000800,
    [⟨60, 4, .rw, 0, 15⟩, ⟨48, 10, .rw, 0, 1023⟩, ⟨32, 11, .rw, 1, 1024⟩, ⟨8, 8, .rw, 1, 255⟩]⟩,
   ⟨0x3, 0x3000000, 1, 0x58, 1, 8, 0x0,
    [⟨32, 32, .ro, 0, 4294967295⟩, ⟨16, 16, .ro, 0, 65535⟩, ⟨0, 8, .ro, 0, 255⟩]⟩,
   ⟨0x3, 0x3000000, 1, 0x60, 1, 8, 0x0,
    [⟨0, 32, .rw, 0, 4294967295⟩]⟩,
   ⟨0x3, 0x3000000, 1, 0x68, 1, 8, 0x0,
    [⟨0, 48, .rw, 0, 0xFFFFFFFFFFFF⟩]⟩,
   ⟨0x3, 0x3000000, 1, 0x70, 1, 8, 0x0,
    [⟨32, 32, .rc, 0, 4294967295⟩, ⟨16, 16, .rc, 0, 65535⟩, ⟨0, 16, .rc, 0, 65535⟩]⟩,
   ⟨0x3, 0x3000000, 1, 0x100, 16, 16, 0x0,
    [⟨63, 1, .w1s, 0, 1⟩, ⟨62, 1, .w1c, 0, 1⟩, ⟨60, 2, .rw, 0, 3⟩, ⟨59, 1, .ro, 0, 1⟩,
     ⟨58, 1, .ro, 0, 1⟩, ⟨0, 32, .rw, 0, 4294967295⟩]⟩]

/-- Registers of PWR: PWR_CP_FC. -/
def rowsPWR1 : List RegRow :=
  [⟨0x3, 0x3000000, 1, 0x108, 16, 16, 0x0,
    [⟨0, 48, .rw, 0, 0xFFFFFFFFFFFF⟩]⟩]

/-- Registers of FLT: FLT_STATUS, FLT_SUMMARY, FLT_CFG, FLT_REC_CMD, FLT_REC_DATA, FLT_SAFE, FLT_INJ, FLT_CHK, FLT_CHK_INFO, FLT_CNT, FLT_TEMP, FLT_REPAIR. -/
def rowsFLT0 : List RegRow :=
  [⟨0x4, 0x4000000, 1, 0x20, 1, 8, 0x0,
    [⟨0, 64, .w1c, 0, 0xFFFFFFFFFFFFFFFF⟩]⟩,
   ⟨0x4, 0x4000000, 1, 0x28, 1, 8, 0x0,
    [⟨63, 1, .ro, 0, 1⟩, ⟨62, 1, .ro, 0, 1⟩, ⟨59, 3, .ro, 0, 7⟩, ⟨58, 1, .ro, 0, 1⟩,
     ⟨57, 1, .ro, 0, 1⟩, ⟨0, 7, .ro, 0, 127⟩]⟩,
   ⟨0x4, 0x4000000, 1, 0x30, 1, 8, 0x3203E80064,
    [⟨32, 16, .rw, 1, 1000⟩, ⟨16, 16, .rw, 0, 65535⟩, ⟨0, 8, .rw, 60, 105⟩]⟩,
   ⟨0x4, 0x4000000, 1, 0x38, 1, 8, 0x0,
    [⟨63, 1, .w1s, 0, 1⟩, ⟨62, 1, .w1c, 0, 1⟩, ⟨61, 1, .rw, 0, 1⟩, ⟨0, 6, .rw, 0, 63⟩]⟩,
   ⟨0x4, 0x4000000, 1, 0x40, 3, 8, 0x0,
    [⟨0, 64, .ro, 0, 0xFFFFFFFFFFFFFFFF⟩]⟩,
   ⟨0x4, 0x4000000, 1, 0x58, 1, 8, 0x0,
    [⟨63, 1, .w1s, 0, 1⟩, ⟨62, 1, .w1s, 0, 1⟩, ⟨61, 1, .w1c, 0, 1⟩]⟩,
   ⟨0x4, 0x4000000, 1, 0x60, 1, 8, 0x0,
    [⟨63, 1, .w1s, 0, 1⟩, ⟨62, 1, .rw, 0, 1⟩, ⟨61, 1, .w1c, 0, 1⟩, ⟨32, 16, .rw, 0, 65535⟩,
     ⟨0, 8, .rw, 0, 255⟩]⟩,
   ⟨0x4, 0x4000000, 1, 0x68, 1, 8, 0x0,
    [⟨32, 16, .rw, 0, 65535⟩]⟩,
   ⟨0x4, 0x4000000, 1, 0x70, 1, 8, 0x0,
    [⟨63, 1, .ro, 0, 1⟩, ⟨56, 4, .ro, 0, 15⟩, ⟨0, 48, .ro, 0, 0xFFFFFFFFFFFF⟩]⟩,
   ⟨0x4, 0x4000000, 1, 0x78, 1, 8, 0x0,
    [⟨32, 32, .rc, 0, 4294967295⟩, ⟨16, 16, .rc, 0, 65535⟩, ⟨0, 16, .rc, 0, 65535⟩]⟩,
   ⟨0x4, 0x4000000, 1, 0x80, 1, 8, 0x0,
    [⟨16, 16, .ro, 0, 65535⟩, ⟨0, 16, .ro, 0, 65535⟩]⟩,
   ⟨0x4, 0x4000000, 1, 0x88, 1, 8, 0x0,
    [⟨56, 8, .ro, 0, 255⟩, ⟨48, 8, .ro, 0, 255⟩, ⟨32, 16, .ro, 0, 65535⟩, ⟨16, 16, .ro, 0, 65535⟩,
     ⟨8, 8, .ro, 0, 255⟩]⟩]

/-- Registers of FLT: FLT_REACT. -/
def rowsFLT1 : List RegRow :=
  [⟨0x4, 0x4000000, 1, 0x100, 64, 8, 0x8000000000000014,
    [⟨63, 1, .rw, 0, 1⟩, ⟨8, 3, .rw, 0, 3⟩, ⟨4, 3, .rw, 0, 5⟩, ⟨0, 3, .rw, 4, 5⟩]⟩]

/-- Registers of TSK: TSK_IND_CMD, TSK_IND_DATA, TSK_POST, TSK_TASK_CMD, TSK_STATUS, TSK_EVT, TSK_CNT, TSK_TRC_BASE, TSK_TRC_CTL, TSK_TRC_LOST, TSK_CORE_CUR, TSK_CORE_CMD. -/
def rowsTSK0 : List RegRow :=
  [⟨0x5, 0x5000000, 1, 0x20, 1, 8, 0x0,
    [⟨63, 1, .w1s, 0, 1⟩, ⟨62, 1, .w1c, 0, 1⟩, ⟨61, 1, .rw, 0, 1⟩, ⟨0, 12, .rw, 0, 4095⟩]⟩,
   ⟨0x5, 0x5000000, 1, 0x28, 6, 8, 0x0,
    [⟨0, 64, .rw, 0, 0xFFFFFFFFFFFFFFFF⟩]⟩,
   ⟨0x5, 0x5000000, 1, 0x58, 1, 8, 0x0,
    [⟨16, 12, .wo, 0, 4095⟩, ⟨0, 6, .wo, 0, 63⟩]⟩,
   ⟨0x5, 0x5000000, 1, 0x60, 1, 8, 0x0,
    [⟨62, 2, .wo, 0, 3⟩, ⟨0, 12, .wo, 0, 4095⟩]⟩,
   ⟨0x5, 0x5000000, 1, 0x68, 1, 8, 0x0,
    [⟨32, 13, .ro, 0, 8191⟩, ⟨0, 11, .ro, 0, 2047⟩]⟩,
   ⟨0x5, 0x5000000, 1, 0x70, 1, 8, 0x0,
    [⟨2, 1, .w1c, 0, 1⟩, ⟨1, 1, .w1c, 0, 1⟩, ⟨0, 1, .w1c, 0, 1⟩]⟩,
   ⟨0x5, 0x5000000, 1, 0x78, 1, 8, 0x0,
    [⟨32, 32, .rc, 0, 4294967295⟩, ⟨0, 32, .rc, 0, 4294967295⟩]⟩,
   ⟨0x5, 0x5000000, 1, 0x80, 1, 8, 0x0,
    [⟨0, 48, .sx, 0, 0xFFFFFFFFFFFF⟩]⟩,
   ⟨0x5, 0x5000000, 1, 0x88, 1, 8, 0x0,
    [⟨63, 1, .rw, 0, 1⟩, ⟨62, 1, .rw, 0, 1⟩, ⟨57, 5, .rw, 8, 24⟩, ⟨25, 25, .ro, 0, 33554431⟩,
     ⟨0, 25, .rw, 0, 33554431⟩]⟩,
   ⟨0x5, 0x5000000, 1, 0x90, 1, 8, 0x0,
    [⟨0, 64, .rc, 0, 0xFFFFFFFFFFFFFFFF⟩]⟩,
   ⟨0x5, 0x5000000, 1, 0x100, 8, 16, 0x0,
    [⟨63, 1, .ro, 0, 1⟩, ⟨56, 4, .ro, 0, 15⟩, ⟨36, 12, .ro, 0, 4095⟩]⟩,
   ⟨0x5, 0x5000000, 1, 0x108, 8, 16, 0x0,
    [⟨63, 1, .rw, 0, 1⟩, ⟨62, 1, .w1s, 0, 1⟩, ⟨61, 1, .w1s, 0, 1⟩]⟩]

/-- Registers of TSK: TSK_CORE_FLG, TSK_SRC, TSK_CORE_ENT, TSK_CORE_ARG. -/
def rowsTSK1 : List RegRow :=
  [⟨0x5, 0x5000000, 1, 0x180, 8, 8, 0x0,
    [⟨0, 64, .ro, 0, 0xFFFFFFFFFFFFFFFF⟩]⟩,
   ⟨0x5, 0x5000000, 1, 0x200, 64, 8, 0x0,
    [⟨63, 1, .rw, 0, 1⟩, ⟨16, 12, .rw, 0, 4095⟩, ⟨0, 6, .rw, 0, 63⟩]⟩,
   ⟨0x5, 0x5000000, 1, 0x400, 8, 16, 0x0,
    [⟨0, 64, .ro, 0, 0xFFFFFFFFFFFFFFFF⟩]⟩,
   ⟨0x5, 0x5000000, 1, 0x408, 8, 16, 0x0,
    [⟨0, 64, .ro, 0, 0xFFFFFFFFFFFFFFFF⟩]⟩]

/-- Registers of ACU: ACU_IND_CMD, ACU_WIN_DATA, ACU_FAULT_ADDR, ACU_FAULT_INFO, ACU_CNT. -/
def rowsACU : List RegRow :=
  [⟨0x6, 0x6000000, 1, 0x20, 1, 8, 0x0,
    [⟨63, 1, .w1s, 0, 1⟩, ⟨62, 1, .w1c, 0, 1⟩, ⟨61, 1, .rw, 0, 1⟩, ⟨0, 8, .rw, 0, 255⟩]⟩,
   ⟨0x6, 0x6000000, 1, 0x28, 2, 8, 0x0,
    [⟨0, 64, .rw, 0, 0xFFFFFFFFFFFFFFFF⟩]⟩,
   ⟨0x6, 0x6000000, 1, 0x38, 1, 8, 0x0,
    [⟨0, 48, .ro, 0, 0xFFFFFFFFFFFF⟩]⟩,
   ⟨0x6, 0x6000000, 1, 0x40, 1, 8, 0x0,
    [⟨63, 1, .w1c, 0, 1⟩, ⟨62, 1, .ro, 0, 1⟩, ⟨60, 2, .ro, 0, 3⟩, ⟨56, 4, .ro, 0, 15⟩]⟩,
   ⟨0x6, 0x6000000, 1, 0x48, 1, 8, 0x0,
    [⟨0, 32, .rc, 0, 4294967295⟩]⟩]

/-- Registers of LPH: LPH_BANK, LPH_BANK_AT, LPH_CH_CTL, LPH_RX_CFG, LPH_EQ_DIV, LPH_DEC_CFG, LPH_TX_CFG, LPH_RX_STATUS, LPH_RX_EVT, LPH_TX_STATUS, LPH_CAL_WIN, LPH_CAL_RX. -/
def rowsLPH0 : List RegRow :=
  [⟨0x8, 0x8000000, 16, 0x10, 1, 8, 0x0,
    [⟨9, 1, .w1c, 0, 1⟩, ⟨8, 1, .w1c, 0, 1⟩, ⟨7, 1, .rw, 0, 1⟩, ⟨6, 1, .ro, 0, 1⟩,
     ⟨5, 1, .ro, 0, 1⟩, ⟨4, 1, .w1s, 0, 1⟩, ⟨3, 1, .w1s, 0, 1⟩, ⟨0, 3, .rw, 0, 7⟩]⟩,
   ⟨0x8, 0x8000000, 16, 0x18, 1, 8, 0x0,
    [⟨48, 1, .rw, 0, 1⟩, ⟨0, 48, .rw, 0, 0xFFFFFFFFFFFF⟩]⟩,
   ⟨0x8, 0x8000000, 16, 0x20, 1, 8, 0x0,
    [⟨2, 1, .rw, 0, 1⟩, ⟨1, 1, .rw, 0, 1⟩, ⟨0, 1, .rw, 0, 1⟩]⟩,
   ⟨0x8, 0x8000000, 16, 0x28, 1, 8, 0x8A00,
    [⟨16, 16, .sh, -200, 1400⟩, ⟨15, 1, .sh, 0, 1⟩, ⟨8, 4, .sh, 4, 15⟩]⟩,
   ⟨0x8, 0x8000000, 16, 0x30, 1, 8, 0x4000002,
    [⟨16, 16, .sh, 1, 4096⟩, ⟨0, 4, .sh, 1, 15⟩]⟩,
   ⟨0x8, 0x8000000, 16, 0x38, 1, 8, 0x2810C,
    [⟨12, 12, .sh, 0, 4020⟩, ⟨8, 1, .sh, 0, 1⟩, ⟨0, 6, .sh, 3, 32⟩]⟩,
   ⟨0x8, 0x8000000, 16, 0x40, 1, 8, 0x14,
    [⟨0, 8, .sh, 0, 40⟩]⟩,
   ⟨0x8, 0x8000000, 16, 0x48, 1, 8, 0x1000800000000000,
    [⟨63, 1, .ro, 0, 1⟩, ⟨62, 1, .ro, 0, 1⟩, ⟨61, 1, .ro, 0, 1⟩, ⟨60, 1, .ro, 0, 1⟩,
     ⟨32, 16, .ro, 0, 65535⟩, ⟨16, 16, .ro, 0, 65535⟩, ⟨0, 16, .ro, 0, 65535⟩]⟩,
   ⟨0x8, 0x8000000, 16, 0x50, 1, 8, 0x0,
    [⟨3, 1, .w1c, 0, 1⟩, ⟨2, 1, .w1c, 0, 1⟩, ⟨1, 1, .w1c, 0, 1⟩, ⟨0, 1, .w1c, 0, 1⟩]⟩,
   ⟨0x8, 0x8000000, 16, 0x58, 1, 8, 0x0,
    [⟨63, 1, .ro, 0, 1⟩, ⟨62, 1, .ro, 0, 1⟩, ⟨61, 1, .ro, 0, 1⟩, ⟨0, 16, .ro, 0, 65535⟩]⟩,
   ⟨0x8, 0x8000000, 16, 0x60, 1, 8, 0x1E061420,
    [⟨24, 8, .rw, 0, 255⟩, ⟨16, 8, .rw, 0, 255⟩, ⟨8, 8, .rw, 0, 255⟩, ⟨0, 8, .rw, 0, 255⟩]⟩,
   ⟨0x8, 0x8000000, 16, 0x68, 1, 8, 0x0,
    [⟨62, 2, .ro, 0, 3⟩, ⟨32, 16, .ro, 0, 65535⟩, ⟨0, 16, .ro, 0, 65535⟩]⟩]

/-- Registers of LPH: LPH_CAL_TX, LPH_CAL_CTL, LPH_PORT, LPH_LSRC_CTL, LPH_LSRC_STATUS, LPH_LSRC_CMD, LPH_TEMP. -/
def rowsLPH1 : List RegRow :=
  [⟨0x8, 0x8000000, 16, 0x70, 1, 8, 0x0,
    [⟨62, 2, .ro, 0, 3⟩, ⟨32, 16, .ro, 0, 65535⟩, ⟨0, 8, .ro, 0, 255⟩]⟩,
   ⟨0x8, 0x8000000, 16, 0x78, 1, 8, 0x0,
    [⟨3, 1, .w1c, 0, 1⟩, ⟨2, 1, .w1c, 0, 1⟩, ⟨1, 1, .w1s, 0, 1⟩, ⟨0, 1, .w1s, 0, 1⟩]⟩,
   ⟨0x8, 0x8100000, 1, 0x20, 1, 8, 0x0,
    [⟨3, 1, .w1c, 0, 1⟩, ⟨2, 1, .ro, 0, 1⟩, ⟨1, 1, .ro, 0, 1⟩, ⟨0, 1, .rw, 0, 1⟩]⟩,
   ⟨0x8, 0x8100000, 1, 0x28, 1, 8, 0x515004,
    [⟨16, 7, .rw, 0, 127⟩, ⟨8, 7, .rw, 0, 127⟩, ⟨2, 1, .rw, 0, 1⟩, ⟨1, 1, .rw, 0, 1⟩,
     ⟨0, 1, .rw, 0, 1⟩]⟩,
   ⟨0x8, 0x8100000, 1, 0x30, 1, 8, 0x0,
    [⟨9, 1, .w1c, 0, 1⟩, ⟨8, 1, .w1c, 0, 1⟩, ⟨5, 1, .ro, 0, 1⟩, ⟨4, 1, .ro, 0, 1⟩,
     ⟨1, 1, .ro, 0, 1⟩, ⟨0, 1, .ro, 0, 1⟩]⟩,
   ⟨0x8, 0x8100000, 1, 0x38, 1, 8, 0x0,
    [⟨63, 1, .w1s, 0, 1⟩, ⟨62, 1, .w1c, 0, 1⟩, ⟨56, 2, .rw, 0, 3⟩, ⟨55, 1, .rw, 0, 1⟩,
     ⟨40, 8, .rw, 0, 255⟩, ⟨32, 8, .rw, 0, 255⟩, ⟨0, 8, .rw, 0, 255⟩]⟩,
   ⟨0x8, 0x8100000, 1, 0x40, 1, 8, 0x0,
    [⟨16, 16, .ro, 0, 65535⟩, ⟨0, 16, .ro, 0, 65535⟩]⟩]

/-- Registers of DSF: DSF_BANK, DSF_BANK_AT, DSF_CH_CFG, DSF_SYNC, DSF_EVT, DSF_RA_CNT, DSF_PM, DSF_IND_CMD, DSF_IND_DATA. -/
def rowsDSF : List RegRow :=
  [⟨0x9, 0x9000000, 16, 0x10, 1, 8, 0x0,
    [⟨9, 1, .w1c, 0, 1⟩, ⟨8, 1, .w1c, 0, 1⟩, ⟨7, 1, .rw, 0, 1⟩, ⟨6, 1, .ro, 0, 1⟩,
     ⟨5, 1, .ro, 0, 1⟩, ⟨4, 1, .w1s, 0, 1⟩, ⟨3, 1, .w1s, 0, 1⟩, ⟨0, 3, .rw, 0, 7⟩]⟩,
   ⟨0x9, 0x9000000, 16, 0x18, 1, 8, 0x0,
    [⟨48, 1, .rw, 0, 1⟩, ⟨0, 48, .rw, 0, 0xFFFFFFFFFFFF⟩]⟩,
   ⟨0x9, 0x9000000, 16, 0x20, 1, 8, 0x810,
    [⟨8, 8, .sh, 1, 255⟩, ⟨0, 8, .sh, 0, 64⟩]⟩,
   ⟨0x9, 0x9000000, 16, 0x28, 1, 8, 0x0,
    [⟨62, 2, .ro, 0, 3⟩, ⟨61, 1, .ro, 0, 1⟩, ⟨56, 5, .ro, 0, 31⟩, ⟨54, 2, .ro, 0, 3⟩,
     ⟨0, 48, .ro, 0, 0xFFFFFFFFFFFF⟩]⟩,
   ⟨0x9, 0x9000000, 16, 0x30, 1, 8, 0x0,
    [⟨5, 1, .w1c, 0, 1⟩, ⟨4, 1, .w1c, 0, 1⟩, ⟨3, 1, .w1c, 0, 1⟩, ⟨2, 1, .w1c, 0, 1⟩,
     ⟨1, 1, .w1c, 0, 1⟩, ⟨0, 1, .w1c, 0, 1⟩]⟩,
   ⟨0x9, 0x9000000, 16, 0x38, 1, 8, 0x0,
    [⟨32, 32, .rc, 0, 4294967295⟩, ⟨0, 32, .rc, 0, 4294967295⟩]⟩,
   ⟨0x9, 0x9000000, 16, 0x40, 7, 8, 0x0,
    [⟨48, 16, .ro, 0, 65535⟩, ⟨47, 1, .ro, 0, 1⟩, ⟨0, 47, .ro, 0, 0x7FFFFFFFFFFF⟩]⟩,
   ⟨0x9, 0x9100000, 1, 0x20, 1, 8, 0x0,
    [⟨63, 1, .w1s, 0, 1⟩, ⟨62, 1, .w1c, 0, 1⟩, ⟨61, 1, .rw, 0, 1⟩, ⟨56, 2, .rw, 0, 3⟩,
     ⟨0, 20, .rw, 0, 1048575⟩]⟩,
   ⟨0x9, 0x9100000, 1, 0x28, 9, 8, 0x0,
    [⟨0, 64, .rw, 0, 0xFFFFFFFFFFFFFFFF⟩]⟩]

/-- Registers of ACT: ACT_BANK, ACT_BANK_AT, ACT_CP_CTL, ACT_CP_TMR, ACT_CP_STATE, ACT_CP_EQD, ACT_CP_EVT, ACT_CP_CNT, ACT_PROT, ACT_SN, ACT_RXQ_CTL, ACT_RXQ_FC. -/
def rowsACT0 : List RegRow :=
  [⟨0xA, 0xA000000, 16, 0x10, 1, 8, 0x0,
    [⟨9, 1, .w1c, 0, 1⟩, ⟨8, 1, .w1c, 0, 1⟩, ⟨7, 1, .rw, 0, 1⟩, ⟨6, 1, .ro, 0, 1⟩,
     ⟨5, 1, .ro, 0, 1⟩, ⟨4, 1, .w1s, 0, 1⟩, ⟨3, 1, .w1s, 0, 1⟩, ⟨0, 3, .rw, 0, 7⟩]⟩,
   ⟨0xA, 0xA000000, 16, 0x18, 1, 8, 0x0,
    [⟨48, 1, .rw, 0, 1⟩, ⟨0, 48, .rw, 0, 0xFFFFFFFFFFFF⟩]⟩,
   ⟨0xA, 0xA000000, 16, 0x20, 1, 8, 0x0,
    [⟨3, 1, .rw, 0, 1⟩, ⟨2, 1, .rw, 0, 1⟩, ⟨1, 1, .w1s, 0, 1⟩, ⟨0, 1, .rw, 0, 1⟩]⟩,
   ⟨0xA, 0xA000000, 16, 0x28, 1, 8, 0x640C80A0006,
    [⟨36, 12, .sh, 1, 4095⟩, ⟨24, 12, .sh, 1, 4095⟩, ⟨16, 8, .sh, 1, 255⟩, ⟨0, 4, .sh, 0, 8⟩]⟩,
   ⟨0xA, 0xA000000, 16, 0x30, 1, 8, 0x0,
    [⟨61, 3, .ro, 0, 7⟩, ⟨60, 1, .ro, 0, 1⟩, ⟨59, 1, .ro, 0, 1⟩, ⟨58, 1, .ro, 0, 1⟩,
     ⟨57, 1, .ro, 0, 1⟩, ⟨56, 1, .ro, 0, 1⟩, ⟨55, 1, .ro, 0, 1⟩, ⟨54, 1, .ro, 0, 1⟩,
     ⟨53, 1, .ro, 0, 1⟩, ⟨32, 10, .ro, 0, 1023⟩, ⟨16, 16, .ro, 0, 65535⟩, ⟨8, 8, .ro, 0, 255⟩]⟩,
   ⟨0xA, 0xA000000, 16, 0x38, 1, 8, 0x0,
    [⟨32, 32, .ro, 0, 4294967295⟩, ⟨0, 32, .ro, 0, 4294967295⟩]⟩,
   ⟨0xA, 0xA000000, 16, 0x40, 1, 8, 0x0,
    [⟨5, 1, .w1c, 0, 1⟩, ⟨4, 1, .w1c, 0, 1⟩, ⟨3, 1, .w1c, 0, 1⟩, ⟨2, 1, .w1c, 0, 1⟩,
     ⟨1, 1, .w1c, 0, 1⟩, ⟨0, 1, .w1c, 0, 1⟩]⟩,
   ⟨0xA, 0xA000000, 16, 0x48, 1, 8, 0x0,
    [⟨32, 32, .rc, 0, 4294967295⟩, ⟨24, 8, .rc, 0, 255⟩, ⟨12, 12, .rc, 0, 4095⟩, ⟨0, 12, .rc, 0, 4095⟩]⟩,
   ⟨0xA, 0xA100000, 1, 0x20, 1, 8, 0xA00,
    [⟨8, 12, .rw, 1, 4095⟩, ⟨0, 1, .rw, 0, 1⟩]⟩,
   ⟨0xA, 0xA100000, 1, 0x28, 1, 8, 0x0,
    [⟨32, 32, .ro, 0, 4294967295⟩, ⟨0, 32, .ro, 0, 4294967295⟩]⟩,
   ⟨0xA, 0xA100000, 1, 0x30, 1, 8, 0x0,
    [⟨63, 1, .w1s, 0, 1⟩, ⟨62, 1, .w1c, 0, 1⟩, ⟨61, 1, .rw, 0, 1⟩, ⟨32, 9, .ro, 0, 511⟩,
     ⟨0, 4, .ro, 0, 15⟩]⟩,
   ⟨0xA, 0xA100000, 1, 0x38, 1, 8, 0x0,
    [⟨0, 48, .ro, 0, 0xFFFFFFFFFFFF⟩]⟩]

/-- Registers of ACT: ACT_RXQ_DATA, ACT_TXQ_CMD, ACT_TXQ_DATA. -/
def rowsACT1 : List RegRow :=
  [⟨0xA, 0xA100000, 1, 0x40, 8, 8, 0x0,
    [⟨0, 64, .ro, 0, 0xFFFFFFFFFFFFFFFF⟩]⟩,
   ⟨0xA, 0xA100000, 1, 0x80, 1, 8, 0x0,
    [⟨63, 1, .w1s, 0, 1⟩, ⟨62, 1, .w1c, 0, 1⟩, ⟨0, 4, .rw, 0, 15⟩]⟩,
   ⟨0xA, 0xA100000, 1, 0x88, 8, 8, 0x0,
    [⟨0, 64, .rw, 0, 0xFFFFFFFFFFFFFFFF⟩]⟩]

/-- Registers of UBE: UBE_BANK, UBE_BANK_AT, UBE_PROF, UBE_CH_CFG, UBE_CH_STAT, UBE_CH_CNT0, UBE_CH_CNT1, UBE_IND_CMD, UBE_IND_DATA.
A PRE_LEN within its range that is not a multiple of 64 is stored as it is written (DESIGN CHOICE, log 161: the spec gives the
multiples and not what else becomes). -/
def rowsUBE : List RegRow :=
  [⟨0xB, 0xB000000, 16, 0x10, 1, 8, 0x0,
    [⟨9, 1, .w1c, 0, 1⟩, ⟨8, 1, .w1c, 0, 1⟩, ⟨7, 1, .rw, 0, 1⟩, ⟨6, 1, .ro, 0, 1⟩,
     ⟨5, 1, .ro, 0, 1⟩, ⟨4, 1, .w1s, 0, 1⟩, ⟨3, 1, .w1s, 0, 1⟩, ⟨0, 3, .rw, 0, 7⟩]⟩,
   ⟨0xB, 0xB000000, 16, 0x18, 1, 8, 0x0,
    [⟨48, 1, .rw, 0, 1⟩, ⟨0, 48, .rw, 0, 0xFFFFFFFFFFFF⟩]⟩,
   ⟨0xB, 0xB000000, 16, 0x20, 4, 8, 0x0,
    [⟨63, 1, .sh, 0, 1⟩, ⟨34, 2, .sh, 0, 3⟩, ⟨32, 1, .sh, 0, 1⟩, ⟨16, 16, .sh, 1024, 16384⟩,
     ⟨0, 12, .sh, 64, 4000⟩]⟩,
   ⟨0xB, 0xB000000, 16, 0x40, 1, 8, 0x5001F424,
    [⟨24, 8, .rw, 1, 255⟩, ⟨16, 1, .rw, 0, 1⟩, ⟨0, 16, .rw, 1, 62500⟩]⟩,
   ⟨0xB, 0xB000000, 16, 0x48, 1, 8, 0x0,
    [⟨63, 1, .ro, 0, 1⟩, ⟨62, 1, .ro, 0, 1⟩, ⟨0, 32, .ro, 0, 4294967295⟩]⟩,
   ⟨0xB, 0xB000000, 16, 0x50, 1, 8, 0x0,
    [⟨32, 32, .rc, 0, 4294967295⟩, ⟨16, 16, .rc, 0, 65535⟩, ⟨0, 16, .rc, 0, 65535⟩]⟩,
   ⟨0xB, 0xB000000, 16, 0x58, 1, 8, 0x0,
    [⟨32, 32, .rc, 0, 4294967295⟩, ⟨16, 16, .rc, 0, 65535⟩, ⟨0, 16, .rc, 0, 65535⟩]⟩,
   ⟨0xB, 0xB100000, 1, 0x20, 1, 8, 0x0,
    [⟨63, 1, .w1s, 0, 1⟩, ⟨62, 1, .w1c, 0, 1⟩, ⟨61, 1, .rw, 0, 1⟩, ⟨56, 2, .rw, 0, 3⟩,
     ⟨0, 18, .rw, 0, 262143⟩]⟩,
   ⟨0xB, 0xB100000, 1, 0x28, 1, 8, 0x0,
    [⟨0, 64, .rw, 0, 0xFFFFFFFFFFFFFFFF⟩]⟩]

/-- Registers of CHP: CHP_COPY, CHP_LIMIT, CHP_CTL, CHP_STATUS, CHP_CNT, CHP_AMAP, CHP_SIL_ALL. -/
def rowsCHP : List RegRow :=
  [⟨0xC, 0xC000000, 16, 0x20, 1, 8, 0x0,
    [⟨63, 1, .st, 0, 1⟩, ⟨62, 1, .st, 0, 1⟩, ⟨48, 10, .st, 0, 1023⟩, ⟨0, 32, .st, 0, 4294967295⟩]⟩,
   ⟨0xC, 0xC000000, 16, 0x28, 1, 8, 0x100F424,
    [⟨16, 9, .sx, 1, 256⟩, ⟨0, 16, .sx, 1, 62500⟩]⟩,
   ⟨0xC, 0xC000000, 16, 0x30, 1, 8, 0x0,
    [⟨1, 1, .w1c, 0, 1⟩, ⟨0, 1, .w1s, 0, 1⟩]⟩,
   ⟨0xC, 0xC000000, 16, 0x38, 1, 8, 0x0,
    [⟨63, 1, .ro, 0, 1⟩, ⟨60, 3, .ro, 0, 7⟩, ⟨59, 1, .ro, 0, 1⟩, ⟨58, 1, .ro, 0, 1⟩,
     ⟨57, 1, .ro, 0, 1⟩, ⟨56, 1, .ro, 0, 1⟩, ⟨55, 1, .ro, 0, 1⟩, ⟨54, 1, .ro, 0, 1⟩]⟩,
   ⟨0xC, 0xC000000, 16, 0x40, 1, 8, 0x0,
    [⟨32, 32, .rc, 0, 4294967295⟩, ⟨16, 16, .rc, 0, 65535⟩, ⟨8, 8, .rc, 0, 255⟩, ⟨0, 8, .rc, 0, 255⟩]⟩,
   ⟨0xC, 0xC000000, 16, 0x800, 256, 8, 0x0,
    [⟨0, 64, .st, 0, 0xFFFFFFFFFFFFFFFF⟩]⟩,
   ⟨0xC, 0xC100000, 1, 0x20, 1, 8, 0x0,
    [⟨0, 16, .ro, 0, 65535⟩]⟩]

/-- Registers of PRS: PRS_CNT0, PRS_CNT1, PRS_ISP_CNT, PRS_MALF, PRS_TUN, PRS_SRC_CFG. -/
def rowsPRS : List RegRow :=
  [⟨0x10, 0x10000000, 16, 0x20, 1, 8, 0x0,
    [⟨32, 32, .rc, 0, 4294967295⟩, ⟨0, 32, .rc, 0, 4294967295⟩]⟩,
   ⟨0x10, 0x10000000, 16, 0x28, 1, 8, 0x0,
    [⟨32, 32, .rc, 0, 4294967295⟩, ⟨0, 32, .rc, 0, 4294967295⟩]⟩,
   ⟨0x10, 0x10000000, 16, 0x30, 1, 8, 0x0,
    [⟨32, 32, .rc, 0, 4294967295⟩, ⟨0, 32, .rc, 0, 4294967295⟩]⟩,
   ⟨0x10, 0x10000000, 16, 0x40, 11, 8, 0x0,
    [⟨0, 32, .rc, 0, 4294967295⟩]⟩,
   ⟨0x10, 0x10100000, 1, 0x20, 1, 8, 0x12B517C10868,
    [⟨32, 16, .sx, 0, 65535⟩, ⟨16, 16, .sx, 0, 65535⟩, ⟨0, 16, .sx, 0, 65535⟩]⟩,
   ⟨0x10, 0x10100000, 1, 0x1000, 80, 8, 0x1001000,
    [⟨16, 9, .rw, 64, 256⟩, ⟨8, 5, .rw, 4, 16⟩, ⟨4, 2, .rw, 0, 3⟩, ⟨0, 1, .rw, 0, 1⟩]⟩]

/-- Registers of CLS: CLS_BANK, CLS_BANK_AT, CLS_IND_CMD, CLS_IND_DATA, CLS_VER, CLS_VER_COMMIT, CLS_DRAIN, CLS_HASH, CLS_SP_MAP, CLS_SPQ_BASE, CLS_SPQ, CLS_RI_ADDR. -/
def rowsCLS0 : List RegRow :=
  [⟨0x11, 0x11000000, 1, 0x10, 1, 8, 0x0,
    [⟨9, 1, .w1c, 0, 1⟩, ⟨8, 1, .w1c, 0, 1⟩, ⟨7, 1, .rw, 0, 1⟩, ⟨6, 1, .ro, 0, 1⟩,
     ⟨5, 1, .ro, 0, 1⟩, ⟨4, 1, .w1s, 0, 1⟩, ⟨3, 1, .w1s, 0, 1⟩, ⟨0, 3, .rw, 0, 7⟩]⟩,
   ⟨0x11, 0x11000000, 1, 0x18, 1, 8, 0x0,
    [⟨48, 1, .rw, 0, 1⟩, ⟨0, 48, .rw, 0, 0xFFFFFFFFFFFF⟩]⟩,
   ⟨0x11, 0x11000000, 1, 0x20, 1, 8, 0x0,
    [⟨63, 1, .w1s, 0, 1⟩, ⟨62, 1, .w1c, 0, 1⟩, ⟨61, 1, .rw, 0, 1⟩, ⟨56, 2, .rw, 0, 3⟩,
     ⟨0, 15, .rw, 0, 32767⟩]⟩,
   ⟨0x11, 0x11000000, 1, 0x28, 22, 8, 0x0,
    [⟨0, 64, .rw, 0, 0xFFFFFFFFFFFFFFFF⟩]⟩,
   ⟨0x11, 0x11000000, 1, 0x100, 1, 8, 0x0,
    [⟨33, 1, .ro, 0, 1⟩, ⟨32, 1, .ro, 0, 1⟩, ⟨16, 16, .ro, 0, 65535⟩, ⟨0, 16, .ro, 0, 65535⟩]⟩,
   ⟨0x11, 0x11000000, 1, 0x108, 1, 8, 0x0,
    [⟨0, 1, .wo, 0, 1⟩]⟩,
   ⟨0x11, 0x11000000, 1, 0x110, 4, 8, 0x0,
    [⟨0, 32, .ro, 0, 4294967295⟩]⟩,
   ⟨0x11, 0x11000000, 1, 0x130, 1, 8, 0x0,
    [⟨0, 32, .sx, 0, 4294967295⟩]⟩,
   ⟨0x11, 0x11000000, 1, 0x138, 1, 8, 0x0,
    [⟨12, 3, .rw, 0, 7⟩, ⟨9, 3, .rw, 0, 7⟩, ⟨6, 3, .rw, 0, 7⟩, ⟨3, 3, .rw, 0, 7⟩,
     ⟨0, 3, .rw, 0, 7⟩]⟩,
   ⟨0x11, 0x11000000, 1, 0x140, 1, 8, 0x0,
    [⟨0, 48, .sx, 0, 0xFFFFFFFFFFFF⟩]⟩,
   ⟨0x11, 0x11000000, 1, 0x148, 8, 8, 0x0,
    [⟨63, 1, .rw, 0, 1⟩, ⟨32, 16, .rw, 0, 65535⟩, ⟨16, 13, .ro, 0, 8191⟩, ⟨0, 13, .rw, 0, 8191⟩]⟩,
   ⟨0x11, 0x11000000, 1, 0x188, 1, 8, 0x0,
    [⟨0, 48, .rw, 0, 0xFFFFFFFFFFFF⟩]⟩]

/-- Registers of CLS: CLS_RI_CMD, CLS_CNT0, CLS_CNT1, CLS_SP_CNT, CLS_MIR. -/
def rowsCLS1 : List RegRow :=
  [⟨0x11, 0x11000000, 1, 0x190, 1, 8, 0x0,
    [⟨63, 1, .w1s, 0, 1⟩, ⟨62, 1, .w1c, 0, 1⟩, ⟨61, 1, .rw, 0, 1⟩, ⟨60, 1, .rw, 0, 1⟩,
     ⟨59, 1, .w1c, 0, 1⟩, ⟨50, 6, .rw, 0, 63⟩, ⟨34, 16, .rw, 0, 65535⟩, ⟨20, 14, .rw, 0, 16383⟩,
     ⟨0, 17, .rw, 0, 131071⟩]⟩,
   ⟨0x11, 0x11000000, 1, 0x198, 1, 8, 0x0,
    [⟨32, 32, .rc, 0, 4294967295⟩, ⟨16, 16, .rc, 0, 65535⟩, ⟨0, 16, .rc, 0, 65535⟩]⟩,
   ⟨0x11, 0x11000000, 1, 0x1A0, 1, 8, 0x0,
    [⟨48, 16, .rc, 0, 65535⟩, ⟨32, 16, .rc, 0, 65535⟩, ⟨24, 8, .rc, 0, 255⟩, ⟨8, 16, .rc, 0, 65535⟩,
     ⟨0, 8, .rc, 0, 255⟩]⟩,
   ⟨0x11, 0x11000000, 1, 0x1A8, 1, 8, 0x0,
    [⟨32, 32, .rc, 0, 4294967295⟩, ⟨0, 32, .rc, 0, 4294967295⟩]⟩,
   ⟨0x11, 0x11000000, 1, 0x200, 16, 8, 0x0,
    [⟨63, 1, .sh, 0, 1⟩, ⟨62, 1, .sh, 0, 1⟩, ⟨32, 17, .sh, 0, 131071⟩, ⟨16, 16, .sh, 0, 65535⟩,
     ⟨0, 14, .sh, 0, 16000⟩]⟩]

/-- Registers of FLW: FLW_CFG, FLW_AGE, FLW_CBASE, FLW_IND_CMD, FLW_IND_DATA, FLW_STATUS, FLW_CNT0, FLW_CNT1, FLW_CRD_CMD, FLW_CRD_BYTES, FLW_CRD_PKTS, FLW_AGEQ. -/
def rowsFLW : List RegRow :=
  [⟨0x12, 0x12000000, 1, 0x20, 1, 8, 0x40802,
    [⟨16, 8, .rw, 1, 255⟩, ⟨8, 4, .rw, 1, 15⟩, ⟨2, 1, .rw, 0, 1⟩, ⟨1, 1, .rw, 0, 1⟩,
     ⟨0, 1, .rw, 0, 1⟩]⟩,
   ⟨0x12, 0x12000000, 1, 0x28, 1, 8, 0x64012C0014,
    [⟨32, 16, .rw, 1, 65535⟩, ⟨16, 16, .rw, 1, 32767⟩, ⟨0, 16, .rw, 1, 32767⟩]⟩,
   ⟨0x12, 0x12000000, 1, 0x30, 1, 8, 0x0,
    [⟨0, 48, .sx, 0, 0xFFFFFFFFFFFF⟩]⟩,
   ⟨0x12, 0x12000000, 1, 0x38, 1, 8, 0x0,
    [⟨63, 1, .w1s, 0, 1⟩, ⟨62, 1, .w1c, 0, 1⟩, ⟨58, 4, .ro, 0, 15⟩, ⟨56, 2, .rw, 0, 3⟩,
     ⟨0, 21, .ro, 0, 2097151⟩]⟩,
   ⟨0x12, 0x12000000, 1, 0x40, 8, 8, 0x0,
    [⟨0, 64, .rw, 0, 0xFFFFFFFFFFFFFFFF⟩]⟩,
   ⟨0x12, 0x12000000, 1, 0x80, 1, 8, 0x0,
    [⟨32, 21, .ro, 0, 2097151⟩, ⟨16, 5, .ro, 0, 31⟩, ⟨0, 9, .ro, 0, 511⟩]⟩,
   ⟨0x12, 0x12000000, 1, 0x88, 1, 8, 0x0,
    [⟨32, 32, .rc, 0, 4294967295⟩, ⟨16, 16, .rc, 0, 65535⟩, ⟨0, 16, .rc, 0, 65535⟩]⟩,
   ⟨0x12, 0x12000000, 1, 0x90, 1, 8, 0x0,
    [⟨32, 32, .rc, 0, 4294967295⟩, ⟨16, 16, .rc, 0, 65535⟩, ⟨0, 16, .rc, 0, 65535⟩]⟩,
   ⟨0x12, 0x12000000, 1, 0x98, 1, 8, 0x0,
    [⟨63, 1, .w1s, 0, 1⟩, ⟨62, 1, .rw, 0, 1⟩, ⟨0, 22, .rw, 0, 2162687⟩]⟩,
   ⟨0x12, 0x12000000, 1, 0xA0, 1, 8, 0x0,
    [⟨0, 64, .ro, 0, 0xFFFFFFFFFFFFFFFF⟩]⟩,
   ⟨0x12, 0x12000000, 1, 0xA8, 1, 8, 0x0,
    [⟨0, 64, .ro, 0, 0xFFFFFFFFFFFFFFFF⟩]⟩,
   ⟨0x12, 0x12000000, 1, 0xB0, 1, 8, 0x0,
    [⟨32, 15, .ro, 0, 32767⟩, ⟨0, 15, .rw, 0, 32767⟩]⟩]

/-- Registers of SPC: SPC_CTL, SPC_CNT, SPC_CWC, SPC_OCC. -/
def rowsSPC : List RegRow :=
  [⟨0x13, 0x13000000, 1, 0x20, 1, 8, 0xA0000,
    [⟨16, 4, .rw, 1, 15⟩, ⟨0, 16, .rw, 0, 65535⟩]⟩,
   ⟨0x13, 0x13000000, 1, 0x100, 16, 8, 0x0,
    [⟨32, 32, .rc, 0, 4294967295⟩, ⟨0, 32, .rc, 0, 4294967295⟩]⟩,
   ⟨0x13, 0x13000000, 1, 0x200, 16, 8, 0x0,
    [⟨32, 32, .rc, 0, 4294967295⟩, ⟨16, 16, .rc, 0, 65535⟩, ⟨0, 16, .rc, 0, 65535⟩]⟩,
   ⟨0x13, 0x13000000, 1, 0x300, 8, 8, 0x0,
    [⟨0, 13, .ro, 0, 8191⟩]⟩]

/-- Registers of CEL: CEL_POOL_RA, CEL_POOL_DS, CEL_POOL_US, CEL_FLOOR, CEL_STATUS, CEL_FREE_DS, CEL_FREE_US, CEL_IND_CMD, CEL_IND_DATA, CEL_TRAIN_WIN, CEL_TRAIN_CTL, CEL_TRAIN. -/
def rowsCEL0 : List RegRow :=
  [⟨0x14, 0x14000000, 1, 0x20, 1, 8, 0x4000,
    [⟨0, 20, .sx, 0, 1048575⟩]⟩,
   ⟨0x14, 0x14000000, 1, 0x28, 1, 8, 0x10000400000E000,
    [⟨40, 20, .sx, 0, 1048575⟩, ⟨20, 20, .sx, 0, 1048575⟩, ⟨0, 20, .sx, 0, 1048575⟩]⟩,
   ⟨0x14, 0x14000000, 1, 0x30, 1, 8, 0x10000400000E000,
    [⟨40, 20, .sx, 0, 1048575⟩, ⟨20, 20, .sx, 0, 1048575⟩, ⟨0, 20, .sx, 0, 1048575⟩]⟩,
   ⟨0x14, 0x14000000, 1, 0x38, 1, 8, 0x2,
    [⟨24, 8, .sx, 0, 32⟩, ⟨16, 8, .sx, 0, 32⟩, ⟨8, 8, .sx, 0, 32⟩, ⟨0, 8, .sx, 0, 32⟩]⟩,
   ⟨0x14, 0x14000000, 1, 0x40, 1, 8, 0x0,
    [⟨60, 4, .ro, 0, 15⟩, ⟨0, 25, .ro, 0, 33554431⟩]⟩,
   ⟨0x14, 0x14000000, 1, 0x48, 1, 8, 0x0,
    [⟨40, 20, .ro, 0, 1048575⟩, ⟨20, 20, .ro, 0, 1048575⟩, ⟨0, 20, .ro, 0, 1048575⟩]⟩,
   ⟨0x14, 0x14000000, 1, 0x50, 1, 8, 0x0,
    [⟨40, 20, .ro, 0, 1048575⟩, ⟨20, 20, .ro, 0, 1048575⟩, ⟨0, 20, .ro, 0, 1048575⟩]⟩,
   ⟨0x14, 0x14000000, 1, 0x58, 1, 8, 0x0,
    [⟨63, 1, .w1s, 0, 1⟩, ⟨62, 1, .w1c, 0, 1⟩, ⟨61, 1, .rw, 0, 1⟩, ⟨56, 2, .rw, 0, 3⟩,
     ⟨0, 18, .rw, 0, 262143⟩]⟩,
   ⟨0x14, 0x14000000, 1, 0x60, 2, 8, 0x0,
    [⟨0, 64, .rw, 0, 0xFFFFFFFFFFFFFFFF⟩]⟩,
   ⟨0x14, 0x14000000, 1, 0x70, 1, 8, 0x28400008,
    [⟨24, 8, .rw, 0, 255⟩, ⟨16, 8, .rw, 0, 255⟩, ⟨0, 16, .rw, 0, 65535⟩]⟩,
   ⟨0x14, 0x14000000, 1, 0x78, 1, 8, 0x0,
    [⟨4, 4, .w1c, 0, 15⟩, ⟨0, 4, .w1s, 0, 15⟩]⟩,
   ⟨0x14, 0x14000000, 1, 0x80, 4, 8, 0x0,
    [⟨62, 2, .ro, 0, 3⟩, ⟨32, 16, .ro, 0, 65535⟩, ⟨16, 16, .ro, 0, 65535⟩, ⟨0, 8, .ro, 0, 255⟩]⟩]

/-- Registers of CEL: CEL_SCRUB, CEL_REPAIR, CEL_CNT_DS, CEL_CNT_US, CEL_CNT2, CEL_EVT. -/
def rowsCEL1 : List RegRow :=
  [⟨0x14, 0x14000000, 1, 0xA0, 1, 8, 0x8000001800000000,
    [⟨63, 1, .rw, 0, 1⟩, ⟨32, 16, .rw, 1, 1000⟩, ⟨0, 18, .ro, 0, 262143⟩]⟩,
   ⟨0x14, 0x14000000, 1, 0xA8, 1, 8, 0x0,
    [⟨60, 4, .ro, 0, 15⟩, ⟨58, 2, .ro, 0, 3⟩, ⟨0, 48, .ro, 0, 0xFFFFFFFFFFFF⟩]⟩,
   ⟨0x14, 0x14000000, 1, 0xB0, 1, 8, 0x0,
    [⟨32, 32, .rc, 0, 4294967295⟩, ⟨16, 16, .rc, 0, 65535⟩, ⟨0, 16, .rc, 0, 65535⟩]⟩,
   ⟨0x14, 0x14000000, 1, 0xB8, 1, 8, 0x0,
    [⟨32, 32, .rc, 0, 4294967295⟩, ⟨16, 16, .rc, 0, 65535⟩, ⟨0, 16, .rc, 0, 65535⟩]⟩,
   ⟨0x14, 0x14000000, 1, 0xC0, 1, 8, 0x0,
    [⟨32, 32, .rc, 0, 4294967295⟩, ⟨0, 32, .rc, 0, 4294967295⟩]⟩,
   ⟨0x14, 0x14000000, 1, 0xC8, 1, 8, 0x0,
    [⟨3, 1, .w1c, 0, 1⟩, ⟨2, 1, .w1c, 0, 1⟩, ⟨1, 1, .w1c, 0, 1⟩, ⟨0, 1, .w1c, 0, 1⟩]⟩]

/-- Registers of SCH: SCH_BANK, SCH_BANK_AT, SCH_REFILL, SCH_ADJ, SCH_IND_CMD, SCH_IND_DATA, SCH_FLUSH, SCH_HIST_BASE, SCH_HIST_CTL, SCH_CNT. -/
def rowsSCH : List RegRow :=
  [⟨0x15, 0x15000000, 1, 0x10, 1, 8, 0x0,
    [⟨9, 1, .w1c, 0, 1⟩, ⟨8, 1, .w1c, 0, 1⟩, ⟨7, 1, .rw, 0, 1⟩, ⟨6, 1, .ro, 0, 1⟩,
     ⟨5, 1, .ro, 0, 1⟩, ⟨4, 1, .w1s, 0, 1⟩, ⟨3, 1, .w1s, 0, 1⟩, ⟨0, 3, .rw, 0, 7⟩]⟩,
   ⟨0x15, 0x15000000, 1, 0x18, 1, 8, 0x0,
    [⟨48, 1, .rw, 0, 1⟩, ⟨0, 48, .rw, 0, 0xFFFFFFFFFFFF⟩]⟩,
   ⟨0x15, 0x15000000, 1, 0x20, 1, 8, 0x246246,
    [⟨20, 4, .sh, 0, 8⟩, ⟨16, 4, .sh, 0, 8⟩, ⟨12, 4, .sh, 0, 8⟩, ⟨8, 4, .sh, 0, 8⟩,
     ⟨4, 4, .sh, 0, 8⟩, ⟨0, 4, .sh, 0, 8⟩]⟩,
   ⟨0x15, 0x15000000, 1, 0x28, 1, 8, 0x14,
    [⟨0, 8, .sh, -64, 63⟩]⟩,
   ⟨0x15, 0x15000000, 1, 0x30, 1, 8, 0x0,
    [⟨63, 1, .w1s, 0, 1⟩, ⟨62, 1, .w1c, 0, 1⟩, ⟨61, 1, .rw, 0, 1⟩, ⟨60, 1, .rw, 0, 1⟩,
     ⟨56, 3, .rw, 0, 7⟩, ⟨0, 17, .rw, 0, 131071⟩]⟩,
   ⟨0x15, 0x15000000, 1, 0x38, 4, 8, 0x0,
    [⟨0, 64, .rw, 0, 0xFFFFFFFFFFFFFFFF⟩]⟩,
   ⟨0x15, 0x15000000, 1, 0x58, 1, 8, 0x0,
    [⟨63, 1, .w1s, 0, 1⟩, ⟨60, 1, .rw, 0, 1⟩, ⟨24, 32, .ro, 0, 4294967295⟩, ⟨0, 17, .rw, 0, 131071⟩]⟩,
   ⟨0x15, 0x15000000, 1, 0x60, 1, 8, 0x0,
    [⟨0, 48, .sx, 0, 0xFFFFFFFFFFFF⟩]⟩,
   ⟨0x15, 0x15000000, 1, 0x68, 1, 8, 0x0,
    [⟨63, 1, .rw, 0, 1⟩, ⟨62, 1, .w1s, 0, 1⟩, ⟨0, 32, .ro, 0, 4294967295⟩]⟩,
   ⟨0x15, 0x15000000, 1, 0x70, 1, 8, 0x0,
    [⟨32, 32, .rc, 0, 4294967295⟩, ⟨0, 32, .rc, 0, 4294967295⟩]⟩]

/-- Registers of GCL: GCL_BANK, GCL_BANK_AT, GCL_ADMIN, GCL_ADMIN_BTS, GCL_ADMIN_BTN, GCL_ADMIN_CYC, GCL_PREEMPT, GCL_OPER, GCL_CCTS, GCL_CCTN, GCL_EVT, GCL_CNT. -/
def rowsGCL0 : List RegRow :=
  [⟨0x16, 0x16000000, 64, 0x10, 1, 8, 0x0,
    [⟨9, 1, .w1c, 0, 1⟩, ⟨8, 1, .w1c, 0, 1⟩, ⟨7, 1, .rw, 0, 1⟩, ⟨6, 1, .ro, 0, 1⟩,
     ⟨5, 1, .ro, 0, 1⟩, ⟨4, 1, .w1s, 0, 1⟩, ⟨3, 1, .w1s, 0, 1⟩, ⟨0, 3, .rw, 0, 7⟩]⟩,
   ⟨0x16, 0x16000000, 64, 0x18, 1, 8, 0x0,
    [⟨48, 1, .rw, 0, 1⟩, ⟨0, 48, .rw, 0, 0xFFFFFFFFFFFF⟩]⟩,
   ⟨0x16, 0x16000000, 64, 0x20, 1, 8, 0x10000000000FF,
    [⟨63, 1, .sh, 0, 1⟩, ⟨48, 11, .sh, 1, 1024⟩, ⟨0, 8, .sh, 0, 255⟩]⟩,
   ⟨0x16, 0x16000000, 64, 0x28, 1, 8, 0x0,
    [⟨16, 48, .sh, 0, 0xFFFFFFFFFFFF⟩]⟩,
   ⟨0x16, 0x16000000, 64, 0x30, 1, 8, 0x0,
    [⟨0, 30, .sh, 0, 999999999⟩]⟩,
   ⟨0x16, 0x16000000, 64, 0x38, 1, 8, 0xF4240,
    [⟨32, 32, .sh, 0, 4294967295⟩, ⟨0, 32, .sh, 256, 4294967295⟩]⟩,
   ⟨0x16, 0x16000000, 64, 0x40, 1, 8, 0x14,
    [⟨63, 1, .sh, 0, 1⟩, ⟨32, 16, .sh, 0, 65535⟩, ⟨16, 16, .sh, 0, 65535⟩, ⟨8, 8, .sh, 0, 255⟩,
     ⟨0, 8, .sh, 20, 255⟩]⟩,
   ⟨0x16, 0x16000000, 64, 0x48, 1, 8, 0xFF,
    [⟨63, 1, .ro, 0, 1⟩, ⟨62, 1, .ro, 0, 1⟩, ⟨48, 11, .ro, 0, 2047⟩, ⟨32, 10, .ro, 0, 1023⟩,
     ⟨0, 8, .ro, 0, 255⟩]⟩,
   ⟨0x16, 0x16000000, 64, 0x50, 1, 8, 0x0,
    [⟨16, 48, .ro, 0, 0xFFFFFFFFFFFF⟩]⟩,
   ⟨0x16, 0x16000000, 64, 0x58, 1, 8, 0x0,
    [⟨0, 30, .ro, 0, 1073741823⟩]⟩,
   ⟨0x16, 0x16000000, 64, 0x60, 1, 8, 0x0,
    [⟨2, 1, .w1c, 0, 1⟩, ⟨1, 1, .w1c, 0, 1⟩, ⟨0, 1, .w1c, 0, 1⟩]⟩,
   ⟨0x16, 0x16000000, 64, 0x68, 1, 8, 0x0,
    [⟨32, 32, .rc, 0, 4294967295⟩, ⟨0, 32, .rc, 0, 4294967295⟩]⟩]

/-- Registers of GCL: GCL_LIST. -/
def rowsGCL1 : List RegRow :=
  [⟨0x16, 0x16000000, 64, 0x2000, 1024, 8, 0xFF0000000F4240,
    [⟨62, 2, .sh, 0, 3⟩, ⟨48, 8, .sh, 0, 255⟩, ⟨0, 32, .sh, 8, 4294967295⟩]⟩]

/-- Registers of CIP: CIP_FWQ_BASE, CIP_FWQ, CIP_CNT0, CIP_CNT1, CIP_CNT2, CIP_IND_CMD, CIP_IND_DATA, CIP_PNTHR, CIP_PNEXH. -/
def rowsCIP : List RegRow :=
  [⟨0x18, 0x18000000, 1, 0x20, 1, 8, 0x0,
    [⟨0, 48, .sx, 0, 0xFFFFFFFFFFFF⟩]⟩,
   ⟨0x18, 0x18000000, 1, 0x28, 1, 8, 0x0,
    [⟨63, 1, .rw, 0, 1⟩, ⟨32, 11, .ro, 0, 2047⟩, ⟨0, 11, .rw, 0, 2047⟩]⟩,
   ⟨0x18, 0x18000000, 1, 0x30, 1, 8, 0x0,
    [⟨32, 32, .rc, 0, 4294967295⟩, ⟨0, 32, .rc, 0, 4294967295⟩]⟩,
   ⟨0x18, 0x18000000, 1, 0x38, 1, 8, 0x0,
    [⟨32, 32, .rc, 0, 4294967295⟩, ⟨16, 16, .rc, 0, 65535⟩, ⟨0, 16, .rc, 0, 65535⟩]⟩,
   ⟨0x18, 0x18000000, 1, 0x40, 1, 8, 0x0,
    [⟨32, 32, .rc, 0, 4294967295⟩, ⟨16, 16, .rc, 0, 65535⟩, ⟨0, 16, .rc, 0, 65535⟩]⟩,
   ⟨0x18, 0x18000000, 1, 0x48, 1, 8, 0x0,
    [⟨63, 1, .w1s, 0, 1⟩, ⟨62, 1, .w1c, 0, 1⟩, ⟨61, 1, .rw, 0, 1⟩, ⟨56, 2, .rw, 0, 3⟩,
     ⟨0, 10, .rw, 0, 1023⟩]⟩,
   ⟨0x18, 0x18000000, 1, 0x50, 5, 8, 0x0,
    [⟨0, 64, .rw, 0, 0xFFFFFFFFFFFFFFFF⟩]⟩,
   ⟨0x18, 0x18000000, 1, 0x80, 4, 8, 0x0,
    [⟨0, 64, .w1c, 0, 0xFFFFFFFFFFFFFFFF⟩]⟩,
   ⟨0x18, 0x18000000, 1, 0xA0, 4, 8, 0x0,
    [⟨0, 64, .w1c, 0, 0xFFFFFFFFFFFFFFFF⟩]⟩]

/-- Registers of KLN: KLN_CMD, KLN_DATA, KLN_SLOTINFO, KLN_BIND_CMD, KLN_BIND_DATA, KLN_EVT, KLN_RK, KLN_CNT, KLN_CP_STAT. -/
def rowsKLN : List RegRow :=
  [⟨0x19, 0x19000000, 1, 0x20, 1, 8, 0x0,
    [⟨63, 1, .w1s, 0, 1⟩, ⟨62, 1, .w1c, 0, 1⟩, ⟨58, 4, .ro, 0, 15⟩, ⟨54, 4, .rw, 0, 15⟩,
     ⟨42, 6, .rw, 0, 63⟩, ⟨16, 2, .rw, 0, 3⟩, ⟨0, 13, .rw, 0, 8191⟩]⟩,
   ⟨0x19, 0x19000000, 1, 0x28, 5, 8, 0x0,
    [⟨0, 64, .wo, 0, 0xFFFFFFFFFFFFFFFF⟩]⟩,
   ⟨0x19, 0x19000000, 1, 0x50, 1, 8, 0x0,
    [⟨62, 2, .ro, 0, 3⟩, ⟨60, 2, .ro, 0, 3⟩, ⟨59, 1, .ro, 0, 1⟩, ⟨58, 1, .ro, 0, 1⟩,
     ⟨0, 48, .ro, 0, 0xFFFFFFFFFFFF⟩]⟩,
   ⟨0x19, 0x19000000, 1, 0x58, 1, 8, 0x0,
    [⟨63, 1, .w1s, 0, 1⟩, ⟨62, 1, .w1c, 0, 1⟩, ⟨61, 1, .rw, 0, 1⟩, ⟨0, 12, .rw, 0, 4095⟩]⟩,
   ⟨0x19, 0x19000000, 1, 0x60, 1, 8, 0x0,
    [⟨63, 1, .rw, 0, 1⟩, ⟨60, 2, .rw, 0, 3⟩, ⟨56, 4, .rw, 0, 15⟩, ⟨48, 8, .rw, 0, 255⟩,
     ⟨0, 13, .rw, 0, 8191⟩]⟩,
   ⟨0x19, 0x19000000, 1, 0x68, 1, 8, 0x0,
    [⟨16, 16, .w1c, 0, 65535⟩, ⟨0, 16, .w1c, 0, 65535⟩]⟩,
   ⟨0x19, 0x19000000, 1, 0x70, 1, 8, 0x0,
    [⟨2, 1, .w1c, 0, 1⟩, ⟨1, 1, .ro, 0, 1⟩, ⟨0, 1, .w1s, 0, 1⟩]⟩,
   ⟨0x19, 0x19000000, 1, 0x78, 1, 8, 0x0,
    [⟨32, 32, .rc, 0, 4294967295⟩, ⟨16, 16, .rc, 0, 65535⟩, ⟨0, 16, .rc, 0, 65535⟩]⟩,
   ⟨0x19, 0x19000000, 1, 0x100, 16, 8, 0x0,
    [⟨62, 2, .ro, 0, 3⟩, ⟨60, 2, .ro, 0, 3⟩, ⟨59, 1, .ro, 0, 1⟩, ⟨56, 3, .ro, 0, 7⟩,
     ⟨50, 6, .ro, 0, 63⟩, ⟨0, 48, .ro, 0, 0xFFFFFFFFFFFF⟩]⟩]

/-- Registers of MAC: MAC_PORT_CFG, MAC_PORT_STAT, MAC_PCP_MAP, MAC_PFC_CFG, MAC_PFC_STAT, MAC_MM_CFG, MAC_SEC_CFG, MAC_SEC_SCI, MAC_SEC_RXSC, MAC_FLT, MAC_CNT, MAC_PHY_CTL. -/
def rowsMAC0 : List RegRow :=
  [⟨0x1C, 0x1C000000, 64, 0x20, 1, 8, 0x2400,
    [⟨63, 1, .rw, 0, 1⟩, ⟨62, 1, .rw, 0, 1⟩, ⟨59, 3, .rw, 0, 7⟩, ⟨0, 14, .rw, 64, 16000⟩]⟩,
   ⟨0x1C, 0x1C000000, 64, 0x28, 1, 8, 0x0,
    [⟨63, 1, .ro, 0, 1⟩, ⟨62, 1, .ro, 0, 1⟩, ⟨61, 1, .ro, 0, 1⟩, ⟨60, 1, .w1c, 0, 1⟩]⟩,
   ⟨0x1C, 0x1C000000, 64, 0x30, 1, 8, 0xFAC688,
    [⟨0, 24, .rw, 0, 16777215⟩]⟩,
   ⟨0x1C, 0x1C000000, 64, 0x38, 1, 8, 0xFFFF10000800,
    [⟨56, 8, .rw, 0, 255⟩, ⟨48, 8, .rw, 0, 255⟩, ⟨32, 16, .rw, 2, 65535⟩, ⟨16, 16, .rw, 0, 65535⟩,
     ⟨0, 16, .rw, 0, 65535⟩]⟩,
   ⟨0x1C, 0x1C000000, 64, 0x40, 1, 8, 0x0,
    [⟨56, 8, .ro, 0, 255⟩, ⟨48, 8, .ro, 0, 255⟩]⟩,
   ⟨0x1C, 0x1C000000, 64, 0x48, 1, 8, 0xA0000000000,
    [⟨63, 1, .rw, 0, 1⟩, ⟨62, 1, .rw, 0, 1⟩, ⟨60, 2, .rw, 0, 3⟩, ⟨40, 8, .rw, 1, 128⟩,
     ⟨0, 3, .ro, 0, 7⟩]⟩,
   ⟨0x1C, 0x1C000000, 64, 0x50, 1, 8, 0x200000000000000,
    [⟨63, 1, .rw, 0, 1⟩, ⟨62, 1, .rw, 0, 1⟩, ⟨60, 2, .rw, 0, 3⟩, ⟨58, 2, .rw, 0, 2⟩,
     ⟨57, 1, .rw, 0, 1⟩]⟩,
   ⟨0x1C, 0x1C000000, 64, 0x58, 1, 8, 0x0,
    [⟨0, 64, .rw, 0, 0xFFFFFFFFFFFFFFFF⟩]⟩,
   ⟨0x1C, 0x1C000000, 64, 0x60, 4, 8, 0x0,
    [⟨0, 64, .rw, 0, 0xFFFFFFFFFFFFFFFF⟩]⟩,
   ⟨0x1C, 0x1C000000, 64, 0x100, 16, 8, 0x0,
    [⟨63, 1, .rw, 0, 1⟩, ⟨62, 1, .rw, 0, 1⟩, ⟨59, 3, .rw, 0, 7⟩, ⟨58, 1, .rw, 0, 1⟩,
     ⟨57, 1, .rw, 0, 1⟩, ⟨32, 16, .rw, 0, 65535⟩, ⟨16, 12, .rw, 0, 4095⟩, ⟨0, 12, .rw, 0, 4095⟩]⟩,
   ⟨0x1C, 0x1C000000, 64, 0x200, 22, 8, 0x0,
    [⟨0, 64, .rc, 0, 0xFFFFFFFFFFFFFFFF⟩]⟩,
   ⟨0x1C, 0x1C400000, 16, 0x20, 1, 8, 0x0,
    [⟨63, 1, .rw, 0, 1⟩, ⟨61, 2, .rw, 0, 3⟩, ⟨59, 2, .rw, 0, 3⟩]⟩]

/-- Registers of MAC: MAC_PHY_STAT, MAC_FEC_CNT, MAC_LSRC_CTL, MAC_LSRC_STATUS, MAC_PFC_POOL. -/
def rowsMAC1 : List RegRow :=
  [⟨0x1C, 0x1C400000, 16, 0x28, 1, 8, 0x0,
    [⟨60, 4, .ro, 0, 15⟩, ⟨59, 1, .ro, 0, 1⟩, ⟨58, 1, .ro, 0, 1⟩, ⟨57, 1, .ro, 0, 1⟩,
     ⟨56, 1, .w1c, 0, 1⟩]⟩,
   ⟨0x1C, 0x1C400000, 16, 0x30, 1, 8, 0x0,
    [⟨32, 32, .rc, 0, 4294967295⟩, ⟨0, 32, .rc, 0, 4294967295⟩]⟩,
   ⟨0x1C, 0x1C500000, 1, 0x20, 1, 8, 0x535200,
    [⟨16, 7, .rw, 0, 127⟩, ⟨8, 7, .rw, 0, 127⟩, ⟨0, 1, .rw, 0, 1⟩]⟩,
   ⟨0x1C, 0x1C500000, 1, 0x28, 1, 8, 0x0,
    [⟨9, 1, .w1c, 0, 1⟩, ⟨8, 1, .w1c, 0, 1⟩, ⟨5, 1, .ro, 0, 1⟩, ⟨4, 1, .ro, 0, 1⟩,
     ⟨1, 1, .ro, 0, 1⟩, ⟨0, 1, .ro, 0, 1⟩]⟩,
   ⟨0x1C, 0x1C500000, 1, 0x30, 1, 8, 0x800004000,
    [⟨20, 20, .rw, 0, 1048575⟩, ⟨0, 20, .rw, 0, 1048575⟩]⟩]

/-- Registers of TIM: TIM_PORT_CFG, TIM_TSQ_CTL, TIM_TSQ_DATA, TIM_TSQ_LOSS, TIM_TOD_S, TIM_TOD_NS, TIM_SET_S, TIM_SET_NS, TIM_STEP_OFS, TIM_CTL, TIM_SERVO, TIM_LOCK. -/
def rowsTIM0 : List RegRow :=
  [⟨0x1D, 0x1D000000, 64, 0x20, 1, 8, 0x0,
    [⟨63, 1, .rw, 0, 1⟩, ⟨62, 1, .rw, 0, 1⟩, ⟨61, 1, .rw, 0, 1⟩, ⟨60, 1, .rw, 0, 1⟩,
     ⟨16, 16, .rw, 0, 65535⟩, ⟨0, 16, .rw, 0, 65535⟩]⟩,
   ⟨0x1D, 0x1D000000, 64, 0x28, 1, 8, 0x0,
    [⟨63, 1, .w1s, 0, 1⟩, ⟨62, 1, .w1s, 0, 1⟩, ⟨61, 1, .w1c, 0, 1⟩, ⟨48, 10, .ro, 0, 1023⟩,
     ⟨40, 5, .ro, 0, 31⟩, ⟨0, 32, .rc, 0, 4294967295⟩]⟩,
   ⟨0x1D, 0x1D000000, 64, 0x30, 2, 8, 0x0,
    [⟨16, 48, .ro, 0, 0xFFFFFFFFFFFF⟩, ⟨12, 4, .ro, 0, 15⟩, ⟨0, 8, .ro, 0, 255⟩, ⟨32, 32, .ro, 0, 4294967295⟩,
     ⟨16, 16, .ro, 0, 65535⟩, ⟨0, 16, .ro, 0, 65535⟩]⟩,
   ⟨0x1D, 0x1D000000, 64, 0x40, 4, 8, 0x0,
    [⟨0, 64, .ro, 0, 0xFFFFFFFFFFFFFFFF⟩]⟩,
   ⟨0x1D, 0x1D400000, 1, 0x20, 1, 8, 0x0,
    [⟨16, 48, .ro, 0, 0xFFFFFFFFFFFF⟩]⟩,
   ⟨0x1D, 0x1D400000, 1, 0x28, 1, 8, 0x0,
    [⟨32, 32, .ro, 0, 4294967295⟩, ⟨16, 16, .ro, 0, 65535⟩]⟩,
   ⟨0x1D, 0x1D400000, 1, 0x30, 1, 8, 0x0,
    [⟨16, 48, .rw, 0, 0xFFFFFFFFFFFF⟩]⟩,
   ⟨0x1D, 0x1D400000, 1, 0x38, 1, 8, 0x0,
    [⟨32, 32, .rw, 0, 999999999⟩, ⟨16, 16, .rw, 0, 65535⟩]⟩,
   ⟨0x1D, 0x1D400000, 1, 0x40, 1, 8, 0x0,
    [⟨0, 64, .rw, 0, 0xFFFFFFFFFFFFFFFF⟩]⟩,
   ⟨0x1D, 0x1D400000, 1, 0x48, 1, 8, 0x100,
    [⟨63, 1, .w1s, 0, 1⟩, ⟨62, 1, .w1s, 0, 1⟩, ⟨24, 3, .rw, 0, 7⟩, ⟨20, 4, .rw, 0, 15⟩,
     ⟨16, 4, .rw, 0, 15⟩, ⟨15, 1, .rw, 0, 1⟩, ⟨12, 3, .rw, 0, 7⟩, ⟨8, 2, .rw, 0, 3⟩,
     ⟨0, 4, .rw, 0, 15⟩]⟩,
   ⟨0x1D, 0x1D400000, 1, 0x50, 1, 8, 0x2001000000003E8,
    [⟨48, 16, .rw, 0, 65535⟩, ⟨32, 16, .rw, 0, 65535⟩, ⟨0, 32, .rw, 0, 4294967295⟩]⟩,
   ⟨0x1D, 0x1D400000, 1, 0x58, 1, 8, 0x20040400003840,
    [⟨48, 16, .rw, 0, 65535⟩, ⟨40, 8, .rw, 1, 255⟩, ⟨32, 8, .rw, 1, 255⟩, ⟨0, 32, .rw, 0, 4294967295⟩]⟩]

/-- Registers of TIM: TIM_LINE_ADJ, TIM_SAMPLE, TIM_STATUS, TIM_RATE, TIM_EVT, TIM_CNT, TIM_PPS, TIM_PPS_IN_S, TIM_PPS_IN_NS, TIM_TODS, TIM_TODS_RX. -/
def rowsTIM1 : List RegRow :=
  [⟨0x1D, 0x1D400000, 1, 0x60, 1, 8, 0x0,
    [⟨0, 32, .rw, 0, 4294967295⟩]⟩,
   ⟨0x1D, 0x1D400000, 1, 0x68, 1, 8, 0x0,
    [⟨0, 64, .wo, 0, 0xFFFFFFFFFFFFFFFF⟩]⟩,
   ⟨0x1D, 0x1D400000, 1, 0x70, 1, 8, 0x0,
    [⟨62, 2, .ro, 0, 3⟩, ⟨61, 1, .ro, 0, 1⟩, ⟨60, 1, .ro, 0, 1⟩, ⟨56, 4, .ro, 0, 15⟩,
     ⟨0, 32, .ro, 0, 4294967295⟩]⟩,
   ⟨0x1D, 0x1D400000, 1, 0x78, 1, 8, 0x0,
    [⟨32, 32, .ro, 0, 4294967295⟩, ⟨0, 32, .ro, 0, 4294967295⟩]⟩,
   ⟨0x1D, 0x1D400000, 1, 0x80, 1, 8, 0x0,
    [⟨5, 1, .w1c, 0, 1⟩, ⟨4, 1, .w1c, 0, 1⟩, ⟨3, 1, .w1c, 0, 1⟩, ⟨2, 1, .w1c, 0, 1⟩,
     ⟨1, 1, .w1c, 0, 1⟩, ⟨0, 1, .w1c, 0, 1⟩]⟩,
   ⟨0x1D, 0x1D400000, 1, 0x88, 1, 8, 0x0,
    [⟨32, 32, .rc, 0, 4294967295⟩, ⟨24, 8, .rc, 0, 255⟩, ⟨16, 8, .rc, 0, 255⟩, ⟨8, 8, .rc, 0, 255⟩,
     ⟨4, 4, .rc, 0, 15⟩, ⟨0, 4, .rc, 0, 15⟩]⟩,
   ⟨0x1D, 0x1D400000, 1, 0x90, 1, 8, 0x6400000000,
    [⟨63, 1, .rw, 0, 1⟩, ⟨62, 1, .rw, 0, 1⟩, ⟨61, 1, .rw, 0, 1⟩, ⟨32, 16, .rw, 1, 900⟩,
     ⟨16, 16, .rw, 0, 65535⟩, ⟨0, 16, .rw, 0, 65535⟩]⟩,
   ⟨0x1D, 0x1D400000, 1, 0x98, 1, 8, 0x0,
    [⟨16, 48, .ro, 0, 0xFFFFFFFFFFFF⟩, ⟨16, 16, .ro, 0, 65535⟩]⟩,
   ⟨0x1D, 0x1D400000, 1, 0xA0, 1, 8, 0x0,
    [⟨16, 48, .ro, 0, 0xFFFFFFFFFFFF⟩, ⟨16, 16, .ro, 0, 65535⟩]⟩,
   ⟨0x1D, 0x1D400000, 1, 0xA8, 1, 8, 0x0,
    [⟨63, 1, .rw, 0, 1⟩, ⟨62, 1, .rw, 0, 1⟩, ⟨61, 1, .rw, 0, 1⟩, ⟨18, 1, .rw, 0, 1⟩,
     ⟨17, 1, .rw, 0, 1⟩, ⟨16, 1, .rw, 0, 1⟩, ⟨0, 16, .rw, 0, 65535⟩]⟩,
   ⟨0x1D, 0x1D400000, 1, 0xB0, 1, 8, 0x0,
    [⟨16, 48, .ro, 0, 0xFFFFFFFFFFFF⟩, ⟨8, 8, .ro, 0, 255⟩, ⟨0, 8, .ro, 0, 255⟩]⟩]

/-- Registers of OHS: OHS_CTL, OHS_STAT, OHS_CNT. -/
def rowsOHS : List RegRow :=
  [⟨0x1E, 0x1E000000, 1, 0x20, 4, 32, 0x0,
    [⟨15, 1, .rw, 0, 1⟩, ⟨8, 4, .rw, 0, 15⟩, ⟨7, 1, .rw, 0, 1⟩, ⟨0, 4, .rw, 0, 15⟩]⟩,
   ⟨0x1E, 0x1E000000, 1, 0x28, 4, 32, 0x0,
    [⟨63, 1, .ro, 0, 1⟩, ⟨62, 1, .ro, 0, 1⟩, ⟨61, 1, .w1c, 0, 1⟩]⟩,
   ⟨0x1E, 0x1E000000, 1, 0x30, 4, 32, 0x0,
    [⟨32, 32, .rc, 0, 4294967295⟩, ⟨0, 32, .rc, 0, 4294967295⟩]⟩]

/-- Registers of CAS: CAS_CTL, CAS_ROLE, CAS_GRP_CTL, CAS_GRP_STAT, CAS_GRP_CNT, CAS_ASYM, CAS_EVT, CAS_CNT, CAS_IND_CMD, CAS_IND_DATA. -/
def rowsCAS : List RegRow :=
  [⟨0x20, 0x20000000, 1, 0x20, 1, 8, 0xA0A,
    [⟨63, 1, .rw, 0, 1⟩, ⟨8, 8, .rw, 1, 255⟩, ⟨0, 8, .rw, 1, 255⟩]⟩,
   ⟨0x20, 0x20000000, 1, 0x28, 1, 8, 0x0,
    [⟨62, 2, .ro, 0, 3⟩, ⟨61, 1, .ro, 0, 1⟩, ⟨60, 1, .ro, 0, 1⟩, ⟨56, 4, .ro, 0, 15⟩,
     ⟨52, 4, .ro, 0, 15⟩, ⟨32, 16, .ro, 0, 65535⟩, ⟨0, 16, .ro, 0, 65535⟩]⟩,
   ⟨0x20, 0x20000000, 1, 0x30, 2, 8, 0x8F00000000001000,
    [⟨63, 1, .rw, 0, 1⟩, ⟨56, 4, .rw, 0, 15⟩, ⟨48, 1, .rw, 0, 1⟩, ⟨0, 16, .rw, 1, 32768⟩]⟩,
   ⟨0x20, 0x20000000, 1, 0x40, 2, 8, 0x0,
    [⟨61, 3, .ro, 0, 7⟩, ⟨60, 1, .ro, 0, 1⟩, ⟨56, 4, .ro, 0, 15⟩, ⟨52, 4, .ro, 0, 15⟩,
     ⟨51, 1, .ro, 0, 1⟩, ⟨44, 4, .ro, 0, 15⟩]⟩,
   ⟨0x20, 0x20000000, 1, 0x50, 2, 8, 0x0,
    [⟨32, 32, .rc, 0, 4294967295⟩, ⟨16, 16, .rc, 0, 65535⟩, ⟨8, 8, .rc, 0, 255⟩]⟩,
   ⟨0x20, 0x20000000, 1, 0x60, 2, 8, 0x0,
    [⟨0, 16, .rw, 0, 65535⟩]⟩,
   ⟨0x20, 0x20000000, 1, 0x70, 1, 8, 0x0,
    [⟨6, 1, .w1c, 0, 1⟩, ⟨5, 1, .w1c, 0, 1⟩, ⟨4, 1, .w1c, 0, 1⟩, ⟨3, 1, .w1c, 0, 1⟩,
     ⟨2, 1, .w1c, 0, 1⟩, ⟨1, 1, .w1c, 0, 1⟩, ⟨0, 1, .w1c, 0, 1⟩]⟩,
   ⟨0x20, 0x20000000, 1, 0x78, 1, 8, 0x0,
    [⟨32, 32, .rc, 0, 4294967295⟩, ⟨16, 16, .rc, 0, 65535⟩, ⟨8, 8, .rc, 0, 255⟩, ⟨0, 8, .rc, 0, 255⟩]⟩,
   ⟨0x20, 0x20000000, 1, 0x80, 1, 8, 0x0,
    [⟨63, 1, .w1s, 0, 1⟩, ⟨62, 1, .w1c, 0, 1⟩, ⟨61, 1, .rw, 0, 1⟩, ⟨56, 2, .rw, 0, 3⟩,
     ⟨0, 18, .rw, 0, 262143⟩]⟩,
   ⟨0x20, 0x20000000, 1, 0x88, 2, 8, 0x0,
    [⟨0, 64, .rw, 0, 0xFFFFFFFFFFFFFFFF⟩]⟩]

/-- Every register of the device (Table 20.2). -/
def regRows : List RegRow :=
  rowsCFG0 ++ rowsCFG1 ++ rowsCLK ++ rowsPWR0 ++ rowsPWR1 ++ rowsFLT0 ++ rowsFLT1 ++ rowsTSK0 ++ rowsTSK1 ++
  rowsACU ++ rowsLPH0 ++ rowsLPH1 ++ rowsDSF ++ rowsACT0 ++ rowsACT1 ++ rowsUBE ++ rowsCHP ++ rowsPRS ++
  rowsCLS0 ++ rowsCLS1 ++ rowsFLW ++ rowsSPC ++ rowsCEL0 ++ rowsCEL1 ++ rowsSCH ++ rowsGCL0 ++ rowsGCL1 ++
  rowsCIP ++ rowsKLN ++ rowsMAC0 ++ rowsMAC1 ++ rowsTIM0 ++ rowsTIM1 ++ rowsOHS ++ rowsCAS

/-- The unit and the index an address names in a row, if it names a register of it. -/
def RegRow.at? (r : RegRow) (a : Nat) : Option (Nat × Nat) :=
  if a < r.base then none
  else
    let u := (a - r.base) / 0x10000
    let o := (a - r.base) % 0x10000
    if u < r.units ∧ r.off ≤ o ∧ (o - r.off) % r.step = 0 ∧ (o - r.off) / r.step < r.cnt
    then some (u, (o - r.off) / r.step) else none

/-- The register row of an address, if the address is occupied by a register (R413). -/
def regRow? (a : Nat) : Option RegRow := regRows.find? (fun r => (r.at? a).isSome)

/-- The registers whose reset value is not 0: base, units, offset, count, step, value. -/
def resetRows : List (Nat × Nat × Nat × Nat × Nat × Nat) :=
  [(0x1000000, 1, 0x10, 1, 8, 0x2),
   (0x1000000, 1, 0x18, 1, 8, 0xFFFFFFFFFFFFFFFD),
   (0x2000000, 1, 0x28, 1, 8, 0x14),
   (0x2000000, 1, 0x30, 1, 8, 0xF),
   (0x3000000, 1, 0x40, 1, 8, 0x37),
   (0x3000000, 1, 0x50, 1, 8, 0x8000000800),
   (0x4000000, 1, 0x30, 1, 8, 0x3203E80064),
   (0x4000000, 1, 0x100, 64, 8, 0x8000000000000014),
   (0x8000000, 16, 0x28, 1, 8, 0x8A00),
   (0x8000000, 16, 0x30, 1, 8, 0x4000002),
   (0x8000000, 16, 0x38, 1, 8, 0x2810C),
   (0x8000000, 16, 0x40, 1, 8, 0x14),
   (0x8000000, 16, 0x48, 1, 8, 0x1000800000000000),
   (0x8000000, 16, 0x60, 1, 8, 0x1E061420),
   (0x8100000, 1, 0x28, 1, 8, 0x515004),
   (0x9000000, 16, 0x20, 1, 8, 0x810),
   (0xA000000, 16, 0x28, 1, 8, 0x640C80A0006),
   (0xA100000, 1, 0x20, 1, 8, 0xA00),
   (0xB000000, 16, 0x40, 1, 8, 0x5001F424),
   (0xC000000, 16, 0x28, 1, 8, 0x100F424),
   (0x10100000, 1, 0x20, 1, 8, 0x12B517C10868),
   (0x10100000, 1, 0x1000, 80, 8, 0x1001000),
   (0x12000000, 1, 0x20, 1, 8, 0x40802),
   (0x12000000, 1, 0x28, 1, 8, 0x64012C0014),
   (0x13000000, 1, 0x20, 1, 8, 0xA0000),
   (0x14000000, 1, 0x20, 1, 8, 0x4000),
   (0x14000000, 1, 0x28, 1, 8, 0x10000400000E000),
   (0x14000000, 1, 0x30, 1, 8, 0x10000400000E000),
   (0x14000000, 1, 0x38, 1, 8, 0x2),
   (0x14000000, 1, 0x70, 1, 8, 0x28400008)] ++
  [(0x14000000, 1, 0xA0, 1, 8, 0x8000001800000000),
   (0x15000000, 1, 0x20, 1, 8, 0x246246),
   (0x15000000, 1, 0x28, 1, 8, 0x14),
   (0x16000000, 64, 0x20, 1, 8, 0x10000000000FF),
   (0x16000000, 64, 0x38, 1, 8, 0xF4240),
   (0x16000000, 64, 0x40, 1, 8, 0x14),
   (0x16000000, 64, 0x48, 1, 8, 0xFF),
   (0x16000000, 64, 0x2000, 1024, 8, 0xFF0000000F4240),
   (0x1C000000, 64, 0x20, 1, 8, 0x2400),
   (0x1C000000, 64, 0x30, 1, 8, 0xFAC688),
   (0x1C000000, 64, 0x38, 1, 8, 0xFFFF10000800),
   (0x1C000000, 64, 0x48, 1, 8, 0xA0000000000),
   (0x1C000000, 64, 0x50, 1, 8, 0x200000000000000),
   (0x1C500000, 1, 0x20, 1, 8, 0x535200),
   (0x1C500000, 1, 0x30, 1, 8, 0x800004000),
   (0x1D400000, 1, 0x48, 1, 8, 0x100),
   (0x1D400000, 1, 0x50, 1, 8, 0x2001000000003E8),
   (0x1D400000, 1, 0x58, 1, 8, 0x20040400003840),
   (0x1D400000, 1, 0x90, 1, 8, 0x6400000000),
   (0x20000000, 1, 0x20, 1, 8, 0xA0A),
   (0x20000000, 1, 0x30, 2, 8, 0x8F00000000001000)]

/-- The value of a register right after reset: the register tables' reset values; ACT_SN and KLN_RK.SET come from fuses. -/
def regReset (a : Nat) : Word :=
  if a = ACT_SN.addr then Config.fuseSerial
  else if a = KLN_RK.addr then setField 0 KLN_RK_RK_SET.lo 1 (b2n Config.fuseRk.isSome)
  else
    match resetRows.find? (fun r =>
      (RegRow.at? ⟨0, r.1, r.2.1, r.2.2.1, r.2.2.2.1, r.2.2.2.2.1, 0, []⟩ a).isSome) with
    | some r => BitVec.ofNat 64 r.2.2.2.2.2
    | none => 0

end Sys2Proof.Machine
end

