-- ==== Sys2Proof/Machine/SMap.lean ====
section
/-! DEFINITION. Sparse maps by a natural key in one canonical form: keys strictly rising, and no entry equal to what an
unlisted key reads as. Registers, memories, tables and per-unit state are all held in this form, so equal contents
are equal data. -/

namespace Sys2Proof.Machine

/-- A sparse map: the listed keys with their values, in rising order. -/
abbrev SMap (α : Type) := List (Nat × α)

/-- The value at key `k`; an unlisted key reads as `d k`. The search ends at the first larger key. -/
def SMap.get {α : Type} (d : Nat → α) : SMap α → Nat → α
  | [], k => d k
  | (j, v) :: t, k => if k < j then d k else if k = j then v else SMap.get d t k

/-- Sets key `k` to `v`, keeping the canonical form: a value equal to the unlisted one removes the entry. -/
def SMap.set {α : Type} [DecidableEq α] (d : Nat → α) : SMap α → Nat → α → SMap α
  | [], k, v => if v = d k then [] else [(k, v)]
  | (j, w) :: t, k, v =>
    if k < j then (if v = d k then (j, w) :: t else (k, v) :: (j, w) :: t)
    else if k = j then (if v = d k then t.dropWhile (fun p => p.1 ≤ k) else (k, v) :: t)
    else (j, w) :: SMap.set d t k v

/-- The canonical form: keys strictly rising above `lo`, no entry equal to the unlisted value. -/
def SMap.wfFrom {α : Type} [DecidableEq α] (d : Nat → α) : Nat → SMap α → Bool
  | _, [] => true
  | lo, (j, v) :: t => decide (lo ≤ j) && decide (v ≠ d j) && SMap.wfFrom d (j + 1) t

/-- The canonical form of a whole map. -/
def SMap.wf {α : Type} [DecidableEq α] (d : Nat → α) (m : SMap α) : Bool := SMap.wfFrom d 0 m

/-- Applies a function to every listed value, keeping the canonical form. -/
def SMap.mapVals {α : Type} [DecidableEq α] (d : Nat → α) (f : Nat → α → α) (m : SMap α) : SMap α :=
  (m.map (fun e => (e.1, f e.1 e.2))).filter (fun e => e.2 ≠ d e.1)

end Sys2Proof.Machine
end

