-- ==== Sys2Proof/Machine/State.lean ====
section
/-! DEFINITION. The state of the device as plain data: the queue of waiting commands, the registers by address, the
shadow banks, memory, and for every block what the spec gives it beside its registers. Registers that only show a
block's state (RO status fields) live in the register map and nowhere else. -/

namespace Sys2Proof.Machine


/-! ### Time -/

/-- A reading of the time counter: seconds, and the position in the second in units of 2⁻⁴⁸ ns (R295: NS, 16 fraction
bits FR and 32 further fraction bits). -/
structure Tod where
  s : Nat
  f : Nat
  deriving DecidableEq, Repr

/-! ### Faults (chapter 16) -/

/-- A fault record of one source (Table 16.4). -/
structure FltRec where
  valid : Bool := false
  cls : Nat := 0
  merged : Bool := false
  inj : Bool := false
  verdict : Nat := 0
  kind : Nat := 0
  react : Nat := 0
  unit : Nat := 0
  count : Nat := 0
  conseq : Nat := 0
  synd : Nat := 0
  addr : Nat := 0
  stampS : Nat := 0
  stampNS : Nat := 0
  deriving DecidableEq, Repr

/-- A reaction that waits or runs: its source, unit, class, code and the resource to test (R353 to R355). -/
structure Reaction where
  src : Nat
  unit : Nat
  cls : Nat
  code : Nat
  res : Resource
  deriving DecidableEq, Repr

/-- A quiet window: the source whose reaction opened it, that reaction's unit kind, and whether the reaction has ended, so
that only QW µs remain (R358). -/
structure QuietWin where
  src : Nat
  unit : Nat
  safe : Bool
  ended : Bool
  deriving DecidableEq, Repr

/-- The fault block's state beside its registers. -/
structure FltSt where
  recs : SMap FltRec
  /-- Reactions latched and not begun, in order of latching, a fatal error first (R355). -/
  queue : List Reaction
  /-- The reaction that runs (R355). -/
  running : Option Reaction
  windows : List QuietWin
  /-- Resources given the verdict transient, each with the cycle count of that verdict (R354). -/
  held : List (Resource × Nat)
  /-- Units taken out of service by ISOLATE or by a lasting verdict: source, unit, and whether it was a lasting verdict
  (R353, R354). -/
  isolated : List (Nat × Nat × Bool)
  /-- On-die rows behind a fence, and whether the fence is permanent (R354). -/
  fences : List (Resource × Bool)
  /-- Spare rows used, by array. -/
  spares : SMap Nat
  /-- The running reaction's action has been carried out; its self-test is in progress (R354). -/
  acted : Bool
  testing : Bool
  /-- 1 ms after RESET_DEVICE the device resets (R353). -/
  resetDue : Bool
  /-- The temperature warning has been raised and not re-armed (R352). -/
  tempWarned : Bool
  /-- Every hart is halted by a fatal error of sources 0x21 to 0x29 or 0x31 (R360). -/
  safeHalt : Bool
  deriving DecidableEq, Repr

/-! ### Configuration (chapter 02) -/

/-- Where a bank's requested swap stands (R41, R42). -/
inductive BankPhase where
  | idle | waiting | copying
  deriving DecidableEq, Repr

/-- A bank's request: the boundary kind, the frame number it waits for, whether it was late, and the channel's boundary
count when it was made (R41 to R43). -/
structure BankSt where
  phase : BankPhase := .idle
  kind : Nat := 0
  atEn : Bool := false
  at_ : Nat := 0
  late : Bool := false
  seq : Nat := 0
  deriving DecidableEq, Repr

/-- A consistency group: its commit pending, with WHEN and CH, the channel's boundary count at the request (R44). -/
structure GroupSt where
  pend : Bool := false
  when_ : Bool := false
  ch : Nat := 0
  seq : Nat := 0
  deriving DecidableEq, Repr

/-- Boot progress (R23 to R33, R405): without power, held in reset, the boot ROM running up to each of its reads, base
firmware running, and the boot-failed state. -/
inductive BootPhase where
  | unpowered | inReset | rom | sfdpDone | headersRead | copyChosen | booted | failed
  deriving DecidableEq, Repr

/-- CFG's state beside its registers. -/
structure CfgSt where
  boot : BootPhase
  /-- The retry bit of the always-on domain (R27, R32). -/
  bootRetry : Bool
  /-- A flashless device waits to boot over the cascade (R377). -/
  casBoot : Bool
  /-- Headers of copies A and B as read (R25). -/
  hdrA : Bytes
  hdrB : Bytes
  /-- The copy ranked first: false A, true B; the ranking took boot_retry into account (R27). -/
  firstB : Bool
  /-- The first-ranked copy has failed its checks. -/
  firstFailed : Bool
  /-- The MGR strap sampled at release from reset (R23). -/
  mgrStrap : Bool
  /-- VR_EN is high (R405). -/
  vrEn : Bool
  /-- Every supply is in range (R405). -/
  supplied : Bool
  /-- SHA-384 of the public key that the fuses hold (R26). -/
  keyHash : BitVec 384
  banks : SMap BankSt
  groups : SMap GroupSt
  /-- Staged register values by address, present where staged (R44). -/
  staged : SMap (Option Word)
  /-- Staged allocation contexts of UBE by index: VALID and ALLOC (R146). -/
  stagedCtx : SMap (Option (Bool × Nat))
  /-- Frame boundaries seen on each channel, and the counter of the last one (R43). -/
  bseq : SMap Nat
  lastB : SMap Nat
  /-- Where the customer configuration section was loaded, and its size; the index of the next record; the section has been
  applied completely, or its application has failed (R29 to R31). -/
  cfgAt : Option (Nat × Nat)
  recIdx : Nat
  cfgDone : Bool
  cfgFailed : Bool
  /-- The record at `recIdx` is a wait record that is not yet satisfied (R30). -/
  waiting : Bool
  /-- The flash command in progress: opcode, data bytes (R33). -/
  spi : Option (Nat × Nat)
  deriving DecidableEq, Repr

/-! ### Control complex (chapter 14) -/

/-- A successor of a task (Table 14.3). -/
structure Succ where
  v : Bool := false
  task : Nat := 0
  flag : Nat := 0
  deriving DecidableEq, Repr

/-- The three states of R320. -/
inductive TaskState where
  | idle | ready | running
  deriving DecidableEq, Repr

/-- A task context (Table 14.3). -/
structure Task where
  en : Bool := false
  st : TaskState := .idle
  level : Bool := false
  prio : Nat := 0
  aff : Nat := 0
  lastCore : Nat := 0
  lcV : Bool := false
  dep : Nat := 0
  depInit : Nat := 0
  mask : Nat := 0
  evt : Nat := 0
  entry : Nat := 0
  arg : Nat := 0
  s0 : Succ := {}
  s1 : Succ := {}
  s2 : Succ := {}
  deriving DecidableEq, Repr

/-- The task scheduler's state beside its registers: contexts, READY tasks in order of becoming READY, the post queue
(task and flag), and harts stalled on a full queue, each with its post (hart, task, flag). -/
structure TskSt where
  tasks : SMap Task
  readyOrder : List Nat
  posts : List (Nat × Nat)
  stalled : List (Nat × Nat × Nat)
  deriving DecidableEq, Repr

/-- A hart: powered and running, its mode, in WFI, its machine external interrupt, held in reset, halted (R316, R317). -/
structure Hart where
  running : Bool := false
  mode : CoreMode := .m
  wfi : Bool := false
  extInt : Bool := false
  isolated : Bool := false
  pc : Nat := 0
  deriving DecidableEq, Repr

/-- An access window (Table 14.5). -/
structure AcuWin where
  en : Bool := false
  cache : Bool := false
  l3src : Nat := 0
  perm : Nat := 0
  base : Nat := 0
  limit : Nat := 0
  deriving DecidableEq, Repr

/-! ### Power (chapter 15) -/

/-- The power states of Table 15.1. -/
inductive PState where
  | full | trim | doze | taste | off
  deriving DecidableEq, Repr

/-- What a transition in progress is. -/
inductive PTrans where
  | units | entry | wake
  deriving DecidableEq, Repr

/-- A scheduled line mode (R337). -/
structure LineMode where
  mode : Nat
  fc : Nat
  dur : Nat
  deriving DecidableEq, Repr

/-- A pair's doze by line mode: whether it dozes, and the frame at which it ends; none where it lasts until the next GO
(R337). -/
structure LineDoze where
  on : Bool := false
  until_ : Option Nat := none
  deriving DecidableEq, Repr

/-- The power block's state beside its registers. -/
structure PwrSt where
  cur : PState
  trans : Option (PTrans × PState)
  pend : Option PState
  /-- The PWR_TRIM word in force: 0 in Full (R334). -/
  off : Nat
  /-- Units powered: channel pairs, physical ports, pipelines (R334), and receivers that sleep (R338). -/
  cpOn : Nat
  portOn : Nat
  pipeOn : Nat
  rxOff : Nat
  /-- Scheduled line modes by pair; dozes by line mode; FC_EFF and DUR of a sleep (R337, R338). -/
  sched : SMap (Option LineMode)
  dozes : SMap LineDoze
  sleep : SMap (Option (Nat × Nat))
  /-- Wake sources are armed (R344). -/
  armed : Bool
  /-- The replay FIFO: source and stamp, oldest first (R346). -/
  fifo : List (Nat × Nat)
  /-- A latched source has yet to start its wake (R346). -/
  wanted : Bool
  /-- Retries of the wake in progress (R348). -/
  attempts : Nat
  /-- A taste cycle runs (R342). -/
  cycle : Bool
  /-- The last wake list that ACT has handed on (Table 5.3). -/
  wakeList : Option Bytes
  /-- A regulator that the power state keeps is out of range (R404, Table 16.3). -/
  regOut : Bool
  deriving DecidableEq, Repr

/-! ### Cells and queues (chapters 09 and 10) -/

/-- Where one cell of a packet lies: a place of the reserved, shared or staging pool; such a place while its page is
being written; or the Cellar (R207, R211). -/
inductive Loc where
  | res | shr | stg
  | wres | wshr | wstg
  | cel
  deriving DecidableEq, Repr

/-- A packet queued in a leaf, or carried in a burst. -/
structure QPkt where
  /-- A number that tells packets apart. -/
  id : Nat
  /-- Bytes from the destination address through the FCS (R208). -/
  bytes : Bytes
  /-- Cells, in order (R208). -/
  cells : List Loc
  /-- Start offset in its first cell, and a head cell before it (R20, R208). -/
  start : Nat := 0
  headCell : Bool := false
  /-- Cycle count at admission, and ingress time-stamp (R240, R307). -/
  adm : Nat
  ingress : Tod
  /-- Channel or logical port it came from, and the receive queue of a client frame (R310, R288). -/
  inPort : Nat
  rxq : Option Nat := none
  /-- Marked poisoned (R21). -/
  poisoned : Bool
  /-- Firmware's own packet, reinjected with MODE 1 (R309). -/
  origin : Bool
  /-- Upstream: stream context index (Table 6.11). -/
  sctx : Nat
  /-- The speculative packet this one is, while it is tentative (R198): channel and number. -/
  spec : Option (Nat × Nat)
  /-- Upstream: bytes already placed and the next FSEQ (R129). -/
  off : Nat
  fseq : Nat
  /-- Upstream: granted frames in which a NOFRAG packet was passed over (R130). -/
  passed : Nat
  /-- Flushed or discarded while tentative in a burst: freed when returned (R137). -/
  doomed : Bool
  /-- Upstream: the bytes as corrected when its first fragment was placed (R310). -/
  corr : Option Bytes := none
  deriving DecidableEq, Repr

/-- A spill page of a queue (R211): its number, write or read in progress; what it records: the descriptors of its cells
(packet and cell of the packet), the two copies of the link to the queue's next page, its queue and that queue's spill
epoch (R221). -/
structure Page where
  no : Nat
  writing : Bool
  reading : Bool
  desc : List (Nat × Nat) := []
  linkA : Option Nat := none
  linkB : Option Nat := none
  key : Nat := 0
  epoch : Nat := 0
  deriving DecidableEq, Repr

/-- A leaf queue of one direction: its entry (Table 9.6) and its live state (R208, R210). -/
structure LeafQ where
  spillEn : Bool := false
  prof : Nat := 0
  s : Bool := false
  q : Nat := 0
  c : Nat := 0
  res : Nat := 0
  shr : Nat := 0
  pkts : List QPkt := []
  /-- Cells of the head segment while S = 1. -/
  head : Nat := 0
  pages : List Page := []
  epoch : Nat := 0
  /-- HEAD_KEEP as it stood when the last packet was admitted (R225). -/
  keep : Nat := 2048
  deriving DecidableEq, Repr

/-- An admission profile (Table 9.6). -/
structure Profile where
  minRes : Nat := 256
  headKeep : Nat := 2048
  spillHi : Nat := 8192
  alpha : Nat := 4
  qmax : Nat := 16777216
  deriving DecidableEq, Repr

/-- An HBM stack beside its registers: its retrain, restarts counted and steps done, and self-refresh (R216 to R220). -/
structure Stack where
  /-- Cycle count of the last stamp (R217). -/
  stampAt : Nat := 0
  /-- Conditions at the start of the retrain in progress: temperature in 0.1 °C, duty in 1/256. -/
  startT : Int := 0
  startD : Nat := 0
  restarts : Nat := 0
  steps : Nat := 0
  selfRefresh : Bool := false
  deriving DecidableEq, Repr

/-- A page access that waits at its stack, with its class of R215 (3 return reads, 4 spill writes). -/
structure HbmReq where
  cls : Nat
  page : Nat
  deriving DecidableEq, Repr

/-- CEL's state beside its registers. -/
structure CelSt where
  queues : SMap LeafQ
  profiles : SMap Profile
  /-- Places allocated in the reassembly pool and, per direction, the reserved, shared and staging pools (R207). -/
  raUsed : Nat
  used : SMap Nat
  /-- Spill pages in use or withdrawn, rising. -/
  pagesUsed : List Nat
  /-- Page accesses that wait, oldest first (R215). -/
  waits : List HbmReq
  /-- The stack whose free list is next (R211). -/
  rot : Nat
  /-- Pages freed from a queue while a write or read of them was in progress (R213), and pages lost (R221). -/
  orphans : List Nat
  lost : List Nat
  hbm : SMap Stack
  /-- Rows behind a fence: address, and permanent (R223). -/
  fences : List (Nat × Bool)
  /-- Row tests that wait for a fence, and retired rows, by first address (R223). -/
  fenceWait : List Nat
  retired : List Nat
  /-- The scrubber's next word, counted in 8-byte words from the first address of the Cellar (R222). -/
  scrubWord : Nat
  /-- A single-bit error found by the scrubber that waits for its write-back: address and inverted bits (R222). -/
  scrubBack : Option (Nat × BitVec 72)
  nextId : Nat
  deriving DecidableEq, Repr

/-- Rates and bursts of a scheduling object (Table 10.4). -/
structure Rates where
  cir : Nat := 0
  pir : Nat := 0
  cbs : Nat := 0
  pbs : Nat := 0
  deriving DecidableEq, Repr

/-- A leaf, service node or port of the hierarchy (R226 to R235); token counts in 1/256 byte. -/
structure SchObj where
  en : Bool := false
  shpEn : Bool := false
  active : Bool := false
  sp : Bool := false
  tc : Nat := 0
  w : Nat := 1
  rates : Rates := {}
  /-- Rates and bursts that take effect at the next refill (R234). -/
  next : Option Rates := none
  tokC : Int := 0
  tokP : Int := 0
  /-- Tentative debits of the two buckets, bytes (R235). -/
  pendC : Int := 0
  pendP : Int := 0
  /-- Start tag held under the parent, and virtual time held for the children (R230). -/
  tag : Nat := 0
  v : Nat := 0
  /-- Unusable after an uncorrectable word, until rewritten (Table 16.2). -/
  bad : Bool := false
  deriving DecidableEq, Repr

/-- A subscriber (Table 10.4). -/
structure Subscriber where
  en : Bool := false
  port : Nat := 0
  deriving DecidableEq, Repr

/-- A policer (R238); tokens in 1/65,536 byte. -/
structure Policer where
  en : Bool := false
  mode : Bool := false
  red : Nat := 0
  rates : Rates := {}
  tokC : Nat := 0
  tokP : Nat := 0
  /-- Cycle count to which the buckets are refilled (R238). -/
  last : Nat := 0
  bad : Bool := false
  deriving DecidableEq, Repr

/-- SCH's state beside its registers. -/
structure SchSt where
  leaves : SMap SchObj
  subs : SMap Subscriber
  svcs : SMap SchObj
  ports : SMap SchObj
  policers : SMap Policer
  /-- Levels refilled since SCH's bank swap was requested, as direction × 3 + level: a master tick refills all six (R41,
  R232). -/
  refilled : List Nat
  /-- Downstream packets handed to the MAC of each logical port with their traffic class, oldest first. -/
  toMac : SMap (List (Nat × QPkt))
  deriving DecidableEq, Repr

/-! ### Gate control (chapter 10) -/

/-- A logical port's gate control beside its registers: the start of its cycles. -/
structure GclPort where
  cycStart : Tod := ⟨0, 0⟩
  /-- Config change time of a pending change (R243). -/
  cct : Option Tod := none
  /-- Service nodes passed over by the guard band until their gate reopens (R244). -/
  held : List Nat := []
  deriving DecidableEq, Repr

/-! ### Ciphers and keys (chapter 11) -/

/-- A key generation: its key, highest frame counter, requests bound, and a number that tells generations apart (R257, R260). -/
structure KeyGen where
  gid : Nat
  key : Bytes
  highFc : Nat
  bound : Nat
  /-- Unusable through an uncorrectable word (R263). -/
  bad : Bool
  deriving DecidableEq, Repr

/-- The key slot states of Table 11.4. -/
inductive SlotState where
  | empty | live | retired | erasing
  deriving DecidableEq, Repr

/-- A key slot (R260, R261): the held rewrite of REWR, and the derivation that waits for EMPTY, with its USE. -/
structure KeySlot where
  st : SlotState := .empty
  use : Nat := 0
  cur : Option KeyGen := none
  prev : Option KeyGen := none
  held : Option Bytes := none
  waiting : Option (Nat × Bytes) := none
  deriving DecidableEq, Repr

/-- A cipher request that waits or runs: its source, the slot and generation it is bound to, and the lane it has been
dispatched to. -/
structure CipReq where
  src : CipSrc
  slot : Nat
  gid : Nat
  lane : Option Nat
  /-- Channel and number of the speculative packet that a run-ahead request decrypts (R251). -/
  ra : Option (Nat × Nat) := none
  deriving DecidableEq, Repr

/-- A secure association (Table 11.12). -/
structure SecAssoc where
  valid : Bool := false
  exh : Bool := false
  slot : Nat := 0
  ssci : Nat := 0
  nextPn : Nat := 0
  thr : Nat := 0
  window : Nat := 0
  salt : Nat := 0
  deriving DecidableEq, Repr

/-- A binding of one pair, usage and stream group to a slot base (R270). -/
structure Binding where
  valid : Bool := false
  usage : Nat := 0
  cp : Nat := 0
  sgrp : Nat := 0
  base : Nat := 0
  deriving DecidableEq, Repr

/-- What KLN holds for one index of one usage of one pair: its epoch, its stale mark, and that it is keyed (R268, R269). -/
structure EpochSt where
  epoch : Option Nat := none
  stale : Bool := false
  keyed : Bool := false
  deriving DecidableEq, Repr

/-- State of CIP and KLN beside their registers. -/
structure KlnSt where
  slots : SMap KeySlot
  roots : SMap (Option Bytes)
  keks : SMap (Option Bytes)
  /-- By pair × 6 + usage × 2 + index − 1. -/
  epochs : SMap EpochSt
  /-- Last EPOCH accepted by pair × 3 + usage. -/
  lastEpoch : SMap (Option Nat)
  bindings : SMap Binding
  /-- The registration key as the fuses hold it (R266). -/
  rk : Option Bytes
  /-- The words last written to KLN_DATA0 to KLN_DATA4. -/
  data : SMap Word
  nextGid : Nat
  txSa : SMap SecAssoc
  rxSa : SMap SecAssoc
  queue : List CipReq
  /-- The class A source whose turn is next (R251). -/
  turn : Nat
  /-- Lanes out of service. -/
  lanesOut : List Nat
  deriving DecidableEq, Repr

/-! ### Registration (chapter 05) -/

/-- The activation states, numbered as ACT_CP_STATE.STATE. -/
inductive ActState where
  | initial | listening | announcing | ranging | operating | intermittent | stopped | silenced
  deriving DecidableEq, Repr

/-- The last message of a type accepted on a pair: its MSEQ and the answer given to it, without TNUM, MSEQ and MCRC, which
are filled when it is queued; none where firmware has yet to answer (R105, R117). -/
structure LastMsg where
  mseq : Nat
  answer : Option Bytes
  deriving DecidableEq, Repr

/-- The values that group k carries to UBE and the Chaperone (R110, R145). -/
structure LineCopy where
  tnV : Bool := false
  ann : Bool := false
  tn : Nat := 0
  eqd : Nat := 0
  deriving DecidableEq, Repr

/-- An accepted KEY_CONTROL whose STATUS 0 waits until its slots are complete (R268): its MSEQ, whether it asked for an answer, its
slots. -/
structure KeyWait where
  mseq : Nat
  ack : Bool
  slots : List Nat
  deriving DecidableEq, Repr

/-- A channel pair's machine beside its registers. Timers hold the flywheel ticks left, and none while stopped. -/
structure ActPair where
  annEn : Bool := false
  discProf : Nat := 0
  rndMax : Nat := 0
  preEqd : Nat := 0
  /-- Profiles received since Listening was entered, as a mask. -/
  profGot : Nat := 0
  backoff : Nat := 0
  tAsg : Option Nat := none
  tRng : Option Nat := none
  tInt : Option Nat := none
  hold : Option Nat := none
  /-- HE_ID of the last valid header, and the differing HE_ID that header carried (R99). -/
  heLast : Nat := 0
  heCand : Option Nat := none
  /-- Upstream message queue (R106). -/
  msgq : List Bytes := []
  last : SMap (Option LastMsg) := []
  mseq : SMap Nat := []
  /-- Changes that wait to be staged, oldest first: the frame boundaries seen when the frame that carried them was in progress,
  and the values (R110). -/
  pend : List (Nat × LineCopy) := []
  /-- The values last asked for. -/
  want : LineCopy := {}
  /-- Messages held while the shadow of UBE's bank is copied (R111). -/
  profHeld : List Bytes := []
  /-- KEY_CONTROL messages whose answer waits, oldest first (R268). -/
  keyWaits : List KeyWait := []
  deriving DecidableEq, Repr

/-- An entry of the firmware receive queue (R117). -/
structure RxqEntry where
  cp : Nat
  fc : Nat
  msg : Bytes
  deriving DecidableEq, Repr

/-- ACT's state beside its registers. -/
structure ActSt where
  pairs : SMap ActPair
  rxq : List RxqEntry
  /-- The pending port order: port and frame, the pair that ordered it, and the frame boundaries that pair's channel had seen
  (R115). -/
  order : Option (Nat × Nat × Nat × Nat)
  /-- The port of the last autonomous move: no further one until SYNC on it (R115). -/
  autoMoved : Option Nat
  deriving DecidableEq, Repr

/-! ### Upstream bursts (chapter 06) -/

/-- An accepted or predicted grant (Table 4.5): the allocation's context, or none for the discovery window. -/
structure Grant where
  alloc : Nat
  start : Nat
  len : Nat
  prof : Nat
  umsg : Bool
  qreq : Bool
  deriving DecidableEq, Repr

/-- The debit of one selection: leaf, service node and port objects, whether the committed buckets were charged, bytes (R229, R231). -/
structure Charge where
  leaf : Nat
  svc : Nat
  port : Nat
  leafC : Bool
  svcC : Bool
  amount : Int
  deriving DecidableEq, Repr

/-- An upstream stream context (Table 6.11). -/
structure UpStream where
  valid : Bool := false
  reqEnc : Bool := false
  nofrag : Bool := false
  kslot : Nat := 0
  actx : Nat := 0
  sid : Nat := 0
  deriving DecidableEq, Repr

/-- A burst profile in effect: valid, DELIM, MOD, PRE_LEN, GUARD. -/
structure BurstProf where
  valid : Bool := false
  delim : Nat := 0
  qpsk : Bool := false
  pre : Nat := 0
  guard_ : Nat := 0
  deriving DecidableEq, Repr

/-- One fragment placed in a burst: the packet as it stood before it (first byte and FSEQ in `off` and `fseq`), the leaf it
came from, its plaintext bytes, LAST, whether the packet's cells are released when its burst has left, its charge. -/
structure Piece where
  pkt : QPkt
  leaf : Nat
  plen : Nat
  last : Bool
  rel : Bool
  charge : Charge
  /-- Its stream's context as it stood when it was placed (R146). -/
  up : UpStream := {}
  deriving DecidableEq, Repr

/-- Where a burst stands. -/
inductive BurstPhase where
  | predicted | built | started
  deriving DecidableEq, Repr

/-- A burst of one upstream frame. -/
structure Burst where
  frame : Nat
  /-- Frame boundaries seen on the channel when its map was judged. -/
  seq : Nat
  grant : Grant
  /-- The allocation context it is filled from. -/
  ctx : Option Nat
  phase : BurstPhase
  /-- What is in effect for its frame: its profile, EQD and TN; whether its allocation is the default one; the bytes of its
  mandatory parts, and whether a management message is one of them (Table 6.3). -/
  prof : BurstProf := {}
  eqd : Nat := 0
  tn : Nat := 0
  dflt : Bool := false
  mand : Nat := 0
  carries : Bool := false
  /-- Bytes of its fragment area, and the key-index state of its frame (R254). -/
  area : Nat
  ki : Nat
  pieces : List Piece
  /-- Leaves passed over for the rest of the burst, and the NOFRAG packets passed over (R130). -/
  skipped : List Nat
  nofrag : List Nat
  /-- Quanta after the window's start at which an ANNOUNCE burst begins (R119), and its message. -/
  rnd : Nat
  msg : Option Bytes
  /-- Information bytes encoded so far; pieces encoded so far. -/
  out : Bytes
  encoded : Nat
  /-- Idle fill was sent for area not assembled (R134). -/
  late : Bool
  /-- The insertion port whose block it carries (R95), and the cycle count at its gate lead. -/
  opsOf : Option Nat := none
  leadAt : Nat := 0
  deriving DecidableEq, Repr

/-- An allocation context (Table 6.11). -/
structure AllocCtx where
  valid : Bool := false
  cp : Nat := 0
  alloc : Nat := 0
  /-- ACT's own: the default allocation of its pair (R107). -/
  dflt : Bool := false
  deriving DecidableEq, Repr

/-- A channel of UBE beside its registers. -/
structure UbeCh where
  /-- The values in effect (R110). -/
  copy : LineCopy := {}
  /-- Grants accepted in the map being judged, in map order (R120). -/
  accepted : List Grant := []
  /-- Bursts that have not left the modulator, in order of time. -/
  bursts : List Burst := []
  /-- The end of the last gate tail: frame boundaries seen, symbol counted from T_rx + T_RSP of that frame, EQD (R138). -/
  lastTail : Option (Nat × Nat × Nat) := none
  /-- The burst that left the modulator last (an output of the device), and whether its gate tail lasts (R121). -/
  sent : Option Burst := none
  tail : Bool := false
  deriving DecidableEq, Repr

/-- UBE's state beside its registers. -/
structure UbeSt where
  chans : SMap UbeCh
  allocs : SMap AllocCtx
  streams : SMap UpStream
  deriving DecidableEq, Repr

/-- A transmit window of the Chaperone: symbols of upstream frame `frame`, as R140 places them (U is symbol 0; the margins
reach 128 symbols beyond). -/
structure Window where
  frame : Nat
  lo : Int
  hi : Int
  deriving DecidableEq, Repr

/-- A channel of the Chaperone beside its registers. -/
structure ChpCh where
  windows : List Window := []
  /-- The divider has its phase (R140). -/
  phased : Bool := false
  /-- The port-move hold is in force (R48, R142). -/
  portHold : Bool := false
  /-- Gate-open symbols of the last eight frames, newest first (R142). -/
  open8 : List Nat := []
  /-- A release has been requested (R144). -/
  relReq : Bool := false
  deriving DecidableEq, Repr

/-! ### Downstream framing and the overhead serial ports (chapter 04) -/

/-- The states of Table 4.3, numbered as DSF_SYNC.STATE. -/
inductive SyncState where
  | hunt | pre1 | pre2 | sync
  deriving DecidableEq, Repr

/-- A packet in reassembly (R88): bytes so far, FSEQ of its last fragment, fragments taken, ticks since the tick of the
frame that carried FIRST, its time-stamp and the byte number of its first header. -/
structure Assembly where
  bytes : Bytes
  fseq : Nat
  frags : Nat
  ticks : Nat
  stamp : Tod
  fc : Nat
  hdr : Nat
  poisoned : Bool := false
  deriving DecidableEq, Repr

/-- A stream map entry (Table 4.9). -/
structure StreamEnt where
  valid : Bool := false
  ctx : Nat := 0
  deriving DecidableEq, Repr

/-- A stream context (Table 4.9). -/
structure StreamCtx where
  type : Nat := 0
  reqEnc : Bool := false
  kslot : Nat := 0
  maxpkt : Nat := 0
  cesIdx : Nat := 0
  deriving DecidableEq, Repr

/-- A circuit context (Table 4.9). -/
structure CircuitCtx where
  tlen : Nat := 0
  cesLen : Nat := 0
  seq : Nat := 0
  template : Bytes := []
  deriving DecidableEq, Repr

/-- The seven counts of one second (Table 4.8). -/
structure PmCounts where
  cw : Nat := 0
  cwc : Nat := 0
  bitc : Nat := 0
  cwu : Nat := 0
  flost : Nat := 0
  hec : Nat := 0
  fdrop : Nat := 0
  deriving DecidableEq, Repr

/-- The payload of a circuit stream's good fragment (R92), and whether a word of it could not be corrected (R21). -/
structure CesBlock where
  bytes : Bytes
  poisoned : Bool := false
  deriving DecidableEq, Repr

/-- A channel's framer beside its registers. -/
structure DsfCh where
  /-- FC_A of PRE2 (Table 4.3). -/
  fcA : Nat := 0
  /-- The header of the frame in progress: valid; FC; MAP_N; MSG_N (R79). -/
  hdrOk : Bool := false
  fc : Nat := 0
  mapN : Nat := 0
  msgN : Nat := 0
  /-- A frame has been delineated since reset, so that there is a previous counter (R79). -/
  prevV : Bool := false
  /-- Frames whose header has been taken: numbers codewords across frames. -/
  frames : Nat := 0
  /-- The frame in progress is delineated: received in SYNC, DSF running (R75, R416). -/
  live : Bool := false
  /-- Uncorrectable codewords of the frame in progress and of the next one. -/
  bad : List Nat := []
  badNext : List Nat := []
  /-- The delineator's position in the frame (R85), and the start of an unreadable span under way. -/
  pos : Nat := 0
  /-- Bytes of completed packets of the frame, each counted with 20 (R13). -/
  done : Nat := 0
  /-- Flywheel ticks since the tick at the start of the frame (R88). -/
  since : Nat := 0
  /-- The time counter at the last flywheel tick (R77, R93). -/
  tickAt : Option Tod := none
  /-- The operations channel of the frame in progress; none: all-ones (R94). -/
  ops : Option Bytes := none
  pm : PmCounts := {}
  /-- Partial packets by SID. -/
  asm : SMap (Option Assembly) := []
  /-- Payload of the current frame's good fragment of a circuit stream, by SID (R92). -/
  ces : SMap (Option CesBlock) := []
  deriving DecidableEq, Repr

/-- DSF's state beside its registers. -/
structure DsfSt where
  chans : SMap DsfCh
  /-- Stream map by pair × 65,536 + SID (R86). -/
  smap : SMap StreamEnt
  ctxs : SMap StreamCtx
  circuits : SMap CircuitCtx
  /-- The time counter was stepped in the second in progress (R96). -/
  stepped : Bool
  deriving DecidableEq, Repr

/-- An overhead serial port beside its registers (R93 to R95): the period being sent, the block held. -/
structure OhsPort where
  period : Bytes := []
  held : Option Bytes := none
  /-- The held block is in a burst that is being sent (R95, R126). -/
  taken : Bool := false
  /-- A block has started and is not complete (R95). -/
  partialBlk : Bool := false
  deriving DecidableEq, Repr

/-! ### Pipelines (chapters 01, 07, 08) -/

/-- The idle-slot classes, in order of precedence (R14). -/
inductive IdleClass where
  | recirc | cascade | slow
  deriving DecidableEq, Repr

/-- A packet on its way through a pipeline. -/
structure PassPkt where
  bytes : Bytes
  /-- 0 downstream, 1 upstream; channel or logical port; stream (R147). -/
  dir : Nat
  src : Nat
  sid : Nat
  /-- Stream context of a packet from the line (R88). -/
  ctx : Option Nat := none
  second : Bool := false
  /-- Header type at which parsing starts (R149). -/
  hid : Nat := 1
  meta_ : Nat := 0
  tun : Nat := 0
  /-- Version stamp, from entry (R171). -/
  ver : Option Nat := none
  ingress : Tod := ⟨0, 0⟩
  /-- Receive queue of a client frame (R286). -/
  rxq : Option Nat := none
  poisoned : Bool := false
  /-- Reinjected with MODE 1, or a cascade arrival: the leaf it goes to (R158, R379). -/
  toLeaf : Option Nat := none
  /-- Reinjected with MODE 1: firmware's own (R309). -/
  origin : Bool := false
  /-- Speculative: channel and number (R196). -/
  spec : Option (Nat × Nat) := none
  /-- Start offset of its first cell, and a head cell before it (R20, R208). -/
  start : Nat := 0
  headCell : Bool := false
  deriving DecidableEq, Repr

/-- A learn request (R189): format, tuple, hashes. -/
structure LearnReq where
  fmt : Nat
  tuple : Bytes
  h1 : Nat
  h2 : Nat
  deriving DecidableEq, Repr

/-- A slow-path entry to be written: queue, packet bytes, the words of its descriptor but for ADDR, ingress time-stamp. -/
structure SlowEntry where
  q : Nat
  bytes : Bytes
  d0 : Nat
  d1 : Nat
  d2 : Nat
  second : Bool
  stamp : Tod
  deriving DecidableEq, Repr

/-- An effect of a pass that speculation holds back until commit (R198). -/
inductive Eff where
  /-- A device counter rises: address, low bit and width of its field. -/
  | cnt (addr lo w : Nat)
  /-- A packet of `len` bytes is counted at a counter identifier (R193). -/
  | flow (cid len : Nat)
  /-- The entry holding CIDX was hit: ageing tick, side, TCP flags (R184). -/
  | hit (cidx tick : Nat) (hi : Bool) (flags : Nat)
  /-- A learn request, with the slow-path entry of its copy under HW_LEARN = 0 (R189). -/
  | learn (r : LearnReq) (x : SlowEntry)
  /-- A policer is debited, or counts a red packet (R238). -/
  | debit (pol c p : Nat) (red : Bool)
  | slow (e : SlowEntry)
  /-- A packet forwarded to a redirected leaf goes to the cascade: direction, leaf, stream, H2 (R378). -/
  | cascade (dir leaf sid h2 : Nat) (p : QPkt)
  /-- The drain counter of a version falls (R173). -/
  | drain (v : Nat)
  deriving DecidableEq, Repr

/-- A record of a commit buffer: the speculative packet it belongs to and what it holds (R198). -/
structure HeldRec where
  ch : Nat
  num : Nat
  effs : List Eff
  deriving DecidableEq, Repr

/-- A pipeline: arrivals that have entered, packets at its idle-slot port, held records (R14, R198). -/
structure Pipeline where
  input : List PassPkt := []
  idle : List (IdleClass × PassPkt) := []
  held : List HeldRec := []
  deriving DecidableEq, Repr

/-- A rule (Table 7.8); key and mask as 640-bit numbers. -/
structure Rule where
  valid : Bool := false
  born : Bool := false
  lastInf : Bool := false
  alist : Nat := 0
  prio : Nat := 0
  first : Nat := 0
  last : Nat := 0
  key : Nat := 0
  mask : Nat := 0
  /-- It held an uncorrectable word: it matches every key at its PRIO (Table 16.2). -/
  poisoned : Bool := false
  deriving DecidableEq, Repr

/-- An action list: its eight words and whether it has been written (R164, R185). -/
structure ActList where
  words : List Word := []
  defined : Bool := false
  /-- It held an uncorrectable word: a pass that selects it is dropped until it is rewritten (Table 16.2). -/
  bad : Bool := false
  deriving DecidableEq, Repr

/-- A member of a channel-pair group (Table 7.8). -/
structure Member where
  active : Bool := false
  cp : Nat := 0
  sid : Nat := 0
  deriving DecidableEq, Repr

/-- CLS's state beside its registers. -/
structure ClsSt where
  rules : SMap Rule
  lists : SMap ActList
  /-- Member `group × 16 + slot`. -/
  members : SMap Member
  /-- A sweep runs, since this cycle count, and has examined the rules below `sweepPos`; another is queued (R175). -/
  sweeping : Bool
  sweepAt : Nat
  sweepPos : Nat
  sweepQueued : Bool
  deriving DecidableEq, Repr

/-- A flow entry (Table 8.1); its key is the 40-byte tuple and format (R182). -/
structure FlowEntry where
  valid : Bool := false
  fmt : Nat := 0
  static : Bool := false
  tuple : Bytes := []
  alistLo : Nat := 0
  alistHi : Nat := 0
  cidx : Nat := 0
  age : Nat := 0
  flgLo : Nat := 0
  flgHi : Nat := 0
  user : Nat := 0
  deriving DecidableEq, Repr

/-- A planned insertion (R186): the entry, the moves in the order made (from, to), the place; no place: the stash. -/
structure InsPlan where
  entry : FlowEntry
  moves : List (Nat × Nat)
  place : Option Nat
  deriving DecidableEq, Repr

/-- A CIDX held after its entry's deletion, with the entry, and whether it was aged (R191). -/
structure HeldCidx where
  entry : FlowEntry
  aged : Bool
  deriving DecidableEq, Repr

/-- FLW's state beside its registers. -/
structure FlwSt where
  /-- Entries by place: bucket × 4 + slot, or 1,048,576 + stash index. -/
  entries : SMap FlowEntry
  /-- The rotating victim pointer (R186). -/
  victim : Nat
  /-- A firmware insertion in progress (R187). -/
  plan : Option InsPlan
  learnQ : List LearnReq
  /-- Learn filter by H1[11:0]: H2 and the cycle count of the request (R189). -/
  filter : SMap (Option (Nat × Nat))
  now : Nat
  held : List HeldCidx
  /-- Delta words by CID (R193), and for each cache set its CIDs, most recently updated first. -/
  deltas : SMap Nat
  ways : SMap (List Nat)
  /-- Evicted words on their way to HBM: CID and word (R194). -/
  flushing : List (Nat × Nat)
  /-- Buckets that count as full: their row failed and could not be repaired (Table 16.6). -/
  full : List Nat
  deriving DecidableEq, Repr

/-- A packet issued by the run-ahead and not yet committed or squashed (R196). -/
structure SpecPkt where
  num : Nat
  fc : Nat
  hdr : Nat
  sid : Nat
  /-- First and last codeword, counted across frames. -/
  lo : Nat
  hi : Nat
  stamp : Nat
  /-- Its leaf was flushed while it was tentative (Table 8.3). -/
  flushed : Bool := false
  deriving DecidableEq, Repr

/-- A packet that the run-ahead has read and not issued (R196, R251): the packet, its context and plaintext, where its tag is good; its
ingress time-stamp; its decryption is complete. -/
structure AheadWait where
  pkt : SpecPkt
  ctx : Nat
  plain : Option Bytes
  t : Tod
  ready : Bool
  /-- A word of its payload could not be corrected (R21). -/
  poisoned : Bool := false
  deriving DecidableEq, Repr

/-- SPC's state for one channel. -/
structure SpcCh where
  pkts : List SpecPkt := []
  nextNum : Nat := 0
  /-- Digests of provisional releases by codeword (R197). -/
  digests : SMap (Option Nat) := []
  /-- Codewords ended and not yet given a verdict: number, and whether the verdict is Match. -/
  ended : SMap (Option Bool) := []
  /-- The next codeword to be given a verdict; none until one is known. The last that was given Mismatch. -/
  next : Option Nat := none
  lastBad : Option Nat := none
  /-- Committed twins of the frame: frame counter and header byte (R202). -/
  twins : List (Nat × Nat) := []
  /-- Stamps of squashed packets, for re-processing (R202): frame counter, header byte, version. -/
  stamps : List (Nat × Nat × Nat) := []
  blocked : List Nat := []
  /-- Packets read by the run-ahead that wait for their decryption, or behind one that does, in order (R251). -/
  waits : List AheadWait := []
  /-- The run-ahead has stopped for the rest of the frame, its position, bytes it issued in the frame (R196). -/
  stopped : Bool := true
  pos : Nat := 0
  bytes : Nat := 0
  deriving DecidableEq, Repr

/-! ### Client ports (chapter 12) -/

/-- The preemptable packet that a port sends (R245): bytes sent in fragments that have ended, the instant at which its present
fragment begins, in 2⁻⁴⁸ ns, and whether it has one: between fragments it waits for its continuation. -/
structure PreTx where
  sent : Nat := 0
  start : Int := 0
  running : Bool := true
  deriving DecidableEq, Repr

/-- A logical client port beside its registers. -/
structure MacPort where
  /-- Pause timers by class, quanta (R290). -/
  pause : List Nat := [0, 0, 0, 0, 0, 0, 0, 0]
  /-- Cycle counts at which they were last set (R290). -/
  pauseAt : List (Option Nat) := [none, none, none, none, none, none, none, none]
  /-- PFC frames to be sent ahead of queued frames: class-enable bits and the pause time of each class (R288). -/
  pfcOut : List (List (Nat × Nat)) := []
  /-- Verification attempts made (R291). -/
  attempts : Nat := 0
  /-- Every lane of the sub-port locked and aligned; cycles with no fault sequence for 1 ms (R283). -/
  pcs : Bool := false
  quiet : Bool := false
  /-- Instants at which the last express packet and the last preemptable one end (R244), in 2⁻⁴⁸ ns. -/
  ends : Int := 0
  preEnds : Int := 0
  pre : Option PreTx := none
  /-- Verification requests of the link partner that have been answered (R291; the model's own: an output). -/
  answered : Nat := 0
  /-- The frame last put on the wire (the model's own: an output of the device). -/
  sent : Option Bytes := none
  deriving DecidableEq, Repr


/-! ### Line optics (chapter 03) -/

/-- How a receiver acquires (R58): it searches the full range, applies CD_PSNM, or starts from stored state. -/
inductive Acq where
  | search | psnm | warm
  deriving DecidableEq, Repr

/-- A receiver's dispersion, ring setting and equaliser taps in units of 2⁻¹⁷; none where they have yet to be found (R58). -/
structure RxState where
  cd : Option Nat := none
  ring : Option (BitVec 64) := none
  taps : List Int := []
  deriving DecidableEq, Repr

/-- A channel of LPH beside its registers. -/
structure LphCh where
  /-- How the receiver acquires, what it works with, and what it stored when it last held CR_LOCK (R58). -/
  acq : Acq := .search
  rx : RxState := {}
  warm : Option RxState := none
  /-- Cycle count since which RX_LOS has held without a break (R115). -/
  losAt : Option Nat := none
  /-- LO line below +4 dBm (R64). -/
  loLow : Bool := false
  /-- Conditions at the start of the trim in progress, taken at its first check, and restarts (R65). -/
  rxStart : Option (Int × Int) := none
  rxRestarts : Nat := 0
  txStart : Option (Int × Int) := none
  txRestarts : Nat := 0
  /-- Results kept for a warm start (Table 3.5). -/
  rxKept : Bool := false
  txKept : Bool := false
  /-- Consecutive windows that passed while frozen (R68). -/
  passes : Nat := 0
  deriving DecidableEq, Repr

/-- LPH's state beside its registers. -/
structure LphSt where
  chans : SMap LphCh
  /-- The port the optical switch moves to, once it has begun (R48). -/
  moving : Option Nat
  /-- The fault of an address clash has been raised (R62). -/
  clash : Bool
  deriving DecidableEq, Repr

/-! ### Time (chapter 13) -/

/-- A capture of T_rx (R299): frame counter, counter, EQD in effect, and whether firmware has loaded or stepped since (R305). -/
structure Capture where
  fc : Nat
  t : Tod
  eqd : Nat
  stale : Bool
  deriving DecidableEq, Repr

/-- An entry of a transmit time-stamp queue (R312). -/
structure TsqEntry where
  t : Tod
  mt : Nat
  dom : Nat
  seq : Nat
  deriving DecidableEq, Repr

/-- An accepted PPS_IN edge whose reference second is awaited: C, cycle count, and whether firmware has loaded or stepped
since (R305, R314). -/
structure PpsEdge where
  c : Tod
  at_ : Nat
  stale : Bool
  deriving DecidableEq, Repr

/-- TIM's state beside its registers. -/
structure TimSt where
  captures : List Capture
  /-- T_rx of the last frame of each channel. -/
  trx : SMap Tod
  /-- Consecutive samples within LOCK_TH (Table 13.1). -/
  good : Nat
  /-- TEQ and ASYM of the last TIME_OF_DAY accepted on each pair since it entered Operating (R310). -/
  line : SMap (Option (Nat × Int))
  /-- PPS_OUT pulse, and cycle count of the last accepted PPS_IN edge (R313, R314). -/
  ppsHigh : Bool
  ppsLast : Option Nat
  ppsWait : List PpsEdge
  tsq : SMap (List TsqEntry)
  /-- Second whose rise of PPS_OUT is due, where PPS_OUT_OFS puts it after the boundary (R313). -/
  ppsDue : Option Nat
  /-- Second of the boundary for which a message is due on TOD_OUT, and the last message sent (an output). -/
  todDue : Option Nat
  todOut : Option Bytes
  deriving DecidableEq, Repr

/-! ### The cascade (chapter 17) -/

/-- A message or packet of this device's own that waits for a link group: TYPE of Table 17.1, SRC, DST, BCAST, HOPS, payload. -/
structure CasOut where
  type : Nat
  src : Nat
  dst : Nat
  bcast : Bool
  hops : Nat
  body : Bytes
  deriving DecidableEq, Repr

/-- A lane of a link group in one direction (R367): the scrambler's register, newest line bit first, and the run of identical line
bits. -/
structure CasLane where
  scr : BitVec 58 := 0
  run : Nat := 0
  last : Bool := false
  deriving DecidableEq, Repr

/-- A link group beside its registers. -/
structure CasGrp where
  /-- Lanes in the bring-up: detected, then locked (Table 17.2). -/
  lanes : Nat := 0
  /-- LANE_EN and RATE_MAX as the last DETECT took them (chapter 17, registers). -/
  offerLanes : Nat := 0
  offerRate : Nat := 0
  /-- Serial number and word 2 of the peer's CAPS. -/
  caps : Option (Word × Word) := none
  /-- Containers to be passed on, and this device's own messages and packets, in order (R376). -/
  fwd : List Bytes := []
  own : List CasOut := []
  /-- The packet or message being received is being passed on, and is not complete (R370). -/
  fwdOpen : Bool := false
  /-- Containers sent last, and the line bits of each lane that they are (outputs of the device). -/
  sent : List Bytes := []
  line : List (List Bool) := []
  /-- The active lanes as transmitters and as receivers, in order, each with the group block that comes next (R367, R368). -/
  tx : List CasLane := []
  txAt : Nat := 0
  rxl : List CasLane := []
  rxAt : Nat := 0
  /-- Containers are discarded up to the next FIRST (R370). -/
  rxDrop : Bool := false
  /-- The packet or message being received: TYPE and payload so far. -/
  rx : Option (Nat × Bytes) := none
  /-- Packets received whole that wait for their idle-slot port (R379). -/
  arrived : List Bytes := []
  /-- Cycle counts of the CRC errors of the last second (Table 17.2). -/
  errs : List Nat := []
  /-- Windows passed in a row by each frozen lane (R372). -/
  passes : List Nat := [0, 0, 0, 0]
  /-- Link delay measured by the last PROBE exchange, in 2⁻¹⁶ ns, before ASYM (R380). -/
  delay : Option Int := none
  deriving DecidableEq, Repr

/-- A slot of a member group (Table 17.4). -/
structure CasSlot where
  active : Bool := false
  member : Nat := 0
  rleaf : Nat := 0
  rsid : Nat := 0
  deriving DecidableEq, Repr

/-- A redirect entry (Table 17.4). -/
structure CasRedirect where
  valid : Bool := false
  group : Nat := 0
  deriving DecidableEq, Repr

/-- CAS's state beside its registers. -/
structure CasSt where
  grps : SMap CasGrp
  redirects : SMap CasRedirect
  slots : SMap CasSlot
  /-- Serial number that last held each ID (R375). -/
  serials : SMap (Option Word)
  /-- Members heard since the last 1 ms tick, and empty intervals of each (R375). -/
  heard : Nat
  empties : SMap Nat
  /-- Ring order of the VIEW in use, east from the manager, and whether the ring is closed (R376). -/
  ring : List Nat
  closed : Bool
  /-- The candidate: its strap is low, its serial number (R374). -/
  candLow : Bool
  candSerial : Word
  /-- SEQ of the next CTRL message, and the last accepted from each SRC (R373). -/
  seq : Nat
  lastSeq : SMap (Option Nat)
  /-- Intervals without a container from the manager (R376). -/
  mgrEmpty : Nat
  mgrHeard : Bool
  /-- Flash bytes received in BOOT messages (R377). -/
  bootRx : Bytes
  deriving DecidableEq, Repr

/-! ### Clocks (chapter 18) -/

/-- CLK's state beside its registers. -/
structure ClkSt where
  /-- The crystal has failed: the always-on domain stays on RC32 until reset (R384). -/
  xtalDead : Bool
  /-- The contained error of a crystal failure in Taste or Off, raised at the next wake (R384). -/
  xtalDue : Bool
  deriving DecidableEq, Repr

/-! ### The test access port (R400) -/

/-- The sixteen states of the controller of IEEE 1149.1. -/
inductive TapState where
  | testLogicReset | runTestIdle
  | selectDr | captureDr | shiftDr | exit1Dr | pauseDr | exit2Dr | updateDr
  | selectIr | captureIr | shiftIr | exit1Ir | pauseIr | exit2Ir | updateIr
  deriving DecidableEq, Repr

/-- The TAP: its controller, and EXTEST in force. -/
structure TapSt where
  st : TapState := .testLogicReset
  extest : Bool := false
  deriving DecidableEq, Repr

/-! ### The device -/

/-- The whole device. -/
structure State where
  /-- Commands that wait, first in first out. -/
  pending : List Instr
  /-- Registers in effect, by address: live values, the active bank, committed staged values. -/
  regs : SMap Word
  /-- The shadow bank of every SH field, by address (R41). -/
  shadow : SMap Word
  /-- Memory by address: core SRAM, L2, Cellar (Table 14.1). -/
  mem : SMap Byte
  /-- Inverted bits that words of memory hold, by address / 8: data bits in [71:8], check bits in [7:0]; `mem` holds the
  data as written (R18, R205, R222). -/
  ecc : SMap (BitVec 72)
  /-- Free values drawn so far (the model's own). -/
  free : Nat
  /-- The value last returned to an initiator's read (an output of the device). -/
  readOut : Word
  /-- Time-clock cycles counted since reset: the free-running base of ages and refills (R238, R240). -/
  ticks : Nat
  /-- The time counter (R295). -/
  tod : Tod
  cfg : CfgSt
  flt : FltSt
  tsk : TskSt
  harts : SMap Hart
  acu : SMap AcuWin
  pwr : PwrSt
  cel : CelSt
  sch : SchSt
  gcl : SMap GclPort
  kln : KlnSt
  act : ActSt
  ube : UbeSt
  chp : SMap ChpCh
  dsf : DsfSt
  ohs : SMap OhsPort
  pipes : SMap Pipeline
  cls : ClsSt
  flw : FlwSt
  spc : SMap SpcCh
  mac : SMap MacPort
  lph : LphSt
  tim : TimSt
  cas : CasSt
  clk : ClkSt
  tap : TapSt
  deriving DecidableEq, Repr

/-- What stops the device. No command of the table stops it: the spec gives every one an effect. -/
inductive Fault where
  /-- Raised by nothing: kept so that the type has a name for a stop the spec might give. -/
  | stopped
  deriving DecidableEq, Repr

/-- Why a command has no meaning. -/
inductive Refusal where
  /-- The arm of a command whose meaning is not written: safe, since nothing can be proved of its effect. -/
  | notModelled (mnemonic : String)
  deriving DecidableEq, Repr

/-! ### Reset -/

/-- The access windows after reset: 0 and 1 are enabled, every other is 0 (chapter 14, Table 14.5). -/
def acuReset (n : Nat) : AcuWin :=
  if n = 0 then { en := true, perm := 0b110011, base := 0x1000, limit := 0x1FFF }
  else if n = 1 then { en := true, perm := 0b000011, base := 0, limit := 0xFFFFFFFFF }
  else {}

/-- The device while reset is held, before release: every register at its reset value (R406), memories zeroed, keys
zeroised (R263), every block but CFG stopped (R23). -/
def State.reset : State where
  pending := []
  regs := []
  shadow := []
  mem := []
  ecc := []
  free := 0
  readOut := 0
  ticks := 0
  tod := ⟨0, 0⟩
  cfg :=
    { boot := .inReset, bootRetry := false, casBoot := false, hdrA := [], hdrB := [], firstB := false,
      firstFailed := false, mgrStrap := false, vrEn := true, supplied := true, keyHash := Config.fuseKeyHash, banks := [],
      groups := [], staged := [], stagedCtx := [], bseq := [], lastB := [], cfgAt := none, recIdx := 0, cfgDone := false,
      cfgFailed := false, waiting := false, spi := none }
  flt :=
    { recs := [], queue := [], running := none, windows := [], held := [], isolated := [], fences := [],
      spares := [], acted := false, testing := false, resetDue := false, tempWarned := false, safeHalt := false }
  tsk := { tasks := [], readyOrder := [], posts := [], stalled := [] }
  harts := []
  acu := []
  pwr :=
    { cur := .full, trans := none, pend := none, off := 0, cpOn := 0xFFFF, portOn := 0xFFFF, pipeOn := 0xFFFF, rxOff := 0,
      sched := [], dozes := [], sleep := [], armed := false, fifo := [], wanted := false, attempts := 0,
      cycle := false, wakeList := none, regOut := false }
  cel :=
    { queues := [], profiles := [], raUsed := 0, used := [], pagesUsed := [], waits := [], rot := 0, orphans := [], lost := [],
      hbm := [], fences := [], fenceWait := [], retired := [], scrubWord := 0, scrubBack := none,
      nextId := 0 }
  sch := { leaves := [], subs := [], svcs := [], ports := [], policers := [], refilled := [], toMac := [] }
  gcl := []
  kln :=
    { slots := [], roots := [], keks := [], epochs := [], lastEpoch := [], bindings := [],
      rk := Config.fuseRk.map (fun k => beBytes 32 k.toNat), data := [], nextGid := 0, txSa := [], rxSa := [],
      queue := [], turn := 0, lanesOut := [] }
  act := { pairs := [], rxq := [], order := none, autoMoved := none }
  ube := { chans := [], allocs := [], streams := [] }
  chp := []
  dsf := { chans := [], smap := [], ctxs := [], circuits := [], stepped := false }
  ohs := []
  pipes := []
  cls := { rules := [], lists := [], members := [], sweeping := false, sweepAt := 0, sweepPos := 0, sweepQueued := false }
  flw :=
    { entries := [], victim := 0, plan := none, learnQ := [], filter := [], now := 0, held := [], deltas := [],
      ways := [], flushing := [], full := [] }
  spc := []
  mac := []
  lph := { chans := [], moving := none, clash := false }
  tim :=
    { captures := [], trx := [], good := 0, line := [], ppsHigh := false, ppsLast := none, ppsWait := [], tsq := [],
      ppsDue := none, todDue := none, todOut := none }
  cas :=
    { grps := [], redirects := [], slots := [], serials := [], heard := 0, empties := [], ring := [], closed := false,
      candLow := true, candSerial := Config.fuseSerial, seq := 0, lastSeq := [], mgrEmpty := 0, mgrHeard := false,
      bootRx := [] }
  clk := { xtalDead := false, xtalDue := false }
  tap := { st := .testLogicReset, extest := false }

end Sys2Proof.Machine
end

