-- ==== Sys2Proof/Machine/Ops.lean ====
section
/-! DEFINITION. The named operations over the state: registers and their fields, the shadow banks, memory, the time
counter, and the sparse tables. Every register read or write goes through these. -/

namespace Sys2Proof.Machine

/-! ### Registers -/

/-- A field of a register as a number. -/
def State.rd (s : State) (r : RF) : Nat := fieldOf (SMap.get regReset s.regs r.addr) r.lo r.w

/-- A whole register. -/
def State.reg (s : State) (a : Nat) : Word := SMap.get regReset s.regs a

/-- A one-bit field, or whether a field is not 0. -/
def State.bit (s : State) (r : RF) : Bool := s.rd r != 0

/-- Writes a whole register. -/
def State.setReg (s : State) (a : Nat) (v : Word) : State := { s with regs := SMap.set regReset s.regs a v }

/-- Writes a field; the register's other bits keep their values. -/
def State.wr (s : State) (r : RF) (n : Nat) : State :=
  s.setReg r.addr (setField (s.reg r.addr) r.lo r.w n)

/-- Sets or clears a one-bit field. -/
def State.put (s : State) (r : RF) (b : Bool) : State := s.wr r (b2n b)

/-- Adds to a saturating counter. -/
def State.addTo (s : State) (r : RF) (n : Nat) : State := s.wr r (satAdd r.w (s.rd r) n)

/-- Counts one event in a saturating counter. -/
def State.inc (s : State) (r : RF) : State := s.addTo r 1

/-- Sets bit `i` of a field of event bits (R5). -/
def State.setBit (s : State) (r : RF) (i : Nat) : State := s.wr r (withBit (s.rd r) i true)

/-- Clears bit `i` of a field. -/
def State.clrBit (s : State) (r : RF) (i : Nat) : State := s.wr r (withBit (s.rd r) i false)

/-- The value of an SH field in the shadow bank (R41). -/
def State.shReg (s : State) (a : Nat) : Word := SMap.get regReset s.shadow a

/-- Writes the shadow bank. -/
def State.setSh (s : State) (a : Nat) (v : Word) : State := { s with shadow := SMap.set regReset s.shadow a v }

/-- A field in the shadow bank. -/
def State.rdSh (s : State) (r : RF) : Nat := fieldOf (s.shReg r.addr) r.lo r.w

/-- Bits of a whole field that are 1, as a list of indices. -/
def State.bits (s : State) (r : RF) : List Nat := maskList r.w (s.rd r)

/-! ### Block run control -/

/-- Block numbers (Table 20.2). -/
def blkCFG : Nat := 0x01
def blkCLK : Nat := 0x02
def blkPWR : Nat := 0x03
def blkFLT : Nat := 0x04
def blkTSK : Nat := 0x05
def blkACU : Nat := 0x06
def blkLPH : Nat := 0x08
def blkDSF : Nat := 0x09
def blkACT : Nat := 0x0A
def blkUBE : Nat := 0x0B
def blkCHP : Nat := 0x0C
def blkPRS : Nat := 0x10
def blkCLS : Nat := 0x11
def blkFLW : Nat := 0x12
def blkSPC : Nat := 0x13
def blkCEL : Nat := 0x14
def blkSCH : Nat := 0x15
def blkGCL : Nat := 0x16
def blkCIP : Nat := 0x18
def blkKLN : Nat := 0x19
def blkMAC : Nat := 0x1C
def blkTIM : Nat := 0x1D
def blkOHS : Nat := 0x1E
def blkCAS : Nat := 0x20

/-- Every block number of Table 20.2. -/
def allBlocks : List Nat :=
  [blkCFG, blkCLK, blkPWR, blkFLT, blkTSK, blkACU, blkLPH, blkDSF, blkACT, blkUBE, blkCHP, blkPRS, blkCLS,
   blkFLW, blkSPC, blkCEL, blkSCH, blkGCL, blkCIP, blkKLN, blkMAC, blkTIM, blkOHS, blkCAS]

/-- Block `n` runs: its CFG_BLK_STOPPED bit is 0 (R37). -/
def State.runs (s : State) (n : Nat) : Bool := !(s.rd CFG_BLK_STOPPED).testBit n

/-! ### Memory (Table 14.1, Table 9.1) -/

/-- What an unlisted address reads as: the boot ROM's contents in its range, and 0 elsewhere, since every on-die word is
written with 0 before core 0 fetches (R406). -/
def memDefault (a : Nat) : Byte :=
  if 0x000120000000 ≤ a ∧ a ≤ 0x00012003FFFF then Config.bootRom (a - 0x000120000000) else 0

/-- One byte of memory. -/
def State.memByte (s : State) (a : Nat) : Byte := SMap.get memDefault s.mem a

/-- Writes one byte of memory. -/
def State.setByte (s : State) (a : Nat) (b : Byte) : State := { s with mem := SMap.set memDefault s.mem a b }

/-- `n` bytes of memory from an address. -/
def State.memBytes (s : State) (a n : Nat) : Bytes := (List.range n).map (fun i => s.memByte (a + i))

/-- The inverted bits that a word of memory holds. -/
def State.eccOf (s : State) (a : Nat) : BitVec 72 := SMap.get (fun _ => (0 : BitVec 72)) s.ecc (a / 8)

/-- Marks or clears them. -/
def State.setEcc (s : State) (a : Nat) (f : BitVec 72) : State :=
  { s with ecc := SMap.set (fun _ => (0 : BitVec 72)) s.ecc (a / 8) f }

/-- Writes bytes to consecutive addresses: each word written has its check byte made anew (R20). -/
def State.setBytes (s : State) : Nat → Bytes → State
  | _, [] => s
  | a, b :: l => State.setBytes ((s.setByte a b).setEcc a 0) (a + 1) l

/-- A 64-bit word of memory, bits [63:56] at the lowest address (R19). -/
def State.memWord (s : State) (a : Nat) : Word := wordAt (s.memBytes a 8) 0

/-- Writes a 64-bit word of memory. -/
def State.setWord (s : State) (a : Nat) (v : Word) : State := s.setBytes a (wordBytes v)

/-- The HBM stack of a Cellar address (Table 9.1). -/
def stackOf (a : Nat) : Nat := (a - 0x002000000000) / 0x000800000000

/-- An address lies in the Cellar window (R411). -/
def inCellar (a : Nat) : Bool := 0x002000000000 ≤ a && a ≤ 0x003FFFFFFFFF

/-- A stack is trained and present (R216). -/
def State.stackOk (s : State) (n : Nat) : Bool := (s.rd CEL_STATUS_STK_OK).testBit n

/-- A block's own write to the Cellar (R215): a write to an absent stack is discarded and reported with its address (R216). -/
def State.cellarBad (s : State) (a : Nat) : Bool := inCellar a && !s.stackOk (stackOf a)

/-! ### Free values -/

/-- Draws a free value: nothing constrains it. -/
def State.draw (s : State) : BitVec 64 × State := (Config.freeValue s.free, { s with free := s.free + 1 })

/-! ### The time counter (R295) -/

/-- One second in units of 2⁻⁴⁸ ns. -/
def secF : Nat := 1000000000 * 2 ^ 48

/-- Nanoseconds of a reading. -/
def Tod.ns (t : Tod) : Nat := t.f / 2 ^ 48

/-- The 16 fraction bits of a reading. -/
def Tod.fr (t : Tod) : Nat := t.f / 2 ^ 32 % 2 ^ 16

/-- A reading as one signed count of 2⁻⁴⁸ ns. -/
def Tod.total (t : Tod) : Int := (t.s : Int) * secF + t.f

/-- The reading of a signed count; seconds are modulo 2⁴⁸. -/
def Tod.ofTotal (i : Int) : Tod := ⟨(i / (secF : Int) % (2 ^ 48 : Int)).toNat, (i % (secF : Int)).toNat⟩

/-- Microseconds counted since an earlier cycle count of the time clock (500 MHz, R295). -/
def State.ageUs (s : State) (t : Nat) : Nat := (s.ticks - t) / 500

/-! ### Access initiators (R317) -/

/-- The privilege level of an access. -/
def levelOf : Initiator → Nat
  | .core _ .m => 0
  | .core _ .s => 1
  | .core _ .u => 2
  | .host => 3
  | .mgmt => 3

/-- The initiator as ACU_FAULT_INFO.INIT codes it. -/
def initCode : Initiator → Nat
  | .core c _ => c.val
  | .host => 8
  | .mgmt => 9

/-! ### Sparse state by index -/

/-- An access window (Table 14.5). -/
def State.acuWin (s : State) (k : Nat) : AcuWin := SMap.get acuReset s.acu k
/-- Writes it. -/
def State.setAcuWin (s : State) (k : Nat) (v : AcuWin) : State := { s with acu := SMap.set acuReset s.acu k v }

/-- Leaf queue `dir × 131,072 + leaf`. -/
def State.lq (s : State) (k : Nat) : LeafQ := SMap.get (fun _ => ({} : LeafQ)) s.cel.queues k
/-- Writes it. -/
def State.setLq (s : State) (k : Nat) (v : LeafQ) : State :=
  { s with cel := { s.cel with queues := SMap.set (fun _ => ({} : LeafQ)) s.cel.queues k v } }

/-- Admission profile. -/
def State.profile (s : State) (k : Nat) : Profile := SMap.get (fun _ => ({} : Profile)) s.cel.profiles k
/-- Writes it. -/
def State.setProfile (s : State) (k : Nat) (v : Profile) : State :=
  { s with cel := { s.cel with profiles := SMap.set (fun _ => ({} : Profile)) s.cel.profiles k v } }

/-- Places allocated in pool `dir × 3 + (0 reserved, 1 shared, 2 staging)`. -/
def State.poolUsed (s : State) (k : Nat) : Nat := SMap.get (fun _ => (0 : Nat)) s.cel.used k
/-- Writes it. -/
def State.setPoolUsed (s : State) (k : Nat) (v : Nat) : State :=
  { s with cel := { s.cel with used := SMap.set (fun _ => (0 : Nat)) s.cel.used k v } }

/-- HBM stack. -/
def State.stack (s : State) (k : Nat) : Stack := SMap.get (fun _ => ({} : Stack)) s.cel.hbm k
/-- Writes it. -/
def State.setStack (s : State) (k : Nat) (v : Stack) : State :=
  { s with cel := { s.cel with hbm := SMap.set (fun _ => ({} : Stack)) s.cel.hbm k v } }

/-- Scheduling object of leaf `dir × 131,072 + leaf`. -/
def State.leafObj (s : State) (k : Nat) : SchObj := SMap.get (fun _ => ({} : SchObj)) s.sch.leaves k
/-- Writes it. -/
def State.setLeafObj (s : State) (k : Nat) (v : SchObj) : State :=
  { s with sch := { s.sch with leaves := SMap.set (fun _ => ({} : SchObj)) s.sch.leaves k v } }

/-- Subscriber `dir × 8,192 + n`. -/
def State.sub (s : State) (k : Nat) : Subscriber := SMap.get (fun _ => ({} : Subscriber)) s.sch.subs k
/-- Writes it. -/
def State.setSub (s : State) (k : Nat) (v : Subscriber) : State :=
  { s with sch := { s.sch with subs := SMap.set (fun _ => ({} : Subscriber)) s.sch.subs k v } }

/-- Service node `dir × 131,072 + port × 16 + class`. -/
def State.svc (s : State) (k : Nat) : SchObj := SMap.get (fun _ => ({} : SchObj)) s.sch.svcs k
/-- Writes it. -/
def State.setSvc (s : State) (k : Nat) (v : SchObj) : State :=
  { s with sch := { s.sch with svcs := SMap.set (fun _ => ({} : SchObj)) s.sch.svcs k v } }

/-- Port `dir × 8,192 + port`. -/
def State.portObj (s : State) (k : Nat) : SchObj := SMap.get (fun _ => ({} : SchObj)) s.sch.ports k
/-- Writes it. -/
def State.setPortObj (s : State) (k : Nat) (v : SchObj) : State :=
  { s with sch := { s.sch with ports := SMap.set (fun _ => ({} : SchObj)) s.sch.ports k v } }

/-- Policer. -/
def State.policer (s : State) (k : Nat) : Policer := SMap.get (fun _ => ({} : Policer)) s.sch.policers k
/-- Writes it. -/
def State.setPolicer (s : State) (k : Nat) (v : Policer) : State :=
  { s with sch := { s.sch with policers := SMap.set (fun _ => ({} : Policer)) s.sch.policers k v } }

/-- Packets handed to the MAC of a logical port. -/
def State.toMac (s : State) (k : Nat) : List (Nat × QPkt) := SMap.get (fun _ => ([] : (List (Nat × QPkt)))) s.sch.toMac k
/-- Writes it. -/
def State.setToMac (s : State) (k : Nat) (v : (List (Nat × QPkt))) : State :=
  { s with sch := { s.sch with toMac := SMap.set (fun _ => ([] : (List (Nat × QPkt)))) s.sch.toMac k v } }

/-- Gate control of a logical port. -/
def State.gclPort (s : State) (k : Nat) : GclPort := SMap.get (fun _ => ({} : GclPort)) s.gcl k
/-- Writes it. -/
def State.setGclPort (s : State) (k : Nat) (v : GclPort) : State :=
  { s with gcl := SMap.set (fun _ => ({} : GclPort)) s.gcl k v }

/-- Key slot. -/
def State.slot (s : State) (k : Nat) : KeySlot := SMap.get (fun _ => ({} : KeySlot)) s.kln.slots k
/-- Writes it. -/
def State.setSlot (s : State) (k : Nat) (v : KeySlot) : State :=
  { s with kln := { s.kln with slots := SMap.set (fun _ => ({} : KeySlot)) s.kln.slots k v } }

/-- Root-key slot. -/
def State.root (s : State) (k : Nat) : Option Bytes := SMap.get (fun _ => (none : (Option Bytes))) s.kln.roots k
/-- Writes it. -/
def State.setRoot (s : State) (k : Nat) (v : (Option Bytes)) : State :=
  { s with kln := { s.kln with roots := SMap.set (fun _ => (none : (Option Bytes))) s.kln.roots k v } }

/-- KEK of a pair. -/
def State.kek (s : State) (k : Nat) : Option Bytes := SMap.get (fun _ => (none : (Option Bytes))) s.kln.keks k
/-- Writes it. -/
def State.setKek (s : State) (k : Nat) (v : (Option Bytes)) : State :=
  { s with kln := { s.kln with keks := SMap.set (fun _ => (none : (Option Bytes))) s.kln.keks k v } }

/-- Epoch of pair × 6 + usage × 2 + index − 1. -/
def State.epoch (s : State) (k : Nat) : EpochSt := SMap.get (fun _ => ({} : EpochSt)) s.kln.epochs k
/-- Writes it. -/
def State.setEpoch (s : State) (k : Nat) (v : EpochSt) : State :=
  { s with kln := { s.kln with epochs := SMap.set (fun _ => ({} : EpochSt)) s.kln.epochs k v } }

/-- Last EPOCH of pair × 3 + usage. -/
def State.lastEpoch (s : State) (k : Nat) : Option Nat := SMap.get (fun _ => (none : (Option Nat))) s.kln.lastEpoch k
/-- Writes it. -/
def State.setLastEpoch (s : State) (k : Nat) (v : (Option Nat)) : State :=
  { s with kln := { s.kln with lastEpoch := SMap.set (fun _ => (none : (Option Nat))) s.kln.lastEpoch k v } }

/-- Binding. -/
def State.binding (s : State) (k : Nat) : Binding := SMap.get (fun _ => ({} : Binding)) s.kln.bindings k
/-- Writes it. -/
def State.setBinding (s : State) (k : Nat) (v : Binding) : State :=
  { s with kln := { s.kln with bindings := SMap.set (fun _ => ({} : Binding)) s.kln.bindings k v } }

/-- Word last written to KLN_DATA. -/
def State.klnData (s : State) (k : Nat) : Word := SMap.get (fun _ => (0 : Word)) s.kln.data k
/-- Writes it. -/
def State.setKlnData (s : State) (k : Nat) (v : Word) : State :=
  { s with kln := { s.kln with data := SMap.set (fun _ => (0 : Word)) s.kln.data k v } }

/-- Transmit SA. -/
def State.txSa (s : State) (k : Nat) : SecAssoc := SMap.get (fun _ => ({} : SecAssoc)) s.kln.txSa k
/-- Writes it. -/
def State.setTxSa (s : State) (k : Nat) (v : SecAssoc) : State :=
  { s with kln := { s.kln with txSa := SMap.set (fun _ => ({} : SecAssoc)) s.kln.txSa k v } }

/-- Receive SA. -/
def State.rxSa (s : State) (k : Nat) : SecAssoc := SMap.get (fun _ => ({} : SecAssoc)) s.kln.rxSa k
/-- Writes it. -/
def State.setRxSa (s : State) (k : Nat) (v : SecAssoc) : State :=
  { s with kln := { s.kln with rxSa := SMap.set (fun _ => ({} : SecAssoc)) s.kln.rxSa k v } }

/-- Activation machine of a pair. -/
def State.pair (s : State) (k : Nat) : ActPair := SMap.get (fun _ => ({} : ActPair)) s.act.pairs k
/-- Writes it. -/
def State.setPair (s : State) (k : Nat) (v : ActPair) : State :=
  { s with act := { s.act with pairs := SMap.set (fun _ => ({} : ActPair)) s.act.pairs k v } }

/-- UBE channel. -/
def State.ubeCh (s : State) (k : Nat) : UbeCh := SMap.get (fun _ => ({} : UbeCh)) s.ube.chans k
/-- Writes it. -/
def State.setUbeCh (s : State) (k : Nat) (v : UbeCh) : State :=
  { s with ube := { s.ube with chans := SMap.set (fun _ => ({} : UbeCh)) s.ube.chans k v } }

/-- Allocation context. -/
def State.allocCtx (s : State) (k : Nat) : AllocCtx := SMap.get (fun _ => ({} : AllocCtx)) s.ube.allocs k
/-- Writes it. -/
def State.setAllocCtx (s : State) (k : Nat) (v : AllocCtx) : State :=
  { s with ube := { s.ube with allocs := SMap.set (fun _ => ({} : AllocCtx)) s.ube.allocs k v } }

/-- Upstream stream context. -/
def State.upStream (s : State) (k : Nat) : UpStream := SMap.get (fun _ => ({} : UpStream)) s.ube.streams k
/-- Writes it. -/
def State.setUpStream (s : State) (k : Nat) (v : UpStream) : State :=
  { s with ube := { s.ube with streams := SMap.set (fun _ => ({} : UpStream)) s.ube.streams k v } }

/-- Chaperone channel. -/
def State.chpCh (s : State) (k : Nat) : ChpCh := SMap.get (fun _ => ({} : ChpCh)) s.chp k
/-- Writes it. -/
def State.setChpCh (s : State) (k : Nat) (v : ChpCh) : State :=
  { s with chp := SMap.set (fun _ => ({} : ChpCh)) s.chp k v }

/-- Hart. -/
def State.hart (s : State) (k : Nat) : Hart := SMap.get (fun _ => ({} : Hart)) s.harts k
/-- Writes it. -/
def State.setHart (s : State) (k : Nat) (v : Hart) : State :=
  { s with harts := SMap.set (fun _ => ({} : Hart)) s.harts k v }

/-- Task context. -/
def State.task (s : State) (k : Nat) : Task := SMap.get (fun _ => ({} : Task)) s.tsk.tasks k
/-- Writes it. -/
def State.setTask (s : State) (k : Nat) (v : Task) : State :=
  { s with tsk := { s.tsk with tasks := SMap.set (fun _ => ({} : Task)) s.tsk.tasks k v } }

/-- Fault record of a source. -/
def State.frec (s : State) (k : Nat) : FltRec := SMap.get (fun _ => ({} : FltRec)) s.flt.recs k
/-- Writes it. -/
def State.setFrec (s : State) (k : Nat) (v : FltRec) : State :=
  { s with flt := { s.flt with recs := SMap.set (fun _ => ({} : FltRec)) s.flt.recs k v } }

/-- Spare rows used of an on-die array. -/
def State.fltSpares (s : State) (k : Nat) : Nat := SMap.get (fun _ => (0 : Nat)) s.flt.spares k
/-- Writes it. -/
def State.setFltSpares (s : State) (k : Nat) (v : Nat) : State :=
  { s with flt := { s.flt with spares := SMap.set (fun _ => (0 : Nat)) s.flt.spares k v } }

/-- Bank, by the address of its BLOCK_BANK. -/
def State.bank (s : State) (k : Nat) : BankSt := SMap.get (fun _ => ({} : BankSt)) s.cfg.banks k
/-- Writes it. -/
def State.setBank (s : State) (k : Nat) (v : BankSt) : State :=
  { s with cfg := { s.cfg with banks := SMap.set (fun _ => ({} : BankSt)) s.cfg.banks k v } }

/-- Consistency group. -/
def State.group (s : State) (k : Nat) : GroupSt := SMap.get (fun _ => ({} : GroupSt)) s.cfg.groups k
/-- Writes it. -/
def State.setGroup (s : State) (k : Nat) (v : GroupSt) : State :=
  { s with cfg := { s.cfg with groups := SMap.set (fun _ => ({} : GroupSt)) s.cfg.groups k v } }

/-- Staged value of a register, by address. -/
def State.stagedReg (s : State) (k : Nat) : Option Word := SMap.get (fun _ => (none : (Option Word))) s.cfg.staged k
/-- Writes it. -/
def State.setStagedReg (s : State) (k : Nat) (v : (Option Word)) : State :=
  { s with cfg := { s.cfg with staged := SMap.set (fun _ => (none : (Option Word))) s.cfg.staged k v } }

/-- Staged VALID and ALLOC of an allocation context. -/
def State.stagedCtx (s : State) (k : Nat) : Option (Bool × Nat) := SMap.get (fun _ => (none : (Option (Bool × Nat)))) s.cfg.stagedCtx k
/-- Writes it. -/
def State.setStagedCtx (s : State) (k : Nat) (v : (Option (Bool × Nat))) : State :=
  { s with cfg := { s.cfg with stagedCtx := SMap.set (fun _ => (none : (Option (Bool × Nat)))) s.cfg.stagedCtx k v } }

/-- Frame boundaries seen on a channel. -/
def State.bseq (s : State) (k : Nat) : Nat := SMap.get (fun _ => (0 : Nat)) s.cfg.bseq k
/-- Writes it. -/
def State.setBseq (s : State) (k : Nat) (v : Nat) : State :=
  { s with cfg := { s.cfg with bseq := SMap.set (fun _ => (0 : Nat)) s.cfg.bseq k v } }

/-- Counter of the last frame boundary of a channel. -/
def State.lastB (s : State) (k : Nat) : Nat := SMap.get (fun _ => (0 : Nat)) s.cfg.lastB k
/-- Writes it. -/
def State.setLastB (s : State) (k : Nat) (v : Nat) : State :=
  { s with cfg := { s.cfg with lastB := SMap.set (fun _ => (0 : Nat)) s.cfg.lastB k v } }

/-- Line mode scheduled for a pair. -/
def State.lineSched (s : State) (k : Nat) : Option LineMode := SMap.get (fun _ => (none : (Option LineMode))) s.pwr.sched k
/-- Writes it. -/
def State.setLineSched (s : State) (k : Nat) (v : (Option LineMode)) : State :=
  { s with pwr := { s.pwr with sched := SMap.set (fun _ => (none : (Option LineMode))) s.pwr.sched k v } }

/-- Doze of a pair by line mode. -/
def State.lineDoze (s : State) (k : Nat) : LineDoze := SMap.get (fun _ => ({} : LineDoze)) s.pwr.dozes k
/-- Writes it. -/
def State.setLineDoze (s : State) (k : Nat) (v : LineDoze) : State :=
  { s with pwr := { s.pwr with dozes := SMap.set (fun _ => ({} : LineDoze)) s.pwr.dozes k v } }

/-- FC_EFF and DUR of the sleep of a pair. -/
def State.sleepOf (s : State) (k : Nat) : Option (Nat × Nat) := SMap.get (fun _ => (none : (Option (Nat × Nat)))) s.pwr.sleep k
/-- Writes it. -/
def State.setSleepOf (s : State) (k : Nat) (v : (Option (Nat × Nat))) : State :=
  { s with pwr := { s.pwr with sleep := SMap.set (fun _ => (none : (Option (Nat × Nat)))) s.pwr.sleep k v } }

/-- Framer of a channel. -/
def State.dsfCh (s : State) (k : Nat) : DsfCh := SMap.get (fun _ => ({} : DsfCh)) s.dsf.chans k
/-- Writes it. -/
def State.setDsfCh (s : State) (k : Nat) (v : DsfCh) : State :=
  { s with dsf := { s.dsf with chans := SMap.set (fun _ => ({} : DsfCh)) s.dsf.chans k v } }

/-- Stream map entry pair × 65,536 + SID. -/
def State.streamMap (s : State) (k : Nat) : StreamEnt := SMap.get (fun _ => ({} : StreamEnt)) s.dsf.smap k
/-- Writes it. -/
def State.setStreamMap (s : State) (k : Nat) (v : StreamEnt) : State :=
  { s with dsf := { s.dsf with smap := SMap.set (fun _ => ({} : StreamEnt)) s.dsf.smap k v } }

/-- Stream context. -/
def State.streamCtx (s : State) (k : Nat) : StreamCtx := SMap.get (fun _ => ({} : StreamCtx)) s.dsf.ctxs k
/-- Writes it. -/
def State.setStreamCtx (s : State) (k : Nat) (v : StreamCtx) : State :=
  { s with dsf := { s.dsf with ctxs := SMap.set (fun _ => ({} : StreamCtx)) s.dsf.ctxs k v } }

/-- Circuit context. -/
def State.circuit (s : State) (k : Nat) : CircuitCtx := SMap.get (fun _ => ({} : CircuitCtx)) s.dsf.circuits k
/-- Writes it. -/
def State.setCircuit (s : State) (k : Nat) (v : CircuitCtx) : State :=
  { s with dsf := { s.dsf with circuits := SMap.set (fun _ => ({} : CircuitCtx)) s.dsf.circuits k v } }

/-- Overhead serial port. -/
def State.ohsPort (s : State) (k : Nat) : OhsPort := SMap.get (fun _ => ({} : OhsPort)) s.ohs k
/-- Writes it. -/
def State.setOhsPort (s : State) (k : Nat) (v : OhsPort) : State :=
  { s with ohs := SMap.set (fun _ => ({} : OhsPort)) s.ohs k v }

/-- Pipeline: 0 to 7 are DP0 to DP7, 8 to 15 are UP0 to UP7. -/
def State.pipe (s : State) (k : Nat) : Pipeline := SMap.get (fun _ => ({} : Pipeline)) s.pipes k
/-- Writes it. -/
def State.setPipe (s : State) (k : Nat) (v : Pipeline) : State :=
  { s with pipes := SMap.set (fun _ => ({} : Pipeline)) s.pipes k v }

/-- Rule. -/
def State.rule (s : State) (k : Nat) : Rule := SMap.get (fun _ => ({} : Rule)) s.cls.rules k
/-- Writes it. -/
def State.setRule (s : State) (k : Nat) (v : Rule) : State :=
  { s with cls := { s.cls with rules := SMap.set (fun _ => ({} : Rule)) s.cls.rules k v } }

/-- Action list. -/
def State.alist (s : State) (k : Nat) : ActList := SMap.get (fun _ => ({} : ActList)) s.cls.lists k
/-- Writes it. -/
def State.setAlist (s : State) (k : Nat) (v : ActList) : State :=
  { s with cls := { s.cls with lists := SMap.set (fun _ => ({} : ActList)) s.cls.lists k v } }

/-- Channel-pair group member group × 16 + slot. -/
def State.member (s : State) (k : Nat) : Member := SMap.get (fun _ => ({} : Member)) s.cls.members k
/-- Writes it. -/
def State.setMember (s : State) (k : Nat) (v : Member) : State :=
  { s with cls := { s.cls with members := SMap.set (fun _ => ({} : Member)) s.cls.members k v } }

/-- Flow entry at a place. -/
def State.flowAt (s : State) (k : Nat) : FlowEntry := SMap.get (fun _ => ({} : FlowEntry)) s.flw.entries k
/-- Writes it. -/
def State.setFlowAt (s : State) (k : Nat) (v : FlowEntry) : State :=
  { s with flw := { s.flw with entries := SMap.set (fun _ => ({} : FlowEntry)) s.flw.entries k v } }

/-- Learn filter entry. -/
def State.learnFilter (s : State) (k : Nat) : Option (Nat × Nat) := SMap.get (fun _ => (none : (Option (Nat × Nat)))) s.flw.filter k
/-- Writes it. -/
def State.setLearnFilter (s : State) (k : Nat) (v : (Option (Nat × Nat))) : State :=
  { s with flw := { s.flw with filter := SMap.set (fun _ => (none : (Option (Nat × Nat)))) s.flw.filter k v } }

/-- Delta word of a counter identifier. -/
def State.delta (s : State) (k : Nat) : Nat := SMap.get (fun _ => (0 : Nat)) s.flw.deltas k
/-- Writes it. -/
def State.setDelta (s : State) (k : Nat) (v : Nat) : State :=
  { s with flw := { s.flw with deltas := SMap.set (fun _ => (0 : Nat)) s.flw.deltas k v } }

/-- Counter identifiers of a cache set, most recently updated first. -/
def State.ways (s : State) (k : Nat) : List Nat := SMap.get (fun _ => ([] : (List Nat))) s.flw.ways k
/-- Writes it. -/
def State.setWays (s : State) (k : Nat) (v : (List Nat)) : State :=
  { s with flw := { s.flw with ways := SMap.set (fun _ => ([] : (List Nat))) s.flw.ways k v } }

/-- Speculation state of a channel. -/
def State.spcCh (s : State) (k : Nat) : SpcCh := SMap.get (fun _ => ({} : SpcCh)) s.spc k
/-- Writes it. -/
def State.setSpcCh (s : State) (k : Nat) (v : SpcCh) : State :=
  { s with spc := SMap.set (fun _ => ({} : SpcCh)) s.spc k v }

/-- Logical client port. -/
def State.macPort (s : State) (k : Nat) : MacPort := SMap.get (fun _ => ({} : MacPort)) s.mac k
/-- Writes it. -/
def State.setMacPort (s : State) (k : Nat) (v : MacPort) : State :=
  { s with mac := SMap.set (fun _ => ({} : MacPort)) s.mac k v }

/-- Line optics of a channel. -/
def State.lphCh (s : State) (k : Nat) : LphCh := SMap.get (fun _ => ({} : LphCh)) s.lph.chans k
/-- Writes it. -/
def State.setLphCh (s : State) (k : Nat) (v : LphCh) : State :=
  { s with lph := { s.lph with chans := SMap.set (fun _ => ({} : LphCh)) s.lph.chans k v } }

/-- T_rx of the last frame of a channel. -/
def State.trx (s : State) (k : Nat) : Tod := SMap.get (fun _ => (⟨0, 0⟩ : Tod)) s.tim.trx k
/-- Writes it. -/
def State.setTrx (s : State) (k : Nat) (v : Tod) : State :=
  { s with tim := { s.tim with trx := SMap.set (fun _ => (⟨0, 0⟩ : Tod)) s.tim.trx k v } }

/-- TEQ and ASYM of a pair. -/
def State.timLine (s : State) (k : Nat) : Option (Nat × Int) := SMap.get (fun _ => (none : (Option (Nat × Int)))) s.tim.line k
/-- Writes it. -/
def State.setTimLine (s : State) (k : Nat) (v : (Option (Nat × Int))) : State :=
  { s with tim := { s.tim with line := SMap.set (fun _ => (none : (Option (Nat × Int)))) s.tim.line k v } }

/-- Transmit time-stamp queue of a logical port. -/
def State.tsqOf (s : State) (k : Nat) : List TsqEntry := SMap.get (fun _ => ([] : (List TsqEntry))) s.tim.tsq k
/-- Writes it. -/
def State.setTsqOf (s : State) (k : Nat) (v : (List TsqEntry)) : State :=
  { s with tim := { s.tim with tsq := SMap.set (fun _ => ([] : (List TsqEntry))) s.tim.tsq k v } }

/-- Link group. -/
def State.casGrp (s : State) (k : Nat) : CasGrp := SMap.get (fun _ => ({} : CasGrp)) s.cas.grps k
/-- Writes it. -/
def State.setCasGrp (s : State) (k : Nat) (v : CasGrp) : State :=
  { s with cas := { s.cas with grps := SMap.set (fun _ => ({} : CasGrp)) s.cas.grps k v } }

/-- Slot group × 16 + slot of the member groups. -/
def State.casSlot (s : State) (k : Nat) : CasSlot := SMap.get (fun _ => ({} : CasSlot)) s.cas.slots k
/-- Writes it. -/
def State.setCasSlot (s : State) (k : Nat) (v : CasSlot) : State :=
  { s with cas := { s.cas with slots := SMap.set (fun _ => ({} : CasSlot)) s.cas.slots k v } }

/-- Redirect entry direction × 131,072 + leaf. -/
def State.casRedirect (s : State) (k : Nat) : CasRedirect := SMap.get (fun _ => ({} : CasRedirect)) s.cas.redirects k
/-- Writes it. -/
def State.setCasRedirect (s : State) (k : Nat) (v : CasRedirect) : State :=
  { s with cas := { s.cas with redirects := SMap.set (fun _ => ({} : CasRedirect)) s.cas.redirects k v } }

/-- Serial number that last held a member ID. -/
def State.casSerial (s : State) (k : Nat) : Option Word := SMap.get (fun _ => (none : (Option Word))) s.cas.serials k
/-- Writes it. -/
def State.setCasSerial (s : State) (k : Nat) (v : (Option Word)) : State :=
  { s with cas := { s.cas with serials := SMap.set (fun _ => (none : (Option Word))) s.cas.serials k v } }

/-- Empty intervals of a member. -/
def State.casEmpties (s : State) (k : Nat) : Nat := SMap.get (fun _ => (0 : Nat)) s.cas.empties k
/-- Writes it. -/
def State.setCasEmpties (s : State) (k : Nat) (v : Nat) : State :=
  { s with cas := { s.cas with empties := SMap.set (fun _ => (0 : Nat)) s.cas.empties k v } }

/-- Last SEQ accepted from a member. -/
def State.casLastSeq (s : State) (k : Nat) : Option Nat := SMap.get (fun _ => (none : (Option Nat))) s.cas.lastSeq k
/-- Writes it. -/
def State.setCasLastSeq (s : State) (k : Nat) (v : (Option Nat)) : State :=
  { s with cas := { s.cas with lastSeq := SMap.set (fun _ => (none : (Option Nat))) s.cas.lastSeq k v } }

end Sys2Proof.Machine
end

