-- ==== Sys2Proof/Machine/Flags.lean ====
section
/-! DEFINITION. Latching of errors at FLT: which class and record an error gets, which quiet window makes it
consequential, and the queue of reactions (R350 to R358). Every block that reports an error does so through
`fltLatch`. -/

namespace Sys2Proof.Machine

/-- CLASS as Table 16.4 codes it. -/
def classCode : ErrClass → Nat
  | .corrected => 1
  | .contained => 2
  | .fatal => 3

/-- The units of Table 16.5. -/
inductive FUnit where
  | line (k : Nat) | pipe (i : Nat) | port (p : Nat) | lane (n : Nat) | stack (n : Nat) | core (c : Nat)
  | other
  deriving DecidableEq, Repr

/-- The unit an error's source and unit number name (R350, Table 16.5). -/
def unitOf (src unit : Nat) : FUnit :=
  if src = blkLPH ∨ src = blkDSF ∨ src = blkACT ∨ src = blkUBE ∨ src = blkCHP then .line unit
  else if src = blkPRS ∨ src = blkCLS then .pipe unit
  else if src = blkMAC then .port unit
  else if src = blkCIP then .lane unit
  else if 0x2A ≤ src ∧ src ≤ 0x2D then .stack (src - 0x2A)
  else if 0x21 ≤ src ∧ src ≤ 0x28 then .core (src - 0x21)
  else .other

/-- An error of `src` and `unit` lies in the consequence set of a unit (Table 16.5). -/
def inConsequence (u : FUnit) (src unit : Nat) : Bool :=
  match u with
  | .line k =>
    ((src == blkLPH || src == blkDSF || src == blkACT || src == blkUBE || src == blkCHP) && unit == k)
      || src == blkSPC || src == blkTIM || src == blkOHS
  | .pipe i =>
    ((src == blkPRS || src == blkCLS) && unit == i)
      || src == blkFLW || src == blkSPC || src == blkSCH || src == blkCEL || src == blkCIP
  | .port p => (src == blkMAC && unit == p) || src == blkTIM || src == blkSCH || src == blkGCL
  | .lane _ => src == blkCIP
  | .stack n =>
    src == blkCEL || src == blkFLW || src == blkSCH || src == blkCLS || src == blkTSK || src == blkCIP
      || src == 0x2A + n
  | .core c => src == blkTSK || src == blkACU || src == 0x21 + c
  | .other => false

/-- The quiet window that makes an error consequential: the earliest opened one whose set contains it (R358). -/
def quietFor (s : State) (src unit : Nat) : Option QuietWin :=
  s.flt.windows.find? (fun w => w.safe || inConsequence (unitOf w.src w.unit) src unit)

/-- The configured reaction code of a class of a source (R353). -/
def reactionCode (s : State) (src : Nat) (cls : Nat) : Nat :=
  if cls = 1 then s.rd (FLT_REACT_RC src)
  else if cls = 2 then s.rd (FLT_REACT_RU src)
  else s.rd (FLT_REACT_RF src)

/-- Valid records, and whether one is fatal, as FLT_SUMMARY shows them. -/
def fltSummary (s : State) : State :=
  let recs := (List.range 64).map s.frec
  let s := s.wr FLT_SUMMARY_RECS (recs.countP (·.valid))
  s.put FLT_SUMMARY_FATAL (recs.any (fun r => r.valid && r.cls == 3))

/-- Puts a reaction in the queue: a fatal error goes ahead of every waiting reaction that is not fatal (R355). -/
def queueReaction (r : Reaction) (q : List Reaction) : List Reaction :=
  if r.cls = 3 then q.takeWhile (·.cls == 3) ++ r :: q.dropWhile (·.cls == 3) else q ++ [r]

/-- An error that a quiet window covers: counted in the record that opened it, and nothing else (R358). -/
def fltConsequential (w : QuietWin) (s : State) : State :=
  let r := s.frec w.src
  let s := s.setFrec w.src { r with conseq := satAdd 16 r.conseq 1 }
  s.inc FLT_CNT_CONSEQ

/-- With no reaction running, the first that waits starts: it runs from now on, its quiet window opens, and BUSY reads 1
(R355, R358). -/
def fltStart (s : State) : State :=
  match s.flt.running, s.flt.queue with
  | none, r :: rest =>
    let s := { s with flt := { s.flt with running := some r, queue := rest, acted := false, testing := false,
                                          windows := s.flt.windows ++ [(⟨r.src, r.unit, false, false⟩ : QuietWin)] } }
    s.put FLT_SUMMARY_BUSY true
  | _, _ => s

/-- A classified error: its status bit, its record (new, merged into the running reaction's, or counted again) and its
reaction (R350, R351, R356). -/
def fltClassified (e : ErrEvent) (s : State) : State :=
  let src := e.src.val
  let cls := classCode e.cls
  let r := s.frec src
  let s := s.setBit FLT_STATUS src
  let s := if cls = 1 then s.inc FLT_CNT_CORRECTED else s
  let react : Reaction := ⟨src, e.unit.toNat, cls, reactionCode s src cls, e.res⟩
  let push (s : State) : State := { s with flt := { s.flt with queue := queueReaction react s.flt.queue } }
  let merge := r.valid && (s.flt.running.map (·.src) == some src)
  let s :=
    if merge then
      let s := s.inc FLT_CNT_MERGED
      let s := s.setFrec src { r with count := satAdd 16 r.count 1, merged := true, cls := max r.cls cls }
      if r.cls < cls then push s else s
    else if r.valid then
      push (s.setFrec src { r with count := satAdd 16 r.count 1, cls := max r.cls cls })
    else
      push (s.setFrec src
        { valid := true, cls := cls, merged := false, inj := e.inj, verdict := 0, kind := e.kind.val, react := 0,
          unit := e.unit.toNat, count := 1, conseq := 0, synd := e.synd.toNat, addr := e.addr.toNat,
          stampS := s.tod.s % 2 ^ 16, stampNS := s.tod.ns })
  fltSummary (fltStart s)

/-- An error arrives at FLT (R350 to R358). A fatal error is never consequential; an error of the source whose reaction runs
is merged into its record (R356, Table 16.7). Entering the safe state on a fatal error
is the caller's (R360). -/
def fltLatch (e : ErrEvent) (s : State) : State :=
  let merges := (s.frec e.src.val).valid && (s.flt.running.map (·.src) == some e.src.val)
  if e.cls = .fatal || merges then fltClassified e s
  else match quietFor s e.src.val e.unit.toNat with
    | some w => fltConsequential w s
    | none => fltClassified e s

/-- A contained block event of a source and unit (KIND 4). -/
def fltEvent (src unit : Nat) (s : State) : State :=
  fltLatch { src := Fin.ofNat 64 src, unit := BitVec.ofNat 16 unit, cls := .contained, kind := 4, synd := 0,
             addr := 0, inj := false, res := .none } s

/-- A contained block event for which the spec names no unit: its UNIT is a free value. -/
def fltSourceEvent (src : Nat) (s : State) : State := fltEvent src (s.draw.1.toNat % 65536) s.draw.2

/-- A contained error at an address (KIND 3). -/
def fltAddrEvent (src unit addr : Nat) (s : State) : State :=
  fltLatch { src := Fin.ofNat 64 src, unit := BitVec.ofNat 16 unit, cls := .contained, kind := 3, synd := 0,
             addr := BitVec.ofNat 48 addr, inj := false, res := .none } s

end Sys2Proof.Machine
end

