-- ==== Sys2Proof/Machine/Ecc.lean ====
section
/-! DEFINITION. Checkers: what a check of a word finds, corrects and reports, with injection, for words of packets and of
memory (R16 to R22, R205, R359). -/

namespace Sys2Proof.Machine

/-! ### Words and their check bytes (R19, R205) -/

/-- The words of a byte string, the unused bytes of the last word 0 (R19). -/
def packetWords : Nat → Bytes → List Word
  | 0, _ => []
  | n + 1, l => if l = [] then [] else wordAt (padTo 8 (l.take 8)) 0 :: packetWords n (l.drop 8)

/-- The cells of a packet whose first byte lies at offset `start` of its first cell: 16 words of each, with the check byte of
each word (R19, R20, R205). Bytes outside the packet are 0. -/
def packetCells (start : Nat) (l : Bytes) : List (List (Word × Byte)) :=
  let n := (start + l.length + 127) / 128
  let ws := packetWords (16 * n) (padTo (128 * n) (zeros start ++ l))
  (List.range n).map (fun c => ((ws.drop (16 * c)).take 16).map (fun w => (w, checkByte w)))

/-! ### One word (R18, R359) -/

/-- The data bits that are inverted, and the check bits. -/
def flipData (f : BitVec 72) : Word := (f >>> 8).truncate 64
/-- The check bits that are inverted. -/
def flipCheck (f : BitVec 72) : Byte := f.truncate 8

/-- What a checker finds in a word written as `w` of which bits are inverted (R18). -/
def checkFlipped (w : Word) (f : BitVec 72) : Checked := checkWord (w ^^^ flipData f) (checkByte w ^^^ flipCheck f)

/-- Its syndrome. -/
def flipSyndrome (w : Word) (f : BitVec 72) : Byte := (checkByte w ^^^ flipCheck f) ^^^ checkByte (w ^^^ flipData f)

/-- Injection is armed for checker `idx` of source `src` (R359). -/
def injArmed (src idx : Nat) (s : State) : Bool := s.bit FLT_INJ_ARM && s.rd FLT_INJ_CHECKER == src * 1024 + idx

/-- The check bits that injection inverts in a word that checker `idx` of `src` checks, and the state after: a single
injection is spent (R359). -/
def injTake (src idx : Nat) (s : State) : BitVec 72 × State :=
  if injArmed src idx s then
    (BitVec.ofNat 72 (s.rd FLT_INJ_MASK), if s.bit FLT_INJ_CONT then s else s.put FLT_INJ_ARM false)
  else (0, s)

/-- A word error in the form in which FLT takes it. -/
def wordError (src unit : Nat) (cls : ErrClass) (kind : Fin 9) (synd : Byte) (addr : Nat) (inj : Bool) (res : Resource) : ErrEvent :=
  { src := Fin.ofNat 64 src, unit := BitVec.ofNat 16 unit, cls := cls, kind := kind, synd := synd,
    addr := BitVec.ofNat 48 addr, inj := inj, res := res }

/-- A checker checks a word written as `w` that holds inverted bits: the word as it leaves the checker; where it could not be
corrected, its syndrome and whether injection took part; and the state after, a corrected word reported (R18, R21, R359). -/
def checkOne (src unit idx addr : Nat) (res : Resource) (w : Word) (f : BitVec 72) (s : State) :
    Word × Option (Byte × Bool) × State :=
  let j := injTake src idx s
  let f' := f ^^^ j.1
  match checkFlipped w f' with
  | .good => (w ^^^ flipData f', none, j.2)
  | .corrected v _ => (v, none, fltLatch (wordError src unit .corrected 1 (flipSyndrome w f') addr (j.1 != 0) res) j.2)
  | .uncorrectable => (w ^^^ flipData f', some (flipSyndrome w f', j.1 != 0), j.2)

/-- Reports a word that could not be corrected, in a class (R21, Table 16.2). -/
def reportBad (src unit : Nat) (cls : ErrClass) (kind : Fin 9) (addr : Nat) (res : Resource) (b : Byte × Bool) (s : State) : State :=
  fltLatch (wordError src unit cls kind b.1 addr b.2 res) s

/-! ### Packets (R20 to R22) -/

/-- The words of a packet at a checker, in order: each is checked, and corrected before anything rewrites it (R22). Gives the
words, what was found of the first that could not be corrected, and the state after. -/
def checkRun (src unit idx : Nat) (flips : Nat → BitVec 72) : List Word → Nat → State → List Word × Option (Byte × Bool) × State
  | [], _, s => ([], none, s)
  | w :: t, n, s =>
    let r := checkOne src unit idx 0 .none w (flips n) s
    let q := checkRun src unit idx flips t (n + 1) r.2.2
    (r.1 :: q.1, r.2.1 <|> q.2.1, q.2.2)

/-- The bits inverted in word `n`. -/
def flipAt (l : List (BitVec 16 × BitVec 72)) (n : Nat) : BitVec 72 :=
  l.foldl (fun a e => if e.1.toNat = n then a ^^^ e.2 else a) 0

/-- A packet at a checker of a source: its bytes as they leave it, whether a word could not be corrected, and the state after,
in which each corrected word is reported, and the first that could not be corrected is reported as contained (R21). -/
def checkPacket (src unit : Nat) (c : Checks) (l : Bytes) (s : State) : Bytes × Bool × State :=
  if c.flips = [] ∧ ¬ injArmed src c.idx.toNat s then (l, false, s)
  else
    let r := checkRun src unit c.idx.toNat (flipAt c.flips) (packetWords l.length l) 0 s
    let t := match r.2.1 with
      | some b => reportBad src unit .contained 3 0 .none b r.2.2
      | none => r.2.2
    ((r.1.flatMap wordBytes).take l.length, r.2.1.isSome, t)

/-! ### Memory (R205, R221) -/

/-- A word of the Cellar is read and checked: an error that can be corrected is written back corrected, one that cannot is
reported as contained with its address and left; the word, whether it could not be corrected, and the state after (R221). Word
errors of the Cellar belong to CEL. -/
def readChecked (a : Nat) (s : State) : Word × Bool × State :=
  let f := s.eccOf a
  let res : Resource := .hbmRow (BitVec.ofNat 48 a)
  if f = 0 ∧ ¬ injArmed blkCEL 0 s then (s.memWord a, false, s)
  else
    let r := checkOne blkCEL (stackOf a) 0 a res (s.memWord a) f s
    match r.2.1 with
    | some b => (r.1, true, reportBad blkCEL (stackOf a) .contained 2 a res b r.2.2)
    | none => (r.1, false, r.2.2.setEcc a 0)

end Sys2Proof.Machine
end

