-- ==== Sys2Proof/Machine/CelOps.lean ====
section
/-! DEFINITION. The cell pools, leaf queues, admission, spill and return, and the Cellar's pages (R205 to R214). A leaf
queue is a list of packets; every packet lists where each of its cells lies, so head, Cellar and tail segments are
stretches of one sequence of cells (R210). -/

namespace Sys2Proof.Machine

/-- Key of a leaf queue: direction 0 downstream, 1 upstream (Table 9.6). -/
def leafKey (dir leaf : Nat) : Nat := dir * 131072 + leaf

/-- Direction of a leaf key. -/
def dirOf (key : Nat) : Nat := key / 131072

/-! ### Pools (R207) -/

/-- The pool register of a direction. -/
def poolReg (dir : Nat) : RF := if dir = 0 then CEL_POOL_DS else CEL_POOL_US

/-- The free-count register of a direction. -/
def freeReg (dir : Nat) : RF := if dir = 0 then CEL_FREE_DS else CEL_FREE_US

/-- Size of pool `p` (0 reserved, 1 shared, 2 staging) of a direction. -/
def poolSize (s : State) (dir p : Nat) : Nat :=
  fieldOf (s.reg (poolReg dir).addr) (if p = 0 then 40 else if p = 1 then 20 else 0) 20

/-- Free places of a pool. -/
def poolFree (s : State) (dir p : Nat) : Nat := poolSize s dir p - s.poolUsed (dir * 3 + p)

/-- Shows the free counts of a direction in CEL_FREE. -/
def showFree (dir : Nat) (s : State) : State :=
  s.setReg (freeReg dir).addr
    (BitVec.ofNat 64 (poolFree s dir 0 * 2 ^ 40 + poolFree s dir 1 * 2 ^ 20 + poolFree s dir 2))

/-- Takes `n` places of a pool. -/
def takePool (dir p n : Nat) (s : State) : State :=
  showFree dir (s.setPoolUsed (dir * 3 + p) (s.poolUsed (dir * 3 + p) + n))

/-- Gives `n` places back to a pool. -/
def givePool (dir p n : Nat) (s : State) : State :=
  showFree dir (s.setPoolUsed (dir * 3 + p) (s.poolUsed (dir * 3 + p) - n))

/-- The pool a place belongs to. -/
def Loc.pool : Loc → Option Nat
  | .res => some 0
  | .wres => some 0
  | .shr => some 1
  | .wshr => some 1
  | .stg => some 2
  | .wstg => some 2
  | .cel => none

/-- Cells of a list that lie in a pool. -/
def cellsIn (p : Nat) (l : List Loc) : Nat := l.countP (fun c => c.pool == some p)

/-- Cells of a list that lie on-die. -/
def cellsOnDie (l : List Loc) : Nat := l.countP (fun c => c.pool.isSome)

/-- Cells of a queue's packets, in order. -/
def LeafQ.cells (q : LeafQ) : List Loc := (q.pkts.map (·.cells)).flatten

/-- Cells of the head segment (all cells while S = 0, R210). -/
def LeafQ.headCells (q : LeafQ) : Nat := if q.s then q.head else q.cells.length

/-- Cells of the Cellar segment, pages being written among them. -/
def LeafQ.celCells (q : LeafQ) : Nat :=
  q.cells.countP (fun c => c == .cel || c == .wres || c == .wshr || c == .wstg)

/-- A place starts to be written to its page. -/
def Loc.startWrite : Loc → Loc
  | .res => .wres
  | .shr => .wshr
  | .stg => .wstg
  | l => l

/-- A place is being written. -/
def Loc.writing : Loc → Bool
  | .wres => true
  | .wshr => true
  | .wstg => true
  | _ => false

/-- Changes the cells of a queue by a function of their position in the queue. -/
def mapCells (f : Nat → Loc → Loc) : Nat → List QPkt → List QPkt
  | _, [] => []
  | n, p :: t =>
    { p with cells := (List.range p.cells.length).map (fun i => f (n + i) (p.cells.getD i .res)) }
      :: mapCells f (n + p.cells.length) t

/-- Frees the places of cells and takes them off the queue's counts (R207, R208). -/
def freeCells (key : Nat) (l : List Loc) (s : State) : State :=
  let dir := dirOf key
  let q := s.lq key
  let s := s.setLq key
    { q with q := q.q - cellsOnDie l, res := q.res - cellsIn 0 l, shr := q.shr - cellsIn 1 l,
             c := q.c - l.countP (· == .cel) }
  givePool dir 2 (cellsIn 2 l) (givePool dir 1 (cellsIn 1 l) (givePool dir 0 (cellsIn 0 l) s))

/-! ### Spill pages (R206, R211) -/

/-- GiB of firmware area of a stack. -/
def floorGib (s : State) (n : Nat) : Nat := fieldOf (s.reg CEL_FLOOR.addr) (8 * n) 8

/-- First spill page of a stack, counted in 8 KiB units from the stack's first address. -/
def firstPage (s : State) (n : Nat) : Nat := floorGib s n * 131072

/-- Spill pages of the present stacks. -/
def totalPages (s : State) : Nat :=
  ((List.range 4).map (fun n => if s.stackOk n then 4194304 - firstPage s n else 0)).sum

/-- Free spill pages: those of the spill area that are neither in use nor withdrawn. -/
def freePages (s : State) : Nat :=
  totalPages s - (s.cel.pagesUsed.filter (fun p =>
    s.stackOk (p / 4194304) && decide (firstPage s (p / 4194304) ≤ p % 4194304))).length

/-- Shows the free spill pages in CEL_STATUS. -/
def showPages (s : State) : State := s.wr CEL_STATUS_FREE_PAGES (freePages s)

/-- The lowest free page of a stack. -/
def freePageOf (s : State) (n : Nat) : Option Nat :=
  if s.stackOk n then
    ((List.range (s.cel.pagesUsed.length + 1)).map (fun i => n * 4194304 + firstPage s n + i)).find?
      (fun p => p < (n + 1) * 4194304 && !s.cel.pagesUsed.contains p)
  else none

/-- Takes a page from the stacks' free lists in rotation; a stack whose list is empty is skipped (R211). -/
def takePage (s : State) : Option (Nat × State) :=
  match (List.range 4).findSome? (fun i => (freePageOf s ((s.cel.rot + i) % 4)).map (fun p => (p, (s.cel.rot + i) % 4))) with
  | none => none
  | some (p, n) =>
    some (p, showPages { s with cel := { s.cel with pagesUsed := sortBy id (p :: s.cel.pagesUsed), rot := (n + 1) % 4 } })

/-- Gives a page back. A page of a retired row leaves the free lists for good (R223). -/
def givePage (p : Nat) (s : State) : State :=
  let bad := s.cel.retired.any (fun r => (r - 0x002000000000) / 8192 == p)
  showPages (if bad then s else { s with cel := { s.cel with pagesUsed := s.cel.pagesUsed.filter (· != p) } })

/-! ### Admission (R208, R209) -/

/-- The outcome of Table 9.3. -/
inductive Admission where
  | admitted (place : Loc) (spill : Bool)
  | dropQmax
  | dropNoSpill
  | dropNoBuf
  deriving DecidableEq, Repr

/-- The staging pool has `n` free places with at least STG/8 remaining after them. -/
def stagingHas (s : State) (dir n : Nat) : Bool :=
  n ≤ poolFree s dir 2 && poolSize s dir 2 ≤ 8 * (poolFree s dir 2 - n)

/-- Table 9.3 for a packet of `n` cells, first row that applies. α = 2^(ALPHA − 3). -/
def admission (s : State) (key n : Nat) : Admission :=
  let dir := dirOf key
  let q := s.lq key
  let p := s.profile q.prof
  if p.qmax < q.q + q.c + n then .dropQmax
  else if q.s then
    if stagingHas s dir n && decide (64 ≤ freePages s) then .admitted .stg false
    else if freePages s < 64 then .dropNoSpill else .dropNoBuf
  else if q.res + n ≤ p.minRes ∧ n ≤ poolFree s dir 0 then .admitted .res false
  else if 8 * (q.shr + n) ≤ 2 ^ p.alpha * poolFree s dir 1 ∧ n ≤ poolFree s dir 1 then .admitted .shr false
  else if q.spillEn && stagingHas s dir n then .admitted .stg true
  else .dropNoBuf

/-- S becomes 1: the first HEAD_KEEP cells form the head segment (R210). -/
def startSpill (key : Nat) (s : State) : State :=
  let q := s.lq key
  s.setLq key { q with s := true, head := min (s.profile q.prof).headKeep q.cells.length }

/-- An effect of a pass of a speculative packet is held in the record of that pass: the last record of the packet in its
pipeline's commit buffer (R198). -/
def holdEff (ch num : Nat) (e : Eff) (s : State) : State :=
  let x := s.pipe (ch / 2)
  let mine (r : HeldRec) : Bool := r.ch == ch && r.num == num
  match x.held.reverse.find? mine with
  | none => s.setPipe (ch / 2) { x with held := x.held ++ [⟨ch, num, [e]⟩] }
  | some r =>
    let after := x.held.reverse.takeWhile (fun r => !mine r)
    let before := (x.held.reverse.drop (after.length + 1)).reverse
    s.setPipe (ch / 2) { x with held := before ++ { r with effs := r.effs ++ [e] } :: after.reverse }

/-- A packet is counted in a saturating counter, at its commit where it is speculative (R198). -/
def countFor (spec : Option (Nat × Nat)) (r : RF) (s : State) : State :=
  match spec with
  | none => s.inc r
  | some (ch, num) => holdEff ch num (.cnt r.addr r.lo r.w) s

/-- The counters of a direction's drops. -/
def celCnt (dir lo : Nat) (w : Nat) : RF := ⟨(if dir = 0 then CEL_CNT_DS else CEL_CNT_US).addr, lo, w⟩

/-- Cells a packet occupies: ⌈(start offset + L) / 128⌉ with a start offset of 0 to 127, plus one for a head cell (R20, R208). -/
def cellCount (start len : Nat) (headCell : Bool) : Nat := (start % 128 + len + 127) / 128 + b2n headCell

/-- Admits a packet of `n` cells to a leaf whole, or drops it whole (R208, R209): the new state and whether it was
admitted. -/
def admitCells (key n : Nat) (p : QPkt) (s : State) : State × Bool :=
  let dir := dirOf key
  match admission s key n with
  | .dropQmax => (countFor p.spec (celCnt dir 16 16) s, false)
  | .dropNoSpill => (countFor p.spec (celCnt dir 0 16) s, false)
  | .dropNoBuf => (countFor p.spec (celCnt dir 32 32) s, false)
  | .admitted place spill =>
    let s := takePool dir ((place.pool).getD 0) n s
    let q := s.lq key
    let p := { p with cells := List.replicate n place, adm := s.ticks }
    let s := s.setLq key
      { q with pkts := q.pkts ++ [p], q := q.q + n, res := q.res + (if place = .res then n else 0),
               shr := q.shr + (if place = .shr then n else 0), keep := (s.profile q.prof).headKeep }
    let q := s.lq key
    let s := if spill || (q.spillEn && !q.s && decide ((s.profile q.prof).spillHi < q.q)) then startSpill key s else s
    (s, true)

/-! ### Spill and return (R210 to R213) -/

/-- The tail joins the head and S becomes 0 once the Cellar segment is empty with no page in flight, when a return would
otherwise be due (R212). -/
def joinTail (key : Nat) (s : State) : State :=
  let q := s.lq key
  if q.s && q.c == 0 && q.pages.isEmpty then s.setLq key { q with s := false, head := 0 } else s

/-- As `joinTail`, where the head segment holds fewer than HEAD_KEEP cells (R212). -/
def joinIfDry (key : Nat) (s : State) : State :=
  let q := s.lq key
  if q.head < q.keep then joinTail key s else s

/-! ### Requests at a stack (R215) -/

/-- Address of a full counter (R192). -/
def counterAddr (s : State) (cid : Nat) : Nat := s.rd FLW_CBASE_BASE + cid * 16

/-- The stack of a page. -/
def pageStack (no : Nat) : Nat := no / 4194304

/-- The page access that a stack serves next: the lowest class first, oldest first within a class. -/
def hbmNext (s : State) (n : Nat) : Option HbmReq :=
  let l := s.cel.waits.filter (fun r => pageStack r.page == n)
  match l.find? (·.cls == 3) with
  | some r => some r
  | none => l.head?

/-- A page access is the one that its stack serves next: no counter flush waits there, which is of a higher class. -/
def hbmTurn (s : State) (no : Nat) : Bool :=
  ((hbmNext s (pageStack no)).map (·.page) == some no)
    && !s.flw.flushing.any (fun e => stackOf (counterAddr s e.1) == pageStack no)

/-- A page access waits at its stack. -/
def hbmAsk (cls no : Nat) (s : State) : State := { s with cel := { s.cel with waits := s.cel.waits ++ [⟨cls, no⟩] } }

/-- A page access has been served. -/
def hbmServed (no : Nat) (s : State) : State :=
  { s with cel := { s.cel with waits := s.cel.waits.filter (fun r => r.page != no) } }

/-! ### What a page holds (R205, R211) -/

/-- Address of a page. -/
def pageAddr (no : Nat) : Nat := 0x002000000000 + no * 8192

/-- Word of a page: word `w` of cell `i` lies at the cell's address + 8w; the descriptors follow the 62 cells, and the two
copies of the link stand last. -/
def pageWordAt : PageWord → Nat
  | .cell i w => 16 * i.val + w.val
  | .descriptor w => 992 + w.toNat % 30
  | .link c => 1022 + c.val

/-- Cell, descriptors or link copy that a word of a page belongs to. -/
inductive PagePart where
  | cell (i : Nat)
  | descriptors
  | link (copy : Nat)
  deriving DecidableEq, Repr

/-- The part of a page that its word `n` belongs to. -/
def pagePart (n : Nat) : PagePart := if n < 992 then .cell (n / 16) else if n < 1022 then .descriptors else .link (n - 1022)

/-- Bits inverted in the words of a page: those it holds, and those met as it is read. -/
def pageFlips (s : State) (no : Nat) (l : List (PageWord × BitVec 72)) : List (Nat × BitVec 72) :=
  let w := l.map (fun e => (pageWordAt e.1, e.2))
  let held := s.ecc.filterMap (fun e =>
    if pageAddr no ≤ 8 * e.1 ∧ 8 * e.1 < pageAddr no + 8192 then some ((8 * e.1 - pageAddr no) / 8, e.2) else none)
  let ns := (held.map (·.1) ++ w.map (·.1)).eraseDups
  ns.map (fun n => (n, (held ++ w).foldl (fun a e => if e.1 = n then a ^^^ e.2 else a) 0))

/-- The words of a page are checked as it is read (R221): an error that can be corrected is reported, one that cannot is
reported with its address; the parts that could not be corrected. -/
def pageCheck (no : Nat) : List (Nat × BitVec 72) → State → List PagePart × State
  | [], s => ([], s)
  | e :: t, s =>
    let a := pageAddr no + 8 * e.1
    let res : Resource := .hbmRow (BitVec.ofNat 48 a)
    let r := checkOne blkCEL (pageStack no) 0 a res 0 e.2 s
    let s := match r.2.1 with
      | some b => reportBad blkCEL (pageStack no) .contained 2 a res b r.2.2
      | none => r.2.2
    let q := pageCheck no t s
    (if r.2.1.isSome then pagePart e.1 :: q.1 else q.1, q.2)

/-- The words of a page are written anew. -/
def pageClean (no : Nat) (s : State) : State :=
  { s with ecc := s.ecc.filter (fun e => decide (8 * e.1 < pageAddr no) || decide (pageAddr no + 8192 ≤ 8 * e.1)) }

/-- Packet and cell of the packet of each cell of a queue, in order. -/
def cellNames (l : List QPkt) : List (Nat × Nat) :=
  l.flatMap (fun p => (List.range p.cells.length).map (fun i => (p.id, i)))

/-- The spill mover writes the first 62 cells of a tail, all committed, as one page (R211). -/
def spillWrite (key : Nat) (s : State) : State :=
  let q := s.lq key
  let start := q.headCells + q.celCells
  let committed := (mapCells (fun i l => if start ≤ i ∧ i < start + 62 then .cel else l) 0 q.pkts).zip q.pkts
    |>.all (fun p => p.1.cells == p.2.cells || p.2.spec.isNone)
  if q.s && decide (start + 62 ≤ q.cells.length) && committed then
    match takePage s with
    | none => s
    | some (no, s) =>
      let linked := match q.pages.reverse with
        | [] => []
        | x :: t => (({ x with linkA := some no, linkB := some no } : Page) :: t).reverse
      hbmAsk 4 no (pageClean no (s.setLq key
        { q with pkts := mapCells (fun i l => if start ≤ i ∧ i < start + 62 then l.startWrite else l) 0 q.pkts,
                 pages := linked ++ [{ no := no, writing := true, reading := false, key := key, epoch := q.epoch,
                                       desc := ((cellNames q.pkts).drop start).take 62 }] }))
  else s

/-- Of the cells being written, those of a page become Cellar cells: 62 after `skip` others; gives the places they held. -/
def finishWrite : Nat → Nat → List QPkt → List QPkt × List Loc
  | _, _, [] => ([], [])
  | skip, n, p :: t =>
    let r := p.cells.foldl (fun (a : List Loc × List Loc × Nat × Nat) l =>
      if !l.writing then (a.1 ++ [l], a.2.1, a.2.2.1, a.2.2.2)
      else if a.2.2.1 != 0 then (a.1 ++ [l], a.2.1, a.2.2.1 - 1, a.2.2.2)
      else if a.2.2.2 != 0 then (a.1 ++ [.cel], a.2.1 ++ [l], 0, a.2.2.2 - 1)
      else (a.1 ++ [l], a.2.1, 0, 0))
      ([], [], skip, n)
    let u := finishWrite r.2.2.1 r.2.2.2 t
    ({ p with cells := r.1 } :: u.1, r.2.1 ++ u.2)

/-- A page write completes, in its turn at its stack (R215): the on-die places of its 62 cells are freed (R211). A page whose
queue was flushed meanwhile is freed (R213). -/
def spillWriteDone (key no : Nat) (s : State) : State :=
  if !hbmTurn s no then s
  else if s.cel.orphans.contains no then
    givePage no (hbmServed no { s with cel := { s.cel with orphans := s.cel.orphans.erase no } })
  else
    let q := s.lq key
    match (q.pages.filter (·.writing)).findIdx? (fun p => p.no == no) with
    | some i =>
        let r := finishWrite (62 * i) 62 q.pkts
        let s := (hbmServed no s).setLq key
          { q with pkts := r.1, pages := q.pages.map (fun p => if p.no = no then { p with writing := false } else p),
                   c := q.c + 62, q := q.q - 62, res := q.res - cellsIn 0 r.2, shr := q.shr - cellsIn 1 r.2 }
        let dir := dirOf key
        givePool dir 2 (cellsIn 2 r.2) (givePool dir 1 (cellsIn 1 r.2) (givePool dir 0 (cellsIn 0 r.2) s))
    | none => s

/-- A return is due: the head segment is empty or shorter than HEAD_KEEP with cells in the Cellar, and 62 staging places
are free (R212). HEAD_KEEP is the profile's as of the last packet admitted (R225). -/
def returnDue (s : State) (key : Nat) : Bool :=
  let q := s.lq key
  q.s && decide (0 < q.c) && decide (q.head < q.keep ∨ q.head = 0)
    && decide (62 ≤ poolFree s (dirOf key) 2)

/-- The device reads the oldest page of a queue into staging places (R212). -/
def returnRead (key : Nat) (s : State) : State :=
  let q := s.lq key
  match q.pages.find? (fun p => !p.reading) with
  | some pg =>
    if returnDue s key && !pg.writing then
      hbmAsk 3 pg.no (takePool (dirOf key) 2 62
        (s.setLq key { q with pages := q.pages.map (fun p => if p.no = pg.no then { p with reading := true } else p) }))
    else s
  | none => s

/-- Of the Cellar cells, counted from `k` on, those from `lo` up to `hi` become staging places; `poison` says which cells of
the page poison their packet. -/
def finishRead (poison : Nat → Bool) (lo hi : Nat) : Nat → List QPkt → List QPkt
  | _, [] => []
  | k, p :: t =>
    let r := p.cells.foldl (fun (a : List Loc × Nat × Bool) l =>
      if l == .cel then
        (if lo ≤ a.2.1 ∧ a.2.1 < hi then (a.1 ++ [.stg], a.2.1 + 1, a.2.2 || poison (a.2.1 - lo))
         else (a.1 ++ [l], a.2.1 + 1, a.2.2))
      else (a.1 ++ [l], a.2.1, a.2.2)) ([], k, p.poisoned)
    { p with cells := r.1, poisoned := r.2.2 } :: finishRead poison lo hi r.2.1 t

/-- The rest of the Cellar segment is lost: packets wholly in it go, packets partly in it are poisoned (R221). -/
def dropCellar (l : List QPkt) : List QPkt :=
  (l.filter (fun p => p.cells.any (· != .cel))).map (fun p =>
    if p.cells.contains .cel then { p with cells := p.cells.filter (· != .cel), poisoned := true } else p)

/-- Both copies of a page's link are lost (R221): the rest of the Cellar segment goes. Pages being read are freed as their
reads complete; the unreachable ones when the scrubber next reads them. -/
def loseCellar (key : Nat) (s : State) : State :=
  let q := s.lq key
  let gone : List Page := q.pages.filter (fun p => !p.writing)
  let s := s.setLq key
    { q with pkts := dropCellar q.pkts, c := 0, pages := q.pages.filter (·.writing), epoch := q.epoch + 1 }
  let s := { s with cel := { s.cel with lost := s.cel.lost ++ (gone.filter (fun (p : Page) => !p.reading)).map Page.no,
                                        orphans := s.cel.orphans ++ (gone.filter (fun (p : Page) => p.reading)).map Page.no } }
  (s.addTo CEL_CNT2_LOST q.c).put CEL_EVT_LOST true

/-- A return read completes, in its turn at its stack (R215): 62 cells join the end of the head segment, and the page is
freed. Every word is checked; what cannot be corrected is handled as R221 states, one bad copy of the link by the other
copy. When C reaches 0 the tail joins the head (R212). The cells of a flush are freed on arrival (R213). -/
def returnDone (key no : Nat) (flips : List (PageWord × BitVec 72)) (s : State) : State :=
  if !hbmTurn s no then s
  else if s.cel.orphans.contains no then
    givePool (dirOf key) 2 62 (givePage no (hbmServed no { s with cel := { s.cel with orphans := s.cel.orphans.erase no } }))
  else
    match (s.lq key).pages.findIdx? (fun p => p.no == no && p.reading) with
    | some i =>
        let r := pageCheck no (pageFlips s no flips) (hbmServed no s)
        let bad (j : Nat) : Bool := r.1.contains .descriptors || r.1.contains (.cell j)
        let s := pageClean no r.2
        let q := s.lq key
        let s := s.setLq key
          { q with pkts := finishRead bad (62 * i) (62 * i + 62) 0 q.pkts, pages := q.pages.filter (fun p => p.no != no),
                   head := q.head + 62, c := q.c - 62, q := q.q + 62 }
        let s := givePage no s
        joinTail key (if r.1.contains (.link 0) && r.1.contains (.link 1) then loseCellar key s else s)
    | none => s

/-! ### Taking packets from queues, and flushing -/

/-- The first packet of a queue lies wholly on-die in its head segment (R212). -/
def headOnDie (q : LeafQ) : Bool :=
  match q.pkts with
  | [] => false
  | p :: _ => decide (p.cells.length ≤ q.headCells) && p.cells.all (fun c => c.pool.isSome && !c.writing)

/-- Takes the first packet out of a queue, its places still allocated (R208). A queue that runs dry with nothing in the Cellar
has its tail joined (R212). -/
def popHead (key : Nat) (s : State) : State :=
  let q := s.lq key
  match q.pkts with
  | [] => s
  | p :: t => joinIfDry key (s.setLq key { q with pkts := t, head := if q.s then q.head - p.cells.length else 0 })

/-- Puts a packet back at the front of its queue; its cells return to the head segment (R135, R213). -/
def pushHead (key : Nat) (p : QPkt) (s : State) : State :=
  let q := s.lq key
  s.setLq key { q with pkts := p :: q.pkts, head := if q.s then q.head + p.cells.length else 0 }

/-- The packets of a queue that a flush frees: those not tentative in a burst, nor named in `keep`; a kept packet is
marked, to be freed if it is returned (R137). -/
def flushLeaf (keep : QPkt → Bool) (key : Nat) (s : State) : State × Nat × Nat :=
  let q := s.lq key
  let gone := q.pkts.filter (fun p => !keep p)
  let kept := (q.pkts.filter keep).map (fun p => { p with doomed := true })
  let cells := (gone.map (·.cells)).flatten
  let inFlight := q.pages.filter (fun p => p.writing || p.reading)
  let idle := q.pages.filter (fun p => !(p.writing || p.reading))
  let keptCells := (kept.map (fun p => p.cells.length)).sum
  let s := s.setLq key { q with pkts := kept, pages := [], head := if q.s then keptCells else 0, s := false,
                                epoch := q.epoch + 1 }
  let s := freeCells key cells s
  let s := { s with cel := { s.cel with orphans := s.cel.orphans ++ inFlight.map (·.no) } }
  let s := idle.foldl (fun s p => givePage p.no s) s
  (s, gone.length, cells.length)

end Sys2Proof.Machine
end

