-- ==== Sys2Proof/Machine/GclOps.lean ====
section
/-! DEFINITION. Gate lists in time (R242 to R247): which gates a port's lists hold at an instant, when a gate next closes,
and the change from the administrative to the operational list. Instants are nanoseconds of the TIM counter. -/

namespace Sys2Proof.Machine

/-- A gate list as one bank holds it: enabled, entries, initial gates, base time, cycle time, extension (GCL_ADMIN ff.). -/
structure GateList where
  en : Bool
  len : Nat
  init : Nat
  bt : Int
  ct : Nat
  ext : Nat
  entry : Nat → Word

/-- The list of a bank given by a reader of registers. -/
def gateList (read : Nat → Word) (p : Nat) : GateList :=
  let f (r : RF) : Nat := fieldOf (read r.addr) r.lo r.w
  { en := f (GCL_ADMIN_GATE_EN p) != 0
    len := f (GCL_ADMIN_LEN p)
    init := f (GCL_ADMIN_INIT_GATES p)
    bt := (f (GCL_ADMIN_BTS_BT_S p) : Int) * 1000000000 + f (GCL_ADMIN_BTN_BT_NS p)
    ct := f (GCL_ADMIN_CYC_CT p)
    ext := f (GCL_ADMIN_CYC_CYC_EXT p)
    entry := fun n => read (GCL_LIST p n).addr }

/-- The operational list: the active bank (R242). -/
def operList (s : State) (p : Nat) : GateList := gateList s.reg p

/-- The administrative list: the shadow bank. -/
def adminList (s : State) (p : Nat) : GateList := gateList s.shReg p

/-- The interval of entry `i`; a value below 8 takes effect as 8. -/
def GateList.interval (g : GateList) (i : Nat) : Nat := max 8 (fieldOf (g.entry i) 0 32)

/-- The gates of entry `i`. -/
def GateList.gates (g : GateList) (i : Nat) : Nat := fieldOf (g.entry i) 48 8

/-- Set-And-Hold-MAC or Set-And-Release-MAC of entry `i`; 3 acts as 0 (R246). -/
def GateList.op (g : GateList) (i : Nat) : Nat := fieldOf (g.entry i) 62 2 % 3

/-- The entry in force `t` ns after a cycle's start; past the last one its gates hold (R242). -/
def GateList.entryAt (g : GateList) (t : Nat) : Nat :=
  let r := (List.range g.len).foldl
    (fun (a : Nat × Nat) i => (a.1 + g.interval i, if a.1 ≤ t then i else a.2)) (0, 0)
  r.2

/-- The starts of the entries in a cycle, relative to its start, cut at the cycle's end. -/
def GateList.starts (g : GateList) : List Nat :=
  ((List.range g.len).foldl (fun (a : List Nat × Nat) i => (a.1 ++ [a.2], a.2 + g.interval i)) ([], 0)).1.filter
    (· < g.ct)

/-- Now, in ns. -/
def State.nowNs (s : State) : Int := s.tod.total / (2 ^ 48 : Int)

/-- The reading of an instant in ns. -/
def todOfNs (n : Int) : Tod := Tod.ofTotal (n * 2 ^ 48)

/-- The instant of a reading in ns. -/
def Tod.inNs (t : Tod) : Int := t.total / (2 ^ 48 : Int)

/-- Start of the cycle in force at `t`, and its length, of a list whose cycles run from `base`, with the extension of the
last cycle before a pending change (R243). -/
def cycleAt (g : GateList) (base : Int) (cct : Option Int) (t : Int) : Int × Nat :=
  let ct : Int := (max 1 g.ct : Nat)
  let k := (t - base) / ct
  let plain := (base + k * ct, max 1 g.ct)
  match cct with
  | none => plain
  | some c =>
    let kc := (c - base) / ct
    let remnant := (c - base) % ct
    if 0 < remnant ∧ remnant < g.ext ∧ 0 < kc ∧ kc - 1 ≤ k then
      (base + (kc - 1) * ct, max 1 g.ct + remnant.toNat)
    else plain

/-- The gates of port `p` at instant `t`: the new list from its change time on, the initial gates before it where gating
starts, the operational list otherwise, all open while gating is off (R242, R243). -/
def gatesAt (s : State) (p : Nat) (t : Int) : Nat :=
  let gp := s.gclPort p
  let g := operList s p
  let n := adminList s p
  let cct := gp.cct.map Tod.inNs
  let old : Nat :=
    if !g.en then (if cct.isSome && n.en then n.init else 0xFF)
    else
      let c := cycleAt g gp.cycStart.inNs cct t
      g.gates (g.entryAt (min (t - c.1).toNat (g.ct - 1)))
  match cct with
  | none => old
  | some c =>
    if t < c then old
    else if !n.en then 0xFF
    else n.gates (n.entryAt (((t - c) % (max 1 n.ct : Nat) : Int).toNat))

/-- Instants after `t` at which the gates of a port may change, over two cycles of each list and its change time. -/
def changePoints (s : State) (p : Nat) (t : Int) : List Int :=
  let gp := s.gclPort p
  let g := operList s p
  let n := adminList s p
  let cct := gp.cct.map Tod.inNs
  let c := cycleAt g gp.cycStart.inNs cct t
  let own := if g.en then (g.starts.map (fun (x : Nat) => c.1 + x)) ++ (g.starts.map (fun (x : Nat) => c.1 + c.2 + x)) else []
  let new := match cct with
    | none => []
    | some c => n.starts.map (fun (x : Nat) => c + x)
  (own ++ new).filter (t < ·)

/-- The instant at which gate `tc` of port `p` next closes; none: it does not (R244). -/
def gateCloses (s : State) (p tc : Nat) (t : Int) : Option Int :=
  ((changePoints s p t).filter (fun c => !(gatesAt s p c).testBit tc)).foldl
    (fun m c => match m with
      | none => some c
      | some d => some (min c d)) none

/-- Shows the gates in force, the entry and the operational length in GCL_OPER. -/
def showGates (p : Nat) (s : State) : State :=
  let g := operList s p
  let now := s.nowNs
  let c := cycleAt g (s.gclPort p).cycStart.inNs ((s.gclPort p).cct.map Tod.inNs) now
  let s' := s.wr (GCL_OPER_GATES p) (gatesAt s p now)
  let s' := s'.wr (GCL_OPER_ENTRY p) (if g.en then g.entryAt (min (now - c.1).toNat (g.ct - 1)) else 0)
  let s' := s'.wr (GCL_OPER_OPER_LEN p) (if g.en then g.len else 0)
  s'.put (GCL_OPER_RUN p) g.en

/-- The config change time of a swap with BOUNDARY = 3 requested at `now`, and whether the base time had passed (R243). -/
def changeTime (n : GateList) (now : Int) : Int × Bool :=
  if now < n.bt then (n.bt, false)
  else (n.bt + ((now - n.bt) / (max 1 n.ct : Nat) + 1) * (max 1 n.ct : Nat), true)

/-- Shows a config change time. -/
def showCct (p : Nat) (t : Tod) (s : State) : State :=
  (s.wr (GCL_CCTS_CCT_S p) t.s).wr (GCL_CCTN_CCT_NS p) t.ns

/-- A swap with BOUNDARY = 3 is requested on the bank of port `p` (R243). -/
def gclRequest (p : Nat) (s : State) : State :=
  let c := changeTime (adminList s p) s.nowNs
  let t := todOfNs c.1
  let s := s.setGclPort p { s.gclPort p with cct := some t }
  let s := if c.2 then s.put (GCL_EVT_LATE_START p) true else s
  showGates p (showCct p t s)

/-- The pending change of port `p` is withdrawn (R42, R243). -/
def gclCancel (p : Nat) (s : State) : State := showGates p (s.setGclPort p { s.gclPort p with cct := none })

/-- The banks of port `p` have swapped: the new list runs from its change time, or from now (R243). -/
def gclSwapped (p : Nat) (s : State) : State :=
  let gp := s.gclPort p
  let start := gp.cct.getD s.tod
  let s := s.setGclPort p { gp with cct := none, cycStart := start, held := [] }
  showGates p (s.put (GCL_EVT_CHANGED p) true)

/-- The counter was stepped: lists go on at the entry in force at the new time, counted from BT, and STEP is set; a change
time that has passed takes effect at the next GATE_LIST_CHANGE, with LATE_START (R247). -/
def gclStep (p : Nat) (s : State) : State :=
  let g := operList s p
  let gp := s.gclPort p
  let now := s.nowNs
  let s := if g.en then
      let ct : Int := (max 1 g.ct : Nat)
      (s.setGclPort p { gp with cycStart := todOfNs (g.bt + (now - g.bt) / ct * ct) }).put (GCL_EVT_STEP p) true
    else s
  let s := match (s.gclPort p).cct with
    | some c => if c.inNs ≤ now then s.put (GCL_EVT_LATE_START p) true else s
    | none => s
  showGates p s

/-- Service nodes whose gate was closed and now is open are no longer passed over by the guard band (R244). -/
def gateEntryStart (p : Nat) (s : State) : State :=
  let old := s.rd (GCL_OPER_GATES p)
  let s := showGates p s
  let new := s.rd (GCL_OPER_GATES p)
  let gp := s.gclPort p
  s.setGclPort p { gp with held := gp.held.filter (fun n => !(!old.testBit (s.svc n).tc && new.testBit (s.svc n).tc)) }

/-- The instants at which entries with operation `op` start: those of the operational list in the cycle in force and the
next, up to a pending change; and those of the pending list in its first two cycles (R243, R246). -/
def opStarts (s : State) (p op : Nat) : List Int :=
  let g := operList s p
  let n := adminList s p
  let cct := (s.gclPort p).cct.map Tod.inNs
  let c := cycleAt g (s.gclPort p).cycStart.inNs cct s.nowNs
  let of (l : GateList) (base : Int) : List Int :=
    (((List.range l.len).zip l.starts).filter (fun e => l.op e.1 == op)).map (fun e => base + e.2)
  let own := if g.en then of g c.1 ++ of g (c.1 + c.2) else []
  match cct with
  | none => own
  | some t => own.filter (· < t) ++ (if n.en then of n t ++ of n (t + (max 1 n.ct : Nat)) else [])

/-- An entry with operation `op` starts within `adv` ns (R246). -/
def opWithin (s : State) (p op : Nat) (adv : Nat) : Bool :=
  (opStarts s p op).any (fun t => decide (s.nowNs ≤ t ∧ t ≤ s.nowNs + adv))

end Sys2Proof.Machine
end

