-- ==== Sys2Proof/Machine/BankOps.lean ====
section
/-! DEFINITION. Configuration banks (R41 to R43). A bank is named by the address of its BLOCK_BANK register. -/

namespace Sys2Proof.Machine

/-- Block number of an address (R412). -/
def blkOf (a : Nat) : Nat := a / 0x1000000

/-- LATE, WPEND, RDSEL, ACTIVE, PENDING, CANCEL, SWAP and BOUNDARY of a BLOCK_BANK. -/
def bankLate (b : Nat) : RF := ⟨b, 9, 1⟩
/-- WPEND. -/
def bankWpend (b : Nat) : RF := ⟨b, 8, 1⟩
/-- RDSEL. -/
def bankRdsel (b : Nat) : RF := ⟨b, 7, 1⟩
/-- ACTIVE. -/
def bankActive (b : Nat) : RF := ⟨b, 6, 1⟩
/-- PENDING. -/
def bankPending (b : Nat) : RF := ⟨b, 5, 1⟩
/-- BOUNDARY. -/
def bankBoundary (b : Nat) : RF := ⟨b, 0, 3⟩

/-- The banks' blocks that have one bank for the whole block. -/
def wholeBank (blk : Nat) : Bool := blk == blkSCH || blk == blkCLS

/-- The blocks that have a bank in each sub-window. -/
def subBank (blk : Nat) : Bool :=
  blk == blkLPH || blk == blkDSF || blk == blkACT || blk == blkUBE || blk == blkGCL

/-- The bank that an address belongs to, if its block has banks. Sub-windows of channels are those of units 0 to 15, of
logical ports those of units 0 to 63. -/
def bankOf (a : Nat) : Option Nat :=
  let blk := blkOf a
  let unit := a % 0x1000000 / 0x10000
  if wholeBank blk then some (blk * 0x1000000 + 0x10)
  else if blk = blkGCL then (if unit < 64 then some (blk * 0x1000000 + unit * 0x10000 + 0x10) else none)
  else if subBank blk then (if unit < 16 then some (blk * 0x1000000 + unit * 0x10000 + 0x10) else none)
  else none

/-- Channel of a bank's sub-window. -/
def bankUnit (b : Nat) : Nat := b % 0x1000000 / 0x10000

/-- The boundary kind in force: a kind the block does not offer is treated as 0 (Table 2.6). -/
def bankKind (b n : Nat) : Nat :=
  let blk := blkOf b
  if n = 1 ∧ (blk = blkLPH ∨ blk = blkDSF ∨ blk = blkACT ∨ blk = blkUBE) then 1
  else if n = 2 ∧ blk = blkSCH then 2
  else if n = 3 ∧ blk = blkGCL then 3
  else if n = 4 ∧ blk = blkCLS then 4
  else 0

/-- Mask of the SH fields of the register at an address. -/
def shMask (a : Nat) : Nat :=
  match regRow? a with
  | none => 0
  | some r => (r.fields.filter (·.kind == .sh)).foldl (fun m f => m ||| ((2 ^ f.w - 1) * 2 ^ f.lo)) 0

/-- Addresses of a bank's listed registers, in effect or in the shadow. -/
def bankKeys (s : State) (b : Nat) : List Nat :=
  ((s.regs.map (·.1) ++ s.shadow.map (·.1)).filter (fun a => bankOf a == some b)).eraseDups

/-- The word whose masked bits come from `v` and the others from `u`. -/
def mergeMask (m : Nat) (u v : Word) : Word :=
  BitVec.ofNat 64 ((v.toNat &&& m) ||| (u.toNat &&& (2 ^ 64 - 1 - m)))

/-- Every SH field of a bank is exchanged and ACTIVE toggles (R41). -/
def exchangeBanks (b : Nat) (s : State) : State :=
  let s' := (bankKeys s b).foldl (fun t a =>
    let m := shMask a
    if m = 0 then t
    else (t.setReg a (mergeMask m (s.reg a) (s.shReg a))).setSh a (mergeMask m (s.shReg a) (s.reg a))) s
  s'.wr (bankActive b) (1 - s'.rd (bankActive b))

/-- The swap of a bank (R41): its fields change at once and the shadow copy begins. -/
def swapBank (b : Nat) (s : State) : State :=
  let s := exchangeBanks b s
  let s := s.setBank b { s.bank b with phase := .copying }
  if blkOf b = blkGCL then gclSwapped (bankUnit b) s else s

/-- The shadow has been loaded from the active bank (R41). -/
def bankCopied (b : Nat) (s : State) : State :=
  if (s.bank b).phase = .copying then
    let s' := (bankKeys s b).foldl (fun t a =>
      let m := shMask a
      if m = 0 then t else t.setSh a (mergeMask m (t.shReg a) (t.reg a))) s
    (s'.setBank b {}).put (bankPending b) false
  else s

/-- A swap is requested (R41, R43): an AT not above the last boundary's counter is late. -/
def bankRequest (b : Nat) (s : State) : State :=
  let k := bankKind b (s.rd (bankBoundary b))
  let ch := bankUnit b
  let atEn := s.bit ⟨b + 8, 48, 1⟩
  let at_ := s.rd ⟨b + 8, 0, 48⟩
  let late := k == 1 && atEn && decide (0 < s.bseq ch) && decide (at_ ≤ s.lastB ch)
  let s := s.setBank b { phase := .waiting, kind := k, atEn := atEn, at_ := at_, late := late, seq := s.bseq ch }
  let s := if k = 2 then { s with sch := { s.sch with refilled := [] } } else s
  let s := s.put (bankPending b) true
  let s := if late then s.put (bankLate b) true else s
  if k = 3 then gclRequest (bankUnit b) s else s

/-- A pending swap that has not taken place is withdrawn (R42). -/
def bankWithdraw (b : Nat) (s : State) : State :=
  if (s.bank b).phase = .waiting then
    let s := (s.setBank b {}).put (bankPending b) false
    if blkOf b = blkGCL then gclCancel (bankUnit b) s else s
  else s

/-- A write of BLOCK_BANK: RDSEL and BOUNDARY are stored, LATE and WPEND cleared where written 1, and CANCEL acts before
SWAP (R42). BOUNDARY of a request in progress is the one it was made under. -/
def bankWrite (b : Nat) (v : Word) (s : State) : State :=
  let s := s.wr (bankRdsel b) (fieldOf v 7 1)
  let s := s.wr (bankBoundary b) (fieldOf v 0 3)
  let s := if fieldOf v 9 1 = 1 then s.put (bankLate b) false else s
  let s := if fieldOf v 8 1 = 1 then s.put (bankWpend b) false else s
  let s := if fieldOf v 4 1 = 1 then bankWithdraw b s else s
  if fieldOf v 3 1 = 1 ∧ (s.bank b).phase = .idle then bankRequest b s else s

/-- A master tick has come since the swap was requested: both directions' three levels have refilled (R232, R234). -/
def masterTick (s : State) : Bool := (List.range 6).all (fun i => s.sch.refilled.contains i)

/-- The boundary that a waiting swap of kind 0, 1 or 2 waits for has come: any clock, a frame boundary of its channel after the
request, or a master tick after it (R41, R43). -/
def bankDue (s : State) (b : Nat) : Bool :=
  let k := s.bank b
  let ch := bankUnit b
  k.phase == .waiting &&
    (k.kind == 0 || (k.kind == 2 && masterTick s) ||
      (k.kind == 1 && decide (k.seq < s.bseq ch) && (k.late || !k.atEn || s.lastB ch == k.at_)))

end Sys2Proof.Machine
end

