-- ==== Sys2Proof/Machine/SchOps.lean ====
section
/-! DEFINITION. The scheduling hierarchy (R226 to R239): shapers, weighted fair queueing, eligibility and selection,
policers, and what enters and leaves leaf queues. Tokens of shapers are in 1/256 byte, of policers in 1/65,536 byte. -/

namespace Sys2Proof.Machine

/-! ### Objects -/

/-- Subscriber key of a leaf key. -/
def subKey (key : Nat) : Nat := dirOf key * 8192 + key % 131072 / 16

/-- Service node key of a leaf: its subscriber's PORT and its own class (R226). -/
def svcKey (s : State) (key : Nat) : Nat := dirOf key * 131072 + (s.sub (subKey key)).port * 16 + key % 16

/-- Port key of a service node key. -/
def portKey (svc : Nat) : Nat := dirOf svc * 8192 + svc % 131072 / 16

/-- The peak test (R233, R235). -/
def SchObj.peakOk (o : SchObj) : Bool := !o.shpEn || decide (0 ≤ o.tokP - 256 * o.pendP)

/-- Within committed (R233, R235). -/
def SchObj.committed (o : SchObj) : Bool := !o.shpEn || decide (0 ≤ o.tokC - 256 * o.pendC)

/-- One refill (R233, R234): rates and bursts written since the last one come into force, then tokens rise to at most the
burst. -/
def SchObj.refill (o : SchObj) : SchObj :=
  let r := o.next.getD o.rates
  let o := { o with rates := r, next := none }
  if o.shpEn then
    { o with tokC := min (o.tokC + r.cir) (256 * r.cbs), tokP := min (o.tokP + r.pir) (256 * r.pbs) }
  else o

/-- Adds to a list of distinct numbers. -/
def insNew (n : Nat) (l : List Nat) : List Nat := if l.contains n then l else n :: l

/-- Refills every object of a level: 0 leaves, 1 service nodes, 2 ports, of direction `dir`. -/
def refillLevel (dir lev : Nat) (s : State) : State :=
  let upd (m : SMap SchObj) (per : Nat) : SMap SchObj :=
    SMap.mapVals (fun _ => ({} : SchObj)) (fun n o => if n / per = dir then o.refill else o) m
  let s := { s with sch := { s.sch with refilled := insNew (dir * 3 + lev) s.sch.refilled } }
  { s with sch :=
      (match lev with
       | 0 => { s.sch with leaves := upd s.sch.leaves 131072 }
       | 1 => { s.sch with svcs := upd s.sch.svcs 131072 }
       | _ => { s.sch with ports := upd s.sch.ports 8192 }) }

/-! ### Weighted fair queueing (R230) -/

/-- The order of start tags: a < b when (b − a) mod 2³² < 2³¹ and they differ. -/
def tagBefore (a b : Nat) : Bool := a != b && decide ((b + 2 ^ 32 - a) % 2 ^ 32 < 2 ^ 31)

/-- The child with the smallest tag; the earliest listed on a tie. -/
def wfqPick (tag : Nat → Nat) : List Nat → Option Nat
  | [] => none
  | c :: t => match wfqPick tag t with
    | none => some c
    | some d => if tagBefore (tag d) (tag c) then some d else some c

/-- cost(len, w), rounded up. A charge may be negative (R231). -/
def wfqCost (len : Int) (w : Nat) : Int := (len * 65536 + w - 1) / (w : Int)

/-- A start tag moved on by a cost, modulo 2³². -/
def tagAfter (tag : Nat) (c : Int) : Nat := (((tag : Int) + c) % (2 ^ 32 : Int)).toNat

/-- A leaf that has become non-empty or empty takes or loses its start tag, and its service node with it (R230). -/
def leafTouch (key : Nat) (s : State) : State :=
  let full := !(s.lq key).pkts.isEmpty
  let o := s.leafObj key
  let n := svcKey s key
  if full && !o.active then
    let s := s.setLeafObj key { o with active := true, tag := (s.svc n).v }
    let sv := s.svc n
    if sv.active then s else s.setSvc n { sv with active := true, tag := (s.portObj (portKey n)).v }
  else if !full && o.active then
    let s := s.setLeafObj key { o with active := false, tag := 0 }
    if s.sch.leaves.any (fun e => e.2.active && svcKey s e.1 == n) then s
    else s.setSvc n { s.svc n with active := false, tag := 0 }
  else s

/-! ### Selection (R228, R229) -/

/-- A leaf is eligible; `skip` names leaves the Hamper passes over (R228). -/
def leafEligible (s : State) (skip : Nat → Bool) (key : Nat) : Bool :=
  let o := s.leafObj key
  let q := s.lq key
  o.en && !o.bad && (s.sub (subKey key)).en && !skip key && headOnDie q &&
    (q.pkts.head?.elim false (fun p => p.spec.isNone)) && o.peakOk

/-- Leaves of a service node that hold packets, in index order. -/
def leavesOf (s : State) (n : Nat) : List Nat :=
  (s.cel.queues.map (·.1)).filter (fun k => dirOf k == dirOf n && svcKey s k == n)

/-- The leaf a service node serves: within committed first, by start tags (R229). -/
def svcPick (s : State) (skip : Nat → Bool) (n : Nat) : Option Nat :=
  let l := (leavesOf s n).filter (leafEligible s skip)
  let c := l.filter (fun k => (s.leafObj k).committed)
  wfqPick (fun k => (s.leafObj k).tag) (if c.isEmpty then l else c)

/-- Service nodes of a port with a leaf to serve, their own peak test passed, and what else `gate` asks of them (R228). -/
def svcCandidates (s : State) (skip : Nat → Bool) (gate : Nat → QPkt → Bool) (port : Nat) : List (Nat × Nat) :=
  ((List.range 16).map (fun c => port / 8192 * 131072 + port % 8192 * 16 + c)).filterMap (fun n =>
    let o := s.svc n
    if o.en && !o.bad && o.peakOk then
      (svcPick s skip n).bind (fun k =>
        match (s.lq k).pkts with
        | [] => none
        | p :: _ => if gate n p then some (n, k) else none)
    else none)

/-- The service node and leaf that a port serves: strict priority by highest class, then within committed, then in
excess, by start tags (R229). -/
def portPick (s : State) (skip : Nat → Bool) (gate : Nat → QPkt → Bool) (port : Nat) : Option (Nat × Nat) :=
  let o := s.portObj port
  if o.en && !o.bad && o.peakOk then
    let l := svcCandidates s skip gate port
    match (l.filter (fun e => (s.svc e.1).sp)).getLast? with
    | some e => some e
    | none =>
      let c := l.filter (fun e => (s.svc e.1).committed)
      let set := if c.isEmpty then l else c
      (wfqPick (fun n => (s.svc n).tag) (set.map (·.1))).bind (fun n => set.find? (fun e => e.1 == n))
  else none

/-- The start tags of one selection of a packet charged `amount`: at the service node, and at the port unless strict
priority chose (R230). -/
def advanceTags (n key : Nat) (amount : Int) (s : State) : State :=
  let leaf := s.leafObj key
  let sv := s.svc n
  let port := portKey n
  let s := s.setLeafObj key { leaf with tag := tagAfter leaf.tag (wfqCost amount (max 1 leaf.w)) }
  let s := s.setSvc n { sv with v := leaf.tag }
  if sv.sp then s
  else
    let s := s.setPortObj port { s.portObj port with v := sv.tag }
    s.setSvc n { s.svc n with tag := tagAfter sv.tag (wfqCost amount (max 1 sv.w)) }

/-- The charge record of a selection: committed buckets are charged where the child is within committed (R229). -/
def chargeOf (s : State) (n key : Nat) (amount : Int) : Charge :=
  { leaf := key, svc := n, port := portKey n, leafC := (s.leafObj key).committed, svcC := (s.svc n).committed,
    amount := amount }

/-- Debit of an object: nothing while SHP_EN = 0 (R233). -/
def SchObj.debit (o : SchObj) (c : Bool) (amount : Int) : SchObj :=
  if o.shpEn then { o with tokC := if c then o.tokC - 256 * amount else o.tokC, tokP := o.tokP - 256 * amount } else o

/-- Tentative debit, or with a negative amount its refund (R235). -/
def SchObj.tentative (o : SchObj) (c : Bool) (amount : Int) : SchObj :=
  { o with pendC := if c then o.pendC + amount else o.pendC, pendP := o.pendP + amount }

/-- Applies a function to the three objects of a charge; a port has no committed bucket (R229). -/
def onCharge (f : SchObj → Bool → SchObj) (c : Charge) (s : State) : State :=
  let s := s.setLeafObj c.leaf (f (s.leafObj c.leaf) c.leafC)
  let s := s.setSvc c.svc (f (s.svc c.svc) c.svcC)
  s.setPortObj c.port (f (s.portObj c.port) false)

/-- Charges a downstream packet at once (R233, R235). -/
def chargeNow (c : Charge) (s : State) : State := onCharge (fun o b => o.debit b c.amount) c s

/-- Adds a charge to PEND, or takes part of it back (R235). -/
def chargePend (c : Charge) (amount : Int) (s : State) : State := onCharge (fun o b => o.tentative b amount) c s

/-- Departure: the charge leaves TOK and PEND in one clock (R235). -/
def chargeDepart (c : Charge) (s : State) : State :=
  onCharge (fun o b => (o.debit b c.amount).tentative b (-c.amount)) c s

/-- Downstream charge of a packet: L + DS_ADJ (R231). -/
def dsCharge (s : State) (len : Nat) : Int := (len : Int) + signed 8 (s.rd SCH_ADJ_DS_ADJ)

/-! ### Entering a leaf (R208, R237) -/

/-- Places a packet in a leaf: dropped and counted in LEAF_OFF where the leaf has EN = 0, otherwise by Table 9.3. -/
def enqueue (key n : Nat) (p : QPkt) (s : State) : State × Bool :=
  if (s.leafObj key).en then
    let r := admitCells key n p s
    (leafTouch key r.1, r.2)
  else (countFor p.spec (if dirOf key = 0 then SCH_CNT_LEAF_OFF_DS else SCH_CNT_LEAF_OFF_US) s, false)

/-! ### Policers (R238) -/

/-- The colours of RFC 2698 and RFC 4115. -/
inductive Colour where
  | green | yellow | red
  deriving DecidableEq, Repr

/-- Buckets refilled to a count of 256 ns periods. -/
def Policer.refill (p : Policer) (now : Nat) : Policer :=
  let n := now - p.last
  { p with tokC := min (p.tokC + n * p.rates.cir) (65536 * p.rates.cbs),
           tokP := min (p.tokP + n * p.rates.pir) (65536 * p.rates.pbs), last := max p.last now }

/-- Periods of 256 ns so far: 128 cycles of the time clock each. -/
def State.polNow (s : State) : Nat := s.ticks / 128

/-- police(p, len, in) with `hc` and `hp` bytes of debits held for it (R238, R239): the colour, and bytes taken from the two
buckets. A policer that held an uncorrectable word finds every packet red (Table 16.2). -/
def Policer.judge (p : Policer) (len hc hp : Nat) (i : Colour) : Colour × Nat × Nat :=
  let tc := p.tokC - 65536 * hc
  let tp := p.tokP - 65536 * hp
  let l := 65536 * len
  if p.bad then (.red, 0, 0)
  else if !p.en then (i, 0, 0)
  else if !p.mode then
    if i = .red ∨ tp < l then (.red, 0, 0)
    else if i = .yellow ∨ tc < l then (.yellow, 0, len)
    else (.green, len, len)
  else if i = .green ∧ l ≤ tc then (.green, len, 0)
  else if i ≠ .red ∧ l ≤ tp then (.yellow, 0, len)
  else (.red, 0, 0)

/-- Applies a debit and a red count. -/
def Policer.debit (p : Policer) (c q : Nat) (red : Bool) : Policer :=
  { p with tokC := p.tokC - 65536 * c, tokP := p.tokP - 65536 * q,
           red := if red && p.en then satAdd 32 p.red 1 else p.red }

/-- Debits a policer after refilling it. -/
def debitPolicer (n c q : Nat) (red : Bool) (s : State) : State :=
  s.setPolicer n (((s.policer n).refill s.polNow).debit c q red)

/-! ### Indirect entries (Table 10.4, R249) -/

/-- The register array SCH_IND_DATA as four words. -/
def schData (s : State) (n : Nat) : Nat := (s.reg (SCH_IND_DATA n).addr).toNat

/-- Writes the four data words. -/
def putSchData (d0 d1 d2 d3 : Nat) (s : State) : State :=
  (((s.setReg (SCH_IND_DATA 0).addr (BitVec.ofNat 64 d0)).setReg (SCH_IND_DATA 1).addr (BitVec.ofNat 64 d1)).setReg
    (SCH_IND_DATA 2).addr (BitVec.ofNat 64 d2)).setReg (SCH_IND_DATA 3).addr (BitVec.ofNat 64 d3)

/-- The data words of a leaf, service node or port; a whole number of bytes of tokens is shown. Rates written and not yet
in force are read as written. -/
def showObj (o : SchObj) (child svc : Bool) (s : State) : State :=
  let r := o.next.getD o.rates
  putSchData
    (b2n o.en * 2 ^ 63 + b2n o.shpEn * 2 ^ 62 + (if child then b2n o.active * 2 ^ 61 else 0)
      + (if svc then b2n o.sp * 2 ^ 60 + o.tc * 2 ^ 48 else 0) + (if child then o.w else 0))
    (r.cir * 2 ^ 32 + r.pir) (r.cbs * 2 ^ 24 + r.pbs)
    (unsigned 32 (o.tokC / 256) * 2 ^ 32 + unsigned 32 (o.tokP / 256)) s

/-- The object that a write of the data words makes of `o` (R234): SHP_EN going to 1 starts both buckets full under the
rates written; other rate changes wait for the next refill. -/
def objFrom (o : SchObj) (child svc : Bool) (d0 d1 d2 : Nat) : SchObj :=
  let r : Rates := { cir := d1 / 2 ^ 32, pir := d1 % 2 ^ 32, cbs := d2 / 2 ^ 24 % 2 ^ 24, pbs := d2 % 2 ^ 24 }
  let shp := d0.testBit 62
  let o := { o with en := d0.testBit 63, bad := false,
                    sp := if svc then d0.testBit 60 else o.sp, tc := if svc then d0 / 2 ^ 48 % 8 else o.tc,
                    w := if child then d0 % 65536 else o.w }
  if shp && !o.shpEn then
    { o with shpEn := true, rates := r, next := none, tokC := 256 * r.cbs, tokP := 256 * r.pbs }
  else { o with shpEn := shp, next := if r = o.rates then none else some r }

/-- A write to a leaf or service node that R234 or R249 refuses: W = 0, PIR < CIR, or PBS < CBS with SHP_EN = 1. -/
def objRefused (d0 d1 d2 : Nat) : Bool :=
  d0 % 65536 == 0 || decide (d1 % 2 ^ 32 < d1 / 2 ^ 32) ||
    (d0.testBit 62 && decide (d2 % 2 ^ 24 < d2 / 2 ^ 24 % 2 ^ 24))

end Sys2Proof.Machine
end

