-- ==== Sys2Proof/Machine/FlwOps.lean ====
section
/-! DEFINITION. The flow table, its insertion engine, learning, ageing and the flow counters (R181 to R195). A place is
bucket × 4 + slot, or 1,048,576 + stash index; a long entry is held at its even slot and takes the odd one too. -/

namespace Sys2Proof.Machine

/-! ### The device's own use of the Cellar -/

/-- A word the device reads for itself: checked as it is read (R221), 0 from an absent stack, which is reported (R216); outside
the Cellar window the spec gives no value. -/
def devRead (a : Nat) (s : State) : Word × State :=
  if inCellar a then
    if s.stackOk (stackOf a) then ((readChecked a s).1, (readChecked a s).2.2) else (0, fltAddrEvent blkCEL (stackOf a) a s)
  else s.draw

/-- Bytes the device writes for itself: discarded and reported at an absent stack (R216), nothing outside the window. -/
def devWrite (a : Nat) (b : Bytes) (s : State) : State :=
  if inCellar a then
    if s.stackOk (stackOf a) then s.setBytes a b else fltAddrEvent blkCEL (stackOf a) a s
  else s

/-! ### Counters (R192 to R195) -/

/-- First counter identifier of the counter sets. -/
def csetBase : Nat := 2097152

/-- A word of an HBM counter: one that cannot be corrected is set to 0, and the count is lost (Table 16.2). -/
def counterWord (a : Nat) (s : State) : Word × State :=
  if inCellar a && s.stackOk (stackOf a) then
    let r := readChecked a s
    if r.2.1 then (0, r.2.2.setWord a 0) else (r.1, r.2.2)
  else devRead a s

/-- Adds a delta word to its HBM counter (R194). -/
def hbmAdd (cid w : Nat) (s : State) : State :=
  let a := counterAddr s cid
  let b := counterWord a s
  let p := counterWord (a + 8) b.2
  let s := devWrite a (wordBytes (b.1 + BitVec.ofNat 64 (w % 2 ^ 40))) p.2
  devWrite (a + 8) (wordBytes (p.1 + BitVec.ofNat 64 (w / 2 ^ 40))) s

/-- Flushes a counter's delta word, and words of it evicted before (R194). -/
def flushDelta (cid : Nat) (s : State) : State :=
  let old := s.flw.flushing.filter (fun e => e.1 == cid)
  let s := { s with flw := { s.flw with flushing := s.flw.flushing.filter (fun e => e.1 != cid) } }
  let s := old.foldl (fun s e => hbmAdd cid e.2 s) s
  let w := s.delta cid
  if w = 0 then s else hbmAdd cid w (s.setDelta cid 0)

/-- The delta word has bit 39 or bit 63 set, or a word of it waits to be added (R194). -/
def flushDue (s : State) (cid : Nat) : Bool :=
  (s.delta cid).testBit 39 || (s.delta cid).testBit 63 || s.flw.flushing.any (fun e => e.1 == cid)

/-- Makes room in the cache for a flow counter: the least recently updated way is flushed and reused (R193). -/
def touchWay (cid : Nat) (s : State) : State :=
  if csetBase ≤ cid then s
  else
    let set := cid % 65536
    let w := s.ways set
    if w.contains cid then s.setWays set (cid :: w.erase cid)
    else if w.length < 15 then s.setWays set (cid :: w)
    else
      let victim := w.getLastD 0
      let s := { s with flw := { s.flw with flushing := s.flw.flushing ++ [(victim, s.delta victim)] } }
      (s.setDelta victim 0).setWays set (cid :: w.dropLast)

/-- Counts one packet of `len` bytes (R193). -/
def countFlow (cid len : Nat) (s : State) : State :=
  let s := if (s.delta cid).testBit 39 || (s.delta cid).testBit 63 then flushDelta cid s else s
  let s := touchWay cid s
  s.setDelta cid (s.delta cid + len + 2 ^ 40)

/-- Byte and packet counts of a counter: those of HBM, with its delta and what waits to be flushed of it (R195). -/
def counterValue (cid : Nat) (s : State) : Nat × Nat × State :=
  let on := s.delta cid :: (s.flw.flushing.filter (fun e => e.1 == cid)).map (·.2)
  let b := counterWord (counterAddr s cid) s
  let p := counterWord (counterAddr s cid + 8) b.2
  ((b.1.toNat + (on.map (fun w => w % 2 ^ 40)).sum) % 2 ^ 64, (p.1.toNat + (on.map (fun w => w / 2 ^ 40)).sum) % 2 ^ 64, p.2)

/-- Zeroes a counter on-die and in HBM (R191). -/
def zeroCounter (cid : Nat) (s : State) : State :=
  let s := { s with flw := { s.flw with flushing := s.flw.flushing.filter (fun e => e.1 != cid) } }
  devWrite (counterAddr s cid) (zeros 16) (s.setDelta cid 0)

/-! ### The table -/

/-- First stash place. -/
def stashBase : Nat := 1048576

/-- Seed of the hashes. -/
def hashSeed (s : State) : Nat := s.rd CLS_HASH_SEED

/-- The two candidate buckets of a key (R181). -/
def bucketsOf (s : State) (tuple : Bytes) : Nat × Nat :=
  (hash1 (hashSeed s) tuple % 2 ^ 18, hash2 (hashSeed s) tuple % 2 ^ 18)

/-- The slots of a bucket. -/
def slotsOf (b : Nat) : List Nat := (List.range 4).map (fun i => b * 4 + i)

/-- Places where a key can be: way 0, way 1, stash. -/
def placesOf (b : Nat × Nat) : List Nat :=
  slotsOf b.1 ++ slotsOf b.2 ++ (List.range 16).map (fun i => stashBase + i)

/-- The place of the entry with a key (R182). -/
def flowFind (s : State) (fmt : Nat) (tuple : Bytes) : Option Nat :=
  (placesOf (bucketsOf s tuple)).find? (fun p =>
    let e := s.flowAt p
    e.valid && e.fmt == fmt && e.tuple == tuple)

/-- The entry that holds a counter index. -/
def flowByCidx (s : State) (c : Nat) : Option Nat :=
  (s.flw.entries.find? (fun e => e.2.valid && e.2.cidx == c)).map (·.1)

/-- A slot holds neither an entry nor the tail of one, and its bucket does not count as full (Table 16.6). -/
def slotFree (s : State) (p : Nat) : Bool :=
  !(decide (p < stashBase) && s.flw.full.contains (p / 4)) && !(s.flowAt p).valid && !(p % 2 == 1 && (s.flowAt (p - 1)).valid && (s.flowAt (p - 1)).fmt == 2)

/-- A slot holds a short entry. -/
def slotShort (s : State) (p : Nat) : Bool := (s.flowAt p).valid && (s.flowAt p).fmt != 2

/-- The lowest free place for a short or long entry in a bucket (R186). -/
def freeIn (s : State) (long : Bool) (b : Nat) : Option Nat :=
  if long then [b * 4, b * 4 + 2].find? (fun p => slotFree s p && slotFree s (p + 1))
  else (slotsOf b).find? (slotFree s)

/-- The other bucket of the entry at place `p`. -/
def altBucket (s : State) (p : Nat) : Nat :=
  let b := bucketsOf s (s.flowAt p).tuple
  if p / 4 = b.1 then b.2 else b.1

/-- A displacement chain that empties slot `v` (R186): its moves in the order they are made, and the pointer after it.
`used` holds places already taken by this insertion. -/
def chainFor (s : State) (used : List Nat) : Nat → Nat → Nat → Option (List (Nat × Nat) × Nat)
  | 0, _, _ => none
  | fuel + 1, ptr, v =>
    let b := altBucket s v
    match (slotsOf b).find? (fun p => slotFree s p && !used.contains p) with
    | some p => some ([(v, p)], ptr)
    | none =>
      match ((List.range 4).map (fun i => b * 4 + (ptr + i) % 4)).find? (fun p => slotShort s p && !used.contains p && p != v) with
      | some w =>
        (chainFor s (w :: v :: used) fuel (w + 1) w).map (fun r => (r.1 ++ [(v, w)], r.2))
      | none => none

/-- A chain that makes room for a short entry in bucket `b`. -/
def shortChain (s : State) (kicks ptr b : Nat) : Option (List (Nat × Nat) × Nat × Nat) :=
  (((List.range 4).map (fun i => b * 4 + (ptr + i) % 4)).find? (slotShort s)).bind (fun v =>
    (chainFor s [v] kicks (v + 1) v).map (fun r => (r.1, r.2, v)))

/-- The chains that make room for a long entry in bucket `b`: a pair that holds only short entries (R186). -/
def longChain (s : State) (kicks ptr b : Nat) : Option (List (Nat × Nat) × Nat × Nat) :=
  (((List.range 2).map (fun i => b * 4 + 2 * ((ptr / 2 + i) % 2))).find? (fun p =>
      (slotFree s p || slotShort s p) && (slotFree s (p + 1) || slotShort s (p + 1)))).bind (fun p =>
    let vs := [p, p + 1].filter (slotShort s)
    (vs.foldl (fun (a : Option (List (Nat × Nat) × Nat)) v =>
      a.bind (fun a =>
        (chainFor s ([p, p + 1] ++ (a.1.map (·.1)) ++ (a.1.map (·.2))) (kicks - a.1.length) a.2 v).map (fun r =>
          (a.1 ++ r.1, r.2)))) (some ([], ptr))).map (fun r => (r.1, r.2, p)))

/-- The search of an insertion (R186, R188): moves and place; no place means the stash. Gives the new pointer too. -/
def flowSearch (s : State) (e : FlowEntry) : InsPlan × Nat :=
  let long := e.fmt == 2
  let b := bucketsOf s e.tuple
  let kicks := s.rd FLW_CFG_MAX_KICK
  match freeIn s long b.1, freeIn s long b.2 with
  | some p, _ => (⟨e, [], some p⟩, s.flw.victim)
  | none, some p => (⟨e, [], some p⟩, s.flw.victim)
  | none, none =>
    let try_ (b : Nat) := if long then longChain s kicks s.flw.victim b else shortChain s kicks s.flw.victim b
    match try_ b.1, try_ b.2 with
    | some r, _ => (⟨e, r.1, some r.2.2⟩, r.2.1 % 4)
    | none, some r => (⟨e, r.1, some r.2.2⟩, r.2.1 % 4)
    | none, none => (⟨e, [], none⟩, s.flw.victim)

/-- The moves of a plan, each written before its old place is cleared (R187). -/
def makeMoves (l : List (Nat × Nat)) (s : State) : State :=
  l.foldl (fun s m =>
    let e := s.flowAt m.1
    if e.valid then (s.setFlowAt m.2 e).setFlowAt m.1 {} else s) s

/-- Shows entries, stash places and learn queue depth in FLW_STATUS. -/
def showFlw (s : State) : State :=
  let s := s.wr FLW_STATUS_ENTRIES (s.flw.entries.countP (fun e => e.2.valid))
  let s := s.wr FLW_STATUS_STASH (s.flw.entries.countP (fun e => e.2.valid && decide (stashBase ≤ e.1)))
  s.wr FLW_STATUS_LQ s.flw.learnQ.length

/-- The first value of 0 to n − 1, from a free one on and round, that is not in a list. -/
def freeFrom (n v : Nat) (used : List Nat) : Option Nat :=
  ((List.range n).map (fun i => (v + i) % n)).find? (fun c => !used.contains c)

/-- A free CIDX: which of the free ones is left open (R188). Held ones are not free (R191). -/
def takeCidx (s : State) : Option Nat × State :=
  let d := s.draw
  let used := (s.flw.entries.filter (fun e => e.2.valid)).map (fun e => e.2.cidx) ++ s.flw.held.map (fun h => h.entry.cidx)
  (freeFrom 1048576 d.1.toNat used, d.2)

/-- Where an insertion puts its entry: the plan's place, else a free slot of the stash, any of them (R188). -/
def insSpot (p : InsPlan) (s : State) : Option Nat :=
  match p.place with
  | some x => some x
  | none =>
    (freeFrom 16 s.draw.1.toNat ((List.range 16).filter (fun i => (s.flowAt (stashBase + i)).valid))).map (stashBase + ·)

/-- The entry in its place under the CIDX taken, with the tick `now`; without a CIDX the insertion counts as full (R187,
R188). -/
def flowFill (p : InsPlan) (x now : Nat) (c : Option Nat × State) : Option Nat × State :=
  match c.1 with
  | none => (none, c.2.inc FLW_CNT0_INS_FULL)
  | some cidx => (some x, showFlw (c.2.setFlowAt x { p.entry with valid := true, cidx := cidx, age := now }))

/-- Ends an insertion (R187, R188): moves, the entry in its place or the stash with a CIDX and the tick; none: full. -/
def flowPlace (p : InsPlan) (s : State) : Option Nat × State :=
  let s := makeMoves p.moves s
  let place := insSpot p s
  let s := if p.place.isNone then s.draw.2 else s
  match place with
  | none => (none, s.inc FLW_CNT0_INS_FULL)
  | some x => flowFill p x s.flw.now (takeCidx s)

/-- Deletes the entry at a place: later lookups miss, its CIDX is held (R191). -/
def flowDelete (p : Nat) (aged : Bool) (s : State) : State :=
  let e := s.flowAt p
  if e.valid then
    let s := s.setFlowAt p {}
    showFlw { s with flw := { s.flw with held := s.flw.held ++ [⟨e, aged⟩] } }
  else s

/-- A learn request (R189): suppressed by the filter, or queued for the engine; true where it goes to the slow path. -/
def learnRequest (r : LearnReq) (s : State) : State × Bool :=
  let i := r.h1 % 4096
  let hit := match s.learnFilter i with
    | some f => f.1 == r.h2 && decide (s.ticks - f.2 ≤ s.rd FLW_CFG_LEARN_HOLD * 500000)
    | none => false
  if hit then (s.inc FLW_CNT1_LEARN_SUP, false)
  else
    let s := s.setLearnFilter i (some (r.h2, s.ticks))
    if s.bit FLW_CFG_HW_LEARN then
      if s.flw.learnQ.length < 256 then
        (showFlw { s with flw := { s.flw with learnQ := s.flw.learnQ ++ [r] } }, false)
      else (s.inc FLW_CNT0_LEARN_DROP, false)
    else (s, true)

/-- The ager deletes this entry (R190). -/
def agesOut (s : State) (e : FlowEntry) : Bool :=
  let fin := (e.flgLo ||| e.flgHi).testBit 2 || (e.flgLo.testBit 0 && e.flgHi.testBit 0)
  let lim := if fin then s.rd FLW_AGE_AGE_FIN else s.rd FLW_AGE_AGE_MAX
  e.valid && !e.static && decide (lim < (s.flw.now + 65536 - e.age) % 65536)

/-- References to an action list by valid rules and flow entries (R177, R185). -/
def listRefs (s : State) (n : Nat) : Nat :=
  s.cls.rules.countP (fun r => r.2.valid && r.2.alist == n) +
    s.flw.entries.countP (fun e => e.2.valid && n != 0x3FFF && (e.2.alistLo == n || e.2.alistHi == n))

/-- A list named by a flow entry is defined: 0x3FFF, or a list that has been written (R185). -/
def listOk (s : State) (n : Nat) : Bool := n == 0x3FFF || (s.alist n).defined

/-! ### Entry words (Table 8.1) -/

/-- The tuple that the key fields of the data words spell; formats of R182. -/
def flowTuple (fmt : Nat) (d : Nat → Word) : Bytes :=
  let f (i lo w : Nat) : Nat := fieldOf (d i) lo w
  match fmt with
  | 0 => beBytes 16 (f 1 16 48) ++ beBytes 16 (f 0 0 48) ++ beBytes 2 (f 1 0 16) ++ beBytes 2 (f 0 48 12) ++ zeros 4
  | 1 => beBytes 16 (f 1 32 32) ++ beBytes 16 (f 1 0 32) ++ beBytes 2 (f 0 32 16) ++ beBytes 2 (f 0 16 16)
      ++ [byte (f 0 48 8), 0, 0, 0]
  | _ => wordBytes (d 1) ++ wordBytes (d 2) ++ wordBytes (d 3) ++ wordBytes (d 4) ++ beBytes 2 (f 0 32 16)
      ++ beBytes 2 (f 0 16 16) ++ [byte (f 0 48 8), 0, 0, 0]

/-- The entry that data words describe; CIDX and AGE are the device's. -/
def flowFrom (d : Nat → Word) : FlowEntry :=
  let fmt := fieldOf (d 0) 61 2
  let st := if fmt = 2 then d 5 else d 2
  let fl := if fmt = 2 then d 6 else d 3
  { valid := true, fmt := fmt, static := fieldOf (d 0) 60 1 == 1, tuple := flowTuple fmt d,
    alistLo := fieldOf st 50 14, alistHi := fieldOf st 36 14, cidx := fieldOf st 16 20, age := fieldOf st 0 16,
    flgLo := fieldOf fl 56 8, flgHi := fieldOf fl 48 8, user := fieldOf fl 0 32 }

/-- The data words of an entry. -/
def flowWords (e : FlowEntry) : List Nat :=
  let t (o n : Nat) : Nat := beAt e.tuple o n
  let w0 := 2 ^ 63 * b2n e.valid + 2 ^ 61 * e.fmt + 2 ^ 60 * b2n e.static
  let st := 2 ^ 50 * e.alistLo + 2 ^ 36 * e.alistHi + 2 ^ 16 * e.cidx + e.age
  let fl := 2 ^ 56 * e.flgLo + 2 ^ 48 * e.flgHi + e.user
  match e.fmt with
  | 0 => [w0 + 2 ^ 48 * (t 34 2 % 4096) + t 26 6, 2 ^ 16 * t 10 6 + t 32 2, st, fl, 0, 0, 0, 0]
  | 1 => [w0 + 2 ^ 48 * t 36 1 + 2 ^ 32 * t 32 2 + 2 ^ 16 * t 34 2, 2 ^ 32 * t 12 4 + t 28 4, st, fl, 0, 0, 0, 0]
  | _ => [w0 + 2 ^ 48 * t 36 1 + 2 ^ 32 * t 32 2 + 2 ^ 16 * t 34 2, t 0 8, t 8 8, t 16 8, t 24 8, st, fl, 0]

/-- The data words of FLW_IND_DATA. -/
def flwData (s : State) (n : Nat) : Word := s.reg (FLW_IND_DATA n).addr

/-- Shows an entry in FLW_IND_DATA and its place in LOC. -/
def showFlow (p : Nat) (s : State) : State :=
  let w := flowWords (s.flowAt p)
  let s := (List.range 8).foldl (fun s i => s.setReg (FLW_IND_DATA i).addr (BitVec.ofNat 64 (w.getD i 0))) s
  s.wr FLW_IND_CMD_LOC p

/-- Ends an operation with a STATUS. -/
def flwStatus (n : Nat) (s : State) : State :=
  let s := (s.wr FLW_IND_CMD_STATUS n).put FLW_IND_CMD_GO false
  s.put FLW_IND_CMD_ERR (n != 0 || s.bit FLW_IND_CMD_ERR)

end Sys2Proof.Machine
end

