-- ==== Sys2Proof/Machine/HbmOps.lean ====
section
/-! DEFINITION. The HBM stacks: boot training, retraining, scrubbing and row repair (R216 to R223). -/

namespace Sys2Proof.Machine

/-! ### Training (R216, R217, Table 9.5) -/

/-- First address of a stack (Table 9.1). -/
def stackBase (n : Nat) : Nat := 0x002000000000 + n * 0x000800000000

/-- Source of a stack's own errors (Table 16.1). -/
def stackSrc (n : Nat) : Nat := 0x2A + n

/-- A stack is STAMPED with two conditions. -/
def stackStamp (n : Nat) (t duty : Int) (s : State) : State :=
  let s := (s.wr (CEL_TRAIN_T n) (unsigned 16 t)).wr (CEL_TRAIN_DUTY n) (unsigned 8 duty)
  let s := s.wr (CEL_TRAIN_STATE n) 1
  s.setStack n { s.stack n with stampAt := s.ticks, steps := 0, restarts := 0 }

/-- The words of a stack read 0 (R406). -/
def zeroStack (n : Nat) (s : State) : State :=
  { s with mem := s.mem.filter (fun e => !(inCellar e.1 && stackOf e.1 == n)),
           ecc := s.ecc.filter (fun e => !(inCellar (8 * e.1) && stackOf (8 * e.1) == n)) }

/-- Boot training of a stack: the attempt that passed, 1 to 3, or 0 where all three failed and the stack is absent (R216). -/
def bootTrain (n tries : Nat) (t duty : Int) (s : State) : State :=
  if s.cfg.boot ≠ .copyChosen ∨ s.rd (CEL_TRAIN_STATE n) ≠ 0 ∨ s.stackOk n then s
  else if 1 ≤ tries ∧ tries ≤ 3 then
    showPages (stackStamp n t duty (zeroStack n (s.setBit CEL_STATUS_STK_OK n)))
  else fltEvent (stackSrc n) n (showPages (s.put CEL_EVT_STK_FAIL true))

/-- A condition lies outside its window around a value (CEL_TRAIN_WIN). -/
def stackOut (s : State) (t0 d0 t d : Int) : Bool :=
  decide (s.rd CEL_TRAIN_WIN_DT < (t - t0).natAbs) || decide (s.rd CEL_TRAIN_WIN_DD < (d - d0).natAbs)

/-- All steps of a retrain are complete, or it ends with the values reached (Table 9.5). -/
def retrainEnds (n : Nat) (t duty : Int) (s : State) : State :=
  let s := (stackStamp n t duty s).inc (CEL_TRAIN_RETRAINS n)
  s.setStack n { s.stack n with selfRefresh := false }

/-- The 1 ms comparison of a stack's conditions (R217, Table 9.5). -/
def stackCheck (n : Nat) (t duty : Int) (s : State) : State :=
  let x := s.stack n
  let st := s.rd (CEL_TRAIN_STATE n)
  let period := s.rd CEL_TRAIN_WIN_PERIOD
  if st = 1 then
    if stackOut s (signed 16 (s.rd (CEL_TRAIN_T n))) (s.rd (CEL_TRAIN_DUTY n) : Nat) t duty ||
        (period != 0 && decide (period * 500000000 ≤ s.ticks - x.stampAt)) then s.wr (CEL_TRAIN_STATE n) 2
    else s
  else if st = 3 ∧ stackOut s x.startT (x.startD : Nat) t duty then
    if 3 ≤ x.restarts then (retrainEnds n t duty s).setBit CEL_TRAIN_CTL_UNST n
    else s.setStack n { x with startT := t, startD := duty.toNat, steps := 0, restarts := x.restarts + 1 }
  else s

/-- With no stack retraining, the lowest DRIFTED stack starts (R217): its conditions are recorded. -/
def retrainStart (t duty : Int) (s : State) : State :=
  let st (n : Nat) : Nat := s.rd (CEL_TRAIN_STATE n)
  if (List.range 4).any (fun n => st n == 3) then s
  else match (List.range 4).find? (fun n => st n == 2) with
    | none => s
    | some n =>
      (s.wr (CEL_TRAIN_STATE n) 3).setStack n { s.stack n with startT := t, startD := duty.toNat, steps := 0, restarts := 0 }

/-- One of the 512 steps of a retrain (R219). -/
def retrainStep (n : Nat) (s : State) : State :=
  let x := s.stack n
  if s.rd (CEL_TRAIN_STATE n) = 3 ∧ x.steps < 512 then s.setStack n { x with steps := x.steps + 1 } else s

/-- All 512 steps are complete (R217). -/
def retrainDone (n : Nat) (t duty : Int) (s : State) : State :=
  if s.rd (CEL_TRAIN_STATE n) = 3 ∧ (s.stack n).steps = 512 then retrainEnds n t duty s else s

/-- Read capture takes a majority of three samples and the refresh interval is halved (R218). -/
def stackWide (s : State) (n : Nat) : Bool := s.rd (CEL_TRAIN_STATE n) == 2 || s.rd (CEL_TRAIN_STATE n) == 3

/-! ### Scrubbing (R222) -/

/-- Words of 8 bytes in a stack. -/
def stackWords : Nat := 0x000800000000 / 8

/-- Words of present stacks below a word. -/
def scrubbed (s : State) (w : Nat) : Nat :=
  ((List.range 4).map (fun n =>
    if s.stackOk n then min stackWords (w - n * stackWords) else 0)).sum

/-- A write-back that waits is made, unless the word has been written since it was read (R222). -/
def scrubWriteBack (s : State) : State :=
  match s.cel.scrubBack with
  | none => s
  | some (a, f) =>
    let s := { s with cel := { s.cel with scrubBack := none } }
    if s.eccOf a = f then s.setEcc a 0 else s

/-- The scrubber reads word `w` of the Cellar, which holds the inverted bits `flip` beside those it is known to hold: a single
inverted bit is reported and waits for its write-back; what cannot be corrected is reported with its address and left (R222). A
lost page is freed when it is read (R221). -/
def scrubWordAt (w : Nat) (flip : BitVec 72) (s : State) : State :=
  let n := w / stackWords
  let a := 0x002000000000 + 8 * w
  let f := s.eccOf a ^^^ flip
  let res : Resource := .hbmRow (BitVec.ofNat 48 a)
  let r := checkOne blkCEL n 0 a res (s.memWord a) f (s.setEcc a f)
  let s := match r.2.1 with
    | some b => reportBad blkCEL n .contained 2 a res b r.2.2
    | none => if f = 0 then r.2.2 else { r.2.2 with cel := { r.2.2.cel with scrubBack := some (a, f) } }
  let page := 8 * w / 8192
  let s := if s.cel.lost.contains page then
      givePage page { s with cel := { s.cel with lost := s.cel.lost.filter (· != page) } }
    else s
  let s := { s with cel := { s.cel with scrubWord := (w + 1) % (4 * stackWords) } }
  s.wr CEL_SCRUB_PROG (if w + 1 = 4 * stackWords then 0 else scrubbed s (w + 1) * 8 / 1048576)

/-- A request of a higher class waits at a stack, so that the scrubber waits there (R215). -/
def stackBusy (s : State) (n : Nat) : Bool :=
  s.cel.waits.any (fun r => pageStack r.page == n) || s.flw.flushing.any (fun e => stackOf (counterAddr s e.1) == n)

/-- The scrubber's turn (R222): the write-back that waits, then its next word in a present stack. -/
def scrubRead (flip : BitVec 72) (s : State) : State :=
  let present (w : Nat) : Bool := s.stackOk (w / stackWords)
  if !(s.runs blkCEL && s.bit CEL_SCRUB_EN) then s
  else match [s.cel.scrubWord, (s.cel.scrubWord / stackWords + 1) * stackWords, (s.cel.scrubWord / stackWords + 2) * stackWords,
      (s.cel.scrubWord / stackWords + 3) * stackWords, 0, stackWords, 2 * stackWords, 3 * stackWords].find?
        (fun w => decide (w < 4 * stackWords) && present w) with
    | none => s
    | some w => if stackBusy s (w / stackWords) then s else scrubWordAt w flip (scrubWriteBack s)

/-! ### Row repair (R223) -/

/-- First address of the 1 KiB row of an address. -/
def rowOf (a : Nat) : Nat := a / 1024 * 1024

/-- Shows the fences in use. -/
def showFences (s : State) : State := s.wr CEL_REPAIR_FENCED s.cel.fences.length

/-- The row is copied to its fence buffer, and what can be corrected is corrected: single inverted bits go (R223). -/
def correctRow (r : Nat) (s : State) : State :=
  { s with ecc := s.ecc.filter (fun e =>
      !(decide (r ≤ 8 * e.1 ∧ 8 * e.1 < r + 1024) && (match checkFlipped (s.memWord (8 * e.1)) e.2 with
        | .corrected _ _ => true
        | _ => false))) }

/-- A row self-test is ordered: the row is fenced, or the test waits for one of the 8 fences. -/
def rowTest (a : Nat) (s : State) : State :=
  let r := rowOf a
  if !inCellar a ∨ s.cel.fences.any (fun f => f.1 == r) ∨ s.cel.fenceWait.contains r then s
  else if s.cel.fences.length < 8 then
    correctRow r (showFences { s with cel := { s.cel with fences := s.cel.fences ++ [(r, false)] } })
  else { s with cel := { s.cel with fenceWait := s.cel.fenceWait ++ [r] } }

/-- A fence is released, and a waiting test takes it. -/
def fenceFree (r : Nat) (s : State) : State :=
  let left := s.cel.fences.filter (fun f => f.1 != r)
  match s.cel.fenceWait with
  | [] => showFences { s with cel := { s.cel with fences := left } }
  | w :: rest => correctRow w (showFences { s with cel := { s.cel with fences := left ++ [(w, false)], fenceWait := rest } })

/-- The row's address and the outcome of its test are shown. -/
def rowResult (r result : Nat) (s : State) : State := (s.wr CEL_REPAIR_ADDR r).wr CEL_REPAIR_RESULT result

/-- The row lies in the spill area (R206). -/
def inSpill (s : State) (a : Nat) : Bool := decide (firstPage s (stackOf a) * 8192 ≤ a - stackBase (stackOf a))

/-- A row is withdrawn: its page leaves the free lists for good. -/
def retireRow (r : Nat) (s : State) : State :=
  let p := (r - 0x002000000000) / 8192
  let s := { s with cel := { s.cel with retired := sortBy id (r :: s.cel.retired) } }
  if inSpill s r ∧ ¬ s.cel.pagesUsed.contains p then
    showPages { s with cel := { s.cel with pagesUsed := sortBy id (p :: s.cel.pagesUsed) } }
  else s

/-- The test of a fenced row ends: it passed, or failed with or without a spare row left in the stack. Gives the verdict as
Table 16.4 codes it: 2 transient, 3 repaired, 4 lasting not repaired. -/
def rowTestDone (a : Nat) (pass spare : Bool) (s : State) : State × Option Nat :=
  let r := rowOf a
  if !s.cel.fences.contains (r, false) then (s, none)
  else if pass then (fenceFree r (rowResult r 1 s), some 2)
  else if spare then (fenceFree r (rowResult r 2 s), some 3)
  else
    let s := s.put CEL_EVT_REP_NONE true
    if s.cel.retired.length < 1024 then
      let s := retireRow r (rowResult r 3 s)
      if inSpill s r then (fenceFree r s, some 4)
      else
        (showFences { s with cel := { s.cel with fences := s.cel.fences.map (fun f => if f.1 = r then (r, true) else f) } },
          some 4)
    else
      let d := s.draw
      (fenceFree r (rowResult r (d.1.toNat % 4) d.2), some 4)

end Sys2Proof.Machine
end

