-- ==== Sys2Proof/Machine/CasLine.lean ====
section
/-! DEFINITION. The coding of Tureel lanes: scrambling, stuffing, commas, striping over the lanes of a link group (R367, R368). -/

namespace Sys2Proof.Machine

/-! ### Bits -/

/-- The bits of a byte, most significant first (R3). -/
def byteBits (b : Byte) : List Bool := (List.range 8).map (fun i => b.getLsbD (7 - i))

/-- Eight bits as a byte, most significant first; missing bits are 0. -/
def bitsByte (l : List Bool) : Byte := BitVec.ofNat 8 ((List.range 8).foldl (fun n i => 2 * n + b2n (l.getD i false)) 0)

/-- The bytes of `n` times eight bits. -/
def bitsBytes : Nat → List Bool → Bytes
  | 0, _ => []
  | n + 1, l => bitsByte (l.take 8) :: bitsBytes n (l.drop 8)

/-! ### One lane (R367) -/

/-- A line bit counts in the run of identical bits. -/
def CasLane.count (x : CasLane) (b : Bool) : CasLane := { x with run := if b = x.last then x.run + 1 else 1, last := b }

/-- What the scrambler adds to the next data bit. -/
def CasLane.mask (x : CasLane) : Bool := x.scr.getLsbD 38 ^^ x.scr.getLsbD 57

/-- A data bit of the line enters the scrambler's register, and counts in the run. -/
def CasLane.push (x : CasLane) (b : Bool) : CasLane := { x.count b with scr := (x.scr <<< 1) ||| BitVec.ofNat 58 (b2n b) }

/-- Data bits as the lane sends them: each scrambled, with the complement of a run of 31 put before the bit that follows it. -/
def laneSend : CasLane → List Bool → List Bool × CasLane
  | x, [] => ([], x)
  | x, d :: t =>
    let stuff := x.run == 31
    let y := if stuff then x.count (!x.last) else x
    let b := d ^^ y.mask
    let r := laneSend (y.push b) t
    ((if stuff then [!x.last] else []) ++ b :: r.1, r.2)

/-- The next `n` data bits of a lane's line bits: the bit after a run of 31 is removed, the others are descrambled; the lane after
them, and the line bits left. Line bits that are missing read as 0. -/
def laneTake : Nat → CasLane → List Bool → List Bool × CasLane × List Bool
  | 0, x, l => ([], x, l)
  | n + 1, x, l =>
    let stuff := x.run == 31
    let y := if stuff then x.count (l.headD false) else x
    let l := if stuff then l.drop 1 else l
    let b := l.headD false
    let r := laneTake n (y.push b) (l.drop 1)
    ((b ^^ y.mask) :: r.1, r.2)

/-- A comma. -/
def commaBits : List Bool := List.replicate 36 true ++ List.replicate 4 false

/-- Bits of a comma count in the run, and enter neither scrambler nor stuffing. -/
def CasLane.comma (x : CasLane) (l : List Bool) : CasLane := (l.take 40).foldl CasLane.count x

/-! ### A link group (R368, R369) -/

/-- Group blocks of a comma period on `n` lanes: commas come before block 0 of each. -/
def commaPeriod (n : Nat) : Nat := 2048 * n

/-- The lane of group block `i`. -/
def laneOf (n i : Nat) : Nat := i % n

/-- Of the 32 blocks of a container that starts at group block `i`, those that lane `j` of `n` carries. -/
def laneBlocks (n i j : Nat) : List Nat := (List.range 32).filter (fun m => laneOf n (i + m) == j)

/-- The data bits of a container that lane `j` carries. -/
def laneData (n i j : Nat) (c : Bytes) : List Bool :=
  (laneBlocks n i j).flatMap (fun m => (slice c (8 * m) 8).flatMap byteBits)

/-- A container as the lanes send it: the line bits of each lane, the lanes after it, the group block that comes next. Where a comma
period has ended, every lane sends its comma first. -/
def groupSend (lanes : List CasLane) (i : Nat) (c : Bytes) : List (List Bool) × List CasLane × Nat :=
  let n := lanes.length
  let due := decide (commaPeriod n ≤ i)
  let i := if due then 0 else i
  let r := lanes.zipIdx.map (fun (e : CasLane × Nat) =>
    let q := laneSend (if due then e.1.comma commaBits else e.1) (laneData n i e.2 c)
    ((if due then commaBits else []) ++ q.1, q.2))
  (r.map (·.1), r.map (·.2), i + 32)

/-- Containers one after the other. -/
def groupSendAll (lanes : List CasLane) (i : Nat) (l : List Bytes) : List (List Bool) × List CasLane × Nat :=
  l.foldl (fun (a : List (List Bool) × List CasLane × Nat) c =>
    let r := groupSend a.2.1 a.2.2 c
    ((a.1.zip r.1).map (fun e => e.1 ++ e.2), r.2.1, r.2.2)) (lanes.map (fun _ => []), lanes, i)

/-- A container from the line bits of each lane: its bytes, the lanes after it, the group block that comes next. -/
def groupTake (lanes : List CasLane) (i : Nat) (line : List (List Bool)) : Bytes × List CasLane × Nat :=
  let n := lanes.length
  let due := decide (commaPeriod n ≤ i)
  let i := if due then 0 else i
  let r := lanes.zipIdx.map (fun (e : CasLane × Nat) =>
    let l := line.getD e.2 []
    let q := laneTake (64 * (laneBlocks n i e.2).length) (if due then e.1.comma l else e.1) (if due then l.drop 40 else l)
    (q.1, q.2.1))
  let block (m : Nat) : List Bool := (((r.map (·.1)).getD (laneOf n (i + m)) []).drop (64 * (m / n))).take 64
  ((List.range 32).flatMap (fun m => bitsBytes 8 (block m)), r.map (·.2), i + 32)

/-- The lanes are aligned: the commas of all arrive within 40 ns, by their times of arrival in picoseconds (R368). -/
def lanesAligned (l : List Nat) : Bool := l.all (fun a => l.all (fun b => decide (a ≤ b + 40000)))

end Sys2Proof.Machine
end

