-- ==== Sys2Proof/Machine/CasSend.lean ====
section
/-! DEFINITION. Placing a packet in a leaf, and sending over the cascade: routing by the ring order, member selection,
containers and the transmit buffers (R169, R170, R367 to R370, R376, R378, R379). -/

namespace Sys2Proof.Machine

/-! ### Leaves -/

/-- The allocation that owns an upstream leaf: the PORT of its subscriber (R226). -/
def leafAlloc (s : State) (leaf : Nat) : Nat := (s.sub (8192 + leaf / 16)).port

/-- The valid upstream stream context of a stream whose ACTX owns a leaf (R170). -/
def sctxFor (s : State) (sid leaf : Nat) : Option Nat :=
  (s.ube.streams.find? (fun e => e.2.valid && e.2.sid == sid && e.2.actx == leafAlloc s leaf)).map (·.1)

/-- Places a packet in leaf `leaf` of direction `dir` with stream `sid` upstream; QMIS where R170 drops it. -/
def placeLeaf (dir leaf sid : Nat) (n : Nat) (p : QPkt) (s : State) : State × Option Eff :=
  let c := CLS_CNT1_QMIS
  if dir = 0 then ((enqueue (leafKey 0 leaf) n p s).1, none)
  else match sctxFor s sid leaf with
    | some x => ((enqueue (leafKey 1 leaf) n { p with sctx := x } s).1, none)
    | none => (s, some (.cnt c.addr c.lo c.w))

/-! ### Registers of the two link groups -/

/-- The group is ACTIVE. -/
def grpActive (s : State) (g : Nat) : Bool := s.rd (CAS_GRP_STAT_STATE g) == 5

/-- A link group goes to DETECT: LANE_EN and RATE_MAX are taken, and what it received is dropped. What waits to be sent
waits on (R371, R376). -/
def casDetect (g : Nat) (s : State) : State :=
  let c := s.casGrp g
  (s.setReg (CAS_GRP_STAT g).addr (BitVec.ofNat 64 (2 ^ 61))).setCasGrp g
    { fwd := c.fwd, own := c.own, arrived := c.arrived, offerLanes := s.rd (CAS_GRP_CTL_LANE_EN g),
      offerRate := s.rd (CAS_GRP_CTL_RATE_MAX g) }

/-- GRP_DOWN of a group. -/
def casDownEvt (g : Nat) : RF := if g = 0 then CAS_EVT_GRP_DOWN0 else CAS_EVT_GRP_DOWN1

/-- A link group goes to DOWN (R371). -/
def casOff (g : Nat) (s : State) : State :=
  let c := s.casGrp g
  let s := if grpActive s g then s.put (casDownEvt g) true else s
  (s.setReg (CAS_GRP_STAT g).addr 0).setCasGrp g { fwd := c.fwd, own := c.own, arrived := c.arrived }

/-! ### Containers (R369, Table 17.1) -/

/-- The word 0 of a container without its CCRC. -/
def casHead (type src dst : Nat) (bcast first last : Bool) (hops nb : Nat) : Nat :=
  type * 2 ^ 60 + src % 16 * 2 ^ 56 + dst % 16 * 2 ^ 52 + b2n bcast * 2 ^ 51 + b2n first * 2 ^ 50 + b2n last * 2 ^ 49
    + hops % 16 * 2 ^ 45 + nb % 256 * 2 ^ 37

/-- A container of a header word and up to 248 payload bytes, with its CCRC. -/
def casContainer (head : Nat) (body : Bytes) : Bytes :=
  let pay := padTo 248 body
  let h := beBytes 4 (head / 2 ^ 32)
  h ++ beBytes 4 (crc32c (h ++ pay)) ++ pay

/-- CCRC holds. -/
def casGood (c : Bytes) : Bool := c.length == 256 && beAt c 4 4 == crc32c (c.take 4 ++ c.drop 8)

/-- The containers of a packet or message, `n` at most (R369, R370). -/
def casSplit (o : CasOut) : Nat → Bool → Bytes → List Bytes
  | 0, _, _ => []
  | n + 1, first, l =>
    let part := l.take 248
    let rest := l.drop 248
    casContainer (casHead o.type o.src o.dst o.bcast first rest.isEmpty o.hops part.length) part ::
      (if rest.isEmpty then [] else casSplit o n false rest)

/-- All containers of a packet or message. -/
def casContainers (o : CasOut) : List Bytes := casSplit o (o.body.length / 248 + 1) true o.body

/-! ### Routing (R376) -/

/-- Position of a member in the ring order of the VIEW in use. -/
def ringPos (s : State) (id : Nat) : Nat := s.cas.ring.findIdx (· == id)

/-- Hops to a member going east, and going west. -/
def hopsTo (s : State) (dst : Nat) : Nat × Nat :=
  let n := s.cas.ring.length
  let e := (ringPos s dst + n - ringPos s (s.rd CAS_ROLE_ID)) % n
  (e, (n - e) % n)

/-- The link group a unicast container takes: fewer hops, east when equal, the other where that one is not ACTIVE. -/
def casRoute (s : State) (dst : Nat) : Nat :=
  let h := hopsTo s dst
  let g := if h.1 ≤ h.2 then 0 else 1
  if grpActive s g then g else 1 - g

/-- Queues a message of the device's own on a link group. -/
def casQueue (g : Nat) (o : CasOut) (s : State) : State :=
  let c := s.casGrp g
  s.setCasGrp g { c with own := c.own ++ [o] }

/-! ### Packets to another member (R378, R379) -/

/-- Bytes of packets in a transmit buffer. -/
def casBuffered (s : State) (g : Nat) : Nat :=
  (((s.casGrp g).own.filter (·.type == 1)).map (·.body.length)).sum

/-- The packet with its descriptor. -/
def casPacket (dir rleaf rsid : Nat) (p : QPkt) : Bytes :=
  beBytes 8 (dir * 2 ^ 63 + rleaf * 2 ^ 46 + rsid * 2 ^ 30 + p.bytes.length % 2 ^ 14 * 2 ^ 16)
    ++ beBytes 8 (p.ingress.ns * 2 ^ 32 + p.ingress.fr * 2 ^ 16 + p.ingress.s % 2 ^ 16) ++ p.bytes

/-- The slot that member selection names: the j-th active slot whose member is present (R378). -/
def casSelect (s : State) (group h2 : Nat) : Option CasSlot :=
  let l := ((List.range 16).map (fun i => s.casSlot (group * 16 + i))).filter
    (fun x => x.active && (s.rd CAS_ROLE_PRESENT).testBit x.member)
  l[((h2 / 65536) * l.length) / 65536]?

/-- A packet goes to the cascade: placed locally where the slot names this device, buffered for the member otherwise, or
dropped and counted (R378). A poisoned packet is dropped as at any egress (R21). -/
def casForward (dir leaf _sid h2 : Nat) (p : QPkt) (s : State) : State :=
  if p.poisoned then fltSourceEvent blkCEL s
  else match casSelect s (s.casRedirect (leafKey dir leaf)).group h2 with
  | none => s.inc CAS_CNT_NOMEM
  | some x =>
    if s.bit CAS_ROLE_ID_V && x.member == s.rd CAS_ROLE_ID then
      let r := placeLeaf dir x.rleaf x.rsid (cellCount p.start p.bytes.length p.headCell) p s
      match r.2 with
      | some (.cnt a lo w) => r.1.inc ⟨a, lo, w⟩
      | _ => r.1
    else
      let g := casRoute s x.member
      let body := casPacket dir x.rleaf x.rsid p
      if 1048576 < casBuffered s g + body.length then s.inc CAS_CNT_TX_DROP
      else casQueue g { type := 1, src := s.rd CAS_ROLE_ID, dst := x.member, bcast := false, hops := 15, body := body } s

/-- Containers go out on the lanes of a link group (R367, R368). -/
def casPut (l : List Bytes) (c : CasGrp) : CasGrp :=
  let r := groupSendAll c.tx c.txAt l
  { c with sent := l, line := r.1, tx := r.2.1, txAt := r.2.2 }

/-- An IDLE container (Table 17.1). -/
def idleContainer : Bytes := casContainer 0 []

/-- One link group sends: while ACTIVE a container to be passed on first, then the oldest message of its own (R376); with nothing to
send, and in COMMA and CAPS, an IDLE container (Table 17.2). -/
def casSend (g : Nat) (s : State) : State :=
  let st := s.rd (CAS_GRP_STAT_STATE g)
  let c := s.casGrp g
  let idle := s.setCasGrp g (casPut [idleContainer] c)
  if !s.runs blkCAS || decide (st < 3) then s
  else if st ≠ 5 then idle
  else match c.fwd with
    | x :: t => s.setCasGrp g (casPut [x] { c with fwd := t })
    | [] =>
      if (s.casGrp (1 - g)).fwdOpen then idle
      else match c.own with
        | o :: t => s.setCasGrp g (casPut (casContainers o) { c with own := t })
        | [] => idle

end Sys2Proof.Machine
end

