-- ==== Sys2Proof/Machine/PipeOps.lean ====
section
/-! DEFINITION. The pipelines: entry and stamping, idle-slot ports, the slow path, what a pass does, and the commit buffer
that holds a speculative pass's effects (R14, R147 to R175, R196 to R202). -/

namespace Sys2Proof.Machine

/-! ### Pipelines and versions -/

/-- The pipeline of a packet (R11): 0 to 7 are DP0 to DP7, 8 to 15 are UP0 to UP7. -/
def pipeOf (dir src : Nat) : Nat := if dir = 0 then src / 2 else 8 + src % 16 / 2

/-- Per-source settings index (R147). -/
def srcCfg (dir src : Nat) : Nat := if dir = 0 then src else 16 + src

/-- A rule as a sweep with OLDEST leaves it. -/
def sweepRule (oldest : Nat) (r : Rule) : Rule :=
  let born := r.born || decide ((oldest + 65536 - r.first) % 65536 < 32768)
  let age := (oldest + 65536 - r.last) % 65536
  let out := !r.lastInf && decide (1 ≤ age) && decide (age ≤ 32767)
  { r with born := born, valid := r.valid && !out }

/-- The sweep examines its next rule under OLDEST as it stands (R175). -/
def sweepNext (s : State) : State :=
  let i := s.cls.sweepPos
  let r := s.rule i
  let t := sweepRule (s.rd CLS_VER_OLDEST) r
  let s := if r.valid && !t.valid then s.inc CLS_CNT0_RETIRED else s
  let s := s.setRule i t
  { s with cls := { s.cls with sweepPos := i + 1 } }

/-- The sweep goes on until it has examined the rules below `n`. -/
def sweepUpTo (n : Nat) (s : State) : State := (List.range (n - s.cls.sweepPos)).foldl (fun s _ => sweepNext s) s

/-- Rules that a running sweep has reached: one in each CLS clock of 1.4 GHz, 2.8 to a cycle of the time clock. -/
def sweepReach (s : State) : Nat := min 32768 ((s.ticks - s.cls.sweepAt) * 14 / 5)

/-- The sweep catches up with the clock, before OLDEST or a rule changes. -/
def sweepNow (s : State) : State := if s.cls.sweeping then sweepUpTo (sweepReach s) s else s

/-- A sweep of the rules starts, or one more is queued (R175). -/
def startSweep (s : State) : State :=
  let s := if s.cls.sweeping then { s with cls := { s.cls with sweepQueued := true } }
    else { s with cls := { s.cls with sweeping := true, sweepAt := s.ticks, sweepPos := 0 } }
  s.put CLS_VER_SWEEP true

/-- OLDEST: the oldest version whose drain counter is not 0, or CUR (R173). -/
def oldestOf (s : State) : Nat :=
  let cur := s.rd CLS_VER_CUR
  let vs := [3, 2, 1].map (fun n => (cur + 65536 - n) % 65536)
  (vs.find? (fun v => s.rd (CLS_DRAIN_COUNT (v % 4)) != 0)).getD cur

/-- A pending commit can take effect: counter (CUR + 1) mod 4 is 0 and no sweep runs or is queued (R174). -/
def commitReady (s : State) : Bool :=
  s.bit CLS_VER_PENDING && !s.cls.sweeping && !s.cls.sweepQueued &&
    s.rd (CLS_DRAIN_COUNT ((s.rd CLS_VER_CUR + 1) % 4)) == 0

/-- The commit takes effect (R174): CUR advances, PENDING clears, a swap that waits for it takes place, a sweep starts. -/
def versionCommit (s : State) : State :=
  let s := (s.wr CLS_VER_CUR (s.rd CLS_VER_CUR + 1)).put CLS_VER_PENDING false
  let b := CLS_BANK.addr
  let s := if (s.bank b).phase = .waiting ∧ (s.bank b).kind = 4 then swapBank b s else s
  startSweep (s.wr CLS_VER_OLDEST (oldestOf s))

/-- A packet's classification is final: its version's drain counter falls (R173). In that clock a pending commit may take
effect (R174); otherwise an advance of OLDEST starts a sweep (R175). -/
def drainFall (v : Nat) (s : State) : State :=
  let r := CLS_DRAIN_COUNT (v % 4)
  let s := s.wr r (s.rd r - 1)
  if commitReady s then versionCommit s
  else if oldestOf s = s.rd CLS_VER_OLDEST then s
  else
    let s := sweepNow s
    startSweep (s.wr CLS_VER_OLDEST (oldestOf s))

/-- A first pass enters its pipeline: it is stamped with CUR and counted, or keeps the stamp it had (R171, R202). A MODE 1
reinjection, which skips lookup, is not counted. -/
def enterPipe (p : PassPkt) (s : State) : State :=
  let v := p.ver.getD (s.rd CLS_VER_CUR)
  let r := CLS_DRAIN_COUNT (v % 4)
  let s := if p.second || p.ver.isSome || p.toLeaf.isSome then s else s.addTo r 1
  let i := pipeOf p.dir p.src
  let pl := s.pipe i
  s.setPipe i { pl with input := pl.input ++ [{ p with ver := some v }] }

/-- A pipeline is powered (R334, R335). -/
def pipeOn (s : State) (i : Nat) : Bool := s.pwr.pipeOn.testBit i

/-- Offers a packet to an idle-slot port: true where it is queued, false where the queue of 512 is full and it is dropped
and counted, at its commit where it is speculative (R14, R198). -/
def offerIdle (c : IdleClass) (p : PassPkt) (s : State) : State × Bool :=
  let i := pipeOf p.dir p.src
  let pl := s.pipe i
  if pl.idle.length < 512 then (s.setPipe i { pl with idle := pl.idle ++ [(c, p)] }, true)
  else (countFor p.spec (PRS_ISP_CNT_ISP_OVF i) s, false)

/-- The packet that takes the next idle slot: recirculation, then cascade, then slow path, oldest first (R14). -/
def idlePick (l : List (IdleClass × PassPkt)) : Option (IdleClass × PassPkt) :=
  match l.find? (fun e => e.1 == .recirc) with
  | some e => some e
  | none => match l.find? (fun e => e.1 == .cascade) with
    | some e => some e
    | none => l.head?

/-! ### The slow path (R156, R157, R180) -/

/-- The CLS_SPQ register of queue `q`: EN, POL, PROD, CONS. -/
def spqProd (q : Nat) : RF := CLS_SPQ_PROD q

/-- Slow-path entries of a queue that wait in commit buffers. -/
def heldSlow (s : State) (q : Nat) : Nat :=
  (s.pipes.map (fun p => (p.2.held.map (fun h =>
    h.effs.countP (fun e => match e with
      | .slow x => x.q == q
      | _ => false))).sum)).sum

/-- Debits held for a policer (R239). -/
def heldDebit (s : State) (pol : Nat) : Nat × Nat :=
  s.pipes.foldl (fun a p => p.2.held.foldl (fun a h => h.effs.foldl (fun a e => match e with
    | .debit n c q _ => if n = pol then (a.1 + c, a.2 + q) else a
    | _ => a) a) a) (0, 0)

/-- Writes an entry to slot `n` of its queue: packet bytes, ingress time-stamp, descriptor (R157, R307). -/
def writeSlot (e : SlowEntry) (n : Nat) (s : State) : State :=
  let base := s.rd CLS_SPQ_BASE_BASE
  let slot := e.q * 4096 + n % 4096
  let a := base + slot * 16384
  let d := base + 0x20000000 + slot * 32
  let t := beBytes 8 (e.stamp.s * 65536 + 32768) ++ beBytes 8 (e.stamp.ns * 2 ^ 32 + e.stamp.fr * 65536)
  let s := devWrite a e.bytes s
  let s := devWrite (a + 16368) t s
  devWrite d (beBytes 8 e.d0 ++ beBytes 8 e.d1 ++ beBytes 8 e.d2 ++ beBytes 8 (b2n e.second * 2 ^ 63 + a)) s

/-- Completes a slow-path entry: its slot is written and PROD advances (R156). -/
def slowWrite (e : SlowEntry) (s : State) : State :=
  let p := s.rd (spqProd e.q)
  (writeSlot e p s).wr (spqProd e.q) (p + 1)

/-- What a queue does with a packet offered to it (R156). -/
inductive SlowVerdict where
  | refused
  | red (pol : Nat)
  | taken (pol c p : Nat)
  deriving DecidableEq, Repr

/-- A packet offered to a slow-path queue: refused where the queue is disabled or full, counting the entries held back, and
policed colour-blind on the tokens less the debits held (R156, R238, R239). -/
def slowJudge (x : SlowEntry) (s : State) : SlowVerdict :=
  let n := (s.rd (spqProd x.q) + 8192 - s.rd (CLS_SPQ_CONS x.q)) % 8192 + heldSlow s x.q
  if !s.bit (CLS_SPQ_EN x.q) || decide (4096 ≤ n) then .refused
  else
    let pol := s.rd (CLS_SPQ_POL x.q)
    let h := heldDebit s pol
    let j := ((s.policer pol).refill s.polNow).judge x.bytes.length h.1 h.2 .green
    if j.1 = .red then .red pol else .taken pol j.2.1 j.2.2

/-- A packet is sent to the slow path at once. -/
def slowNow (x : SlowEntry) (s : State) : State :=
  match slowJudge x s with
  | .refused => s.inc CLS_SP_CNT_SP_DROP
  | .red pol => (debitPolicer pol 0 0 true s).inc CLS_SP_CNT_SP_POL
  | .taken pol c p => slowWrite x (debitPolicer pol c p false s)

/-! ### Effects -/

/-- A learn request is made; its packet's copy goes to the slow path where the filter lets it (R189). -/
def learnNow (r : LearnReq) (x : SlowEntry) (s : State) : State :=
  let q := learnRequest r s
  if q.2 then slowNow x q.1 else q.1

/-- Applies one effect. -/
def applyEff (e : Eff) (s : State) : State :=
  match e with
  | .cnt a lo w => s.inc ⟨a, lo, w⟩
  | .flow cid len => countFlow cid len s
  | .hit c tick hi flags =>
    match flowByCidx s c with
    | some p =>
      let x := s.flowAt p
      s.setFlowAt p { x with age := tick, flgLo := if hi then x.flgLo else x.flgLo ||| flags,
                             flgHi := if hi then x.flgHi ||| flags else x.flgHi }
    | none => s
  | .learn r x => learnNow r x s
  | .debit n c q red => debitPolicer n c q red s
  | .slow x => slowWrite x s
  | .drain v => drainFall v s
  | .cascade dir leaf sid h2 p => casForward dir leaf sid h2 p s

/-- Shows the records held in DP0 to DP7 (SPC_OCC). -/
def showHeld (i : Nat) (s : State) : State :=
  if i < 8 then s.wr (SPC_OCC_HELD i) (s.pipe i).held.length else s

/-- A pass of a speculative packet takes a record of the commit buffer (R198). -/
def openRecord (i : Nat) (spec : Option (Nat × Nat)) (s : State) : State :=
  match spec with
  | none => s
  | some c =>
    let pl := s.pipe i
    showHeld i (s.setPipe i { pl with held := pl.held ++ [⟨c.1, c.2, []⟩] })

/-- An effect of a pass: at once for an ordinary packet, in the pass's record for a speculative one (R198). -/
def emit (spec : Option (Nat × Nat)) (e : Eff) (s : State) : State :=
  match spec with
  | none => applyEff e s
  | some c => holdEff c.1 c.2 e s

/-- Effects of a pass, in order. -/
def emitAll (spec : Option (Nat × Nat)) (l : List Eff) (s : State) : State := l.foldl (fun s e => emit spec e s) s

/-- A packet of a pass is sent to the slow path: each send sees what the sends before it took (R156). A speculative packet's
slot is written, and PROD advances at its commit (Table 8.3). -/
def slowSend (spec : Option (Nat × Nat)) (x : SlowEntry) (s : State) : State :=
  match spec with
  | none => slowNow x s
  | some c =>
    match slowJudge x s with
    | .refused => holdEff c.1 c.2 (.cnt CLS_SP_CNT_SP_DROP.addr CLS_SP_CNT_SP_DROP.lo CLS_SP_CNT_SP_DROP.w) s
    | .red pol =>
      holdEff c.1 c.2 (.cnt CLS_SP_CNT_SP_POL.addr CLS_SP_CNT_SP_POL.lo CLS_SP_CNT_SP_POL.w)
        (holdEff c.1 c.2 (.debit pol 0 0 true) s)
    | .taken pol b p =>
      let n := s.rd (spqProd x.q) + heldSlow s x.q
      holdEff c.1 c.2 (.slow x) (holdEff c.1 c.2 (.debit pol b p false) (writeSlot x n s))

/-! ### Forwarding -/

/-- A copy of a packet with its last four bytes made a fresh FCS (R167). -/
def withFcs (l : Bytes) : Bytes := l.take (l.length - 4) ++ fcsBytes (l.take (l.length - 4))

/-- Forwards a packet to a leaf (R166, R170): a redirected leaf's packet goes to the cascade, held back with its pass while
it is tentative (R198, R378); any other is queued. -/
def forwardLeaf (dir leaf sid h2 n : Nat) (p : QPkt) (s : State) : State × Option Eff :=
  if (s.casRedirect (leafKey dir leaf)).valid then
    if dir = 1 && (sctxFor s sid leaf).isNone then (s, some (.cnt CLS_CNT1_QMIS.addr CLS_CNT1_QMIS.lo CLS_CNT1_QMIS.w))
    else (s, some (.cascade dir leaf sid h2 { p with spec := none }))
  else placeLeaf dir leaf sid n p s

/-- A queued packet from one in a pipeline. -/
def toQPkt (s : State) (p : PassPkt) (bytes : Bytes) : QPkt :=
  { id := s.cel.nextId, bytes := bytes, cells := [], start := p.start, headCell := p.headCell, adm := s.ticks, ingress := p.ingress, inPort := p.src, rxq := p.rxq,
    poisoned := p.poisoned, origin := p.origin, sctx := 0, spec := p.spec, off := 0, fseq := 0, passed := 0,
    doomed := false }

/-- Numbers a queued packet. -/
def bumpId (s : State) : State := { s with cel := { s.cel with nextId := s.cel.nextId + 1 } }

/-! ### A pass -/

/-- Counter effect. -/
def effCnt (r : RF) : Eff := .cnt r.addr r.lo r.w

/-- The rule that matches a key for a version: lowest PRIO, then lowest index (R162, R172); a poisoned rule matches every key
(Table 16.2). -/
def ruleMatch (s : State) (v key : Nat) : Option (Nat × Rule) :=
  let ok (r : Rule) : Bool :=
    r.valid && (r.born || decide ((v + 65536 - r.first) % 65536 < 32768)) &&
      (r.lastInf || decide ((r.last + 65536 - v) % 65536 < 32768)) &&
      (r.poisoned || ((key ^^^ r.key) &&& r.mask) == 0)
  (s.cls.rules.filter (fun e => ok e.2)).foldl (fun b e =>
    match b with
    | none => some e
    | some x => if e.2.prio < x.2.prio then some e else some x) none

/-- The words of a list up to its first END (R164). -/
def listWords (s : State) (n : Nat) : List Word :=
  ((s.alist n).words.take 8).takeWhile (fun w => fieldOf w 58 6 != 0)

/-- OP of a word (Table 7.6). -/
def opOf (w : Word) : Nat := fieldOf w 58 6

/-- The last word of a list with one of two OPs. -/
def lastOp (l : List Word) (a b : Nat) : Option Word := (l.filter (fun w => opOf w == a || opOf w == b)).getLast?

/-- Slow-path queue of a reason (CLS_SP_MAP). -/
def spMap (s : State) (reason : Nat) : Nat :=
  if reason = 1 then s.rd CLS_SP_MAP_Q_MALF
  else if reason = 2 then s.rd CLS_SP_MAP_Q_FRAG
  else if reason = 3 then s.rd CLS_SP_MAP_Q_DEEP
  else if reason = 5 then s.rd CLS_SP_MAP_Q_LEARN
  else s.rd CLS_SP_MAP_Q_TTL

/-- The parser settings of a packet's source (R147, R178). -/
def parseCfg (s : State) (p : PassPkt) : ParseCfg :=
  let i := srcCfg p.dir p.src
  { depth := s.rd (PRS_SRC_CFG_DEPTH i), maxHdr := s.rd (PRS_SRC_CFG_MAXHDR i), malfPol := s.rd (PRS_SRC_CFG_MALF_POL i),
    vxlan := s.rd PRS_TUN_VXLAN_PORT, geneve := s.rd PRS_TUN_GENEVE_PORT, gtpu := s.rd PRS_TUN_GTPU_PORT }

/-- The slow-path entry of a packet: its bytes as they stood at the start of the pass, and its descriptor (R156, Table 7.4). -/
def slowEntry (p : PassPkt) (r : Parsed) (reason q rule h1 h2 : Nat) : SlowEntry :=
  { q := q, bytes := p.bytes, second := p.second, stamp := p.ingress,
    d0 := reason * 2 ^ 56 + p.dir * 2 ^ 55 + pipeOf p.dir p.src * 2 ^ 51 + p.src * 2 ^ 45 + p.sid * 2 ^ 29
      + p.bytes.length * 2 ^ 15 + rule,
    d1 := p.ver.getD 0 * 2 ^ 48 + r.lastHid * 2 ^ 43 + r.stack.length * 2 ^ 38 + r.pflags * 2 ^ 30
      + r.malf * 2 ^ 26 + p.meta_,
    d2 := h1 * 2 ^ 32 + h2 }

/-- One POLICE action on the edited length: the colour the list has so far, whether a POLICE with RED_DROP has found red, and
the state, which each metering leaves to the next (R165, R238). -/
def policeWord (spec : Option (Nat × Nat)) (len : Nat) (a : Colour × Bool × State) (w : Word) : Colour × Bool × State :=
  let n := fieldOf w 0 16
  let s := a.2.2
  let h := heldDebit s n
  let p := (s.policer n).refill s.polNow
  let j := p.judge len h.1 h.2 (if fieldOf w 16 1 = 1 then a.1 else .green)
  let red := j.1 == .red
  (j.1, a.2.1 || (red && fieldOf w 17 1 == 1), emit spec (.debit n j.2.1 j.2.2 (red && p.en)) s)

/-- Phase 3: the policers of a list in order (R165): whether a POLICE with RED_DROP found red, and the state after. -/
def runPolice (spec : Option (Nat × Nat)) (len : Nat) (l : List Word) (s : State) : Bool × State :=
  ((l.filter (fun w => opOf w == 0x05)).foldl (policeWord spec len) (.green, false, s)).2

/-- Mirror copies of a pass (R169): they are placed at once, tentative with their packet. A copy never entered by a receive
queue, and starts at the head of its first cell. -/
def runMirrors (p : PassPkt) (bytes : Bytes) (l : List Word) (s : State) : State :=
  (l.filter (fun w => opOf w == 0x07)).foldl (fun s w =>
    let m := fieldOf w 0 4
    if s.bit (CLS_MIR_EN m) then
      let t := s.rd (CLS_MIR_TRUNC m)
      let c := withFcs (if t = 0 then bytes else bytes.take t)
      let q := { toQPkt s p c with origin := false, rxq := none, start := 0, headCell := false }
      let r := placeLeaf (s.rd (CLS_MIR_QDIR m)) (s.rd (CLS_MIR_QUEUE m)) (s.rd (CLS_MIR_SID m))
        (cellCount 0 c.length false) q (bumpId s)
      emitAll p.spec r.2.toList r.1
    else s) s

/-- The stream that SET_STREAM or SET_CPG chose, the later winning (R160, R165); none with an empty group. -/
def chosenStream (s : State) (h1 : Nat) (l : List Word) (sid : Nat) : Option Nat × Bool :=
  match lastOp l 0x03 0x04 with
  | none => (none, false)
  | some w =>
    if opOf w = 0x03 then (some (fieldOf w 0 16), false)
    else
      let g := fieldOf w 0 4
      let act := ((List.range 16).map (fun i => s.member (g * 16 + i))).filter (·.active)
      let n := act.length
      match act[((h1 / 65536) * n) / 65536]? with
      | some m => (some m.sid, false)
      | none => (some sid, true)

/-- The flow lookup of TRACK (R184): the list to carry out, and the state with its effects; a miss may make a learn request,
`x` being the entry of its packet's copy. -/
def trackFlow (p : PassPkt) (r : Parsed) (h1 h2 : Nat) (x : SlowEntry) (l : List Word) (s : State) : List Word × State :=
  match l.find? (fun w => opOf w == 0x11) with
  | none => (l, s)
  | some w =>
    let t := r.tuple
    match flowFind s t.2 t.1 with
    | some i =>
      let e := s.flowAt i
      let hi := r.side
      let n := if hi then e.alistHi else e.alistLo
      let flags := r.l4.elim 0 (fun h => if h.hid = 0x0E then b8 r.bytes (h.off + 13) else 0)
      (if n = 0x3FFF then l else listWords s n,
        emitAll p.spec [.flow (2 * e.cidx + b2n hi) p.bytes.length, .hit e.cidx s.flw.now hi flags] s)
    | none =>
      let s := emit p.spec (effCnt FLW_CNT0_MISS) s
      if fieldOf w 0 1 = 1 then (l, emit p.spec (.learn ⟨t.2, t.1, h1, h2⟩ x) s) else (l, s)

/-- A packet that RECIRC sends to its second pass, and whether its STRIP header was absent (R168). -/
def recircNext (p : PassPkt) (r : Parsed) (ed : Edit) (l : List Word) : PassPkt × Bool :=
  let w := ((l.find? (fun w => opOf w == 0x08))).getD 0
  let hid := fieldOf w 8 5
  let inst := fieldOf w 4 2
  let meta_ := ((l.filter (fun w => opOf w == 0x09)).getLast?).elim 0 (fun w => fieldOf w 0 16)
  let next : PassPkt := { p with second := true, meta_ := meta_, tun := r.tunId, start := ed.start % 128, headCell := ed.head,
                                  bytes := ed.bytes, hid := 0x01 }
  if fieldOf w 0 1 = 1 then
    match ed.hdrs.find? (fun x => x.h.hid == hid && x.inst == some inst) with
    | some x => ({ next with bytes := ed.bytes.drop x.h.off, hid := hid, start := (ed.start + x.h.off) % 128 }, false)
    | none => (next, true)
  else (next, false)

/-- Forward: the last queue of the list, and upstream its stream (R165, R170). -/
def passForward (p : PassPkt) (h1 h2 : Nat) (ed : Edit) (l : List Word) (s : State) : State :=
  match (l.filter (fun w => opOf w == 0x02)).getLast? with
  | none => emit p.spec (effCnt CLS_CNT1_NOQ) s
  | some w =>
    let leaf := fieldOf w 0 17
    let n := cellCount ed.start ed.bytes.length ed.head
    let qp := { toQPkt s p ed.bytes with start := ed.start % 128, headCell := ed.head }
    let c := if p.dir = 0 then (some 0, false) else chosenStream s h1 l p.sid
    if c.2 then emit p.spec (effCnt CLS_CNT1_CPG_DROP) s
    else match c.1 with
      | none => emit p.spec (effCnt CLS_CNT1_QMIS) s
      | some sid =>
        let a := forwardLeaf p.dir leaf sid h2 n qp (bumpId s)
        emitAll p.spec a.2.toList a.1

/-- Phases 3 and 4 of a list that does not end in RECIRC: policing and the disposition (R165). -/
def passFinish (i : Nat) (p : PassPkt) (r : Parsed) (rule h1 h2 : Nat) (ed : Edit) (l : List Word) (s : State) : State :=
  let slowW := (l.filter (fun w => opOf w == 0x10 && fieldOf w 8 1 == 0)).getLast?
  let pol := runPolice p.spec ed.bytes.length l s
  let s := pol.2
  let s := if p.second && l.any (fun w => opOf w == 0x08) then emit p.spec (effCnt (PRS_ISP_CNT_RECIRC2 i)) s else s
  if l.any (fun w => opOf w == 0x01) || pol.1 then s
  else if ed.ttl then slowSend p.spec (slowEntry p r 6 (spMap s 6) rule h1 h2) s
  else match slowW with
    | some w => slowSend p.spec (slowEntry p r 4 (fieldOf w 0 3) rule h1 h2) s
    | none => passForward p h1 h2 ed l s

/-- The pass of a list ends in RECIRC after phase 2 (R165, R168). -/
def endsRecirc (p : PassPkt) (ed : Edit) (l : List Word) : Bool :=
  l.any (fun w => opOf w == 0x08) && !p.second && !l.any (fun w => opOf w == 0x01)
    && !l.any (fun w => opOf w == 0x10 && fieldOf w 8 1 == 0) && !ed.ttl

/-- A list is carried out (R165 to R170): phases 1 and 2, the copies of SLOW, and what the pass ends in. -/
def passList (i : Nat) (p : PassPkt) (r : Parsed) (rule h1 h2 : Nat) (l : List Word) (s : State) : State :=
  let done := Eff.drain (p.ver.getD 0)
  let s := emitAll p.spec ((l.filter (fun w => opOf w == 0x06)).map (fun w =>
    Eff.flow (csetBase + fieldOf w 0 16) p.bytes.length)) s
  let s := runMirrors p p.bytes l s
  let ed := runEdits r.bytes r.stack p.start p.headCell l
  let s := emitAll p.spec (List.replicate ed.miss (effCnt CLS_CNT1_EDIT_MISS)) s
  let s := (l.filter (fun w => opOf w == 0x10 && fieldOf w 8 1 == 1)).foldl (fun s w =>
    slowSend p.spec (slowEntry p r 4 (fieldOf w 0 3) rule h1 h2) s) s
  if 16000 < ed.bytes.length then emitAll p.spec [effCnt CLS_CNT1_EDIT_ERR, done] s
  else if endsRecirc p ed l then
    let q := recircNext p r ed l
    let s := if q.2 then emit p.spec (effCnt CLS_CNT1_EDIT_MISS) s else s
    let o := offerIdle .recirc q.1 s
    if o.2 then o.1 else emit p.spec done o.1
  else emit p.spec done (passFinish i p r rule h1 h2 ed l s)

/-- The rule that a parsed pass meets (R161, R162). -/
def passRule (s : State) (p : PassPkt) (r : Parsed) : Option (Nat × Rule) :=
  ruleMatch s (p.ver.getD 0) (r.key p.dir p.second p.src p.sid p.meta_ (if p.second then p.tun else r.tunId))

/-- Lookup and actions of a pass whose outcome R155 leaves to them (R162 to R170). -/
def passActions (i : Nat) (p : PassPkt) (r : Parsed) (s : State) : State :=
  let done := Eff.drain (p.ver.getD 0)
  let t := r.tuple
  let h1 := hash1 (hashSeed s) t.1
  let h2 := hash2 (hashSeed s) t.1
  match passRule s p r with
  | none => emitAll p.spec [effCnt CLS_CNT0_MISS, done] s
  | some (rule, ru) =>
    let s := emit p.spec (effCnt CLS_CNT0_HIT) s
    if ru.poisoned || (s.alist ru.alist).bad then emit p.spec done s
    else
      let tr := trackFlow p r h1 h2 (slowEntry p r 5 (spMap s 5) rule h1 h2) (listWords s ru.alist) s
      passList i p r rule h1 h2 tr.1 tr.2

/-- The parsed packet of a pass is left to lookup and actions (R155). -/
def passLooksUp (s : State) (p : PassPkt) (r : Parsed) : Bool :=
  r.malf == 0 && !r.frag && !(r.deep && s.rd (PRS_SRC_CFG_DEEP_POL (srcCfg p.dir p.src)) == 1)

/-- A pass needs FLW: its list tracks its flow or counts it (R163, R193). -/
def passNeedsFlw (s : State) (p : PassPkt) : Bool :=
  let r := parse (parseCfg s p) p.bytes p.hid
  p.toLeaf.isNone && passLooksUp s p r && (passRule s p r).elim false (fun e =>
    (listWords s e.2.alist).any (fun w => opOf w == 0x11 || opOf w == 0x06))

/-- A pass (R149 to R170): parse, then the outcome of R155. A MODE 1 reinjection skips both (R158). -/
def runPass (i : Nat) (p : PassPkt) (s : State) : State :=
  let done := Eff.drain (p.ver.getD 0)
  match p.toLeaf with
  | some leaf =>
    let a := placeLeaf p.dir leaf p.sid (cellCount p.start p.bytes.length p.headCell) (toQPkt s p p.bytes) (bumpId s)
    emitAll none a.2.toList a.1
  | none =>
    let c := parseCfg s p
    let r := parse c p.bytes p.hid
    let hs := hashSeed s
    let h1 := hash1 hs r.tuple.1
    let h2 := hash2 hs r.tuple.1
    let send (reason : Nat) (s : State) : State :=
      emit p.spec done (slowSend p.spec (slowEntry p r reason (spMap s reason) 0 h1 h2) s)
    let s := openRecord i p.spec s
    let s := emitAll p.spec (effCnt (PRS_CNT0_PASSES i) :: (if r.deep then [effCnt (PRS_CNT0_DEEP i)] else [])
      ++ (if r.trim then [effCnt (PRS_CNT1_TRIM i)] else [])) s
    if r.malf ≠ 0 then
      if c.malfPol == 1 || (c.malfPol == 3 && r.malf != 11) then send 1 s
      else emitAll p.spec [effCnt (PRS_MALF_COUNT i (r.malf - 1)), done] s
    else if r.frag then send 2 (emit p.spec (effCnt (PRS_CNT1_FRAG i)) s)
    else if r.deep && s.rd (PRS_SRC_CFG_DEEP_POL (srcCfg p.dir p.src)) == 1 then send 3 s
    else passActions i p r s

/-! ### Commit and squash (R199 to R202) -/

/-- Records of a speculative packet are applied in order of issue, and its tentative cells and copies become ordinary
(R199). Where firmware flushed its leaf its records are discarded (Table 8.3). -/
def commitSpec (ch : Nat) (x : SpecPkt) (s : State) : State :=
  let i := pipeOf 0 ch
  let pl := s.pipe i
  let mine (h : HeldRec) : Bool := h.ch == ch && h.num == x.num
  let effs := ((pl.held.filter mine).map (·.effs)).flatten
  let s := s.setPipe i { pl with held := pl.held.filter (fun h => !mine h),
                                 input := pl.input.map (fun p => if p.spec = some (ch, x.num) then { p with spec := none } else p),
                                 idle := pl.idle.map (fun e => if e.2.spec = some (ch, x.num) then (e.1, { e.2 with spec := none }) else e) }
  let s := showHeld i s
  let s := { s with cel := { s.cel with queues := s.cel.queues.map (fun (e : Nat × LeafQ) =>
    (e.1, { e.2 with pkts := e.2.pkts.map (fun (p : QPkt) => if p.spec = some (ch, x.num) then { p with spec := none } else p) })) } }
  let c := s.spcCh ch
  let s := s.setSpcCh ch { c with pkts := c.pkts.filter (fun y => y.num != x.num), twins := (x.fc, x.hdr) :: c.twins }
  let s := s.inc (SPC_CNT_COMMIT ch)
  if x.flushed then effs.foldl (fun s e => match e with
      | .drain v => drainFall v s
      | _ => s) s
  else effs.foldl (fun s e => applyEff e s) s

/-- The cells of packets that satisfy a test are freed and unlinked from their queues (R200). -/
def unlink (f : QPkt → Bool) (s : State) : State :=
  let keys := (s.cel.queues.filter (fun e => e.2.pkts.any f)).map (·.1)
  keys.foldl (fun s k =>
    let q := s.lq k
    let gone := ((q.pkts.filter f).map (·.cells)).flatten
    let inHead := (q.pkts.foldl (fun (a : Nat × Nat) p =>
      (a.1 + p.cells.length, if f p && decide (a.1 < q.head) then a.2 + p.cells.length else a.2)) (0, 0)).2
    let s := s.setLq k { q with pkts := q.pkts.filter (fun p => !f p), head := if q.s then q.head - inHead else 0 }
    leafTouch k (freeCells k gone s)) s

/-- A speculative packet is squashed (R200): its records, cells and copies go, and it is counted. Its stamp is kept for
re-processing, and its version's drain counter with it (R171). -/
def squashSpec (ch : Nat) (x : SpecPkt) (s : State) : State :=
  let i := pipeOf 0 ch
  let pl := s.pipe i
  let mine (h : HeldRec) : Bool := h.ch == ch && h.num == x.num
  let s := s.setPipe i { pl with held := pl.held.filter (fun h => !mine h),
                                 input := pl.input.filter (fun p => p.spec != some (ch, x.num)),
                                 idle := pl.idle.filter (fun e => e.2.spec != some (ch, x.num)) }
  let s := showHeld i s
  let s := unlink (fun p => p.spec == some (ch, x.num)) s
  let c := s.spcCh ch
  let s := s.setSpcCh ch { c with pkts := c.pkts.filter (fun y => y.num != x.num), stamps := (x.fc, x.hdr, x.stamp) :: c.stamps }
  s.inc (SPC_CNT_SQUASH ch)

/-- Squashes every speculative packet of a channel that satisfies a test (R200, R201). -/
def squashWhere (ch : Nat) (f : SpecPkt → Bool) (s : State) : State :=
  let s := s.setSpcCh ch { s.spcCh ch with waits := (s.spcCh ch).waits.filter (fun w => !f w.pkt) }
  ((s.spcCh ch).pkts.filter f).foldl (fun s x => squashSpec ch x s) s

/-- The run-ahead resumes at the final delineator's position (R200). -/
def aheadResumes (k : Nat) (s : State) : State :=
  s.setSpcCh k { s.spcCh k with pos := (s.dsfCh k).pos, stopped := !((s.dsfCh k).live && (s.dsfCh k).hdrOk) }

/-- A stream's speculative packets are squashed, and the run-ahead resumes where any was (R201, R203). -/
def squashStream (k sid : Nat) (s : State) : State :=
  let c := s.spcCh k
  if c.pkts.any (fun x => x.sid == sid) || c.waits.any (fun w => w.pkt.sid == sid) then
    aheadResumes k (squashWhere k (fun x => x.sid == sid) s)
  else s

end Sys2Proof.Machine
end

