-- ==== Sys2Proof/Machine/DataRegs.lean ====
section
/-! DEFINITION. What writes of the data-plane blocks' registers set off: the indirect commands of CLS, FLW, CEL and SCH,
flushes, reinjections, consumer indices and pool sizes. Each function takes the state before the write (`o`), the state
with the plain fields of the write stored (`s`) and the value written. -/

namespace Sys2Proof.Machine

/-- Ends an indirect access: GO reads 0, ERR is set where it was refused. -/
def indDone (go err : RF) (refused : Bool) (s : State) : State :=
  let s := s.put go false
  if refused then s.put err true else s

/-! ### CLS (R164, R176 to R180) -/

/-- A word of an action list that R164 refuses: an undefined OP, or a field out of range. -/
def wordBad (w : Word) : Bool :=
  let f := fieldOf w
  let op := f 58 6
  decide (0x11 < op) || (op == 0x03 && f 0 16 == 0xFFFF)
    || (op == 0x0B && (f 0 3 == 0 || decide (4 < f 0 3)))
    || (op == 0x0D && (f 16 4 == 0 || decide (8 < f 16 4)))

/-- A list that R164 refuses. -/
def listBad (l : List Word) : Bool :=
  let l := (l.take 8).takeWhile (fun w => opOf w != 0)
  l.any wordBad || decide (2 < l.countP (fun w => opOf w == 0x05)) || decide (4 < l.countP (fun w => opOf w == 0x0A))
    || decide (4 < l.countP (fun w => opOf w == 0x0C)) || decide (1 < l.countP (fun w => opOf w == 0x08))

/-- A data word of CLS_IND_DATA. -/
def clsData (s : State) (n : Nat) : Word := s.reg (CLS_IND_DATA n).addr

/-- The rule that the data words describe; BORN is the device's. -/
def ruleFrom (d : Nat → Word) : Rule :=
  let wide (k : Nat) : Nat := (List.range 10).foldl (fun a i => a * 2 ^ 64 + (d (k + i)).toNat) 0
  { valid := fieldOf (d 0) 63 1 == 1, born := false, lastInf := fieldOf (d 0) 61 1 == 1, alist := fieldOf (d 0) 32 14,
    prio := fieldOf (d 0) 0 16, first := fieldOf (d 1) 16 16, last := fieldOf (d 1) 0 16, key := wide 2, mask := wide 12 }

/-- The data words of a rule. -/
def ruleWords (r : Rule) : List Nat :=
  let wide (v : Nat) : List Nat := (List.range 10).map (fun i => v / 2 ^ (64 * (9 - i)) % 2 ^ 64)
  [2 ^ 63 * b2n r.valid + 2 ^ 62 * b2n r.born + 2 ^ 61 * b2n r.lastInf + 2 ^ 32 * r.alist + r.prio,
    r.first * 65536 + r.last] ++ wide r.key ++ wide r.mask

/-- The rule write that R176 accepts over an entry, as the entry it makes. A rule that is not born is valid for no version up to
CUR where FIRST lies ahead, or where LAST lies before FIRST. -/
def ruleAccept (s : State) (old new : Rule) : Option Rule :=
  let cur := s.rd CLS_VER_CUR
  let pend := b2n (s.bit CLS_VER_PENDING)
  let ahead (v : Nat) : Nat := (v + 65536 - cur) % 65536
  let future (v : Nat) : Bool := decide (1 + pend ≤ ahead v ∧ ahead v ≤ 32767)
  let spans (r : Rule) : Bool := r.lastInf || decide ((r.last + 65536 - r.first) % 65536 < 32768)
  let endOk (r : Rule) : Bool := r.lastInf || (decide (ahead r.last < 32768) && (pend == 0 || ahead r.last != 0))
  if !old.valid then
    if new.valid then
      if future new.first && spans new then some new else none
    else some new
  else if new.valid then
    if { new with born := old.born, last := old.last, lastInf := old.lastInf, poisoned := old.poisoned } = old ∧ endOk old ∧ endOk new then
      some { old with last := new.last, lastInf := new.lastInf }
    else none
  else if !old.born && decide ({ new with valid := true, poisoned := old.poisoned } = old) && (future old.first || !spans old) then
    some { old with valid := false }
  else none

/-- Shows data words from DATA0 on. -/
def showClsData (l : List Nat) (s : State) : State :=
  (List.range l.length).foldl (fun s i => s.setReg (CLS_IND_DATA i).addr (BitVec.ofNat 64 (l.getD i 0))) s

/-- An access through CLS_IND_CMD (R179): the state after it, or none where it is refused. -/
def clsAccess (s : State) : Option State :=
  let t := s.rd CLS_IND_CMD_TABLE
  let n := s.rd CLS_IND_CMD_INDEX
  let d := clsData s
  if s.bit CLS_IND_CMD_RD then
    match t with
    | 0 => some (showClsData (ruleWords (s.rule n)) s)
    | 1 =>
      if n ≤ 16383 then
        some (showClsData ((List.range 8).map (fun i => (((s.alist n).words.getD i 0) : Word).toNat) ++ [listRefs s n]) s)
      else none
    | 2 =>
      if n ≤ 15 then
        let m (i : Nat) : Nat :=
          let x := s.member (n * 16 + i)
          2 ^ 31 * b2n x.active + 2 ^ 24 * x.cp + x.sid
        some (showClsData ((List.range 8).map (fun i => m (2 * i) * 2 ^ 32 + m (2 * i + 1))) s)
      else none
    | _ => none
  else
    match t with
    | 0 => (ruleAccept s (s.rule n) (ruleFrom d)).map (fun r => s.setRule n r)
    | 1 =>
      let l := (List.range 8).map d
      if n ≤ 16383 ∧ !listBad l ∧ listRefs s n = 0 then some (s.setAlist n { words := l, defined := true }) else none
    | 2 =>
      if n ≤ 15 then
        some ((List.range 16).foldl (fun s i =>
          let v := fieldOf (d (i / 2)) (if i % 2 = 0 then 32 else 0) 32
          s.setMember (n * 16 + i) ⟨v.testBit 31, v / 2 ^ 24 % 16, v % 65536⟩) s)
      else none
    | _ => none

/-- A consumer index is taken where the ring's count stays within 0 to `cap` (R180). -/
def consOk (md cap prod new : Nat) : Bool := decide ((prod + md - new) % md ≤ cap)

/-- Writes of CLS registers. A TRUNC of 1 to 63 lies below the range 64 to 16,000 that a value other than 0 has, and takes its
nearer end (R415; DEDUCED, log 22). -/
def clsWrite (a : Nat) (v : Word) (o s : State) : State :=
  if a = CLS_IND_CMD.addr ∧ fieldOf v 63 1 = 1 then
    if o.bit CLS_IND_CMD_GO then o.put CLS_IND_CMD_ERR true
    else match clsAccess (sweepNow s) with
      | some t => indDone CLS_IND_CMD_GO CLS_IND_CMD_ERR false t
      | none => indDone CLS_IND_CMD_GO CLS_IND_CMD_ERR true s
  else if (CLS_MIR 0).addr ≤ a ∧ a ≤ (CLS_MIR 15).addr then
    let n := fieldOf (s.shReg a) 0 14
    if 0 < n ∧ n < 64 then s.setSh a (setField (s.shReg a) 0 14 64) else s
  else if a = CLS_VER_COMMIT.addr then
    if fieldOf v 0 1 = 1 then s.put CLS_VER_PENDING true else s
  else if (CLS_SPQ 0).addr ≤ a ∧ a ≤ (CLS_SPQ 7).addr then
    let q := (a - (CLS_SPQ 0).addr) / 8
    let old := o.rd (CLS_SPQ_CONS q)
    if consOk 8192 4096 (o.rd (CLS_SPQ_PROD q)) (fieldOf v 0 13) then s else s.wr (CLS_SPQ_CONS q) old
  else if a = CLS_RI_CMD.addr ∧ fieldOf v 63 1 = 1 then
    let len := fieldOf v 20 14
    if o.bit CLS_RI_CMD_GO || decide (len < 64) || decide (16000 < len) then o.put CLS_RI_CMD_ERR true
    else s.put CLS_RI_CMD_GO true
  else s

/-! ### FLW (R185 to R195, R204) -/

/-- An operation of FLW_IND_CMD (R204). An insertion that has to search stays in progress, with GO reading 1. -/
def flwOperate (s : State) : State :=
  let d := flwData s
  let e := flowFrom d
  let find := flowFind s e.fmt e.tuple
  if e.fmt = 3 then flwStatus 4 s
  else match s.rd FLW_IND_CMD_OP with
    | 0 =>
      match find with
      | some p => flwStatus 0 (showFlow p s)
      | none => flwStatus 1 s
    | 1 =>
      if !(listOk s e.alistLo && listOk s e.alistHi) then flwStatus 4 s
      else match find with
        | some p => flwStatus 2 (s.wr FLW_IND_CMD_LOC p)
        | none =>
          let r := flowSearch s { e with flgLo := 0, flgHi := 0 }
          { s with flw := { s.flw with plan := some r.1, victim := r.2 } }.put FLW_IND_CMD_GO true
    | 2 =>
      if !(listOk s e.alistLo && listOk s e.alistHi) then flwStatus 4 s
      else match find with
        | some p =>
          flwStatus 0 ((s.setFlowAt p { s.flowAt p with
              static := e.static, alistLo := e.alistLo, alistHi := e.alistHi, flgLo := e.flgLo, flgHi := e.flgHi,
              user := e.user }).wr FLW_IND_CMD_LOC p)
        | none => flwStatus 1 s
    | _ =>
      match find with
      | some p => flwStatus 0 ((flowDelete p false s).wr FLW_IND_CMD_LOC p)
      | none => flwStatus 1 s

/-- A counter read (R195): with CLR = 1 what it returned is subtracted, on-die and in HBM. -/
def counterRead (s : State) : State :=
  let cid := s.rd FLW_CRD_CMD_CID
  let r := counterValue cid s
  let s := (r.2.2.setReg FLW_CRD_BYTES.addr (BitVec.ofNat 64 r.1)).setReg FLW_CRD_PKTS.addr (BitVec.ofNat 64 r.2.1)
  let s := if s.bit FLW_CRD_CMD_CLR then zeroCounter cid s else s
  s.put FLW_CRD_CMD_GO false

/-- Writes of FLW registers. -/
def flwWrite (a : Nat) (v : Word) (o s : State) : State :=
  if a = FLW_IND_CMD.addr ∧ fieldOf v 63 1 = 1 then
    if o.bit FLW_IND_CMD_GO then o else flwOperate s
  else if a = FLW_CRD_CMD.addr ∧ fieldOf v 63 1 = 1 then counterRead s
  else if a = FLW_AGEQ.addr then
    if consOk 32768 16384 (o.rd FLW_AGEQ_PROD) (fieldOf v 0 15) then s
    else s.wr FLW_AGEQ_CONS (o.rd FLW_AGEQ_CONS)
  else s

/-! ### Flushing leaves (R137, R224, R237) -/

/-- A packet has a piece in a burst that has not left the modulator: it is tentative there (R137). -/
def inUnsentBurst (s : State) (p : QPkt) : Bool :=
  s.ube.chans.any (fun c => c.2.bursts.any (fun b => b.pieces.any (fun x => x.pkt.id == p.id)))

/-- Packets of a leaf that lie in unsent bursts are marked, to be freed if they are returned (R137). -/
def doomPieces (key : Nat) (s : State) : State :=
  { s with ube := { s.ube with chans := s.ube.chans.map (fun (c : Nat × UbeCh) =>
      (c.1, { c.2 with bursts := c.2.bursts.map (fun b =>
        { b with pieces := b.pieces.map (fun x =>
            if x.leaf = key then { x with pkt := { x.pkt with doomed := true } } else x) }) })) } }

/-- Speculative packets of a leaf that a flush frees: their records are discarded at their verdict (Table 8.3). -/
def markFlushed (key : Nat) (s : State) : State :=
  let tags := (s.lq key).pkts.filterMap (·.spec)
  tags.foldl (fun s t =>
    let c := s.spcCh t.1
    s.setSpcCh t.1 { c with pkts := c.pkts.map (fun (x : SpecPkt) => if x.num = t.2 then { x with flushed := true } else x) }) s

/-- Flushes a leaf: packets and cells freed (R213, R237). -/
def flushKey (key : Nat) (s : State) : State × Nat × Nat :=
  let s := markFlushed key s
  let r := flushLeaf (fun p => p.spec.isNone && inUnsentBurst s p) key s
  (leafTouch key (doomPieces key r.1), r.2)

/-- Discards every queued cell, in both directions, and counts them in FLUSHED (R220, R224). -/
def discardQueues (s : State) : State :=
  let r := (s.cel.queues.map (·.1)).foldl (fun (a : State × Nat) k =>
    let f := flushKey k a.1
    (f.1, a.2 + f.2.2)) (s, 0)
  r.1.addTo CEL_CNT2_FLUSHED r.2

/-! ### CEL (R223 to R225) -/

/-- Cells of the seven pools (R207). -/
def poolTotal (s : State) : Nat :=
  s.rd CEL_POOL_RA_RA + ([CEL_POOL_DS, CEL_POOL_US].map (fun r =>
    fieldOf (s.reg r.addr) 40 20 + fieldOf (s.reg r.addr) 20 20 + fieldOf (s.reg r.addr) 0 20)).sum

/-- A word of CEL_IND_DATA. -/
def celData (s : State) (n : Nat) : Word := s.reg (CEL_IND_DATA n).addr

/-- Shows the two data words. -/
def showCel (d0 d1 : Nat) (s : State) : State :=
  (s.setReg (CEL_IND_DATA 0).addr (BitVec.ofNat 64 d0)).setReg (CEL_IND_DATA 1).addr (BitVec.ofNat 64 d1)

/-- An access through CEL_IND_CMD (R225), or none where it is refused. -/
def celAccess (s : State) : Option State :=
  let n := s.rd CEL_IND_CMD_INDEX
  let f (i lo w : Nat) : Nat := fieldOf (celData s i) lo w
  match s.rd CEL_IND_CMD_TABLE with
  | 0 =>
    if 255 < n then none
    else if s.bit CEL_IND_CMD_RD then
      let p := s.profile n
      some (showCel (p.minRes * 2 ^ 44 + p.headKeep * 2 ^ 24 + p.spillHi * 16 + p.alpha) p.qmax s)
    else
      let p : Profile := { minRes := f 0 44 20, headKeep := f 0 24 20, spillHi := f 0 4 20, alpha := f 0 0 3, qmax := f 1 0 31 }
      if p.minRes ≤ 65536 ∧ 128 ≤ p.headKeep ∧ p.headKeep ≤ 65536 ∧ p.headKeep ≤ p.spillHi ∧ p.spillHi ≤ 786432 ∧
          1 ≤ p.qmax ∧ p.qmax ≤ 1074528256 then some (s.setProfile n p)
      else none
  | 1 =>
    let q := s.lq n
    if s.bit CEL_IND_CMD_RD then
      some (showCel (2 ^ 63 * b2n q.spillEn + 2 ^ 48 * q.prof + 2 ^ 47 * b2n q.s + 2 ^ 24 * q.q) q.c s)
    else if f 0 47 1 = b2n q.s ∧ f 0 24 20 = q.q ∧ f 1 0 31 = q.c then
      some (s.setLq n { q with spillEn := f 0 63 1 == 1, prof := f 0 48 8 })
    else none
  | _ => none

/-- Writes of CEL registers. Pool sizes and floors have reached here only with CEL stopped (R39). -/
def celWrite (a : Nat) (v : Word) (o s : State) : State :=
  if a = CEL_IND_CMD.addr ∧ fieldOf v 63 1 = 1 then
    if o.bit CEL_IND_CMD_GO then o.put CEL_IND_CMD_ERR true
    else match celAccess s with
      | some t => indDone CEL_IND_CMD_GO CEL_IND_CMD_ERR false t
      | none => indDone CEL_IND_CMD_GO CEL_IND_CMD_ERR true s
  else if a = CEL_POOL_RA.addr ∨ a = CEL_POOL_DS.addr ∨ a = CEL_POOL_US.addr then
    if 786432 < poolTotal s then o.put CEL_EVT_POOL_ERR true
    else if s.reg a = o.reg a then showFree 0 (showFree 1 s)
    else showFree 0 (showFree 1 (discardQueues s))
  else if a = CEL_FLOOR.addr then
    let s := (List.range 4).foldl (fun s n => s.wr ⟨a, 8 * n, 8⟩ (min 32 (s.rd ⟨a, 8 * n, 8⟩))) s
    if s.reg a = o.reg a then s else showPages (discardQueues s)
  else if a = CEL_TRAIN_CTL.addr then
    (List.range 4).foldl (fun s n =>
      if v.toNat.testBit n && s.rd (CEL_TRAIN_STATE n) == 1 then s.wr (CEL_TRAIN_STATE n) 2 else s) s
  else s

/-! ### SCH (R227, R234, R249) -/

/-- A subscriber may take a new PORT: its 16 leaves hold no cell, none tentative and none in an unsent burst (R227). -/
def subIdle (s : State) (sub : Nat) : Bool :=
  (List.range 16).all (fun i =>
    let k := sub / 8192 * 131072 + sub % 8192 * 16 + i
    let q := s.lq k
    q.q + q.c == 0 && q.pkts.isEmpty
      && !s.ube.chans.any (fun c => c.2.bursts.any (fun b => b.pieces.any (fun x => x.leaf == k))))

/-- An access through SCH_IND_CMD (R249), or none where it is refused. -/
def schAccess (s : State) : Option State :=
  let n := s.rd SCH_IND_CMD_INDEX
  let dir := s.rd SCH_IND_CMD_DIR
  let rd := s.bit SCH_IND_CMD_RD
  let d := schData s
  match s.rd SCH_IND_CMD_TABLE with
  | 0 =>
    let k := leafKey dir n
    if rd then some (showObj (s.leafObj k) true false s)
    else if objRefused (d 0) (d 1) (d 2) then none
    else some (s.setLeafObj k (objFrom (s.leafObj k) true false (d 0) (d 1) (d 2)))
  | 1 =>
    if 8191 < n then none
    else
      let k := dir * 8192 + n
      let x := s.sub k
      if rd then some (putSchData (2 ^ 63 * b2n x.en + x.port) 0 0 0 s)
      else
        let port := d 0 % 4096
        if (dir = 0 ∧ 63 < port) ∨ (port ≠ x.port ∧ !subIdle s k) then none
        else some (s.setSub k ⟨(d 0).testBit 63, port⟩)
  | 2 =>
    if (if dir = 0 then 1023 else 65535) < n then none
    else
      let k := dir * 131072 + n
      if rd then some (showObj (s.svc k) true true s)
      else if objRefused (d 0) (d 1) (d 2) then none
      else some (s.setSvc k (objFrom (s.svc k) true true (d 0) (d 1) (d 2)))
  | 3 =>
    if (if dir = 0 then 63 else 4095) < n then none
    else
      let k := dir * 8192 + n
      if rd then some (showObj (s.portObj k) false false s)
      else some (s.setPortObj k (objFrom (s.portObj k) false false (d 0) (d 1) (d 2)))
  | 4 =>
    if 65535 < n then none
    else
      let p := (s.policer n).refill s.polNow
      if rd then
        some (putSchData (2 ^ 63 * b2n p.en + 2 ^ 62 * b2n p.mode + p.red) (p.rates.cir * 2 ^ 32 + p.rates.pir)
          (p.rates.cbs * 2 ^ 24 + p.rates.pbs) (p.tokC / 65536 * 2 ^ 32 + p.tokP / 65536) s)
      else
        let r : Rates := { cir := d 1 / 2 ^ 32, pir := d 1 % 2 ^ 32, cbs := d 2 / 2 ^ 24 % 2 ^ 24, pbs := d 2 % 2 ^ 24 }
        let en := (d 0).testBit 63
        let full := en && !p.en
        some (s.setPolicer n
          { en := en, mode := (d 0).testBit 62, red := 0, rates := r, last := s.polNow, bad := false,
            tokC := if full then 65536 * r.cbs else min p.tokC (65536 * r.cbs),
            tokP := if full then 65536 * r.pbs else min p.tokP (65536 * r.pbs) })
  | _ => none

/-- Empties the bytes of a memory range: they read 0 (outside the boot ROM). -/
def clearMem (a n : Nat) (s : State) : State :=
  { s with mem := s.mem.filter (fun e => decide (e.1 < a) || decide (a + n ≤ e.1)) }

/-- Writes of SCH registers. -/
def schWrite (a : Nat) (v : Word) (o s : State) : State :=
  if a = SCH_IND_CMD.addr ∧ fieldOf v 63 1 = 1 then
    if o.bit SCH_IND_CMD_GO then o.put SCH_IND_CMD_ERR true
    else match schAccess s with
      | some t => indDone SCH_IND_CMD_GO SCH_IND_CMD_ERR false t
      | none => indDone SCH_IND_CMD_GO SCH_IND_CMD_ERR true s
  else if a = SCH_FLUSH.addr ∧ fieldOf v 63 1 = 1 then
    let r := flushKey (leafKey (s.rd SCH_FLUSH_DIR) (s.rd SCH_FLUSH_LEAF)) s
    r.1.wr SCH_FLUSH_PKTS r.2.1
  else if a = SCH_HIST_CTL.addr ∧ fieldOf v 62 1 = 1 then
    let base := s.rd SCH_HIST_BASE_BASE
    let s := if inCellar base && s.stackOk (stackOf base) then clearMem base 33554432 s else s
    s.wr SCH_HIST_CTL_SAMPLES 0
  else s

end Sys2Proof.Machine
end

