-- ==== Sys2Proof/Machine/Aes.lean ====
section
/-! DEFINITION. AES with 256-bit keys (FIPS 197), its counter and authenticated modes as the spec uses them (GCM of
R253, CMAC of R264, the key wrap of RFC 3394 of R265). The spec names these standards and does not restate them. -/

namespace Sys2Proof.Machine

/-- Rows of the AES substitution box (FIPS 197): row r, column c holds the image of byte 16 r + c. -/
def aesSboxRows : List (List Nat) :=
  [[0x63, 0x7c, 0x77, 0x7b, 0xf2, 0x6b, 0x6f, 0xc5, 0x30, 0x01, 0x67, 0x2b, 0xfe, 0xd7, 0xab, 0x76],
  [0xca, 0x82, 0xc9, 0x7d, 0xfa, 0x59, 0x47, 0xf0, 0xad, 0xd4, 0xa2, 0xaf, 0x9c, 0xa4, 0x72, 0xc0],
  [0xb7, 0xfd, 0x93, 0x26, 0x36, 0x3f, 0xf7, 0xcc, 0x34, 0xa5, 0xe5, 0xf1, 0x71, 0xd8, 0x31, 0x15],
  [0x04, 0xc7, 0x23, 0xc3, 0x18, 0x96, 0x05, 0x9a, 0x07, 0x12, 0x80, 0xe2, 0xeb, 0x27, 0xb2, 0x75],
  [0x09, 0x83, 0x2c, 0x1a, 0x1b, 0x6e, 0x5a, 0xa0, 0x52, 0x3b, 0xd6, 0xb3, 0x29, 0xe3, 0x2f, 0x84],
  [0x53, 0xd1, 0x00, 0xed, 0x20, 0xfc, 0xb1, 0x5b, 0x6a, 0xcb, 0xbe, 0x39, 0x4a, 0x4c, 0x58, 0xcf],
  [0xd0, 0xef, 0xaa, 0xfb, 0x43, 0x4d, 0x33, 0x85, 0x45, 0xf9, 0x02, 0x7f, 0x50, 0x3c, 0x9f, 0xa8],
  [0x51, 0xa3, 0x40, 0x8f, 0x92, 0x9d, 0x38, 0xf5, 0xbc, 0xb6, 0xda, 0x21, 0x10, 0xff, 0xf3, 0xd2]] ++
  [[0xcd, 0x0c, 0x13, 0xec, 0x5f, 0x97, 0x44, 0x17, 0xc4, 0xa7, 0x7e, 0x3d, 0x64, 0x5d, 0x19, 0x73],
  [0x60, 0x81, 0x4f, 0xdc, 0x22, 0x2a, 0x90, 0x88, 0x46, 0xee, 0xb8, 0x14, 0xde, 0x5e, 0x0b, 0xdb],
  [0xe0, 0x32, 0x3a, 0x0a, 0x49, 0x06, 0x24, 0x5c, 0xc2, 0xd3, 0xac, 0x62, 0x91, 0x95, 0xe4, 0x79],
  [0xe7, 0xc8, 0x37, 0x6d, 0x8d, 0xd5, 0x4e, 0xa9, 0x6c, 0x56, 0xf4, 0xea, 0x65, 0x7a, 0xae, 0x08],
  [0xba, 0x78, 0x25, 0x2e, 0x1c, 0xa6, 0xb4, 0xc6, 0xe8, 0xdd, 0x74, 0x1f, 0x4b, 0xbd, 0x8b, 0x8a],
  [0x70, 0x3e, 0xb5, 0x66, 0x48, 0x03, 0xf6, 0x0e, 0x61, 0x35, 0x57, 0xb9, 0x86, 0xc1, 0x1d, 0x9e],
  [0xe1, 0xf8, 0x98, 0x11, 0x69, 0xd9, 0x8e, 0x94, 0x9b, 0x1e, 0x87, 0xe9, 0xce, 0x55, 0x28, 0xdf],
  [0x8c, 0xa1, 0x89, 0x0d, 0xbf, 0xe6, 0x42, 0x68, 0x41, 0x99, 0x2d, 0x0f, 0xb0, 0x54, 0xbb, 0x16]]

/-- Rows of the inverse substitution box. -/
def aesInvSboxRows : List (List Nat) :=
  [[0x52, 0x09, 0x6a, 0xd5, 0x30, 0x36, 0xa5, 0x38, 0xbf, 0x40, 0xa3, 0x9e, 0x81, 0xf3, 0xd7, 0xfb],
  [0x7c, 0xe3, 0x39, 0x82, 0x9b, 0x2f, 0xff, 0x87, 0x34, 0x8e, 0x43, 0x44, 0xc4, 0xde, 0xe9, 0xcb],
  [0x54, 0x7b, 0x94, 0x32, 0xa6, 0xc2, 0x23, 0x3d, 0xee, 0x4c, 0x95, 0x0b, 0x42, 0xfa, 0xc3, 0x4e],
  [0x08, 0x2e, 0xa1, 0x66, 0x28, 0xd9, 0x24, 0xb2, 0x76, 0x5b, 0xa2, 0x49, 0x6d, 0x8b, 0xd1, 0x25],
  [0x72, 0xf8, 0xf6, 0x64, 0x86, 0x68, 0x98, 0x16, 0xd4, 0xa4, 0x5c, 0xcc, 0x5d, 0x65, 0xb6, 0x92],
  [0x6c, 0x70, 0x48, 0x50, 0xfd, 0xed, 0xb9, 0xda, 0x5e, 0x15, 0x46, 0x57, 0xa7, 0x8d, 0x9d, 0x84],
  [0x90, 0xd8, 0xab, 0x00, 0x8c, 0xbc, 0xd3, 0x0a, 0xf7, 0xe4, 0x58, 0x05, 0xb8, 0xb3, 0x45, 0x06],
  [0xd0, 0x2c, 0x1e, 0x8f, 0xca, 0x3f, 0x0f, 0x02, 0xc1, 0xaf, 0xbd, 0x03, 0x01, 0x13, 0x8a, 0x6b]] ++
  [[0x3a, 0x91, 0x11, 0x41, 0x4f, 0x67, 0xdc, 0xea, 0x97, 0xf2, 0xcf, 0xce, 0xf0, 0xb4, 0xe6, 0x73],
  [0x96, 0xac, 0x74, 0x22, 0xe7, 0xad, 0x35, 0x85, 0xe2, 0xf9, 0x37, 0xe8, 0x1c, 0x75, 0xdf, 0x6e],
  [0x47, 0xf1, 0x1a, 0x71, 0x1d, 0x29, 0xc5, 0x89, 0x6f, 0xb7, 0x62, 0x0e, 0xaa, 0x18, 0xbe, 0x1b],
  [0xfc, 0x56, 0x3e, 0x4b, 0xc6, 0xd2, 0x79, 0x20, 0x9a, 0xdb, 0xc0, 0xfe, 0x78, 0xcd, 0x5a, 0xf4],
  [0x1f, 0xdd, 0xa8, 0x33, 0x88, 0x07, 0xc7, 0x31, 0xb1, 0x12, 0x10, 0x59, 0x27, 0x80, 0xec, 0x5f],
  [0x60, 0x51, 0x7f, 0xa9, 0x19, 0xb5, 0x4a, 0x0d, 0x2d, 0xe5, 0x7a, 0x9f, 0x93, 0xc9, 0x9c, 0xef],
  [0xa0, 0xe0, 0x3b, 0x4d, 0xae, 0x2a, 0xf5, 0xb0, 0xc8, 0xeb, 0xbb, 0x3c, 0x83, 0x53, 0x99, 0x61],
  [0x17, 0x2b, 0x04, 0x7e, 0xba, 0x77, 0xd6, 0x26, 0xe1, 0x69, 0x14, 0x63, 0x55, 0x21, 0x0c, 0x7d]]

/-- A substitution-box look-up. -/
def aesLook (rows : List (List Nat)) (b : Byte) : Byte :=
  byte ((rows.getD (b.toNat / 16) []).getD (b.toNat % 16) 0)

/-- SubBytes of one byte. -/
def aesSub (b : Byte) : Byte := aesLook aesSboxRows b

/-- InvSubBytes of one byte. -/
def aesInvSub (b : Byte) : Byte := aesLook aesInvSboxRows b

/-- Multiplication by x in GF(2⁸). -/
def gfX (b : Byte) : Byte := if b.toNat < 128 then b <<< 1 else (b <<< 1) ^^^ 0x1b

/-- Multiplication by a four-bit constant in GF(2⁸). -/
def gfMul (n : Nat) (b : Byte) : Byte :=
  let b2 := gfX b
  let b4 := gfX b2
  let b8 := gfX b4
  (if n.testBit 0 then b else 0) ^^^ (if n.testBit 1 then b2 else 0) ^^^
  (if n.testBit 2 then b4 else 0) ^^^ (if n.testBit 3 then b8 else 0)

/-- The round constant of the i-th 8-word group of the key schedule. -/
def aesRcon (i : Nat) : Byte := (List.range (i - 1)).foldl (fun b _ => gfX b) 1

/-- The next word of the AES-256 key schedule after `ws` (newest first). -/
def aesNextWord (ws : List Bytes) : Bytes :=
  let i := ws.length
  let prev := ws.getD 0 []
  let back := ws.getD 7 []
  let t :=
    if i % 8 = 0 then
      xorBytes ((prev.drop 1 ++ prev.take 1).map aesSub) [aesRcon (i / 8), 0, 0, 0]
    else if i % 8 = 4 then prev.map aesSub
    else prev
  xorBytes back t

/-- The 15 round keys of a 32-byte key. -/
def aesRoundKeys (key : Bytes) : List Bytes :=
  let w0 := ((List.range 8).map (fun i => slice key (4 * i) 4)).reverse
  let ws := ((List.range 52).foldl (fun ws _ => aesNextWord ws :: ws) w0).reverse
  (List.range 15).map (fun r => (slice' ws (4 * r)).flatten)
where
  /-- Four words from index `i`. -/
  slice' (ws : List Bytes) (i : Nat) : List Bytes := (ws.drop i).take 4

/-- ShiftRows of a 16-byte state (columns are groups of 4 bytes). -/
def aesShiftRows (s : Bytes) : Bytes :=
  (List.range 16).map (fun i => s.getD ((i + 4 * (i % 4)) % 16) 0)

/-- InvShiftRows. -/
def aesInvShiftRows (s : Bytes) : Bytes :=
  (List.range 16).map (fun i => s.getD ((i + 12 * (i % 4)) % 16) 0)

/-- MixColumns with the first row of its circulant matrix. -/
def aesMix (m : List Nat) (s : Bytes) : Bytes :=
  (List.range 16).map (fun i =>
    let c := i / 4
    let r := i % 4
    (List.range 4).foldl (fun acc j => acc ^^^ gfMul (m.getD ((j + 4 - r) % 4) 0) (s.getD (4 * c + j) 0)) (0 : Byte))

/-- AES-256 encryption of one 16-byte block. -/
def aesEncrypt (key block : Bytes) : Bytes :=
  match aesRoundKeys key with
  | [] => block
  | k0 :: ks =>
    let s := xorBytes block k0
    let s := (ks.take 13).foldl (fun s k => xorBytes (aesMix [2, 3, 1, 1] (aesShiftRows (s.map aesSub))) k) s
    xorBytes (aesShiftRows (s.map aesSub)) (ks.getD 13 [])

/-- AES-256 decryption of one 16-byte block. -/
def aesDecrypt (key block : Bytes) : Bytes :=
  match (aesRoundKeys key).reverse with
  | [] => block
  | k0 :: ks =>
    let s := (aesInvShiftRows (xorBytes block k0)).map aesInvSub
    let s := (ks.take 13).foldl
      (fun s k => (aesInvShiftRows (aesMix [14, 11, 13, 9] (xorBytes s k))).map aesInvSub) s
    xorBytes s (ks.getD 13 [])

/-- Multiplication in the GCM field of 128-bit blocks. -/
def gcmMul (x y : Nat) : Nat :=
  ((List.range 128).foldl (fun (p : Nat × Nat) i =>
    let z := if x.testBit (127 - i) then p.1 ^^^ p.2 else p.1
    let v := if p.2 % 2 = 1 then (p.2 / 2) ^^^ (0xE1 * 2 ^ 120) else p.2 / 2
    (z, v)) (0, y)).1

/-- The 16-byte blocks of a string, the last padded with zeros. -/
def blocks16 (l : Bytes) : List Bytes :=
  (List.range ((l.length + 15) / 16)).map (fun i => padTo 16 (slice l (16 * i) 16))

/-- GHASH of additional data and ciphertext under hash key `h`. -/
def ghash (h : Nat) (aad ct : Bytes) : Nat :=
  let l := blocks16 aad ++ blocks16 ct ++ [beBytes 8 (8 * aad.length) ++ beBytes 8 (8 * ct.length)]
  l.foldl (fun y b => gcmMul (y ^^^ beNat b) h) 0

/-- The counter-mode key stream applied to a string, from block counter `ctr` under a 12-byte IV. -/
def gcmCtr (key iv : Bytes) (ctr : Nat) (l : Bytes) : Bytes :=
  ((List.range ((l.length + 15) / 16)).map (fun i =>
    xorBytes (slice l (16 * i) 16) (aesEncrypt key (iv ++ beBytes 4 (ctr + i))))).flatten

/-- The 16-byte GCM tag of ciphertext `ct` with additional data `aad`. -/
def gcmTag (key iv aad ct : Bytes) : Bytes :=
  let h := beNat (aesEncrypt key (zeros 16))
  xorBytes (beBytes 16 (ghash h aad ct)) (aesEncrypt key (iv ++ beBytes 4 1))

/-- AES-256-GCM encryption: ciphertext and tag. -/
def gcmEncrypt (key iv aad pt : Bytes) : Bytes × Bytes :=
  let ct := gcmCtr key iv 2 pt
  (ct, gcmTag key iv aad ct)

/-- AES-256-GCM decryption: the plaintext if the tag is right. -/
def gcmDecrypt (key iv aad ct tag : Bytes) : Option Bytes :=
  if gcmTag key iv aad ct = tag then some (gcmCtr key iv 2 ct) else none

/-- Doubling of a CMAC subkey in GF(2¹²⁸). -/
def cmacDouble (x : Nat) : Nat :=
  if x.testBit 127 then ((2 * x) % 2 ^ 128) ^^^ 0x87 else 2 * x

/-- AES-256 CMAC of a string (NIST SP 800-38B). -/
def cmac (key l : Bytes) : Bytes :=
  let k1 := cmacDouble (beNat (aesEncrypt key (zeros 16)))
  let k2 := cmacDouble k1
  let n := max 1 ((l.length + 15) / 16)
  let last := l.drop (16 * (n - 1))
  let m := if last.length = 16 then xorBytes last (beBytes 16 k1)
           else xorBytes (padTo 16 (last ++ [0x80])) (beBytes 16 k2)
  let x := (List.range (n - 1)).foldl (fun x i => aesEncrypt key (xorBytes x (slice l (16 * i) 16))) (zeros 16)
  aesEncrypt key (xorBytes x m)

/-- One step of the RFC 3394 unwrapping: the integrity register and the registers R1 to Rn. -/
def unwrapStep (kek : Bytes) (n t : Nat) (p : Bytes × List Bytes) : Bytes × List Bytes :=
  let i := (t - 1) % n
  let a := xorBytes p.1 (beBytes 8 t)
  let b := aesDecrypt kek (a ++ p.2.getD i [])
  (b.take 8, p.2.set i (b.drop 8))

/-- RFC 3394 key unwrapping: the key if the integrity value is right. -/
def keyUnwrap (kek c : Bytes) : Option Bytes :=
  let n := c.length / 8 - 1
  let r := (List.range n).map (fun i => slice c (8 * (i + 1)) 8)
  let q := (List.range (6 * n)).foldl (fun p j => unwrapStep kek n (6 * n - j) p) (c.take 8, r)
  if q.1 = List.replicate 8 (0xA6 : Byte) then some q.2.flatten else none

end Sys2Proof.Machine
end

