-- ==== Sys2Proof/Machine/KlnOps.lean ====
section
/-! DEFINITION. Key slots, the Kiln and cipher requests (R250 to R277). The result of a request is computed when it is
enqueued; the request then waits in `kln.queue`, bound to its generation, until it is dispatched and completes. -/

namespace Sys2Proof.Machine

/-! ### Key slots (Table 11.4) -/

/-- Requests are still bound to a generation. -/
def undrained (g : Option KeyGen) : Option KeyGen := g.filter (fun k => k.bound != 0)

/-- A generation for a new key, with its own number. -/
def newGen (key : Bytes) (s : State) : KeyGen × State :=
  (⟨s.kln.nextGid, key, 0, 0, false⟩, { s with kln := { s.kln with nextGid := s.kln.nextGid + 1 } })

/-- Writes a new key to a slot that is not ERASING and whose previous generation is drained or absent: the generation it
replaces is zeroised at once where nothing is bound to it. -/
def slotTake (n use : Nat) (key : Bytes) (s : State) : State :=
  let r := newGen key s
  r.2.setSlot n
    { st := .live, use := use, cur := some r.1, prev := undrained (s.slot n).cur, held := none, waiting := none }

/-- A rewrite (Table 11.4): a derivation, an unwrap or a LOAD. To an ERASING slot only a derivation comes this way. -/
def slotRewrite (n use : Nat) (key : Bytes) (s : State) : State :=
  let k := s.slot n
  match k.st with
  | .empty => slotTake n use key s
  | .retired => slotTake n use key s
  | .live =>
    if (undrained k.prev).isNone then slotTake n use key s else s.setSlot n { k with held := some key }
  | .erasing => s.setSlot n { k with waiting := some (use, key) }

/-- An ERASING slot both of whose generations are drained becomes EMPTY, and a waiting derivation is applied. -/
def slotEmptied (n : Nat) (s : State) : State :=
  let k := s.slot n
  if k.st = .erasing ∧ (undrained k.cur).isNone ∧ (undrained k.prev).isNone then
    let t := s.setSlot n {}
    match k.waiting with
    | some (u, key) => slotTake n u key t
    | none => t
  else s

/-- Erase (Table 11.4). A derivation that waits in an ERASING slot is discarded. -/
def slotErase (n : Nat) (s : State) : State :=
  let k := s.slot n
  match k.st with
  | .empty => s
  | .erasing => s.setSlot n { k with waiting := none }
  | _ => slotEmptied n (s.setSlot n { k with st := .erasing, held := none, waiting := none })

/-- Retirement (R257 to R259). -/
def slotRetire (n : Nat) (s : State) : State :=
  let k := s.slot n
  if k.st = .live then (s.setSlot n { k with st := .retired, held := none }).inc KLN_CNT_RETIRED else s

/-- The effects of a generation's draining: a previous generation is zeroised and a held rewrite applied; a slot being
erased becomes EMPTY (R261). -/
def slotDrained (n : Nat) (s : State) : State :=
  let k := s.slot n
  if k.st = .erasing then slotEmptied n s
  else if (undrained k.prev).isNone then
    let s := s.setSlot n { k with prev := none }
    match k.st, k.held with
    | .live, some key => slotTake n k.use key s
    | _, _ => s
  else s

/-- One more or one fewer request bound to a generation of a slot. -/
def slotBind (n gid : Nat) (up : Bool) (s : State) : State :=
  let k := s.slot n
  let f (g : KeyGen) : KeyGen :=
    if g.gid = gid then { g with bound := if up then g.bound + 1 else g.bound - 1 } else g
  s.setSlot n { k with cur := k.cur.map f, prev := k.prev.map f }

/-! ### Requests (R251, R252, R257, R260) -/

/-- How a request fares when its source makes it. -/
inductive KeyRes where
  | full
  | absent
  | retired
  | bound (key : Bytes)
  deriving DecidableEq, Repr

/-- Requests a hardware source may have in its queue (R251). -/
def cipDepth : Nat := 2048

/-- The queue of a hardware source is full; the firmware ring has its descriptors instead (R251, R275). -/
def cipFull (s : State) (src : CipSrc) : Bool :=
  src != .fwRing && decide (cipDepth ≤ s.kln.queue.countP (fun (r : CipReq) => r.src == src))

/-- The USE that a source accepts (R252). -/
def cipUse : CipSrc → Nat
  | .lineDs | .runAhead | .lineUs => 1
  | .macTx | .macRx => 2
  | .fwRing => 3

/-- A source whose request is discarded when its queue is full; the others wait, or do not issue (Table 11.2). -/
def cipDiscards : CipSrc → Bool
  | .lineDs | .macRx => true
  | _ => false

/-- Binds a request to the current generation of its slot and puts it in its source's queue (R260). A frame counter is
given where it is tested and set against HIGH_FC (R257). -/
def cipRequest (src : CipSrc) (n : Nat) (fc : Option Nat) (s : State) : KeyRes × State :=
  let k := s.slot n
  if cipFull s src then
    (.full, if cipDiscards src then s.inc CIP_CNT2_QFULL else s)
  else if k.st = .empty ∨ k.st = .erasing ∨ k.use ≠ cipUse src then (.absent, s.inc CIP_CNT0_KEY_ABSENT)
  else match k.cur with
    | none => (.absent, s.inc CIP_CNT0_KEY_ABSENT)
    | some g =>
      if k.st = .retired ∨ g.bad then (.retired, s.inc CIP_CNT1_RETIRED_REQ)
      else if (fc.map (fun f => decide (f < g.highFc))).getD false then
        (.retired, (slotRetire n s).inc CIP_CNT1_RETIRED_REQ)
      else
        let g' : KeyGen := { g with highFc := fc.getD g.highFc, bound := g.bound + 1 }
        let s := s.setSlot n { k with cur := some g' }
        (.bound g.key, { s with kln := { s.kln with queue := s.kln.queue ++ [{ src := src, slot := n, gid := g.gid, lane := none }] } })

/-- A request of the run-ahead, for a packet of channel `ch` (R251): it neither tests nor sets HIGH_FC (R257). -/
def cipAhead (ch num n : Nat) (s : State) : KeyRes × State :=
  match cipRequest .runAhead n none s with
  | (.bound key, t) =>
    (.bound key, { t with kln := { t.kln with queue := match t.kln.queue.reverse with
      | r :: l => ({ r with ra := some (ch, num) } :: l).reverse
      | [] => [] } })
  | r => r

/-- An uncorrectable word of a key slot: its current generation is unusable, as if it were retired (R263). -/
def slotBad (n : Nat) (s : State) : State :=
  let k := s.slot n
  let cur := k.cur.map (fun (g : KeyGen) => { g with bad := true })
  s.setSlot n { k with cur := cur, st := if k.st = .live then .retired else k.st, held := if k.st = .live then none else k.held }

/-- An operation on a slot is not complete: a rewrite is held, a derivation waits, or the slot is being erased (Table 11.4). -/
def slotPending (s : State) (n : Nat) : Bool :=
  (s.slot n).held.isSome || (s.slot n).waiting.isSome || (s.slot n).st == .erasing

/-- Class A sources in the order of Table 11.2 (R251). -/
def classA : List CipSrc := [.lineDs, .lineUs, .macTx, .macRx]

/-- A source has a request that is not dispatched. -/
def cipWaits (s : State) (src : CipSrc) : Bool := s.kln.queue.any (fun r => r.src == src && r.lane.isNone)

/-- The source served next: class A in rotation, then the run-ahead, then the firmware ring (R251). -/
def cipNext (s : State) : Option CipSrc :=
  let order := (List.range 4).map (fun i => classA.getD ((s.kln.turn + i) % 4) .lineDs) ++ [.runAhead, .fwRing]
  order.find? (cipWaits s)

/-- Gives the first request of a list that `p` selects its lane. -/
def dispatchFirst (p : CipReq → Bool) (lane : Nat) : List CipReq → List CipReq
  | [] => []
  | r :: t => if p r then { r with lane := some lane } :: t else r :: dispatchFirst p lane t

/-- The oldest request of the source whose turn it is goes to a lane that is in service (R251). -/
def cipDispatch (lane : Nat) (s : State) : State :=
  if s.kln.lanesOut.contains lane || !s.runs blkCIP then s
  else match cipNext s with
    | none => s
    | some src =>
      let q := dispatchFirst (fun r => r.src == src && r.lane.isNone) lane s.kln.queue
      let turn := match classA.findIdx? (· == src) with
        | some i => (i + 1) % 4
        | none => s.kln.turn
      { s with kln := { s.kln with queue := q, turn := turn } }

/-- A request leaves its queue: its generation has one request fewer bound (R260). -/
def cipLeave (r : CipReq) (s : State) : State :=
  slotBind r.slot r.gid false { s with kln := { s.kln with queue := s.kln.queue.erase r } }

/-- The oldest request of a source completes, if it has been dispatched: results return in the order of enqueueing (R251). Gives
the request. -/
def cipComplete (src : CipSrc) (s : State) : Option CipReq × State :=
  match s.kln.queue.find? (fun r => r.src == src) with
  | some r => if r.lane.isSome then (some r, cipLeave r s) else (none, s)
  | none => (none, s)

/-- A run-ahead request that has not been dispatched when its codeword's final decision arrives is withdrawn (R251). -/
def cipWithdraw (ch num : Nat) (s : State) : Bool × State :=
  match s.kln.queue.find? (fun (r : CipReq) => r.ra == some (ch, num) && r.lane.isNone) with
  | some r => (true, (cipLeave r s).inc CIP_CNT2_RA_YIELD)
  | none => (false, s)

/-! ### Line encryption (R253, Table 11.3) -/

/-- The 12-byte IV of a fragment: frame counter, channel, direction, fragment index. -/
def lineIv (fc ch dir fidx : Nat) : Bytes := beBytes 12 (fc * 2 ^ 48 + ch * 2 ^ 44 + dir * 2 ^ 43 + fidx % 2 ^ 19 * 2 ^ 24)

/-- Key index states are 0, 1 or 2; 3 is treated as 0 (R254). -/
def kiState (n : Nat) : Nat := if n = 3 then 0 else n

/-- The slot of a key index (Table 11.2). -/
def kiSlot (kslot ki : Nat) : Nat := (kslot + ki - 1) % 8192

/-- KI_US of the last valid header of a pair (R254). -/
def kiUs (s : State) (k : Nat) : Nat := kiState (s.rd (KLN_CP_STAT_KI_US k))

/-- A slot is LIVE. -/
def slotLive (s : State) (n : Nat) : Bool := (s.slot n).st == .live

/-! ### Derivation (R264 to R270) -/

/-- The label of Table 11.6. -/
def kdfLabel (usage cp tn sgrp kidx epoch : Nat) (sn : Word) : Bytes :=
  [byte usage, byte 1, byte cp] ++ beBytes 2 (tn % 1024) ++ [byte sgrp, byte kidx] ++ beBytes 4 epoch ++ wordBytes sn
    ++ zeros 13

/-- The counter-mode KDF of NIST SP 800-108 (R264). -/
def kdf (root label context : Bytes) : Bytes :=
  let block (i : Nat) : Bytes := cmac root (beBytes 4 i ++ label ++ [0] ++ context ++ beBytes 4 256)
  block 1 ++ block 2

/-- ACT_SN. -/
def serial (s : State) : Word := s.reg ACT_SN.addr

/-- Key of `pair × 6 + usage × 2 + index − 1` in the epoch map. -/
def epochKey (k u i : Nat) : Nat := k * 6 + u * 2 + (i - 1)

/-- Shows KEK_V, ROOT_V and CUR of a pair in KLN_CP_STAT. -/
def klnShow (k : Nat) (s : State) : State :=
  let s := s.put (KLN_CP_STAT_KEK_V k) (s.kek k).isSome
  let roots := ((List.range 3).map (fun u => 2 ^ u * b2n (s.root (3 * k + u)).isSome)).sum
  let cur := ((List.range 6).map (fun i =>
    let e := s.epoch (k * 6 + i)
    2 ^ i * b2n (e.keyed && !e.stale))).sum
  (s.wr (KLN_CP_STAT_ROOT_V k) roots).wr (KLN_CP_STAT_CUR k) cur

/-- The valid bindings of a pair and usage. -/
def bindingsOf (s : State) (k u : Nat) : List Binding :=
  (s.kln.bindings.map (·.2)).filter (fun (b : Binding) => b.valid && b.cp == k && b.usage == u)

/-- Derives one index of one binding (R270): nothing without a root or an epoch, or where the index is stale (R269). -/
def deriveIndex (b : Binding) (i : Nat) (s : State) : State :=
  let e := s.epoch (epochKey b.cp b.usage i)
  match s.root (3 * b.cp + b.usage), e.epoch with
  | some root, some ep =>
    if e.stale then s
    else
      let label := kdfLabel (b.usage + 1) b.cp (s.rd (ACT_CP_STATE_TN b.cp)) b.sgrp i ep (serial s)
      let s := slotRewrite ((b.base + i - 1) % 8192) (if b.usage = 2 then 3 else 1) (kdf root label []) s
      (s.setEpoch (epochKey b.cp b.usage i) { e with keyed := true }).inc KLN_CNT_DERIVED
  | _, _ => s

/-- Sets the epoch of an index, clears its stale mark and derives it for every binding (Table 11.7). -/
def keyIndex (k u i epoch : Nat) (s : State) : State :=
  let s := s.setEpoch (epochKey k u i) { epoch := some epoch, stale := false, keyed := true }
  let s := s.setLastEpoch (3 * k + u) (some epoch)
  (bindingsOf s k u).foldl (fun s b => deriveIndex b i s) s

/-- Erases one index of every binding of a pair and usage. -/
def eraseIndex (k u i : Nat) (s : State) : State :=
  let s := (bindingsOf s k u).foldl (fun s b => slotErase ((b.base + i - 1) % 8192) s) s
  s.setEpoch (epochKey k u i) { s.epoch (epochKey k u i) with keyed := false }

/-- KEY_CONTROL (R268): the state after it and its STATUS. -/
def keyControl (k op usage kidx epoch : Nat) (wrapped : Bytes) (s : State) : State × Nat :=
  if usage = 3 ∨ kidx = 0 ∨ kidx = 3 then (s, 1)
  else if 3 < op then (s, 3)
  else match op with
    | 0 =>
      match (s.kek k).bind (fun kek => keyUnwrap kek wrapped) with
      | none => (s.setBit KLN_EVT_UNWRAP k, 1)
      | some root =>
        let s := s.setRoot (3 * k + usage) (some root)
        let o := epochKey k usage (3 - kidx)
        let s := s.setEpoch o { s.epoch o with stale := true }
        (klnShow k (keyIndex k usage kidx epoch s), 0)
    | 1 =>
      if (s.root (3 * k + usage)).isNone then (s, 2)
      else if ((s.lastEpoch (3 * k + usage)).map (fun e => decide (epoch ≤ e))).getD false then (s, 1)
      else (klnShow k (keyIndex k usage kidx epoch s), 0)
    | 2 => (klnShow k (eraseIndex k usage kidx s), 0)
    | _ =>
      let s := eraseIndex k usage 2 (eraseIndex k usage 1 s)
      let s := (s.setRoot (3 * k + usage) none).setLastEpoch (3 * k + usage) none
      (klnShow k ((s.setEpoch (epochKey k usage 1) {}).setEpoch (epochKey k usage 2) {}), 0)

/-- The slots that a KEY_CONTROL derives or erases (Table 11.7). -/
def keySlots (s : State) (k op usage kidx : Nat) : List Nat :=
  (bindingsOf s k usage).flatMap (fun b =>
    if op = 3 then [b.base, (b.base + 1) % 8192] else [(b.base + kidx - 1) % 8192])

/-- What KLN does on entry of a pair to Initial, Stopped or Silenced (R270). -/
def klnForget (k : Nat) (s : State) : State :=
  let s := ((s.setRoot (3 * k) none).setRoot (3 * k + 1) none).setRoot (3 * k + 2) none
  let s := s.setKek k none
  let bs := (s.kln.bindings.map (·.2)).filter (fun (b : Binding) => b.valid && b.cp == k)
  let s := bs.foldl (fun s b => slotErase ((b.base + 1) % 8192) (slotErase b.base s)) s
  let s := (List.range 6).foldl (fun s i => s.setEpoch (k * 6 + i) {}) s
  let s := (List.range 3).foldl (fun s u => s.setLastEpoch (3 * k + u) none) s
  klnShow k (s.wr (KLN_CP_STAT_FC_REF k) 0)

/-- A valid header of channel k (R254, R258): a counter not above FC_REF retires the pair's line keys. -/
def klnHeader (k fc kiDs kiUs : Nat) (s : State) : State :=
  let s := (s.wr (KLN_CP_STAT_KI_DS k) kiDs).wr (KLN_CP_STAT_KI_US k) kiUs
  let s :=
    if fc ≤ s.rd (KLN_CP_STAT_FC_REF k) then
      let bs := bindingsOf s k 0 ++ bindingsOf s k 1
      (bs.foldl (fun s b => slotRetire ((b.base + 1) % 8192) (slotRetire b.base s)) s).setBit KLN_EVT_RETIRE k
    else s
  s.wr (KLN_CP_STAT_FC_REF k) fc

/-- AUTH_CHALLENGE (R267): the tag of AUTH_RESP and the state with the new KEK; none until RK is programmed (R266). -/
def klnAuth (k tn mseq : Nat) (nonce : Bytes) (s : State) : Option (Bytes × State) :=
  s.kln.rk.map (fun rk =>
    let label (u : Nat) : Bytes := kdfLabel u k tn 0 0 0 (serial s)
    let auth := kdf rk (label 6) nonce
    let tag := cmac auth (nonce ++ wordBytes (serial s) ++ [byte k] ++ beBytes 2 tn ++ [byte mseq])
    (tag, klnShow k (s.setKek k (some (kdf rk (label 5) nonce)))))

/-! ### Commands of the Kiln (R266, R270, R271, R277) -/

/-- The bytes of KLN_DATA0 on, `n` words. -/
def klnBytes (s : State) (n : Nat) : Bytes := ((List.range n).map (fun i => wordBytes (s.klnData i))).flatten

/-- KLN clears the data words after each command (R263). -/
def klnClear (s : State) : State := { s with kln := { s.kln with data := [] } }

/-- A binding other than `skip` holds a slot. -/
def slotHeld (s : State) (skip : Option Nat) (n : Nat) : Bool :=
  s.kln.bindings.any (fun (e : Nat × Binding) =>
    e.2.valid && skip != some e.1 && (e.2.base == n || (e.2.base + 1) % 8192 == n))

/-- A firmware write of a key to a slot is refused: the slot is held by a binding, or has another USE and is not EMPTY. -/
def slotRefuses (s : State) (n use : Nat) : Bool :=
  slotHeld s none n || ((s.slot n).st != .empty && (s.slot n).use != use)

/-- The operation of KLN_CMD (Table 11.8): STATUS and the state after it. -/
def klnOperate (s : State) : Nat × State :=
  let root := s.rd KLN_CMD_ROOT
  let use := s.rd KLN_CMD_USE
  let n := s.rd KLN_CMD_SLOT
  let fw := decide (48 ≤ root)
  let k := s.slot n
  match s.rd KLN_CMD_OP with
  | 0 =>
    let label := klnBytes s 4
    let lu := beAt label 0 1
    let ok := (fw && (lu == 3 || lu == 4)) || (!fw && root % 3 == 2 && lu == 3 && beAt label 2 1 == root / 3)
    if !ok || use != (if lu = 4 then 2 else 3) || slotRefuses s n use then (1, s)
    else match s.root root with
      | none => (3, s)
      | some r => (0, (slotRewrite n use (kdf r label []) s).inc KLN_CNT_DERIVED)
  | 1 =>
    if !fw || !(use == 2 || use == 3) || slotRefuses s n use then (1, s)
    else match s.root root with
      | none => (3, s)
      | some r =>
        if k.st = .erasing then (4, s)
        else match keyUnwrap r (klnBytes s 5) with
          | none => (2, s)
          | some key => (0, slotRewrite n use key s)
  | 2 =>
    if !(use == 2 || use == 3) || slotRefuses s n use then (1, s)
    else if k.st = .erasing then (4, s)
    else (0, slotRewrite n use (klnBytes s 4) s)
  | 3 => if k.use = 2 ∨ k.use = 3 then (0, slotErase n s) else (1, s)
  | 4 => if fw then (0, s.setRoot root (some (klnBytes s 4))) else (1, s)
  | 5 => if fw then (0, s.setRoot root none) else (1, s)
  | 6 =>
    let st := match k.st with | .empty => 0 | .live => 1 | .retired => 2 | .erasing => 3
    let s := (s.wr KLN_SLOTINFO_STATE st).wr KLN_SLOTINFO_USE k.use
    let s := (s.put KLN_SLOTINFO_PREV k.prev.isSome).put KLN_SLOTINFO_REWR k.held.isSome
    (0, s.wr KLN_SLOTINFO_HIGH_FC ((k.cur.map (·.highFc)).getD 0))
  | _ => (1, s)

/-- The binding that KLN_BIND_DATA describes. -/
def bindFrom (s : State) : Binding :=
  { valid := s.bit KLN_BIND_DATA_VALID, usage := s.rd KLN_BIND_DATA_USAGE, cp := s.rd KLN_BIND_DATA_CP,
    sgrp := s.rd KLN_BIND_DATA_SGRP, base := s.rd KLN_BIND_DATA_BASE }

/-- Shows a binding in KLN_BIND_DATA. -/
def showBind (b : Binding) (s : State) : State :=
  let s := (s.put KLN_BIND_DATA_VALID b.valid).wr KLN_BIND_DATA_USAGE b.usage
  ((s.wr KLN_BIND_DATA_CP b.cp).wr KLN_BIND_DATA_SGRP b.sgrp).wr KLN_BIND_DATA_BASE b.base

/-- A binding write that R277 or Table's USAGE 3 refuses. -/
def bindRefused (s : State) (n : Nat) (b : Binding) : Bool :=
  let slots := [b.base, (b.base + 1) % 8192]
  b.usage == 3 ||
    (b.valid && ((s.binding n).valid ||
      s.kln.bindings.any (fun (e : Nat × Binding) =>
        e.1 != n && e.2.valid && e.2.cp == b.cp && e.2.usage == b.usage && e.2.sgrp == b.sgrp) ||
      slots.any (fun m => slotHeld s (some n) m || (decide (2 ≤ (s.slot m).use) && (s.slot m).st != .empty))))

/-- A binding write (R270): VALID = 1 derives its keys, VALID = 0 erases both slots of the binding it replaces. -/
def bindWrite (n : Nat) (b : Binding) (s : State) : State :=
  let old := s.binding n
  let s := s.setBinding n b
  if b.valid then klnShow b.cp (deriveIndex b 2 (deriveIndex b 1 s))
  else if old.valid then slotErase ((old.base + 1) % 8192) (slotErase old.base s)
  else s

/-- Writes of KLN registers: state before, state with the plain fields stored, value. -/
def klnWrite (a : Nat) (v : Word) (o s : State) : State :=
  if (KLN_DATA 0).addr ≤ a ∧ a ≤ (KLN_DATA 4).addr then s.setKlnData ((a - (KLN_DATA 0).addr) / 8) v
  else if a = KLN_CMD.addr ∧ fieldOf v 63 1 = 1 then
    if o.bit KLN_CMD_GO then o.put KLN_CMD_ERR true
    else
      let r := klnOperate s
      let t := (klnClear r.2).wr KLN_CMD_STATUS r.1
      if r.1 = 0 then t else t.put KLN_CMD_ERR true
  else if a = KLN_BIND_CMD.addr ∧ fieldOf v 63 1 = 1 then
    let n := s.rd KLN_BIND_CMD_INDEX
    if o.bit KLN_BIND_CMD_GO then o.put KLN_BIND_CMD_ERR true
    else if s.bit KLN_BIND_CMD_RD then showBind (s.binding n) s
    else if bindRefused s n (bindFrom s) then s.put KLN_BIND_CMD_ERR true
    else bindWrite n (bindFrom s) s
  else if a = KLN_RK.addr ∧ fieldOf v 0 1 = 1 then
    if s.kln.rk.isSome then klnClear (s.put KLN_RK_PROG_ERR true)
    else
      let s := { s with kln := { s.kln with rk := some (klnBytes s 4) } }
      klnClear (s.put KLN_RK_RK_SET true)
  else s

/-! ### The firmware ring (R275) -/

/-- A word of a stretch of memory holds an error that cannot be corrected. -/
def wordsBad (s : State) (a n : Nat) : Bool :=
  s.ecc.any (fun e => decide (a < 8 * e.1 + 8 ∧ 8 * e.1 < a + n) && checkFlipped (s.memWord (8 * e.1)) e.2 == .uncorrectable)

/-- Serves the descriptor at CONS: STATUS is written and CONS advances. `err`: a word on its way from memory is
uncorrectable. -/
def fwDescriptor (err : Bool) (s : State) : State :=
  let cons := s.rd CIP_FWQ_CONS
  if !s.runs blkCIP || !s.bit CIP_FWQ_EN || cons == s.rd CIP_FWQ_PROD then s
  else
    let d := s.rd CIP_FWQ_BASE_BASE + cons % 1024 * 32
    let w0 := devRead d s
    let w1 := devRead (d + 8) w0.2
    let w2 := devRead (d + 16) w1.2
    let w3 := devRead (d + 24) w2.2
    let s := w3.2
    let op := fieldOf w0.1 60 4
    let tl := if fieldOf w0.1 59 1 = 1 then 16 else 8
    let al := fieldOf w0.1 52 7
    let len := fieldOf w0.1 38 14
    let n := fieldOf w0.1 0 13
    let iv := wordBytes w1.1 ++ (wordBytes w2.1).take 4
    let addr := fieldOf w3.1 0 48
    let r : Nat × State :=
      if err || wordsBad s d 32 || wordsBad s addr (64 + len + tl) then (5, s)
      else if !(op == 1 || op == 2) || decide (64 < al) then (4, s.inc CIP_CNT1_FW_BAD)
      else match cipRequest .fwRing n none s with
        | (.bound key, s) =>
          let aad := s.memBytes addr al
          let data := s.memBytes (addr + 64) len
          if op = 1 then
            let c := gcmEncrypt key iv aad data
            (1, devWrite (addr + 64) (c.1 ++ c.2.take tl) s)
          else if (gcmTag key iv aad data).take tl = s.memBytes (addr + 64 + len) tl then
            (1, devWrite (addr + 64) (gcmCtr key iv 2 data) s)
          else (2, s.inc CIP_CNT0_TAG_FAIL)
        | (_, s) => (3, s)
    (devWrite (d + 23) [byte r.1] r.2).wr CIP_FWQ_CONS ((cons + 1) % 2048)

/-! ### Secure associations (R272 to R274, R276) -/

/-- A word of CIP_IND_DATA. -/
def cipData (s : State) (n : Nat) : Nat := (s.reg (CIP_IND_DATA n).addr).toNat

/-- Shows the five data words. -/
def showCip (l : List Nat) (s : State) : State :=
  (List.range 5).foldl (fun s i => s.setReg (CIP_IND_DATA i).addr (BitVec.ofNat 64 (l.getD i 0))) s

/-- An access through CIP_IND_CMD (R276), or none where it is refused. EXH is the device's; a write of NEXT_PN clears it. -/
def cipAccess (s : State) : Option State :=
  let n := s.rd CIP_IND_CMD_INDEX
  let rx := s.rd CIP_IND_CMD_TABLE
  let d := cipData s
  if 1 < rx ∨ (rx = 0 ∧ 255 < n) then none
  else if s.bit CIP_IND_CMD_RD then
    let a := if rx = 1 then s.rxSa n else s.txSa n
    some (showCip [2 ^ 63 * b2n a.valid + 2 ^ 62 * b2n a.exh + a.slot * 2 ^ 32 + a.ssci, a.nextPn,
      if rx = 1 then a.window else a.thr, a.salt / 2 ^ 32, a.salt % 2 ^ 32 * 2 ^ 32] s)
  else if d 1 = 0 then none
  else
    let a : SecAssoc :=
      { valid := (d 0).testBit 63, exh := false, slot := d 0 / 2 ^ 32 % 8192, ssci := d 0 % 2 ^ 32, nextPn := d 1,
        thr := if rx = 0 then d 2 else 0, window := if rx = 1 then d 2 % 2 ^ 32 else 0,
        salt := d 3 * 2 ^ 32 + d 4 / 2 ^ 32 }
    some (if rx = 1 then s.setRxSa n a else s.setTxSa n a)

/-- Writes of CIP registers. -/
def cipWrite (a : Nat) (v : Word) (o s : State) : State :=
  if a = CIP_IND_CMD.addr ∧ fieldOf v 63 1 = 1 then
    if o.bit CIP_IND_CMD_GO then o.put CIP_IND_CMD_ERR true
    else match cipAccess s with
      | some t => t
      | none => s.put CIP_IND_CMD_ERR true
  else if a = CIP_FWQ.addr then
    let prod := fieldOf v 0 11
    if (prod + 2048 - o.rd CIP_FWQ_CONS) % 2048 ≤ 1024 then s else s.wr CIP_FWQ_PROD (o.rd CIP_FWQ_PROD)
  else s

/-- The 12-byte IV of a MACsec frame (R272). -/
def macsecIv (a : SecAssoc) (pn : Nat) : Bytes := xorBytes (beBytes 4 a.ssci ++ beBytes 8 pn) (beBytes 12 a.salt)

/-- A transmit SA takes its next PN (R273). -/
def takePn (n : Nat) (s : State) : Nat × State :=
  let a := s.txSa n
  let pn := a.nextPn
  let s := if pn = a.thr then s.setBit (CIP_PNTHR (n / 64)) (n % 64) else s
  if pn = 2 ^ 64 - 1 then (pn, (s.setTxSa n { a with exh := true }).setBit (CIP_PNEXH (n / 64)) (n % 64))
  else (pn, s.setTxSa n { a with nextPn := pn + 1 })

/-- A frame on a transmit SA: dropped where the SA is invalid or exhausted, or its key is absent or retired (a full queue holds the
frame back before it comes here, R251); else its PN
and the ciphertext with its tag, for the additional data that `aad` gives of the PN (R272, R273). -/
def saEncrypt (n : Nat) (aad : Nat → Bytes) (data : Bytes) (s : State) : Option (Nat × Bytes) × State :=
  let a := s.txSa n
  if !a.valid then (none, s.inc CIP_CNT0_KEY_ABSENT)
  else if a.exh then (none, s.inc CIP_CNT1_EXH_DROP)
  else
    let p := takePn n s
    match cipRequest .macTx a.slot none p.2 with
    | (.bound key, s) =>
      let c := gcmEncrypt key (macsecIv a p.1) (aad p.1) data
      (some (p.1, c.1 ++ c.2), s)
    | (_, s) => (none, s)

/-- The full PN of a frame whose SecTAG carries its low 32 bits (R274): the upper half is NEXT_PN's, one more where the low
half of NEXT_PN has its top bit set and the low half received has it clear. -/
def recoverPn (next lo : Nat) : Nat :=
  (next / 2 ^ 32 + b2n (next.testBit 31 && decide (lo < 2 ^ 31))) * 2 ^ 32 + lo

/-- What becomes of a frame received on an SA. -/
inductive SaRes where
  | noKey | replay | badTag | good (data : Bytes)
  deriving DecidableEq, Repr

/-- A frame received on a receive SA (R272, R274). -/
def saDecrypt (n lo : Nat) (aad ct tag : Bytes) (s : State) : SaRes × State :=
  let a := s.rxSa n
  if !a.valid then (.noKey, s.inc CIP_CNT0_KEY_ABSENT)
  else
    let pn := recoverPn a.nextPn lo
    if pn < a.nextPn - a.window then (.replay, s.inc CIP_CNT2_REPLAY)
    else match cipRequest .macRx a.slot none s with
      | (.bound key, s) =>
        match gcmDecrypt key (macsecIv a pn) aad ct tag with
        | some data => (.good data, s.setRxSa n { a with nextPn := max a.nextPn (pn + 1) })
        | none => (.badTag, s.inc CIP_CNT0_TAG_FAIL)
      | (_, s) => (.noKey, s)

end Sys2Proof.Machine
end

