-- ==== Sys2Proof/Machine/Coding.lean ====
section
/-! DEFINITION. The line's symbols and bits: the mapping of bits to amplitude axes, the layout of a downstream frame, the
training bits, the scrambler and the LDPC code (R50 to R54). -/

namespace Sys2Proof.Machine

/-! ### Symbols (R50) -/

/-- The level of one amplitude axis: −3, −1, +1, +3, or ±√5 in QPSK, on the scale 1/√10. -/
inductive Level where
  | m3 | m1 | p1 | p3 | mRoot5 | pRoot5
  deriving DecidableEq, Repr

/-- A symbol: X in-phase, X quadrature, Y in-phase, Y quadrature. -/
structure Sym where
  xi : Level
  xq : Level
  yi : Level
  yq : Level
  deriving DecidableEq, Repr

/-- The Gray code of a pair of bits, the earlier one first. -/
def grayLevel (a b : Bool) : Level :=
  match a, b with
  | false, false => .m3
  | false, true => .m1
  | true, true => .p1
  | true, false => .p3

/-- The QPSK level of one bit. -/
def qpskLevel (b : Bool) : Level := if b then .pRoot5 else .mRoot5

/-- A data symbol: b7 is the earliest of its eight bits. -/
def dataSymbol (v : Nat) : Sym :=
  ⟨grayLevel (v.testBit 7) (v.testBit 6), grayLevel (v.testBit 5) (v.testBit 4),
   grayLevel (v.testBit 3) (v.testBit 2), grayLevel (v.testBit 1) (v.testBit 0)⟩

/-- A QPSK symbol: one bit per axis, the earliest in bit 3. -/
def qpskSymbol (v : Nat) : Sym :=
  ⟨qpskLevel (v.testBit 3), qpskLevel (v.testBit 2), qpskLevel (v.testBit 1), qpskLevel (v.testBit 0)⟩

/-! ### The downstream frame (R51, R52) -/

/-- What a symbol of a downstream frame carries (Table 3.2), numbered within its kind. -/
inductive SymUse where
  | alignment (i : Nat)
  | probe (i : Nat)
  | pilot (i : Nat)
  | data (i : Nat)
  deriving DecidableEq, Repr

/-- The use of symbol `n` (Table 3.2). -/
def symbolUse (n : Nat) : SymUse :=
  if n < 64 then .alignment n
  else if n < 128 then .probe (n - 64)
  else if n < 6400 then .data (n - 128)
  else if n % 50 = 0 then .pilot (n / 50 - 128)
  else .data (6272 + (n - 6400) - ((n - 6400) / 50 + 1))

/-- The symbol that is data symbol `i` of a frame. -/
def dataPosition (i : Nat) : Nat := if i < 6272 then 128 + i else 6400 + (i - 6272) + (i - 6272) / 49 + 1

/-- The symbol that carries bit `b` of codeword `c` of a frame (R51, R54). -/
def codeBitSymbol (c b : Nat) : Nat := dataPosition ((24500 * c + b) / 8)

/-- One step of the generator of the probe and pilot bits: the bit, and the state after it (R52). -/
def pilotStep (s : Nat) : Bool × Nat :=
  let b := (s >>> 14 ^^^ s >>> 13) % 2
  (b = 1, (s * 2 + b) % 2 ^ 15)

/-- The state of the generator after `n` bits. -/
def pilotState : Nat → Nat
  | 0 => 0x7FFF
  | n + 1 => (pilotStep (pilotState n)).2

/-- Bit `n` of the sequence, counted from 0. -/
def pilotBit (n : Nat) : Bool := (pilotStep (pilotState n)).1

/-- The seed of a delimiter (R122). -/
def delimSeed (d : Nat) : Nat :=
  match d with
  | 0 => 0x7FFF
  | 1 => 0x2AAA
  | 2 => 0x4CCC
  | _ => 0x1E1E

/-- One step of the generator of the delimiter bits (R122). -/
def delimStep (s : Nat) : Bool × Nat :=
  let b := (s >>> 14 ^^^ s >>> 10) % 2
  (b = 1, (s * 2 + b) % 2 ^ 15)

/-- Its state after `n` bits. -/
def delimState (d : Nat) : Nat → Nat
  | 0 => delimSeed d
  | n + 1 => (delimStep (delimState d n)).2

/-- Bit `n` of delimiter `d`. -/
def delimBit (d n : Nat) : Bool := (delimStep (delimState d n)).1

/-- The four bits of delimiter symbol `i`. -/
def delimBits (d i : Nat) : Nat :=
  b2n (delimBit d (4 * i)) * 8 + b2n (delimBit d (4 * i + 1)) * 4 + b2n (delimBit d (4 * i + 2)) * 2 + b2n (delimBit d (4 * i + 3))

/-- The four bits of training symbol `i`: the 64 probe symbols first, then every pilot in order of n. -/
def trainingBits (i : Nat) : Nat :=
  b2n (pilotBit (4 * i)) * 8 + b2n (pilotBit (4 * i + 1)) * 4 + b2n (pilotBit (4 * i + 2)) * 2 + b2n (pilotBit (4 * i + 3))

/-- Symbol `n` of a frame: `faw` gives the four bits of an alignment symbol, `coded` a coded bit (R50 to R52). -/
def frameSymbol (faw : Nat → Nat) (coded : Nat → Bool) (n : Nat) : Sym :=
  match symbolUse n with
  | .alignment i => qpskSymbol (faw i)
  | .probe i => qpskSymbol (trainingBits i)
  | .pilot i => qpskSymbol (trainingBits (64 + i))
  | .data i => dataSymbol ((List.range 8).foldl (fun v j => v * 2 + b2n (coded (8 * i + j))) 0)

/-! ### The scrambler (R53) -/

/-- One step of the scrambler: its bit, and the state after it. -/
def scrStep (s : Nat) : Nat × Nat :=
  let b := (s >>> 30 ^^^ s >>> 27) % 2
  (b, (s * 2 + b) % 2 ^ 31)

/-- `n` steps of the scrambler from a state: the state after them, and their bits, the first one highest, below the bits of
`acc`. -/
def scrRun : Nat → Nat → Nat → Nat × Nat
  | 0, s, acc => (s, acc)
  | n + 1, s, acc => scrRun n (scrStep s).2 (acc * 2 + (scrStep s).1)

/-- `n` scrambler bits that follow the first `skip` ones of a frame or burst, the first one highest. -/
def scrBits (skip n : Nat) : Nat := (scrRun n (scrRun skip 0x7FFFFFFF 0).1 0).2

/-! ### The LDPC code (R54) -/

/-- The shift of the `m`-th entry of information column `j`. -/
def infoShift (m j : Nat) : Nat := ((2 * m + 3) * j + 5 * m) % 20

/-- The information entries of base row `i`: column and shift. -/
def rowEntries (i : Nat) : List (Nat × Nat) :=
  (List.range 3).flatMap (fun m =>
    (List.range 6).filterMap (fun q =>
      let j := (i + 201 - 67 * m) % 201 + 201 * q
      if j < 1024 then some (j, infoShift m j) else none))

/-- `rotate(v, s)` of a 20-bit block whose first bit is the highest. -/
def rotate20 (v s : Nat) : Nat := (v * 2 ^ s + v / 2 ^ (20 - s)) % 2 ^ 20

/-- Column `j` of `n` columns: their bits as one number, the first one highest. -/
def column20 (n v j : Nat) : Nat := v >>> (20 * (n - 1 - j)) % 2 ^ 20

/-- What base row `i` sums of the information bits `u`. -/
def rowSum (u i : Nat) : Nat := (rowEntries i).foldl (fun a e => a ^^^ rotate20 (column20 1024 u e.1) e.2) 0

/-- The parity columns of rows 0 to `n` − 1, the first one highest. -/
def parityRun (u : Nat) : Nat → Nat
  | 0 => 0
  | n + 1 => parityRun u n * 2 ^ 20 + (rowSum u n ^^^ parityRun u n % 2 ^ 20)

/-- The 4,020 parity bits of 20,480 scrambled information bits. -/
def ldpcParity (u : Nat) : Nat := parityRun u 201

/-- `encode(u)`: the 24,500 code bits, code bit 0 highest. -/
def ldpcEncode (u : Nat) : Nat := u * 2 ^ 4020 + ldpcParity u

/-- The 20 checks of base row `i` over a codeword: those that are 1 are not satisfied. -/
def ldpcChecks (c i : Nat) : Nat :=
  rowSum (c >>> 4020) i ^^^ column20 201 (c % 2 ^ 4020) i ^^^ (if i = 0 then 0 else column20 201 (c % 2 ^ 4020) (i - 1))

/-- The syndrome weight of a codeword: its unsatisfied checks, 0 to 4,020 (R55). -/
def syndromeWeight (c : Nat) : Nat := (List.range 201).foldl (fun n i => n + popcount 20 (ldpcChecks c i)) 0

/-- The bits that a codeword of `k` ≤ 20,480 scrambled information bits sends: its information bits and the parity of the codeword
whose other information bits are 0 (R54, R124). -/
def shortCodeword (k u : Nat) : Nat := u * 2 ^ 4020 + ldpcParity (u * 2 ^ (20480 - k))

/-- The coded bits of a body of `n` bits that carries `info` (R123, R124), the first one highest: full codewords, a shortened one
of `k` information bits where there is one, fill. -/
def bodyBits (f k n : Nat) (info : Bytes) : Nat :=
  let bits := 20480 * f + k
  let u := beAt (padTo (bits / 8) (info.take (bits / 8))) 0 (bits / 8) ^^^ scrBits 0 bits
  let full := (List.range f).foldl (fun v c => v * 2 ^ 24500 + ldpcEncode (u >>> (20480 * (f - 1 - c) + k) % 2 ^ 20480)) 0
  let coded := if k = 0 then full else full * 2 ^ (k + 4020) + shortCodeword k (u % 2 ^ k)
  let fill := n - (24500 * f + (if k = 0 then 0 else k + 4020))
  coded * 2 ^ fill + scrBits bits fill

/-- The information bytes of codeword `cw` of a frame: its first 20,480 bits, descrambled (R53). -/
def codewordInfo (cw c : Nat) : Bytes := beBytes 2560 ((c >>> 4020) ^^^ scrBits (20480 * cw) 20480)

end Sys2Proof.Machine
end

