-- ==== Sys2Proof/Machine/TimOps.lean ====
section
/-! DEFINITION. The time counter, its servo and its outputs, and the capture of frame starts (R295 to R306, R312 to
R315). -/

namespace Sys2Proof.Machine

/-- A counter reading in whole units of 2⁻¹⁶ ns. -/
def Tod.units (t : Tod) : Int := t.total / (2 ^ 32 : Int)

/-- A reading cut to 2⁻¹⁶ ns. -/
def Tod.cut (t : Tod) : Tod := ⟨t.s, t.f / 2 ^ 32 * 2 ^ 32⟩

/-- The reading that an operand carries. -/
def Tod.ofStamp (x : Stamp) : Tod := ⟨x.s.toNat, (x.ns.toNat % 1000000000) * 2 ^ 48 + x.fr.toNat * 2 ^ 32⟩

/-- Picoseconds in units of 2⁻¹⁶ ns, to the nearest unit, halves away from zero (R301). -/
def psUnits (ps : Int) : Int :=
  let m := (2 * ps.natAbs * 65536 + 1000) / 2000
  if ps < 0 then -(m : Int) else m

/-! ### The pair in use for time (R300) -/

/-- A pair is usable: in Operating, the active port's EQD valid. -/
def timUsable (s : State) (k : Nat) : Bool :=
  s.rd (ACT_CP_STATE_STATE k) == 4 &&
    (if s.rd LPH_PORT_ACTIVE = 0 then s.bit (ACT_CP_STATE_EQD0_V k) else s.bit (ACT_CP_STATE_EQD1_V k))

/-- The pair in use. -/
def pairInUse (s : State) : Option Nat :=
  let k := s.rd TIM_CTL_SRC_CP
  let j := s.rd TIM_CTL_ALT_CP
  if timUsable s k then some k else if s.bit TIM_CTL_ALT_EN && timUsable s j then some j else none

/-- The pair in use as TIM_STATUS shows it. -/
def shownPair (s : State) : Option Nat := if s.bit TIM_STATUS_CP_V then some (s.rd TIM_STATUS_CP) else none

/-- TSRC in force: 4 to 7 are treated as 0 (R306). -/
def timSource (s : State) : Nat := if 3 < s.rd TIM_CTL_TSRC then 0 else s.rd TIM_CTL_TSRC

/-- INTEG and RATE as signed numbers. -/
def timInteg (s : State) : Int := signed 32 (s.rd TIM_RATE_INTEG)
/-- RATE. -/
def timRate (s : State) : Int := signed 32 (s.rd TIM_RATE_RATE)

/-- The servo enters HOLDOVER from LOCKING or LOCKED (Table 13.1). -/
def servoHold (s : State) : State :=
  if s.rd TIM_STATUS_STATE = 1 ∨ s.rd TIM_STATUS_STATE = 2 then
    let s := (s.wr TIM_STATUS_STATE 3).wr TIM_RATE_RATE (s.rd TIM_RATE_INTEG)
    { s.put TIM_EVT_HOLD true with tim := { s.tim with good := 0 } }
  else s

/-- Judges the pair in use: a change is shown, sets SRC_SW and discards the captures (R299, R300); no pair with TSRC = 1 is
source lost (R304). -/
def timPoll (s : State) : State :=
  if pairInUse s = shownPair s then s
  else
    let new := pairInUse s
    let s := (s.put TIM_STATUS_CP_V new.isSome).wr TIM_STATUS_CP (new.getD 0)
    let s := { s.put TIM_EVT_SRC_SW true with tim := { s.tim with captures := [] } }
    if new.isNone ∧ timSource s = 1 then servoHold s else s

/-- A frame of channel k starts at the line port at the present reading (R299). T_rx of the frame in progress stands at k of
the map of T_rx, that of the frame that has just begun at 16 + k. -/
def timCapture (k fc : Nat) (s : State) : State :=
  let s := s.setTrx (16 + k) s.tod.cut
  if shownPair s = some k then
    let c : Capture := ⟨fc, s.tod.cut, s.rd (CHP_COPY_EQD k), false⟩
    { s with tim := { s.tim with captures := (c :: s.tim.captures).take 256 } }
  else s

/-- The line values of channel k have taken effect at a frame boundary: the capture of the frame that began there holds the EQD
in effect for it (R110, R299). -/
def timEqd (k : Nat) (s : State) : State :=
  match s.tim.captures with
  | c :: t =>
    if shownPair s = some k ∧ c.fc = s.lastB k then
      { s with tim := { s.tim with captures := { c with eqd := s.rd (CHP_COPY_EQD k) } :: t } }
    else s
  | [] => s

/-- A valid header gives the frame in progress its counter: its capture is stored with that (R299). -/
def timHeader (k fc : Nat) (s : State) : State :=
  match s.tim.captures with
  | c :: t =>
    if shownPair s = some k ∧ c.fc = s.lastB k then { s with tim := { s.tim with captures := { c with fc := fc } :: t } } else s
  | [] => s

/-- Loss of frame on a pair: its captures are discarded (R299). -/
def timLost (k : Nat) (s : State) : State :=
  if shownPair s = some k then { s with tim := { s.tim with captures := [] } } else s

/-! ### Steps and loads (R296) -/

/-- The gate list of a port after a step; a change whose time has passed takes effect at once (R247). -/
def gclStepPort (s : State) (p : Nat) : State :=
  let s := gclStep p s
  match (s.gclPort p).cct with
  | some c =>
    let b := (GCL_BANK p).addr
    if c.inNs ≤ s.nowNs ∧ (s.bank b).phase = .waiting then swapBank b s else s
  | none => s

/-- The second that ended is copied from the counts of every channel (R96). -/
def pmCopy (ended : Nat) (s : State) : State :=
  let irr := b2n s.dsf.stepped * 2 ^ 47
  let word (n : Nat) : Word := BitVec.ofNat 64 (ended % 2 ^ 16 * 2 ^ 48 + irr + min (2 ^ 47 - 1) n)
  let s := (List.range 16).foldl (fun s k =>
    let c := s.dsfCh k
    let p := c.pm
    let s := ([p.cw, p.cwc, p.bitc, p.cwu, p.flost, p.hec, p.fdrop].zipIdx).foldl
      (fun (s : State) (e : Nat × Nat) => s.setReg (DSF_PM k e.2).addr (word e.1)) s
    s.setDsfCh k { c with pm := {} }) s
  { s with dsf := { s.dsf with stepped := false } }

/-- The second in progress is marked as stepped (R96). -/
def markStepped (s : State) : State := { s with dsf := { s.dsf with stepped := true } }

/-- The counter takes a reading by a step (R296). A step that changes the seconds ends a second, and the second it ends and the
one it enters are both marked (R96; the latter DEDUCED, log 194). -/
def stepTo (t : Tod) (s : State) : State :=
  let old := s.tod.s
  let s := markStepped { (s.put TIM_EVT_STEP true) with tod := t }
  let s := if t.s = old then s else markStepped (pmCopy old s)
  (List.range 64).foldl gclStepPort s

/-- The counter is stepped by `d` units of 2⁻¹⁶ ns. -/
def stepBy (d : Int) (s : State) : State := stepTo (Tod.ofTotal (s.tod.total + d * 2 ^ 32)) s

/-- Samples formed from what was taken before a firmware operation will be discarded (R305). -/
def markStale (s : State) : State :=
  { s with tim := { s.tim with captures := s.tim.captures.map (fun (c : Capture) => { c with stale := true }),
                               ppsWait := s.tim.ppsWait.map (fun (c : PpsEdge) => { c with stale := true }) } }

/-- LOAD: the counter takes TIM_SET_S and TIM_SET_NS. -/
def timLoad (s : State) : State :=
  stepTo ⟨s.rd TIM_SET_S_S, min 999999999 (s.rd TIM_SET_NS_NS) * 2 ^ 48 + s.rd TIM_SET_NS_FR * 2 ^ 32⟩ (markStale s)

/-- STEP: TIM_STEP_OFS is added. -/
def timStep (s : State) : State := stepBy (signed 64 (s.reg TIM_STEP_OFS.addr).toNat) (markStale s)

/-! ### The servo (R303, R304) -/

/-- LAST_E takes a sample, saturated to 32 bits. -/
def showSample (e : Int) (s : State) : State :=
  s.wr TIM_STATUS_LAST_E (unsigned 32 (clampInt (-(2 ^ 31)) (2 ^ 31 - 1) e))

/-- The clamp of R303. -/
def clampRate (x : Int) : Int := clampInt (-(2 ^ 28)) (2 ^ 28) x

/-- The PI update of R303. -/
def servoPi (e : Int) (s : State) : State :=
  let integ := clampRate (timInteg s + (e * s.rd TIM_SERVO_KI) / (2 ^ 24 : Int))
  let rate := clampRate ((e * s.rd TIM_SERVO_KP) / (2 ^ 16 : Int) + integ)
  (s.wr TIM_RATE_INTEG (unsigned 32 integ)).wr TIM_RATE_RATE (unsigned 32 rate)

/-- A sample exceeds STEP_TH, which is in ns. -/
def overStep (s : State) (e : Int) : Bool := decide (s.rd TIM_SERVO_STEP_TH * 65536 < e.natAbs)

/-- A sample lies within LOCK_TH, which is in 1/16 ns. -/
def withinLock (s : State) (e : Int) : Bool := decide (e.natAbs ≤ s.rd TIM_LOCK_LOCK_TH * 4096)

/-- One sample (R303, Table 13.1). -/
def servoSample (e : Int) (s : State) : State :=
  let st := s.rd TIM_STATUS_STATE
  let s := (showSample e s).inc TIM_CNT_TOD_OK
  if st = 0 then
    let s := stepBy e (s.wr TIM_STATUS_STATE 1)
    { s with tim := { s.tim with good := 0 } }
  else
    let jump := overStep s e
    let s := if jump then stepBy e s else servoPi e s
    if st = 2 then
      if jump then
        let s := s.wr TIM_STATUS_STATE 1
        { s with tim := { s.tim with good := 0 } }
      else s
    else
      let good := if withinLock s e then s.tim.good + 1 else 0
      let s := { s.wr TIM_STATUS_STATE 1 with tim := { s.tim with good := good } }
      if s.rd TIM_LOCK_LOCK_N ≤ good then (s.wr TIM_STATUS_STATE 2).put TIM_EVT_LOCK true else s

/-- A sample formed against a capture: discarded where firmware has changed the counter since (R305). -/
def sampleFrom (stale : Bool) (e : Int) (s : State) : State := if stale then s.inc TIM_CNT_SMP_DISC else servoSample e s

/-- No sample for SAMPLE_TO s. -/
def sampleTimeout (s : State) : State := servoHold s

/-- HOLD_MAX s in HOLDOVER. -/
def holdoverEnds (s : State) : State :=
  if s.rd TIM_STATUS_STATE = 3 then (s.wr TIM_STATUS_STATE 0).put TIM_EVT_FREE_EVT true else s

/-! ### Line delays (R301) -/

/-- d_ds and d_us of a pair with TEQ, EQD and ASYM, in 2⁻¹⁶ ns. -/
def lineDelays (s : State) (teq eqd : Nat) (asym : Int) : Int × Int :=
  let diff : Int := (teq : Int) - eqd
  let ds := psUnits (diff * 4) + psUnits asym + psUnits (signed 32 (s.rd TIM_LINE_ADJ_LINE_ADJ))
  (ds, psUnits (diff * 8) - ds)

/-- The line delays of a pair, where a TIME_OF_DAY has been accepted on it since it entered Operating (R310). -/
def pairDelays (s : State) (k : Nat) : Option (Int × Int) :=
  (s.timLine k).map (fun v => lineDelays s v.1 (s.rd (CHP_COPY_EQD k)) v.2)

/-- A TIME_OF_DAY accepted on pair k (R300, R301): its fields are those of Table 5.4. -/
def timeOfDay (k : Nat) (m : Bytes) (s : State) : State :=
  let f (w lo n : Nat) : Nat := fieldOf (wordAt m (8 * w)) lo n
  let fcRef := f 1 16 48
  let teq := f 3 0 32
  let asym := signed 16 (f 4 48 16)
  let ref : Int := ((f 2 16 48 : Nat) : Int) * 1000000000 * 65536 + (f 3 32 32 : Nat) * 65536 + (f 1 0 16 : Nat)
  let s := s.setTimLine k (some (teq, asym))
  if timSource s ≠ 1 ∨ shownPair s ≠ some k then s.inc TIM_CNT_TOD_IGN
  else match s.tim.captures.find? (fun (c : Capture) => c.fc == fcRef) with
    | none => s.inc TIM_CNT_TOD_REJ
    | some c =>
      if teq < c.eqd then s.inc TIM_CNT_TOD_REJ
      else sampleFrom c.stale (ref + (lineDelays s teq c.eqd asym).1 - c.t.units) s

/-! ### Counting and second boundaries (R295, R96, R313) -/

/-- What one cycle of the time clock adds, in 2⁻⁴⁸ ns. -/
def clockStep (s : State) : Nat := (2 ^ 49 + timRate s * 2 ^ 9).toNat

/-- PPS_OUT_OFS, in 2⁻⁴⁸ ns. -/
def ppsOfs (s : State) : Int := signed 16 (s.rd TIM_PPS_PPS_OUT_OFS) * 2 ^ 48

/-- A second boundary made by counting: the counter already reads the new second. A rise of PPS_OUT after it is due (R313). -/
def secondBoundary (s : State) : State :=
  let s := pmCopy ((s.tod.s + 2 ^ 48 - 1) % 2 ^ 48) s
  { s with tim := { s.tim with todDue := some s.tod.s, ppsDue := if 0 < ppsOfs s then some s.tod.s else s.tim.ppsDue } }

/-- The counter counts from one reading to another: PPS_OUT rises where it reaches a boundary plus PPS_OUT_OFS, after the
boundary only where the counter has counted over it (R313). -/
def ppsCount (t0 t1 : Int) (s : State) : State :=
  let n := (t1 - ppsOfs s) / (secF : Int)
  if (t0 - ppsOfs s) / (secF : Int) < n ∧ (ppsOfs s ≤ 0 ∨ s.tim.ppsDue = some (n % (2 ^ 48 : Int)).toNat) then
    { s with tim := { s.tim with ppsHigh := s.tim.ppsHigh || s.bit TIM_PPS_PPS_OUT_EN, ppsDue := none } }
  else s

/-- The counter counts `n` cycles of the time clock that add `d` in all, at most one second boundary among them. -/
def countOn (n d : Nat) (s : State) : State :=
  let t := s.tod.total
  let s := { s with ticks := s.ticks + n }
  if s.tod.f + d < secF then ppsCount t (t + d) { s with tod := ⟨s.tod.s, s.tod.f + d⟩ }
  else
    let b := t + ((secF - s.tod.f : Nat) : Int)
    ppsCount b (t + d) (secondBoundary (ppsCount t b { s with tod := ⟨(s.tod.s + 1) % 2 ^ 48, s.tod.f + d - secF⟩ }))

/-- One cycle of the time clock. -/
def clockTick (s : State) : State := countOn 1 (clockStep s) s

/-- The counter counts on to its next second boundary. -/
def countToBoundary (s : State) : State :=
  let d := max 1 (clockStep s)
  let n := (secF - s.tod.f + d - 1) / d
  countOn n (n * d) s

/-- The level of the PPS_OUT ball (R313). -/
def ppsOutBall (s : State) : Bool :=
  s.tim.ppsHigh && s.bit TIM_PPS_PPS_OUT_EN &&
    !(s.bit TIM_PPS_PPS_QUAL && (s.rd TIM_STATUS_STATE == 0 || s.rd TIM_STATUS_STATE == 1))

/-- PPS_W ms after the rise. -/
def ppsFall (s : State) : State := { s with tim := { s.tim with ppsHigh := false } }

/-! ### PPS_IN and the time-of-day lines (R314, R315) -/

/-- The sample of an accepted edge whose reference second is known. -/
def ppsSample (e : PpsEdge) (r : Nat) (s : State) : State :=
  if timSource s = 2 then
    sampleFrom e.stale ((r : Int) * 1000000000 * 65536 + signed 16 (s.rd TIM_PPS_PPS_IN_OFS) * 65536 - e.c.units) s
  else s

/-- A rising edge on PPS_IN. -/
def ppsEdge (s : State) : State :=
  if !s.bit TIM_PPS_PPS_IN_EN then s
  else
    let c := s.tod.cut
    let s := (s.setReg TIM_PPS_IN_S.addr (BitVec.ofNat 64 (c.s * 65536))).setReg TIM_PPS_IN_NS.addr
      (BitVec.ofNat 64 (c.ns * 2 ^ 32 + c.fr * 65536))
    if (s.tim.ppsLast.map (fun t => decide (s.ticks - t < 250000000))).getD false then s.inc TIM_CNT_PPS_IGN
    else { s with tim := { s.tim with ppsLast := some s.ticks, ppsWait := s.tim.ppsWait ++ [⟨c, s.ticks, false⟩] } }

/-- C to the nearest whole second. -/
def nearestSecond (c : Tod) : Nat := (if secF ≤ 2 * c.f then c.s + 1 else c.s) % 2 ^ 48

/-- 900 ms after an accepted edge with no message: its reference second is C rounded. -/
def ppsWaitEnds (s : State) : State :=
  match s.tim.ppsWait with
  | [] => s
  | e :: t => ppsSample e (nearestSecond e.c) { s with tim := { s.tim with ppsWait := t } }

/-- A received time-of-day message passes its header and its check. -/
def todGood (m : Bytes) : Bool :=
  m.length == 16 && beAt m 0 3 == 0xC53A01 && (m.map (·.toNat)).sum % 256 == 0

/-- A message on TOD_IN: recorded, and the reference second of the edges that wait and are at most 900 ms old. -/
def todIn (m : Bytes) (s : State) : State :=
  if !s.bit TIM_TODS_TODI_EN then s
  else if !todGood m then s.inc TIM_CNT_TODI_BAD
  else
    let sec := beAt m 4 6
    let s := s.setReg TIM_TODS_RX.addr (BitVec.ofNat 64 (sec * 65536 + beAt m 3 1 * 256 + beAt m 12 1))
    let (now, late) := s.tim.ppsWait.partition (fun (e : PpsEdge) => decide (s.ticks - e.at_ ≤ 450000000))
    now.foldl (fun s e => ppsSample e sec s) { s with tim := { s.tim with ppsWait := late } }

/-- The time-of-day message that names second `sec` (Table 13.3). -/
def todMessage (s : State) (sec : Nat) : Bytes :=
  let st := s.rd TIM_STATUS_STATE + 4 * b2n (s.bit TIM_STATUS_F_HOLD)
  let flags := b2n (s.bit TIM_TODS_LEAP61) + 2 * b2n (s.bit TIM_TODS_LEAP59) + 4 * b2n (s.bit TIM_TODS_UTC_V)
  let m := [0xC5, 0x3A, 0x01, byte st] ++ beBytes 6 sec ++ beBytes 2 (s.rd TIM_TODS_UTC_OFS) ++ [byte flags, 0, 0]
  m ++ [byte (256 - (m.map (·.toNat)).sum % 256)]

/-- 10 ms after a boundary. -/
def todSend (s : State) : State :=
  match s.tim.todDue with
  | none => s
  | some sec =>
    let out := if s.bit TIM_TODS_TODO_EN then some (todMessage s sec) else s.tim.todOut
    { s with tim := { s.tim with todDue := none, todOut := out } }

/-! ### The time PLL (R297) -/

/-- The selected frequency input is valid. -/
def freqValid (s : State) : Bool :=
  match s.rd TIM_CTL_FSRC with
  | 1 => match shownPair s with
    | some k => s.bit (LPH_RX_STATUS_CR_LOCK k) && s.rd (DSF_SYNC_STATE k) == 3
    | none => false
  | 2 => s.bit CLK_STATUS_SREF0_OK
  | 3 => s.bit CLK_STATUS_SREF1_OK
  | 4 => s.bit (MAC_PHY_STAT_ALIGN (s.rd TIM_CTL_FPORT))
  | _ => true

/-- The PLL enters holdover once its input is not valid. -/
def tpllHoldover (s : State) : State :=
  if !freqValid s && !s.bit TIM_STATUS_F_HOLD then (s.put TIM_STATUS_F_HOLD true).put TIM_EVT_F_LOSS true else s

/-- It leaves holdover 1 s after the input is valid again. -/
def tpllExit (s : State) : State := if freqValid s then s.put TIM_STATUS_F_HOLD false else s

/-! ### Transmit time-stamp queues (R312) -/

/-- Shows the head entry, COUNT of a port's queue. -/
def showTsq (p : Nat) (s : State) : State :=
  let q := s.tsqOf p
  let s := s.wr (TIM_TSQ_CTL_COUNT p) q.length
  match q with
  | [] => (s.setReg (TIM_TSQ_DATA p 0).addr 0).setReg (TIM_TSQ_DATA p 1).addr 0
  | e :: _ =>
    (s.setReg (TIM_TSQ_DATA p 0).addr (BitVec.ofNat 64 (e.t.s * 65536 + e.mt * 4096 + e.dom))).setReg
      (TIM_TSQ_DATA p 1).addr (BitVec.ofNat 64 (e.t.ns * 2 ^ 32 + e.t.fr * 65536 + e.seq))

/-- An entry arrives: lost where 512 are held, and logged while fewer than 16 losses are. -/
def tsqPush (p : Nat) (e : TsqEntry) (s : State) : State :=
  let q := s.tsqOf p
  if q.length < 512 then showTsq p (s.setTsqOf p (q ++ [e]))
  else
    let s := (s.put (TIM_TSQ_CTL_OVF p) true).inc (TIM_TSQ_CTL_LOST p)
    let n := s.rd (TIM_TSQ_CTL_LOSS_N p)
    if n < 16 then
      (s.wr ⟨(TIM_TSQ_LOSS p (n / 4)).addr, 16 * (n % 4), 16⟩ e.seq).wr (TIM_TSQ_CTL_LOSS_N p) (n + 1)
    else s

/-- POP. -/
def tsqPop (p : Nat) (s : State) : State := showTsq p (s.setTsqOf p ((s.tsqOf p).drop 1))

/-- LOG_CLR. -/
def tsqClear (p : Nat) (s : State) : State :=
  (List.range 4).foldl (fun s m => s.setReg (TIM_TSQ_LOSS p m).addr 0) (s.wr (TIM_TSQ_CTL_LOSS_N p) 0)

/-! ### Registers -/

/-- Writes of TIM registers, the plain fields stored. LOAD acts before STEP (R305), POP before
LOG_CLR. -/
def timWrite (a : Nat) (v : Word) (s : State) : State :=
  if a = TIM_CTL.addr then
    let s := if fieldOf v 63 1 = 1 then timLoad s else s
    let s := if fieldOf v 62 1 = 1 then timStep s else s
    let s := if timSource s = 0 ∨ (timSource s = 1 ∧ (pairInUse s).isNone) then servoHold s else s
    timPoll s
  else if a = TIM_SAMPLE.addr then (if timSource s = 3 then servoSample (signed 64 v.toNat) s else s)
  else if a < TIM_TOD_S.addr then
    let p := (a - (TIM_TSQ_CTL 0).addr) / 0x10000
    if a = (TIM_TSQ_CTL p).addr then
      let s := if fieldOf v 63 1 = 1 then tsqPop p s else s
      if fieldOf v 62 1 = 1 then tsqClear p s else s
    else s
  else s

/-- A read of TIM_TOD_S latches the counter (R296). -/
def todLatch (s : State) : State :=
  let t := s.tod
  (s.setReg TIM_TOD_S.addr (BitVec.ofNat 64 (t.s * 65536))).setReg TIM_TOD_NS.addr
    (BitVec.ofNat 64 (t.ns * 2 ^ 32 + t.fr * 65536))

end Sys2Proof.Machine
end

