-- ==== Sys2Proof/Machine/Ptp.lean ====
section
/-! DEFINITION. IEEE 1588 event messages inside packets: where they are, and the fields and checksums a correction changes
(R308 to R311). -/

namespace Sys2Proof.Machine

/-- An event message in a packet: its offset, and the offset of the UDP checksum over it with whether that is IPv6's. -/
structure PtpAt where
  off : Nat
  sum : Option (Nat × Bool)
  deriving DecidableEq, Repr

/-- Offset of the EtherType that follows at most two tags (R308). -/
def typeOff (l : Bytes) : Nat :=
  let tag (o : Nat) : Bool := beAt l o 2 == 0x8100 || beAt l o 2 == 0x88A8
  if tag 12 then (if tag 16 then 20 else 16) else 12

/-- A message of messageType 0 to 3 and versionPTP 2 lies at an offset, whole with its 34-byte header before the FCS. -/
def eventAt (l : Bytes) (o : Nat) : Bool :=
  decide (o + 38 ≤ l.length) && decide (beAt l o 1 % 16 ≤ 3) && beAt l (o + 1) 1 % 16 == 2

/-- The PTP event message of a packet, in one of the encapsulations of R308. -/
def ptpAt (l : Bytes) : Option PtpAt :=
  let t := typeOff l
  let et := beAt l t 2
  let p := t + 2
  let found : Option PtpAt :=
    if et = 0x88F7 then some ⟨p, none⟩
    else if et = 0x0800 ∧ beAt l p 1 = 0x45 ∧ beAt l (p + 9) 1 = 17 ∧ beAt l (p + 6) 2 % 8192 = 0 ∧ beAt l (p + 22) 2 = 319 then
      some ⟨p + 28, some (p + 26, false)⟩
    else if et = 0x86DD ∧ beAt l p 1 / 16 = 6 ∧ beAt l (p + 6) 1 = 17 ∧ beAt l (p + 42) 2 = 319 then
      some ⟨p + 48, some (p + 46, true)⟩
    else none
  found.filter (fun x => eventAt l x.off)

/-- messageType, domainNumber, sequenceId and twoStepFlag of a message. -/
def ptpType (l : Bytes) (x : PtpAt) : Nat := beAt l x.off 1 % 16
/-- domainNumber. -/
def ptpDomain (l : Bytes) (x : PtpAt) : Nat := beAt l (x.off + 4) 1
/-- sequenceId. -/
def ptpSeq (l : Bytes) (x : PtpAt) : Nat := beAt l (x.off + 30) 2
/-- twoStepFlag. -/
def ptpTwoStep (l : Bytes) (x : PtpAt) : Bool := (beAt l (x.off + 6) 1).testBit 1

/-- Writes an even number of bytes at an even offset of the message and brings the UDP checksum and the FCS into agreement
(R311). -/
def ptpWrite (x : PtpAt) (off : Nat) (new : Bytes) (l : Bytes) : Bytes :=
  let m := overwrite l off new
  let m := match x.sum with
    | none => m
    | some (c, v6) =>
      let old := beAt l c 2
      if old = 0 ∧ !v6 then m
      else
        let sum := (List.range (new.length / 2)).foldl
          (fun a i => sumUpdate a (beAt l (off + 2 * i) 2) (beAt m (off + 2 * i) 2)) old
        overwrite m c (beBytes 2 (if sum = 0 ∧ v6 then 65535 else sum))
  m.take (m.length - 4) ++ fcsBytes (m.take (m.length - 4))

/-- correctionField plus `d`, at the largest value where the sum does not fit (R311). -/
def ptpCorrect (x : PtpAt) (d : Int) (l : Bytes) : Bytes :=
  let c := signed 64 (beAt l (x.off + 8) 8) + d
  let v := if -(2 ^ 63) ≤ c ∧ c < 2 ^ 63 then unsigned 64 c else 2 ^ 63 - 1
  ptpWrite x (x.off + 8) (beBytes 8 v) l

/-- One-step insertion (R309): originTimestamp takes S and NS, and FR is added to correctionField. -/
def ptpOneStep (x : PtpAt) (t : Tod) (l : Bytes) : Bytes :=
  ptpCorrect x t.fr (ptpWrite x (x.off + 34) (beBytes 6 t.s ++ beBytes 4 t.ns) l)

/-- Residence of an event message that is not ORIGIN (R310): egress less ingress time-stamp, and the line delay where the
controlling port has TC_LINE = 1 and the pair has one. -/
def residence (s : State) (port : Nat) (ingress egress : Tod) (delay : Option Int) : Int :=
  egress.units - ingress.units + (if s.bit (TIM_PORT_CFG_TC_LINE port) then delay.getD 0 else 0)

/-- An upstream packet as it is sent: corrected where its ingress port has TC_EN = 1 (R310). -/
def upCorrected (s : State) (k : Nat) (p : QPkt) (egress : Tod) : Option Bytes :=
  if p.origin || !s.bit (TIM_PORT_CFG_TC_EN p.inPort) then none
  else (ptpAt p.bytes).map (fun x =>
    ptpCorrect x (residence s p.inPort p.ingress egress ((pairDelays s k).map (·.2))) p.bytes)

end Sys2Proof.Machine
end

