-- ==== Sys2Proof/Machine/UbeOps.lean ====
section
/-! DEFINITION. The upstream burst engine and the Hamper (R119 to R138, R146): grants, filling, trimming, returning and
sending bursts. Bursts of a channel are kept in order of time. -/

namespace Sys2Proof.Machine

/-! ### Capacity (R124 to R126) -/

/-- Profile `n` of channel `k` as its registers hold it. -/
def burstProf (s : State) (k n : Nat) : BurstProf :=
  ⟨s.bit (UBE_PROF_VALID k n), s.rd (UBE_PROF_DELIM k n), s.bit (UBE_PROF_MOD k n), s.rd (UBE_PROF_PRE_LEN k n),
    s.rd (UBE_PROF_GUARD k n)⟩

/-- Body symbols of a grant of `len` quanta (R121). -/
def bodySymbols (len : Nat) (p : BurstProf) : Nat := 250 * len - p.pre - 256 - p.guard_

/-- Full codewords and information bits of the shortened codeword in a body (R124). -/
def bodyCodewords (body : Nat) (p : BurstProf) : Nat × Nat :=
  let bits := (body - (body + 49) / 50) * (if p.qpsk then 4 else 8)
  let f := bits / 24500
  let r := bits - 24500 * f
  (f, if 4148 ≤ r then 64 * ((r - 4020) / 64) else 0)

/-- The capacity of a grant in bytes (R125). -/
def capacity (len : Nat) (p : BurstProf) : Nat :=
  let c := bodyCodewords (bodySymbols len p) p
  (20480 * c.1 + c.2) / 8

/-- The state of a pair as ACT_CP_STATE numbers it. -/
def pairState (s : State) (k : Nat) : Nat := s.rd (ACT_CP_STATE_STATE k)

/-- Ranging or Operating. -/
def inService (s : State) (k : Nat) : Bool := pairState s k == 3 || pairState s k == 4

/-- ALLOC of a discovery window (R107). -/
def allocDisc : Nat := 0x3FFF

/-- The grant is to the default allocation of a terminal number. -/
def isDefault (c : LineCopy) (alloc : Nat) : Bool := c.tnV && alloc == c.tn

/-- Bytes of a burst's mandatory parts (Table 6.3); an ANNOUNCE burst carries its header and message only (R127). -/
def mandatory (s : State) (k : Nat) (g : Grant) : Nat :=
  if g.alloc = allocDisc then 80
  else
    let d := isDefault (s.ubeCh k).copy g.alloc
    16 + (if g.qreq then 16 else 0) + (if d then 64 else 0) + (if g.umsg || (d && pairState s k == 3) then 64 else 0)

/-- A burst for a grant carries a management message (Table 6.3). -/
def carriesMsg (s : State) (k : Nat) (g : Grant) : Bool :=
  g.alloc == allocDisc || g.umsg || (isDefault (s.ubeCh k).copy g.alloc && pairState s k == 3)

/-- The fragment area of a grant, a multiple of 8 bytes. -/
def fragArea (s : State) (k : Nat) (g : Grant) : Nat := (capacity g.len (burstProf s k g.prof) - mandatory s k g) / 8 * 8

/-! ### Grants (R120, Table 6.1) -/

/-- The valid allocation context of a pair for an allocation. -/
def contextOf (s : State) (k alloc : Nat) : Option Nat :=
  (s.ube.allocs.find? (fun (e : Nat × AllocCtx) => e.2.valid && e.2.cp == k && e.2.alloc == alloc)).map (·.1)

/-- ALLOC is this terminal's, by the values in effect in UBE and the pair's state (R107). -/
def ownAlloc (s : State) (k alloc : Nat) : Bool :=
  let c := (s.ubeCh k).copy
  if alloc = allocDisc then c.ann && pairState s k == 2
  else if isDefault c alloc then inService s k
  else c.tnV && decide (1024 ≤ alloc) && (contextOf s k alloc).isSome

/-- What Table 6.1 makes of an entry. -/
inductive Judged where
  | ignored
  | discarded
  | accepted
  deriving DecidableEq, Repr

/-- A map entry's grant (Table 4.5). -/
def grantOf (e : Bytes) : Grant :=
  let w := wordAt e 0
  { alloc := fieldOf w 50 14, start := fieldOf w 34 16, len := fieldOf w 18 16, prof := fieldOf w 16 2,
    umsg := fieldOf w 15 1 == 1, qreq := fieldOf w 14 1 == 1 }

/-- Table 6.1. -/
def judge (s : State) (k : Nat) (g : Grant) : Judged :=
  let c := s.ubeCh k
  if !ownAlloc s k g.alloc then .ignored
  else if !(inService s k || pairState s k == 2) || !s.bit (UBE_CH_STAT_SHUT_RDY k) then .ignored
  else if g.len = 0 ∨ 62500 < g.start + g.len then .discarded
  else if s.rd (UBE_CH_CFG_MAX_LEN k) < g.len then .discarded
  else if !(burstProf s k g.prof).valid then .discarded
  else if capacity g.len (burstProf s k g.prof) < mandatory s k g then .discarded
  else if c.accepted.any (fun h => decide (g.start < h.start + h.len) && decide (h.start < g.start + g.len)) then .discarded
  else if 64 ≤ c.accepted.length then .discarded
  else .accepted

/-! ### Pieces -/

/-- Bytes a fragment occupies (R84, R231). -/
def pieceOcc (plain : Nat) (enc : Bool) : Nat := 8 + (plain + 8 * b2n enc + 7) / 8 * 8

/-- Bytes of a burst's fragment area that pieces fill. -/
def usedArea (l : List Piece) : Nat := (l.map (fun p => pieceOcc p.plen p.up.reqEnc)).sum

/-- How a packet is placed in `rem` bytes: its plaintext bytes and LAST (R129); none where it does not fit. -/
def planPiece (u : UpStream) (p : QPkt) (rem : Nat) : Option (Nat × Bool) :=
  let rest := p.bytes.length - p.off
  if pieceOcc rest u.reqEnc ≤ rem then some (rest, true)
  else if u.nofrag then none
  else
    let x := (rem - 8 - 8 * b2n u.reqEnc) / 8 * 8
    if 16 ≤ x ∧ x + 16 ≤ rest then some (x, false) else none

/-- The key that a stream needs is LIVE, or it needs none (R255). -/
def keyReady (s : State) (u : UpStream) (ki : Nat) : Bool :=
  !u.reqEnc || (ki != 0 && slotLive s (kiSlot u.kslot ki))

/-- The stream's partly sent packet heads another leaf (R131). -/
def partElsewhere (s : State) (key sctx : Nat) : Bool :=
  s.cel.queues.any (fun (e : Nat × LeafQ) =>
    e.1 != key && dirOf e.1 == 1 &&
      match e.2.pkts with
      | [] => false
      | p :: _ => p.sctx == sctx && decide (0 < p.off))

/-- Frees a packet's cells and counts it in PKT_DROP. -/
def dropPkt (k key : Nat) (p : QPkt) (s : State) : State := (freeCells key p.cells s).inc (UBE_CH_CNT1_PKT_DROP k)

/-- Drops the packet at the head of a leaf. -/
def dropHead (k key : Nat) (s : State) : State :=
  match (s.lq key).pkts with
  | [] => s
  | p :: _ => leafTouch key (dropPkt k key p (popHead key s))

/-- Places the head packet of a leaf as one piece (R129): a tentative dequeue (R235), with the remainder left at the head. -/
def placeHead (n key plain : Nat) (last : Bool) (b : Burst) (s : State) : Burst × State :=
  match (s.lq key).pkts with
  | [] => (b, s)
  | p :: _ =>
    let u := s.upStream p.sctx
    let amount := pieceOcc plain u.reqEnc
    let c := chargeOf s n key amount
    let s := advanceTags n key amount (chargePend c amount s)
    let s := popHead key s
    let s := if last then s else pushHead key { p with off := p.off + plain, fseq := (p.fseq + 1) % 16 } s
    ({ b with pieces := b.pieces ++ [⟨p, key, plain, last, last, c, u⟩] }, leafTouch key s)

/-- Fills the rest of a burst's area in scheduler order (R129 to R132). `skip` names leaves whose packet cannot be placed
now. -/
def fillLoop (k port : Nat) : Nat → List Nat → Burst → State → Burst × State
  | 0, _, b, s => (b, s)
  | fuel + 1, skip, b, s =>
    let rem := b.area - usedArea b.pieces
    if rem = 0 then (b, s)
    else match portPick s (fun key => skip.contains key || b.skipped.contains key) (fun _ _ => true) port with
      | none => (b, s)
      | some (n, key) =>
        match (s.lq key).pkts with
        | [] => (b, s)
        | p :: _ =>
          let u := s.upStream p.sctx
          if p.poisoned || !u.valid then
            fillLoop k port fuel skip b (dropHead k key (if p.poisoned then fltSourceEvent blkCEL s else s))
          else if partElsewhere s key p.sctx then fillLoop k port fuel (key :: skip) b s
          else if !keyReady s u b.ki then fillLoop k port fuel skip { b with skipped := key :: b.skipped } s
          else match planPiece u p rem with
            | some (plain, last) =>
              let r := placeHead n key plain last b s
              fillLoop k port fuel [] r.1 r.2
            | none =>
              if u.nofrag then
                fillLoop k port fuel skip { b with skipped := key :: b.skipped, nofrag := p.id :: b.nofrag } s
              else fillLoop k port fuel (key :: skip) b s

/-- Enough rounds for any burst: each places at least 32 bytes, drops a packet or passes over a leaf. -/
def fillFuel (b : Burst) (s : State) : Nat :=
  (b.area / 32 + 1) * (s.cel.queues.length + 2) + (s.cel.queues.map (fun (e : Nat × LeafQ) => e.2.pkts.length)).sum

/-- Fills a burst from the hierarchy of its allocation. -/
def fillBurst (k : Nat) (b : Burst) (s : State) : Burst × State :=
  match b.ctx with
  | none => (b, s)
  | some c => fillLoop k (8192 + c) (fillFuel b s) [] b s

/-! ### Returns (R135 to R137) -/

/-- Refunds a piece (R235). -/
def refund (x : Piece) (s : State) : State := chargePend x.charge (-x.charge.amount) s

/-- Takes a queued packet, or a remainder, out of its leaf. -/
def takeOut (key id : Nat) (s : State) : State :=
  let q := s.lq key
  match q.pkts.find? (fun (p : QPkt) => p.id == id) with
  | none => s
  | some p =>
    s.setLq key { q with pkts := q.pkts.filter (fun (p : QPkt) => p.id != id),
                         head := if q.s then q.head - p.cells.length else 0 }

/-- Removes the pieces of a packet from byte `off` on from every burst of a channel, refunded. -/
def purge (k id off : Nat) (s : State) : State :=
  let c := s.ubeCh k
  let hit (x : Piece) : Bool := x.pkt.id == id && decide (off ≤ x.pkt.off)
  let gone := (c.bursts.map (fun b => b.pieces.filter hit)).flatten
  let c' := { c with bursts := c.bursts.map (fun (b : Burst) => { b with pieces := b.pieces.filter (fun x => !hit x) }) }
  gone.foldl (fun s x => refund x s) (s.setUbeCh k c')

/-- Puts a packet back at the head of its leaf; one flushed or discarded meanwhile is freed and counted (R137). -/
def giveBack (k key : Nat) (p : QPkt) (s : State) : State :=
  let s := takeOut key p.id s
  leafTouch key (if p.doomed then dropPkt k key p s else pushHead key p s)

/-- Returns one piece exactly: later pieces of its packet, in this burst's tail or later bursts, have been or are undone. -/
def returnPiece (k : Nat) (x : Piece) (s : State) : State :=
  giveBack k x.leaf x.pkt (refund x (purge k x.pkt.id (x.pkt.off + 1) s))

/-- Returns pieces, the last first. -/
def returnPieces (k : Nat) (l : List Piece) (s : State) : State := l.reverse.foldl (fun s x => returnPiece k x s) s

/-- Shows TENT_CELLS and PRED (chapter 06). -/
def ubeShow (k : Nat) (s : State) : State :=
  let bs := (s.ubeCh k).bursts
  let pkts := (bs.map (fun b => b.pieces.map (fun x => (x.pkt.id, x.pkt.cells.length)))).flatten.eraseDups
  (s.wr (UBE_CH_STAT_TENT_CELLS k) (pkts.map (·.2)).sum).put (UBE_CH_STAT_PRED k) (bs.any (fun b => b.phase == .predicted))

/-- Takes a burst out of its channel's list. -/
def removeBurst (k : Nat) (b : Burst) (s : State) : State :=
  s.setUbeCh k { s.ubeCh k with bursts := (s.ubeCh k).bursts.erase b }

/-- Returns a whole burst; it is no longer held. -/
def returnBurst (k : Nat) (b : Burst) (s : State) : State := returnPieces k b.pieces (removeBurst k b s)

/-- Body symbols of a burst (R121, R127). -/
def bodyLength (b : Burst) : Nat :=
  if b.grant.alloc = allocDisc then (if b.prof.qpsk then 1189 else 595) else bodySymbols b.grant.len b.prof

/-- Symbols from T_rx + T_RSP + EQD at which a burst's gate lead begins, and at which its gate tail ends. -/
def burstSpan (b : Burst) : Int × Nat :=
  let start := 250 * (b.grant.start + b.rnd)
  ((start : Int) - 64, start + b.prof.pre + 256 + bodyLength b + 64)

/-- Counts gate-open symbols in the frame in progress (R142). -/
def countOpen (k n : Nat) (s : State) : State :=
  let c := s.chpCh k
  s.setChpCh k { c with open8 := match c.open8 with | [] => [n] | m :: t => (m + n) :: t }

/-- Symbols for which the gate has been open for a burst that has begun: 250 a cycle of the time clock since its gate lead, and no
more than the burst has (DESIGN CHOICE, log 173). -/
def openSymbols (s : State) (b : Burst) : Nat :=
  min ((burstSpan b).2 - (burstSpan b).1).toNat (250 * (s.ticks - b.leadAt))

/-- The gate falls: what it was open for is counted (R121, R142). -/
def gateDown (k : Nat) (n : Nat) (s : State) : State :=
  let s := if s.bit (CHP_STATUS_GATE k) then countOpen k n s else s
  ((s.put (CHP_STATUS_GATE k) false).put (CHP_STATUS_WIN k) false).put (LPH_TX_STATUS_GATE k) false

/-- The gate tail of the last burst has ended: its 64 symbols are less than a cycle of the time clock, so it lasts until that
clock next counts, or the gate must open or close (R121). -/
def endTail (k : Nat) (s : State) : State :=
  let c := s.ubeCh k
  match c.sent with
  | some b =>
    if c.tail then gateDown k ((burstSpan b).2 - (burstSpan b).1).toNat (s.setUbeCh k { c with tail := false }) else s
  | none => s

/-- The insertion port whose block a burst carried holds it for the next one (R126). -/
def opsBack (b : Burst) (s : State) : State :=
  match b.opsOf with
  | some q => s.setOhsPort q { s.ohsPort q with taken := false }
  | none => s

/-- Cuts a burst whose gate lead has begun (R136): every packet it carries a piece of is returned whole. -/
def cutBurst (k : Nat) (b : Burst) (s : State) : State :=
  let s := opsBack b (gateDown k (openSymbols s b) (removeBurst k b s))
  let s := b.pieces.foldl (fun s x => refund x s) s
  let pkts := (b.pieces.map (fun x => (x.leaf, x.pkt))).foldl
    (fun (l : List (Nat × QPkt)) e => if l.any (fun f => f.2.id == e.2.id) then l else l ++ [e]) []
  let s := pkts.reverse.foldl (fun s e => giveBack k e.1 { e.2 with off := 0, fseq := 0 } (purge k e.2.id 0 s)) s
  ubeShow k (s.inc (UBE_CH_CNT1_CUT k))

/-- A burst is not sent (R138): its content is returned exactly. -/
def notSent (k : Nat) (b : Burst) (s : State) : State := ubeShow k ((returnBurst k b s).inc (UBE_CH_CNT1_CUT k))

/-- The pair leaves Ranging and Operating (R137): bursts whose gate lead has begun are cut, the others returned. -/
def ubeLeave (k : Nat) (s : State) : State :=
  let bs := (s.ubeCh k).bursts.reverse
  let s := bs.foldl (fun s old =>
    match (s.ubeCh k).bursts.find? (fun b => b.seq == old.seq && b.grant == old.grant && b.phase == old.phase) with
    | none => s
    | some b =>
      if b.phase = .started then cutBurst k b s else (returnBurst k b s).inc (UBE_CH_CNT1_REWIND k)) s
  ubeShow k (s.setUbeCh k { s.ubeCh k with accepted := [], bursts := [] })

/-- The gate of a channel is cut (R136, R142): its burst that has started has not been sent. -/
def cutStarted (k : Nat) (s : State) : State :=
  match (s.ubeCh k).bursts.find? (fun b => b.phase == .started) with
  | some b => cutBurst k b s
  | none => s

/-! ### Reconciliation (R134, Table 6.6) -/

/-- A burst for a grant, with nothing in it. -/
def emptyBurst (s : State) (k frame : Nat) (g : Grant) : Burst :=
  { frame := frame, seq := s.bseq k, grant := g, ctx := contextOf s k g.alloc, phase := .built,
    prof := burstProf s k g.prof, eqd := (s.ubeCh k).copy.eqd, tn := (s.ubeCh k).copy.tn,
    dflt := g.alloc != allocDisc && isDefault (s.ubeCh k).copy g.alloc, mand := mandatory s k g, carries := carriesMsg s k g,
    area := fragArea s k g, ki := kiUs s k, pieces := [], skipped := [], nofrag := [], rnd := 0, msg := none, out := [],
    encoded := 0, late := false }

/-- Pieces that lie wholly within an area, and the rest. -/
def splitArea (area : Nat) : Nat → List Piece → List Piece × List Piece
  | _, [] => ([], [])
  | used, x :: t =>
    let o := pieceOcc x.plen x.up.reqEnc
    if used + o ≤ area then
      let r := splitArea area (used + o) t
      (x :: r.1, r.2)
    else ([], x :: t)

/-- Trims a burst to its area: the packet that straddles the new end is cut as R129 allows, the others returned. -/
def trimBurst (k : Nat) (b : Burst) (s : State) : Burst × State :=
  let r := splitArea b.area 0 b.pieces
  match r.2 with
  | [] => (b, s)
  | x :: tail =>
    let s := purge k x.pkt.id (x.pkt.off + 1) (returnPieces k tail s)
    let u := x.up
    match planPiece u x.pkt (b.area - usedArea r.1) with
    | some (plain, _) =>
      let occ := pieceOcc plain u.reqEnc
      let s := chargePend x.charge (-(x.charge.amount - (occ : Int))) s
      let s := takeOut x.leaf x.pkt.id s
      let s := pushHead x.leaf { x.pkt with off := x.pkt.off + plain, fseq := (x.pkt.fseq + 1) % 16 } s
      ({ b with pieces := r.1 ++ [{ x with plen := plain, last := false, rel := false,
                                           charge := { x.charge with amount := occ } }] }, leafTouch x.leaf s)
    | none => ({ b with pieces := r.1 }, returnPiece k x s)

/-- Returns the packets of a burst whose key for the frame is not LIVE (R255). -/
def dropKeyless (k : Nat) (b : Burst) (s : State) : Burst × State × Bool :=
  let bad (x : Piece) : Bool := !keyReady s x.up b.ki
  let gone := b.pieces.filter bad
  ({ b with pieces := b.pieces.filter (fun x => !bad x) }, returnPieces k gone s, !gone.isEmpty)

/-- Real grants in order of START. -/
def byStart (l : List Grant) : List Grant := sortBy (fun g => g.start) l

/-- The predicted burst that each real grant is matched to: the i-th of an allocation to its i-th (R134). -/
def matchBursts : List Grant → List Burst → List (Grant × Option Burst) × List Burst
  | [], preds => ([], preds)
  | g :: t, preds =>
    match preds.find? (fun b => b.grant.alloc == g.alloc) with
    | some b =>
      let r := matchBursts t (preds.erase b)
      ((g, some b) :: r.1, r.2)
    | none =>
      let r := matchBursts t preds
      ((g, none) :: r.1, r.2)

/-- One real grant's burst while a map is being reconciled. -/
structure Work where
  burst : Burst
  /-- It has a predicted burst, and that burst's area. -/
  pred : Option Nat
  /-- Its content was returned for an earlier burst of the allocation; that content exceeded the real area. -/
  redo : Bool := false
  exceeds : Bool := false
  deriving DecidableEq, Repr

/-- Returns the content of the later bursts of an allocation, to be filled anew behind an earlier one (R133). -/
def clearLater (k ctx : Nat) : List Work → State → List Work × State
  | [], s => ([], s)
  | w :: t, s =>
    let r := clearLater k ctx t s
    if w.burst.ctx = some ctx then
      let exceeds := w.exceeds || decide (w.burst.area < usedArea w.burst.pieces)
      ({ w with burst := { w.burst with pieces := [], skipped := [], nofrag := [] }, redo := true, exceeds := exceeds } :: r.1,
        returnPieces k w.burst.pieces r.2)
    else (w :: r.1, r.2)

/-- Reconciles the bursts of a map one after another, in order of START (Table 6.6). -/
def settle (k : Nat) : Nat → List Work → List Burst → State → List Burst × State
  | 0, _, done, s => (done, s)
  | _, [], done, s => (done, s)
  | fuel + 1, w :: later, done, s =>
    let ctx := w.burst.ctx
    let a := dropKeyless k w.burst s
    let exceeds := decide (a.1.area < usedArea a.1.pieces)
    let refill := w.pred.isNone || w.redo || a.2.2 || decide ((w.pred.getD 0) < a.1.area)
    let changed := ctx.isSome && (exceeds || refill)
    let c := if changed then clearLater k (ctx.getD 0) later a.2.1 else (later, a.2.1)
    let t := if exceeds then trimBurst k a.1 c.2 else (a.1, c.2)
    let f := if refill then fillBurst k t.1 t.2 else t
    let s := if w.pred.isSome && (exceeds || a.2.2 || w.exceeds) then f.2.inc (UBE_CH_CNT1_REWIND k) else f.2
    settle k fuel c.1 (done ++ [f.1]) s

/-- The NOFRAG packets passed over in every burst of their allocation in a frame wait one granted frame more (R130). -/
def countPassed (bs : List Burst) (s : State) : State :=
  let ids := (bs.map (·.nofrag)).flatten.eraseDups
  let whole := ids.filter (fun i =>
    match bs.find? (fun b => b.nofrag.contains i) with
    | none => false
    | some b => (bs.filter (fun c => c.ctx == b.ctx)).all (fun c => c.nofrag.contains i))
  s.cel.queues.foldl (fun (s : State) (e : Nat × LeafQ) =>
    let q := s.lq e.1
    if q.pkts.any (fun (p : QPkt) => whole.contains p.id) then
      s.setLq e.1 { q with pkts := q.pkts.map (fun (p : QPkt) =>
        if whole.contains p.id then { p with passed := p.passed + 1 } else p) }
    else s) s

/-- The instant at which the first symbol of the codeword with information byte `o` of a burst leaves the line port (R307):
a body symbol in 50 is a pilot, beginning with the first. -/
def departure (s : State) (k : Nat) (b : Burst) (o : Nat) : Tod :=
  let p := b.prof
  let d := 24500 * (o / 2560) / (if p.qpsk then 4 else 8)
  let sym := 1250000 + b.eqd + 250 * b.grant.start + p.pre + 256 + d + d / 49 + 1
  Tod.ofTotal ((s.trx k).total + psUnits (8 * sym) * 2 ^ 32)

/-- Gives a packet of a channel its corrected bytes, wherever parts of it stand. -/
def setCorr (k id : Nat) (leaf : Nat) (c : Option Bytes) (s : State) : State :=
  let fix (p : QPkt) : QPkt := if p.id = id then { p with corr := c } else p
  let u := s.ubeCh k
  let s := s.setUbeCh k { u with bursts := u.bursts.map (fun (b : Burst) =>
    { b with pieces := b.pieces.map (fun (x : Piece) => { x with pkt := fix x.pkt }) }) }
  s.setLq leaf { s.lq leaf with pkts := (s.lq leaf).pkts.map fix }

/-- The packets whose first fragment a burst carries are corrected for its departure (R310). -/
def correctBurst (k : Nat) (b : Burst) (s : State) : State :=
  (b.pieces.foldl (fun (a : Nat × State) x =>
    let o := a.1 + pieceOcc x.plen x.up.reqEnc
    if x.pkt.off = 0 then
      (o, setCorr k x.pkt.id x.leaf (upCorrected a.2 k x.pkt (departure a.2 k b a.1)) a.2)
    else (o, a.2)) (b.mand, s)).2

/-- Predicts frame N + 1 from the grants accepted in map N (R133). -/
def predict (k frame : Nat) (gs : List Grant) (s : State) : State :=
  if s.bit (UBE_CH_CFG_PRED_EN k) && inService s k then
    (byStart (gs.filter (fun g => g.alloc != allocDisc))).foldl (fun s g =>
      let f := fillBurst k { emptyBurst s k frame g with phase := .predicted } s
      f.2.setUbeCh k { f.2.ubeCh k with bursts := (f.2.ubeCh k).bursts ++ [f.1] }) s
  else s

/-- Map N of a channel has been judged, or is absent (R133, R134). ANNOUNCE bursts were built as their window was judged. -/
def reconcile (k frame : Nat) (present : Bool) (s : State) : State :=
  let c := s.ubeCh k
  let preds := c.bursts.filter (fun b => b.phase == .predicted)
  let s := s.setUbeCh k { c with bursts := c.bursts.filter (fun b => b.phase != .predicted), accepted := [] }
  if !present then
    ubeShow k (preds.reverse.foldl (fun s b => (returnPieces k b.pieces s).inc (UBE_CH_CNT1_REWIND k)) s)
  else
    let gs := byStart (c.accepted.filter (fun g => g.alloc != allocDisc))
    let m := matchBursts gs preds
    let s := m.2.reverse.foldl (fun s b => (returnPieces k b.pieces s).inc (UBE_CH_CNT1_REWIND k)) s
    let work := m.1.map (fun (e : Grant × Option Burst) =>
      let b := emptyBurst s k frame e.1
      match e.2 with
      | some p => { burst := { b with pieces := p.pieces, skipped := p.skipped, nofrag := p.nofrag }, pred := some p.area }
      | none => ({ burst := b, pred := none } : Work))
    let r := settle k (work.length + 1) work [] s
    let s := countPassed r.1 r.2
    let u := s.ubeCh k
    let bs := sortBy (fun b => b.seq * 65536 + b.grant.start) (u.bursts ++ r.1)
    let s := r.1.foldl (fun s b => correctBurst k b s) (s.setUbeCh k { u with bursts := bs })
    ubeShow k (predict k (frame + 1) c.accepted s)

/-- NOFRAG packets passed over in NF_WAIT granted frames are dropped (R130). -/
def nofragExpire (k : Nat) (s : State) : State :=
  let n := s.rd (UBE_CH_CFG_NF_WAIT k)
  s.cel.queues.foldl (fun (s : State) (e : Nat × LeafQ) =>
    if dirOf e.1 = 1 ∧ (s.allocCtx (leafAlloc s (e.1 % 131072))).cp = k then
      match (s.lq e.1).pkts with
      | [] => s
      | p :: _ => if n ≤ p.passed && (s.upStream p.sctx).nofrag && p.off == 0 then dropHead k e.1 s else s
    else s) s

/-! ### Sending (R121, R126 to R128, R132, R134, R136, R138) -/

/-- What the modulator sends at a symbol: the null bias point under an open gate, a symbol, or nothing. -/
inductive TxSym where
  | off
  | null
  | sym (x : Sym)
  deriving DecidableEq, Repr

/-- Body symbol `m` of a burst: a pilot, or the coded bits of the information bytes in order (R123, R124). -/
def bodySymbol (b : Burst) (m : Nat) : Sym :=
  let n := bodyLength b
  let per := if b.prof.qpsk then 4 else 8
  if m % 50 = 0 then qpskSymbol (trainingBits (m / 50))
  else
    let bits := (n - (n + 49) / 50) * per
    let c := bodyCodewords n b.prof
    let v := bodyBits c.1 c.2 bits b.out >>> (bits - per * (m - m / 50)) % 2 ^ per
    if b.prof.qpsk then qpskSymbol v else dataSymbol v

/-- Symbol `n` of a burst, counted from its first preamble symbol (Table 6.2). -/
def burstSymbol (b : Burst) (n : Int) : TxSym :=
  let head := b.prof.pre + 256
  let tail := head + bodyLength b
  if n < -64 ∨ (tail : Int) + 64 ≤ n then .off
  else if n < 0 ∨ (tail : Int) ≤ n then .null
  else if n.toNat < b.prof.pre then .sym (qpskSymbol (trainingBits n.toNat))
  else if n.toNat < head then .sym (qpskSymbol (delimBits b.prof.delim (n.toNat - b.prof.pre)))
  else .sym (bodySymbol b (n.toNat - head))

/-- The header of a burst (Table 6.4). -/
def burstHeader (k tn : Nat) (b : Burst) (ops msg : Bool) : Bytes :=
  let w := tn * 2 ^ 54 + b.grant.alloc * 2 ^ 40 + k * 2 ^ 36 + b2n b.grant.qreq * 2 ^ 35 + b2n ops * 2 ^ 34
    + b2n msg * 2 ^ 33 + b.frame % 65536 * 65536
  withCrc32c (beBytes 8 w ++ zeros 4)

/-- The queue report of an allocation (R127, Table 6.5): packets queued for it that this burst does not carry. -/
def queueReport (s : State) (k : Nat) (b : Burst) : Bytes :=
  let own (key : Nat) : Bool := dirOf key == 1 && b.ctx == some (leafAlloc s (key % 131072))
  let queued := (s.cel.queues.map (fun (e : Nat × LeafQ) =>
    if own e.1 then e.2.pkts.map (fun (p : QPkt) => (p.id, p, p.bytes.length - p.off)) else [])).flatten
  let held := (((s.ubeCh k).bursts.filter (· != b)).map (fun (c : Burst) =>
    (c.pieces.filter (fun x => own x.leaf)).map (fun x => (x.pkt.id, x.pkt, x.plen)))).flatten
  let all := queued ++ held
  let ids := (all.map (·.1)).eraseDups
  let rest (i : Nat) : Nat := ((all.filter (fun e => e.1 == i)).map (·.2.2)).sum
  let pkts := ids.filterMap (fun i => (all.find? (fun e => e.1 == i)).map (fun e => (e.2.1, rest i)))
  let total := (pkts.map (fun (e : QPkt × Nat) => pieceOcc e.2 (s.upStream e.1.sctx).reqEnc)).sum
  let age := (pkts.map (fun (e : QPkt × Nat) => s.ageUs e.1.adm)).foldl max 0
  withCrc32c (beBytes 8 (b.grant.alloc * 2 ^ 50 + min (2 ^ 34 - 1) ((total + 63) / 64) * 2 ^ 16 + min 65535 age) ++ zeros 4)

/-- An idle fragment that occupies `occ` bytes (R128): the header bits that no rule gives are free values. -/
def idleFragment (occ : Nat) (s : State) : Bytes × State :=
  let r := s.draw
  let f := r.1.toNat
  let h := 0xFFFF * 2 ^ 48 + (occ - 8) * 2 ^ 34 + f % 2 * 2 ^ 33 + f / 2 % 32 * 2 ^ 26
  (beBytes 8 (withHec h) ++ zeros (occ - 8), r.2)

/-- Idle fragments of PLEN at most 16,376 up to the end of an area of `n` bytes (R129). -/
def idleFill : Nat → Nat → State → Bytes × State
  | 0, _, s => ([], s)
  | fuel + 1, n, s =>
    if n < 8 then ([], s)
    else
      let a := idleFragment (min n 16384) s
      let r := idleFill fuel (n - min n 16384) a.2
      (a.1 ++ r.1, r.2)

/-- The encapsulation header of a piece (Table 4.6). -/
def pieceHeader (u : UpStream) (ki : Nat) (x : Piece) : Bytes :=
  beBytes 8 (withHec (u.sid * 2 ^ 48 + (x.plen + 8 * b2n u.reqEnc) * 2 ^ 34 + b2n x.last * 2 ^ 33
    + (if u.reqEnc then ki else 0) * 2 ^ 31 + b2n (x.pkt.off == 0) * 2 ^ 30 + x.pkt.fseq * 2 ^ 26))

/-- Replaces a burst in its channel's list. -/
def putBurst (k : Nat) (old new : Burst) (s : State) : State :=
  s.setUbeCh k { s.ubeCh k with bursts := (s.ubeCh k).bursts.map (fun b => if b = old then new else b) }

/-- The burst whose first symbol is due next: the oldest that is built. -/
def nextBurst (s : State) (k : Nat) : Option Burst := (s.ubeCh k).bursts.find? (fun b => b.phase == .built)

/-- The burst that is being sent. -/
def sending (s : State) (k : Nat) : Option Burst := (s.ubeCh k).bursts.find? (fun b => b.phase == .started)

/-- An EQD change has moved the burst's gate lead before the end of the last gate tail (R138). -/
def leadTooEarly (s : State) (k : Nat) (b : Burst) : Bool :=
  match (s.ubeCh k).lastTail with
  | none => false
  | some (seq, sym, eqd) =>
    let lead : Int := (b.seq : Int) * 15625000 + b.eqd + (burstSpan b).1
    decide (lead < (seq : Int) * 15625000 + eqd + sym)

/-- The bytes of a packet as it leaves upstream: a correction of R310 in place, the FCS computed over them anew (R167). -/
def leavingBytes (p : QPkt) : Bytes := withFcs (p.corr.getD p.bytes)

/-- Encodes the next fragment of the burst being sent (R132, R134, R255, R257), or its idle fill once every piece has been
encoded. `late`: the fragment is not assembled in time; `c`: what its words' checker meets. A fragment that must be encrypted
waits while the queue of its source is full (R251). -/
def encodeFragment (k : Nat) (late : Bool) (c : Checks) (s : State) : State :=
  match sending s k with
  | none => s
  | some b =>
    if b.grant.alloc = allocDisc then s
    else
      let total := b.mand + b.area
      match b.pieces[b.encoded]? with
      | none =>
        let f := idleFill (b.area / 16384 + 1) (total - b.out.length) s
        putBurst k b { b with out := b.out ++ f.1 } f.2
      | some x =>
        let u := x.up
        let occ := pieceOcc x.plen u.reqEnc
        if late then
          let b' := { b with pieces := b.pieces.take b.encoded, late := true }
          let s := returnPieces k (b.pieces.drop b.encoded) (putBurst k b b' s)
          if b.late then s else s.inc (UBE_CH_CNT0_LATE_FILL k)
        else
          let drop (s : State) : State :=
            let i := idleFragment occ s
            let kept := (b.pieces.take b.encoded).countP (fun y => y.pkt.id != x.pkt.id)
            let s := putBurst k b { b with out := b.out ++ i.1, encoded := kept } i.2
            leafTouch x.leaf (dropPkt k x.leaf x.pkt (takeOut x.leaf x.pkt.id (purge k x.pkt.id 0 s)))
          if x.pkt.poisoned then drop (fltSourceEvent blkCEL s)
          else if u.reqEnc && b.ki != 0 && cipFull s .lineUs then s
          else
            let r := checkPacket blkUBE k c (slice (leavingBytes x.pkt) x.pkt.off x.plen) s
            let s := r.2.2
            let head := pieceHeader u b.ki x
            let data := r.1
            let done (payload : Bytes) (s : State) : State :=
              putBurst k b { b with out := b.out ++ padTo occ (head ++ payload), encoded := b.encoded + 1 } s
            if r.2.1 then drop s
            else if u.reqEnc then
              if b.ki = 0 then drop s
              else match cipRequest .lineUs (kiSlot u.kslot b.ki) (some b.frame) s with
                | (.bound key, s) =>
                  let fidx := (250 * b.grant.start + b.out.length) / 32
                  let c := gcmEncrypt key (lineIv b.frame k 1 fidx) head data
                  done (c.1 ++ c.2.take 8) s
                | (_, s) => drop s
            else done data s

/-- Every information byte of a burst has been encoded. -/
def burstWhole (b : Burst) : Bool :=
  b.grant.alloc == allocDisc || b.out.length == b.mand + b.area

/-- What leaves the queues as a burst leaves the modulator (R136, R235): charges depart, and the cells of packets whose last
fragment it carried are released. -/
def burstDeparts (b : Burst) (s : State) : State :=
  b.pieces.foldl (fun s x =>
    let s := chargeDepart x.charge s
    if x.rel then leafTouch x.leaf (freeCells x.leaf x.pkt.cells s) else s) s

/-! ### Contexts (R107, R146) -/

/-- VALID of an allocation context once what is staged for it has taken effect. -/
def ctxValid (s : State) (n : Nat) : Bool := (s.stagedCtx n).elim (s.allocCtx n).valid (·.1)

/-- Contexts of a pair, but for index `but`, that are valid: in effect (`now`), or once what is staged has taken effect. -/
def pairContexts (s : State) (k : Nat) (now : Bool) (but : Option Nat) : Nat :=
  ((s.ube.allocs.map (·.1) ++ s.cfg.stagedCtx.map (·.1)).eraseDups).countP
    (fun n => some n != but && (if now then (s.allocCtx n).valid else ctxValid s n) && (s.allocCtx n).cp == k)

/-- ACT takes a context for the default allocation of a pair (R107): which of the free ones is a free value. -/
def claimDefault (k tn : Nat) (s : State) : Option State :=
  match s.ube.allocs.find? (fun (e : Nat × AllocCtx) => e.2.valid && e.2.dflt && e.2.cp == k) with
  | some e => some (s.setAllocCtx e.1 { e.2 with alloc := tn })
  | none =>
    if 256 ≤ pairContexts s k true none ∨ 256 ≤ pairContexts s k false none then none
    else
      let r := s.draw
      let used := (s.ube.allocs.filter (fun (e : Nat × AllocCtx) => e.2.valid)).map (·.1)
      (freeFrom 4096 (r.1.toNat % 4096) used).map (fun n => r.2.setAllocCtx n ⟨true, k, tn, true⟩)

/-- Releases the default allocation's context of a pair (Table 5.1). -/
def releaseDefault (k : Nat) (s : State) : State :=
  (s.ube.allocs.filter (fun (e : Nat × AllocCtx) => e.2.dflt && e.2.cp == k)).foldl (fun s e => s.setAllocCtx e.1 {}) s

/-- Releases every allocation context of a pair (R102). -/
def releaseContexts (k : Nat) (s : State) : State :=
  (releaseDefault k s).ube.allocs.foldl (fun (s : State) (e : Nat × AllocCtx) =>
    if e.2.cp = k then s.setAllocCtx e.1 { e.2 with valid := false } else s) (releaseDefault k s)

/-- A write to a stream context drops the remainder of the stream's partly sent packet (R146). Its pieces in bursts not yet
sent release its cells as they leave. -/
def dropRemainder (sctx : Nat) (s : State) : State :=
  s.cel.queues.foldl (fun (s : State) (e : Nat × LeafQ) =>
    match (s.lq e.1).pkts with
    | [] => s
    | p :: _ =>
      if dirOf e.1 = 1 ∧ p.sctx = sctx ∧ 0 < p.off then
        let k := (s.allocCtx (leafAlloc s (e.1 % 131072))).cp
        let held := (s.ubeCh k).bursts.any (fun b => b.pieces.any (fun x => x.pkt.id == p.id))
        let s := takeOut e.1 p.id s
        let s :=
          if held then
            let c := s.ubeCh k
            let ends := (c.bursts.map (fun b => (b.pieces.filter (fun x => x.pkt.id == p.id)).map (fun x => x.pkt.off))).flatten
            let top := ends.foldl max 0
            (s.setUbeCh k { c with bursts := c.bursts.map (fun (b : Burst) =>
              { b with pieces := b.pieces.map (fun (x : Piece) =>
                  if x.pkt.id = p.id then { x with rel := x.pkt.off == top, pkt := { x.pkt with doomed := true } } else x) })
              }).inc (UBE_CH_CNT1_PKT_DROP k)
          else dropPkt k e.1 p s
        leafTouch e.1 s
      else s) s

/-- An access through UBE_IND_CMD (R146), or none where it is refused. A pair's 256 contexts are counted
with what is staged for them (DESIGN CHOICE, log 160). A write to the context that ACT owns has no effect and is not refused
(DESIGN CHOICE, log 159). -/
def ubeAccess (s : State) : Option State :=
  let n := s.rd UBE_IND_CMD_INDEX
  let d := s.reg UBE_IND_DATA.addr
  let show_ (v : Nat) : State := s.setReg UBE_IND_DATA.addr (BitVec.ofNat 64 v)
  match s.rd UBE_IND_CMD_TABLE with
  | 0 =>
    if 4095 < n then none
    else
      let c := s.allocCtx n
      if s.bit UBE_IND_CMD_RD then some (show_ (2 ^ 63 * b2n c.valid + 2 ^ 56 * c.cp + 2 ^ 40 * c.alloc))
      else
        let v := fieldOf d 63 1 == 1
        let cp := fieldOf d 56 4
        let alloc := fieldOf d 40 14
        if alloc < 1024 ∨ 16382 < alloc ∨ 256 < pairContexts s cp false (some n) + b2n v then none
        else if (s.group (16 + cp)).pend then some (s.setBit ⟨CFG_GRP_WDISC.addr, 0, 64⟩ (16 + cp))
        else if c.dflt then some s
        else some ((s.setAllocCtx n { c with cp := cp }).setStagedCtx n (some (v, alloc)))
  | 1 =>
    let u := s.upStream n
    if s.bit UBE_IND_CMD_RD then
      some (show_ (2 ^ 63 * b2n u.valid + 2 ^ 62 * b2n u.reqEnc + 2 ^ 61 * b2n u.nofrag + 2 ^ 48 * u.kslot
        + 2 ^ 36 * u.actx + u.sid))
    else if fieldOf d 0 16 = 0xFFFF then none
    else
      let u' : UpStream :=
        { valid := fieldOf d 63 1 == 1, reqEnc := fieldOf d 62 1 == 1, nofrag := fieldOf d 61 1 == 1,
          kslot := fieldOf d 48 13, actx := fieldOf d 36 12, sid := fieldOf d 0 16 }
      some ((dropRemainder n s).setUpStream n u')
  | _ => none

/-- Writes of UBE registers. -/
def ubeWrite (a : Nat) (v : Word) (o s : State) : State :=
  if a = UBE_IND_CMD.addr ∧ fieldOf v 63 1 = 1 then
    if o.bit UBE_IND_CMD_GO then o.put UBE_IND_CMD_ERR true
    else match ubeAccess s with
      | some t => t
      | none => s.put UBE_IND_CMD_ERR true
  else s

end Sys2Proof.Machine
end

