-- ==== Sys2Proof/Machine/ChpOps.lean ====
section
/-! DEFINITION. Consistency groups (R44, R45, R145) and the Chaperone's own logic (R139 to R145). What a shutdown means to
the pair's activation machine is ActOps's. -/

namespace Sys2Proof.Machine

/-! ### Consistency groups -/

/-- The group of an ST field's register: CHP_COPY of channel k is in group k, CHP_AMAP of channel k in group 16 + k (R145). -/
def groupOf (a : Nat) : Nat :=
  let k := a % 0x1000000 / 0x10000
  if a = (CHP_COPY k).addr then k else 16 + k

/-- Bit of a group in CFG_GRP_PEND and CFG_GRP_WDISC. -/
def grpPend : RF := ⟨CFG_GRP_PEND.addr, 0, 64⟩
/-- CFG_GRP_WDISC as one field. -/
def grpWdisc : RF := ⟨CFG_GRP_WDISC.addr, 0, 64⟩

/-- Stages a value of an ST register; discarded while its group's commit is pending (R45). The fields of groups 0 to 15 are ACT's
alone: a write of them by anyone else is discarded (R110, R145; DESIGN CHOICE, log 175). -/
def stageReg (a : Nat) (v : Word) (s : State) : State :=
  if groupOf a < 16 then s
  else if (s.group (groupOf a)).pend then s.setBit grpWdisc (groupOf a) else s.setStagedReg a (some v)

/-- Requests the commit of a group; nothing where it is already pending (R45). -/
def requestCommit (g : Nat) (when_ : Bool) (ch : Nat) (s : State) : State :=
  if (s.group g).pend then s
  else (s.setGroup g { pend := true, when_ := when_, ch := ch, seq := s.bseq ch }).setBit grpPend g

/-- Staged values of a group: the registers with ST fields are the Chaperone's (R145). -/
def stagedOf (s : State) (g : Nat) : List (Nat × Word) :=
  s.cfg.staged.filterMap (fun (e : Nat × Option Word) =>
    match e.2 with
    | some v => if blkOf e.1 = blkCHP ∧ groupOf e.1 = g then some (e.1, v) else none
    | none => none)

/-- Allocation contexts with staged values of a group. -/
def stagedCtxOf (s : State) (g : Nat) : List (Nat × Bool × Nat) :=
  s.cfg.stagedCtx.filterMap (fun (e : Nat × Option (Bool × Nat)) =>
    match e.2 with
    | some v => if 16 + (s.allocCtx e.1).cp = g then some (e.1, v) else none
    | none => none)

/-- Discards the staged values of a group. -/
def discardStaged (g : Nat) (s : State) : State :=
  let regs := stagedOf s g
  let ctxs := stagedCtxOf s g
  let s := regs.foldl (fun s e => s.setStagedReg e.1 none) s
  ctxs.foldl (fun s e => s.setStagedCtx e.1 none) s

/-- CFG_GRP_ABORT: nothing for a group whose commit is pending (R45), or that is ACT's. -/
def abortGroup (g : Nat) (s : State) : State := if g < 16 ∨ (s.group g).pend then s else discardStaged g s

/-- CFG_GRP_COMMIT: ACT alone commits groups 0 to 15 (R110; DESIGN CHOICE, log 175: another's commit of them is discarded). -/
def commitGroup (g : Nat) (when_ : Bool) (ch : Nat) (s : State) : State := if g < 16 then s else requestCommit g when_ ch s

/-- UBE takes the values in effect of the Chaperone's copy (R110). -/
def takeCopy (k : Nat) (s : State) : State :=
  s.setUbeCh k { s.ubeCh k with copy :=
    ⟨s.bit (CHP_COPY_TN_V k), s.bit (CHP_COPY_ANN k), s.rd (CHP_COPY_TN k), s.rd (CHP_COPY_EQD k)⟩ }

/-- Every staged value of a group takes effect (R44). -/
def applyStaged (g : Nat) (s : State) : State :=
  let regs := stagedOf s g
  let ctxs := stagedCtxOf s g
  let s := regs.foldl (fun s e => s.setReg e.1 e.2) s
  let s := ctxs.foldl (fun s e =>
    let c := s.allocCtx e.1
    if c.dflt then s else s.setAllocCtx e.1 { c with valid := e.2.1, alloc := e.2.2 }) s
  let s := discardStaged g s
  if g < 16 then takeCopy g s else s

/-- A group's commit is no longer pending. -/
def clearPend (g : Nat) (s : State) : State := (s.setGroup g {}).clrBit grpPend g

/-- A channel is in SYNC. -/
def inSync (s : State) (k : Nat) : Bool := s.rd (DSF_SYNC_STATE k) == 3

/-- A pending commit is due: at once with WHEN = 0, at the first later frame boundary of its channel, or with the channel
out of SYNC (R44). -/
def commitDue (s : State) (g : Nat) : Bool :=
  let c := s.group g
  c.pend && (!c.when_ || decide (c.seq < s.bseq c.ch) || !inSync s c.ch)

/-! ### The Chaperone (R139 to R143) -/

/-- Shows SHUTTER, SHUT_RDY and GATE where other blocks show them. -/
def showShutter (k : Nat) (s : State) : State :=
  let s := s.put (UBE_CH_STAT_SHUT_RDY k) (s.bit (CHP_STATUS_SHUT_RDY k))
  (s.put (LPH_TX_STATUS_GATE k) (s.bit (CHP_STATUS_GATE k))).put (LPH_TX_STATUS_SHUTTER k) (s.bit (CHP_STATUS_SHUTTER k))

/-- A close is in force: DSF out of SYNC, RX_LOS or CR_LOCK lost, the port-move hold (Table 6.9). -/
def closeInForce (s : State) (k : Nat) : Bool :=
  !inSync s k || s.bit (LPH_RX_STATUS_RX_LOS k) || !s.bit (LPH_RX_STATUS_CR_LOCK k) || (s.chpCh k).portHold

/-- The shutter conditions of R141; none is driven during EXTEST (R400). -/
def shutterConds (s : State) (k : Nat) : Bool :=
  s.runs blkCHP && (s.bit (CHP_COPY_TN_V k) || s.bit (CHP_COPY_ANN k)) && inSync s k && s.bit (CHP_STATUS_TIME_OK k)
    && !s.bit (CHP_STATUS_SIL k) && !closeInForce s k && !s.tap.extest

/-- Removes the gate and shutter drives of a channel; a burst being sent is cut (R136, R142). -/
def chpDark (k : Nat) (s : State) : State :=
  let s := (s.put (CHP_STATUS_SHUTTER k) false).put (CHP_STATUS_SHUT_RDY k) false
  showShutter k (gateDown k 0 (cutStarted k (endTail k s)))

/-- The recovery oscillator of receiver k must run (R388). -/
def oscNeeded (s : State) (k : Nat) : Bool :=
  s.bit (LPH_CH_CTL_RX_EN k) || s.bit (CHP_COPY_TN_V k) || s.bit (CHP_COPY_ANN k)

/-- Close (Table 6.9): a driven shutter whose conditions have ceased is undriven. -/
def chpReact (k : Nat) (s : State) : State :=
  let s := s.put (CHP_STATUS_TIME_OK k) ((s.chpCh k).phased && inSync s k)
  let s := if oscNeeded s k then s else s.put (CHP_STATUS_CLK_OK k) false
  if s.bit (CHP_STATUS_SHUTTER k) && !shutterConds s k then (chpDark k s).inc (CHP_CNT_CLOSES k) else s

/-- The shutter is driven once its conditions hold (R141). -/
def chpDrive (k : Nat) (s : State) : State :=
  if shutterConds s k && !s.bit (CHP_STATUS_SHUTTER k) then showShutter k (s.put (CHP_STATUS_SHUTTER k) true)
  else chpReact k s

/-- SHUT_RDY rises, 25 µs after the drive began (R141). -/
def chpReady (k : Nat) (s : State) : State :=
  if s.bit (CHP_STATUS_SHUTTER k) then showShutter k (s.put (CHP_STATUS_SHUT_RDY k) true) else s

/-- Shows CHP_SIL where other blocks show it. -/
def showSil (k : Nat) (b : Bool) (s : State) : State :=
  let s := (s.put (CHP_STATUS_SIL k) b).put (ACT_CP_STATE_CHP_SIL k) b
  if b then s.setBit CHP_SIL_ALL_SIL k else s.clrBit CHP_SIL_ALL_SIL k

/-- Clears a channel's copy: TN_V, ANN and every CHP_AMAP bit (R142). -/
def clearCopy (k : Nat) (s : State) : State :=
  let s := (s.put (CHP_COPY_TN_V k) false).put (CHP_COPY_ANN k) false
  (List.range 256).foldl (fun s n => s.setReg (CHP_AMAP k n).addr 0) s

/-- The Chaperone's own part of a shutdown (R142): drives removed, CHP_SIL and CAUSE set, the copy cleared. A channel already
shut down keeps its cause. -/
def chpShut (k cause : Nat) (s : State) : State :=
  if s.bit (CHP_STATUS_SIL k) then s
  else
    let s := (showSil k true (chpDark k s)).wr (CHP_STATUS_CAUSE k) cause
    clearCopy k (s.setChpCh k { s.chpCh k with windows := [], relReq := false })

/-- The report of a shutdown to FLT: contained, with the channel and the cause (R142). -/
def chpReport (k cause : Nat) (inj : Bool) (s : State) : State :=
  fltLatch { src := Fin.ofNat 64 blkCHP, unit := BitVec.ofNat 16 k, cls := .contained, kind := 4,
             synd := BitVec.ofNat 8 cause, addr := 0, inj := inj, res := .none } s

/-- A header as the framer and the Chaperone check it (R79): HCRC, codeword 0, MAP_N, MSG_N, CH. -/
def headerOk (k : Nat) (bad : Bool) (h : Bytes) : Bool :=
  crc32cOk 64 h && !bad && decide (fieldOf (wordAt h 0) 6 10 ≤ 512) && decide (fieldOf (wordAt h 8) 57 7 ≤ 64)
    && fieldOf (wordAt h 8) 48 4 == k

/-- The bytes of a map entry lie in no uncorrectable codeword. -/
def spanGood (bad : List Nat) (off len : Nat) : Bool := bad.all (fun c => decide (c < off / 2560) || decide ((off + len - 1) / 2560 < c))

/-- The windows that an entry gives (R140): its limits in symbols of the upstream frame, U being symbol 0. -/
def chpWindow (s : State) (k frame : Nat) (e : Bytes) : Option Window :=
  let g := grantOf e
  let tnV := s.bit (CHP_COPY_TN_V k)
  let amap := decide (1024 ≤ g.alloc) && g.alloc != allocDisc && (s.reg (CHP_AMAP k (g.alloc / 64)).addr).toNat.testBit (g.alloc % 64)
  let own := (tnV && g.alloc == s.rd (CHP_COPY_TN k)) || (g.alloc == allocDisc && s.bit (CHP_COPY_ANN k)) || (amap && tnV)
  if 1 ≤ g.len ∧ g.start + g.len ≤ 62500 ∧ g.len ≤ s.rd (CHP_LIMIT_MAX_LEN k) ∧ own then
    some ⟨frame, 250 * g.start - 128, 250 * (g.start + g.len) + 128⟩
  else none

/-- Adds a window to a list of disjoint ones, merged with those it overlaps (R140). -/
def mergeWindow (w : Window) (l : List Window) : List Window :=
  let hit (v : Window) : Bool := v.frame == w.frame && decide (v.lo ≤ w.hi) && decide (w.lo ≤ v.hi)
  let m := (l.filter hit).foldl (fun (a : Window) v => ⟨a.frame, min a.lo v.lo, max a.hi v.hi⟩) w
  l.filter (fun v => !hit v) ++ [m]

/-- The Chaperone parses a frame (R140): header and entries as the final decoder gives them. Windows of the frame before are
kept, since they may still be open. -/
def chpParse (k : Nat) (bad : List Nat) (header : Bytes) (entries : List Bytes) (s : State) : State :=
  let fc := fieldOf (wordAt header 0) 16 48
  let c := s.chpCh k
  let c := { c with open8 := (0 :: c.open8).take 8 }
  if !headerOk k (bad.contains 0) header then (s.setChpCh k c).inc (CHP_CNT_HDR_ERR k)
  else
    let n := fieldOf (wordAt header 0) 6 10
    let s := s.setChpCh k { c with windows := c.windows.filter (fun (w : Window) => (w.frame + 1) % 2 ^ 48 == fc) }
    ((List.range n).zip entries).foldl (fun s e =>
      if !(spanGood bad (128 + 16 * e.1) 16 && crc32cOk 16 e.2) then s.inc (CHP_CNT_ENT_ERR k)
      else match chpWindow s k fc e.2 with
        | none => s
        | some w =>
          (s.setChpCh k { s.chpCh k with windows := mergeWindow w (s.chpCh k).windows }).inc (CHP_CNT_WINDOWS k)) s

/-- A burst's gate lies within one window of its frame: the lead and the tail among its symbols. -/
def gateCovered (s : State) (k : Nat) (b : Burst) : Bool :=
  let span := burstSpan b
  (s.chpCh k).windows.any (fun w => w.frame == b.frame && decide (w.lo ≤ span.1) && decide ((span.2 : Int) ≤ w.hi))

/-- The longest gate opening allowed (Table 6.9). -/
def gateLimit (s : State) (k : Nat) : Nat := 250 * s.rd (CHP_LIMIT_MAX_LEN k) + 256

/-- The burst for which BE_GATE is high: from its gate lead to the end of its gate tail (R121). -/
def beGate (s : State) (k : Nat) : Option Burst :=
  match sending s k with
  | some b => some b
  | none => if (s.ubeCh k).tail then (s.ubeCh k).sent else none

/-- Gate-open symbols of the trailing 8 frames, the opening in progress among them. -/
def gateOpen8 (s : State) (k : Nat) : Nat :=
  (s.chpCh k).open8.sum + (if s.bit (CHP_STATUS_GATE k) then (beGate s k).elim 0 (openSymbols s) else 0)

/-- Gate-open symbols over the trailing 8 frames exceed DUTY_MAX (Table 6.9). -/
def dutyExceeded (s : State) (k : Nat) : Bool := decide (s.rd (CHP_LIMIT_DUTY_MAX k) * 125000000 < 256 * gateOpen8 s k)

/-- DSF enters SYNC: the divider takes its phase from the alignment strobe (R140). -/
def chpPhase (k : Nat) (s : State) : State :=
  (s.setChpCh k { s.chpCh k with phased := true }).put (CHP_STATUS_TIME_OK k) true

/-- The outcome of a requested release (R144). `held`: CLK_OK has been 1 for the last 1 ms; `pass`: the self-test passes. A
request while CHP_SIL is 0 has nothing to release. Whether CHP_SIL fell is answered too. -/
def chpRelease (k : Nat) (held pass : Bool) (s : State) : State × Bool :=
  if (s.chpCh k).relReq then
    let s := s.setChpCh k { s.chpCh k with relReq := false }
    if !s.bit (CHP_STATUS_SIL k) then (s, false)
    else if s.runs blkCHP && s.bit (CHP_STATUS_CLK_OK k) && held && !s.bit FLT_SUMMARY_FATAL && pass then
      (showSil k false (s.wr (CHP_STATUS_CAUSE k) 0), true)
    else (s.put (CHP_CTL_REL_FAIL k) true, false)
  else (s, false)

end Sys2Proof.Machine
end

