-- ==== Sys2Proof/Machine/ActOps.lean ====
section
/-! DEFINITION. The activation machines: states, timers, ranging, upstream messages, acceptance and answering of downstream
messages (R98 to R118). -/

namespace Sys2Proof.Machine

/-! ### States -/

/-- The states of R100 by number. -/
def stInitial : Nat := 0
def stListening : Nat := 1
def stAnnouncing : Nat := 2
def stRanging : Nat := 3
def stOperating : Nat := 4
def stIntermittent : Nat := 5
def stStopped : Nat := 6
def stSilenced : Nat := 7

/-- The device-wide or the pair's disable flag is set (R103). -/
def disabled (s : State) (k : Nat) : Bool := s.bit (ACT_CP_STATE_DIS_CP k) || s.bit (ACT_CP_STATE_DIS_DEV k)

/-- The stored EQD of a port, and whether it is valid (R114). -/
def eqdV (k port : Nat) : RF := if port = 0 then ACT_CP_STATE_EQD0_V k else ACT_CP_STATE_EQD1_V k
/-- The stored EQD of a port. -/
def eqdOf (k port : Nat) : RF := if port = 0 then ACT_CP_EQD_EQD0 k else ACT_CP_EQD_EQD1 k

/-- The active line port. -/
def activePort (s : State) : Nat := s.rd LPH_PORT_ACTIVE

/-- Flywheel ticks of a time in milliseconds: eight per millisecond. -/
def ticksOf (ms : Nat) : Nat := 8 * ms

/-! ### Values carried to UBE and the Chaperone (R110, R145) -/

/-- A change of the values, carried in the frame in progress: the later of two in one frame is the one taken. -/
def lineChange (k : Nat) (f : LineCopy → LineCopy) (s : State) : State :=
  let p := s.pair k
  s.setPair k { p with want := f p.want, pend := p.pend.filter (fun e => e.1 != s.bseq k) ++ [(s.bseq k, f p.want)] }

/-- Stages the pending values and takes them to CHP_COPY's staged value. -/
def stageCopy (k : Nat) (v : LineCopy) (s : State) : State :=
  s.setStagedReg (CHP_COPY k).addr
    (some (BitVec.ofNat 64 (b2n v.tnV * 2 ^ 63 + b2n v.ann * 2 ^ 62 + v.tn * 2 ^ 48 + v.eqd)))

/-- ACT stages the changes of frame N once frame N + 1 has begun, and commits group k with WHEN = 1 and CH = k (R110). A
channel out of SYNC takes them at once (R44). -/
def actStage (k : Nat) (s : State) : State :=
  let p := s.pair k
  if inSync s k then
    match p.pend with
    | [] => s
    | (seq, v) :: t =>
      if s.bseq k ≤ seq ∨ (s.group k).pend then s
      else requestCommit k true k (stageCopy k v (s.setPair k { p with pend := t }))
  else match p.pend.getLast? with
    | none => s
    | some (_, v) => applyStaged k (clearPend k (stageCopy k v (s.setPair k { p with pend := [] })))

/-- ACT's clearing of TN_V and ANN at once (R145): a pending commit of group k is withdrawn first. -/
def lineClear (k : Nat) (s : State) : State :=
  let s := discardStaged k (clearPend k s)
  let p := s.pair k
  let s := s.setPair k { p with pend := [], want := { p.want with tnV := false, ann := false } }
  let s := (s.put (CHP_COPY_TN_V k) false).put (CHP_COPY_ANN k) false
  chpReact k (takeCopy k s)

/-! ### Upstream messages (R104, R106) -/

/-- TYPE of a message. -/
def msgType (m : Bytes) : Nat := fieldOf (wordAt m 0) 58 6
/-- TNUM of a message. -/
def msgTnum (m : Bytes) : Nat := fieldOf (wordAt m 0) 48 10
/-- MSEQ of a message. -/
def msgSeq (m : Bytes) : Nat := fieldOf (wordAt m 0) 40 8
/-- ACK_REQ of a message. -/
def msgAck (m : Bytes) : Bool := fieldOf (wordAt m 0) 39 1 == 1
/-- A field of a message's word. -/
def msgF (m : Bytes) (word lo w : Nat) : Nat := fieldOf (wordAt m (8 * word)) lo w

/-- A message of 64 bytes from words of its body, TYPE in word 0. -/
def msgBody (type : Nat) (w0 : Nat) (rest : List Nat) : Bytes :=
  (((type * 2 ^ 58 + w0) :: rest).map (fun w => beBytes 8 w)).flatten.take 60 |> padTo 64

/-- A message as sent: TNUM, MSEQ and MCRC filled (R104, R118). -/
def fillMsg (tnum seq : Nat) (m : Bytes) : Bytes :=
  let w := wordAt m 0
  let w := setField (setField (setField w 48 10 tnum) 40 8 seq) 39 1 0
  withCrc32c ((wordBytes w ++ m.drop 8).take 60)

/-- The terminal number a pair sends: 1,023 while it has none. -/
def ownTnum (s : State) (k : Nat) : Nat := if s.bit (ACT_CP_STATE_TN_VALID k) then s.rd (ACT_CP_STATE_TN k) else 1023

/-- Takes the next MSEQ of a type (R104). -/
def nextSeq (k type : Nat) (s : State) : Nat × State :=
  let p := s.pair k
  let n := SMap.get (fun _ => 0) p.mseq type
  (n, s.setPair k { p with mseq := SMap.set (fun _ => 0) p.mseq type ((n + 1) % 256) })

/-- Queues a message, its TNUM, MSEQ and MCRC filled as it is queued (DESIGN CHOICE, log 171: R104 does not say when); a full queue
discards it and sets UQ_OVF (R106). -/
def queueUp (k : Nat) (m : Bytes) (s : State) : State :=
  if 16 ≤ (s.pair k).msgq.length then s.put (ACT_CP_EVT_UQ_OVF k) true
  else
    let n := nextSeq k (msgType m) s
    let p := n.2.pair k
    n.2.setPair k { p with msgq := p.msgq ++ [fillMsg (ownTnum s k) n.1 m] }

/-- The IDLE message (R104). -/
def idleMsg (s : State) (k : Nat) : Bytes := fillMsg (ownTnum s k) 0 (msgBody 0x3F 0 [])

/-- The body of an ACK (Table 5.5). -/
def ackBody (type seq status : Nat) : Bytes := msgBody 0x21 (type * 2 ^ 32 + seq * 2 ^ 24 + status) []

/-- The body of a REG_VALUE (Table 5.5). -/
def regValueBody (seq status addr value : Nat) : Bytes := msgBody 0x24 (seq * 2 ^ 24 + status) [addr, value]

/-! ### State entry (R102, R145) -/

/-- The pair's TN, EQDs, message queue and AUTH_SENT are discarded. -/
def forgetPair (k : Nat) (s : State) : State :=
  let s := (s.put (ACT_CP_STATE_TN_VALID k) false).wr (ACT_CP_STATE_TN k) 0
  let s := (s.put (ACT_CP_STATE_EQD0_V k) false).put (ACT_CP_STATE_EQD1_V k) false
  (s.put (ACT_CP_STATE_AUTH_SENT k) false).setPair k { s.pair k with msgq := [] }

/-- Aborts the reassembly of a stream of a pair (R87, R88): its fragments count as dropped. -/
def abortAsm (k sid : Nat) (s : State) : State :=
  let c := s.dsfCh k
  match SMap.get (fun _ => (none : Option Assembly)) c.asm sid with
  | none => s
  | some a =>
    let c := { c with asm := SMap.set (fun _ => none) c.asm sid none, pm := { c.pm with fdrop := c.pm.fdrop + a.frags } }
    let s := (s.setDsfCh k c).inc (DSF_RA_CNT_ABORT k)
    { s with cel := { s.cel with raUsed := s.cel.raUsed - cellCount 0 a.bytes.length false } }

/-- Aborts every reassembly of a channel. -/
def abortAll (k : Nat) (s : State) : State :=
  (s.dsfCh k).asm.foldl (fun s (e : Nat × Option Assembly) => abortAsm k e.1 s) s

/-- A stream's map entry or context has been written: its assembly is aborted and its speculative packets squashed (R87,
R201). -/
def streamTouched (k sid : Nat) (s : State) : State := squashStream k sid (abortAsm k sid s)

/-- Clears VALID in every stream map entry of a pair (R102). -/
def clearStreams (k : Nat) (s : State) : State :=
  let keys := (s.dsf.smap.filter (fun (e : Nat × StreamEnt) => e.1 / 65536 == k)).map (·.1)
  keys.foldl (fun s n => streamTouched k (n % 65536) (s.setStreamMap n { s.streamMap n with valid := false })) s

/-- Bursts of an ANNOUNCE not sent when the pair leaves Announcing are not held any longer. -/
def dropAnnounce (k : Nat) (s : State) : State :=
  ubeShow k (s.setUbeCh k { s.ubeCh k with bursts := (s.ubeCh k).bursts.filter (fun b => b.grant.alloc != allocDisc) })

/-- Entry to a state, with the actions of Table 5.1 and R102 that belong to it. -/
def enterState (k new : Nat) (s : State) : State :=
  let old := pairState s k
  let s := if (old = 3 ∨ old = 4) ∧ ¬ (new = 3 ∨ new = 4) then ubeLeave k s else s
  let s := if old = 2 ∧ new ≠ 2 then dropAnnounce k s else s
  let s := s.wr (ACT_CP_STATE_STATE k) new
  let s := if old = new ∧ ¬ (new = 0 ∨ new = 6 ∨ new = 7) then s else s.put (ACT_CP_EVT_STATE_CHG k) true
  let timers := fun (s : State) =>
    s.setPair k { s.pair k with tAsg := none, tRng := none, tInt := none, hold := none }
  let s := if new ≤ 1 ∨ 6 ≤ new then s.setPair k { s.pair k with keyWaits := [] } else s
  if new = 0 ∨ new = 6 ∨ new = 7 then
    let s := klnForget k (releaseContexts k (clearStreams k (forgetPair k (timers s))))
    let s := lineClear k s
    if new = 0 then
      let s := s.put (ACT_CP_STATE_PARAMS_OK k) false
      s.setPair k { s.pair k with mseq := [], heCand := none }
    else s
  else if new = 1 then
    let s := timers (s.wr (ACT_CP_STATE_HE_ID k) (s.pair k).heLast)
    let s := s.setPair k { s.pair k with profGot := 0, heCand := none }
    if old = 2 then lineChange k (fun v => { v with ann := false }) s
    else if old = 3 then
      let s := releaseDefault k ((s.put (ACT_CP_STATE_TN_VALID k) false).wr (ACT_CP_STATE_TN k) 0)
      lineClear k (s.setPair k { s.pair k with msgq := [] })
    else s
  else if new = 2 then
    let s := s.wr (ACT_CP_STATE_ANN_CNT k) 0
    let s := s.setPair k { s.pair k with backoff := 0 }
    lineChange k (fun v => { v with ann := true, eqd := (s.pair k).preEqd }) s
  else if new = 3 then
    let s := (timers s).put (ACT_CP_STATE_AUTH_SENT k) false
    let s := s.setPair k { s.pair k with tRng := some (ticksOf (s.rd (ACT_CP_TMR_T_RNG k))) }
    lineChange k (fun v => { v with ann := false, tnV := true, tn := s.rd (ACT_CP_STATE_TN k), eqd := (s.pair k).preEqd }) s
  else if new = 4 then
    let s := (timers s).setTimLine k none
    lineChange k (fun v => { v with eqd := s.rd (eqdOf k (activePort s)) }) s
  else
    let s := timers s
    s.setPair k { s.pair k with tInt := some (ticksOf (s.rd (ACT_CP_TMR_T_INT k))) }

/-- One transition that the conditions of Table 5.1 call for, without an event of their own. -/
def pollOnce (k : Nat) (s : State) : State :=
  let st := pairState s k
  let p := s.pair k
  if st = 0 ∧ s.bit (ACT_CP_CTL_EN k) ∧ inSync s k then
    if s.bit (ACT_CP_STATE_CHP_SIL k) then enterState k 7 s else enterState k 1 s
  else if st = 1 ∧ disabled s k then enterState k 7 s
  else if st = 1 ∧ s.bit (ACT_CP_STATE_PARAMS_OK k) ∧ p.annEn ∧ p.profGot.testBit p.discProf then enterState k 2 s
  else if st = 5 ∧ inSync s k then
    if s.bit (eqdV k (activePort s)) then enterState k 4 s else enterState k 3 s
  else if st = 7 ∧ ¬ disabled s k ∧ ¬ s.bit (ACT_CP_STATE_CHP_SIL k) then enterState k 0 s
  else s

/-- KEY_CONTROL's STATUS 0 is queued once no derivation or erase of it is incomplete (R268); the answer is kept for a duplicate
(R105). -/
def keyAnswer (k : Nat) (s : State) : State :=
  (s.pair k).keyWaits.foldl (fun s (w : KeyWait) =>
    if w.slots.any (slotPending s) then s
    else
      let p := s.pair k
      let b := ackBody 0x06 w.mseq 0
      let last := match SMap.get (fun _ => (none : Option LastMsg)) p.last 0x06 with
        | some l => if l.mseq = w.mseq then SMap.set (fun _ => none) p.last 0x06 (some ⟨w.mseq, some b⟩) else p.last
        | none => p.last
      let s := s.setPair k { p with keyWaits := p.keyWaits.erase w, last := last }
      if w.ack then queueUp k b s else s) s

/-- Judges a pair's conditions (R100, R101); at most a few transitions follow one another. -/
def actPoll (k : Nat) (s : State) : State :=
  timPoll (if s.runs blkACT then keyAnswer k (pollOnce k (pollOnce k (pollOnce k (pollOnce k s)))) else s)

/-- A generation has drained: answers that waited for it are queued (R268). -/
def keyAnswers (s : State) : State := if s.runs blkACT then (List.range 16).foldl (fun s k => keyAnswer k s) s else s

/-! ### Events -/

/-- Loss of frame (Table 5.1), which a sleeping pair does not take as an event (R338). Changes that wait are staged and committed at once (R110). -/
def actLof (k : Nat) (s : State) : State :=
  if !s.runs blkACT then s
  else if s.bit (PWR_CP_PM_ASLEEP k) then actStage k s
  else
    let st := pairState s k
    let s := actStage k s
    let s := if st = 1 ∨ st = 2 ∨ st = 3 then enterState k 0 s else if st = 4 then enterState k 5 s else s
    actPoll k s

/-- A Chaperone shutdown of the channel (Table 5.1). -/
def actShutdown (k : Nat) (s : State) : State :=
  let st := pairState s k
  if s.runs blkACT ∧ 1 ≤ st ∧ st ≤ 5 then actPoll k (enterState k 7 s) else s

/-- A shutdown of one channel, its report to FLT and what the pair makes of it (R142). -/
def shutDown (k cause : Nat) (inj : Bool) (s : State) : State :=
  if s.bit (CHP_STATUS_SIL k) then s else actShutdown k (chpReport k cause inj (chpShut k cause s))

/-- A shutdown of every channel, reported once for the device (R142). -/
def shutDownAll (s : State) : State :=
  let any := (List.range 16).any (fun k => !s.bit (CHP_STATUS_SIL k))
  let s := (List.range 16).foldl (fun s k => actShutdown k (chpShut k 7 s)) s
  if any then chpReport 0 7 false s else s

/-- A new partner, or one differing header (R99): the HE_ID of a valid header. -/
def actHeader (k he : Nat) (s : State) : State :=
  if !s.runs blkACT then s
  else
    let p := s.pair k
    let st := pairState s k
    let own := s.rd (ACT_CP_STATE_HE_ID k)
    if he = own then s.setPair k { p with heLast := he, heCand := none }
    else if p.heCand = some he then
      if st = 0 then s.setPair k { p with heLast := he }
      else
      let s := s.setPair k { p with heLast := he, heCand := none }
      if st = 1 then s.wr (ACT_CP_STATE_HE_ID k) he
      else actPoll k ((enterState k 0 s).put (ACT_CP_EVT_HE_CHG k) true)
    else (s.setPair k { p with heLast := he, heCand := some he }).inc (ACT_CP_CNT_HE_MIS k)

/-- EN written 0, or RESTART written 1 (Table 5.1). -/
def actRestart (k : Nat) (s : State) : State := if s.runs blkACT then actPoll k (enterState k 0 s) else s

/-- A flywheel tick: the pair's timers count down (R100), unless ACT is stopped (R416). -/
def actTick (k : Nat) (s : State) : State :=
  if !s.runs blkACT then s else
  let p := s.pair k
  let dec (t : Option Nat) : Option Nat := t.map (· - 1)
  s.setPair k { p with tAsg := dec p.tAsg, tRng := dec p.tRng, tInt := dec p.tInt, hold := dec p.hold }

/-- T_ASG expires: a new backoff, uniform in 0 to 2^min(ANN_CNT, BO_MAX) − 1, a free value. -/
def tAsgExpire (k : Nat) (s : State) : State :=
  let p := s.pair k
  if s.runs blkACT ∧ pairState s k = 2 ∧ p.tAsg = some 0 then
    let r := s.draw
    let m := min (s.rd (ACT_CP_STATE_ANN_CNT k)) (s.rd (ACT_CP_TMR_BO_MAX k))
    r.2.setPair k { p with tAsg := none, backoff := r.1.toNat % 2 ^ m }
  else s

/-- T_RNG expires. -/
def tRngExpire (k : Nat) (s : State) : State :=
  if s.runs blkACT ∧ pairState s k = 3 ∧ (s.pair k).tRng = some 0 then actPoll k (enterState k 1 s) else s

/-- T_INT expires. -/
def tIntExpire (k : Nat) (s : State) : State :=
  if s.runs blkACT ∧ pairState s k = 5 ∧ (s.pair k).tInt = some 0 then actPoll k (enterState k 0 s) else s

/-- HOLD ms have elapsed in Stopped. -/
def holdExpire (k : Nat) (s : State) : State :=
  if s.runs blkACT ∧ pairState s k = 6 ∧ (s.pair k).hold = some 0 then actPoll k (enterState k 0 s) else s

/-- A discovery window that UBE has accepted (Table 5.1, R107): an Announcing pair sends ANNOUNCE or counts down. -/
def discWindow (k frame : Nat) (g : Grant) (s : State) : State :=
  let p := s.pair k
  if !(s.runs blkACT) || pairState s k != 2 || p.tAsg.isSome then s
  else if 0 < p.backoff then s.setPair k { p with backoff := p.backoff - 1 }
  else
    let r := s.draw
    let rnd := r.1.toNat % (p.rndMax + 1)
    let cnt := satAdd 8 (s.rd (ACT_CP_STATE_ANN_CNT k)) 1
    let s := r.2.wr (ACT_CP_STATE_ANN_CNT k) cnt
    let s := s.setPair k { s.pair k with tAsg := some (ticksOf (s.rd (ACT_CP_TMR_T_ASG k))) }
    let n := nextSeq k 0x20 s
    let m := fillMsg 1023 n.1 (msgBody 0x20 (k * 2 ^ 35 + rnd) [(serial s).toNat, 2 ^ 56 + cnt * 2 ^ 48 + 3])
    let b := emptyBurst n.2 k frame { g with prof := p.discProf }
    let b := { b with ctx := none, area := 0, rnd := rnd, msg := some m }
    ubeShow k (n.2.setUbeCh k { n.2.ubeCh k with bursts := (n.2.ubeCh k).bursts ++ [b] })

/-! ### Sending a burst (R121, R126, R136) -/

/-- The OHS port that feeds an upstream channel: the lowest that names it (R95). -/
def ohsFeeder (s : State) (k : Nat) : Option Nat :=
  (List.range 4).find? (fun p => s.bit (OHS_CTL_I_EN p) && s.rd (OHS_CTL_I_DST p) == k)

/-- The operations field of a burst, and the port whose held block it is: that block, or all-ones (R126). -/
def opsField (s : State) (k : Nat) : Bytes × Option Nat :=
  match ohsFeeder s k with
  | none => (List.replicate 64 0xFF, none)
  | some p =>
    match (s.ohsPort p).held with
    | some b => (b, some p)
    | none => (List.replicate 64 0xFF, none)

/-- A held block goes into a burst (R95). -/
def opsTake (q : Option Nat) (s : State) : State :=
  match q with
  | some q => s.setOhsPort q { s.ohsPort q with taken := true }
  | none => s

/-- The block of a burst that has left the modulator is consumed, unless a newer one has replaced it (R95, R126). -/
def opsConsume (b : Burst) (s : State) : State :=
  match b.opsOf with
  | some q =>
    if (s.ohsPort q).taken then
      (s.setOhsPort q { s.ohsPort q with held := none, taken := false }).put (OHS_STAT_I_READY q) false
    else s
  | none => s

/-- The gate lead of the next burst begins: its header and the other mandatory parts are encoded (R126, R127). A burst whose
shutter is not ready, or whose lead comes too early after an EQD change, is not sent (R138, R141; for the shutter DEDUCED, log
70). -/
def burstStart (k : Nat) (s : State) : State :=
  match nextBurst s k with
  | none => s
  | some b =>
    let ann := b.grant.alloc == allocDisc
    if !s.runs blkUBE || (sending s k).isSome then s
    else if leadTooEarly s k b || !s.bit (CHP_STATUS_SHUT_RDY k) then notSent k b s
    else
      let msg := if ann then b.msg else if b.carries then some ((s.pair k).msgq.headD (idleMsg s k)) else none
      let tn := if ann then 1023 else b.tn
      let head := burstHeader k tn (if ann then { b with grant := { b.grant with qreq := false } } else b)
        b.dflt msg.isSome
      let ops := if b.dflt then opsField s k else ([], none)
      let out := head ++ (if b.grant.qreq && !ann then queueReport s k b else []) ++ ops.1 ++ msg.getD []
      let s := endTail k s
      let s := putBurst k b { b with phase := .started, msg := msg, out := out, opsOf := ops.2, leadAt := s.ticks } (opsTake ops.2 s)
      showShutter k ((s.put (CHP_STATUS_GATE k) (gateCovered s k b)).put (CHP_STATUS_WIN k) (gateCovered s k b))

/-- The burst being sent has sent its last body symbol (R106, R126, R136): it has left the modulator, and its gate tail follows
(R121). -/
def burstLeft (k : Nat) (s : State) : State :=
  match sending s k with
  | none => s
  | some b =>
    if !burstWhole b then s
    else
      let s := burstDeparts b (removeBurst k b s)
      let s := s.setUbeCh k { s.ubeCh k with lastTail := some (b.seq, (burstSpan b).2, b.eqd), sent := some b, tail := true }
      let ann := b.grant.alloc == allocDisc
      let p := s.pair k
      let s :=
        match b.msg with
        | some m =>
          if !ann && p.msgq.head? == some m then
            let s := s.setPair k { p with msgq := p.msgq.tail }
            if msgType m = 0x22 then s.put (ACT_CP_STATE_AUTH_SENT k) true else s
          else s
        | none => s
      ubeShow k ((opsConsume b s).inc (UBE_CH_CNT0_BURSTS k))

/-! ### Acceptance of downstream messages (R105, R106, Table 5.3) -/

/-- How a type is addressed. -/
inductive Addressing where
  | broadcast
  | serialNo
  | serialOrAll
  | terminal
  deriving DecidableEq, Repr

/-- What a type requires beside its state. -/
inductive MsgNeed where
  | nothing
  | auth
  | prot
  | mgmt
  | sync
  deriving DecidableEq, Repr

/-- Addressing, states and need of each downstream type (Table 5.3). -/
def msgRule (type : Nat) : Option (Addressing × List Nat × MsgNeed) :=
  match type with
  | 0x01 => some (.broadcast, [1, 2, 3, 4], .nothing)
  | 0x02 => some (.serialNo, [2, 3, 4], .nothing)
  | 0x03 => some (.terminal, [3, 4], .nothing)
  | 0x04 => some (.broadcast, [1, 2, 3, 4], .nothing)
  | 0x05 => some (.terminal, [3, 4], .nothing)
  | 0x06 => some (.terminal, [4], .auth)
  | 0x07 => some (.terminal, [4], .nothing)
  | 0x08 => some (.terminal, [3, 4], .nothing)
  | 0x09 => some (.terminal, [4], .nothing)
  | 0x0A => some (.broadcast, [1, 2, 3, 4], .nothing)
  | 0x0B => some (.serialNo, [1, 2, 3, 4, 5, 6], .nothing)
  | 0x0C => some (.serialOrAll, [0, 1, 2, 3, 4, 5, 6, 7], .sync)
  | 0x0D => some (.terminal, [3, 4], .nothing)
  | 0x0E => some (.broadcast, [4], .prot)
  | 0x0F => some (.broadcast, [1, 2, 3, 4], .nothing)
  | 0x10 => some (.terminal, [4], .mgmt)
  | 0x11 => some (.terminal, [4], .mgmt)
  | _ => none

/-- The message is addressed to this pair (R105, R112). -/
def addressed (s : State) (k : Nat) (a : Addressing) (m : Bytes) : Bool :=
  let sn := (wordAt m 8).toNat
  match a with
  | .broadcast => msgTnum m == 1023
  | .serialNo => msgTnum m == 1023 && sn == (serial s).toNat
  | .serialOrAll => msgTnum m == 1023 && (sn == (serial s).toNat || sn == 2 ^ 64 - 1)
  | .terminal => s.bit (ACT_CP_STATE_TN_VALID k) && msgTnum m == s.rd (ACT_CP_STATE_TN k)

/-- The pair meets what a type needs. -/
def needMet (s : State) (k : Nat) : MsgNeed → Bool
  | .nothing => true
  | .auth => s.bit (ACT_CP_STATE_AUTH_SENT k)
  | .prot => s.bit (ACT_CP_CTL_PROT_AUTH k)
  | .mgmt => s.bit (ACT_CP_CTL_MGMT_EN k) && s.bit (ACT_CP_STATE_AUTH_SENT k)
  | .sync => inSync s k

/-- What a handler answers: nothing, an ACK with a STATUS, a message of its own, or one sent even without ACK_REQ. -/
inductive Reply where
  | none
  | status (n : Nat)
  | body (status : Nat) (m : Bytes)
  | always (m : Bytes)
  deriving DecidableEq, Repr

/-- The answer as a message body. -/
def replyBody (m : Bytes) : Reply → Option Bytes
  | .none => Option.none
  | .status n => some (ackBody (msgType m) (msgSeq m) n)
  | .body _ b => some b
  | .always b => some b

/-- The STATUS of an answer. -/
def Reply.code : Reply → Nat
  | .status n => n
  | .body n _ => n
  | _ => 0

/-- Sends an answer where R106 asks for one; a refused KEY_CONTROL counts in KC_REJ. -/
def sendReply (k : Nat) (a : Addressing) (m : Bytes) (r : Reply) (s : State) : State :=
  let may := match a with
    | .broadcast => false
    | .terminal => true
    | _ => inService s k
  let asked := msgAck m || (match r with | .always _ => true | _ => false)
  match replyBody m r with
  | Option.none => s
  | some b =>
    if may && asked then
      let s := if msgType m = 0x06 ∧ r.code ≠ 0 then s.inc KLN_CNT_KC_REJ else s
      queueUp k b s
    else s

/-- The refusal of a type whose state does not list it (R106). -/
def wrongState (m : Bytes) : Reply :=
  if msgType m = 0x11 then .body 2 (regValueBody (msgSeq m) 2 (msgF m 1 0 48) 0) else .status 2

/-- Shows the head of the firmware receive queue (R117). -/
def showRxq (s : State) : State :=
  let s := s.wr ACT_RXQ_CTL_COUNT s.act.rxq.length
  match s.act.rxq with
  | [] => s
  | e :: _ =>
    let s := (s.wr ACT_RXQ_CTL_CP e.cp).wr ACT_RXQ_FC_FC e.fc
    (List.range 8).foldl (fun s i => s.setReg (ACT_RXQ_DATA i).addr (wordAt e.msg (8 * i))) s

/-- Puts a message in the firmware receive queue, or sets OVF (R117). -/
def pushRxq (k : Nat) (m : Bytes) (s : State) : State × Bool :=
  if 256 ≤ s.act.rxq.length then (s.put ACT_RXQ_CTL_OVF true, false)
  else (showRxq { s with act := { s.act with rxq := s.act.rxq ++ [⟨k, (s.dsfCh k).fc, m⟩] } }, true)

/-- Types that firmware handles (R117). -/
def forFirmware (type : Nat) : Bool := type == 7 || type == 8 || type == 9

/-- Records the last accepted message of a type and its answer (R105). -/
def recordMsg (k : Nat) (m : Bytes) (answer : Option Bytes) (s : State) : State :=
  let p := s.pair k
  s.setPair k { p with last := SMap.set (fun _ => Option.none) p.last (msgType m) (some ⟨msgSeq m, answer⟩) }

/-- The slots whose operations an accepted KEY_CONTROL must still wait for (R268). -/
def keyPending (k : Nat) (m : Bytes) (r : Reply) (s : State) : List Nat :=
  if msgType m = 0x06 ∧ r = .status 0 then
    (keySlots s k (msgF m 0 36 3) (msgF m 0 34 2) (msgF m 0 32 2)).filter (slotPending s)
  else []

/-- Records an answer and sends it; one that must wait for key slots is sent when they are complete (R105, R106, R268). -/
def settleMsg (k : Nat) (a : Addressing) (m : Bytes) (r : Reply) (s : State) : State :=
  let w := keyPending k m r s
  if w.isEmpty then sendReply k a m r (recordMsg k m (replyBody m r) s)
  else
    let s := recordMsg k m none s
    s.setPair k { s.pair k with keyWaits := (s.pair k).keyWaits ++ [⟨msgSeq m, msgAck m, w⟩] }

/-- A message whose MCRC is right and whose type is a downstream type: the checks of R105, its handler, its answer. -/
def acceptMsg (k : Nat) (m : Bytes) (h : State → State × Reply) (s : State) : State :=
  match msgRule (msgType m) with
  | Option.none => s.inc (ACT_CP_CNT_MSG_REJ k)
  | some (a, states, need) =>
    if !addressed s k a m then s
    else if !(states.contains (pairState s k) && needMet s k need) then
      sendReply k a m (wrongState m) (s.inc (ACT_CP_CNT_MSG_REJ k))
    else
      let s := s.inc (ACT_CP_CNT_MSG_OK k)
      match SMap.get (fun _ => (Option.none : Option LastMsg)) (s.pair k).last (msgType m) with
      | some l =>
        if l.mseq = msgSeq m then
          match l.answer with
          | some b => sendReply k a m (if msgType b = 0x22 then .always b else .body 0 b) s
          | Option.none => s
        else acceptNew a s
      | Option.none => acceptNew a s
where
  /-- A message that is no duplicate. One that firmware does not handle and that MIRROR copies is handled though a full queue loses
  its copy; a duplicate is not mirrored (DESIGN CHOICE, log 170). -/
  acceptNew (a : Addressing) (s : State) : State :=
    let fw := forFirmware (msgType m)
    let q := if fw || s.bit ACT_RXQ_CTL_MIRROR then pushRxq k m s else (s, true)
    if fw && !q.2 then q.1
    else
      let r := h q.1
      actPoll k (settleMsg k a m r.2 r.1)

/-- Message area `i` of the frame in progress lies within MSG_N, and in no uncorrectable codeword (R71, R81). -/
def msgArea (s : State) (k i : Nat) : Bool :=
  let c := s.dsfCh k
  c.live && c.hdrOk && decide (i < c.msgN) && spanGood c.bad (128 + 16 * c.mapN + 64 * i) 64

/-- A message of one type, as ACT takes it: nothing where the area is not passed to ACT, the message is no such type or its
MCRC is wrong (R81, R105). -/
def takeMsg (k i : Nat) (m : Bytes) (is : Bytes → Bool) (h : State → State × Reply) (s : State) : State :=
  if s.runs blkACT && msgArea s k i && crc32cOk 64 m && is m then acceptMsg k m h s else s

/-- A message is of a type. -/
def isType (t : Nat) (m : Bytes) : Bool := msgType m == t

/-- A message with a wrong MCRC, or of no downstream type, is counted and never answered; a KEY_CONTROL whose OP is not
defined is refused (R105, R268). -/
def unknownMsg (k i : Nat) (m : Bytes) (s : State) : State :=
  if !(s.runs blkACT && msgArea s k i) then s
  else if !crc32cOk 64 m then s.inc (ACT_CP_CNT_MSG_CRC k)
  else if (msgRule (msgType m)).isNone then s.inc (ACT_CP_CNT_MSG_REJ k)
  else if msgType m = 0x06 ∧ 4 ≤ msgF m 0 36 3 then
    acceptMsg k m (fun s =>
      let r := keyControl k (msgF m 0 36 3) (msgF m 0 34 2) (msgF m 0 32 2) (msgF m 0 0 32) (slice m 8 40) s
      (r.1, .status r.2)) s
  else s

/-! ### Handlers (R107 to R113) -/

/-- The largest EQD (R110). -/
def eqdMax : Nat := 62500000

/-- LINE_PARAMS: a PRE_EQD out of range refuses it whole (R110). -/
def doLineParams (k : Nat) (m : Bytes) (s : State) : State × Reply :=
  let pre := msgF m 1 0 32
  if eqdMax < pre then (s.put (ACT_CP_EVT_EQD_RANGE k) true, .status 1)
  else
    let p := s.pair k
    let ann := msgF m 0 38 1 == 1
    let s := (s.put (ACT_CP_STATE_PARAMS_OK k) true).setPair k
      { p with annEn := ann, discProf := msgF m 0 36 2, rndMax := msgF m 0 0 16, preEqd := pre }
    let s := if pre ≠ p.preEqd ∧ (pairState s k = 2 ∨ pairState s k = 3) then lineChange k (fun v => { v with eqd := pre }) s else s
    (if pairState s k = 2 ∧ !ann then enterState k 1 s else s, .none)

/-- ASSIGN_TN (Table 5.1, R107). Where no allocation context of the pair is free it is refused with STATUS 4 and changes nothing
(DESIGN CHOICE, log 169). -/
def doAssignTn (k : Nat) (m : Bytes) (s : State) : State × Reply :=
  let tn := msgF m 0 0 10
  if tn = 1023 then (s, .status 1)
  else match claimDefault k tn s with
    | Option.none => (s, .status 4)
    | some s =>
      let s := (s.put (ACT_CP_STATE_TN_VALID k) true).wr (ACT_CP_STATE_TN k) tn
      let s := if inService s k then (s.put (ACT_CP_STATE_EQD0_V k) false).put (ACT_CP_STATE_EQD1_V k) false else s
      ((enterState k 3 s).put (ACT_CP_EVT_ASSIGNED k) true, .status 0)

/-- RANGING_TIME (R110). -/
def doRangingTime (k : Nat) (m : Bytes) (s : State) : State × Reply :=
  let path := msgF m 0 37 1
  let adj := msgF m 0 38 1 == 1
  let v : Int := if adj then (s.rd (eqdOf k path) : Int) + signed 32 (msgF m 0 0 32) else msgF m 0 0 32
  if adj && !s.bit (eqdV k path) then (s, .status 2)
  else if v < 0 ∨ (eqdMax : Int) < v then (s.put (ACT_CP_EVT_EQD_RANGE k) true, .status 1)
  else
    let s := (s.wr (eqdOf k path) v.toNat).put (eqdV k path) true
    let s :=
      if path = activePort s then
        if pairState s k = 3 then (if adj then s else enterState k 4 s)
        else lineChange k (fun c => { c with eqd := v.toNat }) s
      else s
    (s, .status 0)

/-- The word of a profile register for a BURST_PROFILE. -/
def profWord (m : Bytes) : Word :=
  BitVec.ofNat 64 (2 ^ 63 + msgF m 0 34 2 * 2 ^ 34 + msgF m 0 36 1 * 2 ^ 32 + msgF m 0 16 16 * 2 ^ 16 + msgF m 0 0 12)

/-- BURST_PROFILE (R111): the profile is written to UBE's shadow bank and a frame-boundary swap requested at FC_EFF. -/
def doBurstProfile (k : Nat) (m : Bytes) (s : State) : State × Reply :=
  let pre := msgF m 0 16 16
  let guard_ := msgF m 0 0 12
  let fc := msgF m 1 0 48
  let b := (UBE_BANK k).addr
  if pre % 64 ≠ 0 ∨ pre < 1024 ∨ 16384 < pre ∨ guard_ < 64 ∨ 4000 < guard_ then (s, .status 1)
  else match (s.bank b).phase with
    | .copying => (s.setPair k { s.pair k with profHeld := (s.pair k).profHeld ++ [m] }, .status 0)
    | ph =>
      if ph = .waiting ∧ (s.bank b).at_ ≠ fc then (s.put (ACT_CP_EVT_PROF_REJ k) true, .status 2)
      else
        let s := bankWithdraw b s
        let s := s.setSh (UBE_PROF k (msgF m 0 37 2)).addr (profWord m)
        let s := (s.wr (UBE_BANK_AT_AT_EN k) 1).wr (UBE_BANK_AT_AT k) fc
        let s := bankRequest b (s.wr (bankBoundary b) 1)
        let p := s.pair k
        (s.setPair k { p with profGot := withBit p.profGot (msgF m 0 37 2) true }, .status 0)

/-- The messages held during a shadow copy are handled (R111). -/
def releaseHeld (k : Nat) (s : State) : State :=
  let l := (s.pair k).profHeld
  let s := s.setPair k { s.pair k with profHeld := [] }
  actPoll k (l.foldl (fun s m => (doBurstProfile k m s).1) s)

/-- AUTH_CHALLENGE (R266, R267). -/
def doAuth (k : Nat) (m : Bytes) (s : State) : State × Reply :=
  match klnAuth k (s.rd (ACT_CP_STATE_TN k)) (msgSeq m) (slice m 8 32) s with
  | Option.none => (s, .status 2)
  | some (tag, s) => (s, .always (msgBody 0x22 (msgSeq m * 2 ^ 24) [beAt tag 0 8, beAt tag 8 8]))

/-- KEY_CONTROL (R268). -/
def doKeyControl (k : Nat) (m : Bytes) (s : State) : State × Reply :=
  let r := keyControl k (msgF m 0 36 3) (msgF m 0 34 2) (msgF m 0 32 2) (msgF m 0 0 32) (slice m 8 40) s
  (r.1, .status r.2)

/-- A message that firmware handles: it is in the receive queue, and firmware answers (R107, R117). -/
def doFirmware (s : State) : State × Reply := (s, .none)

/-- Sets or clears the device-wide disable flag, shown on every pair. -/
def setDisDev (b : Bool) (s : State) : State := (List.range 16).foldl (fun s k => s.put (ACT_CP_STATE_DIS_DEV k) b) s

/-- DISABLE (R112). -/
def doDisable (k : Nat) (m : Bytes) (s : State) : State × Reply :=
  if msgF m 0 38 1 = 1 then
    let s := setDisDev true s
    ((List.range 16).foldl (fun s j =>
      let st := pairState s j
      if 1 ≤ st ∧ st ≤ 6 then enterState j 7 s else s) s, .none)
  else (enterState k 7 (s.put (ACT_CP_STATE_DIS_CP k) true), .none)

/-- ENABLE (R112). -/
def doEnable (k : Nat) (m : Bytes) (s : State) : State × Reply :=
  if msgF m 0 38 1 = 1 then
    let s := setDisDev false s
    let s := (List.range 16).foldl (fun s j => s.put (ACT_CP_STATE_DIS_CP j) false) s
    ((List.range 16).foldl (fun s j => if j = k then s else actPoll j s) s, .status 0)
  else (s.put (ACT_CP_STATE_DIS_CP k) false, .status 0)

/-- DEACTIVATE (R113). -/
def doDeactivate (k : Nat) (m : Bytes) (s : State) : State × Reply :=
  let h := msgF m 0 0 16
  let s := enterState k 6 s
  (s.setPair k { s.pair k with hold := if h = 0 then Option.none else some (ticksOf h) }, .none)

/-- PROT_SWITCH (R115): an order, replacing any that is pending. -/
def doProtSwitch (k : Nat) (m : Bytes) (s : State) : State × Reply :=
  ({ s with act := { s.act with order := some (msgF m 0 38 1, msgF m 1 0 48, k, s.bseq k) } }, .none)

/-- The port in use has changed (R114): a pair that stays in Operating over the move takes the EQD of the new port, where that is
valid. -/
def portEqd (k : Nat) (s : State) : State :=
  if s.runs blkACT ∧ pairState s k = 4 ∧ s.bit (eqdV k (activePort s)) then
    lineChange k (fun c => { c with eqd := s.rd (eqdOf k (activePort s)) }) s
  else s

/-! ### Firmware message queues (R117, R118) and the registers of ACT -/

/-- GO in ACT_TXQ_CMD (R118). -/
def txqSend (s : State) : State :=
  let k := s.rd ACT_TXQ_CMD_CP
  let m := ((List.range 8).map (fun i => wordBytes (s.reg (ACT_TXQ_DATA i).addr))).flatten
  let t := msgType m
  if !(t == 0x21 || t == 0x23 || t == 0x24) || !inService s k || decide (16 ≤ (s.pair k).msgq.length) then
    s.put ACT_TXQ_CMD_ERR true
  else
    let s := queueUp k m s
    let p := s.pair k
    let at_ := msgF m 0 32 6
    if t = 0x21 then
      match SMap.get (fun _ => (Option.none : Option LastMsg)) p.last at_ with
      | some l =>
        if l.mseq = msgF m 0 24 8 then
          s.setPair k { p with last := SMap.set (fun _ => Option.none) p.last at_ (some { l with answer := some m }) }
        else s
      | Option.none => s
    else s

/-- Writes of ACT registers. -/
def actWrite (a : Nat) (v : Word) (o s : State) : State :=
  let k := a % 0x1000000 / 0x10000
  if k < 16 ∧ a = (ACT_CP_CTL k).addr then
    if fieldOf v 0 1 = 0 ∨ fieldOf v 1 1 = 1 then actRestart k s else actPoll k s
  else if a = ACT_RXQ_CTL.addr ∧ fieldOf v 63 1 = 1 then
    showRxq { s with act := { s.act with rxq := s.act.rxq.drop 1 } }
  else if a = ACT_TXQ_CMD.addr ∧ fieldOf v 63 1 = 1 then txqSend s
  else s

end Sys2Proof.Machine
end

