-- ==== Sys2Proof/Machine/DsfOps.lean ====
section
/-! DEFINITION. The downstream framer: alignment, headers, delineation, reassembly, circuit emulation, and the overhead
serial ports (R71 to R97, R13, R416). -/

namespace Sys2Proof.Machine

/-! ### Alignment word (R73, R74) -/

/-- The frame alignment word, the digit of symbol 0 highest (Table 4.2). -/
def fawWord : Nat := 0x9D2F0B76E4A1C53827E95CB0836F1D4AF0A63B9EC71258D44C1BE7D0962AF385

/-- The digit of symbol `n`. -/
def fawDigit (w n : Nat) : Nat := w / 16 ^ (63 - n) % 16

/-- A rotation by 90°: (I, Q) to (−Q, I), on sign bits. -/
def rotate90 (p : Bool × Bool) : Bool × Bool := (!p.2, p.1)

/-- A rotation by `n` × 90°. -/
def rotateBy : Nat → Bool × Bool → Bool × Bool
  | 0, p => p
  | n + 1, p => rotateBy n (rotate90 p)

/-- The sign bits of a symbol under hypothesis s × 16 + x × 4 + y. -/
def underHyp (hyp d : Nat) : Nat :=
  let p := (d.testBit 3, d.testBit 2)
  let q := (d.testBit 1, d.testBit 0)
  let xy := if hyp / 16 = 1 then (q, p) else (p, q)
  let x := rotateBy (hyp / 4 % 4) xy.1
  let y := rotateBy (hyp % 4) xy.2
  8 * b2n x.1 + 4 * b2n x.2 + 2 * b2n y.1 + b2n y.2

/-- Bits in which a window's sign decisions differ from the word under a hypothesis. -/
def fawDiff (signs hyp : Nat) : Nat :=
  ((List.range 64).map (fun n => popcount 4 (underHyp hyp (fawDigit signs n) ^^^ fawDigit fawWord n))).sum

/-- The amplitude measure, in 2⁻¹⁶ units, is at most 0.5. -/
def fawAmpOk (amp : Nat) : Bool := decide (amp ≤ 32768)

/-- A window matches under one hypothesis. -/
def fawUnder (s : State) (k amp signs hyp : Nat) : Bool :=
  fawAmpOk amp && decide (fawDiff signs hyp ≤ s.rd (DSF_CH_CFG_FAW_TOL k))

/-- The hypothesis a matching window is taken under: the fewest differing bits, then the lowest value. -/
def fawBest (s : State) (k amp signs : Nat) : Option Nat :=
  ((List.range 32).filter (fawUnder s k amp signs)).foldl (fun b h =>
    match b with
    | none => some h
    | some x => if fawDiff signs h < fawDiff signs x then some h else some x) none

/-! ### Loss and gain of frame (R75 to R77) -/

/-- Asserts LOF; the event is set where it was not asserted. -/
def assertLof (k : Nat) (s : State) : State :=
  if s.bit (DSF_SYNC_LOF k) then s else (s.put (DSF_SYNC_LOF k) true).put (DSF_EVT_LOF k) true

/-- Stamps kept for packets that were not processed again are drained (R171, R202). -/
def dropStamps (k : Nat) (s : State) : State :=
  let c := s.spcCh k
  c.stamps.foldl (fun s e => drainFall e.2.2 s) (s.setSpcCh k { c with stamps := [] })

/-- The alignment machine returns to HUNT. From SYNC this is loss of frame: reassemblies and speculative packets go, and the
pair, the Chaperone and the time block learn of it. HYP and MISS read 0 from then on (DESIGN CHOICE, log 166); LOF keeps reading 1
when RX_EN is then written 0 (DESIGN CHOICE, log 165). -/
def dsfHunt (k : Nat) (s : State) : State :=
  let was := s.rd (DSF_SYNC_STATE k)
  let s := ((s.wr (DSF_SYNC_STATE k) 0).wr (DSF_SYNC_MISS k) 0).wr (DSF_SYNC_HYP k) 0
  let c := s.dsfCh k
  let s := s.setDsfCh k { c with hdrOk := false, live := false, ops := none, ces := [], bad := [], badNext := [], pos := 12800000 }
  let s := dropStamps k (squashWhere k (fun _ => true) s)
  let s := s.setSpcCh k { ({} : SpcCh) with nextNum := (s.spcCh k).nextNum }
  if was = 3 then timPoll (timLost k (chpReact k (actLof k (abortAll k (assertLof k s))))) else s

/-- RX_LOS sets, CR_LOCK falls or RX_EN is written 0. -/
def dsfLost (k : Nat) (s : State) : State := if s.rd (DSF_SYNC_STATE k) = 0 then s else dsfHunt k s

/-- First byte of the payload area (Table 4.1). -/
def payloadStart (mapN msgN : Nat) : Nat := 128 + 16 * mapN + 64 * msgN

/-- One past the last byte of a frame. -/
def frameEnd : Nat := 12800000

/-- A frame's delineation begins at DSF and at the run-ahead: `usable` where its header is valid. A stream whose assembly is open is blocked
for the run-ahead (R196). -/
def startFrame (k : Nat) (usable : Bool) (s : State) : State :=
  let c := s.dsfCh k
  let p := if usable then payloadStart c.mapN c.msgN else frameEnd
  let s := s.setDsfCh k { c with pos := p, done := 0, since := 0, ces := [] }
  let s := dropStamps k s
  let x := s.spcCh k
  s.setSpcCh k { x with twins := [], blocked := c.asm.map (·.1), stopped := !usable, pos := p, bytes := 0 }

/-- One frame period, in 2⁻⁴⁸ ns. -/
def framePeriod : Int := 125000 * 2 ^ 48

/-- The frame alignment now taken is the flywheel's own: a whole number of frame periods after its last tick, to the nearest
nanosecond (DESIGN CHOICE, log 176). -/
def inPhase (k : Nat) (s : State) : Bool :=
  match (s.dsfCh k).tickAt with
  | none => true
  | some t =>
    let d := (s.tod.total - t.total + 2 ^ 47) % framePeriod
    decide (d < 2 ^ 48)

/-- The ports that extract a channel end their period where its flywheel re-phases (R93). -/
def ohsRephase (k : Nat) (s : State) : State :=
  if inPhase k s then s else (List.range 4).foldl (fun s p =>
    if s.bit (OHS_CTL_X_EN p) && s.rd (OHS_CTL_X_SRC p) == k && !(s.ohsPort p).period.isEmpty then
      (s.setOhsPort p { s.ohsPort p with period := [] }).put (OHS_STAT_X_TRUNC p) true
    else s) s

/-- SYNC is entered: frame B is the first frame delineated (Table 4.3, R79). -/
def gainSync (k : Nat) (s : State) : State :=
  let c := s.dsfCh k
  let jump := c.prevV && c.fc != (s.rd (DSF_SYNC_FC k) + 1) % 2 ^ 48
  let s := (s.wr (DSF_SYNC_STATE k) 3).wr (DSF_SYNC_MISS k) 0
  let s := (s.put (DSF_SYNC_LOF k) false).put (DSF_EVT_SYNC_GAIN k) true
  let s := if jump then s.put (DSF_EVT_FC_JUMP k) true else s
  let s := s.wr (DSF_SYNC_FC k) c.fc
  let live := s.runs blkDSF
  let s := startFrame k live (s.setDsfCh k { c with prevV := true, live := live, ops := if live then c.ops else none })
  let onNew := s.act.autoMoved = some (activePort s) ∨ (s.act.autoMoved.isSome ∧ s.act.autoMoved = s.lph.moving)
  let s := if onNew then { s with act := { s.act with autoMoved := none } } else s
  actPoll k (ohsRephase k (chpPhase k s))

/-- A frame boundary of a channel that is in SYNC (R43): the frame that starts has the expected counter. -/
def frameBoundary (k : Nat) (s : State) : State :=
  let fc := (s.rd (DSF_SYNC_FC k) + 1) % 2 ^ 48
  timCapture k fc ((s.setBseq k (s.bseq k + 1)).setLastB k fc)

/-! ### Windows and headers -/

/-- A window of 64 symbols in HUNT (Table 4.3). -/
def fawMatch (k amp signs : Nat) (s : State) : State :=
  if s.rd (DSF_SYNC_STATE k) = 0 ∧ s.bit (LPH_CH_CTL_RX_EN k) then
    match fawBest s k amp signs with
    | none => s
    | some h =>
      let s := (s.wr (DSF_SYNC_STATE k) 1).wr (DSF_SYNC_HYP k) h
      let c := s.dsfCh k
      let s := s.setDsfCh k { c with hdrOk := false }
      s.setSpcCh k { s.spcCh k with next := some ((c.frames + 1) * 5000) }
  else s

/-- The window at the expected position (Table 4.3). -/
def expectedWindow (k amp signs : Nat) (s : State) : State :=
  let st := s.rd (DSF_SYNC_STATE k)
  let ok := fawUnder s k amp signs (s.rd (DSF_SYNC_HYP k))
  let c := s.dsfCh k
  if st = 0 then s
  else if st = 1 then
    if ok && c.hdrOk then
      (s.wr (DSF_SYNC_STATE k) 2).setDsfCh k { c with fcA := c.fc, hdrOk := false } |>.setTrx (16 + k) s.tod.cut
    else dsfHunt k s
  else if st = 2 then
    if ok && c.hdrOk then gainSync k (s.setTrx (16 + k) s.tod.cut) else dsfHunt k s
  else if ok then frameBoundary k (s.wr (DSF_SYNC_MISS k) 0)
  else if s.rd (DSF_SYNC_MISS k) < 3 then frameBoundary k (s.wr (DSF_SYNC_MISS k) (s.rd (DSF_SYNC_MISS k) + 1))
  else dsfHunt k s

/-- The frame whose header is checked becomes the frame in progress: its codeword outcomes and its start at the line port. -/
def takeFrame (k : Nat) (s : State) : State :=
  let c := s.dsfCh k
  let s := s.setTrx k (s.trx (16 + k))
  s.setDsfCh k { c with frames := c.frames + 1, bad := c.badNext, badNext := [], live := false, ops := none }

/-- An invalid header is counted; another channel's number sets CH_MIS (R79). -/
def badHeader (k : Nat) (h : Bytes) (s : State) : State :=
  let c := s.dsfCh k
  let s := (s.setDsfCh k { c with pm := { c.pm with hec := c.pm.hec + 1 }, hdrOk := false, mapN := 0, msgN := 0 }).put
    (DSF_EVT_HEC k) true
  if fieldOf (wordAt h 8) 48 4 ≠ k then s.put (DSF_EVT_CH_MIS k) true else s

/-- What a valid header tells KLN and ACT, in every state of the machine (R76, R99, R258). -/
def headerNews (k : Nat) (h : Bytes) (s : State) : State :=
  let w0 := wordAt h 0
  let w1 := wordAt h 8
  let s := s.setDsfCh k { s.dsfCh k with hdrOk := true, fc := fieldOf w0 16 48, mapN := fieldOf w0 6 10, msgN := fieldOf w1 57 7 }
  actHeader k (fieldOf w1 32 16) (klnHeader k (fieldOf w0 16 48) (fieldOf w1 54 2) (fieldOf w1 52 2) s)

/-- A frame header with its operations channel (R75, R79). -/
def frameHeader (k : Nat) (h ops : Bytes) (s : State) : State :=
  let st := s.rd (DSF_SYNC_STATE k)
  if st = 0 then s
  else
    let s := takeFrame k s
    let bad0 := (s.dsfCh k).bad.contains 0
    let good := headerOk k bad0 h
    let fcH := fieldOf (wordAt h 0) 16 48
    let ops' := if bad0 then none else some ops
    if st = 1 then
      if good then headerNews k h s else dsfHunt k (badHeader k h s)
    else if st = 2 then
      if !good then dsfHunt k (badHeader k h s)
      else
        let s := headerNews k h s
        if fcH = ((s.dsfCh k).fcA + 1) % 2 ^ 48 then s.setDsfCh k { s.dsfCh k with ops := ops' } else dsfHunt k s
    else
      let live := s.runs blkDSF
      let expect := (s.rd (DSF_SYNC_FC k) + 1) % 2 ^ 48
      let fc := if good then fcH else expect
      let s := s.wr (DSF_SYNC_FC k) fc
      let s := if good then timHeader k fcH s else s
      let s := if good && fcH != expect then s.put (DSF_EVT_FC_JUMP k) true else s
      let s := s.setUbeCh k { s.ubeCh k with accepted := [] }
      let s := s.setDsfCh k { s.dsfCh k with live := live, ops := if live then ops' else none, fc := fc }
      if good then headerNews k h (startFrame k live (s.setDsfCh k
          { s.dsfCh k with mapN := fieldOf (wordAt h 0) 6 10, msgN := fieldOf (wordAt h 8) 57 7 }))
      else
        let s := startFrame k false (badHeader k h s)
        let c := s.dsfCh k
        if live then s.setDsfCh k { c with pm := { c.pm with fdrop := c.pm.fdrop + 1 } } else s

/-! ### Flywheel (R77, R91 to R94) -/

/-- The frame of a circuit-emulation stream and the context with its next SEQ (R91). -/
def cesFrame (c : CircuitCtx) (payload : Option Bytes) : Bytes × CircuitCtx :=
  let ctl := beBytes 4 (c.seq * 65536 + b2n payload.isNone * 32768)
  let body := c.template.take c.tlen ++ ctl ++ payload.getD (List.replicate c.cesLen 0xFF)
  let body := padTo 60 body
  (body ++ fcsBytes body, { c with seq := (c.seq + 1) % 65536 })

/-- The circuit-emulation streams of a pair: SID and circuit context. -/
def cesStreams (s : State) (k : Nat) : List (Nat × Nat) :=
  s.dsf.smap.filterMap (fun (e : Nat × StreamEnt) =>
    let x := s.streamCtx e.2.ctx
    if e.1 / 65536 = k ∧ e.2.valid ∧ x.type = 1 then some (e.1 % 65536, x.cesIdx) else none)

/-- A tick emits one frame for each circuit-emulation stream of the pair (R91, R92). -/
def cesTick (k : Nat) (s : State) : State :=
  (cesStreams s k).foldl (fun s e =>
    let got := SMap.get (fun _ => (none : Option CesBlock)) (s.dsfCh k).ces e.1
    let f := cesFrame (s.circuit e.2) (got.map (·.bytes))
    enterPipe { bytes := f.1, dir := 0, src := k, sid := e.1, ingress := s.tod.cut, poisoned := got.any (·.poisoned) } (s.setCircuit e.2 f.2)) s

/-- A tick starts a period of 512 bits on every port that extracts the channel (R93, R94). -/
def ohsTick (k : Nat) (s : State) : State :=
  if !s.runs blkOHS then s
  else (List.range 4).foldl (fun s p =>
    if s.bit (OHS_CTL_X_EN p) && s.rd (OHS_CTL_X_SRC p) == k then
      let o := if inSync s k then (s.dsfCh k).ops else none
      (s.setOhsPort p { s.ohsPort p with period := o.getD (List.replicate 64 0xFF) }).put (OHS_STAT_X_AIS p) o.isNone
    else s) s

/-- A flywheel tick of a channel. -/
def flywheelTick (k : Nat) (s : State) : State :=
  let c := s.dsfCh k
  let lost := s.bit (LPH_CH_CTL_RX_EN k) && s.rd (DSF_SYNC_STATE k) != 3
  let asm := c.asm.map (fun (e : Nat × Option Assembly) => (e.1, e.2.map (fun (a : Assembly) => { a with ticks := a.ticks + 1 })))
  let s := s.setDsfCh k { c with since := c.since + 1, tickAt := some s.tod, asm := asm, pm := { c.pm with flost := c.pm.flost + b2n lost } }
  let s := if s.runs blkDSF then cesTick k s else s
  actTick k (ohsTick k s)

/-- The RTO-th tick after the frame that carried FIRST: an incomplete assembly is aborted (R88). -/
def reassemblyTimeout (k sid : Nat) (s : State) : State :=
  match SMap.get (fun _ => (none : Option Assembly)) (s.dsfCh k).asm sid with
  | some a => if s.rd (DSF_CH_CFG_RTO k) ≤ a.ticks then abortAsm k sid s else s
  | none => s

/-! ### Codewords (R55, R96, R197) -/

/-- The digest of R197. -/
def digest (info : Bytes) : Nat := crcMsb 64 0x42F0E1EBA9EA3693 0 info

/-- A codeword's number across frames. -/
def cwNumber (s : State) (k : Nat) (next : Bool) (cw : Nat) : Nat := ((s.dsfCh k).frames + b2n next) * 5000 + cw

/-- A provisional release after iteration 2: its digest is kept (R55, R197). -/
def provisionalRelease (k : Nat) (next : Bool) (cw code : Nat) (s : State) : State :=
  let synd := syndromeWeight code
  if s.runs blkLPH && s.bit (LPH_DEC_CFG_PROV_EN k) && decide (0 < synd) && decide (synd ≤ s.rd (LPH_DEC_CFG_PROV_SYN k)) then
    let c := s.spcCh k
    s.setSpcCh k { c with digests := SMap.set (fun _ => none) c.digests (cwNumber s k next cw) (some (digest (codewordInfo cw code))) }
  else s

/-- A run-ahead request that has not been dispatched when the final decision of the last codeword of its packet arrives is
withdrawn, and the packet is not issued (R251; which codeword: DEDUCED, log 177). -/
def withdrawAhead (k n : Nat) (s : State) : State :=
  (s.spcCh k).waits.foldl (fun s (w : AheadWait) =>
    if w.pkt.hi = n ∧ ¬ w.ready then
      let r := cipWithdraw k w.pkt.num s
      if r.1 then r.2.setSpcCh k { r.2.spcCh k with waits := (r.2.spcCh k).waits.erase w } else s
    else s) s

/-- A codeword after iteration `iter` whose decisions are `code`, of which `bitc` were corrected: it ends good where its syndrome is 0,
and uncorrectable after MAX_ITER iterations (R54, R55). Nothing is decoded while LPH is stopped (R37). -/
def codewordDecoded (k : Nat) (next : Bool) (cw iter bitc code : Nat) (s : State) : State :=
  let synd := syndromeWeight code
  if !s.runs blkLPH ∨ (synd ≠ 0 ∧ iter < s.rd (LPH_DEC_CFG_MAX_ITER k)) then s
  else
    let good := synd == 0
    let info := codewordInfo cw code
    let n := cwNumber s k next cw
    let c := s.dsfCh k
    let pm := { c.pm with cw := c.pm.cw + 1, cwc := c.pm.cwc + b2n (good && bitc != 0),
                          bitc := c.pm.bitc + (if good then bitc else 0), cwu := c.pm.cwu + b2n (!good) }
    let c := { c with pm := pm }
    let c := if good then c else if next then { c with badNext := cw :: c.badNext } else { c with bad := cw :: c.bad }
    let x := s.spcCh k
    let match_ := match SMap.get (fun _ => (none : Option Nat)) x.digests n with
      | some d => good && d == digest info
      | none => good
    withdrawAhead k n ((s.setDsfCh k c).setSpcCh k { x with digests := SMap.set (fun _ => none) x.digests n none,
                                                            ended := SMap.set (fun _ => none) x.ended n (some match_) })

/-! ### Delineation (R82 to R85) -/

/-- Fields of an encapsulation header (Table 4.6). -/
def hdrSid (w : Nat) : Nat := w / 2 ^ 48
/-- PLEN. -/
def hdrPlen (w : Nat) : Nat := w / 2 ^ 34 % 2 ^ 14
/-- LAST. -/
def hdrLast (w : Nat) : Bool := w.testBit 33
/-- KI. -/
def hdrKi (w : Nat) : Nat := w / 2 ^ 31 % 4
/-- FIRST. -/
def hdrFirst (w : Nat) : Bool := w.testBit 30
/-- FSEQ. -/
def hdrFseq (w : Nat) : Nat := w / 2 ^ 26 % 16

/-- Bytes that a fragment occupies. -/
def occupancy (w : Nat) : Nat := 8 + (hdrPlen w + 7) / 8 * 8

/-- The word at byte `p` of the frame, where `info` begins at byte `base`; none where it has not been given. -/
def frameWord (info : Bytes) (base p : Nat) : Option Nat :=
  if base ≤ p ∧ p - base + 8 ≤ info.length then some (wordAt info (p - base)).toNat else none

/-- The hunt from byte `q` (R85): none where bytes it needs have not been given, else the confirmed candidate, or none at the
end of the frame. -/
def fragHunt (bad : List Nat) (rd : Nat → Option Nat) : Nat → Nat → Option (Option Nat)
  | 0, _ => none
  | fuel + 1, q =>
    if frameEnd ≤ q then some none
    else if bad.contains (q / 2560) then fragHunt bad rd fuel ((q / 2560 + 1) * 2560)
    else match rd q with
      | none => none
      | some w =>
        if !hecOk w then fragHunt bad rd fuel (q + 8)
        else
          let c := q + occupancy w
          if c = frameEnd then some (some q)
          else if frameEnd < c then fragHunt bad rd fuel (q + 8)
          else if bad.contains (c / 2560) then fragHunt bad rd fuel ((c / 2560 + 1) * 2560)
          else match rd c with
            | none => none
            | some v => if hecOk v then some (some q) else fragHunt bad rd fuel (q + 8)

/-- Counts fragments dropped (R89). -/
def countDrop (k n : Nat) (s : State) : State :=
  let c := s.dsfCh k
  s.setDsfCh k { c with pm := { c.pm with fdrop := c.pm.fdrop + n } }

/-- The stream context of a fragment's stream, where it is the terminal's (R86). -/
def streamOf (s : State) (k sid : Nat) : Option Nat :=
  let e := s.streamMap (k * 65536 + sid)
  if e.valid then some e.ctx else none

/-- The open assembly of a stream. -/
def asmOf (s : State) (k sid : Nat) : Option Assembly := SMap.get (fun _ => (none : Option Assembly)) (s.dsfCh k).asm sid

/-- Replaces a stream's assembly; the reassembly pool holds its cells (R207). -/
def setAsm (k sid : Nat) (a : Option Assembly) (s : State) : State :=
  let cells (x : Option Assembly) : Nat := x.elim 0 (fun y => cellCount 0 y.bytes.length false)
  let used := s.cel.raUsed - cells (asmOf s k sid) + cells a
  let c := s.dsfCh k
  let s := s.setDsfCh k { c with asm := SMap.set (fun _ => none) c.asm sid a }
  { s with cel := { s.cel with raUsed := used } }

/-- A fragment is discarded and any assembly of its stream aborted (Table 4.7). -/
def discardFrag (k sid : Nat) (s : State) : State := countDrop k 1 (abortAsm k sid s)

/-- KI, REQ_ENC and PLEN forbid a fragment (Table 4.7, row 2). -/
def fragForbidden (x : StreamCtx) (w : Nat) : Bool :=
  hdrKi w == 3 || (hdrKi w == 0 && x.reqEnc) || (hdrKi w != 0 && decide (hdrPlen w < 24)) || hdrPlen w == 0

/-- A fragment's plaintext: in clear, or decrypted under the slot its KI names (R253, R256). `fc` is the frame's counter where
HIGH_FC is tested and set (R257). -/
def fragPlain (src : CipSrc) (test : Bool) (k fc pos w : Nat) (x : StreamCtx) (payload : Bytes) (s : State) :
    Option Bytes × State :=
  if hdrKi w = 0 then (some payload, s)
  else match cipRequest src (kiSlot x.kslot (hdrKi w)) (if test then some fc else none) s with
    | (.bound key, s) =>
      let n := payload.length - 8
      let ct := payload.take n
      let iv := lineIv fc k 0 (pos / 32)
      if (gcmTag key iv (beBytes 8 w) ct).take 8 = payload.drop n then (some (gcmCtr key iv 2 ct), s)
      else (none, s.inc CIP_CNT0_TAG_FAIL)
    | (_, s) => (none, s)

/-- A stamp kept for a packet of the frame that is processed again (R202). -/
def takeStamp (k fc hdr : Nat) (s : State) : Option Nat × State :=
  let c := s.spcCh k
  match c.stamps.find? (fun e => e.1 == fc && e.2.1 == hdr) with
  | some e => (some e.2.2, s.setSpcCh k { c with stamps := c.stamps.erase e })
  | none => (none, s)

/-- A complete packet (the last rows of Table 4.7, R13): `busy` where its pipeline cannot take a packet beyond the frame's
limit. With its parser stopped or its pipeline off it is discarded and counted (R37). -/
def packetComplete (k sid ctx : Nat) (a : Assembly) (busy : Bool) (s : State) : State :=
  let len := a.bytes.length
  let s := setAsm k sid none s
  let c := s.dsfCh k
  let s := s.setDsfCh k { c with done := c.done + len + 20 }
  if len < 64 ∨ fcsBytes (a.bytes.take (len - 4)) ≠ a.bytes.drop (len - 4) then
    countDrop k a.frags (s.inc (DSF_RA_CNT_FCS_ERR k))
  else if (busy ∧ 12500000 < c.done + len + 20) ∨ !s.runs blkPRS ∨ !pipeOn s (pipeOf 0 k) then countDrop k a.frags s
  else
    let v := takeStamp k a.fc a.hdr s
    enterPipe { bytes := a.bytes, dir := 0, src := k, sid := sid, ctx := some ctx, ver := v.1, ingress := a.stamp,
                poisoned := a.poisoned } v.2

/-- The instant at which the first symbol of the codeword with byte `pos` of the frame in progress arrives at the line port
(R307). -/
def arrival (s : State) (k pos : Nat) : Tod :=
  Tod.ofTotal ((s.trx k).total + psUnits (8 * codeBitSymbol (pos / 2560) 0) * 2 ^ 32)

/-- A fragment of a packet stream, header at byte `pos` (Table 4.7); `bad`: a word of its payload could not be corrected, and poisons
its packet (R21). -/
def packetFragment (k pos w ctx : Nat) (payload : Bytes) (bad busy : Bool) (s : State) : State :=
  let x := s.streamCtx ctx
  let sid := hdrSid w
  let fc := (s.dsfCh k).fc
  if (s.spcCh k).twins.contains (fc, pos) then
    let c := s.dsfCh k
    s.setDsfCh k { c with done := c.done + (hdrPlen w - 8 * b2n (hdrKi w != 0)) + 20 }
  else if fragForbidden x w then discardFrag k sid s
  else
    let d := fragPlain .lineDs true k fc pos w x payload s
    let s := d.2
    match d.1 with
    | none => discardFrag k sid s
    | some plain =>
      if hdrFirst w ∧ hdrFseq w ≠ 0 then discardFrag k sid s
      else
        let s := if hdrFirst w then abortAsm k sid s else s
        let old := asmOf s k sid
        let base : Option Assembly :=
          if hdrFirst w then some ⟨[], 15, 0, (s.dsfCh k).since, arrival s k pos, fc, pos, false⟩ else old
        match base with
        | none => countDrop k 1 s
        | some a =>
          if !hdrFirst w && hdrFseq w != (a.fseq + 1) % 16 then discardFrag k sid s
          else if x.maxpkt < a.bytes.length + plain.length then discardFrag k sid s
          else
            let b : Assembly := { a with bytes := a.bytes ++ plain, fseq := hdrFseq w, frags := a.frags + 1, poisoned := a.poisoned || bad }
            let more := cellCount 0 b.bytes.length false - cellCount 0 a.bytes.length false
            if s.rd CEL_POOL_RA_RA < s.cel.raUsed + more then discardFrag k sid s
            else
              let s := setAsm k sid (some b) s
              if hdrLast w then packetComplete k sid ctx b busy s else s

/-- A fragment of a circuit-emulation stream (R92). The MAXPKT and pool rows of Table 4.7 do not apply to it, since nothing of it is
assembled (DESIGN CHOICE, log 167). A further fragment in a frame is counted whatever it is; a first one that is not LAST or not of
CES_LEN bytes is discarded without a count (DEDUCED, log 167). `bad`: as for a packet (R21). -/
def circuitFragment (k pos w ctx : Nat) (payload : Bytes) (bad : Bool) (s : State) : State :=
  let x := s.streamCtx ctx
  let sid := hdrSid w
  if fragForbidden x w || (hdrFirst w && hdrFseq w != 0) || !hdrFirst w then countDrop k 1 s
  else
    let d := fragPlain .lineDs true k (s.dsfCh k).fc pos w x payload s
    let s := d.2
    match d.1 with
    | none => countDrop k 1 s
    | some plain =>
      let c := s.dsfCh k
      if (SMap.get (fun _ => (none : Option CesBlock)) c.ces sid).isSome then countDrop k 1 s
      else if !hdrLast w || plain.length != (s.circuit x.cesIdx).cesLen then s
      else s.setDsfCh k { c with ces := SMap.set (fun _ => none) c.ces sid (some ⟨plain, bad⟩) }

/-- A fragment whose header at byte `pos` is readable: what becomes of it, and where delineation goes on (R85). DSF checks the words
of a payload that it takes (R20). -/
def readableFragment (k pos w : Nat) (info : Bytes) (busy : Bool) (c : Checks) (s : State) : State :=
  let bad := (s.dsfCh k).bad
  let sid := hdrSid w
  let fin := pos + occupancy w
  let mine := streamOf s k sid
  let goto (p : Nat) (s : State) : State := s.setDsfCh k { s.dsfCh k with pos := p }
  let lose (s : State) : State := if sid = 0xFFFF then s else countDrop k 1 (if mine.isSome then abortAsm k sid s else s)
  if frameEnd < fin then goto frameEnd (lose s)
  else if !spanGood bad pos (occupancy w) then goto fin (lose s)
  else if sid = 0xFFFF then goto fin s
  else match mine with
    | none => goto fin s
    | some ctx =>
      let r := checkPacket blkDSF k c (slice info 8 (hdrPlen w)) s
      let s := goto fin r.2.2
      if (s.streamCtx ctx).type = 1 then circuitFragment k pos w ctx r.1 r.2.1 s
      else packetFragment k pos w ctx r.1 r.2.1 busy s

/-- Every codeword of the frame in progress that holds one of `n` bytes from byte `p` has had its verdict (R202). -/
def verdictsGiven (s : State) (k p n : Nat) : Bool :=
  (s.spcCh k).next.any (fun v => decide ((s.dsfCh k).frames * 5000 + (min (p + n) frameEnd - 1) / 2560 < v))

/-- One step of delineation (R85): the header at the delineator's position, or the hunt from it and the fragment it leads to.
`info` holds the frame's bytes from that position, of codewords that have had their verdicts (R202); where it holds too few for the
step to be decided, nothing happens yet. -/
def fragmentStep (k : Nat) (info : Bytes) (busy : Bool) (x : Checks) (s : State) : State :=
  let c := s.dsfCh k
  let p := c.pos
  let rd := frameWord info p
  if !c.live || frameEnd ≤ p || !verdictsGiven s k p info.length then s
  else
    let here := if c.bad.contains (p / 2560) then none else rd p
    let start := if c.bad.contains (p / 2560) then (p / 2560 + 1) * 2560 else p + 8
    match here with
    | some w =>
      if hecOk w && decide (min (p + occupancy w) frameEnd - p ≤ info.length) then readableFragment k p w info busy x s
      else if hecOk w then s
      else huntFrom c p start rd s
    | none => if c.bad.contains (p / 2560) then huntFrom c p start rd s else s
where
  /-- The hunt and the span it leaves unread. -/
  huntFrom (c : DsfCh) (p start : Nat) (rd : Nat → Option Nat) (s : State) : State :=
    match fragHunt c.bad rd (info.length / 8 + 5002) start with
    | none => s
    | some none =>
      let s := (countDrop k 1 s).put (DSF_EVT_FRAG_HUNT k) true
      s.setDsfCh k { s.dsfCh k with pos := frameEnd }
    | some (some q) =>
      let s := (countDrop k 1 s).put (DSF_EVT_FRAG_HUNT k) true
      match rd q with
      | some w => readableFragment k q w (info.drop (q - p)) busy x s
      | none => s

/-! ### Tables (R86, R87, R97) -/

/-- Valid stream map entries of a pair. -/
def mapCount (s : State) (k : Nat) : Nat :=
  s.dsf.smap.countP (fun (e : Nat × StreamEnt) => e.1 / 65536 == k && e.2.valid)

/-- Streams whose map entry names a context: pair and SID. -/
def streamsOf (s : State) (ctx : Nat) : List (Nat × Nat) :=
  s.dsf.smap.filterMap (fun (e : Nat × StreamEnt) => if e.2.valid ∧ e.2.ctx = ctx then some (e.1 / 65536, e.1 % 65536) else none)

/-- A word of DSF_IND_DATA. -/
def dsfData (s : State) (n : Nat) : Word := s.reg (DSF_IND_DATA n).addr

/-- Shows an entry's words. -/
def showDsf (l : List Nat) (s : State) : State :=
  (l.zipIdx).foldl (fun s e => s.setReg (DSF_IND_DATA e.2).addr (BitVec.ofNat 64 e.1)) s

/-- An access through DSF_IND_CMD, or none where it is refused (R97). -/
def dsfAccess (s : State) : Option State :=
  let i := s.rd DSF_IND_CMD_INDEX
  let rd := s.bit DSF_IND_CMD_RD
  let d := dsfData s 0
  match s.rd DSF_IND_CMD_TABLE with
  | 0 =>
    if rd then
      some (showDsf [b2n (s.streamMap i).valid * 2 ^ 63 + (s.streamMap i).ctx] s)
    else
      let v := fieldOf d 63 1 == 1
      if v && !(s.streamMap i).valid && decide (16384 ≤ mapCount s (i / 65536)) then none
      else some (streamTouched (i / 65536) (i % 65536) (s.setStreamMap i ⟨v, fieldOf d 0 18⟩))
  | 1 =>
    if 262143 < i then none
    else if rd then
      let x := s.streamCtx i
      some (showDsf [x.type * 2 ^ 62 + b2n x.reqEnc * 2 ^ 61 + x.kslot * 2 ^ 48 + x.maxpkt * 2 ^ 34 + x.cesIdx * 2 ^ 26] s)
    else if 1 < fieldOf d 62 2 ∨ fieldOf d 34 14 < 64 ∨ 16000 < fieldOf d 34 14 then none
    else
      let s' := s.setStreamCtx i ⟨fieldOf d 62 2, fieldOf d 61 1 == 1, fieldOf d 48 13, fieldOf d 34 14, fieldOf d 26 8⟩
      some ((streamsOf s i).foldl (fun s e => streamTouched e.1 e.2 s) s')
  | 2 =>
    if 255 < i then none
    else if rd then
      let x := s.circuit i
      some (showDsf ((x.tlen * 2 ^ 57 + x.cesLen * 2 ^ 45 + x.seq * 2 ^ 29) ::
        (List.range 8).map (fun n => beAt (padTo 64 x.template) (8 * n) 8)) s)
    else if fieldOf d 57 7 < 14 ∨ 64 < fieldOf d 57 7 ∨ fieldOf d 45 12 < 1 ∨ 2048 < fieldOf d 45 12 then none
    else some (s.setCircuit i ⟨fieldOf d 57 7, fieldOf d 45 12, fieldOf d 29 16,
      ((List.range 8).map (fun n => wordBytes (dsfData s (n + 1)))).flatten⟩)
  | _ => none

/-- Writes of DSF registers: value, state before, state with the plain fields stored. -/
def dsfWrite (a : Nat) (v : Word) (o s : State) : State :=
  if a = DSF_IND_CMD.addr ∧ fieldOf v 63 1 = 1 then
    if o.bit DSF_IND_CMD_GO then s.put DSF_IND_CMD_ERR true
    else match dsfAccess s with
      | some t => t.put DSF_IND_CMD_GO false
      | none => (s.put DSF_IND_CMD_GO false).put DSF_IND_CMD_ERR true
  else s

/-! ### Overhead serial insertion (R95) -/

/-- Shows that a port holds a block. -/
def showOhs (p : Nat) (s : State) : State := s.put (OHS_STAT_I_READY p) (s.ohsPort p).held.isSome

/-- An insertion port completes a 512-bit block. -/
def ohsBlock (p : Nat) (b : Bytes) (s : State) : State :=
  if !s.bit (OHS_CTL_I_EN p) || !s.runs blkOHS then s
  else
    let c := s.ohsPort p
    if ohsFeeder s (s.rd (OHS_CTL_I_DST p)) ≠ some p then (s.setOhsPort p { c with partialBlk := false }).inc (OHS_CNT_OVW p)
    else
      let s := if c.held.isSome then s.inc (OHS_CNT_OVW p) else s
      showOhs p (s.setOhsPort p { c with held := some b, taken := false, partialBlk := false })

/-- FSI arrives before a block is complete. -/
def ohsShort (p : Nat) (s : State) : State :=
  if s.bit (OHS_CTL_I_EN p) && s.runs blkOHS then
    (s.setOhsPort p { s.ohsPort p with partialBlk := true }).inc (OHS_CNT_SHORT p)
  else s

/-- Writes of OHS registers: I_EN = 0 empties the port's buffer, X_EN = 0 drives the outputs low, and a change of X_SRC ends
the period in progress. X_AIS keeps its value while no period is in progress (DESIGN CHOICE, log 168). -/
def ohsWrite (a : Nat) (o s : State) : State :=
  (List.range 4).foldl (fun s p =>
    if a ≠ (OHS_CTL p).addr then s
    else
      let s := if s.bit (OHS_CTL_I_EN p) then s else s.setOhsPort p { s.ohsPort p with held := none, taken := false, partialBlk := false }
      let cut := s.rd (OHS_CTL_X_SRC p) != o.rd (OHS_CTL_X_SRC p) && o.bit (OHS_CTL_X_EN p) && s.bit (OHS_CTL_X_EN p)
        && !(s.ohsPort p).period.isEmpty
      let s := if cut then s.put (OHS_STAT_X_TRUNC p) true else s
      let s := if cut || !s.bit (OHS_CTL_X_EN p) then s.setOhsPort p { s.ohsPort p with period := [] } else s
      showOhs p s) s

end Sys2Proof.Machine
end

