-- ==== Sys2Proof/Machine/SpcOps.lean ====
section
/-! DEFINITION. The run-ahead, the verdicts of codewords, and the timeout of speculative packets (R196 to R203). -/

namespace Sys2Proof.Machine

/-- Records that a pipeline's commit buffer holds or that packets in the pipeline will need (R198). -/
def recordsDue (s : State) (i : Nat) : Nat :=
  let p := s.pipe i
  p.held.length + p.input.countP (·.spec.isSome) + p.idle.countP (fun (e : IdleClass × PassPkt) => e.2.spec.isSome)

/-- The run-ahead goes on at byte `p`. -/
def aheadTo (k p : Nat) (s : State) : State := s.setSpcCh k { s.spcCh k with pos := p }

/-- A packet's verdict can still come: its last codeword has not had one, and none of its codewords was a mismatch. -/
def verdictAhead (x : SpcCh) (lo hi : Nat) : Bool :=
  x.next.any (fun n => decide (n ≤ hi)) && !x.lastBad.any (fun b => decide (lo ≤ b))

/-- A single-fragment packet that passed every check is issued (R196): one squashed before keeps its version stamp (R171). -/
def issueAhead (k : Nat) (p : SpecPkt) (ctx : Nat) (plain : Bytes) (bad : Bool) (t : Tod) (s : State) : State :=
  let v := takeStamp k p.fc p.hdr s
  let x := v.2.spcCh k
  let p := { p with stamp := v.1.getD (s.rd CLS_VER_CUR) }
  let n := if p.lo / 5000 = (s.dsfCh k).frames then plain.length + 20 else 0
  let s := v.2.setSpcCh k { x with pkts := x.pkts ++ [p], bytes := x.bytes + n }
  enterPipe { bytes := plain, dir := 0, src := k, sid := p.sid, ctx := some ctx, ver := v.1, ingress := t, poisoned := bad,
              spec := some (k, p.num) } s

/-- A packet whose plaintext the run-ahead has: issued where its tag and FCS are good, its verdict can still come, it lies within
its frame's limit, and its pipeline's commit buffer has a free record (R196). -/
def finishAhead (k : Nat) (w : AheadWait) (s : State) : State :=
  match w.plain with
  | none => s.inc CIP_CNT0_TAG_FAIL
  | some plain =>
    let x := s.spcCh k
    if plain.length < 64 ∨ fcsBytes (plain.take (plain.length - 4)) ≠ plain.drop (plain.length - 4) then s
    else if !verdictAhead x w.pkt.lo w.pkt.hi || (w.pkt.lo / 5000 == (s.dsfCh k).frames && decide (12500000 < x.bytes + plain.length + 20)) then s
    else if 4096 ≤ recordsDue s (pipeOf 0 k) then s.inc (SPC_CWC_SKIP k)
    else issueAhead k w.pkt w.ctx plain w.poisoned w.t s

/-- Packets at the head of a channel's waiting ones whose decryption is complete leave, in order. -/
def flushAhead (k : Nat) : List AheadWait → State → State
  | [], s => s.setSpcCh k { s.spcCh k with waits := [] }
  | w :: l, s =>
    if w.ready then flushAhead k l (finishAhead k w s) else s.setSpcCh k { s.spcCh k with waits := w :: l }

/-- A run-ahead request completes (R251): a packet that is not waited for has been squashed or withdrawn. -/
def aheadDone (k num : Nat) (s : State) : State :=
  flushAhead k ((s.spcCh k).waits.map (fun (w : AheadWait) => if w.pkt.num = num then { w with ready := true } else w)) s

/-- The plaintext of an encrypted fragment, where its tag is good (R253, R256). -/
def aheadPlain (k fc pos w : Nat) (key payload : Bytes) : Option Bytes :=
  let n := payload.length - 8
  let ct := payload.take n
  let iv := lineIv fc k 0 (pos / 32)
  if (gcmTag key iv (beBytes 8 w) ct).take 8 = payload.drop n then some (gcmCtr key iv 2 ct) else none

/-- A packet that the run-ahead has read waits for its decryption, or goes on at once; an encrypted one whose source's queue is
full, or whose key cannot be used, is not issued (R196, R251). `bad`: a word of its payload could not be corrected. -/
def startAhead (k pos w ctx : Nat) (payload : Bytes) (bad : Bool) (s : State) : State :=
  let c := s.dsfCh k
  let x := s.spcCh k
  let p : SpecPkt :=
    { num := x.nextNum, fc := c.fc, hdr := pos, sid := hdrSid w, lo := c.frames * 5000 + pos / 2560,
      hi := c.frames * 5000 + (pos + occupancy w - 1) / 2560, stamp := 0 }
  let queue (plain : Option Bytes) (ready : Bool) (s : State) : State :=
    let x := s.spcCh k
    flushAhead k (x.waits ++ [⟨p, ctx, plain, arrival s k pos, ready, bad⟩]) (s.setSpcCh k { x with nextNum := x.nextNum + 1 })
  if hdrKi w = 0 then queue (some payload) true s
  else if cipFull s .runAhead then s
  else match cipAhead k p.num (kiSlot (s.streamCtx ctx).kslot (hdrKi w)) s with
    | (.bound key, s) => queue (aheadPlain k c.fc pos w key payload) false s
    | (_, s) => s

/-- One fragment read by the run-ahead on the bits it has (R196). One that it has read before, and that is still speculative or has
committed, is passed over. The words of its payload are checked (R20). -/
def runAhead (k : Nat) (info : Bytes) (y : Checks) (s : State) : State :=
  let c := s.dsfCh k
  let x := s.spcCh k
  let pos := max x.pos c.pos
  if !s.runs blkSPC || !(s.rd SPC_CTL_EN).testBit k || !c.live || !c.hdrOk || x.stopped || decide (frameEnd ≤ pos) then s
  else match frameWord info pos pos with
    | none => s
    | some w =>
      let fin := pos + occupancy w
      if !hecOk w || decide (frameEnd < fin) then s.setSpcCh k { x with stopped := true }
      else if info.length < occupancy w then s
      else
        let sid := hdrSid w
        let s := aheadTo k fin s
        match (if sid = 0xFFFF then none else streamOf s k sid) with
        | none => s
        | some ctx =>
          let st := s.streamCtx ctx
          let plen := hdrPlen w - 8 * b2n (hdrKi w != 0)
          let lo := c.frames * 5000 + pos / 2560
          let hi := c.frames * 5000 + (fin - 1) / 2560
          if x.twins.contains (c.fc, pos) || x.pkts.any (fun q => q.fc == c.fc && q.hdr == pos)
              || x.waits.any (fun q => q.pkt.fc == c.fc && q.pkt.hdr == pos) then s
          else if st.type = 1 then s
          else if !(hdrFirst w && hdrLast w) then s.setSpcCh k { s.spcCh k with blocked := sid :: x.blocked }
          else if x.blocked.contains sid || fragForbidden st w || hdrFseq w != 0 || decide (st.maxpkt < plen)
              || decide (s.rd CEL_POOL_RA_RA < s.cel.raUsed + cellCount 0 plen false)
              || decide (12500000 < x.bytes + plen + 20)
              || !verdictAhead x lo hi then s
          else
            let r := checkPacket blkSPC k y (slice info 8 (hdrPlen w)) s
            startAhead k pos w ctx r.1 r.2.1 r.2.2

/-- The next codeword of a channel is given its verdict, once it has ended (R197, R199, R200). -/
def codewordVerdict (k : Nat) (s : State) : State :=
  let x := s.spcCh k
  match x.next with
  | none => s
  | some n =>
    match SMap.get (fun _ => (none : Option Bool)) x.ended n with
    | none => s
    | some ok =>
      let s := s.setSpcCh k { x with next := some (n + 1), ended := SMap.set (fun _ => none) x.ended n none }
      if ok then
        ((s.spcCh k).pkts.filter (fun p => decide (p.hi ≤ n))).foldl (fun s p => commitSpec k p s) s
      else
        let s := (s.setSpcCh k { s.spcCh k with lastBad := some n }).inc (SPC_CWC_MISMATCH k)
        aheadResumes k (squashWhere k (fun p => decide (n ≤ p.hi)) s)

/-- The oldest speculative packet of a channel has waited TMO µs for its verdict: it and its successors are squashed (R201,
R203). -/
def specTimeout (k : Nat) (s : State) : State :=
  match (s.spcCh k).pkts with
  | [] => s
  | _ :: _ => aheadResumes k (squashWhere k (fun _ => true) (s.inc (SPC_CWC_TIMEOUT k)))

end Sys2Proof.Machine
end

