-- ==== Sys2Proof/Machine/LphOps.lean ====
section
/-! DEFINITION. Line optics: the port switch, receivers, comb light, calibration, the equaliser's diversity windows and the
laser sources (R47 to R70). -/

namespace Sys2Proof.Machine

/-! ### Receivers (R57, R58) -/

/-- Receiver k is powered: RX_EN = 1, its channel pair is not trimmed (R335) and does not sleep (R338). -/
def rxPowered (s : State) (k : Nat) : Bool :=
  s.bit (LPH_CH_CTL_RX_EN k) && s.pwr.cpOn.testBit k && !s.pwr.rxOff.testBit k

/-- PWR shows a measured power, within −40.0 dBm to +15.0 dBm. -/
def showPower (k : Nat) (p : Int) (s : State) : State :=
  s.wr (LPH_RX_STATUS_PWR k) (unsigned 16 (clampInt (-400) 150 p))

/-- CR_LOCK of a powered receiver falls. -/
def crFall (k : Nat) (s : State) : State :=
  if s.bit (LPH_RX_STATUS_CR_LOCK k) then
    chpReact k (dsfLost k ((s.put (LPH_RX_STATUS_CR_LOCK k) false).put (LPH_RX_EVT_CR_UNLOCK k) true))
  else s

/-- A receiver is powered down: what its status reads, and loss of signal at DSF; no event is set (R58). FROZEN with its count of
passing windows, FOFS and CD_EST keep their values (DESIGN CHOICE, log 164). -/
def rxDown (k : Nat) (s : State) : State :=
  let c := s.lphCh k
  let asleep := s.bit (LPH_CH_CTL_RX_EN k) && s.pwr.cpOn.testBit k
  let s := s.setLphCh k { c with losAt := if asleep then c.losAt <|> some s.ticks else none }
  let s := ((s.put (LPH_RX_STATUS_RX_LOS k) true).put (LPH_RX_STATUS_CR_LOCK k) false).put (LPH_RX_STATUS_LO_LOCK k) false
  let s := s.wr (LPH_RX_STATUS_PWR k) 0x8000
  timPoll (chpReact k (dsfLost k s))

/-- What a receiver starts from (R58): the stored state where it starts warm and there is any, else CD_PSNM or a search. -/
def rxStarts (k : Nat) (warm : Bool) (s : State) : State :=
  let c := s.lphCh k
  match (if warm then c.warm else none) with
  | some w => s.setLphCh k { c with acq := .warm, rx := w }
  | none =>
    if s.bit (LPH_RX_CFG_CD_SEARCH k) then s.setLphCh k { c with acq := .search, rx := {} }
    else s.setLphCh k { c with acq := .psnm, rx := { cd := some (s.rd (LPH_RX_CFG_CD_PSNM k)) } }

/-- A receiver is powered up, warm or cold: RX_LOS stays until it clears, and PWR shows the power it measures (a free value). -/
def rxUp (k : Nat) (warm : Bool) (s : State) : State :=
  let s := rxStarts k warm (s.setLphCh k { s.lphCh k with losAt := (s.lphCh k).losAt <|> some s.ticks })
  showPower k ((s.draw.1.toNat % 551 : Nat) - 400) s.draw.2

/-- Carrier recovery locks (R58): the ring is locked, at a setting that is a free value where it was not stored, and what the receiver
works with is stored for warm starts. There is no lock while RX_LOS is set (DEDUCED, log 40). -/
def crLock (k cd fofs : Nat) (s : State) : State :=
  if !rxPowered s k || (s.lphCh k).loLow || s.bit (LPH_RX_STATUS_RX_LOS k) then s
  else
    let s := (s.put (LPH_RX_STATUS_CR_LOCK k) true).put (LPH_RX_STATUS_LO_LOCK k) true
    let s := (s.wr (LPH_RX_STATUS_CD_EST k) cd).wr (LPH_RX_STATUS_FOFS k) fofs
    let d := s.draw
    let c := d.2.lphCh k
    let x : RxState := { c.rx with cd := some cd, ring := c.rx.ring <|> some d.1 }
    d.2.setLphCh k { c with rx := x, warm := some x }

/-- A receiver restarts as with WARM = 1 (R58, R115): a lock it held is lost. -/
def rxRestart (k : Nat) (s : State) : State := if rxPowered s k then rxStarts k true (crFall k s) else s

/-- Loss of signal: the channel power has been below −28 dBm for 10 µs (Table 3.3). CR_LOCK falls in the same clock. -/
def losAssert (k : Nat) (p : Int) (s : State) : State :=
  if !rxPowered s k then s
  else
    let s := showPower k p s
    if p < -280 ∧ ¬ s.bit (LPH_RX_STATUS_RX_LOS k) then
      let s := (s.put (LPH_RX_STATUS_RX_LOS k) true).put (LPH_RX_EVT_LOS k) true
      let s := s.setLphCh k { s.lphCh k with losAt := some s.ticks }
      chpReact k (dsfLost k (crFall k s))
    else s

/-- The channel power has been at or above −27 dBm for 10 µs. -/
def losClear (k : Nat) (p : Int) (s : State) : State :=
  if !rxPowered s k then s
  else
    let s := showPower k p s
    if -270 ≤ p then (s.put (LPH_RX_STATUS_RX_LOS k) false).setLphCh k { s.lphCh k with losAt := none } else s

/-- LO line k below +4 dBm, or back (R64). -/
def loLine (k : Nat) (low : Bool) (s : State) : State :=
  let s := s.setLphCh k { s.lphCh k with loLow := low }
  if !rxPowered s k then s
  else if low then
    if s.bit (LPH_RX_STATUS_LO_LOCK k) then (s.put (LPH_RX_STATUS_LO_LOCK k) false).put (LPH_RX_EVT_LO_UNLOCK k) true else s
  else s.put (LPH_RX_STATUS_LO_LOCK k) true

/-- Upstream comb line k has the power `p` (R64): COMB_LOW below +12 dBm, a contained fault as it becomes low. -/
def combPower (k : Nat) (p : Int) (s : State) : State :=
  let was := s.bit (LPH_TX_STATUS_COMB_LOW k)
  let s := (s.wr (LPH_TX_STATUS_COMB_PWR k) (unsigned 16 p)).put (LPH_TX_STATUS_COMB_LOW k) (decide (p < 120))
  if p < 120 ∧ ¬ was then fltEvent blkLPH k s else s

/-! ### The port switch (R48) -/

/-- The port-move hold, to every Chaperone. -/
def setHold (b : Bool) (s : State) : State :=
  (List.range 16).foldl (fun s k => chpReact k (s.setChpCh k { s.chpCh k with portHold := b })) s

/-- What a value of SEL asks for while the switch has not begun to move. -/
def portSelect (s : State) : State :=
  if s.lph.moving.isSome then s
  else if s.rd LPH_PORT_SEL ≠ s.rd LPH_PORT_ACTIVE then setHold true (s.put LPH_PORT_PENDING true)
  else if s.bit LPH_PORT_PENDING then setHold false (s.put LPH_PORT_PENDING false)
  else s

/-- Every gate has reported closed. -/
def gatesClosed (s : State) : Bool := (List.range 16).all (fun k => !s.bit (CHP_STATUS_GATE k))

/-- The optical switch begins to move. -/
def portMoveStart (s : State) : State :=
  if s.bit LPH_PORT_PENDING && s.lph.moving.isNone && gatesClosed s then
    { s with lph := { s.lph with moving := some (s.rd LPH_PORT_SEL) } }
  else s

/-- 1 ms after the move began: the hold is released, ACTIVE takes the port, DONE is set, every enabled receiver restarts, and pairs
that stayed in Operating take the EQD of the port (R114); a new request starts a new move. -/
def portRelease (s : State) : State :=
  match s.lph.moving with
  | none => s
  | some p =>
    let s := { s with lph := { s.lph with moving := none } }
    let s := ((s.wr LPH_PORT_ACTIVE p).put LPH_PORT_DONE true).put LPH_PORT_PENDING false
    let s := setHold false ((List.range 16).foldl (fun s k => actStage k (portEqd k (rxRestart k s))) s)
    timPoll (portSelect s)

/-! ### Calibration (R65, R66) -/

/-- Receiver skew runs with widened margins (R66). -/
def rxWide (s : State) (k : Nat) : Bool := s.rd (LPH_CAL_RX_STATE k) == 2 || s.rd (LPH_CAL_RX_STATE k) == 3
/-- Modulator bias runs with widened margins. -/
def txWide (s : State) (k : Nat) : Bool := s.rd (LPH_CAL_TX_STATE k) == 2 || s.rd (LPH_CAL_TX_STATE k) == 3
/-- The exponent of the equaliser's data-aided step size (R66). -/
def eqShift (s : State) (k : Nat) : Nat := s.rd (LPH_RX_CFG_GAIN_SH k) + (if rxWide s k then 2 else 0)
/-- The exponent of its pilot-aided step size while it is frozen (R68). -/
def pilotShift (s : State) (k : Nat) : Nat := s.rd (LPH_RX_CFG_GAIN_SH k) + 2
/-- The skew tracking range, in units of the normal one (R66). -/
def skewRange (s : State) (k : Nat) : Nat := if rxWide s k then 2 else 1
/-- What the pre-distortion's adaptation gain is divided by (R66). -/
def predistDivisor (s : State) (k : Nat) : Nat := if txWide s k then 4 else 1
/-- The change of the drive swing, in 0.1 dB (R66). -/
def driveSwing (s : State) (k : Nat) : Int := if txWide s k then -5 else 0
/-- The change of the variable attenuator's gain, which compensates for it. -/
def attenuator (s : State) (k : Nat) : Int := -driveSwing s k
/-- Launch power of modulator k, in 0.1 dBm: +4.0 dBm + LAUNCH × 0.1 dB, the swing compensated (R66, chapter 03 registers). -/
def launchPower (s : State) (k : Nat) : Int := 40 + s.rd (LPH_TX_CFG_LAUNCH k) + driveSwing s k + attenuator s k

/-- STATE of a calibration. -/
def calState (k : Nat) (tx : Bool) : RF := if tx then LPH_CAL_TX_STATE k else LPH_CAL_RX_STATE k

/-- The channel is enabled or disabled for one of its calibrations (Table 3.5). -/
def calEnable (k : Nat) (tx on : Bool) (s : State) : State :=
  let c := s.lphCh k
  let s := s.setLphCh k (if tx then { c with txStart := none, txRestarts := 0 } else { c with rxStart := none, rxRestarts := 0 })
  s.wr (calState k tx) (if on then 3 else 0)

/-- A trim is asked for: STAMPED becomes DRIFTED. -/
def calRequest (k : Nat) (tx : Bool) (s : State) : State :=
  if s.rd (calState k tx) = 1 then s.wr (calState k tx) 2 else s

/-- The two conditions of a calibration: temperature, and power or duty. -/
def calPair (tx : Bool) (c : CalCond) : Int × Int :=
  if tx then (c.txT.toInt, (c.duty.toNat : Nat)) else (c.rxT.toInt, c.pwr.toInt)

/-- Its windows, in the units of the conditions. -/
def calWindow (s : State) (k : Nat) (tx : Bool) : Nat × Nat :=
  if tx then (s.rd (LPH_CAL_WIN_TX_DT k), s.rd (LPH_CAL_WIN_TX_DD k))
  else (s.rd (LPH_CAL_WIN_RX_DT k), 5 * s.rd (LPH_CAL_WIN_RX_DP k))

/-- A condition lies outside its window around a value. -/
def calOut (w : Nat × Nat) (at_ now : Int × Int) : Bool :=
  decide (w.1 < (now.1 - at_.1).natAbs) || decide (w.2 < (now.2 - at_.2).natAbs)

/-- The stamp of a calibration. -/
def calStamp (s : State) (k : Nat) (tx : Bool) : Int × Int :=
  if tx then (signed 16 (s.rd (LPH_CAL_TX_T k)), (s.rd (LPH_CAL_TX_DUTY k) : Nat))
  else (signed 16 (s.rd (LPH_CAL_RX_T k)), signed 16 (s.rd (LPH_CAL_RX_P k)))

/-- A trim ends: STAMPED with the averages over it; its result is kept. -/
def calDone (k : Nat) (tx : Bool) (c : Int × Int) (s : State) : State :=
  let s := s.wr (calState k tx) 1
  if tx then
    ((s.wr (LPH_CAL_TX_T k) (unsigned 16 c.1)).wr (LPH_CAL_TX_DUTY k) (unsigned 8 c.2)).setLphCh k
      { s.lphCh k with txStart := none, txRestarts := 0, txKept := true }
  else
    ((s.wr (LPH_CAL_RX_T k) (unsigned 16 c.1)).wr (LPH_CAL_RX_P k) (unsigned 16 c.2)).setLphCh k
      { s.lphCh k with rxStart := none, rxRestarts := 0, rxKept := true }

/-- The 1 ms check of one calibration (Table 3.5): `avg`, the averages over a trim in progress. -/
def calCheckOne (k : Nat) (tx : Bool) (now avg : Int × Int) (s : State) : State :=
  let w := calWindow s k tx
  let st := s.rd (calState k tx)
  let c := s.lphCh k
  let start := if tx then c.txStart else c.rxStart
  let restarts := if tx then c.txRestarts else c.rxRestarts
  let begin_ (n : Nat) : State :=
    s.setLphCh k (if tx then { c with txStart := some now, txRestarts := n } else { c with rxStart := some now, rxRestarts := n })
  if st = 1 then (if calOut w (calStamp s k tx) now then s.wr (calState k tx) 2 else s)
  else if st = 3 then
    match start with
    | none => begin_ 0
    | some x =>
      if !calOut w x now then s
      else if 3 ≤ restarts then
        (calDone k tx avg s).put (if tx then LPH_CAL_CTL_TX_UNST k else LPH_CAL_CTL_RX_UNST k) true
      else begin_ (restarts + 1)
  else s

/-- The 1 ms check of a channel: its monitors are shown, and both calibrations compared (R65). -/
def calCheck (k : Nat) (now avg : CalCond) (s : State) : State :=
  let s := (s.wr LPH_TEMP_TX_ENG now.txT.toNat).wr LPH_TEMP_RX_ENG now.rxT.toNat
  let s := if rxPowered s k then showPower k now.pwr.toInt s else s
  calCheckOne k true (calPair true now) (calPair true avg) (calCheckOne k false (calPair false now) (calPair false avg) s)

/-- A DRIFTED calibration starts its trim; the conditions are recorded. -/
def calStart (k : Nat) (tx : Bool) (now : CalCond) (s : State) : State :=
  if s.rd (calState k tx) = 2 then
    let c := s.lphCh k
    let x := some (calPair tx now)
    (s.wr (calState k tx) 3).setLphCh k
      (if tx then { c with txStart := x, txRestarts := 0 } else { c with rxStart := x, rxRestarts := 0 })
  else s

/-- A trim completes. -/
def calComplete (k : Nat) (tx : Bool) (avg : CalCond) (s : State) : State :=
  if s.rd (calState k tx) = 3 then calDone k tx (calPair tx avg) s else s

/-! ### The equaliser (R68) -/

/-- Tap by tap, an accumulated update times a step size of 2^−`shift` is added. -/
def addTaps (shift : Nat) : List Int → List (BitVec 32) → List Int
  | l, [] => l
  | [], u :: t => u.toInt * 2 ^ (17 - shift) :: addTaps shift [] t
  | x :: l, u :: t => (x + u.toInt * 2 ^ (17 - shift)) :: addTaps shift l t

/-- The taps of a receiver are updated; while it holds CR_LOCK they are the ones stored (R58). -/
def setTaps (k : Nat) (taps : List Int) (s : State) : State :=
  let c := s.lphCh k
  let x := { c.rx with taps := taps }
  s.setLphCh k { c with rx := x, warm := if s.bit (LPH_RX_STATUS_CR_LOCK k) then some x else c.warm }

/-- A window of 65,536 symbols closes: counts of the 16 points in each polarisation, and the tap updates accumulated over it from
data and from probe and pilots. Data-aided updates are applied where the window passes and the equaliser is not frozen; while it is
frozen only the pilot-aided ones are (R68; that they belong to the data-aided ones otherwise is a DESIGN CHOICE, log 178). -/
def eqWindow (k : Nat) (counts : List Nat) (aided piloted : List (BitVec 32)) (s : State) : State :=
  let pass := counts.all (fun c => decide (s.rd (LPH_EQ_DIV_DIV_MIN k) ≤ c))
  let taps := (s.lphCh k).rx.taps
  let s :=
    if s.bit (LPH_RX_STATUS_FROZEN k) then setTaps k (addTaps (pilotShift s k) taps piloted) s
    else if pass then setTaps k (addTaps (eqShift s k) taps aided) s
    else s
  let c := s.lphCh k
  if !s.bit (LPH_RX_STATUS_FROZEN k) then
    if pass then s
    else ((s.put (LPH_RX_STATUS_FROZEN k) true).put (LPH_RX_EVT_FREEZE k) true).setLphCh k { c with passes := 0 }
  else if !pass then s.setLphCh k { c with passes := 0 }
  else if s.rd (LPH_EQ_DIV_DIV_RESUME k) ≤ c.passes + 1 then
    (s.put (LPH_RX_STATUS_FROZEN k) false).setLphCh k { c with passes := 0 }
  else s.setLphCh k { c with passes := c.passes + 1 }

/-! ### Laser sources (R62 to R64, R70, R282) -/

/-- ADDR0 to ADDR3. -/
def laserAddr (s : State) (i : Nat) : Nat :=
  match i with
  | 0 => s.rd LPH_LSRC_CTL_ADDR0
  | 1 => s.rd LPH_LSRC_CTL_ADDR1
  | 2 => s.rd MAC_LSRC_CTL_ADDR2
  | _ => s.rd MAC_LSRC_CTL_ADDR3

/-- A source shares its address with another (R62). -/
def laserClash (s : State) (i : Nat) : Bool :=
  (List.range 4).any (fun j => j != i && laserAddr s j == laserAddr s i)

/-- READY, FAULT and NAK of a source. -/
def laserBits (i : Nat) : RF × RF × RF :=
  match i with
  | 0 => (LPH_LSRC_STATUS_READY0, LPH_LSRC_STATUS_FAULT0, LPH_LSRC_STATUS_NAK0)
  | 1 => (LPH_LSRC_STATUS_READY1, LPH_LSRC_STATUS_FAULT1, LPH_LSRC_STATUS_NAK1)
  | 2 => (MAC_LSRC_STATUS_READY2, MAC_LSRC_STATUS_FAULT2, MAC_LSRC_STATUS_NAK2)
  | _ => (MAC_LSRC_STATUS_READY3, MAC_LSRC_STATUS_FAULT3, MAC_LSRC_STATUS_NAK3)

/-- The block whose status shows a source. -/
def laserBlock (i : Nat) : Nat := if i < 2 then blkLPH else blkMAC

/-- One source is polled. READY and FAULT of one that does not acknowledge keep the values of its last answer (DESIGN CHOICE, log
162). -/
def laserPollOne (i : Nat) (r : SrcReading) (s : State) : State :=
  let b := laserBits i
  if laserClash s i then ((s.put b.1 false).put b.2.1 false).put b.2.2 true
  else if !r.ack then fltSourceEvent (laserBlock i) (s.put b.2.2 true)
  else
    let s := (s.put b.1 r.ready).put b.2.1 r.alarm
    if r.alarm then fltSourceEvent (laserBlock i) s else s

/-- A poll of the four sources: a clash raises its fault once. An access that has been started runs before it (R70). -/
def laserPoll (r0 r1 r2 r3 : SrcReading) (s : State) : State :=
  if !s.bit LPH_LSRC_CTL_POLL_EN || !s.runs blkLPH || s.bit LPH_LSRC_CMD_GO then s
  else
    let clash := (List.range 4).any (laserClash s)
    let s := laserPollOne 3 r3 (laserPollOne 2 r2 (laserPollOne 1 r1 (laserPollOne 0 r0 s)))
    let s := if clash && !s.lph.clash then fltSourceEvent blkLPH s else s
    { s with lph := { s.lph with clash := clash } }

/-- A byte access is asked for: refused for a source whose address clashes; a write of GO while GO reads 1 has no effect, on the
register's other fields neither (R62, R70). -/
def laserGo (o s : State) : State :=
  if o.bit LPH_LSRC_CMD_GO then o
  else if laserClash s (s.rd LPH_LSRC_CMD_SRC) then s.put LPH_LSRC_CMD_ERR true
  else s.put LPH_LSRC_CMD_GO true

/-- The byte access ends. One that is not acknowledged sets ERR and neither NAK nor a fault, which are a poll's (DESIGN CHOICE, log
163). -/
def laserDone (ack : Bool) (data : Nat) (s : State) : State :=
  if !s.bit LPH_LSRC_CMD_GO then s
  else
    let s := s.put LPH_LSRC_CMD_GO false
    if !ack then s.put LPH_LSRC_CMD_ERR true
    else if s.bit LPH_LSRC_CMD_RD then s.wr LPH_LSRC_CMD_DATA data
    else s

/-- The safe state holds. -/
def inSafe (s : State) : Bool := s.bit FLT_SUMMARY_SAFE

/-- A block runs and is not being stopped: its CFG_BLK_RUN bit is 1 (R63, R284). -/
def runBit (s : State) (n : Nat) : Bool := (s.rd CFG_BLK_RUN).testBit n && s.runs n

/-- The device pulls LO_EN_N low (R63, R400). -/
def loPulled (s : State) : Bool :=
  s.bit LPH_LSRC_CTL_LO_EN && runBit s blkLPH && !inSafe s && s.cfg.boot != .failed && !s.tap.extest
/-- The device pulls LIGHT_EN_N low (R63, R400). -/
def lightPulled (s : State) : Bool :=
  s.bit LPH_LSRC_CTL_LIGHT_EN && runBit s blkLPH && !inSafe s && s.cfg.boot != .failed && !s.tap.extest
/-- The device pulls CL_EN_N low (R282, R400). -/
def clientLightPulled (s : State) : Bool :=
  s.bit MAC_LSRC_CTL_CL_EN && s.runs blkMAC && s.cfg.boot != .failed && s.pwr.cur != .taste && s.pwr.cur != .off && !s.tap.extest

/-! ### The test access port (R400) -/

/-- The next state of the controller of IEEE 1149.1 at a rising edge of TCK. -/
def TapState.next (t : TapState) (tms : Bool) : TapState :=
  match t, tms with
  | .testLogicReset, true => .testLogicReset
  | .testLogicReset, false => .runTestIdle
  | .runTestIdle, true => .selectDr
  | .runTestIdle, false => .runTestIdle
  | .selectDr, true => .selectIr
  | .selectDr, false => .captureDr
  | .captureDr, true => .exit1Dr
  | .captureDr, false => .shiftDr
  | .shiftDr, true => .exit1Dr
  | .shiftDr, false => .shiftDr
  | .exit1Dr, true => .updateDr
  | .exit1Dr, false => .pauseDr
  | .pauseDr, true => .exit2Dr
  | .pauseDr, false => .pauseDr
  | .exit2Dr, true => .updateDr
  | .exit2Dr, false => .shiftDr
  | .updateDr, true => .selectDr
  | .updateDr, false => .runTestIdle
  | .selectIr, true => .testLogicReset
  | .selectIr, false => .captureIr
  | .captureIr, true => .exit1Ir
  | .captureIr, false => .shiftIr
  | .shiftIr, true => .exit1Ir
  | .shiftIr, false => .shiftIr
  | .exit1Ir, true => .updateIr
  | .exit1Ir, false => .pauseIr
  | .pauseIr, true => .exit2Ir
  | .pauseIr, false => .pauseIr
  | .exit2Ir, true => .updateIr
  | .exit2Ir, false => .shiftIr
  | .updateIr, true => .selectDr
  | .updateIr, false => .runTestIdle

/-- A rising edge of TCK, with the TAP's own supply valid; `extest`: the instruction that an Update-IR takes is EXTEST. TRST_N low
holds the controller in Test-Logic-Reset. No row of the table is an edge of TCK (log 179). -/
def tapClock (trstN tms extest : Bool) (s : State) : State :=
  let n : TapSt :=
    if !trstN then {}
    else
      let st := s.tap.st.next tms
      { st := st, extest := if st = .testLogicReset then false else if st = .updateIr then extest else s.tap.extest }
  (List.range 16).foldl (fun s k => chpReact k s) { s with tap := n }

/-! ### Registers -/

/-- RX_EN and TX_EN of a channel have been written. -/
def chCtlWritten (k : Nat) (o s : State) : State :=
  let rx := s.bit (LPH_CH_CTL_RX_EN k)
  let tx := s.bit (LPH_CH_CTL_TX_EN k)
  let s := if rx && !o.bit (LPH_CH_CTL_RX_EN k) then
      let s := s.put (CHP_STATUS_CLK_OK k) true
      let s := s.setLphCh k { s.lphCh k with losAt := some s.ticks }
      assertLof k (calEnable k false true (if rxPowered s k then rxUp k (s.bit (LPH_CH_CTL_WARM k)) s else s))
    else if !rx && o.bit (LPH_CH_CTL_RX_EN k) then calEnable k false false (rxDown k s)
    else s
  if tx != o.bit (LPH_CH_CTL_TX_EN k) then calEnable k true tx s else s

/-- Writes of LPH registers: value, state before, state with the plain fields stored. -/
def lphWrite (a : Nat) (v : Word) (o s : State) : State :=
  let k := a % 0x1000000 / 0x10000
  if a = LPH_PORT.addr then portSelect s
  else if a = LPH_LSRC_CMD.addr then (if fieldOf v 63 1 = 1 then laserGo o s else s)
  else if 16 ≤ k then s
  else if a = (LPH_CH_CTL k).addr then chCtlWritten k o s
  else if a = (LPH_CAL_CTL k).addr then
    let s := if fieldOf v 1 1 = 1 then calRequest k true s else s
    if fieldOf v 0 1 = 1 then calRequest k false s else s
  else s

end Sys2Proof.Machine
end

