-- ==== Sys2Proof/Machine/MacOps.lean ====
section
/-! DEFINITION. The client ports (chapter 12), and the downstream selection that hands packets to them (R228, R229, R244,
R245). -/

namespace Sys2Proof.Machine

/-! ### Ports (R278, R279) -/

/-- Sub-ports of a physical port's mode (Table 12.1). -/
def subCount (brk : Nat) : Nat := if brk = 0 then 1 else if brk = 1 then 2 else 4

/-- Logical rate in bits per ns. -/
def macRate (s : State) (p : Nat) : Nat := 800 / subCount (s.rd (MAC_PHY_CTL_BRK (p % 16)))

/-- The lanes of a sub-port as a mask (Table 12.1). -/
def subLanes (brk sub : Nat) : Nat :=
  if brk = 0 then 15 else if brk = 1 then 3 * 4 ^ sub else 2 ^ sub

/-- A physical port is enabled and powered (R279, R334). -/
def phyOn (s : State) (P : Nat) : Bool := s.bit (MAC_PHY_CTL_EN P) && s.pwr.portOn.testBit P

/-- The sub-port of a logical port is present and enabled. -/
def portLive (s : State) (p : Nat) : Bool :=
  decide (p / 16 < subCount (s.rd (MAC_PHY_CTL_BRK (p % 16)))) && phyOn s (p % 16) && s.bit (MAC_PORT_CFG_EN p)

/-- The sub-port is present, and its physical port enabled: its PCS runs (R279, R283). -/
def pcsOn (s : State) (p : Nat) : Bool := decide (p / 16 < subCount (s.rd (MAC_PHY_CTL_BRK (p % 16)))) && phyOn s (p % 16)

/-- MAC runs, is not being stopped, and the device is not in the safe state (R284). -/
def macRuns (s : State) : Bool := runBit s blkMAC && !inSafe s

/-- What a logical port sends (R283, R284). -/
inductive PortSignal where
  | off
  | localFault
  | remoteFault
  | idle
  | frames
  deriving DecidableEq, Repr

/-- What logical port `p` sends: nothing without its lanes, Local Fault while MAC does not run or the device is in the safe state, and
what the reconciliation sublayer asks for otherwise (R283, R284). -/
def portSends (s : State) (p : Nat) : PortSignal :=
  if !pcsOn s p then .off
  else if !macRuns s then .localFault
  else if s.bit (MAC_PORT_STAT_LOCAL_F p) then .remoteFault
  else if s.bit (MAC_PORT_STAT_REMOTE_F p) || !s.bit (MAC_PORT_STAT_LINK p) then .idle
  else .frames

/-- Adds to counter `n` of Table 12.7. -/
def macAdd (p n x : Nat) (s : State) : State := s.addTo (MAC_CNT p n) x

/-- Counts one at counter `n` of Table 12.7. -/
def macInc (p n : Nat) (s : State) : State := macAdd p n 1 s

/-! ### Link (R283) -/

/-- Verification begins again (R291). -/
def verifyStart (p : Nat) (s : State) : State :=
  let on := s.bit (MAC_MM_CFG_MM_EN p)
  let dis := s.bit (MAC_MM_CFG_VERIFY_DIS p)
  (s.setMacPort p { s.macPort p with attempts := 0 }).wr (MAC_MM_CFG_VERIFY_ST p) (if on && !dis then 1 else 0)

/-- LINK follows its conditions; a change sets LINK_CHG. -/
def macLink (p : Nat) (s : State) : State :=
  let m := s.macPort p
  let up := pcsOn s p && m.pcs && m.quiet && !s.bit (MAC_PORT_STAT_LOCAL_F p)
  if s.bit (MAC_PORT_STAT_LINK p) == up then s
  else
    let s := (s.put (MAC_PORT_STAT_LINK p) up).put (MAC_PORT_STAT_LINK_CHG p) true
    if !up && s.rd (MAC_MM_CFG_VERIFY_ST p) != 0 then verifyStart p s else s

/-- What the PCS of a logical port reports: lock of the physical port's lanes, alignment of the sub-port, local fault, Remote
Fault received, no fault sequence for 1 ms, the symbol error rate test. -/
structure PcsReading where
  lanes : Nat
  aligned : Bool
  localF : Bool
  remoteF : Bool
  quiet : Bool
  hiSer : Bool

/-- The PCS of a logical port changes. -/
def linkChange (p : Nat) (r : PcsReading) (s : State) : State :=
  if !pcsOn s p then s
  else
    let P := p % 16
    let brk := s.rd (MAC_PHY_CTL_BRK P)
    let mask := subLanes brk (p / 16)
    let pcs := r.aligned && (r.lanes &&& mask) == mask
    let s := s.setMacPort p { s.macPort p with pcs := pcs, quiet := r.quiet }
    let s := (s.wr (MAC_PHY_STAT_LANE_LOCK P) r.lanes).put (MAC_PHY_STAT_HI_SER P) r.hiSer
    let s := s.put (MAC_PHY_STAT_ALIGN P) ((List.range (subCount brk)).all (fun i => (s.macPort (P + 16 * i)).pcs))
    macLink p ((s.put (MAC_PORT_STAT_LOCAL_F p) r.localF).put (MAC_PORT_STAT_REMOTE_F p) r.remoteF)

/-- The lanes of a physical port go down, and frames in progress end (R279). -/
def phyDown (P : Nat) (s : State) : State :=
  let s := ((s.wr (MAC_PHY_STAT_LANE_LOCK P) 0).put (MAC_PHY_STAT_ALIGN P) false).put (MAC_PHY_STAT_HI_SER P) false
  (List.range 4).foldl (fun s i =>
    let p := P + 16 * i
    let s := s.setMacPort p { s.macPort p with pcs := false, quiet := false, pfcOut := [], pre := none }
    macLink p (((s.setToMac p []).put (MAC_PORT_STAT_LOCAL_F p) false).put (MAC_PORT_STAT_REMOTE_F p) false)) s

/-- A fibre's light falls below, or rises to, +16 dBm (R281). -/
def clientLight (P : Nat) (low : Bool) (s : State) : State :=
  let was := s.bit (MAC_PHY_STAT_LIGHT_LOW P)
  let s := s.put (MAC_PHY_STAT_LIGHT_LOW P) low
  if low && !was then fltEvent blkMAC P s else s

/-- Frames in progress end as the safe state is entered, or MAC is stopped (R284): those handed to the MAC. -/
def macSafe (s : State) : State :=
  (List.range 64).foldl (fun s p => (s.setToMac p []).setMacPort p { s.macPort p with pre := none }) s

/-! ### Receive (R285 to R288, R290, R293) -/

/-- VID and PCP of the tag directly after SA (R287). -/
def firstTag (l : Bytes) : Option (Nat × Nat) :=
  let t := beAt l 12 2
  if t = 0x8100 ∨ t = 0x88A8 then some (beAt l 14 2 % 4096, beAt l 14 2 / 8192) else none

/-- The filter that a frame matches, lowest number first (R286). -/
def filterOf (s : State) (p : Nat) (l : Bytes) : Option Nat :=
  let et := beAt l (typeOff l) 2
  (List.range 16).find? (fun n =>
    s.bit (MAC_FLT_EN p n) && (!s.bit (MAC_FLT_M_ET p n) || s.rd (MAC_FLT_ETYPE p n) == et) &&
      (!s.bit (MAC_FLT_M_VID p n) ||
        (firstTag l).elim false (fun t =>
          (s.rd (MAC_FLT_VID p n) ^^^ t.1) &&& s.rd (MAC_FLT_VID_MASK p n) == 0)))

/-- The receive queue of a frame, or none where its filter drops it (R286). -/
def rxQueue (s : State) (p : Nat) (l : Bytes) : Option Nat :=
  match filterOf s p l with
  | some n => if s.bit (MAC_FLT_DROP p n) then none else some (s.rd (MAC_FLT_QUEUE p n))
  | none => some (match firstTag l with
    | some t => s.rd (MAC_PCP_MAP_QMAP p) / 8 ^ t.2 % 8
    | none => s.rd (MAC_PORT_CFG_DEF_Q p))

/-- A received PFC frame sets pause timers (R290). -/
def pfcReceive (p : Nat) (l : Bytes) (s : State) : State :=
  let o := typeOff l + 2
  let vec := beAt l (o + 2) 2 &&& s.rd (MAC_PFC_CFG_PFC_RX p)
  let m := s.macPort p
  let pause := (List.range 8).map (fun t => if vec.testBit t then beAt l (o + 4 + 2 * t) 2 else m.pause.getD t 0)
  let shown := ((List.range 8).map (fun t => if pause.getD t 0 = 0 then 0 else 2 ^ t)).sum
  let at_ := (List.range 8).map (fun t => if vec.testBit t then some s.ticks else m.pauseAt.getD t none)
  (s.setMacPort p { m with pause := pause, pauseAt := at_ }).wr (MAC_PFC_STAT_PAUSED p) shown

/-- A pause timer reaches 0; a reload in the same clock wins (R290). -/
def pauseEnds (p t : Nat) (s : State) : State :=
  let m := s.macPort p
  if m.pauseAt.getD t none = some s.ticks then s
  else (s.setMacPort p { m with pause := setAt m.pause t 0 }).clrBit (MAC_PFC_STAT_PAUSED p) t

/-- What MACsec makes of an accepted frame: dropped, or the frame that enters the pipeline (R293). -/
def secReceive (p : Nat) (l : Bytes) (s : State) : Option Bytes × State :=
  let o := typeOff l
  let et := beAt l o 2
  if !s.bit (MAC_SEC_CFG_RX_EN p) || et == 0x888E then (some l, s)
  else if et ≠ 0x88E5 then (none, macInc p 11 s)
  else
    let tci := beAt l (o + 2) 1
    let hasSci := tci.testBit 5
    let hdr := o + (if hasSci then 16 else 8)
    let sci := if hasSci then beAt l (o + 8) 8 else (s.reg (MAC_SEC_SCI p).addr).toNat
    match (List.range 4).find? (fun n =>
        (s.reg (MAC_SEC_RXSC p n).addr).toNat != 0 && (s.reg (MAC_SEC_RXSC p n).addr).toNat == sci) with
    | none => (none, macInc p 11 s)
    | some sc =>
      let rest := l.length - 4 - hdr - 16
      let sl := beAt l (o + 3) 1 % 64
      let n := if sl = 0 ∨ rest < sl then rest else sl
      let data := slice l hdr n
      let tag := slice l (hdr + n) 16
      let enc := tci.testBit 3
      let r := saDecrypt (p * 16 + sc * 4 + tci % 4) (beAt l (o + 4) 4)
        (l.take hdr ++ if enc then [] else data) (if enc then data else []) tag s
      match r.1 with
      | .good plain =>
        let d := r.2.draw
        (some (l.take o ++ (if enc then plain else data) ++ beBytes 4 d.1.toNat), d.2)
      | _ => (none, macInc p 11 r.2)

/-- A reading moved by picoseconds (R307). -/
def stampAdjust (t : Tod) (ps : Int) : Tod := Tod.ofTotal (t.total + psUnits ps * 2 ^ 32)

/-- A frame arrives at a logical port: its bytes, whether it holds an error code or an uncorrectable FEC codeword, the
non-final fragments it came in, a reassembly error (R283 to R293). Its time-stamp is the counter's reading (R307). -/
def macReceive (p : Nat) (l : Bytes) (err : Bool) (frags : Nat) (assy : Bool) (s : State) : State :=
  let t := s.tod.cut
  if !portLive s p then s
  else if !macRuns s || !s.bit (MAC_PORT_STAT_LINK p) then macInc p 12 s
  else
    let s := if s.bit (MAC_MM_CFG_MM_EN p) then macAdd p 20 frags s else s
    let n := l.length
    if assy then macInc p 21 s
    else if err then macInc p 5 s
    else if n < 64 then macInc p 3 s
    else if s.rd (MAC_PORT_CFG_MAXLEN p) < n then macInc p 4 s
    else if l.drop (n - 4) ≠ fcsBytes (l.take (n - 4)) then macInc p 2 s
    else if beAt l (typeOff l) 2 = 0x8808 then
      let op := beAt l (typeOff l + 2) 2
      if op = 0x0101 then pfcReceive p l (macInc p 8 s)
      else if op = 0x0001 then macInc p 9 s
      else s
    else
      let s := macAdd p 1 n (macInc p 0 s)
      let da := beAt l 0 6
      let s := if da = 2 ^ 48 - 1 then macInc p 7 s else if (beAt l 0 1).testBit 0 then macInc p 6 s else s
      match rxQueue s p l with
      | none => macInc p 10 s
      | some q =>
        let r := secReceive p l s
        match r.1 with
        | none => r.2
        | some b =>
          if r.2.runs blkPRS && pipeOn r.2 (pipeOf 1 p) then
            enterPipe { bytes := b, dir := 1, src := p, sid := 0, rxq := some q,
                        ingress := stampAdjust t (signed 16 (s.rd (TIM_PORT_CFG_RX_LAT p))) } r.2
          else macInc p 12 r.2

/-- A frame arrives from the fibre: under LOOP = 1 the port receives its own transmission instead, and under LOOP = 2 the
frame goes back to the transmitters as well (Table 12.2). -/
def macArrive (p : Nat) (l : Bytes) (err : Bool) (frags : Nat) (assy : Bool) (s : State) : State :=
  let loop := s.rd (MAC_PHY_CTL_LOOP (p % 16))
  if loop = 1 then s
  else if loop = 2 ∧ portLive s p then
    macReceive p l err frags assy (s.setMacPort p { s.macPort p with sent := some l })
  else macReceive p l err frags assy s

/-! ### Flow control, generated (R288) -/

/-- RXQ_CELLS: on-die upstream cells of packets that entered through queue `q` of port `p`, those of bursts not yet left
among them. -/
def rxqCells (s : State) (p q : Nat) : Nat :=
  let mine (x : QPkt) : Bool := x.inPort == p && x.rxq == some q
  let queued := (s.cel.queues.map (fun (e : Nat × LeafQ) =>
    if dirOf e.1 = 1 then ((e.2.pkts.filter mine).map (fun (x : QPkt) => cellsOnDie x.cells)).sum else 0)).sum
  let sent := (s.ube.chans.map (fun (e : Nat × UbeCh) => (e.2.bursts.map (fun (b : Burst) =>
    ((b.pieces.filter (fun (x : Piece) => x.last && mine x.pkt)).map (fun (x : Piece) => cellsOnDie x.pkt.cells)).sum)).sum)).sum
  queued + sent

/-- Free upstream shared cells. -/
def freeShared (s : State) : Nat := fieldOf (s.reg CEL_FREE_US.addr) 20 20

/-- Whether a queue is in XOFF from now on. -/
def xoffNext (s : State) (p q : Nat) : Bool :=
  let c := rxqCells s p q
  let on := (s.rd (MAC_PFC_STAT_XOFF p)).testBit q
  (s.rd (MAC_PFC_CFG_PFC_TX p)).testBit q &&
    (if on then !(decide (c ≤ s.rd (MAC_PFC_CFG_XON_TH p)) && decide (s.rd MAC_PFC_POOL_POOL_XON ≤ freeShared s))
     else decide (s.rd (MAC_PFC_CFG_XOFF_TH p) < c) || decide (freeShared s < s.rd MAC_PFC_POOL_POOL_XOFF))

/-- Puts a PFC frame ahead of every queued frame. -/
def pfcQueue (p : Nat) (l : List (Nat × Nat)) (s : State) : State :=
  if l.isEmpty then s else s.setMacPort p { s.macPort p with pfcOut := (s.macPort p).pfcOut ++ [l] }

/-- Queues that enter or leave XOFF share one PFC frame. A queue whose PFC_TX bit has been cleared leaves XOFF unannounced. -/
def pfcChange (p : Nat) (s : State) : State :=
  if !portLive s p || !macRuns s then s
  else
    let old := s.rd (MAC_PFC_STAT_XOFF p)
    let changed := (List.range 8).filter (fun q => xoffNext s p q != old.testBit q)
    let s' := s.wr (MAC_PFC_STAT_XOFF p) (((List.range 8).map (fun q => if xoffNext s p q then 2 ^ q else 0)).sum)
    pfcQueue p ((changed.filter (fun q => (s.rd (MAC_PFC_CFG_PFC_TX p)).testBit q)).map (fun q =>
      (q, if old.testBit q then 0 else s.rd (MAC_PFC_CFG_PFC_TIME p)))) s'

/-- While XOFF holds the frame is sent again. -/
def pfcRefresh (p : Nat) (s : State) : State :=
  if !portLive s p || !macRuns s then s
  else pfcQueue p ((maskList 8 (s.rd (MAC_PFC_STAT_XOFF p) &&& s.rd (MAC_PFC_CFG_PFC_TX p))).map (fun q =>
    (q, s.rd (MAC_PFC_CFG_PFC_TIME p)))) s

/-- The bytes of a PFC frame: its source address is a free value, since the spec names none. -/
def pfcFrame (l : List (Nat × Nat)) (sa : Nat) : Bytes :=
  let t (q : Nat) : Nat := ((l.find? (fun e => e.1 == q)).map (·.2)).getD 0
  let b := beBytes 6 0x0180C2000001 ++ beBytes 6 sa ++ beBytes 4 0x88080101
    ++ beBytes 2 ((l.map (fun e => 2 ^ e.1)).sum) ++ ((List.range 8).map (fun q => beBytes 2 (t q))).flatten
  padTo 60 b ++ fcsBytes (padTo 60 b)

/-! ### Transmit (R289, R291, R292) -/

/-- The sublayer preempts: enabled and verified, or left unverified by VERIFY_DIS and not disabled by a failure (R291). -/
def mmActive (s : State) (p : Nat) : Bool :=
  s.bit (MAC_MM_CFG_MM_EN p) &&
    (s.rd (MAC_MM_CFG_VERIFY_ST p) == 3 || (s.bit (MAC_MM_CFG_VERIFY_DIS p) && s.rd (MAC_MM_CFG_VERIFY_ST p) != 4))

/-- The minimum non-final fragment F_MIN. -/
def fMin (s : State) (p : Nat) : Nat := 64 * (1 + s.rd (MAC_MM_CFG_ADD_FRAG p))

/-- A class is preemptable on a port (R245, R291). -/
def preemptable (s : State) (p tc : Nat) : Bool :=
  mmActive s p && s.bit (GCL_PREEMPT_PREEMPT_EN p) && (s.rd (GCL_PREEMPT_PMASK p)).testBit tc

/-- A verification attempt; `resp`: the one before has been answered (R291). -/
def verifyOwn (p : Nat) (resp : Bool) (s : State) : State :=
  let st := s.rd (MAC_MM_CFG_VERIFY_ST p)
  let m := s.macPort p
  if !portLive s p || !macRuns s || !s.bit (MAC_PORT_STAT_LINK p) || !(st == 1 || st == 2) then s
  else if resp && st == 2 then s.wr (MAC_MM_CFG_VERIFY_ST p) 3
  else if m.attempts < 3 then
    (s.setMacPort p { m with attempts := m.attempts + 1 }).wr (MAC_MM_CFG_VERIFY_ST p) 2
  else s.wr (MAC_MM_CFG_VERIFY_ST p) 4

/-- The verification time of a port; `peer`: the link partner has asked for verification since the last one, and is answered while the
port runs the sublayer (R291; PRESUMED from IEEE 802.3br, log 18). -/
def verifyAttempt (p : Nat) (resp peer : Bool) (s : State) : State :=
  let s := verifyOwn p resp s
  if peer && s.bit (MAC_MM_CFG_MM_EN p) && portLive s p && macRuns s && s.bit (MAC_PORT_STAT_LINK p) then
    s.setMacPort p { s.macPort p with answered := (s.macPort p).answered + 1 }
  else s

/-- A packet padded to 60 bytes before its FCS, its last four bytes dropped (R289). -/
def macPad (l : Bytes) : Bytes := padTo 60 (l.take (l.length - 4))

/-- Tags that follow SA, at most two. -/
def tagCount (l : Bytes) : Nat := (typeOff l - 12) / 4

/-- MACsec protects a frame (R292). -/
def secured (s : State) (p : Nat) (l : Bytes) : Bool :=
  let et := beAt l (typeOff l) 2
  s.bit (MAC_SEC_CFG_TX_EN p) && et != 0x888E && et != 0x8808

/-- Bytes of the frame that a packet becomes (R289). -/
def wireLen (s : State) (p : Nat) (l : Bytes) : Nat := max 64 l.length + (if secured s p l then 32 else 0)

/-- A packet waits for the queue of MACsec's requests (R251). -/
def secWaits (s : State) (p : Nat) (l : Bytes) : Bool :=
  let a := s.txSa (p * 4 + s.rd (MAC_SEC_CFG_TX_AN p))
  secured s p l && a.valid && !a.exh && cipFull s .macTx

/-- The frame as it is protected, without FCS, or none where the association or its key refuses it (R292). -/
def secTransmit (p : Nat) (l : Bytes) (s : State) : Option Bytes × State :=
  if !secured s p l then (some l, s)
  else
    let o := 12 + 4 * min (s.rd (MAC_SEC_CFG_CLEAR_TAGS p)) (tagCount l)
    let data := l.drop o
    let conf := s.bit (MAC_SEC_CFG_TX_CONF p)
    let an := s.rd (MAC_SEC_CFG_TX_AN p)
    let hdr (pn : Nat) : Bytes :=
      l.take o ++ beBytes 2 0x88E5 ++ [byte (0x20 + (if conf then 0x0C else 0) + an),
        byte (if data.length < 48 then data.length else 0)] ++ beBytes 4 pn ++ wordBytes (s.reg (MAC_SEC_SCI p).addr)
    let r := saEncrypt (p * 4 + an) (fun pn => hdr pn ++ if conf then [] else data) (if conf then data else []) s
    (r.1.map (fun x => hdr x.1 ++ (if conf then [] else data) ++ x.2), r.2)

/-- A frame leaves: it is counted, and it is what the port last sent (under LOOP = 2 the lanes carry the
received frames). Under LOOP = 1 the port receives it (Table 12.2). -/
def frameOut (p : Nat) (l : Bytes) (s : State) : State :=
  let s := macAdd p 14 l.length (macInc p 13 s)
  let s := if beAt l 0 6 = 2 ^ 48 - 1 then macInc p 16 s else if (beAt l 0 1).testBit 0 then macInc p 15 s else s
  let loop := s.rd (MAC_PHY_CTL_LOOP (p % 16))
  let s := if loop = 2 then s else s.setMacPort p { s.macPort p with sent := some l }
  if loop = 1 then macReceive p l false 0 false s else s

/-- The frame of a packet at its egress time: corrected, or given its time of transmission; and the entry of the time-stamp queue
that it gives once it is sent (R309, R310, R312). -/
def ptpTransmit (p : Nat) (x : QPkt) (t : Tod) (s : State) : Bytes × Option TsqEntry :=
  match ptpAt x.bytes with
  | none => (x.bytes, none)
  | some m =>
    if x.origin then
      if s.bit (TIM_PORT_CFG_ONE_STEP p) && ptpType x.bytes m == 0 && !ptpTwoStep x.bytes m then
        (ptpOneStep m t x.bytes, none)
      else
        (x.bytes, if s.bit (TIM_PORT_CFG_TS_TX p) then
          some { t := t, mt := ptpType x.bytes m, dom := ptpDomain x.bytes m, seq := ptpSeq x.bytes m } else none)
    else if s.bit (TIM_PORT_CFG_TC_EN p) then
      (ptpCorrect m (residence s p x.ingress t ((pairDelays s x.inPort).map (·.1))) x.bytes, none)
    else (x.bytes, none)

/-- Sends one packet whole (R289): its words are checked as they leave the buffer, and a packet that is poisoned or holds a word that
cannot be corrected is dropped and reported as contained (R21). -/
def sendPacket (p : Nat) (x : QPkt) (c : Checks) (s : State) : State :=
  if x.poisoned then fltSourceEvent blkCEL s
  else
    let k := checkPacket blkMAC p c x.bytes s
    let s := k.2.2
    if k.2.1 then s
    else
      let t := stampAdjust s.tod.cut (signed 16 (s.rd (TIM_PORT_CFG_TX_LAT p)))
      let r := ptpTransmit p { x with bytes := k.1 } t s
      let f := secTransmit p (macPad r.1) s
      match f.1 with
      | none => f.2
      | some b =>
        let s := frameOut p (b ++ fcsBytes b) f.2
        match r.2 with
        | some e => tsqPush p e s
        | none => s

/-- A packet of the MAC is sent, unless it must wait for MACsec. -/
def macSend (p : Nat) (e : Nat × QPkt) (c : Checks) (s : State) : State :=
  if secWaits s p e.2.bytes then s else sendPacket p e.2 c (s.setToMac p ((s.toMac p).erase e))

/-! ### Preemption (R245, R246, R291) -/

/-- Bytes sent of a preemptable packet's present fragment. -/
def preSent (s : State) (p : Nat) (x : PreTx) : Nat :=
  if x.running then ((s.tod.total - x.start) * macRate s p / (8 * 2 ^ 48 : Int)).toNat else 0

/-- The preemptable packet in the MAC of a port. -/
def prePacket (s : State) (p : Nat) : Option (Nat × QPkt) := (s.toMac p).find? (fun e => preemptable s p e.1)

/-- A preemptable packet is in progress. -/
def preBusy (s : State) (p : Nat) : Bool := (s.macPort p).pre.any (fun x => decide (0 < preSent s p x))

/-- Preemptable traffic is held back on a port: hold is asserted, or the packet's gate is closed (R245, R246). -/
def preHeld (s : State) (p : Nat) : Bool :=
  (prePacket s p).any (fun e => s.bit (GCL_OPER_HOLD p) || !(gatesAt s p s.nowNs).testBit e.1)

/-- The preemptable packet in progress is preempted at the first boundary: its fragment has F_MIN bytes or more, and leaves at least
64 (PRESUMED from IEEE 802.3br, log 18). A packet of which the fragment has not begun waits, and is not counted. -/
def preempt (p : Nat) (s : State) : State :=
  let m := s.macPort p
  match m.pre, prePacket s p with
  | some x, some e =>
    if !x.running then s
    else
      let n := preSent s p x
      let cut := max (fMin s p) n
      if n = 0 then s.setMacPort p { m with pre := some { x with running := false } }
      else if x.sent + cut + 64 ≤ wireLen s p e.2.bytes then
        (macInc p 19 (s.setMacPort p { m with pre := some { x with sent := x.sent + cut, running := false } })).inc (GCL_CNT_PREEMPT p)
      else s
  | _, _ => s

/-- Its continuation is the first preemptable traffic sent once nothing holds it back (R245). -/
def preResume (p : Nat) (s : State) : State :=
  let m := s.macPort p
  match m.pre with
  | some x =>
    if x.running || preHeld s p || (s.toMac p).any (fun e => !preemptable s p e.1) then s
    else s.setMacPort p { m with pre := some { x with start := max s.tod.total m.ends, running := true } }
  | none => s

/-- The gates of a port, or hold, have changed. -/
def preFollow (p : Nat) (s : State) : State := if preHeld s p then preempt p s else preResume p s

/-- The preemptable packet is sent to its end. -/
def preFinish (p : Nat) (e : Nat × QPkt) (c : Checks) (s : State) : State :=
  if secWaits s p e.2.bytes then s
  else macSend p e c (s.setMacPort p { s.macPort p with pre := none })

/-- The MAC sends: a waiting PFC frame first, after a frame in progress; then an express packet, which preempts a preemptable one in
progress; then a preemptable one, which waits while hold is asserted or its gate is closed (R245, R246, R288). With LINK = 0 a packet
handed over under DROP_DOWN is discarded (R283). -/
def macTransmit (p : Nat) (c : Checks) (s : State) : State :=
  if !portLive s p || !macRuns s then s
  else if !s.bit (MAC_PORT_STAT_LINK p) then
    if s.bit (MAC_PORT_CFG_DROP_DOWN p) then
      match s.toMac p with
      | [] => s
      | _ :: rest => macInc p 18 ((s.setToMac p rest).setMacPort p { s.macPort p with pre := none })
    else s
  else
    let s := if preHeld s p then preempt p s else s
    let pre := prePacket s p
    match (s.macPort p).pfcOut, (s.toMac p).find? (fun e => !preemptable s p e.1), pre with
    | f :: rest, _, _ =>
      match pre with
      | some e => if preBusy s p then preFinish p e c s else pfcSend f rest s
      | none => pfcSend f rest s
    | [], some e, _ =>
      let s := preempt p s
      match pre with
      | some x => if preBusy s p then preFinish p x c s else preResume p (macSend p e c s)
      | none => macSend p e c s
    | [], none, some e => if preHeld s p then s else preFinish p e c s
    | [], none, none => s
where
  /-- A PFC frame is sent. -/
  pfcSend (f : List (Nat × Nat)) (rest : List (List (Nat × Nat))) (s : State) : State :=
    let d := s.draw
    let s := d.2.setMacPort p { d.2.macPort p with pfcOut := rest }
    macInc p 17 (frameOut p (pfcFrame f d.1.toNat) s)

/-! ### Downstream selection (R228, R229, R244, R245) -/

/-- The instant at which a packet of one kind would start (R244): after the previous packet of the port, but for a preemptable one
that it preempts. -/
def startTime (s : State) (p : Nat) (pre : Bool) : Int :=
  let m := s.macPort p
  max s.tod.total (if pre then max m.ends m.preEnds else m.ends)

/-- A packet of class `tc` of `len` bytes ends before its gate, which is open as it starts, next closes (R244, R245). -/
def gateFits (s : State) (p tc len : Nat) (pre : Bool) : Bool :=
  let t0 := startTime s p pre
  let n := (if pre then min len (fMin s p) else len) + s.rd (GCL_PREEMPT_GB_ADJ p)
  (gatesAt s p (t0 / (2 ^ 48 : Int))).testBit tc &&
    match gateCloses s p tc (t0 / (2 ^ 48 : Int)) with
    | none => true
    | some c => decide (t0 * macRate s p + (n : Int) * 8 * 2 ^ 48 ≤ c * 2 ^ 48 * macRate s p)

/-- What the port asks of a service node for packets of one kind: its class is not paused, its gate open, and it is not
passed over (R228, R244, R248). -/
def nodeOpen (s : State) (p : Nat) (pre : Bool) (n : Nat) : Bool :=
  let tc := (s.svc n).tc
  preemptable s p tc == pre && ((s.macPort p).pause.getD tc 0 == 0) && (gatesAt s p s.nowNs).testBit tc &&
    !(s.gclPort p).held.contains n

/-- The port can take a packet of one kind (R228, R283, R284): no packet of that kind waits in the MAC. -/
def macReady (s : State) (p : Nat) (pre : Bool) : Bool :=
  portLive s p && macRuns s && (s.bit (MAC_PORT_STAT_LINK p) || s.bit (MAC_PORT_CFG_DROP_DOWN p)) &&
    (s.toMac p).all (fun e => preemptable s p e.1 != pre)

/-- Service nodes whose packet does not fit before its gate closes are passed over until it reopens; each hold is counted
once (R244). -/
def guardBand (p : Nat) (pre : Bool) (s : State) : State :=
  let open_ := svcCandidates s (fun _ => false) (fun n _ => nodeOpen s p pre n) p
  open_.foldl (fun s e =>
    match (s.lq e.2).pkts with
    | [] => s
    | x :: _ =>
      if gateFits s p (s.svc e.1).tc x.bytes.length pre then s
      else
        let g := s.gclPort p
        (s.setGclPort p { g with held := g.held ++ [e.1] }).inc (GCL_CNT_GB_HOLD p)) s

/-- The selected packet leaves its queue, is charged and is handed to the MAC; a poisoned one is dropped and reported (R21,
R208, R231). -/
def takeSelected (p n key : Nat) (s : State) : State :=
  match (s.lq key).pkts with
  | [] => s
  | x :: _ =>
    let len := x.bytes.length
    let amount := dsCharge s len
    let s := advanceTags n key amount (chargeNow (chargeOf s n key amount) s)
    let s := leafTouch key (freeCells key x.cells (popHead key s))
    if x.poisoned then fltSourceEvent blkCEL s
    else
      let m := s.macPort p
      let tc := (s.svc n).tc
      let pre := preemptable s p tc
      let start := startTime s p pre
      let d : Int := ((wireLen s p x.bytes + 20) * 8 * 2 ^ 48 / macRate s p : Nat)
      let m := if pre then { m with preEnds := start + d, pre := some { start := start } }
        else { m with ends := start + d, preEnds := if m.pre.isSome then m.preEnds + d else m.preEnds }
      (s.setMacPort p m).setToMac p (s.toMac p ++ [(tc, x)])

/-- One selection of one kind at a port. -/
def selectKind (p : Nat) (pre : Bool) (s : State) : Option State :=
  if macReady s p pre then
    let s := guardBand p pre s
    match portPick s (fun _ => false) (fun n _ => nodeOpen s p pre n) p with
    | some e => some (takeSelected p e.1 e.2 s)
    | none => some s
  else none

/-- A selection at a downstream port: express packets first (R229, R245). -/
def scheduleSelect (p : Nat) (s : State) : State :=
  if !s.runs blkSCH then s
  else
    let had := (s.toMac p).length
    let a := (selectKind p false s).getD s
    if had < (a.toMac p).length then a else (selectKind p true a).getD a

/-! ### Registers -/

/-- Writes of MAC registers: value, state before, state with the plain fields stored. -/
def macWrite (a : Nat) (v : Word) (o s : State) : State :=
  let u := a % 0x1000000 / 0x10000
  if 0x40 ≤ u ∧ u < 0x50 ∧ a = (MAC_PHY_CTL (u - 0x40)).addr then
    let P := u - 0x40
    let on := o.bit (MAC_PHY_CTL_EN P)
    let changes := fieldOf v 61 2 != o.rd (MAC_PHY_CTL_BRK P) || fieldOf v 59 2 != o.rd (MAC_PHY_CTL_LOOP P)
    if fieldOf v 61 2 = 3 then (if on then o.put (MAC_PHY_STAT_BRK_WWR P) true else o)
    else if on && changes then o.put (MAC_PHY_STAT_BRK_WWR P) true
    else if on && !s.bit (MAC_PHY_CTL_EN P) then phyDown P s
    else s
  else if 64 ≤ u then s
  else if a = (MAC_PFC_CFG u).addr then
    s.wr (MAC_PFC_CFG_XON_TH u) (min (s.rd (MAC_PFC_CFG_XON_TH u)) (s.rd (MAC_PFC_CFG_XOFF_TH u)))
  else if a = (MAC_PORT_CFG u).addr then macLink u s
  else if a = (MAC_MM_CFG u).addr then
    let same := s.bit (MAC_MM_CFG_MM_EN u) == o.bit (MAC_MM_CFG_MM_EN u)
    let dis := s.bit (MAC_MM_CFG_VERIFY_DIS u)
    if same && dis == o.bit (MAC_MM_CFG_VERIFY_DIS u) then s
    else if same && dis && o.rd (MAC_MM_CFG_VERIFY_ST u) == 4 then s
    else verifyStart u s
  else s

end Sys2Proof.Machine
end

