-- ==== Sys2Proof/Machine/TskOps.lean ====
section
/-! DEFINITION. The task scheduler, its trace, and the access windows (R316 to R332). -/

namespace Sys2Proof.Machine

/-! ### Trace (R331) -/

/-- The ring's size as an exponent: outside 8 to 24 the nearest end. -/
def traceSize (s : State) : Nat := clamp 8 24 (s.rd TSK_TRC_CTL_SIZE)

/-- A trace record is dropped. -/
def traceLost (s : State) : State :=
  (s.addTo ⟨TSK_TRC_LOST.addr, 0, 64⟩ 1).put TSK_EVT_TRC_LOST true

/-- Writes one trace record of Table 14.6 to the ring, or drops it. -/
def tskTrace (type core task prio info : Nat) (s : State) : State :=
  if !s.bit TSK_TRC_CTL_EN then s
  else
    let prod := s.rd TSK_TRC_CTL_PROD
    let cons := s.rd TSK_TRC_CTL_CONS
    let full := decide (2 ^ traceSize s ≤ (prod + 2 ^ 25 - cons) % 2 ^ 25)
    if full && !s.bit TSK_TRC_CTL_WRAP then traceLost s
    else
      let w0 := s.tod.s % 2 ^ 16 * 2 ^ 48 + s.tod.ns * 2 ^ 16 + s.tod.fr
      let w1 := type * 2 ^ 60 + core * 2 ^ 57 + task * 2 ^ 44 + prio * 2 ^ 40 + info % 2 ^ 32
      let a := s.rd TSK_TRC_BASE_BASE + 16 * (prod % 2 ^ traceSize s)
      let s := devWrite a (beBytes 8 w0 ++ beBytes 8 w1) s
      let s := if full then s.wr TSK_TRC_CTL_CONS (cons + 1) else s
      s.wr TSK_TRC_CTL_PROD (prod + 1)

/-! ### Readiness (R320) -/

/-- The conditions of R320. -/
def Task.wants (t : Task) : Bool := t.en && (t.evt &&& t.mask) != 0 && t.dep == 0

/-- Shows READY tasks and queued posts in TSK_STATUS. -/
def showTsk (s : State) : State :=
  (s.wr TSK_STATUS_READY s.tsk.readyOrder.length).wr TSK_STATUS_PQ s.tsk.posts.length

/-- One task takes its state by the conditions of R320: a task that becomes READY joins the end of its level. -/
def settleTask (n : Nat) (s : State) : State :=
  let t := s.task n
  if t.st = .idle && t.wants then
    let s := s.setTask n { t with st := .ready }
    tskTrace 1 0 n t.prio 0 { s with tsk := { s.tsk with readyOrder := s.tsk.readyOrder ++ [n] } }
  else if t.st = .ready && !t.wants then
    let s := s.setTask n { t with st := .idle }
    { s with tsk := { s.tsk with readyOrder := s.tsk.readyOrder.filter (· != n) } }
  else s

/-- A TSK clock: every task takes its state, lower task number first. -/
def tskSettle (s : State) : State :=
  if s.runs blkTSK then showTsk ((s.tsk.tasks.map (·.1)).foldl (fun s n => settleTask n s) s) else showTsk s

/-! ### Flags (R321, Table 14.2) -/

/-- Sets a flag bit of a task, whatever its EN or state. -/
def setFlag (n flag : Nat) (s : State) : State := s.setTask n { s.task n with evt := withBit (s.task n).evt flag true }

/-- The condition of a level source holds. Sources 10 and 14 are raised once per occurrence; 32 to 63 are never raised. -/
def sourceHolds (s : State) (n : Nat) : Bool :=
  if n = 0 then !s.act.rxq.isEmpty
  else if n ≤ 8 then s.rd (CLS_SPQ_PROD (n - 1)) != s.rd (CLS_SPQ_CONS (n - 1))
  else if n = 9 then (List.range 4).any (fun i => s.reg (CIP_PNTHR i).addr != 0)
  else if n = 11 then s.rd FLW_AGEQ_PROD != s.rd FLW_AGEQ_CONS
  else if n = 12 then (List.range 64).any (fun i => (s.frec i).valid && decide (1 ≤ (s.frec i).react))
  else if n = 13 then s.reg PWR_EVT.addr != 0
  else if n = 15 then s.bit ACU_FAULT_INFO_VALID
  else if 16 ≤ n ∧ n ≤ 31 then s.reg (ACT_CP_EVT (n - 16)).addr != 0
  else false

/-- Routes one occurrence of a source to its task (TSK_SRC). -/
def routeSource (n : Nat) (s : State) : State :=
  if s.bit (TSK_SRC_EN n) then setFlag (s.rd (TSK_SRC_TASK n)) (s.rd (TSK_SRC_FLAG n)) s else s

/-- Every level source whose condition holds keeps its flag set. -/
def levelSources (s : State) : State :=
  (List.range 32).foldl (fun s n => if sourceHolds s n then routeSource n s else s) s

/-- The next TSK clock: level sources, then states. -/
def tskClock (s : State) : State := if s.runs blkTSK then tskSettle (levelSources s) else s

/-- An occurrence of source `n`: a level source only while its condition holds. -/
def hwEvent (n : Nat) (s : State) : State :=
  if !s.runs blkTSK then s
  else if n = 10 ∨ n = 14 ∨ sourceHolds s n then tskClock (routeSource n s) else tskClock s

/-! ### Posts (R322) -/

/-- A hart stores to TSK_POST: queued, or the hart stalls with its post while the queue is full. -/
def taskPost (core task flag : Nat) (s : State) : State :=
  if s.tsk.posts.length < 1024 then
    showTsk { s with tsk := { s.tsk with posts := s.tsk.posts ++ [(task, flag)] } }
  else
    let s := s.inc TSK_CNT_STALL
    tskTrace 7 0 0 0 core { s with tsk := { s.tsk with stalled := s.tsk.stalled ++ [(core, task, flag)] } }

/-- The queue applies its oldest post, and the post that has been stalled longest takes the place that frees. -/
def postApply (s : State) : State :=
  if !s.runs blkTSK then s
  else match s.tsk.posts with
    | [] => tskClock s
    | (task, flag) :: rest =>
      let s :=
        match s.tsk.stalled with
        | [] => { s with tsk := { s.tsk with posts := rest } }
        | (_, t, f) :: more => { s with tsk := { s.tsk with posts := rest ++ [(t, f)], stalled := more } }
      tskClock (setFlag task flag s)

/-! ### Assignment (R323) -/

/-- Core `c` may be given a task. -/
def coreIdle (s : State) (c : Nat) : Bool :=
  s.bit (TSK_CORE_CMD_ACCEPT c) && !s.bit (TSK_CORE_CUR_VALID c) && !(s.hart c).isolated

/-- READY tasks, highest PRIO first, within a PRIO in order of becoming READY. -/
def readyInOrder (s : State) : List Nat := sortBy (fun n => 15 - (s.task n).prio) s.tsk.readyOrder

/-- The core a task is given, if one is idle in its AFF. -/
def coreFor (s : State) (t : Task) : Option Nat :=
  if t.lcV && coreIdle s t.lastCore && t.aff.testBit t.lastCore then some t.lastCore
  else (List.range 8).find? (fun c => coreIdle s c && t.aff.testBit c)

/-- Assigns task `n` to core `c`. -/
def assignTask (n c : Nat) (s : State) : State :=
  let t := s.task n
  let flags := t.evt &&& t.mask
  let s := s.setReg (TSK_CORE_FLG c).addr (BitVec.ofNat 64 flags)
  let s := s.setReg (TSK_CORE_CUR c).addr (BitVec.ofNat 64 (2 ^ 63 + t.prio * 2 ^ 56 + n * 2 ^ 36))
  let s := (s.setReg (TSK_CORE_ENT c).addr (BitVec.ofNat 64 t.entry)).setReg (TSK_CORE_ARG c).addr (BitVec.ofNat 64 t.arg)
  let s := s.setTask n { t with st := .running, evt := t.evt ^^^ flags, lastCore := c, lcV := true }
  let s := { s with tsk := { s.tsk with readyOrder := s.tsk.readyOrder.filter (· != n) } }
  let s := s.setHart c { s.hart c with extInt := true, wfi := false }
  tskTrace 2 c n t.prio flags (s.inc TSK_CNT_ASSIGN)

/-- The scheduler assigns the first task of its order that an idle core can take. -/
def tskAssign (s : State) : State :=
  if !s.runs blkTSK then s
  else match (readyInOrder s).findSome? (fun n => (coreFor s (s.task n)).map (fun c => (n, c))) with
    | some (n, c) => tskClock (assignTask n c s)
    | none => tskClock s

/-! ### Completion and abort (R324, R326) -/

/-- One successor is released: its DEP falls, or DEP_UFL is set, and its flag is set. -/
def releaseSucc (x : Succ) (s : State) : State :=
  if !x.v then s
  else
    let t := s.task x.task
    let s := setFlag x.task x.flag (s.setTask x.task { t with dep := t.dep - 1 })
    if t.dep = 0 then s.put TSK_EVT_DEP_UFL true else s

/-- Core `c` no longer holds a task. -/
def dropTask (c : Nat) (s : State) : State :=
  (s.put (TSK_CORE_CUR_VALID c) false).setHart c { s.hart c with extInt := false }

/-- DONE on core `c`, with or without REQUEUE. -/
def taskDone (c : Nat) (requeue : Bool) (s : State) : State :=
  if !s.bit (TSK_CORE_CUR_VALID c) then s
  else
    let n := s.rd (TSK_CORE_CUR_TASK c)
    let t := s.task n
    let s := dropTask c s
    let s :=
      if requeue then
        s.setTask n { t with st := .idle, evt := t.evt ||| (s.reg (TSK_CORE_FLG c).addr).toNat }
      else
        let s := releaseSucc t.s2 (releaseSucc t.s1 (releaseSucc t.s0 s))
        s.setTask n { s.task n with st := .idle, dep := t.depInit }
    tskClock (tskTrace 3 c n t.prio 0 s)

/-- Hart `c` is reset: the task it holds is aborted (R326), and it restarts at the keeper entry, an address the spec does not
give. -/
def hartReset (c : Nat) (s : State) : State :=
  let d := s.draw
  let s := d.2.setHart c { running := true, mode := .m, pc := d.1.toNat % 2 ^ 48, isolated := (s.hart c).isolated }
  if !s.bit (TSK_CORE_CUR_VALID c) then s
  else
    let n := s.rd (TSK_CORE_CUR_TASK c)
    let t := s.task n
    let s := s.put (TSK_CORE_CUR_VALID c) false
    let s := s.setTask n { t with st := .idle, evt := t.evt ||| (s.reg (TSK_CORE_FLG c).addr).toNat }
    tskClock (tskTrace 6 c n t.prio 0 (s.put TSK_EVT_ABORT true))

/-! ### CANCEL and ENABLE (R325) -/

/-- TSK_TASK_CMD. -/
def taskCmd (op n : Nat) (s : State) : State :=
  let t := s.task n
  if op = 1 then tskClock (tskTrace 4 0 n t.prio 0 (s.setTask n { t with en := false }))
  else if op = 2 then tskClock (tskTrace 5 0 n t.prio 0 (s.setTask n { t with en := true }))
  else s

/-! ### Task contexts (Table 14.3, R332) -/

/-- A word of TSK_IND_DATA. -/
def tskData (s : State) (n : Nat) : Nat := (s.reg (TSK_IND_DATA n).addr).toNat

/-- A successor as DATA5 holds it. -/
def Succ.word (x : Succ) : Nat := b2n x.v * 2 ^ 20 + x.task * 2 ^ 6 + x.flag

/-- A successor from its 21 bits. -/
def Succ.ofWord (n : Nat) : Succ := { v := n.testBit 20, task := n / 2 ^ 6 % 4096, flag := n % 64 }

/-- STATE as DATA0 codes it. -/
def TaskState.code : TaskState → Nat
  | .idle => 0
  | .ready => 1
  | .running => 2

/-- The data words of a context. -/
def taskWords (t : Task) : List Nat :=
  [b2n t.en * 2 ^ 63 + t.st.code * 2 ^ 61 + b2n t.level * 2 ^ 60 + t.prio * 2 ^ 56 + t.aff * 2 ^ 48 + t.lastCore * 2 ^ 45
     + b2n t.lcV * 2 ^ 44 + t.dep * 2 ^ 16 + t.depInit,
   t.mask, t.evt, t.entry, t.arg, t.s2.word * 2 ^ 42 + t.s1.word * 2 ^ 21 + t.s0.word]

/-- The context that a write makes of `t`: every writable field, and DEP reloaded. -/
def taskFrom (t : Task) (d : Nat → Nat) : Task :=
  { t with level := (d 0).testBit 60, prio := d 0 / 2 ^ 56 % 16, aff := d 0 / 2 ^ 48 % 256, depInit := d 0 % 65536,
           dep := d 0 % 65536, mask := d 1, entry := d 3 % 2 ^ 48, arg := d 4, s0 := Succ.ofWord (d 5 % 2 ^ 21),
           s1 := Succ.ofWord (d 5 / 2 ^ 21 % 2 ^ 21), s2 := Succ.ofWord (d 5 / 2 ^ 42 % 2 ^ 21) }

/-- An access through TSK_IND_CMD, or none where it is refused. -/
def tskAccess (s : State) : Option State :=
  let n := s.rd TSK_IND_CMD_INDEX
  let t := s.task n
  if s.bit TSK_IND_CMD_RD then
    some ((taskWords t).zipIdx.foldl (fun s (e : Nat × Nat) => s.setReg (TSK_IND_DATA e.2).addr (BitVec.ofNat 64 e.1)) s)
  else
    let u := taskFrom t (tskData s)
    if t.en ∨ t.st ≠ .idle ∨ u.aff = 0 ∨ [u.s0, u.s1, u.s2].any (fun x => x.v && x.task == n) then none
    else some (s.setTask n u)

/-- Writes of TSK registers: address, value, state before, state with the plain fields stored. -/
def tskWrite (a : Nat) (v : Word) (o s : State) : State :=
  let c := (a - (TSK_CORE_CMD 0).addr) / 16
  if a = TSK_IND_CMD.addr ∧ fieldOf v 63 1 = 1 then
    if o.bit TSK_IND_CMD_GO then o.put TSK_IND_CMD_ERR true
    else match tskAccess s with
      | some t => t
      | none => s.put TSK_IND_CMD_ERR true
  else if a = TSK_TASK_CMD.addr then taskCmd (fieldOf v 62 2) (fieldOf v 0 12) s
  else if a = TSK_TRC_CTL.addr then
    let cons := s.rd TSK_TRC_CTL_CONS
    if (s.rd TSK_TRC_CTL_PROD + 2 ^ 25 - cons) % 2 ^ 25 ≤ 2 ^ traceSize s then s
    else s.wr TSK_TRC_CTL_CONS (o.rd TSK_TRC_CTL_CONS)
  else if (TSK_CORE_CMD 0).addr ≤ a ∧ c < 8 ∧ a = (TSK_CORE_CMD c).addr then
    if fieldOf v 62 1 = 1 then taskDone c (fieldOf v 61 1 == 1) s else tskClock s
  else tskClock s

/-! ### Access windows (R327 to R330) -/

/-- A window allows an access of a level in a direction; for level 3 L3SRC must let the initiator through. -/
def AcuWin.allows (w : AcuWin) (i : Initiator) (wr : Bool) (a : Nat) : Bool :=
  let l := levelOf i
  w.en && decide (w.base * 4096 ≤ a) && decide (a ≤ w.limit * 4096 + 0xFFF) && decide (1 ≤ l) &&
    w.perm.testBit (2 * (l - 1) + b2n wr) &&
    (match i with
     | .host => w.l3src == 0 || w.l3src == 1
     | .mgmt => w.l3src == 0 || w.l3src == 2
     | _ => true)

/-- The numbers of the windows that may be enabled: 0, 1 and those listed. -/
def acuNumbers (s : State) : List Nat := 0 :: 1 :: s.acu.map (·.1)

/-- The windows allow an access (R327): level 0 is never checked. -/
def acuAllows (s : State) (i : Initiator) (wr : Bool) (a : Nat) : Bool :=
  levelOf i == 0 || (acuNumbers s).any (fun n => (s.acuWin n).allows i wr a)

/-- The cache attribute of a Cellar address: the CACHE bit of the lowest-numbered enabled window that contains it. -/
def acuCached (s : State) (a : Nat) : Bool :=
  ((sortBy id (acuNumbers s)).find? (fun n =>
    let w := s.acuWin n
    w.en && decide (w.base * 4096 ≤ a) && decide (a ≤ w.limit * 4096 + 0xFFF))).elim false (fun n => (s.acuWin n).cache)

/-- A refused access is counted, recorded where VALID = 0, and raises source 15 (R329). -/
def acuRefuse (i : Initiator) (wr : Bool) (a : Nat) (s : State) : State :=
  let s := s.inc ACU_CNT_REFUSED
  if s.bit ACU_FAULT_INFO_VALID then s
  else
    let s := s.setReg ACU_FAULT_ADDR.addr (BitVec.ofNat 64 (a % 2 ^ 48))
    tskClock (s.setReg ACU_FAULT_INFO.addr
      (BitVec.ofNat 64 (2 ^ 63 + b2n wr * 2 ^ 62 + levelOf i * 2 ^ 60 + initCode i * 2 ^ 56)))

/-- An access through ACU_IND_CMD, or none where it is refused (LIMIT below BASE). -/
def acuAccess (s : State) : Option State :=
  let n := s.rd ACU_IND_CMD_INDEX
  let w := s.acuWin n
  if s.bit ACU_IND_CMD_RD then
    some ((s.setReg (ACU_WIN_DATA 0).addr (BitVec.ofNat 64
      (b2n w.en * 2 ^ 63 + b2n w.cache * 2 ^ 62 + w.l3src * 2 ^ 60 + w.perm * 2 ^ 48 + w.base * 2 ^ 12))).setReg
        (ACU_WIN_DATA 1).addr (BitVec.ofNat 64 (w.limit * 2 ^ 12)))
  else
    let d0 := s.reg (ACU_WIN_DATA 0).addr
    let d1 := s.reg (ACU_WIN_DATA 1).addr
    let base := fieldOf d0 12 36
    let limit := fieldOf d1 12 36
    if limit < base then none
    else some (s.setAcuWin n { en := fieldOf d0 63 1 == 1, cache := fieldOf d0 62 1 == 1, l3src := fieldOf d0 60 2,
                               perm := fieldOf d0 48 6, base := base, limit := limit })

/-- Writes of ACU registers. -/
def acuWrite (a : Nat) (v : Word) (o s : State) : State :=
  if a = ACU_IND_CMD.addr ∧ fieldOf v 63 1 = 1 then
    if o.bit ACU_IND_CMD_GO then o.put ACU_IND_CMD_ERR true
    else match acuAccess s with
      | some t => t
      | none => s.put ACU_IND_CMD_ERR true
  else s

end Sys2Proof.Machine
end

