-- ==== Sys2Proof/Machine/BlkOps.lean ====
section
/-! DEFINITION. Stopping and restarting blocks (R37, R38, R365), and the power of channel pairs, client ports and pipelines
as trimming, isolation and tests leave it (R334, R335, Table 16.5, Table 16.6). -/

namespace Sys2Proof.Machine

/-! ### Run control (R37) -/

/-- Every link group goes down: transmitters undriven (R365, Table 17.2). -/
def casDown (s : State) : State :=
  (List.range 2).foldl (fun s g => casOff g s) s

/-- Block `n` has completed its unit of work and is stopped: its bit of CFG_BLK_STOPPED is set, and what follows from it
elsewhere happens (R37, R38, R365). -/
def blockStopped (n : Nat) (s : State) : State :=
  if (s.rd CFG_BLK_STOPPED).testBit n then s
  else
    let s := s.setBit CFG_BLK_STOPPED n
    if n = blkCHP then shutDownAll s
    else if n = blkCAS then casDown s
    else s

/-- Blocks that can emit light or client frames (R31). -/
def emitters : List Nat := [blkLPH, blkUBE, blkCHP, blkMAC]

/-- A block may be started: in the boot-failed state none but CFG may (R28), and one that can emit light or client frames only once
the customer configuration has been applied completely (R31). -/
def startAllowed (s : State) (n : Nat) : Bool :=
  s.cfg.boot != .failed && (s.cfg.cfgDone || !emitters.contains n)

/-- Block `n` restarts, where it may: its bit of CFG_BLK_STOPPED clears, and it takes up its work again. -/
def blockRestart (n : Nat) (s : State) : State :=
  if !(s.rd CFG_BLK_STOPPED).testBit n || !startAllowed s n then s
  else
    let s := s.clrBit CFG_BLK_STOPPED n
    if n = blkACT then (List.range 16).foldl (fun s k => actPoll k s) s
    else if n = blkTSK then tskClock s
    else if n = blkCAS then
      (List.range 2).foldl (fun s g => if s.bit (CAS_GRP_CTL_EN g) then casDetect g s else s) s
    else s

/-- The customer configuration has been applied completely: the blocks that waited for it start where CFG_BLK_RUN asks for them
(R31). -/
def configApplied (s : State) : State :=
  emitters.foldl (fun s n => if (s.rd CFG_BLK_RUN).testBit n then blockRestart n s else s)
    { s with cfg := { s.cfg with cfgDone := true, waiting := false } }

/-- Stops a list of blocks at once: the stop is asked for and its unit of work is done. -/
def stopBlocks (l : List Nat) (s : State) : State :=
  l.foldl (fun s n => blockStopped n (s.clrBit CFG_BLK_RUN n)) s

/-- Runs a list of blocks. -/
def runBlocks (l : List Nat) (s : State) : State :=
  l.foldl (fun s n => blockRestart n (s.setBit CFG_BLK_RUN n)) s

/-! ### Units in service (R334, R335, Table 16.5) -/

/-- Units that ISOLATE or a lasting verdict holds out of service. -/
def isolatedUnits (s : State) : List FUnit := s.flt.isolated.map (fun e => unitOf e.1 e.2.1)

/-- The unit whose self-test holds it out of service (Table 16.6). -/
def testedUnit (s : State) : Option FUnit :=
  match s.flt.running with
  | some r =>
    if s.flt.testing then
      match r.res with
      | .pipeline i => some (.pipe i.val)
      | .channel k => some (.line k.val)
      | .lane n => some (.lane n.val)
      | _ => none
    else none
  | none => none

/-- A unit is held out of service by FLT. -/
def heldOut (s : State) (u : FUnit) : Bool := (isolatedUnits s).contains u || testedUnit s == some u

/-- Channel pair k has power: not marked in the trim word in force, and not held out. -/
def pairWanted (s : State) (k : Nat) : Bool := !s.pwr.off.testBit (32 + k) && !heldOut s (.line k)

/-- Physical port P has power. -/
def portWanted (s : State) (P : Nat) : Bool := !s.pwr.off.testBit (16 + P) && !heldOut s (.port P)

/-- A marked pipeline is kept: it serves a pair or a port that has power (R334). -/
def pipeKept (s : State) (i : Nat) : Bool :=
  s.pwr.off.testBit i &&
    (if i < 8 then pairWanted s (2 * i) || pairWanted s (2 * i + 1)
     else portWanted s (2 * (i - 8)) || portWanted s (2 * (i - 8) + 1))

/-- Pipeline i has power: isolation holds whatever R334 keeps. -/
def pipeWanted (s : State) (i : Nat) : Bool :=
  (!s.pwr.off.testBit i || pipeKept s i) && !heldOut s (.pipe i)

/-- The mask of the indices below 16 that satisfy a test. -/
def mask16 (f : Nat → Bool) : Nat := (List.range 16).foldl (fun m i => if f i then withBit m i true else m) 0

/-- A channel pair loses its power: receiver and modulator behave as with RX_EN = 0 and TX_EN = 0 (R335). -/
def pairDown (k : Nat) (s : State) : State :=
  let s := if s.bit (LPH_CH_CTL_TX_EN k) then calEnable k true false s else s
  if s.bit (LPH_CH_CTL_RX_EN k) then calEnable k false false (rxDown k s) else s

/-- A channel pair gains power: a warm start of what its enables ask for (R335). -/
def pairUp (k : Nat) (s : State) : State :=
  let s := if s.bit (LPH_CH_CTL_TX_EN k) then calEnable k true true s else s
  if s.bit (LPH_CH_CTL_RX_EN k) then assertLof k (calEnable k false true (rxUp k true s)) else s

/-- The power of every unit follows what is asked for, and PIPE_KEPT shows the pipelines kept. -/
def servicePower (s : State) : State :=
  let cp := mask16 (pairWanted s)
  let port := mask16 (portWanted s)
  let pipe := mask16 (pipeWanted s)
  let kept := mask16 (fun i => pipeKept s i && pipeWanted s i)
  let was := s.pwr
  let s := { s with pwr := { s.pwr with cpOn := cp, portOn := port, pipeOn := pipe } }
  let s := s.wr PWR_STATUS_PIPE_KEPT kept
  let s := (List.range 16).foldl (fun s k =>
    if was.cpOn.testBit k && !cp.testBit k then pairDown k s
    else if !was.cpOn.testBit k && cp.testBit k then pairUp k s
    else s) s
  (List.range 16).foldl (fun s P => if was.portOn.testBit P && !port.testBit P then phyDown P s else s) s

end Sys2Proof.Machine
end

