-- ==== Sys2Proof/Machine/FltOps.lean ====
section
/-! DEFINITION. Fault reactions, self-tests, quiet windows, injection and the safe state (R350 to R364). Latching itself is
in Flags.lean. -/

namespace Sys2Proof.Machine

/-! ### The safe state (R360 to R362) -/

/-- Blocks that run on in the safe state. -/
def safeBlocks : List Nat := [blkCFG, blkCLK, blkPWR, blkFLT, blkTSK, blkACU, blkCEL, blkKLN, blkMAC]

/-- The safe state is entered: the first cause is recorded, every channel is shut down, client ports end their frames, and
every other block stops. -/
def enterSafe (cause : Nat) (s : State) : State :=
  let s := if inSafe s then s else (s.put FLT_SUMMARY_SAFE true).wr FLT_SUMMARY_SAFE_CAUSE cause
  let s := macSafe (shutDownAll s)
  stopBlocks (allBlocks.filter (fun n => !safeBlocks.contains n)) s

/-- The safe state as the consequence set of every source, in the name of the record that entered it (R358). -/
def safeWindow (src unit : Nat) (s : State) : State :=
  if s.flt.windows.any (fun w => w.safe && !w.ended) then s
  else { s with flt := { s.flt with windows := s.flt.windows ++ [⟨src, unit, true, false⟩] } }

/-- Every hart is halted (R360). -/
def haltHarts (s : State) : State :=
  (List.range 8).foldl (fun s c => s.setHart c { s.hart c with running := false })
    { s with flt := { s.flt with safeHalt := true } }

/-- EXIT (R362): refused with EXIT_ERR below level 0, with SAFE_N low, with a fatal record, or in the boot-failed state. -/
def safeExit (level : Nat) (s : State) : State :=
  if level ≠ 0 ∨ ¬ s.bit FLT_SUMMARY_SAFE_N ∨ s.bit FLT_SUMMARY_FATAL ∨ s.cfg.boot = .failed then s.put FLT_SAFE_EXIT_ERR true
  else
    let s := (s.put FLT_SUMMARY_SAFE false).wr FLT_SUMMARY_SAFE_CAUSE 0
    { s with flt := { s.flt with windows := s.flt.windows.map (fun (w : QuietWin) => if w.safe then { w with ended := true } else w) } }

/-- FAULT_N is driven low (R361). -/
def faultPulled (s : State) : Bool :=
  s.cfg.boot != .inReset && s.cfg.boot != .unpowered && (inSafe s || s.bit FLT_SUMMARY_FATAL)

/-! ### Units (Table 16.5) -/

/-- A pipeline stops and restarts: packets inside it are dropped, each reported by CEL at its egress, and its speculative
records are squashed. -/
def pipeReset (i : Nat) (s : State) : State :=
  let s := if i < 8 then squashWhere (2 * i + 1) (fun _ => true) (squashWhere (2 * i) (fun _ => true) s) else s
  let pl := s.pipe i
  let cut := pl.input ++ pl.idle.map (·.2)
  let s := s.setPipe i { pl with input := [], idle := [] }
  cut.foldl (fun s p =>
    let s := match p.ver, p.toLeaf with
      | some v, none => drainFall v s
      | _, _ => s
    fltSourceEvent blkCEL s) s

/-- A lane leaves service: its requests wait for other lanes. -/
def laneOut (n : Nat) (s : State) : State :=
  { s with kln := { s.kln with lanesOut := if s.kln.lanesOut.contains n then s.kln.lanesOut else n :: s.kln.lanesOut,
                               queue := s.kln.queue.map (fun r => if r.lane = some n then { r with lane := none } else r) } }

/-- A lane returns to service. -/
def laneIn (n : Nat) (s : State) : State := { s with kln := { s.kln with lanesOut := s.kln.lanesOut.filter (· != n) } }

/-- The working state of a unit is reset. -/
def resetUnit (u : FUnit) (s : State) : State :=
  match u with
  | .line k => if k < 16 then chpReact k (dsfLost k (rxRestart k s)) else s
  | .pipe i => if i < 16 then pipeReset i s else s
  | .port P => if P < 16 then phyDown P s else s
  | .lane n => laneOut n s
  | .stack n => if s.rd (CEL_TRAIN_STATE n) = 1 then s.wr (CEL_TRAIN_STATE n) 2 else s
  | .core c => hartReset c s
  | .other => s

/-- Cipher lanes retired, as FLT_REPAIR shows them. -/
def showLanes (s : State) : State :=
  s.wr FLT_REPAIR_LANES ((isolatedUnits s).countP (fun u => match u with
    | .lane _ => true
    | _ => false))

/-- A unit of HBM. -/
def isStack : FUnit → Bool
  | .stack _ => true
  | _ => false

/-- A unit is held out of service until its record is released; after a lasting verdict, for good. -/
def isolate (src unit : Nat) (lasting : Bool) (s : State) : State :=
  let u := unitOf src unit
  if u = .other ∨ isStack u then s
  else
    let s := { s with flt := { s.flt with isolated := (src, unit, lasting) :: s.flt.isolated } }
    let s := match u with
      | .lane n => laneOut n s
      | .core c => let s := hartReset c s; s.setHart c { s.hart c with running := false, isolated := true }
      | _ => s
    showLanes (servicePower s)

/-- An isolated unit returns to service unless something else still holds it out. -/
def unitReturns (u : FUnit) (s : State) : State :=
  let s := showLanes (servicePower s)
  if heldOut s u then s
  else match u with
    | .lane n => laneIn n s
    | .core c => s.setHart c { s.hart c with running := true, isolated := false }
    | _ => s

/-! ### On-die rows (Table 16.6) -/

/-- Array of an on-die row: the cell buffer, the flow table, another memory. -/
def rowArray : Resource → Option Nat
  | .cellRow _ => some 0x100
  | .flowRow _ => some 0x101
  | .sramRow a _ => some a.toNat
  | _ => none

/-- Shows fences in FLT_REPAIR. -/
def showRepair (s : State) : State :=
  (s.wr FLT_REPAIR_FENCES s.flt.fences.length).wr FLT_REPAIR_PERM (s.flt.fences.countP (·.2))

/-- A row is fenced while it is tested, where one of the 16 buffers is free. -/
def fenceRow (r : Resource) (s : State) : State :=
  if s.flt.fences.length < 16 ∧ (rowArray r).isSome then
    showRepair { s with flt := { s.flt with fences := s.flt.fences ++ [(r, false)] } }
  else s

/-- The fence of a row is released. -/
def unfenceRow (r : Resource) (s : State) : State :=
  showRepair { s with flt := { s.flt with fences := s.flt.fences.filter (fun f => f.2 || f.1 != r) } }

/-! ### Reactions (R353 to R357) -/

/-- The record of a source takes a verdict. -/
def setVerdict (src v : Nat) (s : State) : State := s.setFrec src { s.frec src with verdict := v }

/-- The running reaction ends: its window runs on for QW, and the next that waits starts. -/
def endReaction (s : State) : State :=
  match s.flt.running with
  | none => s
  | some r =>
    let s := { s with flt := { s.flt with
      running := none, acted := false, testing := false,
      windows := s.flt.windows.map (fun (w : QuietWin) => if w.src = r.src ∧ w.unit = r.unit ∧ ¬ w.safe then { w with ended := true } else w) } }
    tskClock (fltSummary (fltStart (s.put FLT_SUMMARY_BUSY false)))

/-- The verdict of a reaction that has no self-test to run: untestable for cores, L2, client ports and regulators. -/
def plainVerdict (src : Nat) : Nat :=
  if (0x21 ≤ src ∧ src ≤ 0x29) ∨ src = blkMAC ∨ src = 0x2E then 5 else 0

/-- The resource was given the verdict transient within the last ST_HOLD ms. -/
def testHeld (s : State) (r : Resource) : Bool :=
  s.flt.held.any (fun h => h.1 == r && decide (s.ticks - h.2 < s.rd FLT_CFG_ST_HOLD * 500000))

/-- The self-test of the running reaction begins, or the reaction ends without one (R354). -/
def beginTest (r : Reaction) (s : State) : State :=
  if r.res = .none then endReaction (if plainVerdict r.src = 0 then s else setVerdict r.src (plainVerdict r.src) s)
  else if !s.bit (FLT_REACT_ST_EN r.src) || testHeld s r.res then endReaction (setVerdict r.src 6 s)
  else
    let s := setVerdict r.src 1 { s with flt := { s.flt with testing := true } }
    match r.res with
    | .hbmRow a => rowTest a.toNat s
    | .lane n => laneOut n.val s
    | .pipeline _ => servicePower s
    | .channel _ => servicePower s
    | x => fenceRow x s

/-- The action of the running reaction's code (R353). A lane that RESET_UNIT took out returns where it is not tested. -/
def actReaction (r : Reaction) (s : State) : State :=
  let s := s.setFrec r.src { s.frec r.src with react := r.code }
  let u := unitOf r.src r.unit
  if r.code = 2 then resetUnit u s
  else if r.code = 3 then isolate r.src r.unit false s
  else if r.code = 4 then safeWindow r.src r.unit (enterSafe 1 s)
  else if r.code = 5 then
    let s := safeWindow r.src r.unit (enterSafe 1 s)
    { s with flt := { s.flt with resetDue := true } }
  else s

/-- The configured reaction of the latched error runs (FAULT_REACTION). -/
def runReaction (s : State) : State :=
  match s.flt.running with
  | none => fltStart s
  | some r =>
    if s.flt.acted then s
    else
      let s := actReaction r { s with flt := { s.flt with acted := true } }
      beginTest r (tskClock s)

/-- A fatal error's reaction runs at once (R355, R360): a reaction that runs stops where it stands, its fence kept. -/
def fatalNow (s : State) : State :=
  let front := s.flt.queue.head?.filter (·.cls == 3)
  let s := match front, s.flt.running with
    | some _, some old =>
      fltStart { s with flt := { s.flt with
        running := none, acted := false, testing := false,
        windows := s.flt.windows.map (fun (w : QuietWin) => if w.src = old.src ∧ w.unit = old.unit ∧ ¬ w.safe then { w with ended := true } else w) } }
    | _, _ => s
  match s.flt.running with
  | some r =>
    if r.cls = 3 ∧ ¬ s.flt.acted then
      let s := runReaction s
      if (0x21 ≤ r.src ∧ r.src ≤ 0x29) ∨ r.src = 0x31 then haltHarts s else s
    else s
  | none => s

/-- An error is reported: latched, and where fatal reacted to at once. -/
def fltReport (e : ErrEvent) (s : State) : State :=
  let s := fltLatch e s
  tskClock (if e.cls = .fatal then fatalNow s else s)

/-- A report with no unit, word or resource named. -/
def plainError (src unit : Nat) (c : ErrClass) (kind : Fin 9) : ErrEvent :=
  { src := Fin.ofNat 64 src, unit := BitVec.ofNat 16 unit, cls := c, kind := kind, synd := 0, addr := 0, inj := false,
    res := .none }

/-! ### The end of a self-test (R354, Table 16.6) -/

/-- A test that passed, and a repaired row: the resource is back in service. -/
def testReturns (r : Reaction) (s : State) : State :=
  let s := { s with flt := { s.flt with testing := false } }
  match r.res with
  | .lane n => unitReturns (.lane n.val) s
  | .pipeline i => unitReturns (.pipe i.val) s
  | .channel k => unitReturns (.line k.val) s
  | x => unfenceRow x s

/-- A lasting fault that was not repaired: the last column of Table 16.6, in place of the configured reaction where it is
the graver. `pool` and `places`: what a cell-buffer row's places belong to; `buckets`: the buckets of a flow-table row. -/
def testFails (r : Reaction) (pool places : Nat) (buckets : List Nat) (s : State) : State :=
  let s := setVerdict r.src 4 { s with flt := { s.flt with testing := false } }
  match r.res with
  | .cellRow row =>
    let s := if pool = 6 then { s with cel := { s.cel with raUsed := s.cel.raUsed + places } } else takePool (pool / 3) (pool % 3) places s
    (unfenceRow (.cellRow row) s).inc FLT_REPAIR_RETIRED
  | .flowRow row =>
    (unfenceRow (.flowRow row) { s with flw := { s.flw with full := buckets ++ s.flw.full } }).inc FLT_REPAIR_RETIRED
  | .sramRow a row =>
    let x : Resource := .sramRow a row
    if s.flt.fences.contains (x, false) then
      (showRepair { s with flt := { s.flt with
        fences := s.flt.fences.map (fun f => if f.1 = x then (x, true) else f) } }).inc FLT_REPAIR_RETIRED
    else fltReport (plainError r.src r.unit .fatal 3) s
  | .pipeline i => isolate blkPRS i.val true s
  | .channel k => isolate blkLPH k.val true s
  | .lane n => isolate blkCIP n.val true s
  | _ => s

/-- The test of the running reaction's resource ends. -/
def selfTestDone (pass : Bool) (pool places : Nat) (buckets : List Nat) (s : State) : State :=
  match s.flt.running with
  | none => s
  | some r =>
    if !s.flt.testing then s
    else if pass then
      let s := { s with flt := { s.flt with held := (r.res, s.ticks) :: s.flt.held } }
      endReaction (testReturns r (setVerdict r.src 2 s))
    else match rowArray r.res with
      | some a =>
        if s.fltSpares a < 2 then
          let s := (s.setFltSpares a (s.fltSpares a + 1)).inc FLT_REPAIR_SPARES
          endReaction (testReturns r (setVerdict r.src 3 s))
        else endReaction (testFails r pool places buckets s)
      | none => endReaction (testFails r pool places buckets s)

/-- The test of an HBM row ends (R223), and with it the reaction that ordered it. -/
def hbmTestDone (a : Nat) (pass spare : Bool) (s : State) : State :=
  let d := rowTestDone a pass spare s
  match d.2, s.flt.running with
  | some v, some r =>
    let mine := s.flt.testing && (match r.res with
      | .hbmRow b => rowOf b.toNat == rowOf a
      | _ => false)
    if mine then
      let s := if v = 2 then { d.1 with flt := { d.1.flt with held := (r.res, s.ticks) :: d.1.flt.held } } else d.1
      endReaction (setVerdict r.src v s)
    else d.1
  | _, _ => d.1

/-! ### Windows, records, injection -/

/-- QW µs after its reaction or the safe state ended, a quiet window closes (R358). -/
def quietEnds (s : State) : State :=
  let rec go : List QuietWin → List QuietWin
    | [] => []
    | w :: t => if w.ended then t else w :: go t
  { s with flt := { s.flt with windows := go s.flt.windows } }

/-- The words of a record (Table 16.4). -/
def recWords (r : FltRec) : List Nat :=
  [b2n r.valid * 2 ^ 63 + r.cls * 2 ^ 61 + b2n r.merged * 2 ^ 60 + b2n r.inj * 2 ^ 59 + r.verdict * 2 ^ 56 + r.kind * 2 ^ 52
     + r.react * 2 ^ 48 + r.unit * 2 ^ 32 + r.count * 2 ^ 16 + r.conseq,
   r.synd * 2 ^ 56 + r.addr, r.stampS * 2 ^ 48 + r.stampNS * 2 ^ 16]

/-- Releases a record (R363): its isolated unit returns unless the verdict was lasting. -/
def releaseRec (n : Nat) (s : State) : State :=
  if !(s.frec n).valid then s
  else
    let back := s.flt.isolated.filter (fun e => e.1 == n && !e.2.2)
    let s := { s with flt := { s.flt with isolated := s.flt.isolated.filter (fun e => !(e.1 == n && !e.2.2)) } }
    let s := back.foldl (fun s e => unitReturns (unitOf e.1 e.2.1) s) (s.setFrec n {})
    tskClock (fltSummary s)

/-- Writes of FLT registers, made at a privilege level. -/
def fltWrite (level a : Nat) (v : Word) (o s : State) : State :=
  if a = FLT_REC_CMD.addr ∧ fieldOf v 63 1 = 1 then
    let n := s.rd FLT_REC_CMD_INDEX
    if o.bit FLT_REC_CMD_GO then o.put FLT_REC_CMD_ERR true
    else if s.bit FLT_REC_CMD_REL then
      if s.flt.running.map (·.src) = some n then s.put FLT_REC_CMD_ERR true else releaseRec n s
    else (recWords (s.frec n)).zipIdx.foldl (fun s (e : Nat × Nat) => s.setReg (FLT_REC_DATA e.2).addr (BitVec.ofNat 64 e.1)) s
  else if a = FLT_SAFE.addr then
    let s := if fieldOf v 63 1 = 1 ∧ level ≤ 1 then enterSafe 3 s else s
    if fieldOf v 62 1 = 1 then safeExit level s else s
  else if a = FLT_INJ.addr then
    if fieldOf v 63 1 = 1 then
      let w := popcount 8 (fieldOf v 0 8)
      if level ≤ 1 ∧ (w = 1 ∨ w = 2) then s.put FLT_INJ_ARM true else s.put FLT_INJ_ERR true
    else if o.bit FLT_INJ_CONT || s.bit FLT_INJ_CONT then s.put FLT_INJ_ARM false
    else s
  else if a = FLT_CHK.addr then s.setReg FLT_CHK_INFO.addr (Config.checkerInfo (s.rd FLT_CHK_CHECKER))
  else s

/-! ### Temperature and SAFE_N (R352, R360, R362) -/

/-- The highest junction reading, in 0.1 °C, is shown; rising above TEMP_WARN is one contained error, and 110 °C or more is
fatal (Table 16.3). -/
def tempReading (t : Int) (s : State) : State :=
  let s := (s.wr FLT_TEMP_NOW (unsigned 16 t)).wr FLT_TEMP_MAX (unsigned 16 (max t (signed 16 (s.rd FLT_TEMP_MAX))))
  let s := if (s.rd FLT_CFG_TEMP_WARN : Int) * 10 < t ∧ ¬ s.flt.tempWarned then
    fltReport (plainError 0x2F 0 .contained 6) { s with flt := { s.flt with tempWarned := true } } else s
  if 1100 ≤ t then fltReport (plainError 0x2F 0 .fatal 6) s else s

/-- Every sensor has fallen 2 °C below TEMP_WARN. -/
def tempRearm (t : Int) (s : State) : State :=
  let s := s.wr FLT_TEMP_NOW (unsigned 16 t)
  if t ≤ (s.rd FLT_CFG_TEMP_WARN : Int) * 10 - 20 then { s with flt := { s.flt with tempWarned := false } } else s

/-- SAFE_N is low: a fatal condition of source 0x30, for which SAFE_CAUSE reads 2, from the moment FLT runs (R360, R406). -/
def safeNActs (s : State) : State :=
  if s.runs blkFLT ∧ ¬ s.bit FLT_SUMMARY_SAFE_N then fltReport (plainError 0x30 0 .fatal 8) (enterSafe 2 s) else s

/-- SAFE_N held low. -/
def safeNLow (s : State) : State := safeNActs (s.put FLT_SUMMARY_SAFE_N false)

/-- SAFE_N high. -/
def safeNHigh (s : State) : State := s.put FLT_SUMMARY_SAFE_N true

/-! ### Uncorrectable words in state (Table 16.2) -/

/-- A packet, by its number, is marked poisoned in the leaf queue that holds it and in the bursts that carry parts of it (R21). -/
def poisonId (leaf id : Nat) (s : State) : State :=
  let mark (x : QPkt) : QPkt := if x.id = id then { x with poisoned := true } else x
  let q := s.lq leaf
  let s := s.setLq leaf { q with pkts := q.pkts.map mark }
  (List.range 16).foldl (fun s k =>
    let c := s.ubeCh k
    s.setUbeCh k { c with bursts := c.bursts.map (fun b =>
      { b with pieces := b.pieces.map (fun y => { y with pkt := mark y.pkt }) }) }) s

/-- The entry of a list at a place is changed. -/
def changeAt {α : Type} (l : List α) (i : Nat) (f : α → α) : List α :=
  l.zipIdx.map (fun e => if e.2 = i then f e.1 else e.1)

/-- A key of a root or of a pair's key-encryption key is removed. -/
def rootBad (n : Nat) (s : State) : State := s.setRoot n none
/-- A pair's key-encryption key with an uncorrectable word holds no key. -/
def kekBad (k : Nat) (s : State) : State := s.setKek k none

/-- Hart c takes an access fault (Table 16.2): the trap's mode, S or M, and its vector are what firmware has set up, which the model
does not hold: free values. -/
def hartFaults (c : Nat) (s : State) : State :=
  let d := s.draw
  let e := d.2.draw
  e.2.setHart c { e.2.hart c with mode := if d.1.getLsbD 0 then .m else .s, pc := e.1.toNat % 2 ^ 48 }

/-- The outcome of an uncorrectable word in a block's state; for a Chaperone, whether injection took part. -/
def stateWordBad (w : StateWord) (inj : Bool) (s : State) : State :=
  let noTok (o : SchObj) : SchObj := { o with tokC := 0, tokP := 0 }
  match w with
  | .none => s
  | .regStorage => s
  | .alwaysOn => s
  | .coreMem _ c m => if m = .m then s else hartFaults c.val s
  | .cellar _ => s
  | .chaperone k => shutDown k.val 6 inj s
  | .keySlot n => slotBad n.val s
  | .root n => rootBad n.val s
  | .kek k => kekBad k.val s
  | .pipeInput p i =>
    let pl := s.pipe p.val
    s.setPipe p.val { pl with input := changeAt pl.input i.toNat (fun x => { x with poisoned := true }) }
  | .pipeIdle p i =>
    let pl := s.pipe p.val
    s.setPipe p.val { pl with idle := changeAt pl.idle i.toNat (fun x => (x.1, { x.2 with poisoned := true })) }
  | .reassembly k sid =>
    match asmOf s k.val sid.toNat with
    | none => s
    | some a => setAsm k.val sid.toNat (some { a with poisoned := true }) s
  | .handed p i => s.setToMac p.val (changeAt (s.toMac p.val) i.toNat (fun x => (x.1, { x.2 with poisoned := true })))
  | .carried k b i =>
    match (s.ubeCh k.val).bursts[b.toNat]?.bind (fun x => x.pieces[i.toNat]?) with
    | none => s
    | some y => poisonId y.leaf y.pkt.id s
  | .flowBucket b => (slotsOf b.val).foldl (fun s p => flowDelete p false s) s
  | .rule n => s.setRule n.toNat { s.rule n.toNat with poisoned := true }
  | .actionList n => s.setAlist n.toNat { s.alist n.toNat with bad := true }
  | .policer n => s.setPolicer n.toNat { s.policer n.toNat with bad := true }
  | .leafObj k => s.setLeafObj k.val { s.leafObj k.val with bad := true }
  | .svcObj k => s.setSvc k.val { s.svc k.val with bad := true }
  | .portObj k => s.setPortObj k.val { s.portObj k.val with bad := true }
  | .leafTokens k => s.setLeafObj k.val (noTok (s.leafObj k.val))
  | .svcTokens k => s.setSvc k.val (noTok (s.svc k.val))
  | .portTokens k => s.setPortObj k.val (noTok (s.portObj k.val))
  | .policerTokens n => s.setPolicer n.toNat { s.policer n.toNat with tokC := 0, tokP := 0 }
  | .leafState k => (flushKey k.val s).1
  | .flowCounter c =>
    let a := counterAddr s c.toNat
    devWrite a (zeros 16) (s.setDelta c.toNat 0)
  | .task n => taskCmd 1 n.toNat s
  | .packet k i =>
    match (s.lq k.val).pkts[i.toNat]? with
    | none => s
    | some p => poisonId k.val p.id s

/-- The class of an uncorrectable word (R21, R142, R221, R263, Table 16.2, Table 16.3); of a word that no rule names, fatal (R351). -/
def badClass : StateWord → ErrClass
  | .none => .fatal
  | .regStorage => .fatal
  | .alwaysOn => .fatal
  | .coreMem _ _ m => if m = .m then .fatal else .contained
  | _ => .contained

/-- The class of an error that no word has: an event of a block is contained; a regulator, a clock and every error that no rule
names is fatal (R351, Table 16.3). -/
def kindClass (kind : Nat) : ErrClass := if kind = 4 then .contained else .fatal

/-- A word that one of a source's checkers checks (R18, R359): a good word goes on; a corrected one is reported; an uncorrectable
one has its outcome at its owner, and is reported in its class, or, where it shuts a Chaperone down, as that shutdown (R142). -/
def wordChecked (src unit idx : Nat) (data : Word) (flip : BitVec 72) (addr : Nat) (w : StateWord) (res : Resource) (s : State) :
    State :=
  let j := injTake src idx s
  let f := flip ^^^ j.1
  match checkFlipped data f with
  | .good => j.2
  | .corrected _ _ => fltReport (wordError src unit .corrected 1 (flipSyndrome data f) addr (j.1 != 0) res) j.2
  | .uncorrectable =>
    let told := match w with
      | .chaperone k => !j.2.bit (CHP_STATUS_SIL k)
      | _ => false
    let s := stateWordBad w (j.1 != 0) j.2
    if told then tskClock s
    else fltReport (wordError src unit (badClass w) 3 (flipSyndrome data f) addr (j.1 != 0) res) s

/-- A word of the Cellar is found with inverted bits: they are its own from now on, and it is checked as every read of it is (R205,
R221). -/
def cellarChecked (a : Nat) (flip : BitVec 72) (s : State) : State :=
  let a := a / 8 * 8
  if !inCellar a then s
  else tskClock (readChecked a (s.setEcc a (s.eccOf a ^^^ flip))).2.2

/-- A source reports (FAULT_LATCH). -/
def faultLatch (src : Nat) (e : ErrReport) (s : State) : State :=
  match e with
  | .word unit idx data flip addr w res =>
    match w with
    | .cellar a => cellarChecked a.toNat flip s
    | _ => wordChecked src unit.toNat idx.toNat data flip addr.toNat w res s
  | .other unit kind addr res =>
    let s := if src = 0x2E then { s with pwr := { s.pwr with regOut := true } } else s
    fltReport { src := Fin.ofNat 64 src, unit := unit, cls := kindClass kind.val, kind := kind, synd := 0, addr := addr, inj := false,
                res := res } s

end Sys2Proof.Machine
end

