-- ==== Sys2Proof/Machine/Sign.lean ====
section
/-! DEFINITION. The checks of a signed copy of the image: SHA-384 and ECDSA over P-384 (R26). The spec names both and prints
neither: their constants and steps are those of FIPS 180-4 and of FIPS 186 with SEC 1 (PRESUMED, log 181). -/

namespace Sys2Proof.Machine

/-! ### SHA-384 -/

/-- Round constants 0 to 15 of SHA-384. -/
def shaK0 : List Word :=
  [0x428A2F98D728AE22, 0x7137449123EF65CD, 0xB5C0FBCFEC4D3B2F, 0xE9B5DBA58189DBBC,
   0x3956C25BF348B538, 0x59F111F1B605D019, 0x923F82A4AF194F9B, 0xAB1C5ED5DA6D8118,
   0xD807AA98A3030242, 0x12835B0145706FBE, 0x243185BE4EE4B28C, 0x550C7DC3D5FFB4E2,
   0x72BE5D74F27B896F, 0x80DEB1FE3B1696B1, 0x9BDC06A725C71235, 0xC19BF174CF692694]

/-- Round constants 16 to 31 of SHA-384. -/
def shaK1 : List Word :=
  [0xE49B69C19EF14AD2, 0xEFBE4786384F25E3, 0x0FC19DC68B8CD5B5, 0x240CA1CC77AC9C65,
   0x2DE92C6F592B0275, 0x4A7484AA6EA6E483, 0x5CB0A9DCBD41FBD4, 0x76F988DA831153B5,
   0x983E5152EE66DFAB, 0xA831C66D2DB43210, 0xB00327C898FB213F, 0xBF597FC7BEEF0EE4,
   0xC6E00BF33DA88FC2, 0xD5A79147930AA725, 0x06CA6351E003826F, 0x142929670A0E6E70]

/-- Round constants 32 to 47 of SHA-384. -/
def shaK2 : List Word :=
  [0x27B70A8546D22FFC, 0x2E1B21385C26C926, 0x4D2C6DFC5AC42AED, 0x53380D139D95B3DF,
   0x650A73548BAF63DE, 0x766A0ABB3C77B2A8, 0x81C2C92E47EDAEE6, 0x92722C851482353B,
   0xA2BFE8A14CF10364, 0xA81A664BBC423001, 0xC24B8B70D0F89791, 0xC76C51A30654BE30,
   0xD192E819D6EF5218, 0xD69906245565A910, 0xF40E35855771202A, 0x106AA07032BBD1B8]

/-- Round constants 48 to 63 of SHA-384. -/
def shaK3 : List Word :=
  [0x19A4C116B8D2D0C8, 0x1E376C085141AB53, 0x2748774CDF8EEB99, 0x34B0BCB5E19B48A8,
   0x391C0CB3C5C95A63, 0x4ED8AA4AE3418ACB, 0x5B9CCA4F7763E373, 0x682E6FF3D6B2B8A3,
   0x748F82EE5DEFB2FC, 0x78A5636F43172F60, 0x84C87814A1F0AB72, 0x8CC702081A6439EC,
   0x90BEFFFA23631E28, 0xA4506CEBDE82BDE9, 0xBEF9A3F7B2C67915, 0xC67178F2E372532B]

/-- Round constants 64 to 79 of SHA-384. -/
def shaK4 : List Word :=
  [0xCA273ECEEA26619C, 0xD186B8C721C0C207, 0xEADA7DD6CDE0EB1E, 0xF57D4F7FEE6ED178,
   0x06F067AA72176FBA, 0x0A637DC5A2C898A6, 0x113F9804BEF90DAE, 0x1B710B35131C471B,
   0x28DB77F523047D84, 0x32CAAB7B40C72493, 0x3C9EBE0A15C9BEBC, 0x431D67C49C100D4C,
   0x4CC5D4BECB3E42B6, 0x597F299CFC657E2A, 0x5FCB6FAB3AD6FAEC, 0x6C44198C4A475817]

/-- The 80 round constants. -/
def shaK : List Word := shaK0 ++ shaK1 ++ shaK2 ++ shaK3 ++ shaK4

/-- The eight working words. -/
structure ShaSt where
  a : Word
  b : Word
  c : Word
  d : Word
  e : Word
  f : Word
  g : Word
  h : Word
  deriving DecidableEq, Repr

/-- The initial hash value of SHA-384. -/
def shaInit : ShaSt :=
  ⟨0xCBBB9D5DC1059ED8, 0x629A292A367CD507, 0x9159015A3070DD17, 0x152FECD8F70E5939,
   0x67332667FFC00B31, 0x8EB44A8768581511, 0xDB0C2E0D64F98FA7, 0x47B5481DBEFA4FA4⟩

/-- The four functions of one word that SHA-384 uses: two rotations and a third, or a shift. -/
def shaSum0 (x : Word) : Word := x.rotateRight 28 ^^^ x.rotateRight 34 ^^^ x.rotateRight 39
/-- Big sigma 1. -/
def shaSum1 (x : Word) : Word := x.rotateRight 14 ^^^ x.rotateRight 18 ^^^ x.rotateRight 41
/-- Small sigma 0. -/
def shaSmall0 (x : Word) : Word := x.rotateRight 1 ^^^ x.rotateRight 8 ^^^ (x >>> 7)
/-- Small sigma 1. -/
def shaSmall1 (x : Word) : Word := x.rotateRight 19 ^^^ x.rotateRight 61 ^^^ (x >>> 6)

/-- The message schedule is extended by `n` words, newest first. -/
def shaExtend : Nat → List Word → List Word
  | 0, w => w
  | n + 1, w => shaExtend n ((shaSmall1 (w.getD 1 0) + w.getD 6 0 + shaSmall0 (w.getD 14 0) + w.getD 15 0) :: w)

/-- One round. -/
def shaRound (x : ShaSt) (k w : Word) : ShaSt :=
  let t1 := x.h + shaSum1 x.e + ((x.e &&& x.f) ^^^ (~~~x.e &&& x.g)) + k + w
  let t2 := shaSum0 x.a + ((x.a &&& x.b) ^^^ (x.a &&& x.c) ^^^ (x.b &&& x.c))
  ⟨t1 + t2, x.a, x.b, x.c, x.d + t1, x.e, x.f, x.g⟩

/-- One block of 128 bytes. -/
def shaBlock (x : ShaSt) (l : Bytes) : ShaSt :=
  let w := (shaExtend 64 ((List.range 16).map (fun i => wordAt l (8 * i))).reverse).reverse
  let y := (shaK.zip w).foldl (fun y (e : Word × Word) => shaRound y e.1 e.2) x
  ⟨x.a + y.a, x.b + y.b, x.c + y.c, x.d + y.d, x.e + y.e, x.f + y.f, x.g + y.g, x.h + y.h⟩

/-- A message as SHA-384 pads it: a 1 bit, zeros, and its length in bits. -/
def shaPad (l : Bytes) : Bytes :=
  let n := (l.length + 17 + 127) / 128 * 128
  padTo (n - 16) (l ++ [0x80]) ++ beBytes 16 (8 * l.length)

/-- Blocks one after the other. -/
def shaBlocks : Nat → ShaSt → Bytes → ShaSt
  | 0, x, _ => x
  | n + 1, x, l => shaBlocks n (shaBlock x (l.take 128)) (l.drop 128)

/-- SHA-384 of a message, as a number of 384 bits. -/
def sha384 (l : Bytes) : Nat :=
  let m := shaPad l
  let x := shaBlocks (m.length / 128) shaInit m
  [x.a, x.b, x.c, x.d, x.e, x.f].foldl (fun n (w : Word) => n * 2 ^ 64 + w.toNat) 0

/-! ### P-384 -/

/-- The prime of the field. -/
def p384 : Nat := 2 ^ 384 - 2 ^ 128 - 2 ^ 96 + 2 ^ 32 - 1
/-- The order of the base point. -/
def p384n : Nat := 0xFFFFFFFFFFFFFFFFFFFFFFFFFFFFFFFFFFFFFFFFFFFFFFFFC7634D81F4372DDF581A0DB248B0A77AECEC196ACCC52973
/-- The constant of the curve y² = x³ − 3x + b. -/
def p384b : Nat := 0xB3312FA7E23EE7E4988E056BE3F82D19181D9C6EFE8141120314088F5013875AC656398D8A2ED19D2A85C8EDD3EC2AEF

/-- The base point. -/
def p384g : Nat × Nat :=
  (0xAA87CA22BE8B05378EB1C71EF320AD746E1D3B628BA79B9859F741E082542A385502F25DBF55296C3A545E3872760AB7,
   0x3617DE4A96262C6F5D9E98BF9292DC29F8F41DBD289A147CE9DA3113B5F0B8C00A60B1CE1D7E819D7A431D7C90EA0E5F)

/-- `b` to the power `e` modulo `m`, for an exponent of at most `n` bits. -/
def modPow (m b : Nat) : Nat → Nat → Nat
  | 0, _ => 1 % m
  | n + 1, e =>
    let h := modPow m b n (e / 2)
    if e % 2 = 1 then h * h % m * b % m else h * h % m

/-- The inverse modulo a prime of 384 bits. -/
def modInv (m a : Nat) : Nat := modPow m (a % m) 384 (m - 2)

/-- The difference modulo a number. -/
def modSub (m a b : Nat) : Nat := (a % m + (m - b % m)) % m

/-- A point in Jacobian coordinates: x / z² and y / z³, or the point at infinity where z is 0. -/
structure Point where
  x : Nat
  y : Nat
  z : Nat
  deriving DecidableEq, Repr

/-- The point at infinity. -/
def Point.zero : Point := ⟨1, 1, 0⟩

/-- Twice a point. -/
def Point.double (p : Point) : Point :=
  let d := p.z * p.z % p384
  let g := p.y * p.y % p384
  let b := p.x * g % p384
  let a := 3 * modSub p384 p.x d * (p.x + d) % p384
  let x := modSub p384 (a * a) (8 * b)
  ⟨x, modSub p384 (a * modSub p384 (4 * b) x) (8 * g * g), modSub p384 ((p.y + p.z) * (p.y + p.z)) (g + d)⟩

/-- The sum of a point and one that is given by its two coordinates. -/
def Point.add (p : Point) (q : Nat × Nat) : Point :=
  if p.z = 0 then ⟨q.1, q.2, 1⟩
  else
    let zz := p.z * p.z % p384
    let h := modSub p384 (q.1 * zz) p.x
    let r := modSub p384 (q.2 * p.z % p384 * zz) p.y
    if h = 0 then if r = 0 then p.double else .zero
    else
      let hh := h * h % p384
      let hhh := h * hh % p384
      let v := p.x * hh % p384
      let x := modSub p384 (r * r) (hhh + 2 * v)
      ⟨x, modSub p384 (r * modSub p384 v x) (p.y * hhh), p.z * h % p384⟩

/-- A point given by its two coordinates times a number of at most `n` bits. -/
def ptMul (q : Nat × Nat) : Nat → Nat → Point
  | 0, _ => .zero
  | n + 1, k =>
    let h := (ptMul q n (k / 2)).double
    if k % 2 = 1 then h.add q else h

/-- The two coordinates of a point that is not at infinity. -/
def Point.affine (p : Point) : Option (Nat × Nat) :=
  if p.z = 0 then none
  else
    let i := modInv p384 p.z
    let ii := i * i % p384
    some (p.x * ii % p384, p.y * ii % p384 * i % p384)

/-- The coordinates satisfy the equation of the curve. -/
def onCurve (x y : Nat) : Bool :=
  decide (x < p384 ∧ y < p384) && y * y % p384 == (modSub p384 (x * x % p384 * x) (3 * x) + p384b) % p384

/-- An ECDSA signature `r`, `s` of 96 bytes over a digest verifies under a public key of 97 bytes in uncompressed form. -/
def ecdsaOk (pub sig : Bytes) (digest : Nat) : Bool :=
  let x := beAt pub 1 48
  let y := beAt pub 49 48
  let r := beAt sig 0 48
  let t := beAt sig 48 48
  beAt pub 0 1 == 4 && onCurve x y && decide (1 ≤ r ∧ r < p384n ∧ 1 ≤ t ∧ t < p384n) &&
    (let w := modInv p384n t
     let q := ptMul (x, y) 384 (r * w % p384n)
     let sum := match (ptMul p384g 384 (digest * w % p384n)).affine with
       | none => q
       | some a => q.add a
     match sum.affine with
     | none => false
     | some v => v.1 % p384n == r)

end Sys2Proof.Machine
end

