-- ==== Sys2Proof/Machine/BootOps.lean ====
section
/-! DEFINITION. Resets and the boot sequence: power-up, what a reset keeps, release, the choice of a copy of the image, the
boot-failed state, the flash commands (R23 to R28, R33, R34, R365, R405, R406, R410). -/

namespace Sys2Proof.Machine

/-! ### Resets (R103, R263, R406) -/

/-- The disable flags of `o` carried into `s` (R103). -/
def keepDis (o s : State) : State :=
  (List.range 16).foldl (fun s k =>
    (s.put (ACT_CP_STATE_DIS_CP k) (o.bit (ACT_CP_STATE_DIS_CP k))).put (ACT_CP_STATE_DIS_DEV k)
      (o.bit (ACT_CP_STATE_DIS_DEV k))) s

/-- What the fuses and the model's own bookkeeping carry over every loss of state: the registration key as programmed, the
key hash, the free values drawn, the queue of commands. -/
def keepFuses (o s : State) : State :=
  { s with pending := o.pending, free := o.free, kln := { s.kln with rk := o.kln.rk },
           cfg := { s.cfg with keyHash := o.cfg.keyHash } }.put KLN_RK_RK_SET (o.bit KLN_RK_RK_SET)

/-- The device is reset (R406): every domain at its reset state, but the disable flags and boot_retry, which the always-on
domain keeps. The boot phase is given. The test access port, which runs whatever RESET_N is, is not touched (R400). -/
def resetTo (phase : BootPhase) (s : State) : State :=
  let f := keepDis s (keepFuses s State.reset)
  { f with cfg := { f.cfg with boot := phase, bootRetry := s.cfg.bootRetry, vrEn := s.cfg.vrEn, supplied := s.cfg.supplied },
           tap := s.tap }

/-- A reset of the device: it is held until its release (R46, R406). -/
def deviceReset (s : State) : State := resetTo .inReset s

/-- VAON comes into range (R405): the always-on domain runs from RC32, with nothing kept from before. -/
def powerUp (s : State) : State :=
  let f := keepFuses s State.reset
  { f with cfg := { f.cfg with boot := .unpowered, vrEn := false } }.put CLK_STATUS_RC32 true

/-- A rise of VR_EN resets the device and holds it in reset (R405); while a supply is absent it stays unpowered. -/
def vrEnRise (s : State) : State :=
  let s := { s with cfg := { s.cfg with vrEn := true } }
  if s.cfg.supplied then deviceReset s else resetTo .unpowered s

/-- VR_EN low: unpowered in every domain but the always-on domain (R405, R410). -/
def vrEnFall (s : State) : State := resetTo .unpowered { s with cfg := { s.cfg with vrEn := false } }

/-- A supply falls (R405): unpowered, keys zeroised (R263); where VAON falls, the always-on domain's state goes too. -/
def powerLoss (vaon : Bool) (s : State) : State :=
  if vaon then
    let f := keepFuses s State.reset
    { f with cfg := { f.cfg with boot := .unpowered, vrEn := s.cfg.vrEn, supplied := false } }
  else
    let f := resetTo .unpowered s
    { f with cfg := { f.cfg with supplied := false }, tap := {} }

/-- The PGOOD ball (R404): driven high while the regulators run and are in range, low otherwise; high-impedance, with the level of
the board's pull-down, while a supply is absent. -/
def pgoodBall (s : State) : Option Bool := if s.cfg.supplied then some (s.cfg.vrEn && !s.pwr.regOut) else none

/-- RESET_N held low: the reset state, or with VR_EN low too, the unpowered state (R406). -/
def resetPin (s : State) : State :=
  if s.cfg.boot = .unpowered ∨ ¬ s.cfg.vrEn then resetTo .unpowered s else deviceReset s

/-! ### Release (R23, R365) -/

/-- First address of the boot ROM. -/
def romBase : Nat := 0x000120000000

/-- The boot ROM starts on core 0 at level 0; IOSC runs; MGR and SAFE_N are sampled; CAS is started with every field at its
reset value. Every place of the cell pools is free, and shown so (R224). -/
def bootStart (mgr safeN : Bool) (s : State) : State :=
  let s := { s with cfg := { s.cfg with boot := .rom, mgrStrap := mgr },
                    cas := { s.cas with candLow := !mgr, candSerial := serial s } }
  let s := ((s.put CLK_STATUS_IOSC_OK true).put FLT_SUMMARY_SAFE_N safeN).put CAS_ROLE_STRAP mgr
  runBlocks [blkCAS] (showFree 0 (showFree 1 (s.setHart 0 { running := true, mode := .m, pc := romBase })))

/-- Release from reset. -/
def resetRelease (mgr safeN : Bool) (s : State) : State :=
  if s.cfg.boot = .inReset then bootStart mgr safeN s else s

/-! ### The boot-failed state (R28) -/

/-- Blocks but CFG. -/
def notCfg : List Nat := allBlocks.filter (· != blkCFG)

/-- The boot-failed state: the safe state with cause 4, every block stopped, every core halted. -/
def bootFailed (s : State) : State :=
  let s := stopBlocks notCfg (haltHarts (enterSafe 4 s))
  { s with cfg := { s.cfg with boot := .failed, casBoot := false } }

/-- Result code of a copy. -/
def copyCode (b : Bool) : RF := if b then CFG_BOOT_STATUS_FAIL_B else CFG_BOOT_STATUS_FAIL_A

/-- Both copies count as invalid with a code. -/
def bothFail (code : Nat) (s : State) : State :=
  bootFailed ((s.wr (copyCode false) code).wr (copyCode true) code)

/-! ### Flash (R24, R33, R34) -/

/-- The SFDP read ends (R24): the width chosen and the capacity in MiB. A flash that does not answer leaves a device that may
boot over the cascade (R377); one below 32 MiB counts as two invalid copies. -/
def sfdpDone (answered : Bool) (width mib : Nat) (s : State) : State :=
  if s.cfg.boot ≠ .rom then s
  else
    let s := (s.put CLK_STATUS_SPLL_LOCK true).put CLK_STATUS_REF_OK true
    if !answered then { s with cfg := { s.cfg with boot := .sfdpDone, casBoot := true } }
    else if mib < 32 then bothFail 6 s
    else { s with cfg := { s.cfg with boot := .sfdpDone } }.wr CFG_BOOT_STATUS_IOW width

/-- A flash opcode that programs, and one that erases with the bytes it erases (JESD216 opcodes). -/
def flashSpan (op addr len : Nat) : Option (Nat × Nat) :=
  if [0x02, 0x12, 0x32, 0x34, 0x38, 0x3E, 0x82, 0x84, 0x8E, 0xC2].contains op then some (addr, addr + len)
  else if op = 0x20 ∨ op = 0x21 then some (addr / 4096 * 4096, addr / 4096 * 4096 + 4096)
  else if op = 0x52 ∨ op = 0x5C then some (addr / 32768 * 32768, addr / 32768 * 32768 + 32768)
  else if op = 0xD8 ∨ op = 0xDC then some (addr / 65536 * 65536, addr / 65536 * 65536 + 65536)
  else if op = 0x60 ∨ op = 0xC7 then some (0, 2 ^ 32)
  else none

/-- A program or erase touches the 16 MiB of the copy that booted; where none booted, no copy is protected. -/
def flashProtected (s : State) (op addr len : Nat) : Bool :=
  s.cfg.boot != .failed &&
    (match flashSpan op addr len with
     | none => false
     | some x =>
       let base := s.rd CFG_BOOT_STATUS_COPY * 0x1000000
       decide (x.1 < base + 0x1000000) && decide (base < max x.2 (x.1 + 1)))

/-- GO in CFG_SPI_CMD: refused, or in progress until it is done. A GO while one is in progress has no effect. -/
def spiGo (o s : State) : State :=
  if o.bit CFG_SPI_CMD_GO then o
  else
    let op := s.rd CFG_SPI_CMD_OPCODE
    let len := s.rd CFG_SPI_CMD_LEN
    if flashProtected s op (s.rd CFG_SPI_CMD_ADDR) len then (s.put CFG_SPI_CMD_GO false).put CFG_SPI_STATUS_PROT true
    else { s.put CFG_SPI_CMD_GO true with cfg := { s.cfg with spi := some (op, len) } }

/-- A flash command completes: ERR where the flash did not respond, else the bytes it returned lie in the buffer. -/
def spiDone (ok : Bool) (data : Bytes) (s : State) : State :=
  match s.cfg.spi with
  | none => s
  | some (_, len) =>
    let s := { s with cfg := { s.cfg with spi := none } }.put CFG_SPI_CMD_GO false
    if !ok then s.put CFG_SPI_STATUS_ERR true
    else
      let d := data.take len
      let buf := ((List.range 32).map (fun m => wordBytes (s.reg (CFG_SPI_BUF m).addr))).flatten
      let buf := d ++ buf.drop d.length
      (List.range 32).foldl (fun s m => s.setReg (CFG_SPI_BUF m).addr (wordAt buf (8 * m))) s

/-! ### Copies of the image (R25 to R27) -/

/-- A section entry (Table 2.3). -/
structure Section where
  type : Nat
  off : Nat
  size : Nat
  load : Nat
  deriving DecidableEq, Repr

/-- NSEC and SEQ of a header. -/
def hdrNsec (h : Bytes) : Nat := beAt h 6 2
/-- SEQ. -/
def hdrSeq (h : Bytes) : Nat := beAt h 8 4

/-- The section entries of a header. -/
def sectionsOf (h : Bytes) : List Section :=
  (List.range (min 8 (hdrNsec h))).map (fun i =>
    let o := 0x20 + 72 * i
    ⟨beAt h o 1, beAt h (o + 4) 4, beAt h (o + 8) 4, beAt h (o + 16) 8⟩)

/-- Two ranges of addresses overlap. -/
def rangesMeet (a n b m : Nat) : Bool := decide (a < b + m) && decide (b < a + n)

/-- No two elements of a list satisfy a test. -/
def nonePair (f : Section → Section → Bool) : List Section → Bool
  | [] => true
  | x :: t => !t.any (f x) && nonePair f t

/-- Checks 1 to 3 of R26, as the code of the first that fails, 0 where all hold. -/
def headerChecks (h : Bytes) : Nat :=
  let l := sectionsOf h
  let count (t : Nat) : Nat := l.countP (fun x => x.type == t)
  if beAt h 0 4 ≠ 0x525A4258 ∨ beAt h 4 2 ≠ 1 then 2
  else if hdrSeq h = 0 ∨ hdrSeq h = 0xFFFFFFFF then 2
  else if hdrNsec h = 0 ∨ 8 < hdrNsec h then 3
  else if count 1 ≠ 1 ∨ 1 < count 2 ∨ 6 < count 3 ∨ count 1 + count 2 + count 3 ≠ l.length then 3
  else 0

/-- A load range lies in one core's local SRAM, or in the shared L2 (R318). -/
def loadOk (x : Section) : Bool :=
  (List.range 8).any (fun c => decide (0x000100000000 + c * 0x100000 ≤ x.load ∧ x.load + x.size ≤ 0x000100080000 + c * 0x100000))
    || decide (0x000110000000 ≤ x.load ∧ x.load + x.size ≤ 0x000111000000)

/-- A copy is at most 16 MiB (R25). -/
def copyMax : Nat := 0x1000000

/-- Checks 4 and 5 of R26; nothing that LENGTH says lies beyond the 16 MiB of the copy (R25). -/
def layoutOk (h : Bytes) : Bool :=
  let l := sectionsOf h
  let len := min (beAt h 0xC 4) copyMax
  l.all (fun x => decide (x.off + x.size ≤ len) && decide (0x400 ≤ x.off)) &&
    nonePair (fun x y => rangesMeet x.off x.size y.off y.size) l && l.all loadOk &&
    nonePair (fun x y => rangesMeet x.load x.size y.load y.size) l

/-- The bytes of section `i` as read from the flash. -/
def sectionBytes (x : Section) (data : List Bytes) (i : Nat) : Bytes := padTo x.size ((data.getD i []).take x.size)

/-- Check 6: SHA-384 of PUBKEY is the key hash in the fuses (R26). -/
def keyOk (hash : BitVec 384) (h : Bytes) : Bool := sha384 (slice h 0x280 97) == hash.toNat

/-- Check 7: SIG verifies over the header bytes 0x000 to 0x2FF (R26). -/
def sigOk (h : Bytes) : Bool := ecdsaOk (slice h 0x280 97) (slice h 0x300 96) (sha384 (slice h 0 0x300))

/-- Check 8: every DIGEST matches its section (R26). -/
def digestsOk (h : Bytes) (data : List Bytes) : Bool :=
  (sectionsOf h).zipIdx.all (fun e => sha384 (sectionBytes e.1 data e.2) == beAt h (0x20 + 72 * e.2 + 24) 48)

/-- The code of a copy whose header passes checks 1 to 3: 1 where it is valid (R26). A read error counts where the sections
are needed, at check 8. -/
def copyResult (hash : BitVec 384) (h : Bytes) (readOk : Bool) (data : List Bytes) : Nat :=
  if !layoutOk h then 3
  else if !keyOk hash h then 4
  else if !sigOk h then 5
  else if !readOk then 6
  else if !digestsOk h data then 7
  else 1

/-- The header of a copy as read. -/
def hdrOf (s : State) (b : Bool) : Bytes := if b then s.cfg.hdrB else s.cfg.hdrA

/-- The copy that is checked next. -/
def copyNow (s : State) : Bool := if s.cfg.firstFailed then !s.cfg.firstB else s.cfg.firstB

/-- A copy fails with a code: the other is next, or no copy is left. -/
def copyFails (code : Nat) (s : State) : State :=
  let b := copyNow s
  let s := s.wr (copyCode b) code
  if s.cfg.firstFailed ∨ s.rd (copyCode (!b)) ≠ 0 then bootFailed s
  else { s with cfg := { s.cfg with firstFailed := true } }

/-- The headers have been read (R27): the copies are ranked, boot_retry swaps the ranking and is cleared. A flashless device
gets them over the cascade once it is a worker with an ID (R377). -/
def headersRead (a b : Bytes) (errA errB : Bool) (s : State) : State :=
  if s.cfg.boot ≠ .sfdpDone ∨ (s.cfg.casBoot ∧ ¬ (s.rd CAS_ROLE_ROLE = 2 ∧ s.bit CAS_ROLE_ID_V)) then s
  else
    let ca := if errA then 6 else headerChecks a
    let cb := if errB then 6 else headerChecks b
    let larger := if ca = 0 ∧ cb = 0 then decide (hdrSeq a < hdrSeq b) else decide (ca ≠ 0 ∧ cb = 0)
    let retry := s.cfg.bootRetry
    let firstB := larger != retry
    let s := (s.wr (copyCode false) ca).wr (copyCode true) cb
    let s := s.put CFG_BOOT_STATUS_RETRY retry
    let bad := (if firstB then cb else ca) != 0
    let s := { s with cfg := { s.cfg with boot := .headersRead, hdrA := a, hdrB := b, firstB := firstB, firstFailed := bad,
                                          bootRetry := false } }
    if ca ≠ 0 ∧ cb ≠ 0 then bootFailed s else s

/-- The sections of a copy are loaded at their addresses. -/
def loadSections (l : List Section) (data : List Bytes) (s : State) : State :=
  l.zipIdx.foldl (fun s (e : Section × Nat) =>
    s.setBytes e.1.load (sectionBytes e.1 data e.2)) s

/-- The copy under check is decided (R26, R27): it boots, or fails with the code of the first check that fails. -/
def copyValidated (readOk : Bool) (data : List Bytes) (s : State) : State :=
  if s.cfg.boot ≠ .headersRead then s
  else
    let b := copyNow s
    let h := hdrOf s b
    let code := copyResult s.cfg.keyHash h readOk data
    if code ≠ 1 then copyFails code s
    else
      let s := s.wr (copyCode b) 1
      let s := ((s.put CFG_BOOT_STATUS_COPY b).put CFG_BOOT_STATUS_FALLBACK s.cfg.firstFailed).wr CFG_BOOT_STATUS_SEQ (hdrSeq h)
      let s := s.put CFG_BOOT_STATUS_SRC s.cfg.casBoot
      loadSections (sectionsOf h) data { s with cfg := { s.cfg with boot := .copyChosen, casBoot := false } }

/-- A flashless device has waited in vain: both copies count as invalid with code 6 (R377). -/
def bootWaitEnds (s : State) : State :=
  if s.cfg.casBoot ∧ s.cfg.boot = .sfdpDone ∧ ¬ (s.rd CAS_ROLE_ROLE = 2 ∧ s.bit CAS_ROLE_ID_V) then bothFail 6 s else s

/-- Base firmware is entered (R23): five blocks run, core 0 goes on at level 1 at the load address of the base firmware
section, and the customer configuration section is there to be applied. -/
def firmwareEntry (s : State) : State :=
  if s.cfg.boot ≠ .copyChosen then s
  else
    let l := sectionsOf (hdrOf s (s.bit CFG_BOOT_STATUS_COPY))
    let load (t : Nat) : Option Section := l.find? (fun x => x.type == t)
    let c := (load 2).map (fun x => (x.load, x.size))
    let s := { s with cfg := { s.cfg with boot := .booted, cfgAt := c, cfgDone := c.isNone, recIdx := 0, waiting := false } }
    let s := s.setHart 0 { running := true, mode := .s, pc := (load 1).elim 0 (·.load) }
    safeNActs (runBlocks [blkCLK, blkPWR, blkFLT, blkTSK, blkACU] s)

/-- A record fails (R30, R32): its index and cause are kept; the other copy is tried next, or the boot has failed. -/
def configFails (cause : Nat) (s : State) : State :=
  let n := s.cfg.recIdx
  let s := (s.wr CFG_BOOT_STATUS_CFG_IDX (min 1023 n)).setReg CFG_REC_FAIL.addr
    (BitVec.ofNat 64 (2 ^ 63 + cause * 2 ^ 20 + min 1048575 n))
  let s := { s with cfg := { s.cfg with cfgFailed := true, waiting := false } }
  if s.bit CFG_BOOT_STATUS_RETRY then bootFailed (s.put CFG_BOOT_STATUS_CFG_FAIL true)
  else deviceReset { s with cfg := { s.cfg with bootRetry := true } }

end Sys2Proof.Machine
end

