-- ==== Sys2Proof/Machine/CasOps.lean ====
section
/-! DEFINITION. The Tureel link groups and the cascade group: bring-up, containers, election, membership, views, boot
service, time (R365 to R380). -/

namespace Sys2Proof.Machine

/-! ### Bring-up (R371, R372, Table 17.2) -/

/-- A group returns to DETECT: RESTARTS counts it, and leaving ACTIVE is an event. -/
def groupFall (g : Nat) (s : State) : State :=
  let s := if grpActive s g then s.put (casDownEvt g) true else s
  casDetect g (s.inc (CAS_GRP_CNT_RESTARTS g))

/-- The bring-up state of a group. -/
def grpState (s : State) (g : Nat) : Nat := s.rd (CAS_GRP_STAT_STATE g)

/-- The common-mode probe in DETECT: lanes on which a termination was found. -/
def terminationProbe (g lanes : Nat) (s : State) : State :=
  let c := s.casGrp g
  let l := lanes &&& c.offerLanes
  if s.runs blkCAS ∧ grpState s g = 1 ∧ l ≠ 0 then (s.wr (CAS_GRP_STAT_STATE g) 2).setCasGrp g { c with lanes := l } else s

/-- Lanes locked in TRAIN: all that were detected, or those locked when 20 ms have passed. -/
def trainDone (g locked : Nat) (late : Bool) (s : State) : State :=
  let c := s.casGrp g
  let l := locked &&& c.lanes
  if s.runs blkCAS ∧ grpState s g = 2 ∧ l ≠ 0 ∧ (l = c.lanes ∨ late) then
    let n := popcount 4 l
    (s.wr (CAS_GRP_STAT_STATE g) 3).setCasGrp g { c with lanes := l, tx := List.replicate n {}, txAt := commaPeriod n }
  else s

/-- 50 ms in TRAIN, COMMA or CAPS. -/
def linkTimeout (g : Nat) (s : State) : State :=
  if s.runs blkCAS ∧ 2 ≤ grpState s g ∧ grpState s g ≤ 4 then groupFall g s else s

/-- CRC errors of the last second (500,000,000 cycles of the time clock). -/
def recentErrs (s : State) (g : Nat) : Nat := (s.casGrp g).errs.countP (fun t => decide (s.ticks - t ≤ 500000000))

/-- What returns an ACTIVE group to DETECT. -/
def groupFails (g : Nat) (why : GroupFail) (s : State) : State :=
  if !(s.runs blkCAS && grpActive s g) then s
  else match why with
    | .commas => groupFall g s
    | .termination => groupFall g s
    | .crcErrors => if s.rd CAS_CTL_ERR_MAX < recentErrs s g then groupFall g s else s

/-- A lane's window of 65,536 bits closes with its transitions (R372). -/
def casWindow (g lane trans : Nat) (s : State) : State :=
  let c := s.casGrp g
  let n := c.passes.getD lane 0
  if !s.runs blkCAS || decide (grpState s g < 2) then s
  else if trans < s.rd (CAS_GRP_CTL_DENS_MIN g) then
    ((s.setBit (CAS_GRP_STAT_FROZEN g) lane).put CAS_EVT_FREEZE true).setCasGrp g { c with passes := setAt c.passes lane 0 }
  else if !(s.rd (CAS_GRP_STAT_FROZEN g)).testBit lane then s
  else if 1 ≤ n then (s.clrBit (CAS_GRP_STAT_FROZEN g) lane).setCasGrp g { c with passes := setAt c.passes lane 0 }
  else s.setCasGrp g { c with passes := setAt c.passes lane (n + 1) }

/-! ### Control messages (R373, Table 17.3) -/

/-- SRC of this device's containers: its ID, or 0xF before it has one. -/
def casSrc (s : State) : Nat := if s.bit CAS_ROLE_ID_V then s.rd CAS_ROLE_ID else 15

/-- The container payload of a CTRL message, and the next SEQ. -/
def ctrlBody (op : Nat) (words : List Nat) (s : State) : Bytes × State :=
  (((op * 2 ^ 56 + s.cas.seq * 2 ^ 40) :: words).map (beBytes 8) |>.flatten,
    { s with cas := { s.cas with seq := (s.cas.seq + 1) % 65536 } })

/-- A message of one link group. -/
def sendLink (g op : Nat) (words : List Nat) (s : State) : State :=
  let b := ctrlBody op words s
  casQueue g ⟨2, casSrc s, 0, false, 15, b.1⟩ b.2

/-- A broadcast, on both link groups. -/
def sendAll (op : Nat) (words : List Nat) (s : State) : State :=
  let b := ctrlBody op words s
  let o : CasOut := ⟨2, casSrc s, 0, true, 15, b.1⟩
  casQueue 1 o (casQueue 0 o b.2)

/-- A reading of time as two words: S and FR, then NS (as TIME carries it). -/
def timeWords (t : Tod) : List Nat := [t.s * 65536 + t.fr, t.ns * 2 ^ 32]

/-- A reading from two words. -/
def timeOf (a b : Nat) : Tod := ⟨a / 65536, b / 2 ^ 32 * 2 ^ 48 + a % 65536 * 2 ^ 32⟩

/-- What this device's CAPS says: serial number, version 1, lanes and lowest rate offered, strap. -/
def capsWords (s : State) (g : Nat) : List Nat :=
  let c := s.casGrp g
  [(serial s).toNat, 2 ^ 56 + c.lanes * 2 ^ 52 + c.offerRate * 2 ^ 51 + b2n s.cfg.mgrStrap * 2 ^ 50]

/-- A receiving lane just after a comma: its descrambler holds the last data bits of the line. -/
def laneAfterComma (scr : BitVec 58) : CasLane := { scr := scr, run := 4, last := false }

/-- Three commas at exact spacing on every locked lane, given as the last 58 line data bits before its third comma, newest in bit 0,
and that comma's arrival in picoseconds: the receiver aligns the lanes on them, and the group is in CAPS and sends them (R367,
R368). Lanes farther apart than 40 ns may align or not: the spec says that 40 ns are tolerated, no more. -/
def commaLock (g : Nat) (lanes : List (BitVec 58 × Nat)) (s : State) : State :=
  if s.runs blkCAS ∧ grpState s g = 3 ∧ lanes.length = popcount 4 (s.casGrp g).lanes then
    let near := lanesAligned (lanes.map (·.2))
    let d := s.draw
    let s := if near then s else d.2
    if near || d.1.getLsbD 0 then
      let b := ctrlBody 1 (capsWords s g) s
      let s := b.2.wr (CAS_GRP_STAT_STATE g) 4
      s.setCasGrp g (casPut (casContainers ⟨2, casSrc s, 0, false, 15, b.1⟩)
        { s.casGrp g with rxl := lanes.map (fun e => laneAfterComma e.1), rxAt := 0 })
    else s
  else s

/-- Of the lanes of a mask, in order, those that a smaller mask keeps. -/
def keepLanes (mask keep : Nat) (l : List CasLane) : List CasLane :=
  ((((List.range 4).filter mask.testBit).zip l).filter (fun e => keep.testBit e.1)).map (·.2)

/-- The common lanes are used: group blocks are counted anew from the next comma (R368). -/
def useLanes (keep : Nat) (c : CasGrp) : CasGrp :=
  let n := popcount 4 keep
  { c with lanes := keep, tx := keepLanes c.lanes keep c.tx, txAt := commaPeriod n, rxl := keepLanes c.lanes keep c.rxl,
           rxAt := commaPeriod n }

/-! ### Election (R374) -/

/-- A key is lower than another: strap first, then serial number. -/
def keyLower (lowA : Bool) (a : Word) (lowB : Bool) (b : Word) : Bool :=
  (!lowA && lowB) || (lowA == lowB && decide (a.toNat < b.toNat))

/-- This device's own key is its candidate. -/
def candOwn (s : State) : Bool := s.cas.candLow == !s.cfg.mgrStrap && s.cas.candSerial == serial s

/-- The candidate becomes this device's own key. -/
def candReset (s : State) : State := { s with cas := { s.cas with candLow := !s.cfg.mgrStrap, candSerial := serial s } }

/-- A broadcast JOIN. -/
def sendJoin (s : State) : State := sendAll 3 [(serial s).toNat] s

/-- The device leaves the group it was in, and asks to join. -/
def leaveAndJoin (s : State) : State :=
  let s := ((s.put CAS_ROLE_ID_V false).wr CAS_ROLE_ROLE 0).wr CAS_ROLE_EPOCH 0
  let s := { s with cas := { s.cas with ring := [] } }
  sendJoin ((s.wr CAS_ROLE_ID 0).wr CAS_ROLE_PRESENT 0)

/-- Candidate strap and serial number of another device: adopted where lower; two strapped devices that meet are a conflict. -/
def takeCandidate (low : Bool) (sn : Word) (s : State) : State :=
  let s := if s.cfg.mgrStrap ∧ ¬ low ∧ sn ≠ serial s then s.put CAS_EVT_CONFLICT true else s
  if keyLower low sn s.cas.candLow s.cas.candSerial then { s with cas := { s.cas with candLow := low, candSerial := sn } } else s

/-! ### Views (R374, R376) -/

/-- A member leaves the group: packets buffered for it are discarded and counted. -/
def dropGone (present : Nat) (s : State) : State :=
  (List.range 2).foldl (fun s g =>
    let c := s.casGrp g
    let gone (o : CasOut) : Bool := o.type == 1 && !present.testBit o.dst
    (s.setCasGrp g { c with own := c.own.filter (fun o => !gone o) }).addTo CAS_CNT_GONE (c.own.countP gone)) s

/-- A view takes effect: EPOCH, PRESENT, ring order, and the packets for members it no longer names. -/
def useView (epoch present : Nat) (ring : List Nat) (closed : Bool) (s : State) : State :=
  let s := (s.wr CAS_ROLE_EPOCH epoch).wr CAS_ROLE_PRESENT present
  let s := { s with cas := { s.cas with ring := ring, closed := closed } }
  dropGone present (s.put CAS_EVT_VIEW_CHG true)

/-- VIEW, with the view in use. -/
def sendView (s : State) : State :=
  let l := s.cas.ring
  let order := (l ++ List.replicate (16 - l.length) 0).foldl (fun a i => a * 16 + i) 0
  sendAll 5 [s.rd CAS_ROLE_EPOCH * 2 ^ 48 + s.rd CAS_ROLE_PRESENT * 2 ^ 32 + b2n s.cas.closed * 2 ^ 31 + l.length * 2 ^ 24, order] s

/-- A manager's new view: EPOCH advances. -/
def newView (present : Nat) (order : List Nat) (closed : Bool) (s : State) : State :=
  useView ((s.rd CAS_ROLE_EPOCH + 1) % 65536) present (order.filter present.testBit) closed s

/-- The device whose candidate has been its own key for 5 ms becomes manager (R374, R376): it takes ID 0 or keeps its ID, and
the members of the last view keep theirs. -/
def becomeManager (order : List Nat) (closed : Bool) (s : State) : State :=
  if !(s.runs blkCAS && candOwn s && s.rd CAS_ROLE_ROLE == 0) then s
  else
    let id := if s.bit CAS_ROLE_ID_V then s.rd CAS_ROLE_ID else 0
    let s := ((s.wr CAS_ROLE_ROLE 1).put CAS_ROLE_ID_V true).wr CAS_ROLE_ID id
    let s := (s.wr CAS_ROLE_MGR id).setCasSerial id (some (serial s))
    let s := { s with cas := { s.cas with heard := 0, empties := [] } }
    sendView (newView (withBit (s.rd CAS_ROLE_PRESENT) id true) order closed s)

/-! ### Joining (R375) -/

/-- A free ID is one that the view does not name. -/
def casFree (s : State) (i : Nat) : Bool := !(s.rd CAS_ROLE_PRESENT).testBit i

/-- The ID that a joining serial number gets: the one it last held where free, else the lowest free. -/
def joinId (s : State) (sn : Word) : Option Nat :=
  match (List.range 16).find? (fun i => s.casSerial i == some sn && casFree s i) with
  | some i => some i
  | none => (List.range 16).find? (casFree s)

/-- The manager admits a serial number, or refuses it. Its PRESENT takes the member; the view is made by the caller. -/
def admitJoin (sn : Word) (s : State) : State :=
  match joinId s sn with
  | some i =>
    let s := (s.setCasSerial i (some sn)).wr CAS_ROLE_PRESENT (withBit (s.rd CAS_ROLE_PRESENT) i true)
    sendAll 4 [sn.toNat, i * 2 ^ 60] (s.setCasEmpties i 0)
  | none => sendAll 4 [sn.toNat, 2 ^ 59] (s.put CAS_EVT_JOIN_REF true)

/-- A JOIN arrives at the manager. -/
def takeJoin (sn : Word) (order : List Nat) (closed : Bool) (s : State) : State :=
  if s.rd CAS_ROLE_ROLE ≠ 1 then s
  else
    let was := s.rd CAS_ROLE_PRESENT
    let s := admitJoin sn s
    if s.rd CAS_ROLE_PRESENT = was then s else sendView (newView (s.rd CAS_ROLE_PRESENT) order closed s)

/-- An ASSIGN arrives: a serial number, the ID given to it, or its refusal. A member whose ID has gone to another joins anew. -/
def takeAssign (src : Nat) (sn : Word) (id : Nat) (refused : Bool) (s : State) : State :=
  let s := if refused then s else s.setCasSerial id (some sn)
  if s.rd CAS_ROLE_ROLE = 1 then s
  else if sn = serial s then
    if refused then (s.wr CAS_ROLE_ROLE 3).put CAS_ROLE_ID_V false
    else ((s.wr CAS_ROLE_ROLE 2).put CAS_ROLE_ID_V true |>.wr CAS_ROLE_ID id).wr CAS_ROLE_MGR src
  else if ¬ refused ∧ s.bit CAS_ROLE_ID_V ∧ s.rd CAS_ROLE_ID = id then leaveAndJoin s
  else s

/-- The view in a payload: EPOCH, PRESENT, ring closed, ring order. -/
def viewOf (b : Bytes) : Nat × Nat × Bool × List Nat :=
  let w1 := beAt b 8 8
  let w2 := beAt b 16 8
  (w1 / 2 ^ 48, w1 / 2 ^ 32 % 2 ^ 16, w1.testBit 31, (List.range (min 16 (w1 / 2 ^ 24 % 32))).map (fun i => w2 / 16 ^ (15 - i) % 16))

/-- A VIEW arrives. A manager steps down to a lower key, which its candidate shows. A device that the view does not name asks
to join. -/
def takeView (src : Nat) (b : Bytes) (s : State) : State :=
  let v := viewOf b
  if s.rd CAS_ROLE_ROLE = 1 then (if candOwn s then s else leaveAndJoin s)
  else if s.rd CAS_ROLE_ROLE = 3 then s
  else
    let d := (v.1 + 65536 - s.rd CAS_ROLE_EPOCH) % 65536
    let newer := s.cas.ring.isEmpty || decide (1 ≤ d ∧ d ≤ 32767)
    if newer then
      let s := (useView v.1 v.2.1 v.2.2.2 v.2.2.1 s).wr CAS_ROLE_MGR src
      if s.bit CAS_ROLE_ID_V ∧ v.2.1.testBit (s.rd CAS_ROLE_ID) then
        { s.wr CAS_ROLE_ROLE 2 with cas := { s.cas with mgrEmpty := 0, mgrHeard := true } }
      else if s.bit CAS_ROLE_ID_V then leaveAndJoin s
      else sendJoin s
    else if s.bit CAS_ROLE_ID_V then s
    else sendJoin s

/-! ### Heartbeats and membership (R375, R376) -/

/-- Every 1 ms: HEARTBEAT and PROBE on each ACTIVE group; a worker counts an interval without its manager. -/
def heartbeatTick (s : State) : State :=
  if !s.runs blkCAS then s
  else
    let peer (g : Nat) : Nat := s.rd (CAS_GRP_STAT_PEER g)
    let v := s.bit CAS_ROLE_ID_V
    let words := [(serial s).toNat, casSrc s * 2 ^ 60 + b2n v * 2 ^ 59 + b2n (!s.cas.candLow) * 2 ^ 58 + peer 0 * 2 ^ 52
      + peer 1 * 2 ^ 48, s.cas.candSerial.toNat]
    let s := (List.range 2).foldl (fun s g =>
      if grpActive s g then sendLink g 8 (timeWords s.tod) (sendLink g 2 words s) else s) s
    if s.rd CAS_ROLE_ROLE = 2 then
      { s with cas := { s.cas with mgrEmpty := if s.cas.mgrHeard then 0 else s.cas.mgrEmpty + 1, mgrHeard := false } }
    else s

/-- A worker has lost its manager: election restarts, and it keeps its ID. -/
def managerLost (s : State) : State :=
  if s.runs blkCAS ∧ s.rd CAS_ROLE_ROLE = 2 ∧ 3 ≤ s.cas.mgrEmpty then
    let s := candReset ((s.put CAS_EVT_MGR_LOST true).wr CAS_ROLE_ROLE 0)
    { s with cas := { s.cas with mgrEmpty := 0 } }
  else s

/-- The manager's 1 ms tick: members with three empty intervals have left, then the serial numbers that join in the same tick
are admitted, and one VIEW is sent. -/
def memberCheck (joins : List Word) (order : List Nat) (closed : Bool) (s : State) : State :=
  if !(s.runs blkCAS && s.rd CAS_ROLE_ROLE == 1) then s
  else
    let was := s.rd CAS_ROLE_PRESENT
    let heard := s.cas.heard
    let s := { s with cas := { s.cas with heard := 0 } }
    let s := (List.range 16).foldl (fun s i =>
      if !was.testBit i || i == s.rd CAS_ROLE_ID then s
      else if heard.testBit i then s.setCasEmpties i 0
      else
        let n := s.casEmpties i + 1
        if n < 3 then s.setCasEmpties i n
        else (s.setCasEmpties i 0).wr CAS_ROLE_PRESENT (withBit (s.rd CAS_ROLE_PRESENT) i false)) s
    let left := s.rd CAS_ROLE_PRESENT
    let s := joins.foldl (fun s sn => admitJoin sn s) s
    let now := s.rd CAS_ROLE_PRESENT
    sendView (if left = was ∧ now = was then s else newView now order closed s)

/-- A refused device tries again (R375). -/
def joinRetry (s : State) : State := if s.runs blkCAS ∧ s.rd CAS_ROLE_ROLE = 3 then sendJoin s else s

/-! ### Time (R380) -/

/-- Link delay of a group in 2⁻¹⁶ ns, with ASYM. -/
def linkDelay (s : State) (g : Nat) : Int := (s.casGrp g).delay.getD 0 + psUnits (signed 16 (s.rd (CAS_ASYM_ASYM g)))

/-- The manager's TIME at a second boundary. -/
def sendTime (s : State) : State :=
  if s.runs blkCAS ∧ s.rd CAS_ROLE_ROLE = 1 then sendAll 7 (timeWords s.tod ++ [0]) s else s

/-- A TIME arrives on group g at `t`: a worker with TIME_EN gives TIM a sample. -/
def takeTime (g : Nat) (b : Bytes) (t : Tod) (s : State) : State :=
  if s.bit CAS_CTL_TIME_EN ∧ s.rd CAS_ROLE_ROLE = 2 then
    let e := (timeOf (beAt b 8 8) (beAt b 16 8)).units + signed 64 (beAt b 24 8) + linkDelay s g - t.units
    timWrite TIM_SAMPLE.addr (BitVec.ofNat 64 (unsigned 64 e)) s
  else s

/-- The container of a TIME that is passed on at `out` has its residence and the delay of its link added to its correction. -/
def timePassed (g : Nat) (t out : Tod) (s : State) (c : Bytes) : Bytes :=
  overwrite c 32 (beBytes 8 (unsigned 64 (signed 64 (beAt c 32 8) + (out.units - t.units) + linkDelay s g)))

/-- A PROBE arrives: PROBE_RESP goes back with t1, the arrival t2 and the departure t3. -/
def takeProbe (g : Nat) (b : Bytes) (t2 t3 : Tod) (s : State) : State :=
  sendLink g 9 ([beAt b 8 8, beAt b 16 8] ++ timeWords t2 ++ timeWords t3) s

/-- A PROBE_RESP arrives at t4: the delay of the link. -/
def takeProbeResp (g : Nat) (b : Bytes) (t4 : Tod) (s : State) : State :=
  let t (i : Nat) : Int := (timeOf (beAt b (8 + 16 * i) 8) (beAt b (16 + 16 * i) 8)).units
  s.setCasGrp g { s.casGrp g with delay := some (((t4.units - t 0) - (t 2 - t 1)) / 2) }

/-! ### Containers (R370, R373, R376) -/

/-- What comes with a container: when it arrived and when what it gives rise to leaves; the ring order as the manager knows
it; the flash bytes that a READ_REQ names, none where the manager has no flash. -/
structure CasMore where
  t : Tod
  out : Tod
  order : List Nat
  closed : Bool
  flash : Option Bytes

/-- A CAPS arrives: agreed in CAPS; with changed content it returns an ACTIVE group to DETECT. -/
def takeCaps (g src : Nat) (b : Bytes) (s : State) : State :=
  let w1 := wordAt b 8
  let w2 := wordAt b 16
  let c := s.casGrp g
  if grpActive s g then (if c.caps = some (w1, w2) then s else groupFall g s)
  else if grpState s g ≠ 4 then s
  else
    let lanes := c.lanes &&& fieldOf w2 52 4
    if fieldOf w2 56 8 = 1 ∧ lanes ≠ 0 then
      let s := (s.wr (CAS_GRP_STAT_STATE g) 5).wr (CAS_GRP_STAT_LANES g) lanes
      let s := s.wr (CAS_GRP_STAT_RATE g) (max c.offerRate (fieldOf w2 51 1))
      let s := (s.wr (CAS_GRP_STAT_PEER g) src).put (CAS_GRP_STAT_PEER_V g) true
      s.setCasGrp g { useLanes lanes c with caps := some (w1, w2) }
    else s

/-- A HEARTBEAT arrives. -/
def takeHeartbeat (g : Nat) (b : Bytes) (s : State) : State :=
  let w2 := wordAt b 16
  let s := (s.wr (CAS_GRP_STAT_PEER g) (fieldOf w2 60 4)).put (CAS_GRP_STAT_PEER_V g) (fieldOf w2 59 1 == 1)
  takeCandidate (fieldOf w2 58 1 == 0) (wordAt b 24) s

/-- A CTRL message is consumed. -/
def takeCtrl (g src : Nat) (b : Bytes) (m : CasMore) (s : State) : State :=
  match beAt b 0 1 with
  | 1 => takeCaps g src b s
  | 2 => takeHeartbeat g b s
  | 3 => takeJoin (wordAt b 8) m.order m.closed s
  | 4 => takeAssign src (wordAt b 8) (beAt b 16 1 / 16) ((beAt b 16 1).testBit 3) s
  | 5 => takeView src b s
  | 6 =>
    match m.flash with
    | some d =>
      if s.rd CAS_ROLE_ROLE = 1 then
        casQueue (casRoute s src) ⟨3, casSrc s, src, false, 15, d.take (beAt b 22 2)⟩ s
      else s
    | none => s
  | 7 => takeTime g b m.t s
  | 8 => takeProbe g b m.t m.out s
  | 9 => takeProbeResp g b m.t s
  | _ => s

/-- A container is passed on over the other link group with HOPS one less. -/
def passOn (g : Nat) (c : Bytes) (s : State) : State :=
  let o := 1 - g
  let h := beAt c 0 8
  if s.rd CAS_ROLE_ROLE = 3 ∨ ¬ grpActive s o then s
  else
    let c' := casContainer (h - 2 ^ 45) (c.drop 8)
    let x := s.casGrp o
    let s := s.setCasGrp o { x with fwd := x.fwd ++ [c'] }
    s.setCasGrp g { s.casGrp g with fwdOpen := !h.testBit 49 }

/-- A packet or BOOT container for this device: what was received so far grows, and is whole with LAST. -/
def takeBody (g type : Nat) (first last : Bool) (part : Bytes) (s : State) : State :=
  let c := s.casGrp g
  let sofar := if first then some [] else (c.rx.filter (·.1 == type)).map (·.2)
  match sofar with
  | none => s
  | some l =>
    let l := l ++ part
    if !last then s.setCasGrp g { c with rx := some (type, l) }
    else
      let s := s.setCasGrp g { c with rx := none }
      if type = 1 then s.setCasGrp g { s.casGrp g with arrived := (s.casGrp g).arrived ++ [l] }
      else { s with cas := { s.cas with bootRx := s.cas.bootRx ++ l } }

/-- A container that fails, or follows one that failed, up to the next FIRST. -/
def dropContainer (g : Nat) (bad : Bool) (s : State) : State :=
  let c := s.casGrp g
  let c := { c with rxDrop := true, rx := none, fwdOpen := false,
                    errs := if bad then s.ticks :: c.errs else c.errs }
  (s.setCasGrp g c).inc (CAS_GRP_CNT_CRC_ERR g)

/-- A broadcast arrives: dropped where it is this device's own or a duplicate, else passed on and consumed. A VIEW that a
manager is to step down to is let through. -/
def takeBroadcast (g src : Nat) (c : Bytes) (m : CasMore) (s : State) : State :=
  let b := c.drop 8
  let seq := beAt b 1 2
  let lower := s.rd CAS_ROLE_ROLE == 1 && !candOwn s && beAt b 0 1 == 5
  let old : Bool := match s.casLastSeq src with
    | none => false
    | some l => decide ((seq + 65536 - l) % 65536 = 0 ∨ 32767 < (seq + 65536 - l) % 65536)
  if (src = casSrc s ∧ s.bit CAS_ROLE_ID_V ∧ ¬ lower) ∨ old then s
  else
    let s := s.setCasLastSeq src (some seq)
    let c := if beAt b 0 1 = 7 then timePassed g m.t m.out s c else c
    let s := if (beAt c 0 8) / 2 ^ 45 % 16 = 0 then s else passOn g c s
    takeCtrl g src b m s

/-- A container arrives on a link group (R370, R376). -/
def casArrive (g : Nat) (c : Bytes) (m : CasMore) (s : State) : State :=
  if !s.runs blkCAS || decide (grpState s g < 4) then s
  else
    let h := beAt c 0 8
    let type := h / 2 ^ 60
    let src := h / 2 ^ 56 % 16
    let dst := h / 2 ^ 52 % 16
    let first := h.testBit 50
    if !casGood c then dropContainer g true s
    else if (s.casGrp g).rxDrop && !first then dropContainer g false s
    else
      let x := s.casGrp g
      let s := s.setCasGrp g { x with rxDrop := false, fwdOpen := x.fwdOpen && !first, rx := if first then none else x.rx }
      let s := s.inc (CAS_GRP_CNT_CONT g)
      let s := { s with cas := { s.cas with heard := withBit s.cas.heard src true,
                                            mgrHeard := s.cas.mgrHeard || src == s.rd CAS_ROLE_MGR } }
      let b := c.drop 8
      let op := beAt b 0 1
      if type = 2 ∧ (op = 1 ∨ op = 2 ∨ op = 8 ∨ op = 9) then takeCtrl g src b m s
      else if !grpActive s g then s
      else if type = 2 ∧ h.testBit 51 then takeBroadcast g src c m s
      else if type = 0 ∨ 3 < type then s
      else if s.bit CAS_ROLE_ID_V ∧ dst = s.rd CAS_ROLE_ID then
        if type = 2 then takeCtrl g src b m s
        else takeBody g type first (h.testBit 49) (b.take (h / 2 ^ 37 % 256)) s
      else if h / 2 ^ 45 % 16 = 0 then s.inc CAS_CNT_HOP_DROP
      else passOn g c s

/-- A container is received on the lanes of a group: its bytes, and the state after (R367, R368). -/
def casReceived (g : Nat) (line : List (List Bool)) (s : State) : Bytes × State :=
  let c := s.casGrp g
  let r := groupTake c.rxl c.rxAt line
  (r.1, s.setCasGrp g { c with rxl := r.2.1, rxAt := r.2.2 })

/-- A container whose TYPE and operation are those of a command's row, and nothing else. -/
def casIs (type op : Nat) (c : Bytes) : Bool := beAt c 0 1 / 16 == type && (type == 3 || beAt c 8 1 == op)

/-! ### Packets that arrive (R379) -/

/-- The seconds of a reading no later than now whose low 16 bits are given. -/
def fullSeconds (now low : Nat) : Nat :=
  let c := now / 65536 * 65536 + low
  if c ≤ now then c else (c + 2 ^ 48 - 65536) % 2 ^ 48

/-- The oldest packet received whole is offered to the idle-slot port of its pipeline. -/
def cascadeArrival (g : Nat) (s : State) : State :=
  match (s.casGrp g).arrived with
  | [] => s
  | l :: rest =>
    let s := s.setCasGrp g { s.casGrp g with arrived := rest }
    let w0 := beAt l 0 8
    let w1 := beAt l 8 8
    let dir := w0 / 2 ^ 63
    let leaf := w0 / 2 ^ 46 % 2 ^ 17
    let t : Tod := ⟨fullSeconds s.tod.s (w1 % 65536), w1 / 2 ^ 32 * 2 ^ 48 + w1 / 65536 % 65536 * 2 ^ 32⟩
    let p : PassPkt := { bytes := slice l 16 (w0 / 2 ^ 16 % 2 ^ 14), dir := dir, src := leaf % 8 * 2, sid := w0 / 2 ^ 30 % 2 ^ 16,
                         ingress := t, toLeaf := some leaf }
    if pipeOn s (pipeOf dir (leaf % 8 * 2)) then (offerIdle .cascade p s).1 else s

/-! ### Indirect entries (R378, Table 17.4) -/

/-- An access through CAS_IND_CMD, or none where it is refused. -/
def casAccess (s : State) : Option State :=
  let n := s.rd CAS_IND_CMD_INDEX
  let show2 (a b : Nat) : State :=
    (s.setReg (CAS_IND_DATA 0).addr (BitVec.ofNat 64 a)).setReg (CAS_IND_DATA 1).addr (BitVec.ofNat 64 b)
  let d := (s.reg (CAS_IND_DATA 0).addr).toNat
  match s.rd CAS_IND_CMD_TABLE with
  | 0 =>
    if s.bit CAS_IND_CMD_RD then
      let e := s.casRedirect n
      some (show2 (b2n e.valid * 2 ^ 63 + e.group) 0)
    else some (s.setCasRedirect n ⟨d.testBit 63, d % 16⟩)
  | 1 =>
    if 256 ≤ n then none
    else if s.bit CAS_IND_CMD_RD then
      let e := s.casSlot n
      some (show2 (b2n e.active * 2 ^ 63 + e.member * 2 ^ 56 + e.rleaf * 2 ^ 32 + e.rsid) 0)
    else if d % 2 ^ 16 = 0xFFFF then none
    else some (s.setCasSlot n ⟨d.testBit 63, d / 2 ^ 56 % 16, d / 2 ^ 32 % 2 ^ 17, d % 2 ^ 16⟩)
  | 2 =>
    if 16 ≤ n ∨ ¬ s.bit CAS_IND_CMD_RD then none
    else some (show2 (((s.casSerial n).getD 0).toNat) (b2n ((s.rd CAS_ROLE_PRESENT).testBit n) * 2 ^ 63))
  | _ => none

/-- Writes of CAS registers: address, value, state before, state with the plain fields stored. -/
def casWrite (a : Nat) (v : Word) (o s : State) : State :=
  if a = CAS_IND_CMD.addr ∧ fieldOf v 63 1 = 1 then
    if o.bit CAS_IND_CMD_GO then o.put CAS_IND_CMD_ERR true
    else match casAccess s with
      | some t => t
      | none => s.put CAS_IND_CMD_ERR true
  else if a = (CAS_GRP_CTL 0).addr ∨ a = (CAS_GRP_CTL 1).addr then
    let g := (a - (CAS_GRP_CTL 0).addr) / 8
    if !s.bit (CAS_GRP_CTL_EN g) then
      casOff g s
    else if s.runs blkCAS ∧ grpState s g = 0 then casDetect g s
    else s
  else s

end Sys2Proof.Machine
end

