-- ==== Sys2Proof/Machine/PwrOps.lean ====
section
/-! DEFINITION. Power states, line power modes, Taste cycles and wakes (R333 to R349). -/

namespace Sys2Proof.Machine

/-! ### States as PWR_STATUS shows them -/

/-- The code of a state (STATE of PWR_REQ). -/
def PState.code : PState → Nat
  | .full => 0
  | .trim => 1
  | .doze => 2
  | .taste => 3
  | .off => 4

/-- The state a code names, if one does. -/
def PState.ofCode (n : Nat) : Option PState := [PState.full, .trim, .doze, .taste, .off][n]?

/-- The device is in Taste or Off: nothing but the always-on domain answers. -/
def lowState (s : State) : Bool := s.pwr.cur == .taste || s.pwr.cur == .off

/-- A wake has given the control domains power (R347). -/
def waking (s : State) : Bool :=
  match s.pwr.trans with
  | some (.wake, _) => true
  | _ => false

/-- The device outside its always-on domain has power and is out of reset (R339, R347, R405, R406). -/
def isUp (s : State) : Bool :=
  s.cfg.boot != .unpowered && s.cfg.boot != .inReset && (!lowState s || waking s)

/-- What happens only while the device is up; otherwise nothing does. -/
def whenUp (f : State → State) (s : State) : State := if isUp s then f s else s

/-- What happens only while the device is up and a block runs (R37). -/
def whenRuns (b : Nat) (f : State → State) (s : State) : State := if isUp s && s.runs b then f s else s

/-- DOZE of a pair: the device is in Doze, or the pair dozes by line mode (R336). -/
def showDoze (s : State) : State :=
  (List.range 16).foldl (fun s k => s.put (PWR_CP_PM_DOZE k) (s.pwr.cur == .doze || (s.lineDoze k).on)) s

/-- Shows the state, the transition and the pending request. -/
def showPwr (s : State) : State :=
  let p := s.pwr
  let s := (s.wr PWR_STATUS_CUR p.cur.code).put PWR_STATUS_BUSY p.trans.isSome
  let s := s.wr PWR_STATUS_TARGET (p.trans.elim 0 (fun t => t.2.code))
  let s := s.put PWR_STATUS_PEND_V p.pend.isSome
  showDoze (s.wr PWR_STATUS_PEND (p.pend.elim 0 PState.code))

/-- The replay FIFO as PWR_WAKE_LOG shows it. -/
def showWakeLog (s : State) : State :=
  let h := s.pwr.fifo.headD (0, 0)
  ((s.wr PWR_WAKE_LOG_COUNT s.pwr.fifo.length).wr PWR_WAKE_LOG_SRC h.1).wr PWR_WAKE_LOG_STAMP h.2

/-! ### Requests (R334, R339, R349) -/

/-- Every hart that runs is in WFI; harts not started count as in WFI (R339). -/
def allWfi (s : State) : Bool := (List.range 8).all (fun c => !(s.hart c).running || (s.hart c).wfi)

/-- Entry to Taste or Off begins (Table 15.3): sources armed, every pair restarted, light enables cleared, every block stopped but LPH
where the target is Taste, queued cells discarded and counted (R220). -/
def entryStart (st : PState) (s : State) : State :=
  let s := { s with pwr := { s.pwr with pend := none, trans := some (.entry, st), armed := true } }
  let s := (s.setReg PWR_TASTE_STAT.addr 0)
  let s := (List.range 16).foldl (fun s k => actRestart k s) s
  let s := (s.put LPH_LSRC_CTL_LIGHT_EN false).put MAC_LSRC_CTL_CL_EN false
  let s := stopBlocks (notCfg.filter (fun n => st != .taste || n != blkLPH)) s
  showPwr (discardQueues s)

/-- A request is taken up with no transition in progress: units change for Full, Trim and Doze; Taste and Off wait for every
hart to be in WFI. -/
def takeUp (st : PState) (s : State) : State :=
  match st with
  | .taste | .off =>
    if allWfi s then entryStart st s else showPwr { s with pwr := { s.pwr with pend := some st } }
  | _ =>
    let word := if st = .full then 0 else (s.reg PWR_TRIM.addr).toNat
    showPwr (servicePower { s with pwr := { s.pwr with pend := none, trans := some (.units, st), off := word } })

/-- A request (R349): one that meets a transition is held, and a later one overwrites it. -/
def request (st : PState) (s : State) : State :=
  if s.pwr.trans.isSome then showPwr { s with pwr := { s.pwr with pend := some st } } else takeUp st s

/-- The end of a transition: a pending request is taken up, or dropped where it names the state just reached. Below Trim and
Doze it waits for the wake. -/
def transitionEnds (st : PState) (s : State) : State :=
  let s := { s with pwr := { s.pwr with cur := st, trans := none } }
  match s.pwr.pend with
  | none => showPwr s
  | some p =>
    if p = st then showPwr ({ s with pwr := { s.pwr with pend := none } }.put PWR_EVT_PEND_DROP true)
    else if lowState s then showPwr s
    else takeUp p s

/-- The end of a Full, Trim or Doze transition. -/
def unitsDone (s : State) : State :=
  match s.pwr.trans with
  | some (.units, st) => transitionEnds st s
  | _ => s

/-- Hart `c` executes WFI: the last one starts a Taste or Off entry that waits (R339). -/
def hartWaits (c : Nat) (s : State) : State :=
  let s := if (s.hart c).running then s.setHart c { s.hart c with wfi := true } else s
  match s.pwr.trans, s.pwr.pend with
  | none, some p => if (p = .taste ∨ p = .off) ∧ ¬ lowState s ∧ allWfi s then entryStart p s else s
  | _, _ => s

/-! ### What the low states keep (R341, Table 15.4) -/

/-- Registers kept: those of PWR, and in Taste those of LPH that Table 15.4 names. -/
def keptReg (s : State) (st : PState) (a : Nat) : Bool :=
  let cp := s.rd PWR_TASTE_CP
  blkOf a == blkPWR ||
    (st == .taste &&
      (a == LPH_LSRC_CTL.addr || a == (LPH_CH_CTL cp).addr || a == (LPH_RX_CFG cp).addr || a == (LPH_DEC_CFG cp).addr ||
        (List.range 16).any (fun k => a == (LPH_CAL_RX k).addr) ||
        (List.range 4).any (fun n => a == (CEL_TRAIN n).addr)))

/-- Memory kept in Taste: core 0's SRAM, the shared L2, the firmware area of each present stack. -/
def keptByte (s : State) (a : Nat) : Bool :=
  decide (0x000100000000 ≤ a ∧ a ≤ 0x00010007FFFF) || decide (0x000110000000 ≤ a ∧ a ≤ 0x000110FFFFFF) ||
    (inCellar a && s.stackOk (stackOf a) && decide (a - stackBase (stackOf a) < firstPage s (stackOf a) * 8192))

/-- The domains that the state does not keep lose their power: everything but Table 15.4 is at its reset value. The
customer configuration that was applied before Taste counts as applied: firmware reloads the state it set (R31, R347). -/
def lowPower (st : PState) (s : State) : State :=
  let t := st == .taste
  let f := keepDis s (keepFuses s State.reset)
  let lph := s.runs blkLPH
  let kept : SMap Word := s.regs.filter (fun (e : Nat × Word) => keptReg s st e.1)
  let f := { f with
    cfg := { f.cfg with boot := .booted, bootRetry := s.cfg.bootRetry, vrEn := s.cfg.vrEn, mgrStrap := s.cfg.mgrStrap,
                        supplied := s.cfg.supplied, cfgDone := t && s.cfg.cfgDone },
    regs := kept.foldl (fun m (e : Nat × Word) => SMap.set regReset m e.1 e.2) f.regs,
    shadow := if t then s.shadow.filter (fun e => e.1 == (LPH_DEC_CFG (s.rd PWR_TASTE_CP)).addr) else [],
    mem := if t then s.mem.filter (fun e => keptByte s e.1) else [],
    clk := s.clk, tap := s.tap,
    pwr := { s.pwr with cur := st, trans := none, off := 0, cpOn := 0xFFFF, portOn := 0xFFFF, pipeOn := 0xFFFF, rxOff := 0,
                        sched := [], dozes := [], sleep := [], cycle := false } }
  let f := (f.put CLK_STATUS_XTAL_OK (s.bit CLK_STATUS_XTAL_OK)).put CLK_STATUS_RC32 (s.bit CLK_STATUS_RC32)
  let f := (List.range 16).foldl (fun f k => f.put (PWR_CP_PM_ASLEEP k) false) f
  let f := f.wr PWR_STATUS_PIPE_KEPT 0
  let f :=
    if t then
      let chan (c : LphCh) : LphCh := { warm := c.warm, rxKept := c.rxKept }
      let f := { f with lph := { f.lph with chans :=
        (s.lph.chans.map (fun (e : Nat × LphCh) => (e.1, chan e.2))).filter (fun e => e.2 != chan {}) } }
      let f := (List.range 16).foldl (fun f k => if k = s.rd PWR_TASTE_CP then f else f.wr (LPH_CAL_RX_STATE k) 0) f
      let f := f.wr CEL_STATUS_STK_OK (s.rd CEL_STATUS_STK_OK)
      let f := (List.range 4).foldl (fun f n => f.setStack n { ({} : Stack) with selfRefresh := s.stackOk n }) f
      if lph then (f.setBit CFG_BLK_RUN blkLPH).clrBit CFG_BLK_STOPPED blkLPH else f
    else f
  showPwr f

/-- Entry completes (R340, R346): the state is reached; with the FIFO not empty the entry ends in an immediate wake. -/
def entryDone (s : State) : State :=
  match s.pwr.trans with
  | some (.entry, st) =>
    let s := transitionEnds st (lowPower st s)
    if s.pwr.fifo.isEmpty then s
    else { s with pwr := { s.pwr with wanted := true } }.put PWR_EVT_ABANDON true
  | _ => s

/-! ### Wake sources (R344, R346, Table 15.6) -/

/-- The state whose sources count: the target of an entry, or the state the device is in. -/
def wakeFrom (s : State) : PState :=
  match s.pwr.trans with
  | some (.entry, st) => st
  | _ => s.pwr.cur

/-- A source is available in a state. -/
def wakeIn (src : Nat) (st : PState) : Bool :=
  match st with
  | .taste => true
  | .off => src == 1 || src == 2 || src == 4 || src == 5
  | _ => false

/-- A wake source occurs: latched while armed, enabled and available; a full FIFO drops it. -/
def wakeLatch (src stamp : Nat) (s : State) : State :=
  if !(s.pwr.armed && (s.rd PWR_WAKE_EN_EN).testBit src && wakeIn src (wakeFrom s)) then s
  else
    let waking := match s.pwr.trans with
      | some (.wake, _) => true
      | _ => false
    let s := { s with pwr := { s.pwr with wanted := !waking } }
    if 8 ≤ s.pwr.fifo.length then s.put PWR_WAKE_LOG_OVF true
    else showWakeLog { s with pwr := { s.pwr with fifo := s.pwr.fifo ++ [(src, stamp)] } }

/-- Signal detect on lane 0 of a physical port. -/
def wakeSd (P stamp : Nat) (s : State) : State :=
  if (s.rd PWR_WAKE_EN_SD_PORT).testBit P then wakeLatch 3 stamp s else s

/-- PWR_TMR reaches 0, counting from the state being reached. -/
def wakeTimer (stamp : Nat) (s : State) : State :=
  if lowState s ∧ s.rd PWR_TMR_MS ≠ 0 then wakeLatch 5 stamp s else s

/-! ### Wakes (R347, R348) -/

/-- A wake starts: the control domains have power, and core 0 runs from PWR_RESUME, or boots where the device was Off. -/
def wakeStart (mgr safeN : Bool) (s : State) : State :=
  if !(s.pwr.wanted && lowState s && s.pwr.trans.isNone) then s
  else
    let st := s.pwr.cur
    let s := { s with pwr := { s.pwr with wanted := false, attempts := 0, cycle := false, trans := some (.wake, .full) } }
    let s := showPwr (s.wr PWR_STATUS_FROM st.code)
    if st = .off then bootStart mgr safeN s
    else
      let s := ((s.put CLK_STATUS_IOSC_OK true).put CLK_STATUS_SPLL_LOCK true).put CLK_STATUS_REF_OK true
      let s := { s.put FLT_SUMMARY_SAFE_N safeN with cfg := { s.cfg with mgrStrap := mgr } }
      let s := (List.range 4).foldl (fun s n =>
        if s.stackOk n then s.wr (CEL_TRAIN_STATE n) 2 else s) s
      showFree 0 (showFree 1 (s.setHart 0 { running := true, mode := .m, pc := s.rd PWR_RESUME_ADDR }))

/-- A regulator or oscillator is not ready in time: started again, or after the third retry the wake fails and the device
returns to the state it was leaving. -/
def wakeRetry (s : State) : State :=
  match s.pwr.trans with
  | some (.wake, _) =>
    if s.pwr.attempts < 3 then { s with pwr := { s.pwr with attempts := s.pwr.attempts + 1 } }.inc PWR_CNT_RETRIES
    else
      let s := lowPower s.pwr.cur s
      showPwr (({ s with pwr := { s.pwr with wanted := false } }.inc PWR_CNT_FAILS).put PWR_EVT_WAKE_FAIL true)
  | _ => s

/-- A wake completes in Full. -/
def wakeDone (s : State) : State :=
  match s.pwr.trans with
  | some (.wake, _) =>
    let s := { s with pwr := { s.pwr with armed := false } }
    let s := transitionEnds .full ((s.put PWR_EVT_WAKE true).inc PWR_CNT_WAKES)
    let s := tskClock s
    if s.clk.xtalDue then fltReport (plainError blkCLK 2 .contained 7) { s with clk := { s.clk with xtalDue := false } } else s
  | _ => s

/-- ALERT_N is driven low. -/
def alertPulled (s : State) : Bool := s.cfg.boot != .unpowered && s.cfg.boot != .inReset && s.bit PWR_EVT_WAKE_FAIL

/-! ### The Taste cycle (R342, R343) -/

/-- A cycle ends without two valid headers: MISS_MAX in a row raise LOST. -/
def tasteMiss (stamp : Nat) (s : State) : State :=
  let s := (s.inc PWR_TASTE_STAT_MISSES).inc PWR_TASTE_STAT_MISS_RUN
  let s := { s with pwr := { s.pwr with cycle := false } }
  if s.rd PWR_TASTE_STAT_MISS_RUN = s.rd PWR_TASTE_MISS_MAX then wakeLatch 6 stamp s else s

/-- Wake flag `t` of a header (Table 4.4). -/
def wakeFlag (h : Bytes) (t : Nat) : Bool := (wordAt h (8 * (5 - t / 64))).toNat.testBit (t % 64)

/-- A header matches: valid, with the terminal's flag set. -/
def tasteHit (s : State) (h : Bytes) : Bool :=
  headerOk (s.rd PWR_TASTE_CP) false h && wakeFlag h (s.rd PWR_TASTE_TN % 256)

/-- A cycle starts: the slice's regulators are ready or not; the headers of frames A and B as they are received. A cycle that
has neither matched nor received both waits for its time limit. -/
def tasteCycle (ready : Bool) (a b : Option Bytes) (stamp : Nat) (s : State) : State :=
  if !(s.pwr.cur == .taste && s.pwr.trans.isNone && !s.pwr.cycle) then s
  else
    let s := s.inc PWR_TASTE_STAT_CYCLES
    let hits := [a, b].any (fun h => h.elim false (tasteHit s))
    if !ready then tasteMiss stamp s
    else if hits then wakeLatch 0 stamp (s.wr PWR_TASTE_STAT_MISS_RUN 0)
    else match a, b with
      | some x, some y =>
        let ok (h : Bytes) : Bool := headerOk (s.rd PWR_TASTE_CP) false h
        if ok x && ok y then s.wr PWR_TASTE_STAT_MISS_RUN 0 else tasteMiss stamp s
      | _, _ => { s with pwr := { s.pwr with cycle := true } }

/-- A cycle has not decided by 2.0 ms. -/
def tasteTimeout (stamp : Nat) (s : State) : State := if s.pwr.cycle then tasteMiss stamp s else s

/-! ### Line power modes (R336 to R338) -/

/-- The frame in progress on a channel, by its flywheel. -/
def frameNow (s : State) (k : Nat) : Nat := s.rd (DSF_SYNC_FC k) + (s.dsfCh k).since

/-- The receiver of a pair is powered again: a warm start. -/
def sleepRxUp (k : Nat) (s : State) : State :=
  if s.pwr.rxOff.testBit k then
    let s := { s with pwr := { s.pwr with rxOff := withBit s.pwr.rxOff k false } }
    if rxPowered s k then rxUp k true s else s
  else s

/-- GO in PWR_CP_PM (R337). -/
def modeGo (k : Nat) (s : State) : State :=
  let mode := s.rd (PWR_CP_PM_MODE k)
  let dur := s.rd (PWR_CP_PM_DUR k)
  let fc := s.rd (PWR_CP_FC_FC_EFF k)
  if mode = 3 ∨ (mode = 2 ∧ (s.rd (ACT_CP_STATE_STATE k) ≠ 4 ∨ dur = 0 ∨ 192 < dur)) ∨ fc < frameNow s k + 2 then
    s.put (PWR_CP_PM_ERR k) true
  else
    let s := s.setLineSched k (some ⟨mode, fc, dur⟩)
    if mode = 0 ∧ s.bit (PWR_CP_PM_ASLEEP k) then sleepRxUp k s else s

/-- A sleep ends: the pair runs on where its channel is in SYNC, else it takes the loss of frame. -/
def wakePair (k : Nat) (s : State) : State :=
  if !s.bit (PWR_CP_PM_ASLEEP k) then s
  else
    let s := (sleepRxUp k s).setSleepOf k none
    let s := s.put (PWR_CP_PM_ASLEEP k) false
    if s.rd (DSF_SYNC_STATE k) = 3 then s else actLof k s

/-- The tick of frame FC_EFF: the scheduled mode takes effect. -/
def modeApply (k : Nat) (s : State) : State :=
  match s.lineSched k with
  | none => s
  | some m =>
    if frameNow s k < m.fc then s
    else
      let s := (s.setLineSched k none).setLineDoze k {}
      if m.mode = 2 then
        let s := (s.put (PWR_CP_PM_ASLEEP k) true).setSleepOf k (some (m.fc, m.dur))
        let s := showDoze s
        if 8 < m.dur then
          let s := { s with pwr := { s.pwr with rxOff := withBit s.pwr.rxOff k true } }
          if s.bit (LPH_CH_CTL_RX_EN k) ∧ s.pwr.cpOn.testBit k then rxDown k s else s
        else s
      else
        let s := wakePair k s
        let s := if m.mode = 1 then s.setLineDoze k ⟨true, if m.dur = 0 then none else some (m.fc + m.dur)⟩ else s
        showDoze s

/-- A doze has lasted its frames. -/
def dozeDone (k : Nat) (s : State) : State :=
  match (s.lineDoze k).until_ with
  | some n => if (s.lineDoze k).on ∧ n ≤ frameNow s k then showDoze (s.setLineDoze k {}) else s
  | none => s

/-- The tick of frame FC_EFF + DUR − 8: the receiver warm-starts. -/
def sleepEarly (k : Nat) (s : State) : State :=
  match s.sleepOf k with
  | some x => if x.1 + x.2 ≤ frameNow s k + 8 then sleepRxUp k s else s
  | none => s

/-- The tick of frame FC_EFF + DUR + 8. -/
def sleepDone (k : Nat) (s : State) : State :=
  match s.sleepOf k with
  | some x => if x.1 + x.2 + 8 ≤ frameNow s k then wakePair k s else s
  | none => s

/-! ### Registers -/

/-- Writes of PWR registers: address, value, state before, state with the plain fields stored. -/
def pwrWrite (a : Nat) (v : Word) (s : State) : State :=
  let k := (a - (PWR_CP_PM 0).addr) / 16
  if a = PWR_REQ.addr ∧ fieldOf v 63 1 = 1 then
    match PState.ofCode (fieldOf v 48 3) with
    | some st => request st s
    | none => s.put PWR_REQ_ERR true
  else if a = PWR_WAKE_LOG.addr ∧ fieldOf v 63 1 = 1 then
    showWakeLog { s with pwr := { s.pwr with fifo := s.pwr.fifo.drop 1 } }
  else if (PWR_CP_PM 0).addr ≤ a ∧ k < 16 ∧ a = (PWR_CP_PM k).addr ∧ fieldOf v 63 1 = 1 then modeGo k s
  else s

end Sys2Proof.Machine
end

