-- ==== Sys2Proof/Machine/ClkOps.lean ====
section
/-! DEFINITION. Clock sources, the switch of the harts and the clock measurement (R381 to R387, R405). -/

namespace Sys2Proof.Machine

/-! ### CLK_CORE (R385, R386) -/

/-- A write of CLK_CORE that R386 discards whole, judged against the register before it. -/
def coreDiscarded (v : Word) (o : State) : Bool :=
  let en := fieldOf v 9 1
  let sel := fieldOf v 8 1
  let freq := fieldOf v 0 5
  (sel == 1 && !o.bit CLK_STATUS_CPLL_LOCK) ||
    ((freq != o.rd CLK_CORE_FREQ || en != o.rd CLK_CORE_CPLL_EN) && (o.bit CLK_CORE_SEL || o.bit CLK_STATUS_CORE_SRC)) ||
    decide (freq < 8) || decide (20 < freq)

/-- A write of CLK_CORE: discarded with ERR, or CPLL starts, stops or is retuned and the harts take the clock that SEL names. -/
def coreWrite (v : Word) (o s : State) : State :=
  if coreDiscarded v o then o.put CLK_CORE_ERR true
  else
    let moved := s.rd CLK_CORE_FREQ != o.rd CLK_CORE_FREQ || s.rd CLK_CORE_CPLL_EN != o.rd CLK_CORE_CPLL_EN
    let s := if moved || !s.bit CLK_CORE_CPLL_EN then s.put CLK_STATUS_CPLL_LOCK false else s
    s.put CLK_STATUS_CORE_SRC (s.bit CLK_CORE_SEL)

/-- CPLL reaches lock while it is running. -/
def cpllLocks (s : State) : State := if s.bit CLK_CORE_CPLL_EN then s.put CLK_STATUS_CPLL_LOCK true else s

/-- CPLL loses lock (R383): harts that run on it return to IOSC, with an event and a contained error. -/
def cpllLost (s : State) : State :=
  if !s.bit CLK_STATUS_CPLL_LOCK then s
  else
    let s := s.put CLK_STATUS_CPLL_LOCK false
    if s.bit CLK_STATUS_CORE_SRC then
      fltReport (plainError blkCLK 1 .contained 7) ((s.put CLK_STATUS_CORE_SRC false).put CLK_EVT_CPLL_LOSS true)
    else s

/-- Loss of SPLL lock, or of IOSC while the harts run on it, is fatal (R382). -/
def spllLost (iosc : Bool) (s : State) : State :=
  if iosc then
    if !s.bit CLK_STATUS_IOSC_OK then s
    else
      let s := s.put CLK_STATUS_IOSC_OK false
      if s.bit CLK_STATUS_CORE_SRC then s else fltReport (plainError blkCLK 0 .fatal 7) s
  else if !s.bit CLK_STATUS_SPLL_LOCK then s
  else fltReport (plainError blkCLK 0 .fatal 7) (s.put CLK_STATUS_SPLL_LOCK false)

/-! ### The crystal (R384, R405) -/

/-- The always-on domain gives up the crystal until reset: a contained error, in Taste or Off raised at the next wake. -/
def xtalGone (s : State) : State :=
  let s := ((s.put CLK_STATUS_XTAL_OK false).put CLK_STATUS_RC32 true).put CLK_EVT_XTAL_FAIL true
  let s := { s with clk := { s.clk with xtalDead := true } }
  if lowState s then { s with clk := { s.clk with xtalDue := true } } else fltReport (plainError blkCLK 2 .contained 7) s

/-- No crystal edge within four RC32 periods, with the domain on the crystal. -/
def xtalFails (s : State) : State := if s.bit CLK_STATUS_XTAL_OK ∧ ¬ s.clk.xtalDead then xtalGone s else s

/-- 1,024 good cycles: the domain moves to the crystal, unless it has failed since reset. -/
def xtalAdopt (s : State) : State :=
  if s.clk.xtalDead then s else (s.put CLK_STATUS_XTAL_OK true).put CLK_STATUS_RC32 false

/-- 2 s after VAON came into range the domain has not moved to the crystal. -/
def xtalLate (s : State) : State := if s.bit CLK_STATUS_XTAL_OK ∨ s.clk.xtalDead then s else xtalGone s

/-! ### Synchronisation references (R297) -/

/-- SREFn_OK, SREFn_LOSS and SREFn_F. -/
def srefBits (n : Nat) : RF × RF × RF :=
  if n = 0 then (CLK_STATUS_SREF0_OK, CLK_EVT_SREF0_LOSS, CLK_REF_CFG_SREF0_F)
  else (CLK_STATUS_SREF1_OK, CLK_EVT_SREF1_LOSS, CLK_REF_CFG_SREF1_F)

/-- An input leaves ±50 ppm of its setting. -/
def srefLost (n : Nat) (s : State) : State :=
  let b := srefBits n
  if s.bit b.1 then (s.put b.1 false).put b.2.1 true else s

/-- An input is within ±50 ppm of its setting; an unused one never reports OK. -/
def srefBack (n : Nat) (s : State) : State :=
  let b := srefBits n
  if s.rd b.2.2 = 3 then s else s.put b.1 true

/-! ### The measurement (R387) -/

/-- GO in CLK_MEAS: refused for a domain above 58 and while a count is in progress, else the count starts. -/
def measGo (v : Word) (o s : State) : State :=
  if o.bit CLK_MEAS_GO then s.put CLK_MEAS_ERR true
  else if 58 < fieldOf v 32 6 then s.put CLK_MEAS_ERR true
  else s.put CLK_MEAS_GO true

/-- The 1 ms count ends. -/
def measDone (count : Nat) (s : State) : State :=
  if s.bit CLK_MEAS_GO then (s.put CLK_MEAS_GO false).wr CLK_MEAS_COUNT count else s

/-- Writes of CLK registers. -/
def clkWrite (a : Nat) (v : Word) (o s : State) : State :=
  if a = CLK_CORE.addr then coreWrite v o s
  else if a = CLK_MEAS.addr ∧ fieldOf v 63 1 = 1 then measGo v o s
  else s

end Sys2Proof.Machine
end

