-- ==== Sys2Proof/Machine/Bus.lean ====
section
/-! DEFINITION. Register and memory accesses: who may make them (R317 to R319, R327 to R329, R413, R414), what a write
stores by the kinds of its fields (R4, R39, R41, R42, R45, R415), and what it brings about in its block. -/

namespace Sys2Proof.Machine

/-! ### CFG -/

/-- The mask of the block numbers. -/
def blockMask : Nat := allBlocks.foldl (fun m n => withBit m n true) 0

/-- A write of CFG_BLK_RUN (R37): bit 0x01 always reads 1, bits that are no block number read 0. A block whose bit goes to 1
restarts, where it may (R28, R31). Client ports end their frames as the bit of MAC goes to 0 (R284). -/
def blkRunWrite (o s : State) : State :=
  let run := withBit ((s.reg CFG_BLK_RUN.addr).toNat &&& blockMask) blkCFG true
  let s := s.setReg CFG_BLK_RUN.addr (BitVec.ofNat 64 run)
  let was := (o.reg CFG_BLK_RUN.addr).toNat
  let s := if was.testBit blkMAC && !run.testBit blkMAC then macSafe s else s
  allBlocks.foldl (fun s n => if run.testBit n && !was.testBit n then blockRestart n s else s) s

/-- Writes of CFG registers: CFG_RESET acts where KEY is right (R46). -/
def cfgWrite (a : Nat) (v : Word) (o s : State) : State :=
  if a = CFG_BLK_RUN.addr then blkRunWrite o s
  else if a = CFG_RESET.addr then (if fieldOf v 0 16 = 0xD1E5 then deviceReset s else s)
  else if a = CFG_GRP_COMMIT.addr then commitGroup (fieldOf v 0 6) (fieldOf v 7 1 == 1) (fieldOf v 8 4) s
  else if a = CFG_GRP_ABORT.addr then abortGroup (fieldOf v 0 6) s
  else if a = CFG_SPI_CMD.addr ∧ fieldOf v 63 1 = 1 then spiGo o s
  else s

/-- Writes of CHP registers: a release is requested (R144). -/
def chpWrite (a : Nat) (v : Word) (s : State) : State :=
  let k := a % 0x1000000 / 0x10000
  if k < 16 ∧ a = (CHP_CTL k).addr ∧ fieldOf v 0 1 = 1 then s.setChpCh k { s.chpCh k with relReq := true } else s

/-! ### What a write stores -/

/-- The value of a field that a written word gives it: the nearer end of its range where it lies outside (R415). -/
def FieldRow.clamped (f : FieldRow) (v : Word) : Nat :=
  let n := fieldOf v f.lo f.w
  if f.mn < 0 then unsigned f.w (clampInt f.mn f.mx (signed f.w n)) else clamp f.mn.toNat f.mx.toNat n

/-- A word with the fields of one kind written. -/
def storeKind (k : Kind) (r : RegRow) (v w : Word) : Word :=
  (r.fields.filter (·.kind == k)).foldl (fun w f => setField w f.lo f.w (f.clamped v)) w

/-- A word with the W1C bits cleared where 1 is written. -/
def storeW1c (r : RegRow) (v w : Word) : Word :=
  (r.fields.filter (·.kind == .w1c)).foldl (fun w f =>
    let old := fieldOf w f.lo f.w
    setField w f.lo f.w (old - (old &&& fieldOf v f.lo f.w))) w

/-- The register has a field of a kind. -/
def RegRow.has (r : RegRow) (k : Kind) : Bool := r.fields.any (·.kind == k)

/-- SX fields: taken where the block is stopped, else discarded with the block's bit of CFG_WWR set (R39). -/
def storeSx (a : Nat) (r : RegRow) (v : Word) (s : State) : State :=
  if !r.has .sx then s
  else if s.runs r.blk then s.setBit CFG_WWR r.blk
  else s.setReg a (storeKind .sx r v (s.reg a))

/-- SH fields: to the shadow bank, or discarded with WPEND while a swap is pending (R41, R42). -/
def storeSh (a : Nat) (r : RegRow) (v : Word) (s : State) : State :=
  if !r.has .sh then s
  else match bankOf a with
    | some b => if s.bit (bankPending b) then s.put (bankWpend b) true else s.setSh a (storeKind .sh r v (s.shReg a))
    | none => s

/-- ST fields: staged, or discarded while their group's commit is pending (R44, R45). -/
def storeSt (a : Nat) (r : RegRow) (v : Word) (s : State) : State :=
  if !r.has .st then s else stageReg a (storeKind .st r v ((s.stagedReg a).getD (s.reg a))) s

/-- What a write stores at once: RW fields, W1C clears, SX, SH and ST fields by their rules. RO, RC, W1S and WO fields store
nothing; what the last two ask for is their block's. -/
def regStore (a : Nat) (r : RegRow) (v : Word) (s : State) : State :=
  let s := if r.has .rw || r.has .w1c then s.setReg a (storeW1c r v (storeKind .rw r v (s.reg a))) else s
  storeSt a r v (storeSh a r v (storeSx a r v s))

/-! ### What a write brings about -/

/-- The write of a register reaches its block: `o` is the state before it, `s` the state with its fields stored. -/
def blockWrite (level a : Nat) (v : Word) (o s : State) : State :=
  let b := blkOf a
  if b = blkCFG then cfgWrite a v o s
  else if b = blkCLK then clkWrite a v o s
  else if b = blkPWR then pwrWrite a v s
  else if b = blkFLT then fltWrite level a v o s
  else if b = blkTSK then tskWrite a v o s
  else if b = blkACU then acuWrite a v o s
  else if b = blkLPH then lphWrite a v o s
  else if b = blkDSF then dsfWrite a v o s
  else if b = blkACT then actWrite a v o s
  else if b = blkUBE then ubeWrite a v o s
  else if b = blkCHP then chpWrite a v s
  else if b = blkCLS then clsWrite a v o s
  else if b = blkFLW then flwWrite a v o s
  else if b = blkCEL then celWrite a v o s
  else if b = blkSCH then schWrite a v o s
  else if b = blkCIP then cipWrite a v o s
  else if b = blkKLN then klnWrite a v o s
  else if b = blkMAC then macWrite a v o s
  else if b = blkTIM then timWrite a v s
  else if b = blkOHS then ohsWrite a o s
  else if b = blkCAS then casWrite a v o s
  else s

/-- A register is written: nothing at an unoccupied address (R413). -/
def regWrite (level a : Nat) (v : Word) (s : State) : State :=
  match regRow? a with
  | none => s
  | some r => if bankOf a = some a then bankWrite a v s else blockWrite level a v s (regStore a r v s)

/-- What a read of an occupied register returns: SH fields of the shadow bank unless RDSEL selects the active one, ST fields
as in effect, WO fields as 0 (R4, R41, R45). -/
def regValue (s : State) (a : Nat) : Word :=
  match bankOf a with
  | some b => if s.bit (bankRdsel b) then s.reg a else mergeMask (shMask a) (s.reg a) (s.shReg a)
  | none => s.reg a

/-- A register is read: its value, and its RC fields cleared (R6). A read of TIM_TOD_S latches the counter first (R296). -/
def regRead (a : Nat) (s : State) : Word × State :=
  match regRow? a with
  | none => (0, s)
  | some r =>
    let s := if a = TIM_TOD_S.addr then todLatch s else s
    let v := regValue s a
    if r.has .rc then
      (v, s.setReg a ((r.fields.filter (·.kind == .rc)).foldl (fun w f => setField w f.lo f.w 0) (s.reg a)))
    else (v, s)

/-! ### Addresses (R318, R411) -/

/-- The regions of Table 20.1 and Table 14.1. -/
inductive Region where
  | regs | sram | rom | cellar | nothing
  deriving DecidableEq, Repr

/-- The region of an address. -/
def regionOf (a : Nat) : Region :=
  if a ≤ 0x0000FFFFFFFF then .regs
  else if 0x000100000000 ≤ a ∧ a < 0x000100800000 ∧ (a - 0x000100000000) % 0x100000 < 0x80000 then .sram
  else if 0x000110000000 ≤ a ∧ a ≤ 0x000110FFFFFF then .sram
  else if 0x000120000000 ≤ a ∧ a ≤ 0x00012003FFFF then .rom
  else if inCellar a then .cellar
  else .nothing

/-! ### Limits that no window widens (R328, R386, Table 16.4's registers) -/

/-- The highest level whose write to a register is accepted, whatever the windows say. -/
def writeLimit (a : Nat) (v : Word) : Nat :=
  if blkOf a = blkACU then 0
  else if a = CFG_RESET.addr ∨ a = KLN_CMD.addr ∨ a = KLN_BIND_CMD.addr ∨ a = TSK_IND_CMD.addr ∨ a = TSK_TASK_CMD.addr
    ∨ a = TSK_TRC_BASE.addr ∨ a = TSK_TRC_CTL.addr ∨ a = PWR_REQ.addr ∨ a = PWR_TRIM.addr ∨ a = CLK_CORE.addr
    ∨ a = FLT_CFG.addr ∨ ((TSK_SRC 0).addr ≤ a ∧ a ≤ (TSK_SRC 63).addr) ∨ ((FLT_REACT 0).addr ≤ a ∧ a ≤ (FLT_REACT 63).addr)
  then 1
  else if a = PWR_RESUME.addr ∨ (a = KLN_RK.addr ∧ fieldOf v 0 1 = 1) then 0
  else if blkOf a = blkCHP ∧ a = (CHP_CTL (a % 0x1000000 / 0x10000)).addr ∧ fieldOf v 0 1 = 1 then 1
  else if a = TSK_POST.addr then 2
  else 3

/-- The highest level whose read is accepted. -/
def readLimit (a : Nat) : Nat := if blkOf a = blkACU then 1 else if regionOf a = .rom then 0 else 3

/-- An access that the ACU refuses (R319, R327, R328, R414), or that addresses nothing (R318). -/
def accessRefused (i : Initiator) (f : AccessForm) (wr : Bool) (a : Nat) (v : Word) (s : State) : Bool :=
  let l := levelOf i
  let odd := a % 8 != 0
  let shape := match i with
    | .core _ _ => regionOf a == .regs && (f != .word || odd)
    | _ => odd
  let limit := if wr then (if regionOf a = .regs then writeLimit a v else if regionOf a = .rom then 0 else 3)
    else (if regionOf a = .regs ∨ regionOf a = .rom then readLimit a else 3)
  shape || regionOf a == .nothing || decide (limit < l) || !acuAllows s i wr a

/-- A word with one field of a register replaced. -/
def withField (v : Word) (r : RF) (n : Nat) : Word := setField v r.lo r.w n

/-! ### Accesses -/

/-- A hart runs code that can make an access: until base firmware starts the others only core 0 does, in the boot ROM at level 0
(R23); a hart that is held or halted makes none, nor one whose post waits at a full queue (R322). -/
def hartCan (s : State) (c : Nat) (m : CoreMode) : Bool :=
  (s.cfg.boot == .booted || (c == 0 && m == .m)) && !s.flt.safeHalt && !(s.hart c).isolated && s.tsk.stalled.all (fun e => e.1 != c)

/-- The initiator can make an access now: the registers have power and answer it (R28, R339, R347, R406), and a hart is not held. -/
def canAccess (s : State) (i : Initiator) (a : Nat) : Bool :=
  let up := s.cfg.boot != .unpowered && s.cfg.boot != .inReset
  match i with
  | .core c m => up && s.cfg.boot != .failed && (!lowState s || waking s) && hartCan s c.val m
  | .host => up && !lowState s && (s.cfg.boot != .failed || blkOf a == blkCFG)
  | .mgmt => up && !lowState s && s.cfg.boot != .failed

/-- A hart that makes an access runs, in its mode. -/
def hartActs (i : Initiator) (s : State) : State :=
  match i with
  | .core c m => s.setHart c.val { s.hart c.val with running := true, mode := m, wfi := false }
  | _ => s

/-- An address of the spill area of a present stack, whose contents are the device's own (R206). -/
def spillAddr (s : State) (a : Nat) : Bool := inCellar a && s.stackOk (stackOf a) && inSpill s a

/-- Memory is written: the boot ROM discards it, and so does an absent stack, which is reported (R216, R328). What a write to
the spill area, which firmware must not make, does to the queues the spec does not say: it changes nothing here. -/
def memWrite (a : Nat) (v : Word) (s : State) : State :=
  match regionOf a with
  | .sram => s.setWord a v
  | .cellar => if spillAddr s a then s else devWrite a (wordBytes v) s
  | _ => s

/-- A write access. Harts' posts carry the issuing hart (R322). -/
def busWrite (i : Initiator) (f : AccessForm) (a : Nat) (v : Word) (s : State) : State :=
  if !canAccess s i a then s
  else
    let s := hartActs i s
    if accessRefused i f true a v s then acuRefuse i true a s
    else if regionOf a = .regs then
      match i with
      | .core c _ => if a = TSK_POST.addr then taskPost c.val (fieldOf v 16 12) (fieldOf v 0 6) s else regWrite (levelOf i) a v s
      | _ => regWrite (levelOf i) a v s
    else memWrite a v s

/-- A read access: the value it returns, 0 where it is refused (R35). -/
def busRead (i : Initiator) (f : AccessForm) (a : Nat) (s : State) : Word × State :=
  if !canAccess s i a then (0, s)
  else
    let s := hartActs i s
    if accessRefused i f false a 0 s then (0, acuRefuse i false a s)
    else match regionOf a with
      | .regs => regRead a s
      | .sram => (s.memWord a, s)
      | .rom => (s.memWord a, s)
      | .cellar => if spillAddr s a then s.draw else devRead a s
      | .nothing => (0, s)

/-- A read whose value goes to its initiator. -/
def busFetch (i : Initiator) (f : AccessForm) (a : Nat) (s : State) : State :=
  let r := busRead i f a s
  { r.2 with readOut := r.1 }

/-- A whole register write of a row that names it. -/
def regAccess (i : Initiator) (a : Nat) (v : Word) (s : State) : State := busWrite i .word a v s

end Sys2Proof.Machine
end

