-- ==== Sys2Proof/Machine/CfgOps.lean ====
section
/-! DEFINITION. Configuration records (R29 to R32), banks by name, the effect of group commits, register access by message
(R116), what a second boundary brings about, and the device's own progress in time. -/

namespace Sys2Proof.Machine

/-! ### Banks and groups (R41, R44) -/

/-- The address of a bank's BLOCK_BANK register. -/
def bankAddr : Bank → Nat
  | .lph k => (LPH_BANK k).addr
  | .dsf k => (DSF_BANK k).addr
  | .act k => (ACT_BANK k).addr
  | .ube k => (UBE_BANK k).addr
  | .cls => CLS_BANK.addr
  | .sch => SCH_BANK.addr
  | .gcl p => (GCL_BANK p).addr

/-- The swap takes place where its boundary has come (R41, R43). -/
def bankSwap (b : Nat) (s : State) : State := if bankDue s b then swapBank b s else s

/-- The shadow copy of a bank ends; messages held for UBE's bank are handled (R41, R111). -/
def bankCopyDone (b : Bank) (s : State) : State :=
  let s := bankCopied (bankAddr b) s
  match b with
  | .ube k => releaseHeld k s
  | _ => s

/-- Every staged value of a group takes effect, and the Chaperone judges its channel by the new copy (R44, R142). -/
def groupEffect (g : Nat) (s : State) : State :=
  if commitDue s g then
    let s := clearPend g (applyStaged g s)
    if g < 16 then timEqd g (chpReact g s) else s
  else s

/-! ### Configuration records (R29, R30) -/

/-- The initiator of a record: base firmware on core 0, with the rights of level 2. -/
def recInit : Initiator := .core 0 .u

/-- Base firmware goes on in its own mode after an access made with the rights of level 2. -/
def recAccess (f : State → State) (s : State) : State :=
  let t := f s
  t.setHart 0 { t.hart 0 with mode := (s.hart 0).mode }

/-- The next record is reached. -/
def nextRecord (s : State) : State := { s with cfg := { s.cfg with recIdx := s.cfg.recIdx + 1, waiting := false } }

/-- One record: a write, a wait for a value, or the end (Table 2.4); a failure with its cause. -/
def configRecord (s : State) : State :=
  if s.cfg.boot != .booted || s.cfg.cfgDone || s.cfg.cfgFailed then s
  else match s.cfg.cfgAt with
  | none => s
  | some c =>
    let off := 16 * s.cfg.recIdx
    if c.2 < off + 16 then configFails 4 s
    else
      let w := s.memWord (c.1 + off)
      let v := s.memWord (c.1 + off + 8)
      let op := fieldOf w 56 8
      let a := fieldOf w 0 48
      if op = 1 then
        if accessRefused recInit .word true a v s then configFails 1 (acuRefuse recInit true a s)
        else nextRecord (recAccess (busWrite recInit .word a v) s)
      else if op = 2 then
        let r := busRead recInit .word a s
        let t := recAccess (fun _ => r.2) s
        if r.1 = v then nextRecord t else { t with cfg := { t.cfg with waiting := true } }
      else if op = 3 then configApplied s
      else configFails 3 s

/-- A wait record has not been satisfied within 10 ms. -/
def configTimeout (s : State) : State :=
  if s.cfg.boot == .booted && s.cfg.waiting then configFails 2 s else s

/-! ### Register access by message (R116) and the wake list -/

/-- REG_WRITE: STATUS 5 where the ACU refuses it. -/
def doRegWrite (m : Bytes) (s : State) : State × Reply :=
  let a := msgF m 1 0 48
  let v := wordAt m 16
  let bad := accessRefused .mgmt .word true a v s
  (busWrite .mgmt .word a v s, .status (if bad then 5 else 0))

/-- REG_READ: answered with REG_VALUE. -/
def doRegRead (m : Bytes) (s : State) : State × Reply :=
  let a := msgF m 1 0 48
  let bad := accessRefused .mgmt .word false a 0 s
  let r := busRead .mgmt .word a s
  let st := if bad then 5 else 0
  (r.2, .body st (regValueBody (msgSeq m) st a r.1.toNat))

/-- WAKE_LIST is passed to PWR (Table 5.3). -/
def doWakeList (m : Bytes) (s : State) : State × Reply :=
  ({ s with pwr := { s.pwr with wakeList := some m } }, .none)

/-- TIME_OF_DAY goes to TIM (R300). -/
def doTimeOfDay (k : Nat) (m : Bytes) (s : State) : State × Reply := (timeOfDay k m s, .none)

/-! ### Time passing -/

/-- What a second boundary made by counting brings about in other blocks: the event of Table 14.2, and the manager's TIME
(R380). -/
def secondEvents (s : State) : State := sendTime (hwEvent 14 s)

/-- The gate tail of every burst that has left its modulator ends (R121; DESIGN CHOICE, log 174: when the clock next counts). -/
def tailsEnd (s : State) : State := (List.range 16).foldl (fun s k => endTail k s) s

/-- The counter counts on to its next second boundary, with what follows from it. -/
def nextSecond (s : State) : State := secondEvents (tailsEnd (countToBoundary s))

/-- The device idles for one cycle of the time clock: the counter counts, and each link group sends what waits. -/
def idleTick (s : State) : State :=
  if isUp s then
    let t := tailsEnd (clockTick s)
    let t := if secF ≤ s.tod.f + clockStep s then secondEvents t else t
    casSend 1 (casSend 0 t)
  else s

end Sys2Proof.Machine
end

