-- ==== Sys2Proof/Machine/EngOps.lean ====
section
/-! DEFINITION. The engines that run beside the registers: judging map entries, port orders, pipeline passes and
reinjection, sweeps, the flow engine and the ager, histograms, gate list changes. -/

namespace Sys2Proof.Machine

/-! ### Map entries (R80, R120) -/

/-- A grant that UBE accepts: kept for the frame, or a discovery window for ACT (R107, R120). -/
def takeGrant (k frame : Nat) (g : Grant) (s : State) : State :=
  let c := s.ubeCh k
  let s := s.setUbeCh k { c with accepted := c.accepted ++ [g] }
  if g.alloc = allocDisc then discWindow k frame g s else s

/-- Entry `n` of the map of the frame in progress. -/
def mapEntry (k n : Nat) (e : Bytes) (s : State) : State :=
  let c := s.dsfCh k
  if !(c.live && c.hdrOk && s.runs blkUBE) || decide (c.mapN ≤ n) then s
  else if !crc32cOk 16 e || !spanGood c.bad (128 + 16 * n) 16 then s
  else match judge s k (grantOf e) with
    | .ignored => s
    | .discarded => s.inc (UBE_CH_CNT0_GRANT_BAD k)
    | .accepted => takeGrant k c.fc (grantOf e) s

/-- The map of the frame in progress has been judged (R133, R134). -/
def mapReconcile (k : Nat) (s : State) : State :=
  let c := s.dsfCh k
  reconcile k c.fc (c.live && c.hdrOk && s.runs blkUBE) s

/-! ### Port orders (R115) -/

/-- SEL takes a port, as a write of LPH_PORT would (R48). -/
def selectPort (p : Nat) (s : State) : State := portSelect (s.wr LPH_PORT_SEL p)

/-- At the first frame boundary of the pair's channel at or after FC_EFF the ordered port is selected. -/
def portOrder (s : State) : State :=
  match s.act.order with
  | none => s
  | some (port, fc, k, seq) =>
    if s.bseq k ≤ seq ∨ s.lastB k < fc then s
    else selectPort port { s with act := { s.act with order := none } }

/-- A channel has held RX_LOS without a break for PROT_LOS ms (R115), 500,000 cycles of the time clock each. -/
def lostLong (s : State) (k : Nat) : Bool :=
  s.bit (LPH_RX_STATUS_RX_LOS k) &&
    ((s.lphCh k).losAt).elim false (fun t => decide (s.rd ACT_PROT_PROT_LOS * 500000 ≤ s.ticks - t))

/-- PROT_LOS ms have passed with every enabled channel in RX_LOS. A trimmed pair counts as not enabled (R335). -/
def autoProtect (s : State) : State :=
  let on := (List.range 16).filter (fun k => s.bit (LPH_CH_CTL_RX_EN k) && s.pwr.cpOn.testBit k)
  if s.bit ACT_PROT_AUTO_PROT && s.runs blkACT && s.act.autoMoved.isNone && !on.isEmpty
      && on.all (lostLong s) then
    let p := 1 - s.rd LPH_PORT_ACTIVE
    selectPort p { s with act := { s.act with autoMoved := some p } }
  else s

/-! ### Pipelines -/

/-- CEL accepts traffic: it runs, and after Taste every present stack has retrained (R220). -/
def celAccepts (s : State) : Bool :=
  s.runs blkCEL && (List.range 4).all (fun n => !(s.stackOk n && (s.stack n).selfRefresh))

/-- The words of a packet are checked as its pass begins (R20 to R22): its bytes corrected, and poisoned where one cannot be. -/
def passCheck (i : Nat) (c : Checks) (p : PassPkt) (s : State) : PassPkt × State :=
  let r := checkPacket blkPRS i c p.bytes s
  ({ p with bytes := r.1, poisoned := p.poisoned || r.2.1 }, r.2.2)

/-- The oldest packet in a pipeline makes its pass, once the blocks it needs run (R37, R155, R158, R163). -/
def packetPass (i : Nat) (c : Checks) (s : State) : State :=
  if !(s.runs blkPRS && celAccepts s && pipeOn s i) then s
  else match (s.pipe i).input with
    | [] => s
    | p :: t =>
      if (p.toLeaf.isNone && !s.runs blkCLS) || (!s.runs blkFLW && passNeedsFlw s p) then s
      else
        let r := passCheck i c p (s.setPipe i { s.pipe i with input := t })
        runPass i r.1 r.2

/-- A packet of the idle-slot port enters its pipeline (R14). -/
def idleSlot (i : Nat) (s : State) : State :=
  if !(s.runs blkPRS && pipeOn s i) then s
  else match idlePick (s.pipe i).idle with
    | none => s
    | some e =>
      let pl := s.pipe i
      enterPipe e.2 (s.setPipe i { pl with idle := pl.idle.erase e })

/-- One byte that the device reads at an address: of core SRAM, L2, the boot ROM or the Cellar, 0 from an absent stack; elsewhere
the spec gives no value. -/
def devByteAt (a : Nat) (s : State) : Byte × State :=
  match regionOf a with
  | .sram => (s.memByte a, s)
  | .rom => (s.memByte a, s)
  | .cellar => (if s.stackOk (stackOf a) then s.memByte a else 0, s)
  | _ => (s.draw.1.truncate 8, s.draw.2)

/-- `n` bytes that the device reads at an address, and whether a word of them cannot be corrected: each word of the Cellar is checked
(R221), and an absent stack is reported (R216). -/
def devBytes (a n : Nat) (s : State) : Bytes × Bool × State :=
  let bad := wordsBad s a n
  let ws := (a / 8) :: ((s.ecc.map (·.1)).filter (fun w => decide (a < 8 * w + 8 ∧ 8 * w < a + n ∧ w ≠ a / 8)))
  let s := ws.foldl (fun s w => if inCellar (8 * w) && s.stackOk (stackOf (8 * w)) then (readChecked (8 * w) s).2.2 else s) s
  let s := if inCellar a && !s.stackOk (stackOf a) then fltAddrEvent blkCEL (stackOf a) a s else s
  let r := (List.range n).foldl (fun (x : Bytes × State) i =>
    let d := devByteAt (a + i) x.2
    (d.1 :: x.1, d.2)) ([], s)
  (r.1.reverse, bad, r.2)

/-- The packet of CLS_RI_CMD is offered to its idle-slot port (R158, R335). -/
def reinjectOffer (s : State) : State :=
  if !s.bit CLS_RI_CMD_GO || !s.runs blkPRS then s
  else
    let dir := s.rd CLS_RI_CMD_DIR
    let src := s.rd CLS_RI_CMD_SRC
    let s := s.put CLS_RI_CMD_GO false
    if !pipeOn s (pipeOf dir src) then s.put CLS_RI_CMD_DROP true
    else
      let own := s.bit CLS_RI_CMD_MODE
      let r := devBytes (s.rd CLS_RI_ADDR_ADDR) (s.rd CLS_RI_CMD_LEN) s
      let p : PassPkt :=
        { bytes := withFcs r.1, dir := dir, src := src, sid := if dir = 1 && !own then 0 else s.rd CLS_RI_CMD_SID,
          ingress := s.tod.cut, origin := own, poisoned := r.2.1,
          toLeaf := if own then some (s.rd CLS_RI_CMD_QUEUE) else none }
      let o := offerIdle .slow p r.2.2
      if o.2 then o.1 else o.1.put CLS_RI_CMD_DROP true

/-! ### Rules (R175) -/

/-- A sweep has examined every rule, and ends; one that is queued starts. -/
def sweepEnds (s : State) : State :=
  if !s.cls.sweeping || !s.runs blkCLS then s
  else
    let s := sweepUpTo 32768 s
    let more := s.cls.sweepQueued
    let s := { s with cls := { s.cls with sweeping := more, sweepQueued := false, sweepAt := s.ticks, sweepPos := 0 } }
    s.put CLS_VER_SWEEP more

/-- A pending commit takes effect where it can (R174). -/
def commitNow (s : State) : State := if s.runs blkCLS && commitReady s then versionCommit s else s

/-! ### The flow engine (R186 to R191) -/

/-- Firmware's insertion ends: placed with STATUS 0, or full with STATUS 3. -/
def insertEnds (s : State) : State :=
  if !s.runs blkFLW then s
  else match s.flw.plan with
    | none => s
    | some p =>
      let r := flowPlace p { s with flw := { s.flw with plan := none } }
      match r.1 with
      | some x => flwStatus 0 (showFlow x r.2)
      | none => flwStatus 3 r.2

/-- The engine takes a learn request: a key that is present is discarded (R189). -/
def learnInsert (s : State) : State :=
  if !s.runs blkFLW || s.flw.plan.isSome then s
  else match s.flw.learnQ with
    | [] => s
    | r :: t =>
      let s := showFlw { s with flw := { s.flw with learnQ := t } }
      if (flowFind s r.fmt r.tuple).isSome then s
      else
        let p := flowSearch s { fmt := r.fmt, tuple := r.tuple, alistLo := 0x3FFF, alistHi := 0x3FFF }
        (flowPlace p.1 { s with flw := { s.flw with victim := p.2 } }).2

/-- One stash entry is placed directly in its buckets, where a place is free. -/
def stashOne (i : Nat) (s : State) : State :=
  let p := stashBase + i
  let e := s.flowAt p
  if !e.valid then s
  else
    let b := bucketsOf s e.tuple
    let long := e.fmt == 2
    match (freeIn s long b.1).orElse (fun _ => freeIn s long b.2) with
    | none => s
    | some x => (s.setFlowAt x e).setFlowAt p {}

/-- The engine is idle: each stash entry is tried once (R188). -/
def stashPlace (s : State) : State :=
  if !s.runs blkFLW || s.flw.plan.isSome || !s.flw.learnQ.isEmpty then s
  else showFlw ((List.range 16).foldl (fun s i => stashOne i s) s)

/-- An ageing tick (R190). -/
def ageTick (s : State) : State :=
  if !s.runs blkFLW then s
  else
    let s := { s with flw := { s.flw with now := (s.flw.now + 1) % 65536 } }
    if !s.bit FLW_CFG_AGE_EN then s
    else (s.flw.entries.map (·.1)).foldl (fun s p =>
      if agesOut s (s.flowAt p) then (flowDelete p true s).inc FLW_CNT1_AGED else s) s

/-- The age record of an entry and its final counts (Table 8.2). -/
def ageRecord (e : FlowEntry) (lo hi : Nat × Nat) : Bytes :=
  padTo 40 e.tuple ++ beBytes 8 (e.fmt * 2 ^ 62 + e.flgLo * 2 ^ 48 + e.flgHi * 2 ^ 40 + e.user)
    ++ beBytes 8 lo.1 ++ beBytes 8 lo.2 ++ beBytes 8 hi.1 ++ beBytes 8 hi.2 ++ zeros 48

/-- An age record is written to the age ring, or lost where the ring is full. -/
def ageNotify (e : FlowEntry) (s : State) : State :=
  let prod := s.rd FLW_AGEQ_PROD
  if 16384 ≤ (prod + 32768 - s.rd FLW_AGEQ_CONS) % 32768 then s.inc FLW_CNT1_AGE_LOST
  else
    let a := counterValue (2 * e.cidx) s
    let b := counterValue (2 * e.cidx + 1) a.2.2
    let s := devWrite (s.rd FLW_CBASE_BASE + 0x02400000 + prod % 16384 * 128)
      (ageRecord e (a.1, a.2.1) (b.1, b.2.1)) b.2.2
    s.wr FLW_AGEQ_PROD ((prod + 1) % 32768)

/-- The oldest held CIDX is freed (R191). -/
def cidxFree (s : State) : State :=
  match s.flw.held with
  | [] => s
  | h :: t =>
    let s := if h.aged && s.bit FLW_CFG_AGE_NOTIFY then ageNotify h.entry s else s
    let s := zeroCounter (2 * h.entry.cidx + 1) (zeroCounter (2 * h.entry.cidx) s)
    { s with flw := { s.flw with held := t } }

/-- A delta word that is due is added to its counter (R194). -/
def deltaFlush (cid : Nat) (s : State) : State := if flushDue s cid then flushDelta cid s else s

/-! ### Histograms (R240) -/

/-- The bin of a value on a scale of base 2^`sh`. -/
def histBin (sh n : Nat) : Nat := if n = 0 then 0 else min 15 (Nat.log2 n / sh + 1)

/-- One sample in a bin of the eight words at an address. -/
def histAdd (a bin : Nat) (s : State) : State :=
  let w := a + bin / 2 * 8
  let lo := if bin % 2 = 0 then 32 else 0
  let r := devRead w s
  devWrite w (wordBytes (setField r.1 lo 32 (satAdd 32 (fieldOf r.1 lo 32) 1))) r.2

/-- Depth and delay of one leaf. -/
def histLeaf (key : Nat) (s : State) : State :=
  let q := s.lq key
  let a := s.rd SCH_HIST_BASE_BASE + key * 128
  let age := (q.pkts.head?).elim 0 (fun (p : QPkt) => s.ageUs p.adm)
  histAdd (a + 64) (histBin 1 age) (histAdd a (histBin 2 (q.q + q.c)) s)

/-- One period: every leaf of both directions is sampled. -/
def histSample (s : State) : State :=
  if !(s.bit SCH_HIST_CTL_EN && s.runs blkSCH) then s
  else ((List.range 262144).foldl (fun s key => histLeaf key s) s).inc SCH_HIST_CTL_SAMPLES

/-! ### Gate lists (R243, R246) -/

/-- The config change time of a waiting change has come. -/
def gateChange (p : Nat) (s : State) : State :=
  let b := (GCL_BANK p).addr
  match (s.gclPort p).cct with
  | none => s
  | some c =>
    if c.inNs ≤ s.nowNs ∧ (s.bank b).phase = .waiting ∧ (s.bank b).kind = 3 then preFollow p (swapBank b s) else s

/-- A gate control entry of a port starts, and what is being sent follows its gates (R242, R245). -/
def gateEntry (p : Nat) (s : State) : State := preFollow p (gateEntryStart p s)

/-- Hold is asserted HOLD_ADV before an entry that sets it. -/
def gateHold (p : Nat) (s : State) : State :=
  if opWithin s p 1 (s.rd (GCL_PREEMPT_HOLD_ADV p)) then preFollow p (s.put (GCL_OPER_HOLD p) true) else s

/-- Hold is released REL_ADV before an entry that releases it. -/
def gateRelease (p : Nat) (s : State) : State :=
  if opWithin s p 2 (s.rd (GCL_PREEMPT_REL_ADV p)) then preFollow p (s.put (GCL_OPER_HOLD p) false) else s

end Sys2Proof.Machine
end

