-- ==== Sys2Proof/Machine/Boot.lean ====
section
/-! DEFINITION. Power, reset, boot and the customer configuration (table rows of chapters 02 and 19). -/

namespace Sys2Proof.Machine

/-- Data lines of a mode (R24). -/
def flashLines : FlashWidth → Nat
  | .one => 1
  | .four => 4
  | .eight => 8

/-- POWER_UP (R405). -/
def execPowerUp (s : State) : Host.Outcome State Fault Refusal :=
  .next (powerUp s)

/-- VR_EN_RISE (R405). -/
def execVrEnRise (s : State) : Host.Outcome State Fault Refusal :=
  .next (vrEnRise s)

/-- VR_EN_FALL (R405). -/
def execVrEnFall (s : State) : Host.Outcome State Fault Refusal :=
  .next (vrEnFall s)

/-- POWER_LOSS (R405): `vaon`: VAON is among the supplies that fall. -/
def execPowerLoss (vaon : Bool) (s : State) : Host.Outcome State Fault Refusal :=
  .next (powerLoss vaon s)

/-- RESET_N_ASSERT (R406). -/
def execResetNAssert (s : State) : Host.Outcome State Fault Refusal :=
  .next (resetPin s)

/-- RESET_RELEASE (R23): the MGR strap and the SAFE_N ball as sampled. -/
def execResetRelease (mgr safeN : Bool) (s : State) : Host.Outcome State Fault Refusal :=
  .next (resetRelease mgr safeN s)

/-- SFDP_READ_DONE (R24): the widest mode and the capacity in MiB that the flash reports. -/
def execSfdpReadDone (answered : Bool) (width : FlashWidth) (mib : BitVec 16)
    (s : State) : Host.Outcome State Fault Refusal :=
  .next (sfdpDone answered (flashLines width) mib.toNat s)

/-- COPY_HEADERS_READ (R27): the headers of 1,024 bytes, and whether each could not be read. -/
def execCopyHeadersRead (a b : Bytes) (errA errB : Bool) (s : State) : Host.Outcome State Fault Refusal :=
  .next (headersRead a b errA errB s)

/-- COPY_VALIDATED (R26): whether every section could be read, and the sections as read. -/
def execCopyValidated (readOk : Bool) (sections : List Bytes) (s : State) : Host.Outcome State Fault Refusal :=
  .next (copyValidated readOk sections s)

/-- HBM_BOOT_TRAINING (R216): `tries`: the attempt that passed, 0 for none; the conditions recorded. -/
def execHbmBootTraining (n : Fin 4) (tries : Fin 4) (t : BitVec 16) (duty : BitVec 8)
    (s : State) : Host.Outcome State Fault Refusal :=
  .next (bootTrain n tries t.toInt duty.toNat s)

/-- BASE_FIRMWARE_ENTRY (R23). -/
def execBaseFirmwareEntry (s : State) : Host.Outcome State Fault Refusal :=
  .next (firmwareEntry s)

/-- CONFIG_RECORD (R29). -/
def execConfigRecord (s : State) : Host.Outcome State Fault Refusal :=
  .next (configRecord s)

/-- CONFIG_WAIT_TIMEOUT (R30). -/
def execConfigWaitTimeout (s : State) : Host.Outcome State Fault Refusal :=
  .next (configTimeout s)

end Sys2Proof.Machine
end

