-- ==== Sys2Proof/Machine/Bursts.lean ====
section
/-! DEFINITION. Upstream bursts, the Hamper and the Chaperone (chapter 06). -/

namespace Sys2Proof.Machine

/-- The gate is asked for outside every window (Table 6.9, cause 1). -/
def gateOutside (k : Nat) (s : State) : State :=
  match beGate s k with
  | some b => if gateCovered s k b then s else shutDown k 1 false s
  | none => s

/-- The Chaperone clock has stopped, and its oscillator must run (R388, cause 2). -/
def clockLost (k : Nat) (s : State) : State :=
  if oscNeeded s k then shutDown k 2 false (s.put (CHP_STATUS_CLK_OK k) false) else s

/-- A gate opening is too long (cause 3). -/
def gateTooLong (k symbols : Nat) (s : State) : State :=
  if (beGate s k).isSome && decide (gateLimit s k < symbols) then shutDown k 3 false s else s

/-- The divider and the strobe of DSF differ, in SYNC (cause 5). -/
def dividerOff (k diff : Nat) (s : State) : State :=
  if inSync s k && (s.chpCh k).phased && decide (2 < diff) then shutDown k 5 false s else s

/-- RELEASE is written, and the request's outcome follows (R144). -/
def releaseChannel (i : Initiator) (k : Nat) (v : Word) (held pass : Bool) (s : State) : State :=
  let r := chpRelease k held pass (regAccess i (CHP_CTL k).addr (withField v (CHP_CTL_RELEASE k) 1) s)
  if r.2 then actPoll k r.1 else r.1

/-- MAP_RECONCILE (R134). -/
def execMapReconcile (k : Chan) (s : State) : Host.Outcome State Fault Refusal :=
  .next (whenUp (fun s => mapReconcile k s) s)

/-- NOFRAG_WAIT_EXPIRY (R130). -/
def execNofragWaitExpiry (k : Chan) (s : State) : Host.Outcome State Fault Refusal :=
  .next (whenUp (fun s => nofragExpire k s) s)

/-- BURST_START (R121). -/
def execBurstStart (k : Chan) (s : State) : Host.Outcome State Fault Refusal :=
  .next (whenUp (fun s => burstStart k s) s)

/-- UPSTREAM_FRAGMENT_ENCODE (R257): `late`: the fragment is not assembled in time; `c`: the words of the fragment as their checker
meets them. -/
def execUpstreamFragmentEncode (k : Chan) (late : Bool) (c : Checks) (s : State) : Host.Outcome State Fault Refusal :=
  .next (whenUp (fun s => encodeFragment k late c s) s)

/-- BURST_LEFT_MODULATOR (R136). -/
def execBurstLeftModulator (k : Chan) (s : State) : Host.Outcome State Fault Refusal :=
  .next (whenUp (fun s => burstLeft k s) s)

/-- CHP_FRAME_PARSE (R140): header and map entries as the final decoder gives them to the Chaperone. -/
def execChpFrameParse (k : Chan) (header : Bytes) (entries : List Bytes)
    (s : State) : Host.Outcome State Fault Refusal :=
  .next (whenUp (fun s => chpParse k (s.dsfCh k).bad header entries s) s)

/-- SHUTTER_DRIVE (R141). -/
def execShutterDrive (k : Chan) (s : State) : Host.Outcome State Fault Refusal :=
  .next (whenUp (fun s => chpDrive k s) s)

/-- SHUT_RDY_RISE (R141). -/
def execShutRdyRise (k : Chan) (s : State) : Host.Outcome State Fault Refusal :=
  .next (whenUp (fun s => chpReady k s) s)

/-- CHP_CLOSE (R142). -/
def execChpClose (k : Chan) (s : State) : Host.Outcome State Fault Refusal :=
  .next (whenUp (fun s => chpReact k s) s)

/-- CHP_GATE_OUTSIDE_WINDOW (R142). -/
def execChpGateOutsideWindow (k : Chan) (s : State) : Host.Outcome State Fault Refusal :=
  .next (whenUp (fun s => gateOutside k s) s)

/-- CHP_CLOCK_LOSS (R142). -/
def execChpClockLoss (k : Chan) (s : State) : Host.Outcome State Fault Refusal :=
  .next (whenUp (fun s => clockLost k s) s)

/-- CHP_GATE_TOO_LONG (R142): symbols for which the gate has been open. -/
def execChpGateTooLong (k : Chan) (symbols : BitVec 32) (s : State) : Host.Outcome State Fault Refusal :=
  .next (whenUp (fun s => gateTooLong k symbols.toNat s) s)

/-- CHP_DUTY_EXCEEDED (R142). -/
def execChpDutyExceeded (k : Chan) (s : State) : Host.Outcome State Fault Refusal :=
  .next (whenUp (fun s => if dutyExceeded s k then shutDown k 4 false s else s) s)

/-- CHP_DIVIDER_MISMATCH (R142): symbols between the divider and the strobe. -/
def execChpDividerMismatch (k : Chan) (diff : BitVec 16) (s : State) : Host.Outcome State Fault Refusal :=
  .next (whenUp (fun s => dividerOff k diff.toNat s) s)

/-- CHP_COPY_UNCORRECTABLE (R142). -/
def execChpCopyUncorrectable (k : Chan) (s : State) : Host.Outcome State Fault Refusal :=
  .next (whenUp (fun s => shutDown k 6 false s) s)

/-- CHP_FATAL_SHUTDOWN (R142). -/
def execChpFatalShutdown (s : State) : Host.Outcome State Fault Refusal :=
  .next (whenUp (fun s => if s.bit FLT_SUMMARY_FATAL || !s.runs blkCHP then shutDownAll s else s) s)

/-- CHP_RELEASE (R144): CLK_OK has been 1 for the last 1 ms; the self-test passes. -/
def execChpRelease (i : Initiator) (k : Chan) (v : Word) (held pass : Bool)
    (s : State) : Host.Outcome State Fault Refusal :=
  .next (releaseChannel i k v held pass s)

/-- UBE_IND_READ (R146). -/
def execUbeIndRead (i : Initiator) (v : Word) (s : State) : Host.Outcome State Fault Refusal :=
  .next (regAccess i (UBE_IND_CMD).addr (withField (withField v (UBE_IND_CMD_GO) 1) (UBE_IND_CMD_RD) 1) s)

/-- UBE_IND_WRITE (R146). -/
def execUbeIndWrite (i : Initiator) (v : Word) (s : State) : Host.Outcome State Fault Refusal :=
  .next (regAccess i (UBE_IND_CMD).addr (withField (withField v (UBE_IND_CMD_GO) 1) (UBE_IND_CMD_RD) 0) s)

end Sys2Proof.Machine
end

