-- ==== Sys2Proof/Machine/Cascade.lean ====
section
/-! DEFINITION. The cascade (chapter 17). -/

namespace Sys2Proof.Machine

/-- What comes with a container. -/
def casMore (t out : Stamp) (order : List (Fin 16)) (closed : Bool) (flash : Option Bytes) : CasMore :=
  { t := Tod.ofStamp t, out := Tod.ofStamp out, order := order.map (·.val), closed := closed, flash := flash }

/-- A container arrives as line bits. -/
def casLine (g : Nat) (line : List (List Bool)) (m : CasMore) (s : State) : State :=
  let r := casReceived g line s
  casArrive g r.1 m r.2

/-- A container of one type and operation arrives as line bits. -/
def casTyped (type op g : Nat) (line : List (List Bool)) (m : CasMore) (s : State) : State :=
  let r := casReceived g line s
  if casIs type op r.1 then casArrive g r.1 m r.2 else s

/-- LINK_GROUP_ENABLE (R371). -/
def execLinkGroupEnable (i : Initiator) (g : Fin 2) (v : Word) (s : State) : Host.Outcome State Fault Refusal :=
  .next (regAccess i (CAS_GRP_CTL g).addr v s)

/-- TERMINATION_PROBE (R371). -/
def execTerminationProbe (g : Fin 2) (lanes : BitVec 4) (s : State) : Host.Outcome State Fault Refusal :=
  .next (whenUp (fun s => terminationProbe g lanes.toNat s) s)

/-- TRAIN_DONE (R371). -/
def execTrainDone (g : Fin 2) (locked : BitVec 4) (late : Bool) (s : State) : Host.Outcome State Fault Refusal :=
  .next (whenUp (fun s => trainDone g locked.toNat late s) s)

/-- COMMA_LOCK (R371). -/
def execCommaLock (c : CommasSeen) (s : State) : Host.Outcome State Fault Refusal :=
  .next (whenUp (fun s => commaLock c.grp (c.lanes.map (fun e => (e.1, e.2.toNat))) s) s)

/-- LINK_STATE_TIMEOUT (R371). -/
def execLinkStateTimeout (g : Fin 2) (s : State) : Host.Outcome State Fault Refusal :=
  .next (whenUp (fun s => linkTimeout g s) s)

/-- LINK_GROUP_FAIL (R371). -/
def execLinkGroupFail (g : Fin 2) (why : GroupFail) (s : State) : Host.Outcome State Fault Refusal :=
  .next (whenUp (fun s => groupFails g why s) s)

/-- CAS_EQ_WINDOW (R372). -/
def execCasEqWindow (g : Fin 2) (lane : Fin 4) (swings : BitVec 17) (s : State) : Host.Outcome State Fault Refusal :=
  .next (whenUp (fun s => casWindow g lane swings.toNat s) s)

/-- CONTAINER_RECEIVE (R370): the line bits of each active lane, with the times of arrival and departure, the ring order the manager knows,
and flash bytes read for a READ_REQ. -/
def execContainerReceive (g : Fin 2) (line : List (List Bool)) (t out : Stamp) (order : List (Fin 16)) (closed : Bool) (flash : Option Bytes)
    (s : State) : Host.Outcome State Fault Refusal :=
  .next (whenUp (fun s => casLine g line (casMore t out order closed flash) s) s)

/-- CAPS (R371). -/
def execCaps (g : Fin 2) (line : List (List Bool)) (t out : Stamp) (order : List (Fin 16)) (closed : Bool) (flash : Option Bytes)
    (s : State) : Host.Outcome State Fault Refusal :=
  .next (whenUp (fun s => casTyped 2 1 g line (casMore t out order closed flash) s) s)

/-- HEARTBEAT (R374). -/
def execHeartbeat (g : Fin 2) (line : List (List Bool)) (t out : Stamp) (order : List (Fin 16)) (closed : Bool) (flash : Option Bytes)
    (s : State) : Host.Outcome State Fault Refusal :=
  .next (whenUp (fun s => casTyped 2 2 g line (casMore t out order closed flash) s) s)

/-- JOIN (R375). -/
def execJoin (g : Fin 2) (line : List (List Bool)) (t out : Stamp) (order : List (Fin 16)) (closed : Bool) (flash : Option Bytes)
    (s : State) : Host.Outcome State Fault Refusal :=
  .next (whenUp (fun s => casTyped 2 3 g line (casMore t out order closed flash) s) s)

/-- ASSIGN (R375). -/
def execAssign (g : Fin 2) (line : List (List Bool)) (t out : Stamp) (order : List (Fin 16)) (closed : Bool) (flash : Option Bytes)
    (s : State) : Host.Outcome State Fault Refusal :=
  .next (whenUp (fun s => casTyped 2 4 g line (casMore t out order closed flash) s) s)

/-- VIEW (R376). -/
def execView (g : Fin 2) (line : List (List Bool)) (t out : Stamp) (order : List (Fin 16)) (closed : Bool) (flash : Option Bytes)
    (s : State) : Host.Outcome State Fault Refusal :=
  .next (whenUp (fun s => casTyped 2 5 g line (casMore t out order closed flash) s) s)

/-- READ_REQ (R377). -/
def execReadReq (g : Fin 2) (line : List (List Bool)) (t out : Stamp) (order : List (Fin 16)) (closed : Bool) (flash : Option Bytes)
    (s : State) : Host.Outcome State Fault Refusal :=
  .next (whenUp (fun s => casTyped 2 6 g line (casMore t out order closed flash) s) s)

/-- TIME (R380). -/
def execTime (g : Fin 2) (line : List (List Bool)) (t out : Stamp) (order : List (Fin 16)) (closed : Bool) (flash : Option Bytes)
    (s : State) : Host.Outcome State Fault Refusal :=
  .next (whenUp (fun s => casTyped 2 7 g line (casMore t out order closed flash) s) s)

/-- PROBE (R380). -/
def execProbe (g : Fin 2) (line : List (List Bool)) (t out : Stamp) (order : List (Fin 16)) (closed : Bool) (flash : Option Bytes)
    (s : State) : Host.Outcome State Fault Refusal :=
  .next (whenUp (fun s => casTyped 2 8 g line (casMore t out order closed flash) s) s)

/-- PROBE_RESP (R380). -/
def execProbeResp (g : Fin 2) (line : List (List Bool)) (t out : Stamp) (order : List (Fin 16)) (closed : Bool) (flash : Option Bytes)
    (s : State) : Host.Outcome State Fault Refusal :=
  .next (whenUp (fun s => casTyped 2 9 g line (casMore t out order closed flash) s) s)

/-- BOOT_CONTAINER (R377). -/
def execBootContainer (g : Fin 2) (line : List (List Bool)) (t out : Stamp) (order : List (Fin 16)) (closed : Bool) (flash : Option Bytes)
    (s : State) : Host.Outcome State Fault Refusal :=
  .next (whenUp (fun s => casTyped 3 0 g line (casMore t out order closed flash) s) s)

/-- CASCADE_ARRIVAL (R379). -/
def execCascadeArrival (g : Fin 2) (s : State) : Host.Outcome State Fault Refusal :=
  .next (whenUp (fun s => cascadeArrival g s) s)

/-- HEARTBEAT_TICK (R375). -/
def execHeartbeatTick (s : State) : Host.Outcome State Fault Refusal :=
  .next (whenUp (fun s => heartbeatTick s) s)

/-- MEMBER_CHECK_TICK (R375). -/
def execMemberCheckTick (joins : List (BitVec 64)) (order : List (Fin 16)) (closed : Bool)
    (s : State) : Host.Outcome State Fault Refusal :=
  .next (whenUp (fun s => memberCheck joins (order.map (·.val)) closed s) s)

/-- ELECTION_TIMEOUT (R374). -/
def execElectionTimeout (order : List (Fin 16)) (closed : Bool) (s : State) : Host.Outcome State Fault Refusal :=
  .next (whenUp (fun s => becomeManager (order.map (·.val)) closed s) s)

/-- MGR_LOST (R376). -/
def execMgrLost (s : State) : Host.Outcome State Fault Refusal :=
  .next (whenUp (fun s => managerLost s) s)

/-- JOIN_RETRY (R375). -/
def execJoinRetry (s : State) : Host.Outcome State Fault Refusal :=
  .next (whenUp (fun s => joinRetry s) s)

/-- BOOT_WAIT_EXPIRY (R377). -/
def execBootWaitExpiry (s : State) : Host.Outcome State Fault Refusal :=
  .next (whenUp (fun s => bootWaitEnds s) s)

/-- CAS_IND_READ (R378). -/
def execCasIndRead (i : Initiator) (v : Word) (s : State) : Host.Outcome State Fault Refusal :=
  .next (regAccess i (CAS_IND_CMD).addr (withField (withField v (CAS_IND_CMD_GO) 1) (CAS_IND_CMD_RD) 1) s)

/-- CAS_IND_WRITE (R378). -/
def execCasIndWrite (i : Initiator) (v : Word) (s : State) : Host.Outcome State Fault Refusal :=
  .next (regAccess i (CAS_IND_CMD).addr (withField (withField v (CAS_IND_CMD_GO) 1) (CAS_IND_CMD_RD) 0) s)

end Sys2Proof.Machine
end

