-- ==== Sys2Proof/Machine/Cellar.lean ====
section
/-! DEFINITION. Cell buffer and Cellar (chapter 09). -/

namespace Sys2Proof.Machine

/-- The pool registers. -/
def poolAddr (n : Nat) : Nat :=
  if n = 0 then CEL_POOL_RA.addr else if n = 1 then CEL_POOL_DS.addr else if n = 2 then CEL_POOL_US.addr else CEL_FLOOR.addr

/-- SPILL_PAGE_WRITE (R211). -/
def execSpillPageWrite (key : Fin 262144) (s : State) : Host.Outcome State Fault Refusal :=
  .next (whenRuns blkCEL (fun s => spillWrite key s) s)

/-- SPILL_WRITE_DONE (R211). -/
def execSpillWriteDone (key : Fin 262144) (page : BitVec 24) (s : State) : Host.Outcome State Fault Refusal :=
  .next (whenUp (fun s => spillWriteDone key page.toNat s) s)

/-- CELLAR_RETURN_READ (R212). -/
def execCellarReturnRead (key : Fin 262144) (s : State) : Host.Outcome State Fault Refusal :=
  .next (whenRuns blkCEL (fun s => returnRead key s) s)

/-- RETURN_READ_DONE (R212): the bits found inverted in words of the page. -/
def execReturnReadDone (key : Fin 262144) (page : BitVec 24) (flips : List (PageWord × BitVec 72))
    (s : State) : Host.Outcome State Fault Refusal :=
  .next (whenUp (fun s => returnDone key page.toNat flips s) s)

/-- HBM_CONDITION_CHECK (R217). -/
def execHbmConditionCheck (n : Fin 4) (t : BitVec 16) (duty : BitVec 8)
    (s : State) : Host.Outcome State Fault Refusal :=
  .next (whenUp (fun s => stackCheck n t.toInt duty.toNat s) s)

/-- HBM_RETRAIN_REQUEST (R217). -/
def execHbmRetrainRequest (i : Initiator) (v : Word) (s : State) : Host.Outcome State Fault Refusal :=
  .next (regAccess i (CEL_TRAIN_CTL).addr v s)

/-- HBM_RETRAIN_START (R217). -/
def execHbmRetrainStart (t : BitVec 16) (duty : BitVec 8) (s : State) : Host.Outcome State Fault Refusal :=
  .next (whenUp (fun s => retrainStart t.toInt duty.toNat s) s)

/-- HBM_RETRAIN_STEP (R219). -/
def execHbmRetrainStep (n : Fin 4) (s : State) : Host.Outcome State Fault Refusal :=
  .next (whenUp (fun s => retrainStep n s) s)

/-- HBM_RETRAIN_DONE (R217). -/
def execHbmRetrainDone (n : Fin 4) (t : BitVec 16) (duty : BitVec 8) (s : State) : Host.Outcome State Fault Refusal :=
  .next (whenUp (fun s => retrainDone n t.toInt duty.toNat s) s)

/-- SCRUB_READ (R222): the bits found inverted in the word read, beside those it is known to hold. -/
def execScrubRead (flip : BitVec 72) (s : State) : Host.Outcome State Fault Refusal :=
  .next (whenUp (fun s => scrubRead flip s) s)

/-- HBM_ROW_TEST (R223). -/
def execHbmRowTest (a : BitVec 48) (s : State) : Host.Outcome State Fault Refusal :=
  .next (whenUp (fun s => rowTest a.toNat s) s)

/-- HBM_ROW_TEST_DONE (R223): the row passed; a spare row is left in its stack. -/
def execHbmRowTestDone (a : BitVec 48) (pass spare : Bool) (s : State) : Host.Outcome State Fault Refusal :=
  .next (whenUp (fun s => hbmTestDone a.toNat pass spare s) s)

/-- CEL_IND_READ (R225). -/
def execCelIndRead (i : Initiator) (v : Word) (s : State) : Host.Outcome State Fault Refusal :=
  .next (regAccess i (CEL_IND_CMD).addr (withField (withField v (CEL_IND_CMD_GO) 1) (CEL_IND_CMD_RD) 1) s)

/-- CEL_IND_WRITE (R225). -/
def execCelIndWrite (i : Initiator) (v : Word) (s : State) : Host.Outcome State Fault Refusal :=
  .next (regAccess i (CEL_IND_CMD).addr (withField (withField v (CEL_IND_CMD_GO) 1) (CEL_IND_CMD_RD) 0) s)

/-- POOL_WRITE (R224): CEL_POOL_RA, CEL_POOL_DS, CEL_POOL_US, CEL_FLOOR. -/
def execPoolWrite (i : Initiator) (which : Fin 4) (v : Word) (s : State) : Host.Outcome State Fault Refusal :=
  .next (regAccess i (poolAddr which) v s)

end Sys2Proof.Machine
end

