-- ==== Sys2Proof/Machine/Cfg.lean ====
section
/-! DEFINITION. Configuration and register access (chapter 02). -/

namespace Sys2Proof.Machine


/-- CFG_RESET_WRITE (R46). -/
def execCfgResetWrite (i : Initiator) (v : Word) (s : State) : Host.Outcome State Fault Refusal :=
  .next (regAccess i (CFG_RESET).addr (withField v (CFG_RESET_KEY) 0xD1E5) s)

/-- SPI_COMMAND (R34). -/
def execSpiCommand (i : Initiator) (v : Word) (s : State) : Host.Outcome State Fault Refusal :=
  .next (regAccess i (CFG_SPI_CMD).addr (withField v (CFG_SPI_CMD_GO) 1) s)

/-- SPI_COMMAND_DONE (R33): the flash responded, and the bytes it returned. -/
def execSpiCommandDone (ok : Bool) (data : Bytes) (s : State) : Host.Outcome State Fault Refusal :=
  .next (whenUp (fun s => spiDone ok data s) s)

/-- HOST_WRITE (R407): the address and data bytes of the transaction; one that is cut short writes nothing. -/
def execHostWrite (frame : Bytes) (s : State) : Host.Outcome State Fault Refusal :=
  .next (if frame.length = 14 then busWrite .host .word (beAt frame 0 6) (wordAt frame 6) s else s)

/-- HOST_READ (R407): a transaction that ends before the eighth data byte has no effect (R35). -/
def execHostRead (f : HostFrame) (s : State) : Host.Outcome State Fault Refusal :=
  .next (if f.bytes.val = 8 then busFetch .host .word f.addr.toNat s else s)

/-- REGISTER_WRITE (R36). -/
def execRegisterWrite (i : Initiator) (f : AccessForm) (a : BitVec 48) (v : Word)
    (s : State) : Host.Outcome State Fault Refusal :=
  .next (busWrite i f a.toNat v s)

/-- BLOCK_STOP (R37). -/
def execBlockStop (i : Initiator) (n : Fin 64) (v : Word) (s : State) : Host.Outcome State Fault Refusal :=
  .next (regAccess i CFG_BLK_RUN.addr (withField v ⟨0, n, 1⟩ 0) s)

/-- BLOCK_STOPPED (R37). -/
def execBlockStopped (n : Fin 64) (s : State) : Host.Outcome State Fault Refusal :=
  .next (whenUp (fun s => if allBlocks.contains n.val && n.val != blkCFG && !(s.rd CFG_BLK_RUN).testBit n then blockStopped n s else s) s)

/-- BLOCK_RESTART (R37). -/
def execBlockRestart (i : Initiator) (n : Fin 64) (v : Word) (s : State) : Host.Outcome State Fault Refusal :=
  .next (regAccess i CFG_BLK_RUN.addr (withField v ⟨0, n, 1⟩ 1) s)

/-- SX_WRITE (R39). -/
def execSxWrite (i : Initiator) (a : BitVec 48) (v : Word) (s : State) : Host.Outcome State Fault Refusal :=
  .next (busWrite i .word a.toNat v s)

/-- SH_WRITE (R42). -/
def execShWrite (i : Initiator) (a : BitVec 48) (v : Word) (s : State) : Host.Outcome State Fault Refusal :=
  .next (busWrite i .word a.toNat v s)

/-- ST_WRITE (R45). -/
def execStWrite (i : Initiator) (a : BitVec 48) (v : Word) (s : State) : Host.Outcome State Fault Refusal :=
  .next (busWrite i .word a.toNat v s)

/-- BANK_SWAP_REQUEST (R41). -/
def execBankSwapRequest (i : Initiator) (b : Bank) (v : Word) (s : State) : Host.Outcome State Fault Refusal :=
  .next (regAccess i (bankAddr b) (withField v ⟨0, 3, 1⟩ 1) s)

/-- BANK_CANCEL (R42). -/
def execBankCancel (i : Initiator) (b : Bank) (v : Word) (s : State) : Host.Outcome State Fault Refusal :=
  .next (regAccess i (bankAddr b) (withField v ⟨0, 4, 1⟩ 1) s)

/-- BANK_SWAP (R41). -/
def execBankSwap (b : Bank) (s : State) : Host.Outcome State Fault Refusal :=
  .next (whenUp (fun s => bankSwap (bankAddr b) s) s)

/-- BANK_SHADOW_COPY_DONE (R41). -/
def execBankShadowCopyDone (b : Bank) (s : State) : Host.Outcome State Fault Refusal :=
  .next (whenUp (fun s => bankCopyDone b s) s)

/-- GROUP_COMMIT (R44). -/
def execGroupCommit (i : Initiator) (v : Word) (s : State) : Host.Outcome State Fault Refusal :=
  .next (regAccess i (CFG_GRP_COMMIT).addr v s)

/-- GROUP_COMMIT_EFFECT (R44). -/
def execGroupCommitEffect (g : Fin 64) (s : State) : Host.Outcome State Fault Refusal :=
  .next (whenUp (fun s => groupEffect g s) s)

/-- GROUP_ABORT (R45). -/
def execGroupAbort (i : Initiator) (v : Word) (s : State) : Host.Outcome State Fault Refusal :=
  .next (regAccess i (CFG_GRP_ABORT).addr v s)

/-- CLEARING_READ (R6): a core reads a register. -/
def execClearingRead (c : Fin 8) (mode : CoreMode) (a : BitVec 48) (s : State) : Host.Outcome State Fault Refusal :=
  .next (busFetch (.core c mode) .word a.toNat s)

end Sys2Proof.Machine
end

