-- ==== Sys2Proof/Machine/Clients.lean ====
section
/-! DEFINITION. Client ports (chapter 12). -/

namespace Sys2Proof.Machine

/-- FEC codewords of a received frame are counted at its physical port. -/
def fecCount (p corr unc : Nat) (s : State) : State :=
  if phyOn s (p % 16) then (s.addTo (MAC_FEC_CNT_CORR (p % 16)) corr).addTo (MAC_FEC_CNT_UNCORR (p % 16)) unc else s

/-- PORT_ENABLE (R279). -/
def execPortEnable (i : Initiator) (P : PPort) (v : Word) (s : State) : Host.Outcome State Fault Refusal :=
  .next (regAccess i (MAC_PHY_CTL P).addr (withField v (MAC_PHY_CTL_EN P) 1) s)

/-- PORT_DISABLE (R279). -/
def execPortDisable (i : Initiator) (P : PPort) (v : Word) (s : State) : Host.Outcome State Fault Refusal :=
  .next (regAccess i (MAC_PHY_CTL P).addr (withField v (MAC_PHY_CTL_EN P) 0) s)

/-- LINK_CHANGE (R283): what the PCS of the port reports. -/
def execLinkChange (p : LPort) (lanes : BitVec 8) (aligned localF remoteF quiet hiSer : Bool)
    (s : State) : Host.Outcome State Fault Refusal :=
  .next (whenUp (fun s => linkChange p { lanes := lanes.toNat, aligned := aligned, localF := localF, remoteF := remoteF, quiet := quiet, hiSer := hiSer } s) s)

/-- MAC_RECEIVE_FRAME (R285): the frame, an error code within it, an uncorrectable codeword within it, non-final fragments, a
reassembly error, FEC codewords corrected and uncorrectable. -/
def execMacReceiveFrame (p : LPort) (frame : Bytes) (code line : Bool) (frags : BitVec 16) (assy : Bool) (corr unc : BitVec 16)
    (s : State) : Host.Outcome State Fault Refusal :=
  .next (whenUp (fun s => macArrive p frame (code || line) frags.toNat assy (fecCount p corr.toNat unc.toNat s)) s)

/-- PFC_PAUSE_EXPIRY (R290). -/
def execPfcPauseExpiry (p : LPort) (t : Fin 8) (s : State) : Host.Outcome State Fault Refusal :=
  .next (whenUp (fun s => pauseEnds p t s) s)

/-- PFC_XOFF (R288). -/
def execPfcXoff (p : LPort) (s : State) : Host.Outcome State Fault Refusal :=
  .next (whenUp (fun s => pfcChange p s) s)

/-- PFC_REFRESH (R288). -/
def execPfcRefresh (p : LPort) (s : State) : Host.Outcome State Fault Refusal :=
  .next (whenUp (fun s => pfcRefresh p s) s)

/-- MAC_TRANSMIT (R289): the words of the packet as they leave the cell buffer. -/
def execMacTransmit (p : LPort) (c : Checks) (s : State) : Host.Outcome State Fault Refusal :=
  .next (whenUp (fun s => macTransmit p c s) s)

/-- MM_VERIFY_ATTEMPT (R291). -/
def execMmVerifyAttempt (p : LPort) (t : VerifyTime) (s : State) : Host.Outcome State Fault Refusal :=
  .next (whenUp (fun s => verifyAttempt p t.resp t.peer s) s)

/-- CLIENT_LIGHT_LOW (R281). -/
def execClientLightLow (P : PPort) (s : State) : Host.Outcome State Fault Refusal :=
  .next (whenUp (fun s => clientLight P true s) s)

/-- CLIENT_LIGHT_RESTORED (R281). -/
def execClientLightRestored (P : PPort) (s : State) : Host.Outcome State Fault Refusal :=
  .next (whenUp (fun s => clientLight P false s) s)

end Sys2Proof.Machine
end

