-- ==== Sys2Proof/Machine/Clocks.lean ====
section
/-! DEFINITION. Clocks (chapter 18). -/

namespace Sys2Proof.Machine


/-- CORE_CLOCK_SWITCH (R385). -/
def execCoreClockSwitch (i : Initiator) (v : Word) (s : State) : Host.Outcome State Fault Refusal :=
  .next (regAccess i (CLK_CORE).addr v s)

/-- CPLL_CONFIG (R386). -/
def execCpllConfig (i : Initiator) (v : Word) (s : State) : Host.Outcome State Fault Refusal :=
  .next (regAccess i (CLK_CORE).addr v s)

/-- CPLL_LOSS (R383). -/
def execCpllLoss (s : State) : Host.Outcome State Fault Refusal :=
  .next (whenUp (fun s => cpllLost s) s)

/-- CPLL_LOCK_ACQUIRED (R385). -/
def execCpllLockAcquired (s : State) : Host.Outcome State Fault Refusal :=
  .next (whenUp (fun s => cpllLocks s) s)

/-- SPLL_LOSS (R382): IOSC is lost too, and in use. -/
def execSpllLoss (iosc : Bool) (s : State) : Host.Outcome State Fault Refusal :=
  .next (whenUp (fun s => spllLost iosc s) s)

/-- XTAL_FAIL (R384). -/
def execXtalFail (s : State) : Host.Outcome State Fault Refusal :=
  .next (xtalFails s)

/-- XTAL_ADOPT (R405). -/
def execXtalAdopt (s : State) : Host.Outcome State Fault Refusal :=
  .next (xtalAdopt s)

/-- XTAL_ADOPT_TIMEOUT (R405). -/
def execXtalAdoptTimeout (s : State) : Host.Outcome State Fault Refusal :=
  .next (xtalLate s)

/-- SYNC_REF_LOSS (R297). -/
def execSyncRefLoss (n : Fin 2) (s : State) : Host.Outcome State Fault Refusal :=
  .next (whenUp (fun s => srefLost n s) s)

/-- SYNC_REF_RESTORE (R297). -/
def execSyncRefRestore (n : Fin 2) (s : State) : Host.Outcome State Fault Refusal :=
  .next (whenUp (fun s => srefBack n s) s)

/-- CLOCK_MEASURE (R387). -/
def execClockMeasure (i : Initiator) (v : Word) (s : State) : Host.Outcome State Fault Refusal :=
  .next (regAccess i (CLK_MEAS).addr (withField v (CLK_MEAS_GO) 1) s)

/-- CLOCK_MEASURE_DONE (R387). -/
def execClockMeasureDone (count : BitVec 32) (s : State) : Host.Outcome State Fault Refusal :=
  .next (whenUp (fun s => measDone count.toNat s) s)

end Sys2Proof.Machine
end

