-- ==== Sys2Proof/Machine/Faults.lean ====
section
/-! DEFINITION. Faults (chapter 16). -/

namespace Sys2Proof.Machine


/-- FAULT_LATCH (R351). -/
def execFaultLatch (src : Fin 64) (r : ErrReport) (s : State) : Host.Outcome State Fault Refusal :=
  .next (whenUp (fun s => faultLatch src r s) s)

/-- FAULT_REACTION (R353). -/
def execFaultReaction (s : State) : Host.Outcome State Fault Refusal :=
  .next (whenUp (fun s => runReaction s) s)

/-- SELF_TEST_DONE (R354): what a row that cannot be repaired held: pool places, flow buckets. -/
def execSelfTestDone (pass : Bool) (pool : Fin 7) (places : BitVec 20) (buckets : List (Fin 262144))
    (s : State) : Host.Outcome State Fault Refusal :=
  .next (whenUp (fun s => selfTestDone pass pool places.toNat (buckets.map (·.val)) s) s)

/-- QUIET_WINDOW_END (R358). -/
def execQuietWindowEnd (s : State) : Host.Outcome State Fault Refusal :=
  .next (whenUp (fun s => quietEnds s) s)

/-- RESET_DEVICE_EXPIRY (R353). -/
def execResetDeviceExpiry (s : State) : Host.Outcome State Fault Refusal :=
  .next (whenUp (fun s => if s.flt.resetDue then deviceReset s else s) s)

/-- TEMP_WARNING (R352): the highest junction reading in 0.1 °C. -/
def execTempWarning (t : BitVec 16) (s : State) : Host.Outcome State Fault Refusal :=
  .next (whenUp (fun s => tempReading t.toInt s) s)

/-- TEMP_WARNING_REARM (R352). -/
def execTempWarningRearm (t : BitVec 16) (s : State) : Host.Outcome State Fault Refusal :=
  .next (whenUp (fun s => tempRearm t.toInt s) s)

/-- SAFE_N_LOW (R360). -/
def execSafeNLow (s : State) : Host.Outcome State Fault Refusal :=
  .next (whenUp (fun s => safeNLow s) s)

/-- SAFE_N_HIGH (R362). -/
def execSafeNHigh (s : State) : Host.Outcome State Fault Refusal :=
  .next (whenUp (fun s => safeNHigh s) s)

/-- SAFE_ENTER (R360). -/
def execSafeEnter (i : Initiator) (v : Word) (s : State) : Host.Outcome State Fault Refusal :=
  .next (regAccess i (FLT_SAFE).addr (withField v (FLT_SAFE_ENTER) 1) s)

/-- SAFE_EXIT (R362). -/
def execSafeExit (i : Initiator) (v : Word) (s : State) : Host.Outcome State Fault Refusal :=
  .next (regAccess i (FLT_SAFE).addr (withField v (FLT_SAFE_EXIT) 1) s)

/-- RECORD_READ (R363). -/
def execRecordRead (i : Initiator) (v : Word) (s : State) : Host.Outcome State Fault Refusal :=
  .next (regAccess i (FLT_REC_CMD).addr (withField (withField v (FLT_REC_CMD_GO) 1) (FLT_REC_CMD_REL) 0) s)

/-- RECORD_RELEASE (R363). -/
def execRecordRelease (i : Initiator) (v : Word) (s : State) : Host.Outcome State Fault Refusal :=
  .next (regAccess i (FLT_REC_CMD).addr (withField (withField v (FLT_REC_CMD_GO) 1) (FLT_REC_CMD_REL) 1) s)

/-- INJECT_ARM (R359). -/
def execInjectArm (i : Initiator) (v : Word) (s : State) : Host.Outcome State Fault Refusal :=
  .next (regAccess i (FLT_INJ).addr (withField v (FLT_INJ_ARM) 1) s)

/-- INJECT_DISARM (R359). -/
def execInjectDisarm (i : Initiator) (v : Word) (s : State) : Host.Outcome State Fault Refusal :=
  .next (regAccess i (FLT_INJ).addr (withField (withField v (FLT_INJ_ARM) 0) (FLT_INJ_CONT) 1) s)

end Sys2Proof.Machine
end

