-- ==== Sys2Proof/Machine/Flows.lean ====
section
/-! DEFINITION. Flows, counters and speculation (chapter 08). -/

namespace Sys2Proof.Machine


/-- FLOW_INSERT (R186). -/
def execFlowInsert (i : Initiator) (v : Word) (s : State) : Host.Outcome State Fault Refusal :=
  .next (regAccess i (FLW_IND_CMD).addr (withField (withField v (FLW_IND_CMD_GO) 1) (FLW_IND_CMD_OP) 1) s)

/-- FLOW_INSERT_COMPLETE (R187). -/
def execFlowInsertComplete (s : State) : Host.Outcome State Fault Refusal :=
  .next (whenUp (fun s => insertEnds s) s)

/-- LEARN_INSERT (R189). -/
def execLearnInsert (s : State) : Host.Outcome State Fault Refusal :=
  .next (whenUp (fun s => learnInsert s) s)

/-- FLOW_LOOKUP_CMD (R204). -/
def execFlowLookupCmd (i : Initiator) (v : Word) (s : State) : Host.Outcome State Fault Refusal :=
  .next (regAccess i (FLW_IND_CMD).addr (withField (withField v (FLW_IND_CMD_GO) 1) (FLW_IND_CMD_OP) 0) s)

/-- FLOW_UPDATE (R204). -/
def execFlowUpdate (i : Initiator) (v : Word) (s : State) : Host.Outcome State Fault Refusal :=
  .next (regAccess i (FLW_IND_CMD).addr (withField (withField v (FLW_IND_CMD_GO) 1) (FLW_IND_CMD_OP) 2) s)

/-- FLOW_DELETE (R191). -/
def execFlowDelete (i : Initiator) (v : Word) (s : State) : Host.Outcome State Fault Refusal :=
  .next (regAccess i (FLW_IND_CMD).addr (withField (withField v (FLW_IND_CMD_GO) 1) (FLW_IND_CMD_OP) 3) s)

/-- STASH_PLACE (R188). -/
def execStashPlace (s : State) : Host.Outcome State Fault Refusal :=
  .next (whenUp (fun s => stashPlace s) s)

/-- AGE_TICK (R190). -/
def execAgeTick (s : State) : Host.Outcome State Fault Refusal :=
  .next (whenUp (fun s => ageTick s) s)

/-- CIDX_HOLD_EXPIRY (R191). -/
def execCidxHoldExpiry (s : State) : Host.Outcome State Fault Refusal :=
  .next (whenUp (fun s => cidxFree s) s)

/-- DELTA_FLUSH (R194). -/
def execDeltaFlush (cid : BitVec 22) (s : State) : Host.Outcome State Fault Refusal :=
  .next (whenUp (fun s => deltaFlush cid.toNat s) s)

/-- COUNTER_READ (R195). -/
def execCounterRead (i : Initiator) (v : Word) (s : State) : Host.Outcome State Fault Refusal :=
  .next (regAccess i (FLW_CRD_CMD).addr (withField v (FLW_CRD_CMD_GO) 1) s)

/-- AGEQ_CONSUME (R191). -/
def execAgeqConsume (i : Initiator) (v : Word) (s : State) : Host.Outcome State Fault Refusal :=
  .next (regAccess i (FLW_AGEQ).addr v s)

/-- RUNAHEAD_ISSUE (R196): the bits the run-ahead has, from its position; and the checker that meets the words of the payload, with
the bits it finds inverted (R20). -/
def execRunaheadIssue (k : Chan) (info : Bytes) (idx : BitVec 10) (flips : List (BitVec 16 × BitVec 72)) (s : State) : Host.Outcome State Fault Refusal :=
  .next (whenUp (fun s => runAhead k info ⟨idx, flips⟩ s) s)

/-- CODEWORD_VERDICT (R197). -/
def execCodewordVerdict (k : Chan) (s : State) : Host.Outcome State Fault Refusal :=
  .next (whenUp (fun s => codewordVerdict k s) s)

/-- SPEC_TIMEOUT (R201). -/
def execSpecTimeout (k : Chan) (s : State) : Host.Outcome State Fault Refusal :=
  .next (whenUp (fun s => specTimeout k s) s)

end Sys2Proof.Machine
end

