-- ==== Sys2Proof/Machine/Framing.lean ====
section
/-! DEFINITION. Downstream framing, reassembly and the overhead serial ports (chapter 04). -/

namespace Sys2Proof.Machine


/-- FAW_MATCH (R74): the amplitude measure in 2⁻¹⁶ units and the sign decisions of 64 symbols. -/
def execFawMatch (k : Chan) (amp : BitVec 32) (signs : BitVec 256) (s : State) : Host.Outcome State Fault Refusal :=
  .next (whenUp (fun s => fawMatch k amp.toNat signs.toNat s) s)

/-- EXPECTED_WINDOW (R75). -/
def execExpectedWindow (k : Chan) (amp : BitVec 32) (signs : BitVec 256)
    (s : State) : Host.Outcome State Fault Refusal :=
  .next (whenUp (fun s => expectedWindow k amp.toNat signs.toNat s) s)

/-- FRAME_HEADER (R79): the header and the operations channel, 64 bytes each. -/
def execFrameHeader (k : Chan) (hdr ops : Bytes) (s : State) : Host.Outcome State Fault Refusal :=
  .next (whenUp (fun s => frameHeader k hdr ops s) s)

/-- FLYWHEEL_TICK (R77). -/
def execFlywheelTick (k : Chan) (s : State) : Host.Outcome State Fault Refusal :=
  .next (whenUp (fun s => flywheelTick k s) s)

/-- OHS_INSERT_BLOCK (R95). -/
def execOhsInsertBlock (p : Fin 4) (blk : Bytes) (s : State) : Host.Outcome State Fault Refusal :=
  .next (whenUp (fun s => ohsBlock p blk s) s)

/-- OHS_SHORT_BLOCK (R95). -/
def execOhsShortBlock (p : Fin 4) (s : State) : Host.Outcome State Fault Refusal :=
  .next (whenUp (fun s => ohsShort p s) s)

/-- MAP_ENTRY (R120). -/
def execMapEntry (k : Chan) (n : Fin 512) (entry : Bytes) (s : State) : Host.Outcome State Fault Refusal :=
  .next (whenUp (fun s => mapEntry k n entry s) s)

/-- FRAGMENT (R88): the frame's bytes from the delineator's position, whether its pipeline is too busy for traffic beyond R13, and
the words of the payload as DSF checks them (R20). -/
def execFragment (k : Chan) (info : Bytes) (busy : Bool) (c : Checks)
    (s : State) : Host.Outcome State Fault Refusal :=
  .next (whenUp (fun s => fragmentStep k info busy c s) s)

/-- REASSEMBLY_TIMEOUT (R88). -/
def execReassemblyTimeout (k : Chan) (sid : BitVec 16) (s : State) : Host.Outcome State Fault Refusal :=
  .next (whenUp (fun s => reassemblyTimeout k sid.toNat s) s)

/-- DSF_IND_READ (R97). -/
def execDsfIndRead (i : Initiator) (v : Word) (s : State) : Host.Outcome State Fault Refusal :=
  .next (regAccess i (DSF_IND_CMD).addr (withField (withField v (DSF_IND_CMD_GO) 1) (DSF_IND_CMD_RD) 1) s)

/-- DSF_IND_WRITE (R97). -/
def execDsfIndWrite (i : Initiator) (v : Word) (s : State) : Host.Outcome State Fault Refusal :=
  .next (regAccess i (DSF_IND_CMD).addr (withField (withField v (DSF_IND_CMD_GO) 1) (DSF_IND_CMD_RD) 0) s)

end Sys2Proof.Machine
end

