-- ==== Sys2Proof/Machine/Keys.lean ====
section
/-! DEFINITION. Cipher lanes and keys (chapter 11). -/

namespace Sys2Proof.Machine

/-- A descriptor is served; where one completes, source 10 of Table 14.2 is raised. -/
def fwServe (err : Bool) (s : State) : State :=
  let t := fwDescriptor err s
  if t.rd CIP_FWQ_CONS = s.rd CIP_FWQ_CONS then t else hwEvent 10 t

/-- The oldest request of a source leaves its lane; one of the run-ahead lets its packet go on (R196, R251). -/
def cipherDone (src : CipSrc) (s : State) : State :=
  let r := cipComplete src s
  match r.1.bind (·.ra) with
  | some (ch, num) => aheadDone ch num r.2
  | none => r.2

/-- CIPHER_DISPATCH (R251). -/
def execCipherDispatch (lane : Fin 80) (s : State) : Host.Outcome State Fault Refusal :=
  .next (whenUp (fun s => cipDispatch lane s) s)

/-- CIPHER_COMPLETE (R251). -/
def execCipherComplete (src : CipSrc) (s : State) : Host.Outcome State Fault Refusal :=
  .next (whenUp (fun s => cipherDone src s) s)

/-- KEY_GENERATION_DRAINED (R261). -/
def execKeyGenerationDrained (slot : Fin 8192) (s : State) : Host.Outcome State Fault Refusal :=
  .next (whenUp (fun s => keyAnswers (slotDrained slot s)) s)

/-- KLN_DERIVE (R271). -/
def execKlnDerive (i : Initiator) (v : Word) (s : State) : Host.Outcome State Fault Refusal :=
  .next (regAccess i (KLN_CMD).addr (withField (withField v (KLN_CMD_GO) 1) (KLN_CMD_OP) 0) s)

/-- KLN_UNWRAP (R271). -/
def execKlnUnwrap (i : Initiator) (v : Word) (s : State) : Host.Outcome State Fault Refusal :=
  .next (regAccess i (KLN_CMD).addr (withField (withField v (KLN_CMD_GO) 1) (KLN_CMD_OP) 1) s)

/-- KLN_LOAD (R271). -/
def execKlnLoad (i : Initiator) (v : Word) (s : State) : Host.Outcome State Fault Refusal :=
  .next (regAccess i (KLN_CMD).addr (withField (withField v (KLN_CMD_GO) 1) (KLN_CMD_OP) 2) s)

/-- KLN_ERASE (R271). -/
def execKlnErase (i : Initiator) (v : Word) (s : State) : Host.Outcome State Fault Refusal :=
  .next (regAccess i (KLN_CMD).addr (withField (withField v (KLN_CMD_GO) 1) (KLN_CMD_OP) 3) s)

/-- KLN_ROOT_LOAD (R271). -/
def execKlnRootLoad (i : Initiator) (v : Word) (s : State) : Host.Outcome State Fault Refusal :=
  .next (regAccess i (KLN_CMD).addr (withField (withField v (KLN_CMD_GO) 1) (KLN_CMD_OP) 4) s)

/-- KLN_ROOT_ERASE (R271). -/
def execKlnRootErase (i : Initiator) (v : Word) (s : State) : Host.Outcome State Fault Refusal :=
  .next (regAccess i (KLN_CMD).addr (withField (withField v (KLN_CMD_GO) 1) (KLN_CMD_OP) 5) s)

/-- KLN_QUERY (R271). -/
def execKlnQuery (i : Initiator) (v : Word) (s : State) : Host.Outcome State Fault Refusal :=
  .next (regAccess i (KLN_CMD).addr (withField (withField v (KLN_CMD_GO) 1) (KLN_CMD_OP) 6) s)

/-- BIND_READ (R277). -/
def execBindRead (i : Initiator) (v : Word) (s : State) : Host.Outcome State Fault Refusal :=
  .next (regAccess i (KLN_BIND_CMD).addr (withField (withField v (KLN_BIND_CMD_GO) 1) (KLN_BIND_CMD_RD) 1) s)

/-- BIND_WRITE (R270). -/
def execBindWrite (i : Initiator) (v : Word) (s : State) : Host.Outcome State Fault Refusal :=
  .next (regAccess i (KLN_BIND_CMD).addr (withField (withField v (KLN_BIND_CMD_GO) 1) (KLN_BIND_CMD_RD) 0) s)

/-- RK_PROGRAM (R266). -/
def execRkProgram (i : Initiator) (v : Word) (s : State) : Host.Outcome State Fault Refusal :=
  .next (regAccess i (KLN_RK).addr (withField v (KLN_RK_PROG) 1) s)

/-- CIP_IND_READ (R276). -/
def execCipIndRead (i : Initiator) (v : Word) (s : State) : Host.Outcome State Fault Refusal :=
  .next (regAccess i (CIP_IND_CMD).addr (withField (withField v (CIP_IND_CMD_GO) 1) (CIP_IND_CMD_RD) 1) s)

/-- CIP_IND_WRITE (R276). -/
def execCipIndWrite (i : Initiator) (v : Word) (s : State) : Host.Outcome State Fault Refusal :=
  .next (regAccess i (CIP_IND_CMD).addr (withField (withField v (CIP_IND_CMD_GO) 1) (CIP_IND_CMD_RD) 0) s)

/-- FW_RING_POST (R275). -/
def execFwRingPost (i : Initiator) (v : Word) (s : State) : Host.Outcome State Fault Refusal :=
  .next (regAccess i (CIP_FWQ).addr v s)

/-- FW_DESCRIPTOR (R275): a word that the descriptor reads is uncorrectable. -/
def execFwDescriptor (err : Bool) (s : State) : Host.Outcome State Fault Refusal :=
  .next (whenUp (fun s => fwServe err s) s)

end Sys2Proof.Machine
end

