-- ==== Sys2Proof/Machine/Line.lean ====
section
/-! DEFINITION. Line optics and coding (chapter 03). -/

namespace Sys2Proof.Machine


/-- PORT_SELECT_WRITE (R48). -/
def execPortSelectWrite (i : Initiator) (v : Word) (s : State) : Host.Outcome State Fault Refusal :=
  .next (regAccess i (LPH_PORT).addr v s)

/-- PORT_MOVE_START (R48). -/
def execPortMoveStart (s : State) : Host.Outcome State Fault Refusal :=
  .next (whenUp (fun s => portMoveStart s) s)

/-- PORT_HOLD_RELEASE (R48). -/
def execPortHoldRelease (s : State) : Host.Outcome State Fault Refusal :=
  .next (whenUp (fun s => portRelease s) s)

/-- RECEIVER_ENABLE (R58). -/
def execReceiverEnable (i : Initiator) (k : Chan) (v : Word) (s : State) : Host.Outcome State Fault Refusal :=
  .next (regAccess i (LPH_CH_CTL k).addr (withField v (LPH_CH_CTL_RX_EN k) 1) s)

/-- RECEIVER_DISABLE (R58). -/
def execReceiverDisable (i : Initiator) (k : Chan) (v : Word) (s : State) : Host.Outcome State Fault Refusal :=
  .next (regAccess i (LPH_CH_CTL k).addr (withField v (LPH_CH_CTL_RX_EN k) 0) s)

/-- CR_LOCK_ACQUIRED (R58): the dispersion and frequency offset found. -/
def execCrLockAcquired (k : Chan) (cd fofs : BitVec 16) (s : State) : Host.Outcome State Fault Refusal :=
  .next (whenUp (fun s => crLock k cd.toNat fofs.toNat s) s)

/-- CARRIER_LOSS (R58). -/
def execCarrierLoss (k : Chan) (s : State) : Host.Outcome State Fault Refusal :=
  .next (whenUp (fun s => crFall k s) s)

/-- LOS_ASSERT (R57): the channel power in 0.1 dBm. -/
def execLosAssert (k : Chan) (pwr : BitVec 16) (s : State) : Host.Outcome State Fault Refusal :=
  .next (whenUp (fun s => losAssert k pwr.toInt s) s)

/-- LOS_CLEAR (R57). -/
def execLosClear (k : Chan) (pwr : BitVec 16) (s : State) : Host.Outcome State Fault Refusal :=
  .next (whenUp (fun s => losClear k pwr.toInt s) s)

/-- LO_LINE_LOW (R64). -/
def execLoLineLow (k : Chan) (s : State) : Host.Outcome State Fault Refusal :=
  .next (whenUp (fun s => loLine k true s) s)

/-- LO_LINE_RESTORED (R64). -/
def execLoLineRestored (k : Chan) (s : State) : Host.Outcome State Fault Refusal :=
  .next (whenUp (fun s => loLine k false s) s)

/-- COMB_LOW (R64): the power of the line in 0.1 dBm. -/
def execCombLow (k : Chan) (pwr : BitVec 16) (s : State) : Host.Outcome State Fault Refusal :=
  .next (whenUp (fun s => combPower k pwr.toInt s) s)

/-- COMB_RESTORED (R64). -/
def execCombRestored (k : Chan) (pwr : BitVec 16) (s : State) : Host.Outcome State Fault Refusal :=
  .next (whenUp (fun s => combPower k pwr.toInt s) s)

/-- TRANSMITTER_ENABLE (R65). -/
def execTransmitterEnable (i : Initiator) (k : Chan) (v : Word) (s : State) : Host.Outcome State Fault Refusal :=
  .next (regAccess i (LPH_CH_CTL k).addr (withField v (LPH_CH_CTL_TX_EN k) 1) s)

/-- CODEWORD_DECODED (R55): of the frame in progress or of the `next` one: iterations, corrected bits, the information
and parity bits as the decoder leaves them. -/
def execCodewordDecoded (k : Chan) (next : Bool) (cw : Fin 5000) (iter : BitVec 8) (bitc : BitVec 16) (info : BitVec 20480)
    (parity : BitVec 4020) (s : State) : Host.Outcome State Fault Refusal :=
  .next (whenUp (fun s => codewordDecoded k next cw iter.toNat bitc.toNat (info ++ parity).toNat s) s)

/-- PROVISIONAL_RELEASE (R55): the hard decision of the code bits after iteration 2. -/
def execProvisionalRelease (k : Chan) (next : Bool) (cw : Fin 5000) (info : BitVec 20480) (parity : BitVec 4020)
    (s : State) : Host.Outcome State Fault Refusal :=
  .next (whenUp (fun s => provisionalRelease k next cw (info ++ parity).toNat s) s)

/-- CAL_CONDITION_CHECK (R65): present conditions, and their averages over a trim in progress. -/
def execCalConditionCheck (k : Chan) (now avg : CalCond) (s : State) : Host.Outcome State Fault Refusal :=
  .next (whenUp (fun s => calCheck k now avg s) s)

/-- CAL_TRIM_REQUEST (R65). -/
def execCalTrimRequest (i : Initiator) (k : Chan) (v : Word) (s : State) : Host.Outcome State Fault Refusal :=
  .next (regAccess i (LPH_CAL_CTL k).addr v s)

/-- CAL_TRIM_START (R65). -/
def execCalTrimStart (k : Chan) (tx : Bool) (now : CalCond) (s : State) : Host.Outcome State Fault Refusal :=
  .next (whenUp (fun s => calStart k tx now s) s)

/-- CAL_TRIM_COMPLETE (R65). -/
def execCalTrimComplete (k : Chan) (tx : Bool) (avg : CalCond) (s : State) : Host.Outcome State Fault Refusal :=
  .next (whenUp (fun s => calComplete k tx avg s) s)

/-- EQ_WINDOW_CLOSE (R68). -/
def execEqWindowClose (k : Chan) (w : EqWindow) (s : State) : Host.Outcome State Fault Refusal :=
  .next (whenUp (fun s => eqWindow k (w.counts.map (·.toNat)) w.aided w.piloted s) s)

/-- LASER_POLL (R62). -/
def execLaserPoll (r0 r1 r2 r3 : SrcReading) (s : State) : Host.Outcome State Fault Refusal :=
  .next (whenUp (fun s => laserPoll r0 r1 r2 r3 s) s)

/-- LASER_SOURCE_ACCESS (R70). -/
def execLaserSourceAccess (i : Initiator) (v : Word) (s : State) : Host.Outcome State Fault Refusal :=
  .next (regAccess i (LPH_LSRC_CMD).addr (withField v (LPH_LSRC_CMD_GO) 1) s)

/-- LASER_ACCESS_DONE (R70). -/
def execLaserAccessDone (ack : Bool) (data : BitVec 8) (s : State) : Host.Outcome State Fault Refusal :=
  .next (whenUp (fun s => laserDone ack data.toNat s) s)

end Sys2Proof.Machine
end

