-- ==== Sys2Proof/Machine/Power.lean ====
section
/-! DEFINITION. Power states (chapter 15). -/

namespace Sys2Proof.Machine


/-- POWER_REQUEST_FULL (R334). -/
def execPowerRequestFull (i : Initiator) (v : Word) (s : State) : Host.Outcome State Fault Refusal :=
  .next (regAccess i (PWR_REQ).addr (withField (withField v (PWR_REQ_GO) 1) (PWR_REQ_STATE) 0) s)

/-- POWER_REQUEST_TRIM (R334). -/
def execPowerRequestTrim (i : Initiator) (v : Word) (s : State) : Host.Outcome State Fault Refusal :=
  .next (regAccess i (PWR_REQ).addr (withField (withField v (PWR_REQ_GO) 1) (PWR_REQ_STATE) 1) s)

/-- POWER_REQUEST_DOZE (R336). -/
def execPowerRequestDoze (i : Initiator) (v : Word) (s : State) : Host.Outcome State Fault Refusal :=
  .next (regAccess i (PWR_REQ).addr (withField (withField v (PWR_REQ_GO) 1) (PWR_REQ_STATE) 2) s)

/-- POWER_REQUEST_TASTE (R339). -/
def execPowerRequestTaste (i : Initiator) (v : Word) (s : State) : Host.Outcome State Fault Refusal :=
  .next (regAccess i (PWR_REQ).addr (withField (withField v (PWR_REQ_GO) 1) (PWR_REQ_STATE) 3) s)

/-- POWER_REQUEST_OFF (R339). -/
def execPowerRequestOff (i : Initiator) (v : Word) (s : State) : Host.Outcome State Fault Refusal :=
  .next (regAccess i (PWR_REQ).addr (withField (withField v (PWR_REQ_GO) 1) (PWR_REQ_STATE) 4) s)

/-- POWER_ENTRY_START (R340): hart `c` executes WFI. -/
def execPowerEntryStart (c : Fin 8) (s : State) : Host.Outcome State Fault Refusal :=
  .next (whenUp (fun s => hartWaits c s) s)

/-- POWER_ENTRY_COMPLETE (R346). -/
def execPowerEntryComplete (s : State) : Host.Outcome State Fault Refusal :=
  .next (entryDone s)

/-- POWER_TRANSITION_END (R349). -/
def execPowerTransitionEnd (s : State) : Host.Outcome State Fault Refusal :=
  .next (unitsDone s)

/-- LINE_MODE_AWAKE (R337). -/
def execLineModeAwake (i : Initiator) (k : Chan) (v : Word) (s : State) : Host.Outcome State Fault Refusal :=
  .next (regAccess i (PWR_CP_PM k).addr (withField (withField v (PWR_CP_PM_GO k) 1) (PWR_CP_PM_MODE k) 0) s)

/-- LINE_MODE_DOZE (R337). -/
def execLineModeDoze (i : Initiator) (k : Chan) (v : Word) (s : State) : Host.Outcome State Fault Refusal :=
  .next (regAccess i (PWR_CP_PM k).addr (withField (withField v (PWR_CP_PM_GO k) 1) (PWR_CP_PM_MODE k) 1) s)

/-- LINE_MODE_SLEEP (R338). -/
def execLineModeSleep (i : Initiator) (k : Chan) (v : Word) (s : State) : Host.Outcome State Fault Refusal :=
  .next (regAccess i (PWR_CP_PM k).addr (withField (withField v (PWR_CP_PM_GO k) 1) (PWR_CP_PM_MODE k) 2) s)

/-- LINE_MODE_APPLY (R337). -/
def execLineModeApply (k : Chan) (s : State) : Host.Outcome State Fault Refusal :=
  .next (whenUp (fun s => modeApply k s) s)

/-- DOZE_END (R337). -/
def execDozeEnd (k : Chan) (s : State) : Host.Outcome State Fault Refusal :=
  .next (whenUp (fun s => dozeDone k s) s)

/-- SLEEP_EARLY_WAKE (R338). -/
def execSleepEarlyWake (k : Chan) (s : State) : Host.Outcome State Fault Refusal :=
  .next (whenUp (fun s => sleepEarly k s) s)

/-- SLEEP_END (R338). -/
def execSleepEnd (k : Chan) (s : State) : Host.Outcome State Fault Refusal :=
  .next (whenUp (fun s => sleepDone k s) s)

/-- TASTE_CYCLE (R342): the slice is ready; the headers of frames A and B where received; the count of the 32.768
kHz clock. -/
def execTasteCycle (ready : Bool) (a b : Option Bytes) (stamp : BitVec 32)
    (s : State) : Host.Outcome State Fault Refusal :=
  .next (tasteCycle ready a b stamp.toNat s)

/-- TASTE_CYCLE_TIMEOUT (R342). -/
def execTasteCycleTimeout (stamp : BitVec 32) (s : State) : Host.Outcome State Fault Refusal :=
  .next (tasteTimeout stamp.toNat s)

/-- WAKE_I2C (R345). -/
def execWakeI2c (stamp : BitVec 32) (s : State) : Host.Outcome State Fault Refusal :=
  .next (wakeLatch 1 stamp.toNat s)

/-- WAKE_SPI (R344). -/
def execWakeSpi (stamp : BitVec 32) (s : State) : Host.Outcome State Fault Refusal :=
  .next (wakeLatch 2 stamp.toNat s)

/-- WAKE_SD (R344). -/
def execWakeSd (P : PPort) (stamp : BitVec 32) (s : State) : Host.Outcome State Fault Refusal :=
  .next (wakeSd P stamp.toNat s)

/-- WAKE_N (R344). -/
def execWakeN (stamp : BitVec 32) (s : State) : Host.Outcome State Fault Refusal :=
  .next (wakeLatch 4 stamp.toNat s)

/-- WAKE_TIMER (R344). -/
def execWakeTimer (stamp : BitVec 32) (s : State) : Host.Outcome State Fault Refusal :=
  .next (wakeTimer stamp.toNat s)

/-- WAKE_START (R347). -/
def execWakeStart (mgr safeN : Bool) (s : State) : Host.Outcome State Fault Refusal :=
  .next (wakeStart mgr safeN s)

/-- WAKE_RETRY (R348). -/
def execWakeRetry (s : State) : Host.Outcome State Fault Refusal :=
  .next (wakeRetry s)

/-- WAKE_COMPLETE (R347). -/
def execWakeComplete (s : State) : Host.Outcome State Fault Refusal :=
  .next (wakeDone s)

/-- WAKE_LOG_POP (R346). -/
def execWakeLogPop (i : Initiator) (v : Word) (s : State) : Host.Outcome State Fault Refusal :=
  .next (regAccess i (PWR_WAKE_LOG).addr (withField v (PWR_WAKE_LOG_POP) 1) s)

end Sys2Proof.Machine
end

