-- ==== Sys2Proof/Machine/Registration.lean ====
section
/-! DEFINITION. Registration, ranging and line management (chapter 05). -/

namespace Sys2Proof.Machine

/-- A KEY_CONTROL with an OP. -/
def isKeyOp (op : Nat) (m : Bytes) : Bool := isType 6 m && msgF m 0 36 3 == op

/-- ACT_ENABLE (R100). -/
def execActEnable (i : Initiator) (k : Chan) (v : Word) (s : State) : Host.Outcome State Fault Refusal :=
  .next (regAccess i (ACT_CP_CTL k).addr (withField v (ACT_CP_CTL_EN k) 1) s)

/-- ACT_DISABLE (R100). -/
def execActDisable (i : Initiator) (k : Chan) (v : Word) (s : State) : Host.Outcome State Fault Refusal :=
  .next (regAccess i (ACT_CP_CTL k).addr (withField v (ACT_CP_CTL_EN k) 0) s)

/-- ACT_RESTART (R100). -/
def execActRestart (i : Initiator) (k : Chan) (v : Word) (s : State) : Host.Outcome State Fault Refusal :=
  .next (regAccess i (ACT_CP_CTL k).addr (withField v (ACT_CP_CTL_RESTART k) 1) s)

/-- ACT_GROUP_STAGE (R110). -/
def execActGroupStage (k : Chan) (s : State) : Host.Outcome State Fault Refusal :=
  .next (whenUp (fun s => actStage k s) s)

/-- T_ASG_EXPIRY (R100). -/
def execTAsgExpiry (k : Chan) (s : State) : Host.Outcome State Fault Refusal :=
  .next (whenUp (fun s => tAsgExpire k s) s)

/-- T_RNG_EXPIRY (R100). -/
def execTRngExpiry (k : Chan) (s : State) : Host.Outcome State Fault Refusal :=
  .next (whenUp (fun s => tRngExpire k s) s)

/-- T_INT_EXPIRY (R100). -/
def execTIntExpiry (k : Chan) (s : State) : Host.Outcome State Fault Refusal :=
  .next (whenUp (fun s => tIntExpire k s) s)

/-- STOPPED_HOLD_EXPIRY (R113). -/
def execStoppedHoldExpiry (k : Chan) (s : State) : Host.Outcome State Fault Refusal :=
  .next (whenUp (fun s => holdExpire k s) s)

/-- UNKNOWN_MESSAGE (R105): message area `n` of the frame in progress. -/
def execUnknownMessage (k : Chan) (n : Fin 64) (msg : Bytes) (s : State) : Host.Outcome State Fault Refusal :=
  .next (whenUp (fun s => unknownMsg k n msg s) s)

/-- LINE_PARAMS (R110). -/
def execLineParams (k : Chan) (n : Fin 64) (msg : Bytes) (s : State) : Host.Outcome State Fault Refusal :=
  .next (whenUp (fun s => takeMsg k n msg (isType 1) (doLineParams k msg) s) s)

/-- ASSIGN_TN (R100). -/
def execAssignTn (k : Chan) (n : Fin 64) (msg : Bytes) (s : State) : Host.Outcome State Fault Refusal :=
  .next (whenUp (fun s => takeMsg k n msg (isType 2) (doAssignTn k msg) s) s)

/-- RANGING_TIME (R110). -/
def execRangingTime (k : Chan) (n : Fin 64) (msg : Bytes) (s : State) : Host.Outcome State Fault Refusal :=
  .next (whenUp (fun s => takeMsg k n msg (isType 3) (doRangingTime k msg) s) s)

/-- BURST_PROFILE (R111). -/
def execBurstProfile (k : Chan) (n : Fin 64) (msg : Bytes) (s : State) : Host.Outcome State Fault Refusal :=
  .next (whenUp (fun s => takeMsg k n msg (isType 4) (doBurstProfile k msg) s) s)

/-- AUTH_CHALLENGE (R267). -/
def execAuthChallenge (k : Chan) (n : Fin 64) (msg : Bytes) (s : State) : Host.Outcome State Fault Refusal :=
  .next (whenUp (fun s => takeMsg k n msg (isType 5) (doAuth k msg) s) s)

/-- KEY_INSTALL (R268). -/
def execKeyInstall (k : Chan) (n : Fin 64) (msg : Bytes) (s : State) : Host.Outcome State Fault Refusal :=
  .next (whenUp (fun s => takeMsg k n msg (isKeyOp 0) (doKeyControl k msg) s) s)

/-- KEY_DERIVE (R268). -/
def execKeyDerive (k : Chan) (n : Fin 64) (msg : Bytes) (s : State) : Host.Outcome State Fault Refusal :=
  .next (whenUp (fun s => takeMsg k n msg (isKeyOp 1) (doKeyControl k msg) s) s)

/-- KEY_ERASE_INDEX (R268). -/
def execKeyEraseIndex (k : Chan) (n : Fin 64) (msg : Bytes) (s : State) : Host.Outcome State Fault Refusal :=
  .next (whenUp (fun s => takeMsg k n msg (isKeyOp 2) (doKeyControl k msg) s) s)

/-- KEY_ERASE_ALL (R268). -/
def execKeyEraseAll (k : Chan) (n : Fin 64) (msg : Bytes) (s : State) : Host.Outcome State Fault Refusal :=
  .next (whenUp (fun s => takeMsg k n msg (isKeyOp 3) (doKeyControl k msg) s) s)

/-- STREAM_ASSIGN (R117). -/
def execStreamAssign (k : Chan) (n : Fin 64) (msg : Bytes) (s : State) : Host.Outcome State Fault Refusal :=
  .next (whenUp (fun s => takeMsg k n msg (isType 7) (doFirmware) s) s)

/-- ALLOC_ASSIGN (R107). -/
def execAllocAssign (k : Chan) (n : Fin 64) (msg : Bytes) (s : State) : Host.Outcome State Fault Refusal :=
  .next (whenUp (fun s => takeMsg k n msg (isType 8) (doFirmware) s) s)

/-- POWER_MODE (R117). -/
def execPowerMode (k : Chan) (n : Fin 64) (msg : Bytes) (s : State) : Host.Outcome State Fault Refusal :=
  .next (whenUp (fun s => takeMsg k n msg (isType 9) (doFirmware) s) s)

/-- TIME_OF_DAY (R300). -/
def execTimeOfDay (k : Chan) (n : Fin 64) (msg : Bytes) (s : State) : Host.Outcome State Fault Refusal :=
  .next (whenUp (fun s => takeMsg k n msg (isType 0xA) (doTimeOfDay k msg) s) s)

/-- DISABLE (R112). -/
def execDisable (k : Chan) (n : Fin 64) (msg : Bytes) (s : State) : Host.Outcome State Fault Refusal :=
  .next (whenUp (fun s => takeMsg k n msg (isType 0xB) (doDisable k msg) s) s)

/-- ENABLE (R112). -/
def execEnable (k : Chan) (n : Fin 64) (msg : Bytes) (s : State) : Host.Outcome State Fault Refusal :=
  .next (whenUp (fun s => takeMsg k n msg (isType 0xC) (doEnable k msg) s) s)

/-- DEACTIVATE (R113). -/
def execDeactivate (k : Chan) (n : Fin 64) (msg : Bytes) (s : State) : Host.Outcome State Fault Refusal :=
  .next (whenUp (fun s => takeMsg k n msg (isType 0xD) (doDeactivate k msg) s) s)

/-- PROT_SWITCH (R115). -/
def execProtSwitch (k : Chan) (n : Fin 64) (msg : Bytes) (s : State) : Host.Outcome State Fault Refusal :=
  .next (whenUp (fun s => takeMsg k n msg (isType 0xE) (doProtSwitch k msg) s) s)

/-- PROT_SWITCH_EFFECT (R115). -/
def execProtSwitchEffect (s : State) : Host.Outcome State Fault Refusal :=
  .next (whenUp (fun s => portOrder s) s)

/-- AUTO_PROT_EXPIRY (R115). -/
def execAutoProtExpiry (s : State) : Host.Outcome State Fault Refusal :=
  .next (whenUp (fun s => autoProtect s) s)

/-- WAKE_LIST (R78). -/
def execWakeList (k : Chan) (n : Fin 64) (msg : Bytes) (s : State) : Host.Outcome State Fault Refusal :=
  .next (whenUp (fun s => takeMsg k n msg (isType 0xF) (doWakeList msg) s) s)

/-- REG_WRITE (R116). -/
def execRegWrite (k : Chan) (n : Fin 64) (msg : Bytes) (s : State) : Host.Outcome State Fault Refusal :=
  .next (whenUp (fun s => takeMsg k n msg (isType 0x10) (doRegWrite msg) s) s)

/-- REG_READ (R116). -/
def execRegRead (k : Chan) (n : Fin 64) (msg : Bytes) (s : State) : Host.Outcome State Fault Refusal :=
  .next (whenUp (fun s => takeMsg k n msg (isType 0x11) (doRegRead msg) s) s)

/-- RXQ_POP (R117). -/
def execRxqPop (i : Initiator) (v : Word) (s : State) : Host.Outcome State Fault Refusal :=
  .next (regAccess i (ACT_RXQ_CTL).addr (withField v (ACT_RXQ_CTL_POP) 1) s)

/-- TXQ_SEND (R118). -/
def execTxqSend (i : Initiator) (v : Word) (s : State) : Host.Outcome State Fault Refusal :=
  .next (regAccess i (ACT_TXQ_CMD).addr (withField v (ACT_TXQ_CMD_GO) 1) s)

end Sys2Proof.Machine
end

