-- ==== Sys2Proof/Machine/Rules.lean ====
section
/-! DEFINITION. Pipelines, rules and versions (chapters 01 and 07). -/

namespace Sys2Proof.Machine


/-- PACKET_PASS (R155). -/
def execPacketPass (t : PassTurn) (s : State) : Host.Outcome State Fault Refusal :=
  .next (whenUp (fun s => packetPass t.pipe t.checks s) s)

/-- IDLE_SLOT_ENTRY (R14). -/
def execIdleSlotEntry (n : Pipe) (s : State) : Host.Outcome State Fault Refusal :=
  .next (whenUp (fun s => idleSlot n s) s)

/-- REINJECT_NEW_PASS (R158). -/
def execReinjectNewPass (i : Initiator) (v : Word) (s : State) : Host.Outcome State Fault Refusal :=
  .next (regAccess i (CLS_RI_CMD).addr (withField (withField v (CLS_RI_CMD_GO) 1) (CLS_RI_CMD_MODE) 0) s)

/-- REINJECT_TO_QUEUE (R158). -/
def execReinjectToQueue (i : Initiator) (v : Word) (s : State) : Host.Outcome State Fault Refusal :=
  .next (regAccess i (CLS_RI_CMD).addr (withField (withField v (CLS_RI_CMD_GO) 1) (CLS_RI_CMD_MODE) 1) s)

/-- REINJECT_OFFERED (R158). -/
def execReinjectOffered (s : State) : Host.Outcome State Fault Refusal :=
  .next (whenUp (fun s => reinjectOffer s) s)

/-- CLS_IND_READ (R179). -/
def execClsIndRead (i : Initiator) (v : Word) (s : State) : Host.Outcome State Fault Refusal :=
  .next (regAccess i (CLS_IND_CMD).addr (withField (withField v (CLS_IND_CMD_GO) 1) (CLS_IND_CMD_RD) 1) s)

/-- CLS_IND_WRITE (R179). -/
def execClsIndWrite (i : Initiator) (v : Word) (s : State) : Host.Outcome State Fault Refusal :=
  .next (regAccess i (CLS_IND_CMD).addr (withField (withField v (CLS_IND_CMD_GO) 1) (CLS_IND_CMD_RD) 0) s)

/-- VERSION_COMMIT_REQUEST (R174). -/
def execVersionCommitRequest (i : Initiator) (v : Word) (s : State) : Host.Outcome State Fault Refusal :=
  .next (regAccess i (CLS_VER_COMMIT).addr (withField v (CLS_VER_COMMIT_GO) 1) s)

/-- VERSION_COMMIT (R174). -/
def execVersionCommit (s : State) : Host.Outcome State Fault Refusal :=
  .next (whenUp (fun s => commitNow s) s)

/-- SWEEP_DONE (R175). -/
def execSweepDone (s : State) : Host.Outcome State Fault Refusal :=
  .next (whenUp (fun s => sweepEnds s) s)

/-- SPQ_CONSUME (R180). -/
def execSpqConsume (i : Initiator) (q : Fin 8) (v : Word) (s : State) : Host.Outcome State Fault Refusal :=
  .next (regAccess i (CLS_SPQ q).addr v s)

end Sys2Proof.Machine
end

