-- ==== Sys2Proof/Machine/Scheduling.lean ====
section
/-! DEFINITION. Scheduling, shaping and gating (chapter 10). -/

namespace Sys2Proof.Machine


/-- SCHEDULE_SELECT (R229). -/
def execScheduleSelect (p : LPort) (s : State) : Host.Outcome State Fault Refusal :=
  .next (whenUp (fun s => scheduleSelect p s) s)

/-- SHAPER_REFILL (R233): leaves, service nodes or ports. -/
def execShaperRefill (dir : Fin 2) (level : Fin 3) (s : State) : Host.Outcome State Fault Refusal :=
  .next (whenRuns blkSCH (fun s => refillLevel dir level s) s)

/-- SCH_IND_READ (R249). -/
def execSchIndRead (i : Initiator) (v : Word) (s : State) : Host.Outcome State Fault Refusal :=
  .next (regAccess i (SCH_IND_CMD).addr (withField (withField v (SCH_IND_CMD_GO) 1) (SCH_IND_CMD_RD) 1) s)

/-- SCH_IND_WRITE (R249). -/
def execSchIndWrite (i : Initiator) (v : Word) (s : State) : Host.Outcome State Fault Refusal :=
  .next (regAccess i (SCH_IND_CMD).addr (withField (withField v (SCH_IND_CMD_GO) 1) (SCH_IND_CMD_RD) 0) s)

/-- LEAF_FLUSH (R237). -/
def execLeafFlush (i : Initiator) (v : Word) (s : State) : Host.Outcome State Fault Refusal :=
  .next (regAccess i (SCH_FLUSH).addr (withField v (SCH_FLUSH_GO) 1) s)

/-- HISTOGRAM_SAMPLE (R240). -/
def execHistogramSample (s : State) : Host.Outcome State Fault Refusal :=
  .next (whenUp (fun s => histSample s) s)

/-- HISTOGRAM_CLEAR (R241). -/
def execHistogramClear (i : Initiator) (v : Word) (s : State) : Host.Outcome State Fault Refusal :=
  .next (regAccess i (SCH_HIST_CTL).addr (withField v (SCH_HIST_CTL_CLR) 1) s)

/-- GATE_ENTRY_START (R242). -/
def execGateEntryStart (p : LPort) (s : State) : Host.Outcome State Fault Refusal :=
  .next (whenUp (fun s => gateEntry p s) s)

/-- GATE_LIST_CHANGE (R243). -/
def execGateListChange (p : LPort) (s : State) : Host.Outcome State Fault Refusal :=
  .next (whenUp (fun s => gateChange p s) s)

/-- GATE_HOLD_ASSERT (R246). -/
def execGateHoldAssert (p : LPort) (s : State) : Host.Outcome State Fault Refusal :=
  .next (whenUp (fun s => gateHold p s) s)

/-- GATE_HOLD_RELEASE (R246). -/
def execGateHoldRelease (p : LPort) (s : State) : Host.Outcome State Fault Refusal :=
  .next (whenUp (fun s => gateRelease p s) s)

end Sys2Proof.Machine
end

