-- ==== Sys2Proof/Machine/Tasks.lean ====
section
/-! DEFINITION. The control complex (chapter 14). -/

namespace Sys2Proof.Machine


/-- TASK_POST (R322). -/
def execTaskPost (i : Initiator) (v : Word) (s : State) : Host.Outcome State Fault Refusal :=
  .next (regAccess i (TSK_POST).addr v s)

/-- POST_APPLY (R322). -/
def execPostApply (s : State) : Host.Outcome State Fault Refusal :=
  .next (whenUp (fun s => postApply s) s)

/-- HW_EVENT_SOURCE (R321). -/
def execHwEventSource (n : Fin 64) (s : State) : Host.Outcome State Fault Refusal :=
  .next (whenUp (fun s => hwEvent n s) s)

/-- TASK_ASSIGN (R323). -/
def execTaskAssign (s : State) : Host.Outcome State Fault Refusal :=
  .next (whenUp (fun s => tskAssign s) s)

/-- TASK_DONE (R324). -/
def execTaskDone (i : Initiator) (c : Fin 8) (v : Word) (s : State) : Host.Outcome State Fault Refusal :=
  .next (regAccess i (TSK_CORE_CMD c).addr (withField (withField v (TSK_CORE_CMD_DONE c) 1) (TSK_CORE_CMD_REQUEUE c) 0) s)

/-- TASK_YIELD (R324). -/
def execTaskYield (i : Initiator) (c : Fin 8) (v : Word) (s : State) : Host.Outcome State Fault Refusal :=
  .next (regAccess i (TSK_CORE_CMD c).addr (withField (withField v (TSK_CORE_CMD_DONE c) 1) (TSK_CORE_CMD_REQUEUE c) 1) s)

/-- TASK_CANCEL (R325). -/
def execTaskCancel (i : Initiator) (v : Word) (s : State) : Host.Outcome State Fault Refusal :=
  .next (regAccess i (TSK_TASK_CMD).addr (withField v (TSK_TASK_CMD_OP) 1) s)

/-- TASK_ENABLE (R325). -/
def execTaskEnable (i : Initiator) (v : Word) (s : State) : Host.Outcome State Fault Refusal :=
  .next (regAccess i (TSK_TASK_CMD).addr (withField v (TSK_TASK_CMD_OP) 2) s)

/-- TSK_IND_READ (R332). -/
def execTskIndRead (i : Initiator) (v : Word) (s : State) : Host.Outcome State Fault Refusal :=
  .next (regAccess i (TSK_IND_CMD).addr (withField (withField v (TSK_IND_CMD_GO) 1) (TSK_IND_CMD_RD) 1) s)

/-- TSK_IND_WRITE (R332). -/
def execTskIndWrite (i : Initiator) (v : Word) (s : State) : Host.Outcome State Fault Refusal :=
  .next (regAccess i (TSK_IND_CMD).addr (withField (withField v (TSK_IND_CMD_GO) 1) (TSK_IND_CMD_RD) 0) s)

/-- ACU_WINDOW_READ (R330). -/
def execAcuWindowRead (i : Initiator) (v : Word) (s : State) : Host.Outcome State Fault Refusal :=
  .next (regAccess i (ACU_IND_CMD).addr (withField (withField v (ACU_IND_CMD_GO) 1) (ACU_IND_CMD_RD) 1) s)

/-- ACU_WINDOW_WRITE (R330). -/
def execAcuWindowWrite (i : Initiator) (v : Word) (s : State) : Host.Outcome State Fault Refusal :=
  .next (regAccess i (ACU_IND_CMD).addr (withField (withField v (ACU_IND_CMD_GO) 1) (ACU_IND_CMD_RD) 0) s)

end Sys2Proof.Machine
end

