-- ==== Sys2Proof/Machine/Time.lean ====
section
/-! DEFINITION. Time and synchronisation (chapter 13). -/

namespace Sys2Proof.Machine


/-- SECOND_BOUNDARY (R295). -/
def execSecondBoundary (s : State) : Host.Outcome State Fault Refusal :=
  .next (whenUp (fun s => nextSecond s) s)

/-- PPS_OUT_FALL (R313). -/
def execPpsOutFall (s : State) : Host.Outcome State Fault Refusal :=
  .next (whenUp (fun s => ppsFall s) s)

/-- TOD_OUT_SEND (R315). -/
def execTodOutSend (s : State) : Host.Outcome State Fault Refusal :=
  .next (whenUp (fun s => todSend s) s)

/-- TOD_IN_MESSAGE (R315). -/
def execTodInMessage (m : Bytes) (s : State) : Host.Outcome State Fault Refusal :=
  .next (whenRuns blkTIM (fun s => todIn m s) s)

/-- TIME_LOAD (R296). -/
def execTimeLoad (i : Initiator) (v : Word) (s : State) : Host.Outcome State Fault Refusal :=
  .next (regAccess i (TIM_CTL).addr (withField v (TIM_CTL_LOAD) 1) s)

/-- TIME_STEP (R296). -/
def execTimeStep (i : Initiator) (v : Word) (s : State) : Host.Outcome State Fault Refusal :=
  .next (regAccess i (TIM_CTL).addr (withField v (TIM_CTL_STEP) 1) s)

/-- TOD_READ_LATCH (R296). -/
def execTodReadLatch (i : Initiator) (s : State) : Host.Outcome State Fault Refusal :=
  .next (busFetch i .word TIM_TOD_S.addr s)

/-- TPLL_HOLDOVER (R297). -/
def execTpllHoldover (s : State) : Host.Outcome State Fault Refusal :=
  .next (whenUp (fun s => tpllHoldover s) s)

/-- TPLL_HOLDOVER_EXIT (R297). -/
def execTpllHoldoverExit (s : State) : Host.Outcome State Fault Refusal :=
  .next (whenUp (fun s => tpllExit s) s)

/-- TIME_SAMPLE_WRITE (R306). -/
def execTimeSampleWrite (i : Initiator) (v : Word) (s : State) : Host.Outcome State Fault Refusal :=
  .next (regAccess i (TIM_SAMPLE).addr v s)

/-- PPS_IN_EDGE (R314). -/
def execPpsInEdge (s : State) : Host.Outcome State Fault Refusal :=
  .next (whenRuns blkTIM (fun s => ppsEdge s) s)

/-- PPS_IN_TOD_WAIT_EXPIRY (R314). -/
def execPpsInTodWaitExpiry (s : State) : Host.Outcome State Fault Refusal :=
  .next (whenUp (fun s => ppsWaitEnds s) s)

/-- PPS_IN_SOURCE_LOST (R304). -/
def execPpsInSourceLost (s : State) : Host.Outcome State Fault Refusal :=
  .next (whenUp (fun s => if timSource s = 2 then servoHold s else s) s)

/-- SERVO_SAMPLE_TIMEOUT (R304). -/
def execServoSampleTimeout (s : State) : Host.Outcome State Fault Refusal :=
  .next (whenUp (fun s => sampleTimeout s) s)

/-- SERVO_HOLDOVER_EXPIRY (R304). -/
def execServoHoldoverExpiry (s : State) : Host.Outcome State Fault Refusal :=
  .next (whenUp (fun s => holdoverEnds s) s)

/-- TSQ_POP (R312). -/
def execTsqPop (i : Initiator) (p : LPort) (v : Word) (s : State) : Host.Outcome State Fault Refusal :=
  .next (regAccess i (TIM_TSQ_CTL p).addr (withField v (TIM_TSQ_CTL_POP p) 1) s)

/-- TSQ_LOG_CLEAR (R312). -/
def execTsqLogClear (i : Initiator) (p : LPort) (v : Word) (s : State) : Host.Outcome State Fault Refusal :=
  .next (regAccess i (TIM_TSQ_CTL p).addr (withField v (TIM_TSQ_CTL_LOG_CLR p) 1) s)

end Sys2Proof.Machine
end

