-- ==== Sys2Proof/Machine/Dispatch.lean ====
section
/-! DEFINITION. What a command does: one arm for each row of the table, one call of its meaning. -/

namespace Sys2Proof.Machine

/-- The effect of a command on everything but the queue. -/
def exec (i : Instr) (s : State) : Host.Outcome State Fault Refusal :=
  match i with
  | .powerUp => Sys2Proof.Machine.execPowerUp s
  | .vrEnRise => Sys2Proof.Machine.execVrEnRise s
  | .vrEnFall => Sys2Proof.Machine.execVrEnFall s
  | .powerLoss vaon => Sys2Proof.Machine.execPowerLoss vaon s
  | .resetNAssert => Sys2Proof.Machine.execResetNAssert s
  | .resetRelease mgr safeN => Sys2Proof.Machine.execResetRelease mgr safeN s
  | .sfdpReadDone answered width mib => Sys2Proof.Machine.execSfdpReadDone answered width mib s
  | .copyHeadersRead a b errA errB => Sys2Proof.Machine.execCopyHeadersRead a b errA errB s
  | .copyValidated readOk sections => Sys2Proof.Machine.execCopyValidated readOk sections s
  | .hbmBootTraining n tries t duty => Sys2Proof.Machine.execHbmBootTraining n tries t duty s
  | .baseFirmwareEntry => Sys2Proof.Machine.execBaseFirmwareEntry s
  | .configRecord => Sys2Proof.Machine.execConfigRecord s
  | .configWaitTimeout => Sys2Proof.Machine.execConfigWaitTimeout s
  | .cfgResetWrite i1 v => Sys2Proof.Machine.execCfgResetWrite i1 v s
  | .spiCommand i1 v => Sys2Proof.Machine.execSpiCommand i1 v s
  | .spiCommandDone ok data => Sys2Proof.Machine.execSpiCommandDone ok data s
  | .hostWrite frame => Sys2Proof.Machine.execHostWrite frame s
  | .hostRead f => Sys2Proof.Machine.execHostRead f s
  | .registerWrite i1 f a v => Sys2Proof.Machine.execRegisterWrite i1 f a v s
  | .blockStop i1 n v => Sys2Proof.Machine.execBlockStop i1 n v s
  | .blockStopped n => Sys2Proof.Machine.execBlockStopped n s
  | .blockRestart i1 n v => Sys2Proof.Machine.execBlockRestart i1 n v s
  | .sxWrite i1 a v => Sys2Proof.Machine.execSxWrite i1 a v s
  | .shWrite i1 a v => Sys2Proof.Machine.execShWrite i1 a v s
  | .stWrite i1 a v => Sys2Proof.Machine.execStWrite i1 a v s
  | .bankSwapRequest i1 b v => Sys2Proof.Machine.execBankSwapRequest i1 b v s
  | .bankCancel i1 b v => Sys2Proof.Machine.execBankCancel i1 b v s
  | .bankSwap b => Sys2Proof.Machine.execBankSwap b s
  | .bankShadowCopyDone b => Sys2Proof.Machine.execBankShadowCopyDone b s
  | .groupCommit i1 v => Sys2Proof.Machine.execGroupCommit i1 v s
  | .groupCommitEffect g => Sys2Proof.Machine.execGroupCommitEffect g s
  | .groupAbort i1 v => Sys2Proof.Machine.execGroupAbort i1 v s
  | .portSelectWrite i1 v => Sys2Proof.Machine.execPortSelectWrite i1 v s
  | .portMoveStart => Sys2Proof.Machine.execPortMoveStart s
  | .portHoldRelease => Sys2Proof.Machine.execPortHoldRelease s
  | .receiverEnable i1 k v => Sys2Proof.Machine.execReceiverEnable i1 k v s
  | .receiverDisable i1 k v => Sys2Proof.Machine.execReceiverDisable i1 k v s
  | .crLockAcquired k cd fofs => Sys2Proof.Machine.execCrLockAcquired k cd fofs s
  | .carrierLoss k => Sys2Proof.Machine.execCarrierLoss k s
  | .losAssert k pwr => Sys2Proof.Machine.execLosAssert k pwr s
  | .losClear k pwr => Sys2Proof.Machine.execLosClear k pwr s
  | .loLineLow k => Sys2Proof.Machine.execLoLineLow k s
  | .combLow k pwr => Sys2Proof.Machine.execCombLow k pwr s
  | .transmitterEnable i1 k v => Sys2Proof.Machine.execTransmitterEnable i1 k v s
  | .codewordDecoded k next cw iter bitc info parity => Sys2Proof.Machine.execCodewordDecoded k next cw iter bitc info parity s
  | .provisionalRelease k next cw info parity => Sys2Proof.Machine.execProvisionalRelease k next cw info parity s
  | .calConditionCheck k now avg => Sys2Proof.Machine.execCalConditionCheck k now avg s
  | .calTrimRequest i1 k v => Sys2Proof.Machine.execCalTrimRequest i1 k v s
  | .calTrimStart k tx now => Sys2Proof.Machine.execCalTrimStart k tx now s
  | .calTrimComplete k tx avg => Sys2Proof.Machine.execCalTrimComplete k tx avg s
  | .eqWindowClose k w => Sys2Proof.Machine.execEqWindowClose k w s
  | .laserPoll r0 r1 r2 r3 => Sys2Proof.Machine.execLaserPoll r0 r1 r2 r3 s
  | .laserSourceAccess i1 v => Sys2Proof.Machine.execLaserSourceAccess i1 v s
  | .laserAccessDone ack data => Sys2Proof.Machine.execLaserAccessDone ack data s
  | .fawMatch k amp signs => Sys2Proof.Machine.execFawMatch k amp signs s
  | .expectedWindow k amp signs => Sys2Proof.Machine.execExpectedWindow k amp signs s
  | .frameHeader k hdr ops => Sys2Proof.Machine.execFrameHeader k hdr ops s
  | .flywheelTick k => Sys2Proof.Machine.execFlywheelTick k s
  | .ohsInsertBlock p blk => Sys2Proof.Machine.execOhsInsertBlock p blk s
  | .ohsShortBlock p => Sys2Proof.Machine.execOhsShortBlock p s
  | .mapEntry k n entry => Sys2Proof.Machine.execMapEntry k n entry s
  | .fragment k info busy c => Sys2Proof.Machine.execFragment k info busy c s
  | .reassemblyTimeout k sid => Sys2Proof.Machine.execReassemblyTimeout k sid s
  | .dsfIndRead i1 v => Sys2Proof.Machine.execDsfIndRead i1 v s
  | .dsfIndWrite i1 v => Sys2Proof.Machine.execDsfIndWrite i1 v s
  | .actEnable i1 k v => Sys2Proof.Machine.execActEnable i1 k v s
  | .actDisable i1 k v => Sys2Proof.Machine.execActDisable i1 k v s
  | .actRestart i1 k v => Sys2Proof.Machine.execActRestart i1 k v s
  | .actGroupStage k => Sys2Proof.Machine.execActGroupStage k s
  | .tAsgExpiry k => Sys2Proof.Machine.execTAsgExpiry k s
  | .tRngExpiry k => Sys2Proof.Machine.execTRngExpiry k s
  | .tIntExpiry k => Sys2Proof.Machine.execTIntExpiry k s
  | .stoppedHoldExpiry k => Sys2Proof.Machine.execStoppedHoldExpiry k s
  | .unknownMessage k n msg => Sys2Proof.Machine.execUnknownMessage k n msg s
  | .lineParams k n msg => Sys2Proof.Machine.execLineParams k n msg s
  | .assignTn k n msg => Sys2Proof.Machine.execAssignTn k n msg s
  | .rangingTime k n msg => Sys2Proof.Machine.execRangingTime k n msg s
  | .burstProfile k n msg => Sys2Proof.Machine.execBurstProfile k n msg s
  | .authChallenge k n msg => Sys2Proof.Machine.execAuthChallenge k n msg s
  | .keyInstall k n msg => Sys2Proof.Machine.execKeyInstall k n msg s
  | .keyDerive k n msg => Sys2Proof.Machine.execKeyDerive k n msg s
  | .keyEraseIndex k n msg => Sys2Proof.Machine.execKeyEraseIndex k n msg s
  | .keyEraseAll k n msg => Sys2Proof.Machine.execKeyEraseAll k n msg s
  | .streamAssign k n msg => Sys2Proof.Machine.execStreamAssign k n msg s
  | .allocAssign k n msg => Sys2Proof.Machine.execAllocAssign k n msg s
  | .powerMode k n msg => Sys2Proof.Machine.execPowerMode k n msg s
  | .timeOfDay k n msg => Sys2Proof.Machine.execTimeOfDay k n msg s
  | .disable k n msg => Sys2Proof.Machine.execDisable k n msg s
  | .enable k n msg => Sys2Proof.Machine.execEnable k n msg s
  | .deactivate k n msg => Sys2Proof.Machine.execDeactivate k n msg s
  | .protSwitch k n msg => Sys2Proof.Machine.execProtSwitch k n msg s
  | .protSwitchEffect => Sys2Proof.Machine.execProtSwitchEffect s
  | .autoProtExpiry => Sys2Proof.Machine.execAutoProtExpiry s
  | .wakeList k n msg => Sys2Proof.Machine.execWakeList k n msg s
  | .regWrite k n msg => Sys2Proof.Machine.execRegWrite k n msg s
  | .regRead k n msg => Sys2Proof.Machine.execRegRead k n msg s
  | .rxqPop i1 v => Sys2Proof.Machine.execRxqPop i1 v s
  | .txqSend i1 v => Sys2Proof.Machine.execTxqSend i1 v s
  | .mapReconcile k => Sys2Proof.Machine.execMapReconcile k s
  | .nofragWaitExpiry k => Sys2Proof.Machine.execNofragWaitExpiry k s
  | .burstStart k => Sys2Proof.Machine.execBurstStart k s
  | .upstreamFragmentEncode k late c => Sys2Proof.Machine.execUpstreamFragmentEncode k late c s
  | .burstLeftModulator k => Sys2Proof.Machine.execBurstLeftModulator k s
  | .chpFrameParse k header entries => Sys2Proof.Machine.execChpFrameParse k header entries s
  | .shutterDrive k => Sys2Proof.Machine.execShutterDrive k s
  | .shutRdyRise k => Sys2Proof.Machine.execShutRdyRise k s
  | .chpClose k => Sys2Proof.Machine.execChpClose k s
  | .chpGateOutsideWindow k => Sys2Proof.Machine.execChpGateOutsideWindow k s
  | .chpClockLoss k => Sys2Proof.Machine.execChpClockLoss k s
  | .chpGateTooLong k symbols => Sys2Proof.Machine.execChpGateTooLong k symbols s
  | .chpDutyExceeded k => Sys2Proof.Machine.execChpDutyExceeded k s
  | .chpDividerMismatch k diff => Sys2Proof.Machine.execChpDividerMismatch k diff s
  | .chpCopyUncorrectable k => Sys2Proof.Machine.execChpCopyUncorrectable k s
  | .chpFatalShutdown => Sys2Proof.Machine.execChpFatalShutdown s
  | .chpRelease i1 k v held pass => Sys2Proof.Machine.execChpRelease i1 k v held pass s
  | .ubeIndRead i1 v => Sys2Proof.Machine.execUbeIndRead i1 v s
  | .ubeIndWrite i1 v => Sys2Proof.Machine.execUbeIndWrite i1 v s
  | .packetPass t => Sys2Proof.Machine.execPacketPass t s
  | .idleSlotEntry n => Sys2Proof.Machine.execIdleSlotEntry n s
  | .reinjectNewPass i1 v => Sys2Proof.Machine.execReinjectNewPass i1 v s
  | .reinjectToQueue i1 v => Sys2Proof.Machine.execReinjectToQueue i1 v s
  | .reinjectOffered => Sys2Proof.Machine.execReinjectOffered s
  | .clsIndRead i1 v => Sys2Proof.Machine.execClsIndRead i1 v s
  | .clsIndWrite i1 v => Sys2Proof.Machine.execClsIndWrite i1 v s
  | .versionCommitRequest i1 v => Sys2Proof.Machine.execVersionCommitRequest i1 v s
  | .versionCommit => Sys2Proof.Machine.execVersionCommit s
  | .sweepDone => Sys2Proof.Machine.execSweepDone s
  | .spqConsume i1 q v => Sys2Proof.Machine.execSpqConsume i1 q v s
  | .flowInsert i1 v => Sys2Proof.Machine.execFlowInsert i1 v s
  | .flowInsertComplete => Sys2Proof.Machine.execFlowInsertComplete s
  | .learnInsert => Sys2Proof.Machine.execLearnInsert s
  | .flowLookupCmd i1 v => Sys2Proof.Machine.execFlowLookupCmd i1 v s
  | .flowUpdate i1 v => Sys2Proof.Machine.execFlowUpdate i1 v s
  | .flowDelete i1 v => Sys2Proof.Machine.execFlowDelete i1 v s
  | .stashPlace => Sys2Proof.Machine.execStashPlace s
  | .ageTick => Sys2Proof.Machine.execAgeTick s
  | .cidxHoldExpiry => Sys2Proof.Machine.execCidxHoldExpiry s
  | .deltaFlush cid => Sys2Proof.Machine.execDeltaFlush cid s
  | .counterRead i1 v => Sys2Proof.Machine.execCounterRead i1 v s
  | .ageqConsume i1 v => Sys2Proof.Machine.execAgeqConsume i1 v s
  | .runaheadIssue k info idx flips => Sys2Proof.Machine.execRunaheadIssue k info idx flips s
  | .codewordVerdict k => Sys2Proof.Machine.execCodewordVerdict k s
  | .specTimeout k => Sys2Proof.Machine.execSpecTimeout k s
  | .spillPageWrite key => Sys2Proof.Machine.execSpillPageWrite key s
  | .spillWriteDone key page => Sys2Proof.Machine.execSpillWriteDone key page s
  | .cellarReturnRead key => Sys2Proof.Machine.execCellarReturnRead key s
  | .returnReadDone key page flips => Sys2Proof.Machine.execReturnReadDone key page flips s
  | .hbmConditionCheck n t duty => Sys2Proof.Machine.execHbmConditionCheck n t duty s
  | .hbmRetrainRequest i1 v => Sys2Proof.Machine.execHbmRetrainRequest i1 v s
  | .hbmRetrainStart t duty => Sys2Proof.Machine.execHbmRetrainStart t duty s
  | .hbmRetrainStep n => Sys2Proof.Machine.execHbmRetrainStep n s
  | .hbmRetrainDone n t duty => Sys2Proof.Machine.execHbmRetrainDone n t duty s
  | .scrubRead flip => Sys2Proof.Machine.execScrubRead flip s
  | .hbmRowTest a => Sys2Proof.Machine.execHbmRowTest a s
  | .hbmRowTestDone a pass spare => Sys2Proof.Machine.execHbmRowTestDone a pass spare s
  | .celIndRead i1 v => Sys2Proof.Machine.execCelIndRead i1 v s
  | .celIndWrite i1 v => Sys2Proof.Machine.execCelIndWrite i1 v s
  | .poolWrite i1 which v => Sys2Proof.Machine.execPoolWrite i1 which v s
  | .scheduleSelect p => Sys2Proof.Machine.execScheduleSelect p s
  | .shaperRefill dir level => Sys2Proof.Machine.execShaperRefill dir level s
  | .schIndRead i1 v => Sys2Proof.Machine.execSchIndRead i1 v s
  | .schIndWrite i1 v => Sys2Proof.Machine.execSchIndWrite i1 v s
  | .leafFlush i1 v => Sys2Proof.Machine.execLeafFlush i1 v s
  | .histogramSample => Sys2Proof.Machine.execHistogramSample s
  | .histogramClear i1 v => Sys2Proof.Machine.execHistogramClear i1 v s
  | .gateEntryStart p => Sys2Proof.Machine.execGateEntryStart p s
  | .gateListChange p => Sys2Proof.Machine.execGateListChange p s
  | .gateHoldAssert p => Sys2Proof.Machine.execGateHoldAssert p s
  | .gateHoldRelease p => Sys2Proof.Machine.execGateHoldRelease p s
  | .cipherDispatch lane => Sys2Proof.Machine.execCipherDispatch lane s
  | .cipherComplete src => Sys2Proof.Machine.execCipherComplete src s
  | .keyGenerationDrained slot => Sys2Proof.Machine.execKeyGenerationDrained slot s
  | .klnDerive i1 v => Sys2Proof.Machine.execKlnDerive i1 v s
  | .klnUnwrap i1 v => Sys2Proof.Machine.execKlnUnwrap i1 v s
  | .klnLoad i1 v => Sys2Proof.Machine.execKlnLoad i1 v s
  | .klnErase i1 v => Sys2Proof.Machine.execKlnErase i1 v s
  | .klnRootLoad i1 v => Sys2Proof.Machine.execKlnRootLoad i1 v s
  | .klnRootErase i1 v => Sys2Proof.Machine.execKlnRootErase i1 v s
  | .klnQuery i1 v => Sys2Proof.Machine.execKlnQuery i1 v s
  | .bindRead i1 v => Sys2Proof.Machine.execBindRead i1 v s
  | .bindWrite i1 v => Sys2Proof.Machine.execBindWrite i1 v s
  | .rkProgram i1 v => Sys2Proof.Machine.execRkProgram i1 v s
  | .cipIndRead i1 v => Sys2Proof.Machine.execCipIndRead i1 v s
  | .cipIndWrite i1 v => Sys2Proof.Machine.execCipIndWrite i1 v s
  | .fwRingPost i1 v => Sys2Proof.Machine.execFwRingPost i1 v s
  | .fwDescriptor err => Sys2Proof.Machine.execFwDescriptor err s
  | .portEnable i1 P v => Sys2Proof.Machine.execPortEnable i1 P v s
  | .portDisable i1 P v => Sys2Proof.Machine.execPortDisable i1 P v s
  | .linkChange p lanes aligned localF remoteF quiet hiSer => Sys2Proof.Machine.execLinkChange p lanes aligned localF remoteF quiet hiSer s
  | .macReceiveFrame p frame code line frags assy corr unc => Sys2Proof.Machine.execMacReceiveFrame p frame code line frags assy corr unc s
  | .pfcPauseExpiry p t => Sys2Proof.Machine.execPfcPauseExpiry p t s
  | .pfcXoff p => Sys2Proof.Machine.execPfcXoff p s
  | .pfcRefresh p => Sys2Proof.Machine.execPfcRefresh p s
  | .macTransmit p c => Sys2Proof.Machine.execMacTransmit p c s
  | .mmVerifyAttempt p t => Sys2Proof.Machine.execMmVerifyAttempt p t s
  | .clientLightLow P => Sys2Proof.Machine.execClientLightLow P s
  | .secondBoundary => Sys2Proof.Machine.execSecondBoundary s
  | .ppsOutFall => Sys2Proof.Machine.execPpsOutFall s
  | .todOutSend => Sys2Proof.Machine.execTodOutSend s
  | .todInMessage m => Sys2Proof.Machine.execTodInMessage m s
  | .timeLoad i1 v => Sys2Proof.Machine.execTimeLoad i1 v s
  | .timeStep i1 v => Sys2Proof.Machine.execTimeStep i1 v s
  | .todReadLatch i1 => Sys2Proof.Machine.execTodReadLatch i1 s
  | .tpllHoldover => Sys2Proof.Machine.execTpllHoldover s
  | .tpllHoldoverExit => Sys2Proof.Machine.execTpllHoldoverExit s
  | .timeSampleWrite i1 v => Sys2Proof.Machine.execTimeSampleWrite i1 v s
  | .ppsInEdge => Sys2Proof.Machine.execPpsInEdge s
  | .servoSampleTimeout => Sys2Proof.Machine.execServoSampleTimeout s
  | .servoHoldoverExpiry => Sys2Proof.Machine.execServoHoldoverExpiry s
  | .tsqPop i1 p v => Sys2Proof.Machine.execTsqPop i1 p v s
  | .tsqLogClear i1 p v => Sys2Proof.Machine.execTsqLogClear i1 p v s
  | .taskPost i1 v => Sys2Proof.Machine.execTaskPost i1 v s
  | .postApply => Sys2Proof.Machine.execPostApply s
  | .hwEventSource n => Sys2Proof.Machine.execHwEventSource n s
  | .taskAssign => Sys2Proof.Machine.execTaskAssign s
  | .taskDone i1 c v => Sys2Proof.Machine.execTaskDone i1 c v s
  | .taskYield i1 c v => Sys2Proof.Machine.execTaskYield i1 c v s
  | .taskCancel i1 v => Sys2Proof.Machine.execTaskCancel i1 v s
  | .taskEnable i1 v => Sys2Proof.Machine.execTaskEnable i1 v s
  | .tskIndRead i1 v => Sys2Proof.Machine.execTskIndRead i1 v s
  | .tskIndWrite i1 v => Sys2Proof.Machine.execTskIndWrite i1 v s
  | .acuWindowRead i1 v => Sys2Proof.Machine.execAcuWindowRead i1 v s
  | .acuWindowWrite i1 v => Sys2Proof.Machine.execAcuWindowWrite i1 v s
  | .powerRequestFull i1 v => Sys2Proof.Machine.execPowerRequestFull i1 v s
  | .powerRequestTrim i1 v => Sys2Proof.Machine.execPowerRequestTrim i1 v s
  | .powerRequestDoze i1 v => Sys2Proof.Machine.execPowerRequestDoze i1 v s
  | .powerRequestTaste i1 v => Sys2Proof.Machine.execPowerRequestTaste i1 v s
  | .powerRequestOff i1 v => Sys2Proof.Machine.execPowerRequestOff i1 v s
  | .powerEntryStart c => Sys2Proof.Machine.execPowerEntryStart c s
  | .powerEntryComplete => Sys2Proof.Machine.execPowerEntryComplete s
  | .powerTransitionEnd => Sys2Proof.Machine.execPowerTransitionEnd s
  | .lineModeAwake i1 k v => Sys2Proof.Machine.execLineModeAwake i1 k v s
  | .lineModeDoze i1 k v => Sys2Proof.Machine.execLineModeDoze i1 k v s
  | .lineModeSleep i1 k v => Sys2Proof.Machine.execLineModeSleep i1 k v s
  | .lineModeApply k => Sys2Proof.Machine.execLineModeApply k s
  | .dozeEnd k => Sys2Proof.Machine.execDozeEnd k s
  | .sleepEarlyWake k => Sys2Proof.Machine.execSleepEarlyWake k s
  | .sleepEnd k => Sys2Proof.Machine.execSleepEnd k s
  | .tasteCycle ready a b stamp => Sys2Proof.Machine.execTasteCycle ready a b stamp s
  | .tasteCycleTimeout stamp => Sys2Proof.Machine.execTasteCycleTimeout stamp s
  | .wakeI2c stamp => Sys2Proof.Machine.execWakeI2c stamp s
  | .wakeSpi stamp => Sys2Proof.Machine.execWakeSpi stamp s
  | .wakeSd P stamp => Sys2Proof.Machine.execWakeSd P stamp s
  | .wakeN stamp => Sys2Proof.Machine.execWakeN stamp s
  | .wakeTimer stamp => Sys2Proof.Machine.execWakeTimer stamp s
  | .wakeStart mgr safeN => Sys2Proof.Machine.execWakeStart mgr safeN s
  | .wakeRetry => Sys2Proof.Machine.execWakeRetry s
  | .wakeComplete => Sys2Proof.Machine.execWakeComplete s
  | .wakeLogPop i1 v => Sys2Proof.Machine.execWakeLogPop i1 v s
  | .faultLatch src r => Sys2Proof.Machine.execFaultLatch src r s
  | .faultReaction => Sys2Proof.Machine.execFaultReaction s
  | .selfTestDone pass pool places buckets => Sys2Proof.Machine.execSelfTestDone pass pool places buckets s
  | .quietWindowEnd => Sys2Proof.Machine.execQuietWindowEnd s
  | .resetDeviceExpiry => Sys2Proof.Machine.execResetDeviceExpiry s
  | .tempWarning t => Sys2Proof.Machine.execTempWarning t s
  | .safeNLow => Sys2Proof.Machine.execSafeNLow s
  | .safeEnter i1 v => Sys2Proof.Machine.execSafeEnter i1 v s
  | .safeExit i1 v => Sys2Proof.Machine.execSafeExit i1 v s
  | .recordRead i1 v => Sys2Proof.Machine.execRecordRead i1 v s
  | .recordRelease i1 v => Sys2Proof.Machine.execRecordRelease i1 v s
  | .injectArm i1 v => Sys2Proof.Machine.execInjectArm i1 v s
  | .injectDisarm i1 v => Sys2Proof.Machine.execInjectDisarm i1 v s
  | .linkGroupEnable i1 g v => Sys2Proof.Machine.execLinkGroupEnable i1 g v s
  | .terminationProbe g lanes => Sys2Proof.Machine.execTerminationProbe g lanes s
  | .trainDone g locked late => Sys2Proof.Machine.execTrainDone g locked late s
  | .commaLock c => Sys2Proof.Machine.execCommaLock c s
  | .linkStateTimeout g => Sys2Proof.Machine.execLinkStateTimeout g s
  | .linkGroupFail g why => Sys2Proof.Machine.execLinkGroupFail g why s
  | .casEqWindow g lane swings => Sys2Proof.Machine.execCasEqWindow g lane swings s
  | .containerReceive g line t out order closed flash => Sys2Proof.Machine.execContainerReceive g line t out order closed flash s
  | .caps g line t out order closed flash => Sys2Proof.Machine.execCaps g line t out order closed flash s
  | .heartbeat g line t out order closed flash => Sys2Proof.Machine.execHeartbeat g line t out order closed flash s
  | .join g line t out order closed flash => Sys2Proof.Machine.execJoin g line t out order closed flash s
  | .assign g line t out order closed flash => Sys2Proof.Machine.execAssign g line t out order closed flash s
  | .view g line t out order closed flash => Sys2Proof.Machine.execView g line t out order closed flash s
  | .readReq g line t out order closed flash => Sys2Proof.Machine.execReadReq g line t out order closed flash s
  | .bootContainer g line t out order closed flash => Sys2Proof.Machine.execBootContainer g line t out order closed flash s
  | .time g line t out order closed flash => Sys2Proof.Machine.execTime g line t out order closed flash s
  | .probe g line t out order closed flash => Sys2Proof.Machine.execProbe g line t out order closed flash s
  | .probeResp g line t out order closed flash => Sys2Proof.Machine.execProbeResp g line t out order closed flash s
  | .cascadeArrival g => Sys2Proof.Machine.execCascadeArrival g s
  | .heartbeatTick => Sys2Proof.Machine.execHeartbeatTick s
  | .memberCheckTick joins order closed => Sys2Proof.Machine.execMemberCheckTick joins order closed s
  | .electionTimeout order closed => Sys2Proof.Machine.execElectionTimeout order closed s
  | .mgrLost => Sys2Proof.Machine.execMgrLost s
  | .joinRetry => Sys2Proof.Machine.execJoinRetry s
  | .bootWaitExpiry => Sys2Proof.Machine.execBootWaitExpiry s
  | .casIndRead i1 v => Sys2Proof.Machine.execCasIndRead i1 v s
  | .casIndWrite i1 v => Sys2Proof.Machine.execCasIndWrite i1 v s
  | .coreClockSwitch i1 v => Sys2Proof.Machine.execCoreClockSwitch i1 v s
  | .cpllConfig i1 v => Sys2Proof.Machine.execCpllConfig i1 v s
  | .cpllLoss => Sys2Proof.Machine.execCpllLoss s
  | .spllLoss iosc => Sys2Proof.Machine.execSpllLoss iosc s
  | .xtalFail => Sys2Proof.Machine.execXtalFail s
  | .xtalAdopt => Sys2Proof.Machine.execXtalAdopt s
  | .syncRefLoss n => Sys2Proof.Machine.execSyncRefLoss n s
  | .clockMeasure i1 v => Sys2Proof.Machine.execClockMeasure i1 v s
  | .clockMeasureDone count => Sys2Proof.Machine.execClockMeasureDone count s
  | .clearingRead c mode a => Sys2Proof.Machine.execClearingRead c mode a s
  | .loLineRestored k => Sys2Proof.Machine.execLoLineRestored k s
  | .combRestored k pwr => Sys2Proof.Machine.execCombRestored k pwr s
  | .clientLightRestored P => Sys2Proof.Machine.execClientLightRestored P s
  | .syncRefRestore n => Sys2Proof.Machine.execSyncRefRestore n s
  | .cpllLockAcquired => Sys2Proof.Machine.execCpllLockAcquired s
  | .xtalAdoptTimeout => Sys2Proof.Machine.execXtalAdoptTimeout s
  | .ppsInTodWaitExpiry => Sys2Proof.Machine.execPpsInTodWaitExpiry s
  | .ppsInSourceLost => Sys2Proof.Machine.execPpsInSourceLost s
  | .tempWarningRearm t => Sys2Proof.Machine.execTempWarningRearm t s
  | .safeNHigh => Sys2Proof.Machine.execSafeNHigh s

end Sys2Proof.Machine
end

