-- ==== Sys2Proof/Safety.lean ====
section
/-! DEFINITION. What a sound state and a safe step are, and what it means that a step leaves parts of the state alone. -/

namespace Sys2Proof.Machine

/-- Memory is in its canonical form, and so are the marks of its words: addresses strictly rising, none listed that reads as
an unlisted one. -/
def Memory.wf (s : State) : Bool := SMap.wf memDefault s.mem && SMap.wf (fun _ => (0 : BitVec 72)) s.ecc

/-- The canonical form of the register map, the shadow banks, memory and the marks of its words, and the bound of the counter's
position in its second (R295: NS stays below 1,000,000,000). -/
def Canon (regs shadow : SMap Word) (mem : SMap Byte) (ecc : SMap (BitVec 72)) (tod : Tod) : Prop :=
  SMap.wf regReset regs = true ∧ SMap.wf regReset shadow = true ∧ SMap.wf memDefault mem = true ∧ tod.f < secF ∧
    SMap.wf (fun _ => (0 : BitVec 72)) ecc = true

/-- What holds of every sound state: equal contents are equal data, and the counter reads a time. -/
def Inv (s : State) : Prop := Canon s.regs s.shadow s.mem s.ecc s.tod

/-- A step answers a next state. -/
def StepSafe (s : State) : Prop := ∃ t, step s = .next t

/-- The parts of the state, one for each field of `State`, and two fields within those: the boot phase and the power state. -/
inductive Part where
  | pending
  | regs
  | shadow
  | mem
  | ecc
  | free
  | readOut
  | ticks
  | tod
  | cfg
  | flt
  | tsk
  | harts
  | acu
  | pwr
  | cel
  | sch
  | gcl
  | kln
  | act
  | ube
  | chp
  | dsf
  | ohs
  | pipes
  | cls
  | flw
  | spc
  | mac
  | lph
  | tim
  | cas
  | clk
  | tap
  | boot
  | power
  deriving DecidableEq, Repr

/-- A part is the same in two states. -/
def Part.same : Part → State → State → Prop
  | .pending, o, s => s.pending = o.pending
  | .regs, o, s => s.regs = o.regs
  | .shadow, o, s => s.shadow = o.shadow
  | .mem, o, s => s.mem = o.mem
  | .ecc, o, s => s.ecc = o.ecc
  | .free, o, s => s.free = o.free
  | .readOut, o, s => s.readOut = o.readOut
  | .ticks, o, s => s.ticks = o.ticks
  | .tod, o, s => s.tod = o.tod
  | .cfg, o, s => s.cfg = o.cfg
  | .flt, o, s => s.flt = o.flt
  | .tsk, o, s => s.tsk = o.tsk
  | .harts, o, s => s.harts = o.harts
  | .acu, o, s => s.acu = o.acu
  | .pwr, o, s => s.pwr = o.pwr
  | .cel, o, s => s.cel = o.cel
  | .sch, o, s => s.sch = o.sch
  | .gcl, o, s => s.gcl = o.gcl
  | .kln, o, s => s.kln = o.kln
  | .act, o, s => s.act = o.act
  | .ube, o, s => s.ube = o.ube
  | .chp, o, s => s.chp = o.chp
  | .dsf, o, s => s.dsf = o.dsf
  | .ohs, o, s => s.ohs = o.ohs
  | .pipes, o, s => s.pipes = o.pipes
  | .cls, o, s => s.cls = o.cls
  | .flw, o, s => s.flw = o.flw
  | .spc, o, s => s.spc = o.spc
  | .mac, o, s => s.mac = o.mac
  | .lph, o, s => s.lph = o.lph
  | .tim, o, s => s.tim = o.tim
  | .cas, o, s => s.cas = o.cas
  | .clk, o, s => s.clk = o.clk
  | .tap, o, s => s.tap = o.tap
  | .boot, o, s => s.cfg.boot = o.cfg.boot
  | .power, o, s => s.pwr.cur = o.pwr.cur

/-- Every part outside the list is as it was. -/
def Frame (parts : List Part) (o s : State) : Prop := ∀ p, p ∉ parts → p.same o s

/-- Every register outside the windows of a list of blocks (R412) is as it was. -/
def RegFrame (blocks : List Nat) (o s : State) : Prop := ∀ a, blkOf a ∉ blocks → s.reg a = o.reg a

end Sys2Proof.Machine
end

