-- ==== Sys2Proof/Certificates/Slice0/Obligations.lean ====
section
/-! DEFINITION. The statements for the provers: what each command does, what it leaves alone, and what every step keeps. -/

namespace Sys2Proof.Spec
open Sys2Proof.Machine

/-- A command completes, and the state it leaves is so. -/
def Gives (c : Instr) (s : State) (P : State → Prop) : Prop := ∃ t, exec c s = .next t ∧ P t

/-- The initiator can make the write of a register, and nothing refuses it. -/
abbrev Accepted (i : Initiator) (a : Nat) (v : Word) (s : State) : Prop :=
  canAccess s i a = true ∧ accessRefused i .word true a v s = false

/-- The value that a written word holds for a field. -/
def inField (v : Word) (r : RF) : Nat := fieldOf v r.lo r.w

/-- Of two states the first differs from the second in no register outside a list, and in nothing else. -/
def OnlyRegs (as : List Nat) (s t : State) : Prop := t = { s with regs := t.regs } ∧ ∀ a, a ∉ as → t.reg a = s.reg a

end Sys2Proof.Spec

open Sys2Proof Sys2Proof.Machine Sys2Proof.Spec

/-- A step with a command in front of the queue runs that command with the queue's rest. (INDEX.md) -/
def Obligations.StepRunsFrontCommand : Prop :=
  ∀ (c : Instr) (rest : List Instr) (s : State), step { s with pending := c :: rest } = exec c { s with pending := rest }

/-- On an empty queue a device that is up counts one cycle of its time clock, and one that is not up does nothing.
That an empty queue is one cycle of the time clock is the model's choice, log entry 1; what a cycle adds, and the
carry into the seconds, are R295's. (13_time.md R295) -/
def Obligations.EmptyQueueCounts : Prop :=
  ∀ s : State, s.pending = [] → ∃ t, step s = .next t ∧ t.pending = [] ∧
    (isUp s = false → t = s) ∧
    (isUp s = true → t.ticks = s.ticks + 1 ∧
      (s.tod.f + (2 ^ 49 + timRate s * 2 ^ 9).toNat < secF →
        t.tod = ⟨s.tod.s, s.tod.f + (2 ^ 49 + timRate s * 2 ^ 9).toNat⟩ ∧
          Frame [.regs, .ticks, .tod, .ube, .chp, .tim, .cas] s t ∧ RegFrame [blkCHP, blkLPH] s t) ∧
      (secF ≤ s.tod.f + (2 ^ 49 + timRate s * 2 ^ 9).toNat →
        t.tod = ⟨(s.tod.s + 1) % 2 ^ 48, s.tod.f + (2 ^ 49 + timRate s * 2 ^ 9).toNat - secF⟩))

/-- Every command completes in every state, and no command touches the queue. (INDEX.md, 02_start_and_configuration.md
R37, 20_register_index.md R414) -/
def Obligations.EveryCommandCompletes : Prop :=
  ∀ (c : Instr) (s : State), ∃ t, exec c s = .next t ∧ t.pending = s.pending

/-- The state after reset is sound, up in no part, and waits for its reset to be released. The queue is the model's
own; that reset starts with VR_EN high and the supplies up is the model's choice (see the log entries on State.reset).
(19_package_and_electrical.md R406, 19_package_and_electrical.md R410, 13_time.md R295) -/
def Obligations.ResetStateIsSound : Prop :=
  Machine.Inv State.reset ∧ State.reset.pending = [] ∧ State.reset.mem = [] ∧ State.reset.ecc = [] ∧ State.reset.cfg.boot = .inReset ∧ isUp State.reset = false ∧
    (∀ a, State.reset.reg a = regReset a) ∧ State.reset.tod = ⟨0, 0⟩ ∧ State.reset.kln.slots = [] ∧
    ∀ n, (State.reset.frec n).valid = false

/-- Every step keeps the invariant: one form of every map, and a time counter below its range. (13_time.md R295,
20_register_index.md R411, 20_register_index.md R412) -/
def Obligations.StepKeepsInvariant : Prop :=
  ∀ s t : State, Machine.Inv s → step s = .next t → Machine.Inv t

/-- The parts of the state that a command may change, and the blocks whose registers it may change (none: any block's). -/
def Sys2Proof.Spec.reach : Instr → Option (List Part × Option (List Nat))
  | .resetRelease .. =>
    some ([.regs, .mem, .ecc, .cfg, .flt, .tsk, .harts, .cel, .sch, .kln, .act, .ube, .chp, .dsf, .ohs, .pipes, .spc,
   .tim, .cas, .boot],
      some [blkCFG, blkCLK, blkFLT, blkTSK, blkLPH, blkDSF, blkACT, blkUBE, blkCHP, blkSPC, blkCEL, blkKLN, blkTIM,
      blkCAS])
  | .sfdpReadDone .. | .copyHeadersRead .. | .bootWaitExpiry =>
    some ([.regs, .cfg, .flt, .harts, .cel, .sch, .kln, .act, .ube, .chp, .dsf, .ohs, .pipes, .spc, .mac, .tim, .cas,
   .boot],
      some [blkCFG, blkCLK, blkFLT, blkLPH, blkDSF, blkACT, blkUBE, blkCHP, blkSPC, blkCEL, blkKLN, blkTIM, blkCAS])
  | .copyValidated .. =>
    some ([.regs, .mem, .ecc, .cfg, .flt, .harts, .cel, .sch, .kln, .act, .ube, .chp, .dsf, .ohs, .pipes, .spc, .mac,
   .tim, .cas, .boot],
      some [blkCFG, blkCLK, blkFLT, blkLPH, blkDSF, blkACT, blkUBE, blkCHP, blkSPC, blkCEL, blkKLN, blkTIM, blkCAS])
  | .hbmBootTraining .. =>
    some ([.regs, .mem, .ecc, .flt, .cel],
      some [blkFLT, blkCEL])
  | .baseFirmwareEntry =>
    some ([.regs, .shadow, .mem, .ecc, .free, .cfg, .flt, .tsk, .harts, .pwr, .cel, .sch, .gcl, .kln, .act, .ube, .chp,
   .dsf, .ohs, .pipes, .cls, .spc, .mac, .lph, .tim, .cas, .boot],
      some [blkCFG, blkPWR, blkFLT, blkTSK, blkLPH, blkDSF, blkACT, blkUBE, blkCHP, blkCLS, blkSPC, blkCEL, blkGCL,
      blkKLN, blkMAC, blkTIM, blkCAS])
  | .spiCommandDone .. =>
    some ([.regs, .cfg],
      some [blkCFG])
  | .hostRead .. | .todReadLatch .. | .clearingRead .. =>
    some ([.regs, .mem, .ecc, .free, .readOut, .flt, .tsk, .harts],
      none)
  | .blockStopped .. =>
    some ([.regs, .cfg, .flt, .cel, .sch, .kln, .act, .ube, .chp, .dsf, .ohs, .pipes, .spc, .tim, .cas],
      some [blkCFG, blkFLT, blkLPH, blkDSF, blkACT, blkUBE, blkCHP, blkSPC, blkCEL, blkKLN, blkTIM, blkCAS])
  | .bankSwap .. =>
    some ([.regs, .shadow, .cfg, .gcl],
      some [blkLPH, blkDSF, blkACT, blkUBE, blkCLS, blkSCH, blkGCL])
  | .bankShadowCopyDone .. =>
    some ([.regs, .shadow, .cfg, .cel, .sch, .gcl, .kln, .act, .ube, .chp, .dsf, .ohs, .pipes, .spc, .tim],
      some [blkCFG, blkLPH, blkDSF, blkACT, blkUBE, blkCHP, blkCLS, blkSPC, blkCEL, blkSCH, blkGCL, blkKLN, blkTIM])
  | .groupCommitEffect .. =>
    some ([.regs, .cfg, .cel, .sch, .ube, .chp, .ohs, .tim],
      some [blkCFG, blkLPH, blkUBE, blkCHP, blkCEL])
  | .portMoveStart =>
    some ([.lph],
      some [])
  | .portHoldRelease | .losAssert .. =>
    some ([.regs, .shadow, .cfg, .cel, .sch, .gcl, .kln, .act, .ube, .chp, .dsf, .ohs, .pipes, .cls, .spc, .lph, .tim],
      some [blkCFG, blkLPH, blkDSF, blkACT, blkUBE, blkCHP, blkCLS, blkSPC, blkCEL, blkGCL, blkKLN, blkTIM])
  | .crLockAcquired .. =>
    some ([.regs, .free, .lph],
      some [blkLPH])
  | .carrierLoss .. | .frameHeader .. =>
    some ([.regs, .shadow, .cfg, .cel, .sch, .gcl, .kln, .act, .ube, .chp, .dsf, .ohs, .pipes, .cls, .spc, .tim],
      some [blkCFG, blkLPH, blkDSF, blkACT, blkUBE, blkCHP, blkCLS, blkSPC, blkCEL, blkGCL, blkKLN, blkTIM])
  | .losClear .. | .loLineLow .. | .calConditionCheck .. | .calTrimStart .. | .calTrimComplete ..
    | .eqWindowClose .. | .loLineRestored .. =>
    some ([.regs, .lph],
      some [blkLPH])
  | .combLow .. | .combRestored .. =>
    some ([.regs, .flt],
      some [blkFLT, blkLPH])
  | .codewordDecoded .. =>
    some ([.regs, .kln, .dsf, .spc],
      some [blkCIP])
  | .provisionalRelease .. =>
    some ([.spc],
      some [])
  | .laserPoll .. =>
    some ([.regs, .free, .flt, .lph],
      some [blkFLT, blkLPH, blkMAC])
  | .laserAccessDone .. =>
    some ([.regs],
      some [blkLPH])
  | .fawMatch .. =>
    some ([.regs, .dsf, .spc],
      some [blkDSF])
  | .expectedWindow .. =>
    some ([.regs, .shadow, .cfg, .cel, .sch, .gcl, .kln, .act, .ube, .chp, .dsf, .ohs, .pipes, .cls, .spc, .tim],
      some [blkCFG, blkLPH, blkDSF, blkACT, blkUBE, blkCHP, blkCLS, blkSPC, blkCEL, blkGCL, blkKLN, blkTIM, blkOHS])
  | .flywheelTick .. =>
    some ([.regs, .ticks, .act, .dsf, .ohs, .pipes],
      some [blkCLS, blkOHS])
  | .ohsInsertBlock .. | .ohsShortBlock .. =>
    some ([.regs, .ohs],
      some [blkOHS])
  | .mapEntry .. =>
    some ([.regs, .free, .act, .ube],
      some [blkACT, blkUBE])
  | .fragment .. =>
    some ([.regs, .flt, .cel, .kln, .dsf, .pipes, .spc],
      some [blkFLT, blkDSF, blkCLS, blkCIP, blkKLN])
  | .reassemblyTimeout .. =>
    some ([.regs, .cel, .dsf],
      some [blkDSF])
  | .actGroupStage .. =>
    some ([.regs, .cfg, .act, .ube],
      some [blkCFG, blkCHP])
  | .tAsgExpiry .. =>
    some ([.free, .act],
      some [])
  | .tRngExpiry .. | .tIntExpiry .. | .stoppedHoldExpiry .. | .unknownMessage .. | .lineParams .. | .rangingTime ..
    | .authChallenge .. | .keyInstall .. | .keyDerive .. | .keyEraseIndex .. | .keyEraseAll .. | .streamAssign ..
    | .allocAssign .. | .powerMode .. | .disable .. | .enable .. | .deactivate .. | .protSwitch .. =>
    some ([.regs, .cfg, .cel, .sch, .kln, .act, .ube, .chp, .dsf, .ohs, .pipes, .spc, .tim],
      some [blkCFG, blkLPH, blkDSF, blkACT, blkUBE, blkCHP, blkSPC, blkCEL, blkKLN, blkTIM])
  | .assignTn .. =>
    some ([.regs, .free, .cfg, .cel, .sch, .kln, .act, .ube, .chp, .dsf, .ohs, .pipes, .spc, .tim],
      some [blkCFG, blkLPH, blkDSF, blkACT, blkUBE, blkCHP, blkSPC, blkCEL, blkKLN, blkTIM])
  | .burstProfile .. =>
    some ([.regs, .shadow, .cfg, .cel, .sch, .gcl, .kln, .act, .ube, .chp, .dsf, .ohs, .pipes, .spc, .tim],
      some [blkCFG, blkLPH, blkDSF, blkACT, blkUBE, blkCHP, blkSPC, blkCEL, blkGCL, blkKLN, blkTIM])
  | .timeOfDay .. =>
    some ([.regs, .shadow, .tod, .cfg, .cel, .sch, .gcl, .kln, .act, .ube, .chp, .dsf, .ohs, .pipes, .spc, .tim],
      some [blkCFG, blkLPH, blkDSF, blkACT, blkUBE, blkCHP, blkSPC, blkCEL, blkGCL, blkKLN, blkTIM])
  | .protSwitchEffect | .autoProtExpiry =>
    some ([.regs, .cel, .sch, .act, .ube, .chp, .ohs],
      some [blkLPH, blkUBE, blkCHP, blkCEL])
  | .wakeList .. =>
    some ([.regs, .cfg, .pwr, .cel, .sch, .kln, .act, .ube, .chp, .dsf, .ohs, .pipes, .spc, .tim],
      some [blkCFG, blkLPH, blkDSF, blkACT, blkUBE, blkCHP, blkSPC, blkCEL, blkKLN, blkTIM])
  | .regRead .. =>
    some ([.regs, .mem, .ecc, .free, .cfg, .flt, .tsk, .harts, .cel, .sch, .kln, .act, .ube, .chp, .dsf, .ohs, .pipes,
   .spc, .tim],
      none)
  | .mapReconcile .. =>
    some ([.regs, .free, .flt, .cel, .sch, .ube],
      some [blkFLT, blkUBE, blkCEL])
  | .nofragWaitExpiry .. =>
    some ([.regs, .cel, .sch],
      some [blkUBE, blkCEL])
  | .burstStart .. | .shutterDrive .. | .chpClose .. =>
    some ([.regs, .cel, .sch, .ube, .chp, .ohs],
      some [blkLPH, blkUBE, blkCHP, blkCEL])
  | .upstreamFragmentEncode .. =>
    some ([.regs, .free, .flt, .cel, .sch, .kln, .ube],
      some [blkFLT, blkUBE, blkCEL, blkCIP, blkKLN])
  | .burstLeftModulator .. =>
    some ([.regs, .cel, .sch, .act, .ube, .ohs],
      some [blkACT, blkUBE, blkCEL, blkOHS])
  | .chpFrameParse .. =>
    some ([.regs, .chp],
      some [blkCHP])
  | .shutRdyRise .. =>
    some ([.regs],
      some [blkLPH, blkUBE, blkCHP])
  | .chpGateOutsideWindow .. | .chpClockLoss .. | .chpGateTooLong .. | .chpDutyExceeded .. | .chpDividerMismatch ..
    | .chpCopyUncorrectable .. | .chpFatalShutdown =>
    some ([.regs, .cfg, .flt, .cel, .sch, .kln, .act, .ube, .chp, .dsf, .ohs, .pipes, .spc, .tim],
      some [blkCFG, blkFLT, blkLPH, blkDSF, blkACT, blkUBE, blkCHP, blkSPC, blkCEL, blkKLN, blkTIM])
  | .packetPass .. =>
    some ([.regs, .shadow, .mem, .ecc, .free, .cfg, .flt, .cel, .sch, .gcl, .pipes, .cls, .flw, .cas],
      none)
  | .idleSlotEntry .. =>
    some ([.regs, .pipes],
      some [blkCLS])
  | .reinjectOffered =>
    some ([.regs, .ecc, .free, .flt, .pipes],
      some [blkFLT, blkPRS, blkCLS])
  | .versionCommit =>
    some ([.regs, .shadow, .cfg, .gcl, .cls],
      some [blkCLS, blkGCL])
  | .sweepDone =>
    some ([.regs, .cls],
      some [blkCLS])
  | .flowInsertComplete | .learnInsert =>
    some ([.regs, .free, .flw],
      some [blkFLW])
  | .stashPlace | .ageTick =>
    some ([.regs, .flw],
      some [blkFLW])
  | .cidxHoldExpiry =>
    some ([.regs, .mem, .ecc, .free, .flt, .flw],
      some [blkFLT, blkFLW])
  | .deltaFlush .. =>
    some ([.regs, .mem, .ecc, .free, .flt, .flw],
      some [blkFLT])
  | .runaheadIssue .. =>
    some ([.regs, .flt, .kln, .pipes, .spc],
      some [blkFLT, blkCLS, blkSPC, blkCIP, blkKLN])
  | .codewordVerdict .. =>
    some ([.regs, .shadow, .mem, .ecc, .free, .cfg, .flt, .cel, .sch, .gcl, .pipes, .cls, .flw, .spc, .cas],
      none)
  | .specTimeout .. =>
    some ([.regs, .cel, .sch, .pipes, .spc],
      some [blkSPC, blkCEL])
  | .spillPageWrite .. | .hbmRowTest .. =>
    some ([.regs, .ecc, .cel],
      some [blkCEL])
  | .spillWriteDone .. | .cellarReturnRead .. | .hbmConditionCheck .. | .hbmRetrainStart .. | .hbmRetrainDone .. =>
    some ([.regs, .cel],
      some [blkCEL])
  | .returnReadDone .. | .scrubRead .. =>
    some ([.regs, .ecc, .flt, .cel],
      some [blkFLT, blkCEL])
  | .hbmRetrainStep .. =>
    some ([.cel],
      some [])
  | .hbmRowTestDone .. =>
    some ([.regs, .mem, .ecc, .free, .flt, .tsk, .cel],
      some [blkFLT, blkTSK, blkCEL])
  | .scheduleSelect .. =>
    some ([.regs, .free, .flt, .cel, .sch, .gcl, .mac],
      some [blkFLT, blkCEL, blkGCL])
  | .shaperRefill .. =>
    some ([.sch],
      some [])
  | .histogramSample =>
    some ([.regs, .mem, .ecc, .free, .flt],
      some [blkFLT, blkSCH])
  | .gateEntryStart .. =>
    some ([.regs, .gcl, .mac],
      some [blkGCL, blkMAC])
  | .gateListChange .. =>
    some ([.regs, .shadow, .cfg, .gcl, .mac],
      some [blkGCL, blkMAC])
  | .gateHoldAssert .. | .gateHoldRelease .. =>
    some ([.regs, .mac],
      some [blkGCL, blkMAC])
  | .cipherDispatch .. =>
    some ([.kln],
      some [])
  | .cipherComplete .. =>
    some ([.regs, .kln, .pipes, .spc],
      some [blkCLS, blkSPC, blkCIP])
  | .keyGenerationDrained .. =>
    some ([.regs, .kln, .act],
      some [blkACT])
  | .fwDescriptor .. =>
    some ([.regs, .mem, .ecc, .free, .flt, .tsk, .kln],
      some [blkFLT, blkTSK, blkCIP, blkKLN])
  | .linkChange .. | .pfcPauseExpiry .. | .pfcXoff .. | .mmVerifyAttempt .. =>
    some ([.regs, .mac],
      some [blkMAC])
  | .macReceiveFrame .. =>
    some ([.regs, .free, .kln, .pipes, .mac],
      some [blkCLS, blkCIP, blkKLN, blkMAC])
  | .pfcRefresh .. =>
    some ([.mac],
      some [])
  | .macTransmit .. =>
    some ([.regs, .free, .flt, .sch, .kln, .pipes, .mac, .tim],
      some [blkFLT, blkCLS, blkGCL, blkCIP, blkKLN, blkMAC, blkTIM])
  | .clientLightLow .. | .clientLightRestored .. =>
    some ([.regs, .flt],
      some [blkFLT, blkMAC])
  | .secondBoundary =>
    some ([.regs, .mem, .ecc, .ticks, .tod, .flt, .tsk, .ube, .chp, .dsf, .tim, .cas],
      some [blkFLT, blkTSK, blkLPH, blkDSF, blkCHP])
  | .ppsOutFall | .todOutSend =>
    some ([.tim],
      some [])
  | .todInMessage .. | .ppsInTodWaitExpiry =>
    some ([.regs, .shadow, .tod, .cfg, .gcl, .dsf, .tim],
      some [blkDSF, blkGCL, blkTIM])
  | .tpllHoldover | .tpllHoldoverExit | .servoHoldoverExpiry =>
    some ([.regs],
      some [blkTIM])
  | .ppsInEdge | .servoSampleTimeout | .ppsInSourceLost =>
    some ([.regs, .tim],
      some [blkTIM])
  | .postApply | .hwEventSource .. =>
    some ([.regs, .mem, .ecc, .flt, .tsk],
      some [blkFLT, blkTSK])
  | .taskAssign =>
    some ([.regs, .mem, .ecc, .flt, .tsk, .harts],
      some [blkFLT, blkTSK])
  | .powerEntryStart .. =>
    some ([.regs, .cfg, .flt, .harts, .pwr, .cel, .sch, .kln, .act, .ube, .chp, .dsf, .ohs, .pipes, .spc, .tim, .cas],
      some [blkCFG, blkPWR, blkFLT, blkLPH, blkDSF, blkACT, blkUBE, blkCHP, blkSPC, blkCEL, blkKLN, blkMAC, blkTIM,
      blkCAS])
  | .powerTransitionEnd =>
    some ([.regs, .shadow, .free, .cfg, .flt, .pwr, .cel, .sch, .gcl, .kln, .act, .ube, .chp, .dsf, .ohs, .pipes, .cls,
   .spc, .mac, .lph, .tim, .cas, .power],
      some [blkCFG, blkPWR, blkFLT, blkLPH, blkDSF, blkACT, blkUBE, blkCHP, blkCLS, blkSPC, blkCEL, blkGCL, blkKLN,
      blkMAC, blkTIM, blkCAS])
  | .lineModeApply .. =>
    some ([.regs, .shadow, .free, .cfg, .pwr, .cel, .sch, .gcl, .kln, .act, .ube, .chp, .dsf, .ohs, .pipes, .cls, .spc,
   .lph, .tim],
      some [blkCFG, blkPWR, blkLPH, blkDSF, blkACT, blkUBE, blkCHP, blkCLS, blkSPC, blkCEL, blkGCL, blkKLN, blkTIM])
  | .dozeEnd .. | .tasteCycle .. | .tasteCycleTimeout .. | .wakeI2c .. | .wakeSpi .. | .wakeSd .. | .wakeN ..
    | .wakeTimer .. =>
    some ([.regs, .pwr],
      some [blkPWR])
  | .sleepEarlyWake .. =>
    some ([.regs, .free, .pwr, .lph],
      some [blkLPH])
  | .sleepEnd .. =>
    some ([.regs, .free, .cfg, .pwr, .cel, .sch, .kln, .act, .ube, .chp, .dsf, .ohs, .pipes, .spc, .lph, .tim],
      some [blkCFG, blkPWR, blkLPH, blkDSF, blkACT, blkUBE, blkCHP, blkSPC, blkCEL, blkKLN, blkTIM])
  | .wakeStart .. =>
    some ([.regs, .mem, .ecc, .cfg, .flt, .tsk, .harts, .pwr, .cel, .sch, .kln, .act, .ube, .chp, .dsf, .ohs, .pipes,
   .spc, .tim, .cas, .boot],
      some [blkCFG, blkCLK, blkPWR, blkFLT, blkTSK, blkLPH, blkDSF, blkACT, blkUBE, blkCHP, blkSPC, blkCEL, blkKLN,
      blkTIM, blkCAS])
  | .wakeComplete =>
    some ([.regs, .shadow, .mem, .ecc, .free, .cfg, .flt, .tsk, .harts, .pwr, .cel, .sch, .gcl, .kln, .act, .ube, .chp,
   .dsf, .ohs, .pipes, .cls, .spc, .mac, .lph, .tim, .cas, .clk, .power],
      some [blkCFG, blkPWR, blkFLT, blkTSK, blkLPH, blkDSF, blkACT, blkUBE, blkCHP, blkCLS, blkSPC, blkCEL, blkGCL,
      blkKLN, blkMAC, blkTIM, blkCAS])
  | .faultLatch .. =>
    some ([.regs, .shadow, .mem, .ecc, .free, .cfg, .flt, .tsk, .harts, .pwr, .cel, .sch, .gcl, .kln, .act, .ube, .chp,
   .dsf, .ohs, .pipes, .cls, .flw, .spc, .mac, .lph, .tim, .cas],
      some [blkCFG, blkPWR, blkFLT, blkTSK, blkLPH, blkDSF, blkACT, blkUBE, blkCHP, blkCLS, blkFLW, blkSPC, blkCEL,
      blkGCL, blkKLN, blkMAC, blkTIM, blkCAS])
  | .faultReaction | .tempWarning .. | .safeNLow =>
    some ([.regs, .shadow, .mem, .ecc, .free, .cfg, .flt, .tsk, .harts, .pwr, .cel, .sch, .gcl, .kln, .act, .ube, .chp,
   .dsf, .ohs, .pipes, .cls, .spc, .mac, .lph, .tim, .cas],
      some [blkCFG, blkPWR, blkFLT, blkTSK, blkLPH, blkDSF, blkACT, blkUBE, blkCHP, blkCLS, blkSPC, blkCEL, blkGCL,
      blkKLN, blkMAC, blkTIM, blkCAS])
  | .selfTestDone .. =>
    some ([.regs, .shadow, .mem, .ecc, .free, .cfg, .flt, .tsk, .harts, .pwr, .cel, .sch, .gcl, .kln, .act, .ube, .chp,
   .dsf, .ohs, .pipes, .cls, .flw, .spc, .mac, .lph, .tim, .cas],
      some [blkCFG, blkPWR, blkFLT, blkTSK, blkLPH, blkDSF, blkACT, blkUBE, blkCHP, blkCLS, blkSPC, blkCEL, blkGCL,
      blkKLN, blkMAC, blkTIM, blkCAS])
  | .quietWindowEnd =>
    some ([.flt],
      some [])
  | .terminationProbe .. | .trainDone .. | .linkStateTimeout .. | .linkGroupFail .. | .casEqWindow ..
    | .memberCheckTick .. | .electionTimeout .. | .mgrLost =>
    some ([.regs, .cas],
      some [blkCAS])
  | .commaLock .. =>
    some ([.regs, .free, .cas],
      some [blkCAS])
  | .containerReceive .. | .caps .. | .heartbeat .. | .join .. | .assign .. | .view .. | .readReq ..
    | .bootContainer .. | .time .. | .probe .. | .probeResp .. =>
    some ([.regs, .shadow, .tod, .cfg, .gcl, .dsf, .tim, .cas],
      some [blkDSF, blkGCL, blkTIM, blkCAS])
  | .cascadeArrival .. =>
    some ([.regs, .pipes, .cas],
      some [blkPRS])
  | .heartbeatTick | .joinRetry =>
    some ([.cas],
      some [])
  | .cpllLoss | .spllLoss .. =>
    some ([.regs, .shadow, .mem, .ecc, .free, .cfg, .flt, .tsk, .harts, .pwr, .cel, .sch, .gcl, .kln, .act, .ube, .chp,
   .dsf, .ohs, .pipes, .cls, .spc, .mac, .lph, .tim, .cas],
      some [blkCFG, blkCLK, blkPWR, blkFLT, blkTSK, blkLPH, blkDSF, blkACT, blkUBE, blkCHP, blkCLS, blkSPC, blkCEL,
      blkGCL, blkKLN, blkMAC, blkTIM, blkCAS])
  | .xtalFail | .xtalAdoptTimeout =>
    some ([.regs, .shadow, .mem, .ecc, .free, .cfg, .flt, .tsk, .harts, .pwr, .cel, .sch, .gcl, .kln, .act, .ube, .chp,
   .dsf, .ohs, .pipes, .cls, .spc, .mac, .lph, .tim, .cas, .clk],
      some [blkCFG, blkCLK, blkPWR, blkFLT, blkTSK, blkLPH, blkDSF, blkACT, blkUBE, blkCHP, blkCLS, blkSPC, blkCEL,
      blkGCL, blkKLN, blkMAC, blkTIM, blkCAS])
  | .xtalAdopt | .syncRefLoss .. | .clockMeasureDone .. | .syncRefRestore .. | .cpllLockAcquired =>
    some ([.regs],
      some [blkCLK])
  | .tempWarningRearm .. =>
    some ([.regs, .flt],
      some [blkFLT])
  | .safeNHigh =>
    some ([.regs],
      some [blkFLT])
  | _ => none
/-- What each event command can reach: the parts of the state and the blocks whose registers it may change. Rows that
carry a register write are not in the table: what they change is said register by register in the other statements.
(01_architecture.md, 16_faults.md R353, 17_cascade.md, 12_client_ports.md, 08_flows_and_speculation.md,
20_register_index.md R412) -/
def Obligations.EventsStayInReach : Prop :=
  ∀ (c : Instr) (s t : State) (parts : List Part) (blocks : Option (List Nat)), reach c = some (parts, blocks) → exec c s = .next t →
    Frame parts s t ∧ ∀ bs, blocks = some bs → RegFrame bs s t

/-- A leaf holds no cell, none tentative, and none in an unsent burst. -/
def Sys2Proof.Spec.LeafIdle (s : State) (leaf : Nat) : Prop :=
  (s.lq leaf).q + (s.lq leaf).c = 0 ∧ (s.lq leaf).pkts = [] ∧
    ∀ ch ∈ s.ube.chans, ∀ b ∈ ch.2.bursts, ∀ x ∈ b.pieces, x.leaf ≠ leaf

/-- Leaf `i` of a subscriber of a direction. -/
def Sys2Proof.Spec.leafOfSub (dir n i : Nat) : Nat := dir * 131072 + n * 16 + i

/-- A word of SCH_IND_CMD that starts a read or a write. -/
def Sys2Proof.Spec.schGo (v : Word) (rd : Nat) : Word := withField (withField v SCH_IND_CMD_GO 1) SCH_IND_CMD_RD rd

/-- A subscriber keeps its PORT while any of its 16 leaves holds a cell. (10_scheduling_and_shaping.md R227) -/
def Obligations.SubscriberPortHeld : Prop :=
  ∀ i v s dir n port, Accepted i SCH_IND_CMD.addr (schGo v 0) s → s.bit SCH_IND_CMD_GO = false → fieldOf v 56 3 = 1 →
    dir = fieldOf v 60 1 → n = fieldOf v 0 17 → n < 8192 → port = fieldOf (s.reg (SCH_IND_DATA 0).addr) 0 12 →
    port ≠ (s.sub (dir * 8192 + n)).port →
    ((∃ j, j < 16 ∧ ¬ LeafIdle s (leafOfSub dir n j)) → Gives (.schIndWrite i v) s fun t =>
      t.bit SCH_IND_CMD_ERR = true ∧ t.bit SCH_IND_CMD_GO = false ∧ (∀ a, a ∉ [SCH_IND_CMD.addr] → t.reg a = s.reg a) ∧
      Frame [.regs, .harts] s t) ∧
    ((∀ j, j < 16 → LeafIdle s (leafOfSub dir n j)) → (dir = 0 → port ≤ 63) → Gives (.schIndWrite i v) s fun t =>
      t.sub (dir * 8192 + n) = ⟨fieldOf (s.reg (SCH_IND_DATA 0).addr) 63 1 == 1, port⟩ ∧
      (∀ k, k ≠ dir * 8192 + n → t.sub k = s.sub k) ∧ t.bit SCH_IND_CMD_GO = false ∧
      (∀ a, a ∉ [SCH_IND_CMD.addr] → t.reg a = s.reg a) ∧ Frame [.regs, .sch, .harts] s t)

/-- A junction sensor above TEMP_WARN raises one contained error, and none again until every sensor has cooled by 2
°C. An error is raised where it is given to FLT's own report, which FAULT_LATCH's statement is about. (16_faults.md
R352) -/
def Obligations.TemperatureWarning : Prop :=
  (∀ (x : BitVec 16) s, isUp s = true → x.toInt < 1100 → (s.rd FLT_CFG_TEMP_WARN : Int) * 10 < x.toInt → s.flt.tempWarned = false →
    Gives (.tempWarning x) s fun t => ∃ u, OnlyRegs [FLT_TEMP_NOW.addr] { s with flt := { s.flt with tempWarned := true } } u ∧
      u.rd FLT_TEMP_NOW = x.toNat ∧ t = fltReport (plainError 0x2F 0 .contained 6) u) ∧
  (∀ (x : BitVec 16) s, isUp s = true → x.toInt < 1100 → x.toInt ≤ (s.rd FLT_CFG_TEMP_WARN : Int) * 10 ∨ s.flt.tempWarned = true →
    Gives (.tempWarning x) s fun t => t.rd FLT_TEMP_NOW = x.toNat ∧ OnlyRegs [FLT_TEMP_NOW.addr] s t) ∧
  (∀ (x : BitVec 16) s, isUp s = true → Gives (.tempWarningRearm x) s fun t => t.rd FLT_TEMP_NOW = x.toNat ∧
    t.flt = { s.flt with tempWarned := s.flt.tempWarned && decide ((s.rd FLT_CFG_TEMP_WARN : Int) * 10 - 20 < x.toInt) } ∧
    (∀ a, a ∉ [FLT_TEMP_NOW.addr] → t.reg a = s.reg a) ∧ Frame [.regs, .flt] s t)

/-- Every register outside a list at its reset value, memory empty, no key kept. -/
def Sys2Proof.Spec.Cleared (as : List Nat) (t : State) : Prop :=
  (∀ a, a ∉ as → t.reg a = regReset a) ∧ t.mem = [] ∧ t.kln.slots = [] ∧ t.shadow = []

/-- The addresses of the sixteen ACT_CP_STATE registers. -/
def Sys2Proof.Spec.disRegs : List Nat := (List.range 16).map (fun k => (ACT_CP_STATE k).addr)

/-- The disable flags are as they were (R103). -/
def Sys2Proof.Spec.DisKept (s t : State) : Prop :=
  ∀ k : Fin 16, t.bit (ACT_CP_STATE_DIS_CP k) = s.bit (ACT_CP_STATE_DIS_CP k) ∧
    t.bit (ACT_CP_STATE_DIS_DEV k) = s.bit (ACT_CP_STATE_DIS_DEV k)

/-- Power-up, VR_EN, the loss of a supply and RESET_N leave the device in its reset state.
(19_package_and_electrical.md R405, 19_package_and_electrical.md R406, 19_package_and_electrical.md R410,
05_activation_and_ranging.md R103, 11_cipher_and_keys.md R263, 02_start_and_configuration.md R27) -/
def Obligations.PowerAndResetRows : Prop :=
  (∀ s, Gives .powerUp s fun t => Cleared [KLN_RK.addr, CLK_STATUS.addr] t ∧ t.cfg.boot = .unpowered ∧
    t.bit CLK_STATUS_RC32 = true ∧ t.cfg.bootRetry = false ∧ t.pending = s.pending) ∧
  (∀ s, Gives .vrEnRise s fun t => Cleared (KLN_RK.addr :: disRegs) t ∧ DisKept s t ∧
    t.cfg.boot = (if s.cfg.supplied then .inReset else .unpowered) ∧ t.cfg.vrEn = true ∧ t.cfg.bootRetry = s.cfg.bootRetry ∧ t.pending = s.pending) ∧
  (∀ s, Gives .vrEnFall s fun t => Cleared (KLN_RK.addr :: disRegs) t ∧ DisKept s t ∧ t.cfg.boot = .unpowered ∧
    t.cfg.vrEn = false ∧ t.cfg.bootRetry = s.cfg.bootRetry ∧ t.pending = s.pending) ∧
  (∀ s, Gives (.powerLoss true) s fun t => Cleared [KLN_RK.addr] t ∧ t.cfg.boot = .unpowered ∧
    t.cfg.bootRetry = false ∧ t.pending = s.pending) ∧
  (∀ s, Gives (.powerLoss false) s fun t => Cleared (KLN_RK.addr :: disRegs) t ∧ DisKept s t ∧
    t.cfg.boot = .unpowered ∧ t.cfg.bootRetry = s.cfg.bootRetry ∧ t.pending = s.pending) ∧
  (∀ s, Gives .resetNAssert s fun t => Cleared (KLN_RK.addr :: disRegs) t ∧ DisKept s t ∧
    t.cfg.boot = (if s.cfg.boot = .unpowered ∨ s.cfg.vrEn = false then .unpowered else .inReset) ∧
    t.cfg.bootRetry = s.cfg.bootRetry ∧ t.pending = s.pending)

/-- CFG_RESET takes a write from level 0 or 1 only, and the ACU refuses any other. (02_start_and_configuration.md R46)
-/
def Obligations.ResetWriteLevels : Prop :=
  (∀ i v s, canAccess s i CFG_RESET.addr = true → 1 < levelOf i → Gives (.cfgResetWrite i v) s fun t =>
    t.rd ACU_CNT_REFUSED = satAdd ACU_CNT_REFUSED.w (s.rd ACU_CNT_REFUSED) 1 ∧ RegFrame [blkACU, blkTSK, blkFLT] s t ∧
    Frame [.regs, .mem, .ecc, .flt, .tsk, .harts] s t) ∧
  (∀ i v s, canAccess s i CFG_RESET.addr = true → levelOf i ≤ 1 → acuAllows s i true CFG_RESET.addr = true →
    Gives (.cfgResetWrite i v) s fun t => Cleared (KLN_RK.addr :: disRegs) t ∧ t.cfg.boot = .inReset)

/-- The code of a header as read: 6 for a read error, else that of the first of checks 1 to 3 that fails (R26). -/
def Sys2Proof.Spec.hdrCode (err : Bool) (h : Bytes) : Nat := if err then 6 else headerChecks h

/-- TSK is as reset leaves it: no task has a context, and every source is off. -/
def Sys2Proof.Spec.TskQuiet (s : State) : Prop :=
  s.tsk.tasks = [] ∧ ∀ n : Fin 64, s.bit (TSK_SRC_EN n) = false

/-- Release, the choice of the image copy, and entry of base firmware. (02_start_and_configuration.md R23,
02_start_and_configuration.md R24, 02_start_and_configuration.md R26, 02_start_and_configuration.md R27,
02_start_and_configuration.md R28, 09_buffers_and_cellar.md R216) -/
def Obligations.BootSequenceRows : Prop :=
  (∀ mgr safeN s, s.cfg.boot = .inReset → Gives (.resetRelease mgr safeN) s fun t =>
    t.cfg.boot = .rom ∧ t.cfg.mgrStrap = mgr ∧ t.hart 0 = { running := true, mode := .m, pc := romBase }) ∧
  (∀ width (mib : BitVec 16) s, s.cfg.boot = .rom → 32 ≤ mib.toNat → Gives (.sfdpReadDone true width mib) s fun t =>
    t.cfg.boot = .sfdpDone ∧ t.cfg.casBoot = s.cfg.casBoot ∧ t.rd CFG_BOOT_STATUS_IOW = flashLines width ∧
    t.bit CLK_STATUS_SPLL_LOCK = true ∧ t.bit CLK_STATUS_REF_OK = true) ∧
  (∀ width (mib : BitVec 16) s, s.cfg.boot = .rom → mib.toNat < 32 → Gives (.sfdpReadDone true width mib) s fun t =>
    t.cfg.boot = .failed) ∧
  (∀ width mib s, s.cfg.boot = .rom → Gives (.sfdpReadDone false width mib) s fun t =>
    t.cfg.boot = .sfdpDone ∧ t.cfg.casBoot = true) ∧
  (∀ a b errA errB s, s.cfg.boot = .sfdpDone → s.cfg.casBoot = false → hdrCode errA a = 0 ∨ hdrCode errB b = 0 →
    Gives (.copyHeadersRead a b errA errB) s fun t =>
      t.cfg.boot = .headersRead ∧ t.cfg.bootRetry = false ∧ t.bit CFG_BOOT_STATUS_RETRY = s.cfg.bootRetry ∧
      t.rd CFG_BOOT_STATUS_FAIL_A = hdrCode errA a % 16 ∧ t.rd CFG_BOOT_STATUS_FAIL_B = hdrCode errB b % 16 ∧
      (hdrCode errA a = 0 → hdrCode errB b = 0 → t.cfg.firstB = (decide (hdrSeq a < hdrSeq b) != s.cfg.bootRetry)) ∧
      ∀ x, x ≠ CFG_BOOT_STATUS.addr → t.reg x = s.reg x) ∧
  (∀ a b errA errB s, s.cfg.boot = .sfdpDone → s.cfg.casBoot = false → hdrCode errA a ≠ 0 → hdrCode errB b ≠ 0 →
    Gives (.copyHeadersRead a b errA errB) s fun t => t.cfg.boot = .failed) ∧
  (∀ c data s, s.cfg.boot = .headersRead → copyResult s.cfg.keyHash (hdrOf s (copyNow s)) c data = 1 →
    Gives (.copyValidated c data) s fun t =>
      t.cfg.boot = .copyChosen ∧ t.bit CFG_BOOT_STATUS_COPY = copyNow s ∧
      t.bit CFG_BOOT_STATUS_FALLBACK = s.cfg.firstFailed ∧ t.rd CFG_BOOT_STATUS_SEQ = hdrSeq (hdrOf s (copyNow s)) % 2 ^ 32 ∧
      t.rd (copyCode (copyNow s)) = 1) ∧
  (∀ c data s, s.cfg.boot = .headersRead → copyResult s.cfg.keyHash (hdrOf s (copyNow s)) c data ≠ 1 → s.cfg.firstFailed = false →
    s.rd (copyCode (!copyNow s)) = 0 → Gives (.copyValidated c data) s fun t =>
      t.cfg.boot = .headersRead ∧ t.cfg.firstFailed = true ∧
      t.rd (copyCode (copyNow s)) = copyResult s.cfg.keyHash (hdrOf s (copyNow s)) c data % 16) ∧
  (∀ c data s, s.cfg.boot = .headersRead → copyResult s.cfg.keyHash (hdrOf s (copyNow s)) c data ≠ 1 → s.cfg.firstFailed = true →
    Gives (.copyValidated c data) s fun t => t.cfg.boot = .failed) ∧
  (∀ (n : Fin 4) (tries : Fin 4) (temp : BitVec 16) (duty : BitVec 8) s, Machine.Inv s → s.cfg.boot = .copyChosen →
    s.rd (CEL_TRAIN_STATE n) = 0 → s.stackOk n = false → tries ≠ 0 → Gives (.hbmBootTraining n tries temp duty) s fun t =>
      t.cel.hbm = (s.setStack n { s.stack n with stampAt := s.ticks, steps := 0, restarts := 0 }).cel.hbm ∧
      ∀ a, t.memByte a = if inCellar a = true ∧ stackOf a = n then 0 else s.memByte a) ∧
  (∀ s, s.cfg.boot = .copyChosen → s.bit FLT_SUMMARY_SAFE_N = true → TskQuiet s → Gives .baseFirmwareEntry s fun t =>
    t.cfg.boot = .booted ∧ t.cfg.cfgAt =
      (((sectionsOf (hdrOf s (s.bit CFG_BOOT_STATUS_COPY))).find? (fun x => x.type == 2)).map (fun x => (x.load, x.size))) ∧
    t.hart 0 = { running := true, mode := .s, pc :=
      ((sectionsOf (hdrOf s (s.bit CFG_BOOT_STATUS_COPY))).find? (fun x => x.type == 1)).elim 0 (·.load) })

/-- A configuration is being applied: booted, a section at hand, not at its end and not failed. -/
abbrev Sys2Proof.Spec.Configuring (s : State) (base size : Nat) : Prop :=
  s.cfg.boot = .booted ∧ s.cfg.cfgAt = some (base, size) ∧ s.cfg.cfgDone = false ∧ s.cfg.cfgFailed = false

/-- The two words of the record that is next. -/
def Sys2Proof.Spec.recordAt (s : State) (base : Nat) : Word × Word :=
  (s.memWord (base + 16 * s.cfg.recIdx), s.memWord (base + 16 * s.cfg.recIdx + 8))

/-- The state after a failure: the device is reset with boot_retry set, or in a retry the boot has failed (R32). -/
def Sys2Proof.Spec.ConfigFailed (s t : State) : Prop :=
  if s.bit CFG_BOOT_STATUS_RETRY = true then t.cfg.boot = .failed else t.cfg.boot = .inReset ∧ t.cfg.bootRetry = true

/-- Configuration records: a write, a wait, the end, and what a failure does. (02_start_and_configuration.md R29,
02_start_and_configuration.md R30, 02_start_and_configuration.md R31, 02_start_and_configuration.md R32) -/
def Obligations.ConfigurationRows : Prop :=
  (∀ s base size, Configuring s base size → 16 * s.cfg.recIdx + 16 ≤ size → fieldOf (recordAt s base).1 56 8 = 1 →
    accessRefused recInit .word true (fieldOf (recordAt s base).1 0 48) (recordAt s base).2 s = false →
    Gives .configRecord s fun t =>
      let u := busWrite recInit .word (fieldOf (recordAt s base).1 0 48) (recordAt s base).2 s
      t.cfg = { u.cfg with recIdx := u.cfg.recIdx + 1, waiting := false } ∧ t.regs = u.regs ∧ t.mem = u.mem ∧
      (t.hart 0).mode = (s.hart 0).mode) ∧
  (∀ s base size, Configuring s base size → 16 * s.cfg.recIdx + 16 ≤ size → fieldOf (recordAt s base).1 56 8 = 1 →
    accessRefused recInit .word true (fieldOf (recordAt s base).1 0 48) (recordAt s base).2 s = true →
    Gives .configRecord s fun t => t.cfg.boot = .failed ∨ t.cfg.boot = .inReset ∧ t.cfg.bootRetry = true) ∧
  (∀ s base size, Configuring s base size → 16 * s.cfg.recIdx + 16 ≤ size → fieldOf (recordAt s base).1 56 8 = 2 →
    Gives .configRecord s fun t =>
      let r := busRead recInit .word (fieldOf (recordAt s base).1 0 48) s
      (r.1 = (recordAt s base).2 → t.cfg = { r.2.cfg with recIdx := r.2.cfg.recIdx + 1, waiting := false }) ∧
      (r.1 ≠ (recordAt s base).2 → t.cfg = { r.2.cfg with waiting := true }) ∧ t.mem = r.2.mem) ∧
  (∀ s base size, Configuring s base size → 16 * s.cfg.recIdx + 16 ≤ size → fieldOf (recordAt s base).1 56 8 = 3 →
    Gives .configRecord s fun t => t.cfg = { s.cfg with cfgDone := true, waiting := false } ∧ t.mem = s.mem ∧
      (∀ a, a ≠ CFG_BLK_STOPPED.addr → t.reg a = s.reg a) ∧
      ∀ n, n ∈ [blkLPH, blkUBE, blkCHP, blkMAC] → (s.rd CFG_BLK_RUN).testBit n = true → t.runs n = true) ∧
  (∀ s base size, Configuring s base size →
    (size < 16 * s.cfg.recIdx + 16 ∨ fieldOf (recordAt s base).1 56 8 = 0 ∨ 3 < fieldOf (recordAt s base).1 56 8) →
    Gives .configRecord s (ConfigFailed s)) ∧
  (∀ s, s.cfg.boot = .booted → s.cfg.waiting = true → Gives .configWaitTimeout s (ConfigFailed s))

/-- The bits of a written CFG_BLK_RUN that it keeps (R37). -/
def Sys2Proof.Spec.keptRun (w : Word) (m : Nat) : Bool := m == blkCFG || (allBlocks.contains m && (w.toNat).testBit m)

/-- CFG's own commands: a reset, a flash command and its end, the stop of a block and its restart.
(02_start_and_configuration.md R46, 02_start_and_configuration.md R33, 02_start_and_configuration.md R34,
02_start_and_configuration.md R37, 02_start_and_configuration.md R28, 02_start_and_configuration.md R31,
12_client_ports.md R284, 19_package_and_electrical.md R406) -/
def Obligations.CfgOwnRows : Prop :=
  (∀ i v s, Accepted i CFG_RESET.addr (withField v CFG_RESET_KEY 0xD1E5) s → Gives (.cfgResetWrite i v) s fun t =>
    Cleared (KLN_RK.addr :: disRegs) t ∧ DisKept s t ∧ t.cfg.boot = .inReset ∧ t.cfg.bootRetry = s.cfg.bootRetry ∧ t.pending = s.pending) ∧
  (∀ i v s, Accepted i CFG_SPI_CMD.addr (withField v CFG_SPI_CMD_GO 1) s → s.bit CFG_SPI_CMD_GO = false →
    flashProtected s (inField v CFG_SPI_CMD_OPCODE) (inField v CFG_SPI_CMD_ADDR)
      (min 256 (inField v CFG_SPI_CMD_LEN)) = false →
    Gives (.spiCommand i v) s fun t => t.bit CFG_SPI_CMD_GO = true ∧
      t.cfg = { s.cfg with spi := some (inField v CFG_SPI_CMD_OPCODE, (min 256 (inField v CFG_SPI_CMD_LEN))) } ∧
      (∀ a, a ≠ CFG_SPI_CMD.addr → t.reg a = s.reg a) ∧ Frame [.regs, .cfg, .harts] s t) ∧
  (∀ i v s, Accepted i CFG_SPI_CMD.addr (withField v CFG_SPI_CMD_GO 1) s → s.bit CFG_SPI_CMD_GO = false →
    flashProtected s (inField v CFG_SPI_CMD_OPCODE) (inField v CFG_SPI_CMD_ADDR)
      (min 256 (inField v CFG_SPI_CMD_LEN)) = true →
    Gives (.spiCommand i v) s fun t => t.bit CFG_SPI_CMD_GO = false ∧ t.bit CFG_SPI_STATUS_PROT = true ∧
      (∀ a, a ∉ [CFG_SPI_CMD.addr, CFG_SPI_STATUS.addr] → t.reg a = s.reg a) ∧ Frame [.regs, .harts] s t) ∧
  (∀ i v s, Accepted i CFG_SPI_CMD.addr (withField v CFG_SPI_CMD_GO 1) s → s.bit CFG_SPI_CMD_GO = true →
    Gives (.spiCommand i v) s fun t => t = hartActs i s) ∧
  (∀ data s op len, isUp s = true → s.cfg.spi = some (op, len) → Gives (.spiCommandDone false data) s fun t =>
    t.bit CFG_SPI_CMD_GO = false ∧ t.bit CFG_SPI_STATUS_ERR = true ∧ t.cfg = { s.cfg with spi := none } ∧
    (∀ a, a ∉ [CFG_SPI_CMD.addr, CFG_SPI_STATUS.addr] → t.reg a = s.reg a) ∧ Frame [.regs, .cfg] s t) ∧
  (∀ i (n : Fin 64) v s, Accepted i CFG_BLK_RUN.addr (withField v ⟨0, n.val, 1⟩ 0) s →
    (∀ m ∈ allBlocks, m ≠ blkCFG → keptRun (withField v ⟨0, n.val, 1⟩ 0) m = true → (s.reg CFG_BLK_RUN.addr).toNat.testBit m = true) →
    (s.reg CFG_BLK_RUN.addr).toNat.testBit blkCFG = true →
    Gives (.blockStop i n v) s fun t =>
      (∀ m : Fin 64, (t.reg CFG_BLK_RUN.addr).toNat.testBit m = keptRun (withField v ⟨0, n.val, 1⟩ 0) m) ∧
      (∀ a, a ≠ CFG_BLK_RUN.addr → t.reg a = s.reg a) ∧ Frame [.regs, .harts, .sch, .mac] s t ∧
      (if (s.reg CFG_BLK_RUN.addr).toNat.testBit blkMAC = true ∧ keptRun (withField v ⟨0, n.val, 1⟩ 0) blkMAC = false
       then ∀ p : Fin 64, t.toMac p = [] ∧ t.macPort p = { s.macPort p with pre := none }
       else t.sch = s.sch ∧ t.mac = s.mac)) ∧
  (∀ (n : Fin 64) s, isUp s = true → n.val ∈ allBlocks → n.val ∉ [blkCFG, blkCHP, blkCAS] → (s.rd CFG_BLK_RUN).testBit n = false →
    (s.rd CFG_BLK_STOPPED).testBit n = false →
    Gives (.blockStopped n) s fun t => t.rd CFG_BLK_STOPPED = withBit (s.rd CFG_BLK_STOPPED) n true ∧ OnlyRegs [CFG_BLK_STOPPED.addr] s t) ∧
  (∀ i (n : Fin 64) v s, Accepted i CFG_BLK_RUN.addr (withField v ⟨0, n.val, 1⟩ 1) s → n.val ∈ allBlocks → n.val ∉ [blkCFG, blkACT, blkTSK, blkCAS] →
    (∀ m ∈ allBlocks, m ≠ n.val → m ≠ blkCFG → keptRun (withField v ⟨0, n.val, 1⟩ 1) m = true → (s.reg CFG_BLK_RUN.addr).toNat.testBit m = true) →
    (s.reg CFG_BLK_RUN.addr).toNat.testBit blkCFG = true → (s.reg CFG_BLK_RUN.addr).toNat.testBit n = false →
    (s.rd CFG_BLK_STOPPED).testBit n = true → (keptRun (withField v ⟨0, n.val, 1⟩ 1) blkMAC = false → (s.reg CFG_BLK_RUN.addr).toNat.testBit blkMAC = false) →
    s.cfg.boot ≠ .failed → s.cfg.cfgDone = true ∨ n.val ∉ [blkLPH, blkUBE, blkCHP, blkMAC] →
    Gives (.blockRestart i n v) s fun t => (t.reg CFG_BLK_RUN.addr).toNat.testBit n = true ∧
      t.rd CFG_BLK_STOPPED = withBit (s.rd CFG_BLK_STOPPED) n false ∧
      (∀ a, a ∉ [CFG_BLK_RUN.addr, CFG_BLK_STOPPED.addr] → t.reg a = s.reg a) ∧ Frame [.regs, .harts] s t)

/-- The initiator can make the read, and nothing refuses it. -/
def Sys2Proof.Spec.Readable (i : Initiator) (a : Nat) (s : State) : Prop :=
  canAccess s i a = true ∧ accessRefused i .word false a 0 s = false

/-- What a read of a register by an initiator leaves (R6): its value returned, its RC fields 0, other registers kept. -/
def Sys2Proof.Spec.ReadOf (a : Nat) (r : RegRow) (s t : State) : Prop :=
  t.readOut = regValue s a ∧ (∀ f ∈ r.fields, f.kind = .rc → fieldOf (t.reg a) f.lo f.w = 0) ∧
  (r.has .rc = false → t.reg a = s.reg a) ∧ (∀ b, b ≠ a → t.reg b = s.reg b) ∧ Frame [.regs, .readOut, .harts] s t

/-- Writes and reads of one address: what is stored, what is returned, and what a refusal does.
(02_start_and_configuration.md R36, 00_scope.md R4, 00_scope.md R6, 20_register_index.md R413, 00_scope.md R415,
14_control_complex.md R318, 14_control_complex.md R319, 19_package_and_electrical.md R407) -/
def Obligations.AccessRows : Prop :=
  (∀ i f (a : BitVec 48) v s, canAccess s i a.toNat = false → Gives (.registerWrite i f a v) s (fun t => t = s)) ∧
  (∀ i (a : BitVec 48) v s, Accepted i a.toNat v s → regionOf a.toNat = .sram → Gives (.registerWrite i .word a v) s fun t =>
    t.memWord a.toNat = v ∧ (∀ x, x < a.toNat ∨ a.toNat + 8 ≤ x → t.memByte x = s.memByte x) ∧ Frame [.mem, .ecc, .harts] s t) ∧
  (∀ i (a : BitVec 48) v s r, Accepted i a.toNat v s → regionOf a.toNat = .regs → regRow? a.toNat = some r →
    blkOf a.toNat ∈ [blkPRS, blkSPC] → r.has .rw = true → r.has .sx = false → r.has .sh = false → r.has .st = false → Gives (.registerWrite i .word a v) s fun t =>
      (∀ f ∈ r.fields, f.kind = .rw → fieldOf (t.reg a.toNat) f.lo f.w = f.clamped v % 2 ^ f.w) ∧
      (∀ f ∈ r.fields, f.kind = .ro → fieldOf (t.reg a.toNat) f.lo f.w = fieldOf (s.reg a.toNat) f.lo f.w) ∧
      (∀ b, b ≠ a.toNat → t.reg b = s.reg b) ∧ Frame [.regs, .harts] s t) ∧
  (∀ i (a : BitVec 48) v s, Accepted i a.toNat v s → regionOf a.toNat = .regs → regRow? a.toNat = none → a.toNat ≠ TSK_POST.addr →
    Gives (.registerWrite i .word a v) s (fun t => t = hartActs i s)) ∧
  (∀ i f (a : BitVec 48) v s, canAccess s i a.toNat = true → accessRefused i f true a.toNat v s = true →
    s.bit ACU_FAULT_INFO_VALID = true → Gives (.registerWrite i f a v) s fun t =>
      t.rd ACU_CNT_REFUSED = satAdd ACU_CNT_REFUSED.w (s.rd ACU_CNT_REFUSED) 1 ∧
      (∀ b, b ≠ ACU_CNT_REFUSED.addr → t.reg b = s.reg b) ∧ Frame [.regs, .harts] s t) ∧
  (∀ fr s, fr.length ≠ 14 → Gives (.hostWrite fr) s (fun t => t = s)) ∧
  (∀ fr s, fr.length = 14 → Gives (.hostWrite fr) s fun t =>
    Gives (.registerWrite .host .word (BitVec.ofNat 48 (beAt fr 0 6)) (wordAt fr 6)) s (fun u => t = u)) ∧
  (∀ (a : BitVec 48) (n : Fin 9) s, n ≠ 8 → Gives (.hostRead ⟨a, n⟩) s (fun t => t = s)) ∧
  (∀ (a : BitVec 48) s r, Readable .host a.toNat s → regionOf a.toNat = .regs → regRow? a.toNat = some r → a.toNat ≠ TIM_TOD_S.addr →
    Gives (.hostRead ⟨a, 8⟩) s (ReadOf a.toNat r s)) ∧
  (∀ c m (a : BitVec 48) s r, Readable (.core c m) a.toNat s → regionOf a.toNat = .regs → regRow? a.toNat = some r →
    a.toNat ≠ TIM_TOD_S.addr → Gives (.clearingRead c m a) s (ReadOf a.toNat r s)) ∧
  (∀ (a : BitVec 48) s, Readable .host a.toNat s → regionOf a.toNat = .regs → regRow? a.toNat = none →
    Gives (.hostRead ⟨a, 8⟩) s fun t => t.readOut = 0 ∧ Frame [.readOut, .harts] s t) ∧
  (∀ (a : BitVec 48) s, canAccess s .host a.toNat = true → accessRefused .host .word false a.toNat 0 s = true →
    s.bit ACU_FAULT_INFO_VALID = true → Gives (.hostRead ⟨a, 8⟩) s fun t =>
      t.readOut = 0 ∧ t.rd ACU_CNT_REFUSED = satAdd ACU_CNT_REFUSED.w (s.rd ACU_CNT_REFUSED) 1 ∧
      (∀ b, b ≠ ACU_CNT_REFUSED.addr → t.reg b = s.reg b) ∧ Frame [.regs, .readOut, .harts] s t)

/-- A write of the register brings about nothing in its block. -/
def Sys2Proof.Spec.Plain (a : Nat) : Prop := ∀ l v o s, blockWrite l a v o s = s

/-- The fields of a register are all of one kind. -/
def Sys2Proof.Spec.AllOf (k : Kind) (r : RegRow) : Prop := ∀ f ∈ r.fields, f.kind = k

/-- Every field of a register reads in a word as it was written, moved into its range. -/
def Sys2Proof.Spec.TakenAs (r : RegRow) (v u : Word) : Prop := ∀ f ∈ r.fields, fieldOf u f.lo f.w = f.clamped v % 2 ^ f.w

/-- The register, one of the Chaperone's with ST fields, belongs to a group (R145). -/
abbrev Sys2Proof.Spec.InGroup (a g : Nat) : Prop := blkOf a = blkCHP ∧ groupOf a = g

/-- SX, SH and ST writes, and the commit, effect and abort of a group. (02_start_and_configuration.md R39,
02_start_and_configuration.md R41, 02_start_and_configuration.md R42, 02_start_and_configuration.md R44,
02_start_and_configuration.md R45, 00_scope.md R415) -/
def Obligations.StagedWriteRows : Prop :=
  (∀ i (a : BitVec 48) v s r, Accepted i a.toNat v s → regionOf a.toNat = .regs → regRow? a.toNat = some r → bankOf a.toNat = none →
    AllOf .sx r → r.fields ≠ [] → Plain a.toNat → a.toNat ≠ TSK_POST.addr → Gives (.sxWrite i a v) s fun t =>
      (s.runs r.blk = false → TakenAs r v (t.reg a.toNat) ∧ (∀ b, b ≠ a.toNat → t.reg b = s.reg b)) ∧
      (s.runs r.blk = true → t.rd CFG_WWR = withBit (s.rd CFG_WWR) r.blk true % 2 ^ CFG_WWR.w ∧ ∀ b, b ≠ CFG_WWR.addr → t.reg b = s.reg b) ∧
      Frame [.regs, .harts] s t) ∧
  (∀ i (a : BitVec 48) v s r b, Accepted i a.toNat v s → regionOf a.toNat = .regs → regRow? a.toNat = some r → bankOf a.toNat = some b →
    b ≠ a.toNat → AllOf .sh r → r.fields ≠ [] → Plain a.toNat → a.toNat ≠ TSK_POST.addr → Gives (.shWrite i a v) s fun t =>
      (s.bit (bankPending b) = false → TakenAs r v (t.shReg a.toNat) ∧ (∀ x, x ≠ a.toNat → t.shReg x = s.shReg x) ∧ t.regs = s.regs) ∧
      (s.bit (bankPending b) = true → t.bit (bankWpend b) = true ∧ t.shadow = s.shadow ∧ ∀ x, x ≠ b → t.reg x = s.reg x) ∧
      Frame [.regs, .shadow, .harts] s t) ∧
  (∀ i (a : BitVec 48) v s r, Accepted i a.toNat v s → regionOf a.toNat = .regs → regRow? a.toNat = some r → bankOf a.toNat = none →
    AllOf .st r → r.fields ≠ [] → Plain a.toNat → a.toNat ≠ TSK_POST.addr → Gives (.stWrite i a v) s fun t =>
      (groupOf a.toNat < 16 → t.cfg = s.cfg ∧ t.regs = s.regs) ∧
      (16 ≤ groupOf a.toNat → (s.group (groupOf a.toNat)).pend = false → (∃ w, t.stagedReg a.toNat = some w ∧ TakenAs r v w) ∧
        (∀ x, x ≠ a.toNat → t.stagedReg x = s.stagedReg x) ∧ t.regs = s.regs) ∧
      (16 ≤ groupOf a.toNat → (s.group (groupOf a.toNat)).pend = true → t.rd grpWdisc = withBit (s.rd grpWdisc) (groupOf a.toNat) true % 2 ^ 64 ∧
        t.cfg = s.cfg ∧ ∀ x, x ≠ CFG_GRP_WDISC.addr → t.reg x = s.reg x) ∧ Frame [.regs, .cfg, .harts] s t) ∧
  (∀ i v s, Accepted i CFG_GRP_COMMIT.addr v s → fieldOf v 0 6 < 16 → Gives (.groupCommit i v) s fun t => t.cfg = s.cfg ∧ t.regs = s.regs) ∧
  (∀ i v s, Accepted i CFG_GRP_COMMIT.addr v s → 16 ≤ fieldOf v 0 6 → (s.group (fieldOf v 0 6)).pend = false → Gives (.groupCommit i v) s fun t =>
    (t.group (fieldOf v 0 6)).pend = true ∧ (t.group (fieldOf v 0 6)).when_ = (fieldOf v 7 1 == 1) ∧ (t.group (fieldOf v 0 6)).ch = fieldOf v 8 4 ∧
      (∀ g, g ≠ fieldOf v 0 6 → t.group g = s.group g) ∧ t.rd grpPend = withBit (s.rd grpPend) (fieldOf v 0 6) true % 2 ^ 64 ∧
      t.cfg.staged = s.cfg.staged ∧ (∀ x, x ≠ CFG_GRP_PEND.addr → t.reg x = s.reg x)) ∧
  (∀ (g : Fin 64) s, isUp s = true → commitDue s g = true → 16 ≤ g.val → SMap.wf (fun _ => (none : Option Word)) s.cfg.staged = true →
    Gives (.groupCommitEffect g) s fun t => (t.group g).pend = false ∧
      (∀ a w, s.stagedReg a = some w → InGroup a g → t.reg a = w ∧ t.stagedReg a = none) ∧
      (∀ a, (s.stagedReg a = none ∨ ¬ InGroup a g) → a ≠ CFG_GRP_PEND.addr → t.reg a = s.reg a ∧ t.stagedReg a = s.stagedReg a)) ∧
  (∀ i v s, Accepted i CFG_GRP_ABORT.addr v s → Gives (.groupAbort i v) s fun t =>
      (fieldOf v 0 6 < 16 ∨ (s.group (fieldOf v 0 6)).pend = true → t.cfg = s.cfg) ∧
      (16 ≤ fieldOf v 0 6 → (s.group (fieldOf v 0 6)).pend = false → SMap.wf (fun _ => (none : Option Word)) s.cfg.staged = true →
        ∀ a, t.stagedReg a = if InGroup a (fieldOf v 0 6) then none else s.stagedReg a) ∧
      t.regs = s.regs)

/-- Banks: the request of a swap, its withdrawal, the exchange of the banks, the end of the shadow copy.
(02_start_and_configuration.md R41, 02_start_and_configuration.md R42, 02_start_and_configuration.md R43) -/
def Obligations.BankRows : Prop :=
  (∀ i b v s, Accepted i (bankAddr b) (withField v ⟨0, 3, 1⟩ 1) s → fieldOf v 4 1 = 0 → (s.bank (bankAddr b)).phase = .idle →
    bankKind (bankAddr b) (fieldOf v 0 3) ≠ 3 → Gives (.bankSwapRequest i b v) s fun t =>
      (t.bank (bankAddr b)).phase = .waiting ∧ (t.bank (bankAddr b)).kind = bankKind (bankAddr b) (fieldOf v 0 3) ∧
      t.bit (bankPending (bankAddr b)) = true ∧ t.rd (bankBoundary (bankAddr b)) = fieldOf v 0 3 ∧
      t.bit (bankRdsel (bankAddr b)) = (fieldOf v 7 1 == 1) ∧ (∀ a, a ≠ bankAddr b → t.reg a = s.reg a) ∧ t.shadow = s.shadow ∧
      (bankKind (bankAddr b) (fieldOf v 0 3) = 2 → bankDue t (bankAddr b) = false)) ∧
  (∀ i b v s, Accepted i (bankAddr b) (withField v ⟨0, 4, 1⟩ 1) s → fieldOf v 3 1 = 0 → (s.bank (bankAddr b)).phase = .waiting →
    blkOf (bankAddr b) ≠ blkGCL → Gives (.bankCancel i b v) s fun t =>
      t.bank (bankAddr b) = {} ∧ t.bit (bankPending (bankAddr b)) = false ∧ (∀ a, a ≠ bankAddr b → t.reg a = s.reg a) ∧ t.shadow = s.shadow) ∧
  (∀ b s, isUp s = true → bankDue s (bankAddr b) = true → blkOf (bankAddr b) ≠ blkGCL → Gives (.bankSwap b) s fun t =>
      (t.bank (bankAddr b)).phase = .copying ∧ t.bit (bankActive (bankAddr b)) = !s.bit (bankActive (bankAddr b)) ∧
      (∀ a, bankOf a = some (bankAddr b) → a ≠ bankAddr b →
        t.reg a = mergeMask (shMask a) (s.reg a) (s.shReg a) ∧ t.shReg a = mergeMask (shMask a) (s.shReg a) (s.reg a)) ∧
      (∀ a, bankOf a ≠ some (bankAddr b) → a ≠ bankAddr b → t.reg a = s.reg a ∧ t.shReg a = s.shReg a)) ∧
  (∀ b s, isUp s = true → bankDue s (bankAddr b) = false → Gives (.bankSwap b) s (fun t => t = s)) ∧
  (∀ b s, isUp s = true → (s.bank (bankAddr b)).phase = .copying → (∀ k, b ≠ .ube k) → Gives (.bankShadowCopyDone b) s fun t =>
      t.bank (bankAddr b) = {} ∧ t.bit (bankPending (bankAddr b)) = false ∧
      (∀ a, bankOf a = some (bankAddr b) → t.shReg a = mergeMask (shMask a) (s.shReg a) (s.reg a)) ∧
      (∀ a, bankOf a ≠ some (bankAddr b) → t.shReg a = s.shReg a) ∧ (∀ a, a ≠ bankAddr b → t.reg a = s.reg a)) ∧
  (∀ b s, isUp s = true → (s.bank (bankAddr b)).phase ≠ .copying → (∀ k, b ≠ .ube k) → Gives (.bankShadowCopyDone b) s (fun t => t = s))

/-- The port switch, and receivers and transmitters enabled and disabled. (03_line_optics_and_coding.md R48,
03_line_optics_and_coding.md R58, 03_line_optics_and_coding.md R65, 03_line_optics_and_coding.md R52,
06_upstream_bursts.md R141, 18_clocks_and_crossings.md R388) -/
def Obligations.LinePortRows : Prop :=
  (∀ i v s, Accepted i LPH_PORT.addr v s → s.lph.moving = none → Gives (.portSelectWrite i v) s fun t =>
    t.rd LPH_PORT_SEL = inField v LPH_PORT_SEL ∧ t.rd LPH_PORT_ACTIVE = s.rd LPH_PORT_ACTIVE ∧
    (inField v LPH_PORT_SEL ≠ s.rd LPH_PORT_ACTIVE → t.bit LPH_PORT_PENDING = true ∧ ∀ k < 16, (t.chpCh k).portHold = true) ∧
    (inField v LPH_PORT_SEL = s.rd LPH_PORT_ACTIVE → t.bit LPH_PORT_PENDING = false ∧
      (s.bit LPH_PORT_PENDING = true → ∀ k < 16, (t.chpCh k).portHold = false)) ∧
    RegFrame [blkCEL, blkCHP, blkLPH, blkUBE] s t ∧ Frame [.regs, .cel, .sch, .ube, .chp, .ohs, .harts] s t) ∧
  (∀ i v s, Accepted i LPH_PORT.addr v s → s.lph.moving.isSome = true → Gives (.portSelectWrite i v) s fun t =>
    t.rd LPH_PORT_SEL = inField v LPH_PORT_SEL ∧ t.bit LPH_PORT_PENDING = s.bit LPH_PORT_PENDING ∧
    (∀ a, a ∉ [LPH_PORT.addr] → t.reg a = s.reg a) ∧ Frame [.regs, .harts] s t) ∧
  (∀ s, isUp s = true → s.bit LPH_PORT_PENDING = true → s.lph.moving = none → (∀ k < 16, s.bit (CHP_STATUS_GATE k) = false) →
    Gives .portMoveStart s fun t => t = { s with lph := { s.lph with moving := some (s.rd LPH_PORT_SEL) } }) ∧
  (∀ s k, isUp s = true → k < 16 → s.bit (CHP_STATUS_GATE k) = true → Gives .portMoveStart s fun t => t = s) ∧
  (∀ s p, isUp s = true → s.lph.moving = some p → p < 2 → Gives .portHoldRelease s fun t =>
    t.rd LPH_PORT_ACTIVE = p ∧ t.bit LPH_PORT_DONE = true ∧ t.lph.moving = none ∧
    t.bit LPH_PORT_PENDING = decide (s.rd LPH_PORT_SEL ≠ p) ∧
    (∀ k < 16, (t.chpCh k).portHold = decide (s.rd LPH_PORT_SEL ≠ p)) ∧ t.mem = s.mem ∧ t.flt = s.flt) ∧
  (∀ i (k : Chan) v s, Accepted i (LPH_CH_CTL k).addr (withField v (LPH_CH_CTL_RX_EN k) 1) s → s.bit (LPH_CH_CTL_RX_EN k) = false →
    Gives (.receiverEnable i k v) s fun t => t.bit (LPH_CH_CTL_RX_EN k) = true ∧ t.rd (LPH_CAL_RX_STATE k) = 3 ∧
      t.bit (CHP_STATUS_CLK_OK k) = true ∧ t.bit (LPH_RX_STATUS_RX_LOS k) = s.bit (LPH_RX_STATUS_RX_LOS k) ∧
      t.bit (DSF_SYNC_LOF k) = true ∧ RegFrame [blkCHP, blkDSF, blkLPH] s t ∧ Frame [.regs, .lph, .free, .harts] s t) ∧
  (∀ i (k : Chan) v s, Accepted i (LPH_CH_CTL k).addr (withField v (LPH_CH_CTL_RX_EN k) 0) s → s.bit (LPH_CH_CTL_RX_EN k) = true →
    Gives (.receiverDisable i k v) s fun t => t.bit (LPH_CH_CTL_RX_EN k) = false ∧ t.bit (LPH_RX_STATUS_RX_LOS k) = true ∧
      t.bit (LPH_RX_STATUS_CR_LOCK k) = false ∧ t.bit (LPH_RX_STATUS_LO_LOCK k) = false ∧ t.rd (LPH_RX_STATUS_PWR k) = 0x8000 ∧
      t.reg (LPH_RX_EVT k).addr = s.reg (LPH_RX_EVT k).addr ∧ t.rd (LPH_CAL_RX_STATE k) = 0 ∧ t.mem = s.mem ∧ t.flt = s.flt) ∧
  (∀ i (k : Chan) v s, Accepted i (LPH_CH_CTL k).addr (withField v (LPH_CH_CTL_TX_EN k) 1) s → s.bit (LPH_CH_CTL_TX_EN k) = false →
    inField v (LPH_CH_CTL_RX_EN k) = s.rd (LPH_CH_CTL_RX_EN k) →
    Gives (.transmitterEnable i k v) s fun t => t.bit (LPH_CH_CTL_TX_EN k) = true ∧ t.rd (LPH_CAL_TX_STATE k) = 3 ∧
      (t.lphCh k).txStart = none ∧ (∀ a, a ∉ [(LPH_CH_CTL k).addr, (LPH_CAL_TX k).addr] → t.reg a = s.reg a) ∧
      Frame [.regs, .lph, .harts] s t)

/-- Signal, carrier, oscillator lines and comb lines: what a channel's status shows. (03_line_optics_and_coding.md
R57, 03_line_optics_and_coding.md R58, 03_line_optics_and_coding.md R64, 03_line_optics_and_coding.md R63) -/
def Obligations.LineSignalRows : Prop :=
  (∀ (k : Chan) cd fofs s, isUp s = true → rxPowered s k = true → (s.lphCh k).loLow = false →
    s.bit (LPH_RX_STATUS_RX_LOS k) = false → Gives (.crLockAcquired k cd fofs) s fun t =>
    t.bit (LPH_RX_STATUS_CR_LOCK k) = true ∧ t.bit (LPH_RX_STATUS_LO_LOCK k) = true ∧ t.rd (LPH_RX_STATUS_CD_EST k) = cd.toNat ∧
    t.rd (LPH_RX_STATUS_FOFS k) = fofs.toNat ∧ (t.lphCh k).warm = some (t.lphCh k).rx ∧ (t.lphCh k).rx.cd = some cd.toNat ∧ (t.lphCh k).rx.ring.isSome = true ∧
    (∀ a, a ∉ [(LPH_RX_STATUS k).addr] → t.reg a = s.reg a) ∧ Frame [.regs, .lph, .free] s t) ∧
  (∀ (k : Chan) cd fofs s, isUp s = true → rxPowered s k = false ∨ (s.lphCh k).loLow = true ∨ s.bit (LPH_RX_STATUS_RX_LOS k) = true →
    Gives (.crLockAcquired k cd fofs) s (fun t => t = s)) ∧
  (∀ (k : Chan) s, isUp s = true → s.bit (LPH_RX_STATUS_CR_LOCK k) = true → Gives (.carrierLoss k) s fun t =>
    t.bit (LPH_RX_STATUS_CR_LOCK k) = false ∧ t.bit (LPH_RX_EVT_CR_UNLOCK k) = true ∧
    t.bit (LPH_RX_STATUS_RX_LOS k) = s.bit (LPH_RX_STATUS_RX_LOS k) ∧ t.mem = s.mem ∧ t.flt = s.flt ∧ t.lph = s.lph) ∧
  (∀ (k : Chan) s, isUp s = true → s.bit (LPH_RX_STATUS_CR_LOCK k) = false → Gives (.carrierLoss k) s fun t => t = s) ∧
  (∀ (k : Chan) p s, isUp s = true → rxPowered s k = true → BitVec.toInt p < -280 → s.bit (LPH_RX_STATUS_RX_LOS k) = false →
    Gives (.losAssert k p) s fun t =>
      t.bit (LPH_RX_STATUS_RX_LOS k) = true ∧ t.bit (LPH_RX_EVT_LOS k) = true ∧ t.bit (LPH_RX_STATUS_CR_LOCK k) = false ∧
      t.rd (LPH_RX_STATUS_PWR k) = unsigned 16 (clampInt (-400) 150 p.toInt) ∧ t.mem = s.mem ∧ t.flt = s.flt ∧
      t.lph = (s.setLphCh k { s.lphCh k with losAt := some s.ticks }).lph) ∧
  (∀ (k : Chan) p s, isUp s = true → rxPowered s k = true → -270 ≤ BitVec.toInt p → Gives (.losClear k p) s fun t =>
    t.bit (LPH_RX_STATUS_RX_LOS k) = false ∧ t.rd (LPH_RX_STATUS_PWR k) = unsigned 16 (clampInt (-400) 150 p.toInt) ∧
    (∀ a, a ∉ [(LPH_RX_STATUS k).addr] → t.reg a = s.reg a) ∧ t.lphCh k = { s.lphCh k with losAt := none } ∧ Frame [.regs, .lph] s t) ∧
  (∀ (k : Chan) p s, isUp s = true → rxPowered s k = false → Gives (.losAssert k p) s (fun t => t = s) ∧ Gives (.losClear k p) s (fun t => t = s)) ∧
  (∀ (k : Chan) s, isUp s = true → rxPowered s k = true → s.bit (LPH_RX_STATUS_LO_LOCK k) = true → Gives (.loLineLow k) s fun t =>
    t.bit (LPH_RX_STATUS_LO_LOCK k) = false ∧ t.bit (LPH_RX_EVT_LO_UNLOCK k) = true ∧ (t.lphCh k).loLow = true ∧
    (∀ a, a ∉ [(LPH_RX_STATUS k).addr, (LPH_RX_EVT k).addr] → t.reg a = s.reg a) ∧ Frame [.regs, .lph] s t) ∧
  (∀ (k : Chan) s, isUp s = true → rxPowered s k = true → Gives (.loLineRestored k) s fun t =>
    t.bit (LPH_RX_STATUS_LO_LOCK k) = true ∧ (t.lphCh k).loLow = false ∧
    (∀ a, a ∉ [(LPH_RX_STATUS k).addr] → t.reg a = s.reg a) ∧ Frame [.regs, .lph] s t) ∧
  (∀ (k : Chan) p s, isUp s = true → BitVec.toInt p < 120 → Gives (.combLow k p) s fun t =>
    t.bit (LPH_TX_STATUS_COMB_LOW k) = true ∧ t.rd (LPH_TX_STATUS_COMB_PWR k) = unsigned 16 p.toInt ∧
    RegFrame [blkFLT, blkLPH] s t ∧ Frame [.regs, .flt] s t ∧
    (s.bit (LPH_TX_STATUS_COMB_LOW k) = true → OnlyRegs [(LPH_TX_STATUS k).addr] s t) ∧
    (s.bit (LPH_TX_STATUS_COMB_LOW k) = false → ∃ u, t = fltEvent blkLPH k u ∧ OnlyRegs [(LPH_TX_STATUS k).addr] s u)) ∧
  (∀ (k : Chan) p s, isUp s = true → 120 ≤ BitVec.toInt p → Gives (.combRestored k p) s fun t =>
    t.bit (LPH_TX_STATUS_COMB_LOW k) = false ∧ t.rd (LPH_TX_STATUS_COMB_PWR k) = unsigned 16 p.toInt ∧
    OnlyRegs [(LPH_TX_STATUS k).addr] s t)

/-- A calibration's condition lies outside its windows around a stamp: temperature, or power or duty. -/
def Sys2Proof.Spec.Outside (w : Nat × Nat) (x now : Int × Int) : Prop :=
  w.1 < (now.1 - x.1).natAbs ∨ w.2 < (now.2 - x.2).natAbs

/-- Codewords, calibration and the equaliser's diversity windows. (03_line_optics_and_coding.md R55,
03_line_optics_and_coding.md R65, 03_line_optics_and_coding.md R66, 03_line_optics_and_coding.md R68,
04_downstream_framing.md R96, 08_flows_and_speculation.md R197, 03_line_optics_and_coding.md R54) -/
def Obligations.LineCalibrationRows : Prop :=
  (∀ (k : Chan) next (cw : Fin 5000) iter (bitc : BitVec 16) (info : BitVec 20480) (parity : BitVec 4020) s, isUp s = true → s.runs blkLPH = true →
    syndromeWeight (info ++ parity).toNat = 0 → Gives (.codewordDecoded k next cw iter bitc info parity) s fun t =>
    (t.dsfCh k).pm.cw = (s.dsfCh k).pm.cw + 1 ∧ (t.dsfCh k).pm.bitc = (s.dsfCh k).pm.bitc + bitc.toNat ∧
    (t.dsfCh k).pm.cwc = (s.dsfCh k).pm.cwc + (if bitc = 0 then 0 else 1) ∧ (t.dsfCh k).pm.cwu = (s.dsfCh k).pm.cwu ∧
    (t.dsfCh k).bad = (s.dsfCh k).bad ∧ RegFrame [blkCIP] s t ∧ Frame [.regs, .kln, .dsf, .spc] s t) ∧
  (∀ (k : Chan) next (cw : Fin 5000) (iter : BitVec 8) (bitc : BitVec 16) (info : BitVec 20480) (parity : BitVec 4020) s, isUp s = true → s.runs blkLPH = true →
    syndromeWeight (info ++ parity).toNat ≠ 0 → s.rd (LPH_DEC_CFG_MAX_ITER k) ≤ iter.toNat → Gives (.codewordDecoded k next cw iter bitc info parity) s fun t =>
    (t.dsfCh k).pm.cw = (s.dsfCh k).pm.cw + 1 ∧ (t.dsfCh k).pm.cwu = (s.dsfCh k).pm.cwu + 1 ∧
    (t.dsfCh k).pm.cwc = (s.dsfCh k).pm.cwc ∧ (t.dsfCh k).pm.bitc = (s.dsfCh k).pm.bitc ∧
    cw.val ∈ (if next then (t.dsfCh k).badNext else (t.dsfCh k).bad) ∧ RegFrame [blkCIP] s t ∧ Frame [.regs, .kln, .dsf, .spc] s t) ∧
  (∀ (k : Chan) next (cw : Fin 5000) (iter : BitVec 8) (bitc : BitVec 16) (info : BitVec 20480) (parity : BitVec 4020) s, isUp s = true →
    s.runs blkLPH = false ∨ (syndromeWeight (info ++ parity).toNat ≠ 0 ∧ iter.toNat < s.rd (LPH_DEC_CFG_MAX_ITER k)) →
    Gives (.codewordDecoded k next cw iter bitc info parity) s (fun t => t = s)) ∧
  (∀ (k : Chan) next (cw : Fin 5000) (info : BitVec 20480) (parity : BitVec 4020) s, isUp s = true → s.runs blkLPH = true → s.bit (LPH_DEC_CFG_PROV_EN k) = true →
    0 < syndromeWeight (info ++ parity).toNat → syndromeWeight (info ++ parity).toNat ≤ s.rd (LPH_DEC_CFG_PROV_SYN k) →
    Gives (.provisionalRelease k next cw info parity) s fun t =>
    SMap.get (fun _ => none) (t.spcCh k).digests (cwNumber s k next cw) = some (digest (codewordInfo cw (info ++ parity).toNat)) ∧ Frame [.spc] s t) ∧
  (∀ (k : Chan) now avg s, isUp s = true → s.rd (LPH_CAL_RX_STATE k) ≠ 3 → s.rd (LPH_CAL_TX_STATE k) ≠ 3 →
    Gives (.calConditionCheck k now avg) s fun t =>
    t.rd LPH_TEMP_TX_ENG = now.txT.toNat ∧ t.rd LPH_TEMP_RX_ENG = now.rxT.toNat ∧
    (Outside (calWindow s k true) (calStamp s k true) (calPair true now) → s.rd (LPH_CAL_TX_STATE k) = 1 → t.rd (LPH_CAL_TX_STATE k) = 2) ∧
    (Outside (calWindow s k false) (calStamp s k false) (calPair false now) → s.rd (LPH_CAL_RX_STATE k) = 1 → t.rd (LPH_CAL_RX_STATE k) = 2) ∧
    (¬ Outside (calWindow s k true) (calStamp s k true) (calPair true now) ∨ s.rd (LPH_CAL_TX_STATE k) ≠ 1 →
      t.rd (LPH_CAL_TX_STATE k) = s.rd (LPH_CAL_TX_STATE k)) ∧
    (¬ Outside (calWindow s k false) (calStamp s k false) (calPair false now) ∨ s.rd (LPH_CAL_RX_STATE k) ≠ 1 →
      t.rd (LPH_CAL_RX_STATE k) = s.rd (LPH_CAL_RX_STATE k)) ∧
    (∀ a, a ∉ [LPH_TEMP.addr, (LPH_RX_STATUS k).addr, (LPH_CAL_RX k).addr, (LPH_CAL_TX k).addr] → t.reg a = s.reg a) ∧ Frame [.regs] s t) ∧
  (∀ (k : Chan) now avg s x, isUp s = true → s.rd (LPH_CAL_RX_STATE k) = 3 → (s.lphCh k).rxStart = some x → s.rd (LPH_CAL_TX_STATE k) = 0 →
    Outside (calWindow s k false) x (calPair false now) → Gives (.calConditionCheck k now avg) s fun t =>
    ((s.lphCh k).rxRestarts < 3 → t.rd (LPH_CAL_RX_STATE k) = 3 ∧ (t.lphCh k).rxStart = some (calPair false now) ∧
      (t.lphCh k).rxRestarts = (s.lphCh k).rxRestarts + 1) ∧
    (3 ≤ (s.lphCh k).rxRestarts → t.rd (LPH_CAL_RX_STATE k) = 1 ∧ t.bit (LPH_CAL_CTL_RX_UNST k) = true) ∧ Frame [.regs, .lph] s t) ∧
  (∀ i (k : Chan) v s, Accepted i (LPH_CAL_CTL k).addr v s → Gives (.calTrimRequest i k v) s fun t =>
    t.rd (LPH_CAL_RX_STATE k) = (if fieldOf v 0 1 = 1 ∧ s.rd (LPH_CAL_RX_STATE k) = 1 then 2 else s.rd (LPH_CAL_RX_STATE k)) ∧
    t.rd (LPH_CAL_TX_STATE k) = (if fieldOf v 1 1 = 1 ∧ s.rd (LPH_CAL_TX_STATE k) = 1 then 2 else s.rd (LPH_CAL_TX_STATE k)) ∧
    (∀ a, a ∉ [(LPH_CAL_CTL k).addr, (LPH_CAL_RX k).addr, (LPH_CAL_TX k).addr] → t.reg a = s.reg a) ∧ Frame [.regs, .harts] s t) ∧
  (∀ (k : Chan) tx now s, isUp s = true → s.rd (calState k tx) = 2 → Gives (.calTrimStart k tx now) s fun t =>
    t.rd (calState k tx) = 3 ∧ (if tx then (t.lphCh k).txStart else (t.lphCh k).rxStart) = some (calPair tx now) ∧
    (∀ a, a ∉ [(calState k tx).addr] → t.reg a = s.reg a) ∧ Frame [.regs, .lph] s t) ∧
  (∀ (k : Chan) avg s, isUp s = true → s.rd (LPH_CAL_RX_STATE k) = 3 → Gives (.calTrimComplete k false avg) s fun t =>
    t.rd (LPH_CAL_RX_STATE k) = 1 ∧ t.rd (LPH_CAL_RX_T k) = avg.rxT.toNat ∧ t.rd (LPH_CAL_RX_P k) = avg.pwr.toNat ∧
    (t.lphCh k).rxKept = true ∧ (∀ a, a ∉ [(LPH_CAL_RX k).addr] → t.reg a = s.reg a) ∧ Frame [.regs, .lph] s t) ∧
  (∀ (k : Chan) avg s, isUp s = true → s.rd (LPH_CAL_TX_STATE k) = 3 → Gives (.calTrimComplete k true avg) s fun t =>
    t.rd (LPH_CAL_TX_STATE k) = 1 ∧ t.rd (LPH_CAL_TX_T k) = avg.txT.toNat ∧ t.rd (LPH_CAL_TX_DUTY k) = avg.duty.toNat ∧
    (t.lphCh k).txKept = true ∧ (∀ a, a ∉ [(LPH_CAL_TX k).addr] → t.reg a = s.reg a) ∧ Frame [.regs, .lph] s t) ∧
  (∀ (k : Chan) tx avg s, isUp s = true → s.rd (calState k tx) ≠ 3 → Gives (.calTrimComplete k tx avg) s (fun t => t = s)) ∧
  (∀ (k : Chan) (counts : List (BitVec 17)) aided piloted s, isUp s = true → s.bit (LPH_RX_STATUS_FROZEN k) = false →
    (∀ c ∈ counts, s.rd (LPH_EQ_DIV_DIV_MIN k) ≤ c.toNat) → Gives (.eqWindowClose k ⟨counts, aided, piloted⟩) s fun t =>
    (t.lphCh k).rx.taps = addTaps (eqShift s k) (s.lphCh k).rx.taps aided ∧ Frame [.lph] s t) ∧
  (∀ (k : Chan) (counts : List (BitVec 17)) aided piloted s c, isUp s = true → s.bit (LPH_RX_STATUS_FROZEN k) = false → c ∈ counts →
    c.toNat < s.rd (LPH_EQ_DIV_DIV_MIN k) → Gives (.eqWindowClose k ⟨counts, aided, piloted⟩) s fun t =>
    t.bit (LPH_RX_STATUS_FROZEN k) = true ∧ t.bit (LPH_RX_EVT_FREEZE k) = true ∧ (t.lphCh k).passes = 0 ∧ (t.lphCh k).rx = (s.lphCh k).rx ∧
    (∀ a, a ∉ [(LPH_RX_STATUS k).addr, (LPH_RX_EVT k).addr] → t.reg a = s.reg a) ∧ Frame [.regs, .lph] s t) ∧
  (∀ (k : Chan) (counts : List (BitVec 17)) aided piloted s, isUp s = true → s.bit (LPH_RX_STATUS_FROZEN k) = true →
    (∀ c ∈ counts, s.rd (LPH_EQ_DIV_DIV_MIN k) ≤ c.toNat) → Gives (.eqWindowClose k ⟨counts, aided, piloted⟩) s fun t =>
    t.bit (LPH_RX_STATUS_FROZEN k) = decide ((s.lphCh k).passes + 1 < s.rd (LPH_EQ_DIV_DIV_RESUME k)) ∧
    ((s.lphCh k).passes + 1 < s.rd (LPH_EQ_DIV_DIV_RESUME k) → (t.lphCh k).passes = (s.lphCh k).passes + 1) ∧
    (t.lphCh k).rx.taps = addTaps (pilotShift s k) (s.lphCh k).rx.taps piloted ∧
    (∀ a, a ∉ [(LPH_RX_STATUS k).addr] → t.reg a = s.reg a) ∧ Frame [.regs, .lph] s t)

/-- What a poll shows of a source in its READY, FAULT and NAK bits (R62). -/
def Sys2Proof.Spec.SourceShown (b : RF × RF × RF) (clash : Bool) (r : SrcReading) (t : State) : Prop :=
  if clash then t.bit b.1 = false ∧ t.bit b.2.1 = false ∧ t.bit b.2.2 = true
  else if r.ack then t.bit b.1 = r.ready ∧ t.bit b.2.1 = r.alarm
  else t.bit b.2.2 = true

/-- A source shares its bus address with another (R62). -/
def Sys2Proof.Spec.Shared (s : State) (i : Nat) : Prop := ∃ j, j < 4 ∧ j ≠ i ∧ laserAddr s j = laserAddr s i

/-- The laser sources: a poll, and a byte access. (03_line_optics_and_coding.md R62, 03_line_optics_and_coding.md R64,
03_line_optics_and_coding.md R70, 12_client_ports.md R282) -/
def Obligations.LaserRows : Prop :=
  (∀ r0 r1 r2 r3 s, isUp s = true → s.bit LPH_LSRC_CTL_POLL_EN = true → s.runs blkLPH = true →
    s.bit LPH_LSRC_CMD_GO = false → Gives (.laserPoll r0 r1 r2 r3) s fun t =>
    SourceShown (laserBits 0) (laserClash s 0) r0 t ∧ SourceShown (laserBits 1) (laserClash s 1) r1 t ∧
    SourceShown (laserBits 2) (laserClash s 2) r2 t ∧ SourceShown (laserBits 3) (laserClash s 3) r3 t ∧
    (∀ i, laserClash s i = true ↔ Shared s i) ∧ RegFrame [blkFLT, blkLPH, blkMAC] s t ∧ Frame [.regs, .free, .flt, .lph] s t) ∧
  (∀ r0 r1 r2 r3 s, isUp s = true → s.bit LPH_LSRC_CTL_POLL_EN = true → s.runs blkLPH = true → s.bit LPH_LSRC_CMD_GO = false →
    (∀ i < 4, ¬ Shared s i) → (∀ r ∈ [r0, r1, r2, r3], r.ack = true ∧ r.alarm = false) → Gives (.laserPoll r0 r1 r2 r3) s fun t =>
    (∀ a, a ∉ [LPH_LSRC_STATUS.addr, MAC_LSRC_STATUS.addr] → t.reg a = s.reg a) ∧ Frame [.regs, .lph] s t) ∧
  (∀ r0 r1 r2 r3 s, isUp s = true → s.bit LPH_LSRC_CTL_POLL_EN = false ∨ s.runs blkLPH = false ∨ s.bit LPH_LSRC_CMD_GO = true → Gives (.laserPoll r0 r1 r2 r3) s (fun t => t = s)) ∧
  (∀ i v s, Accepted i LPH_LSRC_CMD.addr (withField v LPH_LSRC_CMD_GO 1) s → s.bit LPH_LSRC_CMD_GO = false →
    Gives (.laserSourceAccess i v) s fun t =>
    (¬ Shared s (inField v LPH_LSRC_CMD_SRC) → t.bit LPH_LSRC_CMD_GO = true) ∧
    (Shared s (inField v LPH_LSRC_CMD_SRC) → t.bit LPH_LSRC_CMD_GO = false ∧ t.bit LPH_LSRC_CMD_ERR = true) ∧
    t.rd LPH_LSRC_CMD_SRC = inField v LPH_LSRC_CMD_SRC ∧ t.rd LPH_LSRC_CMD_REG = inField v LPH_LSRC_CMD_REG ∧
    (∀ a, a ∉ [LPH_LSRC_CMD.addr] → t.reg a = s.reg a) ∧ Frame [.regs, .harts] s t) ∧
  (∀ i v s, Accepted i LPH_LSRC_CMD.addr (withField v LPH_LSRC_CMD_GO 1) s → s.bit LPH_LSRC_CMD_GO = true →
    Gives (.laserSourceAccess i v) s fun t => t = hartActs i s) ∧
  (∀ ack data s, isUp s = true → s.bit LPH_LSRC_CMD_GO = true → Gives (.laserAccessDone ack data) s fun t =>
    t.bit LPH_LSRC_CMD_GO = false ∧ t.bit LPH_LSRC_CMD_ERR = (!ack || s.bit LPH_LSRC_CMD_ERR) ∧
    t.rd LPH_LSRC_CMD_DATA = (if ack && s.bit LPH_LSRC_CMD_RD then data.toNat else s.rd LPH_LSRC_CMD_DATA) ∧
    OnlyRegs [LPH_LSRC_CMD.addr] s t)

/-- The hypothesis that a window is taken under (R74): a matching one, of fewest differing bits, the lowest of these. -/
def Sys2Proof.Spec.BestHyp (s : State) (k amp signs h : Nat) : Prop :=
  h < 32 ∧ fawUnder s k amp signs h = true ∧ ∀ j < 32, fawUnder s k amp signs j = true →
    fawDiff signs h < fawDiff signs j ∨ fawDiff signs h = fawDiff signs j ∧ h ≤ j

/-- The alignment machine, frame headers and the flywheel. (04_downstream_framing.md R73, 04_downstream_framing.md
R74, 04_downstream_framing.md R75, 04_downstream_framing.md R77, 04_downstream_framing.md R79,
02_start_and_configuration.md R43) -/
def Obligations.AlignmentRows : Prop :=
  (∀ (k : Chan) (amp : BitVec 32) (signs : BitVec 256) s h, isUp s = true → s.rd (DSF_SYNC_STATE k) = 0 → s.bit (LPH_CH_CTL_RX_EN k) = true →
    h < 32 → fawUnder s k amp.toNat signs.toNat h = true → Gives (.fawMatch k amp signs) s fun t =>
    t.rd (DSF_SYNC_STATE k) = 1 ∧ BestHyp s k amp.toNat signs.toNat (t.rd (DSF_SYNC_HYP k)) ∧
    (∀ a, a ∉ [(DSF_SYNC k).addr] → t.reg a = s.reg a) ∧ Frame [.regs, .dsf, .spc] s t) ∧
  (∀ (k : Chan) (amp : BitVec 32) (signs : BitVec 256) s, isUp s = true →
    (∀ h < 32, fawUnder s k amp.toNat signs.toNat h = false) ∨ s.rd (DSF_SYNC_STATE k) ≠ 0 → Gives (.fawMatch k amp signs) s (fun t => t = s)) ∧
  (∀ (k : Chan) (amp : BitVec 32) (signs : BitVec 256) s, isUp s = true → s.rd (DSF_SYNC_STATE k) = 3 →
    fawUnder s k amp.toNat signs.toNat (s.rd (DSF_SYNC_HYP k)) = true → Gives (.expectedWindow k amp signs) s fun t =>
    t.rd (DSF_SYNC_STATE k) = 3 ∧ t.rd (DSF_SYNC_MISS k) = 0 ∧ t.bseq k = s.bseq k + 1 ∧ t.lastB k = (s.rd (DSF_SYNC_FC k) + 1) % 2 ^ 48 ∧
    (∀ a, a ∉ [(DSF_SYNC k).addr] → t.reg a = s.reg a) ∧ Frame [.regs, .cfg, .tim] s t) ∧
  (∀ (k : Chan) (amp : BitVec 32) (signs : BitVec 256) s, isUp s = true → s.rd (DSF_SYNC_STATE k) = 3 → s.rd (DSF_SYNC_MISS k) < 3 →
    fawUnder s k amp.toNat signs.toNat (s.rd (DSF_SYNC_HYP k)) = false → Gives (.expectedWindow k amp signs) s fun t =>
    t.rd (DSF_SYNC_STATE k) = 3 ∧ t.rd (DSF_SYNC_MISS k) = s.rd (DSF_SYNC_MISS k) + 1 ∧ t.bseq k = s.bseq k + 1 ∧
    (∀ a, a ∉ [(DSF_SYNC k).addr] → t.reg a = s.reg a) ∧ Frame [.regs, .cfg, .tim] s t) ∧
  (∀ (k : Chan) (amp : BitVec 32) (signs : BitVec 256) s, isUp s = true → s.rd (DSF_SYNC_STATE k) = 3 → s.rd (DSF_SYNC_MISS k) = 3 →
    fawUnder s k amp.toNat signs.toNat (s.rd (DSF_SYNC_HYP k)) = false → Gives (.expectedWindow k amp signs) s fun t =>
    t.rd (DSF_SYNC_STATE k) = 0 ∧ t.bit (DSF_SYNC_LOF k) = true ∧ t.mem = s.mem ∧ t.flt = s.flt) ∧
  (∀ (k : Chan) (amp : BitVec 32) (signs : BitVec 256) s, isUp s = true → s.rd (DSF_SYNC_STATE k) = 1 ∨ s.rd (DSF_SYNC_STATE k) = 2 →
    Gives (.expectedWindow k amp signs) s fun t =>
    (fawUnder s k amp.toNat signs.toNat (s.rd (DSF_SYNC_HYP k)) = true ∧ (s.dsfCh k).hdrOk = true →
      t.rd (DSF_SYNC_STATE k) = s.rd (DSF_SYNC_STATE k) + 1 ∧ (s.rd (DSF_SYNC_STATE k) = 2 → t.bit (DSF_SYNC_LOF k) = false ∧
        t.rd (DSF_SYNC_FC k) = (s.dsfCh k).fc % 2 ^ 48)) ∧
    (fawUnder s k amp.toNat signs.toNat (s.rd (DSF_SYNC_HYP k)) = false ∨ (s.dsfCh k).hdrOk = false → t.rd (DSF_SYNC_STATE k) = 0) ∧
    t.mem = s.mem ∧ t.flt = s.flt) ∧
  (∀ (k : Chan) (amp : BitVec 32) (signs : BitVec 256) s, isUp s = true → s.rd (DSF_SYNC_STATE k) = 0 → Gives (.expectedWindow k amp signs) s (fun t => t = s)) ∧
  (∀ (k : Chan) hdr ops s, isUp s = true → s.rd (DSF_SYNC_STATE k) = 3 → Gives (.frameHeader k hdr ops) s fun t =>
    t.rd (DSF_SYNC_STATE k) = 3 ∧ t.rd (DSF_SYNC_MISS k) = s.rd (DSF_SYNC_MISS k) ∧
    t.rd (DSF_SYNC_FC k) = (if headerOk k ((s.dsfCh k).badNext.contains 0) hdr = true then fieldOf (wordAt hdr 0) 16 48
      else (s.rd (DSF_SYNC_FC k) + 1) % 2 ^ 48) ∧ t.mem = s.mem ∧ t.flt = s.flt) ∧
  (∀ (k : Chan) hdr ops s, isUp s = true → s.rd (DSF_SYNC_STATE k) = 1 ∨ s.rd (DSF_SYNC_STATE k) = 2 →
    headerOk k ((s.dsfCh k).badNext.contains 0) hdr = false → Gives (.frameHeader k hdr ops) s fun t => t.rd (DSF_SYNC_STATE k) = 0) ∧
  (∀ (k : Chan) hdr ops s, isUp s = true → s.rd (DSF_SYNC_STATE k) = 1 →
    headerOk k ((s.dsfCh k).badNext.contains 0) hdr = true → Gives (.frameHeader k hdr ops) s fun t => t.rd (DSF_SYNC_STATE k) = 1 ∧ t.mem = s.mem) ∧
  (∀ (k : Chan) hdr ops s, isUp s = true → s.rd (DSF_SYNC_STATE k) = 0 → Gives (.frameHeader k hdr ops) s (fun t => t = s)) ∧
  (∀ (k : Chan) s, isUp s = true → Gives (.flywheelTick k) s fun t =>
    (t.dsfCh k).since = (s.dsfCh k).since + 1 ∧
    (t.dsfCh k).pm.flost = (s.dsfCh k).pm.flost + (if s.bit (LPH_CH_CTL_RX_EN k) = true ∧ s.rd (DSF_SYNC_STATE k) ≠ 3 then 1 else 0) ∧
    RegFrame [blkCLS, blkOHS] s t ∧ Frame [.regs, .ticks, .act, .dsf, .ohs, .pipes] s t)

/-- The delineator stands at a readable header `w`, whose fragment lies whole in the frame and in the bytes given, of codewords that have had
their verdicts (R85, R202). -/
def Sys2Proof.Spec.AtFragment (k : Nat) (info : Bytes) (w : Nat) (s : State) : Prop :=
  let c := s.dsfCh k
  c.live = true ∧ c.pos < frameEnd ∧ c.bad.contains (c.pos / 2560) = false ∧ 8 ≤ info.length ∧ w = (wordAt info 0).toNat ∧ hecOk w = true ∧
  c.pos + occupancy w ≤ frameEnd ∧ occupancy w ≤ info.length ∧ spanGood c.bad c.pos (occupancy w) = true ∧
  verdictsGiven s k c.pos info.length = true

/-- The words of an entry of DSF's tables (R97). -/
def Sys2Proof.Spec.dsfWords (s : State) (table i : Nat) : List Nat :=
  match table with
  | 0 => [b2n (s.streamMap i).valid * 2 ^ 63 + (s.streamMap i).ctx]
  | 1 => let x := s.streamCtx i
    [x.type * 2 ^ 62 + b2n x.reqEnc * 2 ^ 61 + x.kslot * 2 ^ 48 + x.maxpkt * 2 ^ 34 + x.cesIdx * 2 ^ 26]
  | _ => let x := s.circuit i
    (x.tlen * 2 ^ 57 + x.cesLen * 2 ^ 45 + x.seq * 2 ^ 29) :: (List.range 8).map (fun n => beAt (padTo 64 x.template) (8 * n) 8)

/-- A word of DSF_IND_CMD that starts a read or a write. -/
def Sys2Proof.Spec.dsfGo (v : Word) (rd : Nat) : Word := withField (withField v DSF_IND_CMD_GO 1) DSF_IND_CMD_RD rd

/-- Overhead ports, map entries, fragments, reassembly time-outs and DSF's tables. (04_downstream_framing.md R95,
04_downstream_framing.md R85, 04_downstream_framing.md R86, 04_downstream_framing.md R87, 04_downstream_framing.md
R88, 04_downstream_framing.md R89, 04_downstream_framing.md R97, 06_upstream_bursts.md R120) -/
def Obligations.FramingTableRows : Prop :=
  (∀ (p : Fin 4) blk s, isUp s = true → s.bit (OHS_CTL_I_EN p) = true → s.runs blkOHS = true → ohsFeeder s (s.rd (OHS_CTL_I_DST p)) = some p.val →
    Gives (.ohsInsertBlock p blk) s fun t => (t.ohsPort p).held = some blk ∧ t.bit (OHS_STAT_I_READY p) = true ∧
    t.rd (OHS_CNT_OVW p) = (if (s.ohsPort p).held.isSome = true then satAdd (OHS_CNT_OVW p).w (s.rd (OHS_CNT_OVW p)) 1 else s.rd (OHS_CNT_OVW p)) ∧
    (∀ a, a ∉ [(OHS_STAT p).addr, (OHS_CNT p).addr] → t.reg a = s.reg a) ∧ Frame [.regs, .ohs] s t) ∧
  (∀ (p : Fin 4) s, isUp s = true → s.bit (OHS_CTL_I_EN p) = true → s.runs blkOHS = true → Gives (.ohsShortBlock p) s fun t =>
    t.rd (OHS_CNT_SHORT p) = satAdd (OHS_CNT_SHORT p).w (s.rd (OHS_CNT_SHORT p)) 1 ∧ (t.ohsPort p).held = (s.ohsPort p).held ∧
    (∀ a, a ∉ [(OHS_CNT p).addr] → t.reg a = s.reg a) ∧ Frame [.regs, .ohs] s t) ∧
  (∀ (k : Chan) (n : Fin 512) e s, isUp s = true → (s.dsfCh k).live = true → (s.dsfCh k).hdrOk = true → s.runs blkUBE = true →
    n.val < (s.dsfCh k).mapN → crc32cOk 16 e = true → spanGood (s.dsfCh k).bad (128 + 16 * n.val) 16 = true → Gives (.mapEntry k n e) s fun t =>
    (judge s k (grantOf e) = .ignored → t = s) ∧
    (judge s k (grantOf e) = .discarded → t.rd (UBE_CH_CNT0_GRANT_BAD k) = satAdd (UBE_CH_CNT0_GRANT_BAD k).w (s.rd (UBE_CH_CNT0_GRANT_BAD k)) 1 ∧
      OnlyRegs [(UBE_CH_CNT0 k).addr] s t) ∧
    (judge s k (grantOf e) = .accepted → (t.ubeCh k).accepted = (s.ubeCh k).accepted ++ [grantOf e]) ∧
    RegFrame [blkACT, blkUBE] s t ∧ Frame [.regs, .free, .act, .ube] s t) ∧
  (∀ (k : Chan) info busy x w s, isUp s = true → AtFragment k info w s → hdrSid w = 0xFFFF ∨ streamOf s k (hdrSid w) = none →
    Gives (.fragment k info busy x) s fun t => t.dsfCh k = { s.dsfCh k with pos := (s.dsfCh k).pos + occupancy w } ∧ Frame [.dsf] s t) ∧
  (∀ (k : Chan) info busy (x : Checks) w ctx s, isUp s = true → AtFragment k info w s → x.flips = [] → injArmed blkDSF x.idx.toNat s = false → hdrSid w ≠ 0xFFFF → streamOf s k (hdrSid w) = some ctx →
    (s.streamCtx ctx).type = 0 → (s.streamCtx ctx).reqEnc = false → hdrKi w = 0 → 0 < hdrPlen w → hdrFirst w = true → hdrFseq w = 0 →
    hdrLast w = false → (s.spcCh k).twins.contains ((s.dsfCh k).fc, (s.dsfCh k).pos) = false → asmOf s k (hdrSid w) = none →
    (slice info 8 (hdrPlen w)).length ≤ (s.streamCtx ctx).maxpkt →
    s.cel.raUsed + cellCount 0 (slice info 8 (hdrPlen w)).length false ≤ s.rd CEL_POOL_RA_RA → Gives (.fragment k info busy x) s fun t =>
    asmOf t k (hdrSid w) = some ⟨slice info 8 (hdrPlen w), 0, 1, (s.dsfCh k).since, arrival s k (s.dsfCh k).pos, (s.dsfCh k).fc, (s.dsfCh k).pos, false⟩ ∧
    (t.dsfCh k).pos = (s.dsfCh k).pos + occupancy w ∧ t.cel.raUsed = s.cel.raUsed + cellCount 0 (slice info 8 (hdrPlen w)).length false ∧
    Frame [.cel, .dsf] s t) ∧
  (∀ (k : Chan) (sid : BitVec 16) a s, isUp s = true → asmOf s k sid.toNat = some a → s.rd (DSF_CH_CFG_RTO k) ≤ a.ticks →
    Gives (.reassemblyTimeout k sid) s fun t => asmOf t k sid.toNat = none ∧ (t.dsfCh k).pm.fdrop = (s.dsfCh k).pm.fdrop + a.frags ∧
    t.rd (DSF_RA_CNT_ABORT k) = satAdd (DSF_RA_CNT_ABORT k).w (s.rd (DSF_RA_CNT_ABORT k)) 1 ∧
    (∀ a, a ∉ [(DSF_RA_CNT k).addr] → t.reg a = s.reg a) ∧ Frame [.regs, .cel, .dsf] s t) ∧
  (∀ (k : Chan) (sid : BitVec 16) s, isUp s = true → (∀ a, asmOf s k sid.toNat = some a → a.ticks < s.rd (DSF_CH_CFG_RTO k)) →
    Gives (.reassemblyTimeout k sid) s (fun t => t = s)) ∧
  (∀ i v s, Accepted i DSF_IND_CMD.addr (dsfGo v 1) s → s.bit DSF_IND_CMD_GO = false → fieldOf v 56 2 < 3 →
    (fieldOf v 56 2 = 1 → fieldOf v 0 20 ≤ 262143) → (fieldOf v 56 2 = 2 → fieldOf v 0 20 ≤ 255) → Gives (.dsfIndRead i v) s fun t =>
    (∀ n (x : Nat), (dsfWords s (fieldOf v 56 2) (fieldOf v 0 20))[n]? = some x → t.reg (DSF_IND_DATA n).addr = BitVec.ofNat 64 x) ∧
    t.bit DSF_IND_CMD_GO = false ∧ t.dsf = s.dsf ∧ RegFrame [blkDSF] s t ∧ Frame [.regs, .harts] s t) ∧
  (∀ i v s, Accepted i DSF_IND_CMD.addr (dsfGo v 0) s → s.bit DSF_IND_CMD_GO = false → fieldOf v 56 2 = 0 →
    (fieldOf (s.reg (DSF_IND_DATA 0).addr) 63 1 = 0 ∨ mapCount s (fieldOf v 0 20 / 65536) < 16384) → Gives (.dsfIndWrite i v) s fun t =>
    t.streamMap (fieldOf v 0 20) = ⟨fieldOf (s.reg (DSF_IND_DATA 0).addr) 63 1 == 1, fieldOf (s.reg (DSF_IND_DATA 0).addr) 0 18⟩ ∧
    asmOf t (fieldOf v 0 20 / 65536) (fieldOf v 0 20 % 65536) = none ∧ t.bit DSF_IND_CMD_GO = false ∧ t.mem = s.mem) ∧
  (∀ i v s, Accepted i DSF_IND_CMD.addr (dsfGo v 0) s → s.bit DSF_IND_CMD_GO = false → fieldOf v 56 2 = 3 ∨ (fieldOf v 56 2 = 1 ∧ 262143 < fieldOf v 0 20) ∨
    (fieldOf v 56 2 = 2 ∧ 255 < fieldOf v 0 20) → Gives (.dsfIndWrite i v) s fun t =>
    t.bit DSF_IND_CMD_ERR = true ∧ t.bit DSF_IND_CMD_GO = false ∧ (∀ a, a ∉ [DSF_IND_CMD.addr] → t.reg a = s.reg a) ∧ Frame [.regs, .harts] s t)

/-- Configuration records, signal, carrier, comb lines, alignment and frames: each command completes with its own
effect. (02_start_and_configuration.md R29, 02_start_and_configuration.md R30, 02_start_and_configuration.md R32,
03_line_optics_and_coding.md R57, 03_line_optics_and_coding.md R58, 03_line_optics_and_coding.md R64,
04_downstream_framing.md R74, 04_downstream_framing.md R75, 04_downstream_framing.md R77, 04_downstream_framing.md
R79) -/
def Obligations.StartAndLineComplete : Prop :=
  (∀ s base size, Configuring s base size → 16 * s.cfg.recIdx + 16 ≤ size → fieldOf (recordAt s base).1 56 8 = 3 →
    ∃ t, exec .configRecord s = .next t ∧ t.cfg = { s.cfg with cfgDone := true, waiting := false } ∧ t.mem = s.mem) ∧
  (∀ s, s.cfg.boot = .booted → s.cfg.waiting = true → s.bit CFG_BOOT_STATUS_RETRY = false →
    ∃ t, exec .configWaitTimeout s = .next t ∧ t.cfg.boot = .inReset ∧ t.cfg.bootRetry = true) ∧
  (∀ s, s.cfg.boot = .booted → s.cfg.waiting = true → s.bit CFG_BOOT_STATUS_RETRY = true →
    ∃ t, exec .configWaitTimeout s = .next t ∧ t.cfg.boot = .failed) ∧
  (∀ (k : Chan) cd fofs s, isUp s = true → rxPowered s k = true → (s.lphCh k).loLow = false → s.bit (LPH_RX_STATUS_RX_LOS k) = false →
    ∃ t, exec (.crLockAcquired k cd fofs) s = .next t ∧ t.bit (LPH_RX_STATUS_CR_LOCK k) = true ∧ t.bit (LPH_RX_STATUS_LO_LOCK k) = true ∧
      t.rd (LPH_RX_STATUS_CD_EST k) = cd.toNat ∧ t.rd (LPH_RX_STATUS_FOFS k) = fofs.toNat) ∧
  (∀ (k : Chan) s, isUp s = true → s.bit (LPH_RX_STATUS_CR_LOCK k) = true →
    ∃ t, exec (.carrierLoss k) s = .next t ∧ t.bit (LPH_RX_STATUS_CR_LOCK k) = false ∧ t.bit (LPH_RX_EVT_CR_UNLOCK k) = true) ∧
  (∀ (k : Chan) p s, isUp s = true → rxPowered s k = true → BitVec.toInt p < -280 → s.bit (LPH_RX_STATUS_RX_LOS k) = false →
    ∃ t, exec (.losAssert k p) s = .next t ∧ t.bit (LPH_RX_STATUS_RX_LOS k) = true ∧ t.bit (LPH_RX_EVT_LOS k) = true ∧
      t.bit (LPH_RX_STATUS_CR_LOCK k) = false ∧ t.rd (LPH_RX_STATUS_PWR k) = unsigned 16 (clampInt (-400) 150 p.toInt)) ∧
  (∀ (k : Chan) p s, isUp s = true → rxPowered s k = true → -270 ≤ BitVec.toInt p →
    ∃ t, exec (.losClear k p) s = .next t ∧ t.bit (LPH_RX_STATUS_RX_LOS k) = false ∧
      t.rd (LPH_RX_STATUS_PWR k) = unsigned 16 (clampInt (-400) 150 p.toInt)) ∧
  (∀ (k : Chan) s, isUp s = true → rxPowered s k = true → s.bit (LPH_RX_STATUS_LO_LOCK k) = true →
    ∃ t, exec (.loLineLow k) s = .next t ∧ t.bit (LPH_RX_STATUS_LO_LOCK k) = false ∧ t.bit (LPH_RX_EVT_LO_UNLOCK k) = true) ∧
  (∀ (k : Chan) s, isUp s = true → rxPowered s k = true →
    ∃ t, exec (.loLineRestored k) s = .next t ∧ t.bit (LPH_RX_STATUS_LO_LOCK k) = true ∧ (t.lphCh k).loLow = false) ∧
  (∀ (k : Chan) p s, isUp s = true → BitVec.toInt p < 120 →
    ∃ t, exec (.combLow k p) s = .next t ∧ t.bit (LPH_TX_STATUS_COMB_LOW k) = true ∧ t.rd (LPH_TX_STATUS_COMB_PWR k) = unsigned 16 p.toInt) ∧
  (∀ (k : Chan) p s, isUp s = true → 120 ≤ BitVec.toInt p →
    ∃ t, exec (.combRestored k p) s = .next t ∧ t.bit (LPH_TX_STATUS_COMB_LOW k) = false ∧ t.rd (LPH_TX_STATUS_COMB_PWR k) = unsigned 16 p.toInt) ∧
  (∀ (k : Chan) (amp : BitVec 32) (signs : BitVec 256) s h, isUp s = true → s.rd (DSF_SYNC_STATE k) = 0 → s.bit (LPH_CH_CTL_RX_EN k) = true →
    h < 32 → fawUnder s k amp.toNat signs.toNat h = true →
    ∃ t, exec (.fawMatch k amp signs) s = .next t ∧ t.rd (DSF_SYNC_STATE k) = 1 ∧ fawUnder s k amp.toNat signs.toNat (t.rd (DSF_SYNC_HYP k)) = true) ∧
  (∀ (k : Chan) (amp : BitVec 32) (signs : BitVec 256) s, isUp s = true → s.rd (DSF_SYNC_STATE k) = 3 →
    fawUnder s k amp.toNat signs.toNat (s.rd (DSF_SYNC_HYP k)) = true →
    ∃ t, exec (.expectedWindow k amp signs) s = .next t ∧ t.rd (DSF_SYNC_STATE k) = 3 ∧ t.rd (DSF_SYNC_MISS k) = 0 ∧ t.bseq k = s.bseq k + 1) ∧
  (∀ (k : Chan) hdr ops s, isUp s = true → s.rd (DSF_SYNC_STATE k) = 3 → headerOk k ((s.dsfCh k).badNext.contains 0) hdr = true →
    ∃ t, exec (.frameHeader k hdr ops) s = .next t ∧ t.rd (DSF_SYNC_STATE k) = 3 ∧ t.rd (DSF_SYNC_FC k) = fieldOf (wordAt hdr 0) 16 48) ∧
  (∀ (k : Chan) s, isUp s = true →
    ∃ t, exec (.flywheelTick k) s = .next t ∧ (t.dsfCh k).since = (s.dsfCh k).since + 1)

/-- The value of CHP_COPY for a line copy (R145). -/
def Sys2Proof.Spec.copyWord (v : LineCopy) : Word := BitVec.ofNat 64 (b2n v.tnV * 2 ^ 63 + b2n v.ann * 2 ^ 62 + v.tn * 2 ^ 48 + v.eqd)

/-- Activation controls and timers: ACT_ENABLE to STOPPED_HOLD_EXPIRY complete, and what they leave.
(05_activation_and_ranging.md R100, 05_activation_and_ranging.md R102, 05_activation_and_ranging.md R103,
05_activation_and_ranging.md R110, 05_activation_and_ranging.md R113) -/
def Obligations.PairTimersComplete : Prop :=
  (∀ i (k : Chan) v s, Accepted i (ACT_CP_CTL k).addr (withField v (ACT_CP_CTL_EN k) 1) s → inField v (ACT_CP_CTL_RESTART k) = 0 →
    s.runs blkACT = true → pairState s k = 0 → inSync s k = true → s.bit (ACT_CP_STATE_CHP_SIL k) = false → disabled s k = false →
    s.bit (ACT_CP_STATE_PARAMS_OK k) = false →
    ∃ t, exec (.actEnable i k v) s = .next t ∧ t.bit (ACT_CP_CTL_EN k) = true ∧ pairState t k = 1) ∧
  (∀ i (k : Chan) v s, Accepted i (ACT_CP_CTL k).addr (withField v (ACT_CP_CTL_EN k) 1) s → inField v (ACT_CP_CTL_RESTART k) = 0 →
    pairState s k = 0 → inSync s k = false →
    ∃ t, exec (.actEnable i k v) s = .next t ∧ t.bit (ACT_CP_CTL_EN k) = true ∧ pairState t k = 0) ∧
  (∀ i (k : Chan) v s, Accepted i (ACT_CP_CTL k).addr (withField v (ACT_CP_CTL_EN k) 0) s → s.runs blkACT = true →
    ∃ t, exec (.actDisable i k v) s = .next t ∧ t.bit (ACT_CP_CTL_EN k) = false ∧ pairState t k = 0 ∧
      t.bit (ACT_CP_STATE_PARAMS_OK k) = false ∧ t.bit (ACT_CP_STATE_TN_VALID k) = false) ∧
  (∀ i (k : Chan) v s, Accepted i (ACT_CP_CTL k).addr (withField v (ACT_CP_CTL_RESTART k) 1) s → s.runs blkACT = true →
    inSync s k = false → ∃ t, exec (.actRestart i k v) s = .next t ∧ pairState t k = 0 ∧
      t.bit (ACT_CP_STATE_PARAMS_OK k) = false ∧ t.bit (ACT_CP_STATE_TN_VALID k) = false) ∧
  (∀ (k : Chan) n c l s, isUp s = true → inSync s k = true → (s.pair k).pend = (n, c) :: l → n < s.bseq k → (s.group k).pend = false →
    ∃ t, exec (.actGroupStage k) s = .next t ∧ t.stagedReg (CHP_COPY k).addr = some (copyWord c) ∧ (t.pair k).pend = l ∧
      t.group k = { pend := true, when_ := true, ch := k, seq := s.bseq k }) ∧
  (∀ (k : Chan) s, isUp s = true → s.runs blkACT = true → pairState s k = 2 → (s.pair k).tAsg = some 0 →
    ∃ t, exec (.tAsgExpiry k) s = .next t ∧ (t.pair k).tAsg = none ∧
      (t.pair k).backoff < 2 ^ min (s.rd (ACT_CP_STATE_ANN_CNT k)) (s.rd (ACT_CP_TMR_BO_MAX k)) ∧ Frame [.free, .act] s t) ∧
  (∀ (k : Chan) s, isUp s = true → s.runs blkACT = true → pairState s k = 3 → (s.pair k).tRng = some 0 → disabled s k = false →
    s.bit (ACT_CP_STATE_PARAMS_OK k) = false →
    ∃ t, exec (.tRngExpiry k) s = .next t ∧ pairState t k = 1 ∧ t.bit (ACT_CP_STATE_TN_VALID k) = false) ∧
  (∀ (k : Chan) s, isUp s = true → s.runs blkACT = true → pairState s k = 5 → (s.pair k).tInt = some 0 →
    s.bit (ACT_CP_CTL_EN k) = false ∨ inSync s k = false →
    ∃ t, exec (.tIntExpiry k) s = .next t ∧ pairState t k = 0 ∧ t.bit (ACT_CP_STATE_PARAMS_OK k) = false ∧ t.bit (ACT_CP_STATE_TN_VALID k) = false) ∧
  (∀ (k : Chan) s, isUp s = true → s.runs blkACT = true → pairState s k = 6 → (s.pair k).hold = some 0 →
    s.bit (ACT_CP_CTL_EN k) = false ∨ inSync s k = false →
    ∃ t, exec (.stoppedHoldExpiry k) s = .next t ∧ pairState t k = 0 ∧ t.bit (ACT_CP_STATE_PARAMS_OK k) = false ∧ t.bit (ACT_CP_STATE_TN_VALID k) = false)

/-- A message that arrives whole in a message area of the frame in progress is of a type, is taken (Table 5.3) and is not a copy
of the last one of its type; no mirroring (R81, R105, R106). -/
def Sys2Proof.Spec.Taken (s : State) (k n type : Nat) (m : Bytes) : Prop :=
  (s.runs blkACT = true ∧ msgArea s k n = true ∧ crc32cOk 64 m = true ∧ msgType m = type) ∧
  (msgRule type).any (fun r => addressed s k r.1 m && r.2.1.contains (pairState s k) && needMet s k r.2.2) = true ∧
  s.bit ACT_RXQ_CTL_MIRROR = false ∧ (SMap.get (fun _ => (none : Option LastMsg)) (s.pair k).last type).all (fun l => l.mseq != msgSeq m) = true

/-- One more accepted message is counted. -/
def Sys2Proof.Spec.Counted (k : Nat) (s t : State) : Prop :=
  t.rd (ACT_CP_CNT_MSG_OK k) = satAdd (ACT_CP_CNT_MSG_OK k).w (s.rd (ACT_CP_CNT_MSG_OK k)) 1

/-- Downstream messages that ACT handles itself complete: acceptance, its count, and the pair it leaves.
(05_activation_and_ranging.md R100, 05_activation_and_ranging.md R105, 05_activation_and_ranging.md R106,
05_activation_and_ranging.md R110, 05_activation_and_ranging.md R111, 05_activation_and_ranging.md R112,
05_activation_and_ranging.md R113, 05_activation_and_ranging.md R114, 05_activation_and_ranging.md R115) -/
def Obligations.MessagesComplete : Prop :=
  (∀ (k : Chan) (n : Fin 64) m s, isUp s = true → s.runs blkACT = true → msgArea s k n = true → crc32cOk 64 m = false →
    ∃ t, exec (.unknownMessage k n m) s = .next t ∧
      t.rd (ACT_CP_CNT_MSG_CRC k) = satAdd (ACT_CP_CNT_MSG_CRC k).w (s.rd (ACT_CP_CNT_MSG_CRC k)) 1 ∧ OnlyRegs [(ACT_CP_CNT k).addr] s t) ∧
  (∀ (k : Chan) (n : Fin 64) m s, isUp s = true → s.runs blkACT = true → msgArea s k n = true → crc32cOk 64 m = true → msgRule (msgType m) = none →
    ∃ t, exec (.unknownMessage k n m) s = .next t ∧
      t.rd (ACT_CP_CNT_MSG_REJ k) = satAdd (ACT_CP_CNT_MSG_REJ k).w (s.rd (ACT_CP_CNT_MSG_REJ k)) 1 ∧ OnlyRegs [(ACT_CP_CNT k).addr] s t) ∧
  (∀ (k : Chan) (n : Fin 64) m s, isUp s = true → Taken s k n 1 m → pairState s k = 3 ∨ pairState s k = 4 → msgF m 1 0 32 ≤ eqdMax →
    ∃ t, exec (.lineParams k n m) s = .next t ∧ t.bit (ACT_CP_STATE_PARAMS_OK k) = true ∧ Counted k s t ∧
      (t.pair k).annEn = (msgF m 0 38 1 == 1) ∧ (t.pair k).discProf = msgF m 0 36 2 ∧ (t.pair k).rndMax = msgF m 0 0 16 ∧ (t.pair k).preEqd = msgF m 1 0 32) ∧
  (∀ (k : Chan) (n : Fin 64) m s, isUp s = true → Taken s k n 2 m → msgF m 0 0 10 ≠ 1023 → (claimDefault k (msgF m 0 0 10) s).isSome = true →
    ∃ t, exec (.assignTn k n m) s = .next t ∧ pairState t k = 3 ∧ t.bit (ACT_CP_STATE_TN_VALID k) = true ∧ t.rd (ACT_CP_STATE_TN k) = msgF m 0 0 10 ∧
      Counted k s t) ∧
  (∀ (k : Chan) (n : Fin 64) m s, isUp s = true → Taken s k n 3 m → msgF m 0 38 1 = 0 → msgF m 0 0 32 ≤ eqdMax →
    ∃ t, exec (.rangingTime k n m) s = .next t ∧ t.rd (eqdOf k (msgF m 0 37 1)) = msgF m 0 0 32 ∧ t.bit (eqdV k (msgF m 0 37 1)) = true ∧
      pairState t k = (if msgF m 0 37 1 = activePort s then 4 else pairState s k) ∧ Counted k s t) ∧
  (∀ (k : Chan) (n : Fin 64) m s, isUp s = true → Taken s k n 4 m → pairState s k = 3 ∨ pairState s k = 4 →
    msgF m 0 16 16 % 64 = 0 → 1024 ≤ msgF m 0 16 16 → msgF m 0 16 16 ≤ 16384 → 64 ≤ msgF m 0 0 12 → msgF m 0 0 12 ≤ 4000 →
    (s.bank (UBE_BANK k).addr).phase = .idle →
    ∃ t, exec (.burstProfile k n m) s = .next t ∧ t.shReg (UBE_PROF k (msgF m 0 37 2)).addr = profWord m ∧
      (t.bank (UBE_BANK k).addr).phase = .waiting ∧ Counted k s t) ∧
  (∀ (k : Chan) (n : Fin 64) m s, isUp s = true → Taken s k n 0xB m → msgF m 0 38 1 = 0 →
    ∃ t, exec (.disable k n m) s = .next t ∧ pairState t k = 7 ∧ t.bit (ACT_CP_STATE_DIS_CP k) = true ∧ Counted k s t) ∧
  (∀ (k : Chan) (n : Fin 64) m s, isUp s = true → Taken s k n 0xC m → msgF m 0 38 1 = 0 →
    ∃ t, exec (.enable k n m) s = .next t ∧ t.bit (ACT_CP_STATE_DIS_CP k) = false ∧ Counted k s t) ∧
  (∀ (k : Chan) (n : Fin 64) m s, isUp s = true → Taken s k n 0xD m →
    ∃ t, exec (.deactivate k n m) s = .next t ∧ pairState t k = 6 ∧
      (t.pair k).hold = (if msgF m 0 0 16 = 0 then none else some (8 * msgF m 0 0 16)) ∧ Counted k s t) ∧
  (∀ (k : Chan) (n : Fin 64) m s, isUp s = true → Taken s k n 0xE m →
    ∃ t, exec (.protSwitch k n m) s = .next t ∧ t.act.order = some (msgF m 0 38 1, msgF m 1 0 48, k.val, s.bseq k) ∧ pairState t k = 4 ∧ Counted k s t)

/-- Key messages, firmware messages, time of day, wake lists and management accesses complete.
(05_activation_and_ranging.md R105, 05_activation_and_ranging.md R107, 05_activation_and_ranging.md R116,
05_activation_and_ranging.md R117, 11_cipher_and_keys.md R266, 11_cipher_and_keys.md R267, 11_cipher_and_keys.md R268,
13_time.md R300, 04_downstream_framing.md R78) -/
def Obligations.KeyAndFirmwareMessagesComplete : Prop :=
  (∀ (k : Chan) (n : Fin 64) m rk s, isUp s = true → Taken s k n 5 m → s.kln.rk = some rk →
    ∃ t, exec (.authChallenge k n m) s = .next t ∧ Counted k s t ∧
      t.kek k = some (kdf rk (kdfLabel 5 k (s.rd (ACT_CP_STATE_TN k)) 0 0 0 (serial s)) (slice m 8 32))) ∧
  (∀ (k : Chan) (n : Fin 64) m kek root s, isUp s = true → Taken s k n 6 m → msgF m 0 36 3 = 0 → msgF m 0 34 2 ≠ 3 → msgF m 0 32 2 ∈ [1, 2] →
    s.kek k = some kek → keyUnwrap kek (slice m 8 40) = some root →
    ∃ t, exec (.keyInstall k n m) s = .next t ∧ Counted k s t ∧ t.root (3 * k + msgF m 0 34 2) = some root ∧
      t.lastEpoch (3 * k + msgF m 0 34 2) = some (msgF m 0 0 32) ∧ t.epoch (epochKey k (msgF m 0 34 2) (msgF m 0 32 2)) = ⟨some (msgF m 0 0 32), false, true⟩) ∧
  (∀ (k : Chan) (n : Fin 64) m s, isUp s = true → Taken s k n 6 m → msgF m 0 36 3 = 1 → msgF m 0 34 2 ≠ 3 → msgF m 0 32 2 ∈ [1, 2] →
    (s.root (3 * k + msgF m 0 34 2)).isSome = true → (s.lastEpoch (3 * k + msgF m 0 34 2)).all (fun e => decide (e < msgF m 0 0 32)) = true →
    ∃ t, exec (.keyDerive k n m) s = .next t ∧ Counted k s t ∧ t.root (3 * k + msgF m 0 34 2) = s.root (3 * k + msgF m 0 34 2) ∧
      t.lastEpoch (3 * k + msgF m 0 34 2) = some (msgF m 0 0 32) ∧ t.epoch (epochKey k (msgF m 0 34 2) (msgF m 0 32 2)) = ⟨some (msgF m 0 0 32), false, true⟩) ∧
  (∀ (k : Chan) (n : Fin 64) m s, isUp s = true → Taken s k n 6 m → msgF m 0 36 3 = 2 → msgF m 0 34 2 ≠ 3 → msgF m 0 32 2 ∈ [1, 2] →
    ∃ t, exec (.keyEraseIndex k n m) s = .next t ∧ Counted k s t ∧ (t.epoch (epochKey k (msgF m 0 34 2) (msgF m 0 32 2))).keyed = false) ∧
  (∀ (k : Chan) (n : Fin 64) m s, isUp s = true → Taken s k n 6 m → msgF m 0 36 3 = 3 → msgF m 0 34 2 ≠ 3 → msgF m 0 32 2 ∈ [1, 2] →
    ∃ t, exec (.keyEraseAll k n m) s = .next t ∧ Counted k s t ∧ t.root (3 * k + msgF m 0 34 2) = none ∧ t.lastEpoch (3 * k + msgF m 0 34 2) = none ∧
      t.epoch (epochKey k (msgF m 0 34 2) 1) = {} ∧ t.epoch (epochKey k (msgF m 0 34 2) 2) = {}) ∧
  (∀ (k : Chan) (n : Fin 64) m s, isUp s = true → Taken s k n 7 m → s.act.rxq.length < 256 →
    ∃ t, exec (.streamAssign k n m) s = .next t ∧ t.act.rxq = s.act.rxq ++ [⟨k, (s.dsfCh k).fc, m⟩] ∧ Counted k s t) ∧
  (∀ (k : Chan) (n : Fin 64) m s, isUp s = true → Taken s k n 8 m → s.act.rxq.length < 256 →
    ∃ t, exec (.allocAssign k n m) s = .next t ∧ t.act.rxq = s.act.rxq ++ [⟨k, (s.dsfCh k).fc, m⟩] ∧ Counted k s t) ∧
  (∀ (k : Chan) (n : Fin 64) m s, isUp s = true → Taken s k n 9 m → s.act.rxq.length < 256 →
    ∃ t, exec (.powerMode k n m) s = .next t ∧ t.act.rxq = s.act.rxq ++ [⟨k, (s.dsfCh k).fc, m⟩] ∧ Counted k s t) ∧
  (∀ (k : Chan) (n : Fin 64) m s, isUp s = true → Taken s k n 0xA m → pairState s k = 3 ∨ pairState s k = 4 →
    timSource s ≠ 1 ∨ shownPair s ≠ some k.val →
    ∃ t, exec (.timeOfDay k n m) s = .next t ∧ Counted k s t ∧
      t.timLine k = some (fieldOf (wordAt m 24) 0 32, signed 16 (fieldOf (wordAt m 32) 48 16))) ∧
  (∀ (k : Chan) (n : Fin 64) m s, isUp s = true → Taken s k n 0xF m → pairState s k = 3 ∨ pairState s k = 4 →
    ∃ t, exec (.wakeList k n m) s = .next t ∧ t.pwr.wakeList = some m ∧ Counted k s t) ∧
  (∀ (k : Chan) (n : Fin 64) m s, isUp s = true → Taken s k n 0x10 m → canAccess s .mgmt (msgF m 1 0 48) = true →
    accessRefused .mgmt .word true (msgF m 1 0 48) (wordAt m 16) s = false → regionOf (msgF m 1 0 48) = .sram →
    ∃ t, exec (.regWrite k n m) s = .next t ∧ Counted k s t ∧ t.memWord (msgF m 1 0 48) = wordAt m 16 ∧ Frame [.regs, .act, .tim, .mem, .ecc] s t) ∧
  (∀ (k : Chan) (n : Fin 64) m s, isUp s = true → Taken s k n 0x11 m → canAccess s .mgmt (msgF m 1 0 48) = true →
    accessRefused .mgmt .word false (msgF m 1 0 48) 0 s = false → regionOf (msgF m 1 0 48) = .sram →
    ∃ t, exec (.regRead k n m) s = .next t ∧ Counted k s t ∧ Frame [.regs, .act, .tim] s t ∧
      SMap.get (fun _ => (none : Option LastMsg)) (t.pair k).last 0x11 =
        some ⟨msgSeq m, some (regValueBody (msgSeq m) 0 (msgF m 1 0 48) (s.memWord (msgF m 1 0 48)).toNat)⟩)

/-- The message that ACT_TXQ_DATA holds. -/
def Sys2Proof.Spec.txqMsg (s : State) : Bytes := ((List.range 8).map (fun i => wordBytes (s.reg (ACT_TXQ_DATA i).addr))).flatten

/-- Protection switching, and the message queues of firmware, complete. (05_activation_and_ranging.md R115,
05_activation_and_ranging.md R117, 05_activation_and_ranging.md R118, 03_line_optics_and_coding.md R48) -/
def Obligations.MessageQueuesComplete : Prop :=
  (∀ s p fc k seq, isUp s = true → s.act.order = some (p, fc, k, seq) → seq < s.bseq k → fc ≤ s.lastB k → p < 2 →
    ∃ t, exec .protSwitchEffect s = .next t ∧ t.act.order = none ∧ t.rd LPH_PORT_SEL = p) ∧
  (∀ s, isUp s = true → s.bit ACT_PROT_AUTO_PROT = true → s.runs blkACT = true → s.act.autoMoved = none →
    (∃ k < 16, s.bit (LPH_CH_CTL_RX_EN k) = true ∧ s.pwr.cpOn.testBit k = true) →
    (∀ k < 16, s.bit (LPH_CH_CTL_RX_EN k) = true → s.pwr.cpOn.testBit k = true → lostLong s k = true) →
    ∃ t, exec .autoProtExpiry s = .next t ∧ t.act.autoMoved = some (1 - s.rd LPH_PORT_ACTIVE) ∧ t.rd LPH_PORT_SEL = 1 - s.rd LPH_PORT_ACTIVE) ∧
  (∀ i v s, Accepted i ACT_RXQ_CTL.addr (withField v ACT_RXQ_CTL_POP 1) s →
    ∃ t, exec (.rxqPop i v) s = .next t ∧ t.act.rxq = s.act.rxq.drop 1 ∧
      (s.act.rxq.length ≤ 256 → t.rd ACT_RXQ_CTL_COUNT = s.act.rxq.length - 1)) ∧
  (∀ i v k s, Accepted i ACT_TXQ_CMD.addr (withField v ACT_TXQ_CMD_GO 1) s → k = inField v ACT_TXQ_CMD_CP →
    msgType (txqMsg s) ∈ [0x21, 0x23, 0x24] → inService s k = true → (s.pair k).msgq.length < 16 →
    ∃ t, exec (.txqSend i v) s = .next t ∧ (t.pair k).msgq = (s.pair k).msgq ++
      [fillMsg (ownTnum s k) (SMap.get (fun _ => 0) (s.pair k).mseq (msgType (txqMsg s))) (txqMsg s)])

/-- A channel is shut down with a cause (R142). -/
def Sys2Proof.Spec.ShutDown (k : Chan) (cause : Nat) (t : State) : Prop :=
  t.bit (CHP_STATUS_SIL k) = true ∧ t.rd (CHP_STATUS_CAUSE k) = cause

/-- The Chaperone: windows, the shutter, closing, each cause of a shutdown, and release complete.
(06_upstream_bursts.md R140, 06_upstream_bursts.md R141, 06_upstream_bursts.md R142, 06_upstream_bursts.md R144) -/
def Obligations.ChaperoneComplete : Prop :=
  (∀ (k : Chan) header entries s, isUp s = true → headerOk k ((s.dsfCh k).bad.contains 0) header = false →
    ∃ t, exec (.chpFrameParse k header entries) s = .next t ∧ (t.chpCh k).windows = (s.chpCh k).windows ∧
      t.rd (CHP_CNT_HDR_ERR k) = satAdd (CHP_CNT_HDR_ERR k).w (s.rd (CHP_CNT_HDR_ERR k)) 1) ∧
  (∀ (k : Chan) header e w s, isUp s = true → headerOk k ((s.dsfCh k).bad.contains 0) header = true → fieldOf (wordAt header 0) 6 10 = 1 →
    spanGood (s.dsfCh k).bad 128 16 = true → crc32cOk 16 e = true → chpWindow s k (fieldOf (wordAt header 0) 16 48) e = some w →
    ∃ t, exec (.chpFrameParse k header [e]) s = .next t ∧
      (t.chpCh k).windows = mergeWindow w ((s.chpCh k).windows.filter (fun v : Window => (v.frame + 1) % 2 ^ 48 == fieldOf (wordAt header 0) 16 48)) ∧
      t.rd (CHP_CNT_WINDOWS k) = satAdd (CHP_CNT_WINDOWS k).w (s.rd (CHP_CNT_WINDOWS k)) 1) ∧
  (∀ (k : Chan) s, isUp s = true → shutterConds s k = true → s.bit (CHP_STATUS_SHUTTER k) = false →
    ∃ t, exec (.shutterDrive k) s = .next t ∧ t.bit (CHP_STATUS_SHUTTER k) = true ∧ t.bit (LPH_TX_STATUS_SHUTTER k) = true) ∧
  (∀ (k : Chan) s, isUp s = true → s.bit (CHP_STATUS_SHUTTER k) = true →
    ∃ t, exec (.shutRdyRise k) s = .next t ∧ t.bit (CHP_STATUS_SHUT_RDY k) = true ∧ t.bit (UBE_CH_STAT_SHUT_RDY k) = true) ∧
  (∀ (k : Chan) s, isUp s = true → s.bit (CHP_STATUS_SHUTTER k) = true → inSync s k = false →
    ∃ t, exec (.chpClose k) s = .next t ∧ t.bit (CHP_STATUS_SHUTTER k) = false ∧ t.bit (CHP_STATUS_SHUT_RDY k) = false ∧
      t.bit (CHP_STATUS_GATE k) = false ∧ t.rd (CHP_CNT_CLOSES k) = satAdd (CHP_CNT_CLOSES k).w (s.rd (CHP_CNT_CLOSES k)) 1) ∧
  (∀ (k : Chan) b s, isUp s = true → s.bit (CHP_STATUS_SIL k) = false → beGate s k = some b → gateCovered s k b = false →
    ∃ t, exec (.chpGateOutsideWindow k) s = .next t ∧ ShutDown k 1 t) ∧
  (∀ (k : Chan) s, isUp s = true → s.bit (CHP_STATUS_SIL k) = false → oscNeeded s k = true →
    ∃ t, exec (.chpClockLoss k) s = .next t ∧ ShutDown k 2 t) ∧
  (∀ (k : Chan) n s, isUp s = true → s.bit (CHP_STATUS_SIL k) = false → (beGate s k).isSome = true → gateLimit s k < BitVec.toNat n →
    ∃ t, exec (.chpGateTooLong k n) s = .next t ∧ ShutDown k 3 t) ∧
  (∀ (k : Chan) s, isUp s = true → s.bit (CHP_STATUS_SIL k) = false → dutyExceeded s k = true →
    ∃ t, exec (.chpDutyExceeded k) s = .next t ∧ ShutDown k 4 t) ∧
  (∀ (k : Chan) n s, isUp s = true → s.bit (CHP_STATUS_SIL k) = false → inSync s k = true → (s.chpCh k).phased = true → 2 < BitVec.toNat n →
    ∃ t, exec (.chpDividerMismatch k n) s = .next t ∧ ShutDown k 5 t) ∧
  (∀ (k : Chan) s, isUp s = true → s.bit (CHP_STATUS_SIL k) = false →
    ∃ t, exec (.chpCopyUncorrectable k) s = .next t ∧ ShutDown k 6 t) ∧
  (∀ s, isUp s = true → s.bit FLT_SUMMARY_FATAL = true →
    ∃ t, exec .chpFatalShutdown s = .next t ∧ ∀ k < 16, t.bit (CHP_STATUS_SIL k) = true) ∧
  (∀ i (k : Chan) v s, Accepted i (CHP_CTL k).addr (withField v (CHP_CTL_RELEASE k) 1) s → s.bit (CHP_STATUS_SIL k) = true →
    s.runs blkCHP = true → s.bit (CHP_STATUS_CLK_OK k) = true → s.bit FLT_SUMMARY_FATAL = false →
    ∃ t, exec (.chpRelease i k v true true) s = .next t ∧ t.bit (CHP_STATUS_SIL k) = false ∧ t.rd (CHP_STATUS_CAUSE k) = 0) ∧
  (∀ i (k : Chan) v held pass s, Accepted i (CHP_CTL k).addr (withField v (CHP_CTL_RELEASE k) 1) s → s.bit (CHP_STATUS_SIL k) = true →
    held = false ∨ pass = false ∨ s.bit FLT_SUMMARY_FATAL = true →
    ∃ t, exec (.chpRelease i k v held pass) s = .next t ∧ t.bit (CHP_STATUS_SIL k) = true ∧ t.bit (CHP_CTL_REL_FAIL k) = true)

/-- The word of UBE_IND_CMD that asks for an access, with RD. -/
def Sys2Proof.Spec.ubeGo (v : Word) (rd : Nat) : Word := withField (withField v UBE_IND_CMD_GO 1) UBE_IND_CMD_RD rd

/-- Upstream bursts: maps reconciled, NOFRAG waits, bursts begun, fragments encoded, bursts sent, and UBE's tables
complete. (06_upstream_bursts.md R121, 06_upstream_bursts.md R126, 06_upstream_bursts.md R128, 06_upstream_bursts.md
R129, 06_upstream_bursts.md R130, 06_upstream_bursts.md R134, 06_upstream_bursts.md R136, 06_upstream_bursts.md R138,
06_upstream_bursts.md R141, 06_upstream_bursts.md R146) -/
def Obligations.BurstsComplete : Prop :=
  (∀ (k : Chan) g s, isUp s = true → s.runs blkUBE = true → (s.dsfCh k).live = true → (s.dsfCh k).hdrOk = true → (s.ubeCh k).accepted = [g] →
    g.alloc ≠ allocDisc → (s.ubeCh k).bursts = [] → s.bit (UBE_CH_CFG_PRED_EN k) = false →
    ∃ t, exec (.mapReconcile k) s = .next t ∧ (t.ubeCh k).accepted = [] ∧
      ∃ b, (t.ubeCh k).bursts = [b] ∧ b.grant = g ∧ b.phase = .built ∧ b.frame = (s.dsfCh k).fc) ∧
  (∀ (k : Chan) key q p l s, isUp s = true → s.cel.queues = [(key, q)] → q.pkts = p :: l → dirOf key = 1 →
    (s.allocCtx (leafAlloc s (key % 131072))).cp = k → s.rd (UBE_CH_CFG_NF_WAIT k) ≤ p.passed → (s.upStream p.sctx).nofrag = true → p.off = 0 →
    ∃ t, exec (.nofragWaitExpiry k) s = .next t ∧
      t.rd (UBE_CH_CNT1_PKT_DROP k) = satAdd (UBE_CH_CNT1_PKT_DROP k).w (s.rd (UBE_CH_CNT1_PKT_DROP k)) 1) ∧
  (∀ (k : Chan) b s, isUp s = true → nextBurst s k = some b → s.runs blkUBE = true → sending s k = none → leadTooEarly s k b = false →
    s.bit (CHP_STATUS_SHUT_RDY k) = true →
    ∃ t, exec (.burstStart k) s = .next t ∧ t.bit (CHP_STATUS_GATE k) = gateCovered s k b ∧
      t.bit (LPH_TX_STATUS_GATE k) = gateCovered s k b ∧ ∃ b' ∈ (t.ubeCh k).bursts, b'.phase = .started ∧ b'.grant = b.grant) ∧
  (∀ (k : Chan) b x s, isUp s = true → sending s k = some b → b.grant.alloc ≠ allocDisc → b.pieces[b.encoded]? = some x →
    x.up.reqEnc = false → x.pkt.poisoned = false → injArmed blkUBE 0 s = false →
    ∃ t, exec (.upstreamFragmentEncode k false {}) s = .next t ∧
      { b with out := b.out ++ padTo (pieceOcc x.plen false) (pieceHeader x.up b.ki x ++ slice (leavingBytes x.pkt) x.pkt.off x.plen),
               encoded := b.encoded + 1 } ∈ (t.ubeCh k).bursts) ∧
  (∀ (k : Chan) b s, isUp s = true → sending s k = some b → burstWhole b = true →
    ∃ t, exec (.burstLeftModulator k) s = .next t ∧ (t.ubeCh k).bursts = (s.ubeCh k).bursts.erase b ∧ (t.ubeCh k).sent = some b ∧
      (t.ubeCh k).tail = true ∧ t.rd (UBE_CH_CNT0_BURSTS k) = satAdd (UBE_CH_CNT0_BURSTS k).w (s.rd (UBE_CH_CNT0_BURSTS k)) 1) ∧
  (∀ i v n s, Accepted i UBE_IND_CMD.addr (ubeGo v 1) s → s.bit UBE_IND_CMD_GO = false → inField v UBE_IND_CMD_TABLE = 0 →
    n = inField v UBE_IND_CMD_INDEX → n < 4096 →
    ∃ t, exec (.ubeIndRead i v) s = .next t ∧ t.reg UBE_IND_DATA.addr =
      BitVec.ofNat 64 (2 ^ 63 * b2n (s.allocCtx n).valid + 2 ^ 56 * (s.allocCtx n).cp + 2 ^ 40 * (s.allocCtx n).alloc)) ∧
  (∀ i v n s, Accepted i UBE_IND_CMD.addr (ubeGo v 1) s → s.bit UBE_IND_CMD_GO = false → inField v UBE_IND_CMD_TABLE = 1 →
    n = inField v UBE_IND_CMD_INDEX →
    ∃ t, exec (.ubeIndRead i v) s = .next t ∧ t.reg UBE_IND_DATA.addr =
      BitVec.ofNat 64 (2 ^ 63 * b2n (s.upStream n).valid + 2 ^ 62 * b2n (s.upStream n).reqEnc + 2 ^ 61 * b2n (s.upStream n).nofrag
        + 2 ^ 48 * (s.upStream n).kslot + 2 ^ 36 * (s.upStream n).actx + (s.upStream n).sid)) ∧
  (∀ i v n d s, Accepted i UBE_IND_CMD.addr (ubeGo v 0) s → s.bit UBE_IND_CMD_GO = false → inField v UBE_IND_CMD_TABLE = 1 →
    n = inField v UBE_IND_CMD_INDEX → d = s.reg UBE_IND_DATA.addr → fieldOf d 0 16 ≠ 0xFFFF →
    ∃ t, exec (.ubeIndWrite i v) s = .next t ∧ t.upStream n =
      { valid := fieldOf d 63 1 == 1, reqEnc := fieldOf d 62 1 == 1, nofrag := fieldOf d 61 1 == 1, kslot := fieldOf d 48 13,
        actx := fieldOf d 36 12, sid := fieldOf d 0 16 }) ∧
  (∀ i v n d s, Accepted i UBE_IND_CMD.addr (ubeGo v 0) s → s.bit UBE_IND_CMD_GO = false → inField v UBE_IND_CMD_TABLE = 0 →
    n = inField v UBE_IND_CMD_INDEX → n < 4096 → d = s.reg UBE_IND_DATA.addr → 1024 ≤ fieldOf d 40 14 → fieldOf d 40 14 ≤ 16382 →
    pairContexts s (fieldOf d 56 4) false (some n) < 256 → (s.group (16 + fieldOf d 56 4)).pend = false → (s.allocCtx n).dflt = false →
    ∃ t, exec (.ubeIndWrite i v) s = .next t ∧ t.stagedCtx n = some (fieldOf d 63 1 == 1, fieldOf d 40 14) ∧
      (t.allocCtx n).cp = fieldOf d 56 4 ∧ (t.allocCtx n).valid = (s.allocCtx n).valid)

/-- A command word of CLS_RI_CMD that starts a reinjection in a mode. -/
def Sys2Proof.Spec.riGo (v : Word) (m : Nat) : Word := withField (withField v CLS_RI_CMD_GO 1) CLS_RI_CMD_MODE m

/-- A command word of CLS_IND_CMD that starts an access: 1 a read, 0 a write. -/
def Sys2Proof.Spec.clsGo (v : Word) (rd : Nat) : Word := withField (withField v CLS_IND_CMD_GO 1) CLS_IND_CMD_RD rd

/-- A data word of CLS_IND_DATA. -/
def Sys2Proof.Spec.clsD (s : State) (n : Nat) : Word := s.reg (CLS_IND_DATA n).addr

/-- A member of a group as its half word shows it (Table 7.8). -/
def Sys2Proof.Spec.memberWord (x : Member) : Nat := 2 ^ 31 * b2n x.active + 2 ^ 24 * x.cp + x.sid

/-- Rules and pipelines: passes, idle slots, reinjections, rule tables, versions, sweeps and slow-path queues
complete. (01_architecture.md R14, 07_parsing_and_rules.md R155, 07_parsing_and_rules.md R158, 07_parsing_and_rules.md
R173, 07_parsing_and_rules.md R174, 07_parsing_and_rules.md R175, 07_parsing_and_rules.md R176,
07_parsing_and_rules.md R179, 07_parsing_and_rules.md R180) -/
def Obligations.RulesComplete : Prop :=
  (∀ (n : Pipe) (c : Checks) p q s, isUp s = true → s.runs blkPRS = true → s.runs blkCLS = true → s.runs blkFLW = true → celAccepts s = true →
    pipeOn s n = true → (s.pipe n).input = p :: q → c.flips = [] → injArmed blkPRS c.idx.toNat s = false → p.toLeaf = none → p.spec = none →
    ∃ t, exec (.packetPass ⟨n, c⟩) s = .next t ∧ (t.pipe n).input = q ∧
      t.rd (PRS_CNT0_PASSES n) = satAdd (PRS_CNT0_PASSES n).w (s.rd (PRS_CNT0_PASSES n)) 1 ∧
      (passLooksUp s p (parse (parseCfg s p) p.bytes p.hid) = true → passRule s p (parse (parseCfg s p) p.bytes p.hid) = none →
        t.rd CLS_CNT0_MISS = satAdd CLS_CNT0_MISS.w (s.rd CLS_CNT0_MISS) 1)) ∧
  (∀ (n : Pipe) e s, isUp s = true → s.runs blkPRS = true → pipeOn s n = true → idlePick (s.pipe n).idle = some e → pipeOf e.2.dir e.2.src = n →
    ∃ t, exec (.idleSlotEntry n) s = .next t ∧ (t.pipe n).idle = (s.pipe n).idle.erase e ∧
      (t.pipe n).input = (s.pipe n).input ++ [{ e.2 with ver := some (e.2.ver.getD (s.rd CLS_VER_CUR)) }]) ∧
  (∀ i v s, Accepted i CLS_RI_CMD.addr (riGo v 0) s → s.bit CLS_RI_CMD_GO = false → 64 ≤ inField v CLS_RI_CMD_LEN → inField v CLS_RI_CMD_LEN ≤ 16000 →
    ∃ t, exec (.reinjectNewPass i v) s = .next t ∧ t.bit CLS_RI_CMD_GO = true ∧ t.bit CLS_RI_CMD_MODE = false ∧
      t.rd CLS_RI_CMD_LEN = inField v CLS_RI_CMD_LEN) ∧
  (∀ i v s, Accepted i CLS_RI_CMD.addr (riGo v 1) s → s.bit CLS_RI_CMD_GO = false → 64 ≤ inField v CLS_RI_CMD_LEN → inField v CLS_RI_CMD_LEN ≤ 16000 →
    ∃ t, exec (.reinjectToQueue i v) s = .next t ∧ t.bit CLS_RI_CMD_GO = true ∧ t.bit CLS_RI_CMD_MODE = true ∧
      t.rd CLS_RI_CMD_QUEUE = inField v CLS_RI_CMD_QUEUE) ∧
  (∀ s, isUp s = true → s.runs blkPRS = true → s.bit CLS_RI_CMD_GO = true → pipeOn s (pipeOf (s.rd CLS_RI_CMD_DIR) (s.rd CLS_RI_CMD_SRC)) = true →
    (s.pipe (pipeOf (s.rd CLS_RI_CMD_DIR) (s.rd CLS_RI_CMD_SRC))).idle.length < 512 →
    (∀ n ≤ s.rd CLS_RI_CMD_LEN, regionOf (s.rd CLS_RI_ADDR_ADDR + n) = .sram) →
    ∃ t p, exec .reinjectOffered s = .next t ∧ t.bit CLS_RI_CMD_GO = false ∧
      (t.pipe (pipeOf (s.rd CLS_RI_CMD_DIR) (s.rd CLS_RI_CMD_SRC))).idle =
        (s.pipe (pipeOf (s.rd CLS_RI_CMD_DIR) (s.rd CLS_RI_CMD_SRC))).idle ++ [(.slow, p)] ∧
      p.bytes = withFcs ((List.range (s.rd CLS_RI_CMD_LEN)).map (fun n => s.memByte (s.rd CLS_RI_ADDR_ADDR + n))) ∧
      p.toLeaf = (if s.bit CLS_RI_CMD_MODE then some (s.rd CLS_RI_CMD_QUEUE) else none)) ∧
  (∀ i v s, Accepted i CLS_IND_CMD.addr (clsGo v 1) s → s.bit CLS_IND_CMD_GO = false → inField v CLS_IND_CMD_TABLE < 3 →
    (inField v CLS_IND_CMD_TABLE = 1 → inField v CLS_IND_CMD_INDEX ≤ 16383) → (inField v CLS_IND_CMD_TABLE = 2 → inField v CLS_IND_CMD_INDEX ≤ 15) →
    ∃ t, exec (.clsIndRead i v) s = .next t ∧ t.bit CLS_IND_CMD_GO = false ∧
      (inField v CLS_IND_CMD_TABLE = 0 → (List.range 22).map (clsD t) = (ruleWords (t.rule (inField v CLS_IND_CMD_INDEX))).map (BitVec.ofNat 64)) ∧
      (inField v CLS_IND_CMD_TABLE = 1 → ∀ n < 8, clsD t n = (s.alist (inField v CLS_IND_CMD_INDEX)).words.getD n 0) ∧
      (inField v CLS_IND_CMD_TABLE = 2 → ∀ n < 8, clsD t n =
        BitVec.ofNat 64 (memberWord (s.member (inField v CLS_IND_CMD_INDEX * 16 + 2 * n)) * 2 ^ 32 + memberWord (s.member (inField v CLS_IND_CMD_INDEX * 16 + 2 * n + 1))))) ∧
  (∀ i v r s, Accepted i CLS_IND_CMD.addr (clsGo v 0) s → s.bit CLS_IND_CMD_GO = false → s.cls.sweeping = false → inField v CLS_IND_CMD_TABLE = 0 →
    ruleAccept s (s.rule (inField v CLS_IND_CMD_INDEX)) (ruleFrom (clsD s)) = some r →
    ∃ t, exec (.clsIndWrite i v) s = .next t ∧ t.bit CLS_IND_CMD_GO = false ∧ t.rule (inField v CLS_IND_CMD_INDEX) = r) ∧
  (∀ i v s, Accepted i CLS_IND_CMD.addr (clsGo v 0) s → s.bit CLS_IND_CMD_GO = false → s.cls.sweeping = false → inField v CLS_IND_CMD_TABLE = 1 →
    inField v CLS_IND_CMD_INDEX ≤ 16383 → listBad ((List.range 8).map (clsD s)) = false → listRefs s (inField v CLS_IND_CMD_INDEX) = 0 →
    ∃ t, exec (.clsIndWrite i v) s = .next t ∧ t.bit CLS_IND_CMD_GO = false ∧
      (t.alist (inField v CLS_IND_CMD_INDEX)).words = (List.range 8).map (clsD s) ∧ (t.alist (inField v CLS_IND_CMD_INDEX)).defined = true) ∧
  (∀ i v s, Accepted i CLS_IND_CMD.addr (clsGo v 0) s → s.bit CLS_IND_CMD_GO = false → inField v CLS_IND_CMD_TABLE = 2 → inField v CLS_IND_CMD_INDEX ≤ 15 →
    ∃ t, exec (.clsIndWrite i v) s = .next t ∧ t.bit CLS_IND_CMD_GO = false ∧
      ∀ n < 8, t.member (inField v CLS_IND_CMD_INDEX * 16 + 2 * n) = ⟨fieldOf (clsD s n) 63 1 == 1, fieldOf (clsD s n) 56 4, fieldOf (clsD s n) 32 16⟩ ∧
        t.member (inField v CLS_IND_CMD_INDEX * 16 + 2 * n + 1) = ⟨fieldOf (clsD s n) 31 1 == 1, fieldOf (clsD s n) 24 4, fieldOf (clsD s n) 0 16⟩) ∧
  (∀ i v s, Accepted i CLS_VER_COMMIT.addr (withField v CLS_VER_COMMIT_GO 1) s →
    ∃ t, exec (.versionCommitRequest i v) s = .next t ∧ t.bit CLS_VER_PENDING = true ∧ t.rd CLS_VER_CUR = s.rd CLS_VER_CUR) ∧
  (∀ s, isUp s = true → s.runs blkCLS = true → s.bit CLS_VER_PENDING = true → s.cls.sweeping = false → s.cls.sweepQueued = false →
    s.rd (CLS_DRAIN_COUNT ((s.rd CLS_VER_CUR + 1) % 4)) = 0 →
    ∃ t, exec .versionCommit s = .next t ∧ t.rd CLS_VER_CUR = (s.rd CLS_VER_CUR + 1) % 65536 ∧ t.bit CLS_VER_PENDING = false ∧
      t.bit CLS_VER_SWEEP = true ∧ t.cls.sweeping = true) ∧
  (∀ s, isUp s = true → s.runs blkCLS = true → s.cls.sweeping = true →
    ∃ t, exec .sweepDone s = .next t ∧ t.cls.sweeping = s.cls.sweepQueued ∧ t.cls.sweepQueued = false ∧ t.bit CLS_VER_SWEEP = s.cls.sweepQueued) ∧
  (∀ i (q : Fin 8) v s, Accepted i (CLS_SPQ q).addr v s → (s.rd (CLS_SPQ_PROD q) + 8192 - inField v (CLS_SPQ_CONS q)) % 8192 ≤ 4096 →
    ∃ t, exec (.spqConsume i q v) s = .next t ∧ t.rd (CLS_SPQ_CONS q) = inField v (CLS_SPQ_CONS q))

/-- A command word of FLW_IND_CMD that starts an operation. -/
def Sys2Proof.Spec.flwGo (v : Word) (op : Nat) : Word := withField (withField v FLW_IND_CMD_GO 1) FLW_IND_CMD_OP op

/-- The entry that the data words of FLW describe. -/
def Sys2Proof.Spec.flwEntry (s : State) : FlowEntry := flowFrom (flwData s)

/-- A counter index that no valid entry has and that is not held. -/
def Sys2Proof.Spec.CidxFree (s : State) : Prop :=
  ∃ c < 1048576, (∀ e ∈ s.flw.entries, e.2.valid = true → e.2.cidx ≠ c) ∧ ∀ h ∈ s.flw.held, h.entry.cidx ≠ c

/-- Flow table and counters: insertions, learning, lookups, updates, deletions, stash, ageing and counter reads
complete. (08_flows_and_speculation.md R186, 08_flows_and_speculation.md R187, 08_flows_and_speculation.md R188,
08_flows_and_speculation.md R189, 08_flows_and_speculation.md R190, 08_flows_and_speculation.md R191,
08_flows_and_speculation.md R194, 08_flows_and_speculation.md R195, 08_flows_and_speculation.md R204) -/
def Obligations.FlowsComplete : Prop :=
  (∀ i v s, Accepted i FLW_IND_CMD.addr (flwGo v 1) s → s.bit FLW_IND_CMD_GO = false → (flwEntry s).fmt ≠ 3 →
    listOk s (flwEntry s).alistLo = true → listOk s (flwEntry s).alistHi = true → flowFind s (flwEntry s).fmt (flwEntry s).tuple = none →
    ∃ t, exec (.flowInsert i v) s = .next t ∧ t.bit FLW_IND_CMD_GO = true ∧
      t.flw.plan = some (flowSearch s { flwEntry s with flgLo := 0, flgHi := 0 }).1) ∧
  (∀ x (p : InsPlan) s, isUp s = true → s.runs blkFLW = true → s.flw.plan = some p → p.moves = [] → p.place = some x → x < 2 ^ 21 → CidxFree s →
    ∃ t n, exec .flowInsertComplete s = .next t ∧ t.flw.plan = none ∧ t.bit FLW_IND_CMD_GO = false ∧ t.rd FLW_IND_CMD_STATUS = 0 ∧
      t.rd FLW_IND_CMD_LOC = x ∧ t.flowAt x = { p.entry with valid := true, cidx := n, age := s.flw.now }) ∧
  (∀ (r : LearnReq) q s, isUp s = true → s.runs blkFLW = true → s.flw.plan = none → s.flw.learnQ = r :: q →
    ∃ t, exec .learnInsert s = .next t ∧ t.flw.learnQ = q ∧
      ∀ x, flowFind s r.fmt r.tuple = none → freeIn s (r.fmt == 2) (bucketsOf s r.tuple).1 = some x → CidxFree s →
        (t.flowAt x).valid = true ∧ (t.flowAt x).tuple = r.tuple ∧ (t.flowAt x).alistLo = 0x3FFF ∧ (t.flowAt x).alistHi = 0x3FFF) ∧
  (∀ i v p s, Accepted i FLW_IND_CMD.addr (flwGo v 0) s → s.bit FLW_IND_CMD_GO = false → (flwEntry s).fmt ≠ 3 →
    flowFind s (flwEntry s).fmt (flwEntry s).tuple = some p →
    ∃ t, exec (.flowLookupCmd i v) s = .next t ∧ t.bit FLW_IND_CMD_GO = false ∧ t.rd FLW_IND_CMD_STATUS = 0 ∧ t.rd FLW_IND_CMD_LOC = p ∧
      (List.range 8).map (flwData t) = (List.range 8).map (fun n => BitVec.ofNat 64 ((flowWords (s.flowAt p)).getD n 0))) ∧
  (∀ i v p s, Accepted i FLW_IND_CMD.addr (flwGo v 2) s → s.bit FLW_IND_CMD_GO = false → (flwEntry s).fmt ≠ 3 →
    listOk s (flwEntry s).alistLo = true → listOk s (flwEntry s).alistHi = true → flowFind s (flwEntry s).fmt (flwEntry s).tuple = some p →
    ∃ t, exec (.flowUpdate i v) s = .next t ∧ t.bit FLW_IND_CMD_GO = false ∧ t.rd FLW_IND_CMD_STATUS = 0 ∧ t.rd FLW_IND_CMD_LOC = p ∧
      t.flowAt p = { s.flowAt p with static := (flwEntry s).static, alistLo := (flwEntry s).alistLo, alistHi := (flwEntry s).alistHi,
                                     flgLo := (flwEntry s).flgLo, flgHi := (flwEntry s).flgHi, user := (flwEntry s).user }) ∧
  (∀ i v p s, Accepted i FLW_IND_CMD.addr (flwGo v 3) s → s.bit FLW_IND_CMD_GO = false → (flwEntry s).fmt ≠ 3 →
    flowFind s (flwEntry s).fmt (flwEntry s).tuple = some p →
    ∃ t, exec (.flowDelete i v) s = .next t ∧ t.bit FLW_IND_CMD_GO = false ∧ t.rd FLW_IND_CMD_STATUS = 0 ∧ (t.flowAt p).valid = false ∧
      t.flw.held = s.flw.held ++ [⟨s.flowAt p, false⟩]) ∧
  (∀ (n : Fin 16) x s, isUp s = true → s.runs blkFLW = true → s.flw.plan = none → s.flw.learnQ = [] → (s.flowAt (stashBase + n)).valid = true →
    (∀ j < 16, j ≠ n.val → (s.flowAt (stashBase + j)).valid = false) →
    freeIn s ((s.flowAt (stashBase + n)).fmt == 2) (bucketsOf s (s.flowAt (stashBase + n)).tuple).1 = some x →
    ∃ t, exec .stashPlace s = .next t ∧ t.flowAt x = s.flowAt (stashBase + n) ∧ (t.flowAt (stashBase + n)).valid = false) ∧
  (∀ s, isUp s = true → s.runs blkFLW = true →
    ∃ t, exec .ageTick s = .next t ∧ t.flw.now = (s.flw.now + 1) % 65536 ∧
      ∀ p, t.flowAt p = (if s.bit FLW_CFG_AGE_EN && agesOut { s with flw := { s.flw with now := (s.flw.now + 1) % 65536 } } (s.flowAt p) then {}
        else s.flowAt p)) ∧
  (∀ h q s, isUp s = true → s.flw.held = h :: q →
    ∃ t, exec .cidxHoldExpiry s = .next t ∧ t.flw.held = q ∧ t.delta (2 * h.entry.cidx) = 0 ∧ t.delta (2 * h.entry.cidx + 1) = 0 ∧
      (h.aged = true → s.bit FLW_CFG_AGE_NOTIFY = true → (s.rd FLW_AGEQ_PROD + 32768 - s.rd FLW_AGEQ_CONS) % 32768 < 16384 →
        t.rd FLW_AGEQ_PROD = (s.rd FLW_AGEQ_PROD + 1) % 32768)) ∧
  (∀ (n : BitVec 22) s, isUp s = true → flushDue s n.toNat = true →
    ∃ t, exec (.deltaFlush n) s = .next t ∧ t.delta n.toNat = 0 ∧
      (s.flw.flushing.any (fun e => e.1 == n.toNat) = false → inCellar (counterAddr s n.toNat) = true → inCellar (counterAddr s n.toNat + 8) = true →
        s.stackOk (stackOf (counterAddr s n.toNat)) = true → s.rd FLW_CBASE_BASE % 16 = 0 → s.eccOf (counterAddr s n.toNat) = 0 →
        s.bit FLT_INJ_ARM = false → s.eccOf (counterAddr s n.toNat + 8) = 0 →
        t.memWord (counterAddr s n.toNat) = s.memWord (counterAddr s n.toNat) + BitVec.ofNat 64 (s.delta n.toNat % 2 ^ 40) ∧
        t.memWord (counterAddr s n.toNat + 8) = s.memWord (counterAddr s n.toNat + 8) + BitVec.ofNat 64 (s.delta n.toNat / 2 ^ 40))) ∧
  (∀ i v s, Accepted i FLW_CRD_CMD.addr (withField v FLW_CRD_CMD_GO 1) s →
    ∃ t, exec (.counterRead i v) s = .next t ∧ t.bit FLW_CRD_CMD_GO = false ∧
      t.reg FLW_CRD_BYTES.addr = BitVec.ofNat 64 (counterValue (inField v FLW_CRD_CMD_CID) s).1 ∧
      t.reg FLW_CRD_PKTS.addr = BitVec.ofNat 64 (counterValue (inField v FLW_CRD_CMD_CID) s).2.1 ∧
      (inField v FLW_CRD_CMD_CLR = 1 → t.delta (inField v FLW_CRD_CMD_CID) = 0)) ∧
  (∀ i v s, Accepted i FLW_AGEQ.addr v s → (s.rd FLW_AGEQ_PROD + 32768 - inField v FLW_AGEQ_CONS) % 32768 ≤ 16384 →
    ∃ t, exec (.ageqConsume i v) s = .next t ∧ t.rd FLW_AGEQ_CONS = inField v FLW_AGEQ_CONS)

/-- The run-ahead of a channel stands at a whole header `w` at byte `pos`. -/
def Sys2Proof.Spec.AheadReads (k : Nat) (info : Bytes) (pos w : Nat) (s : State) : Prop :=
  s.runs blkSPC = true ∧ (s.rd SPC_CTL_EN).testBit k = true ∧ (s.dsfCh k).live = true ∧ (s.dsfCh k).hdrOk = true ∧ (s.spcCh k).stopped = false ∧
    pos = max (s.spcCh k).pos (s.dsfCh k).pos ∧ pos < frameEnd ∧ frameWord info pos pos = some w

/-- A clear packet of one fragment that R196 issues: its stream's context, its bytes. -/
def Sys2Proof.Spec.AheadIssues (k : Nat) (info : Bytes) (pos w ctx : Nat) (s : State) : Prop :=
  hdrSid w ≠ 0xFFFF ∧ streamOf s k (hdrSid w) = some ctx ∧ (s.streamCtx ctx).type ≠ 1 ∧ hdrFirst w = true ∧ hdrLast w = true ∧ hdrKi w = 0 ∧
    hdrFseq w = 0 ∧ (s.streamCtx ctx).reqEnc = false ∧ 64 ≤ hdrPlen w ∧ hdrPlen w ≤ (s.streamCtx ctx).maxpkt ∧ hdrSid w ∉ (s.spcCh k).blocked ∧
    (s.spcCh k).pkts = [] ∧ (s.spcCh k).waits = [] ∧ (s.spcCh k).twins = [] ∧ (s.spcCh k).stamps = [] ∧
    s.cel.raUsed + cellCount 0 (hdrPlen w) false ≤ s.rd CEL_POOL_RA_RA ∧ (s.spcCh k).bytes + hdrPlen w + 20 ≤ 12500000 ∧
    verdictAhead (s.spcCh k) ((s.dsfCh k).frames * 5000 + pos / 2560) ((s.dsfCh k).frames * 5000 + (pos + occupancy w - 1) / 2560) = true ∧
    fcsBytes (slice info 8 (hdrPlen w - 4)) = slice info (hdrPlen w + 4) 4 ∧ recordsDue s (pipeOf 0 k) < 4096

/-- Speculation: the run-ahead, verdicts of codewords, and the timeout complete. (08_flows_and_speculation.md R196,
08_flows_and_speculation.md R197, 08_flows_and_speculation.md R199, 08_flows_and_speculation.md R200,
08_flows_and_speculation.md R201) -/
def Obligations.SpeculationComplete : Prop :=
  (∀ (k : Chan) info idx flips pos w s, isUp s = true → AheadReads k info pos w s → hecOk w = false →
    ∃ t, exec (.runaheadIssue k info idx flips) s = .next t ∧ (t.spcCh k).stopped = true ∧ (t.spcCh k).pkts = (s.spcCh k).pkts) ∧
  (∀ (k : Chan) info (idx : BitVec 10) flips pos w s, isUp s = true → AheadReads k info pos w s → hecOk w = true → pos + occupancy w ≤ frameEnd → occupancy w ≤ info.length →
    ∃ t, exec (.runaheadIssue k info idx flips) s = .next t ∧ (t.spcCh k).pos = pos + occupancy w ∧
      ∀ ctx, AheadIssues k info pos w ctx s → flips = [] → injArmed blkSPC idx.toNat s = false →
        (∃ p, (t.spcCh k).pkts = [p] ∧ p.hdr = pos ∧ p.fc = (s.dsfCh k).fc ∧ p.sid = hdrSid w ∧ p.stamp = s.rd CLS_VER_CUR) ∧
        (t.pipe (pipeOf 0 k)).input.length = (s.pipe (pipeOf 0 k)).input.length + 1) ∧
  (∀ (k : Chan) n s, isUp s = true → (s.spcCh k).next = some n → SMap.get (fun _ => (none : Option Bool)) (s.spcCh k).ended n = some true →
    ∃ t, exec (.codewordVerdict k) s = .next t ∧ (t.spcCh k).next = some (n + 1) ∧
      ∀ p ∈ (s.spcCh k).pkts, p.hi ≤ n → p ∉ (t.spcCh k).pkts) ∧
  (∀ (k : Chan) n s, isUp s = true → (s.spcCh k).next = some n → SMap.get (fun _ => (none : Option Bool)) (s.spcCh k).ended n = some false →
    ∃ t, exec (.codewordVerdict k) s = .next t ∧ (t.spcCh k).next = some (n + 1) ∧
      t.rd (SPC_CWC_MISMATCH k) = satAdd (SPC_CWC_MISMATCH k).w (s.rd (SPC_CWC_MISMATCH k)) 1 ∧
      ∀ p ∈ (s.spcCh k).pkts, n ≤ p.hi → p ∉ (t.spcCh k).pkts) ∧
  (∀ (k : Chan) s, isUp s = true → (s.spcCh k).pkts ≠ [] →
    ∃ t, exec (.specTimeout k) s = .next t ∧ (t.spcCh k).pkts = [] ∧
      t.rd (SPC_CWC_TIMEOUT k) = satAdd (SPC_CWC_TIMEOUT k).w (s.rd (SPC_CWC_TIMEOUT k)) 1)

/-- A command word of CEL_IND_CMD that starts an access: 1 a read, 0 a write. -/
def Sys2Proof.Spec.celGo (v : Word) (rd : Nat) : Word := withField (withField v CEL_IND_CMD_GO 1) CEL_IND_CMD_RD rd

/-- The profile that the data words describe. -/
def Sys2Proof.Spec.celProfile (s : State) : Profile :=
  { minRes := fieldOf (celData s 0) 44 20, headKeep := fieldOf (celData s 0) 24 20, spillHi := fieldOf (celData s 0) 4 20,
    alpha := fieldOf (celData s 0) 0 3, qmax := fieldOf (celData s 1) 0 31 }

/-- A profile lies in the ranges of Table 9.6. -/
def Sys2Proof.Spec.profileOk (p : Profile) : Prop :=
  p.minRes ≤ 65536 ∧ 128 ≤ p.headKeep ∧ p.headKeep ≤ 65536 ∧ p.headKeep ≤ p.spillHi ∧ p.spillHi ≤ 786432 ∧ 1 ≤ p.qmax ∧ p.qmax ≤ 1074528256

/-- Cellar pages and tables: spill writes, return reads, indirect tables and pool sizes complete.
(09_buffers_and_cellar.md R211, 09_buffers_and_cellar.md R212, 09_buffers_and_cellar.md R215, 09_buffers_and_cellar.md
R221, 09_buffers_and_cellar.md R224, 09_buffers_and_cellar.md R225) -/
def Obligations.CellarPagesComplete : Prop :=
  (∀ (key : Fin 262144) s, isUp s = true → s.runs blkCEL = true → (s.lq key).s = true → (∀ p ∈ (s.lq key).pkts, p.spec = none) →
    (s.lq key).headCells + (s.lq key).celCells + 62 ≤ (s.lq key).cells.length → (takePage s).isSome = true →
    ∃ t no, exec (.spillPageWrite key) s = .next t ∧ (t.lq key).pages.map (·.no) = (s.lq key).pages.map (·.no) ++ [no] ∧
      t.cel.waits = s.cel.waits ++ [⟨4, no⟩] ∧ no ∈ t.cel.pagesUsed) ∧
  (∀ (key : Fin 262144) (page : BitVec 24) s, isUp s = true → hbmTurn s page.toNat = true → page.toNat ∉ s.cel.orphans →
    (∃ p ∈ (s.lq key).pages, p.writing = true ∧ p.no = page.toNat) →
    ∃ t, exec (.spillWriteDone key page) s = .next t ∧ (t.lq key).c = (s.lq key).c + 62 ∧ (t.lq key).q = (s.lq key).q - 62 ∧
      (∀ p ∈ (t.lq key).pages, p.no = page.toNat → p.writing = false) ∧ ∀ r ∈ t.cel.waits, r.page ≠ page.toNat) ∧
  (∀ (key : Fin 262144) pg s, isUp s = true → s.runs blkCEL = true → returnDue s key = true → (s.lq key).pages.find? (fun p => !p.reading) = some pg →
    pg.writing = false →
    ∃ t, exec (.cellarReturnRead key) s = .next t ∧ t.cel.waits = s.cel.waits ++ [⟨3, pg.no⟩] ∧
      t.poolUsed (dirOf key * 3 + 2) = s.poolUsed (dirOf key * 3 + 2) + 62 ∧ ∀ p ∈ (t.lq key).pages, p.no = pg.no → p.reading = true) ∧
  (∀ (key : Fin 262144) (page : BitVec 24) s, isUp s = true → hbmTurn s page.toNat = true → page.toNat ∉ s.cel.orphans →
    (∃ p ∈ (s.lq key).pages, p.reading = true ∧ p.no = page.toNat) → pageFlips s page.toNat [] = [] →
    ∃ t, exec (.returnReadDone key page []) s = .next t ∧ (t.lq key).c = (s.lq key).c - 62 ∧ (t.lq key).q = (s.lq key).q + 62 ∧
      (∀ p ∈ (t.lq key).pages, p.no ≠ page.toNat) ∧ ∀ r ∈ t.cel.waits, r.page ≠ page.toNat) ∧
  (∀ i v s, Accepted i CEL_IND_CMD.addr (celGo v 1) s → s.bit CEL_IND_CMD_GO = false → inField v CEL_IND_CMD_TABLE = 0 → inField v CEL_IND_CMD_INDEX ≤ 255 →
    ∃ t, exec (.celIndRead i v) s = .next t ∧ t.bit CEL_IND_CMD_GO = false ∧
      celData t 0 = BitVec.ofNat 64 ((s.profile (inField v CEL_IND_CMD_INDEX)).minRes * 2 ^ 44 + (s.profile (inField v CEL_IND_CMD_INDEX)).headKeep * 2 ^ 24
        + (s.profile (inField v CEL_IND_CMD_INDEX)).spillHi * 16 + (s.profile (inField v CEL_IND_CMD_INDEX)).alpha) ∧
      celData t 1 = BitVec.ofNat 64 (s.profile (inField v CEL_IND_CMD_INDEX)).qmax) ∧
  (∀ i v s, Accepted i CEL_IND_CMD.addr (celGo v 1) s → s.bit CEL_IND_CMD_GO = false → inField v CEL_IND_CMD_TABLE = 1 →
    ∃ t, exec (.celIndRead i v) s = .next t ∧ t.bit CEL_IND_CMD_GO = false ∧
      celData t 0 = BitVec.ofNat 64 (2 ^ 63 * b2n (s.lq (inField v CEL_IND_CMD_INDEX)).spillEn + 2 ^ 48 * (s.lq (inField v CEL_IND_CMD_INDEX)).prof
        + 2 ^ 47 * b2n (s.lq (inField v CEL_IND_CMD_INDEX)).s + 2 ^ 24 * (s.lq (inField v CEL_IND_CMD_INDEX)).q) ∧
      celData t 1 = BitVec.ofNat 64 (s.lq (inField v CEL_IND_CMD_INDEX)).c) ∧
  (∀ i v s, Accepted i CEL_IND_CMD.addr (celGo v 0) s → s.bit CEL_IND_CMD_GO = false → inField v CEL_IND_CMD_TABLE = 0 → inField v CEL_IND_CMD_INDEX ≤ 255 →
    profileOk (celProfile s) →
    ∃ t, exec (.celIndWrite i v) s = .next t ∧ t.bit CEL_IND_CMD_GO = false ∧ t.profile (inField v CEL_IND_CMD_INDEX) = celProfile s) ∧
  (∀ i v s, Accepted i CEL_IND_CMD.addr (celGo v 0) s → s.bit CEL_IND_CMD_GO = false → inField v CEL_IND_CMD_TABLE = 1 →
    fieldOf (celData s 0) 47 1 = b2n (s.lq (inField v CEL_IND_CMD_INDEX)).s → fieldOf (celData s 0) 24 20 = (s.lq (inField v CEL_IND_CMD_INDEX)).q →
    fieldOf (celData s 1) 0 31 = (s.lq (inField v CEL_IND_CMD_INDEX)).c →
    ∃ t, exec (.celIndWrite i v) s = .next t ∧ t.bit CEL_IND_CMD_GO = false ∧
      t.lq (inField v CEL_IND_CMD_INDEX) = { s.lq (inField v CEL_IND_CMD_INDEX) with
        spillEn := fieldOf (celData s 0) 63 1 == 1, prof := fieldOf (celData s 0) 48 8 }) ∧
  (∀ i (n : Fin 4) v s, Accepted i (poolAddr n) v s → s.runs blkCEL = false → (n ≠ 3 → poolTotal (s.setReg (poolAddr n) v) ≤ 786432) →
    ∃ t, exec (.poolWrite i n v) s = .next t ∧ (n = 0 → t.rd CEL_POOL_RA_RA = inField v CEL_POOL_RA_RA) ∧
      (n = 1 ∨ n = 2 → ∀ lo ∈ [0, 20, 40], fieldOf (t.reg (poolAddr n)) lo 20 = fieldOf v lo 20) ∧
      (n = 3 → ∀ j < 4, floorGib t j = min 32 (fieldOf v (8 * j) 8)))

/-- HBM stacks: condition checks, retraining, scrubbing and row tests complete. (09_buffers_and_cellar.md R217,
09_buffers_and_cellar.md R219, 09_buffers_and_cellar.md R222, 09_buffers_and_cellar.md R223) -/
def Obligations.StacksComplete : Prop :=
  (∀ (n : Fin 4) (x : BitVec 16) (d : BitVec 8) s, isUp s = true → s.rd (CEL_TRAIN_STATE n) = 1 →
    stackOut s (signed 16 (s.rd (CEL_TRAIN_T n))) (s.rd (CEL_TRAIN_DUTY n) : Nat) x.toInt d.toNat = true →
    ∃ t, exec (.hbmConditionCheck n x d) s = .next t ∧ t.rd (CEL_TRAIN_STATE n) = 2) ∧
  (∀ i v s, Accepted i CEL_TRAIN_CTL.addr v s →
    ∃ t, exec (.hbmRetrainRequest i v) s = .next t ∧ ∀ n < 4, t.rd (CEL_TRAIN_STATE n) =
      (if v.getLsbD n && s.rd (CEL_TRAIN_STATE n) == 1 then 2 else s.rd (CEL_TRAIN_STATE n))) ∧
  (∀ (x : BitVec 16) (d : BitVec 8) n s, isUp s = true → n < 4 → (∀ j < 4, s.rd (CEL_TRAIN_STATE j) ≠ 3) → s.rd (CEL_TRAIN_STATE n) = 2 →
    (∀ j < n, s.rd (CEL_TRAIN_STATE j) ≠ 2) →
    ∃ t, exec (.hbmRetrainStart x d) s = .next t ∧ t.rd (CEL_TRAIN_STATE n) = 3 ∧ (t.stack n).startT = x.toInt ∧ (t.stack n).startD = d.toNat ∧
      (t.stack n).steps = 0) ∧
  (∀ (n : Fin 4) s, isUp s = true → s.rd (CEL_TRAIN_STATE n) = 3 → (s.stack n).steps < 512 →
    ∃ t, exec (.hbmRetrainStep n) s = .next t ∧ (t.stack n).steps = (s.stack n).steps + 1) ∧
  (∀ (n : Fin 4) (x : BitVec 16) (d : BitVec 8) s, isUp s = true → s.rd (CEL_TRAIN_STATE n) = 3 → (s.stack n).steps = 512 →
    ∃ t, exec (.hbmRetrainDone n x d) s = .next t ∧ t.rd (CEL_TRAIN_STATE n) = 1 ∧ t.rd (CEL_TRAIN_T n) = x.toNat ∧
      t.rd (CEL_TRAIN_DUTY n) = d.toNat ∧ (t.stack n).selfRefresh = false ∧
      t.rd (CEL_TRAIN_RETRAINS n) = satAdd (CEL_TRAIN_RETRAINS n).w (s.rd (CEL_TRAIN_RETRAINS n)) 1) ∧
  (∀ (flip : BitVec 72) s, isUp s = true → s.runs blkCEL = true → s.bit CEL_SCRUB_EN = true → s.cel.scrubWord < 4 * stackWords →
    s.stackOk (s.cel.scrubWord / stackWords) = true → stackBusy s (s.cel.scrubWord / stackWords) = false →
    ∃ t, exec (.scrubRead flip) s = .next t ∧ t.cel.scrubWord = (s.cel.scrubWord + 1) % (4 * stackWords) ∧
      (flip = 0 → s.eccOf (0x2000000000 + 8 * s.cel.scrubWord) = 0 → s.bit FLT_INJ_ARM = false → t.cel.scrubBack = none)) ∧
  (∀ (a : BitVec 48) s, isUp s = true → inCellar a.toNat = true → (∀ f ∈ s.cel.fences, f.1 ≠ rowOf a.toNat) → rowOf a.toNat ∉ s.cel.fenceWait →
    ∃ t, exec (.hbmRowTest a) s = .next t ∧
      (s.cel.fences.length < 8 → t.cel.fences = s.cel.fences ++ [(rowOf a.toNat, false)] ∧ t.rd CEL_REPAIR_FENCED = s.cel.fences.length + 1) ∧
      (8 ≤ s.cel.fences.length → t.cel.fenceWait = s.cel.fenceWait ++ [rowOf a.toNat])) ∧
  (∀ (a : BitVec 48) pass spare s, isUp s = true → (rowOf a.toNat, false) ∈ s.cel.fences → pass = true ∨ spare = true → s.flt.testing = false →
    s.cel.fenceWait = [] →
    ∃ t, exec (.hbmRowTestDone a pass spare) s = .next t ∧ t.rd CEL_REPAIR_RESULT = (if pass then 1 else 2) ∧
      t.rd CEL_REPAIR_ADDR = rowOf a.toNat ∧ ∀ f ∈ t.cel.fences, f.1 ≠ rowOf a.toNat)

/-- An access of SCH_IND_CMD can begin: accepted, with GO 0; its table, direction and index. -/
def Sys2Proof.Spec.SchGoes (i : Initiator) (v : Word) (rd tbl dir n : Nat) (s : State) : Prop :=
  Accepted i SCH_IND_CMD.addr (schGo v rd) s ∧ s.bit SCH_IND_CMD_GO = false ∧ inField v SCH_IND_CMD_TABLE = tbl ∧ inField v SCH_IND_CMD_DIR = dir ∧
    inField v SCH_IND_CMD_INDEX = n

/-- The four data words of SCH. -/
def Sys2Proof.Spec.schWords (s : State) : List Nat := (List.range 4).map (schData s)

/-- Scheduling: selections, refills, indirect tables, flushes, histograms and gate lists complete.
(10_scheduling_and_shaping.md R229, 10_scheduling_and_shaping.md R233, 10_scheduling_and_shaping.md R237,
10_scheduling_and_shaping.md R240, 10_scheduling_and_shaping.md R241, 10_scheduling_and_shaping.md R242,
10_scheduling_and_shaping.md R243, 10_scheduling_and_shaping.md R246, 10_scheduling_and_shaping.md R249) -/
def Obligations.SchedulingComplete : Prop :=
  (∀ (p : LPort) n key x l s, isUp s = true → s.runs blkSCH = true → macReady s p false = true →
    portPick (guardBand p false s) (fun _ => false) (fun n _ => nodeOpen (guardBand p false s) p false n) p = some (n, key) →
    (s.lq key).pkts = x :: l → x.poisoned = false →
    ∃ t, exec (.scheduleSelect p) s = .next t ∧ t.toMac p = s.toMac p ++ [((s.svc n).tc, x)] ∧ (t.lq key).pkts = l) ∧
  (∀ (d : Fin 2) (lev : Fin 3) s, isUp s = true → s.runs blkSCH = true → SMap.wf (fun _ => ({} : SchObj)) s.sch.leaves = true →
    SMap.wf (fun _ => ({} : SchObj)) s.sch.svcs = true → SMap.wf (fun _ => ({} : SchObj)) s.sch.ports = true →
    ∃ t, exec (.shaperRefill d lev) s = .next t ∧ ∀ k,
      t.leafObj k = (if lev = 0 ∧ k / 131072 = d then (s.leafObj k).refill else s.leafObj k) ∧
      t.svc k = (if lev = 1 ∧ k / 131072 = d then (s.svc k).refill else s.svc k) ∧
      t.portObj k = (if lev = 2 ∧ k / 8192 = d then (s.portObj k).refill else s.portObj k)) ∧
  (∀ i v tbl dir n s, SchGoes i v 1 tbl dir n s → tbl < 5 → (tbl = 1 → n ≤ 8191) → (tbl = 2 → n ≤ if dir = 0 then 1023 else 65535) →
    (tbl = 3 → n ≤ if dir = 0 then 63 else 4095) → (tbl = 4 → n ≤ 65535) →
    ∃ t, exec (.schIndRead i v) s = .next t ∧ t.bit SCH_IND_CMD_GO = false ∧
      (tbl = 0 → schWords t = schWords (showObj (s.leafObj (leafKey dir n)) true false s)) ∧
      (tbl = 1 → schWords t = [(2 ^ 63 * b2n (s.sub (dir * 8192 + n)).en + (s.sub (dir * 8192 + n)).port) % 2 ^ 64, 0, 0, 0]) ∧
      (tbl = 2 → schWords t = schWords (showObj (s.svc (dir * 131072 + n)) true true s)) ∧
      (tbl = 3 → schWords t = schWords (showObj (s.portObj (dir * 8192 + n)) false false s)) ∧
      (tbl = 4 → (schWords t).take 2 = [(2 ^ 63 * b2n (s.policer n).en + 2 ^ 62 * b2n (s.policer n).mode + (s.policer n).red) % 2 ^ 64,
        ((s.policer n).rates.cir * 2 ^ 32 + (s.policer n).rates.pir) % 2 ^ 64])) ∧
  (∀ i v tbl dir n s, SchGoes i v 0 tbl dir n s → tbl < 5 → (tbl = 1 → n ≤ 8191) → (tbl = 2 → n ≤ if dir = 0 then 1023 else 65535) →
    (tbl = 3 → n ≤ if dir = 0 then 63 else 4095) → (tbl = 4 → n ≤ 65535) →
    (tbl = 0 ∨ tbl = 2 → objRefused (schData s 0) (schData s 1) (schData s 2) = false) →
    (tbl = 1 → (dir = 0 → schData s 0 % 4096 ≤ 63) ∧ ((s.sub (dir * 8192 + n)).port = schData s 0 % 4096 ∨ subIdle s (dir * 8192 + n) = true)) →
    ∃ t, exec (.schIndWrite i v) s = .next t ∧ t.bit SCH_IND_CMD_GO = false ∧
      (tbl = 0 → t.leafObj (leafKey dir n) = objFrom (s.leafObj (leafKey dir n)) true false (schData s 0) (schData s 1) (schData s 2)) ∧
      (tbl = 1 → t.sub (dir * 8192 + n) = ⟨(schData s 0).testBit 63, schData s 0 % 4096⟩) ∧
      (tbl = 2 → t.svc (dir * 131072 + n) = objFrom (s.svc (dir * 131072 + n)) true true (schData s 0) (schData s 1) (schData s 2)) ∧
      (tbl = 3 → t.portObj (dir * 8192 + n) = objFrom (s.portObj (dir * 8192 + n)) false false (schData s 0) (schData s 1) (schData s 2)) ∧
      (tbl = 4 → (t.policer n).en = (schData s 0).testBit 63 ∧ (t.policer n).mode = (schData s 0).testBit 62 ∧ (t.policer n).red = 0 ∧
        (t.policer n).rates = { cir := schData s 1 / 2 ^ 32, pir := schData s 1 % 2 ^ 32, cbs := schData s 2 / 2 ^ 24 % 2 ^ 24, pbs := schData s 2 % 2 ^ 24 })) ∧
  (∀ i v s, Accepted i SCH_FLUSH.addr (withField v SCH_FLUSH_GO 1) s →
    (∀ p ∈ (s.lq (leafKey (inField v SCH_FLUSH_DIR) (inField v SCH_FLUSH_LEAF))).pkts, inUnsentBurst s p = false) →
    ∃ t, exec (.leafFlush i v) s = .next t ∧ (t.lq (leafKey (inField v SCH_FLUSH_DIR) (inField v SCH_FLUSH_LEAF))).pkts = [] ∧
      t.rd SCH_FLUSH_PKTS = (s.lq (leafKey (inField v SCH_FLUSH_DIR) (inField v SCH_FLUSH_LEAF))).pkts.length % 2 ^ 32) ∧
  (∀ s, isUp s = true → s.runs blkSCH = true → s.bit SCH_HIST_CTL_EN = true →
    ∃ t, exec .histogramSample s = .next t ∧
      t.rd SCH_HIST_CTL_SAMPLES = satAdd SCH_HIST_CTL_SAMPLES.w (s.rd SCH_HIST_CTL_SAMPLES) 1) ∧
  (∀ i v s, Accepted i SCH_HIST_CTL.addr (withField v SCH_HIST_CTL_CLR 1) s →
    ∃ t, exec (.histogramClear i v) s = .next t ∧ t.rd SCH_HIST_CTL_SAMPLES = 0 ∧
      (inCellar (s.rd SCH_HIST_BASE_BASE) = true → s.stackOk (stackOf (s.rd SCH_HIST_BASE_BASE)) = true →
        ∀ n < 33554432, t.memByte (s.rd SCH_HIST_BASE_BASE + n) = 0)) ∧
  (∀ (p : LPort) s, isUp s = true →
    ∃ t, exec (.gateEntryStart p) s = .next t ∧ t.rd (GCL_OPER_GATES p) = gatesAt s p s.nowNs % 256 ∧ t.bit (GCL_OPER_RUN p) = (operList s p).en) ∧
  (∀ (p : LPort) c s, isUp s = true → (s.gclPort p).cct = some c → c.inNs ≤ s.nowNs → (s.bank (GCL_BANK p).addr).phase = .waiting →
    (s.bank (GCL_BANK p).addr).kind = 3 →
    ∃ t, exec (.gateListChange p) s = .next t ∧ (t.gclPort p).cct = none ∧ (t.gclPort p).cycStart = c ∧ t.bit (GCL_EVT_CHANGED p) = true ∧
      (t.bank (GCL_BANK p).addr).phase = .copying ∧ (operList t p).en = (adminList s p).en ∧ (operList t p).len = (adminList s p).len ∧
      (operList t p).ct = (adminList s p).ct ∧ (operList t p).bt = (adminList s p).bt) ∧
  (∀ (p : LPort) s, isUp s = true → opWithin s p 1 (s.rd (GCL_PREEMPT_HOLD_ADV p)) = true →
    ∃ t, exec (.gateHoldAssert p) s = .next t ∧ t.bit (GCL_OPER_HOLD p) = true) ∧
  (∀ (p : LPort) s, isUp s = true → opWithin s p 2 (s.rd (GCL_PREEMPT_REL_ADV p)) = true →
    ∃ t, exec (.gateHoldRelease p) s = .next t ∧ t.bit (GCL_OPER_HOLD p) = false)

/-- A command of the Kiln can begin: accepted, none in progress; its operation, root, USE and slot. -/
def Sys2Proof.Spec.KlnGoes (i : Initiator) (v : Word) (op root use n : Nat) (s : State) : Prop :=
  Accepted i KLN_CMD.addr (withField (withField v KLN_CMD_GO 1) KLN_CMD_OP op) s ∧ s.bit KLN_CMD_GO = false ∧ inField v KLN_CMD_ROOT = root ∧
    inField v KLN_CMD_USE = use ∧ inField v KLN_CMD_SLOT = n

/-- A command of the Kiln ended well: STATUS 0, its data words cleared (R263). -/
def Sys2Proof.Spec.KlnDone (t : State) : Prop := t.rd KLN_CMD_STATUS = 0 ∧ t.kln.data = []

/-- A slot that firmware may write at once. -/
def Sys2Proof.Spec.SlotTakes (s : State) (n use : Nat) : Prop :=
  slotRefuses s n use = false ∧ ((s.slot n).st = .empty ∨ (s.slot n).st = .retired)

/-- A slot is LIVE with a USE and a key. -/
def Sys2Proof.Spec.Keyed (t : State) (n use : Nat) (key : Bytes) : Prop :=
  (t.slot n).st = .live ∧ (t.slot n).use = use ∧ (t.slot n).cur.map (·.key) = some key

/-- The Kiln: key commands, bindings, the registration key and drained generations complete. (11_cipher_and_keys.md
R261, 11_cipher_and_keys.md R263, 11_cipher_and_keys.md R264, 11_cipher_and_keys.md R266, 11_cipher_and_keys.md R270,
11_cipher_and_keys.md R271, 11_cipher_and_keys.md R277) -/
def Obligations.KilnComplete : Prop :=
  (∀ i v root n r s, KlnGoes i v 0 root 3 n s → 48 ≤ root → beAt (klnBytes s 4) 0 1 = 3 → SlotTakes s n 3 → s.root root = some r →
    ∃ t, exec (.klnDerive i v) s = .next t ∧ KlnDone t ∧ Keyed t n 3 (kdf r (klnBytes s 4) [])) ∧
  (∀ i v root n r s, KlnGoes i v 0 root 2 n s → 48 ≤ root → beAt (klnBytes s 4) 0 1 = 4 → SlotTakes s n 2 → s.root root = some r →
    ∃ t, exec (.klnDerive i v) s = .next t ∧ KlnDone t ∧ Keyed t n 2 (kdf r (klnBytes s 4) [])) ∧
  (∀ i v root use n r key s, KlnGoes i v 1 root use n s → 48 ≤ root → use = 2 ∨ use = 3 → SlotTakes s n use → s.root root = some r →
    keyUnwrap r (klnBytes s 5) = some key →
    ∃ t, exec (.klnUnwrap i v) s = .next t ∧ KlnDone t ∧ Keyed t n use key) ∧
  (∀ i v root use n s, KlnGoes i v 2 root use n s → use = 2 ∨ use = 3 → SlotTakes s n use →
    ∃ t, exec (.klnLoad i v) s = .next t ∧ KlnDone t ∧ Keyed t n use (klnBytes s 4)) ∧
  (∀ i v root use n s, KlnGoes i v 3 root use n s → (s.slot n).use = 2 ∨ (s.slot n).use = 3 → (s.slot n).st = .live ∨ (s.slot n).st = .retired →
    undrained (s.slot n).cur = none → undrained (s.slot n).prev = none →
    ∃ t, exec (.klnErase i v) s = .next t ∧ KlnDone t ∧ t.slot n = {}) ∧
  (∀ i v root use n s, KlnGoes i v 4 root use n s → 48 ≤ root →
    ∃ t, exec (.klnRootLoad i v) s = .next t ∧ KlnDone t ∧ t.root root = some (klnBytes s 4)) ∧
  (∀ i v root use n s, KlnGoes i v 5 root use n s → 48 ≤ root →
    ∃ t, exec (.klnRootErase i v) s = .next t ∧ KlnDone t ∧ t.root root = none) ∧
  (∀ i v root use n s, KlnGoes i v 6 root use n s →
    ∃ t, exec (.klnQuery i v) s = .next t ∧ KlnDone t ∧ t.slot n = s.slot n ∧ t.rd KLN_SLOTINFO_USE = (s.slot n).use % 4 ∧
      t.rd KLN_SLOTINFO_STATE = (match (s.slot n).st with | .empty => 0 | .live => 1 | .retired => 2 | .erasing => 3) ∧
      t.bit KLN_SLOTINFO_PREV = (s.slot n).prev.isSome ∧ t.bit KLN_SLOTINFO_REWR = (s.slot n).held.isSome) ∧
  (∀ i v s, Accepted i KLN_BIND_CMD.addr (withField (withField v KLN_BIND_CMD_GO 1) KLN_BIND_CMD_RD 1) s → s.bit KLN_BIND_CMD_GO = false →
    ∃ t, exec (.bindRead i v) s = .next t ∧ t.bit KLN_BIND_DATA_VALID = (s.binding (inField v KLN_BIND_CMD_INDEX)).valid ∧
      t.rd KLN_BIND_DATA_USAGE = (s.binding (inField v KLN_BIND_CMD_INDEX)).usage % 4 ∧
      t.rd KLN_BIND_DATA_CP = (s.binding (inField v KLN_BIND_CMD_INDEX)).cp % 16 ∧
      t.rd KLN_BIND_DATA_SGRP = (s.binding (inField v KLN_BIND_CMD_INDEX)).sgrp % 256 ∧
      t.rd KLN_BIND_DATA_BASE = (s.binding (inField v KLN_BIND_CMD_INDEX)).base % 8192) ∧
  (∀ i v s, Accepted i KLN_BIND_CMD.addr (withField (withField v KLN_BIND_CMD_GO 1) KLN_BIND_CMD_RD 0) s → s.bit KLN_BIND_CMD_GO = false →
    bindRefused s (inField v KLN_BIND_CMD_INDEX) (bindFrom s) = false →
    ∃ t, exec (.bindWrite i v) s = .next t ∧ t.binding (inField v KLN_BIND_CMD_INDEX) = bindFrom s) ∧
  (∀ i v s, Accepted i KLN_RK.addr (withField v KLN_RK_PROG 1) s → s.kln.rk = none →
    ∃ t, exec (.rkProgram i v) s = .next t ∧ t.kln.rk = some (klnBytes s 4) ∧ t.bit KLN_RK_RK_SET = true ∧ t.kln.data = []) ∧
  (∀ (n : Fin 8192) g s, isUp s = true → (s.slot n).st = .live → (s.slot n).prev = some g → g.bound = 0 →
    ∃ t, exec (.keyGenerationDrained n) s = .next t ∧ (t.slot n).st = .live ∧
      ((s.slot n).held = none → (t.slot n).prev = none) ∧
      (∀ key, (s.slot n).held = some key → (t.slot n).cur.map (·.key) = some key ∧ (t.slot n).held = none)) ∧
  (∀ (n : Fin 8192) s, isUp s = true → (s.slot n).st = .erasing → undrained (s.slot n).cur = none → undrained (s.slot n).prev = none →
    (s.slot n).waiting = none → ∃ t, exec (.keyGenerationDrained n) s = .next t ∧ t.slot n = {})

/-- An access of CIP_IND_CMD can begin. -/
def Sys2Proof.Spec.CipGoes (i : Initiator) (v : Word) (rd tbl n : Nat) (s : State) : Prop :=
  Accepted i CIP_IND_CMD.addr (withField (withField v CIP_IND_CMD_GO 1) CIP_IND_CMD_RD rd) s ∧ s.bit CIP_IND_CMD_GO = false ∧
    inField v CIP_IND_CMD_TABLE = tbl ∧ inField v CIP_IND_CMD_INDEX = n

/-- Address of the descriptor at CONS. -/
def Sys2Proof.Spec.descAt (s : State) : Nat := s.rd CIP_FWQ_BASE_BASE + s.rd CIP_FWQ_CONS % 1024 * 32

/-- Cipher lanes: dispatch, completion, secure associations and the firmware ring complete. (11_cipher_and_keys.md
R251, 11_cipher_and_keys.md R252, 11_cipher_and_keys.md R275, 11_cipher_and_keys.md R276) -/
def Obligations.CipherComplete : Prop :=
  (∀ (l : Fin 80) src s, isUp s = true → s.runs blkCIP = true → l.val ∉ s.kln.lanesOut → cipNext s = some src →
    ∃ t, exec (.cipherDispatch l) s = .next t ∧
      t.kln.queue = dispatchFirst (fun r => r.src == src && r.lane.isNone) l s.kln.queue) ∧
  (∀ src r s, isUp s = true → s.kln.queue.find? (fun r => r.src == src) = some r → r.lane.isSome = true → r.ra = none →
    ∃ t, exec (.cipherComplete src) s = .next t ∧ t.kln.queue = s.kln.queue.erase r) ∧
  (∀ i v tbl n s, CipGoes i v 1 tbl n s → tbl ≤ 1 → (tbl = 0 → n ≤ 255) →
    ∃ t, exec (.cipIndRead i v) s = .next t ∧ (∀ a, a = (if tbl = 1 then s.rxSa n else s.txSa n) →
      (List.range 5).map (cipData t) = [2 ^ 63 * b2n a.valid + 2 ^ 62 * b2n a.exh + a.slot * 2 ^ 32 + a.ssci, a.nextPn,
        if tbl = 1 then a.window else a.thr, a.salt / 2 ^ 32, a.salt % 2 ^ 32 * 2 ^ 32].map (· % 2 ^ 64))) ∧
  (∀ i v tbl n s, CipGoes i v 0 tbl n s → tbl ≤ 1 → (tbl = 0 → n ≤ 255) → cipData s 1 ≠ 0 →
    ∃ t, exec (.cipIndWrite i v) s = .next t ∧ (∀ a, a = (if tbl = 1 then t.rxSa n else t.txSa n) →
      a.valid = (cipData s 0).testBit 63 ∧ a.exh = false ∧ a.slot = cipData s 0 / 2 ^ 32 % 8192 ∧ a.ssci = cipData s 0 % 2 ^ 32 ∧
      a.nextPn = cipData s 1 ∧ a.salt = cipData s 3 * 2 ^ 32 + cipData s 4 / 2 ^ 32 ∧
      (tbl = 0 → a.thr = cipData s 2) ∧ (tbl = 1 → a.window = cipData s 2 % 2 ^ 32))) ∧
  (∀ i v s, Accepted i CIP_FWQ.addr v s → (inField v CIP_FWQ_PROD + 2048 - s.rd CIP_FWQ_CONS) % 2048 ≤ 1024 →
    ∃ t, exec (.fwRingPost i v) s = .next t ∧ t.rd CIP_FWQ_PROD = inField v CIP_FWQ_PROD ∧ t.rd CIP_FWQ_EN = inField v CIP_FWQ_EN) ∧
  (∀ err s, isUp s = true → s.runs blkCIP = true → s.bit CIP_FWQ_EN = true → s.rd CIP_FWQ_CONS ≠ s.rd CIP_FWQ_PROD →
    ∃ t, exec (.fwDescriptor err) s = .next t ∧ t.rd CIP_FWQ_CONS = (s.rd CIP_FWQ_CONS + 1) % 2048 ∧
      ∀ w al len g addr, err = false → w = s.memWord (descAt s) → fieldOf w 60 4 = 1 → fieldOf w 59 1 = 1 → fieldOf w 52 7 = al → al ≤ 64 →
        fieldOf w 38 14 = len → fieldOf (s.memWord (descAt s + 24)) 0 48 = addr → (∀ n < 4, s.stackOk n = true) → s.ecc = [] → s.bit FLT_INJ_ARM = false →
        s.bit TSK_TRC_CTL_EN = false → s.rd CIP_FWQ_BASE_BASE % 32 = 0 → inCellar (descAt s) = true → inCellar (descAt s + 31) = true →
        inCellar addr = true → inCellar (addr + 64 + len + 16) = true → addr + 64 + len + 16 ≤ descAt s ∨ descAt s + 32 ≤ addr →
        (s.slot (fieldOf w 0 13)).st = .live → (s.slot (fieldOf w 0 13)).use = 3 → (s.slot (fieldOf w 0 13)).cur = some g → g.bad = false →
        t.memByte (descAt s + 23) = 1 ∧ t.memBytes (addr + 64) (len + 16) =
          (gcmEncrypt g.key (wordBytes (s.memWord (descAt s + 8)) ++ (wordBytes (s.memWord (descAt s + 16))).take 4) (s.memBytes addr al)
            (s.memBytes (addr + 64) len)).1 ++
          (gcmEncrypt g.key (wordBytes (s.memWord (descAt s + 8)) ++ (wordBytes (s.memWord (descAt s + 16))).take 4) (s.memBytes addr al)
            (s.memBytes (addr + 64) len)).2)

/-- A port can receive and send: live, MAC running, its link up. -/
def Sys2Proof.Spec.Linked (s : State) (p : Nat) : Prop := portLive s p = true ∧ macRuns s = true ∧ s.bit (MAC_PORT_STAT_LINK p) = true

/-- Client ports: enabling, links, frames received and sent, flow control, verification and light complete.
(12_client_ports.md R279, 12_client_ports.md R281, 12_client_ports.md R283, 12_client_ports.md R285,
12_client_ports.md R286, 12_client_ports.md R288, 12_client_ports.md R289, 12_client_ports.md R290, 12_client_ports.md
R291) -/
def Obligations.ClientsComplete : Prop :=
  (∀ i (P : PPort) v s, Accepted i (MAC_PHY_CTL P).addr (withField v (MAC_PHY_CTL_EN P) 1) s → s.bit (MAC_PHY_CTL_EN P) = false →
    inField v (MAC_PHY_CTL_BRK P) ≠ 3 →
    ∃ t, exec (.portEnable i P v) s = .next t ∧ t.bit (MAC_PHY_CTL_EN P) = true ∧ t.rd (MAC_PHY_CTL_BRK P) = inField v (MAC_PHY_CTL_BRK P)) ∧
  (∀ i (P : PPort) v s, Accepted i (MAC_PHY_CTL P).addr (withField v (MAC_PHY_CTL_EN P) 0) s → s.bit (MAC_PHY_CTL_EN P) = true →
    inField v (MAC_PHY_CTL_BRK P) ≠ 3 → inField v (MAC_PHY_CTL_BRK P) = s.rd (MAC_PHY_CTL_BRK P) → inField v (MAC_PHY_CTL_LOOP P) = s.rd (MAC_PHY_CTL_LOOP P) →
    ∃ t, exec (.portDisable i P v) s = .next t ∧ t.bit (MAC_PHY_CTL_EN P) = false ∧ t.rd (MAC_PHY_STAT_LANE_LOCK P) = 0 ∧
      t.bit (MAC_PHY_STAT_ALIGN P) = false ∧ ∀ n < 4, t.toMac (P + 16 * n) = [] ∧ t.bit (MAC_PORT_STAT_LINK (P + 16 * n)) = false) ∧
  (∀ (p : LPort) (lanes : BitVec 8) remF hi s, isUp s = true → pcsOn s p = true →
    lanes.toNat &&& subLanes (s.rd (MAC_PHY_CTL_BRK (p % 16))) (p / 16) = subLanes (s.rd (MAC_PHY_CTL_BRK (p % 16))) (p / 16) →
    ∃ t, exec (.linkChange p lanes true false remF true hi) s = .next t ∧ t.bit (MAC_PORT_STAT_LINK p) = true ∧
      t.bit (MAC_PORT_STAT_REMOTE_F p) = remF ∧ t.rd (MAC_PHY_STAT_LANE_LOCK (p % 16)) = lanes.toNat % 16) ∧
  (∀ (p : LPort) (lanes : BitVec 8) al remF q hi s, isUp s = true → pcsOn s p = true →
    ∃ t, exec (.linkChange p lanes al true remF q hi) s = .next t ∧ t.bit (MAC_PORT_STAT_LINK p) = false ∧ t.bit (MAC_PORT_STAT_LOCAL_F p) = true) ∧
  (∀ (p : LPort) l (fr a b : BitVec 16) q s, isUp s = true → s.rd (MAC_PHY_CTL_LOOP (p % 16)) ≠ 1 → Linked s p → 64 ≤ l.length →
    l.length ≤ s.rd (MAC_PORT_CFG_MAXLEN p) → l.drop (l.length - 4) = fcsBytes (l.take (l.length - 4)) → beAt l (typeOff l) 2 ≠ 0x8808 →
    rxQueue s p l = some q → s.bit (MAC_SEC_CFG_RX_EN p) = false → s.runs blkPRS = true → pipeOn s (pipeOf 1 p) = true →
    ∃ t x, exec (.macReceiveFrame p l false false fr false a b) s = .next t ∧ (t.pipe (pipeOf 1 p)).input = (s.pipe (pipeOf 1 p)).input ++ [x] ∧
      x.bytes = l ∧ x.dir = 1 ∧ x.src = p.val ∧ x.rxq = some q) ∧
  (∀ (p : LPort) (c : Fin 8) s, isUp s = true → (s.macPort p).pauseAt.getD c none ≠ some s.ticks →
    ∃ t, exec (.pfcPauseExpiry p c) s = .next t ∧ (t.macPort p).pause.getD c 0 = 0 ∧ (t.rd (MAC_PFC_STAT_PAUSED p)).testBit c = false) ∧
  (∀ (p : LPort) s, isUp s = true → portLive s p = true → macRuns s = true →
    ∃ t, exec (.pfcXoff p) s = .next t ∧ (∀ q < 8, (t.rd (MAC_PFC_STAT_XOFF p)).testBit q = xoffNext s p q) ∧
      ((∃ q < 8, xoffNext s p q = true ∧ (s.rd (MAC_PFC_STAT_XOFF p)).testBit q = false) →
        (t.macPort p).pfcOut.length = (s.macPort p).pfcOut.length + 1)) ∧
  (∀ (p : LPort) s, isUp s = true → portLive s p = true → macRuns s = true → s.rd (MAC_PFC_STAT_XOFF p) &&& s.rd (MAC_PFC_CFG_PFC_TX p) ≠ 0 →
    ∃ t, exec (.pfcRefresh p) s = .next t ∧ (t.macPort p).pfcOut.length = (s.macPort p).pfcOut.length + 1) ∧
  (∀ (p : LPort) (c : Checks) e s, isUp s = true → Linked s p → (s.macPort p).pfcOut = [] → s.toMac p = [e] → preemptable s p e.1 = false →
    e.2.poisoned = false → c.flips = [] → injArmed blkMAC c.idx.toNat s = false → secured s p e.2.bytes = false →
    secured s p (macPad e.2.bytes) = false → ptpAt e.2.bytes = none → s.rd (MAC_PHY_CTL_LOOP (p % 16)) = 0 →
    ∃ t, exec (.macTransmit p c) s = .next t ∧ t.toMac p = [] ∧ (t.macPort p).sent = some (macPad e.2.bytes ++ fcsBytes (macPad e.2.bytes))) ∧
  (∀ (p : LPort) resp peer s, isUp s = true → Linked s p → s.rd (MAC_MM_CFG_VERIFY_ST p) = 1 ∨ s.rd (MAC_MM_CFG_VERIFY_ST p) = 2 →
    ∃ t, exec (.mmVerifyAttempt p ⟨resp, peer⟩) s = .next t ∧
      t.rd (MAC_MM_CFG_VERIFY_ST p) = (if resp = true ∧ s.rd (MAC_MM_CFG_VERIFY_ST p) = 2 then 3 else if (s.macPort p).attempts < 3 then 2 else 4) ∧
      (peer = true → s.bit (MAC_MM_CFG_MM_EN p) = true → (t.macPort p).answered = (s.macPort p).answered + 1)) ∧
  (∀ (P : PPort) s, isUp s = true → ∃ t, exec (.clientLightLow P) s = .next t ∧ t.bit (MAC_PHY_STAT_LIGHT_LOW P) = true) ∧
  (∀ (P : PPort) s, isUp s = true → ∃ t, exec (.clientLightRestored P) s = .next t ∧ t.bit (MAC_PHY_STAT_LIGHT_LOW P) = false)

/-- Time: second boundaries, loads and steps, the servo, PPS and time-of-day lines, the time PLL and the time-stamp
queues complete. (13_time.md R295, 13_time.md R296, 13_time.md R297, 13_time.md R303, 13_time.md R304, 13_time.md
R306, 13_time.md R312, 13_time.md R313, 13_time.md R314, 13_time.md R315) -/
def Obligations.TimeComplete : Prop :=
  (∀ s, isUp s = true → s.tod.f < secF → ∃ t, exec .secondBoundary s = .next t ∧ t.tod.s = (s.tod.s + 1) % 2 ^ 48 ∧
    t.tim.todDue = some ((s.tod.s + 1) % 2 ^ 48)) ∧
  (∀ s, isUp s = true → ∃ t, exec .ppsOutFall s = .next t ∧ t.tim.ppsHigh = false ∧ ppsOutBall t = false) ∧
  (∀ s sec, isUp s = true → s.tim.todDue = some sec → ∃ t, exec .todOutSend s = .next t ∧ t.tim.todDue = none ∧
    t.tim.todOut = if s.bit TIM_TODS_TODO_EN then some (todMessage s sec) else s.tim.todOut) ∧
  (∀ m s, isUp s = true → s.runs blkTIM = true → s.bit TIM_TODS_TODI_EN = true → todGood m = true →
    ∃ t, exec (.todInMessage m) s = .next t ∧ t.reg TIM_TODS_RX.addr = BitVec.ofNat 64 (beAt m 4 6 * 65536 + beAt m 3 1 * 256 + beAt m 12 1)) ∧
  (∀ i v s, Accepted i TIM_CTL.addr (withField v TIM_CTL_LOAD 1) s → inField v TIM_CTL_STEP = 0 →
    ∃ t, exec (.timeLoad i v) s = .next t ∧ t.bit TIM_EVT_STEP = true ∧
      t.tod = ⟨s.rd TIM_SET_S_S, min 999999999 (s.rd TIM_SET_NS_NS) * 2 ^ 48 + s.rd TIM_SET_NS_FR * 2 ^ 32⟩) ∧
  (∀ i v s, Accepted i TIM_CTL.addr (withField v TIM_CTL_STEP 1) s → inField v TIM_CTL_LOAD = 0 →
    ∃ t, exec (.timeStep i v) s = .next t ∧ t.bit TIM_EVT_STEP = true ∧
      t.tod = Tod.ofTotal (s.tod.total + signed 64 (s.reg TIM_STEP_OFS.addr).toNat * 2 ^ 32)) ∧
  (∀ i s, canAccess s i TIM_TOD_S.addr = true → accessRefused i .word false TIM_TOD_S.addr 0 s = false →
    ∃ t, exec (.todReadLatch i) s = .next t ∧ t.readOut = BitVec.ofNat 64 (s.tod.s * 65536) ∧
      t.reg TIM_TOD_NS.addr = BitVec.ofNat 64 (s.tod.ns * 2 ^ 32 + s.tod.fr * 65536)) ∧
  (∀ s, isUp s = true → freqValid s = false → s.bit TIM_STATUS_F_HOLD = false →
    ∃ t, exec .tpllHoldover s = .next t ∧ t.bit TIM_STATUS_F_HOLD = true ∧ t.bit TIM_EVT_F_LOSS = true) ∧
  (∀ s, isUp s = true → freqValid s = true → ∃ t, exec .tpllHoldoverExit s = .next t ∧ t.bit TIM_STATUS_F_HOLD = false) ∧
  (∀ i v s, Accepted i TIM_SAMPLE.addr v s → s.rd TIM_CTL_TSRC = 3 →
    ∃ t, exec (.timeSampleWrite i v) s = .next t ∧
      t.rd TIM_STATUS_LAST_E = unsigned 32 (clampInt (-(2 ^ 31)) (2 ^ 31 - 1) (signed 64 v.toNat)) ∧
      (s.rd TIM_STATUS_STATE = 0 → t.rd TIM_STATUS_STATE = 1 ∧ t.tod = Tod.ofTotal (s.tod.total + signed 64 v.toNat * 2 ^ 32)) ∧
      (s.rd TIM_STATUS_STATE ≠ 0 → overStep s (signed 64 v.toNat) = false → t.tod = s.tod ∧
        t.rd TIM_RATE_INTEG = unsigned 32 (clampRate (timInteg s + (signed 64 v.toNat * s.rd TIM_SERVO_KI) / (2 ^ 24 : Int))))) ∧
  (∀ s, isUp s = true → s.runs blkTIM = true → s.bit TIM_PPS_PPS_IN_EN = true → (∀ n, s.tim.ppsLast = some n → 250000000 ≤ s.ticks - n) →
    ∃ t, exec .ppsInEdge s = .next t ∧ t.tim.ppsLast = some s.ticks ∧ t.tim.ppsWait = s.tim.ppsWait ++ [⟨s.tod.cut, s.ticks, false⟩] ∧
      t.reg TIM_PPS_IN_S.addr = BitVec.ofNat 64 (s.tod.s * 65536)) ∧
  (∀ e r s, isUp s = true → s.tim.ppsWait = e :: r → ∃ t, exec .ppsInTodWaitExpiry s = .next t ∧ t.tim.ppsWait = r ∧
    (s.rd TIM_CTL_TSRC = 2 → e.stale = false → t.rd TIM_STATUS_LAST_E = unsigned 32 (clampInt (-(2 ^ 31)) (2 ^ 31 - 1)
      ((nearestSecond e.c : Int) * 1000000000 * 65536 + signed 16 (s.rd TIM_PPS_PPS_IN_OFS) * 65536 - e.c.units)))) ∧
  (∀ s, isUp s = true → s.rd TIM_CTL_TSRC = 2 → (s.rd TIM_STATUS_STATE = 1 ∨ s.rd TIM_STATUS_STATE = 2) →
    ∃ t, exec .ppsInSourceLost s = .next t ∧ t.rd TIM_STATUS_STATE = 3 ∧ t.rd TIM_RATE_RATE = s.rd TIM_RATE_INTEG ∧ t.bit TIM_EVT_HOLD = true) ∧
  (∀ s, isUp s = true → (s.rd TIM_STATUS_STATE = 1 ∨ s.rd TIM_STATUS_STATE = 2) →
    ∃ t, exec .servoSampleTimeout s = .next t ∧ t.rd TIM_STATUS_STATE = 3 ∧ t.rd TIM_RATE_RATE = s.rd TIM_RATE_INTEG ∧ t.bit TIM_EVT_HOLD = true) ∧
  (∀ s, isUp s = true → s.rd TIM_STATUS_STATE = 3 →
    ∃ t, exec .servoHoldoverExpiry s = .next t ∧ t.rd TIM_STATUS_STATE = 0 ∧ t.bit TIM_EVT_FREE_EVT = true) ∧
  (∀ i (p : LPort) v s, Accepted i (TIM_TSQ_CTL p).addr (withField v (TIM_TSQ_CTL_POP p) 1) s → (s.tsqOf p).length ≤ 512 →
    ∃ t, exec (.tsqPop i p v) s = .next t ∧ t.tsqOf p = (s.tsqOf p).drop 1 ∧
      (inField v (TIM_TSQ_CTL_LOG_CLR p) = 0 → t.rd (TIM_TSQ_CTL_COUNT p) = (s.tsqOf p).length - 1)) ∧
  (∀ i (p : LPort) v s, Accepted i (TIM_TSQ_CTL p).addr (withField v (TIM_TSQ_CTL_LOG_CLR p) 1) s →
    ∃ t, exec (.tsqLogClear i p v) s = .next t ∧ t.rd (TIM_TSQ_CTL_LOSS_N p) = 0 ∧ ∀ n < 4, t.reg (TIM_TSQ_LOSS p n).addr = 0)

/-- The word of TSK_IND_CMD and of ACU_IND_CMD that asks for an access, with RD. -/
def Sys2Proof.Spec.tskGo (v : Word) (rd : Nat) : Word := withField (withField v TSK_IND_CMD_GO 1) TSK_IND_CMD_RD rd

/-- Tasks: posts, event sources, assignment, completion, cancelling and enabling, contexts and windows complete.
(14_control_complex.md R321, 14_control_complex.md R322, 14_control_complex.md R323, 14_control_complex.md R324,
14_control_complex.md R325, 14_control_complex.md R330, 14_control_complex.md R332) -/
def Obligations.TasksComplete : Prop :=
  (∀ c lv v s, Accepted (.core c lv) TSK_POST.addr v s → s.tsk.posts.length < 1024 →
    ∃ t, exec (.taskPost (.core c lv) v) s = .next t ∧
      t.tsk.posts = s.tsk.posts ++ [(inField v TSK_POST_TASK, inField v TSK_POST_FLAG)]) ∧
  (∀ c lv v s, Accepted (.core c lv) TSK_POST.addr v s → 1024 ≤ s.tsk.posts.length →
    ∃ t, exec (.taskPost (.core c lv) v) s = .next t ∧ t.tsk.posts = s.tsk.posts ∧
      t.tsk.stalled = s.tsk.stalled ++ [(c.val, inField v TSK_POST_TASK, inField v TSK_POST_FLAG)]) ∧
  (∀ s n f rest, isUp s = true → s.runs blkTSK = true → s.tsk.posts = (n, f) :: rest → s.tsk.stalled = [] →
    ∃ t, exec .postApply s = .next t ∧ t.tsk.posts = rest ∧ (t.task n).evt.testBit f = true) ∧
  (∀ (n : Fin 64) s, isUp s = true → s.runs blkTSK = true → n = 10 ∨ n = 14 ∨ sourceHolds s n = true → s.bit (TSK_SRC_EN n) = true →
    ∃ t, exec (.hwEventSource n) s = .next t ∧ (t.task (s.rd (TSK_SRC_TASK n))).evt.testBit (s.rd (TSK_SRC_FLAG n)) = true) ∧
  (∀ s n l c, isUp s = true → s.runs blkTSK = true → readyInOrder s = n :: l → coreFor s (s.task n) = some c → c < 8 → n < 4096 → (s.task n).prio < 16 →
    ∃ t, exec .taskAssign s = .next t ∧ (t.task n).st = .running ∧ t.bit (TSK_CORE_CUR_VALID c) = true ∧ t.rd (TSK_CORE_CUR_TASK c) = n ∧
      ((s.task n).evt &&& (s.task n).mask < 2 ^ 64 → t.rd (TSK_CORE_FLG c) = (s.task n).evt &&& (s.task n).mask)) ∧
  (∀ i (c : Fin 8) v s n, Accepted i (TSK_CORE_CMD c).addr (withField (withField v (TSK_CORE_CMD_DONE c) 1) (TSK_CORE_CMD_REQUEUE c) 0) s →
    s.bit (TSK_CORE_CUR_VALID c) = true → n = s.rd (TSK_CORE_CUR_TASK c) →
    ∃ t, exec (.taskDone i c v) s = .next t ∧ t.bit (TSK_CORE_CUR_VALID c) = false ∧ (t.task n).st ≠ .running ∧
      (t.task n).dep = (s.task n).depInit) ∧
  (∀ i (c : Fin 8) v s n, Accepted i (TSK_CORE_CMD c).addr (withField (withField v (TSK_CORE_CMD_DONE c) 1) (TSK_CORE_CMD_REQUEUE c) 1) s →
    s.bit (TSK_CORE_CUR_VALID c) = true → n = s.rd (TSK_CORE_CUR_TASK c) →
    ∃ t, exec (.taskYield i c v) s = .next t ∧ t.bit (TSK_CORE_CUR_VALID c) = false ∧ (t.task n).st ≠ .running ∧
      (t.task n).dep = (s.task n).dep ∧ ∀ f, (s.rd (TSK_CORE_FLG c)).testBit f = true → (t.task n).evt.testBit f = true) ∧
  (∀ i v s, Accepted i TSK_TASK_CMD.addr (withField v TSK_TASK_CMD_OP 1) s →
    ∃ t, exec (.taskCancel i v) s = .next t ∧ (t.task (inField v TSK_TASK_CMD_TASK)).en = false) ∧
  (∀ i v s, Accepted i TSK_TASK_CMD.addr (withField v TSK_TASK_CMD_OP 2) s →
    ∃ t, exec (.taskEnable i v) s = .next t ∧ (t.task (inField v TSK_TASK_CMD_TASK)).en = true) ∧
  (∀ i v s n, Accepted i TSK_IND_CMD.addr (tskGo v 1) s → s.bit TSK_IND_CMD_GO = false → n = inField v TSK_IND_CMD_INDEX →
    ∃ t, exec (.tskIndRead i v) s = .next t ∧ ∀ k, k < 6 →
      t.reg (TSK_IND_DATA k).addr = BitVec.ofNat 64 ((taskWords (s.task n)).getD k 0)) ∧
  (∀ i v s n u, Accepted i TSK_IND_CMD.addr (tskGo v 0) s → s.bit TSK_IND_CMD_GO = false → n = inField v TSK_IND_CMD_INDEX →
    u = taskFrom (s.task n) (tskData s) → (s.task n).en = false → (s.task n).st = .idle → u.aff ≠ 0 →
    [u.s0, u.s1, u.s2].any (fun x => x.v && x.task == n) = false →
    ∃ t, exec (.tskIndWrite i v) s = .next t ∧ t.task n = u) ∧
  (∀ i v s w, Accepted i ACU_IND_CMD.addr (tskGo v 1) s → s.bit ACU_IND_CMD_GO = false → w = s.acuWin (inField v ACU_IND_CMD_INDEX) →
    ∃ t, exec (.acuWindowRead i v) s = .next t ∧
      t.reg (ACU_WIN_DATA 0).addr = BitVec.ofNat 64 (b2n w.en * 2 ^ 63 + b2n w.cache * 2 ^ 62 + w.l3src * 2 ^ 60 + w.perm * 2 ^ 48 + w.base * 2 ^ 12) ∧
      t.reg (ACU_WIN_DATA 1).addr = BitVec.ofNat 64 (w.limit * 2 ^ 12)) ∧
  (∀ i v s d e, Accepted i ACU_IND_CMD.addr (tskGo v 0) s → s.bit ACU_IND_CMD_GO = false → d = s.reg (ACU_WIN_DATA 0).addr →
    e = s.reg (ACU_WIN_DATA 1).addr → fieldOf d 12 36 ≤ fieldOf e 12 36 →
    ∃ t, exec (.acuWindowWrite i v) s = .next t ∧ t.acuWin (inField v ACU_IND_CMD_INDEX) =
      { en := fieldOf d 63 1 == 1, cache := fieldOf d 62 1 == 1, l3src := fieldOf d 60 2, perm := fieldOf d 48 6,
        base := fieldOf d 12 36, limit := fieldOf e 12 36 })

/-- The word of PWR_REQ that makes a request for a state. -/
def Sys2Proof.Spec.reqGo (v : Word) (n : Nat) : Word := withField (withField v PWR_REQ_GO 1) PWR_REQ_STATE n

/-- A wake source is armed, enabled and available, and the replay FIFO has room (R344, R346). -/
def Sys2Proof.Spec.Latches (src : Nat) (s : State) : Prop :=
  s.pwr.armed = true ∧ (s.rd PWR_WAKE_EN_EN).testBit src = true ∧ wakeIn src (wakeFrom s) = true ∧ s.pwr.fifo.length < 8

/-- Power states: requests, entries, transitions and their ends, wake sources, wakes and the wake log complete.
(15_power_states.md R334, 15_power_states.md R339, 15_power_states.md R340, 15_power_states.md R344,
15_power_states.md R346, 15_power_states.md R347, 15_power_states.md R348, 15_power_states.md R349) -/
def Obligations.PowerStatesComplete : Prop :=
  (∀ i v s, Accepted i PWR_REQ.addr (reqGo v 0) s → s.pwr.trans = none →
    ∃ t, exec (.powerRequestFull i v) s = .next t ∧ t.pwr.trans = some (.units, .full) ∧ t.pwr.off = 0 ∧ t.bit PWR_STATUS_BUSY = true ∧
      t.rd PWR_STATUS_TARGET = 0) ∧
  (∀ i v s, Accepted i PWR_REQ.addr (reqGo v 1) s → s.pwr.trans = none →
    ∃ t, exec (.powerRequestTrim i v) s = .next t ∧ t.pwr.trans = some (.units, .trim) ∧ t.pwr.off = (s.reg PWR_TRIM.addr).toNat ∧
      t.bit PWR_STATUS_BUSY = true ∧ t.rd PWR_STATUS_TARGET = 1) ∧
  (∀ i v s, Accepted i PWR_REQ.addr (reqGo v 2) s → s.pwr.trans = none →
    ∃ t, exec (.powerRequestDoze i v) s = .next t ∧ t.pwr.trans = some (.units, .doze) ∧ t.pwr.off = (s.reg PWR_TRIM.addr).toNat ∧
      t.bit PWR_STATUS_BUSY = true ∧ t.rd PWR_STATUS_TARGET = 2) ∧
  (∀ i v s, Accepted i PWR_REQ.addr (reqGo v 3) s →
    ∃ t, exec (.powerRequestTaste i v) s = .next t ∧ t.pwr.pend = some .taste ∧ t.bit PWR_STATUS_PEND_V = true ∧ t.rd PWR_STATUS_PEND = 3) ∧
  (∀ i v s, Accepted i PWR_REQ.addr (reqGo v 4) s →
    ∃ t, exec (.powerRequestOff i v) s = .next t ∧ t.pwr.pend = some .off ∧ t.bit PWR_STATUS_PEND_V = true ∧ t.rd PWR_STATUS_PEND = 4) ∧
  (∀ (c : Fin 8) p s, isUp s = true → s.pwr.trans = none → s.pwr.pend = some p → p = .taste ∨ p = .off → lowState s = false →
    (∀ n < 8, n ≠ c.val → (s.hart n).running = true → (s.hart n).wfi = true) →
    ∃ t, exec (.powerEntryStart c) s = .next t ∧ t.pwr.trans = some (.entry, p) ∧ t.pwr.pend = none ∧ t.pwr.armed = true) ∧
  (∀ st s, s.pwr.trans = some (.entry, st) → st = .taste ∨ st = .off →
    ∃ t, exec .powerEntryComplete s = .next t ∧ t.pwr.cur = st ∧ t.pwr.trans = none ∧
      (s.pwr.fifo ≠ [] → t.pwr.wanted = true ∧ t.bit PWR_EVT_ABANDON = true)) ∧
  (∀ st s, s.pwr.trans = some (.units, st) → s.pwr.pend = none →
    ∃ t, exec .powerTransitionEnd s = .next t ∧ t.pwr.cur = st ∧ t.pwr.trans = none ∧ t.bit PWR_STATUS_BUSY = false ∧
      t.rd PWR_STATUS_CUR = st.code) ∧
  (∀ (n : BitVec 32) s, Latches 1 s → ∃ t, exec (.wakeI2c n) s = .next t ∧ t.pwr.fifo = s.pwr.fifo ++ [(1, n.toNat)] ∧
    t.rd PWR_WAKE_LOG_COUNT = s.pwr.fifo.length + 1) ∧
  (∀ (n : BitVec 32) s, Latches 2 s → ∃ t, exec (.wakeSpi n) s = .next t ∧ t.pwr.fifo = s.pwr.fifo ++ [(2, n.toNat)] ∧
    t.rd PWR_WAKE_LOG_COUNT = s.pwr.fifo.length + 1) ∧
  (∀ (P : PPort) (n : BitVec 32) s, Latches 3 s → (s.rd PWR_WAKE_EN_SD_PORT).testBit P = true →
    ∃ t, exec (.wakeSd P n) s = .next t ∧ t.pwr.fifo = s.pwr.fifo ++ [(3, n.toNat)] ∧
      t.rd PWR_WAKE_LOG_COUNT = s.pwr.fifo.length + 1) ∧
  (∀ (n : BitVec 32) s, Latches 4 s → ∃ t, exec (.wakeN n) s = .next t ∧ t.pwr.fifo = s.pwr.fifo ++ [(4, n.toNat)] ∧
    t.rd PWR_WAKE_LOG_COUNT = s.pwr.fifo.length + 1) ∧
  (∀ (n : BitVec 32) s, Latches 5 s → lowState s = true → s.rd PWR_TMR_MS ≠ 0 →
    ∃ t, exec (.wakeTimer n) s = .next t ∧ t.pwr.fifo = s.pwr.fifo ++ [(5, n.toNat)] ∧
      t.rd PWR_WAKE_LOG_COUNT = s.pwr.fifo.length + 1) ∧
  (∀ mgr safeN s, s.pwr.wanted = true → s.pwr.cur = .taste → s.pwr.trans = none →
    ∃ t, exec (.wakeStart mgr safeN) s = .next t ∧ t.pwr.trans = some (.wake, .full) ∧ t.rd PWR_STATUS_FROM = 3 ∧
      (t.hart 0).running = true ∧ (t.hart 0).mode = .m ∧ (t.hart 0).pc = s.rd PWR_RESUME_ADDR) ∧
  (∀ mgr safeN s, s.pwr.wanted = true → s.pwr.cur = .off → s.pwr.trans = none →
    ∃ t, exec (.wakeStart mgr safeN) s = .next t ∧ t.pwr.trans = some (.wake, .full) ∧ t.rd PWR_STATUS_FROM = 4 ∧ t.cfg.boot = .rom) ∧
  (∀ x s, s.pwr.trans = some (.wake, x) → s.pwr.attempts < 3 →
    ∃ t, exec .wakeRetry s = .next t ∧ t.pwr.attempts = s.pwr.attempts + 1 ∧
      t.rd PWR_CNT_RETRIES = satAdd PWR_CNT_RETRIES.w (s.rd PWR_CNT_RETRIES) 1) ∧
  (∀ x s, s.pwr.trans = some (.wake, x) → 3 ≤ s.pwr.attempts →
    ∃ t, exec .wakeRetry s = .next t ∧ t.pwr.trans = none ∧ t.pwr.cur = s.pwr.cur ∧ t.bit PWR_EVT_WAKE_FAIL = true) ∧
  (∀ x s, s.pwr.trans = some (.wake, x) → s.pwr.pend = none →
    ∃ t, exec .wakeComplete s = .next t ∧ t.pwr.cur = .full ∧ t.pwr.trans = none ∧ t.pwr.armed = false ∧ t.bit PWR_EVT_WAKE = true ∧
      t.rd PWR_CNT_WAKES = satAdd PWR_CNT_WAKES.w (s.rd PWR_CNT_WAKES) 1) ∧
  (∀ i v s, Accepted i PWR_WAKE_LOG.addr (withField v PWR_WAKE_LOG_POP 1) s → s.pwr.fifo.length ≤ 8 →
    ∃ t, exec (.wakeLogPop i v) s = .next t ∧ t.pwr.fifo = s.pwr.fifo.drop 1 ∧ t.rd PWR_WAKE_LOG_COUNT = s.pwr.fifo.length - 1)

/-- The word of PWR_CP_PM that asks for a mode. -/
def Sys2Proof.Spec.modeWord (k : Chan) (v : Word) (m : Nat) : Word := withField (withField v (PWR_CP_PM_GO k) 1) (PWR_CP_PM_MODE k) m

/-- Line power modes and Taste cycles: modes asked for and applied, dozes and sleeps ended, cycles run and out of time
complete. (15_power_states.md R336, 15_power_states.md R337, 15_power_states.md R338, 15_power_states.md R342,
15_power_states.md R343) -/
def Obligations.LineModesComplete : Prop :=
  (∀ i (k : Chan) v s, Accepted i (PWR_CP_PM k).addr (modeWord k v 0) s → frameNow s k + 2 ≤ s.rd (PWR_CP_FC_FC_EFF k) →
    ∃ t, exec (.lineModeAwake i k v) s = .next t ∧ t.lineSched k = some ⟨0, s.rd (PWR_CP_FC_FC_EFF k), inField v (PWR_CP_PM_DUR k)⟩) ∧
  (∀ i (k : Chan) v s, Accepted i (PWR_CP_PM k).addr (modeWord k v 1) s → frameNow s k + 2 ≤ s.rd (PWR_CP_FC_FC_EFF k) →
    ∃ t, exec (.lineModeDoze i k v) s = .next t ∧ t.lineSched k = some ⟨1, s.rd (PWR_CP_FC_FC_EFF k), inField v (PWR_CP_PM_DUR k)⟩) ∧
  (∀ i (k : Chan) v s, Accepted i (PWR_CP_PM k).addr (modeWord k v 2) s → frameNow s k + 2 ≤ s.rd (PWR_CP_FC_FC_EFF k) →
    s.rd (ACT_CP_STATE_STATE k) = 4 → 1 ≤ inField v (PWR_CP_PM_DUR k) → inField v (PWR_CP_PM_DUR k) ≤ 192 →
    ∃ t, exec (.lineModeSleep i k v) s = .next t ∧ t.lineSched k = some ⟨2, s.rd (PWR_CP_FC_FC_EFF k), inField v (PWR_CP_PM_DUR k)⟩) ∧
  (∀ (k : Chan) m s, isUp s = true → s.lineSched k = some m → m.fc ≤ frameNow s k → m.mode ≤ 2 →
    ∃ t, exec (.lineModeApply k) s = .next t ∧ t.lineSched k = none ∧ t.bit (PWR_CP_PM_ASLEEP k) = (m.mode == 2) ∧
      t.lineDoze k = (if m.mode = 1 then ⟨true, if m.dur = 0 then none else some (m.fc + m.dur)⟩ else {}) ∧
      (m.mode = 2 → t.sleepOf k = some (m.fc, m.dur))) ∧
  (∀ (k : Chan) n s, isUp s = true → s.lineDoze k = ⟨true, some n⟩ → n ≤ frameNow s k →
    ∃ t, exec (.dozeEnd k) s = .next t ∧ t.lineDoze k = {} ∧ t.bit (PWR_CP_PM_DOZE k) = (s.pwr.cur == .doze)) ∧
  (∀ (k : Chan) x s, isUp s = true → s.sleepOf k = some x → x.1 + x.2 ≤ frameNow s k + 8 → s.pwr.rxOff.testBit k = true →
    ∃ t, exec (.sleepEarlyWake k) s = .next t ∧ t.pwr.rxOff.testBit k = false) ∧
  (∀ (k : Chan) x s, isUp s = true → s.sleepOf k = some x → x.1 + x.2 + 8 ≤ frameNow s k → s.bit (PWR_CP_PM_ASLEEP k) = true →
    ∃ t, exec (.sleepEnd k) s = .next t ∧ t.bit (PWR_CP_PM_ASLEEP k) = false ∧ t.sleepOf k = none ∧
      (s.rd (DSF_SYNC_STATE k) = 3 → t.rd (ACT_CP_STATE_STATE k) = s.rd (ACT_CP_STATE_STATE k))) ∧
  (∀ a b (n : BitVec 32) s, s.pwr.cur = .taste → s.pwr.trans = none → s.pwr.cycle = false → tasteHit s a = true →
    ∃ t, exec (.tasteCycle true (some a) b n) s = .next t ∧ t.rd PWR_TASTE_STAT_MISS_RUN = 0 ∧
      t.rd PWR_TASTE_STAT_CYCLES = satAdd PWR_TASTE_STAT_CYCLES.w (s.rd PWR_TASTE_STAT_CYCLES) 1) ∧
  (∀ a b (n : BitVec 32) s, s.pwr.cur = .taste → s.pwr.trans = none → s.pwr.cycle = false →
    ∃ t, exec (.tasteCycle false a b n) s = .next t ∧
      t.rd PWR_TASTE_STAT_MISSES = satAdd PWR_TASTE_STAT_MISSES.w (s.rd PWR_TASTE_STAT_MISSES) 1 ∧
      t.rd PWR_TASTE_STAT_MISS_RUN = satAdd PWR_TASTE_STAT_MISS_RUN.w (s.rd PWR_TASTE_STAT_MISS_RUN) 1) ∧
  (∀ (n : BitVec 32) s, s.pwr.cycle = true →
    ∃ t, exec (.tasteCycleTimeout n) s = .next t ∧ t.pwr.cycle = false ∧
      t.rd PWR_TASTE_STAT_MISSES = satAdd PWR_TASTE_STAT_MISSES.w (s.rd PWR_TASTE_STAT_MISSES) 1 ∧
      t.rd PWR_TASTE_STAT_MISS_RUN = satAdd PWR_TASTE_STAT_MISS_RUN.w (s.rd PWR_TASTE_STAT_MISS_RUN) 1)

/-- A source that holds no record and that no quiet window covers. -/
def Sys2Proof.Spec.Unrecorded (src : Fin 64) (unit : BitVec 16) (s : State) : Prop :=
  isUp s = true ∧ (s.frec src).valid = false ∧ quietFor s src unit.toNat = none

/-- The words of FLT_REC_CMD: INDEX with GO and REL. -/
def Sys2Proof.Spec.recGo (v : Word) (rel : Nat) : Word := withField (withField v FLT_REC_CMD_GO 1) FLT_REC_CMD_REL rel

/-- Faults: a report latched, reactions, self-tests, quiet windows, the safe state, records and injection complete.
(16_faults.md R350, 16_faults.md R351, 16_faults.md R353, 16_faults.md R354, 16_faults.md R358, 16_faults.md R359,
16_faults.md R360, 16_faults.md R362, 16_faults.md R363, 01_architecture.md R18) -/
def Obligations.FaultsComplete : Prop :=
  (∀ src unit addr res s, Unrecorded src unit s →
    ∃ t, exec (.faultLatch src (.other unit 4 addr res)) s = .next t ∧ (t.frec src).valid = true ∧ (t.frec src).kind = 4 ∧
      (t.frec src).unit = unit.toNat ∧ (t.frec src).addr = addr.toNat) ∧
  (∀ src unit idx data flip addr w res s x b, Unrecorded src unit s → (∀ a, w ≠ .cellar a) → injArmed src idx.toNat s = false →
    checkFlipped data flip = .corrected x b →
    ∃ t, exec (.faultLatch src (.word unit idx data flip addr w res)) s = .next t ∧ (t.frec src).valid = true ∧ (t.frec src).kind = 1 ∧
      (t.frec src).unit = unit.toNat ∧ (t.frec src).addr = addr.toNat) ∧
  (∀ s r, isUp s = true → s.flt.running = some r → s.flt.acted = false → r.code ≤ 1 → r.res = .none → (s.frec r.src).valid = true →
    ∃ t, exec .faultReaction s = .next t ∧ (t.frec r.src).react = r.code) ∧
  (∀ s r, isUp s = true → s.flt.running = some r → s.flt.acted = false → r.code = 4 ∨ r.code = 5 →
    ∃ t, exec .faultReaction s = .next t ∧ t.bit FLT_SUMMARY_SAFE = true ∧
      (s.bit FLT_SUMMARY_SAFE = false → t.rd FLT_SUMMARY_SAFE_CAUSE = 1) ∧ (r.code = 5 → t.flt.resetDue = true)) ∧
  (∀ pool places buckets s r, isUp s = true → s.flt.running = some r → s.flt.testing = true → (s.frec r.src).valid = true →
    ∃ t, exec (.selfTestDone true pool places buckets) s = .next t ∧ (t.frec r.src).verdict = 2) ∧
  (∀ pool places buckets s r a, isUp s = true → s.flt.running = some r → s.flt.testing = true → (s.frec r.src).valid = true →
    rowArray r.res = some a → s.fltSpares a < 2 →
    ∃ t, exec (.selfTestDone false pool places buckets) s = .next t ∧ (t.frec r.src).verdict = 3) ∧
  (∀ s (w : QuietWin) l m, isUp s = true → s.flt.windows = l ++ w :: m → (∀ x ∈ l, x.ended = false) → w.ended = true →
    ∃ t, exec .quietWindowEnd s = .next t ∧ t = { s with flt := { s.flt with windows := l ++ m } }) ∧
  (∀ s, isUp s = true → s.flt.resetDue = true → ∃ t, exec .resetDeviceExpiry s = .next t ∧ t.cfg.boot = .inReset) ∧
  (∀ s, isUp s = true → s.runs blkFLT = true →
    ∃ t, exec .safeNLow s = .next t ∧ t.bit FLT_SUMMARY_SAFE_N = false ∧ t.bit FLT_SUMMARY_SAFE = true ∧
      (s.bit FLT_SUMMARY_SAFE = false → t.rd FLT_SUMMARY_SAFE_CAUSE = 2)) ∧
  (∀ s, isUp s = true → ∃ t, exec .safeNHigh s = .next t ∧ t.bit FLT_SUMMARY_SAFE_N = true) ∧
  (∀ i v s, Accepted i FLT_SAFE.addr (withField v FLT_SAFE_ENTER 1) s → levelOf i ≤ 1 → inField v FLT_SAFE_EXIT = 0 →
    s.bit FLT_SUMMARY_SAFE = false →
    ∃ t, exec (.safeEnter i v) s = .next t ∧ t.bit FLT_SUMMARY_SAFE = true ∧ t.rd FLT_SUMMARY_SAFE_CAUSE = 3) ∧
  (∀ i v s, Accepted i FLT_SAFE.addr (withField v FLT_SAFE_EXIT 1) s → levelOf i = 0 → inField v FLT_SAFE_ENTER = 0 →
    s.bit FLT_SUMMARY_SAFE_N = true → s.bit FLT_SUMMARY_FATAL = false → s.cfg.boot ≠ .failed →
    ∃ t, exec (.safeExit i v) s = .next t ∧ t.bit FLT_SUMMARY_SAFE = false) ∧
  (∀ i v s n, Accepted i FLT_REC_CMD.addr (recGo v 0) s → s.bit FLT_REC_CMD_GO = false → n = inField v FLT_REC_CMD_INDEX →
    ∃ t, exec (.recordRead i v) s = .next t ∧ ∀ k, k < 3 →
      t.reg (FLT_REC_DATA k).addr = BitVec.ofNat 64 ((recWords (s.frec n)).getD k 0)) ∧
  (∀ i v s n, Accepted i FLT_REC_CMD.addr (recGo v 1) s → s.bit FLT_REC_CMD_GO = false → n = inField v FLT_REC_CMD_INDEX →
    (s.frec n).valid = true → s.flt.running.map (·.src) ≠ some n →
    ∃ t, exec (.recordRelease i v) s = .next t ∧ (∀ e ∈ t.flt.isolated, e.1 = n → e.2.2 = true) ∧
      (n ≠ blkCEL → (t.frec n).valid = false)) ∧
  (∀ i v s, Accepted i FLT_INJ.addr (withField v FLT_INJ_ARM 1) s → levelOf i ≤ 1 →
    popcount 8 (inField v FLT_INJ_MASK) = 1 ∨ popcount 8 (inField v FLT_INJ_MASK) = 2 →
    ∃ t, exec (.injectArm i v) s = .next t ∧ t.bit FLT_INJ_ARM = true ∧ t.rd FLT_INJ_CHECKER = inField v FLT_INJ_CHECKER ∧
      t.rd FLT_INJ_MASK = inField v FLT_INJ_MASK) ∧
  (∀ i v s, Accepted i FLT_INJ.addr (withField (withField v FLT_INJ_ARM 0) FLT_INJ_CONT 1) s →
    ∃ t, exec (.injectDisarm i v) s = .next t ∧ t.bit FLT_INJ_ARM = false ∧ t.bit FLT_INJ_CONT = true)

/-- The container that the lanes of a link group carry. -/
def Sys2Proof.Spec.Carried (g : Nat) (line : List (List Bool)) (s : State) : Bytes := (casReceived g line s).1

/-- A sound container arrives on a link group that takes containers, and nothing discards it. -/
def Sys2Proof.Spec.Sound (g : Nat) (line : List (List Bool)) (s : State) : Prop :=
  isUp s = true ∧ s.runs blkCAS = true ∧ 4 ≤ grpState s g ∧ casGood (Carried g line s) = true ∧
    ((s.casGrp g).rxDrop = false ∨ (beAt (Carried g line s) 0 8).testBit 50 = true)

/-- A field of a container's header. -/
def Sys2Proof.Spec.headF (c : Bytes) (lo n : Nat) : Nat := fieldOf (wordAt c 0) lo n

/-- A command word of CAS_IND_CMD. -/
def Sys2Proof.Spec.casGo (v : Word) (rd : Nat) : Word := withField (withField v CAS_IND_CMD_GO 1) CAS_IND_CMD_RD rd

/-- Cascade link groups: bring-up, commas, failures, windows, containers, packets that arrive and indirect entries
complete. (17_cascade.md R367, 17_cascade.md R368, 17_cascade.md R369, 17_cascade.md R370, 17_cascade.md R371,
17_cascade.md R372, 17_cascade.md R376, 17_cascade.md R378, 17_cascade.md R379) -/
def Obligations.CascadeLinksComplete : Prop :=
  (∀ i (g : Fin 2) v s, Accepted i (CAS_GRP_CTL g).addr v s → inField v (CAS_GRP_CTL_EN g) = 1 → s.runs blkCAS = true → grpState s g = 0 →
    ∃ t, exec (.linkGroupEnable i g v) s = .next t ∧ grpState t g = 1 ∧ (t.casGrp g).offerLanes = inField v (CAS_GRP_CTL_LANE_EN g) ∧
      (t.casGrp g).offerRate = inField v (CAS_GRP_CTL_RATE_MAX g)) ∧
  (∀ i (g : Fin 2) v s, Accepted i (CAS_GRP_CTL g).addr v s → inField v (CAS_GRP_CTL_EN g) = 0 →
    ∃ t, exec (.linkGroupEnable i g v) s = .next t ∧ grpState t g = 0 ∧ (grpActive s g = true → t.bit (casDownEvt g) = true)) ∧
  (∀ (g : Fin 2) (lanes : BitVec 4) s, isUp s = true → s.runs blkCAS = true → grpState s g = 1 → lanes.toNat &&& (s.casGrp g).offerLanes ≠ 0 →
    ∃ t, exec (.terminationProbe g lanes) s = .next t ∧ grpState t g = 2 ∧ (t.casGrp g).lanes = lanes.toNat &&& (s.casGrp g).offerLanes) ∧
  (∀ (g : Fin 2) (l : BitVec 4) late s, isUp s = true → s.runs blkCAS = true → grpState s g = 2 → l.toNat &&& (s.casGrp g).lanes ≠ 0 →
    (l.toNat &&& (s.casGrp g).lanes = (s.casGrp g).lanes ∨ late = true) →
    ∃ t, exec (.trainDone g l late) s = .next t ∧ grpState t g = 3 ∧ (t.casGrp g).lanes = l.toNat &&& (s.casGrp g).lanes) ∧
  (∀ (g : Fin 2) (lanes : List (BitVec 58 × BitVec 32)) s, isUp s = true → s.runs blkCAS = true → grpState s g = 3 →
    lanes.length = popcount 4 (s.casGrp g).lanes → lanesAligned (lanes.map (fun e => e.2.toNat)) = true →
    ∃ t, exec (.commaLock ⟨g, lanes⟩) s = .next t ∧ grpState t g = 4 ∧ (t.casGrp g).rxl = lanes.map (fun e => laneAfterComma e.1) ∧
      (t.casGrp g).sent = casContainers ⟨2, casSrc s, 0, false, 15, (ctrlBody 1 (capsWords s g) s).1⟩) ∧
  (∀ (g : Fin 2) s, isUp s = true → s.runs blkCAS = true → 2 ≤ grpState s g → grpState s g ≤ 4 →
    ∃ t, exec (.linkStateTimeout g) s = .next t ∧ grpState t g = 1 ∧
      t.rd (CAS_GRP_CNT_RESTARTS g) = satAdd (CAS_GRP_CNT_RESTARTS g).w (s.rd (CAS_GRP_CNT_RESTARTS g)) 1) ∧
  (∀ (g : Fin 2) why s, isUp s = true → s.runs blkCAS = true → grpState s g = 5 → (why = .crcErrors → s.rd CAS_CTL_ERR_MAX < recentErrs s g) →
    ∃ t, exec (.linkGroupFail g why) s = .next t ∧ grpState t g = 1 ∧ t.bit (casDownEvt g) = true ∧
      t.rd (CAS_GRP_CNT_RESTARTS g) = satAdd (CAS_GRP_CNT_RESTARTS g).w (s.rd (CAS_GRP_CNT_RESTARTS g)) 1) ∧
  (∀ (g : Fin 2) (n : Fin 4) (k : BitVec 17) s, isUp s = true → s.runs blkCAS = true → 2 ≤ grpState s g →
    ∃ t, exec (.casEqWindow g n k) s = .next t ∧
      (k.toNat < s.rd (CAS_GRP_CTL_DENS_MIN g) → (t.rd (CAS_GRP_STAT_FROZEN g)).testBit n = true ∧ t.bit CAS_EVT_FREEZE = true) ∧
      (s.rd (CAS_GRP_CTL_DENS_MIN g) ≤ k.toNat → 1 ≤ (s.casGrp g).passes.getD n 0 → (t.rd (CAS_GRP_STAT_FROZEN g)).testBit n = false)) ∧
  (∀ (g : Fin 2) line a b order closed flash s, isUp s = true → s.runs blkCAS = true → 4 ≤ grpState s g → casGood (Carried g line s) = false →
    ∃ t, exec (.containerReceive g line a b order closed flash) s = .next t ∧ (t.casGrp g).rxDrop = true ∧ (t.casGrp g).rx = none ∧
      t.rd (CAS_GRP_CNT_CRC_ERR g) = satAdd (CAS_GRP_CNT_CRC_ERR g).w (s.rd (CAS_GRP_CNT_CRC_ERR g)) 1) ∧
  (∀ (g : Fin 2) line a b order closed flash s c, c = Carried g line s → Sound g line s → grpActive s g = true → headF c 60 4 = 1 →
    s.bit CAS_ROLE_ID_V = true → headF c 52 4 = s.rd CAS_ROLE_ID → headF c 50 1 = 1 → headF c 49 1 = 1 →
    ∃ t, exec (.containerReceive g line a b order closed flash) s = .next t ∧
      (t.casGrp g).arrived = (s.casGrp g).arrived ++ [slice c 8 (headF c 37 8)]) ∧
  (∀ (g : Fin 2) line a b order closed flash s c, c = Carried g line s → Sound g line s → grpActive s g = true → grpActive s (1 - g.val) = true →
    headF c 60 4 = 1 → headF c 52 4 ≠ s.rd CAS_ROLE_ID → headF c 45 4 ≠ 0 → s.rd CAS_ROLE_ROLE ≠ 3 →
    ∃ t, exec (.containerReceive g line a b order closed flash) s = .next t ∧
      (t.casGrp (1 - g.val)).fwd = (s.casGrp (1 - g.val)).fwd ++ [casContainer (beAt c 0 8 - 2 ^ 45) (c.drop 8)]) ∧
  (∀ (g : Fin 2) l r s d leaf, isUp s = true → (s.casGrp g).arrived = l :: r → d = beAt l 0 8 / 2 ^ 63 → leaf = beAt l 0 8 / 2 ^ 46 % 2 ^ 17 →
    pipeOn s (pipeOf d (leaf % 8 * 2)) = true → (s.pipe (pipeOf d (leaf % 8 * 2))).idle.length < 512 →
    ∃ t p, exec (.cascadeArrival g) s = .next t ∧ (t.casGrp g).arrived = r ∧
      (t.pipe (pipeOf d (leaf % 8 * 2))).idle = (s.pipe (pipeOf d (leaf % 8 * 2))).idle ++ [(.cascade, p)] ∧ p.toLeaf = some leaf ∧
      p.sid = beAt l 0 8 / 2 ^ 30 % 2 ^ 16 ∧ p.bytes = slice l 16 (beAt l 0 8 / 2 ^ 16 % 2 ^ 14)) ∧
  (∀ i v s, Accepted i CAS_IND_CMD.addr (casGo v 1) s → s.bit CAS_IND_CMD_GO = false →
    ∃ t, exec (.casIndRead i v) s = .next t ∧
      (inField v CAS_IND_CMD_TABLE = 0 → t.reg (CAS_IND_DATA 0).addr =
        BitVec.ofNat 64 (b2n (s.casRedirect (inField v CAS_IND_CMD_INDEX)).valid * 2 ^ 63 + (s.casRedirect (inField v CAS_IND_CMD_INDEX)).group)) ∧
      (inField v CAS_IND_CMD_TABLE = 2 → inField v CAS_IND_CMD_INDEX < 16 →
        t.reg (CAS_IND_DATA 0).addr = (s.casSerial (inField v CAS_IND_CMD_INDEX)).getD 0)) ∧
  (∀ i v s, Accepted i CAS_IND_CMD.addr (casGo v 0) s → s.bit CAS_IND_CMD_GO = false →
    ∃ t, exec (.casIndWrite i v) s = .next t ∧
      (inField v CAS_IND_CMD_TABLE = 0 → t.casRedirect (inField v CAS_IND_CMD_INDEX) =
        ⟨(s.reg (CAS_IND_DATA 0).addr).getLsbD 63, fieldOf (s.reg (CAS_IND_DATA 0).addr) 0 4⟩) ∧
      (inField v CAS_IND_CMD_TABLE = 1 → inField v CAS_IND_CMD_INDEX < 256 → fieldOf (s.reg (CAS_IND_DATA 0).addr) 0 16 ≠ 0xFFFF →
        t.casSlot (inField v CAS_IND_CMD_INDEX) = ⟨(s.reg (CAS_IND_DATA 0).addr).getLsbD 63, fieldOf (s.reg (CAS_IND_DATA 0).addr) 56 4,
          fieldOf (s.reg (CAS_IND_DATA 0).addr) 32 17, fieldOf (s.reg (CAS_IND_DATA 0).addr) 0 16⟩))

/-- What the lanes of a link group send, lanes that stand as they stood receive. (17_cascade.md R367, 17_cascade.md
R368, 17_cascade.md R369) -/
def Obligations.LanesCarryContainers : Prop :=
  ∀ (lanes : List CasLane) (n : Nat) (c : Bytes), lanes ≠ [] → c.length = 256 →
    groupTake lanes n (groupSend lanes n c).1 = (c, (groupSend lanes n c).2)

/-- A container of a CTRL operation arrives, sound. -/
def Sys2Proof.Spec.Ctrl (op g : Nat) (line : List (List Bool)) (s : State) : Prop :=
  Sound g line s ∧ casIs 2 op (Carried g line s) = true ∧ headF (Carried g line s) 60 4 = 2

/-- It is a broadcast on an ACTIVE group, of another member, with a SEQ newer than the last one of its sender. -/
def Sys2Proof.Spec.News (op g : Nat) (line : List (List Bool)) (s : State) : Prop :=
  Ctrl op g line s ∧ grpActive s g = true ∧ headF (Carried g line s) 51 1 = 1 ∧
    (s.bit CAS_ROLE_ID_V = true → headF (Carried g line s) 56 4 ≠ s.rd CAS_ROLE_ID) ∧
    ∀ l, s.casLastSeq (headF (Carried g line s) 56 4) = some l →
      1 ≤ (fieldOf (wordAt (Carried g line s) 8) 40 16 + 65536 - l) % 65536 ∧ (fieldOf (wordAt (Carried g line s) 8) 40 16 + 65536 - l) % 65536 ≤ 32767

/-- The payload of the container that the lanes carry. -/
def Sys2Proof.Spec.Payload (g : Nat) (line : List (List Bool)) (s : State) : Bytes := (Carried g line s).drop 8

/-- A message of this device's own that waits for a link group. -/
def Sys2Proof.Spec.Sends (g : Nat) (o : CasOut) (s t : State) : Prop := (t.casGrp g).own = (s.casGrp g).own ++ [o]

/-- The cascade group: control messages, election, membership, boot service and time complete. (17_cascade.md R371,
17_cascade.md R373, 17_cascade.md R374, 17_cascade.md R375, 17_cascade.md R376, 17_cascade.md R377, 17_cascade.md
R380) -/
def Obligations.CascadeGroupComplete : Prop :=
  (∀ (g : Fin 2) line a b order closed flash s, Ctrl 1 g line s → grpState s g = 4 → fieldOf (wordAt (Payload g line s) 16) 56 8 = 1 →
    (s.casGrp g).lanes &&& fieldOf (wordAt (Payload g line s) 16) 52 4 ≠ 0 →
    ∃ t, exec (.caps g line a b order closed flash) s = .next t ∧ grpState t g = 5 ∧
      t.rd (CAS_GRP_STAT_LANES g) = (s.casGrp g).lanes &&& fieldOf (wordAt (Payload g line s) 16) 52 4) ∧
  (∀ (g : Fin 2) line a b order closed flash s, Ctrl 2 g line s →
    ∃ t, exec (.heartbeat g line a b order closed flash) s = .next t ∧ t.rd (CAS_GRP_STAT_PEER g) = fieldOf (wordAt (Payload g line s) 16) 60 4 ∧
      (keyLower (fieldOf (wordAt (Payload g line s) 16) 58 1 == 0) (wordAt (Payload g line s) 24) s.cas.candLow s.cas.candSerial = true →
        t.cas.candSerial = wordAt (Payload g line s) 24)) ∧
  (∀ (g : Fin 2) line a b order closed flash s n, News 3 g line s → s.rd CAS_ROLE_ROLE = 1 → joinId s (wordAt (Payload g line s) 8) = some n →
    ∃ t, exec (.join g line a b order closed flash) s = .next t ∧ t.casSerial n = some (wordAt (Payload g line s) 8) ∧
      (t.rd CAS_ROLE_PRESENT).testBit n = true ∧ t.rd CAS_ROLE_EPOCH = (s.rd CAS_ROLE_EPOCH + 1) % 65536) ∧
  (∀ (g : Fin 2) line a b order closed flash s, News 4 g line s → s.rd CAS_ROLE_ROLE ≠ 1 → wordAt (Payload g line s) 8 = serial s →
    fieldOf (wordAt (Payload g line s) 16) 59 1 = 0 →
    ∃ t, exec (.assign g line a b order closed flash) s = .next t ∧ t.rd CAS_ROLE_ROLE = 2 ∧ t.bit CAS_ROLE_ID_V = true ∧
      t.rd CAS_ROLE_ID = fieldOf (wordAt (Payload g line s) 16) 60 4 ∧ t.rd CAS_ROLE_MGR = headF (Carried g line s) 56 4) ∧
  (∀ (g : Fin 2) line a b order closed flash s v, News 5 g line s → v = viewOf (Payload g line s) → s.rd CAS_ROLE_ROLE = 0 ∨ s.rd CAS_ROLE_ROLE = 2 →
    (s.cas.ring = [] ∨ (1 ≤ (v.1 + 65536 - s.rd CAS_ROLE_EPOCH) % 65536 ∧ (v.1 + 65536 - s.rd CAS_ROLE_EPOCH) % 65536 ≤ 32767)) →
    s.bit CAS_ROLE_ID_V = true → v.2.1.testBit (s.rd CAS_ROLE_ID) = true →
    ∃ t, exec (.view g line a b order closed flash) s = .next t ∧ t.rd CAS_ROLE_ROLE = 2 ∧ t.rd CAS_ROLE_EPOCH = v.1 ∧
      t.rd CAS_ROLE_PRESENT = v.2.1 ∧ t.cas.ring = v.2.2.2 ∧ t.bit CAS_EVT_VIEW_CHG = true) ∧
  (∀ (g : Fin 2) line a b order closed d s, Ctrl 6 g line s → grpActive s g = true → headF (Carried g line s) 51 1 = 0 →
    s.bit CAS_ROLE_ID_V = true → headF (Carried g line s) 52 4 = s.rd CAS_ROLE_ID → s.rd CAS_ROLE_ROLE = 1 →
    ∃ t, exec (.readReq g line a b order closed (some d)) s = .next t ∧
      Sends (casRoute s (headF (Carried g line s) 56 4))
        ⟨3, casSrc s, headF (Carried g line s) 56 4, false, 15, d.take (fieldOf (wordAt (Payload g line s) 16) 0 16)⟩ s t) ∧
  (∀ (g : Fin 2) line a b order closed flash s, News 7 g line s → s.bit CAS_CTL_TIME_EN = true → s.rd CAS_ROLE_ROLE = 2 → s.rd TIM_CTL_TSRC = 3 →
    ∃ t, exec (.time g line a b order closed flash) s = .next t ∧ t.rd TIM_STATUS_LAST_E = unsigned 32 (clampInt (-(2 ^ 31)) (2 ^ 31 - 1)
      (signed 64 (unsigned 64 ((timeOf (beAt (Payload g line s) 8 8) (beAt (Payload g line s) 16 8)).units + signed 64 (beAt (Payload g line s) 24 8)
        + linkDelay s g - (Tod.ofStamp a).units))))) ∧
  (∀ (g : Fin 2) line a b order closed flash s, Ctrl 8 g line s →
    ∃ t, exec (.probe g line a b order closed flash) s = .next t ∧
      Sends g ⟨2, casSrc s, 0, false, 15, (ctrlBody 9 ([beAt (Payload g line s) 8 8, beAt (Payload g line s) 16 8] ++ timeWords (Tod.ofStamp a) ++
        timeWords (Tod.ofStamp b)) s).1⟩ s t) ∧
  (∀ (g : Fin 2) line a b order closed flash s (q : Nat → Int), Ctrl 9 g line s →
    (∀ n, q n = (timeOf (beAt (Payload g line s) (8 + 16 * n) 8) (beAt (Payload g line s) (16 + 16 * n) 8)).units) →
    ∃ t, exec (.probeResp g line a b order closed flash) s = .next t ∧
      (t.casGrp g).delay = some ((((Tod.ofStamp a).units - q 0) - (q 2 - q 1)) / 2)) ∧
  (∀ (g : Fin 2) line a b order closed flash s, Sound g line s → grpActive s g = true → casIs 3 0 (Carried g line s) = true →
    headF (Carried g line s) 60 4 = 3 → s.bit CAS_ROLE_ID_V = true → headF (Carried g line s) 52 4 = s.rd CAS_ROLE_ID →
    headF (Carried g line s) 50 1 = 1 → headF (Carried g line s) 49 1 = 1 →
    ∃ t, exec (.bootContainer g line a b order closed flash) s = .next t ∧
      t.cas.bootRx = s.cas.bootRx ++ slice (Carried g line s) 8 (headF (Carried g line s) 37 8)) ∧
  (∀ (g : Fin 2) s, isUp s = true → s.runs blkCAS = true → grpActive s g = true →
    ∃ t, exec .heartbeatTick s = .next t ∧ (t.casGrp g).own.length = (s.casGrp g).own.length + 2 ∧
      (s.rd CAS_ROLE_ROLE = 2 → t.cas.mgrHeard = false ∧ t.cas.mgrEmpty = if s.cas.mgrHeard then 0 else s.cas.mgrEmpty + 1)) ∧
  (∀ order closed s n, isUp s = true → s.runs blkCAS = true → s.rd CAS_ROLE_ROLE = 1 → n < 16 → (s.rd CAS_ROLE_PRESENT).testBit n = true →
    n ≠ s.rd CAS_ROLE_ID → s.cas.heard.testBit n = false → 2 ≤ s.casEmpties n →
    ∃ t, exec (.memberCheckTick [] order closed) s = .next t ∧ (t.rd CAS_ROLE_PRESENT).testBit n = false ∧ t.cas.heard = 0 ∧
      t.rd CAS_ROLE_EPOCH = (s.rd CAS_ROLE_EPOCH + 1) % 65536) ∧
  (∀ order closed s, isUp s = true → s.runs blkCAS = true → candOwn s = true → s.rd CAS_ROLE_ROLE = 0 →
    ∃ t, exec (.electionTimeout order closed) s = .next t ∧ t.rd CAS_ROLE_ROLE = 1 ∧ t.bit CAS_ROLE_ID_V = true ∧
      t.rd CAS_ROLE_ID = (if s.bit CAS_ROLE_ID_V then s.rd CAS_ROLE_ID else 0) ∧ (t.rd CAS_ROLE_PRESENT).testBit (t.rd CAS_ROLE_ID) = true) ∧
  (∀ s, isUp s = true → s.runs blkCAS = true → s.rd CAS_ROLE_ROLE = 2 → 3 ≤ s.cas.mgrEmpty →
    ∃ t, exec .mgrLost s = .next t ∧ t.rd CAS_ROLE_ROLE = 0 ∧ t.bit CAS_EVT_MGR_LOST = true ∧ candOwn t = true ∧
      t.rd CAS_ROLE_ID = s.rd CAS_ROLE_ID) ∧
  (∀ s, isUp s = true → s.runs blkCAS = true → s.rd CAS_ROLE_ROLE = 3 →
    ∃ t, exec .joinRetry s = .next t ∧ ∀ g < 2, Sends g ⟨2, casSrc s, 0, true, 15, (ctrlBody 3 [(serial s).toNat] s).1⟩ s t) ∧
  (∀ s, isUp s = true → s.cfg.casBoot = true → s.cfg.boot = .sfdpDone → (s.rd CAS_ROLE_ROLE = 2 → s.bit CAS_ROLE_ID_V = false) →
    ∃ t, exec .bootWaitExpiry s = .next t ∧ t.cfg.boot = .failed ∧ t.rd CFG_BOOT_STATUS_FAIL_A = 6 ∧ t.rd CFG_BOOT_STATUS_FAIL_B = 6)

/-- Clocks: core-clock switch, CPLL setting, lock and loss, SPLL loss, crystal, synchronisation references and
measurement complete. (18_clocks_and_crossings.md R382, 18_clocks_and_crossings.md R383, 18_clocks_and_crossings.md
R384, 18_clocks_and_crossings.md R385, 18_clocks_and_crossings.md R386, 18_clocks_and_crossings.md R387,
19_package_and_electrical.md R405, 13_time.md R297) -/
def Obligations.ClocksComplete : Prop :=
  (∀ i v s, Accepted i CLK_CORE.addr v s → 8 ≤ inField v CLK_CORE_FREQ → inField v CLK_CORE_FREQ ≤ 20 → inField v CLK_CORE_FREQ = s.rd CLK_CORE_FREQ →
    inField v CLK_CORE_CPLL_EN = s.rd CLK_CORE_CPLL_EN → (inField v CLK_CORE_SEL = 1 → s.bit CLK_STATUS_CPLL_LOCK = true) →
    ∃ t, exec (.coreClockSwitch i v) s = .next t ∧ t.rd CLK_STATUS_CORE_SRC = inField v CLK_CORE_SEL ∧ t.rd CLK_CORE_SEL = inField v CLK_CORE_SEL) ∧
  (∀ i v s, Accepted i CLK_CORE.addr v s → 8 ≤ inField v CLK_CORE_FREQ → inField v CLK_CORE_FREQ ≤ 20 → inField v CLK_CORE_SEL = 0 →
    s.bit CLK_CORE_SEL = false → s.bit CLK_STATUS_CORE_SRC = false →
    ∃ t, exec (.cpllConfig i v) s = .next t ∧ t.rd CLK_CORE_FREQ = inField v CLK_CORE_FREQ ∧ t.rd CLK_CORE_CPLL_EN = inField v CLK_CORE_CPLL_EN ∧
      (inField v CLK_CORE_FREQ ≠ s.rd CLK_CORE_FREQ ∨ inField v CLK_CORE_CPLL_EN ≠ s.rd CLK_CORE_CPLL_EN → t.bit CLK_STATUS_CPLL_LOCK = false)) ∧
  (∀ s, isUp s = true → s.bit CLK_CORE_CPLL_EN = true →
    ∃ t, exec .cpllLockAcquired s = .next t ∧ t.bit CLK_STATUS_CPLL_LOCK = true) ∧
  (∀ s, isUp s = true → s.bit CLK_STATUS_CPLL_LOCK = true → s.bit CLK_STATUS_CORE_SRC = true →
    ∃ t, exec .cpllLoss s = .next t ∧ t.bit CLK_STATUS_CPLL_LOCK = false ∧ t.bit CLK_STATUS_CORE_SRC = false ∧ t.bit CLK_EVT_CPLL_LOSS = true) ∧
  (∀ s, isUp s = true → s.bit CLK_STATUS_SPLL_LOCK = true →
    ∃ t, exec (.spllLoss false) s = .next t ∧ t.bit CLK_STATUS_SPLL_LOCK = false) ∧
  (∀ s, isUp s = true → s.bit CLK_STATUS_IOSC_OK = true →
    ∃ t, exec (.spllLoss true) s = .next t ∧ t.bit CLK_STATUS_IOSC_OK = false) ∧
  (∀ s, s.bit CLK_STATUS_XTAL_OK = true → s.clk.xtalDead = false →
    ∃ t, exec .xtalFail s = .next t ∧ t.bit CLK_STATUS_XTAL_OK = false ∧ t.bit CLK_STATUS_RC32 = true ∧ t.bit CLK_EVT_XTAL_FAIL = true ∧
      t.clk.xtalDead = true) ∧
  (∀ s, s.clk.xtalDead = false →
    ∃ t, exec .xtalAdopt s = .next t ∧ t.bit CLK_STATUS_XTAL_OK = true ∧ t.bit CLK_STATUS_RC32 = false) ∧
  (∀ s, s.bit CLK_STATUS_XTAL_OK = false → s.clk.xtalDead = false →
    ∃ t, exec .xtalAdoptTimeout s = .next t ∧ t.bit CLK_STATUS_RC32 = true ∧ t.bit CLK_EVT_XTAL_FAIL = true ∧ t.clk.xtalDead = true) ∧
  (∀ (n : Fin 2) s, isUp s = true → s.bit (srefBits n).1 = true →
    ∃ t, exec (.syncRefLoss n) s = .next t ∧ t.bit (srefBits n).1 = false ∧ t.bit (srefBits n).2.1 = true) ∧
  (∀ (n : Fin 2) s, isUp s = true → s.rd (srefBits n).2.2 ≠ 3 →
    ∃ t, exec (.syncRefRestore n) s = .next t ∧ t.bit (srefBits n).1 = true) ∧
  (∀ i v s, Accepted i CLK_MEAS.addr (withField v CLK_MEAS_GO 1) s → s.bit CLK_MEAS_GO = false → inField v CLK_MEAS_DOM ≤ 58 →
    ∃ t, exec (.clockMeasure i v) s = .next t ∧ t.bit CLK_MEAS_GO = true ∧ t.rd CLK_MEAS_DOM = inField v CLK_MEAS_DOM) ∧
  (∀ (n : BitVec 32) s, isUp s = true → s.bit CLK_MEAS_GO = true →
    ∃ t, exec (.clockMeasureDone n) s = .next t ∧ t.bit CLK_MEAS_GO = false ∧ t.rd CLK_MEAS_COUNT = n.toNat)
end

