-- ==== Sys2Proof/Laws/SMap.lean ====
section
/-! SUPPORT. What reading and writing a sparse map do: a read after a write at the same key gives the value, a
write leaves every other key alone, and a write keeps the canonical form. -/

namespace Sys2Proof.Machine

variable {α : Type} [DecidableEq α] (d : Nat → α)

theorem SMap.get_dropWhile_le (t : SMap α) (k j : Nat) (h : k < j) :
    SMap.get d (t.dropWhile (fun p => p.1 ≤ k)) j = SMap.get d t j := by
  induction t with
  | nil => rfl
  | cons p t ih =>
    obtain ⟨i, w⟩ := p
    by_cases hi : i ≤ k
    · rw [List.dropWhile_cons_of_pos (by simpa using hi), ih, SMap.get, if_neg (by omega), if_neg (by omega)]
    · rw [List.dropWhile_cons_of_neg (by simpa using hi)]

theorem SMap.get_dropWhile_of_le (t : SMap α) (k j : Nat) (h : j ≤ k) :
    SMap.get d (t.dropWhile (fun p => p.1 ≤ k)) j = d j := by
  induction t with
  | nil => rfl
  | cons p t ih =>
    obtain ⟨i, w⟩ := p
    by_cases hi : i ≤ k
    · rw [List.dropWhile_cons_of_pos (by simpa using hi), ih]
    · rw [List.dropWhile_cons_of_neg (by simpa using hi), SMap.get, if_pos (by omega)]

@[simp] theorem SMap.get_nil (k : Nat) : SMap.get d ([] : SMap α) k = d k := rfl

@[simp] theorem SMap.get_set_same (m : SMap α) (k : Nat) (v : α) : SMap.get d (SMap.set d m k v) k = v := by
  induction m with
  | nil => by_cases h : v = d k <;> simp [SMap.set, SMap.get, h]
  | cons p t ih =>
    obtain ⟨j, w⟩ := p
    by_cases h1 : k < j
    · by_cases h : v = d k <;> simp [SMap.set, SMap.get, h1, h]
    · by_cases h2 : k = j
      · subst h2
        by_cases h : v = d k
        · simp [SMap.set, h, SMap.get_dropWhile_of_le]
        · simp [SMap.set, SMap.get, h]
      · simp [SMap.set, SMap.get, h1, h2, ih]

theorem SMap.get_set_ne (m : SMap α) (k j : Nat) (v : α) (h : j ≠ k) :
    SMap.get d (SMap.set d m k v) j = SMap.get d m j := by
  induction m with
  | nil =>
    by_cases hv : v = d k
    · simp [SMap.set, hv]
    · by_cases hl : j < k <;> simp [SMap.set, SMap.get, hv, h]
  | cons p t ih =>
    obtain ⟨i, w⟩ := p
    by_cases h1 : k < i
    · by_cases hv : v = d k
      · simp [SMap.set, h1, hv]
      · by_cases hl : j < k
        · simp [SMap.set, SMap.get, h1, hv, hl, Nat.lt_trans hl h1]
        · simp [SMap.set, SMap.get, h1, hv, hl, h]
    · by_cases h2 : k = i
      · subst h2
        by_cases hv : v = d k
        · by_cases hl : j < k
          · simp [SMap.set, SMap.get, hv, hl, SMap.get_dropWhile_of_le d t k j (by omega)]
          · simp [SMap.set, SMap.get, hv, hl, h, SMap.get_dropWhile_le d t k j (by omega)]
        · by_cases hl : j < k <;> simp [SMap.set, SMap.get, hv, hl, h]
      · by_cases hl : j < i
        · simp [SMap.set, SMap.get, h1, h2, hl]
        · by_cases he : j = i
          · simp [SMap.set, SMap.get, h1, h2, he]
          · simp [SMap.set, SMap.get, h1, h2, hl, he, ih]

theorem SMap.get_set (m : SMap α) (k j : Nat) (v : α) :
    SMap.get d (SMap.set d m k v) j = if j = k then v else SMap.get d m j := by
  by_cases h : j = k
  · subst h; simp
  · simp [h, SMap.get_set_ne d m k j v h]

theorem SMap.wfFrom_mono {lo lo' : Nat} {m : SMap α} (h : SMap.wfFrom d lo m = true) (hl : lo' ≤ lo) :
    SMap.wfFrom d lo' m = true := by
  cases m with
  | nil => rfl
  | cons p t =>
    obtain ⟨j, v⟩ := p
    simp only [SMap.wfFrom, Bool.and_eq_true, decide_eq_true_eq] at h ⊢
    exact ⟨⟨by omega, h.1.2⟩, h.2⟩

theorem SMap.wfFrom_dropWhile {lo k : Nat} {t : SMap α} (h : SMap.wfFrom d lo t = true) :
    SMap.wfFrom d lo (t.dropWhile (fun p => p.1 ≤ k)) = true := by
  induction t generalizing lo with
  | nil => rfl
  | cons p t ih =>
    obtain ⟨i, w⟩ := p
    have h' := h
    simp only [SMap.wfFrom, Bool.and_eq_true, decide_eq_true_eq] at h
    by_cases hi : i ≤ k
    · rw [List.dropWhile_cons_of_pos (by simpa using hi)]
      exact SMap.wfFrom_mono d (ih h.2) (by omega)
    · rw [List.dropWhile_cons_of_neg (by simpa using hi)]
      exact h'

theorem SMap.wfFrom_set {lo k : Nat} {m : SMap α} (v : α) (h : SMap.wfFrom d lo m = true) (hk : lo ≤ k) :
    SMap.wfFrom d lo (SMap.set d m k v) = true := by
  induction m generalizing lo with
  | nil => by_cases hv : v = d k <;> simp [SMap.set, SMap.wfFrom, hv, hk]
  | cons p t ih =>
    obtain ⟨j, w⟩ := p
    have h' := h
    simp only [SMap.wfFrom, Bool.and_eq_true, decide_eq_true_eq] at h
    by_cases h1 : k < j
    · by_cases hv : v = d k
      · simpa [SMap.set, h1, hv] using h'
      · simp [SMap.set, SMap.wfFrom, h1, hv, hk, h.1.2, h.2]
    · by_cases h2 : k = j
      · subst h2
        by_cases hv : v = d k
        · simp only [SMap.set, hv, lt_irrefl, ↓reduceIte]
          exact SMap.wfFrom_mono d (SMap.wfFrom_dropWhile d h.2) (by omega)
        · simp [SMap.set, SMap.wfFrom, hv, hk, h.2]
      · simp [SMap.set, SMap.wfFrom, h1, h2, h.1.1, h.1.2, ih h.2 (by omega)]

/-- Every write keeps the canonical form. -/
theorem SMap.wf_set {m : SMap α} (k : Nat) (v : α) (h : SMap.wf d m = true) :
    SMap.wf d (SMap.set d m k v) = true :=
  SMap.wfFrom_set d v h (Nat.zero_le k)

theorem SMap.wfFrom_mapVals (f : Nat → α → α) {lo : Nat} {m : SMap α} (h : SMap.wfFrom d lo m = true) :
    SMap.wfFrom d lo (SMap.mapVals d f m) = true := by
  induction m generalizing lo with
  | nil => rfl
  | cons p t ih =>
    obtain ⟨j, v⟩ := p
    simp only [SMap.wfFrom, Bool.and_eq_true, decide_eq_true_eq] at h
    have h2 := ih h.2
    by_cases hv : f j v = d j
    · simpa [SMap.mapVals, hv] using SMap.wfFrom_mono d h2 (by omega)
    · simp only [SMap.mapVals, List.map_cons, ne_eq, hv, not_false_eq_true, decide_true, List.filter_cons_of_pos]
      simp only [SMap.wfFrom, Bool.and_eq_true, decide_eq_true_eq]
      exact ⟨⟨h.1.1, by simpa using hv⟩, h2⟩

/-- A key that reads as no unlisted key does is listed. -/
theorem SMap.mem_of_get (m : SMap α) (k : Nat) (h : SMap.get d m k ≠ d k) : (k, SMap.get d m k) ∈ m := by
  induction m with
  | nil => exact absurd rfl h
  | cons e t ih =>
    obtain ⟨j, v⟩ := e
    unfold SMap.get at h ⊢
    by_cases h1 : k < j
    · rw [if_pos h1] at h; exact absurd rfl h
    · rw [if_neg h1] at h ⊢
      by_cases h2 : k = j
      · rw [if_pos h2]; subst h2; exact List.mem_cons_self
      · rw [if_neg h2] at h ⊢; exact List.mem_cons_of_mem _ (ih h)

theorem SMap.wfFrom_le {lo : Nat} {m : SMap α} (h : SMap.wfFrom d lo m = true) {e : Nat × α} (he : e ∈ m) : lo ≤ e.1 := by
  induction m generalizing lo with
  | nil => nomatch he
  | cons x t ih =>
    obtain ⟨j, v⟩ := x
    simp only [SMap.wfFrom, Bool.and_eq_true, decide_eq_true_eq] at h
    rcases List.mem_cons.1 he with rfl | he
    · exact h.1.1
    · have := ih h.2 he; omega

/-- In the canonical form a listed key reads as listed. -/
theorem SMap.get_of_mem {lo : Nat} {m : SMap α} (h : SMap.wfFrom d lo m = true) {k : Nat} {v : α} (he : (k, v) ∈ m) :
    SMap.get d m k = v := by
  induction m generalizing lo with
  | nil => nomatch he
  | cons x t ih =>
    obtain ⟨j, w⟩ := x
    simp only [SMap.wfFrom, Bool.and_eq_true, decide_eq_true_eq] at h
    unfold SMap.get
    rcases List.mem_cons.1 he with e | he
    · cases e; simp
    · have := SMap.wfFrom_le d h.2 he
      rw [if_neg (by simp at this; omega), if_neg (by simp at this; omega)]
      exact ih h.2 he

/-- In the canonical form no key is listed twice. -/
theorem SMap.keys_nodup {lo : Nat} {m : SMap α} (h : SMap.wfFrom d lo m = true) : (m.map (·.1)).Nodup := by
  induction m generalizing lo with
  | nil => exact List.nodup_nil
  | cons x t ih =>
    obtain ⟨j, w⟩ := x
    simp only [SMap.wfFrom, Bool.and_eq_true, decide_eq_true_eq] at h
    rw [List.map_cons, List.nodup_cons]
    refine ⟨fun hm => ?_, ih h.2⟩
    obtain ⟨e, he, hj⟩ := List.mem_map.1 hm
    have := SMap.wfFrom_le d h.2 he
    omega

end Sys2Proof.Machine
end

