-- ==== Sys2Proof/Laws/Regs.lean ====
section
/-! SUPPORT. Reading a register field after writing a register: the field written reads what was written, every other field
and every other register reads as before, and what the counters and event bits do. -/

namespace Sys2Proof.Machine

/-! ### Fields of a word -/

theorem fieldOf_lt (v : Word) (lo w : Nat) : fieldOf v lo w < 2 ^ w := Nat.mod_lt _ (Nat.two_pow_pos w)

theorem testBit_fieldOf (v : Word) (lo w i : Nat) :
    (fieldOf v lo w).testBit i = (decide (i < w) && v.toNat.testBit (lo + i)) := by
  simp [fieldOf, Nat.testBit_mod_two_pow, Nat.testBit_shiftRight]

/-- Bits of a word with a field replaced. -/
theorem testBit_setField (v : Word) {lo w : Nat} (h : lo + w ≤ 64) (n i : Nat) (hi : i < 64) :
    (setField v lo w n).toNat.testBit i =
      if lo ≤ i ∧ i < lo + w then n.testBit (i - lo) else v.toNat.testBit i := by
  have e : v.toNat % 2 ^ lo + (n % 2 ^ w) * 2 ^ lo + v.toNat >>> (lo + w) * 2 ^ (lo + w) =
      2 ^ lo * ((2 ^ w * (v.toNat >>> (lo + w))) + n % 2 ^ w) + v.toNat % 2 ^ lo := by
    rw [pow_add]; ring
  have h1 : v.toNat % 2 ^ lo < 2 ^ lo := Nat.mod_lt _ (Nat.two_pow_pos lo)
  have h2 : n % 2 ^ w < 2 ^ w := Nat.mod_lt _ (Nat.two_pow_pos w)
  unfold setField
  rw [BitVec.toNat_ofNat, Nat.testBit_mod_two_pow, e]
  simp only [hi, decide_true, Bool.true_and]
  rw [Nat.testBit_two_pow_mul_add _ h1]
  by_cases ha : i < lo
  · rw [if_pos ha, Nat.testBit_mod_two_pow, if_neg (by omega)]
    simp [ha]
  · rw [if_neg ha, Nat.testBit_two_pow_mul_add _ h2]
    by_cases hb : i < lo + w
    · rw [if_pos (by omega), if_pos ⟨by omega, hb⟩, Nat.testBit_mod_two_pow]
      simp [show i - lo < w by omega]
    · rw [if_neg (by omega), if_neg (by omega), Nat.testBit_shiftRight]
      congr 1; omega

theorem fieldOf_setField_same (v : Word) {lo w : Nat} (h : lo + w ≤ 64) (n : Nat) :
    fieldOf (setField v lo w n) lo w = n % 2 ^ w := by
  apply Nat.eq_of_testBit_eq
  intro i
  rw [testBit_fieldOf, Nat.testBit_mod_two_pow]
  by_cases hi : i < w
  · rw [testBit_setField v h n (lo + i) (by omega), if_pos ⟨by omega, by omega⟩]
    simp [hi]
  · simp [hi]

theorem fieldOf_setField_disj (v : Word) {lo w lo' w' : Nat} (h : lo + w ≤ 64) (h' : lo' + w' ≤ 64) (n : Nat)
    (hd : lo + w ≤ lo' ∨ lo' + w' ≤ lo) : fieldOf (setField v lo w n) lo' w' = fieldOf v lo' w' := by
  apply Nat.eq_of_testBit_eq
  intro i
  rw [testBit_fieldOf, testBit_fieldOf]
  by_cases hi : i < w'
  · rw [testBit_setField v h n (lo' + i) (by omega), if_neg (by omega)]
  · simp [hi]

/-! ### Registers -/

theorem reg_setReg (s : State) (a b : Nat) (v : Word) :
    (s.setReg a v).reg b = if b = a then v else s.reg b := SMap.get_set _ _ _ _ _

@[simp] theorem reg_setReg_same (s : State) (a : Nat) (v : Word) : (s.setReg a v).reg a = v := SMap.get_set_same _ _ _ _

theorem reg_setReg_ne (s : State) {a b : Nat} (v : Word) (h : b ≠ a) : (s.setReg a v).reg b = s.reg b :=
  SMap.get_set_ne _ _ _ _ _ h

theorem rd_eq (s : State) (r : RF) : s.rd r = fieldOf (s.reg r.addr) r.lo r.w := rfl

theorem rd_lt (s : State) (r : RF) : s.rd r < 2 ^ r.w := fieldOf_lt _ _ _

theorem rd_setReg_same (s : State) (r : RF) (v : Word) : (s.setReg r.addr v).rd r = fieldOf v r.lo r.w := by
  rw [rd_eq, reg_setReg_same]

theorem rd_setReg_ne (s : State) {a : Nat} {r : RF} (v : Word) (h : r.addr ≠ a) : (s.setReg a v).rd r = s.rd r := by
  rw [rd_eq, reg_setReg_ne s v h, rd_eq]

/-- A field written reads what was written, as far as its width goes. -/
theorem rd_wr_same (s : State) {r : RF} (n : Nat) (h : r.lo + r.w ≤ 64) : (s.wr r n).rd r = n % 2 ^ r.w := by
  unfold State.wr
  rw [rd_setReg_same, fieldOf_setField_same _ h]

/-- A write of a field leaves every field of another register alone. -/
theorem rd_wr_ne (s : State) {r q : RF} (n : Nat) (h : q.addr ≠ r.addr) : (s.wr r n).rd q = s.rd q := rd_setReg_ne s _ h

/-- A write of a field leaves the other fields of its register alone. -/
theorem rd_wr_disj (s : State) {r q : RF} (n : Nat) (ha : q.addr = r.addr) (h : r.lo + r.w ≤ 64) (h' : q.lo + q.w ≤ 64)
    (hd : r.lo + r.w ≤ q.lo ∨ q.lo + q.w ≤ r.lo) : (s.wr r n).rd q = s.rd q := by
  unfold State.wr
  rw [rd_eq, ha, reg_setReg_same, fieldOf_setField_disj _ h h' _ hd, rd_eq, ha]

/-- Whether a field that is read elsewhere is touched by a write is a matter of its place alone. -/
theorem rd_wr_other (s : State) {r q : RF} (n : Nat) (h : r.lo + r.w ≤ 64) (h' : q.lo + q.w ≤ 64)
    (hd : q.addr ≠ r.addr ∨ r.lo + r.w ≤ q.lo ∨ q.lo + q.w ≤ r.lo) : (s.wr r n).rd q = s.rd q := by
  by_cases ha : q.addr = r.addr
  · exact rd_wr_disj s n ha h h' (hd.resolve_left (fun x => x ha))
  · exact rd_wr_ne s n ha

theorem bit_eq (s : State) (r : RF) : s.bit r = (s.rd r != 0) := rfl

theorem put_eq (s : State) (r : RF) (b : Bool) : s.put r b = s.wr r (b2n b) := rfl

/-- A one-bit field set or cleared reads so. -/
theorem bit_put_same (s : State) {r : RF} (b : Bool) (h : r.lo + r.w ≤ 64) (hw : r.w = 1) : (s.put r b).bit r = b := by
  rw [bit_eq, put_eq, rd_wr_same s _ h, hw]
  cases b <;> rfl

theorem rd_put_same (s : State) {r : RF} (b : Bool) (h : r.lo + r.w ≤ 64) (hw : r.w = 1) : (s.put r b).rd r = b2n b := by
  rw [put_eq, rd_wr_same s _ h, hw]
  cases b <;> rfl

theorem rd_put_other (s : State) {r q : RF} (b : Bool) (h : r.lo + r.w ≤ 64) (h' : q.lo + q.w ≤ 64)
    (hd : q.addr ≠ r.addr ∨ r.lo + r.w ≤ q.lo ∨ q.lo + q.w ≤ r.lo) : (s.put r b).rd q = s.rd q :=
  rd_wr_other s _ h h' hd

theorem bit_put_other (s : State) {r q : RF} (b : Bool) (h : r.lo + r.w ≤ 64) (h' : q.lo + q.w ≤ 64)
    (hd : q.addr ≠ r.addr ∨ r.lo + r.w ≤ q.lo ∨ q.lo + q.w ≤ r.lo) : (s.put r b).bit q = s.bit q := by
  rw [bit_eq, rd_put_other s b h h' hd, bit_eq]

/-- A saturating counter rises by what is added, and stays at its largest value. -/
theorem rd_addTo_same (s : State) {r : RF} (n : Nat) (h : r.lo + r.w ≤ 64) :
    (s.addTo r n).rd r = min (2 ^ r.w - 1) (s.rd r + n) := by
  unfold State.addTo satAdd
  rw [rd_wr_same s _ h]
  exact Nat.mod_eq_of_lt (by have := Nat.two_pow_pos r.w; omega)

theorem rd_inc_same (s : State) {r : RF} (h : r.lo + r.w ≤ 64) :
    (s.inc r).rd r = min (2 ^ r.w - 1) (s.rd r + 1) := rd_addTo_same s 1 h

theorem rd_addTo_other (s : State) {r q : RF} (n : Nat) (h : r.lo + r.w ≤ 64) (h' : q.lo + q.w ≤ 64)
    (hd : q.addr ≠ r.addr ∨ r.lo + r.w ≤ q.lo ∨ q.lo + q.w ≤ r.lo) : (s.addTo r n).rd q = s.rd q :=
  rd_wr_other s _ h h' hd

theorem rd_inc_other (s : State) {r q : RF} (h : r.lo + r.w ≤ 64) (h' : q.lo + q.w ≤ 64)
    (hd : q.addr ≠ r.addr ∨ r.lo + r.w ≤ q.lo ∨ q.lo + q.w ≤ r.lo) : (s.inc r).rd q = s.rd q :=
  rd_wr_other s _ h h' hd

/-- The bits of a number with one bit set or cleared. -/
theorem testBit_withBit (n i : Nat) (b : Bool) (j : Nat) :
    (withBit n i b).testBit j = if j = i then b else n.testBit j := by
  have key : ∀ m : Nat, m.testBit i = false → ∀ j, (m + 2 ^ i).testBit j = if j = i then true else m.testBit j := by
    intro m hm j
    have hr : m % 2 ^ (i + 1) < 2 ^ (i + 1) := Nat.mod_lt _ (Nat.two_pow_pos _)
    have hb : (m % 2 ^ (i + 1)).testBit i = false := by simp [Nat.testBit_mod_two_pow, hm]
    have hlt : m % 2 ^ (i + 1) < 2 ^ i := by
      by_contra hc
      have := Nat.testBit_of_two_pow_le_and_two_pow_add_one_gt (Nat.le_of_not_lt hc) hr
      simp [this] at hb
    have hp : 2 ^ (i + 1) = 2 ^ i + 2 ^ i := by rw [pow_succ]; omega
    have e1 : m = 2 ^ (i + 1) * (m / 2 ^ (i + 1)) + m % 2 ^ (i + 1) := (Nat.div_add_mod _ _).symm
    have e2 : m + 2 ^ i = 2 ^ (i + 1) * (m / 2 ^ (i + 1)) + (2 ^ i + m % 2 ^ (i + 1)) := by omega
    rw [e2, Nat.testBit_two_pow_mul_add _ (by omega)]
    conv_rhs => rw [e1, Nat.testBit_two_pow_mul_add _ hr]
    by_cases hj : j < i + 1
    · rw [if_pos hj, if_pos hj]
      by_cases hji : j = i
      · subst hji
        simp [Nat.testBit_two_pow_add_eq, hb]
      · rw [if_neg hji, Nat.testBit_two_pow_add_gt (by omega)]
    · rw [if_neg hj, if_neg hj, if_neg (by omega)]
  unfold withBit
  by_cases h : n.testBit i = b
  · simp only [h, BEq.rfl, ↓reduceIte]
    by_cases hj : j = i
    · simp [hj, h]
    · simp [hj]
  · cases b with
    | true =>
      have hn : n.testBit i = false := by simpa using h
      simpa [hn] using key n hn j
    | false =>
      have hn : n.testBit i = true := by simpa using h
      have hle : 2 ^ i ≤ n := Nat.ge_two_pow_of_testBit hn
      have e : n = (n - 2 ^ i) + 2 ^ i := by omega
      have hm : (n - 2 ^ i).testBit i = false := by
        have := Nat.testBit_two_pow_add_eq (n - 2 ^ i) i
        rw [Nat.add_comm, ← e, hn] at this
        simpa using this.symm
      have hk := key (n - 2 ^ i) hm j
      rw [← e] at hk
      simp only [hn]
      by_cases hj : j = i
      · simp [hj, hm]
      · simp [hj, hk]

end Sys2Proof.Machine
end

