-- ==== Sys2Proof/Laws/State.lean ====
section
/-! SUPPORT. What each update of the state leaves alone: one lemma for each part of the state and each way to write a
register, a shadow value, a byte; and for each table that the value written is read back and no register changes. -/

namespace Sys2Proof.Machine

/-- An equation by definition, as a rewrite that the kernel does not check again by unfolding. -/
theorem by_refl {α : Type} {a b : α} (h : a = b) : a = b := h

@[simp] theorem setReg_pending (s : State) (a : Nat) (v : Word) : (s.setReg a v).pending = s.pending := rfl
@[simp] theorem setReg_shadow (s : State) (a : Nat) (v : Word) : (s.setReg a v).shadow = s.shadow := rfl
@[simp] theorem setReg_mem (s : State) (a : Nat) (v : Word) : (s.setReg a v).mem = s.mem := rfl
@[simp] theorem setReg_ecc (s : State) (a : Nat) (v : Word) : (s.setReg a v).ecc = s.ecc := rfl
@[simp] theorem setReg_free (s : State) (a : Nat) (v : Word) : (s.setReg a v).free = s.free := rfl
@[simp] theorem setReg_readOut (s : State) (a : Nat) (v : Word) : (s.setReg a v).readOut = s.readOut := rfl
@[simp] theorem setReg_ticks (s : State) (a : Nat) (v : Word) : (s.setReg a v).ticks = s.ticks := rfl
@[simp] theorem setReg_tod (s : State) (a : Nat) (v : Word) : (s.setReg a v).tod = s.tod := rfl
@[simp] theorem setReg_cfg (s : State) (a : Nat) (v : Word) : (s.setReg a v).cfg = s.cfg := rfl
@[simp] theorem setReg_flt (s : State) (a : Nat) (v : Word) : (s.setReg a v).flt = s.flt := rfl
@[simp] theorem setReg_tsk (s : State) (a : Nat) (v : Word) : (s.setReg a v).tsk = s.tsk := rfl
@[simp] theorem setReg_harts (s : State) (a : Nat) (v : Word) : (s.setReg a v).harts = s.harts := rfl
@[simp] theorem setReg_acu (s : State) (a : Nat) (v : Word) : (s.setReg a v).acu = s.acu := rfl
@[simp] theorem setReg_pwr (s : State) (a : Nat) (v : Word) : (s.setReg a v).pwr = s.pwr := rfl
@[simp] theorem setReg_cel (s : State) (a : Nat) (v : Word) : (s.setReg a v).cel = s.cel := rfl
@[simp] theorem setReg_sch (s : State) (a : Nat) (v : Word) : (s.setReg a v).sch = s.sch := rfl
@[simp] theorem setReg_gcl (s : State) (a : Nat) (v : Word) : (s.setReg a v).gcl = s.gcl := rfl
@[simp] theorem setReg_kln (s : State) (a : Nat) (v : Word) : (s.setReg a v).kln = s.kln := rfl
@[simp] theorem setReg_act (s : State) (a : Nat) (v : Word) : (s.setReg a v).act = s.act := rfl
@[simp] theorem setReg_ube (s : State) (a : Nat) (v : Word) : (s.setReg a v).ube = s.ube := rfl
@[simp] theorem setReg_chp (s : State) (a : Nat) (v : Word) : (s.setReg a v).chp = s.chp := rfl
@[simp] theorem setReg_dsf (s : State) (a : Nat) (v : Word) : (s.setReg a v).dsf = s.dsf := rfl
@[simp] theorem setReg_ohs (s : State) (a : Nat) (v : Word) : (s.setReg a v).ohs = s.ohs := rfl
@[simp] theorem setReg_pipes (s : State) (a : Nat) (v : Word) : (s.setReg a v).pipes = s.pipes := rfl
@[simp] theorem setReg_cls (s : State) (a : Nat) (v : Word) : (s.setReg a v).cls = s.cls := rfl
@[simp] theorem setReg_flw (s : State) (a : Nat) (v : Word) : (s.setReg a v).flw = s.flw := rfl
@[simp] theorem setReg_spc (s : State) (a : Nat) (v : Word) : (s.setReg a v).spc = s.spc := rfl
@[simp] theorem setReg_mac (s : State) (a : Nat) (v : Word) : (s.setReg a v).mac = s.mac := rfl
@[simp] theorem setReg_lph (s : State) (a : Nat) (v : Word) : (s.setReg a v).lph = s.lph := rfl
@[simp] theorem setReg_tim (s : State) (a : Nat) (v : Word) : (s.setReg a v).tim = s.tim := rfl
@[simp] theorem setReg_cas (s : State) (a : Nat) (v : Word) : (s.setReg a v).cas = s.cas := rfl
@[simp] theorem setReg_clk (s : State) (a : Nat) (v : Word) : (s.setReg a v).clk = s.clk := rfl
@[simp] theorem setReg_tap (s : State) (a : Nat) (v : Word) : (s.setReg a v).tap = s.tap := rfl
@[simp] theorem wr_pending (s : State) (r : RF) (n : Nat) : (s.wr r n).pending = s.pending := rfl
@[simp] theorem wr_shadow (s : State) (r : RF) (n : Nat) : (s.wr r n).shadow = s.shadow := rfl
@[simp] theorem wr_mem (s : State) (r : RF) (n : Nat) : (s.wr r n).mem = s.mem := rfl
@[simp] theorem wr_ecc (s : State) (r : RF) (n : Nat) : (s.wr r n).ecc = s.ecc := rfl
@[simp] theorem wr_free (s : State) (r : RF) (n : Nat) : (s.wr r n).free = s.free := rfl
@[simp] theorem wr_readOut (s : State) (r : RF) (n : Nat) : (s.wr r n).readOut = s.readOut := rfl
@[simp] theorem wr_ticks (s : State) (r : RF) (n : Nat) : (s.wr r n).ticks = s.ticks := rfl
@[simp] theorem wr_tod (s : State) (r : RF) (n : Nat) : (s.wr r n).tod = s.tod := rfl
@[simp] theorem wr_cfg (s : State) (r : RF) (n : Nat) : (s.wr r n).cfg = s.cfg := rfl
@[simp] theorem wr_flt (s : State) (r : RF) (n : Nat) : (s.wr r n).flt = s.flt := rfl
@[simp] theorem wr_tsk (s : State) (r : RF) (n : Nat) : (s.wr r n).tsk = s.tsk := rfl
@[simp] theorem wr_harts (s : State) (r : RF) (n : Nat) : (s.wr r n).harts = s.harts := rfl
@[simp] theorem wr_acu (s : State) (r : RF) (n : Nat) : (s.wr r n).acu = s.acu := rfl
@[simp] theorem wr_pwr (s : State) (r : RF) (n : Nat) : (s.wr r n).pwr = s.pwr := rfl
@[simp] theorem wr_cel (s : State) (r : RF) (n : Nat) : (s.wr r n).cel = s.cel := rfl
@[simp] theorem wr_sch (s : State) (r : RF) (n : Nat) : (s.wr r n).sch = s.sch := rfl
@[simp] theorem wr_gcl (s : State) (r : RF) (n : Nat) : (s.wr r n).gcl = s.gcl := rfl
@[simp] theorem wr_kln (s : State) (r : RF) (n : Nat) : (s.wr r n).kln = s.kln := rfl
@[simp] theorem wr_act (s : State) (r : RF) (n : Nat) : (s.wr r n).act = s.act := rfl
@[simp] theorem wr_ube (s : State) (r : RF) (n : Nat) : (s.wr r n).ube = s.ube := rfl
@[simp] theorem wr_chp (s : State) (r : RF) (n : Nat) : (s.wr r n).chp = s.chp := rfl
@[simp] theorem wr_dsf (s : State) (r : RF) (n : Nat) : (s.wr r n).dsf = s.dsf := rfl
@[simp] theorem wr_ohs (s : State) (r : RF) (n : Nat) : (s.wr r n).ohs = s.ohs := rfl
@[simp] theorem wr_pipes (s : State) (r : RF) (n : Nat) : (s.wr r n).pipes = s.pipes := rfl
@[simp] theorem wr_cls (s : State) (r : RF) (n : Nat) : (s.wr r n).cls = s.cls := rfl
@[simp] theorem wr_flw (s : State) (r : RF) (n : Nat) : (s.wr r n).flw = s.flw := rfl
@[simp] theorem wr_spc (s : State) (r : RF) (n : Nat) : (s.wr r n).spc = s.spc := rfl
@[simp] theorem wr_mac (s : State) (r : RF) (n : Nat) : (s.wr r n).mac = s.mac := rfl
@[simp] theorem wr_lph (s : State) (r : RF) (n : Nat) : (s.wr r n).lph = s.lph := rfl
@[simp] theorem wr_tim (s : State) (r : RF) (n : Nat) : (s.wr r n).tim = s.tim := rfl
@[simp] theorem wr_cas (s : State) (r : RF) (n : Nat) : (s.wr r n).cas = s.cas := rfl
@[simp] theorem wr_clk (s : State) (r : RF) (n : Nat) : (s.wr r n).clk = s.clk := rfl
@[simp] theorem wr_tap (s : State) (r : RF) (n : Nat) : (s.wr r n).tap = s.tap := rfl
@[simp] theorem put_pending (s : State) (r : RF) (b : Bool) : (s.put r b).pending = s.pending := rfl
@[simp] theorem put_shadow (s : State) (r : RF) (b : Bool) : (s.put r b).shadow = s.shadow := rfl
@[simp] theorem put_mem (s : State) (r : RF) (b : Bool) : (s.put r b).mem = s.mem := rfl
@[simp] theorem put_ecc (s : State) (r : RF) (b : Bool) : (s.put r b).ecc = s.ecc := rfl
@[simp] theorem put_free (s : State) (r : RF) (b : Bool) : (s.put r b).free = s.free := rfl
@[simp] theorem put_readOut (s : State) (r : RF) (b : Bool) : (s.put r b).readOut = s.readOut := rfl
@[simp] theorem put_ticks (s : State) (r : RF) (b : Bool) : (s.put r b).ticks = s.ticks := rfl
@[simp] theorem put_tod (s : State) (r : RF) (b : Bool) : (s.put r b).tod = s.tod := rfl
@[simp] theorem put_cfg (s : State) (r : RF) (b : Bool) : (s.put r b).cfg = s.cfg := rfl
@[simp] theorem put_flt (s : State) (r : RF) (b : Bool) : (s.put r b).flt = s.flt := rfl
@[simp] theorem put_tsk (s : State) (r : RF) (b : Bool) : (s.put r b).tsk = s.tsk := rfl
@[simp] theorem put_harts (s : State) (r : RF) (b : Bool) : (s.put r b).harts = s.harts := rfl
@[simp] theorem put_acu (s : State) (r : RF) (b : Bool) : (s.put r b).acu = s.acu := rfl
@[simp] theorem put_pwr (s : State) (r : RF) (b : Bool) : (s.put r b).pwr = s.pwr := rfl
@[simp] theorem put_cel (s : State) (r : RF) (b : Bool) : (s.put r b).cel = s.cel := rfl
@[simp] theorem put_sch (s : State) (r : RF) (b : Bool) : (s.put r b).sch = s.sch := rfl
@[simp] theorem put_gcl (s : State) (r : RF) (b : Bool) : (s.put r b).gcl = s.gcl := rfl
@[simp] theorem put_kln (s : State) (r : RF) (b : Bool) : (s.put r b).kln = s.kln := rfl
@[simp] theorem put_act (s : State) (r : RF) (b : Bool) : (s.put r b).act = s.act := rfl
@[simp] theorem put_ube (s : State) (r : RF) (b : Bool) : (s.put r b).ube = s.ube := rfl
@[simp] theorem put_chp (s : State) (r : RF) (b : Bool) : (s.put r b).chp = s.chp := rfl
@[simp] theorem put_dsf (s : State) (r : RF) (b : Bool) : (s.put r b).dsf = s.dsf := rfl
@[simp] theorem put_ohs (s : State) (r : RF) (b : Bool) : (s.put r b).ohs = s.ohs := rfl
@[simp] theorem put_pipes (s : State) (r : RF) (b : Bool) : (s.put r b).pipes = s.pipes := rfl
@[simp] theorem put_cls (s : State) (r : RF) (b : Bool) : (s.put r b).cls = s.cls := rfl
@[simp] theorem put_flw (s : State) (r : RF) (b : Bool) : (s.put r b).flw = s.flw := rfl
@[simp] theorem put_spc (s : State) (r : RF) (b : Bool) : (s.put r b).spc = s.spc := rfl
@[simp] theorem put_mac (s : State) (r : RF) (b : Bool) : (s.put r b).mac = s.mac := rfl
@[simp] theorem put_lph (s : State) (r : RF) (b : Bool) : (s.put r b).lph = s.lph := rfl
@[simp] theorem put_tim (s : State) (r : RF) (b : Bool) : (s.put r b).tim = s.tim := rfl
@[simp] theorem put_cas (s : State) (r : RF) (b : Bool) : (s.put r b).cas = s.cas := rfl
@[simp] theorem put_clk (s : State) (r : RF) (b : Bool) : (s.put r b).clk = s.clk := rfl
@[simp] theorem put_tap (s : State) (r : RF) (b : Bool) : (s.put r b).tap = s.tap := rfl
@[simp] theorem addTo_pending (s : State) (r : RF) (n : Nat) : (s.addTo r n).pending = s.pending := rfl
@[simp] theorem addTo_shadow (s : State) (r : RF) (n : Nat) : (s.addTo r n).shadow = s.shadow := rfl
@[simp] theorem addTo_mem (s : State) (r : RF) (n : Nat) : (s.addTo r n).mem = s.mem := rfl
@[simp] theorem addTo_ecc (s : State) (r : RF) (n : Nat) : (s.addTo r n).ecc = s.ecc := rfl
@[simp] theorem addTo_free (s : State) (r : RF) (n : Nat) : (s.addTo r n).free = s.free := rfl
@[simp] theorem addTo_readOut (s : State) (r : RF) (n : Nat) : (s.addTo r n).readOut = s.readOut := rfl
@[simp] theorem addTo_ticks (s : State) (r : RF) (n : Nat) : (s.addTo r n).ticks = s.ticks := rfl
@[simp] theorem addTo_tod (s : State) (r : RF) (n : Nat) : (s.addTo r n).tod = s.tod := rfl
@[simp] theorem addTo_cfg (s : State) (r : RF) (n : Nat) : (s.addTo r n).cfg = s.cfg := rfl
@[simp] theorem addTo_flt (s : State) (r : RF) (n : Nat) : (s.addTo r n).flt = s.flt := rfl
@[simp] theorem addTo_tsk (s : State) (r : RF) (n : Nat) : (s.addTo r n).tsk = s.tsk := rfl
@[simp] theorem addTo_harts (s : State) (r : RF) (n : Nat) : (s.addTo r n).harts = s.harts := rfl
@[simp] theorem addTo_acu (s : State) (r : RF) (n : Nat) : (s.addTo r n).acu = s.acu := rfl
@[simp] theorem addTo_pwr (s : State) (r : RF) (n : Nat) : (s.addTo r n).pwr = s.pwr := rfl
@[simp] theorem addTo_cel (s : State) (r : RF) (n : Nat) : (s.addTo r n).cel = s.cel := rfl
@[simp] theorem addTo_sch (s : State) (r : RF) (n : Nat) : (s.addTo r n).sch = s.sch := rfl
@[simp] theorem addTo_gcl (s : State) (r : RF) (n : Nat) : (s.addTo r n).gcl = s.gcl := rfl
@[simp] theorem addTo_kln (s : State) (r : RF) (n : Nat) : (s.addTo r n).kln = s.kln := rfl
@[simp] theorem addTo_act (s : State) (r : RF) (n : Nat) : (s.addTo r n).act = s.act := rfl
@[simp] theorem addTo_ube (s : State) (r : RF) (n : Nat) : (s.addTo r n).ube = s.ube := rfl
@[simp] theorem addTo_chp (s : State) (r : RF) (n : Nat) : (s.addTo r n).chp = s.chp := rfl
@[simp] theorem addTo_dsf (s : State) (r : RF) (n : Nat) : (s.addTo r n).dsf = s.dsf := rfl
@[simp] theorem addTo_ohs (s : State) (r : RF) (n : Nat) : (s.addTo r n).ohs = s.ohs := rfl
@[simp] theorem addTo_pipes (s : State) (r : RF) (n : Nat) : (s.addTo r n).pipes = s.pipes := rfl
@[simp] theorem addTo_cls (s : State) (r : RF) (n : Nat) : (s.addTo r n).cls = s.cls := rfl
@[simp] theorem addTo_flw (s : State) (r : RF) (n : Nat) : (s.addTo r n).flw = s.flw := rfl
@[simp] theorem addTo_spc (s : State) (r : RF) (n : Nat) : (s.addTo r n).spc = s.spc := rfl
@[simp] theorem addTo_mac (s : State) (r : RF) (n : Nat) : (s.addTo r n).mac = s.mac := rfl
@[simp] theorem addTo_lph (s : State) (r : RF) (n : Nat) : (s.addTo r n).lph = s.lph := rfl
@[simp] theorem addTo_tim (s : State) (r : RF) (n : Nat) : (s.addTo r n).tim = s.tim := rfl
@[simp] theorem addTo_cas (s : State) (r : RF) (n : Nat) : (s.addTo r n).cas = s.cas := rfl
@[simp] theorem addTo_clk (s : State) (r : RF) (n : Nat) : (s.addTo r n).clk = s.clk := rfl
@[simp] theorem addTo_tap (s : State) (r : RF) (n : Nat) : (s.addTo r n).tap = s.tap := rfl
@[simp] theorem inc_pending (s : State) (r : RF) : (s.inc r).pending = s.pending := rfl
@[simp] theorem inc_shadow (s : State) (r : RF) : (s.inc r).shadow = s.shadow := rfl
@[simp] theorem inc_mem (s : State) (r : RF) : (s.inc r).mem = s.mem := rfl
@[simp] theorem inc_ecc (s : State) (r : RF) : (s.inc r).ecc = s.ecc := rfl
@[simp] theorem inc_free (s : State) (r : RF) : (s.inc r).free = s.free := rfl
@[simp] theorem inc_readOut (s : State) (r : RF) : (s.inc r).readOut = s.readOut := rfl
@[simp] theorem inc_ticks (s : State) (r : RF) : (s.inc r).ticks = s.ticks := rfl
@[simp] theorem inc_tod (s : State) (r : RF) : (s.inc r).tod = s.tod := rfl
@[simp] theorem inc_cfg (s : State) (r : RF) : (s.inc r).cfg = s.cfg := rfl
@[simp] theorem inc_flt (s : State) (r : RF) : (s.inc r).flt = s.flt := rfl
@[simp] theorem inc_tsk (s : State) (r : RF) : (s.inc r).tsk = s.tsk := rfl
@[simp] theorem inc_harts (s : State) (r : RF) : (s.inc r).harts = s.harts := rfl
@[simp] theorem inc_acu (s : State) (r : RF) : (s.inc r).acu = s.acu := rfl
@[simp] theorem inc_pwr (s : State) (r : RF) : (s.inc r).pwr = s.pwr := rfl
@[simp] theorem inc_cel (s : State) (r : RF) : (s.inc r).cel = s.cel := rfl
@[simp] theorem inc_sch (s : State) (r : RF) : (s.inc r).sch = s.sch := rfl
@[simp] theorem inc_gcl (s : State) (r : RF) : (s.inc r).gcl = s.gcl := rfl
@[simp] theorem inc_kln (s : State) (r : RF) : (s.inc r).kln = s.kln := rfl
@[simp] theorem inc_act (s : State) (r : RF) : (s.inc r).act = s.act := rfl
@[simp] theorem inc_ube (s : State) (r : RF) : (s.inc r).ube = s.ube := rfl
@[simp] theorem inc_chp (s : State) (r : RF) : (s.inc r).chp = s.chp := rfl
@[simp] theorem inc_dsf (s : State) (r : RF) : (s.inc r).dsf = s.dsf := rfl
@[simp] theorem inc_ohs (s : State) (r : RF) : (s.inc r).ohs = s.ohs := rfl
@[simp] theorem inc_pipes (s : State) (r : RF) : (s.inc r).pipes = s.pipes := rfl
@[simp] theorem inc_cls (s : State) (r : RF) : (s.inc r).cls = s.cls := rfl
@[simp] theorem inc_flw (s : State) (r : RF) : (s.inc r).flw = s.flw := rfl
@[simp] theorem inc_spc (s : State) (r : RF) : (s.inc r).spc = s.spc := rfl
@[simp] theorem inc_mac (s : State) (r : RF) : (s.inc r).mac = s.mac := rfl
@[simp] theorem inc_lph (s : State) (r : RF) : (s.inc r).lph = s.lph := rfl
@[simp] theorem inc_tim (s : State) (r : RF) : (s.inc r).tim = s.tim := rfl
@[simp] theorem inc_cas (s : State) (r : RF) : (s.inc r).cas = s.cas := rfl
@[simp] theorem inc_clk (s : State) (r : RF) : (s.inc r).clk = s.clk := rfl
@[simp] theorem inc_tap (s : State) (r : RF) : (s.inc r).tap = s.tap := rfl
@[simp] theorem setBit_pending (s : State) (r : RF) (i : Nat) : (s.setBit r i).pending = s.pending := rfl
@[simp] theorem setBit_shadow (s : State) (r : RF) (i : Nat) : (s.setBit r i).shadow = s.shadow := rfl
@[simp] theorem setBit_mem (s : State) (r : RF) (i : Nat) : (s.setBit r i).mem = s.mem := rfl
@[simp] theorem setBit_ecc (s : State) (r : RF) (i : Nat) : (s.setBit r i).ecc = s.ecc := rfl
@[simp] theorem setBit_free (s : State) (r : RF) (i : Nat) : (s.setBit r i).free = s.free := rfl
@[simp] theorem setBit_readOut (s : State) (r : RF) (i : Nat) : (s.setBit r i).readOut = s.readOut := rfl
@[simp] theorem setBit_ticks (s : State) (r : RF) (i : Nat) : (s.setBit r i).ticks = s.ticks := rfl
@[simp] theorem setBit_tod (s : State) (r : RF) (i : Nat) : (s.setBit r i).tod = s.tod := rfl
@[simp] theorem setBit_cfg (s : State) (r : RF) (i : Nat) : (s.setBit r i).cfg = s.cfg := rfl
@[simp] theorem setBit_flt (s : State) (r : RF) (i : Nat) : (s.setBit r i).flt = s.flt := rfl
@[simp] theorem setBit_tsk (s : State) (r : RF) (i : Nat) : (s.setBit r i).tsk = s.tsk := rfl
@[simp] theorem setBit_harts (s : State) (r : RF) (i : Nat) : (s.setBit r i).harts = s.harts := rfl
@[simp] theorem setBit_acu (s : State) (r : RF) (i : Nat) : (s.setBit r i).acu = s.acu := rfl
@[simp] theorem setBit_pwr (s : State) (r : RF) (i : Nat) : (s.setBit r i).pwr = s.pwr := rfl
@[simp] theorem setBit_cel (s : State) (r : RF) (i : Nat) : (s.setBit r i).cel = s.cel := rfl
@[simp] theorem setBit_sch (s : State) (r : RF) (i : Nat) : (s.setBit r i).sch = s.sch := rfl
@[simp] theorem setBit_gcl (s : State) (r : RF) (i : Nat) : (s.setBit r i).gcl = s.gcl := rfl
@[simp] theorem setBit_kln (s : State) (r : RF) (i : Nat) : (s.setBit r i).kln = s.kln := rfl
@[simp] theorem setBit_act (s : State) (r : RF) (i : Nat) : (s.setBit r i).act = s.act := rfl
@[simp] theorem setBit_ube (s : State) (r : RF) (i : Nat) : (s.setBit r i).ube = s.ube := rfl
@[simp] theorem setBit_chp (s : State) (r : RF) (i : Nat) : (s.setBit r i).chp = s.chp := rfl
@[simp] theorem setBit_dsf (s : State) (r : RF) (i : Nat) : (s.setBit r i).dsf = s.dsf := rfl
@[simp] theorem setBit_ohs (s : State) (r : RF) (i : Nat) : (s.setBit r i).ohs = s.ohs := rfl
@[simp] theorem setBit_pipes (s : State) (r : RF) (i : Nat) : (s.setBit r i).pipes = s.pipes := rfl
@[simp] theorem setBit_cls (s : State) (r : RF) (i : Nat) : (s.setBit r i).cls = s.cls := rfl
@[simp] theorem setBit_flw (s : State) (r : RF) (i : Nat) : (s.setBit r i).flw = s.flw := rfl
@[simp] theorem setBit_spc (s : State) (r : RF) (i : Nat) : (s.setBit r i).spc = s.spc := rfl
@[simp] theorem setBit_mac (s : State) (r : RF) (i : Nat) : (s.setBit r i).mac = s.mac := rfl
@[simp] theorem setBit_lph (s : State) (r : RF) (i : Nat) : (s.setBit r i).lph = s.lph := rfl
@[simp] theorem setBit_tim (s : State) (r : RF) (i : Nat) : (s.setBit r i).tim = s.tim := rfl
@[simp] theorem setBit_cas (s : State) (r : RF) (i : Nat) : (s.setBit r i).cas = s.cas := rfl
@[simp] theorem setBit_clk (s : State) (r : RF) (i : Nat) : (s.setBit r i).clk = s.clk := rfl
@[simp] theorem setBit_tap (s : State) (r : RF) (i : Nat) : (s.setBit r i).tap = s.tap := rfl
@[simp] theorem clrBit_pending (s : State) (r : RF) (i : Nat) : (s.clrBit r i).pending = s.pending := rfl
@[simp] theorem clrBit_shadow (s : State) (r : RF) (i : Nat) : (s.clrBit r i).shadow = s.shadow := rfl
@[simp] theorem clrBit_mem (s : State) (r : RF) (i : Nat) : (s.clrBit r i).mem = s.mem := rfl
@[simp] theorem clrBit_ecc (s : State) (r : RF) (i : Nat) : (s.clrBit r i).ecc = s.ecc := rfl
@[simp] theorem clrBit_free (s : State) (r : RF) (i : Nat) : (s.clrBit r i).free = s.free := rfl
@[simp] theorem clrBit_readOut (s : State) (r : RF) (i : Nat) : (s.clrBit r i).readOut = s.readOut := rfl
@[simp] theorem clrBit_ticks (s : State) (r : RF) (i : Nat) : (s.clrBit r i).ticks = s.ticks := rfl
@[simp] theorem clrBit_tod (s : State) (r : RF) (i : Nat) : (s.clrBit r i).tod = s.tod := rfl
@[simp] theorem clrBit_cfg (s : State) (r : RF) (i : Nat) : (s.clrBit r i).cfg = s.cfg := rfl
@[simp] theorem clrBit_flt (s : State) (r : RF) (i : Nat) : (s.clrBit r i).flt = s.flt := rfl
@[simp] theorem clrBit_tsk (s : State) (r : RF) (i : Nat) : (s.clrBit r i).tsk = s.tsk := rfl
@[simp] theorem clrBit_harts (s : State) (r : RF) (i : Nat) : (s.clrBit r i).harts = s.harts := rfl
@[simp] theorem clrBit_acu (s : State) (r : RF) (i : Nat) : (s.clrBit r i).acu = s.acu := rfl
@[simp] theorem clrBit_pwr (s : State) (r : RF) (i : Nat) : (s.clrBit r i).pwr = s.pwr := rfl
@[simp] theorem clrBit_cel (s : State) (r : RF) (i : Nat) : (s.clrBit r i).cel = s.cel := rfl
@[simp] theorem clrBit_sch (s : State) (r : RF) (i : Nat) : (s.clrBit r i).sch = s.sch := rfl
@[simp] theorem clrBit_gcl (s : State) (r : RF) (i : Nat) : (s.clrBit r i).gcl = s.gcl := rfl
@[simp] theorem clrBit_kln (s : State) (r : RF) (i : Nat) : (s.clrBit r i).kln = s.kln := rfl
@[simp] theorem clrBit_act (s : State) (r : RF) (i : Nat) : (s.clrBit r i).act = s.act := rfl
@[simp] theorem clrBit_ube (s : State) (r : RF) (i : Nat) : (s.clrBit r i).ube = s.ube := rfl
@[simp] theorem clrBit_chp (s : State) (r : RF) (i : Nat) : (s.clrBit r i).chp = s.chp := rfl
@[simp] theorem clrBit_dsf (s : State) (r : RF) (i : Nat) : (s.clrBit r i).dsf = s.dsf := rfl
@[simp] theorem clrBit_ohs (s : State) (r : RF) (i : Nat) : (s.clrBit r i).ohs = s.ohs := rfl
@[simp] theorem clrBit_pipes (s : State) (r : RF) (i : Nat) : (s.clrBit r i).pipes = s.pipes := rfl
@[simp] theorem clrBit_cls (s : State) (r : RF) (i : Nat) : (s.clrBit r i).cls = s.cls := rfl
@[simp] theorem clrBit_flw (s : State) (r : RF) (i : Nat) : (s.clrBit r i).flw = s.flw := rfl
@[simp] theorem clrBit_spc (s : State) (r : RF) (i : Nat) : (s.clrBit r i).spc = s.spc := rfl
@[simp] theorem clrBit_mac (s : State) (r : RF) (i : Nat) : (s.clrBit r i).mac = s.mac := rfl
@[simp] theorem clrBit_lph (s : State) (r : RF) (i : Nat) : (s.clrBit r i).lph = s.lph := rfl
@[simp] theorem clrBit_tim (s : State) (r : RF) (i : Nat) : (s.clrBit r i).tim = s.tim := rfl
@[simp] theorem clrBit_cas (s : State) (r : RF) (i : Nat) : (s.clrBit r i).cas = s.cas := rfl
@[simp] theorem clrBit_clk (s : State) (r : RF) (i : Nat) : (s.clrBit r i).clk = s.clk := rfl
@[simp] theorem clrBit_tap (s : State) (r : RF) (i : Nat) : (s.clrBit r i).tap = s.tap := rfl
@[simp] theorem setSh_pending (s : State) (a : Nat) (v : Word) : (s.setSh a v).pending = s.pending := rfl
@[simp] theorem setSh_regs (s : State) (a : Nat) (v : Word) : (s.setSh a v).regs = s.regs := rfl
@[simp] theorem setSh_mem (s : State) (a : Nat) (v : Word) : (s.setSh a v).mem = s.mem := rfl
@[simp] theorem setSh_ecc (s : State) (a : Nat) (v : Word) : (s.setSh a v).ecc = s.ecc := rfl
@[simp] theorem setSh_free (s : State) (a : Nat) (v : Word) : (s.setSh a v).free = s.free := rfl
@[simp] theorem setSh_readOut (s : State) (a : Nat) (v : Word) : (s.setSh a v).readOut = s.readOut := rfl
@[simp] theorem setSh_ticks (s : State) (a : Nat) (v : Word) : (s.setSh a v).ticks = s.ticks := rfl
@[simp] theorem setSh_tod (s : State) (a : Nat) (v : Word) : (s.setSh a v).tod = s.tod := rfl
@[simp] theorem setSh_cfg (s : State) (a : Nat) (v : Word) : (s.setSh a v).cfg = s.cfg := rfl
@[simp] theorem setSh_flt (s : State) (a : Nat) (v : Word) : (s.setSh a v).flt = s.flt := rfl
@[simp] theorem setSh_tsk (s : State) (a : Nat) (v : Word) : (s.setSh a v).tsk = s.tsk := rfl
@[simp] theorem setSh_harts (s : State) (a : Nat) (v : Word) : (s.setSh a v).harts = s.harts := rfl
@[simp] theorem setSh_acu (s : State) (a : Nat) (v : Word) : (s.setSh a v).acu = s.acu := rfl
@[simp] theorem setSh_pwr (s : State) (a : Nat) (v : Word) : (s.setSh a v).pwr = s.pwr := rfl
@[simp] theorem setSh_cel (s : State) (a : Nat) (v : Word) : (s.setSh a v).cel = s.cel := rfl
@[simp] theorem setSh_sch (s : State) (a : Nat) (v : Word) : (s.setSh a v).sch = s.sch := rfl
@[simp] theorem setSh_gcl (s : State) (a : Nat) (v : Word) : (s.setSh a v).gcl = s.gcl := rfl
@[simp] theorem setSh_kln (s : State) (a : Nat) (v : Word) : (s.setSh a v).kln = s.kln := rfl
@[simp] theorem setSh_act (s : State) (a : Nat) (v : Word) : (s.setSh a v).act = s.act := rfl
@[simp] theorem setSh_ube (s : State) (a : Nat) (v : Word) : (s.setSh a v).ube = s.ube := rfl
@[simp] theorem setSh_chp (s : State) (a : Nat) (v : Word) : (s.setSh a v).chp = s.chp := rfl
@[simp] theorem setSh_dsf (s : State) (a : Nat) (v : Word) : (s.setSh a v).dsf = s.dsf := rfl
@[simp] theorem setSh_ohs (s : State) (a : Nat) (v : Word) : (s.setSh a v).ohs = s.ohs := rfl
@[simp] theorem setSh_pipes (s : State) (a : Nat) (v : Word) : (s.setSh a v).pipes = s.pipes := rfl
@[simp] theorem setSh_cls (s : State) (a : Nat) (v : Word) : (s.setSh a v).cls = s.cls := rfl
@[simp] theorem setSh_flw (s : State) (a : Nat) (v : Word) : (s.setSh a v).flw = s.flw := rfl
@[simp] theorem setSh_spc (s : State) (a : Nat) (v : Word) : (s.setSh a v).spc = s.spc := rfl
@[simp] theorem setSh_mac (s : State) (a : Nat) (v : Word) : (s.setSh a v).mac = s.mac := rfl
@[simp] theorem setSh_lph (s : State) (a : Nat) (v : Word) : (s.setSh a v).lph = s.lph := rfl
@[simp] theorem setSh_tim (s : State) (a : Nat) (v : Word) : (s.setSh a v).tim = s.tim := rfl
@[simp] theorem setSh_cas (s : State) (a : Nat) (v : Word) : (s.setSh a v).cas = s.cas := rfl
@[simp] theorem setSh_clk (s : State) (a : Nat) (v : Word) : (s.setSh a v).clk = s.clk := rfl
@[simp] theorem setSh_tap (s : State) (a : Nat) (v : Word) : (s.setSh a v).tap = s.tap := rfl
@[simp] theorem setByte_pending (s : State) (a : Nat) (b : Byte) : (s.setByte a b).pending = s.pending := rfl
@[simp] theorem setByte_regs (s : State) (a : Nat) (b : Byte) : (s.setByte a b).regs = s.regs := rfl
@[simp] theorem setByte_ecc (s : State) (a : Nat) (b : Byte) : (s.setByte a b).ecc = s.ecc := rfl
@[simp] theorem setByte_shadow (s : State) (a : Nat) (b : Byte) : (s.setByte a b).shadow = s.shadow := rfl
@[simp] theorem setByte_free (s : State) (a : Nat) (b : Byte) : (s.setByte a b).free = s.free := rfl
@[simp] theorem setByte_readOut (s : State) (a : Nat) (b : Byte) : (s.setByte a b).readOut = s.readOut := rfl
@[simp] theorem setByte_ticks (s : State) (a : Nat) (b : Byte) : (s.setByte a b).ticks = s.ticks := rfl
@[simp] theorem setByte_tod (s : State) (a : Nat) (b : Byte) : (s.setByte a b).tod = s.tod := rfl
@[simp] theorem setByte_cfg (s : State) (a : Nat) (b : Byte) : (s.setByte a b).cfg = s.cfg := rfl
@[simp] theorem setByte_flt (s : State) (a : Nat) (b : Byte) : (s.setByte a b).flt = s.flt := rfl
@[simp] theorem setByte_tsk (s : State) (a : Nat) (b : Byte) : (s.setByte a b).tsk = s.tsk := rfl
@[simp] theorem setByte_harts (s : State) (a : Nat) (b : Byte) : (s.setByte a b).harts = s.harts := rfl
@[simp] theorem setByte_acu (s : State) (a : Nat) (b : Byte) : (s.setByte a b).acu = s.acu := rfl
@[simp] theorem setByte_pwr (s : State) (a : Nat) (b : Byte) : (s.setByte a b).pwr = s.pwr := rfl
@[simp] theorem setByte_cel (s : State) (a : Nat) (b : Byte) : (s.setByte a b).cel = s.cel := rfl
@[simp] theorem setByte_sch (s : State) (a : Nat) (b : Byte) : (s.setByte a b).sch = s.sch := rfl
@[simp] theorem setByte_gcl (s : State) (a : Nat) (b : Byte) : (s.setByte a b).gcl = s.gcl := rfl
@[simp] theorem setByte_kln (s : State) (a : Nat) (b : Byte) : (s.setByte a b).kln = s.kln := rfl
@[simp] theorem setByte_act (s : State) (a : Nat) (b : Byte) : (s.setByte a b).act = s.act := rfl
@[simp] theorem setByte_ube (s : State) (a : Nat) (b : Byte) : (s.setByte a b).ube = s.ube := rfl
@[simp] theorem setByte_chp (s : State) (a : Nat) (b : Byte) : (s.setByte a b).chp = s.chp := rfl
@[simp] theorem setByte_dsf (s : State) (a : Nat) (b : Byte) : (s.setByte a b).dsf = s.dsf := rfl
@[simp] theorem setByte_ohs (s : State) (a : Nat) (b : Byte) : (s.setByte a b).ohs = s.ohs := rfl
@[simp] theorem setByte_pipes (s : State) (a : Nat) (b : Byte) : (s.setByte a b).pipes = s.pipes := rfl
@[simp] theorem setByte_cls (s : State) (a : Nat) (b : Byte) : (s.setByte a b).cls = s.cls := rfl
@[simp] theorem setByte_flw (s : State) (a : Nat) (b : Byte) : (s.setByte a b).flw = s.flw := rfl
@[simp] theorem setByte_spc (s : State) (a : Nat) (b : Byte) : (s.setByte a b).spc = s.spc := rfl
@[simp] theorem setByte_mac (s : State) (a : Nat) (b : Byte) : (s.setByte a b).mac = s.mac := rfl
@[simp] theorem setByte_lph (s : State) (a : Nat) (b : Byte) : (s.setByte a b).lph = s.lph := rfl
@[simp] theorem setByte_tim (s : State) (a : Nat) (b : Byte) : (s.setByte a b).tim = s.tim := rfl
@[simp] theorem setByte_cas (s : State) (a : Nat) (b : Byte) : (s.setByte a b).cas = s.cas := rfl
@[simp] theorem setByte_clk (s : State) (a : Nat) (b : Byte) : (s.setByte a b).clk = s.clk := rfl
@[simp] theorem setByte_tap (s : State) (a : Nat) (b : Byte) : (s.setByte a b).tap = s.tap := rfl
@[simp] theorem setEcc_pending (s : State) (a : Nat) (f : BitVec 72) : (s.setEcc a f).pending = s.pending := rfl
@[simp] theorem setEcc_regs (s : State) (a : Nat) (f : BitVec 72) : (s.setEcc a f).regs = s.regs := rfl
@[simp] theorem setEcc_shadow (s : State) (a : Nat) (f : BitVec 72) : (s.setEcc a f).shadow = s.shadow := rfl
@[simp] theorem setEcc_free (s : State) (a : Nat) (f : BitVec 72) : (s.setEcc a f).free = s.free := rfl
@[simp] theorem setEcc_readOut (s : State) (a : Nat) (f : BitVec 72) : (s.setEcc a f).readOut = s.readOut := rfl
@[simp] theorem setEcc_ticks (s : State) (a : Nat) (f : BitVec 72) : (s.setEcc a f).ticks = s.ticks := rfl
@[simp] theorem setEcc_tod (s : State) (a : Nat) (f : BitVec 72) : (s.setEcc a f).tod = s.tod := rfl
@[simp] theorem setEcc_cfg (s : State) (a : Nat) (f : BitVec 72) : (s.setEcc a f).cfg = s.cfg := rfl
@[simp] theorem setEcc_flt (s : State) (a : Nat) (f : BitVec 72) : (s.setEcc a f).flt = s.flt := rfl
@[simp] theorem setEcc_tsk (s : State) (a : Nat) (f : BitVec 72) : (s.setEcc a f).tsk = s.tsk := rfl
@[simp] theorem setEcc_harts (s : State) (a : Nat) (f : BitVec 72) : (s.setEcc a f).harts = s.harts := rfl
@[simp] theorem setEcc_acu (s : State) (a : Nat) (f : BitVec 72) : (s.setEcc a f).acu = s.acu := rfl
@[simp] theorem setEcc_pwr (s : State) (a : Nat) (f : BitVec 72) : (s.setEcc a f).pwr = s.pwr := rfl
@[simp] theorem setEcc_cel (s : State) (a : Nat) (f : BitVec 72) : (s.setEcc a f).cel = s.cel := rfl
@[simp] theorem setEcc_sch (s : State) (a : Nat) (f : BitVec 72) : (s.setEcc a f).sch = s.sch := rfl
@[simp] theorem setEcc_gcl (s : State) (a : Nat) (f : BitVec 72) : (s.setEcc a f).gcl = s.gcl := rfl
@[simp] theorem setEcc_kln (s : State) (a : Nat) (f : BitVec 72) : (s.setEcc a f).kln = s.kln := rfl
@[simp] theorem setEcc_act (s : State) (a : Nat) (f : BitVec 72) : (s.setEcc a f).act = s.act := rfl
@[simp] theorem setEcc_ube (s : State) (a : Nat) (f : BitVec 72) : (s.setEcc a f).ube = s.ube := rfl
@[simp] theorem setEcc_chp (s : State) (a : Nat) (f : BitVec 72) : (s.setEcc a f).chp = s.chp := rfl
@[simp] theorem setEcc_dsf (s : State) (a : Nat) (f : BitVec 72) : (s.setEcc a f).dsf = s.dsf := rfl
@[simp] theorem setEcc_ohs (s : State) (a : Nat) (f : BitVec 72) : (s.setEcc a f).ohs = s.ohs := rfl
@[simp] theorem setEcc_pipes (s : State) (a : Nat) (f : BitVec 72) : (s.setEcc a f).pipes = s.pipes := rfl
@[simp] theorem setEcc_cls (s : State) (a : Nat) (f : BitVec 72) : (s.setEcc a f).cls = s.cls := rfl
@[simp] theorem setEcc_flw (s : State) (a : Nat) (f : BitVec 72) : (s.setEcc a f).flw = s.flw := rfl
@[simp] theorem setEcc_spc (s : State) (a : Nat) (f : BitVec 72) : (s.setEcc a f).spc = s.spc := rfl
@[simp] theorem setEcc_mac (s : State) (a : Nat) (f : BitVec 72) : (s.setEcc a f).mac = s.mac := rfl
@[simp] theorem setEcc_lph (s : State) (a : Nat) (f : BitVec 72) : (s.setEcc a f).lph = s.lph := rfl
@[simp] theorem setEcc_tim (s : State) (a : Nat) (f : BitVec 72) : (s.setEcc a f).tim = s.tim := rfl
@[simp] theorem setEcc_cas (s : State) (a : Nat) (f : BitVec 72) : (s.setEcc a f).cas = s.cas := rfl
@[simp] theorem setEcc_clk (s : State) (a : Nat) (f : BitVec 72) : (s.setEcc a f).clk = s.clk := rfl
@[simp] theorem setEcc_tap (s : State) (a : Nat) (f : BitVec 72) : (s.setEcc a f).tap = s.tap := rfl
@[simp] theorem setEcc_mem (s : State) (a : Nat) (f : BitVec 72) : (s.setEcc a f).mem = s.mem := rfl
@[simp] theorem rd_setEcc (s : State) (a : Nat) (f : BitVec 72) (q : RF) : (s.setEcc a f).rd q = s.rd q := by_refl rfl
@[simp] theorem bit_setEcc (s : State) (a : Nat) (f : BitVec 72) (q : RF) : (s.setEcc a f).bit q = s.bit q := by_refl rfl
@[simp] theorem reg_setEcc (s : State) (a : Nat) (f : BitVec 72) (k : Nat) : (s.setEcc a f).reg k = s.reg k := by_refl rfl
@[simp] theorem runs_setEcc (s : State) (a : Nat) (f : BitVec 72) (k : Nat) : (s.setEcc a f).runs k = s.runs k := by_refl rfl
@[simp] theorem shReg_setEcc (s : State) (a : Nat) (f : BitVec 72) (k : Nat) : (s.setEcc a f).shReg k = s.shReg k := by_refl rfl
@[simp] theorem memByte_setEcc (s : State) (a : Nat) (f : BitVec 72) (k : Nat) : (s.setEcc a f).memByte k = s.memByte k := by_refl rfl
@[simp] theorem draw_pending (s : State) : s.draw.2.pending = s.pending := rfl
@[simp] theorem draw_regs (s : State) : s.draw.2.regs = s.regs := rfl
@[simp] theorem draw_shadow (s : State) : s.draw.2.shadow = s.shadow := rfl
@[simp] theorem draw_mem (s : State) : s.draw.2.mem = s.mem := rfl
@[simp] theorem draw_ecc (s : State) : s.draw.2.ecc = s.ecc := rfl
@[simp] theorem draw_readOut (s : State) : s.draw.2.readOut = s.readOut := rfl
@[simp] theorem draw_ticks (s : State) : s.draw.2.ticks = s.ticks := rfl
@[simp] theorem draw_tod (s : State) : s.draw.2.tod = s.tod := rfl
@[simp] theorem draw_cfg (s : State) : s.draw.2.cfg = s.cfg := rfl
@[simp] theorem draw_flt (s : State) : s.draw.2.flt = s.flt := rfl
@[simp] theorem draw_tsk (s : State) : s.draw.2.tsk = s.tsk := rfl
@[simp] theorem draw_harts (s : State) : s.draw.2.harts = s.harts := rfl
@[simp] theorem draw_acu (s : State) : s.draw.2.acu = s.acu := rfl
@[simp] theorem draw_pwr (s : State) : s.draw.2.pwr = s.pwr := rfl
@[simp] theorem draw_cel (s : State) : s.draw.2.cel = s.cel := rfl
@[simp] theorem draw_sch (s : State) : s.draw.2.sch = s.sch := rfl
@[simp] theorem draw_gcl (s : State) : s.draw.2.gcl = s.gcl := rfl
@[simp] theorem draw_kln (s : State) : s.draw.2.kln = s.kln := rfl
@[simp] theorem draw_act (s : State) : s.draw.2.act = s.act := rfl
@[simp] theorem draw_ube (s : State) : s.draw.2.ube = s.ube := rfl
@[simp] theorem draw_chp (s : State) : s.draw.2.chp = s.chp := rfl
@[simp] theorem draw_dsf (s : State) : s.draw.2.dsf = s.dsf := rfl
@[simp] theorem draw_ohs (s : State) : s.draw.2.ohs = s.ohs := rfl
@[simp] theorem draw_pipes (s : State) : s.draw.2.pipes = s.pipes := rfl
@[simp] theorem draw_cls (s : State) : s.draw.2.cls = s.cls := rfl
@[simp] theorem draw_flw (s : State) : s.draw.2.flw = s.flw := rfl
@[simp] theorem draw_spc (s : State) : s.draw.2.spc = s.spc := rfl
@[simp] theorem draw_mac (s : State) : s.draw.2.mac = s.mac := rfl
@[simp] theorem draw_lph (s : State) : s.draw.2.lph = s.lph := rfl
@[simp] theorem draw_tim (s : State) : s.draw.2.tim = s.tim := rfl
@[simp] theorem draw_cas (s : State) : s.draw.2.cas = s.cas := rfl
@[simp] theorem draw_clk (s : State) : s.draw.2.clk = s.clk := rfl
@[simp] theorem draw_tap (s : State) : s.draw.2.tap = s.tap := rfl
@[simp] theorem draw_value (s : State) : s.draw.1 = Config.freeValue s.free := rfl
@[simp] theorem draw_free (s : State) : s.draw.2.free = s.free + 1 := rfl
@[simp] theorem rd_mk (s : State) {pd sh m ec fr ro ti t cf fl ts ha ac pw ce sc gc kl_ at_ ub ch ds oh pi cl fw sp ma lp tm ca ck tp} (q : RF) :
    (State.mk pd s.regs sh m ec fr ro ti t cf fl ts ha ac pw ce sc gc kl_ at_ ub ch ds oh pi cl fw sp ma lp tm ca ck tp).rd q = s.rd q := by_refl rfl
@[simp] theorem bit_mk (s : State) {pd sh m ec fr ro ti t cf fl ts ha ac pw ce sc gc kl_ at_ ub ch ds oh pi cl fw sp ma lp tm ca ck tp} (q : RF) :
    (State.mk pd s.regs sh m ec fr ro ti t cf fl ts ha ac pw ce sc gc kl_ at_ ub ch ds oh pi cl fw sp ma lp tm ca ck tp).bit q = s.bit q := by_refl rfl
@[simp] theorem reg_mk (s : State) {pd sh m ec fr ro ti t cf fl ts ha ac pw ce sc gc kl_ at_ ub ch ds oh pi cl fw sp ma lp tm ca ck tp} (a : Nat) :
    (State.mk pd s.regs sh m ec fr ro ti t cf fl ts ha ac pw ce sc gc kl_ at_ ub ch ds oh pi cl fw sp ma lp tm ca ck tp).reg a = s.reg a := by_refl rfl
@[simp] theorem runs_mk (s : State) {pd sh m ec fr ro ti t cf fl ts ha ac pw ce sc gc kl_ at_ ub ch ds oh pi cl fw sp ma lp tm ca ck tp} (b : Nat) :
    (State.mk pd s.regs sh m ec fr ro ti t cf fl ts ha ac pw ce sc gc kl_ at_ ub ch ds oh pi cl fw sp ma lp tm ca ck tp).runs b = s.runs b := by_refl rfl
@[simp] theorem shReg_mk (s : State) {pd r m ec fr ro ti t cf fl ts ha ac pw ce sc gc kl_ at_ ub ch ds oh pi cl fw sp ma lp tm ca ck tp} (a : Nat) :
    (State.mk pd r s.shadow m ec fr ro ti t cf fl ts ha ac pw ce sc gc kl_ at_ ub ch ds oh pi cl fw sp ma lp tm ca ck tp).shReg a = s.shReg a := by_refl rfl
@[simp] theorem memByte_mk (s : State) {pd r sh ec fr ro ti t cf fl ts ha ac pw ce sc gc kl_ at_ ub ch ds oh pi cl fw sp ma lp tm ca ck tp} (a : Nat) :
    (State.mk pd r sh s.mem ec fr ro ti t cf fl ts ha ac pw ce sc gc kl_ at_ ub ch ds oh pi cl fw sp ma lp tm ca ck tp).memByte a = s.memByte a := by_refl rfl
@[simp] theorem rd_setSh (s : State) (a : Nat) (v : Word) (q : RF) : (s.setSh a v).rd q = s.rd q := by_refl rfl
@[simp] theorem bit_setSh (s : State) (a : Nat) (v : Word) (q : RF) : (s.setSh a v).bit q = s.bit q := by_refl rfl
@[simp] theorem reg_setSh (s : State) (a : Nat) (v : Word) (k : Nat) : (s.setSh a v).reg k = s.reg k := by_refl rfl
@[simp] theorem runs_setSh (s : State) (a : Nat) (v : Word) (k : Nat) : (s.setSh a v).runs k = s.runs k := by_refl rfl
@[simp] theorem rd_setByte (s : State) (a : Nat) (v : Byte) (q : RF) : (s.setByte a v).rd q = s.rd q := by_refl rfl
@[simp] theorem bit_setByte (s : State) (a : Nat) (v : Byte) (q : RF) : (s.setByte a v).bit q = s.bit q := by_refl rfl
@[simp] theorem reg_setByte (s : State) (a : Nat) (v : Byte) (k : Nat) : (s.setByte a v).reg k = s.reg k := by_refl rfl
@[simp] theorem runs_setByte (s : State) (a : Nat) (v : Byte) (k : Nat) : (s.setByte a v).runs k = s.runs k := by_refl rfl
@[simp] theorem rd_draw (s : State) (q : RF) : s.draw.2.rd q = s.rd q := by_refl rfl
@[simp] theorem bit_draw (s : State) (q : RF) : s.draw.2.bit q = s.bit q := by_refl rfl
@[simp] theorem reg_draw (s : State) (k : Nat) : s.draw.2.reg k = s.reg k := by_refl rfl
@[simp] theorem runs_draw (s : State) (k : Nat) : s.draw.2.runs k = s.runs k := by_refl rfl
@[simp] theorem memByte_setReg (s : State) (a : Nat) (v : Word) (k : Nat) : (s.setReg a v).memByte k = s.memByte k := by_refl rfl
@[simp] theorem shReg_setReg (s : State) (a : Nat) (v : Word) (k : Nat) : (s.setReg a v).shReg k = s.shReg k := by_refl rfl
@[simp] theorem memByte_wr (s : State) (r : RF) (n : Nat) (k : Nat) : (s.wr r n).memByte k = s.memByte k := by_refl rfl
@[simp] theorem shReg_wr (s : State) (r : RF) (n : Nat) (k : Nat) : (s.wr r n).shReg k = s.shReg k := by_refl rfl
@[simp] theorem memByte_put (s : State) (r : RF) (b : Bool) (k : Nat) : (s.put r b).memByte k = s.memByte k := by_refl rfl
@[simp] theorem shReg_put (s : State) (r : RF) (b : Bool) (k : Nat) : (s.put r b).shReg k = s.shReg k := by_refl rfl
@[simp] theorem memByte_addTo (s : State) (r : RF) (n : Nat) (k : Nat) : (s.addTo r n).memByte k = s.memByte k := by_refl rfl
@[simp] theorem shReg_addTo (s : State) (r : RF) (n : Nat) (k : Nat) : (s.addTo r n).shReg k = s.shReg k := by_refl rfl
@[simp] theorem memByte_inc (s : State) (r : RF) (k : Nat) : (s.inc r).memByte k = s.memByte k := by_refl rfl
@[simp] theorem shReg_inc (s : State) (r : RF) (k : Nat) : (s.inc r).shReg k = s.shReg k := by_refl rfl
@[simp] theorem memByte_setBit (s : State) (r : RF) (i : Nat) (k : Nat) : (s.setBit r i).memByte k = s.memByte k := by_refl rfl
@[simp] theorem shReg_setBit (s : State) (r : RF) (i : Nat) (k : Nat) : (s.setBit r i).shReg k = s.shReg k := by_refl rfl
@[simp] theorem memByte_clrBit (s : State) (r : RF) (i : Nat) (k : Nat) : (s.clrBit r i).memByte k = s.memByte k := by_refl rfl
@[simp] theorem shReg_clrBit (s : State) (r : RF) (i : Nat) (k : Nat) : (s.clrBit r i).shReg k = s.shReg k := by_refl rfl
@[simp] theorem memByte_setSh (s : State) (a : Nat) (v : Word) (k : Nat) : (s.setSh a v).memByte k = s.memByte k := by_refl rfl
@[simp] theorem lq_setLq (s : State) (k : Nat) (v : LeafQ) : (s.setLq k v).lq k = v := SMap.get_set_same _ _ _ _
theorem lq_setLq_ne (s : State) {k j : Nat} (v : LeafQ) (h : j ≠ k) : (s.setLq k v).lq j = s.lq j :=
  SMap.get_set_ne _ _ _ _ _ h
@[simp] theorem rd_setLq (s : State) (k : Nat) (v : LeafQ) (q : RF) : (s.setLq k v).rd q = s.rd q := by_refl rfl
@[simp] theorem bit_setLq (s : State) (k : Nat) (v : LeafQ) (q : RF) : (s.setLq k v).bit q = s.bit q := by_refl rfl
@[simp] theorem reg_setLq (s : State) (k : Nat) (v : LeafQ) (a : Nat) : (s.setLq k v).reg a = s.reg a := by_refl rfl
@[simp] theorem runs_setLq (s : State) (k : Nat) (v : LeafQ) (b : Nat) : (s.setLq k v).runs b = s.runs b := by_refl rfl
@[simp] theorem memByte_setLq (s : State) (k : Nat) (v : LeafQ) (a : Nat) : (s.setLq k v).memByte a = s.memByte a := by_refl rfl
@[simp] theorem profile_setProfile (s : State) (k : Nat) (v : Profile) : (s.setProfile k v).profile k = v := SMap.get_set_same _ _ _ _
theorem profile_setProfile_ne (s : State) {k j : Nat} (v : Profile) (h : j ≠ k) : (s.setProfile k v).profile j = s.profile j :=
  SMap.get_set_ne _ _ _ _ _ h
@[simp] theorem rd_setProfile (s : State) (k : Nat) (v : Profile) (q : RF) : (s.setProfile k v).rd q = s.rd q := by_refl rfl
@[simp] theorem bit_setProfile (s : State) (k : Nat) (v : Profile) (q : RF) : (s.setProfile k v).bit q = s.bit q := by_refl rfl
@[simp] theorem reg_setProfile (s : State) (k : Nat) (v : Profile) (a : Nat) : (s.setProfile k v).reg a = s.reg a := by_refl rfl
@[simp] theorem runs_setProfile (s : State) (k : Nat) (v : Profile) (b : Nat) : (s.setProfile k v).runs b = s.runs b := by_refl rfl
@[simp] theorem memByte_setProfile (s : State) (k : Nat) (v : Profile) (a : Nat) : (s.setProfile k v).memByte a = s.memByte a := by_refl rfl
@[simp] theorem poolUsed_setPoolUsed (s : State) (k : Nat) (v : Nat) : (s.setPoolUsed k v).poolUsed k = v := SMap.get_set_same _ _ _ _
theorem poolUsed_setPoolUsed_ne (s : State) {k j : Nat} (v : Nat) (h : j ≠ k) : (s.setPoolUsed k v).poolUsed j = s.poolUsed j :=
  SMap.get_set_ne _ _ _ _ _ h
@[simp] theorem rd_setPoolUsed (s : State) (k : Nat) (v : Nat) (q : RF) : (s.setPoolUsed k v).rd q = s.rd q := by_refl rfl
@[simp] theorem bit_setPoolUsed (s : State) (k : Nat) (v : Nat) (q : RF) : (s.setPoolUsed k v).bit q = s.bit q := by_refl rfl
@[simp] theorem reg_setPoolUsed (s : State) (k : Nat) (v : Nat) (a : Nat) : (s.setPoolUsed k v).reg a = s.reg a := by_refl rfl
@[simp] theorem runs_setPoolUsed (s : State) (k : Nat) (v : Nat) (b : Nat) : (s.setPoolUsed k v).runs b = s.runs b := by_refl rfl
@[simp] theorem memByte_setPoolUsed (s : State) (k : Nat) (v : Nat) (a : Nat) : (s.setPoolUsed k v).memByte a = s.memByte a := by_refl rfl
@[simp] theorem stack_setStack (s : State) (k : Nat) (v : Stack) : (s.setStack k v).stack k = v := SMap.get_set_same _ _ _ _
theorem stack_setStack_ne (s : State) {k j : Nat} (v : Stack) (h : j ≠ k) : (s.setStack k v).stack j = s.stack j :=
  SMap.get_set_ne _ _ _ _ _ h
@[simp] theorem rd_setStack (s : State) (k : Nat) (v : Stack) (q : RF) : (s.setStack k v).rd q = s.rd q := by_refl rfl
@[simp] theorem bit_setStack (s : State) (k : Nat) (v : Stack) (q : RF) : (s.setStack k v).bit q = s.bit q := by_refl rfl
@[simp] theorem reg_setStack (s : State) (k : Nat) (v : Stack) (a : Nat) : (s.setStack k v).reg a = s.reg a := by_refl rfl
@[simp] theorem runs_setStack (s : State) (k : Nat) (v : Stack) (b : Nat) : (s.setStack k v).runs b = s.runs b := by_refl rfl
@[simp] theorem memByte_setStack (s : State) (k : Nat) (v : Stack) (a : Nat) : (s.setStack k v).memByte a = s.memByte a := by_refl rfl
@[simp] theorem leafObj_setLeafObj (s : State) (k : Nat) (v : SchObj) : (s.setLeafObj k v).leafObj k = v := SMap.get_set_same _ _ _ _
theorem leafObj_setLeafObj_ne (s : State) {k j : Nat} (v : SchObj) (h : j ≠ k) : (s.setLeafObj k v).leafObj j = s.leafObj j :=
  SMap.get_set_ne _ _ _ _ _ h
@[simp] theorem rd_setLeafObj (s : State) (k : Nat) (v : SchObj) (q : RF) : (s.setLeafObj k v).rd q = s.rd q := by_refl rfl
@[simp] theorem bit_setLeafObj (s : State) (k : Nat) (v : SchObj) (q : RF) : (s.setLeafObj k v).bit q = s.bit q := by_refl rfl
@[simp] theorem reg_setLeafObj (s : State) (k : Nat) (v : SchObj) (a : Nat) : (s.setLeafObj k v).reg a = s.reg a := by_refl rfl
@[simp] theorem runs_setLeafObj (s : State) (k : Nat) (v : SchObj) (b : Nat) : (s.setLeafObj k v).runs b = s.runs b := by_refl rfl
@[simp] theorem memByte_setLeafObj (s : State) (k : Nat) (v : SchObj) (a : Nat) : (s.setLeafObj k v).memByte a = s.memByte a := by_refl rfl
@[simp] theorem sub_setSub (s : State) (k : Nat) (v : Subscriber) : (s.setSub k v).sub k = v := SMap.get_set_same _ _ _ _
theorem sub_setSub_ne (s : State) {k j : Nat} (v : Subscriber) (h : j ≠ k) : (s.setSub k v).sub j = s.sub j :=
  SMap.get_set_ne _ _ _ _ _ h
@[simp] theorem rd_setSub (s : State) (k : Nat) (v : Subscriber) (q : RF) : (s.setSub k v).rd q = s.rd q := by_refl rfl
@[simp] theorem bit_setSub (s : State) (k : Nat) (v : Subscriber) (q : RF) : (s.setSub k v).bit q = s.bit q := by_refl rfl
@[simp] theorem reg_setSub (s : State) (k : Nat) (v : Subscriber) (a : Nat) : (s.setSub k v).reg a = s.reg a := by_refl rfl
@[simp] theorem runs_setSub (s : State) (k : Nat) (v : Subscriber) (b : Nat) : (s.setSub k v).runs b = s.runs b := by_refl rfl
@[simp] theorem memByte_setSub (s : State) (k : Nat) (v : Subscriber) (a : Nat) : (s.setSub k v).memByte a = s.memByte a := by_refl rfl
@[simp] theorem svc_setSvc (s : State) (k : Nat) (v : SchObj) : (s.setSvc k v).svc k = v := SMap.get_set_same _ _ _ _
theorem svc_setSvc_ne (s : State) {k j : Nat} (v : SchObj) (h : j ≠ k) : (s.setSvc k v).svc j = s.svc j :=
  SMap.get_set_ne _ _ _ _ _ h
@[simp] theorem rd_setSvc (s : State) (k : Nat) (v : SchObj) (q : RF) : (s.setSvc k v).rd q = s.rd q := by_refl rfl
@[simp] theorem bit_setSvc (s : State) (k : Nat) (v : SchObj) (q : RF) : (s.setSvc k v).bit q = s.bit q := by_refl rfl
@[simp] theorem reg_setSvc (s : State) (k : Nat) (v : SchObj) (a : Nat) : (s.setSvc k v).reg a = s.reg a := by_refl rfl
@[simp] theorem runs_setSvc (s : State) (k : Nat) (v : SchObj) (b : Nat) : (s.setSvc k v).runs b = s.runs b := by_refl rfl
@[simp] theorem memByte_setSvc (s : State) (k : Nat) (v : SchObj) (a : Nat) : (s.setSvc k v).memByte a = s.memByte a := by_refl rfl
@[simp] theorem portObj_setPortObj (s : State) (k : Nat) (v : SchObj) : (s.setPortObj k v).portObj k = v := SMap.get_set_same _ _ _ _
theorem portObj_setPortObj_ne (s : State) {k j : Nat} (v : SchObj) (h : j ≠ k) : (s.setPortObj k v).portObj j = s.portObj j :=
  SMap.get_set_ne _ _ _ _ _ h
@[simp] theorem rd_setPortObj (s : State) (k : Nat) (v : SchObj) (q : RF) : (s.setPortObj k v).rd q = s.rd q := by_refl rfl
@[simp] theorem bit_setPortObj (s : State) (k : Nat) (v : SchObj) (q : RF) : (s.setPortObj k v).bit q = s.bit q := by_refl rfl
@[simp] theorem reg_setPortObj (s : State) (k : Nat) (v : SchObj) (a : Nat) : (s.setPortObj k v).reg a = s.reg a := by_refl rfl
@[simp] theorem runs_setPortObj (s : State) (k : Nat) (v : SchObj) (b : Nat) : (s.setPortObj k v).runs b = s.runs b := by_refl rfl
@[simp] theorem memByte_setPortObj (s : State) (k : Nat) (v : SchObj) (a : Nat) : (s.setPortObj k v).memByte a = s.memByte a := by_refl rfl
@[simp] theorem policer_setPolicer (s : State) (k : Nat) (v : Policer) : (s.setPolicer k v).policer k = v := SMap.get_set_same _ _ _ _
theorem policer_setPolicer_ne (s : State) {k j : Nat} (v : Policer) (h : j ≠ k) : (s.setPolicer k v).policer j = s.policer j :=
  SMap.get_set_ne _ _ _ _ _ h
@[simp] theorem rd_setPolicer (s : State) (k : Nat) (v : Policer) (q : RF) : (s.setPolicer k v).rd q = s.rd q := by_refl rfl
@[simp] theorem bit_setPolicer (s : State) (k : Nat) (v : Policer) (q : RF) : (s.setPolicer k v).bit q = s.bit q := by_refl rfl
@[simp] theorem reg_setPolicer (s : State) (k : Nat) (v : Policer) (a : Nat) : (s.setPolicer k v).reg a = s.reg a := by_refl rfl
@[simp] theorem runs_setPolicer (s : State) (k : Nat) (v : Policer) (b : Nat) : (s.setPolicer k v).runs b = s.runs b := by_refl rfl
@[simp] theorem memByte_setPolicer (s : State) (k : Nat) (v : Policer) (a : Nat) : (s.setPolicer k v).memByte a = s.memByte a := by_refl rfl
@[simp] theorem toMac_setToMac (s : State) (k : Nat) (v : List (Nat × QPkt)) : (s.setToMac k v).toMac k = v := SMap.get_set_same _ _ _ _
theorem toMac_setToMac_ne (s : State) {k j : Nat} (v : List (Nat × QPkt)) (h : j ≠ k) : (s.setToMac k v).toMac j = s.toMac j :=
  SMap.get_set_ne _ _ _ _ _ h
@[simp] theorem rd_setToMac (s : State) (k : Nat) (v : List (Nat × QPkt)) (q : RF) : (s.setToMac k v).rd q = s.rd q := by_refl rfl
@[simp] theorem bit_setToMac (s : State) (k : Nat) (v : List (Nat × QPkt)) (q : RF) : (s.setToMac k v).bit q = s.bit q := by_refl rfl
@[simp] theorem reg_setToMac (s : State) (k : Nat) (v : List (Nat × QPkt)) (a : Nat) : (s.setToMac k v).reg a = s.reg a := by_refl rfl
@[simp] theorem runs_setToMac (s : State) (k : Nat) (v : List (Nat × QPkt)) (b : Nat) : (s.setToMac k v).runs b = s.runs b := by_refl rfl
@[simp] theorem memByte_setToMac (s : State) (k : Nat) (v : List (Nat × QPkt)) (a : Nat) : (s.setToMac k v).memByte a = s.memByte a := by_refl rfl
@[simp] theorem gclPort_setGclPort (s : State) (k : Nat) (v : GclPort) : (s.setGclPort k v).gclPort k = v := SMap.get_set_same _ _ _ _
theorem gclPort_setGclPort_ne (s : State) {k j : Nat} (v : GclPort) (h : j ≠ k) : (s.setGclPort k v).gclPort j = s.gclPort j :=
  SMap.get_set_ne _ _ _ _ _ h
@[simp] theorem rd_setGclPort (s : State) (k : Nat) (v : GclPort) (q : RF) : (s.setGclPort k v).rd q = s.rd q := by_refl rfl
@[simp] theorem bit_setGclPort (s : State) (k : Nat) (v : GclPort) (q : RF) : (s.setGclPort k v).bit q = s.bit q := by_refl rfl
@[simp] theorem reg_setGclPort (s : State) (k : Nat) (v : GclPort) (a : Nat) : (s.setGclPort k v).reg a = s.reg a := by_refl rfl
@[simp] theorem runs_setGclPort (s : State) (k : Nat) (v : GclPort) (b : Nat) : (s.setGclPort k v).runs b = s.runs b := by_refl rfl
@[simp] theorem memByte_setGclPort (s : State) (k : Nat) (v : GclPort) (a : Nat) : (s.setGclPort k v).memByte a = s.memByte a := by_refl rfl
@[simp] theorem slot_setSlot (s : State) (k : Nat) (v : KeySlot) : (s.setSlot k v).slot k = v := SMap.get_set_same _ _ _ _
theorem slot_setSlot_ne (s : State) {k j : Nat} (v : KeySlot) (h : j ≠ k) : (s.setSlot k v).slot j = s.slot j :=
  SMap.get_set_ne _ _ _ _ _ h
@[simp] theorem rd_setSlot (s : State) (k : Nat) (v : KeySlot) (q : RF) : (s.setSlot k v).rd q = s.rd q := by_refl rfl
@[simp] theorem bit_setSlot (s : State) (k : Nat) (v : KeySlot) (q : RF) : (s.setSlot k v).bit q = s.bit q := by_refl rfl
@[simp] theorem reg_setSlot (s : State) (k : Nat) (v : KeySlot) (a : Nat) : (s.setSlot k v).reg a = s.reg a := by_refl rfl
@[simp] theorem runs_setSlot (s : State) (k : Nat) (v : KeySlot) (b : Nat) : (s.setSlot k v).runs b = s.runs b := by_refl rfl
@[simp] theorem memByte_setSlot (s : State) (k : Nat) (v : KeySlot) (a : Nat) : (s.setSlot k v).memByte a = s.memByte a := by_refl rfl
@[simp] theorem root_setRoot (s : State) (k : Nat) (v : Option Bytes) : (s.setRoot k v).root k = v := SMap.get_set_same _ _ _ _
theorem root_setRoot_ne (s : State) {k j : Nat} (v : Option Bytes) (h : j ≠ k) : (s.setRoot k v).root j = s.root j :=
  SMap.get_set_ne _ _ _ _ _ h
@[simp] theorem rd_setRoot (s : State) (k : Nat) (v : Option Bytes) (q : RF) : (s.setRoot k v).rd q = s.rd q := by_refl rfl
@[simp] theorem bit_setRoot (s : State) (k : Nat) (v : Option Bytes) (q : RF) : (s.setRoot k v).bit q = s.bit q := by_refl rfl
@[simp] theorem reg_setRoot (s : State) (k : Nat) (v : Option Bytes) (a : Nat) : (s.setRoot k v).reg a = s.reg a := by_refl rfl
@[simp] theorem runs_setRoot (s : State) (k : Nat) (v : Option Bytes) (b : Nat) : (s.setRoot k v).runs b = s.runs b := by_refl rfl
@[simp] theorem memByte_setRoot (s : State) (k : Nat) (v : Option Bytes) (a : Nat) : (s.setRoot k v).memByte a = s.memByte a := by_refl rfl
@[simp] theorem kek_setKek (s : State) (k : Nat) (v : Option Bytes) : (s.setKek k v).kek k = v := SMap.get_set_same _ _ _ _
theorem kek_setKek_ne (s : State) {k j : Nat} (v : Option Bytes) (h : j ≠ k) : (s.setKek k v).kek j = s.kek j :=
  SMap.get_set_ne _ _ _ _ _ h
@[simp] theorem rd_setKek (s : State) (k : Nat) (v : Option Bytes) (q : RF) : (s.setKek k v).rd q = s.rd q := by_refl rfl
@[simp] theorem bit_setKek (s : State) (k : Nat) (v : Option Bytes) (q : RF) : (s.setKek k v).bit q = s.bit q := by_refl rfl
@[simp] theorem reg_setKek (s : State) (k : Nat) (v : Option Bytes) (a : Nat) : (s.setKek k v).reg a = s.reg a := by_refl rfl
@[simp] theorem runs_setKek (s : State) (k : Nat) (v : Option Bytes) (b : Nat) : (s.setKek k v).runs b = s.runs b := by_refl rfl
@[simp] theorem memByte_setKek (s : State) (k : Nat) (v : Option Bytes) (a : Nat) : (s.setKek k v).memByte a = s.memByte a := by_refl rfl
@[simp] theorem epoch_setEpoch (s : State) (k : Nat) (v : EpochSt) : (s.setEpoch k v).epoch k = v := SMap.get_set_same _ _ _ _
theorem epoch_setEpoch_ne (s : State) {k j : Nat} (v : EpochSt) (h : j ≠ k) : (s.setEpoch k v).epoch j = s.epoch j :=
  SMap.get_set_ne _ _ _ _ _ h
@[simp] theorem rd_setEpoch (s : State) (k : Nat) (v : EpochSt) (q : RF) : (s.setEpoch k v).rd q = s.rd q := by_refl rfl
@[simp] theorem bit_setEpoch (s : State) (k : Nat) (v : EpochSt) (q : RF) : (s.setEpoch k v).bit q = s.bit q := by_refl rfl
@[simp] theorem reg_setEpoch (s : State) (k : Nat) (v : EpochSt) (a : Nat) : (s.setEpoch k v).reg a = s.reg a := by_refl rfl
@[simp] theorem runs_setEpoch (s : State) (k : Nat) (v : EpochSt) (b : Nat) : (s.setEpoch k v).runs b = s.runs b := by_refl rfl
@[simp] theorem memByte_setEpoch (s : State) (k : Nat) (v : EpochSt) (a : Nat) : (s.setEpoch k v).memByte a = s.memByte a := by_refl rfl
@[simp] theorem lastEpoch_setLastEpoch (s : State) (k : Nat) (v : Option Nat) : (s.setLastEpoch k v).lastEpoch k = v := SMap.get_set_same _ _ _ _
theorem lastEpoch_setLastEpoch_ne (s : State) {k j : Nat} (v : Option Nat) (h : j ≠ k) : (s.setLastEpoch k v).lastEpoch j = s.lastEpoch j :=
  SMap.get_set_ne _ _ _ _ _ h
@[simp] theorem rd_setLastEpoch (s : State) (k : Nat) (v : Option Nat) (q : RF) : (s.setLastEpoch k v).rd q = s.rd q := by_refl rfl
@[simp] theorem bit_setLastEpoch (s : State) (k : Nat) (v : Option Nat) (q : RF) : (s.setLastEpoch k v).bit q = s.bit q := by_refl rfl
@[simp] theorem reg_setLastEpoch (s : State) (k : Nat) (v : Option Nat) (a : Nat) : (s.setLastEpoch k v).reg a = s.reg a := by_refl rfl
@[simp] theorem runs_setLastEpoch (s : State) (k : Nat) (v : Option Nat) (b : Nat) : (s.setLastEpoch k v).runs b = s.runs b := by_refl rfl
@[simp] theorem memByte_setLastEpoch (s : State) (k : Nat) (v : Option Nat) (a : Nat) : (s.setLastEpoch k v).memByte a = s.memByte a := by_refl rfl
@[simp] theorem binding_setBinding (s : State) (k : Nat) (v : Binding) : (s.setBinding k v).binding k = v := SMap.get_set_same _ _ _ _
theorem binding_setBinding_ne (s : State) {k j : Nat} (v : Binding) (h : j ≠ k) : (s.setBinding k v).binding j = s.binding j :=
  SMap.get_set_ne _ _ _ _ _ h
@[simp] theorem rd_setBinding (s : State) (k : Nat) (v : Binding) (q : RF) : (s.setBinding k v).rd q = s.rd q := by_refl rfl
@[simp] theorem bit_setBinding (s : State) (k : Nat) (v : Binding) (q : RF) : (s.setBinding k v).bit q = s.bit q := by_refl rfl
@[simp] theorem reg_setBinding (s : State) (k : Nat) (v : Binding) (a : Nat) : (s.setBinding k v).reg a = s.reg a := by_refl rfl
@[simp] theorem runs_setBinding (s : State) (k : Nat) (v : Binding) (b : Nat) : (s.setBinding k v).runs b = s.runs b := by_refl rfl
@[simp] theorem memByte_setBinding (s : State) (k : Nat) (v : Binding) (a : Nat) : (s.setBinding k v).memByte a = s.memByte a := by_refl rfl
@[simp] theorem klnData_setKlnData (s : State) (k : Nat) (v : Word) : (s.setKlnData k v).klnData k = v := SMap.get_set_same _ _ _ _
theorem klnData_setKlnData_ne (s : State) {k j : Nat} (v : Word) (h : j ≠ k) : (s.setKlnData k v).klnData j = s.klnData j :=
  SMap.get_set_ne _ _ _ _ _ h
@[simp] theorem rd_setKlnData (s : State) (k : Nat) (v : Word) (q : RF) : (s.setKlnData k v).rd q = s.rd q := by_refl rfl
@[simp] theorem bit_setKlnData (s : State) (k : Nat) (v : Word) (q : RF) : (s.setKlnData k v).bit q = s.bit q := by_refl rfl
@[simp] theorem reg_setKlnData (s : State) (k : Nat) (v : Word) (a : Nat) : (s.setKlnData k v).reg a = s.reg a := by_refl rfl
@[simp] theorem runs_setKlnData (s : State) (k : Nat) (v : Word) (b : Nat) : (s.setKlnData k v).runs b = s.runs b := by_refl rfl
@[simp] theorem memByte_setKlnData (s : State) (k : Nat) (v : Word) (a : Nat) : (s.setKlnData k v).memByte a = s.memByte a := by_refl rfl
@[simp] theorem txSa_setTxSa (s : State) (k : Nat) (v : SecAssoc) : (s.setTxSa k v).txSa k = v := SMap.get_set_same _ _ _ _
theorem txSa_setTxSa_ne (s : State) {k j : Nat} (v : SecAssoc) (h : j ≠ k) : (s.setTxSa k v).txSa j = s.txSa j :=
  SMap.get_set_ne _ _ _ _ _ h
@[simp] theorem rd_setTxSa (s : State) (k : Nat) (v : SecAssoc) (q : RF) : (s.setTxSa k v).rd q = s.rd q := by_refl rfl
@[simp] theorem bit_setTxSa (s : State) (k : Nat) (v : SecAssoc) (q : RF) : (s.setTxSa k v).bit q = s.bit q := by_refl rfl
@[simp] theorem reg_setTxSa (s : State) (k : Nat) (v : SecAssoc) (a : Nat) : (s.setTxSa k v).reg a = s.reg a := by_refl rfl
@[simp] theorem runs_setTxSa (s : State) (k : Nat) (v : SecAssoc) (b : Nat) : (s.setTxSa k v).runs b = s.runs b := by_refl rfl
@[simp] theorem memByte_setTxSa (s : State) (k : Nat) (v : SecAssoc) (a : Nat) : (s.setTxSa k v).memByte a = s.memByte a := by_refl rfl
@[simp] theorem rxSa_setRxSa (s : State) (k : Nat) (v : SecAssoc) : (s.setRxSa k v).rxSa k = v := SMap.get_set_same _ _ _ _
theorem rxSa_setRxSa_ne (s : State) {k j : Nat} (v : SecAssoc) (h : j ≠ k) : (s.setRxSa k v).rxSa j = s.rxSa j :=
  SMap.get_set_ne _ _ _ _ _ h
@[simp] theorem rd_setRxSa (s : State) (k : Nat) (v : SecAssoc) (q : RF) : (s.setRxSa k v).rd q = s.rd q := by_refl rfl
@[simp] theorem bit_setRxSa (s : State) (k : Nat) (v : SecAssoc) (q : RF) : (s.setRxSa k v).bit q = s.bit q := by_refl rfl
@[simp] theorem reg_setRxSa (s : State) (k : Nat) (v : SecAssoc) (a : Nat) : (s.setRxSa k v).reg a = s.reg a := by_refl rfl
@[simp] theorem runs_setRxSa (s : State) (k : Nat) (v : SecAssoc) (b : Nat) : (s.setRxSa k v).runs b = s.runs b := by_refl rfl
@[simp] theorem memByte_setRxSa (s : State) (k : Nat) (v : SecAssoc) (a : Nat) : (s.setRxSa k v).memByte a = s.memByte a := by_refl rfl
@[simp] theorem pair_setPair (s : State) (k : Nat) (v : ActPair) : (s.setPair k v).pair k = v := SMap.get_set_same _ _ _ _
theorem pair_setPair_ne (s : State) {k j : Nat} (v : ActPair) (h : j ≠ k) : (s.setPair k v).pair j = s.pair j :=
  SMap.get_set_ne _ _ _ _ _ h
@[simp] theorem rd_setPair (s : State) (k : Nat) (v : ActPair) (q : RF) : (s.setPair k v).rd q = s.rd q := by_refl rfl
@[simp] theorem bit_setPair (s : State) (k : Nat) (v : ActPair) (q : RF) : (s.setPair k v).bit q = s.bit q := by_refl rfl
@[simp] theorem reg_setPair (s : State) (k : Nat) (v : ActPair) (a : Nat) : (s.setPair k v).reg a = s.reg a := by_refl rfl
@[simp] theorem runs_setPair (s : State) (k : Nat) (v : ActPair) (b : Nat) : (s.setPair k v).runs b = s.runs b := by_refl rfl
@[simp] theorem memByte_setPair (s : State) (k : Nat) (v : ActPair) (a : Nat) : (s.setPair k v).memByte a = s.memByte a := by_refl rfl
@[simp] theorem ubeCh_setUbeCh (s : State) (k : Nat) (v : UbeCh) : (s.setUbeCh k v).ubeCh k = v := SMap.get_set_same _ _ _ _
theorem ubeCh_setUbeCh_ne (s : State) {k j : Nat} (v : UbeCh) (h : j ≠ k) : (s.setUbeCh k v).ubeCh j = s.ubeCh j :=
  SMap.get_set_ne _ _ _ _ _ h
@[simp] theorem rd_setUbeCh (s : State) (k : Nat) (v : UbeCh) (q : RF) : (s.setUbeCh k v).rd q = s.rd q := by_refl rfl
@[simp] theorem bit_setUbeCh (s : State) (k : Nat) (v : UbeCh) (q : RF) : (s.setUbeCh k v).bit q = s.bit q := by_refl rfl
@[simp] theorem reg_setUbeCh (s : State) (k : Nat) (v : UbeCh) (a : Nat) : (s.setUbeCh k v).reg a = s.reg a := by_refl rfl
@[simp] theorem runs_setUbeCh (s : State) (k : Nat) (v : UbeCh) (b : Nat) : (s.setUbeCh k v).runs b = s.runs b := by_refl rfl
@[simp] theorem memByte_setUbeCh (s : State) (k : Nat) (v : UbeCh) (a : Nat) : (s.setUbeCh k v).memByte a = s.memByte a := by_refl rfl
@[simp] theorem allocCtx_setAllocCtx (s : State) (k : Nat) (v : AllocCtx) : (s.setAllocCtx k v).allocCtx k = v := SMap.get_set_same _ _ _ _
theorem allocCtx_setAllocCtx_ne (s : State) {k j : Nat} (v : AllocCtx) (h : j ≠ k) : (s.setAllocCtx k v).allocCtx j = s.allocCtx j :=
  SMap.get_set_ne _ _ _ _ _ h
@[simp] theorem rd_setAllocCtx (s : State) (k : Nat) (v : AllocCtx) (q : RF) : (s.setAllocCtx k v).rd q = s.rd q := by_refl rfl
@[simp] theorem bit_setAllocCtx (s : State) (k : Nat) (v : AllocCtx) (q : RF) : (s.setAllocCtx k v).bit q = s.bit q := by_refl rfl
@[simp] theorem reg_setAllocCtx (s : State) (k : Nat) (v : AllocCtx) (a : Nat) : (s.setAllocCtx k v).reg a = s.reg a := by_refl rfl
@[simp] theorem runs_setAllocCtx (s : State) (k : Nat) (v : AllocCtx) (b : Nat) : (s.setAllocCtx k v).runs b = s.runs b := by_refl rfl
@[simp] theorem memByte_setAllocCtx (s : State) (k : Nat) (v : AllocCtx) (a : Nat) : (s.setAllocCtx k v).memByte a = s.memByte a := by_refl rfl
@[simp] theorem upStream_setUpStream (s : State) (k : Nat) (v : UpStream) : (s.setUpStream k v).upStream k = v := SMap.get_set_same _ _ _ _
theorem upStream_setUpStream_ne (s : State) {k j : Nat} (v : UpStream) (h : j ≠ k) : (s.setUpStream k v).upStream j = s.upStream j :=
  SMap.get_set_ne _ _ _ _ _ h
@[simp] theorem rd_setUpStream (s : State) (k : Nat) (v : UpStream) (q : RF) : (s.setUpStream k v).rd q = s.rd q := by_refl rfl
@[simp] theorem bit_setUpStream (s : State) (k : Nat) (v : UpStream) (q : RF) : (s.setUpStream k v).bit q = s.bit q := by_refl rfl
@[simp] theorem reg_setUpStream (s : State) (k : Nat) (v : UpStream) (a : Nat) : (s.setUpStream k v).reg a = s.reg a := by_refl rfl
@[simp] theorem runs_setUpStream (s : State) (k : Nat) (v : UpStream) (b : Nat) : (s.setUpStream k v).runs b = s.runs b := by_refl rfl
@[simp] theorem memByte_setUpStream (s : State) (k : Nat) (v : UpStream) (a : Nat) : (s.setUpStream k v).memByte a = s.memByte a := by_refl rfl
@[simp] theorem chpCh_setChpCh (s : State) (k : Nat) (v : ChpCh) : (s.setChpCh k v).chpCh k = v := SMap.get_set_same _ _ _ _
theorem chpCh_setChpCh_ne (s : State) {k j : Nat} (v : ChpCh) (h : j ≠ k) : (s.setChpCh k v).chpCh j = s.chpCh j :=
  SMap.get_set_ne _ _ _ _ _ h
@[simp] theorem rd_setChpCh (s : State) (k : Nat) (v : ChpCh) (q : RF) : (s.setChpCh k v).rd q = s.rd q := by_refl rfl
@[simp] theorem bit_setChpCh (s : State) (k : Nat) (v : ChpCh) (q : RF) : (s.setChpCh k v).bit q = s.bit q := by_refl rfl
@[simp] theorem reg_setChpCh (s : State) (k : Nat) (v : ChpCh) (a : Nat) : (s.setChpCh k v).reg a = s.reg a := by_refl rfl
@[simp] theorem runs_setChpCh (s : State) (k : Nat) (v : ChpCh) (b : Nat) : (s.setChpCh k v).runs b = s.runs b := by_refl rfl
@[simp] theorem memByte_setChpCh (s : State) (k : Nat) (v : ChpCh) (a : Nat) : (s.setChpCh k v).memByte a = s.memByte a := by_refl rfl
@[simp] theorem hart_setHart (s : State) (k : Nat) (v : Hart) : (s.setHart k v).hart k = v := SMap.get_set_same _ _ _ _
theorem hart_setHart_ne (s : State) {k j : Nat} (v : Hart) (h : j ≠ k) : (s.setHart k v).hart j = s.hart j :=
  SMap.get_set_ne _ _ _ _ _ h
@[simp] theorem rd_setHart (s : State) (k : Nat) (v : Hart) (q : RF) : (s.setHart k v).rd q = s.rd q := by_refl rfl
@[simp] theorem bit_setHart (s : State) (k : Nat) (v : Hart) (q : RF) : (s.setHart k v).bit q = s.bit q := by_refl rfl
@[simp] theorem reg_setHart (s : State) (k : Nat) (v : Hart) (a : Nat) : (s.setHart k v).reg a = s.reg a := by_refl rfl
@[simp] theorem runs_setHart (s : State) (k : Nat) (v : Hart) (b : Nat) : (s.setHart k v).runs b = s.runs b := by_refl rfl
@[simp] theorem memByte_setHart (s : State) (k : Nat) (v : Hart) (a : Nat) : (s.setHart k v).memByte a = s.memByte a := by_refl rfl
@[simp] theorem task_setTask (s : State) (k : Nat) (v : Task) : (s.setTask k v).task k = v := SMap.get_set_same _ _ _ _
theorem task_setTask_ne (s : State) {k j : Nat} (v : Task) (h : j ≠ k) : (s.setTask k v).task j = s.task j :=
  SMap.get_set_ne _ _ _ _ _ h
@[simp] theorem rd_setTask (s : State) (k : Nat) (v : Task) (q : RF) : (s.setTask k v).rd q = s.rd q := by_refl rfl
@[simp] theorem bit_setTask (s : State) (k : Nat) (v : Task) (q : RF) : (s.setTask k v).bit q = s.bit q := by_refl rfl
@[simp] theorem reg_setTask (s : State) (k : Nat) (v : Task) (a : Nat) : (s.setTask k v).reg a = s.reg a := by_refl rfl
@[simp] theorem runs_setTask (s : State) (k : Nat) (v : Task) (b : Nat) : (s.setTask k v).runs b = s.runs b := by_refl rfl
@[simp] theorem memByte_setTask (s : State) (k : Nat) (v : Task) (a : Nat) : (s.setTask k v).memByte a = s.memByte a := by_refl rfl
@[simp] theorem frec_setFrec (s : State) (k : Nat) (v : FltRec) : (s.setFrec k v).frec k = v := SMap.get_set_same _ _ _ _
theorem frec_setFrec_ne (s : State) {k j : Nat} (v : FltRec) (h : j ≠ k) : (s.setFrec k v).frec j = s.frec j :=
  SMap.get_set_ne _ _ _ _ _ h
@[simp] theorem rd_setFrec (s : State) (k : Nat) (v : FltRec) (q : RF) : (s.setFrec k v).rd q = s.rd q := by_refl rfl
@[simp] theorem bit_setFrec (s : State) (k : Nat) (v : FltRec) (q : RF) : (s.setFrec k v).bit q = s.bit q := by_refl rfl
@[simp] theorem reg_setFrec (s : State) (k : Nat) (v : FltRec) (a : Nat) : (s.setFrec k v).reg a = s.reg a := by_refl rfl
@[simp] theorem runs_setFrec (s : State) (k : Nat) (v : FltRec) (b : Nat) : (s.setFrec k v).runs b = s.runs b := by_refl rfl
@[simp] theorem memByte_setFrec (s : State) (k : Nat) (v : FltRec) (a : Nat) : (s.setFrec k v).memByte a = s.memByte a := by_refl rfl
@[simp] theorem fltSpares_setFltSpares (s : State) (k : Nat) (v : Nat) : (s.setFltSpares k v).fltSpares k = v := SMap.get_set_same _ _ _ _
theorem fltSpares_setFltSpares_ne (s : State) {k j : Nat} (v : Nat) (h : j ≠ k) : (s.setFltSpares k v).fltSpares j = s.fltSpares j :=
  SMap.get_set_ne _ _ _ _ _ h
@[simp] theorem rd_setFltSpares (s : State) (k : Nat) (v : Nat) (q : RF) : (s.setFltSpares k v).rd q = s.rd q := by_refl rfl
@[simp] theorem bit_setFltSpares (s : State) (k : Nat) (v : Nat) (q : RF) : (s.setFltSpares k v).bit q = s.bit q := by_refl rfl
@[simp] theorem reg_setFltSpares (s : State) (k : Nat) (v : Nat) (a : Nat) : (s.setFltSpares k v).reg a = s.reg a := by_refl rfl
@[simp] theorem runs_setFltSpares (s : State) (k : Nat) (v : Nat) (b : Nat) : (s.setFltSpares k v).runs b = s.runs b := by_refl rfl
@[simp] theorem memByte_setFltSpares (s : State) (k : Nat) (v : Nat) (a : Nat) : (s.setFltSpares k v).memByte a = s.memByte a := by_refl rfl
@[simp] theorem bank_setBank (s : State) (k : Nat) (v : BankSt) : (s.setBank k v).bank k = v := SMap.get_set_same _ _ _ _
theorem bank_setBank_ne (s : State) {k j : Nat} (v : BankSt) (h : j ≠ k) : (s.setBank k v).bank j = s.bank j :=
  SMap.get_set_ne _ _ _ _ _ h
@[simp] theorem rd_setBank (s : State) (k : Nat) (v : BankSt) (q : RF) : (s.setBank k v).rd q = s.rd q := by_refl rfl
@[simp] theorem bit_setBank (s : State) (k : Nat) (v : BankSt) (q : RF) : (s.setBank k v).bit q = s.bit q := by_refl rfl
@[simp] theorem reg_setBank (s : State) (k : Nat) (v : BankSt) (a : Nat) : (s.setBank k v).reg a = s.reg a := by_refl rfl
@[simp] theorem runs_setBank (s : State) (k : Nat) (v : BankSt) (b : Nat) : (s.setBank k v).runs b = s.runs b := by_refl rfl
@[simp] theorem memByte_setBank (s : State) (k : Nat) (v : BankSt) (a : Nat) : (s.setBank k v).memByte a = s.memByte a := by_refl rfl
@[simp] theorem group_setGroup (s : State) (k : Nat) (v : GroupSt) : (s.setGroup k v).group k = v := SMap.get_set_same _ _ _ _
theorem group_setGroup_ne (s : State) {k j : Nat} (v : GroupSt) (h : j ≠ k) : (s.setGroup k v).group j = s.group j :=
  SMap.get_set_ne _ _ _ _ _ h
@[simp] theorem rd_setGroup (s : State) (k : Nat) (v : GroupSt) (q : RF) : (s.setGroup k v).rd q = s.rd q := by_refl rfl
@[simp] theorem bit_setGroup (s : State) (k : Nat) (v : GroupSt) (q : RF) : (s.setGroup k v).bit q = s.bit q := by_refl rfl
@[simp] theorem reg_setGroup (s : State) (k : Nat) (v : GroupSt) (a : Nat) : (s.setGroup k v).reg a = s.reg a := by_refl rfl
@[simp] theorem runs_setGroup (s : State) (k : Nat) (v : GroupSt) (b : Nat) : (s.setGroup k v).runs b = s.runs b := by_refl rfl
@[simp] theorem memByte_setGroup (s : State) (k : Nat) (v : GroupSt) (a : Nat) : (s.setGroup k v).memByte a = s.memByte a := by_refl rfl
@[simp] theorem stagedReg_setStagedReg (s : State) (k : Nat) (v : Option Word) : (s.setStagedReg k v).stagedReg k = v := SMap.get_set_same _ _ _ _
theorem stagedReg_setStagedReg_ne (s : State) {k j : Nat} (v : Option Word) (h : j ≠ k) : (s.setStagedReg k v).stagedReg j = s.stagedReg j :=
  SMap.get_set_ne _ _ _ _ _ h
@[simp] theorem rd_setStagedReg (s : State) (k : Nat) (v : Option Word) (q : RF) : (s.setStagedReg k v).rd q = s.rd q := by_refl rfl
@[simp] theorem bit_setStagedReg (s : State) (k : Nat) (v : Option Word) (q : RF) : (s.setStagedReg k v).bit q = s.bit q := by_refl rfl
@[simp] theorem reg_setStagedReg (s : State) (k : Nat) (v : Option Word) (a : Nat) : (s.setStagedReg k v).reg a = s.reg a := by_refl rfl
@[simp] theorem runs_setStagedReg (s : State) (k : Nat) (v : Option Word) (b : Nat) : (s.setStagedReg k v).runs b = s.runs b := by_refl rfl
@[simp] theorem memByte_setStagedReg (s : State) (k : Nat) (v : Option Word) (a : Nat) : (s.setStagedReg k v).memByte a = s.memByte a := by_refl rfl
@[simp] theorem stagedCtx_setStagedCtx (s : State) (k : Nat) (v : Option (Bool × Nat)) : (s.setStagedCtx k v).stagedCtx k = v := SMap.get_set_same _ _ _ _
theorem stagedCtx_setStagedCtx_ne (s : State) {k j : Nat} (v : Option (Bool × Nat)) (h : j ≠ k) : (s.setStagedCtx k v).stagedCtx j = s.stagedCtx j :=
  SMap.get_set_ne _ _ _ _ _ h
@[simp] theorem rd_setStagedCtx (s : State) (k : Nat) (v : Option (Bool × Nat)) (q : RF) : (s.setStagedCtx k v).rd q = s.rd q := by_refl rfl
@[simp] theorem bit_setStagedCtx (s : State) (k : Nat) (v : Option (Bool × Nat)) (q : RF) : (s.setStagedCtx k v).bit q = s.bit q := by_refl rfl
@[simp] theorem reg_setStagedCtx (s : State) (k : Nat) (v : Option (Bool × Nat)) (a : Nat) : (s.setStagedCtx k v).reg a = s.reg a := by_refl rfl
@[simp] theorem runs_setStagedCtx (s : State) (k : Nat) (v : Option (Bool × Nat)) (b : Nat) : (s.setStagedCtx k v).runs b = s.runs b := by_refl rfl
@[simp] theorem memByte_setStagedCtx (s : State) (k : Nat) (v : Option (Bool × Nat)) (a : Nat) : (s.setStagedCtx k v).memByte a = s.memByte a := by_refl rfl
@[simp] theorem bseq_setBseq (s : State) (k : Nat) (v : Nat) : (s.setBseq k v).bseq k = v := SMap.get_set_same _ _ _ _
theorem bseq_setBseq_ne (s : State) {k j : Nat} (v : Nat) (h : j ≠ k) : (s.setBseq k v).bseq j = s.bseq j :=
  SMap.get_set_ne _ _ _ _ _ h
@[simp] theorem rd_setBseq (s : State) (k : Nat) (v : Nat) (q : RF) : (s.setBseq k v).rd q = s.rd q := by_refl rfl
@[simp] theorem bit_setBseq (s : State) (k : Nat) (v : Nat) (q : RF) : (s.setBseq k v).bit q = s.bit q := by_refl rfl
@[simp] theorem reg_setBseq (s : State) (k : Nat) (v : Nat) (a : Nat) : (s.setBseq k v).reg a = s.reg a := by_refl rfl
@[simp] theorem runs_setBseq (s : State) (k : Nat) (v : Nat) (b : Nat) : (s.setBseq k v).runs b = s.runs b := by_refl rfl
@[simp] theorem memByte_setBseq (s : State) (k : Nat) (v : Nat) (a : Nat) : (s.setBseq k v).memByte a = s.memByte a := by_refl rfl
@[simp] theorem lastB_setLastB (s : State) (k : Nat) (v : Nat) : (s.setLastB k v).lastB k = v := SMap.get_set_same _ _ _ _
theorem lastB_setLastB_ne (s : State) {k j : Nat} (v : Nat) (h : j ≠ k) : (s.setLastB k v).lastB j = s.lastB j :=
  SMap.get_set_ne _ _ _ _ _ h
@[simp] theorem rd_setLastB (s : State) (k : Nat) (v : Nat) (q : RF) : (s.setLastB k v).rd q = s.rd q := by_refl rfl
@[simp] theorem bit_setLastB (s : State) (k : Nat) (v : Nat) (q : RF) : (s.setLastB k v).bit q = s.bit q := by_refl rfl
@[simp] theorem reg_setLastB (s : State) (k : Nat) (v : Nat) (a : Nat) : (s.setLastB k v).reg a = s.reg a := by_refl rfl
@[simp] theorem runs_setLastB (s : State) (k : Nat) (v : Nat) (b : Nat) : (s.setLastB k v).runs b = s.runs b := by_refl rfl
@[simp] theorem memByte_setLastB (s : State) (k : Nat) (v : Nat) (a : Nat) : (s.setLastB k v).memByte a = s.memByte a := by_refl rfl
@[simp] theorem lineSched_setLineSched (s : State) (k : Nat) (v : Option LineMode) : (s.setLineSched k v).lineSched k = v := SMap.get_set_same _ _ _ _
theorem lineSched_setLineSched_ne (s : State) {k j : Nat} (v : Option LineMode) (h : j ≠ k) : (s.setLineSched k v).lineSched j = s.lineSched j :=
  SMap.get_set_ne _ _ _ _ _ h
@[simp] theorem rd_setLineSched (s : State) (k : Nat) (v : Option LineMode) (q : RF) : (s.setLineSched k v).rd q = s.rd q := by_refl rfl
@[simp] theorem bit_setLineSched (s : State) (k : Nat) (v : Option LineMode) (q : RF) : (s.setLineSched k v).bit q = s.bit q := by_refl rfl
@[simp] theorem reg_setLineSched (s : State) (k : Nat) (v : Option LineMode) (a : Nat) : (s.setLineSched k v).reg a = s.reg a := by_refl rfl
@[simp] theorem runs_setLineSched (s : State) (k : Nat) (v : Option LineMode) (b : Nat) : (s.setLineSched k v).runs b = s.runs b := by_refl rfl
@[simp] theorem memByte_setLineSched (s : State) (k : Nat) (v : Option LineMode) (a : Nat) : (s.setLineSched k v).memByte a = s.memByte a := by_refl rfl
@[simp] theorem lineDoze_setLineDoze (s : State) (k : Nat) (v : LineDoze) : (s.setLineDoze k v).lineDoze k = v := SMap.get_set_same _ _ _ _
theorem lineDoze_setLineDoze_ne (s : State) {k j : Nat} (v : LineDoze) (h : j ≠ k) : (s.setLineDoze k v).lineDoze j = s.lineDoze j :=
  SMap.get_set_ne _ _ _ _ _ h
@[simp] theorem rd_setLineDoze (s : State) (k : Nat) (v : LineDoze) (q : RF) : (s.setLineDoze k v).rd q = s.rd q := by_refl rfl
@[simp] theorem bit_setLineDoze (s : State) (k : Nat) (v : LineDoze) (q : RF) : (s.setLineDoze k v).bit q = s.bit q := by_refl rfl
@[simp] theorem reg_setLineDoze (s : State) (k : Nat) (v : LineDoze) (a : Nat) : (s.setLineDoze k v).reg a = s.reg a := by_refl rfl
@[simp] theorem runs_setLineDoze (s : State) (k : Nat) (v : LineDoze) (b : Nat) : (s.setLineDoze k v).runs b = s.runs b := by_refl rfl
@[simp] theorem memByte_setLineDoze (s : State) (k : Nat) (v : LineDoze) (a : Nat) : (s.setLineDoze k v).memByte a = s.memByte a := by_refl rfl
@[simp] theorem sleepOf_setSleepOf (s : State) (k : Nat) (v : Option (Nat × Nat)) : (s.setSleepOf k v).sleepOf k = v := SMap.get_set_same _ _ _ _
theorem sleepOf_setSleepOf_ne (s : State) {k j : Nat} (v : Option (Nat × Nat)) (h : j ≠ k) : (s.setSleepOf k v).sleepOf j = s.sleepOf j :=
  SMap.get_set_ne _ _ _ _ _ h
@[simp] theorem rd_setSleepOf (s : State) (k : Nat) (v : Option (Nat × Nat)) (q : RF) : (s.setSleepOf k v).rd q = s.rd q := by_refl rfl
@[simp] theorem bit_setSleepOf (s : State) (k : Nat) (v : Option (Nat × Nat)) (q : RF) : (s.setSleepOf k v).bit q = s.bit q := by_refl rfl
@[simp] theorem reg_setSleepOf (s : State) (k : Nat) (v : Option (Nat × Nat)) (a : Nat) : (s.setSleepOf k v).reg a = s.reg a := by_refl rfl
@[simp] theorem runs_setSleepOf (s : State) (k : Nat) (v : Option (Nat × Nat)) (b : Nat) : (s.setSleepOf k v).runs b = s.runs b := by_refl rfl
@[simp] theorem memByte_setSleepOf (s : State) (k : Nat) (v : Option (Nat × Nat)) (a : Nat) : (s.setSleepOf k v).memByte a = s.memByte a := by_refl rfl
@[simp] theorem dsfCh_setDsfCh (s : State) (k : Nat) (v : DsfCh) : (s.setDsfCh k v).dsfCh k = v := SMap.get_set_same _ _ _ _
theorem dsfCh_setDsfCh_ne (s : State) {k j : Nat} (v : DsfCh) (h : j ≠ k) : (s.setDsfCh k v).dsfCh j = s.dsfCh j :=
  SMap.get_set_ne _ _ _ _ _ h
@[simp] theorem rd_setDsfCh (s : State) (k : Nat) (v : DsfCh) (q : RF) : (s.setDsfCh k v).rd q = s.rd q := by_refl rfl
@[simp] theorem bit_setDsfCh (s : State) (k : Nat) (v : DsfCh) (q : RF) : (s.setDsfCh k v).bit q = s.bit q := by_refl rfl
@[simp] theorem reg_setDsfCh (s : State) (k : Nat) (v : DsfCh) (a : Nat) : (s.setDsfCh k v).reg a = s.reg a := by_refl rfl
@[simp] theorem runs_setDsfCh (s : State) (k : Nat) (v : DsfCh) (b : Nat) : (s.setDsfCh k v).runs b = s.runs b := by_refl rfl
@[simp] theorem memByte_setDsfCh (s : State) (k : Nat) (v : DsfCh) (a : Nat) : (s.setDsfCh k v).memByte a = s.memByte a := by_refl rfl
@[simp] theorem streamMap_setStreamMap (s : State) (k : Nat) (v : StreamEnt) : (s.setStreamMap k v).streamMap k = v := SMap.get_set_same _ _ _ _
theorem streamMap_setStreamMap_ne (s : State) {k j : Nat} (v : StreamEnt) (h : j ≠ k) : (s.setStreamMap k v).streamMap j = s.streamMap j :=
  SMap.get_set_ne _ _ _ _ _ h
@[simp] theorem rd_setStreamMap (s : State) (k : Nat) (v : StreamEnt) (q : RF) : (s.setStreamMap k v).rd q = s.rd q := by_refl rfl
@[simp] theorem bit_setStreamMap (s : State) (k : Nat) (v : StreamEnt) (q : RF) : (s.setStreamMap k v).bit q = s.bit q := by_refl rfl
@[simp] theorem reg_setStreamMap (s : State) (k : Nat) (v : StreamEnt) (a : Nat) : (s.setStreamMap k v).reg a = s.reg a := by_refl rfl
@[simp] theorem runs_setStreamMap (s : State) (k : Nat) (v : StreamEnt) (b : Nat) : (s.setStreamMap k v).runs b = s.runs b := by_refl rfl
@[simp] theorem memByte_setStreamMap (s : State) (k : Nat) (v : StreamEnt) (a : Nat) : (s.setStreamMap k v).memByte a = s.memByte a := by_refl rfl
@[simp] theorem streamCtx_setStreamCtx (s : State) (k : Nat) (v : StreamCtx) : (s.setStreamCtx k v).streamCtx k = v := SMap.get_set_same _ _ _ _
theorem streamCtx_setStreamCtx_ne (s : State) {k j : Nat} (v : StreamCtx) (h : j ≠ k) : (s.setStreamCtx k v).streamCtx j = s.streamCtx j :=
  SMap.get_set_ne _ _ _ _ _ h
@[simp] theorem rd_setStreamCtx (s : State) (k : Nat) (v : StreamCtx) (q : RF) : (s.setStreamCtx k v).rd q = s.rd q := by_refl rfl
@[simp] theorem bit_setStreamCtx (s : State) (k : Nat) (v : StreamCtx) (q : RF) : (s.setStreamCtx k v).bit q = s.bit q := by_refl rfl
@[simp] theorem reg_setStreamCtx (s : State) (k : Nat) (v : StreamCtx) (a : Nat) : (s.setStreamCtx k v).reg a = s.reg a := by_refl rfl
@[simp] theorem runs_setStreamCtx (s : State) (k : Nat) (v : StreamCtx) (b : Nat) : (s.setStreamCtx k v).runs b = s.runs b := by_refl rfl
@[simp] theorem memByte_setStreamCtx (s : State) (k : Nat) (v : StreamCtx) (a : Nat) : (s.setStreamCtx k v).memByte a = s.memByte a := by_refl rfl
@[simp] theorem circuit_setCircuit (s : State) (k : Nat) (v : CircuitCtx) : (s.setCircuit k v).circuit k = v := SMap.get_set_same _ _ _ _
theorem circuit_setCircuit_ne (s : State) {k j : Nat} (v : CircuitCtx) (h : j ≠ k) : (s.setCircuit k v).circuit j = s.circuit j :=
  SMap.get_set_ne _ _ _ _ _ h
@[simp] theorem rd_setCircuit (s : State) (k : Nat) (v : CircuitCtx) (q : RF) : (s.setCircuit k v).rd q = s.rd q := by_refl rfl
@[simp] theorem bit_setCircuit (s : State) (k : Nat) (v : CircuitCtx) (q : RF) : (s.setCircuit k v).bit q = s.bit q := by_refl rfl
@[simp] theorem reg_setCircuit (s : State) (k : Nat) (v : CircuitCtx) (a : Nat) : (s.setCircuit k v).reg a = s.reg a := by_refl rfl
@[simp] theorem runs_setCircuit (s : State) (k : Nat) (v : CircuitCtx) (b : Nat) : (s.setCircuit k v).runs b = s.runs b := by_refl rfl
@[simp] theorem memByte_setCircuit (s : State) (k : Nat) (v : CircuitCtx) (a : Nat) : (s.setCircuit k v).memByte a = s.memByte a := by_refl rfl
@[simp] theorem ohsPort_setOhsPort (s : State) (k : Nat) (v : OhsPort) : (s.setOhsPort k v).ohsPort k = v := SMap.get_set_same _ _ _ _
theorem ohsPort_setOhsPort_ne (s : State) {k j : Nat} (v : OhsPort) (h : j ≠ k) : (s.setOhsPort k v).ohsPort j = s.ohsPort j :=
  SMap.get_set_ne _ _ _ _ _ h
@[simp] theorem rd_setOhsPort (s : State) (k : Nat) (v : OhsPort) (q : RF) : (s.setOhsPort k v).rd q = s.rd q := by_refl rfl
@[simp] theorem bit_setOhsPort (s : State) (k : Nat) (v : OhsPort) (q : RF) : (s.setOhsPort k v).bit q = s.bit q := by_refl rfl
@[simp] theorem reg_setOhsPort (s : State) (k : Nat) (v : OhsPort) (a : Nat) : (s.setOhsPort k v).reg a = s.reg a := by_refl rfl
@[simp] theorem runs_setOhsPort (s : State) (k : Nat) (v : OhsPort) (b : Nat) : (s.setOhsPort k v).runs b = s.runs b := by_refl rfl
@[simp] theorem memByte_setOhsPort (s : State) (k : Nat) (v : OhsPort) (a : Nat) : (s.setOhsPort k v).memByte a = s.memByte a := by_refl rfl
@[simp] theorem pipe_setPipe (s : State) (k : Nat) (v : Pipeline) : (s.setPipe k v).pipe k = v := SMap.get_set_same _ _ _ _
theorem pipe_setPipe_ne (s : State) {k j : Nat} (v : Pipeline) (h : j ≠ k) : (s.setPipe k v).pipe j = s.pipe j :=
  SMap.get_set_ne _ _ _ _ _ h
@[simp] theorem rd_setPipe (s : State) (k : Nat) (v : Pipeline) (q : RF) : (s.setPipe k v).rd q = s.rd q := by_refl rfl
@[simp] theorem bit_setPipe (s : State) (k : Nat) (v : Pipeline) (q : RF) : (s.setPipe k v).bit q = s.bit q := by_refl rfl
@[simp] theorem reg_setPipe (s : State) (k : Nat) (v : Pipeline) (a : Nat) : (s.setPipe k v).reg a = s.reg a := by_refl rfl
@[simp] theorem runs_setPipe (s : State) (k : Nat) (v : Pipeline) (b : Nat) : (s.setPipe k v).runs b = s.runs b := by_refl rfl
@[simp] theorem memByte_setPipe (s : State) (k : Nat) (v : Pipeline) (a : Nat) : (s.setPipe k v).memByte a = s.memByte a := by_refl rfl
@[simp] theorem rule_setRule (s : State) (k : Nat) (v : Rule) : (s.setRule k v).rule k = v := SMap.get_set_same _ _ _ _
theorem rule_setRule_ne (s : State) {k j : Nat} (v : Rule) (h : j ≠ k) : (s.setRule k v).rule j = s.rule j :=
  SMap.get_set_ne _ _ _ _ _ h
@[simp] theorem rd_setRule (s : State) (k : Nat) (v : Rule) (q : RF) : (s.setRule k v).rd q = s.rd q := by_refl rfl
@[simp] theorem bit_setRule (s : State) (k : Nat) (v : Rule) (q : RF) : (s.setRule k v).bit q = s.bit q := by_refl rfl
@[simp] theorem reg_setRule (s : State) (k : Nat) (v : Rule) (a : Nat) : (s.setRule k v).reg a = s.reg a := by_refl rfl
@[simp] theorem runs_setRule (s : State) (k : Nat) (v : Rule) (b : Nat) : (s.setRule k v).runs b = s.runs b := by_refl rfl
@[simp] theorem memByte_setRule (s : State) (k : Nat) (v : Rule) (a : Nat) : (s.setRule k v).memByte a = s.memByte a := by_refl rfl
@[simp] theorem alist_setAlist (s : State) (k : Nat) (v : ActList) : (s.setAlist k v).alist k = v := SMap.get_set_same _ _ _ _
theorem alist_setAlist_ne (s : State) {k j : Nat} (v : ActList) (h : j ≠ k) : (s.setAlist k v).alist j = s.alist j :=
  SMap.get_set_ne _ _ _ _ _ h
@[simp] theorem rd_setAlist (s : State) (k : Nat) (v : ActList) (q : RF) : (s.setAlist k v).rd q = s.rd q := by_refl rfl
@[simp] theorem bit_setAlist (s : State) (k : Nat) (v : ActList) (q : RF) : (s.setAlist k v).bit q = s.bit q := by_refl rfl
@[simp] theorem reg_setAlist (s : State) (k : Nat) (v : ActList) (a : Nat) : (s.setAlist k v).reg a = s.reg a := by_refl rfl
@[simp] theorem runs_setAlist (s : State) (k : Nat) (v : ActList) (b : Nat) : (s.setAlist k v).runs b = s.runs b := by_refl rfl
@[simp] theorem memByte_setAlist (s : State) (k : Nat) (v : ActList) (a : Nat) : (s.setAlist k v).memByte a = s.memByte a := by_refl rfl
@[simp] theorem member_setMember (s : State) (k : Nat) (v : Member) : (s.setMember k v).member k = v := SMap.get_set_same _ _ _ _
theorem member_setMember_ne (s : State) {k j : Nat} (v : Member) (h : j ≠ k) : (s.setMember k v).member j = s.member j :=
  SMap.get_set_ne _ _ _ _ _ h
@[simp] theorem rd_setMember (s : State) (k : Nat) (v : Member) (q : RF) : (s.setMember k v).rd q = s.rd q := by_refl rfl
@[simp] theorem bit_setMember (s : State) (k : Nat) (v : Member) (q : RF) : (s.setMember k v).bit q = s.bit q := by_refl rfl
@[simp] theorem reg_setMember (s : State) (k : Nat) (v : Member) (a : Nat) : (s.setMember k v).reg a = s.reg a := by_refl rfl
@[simp] theorem runs_setMember (s : State) (k : Nat) (v : Member) (b : Nat) : (s.setMember k v).runs b = s.runs b := by_refl rfl
@[simp] theorem memByte_setMember (s : State) (k : Nat) (v : Member) (a : Nat) : (s.setMember k v).memByte a = s.memByte a := by_refl rfl
@[simp] theorem flowAt_setFlowAt (s : State) (k : Nat) (v : FlowEntry) : (s.setFlowAt k v).flowAt k = v := SMap.get_set_same _ _ _ _
theorem flowAt_setFlowAt_ne (s : State) {k j : Nat} (v : FlowEntry) (h : j ≠ k) : (s.setFlowAt k v).flowAt j = s.flowAt j :=
  SMap.get_set_ne _ _ _ _ _ h
@[simp] theorem rd_setFlowAt (s : State) (k : Nat) (v : FlowEntry) (q : RF) : (s.setFlowAt k v).rd q = s.rd q := by_refl rfl
@[simp] theorem bit_setFlowAt (s : State) (k : Nat) (v : FlowEntry) (q : RF) : (s.setFlowAt k v).bit q = s.bit q := by_refl rfl
@[simp] theorem reg_setFlowAt (s : State) (k : Nat) (v : FlowEntry) (a : Nat) : (s.setFlowAt k v).reg a = s.reg a := by_refl rfl
@[simp] theorem runs_setFlowAt (s : State) (k : Nat) (v : FlowEntry) (b : Nat) : (s.setFlowAt k v).runs b = s.runs b := by_refl rfl
@[simp] theorem memByte_setFlowAt (s : State) (k : Nat) (v : FlowEntry) (a : Nat) : (s.setFlowAt k v).memByte a = s.memByte a := by_refl rfl
@[simp] theorem learnFilter_setLearnFilter (s : State) (k : Nat) (v : Option (Nat × Nat)) : (s.setLearnFilter k v).learnFilter k = v := SMap.get_set_same _ _ _ _
theorem learnFilter_setLearnFilter_ne (s : State) {k j : Nat} (v : Option (Nat × Nat)) (h : j ≠ k) : (s.setLearnFilter k v).learnFilter j = s.learnFilter j :=
  SMap.get_set_ne _ _ _ _ _ h
@[simp] theorem rd_setLearnFilter (s : State) (k : Nat) (v : Option (Nat × Nat)) (q : RF) : (s.setLearnFilter k v).rd q = s.rd q := by_refl rfl
@[simp] theorem bit_setLearnFilter (s : State) (k : Nat) (v : Option (Nat × Nat)) (q : RF) : (s.setLearnFilter k v).bit q = s.bit q := by_refl rfl
@[simp] theorem reg_setLearnFilter (s : State) (k : Nat) (v : Option (Nat × Nat)) (a : Nat) : (s.setLearnFilter k v).reg a = s.reg a := by_refl rfl
@[simp] theorem runs_setLearnFilter (s : State) (k : Nat) (v : Option (Nat × Nat)) (b : Nat) : (s.setLearnFilter k v).runs b = s.runs b := by_refl rfl
@[simp] theorem memByte_setLearnFilter (s : State) (k : Nat) (v : Option (Nat × Nat)) (a : Nat) : (s.setLearnFilter k v).memByte a = s.memByte a := by_refl rfl
@[simp] theorem delta_setDelta (s : State) (k : Nat) (v : Nat) : (s.setDelta k v).delta k = v := SMap.get_set_same _ _ _ _
theorem delta_setDelta_ne (s : State) {k j : Nat} (v : Nat) (h : j ≠ k) : (s.setDelta k v).delta j = s.delta j :=
  SMap.get_set_ne _ _ _ _ _ h
@[simp] theorem rd_setDelta (s : State) (k : Nat) (v : Nat) (q : RF) : (s.setDelta k v).rd q = s.rd q := by_refl rfl
@[simp] theorem bit_setDelta (s : State) (k : Nat) (v : Nat) (q : RF) : (s.setDelta k v).bit q = s.bit q := by_refl rfl
@[simp] theorem reg_setDelta (s : State) (k : Nat) (v : Nat) (a : Nat) : (s.setDelta k v).reg a = s.reg a := by_refl rfl
@[simp] theorem runs_setDelta (s : State) (k : Nat) (v : Nat) (b : Nat) : (s.setDelta k v).runs b = s.runs b := by_refl rfl
@[simp] theorem memByte_setDelta (s : State) (k : Nat) (v : Nat) (a : Nat) : (s.setDelta k v).memByte a = s.memByte a := by_refl rfl
@[simp] theorem ways_setWays (s : State) (k : Nat) (v : List Nat) : (s.setWays k v).ways k = v := SMap.get_set_same _ _ _ _
theorem ways_setWays_ne (s : State) {k j : Nat} (v : List Nat) (h : j ≠ k) : (s.setWays k v).ways j = s.ways j :=
  SMap.get_set_ne _ _ _ _ _ h
@[simp] theorem rd_setWays (s : State) (k : Nat) (v : List Nat) (q : RF) : (s.setWays k v).rd q = s.rd q := by_refl rfl
@[simp] theorem bit_setWays (s : State) (k : Nat) (v : List Nat) (q : RF) : (s.setWays k v).bit q = s.bit q := by_refl rfl
@[simp] theorem reg_setWays (s : State) (k : Nat) (v : List Nat) (a : Nat) : (s.setWays k v).reg a = s.reg a := by_refl rfl
@[simp] theorem runs_setWays (s : State) (k : Nat) (v : List Nat) (b : Nat) : (s.setWays k v).runs b = s.runs b := by_refl rfl
@[simp] theorem memByte_setWays (s : State) (k : Nat) (v : List Nat) (a : Nat) : (s.setWays k v).memByte a = s.memByte a := by_refl rfl
@[simp] theorem spcCh_setSpcCh (s : State) (k : Nat) (v : SpcCh) : (s.setSpcCh k v).spcCh k = v := SMap.get_set_same _ _ _ _
theorem spcCh_setSpcCh_ne (s : State) {k j : Nat} (v : SpcCh) (h : j ≠ k) : (s.setSpcCh k v).spcCh j = s.spcCh j :=
  SMap.get_set_ne _ _ _ _ _ h
@[simp] theorem rd_setSpcCh (s : State) (k : Nat) (v : SpcCh) (q : RF) : (s.setSpcCh k v).rd q = s.rd q := by_refl rfl
@[simp] theorem bit_setSpcCh (s : State) (k : Nat) (v : SpcCh) (q : RF) : (s.setSpcCh k v).bit q = s.bit q := by_refl rfl
@[simp] theorem reg_setSpcCh (s : State) (k : Nat) (v : SpcCh) (a : Nat) : (s.setSpcCh k v).reg a = s.reg a := by_refl rfl
@[simp] theorem runs_setSpcCh (s : State) (k : Nat) (v : SpcCh) (b : Nat) : (s.setSpcCh k v).runs b = s.runs b := by_refl rfl
@[simp] theorem memByte_setSpcCh (s : State) (k : Nat) (v : SpcCh) (a : Nat) : (s.setSpcCh k v).memByte a = s.memByte a := by_refl rfl
@[simp] theorem macPort_setMacPort (s : State) (k : Nat) (v : MacPort) : (s.setMacPort k v).macPort k = v := SMap.get_set_same _ _ _ _
theorem macPort_setMacPort_ne (s : State) {k j : Nat} (v : MacPort) (h : j ≠ k) : (s.setMacPort k v).macPort j = s.macPort j :=
  SMap.get_set_ne _ _ _ _ _ h
@[simp] theorem rd_setMacPort (s : State) (k : Nat) (v : MacPort) (q : RF) : (s.setMacPort k v).rd q = s.rd q := by_refl rfl
@[simp] theorem bit_setMacPort (s : State) (k : Nat) (v : MacPort) (q : RF) : (s.setMacPort k v).bit q = s.bit q := by_refl rfl
@[simp] theorem reg_setMacPort (s : State) (k : Nat) (v : MacPort) (a : Nat) : (s.setMacPort k v).reg a = s.reg a := by_refl rfl
@[simp] theorem runs_setMacPort (s : State) (k : Nat) (v : MacPort) (b : Nat) : (s.setMacPort k v).runs b = s.runs b := by_refl rfl
@[simp] theorem memByte_setMacPort (s : State) (k : Nat) (v : MacPort) (a : Nat) : (s.setMacPort k v).memByte a = s.memByte a := by_refl rfl
@[simp] theorem lphCh_setLphCh (s : State) (k : Nat) (v : LphCh) : (s.setLphCh k v).lphCh k = v := SMap.get_set_same _ _ _ _
theorem lphCh_setLphCh_ne (s : State) {k j : Nat} (v : LphCh) (h : j ≠ k) : (s.setLphCh k v).lphCh j = s.lphCh j :=
  SMap.get_set_ne _ _ _ _ _ h
@[simp] theorem rd_setLphCh (s : State) (k : Nat) (v : LphCh) (q : RF) : (s.setLphCh k v).rd q = s.rd q := by_refl rfl
@[simp] theorem bit_setLphCh (s : State) (k : Nat) (v : LphCh) (q : RF) : (s.setLphCh k v).bit q = s.bit q := by_refl rfl
@[simp] theorem reg_setLphCh (s : State) (k : Nat) (v : LphCh) (a : Nat) : (s.setLphCh k v).reg a = s.reg a := by_refl rfl
@[simp] theorem runs_setLphCh (s : State) (k : Nat) (v : LphCh) (b : Nat) : (s.setLphCh k v).runs b = s.runs b := by_refl rfl
@[simp] theorem memByte_setLphCh (s : State) (k : Nat) (v : LphCh) (a : Nat) : (s.setLphCh k v).memByte a = s.memByte a := by_refl rfl
@[simp] theorem trx_setTrx (s : State) (k : Nat) (v : Tod) : (s.setTrx k v).trx k = v := SMap.get_set_same _ _ _ _
theorem trx_setTrx_ne (s : State) {k j : Nat} (v : Tod) (h : j ≠ k) : (s.setTrx k v).trx j = s.trx j :=
  SMap.get_set_ne _ _ _ _ _ h
@[simp] theorem rd_setTrx (s : State) (k : Nat) (v : Tod) (q : RF) : (s.setTrx k v).rd q = s.rd q := by_refl rfl
@[simp] theorem bit_setTrx (s : State) (k : Nat) (v : Tod) (q : RF) : (s.setTrx k v).bit q = s.bit q := by_refl rfl
@[simp] theorem reg_setTrx (s : State) (k : Nat) (v : Tod) (a : Nat) : (s.setTrx k v).reg a = s.reg a := by_refl rfl
@[simp] theorem runs_setTrx (s : State) (k : Nat) (v : Tod) (b : Nat) : (s.setTrx k v).runs b = s.runs b := by_refl rfl
@[simp] theorem memByte_setTrx (s : State) (k : Nat) (v : Tod) (a : Nat) : (s.setTrx k v).memByte a = s.memByte a := by_refl rfl
@[simp] theorem timLine_setTimLine (s : State) (k : Nat) (v : Option (Nat × Int)) : (s.setTimLine k v).timLine k = v := SMap.get_set_same _ _ _ _
theorem timLine_setTimLine_ne (s : State) {k j : Nat} (v : Option (Nat × Int)) (h : j ≠ k) : (s.setTimLine k v).timLine j = s.timLine j :=
  SMap.get_set_ne _ _ _ _ _ h
@[simp] theorem rd_setTimLine (s : State) (k : Nat) (v : Option (Nat × Int)) (q : RF) : (s.setTimLine k v).rd q = s.rd q := by_refl rfl
@[simp] theorem bit_setTimLine (s : State) (k : Nat) (v : Option (Nat × Int)) (q : RF) : (s.setTimLine k v).bit q = s.bit q := by_refl rfl
@[simp] theorem reg_setTimLine (s : State) (k : Nat) (v : Option (Nat × Int)) (a : Nat) : (s.setTimLine k v).reg a = s.reg a := by_refl rfl
@[simp] theorem runs_setTimLine (s : State) (k : Nat) (v : Option (Nat × Int)) (b : Nat) : (s.setTimLine k v).runs b = s.runs b := by_refl rfl
@[simp] theorem memByte_setTimLine (s : State) (k : Nat) (v : Option (Nat × Int)) (a : Nat) : (s.setTimLine k v).memByte a = s.memByte a := by_refl rfl
@[simp] theorem tsqOf_setTsqOf (s : State) (k : Nat) (v : List TsqEntry) : (s.setTsqOf k v).tsqOf k = v := SMap.get_set_same _ _ _ _
theorem tsqOf_setTsqOf_ne (s : State) {k j : Nat} (v : List TsqEntry) (h : j ≠ k) : (s.setTsqOf k v).tsqOf j = s.tsqOf j :=
  SMap.get_set_ne _ _ _ _ _ h
@[simp] theorem rd_setTsqOf (s : State) (k : Nat) (v : List TsqEntry) (q : RF) : (s.setTsqOf k v).rd q = s.rd q := by_refl rfl
@[simp] theorem bit_setTsqOf (s : State) (k : Nat) (v : List TsqEntry) (q : RF) : (s.setTsqOf k v).bit q = s.bit q := by_refl rfl
@[simp] theorem reg_setTsqOf (s : State) (k : Nat) (v : List TsqEntry) (a : Nat) : (s.setTsqOf k v).reg a = s.reg a := by_refl rfl
@[simp] theorem runs_setTsqOf (s : State) (k : Nat) (v : List TsqEntry) (b : Nat) : (s.setTsqOf k v).runs b = s.runs b := by_refl rfl
@[simp] theorem memByte_setTsqOf (s : State) (k : Nat) (v : List TsqEntry) (a : Nat) : (s.setTsqOf k v).memByte a = s.memByte a := by_refl rfl
@[simp] theorem casGrp_setCasGrp (s : State) (k : Nat) (v : CasGrp) : (s.setCasGrp k v).casGrp k = v := SMap.get_set_same _ _ _ _
theorem casGrp_setCasGrp_ne (s : State) {k j : Nat} (v : CasGrp) (h : j ≠ k) : (s.setCasGrp k v).casGrp j = s.casGrp j :=
  SMap.get_set_ne _ _ _ _ _ h
@[simp] theorem rd_setCasGrp (s : State) (k : Nat) (v : CasGrp) (q : RF) : (s.setCasGrp k v).rd q = s.rd q := by_refl rfl
@[simp] theorem bit_setCasGrp (s : State) (k : Nat) (v : CasGrp) (q : RF) : (s.setCasGrp k v).bit q = s.bit q := by_refl rfl
@[simp] theorem reg_setCasGrp (s : State) (k : Nat) (v : CasGrp) (a : Nat) : (s.setCasGrp k v).reg a = s.reg a := by_refl rfl
@[simp] theorem runs_setCasGrp (s : State) (k : Nat) (v : CasGrp) (b : Nat) : (s.setCasGrp k v).runs b = s.runs b := by_refl rfl
@[simp] theorem memByte_setCasGrp (s : State) (k : Nat) (v : CasGrp) (a : Nat) : (s.setCasGrp k v).memByte a = s.memByte a := by_refl rfl
@[simp] theorem casSlot_setCasSlot (s : State) (k : Nat) (v : CasSlot) : (s.setCasSlot k v).casSlot k = v := SMap.get_set_same _ _ _ _
theorem casSlot_setCasSlot_ne (s : State) {k j : Nat} (v : CasSlot) (h : j ≠ k) : (s.setCasSlot k v).casSlot j = s.casSlot j :=
  SMap.get_set_ne _ _ _ _ _ h
@[simp] theorem rd_setCasSlot (s : State) (k : Nat) (v : CasSlot) (q : RF) : (s.setCasSlot k v).rd q = s.rd q := by_refl rfl
@[simp] theorem bit_setCasSlot (s : State) (k : Nat) (v : CasSlot) (q : RF) : (s.setCasSlot k v).bit q = s.bit q := by_refl rfl
@[simp] theorem reg_setCasSlot (s : State) (k : Nat) (v : CasSlot) (a : Nat) : (s.setCasSlot k v).reg a = s.reg a := by_refl rfl
@[simp] theorem runs_setCasSlot (s : State) (k : Nat) (v : CasSlot) (b : Nat) : (s.setCasSlot k v).runs b = s.runs b := by_refl rfl
@[simp] theorem memByte_setCasSlot (s : State) (k : Nat) (v : CasSlot) (a : Nat) : (s.setCasSlot k v).memByte a = s.memByte a := by_refl rfl
@[simp] theorem casRedirect_setCasRedirect (s : State) (k : Nat) (v : CasRedirect) : (s.setCasRedirect k v).casRedirect k = v := SMap.get_set_same _ _ _ _
theorem casRedirect_setCasRedirect_ne (s : State) {k j : Nat} (v : CasRedirect) (h : j ≠ k) : (s.setCasRedirect k v).casRedirect j = s.casRedirect j :=
  SMap.get_set_ne _ _ _ _ _ h
@[simp] theorem rd_setCasRedirect (s : State) (k : Nat) (v : CasRedirect) (q : RF) : (s.setCasRedirect k v).rd q = s.rd q := by_refl rfl
@[simp] theorem bit_setCasRedirect (s : State) (k : Nat) (v : CasRedirect) (q : RF) : (s.setCasRedirect k v).bit q = s.bit q := by_refl rfl
@[simp] theorem reg_setCasRedirect (s : State) (k : Nat) (v : CasRedirect) (a : Nat) : (s.setCasRedirect k v).reg a = s.reg a := by_refl rfl
@[simp] theorem runs_setCasRedirect (s : State) (k : Nat) (v : CasRedirect) (b : Nat) : (s.setCasRedirect k v).runs b = s.runs b := by_refl rfl
@[simp] theorem memByte_setCasRedirect (s : State) (k : Nat) (v : CasRedirect) (a : Nat) : (s.setCasRedirect k v).memByte a = s.memByte a := by_refl rfl
@[simp] theorem casSerial_setCasSerial (s : State) (k : Nat) (v : Option Word) : (s.setCasSerial k v).casSerial k = v := SMap.get_set_same _ _ _ _
theorem casSerial_setCasSerial_ne (s : State) {k j : Nat} (v : Option Word) (h : j ≠ k) : (s.setCasSerial k v).casSerial j = s.casSerial j :=
  SMap.get_set_ne _ _ _ _ _ h
@[simp] theorem rd_setCasSerial (s : State) (k : Nat) (v : Option Word) (q : RF) : (s.setCasSerial k v).rd q = s.rd q := by_refl rfl
@[simp] theorem bit_setCasSerial (s : State) (k : Nat) (v : Option Word) (q : RF) : (s.setCasSerial k v).bit q = s.bit q := by_refl rfl
@[simp] theorem reg_setCasSerial (s : State) (k : Nat) (v : Option Word) (a : Nat) : (s.setCasSerial k v).reg a = s.reg a := by_refl rfl
@[simp] theorem runs_setCasSerial (s : State) (k : Nat) (v : Option Word) (b : Nat) : (s.setCasSerial k v).runs b = s.runs b := by_refl rfl
@[simp] theorem memByte_setCasSerial (s : State) (k : Nat) (v : Option Word) (a : Nat) : (s.setCasSerial k v).memByte a = s.memByte a := by_refl rfl
@[simp] theorem casEmpties_setCasEmpties (s : State) (k : Nat) (v : Nat) : (s.setCasEmpties k v).casEmpties k = v := SMap.get_set_same _ _ _ _
theorem casEmpties_setCasEmpties_ne (s : State) {k j : Nat} (v : Nat) (h : j ≠ k) : (s.setCasEmpties k v).casEmpties j = s.casEmpties j :=
  SMap.get_set_ne _ _ _ _ _ h
@[simp] theorem rd_setCasEmpties (s : State) (k : Nat) (v : Nat) (q : RF) : (s.setCasEmpties k v).rd q = s.rd q := by_refl rfl
@[simp] theorem bit_setCasEmpties (s : State) (k : Nat) (v : Nat) (q : RF) : (s.setCasEmpties k v).bit q = s.bit q := by_refl rfl
@[simp] theorem reg_setCasEmpties (s : State) (k : Nat) (v : Nat) (a : Nat) : (s.setCasEmpties k v).reg a = s.reg a := by_refl rfl
@[simp] theorem runs_setCasEmpties (s : State) (k : Nat) (v : Nat) (b : Nat) : (s.setCasEmpties k v).runs b = s.runs b := by_refl rfl
@[simp] theorem memByte_setCasEmpties (s : State) (k : Nat) (v : Nat) (a : Nat) : (s.setCasEmpties k v).memByte a = s.memByte a := by_refl rfl
@[simp] theorem casLastSeq_setCasLastSeq (s : State) (k : Nat) (v : Option Nat) : (s.setCasLastSeq k v).casLastSeq k = v := SMap.get_set_same _ _ _ _
theorem casLastSeq_setCasLastSeq_ne (s : State) {k j : Nat} (v : Option Nat) (h : j ≠ k) : (s.setCasLastSeq k v).casLastSeq j = s.casLastSeq j :=
  SMap.get_set_ne _ _ _ _ _ h
@[simp] theorem rd_setCasLastSeq (s : State) (k : Nat) (v : Option Nat) (q : RF) : (s.setCasLastSeq k v).rd q = s.rd q := by_refl rfl
@[simp] theorem bit_setCasLastSeq (s : State) (k : Nat) (v : Option Nat) (q : RF) : (s.setCasLastSeq k v).bit q = s.bit q := by_refl rfl
@[simp] theorem reg_setCasLastSeq (s : State) (k : Nat) (v : Option Nat) (a : Nat) : (s.setCasLastSeq k v).reg a = s.reg a := by_refl rfl
@[simp] theorem runs_setCasLastSeq (s : State) (k : Nat) (v : Option Nat) (b : Nat) : (s.setCasLastSeq k v).runs b = s.runs b := by_refl rfl
@[simp] theorem memByte_setCasLastSeq (s : State) (k : Nat) (v : Option Nat) (a : Nat) : (s.setCasLastSeq k v).memByte a = s.memByte a := by_refl rfl
@[simp] theorem acuWin_setAcuWin (s : State) (k : Nat) (v : AcuWin) : (s.setAcuWin k v).acuWin k = v := SMap.get_set_same _ _ _ _

end Sys2Proof.Machine
end

