-- ==== Sys2Proof/Laws/Bus.lean ====
section
/-! SUPPORT. What an access comes to: one that is accepted is the register write or read itself, one that is refused is
counted and changes nothing of its target; and how the fields of a written word are stored. -/

namespace Sys2Proof.Machine

@[simp] theorem hartActs_regs (i : Initiator) (s : State) : (hartActs i s).regs = s.regs := by cases i <;> rfl
@[simp] theorem hartActs_mem (i : Initiator) (s : State) : (hartActs i s).mem = s.mem := by cases i <;> rfl
@[simp] theorem hartActs_acu (i : Initiator) (s : State) : (hartActs i s).acu = s.acu := by cases i <;> rfl
@[simp] theorem hartActs_rd (i : Initiator) (s : State) (r : RF) : (hartActs i s).rd r = s.rd r := by cases i <;> exact by_refl rfl
@[simp] theorem hartActs_bit (i : Initiator) (s : State) (r : RF) : (hartActs i s).bit r = s.bit r := by cases i <;> exact by_refl rfl
@[simp] theorem hartActs_reg (i : Initiator) (s : State) (a : Nat) : (hartActs i s).reg a = s.reg a := by cases i <;> exact by_refl rfl
@[simp] theorem hartActs_runs (i : Initiator) (s : State) (n : Nat) : (hartActs i s).runs n = s.runs n := by cases i <;> exact by_refl rfl
@[simp] theorem hartActs_shReg (i : Initiator) (s : State) (a : Nat) : (hartActs i s).shReg a = s.shReg a := by
  cases i <;> exact by_refl rfl
@[simp] theorem hartActs_memByte (i : Initiator) (s : State) (a : Nat) : (hartActs i s).memByte a = s.memByte a := by
  cases i <;> exact by_refl rfl

/-- A hart that acts changes nothing but its own state. -/
theorem hartActs_eq (i : Initiator) (s : State) : hartActs i s = { s with harts := (hartActs i s).harts } := by
  cases i <;> rfl

theorem accessRefused_hartActs (i j : Initiator) (f : AccessForm) (wr : Bool) (a : Nat) (v : Word) (s : State) :
    accessRefused i f wr a v (hartActs j s) = accessRefused i f wr a v s := by
  cases j <;> rfl

/-- A write that is accepted reaches its register. -/
theorem regAccess_eq {i : Initiator} {a : Nat} {v : Word} {s : State} (hc : canAccess s i a = true)
    (hr : accessRefused i .word true a v s = false) (hR : regionOf a = .regs) (hp : a ≠ TSK_POST.addr) :
    regAccess i a v s = regWrite (levelOf i) a v (hartActs i s) := by
  unfold regAccess busWrite
  simp only [hc, Bool.not_true, Bool.false_eq_true, ↓reduceIte, accessRefused_hartActs, hr, hR, hp]
  cases i <;> rfl

/-- A write that cannot be made changes nothing. -/
theorem busWrite_blocked {i : Initiator} {f : AccessForm} {a : Nat} {v : Word} {s : State} (hc : canAccess s i a = false) :
    busWrite i f a v s = s := by
  unfold busWrite
  simp [hc]

/-- A write that is refused is the refusal's. -/
theorem busWrite_refused {i : Initiator} {f : AccessForm} {a : Nat} {v : Word} {s : State} (hc : canAccess s i a = true)
    (hr : accessRefused i f true a v s = true) : busWrite i f a v s = acuRefuse i true a (hartActs i s) := by
  unfold busWrite
  simp [hc, accessRefused_hartActs, hr]

/-- A read that is accepted is the register's. -/
theorem busRead_regs {i : Initiator} {f : AccessForm} {a : Nat} {s : State} (hc : canAccess s i a = true)
    (hr : accessRefused i f false a 0 s = false) (hR : regionOf a = .regs) :
    busRead i f a s = regRead a (hartActs i s) := by
  unfold busRead
  simp only [hc, Bool.not_true, Bool.false_eq_true, ↓reduceIte, accessRefused_hartActs, hr, hR]

/-- A read that is refused answers 0. -/
theorem busRead_refused {i : Initiator} {f : AccessForm} {a : Nat} {s : State} (hc : canAccess s i a = true)
    (hr : accessRefused i f false a 0 s = true) : busRead i f a s = (0, acuRefuse i false a (hartActs i s)) := by
  unfold busRead
  simp only [hc, Bool.not_true, Bool.false_eq_true, ↓reduceIte, accessRefused_hartActs, hr]

/-- A register that is no bank stores its fields and then acts. -/
theorem regWrite_eq {level a : Nat} {v : Word} {s : State} {r : RegRow} (h : regRow? a = some r) (hb : bankOf a ≠ some a) :
    regWrite level a v s = blockWrite level a v s (regStore a r v s) := by
  unfold regWrite
  simp [h, hb]

/-- A register with RW and W1C fields stores at once and nowhere else. -/
theorem regStore_rw {a : Nat} {r : RegRow} {v : Word} {s : State} (h : (r.has .rw || r.has .w1c) = true)
    (hx : r.has .sx = false) (hh : r.has .sh = false) (ht : r.has .st = false) :
    regStore a r v s = s.setReg a (storeW1c r v (storeKind .rw r v (s.reg a))) := by
  unfold regStore storeSt storeSh storeSx
  simp [h, hx, hh, ht]

/-- A register without fields that a write stores. -/
theorem regStore_none {a : Nat} {r : RegRow} {v : Word} {s : State} (h : (r.has .rw || r.has .w1c) = false)
    (hx : r.has .sx = false) (hh : r.has .sh = false) (ht : r.has .st = false) : regStore a r v s = s := by
  unfold regStore storeSt storeSh storeSx
  simp [h, hx, hh, ht]

/-- A core in machine mode is refused nothing at a register of a block but by its form. -/
theorem machine_accepted {c : Fin 8} {a : Nat} {v : Word} {s : State} (hR : regionOf a = .regs) (ha : a % 8 = 0) :
    accessRefused (.core c .m) .word true a v s = false := by
  unfold accessRefused acuAllows levelOf
  simp [hR, ha]

end Sys2Proof.Machine
end

