-- ==== Sys2Proof/Laws/Kept.lean ====
section
/-! SUPPORT. What an operation keeps: the invariant, and every part of the state outside a list. First the general lemmas
that the proof for each operation goes through. -/

namespace Sys2Proof.Machine

/-- The invariant holds where it is asked for, every part outside a list is as in a state given, and so is every register
outside the windows of some blocks (a list or a set of their numbers). -/
def Kept {β : Type} [Membership Nat β] (kb : Bool) (kl : List Part) (bl : β) (ko s : State) : Prop :=
  (kb = true → Inv s) ∧ Frame kl ko s ∧ ∀ a, ¬ blkOf a ∈ bl → s.reg a = ko.reg a

variable {β : Type} [Membership Nat β] {kb : Bool} {kl : List Part} {bl : β} {ko : State}

/-- A register of an array lies in the window its base lies in. -/
theorem blkOf_array {B x M : Nat} (h : B % 16777216 + M < 16777216) (hx : x ≤ M) : blkOf (B + x) = B / 16777216 := by
  unfold blkOf
  show (B + x) / 16777216 = B / 16777216
  omega

theorem array_le {u m s : Nat} (hm : 0 < m) : u % m * s ≤ (m - 1) * s := Nat.mul_le_mul_right s (Nat.le_pred_of_lt (Nat.mod_lt u hm))

theorem blk_n {B u m s : Nat} (h : B % 16777216 + (m - 1) * s < 16777216) (hm : 0 < m) (hb : B / 16777216 ∈ bl) :
    blkOf (B + u % m * s) ∈ bl := by
  rwa [blkOf_array h (array_le hm)]

theorem blk_un {B u n m s m' s' : Nat} (h : B % 16777216 + ((m - 1) * s + (m' - 1) * s') < 16777216) (hm : 0 < m) (hm' : 0 < m')
    (hb : B / 16777216 ∈ bl) : blkOf (B + u % m * s + n % m' * s') ∈ bl := by
  rwa [Nat.add_assoc, blkOf_array h (Nat.add_le_add (array_le hm) (array_le hm'))]

theorem Part.same_refl (p : Part) (s : State) : p.same s s := by cases p <;> rfl

theorem Kept.refl {s : State} (h : Inv s) : Kept true kl bl s s := ⟨fun _ => h, fun p _ => p.same_refl s, fun _ _ => rfl⟩

theorem Kept.rfl_frame {s : State} : Kept false kl bl s s := ⟨fun h => (nomatch h), fun p _ => p.same_refl s, fun _ _ => rfl⟩

theorem Kept.inv {s : State} (h : Kept true kl bl ko s) : Inv s := h.1 rfl

theorem Kept.frame {s : State} (h : Kept kb kl bl ko s) : Frame kl ko s := h.2.1

theorem Kept.regFrame {bl : List Nat} {s : State} (h : Kept kb kl bl ko s) : RegFrame bl ko s := h.2.2

theorem full_parts (h : ∀ p, p ≠ Part.pending → p ≠ Part.free → p ∈ kl) :
    Part.regs ∈ kl ∧ Part.shadow ∈ kl ∧ Part.mem ∈ kl ∧ Part.ecc ∈ kl ∧ Part.readOut ∈ kl ∧ Part.ticks ∈ kl ∧ Part.tod ∈ kl ∧ Part.cfg ∈ kl ∧ Part.flt ∈ kl ∧ Part.tsk ∈ kl ∧ Part.harts ∈ kl ∧ Part.acu ∈ kl ∧ Part.pwr ∈ kl ∧ Part.cel ∈ kl ∧ Part.sch ∈ kl ∧ Part.gcl ∈ kl ∧ Part.kln ∈ kl ∧ Part.act ∈ kl ∧ Part.ube ∈ kl ∧ Part.chp ∈ kl ∧ Part.dsf ∈ kl ∧ Part.ohs ∈ kl ∧ Part.pipes ∈ kl ∧ Part.cls ∈ kl ∧ Part.flw ∈ kl ∧ Part.spc ∈ kl ∧ Part.mac ∈ kl ∧ Part.lph ∈ kl ∧ Part.tim ∈ kl ∧ Part.cas ∈ kl ∧ Part.clk ∈ kl ∧ Part.tap ∈ kl ∧ Part.boot ∈ kl ∧ Part.power ∈ kl :=
  ⟨h _ nofun nofun, h _ nofun nofun, h _ nofun nofun, h _ nofun nofun, h _ nofun nofun, h _ nofun nofun, h _ nofun nofun, h _ nofun nofun, h _ nofun nofun, h _ nofun nofun, h _ nofun nofun, h _ nofun nofun, h _ nofun nofun, h _ nofun nofun, h _ nofun nofun, h _ nofun nofun, h _ nofun nofun, h _ nofun nofun, h _ nofun nofun, h _ nofun nofun, h _ nofun nofun, h _ nofun nofun, h _ nofun nofun, h _ nofun nofun, h _ nofun nofun, h _ nofun nofun, h _ nofun nofun, h _ nofun nofun, h _ nofun nofun, h _ nofun nofun, h _ nofun nofun, h _ nofun nofun, h _ nofun nofun, h _ nofun nofun⟩

/-- A state with some parts outside those that the invariant speaks of renewed. -/
theorem Kept.of_mk {pd r sh m ec fr ro ti t cf fl ts ha ac pw ce sc gc kl_ at_ ub ch ds oh pi cl fw sp ma lp tm ca ck tp} {s : State} (h : Kept kb kl bl ko s)
    (e_r : r = s.regs := by rfl) (e_s : sh = s.shadow := by rfl) (e_m : m = s.mem := by rfl) (e_e : ec = s.ecc := by rfl) (e_t : t = s.tod := by rfl)
    (c_pending : pd = s.pending ∨ Part.pending ∈ kl := by first | exact Or.inl rfl | exact Or.inr (by assumption))
    (c_free : fr = s.free ∨ Part.free ∈ kl := by first | exact Or.inl rfl | exact Or.inr (by assumption))
    (c_readOut : ro = s.readOut ∨ Part.readOut ∈ kl := by first | exact Or.inl rfl | exact Or.inr (by assumption))
    (c_ticks : ti = s.ticks ∨ Part.ticks ∈ kl := by first | exact Or.inl rfl | exact Or.inr (by assumption))
    (c_cfg : cf = s.cfg ∨ Part.cfg ∈ kl := by first | exact Or.inl rfl | exact Or.inr (by assumption))
    (c_flt : fl = s.flt ∨ Part.flt ∈ kl := by first | exact Or.inl rfl | exact Or.inr (by assumption))
    (c_tsk : ts = s.tsk ∨ Part.tsk ∈ kl := by first | exact Or.inl rfl | exact Or.inr (by assumption))
    (c_harts : ha = s.harts ∨ Part.harts ∈ kl := by first | exact Or.inl rfl | exact Or.inr (by assumption))
    (c_acu : ac = s.acu ∨ Part.acu ∈ kl := by first | exact Or.inl rfl | exact Or.inr (by assumption))
    (c_pwr : pw = s.pwr ∨ Part.pwr ∈ kl := by first | exact Or.inl rfl | exact Or.inr (by assumption))
    (c_cel : ce = s.cel ∨ Part.cel ∈ kl := by first | exact Or.inl rfl | exact Or.inr (by assumption))
    (c_sch : sc = s.sch ∨ Part.sch ∈ kl := by first | exact Or.inl rfl | exact Or.inr (by assumption))
    (c_gcl : gc = s.gcl ∨ Part.gcl ∈ kl := by first | exact Or.inl rfl | exact Or.inr (by assumption))
    (c_kln : kl_ = s.kln ∨ Part.kln ∈ kl := by first | exact Or.inl rfl | exact Or.inr (by assumption))
    (c_act : at_ = s.act ∨ Part.act ∈ kl := by first | exact Or.inl rfl | exact Or.inr (by assumption))
    (c_ube : ub = s.ube ∨ Part.ube ∈ kl := by first | exact Or.inl rfl | exact Or.inr (by assumption))
    (c_chp : ch = s.chp ∨ Part.chp ∈ kl := by first | exact Or.inl rfl | exact Or.inr (by assumption))
    (c_dsf : ds = s.dsf ∨ Part.dsf ∈ kl := by first | exact Or.inl rfl | exact Or.inr (by assumption))
    (c_ohs : oh = s.ohs ∨ Part.ohs ∈ kl := by first | exact Or.inl rfl | exact Or.inr (by assumption))
    (c_pipes : pi = s.pipes ∨ Part.pipes ∈ kl := by first | exact Or.inl rfl | exact Or.inr (by assumption))
    (c_cls : cl = s.cls ∨ Part.cls ∈ kl := by first | exact Or.inl rfl | exact Or.inr (by assumption))
    (c_flw : fw = s.flw ∨ Part.flw ∈ kl := by first | exact Or.inl rfl | exact Or.inr (by assumption))
    (c_spc : sp = s.spc ∨ Part.spc ∈ kl := by first | exact Or.inl rfl | exact Or.inr (by assumption))
    (c_mac : ma = s.mac ∨ Part.mac ∈ kl := by first | exact Or.inl rfl | exact Or.inr (by assumption))
    (c_lph : lp = s.lph ∨ Part.lph ∈ kl := by first | exact Or.inl rfl | exact Or.inr (by assumption))
    (c_tim : tm = s.tim ∨ Part.tim ∈ kl := by first | exact Or.inl rfl | exact Or.inr (by assumption))
    (c_cas : ca = s.cas ∨ Part.cas ∈ kl := by first | exact Or.inl rfl | exact Or.inr (by assumption))
    (c_clk : ck = s.clk ∨ Part.clk ∈ kl := by first | exact Or.inl rfl | exact Or.inr (by assumption))
    (c_tap : tp = s.tap ∨ Part.tap ∈ kl := by first | exact Or.inl rfl | exact Or.inr (by assumption))
    (c_boot : cf.boot = s.cfg.boot ∨ Part.boot ∈ kl := by
      first | exact Or.inl rfl | exact Or.inr (by assumption) | with_unfolding_all exact Or.inl rfl)
    (c_power : pw.cur = s.pwr.cur ∨ Part.power ∈ kl := by
      first | exact Or.inl rfl | exact Or.inr (by assumption) | with_unfolding_all exact Or.inl rfl) :
    Kept kb kl bl ko (State.mk pd r sh m ec fr ro ti t cf fl ts ha ac pw ce sc gc kl_ at_ ub ch ds oh pi cl fw sp ma lp tm ca ck tp) := by
  subst e_r e_s e_m e_e e_t
  refine ⟨h.1, fun p hp => ?_, h.2.2⟩
  cases p
  · exact (c_pending.resolve_right hp).trans (h.2.1 _ hp)
  · exact h.2.1 _ hp
  · exact h.2.1 _ hp
  · exact h.2.1 _ hp
  · exact h.2.1 _ hp
  · exact (c_free.resolve_right hp).trans (h.2.1 _ hp)
  · exact (c_readOut.resolve_right hp).trans (h.2.1 _ hp)
  · exact (c_ticks.resolve_right hp).trans (h.2.1 _ hp)
  · exact h.2.1 _ hp
  · exact (c_cfg.resolve_right hp).trans (h.2.1 _ hp)
  · exact (c_flt.resolve_right hp).trans (h.2.1 _ hp)
  · exact (c_tsk.resolve_right hp).trans (h.2.1 _ hp)
  · exact (c_harts.resolve_right hp).trans (h.2.1 _ hp)
  · exact (c_acu.resolve_right hp).trans (h.2.1 _ hp)
  · exact (c_pwr.resolve_right hp).trans (h.2.1 _ hp)
  · exact (c_cel.resolve_right hp).trans (h.2.1 _ hp)
  · exact (c_sch.resolve_right hp).trans (h.2.1 _ hp)
  · exact (c_gcl.resolve_right hp).trans (h.2.1 _ hp)
  · exact (c_kln.resolve_right hp).trans (h.2.1 _ hp)
  · exact (c_act.resolve_right hp).trans (h.2.1 _ hp)
  · exact (c_ube.resolve_right hp).trans (h.2.1 _ hp)
  · exact (c_chp.resolve_right hp).trans (h.2.1 _ hp)
  · exact (c_dsf.resolve_right hp).trans (h.2.1 _ hp)
  · exact (c_ohs.resolve_right hp).trans (h.2.1 _ hp)
  · exact (c_pipes.resolve_right hp).trans (h.2.1 _ hp)
  · exact (c_cls.resolve_right hp).trans (h.2.1 _ hp)
  · exact (c_flw.resolve_right hp).trans (h.2.1 _ hp)
  · exact (c_spc.resolve_right hp).trans (h.2.1 _ hp)
  · exact (c_mac.resolve_right hp).trans (h.2.1 _ hp)
  · exact (c_lph.resolve_right hp).trans (h.2.1 _ hp)
  · exact (c_tim.resolve_right hp).trans (h.2.1 _ hp)
  · exact (c_cas.resolve_right hp).trans (h.2.1 _ hp)
  · exact (c_clk.resolve_right hp).trans (h.2.1 _ hp)
  · exact (c_tap.resolve_right hp).trans (h.2.1 _ hp)
  · exact (c_boot.resolve_right hp).trans (h.2.1 _ hp)
  · exact (c_power.resolve_right hp).trans (h.2.1 _ hp)

theorem kept_ite {c : Prop} [Decidable c] {a b : State} (ha : Kept kb kl bl ko a) (hb : Kept kb kl bl ko b) : Kept kb kl bl ko (if c then a else b) := by
  split <;> assumption

theorem kept_ite1 {α : Type} {c : Prop} [Decidable c] {a b : State × α} (ha : Kept kb kl bl ko a.1) (hb : Kept kb kl bl ko b.1) :
    Kept kb kl bl ko (if c then a else b).1 := by
  split <;> assumption

theorem kept_ite2 {α : Type} {c : Prop} [Decidable c] {a b : α × State} (ha : Kept kb kl bl ko a.2) (hb : Kept kb kl bl ko b.2) :
    Kept kb kl bl ko (if c then a else b).2 := by
  split <;> assumption

theorem kept_ite21 {α β : Type} {c : Prop} [Decidable c] {a b : α × State × β} (ha : Kept kb kl bl ko a.2.1) (hb : Kept kb kl bl ko b.2.1) :
    Kept kb kl bl ko (if c then a else b).2.1 := by
  split <;> assumption

theorem kept_ite22 {α β : Type} {c : Prop} [Decidable c] {a b : α × β × State} (ha : Kept kb kl bl ko a.2.2) (hb : Kept kb kl bl ko b.2.2) :
    Kept kb kl bl ko (if c then a else b).2.2 := by
  split <;> assumption

theorem kept_foldl {α : Type} {f : State → α → State} {l : List α} {s : State}
    (hf : ∀ s x, Kept kb kl bl ko s → Kept kb kl bl ko (f s x)) (h : Kept kb kl bl ko s) : Kept kb kl bl ko (l.foldl f s) := by
  induction l generalizing s with
  | nil => exact h
  | cons x l ih => exact ih (hf s x h)

theorem kept_foldl2 {α β : Type} {f : β × State → α → β × State} {l : List α} {p : β × State}
    (hf : ∀ p x, Kept kb kl bl ko p.2 → Kept kb kl bl ko (f p x).2) (h : Kept kb kl bl ko p.2) : Kept kb kl bl ko (l.foldl f p).2 := by
  induction l generalizing p with
  | nil => exact h
  | cons x l ih => exact ih (hf p x h)

theorem kept_foldl1 {α β : Type} {f : State × β → α → State × β} {l : List α} {p : State × β}
    (hf : ∀ p x, Kept kb kl bl ko p.1 → Kept kb kl bl ko (f p x).1) (h : Kept kb kl bl ko p.1) : Kept kb kl bl ko (l.foldl f p).1 := by
  induction l generalizing p with
  | nil => exact h
  | cons x l ih => exact ih (hf p x h)

theorem kept_pair2 {α : Type} {r : α × State} {a : α} {t : State} (e : r = (a, t)) (h : Kept kb kl bl ko r.2) : Kept kb kl bl ko t := by
  subst e; exact h

theorem kept_pair1 {α : Type} {r : State × α} {a : α} {t : State} (e : r = (t, a)) (h : Kept kb kl bl ko r.1) : Kept kb kl bl ko t := by
  subst e; exact h

theorem kept_pair23 {α β : Type} {r : α × State × β} {a : α} {b : β} {t : State} (e : r = (a, t, b)) (h : Kept kb kl bl ko r.2.1) :
    Kept kb kl bl ko t := by
  subst e; exact h

theorem kept_pair22 {α β : Type} {r : α × β × State} {a : α} {b : β} {t : State} (e : r = (a, b, t)) (h : Kept kb kl bl ko r.2.2) :
    Kept kb kl bl ko t := by
  subst e; exact h

/-- Every state that an optional result carries is kept so. -/
def KeptO {β : Type} [Membership Nat β] (kb : Bool) (kl : List Part) (bl : β) (ko : State) {α : Type} (f : α → State) (r : Option α) : Prop :=
  ∀ x, r = some x → Kept kb kl bl ko (f x)

theorem kept_none {α : Type} {f : α → State} : KeptO kb kl bl ko f none := fun _ e => nomatch e

theorem kept_some {s : State} (h : Kept kb kl bl ko s) : KeptO kb kl bl ko id (some s) := fun _ e => by cases e; exact h

theorem kept_some2 {α : Type} {a : α} {s : State} (h : Kept kb kl bl ko s) : KeptO kb kl bl ko Prod.snd (some (a, s)) := fun _ e => by
  cases e; exact h

theorem kept_oite {α : Type} {f : α → State} {c : Prop} [Decidable c] {a b : Option α} (ha : KeptO kb kl bl ko f a) (hb : KeptO kb kl bl ko f b) :
    KeptO kb kl bl ko f (if c then a else b) := by
  split <;> assumption

theorem kept_omap {α : Type} {r : Option α} {g : α → State} (h : ∀ x, Kept kb kl bl ko (g x)) : KeptO kb kl bl ko id (r.map g) := fun _ e => by
  cases r with
  | none => cases e
  | some y => cases e; exact h y

theorem kept_ouse {r : Option State} {t : State} (e : r = some t) (h : KeptO kb kl bl ko id r) : Kept kb kl bl ko t := h t e

theorem kept_ouse2 {α : Type} {r : Option (α × State)} {a : α} {t : State} (e : r = some (a, t)) (h : KeptO kb kl bl ko Prod.snd r) :
    Kept kb kl bl ko t := h (a, t) e

theorem kept_ouse3 {α : Type} {r : Option (α × State)} {x : α × State} (e : r = some x) (h : KeptO kb kl bl ko Prod.snd r) :
    Kept kb kl bl ko x.2 := h x e

theorem Frame.regs {s : State} {x : SMap Word} (h : Frame kl ko s) (h_p_regs : Part.regs ∈ kl) :
    Frame kl ko { s with regs := x } := by
  intro p hp
  cases p
  case regs => exact absurd h_p_regs hp
  all_goals exact h _ hp

theorem Frame.shadow {s : State} {x : SMap Word} (h : Frame kl ko s) (h_p_shadow : Part.shadow ∈ kl) :
    Frame kl ko { s with shadow := x } := by
  intro p hp
  cases p
  case shadow => exact absurd h_p_shadow hp
  all_goals exact h _ hp

theorem Frame.mem {s : State} {x : SMap Byte} (h : Frame kl ko s) (h_p_mem : Part.mem ∈ kl) :
    Frame kl ko { s with mem := x } := by
  intro p hp
  cases p
  case mem => exact absurd h_p_mem hp
  all_goals exact h _ hp

theorem Frame.ecc {s : State} {x : SMap (BitVec 72)} (h : Frame kl ko s) (h_p_ecc : Part.ecc ∈ kl) :
    Frame kl ko { s with ecc := x } := by
  intro p hp
  cases p
  case ecc => exact absurd h_p_ecc hp
  all_goals exact h _ hp

theorem Frame.memEcc {s : State} {x : SMap Byte} {y : SMap (BitVec 72)} (h : Frame kl ko s) (h_p_mem : Part.mem ∈ kl)
    (h_p_ecc : Part.ecc ∈ kl) : Frame kl ko { s with mem := x, ecc := y } := by
  intro p hp
  cases p
  case mem => exact absurd h_p_mem hp
  case ecc => exact absurd h_p_ecc hp
  all_goals exact h _ hp

theorem Frame.tod {s : State} {x : Tod} (h : Frame kl ko s) (h_p_tod : Part.tod ∈ kl) :
    Frame kl ko { s with tod := x } := by
  intro p hp
  cases p
  case tod => exact absurd h_p_tod hp
  all_goals exact h _ hp

/-- A counter position below one second. -/
theorem Kept.of_tod {s : State} {x : Tod} (h : Kept kb kl bl ko s) (hx : kb = true → x.f < secF)
    (h_p_tod : Part.tod ∈ kl := by assumption) : Kept kb kl bl ko { s with tod := x } :=
  ⟨fun b => ⟨(h.1 b).1, (h.1 b).2.1, (h.1 b).2.2.1, hx b, (h.1 b).2.2.2.2⟩, h.2.1.tod h_p_tod, h.2.2⟩

theorem mem_guard {x : Nat} (h : x ∈ bl) : x ∈ bl := h

theorem blk_ite {c : Prop} [Decidable c] {x y : RF} (hx : blkOf x.addr ∈ bl) (hy : blkOf y.addr ∈ bl) : blkOf (if c then x else y).addr ∈ bl := by
  split <;> assumption

theorem blk_eqdV {k p : Nat} (h : blkACT ∈ bl) : blkOf (eqdV k p).addr ∈ bl := by
  unfold eqdV
  exact blk_ite (by with_unfolding_all exact blk_n (by decide) (by decide) h) (by with_unfolding_all exact blk_n (by decide) (by decide) h)

theorem blk_eqdOf {k p : Nat} (h : blkACT ∈ bl) : blkOf (eqdOf k p).addr ∈ bl := by
  unfold eqdOf
  exact blk_ite (by with_unfolding_all exact blk_n (by decide) (by decide) h) (by with_unfolding_all exact blk_n (by decide) (by decide) h)

theorem blk_copyCode {b : Bool} (h : blkCFG ∈ bl) : blkOf (copyCode b).addr ∈ bl := by
  unfold copyCode
  exact blk_ite (by with_unfolding_all exact h) (by with_unfolding_all exact h)

theorem blk_casDownEvt {g : Nat} (h : blkCAS ∈ bl) : blkOf (casDownEvt g).addr ∈ bl := by
  unfold casDownEvt
  exact blk_ite (by with_unfolding_all exact h) (by with_unfolding_all exact h)

theorem blk_poolReg {d : Nat} (h : blkCEL ∈ bl) : blkOf (poolReg d).addr ∈ bl := by
  unfold poolReg
  exact blk_ite (by with_unfolding_all exact h) (by with_unfolding_all exact h)

theorem blk_freeReg {d : Nat} (h : blkCEL ∈ bl) : blkOf (freeReg d).addr ∈ bl := by
  unfold freeReg
  exact blk_ite (by with_unfolding_all exact h) (by with_unfolding_all exact h)

theorem blk_celCnt {d lo w : Nat} (h : blkCEL ∈ bl) : blkOf (celCnt d lo w).addr ∈ bl := by
  unfold celCnt
  exact blk_ite (by with_unfolding_all exact h) (by with_unfolding_all exact h)

theorem blk_calState {k : Nat} {tx : Bool} (h : blkLPH ∈ bl) : blkOf (calState k tx).addr ∈ bl := by
  unfold calState
  exact blk_ite (by with_unfolding_all exact blk_n (by decide) (by decide) h) (by with_unfolding_all exact blk_n (by decide) (by decide) h)

theorem blk_srefBits {n : Nat} (h : blkCLK ∈ bl) : blkOf (srefBits n).1.addr ∈ bl ∧ blkOf (srefBits n).2.1.addr ∈ bl := by
  unfold srefBits
  split <;> exact ⟨h, h⟩

theorem blk_laserBits {i : Nat} (h : blkLPH ∈ bl) (h2 : blkMAC ∈ bl) :
    blkOf (laserBits i).1.addr ∈ bl ∧ blkOf (laserBits i).2.1.addr ∈ bl ∧ blkOf (laserBits i).2.2.addr ∈ bl := by
  unfold laserBits
  split
  · exact ⟨h, h, h⟩
  · exact ⟨h, h, h⟩
  · exact ⟨h2, h2, h2⟩
  · exact ⟨h2, h2, h2⟩

theorem kept_setReg {s : State} {a : Nat} {v : Word} (h : Kept kb kl bl ko s) (h_p_regs : Part.regs ∈ kl := by assumption)
    (h_b : blkOf a ∈ bl := by
      with_unfolding_all first
        | assumption
        | exact (by assumption : ∀ n, n ∈ bl) _
        | exact blk_n (by decide) (by decide) (by assumption)
        | exact blk_un (by decide) (by decide) (by decide) (by assumption)
        | exact blk_ite (by assumption) (by assumption)
        | exact blk_ite (by exact blk_n (by decide) (by decide) (by assumption)) (by exact blk_n (by decide) (by decide) (by assumption))
        | exact blk_eqdV (by assumption)
        | exact blk_eqdOf (by assumption)
        | exact blk_copyCode (by assumption)
        | exact blk_casDownEvt (by assumption)
        | exact blk_poolReg (by assumption)
        | exact blk_freeReg (by assumption)
        | exact blk_celCnt (by assumption)
        | exact blk_calState (by assumption)
        | exact (blk_srefBits (by assumption)).1
        | exact (blk_srefBits (by assumption)).2
        | exact (blk_laserBits (by assumption) (by assumption)).1
        | exact (blk_laserBits (by assumption) (by assumption)).2.1
        | exact (blk_laserBits (by assumption) (by assumption)).2.2) :
    Kept kb kl bl ko (s.setReg a v) := by
  refine ⟨fun b => ⟨SMap.wf_set _ a v (h.1 b).1, (h.1 b).2⟩, h.2.1.regs h_p_regs, fun x hx => ?_⟩
  have hn : x ≠ a := fun e => hx (e ▸ h_b)
  exact (SMap.get_set_ne _ _ _ _ _ hn).trans (h.2.2 x hx)

theorem kept_setSh {s : State} {a : Nat} {v : Word} (h : Kept kb kl bl ko s)
    (h_p_shadow : Part.shadow ∈ kl := by assumption) : Kept kb kl bl ko (s.setSh a v) :=
  ⟨fun b => ⟨(h.1 b).1, SMap.wf_set _ a v (h.1 b).2.1, (h.1 b).2.2⟩, h.2.1.shadow h_p_shadow, h.2.2⟩

theorem kept_setByte {s : State} {a : Nat} {b : Byte} (h : Kept kb kl bl ko s)
    (h_p_mem : Part.mem ∈ kl := by assumption) : Kept kb kl bl ko (s.setByte a b) :=
  ⟨fun e => ⟨(h.1 e).1, (h.1 e).2.1, SMap.wf_set _ a b (h.1 e).2.2.1, (h.1 e).2.2.2⟩, h.2.1.mem h_p_mem, h.2.2⟩

theorem kept_setEcc {s : State} {a : Nat} {f : BitVec 72} (h : Kept kb kl bl ko s)
    (h_p_ecc : Part.ecc ∈ kl := by assumption) : Kept kb kl bl ko (s.setEcc a f) :=
  ⟨fun e => ⟨(h.1 e).1, (h.1 e).2.1, (h.1 e).2.2.1, (h.1 e).2.2.2.1, SMap.wf_set _ (a / 8) f (h.1 e).2.2.2.2⟩,
    h.2.1.ecc h_p_ecc, h.2.2⟩

theorem kept_setBytes {s : State} {a : Nat} {l : Bytes} (h : Kept kb kl bl ko s)
    (h_p_mem : Part.mem ∈ kl := by assumption) (h_p_ecc : Part.ecc ∈ kl := by assumption) : Kept kb kl bl ko (s.setBytes a l) := by
  induction l generalizing s a with
  | nil => exact h
  | cons b l ih => exact ih (kept_setEcc (kept_setByte h))

theorem kept_draw {s : State} (h : Kept kb kl bl ko s) (h_p_free : Part.free ∈ kl := by assumption) :
    Kept kb kl bl ko s.draw.2 := by
  refine ⟨h.1, fun p hp => ?_, h.2.2⟩
  cases p
  case free => exact absurd h_p_free hp
  all_goals exact h.2.1 _ hp

theorem blkOf_bankOf {a b : Nat} (h : bankOf a = some b) : blkOf a = blkOf b := by
  have hd : a / 0x1000000 * 0x1000000 + a % 0x1000000 = a := Nat.div_add_mod' a _
  unfold bankOf at h
  dsimp only at h
  unfold blkOf at *
  split at h
  · injection h with h; subst h; omega
  · split at h
    · split at h
      · injection h with h; subst h; omega
      · cases h
    · split at h
      · split at h
        · injection h with h; subst h; omega
        · cases h
      · cases h

theorem kept_foldl_mem {α : Type} {f : State → α → State} {l : List α} {s : State}
    (hf : ∀ s, ∀ x ∈ l, Kept kb kl bl ko s → Kept kb kl bl ko (f s x)) (h : Kept kb kl bl ko s) : Kept kb kl bl ko (l.foldl f s) := by
  induction l generalizing s with
  | nil => exact h
  | cons x l ih => exact ih (fun s y hy => hf s y (List.mem_cons_of_mem _ hy)) (hf s x List.mem_cons_self h)

theorem mem_eraseDups_loop (as bs : List Nat) (x : Nat) : x ∈ List.eraseDupsBy.loop (· == ·) as bs → x ∈ as ∨ x ∈ bs := by
  induction as generalizing bs with
  | nil => intro h; simpa [List.eraseDupsBy.loop] using h
  | cons a as ih =>
    unfold List.eraseDupsBy.loop
    split
    · intro h
      rcases ih _ h with h | h
      · exact Or.inl (List.mem_cons_of_mem _ h)
      · exact Or.inr h
    · intro h
      rcases ih _ h with h | h
      · exact Or.inl (List.mem_cons_of_mem _ h)
      · rcases List.mem_cons.1 h with rfl | h
        · exact Or.inl List.mem_cons_self
        · exact Or.inr h

theorem mem_bankKeys {s : State} {b a : Nat} (h : a ∈ bankKeys s b) : bankOf a = some b := by
  unfold bankKeys List.eraseDups List.eraseDupsBy at h
  rcases mem_eraseDups_loop _ _ _ h with h | h
  · simpa using (List.mem_filter.1 h).2
  · nomatch h

theorem inv_reset : Inv State.reset := by
  refine ⟨rfl, rfl, rfl, ?_, rfl⟩
  decide

theorem SMap.wfFrom_filter {α : Type} [DecidableEq α] (d : Nat → α) (p : Nat × α → Bool) {lo : Nat} {m : SMap α}
    (h : SMap.wfFrom d lo m = true) : SMap.wfFrom d lo (m.filter p) = true := by
  induction m generalizing lo with
  | nil => rfl
  | cons e t ih =>
    obtain ⟨j, v⟩ := e
    simp only [SMap.wfFrom, Bool.and_eq_true, decide_eq_true_eq] at h
    by_cases hp : p (j, v) = true
    · simp only [List.filter_cons, hp, ↓reduceIte, SMap.wfFrom, Bool.and_eq_true, decide_eq_true_eq]
      exact ⟨h.1, ih h.2⟩
    · simp only [List.filter_cons, hp]
      exact SMap.wfFrom_mono d (ih h.2) (by omega)

end Sys2Proof.Machine
end

