-- ==== Sys2Proof/Laws/KeptCells.lean ====
section
/-! SUPPORT. What every operation of the register file, faults, checked words, cells, banks and scheduling objects keeps: one lemma for each, named after it, which lists the parts of the state that the operation may change. -/

set_option linter.unusedTactic false
set_option linter.unreachableTactic false

namespace Sys2Proof.Machine

set_option linter.unusedVariables false
set_option Elab.async false

variable {β : Type} [Membership Nat β] {kb : Bool} {kl : List Part} {bl : β} {ko : State}

theorem kept_st_wr {s : State} {r : RF} {n : Nat} (h_s : Kept kb kl bl ko s) (h_p_regs : Part.regs ∈ kl := by assumption) (h_b0 : blkOf r.addr ∈ bl := by with_unfolding_all (first | assumption | exact (by assumption : ∀ n, n ∈ bl) _ | exact blk_n (by decide) (by decide) (by assumption) | exact blk_un (by decide) (by decide) (by decide) (by assumption))) :
    Kept kb kl bl ko (State.wr s r n) := by
  unfold State.wr
  with_reducible repeat' first
    | assumption
    | (refine mem_guard ?_; with_unfolding_all (first | assumption | exact (by assumption : ∀ n, n ∈ bl) _ | exact blk_n (by decide) (by decide) (by assumption) | exact blk_un (by decide) (by decide) (by decide) (by assumption)))
    | apply kept_setReg
    | refine Kept.of_mk ?_

theorem kept_st_put {s : State} {r : RF} {b : Bool} (h_s : Kept kb kl bl ko s) (h_p_regs : Part.regs ∈ kl := by assumption) (h_b0 : blkOf r.addr ∈ bl := by with_unfolding_all (first | assumption | exact (by assumption : ∀ n, n ∈ bl) _ | exact blk_n (by decide) (by decide) (by assumption) | exact blk_un (by decide) (by decide) (by decide) (by assumption))) :
    Kept kb kl bl ko (State.put s r b) := by
  unfold State.put
  with_reducible repeat' first
    | assumption
    | (refine mem_guard ?_; with_unfolding_all (first | assumption | exact (by assumption : ∀ n, n ∈ bl) _ | exact blk_n (by decide) (by decide) (by assumption) | exact blk_un (by decide) (by decide) (by decide) (by assumption)))
    | apply kept_st_wr
    | refine Kept.of_mk ?_

theorem kept_st_addTo {s : State} {r : RF} {n : Nat} (h_s : Kept kb kl bl ko s) (h_p_regs : Part.regs ∈ kl := by assumption) (h_b0 : blkOf r.addr ∈ bl := by with_unfolding_all (first | assumption | exact (by assumption : ∀ n, n ∈ bl) _ | exact blk_n (by decide) (by decide) (by assumption) | exact blk_un (by decide) (by decide) (by decide) (by assumption))) :
    Kept kb kl bl ko (State.addTo s r n) := by
  unfold State.addTo
  with_reducible repeat' first
    | assumption
    | (refine mem_guard ?_; with_unfolding_all (first | assumption | exact (by assumption : ∀ n, n ∈ bl) _ | exact blk_n (by decide) (by decide) (by assumption) | exact blk_un (by decide) (by decide) (by decide) (by assumption)))
    | apply kept_st_wr
    | refine Kept.of_mk ?_

theorem kept_st_inc {s : State} {r : RF} (h_s : Kept kb kl bl ko s) (h_p_regs : Part.regs ∈ kl := by assumption) (h_b0 : blkOf r.addr ∈ bl := by with_unfolding_all (first | assumption | exact (by assumption : ∀ n, n ∈ bl) _ | exact blk_n (by decide) (by decide) (by assumption) | exact blk_un (by decide) (by decide) (by decide) (by assumption))) :
    Kept kb kl bl ko (State.inc s r) := by
  unfold State.inc
  with_reducible repeat' first
    | assumption
    | (refine mem_guard ?_; with_unfolding_all (first | assumption | exact (by assumption : ∀ n, n ∈ bl) _ | exact blk_n (by decide) (by decide) (by assumption) | exact blk_un (by decide) (by decide) (by decide) (by assumption)))
    | apply kept_st_addTo
    | refine Kept.of_mk ?_

theorem kept_st_setBit {s : State} {r : RF} {i : Nat} (h_s : Kept kb kl bl ko s) (h_p_regs : Part.regs ∈ kl := by assumption) (h_b0 : blkOf r.addr ∈ bl := by with_unfolding_all (first | assumption | exact (by assumption : ∀ n, n ∈ bl) _ | exact blk_n (by decide) (by decide) (by assumption) | exact blk_un (by decide) (by decide) (by decide) (by assumption))) :
    Kept kb kl bl ko (State.setBit s r i) := by
  unfold State.setBit
  with_reducible repeat' first
    | assumption
    | (refine mem_guard ?_; with_unfolding_all (first | assumption | exact (by assumption : ∀ n, n ∈ bl) _ | exact blk_n (by decide) (by decide) (by assumption) | exact blk_un (by decide) (by decide) (by decide) (by assumption)))
    | apply kept_st_wr
    | refine Kept.of_mk ?_

theorem kept_st_clrBit {s : State} {r : RF} {i : Nat} (h_s : Kept kb kl bl ko s) (h_p_regs : Part.regs ∈ kl := by assumption) (h_b0 : blkOf r.addr ∈ bl := by with_unfolding_all (first | assumption | exact (by assumption : ∀ n, n ∈ bl) _ | exact blk_n (by decide) (by decide) (by assumption) | exact blk_un (by decide) (by decide) (by decide) (by assumption))) :
    Kept kb kl bl ko (State.clrBit s r i) := by
  unfold State.clrBit
  with_reducible repeat' first
    | assumption
    | (refine mem_guard ?_; with_unfolding_all (first | assumption | exact (by assumption : ∀ n, n ∈ bl) _ | exact blk_n (by decide) (by decide) (by assumption) | exact blk_un (by decide) (by decide) (by decide) (by assumption)))
    | apply kept_st_wr
    | refine Kept.of_mk ?_

theorem kept_st_setWord {s : State} {a : Nat} {v : Word} (h_s : Kept kb kl bl ko s) (h_p_mem : Part.mem ∈ kl := by assumption) (h_p_ecc : Part.ecc ∈ kl := by assumption) :
    Kept kb kl bl ko (State.setWord s a v) := by
  unfold State.setWord
  with_reducible repeat' first
    | assumption
    | apply kept_setBytes
    | refine Kept.of_mk ?_

theorem kept_st_setAcuWin {s : State} {k : Nat} {v : AcuWin} (h_s : Kept kb kl bl ko s) (h_p_acu : Part.acu ∈ kl := by assumption) :
    Kept kb kl bl ko (State.setAcuWin s k v) := by
  unfold State.setAcuWin
  with_reducible repeat' first
    | assumption
    | refine Kept.of_mk ?_

theorem kept_st_setLq {s : State} {k : Nat} {v : LeafQ} (h_s : Kept kb kl bl ko s) (h_p_cel : Part.cel ∈ kl := by assumption) :
    Kept kb kl bl ko (State.setLq s k v) := by
  unfold State.setLq
  with_reducible repeat' first
    | assumption
    | refine Kept.of_mk ?_

theorem kept_st_setProfile {s : State} {k : Nat} {v : Profile} (h_s : Kept kb kl bl ko s) (h_p_cel : Part.cel ∈ kl := by assumption) :
    Kept kb kl bl ko (State.setProfile s k v) := by
  unfold State.setProfile
  with_reducible repeat' first
    | assumption
    | refine Kept.of_mk ?_

theorem kept_st_setPoolUsed {s : State} {k : Nat} {v : Nat} (h_s : Kept kb kl bl ko s) (h_p_cel : Part.cel ∈ kl := by assumption) :
    Kept kb kl bl ko (State.setPoolUsed s k v) := by
  unfold State.setPoolUsed
  with_reducible repeat' first
    | assumption
    | refine Kept.of_mk ?_

theorem kept_st_setStack {s : State} {k : Nat} {v : Stack} (h_s : Kept kb kl bl ko s) (h_p_cel : Part.cel ∈ kl := by assumption) :
    Kept kb kl bl ko (State.setStack s k v) := by
  unfold State.setStack
  with_reducible repeat' first
    | assumption
    | refine Kept.of_mk ?_

theorem kept_st_setLeafObj {s : State} {k : Nat} {v : SchObj} (h_s : Kept kb kl bl ko s) (h_p_sch : Part.sch ∈ kl := by assumption) :
    Kept kb kl bl ko (State.setLeafObj s k v) := by
  unfold State.setLeafObj
  with_reducible repeat' first
    | assumption
    | refine Kept.of_mk ?_

theorem kept_st_setSub {s : State} {k : Nat} {v : Subscriber} (h_s : Kept kb kl bl ko s) (h_p_sch : Part.sch ∈ kl := by assumption) :
    Kept kb kl bl ko (State.setSub s k v) := by
  unfold State.setSub
  with_reducible repeat' first
    | assumption
    | refine Kept.of_mk ?_

theorem kept_st_setSvc {s : State} {k : Nat} {v : SchObj} (h_s : Kept kb kl bl ko s) (h_p_sch : Part.sch ∈ kl := by assumption) :
    Kept kb kl bl ko (State.setSvc s k v) := by
  unfold State.setSvc
  with_reducible repeat' first
    | assumption
    | refine Kept.of_mk ?_

theorem kept_st_setPortObj {s : State} {k : Nat} {v : SchObj} (h_s : Kept kb kl bl ko s) (h_p_sch : Part.sch ∈ kl := by assumption) :
    Kept kb kl bl ko (State.setPortObj s k v) := by
  unfold State.setPortObj
  with_reducible repeat' first
    | assumption
    | refine Kept.of_mk ?_

theorem kept_st_setPolicer {s : State} {k : Nat} {v : Policer} (h_s : Kept kb kl bl ko s) (h_p_sch : Part.sch ∈ kl := by assumption) :
    Kept kb kl bl ko (State.setPolicer s k v) := by
  unfold State.setPolicer
  with_reducible repeat' first
    | assumption
    | refine Kept.of_mk ?_

theorem kept_st_setToMac {s : State} {k : Nat} {v : (List (Nat × QPkt))} (h_s : Kept kb kl bl ko s) (h_p_sch : Part.sch ∈ kl := by assumption) :
    Kept kb kl bl ko (State.setToMac s k v) := by
  unfold State.setToMac
  with_reducible repeat' first
    | assumption
    | refine Kept.of_mk ?_

theorem kept_st_setGclPort {s : State} {k : Nat} {v : GclPort} (h_s : Kept kb kl bl ko s) (h_p_gcl : Part.gcl ∈ kl := by assumption) :
    Kept kb kl bl ko (State.setGclPort s k v) := by
  unfold State.setGclPort
  with_reducible repeat' first
    | assumption
    | refine Kept.of_mk ?_

theorem kept_st_setSlot {s : State} {k : Nat} {v : KeySlot} (h_s : Kept kb kl bl ko s) (h_p_kln : Part.kln ∈ kl := by assumption) :
    Kept kb kl bl ko (State.setSlot s k v) := by
  unfold State.setSlot
  with_reducible repeat' first
    | assumption
    | refine Kept.of_mk ?_

theorem kept_st_setRoot {s : State} {k : Nat} {v : (Option Bytes)} (h_s : Kept kb kl bl ko s) (h_p_kln : Part.kln ∈ kl := by assumption) :
    Kept kb kl bl ko (State.setRoot s k v) := by
  unfold State.setRoot
  with_reducible repeat' first
    | assumption
    | refine Kept.of_mk ?_

theorem kept_st_setKek {s : State} {k : Nat} {v : (Option Bytes)} (h_s : Kept kb kl bl ko s) (h_p_kln : Part.kln ∈ kl := by assumption) :
    Kept kb kl bl ko (State.setKek s k v) := by
  unfold State.setKek
  with_reducible repeat' first
    | assumption
    | refine Kept.of_mk ?_

theorem kept_st_setEpoch {s : State} {k : Nat} {v : EpochSt} (h_s : Kept kb kl bl ko s) (h_p_kln : Part.kln ∈ kl := by assumption) :
    Kept kb kl bl ko (State.setEpoch s k v) := by
  unfold State.setEpoch
  with_reducible repeat' first
    | assumption
    | refine Kept.of_mk ?_

theorem kept_st_setLastEpoch {s : State} {k : Nat} {v : (Option Nat)} (h_s : Kept kb kl bl ko s) (h_p_kln : Part.kln ∈ kl := by assumption) :
    Kept kb kl bl ko (State.setLastEpoch s k v) := by
  unfold State.setLastEpoch
  with_reducible repeat' first
    | assumption
    | refine Kept.of_mk ?_

theorem kept_st_setBinding {s : State} {k : Nat} {v : Binding} (h_s : Kept kb kl bl ko s) (h_p_kln : Part.kln ∈ kl := by assumption) :
    Kept kb kl bl ko (State.setBinding s k v) := by
  unfold State.setBinding
  with_reducible repeat' first
    | assumption
    | refine Kept.of_mk ?_

theorem kept_st_setKlnData {s : State} {k : Nat} {v : Word} (h_s : Kept kb kl bl ko s) (h_p_kln : Part.kln ∈ kl := by assumption) :
    Kept kb kl bl ko (State.setKlnData s k v) := by
  unfold State.setKlnData
  with_reducible repeat' first
    | assumption
    | refine Kept.of_mk ?_

theorem kept_st_setTxSa {s : State} {k : Nat} {v : SecAssoc} (h_s : Kept kb kl bl ko s) (h_p_kln : Part.kln ∈ kl := by assumption) :
    Kept kb kl bl ko (State.setTxSa s k v) := by
  unfold State.setTxSa
  with_reducible repeat' first
    | assumption
    | refine Kept.of_mk ?_

theorem kept_st_setRxSa {s : State} {k : Nat} {v : SecAssoc} (h_s : Kept kb kl bl ko s) (h_p_kln : Part.kln ∈ kl := by assumption) :
    Kept kb kl bl ko (State.setRxSa s k v) := by
  unfold State.setRxSa
  with_reducible repeat' first
    | assumption
    | refine Kept.of_mk ?_

theorem kept_st_setPair {s : State} {k : Nat} {v : ActPair} (h_s : Kept kb kl bl ko s) (h_p_act : Part.act ∈ kl := by assumption) :
    Kept kb kl bl ko (State.setPair s k v) := by
  unfold State.setPair
  with_reducible repeat' first
    | assumption
    | refine Kept.of_mk ?_

theorem kept_st_setUbeCh {s : State} {k : Nat} {v : UbeCh} (h_s : Kept kb kl bl ko s) (h_p_ube : Part.ube ∈ kl := by assumption) :
    Kept kb kl bl ko (State.setUbeCh s k v) := by
  unfold State.setUbeCh
  with_reducible repeat' first
    | assumption
    | refine Kept.of_mk ?_

theorem kept_st_setAllocCtx {s : State} {k : Nat} {v : AllocCtx} (h_s : Kept kb kl bl ko s) (h_p_ube : Part.ube ∈ kl := by assumption) :
    Kept kb kl bl ko (State.setAllocCtx s k v) := by
  unfold State.setAllocCtx
  with_reducible repeat' first
    | assumption
    | refine Kept.of_mk ?_

theorem kept_st_setUpStream {s : State} {k : Nat} {v : UpStream} (h_s : Kept kb kl bl ko s) (h_p_ube : Part.ube ∈ kl := by assumption) :
    Kept kb kl bl ko (State.setUpStream s k v) := by
  unfold State.setUpStream
  with_reducible repeat' first
    | assumption
    | refine Kept.of_mk ?_

theorem kept_st_setChpCh {s : State} {k : Nat} {v : ChpCh} (h_s : Kept kb kl bl ko s) (h_p_chp : Part.chp ∈ kl := by assumption) :
    Kept kb kl bl ko (State.setChpCh s k v) := by
  unfold State.setChpCh
  with_reducible repeat' first
    | assumption
    | refine Kept.of_mk ?_

theorem kept_st_setHart {s : State} {k : Nat} {v : Hart} (h_s : Kept kb kl bl ko s) (h_p_harts : Part.harts ∈ kl := by assumption) :
    Kept kb kl bl ko (State.setHart s k v) := by
  unfold State.setHart
  with_reducible repeat' first
    | assumption
    | refine Kept.of_mk ?_

theorem kept_st_setTask {s : State} {k : Nat} {v : Task} (h_s : Kept kb kl bl ko s) (h_p_tsk : Part.tsk ∈ kl := by assumption) :
    Kept kb kl bl ko (State.setTask s k v) := by
  unfold State.setTask
  with_reducible repeat' first
    | assumption
    | refine Kept.of_mk ?_

theorem kept_st_setFrec {s : State} {k : Nat} {v : FltRec} (h_s : Kept kb kl bl ko s) (h_p_flt : Part.flt ∈ kl := by assumption) :
    Kept kb kl bl ko (State.setFrec s k v) := by
  unfold State.setFrec
  with_reducible repeat' first
    | assumption
    | refine Kept.of_mk ?_

theorem kept_st_setFltSpares {s : State} {k : Nat} {v : Nat} (h_s : Kept kb kl bl ko s) (h_p_flt : Part.flt ∈ kl := by assumption) :
    Kept kb kl bl ko (State.setFltSpares s k v) := by
  unfold State.setFltSpares
  with_reducible repeat' first
    | assumption
    | refine Kept.of_mk ?_

theorem kept_st_setBank {s : State} {k : Nat} {v : BankSt} (h_s : Kept kb kl bl ko s) (h_p_cfg : Part.cfg ∈ kl := by assumption) :
    Kept kb kl bl ko (State.setBank s k v) := by
  unfold State.setBank
  with_reducible repeat' first
    | assumption
    | (refine mem_guard ?_; with_unfolding_all (first | assumption | exact (by assumption : ∀ n, n ∈ bl) _ | exact blk_n (by decide) (by decide) (by assumption) | exact blk_un (by decide) (by decide) (by decide) (by assumption)))
    | refine Kept.of_mk ?_

theorem kept_st_setGroup {s : State} {k : Nat} {v : GroupSt} (h_s : Kept kb kl bl ko s) (h_p_cfg : Part.cfg ∈ kl := by assumption) :
    Kept kb kl bl ko (State.setGroup s k v) := by
  unfold State.setGroup
  with_reducible repeat' first
    | assumption
    | refine Kept.of_mk ?_

theorem kept_st_setStagedReg {s : State} {k : Nat} {v : (Option Word)} (h_s : Kept kb kl bl ko s) (h_p_cfg : Part.cfg ∈ kl := by assumption) :
    Kept kb kl bl ko (State.setStagedReg s k v) := by
  unfold State.setStagedReg
  with_reducible repeat' first
    | assumption
    | refine Kept.of_mk ?_

theorem kept_st_setStagedCtx {s : State} {k : Nat} {v : (Option (Bool × Nat))} (h_s : Kept kb kl bl ko s) (h_p_cfg : Part.cfg ∈ kl := by assumption) :
    Kept kb kl bl ko (State.setStagedCtx s k v) := by
  unfold State.setStagedCtx
  with_reducible repeat' first
    | assumption
    | refine Kept.of_mk ?_

theorem kept_st_setBseq {s : State} {k : Nat} {v : Nat} (h_s : Kept kb kl bl ko s) (h_p_cfg : Part.cfg ∈ kl := by assumption) :
    Kept kb kl bl ko (State.setBseq s k v) := by
  unfold State.setBseq
  with_reducible repeat' first
    | assumption
    | refine Kept.of_mk ?_

theorem kept_st_setLastB {s : State} {k : Nat} {v : Nat} (h_s : Kept kb kl bl ko s) (h_p_cfg : Part.cfg ∈ kl := by assumption) :
    Kept kb kl bl ko (State.setLastB s k v) := by
  unfold State.setLastB
  with_reducible repeat' first
    | assumption
    | refine Kept.of_mk ?_

theorem kept_st_setLineSched {s : State} {k : Nat} {v : (Option LineMode)} (h_s : Kept kb kl bl ko s) (h_p_pwr : Part.pwr ∈ kl := by assumption) :
    Kept kb kl bl ko (State.setLineSched s k v) := by
  unfold State.setLineSched
  with_reducible repeat' first
    | assumption
    | refine Kept.of_mk ?_

theorem kept_st_setLineDoze {s : State} {k : Nat} {v : LineDoze} (h_s : Kept kb kl bl ko s) (h_p_pwr : Part.pwr ∈ kl := by assumption) :
    Kept kb kl bl ko (State.setLineDoze s k v) := by
  unfold State.setLineDoze
  with_reducible repeat' first
    | assumption
    | refine Kept.of_mk ?_

theorem kept_st_setSleepOf {s : State} {k : Nat} {v : (Option (Nat × Nat))} (h_s : Kept kb kl bl ko s) (h_p_pwr : Part.pwr ∈ kl := by assumption) :
    Kept kb kl bl ko (State.setSleepOf s k v) := by
  unfold State.setSleepOf
  with_reducible repeat' first
    | assumption
    | refine Kept.of_mk ?_

theorem kept_st_setDsfCh {s : State} {k : Nat} {v : DsfCh} (h_s : Kept kb kl bl ko s) (h_p_dsf : Part.dsf ∈ kl := by assumption) :
    Kept kb kl bl ko (State.setDsfCh s k v) := by
  unfold State.setDsfCh
  with_reducible repeat' first
    | assumption
    | refine Kept.of_mk ?_

theorem kept_st_setStreamMap {s : State} {k : Nat} {v : StreamEnt} (h_s : Kept kb kl bl ko s) (h_p_dsf : Part.dsf ∈ kl := by assumption) :
    Kept kb kl bl ko (State.setStreamMap s k v) := by
  unfold State.setStreamMap
  with_reducible repeat' first
    | assumption
    | refine Kept.of_mk ?_

theorem kept_st_setStreamCtx {s : State} {k : Nat} {v : StreamCtx} (h_s : Kept kb kl bl ko s) (h_p_dsf : Part.dsf ∈ kl := by assumption) :
    Kept kb kl bl ko (State.setStreamCtx s k v) := by
  unfold State.setStreamCtx
  with_reducible repeat' first
    | assumption
    | refine Kept.of_mk ?_

theorem kept_st_setCircuit {s : State} {k : Nat} {v : CircuitCtx} (h_s : Kept kb kl bl ko s) (h_p_dsf : Part.dsf ∈ kl := by assumption) :
    Kept kb kl bl ko (State.setCircuit s k v) := by
  unfold State.setCircuit
  with_reducible repeat' first
    | assumption
    | refine Kept.of_mk ?_

theorem kept_st_setOhsPort {s : State} {k : Nat} {v : OhsPort} (h_s : Kept kb kl bl ko s) (h_p_ohs : Part.ohs ∈ kl := by assumption) :
    Kept kb kl bl ko (State.setOhsPort s k v) := by
  unfold State.setOhsPort
  with_reducible repeat' first
    | assumption
    | refine Kept.of_mk ?_

theorem kept_st_setPipe {s : State} {k : Nat} {v : Pipeline} (h_s : Kept kb kl bl ko s) (h_p_pipes : Part.pipes ∈ kl := by assumption) :
    Kept kb kl bl ko (State.setPipe s k v) := by
  unfold State.setPipe
  with_reducible repeat' first
    | assumption
    | refine Kept.of_mk ?_

theorem kept_st_setRule {s : State} {k : Nat} {v : Rule} (h_s : Kept kb kl bl ko s) (h_p_cls : Part.cls ∈ kl := by assumption) :
    Kept kb kl bl ko (State.setRule s k v) := by
  unfold State.setRule
  with_reducible repeat' first
    | assumption
    | refine Kept.of_mk ?_

theorem kept_st_setAlist {s : State} {k : Nat} {v : ActList} (h_s : Kept kb kl bl ko s) (h_p_cls : Part.cls ∈ kl := by assumption) :
    Kept kb kl bl ko (State.setAlist s k v) := by
  unfold State.setAlist
  with_reducible repeat' first
    | assumption
    | refine Kept.of_mk ?_

theorem kept_st_setMember {s : State} {k : Nat} {v : Member} (h_s : Kept kb kl bl ko s) (h_p_cls : Part.cls ∈ kl := by assumption) :
    Kept kb kl bl ko (State.setMember s k v) := by
  unfold State.setMember
  with_reducible repeat' first
    | assumption
    | refine Kept.of_mk ?_

theorem kept_st_setFlowAt {s : State} {k : Nat} {v : FlowEntry} (h_s : Kept kb kl bl ko s) (h_p_flw : Part.flw ∈ kl := by assumption) :
    Kept kb kl bl ko (State.setFlowAt s k v) := by
  unfold State.setFlowAt
  with_reducible repeat' first
    | assumption
    | refine Kept.of_mk ?_

theorem kept_st_setLearnFilter {s : State} {k : Nat} {v : (Option (Nat × Nat))} (h_s : Kept kb kl bl ko s) (h_p_flw : Part.flw ∈ kl := by assumption) :
    Kept kb kl bl ko (State.setLearnFilter s k v) := by
  unfold State.setLearnFilter
  with_reducible repeat' first
    | assumption
    | refine Kept.of_mk ?_

theorem kept_st_setDelta {s : State} {k : Nat} {v : Nat} (h_s : Kept kb kl bl ko s) (h_p_flw : Part.flw ∈ kl := by assumption) :
    Kept kb kl bl ko (State.setDelta s k v) := by
  unfold State.setDelta
  with_reducible repeat' first
    | assumption
    | refine Kept.of_mk ?_

theorem kept_st_setWays {s : State} {k : Nat} {v : (List Nat)} (h_s : Kept kb kl bl ko s) (h_p_flw : Part.flw ∈ kl := by assumption) :
    Kept kb kl bl ko (State.setWays s k v) := by
  unfold State.setWays
  with_reducible repeat' first
    | assumption
    | refine Kept.of_mk ?_

theorem kept_st_setSpcCh {s : State} {k : Nat} {v : SpcCh} (h_s : Kept kb kl bl ko s) (h_p_spc : Part.spc ∈ kl := by assumption) :
    Kept kb kl bl ko (State.setSpcCh s k v) := by
  unfold State.setSpcCh
  with_reducible repeat' first
    | assumption
    | refine Kept.of_mk ?_

theorem kept_st_setMacPort {s : State} {k : Nat} {v : MacPort} (h_s : Kept kb kl bl ko s) (h_p_mac : Part.mac ∈ kl := by assumption) :
    Kept kb kl bl ko (State.setMacPort s k v) := by
  unfold State.setMacPort
  with_reducible repeat' first
    | assumption
    | refine Kept.of_mk ?_

theorem kept_st_setLphCh {s : State} {k : Nat} {v : LphCh} (h_s : Kept kb kl bl ko s) (h_p_lph : Part.lph ∈ kl := by assumption) :
    Kept kb kl bl ko (State.setLphCh s k v) := by
  unfold State.setLphCh
  with_reducible repeat' first
    | assumption
    | refine Kept.of_mk ?_

theorem kept_st_setTrx {s : State} {k : Nat} {v : Tod} (h_s : Kept kb kl bl ko s) (h_p_tim : Part.tim ∈ kl := by assumption) :
    Kept kb kl bl ko (State.setTrx s k v) := by
  unfold State.setTrx
  with_reducible repeat' first
    | assumption
    | refine Kept.of_mk ?_

theorem kept_st_setTimLine {s : State} {k : Nat} {v : (Option (Nat × Int))} (h_s : Kept kb kl bl ko s) (h_p_tim : Part.tim ∈ kl := by assumption) :
    Kept kb kl bl ko (State.setTimLine s k v) := by
  unfold State.setTimLine
  with_reducible repeat' first
    | assumption
    | refine Kept.of_mk ?_

theorem kept_st_setTsqOf {s : State} {k : Nat} {v : (List TsqEntry)} (h_s : Kept kb kl bl ko s) (h_p_tim : Part.tim ∈ kl := by assumption) :
    Kept kb kl bl ko (State.setTsqOf s k v) := by
  unfold State.setTsqOf
  with_reducible repeat' first
    | assumption
    | refine Kept.of_mk ?_

theorem kept_st_setCasGrp {s : State} {k : Nat} {v : CasGrp} (h_s : Kept kb kl bl ko s) (h_p_cas : Part.cas ∈ kl := by assumption) :
    Kept kb kl bl ko (State.setCasGrp s k v) := by
  unfold State.setCasGrp
  with_reducible repeat' first
    | assumption
    | refine Kept.of_mk ?_

theorem kept_st_setCasSlot {s : State} {k : Nat} {v : CasSlot} (h_s : Kept kb kl bl ko s) (h_p_cas : Part.cas ∈ kl := by assumption) :
    Kept kb kl bl ko (State.setCasSlot s k v) := by
  unfold State.setCasSlot
  with_reducible repeat' first
    | assumption
    | refine Kept.of_mk ?_

theorem kept_st_setCasRedirect {s : State} {k : Nat} {v : CasRedirect} (h_s : Kept kb kl bl ko s) (h_p_cas : Part.cas ∈ kl := by assumption) :
    Kept kb kl bl ko (State.setCasRedirect s k v) := by
  unfold State.setCasRedirect
  with_reducible repeat' first
    | assumption
    | refine Kept.of_mk ?_

theorem kept_st_setCasSerial {s : State} {k : Nat} {v : (Option Word)} (h_s : Kept kb kl bl ko s) (h_p_cas : Part.cas ∈ kl := by assumption) :
    Kept kb kl bl ko (State.setCasSerial s k v) := by
  unfold State.setCasSerial
  with_reducible repeat' first
    | assumption
    | refine Kept.of_mk ?_

theorem kept_st_setCasEmpties {s : State} {k : Nat} {v : Nat} (h_s : Kept kb kl bl ko s) (h_p_cas : Part.cas ∈ kl := by assumption) :
    Kept kb kl bl ko (State.setCasEmpties s k v) := by
  unfold State.setCasEmpties
  with_reducible repeat' first
    | assumption
    | refine Kept.of_mk ?_

theorem kept_st_setCasLastSeq {s : State} {k : Nat} {v : (Option Nat)} (h_s : Kept kb kl bl ko s) (h_p_cas : Part.cas ∈ kl := by assumption) :
    Kept kb kl bl ko (State.setCasLastSeq s k v) := by
  unfold State.setCasLastSeq
  with_reducible repeat' first
    | assumption
    | refine Kept.of_mk ?_

theorem kept_fltSummary {s : State} (h_s : Kept kb kl bl ko s) (h_p_regs : Part.regs ∈ kl := by assumption) (h_b_FLT : blkFLT ∈ bl := by assumption) :
    Kept kb kl bl ko (fltSummary s) := by
  unfold fltSummary
  with_reducible repeat' first
    | assumption
    | (refine mem_guard ?_; with_unfolding_all (first | assumption | exact (by assumption : ∀ n, n ∈ bl) _ | exact blk_n (by decide) (by decide) (by assumption) | exact blk_un (by decide) (by decide) (by decide) (by assumption)))
    | (intro sx; refine (have hsx : Kept kb kl bl ko sx := ?_; ?_); on_goal 2 => (try clear_value sx))
    | (intro sx; try clear_value sx)
    | lift_lets
    | apply kept_st_put
    | apply kept_st_wr
    | refine Kept.of_mk ?_

theorem kept_fltConsequential {w : QuietWin} {s : State} (h_s : Kept kb kl bl ko s) (h_p_regs : Part.regs ∈ kl := by assumption) (h_p_flt : Part.flt ∈ kl := by assumption) (h_b_FLT : blkFLT ∈ bl := by assumption) :
    Kept kb kl bl ko (fltConsequential w s) := by
  unfold fltConsequential
  with_reducible repeat' first
    | assumption
    | (refine mem_guard ?_; with_unfolding_all (first | assumption | exact (by assumption : ∀ n, n ∈ bl) _ | exact blk_n (by decide) (by decide) (by assumption) | exact blk_un (by decide) (by decide) (by decide) (by assumption)))
    | (intro sx; refine (have hsx : Kept kb kl bl ko sx := ?_; ?_); on_goal 2 => (try clear_value sx))
    | (intro sx; try clear_value sx)
    | lift_lets
    | apply kept_st_inc
    | apply kept_st_setFrec
    | refine Kept.of_mk ?_

theorem kept_fltStart {s : State} (h_s : Kept kb kl bl ko s) (h_p_regs : Part.regs ∈ kl := by assumption) (h_p_flt : Part.flt ∈ kl := by assumption) (h_b_FLT : blkFLT ∈ bl := by assumption) :
    Kept kb kl bl ko (fltStart s) := by
  unfold fltStart
  with_reducible repeat' first
    | assumption
    | (refine mem_guard ?_; with_unfolding_all (first | assumption | exact (by assumption : ∀ n, n ∈ bl) _ | exact blk_n (by decide) (by decide) (by assumption) | exact blk_un (by decide) (by decide) (by decide) (by assumption)))
    | (intro sx; refine (have hsx : Kept kb kl bl ko sx := ?_; ?_); on_goal 2 => (try clear_value sx))
    | (intro sx; try clear_value sx)
    | lift_lets
    | apply kept_st_put
    | split
    | dsimp only [sx]
    | refine Kept.of_mk ?_

theorem kept_fltClassified {e : ErrEvent} {s : State} (h_s : Kept kb kl bl ko s) (h_p_regs : Part.regs ∈ kl := by assumption) (h_p_flt : Part.flt ∈ kl := by assumption) (h_b_FLT : blkFLT ∈ bl := by assumption) :
    Kept kb kl bl ko (fltClassified e s) := by
  unfold fltClassified
  with_reducible repeat' first
    | assumption
    | (refine mem_guard ?_; with_unfolding_all (first | assumption | exact (by assumption : ∀ n, n ∈ bl) _ | exact blk_n (by decide) (by decide) (by assumption) | exact blk_un (by decide) (by decide) (by decide) (by assumption) | exact blk_ite (by assumption) (by assumption) | exact blk_ite (by exact blk_n (by decide) (by decide) (by assumption)) (by exact blk_n (by decide) (by decide) (by assumption))))
    | (intro sx; refine (have hsx : Kept kb kl bl ko sx := ?_; ?_); on_goal 2 => (try clear_value sx))
    | intro sx
    | lift_lets
    | apply kept_st_inc
    | apply kept_fltSummary
    | apply kept_st_setFrec
    | apply kept_st_setBit
    | apply kept_fltStart
    | apply kept_ite
    | refine Kept.of_mk ?_
    | split

theorem kept_fltLatch {e : ErrEvent} {s : State} (h_s : Kept kb kl bl ko s) (h_p_regs : Part.regs ∈ kl := by assumption) (h_p_flt : Part.flt ∈ kl := by assumption) (h_b_FLT : blkFLT ∈ bl := by assumption) :
    Kept kb kl bl ko (fltLatch e s) := by
  unfold fltLatch
  with_reducible repeat' first
    | assumption
    | (intro sx; refine (have hsx : Kept kb kl bl ko sx := ?_; ?_); on_goal 2 => (try clear_value sx))
    | (intro sx; try clear_value sx)
    | lift_lets
    | apply kept_fltConsequential
    | apply kept_fltClassified
    | apply kept_ite
    | split
    | dsimp only [sx]
    | refine Kept.of_mk ?_

theorem kept_fltEvent {src : Nat} {unit : Nat} {s : State} (h_s : Kept kb kl bl ko s) (h_p_regs : Part.regs ∈ kl := by assumption) (h_p_flt : Part.flt ∈ kl := by assumption) (h_b_FLT : blkFLT ∈ bl := by assumption) :
    Kept kb kl bl ko (fltEvent src unit s) := by
  unfold fltEvent
  with_reducible repeat' first
    | assumption
    | apply kept_fltLatch
    | refine Kept.of_mk ?_

theorem kept_fltSourceEvent {src : Nat} {s : State} (h_s : Kept kb kl bl ko s) (h_p_regs : Part.regs ∈ kl := by assumption) (h_p_free : Part.free ∈ kl := by assumption) (h_p_flt : Part.flt ∈ kl := by assumption) (h_b_FLT : blkFLT ∈ bl := by assumption) :
    Kept kb kl bl ko (fltSourceEvent src s) := by
  unfold fltSourceEvent
  with_reducible repeat' first
    | assumption
    | apply kept_fltEvent
    | apply kept_draw
    | refine Kept.of_mk ?_

theorem kept_fltAddrEvent {src : Nat} {unit : Nat} {addr : Nat} {s : State} (h_s : Kept kb kl bl ko s) (h_p_regs : Part.regs ∈ kl := by assumption) (h_p_flt : Part.flt ∈ kl := by assumption) (h_b_FLT : blkFLT ∈ bl := by assumption) :
    Kept kb kl bl ko (fltAddrEvent src unit addr s) := by
  unfold fltAddrEvent
  with_reducible repeat' first
    | assumption
    | apply kept_fltLatch
    | refine Kept.of_mk ?_

theorem kept_injTake {src : Nat} {idx : Nat} {s : State} (h_s : Kept kb kl bl ko s) (h_p_regs : Part.regs ∈ kl := by assumption) (h_b_FLT : blkFLT ∈ bl := by assumption) :
    Kept kb kl bl ko (injTake src idx s).2 := by
  unfold injTake
  with_reducible repeat' first
    | assumption
    | (refine mem_guard ?_; with_unfolding_all (first | assumption | exact (by assumption : ∀ n, n ∈ bl) _ | exact blk_n (by decide) (by decide) (by assumption) | exact blk_un (by decide) (by decide) (by decide) (by assumption) | exact blk_ite (by assumption) (by assumption) | exact blk_ite (by exact blk_n (by decide) (by decide) (by assumption)) (by exact blk_n (by decide) (by decide) (by assumption))))
    | apply kept_st_put
    | apply kept_ite
    | apply kept_ite1
    | apply kept_ite2
    | apply kept_ite21
    | apply kept_ite22
    | refine Kept.of_mk ?_
    | split

theorem kept_checkOne {src : Nat} {unit : Nat} {idx : Nat} {addr : Nat} {res : Resource} {w : Word} {f : BitVec 72} {s : State} (h_s : Kept kb kl bl ko s) (h_p_regs : Part.regs ∈ kl := by assumption) (h_p_flt : Part.flt ∈ kl := by assumption) (h_b_FLT : blkFLT ∈ bl := by assumption) :
    Kept kb kl bl ko (checkOne src unit idx addr res w f s).2.2 := by
  unfold checkOne
  with_reducible repeat' first
    | assumption
    | (refine kept_pair2 (by assumption) ?_)
    | (intro sx; refine (have hsx : Kept kb kl bl ko sx := ?_; ?_); on_goal 2 => (try clear_value sx))
    | (intro sx; refine (have hsx : Kept kb kl bl ko sx.2 := ?_; ?_); on_goal 2 => (try clear_value sx))
    | (intro sx; try clear_value sx)
    | lift_lets
    | apply kept_injTake
    | apply kept_fltLatch
    | split
    | dsimp only [sx]
    | refine Kept.of_mk ?_

theorem kept_reportBad {src : Nat} {unit : Nat} {cls : ErrClass} {kind : Fin 9} {addr : Nat} {res : Resource} {b : Byte × Bool} {s : State} (h_s : Kept kb kl bl ko s) (h_p_regs : Part.regs ∈ kl := by assumption) (h_p_flt : Part.flt ∈ kl := by assumption) (h_b_FLT : blkFLT ∈ bl := by assumption) :
    Kept kb kl bl ko (reportBad src unit cls kind addr res b s) := by
  unfold reportBad
  with_reducible repeat' first
    | assumption
    | apply kept_fltLatch
    | refine Kept.of_mk ?_

theorem kept_checkRun {src unit idx : Nat} {flips : Nat → BitVec 72} (l : List Word) {n : Nat} {s : State}
    (h_s : Kept kb kl bl ko s) (h_p_regs : Part.regs ∈ kl := by assumption) (h_p_flt : Part.flt ∈ kl := by assumption) (h_b_FLT : blkFLT ∈ bl := by assumption) : Kept kb kl bl ko (checkRun src unit idx flips l n s).2.2 := by
  induction l generalizing n s with
  | nil => exact h_s
  | cons w t ih => exact ih (kept_checkOne h_s)

theorem kept_checkPacket {src unit : Nat} {c : Checks} {l : Bytes} {s : State} (h_s : Kept kb kl bl ko s) (h_p_regs : Part.regs ∈ kl := by assumption) (h_p_flt : Part.flt ∈ kl := by assumption) (h_b_FLT : blkFLT ∈ bl := by assumption) : Kept kb kl bl ko (checkPacket src unit c l s).2.2 := by
  have h1 : Kept kb kl bl ko (checkRun src unit c.idx.toNat (flipAt c.flips) (packetWords l.length l) 0 s).2.2 := kept_checkRun _ h_s
  unfold checkPacket
  refine kept_ite22 h_s ?_
  dsimp only
  generalize checkRun src unit c.idx.toNat (flipAt c.flips) (packetWords l.length l) 0 s = r at *
  split
  · exact kept_reportBad h1
  · exact h1

theorem kept_readChecked {a : Nat} {s : State} (h_s : Kept kb kl bl ko s) (h_p_regs : Part.regs ∈ kl := by assumption) (h_p_ecc : Part.ecc ∈ kl := by assumption) (h_p_flt : Part.flt ∈ kl := by assumption) (h_b_FLT : blkFLT ∈ bl := by assumption) :
    Kept kb kl bl ko (readChecked a s).2.2 := by
  unfold readChecked
  with_reducible repeat' first
    | assumption
    | (refine kept_pair22 (by assumption) ?_)
    | (intro sx; refine (have hsx : Kept kb kl bl ko sx := ?_; ?_); on_goal 2 => (try clear_value sx))
    | (intro sx; refine (have hsx : Kept kb kl bl ko sx.2.2 := ?_; ?_); on_goal 2 => (try clear_value sx))
    | (intro sx; try clear_value sx)
    | lift_lets
    | apply kept_reportBad
    | apply kept_setEcc
    | apply kept_checkOne
    | apply kept_ite
    | apply kept_ite1
    | apply kept_ite2
    | apply kept_ite21
    | apply kept_ite22
    | split
    | dsimp only [sx]
    | refine Kept.of_mk ?_

theorem kept_showFree {dir : Nat} {s : State} (h_s : Kept kb kl bl ko s) (h_p_regs : Part.regs ∈ kl := by assumption) (h_b_CEL : blkCEL ∈ bl := by assumption) :
    Kept kb kl bl ko (showFree dir s) := by
  unfold showFree
  with_reducible repeat' first
    | assumption
    | (refine mem_guard ?_; with_unfolding_all (first | assumption | exact (by assumption : ∀ n, n ∈ bl) _ | exact blk_n (by decide) (by decide) (by assumption) | exact blk_un (by decide) (by decide) (by decide) (by assumption) | exact blk_freeReg (by assumption)))
    | apply kept_setReg
    | refine Kept.of_mk ?_

theorem kept_takePool {dir : Nat} {p : Nat} {n : Nat} {s : State} (h_s : Kept kb kl bl ko s) (h_p_regs : Part.regs ∈ kl := by assumption) (h_p_cel : Part.cel ∈ kl := by assumption) (h_b_CEL : blkCEL ∈ bl := by assumption) :
    Kept kb kl bl ko (takePool dir p n s) := by
  unfold takePool
  with_reducible repeat' first
    | assumption
    | apply kept_showFree
    | apply kept_st_setPoolUsed
    | refine Kept.of_mk ?_

theorem kept_givePool {dir : Nat} {p : Nat} {n : Nat} {s : State} (h_s : Kept kb kl bl ko s) (h_p_regs : Part.regs ∈ kl := by assumption) (h_p_cel : Part.cel ∈ kl := by assumption) (h_b_CEL : blkCEL ∈ bl := by assumption) :
    Kept kb kl bl ko (givePool dir p n s) := by
  unfold givePool
  with_reducible repeat' first
    | assumption
    | apply kept_showFree
    | apply kept_st_setPoolUsed
    | refine Kept.of_mk ?_

theorem kept_freeCells {key : Nat} {l : List Loc} {s : State} (h_s : Kept kb kl bl ko s) (h_p_regs : Part.regs ∈ kl := by assumption) (h_p_cel : Part.cel ∈ kl := by assumption) (h_b_CEL : blkCEL ∈ bl := by assumption) :
    Kept kb kl bl ko (freeCells key l s) := by
  unfold freeCells
  with_reducible repeat' first
    | assumption
    | (intro sx; refine (have hsx : Kept kb kl bl ko sx := ?_; ?_); on_goal 2 => (try clear_value sx))
    | (intro sx; try clear_value sx)
    | lift_lets
    | apply kept_st_setLq
    | apply kept_givePool
    | refine Kept.of_mk ?_

theorem kept_showPages {s : State} (h_s : Kept kb kl bl ko s) (h_p_regs : Part.regs ∈ kl := by assumption) (h_b_CEL : blkCEL ∈ bl := by assumption) :
    Kept kb kl bl ko (showPages s) := by
  unfold showPages
  with_reducible repeat' first
    | assumption
    | (refine mem_guard ?_; with_unfolding_all (first | assumption | exact (by assumption : ∀ n, n ∈ bl) _ | exact blk_n (by decide) (by decide) (by assumption) | exact blk_un (by decide) (by decide) (by decide) (by assumption)))
    | apply kept_st_wr
    | refine Kept.of_mk ?_

theorem kept_takePage {s : State} (h_s : Kept kb kl bl ko s) (h_p_regs : Part.regs ∈ kl := by assumption) (h_p_cel : Part.cel ∈ kl := by assumption) (h_b_CEL : blkCEL ∈ bl := by assumption) :
    KeptO kb kl bl ko Prod.snd (takePage s) := by
  unfold takePage
  with_reducible repeat' first
    | assumption
    | apply kept_showPages
    | split
    | refine Kept.of_mk ?_
    | apply kept_none
    | apply kept_some
    | apply kept_some2
    | apply kept_oite
    | (apply kept_omap; intro xo)

theorem kept_givePage {p : Nat} {s : State} (h_s : Kept kb kl bl ko s) (h_p_regs : Part.regs ∈ kl := by assumption) (h_p_cel : Part.cel ∈ kl := by assumption) (h_b_CEL : blkCEL ∈ bl := by assumption) :
    Kept kb kl bl ko (givePage p s) := by
  unfold givePage
  with_reducible repeat' first
    | assumption
    | (intro sx; refine (have hsx : Kept kb kl bl ko sx := ?_; ?_); on_goal 2 => (try clear_value sx))
    | (intro sx; try clear_value sx)
    | lift_lets
    | apply kept_showPages
    | apply kept_ite
    | refine Kept.of_mk ?_
    | split

theorem kept_startSpill {key : Nat} {s : State} (h_s : Kept kb kl bl ko s) (h_p_cel : Part.cel ∈ kl := by assumption) :
    Kept kb kl bl ko (startSpill key s) := by
  unfold startSpill
  with_reducible repeat' first
    | assumption
    | (intro sx; refine (have hsx : Kept kb kl bl ko sx := ?_; ?_); on_goal 2 => (try clear_value sx))
    | (intro sx; try clear_value sx)
    | lift_lets
    | apply kept_st_setLq
    | refine Kept.of_mk ?_

theorem kept_holdEff {ch : Nat} {num : Nat} {e : Eff} {s : State} (h_s : Kept kb kl bl ko s) (h_p_pipes : Part.pipes ∈ kl := by assumption) :
    Kept kb kl bl ko (holdEff ch num e s) := by
  unfold holdEff
  with_reducible repeat' first
    | assumption
    | (intro sx; refine (have hsx : Kept kb kl bl ko sx := ?_; ?_); on_goal 2 => (try clear_value sx))
    | intro sx
    | lift_lets
    | apply kept_st_setPipe
    | split
    | dsimp only [sx]
    | refine Kept.of_mk ?_

theorem kept_countFor {spec : Option (Nat × Nat)} {r : RF} {s : State} (h_s : Kept kb kl bl ko s) (h_p_regs : Part.regs ∈ kl := by assumption) (h_p_pipes : Part.pipes ∈ kl := by assumption) (h_b0 : blkOf r.addr ∈ bl := by with_unfolding_all (first | assumption | exact (by assumption : ∀ n, n ∈ bl) _ | exact blk_n (by decide) (by decide) (by assumption) | exact blk_un (by decide) (by decide) (by decide) (by assumption))) :
    Kept kb kl bl ko (countFor spec r s) := by
  unfold countFor
  with_reducible repeat' first
    | assumption
    | (refine mem_guard ?_; with_unfolding_all (first | assumption | exact (by assumption : ∀ n, n ∈ bl) _ | exact blk_n (by decide) (by decide) (by assumption) | exact blk_un (by decide) (by decide) (by decide) (by assumption)))
    | apply kept_st_inc
    | apply kept_holdEff
    | split
    | refine Kept.of_mk ?_

theorem kept_admitCells {key n : Nat} {p : QPkt} {s : State} (h_s : Kept kb kl bl ko s) (h_p_regs : Part.regs ∈ kl := by assumption) (h_p_cel : Part.cel ∈ kl := by assumption) (h_p_pipes : Part.pipes ∈ kl := by assumption) (h_b_CEL : blkCEL ∈ bl := by assumption) : Kept kb kl bl ko (admitCells key n p s).1 := by
  unfold admitCells
  dsimp only
  split
  · exact kept_countFor h_s (h_b0 := blk_celCnt h_b_CEL)
  · exact kept_countFor h_s (h_b0 := blk_celCnt h_b_CEL)
  · exact kept_countFor h_s (h_b0 := blk_celCnt h_b_CEL)
  · have h1 : ∀ (l : Loc) v, Kept kb kl bl ko ((takePool (dirOf key) (l.pool.getD 0) n s).setLq key v) :=
      fun l v => kept_st_setLq (kept_takePool h_s)
    exact kept_ite (kept_startSpill (h1 _ _)) (h1 _ _)

theorem kept_joinTail {key : Nat} {s : State} (h_s : Kept kb kl bl ko s) (h_p_cel : Part.cel ∈ kl := by assumption) :
    Kept kb kl bl ko (joinTail key s) := by
  unfold joinTail
  with_reducible repeat' first
    | assumption
    | (intro sx; refine (have hsx : Kept kb kl bl ko sx := ?_; ?_); on_goal 2 => (try clear_value sx))
    | (intro sx; try clear_value sx)
    | lift_lets
    | apply kept_st_setLq
    | apply kept_ite
    | refine Kept.of_mk ?_
    | split

theorem kept_joinIfDry {key : Nat} {s : State} (h_s : Kept kb kl bl ko s) (h_p_cel : Part.cel ∈ kl := by assumption) :
    Kept kb kl bl ko (joinIfDry key s) := by
  unfold joinIfDry
  with_reducible repeat' first
    | assumption
    | (intro sx; refine (have hsx : Kept kb kl bl ko sx := ?_; ?_); on_goal 2 => (try clear_value sx))
    | (intro sx; try clear_value sx)
    | lift_lets
    | apply kept_joinTail
    | apply kept_ite
    | refine Kept.of_mk ?_
    | split

theorem kept_hbmAsk {cls : Nat} {no : Nat} {s : State} (h_s : Kept kb kl bl ko s) (h_p_cel : Part.cel ∈ kl := by assumption) :
    Kept kb kl bl ko (hbmAsk cls no s) := by
  unfold hbmAsk
  with_reducible repeat' first
    | assumption
    | refine Kept.of_mk ?_

theorem kept_hbmServed {no : Nat} {s : State} (h_s : Kept kb kl bl ko s) (h_p_cel : Part.cel ∈ kl := by assumption) :
    Kept kb kl bl ko (hbmServed no s) := by
  unfold hbmServed
  with_reducible repeat' first
    | assumption
    | refine Kept.of_mk ?_

theorem kept_pageCheck {no : Nat} (l : List (Nat × BitVec 72)) {s : State} (h_s : Kept kb kl bl ko s) (h_p_regs : Part.regs ∈ kl := by assumption) (h_p_flt : Part.flt ∈ kl := by assumption) (h_b_FLT : blkFLT ∈ bl := by assumption) : Kept kb kl bl ko (pageCheck no l s).2 := by
  induction l generalizing s with
  | nil => exact h_s
  | cons e t ih =>
    unfold pageCheck
    dsimp only
    have h1 : ∀ a, Kept kb kl bl ko (checkOne blkCEL (pageStack no) 0 a (.hbmRow (BitVec.ofNat 48 a)) 0 e.2 s).2.2 := fun _ => kept_checkOne h_s
    refine ih ?_
    split
    · exact kept_reportBad (h1 _)
    · exact h1 _

theorem kept_pageClean {no : Nat} {s : State} (h_s : Kept kb kl bl ko s) (h_p_ecc : Part.ecc ∈ kl := by assumption) : Kept kb kl bl ko (pageClean no s) :=
  ⟨fun b => ⟨(h_s.1 b).1, (h_s.1 b).2.1, (h_s.1 b).2.2.1, (h_s.1 b).2.2.2.1, SMap.wfFrom_filter _ _ (h_s.1 b).2.2.2.2⟩, h_s.2.1.ecc h_p_ecc, h_s.2.2⟩

theorem kept_spillWrite {key : Nat} {s : State} (h_s : Kept kb kl bl ko s) (h_p_regs : Part.regs ∈ kl := by assumption) (h_p_ecc : Part.ecc ∈ kl := by assumption) (h_p_cel : Part.cel ∈ kl := by assumption) (h_b_CEL : blkCEL ∈ bl := by assumption) : Kept kb kl bl ko (spillWrite key s) := by
  have h1 : KeptO kb kl bl ko Prod.snd (takePage s) := kept_takePage h_s
  unfold spillWrite
  dsimp only
  refine kept_ite ?_ h_s
  split
  · exact h_s
  · exact kept_hbmAsk (kept_pageClean (kept_st_setLq (kept_ouse2 (by assumption) h1)))

theorem kept_spillWriteDone {key : Nat} {no : Nat} {s : State} (h_s : Kept kb kl bl ko s) (h_p_regs : Part.regs ∈ kl := by assumption) (h_p_cel : Part.cel ∈ kl := by assumption) (h_b_CEL : blkCEL ∈ bl := by assumption) :
    Kept kb kl bl ko (spillWriteDone key no s) := by
  unfold spillWriteDone
  with_reducible repeat' first
    | assumption
    | (intro sx; refine (have hsx : Kept kb kl bl ko sx := ?_; ?_); on_goal 2 => (try clear_value sx))
    | (intro sx; try clear_value sx)
    | lift_lets
    | apply kept_st_setLq
    | apply kept_givePage
    | apply kept_givePool
    | apply kept_hbmServed
    | apply kept_ite
    | split
    | dsimp only [sx]
    | refine Kept.of_mk ?_

theorem kept_returnRead {key : Nat} {s : State} (h_s : Kept kb kl bl ko s) (h_p_regs : Part.regs ∈ kl := by assumption) (h_p_cel : Part.cel ∈ kl := by assumption) (h_b_CEL : blkCEL ∈ bl := by assumption) :
    Kept kb kl bl ko (returnRead key s) := by
  unfold returnRead
  with_reducible repeat' first
    | assumption
    | (intro sx; refine (have hsx : Kept kb kl bl ko sx := ?_; ?_); on_goal 2 => (try clear_value sx))
    | (intro sx; try clear_value sx)
    | lift_lets
    | apply kept_hbmAsk
    | apply kept_st_setLq
    | apply kept_takePool
    | apply kept_ite
    | split
    | dsimp only [sx]
    | refine Kept.of_mk ?_

theorem kept_loseCellar {key : Nat} {s : State} (h_s : Kept kb kl bl ko s) (h_p_regs : Part.regs ∈ kl := by assumption) (h_p_cel : Part.cel ∈ kl := by assumption) (h_b_CEL : blkCEL ∈ bl := by assumption) :
    Kept kb kl bl ko (loseCellar key s) := by
  unfold loseCellar
  with_reducible repeat' first
    | assumption
    | (refine mem_guard ?_; with_unfolding_all (first | assumption | exact (by assumption : ∀ n, n ∈ bl) _ | exact blk_n (by decide) (by decide) (by assumption) | exact blk_un (by decide) (by decide) (by decide) (by assumption)))
    | (intro sx; refine (have hsx : Kept kb kl bl ko sx := ?_; ?_); on_goal 2 => (try clear_value sx))
    | (intro sx; try clear_value sx)
    | lift_lets
    | apply kept_st_put
    | apply kept_st_setLq
    | apply kept_st_addTo
    | refine Kept.of_mk ?_

theorem kept_returnDone {key no : Nat} {flips : List (PageWord × BitVec 72)} {s : State} (h_s : Kept kb kl bl ko s) (h_p_regs : Part.regs ∈ kl := by assumption) (h_p_ecc : Part.ecc ∈ kl := by assumption) (h_p_flt : Part.flt ∈ kl := by assumption) (h_p_cel : Part.cel ∈ kl := by assumption) (h_b_FLT : blkFLT ∈ bl := by assumption) (h_b_CEL : blkCEL ∈ bl := by assumption) :
    Kept kb kl bl ko (returnDone key no flips s) := by
  unfold returnDone
  dsimp only
  refine kept_ite h_s (kept_ite (kept_givePool (kept_givePage (kept_hbmServed (Kept.of_mk h_s)))) ?_)
  split
  · have h1 : ∀ l v, Kept kb kl bl ko (givePage no ((pageClean no (pageCheck no l (hbmServed no s)).2).setLq key v)) :=
      fun l v => kept_givePage (kept_st_setLq (kept_pageClean (kept_pageCheck _ (kept_hbmServed h_s))))
    exact kept_joinTail (kept_ite (kept_loseCellar (h1 _ _)) (h1 _ _))
  · exact h_s

theorem kept_popHead {key : Nat} {s : State} (h_s : Kept kb kl bl ko s) (h_p_cel : Part.cel ∈ kl := by assumption) :
    Kept kb kl bl ko (popHead key s) := by
  unfold popHead
  with_reducible repeat' first
    | assumption
    | (intro sx; refine (have hsx : Kept kb kl bl ko sx := ?_; ?_); on_goal 2 => (try clear_value sx))
    | (intro sx; try clear_value sx)
    | lift_lets
    | apply kept_joinIfDry
    | apply kept_st_setLq
    | apply kept_ite
    | split
    | dsimp only [sx]
    | refine Kept.of_mk ?_

theorem kept_pushHead {key : Nat} {p : QPkt} {s : State} (h_s : Kept kb kl bl ko s) (h_p_cel : Part.cel ∈ kl := by assumption) :
    Kept kb kl bl ko (pushHead key p s) := by
  unfold pushHead
  with_reducible repeat' first
    | assumption
    | (intro sx; refine (have hsx : Kept kb kl bl ko sx := ?_; ?_); on_goal 2 => (try clear_value sx))
    | (intro sx; try clear_value sx)
    | lift_lets
    | apply kept_st_setLq
    | apply kept_ite
    | refine Kept.of_mk ?_
    | split

theorem kept_flushLeaf {keep : QPkt → Bool} {key : Nat} {s : State} (h_s : Kept kb kl bl ko s) (h_p_regs : Part.regs ∈ kl := by assumption) (h_p_cel : Part.cel ∈ kl := by assumption) (h_b_CEL : blkCEL ∈ bl := by assumption) :
    Kept kb kl bl ko (flushLeaf keep key s).1 := by
  unfold flushLeaf
  with_reducible repeat' first
    | assumption
    | (intro sx; refine (have hsx : Kept kb kl bl ko sx := ?_; ?_); on_goal 2 => (try clear_value sx))
    | (intro sx; try clear_value sx)
    | lift_lets
    | apply kept_freeCells
    | apply kept_st_setLq
    | apply kept_givePage
    | apply kept_ite
    | apply kept_ite1
    | apply kept_ite2
    | apply kept_ite21
    | apply kept_ite22
    | (apply kept_foldl; intro sy xy hy)
    | (apply kept_foldl2; intro sy xy hy)
    | (apply kept_foldl1; intro sy xy hy)
    | refine Kept.of_mk ?_
    | split

theorem kept_showGates {p : Nat} {s : State} (h_s : Kept kb kl bl ko s) (h_p_regs : Part.regs ∈ kl := by assumption) (h_b_GCL : blkGCL ∈ bl := by assumption) :
    Kept kb kl bl ko (showGates p s) := by
  unfold showGates
  with_reducible repeat' first
    | assumption
    | (refine mem_guard ?_; with_unfolding_all (first | assumption | exact (by assumption : ∀ n, n ∈ bl) _ | exact blk_n (by decide) (by decide) (by assumption) | exact blk_un (by decide) (by decide) (by decide) (by assumption) | exact blk_ite (by assumption) (by assumption) | exact blk_ite (by exact blk_n (by decide) (by decide) (by assumption)) (by exact blk_n (by decide) (by decide) (by assumption))))
    | (intro sx; refine (have hsx : Kept kb kl bl ko sx := ?_; ?_); on_goal 2 => (try clear_value sx))
    | (intro sx; try clear_value sx)
    | lift_lets
    | apply kept_st_put
    | apply kept_st_wr
    | apply kept_ite
    | refine Kept.of_mk ?_
    | split

theorem kept_showCct {p : Nat} {t : Tod} {s : State} (h_s : Kept kb kl bl ko s) (h_p_regs : Part.regs ∈ kl := by assumption) (h_b_GCL : blkGCL ∈ bl := by assumption) :
    Kept kb kl bl ko (showCct p t s) := by
  unfold showCct
  with_reducible repeat' first
    | assumption
    | (refine mem_guard ?_; with_unfolding_all (first | assumption | exact (by assumption : ∀ n, n ∈ bl) _ | exact blk_n (by decide) (by decide) (by assumption) | exact blk_un (by decide) (by decide) (by decide) (by assumption)))
    | apply kept_st_wr
    | refine Kept.of_mk ?_

theorem kept_gclRequest {p : Nat} {s : State} (h_s : Kept kb kl bl ko s) (h_p_regs : Part.regs ∈ kl := by assumption) (h_p_gcl : Part.gcl ∈ kl := by assumption) (h_b_GCL : blkGCL ∈ bl := by assumption) :
    Kept kb kl bl ko (gclRequest p s) := by
  unfold gclRequest
  with_reducible repeat' first
    | assumption
    | (refine mem_guard ?_; with_unfolding_all (first | assumption | exact (by assumption : ∀ n, n ∈ bl) _ | exact blk_n (by decide) (by decide) (by assumption) | exact blk_un (by decide) (by decide) (by decide) (by assumption) | exact blk_ite (by assumption) (by assumption) | exact blk_ite (by exact blk_n (by decide) (by decide) (by assumption)) (by exact blk_n (by decide) (by decide) (by assumption))))
    | (intro sx; refine (have hsx : Kept kb kl bl ko sx := ?_; ?_); on_goal 2 => (try clear_value sx))
    | (intro sx; try clear_value sx)
    | lift_lets
    | apply kept_st_setGclPort
    | apply kept_st_put
    | apply kept_showCct
    | apply kept_showGates
    | apply kept_ite
    | refine Kept.of_mk ?_
    | split

theorem kept_gclCancel {p : Nat} {s : State} (h_s : Kept kb kl bl ko s) (h_p_regs : Part.regs ∈ kl := by assumption) (h_p_gcl : Part.gcl ∈ kl := by assumption) (h_b_GCL : blkGCL ∈ bl := by assumption) :
    Kept kb kl bl ko (gclCancel p s) := by
  unfold gclCancel
  with_reducible repeat' first
    | assumption
    | apply kept_st_setGclPort
    | apply kept_showGates
    | refine Kept.of_mk ?_

theorem kept_gclSwapped {p : Nat} {s : State} (h_s : Kept kb kl bl ko s) (h_p_regs : Part.regs ∈ kl := by assumption) (h_p_gcl : Part.gcl ∈ kl := by assumption) (h_b_GCL : blkGCL ∈ bl := by assumption) :
    Kept kb kl bl ko (gclSwapped p s) := by
  unfold gclSwapped
  with_reducible repeat' first
    | assumption
    | (refine mem_guard ?_; with_unfolding_all (first | assumption | exact (by assumption : ∀ n, n ∈ bl) _ | exact blk_n (by decide) (by decide) (by assumption) | exact blk_un (by decide) (by decide) (by decide) (by assumption)))
    | (intro sx; refine (have hsx : Kept kb kl bl ko sx := ?_; ?_); on_goal 2 => (try clear_value sx))
    | (intro sx; try clear_value sx)
    | lift_lets
    | apply kept_st_setGclPort
    | apply kept_st_put
    | apply kept_showGates
    | refine Kept.of_mk ?_

theorem kept_gclStep {p : Nat} {s : State} (h_s : Kept kb kl bl ko s) (h_p_regs : Part.regs ∈ kl := by assumption) (h_p_gcl : Part.gcl ∈ kl := by assumption) (h_b_GCL : blkGCL ∈ bl := by assumption) :
    Kept kb kl bl ko (gclStep p s) := by
  unfold gclStep
  with_reducible repeat' first
    | assumption
    | (refine mem_guard ?_; with_unfolding_all (first | assumption | exact (by assumption : ∀ n, n ∈ bl) _ | exact blk_n (by decide) (by decide) (by assumption) | exact blk_un (by decide) (by decide) (by decide) (by assumption) | exact blk_ite (by assumption) (by assumption) | exact blk_ite (by exact blk_n (by decide) (by decide) (by assumption)) (by exact blk_n (by decide) (by decide) (by assumption))))
    | (intro sx; refine (have hsx : Kept kb kl bl ko sx := ?_; ?_); on_goal 2 => (try clear_value sx))
    | (intro sx; try clear_value sx)
    | lift_lets
    | apply kept_st_setGclPort
    | apply kept_st_put
    | apply kept_showGates
    | apply kept_ite
    | split
    | dsimp only [sx]
    | refine Kept.of_mk ?_

theorem kept_gateEntryStart {p : Nat} {s : State} (h_s : Kept kb kl bl ko s) (h_p_regs : Part.regs ∈ kl := by assumption) (h_p_gcl : Part.gcl ∈ kl := by assumption) (h_b_GCL : blkGCL ∈ bl := by assumption) :
    Kept kb kl bl ko (gateEntryStart p s) := by
  unfold gateEntryStart
  with_reducible repeat' first
    | assumption
    | (intro sx; refine (have hsx : Kept kb kl bl ko sx := ?_; ?_); on_goal 2 => (try clear_value sx))
    | (intro sx; try clear_value sx)
    | lift_lets
    | apply kept_st_setGclPort
    | apply kept_showGates
    | refine Kept.of_mk ?_

theorem kept_exchangeBanks {b : Nat} {s : State} (h_s : Kept kb kl bl ko s) (h_p_regs : Part.regs ∈ kl := by assumption) (h_p_shadow : Part.shadow ∈ kl := by assumption) (h_b0 : blkOf b ∈ bl := by with_unfolding_all (first | assumption | exact (by assumption : ∀ n, n ∈ bl) _ | exact blk_n (by decide) (by decide) (by assumption) | exact blk_un (by decide) (by decide) (by decide) (by assumption))) : Kept kb kl bl ko (exchangeBanks b s) := by
  unfold exchangeBanks
  refine kept_st_wr (kept_foldl_mem (fun t a ha ht => ?_) h_s)
  have h_a : blkOf a ∈ bl := by rw [blkOf_bankOf (mem_bankKeys ha)]; exact h_b0
  dsimp only
  split
  · exact ht
  · exact kept_setSh (kept_setReg ht)

theorem kept_swapBank {b : Nat} {s : State} (h_s : Kept kb kl bl ko s) (h_p_regs : Part.regs ∈ kl := by assumption) (h_p_shadow : Part.shadow ∈ kl := by assumption) (h_p_cfg : Part.cfg ∈ kl := by assumption) (h_p_gcl : Part.gcl ∈ kl := by assumption) (h_b_GCL : blkGCL ∈ bl := by assumption) (h_b0 : blkOf b ∈ bl := by with_unfolding_all (first | assumption | exact (by assumption : ∀ n, n ∈ bl) _ | exact blk_n (by decide) (by decide) (by assumption) | exact blk_un (by decide) (by decide) (by decide) (by assumption))) :
    Kept kb kl bl ko (swapBank b s) := by
  unfold swapBank
  with_reducible repeat' first
    | assumption
    | (refine mem_guard ?_; with_unfolding_all (first | assumption | exact (by assumption : ∀ n, n ∈ bl) _ | exact blk_n (by decide) (by decide) (by assumption) | exact blk_un (by decide) (by decide) (by decide) (by assumption) | exact blk_ite (by assumption) (by assumption) | exact blk_ite (by exact blk_n (by decide) (by decide) (by assumption)) (by exact blk_n (by decide) (by decide) (by assumption))))
    | (intro sx; refine (have hsx : Kept kb kl bl ko sx := ?_; ?_); on_goal 2 => (try clear_value sx))
    | (intro sx; try clear_value sx)
    | lift_lets
    | apply kept_gclSwapped
    | apply kept_exchangeBanks
    | apply kept_st_setBank
    | apply kept_ite
    | refine Kept.of_mk ?_
    | split

theorem kept_bankCopied {b : Nat} {s : State} (h_s : Kept kb kl bl ko s) (h_p_regs : Part.regs ∈ kl := by assumption) (h_p_shadow : Part.shadow ∈ kl := by assumption) (h_p_cfg : Part.cfg ∈ kl := by assumption) (h_b0 : blkOf b ∈ bl := by with_unfolding_all (first | assumption | exact (by assumption : ∀ n, n ∈ bl) _ | exact blk_n (by decide) (by decide) (by assumption) | exact blk_un (by decide) (by decide) (by decide) (by assumption))) :
    Kept kb kl bl ko (bankCopied b s) := by
  unfold bankCopied
  with_reducible repeat' first
    | assumption
    | (refine mem_guard ?_; with_unfolding_all (first | assumption | exact (by assumption : ∀ n, n ∈ bl) _ | exact blk_n (by decide) (by decide) (by assumption) | exact blk_un (by decide) (by decide) (by decide) (by assumption) | exact blk_ite (by assumption) (by assumption) | exact blk_ite (by exact blk_n (by decide) (by decide) (by assumption)) (by exact blk_n (by decide) (by decide) (by assumption))))
    | (intro sx; refine (have hsx : Kept kb kl bl ko sx := ?_; ?_); on_goal 2 => (try clear_value sx))
    | (intro sx; try clear_value sx)
    | lift_lets
    | apply kept_setSh
    | apply kept_st_put
    | apply kept_st_setBank
    | apply kept_ite
    | (apply kept_foldl; intro sy xy hy)
    | (apply kept_foldl2; intro sy xy hy)
    | (apply kept_foldl1; intro sy xy hy)
    | refine Kept.of_mk ?_
    | split

theorem kept_bankRequest {b : Nat} {s : State} (h_s : Kept kb kl bl ko s) (h_p_regs : Part.regs ∈ kl := by assumption) (h_p_cfg : Part.cfg ∈ kl := by assumption) (h_p_sch : Part.sch ∈ kl := by assumption) (h_p_gcl : Part.gcl ∈ kl := by assumption) (h_b_GCL : blkGCL ∈ bl := by assumption) (h_b0 : blkOf b ∈ bl := by with_unfolding_all (first | assumption | exact (by assumption : ∀ n, n ∈ bl) _ | exact blk_n (by decide) (by decide) (by assumption) | exact blk_un (by decide) (by decide) (by decide) (by assumption))) :
    Kept kb kl bl ko (bankRequest b s) := by
  unfold bankRequest
  with_reducible repeat' first
    | assumption
    | (refine mem_guard ?_; with_unfolding_all (first | assumption | exact (by assumption : ∀ n, n ∈ bl) _ | exact blk_n (by decide) (by decide) (by assumption) | exact blk_un (by decide) (by decide) (by decide) (by assumption) | exact blk_ite (by assumption) (by assumption) | exact blk_ite (by exact blk_n (by decide) (by decide) (by assumption)) (by exact blk_n (by decide) (by decide) (by assumption))))
    | (intro sx; refine (have hsx : Kept kb kl bl ko sx := ?_; ?_); on_goal 2 => (try clear_value sx))
    | (intro sx; try clear_value sx)
    | lift_lets
    | apply kept_st_put
    | apply kept_gclRequest
    | apply kept_st_setBank
    | apply kept_ite
    | refine Kept.of_mk ?_
    | split

theorem kept_bankWithdraw {b : Nat} {s : State} (h_s : Kept kb kl bl ko s) (h_p_regs : Part.regs ∈ kl := by assumption) (h_p_cfg : Part.cfg ∈ kl := by assumption) (h_p_gcl : Part.gcl ∈ kl := by assumption) (h_b_GCL : blkGCL ∈ bl := by assumption) (h_b0 : blkOf b ∈ bl := by with_unfolding_all (first | assumption | exact (by assumption : ∀ n, n ∈ bl) _ | exact blk_n (by decide) (by decide) (by assumption) | exact blk_un (by decide) (by decide) (by decide) (by assumption))) :
    Kept kb kl bl ko (bankWithdraw b s) := by
  unfold bankWithdraw
  with_reducible repeat' first
    | assumption
    | (refine mem_guard ?_; with_unfolding_all (first | assumption | exact (by assumption : ∀ n, n ∈ bl) _ | exact blk_n (by decide) (by decide) (by assumption) | exact blk_un (by decide) (by decide) (by decide) (by assumption) | exact blk_ite (by assumption) (by assumption) | exact blk_ite (by exact blk_n (by decide) (by decide) (by assumption)) (by exact blk_n (by decide) (by decide) (by assumption))))
    | (intro sx; refine (have hsx : Kept kb kl bl ko sx := ?_; ?_); on_goal 2 => (try clear_value sx))
    | (intro sx; try clear_value sx)
    | lift_lets
    | apply kept_st_put
    | apply kept_st_setBank
    | apply kept_gclCancel
    | apply kept_ite
    | refine Kept.of_mk ?_
    | split

theorem kept_bankWrite {b : Nat} {v : Word} {s : State} (h_s : Kept kb kl bl ko s) (h_p_regs : Part.regs ∈ kl := by assumption) (h_p_cfg : Part.cfg ∈ kl := by assumption) (h_p_sch : Part.sch ∈ kl := by assumption) (h_p_gcl : Part.gcl ∈ kl := by assumption) (h_b_GCL : blkGCL ∈ bl := by assumption) (h_b0 : blkOf b ∈ bl := by with_unfolding_all (first | assumption | exact (by assumption : ∀ n, n ∈ bl) _ | exact blk_n (by decide) (by decide) (by assumption) | exact blk_un (by decide) (by decide) (by decide) (by assumption))) :
    Kept kb kl bl ko (bankWrite b v s) := by
  unfold bankWrite
  with_reducible repeat' first
    | assumption
    | (refine mem_guard ?_; with_unfolding_all (first | assumption | exact (by assumption : ∀ n, n ∈ bl) _ | exact blk_n (by decide) (by decide) (by assumption) | exact blk_un (by decide) (by decide) (by decide) (by assumption) | exact blk_ite (by assumption) (by assumption) | exact blk_ite (by exact blk_n (by decide) (by decide) (by assumption)) (by exact blk_n (by decide) (by decide) (by assumption))))
    | (intro sx; refine (have hsx : Kept kb kl bl ko sx := ?_; ?_); on_goal 2 => (try clear_value sx))
    | (intro sx; try clear_value sx)
    | lift_lets
    | apply kept_st_put
    | apply kept_bankRequest
    | apply kept_bankWithdraw
    | apply kept_st_wr
    | apply kept_ite
    | refine Kept.of_mk ?_
    | split

theorem kept_refillLevel {dir : Nat} {lev : Nat} {s : State} (h_s : Kept kb kl bl ko s) (h_p_sch : Part.sch ∈ kl := by assumption) :
    Kept kb kl bl ko (refillLevel dir lev s) := by
  unfold refillLevel
  with_reducible repeat' first
    | assumption
    | (intro sx; refine (have hsx : Kept kb kl bl ko sx := ?_; ?_); on_goal 2 => (try clear_value sx))
    | intro sx
    | lift_lets
    | apply kept_ite
    | split
    | dsimp only [sx]
    | refine Kept.of_mk ?_

theorem kept_leafTouch {key : Nat} {s : State} (h_s : Kept kb kl bl ko s) (h_p_sch : Part.sch ∈ kl := by assumption) :
    Kept kb kl bl ko (leafTouch key s) := by
  unfold leafTouch
  with_reducible repeat' first
    | assumption
    | (intro sx; refine (have hsx : Kept kb kl bl ko sx := ?_; ?_); on_goal 2 => (try clear_value sx))
    | (intro sx; try clear_value sx)
    | lift_lets
    | apply kept_st_setLeafObj
    | apply kept_st_setSvc
    | apply kept_ite
    | refine Kept.of_mk ?_
    | split

theorem kept_advanceTags {n : Nat} {key : Nat} {amount : Int} {s : State} (h_s : Kept kb kl bl ko s) (h_p_sch : Part.sch ∈ kl := by assumption) :
    Kept kb kl bl ko (advanceTags n key amount s) := by
  unfold advanceTags
  with_reducible repeat' first
    | assumption
    | (intro sx; refine (have hsx : Kept kb kl bl ko sx := ?_; ?_); on_goal 2 => (try clear_value sx))
    | (intro sx; try clear_value sx)
    | lift_lets
    | apply kept_st_setPortObj
    | apply kept_st_setLeafObj
    | apply kept_st_setSvc
    | apply kept_ite
    | refine Kept.of_mk ?_
    | split

theorem kept_onCharge {f : SchObj → Bool → SchObj} {c : Charge} {s : State} (h_s : Kept kb kl bl ko s) (h_p_sch : Part.sch ∈ kl := by assumption) :
    Kept kb kl bl ko (onCharge f c s) := by
  unfold onCharge
  with_reducible repeat' first
    | assumption
    | (intro sx; refine (have hsx : Kept kb kl bl ko sx := ?_; ?_); on_goal 2 => (try clear_value sx))
    | (intro sx; try clear_value sx)
    | lift_lets
    | apply kept_st_setPortObj
    | apply kept_st_setLeafObj
    | apply kept_st_setSvc
    | refine Kept.of_mk ?_

theorem kept_chargeNow {c : Charge} {s : State} (h_s : Kept kb kl bl ko s) (h_p_sch : Part.sch ∈ kl := by assumption) :
    Kept kb kl bl ko (chargeNow c s) := by
  unfold chargeNow
  with_reducible repeat' first
    | assumption
    | apply kept_onCharge
    | refine Kept.of_mk ?_

theorem kept_chargePend {c : Charge} {amount : Int} {s : State} (h_s : Kept kb kl bl ko s) (h_p_sch : Part.sch ∈ kl := by assumption) :
    Kept kb kl bl ko (chargePend c amount s) := by
  unfold chargePend
  with_reducible repeat' first
    | assumption
    | apply kept_onCharge
    | refine Kept.of_mk ?_

theorem kept_chargeDepart {c : Charge} {s : State} (h_s : Kept kb kl bl ko s) (h_p_sch : Part.sch ∈ kl := by assumption) :
    Kept kb kl bl ko (chargeDepart c s) := by
  unfold chargeDepart
  with_reducible repeat' first
    | assumption
    | apply kept_onCharge
    | refine Kept.of_mk ?_

theorem kept_enqueue {key : Nat} {n : Nat} {p : QPkt} {s : State} (h_s : Kept kb kl bl ko s) (h_p_regs : Part.regs ∈ kl := by assumption) (h_p_cel : Part.cel ∈ kl := by assumption) (h_p_sch : Part.sch ∈ kl := by assumption) (h_p_pipes : Part.pipes ∈ kl := by assumption) (h_b_CEL : blkCEL ∈ bl := by assumption) (h_b_SCH : blkSCH ∈ bl := by assumption) :
    Kept kb kl bl ko (enqueue key n p s).1 := by
  unfold enqueue
  with_reducible repeat' first
    | assumption
    | (refine mem_guard ?_; with_unfolding_all (first | assumption | exact (by assumption : ∀ n, n ∈ bl) _ | exact blk_n (by decide) (by decide) (by assumption) | exact blk_un (by decide) (by decide) (by decide) (by assumption) | exact blk_ite (by assumption) (by assumption) | exact blk_ite (by exact blk_n (by decide) (by decide) (by assumption)) (by exact blk_n (by decide) (by decide) (by assumption))))
    | (intro sx; refine (have hsx : Kept kb kl bl ko sx := ?_; ?_); on_goal 2 => (try clear_value sx))
    | (intro sx; refine (have hsx : Kept kb kl bl ko sx.1 := ?_; ?_); on_goal 2 => (try clear_value sx))
    | (intro sx; try clear_value sx)
    | lift_lets
    | apply kept_leafTouch
    | apply kept_countFor
    | apply kept_admitCells
    | apply kept_ite
    | apply kept_ite1
    | apply kept_ite2
    | apply kept_ite21
    | apply kept_ite22
    | refine Kept.of_mk ?_
    | split

theorem kept_debitPolicer {n : Nat} {c : Nat} {q : Nat} {red : Bool} {s : State} (h_s : Kept kb kl bl ko s) (h_p_sch : Part.sch ∈ kl := by assumption) :
    Kept kb kl bl ko (debitPolicer n c q red s) := by
  unfold debitPolicer
  with_reducible repeat' first
    | assumption
    | apply kept_st_setPolicer
    | refine Kept.of_mk ?_

theorem kept_putSchData {d0 : Nat} {d1 : Nat} {d2 : Nat} {d3 : Nat} {s : State} (h_s : Kept kb kl bl ko s) (h_p_regs : Part.regs ∈ kl := by assumption) (h_b_SCH : blkSCH ∈ bl := by assumption) :
    Kept kb kl bl ko (putSchData d0 d1 d2 d3 s) := by
  unfold putSchData
  with_reducible repeat' first
    | assumption
    | (refine mem_guard ?_; with_unfolding_all (first | assumption | exact (by assumption : ∀ n, n ∈ bl) _ | exact blk_n (by decide) (by decide) (by assumption) | exact blk_un (by decide) (by decide) (by decide) (by assumption)))
    | apply kept_setReg
    | refine Kept.of_mk ?_

theorem kept_showObj {o : SchObj} {child : Bool} {svc : Bool} {s : State} (h_s : Kept kb kl bl ko s) (h_p_regs : Part.regs ∈ kl := by assumption) (h_b_SCH : blkSCH ∈ bl := by assumption) :
    Kept kb kl bl ko (showObj o child svc s) := by
  unfold showObj
  with_reducible repeat' first
    | assumption
    | (intro sx; refine (have hsx : Kept kb kl bl ko sx := ?_; ?_); on_goal 2 => (try clear_value sx))
    | (intro sx; try clear_value sx)
    | lift_lets
    | apply kept_putSchData
    | apply kept_ite
    | refine Kept.of_mk ?_
    | split

theorem kept_devRead {a : Nat} {s : State} (h_s : Kept kb kl bl ko s) (h_p_regs : Part.regs ∈ kl := by assumption) (h_p_ecc : Part.ecc ∈ kl := by assumption) (h_p_free : Part.free ∈ kl := by assumption) (h_p_flt : Part.flt ∈ kl := by assumption) (h_b_FLT : blkFLT ∈ bl := by assumption) :
    Kept kb kl bl ko (devRead a s).2 := by
  unfold devRead
  with_reducible repeat' first
    | assumption
    | apply kept_readChecked
    | apply kept_fltAddrEvent
    | apply kept_draw
    | apply kept_ite
    | apply kept_ite1
    | apply kept_ite2
    | apply kept_ite21
    | apply kept_ite22
    | refine Kept.of_mk ?_
    | split

theorem kept_devWrite {a : Nat} {b : Bytes} {s : State} (h_s : Kept kb kl bl ko s) (h_p_regs : Part.regs ∈ kl := by assumption) (h_p_mem : Part.mem ∈ kl := by assumption) (h_p_ecc : Part.ecc ∈ kl := by assumption) (h_p_flt : Part.flt ∈ kl := by assumption) (h_b_FLT : blkFLT ∈ bl := by assumption) :
    Kept kb kl bl ko (devWrite a b s) := by
  unfold devWrite
  with_reducible repeat' first
    | assumption
    | apply kept_setBytes
    | apply kept_fltAddrEvent
    | apply kept_ite
    | refine Kept.of_mk ?_
    | split

theorem kept_counterWord {a : Nat} {s : State} (h_s : Kept kb kl bl ko s) (h_p_regs : Part.regs ∈ kl := by assumption) (h_p_mem : Part.mem ∈ kl := by assumption) (h_p_ecc : Part.ecc ∈ kl := by assumption) (h_p_free : Part.free ∈ kl := by assumption) (h_p_flt : Part.flt ∈ kl := by assumption) (h_b_FLT : blkFLT ∈ bl := by assumption) :
    Kept kb kl bl ko (counterWord a s).2 := by
  unfold counterWord
  with_reducible repeat' first
    | assumption
    | (intro sx; refine (have hsx : Kept kb kl bl ko sx := ?_; ?_); on_goal 2 => (try clear_value sx))
    | (intro sx; refine (have hsx : Kept kb kl bl ko sx.2 := ?_; ?_); on_goal 2 => (try clear_value sx))
    | (intro sx; refine (have hsx : Kept kb kl bl ko sx.2.2 := ?_; ?_); on_goal 2 => (try clear_value sx))
    | (intro sx; try clear_value sx)
    | lift_lets
    | apply kept_readChecked
    | apply kept_st_setWord
    | apply kept_devRead
    | apply kept_ite
    | apply kept_ite1
    | apply kept_ite2
    | apply kept_ite21
    | apply kept_ite22
    | refine Kept.of_mk ?_
    | split

theorem kept_hbmAdd {cid : Nat} {w : Nat} {s : State} (h_s : Kept kb kl bl ko s) (h_p_regs : Part.regs ∈ kl := by assumption) (h_p_mem : Part.mem ∈ kl := by assumption) (h_p_ecc : Part.ecc ∈ kl := by assumption) (h_p_free : Part.free ∈ kl := by assumption) (h_p_flt : Part.flt ∈ kl := by assumption) (h_b_FLT : blkFLT ∈ bl := by assumption) :
    Kept kb kl bl ko (hbmAdd cid w s) := by
  unfold hbmAdd
  with_reducible repeat' first
    | assumption
    | (intro sx; refine (have hsx : Kept kb kl bl ko sx := ?_; ?_); on_goal 2 => (try clear_value sx))
    | (intro sx; refine (have hsx : Kept kb kl bl ko sx.2 := ?_; ?_); on_goal 2 => (try clear_value sx))
    | (intro sx; try clear_value sx)
    | lift_lets
    | apply kept_counterWord
    | apply kept_devWrite
    | refine Kept.of_mk ?_

theorem kept_flushDelta {cid : Nat} {s : State} (h_s : Kept kb kl bl ko s) (h_p_regs : Part.regs ∈ kl := by assumption) (h_p_mem : Part.mem ∈ kl := by assumption) (h_p_ecc : Part.ecc ∈ kl := by assumption) (h_p_free : Part.free ∈ kl := by assumption) (h_p_flt : Part.flt ∈ kl := by assumption) (h_p_flw : Part.flw ∈ kl := by assumption) (h_b_FLT : blkFLT ∈ bl := by assumption) :
    Kept kb kl bl ko (flushDelta cid s) := by
  unfold flushDelta
  with_reducible repeat' first
    | assumption
    | (intro sx; refine (have hsx : Kept kb kl bl ko sx := ?_; ?_); on_goal 2 => (try clear_value sx))
    | (intro sx; try clear_value sx)
    | lift_lets
    | apply kept_hbmAdd
    | apply kept_st_setDelta
    | apply kept_ite
    | (apply kept_foldl; intro sy xy hy)
    | (apply kept_foldl2; intro sy xy hy)
    | (apply kept_foldl1; intro sy xy hy)
    | refine Kept.of_mk ?_
    | split

theorem kept_touchWay {cid : Nat} {s : State} (h_s : Kept kb kl bl ko s) (h_p_flw : Part.flw ∈ kl := by assumption) :
    Kept kb kl bl ko (touchWay cid s) := by
  unfold touchWay
  with_reducible repeat' first
    | assumption
    | (intro sx; refine (have hsx : Kept kb kl bl ko sx := ?_; ?_); on_goal 2 => (try clear_value sx))
    | (intro sx; try clear_value sx)
    | lift_lets
    | apply kept_st_setDelta
    | apply kept_st_setWays
    | apply kept_ite
    | refine Kept.of_mk ?_
    | split

theorem kept_countFlow {cid : Nat} {len : Nat} {s : State} (h_s : Kept kb kl bl ko s) (h_p_regs : Part.regs ∈ kl := by assumption) (h_p_mem : Part.mem ∈ kl := by assumption) (h_p_ecc : Part.ecc ∈ kl := by assumption) (h_p_free : Part.free ∈ kl := by assumption) (h_p_flt : Part.flt ∈ kl := by assumption) (h_p_flw : Part.flw ∈ kl := by assumption) (h_b_FLT : blkFLT ∈ bl := by assumption) :
    Kept kb kl bl ko (countFlow cid len s) := by
  unfold countFlow
  with_reducible repeat' first
    | assumption
    | (intro sx; refine (have hsx : Kept kb kl bl ko sx := ?_; ?_); on_goal 2 => (try clear_value sx))
    | (intro sx; try clear_value sx)
    | lift_lets
    | apply kept_touchWay
    | apply kept_st_setDelta
    | apply kept_flushDelta
    | apply kept_ite
    | refine Kept.of_mk ?_
    | split

theorem kept_counterValue {cid : Nat} {s : State} (h_s : Kept kb kl bl ko s) (h_p_regs : Part.regs ∈ kl := by assumption) (h_p_mem : Part.mem ∈ kl := by assumption) (h_p_ecc : Part.ecc ∈ kl := by assumption) (h_p_free : Part.free ∈ kl := by assumption) (h_p_flt : Part.flt ∈ kl := by assumption) (h_b_FLT : blkFLT ∈ bl := by assumption) :
    Kept kb kl bl ko (counterValue cid s).2.2 := by
  unfold counterValue
  with_reducible repeat' first
    | assumption
    | (intro sx; refine (have hsx : Kept kb kl bl ko sx := ?_; ?_); on_goal 2 => (try clear_value sx))
    | (intro sx; refine (have hsx : Kept kb kl bl ko sx.2 := ?_; ?_); on_goal 2 => (try clear_value sx))
    | (intro sx; try clear_value sx)
    | lift_lets
    | apply kept_counterWord
    | refine Kept.of_mk ?_

theorem kept_zeroCounter {cid : Nat} {s : State} (h_s : Kept kb kl bl ko s) (h_p_regs : Part.regs ∈ kl := by assumption) (h_p_mem : Part.mem ∈ kl := by assumption) (h_p_ecc : Part.ecc ∈ kl := by assumption) (h_p_flt : Part.flt ∈ kl := by assumption) (h_p_flw : Part.flw ∈ kl := by assumption) (h_b_FLT : blkFLT ∈ bl := by assumption) :
    Kept kb kl bl ko (zeroCounter cid s) := by
  unfold zeroCounter
  with_reducible repeat' first
    | assumption
    | (intro sx; refine (have hsx : Kept kb kl bl ko sx := ?_; ?_); on_goal 2 => (try clear_value sx))
    | (intro sx; try clear_value sx)
    | lift_lets
    | apply kept_st_setDelta
    | apply kept_devWrite
    | refine Kept.of_mk ?_

theorem kept_makeMoves {l : List (Nat × Nat)} {s : State} (h_s : Kept kb kl bl ko s) (h_p_flw : Part.flw ∈ kl := by assumption) :
    Kept kb kl bl ko (makeMoves l s) := by
  unfold makeMoves
  with_reducible repeat' first
    | assumption
    | (intro sx; refine (have hsx : Kept kb kl bl ko sx := ?_; ?_); on_goal 2 => (try clear_value sx))
    | (intro sx; try clear_value sx)
    | lift_lets
    | apply kept_st_setFlowAt
    | apply kept_ite
    | (apply kept_foldl; intro sy xy hy)
    | (apply kept_foldl2; intro sy xy hy)
    | (apply kept_foldl1; intro sy xy hy)
    | refine Kept.of_mk ?_
    | split

theorem kept_showFlw {s : State} (h_s : Kept kb kl bl ko s) (h_p_regs : Part.regs ∈ kl := by assumption) (h_b_FLW : blkFLW ∈ bl := by assumption) :
    Kept kb kl bl ko (showFlw s) := by
  unfold showFlw
  with_reducible repeat' first
    | assumption
    | (refine mem_guard ?_; with_unfolding_all (first | assumption | exact (by assumption : ∀ n, n ∈ bl) _ | exact blk_n (by decide) (by decide) (by assumption) | exact blk_un (by decide) (by decide) (by decide) (by assumption)))
    | (intro sx; refine (have hsx : Kept kb kl bl ko sx := ?_; ?_); on_goal 2 => (try clear_value sx))
    | (intro sx; try clear_value sx)
    | lift_lets
    | apply kept_st_wr
    | refine Kept.of_mk ?_

theorem kept_takeCidx {s : State} (h_s : Kept kb kl bl ko s) (h_p_free : Part.free ∈ kl := by assumption) :
    Kept kb kl bl ko (takeCidx s).2 := by
  unfold takeCidx
  with_reducible repeat' first
    | assumption
    | (intro sx; refine (have hsx : Kept kb kl bl ko sx := ?_; ?_); on_goal 2 => (try clear_value sx))
    | (intro sx; refine (have hsx : Kept kb kl bl ko sx.2 := ?_; ?_); on_goal 2 => (try clear_value sx))
    | (intro sx; try clear_value sx)
    | lift_lets
    | apply kept_draw
    | refine Kept.of_mk ?_

theorem kept_flowFill {p : InsPlan} {x now : Nat} {c : Option Nat × State} (hc : Kept kb kl bl ko c.2) (h_p_regs : Part.regs ∈ kl := by assumption) (h_p_free : Part.free ∈ kl := by assumption) (h_p_flw : Part.flw ∈ kl := by assumption) (h_b_FLW : blkFLW ∈ bl := by assumption) : Kept kb kl bl ko (flowFill p x now c).2 := by
  unfold flowFill
  split
  · exact kept_st_inc hc
  · exact kept_showFlw (kept_st_setFlowAt hc)

theorem kept_flowPlace {p : InsPlan} {s : State} (h_s : Kept kb kl bl ko s) (h_p_regs : Part.regs ∈ kl := by assumption) (h_p_free : Part.free ∈ kl := by assumption) (h_p_flw : Part.flw ∈ kl := by assumption) (h_b_FLW : blkFLW ∈ bl := by assumption) : Kept kb kl bl ko (flowPlace p s).2 := by
  unfold flowPlace
  dsimp only
  have hm : Kept kb kl bl ko (makeMoves p.moves s) := kept_makeMoves h_s
  have h2 : Kept kb kl bl ko (if p.place.isNone = true then (makeMoves p.moves s).draw.2 else makeMoves p.moves s) :=
    kept_ite (kept_draw hm) hm
  split
  · exact kept_st_inc h2
  · exact kept_flowFill (kept_takeCidx h2)

theorem kept_flowDelete {p : Nat} {aged : Bool} {s : State} (h_s : Kept kb kl bl ko s) (h_p_regs : Part.regs ∈ kl := by assumption) (h_p_flw : Part.flw ∈ kl := by assumption) (h_b_FLW : blkFLW ∈ bl := by assumption) :
    Kept kb kl bl ko (flowDelete p aged s) := by
  unfold flowDelete
  with_reducible repeat' first
    | assumption
    | (intro sx; refine (have hsx : Kept kb kl bl ko sx := ?_; ?_); on_goal 2 => (try clear_value sx))
    | (intro sx; try clear_value sx)
    | lift_lets
    | apply kept_showFlw
    | apply kept_st_setFlowAt
    | apply kept_ite
    | refine Kept.of_mk ?_
    | split

theorem kept_learnRequest {r : LearnReq} {s : State} (h_s : Kept kb kl bl ko s) (h_p_regs : Part.regs ∈ kl := by assumption) (h_p_flw : Part.flw ∈ kl := by assumption) (h_b_FLW : blkFLW ∈ bl := by assumption) :
    Kept kb kl bl ko (learnRequest r s).1 := by
  unfold learnRequest
  with_reducible repeat' first
    | assumption
    | (refine mem_guard ?_; with_unfolding_all (first | assumption | exact (by assumption : ∀ n, n ∈ bl) _ | exact blk_n (by decide) (by decide) (by assumption) | exact blk_un (by decide) (by decide) (by decide) (by assumption) | exact blk_ite (by assumption) (by assumption) | exact blk_ite (by exact blk_n (by decide) (by decide) (by assumption)) (by exact blk_n (by decide) (by decide) (by assumption))))
    | (intro sx; refine (have hsx : Kept kb kl bl ko sx := ?_; ?_); on_goal 2 => (try clear_value sx))
    | (intro sx; try clear_value sx)
    | lift_lets
    | apply kept_showFlw
    | apply kept_st_setLearnFilter
    | apply kept_st_inc
    | apply kept_ite
    | apply kept_ite1
    | apply kept_ite2
    | apply kept_ite21
    | apply kept_ite22
    | split
    | dsimp only [sx]
    | refine Kept.of_mk ?_

theorem kept_showFlow {p : Nat} {s : State} (h_s : Kept kb kl bl ko s) (h_p_regs : Part.regs ∈ kl := by assumption) (h_b_FLW : blkFLW ∈ bl := by assumption) :
    Kept kb kl bl ko (showFlow p s) := by
  unfold showFlow
  with_reducible repeat' first
    | assumption
    | (refine mem_guard ?_; with_unfolding_all (first | assumption | exact (by assumption : ∀ n, n ∈ bl) _ | exact blk_n (by decide) (by decide) (by assumption) | exact blk_un (by decide) (by decide) (by decide) (by assumption)))
    | (intro sx; refine (have hsx : Kept kb kl bl ko sx := ?_; ?_); on_goal 2 => (try clear_value sx))
    | (intro sx; try clear_value sx)
    | lift_lets
    | apply kept_st_wr
    | apply kept_setReg
    | (apply kept_foldl; intro sy xy hy)
    | (apply kept_foldl2; intro sy xy hy)
    | (apply kept_foldl1; intro sy xy hy)
    | refine Kept.of_mk ?_

theorem kept_flwStatus {n : Nat} {s : State} (h_s : Kept kb kl bl ko s) (h_p_regs : Part.regs ∈ kl := by assumption) (h_b_FLW : blkFLW ∈ bl := by assumption) :
    Kept kb kl bl ko (flwStatus n s) := by
  unfold flwStatus
  with_reducible repeat' first
    | assumption
    | (refine mem_guard ?_; with_unfolding_all (first | assumption | exact (by assumption : ∀ n, n ∈ bl) _ | exact blk_n (by decide) (by decide) (by assumption) | exact blk_un (by decide) (by decide) (by decide) (by assumption)))
    | (intro sx; refine (have hsx : Kept kb kl bl ko sx := ?_; ?_); on_goal 2 => (try clear_value sx))
    | (intro sx; try clear_value sx)
    | lift_lets
    | apply kept_st_put
    | apply kept_st_wr
    | refine Kept.of_mk ?_

theorem kept_newGen {key : Bytes} {s : State} (h_s : Kept kb kl bl ko s) (h_p_kln : Part.kln ∈ kl := by assumption) :
    Kept kb kl bl ko (newGen key s).2 := by
  unfold newGen
  with_reducible repeat' first
    | assumption
    | refine Kept.of_mk ?_

theorem kept_slotTake {n : Nat} {use : Nat} {key : Bytes} {s : State} (h_s : Kept kb kl bl ko s) (h_p_kln : Part.kln ∈ kl := by assumption) :
    Kept kb kl bl ko (slotTake n use key s) := by
  unfold slotTake
  with_reducible repeat' first
    | assumption
    | (intro sx; refine (have hsx : Kept kb kl bl ko sx := ?_; ?_); on_goal 2 => (try clear_value sx))
    | (intro sx; refine (have hsx : Kept kb kl bl ko sx.2 := ?_; ?_); on_goal 2 => (try clear_value sx))
    | (intro sx; try clear_value sx)
    | lift_lets
    | apply kept_st_setSlot
    | apply kept_newGen
    | refine Kept.of_mk ?_

theorem kept_slotRewrite {n : Nat} {use : Nat} {key : Bytes} {s : State} (h_s : Kept kb kl bl ko s) (h_p_kln : Part.kln ∈ kl := by assumption) :
    Kept kb kl bl ko (slotRewrite n use key s) := by
  unfold slotRewrite
  with_reducible repeat' first
    | assumption
    | (intro sx; refine (have hsx : Kept kb kl bl ko sx := ?_; ?_); on_goal 2 => (try clear_value sx))
    | (intro sx; try clear_value sx)
    | lift_lets
    | apply kept_st_setSlot
    | apply kept_slotTake
    | apply kept_ite
    | split
    | dsimp only [sx]
    | refine Kept.of_mk ?_

theorem kept_slotEmptied {n : Nat} {s : State} (h_s : Kept kb kl bl ko s) (h_p_kln : Part.kln ∈ kl := by assumption) :
    Kept kb kl bl ko (slotEmptied n s) := by
  unfold slotEmptied
  with_reducible repeat' first
    | assumption
    | (intro sx; refine (have hsx : Kept kb kl bl ko sx := ?_; ?_); on_goal 2 => (try clear_value sx))
    | (intro sx; try clear_value sx)
    | lift_lets
    | apply kept_st_setSlot
    | apply kept_slotTake
    | apply kept_ite
    | split
    | dsimp only [sx]
    | refine Kept.of_mk ?_

theorem kept_slotErase {n : Nat} {s : State} (h_s : Kept kb kl bl ko s) (h_p_kln : Part.kln ∈ kl := by assumption) :
    Kept kb kl bl ko (slotErase n s) := by
  unfold slotErase
  with_reducible repeat' first
    | assumption
    | (intro sx; refine (have hsx : Kept kb kl bl ko sx := ?_; ?_); on_goal 2 => (try clear_value sx))
    | (intro sx; try clear_value sx)
    | lift_lets
    | apply kept_st_setSlot
    | apply kept_slotEmptied
    | split
    | dsimp only [sx]
    | refine Kept.of_mk ?_

theorem kept_slotRetire {n : Nat} {s : State} (h_s : Kept kb kl bl ko s) (h_p_regs : Part.regs ∈ kl := by assumption) (h_p_kln : Part.kln ∈ kl := by assumption) (h_b_KLN : blkKLN ∈ bl := by assumption) :
    Kept kb kl bl ko (slotRetire n s) := by
  unfold slotRetire
  with_reducible repeat' first
    | assumption
    | (refine mem_guard ?_; with_unfolding_all (first | assumption | exact (by assumption : ∀ n, n ∈ bl) _ | exact blk_n (by decide) (by decide) (by assumption) | exact blk_un (by decide) (by decide) (by decide) (by assumption) | exact blk_ite (by assumption) (by assumption) | exact blk_ite (by exact blk_n (by decide) (by decide) (by assumption)) (by exact blk_n (by decide) (by decide) (by assumption))))
    | (intro sx; refine (have hsx : Kept kb kl bl ko sx := ?_; ?_); on_goal 2 => (try clear_value sx))
    | (intro sx; try clear_value sx)
    | lift_lets
    | apply kept_st_inc
    | apply kept_st_setSlot
    | apply kept_ite
    | refine Kept.of_mk ?_
    | split

theorem kept_slotDrained {n : Nat} {s : State} (h_s : Kept kb kl bl ko s) (h_p_kln : Part.kln ∈ kl := by assumption) :
    Kept kb kl bl ko (slotDrained n s) := by
  unfold slotDrained
  with_reducible repeat' first
    | assumption
    | (intro sx; refine (have hsx : Kept kb kl bl ko sx := ?_; ?_); on_goal 2 => (try clear_value sx))
    | (intro sx; try clear_value sx)
    | lift_lets
    | apply kept_st_setSlot
    | apply kept_slotEmptied
    | apply kept_slotTake
    | apply kept_ite
    | split
    | dsimp only [sx]
    | refine Kept.of_mk ?_

theorem kept_slotBind {n : Nat} {gid : Nat} {up : Bool} {s : State} (h_s : Kept kb kl bl ko s) (h_p_kln : Part.kln ∈ kl := by assumption) :
    Kept kb kl bl ko (slotBind n gid up s) := by
  unfold slotBind
  with_reducible repeat' first
    | assumption
    | (intro sx; refine (have hsx : Kept kb kl bl ko sx := ?_; ?_); on_goal 2 => (try clear_value sx))
    | intro sx
    | lift_lets
    | apply kept_st_setSlot
    | apply kept_ite
    | refine Kept.of_mk ?_
    | split

theorem kept_cipRequest {src : CipSrc} {n : Nat} {fc : Option Nat} {s : State} (h_s : Kept kb kl bl ko s) (h_p_regs : Part.regs ∈ kl := by assumption) (h_p_kln : Part.kln ∈ kl := by assumption) (h_b_CIP : blkCIP ∈ bl := by assumption) (h_b_KLN : blkKLN ∈ bl := by assumption) :
    Kept kb kl bl ko (cipRequest src n fc s).2 := by
  unfold cipRequest
  with_reducible repeat' first
    | assumption
    | (refine mem_guard ?_; with_unfolding_all (first | assumption | exact (by assumption : ∀ n, n ∈ bl) _ | exact blk_n (by decide) (by decide) (by assumption) | exact blk_un (by decide) (by decide) (by decide) (by assumption) | exact blk_ite (by assumption) (by assumption) | exact blk_ite (by exact blk_n (by decide) (by decide) (by assumption)) (by exact blk_n (by decide) (by decide) (by assumption))))
    | (intro sx; refine (have hsx : Kept kb kl bl ko sx := ?_; ?_); on_goal 2 => (try clear_value sx))
    | (intro sx; try clear_value sx)
    | lift_lets
    | apply kept_st_inc
    | apply kept_st_setSlot
    | apply kept_slotRetire
    | apply kept_ite
    | apply kept_ite1
    | apply kept_ite2
    | apply kept_ite21
    | apply kept_ite22
    | split
    | dsimp only [sx]
    | refine Kept.of_mk ?_

theorem kept_cipAhead {ch : Nat} {num : Nat} {n : Nat} {s : State} (h_s : Kept kb kl bl ko s) (h_p_regs : Part.regs ∈ kl := by assumption) (h_p_kln : Part.kln ∈ kl := by assumption) (h_p_pipes : Part.pipes ∈ kl := by assumption) (h_p_spc : Part.spc ∈ kl := by assumption) (h_b_CLS : blkCLS ∈ bl := by assumption) (h_b_SPC : blkSPC ∈ bl := by assumption) (h_b_CIP : blkCIP ∈ bl := by assumption) (h_b_KLN : blkKLN ∈ bl := by assumption) :
    Kept kb kl bl ko (cipAhead ch num n s).2 := by
  unfold cipAhead
  with_reducible repeat' first
    | assumption
    | (refine kept_pair2 (by assumption) ?_)
    | apply kept_cipRequest
    | apply kept_runAhead
    | split
    | refine Kept.of_mk ?_

theorem kept_slotBad {n : Nat} {s : State} (h_s : Kept kb kl bl ko s) (h_p_kln : Part.kln ∈ kl := by assumption) :
    Kept kb kl bl ko (slotBad n s) := by
  unfold slotBad
  with_reducible repeat' first
    | assumption
    | (intro sx; refine (have hsx : Kept kb kl bl ko sx := ?_; ?_); on_goal 2 => (try clear_value sx))
    | (intro sx; try clear_value sx)
    | lift_lets
    | apply kept_st_setSlot
    | apply kept_ite
    | refine Kept.of_mk ?_
    | split

theorem kept_cipDispatch {lane : Nat} {s : State} (h_s : Kept kb kl bl ko s) (h_p_kln : Part.kln ∈ kl := by assumption) :
    Kept kb kl bl ko (cipDispatch lane s) := by
  unfold cipDispatch
  with_reducible repeat' first
    | assumption
    | (intro sx; refine (have hsx : Kept kb kl bl ko sx := ?_; ?_); on_goal 2 => (try clear_value sx))
    | (intro sx; try clear_value sx)
    | lift_lets
    | apply kept_ite
    | split
    | dsimp only [sx]
    | refine Kept.of_mk ?_

theorem kept_cipLeave {r : CipReq} {s : State} (h_s : Kept kb kl bl ko s) (h_p_kln : Part.kln ∈ kl := by assumption) :
    Kept kb kl bl ko (cipLeave r s) := by
  unfold cipLeave
  with_reducible repeat' first
    | assumption
    | apply kept_slotBind
    | refine Kept.of_mk ?_

theorem kept_cipComplete {src : CipSrc} {s : State} (h_s : Kept kb kl bl ko s) (h_p_kln : Part.kln ∈ kl := by assumption) :
    Kept kb kl bl ko (cipComplete src s).2 := by
  unfold cipComplete
  with_reducible repeat' first
    | assumption
    | apply kept_cipLeave
    | apply kept_ite
    | apply kept_ite1
    | apply kept_ite2
    | apply kept_ite21
    | apply kept_ite22
    | split
    | refine Kept.of_mk ?_

theorem kept_cipWithdraw {ch : Nat} {num : Nat} {s : State} (h_s : Kept kb kl bl ko s) (h_p_regs : Part.regs ∈ kl := by assumption) (h_p_kln : Part.kln ∈ kl := by assumption) (h_b_CIP : blkCIP ∈ bl := by assumption) :
    Kept kb kl bl ko (cipWithdraw ch num s).2 := by
  unfold cipWithdraw
  with_reducible repeat' first
    | assumption
    | (refine mem_guard ?_; with_unfolding_all (first | assumption | exact (by assumption : ∀ n, n ∈ bl) _ | exact blk_n (by decide) (by decide) (by assumption) | exact blk_un (by decide) (by decide) (by decide) (by assumption)))
    | apply kept_st_inc
    | apply kept_cipLeave
    | split
    | refine Kept.of_mk ?_

theorem kept_klnShow {k : Nat} {s : State} (h_s : Kept kb kl bl ko s) (h_p_regs : Part.regs ∈ kl := by assumption) (h_b_KLN : blkKLN ∈ bl := by assumption) :
    Kept kb kl bl ko (klnShow k s) := by
  unfold klnShow
  with_reducible repeat' first
    | assumption
    | (refine mem_guard ?_; with_unfolding_all (first | assumption | exact (by assumption : ∀ n, n ∈ bl) _ | exact blk_n (by decide) (by decide) (by assumption) | exact blk_un (by decide) (by decide) (by decide) (by assumption)))
    | (intro sx; refine (have hsx : Kept kb kl bl ko sx := ?_; ?_); on_goal 2 => (try clear_value sx))
    | (intro sx; try clear_value sx)
    | lift_lets
    | apply kept_st_put
    | apply kept_st_wr
    | refine Kept.of_mk ?_

theorem kept_deriveIndex {b : Binding} {i : Nat} {s : State} (h_s : Kept kb kl bl ko s) (h_p_regs : Part.regs ∈ kl := by assumption) (h_p_kln : Part.kln ∈ kl := by assumption) (h_b_KLN : blkKLN ∈ bl := by assumption) :
    Kept kb kl bl ko (deriveIndex b i s) := by
  unfold deriveIndex
  with_reducible repeat' first
    | assumption
    | (refine mem_guard ?_; with_unfolding_all (first | assumption | exact (by assumption : ∀ n, n ∈ bl) _ | exact blk_n (by decide) (by decide) (by assumption) | exact blk_un (by decide) (by decide) (by decide) (by assumption) | exact blk_ite (by assumption) (by assumption) | exact blk_ite (by exact blk_n (by decide) (by decide) (by assumption)) (by exact blk_n (by decide) (by decide) (by assumption))))
    | (intro sx; refine (have hsx : Kept kb kl bl ko sx := ?_; ?_); on_goal 2 => (try clear_value sx))
    | (intro sx; try clear_value sx)
    | lift_lets
    | apply kept_st_inc
    | apply kept_slotRewrite
    | apply kept_st_setEpoch
    | apply kept_ite
    | split
    | dsimp only [sx]
    | refine Kept.of_mk ?_

theorem kept_keyIndex {k : Nat} {u : Nat} {i : Nat} {epoch : Nat} {s : State} (h_s : Kept kb kl bl ko s) (h_p_regs : Part.regs ∈ kl := by assumption) (h_p_kln : Part.kln ∈ kl := by assumption) (h_b_KLN : blkKLN ∈ bl := by assumption) :
    Kept kb kl bl ko (keyIndex k u i epoch s) := by
  unfold keyIndex
  with_reducible repeat' first
    | assumption
    | (intro sx; refine (have hsx : Kept kb kl bl ko sx := ?_; ?_); on_goal 2 => (try clear_value sx))
    | (intro sx; try clear_value sx)
    | lift_lets
    | apply kept_deriveIndex
    | apply kept_st_setEpoch
    | apply kept_st_setLastEpoch
    | (apply kept_foldl; intro sy xy hy)
    | (apply kept_foldl2; intro sy xy hy)
    | (apply kept_foldl1; intro sy xy hy)
    | refine Kept.of_mk ?_

theorem kept_eraseIndex {k : Nat} {u : Nat} {i : Nat} {s : State} (h_s : Kept kb kl bl ko s) (h_p_kln : Part.kln ∈ kl := by assumption) :
    Kept kb kl bl ko (eraseIndex k u i s) := by
  unfold eraseIndex
  with_reducible repeat' first
    | assumption
    | (intro sx; refine (have hsx : Kept kb kl bl ko sx := ?_; ?_); on_goal 2 => (try clear_value sx))
    | (intro sx; try clear_value sx)
    | lift_lets
    | apply kept_st_setEpoch
    | apply kept_slotErase
    | (apply kept_foldl; intro sy xy hy)
    | (apply kept_foldl2; intro sy xy hy)
    | (apply kept_foldl1; intro sy xy hy)
    | refine Kept.of_mk ?_

theorem kept_keyControl {k : Nat} {op : Nat} {usage : Nat} {kidx : Nat} {epoch : Nat} {wrapped : Bytes} {s : State} (h_s : Kept kb kl bl ko s) (h_p_regs : Part.regs ∈ kl := by assumption) (h_p_kln : Part.kln ∈ kl := by assumption) (h_b_KLN : blkKLN ∈ bl := by assumption) :
    Kept kb kl bl ko (keyControl k op usage kidx epoch wrapped s).1 := by
  unfold keyControl
  with_reducible repeat' first
    | assumption
    | (refine mem_guard ?_; with_unfolding_all (first | assumption | exact (by assumption : ∀ n, n ∈ bl) _ | exact blk_n (by decide) (by decide) (by assumption) | exact blk_un (by decide) (by decide) (by decide) (by assumption) | exact blk_ite (by assumption) (by assumption) | exact blk_ite (by exact blk_n (by decide) (by decide) (by assumption)) (by exact blk_n (by decide) (by decide) (by assumption))))
    | (intro sx; refine (have hsx : Kept kb kl bl ko sx := ?_; ?_); on_goal 2 => (try clear_value sx))
    | (intro sx; try clear_value sx)
    | lift_lets
    | apply kept_st_setRoot
    | apply kept_keyIndex
    | apply kept_eraseIndex
    | apply kept_st_setBit
    | apply kept_klnShow
    | apply kept_st_setEpoch
    | apply kept_st_setLastEpoch
    | apply kept_ite
    | apply kept_ite1
    | apply kept_ite2
    | apply kept_ite21
    | apply kept_ite22
    | split
    | dsimp only [sx]
    | refine Kept.of_mk ?_

theorem kept_klnForget {k : Nat} {s : State} (h_s : Kept kb kl bl ko s) (h_p_regs : Part.regs ∈ kl := by assumption) (h_p_kln : Part.kln ∈ kl := by assumption) (h_b_KLN : blkKLN ∈ bl := by assumption) :
    Kept kb kl bl ko (klnForget k s) := by
  unfold klnForget
  with_reducible repeat' first
    | assumption
    | (refine mem_guard ?_; with_unfolding_all (first | assumption | exact (by assumption : ∀ n, n ∈ bl) _ | exact blk_n (by decide) (by decide) (by assumption) | exact blk_un (by decide) (by decide) (by decide) (by assumption)))
    | (intro sx; refine (have hsx : Kept kb kl bl ko sx := ?_; ?_); on_goal 2 => (try clear_value sx))
    | (intro sx; try clear_value sx)
    | lift_lets
    | apply kept_st_setRoot
    | apply kept_klnShow
    | apply kept_st_setEpoch
    | apply kept_st_setLastEpoch
    | apply kept_st_setKek
    | apply kept_slotErase
    | apply kept_st_wr
    | (apply kept_foldl; intro sy xy hy)
    | (apply kept_foldl2; intro sy xy hy)
    | (apply kept_foldl1; intro sy xy hy)
    | refine Kept.of_mk ?_

theorem kept_klnHeader {k : Nat} {fc : Nat} {kiDs : Nat} {kiUs : Nat} {s : State} (h_s : Kept kb kl bl ko s) (h_p_regs : Part.regs ∈ kl := by assumption) (h_p_kln : Part.kln ∈ kl := by assumption) (h_b_KLN : blkKLN ∈ bl := by assumption) :
    Kept kb kl bl ko (klnHeader k fc kiDs kiUs s) := by
  unfold klnHeader
  with_reducible repeat' first
    | assumption
    | (refine mem_guard ?_; with_unfolding_all (first | assumption | exact (by assumption : ∀ n, n ∈ bl) _ | exact blk_n (by decide) (by decide) (by assumption) | exact blk_un (by decide) (by decide) (by decide) (by assumption) | exact blk_ite (by assumption) (by assumption) | exact blk_ite (by exact blk_n (by decide) (by decide) (by assumption)) (by exact blk_n (by decide) (by decide) (by assumption))))
    | (intro sx; refine (have hsx : Kept kb kl bl ko sx := ?_; ?_); on_goal 2 => (try clear_value sx))
    | (intro sx; try clear_value sx)
    | lift_lets
    | apply kept_slotRetire
    | apply kept_st_setBit
    | apply kept_st_wr
    | apply kept_ite
    | (apply kept_foldl; intro sy xy hy)
    | (apply kept_foldl2; intro sy xy hy)
    | (apply kept_foldl1; intro sy xy hy)
    | refine Kept.of_mk ?_
    | split

theorem kept_klnAuth {k tn mseq : Nat} {nonce : Bytes} {s : State} (h_s : Kept kb kl bl ko s) (h_p_regs : Part.regs ∈ kl := by assumption) (h_p_kln : Part.kln ∈ kl := by assumption) (h_b_KLN : blkKLN ∈ bl := by assumption) :
    KeptO kb kl bl ko Prod.snd (klnAuth k tn mseq nonce s) := by
  unfold klnAuth
  intro x e
  obtain ⟨rk, _, rfl⟩ := Option.map_eq_some_iff.1 e
  exact kept_klnShow (kept_st_setKek h_s)

theorem kept_klnClear {s : State} (h_s : Kept kb kl bl ko s) (h_p_kln : Part.kln ∈ kl := by assumption) :
    Kept kb kl bl ko (klnClear s) := by
  unfold klnClear
  with_reducible repeat' first
    | assumption
    | refine Kept.of_mk ?_

theorem kept_klnOperate {s : State} (h_s : Kept kb kl bl ko s) (h_p_regs : Part.regs ∈ kl := by assumption) (h_p_kln : Part.kln ∈ kl := by assumption) (h_b_KLN : blkKLN ∈ bl := by assumption) :
    Kept kb kl bl ko (klnOperate s).2 := by
  unfold klnOperate
  with_reducible repeat' first
    | assumption
    | (refine mem_guard ?_; with_unfolding_all (first | assumption | exact (by assumption : ∀ n, n ∈ bl) _ | exact blk_n (by decide) (by decide) (by assumption) | exact blk_un (by decide) (by decide) (by decide) (by assumption) | exact blk_ite (by assumption) (by assumption) | exact blk_ite (by exact blk_n (by decide) (by decide) (by assumption)) (by exact blk_n (by decide) (by decide) (by assumption))))
    | (intro sx; refine (have hsx : Kept kb kl bl ko sx := ?_; ?_); on_goal 2 => (try clear_value sx))
    | (intro sx; try clear_value sx)
    | lift_lets
    | apply kept_st_setRoot
    | apply kept_st_inc
    | apply kept_slotRewrite
    | apply kept_st_put
    | apply kept_slotErase
    | apply kept_st_wr
    | apply kept_ite
    | apply kept_ite1
    | apply kept_ite2
    | apply kept_ite21
    | apply kept_ite22
    | split
    | dsimp only [sx]
    | refine Kept.of_mk ?_

theorem kept_showBind {b : Binding} {s : State} (h_s : Kept kb kl bl ko s) (h_p_regs : Part.regs ∈ kl := by assumption) (h_b_KLN : blkKLN ∈ bl := by assumption) :
    Kept kb kl bl ko (showBind b s) := by
  unfold showBind
  with_reducible repeat' first
    | assumption
    | (refine mem_guard ?_; with_unfolding_all (first | assumption | exact (by assumption : ∀ n, n ∈ bl) _ | exact blk_n (by decide) (by decide) (by assumption) | exact blk_un (by decide) (by decide) (by decide) (by assumption)))
    | (intro sx; refine (have hsx : Kept kb kl bl ko sx := ?_; ?_); on_goal 2 => (try clear_value sx))
    | (intro sx; try clear_value sx)
    | lift_lets
    | apply kept_st_put
    | apply kept_st_wr
    | refine Kept.of_mk ?_

theorem kept_bindWrite {n : Nat} {b : Binding} {s : State} (h_s : Kept kb kl bl ko s) (h_p_regs : Part.regs ∈ kl := by assumption) (h_p_kln : Part.kln ∈ kl := by assumption) (h_b_KLN : blkKLN ∈ bl := by assumption) :
    Kept kb kl bl ko (bindWrite n b s) := by
  unfold bindWrite
  with_reducible repeat' first
    | assumption
    | (intro sx; refine (have hsx : Kept kb kl bl ko sx := ?_; ?_); on_goal 2 => (try clear_value sx))
    | (intro sx; try clear_value sx)
    | lift_lets
    | apply kept_klnShow
    | apply kept_deriveIndex
    | apply kept_st_setBinding
    | apply kept_slotErase
    | apply kept_ite
    | refine Kept.of_mk ?_
    | split

theorem kept_klnWrite {a : Nat} {v : Word} {o : State} {s : State} (h_o : Kept kb kl bl ko o) (h_s : Kept kb kl bl ko s) (h_p_regs : Part.regs ∈ kl := by assumption) (h_p_kln : Part.kln ∈ kl := by assumption) (h_b_KLN : blkKLN ∈ bl := by assumption) :
    Kept kb kl bl ko (klnWrite a v o s) := by
  unfold klnWrite
  with_reducible repeat' first
    | assumption
    | (refine mem_guard ?_; with_unfolding_all (first | assumption | exact (by assumption : ∀ n, n ∈ bl) _ | exact blk_n (by decide) (by decide) (by assumption) | exact blk_un (by decide) (by decide) (by decide) (by assumption) | exact blk_ite (by assumption) (by assumption) | exact blk_ite (by exact blk_n (by decide) (by decide) (by assumption)) (by exact blk_n (by decide) (by decide) (by assumption))))
    | (intro sx; refine (have hsx : Kept kb kl bl ko sx := ?_; ?_); on_goal 2 => (try clear_value sx))
    | (intro sx; refine (have hsx : Kept kb kl bl ko sx.2 := ?_; ?_); on_goal 2 => (try clear_value sx))
    | (intro sx; try clear_value sx)
    | lift_lets
    | apply kept_klnClear
    | apply kept_st_setKlnData
    | apply kept_showBind
    | apply kept_st_put
    | apply kept_klnOperate
    | apply kept_bindWrite
    | apply kept_st_wr
    | apply kept_ite
    | apply kept_ite2
    | refine Kept.of_mk ?_
    | split

theorem kept_fwDescriptor {err : Bool} {s : State} (h_s : Kept kb kl bl ko s) (h_p_regs : Part.regs ∈ kl := by assumption) (h_p_mem : Part.mem ∈ kl := by assumption) (h_p_ecc : Part.ecc ∈ kl := by assumption) (h_p_free : Part.free ∈ kl := by assumption) (h_p_flt : Part.flt ∈ kl := by assumption) (h_p_kln : Part.kln ∈ kl := by assumption) (h_b_FLT : blkFLT ∈ bl := by assumption) (h_b_CIP : blkCIP ∈ bl := by assumption) (h_b_KLN : blkKLN ∈ bl := by assumption) :
    Kept kb kl bl ko (fwDescriptor err s) := by
  unfold fwDescriptor
  with_reducible repeat' first
    | assumption
    | (refine mem_guard ?_; with_unfolding_all (first | assumption | exact (by assumption : ∀ n, n ∈ bl) _ | exact blk_n (by decide) (by decide) (by assumption) | exact blk_un (by decide) (by decide) (by decide) (by assumption) | exact blk_ite (by assumption) (by assumption) | exact blk_ite (by exact blk_n (by decide) (by decide) (by assumption)) (by exact blk_n (by decide) (by decide) (by assumption))))
    | (refine kept_pair2 (by assumption) ?_)
    | (intro sx; refine (have hsx : Kept kb kl bl ko sx := ?_; ?_); on_goal 2 => (try clear_value sx))
    | (intro sx; refine (have hsx : Kept kb kl bl ko sx.2 := ?_; ?_); on_goal 2 => (try clear_value sx))
    | (intro sx; refine (have hsx : Kept kb kl bl ko sx.1 := ?_; ?_); on_goal 2 => (try clear_value sx))
    | (intro sx; try clear_value sx)
    | lift_lets
    | apply kept_st_inc
    | apply kept_devWrite
    | apply kept_cipRequest
    | apply kept_st_wr
    | apply kept_devRead
    | apply kept_ite
    | apply kept_ite1
    | apply kept_ite2
    | apply kept_ite21
    | apply kept_ite22
    | split
    | dsimp only [sx]
    | refine Kept.of_mk ?_

theorem kept_showCip {l : List Nat} {s : State} (h_s : Kept kb kl bl ko s) (h_p_regs : Part.regs ∈ kl := by assumption) (h_b_CIP : blkCIP ∈ bl := by assumption) :
    Kept kb kl bl ko (showCip l s) := by
  unfold showCip
  with_reducible repeat' first
    | assumption
    | (refine mem_guard ?_; with_unfolding_all (first | assumption | exact (by assumption : ∀ n, n ∈ bl) _ | exact blk_n (by decide) (by decide) (by assumption) | exact blk_un (by decide) (by decide) (by decide) (by assumption)))
    | apply kept_setReg
    | (apply kept_foldl; intro sy xy hy)
    | (apply kept_foldl2; intro sy xy hy)
    | (apply kept_foldl1; intro sy xy hy)
    | refine Kept.of_mk ?_

theorem kept_cipAccess {s : State} (h_s : Kept kb kl bl ko s) (h_p_regs : Part.regs ∈ kl := by assumption) (h_p_kln : Part.kln ∈ kl := by assumption) (h_b_CIP : blkCIP ∈ bl := by assumption) :
    KeptO kb kl bl ko id (cipAccess s) := by
  unfold cipAccess
  with_reducible repeat' first
    | assumption
    | (intro sx; refine (have hsx : Kept kb kl bl ko sx := ?_; ?_); on_goal 2 => (try clear_value sx))
    | (intro sx; try clear_value sx)
    | lift_lets
    | apply kept_showCip
    | apply kept_st_setRxSa
    | apply kept_st_setTxSa
    | apply kept_ite
    | refine Kept.of_mk ?_
    | apply kept_none
    | apply kept_some
    | apply kept_some2
    | apply kept_oite
    | (apply kept_omap; intro xo)
    | split

theorem kept_cipWrite {a : Nat} {v : Word} {o : State} {s : State} (h_o : Kept kb kl bl ko o) (h_s : Kept kb kl bl ko s) (h_p_regs : Part.regs ∈ kl := by assumption) (h_p_kln : Part.kln ∈ kl := by assumption) (h_b_CIP : blkCIP ∈ bl := by assumption) :
    Kept kb kl bl ko (cipWrite a v o s) := by
  unfold cipWrite
  with_reducible repeat' first
    | assumption
    | (refine mem_guard ?_; with_unfolding_all (first | assumption | exact (by assumption : ∀ n, n ∈ bl) _ | exact blk_n (by decide) (by decide) (by assumption) | exact blk_un (by decide) (by decide) (by decide) (by assumption) | exact blk_ite (by assumption) (by assumption) | exact blk_ite (by exact blk_n (by decide) (by decide) (by assumption)) (by exact blk_n (by decide) (by decide) (by assumption))))
    | (refine kept_ouse (by assumption) ?_)
    | (intro sx; refine (have hsx : Kept kb kl bl ko sx := ?_; ?_); on_goal 2 => (try clear_value sx))
    | (intro sx; try clear_value sx)
    | lift_lets
    | apply kept_cipAccess
    | apply kept_st_put
    | apply kept_st_wr
    | apply kept_ite
    | split
    | dsimp only [sx]
    | refine Kept.of_mk ?_

theorem kept_takePn {n : Nat} {s : State} (h_s : Kept kb kl bl ko s) (h_p_regs : Part.regs ∈ kl := by assumption) (h_p_kln : Part.kln ∈ kl := by assumption) (h_b_CIP : blkCIP ∈ bl := by assumption) :
    Kept kb kl bl ko (takePn n s).2 := by
  unfold takePn
  with_reducible repeat' first
    | assumption
    | (refine mem_guard ?_; with_unfolding_all (first | assumption | exact (by assumption : ∀ n, n ∈ bl) _ | exact blk_n (by decide) (by decide) (by assumption) | exact blk_un (by decide) (by decide) (by decide) (by assumption) | exact blk_ite (by assumption) (by assumption) | exact blk_ite (by exact blk_n (by decide) (by decide) (by assumption)) (by exact blk_n (by decide) (by decide) (by assumption))))
    | (intro sx; refine (have hsx : Kept kb kl bl ko sx := ?_; ?_); on_goal 2 => (try clear_value sx))
    | (intro sx; try clear_value sx)
    | lift_lets
    | apply kept_st_setBit
    | apply kept_st_setTxSa
    | apply kept_ite
    | apply kept_ite1
    | apply kept_ite2
    | apply kept_ite21
    | apply kept_ite22
    | refine Kept.of_mk ?_
    | split

theorem kept_saEncrypt {n : Nat} {aad : Nat → Bytes} {data : Bytes} {s : State} (h_s : Kept kb kl bl ko s) (h_p_regs : Part.regs ∈ kl := by assumption) (h_p_kln : Part.kln ∈ kl := by assumption) (h_b_CIP : blkCIP ∈ bl := by assumption) (h_b_KLN : blkKLN ∈ bl := by assumption) :
    Kept kb kl bl ko (saEncrypt n aad data s).2 := by
  unfold saEncrypt
  dsimp only
  refine kept_ite2 (kept_st_inc h_s) (kept_ite2 (kept_st_inc h_s) ?_)
  split
  · exact kept_pair2 (by assumption) (kept_cipRequest (kept_takePn h_s))
  · exact kept_pair2 (by assumption) (kept_cipRequest (kept_takePn h_s))

theorem kept_saDecrypt {n : Nat} {lo : Nat} {aad : Bytes} {ct : Bytes} {tag : Bytes} {s : State} (h_s : Kept kb kl bl ko s) (h_p_regs : Part.regs ∈ kl := by assumption) (h_p_kln : Part.kln ∈ kl := by assumption) (h_b_CIP : blkCIP ∈ bl := by assumption) (h_b_KLN : blkKLN ∈ bl := by assumption) :
    Kept kb kl bl ko (saDecrypt n lo aad ct tag s).2 := by
  unfold saDecrypt
  with_reducible repeat' first
    | assumption
    | (refine mem_guard ?_; with_unfolding_all (first | assumption | exact (by assumption : ∀ n, n ∈ bl) _ | exact blk_n (by decide) (by decide) (by assumption) | exact blk_un (by decide) (by decide) (by decide) (by assumption) | exact blk_ite (by assumption) (by assumption) | exact blk_ite (by exact blk_n (by decide) (by decide) (by assumption)) (by exact blk_n (by decide) (by decide) (by assumption))))
    | (refine kept_pair2 (by assumption) ?_)
    | (intro sx; refine (have hsx : Kept kb kl bl ko sx := ?_; ?_); on_goal 2 => (try clear_value sx))
    | (intro sx; refine (have hsx : Kept kb kl bl ko sx.2 := ?_; ?_); on_goal 2 => (try clear_value sx))
    | (intro sx; try clear_value sx)
    | lift_lets
    | apply kept_st_inc
    | apply kept_cipRequest
    | apply kept_st_setRxSa
    | apply kept_ite
    | apply kept_ite1
    | apply kept_ite2
    | apply kept_ite21
    | apply kept_ite22
    | split
    | dsimp only [sx]
    | refine Kept.of_mk ?_

end Sys2Proof.Machine
end

