-- ==== Sys2Proof/Laws/KeptPaths.lean ====
section
/-! SUPPORT. What every operation of the cascade's sending, the pipelines, time, upstream bursts, the Chaperone and registration keeps: one lemma for each, named after it, which lists the parts of the state that the operation may change. -/

set_option linter.unusedTactic false
set_option linter.unreachableTactic false

namespace Sys2Proof.Machine

set_option linter.unusedVariables false
set_option Elab.async false

variable {β : Type} [Membership Nat β] {kb : Bool} {kl : List Part} {bl : β} {ko : State}

theorem kept_placeLeaf {dir : Nat} {leaf : Nat} {sid : Nat} {n : Nat} {p : QPkt} {s : State} (h_s : Kept kb kl bl ko s) (h_p_regs : Part.regs ∈ kl := by assumption) (h_p_cel : Part.cel ∈ kl := by assumption) (h_p_sch : Part.sch ∈ kl := by assumption) (h_p_pipes : Part.pipes ∈ kl := by assumption) (h_b_CEL : blkCEL ∈ bl := by assumption) (h_b_SCH : blkSCH ∈ bl := by assumption) :
    Kept kb kl bl ko (placeLeaf dir leaf sid n p s).1 := by
  unfold placeLeaf
  with_reducible repeat' first
    | assumption
    | (refine kept_pair1 (by assumption) ?_)
    | (intro sx; refine (have hsx : Kept kb kl bl ko sx := ?_; ?_); on_goal 2 => (try clear_value sx))
    | (intro sx; refine (have hsx : Kept kb kl bl ko sx.1 := ?_; ?_); on_goal 2 => (try clear_value sx))
    | (intro sx; try clear_value sx)
    | lift_lets
    | apply kept_enqueue
    | apply kept_ite
    | apply kept_ite1
    | apply kept_ite2
    | apply kept_ite21
    | apply kept_ite22
    | split
    | dsimp only [sx]
    | refine Kept.of_mk ?_

theorem kept_casDetect {g : Nat} {s : State} (h_s : Kept kb kl bl ko s) (h_p_regs : Part.regs ∈ kl := by assumption) (h_p_cas : Part.cas ∈ kl := by assumption) (h_b_CAS : blkCAS ∈ bl := by assumption) :
    Kept kb kl bl ko (casDetect g s) := by
  unfold casDetect
  with_reducible repeat' first
    | assumption
    | (refine mem_guard ?_; with_unfolding_all (first | assumption | exact (by assumption : ∀ n, n ∈ bl) _ | exact blk_n (by decide) (by decide) (by assumption) | exact blk_un (by decide) (by decide) (by decide) (by assumption)))
    | (intro sx; refine (have hsx : Kept kb kl bl ko sx := ?_; ?_); on_goal 2 => (try clear_value sx))
    | (intro sx; try clear_value sx)
    | lift_lets
    | apply kept_st_setCasGrp
    | apply kept_setReg
    | refine Kept.of_mk ?_

theorem kept_casOff {g : Nat} {s : State} (h_s : Kept kb kl bl ko s) (h_p_regs : Part.regs ∈ kl := by assumption) (h_p_cas : Part.cas ∈ kl := by assumption) (h_b_CAS : blkCAS ∈ bl := by assumption) :
    Kept kb kl bl ko (casOff g s) := by
  unfold casOff
  with_reducible repeat' first
    | assumption
    | (refine mem_guard ?_; with_unfolding_all (first | assumption | exact (by assumption : ∀ n, n ∈ bl) _ | exact blk_n (by decide) (by decide) (by assumption) | exact blk_un (by decide) (by decide) (by decide) (by assumption) | exact blk_ite (by assumption) (by assumption) | exact blk_ite (by exact blk_n (by decide) (by decide) (by assumption)) (by exact blk_n (by decide) (by decide) (by assumption)) | exact blk_casDownEvt (by assumption)))
    | (intro sx; refine (have hsx : Kept kb kl bl ko sx := ?_; ?_); on_goal 2 => (try clear_value sx))
    | (intro sx; try clear_value sx)
    | lift_lets
    | apply kept_st_put
    | apply kept_st_setCasGrp
    | apply kept_setReg
    | apply kept_ite
    | refine Kept.of_mk ?_
    | split

theorem kept_casQueue {g : Nat} {o : CasOut} {s : State} (h_s : Kept kb kl bl ko s) (h_p_cas : Part.cas ∈ kl := by assumption) :
    Kept kb kl bl ko (casQueue g o s) := by
  unfold casQueue
  with_reducible repeat' first
    | assumption
    | (intro sx; refine (have hsx : Kept kb kl bl ko sx := ?_; ?_); on_goal 2 => (try clear_value sx))
    | (intro sx; try clear_value sx)
    | lift_lets
    | apply kept_st_setCasGrp
    | refine Kept.of_mk ?_

theorem kept_casForward {dir : Nat} {leaf : Nat} {_sid : Nat} {h2 : Nat} {p : QPkt} {s : State} (h_s : Kept kb kl bl ko s) (h_p_regs : Part.regs ∈ kl := by assumption) (h_p_free : Part.free ∈ kl := by assumption) (h_p_flt : Part.flt ∈ kl := by assumption) (h_p_cel : Part.cel ∈ kl := by assumption) (h_p_sch : Part.sch ∈ kl := by assumption) (h_p_pipes : Part.pipes ∈ kl := by assumption) (h_p_cas : Part.cas ∈ kl := by assumption) (h_all : ∀ n, n ∈ bl := by assumption) :
    Kept kb kl bl ko (casForward dir leaf _sid h2 p s) := by
  unfold casForward
  have h_b_CFG : blkCFG ∈ bl := h_all _
  have h_b_CLK : blkCLK ∈ bl := h_all _
  have h_b_PWR : blkPWR ∈ bl := h_all _
  have h_b_FLT : blkFLT ∈ bl := h_all _
  have h_b_TSK : blkTSK ∈ bl := h_all _
  have h_b_ACU : blkACU ∈ bl := h_all _
  have h_b_LPH : blkLPH ∈ bl := h_all _
  have h_b_DSF : blkDSF ∈ bl := h_all _
  have h_b_ACT : blkACT ∈ bl := h_all _
  have h_b_UBE : blkUBE ∈ bl := h_all _
  have h_b_CHP : blkCHP ∈ bl := h_all _
  have h_b_PRS : blkPRS ∈ bl := h_all _
  have h_b_CLS : blkCLS ∈ bl := h_all _
  have h_b_FLW : blkFLW ∈ bl := h_all _
  have h_b_SPC : blkSPC ∈ bl := h_all _
  have h_b_CEL : blkCEL ∈ bl := h_all _
  have h_b_SCH : blkSCH ∈ bl := h_all _
  have h_b_GCL : blkGCL ∈ bl := h_all _
  have h_b_CIP : blkCIP ∈ bl := h_all _
  have h_b_KLN : blkKLN ∈ bl := h_all _
  have h_b_MAC : blkMAC ∈ bl := h_all _
  have h_b_TIM : blkTIM ∈ bl := h_all _
  have h_b_OHS : blkOHS ∈ bl := h_all _
  have h_b_CAS : blkCAS ∈ bl := h_all _
  with_reducible repeat' first
    | assumption
    | (refine mem_guard ?_; with_unfolding_all (first | assumption | exact (by assumption : ∀ n, n ∈ bl) _ | exact blk_n (by decide) (by decide) (by assumption) | exact blk_un (by decide) (by decide) (by decide) (by assumption) | exact blk_ite (by assumption) (by assumption) | exact blk_ite (by exact blk_n (by decide) (by decide) (by assumption)) (by exact blk_n (by decide) (by decide) (by assumption))))
    | (refine kept_pair1 (by assumption) ?_)
    | (intro sx; refine (have hsx : Kept kb kl bl ko sx := ?_; ?_); on_goal 2 => (try clear_value sx))
    | (intro sx; refine (have hsx : Kept kb kl bl ko sx.1 := ?_; ?_); on_goal 2 => (try clear_value sx))
    | (intro sx; try clear_value sx)
    | lift_lets
    | apply kept_fltSourceEvent
    | apply kept_st_inc
    | apply kept_placeLeaf
    | apply kept_casQueue
    | apply kept_ite
    | apply kept_ite1
    | split
    | dsimp only [sx]
    | refine Kept.of_mk ?_

theorem kept_casSend {g : Nat} {s : State} (h_s : Kept kb kl bl ko s) (h_p_cas : Part.cas ∈ kl := by assumption) :
    Kept kb kl bl ko (casSend g s) := by
  unfold casSend
  with_reducible repeat' first
    | assumption
    | (intro sx; refine (have hsx : Kept kb kl bl ko sx := ?_; ?_); on_goal 2 => (try clear_value sx))
    | (intro sx; try clear_value sx)
    | lift_lets
    | apply kept_st_setCasGrp
    | apply kept_ite
    | split
    | dsimp only [sx]
    | refine Kept.of_mk ?_

theorem kept_sweepNext {s : State} (h_s : Kept kb kl bl ko s) (h_p_regs : Part.regs ∈ kl := by assumption) (h_p_cls : Part.cls ∈ kl := by assumption) (h_b_CLS : blkCLS ∈ bl := by assumption) :
    Kept kb kl bl ko (sweepNext s) := by
  unfold sweepNext
  with_reducible repeat' first
    | assumption
    | (refine mem_guard ?_; with_unfolding_all (first | assumption | exact (by assumption : ∀ n, n ∈ bl) _ | exact blk_n (by decide) (by decide) (by assumption) | exact blk_un (by decide) (by decide) (by decide) (by assumption) | exact blk_ite (by assumption) (by assumption) | exact blk_ite (by exact blk_n (by decide) (by decide) (by assumption)) (by exact blk_n (by decide) (by decide) (by assumption))))
    | (intro sx; refine (have hsx : Kept kb kl bl ko sx := ?_; ?_); on_goal 2 => (try clear_value sx))
    | (intro sx; try clear_value sx)
    | lift_lets
    | apply kept_st_inc
    | apply kept_st_setRule
    | apply kept_ite
    | refine Kept.of_mk ?_
    | split

theorem kept_sweepUpTo {n : Nat} {s : State} (h_s : Kept kb kl bl ko s) (h_p_regs : Part.regs ∈ kl := by assumption) (h_p_cls : Part.cls ∈ kl := by assumption) (h_b_CLS : blkCLS ∈ bl := by assumption) :
    Kept kb kl bl ko (sweepUpTo n s) := by
  unfold sweepUpTo
  with_reducible repeat' first
    | assumption
    | apply kept_sweepNext
    | (apply kept_foldl; intro sy xy hy)
    | (apply kept_foldl2; intro sy xy hy)
    | (apply kept_foldl1; intro sy xy hy)
    | refine Kept.of_mk ?_

theorem kept_sweepNow {s : State} (h_s : Kept kb kl bl ko s) (h_p_regs : Part.regs ∈ kl := by assumption) (h_p_cls : Part.cls ∈ kl := by assumption) (h_b_CLS : blkCLS ∈ bl := by assumption) :
    Kept kb kl bl ko (sweepNow s) := by
  unfold sweepNow
  with_reducible repeat' first
    | assumption
    | apply kept_sweepUpTo
    | apply kept_ite
    | refine Kept.of_mk ?_
    | split

theorem kept_startSweep {s : State} (h_s : Kept kb kl bl ko s) (h_p_regs : Part.regs ∈ kl := by assumption) (h_p_cls : Part.cls ∈ kl := by assumption) (h_b_CLS : blkCLS ∈ bl := by assumption) :
    Kept kb kl bl ko (startSweep s) := by
  unfold startSweep
  with_reducible repeat' first
    | assumption
    | (refine mem_guard ?_; with_unfolding_all (first | assumption | exact (by assumption : ∀ n, n ∈ bl) _ | exact blk_n (by decide) (by decide) (by assumption) | exact blk_un (by decide) (by decide) (by decide) (by assumption) | exact blk_ite (by assumption) (by assumption) | exact blk_ite (by exact blk_n (by decide) (by decide) (by assumption)) (by exact blk_n (by decide) (by decide) (by assumption))))
    | (intro sx; refine (have hsx : Kept kb kl bl ko sx := ?_; ?_); on_goal 2 => (try clear_value sx))
    | (intro sx; try clear_value sx)
    | lift_lets
    | apply kept_st_put
    | apply kept_ite
    | refine Kept.of_mk ?_
    | split

theorem kept_versionCommit {s : State} (h_s : Kept kb kl bl ko s) (h_p_regs : Part.regs ∈ kl := by assumption) (h_p_shadow : Part.shadow ∈ kl := by assumption) (h_p_cfg : Part.cfg ∈ kl := by assumption) (h_p_gcl : Part.gcl ∈ kl := by assumption) (h_p_cls : Part.cls ∈ kl := by assumption) (h_b_CLS : blkCLS ∈ bl := by assumption) (h_b_GCL : blkGCL ∈ bl := by assumption) : Kept kb kl bl ko (versionCommit s) := by
  unfold versionCommit
  dsimp only
  have h1 : Kept kb kl bl ko ((s.wr CLS_VER_CUR (s.rd CLS_VER_CUR + 1)).put CLS_VER_PENDING false) := kept_st_put (kept_st_wr h_s)
  refine kept_startSweep (kept_st_wr (kept_ite ?_ h1))
  exact kept_swapBank h1

theorem kept_drainFall {v : Nat} {s : State} (h_s : Kept kb kl bl ko s) (h_p_regs : Part.regs ∈ kl := by assumption) (h_p_shadow : Part.shadow ∈ kl := by assumption) (h_p_cfg : Part.cfg ∈ kl := by assumption) (h_p_gcl : Part.gcl ∈ kl := by assumption) (h_p_cls : Part.cls ∈ kl := by assumption) (h_b_CLS : blkCLS ∈ bl := by assumption) (h_b_GCL : blkGCL ∈ bl := by assumption) :
    Kept kb kl bl ko (drainFall v s) := by
  unfold drainFall
  with_reducible repeat' first
    | assumption
    | (refine mem_guard ?_; with_unfolding_all (first | assumption | exact (by assumption : ∀ n, n ∈ bl) _ | exact blk_n (by decide) (by decide) (by assumption) | exact blk_un (by decide) (by decide) (by decide) (by assumption) | exact blk_ite (by assumption) (by assumption) | exact blk_ite (by exact blk_n (by decide) (by decide) (by assumption)) (by exact blk_n (by decide) (by decide) (by assumption))))
    | (intro sx; refine (have hsx : Kept kb kl bl ko sx := ?_; ?_); on_goal 2 => (try clear_value sx))
    | intro sx
    | lift_lets
    | apply kept_sweepNow
    | apply kept_startSweep
    | apply kept_st_wr
    | apply kept_versionCommit
    | apply kept_ite
    | refine Kept.of_mk ?_
    | split

theorem kept_enterPipe {p : PassPkt} {s : State} (h_s : Kept kb kl bl ko s) (h_p_regs : Part.regs ∈ kl := by assumption) (h_p_pipes : Part.pipes ∈ kl := by assumption) (h_b_CLS : blkCLS ∈ bl := by assumption) : Kept kb kl bl ko (enterPipe p s) := by
  unfold enterPipe
  dsimp only
  refine kept_st_setPipe ?_
  split
  · exact h_s
  · exact kept_st_addTo h_s

theorem kept_offerIdle {c : IdleClass} {p : PassPkt} {s : State} (h_s : Kept kb kl bl ko s) (h_p_regs : Part.regs ∈ kl := by assumption) (h_p_pipes : Part.pipes ∈ kl := by assumption) (h_b_PRS : blkPRS ∈ bl := by assumption) :
    Kept kb kl bl ko (offerIdle c p s).1 := by
  unfold offerIdle
  with_reducible repeat' first
    | assumption
    | (refine mem_guard ?_; with_unfolding_all (first | assumption | exact (by assumption : ∀ n, n ∈ bl) _ | exact blk_n (by decide) (by decide) (by assumption) | exact blk_un (by decide) (by decide) (by decide) (by assumption) | exact blk_ite (by assumption) (by assumption) | exact blk_ite (by exact blk_n (by decide) (by decide) (by assumption)) (by exact blk_n (by decide) (by decide) (by assumption))))
    | (intro sx; refine (have hsx : Kept kb kl bl ko sx := ?_; ?_); on_goal 2 => (try clear_value sx))
    | (intro sx; try clear_value sx)
    | lift_lets
    | apply kept_countFor
    | apply kept_st_setPipe
    | apply kept_ite
    | apply kept_ite1
    | apply kept_ite2
    | apply kept_ite21
    | apply kept_ite22
    | refine Kept.of_mk ?_
    | split

theorem kept_writeSlot {e : SlowEntry} {n : Nat} {s : State} (h_s : Kept kb kl bl ko s) (h_p_regs : Part.regs ∈ kl := by assumption) (h_p_mem : Part.mem ∈ kl := by assumption) (h_p_ecc : Part.ecc ∈ kl := by assumption) (h_p_flt : Part.flt ∈ kl := by assumption) (h_b_FLT : blkFLT ∈ bl := by assumption) :
    Kept kb kl bl ko (writeSlot e n s) := by
  unfold writeSlot
  with_reducible repeat' first
    | assumption
    | (intro sx; refine (have hsx : Kept kb kl bl ko sx := ?_; ?_); on_goal 2 => (try clear_value sx))
    | (intro sx; try clear_value sx)
    | lift_lets
    | apply kept_devWrite
    | refine Kept.of_mk ?_

theorem kept_slowWrite {e : SlowEntry} {s : State} (h_s : Kept kb kl bl ko s) (h_p_regs : Part.regs ∈ kl := by assumption) (h_p_mem : Part.mem ∈ kl := by assumption) (h_p_ecc : Part.ecc ∈ kl := by assumption) (h_p_flt : Part.flt ∈ kl := by assumption) (h_b_FLT : blkFLT ∈ bl := by assumption) (h_b_CLS : blkCLS ∈ bl := by assumption) :
    Kept kb kl bl ko (slowWrite e s) := by
  unfold slowWrite
  with_reducible repeat' first
    | assumption
    | (refine mem_guard ?_; with_unfolding_all (first | assumption | exact (by assumption : ∀ n, n ∈ bl) _ | exact blk_n (by decide) (by decide) (by assumption) | exact blk_un (by decide) (by decide) (by decide) (by assumption)))
    | (intro sx; refine (have hsx : Kept kb kl bl ko sx := ?_; ?_); on_goal 2 => (try clear_value sx))
    | (intro sx; try clear_value sx)
    | lift_lets
    | apply kept_writeSlot
    | apply kept_st_wr
    | refine Kept.of_mk ?_

theorem kept_slowNow {x : SlowEntry} {s : State} (h_s : Kept kb kl bl ko s) (h_p_regs : Part.regs ∈ kl := by assumption) (h_p_mem : Part.mem ∈ kl := by assumption) (h_p_ecc : Part.ecc ∈ kl := by assumption) (h_p_flt : Part.flt ∈ kl := by assumption) (h_p_sch : Part.sch ∈ kl := by assumption) (h_b_FLT : blkFLT ∈ bl := by assumption) (h_b_CLS : blkCLS ∈ bl := by assumption) :
    Kept kb kl bl ko (slowNow x s) := by
  unfold slowNow
  with_reducible repeat' first
    | assumption
    | (refine mem_guard ?_; with_unfolding_all (first | assumption | exact (by assumption : ∀ n, n ∈ bl) _ | exact blk_n (by decide) (by decide) (by assumption) | exact blk_un (by decide) (by decide) (by decide) (by assumption)))
    | apply kept_st_inc
    | apply kept_debitPolicer
    | apply kept_slowWrite
    | split
    | refine Kept.of_mk ?_

theorem kept_learnNow {r : LearnReq} {x : SlowEntry} {s : State} (h_s : Kept kb kl bl ko s) (h_p_regs : Part.regs ∈ kl := by assumption) (h_p_mem : Part.mem ∈ kl := by assumption) (h_p_ecc : Part.ecc ∈ kl := by assumption) (h_p_flt : Part.flt ∈ kl := by assumption) (h_p_sch : Part.sch ∈ kl := by assumption) (h_p_flw : Part.flw ∈ kl := by assumption) (h_b_FLT : blkFLT ∈ bl := by assumption) (h_b_CLS : blkCLS ∈ bl := by assumption) (h_b_FLW : blkFLW ∈ bl := by assumption) :
    Kept kb kl bl ko (learnNow r x s) := by
  unfold learnNow
  with_reducible repeat' first
    | assumption
    | (intro sx; refine (have hsx : Kept kb kl bl ko sx := ?_; ?_); on_goal 2 => (try clear_value sx))
    | (intro sx; refine (have hsx : Kept kb kl bl ko sx.1 := ?_; ?_); on_goal 2 => (try clear_value sx))
    | (intro sx; try clear_value sx)
    | lift_lets
    | apply kept_learnRequest
    | apply kept_slowNow
    | apply kept_ite
    | apply kept_ite1
    | refine Kept.of_mk ?_
    | split

theorem kept_applyEff {e : Eff} {s : State} (h_s : Kept kb kl bl ko s) (h_p_regs : Part.regs ∈ kl := by assumption) (h_p_shadow : Part.shadow ∈ kl := by assumption) (h_p_mem : Part.mem ∈ kl := by assumption) (h_p_ecc : Part.ecc ∈ kl := by assumption) (h_p_free : Part.free ∈ kl := by assumption) (h_p_cfg : Part.cfg ∈ kl := by assumption) (h_p_flt : Part.flt ∈ kl := by assumption) (h_p_cel : Part.cel ∈ kl := by assumption) (h_p_sch : Part.sch ∈ kl := by assumption) (h_p_gcl : Part.gcl ∈ kl := by assumption) (h_p_pipes : Part.pipes ∈ kl := by assumption) (h_p_cls : Part.cls ∈ kl := by assumption) (h_p_flw : Part.flw ∈ kl := by assumption) (h_p_cas : Part.cas ∈ kl := by assumption) (h_all : ∀ n, n ∈ bl := by assumption) :
    Kept kb kl bl ko (applyEff e s) := by
  unfold applyEff
  have h_b_CFG : blkCFG ∈ bl := h_all _
  have h_b_CLK : blkCLK ∈ bl := h_all _
  have h_b_PWR : blkPWR ∈ bl := h_all _
  have h_b_FLT : blkFLT ∈ bl := h_all _
  have h_b_TSK : blkTSK ∈ bl := h_all _
  have h_b_ACU : blkACU ∈ bl := h_all _
  have h_b_LPH : blkLPH ∈ bl := h_all _
  have h_b_DSF : blkDSF ∈ bl := h_all _
  have h_b_ACT : blkACT ∈ bl := h_all _
  have h_b_UBE : blkUBE ∈ bl := h_all _
  have h_b_CHP : blkCHP ∈ bl := h_all _
  have h_b_PRS : blkPRS ∈ bl := h_all _
  have h_b_CLS : blkCLS ∈ bl := h_all _
  have h_b_FLW : blkFLW ∈ bl := h_all _
  have h_b_SPC : blkSPC ∈ bl := h_all _
  have h_b_CEL : blkCEL ∈ bl := h_all _
  have h_b_SCH : blkSCH ∈ bl := h_all _
  have h_b_GCL : blkGCL ∈ bl := h_all _
  have h_b_CIP : blkCIP ∈ bl := h_all _
  have h_b_KLN : blkKLN ∈ bl := h_all _
  have h_b_MAC : blkMAC ∈ bl := h_all _
  have h_b_TIM : blkTIM ∈ bl := h_all _
  have h_b_OHS : blkOHS ∈ bl := h_all _
  have h_b_CAS : blkCAS ∈ bl := h_all _
  with_reducible repeat' first
    | assumption
    | (refine mem_guard ?_; with_unfolding_all (first | assumption | exact (by assumption : ∀ n, n ∈ bl) _ | exact blk_n (by decide) (by decide) (by assumption) | exact blk_un (by decide) (by decide) (by decide) (by assumption) | exact blk_ite (by assumption) (by assumption) | exact blk_ite (by exact blk_n (by decide) (by decide) (by assumption)) (by exact blk_n (by decide) (by decide) (by assumption))))
    | (intro sx; refine (have hsx : Kept kb kl bl ko sx := ?_; ?_); on_goal 2 => (try clear_value sx))
    | (intro sx; try clear_value sx)
    | lift_lets
    | apply kept_drainFall
    | apply kept_learnNow
    | apply kept_st_setFlowAt
    | apply kept_st_inc
    | apply kept_debitPolicer
    | apply kept_countFlow
    | apply kept_casForward
    | apply kept_slowWrite
    | apply kept_ite
    | split
    | dsimp only [sx]
    | refine Kept.of_mk ?_

theorem kept_showHeld {i : Nat} {s : State} (h_s : Kept kb kl bl ko s) (h_p_regs : Part.regs ∈ kl := by assumption) (h_b_SPC : blkSPC ∈ bl := by assumption) :
    Kept kb kl bl ko (showHeld i s) := by
  unfold showHeld
  with_reducible repeat' first
    | assumption
    | (refine mem_guard ?_; with_unfolding_all (first | assumption | exact (by assumption : ∀ n, n ∈ bl) _ | exact blk_n (by decide) (by decide) (by assumption) | exact blk_un (by decide) (by decide) (by decide) (by assumption) | exact blk_ite (by assumption) (by assumption) | exact blk_ite (by exact blk_n (by decide) (by decide) (by assumption)) (by exact blk_n (by decide) (by decide) (by assumption))))
    | apply kept_st_wr
    | apply kept_ite
    | refine Kept.of_mk ?_
    | split

theorem kept_openRecord {i : Nat} {spec : Option (Nat × Nat)} {s : State} (h_s : Kept kb kl bl ko s) (h_p_regs : Part.regs ∈ kl := by assumption) (h_p_pipes : Part.pipes ∈ kl := by assumption) (h_b_SPC : blkSPC ∈ bl := by assumption) :
    Kept kb kl bl ko (openRecord i spec s) := by
  unfold openRecord
  with_reducible repeat' first
    | assumption
    | (intro sx; refine (have hsx : Kept kb kl bl ko sx := ?_; ?_); on_goal 2 => (try clear_value sx))
    | (intro sx; try clear_value sx)
    | lift_lets
    | apply kept_showHeld
    | apply kept_st_setPipe
    | split
    | dsimp only [sx]
    | refine Kept.of_mk ?_

theorem kept_emit {spec : Option (Nat × Nat)} {e : Eff} {s : State} (h_s : Kept kb kl bl ko s) (h_p_regs : Part.regs ∈ kl := by assumption) (h_p_shadow : Part.shadow ∈ kl := by assumption) (h_p_mem : Part.mem ∈ kl := by assumption) (h_p_ecc : Part.ecc ∈ kl := by assumption) (h_p_free : Part.free ∈ kl := by assumption) (h_p_cfg : Part.cfg ∈ kl := by assumption) (h_p_flt : Part.flt ∈ kl := by assumption) (h_p_cel : Part.cel ∈ kl := by assumption) (h_p_sch : Part.sch ∈ kl := by assumption) (h_p_gcl : Part.gcl ∈ kl := by assumption) (h_p_pipes : Part.pipes ∈ kl := by assumption) (h_p_cls : Part.cls ∈ kl := by assumption) (h_p_flw : Part.flw ∈ kl := by assumption) (h_p_cas : Part.cas ∈ kl := by assumption) (h_all : ∀ n, n ∈ bl := by assumption) :
    Kept kb kl bl ko (emit spec e s) := by
  unfold emit
  have h_b_CFG : blkCFG ∈ bl := h_all _
  have h_b_CLK : blkCLK ∈ bl := h_all _
  have h_b_PWR : blkPWR ∈ bl := h_all _
  have h_b_FLT : blkFLT ∈ bl := h_all _
  have h_b_TSK : blkTSK ∈ bl := h_all _
  have h_b_ACU : blkACU ∈ bl := h_all _
  have h_b_LPH : blkLPH ∈ bl := h_all _
  have h_b_DSF : blkDSF ∈ bl := h_all _
  have h_b_ACT : blkACT ∈ bl := h_all _
  have h_b_UBE : blkUBE ∈ bl := h_all _
  have h_b_CHP : blkCHP ∈ bl := h_all _
  have h_b_PRS : blkPRS ∈ bl := h_all _
  have h_b_CLS : blkCLS ∈ bl := h_all _
  have h_b_FLW : blkFLW ∈ bl := h_all _
  have h_b_SPC : blkSPC ∈ bl := h_all _
  have h_b_CEL : blkCEL ∈ bl := h_all _
  have h_b_SCH : blkSCH ∈ bl := h_all _
  have h_b_GCL : blkGCL ∈ bl := h_all _
  have h_b_CIP : blkCIP ∈ bl := h_all _
  have h_b_KLN : blkKLN ∈ bl := h_all _
  have h_b_MAC : blkMAC ∈ bl := h_all _
  have h_b_TIM : blkTIM ∈ bl := h_all _
  have h_b_OHS : blkOHS ∈ bl := h_all _
  have h_b_CAS : blkCAS ∈ bl := h_all _
  with_reducible repeat' first
    | assumption
    | apply kept_holdEff
    | apply kept_applyEff
    | split
    | refine Kept.of_mk ?_

theorem kept_emitAll {spec : Option (Nat × Nat)} {l : List Eff} {s : State} (h_s : Kept kb kl bl ko s) (h_p_regs : Part.regs ∈ kl := by assumption) (h_p_shadow : Part.shadow ∈ kl := by assumption) (h_p_mem : Part.mem ∈ kl := by assumption) (h_p_ecc : Part.ecc ∈ kl := by assumption) (h_p_free : Part.free ∈ kl := by assumption) (h_p_cfg : Part.cfg ∈ kl := by assumption) (h_p_flt : Part.flt ∈ kl := by assumption) (h_p_cel : Part.cel ∈ kl := by assumption) (h_p_sch : Part.sch ∈ kl := by assumption) (h_p_gcl : Part.gcl ∈ kl := by assumption) (h_p_pipes : Part.pipes ∈ kl := by assumption) (h_p_cls : Part.cls ∈ kl := by assumption) (h_p_flw : Part.flw ∈ kl := by assumption) (h_p_cas : Part.cas ∈ kl := by assumption) (h_all : ∀ n, n ∈ bl := by assumption) :
    Kept kb kl bl ko (emitAll spec l s) := by
  unfold emitAll
  have h_b_CFG : blkCFG ∈ bl := h_all _
  have h_b_CLK : blkCLK ∈ bl := h_all _
  have h_b_PWR : blkPWR ∈ bl := h_all _
  have h_b_FLT : blkFLT ∈ bl := h_all _
  have h_b_TSK : blkTSK ∈ bl := h_all _
  have h_b_ACU : blkACU ∈ bl := h_all _
  have h_b_LPH : blkLPH ∈ bl := h_all _
  have h_b_DSF : blkDSF ∈ bl := h_all _
  have h_b_ACT : blkACT ∈ bl := h_all _
  have h_b_UBE : blkUBE ∈ bl := h_all _
  have h_b_CHP : blkCHP ∈ bl := h_all _
  have h_b_PRS : blkPRS ∈ bl := h_all _
  have h_b_CLS : blkCLS ∈ bl := h_all _
  have h_b_FLW : blkFLW ∈ bl := h_all _
  have h_b_SPC : blkSPC ∈ bl := h_all _
  have h_b_CEL : blkCEL ∈ bl := h_all _
  have h_b_SCH : blkSCH ∈ bl := h_all _
  have h_b_GCL : blkGCL ∈ bl := h_all _
  have h_b_CIP : blkCIP ∈ bl := h_all _
  have h_b_KLN : blkKLN ∈ bl := h_all _
  have h_b_MAC : blkMAC ∈ bl := h_all _
  have h_b_TIM : blkTIM ∈ bl := h_all _
  have h_b_OHS : blkOHS ∈ bl := h_all _
  have h_b_CAS : blkCAS ∈ bl := h_all _
  with_reducible repeat' first
    | assumption
    | apply kept_emit
    | (apply kept_foldl; intro sy xy hy)
    | (apply kept_foldl2; intro sy xy hy)
    | (apply kept_foldl1; intro sy xy hy)
    | refine Kept.of_mk ?_

theorem kept_slowSend {spec : Option (Nat × Nat)} {x : SlowEntry} {s : State} (h_s : Kept kb kl bl ko s) (h_p_regs : Part.regs ∈ kl := by assumption) (h_p_mem : Part.mem ∈ kl := by assumption) (h_p_ecc : Part.ecc ∈ kl := by assumption) (h_p_flt : Part.flt ∈ kl := by assumption) (h_p_sch : Part.sch ∈ kl := by assumption) (h_p_pipes : Part.pipes ∈ kl := by assumption) (h_b_FLT : blkFLT ∈ bl := by assumption) (h_b_CLS : blkCLS ∈ bl := by assumption) :
    Kept kb kl bl ko (slowSend spec x s) := by
  unfold slowSend
  with_reducible repeat' first
    | assumption
    | (intro sx; refine (have hsx : Kept kb kl bl ko sx := ?_; ?_); on_goal 2 => (try clear_value sx))
    | (intro sx; try clear_value sx)
    | lift_lets
    | apply kept_slowNow
    | apply kept_writeSlot
    | apply kept_holdEff
    | split
    | dsimp only [sx]
    | refine Kept.of_mk ?_

theorem kept_forwardLeaf {dir : Nat} {leaf : Nat} {sid : Nat} {h2 : Nat} {n : Nat} {p : QPkt} {s : State} (h_s : Kept kb kl bl ko s) (h_p_regs : Part.regs ∈ kl := by assumption) (h_p_cel : Part.cel ∈ kl := by assumption) (h_p_sch : Part.sch ∈ kl := by assumption) (h_p_pipes : Part.pipes ∈ kl := by assumption) (h_b_CEL : blkCEL ∈ bl := by assumption) (h_b_SCH : blkSCH ∈ bl := by assumption) :
    Kept kb kl bl ko (forwardLeaf dir leaf sid h2 n p s).1 := by
  unfold forwardLeaf
  with_reducible repeat' first
    | assumption
    | apply kept_placeLeaf
    | apply kept_ite
    | apply kept_ite1
    | apply kept_ite2
    | apply kept_ite21
    | apply kept_ite22
    | refine Kept.of_mk ?_
    | split

theorem kept_bumpId {s : State} (h_s : Kept kb kl bl ko s) (h_p_cel : Part.cel ∈ kl := by assumption) :
    Kept kb kl bl ko (bumpId s) := by
  unfold bumpId
  with_reducible repeat' first
    | assumption
    | refine Kept.of_mk ?_

theorem kept_policeWord {spec : Option (Nat × Nat)} {len : Nat} {a : Colour × Bool × State} {w : Word}
    (h : Kept kb kl bl ko a.2.2) (h_p_regs : Part.regs ∈ kl := by assumption) (h_p_shadow : Part.shadow ∈ kl := by assumption) (h_p_mem : Part.mem ∈ kl := by assumption) (h_p_ecc : Part.ecc ∈ kl := by assumption) (h_p_free : Part.free ∈ kl := by assumption) (h_p_cfg : Part.cfg ∈ kl := by assumption) (h_p_flt : Part.flt ∈ kl := by assumption) (h_p_cel : Part.cel ∈ kl := by assumption) (h_p_sch : Part.sch ∈ kl := by assumption) (h_p_gcl : Part.gcl ∈ kl := by assumption) (h_p_pipes : Part.pipes ∈ kl := by assumption) (h_p_cls : Part.cls ∈ kl := by assumption) (h_p_flw : Part.flw ∈ kl := by assumption) (h_p_cas : Part.cas ∈ kl := by assumption) (h_all : ∀ n, n ∈ bl := by assumption) : Kept kb kl bl ko (policeWord spec len a w).2.2 := kept_emit h

theorem kept_runPolice {spec : Option (Nat × Nat)} {len : Nat} {l : List Word} {s : State} (h_s : Kept kb kl bl ko s) (h_p_regs : Part.regs ∈ kl := by assumption) (h_p_shadow : Part.shadow ∈ kl := by assumption) (h_p_mem : Part.mem ∈ kl := by assumption) (h_p_ecc : Part.ecc ∈ kl := by assumption) (h_p_free : Part.free ∈ kl := by assumption) (h_p_cfg : Part.cfg ∈ kl := by assumption) (h_p_flt : Part.flt ∈ kl := by assumption) (h_p_cel : Part.cel ∈ kl := by assumption) (h_p_sch : Part.sch ∈ kl := by assumption) (h_p_gcl : Part.gcl ∈ kl := by assumption) (h_p_pipes : Part.pipes ∈ kl := by assumption) (h_p_cls : Part.cls ∈ kl := by assumption) (h_p_flw : Part.flw ∈ kl := by assumption) (h_p_cas : Part.cas ∈ kl := by assumption) (h_all : ∀ n, n ∈ bl := by assumption) :
    Kept kb kl bl ko (runPolice spec len l s).2 := by
  have h_b_CFG : blkCFG ∈ bl := h_all _
  have h_b_CLK : blkCLK ∈ bl := h_all _
  have h_b_PWR : blkPWR ∈ bl := h_all _
  have h_b_FLT : blkFLT ∈ bl := h_all _
  have h_b_TSK : blkTSK ∈ bl := h_all _
  have h_b_ACU : blkACU ∈ bl := h_all _
  have h_b_LPH : blkLPH ∈ bl := h_all _
  have h_b_DSF : blkDSF ∈ bl := h_all _
  have h_b_ACT : blkACT ∈ bl := h_all _
  have h_b_UBE : blkUBE ∈ bl := h_all _
  have h_b_CHP : blkCHP ∈ bl := h_all _
  have h_b_PRS : blkPRS ∈ bl := h_all _
  have h_b_CLS : blkCLS ∈ bl := h_all _
  have h_b_FLW : blkFLW ∈ bl := h_all _
  have h_b_SPC : blkSPC ∈ bl := h_all _
  have h_b_CEL : blkCEL ∈ bl := h_all _
  have h_b_SCH : blkSCH ∈ bl := h_all _
  have h_b_GCL : blkGCL ∈ bl := h_all _
  have h_b_CIP : blkCIP ∈ bl := h_all _
  have h_b_KLN : blkKLN ∈ bl := h_all _
  have h_b_MAC : blkMAC ∈ bl := h_all _
  have h_b_TIM : blkTIM ∈ bl := h_all _
  have h_b_OHS : blkOHS ∈ bl := h_all _
  have h_b_CAS : blkCAS ∈ bl := h_all _
  have h : ∀ (l : List Word) (a : Colour × Bool × State), Kept kb kl bl ko a.2.2 →
      Kept kb kl bl ko (l.foldl (policeWord spec len) a).2.2 := by
    intro l
    induction l with
    | nil => exact fun _ h => h
    | cons w t ih => exact fun _ h => ih _ (kept_policeWord h)
  exact h _ _ h_s

theorem kept_runMirrors {p : PassPkt} {bytes : Bytes} {l : List Word} {s : State} (h_s : Kept kb kl bl ko s) (h_p_regs : Part.regs ∈ kl := by assumption) (h_p_shadow : Part.shadow ∈ kl := by assumption) (h_p_mem : Part.mem ∈ kl := by assumption) (h_p_ecc : Part.ecc ∈ kl := by assumption) (h_p_free : Part.free ∈ kl := by assumption) (h_p_cfg : Part.cfg ∈ kl := by assumption) (h_p_flt : Part.flt ∈ kl := by assumption) (h_p_cel : Part.cel ∈ kl := by assumption) (h_p_sch : Part.sch ∈ kl := by assumption) (h_p_gcl : Part.gcl ∈ kl := by assumption) (h_p_pipes : Part.pipes ∈ kl := by assumption) (h_p_cls : Part.cls ∈ kl := by assumption) (h_p_flw : Part.flw ∈ kl := by assumption) (h_p_cas : Part.cas ∈ kl := by assumption) (h_all : ∀ n, n ∈ bl := by assumption) :
    Kept kb kl bl ko (runMirrors p bytes l s) := by
  unfold runMirrors
  have h_b_CFG : blkCFG ∈ bl := h_all _
  have h_b_CLK : blkCLK ∈ bl := h_all _
  have h_b_PWR : blkPWR ∈ bl := h_all _
  have h_b_FLT : blkFLT ∈ bl := h_all _
  have h_b_TSK : blkTSK ∈ bl := h_all _
  have h_b_ACU : blkACU ∈ bl := h_all _
  have h_b_LPH : blkLPH ∈ bl := h_all _
  have h_b_DSF : blkDSF ∈ bl := h_all _
  have h_b_ACT : blkACT ∈ bl := h_all _
  have h_b_UBE : blkUBE ∈ bl := h_all _
  have h_b_CHP : blkCHP ∈ bl := h_all _
  have h_b_PRS : blkPRS ∈ bl := h_all _
  have h_b_CLS : blkCLS ∈ bl := h_all _
  have h_b_FLW : blkFLW ∈ bl := h_all _
  have h_b_SPC : blkSPC ∈ bl := h_all _
  have h_b_CEL : blkCEL ∈ bl := h_all _
  have h_b_SCH : blkSCH ∈ bl := h_all _
  have h_b_GCL : blkGCL ∈ bl := h_all _
  have h_b_CIP : blkCIP ∈ bl := h_all _
  have h_b_KLN : blkKLN ∈ bl := h_all _
  have h_b_MAC : blkMAC ∈ bl := h_all _
  have h_b_TIM : blkTIM ∈ bl := h_all _
  have h_b_OHS : blkOHS ∈ bl := h_all _
  have h_b_CAS : blkCAS ∈ bl := h_all _
  with_reducible repeat' first
    | assumption
    | (intro sx; refine (have hsx : Kept kb kl bl ko sx := ?_; ?_); on_goal 2 => (try clear_value sx))
    | (intro sx; refine (have hsx : Kept kb kl bl ko sx.1 := ?_; ?_); on_goal 2 => (try clear_value sx))
    | (intro sx; try clear_value sx)
    | lift_lets
    | apply kept_emitAll
    | apply kept_placeLeaf
    | apply kept_bumpId
    | apply kept_ite
    | apply kept_ite1
    | (apply kept_foldl; intro sy xy hy)
    | (apply kept_foldl2; intro sy xy hy)
    | (apply kept_foldl1; intro sy xy hy)
    | refine Kept.of_mk ?_
    | split

theorem kept_trackFlow {p : PassPkt} {r : Parsed} {h1 : Nat} {h2 : Nat} {x : SlowEntry} {l : List Word} {s : State} (h_s : Kept kb kl bl ko s) (h_p_regs : Part.regs ∈ kl := by assumption) (h_p_shadow : Part.shadow ∈ kl := by assumption) (h_p_mem : Part.mem ∈ kl := by assumption) (h_p_ecc : Part.ecc ∈ kl := by assumption) (h_p_free : Part.free ∈ kl := by assumption) (h_p_cfg : Part.cfg ∈ kl := by assumption) (h_p_flt : Part.flt ∈ kl := by assumption) (h_p_cel : Part.cel ∈ kl := by assumption) (h_p_sch : Part.sch ∈ kl := by assumption) (h_p_gcl : Part.gcl ∈ kl := by assumption) (h_p_pipes : Part.pipes ∈ kl := by assumption) (h_p_cls : Part.cls ∈ kl := by assumption) (h_p_flw : Part.flw ∈ kl := by assumption) (h_p_cas : Part.cas ∈ kl := by assumption) (h_all : ∀ n, n ∈ bl := by assumption) :
    Kept kb kl bl ko (trackFlow p r h1 h2 x l s).2 := by
  unfold trackFlow
  have h_b_CFG : blkCFG ∈ bl := h_all _
  have h_b_CLK : blkCLK ∈ bl := h_all _
  have h_b_PWR : blkPWR ∈ bl := h_all _
  have h_b_FLT : blkFLT ∈ bl := h_all _
  have h_b_TSK : blkTSK ∈ bl := h_all _
  have h_b_ACU : blkACU ∈ bl := h_all _
  have h_b_LPH : blkLPH ∈ bl := h_all _
  have h_b_DSF : blkDSF ∈ bl := h_all _
  have h_b_ACT : blkACT ∈ bl := h_all _
  have h_b_UBE : blkUBE ∈ bl := h_all _
  have h_b_CHP : blkCHP ∈ bl := h_all _
  have h_b_PRS : blkPRS ∈ bl := h_all _
  have h_b_CLS : blkCLS ∈ bl := h_all _
  have h_b_FLW : blkFLW ∈ bl := h_all _
  have h_b_SPC : blkSPC ∈ bl := h_all _
  have h_b_CEL : blkCEL ∈ bl := h_all _
  have h_b_SCH : blkSCH ∈ bl := h_all _
  have h_b_GCL : blkGCL ∈ bl := h_all _
  have h_b_CIP : blkCIP ∈ bl := h_all _
  have h_b_KLN : blkKLN ∈ bl := h_all _
  have h_b_MAC : blkMAC ∈ bl := h_all _
  have h_b_TIM : blkTIM ∈ bl := h_all _
  have h_b_OHS : blkOHS ∈ bl := h_all _
  have h_b_CAS : blkCAS ∈ bl := h_all _
  with_reducible repeat' first
    | assumption
    | (intro sx; refine (have hsx : Kept kb kl bl ko sx := ?_; ?_); on_goal 2 => (try clear_value sx))
    | (intro sx; try clear_value sx)
    | lift_lets
    | apply kept_emitAll
    | apply kept_emit
    | apply kept_ite
    | apply kept_ite1
    | apply kept_ite2
    | apply kept_ite21
    | apply kept_ite22
    | split
    | dsimp only [sx]
    | refine Kept.of_mk ?_

theorem kept_passForward {p : PassPkt} {h1 : Nat} {h2 : Nat} {ed : Edit} {l : List Word} {s : State} (h_s : Kept kb kl bl ko s) (h_p_regs : Part.regs ∈ kl := by assumption) (h_p_shadow : Part.shadow ∈ kl := by assumption) (h_p_mem : Part.mem ∈ kl := by assumption) (h_p_ecc : Part.ecc ∈ kl := by assumption) (h_p_free : Part.free ∈ kl := by assumption) (h_p_cfg : Part.cfg ∈ kl := by assumption) (h_p_flt : Part.flt ∈ kl := by assumption) (h_p_cel : Part.cel ∈ kl := by assumption) (h_p_sch : Part.sch ∈ kl := by assumption) (h_p_gcl : Part.gcl ∈ kl := by assumption) (h_p_pipes : Part.pipes ∈ kl := by assumption) (h_p_cls : Part.cls ∈ kl := by assumption) (h_p_flw : Part.flw ∈ kl := by assumption) (h_p_cas : Part.cas ∈ kl := by assumption) (h_all : ∀ n, n ∈ bl := by assumption) :
    Kept kb kl bl ko (passForward p h1 h2 ed l s) := by
  unfold passForward
  have h_b_CFG : blkCFG ∈ bl := h_all _
  have h_b_CLK : blkCLK ∈ bl := h_all _
  have h_b_PWR : blkPWR ∈ bl := h_all _
  have h_b_FLT : blkFLT ∈ bl := h_all _
  have h_b_TSK : blkTSK ∈ bl := h_all _
  have h_b_ACU : blkACU ∈ bl := h_all _
  have h_b_LPH : blkLPH ∈ bl := h_all _
  have h_b_DSF : blkDSF ∈ bl := h_all _
  have h_b_ACT : blkACT ∈ bl := h_all _
  have h_b_UBE : blkUBE ∈ bl := h_all _
  have h_b_CHP : blkCHP ∈ bl := h_all _
  have h_b_PRS : blkPRS ∈ bl := h_all _
  have h_b_CLS : blkCLS ∈ bl := h_all _
  have h_b_FLW : blkFLW ∈ bl := h_all _
  have h_b_SPC : blkSPC ∈ bl := h_all _
  have h_b_CEL : blkCEL ∈ bl := h_all _
  have h_b_SCH : blkSCH ∈ bl := h_all _
  have h_b_GCL : blkGCL ∈ bl := h_all _
  have h_b_CIP : blkCIP ∈ bl := h_all _
  have h_b_KLN : blkKLN ∈ bl := h_all _
  have h_b_MAC : blkMAC ∈ bl := h_all _
  have h_b_TIM : blkTIM ∈ bl := h_all _
  have h_b_OHS : blkOHS ∈ bl := h_all _
  have h_b_CAS : blkCAS ∈ bl := h_all _
  with_reducible repeat' first
    | assumption
    | (refine kept_pair1 (by assumption) ?_)
    | (intro sx; refine (have hsx : Kept kb kl bl ko sx := ?_; ?_); on_goal 2 => (try clear_value sx))
    | (intro sx; refine (have hsx : Kept kb kl bl ko sx.1 := ?_; ?_); on_goal 2 => (try clear_value sx))
    | (intro sx; try clear_value sx)
    | lift_lets
    | apply kept_emitAll
    | apply kept_bumpId
    | apply kept_forwardLeaf
    | apply kept_emit
    | apply kept_ite
    | apply kept_ite1
    | split
    | dsimp only [sx]
    | refine Kept.of_mk ?_

theorem kept_passFinish {i : Nat} {p : PassPkt} {r : Parsed} {rule : Nat} {h1 : Nat} {h2 : Nat} {ed : Edit} {l : List Word} {s : State} (h_s : Kept kb kl bl ko s) (h_p_regs : Part.regs ∈ kl := by assumption) (h_p_shadow : Part.shadow ∈ kl := by assumption) (h_p_mem : Part.mem ∈ kl := by assumption) (h_p_ecc : Part.ecc ∈ kl := by assumption) (h_p_free : Part.free ∈ kl := by assumption) (h_p_cfg : Part.cfg ∈ kl := by assumption) (h_p_flt : Part.flt ∈ kl := by assumption) (h_p_cel : Part.cel ∈ kl := by assumption) (h_p_sch : Part.sch ∈ kl := by assumption) (h_p_gcl : Part.gcl ∈ kl := by assumption) (h_p_pipes : Part.pipes ∈ kl := by assumption) (h_p_cls : Part.cls ∈ kl := by assumption) (h_p_flw : Part.flw ∈ kl := by assumption) (h_p_cas : Part.cas ∈ kl := by assumption) (h_all : ∀ n, n ∈ bl := by assumption) :
    Kept kb kl bl ko (passFinish i p r rule h1 h2 ed l s) := by
  unfold passFinish
  have h_b_CFG : blkCFG ∈ bl := h_all _
  have h_b_CLK : blkCLK ∈ bl := h_all _
  have h_b_PWR : blkPWR ∈ bl := h_all _
  have h_b_FLT : blkFLT ∈ bl := h_all _
  have h_b_TSK : blkTSK ∈ bl := h_all _
  have h_b_ACU : blkACU ∈ bl := h_all _
  have h_b_LPH : blkLPH ∈ bl := h_all _
  have h_b_DSF : blkDSF ∈ bl := h_all _
  have h_b_ACT : blkACT ∈ bl := h_all _
  have h_b_UBE : blkUBE ∈ bl := h_all _
  have h_b_CHP : blkCHP ∈ bl := h_all _
  have h_b_PRS : blkPRS ∈ bl := h_all _
  have h_b_CLS : blkCLS ∈ bl := h_all _
  have h_b_FLW : blkFLW ∈ bl := h_all _
  have h_b_SPC : blkSPC ∈ bl := h_all _
  have h_b_CEL : blkCEL ∈ bl := h_all _
  have h_b_SCH : blkSCH ∈ bl := h_all _
  have h_b_GCL : blkGCL ∈ bl := h_all _
  have h_b_CIP : blkCIP ∈ bl := h_all _
  have h_b_KLN : blkKLN ∈ bl := h_all _
  have h_b_MAC : blkMAC ∈ bl := h_all _
  have h_b_TIM : blkTIM ∈ bl := h_all _
  have h_b_OHS : blkOHS ∈ bl := h_all _
  have h_b_CAS : blkCAS ∈ bl := h_all _
  with_reducible repeat' first
    | assumption
    | (refine kept_pair2 (by assumption) ?_)
    | (intro sx; refine (have hsx : Kept kb kl bl ko sx := ?_; ?_); on_goal 2 => (try clear_value sx))
    | (intro sx; refine (have hsx : Kept kb kl bl ko sx.2 := ?_; ?_); on_goal 2 => (try clear_value sx))
    | (intro sx; try clear_value sx)
    | lift_lets
    | apply kept_slowSend
    | apply kept_runPolice
    | apply kept_passForward
    | apply kept_emit
    | apply kept_ite
    | apply kept_ite2
    | split
    | dsimp only [sx]
    | refine Kept.of_mk ?_

theorem kept_passList {i : Nat} {p : PassPkt} {r : Parsed} {rule : Nat} {h1 : Nat} {h2 : Nat} {l : List Word} {s : State} (h_s : Kept kb kl bl ko s) (h_p_regs : Part.regs ∈ kl := by assumption) (h_p_shadow : Part.shadow ∈ kl := by assumption) (h_p_mem : Part.mem ∈ kl := by assumption) (h_p_ecc : Part.ecc ∈ kl := by assumption) (h_p_free : Part.free ∈ kl := by assumption) (h_p_cfg : Part.cfg ∈ kl := by assumption) (h_p_flt : Part.flt ∈ kl := by assumption) (h_p_cel : Part.cel ∈ kl := by assumption) (h_p_sch : Part.sch ∈ kl := by assumption) (h_p_gcl : Part.gcl ∈ kl := by assumption) (h_p_pipes : Part.pipes ∈ kl := by assumption) (h_p_cls : Part.cls ∈ kl := by assumption) (h_p_flw : Part.flw ∈ kl := by assumption) (h_p_cas : Part.cas ∈ kl := by assumption) (h_all : ∀ n, n ∈ bl := by assumption) :
    Kept kb kl bl ko (passList i p r rule h1 h2 l s) := by
  unfold passList
  have h_b_CFG : blkCFG ∈ bl := h_all _
  have h_b_CLK : blkCLK ∈ bl := h_all _
  have h_b_PWR : blkPWR ∈ bl := h_all _
  have h_b_FLT : blkFLT ∈ bl := h_all _
  have h_b_TSK : blkTSK ∈ bl := h_all _
  have h_b_ACU : blkACU ∈ bl := h_all _
  have h_b_LPH : blkLPH ∈ bl := h_all _
  have h_b_DSF : blkDSF ∈ bl := h_all _
  have h_b_ACT : blkACT ∈ bl := h_all _
  have h_b_UBE : blkUBE ∈ bl := h_all _
  have h_b_CHP : blkCHP ∈ bl := h_all _
  have h_b_PRS : blkPRS ∈ bl := h_all _
  have h_b_CLS : blkCLS ∈ bl := h_all _
  have h_b_FLW : blkFLW ∈ bl := h_all _
  have h_b_SPC : blkSPC ∈ bl := h_all _
  have h_b_CEL : blkCEL ∈ bl := h_all _
  have h_b_SCH : blkSCH ∈ bl := h_all _
  have h_b_GCL : blkGCL ∈ bl := h_all _
  have h_b_CIP : blkCIP ∈ bl := h_all _
  have h_b_KLN : blkKLN ∈ bl := h_all _
  have h_b_MAC : blkMAC ∈ bl := h_all _
  have h_b_TIM : blkTIM ∈ bl := h_all _
  have h_b_OHS : blkOHS ∈ bl := h_all _
  have h_b_CAS : blkCAS ∈ bl := h_all _
  with_reducible repeat' first
    | assumption
    | (intro sx; refine (have hsx : Kept kb kl bl ko sx := ?_; ?_); on_goal 2 => (try clear_value sx))
    | (intro sx; refine (have hsx : Kept kb kl bl ko sx.1 := ?_; ?_); on_goal 2 => (try clear_value sx))
    | (intro sx; try clear_value sx)
    | lift_lets
    | apply kept_runMirrors
    | apply kept_emitAll
    | apply kept_passFinish
    | apply kept_slowSend
    | apply kept_emit
    | apply kept_offerIdle
    | apply kept_ite
    | apply kept_ite1
    | (apply kept_foldl; intro sy xy hy)
    | (apply kept_foldl2; intro sy xy hy)
    | (apply kept_foldl1; intro sy xy hy)
    | refine Kept.of_mk ?_
    | split

theorem kept_passActions {i : Nat} {p : PassPkt} {r : Parsed} {s : State} (h_s : Kept kb kl bl ko s) (h_p_regs : Part.regs ∈ kl := by assumption) (h_p_shadow : Part.shadow ∈ kl := by assumption) (h_p_mem : Part.mem ∈ kl := by assumption) (h_p_ecc : Part.ecc ∈ kl := by assumption) (h_p_free : Part.free ∈ kl := by assumption) (h_p_cfg : Part.cfg ∈ kl := by assumption) (h_p_flt : Part.flt ∈ kl := by assumption) (h_p_cel : Part.cel ∈ kl := by assumption) (h_p_sch : Part.sch ∈ kl := by assumption) (h_p_gcl : Part.gcl ∈ kl := by assumption) (h_p_pipes : Part.pipes ∈ kl := by assumption) (h_p_cls : Part.cls ∈ kl := by assumption) (h_p_flw : Part.flw ∈ kl := by assumption) (h_p_cas : Part.cas ∈ kl := by assumption) (h_all : ∀ n, n ∈ bl := by assumption) :
    Kept kb kl bl ko (passActions i p r s) := by
  unfold passActions
  have h_b_CFG : blkCFG ∈ bl := h_all _
  have h_b_CLK : blkCLK ∈ bl := h_all _
  have h_b_PWR : blkPWR ∈ bl := h_all _
  have h_b_FLT : blkFLT ∈ bl := h_all _
  have h_b_TSK : blkTSK ∈ bl := h_all _
  have h_b_ACU : blkACU ∈ bl := h_all _
  have h_b_LPH : blkLPH ∈ bl := h_all _
  have h_b_DSF : blkDSF ∈ bl := h_all _
  have h_b_ACT : blkACT ∈ bl := h_all _
  have h_b_UBE : blkUBE ∈ bl := h_all _
  have h_b_CHP : blkCHP ∈ bl := h_all _
  have h_b_PRS : blkPRS ∈ bl := h_all _
  have h_b_CLS : blkCLS ∈ bl := h_all _
  have h_b_FLW : blkFLW ∈ bl := h_all _
  have h_b_SPC : blkSPC ∈ bl := h_all _
  have h_b_CEL : blkCEL ∈ bl := h_all _
  have h_b_SCH : blkSCH ∈ bl := h_all _
  have h_b_GCL : blkGCL ∈ bl := h_all _
  have h_b_CIP : blkCIP ∈ bl := h_all _
  have h_b_KLN : blkKLN ∈ bl := h_all _
  have h_b_MAC : blkMAC ∈ bl := h_all _
  have h_b_TIM : blkTIM ∈ bl := h_all _
  have h_b_OHS : blkOHS ∈ bl := h_all _
  have h_b_CAS : blkCAS ∈ bl := h_all _
  with_reducible repeat' first
    | assumption
    | (refine kept_pair2 (by assumption) ?_)
    | (intro sx; refine (have hsx : Kept kb kl bl ko sx := ?_; ?_); on_goal 2 => (try clear_value sx))
    | (intro sx; refine (have hsx : Kept kb kl bl ko sx.2 := ?_; ?_); on_goal 2 => (try clear_value sx))
    | (intro sx; try clear_value sx)
    | lift_lets
    | apply kept_emitAll
    | apply kept_passList
    | apply kept_emit
    | apply kept_trackFlow
    | apply kept_ite
    | apply kept_ite2
    | split
    | dsimp only [sx]
    | refine Kept.of_mk ?_

theorem kept_runPass {i : Nat} {p : PassPkt} {s : State} (h_s : Kept kb kl bl ko s) (h_p_regs : Part.regs ∈ kl := by assumption) (h_p_shadow : Part.shadow ∈ kl := by assumption) (h_p_mem : Part.mem ∈ kl := by assumption) (h_p_ecc : Part.ecc ∈ kl := by assumption) (h_p_free : Part.free ∈ kl := by assumption) (h_p_cfg : Part.cfg ∈ kl := by assumption) (h_p_flt : Part.flt ∈ kl := by assumption) (h_p_cel : Part.cel ∈ kl := by assumption) (h_p_sch : Part.sch ∈ kl := by assumption) (h_p_gcl : Part.gcl ∈ kl := by assumption) (h_p_pipes : Part.pipes ∈ kl := by assumption) (h_p_cls : Part.cls ∈ kl := by assumption) (h_p_flw : Part.flw ∈ kl := by assumption) (h_p_cas : Part.cas ∈ kl := by assumption) (h_all : ∀ n, n ∈ bl := by assumption) :
    Kept kb kl bl ko (runPass i p s) := by
  unfold runPass
  have h_b_CFG : blkCFG ∈ bl := h_all _
  have h_b_CLK : blkCLK ∈ bl := h_all _
  have h_b_PWR : blkPWR ∈ bl := h_all _
  have h_b_FLT : blkFLT ∈ bl := h_all _
  have h_b_TSK : blkTSK ∈ bl := h_all _
  have h_b_ACU : blkACU ∈ bl := h_all _
  have h_b_LPH : blkLPH ∈ bl := h_all _
  have h_b_DSF : blkDSF ∈ bl := h_all _
  have h_b_ACT : blkACT ∈ bl := h_all _
  have h_b_UBE : blkUBE ∈ bl := h_all _
  have h_b_CHP : blkCHP ∈ bl := h_all _
  have h_b_PRS : blkPRS ∈ bl := h_all _
  have h_b_CLS : blkCLS ∈ bl := h_all _
  have h_b_FLW : blkFLW ∈ bl := h_all _
  have h_b_SPC : blkSPC ∈ bl := h_all _
  have h_b_CEL : blkCEL ∈ bl := h_all _
  have h_b_SCH : blkSCH ∈ bl := h_all _
  have h_b_GCL : blkGCL ∈ bl := h_all _
  have h_b_CIP : blkCIP ∈ bl := h_all _
  have h_b_KLN : blkKLN ∈ bl := h_all _
  have h_b_MAC : blkMAC ∈ bl := h_all _
  have h_b_TIM : blkTIM ∈ bl := h_all _
  have h_b_OHS : blkOHS ∈ bl := h_all _
  have h_b_CAS : blkCAS ∈ bl := h_all _
  with_reducible repeat' first
    | assumption
    | (refine kept_pair1 (by assumption) ?_)
    | (intro sx; refine (have hsx : Kept kb kl bl ko sx := ?_; ?_); on_goal 2 => (try clear_value sx))
    | (intro sx; refine (have hsx : Kept kb kl bl ko sx.1 := ?_; ?_); on_goal 2 => (try clear_value sx))
    | intro sx
    | lift_lets
    | apply kept_openRecord
    | apply kept_emitAll
    | apply kept_placeLeaf
    | apply kept_slowSend
    | apply kept_bumpId
    | apply kept_passActions
    | apply kept_emit
    | apply kept_ite
    | apply kept_ite1
    | split
    | dsimp only [sx]
    | refine Kept.of_mk ?_

theorem kept_commitSpec {ch : Nat} {x : SpecPkt} {s : State} (h_s : Kept kb kl bl ko s) (h_p_regs : Part.regs ∈ kl := by assumption) (h_p_shadow : Part.shadow ∈ kl := by assumption) (h_p_mem : Part.mem ∈ kl := by assumption) (h_p_ecc : Part.ecc ∈ kl := by assumption) (h_p_free : Part.free ∈ kl := by assumption) (h_p_cfg : Part.cfg ∈ kl := by assumption) (h_p_flt : Part.flt ∈ kl := by assumption) (h_p_cel : Part.cel ∈ kl := by assumption) (h_p_sch : Part.sch ∈ kl := by assumption) (h_p_gcl : Part.gcl ∈ kl := by assumption) (h_p_pipes : Part.pipes ∈ kl := by assumption) (h_p_cls : Part.cls ∈ kl := by assumption) (h_p_flw : Part.flw ∈ kl := by assumption) (h_p_spc : Part.spc ∈ kl := by assumption) (h_p_cas : Part.cas ∈ kl := by assumption) (h_all : ∀ n, n ∈ bl := by assumption) :
    Kept kb kl bl ko (commitSpec ch x s) := by
  unfold commitSpec
  have h_b_CFG : blkCFG ∈ bl := h_all _
  have h_b_CLK : blkCLK ∈ bl := h_all _
  have h_b_PWR : blkPWR ∈ bl := h_all _
  have h_b_FLT : blkFLT ∈ bl := h_all _
  have h_b_TSK : blkTSK ∈ bl := h_all _
  have h_b_ACU : blkACU ∈ bl := h_all _
  have h_b_LPH : blkLPH ∈ bl := h_all _
  have h_b_DSF : blkDSF ∈ bl := h_all _
  have h_b_ACT : blkACT ∈ bl := h_all _
  have h_b_UBE : blkUBE ∈ bl := h_all _
  have h_b_CHP : blkCHP ∈ bl := h_all _
  have h_b_PRS : blkPRS ∈ bl := h_all _
  have h_b_CLS : blkCLS ∈ bl := h_all _
  have h_b_FLW : blkFLW ∈ bl := h_all _
  have h_b_SPC : blkSPC ∈ bl := h_all _
  have h_b_CEL : blkCEL ∈ bl := h_all _
  have h_b_SCH : blkSCH ∈ bl := h_all _
  have h_b_GCL : blkGCL ∈ bl := h_all _
  have h_b_CIP : blkCIP ∈ bl := h_all _
  have h_b_KLN : blkKLN ∈ bl := h_all _
  have h_b_MAC : blkMAC ∈ bl := h_all _
  have h_b_TIM : blkTIM ∈ bl := h_all _
  have h_b_OHS : blkOHS ∈ bl := h_all _
  have h_b_CAS : blkCAS ∈ bl := h_all _
  with_reducible repeat' first
    | assumption
    | (refine mem_guard ?_; with_unfolding_all (first | assumption | exact (by assumption : ∀ n, n ∈ bl) _ | exact blk_n (by decide) (by decide) (by assumption) | exact blk_un (by decide) (by decide) (by decide) (by assumption) | exact blk_ite (by assumption) (by assumption) | exact blk_ite (by exact blk_n (by decide) (by decide) (by assumption)) (by exact blk_n (by decide) (by decide) (by assumption))))
    | (intro sx; refine (have hsx : Kept kb kl bl ko sx := ?_; ?_); on_goal 2 => (try clear_value sx))
    | (intro sx; refine (have hsx : Kept kb kl bl ko sx.2 := ?_; ?_); on_goal 2 => (try clear_value sx))
    | (intro sx; refine (have hsx : Kept kb kl bl ko sx.1 := ?_; ?_); on_goal 2 => (try clear_value sx))
    | intro sx
    | lift_lets
    | apply kept_drainFall
    | apply kept_st_inc
    | apply kept_showHeld
    | apply kept_st_setSpcCh
    | apply kept_st_setPipe
    | apply kept_applyEff
    | apply kept_ite
    | apply kept_ite1
    | apply kept_ite2
    | apply kept_ite21
    | apply kept_ite22
    | (apply kept_foldl; intro sy xy hy)
    | (apply kept_foldl2; intro sy xy hy)
    | (apply kept_foldl1; intro sy xy hy)
    | split
    | dsimp only [sx]
    | refine Kept.of_mk ?_

theorem kept_unlink {f : QPkt → Bool} {s : State} (h_s : Kept kb kl bl ko s) (h_p_regs : Part.regs ∈ kl := by assumption) (h_p_cel : Part.cel ∈ kl := by assumption) (h_p_sch : Part.sch ∈ kl := by assumption) (h_b_CEL : blkCEL ∈ bl := by assumption) :
    Kept kb kl bl ko (unlink f s) := by
  unfold unlink
  with_reducible repeat' first
    | assumption
    | (intro sx; refine (have hsx : Kept kb kl bl ko sx := ?_; ?_); on_goal 2 => (try clear_value sx))
    | (intro sx; refine (have hsx : Kept kb kl bl ko sx.2 := ?_; ?_); on_goal 2 => (try clear_value sx))
    | (intro sx; refine (have hsx : Kept kb kl bl ko sx.1 := ?_; ?_); on_goal 2 => (try clear_value sx))
    | (intro sx; try clear_value sx)
    | lift_lets
    | apply kept_leafTouch
    | apply kept_freeCells
    | apply kept_st_setLq
    | apply kept_ite
    | apply kept_ite1
    | apply kept_ite2
    | apply kept_ite21
    | apply kept_ite22
    | (apply kept_foldl; intro sy xy hy)
    | (apply kept_foldl2; intro sy xy hy)
    | (apply kept_foldl1; intro sy xy hy)
    | refine Kept.of_mk ?_
    | split

theorem kept_squashSpec {ch : Nat} {x : SpecPkt} {s : State} (h_s : Kept kb kl bl ko s) (h_p_regs : Part.regs ∈ kl := by assumption) (h_p_cel : Part.cel ∈ kl := by assumption) (h_p_sch : Part.sch ∈ kl := by assumption) (h_p_pipes : Part.pipes ∈ kl := by assumption) (h_p_spc : Part.spc ∈ kl := by assumption) (h_b_SPC : blkSPC ∈ bl := by assumption) (h_b_CEL : blkCEL ∈ bl := by assumption) :
    Kept kb kl bl ko (squashSpec ch x s) := by
  unfold squashSpec
  with_reducible repeat' first
    | assumption
    | (refine mem_guard ?_; with_unfolding_all (first | assumption | exact (by assumption : ∀ n, n ∈ bl) _ | exact blk_n (by decide) (by decide) (by assumption) | exact blk_un (by decide) (by decide) (by decide) (by assumption)))
    | (intro sx; refine (have hsx : Kept kb kl bl ko sx := ?_; ?_); on_goal 2 => (try clear_value sx))
    | intro sx
    | lift_lets
    | apply kept_st_inc
    | apply kept_showHeld
    | apply kept_unlink
    | apply kept_st_setSpcCh
    | apply kept_st_setPipe
    | refine Kept.of_mk ?_

theorem kept_squashWhere {ch : Nat} {f : SpecPkt → Bool} {s : State} (h_s : Kept kb kl bl ko s) (h_p_regs : Part.regs ∈ kl := by assumption) (h_p_cel : Part.cel ∈ kl := by assumption) (h_p_sch : Part.sch ∈ kl := by assumption) (h_p_pipes : Part.pipes ∈ kl := by assumption) (h_p_spc : Part.spc ∈ kl := by assumption) (h_b_SPC : blkSPC ∈ bl := by assumption) (h_b_CEL : blkCEL ∈ bl := by assumption) :
    Kept kb kl bl ko (squashWhere ch f s) := by
  unfold squashWhere
  with_reducible repeat' first
    | assumption
    | (intro sx; refine (have hsx : Kept kb kl bl ko sx := ?_; ?_); on_goal 2 => (try clear_value sx))
    | (intro sx; try clear_value sx)
    | lift_lets
    | apply kept_squashSpec
    | apply kept_st_setSpcCh
    | (apply kept_foldl; intro sy xy hy)
    | (apply kept_foldl2; intro sy xy hy)
    | (apply kept_foldl1; intro sy xy hy)
    | refine Kept.of_mk ?_

theorem kept_aheadResumes {k : Nat} {s : State} (h_s : Kept kb kl bl ko s) (h_p_spc : Part.spc ∈ kl := by assumption) :
    Kept kb kl bl ko (aheadResumes k s) := by
  unfold aheadResumes
  with_reducible repeat' first
    | assumption
    | apply kept_st_setSpcCh
    | refine Kept.of_mk ?_

theorem kept_squashStream {k : Nat} {sid : Nat} {s : State} (h_s : Kept kb kl bl ko s) (h_p_regs : Part.regs ∈ kl := by assumption) (h_p_cel : Part.cel ∈ kl := by assumption) (h_p_sch : Part.sch ∈ kl := by assumption) (h_p_pipes : Part.pipes ∈ kl := by assumption) (h_p_spc : Part.spc ∈ kl := by assumption) (h_b_SPC : blkSPC ∈ bl := by assumption) (h_b_CEL : blkCEL ∈ bl := by assumption) :
    Kept kb kl bl ko (squashStream k sid s) := by
  unfold squashStream
  with_reducible repeat' first
    | assumption
    | (intro sx; refine (have hsx : Kept kb kl bl ko sx := ?_; ?_); on_goal 2 => (try clear_value sx))
    | (intro sx; try clear_value sx)
    | lift_lets
    | apply kept_aheadResumes
    | apply kept_squashWhere
    | apply kept_ite
    | refine Kept.of_mk ?_
    | split

theorem kept_servoHold {s : State} (h_s : Kept kb kl bl ko s) (h_p_regs : Part.regs ∈ kl := by assumption) (h_p_tim : Part.tim ∈ kl := by assumption) (h_b_TIM : blkTIM ∈ bl := by assumption) :
    Kept kb kl bl ko (servoHold s) := by
  unfold servoHold
  with_reducible repeat' first
    | assumption
    | (refine mem_guard ?_; with_unfolding_all (first | assumption | exact (by assumption : ∀ n, n ∈ bl) _ | exact blk_n (by decide) (by decide) (by assumption) | exact blk_un (by decide) (by decide) (by decide) (by assumption) | exact blk_ite (by assumption) (by assumption) | exact blk_ite (by exact blk_n (by decide) (by decide) (by assumption)) (by exact blk_n (by decide) (by decide) (by assumption))))
    | (intro sx; refine (have hsx : Kept kb kl bl ko sx := ?_; ?_); on_goal 2 => (try clear_value sx))
    | (intro sx; try clear_value sx)
    | lift_lets
    | apply kept_st_put
    | apply kept_st_wr
    | apply kept_ite
    | refine Kept.of_mk ?_
    | split

theorem kept_timPoll {s : State} (h_s : Kept kb kl bl ko s) (h_p_regs : Part.regs ∈ kl := by assumption) (h_p_tim : Part.tim ∈ kl := by assumption) (h_b_TIM : blkTIM ∈ bl := by assumption) :
    Kept kb kl bl ko (timPoll s) := by
  unfold timPoll
  with_reducible repeat' first
    | assumption
    | (refine mem_guard ?_; with_unfolding_all (first | assumption | exact (by assumption : ∀ n, n ∈ bl) _ | exact blk_n (by decide) (by decide) (by assumption) | exact blk_un (by decide) (by decide) (by decide) (by assumption) | exact blk_ite (by assumption) (by assumption) | exact blk_ite (by exact blk_n (by decide) (by decide) (by assumption)) (by exact blk_n (by decide) (by decide) (by assumption))))
    | (intro sx; refine (have hsx : Kept kb kl bl ko sx := ?_; ?_); on_goal 2 => (try clear_value sx))
    | (intro sx; try clear_value sx)
    | lift_lets
    | apply kept_st_put
    | apply kept_servoHold
    | apply kept_st_wr
    | apply kept_ite
    | refine Kept.of_mk ?_
    | split

theorem kept_timCapture {k : Nat} {fc : Nat} {s : State} (h_s : Kept kb kl bl ko s) (h_p_tim : Part.tim ∈ kl := by assumption) :
    Kept kb kl bl ko (timCapture k fc s) := by
  unfold timCapture
  with_reducible repeat' first
    | assumption
    | (intro sx; refine (have hsx : Kept kb kl bl ko sx := ?_; ?_); on_goal 2 => (try clear_value sx))
    | (intro sx; try clear_value sx)
    | lift_lets
    | apply kept_st_setTrx
    | apply kept_ite
    | refine Kept.of_mk ?_
    | split

theorem kept_timEqd {k : Nat} {s : State} (h_s : Kept kb kl bl ko s) (h_p_tim : Part.tim ∈ kl := by assumption) :
    Kept kb kl bl ko (timEqd k s) := by
  unfold timEqd
  with_reducible repeat' first
    | assumption
    | apply kept_ite
    | split
    | refine Kept.of_mk ?_

theorem kept_timHeader {k : Nat} {fc : Nat} {s : State} (h_s : Kept kb kl bl ko s) (h_p_tim : Part.tim ∈ kl := by assumption) :
    Kept kb kl bl ko (timHeader k fc s) := by
  unfold timHeader
  with_reducible repeat' first
    | assumption
    | apply kept_ite
    | split
    | refine Kept.of_mk ?_

theorem kept_timLost {k : Nat} {s : State} (h_s : Kept kb kl bl ko s) (h_p_tim : Part.tim ∈ kl := by assumption) :
    Kept kb kl bl ko (timLost k s) := by
  unfold timLost
  with_reducible repeat' first
    | assumption
    | apply kept_ite
    | refine Kept.of_mk ?_
    | split

theorem kept_gclStepPort {s : State} {p : Nat} (h_s : Kept kb kl bl ko s) (h_p_regs : Part.regs ∈ kl := by assumption) (h_p_shadow : Part.shadow ∈ kl := by assumption) (h_p_cfg : Part.cfg ∈ kl := by assumption) (h_p_gcl : Part.gcl ∈ kl := by assumption) (h_b_GCL : blkGCL ∈ bl := by assumption) :
    Kept kb kl bl ko (gclStepPort s p) := by
  unfold gclStepPort
  with_reducible repeat' first
    | assumption
    | (refine mem_guard ?_; with_unfolding_all (first | assumption | exact (by assumption : ∀ n, n ∈ bl) _ | exact blk_n (by decide) (by decide) (by assumption) | exact blk_un (by decide) (by decide) (by decide) (by assumption) | exact blk_ite (by assumption) (by assumption) | exact blk_ite (by exact blk_n (by decide) (by decide) (by assumption)) (by exact blk_n (by decide) (by decide) (by assumption))))
    | (intro sx; refine (have hsx : Kept kb kl bl ko sx := ?_; ?_); on_goal 2 => (try clear_value sx))
    | intro sx
    | lift_lets
    | apply kept_swapBank
    | apply kept_gclStep
    | apply kept_ite
    | split
    | dsimp only [sx]
    | refine Kept.of_mk ?_

theorem kept_pmCopy {ended : Nat} {s : State} (h_s : Kept kb kl bl ko s) (h_p_regs : Part.regs ∈ kl := by assumption) (h_p_dsf : Part.dsf ∈ kl := by assumption) (h_b_DSF : blkDSF ∈ bl := by assumption) :
    Kept kb kl bl ko (pmCopy ended s) := by
  unfold pmCopy
  with_reducible repeat' first
    | assumption
    | (refine mem_guard ?_; with_unfolding_all (first | assumption | exact (by assumption : ∀ n, n ∈ bl) _ | exact blk_n (by decide) (by decide) (by assumption) | exact blk_un (by decide) (by decide) (by decide) (by assumption)))
    | (intro sx; refine (have hsx : Kept kb kl bl ko sx := ?_; ?_); on_goal 2 => (try clear_value sx))
    | (intro sx; refine (have hsx : Kept kb kl bl ko sx.2 := ?_; ?_); on_goal 2 => (try clear_value sx))
    | (intro sx; refine (have hsx : Kept kb kl bl ko sx.1 := ?_; ?_); on_goal 2 => (try clear_value sx))
    | intro sx
    | lift_lets
    | apply kept_st_setDsfCh
    | apply kept_setReg
    | (apply kept_foldl; intro sy xy hy)
    | (apply kept_foldl2; intro sy xy hy)
    | (apply kept_foldl1; intro sy xy hy)
    | refine Kept.of_mk ?_

theorem kept_markStepped {s : State} (h_s : Kept kb kl bl ko s) (h_p_dsf : Part.dsf ∈ kl := by assumption) :
    Kept kb kl bl ko (markStepped s) := by
  unfold markStepped
  with_reducible repeat' first
    | assumption
    | refine Kept.of_mk ?_

theorem ofTotal_lt (i : Int) : (Tod.ofTotal i).f < secF := by
  have h : (0 : Int) < (secF : Int) := by decide
  have h1 := Int.emod_nonneg i (ne_of_gt h)
  have h2 := Int.emod_lt_of_pos i h
  show (i % (secF : Int)).toNat < secF
  omega

theorem kept_stepTo {t : Tod} {s : State} (h_s : Kept kb kl bl ko s) (ht : t.f < secF) (h_p_regs : Part.regs ∈ kl := by assumption) (h_p_shadow : Part.shadow ∈ kl := by assumption) (h_p_tod : Part.tod ∈ kl := by assumption) (h_p_cfg : Part.cfg ∈ kl := by assumption) (h_p_gcl : Part.gcl ∈ kl := by assumption) (h_p_dsf : Part.dsf ∈ kl := by assumption) (h_b_DSF : blkDSF ∈ bl := by assumption) (h_b_GCL : blkGCL ∈ bl := by assumption) (h_b_TIM : blkTIM ∈ bl := by assumption) : Kept kb kl bl ko (stepTo t s) := by
  have h1 : Kept kb kl bl ko (markStepped { (s.put TIM_EVT_STEP true) with tod := t }) :=
    kept_markStepped ((kept_st_put h_s).of_tod fun _ => ht)
  unfold stepTo
  exact kept_foldl (fun _ _ h => kept_gclStepPort h) (kept_ite h1 (kept_markStepped (kept_pmCopy h1)))

theorem kept_stepBy {d : Int} {s : State} (h_s : Kept kb kl bl ko s) (h_p_regs : Part.regs ∈ kl := by assumption) (h_p_shadow : Part.shadow ∈ kl := by assumption) (h_p_tod : Part.tod ∈ kl := by assumption) (h_p_cfg : Part.cfg ∈ kl := by assumption) (h_p_gcl : Part.gcl ∈ kl := by assumption) (h_p_dsf : Part.dsf ∈ kl := by assumption) (h_b_DSF : blkDSF ∈ bl := by assumption) (h_b_GCL : blkGCL ∈ bl := by assumption) (h_b_TIM : blkTIM ∈ bl := by assumption) : Kept kb kl bl ko (stepBy d s) := by
  unfold stepBy
  exact kept_stepTo h_s (ofTotal_lt _)

theorem kept_markStale {s : State} (h_s : Kept kb kl bl ko s) (h_p_tim : Part.tim ∈ kl := by assumption) :
    Kept kb kl bl ko (markStale s) := by
  unfold markStale
  with_reducible repeat' first
    | assumption
    | refine Kept.of_mk ?_

theorem kept_timLoad {s : State} (h_s : Kept kb kl bl ko s) (h_p_regs : Part.regs ∈ kl := by assumption) (h_p_shadow : Part.shadow ∈ kl := by assumption) (h_p_tod : Part.tod ∈ kl := by assumption) (h_p_cfg : Part.cfg ∈ kl := by assumption) (h_p_gcl : Part.gcl ∈ kl := by assumption) (h_p_dsf : Part.dsf ∈ kl := by assumption) (h_p_tim : Part.tim ∈ kl := by assumption) (h_b_DSF : blkDSF ∈ bl := by assumption) (h_b_GCL : blkGCL ∈ bl := by assumption) (h_b_TIM : blkTIM ∈ bl := by assumption) : Kept kb kl bl ko (timLoad s) := by
  unfold timLoad
  refine kept_stepTo (kept_markStale h_s) ?_
  have h : s.rd TIM_SET_NS_FR < 2 ^ 16 := by
    unfold State.rd fieldOf
    exact Nat.mod_lt _ (by decide)
  have h2 : min 999999999 (s.rd TIM_SET_NS_NS) ≤ 999999999 := Nat.min_le_left _ _
  show min 999999999 (s.rd TIM_SET_NS_NS) * 2 ^ 48 + s.rd TIM_SET_NS_FR * 2 ^ 32 < 1000000000 * 2 ^ 48
  generalize min 999999999 (s.rd TIM_SET_NS_NS) = x at *
  generalize s.rd TIM_SET_NS_FR = y at *
  omega

theorem kept_timStep {s : State} (h_s : Kept kb kl bl ko s) (h_p_regs : Part.regs ∈ kl := by assumption) (h_p_shadow : Part.shadow ∈ kl := by assumption) (h_p_tod : Part.tod ∈ kl := by assumption) (h_p_cfg : Part.cfg ∈ kl := by assumption) (h_p_gcl : Part.gcl ∈ kl := by assumption) (h_p_dsf : Part.dsf ∈ kl := by assumption) (h_p_tim : Part.tim ∈ kl := by assumption) (h_b_DSF : blkDSF ∈ bl := by assumption) (h_b_GCL : blkGCL ∈ bl := by assumption) (h_b_TIM : blkTIM ∈ bl := by assumption) :
    Kept kb kl bl ko (timStep s) := by
  unfold timStep
  with_reducible repeat' first
    | assumption
    | apply kept_stepBy
    | apply kept_markStale
    | refine Kept.of_mk ?_

theorem kept_showSample {e : Int} {s : State} (h_s : Kept kb kl bl ko s) (h_p_regs : Part.regs ∈ kl := by assumption) (h_b_TIM : blkTIM ∈ bl := by assumption) :
    Kept kb kl bl ko (showSample e s) := by
  unfold showSample
  with_reducible repeat' first
    | assumption
    | (refine mem_guard ?_; with_unfolding_all (first | assumption | exact (by assumption : ∀ n, n ∈ bl) _ | exact blk_n (by decide) (by decide) (by assumption) | exact blk_un (by decide) (by decide) (by decide) (by assumption)))
    | apply kept_st_wr
    | refine Kept.of_mk ?_

theorem kept_servoPi {e : Int} {s : State} (h_s : Kept kb kl bl ko s) (h_p_regs : Part.regs ∈ kl := by assumption) (h_b_TIM : blkTIM ∈ bl := by assumption) :
    Kept kb kl bl ko (servoPi e s) := by
  unfold servoPi
  with_reducible repeat' first
    | assumption
    | (refine mem_guard ?_; with_unfolding_all (first | assumption | exact (by assumption : ∀ n, n ∈ bl) _ | exact blk_n (by decide) (by decide) (by assumption) | exact blk_un (by decide) (by decide) (by decide) (by assumption)))
    | (intro sx; refine (have hsx : Kept kb kl bl ko sx := ?_; ?_); on_goal 2 => (try clear_value sx))
    | (intro sx; try clear_value sx)
    | lift_lets
    | apply kept_st_wr
    | refine Kept.of_mk ?_

theorem kept_servoSample {e : Int} {s : State} (h_s : Kept kb kl bl ko s) (h_p_regs : Part.regs ∈ kl := by assumption) (h_p_shadow : Part.shadow ∈ kl := by assumption) (h_p_tod : Part.tod ∈ kl := by assumption) (h_p_cfg : Part.cfg ∈ kl := by assumption) (h_p_gcl : Part.gcl ∈ kl := by assumption) (h_p_dsf : Part.dsf ∈ kl := by assumption) (h_p_tim : Part.tim ∈ kl := by assumption) (h_b_DSF : blkDSF ∈ bl := by assumption) (h_b_GCL : blkGCL ∈ bl := by assumption) (h_b_TIM : blkTIM ∈ bl := by assumption) :
    Kept kb kl bl ko (servoSample e s) := by
  unfold servoSample
  with_reducible repeat' first
    | assumption
    | (refine mem_guard ?_; with_unfolding_all (first | assumption | exact (by assumption : ∀ n, n ∈ bl) _ | exact blk_n (by decide) (by decide) (by assumption) | exact blk_un (by decide) (by decide) (by decide) (by assumption) | exact blk_ite (by assumption) (by assumption) | exact blk_ite (by exact blk_n (by decide) (by decide) (by assumption)) (by exact blk_n (by decide) (by decide) (by assumption))))
    | (intro sx; refine (have hsx : Kept kb kl bl ko sx := ?_; ?_); on_goal 2 => (try clear_value sx))
    | (intro sx; try clear_value sx)
    | lift_lets
    | apply kept_stepBy
    | apply kept_showSample
    | apply kept_st_inc
    | apply kept_st_put
    | apply kept_servoPi
    | apply kept_st_wr
    | apply kept_ite
    | refine Kept.of_mk ?_
    | split

theorem kept_sampleFrom {stale : Bool} {e : Int} {s : State} (h_s : Kept kb kl bl ko s) (h_p_regs : Part.regs ∈ kl := by assumption) (h_p_shadow : Part.shadow ∈ kl := by assumption) (h_p_tod : Part.tod ∈ kl := by assumption) (h_p_cfg : Part.cfg ∈ kl := by assumption) (h_p_gcl : Part.gcl ∈ kl := by assumption) (h_p_dsf : Part.dsf ∈ kl := by assumption) (h_p_tim : Part.tim ∈ kl := by assumption) (h_b_DSF : blkDSF ∈ bl := by assumption) (h_b_GCL : blkGCL ∈ bl := by assumption) (h_b_TIM : blkTIM ∈ bl := by assumption) :
    Kept kb kl bl ko (sampleFrom stale e s) := by
  unfold sampleFrom
  with_reducible repeat' first
    | assumption
    | (refine mem_guard ?_; with_unfolding_all (first | assumption | exact (by assumption : ∀ n, n ∈ bl) _ | exact blk_n (by decide) (by decide) (by assumption) | exact blk_un (by decide) (by decide) (by decide) (by assumption) | exact blk_ite (by assumption) (by assumption) | exact blk_ite (by exact blk_n (by decide) (by decide) (by assumption)) (by exact blk_n (by decide) (by decide) (by assumption))))
    | apply kept_servoSample
    | apply kept_st_inc
    | apply kept_ite
    | refine Kept.of_mk ?_
    | split

theorem kept_sampleTimeout {s : State} (h_s : Kept kb kl bl ko s) (h_p_regs : Part.regs ∈ kl := by assumption) (h_p_tim : Part.tim ∈ kl := by assumption) (h_b_TIM : blkTIM ∈ bl := by assumption) :
    Kept kb kl bl ko (sampleTimeout s) := by
  unfold sampleTimeout
  with_reducible repeat' first
    | assumption
    | apply kept_servoHold
    | refine Kept.of_mk ?_

theorem kept_holdoverEnds {s : State} (h_s : Kept kb kl bl ko s) (h_p_regs : Part.regs ∈ kl := by assumption) (h_b_TIM : blkTIM ∈ bl := by assumption) :
    Kept kb kl bl ko (holdoverEnds s) := by
  unfold holdoverEnds
  with_reducible repeat' first
    | assumption
    | (refine mem_guard ?_; with_unfolding_all (first | assumption | exact (by assumption : ∀ n, n ∈ bl) _ | exact blk_n (by decide) (by decide) (by assumption) | exact blk_un (by decide) (by decide) (by decide) (by assumption) | exact blk_ite (by assumption) (by assumption) | exact blk_ite (by exact blk_n (by decide) (by decide) (by assumption)) (by exact blk_n (by decide) (by decide) (by assumption))))
    | apply kept_st_put
    | apply kept_st_wr
    | apply kept_ite
    | refine Kept.of_mk ?_
    | split

theorem kept_timeOfDay {k : Nat} {m : Bytes} {s : State} (h_s : Kept kb kl bl ko s) (h_p_regs : Part.regs ∈ kl := by assumption) (h_p_shadow : Part.shadow ∈ kl := by assumption) (h_p_tod : Part.tod ∈ kl := by assumption) (h_p_cfg : Part.cfg ∈ kl := by assumption) (h_p_gcl : Part.gcl ∈ kl := by assumption) (h_p_dsf : Part.dsf ∈ kl := by assumption) (h_p_tim : Part.tim ∈ kl := by assumption) (h_b_DSF : blkDSF ∈ bl := by assumption) (h_b_GCL : blkGCL ∈ bl := by assumption) (h_b_TIM : blkTIM ∈ bl := by assumption) :
    Kept kb kl bl ko (timeOfDay k m s) := by
  unfold timeOfDay
  with_reducible repeat' first
    | assumption
    | (refine mem_guard ?_; with_unfolding_all (first | assumption | exact (by assumption : ∀ n, n ∈ bl) _ | exact blk_n (by decide) (by decide) (by assumption) | exact blk_un (by decide) (by decide) (by decide) (by assumption) | exact blk_ite (by assumption) (by assumption) | exact blk_ite (by exact blk_n (by decide) (by decide) (by assumption)) (by exact blk_n (by decide) (by decide) (by assumption))))
    | (intro sx; refine (have hsx : Kept kb kl bl ko sx := ?_; ?_); on_goal 2 => (try clear_value sx))
    | intro sx
    | lift_lets
    | apply kept_st_inc
    | apply kept_st_setTimLine
    | apply kept_sampleFrom
    | apply kept_ite
    | split
    | dsimp only [sx]
    | refine Kept.of_mk ?_

theorem kept_secondBoundary {s : State} (h_s : Kept kb kl bl ko s) (h_p_regs : Part.regs ∈ kl := by assumption) (h_p_dsf : Part.dsf ∈ kl := by assumption) (h_p_tim : Part.tim ∈ kl := by assumption) (h_b_DSF : blkDSF ∈ bl := by assumption) :
    Kept kb kl bl ko (secondBoundary s) := by
  unfold secondBoundary
  with_reducible repeat' first
    | assumption
    | (intro sx; refine (have hsx : Kept kb kl bl ko sx := ?_; ?_); on_goal 2 => (try clear_value sx))
    | (intro sx; try clear_value sx)
    | lift_lets
    | apply kept_pmCopy
    | apply kept_ite
    | refine Kept.of_mk ?_
    | split

theorem kept_ppsCount {t0 : Int} {t1 : Int} {s : State} (h_s : Kept kb kl bl ko s) (h_p_tim : Part.tim ∈ kl := by assumption) :
    Kept kb kl bl ko (ppsCount t0 t1 s) := by
  unfold ppsCount
  with_reducible repeat' first
    | assumption
    | (intro sx; refine (have hsx : Kept kb kl bl ko sx := ?_; ?_); on_goal 2 => (try clear_value sx))
    | (intro sx; try clear_value sx)
    | lift_lets
    | apply kept_ite
    | refine Kept.of_mk ?_
    | split

theorem kept_countOn {n d : Nat} {s : State} (h_s : Kept kb kl bl ko s) (hd : kb = true → s.tod.f + d < 2 * secF) (h_p_regs : Part.regs ∈ kl := by assumption) (h_p_ticks : Part.ticks ∈ kl := by assumption) (h_p_tod : Part.tod ∈ kl := by assumption) (h_p_dsf : Part.dsf ∈ kl := by assumption) (h_p_tim : Part.tim ∈ kl := by assumption) (h_b_DSF : blkDSF ∈ bl := by assumption) : Kept kb kl bl ko (countOn n d s) := by
  have h1 : Kept kb kl bl ko { s with ticks := s.ticks + n } := Kept.of_mk h_s
  unfold countOn
  dsimp only
  split
  · rename_i h
    exact kept_ppsCount (h1.of_tod fun _ => h)
  · refine kept_ppsCount (kept_secondBoundary (kept_ppsCount (h1.of_tod fun b => ?_)))
    have := hd b
    show s.tod.f + d - secF < secF
    omega

theorem clockStep_lt (s : State) : clockStep s < secF := by
  have h : timRate s < 2 ^ 31 := by
    unfold timRate signed
    dsimp only
    split <;> omega
  unfold clockStep secF
  generalize timRate s = r at *
  omega

theorem kept_clockTick {s : State} (h_s : Kept kb kl bl ko s) (h_p_regs : Part.regs ∈ kl := by assumption) (h_p_ticks : Part.ticks ∈ kl := by assumption) (h_p_tod : Part.tod ∈ kl := by assumption) (h_p_dsf : Part.dsf ∈ kl := by assumption) (h_p_tim : Part.tim ∈ kl := by assumption) (h_b_DSF : blkDSF ∈ bl := by assumption) : Kept kb kl bl ko (clockTick s) := by
  refine kept_countOn h_s fun b => ?_
  have hd : clockStep s < secF := clockStep_lt s
  have hf : s.tod.f < secF := (h_s.1 b).2.2.2.1
  omega

theorem kept_countToBoundary {s : State} (h_s : Kept kb kl bl ko s) (h_p_regs : Part.regs ∈ kl := by assumption) (h_p_ticks : Part.ticks ∈ kl := by assumption) (h_p_tod : Part.tod ∈ kl := by assumption) (h_p_dsf : Part.dsf ∈ kl := by assumption) (h_p_tim : Part.tim ∈ kl := by assumption) (h_b_DSF : blkDSF ∈ bl := by assumption) : Kept kb kl bl ko (countToBoundary s) := by
  refine kept_countOn h_s fun b => ?_
  have hd : clockStep s < secF := clockStep_lt s
  have hf : s.tod.f < secF := (h_s.1 b).2.2.2.1
  have h2 : max 1 (clockStep s) ≤ secF := Nat.max_le.2 ⟨by decide, hd.le⟩
  have h3 := Nat.div_mul_le_self (secF - s.tod.f + max 1 (clockStep s) - 1) (max 1 (clockStep s))
  generalize (secF - s.tod.f + max 1 (clockStep s) - 1) / max 1 (clockStep s) * max 1 (clockStep s) = q at *
  have h1 : 1 ≤ max 1 (clockStep s) := Nat.le_max_left _ _
  generalize max 1 (clockStep s) = d at *
  omega

theorem kept_ppsFall {s : State} (h_s : Kept kb kl bl ko s) (h_p_tim : Part.tim ∈ kl := by assumption) :
    Kept kb kl bl ko (ppsFall s) := by
  unfold ppsFall
  with_reducible repeat' first
    | assumption
    | refine Kept.of_mk ?_

theorem kept_ppsSample {e : PpsEdge} {r : Nat} {s : State} (h_s : Kept kb kl bl ko s) (h_p_regs : Part.regs ∈ kl := by assumption) (h_p_shadow : Part.shadow ∈ kl := by assumption) (h_p_tod : Part.tod ∈ kl := by assumption) (h_p_cfg : Part.cfg ∈ kl := by assumption) (h_p_gcl : Part.gcl ∈ kl := by assumption) (h_p_dsf : Part.dsf ∈ kl := by assumption) (h_p_tim : Part.tim ∈ kl := by assumption) (h_b_DSF : blkDSF ∈ bl := by assumption) (h_b_GCL : blkGCL ∈ bl := by assumption) (h_b_TIM : blkTIM ∈ bl := by assumption) :
    Kept kb kl bl ko (ppsSample e r s) := by
  unfold ppsSample
  with_reducible repeat' first
    | assumption
    | apply kept_sampleFrom
    | apply kept_ite
    | refine Kept.of_mk ?_
    | split

theorem kept_ppsEdge {s : State} (h_s : Kept kb kl bl ko s) (h_p_regs : Part.regs ∈ kl := by assumption) (h_p_tim : Part.tim ∈ kl := by assumption) (h_b_TIM : blkTIM ∈ bl := by assumption) :
    Kept kb kl bl ko (ppsEdge s) := by
  unfold ppsEdge
  with_reducible repeat' first
    | assumption
    | (refine mem_guard ?_; with_unfolding_all (first | assumption | exact (by assumption : ∀ n, n ∈ bl) _ | exact blk_n (by decide) (by decide) (by assumption) | exact blk_un (by decide) (by decide) (by decide) (by assumption) | exact blk_ite (by assumption) (by assumption) | exact blk_ite (by exact blk_n (by decide) (by decide) (by assumption)) (by exact blk_n (by decide) (by decide) (by assumption))))
    | (intro sx; refine (have hsx : Kept kb kl bl ko sx := ?_; ?_); on_goal 2 => (try clear_value sx))
    | (intro sx; try clear_value sx)
    | lift_lets
    | apply kept_st_inc
    | apply kept_setReg
    | apply kept_ite
    | refine Kept.of_mk ?_
    | split

theorem kept_ppsWaitEnds {s : State} (h_s : Kept kb kl bl ko s) (h_p_regs : Part.regs ∈ kl := by assumption) (h_p_shadow : Part.shadow ∈ kl := by assumption) (h_p_tod : Part.tod ∈ kl := by assumption) (h_p_cfg : Part.cfg ∈ kl := by assumption) (h_p_gcl : Part.gcl ∈ kl := by assumption) (h_p_dsf : Part.dsf ∈ kl := by assumption) (h_p_tim : Part.tim ∈ kl := by assumption) (h_b_DSF : blkDSF ∈ bl := by assumption) (h_b_GCL : blkGCL ∈ bl := by assumption) (h_b_TIM : blkTIM ∈ bl := by assumption) :
    Kept kb kl bl ko (ppsWaitEnds s) := by
  unfold ppsWaitEnds
  with_reducible repeat' first
    | assumption
    | apply kept_ppsSample
    | split
    | refine Kept.of_mk ?_

theorem kept_todIn {m : Bytes} {s : State} (h_s : Kept kb kl bl ko s) (h_p_regs : Part.regs ∈ kl := by assumption) (h_p_shadow : Part.shadow ∈ kl := by assumption) (h_p_tod : Part.tod ∈ kl := by assumption) (h_p_cfg : Part.cfg ∈ kl := by assumption) (h_p_gcl : Part.gcl ∈ kl := by assumption) (h_p_dsf : Part.dsf ∈ kl := by assumption) (h_p_tim : Part.tim ∈ kl := by assumption) (h_b_DSF : blkDSF ∈ bl := by assumption) (h_b_GCL : blkGCL ∈ bl := by assumption) (h_b_TIM : blkTIM ∈ bl := by assumption) :
    Kept kb kl bl ko (todIn m s) := by
  unfold todIn
  with_reducible repeat' first
    | assumption
    | (refine mem_guard ?_; with_unfolding_all (first | assumption | exact (by assumption : ∀ n, n ∈ bl) _ | exact blk_n (by decide) (by decide) (by assumption) | exact blk_un (by decide) (by decide) (by decide) (by assumption) | exact blk_ite (by assumption) (by assumption) | exact blk_ite (by exact blk_n (by decide) (by decide) (by assumption)) (by exact blk_n (by decide) (by decide) (by assumption))))
    | (intro sx; refine (have hsx : Kept kb kl bl ko sx := ?_; ?_); on_goal 2 => (try clear_value sx))
    | (intro sx; try clear_value sx)
    | lift_lets
    | apply kept_ppsSample
    | apply kept_st_inc
    | apply kept_setReg
    | apply kept_ite
    | (apply kept_foldl; intro sy xy hy)
    | (apply kept_foldl2; intro sy xy hy)
    | (apply kept_foldl1; intro sy xy hy)
    | refine Kept.of_mk ?_
    | split

theorem kept_todSend {s : State} (h_s : Kept kb kl bl ko s) (h_p_tim : Part.tim ∈ kl := by assumption) :
    Kept kb kl bl ko (todSend s) := by
  unfold todSend
  with_reducible repeat' first
    | assumption
    | (intro sx; refine (have hsx : Kept kb kl bl ko sx := ?_; ?_); on_goal 2 => (try clear_value sx))
    | (intro sx; try clear_value sx)
    | lift_lets
    | apply kept_ite
    | split
    | dsimp only [sx]
    | refine Kept.of_mk ?_

theorem kept_tpllHoldover {s : State} (h_s : Kept kb kl bl ko s) (h_p_regs : Part.regs ∈ kl := by assumption) (h_b_TIM : blkTIM ∈ bl := by assumption) :
    Kept kb kl bl ko (tpllHoldover s) := by
  unfold tpllHoldover
  with_reducible repeat' first
    | assumption
    | (refine mem_guard ?_; with_unfolding_all (first | assumption | exact (by assumption : ∀ n, n ∈ bl) _ | exact blk_n (by decide) (by decide) (by assumption) | exact blk_un (by decide) (by decide) (by decide) (by assumption) | exact blk_ite (by assumption) (by assumption) | exact blk_ite (by exact blk_n (by decide) (by decide) (by assumption)) (by exact blk_n (by decide) (by decide) (by assumption))))
    | apply kept_st_put
    | apply kept_ite
    | refine Kept.of_mk ?_
    | split

theorem kept_tpllExit {s : State} (h_s : Kept kb kl bl ko s) (h_p_regs : Part.regs ∈ kl := by assumption) (h_b_TIM : blkTIM ∈ bl := by assumption) :
    Kept kb kl bl ko (tpllExit s) := by
  unfold tpllExit
  with_reducible repeat' first
    | assumption
    | (refine mem_guard ?_; with_unfolding_all (first | assumption | exact (by assumption : ∀ n, n ∈ bl) _ | exact blk_n (by decide) (by decide) (by assumption) | exact blk_un (by decide) (by decide) (by decide) (by assumption) | exact blk_ite (by assumption) (by assumption) | exact blk_ite (by exact blk_n (by decide) (by decide) (by assumption)) (by exact blk_n (by decide) (by decide) (by assumption))))
    | apply kept_st_put
    | apply kept_ite
    | refine Kept.of_mk ?_
    | split

theorem kept_showTsq {p : Nat} {s : State} (h_s : Kept kb kl bl ko s) (h_p_regs : Part.regs ∈ kl := by assumption) (h_b_TIM : blkTIM ∈ bl := by assumption) :
    Kept kb kl bl ko (showTsq p s) := by
  unfold showTsq
  with_reducible repeat' first
    | assumption
    | (refine mem_guard ?_; with_unfolding_all (first | assumption | exact (by assumption : ∀ n, n ∈ bl) _ | exact blk_n (by decide) (by decide) (by assumption) | exact blk_un (by decide) (by decide) (by decide) (by assumption)))
    | (intro sx; refine (have hsx : Kept kb kl bl ko sx := ?_; ?_); on_goal 2 => (try clear_value sx))
    | (intro sx; try clear_value sx)
    | lift_lets
    | apply kept_st_wr
    | apply kept_setReg
    | split
    | dsimp only [sx]
    | refine Kept.of_mk ?_

theorem kept_tsqPush {p : Nat} {e : TsqEntry} {s : State} (h_s : Kept kb kl bl ko s) (h_p_regs : Part.regs ∈ kl := by assumption) (h_p_tim : Part.tim ∈ kl := by assumption) (h_b_TIM : blkTIM ∈ bl := by assumption) :
    Kept kb kl bl ko (tsqPush p e s) := by
  unfold tsqPush
  with_reducible repeat' first
    | assumption
    | (refine mem_guard ?_; with_unfolding_all (first | assumption | exact (by assumption : ∀ n, n ∈ bl) _ | exact blk_n (by decide) (by decide) (by assumption) | exact blk_un (by decide) (by decide) (by decide) (by assumption) | exact blk_ite (by assumption) (by assumption) | exact blk_ite (by exact blk_n (by decide) (by decide) (by assumption)) (by exact blk_n (by decide) (by decide) (by assumption))))
    | (intro sx; refine (have hsx : Kept kb kl bl ko sx := ?_; ?_); on_goal 2 => (try clear_value sx))
    | (intro sx; try clear_value sx)
    | lift_lets
    | apply kept_st_setTsqOf
    | apply kept_st_inc
    | apply kept_st_put
    | apply kept_showTsq
    | apply kept_st_wr
    | apply kept_ite
    | refine Kept.of_mk ?_
    | split

theorem kept_tsqPop {p : Nat} {s : State} (h_s : Kept kb kl bl ko s) (h_p_regs : Part.regs ∈ kl := by assumption) (h_p_tim : Part.tim ∈ kl := by assumption) (h_b_TIM : blkTIM ∈ bl := by assumption) :
    Kept kb kl bl ko (tsqPop p s) := by
  unfold tsqPop
  with_reducible repeat' first
    | assumption
    | apply kept_st_setTsqOf
    | apply kept_showTsq
    | refine Kept.of_mk ?_

theorem kept_tsqClear {p : Nat} {s : State} (h_s : Kept kb kl bl ko s) (h_p_regs : Part.regs ∈ kl := by assumption) (h_b_TIM : blkTIM ∈ bl := by assumption) :
    Kept kb kl bl ko (tsqClear p s) := by
  unfold tsqClear
  with_reducible repeat' first
    | assumption
    | (refine mem_guard ?_; with_unfolding_all (first | assumption | exact (by assumption : ∀ n, n ∈ bl) _ | exact blk_n (by decide) (by decide) (by assumption) | exact blk_un (by decide) (by decide) (by decide) (by assumption)))
    | apply kept_st_wr
    | apply kept_setReg
    | (apply kept_foldl; intro sy xy hy)
    | (apply kept_foldl2; intro sy xy hy)
    | (apply kept_foldl1; intro sy xy hy)
    | refine Kept.of_mk ?_

theorem kept_timWrite {a : Nat} {v : Word} {s : State} (h_s : Kept kb kl bl ko s) (h_p_regs : Part.regs ∈ kl := by assumption) (h_p_shadow : Part.shadow ∈ kl := by assumption) (h_p_tod : Part.tod ∈ kl := by assumption) (h_p_cfg : Part.cfg ∈ kl := by assumption) (h_p_gcl : Part.gcl ∈ kl := by assumption) (h_p_dsf : Part.dsf ∈ kl := by assumption) (h_p_tim : Part.tim ∈ kl := by assumption) (h_b_DSF : blkDSF ∈ bl := by assumption) (h_b_GCL : blkGCL ∈ bl := by assumption) (h_b_TIM : blkTIM ∈ bl := by assumption) :
    Kept kb kl bl ko (timWrite a v s) := by
  unfold timWrite
  with_reducible repeat' first
    | assumption
    | (intro sx; refine (have hsx : Kept kb kl bl ko sx := ?_; ?_); on_goal 2 => (try clear_value sx))
    | (intro sx; try clear_value sx)
    | lift_lets
    | apply kept_timPoll
    | apply kept_servoSample
    | apply kept_timLoad
    | apply kept_timStep
    | apply kept_tsqPop
    | apply kept_servoHold
    | apply kept_tsqClear
    | apply kept_ite
    | refine Kept.of_mk ?_
    | split

theorem kept_todLatch {s : State} (h_s : Kept kb kl bl ko s) (h_p_regs : Part.regs ∈ kl := by assumption) (h_b_TIM : blkTIM ∈ bl := by assumption) :
    Kept kb kl bl ko (todLatch s) := by
  unfold todLatch
  with_reducible repeat' first
    | assumption
    | (refine mem_guard ?_; with_unfolding_all (first | assumption | exact (by assumption : ∀ n, n ∈ bl) _ | exact blk_n (by decide) (by decide) (by assumption) | exact blk_un (by decide) (by decide) (by decide) (by assumption)))
    | (intro sx; refine (have hsx : Kept kb kl bl ko sx := ?_; ?_); on_goal 2 => (try clear_value sx))
    | (intro sx; try clear_value sx)
    | lift_lets
    | apply kept_setReg
    | refine Kept.of_mk ?_

theorem kept_dropPkt {k : Nat} {key : Nat} {p : QPkt} {s : State} (h_s : Kept kb kl bl ko s) (h_p_regs : Part.regs ∈ kl := by assumption) (h_p_cel : Part.cel ∈ kl := by assumption) (h_b_UBE : blkUBE ∈ bl := by assumption) (h_b_CEL : blkCEL ∈ bl := by assumption) :
    Kept kb kl bl ko (dropPkt k key p s) := by
  unfold dropPkt
  with_reducible repeat' first
    | assumption
    | (refine mem_guard ?_; with_unfolding_all (first | assumption | exact (by assumption : ∀ n, n ∈ bl) _ | exact blk_n (by decide) (by decide) (by assumption) | exact blk_un (by decide) (by decide) (by decide) (by assumption)))
    | apply kept_freeCells
    | apply kept_st_inc
    | refine Kept.of_mk ?_

theorem kept_dropHead {k : Nat} {key : Nat} {s : State} (h_s : Kept kb kl bl ko s) (h_p_regs : Part.regs ∈ kl := by assumption) (h_p_cel : Part.cel ∈ kl := by assumption) (h_p_sch : Part.sch ∈ kl := by assumption) (h_b_UBE : blkUBE ∈ bl := by assumption) (h_b_CEL : blkCEL ∈ bl := by assumption) :
    Kept kb kl bl ko (dropHead k key s) := by
  unfold dropHead
  with_reducible repeat' first
    | assumption
    | apply kept_dropPkt
    | apply kept_leafTouch
    | apply kept_popHead
    | split
    | refine Kept.of_mk ?_

theorem kept_placeHead {n : Nat} {key : Nat} {plain : Nat} {last : Bool} {b : Burst} {s : State} (h_s : Kept kb kl bl ko s) (h_p_cel : Part.cel ∈ kl := by assumption) (h_p_sch : Part.sch ∈ kl := by assumption) :
    Kept kb kl bl ko (placeHead n key plain last b s).2 := by
  unfold placeHead
  with_reducible repeat' first
    | assumption
    | (intro sx; refine (have hsx : Kept kb kl bl ko sx := ?_; ?_); on_goal 2 => (try clear_value sx))
    | (intro sx; try clear_value sx)
    | split
    | lift_lets
    | apply kept_leafTouch
    | apply kept_chargePend
    | apply kept_advanceTags
    | apply kept_popHead
    | apply kept_pushHead
    | apply kept_ite
    | apply kept_ite1
    | apply kept_ite2
    | apply kept_ite21
    | apply kept_ite22
    | dsimp only [sx]
    | refine Kept.of_mk ?_

theorem kept_fillLoop {k port : Nat} (fuel : Nat) {skip : List Nat} {b : Burst} {s : State} (h : Kept kb kl bl ko s) (h_p_regs : Part.regs ∈ kl := by assumption) (h_p_free : Part.free ∈ kl := by assumption) (h_p_flt : Part.flt ∈ kl := by assumption) (h_p_cel : Part.cel ∈ kl := by assumption) (h_p_sch : Part.sch ∈ kl := by assumption) (h_b_FLT : blkFLT ∈ bl := by assumption) (h_b_UBE : blkUBE ∈ bl := by assumption) (h_b_CEL : blkCEL ∈ bl := by assumption) :
    Kept kb kl bl ko (fillLoop k port fuel skip b s).2 := by
  induction fuel generalizing skip b s with
  | zero => exact h
  | succ n ih =>
    unfold fillLoop
    simp only
    repeat' split
    all_goals first
      | exact h
      | exact ih h
      | exact ih (kept_dropHead (kept_fltSourceEvent h))
      | exact ih (kept_dropHead h)
      | exact ih (kept_placeHead h)

theorem kept_fillBurst {k : Nat} {b : Burst} {s : State} (h_s : Kept kb kl bl ko s) (h_p_regs : Part.regs ∈ kl := by assumption) (h_p_free : Part.free ∈ kl := by assumption) (h_p_flt : Part.flt ∈ kl := by assumption) (h_p_cel : Part.cel ∈ kl := by assumption) (h_p_sch : Part.sch ∈ kl := by assumption) (h_b_FLT : blkFLT ∈ bl := by assumption) (h_b_UBE : blkUBE ∈ bl := by assumption) (h_b_CEL : blkCEL ∈ bl := by assumption) :
    Kept kb kl bl ko (fillBurst k b s).2 := by
  unfold fillBurst
  with_reducible repeat' first
    | assumption
    | apply kept_fillLoop
    | split
    | refine Kept.of_mk ?_

theorem kept_refund {x : Piece} {s : State} (h_s : Kept kb kl bl ko s) (h_p_sch : Part.sch ∈ kl := by assumption) :
    Kept kb kl bl ko (refund x s) := by
  unfold refund
  with_reducible repeat' first
    | assumption
    | apply kept_chargePend
    | refine Kept.of_mk ?_

theorem kept_takeOut {key : Nat} {id : Nat} {s : State} (h_s : Kept kb kl bl ko s) (h_p_cel : Part.cel ∈ kl := by assumption) :
    Kept kb kl bl ko (takeOut key id s) := by
  unfold takeOut
  with_reducible repeat' first
    | assumption
    | (intro sx; refine (have hsx : Kept kb kl bl ko sx := ?_; ?_); on_goal 2 => (try clear_value sx))
    | (intro sx; try clear_value sx)
    | lift_lets
    | apply kept_st_setLq
    | apply kept_ite
    | split
    | dsimp only [sx]
    | refine Kept.of_mk ?_

theorem kept_purge {k : Nat} {id : Nat} {off : Nat} {s : State} (h_s : Kept kb kl bl ko s) (h_p_sch : Part.sch ∈ kl := by assumption) (h_p_ube : Part.ube ∈ kl := by assumption) :
    Kept kb kl bl ko (purge k id off s) := by
  unfold purge
  with_reducible repeat' first
    | assumption
    | (intro sx; refine (have hsx : Kept kb kl bl ko sx := ?_; ?_); on_goal 2 => (try clear_value sx))
    | intro sx
    | lift_lets
    | apply kept_refund
    | apply kept_st_setUbeCh
    | (apply kept_foldl; intro sy xy hy)
    | (apply kept_foldl2; intro sy xy hy)
    | (apply kept_foldl1; intro sy xy hy)
    | refine Kept.of_mk ?_

theorem kept_giveBack {k : Nat} {key : Nat} {p : QPkt} {s : State} (h_s : Kept kb kl bl ko s) (h_p_regs : Part.regs ∈ kl := by assumption) (h_p_cel : Part.cel ∈ kl := by assumption) (h_p_sch : Part.sch ∈ kl := by assumption) (h_b_UBE : blkUBE ∈ bl := by assumption) (h_b_CEL : blkCEL ∈ bl := by assumption) :
    Kept kb kl bl ko (giveBack k key p s) := by
  unfold giveBack
  with_reducible repeat' first
    | assumption
    | (intro sx; refine (have hsx : Kept kb kl bl ko sx := ?_; ?_); on_goal 2 => (try clear_value sx))
    | (intro sx; try clear_value sx)
    | lift_lets
    | apply kept_dropPkt
    | apply kept_leafTouch
    | apply kept_takeOut
    | apply kept_pushHead
    | apply kept_ite
    | refine Kept.of_mk ?_
    | split

theorem kept_returnPiece {k : Nat} {x : Piece} {s : State} (h_s : Kept kb kl bl ko s) (h_p_regs : Part.regs ∈ kl := by assumption) (h_p_cel : Part.cel ∈ kl := by assumption) (h_p_sch : Part.sch ∈ kl := by assumption) (h_p_ube : Part.ube ∈ kl := by assumption) (h_b_UBE : blkUBE ∈ bl := by assumption) (h_b_CEL : blkCEL ∈ bl := by assumption) :
    Kept kb kl bl ko (returnPiece k x s) := by
  unfold returnPiece
  with_reducible repeat' first
    | assumption
    | apply kept_giveBack
    | apply kept_refund
    | apply kept_purge
    | refine Kept.of_mk ?_

theorem kept_returnPieces {k : Nat} {l : List Piece} {s : State} (h_s : Kept kb kl bl ko s) (h_p_regs : Part.regs ∈ kl := by assumption) (h_p_cel : Part.cel ∈ kl := by assumption) (h_p_sch : Part.sch ∈ kl := by assumption) (h_p_ube : Part.ube ∈ kl := by assumption) (h_b_UBE : blkUBE ∈ bl := by assumption) (h_b_CEL : blkCEL ∈ bl := by assumption) :
    Kept kb kl bl ko (returnPieces k l s) := by
  unfold returnPieces
  with_reducible repeat' first
    | assumption
    | apply kept_returnPiece
    | (apply kept_foldl; intro sy xy hy)
    | (apply kept_foldl2; intro sy xy hy)
    | (apply kept_foldl1; intro sy xy hy)
    | refine Kept.of_mk ?_

theorem kept_ubeShow {k : Nat} {s : State} (h_s : Kept kb kl bl ko s) (h_p_regs : Part.regs ∈ kl := by assumption) (h_b_UBE : blkUBE ∈ bl := by assumption) :
    Kept kb kl bl ko (ubeShow k s) := by
  unfold ubeShow
  with_reducible repeat' first
    | assumption
    | (refine mem_guard ?_; with_unfolding_all (first | assumption | exact (by assumption : ∀ n, n ∈ bl) _ | exact blk_n (by decide) (by decide) (by assumption) | exact blk_un (by decide) (by decide) (by decide) (by assumption)))
    | (intro sx; refine (have hsx : Kept kb kl bl ko sx := ?_; ?_); on_goal 2 => (try clear_value sx))
    | (intro sx; try clear_value sx)
    | lift_lets
    | apply kept_st_put
    | apply kept_st_wr
    | refine Kept.of_mk ?_

theorem kept_removeBurst {k : Nat} {b : Burst} {s : State} (h_s : Kept kb kl bl ko s) (h_p_ube : Part.ube ∈ kl := by assumption) :
    Kept kb kl bl ko (removeBurst k b s) := by
  unfold removeBurst
  with_reducible repeat' first
    | assumption
    | apply kept_st_setUbeCh
    | refine Kept.of_mk ?_

theorem kept_returnBurst {k : Nat} {b : Burst} {s : State} (h_s : Kept kb kl bl ko s) (h_p_regs : Part.regs ∈ kl := by assumption) (h_p_cel : Part.cel ∈ kl := by assumption) (h_p_sch : Part.sch ∈ kl := by assumption) (h_p_ube : Part.ube ∈ kl := by assumption) (h_b_UBE : blkUBE ∈ bl := by assumption) (h_b_CEL : blkCEL ∈ bl := by assumption) :
    Kept kb kl bl ko (returnBurst k b s) := by
  unfold returnBurst
  with_reducible repeat' first
    | assumption
    | apply kept_returnPieces
    | apply kept_removeBurst
    | refine Kept.of_mk ?_

theorem kept_countOpen {k : Nat} {n : Nat} {s : State} (h_s : Kept kb kl bl ko s) (h_p_chp : Part.chp ∈ kl := by assumption) :
    Kept kb kl bl ko (countOpen k n s) := by
  unfold countOpen
  with_reducible repeat' first
    | assumption
    | (intro sx; refine (have hsx : Kept kb kl bl ko sx := ?_; ?_); on_goal 2 => (try clear_value sx))
    | (intro sx; try clear_value sx)
    | lift_lets
    | apply kept_st_setChpCh
    | split
    | dsimp only [sx]
    | refine Kept.of_mk ?_

theorem kept_gateDown {k : Nat} {n : Nat} {s : State} (h_s : Kept kb kl bl ko s) (h_p_regs : Part.regs ∈ kl := by assumption) (h_p_chp : Part.chp ∈ kl := by assumption) (h_b_LPH : blkLPH ∈ bl := by assumption) (h_b_CHP : blkCHP ∈ bl := by assumption) :
    Kept kb kl bl ko (gateDown k n s) := by
  unfold gateDown
  with_reducible repeat' first
    | assumption
    | (refine mem_guard ?_; with_unfolding_all (first | assumption | exact (by assumption : ∀ n, n ∈ bl) _ | exact blk_n (by decide) (by decide) (by assumption) | exact blk_un (by decide) (by decide) (by decide) (by assumption) | exact blk_ite (by assumption) (by assumption) | exact blk_ite (by exact blk_n (by decide) (by decide) (by assumption)) (by exact blk_n (by decide) (by decide) (by assumption))))
    | (intro sx; refine (have hsx : Kept kb kl bl ko sx := ?_; ?_); on_goal 2 => (try clear_value sx))
    | (intro sx; try clear_value sx)
    | lift_lets
    | apply kept_st_put
    | apply kept_countOpen
    | apply kept_ite
    | refine Kept.of_mk ?_
    | split

theorem kept_endTail {k : Nat} {s : State} (h_s : Kept kb kl bl ko s) (h_p_regs : Part.regs ∈ kl := by assumption) (h_p_ube : Part.ube ∈ kl := by assumption) (h_p_chp : Part.chp ∈ kl := by assumption) (h_b_LPH : blkLPH ∈ bl := by assumption) (h_b_CHP : blkCHP ∈ bl := by assumption) :
    Kept kb kl bl ko (endTail k s) := by
  unfold endTail
  with_reducible repeat' first
    | assumption
    | (intro sx; refine (have hsx : Kept kb kl bl ko sx := ?_; ?_); on_goal 2 => (try clear_value sx))
    | (intro sx; try clear_value sx)
    | lift_lets
    | apply kept_gateDown
    | apply kept_st_setUbeCh
    | apply kept_ite
    | split
    | dsimp only [sx]
    | refine Kept.of_mk ?_

theorem kept_opsBack {b : Burst} {s : State} (h_s : Kept kb kl bl ko s) (h_p_ohs : Part.ohs ∈ kl := by assumption) :
    Kept kb kl bl ko (opsBack b s) := by
  unfold opsBack
  with_reducible repeat' first
    | assumption
    | apply kept_st_setOhsPort
    | split
    | refine Kept.of_mk ?_

theorem kept_cutBurst {k : Nat} {b : Burst} {s : State} (h_s : Kept kb kl bl ko s) (h_p_regs : Part.regs ∈ kl := by assumption) (h_p_cel : Part.cel ∈ kl := by assumption) (h_p_sch : Part.sch ∈ kl := by assumption) (h_p_ube : Part.ube ∈ kl := by assumption) (h_p_chp : Part.chp ∈ kl := by assumption) (h_p_ohs : Part.ohs ∈ kl := by assumption) (h_b_LPH : blkLPH ∈ bl := by assumption) (h_b_UBE : blkUBE ∈ bl := by assumption) (h_b_CHP : blkCHP ∈ bl := by assumption) (h_b_CEL : blkCEL ∈ bl := by assumption) :
    Kept kb kl bl ko (cutBurst k b s) := by
  unfold cutBurst
  with_reducible repeat' first
    | assumption
    | (refine mem_guard ?_; with_unfolding_all (first | assumption | exact (by assumption : ∀ n, n ∈ bl) _ | exact blk_n (by decide) (by decide) (by assumption) | exact blk_un (by decide) (by decide) (by decide) (by assumption) | exact blk_ite (by assumption) (by assumption) | exact blk_ite (by exact blk_n (by decide) (by decide) (by assumption)) (by exact blk_n (by decide) (by decide) (by assumption))))
    | (intro sx; refine (have hsx : Kept kb kl bl ko sx := ?_; ?_); on_goal 2 => (try clear_value sx))
    | (intro sx; refine (have hsx : Kept kb kl bl ko sx.2 := ?_; ?_); on_goal 2 => (try clear_value sx))
    | (intro sx; refine (have hsx : Kept kb kl bl ko sx.1 := ?_; ?_); on_goal 2 => (try clear_value sx))
    | (intro sx; try clear_value sx)
    | lift_lets
    | apply kept_gateDown
    | apply kept_giveBack
    | apply kept_refund
    | apply kept_st_inc
    | apply kept_ubeShow
    | apply kept_opsBack
    | apply kept_purge
    | apply kept_removeBurst
    | apply kept_ite
    | apply kept_ite1
    | apply kept_ite2
    | apply kept_ite21
    | apply kept_ite22
    | (apply kept_foldl; intro sy xy hy)
    | (apply kept_foldl2; intro sy xy hy)
    | (apply kept_foldl1; intro sy xy hy)
    | refine Kept.of_mk ?_
    | split

theorem kept_notSent {k : Nat} {b : Burst} {s : State} (h_s : Kept kb kl bl ko s) (h_p_regs : Part.regs ∈ kl := by assumption) (h_p_cel : Part.cel ∈ kl := by assumption) (h_p_sch : Part.sch ∈ kl := by assumption) (h_p_ube : Part.ube ∈ kl := by assumption) (h_b_UBE : blkUBE ∈ bl := by assumption) (h_b_CEL : blkCEL ∈ bl := by assumption) :
    Kept kb kl bl ko (notSent k b s) := by
  unfold notSent
  with_reducible repeat' first
    | assumption
    | (refine mem_guard ?_; with_unfolding_all (first | assumption | exact (by assumption : ∀ n, n ∈ bl) _ | exact blk_n (by decide) (by decide) (by assumption) | exact blk_un (by decide) (by decide) (by decide) (by assumption)))
    | apply kept_st_inc
    | apply kept_ubeShow
    | apply kept_returnBurst
    | refine Kept.of_mk ?_

theorem kept_ubeLeave {k : Nat} {s : State} (h_s : Kept kb kl bl ko s) (h_p_regs : Part.regs ∈ kl := by assumption) (h_p_cel : Part.cel ∈ kl := by assumption) (h_p_sch : Part.sch ∈ kl := by assumption) (h_p_ube : Part.ube ∈ kl := by assumption) (h_p_chp : Part.chp ∈ kl := by assumption) (h_p_ohs : Part.ohs ∈ kl := by assumption) (h_b_LPH : blkLPH ∈ bl := by assumption) (h_b_UBE : blkUBE ∈ bl := by assumption) (h_b_CHP : blkCHP ∈ bl := by assumption) (h_b_CEL : blkCEL ∈ bl := by assumption) :
    Kept kb kl bl ko (ubeLeave k s) := by
  unfold ubeLeave
  with_reducible repeat' first
    | assumption
    | (refine mem_guard ?_; with_unfolding_all (first | assumption | exact (by assumption : ∀ n, n ∈ bl) _ | exact blk_n (by decide) (by decide) (by assumption) | exact blk_un (by decide) (by decide) (by decide) (by assumption) | exact blk_ite (by assumption) (by assumption) | exact blk_ite (by exact blk_n (by decide) (by decide) (by assumption)) (by exact blk_n (by decide) (by decide) (by assumption))))
    | (intro sx; refine (have hsx : Kept kb kl bl ko sx := ?_; ?_); on_goal 2 => (try clear_value sx))
    | (intro sx; try clear_value sx)
    | lift_lets
    | apply kept_st_inc
    | apply kept_st_setUbeCh
    | apply kept_ubeShow
    | apply kept_returnBurst
    | apply kept_cutBurst
    | apply kept_ite
    | (apply kept_foldl; intro sy xy hy)
    | (apply kept_foldl2; intro sy xy hy)
    | (apply kept_foldl1; intro sy xy hy)
    | split
    | dsimp only [sx]
    | refine Kept.of_mk ?_

theorem kept_cutStarted {k : Nat} {s : State} (h_s : Kept kb kl bl ko s) (h_p_regs : Part.regs ∈ kl := by assumption) (h_p_cel : Part.cel ∈ kl := by assumption) (h_p_sch : Part.sch ∈ kl := by assumption) (h_p_ube : Part.ube ∈ kl := by assumption) (h_p_chp : Part.chp ∈ kl := by assumption) (h_p_ohs : Part.ohs ∈ kl := by assumption) (h_b_LPH : blkLPH ∈ bl := by assumption) (h_b_UBE : blkUBE ∈ bl := by assumption) (h_b_CHP : blkCHP ∈ bl := by assumption) (h_b_CEL : blkCEL ∈ bl := by assumption) :
    Kept kb kl bl ko (cutStarted k s) := by
  unfold cutStarted
  with_reducible repeat' first
    | assumption
    | apply kept_cutBurst
    | split
    | refine Kept.of_mk ?_

theorem kept_trimBurst {k : Nat} {b : Burst} {s : State} (h_s : Kept kb kl bl ko s) (h_p_regs : Part.regs ∈ kl := by assumption) (h_p_cel : Part.cel ∈ kl := by assumption) (h_p_sch : Part.sch ∈ kl := by assumption) (h_p_ube : Part.ube ∈ kl := by assumption) (h_b_UBE : blkUBE ∈ bl := by assumption) (h_b_CEL : blkCEL ∈ bl := by assumption) : Kept kb kl bl ko (trimBurst k b s).2 := by
  unfold trimBurst
  simp only
  split
  · exact h_s
  · split
    · exact kept_leafTouch (kept_pushHead (kept_takeOut (kept_chargePend (kept_purge (kept_returnPieces h_s)))))
    · exact kept_returnPiece (kept_purge (kept_returnPieces h_s))

theorem kept_dropKeyless {k : Nat} {b : Burst} {s : State} (h_s : Kept kb kl bl ko s) (h_p_regs : Part.regs ∈ kl := by assumption) (h_p_cel : Part.cel ∈ kl := by assumption) (h_p_sch : Part.sch ∈ kl := by assumption) (h_p_ube : Part.ube ∈ kl := by assumption) (h_b_UBE : blkUBE ∈ bl := by assumption) (h_b_CEL : blkCEL ∈ bl := by assumption) :
    Kept kb kl bl ko (dropKeyless k b s).2.1 := by
  unfold dropKeyless
  with_reducible repeat' first
    | assumption
    | (intro sx; refine (have hsx : Kept kb kl bl ko sx := ?_; ?_); on_goal 2 => (try clear_value sx))
    | intro sx
    | lift_lets
    | apply kept_returnPieces
    | refine Kept.of_mk ?_

theorem kept_clearLater {k ctx : Nat} (l : List Work) {s : State} (h : Kept kb kl bl ko s) (h_p_regs : Part.regs ∈ kl := by assumption) (h_p_cel : Part.cel ∈ kl := by assumption) (h_p_sch : Part.sch ∈ kl := by assumption) (h_p_ube : Part.ube ∈ kl := by assumption) (h_b_UBE : blkUBE ∈ bl := by assumption) (h_b_CEL : blkCEL ∈ bl := by assumption) :
    Kept kb kl bl ko (clearLater k ctx l s).2 := by
  induction l generalizing s with
  | nil => exact h
  | cons w t ih =>
    unfold clearLater
    simp only
    split
    · exact kept_returnPieces (ih h)
    · exact ih h

theorem kept_settle {k : Nat} (fuel : Nat) {l : List Work} {done : List Burst} {s : State} (h : Kept kb kl bl ko s) (h_p_regs : Part.regs ∈ kl := by assumption) (h_p_free : Part.free ∈ kl := by assumption) (h_p_flt : Part.flt ∈ kl := by assumption) (h_p_cel : Part.cel ∈ kl := by assumption) (h_p_sch : Part.sch ∈ kl := by assumption) (h_p_ube : Part.ube ∈ kl := by assumption) (h_b_FLT : blkFLT ∈ bl := by assumption) (h_b_UBE : blkUBE ∈ bl := by assumption) (h_b_CEL : blkCEL ∈ bl := by assumption) :
    Kept kb kl bl ko (settle k fuel l done s).2 := by
  induction fuel generalizing l done s with
  | zero => cases l <;> exact h
  | succ n ih =>
    cases l with
    | nil => exact h
    | cons w later =>
      unfold settle
      extract_lets ctx a exceeds refill changed c t f s'
      have ha : Kept kb kl bl ko a.2.1 := kept_dropKeyless h
      have hc : Kept kb kl bl ko c.2 := by
        show Kept kb kl bl ko (if changed = true then clearLater k (ctx.getD 0) later a.2.1 else (later, a.2.1)).2
        exact kept_ite2 (kept_clearLater _ ha) ha
      have ht : Kept kb kl bl ko t.2 := by
        show Kept kb kl bl ko (if exceeds = true then trimBurst k a.1 c.2 else (a.1, c.2)).2
        exact kept_ite2 (kept_trimBurst hc) hc
      have hf : Kept kb kl bl ko f.2 := by
        show Kept kb kl bl ko (if refill = true then fillBurst k t.1 t.2 else t).2
        exact kept_ite2 (kept_fillBurst ht) ht
      refine ih ?_
      show Kept kb kl bl ko (if _ then _ else _)
      exact kept_ite (kept_st_inc hf) hf

theorem kept_countPassed {bs : List Burst} {s : State} (h_s : Kept kb kl bl ko s) (h_p_cel : Part.cel ∈ kl := by assumption) :
    Kept kb kl bl ko (countPassed bs s) := by
  unfold countPassed
  with_reducible repeat' first
    | assumption
    | (intro sx; refine (have hsx : Kept kb kl bl ko sx := ?_; ?_); on_goal 2 => (try clear_value sx))
    | (intro sx; refine (have hsx : Kept kb kl bl ko sx.2 := ?_; ?_); on_goal 2 => (try clear_value sx))
    | (intro sx; refine (have hsx : Kept kb kl bl ko sx.1 := ?_; ?_); on_goal 2 => (try clear_value sx))
    | intro sx
    | lift_lets
    | apply kept_st_setLq
    | apply kept_ite
    | apply kept_ite1
    | apply kept_ite2
    | apply kept_ite21
    | apply kept_ite22
    | (apply kept_foldl; intro sy xy hy)
    | (apply kept_foldl2; intro sy xy hy)
    | (apply kept_foldl1; intro sy xy hy)
    | split
    | dsimp only [sx]
    | refine Kept.of_mk ?_

theorem kept_setCorr {k : Nat} {id : Nat} {leaf : Nat} {c : Option Bytes} {s : State} (h_s : Kept kb kl bl ko s) (h_p_cel : Part.cel ∈ kl := by assumption) (h_p_ube : Part.ube ∈ kl := by assumption) :
    Kept kb kl bl ko (setCorr k id leaf c s) := by
  unfold setCorr
  with_reducible repeat' first
    | assumption
    | (intro sx; refine (have hsx : Kept kb kl bl ko sx := ?_; ?_); on_goal 2 => (try clear_value sx))
    | intro sx
    | lift_lets
    | apply kept_st_setLq
    | apply kept_st_setUbeCh
    | apply kept_ite
    | refine Kept.of_mk ?_
    | split

theorem kept_correctBurst {k : Nat} {b : Burst} {s : State} (h_s : Kept kb kl bl ko s) (h_p_cel : Part.cel ∈ kl := by assumption) (h_p_ube : Part.ube ∈ kl := by assumption) :
    Kept kb kl bl ko (correctBurst k b s) := by
  unfold correctBurst
  with_reducible repeat' first
    | assumption
    | (intro sx; refine (have hsx : Kept kb kl bl ko sx := ?_; ?_); on_goal 2 => (try clear_value sx))
    | (intro sx; refine (have hsx : Kept kb kl bl ko sx.2 := ?_; ?_); on_goal 2 => (try clear_value sx))
    | (intro sx; refine (have hsx : Kept kb kl bl ko sx.1 := ?_; ?_); on_goal 2 => (try clear_value sx))
    | (intro sx; try clear_value sx)
    | lift_lets
    | apply kept_setCorr
    | apply kept_ite
    | apply kept_ite1
    | apply kept_ite2
    | apply kept_ite21
    | apply kept_ite22
    | (apply kept_foldl; intro sy xy hy)
    | (apply kept_foldl2; intro sy xy hy)
    | (apply kept_foldl1; intro sy xy hy)
    | refine Kept.of_mk ?_
    | split

theorem kept_predict {k : Nat} {frame : Nat} {gs : List Grant} {s : State} (h_s : Kept kb kl bl ko s) (h_p_regs : Part.regs ∈ kl := by assumption) (h_p_free : Part.free ∈ kl := by assumption) (h_p_flt : Part.flt ∈ kl := by assumption) (h_p_cel : Part.cel ∈ kl := by assumption) (h_p_sch : Part.sch ∈ kl := by assumption) (h_p_ube : Part.ube ∈ kl := by assumption) (h_b_FLT : blkFLT ∈ bl := by assumption) (h_b_UBE : blkUBE ∈ bl := by assumption) (h_b_CEL : blkCEL ∈ bl := by assumption) :
    Kept kb kl bl ko (predict k frame gs s) := by
  unfold predict
  with_reducible repeat' first
    | assumption
    | (intro sx; refine (have hsx : Kept kb kl bl ko sx := ?_; ?_); on_goal 2 => (try clear_value sx))
    | (intro sx; refine (have hsx : Kept kb kl bl ko sx.2 := ?_; ?_); on_goal 2 => (try clear_value sx))
    | (intro sx; try clear_value sx)
    | lift_lets
    | apply kept_fillBurst
    | apply kept_st_setUbeCh
    | apply kept_ite
    | apply kept_ite2
    | (apply kept_foldl; intro sy xy hy)
    | (apply kept_foldl2; intro sy xy hy)
    | (apply kept_foldl1; intro sy xy hy)
    | refine Kept.of_mk ?_
    | split

theorem kept_reconcile {k : Nat} {frame : Nat} {present : Bool} {s : State} (h_s : Kept kb kl bl ko s) (h_p_regs : Part.regs ∈ kl := by assumption) (h_p_free : Part.free ∈ kl := by assumption) (h_p_flt : Part.flt ∈ kl := by assumption) (h_p_cel : Part.cel ∈ kl := by assumption) (h_p_sch : Part.sch ∈ kl := by assumption) (h_p_ube : Part.ube ∈ kl := by assumption) (h_b_FLT : blkFLT ∈ bl := by assumption) (h_b_UBE : blkUBE ∈ bl := by assumption) (h_b_CEL : blkCEL ∈ bl := by assumption) :
    Kept kb kl bl ko (reconcile k frame present s) := by
  unfold reconcile
  with_reducible repeat' first
    | assumption
    | (refine mem_guard ?_; with_unfolding_all (first | assumption | exact (by assumption : ∀ n, n ∈ bl) _ | exact blk_n (by decide) (by decide) (by assumption) | exact blk_un (by decide) (by decide) (by decide) (by assumption) | exact blk_ite (by assumption) (by assumption) | exact blk_ite (by exact blk_n (by decide) (by decide) (by assumption)) (by exact blk_n (by decide) (by decide) (by assumption))))
    | (intro sx; refine (have hsx : Kept kb kl bl ko sx := ?_; ?_); on_goal 2 => (try clear_value sx))
    | (intro sx; refine (have hsx : Kept kb kl bl ko sx.2 := ?_; ?_); on_goal 2 => (try clear_value sx))
    | (intro sx; refine (have hsx : Kept kb kl bl ko sx.1 := ?_; ?_); on_goal 2 => (try clear_value sx))
    | (intro sx; try clear_value sx)
    | lift_lets
    | apply kept_settle
    | apply kept_predict
    | apply kept_returnPieces
    | apply kept_st_inc
    | apply kept_st_setUbeCh
    | apply kept_ubeShow
    | apply kept_countPassed
    | apply kept_correctBurst
    | apply kept_ite
    | apply kept_ite1
    | apply kept_ite2
    | apply kept_ite21
    | apply kept_ite22
    | (apply kept_foldl; intro sy xy hy)
    | (apply kept_foldl2; intro sy xy hy)
    | (apply kept_foldl1; intro sy xy hy)
    | split
    | dsimp only [sx]
    | refine Kept.of_mk ?_

theorem kept_nofragExpire {k : Nat} {s : State} (h_s : Kept kb kl bl ko s) (h_p_regs : Part.regs ∈ kl := by assumption) (h_p_cel : Part.cel ∈ kl := by assumption) (h_p_sch : Part.sch ∈ kl := by assumption) (h_b_UBE : blkUBE ∈ bl := by assumption) (h_b_CEL : blkCEL ∈ bl := by assumption) :
    Kept kb kl bl ko (nofragExpire k s) := by
  unfold nofragExpire
  with_reducible repeat' first
    | assumption
    | (intro sx; refine (have hsx : Kept kb kl bl ko sx := ?_; ?_); on_goal 2 => (try clear_value sx))
    | (intro sx; refine (have hsx : Kept kb kl bl ko sx.2 := ?_; ?_); on_goal 2 => (try clear_value sx))
    | (intro sx; refine (have hsx : Kept kb kl bl ko sx.1 := ?_; ?_); on_goal 2 => (try clear_value sx))
    | intro sx
    | lift_lets
    | apply kept_dropHead
    | apply kept_ite
    | apply kept_ite1
    | apply kept_ite2
    | apply kept_ite21
    | apply kept_ite22
    | (apply kept_foldl; intro sy xy hy)
    | (apply kept_foldl2; intro sy xy hy)
    | (apply kept_foldl1; intro sy xy hy)
    | split
    | dsimp only [sx]
    | refine Kept.of_mk ?_

theorem kept_idleFragment {occ : Nat} {s : State} (h_s : Kept kb kl bl ko s) (h_p_free : Part.free ∈ kl := by assumption) :
    Kept kb kl bl ko (idleFragment occ s).2 := by
  unfold idleFragment
  with_reducible repeat' first
    | assumption
    | (intro sx; refine (have hsx : Kept kb kl bl ko sx := ?_; ?_); on_goal 2 => (try clear_value sx))
    | (intro sx; refine (have hsx : Kept kb kl bl ko sx.2 := ?_; ?_); on_goal 2 => (try clear_value sx))
    | (intro sx; try clear_value sx)
    | lift_lets
    | apply kept_draw
    | refine Kept.of_mk ?_

theorem kept_idleFill (fuel : Nat) {n : Nat} {s : State} (h : Kept kb kl bl ko s) (h_p_free : Part.free ∈ kl := by assumption) : Kept kb kl bl ko (idleFill fuel n s).2 := by
  induction fuel generalizing n s with
  | zero => exact h
  | succ m ih =>
    unfold idleFill
    simp only
    split
    · exact h
    · exact ih (kept_idleFragment h)

theorem kept_putBurst {k : Nat} {old : Burst} {new : Burst} {s : State} (h_s : Kept kb kl bl ko s) (h_p_ube : Part.ube ∈ kl := by assumption) :
    Kept kb kl bl ko (putBurst k old new s) := by
  unfold putBurst
  with_reducible repeat' first
    | assumption
    | apply kept_st_setUbeCh
    | apply kept_ite
    | refine Kept.of_mk ?_
    | split

theorem kept_encodeFragment {k : Nat} {late : Bool} {c : Checks} {s : State} (h_s : Kept kb kl bl ko s) (h_p_regs : Part.regs ∈ kl := by assumption) (h_p_free : Part.free ∈ kl := by assumption) (h_p_flt : Part.flt ∈ kl := by assumption) (h_p_cel : Part.cel ∈ kl := by assumption) (h_p_sch : Part.sch ∈ kl := by assumption) (h_p_kln : Part.kln ∈ kl := by assumption) (h_p_ube : Part.ube ∈ kl := by assumption) (h_b_FLT : blkFLT ∈ bl := by assumption) (h_b_UBE : blkUBE ∈ bl := by assumption) (h_b_CEL : blkCEL ∈ bl := by assumption) (h_b_CIP : blkCIP ∈ bl := by assumption) (h_b_KLN : blkKLN ∈ bl := by assumption) :
    Kept kb kl bl ko (encodeFragment k late c s) := by
  unfold encodeFragment
  split
  · exact h_s
  refine kept_ite h_s ?_
  dsimp only
  split
  · exact kept_putBurst (kept_idleFill _ h_s)
  refine kept_ite (kept_ite (kept_returnPieces (kept_putBurst h_s)) (kept_st_inc (kept_returnPieces (kept_putBurst h_s)))) ?_
  have hdrop : ∀ {t : State} {b' : Burst} {l i : Nat} {p : QPkt} {o : Nat} (n : Burst), Kept kb kl bl ko t →
      Kept kb kl bl ko (leafTouch l (dropPkt k l p (takeOut l i (purge k i 0 (putBurst k b' n (idleFragment o t).2))))) :=
    fun n ht => kept_leafTouch (kept_dropPkt (kept_takeOut (kept_purge (kept_putBurst (kept_idleFragment ht)))))
  refine kept_ite (hdrop _ (kept_fltSourceEvent h_s)) (kept_ite h_s ?_)
  generalize hr : checkPacket blkUBE k c _ s = r
  have h1 : Kept kb kl bl ko r.2.2 := hr ▸ kept_checkPacket h_s
  refine kept_ite (hdrop _ h1) (kept_ite (kept_ite (hdrop _ h1) ?_) (kept_putBurst h1))
  have hc : ∀ src slot frame, Kept kb kl bl ko (cipRequest src slot frame r.2.2).2 := fun src slot frame => kept_cipRequest h1
  split
  · exact kept_putBurst (kept_pair2 (by assumption) (hc _ _ _))
  · exact hdrop _ (kept_pair2 (by assumption) (hc _ _ _))

theorem kept_burstDeparts {b : Burst} {s : State} (h_s : Kept kb kl bl ko s) (h_p_regs : Part.regs ∈ kl := by assumption) (h_p_cel : Part.cel ∈ kl := by assumption) (h_p_sch : Part.sch ∈ kl := by assumption) (h_b_CEL : blkCEL ∈ bl := by assumption) :
    Kept kb kl bl ko (burstDeparts b s) := by
  unfold burstDeparts
  with_reducible repeat' first
    | assumption
    | (intro sx; refine (have hsx : Kept kb kl bl ko sx := ?_; ?_); on_goal 2 => (try clear_value sx))
    | (intro sx; try clear_value sx)
    | lift_lets
    | apply kept_leafTouch
    | apply kept_freeCells
    | apply kept_chargeDepart
    | apply kept_ite
    | (apply kept_foldl; intro sy xy hy)
    | (apply kept_foldl2; intro sy xy hy)
    | (apply kept_foldl1; intro sy xy hy)
    | refine Kept.of_mk ?_
    | split

theorem kept_claimDefault {k : Nat} {tn : Nat} {s : State} (h_s : Kept kb kl bl ko s) (h_p_free : Part.free ∈ kl := by assumption) (h_p_ube : Part.ube ∈ kl := by assumption) :
    KeptO kb kl bl ko id (claimDefault k tn s) := by
  unfold claimDefault
  with_reducible repeat' first
    | assumption
    | (refine kept_pair2 (by assumption) ?_)
    | (intro sx; refine (have hsx : Kept kb kl bl ko sx := ?_; ?_); on_goal 2 => (try clear_value sx))
    | (intro sx; refine (have hsx : Kept kb kl bl ko sx.2 := ?_; ?_); on_goal 2 => (try clear_value sx))
    | (intro sx; refine (have hsx : Kept kb kl bl ko sx.1 := ?_; ?_); on_goal 2 => (try clear_value sx))
    | (intro sx; try clear_value sx)
    | lift_lets
    | apply kept_st_setAllocCtx
    | apply kept_draw
    | apply kept_ite
    | apply kept_ite1
    | apply kept_ite2
    | apply kept_ite21
    | apply kept_ite22
    | split
    | dsimp only [sx]
    | refine Kept.of_mk ?_
    | apply kept_none
    | apply kept_some
    | apply kept_some2
    | apply kept_oite
    | (apply kept_omap; intro xo)

theorem kept_releaseDefault {k : Nat} {s : State} (h_s : Kept kb kl bl ko s) (h_p_ube : Part.ube ∈ kl := by assumption) :
    Kept kb kl bl ko (releaseDefault k s) := by
  unfold releaseDefault
  with_reducible repeat' first
    | assumption
    | apply kept_st_setAllocCtx
    | (apply kept_foldl; intro sy xy hy)
    | (apply kept_foldl2; intro sy xy hy)
    | (apply kept_foldl1; intro sy xy hy)
    | refine Kept.of_mk ?_

theorem kept_releaseContexts {k : Nat} {s : State} (h_s : Kept kb kl bl ko s) (h_p_ube : Part.ube ∈ kl := by assumption) :
    Kept kb kl bl ko (releaseContexts k s) := by
  unfold releaseContexts
  with_reducible repeat' first
    | assumption
    | apply kept_st_setAllocCtx
    | apply kept_releaseDefault
    | apply kept_ite
    | apply kept_ite1
    | apply kept_ite2
    | apply kept_ite21
    | apply kept_ite22
    | (apply kept_foldl; intro sy xy hy)
    | (apply kept_foldl2; intro sy xy hy)
    | (apply kept_foldl1; intro sy xy hy)
    | refine Kept.of_mk ?_
    | split

theorem kept_dropRemainder {sctx : Nat} {s : State} (h_s : Kept kb kl bl ko s) (h_p_regs : Part.regs ∈ kl := by assumption) (h_p_cel : Part.cel ∈ kl := by assumption) (h_p_sch : Part.sch ∈ kl := by assumption) (h_p_ube : Part.ube ∈ kl := by assumption) (h_b_UBE : blkUBE ∈ bl := by assumption) (h_b_CEL : blkCEL ∈ bl := by assumption) : Kept kb kl bl ko (dropRemainder sctx s) := by
  unfold dropRemainder
  refine kept_foldl ?_ h_s
  intro s e h
  dsimp only
  split
  · exact h
  · refine kept_ite ?_ h
    refine kept_leafTouch (kept_ite (kept_st_inc (kept_st_setUbeCh (kept_takeOut h))) (kept_dropPkt (kept_takeOut h)))

theorem kept_ubeAccess {s : State} (h_s : Kept kb kl bl ko s) (h_p_regs : Part.regs ∈ kl := by assumption) (h_p_cfg : Part.cfg ∈ kl := by assumption) (h_p_cel : Part.cel ∈ kl := by assumption) (h_p_sch : Part.sch ∈ kl := by assumption) (h_p_ube : Part.ube ∈ kl := by assumption) (h_b_CFG : blkCFG ∈ bl := by assumption) (h_b_UBE : blkUBE ∈ bl := by assumption) (h_b_CEL : blkCEL ∈ bl := by assumption) :
    KeptO kb kl bl ko id (ubeAccess s) := by
  unfold ubeAccess
  with_reducible repeat' first
    | assumption
    | (refine mem_guard ?_; with_unfolding_all (first | assumption | exact (by assumption : ∀ n, n ∈ bl) _ | exact blk_n (by decide) (by decide) (by assumption) | exact blk_un (by decide) (by decide) (by decide) (by assumption) | exact blk_ite (by assumption) (by assumption) | exact blk_ite (by exact blk_n (by decide) (by decide) (by assumption)) (by exact blk_n (by decide) (by decide) (by assumption))))
    | (intro sx; refine (have hsx : Kept kb kl bl ko sx := ?_; ?_); on_goal 2 => (try clear_value sx))
    | intro sx
    | lift_lets
    | apply kept_st_setUpStream
    | apply kept_st_setStagedCtx
    | apply kept_st_setAllocCtx
    | apply kept_st_setBit
    | apply kept_dropRemainder
    | apply kept_setReg
    | apply kept_ite
    | split
    | dsimp only [sx]
    | refine Kept.of_mk ?_
    | apply kept_none
    | apply kept_some
    | apply kept_some2
    | apply kept_oite
    | (apply kept_omap; intro xo)

theorem kept_ubeWrite {a : Nat} {v : Word} {o : State} {s : State} (h_o : Kept kb kl bl ko o) (h_s : Kept kb kl bl ko s) (h_p_regs : Part.regs ∈ kl := by assumption) (h_p_cfg : Part.cfg ∈ kl := by assumption) (h_p_cel : Part.cel ∈ kl := by assumption) (h_p_sch : Part.sch ∈ kl := by assumption) (h_p_ube : Part.ube ∈ kl := by assumption) (h_b_CFG : blkCFG ∈ bl := by assumption) (h_b_UBE : blkUBE ∈ bl := by assumption) (h_b_CEL : blkCEL ∈ bl := by assumption) :
    Kept kb kl bl ko (ubeWrite a v o s) := by
  unfold ubeWrite
  with_reducible repeat' first
    | assumption
    | (refine mem_guard ?_; with_unfolding_all (first | assumption | exact (by assumption : ∀ n, n ∈ bl) _ | exact blk_n (by decide) (by decide) (by assumption) | exact blk_un (by decide) (by decide) (by decide) (by assumption) | exact blk_ite (by assumption) (by assumption) | exact blk_ite (by exact blk_n (by decide) (by decide) (by assumption)) (by exact blk_n (by decide) (by decide) (by assumption))))
    | (refine kept_ouse (by assumption) ?_)
    | apply kept_st_put
    | apply kept_ubeAccess
    | apply kept_ite
    | split
    | refine Kept.of_mk ?_

theorem kept_stageReg {a : Nat} {v : Word} {s : State} (h_s : Kept kb kl bl ko s) (h_p_regs : Part.regs ∈ kl := by assumption) (h_p_cfg : Part.cfg ∈ kl := by assumption) (h_b_CFG : blkCFG ∈ bl := by assumption) :
    Kept kb kl bl ko (stageReg a v s) := by
  unfold stageReg
  with_reducible repeat' first
    | assumption
    | (refine mem_guard ?_; with_unfolding_all (first | assumption | exact (by assumption : ∀ n, n ∈ bl) _ | exact blk_n (by decide) (by decide) (by assumption) | exact blk_un (by decide) (by decide) (by decide) (by assumption) | exact blk_ite (by assumption) (by assumption) | exact blk_ite (by exact blk_n (by decide) (by decide) (by assumption)) (by exact blk_n (by decide) (by decide) (by assumption))))
    | apply kept_st_setStagedReg
    | apply kept_st_setBit
    | apply kept_ite
    | refine Kept.of_mk ?_
    | split

theorem kept_requestCommit {g : Nat} {when_ : Bool} {ch : Nat} {s : State} (h_s : Kept kb kl bl ko s) (h_p_regs : Part.regs ∈ kl := by assumption) (h_p_cfg : Part.cfg ∈ kl := by assumption) (h_b_CFG : blkCFG ∈ bl := by assumption) :
    Kept kb kl bl ko (requestCommit g when_ ch s) := by
  unfold requestCommit
  with_reducible repeat' first
    | assumption
    | (refine mem_guard ?_; with_unfolding_all (first | assumption | exact (by assumption : ∀ n, n ∈ bl) _ | exact blk_n (by decide) (by decide) (by assumption) | exact blk_un (by decide) (by decide) (by decide) (by assumption) | exact blk_ite (by assumption) (by assumption) | exact blk_ite (by exact blk_n (by decide) (by decide) (by assumption)) (by exact blk_n (by decide) (by decide) (by assumption))))
    | apply kept_st_setBit
    | apply kept_st_setGroup
    | apply kept_ite
    | refine Kept.of_mk ?_
    | split

theorem kept_discardStaged {g : Nat} {s : State} (h_s : Kept kb kl bl ko s) (h_p_cfg : Part.cfg ∈ kl := by assumption) :
    Kept kb kl bl ko (discardStaged g s) := by
  unfold discardStaged
  with_reducible repeat' first
    | assumption
    | (intro sx; refine (have hsx : Kept kb kl bl ko sx := ?_; ?_); on_goal 2 => (try clear_value sx))
    | (intro sx; try clear_value sx)
    | lift_lets
    | apply kept_st_setStagedReg
    | apply kept_st_setStagedCtx
    | (apply kept_foldl; intro sy xy hy)
    | (apply kept_foldl2; intro sy xy hy)
    | (apply kept_foldl1; intro sy xy hy)
    | refine Kept.of_mk ?_

theorem kept_abortGroup {g : Nat} {s : State} (h_s : Kept kb kl bl ko s) (h_p_cfg : Part.cfg ∈ kl := by assumption) :
    Kept kb kl bl ko (abortGroup g s) := by
  unfold abortGroup
  with_reducible repeat' first
    | assumption
    | apply kept_discardStaged
    | apply kept_ite
    | refine Kept.of_mk ?_
    | split

theorem kept_commitGroup {g : Nat} {when_ : Bool} {ch : Nat} {s : State} (h_s : Kept kb kl bl ko s) (h_p_regs : Part.regs ∈ kl := by assumption) (h_p_cfg : Part.cfg ∈ kl := by assumption) (h_b_CFG : blkCFG ∈ bl := by assumption) :
    Kept kb kl bl ko (commitGroup g when_ ch s) := by
  unfold commitGroup
  with_reducible repeat' first
    | assumption
    | apply kept_requestCommit
    | apply kept_ite
    | refine Kept.of_mk ?_
    | split

theorem kept_takeCopy {k : Nat} {s : State} (h_s : Kept kb kl bl ko s) (h_p_ube : Part.ube ∈ kl := by assumption) :
    Kept kb kl bl ko (takeCopy k s) := by
  unfold takeCopy
  with_reducible repeat' first
    | assumption
    | apply kept_st_setUbeCh
    | refine Kept.of_mk ?_

theorem mem_stagedOf {s : State} {g : Nat} {e : Nat × Word} (h : e ∈ stagedOf s g) : blkOf e.1 = blkCHP := by
  unfold stagedOf at h
  obtain ⟨x, _, hx⟩ := List.mem_filterMap.1 h
  split at hx
  · split at hx
    · rename_i hc; cases hx; exact hc.1
    · cases hx
  · cases hx

theorem kept_applyStaged {g : Nat} {s : State} (h_s : Kept kb kl bl ko s) (h_p_regs : Part.regs ∈ kl := by assumption) (h_p_cfg : Part.cfg ∈ kl := by assumption) (h_p_ube : Part.ube ∈ kl := by assumption) (h_b_CHP : blkCHP ∈ bl := by assumption) : Kept kb kl bl ko (applyStaged g s) := by
  unfold applyStaged
  dsimp only
  have h1 : Kept kb kl bl ko ((stagedOf s g).foldl (fun s e => s.setReg e.1 e.2) s) := kept_foldl_mem (fun t e he ht => by
    have h_e : blkOf e.1 ∈ bl := by rw [mem_stagedOf he]; exact h_b_CHP
    exact kept_setReg ht) h_s
  have h2 := kept_discardStaged (g := g) (kept_foldl (f := fun s (e : Nat × Bool × Nat) =>
    if (s.allocCtx e.1).dflt then s else s.setAllocCtx e.1 { s.allocCtx e.1 with valid := e.2.1, alloc := e.2.2 }) (l := stagedCtxOf s g)
    (fun t e ht => by dsimp only; split; exact ht; exact kept_st_setAllocCtx ht) h1)
  split
  · exact kept_takeCopy h2
  · exact h2

theorem kept_clearPend {g : Nat} {s : State} (h_s : Kept kb kl bl ko s) (h_p_regs : Part.regs ∈ kl := by assumption) (h_p_cfg : Part.cfg ∈ kl := by assumption) (h_b_CFG : blkCFG ∈ bl := by assumption) :
    Kept kb kl bl ko (clearPend g s) := by
  unfold clearPend
  with_reducible repeat' first
    | assumption
    | (refine mem_guard ?_; with_unfolding_all (first | assumption | exact (by assumption : ∀ n, n ∈ bl) _ | exact blk_n (by decide) (by decide) (by assumption) | exact blk_un (by decide) (by decide) (by decide) (by assumption)))
    | apply kept_st_clrBit
    | apply kept_st_setGroup
    | refine Kept.of_mk ?_

theorem kept_showShutter {k : Nat} {s : State} (h_s : Kept kb kl bl ko s) (h_p_regs : Part.regs ∈ kl := by assumption) (h_b_LPH : blkLPH ∈ bl := by assumption) (h_b_UBE : blkUBE ∈ bl := by assumption) :
    Kept kb kl bl ko (showShutter k s) := by
  unfold showShutter
  with_reducible repeat' first
    | assumption
    | (refine mem_guard ?_; with_unfolding_all (first | assumption | exact (by assumption : ∀ n, n ∈ bl) _ | exact blk_n (by decide) (by decide) (by assumption) | exact blk_un (by decide) (by decide) (by decide) (by assumption)))
    | (intro sx; refine (have hsx : Kept kb kl bl ko sx := ?_; ?_); on_goal 2 => (try clear_value sx))
    | (intro sx; try clear_value sx)
    | lift_lets
    | apply kept_st_put
    | refine Kept.of_mk ?_

theorem kept_chpDark {k : Nat} {s : State} (h_s : Kept kb kl bl ko s) (h_p_regs : Part.regs ∈ kl := by assumption) (h_p_cel : Part.cel ∈ kl := by assumption) (h_p_sch : Part.sch ∈ kl := by assumption) (h_p_ube : Part.ube ∈ kl := by assumption) (h_p_chp : Part.chp ∈ kl := by assumption) (h_p_ohs : Part.ohs ∈ kl := by assumption) (h_b_LPH : blkLPH ∈ bl := by assumption) (h_b_UBE : blkUBE ∈ bl := by assumption) (h_b_CHP : blkCHP ∈ bl := by assumption) (h_b_CEL : blkCEL ∈ bl := by assumption) :
    Kept kb kl bl ko (chpDark k s) := by
  unfold chpDark
  with_reducible repeat' first
    | assumption
    | (refine mem_guard ?_; with_unfolding_all (first | assumption | exact (by assumption : ∀ n, n ∈ bl) _ | exact blk_n (by decide) (by decide) (by assumption) | exact blk_un (by decide) (by decide) (by decide) (by assumption)))
    | (intro sx; refine (have hsx : Kept kb kl bl ko sx := ?_; ?_); on_goal 2 => (try clear_value sx))
    | (intro sx; try clear_value sx)
    | lift_lets
    | apply kept_gateDown
    | apply kept_endTail
    | apply kept_showShutter
    | apply kept_st_put
    | apply kept_cutStarted
    | refine Kept.of_mk ?_

theorem kept_chpReact {k : Nat} {s : State} (h_s : Kept kb kl bl ko s) (h_p_regs : Part.regs ∈ kl := by assumption) (h_p_cel : Part.cel ∈ kl := by assumption) (h_p_sch : Part.sch ∈ kl := by assumption) (h_p_ube : Part.ube ∈ kl := by assumption) (h_p_chp : Part.chp ∈ kl := by assumption) (h_p_ohs : Part.ohs ∈ kl := by assumption) (h_b_LPH : blkLPH ∈ bl := by assumption) (h_b_UBE : blkUBE ∈ bl := by assumption) (h_b_CHP : blkCHP ∈ bl := by assumption) (h_b_CEL : blkCEL ∈ bl := by assumption) :
    Kept kb kl bl ko (chpReact k s) := by
  unfold chpReact
  with_reducible repeat' first
    | assumption
    | (refine mem_guard ?_; with_unfolding_all (first | assumption | exact (by assumption : ∀ n, n ∈ bl) _ | exact blk_n (by decide) (by decide) (by assumption) | exact blk_un (by decide) (by decide) (by decide) (by assumption) | exact blk_ite (by assumption) (by assumption) | exact blk_ite (by exact blk_n (by decide) (by decide) (by assumption)) (by exact blk_n (by decide) (by decide) (by assumption))))
    | (intro sx; refine (have hsx : Kept kb kl bl ko sx := ?_; ?_); on_goal 2 => (try clear_value sx))
    | (intro sx; try clear_value sx)
    | lift_lets
    | apply kept_chpDark
    | apply kept_st_inc
    | apply kept_st_put
    | apply kept_ite
    | refine Kept.of_mk ?_
    | split

theorem kept_chpDrive {k : Nat} {s : State} (h_s : Kept kb kl bl ko s) (h_p_regs : Part.regs ∈ kl := by assumption) (h_p_cel : Part.cel ∈ kl := by assumption) (h_p_sch : Part.sch ∈ kl := by assumption) (h_p_ube : Part.ube ∈ kl := by assumption) (h_p_chp : Part.chp ∈ kl := by assumption) (h_p_ohs : Part.ohs ∈ kl := by assumption) (h_b_LPH : blkLPH ∈ bl := by assumption) (h_b_UBE : blkUBE ∈ bl := by assumption) (h_b_CHP : blkCHP ∈ bl := by assumption) (h_b_CEL : blkCEL ∈ bl := by assumption) :
    Kept kb kl bl ko (chpDrive k s) := by
  unfold chpDrive
  with_reducible repeat' first
    | assumption
    | (refine mem_guard ?_; with_unfolding_all (first | assumption | exact (by assumption : ∀ n, n ∈ bl) _ | exact blk_n (by decide) (by decide) (by assumption) | exact blk_un (by decide) (by decide) (by decide) (by assumption) | exact blk_ite (by assumption) (by assumption) | exact blk_ite (by exact blk_n (by decide) (by decide) (by assumption)) (by exact blk_n (by decide) (by decide) (by assumption))))
    | apply kept_showShutter
    | apply kept_st_put
    | apply kept_chpReact
    | apply kept_ite
    | refine Kept.of_mk ?_
    | split

theorem kept_chpReady {k : Nat} {s : State} (h_s : Kept kb kl bl ko s) (h_p_regs : Part.regs ∈ kl := by assumption) (h_b_LPH : blkLPH ∈ bl := by assumption) (h_b_UBE : blkUBE ∈ bl := by assumption) (h_b_CHP : blkCHP ∈ bl := by assumption) :
    Kept kb kl bl ko (chpReady k s) := by
  unfold chpReady
  with_reducible repeat' first
    | assumption
    | (refine mem_guard ?_; with_unfolding_all (first | assumption | exact (by assumption : ∀ n, n ∈ bl) _ | exact blk_n (by decide) (by decide) (by assumption) | exact blk_un (by decide) (by decide) (by decide) (by assumption) | exact blk_ite (by assumption) (by assumption) | exact blk_ite (by exact blk_n (by decide) (by decide) (by assumption)) (by exact blk_n (by decide) (by decide) (by assumption))))
    | apply kept_showShutter
    | apply kept_st_put
    | apply kept_ite
    | refine Kept.of_mk ?_
    | split

theorem kept_showSil {k : Nat} {b : Bool} {s : State} (h_s : Kept kb kl bl ko s) (h_p_regs : Part.regs ∈ kl := by assumption) (h_b_ACT : blkACT ∈ bl := by assumption) (h_b_CHP : blkCHP ∈ bl := by assumption) :
    Kept kb kl bl ko (showSil k b s) := by
  unfold showSil
  with_reducible repeat' first
    | assumption
    | (refine mem_guard ?_; with_unfolding_all (first | assumption | exact (by assumption : ∀ n, n ∈ bl) _ | exact blk_n (by decide) (by decide) (by assumption) | exact blk_un (by decide) (by decide) (by decide) (by assumption) | exact blk_ite (by assumption) (by assumption) | exact blk_ite (by exact blk_n (by decide) (by decide) (by assumption)) (by exact blk_n (by decide) (by decide) (by assumption))))
    | (intro sx; refine (have hsx : Kept kb kl bl ko sx := ?_; ?_); on_goal 2 => (try clear_value sx))
    | (intro sx; try clear_value sx)
    | lift_lets
    | apply kept_st_clrBit
    | apply kept_st_put
    | apply kept_st_setBit
    | apply kept_ite
    | refine Kept.of_mk ?_
    | split

theorem kept_clearCopy {k : Nat} {s : State} (h_s : Kept kb kl bl ko s) (h_p_regs : Part.regs ∈ kl := by assumption) (h_b_CHP : blkCHP ∈ bl := by assumption) :
    Kept kb kl bl ko (clearCopy k s) := by
  unfold clearCopy
  with_reducible repeat' first
    | assumption
    | (refine mem_guard ?_; with_unfolding_all (first | assumption | exact (by assumption : ∀ n, n ∈ bl) _ | exact blk_n (by decide) (by decide) (by assumption) | exact blk_un (by decide) (by decide) (by decide) (by assumption)))
    | (intro sx; refine (have hsx : Kept kb kl bl ko sx := ?_; ?_); on_goal 2 => (try clear_value sx))
    | (intro sx; try clear_value sx)
    | lift_lets
    | apply kept_st_put
    | apply kept_setReg
    | (apply kept_foldl; intro sy xy hy)
    | (apply kept_foldl2; intro sy xy hy)
    | (apply kept_foldl1; intro sy xy hy)
    | refine Kept.of_mk ?_

theorem kept_chpShut {k : Nat} {cause : Nat} {s : State} (h_s : Kept kb kl bl ko s) (h_p_regs : Part.regs ∈ kl := by assumption) (h_p_cel : Part.cel ∈ kl := by assumption) (h_p_sch : Part.sch ∈ kl := by assumption) (h_p_ube : Part.ube ∈ kl := by assumption) (h_p_chp : Part.chp ∈ kl := by assumption) (h_p_ohs : Part.ohs ∈ kl := by assumption) (h_b_LPH : blkLPH ∈ bl := by assumption) (h_b_ACT : blkACT ∈ bl := by assumption) (h_b_UBE : blkUBE ∈ bl := by assumption) (h_b_CHP : blkCHP ∈ bl := by assumption) (h_b_CEL : blkCEL ∈ bl := by assumption) :
    Kept kb kl bl ko (chpShut k cause s) := by
  unfold chpShut
  with_reducible repeat' first
    | assumption
    | (refine mem_guard ?_; with_unfolding_all (first | assumption | exact (by assumption : ∀ n, n ∈ bl) _ | exact blk_n (by decide) (by decide) (by assumption) | exact blk_un (by decide) (by decide) (by decide) (by assumption) | exact blk_ite (by assumption) (by assumption) | exact blk_ite (by exact blk_n (by decide) (by decide) (by assumption)) (by exact blk_n (by decide) (by decide) (by assumption))))
    | (intro sx; refine (have hsx : Kept kb kl bl ko sx := ?_; ?_); on_goal 2 => (try clear_value sx))
    | (intro sx; try clear_value sx)
    | lift_lets
    | apply kept_chpDark
    | apply kept_st_setChpCh
    | apply kept_st_wr
    | apply kept_showSil
    | apply kept_clearCopy
    | apply kept_ite
    | refine Kept.of_mk ?_
    | split

theorem kept_chpReport {k : Nat} {cause : Nat} {inj : Bool} {s : State} (h_s : Kept kb kl bl ko s) (h_p_regs : Part.regs ∈ kl := by assumption) (h_p_flt : Part.flt ∈ kl := by assumption) (h_b_FLT : blkFLT ∈ bl := by assumption) :
    Kept kb kl bl ko (chpReport k cause inj s) := by
  unfold chpReport
  with_reducible repeat' first
    | assumption
    | apply kept_fltLatch
    | refine Kept.of_mk ?_

theorem kept_chpParse {k : Nat} {bad : List Nat} {header : Bytes} {entries : List Bytes} {s : State} (h_s : Kept kb kl bl ko s) (h_p_regs : Part.regs ∈ kl := by assumption) (h_p_chp : Part.chp ∈ kl := by assumption) (h_b_CHP : blkCHP ∈ bl := by assumption) :
    Kept kb kl bl ko (chpParse k bad header entries s) := by
  unfold chpParse
  with_reducible repeat' first
    | assumption
    | (refine mem_guard ?_; with_unfolding_all (first | assumption | exact (by assumption : ∀ n, n ∈ bl) _ | exact blk_n (by decide) (by decide) (by assumption) | exact blk_un (by decide) (by decide) (by decide) (by assumption) | exact blk_ite (by assumption) (by assumption) | exact blk_ite (by exact blk_n (by decide) (by decide) (by assumption)) (by exact blk_n (by decide) (by decide) (by assumption))))
    | (intro sx; refine (have hsx : Kept kb kl bl ko sx := ?_; ?_); on_goal 2 => (try clear_value sx))
    | (intro sx; try clear_value sx)
    | lift_lets
    | apply kept_st_inc
    | apply kept_st_setChpCh
    | apply kept_ite
    | (apply kept_foldl; intro sy xy hy)
    | (apply kept_foldl2; intro sy xy hy)
    | (apply kept_foldl1; intro sy xy hy)
    | split
    | dsimp only [sx]
    | refine Kept.of_mk ?_

theorem kept_chpPhase {k : Nat} {s : State} (h_s : Kept kb kl bl ko s) (h_p_regs : Part.regs ∈ kl := by assumption) (h_p_chp : Part.chp ∈ kl := by assumption) (h_b_CHP : blkCHP ∈ bl := by assumption) :
    Kept kb kl bl ko (chpPhase k s) := by
  unfold chpPhase
  with_reducible repeat' first
    | assumption
    | (refine mem_guard ?_; with_unfolding_all (first | assumption | exact (by assumption : ∀ n, n ∈ bl) _ | exact blk_n (by decide) (by decide) (by assumption) | exact blk_un (by decide) (by decide) (by decide) (by assumption)))
    | apply kept_st_put
    | apply kept_st_setChpCh
    | refine Kept.of_mk ?_

theorem kept_chpRelease {k : Nat} {held : Bool} {pass : Bool} {s : State} (h_s : Kept kb kl bl ko s) (h_p_regs : Part.regs ∈ kl := by assumption) (h_p_chp : Part.chp ∈ kl := by assumption) (h_b_ACT : blkACT ∈ bl := by assumption) (h_b_CHP : blkCHP ∈ bl := by assumption) :
    Kept kb kl bl ko (chpRelease k held pass s).1 := by
  unfold chpRelease
  with_reducible repeat' first
    | assumption
    | (refine mem_guard ?_; with_unfolding_all (first | assumption | exact (by assumption : ∀ n, n ∈ bl) _ | exact blk_n (by decide) (by decide) (by assumption) | exact blk_un (by decide) (by decide) (by decide) (by assumption) | exact blk_ite (by assumption) (by assumption) | exact blk_ite (by exact blk_n (by decide) (by decide) (by assumption)) (by exact blk_n (by decide) (by decide) (by assumption))))
    | (intro sx; refine (have hsx : Kept kb kl bl ko sx := ?_; ?_); on_goal 2 => (try clear_value sx))
    | (intro sx; try clear_value sx)
    | lift_lets
    | apply kept_st_put
    | apply kept_st_setChpCh
    | apply kept_st_wr
    | apply kept_showSil
    | apply kept_ite
    | apply kept_ite1
    | apply kept_ite2
    | apply kept_ite21
    | apply kept_ite22
    | refine Kept.of_mk ?_
    | split

theorem kept_lineChange {k : Nat} {f : LineCopy → LineCopy} {s : State} (h_s : Kept kb kl bl ko s) (h_p_act : Part.act ∈ kl := by assumption) :
    Kept kb kl bl ko (lineChange k f s) := by
  unfold lineChange
  with_reducible repeat' first
    | assumption
    | (intro sx; refine (have hsx : Kept kb kl bl ko sx := ?_; ?_); on_goal 2 => (try clear_value sx))
    | (intro sx; try clear_value sx)
    | lift_lets
    | apply kept_st_setPair
    | refine Kept.of_mk ?_

theorem kept_stageCopy {k : Nat} {v : LineCopy} {s : State} (h_s : Kept kb kl bl ko s) (h_p_cfg : Part.cfg ∈ kl := by assumption) :
    Kept kb kl bl ko (stageCopy k v s) := by
  unfold stageCopy
  with_reducible repeat' first
    | assumption
    | apply kept_st_setStagedReg
    | refine Kept.of_mk ?_

theorem kept_actStage {k : Nat} {s : State} (h_s : Kept kb kl bl ko s) (h_p_regs : Part.regs ∈ kl := by assumption) (h_p_cfg : Part.cfg ∈ kl := by assumption) (h_p_act : Part.act ∈ kl := by assumption) (h_p_ube : Part.ube ∈ kl := by assumption) (h_b_CFG : blkCFG ∈ bl := by assumption) (h_b_CHP : blkCHP ∈ bl := by assumption) :
    Kept kb kl bl ko (actStage k s) := by
  unfold actStage
  with_reducible repeat' first
    | assumption
    | (intro sx; refine (have hsx : Kept kb kl bl ko sx := ?_; ?_); on_goal 2 => (try clear_value sx))
    | (intro sx; try clear_value sx)
    | lift_lets
    | apply kept_st_setPair
    | apply kept_requestCommit
    | apply kept_applyStaged
    | apply kept_clearPend
    | apply kept_stageCopy
    | apply kept_ite
    | split
    | dsimp only [sx]
    | refine Kept.of_mk ?_

theorem kept_lineClear {k : Nat} {s : State} (h_s : Kept kb kl bl ko s) (h_p_regs : Part.regs ∈ kl := by assumption) (h_p_cfg : Part.cfg ∈ kl := by assumption) (h_p_cel : Part.cel ∈ kl := by assumption) (h_p_sch : Part.sch ∈ kl := by assumption) (h_p_act : Part.act ∈ kl := by assumption) (h_p_ube : Part.ube ∈ kl := by assumption) (h_p_chp : Part.chp ∈ kl := by assumption) (h_p_ohs : Part.ohs ∈ kl := by assumption) (h_b_CFG : blkCFG ∈ bl := by assumption) (h_b_LPH : blkLPH ∈ bl := by assumption) (h_b_UBE : blkUBE ∈ bl := by assumption) (h_b_CHP : blkCHP ∈ bl := by assumption) (h_b_CEL : blkCEL ∈ bl := by assumption) :
    Kept kb kl bl ko (lineClear k s) := by
  unfold lineClear
  with_reducible repeat' first
    | assumption
    | (refine mem_guard ?_; with_unfolding_all (first | assumption | exact (by assumption : ∀ n, n ∈ bl) _ | exact blk_n (by decide) (by decide) (by assumption) | exact blk_un (by decide) (by decide) (by decide) (by assumption)))
    | (intro sx; refine (have hsx : Kept kb kl bl ko sx := ?_; ?_); on_goal 2 => (try clear_value sx))
    | (intro sx; try clear_value sx)
    | lift_lets
    | apply kept_st_setPair
    | apply kept_st_put
    | apply kept_discardStaged
    | apply kept_clearPend
    | apply kept_chpReact
    | apply kept_takeCopy
    | refine Kept.of_mk ?_

theorem kept_nextSeq {k : Nat} {type : Nat} {s : State} (h_s : Kept kb kl bl ko s) (h_p_act : Part.act ∈ kl := by assumption) :
    Kept kb kl bl ko (nextSeq k type s).2 := by
  unfold nextSeq
  with_reducible repeat' first
    | assumption
    | (intro sx; refine (have hsx : Kept kb kl bl ko sx := ?_; ?_); on_goal 2 => (try clear_value sx))
    | (intro sx; try clear_value sx)
    | lift_lets
    | apply kept_st_setPair
    | refine Kept.of_mk ?_

theorem kept_queueUp {k : Nat} {m : Bytes} {s : State} (h_s : Kept kb kl bl ko s) (h_p_regs : Part.regs ∈ kl := by assumption) (h_p_act : Part.act ∈ kl := by assumption) (h_b_ACT : blkACT ∈ bl := by assumption) :
    Kept kb kl bl ko (queueUp k m s) := by
  unfold queueUp
  with_reducible repeat' first
    | assumption
    | (refine mem_guard ?_; with_unfolding_all (first | assumption | exact (by assumption : ∀ n, n ∈ bl) _ | exact blk_n (by decide) (by decide) (by assumption) | exact blk_un (by decide) (by decide) (by decide) (by assumption) | exact blk_ite (by assumption) (by assumption) | exact blk_ite (by exact blk_n (by decide) (by decide) (by assumption)) (by exact blk_n (by decide) (by decide) (by assumption))))
    | (intro sx; refine (have hsx : Kept kb kl bl ko sx := ?_; ?_); on_goal 2 => (try clear_value sx))
    | (intro sx; refine (have hsx : Kept kb kl bl ko sx.2 := ?_; ?_); on_goal 2 => (try clear_value sx))
    | (intro sx; try clear_value sx)
    | lift_lets
    | apply kept_st_setPair
    | apply kept_st_put
    | apply kept_nextSeq
    | apply kept_ite
    | apply kept_ite2
    | refine Kept.of_mk ?_
    | split

theorem kept_forgetPair {k : Nat} {s : State} (h_s : Kept kb kl bl ko s) (h_p_regs : Part.regs ∈ kl := by assumption) (h_p_act : Part.act ∈ kl := by assumption) (h_b_ACT : blkACT ∈ bl := by assumption) :
    Kept kb kl bl ko (forgetPair k s) := by
  unfold forgetPair
  with_reducible repeat' first
    | assumption
    | (refine mem_guard ?_; with_unfolding_all (first | assumption | exact (by assumption : ∀ n, n ∈ bl) _ | exact blk_n (by decide) (by decide) (by assumption) | exact blk_un (by decide) (by decide) (by decide) (by assumption)))
    | (intro sx; refine (have hsx : Kept kb kl bl ko sx := ?_; ?_); on_goal 2 => (try clear_value sx))
    | (intro sx; try clear_value sx)
    | lift_lets
    | apply kept_st_setPair
    | apply kept_st_put
    | apply kept_st_wr
    | refine Kept.of_mk ?_

theorem kept_abortAsm {k : Nat} {sid : Nat} {s : State} (h_s : Kept kb kl bl ko s) (h_p_regs : Part.regs ∈ kl := by assumption) (h_p_cel : Part.cel ∈ kl := by assumption) (h_p_dsf : Part.dsf ∈ kl := by assumption) (h_b_DSF : blkDSF ∈ bl := by assumption) :
    Kept kb kl bl ko (abortAsm k sid s) := by
  unfold abortAsm
  with_reducible repeat' first
    | assumption
    | (refine mem_guard ?_; with_unfolding_all (first | assumption | exact (by assumption : ∀ n, n ∈ bl) _ | exact blk_n (by decide) (by decide) (by assumption) | exact blk_un (by decide) (by decide) (by decide) (by assumption)))
    | (intro sx; refine (have hsx : Kept kb kl bl ko sx := ?_; ?_); on_goal 2 => (try clear_value sx))
    | (intro sx; try clear_value sx)
    | lift_lets
    | apply kept_st_inc
    | apply kept_st_setDsfCh
    | split
    | dsimp only [sx]
    | refine Kept.of_mk ?_

theorem kept_abortAll {k : Nat} {s : State} (h_s : Kept kb kl bl ko s) (h_p_regs : Part.regs ∈ kl := by assumption) (h_p_cel : Part.cel ∈ kl := by assumption) (h_p_dsf : Part.dsf ∈ kl := by assumption) (h_b_DSF : blkDSF ∈ bl := by assumption) :
    Kept kb kl bl ko (abortAll k s) := by
  unfold abortAll
  with_reducible repeat' first
    | assumption
    | apply kept_abortAsm
    | (apply kept_foldl; intro sy xy hy)
    | (apply kept_foldl2; intro sy xy hy)
    | (apply kept_foldl1; intro sy xy hy)
    | refine Kept.of_mk ?_

theorem kept_streamTouched {k : Nat} {sid : Nat} {s : State} (h_s : Kept kb kl bl ko s) (h_p_regs : Part.regs ∈ kl := by assumption) (h_p_cel : Part.cel ∈ kl := by assumption) (h_p_sch : Part.sch ∈ kl := by assumption) (h_p_dsf : Part.dsf ∈ kl := by assumption) (h_p_pipes : Part.pipes ∈ kl := by assumption) (h_p_spc : Part.spc ∈ kl := by assumption) (h_b_DSF : blkDSF ∈ bl := by assumption) (h_b_SPC : blkSPC ∈ bl := by assumption) (h_b_CEL : blkCEL ∈ bl := by assumption) :
    Kept kb kl bl ko (streamTouched k sid s) := by
  unfold streamTouched
  with_reducible repeat' first
    | assumption
    | apply kept_abortAsm
    | apply kept_squashStream
    | refine Kept.of_mk ?_

theorem kept_clearStreams {k : Nat} {s : State} (h_s : Kept kb kl bl ko s) (h_p_regs : Part.regs ∈ kl := by assumption) (h_p_cel : Part.cel ∈ kl := by assumption) (h_p_sch : Part.sch ∈ kl := by assumption) (h_p_dsf : Part.dsf ∈ kl := by assumption) (h_p_pipes : Part.pipes ∈ kl := by assumption) (h_p_spc : Part.spc ∈ kl := by assumption) (h_b_DSF : blkDSF ∈ bl := by assumption) (h_b_SPC : blkSPC ∈ bl := by assumption) (h_b_CEL : blkCEL ∈ bl := by assumption) :
    Kept kb kl bl ko (clearStreams k s) := by
  unfold clearStreams
  with_reducible repeat' first
    | assumption
    | (intro sx; refine (have hsx : Kept kb kl bl ko sx := ?_; ?_); on_goal 2 => (try clear_value sx))
    | (intro sx; refine (have hsx : Kept kb kl bl ko sx.2 := ?_; ?_); on_goal 2 => (try clear_value sx))
    | (intro sx; refine (have hsx : Kept kb kl bl ko sx.1 := ?_; ?_); on_goal 2 => (try clear_value sx))
    | (intro sx; try clear_value sx)
    | lift_lets
    | apply kept_st_setStreamMap
    | apply kept_streamTouched
    | (apply kept_foldl; intro sy xy hy)
    | (apply kept_foldl2; intro sy xy hy)
    | (apply kept_foldl1; intro sy xy hy)
    | refine Kept.of_mk ?_

theorem kept_dropAnnounce {k : Nat} {s : State} (h_s : Kept kb kl bl ko s) (h_p_regs : Part.regs ∈ kl := by assumption) (h_p_ube : Part.ube ∈ kl := by assumption) (h_b_UBE : blkUBE ∈ bl := by assumption) :
    Kept kb kl bl ko (dropAnnounce k s) := by
  unfold dropAnnounce
  with_reducible repeat' first
    | assumption
    | apply kept_st_setUbeCh
    | apply kept_ubeShow
    | refine Kept.of_mk ?_

theorem kept_enterState {k : Nat} {new : Nat} {s : State} (h_s : Kept kb kl bl ko s) (h_p_regs : Part.regs ∈ kl := by assumption) (h_p_cfg : Part.cfg ∈ kl := by assumption) (h_p_cel : Part.cel ∈ kl := by assumption) (h_p_sch : Part.sch ∈ kl := by assumption) (h_p_kln : Part.kln ∈ kl := by assumption) (h_p_act : Part.act ∈ kl := by assumption) (h_p_ube : Part.ube ∈ kl := by assumption) (h_p_chp : Part.chp ∈ kl := by assumption) (h_p_dsf : Part.dsf ∈ kl := by assumption) (h_p_ohs : Part.ohs ∈ kl := by assumption) (h_p_pipes : Part.pipes ∈ kl := by assumption) (h_p_spc : Part.spc ∈ kl := by assumption) (h_p_tim : Part.tim ∈ kl := by assumption) (h_b_CFG : blkCFG ∈ bl := by assumption) (h_b_LPH : blkLPH ∈ bl := by assumption) (h_b_DSF : blkDSF ∈ bl := by assumption) (h_b_ACT : blkACT ∈ bl := by assumption) (h_b_UBE : blkUBE ∈ bl := by assumption) (h_b_CHP : blkCHP ∈ bl := by assumption) (h_b_SPC : blkSPC ∈ bl := by assumption) (h_b_CEL : blkCEL ∈ bl := by assumption) (h_b_KLN : blkKLN ∈ bl := by assumption) :
    Kept kb kl bl ko (enterState k new s) := by
  unfold enterState
  with_reducible repeat' first
    | assumption
    | (refine mem_guard ?_; with_unfolding_all (first | assumption | exact (by assumption : ∀ n, n ∈ bl) _ | exact blk_n (by decide) (by decide) (by assumption) | exact blk_un (by decide) (by decide) (by decide) (by assumption) | exact blk_ite (by assumption) (by assumption) | exact blk_ite (by exact blk_n (by decide) (by decide) (by assumption)) (by exact blk_n (by decide) (by decide) (by assumption)) | exact blk_eqdOf (by assumption)))
    | (intro sx; refine (have hsx : Kept kb kl bl ko sx := ?_; ?_); on_goal 2 => (try clear_value sx))
    | intro sx
    | lift_lets
    | apply kept_st_setPair
    | apply kept_klnForget
    | apply kept_st_put
    | apply kept_ubeLeave
    | apply kept_forgetPair
    | apply kept_dropAnnounce
    | apply kept_st_setTimLine
    | apply kept_lineChange
    | apply kept_lineClear
    | apply kept_clearStreams
    | apply kept_st_wr
    | apply kept_releaseDefault
    | apply kept_releaseContexts
    | apply kept_ite
    | refine Kept.of_mk ?_
    | split

theorem kept_pollOnce {k : Nat} {s : State} (h_s : Kept kb kl bl ko s) (h_p_regs : Part.regs ∈ kl := by assumption) (h_p_cfg : Part.cfg ∈ kl := by assumption) (h_p_cel : Part.cel ∈ kl := by assumption) (h_p_sch : Part.sch ∈ kl := by assumption) (h_p_kln : Part.kln ∈ kl := by assumption) (h_p_act : Part.act ∈ kl := by assumption) (h_p_ube : Part.ube ∈ kl := by assumption) (h_p_chp : Part.chp ∈ kl := by assumption) (h_p_dsf : Part.dsf ∈ kl := by assumption) (h_p_ohs : Part.ohs ∈ kl := by assumption) (h_p_pipes : Part.pipes ∈ kl := by assumption) (h_p_spc : Part.spc ∈ kl := by assumption) (h_p_tim : Part.tim ∈ kl := by assumption) (h_b_CFG : blkCFG ∈ bl := by assumption) (h_b_LPH : blkLPH ∈ bl := by assumption) (h_b_DSF : blkDSF ∈ bl := by assumption) (h_b_ACT : blkACT ∈ bl := by assumption) (h_b_UBE : blkUBE ∈ bl := by assumption) (h_b_CHP : blkCHP ∈ bl := by assumption) (h_b_SPC : blkSPC ∈ bl := by assumption) (h_b_CEL : blkCEL ∈ bl := by assumption) (h_b_KLN : blkKLN ∈ bl := by assumption) :
    Kept kb kl bl ko (pollOnce k s) := by
  unfold pollOnce
  with_reducible repeat' first
    | assumption
    | (intro sx; refine (have hsx : Kept kb kl bl ko sx := ?_; ?_); on_goal 2 => (try clear_value sx))
    | (intro sx; try clear_value sx)
    | lift_lets
    | apply kept_enterState
    | apply kept_ite
    | refine Kept.of_mk ?_
    | split

theorem kept_keyAnswer {k : Nat} {s : State} (h_s : Kept kb kl bl ko s) (h_p_regs : Part.regs ∈ kl := by assumption) (h_p_act : Part.act ∈ kl := by assumption) (h_b_ACT : blkACT ∈ bl := by assumption) :
    Kept kb kl bl ko (keyAnswer k s) := by
  unfold keyAnswer
  with_reducible repeat' first
    | assumption
    | (intro sx; refine (have hsx : Kept kb kl bl ko sx := ?_; ?_); on_goal 2 => (try clear_value sx))
    | (intro sx; try clear_value sx)
    | lift_lets
    | apply kept_st_setPair
    | apply kept_queueUp
    | apply kept_ite
    | (apply kept_foldl; intro sy xy hy)
    | (apply kept_foldl2; intro sy xy hy)
    | (apply kept_foldl1; intro sy xy hy)
    | split
    | dsimp only [sx]
    | refine Kept.of_mk ?_

theorem kept_actPoll {k : Nat} {s : State} (h_s : Kept kb kl bl ko s) (h_p_regs : Part.regs ∈ kl := by assumption) (h_p_cfg : Part.cfg ∈ kl := by assumption) (h_p_cel : Part.cel ∈ kl := by assumption) (h_p_sch : Part.sch ∈ kl := by assumption) (h_p_kln : Part.kln ∈ kl := by assumption) (h_p_act : Part.act ∈ kl := by assumption) (h_p_ube : Part.ube ∈ kl := by assumption) (h_p_chp : Part.chp ∈ kl := by assumption) (h_p_dsf : Part.dsf ∈ kl := by assumption) (h_p_ohs : Part.ohs ∈ kl := by assumption) (h_p_pipes : Part.pipes ∈ kl := by assumption) (h_p_spc : Part.spc ∈ kl := by assumption) (h_p_tim : Part.tim ∈ kl := by assumption) (h_b_CFG : blkCFG ∈ bl := by assumption) (h_b_LPH : blkLPH ∈ bl := by assumption) (h_b_DSF : blkDSF ∈ bl := by assumption) (h_b_ACT : blkACT ∈ bl := by assumption) (h_b_UBE : blkUBE ∈ bl := by assumption) (h_b_CHP : blkCHP ∈ bl := by assumption) (h_b_SPC : blkSPC ∈ bl := by assumption) (h_b_CEL : blkCEL ∈ bl := by assumption) (h_b_KLN : blkKLN ∈ bl := by assumption) (h_b_TIM : blkTIM ∈ bl := by assumption) :
    Kept kb kl bl ko (actPoll k s) := by
  unfold actPoll
  with_reducible repeat' first
    | assumption
    | apply kept_timPoll
    | apply kept_keyAnswer
    | apply kept_pollOnce
    | apply kept_ite
    | refine Kept.of_mk ?_
    | split

theorem kept_keyAnswers {s : State} (h_s : Kept kb kl bl ko s) (h_p_regs : Part.regs ∈ kl := by assumption) (h_p_act : Part.act ∈ kl := by assumption) (h_b_ACT : blkACT ∈ bl := by assumption) :
    Kept kb kl bl ko (keyAnswers s) := by
  unfold keyAnswers
  with_reducible repeat' first
    | assumption
    | apply kept_keyAnswer
    | apply kept_ite
    | (apply kept_foldl; intro sy xy hy)
    | (apply kept_foldl2; intro sy xy hy)
    | (apply kept_foldl1; intro sy xy hy)
    | refine Kept.of_mk ?_
    | split

theorem kept_actLof {k : Nat} {s : State} (h_s : Kept kb kl bl ko s) (h_p_regs : Part.regs ∈ kl := by assumption) (h_p_cfg : Part.cfg ∈ kl := by assumption) (h_p_cel : Part.cel ∈ kl := by assumption) (h_p_sch : Part.sch ∈ kl := by assumption) (h_p_kln : Part.kln ∈ kl := by assumption) (h_p_act : Part.act ∈ kl := by assumption) (h_p_ube : Part.ube ∈ kl := by assumption) (h_p_chp : Part.chp ∈ kl := by assumption) (h_p_dsf : Part.dsf ∈ kl := by assumption) (h_p_ohs : Part.ohs ∈ kl := by assumption) (h_p_pipes : Part.pipes ∈ kl := by assumption) (h_p_spc : Part.spc ∈ kl := by assumption) (h_p_tim : Part.tim ∈ kl := by assumption) (h_b_CFG : blkCFG ∈ bl := by assumption) (h_b_LPH : blkLPH ∈ bl := by assumption) (h_b_DSF : blkDSF ∈ bl := by assumption) (h_b_ACT : blkACT ∈ bl := by assumption) (h_b_UBE : blkUBE ∈ bl := by assumption) (h_b_CHP : blkCHP ∈ bl := by assumption) (h_b_SPC : blkSPC ∈ bl := by assumption) (h_b_CEL : blkCEL ∈ bl := by assumption) (h_b_KLN : blkKLN ∈ bl := by assumption) (h_b_TIM : blkTIM ∈ bl := by assumption) :
    Kept kb kl bl ko (actLof k s) := by
  unfold actLof
  with_reducible repeat' first
    | assumption
    | (intro sx; refine (have hsx : Kept kb kl bl ko sx := ?_; ?_); on_goal 2 => (try clear_value sx))
    | (intro sx; try clear_value sx)
    | lift_lets
    | apply kept_actPoll
    | apply kept_enterState
    | apply kept_actStage
    | apply kept_ite
    | refine Kept.of_mk ?_
    | split

theorem kept_actShutdown {k : Nat} {s : State} (h_s : Kept kb kl bl ko s) (h_p_regs : Part.regs ∈ kl := by assumption) (h_p_cfg : Part.cfg ∈ kl := by assumption) (h_p_cel : Part.cel ∈ kl := by assumption) (h_p_sch : Part.sch ∈ kl := by assumption) (h_p_kln : Part.kln ∈ kl := by assumption) (h_p_act : Part.act ∈ kl := by assumption) (h_p_ube : Part.ube ∈ kl := by assumption) (h_p_chp : Part.chp ∈ kl := by assumption) (h_p_dsf : Part.dsf ∈ kl := by assumption) (h_p_ohs : Part.ohs ∈ kl := by assumption) (h_p_pipes : Part.pipes ∈ kl := by assumption) (h_p_spc : Part.spc ∈ kl := by assumption) (h_p_tim : Part.tim ∈ kl := by assumption) (h_b_CFG : blkCFG ∈ bl := by assumption) (h_b_LPH : blkLPH ∈ bl := by assumption) (h_b_DSF : blkDSF ∈ bl := by assumption) (h_b_ACT : blkACT ∈ bl := by assumption) (h_b_UBE : blkUBE ∈ bl := by assumption) (h_b_CHP : blkCHP ∈ bl := by assumption) (h_b_SPC : blkSPC ∈ bl := by assumption) (h_b_CEL : blkCEL ∈ bl := by assumption) (h_b_KLN : blkKLN ∈ bl := by assumption) (h_b_TIM : blkTIM ∈ bl := by assumption) :
    Kept kb kl bl ko (actShutdown k s) := by
  unfold actShutdown
  with_reducible repeat' first
    | assumption
    | (intro sx; refine (have hsx : Kept kb kl bl ko sx := ?_; ?_); on_goal 2 => (try clear_value sx))
    | (intro sx; try clear_value sx)
    | lift_lets
    | apply kept_actPoll
    | apply kept_enterState
    | apply kept_ite
    | refine Kept.of_mk ?_
    | split

theorem kept_shutDown {k : Nat} {cause : Nat} {inj : Bool} {s : State} (h_s : Kept kb kl bl ko s) (h_p_regs : Part.regs ∈ kl := by assumption) (h_p_cfg : Part.cfg ∈ kl := by assumption) (h_p_flt : Part.flt ∈ kl := by assumption) (h_p_cel : Part.cel ∈ kl := by assumption) (h_p_sch : Part.sch ∈ kl := by assumption) (h_p_kln : Part.kln ∈ kl := by assumption) (h_p_act : Part.act ∈ kl := by assumption) (h_p_ube : Part.ube ∈ kl := by assumption) (h_p_chp : Part.chp ∈ kl := by assumption) (h_p_dsf : Part.dsf ∈ kl := by assumption) (h_p_ohs : Part.ohs ∈ kl := by assumption) (h_p_pipes : Part.pipes ∈ kl := by assumption) (h_p_spc : Part.spc ∈ kl := by assumption) (h_p_tim : Part.tim ∈ kl := by assumption) (h_b_CFG : blkCFG ∈ bl := by assumption) (h_b_FLT : blkFLT ∈ bl := by assumption) (h_b_LPH : blkLPH ∈ bl := by assumption) (h_b_DSF : blkDSF ∈ bl := by assumption) (h_b_ACT : blkACT ∈ bl := by assumption) (h_b_UBE : blkUBE ∈ bl := by assumption) (h_b_CHP : blkCHP ∈ bl := by assumption) (h_b_SPC : blkSPC ∈ bl := by assumption) (h_b_CEL : blkCEL ∈ bl := by assumption) (h_b_KLN : blkKLN ∈ bl := by assumption) (h_b_TIM : blkTIM ∈ bl := by assumption) :
    Kept kb kl bl ko (shutDown k cause inj s) := by
  unfold shutDown
  with_reducible repeat' first
    | assumption
    | apply kept_actShutdown
    | apply kept_chpShut
    | apply kept_chpReport
    | apply kept_ite
    | refine Kept.of_mk ?_
    | split

theorem kept_shutDownAll {s : State} (h_s : Kept kb kl bl ko s) (h_p_regs : Part.regs ∈ kl := by assumption) (h_p_cfg : Part.cfg ∈ kl := by assumption) (h_p_flt : Part.flt ∈ kl := by assumption) (h_p_cel : Part.cel ∈ kl := by assumption) (h_p_sch : Part.sch ∈ kl := by assumption) (h_p_kln : Part.kln ∈ kl := by assumption) (h_p_act : Part.act ∈ kl := by assumption) (h_p_ube : Part.ube ∈ kl := by assumption) (h_p_chp : Part.chp ∈ kl := by assumption) (h_p_dsf : Part.dsf ∈ kl := by assumption) (h_p_ohs : Part.ohs ∈ kl := by assumption) (h_p_pipes : Part.pipes ∈ kl := by assumption) (h_p_spc : Part.spc ∈ kl := by assumption) (h_p_tim : Part.tim ∈ kl := by assumption) (h_b_CFG : blkCFG ∈ bl := by assumption) (h_b_FLT : blkFLT ∈ bl := by assumption) (h_b_LPH : blkLPH ∈ bl := by assumption) (h_b_DSF : blkDSF ∈ bl := by assumption) (h_b_ACT : blkACT ∈ bl := by assumption) (h_b_UBE : blkUBE ∈ bl := by assumption) (h_b_CHP : blkCHP ∈ bl := by assumption) (h_b_SPC : blkSPC ∈ bl := by assumption) (h_b_CEL : blkCEL ∈ bl := by assumption) (h_b_KLN : blkKLN ∈ bl := by assumption) (h_b_TIM : blkTIM ∈ bl := by assumption) :
    Kept kb kl bl ko (shutDownAll s) := by
  unfold shutDownAll
  with_reducible repeat' first
    | assumption
    | (intro sx; refine (have hsx : Kept kb kl bl ko sx := ?_; ?_); on_goal 2 => (try clear_value sx))
    | (intro sx; try clear_value sx)
    | lift_lets
    | apply kept_actShutdown
    | apply kept_chpShut
    | apply kept_chpReport
    | apply kept_ite
    | (apply kept_foldl; intro sy xy hy)
    | (apply kept_foldl2; intro sy xy hy)
    | (apply kept_foldl1; intro sy xy hy)
    | refine Kept.of_mk ?_
    | split

theorem kept_actHeader {k : Nat} {he : Nat} {s : State} (h_s : Kept kb kl bl ko s) (h_p_regs : Part.regs ∈ kl := by assumption) (h_p_cfg : Part.cfg ∈ kl := by assumption) (h_p_cel : Part.cel ∈ kl := by assumption) (h_p_sch : Part.sch ∈ kl := by assumption) (h_p_kln : Part.kln ∈ kl := by assumption) (h_p_act : Part.act ∈ kl := by assumption) (h_p_ube : Part.ube ∈ kl := by assumption) (h_p_chp : Part.chp ∈ kl := by assumption) (h_p_dsf : Part.dsf ∈ kl := by assumption) (h_p_ohs : Part.ohs ∈ kl := by assumption) (h_p_pipes : Part.pipes ∈ kl := by assumption) (h_p_spc : Part.spc ∈ kl := by assumption) (h_p_tim : Part.tim ∈ kl := by assumption) (h_b_CFG : blkCFG ∈ bl := by assumption) (h_b_LPH : blkLPH ∈ bl := by assumption) (h_b_DSF : blkDSF ∈ bl := by assumption) (h_b_ACT : blkACT ∈ bl := by assumption) (h_b_UBE : blkUBE ∈ bl := by assumption) (h_b_CHP : blkCHP ∈ bl := by assumption) (h_b_SPC : blkSPC ∈ bl := by assumption) (h_b_CEL : blkCEL ∈ bl := by assumption) (h_b_KLN : blkKLN ∈ bl := by assumption) (h_b_TIM : blkTIM ∈ bl := by assumption) :
    Kept kb kl bl ko (actHeader k he s) := by
  unfold actHeader
  with_reducible repeat' first
    | assumption
    | (refine mem_guard ?_; with_unfolding_all (first | assumption | exact (by assumption : ∀ n, n ∈ bl) _ | exact blk_n (by decide) (by decide) (by assumption) | exact blk_un (by decide) (by decide) (by decide) (by assumption) | exact blk_ite (by assumption) (by assumption) | exact blk_ite (by exact blk_n (by decide) (by decide) (by assumption)) (by exact blk_n (by decide) (by decide) (by assumption))))
    | (intro sx; refine (have hsx : Kept kb kl bl ko sx := ?_; ?_); on_goal 2 => (try clear_value sx))
    | (intro sx; try clear_value sx)
    | lift_lets
    | apply kept_actPoll
    | apply kept_st_setPair
    | apply kept_st_inc
    | apply kept_st_put
    | apply kept_enterState
    | apply kept_st_wr
    | apply kept_ite
    | refine Kept.of_mk ?_
    | split

theorem kept_actRestart {k : Nat} {s : State} (h_s : Kept kb kl bl ko s) (h_p_regs : Part.regs ∈ kl := by assumption) (h_p_cfg : Part.cfg ∈ kl := by assumption) (h_p_cel : Part.cel ∈ kl := by assumption) (h_p_sch : Part.sch ∈ kl := by assumption) (h_p_kln : Part.kln ∈ kl := by assumption) (h_p_act : Part.act ∈ kl := by assumption) (h_p_ube : Part.ube ∈ kl := by assumption) (h_p_chp : Part.chp ∈ kl := by assumption) (h_p_dsf : Part.dsf ∈ kl := by assumption) (h_p_ohs : Part.ohs ∈ kl := by assumption) (h_p_pipes : Part.pipes ∈ kl := by assumption) (h_p_spc : Part.spc ∈ kl := by assumption) (h_p_tim : Part.tim ∈ kl := by assumption) (h_b_CFG : blkCFG ∈ bl := by assumption) (h_b_LPH : blkLPH ∈ bl := by assumption) (h_b_DSF : blkDSF ∈ bl := by assumption) (h_b_ACT : blkACT ∈ bl := by assumption) (h_b_UBE : blkUBE ∈ bl := by assumption) (h_b_CHP : blkCHP ∈ bl := by assumption) (h_b_SPC : blkSPC ∈ bl := by assumption) (h_b_CEL : blkCEL ∈ bl := by assumption) (h_b_KLN : blkKLN ∈ bl := by assumption) (h_b_TIM : blkTIM ∈ bl := by assumption) :
    Kept kb kl bl ko (actRestart k s) := by
  unfold actRestart
  with_reducible repeat' first
    | assumption
    | apply kept_actPoll
    | apply kept_enterState
    | apply kept_ite
    | refine Kept.of_mk ?_
    | split

theorem kept_actTick {k : Nat} {s : State} (h_s : Kept kb kl bl ko s) (h_p_act : Part.act ∈ kl := by assumption) :
    Kept kb kl bl ko (actTick k s) := by
  unfold actTick
  with_reducible repeat' first
    | assumption
    | (intro sx; refine (have hsx : Kept kb kl bl ko sx := ?_; ?_); on_goal 2 => (try clear_value sx))
    | intro sx
    | lift_lets
    | apply kept_st_setPair
    | apply kept_ite
    | refine Kept.of_mk ?_
    | split

theorem kept_tAsgExpire {k : Nat} {s : State} (h_s : Kept kb kl bl ko s) (h_p_free : Part.free ∈ kl := by assumption) (h_p_act : Part.act ∈ kl := by assumption) :
    Kept kb kl bl ko (tAsgExpire k s) := by
  unfold tAsgExpire
  with_reducible repeat' first
    | assumption
    | (intro sx; refine (have hsx : Kept kb kl bl ko sx := ?_; ?_); on_goal 2 => (try clear_value sx))
    | (intro sx; refine (have hsx : Kept kb kl bl ko sx.2 := ?_; ?_); on_goal 2 => (try clear_value sx))
    | (intro sx; try clear_value sx)
    | lift_lets
    | apply kept_st_setPair
    | apply kept_draw
    | apply kept_ite
    | apply kept_ite2
    | refine Kept.of_mk ?_
    | split

theorem kept_tRngExpire {k : Nat} {s : State} (h_s : Kept kb kl bl ko s) (h_p_regs : Part.regs ∈ kl := by assumption) (h_p_cfg : Part.cfg ∈ kl := by assumption) (h_p_cel : Part.cel ∈ kl := by assumption) (h_p_sch : Part.sch ∈ kl := by assumption) (h_p_kln : Part.kln ∈ kl := by assumption) (h_p_act : Part.act ∈ kl := by assumption) (h_p_ube : Part.ube ∈ kl := by assumption) (h_p_chp : Part.chp ∈ kl := by assumption) (h_p_dsf : Part.dsf ∈ kl := by assumption) (h_p_ohs : Part.ohs ∈ kl := by assumption) (h_p_pipes : Part.pipes ∈ kl := by assumption) (h_p_spc : Part.spc ∈ kl := by assumption) (h_p_tim : Part.tim ∈ kl := by assumption) (h_b_CFG : blkCFG ∈ bl := by assumption) (h_b_LPH : blkLPH ∈ bl := by assumption) (h_b_DSF : blkDSF ∈ bl := by assumption) (h_b_ACT : blkACT ∈ bl := by assumption) (h_b_UBE : blkUBE ∈ bl := by assumption) (h_b_CHP : blkCHP ∈ bl := by assumption) (h_b_SPC : blkSPC ∈ bl := by assumption) (h_b_CEL : blkCEL ∈ bl := by assumption) (h_b_KLN : blkKLN ∈ bl := by assumption) (h_b_TIM : blkTIM ∈ bl := by assumption) :
    Kept kb kl bl ko (tRngExpire k s) := by
  unfold tRngExpire
  with_reducible repeat' first
    | assumption
    | apply kept_actPoll
    | apply kept_enterState
    | apply kept_ite
    | refine Kept.of_mk ?_
    | split

theorem kept_tIntExpire {k : Nat} {s : State} (h_s : Kept kb kl bl ko s) (h_p_regs : Part.regs ∈ kl := by assumption) (h_p_cfg : Part.cfg ∈ kl := by assumption) (h_p_cel : Part.cel ∈ kl := by assumption) (h_p_sch : Part.sch ∈ kl := by assumption) (h_p_kln : Part.kln ∈ kl := by assumption) (h_p_act : Part.act ∈ kl := by assumption) (h_p_ube : Part.ube ∈ kl := by assumption) (h_p_chp : Part.chp ∈ kl := by assumption) (h_p_dsf : Part.dsf ∈ kl := by assumption) (h_p_ohs : Part.ohs ∈ kl := by assumption) (h_p_pipes : Part.pipes ∈ kl := by assumption) (h_p_spc : Part.spc ∈ kl := by assumption) (h_p_tim : Part.tim ∈ kl := by assumption) (h_b_CFG : blkCFG ∈ bl := by assumption) (h_b_LPH : blkLPH ∈ bl := by assumption) (h_b_DSF : blkDSF ∈ bl := by assumption) (h_b_ACT : blkACT ∈ bl := by assumption) (h_b_UBE : blkUBE ∈ bl := by assumption) (h_b_CHP : blkCHP ∈ bl := by assumption) (h_b_SPC : blkSPC ∈ bl := by assumption) (h_b_CEL : blkCEL ∈ bl := by assumption) (h_b_KLN : blkKLN ∈ bl := by assumption) (h_b_TIM : blkTIM ∈ bl := by assumption) :
    Kept kb kl bl ko (tIntExpire k s) := by
  unfold tIntExpire
  with_reducible repeat' first
    | assumption
    | apply kept_actPoll
    | apply kept_enterState
    | apply kept_ite
    | refine Kept.of_mk ?_
    | split

theorem kept_holdExpire {k : Nat} {s : State} (h_s : Kept kb kl bl ko s) (h_p_regs : Part.regs ∈ kl := by assumption) (h_p_cfg : Part.cfg ∈ kl := by assumption) (h_p_cel : Part.cel ∈ kl := by assumption) (h_p_sch : Part.sch ∈ kl := by assumption) (h_p_kln : Part.kln ∈ kl := by assumption) (h_p_act : Part.act ∈ kl := by assumption) (h_p_ube : Part.ube ∈ kl := by assumption) (h_p_chp : Part.chp ∈ kl := by assumption) (h_p_dsf : Part.dsf ∈ kl := by assumption) (h_p_ohs : Part.ohs ∈ kl := by assumption) (h_p_pipes : Part.pipes ∈ kl := by assumption) (h_p_spc : Part.spc ∈ kl := by assumption) (h_p_tim : Part.tim ∈ kl := by assumption) (h_b_CFG : blkCFG ∈ bl := by assumption) (h_b_LPH : blkLPH ∈ bl := by assumption) (h_b_DSF : blkDSF ∈ bl := by assumption) (h_b_ACT : blkACT ∈ bl := by assumption) (h_b_UBE : blkUBE ∈ bl := by assumption) (h_b_CHP : blkCHP ∈ bl := by assumption) (h_b_SPC : blkSPC ∈ bl := by assumption) (h_b_CEL : blkCEL ∈ bl := by assumption) (h_b_KLN : blkKLN ∈ bl := by assumption) (h_b_TIM : blkTIM ∈ bl := by assumption) :
    Kept kb kl bl ko (holdExpire k s) := by
  unfold holdExpire
  with_reducible repeat' first
    | assumption
    | apply kept_actPoll
    | apply kept_enterState
    | apply kept_ite
    | refine Kept.of_mk ?_
    | split

theorem kept_discWindow {k : Nat} {frame : Nat} {g : Grant} {s : State} (h_s : Kept kb kl bl ko s) (h_p_regs : Part.regs ∈ kl := by assumption) (h_p_free : Part.free ∈ kl := by assumption) (h_p_act : Part.act ∈ kl := by assumption) (h_p_ube : Part.ube ∈ kl := by assumption) (h_b_ACT : blkACT ∈ bl := by assumption) (h_b_UBE : blkUBE ∈ bl := by assumption) :
    Kept kb kl bl ko (discWindow k frame g s) := by
  unfold discWindow
  with_reducible repeat' first
    | assumption
    | (refine mem_guard ?_; with_unfolding_all (first | assumption | exact (by assumption : ∀ n, n ∈ bl) _ | exact blk_n (by decide) (by decide) (by assumption) | exact blk_un (by decide) (by decide) (by decide) (by assumption) | exact blk_ite (by assumption) (by assumption) | exact blk_ite (by exact blk_n (by decide) (by decide) (by assumption)) (by exact blk_n (by decide) (by decide) (by assumption))))
    | (intro sx; refine (have hsx : Kept kb kl bl ko sx := ?_; ?_); on_goal 2 => (try clear_value sx))
    | (intro sx; refine (have hsx : Kept kb kl bl ko sx.2 := ?_; ?_); on_goal 2 => (try clear_value sx))
    | (intro sx; try clear_value sx)
    | lift_lets
    | apply kept_st_setPair
    | apply kept_st_setUbeCh
    | apply kept_ubeShow
    | apply kept_nextSeq
    | apply kept_st_wr
    | apply kept_draw
    | apply kept_ite
    | apply kept_ite2
    | refine Kept.of_mk ?_
    | split

theorem kept_opsTake {q : Option Nat} {s : State} (h_s : Kept kb kl bl ko s) (h_p_ohs : Part.ohs ∈ kl := by assumption) :
    Kept kb kl bl ko (opsTake q s) := by
  unfold opsTake
  with_reducible repeat' first
    | assumption
    | apply kept_st_setOhsPort
    | split
    | refine Kept.of_mk ?_

theorem kept_opsConsume {b : Burst} {s : State} (h_s : Kept kb kl bl ko s) (h_p_regs : Part.regs ∈ kl := by assumption) (h_p_ohs : Part.ohs ∈ kl := by assumption) (h_b_OHS : blkOHS ∈ bl := by assumption) :
    Kept kb kl bl ko (opsConsume b s) := by
  unfold opsConsume
  with_reducible repeat' first
    | assumption
    | (refine mem_guard ?_; with_unfolding_all (first | assumption | exact (by assumption : ∀ n, n ∈ bl) _ | exact blk_n (by decide) (by decide) (by assumption) | exact blk_un (by decide) (by decide) (by decide) (by assumption) | exact blk_ite (by assumption) (by assumption) | exact blk_ite (by exact blk_n (by decide) (by decide) (by assumption)) (by exact blk_n (by decide) (by decide) (by assumption))))
    | apply kept_st_put
    | apply kept_st_setOhsPort
    | apply kept_ite
    | split
    | refine Kept.of_mk ?_

theorem kept_burstStart {k : Nat} {s : State} (h_s : Kept kb kl bl ko s) (h_p_regs : Part.regs ∈ kl := by assumption) (h_p_cel : Part.cel ∈ kl := by assumption) (h_p_sch : Part.sch ∈ kl := by assumption) (h_p_ube : Part.ube ∈ kl := by assumption) (h_p_chp : Part.chp ∈ kl := by assumption) (h_p_ohs : Part.ohs ∈ kl := by assumption) (h_b_LPH : blkLPH ∈ bl := by assumption) (h_b_UBE : blkUBE ∈ bl := by assumption) (h_b_CHP : blkCHP ∈ bl := by assumption) (h_b_CEL : blkCEL ∈ bl := by assumption) :
    Kept kb kl bl ko (burstStart k s) := by
  unfold burstStart
  with_reducible repeat' first
    | assumption
    | (refine mem_guard ?_; with_unfolding_all (first | assumption | exact (by assumption : ∀ n, n ∈ bl) _ | exact blk_n (by decide) (by decide) (by assumption) | exact blk_un (by decide) (by decide) (by decide) (by assumption) | exact blk_ite (by assumption) (by assumption) | exact blk_ite (by exact blk_n (by decide) (by decide) (by assumption)) (by exact blk_n (by decide) (by decide) (by assumption))))
    | (intro sx; refine (have hsx : Kept kb kl bl ko sx := ?_; ?_); on_goal 2 => (try clear_value sx))
    | (intro sx; try clear_value sx)
    | lift_lets
    | apply kept_putBurst
    | apply kept_endTail
    | apply kept_opsTake
    | apply kept_showShutter
    | apply kept_notSent
    | apply kept_st_put
    | apply kept_ite
    | split
    | dsimp only [sx]
    | refine Kept.of_mk ?_

theorem kept_burstLeft {k : Nat} {s : State} (h_s : Kept kb kl bl ko s) (h_p_regs : Part.regs ∈ kl := by assumption) (h_p_cel : Part.cel ∈ kl := by assumption) (h_p_sch : Part.sch ∈ kl := by assumption) (h_p_act : Part.act ∈ kl := by assumption) (h_p_ube : Part.ube ∈ kl := by assumption) (h_p_ohs : Part.ohs ∈ kl := by assumption) (h_b_ACT : blkACT ∈ bl := by assumption) (h_b_UBE : blkUBE ∈ bl := by assumption) (h_b_CEL : blkCEL ∈ bl := by assumption) (h_b_OHS : blkOHS ∈ bl := by assumption) :
    Kept kb kl bl ko (burstLeft k s) := by
  unfold burstLeft
  with_reducible repeat' first
    | assumption
    | (refine mem_guard ?_; with_unfolding_all (first | assumption | exact (by assumption : ∀ n, n ∈ bl) _ | exact blk_n (by decide) (by decide) (by assumption) | exact blk_un (by decide) (by decide) (by decide) (by assumption) | exact blk_ite (by assumption) (by assumption) | exact blk_ite (by exact blk_n (by decide) (by decide) (by assumption)) (by exact blk_n (by decide) (by decide) (by assumption))))
    | (intro sx; refine (have hsx : Kept kb kl bl ko sx := ?_; ?_); on_goal 2 => (try clear_value sx))
    | intro sx
    | lift_lets
    | apply kept_opsConsume
    | apply kept_st_setPair
    | apply kept_burstDeparts
    | apply kept_st_inc
    | apply kept_st_put
    | apply kept_st_setUbeCh
    | apply kept_ubeShow
    | apply kept_removeBurst
    | apply kept_ite
    | split
    | dsimp only [sx]
    | refine Kept.of_mk ?_

theorem kept_sendReply {k : Nat} {a : Addressing} {m : Bytes} {r : Reply} {s : State} (h_s : Kept kb kl bl ko s) (h_p_regs : Part.regs ∈ kl := by assumption) (h_p_act : Part.act ∈ kl := by assumption) (h_b_ACT : blkACT ∈ bl := by assumption) (h_b_KLN : blkKLN ∈ bl := by assumption) :
    Kept kb kl bl ko (sendReply k a m r s) := by
  unfold sendReply
  with_reducible repeat' first
    | assumption
    | (refine mem_guard ?_; with_unfolding_all (first | assumption | exact (by assumption : ∀ n, n ∈ bl) _ | exact blk_n (by decide) (by decide) (by assumption) | exact blk_un (by decide) (by decide) (by decide) (by assumption) | exact blk_ite (by assumption) (by assumption) | exact blk_ite (by exact blk_n (by decide) (by decide) (by assumption)) (by exact blk_n (by decide) (by decide) (by assumption))))
    | (intro sx; refine (have hsx : Kept kb kl bl ko sx := ?_; ?_); on_goal 2 => (try clear_value sx))
    | (intro sx; try clear_value sx)
    | lift_lets
    | apply kept_st_inc
    | apply kept_queueUp
    | apply kept_ite
    | split
    | dsimp only [sx]
    | refine Kept.of_mk ?_

theorem kept_showRxq {s : State} (h_s : Kept kb kl bl ko s) (h_p_regs : Part.regs ∈ kl := by assumption) (h_b_ACT : blkACT ∈ bl := by assumption) : Kept kb kl bl ko (showRxq s) := by
  unfold showRxq
  dsimp only
  split
  · exact kept_st_wr h_s
  · exact kept_foldl (fun _ _ h => kept_setReg h) (kept_st_wr (kept_st_wr (kept_st_wr h_s)))

theorem kept_pushRxq {k : Nat} {m : Bytes} {s : State} (h_s : Kept kb kl bl ko s) (h_p_regs : Part.regs ∈ kl := by assumption) (h_p_act : Part.act ∈ kl := by assumption) (h_b_ACT : blkACT ∈ bl := by assumption) :
    Kept kb kl bl ko (pushRxq k m s).1 := by
  unfold pushRxq
  with_reducible repeat' first
    | assumption
    | (refine mem_guard ?_; with_unfolding_all (first | assumption | exact (by assumption : ∀ n, n ∈ bl) _ | exact blk_n (by decide) (by decide) (by assumption) | exact blk_un (by decide) (by decide) (by decide) (by assumption) | exact blk_ite (by assumption) (by assumption) | exact blk_ite (by exact blk_n (by decide) (by decide) (by assumption)) (by exact blk_n (by decide) (by decide) (by assumption))))
    | apply kept_showRxq
    | apply kept_st_put
    | apply kept_ite
    | apply kept_ite1
    | apply kept_ite2
    | apply kept_ite21
    | apply kept_ite22
    | refine Kept.of_mk ?_
    | split

theorem kept_recordMsg {k : Nat} {m : Bytes} {answer : Option Bytes} {s : State} (h_s : Kept kb kl bl ko s) (h_p_act : Part.act ∈ kl := by assumption) :
    Kept kb kl bl ko (recordMsg k m answer s) := by
  unfold recordMsg
  with_reducible repeat' first
    | assumption
    | (intro sx; refine (have hsx : Kept kb kl bl ko sx := ?_; ?_); on_goal 2 => (try clear_value sx))
    | (intro sx; try clear_value sx)
    | lift_lets
    | apply kept_st_setPair
    | refine Kept.of_mk ?_

theorem kept_settleMsg {k : Nat} {a : Addressing} {m : Bytes} {r : Reply} {s : State} (h_s : Kept kb kl bl ko s) (h_p_regs : Part.regs ∈ kl := by assumption) (h_p_act : Part.act ∈ kl := by assumption) (h_b_ACT : blkACT ∈ bl := by assumption) (h_b_KLN : blkKLN ∈ bl := by assumption) :
    Kept kb kl bl ko (settleMsg k a m r s) := by
  unfold settleMsg
  with_reducible repeat' first
    | assumption
    | (intro sx; refine (have hsx : Kept kb kl bl ko sx := ?_; ?_); on_goal 2 => (try clear_value sx))
    | (intro sx; try clear_value sx)
    | lift_lets
    | apply kept_st_setPair
    | apply kept_recordMsg
    | apply kept_sendReply
    | apply kept_ite
    | refine Kept.of_mk ?_
    | split

theorem kept_acceptNew {k : Nat} {m : Bytes} {h : State → State × Reply} {a : Addressing} {s : State}
    (hh : ∀ s, Kept kb kl bl ko s → Kept kb kl bl ko (h s).1) (h_s : Kept kb kl bl ko s) (h_p_regs : Part.regs ∈ kl := by assumption) (h_p_cfg : Part.cfg ∈ kl := by assumption) (h_p_cel : Part.cel ∈ kl := by assumption) (h_p_sch : Part.sch ∈ kl := by assumption) (h_p_kln : Part.kln ∈ kl := by assumption) (h_p_act : Part.act ∈ kl := by assumption) (h_p_ube : Part.ube ∈ kl := by assumption) (h_p_chp : Part.chp ∈ kl := by assumption) (h_p_dsf : Part.dsf ∈ kl := by assumption) (h_p_ohs : Part.ohs ∈ kl := by assumption) (h_p_pipes : Part.pipes ∈ kl := by assumption) (h_p_spc : Part.spc ∈ kl := by assumption) (h_p_tim : Part.tim ∈ kl := by assumption) (h_b_CFG : blkCFG ∈ bl := by assumption) (h_b_LPH : blkLPH ∈ bl := by assumption) (h_b_DSF : blkDSF ∈ bl := by assumption) (h_b_ACT : blkACT ∈ bl := by assumption) (h_b_UBE : blkUBE ∈ bl := by assumption) (h_b_CHP : blkCHP ∈ bl := by assumption) (h_b_SPC : blkSPC ∈ bl := by assumption) (h_b_CEL : blkCEL ∈ bl := by assumption) (h_b_KLN : blkKLN ∈ bl := by assumption) (h_b_TIM : blkTIM ∈ bl := by assumption) : Kept kb kl bl ko (acceptMsg.acceptNew k m h a s) := by
  unfold acceptMsg.acceptNew
  extract_lets fw q r
  have hq : Kept kb kl bl ko q.1 := kept_ite1 (kept_pushRxq h_s) h_s
  exact kept_ite hq (kept_actPoll (kept_settleMsg (hh _ hq)))

theorem kept_acceptMsg {k : Nat} {m : Bytes} {h : State → State × Reply} {s : State}
    (hh : ∀ s, Kept kb kl bl ko s → Kept kb kl bl ko (h s).1) (h_s : Kept kb kl bl ko s) (h_p_regs : Part.regs ∈ kl := by assumption) (h_p_cfg : Part.cfg ∈ kl := by assumption) (h_p_cel : Part.cel ∈ kl := by assumption) (h_p_sch : Part.sch ∈ kl := by assumption) (h_p_kln : Part.kln ∈ kl := by assumption) (h_p_act : Part.act ∈ kl := by assumption) (h_p_ube : Part.ube ∈ kl := by assumption) (h_p_chp : Part.chp ∈ kl := by assumption) (h_p_dsf : Part.dsf ∈ kl := by assumption) (h_p_ohs : Part.ohs ∈ kl := by assumption) (h_p_pipes : Part.pipes ∈ kl := by assumption) (h_p_spc : Part.spc ∈ kl := by assumption) (h_p_tim : Part.tim ∈ kl := by assumption) (h_b_CFG : blkCFG ∈ bl := by assumption) (h_b_LPH : blkLPH ∈ bl := by assumption) (h_b_DSF : blkDSF ∈ bl := by assumption) (h_b_ACT : blkACT ∈ bl := by assumption) (h_b_UBE : blkUBE ∈ bl := by assumption) (h_b_CHP : blkCHP ∈ bl := by assumption) (h_b_SPC : blkSPC ∈ bl := by assumption) (h_b_CEL : blkCEL ∈ bl := by assumption) (h_b_KLN : blkKLN ∈ bl := by assumption) (h_b_TIM : blkTIM ∈ bl := by assumption) : Kept kb kl bl ko (acceptMsg k m h s) := by
  unfold acceptMsg
  split
  · exact kept_st_inc h_s
  refine kept_ite h_s (kept_ite (kept_sendReply (kept_st_inc h_s)) ?_)
  dsimp only
  split
  · refine kept_ite ?_ (kept_acceptNew hh (kept_st_inc h_s))
    split
    · exact kept_sendReply (kept_st_inc h_s)
    · exact kept_st_inc h_s
  · exact kept_acceptNew hh (kept_st_inc h_s)

theorem kept_takeMsg {k i : Nat} {m : Bytes} {is : Bytes → Bool} {h : State → State × Reply} {s : State}
    (hh : ∀ s, Kept kb kl bl ko s → Kept kb kl bl ko (h s).1) (h_s : Kept kb kl bl ko s) (h_p_regs : Part.regs ∈ kl := by assumption) (h_p_cfg : Part.cfg ∈ kl := by assumption) (h_p_cel : Part.cel ∈ kl := by assumption) (h_p_sch : Part.sch ∈ kl := by assumption) (h_p_kln : Part.kln ∈ kl := by assumption) (h_p_act : Part.act ∈ kl := by assumption) (h_p_ube : Part.ube ∈ kl := by assumption) (h_p_chp : Part.chp ∈ kl := by assumption) (h_p_dsf : Part.dsf ∈ kl := by assumption) (h_p_ohs : Part.ohs ∈ kl := by assumption) (h_p_pipes : Part.pipes ∈ kl := by assumption) (h_p_spc : Part.spc ∈ kl := by assumption) (h_p_tim : Part.tim ∈ kl := by assumption) (h_b_CFG : blkCFG ∈ bl := by assumption) (h_b_LPH : blkLPH ∈ bl := by assumption) (h_b_DSF : blkDSF ∈ bl := by assumption) (h_b_ACT : blkACT ∈ bl := by assumption) (h_b_UBE : blkUBE ∈ bl := by assumption) (h_b_CHP : blkCHP ∈ bl := by assumption) (h_b_SPC : blkSPC ∈ bl := by assumption) (h_b_CEL : blkCEL ∈ bl := by assumption) (h_b_KLN : blkKLN ∈ bl := by assumption) (h_b_TIM : blkTIM ∈ bl := by assumption) : Kept kb kl bl ko (takeMsg k i m is h s) := by
  unfold takeMsg
  exact kept_ite (kept_acceptMsg hh h_s) h_s

theorem kept_unknownMsg {k i : Nat} {m : Bytes} {s : State} (h_s : Kept kb kl bl ko s) (h_p_regs : Part.regs ∈ kl := by assumption) (h_p_cfg : Part.cfg ∈ kl := by assumption) (h_p_cel : Part.cel ∈ kl := by assumption) (h_p_sch : Part.sch ∈ kl := by assumption) (h_p_kln : Part.kln ∈ kl := by assumption) (h_p_act : Part.act ∈ kl := by assumption) (h_p_ube : Part.ube ∈ kl := by assumption) (h_p_chp : Part.chp ∈ kl := by assumption) (h_p_dsf : Part.dsf ∈ kl := by assumption) (h_p_ohs : Part.ohs ∈ kl := by assumption) (h_p_pipes : Part.pipes ∈ kl := by assumption) (h_p_spc : Part.spc ∈ kl := by assumption) (h_p_tim : Part.tim ∈ kl := by assumption) (h_b_CFG : blkCFG ∈ bl := by assumption) (h_b_LPH : blkLPH ∈ bl := by assumption) (h_b_DSF : blkDSF ∈ bl := by assumption) (h_b_ACT : blkACT ∈ bl := by assumption) (h_b_UBE : blkUBE ∈ bl := by assumption) (h_b_CHP : blkCHP ∈ bl := by assumption) (h_b_SPC : blkSPC ∈ bl := by assumption) (h_b_CEL : blkCEL ∈ bl := by assumption) (h_b_KLN : blkKLN ∈ bl := by assumption) (h_b_TIM : blkTIM ∈ bl := by assumption) : Kept kb kl bl ko (unknownMsg k i m s) := by
  unfold unknownMsg
  exact kept_ite h_s (kept_ite (kept_st_inc h_s) (kept_ite (kept_st_inc h_s)
    (kept_ite (kept_acceptMsg (fun _ ht => kept_keyControl ht) h_s) h_s)))

theorem kept_doLineParams {k : Nat} {m : Bytes} {s : State} (h_s : Kept kb kl bl ko s) (h_p_regs : Part.regs ∈ kl := by assumption) (h_p_cfg : Part.cfg ∈ kl := by assumption) (h_p_cel : Part.cel ∈ kl := by assumption) (h_p_sch : Part.sch ∈ kl := by assumption) (h_p_kln : Part.kln ∈ kl := by assumption) (h_p_act : Part.act ∈ kl := by assumption) (h_p_ube : Part.ube ∈ kl := by assumption) (h_p_chp : Part.chp ∈ kl := by assumption) (h_p_dsf : Part.dsf ∈ kl := by assumption) (h_p_ohs : Part.ohs ∈ kl := by assumption) (h_p_pipes : Part.pipes ∈ kl := by assumption) (h_p_spc : Part.spc ∈ kl := by assumption) (h_p_tim : Part.tim ∈ kl := by assumption) (h_b_CFG : blkCFG ∈ bl := by assumption) (h_b_LPH : blkLPH ∈ bl := by assumption) (h_b_DSF : blkDSF ∈ bl := by assumption) (h_b_ACT : blkACT ∈ bl := by assumption) (h_b_UBE : blkUBE ∈ bl := by assumption) (h_b_CHP : blkCHP ∈ bl := by assumption) (h_b_SPC : blkSPC ∈ bl := by assumption) (h_b_CEL : blkCEL ∈ bl := by assumption) (h_b_KLN : blkKLN ∈ bl := by assumption) :
    Kept kb kl bl ko (doLineParams k m s).1 := by
  unfold doLineParams
  with_reducible repeat' first
    | assumption
    | (refine mem_guard ?_; with_unfolding_all (first | assumption | exact (by assumption : ∀ n, n ∈ bl) _ | exact blk_n (by decide) (by decide) (by assumption) | exact blk_un (by decide) (by decide) (by decide) (by assumption) | exact blk_ite (by assumption) (by assumption) | exact blk_ite (by exact blk_n (by decide) (by decide) (by assumption)) (by exact blk_n (by decide) (by decide) (by assumption))))
    | (intro sx; refine (have hsx : Kept kb kl bl ko sx := ?_; ?_); on_goal 2 => (try clear_value sx))
    | (intro sx; try clear_value sx)
    | lift_lets
    | apply kept_st_setPair
    | apply kept_st_put
    | apply kept_enterState
    | apply kept_lineChange
    | apply kept_ite
    | apply kept_ite1
    | apply kept_ite2
    | apply kept_ite21
    | apply kept_ite22
    | refine Kept.of_mk ?_
    | split

theorem kept_doAssignTn {k : Nat} {m : Bytes} {s : State} (h_s : Kept kb kl bl ko s) (h_p_regs : Part.regs ∈ kl := by assumption) (h_p_free : Part.free ∈ kl := by assumption) (h_p_cfg : Part.cfg ∈ kl := by assumption) (h_p_cel : Part.cel ∈ kl := by assumption) (h_p_sch : Part.sch ∈ kl := by assumption) (h_p_kln : Part.kln ∈ kl := by assumption) (h_p_act : Part.act ∈ kl := by assumption) (h_p_ube : Part.ube ∈ kl := by assumption) (h_p_chp : Part.chp ∈ kl := by assumption) (h_p_dsf : Part.dsf ∈ kl := by assumption) (h_p_ohs : Part.ohs ∈ kl := by assumption) (h_p_pipes : Part.pipes ∈ kl := by assumption) (h_p_spc : Part.spc ∈ kl := by assumption) (h_p_tim : Part.tim ∈ kl := by assumption) (h_b_CFG : blkCFG ∈ bl := by assumption) (h_b_LPH : blkLPH ∈ bl := by assumption) (h_b_DSF : blkDSF ∈ bl := by assumption) (h_b_ACT : blkACT ∈ bl := by assumption) (h_b_UBE : blkUBE ∈ bl := by assumption) (h_b_CHP : blkCHP ∈ bl := by assumption) (h_b_SPC : blkSPC ∈ bl := by assumption) (h_b_CEL : blkCEL ∈ bl := by assumption) (h_b_KLN : blkKLN ∈ bl := by assumption) :
    Kept kb kl bl ko (doAssignTn k m s).1 := by
  unfold doAssignTn
  with_reducible repeat' first
    | assumption
    | (refine mem_guard ?_; with_unfolding_all (first | assumption | exact (by assumption : ∀ n, n ∈ bl) _ | exact blk_n (by decide) (by decide) (by assumption) | exact blk_un (by decide) (by decide) (by decide) (by assumption) | exact blk_ite (by assumption) (by assumption) | exact blk_ite (by exact blk_n (by decide) (by decide) (by assumption)) (by exact blk_n (by decide) (by decide) (by assumption))))
    | (refine kept_ouse (by assumption) ?_)
    | (intro sx; refine (have hsx : Kept kb kl bl ko sx := ?_; ?_); on_goal 2 => (try clear_value sx))
    | (intro sx; try clear_value sx)
    | lift_lets
    | apply kept_st_put
    | apply kept_enterState
    | apply kept_st_wr
    | apply kept_claimDefault
    | apply kept_ite
    | apply kept_ite1
    | apply kept_ite2
    | apply kept_ite21
    | apply kept_ite22
    | split
    | dsimp only [sx]
    | refine Kept.of_mk ?_

theorem kept_doRangingTime {k : Nat} {m : Bytes} {s : State} (h_s : Kept kb kl bl ko s) (h_p_regs : Part.regs ∈ kl := by assumption) (h_p_cfg : Part.cfg ∈ kl := by assumption) (h_p_cel : Part.cel ∈ kl := by assumption) (h_p_sch : Part.sch ∈ kl := by assumption) (h_p_kln : Part.kln ∈ kl := by assumption) (h_p_act : Part.act ∈ kl := by assumption) (h_p_ube : Part.ube ∈ kl := by assumption) (h_p_chp : Part.chp ∈ kl := by assumption) (h_p_dsf : Part.dsf ∈ kl := by assumption) (h_p_ohs : Part.ohs ∈ kl := by assumption) (h_p_pipes : Part.pipes ∈ kl := by assumption) (h_p_spc : Part.spc ∈ kl := by assumption) (h_p_tim : Part.tim ∈ kl := by assumption) (h_b_CFG : blkCFG ∈ bl := by assumption) (h_b_LPH : blkLPH ∈ bl := by assumption) (h_b_DSF : blkDSF ∈ bl := by assumption) (h_b_ACT : blkACT ∈ bl := by assumption) (h_b_UBE : blkUBE ∈ bl := by assumption) (h_b_CHP : blkCHP ∈ bl := by assumption) (h_b_SPC : blkSPC ∈ bl := by assumption) (h_b_CEL : blkCEL ∈ bl := by assumption) (h_b_KLN : blkKLN ∈ bl := by assumption) :
    Kept kb kl bl ko (doRangingTime k m s).1 := by
  unfold doRangingTime
  with_reducible repeat' first
    | assumption
    | (refine mem_guard ?_; with_unfolding_all (first | assumption | exact (by assumption : ∀ n, n ∈ bl) _ | exact blk_n (by decide) (by decide) (by assumption) | exact blk_un (by decide) (by decide) (by decide) (by assumption) | exact blk_ite (by assumption) (by assumption) | exact blk_ite (by exact blk_n (by decide) (by decide) (by assumption)) (by exact blk_n (by decide) (by decide) (by assumption)) | exact blk_eqdV (by assumption) | exact blk_eqdOf (by assumption)))
    | (intro sx; refine (have hsx : Kept kb kl bl ko sx := ?_; ?_); on_goal 2 => (try clear_value sx))
    | (intro sx; try clear_value sx)
    | lift_lets
    | apply kept_st_put
    | apply kept_enterState
    | apply kept_lineChange
    | apply kept_st_wr
    | apply kept_ite
    | apply kept_ite1
    | apply kept_ite2
    | apply kept_ite21
    | apply kept_ite22
    | refine Kept.of_mk ?_
    | split

theorem kept_doBurstProfile {k : Nat} {m : Bytes} {s : State} (h_s : Kept kb kl bl ko s) (h_p_regs : Part.regs ∈ kl := by assumption) (h_p_shadow : Part.shadow ∈ kl := by assumption) (h_p_cfg : Part.cfg ∈ kl := by assumption) (h_p_sch : Part.sch ∈ kl := by assumption) (h_p_gcl : Part.gcl ∈ kl := by assumption) (h_p_act : Part.act ∈ kl := by assumption) (h_b_ACT : blkACT ∈ bl := by assumption) (h_b_UBE : blkUBE ∈ bl := by assumption) (h_b_GCL : blkGCL ∈ bl := by assumption) :
    Kept kb kl bl ko (doBurstProfile k m s).1 := by
  unfold doBurstProfile
  with_reducible repeat' first
    | assumption
    | (refine mem_guard ?_; with_unfolding_all (first | assumption | exact (by assumption : ∀ n, n ∈ bl) _ | exact blk_n (by decide) (by decide) (by assumption) | exact blk_un (by decide) (by decide) (by decide) (by assumption) | exact blk_ite (by assumption) (by assumption) | exact blk_ite (by exact blk_n (by decide) (by decide) (by assumption)) (by exact blk_n (by decide) (by decide) (by assumption))))
    | (intro sx; refine (have hsx : Kept kb kl bl ko sx := ?_; ?_); on_goal 2 => (try clear_value sx))
    | intro sx
    | lift_lets
    | apply kept_st_setPair
    | apply kept_setSh
    | apply kept_st_put
    | apply kept_bankRequest
    | apply kept_bankWithdraw
    | apply kept_st_wr
    | apply kept_ite
    | apply kept_ite1
    | apply kept_ite2
    | apply kept_ite21
    | apply kept_ite22
    | split
    | dsimp only [sx]
    | refine Kept.of_mk ?_

theorem kept_releaseHeld {k : Nat} {s : State} (h_s : Kept kb kl bl ko s) (h_p_regs : Part.regs ∈ kl := by assumption) (h_p_shadow : Part.shadow ∈ kl := by assumption) (h_p_cfg : Part.cfg ∈ kl := by assumption) (h_p_cel : Part.cel ∈ kl := by assumption) (h_p_sch : Part.sch ∈ kl := by assumption) (h_p_gcl : Part.gcl ∈ kl := by assumption) (h_p_kln : Part.kln ∈ kl := by assumption) (h_p_act : Part.act ∈ kl := by assumption) (h_p_ube : Part.ube ∈ kl := by assumption) (h_p_chp : Part.chp ∈ kl := by assumption) (h_p_dsf : Part.dsf ∈ kl := by assumption) (h_p_ohs : Part.ohs ∈ kl := by assumption) (h_p_pipes : Part.pipes ∈ kl := by assumption) (h_p_spc : Part.spc ∈ kl := by assumption) (h_p_tim : Part.tim ∈ kl := by assumption) (h_b_CFG : blkCFG ∈ bl := by assumption) (h_b_LPH : blkLPH ∈ bl := by assumption) (h_b_DSF : blkDSF ∈ bl := by assumption) (h_b_ACT : blkACT ∈ bl := by assumption) (h_b_UBE : blkUBE ∈ bl := by assumption) (h_b_CHP : blkCHP ∈ bl := by assumption) (h_b_SPC : blkSPC ∈ bl := by assumption) (h_b_CEL : blkCEL ∈ bl := by assumption) (h_b_GCL : blkGCL ∈ bl := by assumption) (h_b_KLN : blkKLN ∈ bl := by assumption) (h_b_TIM : blkTIM ∈ bl := by assumption) :
    Kept kb kl bl ko (releaseHeld k s) := by
  unfold releaseHeld
  with_reducible repeat' first
    | assumption
    | (intro sx; refine (have hsx : Kept kb kl bl ko sx := ?_; ?_); on_goal 2 => (try clear_value sx))
    | (intro sx; refine (have hsx : Kept kb kl bl ko sx.1 := ?_; ?_); on_goal 2 => (try clear_value sx))
    | (intro sx; try clear_value sx)
    | lift_lets
    | apply kept_actPoll
    | apply kept_st_setPair
    | apply kept_doBurstProfile
    | (apply kept_foldl; intro sy xy hy)
    | (apply kept_foldl2; intro sy xy hy)
    | (apply kept_foldl1; intro sy xy hy)
    | refine Kept.of_mk ?_

theorem kept_doAuth {k : Nat} {m : Bytes} {s : State} (h_s : Kept kb kl bl ko s) (h_p_regs : Part.regs ∈ kl := by assumption) (h_p_kln : Part.kln ∈ kl := by assumption) (h_b_KLN : blkKLN ∈ bl := by assumption) :
    Kept kb kl bl ko (doAuth k m s).1 := by
  unfold doAuth
  with_reducible repeat' first
    | assumption
    | (refine kept_ouse2 (by assumption) ?_)
    | (refine kept_ouse3 (by assumption) ?_)
    | apply kept_klnAuth
    | split
    | refine Kept.of_mk ?_

theorem kept_doKeyControl {k : Nat} {m : Bytes} {s : State} (h_s : Kept kb kl bl ko s) (h_p_regs : Part.regs ∈ kl := by assumption) (h_p_kln : Part.kln ∈ kl := by assumption) (h_b_KLN : blkKLN ∈ bl := by assumption) :
    Kept kb kl bl ko (doKeyControl k m s).1 := by
  unfold doKeyControl
  with_reducible repeat' first
    | assumption
    | (intro sx; refine (have hsx : Kept kb kl bl ko sx := ?_; ?_); on_goal 2 => (try clear_value sx))
    | (intro sx; refine (have hsx : Kept kb kl bl ko sx.1 := ?_; ?_); on_goal 2 => (try clear_value sx))
    | (intro sx; try clear_value sx)
    | lift_lets
    | apply kept_keyControl
    | refine Kept.of_mk ?_

theorem kept_doFirmware {s : State} (h_s : Kept kb kl bl ko s) :
    Kept kb kl bl ko (doFirmware s).1 := by
  unfold doFirmware
  with_reducible repeat' first
    | assumption
    | refine Kept.of_mk ?_

theorem kept_setDisDev {b : Bool} {s : State} (h_s : Kept kb kl bl ko s) (h_p_regs : Part.regs ∈ kl := by assumption) (h_b_ACT : blkACT ∈ bl := by assumption) :
    Kept kb kl bl ko (setDisDev b s) := by
  unfold setDisDev
  with_reducible repeat' first
    | assumption
    | (refine mem_guard ?_; with_unfolding_all (first | assumption | exact (by assumption : ∀ n, n ∈ bl) _ | exact blk_n (by decide) (by decide) (by assumption) | exact blk_un (by decide) (by decide) (by decide) (by assumption)))
    | apply kept_st_put
    | (apply kept_foldl; intro sy xy hy)
    | (apply kept_foldl2; intro sy xy hy)
    | (apply kept_foldl1; intro sy xy hy)
    | refine Kept.of_mk ?_

theorem kept_doDisable {k : Nat} {m : Bytes} {s : State} (h_s : Kept kb kl bl ko s) (h_p_regs : Part.regs ∈ kl := by assumption) (h_p_cfg : Part.cfg ∈ kl := by assumption) (h_p_cel : Part.cel ∈ kl := by assumption) (h_p_sch : Part.sch ∈ kl := by assumption) (h_p_kln : Part.kln ∈ kl := by assumption) (h_p_act : Part.act ∈ kl := by assumption) (h_p_ube : Part.ube ∈ kl := by assumption) (h_p_chp : Part.chp ∈ kl := by assumption) (h_p_dsf : Part.dsf ∈ kl := by assumption) (h_p_ohs : Part.ohs ∈ kl := by assumption) (h_p_pipes : Part.pipes ∈ kl := by assumption) (h_p_spc : Part.spc ∈ kl := by assumption) (h_p_tim : Part.tim ∈ kl := by assumption) (h_b_CFG : blkCFG ∈ bl := by assumption) (h_b_LPH : blkLPH ∈ bl := by assumption) (h_b_DSF : blkDSF ∈ bl := by assumption) (h_b_ACT : blkACT ∈ bl := by assumption) (h_b_UBE : blkUBE ∈ bl := by assumption) (h_b_CHP : blkCHP ∈ bl := by assumption) (h_b_SPC : blkSPC ∈ bl := by assumption) (h_b_CEL : blkCEL ∈ bl := by assumption) (h_b_KLN : blkKLN ∈ bl := by assumption) :
    Kept kb kl bl ko (doDisable k m s).1 := by
  unfold doDisable
  with_reducible repeat' first
    | assumption
    | (refine mem_guard ?_; with_unfolding_all (first | assumption | exact (by assumption : ∀ n, n ∈ bl) _ | exact blk_n (by decide) (by decide) (by assumption) | exact blk_un (by decide) (by decide) (by decide) (by assumption) | exact blk_ite (by assumption) (by assumption) | exact blk_ite (by exact blk_n (by decide) (by decide) (by assumption)) (by exact blk_n (by decide) (by decide) (by assumption))))
    | (intro sx; refine (have hsx : Kept kb kl bl ko sx := ?_; ?_); on_goal 2 => (try clear_value sx))
    | (intro sx; try clear_value sx)
    | lift_lets
    | apply kept_st_put
    | apply kept_enterState
    | apply kept_setDisDev
    | apply kept_ite
    | apply kept_ite1
    | apply kept_ite2
    | apply kept_ite21
    | apply kept_ite22
    | (apply kept_foldl; intro sy xy hy)
    | (apply kept_foldl2; intro sy xy hy)
    | (apply kept_foldl1; intro sy xy hy)
    | refine Kept.of_mk ?_
    | split

theorem kept_doEnable {k : Nat} {m : Bytes} {s : State} (h_s : Kept kb kl bl ko s) (h_p_regs : Part.regs ∈ kl := by assumption) (h_p_cfg : Part.cfg ∈ kl := by assumption) (h_p_cel : Part.cel ∈ kl := by assumption) (h_p_sch : Part.sch ∈ kl := by assumption) (h_p_kln : Part.kln ∈ kl := by assumption) (h_p_act : Part.act ∈ kl := by assumption) (h_p_ube : Part.ube ∈ kl := by assumption) (h_p_chp : Part.chp ∈ kl := by assumption) (h_p_dsf : Part.dsf ∈ kl := by assumption) (h_p_ohs : Part.ohs ∈ kl := by assumption) (h_p_pipes : Part.pipes ∈ kl := by assumption) (h_p_spc : Part.spc ∈ kl := by assumption) (h_p_tim : Part.tim ∈ kl := by assumption) (h_b_CFG : blkCFG ∈ bl := by assumption) (h_b_LPH : blkLPH ∈ bl := by assumption) (h_b_DSF : blkDSF ∈ bl := by assumption) (h_b_ACT : blkACT ∈ bl := by assumption) (h_b_UBE : blkUBE ∈ bl := by assumption) (h_b_CHP : blkCHP ∈ bl := by assumption) (h_b_SPC : blkSPC ∈ bl := by assumption) (h_b_CEL : blkCEL ∈ bl := by assumption) (h_b_KLN : blkKLN ∈ bl := by assumption) (h_b_TIM : blkTIM ∈ bl := by assumption) :
    Kept kb kl bl ko (doEnable k m s).1 := by
  unfold doEnable
  with_reducible repeat' first
    | assumption
    | (refine mem_guard ?_; with_unfolding_all (first | assumption | exact (by assumption : ∀ n, n ∈ bl) _ | exact blk_n (by decide) (by decide) (by assumption) | exact blk_un (by decide) (by decide) (by decide) (by assumption) | exact blk_ite (by assumption) (by assumption) | exact blk_ite (by exact blk_n (by decide) (by decide) (by assumption)) (by exact blk_n (by decide) (by decide) (by assumption))))
    | (intro sx; refine (have hsx : Kept kb kl bl ko sx := ?_; ?_); on_goal 2 => (try clear_value sx))
    | (intro sx; try clear_value sx)
    | lift_lets
    | apply kept_actPoll
    | apply kept_st_put
    | apply kept_setDisDev
    | apply kept_ite
    | apply kept_ite1
    | apply kept_ite2
    | apply kept_ite21
    | apply kept_ite22
    | (apply kept_foldl; intro sy xy hy)
    | (apply kept_foldl2; intro sy xy hy)
    | (apply kept_foldl1; intro sy xy hy)
    | refine Kept.of_mk ?_
    | split

theorem kept_doDeactivate {k : Nat} {m : Bytes} {s : State} (h_s : Kept kb kl bl ko s) (h_p_regs : Part.regs ∈ kl := by assumption) (h_p_cfg : Part.cfg ∈ kl := by assumption) (h_p_cel : Part.cel ∈ kl := by assumption) (h_p_sch : Part.sch ∈ kl := by assumption) (h_p_kln : Part.kln ∈ kl := by assumption) (h_p_act : Part.act ∈ kl := by assumption) (h_p_ube : Part.ube ∈ kl := by assumption) (h_p_chp : Part.chp ∈ kl := by assumption) (h_p_dsf : Part.dsf ∈ kl := by assumption) (h_p_ohs : Part.ohs ∈ kl := by assumption) (h_p_pipes : Part.pipes ∈ kl := by assumption) (h_p_spc : Part.spc ∈ kl := by assumption) (h_p_tim : Part.tim ∈ kl := by assumption) (h_b_CFG : blkCFG ∈ bl := by assumption) (h_b_LPH : blkLPH ∈ bl := by assumption) (h_b_DSF : blkDSF ∈ bl := by assumption) (h_b_ACT : blkACT ∈ bl := by assumption) (h_b_UBE : blkUBE ∈ bl := by assumption) (h_b_CHP : blkCHP ∈ bl := by assumption) (h_b_SPC : blkSPC ∈ bl := by assumption) (h_b_CEL : blkCEL ∈ bl := by assumption) (h_b_KLN : blkKLN ∈ bl := by assumption) :
    Kept kb kl bl ko (doDeactivate k m s).1 := by
  unfold doDeactivate
  with_reducible repeat' first
    | assumption
    | (intro sx; refine (have hsx : Kept kb kl bl ko sx := ?_; ?_); on_goal 2 => (try clear_value sx))
    | (intro sx; try clear_value sx)
    | lift_lets
    | apply kept_st_setPair
    | apply kept_enterState
    | apply kept_ite
    | apply kept_ite1
    | apply kept_ite2
    | apply kept_ite21
    | apply kept_ite22
    | refine Kept.of_mk ?_
    | split

theorem kept_doProtSwitch {k : Nat} {m : Bytes} {s : State} (h_s : Kept kb kl bl ko s) (h_p_act : Part.act ∈ kl := by assumption) :
    Kept kb kl bl ko (doProtSwitch k m s).1 := by
  unfold doProtSwitch
  with_reducible repeat' first
    | assumption
    | refine Kept.of_mk ?_

theorem kept_portEqd {k : Nat} {s : State} (h_s : Kept kb kl bl ko s) (h_p_act : Part.act ∈ kl := by assumption) :
    Kept kb kl bl ko (portEqd k s) := by
  unfold portEqd
  with_reducible repeat' first
    | assumption
    | apply kept_lineChange
    | apply kept_ite
    | refine Kept.of_mk ?_
    | split

theorem kept_txqSend {s : State} (h_s : Kept kb kl bl ko s) (h_p_regs : Part.regs ∈ kl := by assumption) (h_p_act : Part.act ∈ kl := by assumption) (h_b_ACT : blkACT ∈ bl := by assumption) :
    Kept kb kl bl ko (txqSend s) := by
  unfold txqSend
  with_reducible repeat' first
    | assumption
    | (refine mem_guard ?_; with_unfolding_all (first | assumption | exact (by assumption : ∀ n, n ∈ bl) _ | exact blk_n (by decide) (by decide) (by assumption) | exact blk_un (by decide) (by decide) (by decide) (by assumption) | exact blk_ite (by assumption) (by assumption) | exact blk_ite (by exact blk_n (by decide) (by decide) (by assumption)) (by exact blk_n (by decide) (by decide) (by assumption))))
    | (intro sx; refine (have hsx : Kept kb kl bl ko sx := ?_; ?_); on_goal 2 => (try clear_value sx))
    | (intro sx; try clear_value sx)
    | lift_lets
    | apply kept_st_setPair
    | apply kept_st_put
    | apply kept_queueUp
    | apply kept_ite
    | split
    | dsimp only [sx]
    | refine Kept.of_mk ?_

theorem kept_actWrite {a : Nat} {v : Word} {o : State} {s : State} (h_o : Kept kb kl bl ko o) (h_s : Kept kb kl bl ko s) (h_p_regs : Part.regs ∈ kl := by assumption) (h_p_cfg : Part.cfg ∈ kl := by assumption) (h_p_cel : Part.cel ∈ kl := by assumption) (h_p_sch : Part.sch ∈ kl := by assumption) (h_p_kln : Part.kln ∈ kl := by assumption) (h_p_act : Part.act ∈ kl := by assumption) (h_p_ube : Part.ube ∈ kl := by assumption) (h_p_chp : Part.chp ∈ kl := by assumption) (h_p_dsf : Part.dsf ∈ kl := by assumption) (h_p_ohs : Part.ohs ∈ kl := by assumption) (h_p_pipes : Part.pipes ∈ kl := by assumption) (h_p_spc : Part.spc ∈ kl := by assumption) (h_p_tim : Part.tim ∈ kl := by assumption) (h_b_CFG : blkCFG ∈ bl := by assumption) (h_b_LPH : blkLPH ∈ bl := by assumption) (h_b_DSF : blkDSF ∈ bl := by assumption) (h_b_ACT : blkACT ∈ bl := by assumption) (h_b_UBE : blkUBE ∈ bl := by assumption) (h_b_CHP : blkCHP ∈ bl := by assumption) (h_b_SPC : blkSPC ∈ bl := by assumption) (h_b_CEL : blkCEL ∈ bl := by assumption) (h_b_KLN : blkKLN ∈ bl := by assumption) (h_b_TIM : blkTIM ∈ bl := by assumption) :
    Kept kb kl bl ko (actWrite a v o s) := by
  unfold actWrite
  with_reducible repeat' first
    | assumption
    | (intro sx; refine (have hsx : Kept kb kl bl ko sx := ?_; ?_); on_goal 2 => (try clear_value sx))
    | (intro sx; try clear_value sx)
    | lift_lets
    | apply kept_showRxq
    | apply kept_actPoll
    | apply kept_txqSend
    | apply kept_actRestart
    | apply kept_ite
    | refine Kept.of_mk ?_
    | split

end Sys2Proof.Machine
end

