-- ==== Sys2Proof/Laws/KeptLine.lean ====
section
/-! SUPPORT. What every operation of framing, speculation, line optics, client ports and the data-plane registers keeps: one lemma for each, named after it, which lists the parts of the state that the operation may change. -/

set_option linter.unusedTactic false
set_option linter.unreachableTactic false

namespace Sys2Proof.Machine

set_option linter.unusedVariables false
set_option Elab.async false

variable {β : Type} [Membership Nat β] {kb : Bool} {kl : List Part} {bl : β} {ko : State}

theorem kept_assertLof {k : Nat} {s : State} (h_s : Kept kb kl bl ko s) (h_p_regs : Part.regs ∈ kl := by assumption) (h_b_DSF : blkDSF ∈ bl := by assumption) :
    Kept kb kl bl ko (assertLof k s) := by
  unfold assertLof
  with_reducible repeat' first
    | assumption
    | (refine mem_guard ?_; with_unfolding_all (first | assumption | exact (by assumption : ∀ n, n ∈ bl) _ | exact blk_n (by decide) (by decide) (by assumption) | exact blk_un (by decide) (by decide) (by decide) (by assumption) | exact blk_ite (by assumption) (by assumption) | exact blk_ite (by exact blk_n (by decide) (by decide) (by assumption)) (by exact blk_n (by decide) (by decide) (by assumption))))
    | apply kept_st_put
    | apply kept_ite
    | refine Kept.of_mk ?_
    | split

theorem kept_dropStamps {k : Nat} {s : State} (h_s : Kept kb kl bl ko s) (h_p_regs : Part.regs ∈ kl := by assumption) (h_p_shadow : Part.shadow ∈ kl := by assumption) (h_p_cfg : Part.cfg ∈ kl := by assumption) (h_p_gcl : Part.gcl ∈ kl := by assumption) (h_p_cls : Part.cls ∈ kl := by assumption) (h_p_spc : Part.spc ∈ kl := by assumption) (h_b_CLS : blkCLS ∈ bl := by assumption) (h_b_GCL : blkGCL ∈ bl := by assumption) :
    Kept kb kl bl ko (dropStamps k s) := by
  unfold dropStamps
  with_reducible repeat' first
    | assumption
    | (intro sx; refine (have hsx : Kept kb kl bl ko sx := ?_; ?_); on_goal 2 => (try clear_value sx))
    | (intro sx; try clear_value sx)
    | lift_lets
    | apply kept_drainFall
    | apply kept_st_setSpcCh
    | (apply kept_foldl; intro sy xy hy)
    | (apply kept_foldl2; intro sy xy hy)
    | (apply kept_foldl1; intro sy xy hy)
    | refine Kept.of_mk ?_

theorem kept_dsfHunt {k : Nat} {s : State} (h_s : Kept kb kl bl ko s) (h_p_regs : Part.regs ∈ kl := by assumption) (h_p_shadow : Part.shadow ∈ kl := by assumption) (h_p_cfg : Part.cfg ∈ kl := by assumption) (h_p_cel : Part.cel ∈ kl := by assumption) (h_p_sch : Part.sch ∈ kl := by assumption) (h_p_gcl : Part.gcl ∈ kl := by assumption) (h_p_kln : Part.kln ∈ kl := by assumption) (h_p_act : Part.act ∈ kl := by assumption) (h_p_ube : Part.ube ∈ kl := by assumption) (h_p_chp : Part.chp ∈ kl := by assumption) (h_p_dsf : Part.dsf ∈ kl := by assumption) (h_p_ohs : Part.ohs ∈ kl := by assumption) (h_p_pipes : Part.pipes ∈ kl := by assumption) (h_p_cls : Part.cls ∈ kl := by assumption) (h_p_spc : Part.spc ∈ kl := by assumption) (h_p_tim : Part.tim ∈ kl := by assumption) (h_b_CFG : blkCFG ∈ bl := by assumption) (h_b_LPH : blkLPH ∈ bl := by assumption) (h_b_DSF : blkDSF ∈ bl := by assumption) (h_b_ACT : blkACT ∈ bl := by assumption) (h_b_UBE : blkUBE ∈ bl := by assumption) (h_b_CHP : blkCHP ∈ bl := by assumption) (h_b_CLS : blkCLS ∈ bl := by assumption) (h_b_SPC : blkSPC ∈ bl := by assumption) (h_b_CEL : blkCEL ∈ bl := by assumption) (h_b_GCL : blkGCL ∈ bl := by assumption) (h_b_KLN : blkKLN ∈ bl := by assumption) (h_b_TIM : blkTIM ∈ bl := by assumption) :
    Kept kb kl bl ko (dsfHunt k s) := by
  unfold dsfHunt
  with_reducible repeat' first
    | assumption
    | (refine mem_guard ?_; with_unfolding_all (first | assumption | exact (by assumption : ∀ n, n ∈ bl) _ | exact blk_n (by decide) (by decide) (by assumption) | exact blk_un (by decide) (by decide) (by decide) (by assumption) | exact blk_ite (by assumption) (by assumption) | exact blk_ite (by exact blk_n (by decide) (by decide) (by assumption)) (by exact blk_n (by decide) (by decide) (by assumption))))
    | (intro sx; refine (have hsx : Kept kb kl bl ko sx := ?_; ?_); on_goal 2 => (try clear_value sx))
    | (intro sx; try clear_value sx)
    | lift_lets
    | apply kept_timPoll
    | apply kept_abortAll
    | apply kept_assertLof
    | apply kept_st_setDsfCh
    | apply kept_dropStamps
    | apply kept_squashWhere
    | apply kept_actLof
    | apply kept_st_setSpcCh
    | apply kept_st_wr
    | apply kept_timLost
    | apply kept_chpReact
    | apply kept_ite
    | refine Kept.of_mk ?_
    | split

theorem kept_dsfLost {k : Nat} {s : State} (h_s : Kept kb kl bl ko s) (h_p_regs : Part.regs ∈ kl := by assumption) (h_p_shadow : Part.shadow ∈ kl := by assumption) (h_p_cfg : Part.cfg ∈ kl := by assumption) (h_p_cel : Part.cel ∈ kl := by assumption) (h_p_sch : Part.sch ∈ kl := by assumption) (h_p_gcl : Part.gcl ∈ kl := by assumption) (h_p_kln : Part.kln ∈ kl := by assumption) (h_p_act : Part.act ∈ kl := by assumption) (h_p_ube : Part.ube ∈ kl := by assumption) (h_p_chp : Part.chp ∈ kl := by assumption) (h_p_dsf : Part.dsf ∈ kl := by assumption) (h_p_ohs : Part.ohs ∈ kl := by assumption) (h_p_pipes : Part.pipes ∈ kl := by assumption) (h_p_cls : Part.cls ∈ kl := by assumption) (h_p_spc : Part.spc ∈ kl := by assumption) (h_p_tim : Part.tim ∈ kl := by assumption) (h_b_CFG : blkCFG ∈ bl := by assumption) (h_b_LPH : blkLPH ∈ bl := by assumption) (h_b_DSF : blkDSF ∈ bl := by assumption) (h_b_ACT : blkACT ∈ bl := by assumption) (h_b_UBE : blkUBE ∈ bl := by assumption) (h_b_CHP : blkCHP ∈ bl := by assumption) (h_b_CLS : blkCLS ∈ bl := by assumption) (h_b_SPC : blkSPC ∈ bl := by assumption) (h_b_CEL : blkCEL ∈ bl := by assumption) (h_b_GCL : blkGCL ∈ bl := by assumption) (h_b_KLN : blkKLN ∈ bl := by assumption) (h_b_TIM : blkTIM ∈ bl := by assumption) :
    Kept kb kl bl ko (dsfLost k s) := by
  unfold dsfLost
  with_reducible repeat' first
    | assumption
    | apply kept_dsfHunt
    | apply kept_ite
    | refine Kept.of_mk ?_
    | split

theorem kept_startFrame {k : Nat} {usable : Bool} {s : State} (h_s : Kept kb kl bl ko s) (h_p_regs : Part.regs ∈ kl := by assumption) (h_p_shadow : Part.shadow ∈ kl := by assumption) (h_p_cfg : Part.cfg ∈ kl := by assumption) (h_p_gcl : Part.gcl ∈ kl := by assumption) (h_p_dsf : Part.dsf ∈ kl := by assumption) (h_p_cls : Part.cls ∈ kl := by assumption) (h_p_spc : Part.spc ∈ kl := by assumption) (h_b_CLS : blkCLS ∈ bl := by assumption) (h_b_GCL : blkGCL ∈ bl := by assumption) :
    Kept kb kl bl ko (startFrame k usable s) := by
  unfold startFrame
  with_reducible repeat' first
    | assumption
    | (intro sx; refine (have hsx : Kept kb kl bl ko sx := ?_; ?_); on_goal 2 => (try clear_value sx))
    | (intro sx; try clear_value sx)
    | lift_lets
    | apply kept_st_setDsfCh
    | apply kept_dropStamps
    | apply kept_st_setSpcCh
    | apply kept_ite
    | refine Kept.of_mk ?_
    | split

theorem kept_ohsRephase {k : Nat} {s : State} (h_s : Kept kb kl bl ko s) (h_p_regs : Part.regs ∈ kl := by assumption) (h_p_ohs : Part.ohs ∈ kl := by assumption) (h_b_OHS : blkOHS ∈ bl := by assumption) :
    Kept kb kl bl ko (ohsRephase k s) := by
  unfold ohsRephase
  with_reducible repeat' first
    | assumption
    | (refine mem_guard ?_; with_unfolding_all (first | assumption | exact (by assumption : ∀ n, n ∈ bl) _ | exact blk_n (by decide) (by decide) (by assumption) | exact blk_un (by decide) (by decide) (by decide) (by assumption) | exact blk_ite (by assumption) (by assumption) | exact blk_ite (by exact blk_n (by decide) (by decide) (by assumption)) (by exact blk_n (by decide) (by decide) (by assumption))))
    | apply kept_st_put
    | apply kept_st_setOhsPort
    | apply kept_ite
    | (apply kept_foldl; intro sy xy hy)
    | (apply kept_foldl2; intro sy xy hy)
    | (apply kept_foldl1; intro sy xy hy)
    | refine Kept.of_mk ?_
    | split

theorem kept_gainSync {k : Nat} {s : State} (h_s : Kept kb kl bl ko s) (h_p_regs : Part.regs ∈ kl := by assumption) (h_p_shadow : Part.shadow ∈ kl := by assumption) (h_p_cfg : Part.cfg ∈ kl := by assumption) (h_p_cel : Part.cel ∈ kl := by assumption) (h_p_sch : Part.sch ∈ kl := by assumption) (h_p_gcl : Part.gcl ∈ kl := by assumption) (h_p_kln : Part.kln ∈ kl := by assumption) (h_p_act : Part.act ∈ kl := by assumption) (h_p_ube : Part.ube ∈ kl := by assumption) (h_p_chp : Part.chp ∈ kl := by assumption) (h_p_dsf : Part.dsf ∈ kl := by assumption) (h_p_ohs : Part.ohs ∈ kl := by assumption) (h_p_pipes : Part.pipes ∈ kl := by assumption) (h_p_cls : Part.cls ∈ kl := by assumption) (h_p_spc : Part.spc ∈ kl := by assumption) (h_p_tim : Part.tim ∈ kl := by assumption) (h_b_CFG : blkCFG ∈ bl := by assumption) (h_b_LPH : blkLPH ∈ bl := by assumption) (h_b_DSF : blkDSF ∈ bl := by assumption) (h_b_ACT : blkACT ∈ bl := by assumption) (h_b_UBE : blkUBE ∈ bl := by assumption) (h_b_CHP : blkCHP ∈ bl := by assumption) (h_b_CLS : blkCLS ∈ bl := by assumption) (h_b_SPC : blkSPC ∈ bl := by assumption) (h_b_CEL : blkCEL ∈ bl := by assumption) (h_b_GCL : blkGCL ∈ bl := by assumption) (h_b_KLN : blkKLN ∈ bl := by assumption) (h_b_TIM : blkTIM ∈ bl := by assumption) (h_b_OHS : blkOHS ∈ bl := by assumption) :
    Kept kb kl bl ko (gainSync k s) := by
  unfold gainSync
  with_reducible repeat' first
    | assumption
    | (refine mem_guard ?_; with_unfolding_all (first | assumption | exact (by assumption : ∀ n, n ∈ bl) _ | exact blk_n (by decide) (by decide) (by assumption) | exact blk_un (by decide) (by decide) (by decide) (by assumption) | exact blk_ite (by assumption) (by assumption) | exact blk_ite (by exact blk_n (by decide) (by decide) (by assumption)) (by exact blk_n (by decide) (by decide) (by assumption))))
    | (intro sx; refine (have hsx : Kept kb kl bl ko sx := ?_; ?_); on_goal 2 => (try clear_value sx))
    | (intro sx; try clear_value sx)
    | lift_lets
    | apply kept_actPoll
    | apply kept_chpPhase
    | apply kept_st_setDsfCh
    | apply kept_st_put
    | apply kept_ohsRephase
    | apply kept_startFrame
    | apply kept_st_wr
    | apply kept_ite
    | refine Kept.of_mk ?_
    | split

theorem kept_frameBoundary {k : Nat} {s : State} (h_s : Kept kb kl bl ko s) (h_p_cfg : Part.cfg ∈ kl := by assumption) (h_p_tim : Part.tim ∈ kl := by assumption) :
    Kept kb kl bl ko (frameBoundary k s) := by
  unfold frameBoundary
  with_reducible repeat' first
    | assumption
    | (intro sx; refine (have hsx : Kept kb kl bl ko sx := ?_; ?_); on_goal 2 => (try clear_value sx))
    | (intro sx; try clear_value sx)
    | lift_lets
    | apply kept_st_setLastB
    | apply kept_timCapture
    | apply kept_st_setBseq
    | refine Kept.of_mk ?_

theorem kept_fawMatch {k : Nat} {amp : Nat} {signs : Nat} {s : State} (h_s : Kept kb kl bl ko s) (h_p_regs : Part.regs ∈ kl := by assumption) (h_p_dsf : Part.dsf ∈ kl := by assumption) (h_p_spc : Part.spc ∈ kl := by assumption) (h_b_DSF : blkDSF ∈ bl := by assumption) :
    Kept kb kl bl ko (fawMatch k amp signs s) := by
  unfold fawMatch
  with_reducible repeat' first
    | assumption
    | (refine mem_guard ?_; with_unfolding_all (first | assumption | exact (by assumption : ∀ n, n ∈ bl) _ | exact blk_n (by decide) (by decide) (by assumption) | exact blk_un (by decide) (by decide) (by decide) (by assumption) | exact blk_ite (by assumption) (by assumption) | exact blk_ite (by exact blk_n (by decide) (by decide) (by assumption)) (by exact blk_n (by decide) (by decide) (by assumption))))
    | (intro sx; refine (have hsx : Kept kb kl bl ko sx := ?_; ?_); on_goal 2 => (try clear_value sx))
    | (intro sx; try clear_value sx)
    | lift_lets
    | apply kept_st_setDsfCh
    | apply kept_st_setSpcCh
    | apply kept_st_wr
    | apply kept_ite
    | split
    | dsimp only [sx]
    | refine Kept.of_mk ?_

theorem kept_expectedWindow {k : Nat} {amp : Nat} {signs : Nat} {s : State} (h_s : Kept kb kl bl ko s) (h_p_regs : Part.regs ∈ kl := by assumption) (h_p_shadow : Part.shadow ∈ kl := by assumption) (h_p_cfg : Part.cfg ∈ kl := by assumption) (h_p_cel : Part.cel ∈ kl := by assumption) (h_p_sch : Part.sch ∈ kl := by assumption) (h_p_gcl : Part.gcl ∈ kl := by assumption) (h_p_kln : Part.kln ∈ kl := by assumption) (h_p_act : Part.act ∈ kl := by assumption) (h_p_ube : Part.ube ∈ kl := by assumption) (h_p_chp : Part.chp ∈ kl := by assumption) (h_p_dsf : Part.dsf ∈ kl := by assumption) (h_p_ohs : Part.ohs ∈ kl := by assumption) (h_p_pipes : Part.pipes ∈ kl := by assumption) (h_p_cls : Part.cls ∈ kl := by assumption) (h_p_spc : Part.spc ∈ kl := by assumption) (h_p_tim : Part.tim ∈ kl := by assumption) (h_b_CFG : blkCFG ∈ bl := by assumption) (h_b_LPH : blkLPH ∈ bl := by assumption) (h_b_DSF : blkDSF ∈ bl := by assumption) (h_b_ACT : blkACT ∈ bl := by assumption) (h_b_UBE : blkUBE ∈ bl := by assumption) (h_b_CHP : blkCHP ∈ bl := by assumption) (h_b_CLS : blkCLS ∈ bl := by assumption) (h_b_SPC : blkSPC ∈ bl := by assumption) (h_b_CEL : blkCEL ∈ bl := by assumption) (h_b_GCL : blkGCL ∈ bl := by assumption) (h_b_KLN : blkKLN ∈ bl := by assumption) (h_b_TIM : blkTIM ∈ bl := by assumption) (h_b_OHS : blkOHS ∈ bl := by assumption) :
    Kept kb kl bl ko (expectedWindow k amp signs s) := by
  unfold expectedWindow
  with_reducible repeat' first
    | assumption
    | (refine mem_guard ?_; with_unfolding_all (first | assumption | exact (by assumption : ∀ n, n ∈ bl) _ | exact blk_n (by decide) (by decide) (by assumption) | exact blk_un (by decide) (by decide) (by decide) (by assumption) | exact blk_ite (by assumption) (by assumption) | exact blk_ite (by exact blk_n (by decide) (by decide) (by assumption)) (by exact blk_n (by decide) (by decide) (by assumption))))
    | (intro sx; refine (have hsx : Kept kb kl bl ko sx := ?_; ?_); on_goal 2 => (try clear_value sx))
    | (intro sx; try clear_value sx)
    | lift_lets
    | apply kept_st_setDsfCh
    | apply kept_gainSync
    | apply kept_dsfHunt
    | apply kept_frameBoundary
    | apply kept_st_wr
    | apply kept_st_setTrx
    | apply kept_ite
    | refine Kept.of_mk ?_
    | split

theorem kept_takeFrame {k : Nat} {s : State} (h_s : Kept kb kl bl ko s) (h_p_dsf : Part.dsf ∈ kl := by assumption) (h_p_tim : Part.tim ∈ kl := by assumption) :
    Kept kb kl bl ko (takeFrame k s) := by
  unfold takeFrame
  with_reducible repeat' first
    | assumption
    | (intro sx; refine (have hsx : Kept kb kl bl ko sx := ?_; ?_); on_goal 2 => (try clear_value sx))
    | (intro sx; try clear_value sx)
    | lift_lets
    | apply kept_st_setDsfCh
    | apply kept_st_setTrx
    | refine Kept.of_mk ?_

theorem kept_badHeader {k : Nat} {h : Bytes} {s : State} (h_s : Kept kb kl bl ko s) (h_p_regs : Part.regs ∈ kl := by assumption) (h_p_dsf : Part.dsf ∈ kl := by assumption) (h_b_DSF : blkDSF ∈ bl := by assumption) :
    Kept kb kl bl ko (badHeader k h s) := by
  unfold badHeader
  with_reducible repeat' first
    | assumption
    | (refine mem_guard ?_; with_unfolding_all (first | assumption | exact (by assumption : ∀ n, n ∈ bl) _ | exact blk_n (by decide) (by decide) (by assumption) | exact blk_un (by decide) (by decide) (by decide) (by assumption) | exact blk_ite (by assumption) (by assumption) | exact blk_ite (by exact blk_n (by decide) (by decide) (by assumption)) (by exact blk_n (by decide) (by decide) (by assumption))))
    | (intro sx; refine (have hsx : Kept kb kl bl ko sx := ?_; ?_); on_goal 2 => (try clear_value sx))
    | (intro sx; try clear_value sx)
    | lift_lets
    | apply kept_st_setDsfCh
    | apply kept_st_put
    | apply kept_ite
    | refine Kept.of_mk ?_
    | split

theorem kept_headerNews {k : Nat} {h : Bytes} {s : State} (h_s : Kept kb kl bl ko s) (h_p_regs : Part.regs ∈ kl := by assumption) (h_p_cfg : Part.cfg ∈ kl := by assumption) (h_p_cel : Part.cel ∈ kl := by assumption) (h_p_sch : Part.sch ∈ kl := by assumption) (h_p_kln : Part.kln ∈ kl := by assumption) (h_p_act : Part.act ∈ kl := by assumption) (h_p_ube : Part.ube ∈ kl := by assumption) (h_p_chp : Part.chp ∈ kl := by assumption) (h_p_dsf : Part.dsf ∈ kl := by assumption) (h_p_ohs : Part.ohs ∈ kl := by assumption) (h_p_pipes : Part.pipes ∈ kl := by assumption) (h_p_spc : Part.spc ∈ kl := by assumption) (h_p_tim : Part.tim ∈ kl := by assumption) (h_b_CFG : blkCFG ∈ bl := by assumption) (h_b_LPH : blkLPH ∈ bl := by assumption) (h_b_DSF : blkDSF ∈ bl := by assumption) (h_b_ACT : blkACT ∈ bl := by assumption) (h_b_UBE : blkUBE ∈ bl := by assumption) (h_b_CHP : blkCHP ∈ bl := by assumption) (h_b_SPC : blkSPC ∈ bl := by assumption) (h_b_CEL : blkCEL ∈ bl := by assumption) (h_b_KLN : blkKLN ∈ bl := by assumption) (h_b_TIM : blkTIM ∈ bl := by assumption) :
    Kept kb kl bl ko (headerNews k h s) := by
  unfold headerNews
  with_reducible repeat' first
    | assumption
    | (intro sx; refine (have hsx : Kept kb kl bl ko sx := ?_; ?_); on_goal 2 => (try clear_value sx))
    | (intro sx; try clear_value sx)
    | lift_lets
    | apply kept_klnHeader
    | apply kept_st_setDsfCh
    | apply kept_actHeader
    | refine Kept.of_mk ?_

theorem kept_frameHeader {k : Nat} {h : Bytes} {ops : Bytes} {s : State} (h_s : Kept kb kl bl ko s) (h_p_regs : Part.regs ∈ kl := by assumption) (h_p_shadow : Part.shadow ∈ kl := by assumption) (h_p_cfg : Part.cfg ∈ kl := by assumption) (h_p_cel : Part.cel ∈ kl := by assumption) (h_p_sch : Part.sch ∈ kl := by assumption) (h_p_gcl : Part.gcl ∈ kl := by assumption) (h_p_kln : Part.kln ∈ kl := by assumption) (h_p_act : Part.act ∈ kl := by assumption) (h_p_ube : Part.ube ∈ kl := by assumption) (h_p_chp : Part.chp ∈ kl := by assumption) (h_p_dsf : Part.dsf ∈ kl := by assumption) (h_p_ohs : Part.ohs ∈ kl := by assumption) (h_p_pipes : Part.pipes ∈ kl := by assumption) (h_p_cls : Part.cls ∈ kl := by assumption) (h_p_spc : Part.spc ∈ kl := by assumption) (h_p_tim : Part.tim ∈ kl := by assumption) (h_b_CFG : blkCFG ∈ bl := by assumption) (h_b_LPH : blkLPH ∈ bl := by assumption) (h_b_DSF : blkDSF ∈ bl := by assumption) (h_b_ACT : blkACT ∈ bl := by assumption) (h_b_UBE : blkUBE ∈ bl := by assumption) (h_b_CHP : blkCHP ∈ bl := by assumption) (h_b_CLS : blkCLS ∈ bl := by assumption) (h_b_SPC : blkSPC ∈ bl := by assumption) (h_b_CEL : blkCEL ∈ bl := by assumption) (h_b_GCL : blkGCL ∈ bl := by assumption) (h_b_KLN : blkKLN ∈ bl := by assumption) (h_b_TIM : blkTIM ∈ bl := by assumption) :
    Kept kb kl bl ko (frameHeader k h ops s) := by
  unfold frameHeader
  with_reducible repeat' first
    | assumption
    | (refine mem_guard ?_; with_unfolding_all (first | assumption | exact (by assumption : ∀ n, n ∈ bl) _ | exact blk_n (by decide) (by decide) (by assumption) | exact blk_un (by decide) (by decide) (by decide) (by assumption) | exact blk_ite (by assumption) (by assumption) | exact blk_ite (by exact blk_n (by decide) (by decide) (by assumption)) (by exact blk_n (by decide) (by decide) (by assumption))))
    | (intro sx; refine (have hsx : Kept kb kl bl ko sx := ?_; ?_); on_goal 2 => (try clear_value sx))
    | (intro sx; try clear_value sx)
    | lift_lets
    | apply kept_timHeader
    | apply kept_badHeader
    | apply kept_st_setDsfCh
    | apply kept_st_put
    | apply kept_st_setUbeCh
    | apply kept_dsfHunt
    | apply kept_takeFrame
    | apply kept_startFrame
    | apply kept_st_wr
    | apply kept_headerNews
    | apply kept_ite
    | refine Kept.of_mk ?_
    | split

theorem kept_cesTick {k : Nat} {s : State} (h_s : Kept kb kl bl ko s) (h_p_regs : Part.regs ∈ kl := by assumption) (h_p_dsf : Part.dsf ∈ kl := by assumption) (h_p_pipes : Part.pipes ∈ kl := by assumption) (h_b_CLS : blkCLS ∈ bl := by assumption) :
    Kept kb kl bl ko (cesTick k s) := by
  unfold cesTick
  with_reducible repeat' first
    | assumption
    | (intro sx; refine (have hsx : Kept kb kl bl ko sx := ?_; ?_); on_goal 2 => (try clear_value sx))
    | (intro sx; try clear_value sx)
    | lift_lets
    | apply kept_st_setCircuit
    | apply kept_enterPipe
    | (apply kept_foldl; intro sy xy hy)
    | (apply kept_foldl2; intro sy xy hy)
    | (apply kept_foldl1; intro sy xy hy)
    | refine Kept.of_mk ?_

theorem kept_ohsTick {k : Nat} {s : State} (h_s : Kept kb kl bl ko s) (h_p_regs : Part.regs ∈ kl := by assumption) (h_p_ohs : Part.ohs ∈ kl := by assumption) (h_b_OHS : blkOHS ∈ bl := by assumption) :
    Kept kb kl bl ko (ohsTick k s) := by
  unfold ohsTick
  with_reducible repeat' first
    | assumption
    | (refine mem_guard ?_; with_unfolding_all (first | assumption | exact (by assumption : ∀ n, n ∈ bl) _ | exact blk_n (by decide) (by decide) (by assumption) | exact blk_un (by decide) (by decide) (by decide) (by assumption) | exact blk_ite (by assumption) (by assumption) | exact blk_ite (by exact blk_n (by decide) (by decide) (by assumption)) (by exact blk_n (by decide) (by decide) (by assumption))))
    | (intro sx; refine (have hsx : Kept kb kl bl ko sx := ?_; ?_); on_goal 2 => (try clear_value sx))
    | (intro sx; try clear_value sx)
    | lift_lets
    | apply kept_st_put
    | apply kept_st_setOhsPort
    | apply kept_ite
    | (apply kept_foldl; intro sy xy hy)
    | (apply kept_foldl2; intro sy xy hy)
    | (apply kept_foldl1; intro sy xy hy)
    | refine Kept.of_mk ?_
    | split

theorem kept_flywheelTick {k : Nat} {s : State} (h_s : Kept kb kl bl ko s) (h_p_regs : Part.regs ∈ kl := by assumption) (h_p_ticks : Part.ticks ∈ kl := by assumption) (h_p_act : Part.act ∈ kl := by assumption) (h_p_dsf : Part.dsf ∈ kl := by assumption) (h_p_ohs : Part.ohs ∈ kl := by assumption) (h_p_pipes : Part.pipes ∈ kl := by assumption) (h_b_CLS : blkCLS ∈ bl := by assumption) (h_b_OHS : blkOHS ∈ bl := by assumption) :
    Kept kb kl bl ko (flywheelTick k s) := by
  unfold flywheelTick
  with_reducible repeat' first
    | assumption
    | (intro sx; refine (have hsx : Kept kb kl bl ko sx := ?_; ?_); on_goal 2 => (try clear_value sx))
    | (intro sx; refine (have hsx : Kept kb kl bl ko sx.2 := ?_; ?_); on_goal 2 => (try clear_value sx))
    | (intro sx; refine (have hsx : Kept kb kl bl ko sx.1 := ?_; ?_); on_goal 2 => (try clear_value sx))
    | (intro sx; try clear_value sx)
    | lift_lets
    | apply kept_st_setDsfCh
    | apply kept_ohsTick
    | apply kept_cesTick
    | apply kept_actTick
    | apply kept_ite
    | apply kept_ite1
    | apply kept_ite2
    | apply kept_ite21
    | apply kept_ite22
    | refine Kept.of_mk ?_
    | split

theorem kept_reassemblyTimeout {k : Nat} {sid : Nat} {s : State} (h_s : Kept kb kl bl ko s) (h_p_regs : Part.regs ∈ kl := by assumption) (h_p_cel : Part.cel ∈ kl := by assumption) (h_p_dsf : Part.dsf ∈ kl := by assumption) (h_b_DSF : blkDSF ∈ bl := by assumption) :
    Kept kb kl bl ko (reassemblyTimeout k sid s) := by
  unfold reassemblyTimeout
  with_reducible repeat' first
    | assumption
    | apply kept_abortAsm
    | apply kept_ite
    | split
    | refine Kept.of_mk ?_

theorem kept_provisionalRelease {k : Nat} {next : Bool} {cw : Nat} {code : Nat} {s : State} (h_s : Kept kb kl bl ko s) (h_p_spc : Part.spc ∈ kl := by assumption) :
    Kept kb kl bl ko (provisionalRelease k next cw code s) := by
  unfold provisionalRelease
  with_reducible repeat' first
    | assumption
    | (intro sx; refine (have hsx : Kept kb kl bl ko sx := ?_; ?_); on_goal 2 => (try clear_value sx))
    | (intro sx; try clear_value sx)
    | lift_lets
    | apply kept_st_setSpcCh
    | apply kept_ite
    | refine Kept.of_mk ?_
    | split

theorem kept_withdrawAhead {k : Nat} {n : Nat} {s : State} (h_s : Kept kb kl bl ko s) (h_p_regs : Part.regs ∈ kl := by assumption) (h_p_kln : Part.kln ∈ kl := by assumption) (h_p_spc : Part.spc ∈ kl := by assumption) (h_b_CIP : blkCIP ∈ bl := by assumption) :
    Kept kb kl bl ko (withdrawAhead k n s) := by
  unfold withdrawAhead
  with_reducible repeat' first
    | assumption
    | (intro sx; refine (have hsx : Kept kb kl bl ko sx := ?_; ?_); on_goal 2 => (try clear_value sx))
    | (intro sx; refine (have hsx : Kept kb kl bl ko sx.2 := ?_; ?_); on_goal 2 => (try clear_value sx))
    | (intro sx; try clear_value sx)
    | lift_lets
    | apply kept_st_setSpcCh
    | apply kept_cipWithdraw
    | apply kept_ite
    | apply kept_ite2
    | (apply kept_foldl; intro sy xy hy)
    | (apply kept_foldl2; intro sy xy hy)
    | (apply kept_foldl1; intro sy xy hy)
    | refine Kept.of_mk ?_
    | split

theorem kept_codewordDecoded {k : Nat} {next : Bool} {cw : Nat} {iter : Nat} {bitc : Nat} {code : Nat} {s : State} (h_s : Kept kb kl bl ko s) (h_p_regs : Part.regs ∈ kl := by assumption) (h_p_kln : Part.kln ∈ kl := by assumption) (h_p_dsf : Part.dsf ∈ kl := by assumption) (h_p_spc : Part.spc ∈ kl := by assumption) (h_b_CIP : blkCIP ∈ bl := by assumption) :
    Kept kb kl bl ko (codewordDecoded k next cw iter bitc code s) := by
  unfold codewordDecoded
  with_reducible repeat' first
    | assumption
    | (intro sx; refine (have hsx : Kept kb kl bl ko sx := ?_; ?_); on_goal 2 => (try clear_value sx))
    | (intro sx; try clear_value sx)
    | lift_lets
    | apply kept_withdrawAhead
    | apply kept_st_setDsfCh
    | apply kept_st_setSpcCh
    | apply kept_ite
    | split
    | dsimp only [sx]
    | refine Kept.of_mk ?_

theorem kept_countDrop {k : Nat} {n : Nat} {s : State} (h_s : Kept kb kl bl ko s) (h_p_dsf : Part.dsf ∈ kl := by assumption) :
    Kept kb kl bl ko (countDrop k n s) := by
  unfold countDrop
  with_reducible repeat' first
    | assumption
    | (intro sx; refine (have hsx : Kept kb kl bl ko sx := ?_; ?_); on_goal 2 => (try clear_value sx))
    | (intro sx; try clear_value sx)
    | lift_lets
    | apply kept_st_setDsfCh
    | refine Kept.of_mk ?_

theorem kept_setAsm {k : Nat} {sid : Nat} {a : Option Assembly} {s : State} (h_s : Kept kb kl bl ko s) (h_p_cel : Part.cel ∈ kl := by assumption) (h_p_dsf : Part.dsf ∈ kl := by assumption) :
    Kept kb kl bl ko (setAsm k sid a s) := by
  unfold setAsm
  with_reducible repeat' first
    | assumption
    | (intro sx; refine (have hsx : Kept kb kl bl ko sx := ?_; ?_); on_goal 2 => (try clear_value sx))
    | intro sx
    | lift_lets
    | apply kept_st_setDsfCh
    | refine Kept.of_mk ?_

theorem kept_discardFrag {k : Nat} {sid : Nat} {s : State} (h_s : Kept kb kl bl ko s) (h_p_regs : Part.regs ∈ kl := by assumption) (h_p_cel : Part.cel ∈ kl := by assumption) (h_p_dsf : Part.dsf ∈ kl := by assumption) (h_b_DSF : blkDSF ∈ bl := by assumption) :
    Kept kb kl bl ko (discardFrag k sid s) := by
  unfold discardFrag
  with_reducible repeat' first
    | assumption
    | apply kept_countDrop
    | apply kept_abortAsm
    | refine Kept.of_mk ?_

theorem kept_fragPlain {src : CipSrc} {test : Bool} {k : Nat} {fc : Nat} {pos : Nat} {w : Nat} {x : StreamCtx} {payload : Bytes} {s : State} (h_s : Kept kb kl bl ko s) (h_p_regs : Part.regs ∈ kl := by assumption) (h_p_kln : Part.kln ∈ kl := by assumption) (h_b_CIP : blkCIP ∈ bl := by assumption) (h_b_KLN : blkKLN ∈ bl := by assumption) :
    Kept kb kl bl ko (fragPlain src test k fc pos w x payload s).2 := by
  unfold fragPlain
  with_reducible repeat' first
    | assumption
    | (refine mem_guard ?_; with_unfolding_all (first | assumption | exact (by assumption : ∀ n, n ∈ bl) _ | exact blk_n (by decide) (by decide) (by assumption) | exact blk_un (by decide) (by decide) (by decide) (by assumption) | exact blk_ite (by assumption) (by assumption) | exact blk_ite (by exact blk_n (by decide) (by decide) (by assumption)) (by exact blk_n (by decide) (by decide) (by assumption))))
    | (refine kept_pair2 (by assumption) ?_)
    | (intro sx; refine (have hsx : Kept kb kl bl ko sx := ?_; ?_); on_goal 2 => (try clear_value sx))
    | (intro sx; refine (have hsx : Kept kb kl bl ko sx.2 := ?_; ?_); on_goal 2 => (try clear_value sx))
    | (intro sx; try clear_value sx)
    | lift_lets
    | apply kept_st_inc
    | apply kept_cipRequest
    | apply kept_ite
    | apply kept_ite1
    | apply kept_ite2
    | apply kept_ite21
    | apply kept_ite22
    | split
    | dsimp only [sx]
    | refine Kept.of_mk ?_

theorem kept_takeStamp {k : Nat} {fc : Nat} {hdr : Nat} {s : State} (h_s : Kept kb kl bl ko s) (h_p_spc : Part.spc ∈ kl := by assumption) :
    Kept kb kl bl ko (takeStamp k fc hdr s).2 := by
  unfold takeStamp
  with_reducible repeat' first
    | assumption
    | (intro sx; refine (have hsx : Kept kb kl bl ko sx := ?_; ?_); on_goal 2 => (try clear_value sx))
    | (intro sx; try clear_value sx)
    | lift_lets
    | apply kept_st_setSpcCh
    | split
    | dsimp only [sx]
    | refine Kept.of_mk ?_

theorem kept_packetComplete {k : Nat} {sid : Nat} {ctx : Nat} {a : Assembly} {busy : Bool} {s : State} (h_s : Kept kb kl bl ko s) (h_p_regs : Part.regs ∈ kl := by assumption) (h_p_cel : Part.cel ∈ kl := by assumption) (h_p_dsf : Part.dsf ∈ kl := by assumption) (h_p_pipes : Part.pipes ∈ kl := by assumption) (h_p_spc : Part.spc ∈ kl := by assumption) (h_b_DSF : blkDSF ∈ bl := by assumption) (h_b_CLS : blkCLS ∈ bl := by assumption) :
    Kept kb kl bl ko (packetComplete k sid ctx a busy s) := by
  unfold packetComplete
  with_reducible repeat' first
    | assumption
    | (refine mem_guard ?_; with_unfolding_all (first | assumption | exact (by assumption : ∀ n, n ∈ bl) _ | exact blk_n (by decide) (by decide) (by assumption) | exact blk_un (by decide) (by decide) (by decide) (by assumption) | exact blk_ite (by assumption) (by assumption) | exact blk_ite (by exact blk_n (by decide) (by decide) (by assumption)) (by exact blk_n (by decide) (by decide) (by assumption))))
    | (intro sx; refine (have hsx : Kept kb kl bl ko sx := ?_; ?_); on_goal 2 => (try clear_value sx))
    | (intro sx; refine (have hsx : Kept kb kl bl ko sx.2 := ?_; ?_); on_goal 2 => (try clear_value sx))
    | (intro sx; try clear_value sx)
    | lift_lets
    | apply kept_setAsm
    | apply kept_countDrop
    | apply kept_takeStamp
    | apply kept_st_inc
    | apply kept_st_setDsfCh
    | apply kept_enterPipe
    | apply kept_ite
    | apply kept_ite2
    | refine Kept.of_mk ?_
    | split

theorem kept_packetFragment {k : Nat} {pos : Nat} {w : Nat} {ctx : Nat} {payload : Bytes} {bad busy : Bool} {s : State} (h_s : Kept kb kl bl ko s) (h_p_regs : Part.regs ∈ kl := by assumption) (h_p_cel : Part.cel ∈ kl := by assumption) (h_p_kln : Part.kln ∈ kl := by assumption) (h_p_dsf : Part.dsf ∈ kl := by assumption) (h_p_pipes : Part.pipes ∈ kl := by assumption) (h_p_spc : Part.spc ∈ kl := by assumption) (h_b_DSF : blkDSF ∈ bl := by assumption) (h_b_CLS : blkCLS ∈ bl := by assumption) (h_b_CIP : blkCIP ∈ bl := by assumption) (h_b_KLN : blkKLN ∈ bl := by assumption) :
    Kept kb kl bl ko (packetFragment k pos w ctx payload bad busy s) := by
  unfold packetFragment
  with_reducible repeat' first
    | assumption
    | (refine kept_pair2 (by assumption) ?_)
    | (intro sx; refine (have hsx : Kept kb kl bl ko sx := ?_; ?_); on_goal 2 => (try clear_value sx))
    | (intro sx; refine (have hsx : Kept kb kl bl ko sx.2 := ?_; ?_); on_goal 2 => (try clear_value sx))
    | (intro sx; try clear_value sx)
    | lift_lets
    | apply kept_setAsm
    | apply kept_countDrop
    | apply kept_discardFrag
    | apply kept_packetComplete
    | apply kept_st_setDsfCh
    | apply kept_abortAsm
    | apply kept_fragPlain
    | apply kept_ite
    | apply kept_ite2
    | split
    | dsimp only [sx]
    | refine Kept.of_mk ?_

theorem kept_circuitFragment {k : Nat} {pos : Nat} {w : Nat} {ctx : Nat} {payload : Bytes} {bad : Bool} {s : State} (h_s : Kept kb kl bl ko s) (h_p_regs : Part.regs ∈ kl := by assumption) (h_p_kln : Part.kln ∈ kl := by assumption) (h_p_dsf : Part.dsf ∈ kl := by assumption) (h_b_CIP : blkCIP ∈ bl := by assumption) (h_b_KLN : blkKLN ∈ bl := by assumption) :
    Kept kb kl bl ko (circuitFragment k pos w ctx payload bad s) := by
  unfold circuitFragment
  with_reducible repeat' first
    | assumption
    | (refine kept_pair2 (by assumption) ?_)
    | (intro sx; refine (have hsx : Kept kb kl bl ko sx := ?_; ?_); on_goal 2 => (try clear_value sx))
    | (intro sx; refine (have hsx : Kept kb kl bl ko sx.2 := ?_; ?_); on_goal 2 => (try clear_value sx))
    | (intro sx; try clear_value sx)
    | lift_lets
    | apply kept_countDrop
    | apply kept_st_setDsfCh
    | apply kept_fragPlain
    | apply kept_ite
    | apply kept_ite2
    | split
    | dsimp only [sx]
    | refine Kept.of_mk ?_

theorem kept_readableFragment {k pos w : Nat} {info : Bytes} {busy : Bool} {c : Checks} {s : State} (h_s : Kept kb kl bl ko s) (h_p_regs : Part.regs ∈ kl := by assumption) (h_p_flt : Part.flt ∈ kl := by assumption) (h_p_cel : Part.cel ∈ kl := by assumption) (h_p_kln : Part.kln ∈ kl := by assumption) (h_p_dsf : Part.dsf ∈ kl := by assumption) (h_p_pipes : Part.pipes ∈ kl := by assumption) (h_p_spc : Part.spc ∈ kl := by assumption) (h_b_DSF : blkDSF ∈ bl := by assumption) (h_b_CLS : blkCLS ∈ bl := by assumption) (h_b_CIP : blkCIP ∈ bl := by assumption) (h_b_KLN : blkKLN ∈ bl := by assumption) (h_b_FLT : blkFLT ∈ bl := by assumption) :
    Kept kb kl bl ko (readableFragment k pos w info busy c s) := by
  have hl : ∀ {c d : Prop} [Decidable c] [Decidable d] {sid : Nat},
      Kept kb kl bl ko (if d then s else countDrop k 1 (if c then abortAsm k sid s else s)) :=
    fun {c d} _ _ {sid} => kept_ite h_s (kept_countDrop (kept_ite (kept_abortAsm h_s) h_s))
  unfold readableFragment
  dsimp only
  refine kept_ite (kept_st_setDsfCh hl) (kept_ite (kept_st_setDsfCh hl) (kept_ite (kept_st_setDsfCh h_s) ?_))
  split
  · exact kept_st_setDsfCh h_s
  · have hc := kept_st_setDsfCh (k := k) (v := { ((checkPacket blkDSF k c (slice info 8 (hdrPlen w)) s).2.2.dsfCh k) with pos := pos + occupancy w })
      (kept_checkPacket (src := blkDSF) (unit := k) (c := c) (l := slice info 8 (hdrPlen w)) h_s)
    exact kept_ite (kept_circuitFragment hc) (kept_packetFragment hc)

theorem kept_huntFrom {k : Nat} {info : Bytes} {busy : Bool} {x : Checks} {c : DsfCh} {p start : Nat}
    {rd : Nat → Option Nat} {s : State} (h_s : Kept kb kl bl ko s) (h_p_regs : Part.regs ∈ kl := by assumption) (h_p_flt : Part.flt ∈ kl := by assumption) (h_p_cel : Part.cel ∈ kl := by assumption) (h_p_kln : Part.kln ∈ kl := by assumption) (h_p_dsf : Part.dsf ∈ kl := by assumption) (h_p_pipes : Part.pipes ∈ kl := by assumption) (h_p_spc : Part.spc ∈ kl := by assumption) (h_b_DSF : blkDSF ∈ bl := by assumption) (h_b_CLS : blkCLS ∈ bl := by assumption) (h_b_CIP : blkCIP ∈ bl := by assumption) (h_b_KLN : blkKLN ∈ bl := by assumption) (h_b_FLT : blkFLT ∈ bl := by assumption) :
    Kept kb kl bl ko (fragmentStep.huntFrom k info busy x c p start rd s) := by
  have hd : Kept kb kl bl ko ((countDrop k 1 s).put (DSF_EVT_FRAG_HUNT k) true) := kept_st_put (kept_countDrop h_s)
  unfold fragmentStep.huntFrom
  split
  · exact h_s
  · exact kept_st_setDsfCh hd
  · dsimp only
    split
    · exact kept_readableFragment hd
    · exact hd

theorem kept_fragmentStep {k : Nat} {info : Bytes} {busy : Bool} {x : Checks} {s : State} (h_s : Kept kb kl bl ko s) (h_p_regs : Part.regs ∈ kl := by assumption) (h_p_flt : Part.flt ∈ kl := by assumption) (h_p_cel : Part.cel ∈ kl := by assumption) (h_p_kln : Part.kln ∈ kl := by assumption) (h_p_dsf : Part.dsf ∈ kl := by assumption) (h_p_pipes : Part.pipes ∈ kl := by assumption) (h_p_spc : Part.spc ∈ kl := by assumption) (h_b_DSF : blkDSF ∈ bl := by assumption) (h_b_CLS : blkCLS ∈ bl := by assumption) (h_b_CIP : blkCIP ∈ bl := by assumption) (h_b_KLN : blkKLN ∈ bl := by assumption) (h_b_FLT : blkFLT ∈ bl := by assumption) :
    Kept kb kl bl ko (fragmentStep k info busy x s) := by
  unfold fragmentStep
  dsimp only
  refine kept_ite h_s ?_
  split
  · exact kept_ite (kept_readableFragment h_s) (kept_ite h_s (kept_huntFrom h_s))
  · exact kept_ite (kept_huntFrom h_s) h_s

theorem kept_showDsf {l : List Nat} {s : State} (h_s : Kept kb kl bl ko s) (h_p_regs : Part.regs ∈ kl := by assumption) (h_b_DSF : blkDSF ∈ bl := by assumption) :
    Kept kb kl bl ko (showDsf l s) := by
  unfold showDsf
  with_reducible repeat' first
    | assumption
    | (refine mem_guard ?_; with_unfolding_all (first | assumption | exact (by assumption : ∀ n, n ∈ bl) _ | exact blk_n (by decide) (by decide) (by assumption) | exact blk_un (by decide) (by decide) (by decide) (by assumption)))
    | apply kept_setReg
    | (apply kept_foldl; intro sy xy hy)
    | (apply kept_foldl2; intro sy xy hy)
    | (apply kept_foldl1; intro sy xy hy)
    | refine Kept.of_mk ?_

theorem kept_dsfAccess {s : State} (h_s : Kept kb kl bl ko s) (h_p_regs : Part.regs ∈ kl := by assumption) (h_p_cel : Part.cel ∈ kl := by assumption) (h_p_sch : Part.sch ∈ kl := by assumption) (h_p_dsf : Part.dsf ∈ kl := by assumption) (h_p_pipes : Part.pipes ∈ kl := by assumption) (h_p_spc : Part.spc ∈ kl := by assumption) (h_b_DSF : blkDSF ∈ bl := by assumption) (h_b_SPC : blkSPC ∈ bl := by assumption) (h_b_CEL : blkCEL ∈ bl := by assumption) :
    KeptO kb kl bl ko id (dsfAccess s) := by
  unfold dsfAccess
  with_reducible repeat' first
    | assumption
    | (intro sx; refine (have hsx : Kept kb kl bl ko sx := ?_; ?_); on_goal 2 => (try clear_value sx))
    | (intro sx; try clear_value sx)
    | lift_lets
    | apply kept_st_setCircuit
    | apply kept_showDsf
    | apply kept_st_setStreamMap
    | apply kept_st_setStreamCtx
    | apply kept_streamTouched
    | apply kept_ite
    | (apply kept_foldl; intro sy xy hy)
    | (apply kept_foldl2; intro sy xy hy)
    | (apply kept_foldl1; intro sy xy hy)
    | split
    | dsimp only [sx]
    | refine Kept.of_mk ?_
    | apply kept_none
    | apply kept_some
    | apply kept_some2
    | apply kept_oite
    | (apply kept_omap; intro xo)

theorem kept_dsfWrite {a : Nat} {v : Word} {o : State} {s : State} (h_o : Kept kb kl bl ko o) (h_s : Kept kb kl bl ko s) (h_p_regs : Part.regs ∈ kl := by assumption) (h_p_cel : Part.cel ∈ kl := by assumption) (h_p_sch : Part.sch ∈ kl := by assumption) (h_p_dsf : Part.dsf ∈ kl := by assumption) (h_p_pipes : Part.pipes ∈ kl := by assumption) (h_p_spc : Part.spc ∈ kl := by assumption) (h_b_DSF : blkDSF ∈ bl := by assumption) (h_b_SPC : blkSPC ∈ bl := by assumption) (h_b_CEL : blkCEL ∈ bl := by assumption) :
    Kept kb kl bl ko (dsfWrite a v o s) := by
  unfold dsfWrite
  with_reducible repeat' first
    | assumption
    | (refine mem_guard ?_; with_unfolding_all (first | assumption | exact (by assumption : ∀ n, n ∈ bl) _ | exact blk_n (by decide) (by decide) (by assumption) | exact blk_un (by decide) (by decide) (by decide) (by assumption) | exact blk_ite (by assumption) (by assumption) | exact blk_ite (by exact blk_n (by decide) (by decide) (by assumption)) (by exact blk_n (by decide) (by decide) (by assumption))))
    | (refine kept_ouse (by assumption) ?_)
    | apply kept_st_put
    | apply kept_dsfAccess
    | apply kept_ite
    | split
    | refine Kept.of_mk ?_

theorem kept_showOhs {p : Nat} {s : State} (h_s : Kept kb kl bl ko s) (h_p_regs : Part.regs ∈ kl := by assumption) (h_b_OHS : blkOHS ∈ bl := by assumption) :
    Kept kb kl bl ko (showOhs p s) := by
  unfold showOhs
  with_reducible repeat' first
    | assumption
    | (refine mem_guard ?_; with_unfolding_all (first | assumption | exact (by assumption : ∀ n, n ∈ bl) _ | exact blk_n (by decide) (by decide) (by assumption) | exact blk_un (by decide) (by decide) (by decide) (by assumption)))
    | apply kept_st_put
    | refine Kept.of_mk ?_

theorem kept_ohsBlock {p : Nat} {b : Bytes} {s : State} (h_s : Kept kb kl bl ko s) (h_p_regs : Part.regs ∈ kl := by assumption) (h_p_ohs : Part.ohs ∈ kl := by assumption) (h_b_OHS : blkOHS ∈ bl := by assumption) :
    Kept kb kl bl ko (ohsBlock p b s) := by
  unfold ohsBlock
  with_reducible repeat' first
    | assumption
    | (refine mem_guard ?_; with_unfolding_all (first | assumption | exact (by assumption : ∀ n, n ∈ bl) _ | exact blk_n (by decide) (by decide) (by assumption) | exact blk_un (by decide) (by decide) (by decide) (by assumption) | exact blk_ite (by assumption) (by assumption) | exact blk_ite (by exact blk_n (by decide) (by decide) (by assumption)) (by exact blk_n (by decide) (by decide) (by assumption))))
    | (intro sx; refine (have hsx : Kept kb kl bl ko sx := ?_; ?_); on_goal 2 => (try clear_value sx))
    | (intro sx; try clear_value sx)
    | lift_lets
    | apply kept_st_inc
    | apply kept_showOhs
    | apply kept_st_setOhsPort
    | apply kept_ite
    | refine Kept.of_mk ?_
    | split

theorem kept_ohsShort {p : Nat} {s : State} (h_s : Kept kb kl bl ko s) (h_p_regs : Part.regs ∈ kl := by assumption) (h_p_ohs : Part.ohs ∈ kl := by assumption) (h_b_OHS : blkOHS ∈ bl := by assumption) :
    Kept kb kl bl ko (ohsShort p s) := by
  unfold ohsShort
  with_reducible repeat' first
    | assumption
    | (refine mem_guard ?_; with_unfolding_all (first | assumption | exact (by assumption : ∀ n, n ∈ bl) _ | exact blk_n (by decide) (by decide) (by assumption) | exact blk_un (by decide) (by decide) (by decide) (by assumption) | exact blk_ite (by assumption) (by assumption) | exact blk_ite (by exact blk_n (by decide) (by decide) (by assumption)) (by exact blk_n (by decide) (by decide) (by assumption))))
    | apply kept_st_inc
    | apply kept_st_setOhsPort
    | apply kept_ite
    | refine Kept.of_mk ?_
    | split

theorem kept_ohsWrite {a : Nat} {o : State} {s : State} (h_o : Kept kb kl bl ko o) (h_s : Kept kb kl bl ko s) (h_p_regs : Part.regs ∈ kl := by assumption) (h_p_ohs : Part.ohs ∈ kl := by assumption) (h_b_OHS : blkOHS ∈ bl := by assumption) :
    Kept kb kl bl ko (ohsWrite a o s) := by
  unfold ohsWrite
  with_reducible repeat' first
    | assumption
    | (refine mem_guard ?_; with_unfolding_all (first | assumption | exact (by assumption : ∀ n, n ∈ bl) _ | exact blk_n (by decide) (by decide) (by assumption) | exact blk_un (by decide) (by decide) (by decide) (by assumption) | exact blk_ite (by assumption) (by assumption) | exact blk_ite (by exact blk_n (by decide) (by decide) (by assumption)) (by exact blk_n (by decide) (by decide) (by assumption))))
    | (intro sx; refine (have hsx : Kept kb kl bl ko sx := ?_; ?_); on_goal 2 => (try clear_value sx))
    | (intro sx; try clear_value sx)
    | lift_lets
    | apply kept_st_put
    | apply kept_showOhs
    | apply kept_st_setOhsPort
    | apply kept_ite
    | (apply kept_foldl; intro sy xy hy)
    | (apply kept_foldl2; intro sy xy hy)
    | (apply kept_foldl1; intro sy xy hy)
    | refine Kept.of_mk ?_
    | split

theorem kept_aheadTo {k : Nat} {p : Nat} {s : State} (h_s : Kept kb kl bl ko s) (h_p_spc : Part.spc ∈ kl := by assumption) :
    Kept kb kl bl ko (aheadTo k p s) := by
  unfold aheadTo
  with_reducible repeat' first
    | assumption
    | apply kept_st_setSpcCh
    | refine Kept.of_mk ?_

theorem kept_issueAhead {k : Nat} {p : SpecPkt} {ctx : Nat} {plain : Bytes} {bad : Bool} {t : Tod} {s : State} (h_s : Kept kb kl bl ko s) (h_p_regs : Part.regs ∈ kl := by assumption) (h_p_pipes : Part.pipes ∈ kl := by assumption) (h_p_spc : Part.spc ∈ kl := by assumption) (h_b_CLS : blkCLS ∈ bl := by assumption) :
    Kept kb kl bl ko (issueAhead k p ctx plain bad t s) := by
  have h1 : Kept kb kl bl ko (takeStamp k p.fc p.hdr s).2 := kept_takeStamp h_s
  unfold issueAhead
  dsimp only
  exact kept_enterPipe (kept_st_setSpcCh h1)

theorem kept_finishAhead {k : Nat} {w : AheadWait} {s : State} (h_s : Kept kb kl bl ko s) (h_p_regs : Part.regs ∈ kl := by assumption) (h_p_pipes : Part.pipes ∈ kl := by assumption) (h_p_spc : Part.spc ∈ kl := by assumption) (h_b_CLS : blkCLS ∈ bl := by assumption) (h_b_SPC : blkSPC ∈ bl := by assumption) (h_b_CIP : blkCIP ∈ bl := by assumption) : Kept kb kl bl ko (finishAhead k w s) := by
  unfold finishAhead
  split
  · exact kept_st_inc h_s
  · exact kept_ite h_s (kept_ite h_s (kept_ite (kept_st_inc h_s) (kept_issueAhead h_s)))

theorem kept_flushAhead {k : Nat} (l : List AheadWait) {s : State} (h_s : Kept kb kl bl ko s) (h_p_regs : Part.regs ∈ kl := by assumption) (h_p_pipes : Part.pipes ∈ kl := by assumption) (h_p_spc : Part.spc ∈ kl := by assumption) (h_b_CLS : blkCLS ∈ bl := by assumption) (h_b_SPC : blkSPC ∈ bl := by assumption) (h_b_CIP : blkCIP ∈ bl := by assumption) : Kept kb kl bl ko (flushAhead k l s) := by
  induction l generalizing s with
  | nil => exact kept_st_setSpcCh h_s
  | cons w l ih =>
    unfold flushAhead
    exact kept_ite (ih (kept_finishAhead h_s)) (kept_st_setSpcCh h_s)

theorem kept_aheadDone {k num : Nat} {s : State} (h_s : Kept kb kl bl ko s) (h_p_regs : Part.regs ∈ kl := by assumption) (h_p_pipes : Part.pipes ∈ kl := by assumption) (h_p_spc : Part.spc ∈ kl := by assumption) (h_b_CLS : blkCLS ∈ bl := by assumption) (h_b_SPC : blkSPC ∈ bl := by assumption) (h_b_CIP : blkCIP ∈ bl := by assumption) : Kept kb kl bl ko (aheadDone k num s) :=
  kept_flushAhead _ h_s

theorem kept_startAhead {k pos w ctx : Nat} {payload : Bytes} {bad : Bool} {s : State} (h_s : Kept kb kl bl ko s) (h_p_regs : Part.regs ∈ kl := by assumption) (h_p_kln : Part.kln ∈ kl := by assumption) (h_p_pipes : Part.pipes ∈ kl := by assumption) (h_p_spc : Part.spc ∈ kl := by assumption) (h_b_CLS : blkCLS ∈ bl := by assumption) (h_b_SPC : blkSPC ∈ bl := by assumption) (h_b_CIP : blkCIP ∈ bl := by assumption) (h_b_KLN : blkKLN ∈ bl := by assumption) :
    Kept kb kl bl ko (startAhead k pos w ctx payload bad s) := by
  have hq : ∀ {t : State} (l : List AheadWait) (v : SpcCh), Kept kb kl bl ko t → Kept kb kl bl ko (flushAhead k l (t.setSpcCh k v)) :=
    fun l v ht => kept_flushAhead l (kept_st_setSpcCh ht)
  have hc : ∀ num slot, Kept kb kl bl ko (cipAhead k num slot s).2 := fun num slot => kept_cipAhead h_s
  unfold startAhead
  dsimp only
  refine kept_ite (hq _ _ h_s) (kept_ite h_s ?_)
  split
  · exact hq _ _ (kept_pair2 (by assumption) (hc _ _))
  · exact kept_pair2 (by assumption) (hc _ _)

theorem kept_runAhead {k : Nat} {info : Bytes} {y : Checks} {s : State} (h_s : Kept kb kl bl ko s) (h_p_regs : Part.regs ∈ kl := by assumption) (h_p_flt : Part.flt ∈ kl := by assumption) (h_p_kln : Part.kln ∈ kl := by assumption) (h_p_pipes : Part.pipes ∈ kl := by assumption) (h_p_spc : Part.spc ∈ kl := by assumption) (h_b_CLS : blkCLS ∈ bl := by assumption) (h_b_SPC : blkSPC ∈ bl := by assumption) (h_b_CIP : blkCIP ∈ bl := by assumption) (h_b_KLN : blkKLN ∈ bl := by assumption) (h_b_FLT : blkFLT ∈ bl := by assumption) :
    Kept kb kl bl ko (runAhead k info y s) := by
  unfold runAhead
  with_reducible repeat' first
    | assumption
    | (intro sx; refine (have hsx : Kept kb kl bl ko sx := ?_; ?_); on_goal 2 => (try clear_value sx))
    | (intro sx; refine (have hsx : Kept kb kl bl ko sx.2.2 := ?_; ?_); on_goal 2 => (try clear_value sx))
    | (intro sx; try clear_value sx)
    | lift_lets
    | apply kept_checkPacket
    | apply kept_startAhead
    | apply kept_aheadTo
    | apply kept_st_setSpcCh
    | apply kept_ite
    | split
    | dsimp only [sx]
    | refine Kept.of_mk ?_

theorem kept_codewordVerdict {k : Nat} {s : State} (h_s : Kept kb kl bl ko s) (h_p_regs : Part.regs ∈ kl := by assumption) (h_p_shadow : Part.shadow ∈ kl := by assumption) (h_p_mem : Part.mem ∈ kl := by assumption) (h_p_ecc : Part.ecc ∈ kl := by assumption) (h_p_free : Part.free ∈ kl := by assumption) (h_p_cfg : Part.cfg ∈ kl := by assumption) (h_p_flt : Part.flt ∈ kl := by assumption) (h_p_cel : Part.cel ∈ kl := by assumption) (h_p_sch : Part.sch ∈ kl := by assumption) (h_p_gcl : Part.gcl ∈ kl := by assumption) (h_p_pipes : Part.pipes ∈ kl := by assumption) (h_p_cls : Part.cls ∈ kl := by assumption) (h_p_flw : Part.flw ∈ kl := by assumption) (h_p_spc : Part.spc ∈ kl := by assumption) (h_p_cas : Part.cas ∈ kl := by assumption) (h_all : ∀ n, n ∈ bl := by assumption) :
    Kept kb kl bl ko (codewordVerdict k s) := by
  unfold codewordVerdict
  have h_b_CFG : blkCFG ∈ bl := h_all _
  have h_b_CLK : blkCLK ∈ bl := h_all _
  have h_b_PWR : blkPWR ∈ bl := h_all _
  have h_b_FLT : blkFLT ∈ bl := h_all _
  have h_b_TSK : blkTSK ∈ bl := h_all _
  have h_b_ACU : blkACU ∈ bl := h_all _
  have h_b_LPH : blkLPH ∈ bl := h_all _
  have h_b_DSF : blkDSF ∈ bl := h_all _
  have h_b_ACT : blkACT ∈ bl := h_all _
  have h_b_UBE : blkUBE ∈ bl := h_all _
  have h_b_CHP : blkCHP ∈ bl := h_all _
  have h_b_PRS : blkPRS ∈ bl := h_all _
  have h_b_CLS : blkCLS ∈ bl := h_all _
  have h_b_FLW : blkFLW ∈ bl := h_all _
  have h_b_SPC : blkSPC ∈ bl := h_all _
  have h_b_CEL : blkCEL ∈ bl := h_all _
  have h_b_SCH : blkSCH ∈ bl := h_all _
  have h_b_GCL : blkGCL ∈ bl := h_all _
  have h_b_CIP : blkCIP ∈ bl := h_all _
  have h_b_KLN : blkKLN ∈ bl := h_all _
  have h_b_MAC : blkMAC ∈ bl := h_all _
  have h_b_TIM : blkTIM ∈ bl := h_all _
  have h_b_OHS : blkOHS ∈ bl := h_all _
  have h_b_CAS : blkCAS ∈ bl := h_all _
  with_reducible repeat' first
    | assumption
    | (refine mem_guard ?_; with_unfolding_all (first | assumption | exact (by assumption : ∀ n, n ∈ bl) _ | exact blk_n (by decide) (by decide) (by assumption) | exact blk_un (by decide) (by decide) (by decide) (by assumption) | exact blk_ite (by assumption) (by assumption) | exact blk_ite (by exact blk_n (by decide) (by decide) (by assumption)) (by exact blk_n (by decide) (by decide) (by assumption))))
    | (intro sx; refine (have hsx : Kept kb kl bl ko sx := ?_; ?_); on_goal 2 => (try clear_value sx))
    | (intro sx; try clear_value sx)
    | lift_lets
    | apply kept_aheadResumes
    | apply kept_commitSpec
    | apply kept_st_inc
    | apply kept_squashWhere
    | apply kept_st_setSpcCh
    | apply kept_ite
    | (apply kept_foldl; intro sy xy hy)
    | (apply kept_foldl2; intro sy xy hy)
    | (apply kept_foldl1; intro sy xy hy)
    | split
    | dsimp only [sx]
    | refine Kept.of_mk ?_

theorem kept_specTimeout {k : Nat} {s : State} (h_s : Kept kb kl bl ko s) (h_p_regs : Part.regs ∈ kl := by assumption) (h_p_cel : Part.cel ∈ kl := by assumption) (h_p_sch : Part.sch ∈ kl := by assumption) (h_p_pipes : Part.pipes ∈ kl := by assumption) (h_p_spc : Part.spc ∈ kl := by assumption) (h_b_SPC : blkSPC ∈ bl := by assumption) (h_b_CEL : blkCEL ∈ bl := by assumption) :
    Kept kb kl bl ko (specTimeout k s) := by
  unfold specTimeout
  with_reducible repeat' first
    | assumption
    | (refine mem_guard ?_; with_unfolding_all (first | assumption | exact (by assumption : ∀ n, n ∈ bl) _ | exact blk_n (by decide) (by decide) (by assumption) | exact blk_un (by decide) (by decide) (by decide) (by assumption)))
    | apply kept_aheadResumes
    | apply kept_st_inc
    | apply kept_squashWhere
    | split
    | refine Kept.of_mk ?_

theorem kept_showPower {k : Nat} {p : Int} {s : State} (h_s : Kept kb kl bl ko s) (h_p_regs : Part.regs ∈ kl := by assumption) (h_b_LPH : blkLPH ∈ bl := by assumption) :
    Kept kb kl bl ko (showPower k p s) := by
  unfold showPower
  with_reducible repeat' first
    | assumption
    | (refine mem_guard ?_; with_unfolding_all (first | assumption | exact (by assumption : ∀ n, n ∈ bl) _ | exact blk_n (by decide) (by decide) (by assumption) | exact blk_un (by decide) (by decide) (by decide) (by assumption)))
    | apply kept_st_wr
    | refine Kept.of_mk ?_

theorem kept_crFall {k : Nat} {s : State} (h_s : Kept kb kl bl ko s) (h_p_regs : Part.regs ∈ kl := by assumption) (h_p_shadow : Part.shadow ∈ kl := by assumption) (h_p_cfg : Part.cfg ∈ kl := by assumption) (h_p_cel : Part.cel ∈ kl := by assumption) (h_p_sch : Part.sch ∈ kl := by assumption) (h_p_gcl : Part.gcl ∈ kl := by assumption) (h_p_kln : Part.kln ∈ kl := by assumption) (h_p_act : Part.act ∈ kl := by assumption) (h_p_ube : Part.ube ∈ kl := by assumption) (h_p_chp : Part.chp ∈ kl := by assumption) (h_p_dsf : Part.dsf ∈ kl := by assumption) (h_p_ohs : Part.ohs ∈ kl := by assumption) (h_p_pipes : Part.pipes ∈ kl := by assumption) (h_p_cls : Part.cls ∈ kl := by assumption) (h_p_spc : Part.spc ∈ kl := by assumption) (h_p_tim : Part.tim ∈ kl := by assumption) (h_b_CFG : blkCFG ∈ bl := by assumption) (h_b_LPH : blkLPH ∈ bl := by assumption) (h_b_DSF : blkDSF ∈ bl := by assumption) (h_b_ACT : blkACT ∈ bl := by assumption) (h_b_UBE : blkUBE ∈ bl := by assumption) (h_b_CHP : blkCHP ∈ bl := by assumption) (h_b_CLS : blkCLS ∈ bl := by assumption) (h_b_SPC : blkSPC ∈ bl := by assumption) (h_b_CEL : blkCEL ∈ bl := by assumption) (h_b_GCL : blkGCL ∈ bl := by assumption) (h_b_KLN : blkKLN ∈ bl := by assumption) (h_b_TIM : blkTIM ∈ bl := by assumption) : Kept kb kl bl ko (crFall k s) := by
  unfold crFall
  exact kept_ite (kept_chpReact (kept_dsfLost (kept_st_put (kept_st_put h_s)))) h_s

theorem kept_rxDown {k : Nat} {s : State} (h_s : Kept kb kl bl ko s) (h_p_regs : Part.regs ∈ kl := by assumption) (h_p_shadow : Part.shadow ∈ kl := by assumption) (h_p_cfg : Part.cfg ∈ kl := by assumption) (h_p_cel : Part.cel ∈ kl := by assumption) (h_p_sch : Part.sch ∈ kl := by assumption) (h_p_gcl : Part.gcl ∈ kl := by assumption) (h_p_kln : Part.kln ∈ kl := by assumption) (h_p_act : Part.act ∈ kl := by assumption) (h_p_ube : Part.ube ∈ kl := by assumption) (h_p_chp : Part.chp ∈ kl := by assumption) (h_p_dsf : Part.dsf ∈ kl := by assumption) (h_p_ohs : Part.ohs ∈ kl := by assumption) (h_p_pipes : Part.pipes ∈ kl := by assumption) (h_p_cls : Part.cls ∈ kl := by assumption) (h_p_spc : Part.spc ∈ kl := by assumption) (h_p_lph : Part.lph ∈ kl := by assumption) (h_p_tim : Part.tim ∈ kl := by assumption) (h_b_CFG : blkCFG ∈ bl := by assumption) (h_b_LPH : blkLPH ∈ bl := by assumption) (h_b_DSF : blkDSF ∈ bl := by assumption) (h_b_ACT : blkACT ∈ bl := by assumption) (h_b_UBE : blkUBE ∈ bl := by assumption) (h_b_CHP : blkCHP ∈ bl := by assumption) (h_b_CLS : blkCLS ∈ bl := by assumption) (h_b_SPC : blkSPC ∈ bl := by assumption) (h_b_CEL : blkCEL ∈ bl := by assumption) (h_b_GCL : blkGCL ∈ bl := by assumption) (h_b_KLN : blkKLN ∈ bl := by assumption) (h_b_TIM : blkTIM ∈ bl := by assumption) : Kept kb kl bl ko (rxDown k s) := by
  unfold rxDown
  dsimp only
  exact kept_timPoll (kept_chpReact (kept_dsfLost (kept_st_wr (kept_st_put (kept_st_put (kept_st_put (kept_st_setLphCh h_s)))))))

theorem kept_rxStarts {k : Nat} {warm : Bool} {s : State} (h_s : Kept kb kl bl ko s) (h_p_lph : Part.lph ∈ kl := by assumption) :
    Kept kb kl bl ko (rxStarts k warm s) := by
  unfold rxStarts
  with_reducible repeat' first
    | assumption
    | (intro sx; refine (have hsx : Kept kb kl bl ko sx := ?_; ?_); on_goal 2 => (try clear_value sx))
    | (intro sx; try clear_value sx)
    | lift_lets
    | apply kept_st_setLphCh
    | apply kept_ite
    | split
    | dsimp only [sx]
    | refine Kept.of_mk ?_

theorem kept_rxUp {k : Nat} {warm : Bool} {s : State} (h_s : Kept kb kl bl ko s) (h_p_regs : Part.regs ∈ kl := by assumption) (h_p_free : Part.free ∈ kl := by assumption) (h_p_lph : Part.lph ∈ kl := by assumption) (h_b_LPH : blkLPH ∈ bl := by assumption) :
    Kept kb kl bl ko (rxUp k warm s) := by
  unfold rxUp
  with_reducible repeat' first
    | assumption
    | (intro sx; refine (have hsx : Kept kb kl bl ko sx := ?_; ?_); on_goal 2 => (try clear_value sx))
    | (intro sx; refine (have hsx : Kept kb kl bl ko sx.2 := ?_; ?_); on_goal 2 => (try clear_value sx))
    | (intro sx; try clear_value sx)
    | lift_lets
    | apply kept_rxStarts
    | apply kept_showPower
    | apply kept_st_setLphCh
    | apply kept_draw
    | refine Kept.of_mk ?_

theorem kept_crLock {k : Nat} {cd : Nat} {fofs : Nat} {s : State} (h_s : Kept kb kl bl ko s) (h_p_regs : Part.regs ∈ kl := by assumption) (h_p_free : Part.free ∈ kl := by assumption) (h_p_lph : Part.lph ∈ kl := by assumption) (h_b_LPH : blkLPH ∈ bl := by assumption) :
    Kept kb kl bl ko (crLock k cd fofs s) := by
  unfold crLock
  with_reducible repeat' first
    | assumption
    | (refine mem_guard ?_; with_unfolding_all (first | assumption | exact (by assumption : ∀ n, n ∈ bl) _ | exact blk_n (by decide) (by decide) (by assumption) | exact blk_un (by decide) (by decide) (by decide) (by assumption) | exact blk_ite (by assumption) (by assumption) | exact blk_ite (by exact blk_n (by decide) (by decide) (by assumption)) (by exact blk_n (by decide) (by decide) (by assumption))))
    | (intro sx; refine (have hsx : Kept kb kl bl ko sx := ?_; ?_); on_goal 2 => (try clear_value sx))
    | (intro sx; refine (have hsx : Kept kb kl bl ko sx.2 := ?_; ?_); on_goal 2 => (try clear_value sx))
    | (intro sx; try clear_value sx)
    | lift_lets
    | apply kept_st_put
    | apply kept_st_setLphCh
    | apply kept_st_wr
    | apply kept_draw
    | apply kept_ite
    | apply kept_ite2
    | refine Kept.of_mk ?_
    | split

theorem kept_rxRestart {k : Nat} {s : State} (h_s : Kept kb kl bl ko s) (h_p_regs : Part.regs ∈ kl := by assumption) (h_p_shadow : Part.shadow ∈ kl := by assumption) (h_p_cfg : Part.cfg ∈ kl := by assumption) (h_p_cel : Part.cel ∈ kl := by assumption) (h_p_sch : Part.sch ∈ kl := by assumption) (h_p_gcl : Part.gcl ∈ kl := by assumption) (h_p_kln : Part.kln ∈ kl := by assumption) (h_p_act : Part.act ∈ kl := by assumption) (h_p_ube : Part.ube ∈ kl := by assumption) (h_p_chp : Part.chp ∈ kl := by assumption) (h_p_dsf : Part.dsf ∈ kl := by assumption) (h_p_ohs : Part.ohs ∈ kl := by assumption) (h_p_pipes : Part.pipes ∈ kl := by assumption) (h_p_cls : Part.cls ∈ kl := by assumption) (h_p_spc : Part.spc ∈ kl := by assumption) (h_p_lph : Part.lph ∈ kl := by assumption) (h_p_tim : Part.tim ∈ kl := by assumption) (h_b_CFG : blkCFG ∈ bl := by assumption) (h_b_LPH : blkLPH ∈ bl := by assumption) (h_b_DSF : blkDSF ∈ bl := by assumption) (h_b_ACT : blkACT ∈ bl := by assumption) (h_b_UBE : blkUBE ∈ bl := by assumption) (h_b_CHP : blkCHP ∈ bl := by assumption) (h_b_CLS : blkCLS ∈ bl := by assumption) (h_b_SPC : blkSPC ∈ bl := by assumption) (h_b_CEL : blkCEL ∈ bl := by assumption) (h_b_GCL : blkGCL ∈ bl := by assumption) (h_b_KLN : blkKLN ∈ bl := by assumption) (h_b_TIM : blkTIM ∈ bl := by assumption) :
    Kept kb kl bl ko (rxRestart k s) := by
  unfold rxRestart
  with_reducible repeat' first
    | assumption
    | apply kept_rxStarts
    | apply kept_crFall
    | apply kept_ite
    | refine Kept.of_mk ?_
    | split

theorem kept_losAssert {k : Nat} {p : Int} {s : State} (h_s : Kept kb kl bl ko s) (h_p_regs : Part.regs ∈ kl := by assumption) (h_p_shadow : Part.shadow ∈ kl := by assumption) (h_p_cfg : Part.cfg ∈ kl := by assumption) (h_p_cel : Part.cel ∈ kl := by assumption) (h_p_sch : Part.sch ∈ kl := by assumption) (h_p_gcl : Part.gcl ∈ kl := by assumption) (h_p_kln : Part.kln ∈ kl := by assumption) (h_p_act : Part.act ∈ kl := by assumption) (h_p_ube : Part.ube ∈ kl := by assumption) (h_p_chp : Part.chp ∈ kl := by assumption) (h_p_dsf : Part.dsf ∈ kl := by assumption) (h_p_ohs : Part.ohs ∈ kl := by assumption) (h_p_pipes : Part.pipes ∈ kl := by assumption) (h_p_cls : Part.cls ∈ kl := by assumption) (h_p_spc : Part.spc ∈ kl := by assumption) (h_p_lph : Part.lph ∈ kl := by assumption) (h_p_tim : Part.tim ∈ kl := by assumption) (h_b_CFG : blkCFG ∈ bl := by assumption) (h_b_LPH : blkLPH ∈ bl := by assumption) (h_b_DSF : blkDSF ∈ bl := by assumption) (h_b_ACT : blkACT ∈ bl := by assumption) (h_b_UBE : blkUBE ∈ bl := by assumption) (h_b_CHP : blkCHP ∈ bl := by assumption) (h_b_CLS : blkCLS ∈ bl := by assumption) (h_b_SPC : blkSPC ∈ bl := by assumption) (h_b_CEL : blkCEL ∈ bl := by assumption) (h_b_GCL : blkGCL ∈ bl := by assumption) (h_b_KLN : blkKLN ∈ bl := by assumption) (h_b_TIM : blkTIM ∈ bl := by assumption) : Kept kb kl bl ko (losAssert k p s) := by
  have h1 : Kept kb kl bl ko (showPower k p s) := kept_showPower h_s
  unfold losAssert
  dsimp only
  exact kept_ite h_s (kept_ite (kept_chpReact (kept_dsfLost (kept_crFall (kept_st_setLphCh (kept_st_put (kept_st_put h1)))))) h1)

theorem kept_losClear {k : Nat} {p : Int} {s : State} (h_s : Kept kb kl bl ko s) (h_p_regs : Part.regs ∈ kl := by assumption) (h_p_lph : Part.lph ∈ kl := by assumption) (h_b_LPH : blkLPH ∈ bl := by assumption) :
    Kept kb kl bl ko (losClear k p s) := by
  unfold losClear
  with_reducible repeat' first
    | assumption
    | (refine mem_guard ?_; with_unfolding_all (first | assumption | exact (by assumption : ∀ n, n ∈ bl) _ | exact blk_n (by decide) (by decide) (by assumption) | exact blk_un (by decide) (by decide) (by decide) (by assumption) | exact blk_ite (by assumption) (by assumption) | exact blk_ite (by exact blk_n (by decide) (by decide) (by assumption)) (by exact blk_n (by decide) (by decide) (by assumption))))
    | (intro sx; refine (have hsx : Kept kb kl bl ko sx := ?_; ?_); on_goal 2 => (try clear_value sx))
    | (intro sx; try clear_value sx)
    | lift_lets
    | apply kept_showPower
    | apply kept_st_put
    | apply kept_st_setLphCh
    | apply kept_ite
    | refine Kept.of_mk ?_
    | split

theorem kept_loLine {k : Nat} {low : Bool} {s : State} (h_s : Kept kb kl bl ko s) (h_p_regs : Part.regs ∈ kl := by assumption) (h_p_lph : Part.lph ∈ kl := by assumption) (h_b_LPH : blkLPH ∈ bl := by assumption) :
    Kept kb kl bl ko (loLine k low s) := by
  unfold loLine
  with_reducible repeat' first
    | assumption
    | (refine mem_guard ?_; with_unfolding_all (first | assumption | exact (by assumption : ∀ n, n ∈ bl) _ | exact blk_n (by decide) (by decide) (by assumption) | exact blk_un (by decide) (by decide) (by decide) (by assumption) | exact blk_ite (by assumption) (by assumption) | exact blk_ite (by exact blk_n (by decide) (by decide) (by assumption)) (by exact blk_n (by decide) (by decide) (by assumption))))
    | (intro sx; refine (have hsx : Kept kb kl bl ko sx := ?_; ?_); on_goal 2 => (try clear_value sx))
    | (intro sx; try clear_value sx)
    | lift_lets
    | apply kept_st_put
    | apply kept_st_setLphCh
    | apply kept_ite
    | refine Kept.of_mk ?_
    | split

theorem kept_combPower {k : Nat} {p : Int} {s : State} (h_s : Kept kb kl bl ko s) (h_p_regs : Part.regs ∈ kl := by assumption) (h_p_flt : Part.flt ∈ kl := by assumption) (h_b_FLT : blkFLT ∈ bl := by assumption) (h_b_LPH : blkLPH ∈ bl := by assumption) :
    Kept kb kl bl ko (combPower k p s) := by
  unfold combPower
  with_reducible repeat' first
    | assumption
    | (refine mem_guard ?_; with_unfolding_all (first | assumption | exact (by assumption : ∀ n, n ∈ bl) _ | exact blk_n (by decide) (by decide) (by assumption) | exact blk_un (by decide) (by decide) (by decide) (by assumption) | exact blk_ite (by assumption) (by assumption) | exact blk_ite (by exact blk_n (by decide) (by decide) (by assumption)) (by exact blk_n (by decide) (by decide) (by assumption))))
    | (intro sx; refine (have hsx : Kept kb kl bl ko sx := ?_; ?_); on_goal 2 => (try clear_value sx))
    | (intro sx; try clear_value sx)
    | lift_lets
    | apply kept_fltEvent
    | apply kept_st_put
    | apply kept_st_wr
    | apply kept_ite
    | refine Kept.of_mk ?_
    | split

theorem kept_setHold {b : Bool} {s : State} (h_s : Kept kb kl bl ko s) (h_p_regs : Part.regs ∈ kl := by assumption) (h_p_cel : Part.cel ∈ kl := by assumption) (h_p_sch : Part.sch ∈ kl := by assumption) (h_p_ube : Part.ube ∈ kl := by assumption) (h_p_chp : Part.chp ∈ kl := by assumption) (h_p_ohs : Part.ohs ∈ kl := by assumption) (h_b_LPH : blkLPH ∈ bl := by assumption) (h_b_UBE : blkUBE ∈ bl := by assumption) (h_b_CHP : blkCHP ∈ bl := by assumption) (h_b_CEL : blkCEL ∈ bl := by assumption) :
    Kept kb kl bl ko (setHold b s) := by
  unfold setHold
  with_reducible repeat' first
    | assumption
    | apply kept_st_setChpCh
    | apply kept_chpReact
    | (apply kept_foldl; intro sy xy hy)
    | (apply kept_foldl2; intro sy xy hy)
    | (apply kept_foldl1; intro sy xy hy)
    | refine Kept.of_mk ?_

theorem kept_portSelect {s : State} (h_s : Kept kb kl bl ko s) (h_p_regs : Part.regs ∈ kl := by assumption) (h_p_cel : Part.cel ∈ kl := by assumption) (h_p_sch : Part.sch ∈ kl := by assumption) (h_p_ube : Part.ube ∈ kl := by assumption) (h_p_chp : Part.chp ∈ kl := by assumption) (h_p_ohs : Part.ohs ∈ kl := by assumption) (h_b_LPH : blkLPH ∈ bl := by assumption) (h_b_UBE : blkUBE ∈ bl := by assumption) (h_b_CHP : blkCHP ∈ bl := by assumption) (h_b_CEL : blkCEL ∈ bl := by assumption) :
    Kept kb kl bl ko (portSelect s) := by
  unfold portSelect
  with_reducible repeat' first
    | assumption
    | (refine mem_guard ?_; with_unfolding_all (first | assumption | exact (by assumption : ∀ n, n ∈ bl) _ | exact blk_n (by decide) (by decide) (by assumption) | exact blk_un (by decide) (by decide) (by decide) (by assumption) | exact blk_ite (by assumption) (by assumption) | exact blk_ite (by exact blk_n (by decide) (by decide) (by assumption)) (by exact blk_n (by decide) (by decide) (by assumption))))
    | apply kept_setHold
    | apply kept_st_put
    | apply kept_ite
    | refine Kept.of_mk ?_
    | split

theorem kept_portMoveStart {s : State} (h_s : Kept kb kl bl ko s) (h_p_lph : Part.lph ∈ kl := by assumption) :
    Kept kb kl bl ko (portMoveStart s) := by
  unfold portMoveStart
  with_reducible repeat' first
    | assumption
    | apply kept_ite
    | refine Kept.of_mk ?_
    | split

theorem kept_portRelease {s : State} (h_s : Kept kb kl bl ko s) (h_p_regs : Part.regs ∈ kl := by assumption) (h_p_shadow : Part.shadow ∈ kl := by assumption) (h_p_cfg : Part.cfg ∈ kl := by assumption) (h_p_cel : Part.cel ∈ kl := by assumption) (h_p_sch : Part.sch ∈ kl := by assumption) (h_p_gcl : Part.gcl ∈ kl := by assumption) (h_p_kln : Part.kln ∈ kl := by assumption) (h_p_act : Part.act ∈ kl := by assumption) (h_p_ube : Part.ube ∈ kl := by assumption) (h_p_chp : Part.chp ∈ kl := by assumption) (h_p_dsf : Part.dsf ∈ kl := by assumption) (h_p_ohs : Part.ohs ∈ kl := by assumption) (h_p_pipes : Part.pipes ∈ kl := by assumption) (h_p_cls : Part.cls ∈ kl := by assumption) (h_p_spc : Part.spc ∈ kl := by assumption) (h_p_lph : Part.lph ∈ kl := by assumption) (h_p_tim : Part.tim ∈ kl := by assumption) (h_b_CFG : blkCFG ∈ bl := by assumption) (h_b_LPH : blkLPH ∈ bl := by assumption) (h_b_DSF : blkDSF ∈ bl := by assumption) (h_b_ACT : blkACT ∈ bl := by assumption) (h_b_UBE : blkUBE ∈ bl := by assumption) (h_b_CHP : blkCHP ∈ bl := by assumption) (h_b_CLS : blkCLS ∈ bl := by assumption) (h_b_SPC : blkSPC ∈ bl := by assumption) (h_b_CEL : blkCEL ∈ bl := by assumption) (h_b_GCL : blkGCL ∈ bl := by assumption) (h_b_KLN : blkKLN ∈ bl := by assumption) (h_b_TIM : blkTIM ∈ bl := by assumption) : Kept kb kl bl ko (portRelease s) := by
  unfold portRelease
  split
  · exact h_s
  · have h1 : Kept kb kl bl ko { s with lph := { s.lph with moving := none } } := Kept.of_mk h_s
    exact kept_timPoll (kept_portSelect (kept_setHold
      (kept_foldl (fun _ _ h => kept_actStage (kept_portEqd (kept_rxRestart h))) (kept_st_put (kept_st_put (kept_st_wr h1))))))

theorem kept_calEnable {k : Nat} {tx : Bool} {on : Bool} {s : State} (h_s : Kept kb kl bl ko s) (h_p_regs : Part.regs ∈ kl := by assumption) (h_p_lph : Part.lph ∈ kl := by assumption) (h_b_LPH : blkLPH ∈ bl := by assumption) :
    Kept kb kl bl ko (calEnable k tx on s) := by
  unfold calEnable
  with_reducible repeat' first
    | assumption
    | (refine mem_guard ?_; with_unfolding_all (first | assumption | exact (by assumption : ∀ n, n ∈ bl) _ | exact blk_n (by decide) (by decide) (by assumption) | exact blk_un (by decide) (by decide) (by decide) (by assumption) | exact blk_ite (by assumption) (by assumption) | exact blk_ite (by exact blk_n (by decide) (by decide) (by assumption)) (by exact blk_n (by decide) (by decide) (by assumption)) | exact blk_calState (by assumption)))
    | (intro sx; refine (have hsx : Kept kb kl bl ko sx := ?_; ?_); on_goal 2 => (try clear_value sx))
    | (intro sx; try clear_value sx)
    | lift_lets
    | apply kept_st_setLphCh
    | apply kept_st_wr
    | apply kept_ite
    | refine Kept.of_mk ?_
    | split

theorem kept_calRequest {k : Nat} {tx : Bool} {s : State} (h_s : Kept kb kl bl ko s) (h_p_regs : Part.regs ∈ kl := by assumption) (h_b_LPH : blkLPH ∈ bl := by assumption) :
    Kept kb kl bl ko (calRequest k tx s) := by
  unfold calRequest
  with_reducible repeat' first
    | assumption
    | (refine mem_guard ?_; with_unfolding_all (first | assumption | exact (by assumption : ∀ n, n ∈ bl) _ | exact blk_n (by decide) (by decide) (by assumption) | exact blk_un (by decide) (by decide) (by decide) (by assumption) | exact blk_ite (by assumption) (by assumption) | exact blk_ite (by exact blk_n (by decide) (by decide) (by assumption)) (by exact blk_n (by decide) (by decide) (by assumption)) | exact blk_calState (by assumption)))
    | apply kept_st_wr
    | apply kept_ite
    | refine Kept.of_mk ?_
    | split

theorem kept_calDone {k : Nat} {tx : Bool} {c : Int × Int} {s : State} (h_s : Kept kb kl bl ko s) (h_p_regs : Part.regs ∈ kl := by assumption) (h_p_lph : Part.lph ∈ kl := by assumption) (h_b_LPH : blkLPH ∈ bl := by assumption) :
    Kept kb kl bl ko (calDone k tx c s) := by
  unfold calDone
  with_reducible repeat' first
    | assumption
    | (refine mem_guard ?_; with_unfolding_all (first | assumption | exact (by assumption : ∀ n, n ∈ bl) _ | exact blk_n (by decide) (by decide) (by assumption) | exact blk_un (by decide) (by decide) (by decide) (by assumption) | exact blk_ite (by assumption) (by assumption) | exact blk_ite (by exact blk_n (by decide) (by decide) (by assumption)) (by exact blk_n (by decide) (by decide) (by assumption)) | exact blk_calState (by assumption)))
    | (intro sx; refine (have hsx : Kept kb kl bl ko sx := ?_; ?_); on_goal 2 => (try clear_value sx))
    | (intro sx; try clear_value sx)
    | lift_lets
    | apply kept_st_setLphCh
    | apply kept_st_wr
    | apply kept_ite
    | refine Kept.of_mk ?_
    | split

theorem kept_calCheckOne {k : Nat} {tx : Bool} {now avg : Int × Int} {s : State} (h_s : Kept kb kl bl ko s) (h_p_regs : Part.regs ∈ kl := by assumption) (h_p_lph : Part.lph ∈ kl := by assumption) (h_b_LPH : blkLPH ∈ bl := by assumption) :
    Kept kb kl bl ko (calCheckOne k tx now avg s) := by
  unfold calCheckOne
  dsimp only
  refine kept_ite (kept_ite (kept_st_wr h_s (h_b0 := blk_calState (by assumption))) h_s) (kept_ite ?_ h_s)
  split
  · exact kept_st_setLphCh h_s
  · exact kept_ite h_s (kept_ite (kept_st_put (kept_calDone h_s) (h_b0 := blk_ite (by with_unfolding_all exact blk_n (by decide) (by decide) (by assumption)) (by with_unfolding_all exact blk_n (by decide) (by decide) (by assumption)))) (kept_st_setLphCh h_s))

theorem kept_calCheck {k : Nat} {now : CalCond} {avg : CalCond} {s : State} (h_s : Kept kb kl bl ko s) (h_p_regs : Part.regs ∈ kl := by assumption) (h_p_lph : Part.lph ∈ kl := by assumption) (h_b_LPH : blkLPH ∈ bl := by assumption) :
    Kept kb kl bl ko (calCheck k now avg s) := by
  unfold calCheck
  with_reducible repeat' first
    | assumption
    | (refine mem_guard ?_; with_unfolding_all (first | assumption | exact (by assumption : ∀ n, n ∈ bl) _ | exact blk_n (by decide) (by decide) (by assumption) | exact blk_un (by decide) (by decide) (by decide) (by assumption) | exact blk_ite (by assumption) (by assumption) | exact blk_ite (by exact blk_n (by decide) (by decide) (by assumption)) (by exact blk_n (by decide) (by decide) (by assumption))))
    | (intro sx; refine (have hsx : Kept kb kl bl ko sx := ?_; ?_); on_goal 2 => (try clear_value sx))
    | (intro sx; try clear_value sx)
    | lift_lets
    | apply kept_showPower
    | apply kept_calCheckOne
    | apply kept_st_wr
    | apply kept_ite
    | refine Kept.of_mk ?_
    | split

theorem kept_calStart {k : Nat} {tx : Bool} {now : CalCond} {s : State} (h_s : Kept kb kl bl ko s) (h_p_regs : Part.regs ∈ kl := by assumption) (h_p_lph : Part.lph ∈ kl := by assumption) (h_b_LPH : blkLPH ∈ bl := by assumption) :
    Kept kb kl bl ko (calStart k tx now s) := by
  unfold calStart
  with_reducible repeat' first
    | assumption
    | (refine mem_guard ?_; with_unfolding_all (first | assumption | exact (by assumption : ∀ n, n ∈ bl) _ | exact blk_n (by decide) (by decide) (by assumption) | exact blk_un (by decide) (by decide) (by decide) (by assumption) | exact blk_ite (by assumption) (by assumption) | exact blk_ite (by exact blk_n (by decide) (by decide) (by assumption)) (by exact blk_n (by decide) (by decide) (by assumption)) | exact blk_calState (by assumption)))
    | (intro sx; refine (have hsx : Kept kb kl bl ko sx := ?_; ?_); on_goal 2 => (try clear_value sx))
    | (intro sx; try clear_value sx)
    | lift_lets
    | apply kept_st_setLphCh
    | apply kept_st_wr
    | apply kept_ite
    | refine Kept.of_mk ?_
    | split

theorem kept_calComplete {k : Nat} {tx : Bool} {avg : CalCond} {s : State} (h_s : Kept kb kl bl ko s) (h_p_regs : Part.regs ∈ kl := by assumption) (h_p_lph : Part.lph ∈ kl := by assumption) (h_b_LPH : blkLPH ∈ bl := by assumption) :
    Kept kb kl bl ko (calComplete k tx avg s) := by
  unfold calComplete
  with_reducible repeat' first
    | assumption
    | apply kept_calDone
    | apply kept_ite
    | refine Kept.of_mk ?_
    | split

theorem kept_setTaps {k : Nat} {taps : List Int} {s : State} (h_s : Kept kb kl bl ko s) (h_p_lph : Part.lph ∈ kl := by assumption) :
    Kept kb kl bl ko (setTaps k taps s) := by
  unfold setTaps
  with_reducible repeat' first
    | assumption
    | (intro sx; refine (have hsx : Kept kb kl bl ko sx := ?_; ?_); on_goal 2 => (try clear_value sx))
    | (intro sx; try clear_value sx)
    | lift_lets
    | apply kept_st_setLphCh
    | apply kept_ite
    | refine Kept.of_mk ?_
    | split

theorem kept_eqWindow {k : Nat} {counts : List Nat} {aided : List (BitVec 32)} {piloted : List (BitVec 32)} {s : State} (h_s : Kept kb kl bl ko s) (h_p_regs : Part.regs ∈ kl := by assumption) (h_p_lph : Part.lph ∈ kl := by assumption) (h_b_LPH : blkLPH ∈ bl := by assumption) :
    Kept kb kl bl ko (eqWindow k counts aided piloted s) := by
  unfold eqWindow
  with_reducible repeat' first
    | assumption
    | (refine mem_guard ?_; with_unfolding_all (first | assumption | exact (by assumption : ∀ n, n ∈ bl) _ | exact blk_n (by decide) (by decide) (by assumption) | exact blk_un (by decide) (by decide) (by decide) (by assumption) | exact blk_ite (by assumption) (by assumption) | exact blk_ite (by exact blk_n (by decide) (by decide) (by assumption)) (by exact blk_n (by decide) (by decide) (by assumption))))
    | (intro sx; refine (have hsx : Kept kb kl bl ko sx := ?_; ?_); on_goal 2 => (try clear_value sx))
    | (intro sx; try clear_value sx)
    | lift_lets
    | apply kept_setTaps
    | apply kept_st_put
    | apply kept_st_setLphCh
    | apply kept_ite
    | refine Kept.of_mk ?_
    | split

theorem kept_laserPollOne {i : Nat} {r : SrcReading} {s : State} (h_s : Kept kb kl bl ko s) (h_p_regs : Part.regs ∈ kl := by assumption) (h_p_free : Part.free ∈ kl := by assumption) (h_p_flt : Part.flt ∈ kl := by assumption) (h_b_FLT : blkFLT ∈ bl := by assumption) (h_b_LPH : blkLPH ∈ bl := by assumption) (h_b_MAC : blkMAC ∈ bl := by assumption) :
    Kept kb kl bl ko (laserPollOne i r s) := by
  unfold laserPollOne
  with_reducible repeat' first
    | assumption
    | (refine mem_guard ?_; with_unfolding_all (first | assumption | exact (by assumption : ∀ n, n ∈ bl) _ | exact blk_n (by decide) (by decide) (by assumption) | exact blk_un (by decide) (by decide) (by decide) (by assumption) | exact blk_ite (by assumption) (by assumption) | exact blk_ite (by exact blk_n (by decide) (by decide) (by assumption)) (by exact blk_n (by decide) (by decide) (by assumption)) | exact (blk_laserBits (by assumption) (by assumption)).1 | exact (blk_laserBits (by assumption) (by assumption)).2.1 | exact (blk_laserBits (by assumption) (by assumption)).2.2))
    | (intro sx; refine (have hsx : Kept kb kl bl ko sx := ?_; ?_); on_goal 2 => (try clear_value sx))
    | intro sx
    | lift_lets
    | apply kept_fltSourceEvent
    | apply kept_st_put
    | apply kept_ite
    | refine Kept.of_mk ?_
    | split

theorem kept_laserPoll {r0 : SrcReading} {r1 : SrcReading} {r2 : SrcReading} {r3 : SrcReading} {s : State} (h_s : Kept kb kl bl ko s) (h_p_regs : Part.regs ∈ kl := by assumption) (h_p_free : Part.free ∈ kl := by assumption) (h_p_flt : Part.flt ∈ kl := by assumption) (h_p_lph : Part.lph ∈ kl := by assumption) (h_b_FLT : blkFLT ∈ bl := by assumption) (h_b_LPH : blkLPH ∈ bl := by assumption) (h_b_MAC : blkMAC ∈ bl := by assumption) :
    Kept kb kl bl ko (laserPoll r0 r1 r2 r3 s) := by
  unfold laserPoll
  with_reducible repeat' first
    | assumption
    | (intro sx; refine (have hsx : Kept kb kl bl ko sx := ?_; ?_); on_goal 2 => (try clear_value sx))
    | (intro sx; try clear_value sx)
    | lift_lets
    | apply kept_fltSourceEvent
    | apply kept_laserPollOne
    | apply kept_ite
    | refine Kept.of_mk ?_
    | split

theorem kept_laserGo {o : State} {s : State} (h_o : Kept kb kl bl ko o) (h_s : Kept kb kl bl ko s) (h_p_regs : Part.regs ∈ kl := by assumption) (h_b_LPH : blkLPH ∈ bl := by assumption) :
    Kept kb kl bl ko (laserGo o s) := by
  unfold laserGo
  with_reducible repeat' first
    | assumption
    | (refine mem_guard ?_; with_unfolding_all (first | assumption | exact (by assumption : ∀ n, n ∈ bl) _ | exact blk_n (by decide) (by decide) (by assumption) | exact blk_un (by decide) (by decide) (by decide) (by assumption) | exact blk_ite (by assumption) (by assumption) | exact blk_ite (by exact blk_n (by decide) (by decide) (by assumption)) (by exact blk_n (by decide) (by decide) (by assumption))))
    | apply kept_st_put
    | apply kept_ite
    | refine Kept.of_mk ?_
    | split

theorem kept_laserDone {ack : Bool} {data : Nat} {s : State} (h_s : Kept kb kl bl ko s) (h_p_regs : Part.regs ∈ kl := by assumption) (h_b_LPH : blkLPH ∈ bl := by assumption) :
    Kept kb kl bl ko (laserDone ack data s) := by
  unfold laserDone
  with_reducible repeat' first
    | assumption
    | (refine mem_guard ?_; with_unfolding_all (first | assumption | exact (by assumption : ∀ n, n ∈ bl) _ | exact blk_n (by decide) (by decide) (by assumption) | exact blk_un (by decide) (by decide) (by decide) (by assumption) | exact blk_ite (by assumption) (by assumption) | exact blk_ite (by exact blk_n (by decide) (by decide) (by assumption)) (by exact blk_n (by decide) (by decide) (by assumption))))
    | (intro sx; refine (have hsx : Kept kb kl bl ko sx := ?_; ?_); on_goal 2 => (try clear_value sx))
    | (intro sx; try clear_value sx)
    | lift_lets
    | apply kept_st_put
    | apply kept_st_wr
    | apply kept_ite
    | refine Kept.of_mk ?_
    | split

theorem kept_tapClock {trstN : Bool} {tms : Bool} {extest : Bool} {s : State} (h_s : Kept kb kl bl ko s) (h_p_regs : Part.regs ∈ kl := by assumption) (h_p_cel : Part.cel ∈ kl := by assumption) (h_p_sch : Part.sch ∈ kl := by assumption) (h_p_ube : Part.ube ∈ kl := by assumption) (h_p_chp : Part.chp ∈ kl := by assumption) (h_p_ohs : Part.ohs ∈ kl := by assumption) (h_p_tap : Part.tap ∈ kl := by assumption) (h_b_LPH : blkLPH ∈ bl := by assumption) (h_b_UBE : blkUBE ∈ bl := by assumption) (h_b_CHP : blkCHP ∈ bl := by assumption) (h_b_CEL : blkCEL ∈ bl := by assumption) :
    Kept kb kl bl ko (tapClock trstN tms extest s) := by
  unfold tapClock
  with_reducible repeat' first
    | assumption
    | (intro sx; refine (have hsx : Kept kb kl bl ko sx := ?_; ?_); on_goal 2 => (try clear_value sx))
    | (intro sx; try clear_value sx)
    | lift_lets
    | apply kept_chpReact
    | apply kept_ite
    | (apply kept_foldl; intro sy xy hy)
    | (apply kept_foldl2; intro sy xy hy)
    | (apply kept_foldl1; intro sy xy hy)
    | refine Kept.of_mk ?_
    | split

theorem kept_chCtlWritten {k : Nat} {o s : State} (h_o : Kept kb kl bl ko o) (h_s : Kept kb kl bl ko s) (h_p_regs : Part.regs ∈ kl := by assumption) (h_p_shadow : Part.shadow ∈ kl := by assumption) (h_p_free : Part.free ∈ kl := by assumption) (h_p_cfg : Part.cfg ∈ kl := by assumption) (h_p_cel : Part.cel ∈ kl := by assumption) (h_p_sch : Part.sch ∈ kl := by assumption) (h_p_gcl : Part.gcl ∈ kl := by assumption) (h_p_kln : Part.kln ∈ kl := by assumption) (h_p_act : Part.act ∈ kl := by assumption) (h_p_ube : Part.ube ∈ kl := by assumption) (h_p_chp : Part.chp ∈ kl := by assumption) (h_p_dsf : Part.dsf ∈ kl := by assumption) (h_p_ohs : Part.ohs ∈ kl := by assumption) (h_p_pipes : Part.pipes ∈ kl := by assumption) (h_p_cls : Part.cls ∈ kl := by assumption) (h_p_spc : Part.spc ∈ kl := by assumption) (h_p_lph : Part.lph ∈ kl := by assumption) (h_p_tim : Part.tim ∈ kl := by assumption) (h_b_CFG : blkCFG ∈ bl := by assumption) (h_b_LPH : blkLPH ∈ bl := by assumption) (h_b_DSF : blkDSF ∈ bl := by assumption) (h_b_ACT : blkACT ∈ bl := by assumption) (h_b_UBE : blkUBE ∈ bl := by assumption) (h_b_CHP : blkCHP ∈ bl := by assumption) (h_b_CLS : blkCLS ∈ bl := by assumption) (h_b_SPC : blkSPC ∈ bl := by assumption) (h_b_CEL : blkCEL ∈ bl := by assumption) (h_b_GCL : blkGCL ∈ bl := by assumption) (h_b_KLN : blkKLN ∈ bl := by assumption) (h_b_TIM : blkTIM ∈ bl := by assumption) : Kept kb kl bl ko (chCtlWritten k o s) := by
  have h2 : ∀ v, Kept kb kl bl ko ((s.put (CHP_STATUS_CLK_OK k) true).setLphCh k v) := fun v => kept_st_setLphCh (kept_st_put h_s)
  unfold chCtlWritten
  dsimp only
  refine (fun hw => kept_ite (kept_calEnable hw) hw) ?_
  exact kept_ite (kept_assertLof (kept_calEnable (kept_ite (kept_rxUp (h2 _)) (h2 _)))) (kept_ite (kept_calEnable (kept_rxDown h_s)) h_s)

theorem kept_lphWrite {a : Nat} {v : Word} {o : State} {s : State} (h_o : Kept kb kl bl ko o) (h_s : Kept kb kl bl ko s) (h_p_regs : Part.regs ∈ kl := by assumption) (h_p_shadow : Part.shadow ∈ kl := by assumption) (h_p_free : Part.free ∈ kl := by assumption) (h_p_cfg : Part.cfg ∈ kl := by assumption) (h_p_cel : Part.cel ∈ kl := by assumption) (h_p_sch : Part.sch ∈ kl := by assumption) (h_p_gcl : Part.gcl ∈ kl := by assumption) (h_p_kln : Part.kln ∈ kl := by assumption) (h_p_act : Part.act ∈ kl := by assumption) (h_p_ube : Part.ube ∈ kl := by assumption) (h_p_chp : Part.chp ∈ kl := by assumption) (h_p_dsf : Part.dsf ∈ kl := by assumption) (h_p_ohs : Part.ohs ∈ kl := by assumption) (h_p_pipes : Part.pipes ∈ kl := by assumption) (h_p_cls : Part.cls ∈ kl := by assumption) (h_p_spc : Part.spc ∈ kl := by assumption) (h_p_lph : Part.lph ∈ kl := by assumption) (h_p_tim : Part.tim ∈ kl := by assumption) (h_b_CFG : blkCFG ∈ bl := by assumption) (h_b_LPH : blkLPH ∈ bl := by assumption) (h_b_DSF : blkDSF ∈ bl := by assumption) (h_b_ACT : blkACT ∈ bl := by assumption) (h_b_UBE : blkUBE ∈ bl := by assumption) (h_b_CHP : blkCHP ∈ bl := by assumption) (h_b_CLS : blkCLS ∈ bl := by assumption) (h_b_SPC : blkSPC ∈ bl := by assumption) (h_b_CEL : blkCEL ∈ bl := by assumption) (h_b_GCL : blkGCL ∈ bl := by assumption) (h_b_KLN : blkKLN ∈ bl := by assumption) (h_b_TIM : blkTIM ∈ bl := by assumption) :
    Kept kb kl bl ko (lphWrite a v o s) := by
  unfold lphWrite
  with_reducible repeat' first
    | assumption
    | (intro sx; refine (have hsx : Kept kb kl bl ko sx := ?_; ?_); on_goal 2 => (try clear_value sx))
    | (intro sx; try clear_value sx)
    | lift_lets
    | apply kept_laserGo
    | apply kept_calRequest
    | apply kept_portSelect
    | apply kept_chCtlWritten
    | apply kept_ite
    | refine Kept.of_mk ?_
    | split

theorem kept_macAdd {p : Nat} {n : Nat} {x : Nat} {s : State} (h_s : Kept kb kl bl ko s) (h_p_regs : Part.regs ∈ kl := by assumption) (h_b_MAC : blkMAC ∈ bl := by assumption) :
    Kept kb kl bl ko (macAdd p n x s) := by
  unfold macAdd
  with_reducible repeat' first
    | assumption
    | (refine mem_guard ?_; with_unfolding_all (first | assumption | exact (by assumption : ∀ n, n ∈ bl) _ | exact blk_n (by decide) (by decide) (by assumption) | exact blk_un (by decide) (by decide) (by decide) (by assumption)))
    | apply kept_st_addTo
    | refine Kept.of_mk ?_

theorem kept_macInc {p : Nat} {n : Nat} {s : State} (h_s : Kept kb kl bl ko s) (h_p_regs : Part.regs ∈ kl := by assumption) (h_b_MAC : blkMAC ∈ bl := by assumption) :
    Kept kb kl bl ko (macInc p n s) := by
  unfold macInc
  with_reducible repeat' first
    | assumption
    | apply kept_macAdd
    | refine Kept.of_mk ?_

theorem kept_verifyStart {p : Nat} {s : State} (h_s : Kept kb kl bl ko s) (h_p_regs : Part.regs ∈ kl := by assumption) (h_p_mac : Part.mac ∈ kl := by assumption) (h_b_MAC : blkMAC ∈ bl := by assumption) :
    Kept kb kl bl ko (verifyStart p s) := by
  unfold verifyStart
  with_reducible repeat' first
    | assumption
    | (refine mem_guard ?_; with_unfolding_all (first | assumption | exact (by assumption : ∀ n, n ∈ bl) _ | exact blk_n (by decide) (by decide) (by assumption) | exact blk_un (by decide) (by decide) (by decide) (by assumption) | exact blk_ite (by assumption) (by assumption) | exact blk_ite (by exact blk_n (by decide) (by decide) (by assumption)) (by exact blk_n (by decide) (by decide) (by assumption))))
    | (intro sx; refine (have hsx : Kept kb kl bl ko sx := ?_; ?_); on_goal 2 => (try clear_value sx))
    | (intro sx; try clear_value sx)
    | lift_lets
    | apply kept_st_setMacPort
    | apply kept_st_wr
    | apply kept_ite
    | refine Kept.of_mk ?_
    | split

theorem kept_macLink {p : Nat} {s : State} (h_s : Kept kb kl bl ko s) (h_p_regs : Part.regs ∈ kl := by assumption) (h_p_mac : Part.mac ∈ kl := by assumption) (h_b_MAC : blkMAC ∈ bl := by assumption) :
    Kept kb kl bl ko (macLink p s) := by
  unfold macLink
  with_reducible repeat' first
    | assumption
    | (refine mem_guard ?_; with_unfolding_all (first | assumption | exact (by assumption : ∀ n, n ∈ bl) _ | exact blk_n (by decide) (by decide) (by assumption) | exact blk_un (by decide) (by decide) (by decide) (by assumption) | exact blk_ite (by assumption) (by assumption) | exact blk_ite (by exact blk_n (by decide) (by decide) (by assumption)) (by exact blk_n (by decide) (by decide) (by assumption))))
    | (intro sx; refine (have hsx : Kept kb kl bl ko sx := ?_; ?_); on_goal 2 => (try clear_value sx))
    | (intro sx; try clear_value sx)
    | lift_lets
    | apply kept_verifyStart
    | apply kept_st_put
    | apply kept_ite
    | refine Kept.of_mk ?_
    | split

theorem kept_linkChange {p : Nat} {r : PcsReading} {s : State} (h_s : Kept kb kl bl ko s) (h_p_regs : Part.regs ∈ kl := by assumption) (h_p_mac : Part.mac ∈ kl := by assumption) (h_b_MAC : blkMAC ∈ bl := by assumption) :
    Kept kb kl bl ko (linkChange p r s) := by
  unfold linkChange
  with_reducible repeat' first
    | assumption
    | (refine mem_guard ?_; with_unfolding_all (first | assumption | exact (by assumption : ∀ n, n ∈ bl) _ | exact blk_n (by decide) (by decide) (by assumption) | exact blk_un (by decide) (by decide) (by decide) (by assumption) | exact blk_ite (by assumption) (by assumption) | exact blk_ite (by exact blk_n (by decide) (by decide) (by assumption)) (by exact blk_n (by decide) (by decide) (by assumption))))
    | (intro sx; refine (have hsx : Kept kb kl bl ko sx := ?_; ?_); on_goal 2 => (try clear_value sx))
    | (intro sx; try clear_value sx)
    | lift_lets
    | apply kept_macLink
    | apply kept_st_put
    | apply kept_st_setMacPort
    | apply kept_st_wr
    | apply kept_ite
    | refine Kept.of_mk ?_
    | split

theorem kept_phyDown {P : Nat} {s : State} (h_s : Kept kb kl bl ko s) (h_p_regs : Part.regs ∈ kl := by assumption) (h_p_sch : Part.sch ∈ kl := by assumption) (h_p_mac : Part.mac ∈ kl := by assumption) (h_b_MAC : blkMAC ∈ bl := by assumption) :
    Kept kb kl bl ko (phyDown P s) := by
  unfold phyDown
  with_reducible repeat' first
    | assumption
    | (refine mem_guard ?_; with_unfolding_all (first | assumption | exact (by assumption : ∀ n, n ∈ bl) _ | exact blk_n (by decide) (by decide) (by assumption) | exact blk_un (by decide) (by decide) (by decide) (by assumption)))
    | (intro sx; refine (have hsx : Kept kb kl bl ko sx := ?_; ?_); on_goal 2 => (try clear_value sx))
    | (intro sx; try clear_value sx)
    | lift_lets
    | apply kept_macLink
    | apply kept_st_put
    | apply kept_st_setMacPort
    | apply kept_st_wr
    | apply kept_st_setToMac
    | (apply kept_foldl; intro sy xy hy)
    | (apply kept_foldl2; intro sy xy hy)
    | (apply kept_foldl1; intro sy xy hy)
    | refine Kept.of_mk ?_

theorem kept_clientLight {P : Nat} {low : Bool} {s : State} (h_s : Kept kb kl bl ko s) (h_p_regs : Part.regs ∈ kl := by assumption) (h_p_flt : Part.flt ∈ kl := by assumption) (h_b_FLT : blkFLT ∈ bl := by assumption) (h_b_MAC : blkMAC ∈ bl := by assumption) :
    Kept kb kl bl ko (clientLight P low s) := by
  unfold clientLight
  with_reducible repeat' first
    | assumption
    | (refine mem_guard ?_; with_unfolding_all (first | assumption | exact (by assumption : ∀ n, n ∈ bl) _ | exact blk_n (by decide) (by decide) (by assumption) | exact blk_un (by decide) (by decide) (by decide) (by assumption) | exact blk_ite (by assumption) (by assumption) | exact blk_ite (by exact blk_n (by decide) (by decide) (by assumption)) (by exact blk_n (by decide) (by decide) (by assumption))))
    | (intro sx; refine (have hsx : Kept kb kl bl ko sx := ?_; ?_); on_goal 2 => (try clear_value sx))
    | (intro sx; try clear_value sx)
    | lift_lets
    | apply kept_fltEvent
    | apply kept_st_put
    | apply kept_ite
    | refine Kept.of_mk ?_
    | split

theorem kept_macSafe {s : State} (h_s : Kept kb kl bl ko s) (h_p_sch : Part.sch ∈ kl := by assumption) (h_p_mac : Part.mac ∈ kl := by assumption) :
    Kept kb kl bl ko (macSafe s) := by
  unfold macSafe
  with_reducible repeat' first
    | assumption
    | apply kept_st_setMacPort
    | apply kept_st_setToMac
    | (apply kept_foldl; intro sy xy hy)
    | (apply kept_foldl2; intro sy xy hy)
    | (apply kept_foldl1; intro sy xy hy)
    | refine Kept.of_mk ?_

theorem kept_pfcReceive {p : Nat} {l : Bytes} {s : State} (h_s : Kept kb kl bl ko s) (h_p_regs : Part.regs ∈ kl := by assumption) (h_p_mac : Part.mac ∈ kl := by assumption) (h_b_MAC : blkMAC ∈ bl := by assumption) :
    Kept kb kl bl ko (pfcReceive p l s) := by
  unfold pfcReceive
  with_reducible repeat' first
    | assumption
    | (refine mem_guard ?_; with_unfolding_all (first | assumption | exact (by assumption : ∀ n, n ∈ bl) _ | exact blk_n (by decide) (by decide) (by assumption) | exact blk_un (by decide) (by decide) (by decide) (by assumption) | exact blk_ite (by assumption) (by assumption) | exact blk_ite (by exact blk_n (by decide) (by decide) (by assumption)) (by exact blk_n (by decide) (by decide) (by assumption))))
    | (intro sx; refine (have hsx : Kept kb kl bl ko sx := ?_; ?_); on_goal 2 => (try clear_value sx))
    | (intro sx; try clear_value sx)
    | lift_lets
    | apply kept_st_setMacPort
    | apply kept_st_wr
    | apply kept_ite
    | refine Kept.of_mk ?_
    | split

theorem kept_pauseEnds {p : Nat} {t : Nat} {s : State} (h_s : Kept kb kl bl ko s) (h_p_regs : Part.regs ∈ kl := by assumption) (h_p_mac : Part.mac ∈ kl := by assumption) (h_b_MAC : blkMAC ∈ bl := by assumption) :
    Kept kb kl bl ko (pauseEnds p t s) := by
  unfold pauseEnds
  with_reducible repeat' first
    | assumption
    | (refine mem_guard ?_; with_unfolding_all (first | assumption | exact (by assumption : ∀ n, n ∈ bl) _ | exact blk_n (by decide) (by decide) (by assumption) | exact blk_un (by decide) (by decide) (by decide) (by assumption) | exact blk_ite (by assumption) (by assumption) | exact blk_ite (by exact blk_n (by decide) (by decide) (by assumption)) (by exact blk_n (by decide) (by decide) (by assumption))))
    | (intro sx; refine (have hsx : Kept kb kl bl ko sx := ?_; ?_); on_goal 2 => (try clear_value sx))
    | (intro sx; try clear_value sx)
    | lift_lets
    | apply kept_st_clrBit
    | apply kept_st_setMacPort
    | apply kept_ite
    | refine Kept.of_mk ?_
    | split

theorem kept_secReceive {p : Nat} {l : Bytes} {s : State} (h_s : Kept kb kl bl ko s) (h_p_regs : Part.regs ∈ kl := by assumption) (h_p_free : Part.free ∈ kl := by assumption) (h_p_kln : Part.kln ∈ kl := by assumption) (h_b_CIP : blkCIP ∈ bl := by assumption) (h_b_KLN : blkKLN ∈ bl := by assumption) (h_b_MAC : blkMAC ∈ bl := by assumption) :
    Kept kb kl bl ko (secReceive p l s).2 := by
  unfold secReceive
  with_reducible repeat' first
    | assumption
    | (refine kept_pair2 (by assumption) ?_)
    | (intro sx; refine (have hsx : Kept kb kl bl ko sx := ?_; ?_); on_goal 2 => (try clear_value sx))
    | (intro sx; refine (have hsx : Kept kb kl bl ko sx.2 := ?_; ?_); on_goal 2 => (try clear_value sx))
    | (intro sx; try clear_value sx)
    | lift_lets
    | apply kept_macInc
    | apply kept_saDecrypt
    | apply kept_draw
    | apply kept_ite
    | apply kept_ite1
    | apply kept_ite2
    | apply kept_ite21
    | apply kept_ite22
    | split
    | dsimp only [sx]
    | refine Kept.of_mk ?_

theorem kept_macReceive {p : Nat} {l : Bytes} {err : Bool} {frags : Nat} {assy : Bool} {s : State} (h_s : Kept kb kl bl ko s) (h_p_regs : Part.regs ∈ kl := by assumption) (h_p_free : Part.free ∈ kl := by assumption) (h_p_kln : Part.kln ∈ kl := by assumption) (h_p_pipes : Part.pipes ∈ kl := by assumption) (h_p_mac : Part.mac ∈ kl := by assumption) (h_b_CLS : blkCLS ∈ bl := by assumption) (h_b_CIP : blkCIP ∈ bl := by assumption) (h_b_KLN : blkKLN ∈ bl := by assumption) (h_b_MAC : blkMAC ∈ bl := by assumption) :
    Kept kb kl bl ko (macReceive p l err frags assy s) := by
  unfold macReceive
  with_reducible repeat' first
    | assumption
    | (refine kept_pair2 (by assumption) ?_)
    | (intro sx; refine (have hsx : Kept kb kl bl ko sx := ?_; ?_); on_goal 2 => (try clear_value sx))
    | (intro sx; refine (have hsx : Kept kb kl bl ko sx.2 := ?_; ?_); on_goal 2 => (try clear_value sx))
    | (intro sx; try clear_value sx)
    | lift_lets
    | apply kept_secReceive
    | apply kept_macInc
    | apply kept_macAdd
    | apply kept_enterPipe
    | apply kept_pfcReceive
    | apply kept_ite
    | apply kept_ite2
    | split
    | dsimp only [sx]
    | refine Kept.of_mk ?_

theorem kept_macArrive {p : Nat} {l : Bytes} {err : Bool} {frags : Nat} {assy : Bool} {s : State} (h_s : Kept kb kl bl ko s) (h_p_regs : Part.regs ∈ kl := by assumption) (h_p_free : Part.free ∈ kl := by assumption) (h_p_kln : Part.kln ∈ kl := by assumption) (h_p_pipes : Part.pipes ∈ kl := by assumption) (h_p_mac : Part.mac ∈ kl := by assumption) (h_b_CLS : blkCLS ∈ bl := by assumption) (h_b_CIP : blkCIP ∈ bl := by assumption) (h_b_KLN : blkKLN ∈ bl := by assumption) (h_b_MAC : blkMAC ∈ bl := by assumption) :
    Kept kb kl bl ko (macArrive p l err frags assy s) := by
  unfold macArrive
  with_reducible repeat' first
    | assumption
    | (intro sx; refine (have hsx : Kept kb kl bl ko sx := ?_; ?_); on_goal 2 => (try clear_value sx))
    | (intro sx; try clear_value sx)
    | lift_lets
    | apply kept_st_setMacPort
    | apply kept_macReceive
    | apply kept_ite
    | refine Kept.of_mk ?_
    | split

theorem kept_pfcQueue {p : Nat} {l : List (Nat × Nat)} {s : State} (h_s : Kept kb kl bl ko s) (h_p_mac : Part.mac ∈ kl := by assumption) :
    Kept kb kl bl ko (pfcQueue p l s) := by
  unfold pfcQueue
  with_reducible repeat' first
    | assumption
    | apply kept_st_setMacPort
    | apply kept_ite
    | refine Kept.of_mk ?_
    | split

theorem kept_pfcChange {p : Nat} {s : State} (h_s : Kept kb kl bl ko s) (h_p_regs : Part.regs ∈ kl := by assumption) (h_p_mac : Part.mac ∈ kl := by assumption) (h_b_MAC : blkMAC ∈ bl := by assumption) :
    Kept kb kl bl ko (pfcChange p s) := by
  unfold pfcChange
  with_reducible repeat' first
    | assumption
    | (refine mem_guard ?_; with_unfolding_all (first | assumption | exact (by assumption : ∀ n, n ∈ bl) _ | exact blk_n (by decide) (by decide) (by assumption) | exact blk_un (by decide) (by decide) (by decide) (by assumption) | exact blk_ite (by assumption) (by assumption) | exact blk_ite (by exact blk_n (by decide) (by decide) (by assumption)) (by exact blk_n (by decide) (by decide) (by assumption))))
    | (intro sx; refine (have hsx : Kept kb kl bl ko sx := ?_; ?_); on_goal 2 => (try clear_value sx))
    | (intro sx; try clear_value sx)
    | lift_lets
    | apply kept_st_wr
    | apply kept_pfcQueue
    | apply kept_ite
    | refine Kept.of_mk ?_
    | split

theorem kept_pfcRefresh {p : Nat} {s : State} (h_s : Kept kb kl bl ko s) (h_p_mac : Part.mac ∈ kl := by assumption) :
    Kept kb kl bl ko (pfcRefresh p s) := by
  unfold pfcRefresh
  with_reducible repeat' first
    | assumption
    | apply kept_pfcQueue
    | apply kept_ite
    | refine Kept.of_mk ?_
    | split

theorem kept_verifyOwn {p : Nat} {resp : Bool} {s : State} (h_s : Kept kb kl bl ko s) (h_p_regs : Part.regs ∈ kl := by assumption) (h_p_mac : Part.mac ∈ kl := by assumption) (h_b_MAC : blkMAC ∈ bl := by assumption) :
    Kept kb kl bl ko (verifyOwn p resp s) := by
  unfold verifyOwn
  with_reducible repeat' first
    | assumption
    | (refine mem_guard ?_; with_unfolding_all (first | assumption | exact (by assumption : ∀ n, n ∈ bl) _ | exact blk_n (by decide) (by decide) (by assumption) | exact blk_un (by decide) (by decide) (by decide) (by assumption) | exact blk_ite (by assumption) (by assumption) | exact blk_ite (by exact blk_n (by decide) (by decide) (by assumption)) (by exact blk_n (by decide) (by decide) (by assumption))))
    | (intro sx; refine (have hsx : Kept kb kl bl ko sx := ?_; ?_); on_goal 2 => (try clear_value sx))
    | (intro sx; try clear_value sx)
    | lift_lets
    | apply kept_st_setMacPort
    | apply kept_st_wr
    | apply kept_ite
    | refine Kept.of_mk ?_
    | split

theorem kept_verifyAttempt {p : Nat} {resp : Bool} {peer : Bool} {s : State} (h_s : Kept kb kl bl ko s) (h_p_regs : Part.regs ∈ kl := by assumption) (h_p_mac : Part.mac ∈ kl := by assumption) (h_b_MAC : blkMAC ∈ bl := by assumption) :
    Kept kb kl bl ko (verifyAttempt p resp peer s) := by
  unfold verifyAttempt
  with_reducible repeat' first
    | assumption
    | (intro sx; refine (have hsx : Kept kb kl bl ko sx := ?_; ?_); on_goal 2 => (try clear_value sx))
    | (intro sx; try clear_value sx)
    | lift_lets
    | apply kept_verifyOwn
    | apply kept_st_setMacPort
    | apply kept_ite
    | refine Kept.of_mk ?_
    | split

theorem kept_secTransmit {p : Nat} {l : Bytes} {s : State} (h_s : Kept kb kl bl ko s) (h_p_regs : Part.regs ∈ kl := by assumption) (h_p_kln : Part.kln ∈ kl := by assumption) (h_b_CIP : blkCIP ∈ bl := by assumption) (h_b_KLN : blkKLN ∈ bl := by assumption) :
    Kept kb kl bl ko (secTransmit p l s).2 := by
  unfold secTransmit
  with_reducible repeat' first
    | assumption
    | (intro sx; refine (have hsx : Kept kb kl bl ko sx := ?_; ?_); on_goal 2 => (try clear_value sx))
    | (intro sx; refine (have hsx : Kept kb kl bl ko sx.2 := ?_; ?_); on_goal 2 => (try clear_value sx))
    | intro sx
    | lift_lets
    | apply kept_saEncrypt
    | apply kept_ite
    | apply kept_ite1
    | apply kept_ite2
    | apply kept_ite21
    | apply kept_ite22
    | refine Kept.of_mk ?_
    | split

theorem kept_frameOut {p : Nat} {l : Bytes} {s : State} (h_s : Kept kb kl bl ko s) (h_p_regs : Part.regs ∈ kl := by assumption) (h_p_free : Part.free ∈ kl := by assumption) (h_p_kln : Part.kln ∈ kl := by assumption) (h_p_pipes : Part.pipes ∈ kl := by assumption) (h_p_mac : Part.mac ∈ kl := by assumption) (h_b_CLS : blkCLS ∈ bl := by assumption) (h_b_CIP : blkCIP ∈ bl := by assumption) (h_b_KLN : blkKLN ∈ bl := by assumption) (h_b_MAC : blkMAC ∈ bl := by assumption) :
    Kept kb kl bl ko (frameOut p l s) := by
  unfold frameOut
  with_reducible repeat' first
    | assumption
    | (intro sx; refine (have hsx : Kept kb kl bl ko sx := ?_; ?_); on_goal 2 => (try clear_value sx))
    | (intro sx; try clear_value sx)
    | lift_lets
    | apply kept_macInc
    | apply kept_st_setMacPort
    | apply kept_macAdd
    | apply kept_macReceive
    | apply kept_ite
    | refine Kept.of_mk ?_
    | split

theorem kept_sendPacket {p : Nat} {x : QPkt} {c : Checks} {s : State} (h_s : Kept kb kl bl ko s) (h_p_regs : Part.regs ∈ kl := by assumption) (h_p_free : Part.free ∈ kl := by assumption) (h_p_flt : Part.flt ∈ kl := by assumption) (h_p_kln : Part.kln ∈ kl := by assumption) (h_p_pipes : Part.pipes ∈ kl := by assumption) (h_p_mac : Part.mac ∈ kl := by assumption) (h_p_tim : Part.tim ∈ kl := by assumption) (h_b_FLT : blkFLT ∈ bl := by assumption) (h_b_CLS : blkCLS ∈ bl := by assumption) (h_b_CIP : blkCIP ∈ bl := by assumption) (h_b_KLN : blkKLN ∈ bl := by assumption) (h_b_MAC : blkMAC ∈ bl := by assumption) (h_b_TIM : blkTIM ∈ bl := by assumption) :
    Kept kb kl bl ko (sendPacket p x c s) := by
  unfold sendPacket
  with_reducible repeat' first
    | assumption
    | (refine kept_pair2 (by assumption) ?_)
    | (refine kept_pair22 (by assumption) ?_)
    | (intro sx; refine (have hsx : Kept kb kl bl ko sx := ?_; ?_); on_goal 2 => (try clear_value sx))
    | (intro sx; refine (have hsx : Kept kb kl bl ko sx.2 := ?_; ?_); on_goal 2 => (try clear_value sx))
    | (intro sx; refine (have hsx : Kept kb kl bl ko sx.2.2 := ?_; ?_); on_goal 2 => (try clear_value sx))
    | (intro sx; try clear_value sx)
    | lift_lets
    | apply kept_fltSourceEvent
    | apply kept_tsqPush
    | apply kept_secTransmit
    | apply kept_frameOut
    | apply kept_checkPacket
    | apply kept_ite
    | apply kept_ite2
    | apply kept_ite22
    | split
    | dsimp only [sx]
    | refine Kept.of_mk ?_

theorem kept_macSend {p : Nat} {e : Nat × QPkt} {c : Checks} {s : State} (h_s : Kept kb kl bl ko s) (h_p_regs : Part.regs ∈ kl := by assumption) (h_p_free : Part.free ∈ kl := by assumption) (h_p_flt : Part.flt ∈ kl := by assumption) (h_p_sch : Part.sch ∈ kl := by assumption) (h_p_kln : Part.kln ∈ kl := by assumption) (h_p_pipes : Part.pipes ∈ kl := by assumption) (h_p_mac : Part.mac ∈ kl := by assumption) (h_p_tim : Part.tim ∈ kl := by assumption) (h_b_FLT : blkFLT ∈ bl := by assumption) (h_b_CLS : blkCLS ∈ bl := by assumption) (h_b_CIP : blkCIP ∈ bl := by assumption) (h_b_KLN : blkKLN ∈ bl := by assumption) (h_b_MAC : blkMAC ∈ bl := by assumption) (h_b_TIM : blkTIM ∈ bl := by assumption) :
    Kept kb kl bl ko (macSend p e c s) := by
  unfold macSend
  with_reducible repeat' first
    | assumption
    | apply kept_sendPacket
    | apply kept_st_setToMac
    | apply kept_ite
    | refine Kept.of_mk ?_
    | split

theorem kept_preempt {p : Nat} {s : State} (h_s : Kept kb kl bl ko s) (h_p_regs : Part.regs ∈ kl := by assumption) (h_p_mac : Part.mac ∈ kl := by assumption) (h_b_GCL : blkGCL ∈ bl := by assumption) (h_b_MAC : blkMAC ∈ bl := by assumption) : Kept kb kl bl ko (preempt p s) := by
  unfold preempt
  dsimp only
  split
  · refine kept_ite h_s (kept_ite (kept_st_setMacPort h_s) (kept_ite (kept_st_inc (kept_macInc (kept_st_setMacPort h_s))) h_s))
  · exact h_s

theorem kept_preResume {p : Nat} {s : State} (h_s : Kept kb kl bl ko s) (h_p_mac : Part.mac ∈ kl := by assumption) :
    Kept kb kl bl ko (preResume p s) := by
  unfold preResume
  with_reducible repeat' first
    | assumption
    | (intro sx; refine (have hsx : Kept kb kl bl ko sx := ?_; ?_); on_goal 2 => (try clear_value sx))
    | (intro sx; try clear_value sx)
    | lift_lets
    | apply kept_st_setMacPort
    | apply kept_ite
    | split
    | dsimp only [sx]
    | refine Kept.of_mk ?_

theorem kept_preFollow {p : Nat} {s : State} (h_s : Kept kb kl bl ko s) (h_p_regs : Part.regs ∈ kl := by assumption) (h_p_mac : Part.mac ∈ kl := by assumption) (h_b_GCL : blkGCL ∈ bl := by assumption) (h_b_MAC : blkMAC ∈ bl := by assumption) :
    Kept kb kl bl ko (preFollow p s) := by
  unfold preFollow
  with_reducible repeat' first
    | assumption
    | apply kept_preempt
    | apply kept_preResume
    | apply kept_ite
    | refine Kept.of_mk ?_
    | split

theorem kept_preFinish {p : Nat} {e : Nat × QPkt} {c : Checks} {s : State} (h_s : Kept kb kl bl ko s) (h_p_regs : Part.regs ∈ kl := by assumption) (h_p_free : Part.free ∈ kl := by assumption) (h_p_flt : Part.flt ∈ kl := by assumption) (h_p_sch : Part.sch ∈ kl := by assumption) (h_p_kln : Part.kln ∈ kl := by assumption) (h_p_pipes : Part.pipes ∈ kl := by assumption) (h_p_mac : Part.mac ∈ kl := by assumption) (h_p_tim : Part.tim ∈ kl := by assumption) (h_b_FLT : blkFLT ∈ bl := by assumption) (h_b_CLS : blkCLS ∈ bl := by assumption) (h_b_CIP : blkCIP ∈ bl := by assumption) (h_b_KLN : blkKLN ∈ bl := by assumption) (h_b_MAC : blkMAC ∈ bl := by assumption) (h_b_TIM : blkTIM ∈ bl := by assumption) :
    Kept kb kl bl ko (preFinish p e c s) := by
  unfold preFinish
  with_reducible repeat' first
    | assumption
    | apply kept_st_setMacPort
    | apply kept_macSend
    | apply kept_ite
    | refine Kept.of_mk ?_
    | split

theorem kept_pfcSend {p : Nat} {f : List (Nat × Nat)} {rest : List (List (Nat × Nat))} {s : State} (h_s : Kept kb kl bl ko s) (h_p_regs : Part.regs ∈ kl := by assumption) (h_p_free : Part.free ∈ kl := by assumption) (h_p_flt : Part.flt ∈ kl := by assumption) (h_p_sch : Part.sch ∈ kl := by assumption) (h_p_kln : Part.kln ∈ kl := by assumption) (h_p_pipes : Part.pipes ∈ kl := by assumption) (h_p_mac : Part.mac ∈ kl := by assumption) (h_p_tim : Part.tim ∈ kl := by assumption) (h_b_FLT : blkFLT ∈ bl := by assumption) (h_b_CLS : blkCLS ∈ bl := by assumption) (h_b_GCL : blkGCL ∈ bl := by assumption) (h_b_CIP : blkCIP ∈ bl := by assumption) (h_b_KLN : blkKLN ∈ bl := by assumption) (h_b_MAC : blkMAC ∈ bl := by assumption) (h_b_TIM : blkTIM ∈ bl := by assumption) :
    Kept kb kl bl ko (macTransmit.pfcSend p f rest s) := by
  unfold macTransmit.pfcSend
  exact kept_macInc (kept_frameOut (kept_st_setMacPort (kept_draw h_s)))

theorem kept_macTransmit {p : Nat} {c : Checks} {s : State} (h_s : Kept kb kl bl ko s) (h_p_regs : Part.regs ∈ kl := by assumption) (h_p_free : Part.free ∈ kl := by assumption) (h_p_flt : Part.flt ∈ kl := by assumption) (h_p_sch : Part.sch ∈ kl := by assumption) (h_p_kln : Part.kln ∈ kl := by assumption) (h_p_pipes : Part.pipes ∈ kl := by assumption) (h_p_mac : Part.mac ∈ kl := by assumption) (h_p_tim : Part.tim ∈ kl := by assumption) (h_b_FLT : blkFLT ∈ bl := by assumption) (h_b_CLS : blkCLS ∈ bl := by assumption) (h_b_GCL : blkGCL ∈ bl := by assumption) (h_b_CIP : blkCIP ∈ bl := by assumption) (h_b_KLN : blkKLN ∈ bl := by assumption) (h_b_MAC : blkMAC ∈ bl := by assumption) (h_b_TIM : blkTIM ∈ bl := by assumption) : Kept kb kl bl ko (macTransmit p c s) := by
  have h1 : Kept kb kl bl ko (if preHeld s p = true then preempt p s else s) := kept_ite (kept_preempt h_s) h_s
  unfold macTransmit
  dsimp only
  generalize (if preHeld s p = true then preempt p s else s) = t at *
  refine kept_ite h_s (kept_ite (kept_ite ?_ h_s) ?_)
  · split
    · exact h_s
    · exact kept_macInc (kept_st_setMacPort (kept_st_setToMac h_s))
  · split
    · split
      · exact kept_ite (kept_preFinish h1) (kept_pfcSend h1)
      · exact kept_pfcSend h1
    · have h2 := kept_preempt (p := p) h1
      split
      · exact kept_ite (kept_preFinish h2) (kept_preResume (kept_macSend h2))
      · exact kept_macSend h2
    · exact kept_ite h1 (kept_preFinish h1)
    · exact h1

theorem kept_guardBand {p : Nat} {pre : Bool} {s : State} (h_s : Kept kb kl bl ko s) (h_p_regs : Part.regs ∈ kl := by assumption) (h_p_gcl : Part.gcl ∈ kl := by assumption) (h_b_GCL : blkGCL ∈ bl := by assumption) :
    Kept kb kl bl ko (guardBand p pre s) := by
  unfold guardBand
  with_reducible repeat' first
    | assumption
    | (refine mem_guard ?_; with_unfolding_all (first | assumption | exact (by assumption : ∀ n, n ∈ bl) _ | exact blk_n (by decide) (by decide) (by assumption) | exact blk_un (by decide) (by decide) (by decide) (by assumption) | exact blk_ite (by assumption) (by assumption) | exact blk_ite (by exact blk_n (by decide) (by decide) (by assumption)) (by exact blk_n (by decide) (by decide) (by assumption))))
    | (intro sx; refine (have hsx : Kept kb kl bl ko sx := ?_; ?_); on_goal 2 => (try clear_value sx))
    | (intro sx; try clear_value sx)
    | lift_lets
    | apply kept_st_setGclPort
    | apply kept_st_inc
    | apply kept_ite
    | (apply kept_foldl; intro sy xy hy)
    | (apply kept_foldl2; intro sy xy hy)
    | (apply kept_foldl1; intro sy xy hy)
    | split
    | dsimp only [sx]
    | refine Kept.of_mk ?_

theorem kept_takeSelected {p : Nat} {n : Nat} {key : Nat} {s : State} (h_s : Kept kb kl bl ko s) (h_p_regs : Part.regs ∈ kl := by assumption) (h_p_free : Part.free ∈ kl := by assumption) (h_p_flt : Part.flt ∈ kl := by assumption) (h_p_cel : Part.cel ∈ kl := by assumption) (h_p_sch : Part.sch ∈ kl := by assumption) (h_p_mac : Part.mac ∈ kl := by assumption) (h_b_FLT : blkFLT ∈ bl := by assumption) (h_b_CEL : blkCEL ∈ bl := by assumption) :
    Kept kb kl bl ko (takeSelected p n key s) := by
  unfold takeSelected
  with_reducible repeat' first
    | assumption
    | (intro sx; refine (have hsx : Kept kb kl bl ko sx := ?_; ?_); on_goal 2 => (try clear_value sx))
    | (intro sx; try clear_value sx)
    | split
    | lift_lets
    | apply kept_fltSourceEvent
    | apply kept_chargeNow
    | apply kept_leafTouch
    | apply kept_freeCells
    | apply kept_st_setMacPort
    | apply kept_advanceTags
    | apply kept_popHead
    | apply kept_st_setToMac
    | apply kept_ite
    | dsimp only [sx]
    | refine Kept.of_mk ?_

theorem kept_selectKind {p : Nat} {pre : Bool} {s : State} (h_s : Kept kb kl bl ko s) (h_p_regs : Part.regs ∈ kl := by assumption) (h_p_free : Part.free ∈ kl := by assumption) (h_p_flt : Part.flt ∈ kl := by assumption) (h_p_cel : Part.cel ∈ kl := by assumption) (h_p_sch : Part.sch ∈ kl := by assumption) (h_p_gcl : Part.gcl ∈ kl := by assumption) (h_p_mac : Part.mac ∈ kl := by assumption) (h_b_FLT : blkFLT ∈ bl := by assumption) (h_b_CEL : blkCEL ∈ bl := by assumption) (h_b_GCL : blkGCL ∈ bl := by assumption) :
    KeptO kb kl bl ko id (selectKind p pre s) := by
  unfold selectKind
  with_reducible repeat' first
    | assumption
    | (intro sx; refine (have hsx : Kept kb kl bl ko sx := ?_; ?_); on_goal 2 => (try clear_value sx))
    | (intro sx; try clear_value sx)
    | lift_lets
    | apply kept_guardBand
    | apply kept_takeSelected
    | apply kept_ite
    | split
    | dsimp only [sx]
    | refine Kept.of_mk ?_
    | apply kept_none
    | apply kept_some
    | apply kept_some2
    | apply kept_oite
    | (apply kept_omap; intro xo)

theorem kept_scheduleSelect {p : Nat} {s : State} (h_s : Kept kb kl bl ko s) (h_p_regs : Part.regs ∈ kl := by assumption) (h_p_free : Part.free ∈ kl := by assumption) (h_p_flt : Part.flt ∈ kl := by assumption) (h_p_cel : Part.cel ∈ kl := by assumption) (h_p_sch : Part.sch ∈ kl := by assumption) (h_p_gcl : Part.gcl ∈ kl := by assumption) (h_p_mac : Part.mac ∈ kl := by assumption) (h_b_FLT : blkFLT ∈ bl := by assumption) (h_b_CEL : blkCEL ∈ bl := by assumption) (h_b_GCL : blkGCL ∈ bl := by assumption) : Kept kb kl bl ko (scheduleSelect p s) := by
  have hk : ∀ {t : State} {pre : Bool}, Kept kb kl bl ko t → Kept kb kl bl ko ((selectKind p pre t).getD t) := by
    intro t pre ht
    have := (kept_selectKind ht : KeptO kb kl bl ko id (selectKind p pre t))
    cases e : selectKind p pre t with
    | none => exact ht
    | some u => exact this u e
  unfold scheduleSelect
  dsimp only
  exact kept_ite h_s (kept_ite (hk h_s) (hk (hk h_s)))

theorem kept_macWrite {a : Nat} {v : Word} {o : State} {s : State} (h_o : Kept kb kl bl ko o) (h_s : Kept kb kl bl ko s) (h_p_regs : Part.regs ∈ kl := by assumption) (h_p_sch : Part.sch ∈ kl := by assumption) (h_p_mac : Part.mac ∈ kl := by assumption) (h_b_MAC : blkMAC ∈ bl := by assumption) :
    Kept kb kl bl ko (macWrite a v o s) := by
  unfold macWrite
  with_reducible repeat' first
    | assumption
    | (refine mem_guard ?_; with_unfolding_all (first | assumption | exact (by assumption : ∀ n, n ∈ bl) _ | exact blk_n (by decide) (by decide) (by assumption) | exact blk_un (by decide) (by decide) (by decide) (by assumption) | exact blk_ite (by assumption) (by assumption) | exact blk_ite (by exact blk_n (by decide) (by decide) (by assumption)) (by exact blk_n (by decide) (by decide) (by assumption))))
    | (intro sx; refine (have hsx : Kept kb kl bl ko sx := ?_; ?_); on_goal 2 => (try clear_value sx))
    | (intro sx; try clear_value sx)
    | lift_lets
    | apply kept_macLink
    | apply kept_verifyStart
    | apply kept_st_put
    | apply kept_phyDown
    | apply kept_st_wr
    | apply kept_ite
    | refine Kept.of_mk ?_
    | split

theorem kept_indDone {go : RF} {err : RF} {refused : Bool} {s : State} (h_s : Kept kb kl bl ko s) (h_p_regs : Part.regs ∈ kl := by assumption) (h_b0 : blkOf go.addr ∈ bl := by with_unfolding_all (first | assumption | exact (by assumption : ∀ n, n ∈ bl) _ | exact blk_n (by decide) (by decide) (by assumption) | exact blk_un (by decide) (by decide) (by decide) (by assumption))) (h_b1 : blkOf err.addr ∈ bl := by with_unfolding_all (first | assumption | exact (by assumption : ∀ n, n ∈ bl) _ | exact blk_n (by decide) (by decide) (by assumption) | exact blk_un (by decide) (by decide) (by decide) (by assumption))) :
    Kept kb kl bl ko (indDone go err refused s) := by
  unfold indDone
  with_reducible repeat' first
    | assumption
    | (refine mem_guard ?_; with_unfolding_all (first | assumption | exact (by assumption : ∀ n, n ∈ bl) _ | exact blk_n (by decide) (by decide) (by assumption) | exact blk_un (by decide) (by decide) (by decide) (by assumption) | exact blk_ite (by assumption) (by assumption) | exact blk_ite (by exact blk_n (by decide) (by decide) (by assumption)) (by exact blk_n (by decide) (by decide) (by assumption))))
    | (intro sx; refine (have hsx : Kept kb kl bl ko sx := ?_; ?_); on_goal 2 => (try clear_value sx))
    | (intro sx; try clear_value sx)
    | lift_lets
    | apply kept_st_put
    | apply kept_ite
    | refine Kept.of_mk ?_
    | split

theorem kept_showClsData {l : List Nat} {s : State} (h_s : Kept kb kl bl ko s) (h_p_regs : Part.regs ∈ kl := by assumption) (h_b_CLS : blkCLS ∈ bl := by assumption) :
    Kept kb kl bl ko (showClsData l s) := by
  unfold showClsData
  with_reducible repeat' first
    | assumption
    | (refine mem_guard ?_; with_unfolding_all (first | assumption | exact (by assumption : ∀ n, n ∈ bl) _ | exact blk_n (by decide) (by decide) (by assumption) | exact blk_un (by decide) (by decide) (by decide) (by assumption)))
    | apply kept_setReg
    | (apply kept_foldl; intro sy xy hy)
    | (apply kept_foldl2; intro sy xy hy)
    | (apply kept_foldl1; intro sy xy hy)
    | refine Kept.of_mk ?_

theorem kept_clsAccess {s : State} (h_s : Kept kb kl bl ko s) (h_p_regs : Part.regs ∈ kl := by assumption) (h_p_cls : Part.cls ∈ kl := by assumption) (h_b_CLS : blkCLS ∈ bl := by assumption) : KeptO kb kl bl ko id (clsAccess s) := by
  have hshow : ∀ l, KeptO kb kl bl ko id (some (showClsData l s)) := fun _ => kept_some (kept_showClsData h_s)
  unfold clsAccess
  dsimp only
  refine kept_oite ?_ ?_
  · split
    · exact hshow _
    · exact kept_oite (hshow _) kept_none
    · exact kept_oite (hshow _) kept_none
    · exact kept_none
  · split
    · exact kept_omap (fun _ => kept_st_setRule h_s)
    · exact kept_oite (kept_some (kept_st_setAlist h_s)) kept_none
    · exact kept_oite (kept_some (kept_foldl (fun _ _ h => kept_st_setMember h) h_s)) kept_none
    · exact kept_none

theorem kept_clsWrite {a : Nat} {v : Word} {o : State} {s : State} (h_o : Kept kb kl bl ko o) (h_s : Kept kb kl bl ko s) (h_p_regs : Part.regs ∈ kl := by assumption) (h_p_shadow : Part.shadow ∈ kl := by assumption) (h_p_cls : Part.cls ∈ kl := by assumption) (h_b_CLS : blkCLS ∈ bl := by assumption) :
    Kept kb kl bl ko (clsWrite a v o s) := by
  unfold clsWrite
  with_reducible repeat' first
    | assumption
    | (refine mem_guard ?_; with_unfolding_all (first | assumption | exact (by assumption : ∀ n, n ∈ bl) _ | exact blk_n (by decide) (by decide) (by assumption) | exact blk_un (by decide) (by decide) (by decide) (by assumption) | exact blk_ite (by assumption) (by assumption) | exact blk_ite (by exact blk_n (by decide) (by decide) (by assumption)) (by exact blk_n (by decide) (by decide) (by assumption))))
    | (refine kept_ouse (by assumption) ?_)
    | (intro sx; refine (have hsx : Kept kb kl bl ko sx := ?_; ?_); on_goal 2 => (try clear_value sx))
    | (intro sx; try clear_value sx)
    | lift_lets
    | apply kept_sweepNow
    | apply kept_setSh
    | apply kept_st_put
    | apply kept_indDone
    | apply kept_clsAccess
    | apply kept_st_wr
    | apply kept_ite
    | split
    | dsimp only [sx]
    | refine Kept.of_mk ?_

theorem kept_flwOperate {s : State} (h_s : Kept kb kl bl ko s) (h_p_regs : Part.regs ∈ kl := by assumption) (h_p_flw : Part.flw ∈ kl := by assumption) (h_b_FLW : blkFLW ∈ bl := by assumption) :
    Kept kb kl bl ko (flwOperate s) := by
  unfold flwOperate
  with_reducible repeat' first
    | assumption
    | (refine mem_guard ?_; with_unfolding_all (first | assumption | exact (by assumption : ∀ n, n ∈ bl) _ | exact blk_n (by decide) (by decide) (by assumption) | exact blk_un (by decide) (by decide) (by decide) (by assumption) | exact blk_ite (by assumption) (by assumption) | exact blk_ite (by exact blk_n (by decide) (by decide) (by assumption)) (by exact blk_n (by decide) (by decide) (by assumption))))
    | (intro sx; refine (have hsx : Kept kb kl bl ko sx := ?_; ?_); on_goal 2 => (try clear_value sx))
    | (intro sx; try clear_value sx)
    | lift_lets
    | apply kept_st_setFlowAt
    | apply kept_showFlow
    | apply kept_st_put
    | apply kept_flowDelete
    | apply kept_flwStatus
    | apply kept_st_wr
    | apply kept_ite
    | split
    | dsimp only [sx]
    | refine Kept.of_mk ?_

theorem kept_counterRead {s : State} (h_s : Kept kb kl bl ko s) (h_p_regs : Part.regs ∈ kl := by assumption) (h_p_mem : Part.mem ∈ kl := by assumption) (h_p_ecc : Part.ecc ∈ kl := by assumption) (h_p_free : Part.free ∈ kl := by assumption) (h_p_flt : Part.flt ∈ kl := by assumption) (h_p_flw : Part.flw ∈ kl := by assumption) (h_b_FLT : blkFLT ∈ bl := by assumption) (h_b_FLW : blkFLW ∈ bl := by assumption) :
    Kept kb kl bl ko (counterRead s) := by
  unfold counterRead
  with_reducible repeat' first
    | assumption
    | (refine mem_guard ?_; with_unfolding_all (first | assumption | exact (by assumption : ∀ n, n ∈ bl) _ | exact blk_n (by decide) (by decide) (by assumption) | exact blk_un (by decide) (by decide) (by decide) (by assumption) | exact blk_ite (by assumption) (by assumption) | exact blk_ite (by exact blk_n (by decide) (by decide) (by assumption)) (by exact blk_n (by decide) (by decide) (by assumption))))
    | (intro sx; refine (have hsx : Kept kb kl bl ko sx := ?_; ?_); on_goal 2 => (try clear_value sx))
    | (intro sx; refine (have hsx : Kept kb kl bl ko sx.2.2 := ?_; ?_); on_goal 2 => (try clear_value sx))
    | (intro sx; try clear_value sx)
    | lift_lets
    | apply kept_st_put
    | apply kept_zeroCounter
    | apply kept_counterValue
    | apply kept_setReg
    | apply kept_ite
    | apply kept_ite22
    | refine Kept.of_mk ?_
    | split

theorem kept_flwWrite {a : Nat} {v : Word} {o : State} {s : State} (h_o : Kept kb kl bl ko o) (h_s : Kept kb kl bl ko s) (h_p_regs : Part.regs ∈ kl := by assumption) (h_p_mem : Part.mem ∈ kl := by assumption) (h_p_ecc : Part.ecc ∈ kl := by assumption) (h_p_free : Part.free ∈ kl := by assumption) (h_p_flt : Part.flt ∈ kl := by assumption) (h_p_flw : Part.flw ∈ kl := by assumption) (h_b_FLT : blkFLT ∈ bl := by assumption) (h_b_FLW : blkFLW ∈ bl := by assumption) :
    Kept kb kl bl ko (flwWrite a v o s) := by
  unfold flwWrite
  with_reducible repeat' first
    | assumption
    | (refine mem_guard ?_; with_unfolding_all (first | assumption | exact (by assumption : ∀ n, n ∈ bl) _ | exact blk_n (by decide) (by decide) (by assumption) | exact blk_un (by decide) (by decide) (by decide) (by assumption) | exact blk_ite (by assumption) (by assumption) | exact blk_ite (by exact blk_n (by decide) (by decide) (by assumption)) (by exact blk_n (by decide) (by decide) (by assumption))))
    | apply kept_counterRead
    | apply kept_st_wr
    | apply kept_flwOperate
    | apply kept_ite
    | refine Kept.of_mk ?_
    | split

theorem kept_doomPieces {key : Nat} {s : State} (h_s : Kept kb kl bl ko s) (h_p_ube : Part.ube ∈ kl := by assumption) :
    Kept kb kl bl ko (doomPieces key s) := by
  unfold doomPieces
  with_reducible repeat' first
    | assumption
    | apply kept_ite
    | apply kept_ite1
    | apply kept_ite2
    | apply kept_ite21
    | apply kept_ite22
    | refine Kept.of_mk ?_
    | split

theorem kept_markFlushed {key : Nat} {s : State} (h_s : Kept kb kl bl ko s) (h_p_spc : Part.spc ∈ kl := by assumption) :
    Kept kb kl bl ko (markFlushed key s) := by
  unfold markFlushed
  with_reducible repeat' first
    | assumption
    | (intro sx; refine (have hsx : Kept kb kl bl ko sx := ?_; ?_); on_goal 2 => (try clear_value sx))
    | (intro sx; try clear_value sx)
    | lift_lets
    | apply kept_st_setSpcCh
    | apply kept_ite
    | (apply kept_foldl; intro sy xy hy)
    | (apply kept_foldl2; intro sy xy hy)
    | (apply kept_foldl1; intro sy xy hy)
    | refine Kept.of_mk ?_
    | split

theorem kept_flushKey {key : Nat} {s : State} (h_s : Kept kb kl bl ko s) (h_p_regs : Part.regs ∈ kl := by assumption) (h_p_cel : Part.cel ∈ kl := by assumption) (h_p_sch : Part.sch ∈ kl := by assumption) (h_p_ube : Part.ube ∈ kl := by assumption) (h_p_spc : Part.spc ∈ kl := by assumption) (h_b_CEL : blkCEL ∈ bl := by assumption) :
    Kept kb kl bl ko (flushKey key s).1 := by
  unfold flushKey
  with_reducible repeat' first
    | assumption
    | (intro sx; refine (have hsx : Kept kb kl bl ko sx := ?_; ?_); on_goal 2 => (try clear_value sx))
    | (intro sx; refine (have hsx : Kept kb kl bl ko sx.1 := ?_; ?_); on_goal 2 => (try clear_value sx))
    | (intro sx; try clear_value sx)
    | lift_lets
    | apply kept_leafTouch
    | apply kept_doomPieces
    | apply kept_flushLeaf
    | apply kept_markFlushed
    | refine Kept.of_mk ?_

theorem kept_discardQueues {s : State} (h_s : Kept kb kl bl ko s) (h_p_regs : Part.regs ∈ kl := by assumption) (h_p_cel : Part.cel ∈ kl := by assumption) (h_p_sch : Part.sch ∈ kl := by assumption) (h_p_ube : Part.ube ∈ kl := by assumption) (h_p_spc : Part.spc ∈ kl := by assumption) (h_b_CEL : blkCEL ∈ bl := by assumption) :
    Kept kb kl bl ko (discardQueues s) := by
  unfold discardQueues
  with_reducible repeat' first
    | assumption
    | (refine mem_guard ?_; with_unfolding_all (first | assumption | exact (by assumption : ∀ n, n ∈ bl) _ | exact blk_n (by decide) (by decide) (by assumption) | exact blk_un (by decide) (by decide) (by decide) (by assumption)))
    | (intro sx; refine (have hsx : Kept kb kl bl ko sx := ?_; ?_); on_goal 2 => (try clear_value sx))
    | (intro sx; refine (have hsx : Kept kb kl bl ko sx.2 := ?_; ?_); on_goal 2 => (try clear_value sx))
    | (intro sx; refine (have hsx : Kept kb kl bl ko sx.1 := ?_; ?_); on_goal 2 => (try clear_value sx))
    | (intro sx; try clear_value sx)
    | lift_lets
    | apply kept_flushKey
    | apply kept_st_addTo
    | (apply kept_foldl; intro sy xy hy)
    | (apply kept_foldl2; intro sy xy hy)
    | (apply kept_foldl1; intro sy xy hy)
    | refine Kept.of_mk ?_

theorem kept_showCel {d0 : Nat} {d1 : Nat} {s : State} (h_s : Kept kb kl bl ko s) (h_p_regs : Part.regs ∈ kl := by assumption) (h_b_CEL : blkCEL ∈ bl := by assumption) :
    Kept kb kl bl ko (showCel d0 d1 s) := by
  unfold showCel
  with_reducible repeat' first
    | assumption
    | (refine mem_guard ?_; with_unfolding_all (first | assumption | exact (by assumption : ∀ n, n ∈ bl) _ | exact blk_n (by decide) (by decide) (by assumption) | exact blk_un (by decide) (by decide) (by decide) (by assumption)))
    | apply kept_setReg
    | refine Kept.of_mk ?_

theorem kept_celAccess {s : State} (h_s : Kept kb kl bl ko s) (h_p_regs : Part.regs ∈ kl := by assumption) (h_p_cel : Part.cel ∈ kl := by assumption) (h_b_CEL : blkCEL ∈ bl := by assumption) :
    KeptO kb kl bl ko id (celAccess s) := by
  unfold celAccess
  with_reducible repeat' first
    | assumption
    | (intro sx; refine (have hsx : Kept kb kl bl ko sx := ?_; ?_); on_goal 2 => (try clear_value sx))
    | intro sx
    | lift_lets
    | apply kept_st_setProfile
    | apply kept_st_setLq
    | apply kept_showCel
    | apply kept_ite
    | split
    | dsimp only [sx]
    | refine Kept.of_mk ?_
    | apply kept_none
    | apply kept_some
    | apply kept_some2
    | apply kept_oite
    | (apply kept_omap; intro xo)

theorem kept_celWrite {a : Nat} {v : Word} {o : State} {s : State} (h_o : Kept kb kl bl ko o) (h_s : Kept kb kl bl ko s) (h_p_regs : Part.regs ∈ kl := by assumption) (h_p_cel : Part.cel ∈ kl := by assumption) (h_p_sch : Part.sch ∈ kl := by assumption) (h_p_ube : Part.ube ∈ kl := by assumption) (h_p_spc : Part.spc ∈ kl := by assumption) (h_b_CEL : blkCEL ∈ bl := by assumption) (h_b0 : blkOf a ∈ bl := by with_unfolding_all (first | assumption | exact (by assumption : ∀ n, n ∈ bl) _ | exact blk_n (by decide) (by decide) (by assumption) | exact blk_un (by decide) (by decide) (by decide) (by assumption))) :
    Kept kb kl bl ko (celWrite a v o s) := by
  unfold celWrite
  with_reducible repeat' first
    | assumption
    | (refine mem_guard ?_; with_unfolding_all (first | assumption | exact (by assumption : ∀ n, n ∈ bl) _ | exact blk_n (by decide) (by decide) (by assumption) | exact blk_un (by decide) (by decide) (by decide) (by assumption) | exact blk_ite (by assumption) (by assumption) | exact blk_ite (by exact blk_n (by decide) (by decide) (by assumption)) (by exact blk_n (by decide) (by decide) (by assumption))))
    | (refine kept_ouse (by assumption) ?_)
    | (intro sx; refine (have hsx : Kept kb kl bl ko sx := ?_; ?_); on_goal 2 => (try clear_value sx))
    | (intro sx; try clear_value sx)
    | lift_lets
    | apply kept_showPages
    | apply kept_celAccess
    | apply kept_st_put
    | apply kept_discardQueues
    | apply kept_indDone
    | apply kept_showFree
    | apply kept_st_wr
    | apply kept_ite
    | (apply kept_foldl; intro sy xy hy)
    | (apply kept_foldl2; intro sy xy hy)
    | (apply kept_foldl1; intro sy xy hy)
    | split
    | dsimp only [sx]
    | refine Kept.of_mk ?_

theorem kept_schAccess {s : State} (h_s : Kept kb kl bl ko s) (h_p_regs : Part.regs ∈ kl := by assumption) (h_p_sch : Part.sch ∈ kl := by assumption) (h_b_SCH : blkSCH ∈ bl := by assumption) :
    KeptO kb kl bl ko id (schAccess s) := by
  unfold schAccess
  with_reducible repeat' first
    | assumption
    | (intro sx; refine (have hsx : Kept kb kl bl ko sx := ?_; ?_); on_goal 2 => (try clear_value sx))
    | (intro sx; try clear_value sx)
    | lift_lets
    | apply kept_st_setPortObj
    | apply kept_st_setPolicer
    | apply kept_st_setLeafObj
    | apply kept_st_setSvc
    | apply kept_showObj
    | apply kept_putSchData
    | apply kept_st_setSub
    | apply kept_ite
    | split
    | dsimp only [sx]
    | refine Kept.of_mk ?_
    | apply kept_none
    | apply kept_some
    | apply kept_some2
    | apply kept_oite
    | (apply kept_omap; intro xo)

theorem kept_clearMem {a n : Nat} {s : State} (h_s : Kept kb kl bl ko s) (h_p_mem : Part.mem ∈ kl := by assumption) : Kept kb kl bl ko (clearMem a n s) :=
  ⟨fun b => ⟨(h_s.1 b).1, (h_s.1 b).2.1, SMap.wfFrom_filter _ _ (h_s.1 b).2.2.1, (h_s.1 b).2.2.2⟩, h_s.2.1.mem h_p_mem, h_s.2.2⟩

theorem kept_schWrite {a : Nat} {v : Word} {o : State} {s : State} (h_o : Kept kb kl bl ko o) (h_s : Kept kb kl bl ko s) (h_p_regs : Part.regs ∈ kl := by assumption) (h_p_mem : Part.mem ∈ kl := by assumption) (h_p_cel : Part.cel ∈ kl := by assumption) (h_p_sch : Part.sch ∈ kl := by assumption) (h_p_ube : Part.ube ∈ kl := by assumption) (h_p_spc : Part.spc ∈ kl := by assumption) (h_b_CEL : blkCEL ∈ bl := by assumption) (h_b_SCH : blkSCH ∈ bl := by assumption) :
    Kept kb kl bl ko (schWrite a v o s) := by
  unfold schWrite
  with_reducible repeat' first
    | assumption
    | (refine mem_guard ?_; with_unfolding_all (first | assumption | exact (by assumption : ∀ n, n ∈ bl) _ | exact blk_n (by decide) (by decide) (by assumption) | exact blk_un (by decide) (by decide) (by decide) (by assumption) | exact blk_ite (by assumption) (by assumption) | exact blk_ite (by exact blk_n (by decide) (by decide) (by assumption)) (by exact blk_n (by decide) (by decide) (by assumption))))
    | (refine kept_ouse (by assumption) ?_)
    | (refine kept_pair1 (by assumption) ?_)
    | (intro sx; refine (have hsx : Kept kb kl bl ko sx := ?_; ?_); on_goal 2 => (try clear_value sx))
    | (intro sx; refine (have hsx : Kept kb kl bl ko sx.1 := ?_; ?_); on_goal 2 => (try clear_value sx))
    | (intro sx; try clear_value sx)
    | lift_lets
    | apply kept_flushKey
    | apply kept_schAccess
    | apply kept_clearMem
    | apply kept_st_put
    | apply kept_indDone
    | apply kept_st_wr
    | apply kept_ite
    | apply kept_ite1
    | split
    | dsimp only [sx]
    | refine Kept.of_mk ?_

end Sys2Proof.Machine
end

