-- ==== Sys2Proof/Laws/KeptControl.lean ====
section
/-! SUPPORT. What every operation of tasks, HBM, blocks, faults, boot and the cascade keeps: one lemma for each, named after it, which lists the parts of the state that the operation may change. -/

set_option linter.unusedTactic false
set_option linter.unreachableTactic false

namespace Sys2Proof.Machine

set_option linter.unusedVariables false
set_option Elab.async false

variable {β : Type} [Membership Nat β] {kb : Bool} {kl : List Part} {bl : β} {ko : State}

theorem kept_traceLost {s : State} (h_s : Kept kb kl bl ko s) (h_p_regs : Part.regs ∈ kl := by assumption) (h_b_TSK : blkTSK ∈ bl := by assumption) :
    Kept kb kl bl ko (traceLost s) := by
  unfold traceLost
  with_reducible repeat' first
    | assumption
    | (refine mem_guard ?_; with_unfolding_all (first | assumption | exact (by assumption : ∀ n, n ∈ bl) _ | exact blk_n (by decide) (by decide) (by assumption) | exact blk_un (by decide) (by decide) (by decide) (by assumption)))
    | apply kept_st_put
    | apply kept_st_addTo
    | refine Kept.of_mk ?_

theorem kept_tskTrace {type : Nat} {core : Nat} {task : Nat} {prio : Nat} {info : Nat} {s : State} (h_s : Kept kb kl bl ko s) (h_p_regs : Part.regs ∈ kl := by assumption) (h_p_mem : Part.mem ∈ kl := by assumption) (h_p_ecc : Part.ecc ∈ kl := by assumption) (h_p_flt : Part.flt ∈ kl := by assumption) (h_b_FLT : blkFLT ∈ bl := by assumption) (h_b_TSK : blkTSK ∈ bl := by assumption) :
    Kept kb kl bl ko (tskTrace type core task prio info s) := by
  unfold tskTrace
  with_reducible repeat' first
    | assumption
    | (refine mem_guard ?_; with_unfolding_all (first | assumption | exact (by assumption : ∀ n, n ∈ bl) _ | exact blk_n (by decide) (by decide) (by assumption) | exact blk_un (by decide) (by decide) (by decide) (by assumption) | exact blk_ite (by assumption) (by assumption) | exact blk_ite (by exact blk_n (by decide) (by decide) (by assumption)) (by exact blk_n (by decide) (by decide) (by assumption))))
    | (intro sx; refine (have hsx : Kept kb kl bl ko sx := ?_; ?_); on_goal 2 => (try clear_value sx))
    | (intro sx; try clear_value sx)
    | lift_lets
    | apply kept_traceLost
    | apply kept_devWrite
    | apply kept_st_wr
    | apply kept_ite
    | refine Kept.of_mk ?_
    | split

theorem kept_showTsk {s : State} (h_s : Kept kb kl bl ko s) (h_p_regs : Part.regs ∈ kl := by assumption) (h_b_TSK : blkTSK ∈ bl := by assumption) :
    Kept kb kl bl ko (showTsk s) := by
  unfold showTsk
  with_reducible repeat' first
    | assumption
    | (refine mem_guard ?_; with_unfolding_all (first | assumption | exact (by assumption : ∀ n, n ∈ bl) _ | exact blk_n (by decide) (by decide) (by assumption) | exact blk_un (by decide) (by decide) (by decide) (by assumption)))
    | apply kept_st_wr
    | refine Kept.of_mk ?_

theorem kept_settleTask {n : Nat} {s : State} (h_s : Kept kb kl bl ko s) (h_p_regs : Part.regs ∈ kl := by assumption) (h_p_mem : Part.mem ∈ kl := by assumption) (h_p_ecc : Part.ecc ∈ kl := by assumption) (h_p_flt : Part.flt ∈ kl := by assumption) (h_p_tsk : Part.tsk ∈ kl := by assumption) (h_b_FLT : blkFLT ∈ bl := by assumption) (h_b_TSK : blkTSK ∈ bl := by assumption) :
    Kept kb kl bl ko (settleTask n s) := by
  unfold settleTask
  with_reducible repeat' first
    | assumption
    | (intro sx; refine (have hsx : Kept kb kl bl ko sx := ?_; ?_); on_goal 2 => (try clear_value sx))
    | (intro sx; try clear_value sx)
    | lift_lets
    | apply kept_tskTrace
    | apply kept_st_setTask
    | apply kept_ite
    | refine Kept.of_mk ?_
    | split

theorem kept_tskSettle {s : State} (h_s : Kept kb kl bl ko s) (h_p_regs : Part.regs ∈ kl := by assumption) (h_p_mem : Part.mem ∈ kl := by assumption) (h_p_ecc : Part.ecc ∈ kl := by assumption) (h_p_flt : Part.flt ∈ kl := by assumption) (h_p_tsk : Part.tsk ∈ kl := by assumption) (h_b_FLT : blkFLT ∈ bl := by assumption) (h_b_TSK : blkTSK ∈ bl := by assumption) :
    Kept kb kl bl ko (tskSettle s) := by
  unfold tskSettle
  with_reducible repeat' first
    | assumption
    | apply kept_showTsk
    | apply kept_settleTask
    | apply kept_ite
    | (apply kept_foldl; intro sy xy hy)
    | (apply kept_foldl2; intro sy xy hy)
    | (apply kept_foldl1; intro sy xy hy)
    | refine Kept.of_mk ?_
    | split

theorem kept_setFlag {n : Nat} {flag : Nat} {s : State} (h_s : Kept kb kl bl ko s) (h_p_tsk : Part.tsk ∈ kl := by assumption) :
    Kept kb kl bl ko (setFlag n flag s) := by
  unfold setFlag
  with_reducible repeat' first
    | assumption
    | apply kept_st_setTask
    | refine Kept.of_mk ?_

theorem kept_routeSource {n : Nat} {s : State} (h_s : Kept kb kl bl ko s) (h_p_tsk : Part.tsk ∈ kl := by assumption) :
    Kept kb kl bl ko (routeSource n s) := by
  unfold routeSource
  with_reducible repeat' first
    | assumption
    | apply kept_setFlag
    | apply kept_ite
    | refine Kept.of_mk ?_
    | split

theorem kept_levelSources {s : State} (h_s : Kept kb kl bl ko s) (h_p_tsk : Part.tsk ∈ kl := by assumption) :
    Kept kb kl bl ko (levelSources s) := by
  unfold levelSources
  with_reducible repeat' first
    | assumption
    | apply kept_routeSource
    | apply kept_ite
    | (apply kept_foldl; intro sy xy hy)
    | (apply kept_foldl2; intro sy xy hy)
    | (apply kept_foldl1; intro sy xy hy)
    | refine Kept.of_mk ?_
    | split

theorem kept_tskClock {s : State} (h_s : Kept kb kl bl ko s) (h_p_regs : Part.regs ∈ kl := by assumption) (h_p_mem : Part.mem ∈ kl := by assumption) (h_p_ecc : Part.ecc ∈ kl := by assumption) (h_p_flt : Part.flt ∈ kl := by assumption) (h_p_tsk : Part.tsk ∈ kl := by assumption) (h_b_FLT : blkFLT ∈ bl := by assumption) (h_b_TSK : blkTSK ∈ bl := by assumption) :
    Kept kb kl bl ko (tskClock s) := by
  unfold tskClock
  with_reducible repeat' first
    | assumption
    | apply kept_tskSettle
    | apply kept_levelSources
    | apply kept_ite
    | refine Kept.of_mk ?_
    | split

theorem kept_hwEvent {n : Nat} {s : State} (h_s : Kept kb kl bl ko s) (h_p_regs : Part.regs ∈ kl := by assumption) (h_p_mem : Part.mem ∈ kl := by assumption) (h_p_ecc : Part.ecc ∈ kl := by assumption) (h_p_flt : Part.flt ∈ kl := by assumption) (h_p_tsk : Part.tsk ∈ kl := by assumption) (h_b_FLT : blkFLT ∈ bl := by assumption) (h_b_TSK : blkTSK ∈ bl := by assumption) :
    Kept kb kl bl ko (hwEvent n s) := by
  unfold hwEvent
  with_reducible repeat' first
    | assumption
    | apply kept_tskClock
    | apply kept_routeSource
    | apply kept_ite
    | refine Kept.of_mk ?_
    | split

theorem kept_taskPost {core : Nat} {task : Nat} {flag : Nat} {s : State} (h_s : Kept kb kl bl ko s) (h_p_regs : Part.regs ∈ kl := by assumption) (h_p_mem : Part.mem ∈ kl := by assumption) (h_p_ecc : Part.ecc ∈ kl := by assumption) (h_p_flt : Part.flt ∈ kl := by assumption) (h_p_tsk : Part.tsk ∈ kl := by assumption) (h_b_FLT : blkFLT ∈ bl := by assumption) (h_b_TSK : blkTSK ∈ bl := by assumption) :
    Kept kb kl bl ko (taskPost core task flag s) := by
  unfold taskPost
  with_reducible repeat' first
    | assumption
    | (refine mem_guard ?_; with_unfolding_all (first | assumption | exact (by assumption : ∀ n, n ∈ bl) _ | exact blk_n (by decide) (by decide) (by assumption) | exact blk_un (by decide) (by decide) (by decide) (by assumption) | exact blk_ite (by assumption) (by assumption) | exact blk_ite (by exact blk_n (by decide) (by decide) (by assumption)) (by exact blk_n (by decide) (by decide) (by assumption))))
    | (intro sx; refine (have hsx : Kept kb kl bl ko sx := ?_; ?_); on_goal 2 => (try clear_value sx))
    | (intro sx; try clear_value sx)
    | lift_lets
    | apply kept_showTsk
    | apply kept_tskTrace
    | apply kept_st_inc
    | apply kept_ite
    | refine Kept.of_mk ?_
    | split

theorem kept_postApply {s : State} (h_s : Kept kb kl bl ko s) (h_p_regs : Part.regs ∈ kl := by assumption) (h_p_mem : Part.mem ∈ kl := by assumption) (h_p_ecc : Part.ecc ∈ kl := by assumption) (h_p_flt : Part.flt ∈ kl := by assumption) (h_p_tsk : Part.tsk ∈ kl := by assumption) (h_b_FLT : blkFLT ∈ bl := by assumption) (h_b_TSK : blkTSK ∈ bl := by assumption) :
    Kept kb kl bl ko (postApply s) := by
  unfold postApply
  with_reducible repeat' first
    | assumption
    | (intro sx; refine (have hsx : Kept kb kl bl ko sx := ?_; ?_); on_goal 2 => (try clear_value sx))
    | intro sx
    | lift_lets
    | apply kept_tskClock
    | apply kept_setFlag
    | apply kept_ite
    | split
    | dsimp only [sx]
    | refine Kept.of_mk ?_

theorem kept_assignTask {n : Nat} {c : Nat} {s : State} (h_s : Kept kb kl bl ko s) (h_p_regs : Part.regs ∈ kl := by assumption) (h_p_mem : Part.mem ∈ kl := by assumption) (h_p_ecc : Part.ecc ∈ kl := by assumption) (h_p_flt : Part.flt ∈ kl := by assumption) (h_p_tsk : Part.tsk ∈ kl := by assumption) (h_p_harts : Part.harts ∈ kl := by assumption) (h_b_FLT : blkFLT ∈ bl := by assumption) (h_b_TSK : blkTSK ∈ bl := by assumption) :
    Kept kb kl bl ko (assignTask n c s) := by
  unfold assignTask
  with_reducible repeat' first
    | assumption
    | (refine mem_guard ?_; with_unfolding_all (first | assumption | exact (by assumption : ∀ n, n ∈ bl) _ | exact blk_n (by decide) (by decide) (by assumption) | exact blk_un (by decide) (by decide) (by decide) (by assumption)))
    | (intro sx; refine (have hsx : Kept kb kl bl ko sx := ?_; ?_); on_goal 2 => (try clear_value sx))
    | (intro sx; try clear_value sx)
    | lift_lets
    | apply kept_tskTrace
    | apply kept_st_setTask
    | apply kept_st_inc
    | apply kept_st_setHart
    | apply kept_setReg
    | refine Kept.of_mk ?_

theorem kept_tskAssign {s : State} (h_s : Kept kb kl bl ko s) (h_p_regs : Part.regs ∈ kl := by assumption) (h_p_mem : Part.mem ∈ kl := by assumption) (h_p_ecc : Part.ecc ∈ kl := by assumption) (h_p_flt : Part.flt ∈ kl := by assumption) (h_p_tsk : Part.tsk ∈ kl := by assumption) (h_p_harts : Part.harts ∈ kl := by assumption) (h_b_FLT : blkFLT ∈ bl := by assumption) (h_b_TSK : blkTSK ∈ bl := by assumption) :
    Kept kb kl bl ko (tskAssign s) := by
  unfold tskAssign
  with_reducible repeat' first
    | assumption
    | apply kept_tskClock
    | apply kept_assignTask
    | apply kept_ite
    | split
    | refine Kept.of_mk ?_

theorem kept_releaseSucc {x : Succ} {s : State} (h_s : Kept kb kl bl ko s) (h_p_regs : Part.regs ∈ kl := by assumption) (h_p_tsk : Part.tsk ∈ kl := by assumption) (h_b_TSK : blkTSK ∈ bl := by assumption) :
    Kept kb kl bl ko (releaseSucc x s) := by
  unfold releaseSucc
  with_reducible repeat' first
    | assumption
    | (refine mem_guard ?_; with_unfolding_all (first | assumption | exact (by assumption : ∀ n, n ∈ bl) _ | exact blk_n (by decide) (by decide) (by assumption) | exact blk_un (by decide) (by decide) (by decide) (by assumption) | exact blk_ite (by assumption) (by assumption) | exact blk_ite (by exact blk_n (by decide) (by decide) (by assumption)) (by exact blk_n (by decide) (by decide) (by assumption))))
    | (intro sx; refine (have hsx : Kept kb kl bl ko sx := ?_; ?_); on_goal 2 => (try clear_value sx))
    | (intro sx; try clear_value sx)
    | lift_lets
    | apply kept_st_setTask
    | apply kept_st_put
    | apply kept_setFlag
    | apply kept_ite
    | refine Kept.of_mk ?_
    | split

theorem kept_dropTask {c : Nat} {s : State} (h_s : Kept kb kl bl ko s) (h_p_regs : Part.regs ∈ kl := by assumption) (h_p_harts : Part.harts ∈ kl := by assumption) (h_b_TSK : blkTSK ∈ bl := by assumption) :
    Kept kb kl bl ko (dropTask c s) := by
  unfold dropTask
  with_reducible repeat' first
    | assumption
    | (refine mem_guard ?_; with_unfolding_all (first | assumption | exact (by assumption : ∀ n, n ∈ bl) _ | exact blk_n (by decide) (by decide) (by assumption) | exact blk_un (by decide) (by decide) (by decide) (by assumption)))
    | apply kept_st_put
    | apply kept_st_setHart
    | refine Kept.of_mk ?_

theorem kept_taskDone {c : Nat} {requeue : Bool} {s : State} (h_s : Kept kb kl bl ko s) (h_p_regs : Part.regs ∈ kl := by assumption) (h_p_mem : Part.mem ∈ kl := by assumption) (h_p_ecc : Part.ecc ∈ kl := by assumption) (h_p_flt : Part.flt ∈ kl := by assumption) (h_p_tsk : Part.tsk ∈ kl := by assumption) (h_p_harts : Part.harts ∈ kl := by assumption) (h_b_FLT : blkFLT ∈ bl := by assumption) (h_b_TSK : blkTSK ∈ bl := by assumption) :
    Kept kb kl bl ko (taskDone c requeue s) := by
  unfold taskDone
  with_reducible repeat' first
    | assumption
    | (intro sx; refine (have hsx : Kept kb kl bl ko sx := ?_; ?_); on_goal 2 => (try clear_value sx))
    | (intro sx; try clear_value sx)
    | lift_lets
    | apply kept_tskTrace
    | apply kept_tskClock
    | apply kept_st_setTask
    | apply kept_releaseSucc
    | apply kept_dropTask
    | apply kept_ite
    | refine Kept.of_mk ?_
    | split

theorem kept_hartReset {c : Nat} {s : State} (h_s : Kept kb kl bl ko s) (h_p_regs : Part.regs ∈ kl := by assumption) (h_p_mem : Part.mem ∈ kl := by assumption) (h_p_ecc : Part.ecc ∈ kl := by assumption) (h_p_free : Part.free ∈ kl := by assumption) (h_p_flt : Part.flt ∈ kl := by assumption) (h_p_tsk : Part.tsk ∈ kl := by assumption) (h_p_harts : Part.harts ∈ kl := by assumption) (h_b_FLT : blkFLT ∈ bl := by assumption) (h_b_TSK : blkTSK ∈ bl := by assumption) :
    Kept kb kl bl ko (hartReset c s) := by
  unfold hartReset
  with_reducible repeat' first
    | assumption
    | (refine mem_guard ?_; with_unfolding_all (first | assumption | exact (by assumption : ∀ n, n ∈ bl) _ | exact blk_n (by decide) (by decide) (by assumption) | exact blk_un (by decide) (by decide) (by decide) (by assumption) | exact blk_ite (by assumption) (by assumption) | exact blk_ite (by exact blk_n (by decide) (by decide) (by assumption)) (by exact blk_n (by decide) (by decide) (by assumption))))
    | (intro sx; refine (have hsx : Kept kb kl bl ko sx := ?_; ?_); on_goal 2 => (try clear_value sx))
    | (intro sx; refine (have hsx : Kept kb kl bl ko sx.2 := ?_; ?_); on_goal 2 => (try clear_value sx))
    | (intro sx; try clear_value sx)
    | lift_lets
    | apply kept_tskTrace
    | apply kept_tskClock
    | apply kept_st_setTask
    | apply kept_st_put
    | apply kept_st_setHart
    | apply kept_draw
    | apply kept_ite
    | apply kept_ite2
    | refine Kept.of_mk ?_
    | split

theorem kept_taskCmd {op : Nat} {n : Nat} {s : State} (h_s : Kept kb kl bl ko s) (h_p_regs : Part.regs ∈ kl := by assumption) (h_p_mem : Part.mem ∈ kl := by assumption) (h_p_ecc : Part.ecc ∈ kl := by assumption) (h_p_flt : Part.flt ∈ kl := by assumption) (h_p_tsk : Part.tsk ∈ kl := by assumption) (h_b_FLT : blkFLT ∈ bl := by assumption) (h_b_TSK : blkTSK ∈ bl := by assumption) :
    Kept kb kl bl ko (taskCmd op n s) := by
  unfold taskCmd
  with_reducible repeat' first
    | assumption
    | (intro sx; refine (have hsx : Kept kb kl bl ko sx := ?_; ?_); on_goal 2 => (try clear_value sx))
    | (intro sx; try clear_value sx)
    | lift_lets
    | apply kept_tskTrace
    | apply kept_tskClock
    | apply kept_st_setTask
    | apply kept_ite
    | refine Kept.of_mk ?_
    | split

theorem kept_tskAccess {s : State} (h_s : Kept kb kl bl ko s) (h_p_regs : Part.regs ∈ kl := by assumption) (h_p_tsk : Part.tsk ∈ kl := by assumption) (h_b_TSK : blkTSK ∈ bl := by assumption) :
    KeptO kb kl bl ko id (tskAccess s) := by
  unfold tskAccess
  with_reducible repeat' first
    | assumption
    | (refine mem_guard ?_; with_unfolding_all (first | assumption | exact (by assumption : ∀ n, n ∈ bl) _ | exact blk_n (by decide) (by decide) (by assumption) | exact blk_un (by decide) (by decide) (by decide) (by assumption) | exact blk_ite (by assumption) (by assumption) | exact blk_ite (by exact blk_n (by decide) (by decide) (by assumption)) (by exact blk_n (by decide) (by decide) (by assumption))))
    | (intro sx; refine (have hsx : Kept kb kl bl ko sx := ?_; ?_); on_goal 2 => (try clear_value sx))
    | (intro sx; refine (have hsx : Kept kb kl bl ko sx.2 := ?_; ?_); on_goal 2 => (try clear_value sx))
    | (intro sx; refine (have hsx : Kept kb kl bl ko sx.1 := ?_; ?_); on_goal 2 => (try clear_value sx))
    | (intro sx; try clear_value sx)
    | lift_lets
    | apply kept_st_setTask
    | apply kept_setReg
    | apply kept_ite
    | apply kept_ite1
    | apply kept_ite2
    | apply kept_ite21
    | apply kept_ite22
    | (apply kept_foldl; intro sy xy hy)
    | (apply kept_foldl2; intro sy xy hy)
    | (apply kept_foldl1; intro sy xy hy)
    | refine Kept.of_mk ?_
    | apply kept_none
    | apply kept_some
    | apply kept_some2
    | apply kept_oite
    | (apply kept_omap; intro xo)
    | split

theorem kept_tskWrite {a : Nat} {v : Word} {o : State} {s : State} (h_o : Kept kb kl bl ko o) (h_s : Kept kb kl bl ko s) (h_p_regs : Part.regs ∈ kl := by assumption) (h_p_mem : Part.mem ∈ kl := by assumption) (h_p_ecc : Part.ecc ∈ kl := by assumption) (h_p_flt : Part.flt ∈ kl := by assumption) (h_p_tsk : Part.tsk ∈ kl := by assumption) (h_p_harts : Part.harts ∈ kl := by assumption) (h_b_FLT : blkFLT ∈ bl := by assumption) (h_b_TSK : blkTSK ∈ bl := by assumption) :
    Kept kb kl bl ko (tskWrite a v o s) := by
  unfold tskWrite
  with_reducible repeat' first
    | assumption
    | (refine mem_guard ?_; with_unfolding_all (first | assumption | exact (by assumption : ∀ n, n ∈ bl) _ | exact blk_n (by decide) (by decide) (by assumption) | exact blk_un (by decide) (by decide) (by decide) (by assumption) | exact blk_ite (by assumption) (by assumption) | exact blk_ite (by exact blk_n (by decide) (by decide) (by assumption)) (by exact blk_n (by decide) (by decide) (by assumption))))
    | (refine kept_ouse (by assumption) ?_)
    | (intro sx; refine (have hsx : Kept kb kl bl ko sx := ?_; ?_); on_goal 2 => (try clear_value sx))
    | (intro sx; try clear_value sx)
    | lift_lets
    | apply kept_tskClock
    | apply kept_st_put
    | apply kept_tskAccess
    | apply kept_taskDone
    | apply kept_taskCmd
    | apply kept_st_wr
    | apply kept_ite
    | split
    | dsimp only [sx]
    | refine Kept.of_mk ?_

theorem kept_acuRefuse {i : Initiator} {wr : Bool} {a : Nat} {s : State} (h_s : Kept kb kl bl ko s) (h_p_regs : Part.regs ∈ kl := by assumption) (h_p_mem : Part.mem ∈ kl := by assumption) (h_p_ecc : Part.ecc ∈ kl := by assumption) (h_p_flt : Part.flt ∈ kl := by assumption) (h_p_tsk : Part.tsk ∈ kl := by assumption) (h_b_FLT : blkFLT ∈ bl := by assumption) (h_b_TSK : blkTSK ∈ bl := by assumption) (h_b_ACU : blkACU ∈ bl := by assumption) :
    Kept kb kl bl ko (acuRefuse i wr a s) := by
  unfold acuRefuse
  with_reducible repeat' first
    | assumption
    | (refine mem_guard ?_; with_unfolding_all (first | assumption | exact (by assumption : ∀ n, n ∈ bl) _ | exact blk_n (by decide) (by decide) (by assumption) | exact blk_un (by decide) (by decide) (by decide) (by assumption) | exact blk_ite (by assumption) (by assumption) | exact blk_ite (by exact blk_n (by decide) (by decide) (by assumption)) (by exact blk_n (by decide) (by decide) (by assumption))))
    | (intro sx; refine (have hsx : Kept kb kl bl ko sx := ?_; ?_); on_goal 2 => (try clear_value sx))
    | (intro sx; try clear_value sx)
    | lift_lets
    | apply kept_tskClock
    | apply kept_st_inc
    | apply kept_setReg
    | apply kept_ite
    | refine Kept.of_mk ?_
    | split

theorem kept_acuAccess {s : State} (h_s : Kept kb kl bl ko s) (h_p_regs : Part.regs ∈ kl := by assumption) (h_p_acu : Part.acu ∈ kl := by assumption) (h_b_ACU : blkACU ∈ bl := by assumption) :
    KeptO kb kl bl ko id (acuAccess s) := by
  unfold acuAccess
  with_reducible repeat' first
    | assumption
    | (refine mem_guard ?_; with_unfolding_all (first | assumption | exact (by assumption : ∀ n, n ∈ bl) _ | exact blk_n (by decide) (by decide) (by assumption) | exact blk_un (by decide) (by decide) (by decide) (by assumption) | exact blk_ite (by assumption) (by assumption) | exact blk_ite (by exact blk_n (by decide) (by decide) (by assumption)) (by exact blk_n (by decide) (by decide) (by assumption))))
    | (intro sx; refine (have hsx : Kept kb kl bl ko sx := ?_; ?_); on_goal 2 => (try clear_value sx))
    | (intro sx; try clear_value sx)
    | lift_lets
    | apply kept_st_setAcuWin
    | apply kept_setReg
    | apply kept_ite
    | refine Kept.of_mk ?_
    | apply kept_none
    | apply kept_some
    | apply kept_some2
    | apply kept_oite
    | (apply kept_omap; intro xo)
    | split

theorem kept_acuWrite {a : Nat} {v : Word} {o : State} {s : State} (h_o : Kept kb kl bl ko o) (h_s : Kept kb kl bl ko s) (h_p_regs : Part.regs ∈ kl := by assumption) (h_p_acu : Part.acu ∈ kl := by assumption) (h_b_ACU : blkACU ∈ bl := by assumption) :
    Kept kb kl bl ko (acuWrite a v o s) := by
  unfold acuWrite
  with_reducible repeat' first
    | assumption
    | (refine mem_guard ?_; with_unfolding_all (first | assumption | exact (by assumption : ∀ n, n ∈ bl) _ | exact blk_n (by decide) (by decide) (by assumption) | exact blk_un (by decide) (by decide) (by decide) (by assumption) | exact blk_ite (by assumption) (by assumption) | exact blk_ite (by exact blk_n (by decide) (by decide) (by assumption)) (by exact blk_n (by decide) (by decide) (by assumption))))
    | (refine kept_ouse (by assumption) ?_)
    | apply kept_st_put
    | apply kept_acuAccess
    | apply kept_ite
    | split
    | refine Kept.of_mk ?_

theorem kept_stackStamp {n : Nat} {t : Int} {duty : Int} {s : State} (h_s : Kept kb kl bl ko s) (h_p_regs : Part.regs ∈ kl := by assumption) (h_p_cel : Part.cel ∈ kl := by assumption) (h_b_CEL : blkCEL ∈ bl := by assumption) :
    Kept kb kl bl ko (stackStamp n t duty s) := by
  unfold stackStamp
  with_reducible repeat' first
    | assumption
    | (refine mem_guard ?_; with_unfolding_all (first | assumption | exact (by assumption : ∀ n, n ∈ bl) _ | exact blk_n (by decide) (by decide) (by assumption) | exact blk_un (by decide) (by decide) (by decide) (by assumption)))
    | (intro sx; refine (have hsx : Kept kb kl bl ko sx := ?_; ?_); on_goal 2 => (try clear_value sx))
    | (intro sx; try clear_value sx)
    | lift_lets
    | apply kept_st_setStack
    | apply kept_st_wr
    | refine Kept.of_mk ?_

theorem kept_zeroStack {n : Nat} {s : State} (h_s : Kept kb kl bl ko s) (h_p_mem : Part.mem ∈ kl := by assumption) (h_p_ecc : Part.ecc ∈ kl := by assumption) : Kept kb kl bl ko (zeroStack n s) :=
  ⟨fun b => ⟨(h_s.1 b).1, (h_s.1 b).2.1, SMap.wfFrom_filter _ _ (h_s.1 b).2.2.1, (h_s.1 b).2.2.2.1,
    SMap.wfFrom_filter _ _ (h_s.1 b).2.2.2.2⟩, h_s.2.1.memEcc h_p_mem h_p_ecc, h_s.2.2⟩

theorem kept_bootTrain {n : Nat} {tries : Nat} {t : Int} {duty : Int} {s : State} (h_s : Kept kb kl bl ko s) (h_p_regs : Part.regs ∈ kl := by assumption) (h_p_mem : Part.mem ∈ kl := by assumption) (h_p_ecc : Part.ecc ∈ kl := by assumption) (h_p_flt : Part.flt ∈ kl := by assumption) (h_p_cel : Part.cel ∈ kl := by assumption) (h_b_FLT : blkFLT ∈ bl := by assumption) (h_b_CEL : blkCEL ∈ bl := by assumption) :
    Kept kb kl bl ko (bootTrain n tries t duty s) := by
  unfold bootTrain
  with_reducible repeat' first
    | assumption
    | (refine mem_guard ?_; with_unfolding_all (first | assumption | exact (by assumption : ∀ n, n ∈ bl) _ | exact blk_n (by decide) (by decide) (by assumption) | exact blk_un (by decide) (by decide) (by decide) (by assumption) | exact blk_ite (by assumption) (by assumption) | exact blk_ite (by exact blk_n (by decide) (by decide) (by assumption)) (by exact blk_n (by decide) (by decide) (by assumption))))
    | apply kept_fltEvent
    | apply kept_showPages
    | apply kept_stackStamp
    | apply kept_st_put
    | apply kept_zeroStack
    | apply kept_st_setBit
    | apply kept_ite
    | refine Kept.of_mk ?_
    | split

theorem kept_retrainEnds {n : Nat} {t : Int} {duty : Int} {s : State} (h_s : Kept kb kl bl ko s) (h_p_regs : Part.regs ∈ kl := by assumption) (h_p_cel : Part.cel ∈ kl := by assumption) (h_b_CEL : blkCEL ∈ bl := by assumption) :
    Kept kb kl bl ko (retrainEnds n t duty s) := by
  unfold retrainEnds
  with_reducible repeat' first
    | assumption
    | (refine mem_guard ?_; with_unfolding_all (first | assumption | exact (by assumption : ∀ n, n ∈ bl) _ | exact blk_n (by decide) (by decide) (by assumption) | exact blk_un (by decide) (by decide) (by decide) (by assumption)))
    | (intro sx; refine (have hsx : Kept kb kl bl ko sx := ?_; ?_); on_goal 2 => (try clear_value sx))
    | (intro sx; try clear_value sx)
    | lift_lets
    | apply kept_stackStamp
    | apply kept_st_setStack
    | apply kept_st_inc
    | refine Kept.of_mk ?_

theorem kept_stackCheck {n : Nat} {t : Int} {duty : Int} {s : State} (h_s : Kept kb kl bl ko s) (h_p_regs : Part.regs ∈ kl := by assumption) (h_p_cel : Part.cel ∈ kl := by assumption) (h_b_CEL : blkCEL ∈ bl := by assumption) :
    Kept kb kl bl ko (stackCheck n t duty s) := by
  unfold stackCheck
  with_reducible repeat' first
    | assumption
    | (refine mem_guard ?_; with_unfolding_all (first | assumption | exact (by assumption : ∀ n, n ∈ bl) _ | exact blk_n (by decide) (by decide) (by assumption) | exact blk_un (by decide) (by decide) (by decide) (by assumption) | exact blk_ite (by assumption) (by assumption) | exact blk_ite (by exact blk_n (by decide) (by decide) (by assumption)) (by exact blk_n (by decide) (by decide) (by assumption))))
    | (intro sx; refine (have hsx : Kept kb kl bl ko sx := ?_; ?_); on_goal 2 => (try clear_value sx))
    | (intro sx; try clear_value sx)
    | lift_lets
    | apply kept_st_setStack
    | apply kept_st_setBit
    | apply kept_retrainEnds
    | apply kept_st_wr
    | apply kept_ite
    | refine Kept.of_mk ?_
    | split

theorem kept_retrainStart {t : Int} {duty : Int} {s : State} (h_s : Kept kb kl bl ko s) (h_p_regs : Part.regs ∈ kl := by assumption) (h_p_cel : Part.cel ∈ kl := by assumption) (h_b_CEL : blkCEL ∈ bl := by assumption) :
    Kept kb kl bl ko (retrainStart t duty s) := by
  unfold retrainStart
  with_reducible repeat' first
    | assumption
    | (refine mem_guard ?_; with_unfolding_all (first | assumption | exact (by assumption : ∀ n, n ∈ bl) _ | exact blk_n (by decide) (by decide) (by assumption) | exact blk_un (by decide) (by decide) (by decide) (by assumption) | exact blk_ite (by assumption) (by assumption) | exact blk_ite (by exact blk_n (by decide) (by decide) (by assumption)) (by exact blk_n (by decide) (by decide) (by assumption))))
    | (intro sx; refine (have hsx : Kept kb kl bl ko sx := ?_; ?_); on_goal 2 => (try clear_value sx))
    | intro sx
    | lift_lets
    | apply kept_st_setStack
    | apply kept_st_wr
    | apply kept_ite
    | split
    | dsimp only [sx]
    | refine Kept.of_mk ?_

theorem kept_retrainStep {n : Nat} {s : State} (h_s : Kept kb kl bl ko s) (h_p_cel : Part.cel ∈ kl := by assumption) :
    Kept kb kl bl ko (retrainStep n s) := by
  unfold retrainStep
  with_reducible repeat' first
    | assumption
    | (intro sx; refine (have hsx : Kept kb kl bl ko sx := ?_; ?_); on_goal 2 => (try clear_value sx))
    | (intro sx; try clear_value sx)
    | lift_lets
    | apply kept_st_setStack
    | apply kept_ite
    | refine Kept.of_mk ?_
    | split

theorem kept_retrainDone {n : Nat} {t : Int} {duty : Int} {s : State} (h_s : Kept kb kl bl ko s) (h_p_regs : Part.regs ∈ kl := by assumption) (h_p_cel : Part.cel ∈ kl := by assumption) (h_b_CEL : blkCEL ∈ bl := by assumption) :
    Kept kb kl bl ko (retrainDone n t duty s) := by
  unfold retrainDone
  with_reducible repeat' first
    | assumption
    | apply kept_retrainEnds
    | apply kept_ite
    | refine Kept.of_mk ?_
    | split

theorem kept_scrubWriteBack {s : State} (h_s : Kept kb kl bl ko s) (h_p_ecc : Part.ecc ∈ kl := by assumption) (h_p_cel : Part.cel ∈ kl := by assumption) :
    Kept kb kl bl ko (scrubWriteBack s) := by
  unfold scrubWriteBack
  with_reducible repeat' first
    | assumption
    | (intro sx; refine (have hsx : Kept kb kl bl ko sx := ?_; ?_); on_goal 2 => (try clear_value sx))
    | (intro sx; try clear_value sx)
    | lift_lets
    | apply kept_setEcc
    | apply kept_ite
    | split
    | dsimp only [sx]
    | refine Kept.of_mk ?_

theorem kept_scrubWordAt {w : Nat} {flip : BitVec 72} {s : State} (h_s : Kept kb kl bl ko s) (h_p_regs : Part.regs ∈ kl := by assumption) (h_p_ecc : Part.ecc ∈ kl := by assumption) (h_p_flt : Part.flt ∈ kl := by assumption) (h_p_cel : Part.cel ∈ kl := by assumption) (h_b_FLT : blkFLT ∈ bl := by assumption) (h_b_CEL : blkCEL ∈ bl := by assumption) :
    Kept kb kl bl ko (scrubWordAt w flip s) := by
  unfold scrubWordAt
  with_reducible repeat' first
    | assumption
    | (refine mem_guard ?_; with_unfolding_all (first | assumption | exact (by assumption : ∀ n, n ∈ bl) _ | exact blk_n (by decide) (by decide) (by assumption) | exact blk_un (by decide) (by decide) (by decide) (by assumption) | exact blk_ite (by assumption) (by assumption) | exact blk_ite (by exact blk_n (by decide) (by decide) (by assumption)) (by exact blk_n (by decide) (by decide) (by assumption))))
    | (refine kept_pair22 (by assumption) ?_)
    | (intro sx; refine (have hsx : Kept kb kl bl ko sx := ?_; ?_); on_goal 2 => (try clear_value sx))
    | (intro sx; refine (have hsx : Kept kb kl bl ko sx.2.2 := ?_; ?_); on_goal 2 => (try clear_value sx))
    | (intro sx; try clear_value sx)
    | lift_lets
    | apply kept_reportBad
    | apply kept_setEcc
    | apply kept_checkOne
    | apply kept_givePage
    | apply kept_st_wr
    | apply kept_ite
    | apply kept_ite22
    | split
    | dsimp only [sx]
    | refine Kept.of_mk ?_

theorem kept_scrubRead {flip : BitVec 72} {s : State} (h_s : Kept kb kl bl ko s) (h_p_regs : Part.regs ∈ kl := by assumption) (h_p_ecc : Part.ecc ∈ kl := by assumption) (h_p_flt : Part.flt ∈ kl := by assumption) (h_p_cel : Part.cel ∈ kl := by assumption) (h_b_FLT : blkFLT ∈ bl := by assumption) (h_b_CEL : blkCEL ∈ bl := by assumption) :
    Kept kb kl bl ko (scrubRead flip s) := by
  unfold scrubRead
  with_reducible repeat' first
    | assumption
    | (intro sx; refine (have hsx : Kept kb kl bl ko sx := ?_; ?_); on_goal 2 => (try clear_value sx))
    | intro sx
    | lift_lets
    | apply kept_scrubWordAt
    | apply kept_scrubWriteBack
    | apply kept_ite
    | split
    | dsimp only [sx]
    | refine Kept.of_mk ?_

theorem kept_showFences {s : State} (h_s : Kept kb kl bl ko s) (h_p_regs : Part.regs ∈ kl := by assumption) (h_b_CEL : blkCEL ∈ bl := by assumption) :
    Kept kb kl bl ko (showFences s) := by
  unfold showFences
  with_reducible repeat' first
    | assumption
    | (refine mem_guard ?_; with_unfolding_all (first | assumption | exact (by assumption : ∀ n, n ∈ bl) _ | exact blk_n (by decide) (by decide) (by assumption) | exact blk_un (by decide) (by decide) (by decide) (by assumption)))
    | apply kept_st_wr
    | refine Kept.of_mk ?_

theorem kept_correctRow {r : Nat} {s : State} (h_s : Kept kb kl bl ko s) (h_p_ecc : Part.ecc ∈ kl := by assumption) : Kept kb kl bl ko (correctRow r s) :=
  ⟨fun b => ⟨(h_s.1 b).1, (h_s.1 b).2.1, (h_s.1 b).2.2.1, (h_s.1 b).2.2.2.1, SMap.wfFrom_filter _ _ (h_s.1 b).2.2.2.2⟩, h_s.2.1.ecc h_p_ecc, h_s.2.2⟩

theorem kept_rowTest {a : Nat} {s : State} (h_s : Kept kb kl bl ko s) (h_p_regs : Part.regs ∈ kl := by assumption) (h_p_ecc : Part.ecc ∈ kl := by assumption) (h_p_cel : Part.cel ∈ kl := by assumption) (h_b_CEL : blkCEL ∈ bl := by assumption) :
    Kept kb kl bl ko (rowTest a s) := by
  unfold rowTest
  with_reducible repeat' first
    | assumption
    | (intro sx; refine (have hsx : Kept kb kl bl ko sx := ?_; ?_); on_goal 2 => (try clear_value sx))
    | (intro sx; try clear_value sx)
    | lift_lets
    | apply kept_correctRow
    | apply kept_showFences
    | apply kept_ite
    | refine Kept.of_mk ?_
    | split

theorem kept_fenceFree {r : Nat} {s : State} (h_s : Kept kb kl bl ko s) (h_p_regs : Part.regs ∈ kl := by assumption) (h_p_ecc : Part.ecc ∈ kl := by assumption) (h_p_cel : Part.cel ∈ kl := by assumption) (h_b_CEL : blkCEL ∈ bl := by assumption) :
    Kept kb kl bl ko (fenceFree r s) := by
  unfold fenceFree
  with_reducible repeat' first
    | assumption
    | (intro sx; refine (have hsx : Kept kb kl bl ko sx := ?_; ?_); on_goal 2 => (try clear_value sx))
    | (intro sx; try clear_value sx)
    | lift_lets
    | apply kept_correctRow
    | apply kept_showFences
    | split
    | dsimp only [sx]
    | refine Kept.of_mk ?_

theorem kept_rowResult {r : Nat} {result : Nat} {s : State} (h_s : Kept kb kl bl ko s) (h_p_regs : Part.regs ∈ kl := by assumption) (h_b_CEL : blkCEL ∈ bl := by assumption) :
    Kept kb kl bl ko (rowResult r result s) := by
  unfold rowResult
  with_reducible repeat' first
    | assumption
    | (refine mem_guard ?_; with_unfolding_all (first | assumption | exact (by assumption : ∀ n, n ∈ bl) _ | exact blk_n (by decide) (by decide) (by assumption) | exact blk_un (by decide) (by decide) (by decide) (by assumption)))
    | apply kept_st_wr
    | refine Kept.of_mk ?_

theorem kept_retireRow {r : Nat} {s : State} (h_s : Kept kb kl bl ko s) (h_p_regs : Part.regs ∈ kl := by assumption) (h_p_cel : Part.cel ∈ kl := by assumption) (h_b_CEL : blkCEL ∈ bl := by assumption) :
    Kept kb kl bl ko (retireRow r s) := by
  unfold retireRow
  with_reducible repeat' first
    | assumption
    | (intro sx; refine (have hsx : Kept kb kl bl ko sx := ?_; ?_); on_goal 2 => (try clear_value sx))
    | (intro sx; try clear_value sx)
    | lift_lets
    | apply kept_showPages
    | apply kept_ite
    | refine Kept.of_mk ?_
    | split

theorem kept_rowTestDone {a : Nat} {pass : Bool} {spare : Bool} {s : State} (h_s : Kept kb kl bl ko s) (h_p_regs : Part.regs ∈ kl := by assumption) (h_p_ecc : Part.ecc ∈ kl := by assumption) (h_p_free : Part.free ∈ kl := by assumption) (h_p_cel : Part.cel ∈ kl := by assumption) (h_b_CEL : blkCEL ∈ bl := by assumption) :
    Kept kb kl bl ko (rowTestDone a pass spare s).1 := by
  unfold rowTestDone
  with_reducible repeat' first
    | assumption
    | (refine mem_guard ?_; with_unfolding_all (first | assumption | exact (by assumption : ∀ n, n ∈ bl) _ | exact blk_n (by decide) (by decide) (by assumption) | exact blk_un (by decide) (by decide) (by decide) (by assumption) | exact blk_ite (by assumption) (by assumption) | exact blk_ite (by exact blk_n (by decide) (by decide) (by assumption)) (by exact blk_n (by decide) (by decide) (by assumption))))
    | (intro sx; refine (have hsx : Kept kb kl bl ko sx := ?_; ?_); on_goal 2 => (try clear_value sx))
    | (intro sx; refine (have hsx : Kept kb kl bl ko sx.2 := ?_; ?_); on_goal 2 => (try clear_value sx))
    | (intro sx; try clear_value sx)
    | lift_lets
    | apply kept_retireRow
    | apply kept_st_put
    | apply kept_showFences
    | apply kept_fenceFree
    | apply kept_rowResult
    | apply kept_draw
    | apply kept_ite
    | apply kept_ite1
    | apply kept_ite2
    | apply kept_ite21
    | apply kept_ite22
    | refine Kept.of_mk ?_
    | split

theorem kept_casDown {s : State} (h_s : Kept kb kl bl ko s) (h_p_regs : Part.regs ∈ kl := by assumption) (h_p_cas : Part.cas ∈ kl := by assumption) (h_b_CAS : blkCAS ∈ bl := by assumption) :
    Kept kb kl bl ko (casDown s) := by
  unfold casDown
  with_reducible repeat' first
    | assumption
    | apply kept_casOff
    | (apply kept_foldl; intro sy xy hy)
    | (apply kept_foldl2; intro sy xy hy)
    | (apply kept_foldl1; intro sy xy hy)
    | refine Kept.of_mk ?_

theorem kept_blockStopped {n : Nat} {s : State} (h_s : Kept kb kl bl ko s) (h_p_regs : Part.regs ∈ kl := by assumption) (h_p_cfg : Part.cfg ∈ kl := by assumption) (h_p_flt : Part.flt ∈ kl := by assumption) (h_p_cel : Part.cel ∈ kl := by assumption) (h_p_sch : Part.sch ∈ kl := by assumption) (h_p_kln : Part.kln ∈ kl := by assumption) (h_p_act : Part.act ∈ kl := by assumption) (h_p_ube : Part.ube ∈ kl := by assumption) (h_p_chp : Part.chp ∈ kl := by assumption) (h_p_dsf : Part.dsf ∈ kl := by assumption) (h_p_ohs : Part.ohs ∈ kl := by assumption) (h_p_pipes : Part.pipes ∈ kl := by assumption) (h_p_spc : Part.spc ∈ kl := by assumption) (h_p_tim : Part.tim ∈ kl := by assumption) (h_p_cas : Part.cas ∈ kl := by assumption) (h_b_CFG : blkCFG ∈ bl := by assumption) (h_b_FLT : blkFLT ∈ bl := by assumption) (h_b_LPH : blkLPH ∈ bl := by assumption) (h_b_DSF : blkDSF ∈ bl := by assumption) (h_b_ACT : blkACT ∈ bl := by assumption) (h_b_UBE : blkUBE ∈ bl := by assumption) (h_b_CHP : blkCHP ∈ bl := by assumption) (h_b_SPC : blkSPC ∈ bl := by assumption) (h_b_CEL : blkCEL ∈ bl := by assumption) (h_b_KLN : blkKLN ∈ bl := by assumption) (h_b_TIM : blkTIM ∈ bl := by assumption) (h_b_CAS : blkCAS ∈ bl := by assumption) :
    Kept kb kl bl ko (blockStopped n s) := by
  unfold blockStopped
  with_reducible repeat' first
    | assumption
    | (refine mem_guard ?_; with_unfolding_all (first | assumption | exact (by assumption : ∀ n, n ∈ bl) _ | exact blk_n (by decide) (by decide) (by assumption) | exact blk_un (by decide) (by decide) (by decide) (by assumption) | exact blk_ite (by assumption) (by assumption) | exact blk_ite (by exact blk_n (by decide) (by decide) (by assumption)) (by exact blk_n (by decide) (by decide) (by assumption))))
    | (intro sx; refine (have hsx : Kept kb kl bl ko sx := ?_; ?_); on_goal 2 => (try clear_value sx))
    | (intro sx; try clear_value sx)
    | lift_lets
    | apply kept_casDown
    | apply kept_st_setBit
    | apply kept_shutDownAll
    | apply kept_ite
    | refine Kept.of_mk ?_
    | split

theorem kept_blockRestart {n : Nat} {s : State} (h_s : Kept kb kl bl ko s) (h_p_regs : Part.regs ∈ kl := by assumption) (h_p_mem : Part.mem ∈ kl := by assumption) (h_p_ecc : Part.ecc ∈ kl := by assumption) (h_p_cfg : Part.cfg ∈ kl := by assumption) (h_p_flt : Part.flt ∈ kl := by assumption) (h_p_tsk : Part.tsk ∈ kl := by assumption) (h_p_cel : Part.cel ∈ kl := by assumption) (h_p_sch : Part.sch ∈ kl := by assumption) (h_p_kln : Part.kln ∈ kl := by assumption) (h_p_act : Part.act ∈ kl := by assumption) (h_p_ube : Part.ube ∈ kl := by assumption) (h_p_chp : Part.chp ∈ kl := by assumption) (h_p_dsf : Part.dsf ∈ kl := by assumption) (h_p_ohs : Part.ohs ∈ kl := by assumption) (h_p_pipes : Part.pipes ∈ kl := by assumption) (h_p_spc : Part.spc ∈ kl := by assumption) (h_p_tim : Part.tim ∈ kl := by assumption) (h_p_cas : Part.cas ∈ kl := by assumption) (h_b_CFG : blkCFG ∈ bl := by assumption) (h_b_FLT : blkFLT ∈ bl := by assumption) (h_b_TSK : blkTSK ∈ bl := by assumption) (h_b_LPH : blkLPH ∈ bl := by assumption) (h_b_DSF : blkDSF ∈ bl := by assumption) (h_b_ACT : blkACT ∈ bl := by assumption) (h_b_UBE : blkUBE ∈ bl := by assumption) (h_b_CHP : blkCHP ∈ bl := by assumption) (h_b_SPC : blkSPC ∈ bl := by assumption) (h_b_CEL : blkCEL ∈ bl := by assumption) (h_b_KLN : blkKLN ∈ bl := by assumption) (h_b_TIM : blkTIM ∈ bl := by assumption) (h_b_CAS : blkCAS ∈ bl := by assumption) :
    Kept kb kl bl ko (blockRestart n s) := by
  unfold blockRestart
  with_reducible repeat' first
    | assumption
    | (refine mem_guard ?_; with_unfolding_all (first | assumption | exact (by assumption : ∀ n, n ∈ bl) _ | exact blk_n (by decide) (by decide) (by assumption) | exact blk_un (by decide) (by decide) (by decide) (by assumption) | exact blk_ite (by assumption) (by assumption) | exact blk_ite (by exact blk_n (by decide) (by decide) (by assumption)) (by exact blk_n (by decide) (by decide) (by assumption))))
    | (intro sx; refine (have hsx : Kept kb kl bl ko sx := ?_; ?_); on_goal 2 => (try clear_value sx))
    | (intro sx; try clear_value sx)
    | lift_lets
    | apply kept_st_clrBit
    | apply kept_actPoll
    | apply kept_tskClock
    | apply kept_casDetect
    | apply kept_ite
    | (apply kept_foldl; intro sy xy hy)
    | (apply kept_foldl2; intro sy xy hy)
    | (apply kept_foldl1; intro sy xy hy)
    | refine Kept.of_mk ?_
    | split

theorem kept_configApplied {s : State} (h_s : Kept kb kl bl ko s) (h_p_regs : Part.regs ∈ kl := by assumption) (h_p_mem : Part.mem ∈ kl := by assumption) (h_p_ecc : Part.ecc ∈ kl := by assumption) (h_p_cfg : Part.cfg ∈ kl := by assumption) (h_p_flt : Part.flt ∈ kl := by assumption) (h_p_tsk : Part.tsk ∈ kl := by assumption) (h_p_cel : Part.cel ∈ kl := by assumption) (h_p_sch : Part.sch ∈ kl := by assumption) (h_p_kln : Part.kln ∈ kl := by assumption) (h_p_act : Part.act ∈ kl := by assumption) (h_p_ube : Part.ube ∈ kl := by assumption) (h_p_chp : Part.chp ∈ kl := by assumption) (h_p_dsf : Part.dsf ∈ kl := by assumption) (h_p_ohs : Part.ohs ∈ kl := by assumption) (h_p_pipes : Part.pipes ∈ kl := by assumption) (h_p_spc : Part.spc ∈ kl := by assumption) (h_p_tim : Part.tim ∈ kl := by assumption) (h_p_cas : Part.cas ∈ kl := by assumption) (h_b_CFG : blkCFG ∈ bl := by assumption) (h_b_FLT : blkFLT ∈ bl := by assumption) (h_b_TSK : blkTSK ∈ bl := by assumption) (h_b_LPH : blkLPH ∈ bl := by assumption) (h_b_DSF : blkDSF ∈ bl := by assumption) (h_b_ACT : blkACT ∈ bl := by assumption) (h_b_UBE : blkUBE ∈ bl := by assumption) (h_b_CHP : blkCHP ∈ bl := by assumption) (h_b_SPC : blkSPC ∈ bl := by assumption) (h_b_CEL : blkCEL ∈ bl := by assumption) (h_b_KLN : blkKLN ∈ bl := by assumption) (h_b_TIM : blkTIM ∈ bl := by assumption) (h_b_CAS : blkCAS ∈ bl := by assumption) :
    Kept kb kl bl ko (configApplied s) := by
  unfold configApplied
  with_reducible repeat' first
    | assumption
    | apply kept_blockRestart
    | apply kept_ite
    | (apply kept_foldl; intro sy xy hy)
    | (apply kept_foldl2; intro sy xy hy)
    | (apply kept_foldl1; intro sy xy hy)
    | refine Kept.of_mk ?_
    | split

theorem kept_stopBlocks {l : List Nat} {s : State} (h_s : Kept kb kl bl ko s) (h_p_regs : Part.regs ∈ kl := by assumption) (h_p_cfg : Part.cfg ∈ kl := by assumption) (h_p_flt : Part.flt ∈ kl := by assumption) (h_p_cel : Part.cel ∈ kl := by assumption) (h_p_sch : Part.sch ∈ kl := by assumption) (h_p_kln : Part.kln ∈ kl := by assumption) (h_p_act : Part.act ∈ kl := by assumption) (h_p_ube : Part.ube ∈ kl := by assumption) (h_p_chp : Part.chp ∈ kl := by assumption) (h_p_dsf : Part.dsf ∈ kl := by assumption) (h_p_ohs : Part.ohs ∈ kl := by assumption) (h_p_pipes : Part.pipes ∈ kl := by assumption) (h_p_spc : Part.spc ∈ kl := by assumption) (h_p_tim : Part.tim ∈ kl := by assumption) (h_p_cas : Part.cas ∈ kl := by assumption) (h_b_CFG : blkCFG ∈ bl := by assumption) (h_b_FLT : blkFLT ∈ bl := by assumption) (h_b_LPH : blkLPH ∈ bl := by assumption) (h_b_DSF : blkDSF ∈ bl := by assumption) (h_b_ACT : blkACT ∈ bl := by assumption) (h_b_UBE : blkUBE ∈ bl := by assumption) (h_b_CHP : blkCHP ∈ bl := by assumption) (h_b_SPC : blkSPC ∈ bl := by assumption) (h_b_CEL : blkCEL ∈ bl := by assumption) (h_b_KLN : blkKLN ∈ bl := by assumption) (h_b_TIM : blkTIM ∈ bl := by assumption) (h_b_CAS : blkCAS ∈ bl := by assumption) :
    Kept kb kl bl ko (stopBlocks l s) := by
  unfold stopBlocks
  with_reducible repeat' first
    | assumption
    | (refine mem_guard ?_; with_unfolding_all (first | assumption | exact (by assumption : ∀ n, n ∈ bl) _ | exact blk_n (by decide) (by decide) (by assumption) | exact blk_un (by decide) (by decide) (by decide) (by assumption)))
    | apply kept_st_clrBit
    | apply kept_blockStopped
    | (apply kept_foldl; intro sy xy hy)
    | (apply kept_foldl2; intro sy xy hy)
    | (apply kept_foldl1; intro sy xy hy)
    | refine Kept.of_mk ?_

theorem kept_runBlocks {l : List Nat} {s : State} (h_s : Kept kb kl bl ko s) (h_p_regs : Part.regs ∈ kl := by assumption) (h_p_mem : Part.mem ∈ kl := by assumption) (h_p_ecc : Part.ecc ∈ kl := by assumption) (h_p_cfg : Part.cfg ∈ kl := by assumption) (h_p_flt : Part.flt ∈ kl := by assumption) (h_p_tsk : Part.tsk ∈ kl := by assumption) (h_p_cel : Part.cel ∈ kl := by assumption) (h_p_sch : Part.sch ∈ kl := by assumption) (h_p_kln : Part.kln ∈ kl := by assumption) (h_p_act : Part.act ∈ kl := by assumption) (h_p_ube : Part.ube ∈ kl := by assumption) (h_p_chp : Part.chp ∈ kl := by assumption) (h_p_dsf : Part.dsf ∈ kl := by assumption) (h_p_ohs : Part.ohs ∈ kl := by assumption) (h_p_pipes : Part.pipes ∈ kl := by assumption) (h_p_spc : Part.spc ∈ kl := by assumption) (h_p_tim : Part.tim ∈ kl := by assumption) (h_p_cas : Part.cas ∈ kl := by assumption) (h_b_CFG : blkCFG ∈ bl := by assumption) (h_b_FLT : blkFLT ∈ bl := by assumption) (h_b_TSK : blkTSK ∈ bl := by assumption) (h_b_LPH : blkLPH ∈ bl := by assumption) (h_b_DSF : blkDSF ∈ bl := by assumption) (h_b_ACT : blkACT ∈ bl := by assumption) (h_b_UBE : blkUBE ∈ bl := by assumption) (h_b_CHP : blkCHP ∈ bl := by assumption) (h_b_SPC : blkSPC ∈ bl := by assumption) (h_b_CEL : blkCEL ∈ bl := by assumption) (h_b_KLN : blkKLN ∈ bl := by assumption) (h_b_TIM : blkTIM ∈ bl := by assumption) (h_b_CAS : blkCAS ∈ bl := by assumption) :
    Kept kb kl bl ko (runBlocks l s) := by
  unfold runBlocks
  with_reducible repeat' first
    | assumption
    | (refine mem_guard ?_; with_unfolding_all (first | assumption | exact (by assumption : ∀ n, n ∈ bl) _ | exact blk_n (by decide) (by decide) (by assumption) | exact blk_un (by decide) (by decide) (by decide) (by assumption)))
    | apply kept_blockRestart
    | apply kept_st_setBit
    | (apply kept_foldl; intro sy xy hy)
    | (apply kept_foldl2; intro sy xy hy)
    | (apply kept_foldl1; intro sy xy hy)
    | refine Kept.of_mk ?_

theorem kept_pairDown {k : Nat} {s : State} (h_s : Kept kb kl bl ko s) (h_p_regs : Part.regs ∈ kl := by assumption) (h_p_shadow : Part.shadow ∈ kl := by assumption) (h_p_cfg : Part.cfg ∈ kl := by assumption) (h_p_cel : Part.cel ∈ kl := by assumption) (h_p_sch : Part.sch ∈ kl := by assumption) (h_p_gcl : Part.gcl ∈ kl := by assumption) (h_p_kln : Part.kln ∈ kl := by assumption) (h_p_act : Part.act ∈ kl := by assumption) (h_p_ube : Part.ube ∈ kl := by assumption) (h_p_chp : Part.chp ∈ kl := by assumption) (h_p_dsf : Part.dsf ∈ kl := by assumption) (h_p_ohs : Part.ohs ∈ kl := by assumption) (h_p_pipes : Part.pipes ∈ kl := by assumption) (h_p_cls : Part.cls ∈ kl := by assumption) (h_p_spc : Part.spc ∈ kl := by assumption) (h_p_lph : Part.lph ∈ kl := by assumption) (h_p_tim : Part.tim ∈ kl := by assumption) (h_b_CFG : blkCFG ∈ bl := by assumption) (h_b_LPH : blkLPH ∈ bl := by assumption) (h_b_DSF : blkDSF ∈ bl := by assumption) (h_b_ACT : blkACT ∈ bl := by assumption) (h_b_UBE : blkUBE ∈ bl := by assumption) (h_b_CHP : blkCHP ∈ bl := by assumption) (h_b_CLS : blkCLS ∈ bl := by assumption) (h_b_SPC : blkSPC ∈ bl := by assumption) (h_b_CEL : blkCEL ∈ bl := by assumption) (h_b_GCL : blkGCL ∈ bl := by assumption) (h_b_KLN : blkKLN ∈ bl := by assumption) (h_b_TIM : blkTIM ∈ bl := by assumption) :
    Kept kb kl bl ko (pairDown k s) := by
  unfold pairDown
  with_reducible repeat' first
    | assumption
    | (intro sx; refine (have hsx : Kept kb kl bl ko sx := ?_; ?_); on_goal 2 => (try clear_value sx))
    | (intro sx; try clear_value sx)
    | lift_lets
    | apply kept_calEnable
    | apply kept_rxDown
    | apply kept_ite
    | refine Kept.of_mk ?_
    | split

theorem kept_pairUp {k : Nat} {s : State} (h_s : Kept kb kl bl ko s) (h_p_regs : Part.regs ∈ kl := by assumption) (h_p_free : Part.free ∈ kl := by assumption) (h_p_lph : Part.lph ∈ kl := by assumption) (h_b_LPH : blkLPH ∈ bl := by assumption) (h_b_DSF : blkDSF ∈ bl := by assumption) :
    Kept kb kl bl ko (pairUp k s) := by
  unfold pairUp
  with_reducible repeat' first
    | assumption
    | (intro sx; refine (have hsx : Kept kb kl bl ko sx := ?_; ?_); on_goal 2 => (try clear_value sx))
    | (intro sx; try clear_value sx)
    | lift_lets
    | apply kept_calEnable
    | apply kept_rxUp
    | apply kept_assertLof
    | apply kept_ite
    | refine Kept.of_mk ?_
    | split

theorem kept_servicePower {s : State} (h_s : Kept kb kl bl ko s) (h_p_regs : Part.regs ∈ kl := by assumption) (h_p_shadow : Part.shadow ∈ kl := by assumption) (h_p_free : Part.free ∈ kl := by assumption) (h_p_cfg : Part.cfg ∈ kl := by assumption) (h_p_pwr : Part.pwr ∈ kl := by assumption) (h_p_cel : Part.cel ∈ kl := by assumption) (h_p_sch : Part.sch ∈ kl := by assumption) (h_p_gcl : Part.gcl ∈ kl := by assumption) (h_p_kln : Part.kln ∈ kl := by assumption) (h_p_act : Part.act ∈ kl := by assumption) (h_p_ube : Part.ube ∈ kl := by assumption) (h_p_chp : Part.chp ∈ kl := by assumption) (h_p_dsf : Part.dsf ∈ kl := by assumption) (h_p_ohs : Part.ohs ∈ kl := by assumption) (h_p_pipes : Part.pipes ∈ kl := by assumption) (h_p_cls : Part.cls ∈ kl := by assumption) (h_p_spc : Part.spc ∈ kl := by assumption) (h_p_mac : Part.mac ∈ kl := by assumption) (h_p_lph : Part.lph ∈ kl := by assumption) (h_p_tim : Part.tim ∈ kl := by assumption) (h_b_CFG : blkCFG ∈ bl := by assumption) (h_b_PWR : blkPWR ∈ bl := by assumption) (h_b_LPH : blkLPH ∈ bl := by assumption) (h_b_DSF : blkDSF ∈ bl := by assumption) (h_b_ACT : blkACT ∈ bl := by assumption) (h_b_UBE : blkUBE ∈ bl := by assumption) (h_b_CHP : blkCHP ∈ bl := by assumption) (h_b_CLS : blkCLS ∈ bl := by assumption) (h_b_SPC : blkSPC ∈ bl := by assumption) (h_b_CEL : blkCEL ∈ bl := by assumption) (h_b_GCL : blkGCL ∈ bl := by assumption) (h_b_KLN : blkKLN ∈ bl := by assumption) (h_b_MAC : blkMAC ∈ bl := by assumption) (h_b_TIM : blkTIM ∈ bl := by assumption) :
    Kept kb kl bl ko (servicePower s) := by
  unfold servicePower
  with_reducible repeat' first
    | assumption
    | (refine mem_guard ?_; with_unfolding_all (first | assumption | exact (by assumption : ∀ n, n ∈ bl) _ | exact blk_n (by decide) (by decide) (by assumption) | exact blk_un (by decide) (by decide) (by decide) (by assumption) | exact blk_ite (by assumption) (by assumption) | exact blk_ite (by exact blk_n (by decide) (by decide) (by assumption)) (by exact blk_n (by decide) (by decide) (by assumption))))
    | (intro sx; refine (have hsx : Kept kb kl bl ko sx := ?_; ?_); on_goal 2 => (try clear_value sx))
    | intro sx
    | lift_lets
    | apply kept_pairDown
    | apply kept_phyDown
    | apply kept_pairUp
    | apply kept_st_wr
    | apply kept_ite
    | (apply kept_foldl; intro sy xy hy)
    | (apply kept_foldl2; intro sy xy hy)
    | (apply kept_foldl1; intro sy xy hy)
    | refine Kept.of_mk ?_
    | split

theorem kept_enterSafe {cause : Nat} {s : State} (h_s : Kept kb kl bl ko s) (h_p_regs : Part.regs ∈ kl := by assumption) (h_p_cfg : Part.cfg ∈ kl := by assumption) (h_p_flt : Part.flt ∈ kl := by assumption) (h_p_cel : Part.cel ∈ kl := by assumption) (h_p_sch : Part.sch ∈ kl := by assumption) (h_p_kln : Part.kln ∈ kl := by assumption) (h_p_act : Part.act ∈ kl := by assumption) (h_p_ube : Part.ube ∈ kl := by assumption) (h_p_chp : Part.chp ∈ kl := by assumption) (h_p_dsf : Part.dsf ∈ kl := by assumption) (h_p_ohs : Part.ohs ∈ kl := by assumption) (h_p_pipes : Part.pipes ∈ kl := by assumption) (h_p_spc : Part.spc ∈ kl := by assumption) (h_p_mac : Part.mac ∈ kl := by assumption) (h_p_tim : Part.tim ∈ kl := by assumption) (h_p_cas : Part.cas ∈ kl := by assumption) (h_b_CFG : blkCFG ∈ bl := by assumption) (h_b_FLT : blkFLT ∈ bl := by assumption) (h_b_LPH : blkLPH ∈ bl := by assumption) (h_b_DSF : blkDSF ∈ bl := by assumption) (h_b_ACT : blkACT ∈ bl := by assumption) (h_b_UBE : blkUBE ∈ bl := by assumption) (h_b_CHP : blkCHP ∈ bl := by assumption) (h_b_SPC : blkSPC ∈ bl := by assumption) (h_b_CEL : blkCEL ∈ bl := by assumption) (h_b_KLN : blkKLN ∈ bl := by assumption) (h_b_TIM : blkTIM ∈ bl := by assumption) (h_b_CAS : blkCAS ∈ bl := by assumption) :
    Kept kb kl bl ko (enterSafe cause s) := by
  unfold enterSafe
  with_reducible repeat' first
    | assumption
    | (refine mem_guard ?_; with_unfolding_all (first | assumption | exact (by assumption : ∀ n, n ∈ bl) _ | exact blk_n (by decide) (by decide) (by assumption) | exact blk_un (by decide) (by decide) (by decide) (by assumption) | exact blk_ite (by assumption) (by assumption) | exact blk_ite (by exact blk_n (by decide) (by decide) (by assumption)) (by exact blk_n (by decide) (by decide) (by assumption))))
    | (intro sx; refine (have hsx : Kept kb kl bl ko sx := ?_; ?_); on_goal 2 => (try clear_value sx))
    | (intro sx; try clear_value sx)
    | lift_lets
    | apply kept_st_put
    | apply kept_macSafe
    | apply kept_stopBlocks
    | apply kept_st_wr
    | apply kept_shutDownAll
    | apply kept_ite
    | refine Kept.of_mk ?_
    | split

theorem kept_safeWindow {src : Nat} {unit : Nat} {s : State} (h_s : Kept kb kl bl ko s) (h_p_flt : Part.flt ∈ kl := by assumption) :
    Kept kb kl bl ko (safeWindow src unit s) := by
  unfold safeWindow
  with_reducible repeat' first
    | assumption
    | apply kept_ite
    | refine Kept.of_mk ?_
    | split

theorem kept_haltHarts {s : State} (h_s : Kept kb kl bl ko s) (h_p_flt : Part.flt ∈ kl := by assumption) (h_p_harts : Part.harts ∈ kl := by assumption) :
    Kept kb kl bl ko (haltHarts s) := by
  unfold haltHarts
  with_reducible repeat' first
    | assumption
    | apply kept_st_setHart
    | (apply kept_foldl; intro sy xy hy)
    | (apply kept_foldl2; intro sy xy hy)
    | (apply kept_foldl1; intro sy xy hy)
    | refine Kept.of_mk ?_

theorem kept_safeExit {level : Nat} {s : State} (h_s : Kept kb kl bl ko s) (h_p_regs : Part.regs ∈ kl := by assumption) (h_p_flt : Part.flt ∈ kl := by assumption) (h_b_FLT : blkFLT ∈ bl := by assumption) :
    Kept kb kl bl ko (safeExit level s) := by
  unfold safeExit
  with_reducible repeat' first
    | assumption
    | (refine mem_guard ?_; with_unfolding_all (first | assumption | exact (by assumption : ∀ n, n ∈ bl) _ | exact blk_n (by decide) (by decide) (by assumption) | exact blk_un (by decide) (by decide) (by decide) (by assumption) | exact blk_ite (by assumption) (by assumption) | exact blk_ite (by exact blk_n (by decide) (by decide) (by assumption)) (by exact blk_n (by decide) (by decide) (by assumption))))
    | (intro sx; refine (have hsx : Kept kb kl bl ko sx := ?_; ?_); on_goal 2 => (try clear_value sx))
    | (intro sx; try clear_value sx)
    | lift_lets
    | apply kept_st_put
    | apply kept_st_wr
    | apply kept_ite
    | refine Kept.of_mk ?_
    | split

theorem kept_pipeReset {i : Nat} {s : State} (h_s : Kept kb kl bl ko s) (h_p_regs : Part.regs ∈ kl := by assumption) (h_p_shadow : Part.shadow ∈ kl := by assumption) (h_p_free : Part.free ∈ kl := by assumption) (h_p_cfg : Part.cfg ∈ kl := by assumption) (h_p_flt : Part.flt ∈ kl := by assumption) (h_p_cel : Part.cel ∈ kl := by assumption) (h_p_sch : Part.sch ∈ kl := by assumption) (h_p_gcl : Part.gcl ∈ kl := by assumption) (h_p_pipes : Part.pipes ∈ kl := by assumption) (h_p_cls : Part.cls ∈ kl := by assumption) (h_p_spc : Part.spc ∈ kl := by assumption) (h_b_FLT : blkFLT ∈ bl := by assumption) (h_b_CLS : blkCLS ∈ bl := by assumption) (h_b_SPC : blkSPC ∈ bl := by assumption) (h_b_CEL : blkCEL ∈ bl := by assumption) (h_b_GCL : blkGCL ∈ bl := by assumption) :
    Kept kb kl bl ko (pipeReset i s) := by
  unfold pipeReset
  with_reducible repeat' first
    | assumption
    | (intro sx; refine (have hsx : Kept kb kl bl ko sx := ?_; ?_); on_goal 2 => (try clear_value sx))
    | intro sx
    | lift_lets
    | apply kept_fltSourceEvent
    | apply kept_drainFall
    | apply kept_squashWhere
    | apply kept_st_setPipe
    | apply kept_ite
    | (apply kept_foldl; intro sy xy hy)
    | (apply kept_foldl2; intro sy xy hy)
    | (apply kept_foldl1; intro sy xy hy)
    | split
    | dsimp only [sx]
    | refine Kept.of_mk ?_

theorem kept_laneOut {n : Nat} {s : State} (h_s : Kept kb kl bl ko s) (h_p_kln : Part.kln ∈ kl := by assumption) :
    Kept kb kl bl ko (laneOut n s) := by
  unfold laneOut
  with_reducible repeat' first
    | assumption
    | apply kept_ite
    | refine Kept.of_mk ?_
    | split

theorem kept_laneIn {n : Nat} {s : State} (h_s : Kept kb kl bl ko s) (h_p_kln : Part.kln ∈ kl := by assumption) :
    Kept kb kl bl ko (laneIn n s) := by
  unfold laneIn
  with_reducible repeat' first
    | assumption
    | refine Kept.of_mk ?_

theorem kept_resetUnit {u : FUnit} {s : State} (h_s : Kept kb kl bl ko s) (h_p_regs : Part.regs ∈ kl := by assumption) (h_p_shadow : Part.shadow ∈ kl := by assumption) (h_p_mem : Part.mem ∈ kl := by assumption) (h_p_ecc : Part.ecc ∈ kl := by assumption) (h_p_free : Part.free ∈ kl := by assumption) (h_p_cfg : Part.cfg ∈ kl := by assumption) (h_p_flt : Part.flt ∈ kl := by assumption) (h_p_tsk : Part.tsk ∈ kl := by assumption) (h_p_harts : Part.harts ∈ kl := by assumption) (h_p_cel : Part.cel ∈ kl := by assumption) (h_p_sch : Part.sch ∈ kl := by assumption) (h_p_gcl : Part.gcl ∈ kl := by assumption) (h_p_kln : Part.kln ∈ kl := by assumption) (h_p_act : Part.act ∈ kl := by assumption) (h_p_ube : Part.ube ∈ kl := by assumption) (h_p_chp : Part.chp ∈ kl := by assumption) (h_p_dsf : Part.dsf ∈ kl := by assumption) (h_p_ohs : Part.ohs ∈ kl := by assumption) (h_p_pipes : Part.pipes ∈ kl := by assumption) (h_p_cls : Part.cls ∈ kl := by assumption) (h_p_spc : Part.spc ∈ kl := by assumption) (h_p_mac : Part.mac ∈ kl := by assumption) (h_p_lph : Part.lph ∈ kl := by assumption) (h_p_tim : Part.tim ∈ kl := by assumption) (h_b_CFG : blkCFG ∈ bl := by assumption) (h_b_FLT : blkFLT ∈ bl := by assumption) (h_b_TSK : blkTSK ∈ bl := by assumption) (h_b_LPH : blkLPH ∈ bl := by assumption) (h_b_DSF : blkDSF ∈ bl := by assumption) (h_b_ACT : blkACT ∈ bl := by assumption) (h_b_UBE : blkUBE ∈ bl := by assumption) (h_b_CHP : blkCHP ∈ bl := by assumption) (h_b_CLS : blkCLS ∈ bl := by assumption) (h_b_SPC : blkSPC ∈ bl := by assumption) (h_b_CEL : blkCEL ∈ bl := by assumption) (h_b_GCL : blkGCL ∈ bl := by assumption) (h_b_KLN : blkKLN ∈ bl := by assumption) (h_b_MAC : blkMAC ∈ bl := by assumption) (h_b_TIM : blkTIM ∈ bl := by assumption) :
    Kept kb kl bl ko (resetUnit u s) := by
  unfold resetUnit
  with_reducible repeat' first
    | assumption
    | (refine mem_guard ?_; with_unfolding_all (first | assumption | exact (by assumption : ∀ n, n ∈ bl) _ | exact blk_n (by decide) (by decide) (by assumption) | exact blk_un (by decide) (by decide) (by decide) (by assumption) | exact blk_ite (by assumption) (by assumption) | exact blk_ite (by exact blk_n (by decide) (by decide) (by assumption)) (by exact blk_n (by decide) (by decide) (by assumption))))
    | apply kept_dsfLost
    | apply kept_hartReset
    | apply kept_pipeReset
    | apply kept_rxRestart
    | apply kept_phyDown
    | apply kept_laneOut
    | apply kept_st_wr
    | apply kept_chpReact
    | apply kept_ite
    | split
    | refine Kept.of_mk ?_

theorem kept_showLanes {s : State} (h_s : Kept kb kl bl ko s) (h_p_regs : Part.regs ∈ kl := by assumption) (h_b_FLT : blkFLT ∈ bl := by assumption) :
    Kept kb kl bl ko (showLanes s) := by
  unfold showLanes
  with_reducible repeat' first
    | assumption
    | (refine mem_guard ?_; with_unfolding_all (first | assumption | exact (by assumption : ∀ n, n ∈ bl) _ | exact blk_n (by decide) (by decide) (by assumption) | exact blk_un (by decide) (by decide) (by decide) (by assumption)))
    | apply kept_st_wr
    | split
    | refine Kept.of_mk ?_

theorem kept_isolate {src unit : Nat} {lasting : Bool} {s : State} (h_s : Kept kb kl bl ko s) (h_p_regs : Part.regs ∈ kl := by assumption) (h_p_shadow : Part.shadow ∈ kl := by assumption) (h_p_mem : Part.mem ∈ kl := by assumption) (h_p_ecc : Part.ecc ∈ kl := by assumption) (h_p_free : Part.free ∈ kl := by assumption) (h_p_cfg : Part.cfg ∈ kl := by assumption) (h_p_flt : Part.flt ∈ kl := by assumption) (h_p_tsk : Part.tsk ∈ kl := by assumption) (h_p_harts : Part.harts ∈ kl := by assumption) (h_p_pwr : Part.pwr ∈ kl := by assumption) (h_p_cel : Part.cel ∈ kl := by assumption) (h_p_sch : Part.sch ∈ kl := by assumption) (h_p_gcl : Part.gcl ∈ kl := by assumption) (h_p_kln : Part.kln ∈ kl := by assumption) (h_p_act : Part.act ∈ kl := by assumption) (h_p_ube : Part.ube ∈ kl := by assumption) (h_p_chp : Part.chp ∈ kl := by assumption) (h_p_dsf : Part.dsf ∈ kl := by assumption) (h_p_ohs : Part.ohs ∈ kl := by assumption) (h_p_pipes : Part.pipes ∈ kl := by assumption) (h_p_cls : Part.cls ∈ kl := by assumption) (h_p_spc : Part.spc ∈ kl := by assumption) (h_p_mac : Part.mac ∈ kl := by assumption) (h_p_lph : Part.lph ∈ kl := by assumption) (h_p_tim : Part.tim ∈ kl := by assumption) (h_b_CFG : blkCFG ∈ bl := by assumption) (h_b_PWR : blkPWR ∈ bl := by assumption) (h_b_FLT : blkFLT ∈ bl := by assumption) (h_b_TSK : blkTSK ∈ bl := by assumption) (h_b_LPH : blkLPH ∈ bl := by assumption) (h_b_DSF : blkDSF ∈ bl := by assumption) (h_b_ACT : blkACT ∈ bl := by assumption) (h_b_UBE : blkUBE ∈ bl := by assumption) (h_b_CHP : blkCHP ∈ bl := by assumption) (h_b_CLS : blkCLS ∈ bl := by assumption) (h_b_SPC : blkSPC ∈ bl := by assumption) (h_b_CEL : blkCEL ∈ bl := by assumption) (h_b_GCL : blkGCL ∈ bl := by assumption) (h_b_KLN : blkKLN ∈ bl := by assumption) (h_b_MAC : blkMAC ∈ bl := by assumption) (h_b_TIM : blkTIM ∈ bl := by assumption) : Kept kb kl bl ko (isolate src unit lasting s) := by
  unfold isolate
  dsimp only
  refine kept_ite h_s (kept_showLanes (kept_servicePower ?_))
  have h1 : Kept kb kl bl ko { s with flt := { s.flt with isolated := (src, unit, lasting) :: s.flt.isolated } } := Kept.of_mk h_s
  split
  · exact kept_laneOut h1
  · exact kept_st_setHart (kept_hartReset h1)
  · exact h1

theorem kept_unitReturns {u : FUnit} {s : State} (h_s : Kept kb kl bl ko s) (h_p_regs : Part.regs ∈ kl := by assumption) (h_p_shadow : Part.shadow ∈ kl := by assumption) (h_p_free : Part.free ∈ kl := by assumption) (h_p_cfg : Part.cfg ∈ kl := by assumption) (h_p_harts : Part.harts ∈ kl := by assumption) (h_p_pwr : Part.pwr ∈ kl := by assumption) (h_p_cel : Part.cel ∈ kl := by assumption) (h_p_sch : Part.sch ∈ kl := by assumption) (h_p_gcl : Part.gcl ∈ kl := by assumption) (h_p_kln : Part.kln ∈ kl := by assumption) (h_p_act : Part.act ∈ kl := by assumption) (h_p_ube : Part.ube ∈ kl := by assumption) (h_p_chp : Part.chp ∈ kl := by assumption) (h_p_dsf : Part.dsf ∈ kl := by assumption) (h_p_ohs : Part.ohs ∈ kl := by assumption) (h_p_pipes : Part.pipes ∈ kl := by assumption) (h_p_cls : Part.cls ∈ kl := by assumption) (h_p_spc : Part.spc ∈ kl := by assumption) (h_p_mac : Part.mac ∈ kl := by assumption) (h_p_lph : Part.lph ∈ kl := by assumption) (h_p_tim : Part.tim ∈ kl := by assumption) (h_b_CFG : blkCFG ∈ bl := by assumption) (h_b_PWR : blkPWR ∈ bl := by assumption) (h_b_FLT : blkFLT ∈ bl := by assumption) (h_b_LPH : blkLPH ∈ bl := by assumption) (h_b_DSF : blkDSF ∈ bl := by assumption) (h_b_ACT : blkACT ∈ bl := by assumption) (h_b_UBE : blkUBE ∈ bl := by assumption) (h_b_CHP : blkCHP ∈ bl := by assumption) (h_b_CLS : blkCLS ∈ bl := by assumption) (h_b_SPC : blkSPC ∈ bl := by assumption) (h_b_CEL : blkCEL ∈ bl := by assumption) (h_b_GCL : blkGCL ∈ bl := by assumption) (h_b_KLN : blkKLN ∈ bl := by assumption) (h_b_MAC : blkMAC ∈ bl := by assumption) (h_b_TIM : blkTIM ∈ bl := by assumption) :
    Kept kb kl bl ko (unitReturns u s) := by
  unfold unitReturns
  with_reducible repeat' first
    | assumption
    | (intro sx; refine (have hsx : Kept kb kl bl ko sx := ?_; ?_); on_goal 2 => (try clear_value sx))
    | (intro sx; try clear_value sx)
    | lift_lets
    | apply kept_servicePower
    | apply kept_st_setHart
    | apply kept_laneIn
    | apply kept_showLanes
    | apply kept_ite
    | split
    | dsimp only [sx]
    | refine Kept.of_mk ?_

theorem kept_showRepair {s : State} (h_s : Kept kb kl bl ko s) (h_p_regs : Part.regs ∈ kl := by assumption) (h_b_FLT : blkFLT ∈ bl := by assumption) :
    Kept kb kl bl ko (showRepair s) := by
  unfold showRepair
  with_reducible repeat' first
    | assumption
    | (refine mem_guard ?_; with_unfolding_all (first | assumption | exact (by assumption : ∀ n, n ∈ bl) _ | exact blk_n (by decide) (by decide) (by assumption) | exact blk_un (by decide) (by decide) (by decide) (by assumption)))
    | apply kept_st_wr
    | refine Kept.of_mk ?_

theorem kept_fenceRow {r : Resource} {s : State} (h_s : Kept kb kl bl ko s) (h_p_regs : Part.regs ∈ kl := by assumption) (h_p_flt : Part.flt ∈ kl := by assumption) (h_b_FLT : blkFLT ∈ bl := by assumption) :
    Kept kb kl bl ko (fenceRow r s) := by
  unfold fenceRow
  with_reducible repeat' first
    | assumption
    | apply kept_showRepair
    | apply kept_ite
    | refine Kept.of_mk ?_
    | split

theorem kept_unfenceRow {r : Resource} {s : State} (h_s : Kept kb kl bl ko s) (h_p_regs : Part.regs ∈ kl := by assumption) (h_p_flt : Part.flt ∈ kl := by assumption) (h_b_FLT : blkFLT ∈ bl := by assumption) :
    Kept kb kl bl ko (unfenceRow r s) := by
  unfold unfenceRow
  with_reducible repeat' first
    | assumption
    | apply kept_showRepair
    | refine Kept.of_mk ?_

theorem kept_setVerdict {src : Nat} {v : Nat} {s : State} (h_s : Kept kb kl bl ko s) (h_p_flt : Part.flt ∈ kl := by assumption) :
    Kept kb kl bl ko (setVerdict src v s) := by
  unfold setVerdict
  with_reducible repeat' first
    | assumption
    | apply kept_st_setFrec
    | refine Kept.of_mk ?_

theorem kept_endReaction {s : State} (h_s : Kept kb kl bl ko s) (h_p_regs : Part.regs ∈ kl := by assumption) (h_p_mem : Part.mem ∈ kl := by assumption) (h_p_ecc : Part.ecc ∈ kl := by assumption) (h_p_flt : Part.flt ∈ kl := by assumption) (h_p_tsk : Part.tsk ∈ kl := by assumption) (h_b_FLT : blkFLT ∈ bl := by assumption) (h_b_TSK : blkTSK ∈ bl := by assumption) :
    Kept kb kl bl ko (endReaction s) := by
  unfold endReaction
  with_reducible repeat' first
    | assumption
    | (refine mem_guard ?_; with_unfolding_all (first | assumption | exact (by assumption : ∀ n, n ∈ bl) _ | exact blk_n (by decide) (by decide) (by assumption) | exact blk_un (by decide) (by decide) (by decide) (by assumption) | exact blk_ite (by assumption) (by assumption) | exact blk_ite (by exact blk_n (by decide) (by decide) (by assumption)) (by exact blk_n (by decide) (by decide) (by assumption))))
    | (intro sx; refine (have hsx : Kept kb kl bl ko sx := ?_; ?_); on_goal 2 => (try clear_value sx))
    | (intro sx; try clear_value sx)
    | lift_lets
    | apply kept_tskClock
    | apply kept_st_put
    | apply kept_fltSummary
    | apply kept_fltStart
    | apply kept_ite
    | split
    | dsimp only [sx]
    | refine Kept.of_mk ?_

theorem kept_beginTest {r : Reaction} {s : State} (h_s : Kept kb kl bl ko s) (h_p_regs : Part.regs ∈ kl := by assumption) (h_p_shadow : Part.shadow ∈ kl := by assumption) (h_p_mem : Part.mem ∈ kl := by assumption) (h_p_ecc : Part.ecc ∈ kl := by assumption) (h_p_free : Part.free ∈ kl := by assumption) (h_p_cfg : Part.cfg ∈ kl := by assumption) (h_p_flt : Part.flt ∈ kl := by assumption) (h_p_tsk : Part.tsk ∈ kl := by assumption) (h_p_pwr : Part.pwr ∈ kl := by assumption) (h_p_cel : Part.cel ∈ kl := by assumption) (h_p_sch : Part.sch ∈ kl := by assumption) (h_p_gcl : Part.gcl ∈ kl := by assumption) (h_p_kln : Part.kln ∈ kl := by assumption) (h_p_act : Part.act ∈ kl := by assumption) (h_p_ube : Part.ube ∈ kl := by assumption) (h_p_chp : Part.chp ∈ kl := by assumption) (h_p_dsf : Part.dsf ∈ kl := by assumption) (h_p_ohs : Part.ohs ∈ kl := by assumption) (h_p_pipes : Part.pipes ∈ kl := by assumption) (h_p_cls : Part.cls ∈ kl := by assumption) (h_p_spc : Part.spc ∈ kl := by assumption) (h_p_mac : Part.mac ∈ kl := by assumption) (h_p_lph : Part.lph ∈ kl := by assumption) (h_p_tim : Part.tim ∈ kl := by assumption) (h_b_CFG : blkCFG ∈ bl := by assumption) (h_b_PWR : blkPWR ∈ bl := by assumption) (h_b_FLT : blkFLT ∈ bl := by assumption) (h_b_TSK : blkTSK ∈ bl := by assumption) (h_b_LPH : blkLPH ∈ bl := by assumption) (h_b_DSF : blkDSF ∈ bl := by assumption) (h_b_ACT : blkACT ∈ bl := by assumption) (h_b_UBE : blkUBE ∈ bl := by assumption) (h_b_CHP : blkCHP ∈ bl := by assumption) (h_b_CLS : blkCLS ∈ bl := by assumption) (h_b_SPC : blkSPC ∈ bl := by assumption) (h_b_CEL : blkCEL ∈ bl := by assumption) (h_b_GCL : blkGCL ∈ bl := by assumption) (h_b_KLN : blkKLN ∈ bl := by assumption) (h_b_MAC : blkMAC ∈ bl := by assumption) (h_b_TIM : blkTIM ∈ bl := by assumption) : Kept kb kl bl ko (beginTest r s) := by
  unfold beginTest
  dsimp only
  refine kept_ite (kept_endReaction (kept_ite h_s (kept_setVerdict h_s))) (kept_ite (kept_endReaction (kept_setVerdict h_s)) ?_)
  have h1 : Kept kb kl bl ko { s with flt := { s.flt with testing := true } } := Kept.of_mk h_s
  have h2 := kept_setVerdict (src := r.src) (v := 1) h1
  generalize setVerdict r.src 1 { s with flt := { s.flt with testing := true } } = t at *
  split
  · exact kept_rowTest h2
  · exact kept_laneOut h2
  · exact kept_servicePower h2
  · exact kept_servicePower h2
  · exact kept_fenceRow h2

theorem kept_actReaction {r : Reaction} {s : State} (h_s : Kept kb kl bl ko s) (h_p_regs : Part.regs ∈ kl := by assumption) (h_p_shadow : Part.shadow ∈ kl := by assumption) (h_p_mem : Part.mem ∈ kl := by assumption) (h_p_ecc : Part.ecc ∈ kl := by assumption) (h_p_free : Part.free ∈ kl := by assumption) (h_p_cfg : Part.cfg ∈ kl := by assumption) (h_p_flt : Part.flt ∈ kl := by assumption) (h_p_tsk : Part.tsk ∈ kl := by assumption) (h_p_harts : Part.harts ∈ kl := by assumption) (h_p_pwr : Part.pwr ∈ kl := by assumption) (h_p_cel : Part.cel ∈ kl := by assumption) (h_p_sch : Part.sch ∈ kl := by assumption) (h_p_gcl : Part.gcl ∈ kl := by assumption) (h_p_kln : Part.kln ∈ kl := by assumption) (h_p_act : Part.act ∈ kl := by assumption) (h_p_ube : Part.ube ∈ kl := by assumption) (h_p_chp : Part.chp ∈ kl := by assumption) (h_p_dsf : Part.dsf ∈ kl := by assumption) (h_p_ohs : Part.ohs ∈ kl := by assumption) (h_p_pipes : Part.pipes ∈ kl := by assumption) (h_p_cls : Part.cls ∈ kl := by assumption) (h_p_spc : Part.spc ∈ kl := by assumption) (h_p_mac : Part.mac ∈ kl := by assumption) (h_p_lph : Part.lph ∈ kl := by assumption) (h_p_tim : Part.tim ∈ kl := by assumption) (h_p_cas : Part.cas ∈ kl := by assumption) (h_b_CFG : blkCFG ∈ bl := by assumption) (h_b_PWR : blkPWR ∈ bl := by assumption) (h_b_FLT : blkFLT ∈ bl := by assumption) (h_b_TSK : blkTSK ∈ bl := by assumption) (h_b_LPH : blkLPH ∈ bl := by assumption) (h_b_DSF : blkDSF ∈ bl := by assumption) (h_b_ACT : blkACT ∈ bl := by assumption) (h_b_UBE : blkUBE ∈ bl := by assumption) (h_b_CHP : blkCHP ∈ bl := by assumption) (h_b_CLS : blkCLS ∈ bl := by assumption) (h_b_SPC : blkSPC ∈ bl := by assumption) (h_b_CEL : blkCEL ∈ bl := by assumption) (h_b_GCL : blkGCL ∈ bl := by assumption) (h_b_KLN : blkKLN ∈ bl := by assumption) (h_b_MAC : blkMAC ∈ bl := by assumption) (h_b_TIM : blkTIM ∈ bl := by assumption) (h_b_CAS : blkCAS ∈ bl := by assumption) :
    Kept kb kl bl ko (actReaction r s) := by
  unfold actReaction
  with_reducible repeat' first
    | assumption
    | (intro sx; refine (have hsx : Kept kb kl bl ko sx := ?_; ?_); on_goal 2 => (try clear_value sx))
    | (intro sx; try clear_value sx)
    | lift_lets
    | apply kept_isolate
    | apply kept_st_setFrec
    | apply kept_safeWindow
    | apply kept_enterSafe
    | apply kept_resetUnit
    | apply kept_ite
    | refine Kept.of_mk ?_
    | split

theorem kept_runReaction {s : State} (h_s : Kept kb kl bl ko s) (h_p_regs : Part.regs ∈ kl := by assumption) (h_p_shadow : Part.shadow ∈ kl := by assumption) (h_p_mem : Part.mem ∈ kl := by assumption) (h_p_ecc : Part.ecc ∈ kl := by assumption) (h_p_free : Part.free ∈ kl := by assumption) (h_p_cfg : Part.cfg ∈ kl := by assumption) (h_p_flt : Part.flt ∈ kl := by assumption) (h_p_tsk : Part.tsk ∈ kl := by assumption) (h_p_harts : Part.harts ∈ kl := by assumption) (h_p_pwr : Part.pwr ∈ kl := by assumption) (h_p_cel : Part.cel ∈ kl := by assumption) (h_p_sch : Part.sch ∈ kl := by assumption) (h_p_gcl : Part.gcl ∈ kl := by assumption) (h_p_kln : Part.kln ∈ kl := by assumption) (h_p_act : Part.act ∈ kl := by assumption) (h_p_ube : Part.ube ∈ kl := by assumption) (h_p_chp : Part.chp ∈ kl := by assumption) (h_p_dsf : Part.dsf ∈ kl := by assumption) (h_p_ohs : Part.ohs ∈ kl := by assumption) (h_p_pipes : Part.pipes ∈ kl := by assumption) (h_p_cls : Part.cls ∈ kl := by assumption) (h_p_spc : Part.spc ∈ kl := by assumption) (h_p_mac : Part.mac ∈ kl := by assumption) (h_p_lph : Part.lph ∈ kl := by assumption) (h_p_tim : Part.tim ∈ kl := by assumption) (h_p_cas : Part.cas ∈ kl := by assumption) (h_b_CFG : blkCFG ∈ bl := by assumption) (h_b_PWR : blkPWR ∈ bl := by assumption) (h_b_FLT : blkFLT ∈ bl := by assumption) (h_b_TSK : blkTSK ∈ bl := by assumption) (h_b_LPH : blkLPH ∈ bl := by assumption) (h_b_DSF : blkDSF ∈ bl := by assumption) (h_b_ACT : blkACT ∈ bl := by assumption) (h_b_UBE : blkUBE ∈ bl := by assumption) (h_b_CHP : blkCHP ∈ bl := by assumption) (h_b_CLS : blkCLS ∈ bl := by assumption) (h_b_SPC : blkSPC ∈ bl := by assumption) (h_b_CEL : blkCEL ∈ bl := by assumption) (h_b_GCL : blkGCL ∈ bl := by assumption) (h_b_KLN : blkKLN ∈ bl := by assumption) (h_b_MAC : blkMAC ∈ bl := by assumption) (h_b_TIM : blkTIM ∈ bl := by assumption) (h_b_CAS : blkCAS ∈ bl := by assumption) :
    Kept kb kl bl ko (runReaction s) := by
  unfold runReaction
  with_reducible repeat' first
    | assumption
    | (intro sx; refine (have hsx : Kept kb kl bl ko sx := ?_; ?_); on_goal 2 => (try clear_value sx))
    | (intro sx; try clear_value sx)
    | lift_lets
    | apply kept_tskClock
    | apply kept_beginTest
    | apply kept_fltStart
    | apply kept_actReaction
    | apply kept_ite
    | split
    | dsimp only [sx]
    | refine Kept.of_mk ?_

theorem kept_fatalNow {s : State} (h_s : Kept kb kl bl ko s) (h_p_regs : Part.regs ∈ kl := by assumption) (h_p_shadow : Part.shadow ∈ kl := by assumption) (h_p_mem : Part.mem ∈ kl := by assumption) (h_p_ecc : Part.ecc ∈ kl := by assumption) (h_p_free : Part.free ∈ kl := by assumption) (h_p_cfg : Part.cfg ∈ kl := by assumption) (h_p_flt : Part.flt ∈ kl := by assumption) (h_p_tsk : Part.tsk ∈ kl := by assumption) (h_p_harts : Part.harts ∈ kl := by assumption) (h_p_pwr : Part.pwr ∈ kl := by assumption) (h_p_cel : Part.cel ∈ kl := by assumption) (h_p_sch : Part.sch ∈ kl := by assumption) (h_p_gcl : Part.gcl ∈ kl := by assumption) (h_p_kln : Part.kln ∈ kl := by assumption) (h_p_act : Part.act ∈ kl := by assumption) (h_p_ube : Part.ube ∈ kl := by assumption) (h_p_chp : Part.chp ∈ kl := by assumption) (h_p_dsf : Part.dsf ∈ kl := by assumption) (h_p_ohs : Part.ohs ∈ kl := by assumption) (h_p_pipes : Part.pipes ∈ kl := by assumption) (h_p_cls : Part.cls ∈ kl := by assumption) (h_p_spc : Part.spc ∈ kl := by assumption) (h_p_mac : Part.mac ∈ kl := by assumption) (h_p_lph : Part.lph ∈ kl := by assumption) (h_p_tim : Part.tim ∈ kl := by assumption) (h_p_cas : Part.cas ∈ kl := by assumption) (h_b_CFG : blkCFG ∈ bl := by assumption) (h_b_PWR : blkPWR ∈ bl := by assumption) (h_b_FLT : blkFLT ∈ bl := by assumption) (h_b_TSK : blkTSK ∈ bl := by assumption) (h_b_LPH : blkLPH ∈ bl := by assumption) (h_b_DSF : blkDSF ∈ bl := by assumption) (h_b_ACT : blkACT ∈ bl := by assumption) (h_b_UBE : blkUBE ∈ bl := by assumption) (h_b_CHP : blkCHP ∈ bl := by assumption) (h_b_CLS : blkCLS ∈ bl := by assumption) (h_b_SPC : blkSPC ∈ bl := by assumption) (h_b_CEL : blkCEL ∈ bl := by assumption) (h_b_GCL : blkGCL ∈ bl := by assumption) (h_b_KLN : blkKLN ∈ bl := by assumption) (h_b_MAC : blkMAC ∈ bl := by assumption) (h_b_TIM : blkTIM ∈ bl := by assumption) (h_b_CAS : blkCAS ∈ bl := by assumption) :
    Kept kb kl bl ko (fatalNow s) := by
  unfold fatalNow
  with_reducible repeat' first
    | assumption
    | (intro sx; refine (have hsx : Kept kb kl bl ko sx := ?_; ?_); on_goal 2 => (try clear_value sx))
    | intro sx
    | lift_lets
    | apply kept_haltHarts
    | apply kept_runReaction
    | apply kept_fltStart
    | apply kept_ite
    | split
    | dsimp only [sx]
    | refine Kept.of_mk ?_

theorem kept_fltReport {e : ErrEvent} {s : State} (h_s : Kept kb kl bl ko s) (h_p_regs : Part.regs ∈ kl := by assumption) (h_p_shadow : Part.shadow ∈ kl := by assumption) (h_p_mem : Part.mem ∈ kl := by assumption) (h_p_ecc : Part.ecc ∈ kl := by assumption) (h_p_free : Part.free ∈ kl := by assumption) (h_p_cfg : Part.cfg ∈ kl := by assumption) (h_p_flt : Part.flt ∈ kl := by assumption) (h_p_tsk : Part.tsk ∈ kl := by assumption) (h_p_harts : Part.harts ∈ kl := by assumption) (h_p_pwr : Part.pwr ∈ kl := by assumption) (h_p_cel : Part.cel ∈ kl := by assumption) (h_p_sch : Part.sch ∈ kl := by assumption) (h_p_gcl : Part.gcl ∈ kl := by assumption) (h_p_kln : Part.kln ∈ kl := by assumption) (h_p_act : Part.act ∈ kl := by assumption) (h_p_ube : Part.ube ∈ kl := by assumption) (h_p_chp : Part.chp ∈ kl := by assumption) (h_p_dsf : Part.dsf ∈ kl := by assumption) (h_p_ohs : Part.ohs ∈ kl := by assumption) (h_p_pipes : Part.pipes ∈ kl := by assumption) (h_p_cls : Part.cls ∈ kl := by assumption) (h_p_spc : Part.spc ∈ kl := by assumption) (h_p_mac : Part.mac ∈ kl := by assumption) (h_p_lph : Part.lph ∈ kl := by assumption) (h_p_tim : Part.tim ∈ kl := by assumption) (h_p_cas : Part.cas ∈ kl := by assumption) (h_b_CFG : blkCFG ∈ bl := by assumption) (h_b_PWR : blkPWR ∈ bl := by assumption) (h_b_FLT : blkFLT ∈ bl := by assumption) (h_b_TSK : blkTSK ∈ bl := by assumption) (h_b_LPH : blkLPH ∈ bl := by assumption) (h_b_DSF : blkDSF ∈ bl := by assumption) (h_b_ACT : blkACT ∈ bl := by assumption) (h_b_UBE : blkUBE ∈ bl := by assumption) (h_b_CHP : blkCHP ∈ bl := by assumption) (h_b_CLS : blkCLS ∈ bl := by assumption) (h_b_SPC : blkSPC ∈ bl := by assumption) (h_b_CEL : blkCEL ∈ bl := by assumption) (h_b_GCL : blkGCL ∈ bl := by assumption) (h_b_KLN : blkKLN ∈ bl := by assumption) (h_b_MAC : blkMAC ∈ bl := by assumption) (h_b_TIM : blkTIM ∈ bl := by assumption) (h_b_CAS : blkCAS ∈ bl := by assumption) :
    Kept kb kl bl ko (fltReport e s) := by
  unfold fltReport
  with_reducible repeat' first
    | assumption
    | (intro sx; refine (have hsx : Kept kb kl bl ko sx := ?_; ?_); on_goal 2 => (try clear_value sx))
    | (intro sx; try clear_value sx)
    | lift_lets
    | apply kept_tskClock
    | apply kept_fatalNow
    | apply kept_fltLatch
    | apply kept_ite
    | refine Kept.of_mk ?_
    | split

theorem kept_testReturns {r : Reaction} {s : State} (h_s : Kept kb kl bl ko s) (h_p_regs : Part.regs ∈ kl := by assumption) (h_p_shadow : Part.shadow ∈ kl := by assumption) (h_p_free : Part.free ∈ kl := by assumption) (h_p_cfg : Part.cfg ∈ kl := by assumption) (h_p_flt : Part.flt ∈ kl := by assumption) (h_p_harts : Part.harts ∈ kl := by assumption) (h_p_pwr : Part.pwr ∈ kl := by assumption) (h_p_cel : Part.cel ∈ kl := by assumption) (h_p_sch : Part.sch ∈ kl := by assumption) (h_p_gcl : Part.gcl ∈ kl := by assumption) (h_p_kln : Part.kln ∈ kl := by assumption) (h_p_act : Part.act ∈ kl := by assumption) (h_p_ube : Part.ube ∈ kl := by assumption) (h_p_chp : Part.chp ∈ kl := by assumption) (h_p_dsf : Part.dsf ∈ kl := by assumption) (h_p_ohs : Part.ohs ∈ kl := by assumption) (h_p_pipes : Part.pipes ∈ kl := by assumption) (h_p_cls : Part.cls ∈ kl := by assumption) (h_p_spc : Part.spc ∈ kl := by assumption) (h_p_mac : Part.mac ∈ kl := by assumption) (h_p_lph : Part.lph ∈ kl := by assumption) (h_p_tim : Part.tim ∈ kl := by assumption) (h_b_CFG : blkCFG ∈ bl := by assumption) (h_b_PWR : blkPWR ∈ bl := by assumption) (h_b_FLT : blkFLT ∈ bl := by assumption) (h_b_LPH : blkLPH ∈ bl := by assumption) (h_b_DSF : blkDSF ∈ bl := by assumption) (h_b_ACT : blkACT ∈ bl := by assumption) (h_b_UBE : blkUBE ∈ bl := by assumption) (h_b_CHP : blkCHP ∈ bl := by assumption) (h_b_CLS : blkCLS ∈ bl := by assumption) (h_b_SPC : blkSPC ∈ bl := by assumption) (h_b_CEL : blkCEL ∈ bl := by assumption) (h_b_GCL : blkGCL ∈ bl := by assumption) (h_b_KLN : blkKLN ∈ bl := by assumption) (h_b_MAC : blkMAC ∈ bl := by assumption) (h_b_TIM : blkTIM ∈ bl := by assumption) :
    Kept kb kl bl ko (testReturns r s) := by
  unfold testReturns
  with_reducible repeat' first
    | assumption
    | (intro sx; refine (have hsx : Kept kb kl bl ko sx := ?_; ?_); on_goal 2 => (try clear_value sx))
    | (intro sx; try clear_value sx)
    | lift_lets
    | apply kept_unitReturns
    | apply kept_unfenceRow
    | split
    | dsimp only [sx]
    | refine Kept.of_mk ?_

theorem kept_testFails {r : Reaction} {pool : Nat} {places : Nat} {buckets : List Nat} {s : State} (h_s : Kept kb kl bl ko s) (h_p_regs : Part.regs ∈ kl := by assumption) (h_p_shadow : Part.shadow ∈ kl := by assumption) (h_p_mem : Part.mem ∈ kl := by assumption) (h_p_ecc : Part.ecc ∈ kl := by assumption) (h_p_free : Part.free ∈ kl := by assumption) (h_p_cfg : Part.cfg ∈ kl := by assumption) (h_p_flt : Part.flt ∈ kl := by assumption) (h_p_tsk : Part.tsk ∈ kl := by assumption) (h_p_harts : Part.harts ∈ kl := by assumption) (h_p_pwr : Part.pwr ∈ kl := by assumption) (h_p_cel : Part.cel ∈ kl := by assumption) (h_p_sch : Part.sch ∈ kl := by assumption) (h_p_gcl : Part.gcl ∈ kl := by assumption) (h_p_kln : Part.kln ∈ kl := by assumption) (h_p_act : Part.act ∈ kl := by assumption) (h_p_ube : Part.ube ∈ kl := by assumption) (h_p_chp : Part.chp ∈ kl := by assumption) (h_p_dsf : Part.dsf ∈ kl := by assumption) (h_p_ohs : Part.ohs ∈ kl := by assumption) (h_p_pipes : Part.pipes ∈ kl := by assumption) (h_p_cls : Part.cls ∈ kl := by assumption) (h_p_flw : Part.flw ∈ kl := by assumption) (h_p_spc : Part.spc ∈ kl := by assumption) (h_p_mac : Part.mac ∈ kl := by assumption) (h_p_lph : Part.lph ∈ kl := by assumption) (h_p_tim : Part.tim ∈ kl := by assumption) (h_p_cas : Part.cas ∈ kl := by assumption) (h_b_CFG : blkCFG ∈ bl := by assumption) (h_b_PWR : blkPWR ∈ bl := by assumption) (h_b_FLT : blkFLT ∈ bl := by assumption) (h_b_TSK : blkTSK ∈ bl := by assumption) (h_b_LPH : blkLPH ∈ bl := by assumption) (h_b_DSF : blkDSF ∈ bl := by assumption) (h_b_ACT : blkACT ∈ bl := by assumption) (h_b_UBE : blkUBE ∈ bl := by assumption) (h_b_CHP : blkCHP ∈ bl := by assumption) (h_b_CLS : blkCLS ∈ bl := by assumption) (h_b_SPC : blkSPC ∈ bl := by assumption) (h_b_CEL : blkCEL ∈ bl := by assumption) (h_b_GCL : blkGCL ∈ bl := by assumption) (h_b_KLN : blkKLN ∈ bl := by assumption) (h_b_MAC : blkMAC ∈ bl := by assumption) (h_b_TIM : blkTIM ∈ bl := by assumption) (h_b_CAS : blkCAS ∈ bl := by assumption) :
    Kept kb kl bl ko (testFails r pool places buckets s) := by
  unfold testFails
  with_reducible repeat' first
    | assumption
    | (refine mem_guard ?_; with_unfolding_all (first | assumption | exact (by assumption : ∀ n, n ∈ bl) _ | exact blk_n (by decide) (by decide) (by assumption) | exact blk_un (by decide) (by decide) (by decide) (by assumption) | exact blk_ite (by assumption) (by assumption) | exact blk_ite (by exact blk_n (by decide) (by decide) (by assumption)) (by exact blk_n (by decide) (by decide) (by assumption))))
    | (intro sx; refine (have hsx : Kept kb kl bl ko sx := ?_; ?_); on_goal 2 => (try clear_value sx))
    | (intro sx; try clear_value sx)
    | lift_lets
    | apply kept_setVerdict
    | apply kept_showRepair
    | apply kept_st_inc
    | apply kept_fltReport
    | apply kept_isolate
    | apply kept_unfenceRow
    | apply kept_takePool
    | apply kept_ite
    | split
    | dsimp only [sx]
    | refine Kept.of_mk ?_

theorem kept_selfTestDone {pass : Bool} {pool : Nat} {places : Nat} {buckets : List Nat} {s : State} (h_s : Kept kb kl bl ko s) (h_p_regs : Part.regs ∈ kl := by assumption) (h_p_shadow : Part.shadow ∈ kl := by assumption) (h_p_mem : Part.mem ∈ kl := by assumption) (h_p_ecc : Part.ecc ∈ kl := by assumption) (h_p_free : Part.free ∈ kl := by assumption) (h_p_cfg : Part.cfg ∈ kl := by assumption) (h_p_flt : Part.flt ∈ kl := by assumption) (h_p_tsk : Part.tsk ∈ kl := by assumption) (h_p_harts : Part.harts ∈ kl := by assumption) (h_p_pwr : Part.pwr ∈ kl := by assumption) (h_p_cel : Part.cel ∈ kl := by assumption) (h_p_sch : Part.sch ∈ kl := by assumption) (h_p_gcl : Part.gcl ∈ kl := by assumption) (h_p_kln : Part.kln ∈ kl := by assumption) (h_p_act : Part.act ∈ kl := by assumption) (h_p_ube : Part.ube ∈ kl := by assumption) (h_p_chp : Part.chp ∈ kl := by assumption) (h_p_dsf : Part.dsf ∈ kl := by assumption) (h_p_ohs : Part.ohs ∈ kl := by assumption) (h_p_pipes : Part.pipes ∈ kl := by assumption) (h_p_cls : Part.cls ∈ kl := by assumption) (h_p_flw : Part.flw ∈ kl := by assumption) (h_p_spc : Part.spc ∈ kl := by assumption) (h_p_mac : Part.mac ∈ kl := by assumption) (h_p_lph : Part.lph ∈ kl := by assumption) (h_p_tim : Part.tim ∈ kl := by assumption) (h_p_cas : Part.cas ∈ kl := by assumption) (h_b_CFG : blkCFG ∈ bl := by assumption) (h_b_PWR : blkPWR ∈ bl := by assumption) (h_b_FLT : blkFLT ∈ bl := by assumption) (h_b_TSK : blkTSK ∈ bl := by assumption) (h_b_LPH : blkLPH ∈ bl := by assumption) (h_b_DSF : blkDSF ∈ bl := by assumption) (h_b_ACT : blkACT ∈ bl := by assumption) (h_b_UBE : blkUBE ∈ bl := by assumption) (h_b_CHP : blkCHP ∈ bl := by assumption) (h_b_CLS : blkCLS ∈ bl := by assumption) (h_b_SPC : blkSPC ∈ bl := by assumption) (h_b_CEL : blkCEL ∈ bl := by assumption) (h_b_GCL : blkGCL ∈ bl := by assumption) (h_b_KLN : blkKLN ∈ bl := by assumption) (h_b_MAC : blkMAC ∈ bl := by assumption) (h_b_TIM : blkTIM ∈ bl := by assumption) (h_b_CAS : blkCAS ∈ bl := by assumption) :
    Kept kb kl bl ko (selfTestDone pass pool places buckets s) := by
  unfold selfTestDone
  with_reducible repeat' first
    | assumption
    | (refine mem_guard ?_; with_unfolding_all (first | assumption | exact (by assumption : ∀ n, n ∈ bl) _ | exact blk_n (by decide) (by decide) (by assumption) | exact blk_un (by decide) (by decide) (by decide) (by assumption) | exact blk_ite (by assumption) (by assumption) | exact blk_ite (by exact blk_n (by decide) (by decide) (by assumption)) (by exact blk_n (by decide) (by decide) (by assumption))))
    | (intro sx; refine (have hsx : Kept kb kl bl ko sx := ?_; ?_); on_goal 2 => (try clear_value sx))
    | (intro sx; try clear_value sx)
    | lift_lets
    | apply kept_endReaction
    | apply kept_setVerdict
    | apply kept_testReturns
    | apply kept_st_inc
    | apply kept_testFails
    | apply kept_st_setFltSpares
    | apply kept_ite
    | split
    | dsimp only [sx]
    | refine Kept.of_mk ?_

theorem kept_hbmTestDone {a : Nat} {pass spare : Bool} {s : State} (h_s : Kept kb kl bl ko s) (h_p_regs : Part.regs ∈ kl := by assumption) (h_p_mem : Part.mem ∈ kl := by assumption) (h_p_ecc : Part.ecc ∈ kl := by assumption) (h_p_free : Part.free ∈ kl := by assumption) (h_p_flt : Part.flt ∈ kl := by assumption) (h_p_tsk : Part.tsk ∈ kl := by assumption) (h_p_cel : Part.cel ∈ kl := by assumption) (h_b_FLT : blkFLT ∈ bl := by assumption) (h_b_TSK : blkTSK ∈ bl := by assumption) (h_b_CEL : blkCEL ∈ bl := by assumption) :
    Kept kb kl bl ko (hbmTestDone a pass spare s) := by
  have hd := kept_rowTestDone (a := a) (pass := pass) (spare := spare) h_s
  unfold hbmTestDone
  dsimp only
  generalize rowTestDone a pass spare s = d at *
  split
  · refine kept_ite (kept_endReaction (kept_setVerdict (kept_ite ?_ hd))) hd
    exact Kept.of_mk hd
  · exact hd

theorem kept_quietEnds {s : State} (h_s : Kept kb kl bl ko s) (h_p_flt : Part.flt ∈ kl := by assumption) :
    Kept kb kl bl ko (quietEnds s) := by
  unfold quietEnds
  with_reducible repeat' first
    | assumption
    | (intro sx; refine (have hsx : Kept kb kl bl ko sx := ?_; ?_); on_goal 2 => (try clear_value sx))
    | (intro sx; try clear_value sx)
    | lift_lets
    | apply kept_ite
    | refine Kept.of_mk ?_
    | split

theorem kept_releaseRec {n : Nat} {s : State} (h_s : Kept kb kl bl ko s) (h_p_regs : Part.regs ∈ kl := by assumption) (h_p_shadow : Part.shadow ∈ kl := by assumption) (h_p_mem : Part.mem ∈ kl := by assumption) (h_p_ecc : Part.ecc ∈ kl := by assumption) (h_p_free : Part.free ∈ kl := by assumption) (h_p_cfg : Part.cfg ∈ kl := by assumption) (h_p_flt : Part.flt ∈ kl := by assumption) (h_p_tsk : Part.tsk ∈ kl := by assumption) (h_p_harts : Part.harts ∈ kl := by assumption) (h_p_pwr : Part.pwr ∈ kl := by assumption) (h_p_cel : Part.cel ∈ kl := by assumption) (h_p_sch : Part.sch ∈ kl := by assumption) (h_p_gcl : Part.gcl ∈ kl := by assumption) (h_p_kln : Part.kln ∈ kl := by assumption) (h_p_act : Part.act ∈ kl := by assumption) (h_p_ube : Part.ube ∈ kl := by assumption) (h_p_chp : Part.chp ∈ kl := by assumption) (h_p_dsf : Part.dsf ∈ kl := by assumption) (h_p_ohs : Part.ohs ∈ kl := by assumption) (h_p_pipes : Part.pipes ∈ kl := by assumption) (h_p_cls : Part.cls ∈ kl := by assumption) (h_p_spc : Part.spc ∈ kl := by assumption) (h_p_mac : Part.mac ∈ kl := by assumption) (h_p_lph : Part.lph ∈ kl := by assumption) (h_p_tim : Part.tim ∈ kl := by assumption) (h_b_CFG : blkCFG ∈ bl := by assumption) (h_b_PWR : blkPWR ∈ bl := by assumption) (h_b_FLT : blkFLT ∈ bl := by assumption) (h_b_TSK : blkTSK ∈ bl := by assumption) (h_b_LPH : blkLPH ∈ bl := by assumption) (h_b_DSF : blkDSF ∈ bl := by assumption) (h_b_ACT : blkACT ∈ bl := by assumption) (h_b_UBE : blkUBE ∈ bl := by assumption) (h_b_CHP : blkCHP ∈ bl := by assumption) (h_b_CLS : blkCLS ∈ bl := by assumption) (h_b_SPC : blkSPC ∈ bl := by assumption) (h_b_CEL : blkCEL ∈ bl := by assumption) (h_b_GCL : blkGCL ∈ bl := by assumption) (h_b_KLN : blkKLN ∈ bl := by assumption) (h_b_MAC : blkMAC ∈ bl := by assumption) (h_b_TIM : blkTIM ∈ bl := by assumption) :
    Kept kb kl bl ko (releaseRec n s) := by
  unfold releaseRec
  with_reducible repeat' first
    | assumption
    | (intro sx; refine (have hsx : Kept kb kl bl ko sx := ?_; ?_); on_goal 2 => (try clear_value sx))
    | (intro sx; try clear_value sx)
    | lift_lets
    | apply kept_tskClock
    | apply kept_unitReturns
    | apply kept_fltSummary
    | apply kept_st_setFrec
    | apply kept_ite
    | (apply kept_foldl; intro sy xy hy)
    | (apply kept_foldl2; intro sy xy hy)
    | (apply kept_foldl1; intro sy xy hy)
    | refine Kept.of_mk ?_
    | split

theorem kept_fltWrite {level : Nat} {a : Nat} {v : Word} {o : State} {s : State} (h_o : Kept kb kl bl ko o) (h_s : Kept kb kl bl ko s) (h_p_regs : Part.regs ∈ kl := by assumption) (h_p_shadow : Part.shadow ∈ kl := by assumption) (h_p_mem : Part.mem ∈ kl := by assumption) (h_p_ecc : Part.ecc ∈ kl := by assumption) (h_p_free : Part.free ∈ kl := by assumption) (h_p_cfg : Part.cfg ∈ kl := by assumption) (h_p_flt : Part.flt ∈ kl := by assumption) (h_p_tsk : Part.tsk ∈ kl := by assumption) (h_p_harts : Part.harts ∈ kl := by assumption) (h_p_pwr : Part.pwr ∈ kl := by assumption) (h_p_cel : Part.cel ∈ kl := by assumption) (h_p_sch : Part.sch ∈ kl := by assumption) (h_p_gcl : Part.gcl ∈ kl := by assumption) (h_p_kln : Part.kln ∈ kl := by assumption) (h_p_act : Part.act ∈ kl := by assumption) (h_p_ube : Part.ube ∈ kl := by assumption) (h_p_chp : Part.chp ∈ kl := by assumption) (h_p_dsf : Part.dsf ∈ kl := by assumption) (h_p_ohs : Part.ohs ∈ kl := by assumption) (h_p_pipes : Part.pipes ∈ kl := by assumption) (h_p_cls : Part.cls ∈ kl := by assumption) (h_p_spc : Part.spc ∈ kl := by assumption) (h_p_mac : Part.mac ∈ kl := by assumption) (h_p_lph : Part.lph ∈ kl := by assumption) (h_p_tim : Part.tim ∈ kl := by assumption) (h_p_cas : Part.cas ∈ kl := by assumption) (h_b_CFG : blkCFG ∈ bl := by assumption) (h_b_PWR : blkPWR ∈ bl := by assumption) (h_b_FLT : blkFLT ∈ bl := by assumption) (h_b_TSK : blkTSK ∈ bl := by assumption) (h_b_LPH : blkLPH ∈ bl := by assumption) (h_b_DSF : blkDSF ∈ bl := by assumption) (h_b_ACT : blkACT ∈ bl := by assumption) (h_b_UBE : blkUBE ∈ bl := by assumption) (h_b_CHP : blkCHP ∈ bl := by assumption) (h_b_CLS : blkCLS ∈ bl := by assumption) (h_b_SPC : blkSPC ∈ bl := by assumption) (h_b_CEL : blkCEL ∈ bl := by assumption) (h_b_GCL : blkGCL ∈ bl := by assumption) (h_b_KLN : blkKLN ∈ bl := by assumption) (h_b_MAC : blkMAC ∈ bl := by assumption) (h_b_TIM : blkTIM ∈ bl := by assumption) (h_b_CAS : blkCAS ∈ bl := by assumption) :
    Kept kb kl bl ko (fltWrite level a v o s) := by
  unfold fltWrite
  with_reducible repeat' first
    | assumption
    | (refine mem_guard ?_; with_unfolding_all (first | assumption | exact (by assumption : ∀ n, n ∈ bl) _ | exact blk_n (by decide) (by decide) (by assumption) | exact blk_un (by decide) (by decide) (by decide) (by assumption) | exact blk_ite (by assumption) (by assumption) | exact blk_ite (by exact blk_n (by decide) (by decide) (by assumption)) (by exact blk_n (by decide) (by decide) (by assumption))))
    | (intro sx; refine (have hsx : Kept kb kl bl ko sx := ?_; ?_); on_goal 2 => (try clear_value sx))
    | (intro sx; refine (have hsx : Kept kb kl bl ko sx.2 := ?_; ?_); on_goal 2 => (try clear_value sx))
    | (intro sx; refine (have hsx : Kept kb kl bl ko sx.1 := ?_; ?_); on_goal 2 => (try clear_value sx))
    | (intro sx; try clear_value sx)
    | lift_lets
    | apply kept_releaseRec
    | apply kept_st_put
    | apply kept_safeExit
    | apply kept_enterSafe
    | apply kept_setReg
    | apply kept_ite
    | apply kept_ite1
    | apply kept_ite2
    | apply kept_ite21
    | apply kept_ite22
    | (apply kept_foldl; intro sy xy hy)
    | (apply kept_foldl2; intro sy xy hy)
    | (apply kept_foldl1; intro sy xy hy)
    | refine Kept.of_mk ?_
    | split

theorem kept_tempReading {t : Int} {s : State} (h_s : Kept kb kl bl ko s) (h_p_regs : Part.regs ∈ kl := by assumption) (h_p_shadow : Part.shadow ∈ kl := by assumption) (h_p_mem : Part.mem ∈ kl := by assumption) (h_p_ecc : Part.ecc ∈ kl := by assumption) (h_p_free : Part.free ∈ kl := by assumption) (h_p_cfg : Part.cfg ∈ kl := by assumption) (h_p_flt : Part.flt ∈ kl := by assumption) (h_p_tsk : Part.tsk ∈ kl := by assumption) (h_p_harts : Part.harts ∈ kl := by assumption) (h_p_pwr : Part.pwr ∈ kl := by assumption) (h_p_cel : Part.cel ∈ kl := by assumption) (h_p_sch : Part.sch ∈ kl := by assumption) (h_p_gcl : Part.gcl ∈ kl := by assumption) (h_p_kln : Part.kln ∈ kl := by assumption) (h_p_act : Part.act ∈ kl := by assumption) (h_p_ube : Part.ube ∈ kl := by assumption) (h_p_chp : Part.chp ∈ kl := by assumption) (h_p_dsf : Part.dsf ∈ kl := by assumption) (h_p_ohs : Part.ohs ∈ kl := by assumption) (h_p_pipes : Part.pipes ∈ kl := by assumption) (h_p_cls : Part.cls ∈ kl := by assumption) (h_p_spc : Part.spc ∈ kl := by assumption) (h_p_mac : Part.mac ∈ kl := by assumption) (h_p_lph : Part.lph ∈ kl := by assumption) (h_p_tim : Part.tim ∈ kl := by assumption) (h_p_cas : Part.cas ∈ kl := by assumption) (h_b_CFG : blkCFG ∈ bl := by assumption) (h_b_PWR : blkPWR ∈ bl := by assumption) (h_b_FLT : blkFLT ∈ bl := by assumption) (h_b_TSK : blkTSK ∈ bl := by assumption) (h_b_LPH : blkLPH ∈ bl := by assumption) (h_b_DSF : blkDSF ∈ bl := by assumption) (h_b_ACT : blkACT ∈ bl := by assumption) (h_b_UBE : blkUBE ∈ bl := by assumption) (h_b_CHP : blkCHP ∈ bl := by assumption) (h_b_CLS : blkCLS ∈ bl := by assumption) (h_b_SPC : blkSPC ∈ bl := by assumption) (h_b_CEL : blkCEL ∈ bl := by assumption) (h_b_GCL : blkGCL ∈ bl := by assumption) (h_b_KLN : blkKLN ∈ bl := by assumption) (h_b_MAC : blkMAC ∈ bl := by assumption) (h_b_TIM : blkTIM ∈ bl := by assumption) (h_b_CAS : blkCAS ∈ bl := by assumption) :
    Kept kb kl bl ko (tempReading t s) := by
  unfold tempReading
  with_reducible repeat' first
    | assumption
    | (refine mem_guard ?_; with_unfolding_all (first | assumption | exact (by assumption : ∀ n, n ∈ bl) _ | exact blk_n (by decide) (by decide) (by assumption) | exact blk_un (by decide) (by decide) (by decide) (by assumption) | exact blk_ite (by assumption) (by assumption) | exact blk_ite (by exact blk_n (by decide) (by decide) (by assumption)) (by exact blk_n (by decide) (by decide) (by assumption))))
    | (intro sx; refine (have hsx : Kept kb kl bl ko sx := ?_; ?_); on_goal 2 => (try clear_value sx))
    | (intro sx; try clear_value sx)
    | lift_lets
    | apply kept_fltReport
    | apply kept_st_wr
    | apply kept_ite
    | refine Kept.of_mk ?_
    | split

theorem kept_tempRearm {t : Int} {s : State} (h_s : Kept kb kl bl ko s) (h_p_regs : Part.regs ∈ kl := by assumption) (h_p_flt : Part.flt ∈ kl := by assumption) (h_b_FLT : blkFLT ∈ bl := by assumption) :
    Kept kb kl bl ko (tempRearm t s) := by
  unfold tempRearm
  with_reducible repeat' first
    | assumption
    | (refine mem_guard ?_; with_unfolding_all (first | assumption | exact (by assumption : ∀ n, n ∈ bl) _ | exact blk_n (by decide) (by decide) (by assumption) | exact blk_un (by decide) (by decide) (by decide) (by assumption) | exact blk_ite (by assumption) (by assumption) | exact blk_ite (by exact blk_n (by decide) (by decide) (by assumption)) (by exact blk_n (by decide) (by decide) (by assumption))))
    | (intro sx; refine (have hsx : Kept kb kl bl ko sx := ?_; ?_); on_goal 2 => (try clear_value sx))
    | (intro sx; try clear_value sx)
    | lift_lets
    | apply kept_st_wr
    | apply kept_ite
    | refine Kept.of_mk ?_
    | split

theorem kept_safeNActs {s : State} (h_s : Kept kb kl bl ko s) (h_p_regs : Part.regs ∈ kl := by assumption) (h_p_shadow : Part.shadow ∈ kl := by assumption) (h_p_mem : Part.mem ∈ kl := by assumption) (h_p_ecc : Part.ecc ∈ kl := by assumption) (h_p_free : Part.free ∈ kl := by assumption) (h_p_cfg : Part.cfg ∈ kl := by assumption) (h_p_flt : Part.flt ∈ kl := by assumption) (h_p_tsk : Part.tsk ∈ kl := by assumption) (h_p_harts : Part.harts ∈ kl := by assumption) (h_p_pwr : Part.pwr ∈ kl := by assumption) (h_p_cel : Part.cel ∈ kl := by assumption) (h_p_sch : Part.sch ∈ kl := by assumption) (h_p_gcl : Part.gcl ∈ kl := by assumption) (h_p_kln : Part.kln ∈ kl := by assumption) (h_p_act : Part.act ∈ kl := by assumption) (h_p_ube : Part.ube ∈ kl := by assumption) (h_p_chp : Part.chp ∈ kl := by assumption) (h_p_dsf : Part.dsf ∈ kl := by assumption) (h_p_ohs : Part.ohs ∈ kl := by assumption) (h_p_pipes : Part.pipes ∈ kl := by assumption) (h_p_cls : Part.cls ∈ kl := by assumption) (h_p_spc : Part.spc ∈ kl := by assumption) (h_p_mac : Part.mac ∈ kl := by assumption) (h_p_lph : Part.lph ∈ kl := by assumption) (h_p_tim : Part.tim ∈ kl := by assumption) (h_p_cas : Part.cas ∈ kl := by assumption) (h_b_CFG : blkCFG ∈ bl := by assumption) (h_b_PWR : blkPWR ∈ bl := by assumption) (h_b_FLT : blkFLT ∈ bl := by assumption) (h_b_TSK : blkTSK ∈ bl := by assumption) (h_b_LPH : blkLPH ∈ bl := by assumption) (h_b_DSF : blkDSF ∈ bl := by assumption) (h_b_ACT : blkACT ∈ bl := by assumption) (h_b_UBE : blkUBE ∈ bl := by assumption) (h_b_CHP : blkCHP ∈ bl := by assumption) (h_b_CLS : blkCLS ∈ bl := by assumption) (h_b_SPC : blkSPC ∈ bl := by assumption) (h_b_CEL : blkCEL ∈ bl := by assumption) (h_b_GCL : blkGCL ∈ bl := by assumption) (h_b_KLN : blkKLN ∈ bl := by assumption) (h_b_MAC : blkMAC ∈ bl := by assumption) (h_b_TIM : blkTIM ∈ bl := by assumption) (h_b_CAS : blkCAS ∈ bl := by assumption) :
    Kept kb kl bl ko (safeNActs s) := by
  unfold safeNActs
  with_reducible repeat' first
    | assumption
    | apply kept_fltReport
    | apply kept_enterSafe
    | apply kept_ite
    | refine Kept.of_mk ?_
    | split

theorem kept_safeNLow {s : State} (h_s : Kept kb kl bl ko s) (h_p_regs : Part.regs ∈ kl := by assumption) (h_p_shadow : Part.shadow ∈ kl := by assumption) (h_p_mem : Part.mem ∈ kl := by assumption) (h_p_ecc : Part.ecc ∈ kl := by assumption) (h_p_free : Part.free ∈ kl := by assumption) (h_p_cfg : Part.cfg ∈ kl := by assumption) (h_p_flt : Part.flt ∈ kl := by assumption) (h_p_tsk : Part.tsk ∈ kl := by assumption) (h_p_harts : Part.harts ∈ kl := by assumption) (h_p_pwr : Part.pwr ∈ kl := by assumption) (h_p_cel : Part.cel ∈ kl := by assumption) (h_p_sch : Part.sch ∈ kl := by assumption) (h_p_gcl : Part.gcl ∈ kl := by assumption) (h_p_kln : Part.kln ∈ kl := by assumption) (h_p_act : Part.act ∈ kl := by assumption) (h_p_ube : Part.ube ∈ kl := by assumption) (h_p_chp : Part.chp ∈ kl := by assumption) (h_p_dsf : Part.dsf ∈ kl := by assumption) (h_p_ohs : Part.ohs ∈ kl := by assumption) (h_p_pipes : Part.pipes ∈ kl := by assumption) (h_p_cls : Part.cls ∈ kl := by assumption) (h_p_spc : Part.spc ∈ kl := by assumption) (h_p_mac : Part.mac ∈ kl := by assumption) (h_p_lph : Part.lph ∈ kl := by assumption) (h_p_tim : Part.tim ∈ kl := by assumption) (h_p_cas : Part.cas ∈ kl := by assumption) (h_b_CFG : blkCFG ∈ bl := by assumption) (h_b_PWR : blkPWR ∈ bl := by assumption) (h_b_FLT : blkFLT ∈ bl := by assumption) (h_b_TSK : blkTSK ∈ bl := by assumption) (h_b_LPH : blkLPH ∈ bl := by assumption) (h_b_DSF : blkDSF ∈ bl := by assumption) (h_b_ACT : blkACT ∈ bl := by assumption) (h_b_UBE : blkUBE ∈ bl := by assumption) (h_b_CHP : blkCHP ∈ bl := by assumption) (h_b_CLS : blkCLS ∈ bl := by assumption) (h_b_SPC : blkSPC ∈ bl := by assumption) (h_b_CEL : blkCEL ∈ bl := by assumption) (h_b_GCL : blkGCL ∈ bl := by assumption) (h_b_KLN : blkKLN ∈ bl := by assumption) (h_b_MAC : blkMAC ∈ bl := by assumption) (h_b_TIM : blkTIM ∈ bl := by assumption) (h_b_CAS : blkCAS ∈ bl := by assumption) :
    Kept kb kl bl ko (safeNLow s) := by
  unfold safeNLow
  with_reducible repeat' first
    | assumption
    | (refine mem_guard ?_; with_unfolding_all (first | assumption | exact (by assumption : ∀ n, n ∈ bl) _ | exact blk_n (by decide) (by decide) (by assumption) | exact blk_un (by decide) (by decide) (by decide) (by assumption)))
    | apply kept_safeNActs
    | apply kept_st_put
    | refine Kept.of_mk ?_

theorem kept_safeNHigh {s : State} (h_s : Kept kb kl bl ko s) (h_p_regs : Part.regs ∈ kl := by assumption) (h_b_FLT : blkFLT ∈ bl := by assumption) :
    Kept kb kl bl ko (safeNHigh s) := by
  unfold safeNHigh
  with_reducible repeat' first
    | assumption
    | (refine mem_guard ?_; with_unfolding_all (first | assumption | exact (by assumption : ∀ n, n ∈ bl) _ | exact blk_n (by decide) (by decide) (by assumption) | exact blk_un (by decide) (by decide) (by decide) (by assumption)))
    | apply kept_st_put
    | refine Kept.of_mk ?_

theorem kept_poisonId {leaf : Nat} {id : Nat} {s : State} (h_s : Kept kb kl bl ko s) (h_p_cel : Part.cel ∈ kl := by assumption) (h_p_ube : Part.ube ∈ kl := by assumption) :
    Kept kb kl bl ko (poisonId leaf id s) := by
  unfold poisonId
  with_reducible repeat' first
    | assumption
    | (intro sx; refine (have hsx : Kept kb kl bl ko sx := ?_; ?_); on_goal 2 => (try clear_value sx))
    | intro sx
    | lift_lets
    | apply kept_st_setLq
    | apply kept_st_setUbeCh
    | apply kept_ite
    | (apply kept_foldl; intro sy xy hy)
    | (apply kept_foldl2; intro sy xy hy)
    | (apply kept_foldl1; intro sy xy hy)
    | refine Kept.of_mk ?_
    | split

theorem kept_rootBad {n : Nat} {s : State} (h_s : Kept kb kl bl ko s) (h_p_kln : Part.kln ∈ kl := by assumption) :
    Kept kb kl bl ko (rootBad n s) := by
  unfold rootBad
  with_reducible repeat' first
    | assumption
    | apply kept_st_setRoot
    | refine Kept.of_mk ?_

theorem kept_kekBad {k : Nat} {s : State} (h_s : Kept kb kl bl ko s) (h_p_kln : Part.kln ∈ kl := by assumption) :
    Kept kb kl bl ko (kekBad k s) := by
  unfold kekBad
  with_reducible repeat' first
    | assumption
    | apply kept_st_setKek
    | refine Kept.of_mk ?_

theorem kept_hartFaults {c : Nat} {s : State} (h_s : Kept kb kl bl ko s) (h_p_free : Part.free ∈ kl := by assumption) (h_p_harts : Part.harts ∈ kl := by assumption) :
    Kept kb kl bl ko (hartFaults c s) := by
  unfold hartFaults
  with_reducible repeat' first
    | assumption
    | (intro sx; refine (have hsx : Kept kb kl bl ko sx := ?_; ?_); on_goal 2 => (try clear_value sx))
    | (intro sx; refine (have hsx : Kept kb kl bl ko sx.2 := ?_; ?_); on_goal 2 => (try clear_value sx))
    | (intro sx; try clear_value sx)
    | lift_lets
    | apply kept_st_setHart
    | apply kept_draw
    | apply kept_ite
    | apply kept_ite2
    | refine Kept.of_mk ?_
    | split

theorem kept_stateWordBad {w : StateWord} {inj : Bool} {s : State} (h_s : Kept kb kl bl ko s) (h_p_regs : Part.regs ∈ kl := by assumption) (h_p_mem : Part.mem ∈ kl := by assumption) (h_p_ecc : Part.ecc ∈ kl := by assumption) (h_p_free : Part.free ∈ kl := by assumption) (h_p_cfg : Part.cfg ∈ kl := by assumption) (h_p_flt : Part.flt ∈ kl := by assumption) (h_p_tsk : Part.tsk ∈ kl := by assumption) (h_p_harts : Part.harts ∈ kl := by assumption) (h_p_cel : Part.cel ∈ kl := by assumption) (h_p_sch : Part.sch ∈ kl := by assumption) (h_p_kln : Part.kln ∈ kl := by assumption) (h_p_act : Part.act ∈ kl := by assumption) (h_p_ube : Part.ube ∈ kl := by assumption) (h_p_chp : Part.chp ∈ kl := by assumption) (h_p_dsf : Part.dsf ∈ kl := by assumption) (h_p_ohs : Part.ohs ∈ kl := by assumption) (h_p_pipes : Part.pipes ∈ kl := by assumption) (h_p_cls : Part.cls ∈ kl := by assumption) (h_p_flw : Part.flw ∈ kl := by assumption) (h_p_spc : Part.spc ∈ kl := by assumption) (h_p_tim : Part.tim ∈ kl := by assumption) (h_b_CFG : blkCFG ∈ bl := by assumption) (h_b_FLT : blkFLT ∈ bl := by assumption) (h_b_TSK : blkTSK ∈ bl := by assumption) (h_b_LPH : blkLPH ∈ bl := by assumption) (h_b_DSF : blkDSF ∈ bl := by assumption) (h_b_ACT : blkACT ∈ bl := by assumption) (h_b_UBE : blkUBE ∈ bl := by assumption) (h_b_CHP : blkCHP ∈ bl := by assumption) (h_b_FLW : blkFLW ∈ bl := by assumption) (h_b_SPC : blkSPC ∈ bl := by assumption) (h_b_CEL : blkCEL ∈ bl := by assumption) (h_b_KLN : blkKLN ∈ bl := by assumption) (h_b_TIM : blkTIM ∈ bl := by assumption) : Kept kb kl bl ko (stateWordBad w inj s) := by
  cases w <;> unfold stateWordBad <;> dsimp only
  · exact h_s
  · exact h_s
  · exact h_s
  · exact kept_ite h_s (kept_hartFaults h_s)
  · exact h_s
  · exact kept_shutDown h_s
  · exact kept_slotBad h_s
  · exact kept_rootBad h_s
  · exact kept_kekBad h_s
  · exact kept_st_setPipe h_s
  · exact kept_st_setPipe h_s
  · split
    · exact h_s
    · exact kept_setAsm h_s
  · exact kept_st_setToMac h_s
  · split
    · exact h_s
    · exact kept_poisonId h_s
  · exact kept_foldl (fun _ _ h => kept_flowDelete h) h_s
  · exact kept_st_setRule h_s
  · exact kept_st_setAlist h_s
  · exact kept_st_setPolicer h_s
  · exact kept_st_setLeafObj h_s
  · exact kept_st_setSvc h_s
  · exact kept_st_setPortObj h_s
  · exact kept_st_setLeafObj h_s
  · exact kept_st_setSvc h_s
  · exact kept_st_setPortObj h_s
  · exact kept_st_setPolicer h_s
  · exact kept_flushKey h_s
  · exact kept_devWrite (kept_st_setDelta h_s)
  · exact kept_taskCmd h_s
  · split
    · exact h_s
    · exact kept_poisonId h_s

theorem kept_wordChecked {src unit idx : Nat} {data : Word} {flip : BitVec 72} {addr : Nat} {w : StateWord} {res : Resource} {s : State}
    (h_s : Kept kb kl bl ko s) (h_p_regs : Part.regs ∈ kl := by assumption) (h_p_shadow : Part.shadow ∈ kl := by assumption) (h_p_mem : Part.mem ∈ kl := by assumption) (h_p_ecc : Part.ecc ∈ kl := by assumption) (h_p_free : Part.free ∈ kl := by assumption) (h_p_cfg : Part.cfg ∈ kl := by assumption) (h_p_flt : Part.flt ∈ kl := by assumption) (h_p_tsk : Part.tsk ∈ kl := by assumption) (h_p_harts : Part.harts ∈ kl := by assumption) (h_p_pwr : Part.pwr ∈ kl := by assumption) (h_p_cel : Part.cel ∈ kl := by assumption) (h_p_sch : Part.sch ∈ kl := by assumption) (h_p_gcl : Part.gcl ∈ kl := by assumption) (h_p_kln : Part.kln ∈ kl := by assumption) (h_p_act : Part.act ∈ kl := by assumption) (h_p_ube : Part.ube ∈ kl := by assumption) (h_p_chp : Part.chp ∈ kl := by assumption) (h_p_dsf : Part.dsf ∈ kl := by assumption) (h_p_ohs : Part.ohs ∈ kl := by assumption) (h_p_pipes : Part.pipes ∈ kl := by assumption) (h_p_cls : Part.cls ∈ kl := by assumption) (h_p_flw : Part.flw ∈ kl := by assumption) (h_p_spc : Part.spc ∈ kl := by assumption) (h_p_mac : Part.mac ∈ kl := by assumption) (h_p_lph : Part.lph ∈ kl := by assumption) (h_p_tim : Part.tim ∈ kl := by assumption) (h_p_cas : Part.cas ∈ kl := by assumption) (h_b_CFG : blkCFG ∈ bl := by assumption) (h_b_PWR : blkPWR ∈ bl := by assumption) (h_b_FLT : blkFLT ∈ bl := by assumption) (h_b_TSK : blkTSK ∈ bl := by assumption) (h_b_LPH : blkLPH ∈ bl := by assumption) (h_b_DSF : blkDSF ∈ bl := by assumption) (h_b_ACT : blkACT ∈ bl := by assumption) (h_b_UBE : blkUBE ∈ bl := by assumption) (h_b_CHP : blkCHP ∈ bl := by assumption) (h_b_CLS : blkCLS ∈ bl := by assumption) (h_b_FLW : blkFLW ∈ bl := by assumption) (h_b_SPC : blkSPC ∈ bl := by assumption) (h_b_CEL : blkCEL ∈ bl := by assumption) (h_b_GCL : blkGCL ∈ bl := by assumption) (h_b_KLN : blkKLN ∈ bl := by assumption) (h_b_MAC : blkMAC ∈ bl := by assumption) (h_b_TIM : blkTIM ∈ bl := by assumption) (h_b_CAS : blkCAS ∈ bl := by assumption) : Kept kb kl bl ko (wordChecked src unit idx data flip addr w res s) := by
  have h1 : Kept kb kl bl ko (injTake src idx s).2 := kept_injTake h_s
  unfold wordChecked
  generalize injTake src idx s = j at *
  dsimp only
  split
  · exact h1
  · exact kept_fltReport h1
  · exact kept_ite (kept_tskClock (kept_stateWordBad h1)) (kept_fltReport (kept_stateWordBad h1))

theorem kept_cellarChecked {a : Nat} {flip : BitVec 72} {s : State} (h_s : Kept kb kl bl ko s) (h_p_regs : Part.regs ∈ kl := by assumption) (h_p_mem : Part.mem ∈ kl := by assumption) (h_p_ecc : Part.ecc ∈ kl := by assumption) (h_p_flt : Part.flt ∈ kl := by assumption) (h_p_tsk : Part.tsk ∈ kl := by assumption) (h_b_FLT : blkFLT ∈ bl := by assumption) (h_b_TSK : blkTSK ∈ bl := by assumption) :
    Kept kb kl bl ko (cellarChecked a flip s) := by
  unfold cellarChecked
  with_reducible repeat' first
    | assumption
    | (intro sx; refine (have hsx : Kept kb kl bl ko sx := ?_; ?_); on_goal 2 => (try clear_value sx))
    | (intro sx; refine (have hsx : Kept kb kl bl ko sx.2.2 := ?_; ?_); on_goal 2 => (try clear_value sx))
    | (intro sx; try clear_value sx)
    | lift_lets
    | apply kept_readChecked
    | apply kept_tskClock
    | apply kept_setEcc
    | apply kept_ite
    | apply kept_ite22
    | refine Kept.of_mk ?_
    | split

theorem kept_faultLatch {src : Nat} {e : ErrReport} {s : State} (h_s : Kept kb kl bl ko s) (h_p_regs : Part.regs ∈ kl := by assumption) (h_p_shadow : Part.shadow ∈ kl := by assumption) (h_p_mem : Part.mem ∈ kl := by assumption) (h_p_ecc : Part.ecc ∈ kl := by assumption) (h_p_free : Part.free ∈ kl := by assumption) (h_p_cfg : Part.cfg ∈ kl := by assumption) (h_p_flt : Part.flt ∈ kl := by assumption) (h_p_tsk : Part.tsk ∈ kl := by assumption) (h_p_harts : Part.harts ∈ kl := by assumption) (h_p_pwr : Part.pwr ∈ kl := by assumption) (h_p_cel : Part.cel ∈ kl := by assumption) (h_p_sch : Part.sch ∈ kl := by assumption) (h_p_gcl : Part.gcl ∈ kl := by assumption) (h_p_kln : Part.kln ∈ kl := by assumption) (h_p_act : Part.act ∈ kl := by assumption) (h_p_ube : Part.ube ∈ kl := by assumption) (h_p_chp : Part.chp ∈ kl := by assumption) (h_p_dsf : Part.dsf ∈ kl := by assumption) (h_p_ohs : Part.ohs ∈ kl := by assumption) (h_p_pipes : Part.pipes ∈ kl := by assumption) (h_p_cls : Part.cls ∈ kl := by assumption) (h_p_flw : Part.flw ∈ kl := by assumption) (h_p_spc : Part.spc ∈ kl := by assumption) (h_p_mac : Part.mac ∈ kl := by assumption) (h_p_lph : Part.lph ∈ kl := by assumption) (h_p_tim : Part.tim ∈ kl := by assumption) (h_p_cas : Part.cas ∈ kl := by assumption) (h_b_CFG : blkCFG ∈ bl := by assumption) (h_b_PWR : blkPWR ∈ bl := by assumption) (h_b_FLT : blkFLT ∈ bl := by assumption) (h_b_TSK : blkTSK ∈ bl := by assumption) (h_b_LPH : blkLPH ∈ bl := by assumption) (h_b_DSF : blkDSF ∈ bl := by assumption) (h_b_ACT : blkACT ∈ bl := by assumption) (h_b_UBE : blkUBE ∈ bl := by assumption) (h_b_CHP : blkCHP ∈ bl := by assumption) (h_b_CLS : blkCLS ∈ bl := by assumption) (h_b_FLW : blkFLW ∈ bl := by assumption) (h_b_SPC : blkSPC ∈ bl := by assumption) (h_b_CEL : blkCEL ∈ bl := by assumption) (h_b_GCL : blkGCL ∈ bl := by assumption) (h_b_KLN : blkKLN ∈ bl := by assumption) (h_b_MAC : blkMAC ∈ bl := by assumption) (h_b_TIM : blkTIM ∈ bl := by assumption) (h_b_CAS : blkCAS ∈ bl := by assumption) : Kept kb kl bl ko (faultLatch src e s) := by
  unfold faultLatch
  split
  · split
    · exact kept_cellarChecked h_s
    · exact kept_wordChecked h_s
  · refine kept_fltReport (kept_ite ?_ h_s)
    exact Kept.of_mk h_s

theorem kept_keepDis {o : State} {s : State} (h_o : Kept kb kl bl ko o) (h_s : Kept kb kl bl ko s) (h_p_regs : Part.regs ∈ kl := by assumption) (h_b_ACT : blkACT ∈ bl := by assumption) :
    Kept kb kl bl ko (keepDis o s) := by
  unfold keepDis
  with_reducible repeat' first
    | assumption
    | (refine mem_guard ?_; with_unfolding_all (first | assumption | exact (by assumption : ∀ n, n ∈ bl) _ | exact blk_n (by decide) (by decide) (by assumption) | exact blk_un (by decide) (by decide) (by decide) (by assumption)))
    | apply kept_st_put
    | (apply kept_foldl; intro sy xy hy)
    | (apply kept_foldl2; intro sy xy hy)
    | (apply kept_foldl1; intro sy xy hy)
    | refine Kept.of_mk ?_

theorem kept_keepFuses {o s : State} (h_o : Kept kb kl bl ko o) (h_s : Inv s) (h_full : ∀ p, p ≠ Part.pending → p ≠ Part.free → p ∈ kl := by assumption) (h_all : ∀ n, n ∈ bl := by assumption) : Kept kb kl bl ko (keepFuses o s) := by
  obtain ⟨h_p_regs, h_p_shadow, h_p_mem, h_p_ecc, h_p_readOut, h_p_ticks, h_p_tod, h_p_cfg, h_p_flt, h_p_tsk, h_p_harts, h_p_acu, h_p_pwr, h_p_cel, h_p_sch, h_p_gcl, h_p_kln, h_p_act, h_p_ube, h_p_chp, h_p_dsf, h_p_ohs, h_p_pipes, h_p_cls, h_p_flw, h_p_spc, h_p_mac, h_p_lph, h_p_tim, h_p_cas, h_p_clk, h_p_tap, h_p_boot, h_p_power⟩ := full_parts h_full
  have h_b_CFG : blkCFG ∈ bl := h_all _
  have h_b_CLK : blkCLK ∈ bl := h_all _
  have h_b_PWR : blkPWR ∈ bl := h_all _
  have h_b_FLT : blkFLT ∈ bl := h_all _
  have h_b_TSK : blkTSK ∈ bl := h_all _
  have h_b_ACU : blkACU ∈ bl := h_all _
  have h_b_LPH : blkLPH ∈ bl := h_all _
  have h_b_DSF : blkDSF ∈ bl := h_all _
  have h_b_ACT : blkACT ∈ bl := h_all _
  have h_b_UBE : blkUBE ∈ bl := h_all _
  have h_b_CHP : blkCHP ∈ bl := h_all _
  have h_b_PRS : blkPRS ∈ bl := h_all _
  have h_b_CLS : blkCLS ∈ bl := h_all _
  have h_b_FLW : blkFLW ∈ bl := h_all _
  have h_b_SPC : blkSPC ∈ bl := h_all _
  have h_b_CEL : blkCEL ∈ bl := h_all _
  have h_b_SCH : blkSCH ∈ bl := h_all _
  have h_b_GCL : blkGCL ∈ bl := h_all _
  have h_b_CIP : blkCIP ∈ bl := h_all _
  have h_b_KLN : blkKLN ∈ bl := h_all _
  have h_b_MAC : blkMAC ∈ bl := h_all _
  have h_b_TIM : blkTIM ∈ bl := h_all _
  have h_b_OHS : blkOHS ∈ bl := h_all _
  have h_b_CAS : blkCAS ∈ bl := h_all _
  unfold keepFuses
  refine kept_st_put (s := { s with pending := o.pending, free := o.free, kln := { s.kln with rk := o.kln.rk },
                                    cfg := { s.cfg with keyHash := o.cfg.keyHash } })
    ⟨fun _ => h_s, fun p hp => ?_, fun a ha => absurd (h_all _) ha⟩
  cases p
  case pending => exact h_o.2.1 _ hp
  case free => exact h_o.2.1 _ hp
  all_goals exact absurd (by assumption) hp

theorem kept_resetTo {phase : BootPhase} {s : State} (h_s : Kept kb kl bl ko s) (h_full : ∀ p, p ≠ Part.pending → p ≠ Part.free → p ∈ kl := by assumption) (h_all : ∀ n, n ∈ bl := by assumption) :
    Kept kb kl bl ko (resetTo phase s) := by
  unfold resetTo
  obtain ⟨h_p_regs, h_p_shadow, h_p_mem, h_p_ecc, h_p_readOut, h_p_ticks, h_p_tod, h_p_cfg, h_p_flt, h_p_tsk, h_p_harts, h_p_acu, h_p_pwr, h_p_cel, h_p_sch, h_p_gcl, h_p_kln, h_p_act, h_p_ube, h_p_chp, h_p_dsf, h_p_ohs, h_p_pipes, h_p_cls, h_p_flw, h_p_spc, h_p_mac, h_p_lph, h_p_tim, h_p_cas, h_p_clk, h_p_tap, h_p_boot, h_p_power⟩ := full_parts h_full
  have h_b_CFG : blkCFG ∈ bl := h_all _
  have h_b_CLK : blkCLK ∈ bl := h_all _
  have h_b_PWR : blkPWR ∈ bl := h_all _
  have h_b_FLT : blkFLT ∈ bl := h_all _
  have h_b_TSK : blkTSK ∈ bl := h_all _
  have h_b_ACU : blkACU ∈ bl := h_all _
  have h_b_LPH : blkLPH ∈ bl := h_all _
  have h_b_DSF : blkDSF ∈ bl := h_all _
  have h_b_ACT : blkACT ∈ bl := h_all _
  have h_b_UBE : blkUBE ∈ bl := h_all _
  have h_b_CHP : blkCHP ∈ bl := h_all _
  have h_b_PRS : blkPRS ∈ bl := h_all _
  have h_b_CLS : blkCLS ∈ bl := h_all _
  have h_b_FLW : blkFLW ∈ bl := h_all _
  have h_b_SPC : blkSPC ∈ bl := h_all _
  have h_b_CEL : blkCEL ∈ bl := h_all _
  have h_b_SCH : blkSCH ∈ bl := h_all _
  have h_b_GCL : blkGCL ∈ bl := h_all _
  have h_b_CIP : blkCIP ∈ bl := h_all _
  have h_b_KLN : blkKLN ∈ bl := h_all _
  have h_b_MAC : blkMAC ∈ bl := h_all _
  have h_b_TIM : blkTIM ∈ bl := h_all _
  have h_b_OHS : blkOHS ∈ bl := h_all _
  have h_b_CAS : blkCAS ∈ bl := h_all _
  with_reducible repeat' first
    | assumption
    | exact inv_reset
    | (intro sx; refine (have hsx : Kept kb kl bl ko sx := ?_; ?_); on_goal 2 => (try clear_value sx))
    | (intro sx; try clear_value sx)
    | lift_lets
    | apply kept_keepFuses
    | apply kept_st_reset
    | apply kept_keepDis
    | refine Kept.of_mk ?_

theorem kept_deviceReset {s : State} (h_s : Kept kb kl bl ko s) (h_full : ∀ p, p ≠ Part.pending → p ≠ Part.free → p ∈ kl := by assumption) (h_all : ∀ n, n ∈ bl := by assumption) :
    Kept kb kl bl ko (deviceReset s) := by
  unfold deviceReset
  obtain ⟨h_p_regs, h_p_shadow, h_p_mem, h_p_ecc, h_p_readOut, h_p_ticks, h_p_tod, h_p_cfg, h_p_flt, h_p_tsk, h_p_harts, h_p_acu, h_p_pwr, h_p_cel, h_p_sch, h_p_gcl, h_p_kln, h_p_act, h_p_ube, h_p_chp, h_p_dsf, h_p_ohs, h_p_pipes, h_p_cls, h_p_flw, h_p_spc, h_p_mac, h_p_lph, h_p_tim, h_p_cas, h_p_clk, h_p_tap, h_p_boot, h_p_power⟩ := full_parts h_full
  have h_b_CFG : blkCFG ∈ bl := h_all _
  have h_b_CLK : blkCLK ∈ bl := h_all _
  have h_b_PWR : blkPWR ∈ bl := h_all _
  have h_b_FLT : blkFLT ∈ bl := h_all _
  have h_b_TSK : blkTSK ∈ bl := h_all _
  have h_b_ACU : blkACU ∈ bl := h_all _
  have h_b_LPH : blkLPH ∈ bl := h_all _
  have h_b_DSF : blkDSF ∈ bl := h_all _
  have h_b_ACT : blkACT ∈ bl := h_all _
  have h_b_UBE : blkUBE ∈ bl := h_all _
  have h_b_CHP : blkCHP ∈ bl := h_all _
  have h_b_PRS : blkPRS ∈ bl := h_all _
  have h_b_CLS : blkCLS ∈ bl := h_all _
  have h_b_FLW : blkFLW ∈ bl := h_all _
  have h_b_SPC : blkSPC ∈ bl := h_all _
  have h_b_CEL : blkCEL ∈ bl := h_all _
  have h_b_SCH : blkSCH ∈ bl := h_all _
  have h_b_GCL : blkGCL ∈ bl := h_all _
  have h_b_CIP : blkCIP ∈ bl := h_all _
  have h_b_KLN : blkKLN ∈ bl := h_all _
  have h_b_MAC : blkMAC ∈ bl := h_all _
  have h_b_TIM : blkTIM ∈ bl := h_all _
  have h_b_OHS : blkOHS ∈ bl := h_all _
  have h_b_CAS : blkCAS ∈ bl := h_all _
  with_reducible repeat' first
    | assumption
    | apply kept_resetTo
    | refine Kept.of_mk ?_

theorem kept_powerUp {s : State} (h_s : Kept kb kl bl ko s) (h_full : ∀ p, p ≠ Part.pending → p ≠ Part.free → p ∈ kl := by assumption) (h_all : ∀ n, n ∈ bl := by assumption) :
    Kept kb kl bl ko (powerUp s) := by
  unfold powerUp
  obtain ⟨h_p_regs, h_p_shadow, h_p_mem, h_p_ecc, h_p_readOut, h_p_ticks, h_p_tod, h_p_cfg, h_p_flt, h_p_tsk, h_p_harts, h_p_acu, h_p_pwr, h_p_cel, h_p_sch, h_p_gcl, h_p_kln, h_p_act, h_p_ube, h_p_chp, h_p_dsf, h_p_ohs, h_p_pipes, h_p_cls, h_p_flw, h_p_spc, h_p_mac, h_p_lph, h_p_tim, h_p_cas, h_p_clk, h_p_tap, h_p_boot, h_p_power⟩ := full_parts h_full
  have h_b_CFG : blkCFG ∈ bl := h_all _
  have h_b_CLK : blkCLK ∈ bl := h_all _
  have h_b_PWR : blkPWR ∈ bl := h_all _
  have h_b_FLT : blkFLT ∈ bl := h_all _
  have h_b_TSK : blkTSK ∈ bl := h_all _
  have h_b_ACU : blkACU ∈ bl := h_all _
  have h_b_LPH : blkLPH ∈ bl := h_all _
  have h_b_DSF : blkDSF ∈ bl := h_all _
  have h_b_ACT : blkACT ∈ bl := h_all _
  have h_b_UBE : blkUBE ∈ bl := h_all _
  have h_b_CHP : blkCHP ∈ bl := h_all _
  have h_b_PRS : blkPRS ∈ bl := h_all _
  have h_b_CLS : blkCLS ∈ bl := h_all _
  have h_b_FLW : blkFLW ∈ bl := h_all _
  have h_b_SPC : blkSPC ∈ bl := h_all _
  have h_b_CEL : blkCEL ∈ bl := h_all _
  have h_b_SCH : blkSCH ∈ bl := h_all _
  have h_b_GCL : blkGCL ∈ bl := h_all _
  have h_b_CIP : blkCIP ∈ bl := h_all _
  have h_b_KLN : blkKLN ∈ bl := h_all _
  have h_b_MAC : blkMAC ∈ bl := h_all _
  have h_b_TIM : blkTIM ∈ bl := h_all _
  have h_b_OHS : blkOHS ∈ bl := h_all _
  have h_b_CAS : blkCAS ∈ bl := h_all _
  with_reducible repeat' first
    | assumption
    | (refine mem_guard ?_; with_unfolding_all (first | assumption | exact (by assumption : ∀ n, n ∈ bl) _ | exact blk_n (by decide) (by decide) (by assumption) | exact blk_un (by decide) (by decide) (by decide) (by assumption)))
    | exact inv_reset
    | (intro sx; refine (have hsx : Kept kb kl bl ko sx := ?_; ?_); on_goal 2 => (try clear_value sx))
    | (intro sx; try clear_value sx)
    | lift_lets
    | apply kept_keepFuses
    | apply kept_st_put
    | apply kept_st_reset
    | refine Kept.of_mk ?_

theorem kept_vrEnRise {s : State} (h_s : Kept kb kl bl ko s) (h_full : ∀ p, p ≠ Part.pending → p ≠ Part.free → p ∈ kl := by assumption) (h_all : ∀ n, n ∈ bl := by assumption) :
    Kept kb kl bl ko (vrEnRise s) := by
  unfold vrEnRise
  obtain ⟨h_p_regs, h_p_shadow, h_p_mem, h_p_ecc, h_p_readOut, h_p_ticks, h_p_tod, h_p_cfg, h_p_flt, h_p_tsk, h_p_harts, h_p_acu, h_p_pwr, h_p_cel, h_p_sch, h_p_gcl, h_p_kln, h_p_act, h_p_ube, h_p_chp, h_p_dsf, h_p_ohs, h_p_pipes, h_p_cls, h_p_flw, h_p_spc, h_p_mac, h_p_lph, h_p_tim, h_p_cas, h_p_clk, h_p_tap, h_p_boot, h_p_power⟩ := full_parts h_full
  have h_b_CFG : blkCFG ∈ bl := h_all _
  have h_b_CLK : blkCLK ∈ bl := h_all _
  have h_b_PWR : blkPWR ∈ bl := h_all _
  have h_b_FLT : blkFLT ∈ bl := h_all _
  have h_b_TSK : blkTSK ∈ bl := h_all _
  have h_b_ACU : blkACU ∈ bl := h_all _
  have h_b_LPH : blkLPH ∈ bl := h_all _
  have h_b_DSF : blkDSF ∈ bl := h_all _
  have h_b_ACT : blkACT ∈ bl := h_all _
  have h_b_UBE : blkUBE ∈ bl := h_all _
  have h_b_CHP : blkCHP ∈ bl := h_all _
  have h_b_PRS : blkPRS ∈ bl := h_all _
  have h_b_CLS : blkCLS ∈ bl := h_all _
  have h_b_FLW : blkFLW ∈ bl := h_all _
  have h_b_SPC : blkSPC ∈ bl := h_all _
  have h_b_CEL : blkCEL ∈ bl := h_all _
  have h_b_SCH : blkSCH ∈ bl := h_all _
  have h_b_GCL : blkGCL ∈ bl := h_all _
  have h_b_CIP : blkCIP ∈ bl := h_all _
  have h_b_KLN : blkKLN ∈ bl := h_all _
  have h_b_MAC : blkMAC ∈ bl := h_all _
  have h_b_TIM : blkTIM ∈ bl := h_all _
  have h_b_OHS : blkOHS ∈ bl := h_all _
  have h_b_CAS : blkCAS ∈ bl := h_all _
  with_reducible repeat' first
    | assumption
    | (intro sx; refine (have hsx : Kept kb kl bl ko sx := ?_; ?_); on_goal 2 => (try clear_value sx))
    | (intro sx; try clear_value sx)
    | lift_lets
    | apply kept_resetTo
    | apply kept_deviceReset
    | apply kept_ite
    | refine Kept.of_mk ?_
    | split

theorem kept_vrEnFall {s : State} (h_s : Kept kb kl bl ko s) (h_full : ∀ p, p ≠ Part.pending → p ≠ Part.free → p ∈ kl := by assumption) (h_all : ∀ n, n ∈ bl := by assumption) :
    Kept kb kl bl ko (vrEnFall s) := by
  unfold vrEnFall
  obtain ⟨h_p_regs, h_p_shadow, h_p_mem, h_p_ecc, h_p_readOut, h_p_ticks, h_p_tod, h_p_cfg, h_p_flt, h_p_tsk, h_p_harts, h_p_acu, h_p_pwr, h_p_cel, h_p_sch, h_p_gcl, h_p_kln, h_p_act, h_p_ube, h_p_chp, h_p_dsf, h_p_ohs, h_p_pipes, h_p_cls, h_p_flw, h_p_spc, h_p_mac, h_p_lph, h_p_tim, h_p_cas, h_p_clk, h_p_tap, h_p_boot, h_p_power⟩ := full_parts h_full
  have h_b_CFG : blkCFG ∈ bl := h_all _
  have h_b_CLK : blkCLK ∈ bl := h_all _
  have h_b_PWR : blkPWR ∈ bl := h_all _
  have h_b_FLT : blkFLT ∈ bl := h_all _
  have h_b_TSK : blkTSK ∈ bl := h_all _
  have h_b_ACU : blkACU ∈ bl := h_all _
  have h_b_LPH : blkLPH ∈ bl := h_all _
  have h_b_DSF : blkDSF ∈ bl := h_all _
  have h_b_ACT : blkACT ∈ bl := h_all _
  have h_b_UBE : blkUBE ∈ bl := h_all _
  have h_b_CHP : blkCHP ∈ bl := h_all _
  have h_b_PRS : blkPRS ∈ bl := h_all _
  have h_b_CLS : blkCLS ∈ bl := h_all _
  have h_b_FLW : blkFLW ∈ bl := h_all _
  have h_b_SPC : blkSPC ∈ bl := h_all _
  have h_b_CEL : blkCEL ∈ bl := h_all _
  have h_b_SCH : blkSCH ∈ bl := h_all _
  have h_b_GCL : blkGCL ∈ bl := h_all _
  have h_b_CIP : blkCIP ∈ bl := h_all _
  have h_b_KLN : blkKLN ∈ bl := h_all _
  have h_b_MAC : blkMAC ∈ bl := h_all _
  have h_b_TIM : blkTIM ∈ bl := h_all _
  have h_b_OHS : blkOHS ∈ bl := h_all _
  have h_b_CAS : blkCAS ∈ bl := h_all _
  with_reducible repeat' first
    | assumption
    | apply kept_resetTo
    | refine Kept.of_mk ?_

theorem kept_powerLoss {vaon : Bool} {s : State} (h_s : Kept kb kl bl ko s) (h_full : ∀ p, p ≠ Part.pending → p ≠ Part.free → p ∈ kl := by assumption) (h_all : ∀ n, n ∈ bl := by assumption) :
    Kept kb kl bl ko (powerLoss vaon s) := by
  unfold powerLoss
  obtain ⟨h_p_regs, h_p_shadow, h_p_mem, h_p_ecc, h_p_readOut, h_p_ticks, h_p_tod, h_p_cfg, h_p_flt, h_p_tsk, h_p_harts, h_p_acu, h_p_pwr, h_p_cel, h_p_sch, h_p_gcl, h_p_kln, h_p_act, h_p_ube, h_p_chp, h_p_dsf, h_p_ohs, h_p_pipes, h_p_cls, h_p_flw, h_p_spc, h_p_mac, h_p_lph, h_p_tim, h_p_cas, h_p_clk, h_p_tap, h_p_boot, h_p_power⟩ := full_parts h_full
  have h_b_CFG : blkCFG ∈ bl := h_all _
  have h_b_CLK : blkCLK ∈ bl := h_all _
  have h_b_PWR : blkPWR ∈ bl := h_all _
  have h_b_FLT : blkFLT ∈ bl := h_all _
  have h_b_TSK : blkTSK ∈ bl := h_all _
  have h_b_ACU : blkACU ∈ bl := h_all _
  have h_b_LPH : blkLPH ∈ bl := h_all _
  have h_b_DSF : blkDSF ∈ bl := h_all _
  have h_b_ACT : blkACT ∈ bl := h_all _
  have h_b_UBE : blkUBE ∈ bl := h_all _
  have h_b_CHP : blkCHP ∈ bl := h_all _
  have h_b_PRS : blkPRS ∈ bl := h_all _
  have h_b_CLS : blkCLS ∈ bl := h_all _
  have h_b_FLW : blkFLW ∈ bl := h_all _
  have h_b_SPC : blkSPC ∈ bl := h_all _
  have h_b_CEL : blkCEL ∈ bl := h_all _
  have h_b_SCH : blkSCH ∈ bl := h_all _
  have h_b_GCL : blkGCL ∈ bl := h_all _
  have h_b_CIP : blkCIP ∈ bl := h_all _
  have h_b_KLN : blkKLN ∈ bl := h_all _
  have h_b_MAC : blkMAC ∈ bl := h_all _
  have h_b_TIM : blkTIM ∈ bl := h_all _
  have h_b_OHS : blkOHS ∈ bl := h_all _
  have h_b_CAS : blkCAS ∈ bl := h_all _
  with_reducible repeat' first
    | assumption
    | exact inv_reset
    | (intro sx; refine (have hsx : Kept kb kl bl ko sx := ?_; ?_); on_goal 2 => (try clear_value sx))
    | (intro sx; try clear_value sx)
    | lift_lets
    | apply kept_keepFuses
    | apply kept_resetTo
    | apply kept_st_reset
    | apply kept_ite
    | refine Kept.of_mk ?_
    | split

theorem kept_resetPin {s : State} (h_s : Kept kb kl bl ko s) (h_full : ∀ p, p ≠ Part.pending → p ≠ Part.free → p ∈ kl := by assumption) (h_all : ∀ n, n ∈ bl := by assumption) :
    Kept kb kl bl ko (resetPin s) := by
  unfold resetPin
  obtain ⟨h_p_regs, h_p_shadow, h_p_mem, h_p_ecc, h_p_readOut, h_p_ticks, h_p_tod, h_p_cfg, h_p_flt, h_p_tsk, h_p_harts, h_p_acu, h_p_pwr, h_p_cel, h_p_sch, h_p_gcl, h_p_kln, h_p_act, h_p_ube, h_p_chp, h_p_dsf, h_p_ohs, h_p_pipes, h_p_cls, h_p_flw, h_p_spc, h_p_mac, h_p_lph, h_p_tim, h_p_cas, h_p_clk, h_p_tap, h_p_boot, h_p_power⟩ := full_parts h_full
  have h_b_CFG : blkCFG ∈ bl := h_all _
  have h_b_CLK : blkCLK ∈ bl := h_all _
  have h_b_PWR : blkPWR ∈ bl := h_all _
  have h_b_FLT : blkFLT ∈ bl := h_all _
  have h_b_TSK : blkTSK ∈ bl := h_all _
  have h_b_ACU : blkACU ∈ bl := h_all _
  have h_b_LPH : blkLPH ∈ bl := h_all _
  have h_b_DSF : blkDSF ∈ bl := h_all _
  have h_b_ACT : blkACT ∈ bl := h_all _
  have h_b_UBE : blkUBE ∈ bl := h_all _
  have h_b_CHP : blkCHP ∈ bl := h_all _
  have h_b_PRS : blkPRS ∈ bl := h_all _
  have h_b_CLS : blkCLS ∈ bl := h_all _
  have h_b_FLW : blkFLW ∈ bl := h_all _
  have h_b_SPC : blkSPC ∈ bl := h_all _
  have h_b_CEL : blkCEL ∈ bl := h_all _
  have h_b_SCH : blkSCH ∈ bl := h_all _
  have h_b_GCL : blkGCL ∈ bl := h_all _
  have h_b_CIP : blkCIP ∈ bl := h_all _
  have h_b_KLN : blkKLN ∈ bl := h_all _
  have h_b_MAC : blkMAC ∈ bl := h_all _
  have h_b_TIM : blkTIM ∈ bl := h_all _
  have h_b_OHS : blkOHS ∈ bl := h_all _
  have h_b_CAS : blkCAS ∈ bl := h_all _
  with_reducible repeat' first
    | assumption
    | apply kept_resetTo
    | apply kept_deviceReset
    | apply kept_ite
    | refine Kept.of_mk ?_
    | split

theorem kept_bootStart {mgr : Bool} {safeN : Bool} {s : State} (h_s : Kept kb kl bl ko s) (h_p_regs : Part.regs ∈ kl := by assumption) (h_p_mem : Part.mem ∈ kl := by assumption) (h_p_ecc : Part.ecc ∈ kl := by assumption) (h_p_cfg : Part.cfg ∈ kl := by assumption) (h_p_flt : Part.flt ∈ kl := by assumption) (h_p_tsk : Part.tsk ∈ kl := by assumption) (h_p_harts : Part.harts ∈ kl := by assumption) (h_p_cel : Part.cel ∈ kl := by assumption) (h_p_sch : Part.sch ∈ kl := by assumption) (h_p_kln : Part.kln ∈ kl := by assumption) (h_p_act : Part.act ∈ kl := by assumption) (h_p_ube : Part.ube ∈ kl := by assumption) (h_p_chp : Part.chp ∈ kl := by assumption) (h_p_dsf : Part.dsf ∈ kl := by assumption) (h_p_ohs : Part.ohs ∈ kl := by assumption) (h_p_pipes : Part.pipes ∈ kl := by assumption) (h_p_spc : Part.spc ∈ kl := by assumption) (h_p_tim : Part.tim ∈ kl := by assumption) (h_p_cas : Part.cas ∈ kl := by assumption) (h_p_boot : Part.boot ∈ kl := by assumption) (h_b_CFG : blkCFG ∈ bl := by assumption) (h_b_CLK : blkCLK ∈ bl := by assumption) (h_b_FLT : blkFLT ∈ bl := by assumption) (h_b_TSK : blkTSK ∈ bl := by assumption) (h_b_LPH : blkLPH ∈ bl := by assumption) (h_b_DSF : blkDSF ∈ bl := by assumption) (h_b_ACT : blkACT ∈ bl := by assumption) (h_b_UBE : blkUBE ∈ bl := by assumption) (h_b_CHP : blkCHP ∈ bl := by assumption) (h_b_SPC : blkSPC ∈ bl := by assumption) (h_b_CEL : blkCEL ∈ bl := by assumption) (h_b_KLN : blkKLN ∈ bl := by assumption) (h_b_TIM : blkTIM ∈ bl := by assumption) (h_b_CAS : blkCAS ∈ bl := by assumption) :
    Kept kb kl bl ko (bootStart mgr safeN s) := by
  unfold bootStart
  with_reducible repeat' first
    | assumption
    | (refine mem_guard ?_; with_unfolding_all (first | assumption | exact (by assumption : ∀ n, n ∈ bl) _ | exact blk_n (by decide) (by decide) (by assumption) | exact blk_un (by decide) (by decide) (by decide) (by assumption)))
    | (intro sx; refine (have hsx : Kept kb kl bl ko sx := ?_; ?_); on_goal 2 => (try clear_value sx))
    | (intro sx; try clear_value sx)
    | lift_lets
    | apply kept_st_put
    | apply kept_st_setHart
    | apply kept_showFree
    | apply kept_runBlocks
    | refine Kept.of_mk ?_

theorem kept_resetRelease {mgr : Bool} {safeN : Bool} {s : State} (h_s : Kept kb kl bl ko s) (h_p_regs : Part.regs ∈ kl := by assumption) (h_p_mem : Part.mem ∈ kl := by assumption) (h_p_ecc : Part.ecc ∈ kl := by assumption) (h_p_cfg : Part.cfg ∈ kl := by assumption) (h_p_flt : Part.flt ∈ kl := by assumption) (h_p_tsk : Part.tsk ∈ kl := by assumption) (h_p_harts : Part.harts ∈ kl := by assumption) (h_p_cel : Part.cel ∈ kl := by assumption) (h_p_sch : Part.sch ∈ kl := by assumption) (h_p_kln : Part.kln ∈ kl := by assumption) (h_p_act : Part.act ∈ kl := by assumption) (h_p_ube : Part.ube ∈ kl := by assumption) (h_p_chp : Part.chp ∈ kl := by assumption) (h_p_dsf : Part.dsf ∈ kl := by assumption) (h_p_ohs : Part.ohs ∈ kl := by assumption) (h_p_pipes : Part.pipes ∈ kl := by assumption) (h_p_spc : Part.spc ∈ kl := by assumption) (h_p_tim : Part.tim ∈ kl := by assumption) (h_p_cas : Part.cas ∈ kl := by assumption) (h_p_boot : Part.boot ∈ kl := by assumption) (h_b_CFG : blkCFG ∈ bl := by assumption) (h_b_CLK : blkCLK ∈ bl := by assumption) (h_b_FLT : blkFLT ∈ bl := by assumption) (h_b_TSK : blkTSK ∈ bl := by assumption) (h_b_LPH : blkLPH ∈ bl := by assumption) (h_b_DSF : blkDSF ∈ bl := by assumption) (h_b_ACT : blkACT ∈ bl := by assumption) (h_b_UBE : blkUBE ∈ bl := by assumption) (h_b_CHP : blkCHP ∈ bl := by assumption) (h_b_SPC : blkSPC ∈ bl := by assumption) (h_b_CEL : blkCEL ∈ bl := by assumption) (h_b_KLN : blkKLN ∈ bl := by assumption) (h_b_TIM : blkTIM ∈ bl := by assumption) (h_b_CAS : blkCAS ∈ bl := by assumption) :
    Kept kb kl bl ko (resetRelease mgr safeN s) := by
  unfold resetRelease
  with_reducible repeat' first
    | assumption
    | apply kept_bootStart
    | apply kept_ite
    | refine Kept.of_mk ?_
    | split

theorem kept_bootFailed {s : State} (h_s : Kept kb kl bl ko s) (h_p_regs : Part.regs ∈ kl := by assumption) (h_p_cfg : Part.cfg ∈ kl := by assumption) (h_p_flt : Part.flt ∈ kl := by assumption) (h_p_harts : Part.harts ∈ kl := by assumption) (h_p_cel : Part.cel ∈ kl := by assumption) (h_p_sch : Part.sch ∈ kl := by assumption) (h_p_kln : Part.kln ∈ kl := by assumption) (h_p_act : Part.act ∈ kl := by assumption) (h_p_ube : Part.ube ∈ kl := by assumption) (h_p_chp : Part.chp ∈ kl := by assumption) (h_p_dsf : Part.dsf ∈ kl := by assumption) (h_p_ohs : Part.ohs ∈ kl := by assumption) (h_p_pipes : Part.pipes ∈ kl := by assumption) (h_p_spc : Part.spc ∈ kl := by assumption) (h_p_mac : Part.mac ∈ kl := by assumption) (h_p_tim : Part.tim ∈ kl := by assumption) (h_p_cas : Part.cas ∈ kl := by assumption) (h_p_boot : Part.boot ∈ kl := by assumption) (h_b_CFG : blkCFG ∈ bl := by assumption) (h_b_FLT : blkFLT ∈ bl := by assumption) (h_b_LPH : blkLPH ∈ bl := by assumption) (h_b_DSF : blkDSF ∈ bl := by assumption) (h_b_ACT : blkACT ∈ bl := by assumption) (h_b_UBE : blkUBE ∈ bl := by assumption) (h_b_CHP : blkCHP ∈ bl := by assumption) (h_b_SPC : blkSPC ∈ bl := by assumption) (h_b_CEL : blkCEL ∈ bl := by assumption) (h_b_KLN : blkKLN ∈ bl := by assumption) (h_b_TIM : blkTIM ∈ bl := by assumption) (h_b_CAS : blkCAS ∈ bl := by assumption) :
    Kept kb kl bl ko (bootFailed s) := by
  unfold bootFailed
  with_reducible repeat' first
    | assumption
    | (intro sx; refine (have hsx : Kept kb kl bl ko sx := ?_; ?_); on_goal 2 => (try clear_value sx))
    | (intro sx; try clear_value sx)
    | lift_lets
    | apply kept_haltHarts
    | apply kept_stopBlocks
    | apply kept_enterSafe
    | refine Kept.of_mk ?_

theorem kept_bothFail {code : Nat} {s : State} (h_s : Kept kb kl bl ko s) (h_p_regs : Part.regs ∈ kl := by assumption) (h_p_cfg : Part.cfg ∈ kl := by assumption) (h_p_flt : Part.flt ∈ kl := by assumption) (h_p_harts : Part.harts ∈ kl := by assumption) (h_p_cel : Part.cel ∈ kl := by assumption) (h_p_sch : Part.sch ∈ kl := by assumption) (h_p_kln : Part.kln ∈ kl := by assumption) (h_p_act : Part.act ∈ kl := by assumption) (h_p_ube : Part.ube ∈ kl := by assumption) (h_p_chp : Part.chp ∈ kl := by assumption) (h_p_dsf : Part.dsf ∈ kl := by assumption) (h_p_ohs : Part.ohs ∈ kl := by assumption) (h_p_pipes : Part.pipes ∈ kl := by assumption) (h_p_spc : Part.spc ∈ kl := by assumption) (h_p_mac : Part.mac ∈ kl := by assumption) (h_p_tim : Part.tim ∈ kl := by assumption) (h_p_cas : Part.cas ∈ kl := by assumption) (h_p_boot : Part.boot ∈ kl := by assumption) (h_b_CFG : blkCFG ∈ bl := by assumption) (h_b_FLT : blkFLT ∈ bl := by assumption) (h_b_LPH : blkLPH ∈ bl := by assumption) (h_b_DSF : blkDSF ∈ bl := by assumption) (h_b_ACT : blkACT ∈ bl := by assumption) (h_b_UBE : blkUBE ∈ bl := by assumption) (h_b_CHP : blkCHP ∈ bl := by assumption) (h_b_SPC : blkSPC ∈ bl := by assumption) (h_b_CEL : blkCEL ∈ bl := by assumption) (h_b_KLN : blkKLN ∈ bl := by assumption) (h_b_TIM : blkTIM ∈ bl := by assumption) (h_b_CAS : blkCAS ∈ bl := by assumption) :
    Kept kb kl bl ko (bothFail code s) := by
  unfold bothFail
  with_reducible repeat' first
    | assumption
    | (refine mem_guard ?_; with_unfolding_all (first | assumption | exact (by assumption : ∀ n, n ∈ bl) _ | exact blk_n (by decide) (by decide) (by assumption) | exact blk_un (by decide) (by decide) (by decide) (by assumption) | exact blk_copyCode (by assumption)))
    | apply kept_bootFailed
    | apply kept_st_wr
    | refine Kept.of_mk ?_

theorem kept_sfdpDone {answered : Bool} {width : Nat} {mib : Nat} {s : State} (h_s : Kept kb kl bl ko s) (h_p_regs : Part.regs ∈ kl := by assumption) (h_p_cfg : Part.cfg ∈ kl := by assumption) (h_p_flt : Part.flt ∈ kl := by assumption) (h_p_harts : Part.harts ∈ kl := by assumption) (h_p_cel : Part.cel ∈ kl := by assumption) (h_p_sch : Part.sch ∈ kl := by assumption) (h_p_kln : Part.kln ∈ kl := by assumption) (h_p_act : Part.act ∈ kl := by assumption) (h_p_ube : Part.ube ∈ kl := by assumption) (h_p_chp : Part.chp ∈ kl := by assumption) (h_p_dsf : Part.dsf ∈ kl := by assumption) (h_p_ohs : Part.ohs ∈ kl := by assumption) (h_p_pipes : Part.pipes ∈ kl := by assumption) (h_p_spc : Part.spc ∈ kl := by assumption) (h_p_mac : Part.mac ∈ kl := by assumption) (h_p_tim : Part.tim ∈ kl := by assumption) (h_p_cas : Part.cas ∈ kl := by assumption) (h_p_boot : Part.boot ∈ kl := by assumption) (h_b_CFG : blkCFG ∈ bl := by assumption) (h_b_CLK : blkCLK ∈ bl := by assumption) (h_b_FLT : blkFLT ∈ bl := by assumption) (h_b_LPH : blkLPH ∈ bl := by assumption) (h_b_DSF : blkDSF ∈ bl := by assumption) (h_b_ACT : blkACT ∈ bl := by assumption) (h_b_UBE : blkUBE ∈ bl := by assumption) (h_b_CHP : blkCHP ∈ bl := by assumption) (h_b_SPC : blkSPC ∈ bl := by assumption) (h_b_CEL : blkCEL ∈ bl := by assumption) (h_b_KLN : blkKLN ∈ bl := by assumption) (h_b_TIM : blkTIM ∈ bl := by assumption) (h_b_CAS : blkCAS ∈ bl := by assumption) :
    Kept kb kl bl ko (sfdpDone answered width mib s) := by
  unfold sfdpDone
  with_reducible repeat' first
    | assumption
    | (refine mem_guard ?_; with_unfolding_all (first | assumption | exact (by assumption : ∀ n, n ∈ bl) _ | exact blk_n (by decide) (by decide) (by assumption) | exact blk_un (by decide) (by decide) (by decide) (by assumption) | exact blk_ite (by assumption) (by assumption) | exact blk_ite (by exact blk_n (by decide) (by decide) (by assumption)) (by exact blk_n (by decide) (by decide) (by assumption))))
    | (intro sx; refine (have hsx : Kept kb kl bl ko sx := ?_; ?_); on_goal 2 => (try clear_value sx))
    | (intro sx; try clear_value sx)
    | lift_lets
    | apply kept_bothFail
    | apply kept_st_put
    | apply kept_st_wr
    | apply kept_ite
    | refine Kept.of_mk ?_
    | split

theorem kept_spiGo {o s : State} (h_o : Kept kb kl bl ko o) (h_s : Kept kb kl bl ko s) (h_p_regs : Part.regs ∈ kl := by assumption) (h_p_cfg : Part.cfg ∈ kl := by assumption) (h_b_CFG : blkCFG ∈ bl := by assumption) : Kept kb kl bl ko (spiGo o s) := by
  unfold spiGo
  dsimp only
  refine kept_ite h_o (kept_ite (kept_st_put (kept_st_put h_s)) ?_)
  exact Kept.of_mk (s := s.put CFG_SPI_CMD_GO true) (kept_st_put h_s) (c_boot := Or.inl rfl)

theorem kept_spiDone {ok : Bool} {data : Bytes} {s : State} (h_s : Kept kb kl bl ko s) (h_p_regs : Part.regs ∈ kl := by assumption) (h_p_cfg : Part.cfg ∈ kl := by assumption) (h_b_CFG : blkCFG ∈ bl := by assumption) :
    Kept kb kl bl ko (spiDone ok data s) := by
  unfold spiDone
  with_reducible repeat' first
    | assumption
    | (refine mem_guard ?_; with_unfolding_all (first | assumption | exact (by assumption : ∀ n, n ∈ bl) _ | exact blk_n (by decide) (by decide) (by assumption) | exact blk_un (by decide) (by decide) (by decide) (by assumption) | exact blk_ite (by assumption) (by assumption) | exact blk_ite (by exact blk_n (by decide) (by decide) (by assumption)) (by exact blk_n (by decide) (by decide) (by assumption))))
    | (intro sx; refine (have hsx : Kept kb kl bl ko sx := ?_; ?_); on_goal 2 => (try clear_value sx))
    | intro sx
    | lift_lets
    | apply kept_st_put
    | apply kept_setReg
    | apply kept_ite
    | (apply kept_foldl; intro sy xy hy)
    | (apply kept_foldl2; intro sy xy hy)
    | (apply kept_foldl1; intro sy xy hy)
    | split
    | dsimp only [sx]
    | refine Kept.of_mk ?_

theorem kept_copyFails {code : Nat} {s : State} (h_s : Kept kb kl bl ko s) (h_p_regs : Part.regs ∈ kl := by assumption) (h_p_cfg : Part.cfg ∈ kl := by assumption) (h_p_flt : Part.flt ∈ kl := by assumption) (h_p_harts : Part.harts ∈ kl := by assumption) (h_p_cel : Part.cel ∈ kl := by assumption) (h_p_sch : Part.sch ∈ kl := by assumption) (h_p_kln : Part.kln ∈ kl := by assumption) (h_p_act : Part.act ∈ kl := by assumption) (h_p_ube : Part.ube ∈ kl := by assumption) (h_p_chp : Part.chp ∈ kl := by assumption) (h_p_dsf : Part.dsf ∈ kl := by assumption) (h_p_ohs : Part.ohs ∈ kl := by assumption) (h_p_pipes : Part.pipes ∈ kl := by assumption) (h_p_spc : Part.spc ∈ kl := by assumption) (h_p_mac : Part.mac ∈ kl := by assumption) (h_p_tim : Part.tim ∈ kl := by assumption) (h_p_cas : Part.cas ∈ kl := by assumption) (h_p_boot : Part.boot ∈ kl := by assumption) (h_b_CFG : blkCFG ∈ bl := by assumption) (h_b_FLT : blkFLT ∈ bl := by assumption) (h_b_LPH : blkLPH ∈ bl := by assumption) (h_b_DSF : blkDSF ∈ bl := by assumption) (h_b_ACT : blkACT ∈ bl := by assumption) (h_b_UBE : blkUBE ∈ bl := by assumption) (h_b_CHP : blkCHP ∈ bl := by assumption) (h_b_SPC : blkSPC ∈ bl := by assumption) (h_b_CEL : blkCEL ∈ bl := by assumption) (h_b_KLN : blkKLN ∈ bl := by assumption) (h_b_TIM : blkTIM ∈ bl := by assumption) (h_b_CAS : blkCAS ∈ bl := by assumption) :
    Kept kb kl bl ko (copyFails code s) := by
  unfold copyFails
  with_reducible repeat' first
    | assumption
    | (refine mem_guard ?_; with_unfolding_all (first | assumption | exact (by assumption : ∀ n, n ∈ bl) _ | exact blk_n (by decide) (by decide) (by assumption) | exact blk_un (by decide) (by decide) (by decide) (by assumption) | exact blk_ite (by assumption) (by assumption) | exact blk_ite (by exact blk_n (by decide) (by decide) (by assumption)) (by exact blk_n (by decide) (by decide) (by assumption)) | exact blk_copyCode (by assumption)))
    | (intro sx; refine (have hsx : Kept kb kl bl ko sx := ?_; ?_); on_goal 2 => (try clear_value sx))
    | (intro sx; try clear_value sx)
    | lift_lets
    | apply kept_bootFailed
    | apply kept_st_wr
    | apply kept_ite
    | refine Kept.of_mk ?_
    | split

theorem kept_headersRead {a : Bytes} {b : Bytes} {errA : Bool} {errB : Bool} {s : State} (h_s : Kept kb kl bl ko s) (h_p_regs : Part.regs ∈ kl := by assumption) (h_p_cfg : Part.cfg ∈ kl := by assumption) (h_p_flt : Part.flt ∈ kl := by assumption) (h_p_harts : Part.harts ∈ kl := by assumption) (h_p_cel : Part.cel ∈ kl := by assumption) (h_p_sch : Part.sch ∈ kl := by assumption) (h_p_kln : Part.kln ∈ kl := by assumption) (h_p_act : Part.act ∈ kl := by assumption) (h_p_ube : Part.ube ∈ kl := by assumption) (h_p_chp : Part.chp ∈ kl := by assumption) (h_p_dsf : Part.dsf ∈ kl := by assumption) (h_p_ohs : Part.ohs ∈ kl := by assumption) (h_p_pipes : Part.pipes ∈ kl := by assumption) (h_p_spc : Part.spc ∈ kl := by assumption) (h_p_mac : Part.mac ∈ kl := by assumption) (h_p_tim : Part.tim ∈ kl := by assumption) (h_p_cas : Part.cas ∈ kl := by assumption) (h_p_boot : Part.boot ∈ kl := by assumption) (h_b_CFG : blkCFG ∈ bl := by assumption) (h_b_CLK : blkCLK ∈ bl := by assumption) (h_b_FLT : blkFLT ∈ bl := by assumption) (h_b_LPH : blkLPH ∈ bl := by assumption) (h_b_DSF : blkDSF ∈ bl := by assumption) (h_b_ACT : blkACT ∈ bl := by assumption) (h_b_UBE : blkUBE ∈ bl := by assumption) (h_b_CHP : blkCHP ∈ bl := by assumption) (h_b_SPC : blkSPC ∈ bl := by assumption) (h_b_CEL : blkCEL ∈ bl := by assumption) (h_b_KLN : blkKLN ∈ bl := by assumption) (h_b_TIM : blkTIM ∈ bl := by assumption) (h_b_CAS : blkCAS ∈ bl := by assumption) :
    Kept kb kl bl ko (headersRead a b errA errB s) := by
  unfold headersRead
  with_reducible repeat' first
    | assumption
    | (refine mem_guard ?_; with_unfolding_all (first | assumption | exact (by assumption : ∀ n, n ∈ bl) _ | exact blk_n (by decide) (by decide) (by assumption) | exact blk_un (by decide) (by decide) (by decide) (by assumption) | exact blk_ite (by assumption) (by assumption) | exact blk_ite (by exact blk_n (by decide) (by decide) (by assumption)) (by exact blk_n (by decide) (by decide) (by assumption)) | exact blk_copyCode (by assumption)))
    | (intro sx; refine (have hsx : Kept kb kl bl ko sx := ?_; ?_); on_goal 2 => (try clear_value sx))
    | (intro sx; try clear_value sx)
    | lift_lets
    | apply kept_bootFailed
    | apply kept_st_put
    | apply kept_sfdpDone
    | apply kept_st_wr
    | apply kept_ite
    | refine Kept.of_mk ?_
    | split

theorem kept_loadSections {l : List Section} {data : List Bytes} {s : State} (h_s : Kept kb kl bl ko s) (h_p_mem : Part.mem ∈ kl := by assumption) (h_p_ecc : Part.ecc ∈ kl := by assumption) :
    Kept kb kl bl ko (loadSections l data s) := by
  unfold loadSections
  with_reducible repeat' first
    | assumption
    | apply kept_setBytes
    | (apply kept_foldl; intro sy xy hy)
    | (apply kept_foldl2; intro sy xy hy)
    | (apply kept_foldl1; intro sy xy hy)
    | refine Kept.of_mk ?_

theorem kept_copyValidated {readOk : Bool} {data : List Bytes} {s : State} (h_s : Kept kb kl bl ko s) (h_p_regs : Part.regs ∈ kl := by assumption) (h_p_mem : Part.mem ∈ kl := by assumption) (h_p_ecc : Part.ecc ∈ kl := by assumption) (h_p_cfg : Part.cfg ∈ kl := by assumption) (h_p_flt : Part.flt ∈ kl := by assumption) (h_p_harts : Part.harts ∈ kl := by assumption) (h_p_cel : Part.cel ∈ kl := by assumption) (h_p_sch : Part.sch ∈ kl := by assumption) (h_p_kln : Part.kln ∈ kl := by assumption) (h_p_act : Part.act ∈ kl := by assumption) (h_p_ube : Part.ube ∈ kl := by assumption) (h_p_chp : Part.chp ∈ kl := by assumption) (h_p_dsf : Part.dsf ∈ kl := by assumption) (h_p_ohs : Part.ohs ∈ kl := by assumption) (h_p_pipes : Part.pipes ∈ kl := by assumption) (h_p_spc : Part.spc ∈ kl := by assumption) (h_p_mac : Part.mac ∈ kl := by assumption) (h_p_tim : Part.tim ∈ kl := by assumption) (h_p_cas : Part.cas ∈ kl := by assumption) (h_p_boot : Part.boot ∈ kl := by assumption) (h_b_CFG : blkCFG ∈ bl := by assumption) (h_b_CLK : blkCLK ∈ bl := by assumption) (h_b_FLT : blkFLT ∈ bl := by assumption) (h_b_LPH : blkLPH ∈ bl := by assumption) (h_b_DSF : blkDSF ∈ bl := by assumption) (h_b_ACT : blkACT ∈ bl := by assumption) (h_b_UBE : blkUBE ∈ bl := by assumption) (h_b_CHP : blkCHP ∈ bl := by assumption) (h_b_SPC : blkSPC ∈ bl := by assumption) (h_b_CEL : blkCEL ∈ bl := by assumption) (h_b_KLN : blkKLN ∈ bl := by assumption) (h_b_TIM : blkTIM ∈ bl := by assumption) (h_b_CAS : blkCAS ∈ bl := by assumption) :
    Kept kb kl bl ko (copyValidated readOk data s) := by
  unfold copyValidated
  with_reducible repeat' first
    | assumption
    | (refine mem_guard ?_; with_unfolding_all (first | assumption | exact (by assumption : ∀ n, n ∈ bl) _ | exact blk_n (by decide) (by decide) (by assumption) | exact blk_un (by decide) (by decide) (by decide) (by assumption) | exact blk_ite (by assumption) (by assumption) | exact blk_ite (by exact blk_n (by decide) (by decide) (by assumption)) (by exact blk_n (by decide) (by decide) (by assumption)) | exact blk_copyCode (by assumption)))
    | (intro sx; refine (have hsx : Kept kb kl bl ko sx := ?_; ?_); on_goal 2 => (try clear_value sx))
    | (intro sx; try clear_value sx)
    | lift_lets
    | apply kept_copyFails
    | apply kept_st_put
    | apply kept_headersRead
    | apply kept_st_wr
    | apply kept_loadSections
    | apply kept_ite
    | refine Kept.of_mk ?_
    | split

theorem kept_bootWaitEnds {s : State} (h_s : Kept kb kl bl ko s) (h_p_regs : Part.regs ∈ kl := by assumption) (h_p_cfg : Part.cfg ∈ kl := by assumption) (h_p_flt : Part.flt ∈ kl := by assumption) (h_p_harts : Part.harts ∈ kl := by assumption) (h_p_cel : Part.cel ∈ kl := by assumption) (h_p_sch : Part.sch ∈ kl := by assumption) (h_p_kln : Part.kln ∈ kl := by assumption) (h_p_act : Part.act ∈ kl := by assumption) (h_p_ube : Part.ube ∈ kl := by assumption) (h_p_chp : Part.chp ∈ kl := by assumption) (h_p_dsf : Part.dsf ∈ kl := by assumption) (h_p_ohs : Part.ohs ∈ kl := by assumption) (h_p_pipes : Part.pipes ∈ kl := by assumption) (h_p_spc : Part.spc ∈ kl := by assumption) (h_p_mac : Part.mac ∈ kl := by assumption) (h_p_tim : Part.tim ∈ kl := by assumption) (h_p_cas : Part.cas ∈ kl := by assumption) (h_p_boot : Part.boot ∈ kl := by assumption) (h_b_CFG : blkCFG ∈ bl := by assumption) (h_b_CLK : blkCLK ∈ bl := by assumption) (h_b_FLT : blkFLT ∈ bl := by assumption) (h_b_LPH : blkLPH ∈ bl := by assumption) (h_b_DSF : blkDSF ∈ bl := by assumption) (h_b_ACT : blkACT ∈ bl := by assumption) (h_b_UBE : blkUBE ∈ bl := by assumption) (h_b_CHP : blkCHP ∈ bl := by assumption) (h_b_SPC : blkSPC ∈ bl := by assumption) (h_b_CEL : blkCEL ∈ bl := by assumption) (h_b_KLN : blkKLN ∈ bl := by assumption) (h_b_TIM : blkTIM ∈ bl := by assumption) (h_b_CAS : blkCAS ∈ bl := by assumption) :
    Kept kb kl bl ko (bootWaitEnds s) := by
  unfold bootWaitEnds
  with_reducible repeat' first
    | assumption
    | apply kept_bothFail
    | apply kept_sfdpDone
    | apply kept_ite
    | refine Kept.of_mk ?_
    | split

theorem kept_firmwareEntry {s : State} (h_s : Kept kb kl bl ko s) (h_p_regs : Part.regs ∈ kl := by assumption) (h_p_shadow : Part.shadow ∈ kl := by assumption) (h_p_mem : Part.mem ∈ kl := by assumption) (h_p_ecc : Part.ecc ∈ kl := by assumption) (h_p_free : Part.free ∈ kl := by assumption) (h_p_cfg : Part.cfg ∈ kl := by assumption) (h_p_flt : Part.flt ∈ kl := by assumption) (h_p_tsk : Part.tsk ∈ kl := by assumption) (h_p_harts : Part.harts ∈ kl := by assumption) (h_p_pwr : Part.pwr ∈ kl := by assumption) (h_p_cel : Part.cel ∈ kl := by assumption) (h_p_sch : Part.sch ∈ kl := by assumption) (h_p_gcl : Part.gcl ∈ kl := by assumption) (h_p_kln : Part.kln ∈ kl := by assumption) (h_p_act : Part.act ∈ kl := by assumption) (h_p_ube : Part.ube ∈ kl := by assumption) (h_p_chp : Part.chp ∈ kl := by assumption) (h_p_dsf : Part.dsf ∈ kl := by assumption) (h_p_ohs : Part.ohs ∈ kl := by assumption) (h_p_pipes : Part.pipes ∈ kl := by assumption) (h_p_cls : Part.cls ∈ kl := by assumption) (h_p_spc : Part.spc ∈ kl := by assumption) (h_p_mac : Part.mac ∈ kl := by assumption) (h_p_lph : Part.lph ∈ kl := by assumption) (h_p_tim : Part.tim ∈ kl := by assumption) (h_p_cas : Part.cas ∈ kl := by assumption) (h_p_boot : Part.boot ∈ kl := by assumption) (h_b_CFG : blkCFG ∈ bl := by assumption) (h_b_PWR : blkPWR ∈ bl := by assumption) (h_b_FLT : blkFLT ∈ bl := by assumption) (h_b_TSK : blkTSK ∈ bl := by assumption) (h_b_LPH : blkLPH ∈ bl := by assumption) (h_b_DSF : blkDSF ∈ bl := by assumption) (h_b_ACT : blkACT ∈ bl := by assumption) (h_b_UBE : blkUBE ∈ bl := by assumption) (h_b_CHP : blkCHP ∈ bl := by assumption) (h_b_CLS : blkCLS ∈ bl := by assumption) (h_b_SPC : blkSPC ∈ bl := by assumption) (h_b_CEL : blkCEL ∈ bl := by assumption) (h_b_GCL : blkGCL ∈ bl := by assumption) (h_b_KLN : blkKLN ∈ bl := by assumption) (h_b_MAC : blkMAC ∈ bl := by assumption) (h_b_TIM : blkTIM ∈ bl := by assumption) (h_b_CAS : blkCAS ∈ bl := by assumption) :
    Kept kb kl bl ko (firmwareEntry s) := by
  unfold firmwareEntry
  with_reducible repeat' first
    | assumption
    | (intro sx; refine (have hsx : Kept kb kl bl ko sx := ?_; ?_); on_goal 2 => (try clear_value sx))
    | intro sx
    | lift_lets
    | apply kept_safeNActs
    | apply kept_st_setHart
    | apply kept_runBlocks
    | apply kept_ite
    | refine Kept.of_mk ?_
    | split

theorem kept_configFails {cause : Nat} {s : State} (h_s : Kept kb kl bl ko s) (h_full : ∀ p, p ≠ Part.pending → p ≠ Part.free → p ∈ kl := by assumption) (h_all : ∀ n, n ∈ bl := by assumption) :
    Kept kb kl bl ko (configFails cause s) := by
  unfold configFails
  obtain ⟨h_p_regs, h_p_shadow, h_p_mem, h_p_ecc, h_p_readOut, h_p_ticks, h_p_tod, h_p_cfg, h_p_flt, h_p_tsk, h_p_harts, h_p_acu, h_p_pwr, h_p_cel, h_p_sch, h_p_gcl, h_p_kln, h_p_act, h_p_ube, h_p_chp, h_p_dsf, h_p_ohs, h_p_pipes, h_p_cls, h_p_flw, h_p_spc, h_p_mac, h_p_lph, h_p_tim, h_p_cas, h_p_clk, h_p_tap, h_p_boot, h_p_power⟩ := full_parts h_full
  have h_b_CFG : blkCFG ∈ bl := h_all _
  have h_b_CLK : blkCLK ∈ bl := h_all _
  have h_b_PWR : blkPWR ∈ bl := h_all _
  have h_b_FLT : blkFLT ∈ bl := h_all _
  have h_b_TSK : blkTSK ∈ bl := h_all _
  have h_b_ACU : blkACU ∈ bl := h_all _
  have h_b_LPH : blkLPH ∈ bl := h_all _
  have h_b_DSF : blkDSF ∈ bl := h_all _
  have h_b_ACT : blkACT ∈ bl := h_all _
  have h_b_UBE : blkUBE ∈ bl := h_all _
  have h_b_CHP : blkCHP ∈ bl := h_all _
  have h_b_PRS : blkPRS ∈ bl := h_all _
  have h_b_CLS : blkCLS ∈ bl := h_all _
  have h_b_FLW : blkFLW ∈ bl := h_all _
  have h_b_SPC : blkSPC ∈ bl := h_all _
  have h_b_CEL : blkCEL ∈ bl := h_all _
  have h_b_SCH : blkSCH ∈ bl := h_all _
  have h_b_GCL : blkGCL ∈ bl := h_all _
  have h_b_CIP : blkCIP ∈ bl := h_all _
  have h_b_KLN : blkKLN ∈ bl := h_all _
  have h_b_MAC : blkMAC ∈ bl := h_all _
  have h_b_TIM : blkTIM ∈ bl := h_all _
  have h_b_OHS : blkOHS ∈ bl := h_all _
  have h_b_CAS : blkCAS ∈ bl := h_all _
  with_reducible repeat' first
    | assumption
    | (refine mem_guard ?_; with_unfolding_all (first | assumption | exact (by assumption : ∀ n, n ∈ bl) _ | exact blk_n (by decide) (by decide) (by assumption) | exact blk_un (by decide) (by decide) (by decide) (by assumption) | exact blk_ite (by assumption) (by assumption) | exact blk_ite (by exact blk_n (by decide) (by decide) (by assumption)) (by exact blk_n (by decide) (by decide) (by assumption))))
    | (intro sx; refine (have hsx : Kept kb kl bl ko sx := ?_; ?_); on_goal 2 => (try clear_value sx))
    | (intro sx; try clear_value sx)
    | lift_lets
    | apply kept_bootFailed
    | apply kept_st_put
    | apply kept_deviceReset
    | apply kept_st_wr
    | apply kept_setReg
    | apply kept_ite
    | refine Kept.of_mk ?_
    | split

theorem kept_groupFall {g : Nat} {s : State} (h_s : Kept kb kl bl ko s) (h_p_regs : Part.regs ∈ kl := by assumption) (h_p_cas : Part.cas ∈ kl := by assumption) (h_b_CAS : blkCAS ∈ bl := by assumption) :
    Kept kb kl bl ko (groupFall g s) := by
  unfold groupFall
  with_reducible repeat' first
    | assumption
    | (refine mem_guard ?_; with_unfolding_all (first | assumption | exact (by assumption : ∀ n, n ∈ bl) _ | exact blk_n (by decide) (by decide) (by assumption) | exact blk_un (by decide) (by decide) (by decide) (by assumption) | exact blk_ite (by assumption) (by assumption) | exact blk_ite (by exact blk_n (by decide) (by decide) (by assumption)) (by exact blk_n (by decide) (by decide) (by assumption)) | exact blk_casDownEvt (by assumption)))
    | (intro sx; refine (have hsx : Kept kb kl bl ko sx := ?_; ?_); on_goal 2 => (try clear_value sx))
    | (intro sx; try clear_value sx)
    | lift_lets
    | apply kept_st_inc
    | apply kept_st_put
    | apply kept_casDetect
    | apply kept_ite
    | refine Kept.of_mk ?_
    | split

theorem kept_terminationProbe {g : Nat} {lanes : Nat} {s : State} (h_s : Kept kb kl bl ko s) (h_p_regs : Part.regs ∈ kl := by assumption) (h_p_cas : Part.cas ∈ kl := by assumption) (h_b_CAS : blkCAS ∈ bl := by assumption) :
    Kept kb kl bl ko (terminationProbe g lanes s) := by
  unfold terminationProbe
  with_reducible repeat' first
    | assumption
    | (refine mem_guard ?_; with_unfolding_all (first | assumption | exact (by assumption : ∀ n, n ∈ bl) _ | exact blk_n (by decide) (by decide) (by assumption) | exact blk_un (by decide) (by decide) (by decide) (by assumption) | exact blk_ite (by assumption) (by assumption) | exact blk_ite (by exact blk_n (by decide) (by decide) (by assumption)) (by exact blk_n (by decide) (by decide) (by assumption))))
    | (intro sx; refine (have hsx : Kept kb kl bl ko sx := ?_; ?_); on_goal 2 => (try clear_value sx))
    | (intro sx; try clear_value sx)
    | lift_lets
    | apply kept_st_wr
    | apply kept_st_setCasGrp
    | apply kept_ite
    | refine Kept.of_mk ?_
    | split

theorem kept_trainDone {g : Nat} {locked : Nat} {late : Bool} {s : State} (h_s : Kept kb kl bl ko s) (h_p_regs : Part.regs ∈ kl := by assumption) (h_p_cas : Part.cas ∈ kl := by assumption) (h_b_CAS : blkCAS ∈ bl := by assumption) :
    Kept kb kl bl ko (trainDone g locked late s) := by
  unfold trainDone
  with_reducible repeat' first
    | assumption
    | (refine mem_guard ?_; with_unfolding_all (first | assumption | exact (by assumption : ∀ n, n ∈ bl) _ | exact blk_n (by decide) (by decide) (by assumption) | exact blk_un (by decide) (by decide) (by decide) (by assumption) | exact blk_ite (by assumption) (by assumption) | exact blk_ite (by exact blk_n (by decide) (by decide) (by assumption)) (by exact blk_n (by decide) (by decide) (by assumption))))
    | (intro sx; refine (have hsx : Kept kb kl bl ko sx := ?_; ?_); on_goal 2 => (try clear_value sx))
    | (intro sx; try clear_value sx)
    | lift_lets
    | apply kept_st_wr
    | apply kept_st_setCasGrp
    | apply kept_ite
    | refine Kept.of_mk ?_
    | split

theorem kept_linkTimeout {g : Nat} {s : State} (h_s : Kept kb kl bl ko s) (h_p_regs : Part.regs ∈ kl := by assumption) (h_p_cas : Part.cas ∈ kl := by assumption) (h_b_CAS : blkCAS ∈ bl := by assumption) :
    Kept kb kl bl ko (linkTimeout g s) := by
  unfold linkTimeout
  with_reducible repeat' first
    | assumption
    | apply kept_groupFall
    | apply kept_ite
    | refine Kept.of_mk ?_
    | split

theorem kept_groupFails {g : Nat} {why : GroupFail} {s : State} (h_s : Kept kb kl bl ko s) (h_p_regs : Part.regs ∈ kl := by assumption) (h_p_cas : Part.cas ∈ kl := by assumption) (h_b_CAS : blkCAS ∈ bl := by assumption) :
    Kept kb kl bl ko (groupFails g why s) := by
  unfold groupFails
  with_reducible repeat' first
    | assumption
    | apply kept_groupFall
    | apply kept_ite
    | split
    | refine Kept.of_mk ?_

theorem kept_casWindow {g : Nat} {lane : Nat} {trans : Nat} {s : State} (h_s : Kept kb kl bl ko s) (h_p_regs : Part.regs ∈ kl := by assumption) (h_p_cas : Part.cas ∈ kl := by assumption) (h_b_CAS : blkCAS ∈ bl := by assumption) :
    Kept kb kl bl ko (casWindow g lane trans s) := by
  unfold casWindow
  with_reducible repeat' first
    | assumption
    | (refine mem_guard ?_; with_unfolding_all (first | assumption | exact (by assumption : ∀ n, n ∈ bl) _ | exact blk_n (by decide) (by decide) (by assumption) | exact blk_un (by decide) (by decide) (by decide) (by assumption) | exact blk_ite (by assumption) (by assumption) | exact blk_ite (by exact blk_n (by decide) (by decide) (by assumption)) (by exact blk_n (by decide) (by decide) (by assumption))))
    | (intro sx; refine (have hsx : Kept kb kl bl ko sx := ?_; ?_); on_goal 2 => (try clear_value sx))
    | (intro sx; try clear_value sx)
    | lift_lets
    | apply kept_st_clrBit
    | apply kept_st_put
    | apply kept_st_setBit
    | apply kept_st_setCasGrp
    | apply kept_ite
    | refine Kept.of_mk ?_
    | split

theorem kept_ctrlBody {op : Nat} {words : List Nat} {s : State} (h_s : Kept kb kl bl ko s) (h_p_cas : Part.cas ∈ kl := by assumption) :
    Kept kb kl bl ko (ctrlBody op words s).2 := by
  unfold ctrlBody
  with_reducible repeat' first
    | assumption
    | refine Kept.of_mk ?_

theorem kept_sendLink {g : Nat} {op : Nat} {words : List Nat} {s : State} (h_s : Kept kb kl bl ko s) (h_p_cas : Part.cas ∈ kl := by assumption) :
    Kept kb kl bl ko (sendLink g op words s) := by
  unfold sendLink
  with_reducible repeat' first
    | assumption
    | (intro sx; refine (have hsx : Kept kb kl bl ko sx := ?_; ?_); on_goal 2 => (try clear_value sx))
    | (intro sx; refine (have hsx : Kept kb kl bl ko sx.2 := ?_; ?_); on_goal 2 => (try clear_value sx))
    | (intro sx; try clear_value sx)
    | lift_lets
    | apply kept_ctrlBody
    | apply kept_casQueue
    | refine Kept.of_mk ?_

theorem kept_sendAll {op : Nat} {words : List Nat} {s : State} (h_s : Kept kb kl bl ko s) (h_p_cas : Part.cas ∈ kl := by assumption) :
    Kept kb kl bl ko (sendAll op words s) := by
  unfold sendAll
  with_reducible repeat' first
    | assumption
    | (intro sx; refine (have hsx : Kept kb kl bl ko sx := ?_; ?_); on_goal 2 => (try clear_value sx))
    | (intro sx; refine (have hsx : Kept kb kl bl ko sx.2 := ?_; ?_); on_goal 2 => (try clear_value sx))
    | (intro sx; try clear_value sx)
    | lift_lets
    | apply kept_ctrlBody
    | apply kept_casQueue
    | refine Kept.of_mk ?_

theorem kept_commaLock {g : Nat} {lanes : List (BitVec 58 × Nat)} {s : State} (h_s : Kept kb kl bl ko s) (h_p_regs : Part.regs ∈ kl := by assumption) (h_p_free : Part.free ∈ kl := by assumption) (h_p_cas : Part.cas ∈ kl := by assumption) (h_b_CAS : blkCAS ∈ bl := by assumption) :
    Kept kb kl bl ko (commaLock g lanes s) := by
  unfold commaLock
  with_reducible repeat' first
    | assumption
    | (refine mem_guard ?_; with_unfolding_all (first | assumption | exact (by assumption : ∀ n, n ∈ bl) _ | exact blk_n (by decide) (by decide) (by assumption) | exact blk_un (by decide) (by decide) (by decide) (by assumption) | exact blk_ite (by assumption) (by assumption) | exact blk_ite (by exact blk_n (by decide) (by decide) (by assumption)) (by exact blk_n (by decide) (by decide) (by assumption))))
    | (intro sx; refine (have hsx : Kept kb kl bl ko sx := ?_; ?_); on_goal 2 => (try clear_value sx))
    | (intro sx; refine (have hsx : Kept kb kl bl ko sx.2 := ?_; ?_); on_goal 2 => (try clear_value sx))
    | (intro sx; try clear_value sx)
    | lift_lets
    | apply kept_ctrlBody
    | apply kept_st_wr
    | apply kept_st_setCasGrp
    | apply kept_draw
    | apply kept_ite
    | apply kept_ite2
    | refine Kept.of_mk ?_
    | split

theorem kept_candReset {s : State} (h_s : Kept kb kl bl ko s) (h_p_cas : Part.cas ∈ kl := by assumption) :
    Kept kb kl bl ko (candReset s) := by
  unfold candReset
  with_reducible repeat' first
    | assumption
    | refine Kept.of_mk ?_

theorem kept_sendJoin {s : State} (h_s : Kept kb kl bl ko s) (h_p_cas : Part.cas ∈ kl := by assumption) :
    Kept kb kl bl ko (sendJoin s) := by
  unfold sendJoin
  with_reducible repeat' first
    | assumption
    | apply kept_sendAll
    | refine Kept.of_mk ?_

theorem kept_leaveAndJoin {s : State} (h_s : Kept kb kl bl ko s) (h_p_regs : Part.regs ∈ kl := by assumption) (h_p_cas : Part.cas ∈ kl := by assumption) (h_b_CAS : blkCAS ∈ bl := by assumption) :
    Kept kb kl bl ko (leaveAndJoin s) := by
  unfold leaveAndJoin
  with_reducible repeat' first
    | assumption
    | (refine mem_guard ?_; with_unfolding_all (first | assumption | exact (by assumption : ∀ n, n ∈ bl) _ | exact blk_n (by decide) (by decide) (by assumption) | exact blk_un (by decide) (by decide) (by decide) (by assumption)))
    | (intro sx; refine (have hsx : Kept kb kl bl ko sx := ?_; ?_); on_goal 2 => (try clear_value sx))
    | (intro sx; try clear_value sx)
    | lift_lets
    | apply kept_st_put
    | apply kept_sendJoin
    | apply kept_st_wr
    | refine Kept.of_mk ?_

theorem kept_takeCandidate {low : Bool} {sn : Word} {s : State} (h_s : Kept kb kl bl ko s) (h_p_regs : Part.regs ∈ kl := by assumption) (h_p_cas : Part.cas ∈ kl := by assumption) (h_b_CAS : blkCAS ∈ bl := by assumption) :
    Kept kb kl bl ko (takeCandidate low sn s) := by
  unfold takeCandidate
  with_reducible repeat' first
    | assumption
    | (refine mem_guard ?_; with_unfolding_all (first | assumption | exact (by assumption : ∀ n, n ∈ bl) _ | exact blk_n (by decide) (by decide) (by assumption) | exact blk_un (by decide) (by decide) (by decide) (by assumption) | exact blk_ite (by assumption) (by assumption) | exact blk_ite (by exact blk_n (by decide) (by decide) (by assumption)) (by exact blk_n (by decide) (by decide) (by assumption))))
    | (intro sx; refine (have hsx : Kept kb kl bl ko sx := ?_; ?_); on_goal 2 => (try clear_value sx))
    | (intro sx; try clear_value sx)
    | lift_lets
    | apply kept_st_put
    | apply kept_ite
    | refine Kept.of_mk ?_
    | split

theorem kept_dropGone {present : Nat} {s : State} (h_s : Kept kb kl bl ko s) (h_p_regs : Part.regs ∈ kl := by assumption) (h_p_cas : Part.cas ∈ kl := by assumption) (h_b_CAS : blkCAS ∈ bl := by assumption) :
    Kept kb kl bl ko (dropGone present s) := by
  unfold dropGone
  with_reducible repeat' first
    | assumption
    | (refine mem_guard ?_; with_unfolding_all (first | assumption | exact (by assumption : ∀ n, n ∈ bl) _ | exact blk_n (by decide) (by decide) (by assumption) | exact blk_un (by decide) (by decide) (by decide) (by assumption)))
    | (intro sx; refine (have hsx : Kept kb kl bl ko sx := ?_; ?_); on_goal 2 => (try clear_value sx))
    | intro sx
    | lift_lets
    | apply kept_st_setCasGrp
    | apply kept_st_addTo
    | (apply kept_foldl; intro sy xy hy)
    | (apply kept_foldl2; intro sy xy hy)
    | (apply kept_foldl1; intro sy xy hy)
    | refine Kept.of_mk ?_

theorem kept_useView {epoch : Nat} {present : Nat} {ring : List Nat} {closed : Bool} {s : State} (h_s : Kept kb kl bl ko s) (h_p_regs : Part.regs ∈ kl := by assumption) (h_p_cas : Part.cas ∈ kl := by assumption) (h_b_CAS : blkCAS ∈ bl := by assumption) :
    Kept kb kl bl ko (useView epoch present ring closed s) := by
  unfold useView
  with_reducible repeat' first
    | assumption
    | (refine mem_guard ?_; with_unfolding_all (first | assumption | exact (by assumption : ∀ n, n ∈ bl) _ | exact blk_n (by decide) (by decide) (by assumption) | exact blk_un (by decide) (by decide) (by decide) (by assumption)))
    | (intro sx; refine (have hsx : Kept kb kl bl ko sx := ?_; ?_); on_goal 2 => (try clear_value sx))
    | (intro sx; try clear_value sx)
    | lift_lets
    | apply kept_st_put
    | apply kept_dropGone
    | apply kept_st_wr
    | refine Kept.of_mk ?_

theorem kept_sendView {s : State} (h_s : Kept kb kl bl ko s) (h_p_cas : Part.cas ∈ kl := by assumption) :
    Kept kb kl bl ko (sendView s) := by
  unfold sendView
  with_reducible repeat' first
    | assumption
    | (intro sx; refine (have hsx : Kept kb kl bl ko sx := ?_; ?_); on_goal 2 => (try clear_value sx))
    | (intro sx; try clear_value sx)
    | lift_lets
    | apply kept_sendAll
    | (apply kept_foldl; intro sy xy hy)
    | (apply kept_foldl2; intro sy xy hy)
    | (apply kept_foldl1; intro sy xy hy)
    | refine Kept.of_mk ?_

theorem kept_newView {present : Nat} {order : List Nat} {closed : Bool} {s : State} (h_s : Kept kb kl bl ko s) (h_p_regs : Part.regs ∈ kl := by assumption) (h_p_cas : Part.cas ∈ kl := by assumption) (h_b_CAS : blkCAS ∈ bl := by assumption) :
    Kept kb kl bl ko (newView present order closed s) := by
  unfold newView
  with_reducible repeat' first
    | assumption
    | apply kept_useView
    | refine Kept.of_mk ?_

theorem kept_becomeManager {order : List Nat} {closed : Bool} {s : State} (h_s : Kept kb kl bl ko s) (h_p_regs : Part.regs ∈ kl := by assumption) (h_p_cas : Part.cas ∈ kl := by assumption) (h_b_CAS : blkCAS ∈ bl := by assumption) :
    Kept kb kl bl ko (becomeManager order closed s) := by
  unfold becomeManager
  with_reducible repeat' first
    | assumption
    | (refine mem_guard ?_; with_unfolding_all (first | assumption | exact (by assumption : ∀ n, n ∈ bl) _ | exact blk_n (by decide) (by decide) (by assumption) | exact blk_un (by decide) (by decide) (by decide) (by assumption) | exact blk_ite (by assumption) (by assumption) | exact blk_ite (by exact blk_n (by decide) (by decide) (by assumption)) (by exact blk_n (by decide) (by decide) (by assumption))))
    | (intro sx; refine (have hsx : Kept kb kl bl ko sx := ?_; ?_); on_goal 2 => (try clear_value sx))
    | (intro sx; try clear_value sx)
    | lift_lets
    | apply kept_newView
    | apply kept_st_put
    | apply kept_st_wr
    | apply kept_st_setCasSerial
    | apply kept_sendView
    | apply kept_ite
    | refine Kept.of_mk ?_
    | split

theorem kept_admitJoin {sn : Word} {s : State} (h_s : Kept kb kl bl ko s) (h_p_regs : Part.regs ∈ kl := by assumption) (h_p_cas : Part.cas ∈ kl := by assumption) (h_b_CAS : blkCAS ∈ bl := by assumption) :
    Kept kb kl bl ko (admitJoin sn s) := by
  unfold admitJoin
  with_reducible repeat' first
    | assumption
    | (refine mem_guard ?_; with_unfolding_all (first | assumption | exact (by assumption : ∀ n, n ∈ bl) _ | exact blk_n (by decide) (by decide) (by assumption) | exact blk_un (by decide) (by decide) (by decide) (by assumption)))
    | (intro sx; refine (have hsx : Kept kb kl bl ko sx := ?_; ?_); on_goal 2 => (try clear_value sx))
    | (intro sx; try clear_value sx)
    | lift_lets
    | apply kept_st_put
    | apply kept_st_setCasEmpties
    | apply kept_st_wr
    | apply kept_st_setCasSerial
    | apply kept_sendAll
    | split
    | dsimp only [sx]
    | refine Kept.of_mk ?_

theorem kept_takeJoin {sn : Word} {order : List Nat} {closed : Bool} {s : State} (h_s : Kept kb kl bl ko s) (h_p_regs : Part.regs ∈ kl := by assumption) (h_p_cas : Part.cas ∈ kl := by assumption) (h_b_CAS : blkCAS ∈ bl := by assumption) :
    Kept kb kl bl ko (takeJoin sn order closed s) := by
  unfold takeJoin
  with_reducible repeat' first
    | assumption
    | (intro sx; refine (have hsx : Kept kb kl bl ko sx := ?_; ?_); on_goal 2 => (try clear_value sx))
    | (intro sx; try clear_value sx)
    | lift_lets
    | apply kept_newView
    | apply kept_admitJoin
    | apply kept_sendView
    | apply kept_ite
    | refine Kept.of_mk ?_
    | split

theorem kept_takeAssign {src : Nat} {sn : Word} {id : Nat} {refused : Bool} {s : State} (h_s : Kept kb kl bl ko s) (h_p_regs : Part.regs ∈ kl := by assumption) (h_p_cas : Part.cas ∈ kl := by assumption) (h_b_CAS : blkCAS ∈ bl := by assumption) :
    Kept kb kl bl ko (takeAssign src sn id refused s) := by
  unfold takeAssign
  with_reducible repeat' first
    | assumption
    | (refine mem_guard ?_; with_unfolding_all (first | assumption | exact (by assumption : ∀ n, n ∈ bl) _ | exact blk_n (by decide) (by decide) (by assumption) | exact blk_un (by decide) (by decide) (by decide) (by assumption) | exact blk_ite (by assumption) (by assumption) | exact blk_ite (by exact blk_n (by decide) (by decide) (by assumption)) (by exact blk_n (by decide) (by decide) (by assumption))))
    | (intro sx; refine (have hsx : Kept kb kl bl ko sx := ?_; ?_); on_goal 2 => (try clear_value sx))
    | (intro sx; try clear_value sx)
    | lift_lets
    | apply kept_st_put
    | apply kept_leaveAndJoin
    | apply kept_st_wr
    | apply kept_st_setCasSerial
    | apply kept_ite
    | refine Kept.of_mk ?_
    | split

theorem kept_takeView {src : Nat} {b : Bytes} {s : State} (h_s : Kept kb kl bl ko s) (h_p_regs : Part.regs ∈ kl := by assumption) (h_p_cas : Part.cas ∈ kl := by assumption) (h_b_CAS : blkCAS ∈ bl := by assumption) :
    Kept kb kl bl ko (takeView src b s) := by
  unfold takeView
  with_reducible repeat' first
    | assumption
    | (refine mem_guard ?_; with_unfolding_all (first | assumption | exact (by assumption : ∀ n, n ∈ bl) _ | exact blk_n (by decide) (by decide) (by assumption) | exact blk_un (by decide) (by decide) (by decide) (by assumption) | exact blk_ite (by assumption) (by assumption) | exact blk_ite (by exact blk_n (by decide) (by decide) (by assumption)) (by exact blk_n (by decide) (by decide) (by assumption))))
    | (intro sx; refine (have hsx : Kept kb kl bl ko sx := ?_; ?_); on_goal 2 => (try clear_value sx))
    | (intro sx; try clear_value sx)
    | lift_lets
    | apply kept_useView
    | apply kept_sendJoin
    | apply kept_leaveAndJoin
    | apply kept_st_wr
    | apply kept_ite
    | refine Kept.of_mk ?_
    | split

theorem kept_heartbeatTick {s : State} (h_s : Kept kb kl bl ko s) (h_p_cas : Part.cas ∈ kl := by assumption) :
    Kept kb kl bl ko (heartbeatTick s) := by
  unfold heartbeatTick
  with_reducible repeat' first
    | assumption
    | (intro sx; refine (have hsx : Kept kb kl bl ko sx := ?_; ?_); on_goal 2 => (try clear_value sx))
    | intro sx
    | lift_lets
    | apply kept_sendLink
    | apply kept_ite
    | (apply kept_foldl; intro sy xy hy)
    | (apply kept_foldl2; intro sy xy hy)
    | (apply kept_foldl1; intro sy xy hy)
    | refine Kept.of_mk ?_
    | split

theorem kept_managerLost {s : State} (h_s : Kept kb kl bl ko s) (h_p_regs : Part.regs ∈ kl := by assumption) (h_p_cas : Part.cas ∈ kl := by assumption) (h_b_CAS : blkCAS ∈ bl := by assumption) :
    Kept kb kl bl ko (managerLost s) := by
  unfold managerLost
  with_reducible repeat' first
    | assumption
    | (refine mem_guard ?_; with_unfolding_all (first | assumption | exact (by assumption : ∀ n, n ∈ bl) _ | exact blk_n (by decide) (by decide) (by assumption) | exact blk_un (by decide) (by decide) (by decide) (by assumption) | exact blk_ite (by assumption) (by assumption) | exact blk_ite (by exact blk_n (by decide) (by decide) (by assumption)) (by exact blk_n (by decide) (by decide) (by assumption))))
    | (intro sx; refine (have hsx : Kept kb kl bl ko sx := ?_; ?_); on_goal 2 => (try clear_value sx))
    | (intro sx; try clear_value sx)
    | lift_lets
    | apply kept_candReset
    | apply kept_st_put
    | apply kept_st_wr
    | apply kept_ite
    | refine Kept.of_mk ?_
    | split

theorem kept_memberCheck {joins : List Word} {order : List Nat} {closed : Bool} {s : State} (h_s : Kept kb kl bl ko s) (h_p_regs : Part.regs ∈ kl := by assumption) (h_p_cas : Part.cas ∈ kl := by assumption) (h_b_CAS : blkCAS ∈ bl := by assumption) :
    Kept kb kl bl ko (memberCheck joins order closed s) := by
  unfold memberCheck
  with_reducible repeat' first
    | assumption
    | (refine mem_guard ?_; with_unfolding_all (first | assumption | exact (by assumption : ∀ n, n ∈ bl) _ | exact blk_n (by decide) (by decide) (by assumption) | exact blk_un (by decide) (by decide) (by decide) (by assumption) | exact blk_ite (by assumption) (by assumption) | exact blk_ite (by exact blk_n (by decide) (by decide) (by assumption)) (by exact blk_n (by decide) (by decide) (by assumption))))
    | (intro sx; refine (have hsx : Kept kb kl bl ko sx := ?_; ?_); on_goal 2 => (try clear_value sx))
    | (intro sx; try clear_value sx)
    | lift_lets
    | apply kept_newView
    | apply kept_admitJoin
    | apply kept_st_setCasEmpties
    | apply kept_st_wr
    | apply kept_sendView
    | apply kept_ite
    | (apply kept_foldl; intro sy xy hy)
    | (apply kept_foldl2; intro sy xy hy)
    | (apply kept_foldl1; intro sy xy hy)
    | refine Kept.of_mk ?_
    | split

theorem kept_joinRetry {s : State} (h_s : Kept kb kl bl ko s) (h_p_cas : Part.cas ∈ kl := by assumption) :
    Kept kb kl bl ko (joinRetry s) := by
  unfold joinRetry
  with_reducible repeat' first
    | assumption
    | apply kept_sendJoin
    | apply kept_ite
    | refine Kept.of_mk ?_
    | split

theorem kept_sendTime {s : State} (h_s : Kept kb kl bl ko s) (h_p_cas : Part.cas ∈ kl := by assumption) :
    Kept kb kl bl ko (sendTime s) := by
  unfold sendTime
  with_reducible repeat' first
    | assumption
    | apply kept_sendAll
    | apply kept_ite
    | refine Kept.of_mk ?_
    | split

theorem kept_takeTime {g : Nat} {b : Bytes} {t : Tod} {s : State} (h_s : Kept kb kl bl ko s) (h_p_regs : Part.regs ∈ kl := by assumption) (h_p_shadow : Part.shadow ∈ kl := by assumption) (h_p_tod : Part.tod ∈ kl := by assumption) (h_p_cfg : Part.cfg ∈ kl := by assumption) (h_p_gcl : Part.gcl ∈ kl := by assumption) (h_p_dsf : Part.dsf ∈ kl := by assumption) (h_p_tim : Part.tim ∈ kl := by assumption) (h_b_DSF : blkDSF ∈ bl := by assumption) (h_b_GCL : blkGCL ∈ bl := by assumption) (h_b_TIM : blkTIM ∈ bl := by assumption) :
    Kept kb kl bl ko (takeTime g b t s) := by
  unfold takeTime
  with_reducible repeat' first
    | assumption
    | (intro sx; refine (have hsx : Kept kb kl bl ko sx := ?_; ?_); on_goal 2 => (try clear_value sx))
    | (intro sx; try clear_value sx)
    | lift_lets
    | apply kept_timWrite
    | apply kept_ite
    | refine Kept.of_mk ?_
    | split

theorem kept_takeProbe {g : Nat} {b : Bytes} {t2 : Tod} {t3 : Tod} {s : State} (h_s : Kept kb kl bl ko s) (h_p_cas : Part.cas ∈ kl := by assumption) :
    Kept kb kl bl ko (takeProbe g b t2 t3 s) := by
  unfold takeProbe
  with_reducible repeat' first
    | assumption
    | apply kept_sendLink
    | refine Kept.of_mk ?_

theorem kept_takeProbeResp {g : Nat} {b : Bytes} {t4 : Tod} {s : State} (h_s : Kept kb kl bl ko s) (h_p_cas : Part.cas ∈ kl := by assumption) :
    Kept kb kl bl ko (takeProbeResp g b t4 s) := by
  unfold takeProbeResp
  with_reducible repeat' first
    | assumption
    | (intro sx; refine (have hsx : Kept kb kl bl ko sx := ?_; ?_); on_goal 2 => (try clear_value sx))
    | intro sx
    | lift_lets
    | apply kept_st_setCasGrp
    | refine Kept.of_mk ?_

theorem kept_takeCaps {g : Nat} {src : Nat} {b : Bytes} {s : State} (h_s : Kept kb kl bl ko s) (h_p_regs : Part.regs ∈ kl := by assumption) (h_p_cas : Part.cas ∈ kl := by assumption) (h_b_CAS : blkCAS ∈ bl := by assumption) :
    Kept kb kl bl ko (takeCaps g src b s) := by
  unfold takeCaps
  with_reducible repeat' first
    | assumption
    | (refine mem_guard ?_; with_unfolding_all (first | assumption | exact (by assumption : ∀ n, n ∈ bl) _ | exact blk_n (by decide) (by decide) (by assumption) | exact blk_un (by decide) (by decide) (by decide) (by assumption) | exact blk_ite (by assumption) (by assumption) | exact blk_ite (by exact blk_n (by decide) (by decide) (by assumption)) (by exact blk_n (by decide) (by decide) (by assumption))))
    | (intro sx; refine (have hsx : Kept kb kl bl ko sx := ?_; ?_); on_goal 2 => (try clear_value sx))
    | (intro sx; try clear_value sx)
    | lift_lets
    | apply kept_st_put
    | apply kept_groupFall
    | apply kept_st_wr
    | apply kept_st_setCasGrp
    | apply kept_ite
    | refine Kept.of_mk ?_
    | split

theorem kept_takeHeartbeat {g : Nat} {b : Bytes} {s : State} (h_s : Kept kb kl bl ko s) (h_p_regs : Part.regs ∈ kl := by assumption) (h_p_cas : Part.cas ∈ kl := by assumption) (h_b_CAS : blkCAS ∈ bl := by assumption) :
    Kept kb kl bl ko (takeHeartbeat g b s) := by
  unfold takeHeartbeat
  with_reducible repeat' first
    | assumption
    | (refine mem_guard ?_; with_unfolding_all (first | assumption | exact (by assumption : ∀ n, n ∈ bl) _ | exact blk_n (by decide) (by decide) (by assumption) | exact blk_un (by decide) (by decide) (by decide) (by assumption)))
    | (intro sx; refine (have hsx : Kept kb kl bl ko sx := ?_; ?_); on_goal 2 => (try clear_value sx))
    | (intro sx; try clear_value sx)
    | lift_lets
    | apply kept_takeCandidate
    | apply kept_st_put
    | apply kept_st_wr
    | refine Kept.of_mk ?_

theorem kept_takeCtrl {g : Nat} {src : Nat} {b : Bytes} {m : CasMore} {s : State} (h_s : Kept kb kl bl ko s) (h_p_regs : Part.regs ∈ kl := by assumption) (h_p_shadow : Part.shadow ∈ kl := by assumption) (h_p_tod : Part.tod ∈ kl := by assumption) (h_p_cfg : Part.cfg ∈ kl := by assumption) (h_p_gcl : Part.gcl ∈ kl := by assumption) (h_p_dsf : Part.dsf ∈ kl := by assumption) (h_p_tim : Part.tim ∈ kl := by assumption) (h_p_cas : Part.cas ∈ kl := by assumption) (h_b_DSF : blkDSF ∈ bl := by assumption) (h_b_GCL : blkGCL ∈ bl := by assumption) (h_b_TIM : blkTIM ∈ bl := by assumption) (h_b_CAS : blkCAS ∈ bl := by assumption) :
    Kept kb kl bl ko (takeCtrl g src b m s) := by
  unfold takeCtrl
  with_reducible repeat' first
    | assumption
    | apply kept_takeAssign
    | apply kept_takeView
    | apply kept_takeJoin
    | apply kept_takeProbeResp
    | apply kept_takeTime
    | apply kept_takeProbe
    | apply kept_takeCaps
    | apply kept_casQueue
    | apply kept_takeHeartbeat
    | apply kept_ite
    | split
    | refine Kept.of_mk ?_

theorem kept_passOn {g : Nat} {c : Bytes} {s : State} (h_s : Kept kb kl bl ko s) (h_p_cas : Part.cas ∈ kl := by assumption) :
    Kept kb kl bl ko (passOn g c s) := by
  unfold passOn
  with_reducible repeat' first
    | assumption
    | (intro sx; refine (have hsx : Kept kb kl bl ko sx := ?_; ?_); on_goal 2 => (try clear_value sx))
    | (intro sx; try clear_value sx)
    | lift_lets
    | apply kept_st_setCasGrp
    | apply kept_ite
    | refine Kept.of_mk ?_
    | split

theorem kept_takeBody {g : Nat} {type : Nat} {first : Bool} {last : Bool} {part : Bytes} {s : State} (h_s : Kept kb kl bl ko s) (h_p_cas : Part.cas ∈ kl := by assumption) :
    Kept kb kl bl ko (takeBody g type first last part s) := by
  unfold takeBody
  with_reducible repeat' first
    | assumption
    | (intro sx; refine (have hsx : Kept kb kl bl ko sx := ?_; ?_); on_goal 2 => (try clear_value sx))
    | (intro sx; try clear_value sx)
    | lift_lets
    | apply kept_st_setCasGrp
    | apply kept_ite
    | split
    | dsimp only [sx]
    | refine Kept.of_mk ?_

theorem kept_dropContainer {g : Nat} {bad : Bool} {s : State} (h_s : Kept kb kl bl ko s) (h_p_regs : Part.regs ∈ kl := by assumption) (h_p_cas : Part.cas ∈ kl := by assumption) (h_b_CAS : blkCAS ∈ bl := by assumption) :
    Kept kb kl bl ko (dropContainer g bad s) := by
  unfold dropContainer
  with_reducible repeat' first
    | assumption
    | (refine mem_guard ?_; with_unfolding_all (first | assumption | exact (by assumption : ∀ n, n ∈ bl) _ | exact blk_n (by decide) (by decide) (by assumption) | exact blk_un (by decide) (by decide) (by decide) (by assumption) | exact blk_ite (by assumption) (by assumption) | exact blk_ite (by exact blk_n (by decide) (by decide) (by assumption)) (by exact blk_n (by decide) (by decide) (by assumption))))
    | (intro sx; refine (have hsx : Kept kb kl bl ko sx := ?_; ?_); on_goal 2 => (try clear_value sx))
    | (intro sx; try clear_value sx)
    | lift_lets
    | apply kept_st_inc
    | apply kept_st_setCasGrp
    | apply kept_ite
    | refine Kept.of_mk ?_
    | split

theorem kept_takeBroadcast {g : Nat} {src : Nat} {c : Bytes} {m : CasMore} {s : State} (h_s : Kept kb kl bl ko s) (h_p_regs : Part.regs ∈ kl := by assumption) (h_p_shadow : Part.shadow ∈ kl := by assumption) (h_p_tod : Part.tod ∈ kl := by assumption) (h_p_cfg : Part.cfg ∈ kl := by assumption) (h_p_gcl : Part.gcl ∈ kl := by assumption) (h_p_dsf : Part.dsf ∈ kl := by assumption) (h_p_tim : Part.tim ∈ kl := by assumption) (h_p_cas : Part.cas ∈ kl := by assumption) (h_b_DSF : blkDSF ∈ bl := by assumption) (h_b_GCL : blkGCL ∈ bl := by assumption) (h_b_TIM : blkTIM ∈ bl := by assumption) (h_b_CAS : blkCAS ∈ bl := by assumption) :
    Kept kb kl bl ko (takeBroadcast g src c m s) := by
  unfold takeBroadcast
  with_reducible repeat' first
    | assumption
    | (intro sx; refine (have hsx : Kept kb kl bl ko sx := ?_; ?_); on_goal 2 => (try clear_value sx))
    | (intro sx; try clear_value sx)
    | lift_lets
    | apply kept_st_setCasLastSeq
    | apply kept_takeCtrl
    | apply kept_passOn
    | apply kept_ite
    | split
    | dsimp only [sx]
    | refine Kept.of_mk ?_

theorem kept_casArrive {g : Nat} {c : Bytes} {m : CasMore} {s : State} (h_s : Kept kb kl bl ko s) (h_p_regs : Part.regs ∈ kl := by assumption) (h_p_shadow : Part.shadow ∈ kl := by assumption) (h_p_tod : Part.tod ∈ kl := by assumption) (h_p_cfg : Part.cfg ∈ kl := by assumption) (h_p_gcl : Part.gcl ∈ kl := by assumption) (h_p_dsf : Part.dsf ∈ kl := by assumption) (h_p_tim : Part.tim ∈ kl := by assumption) (h_p_cas : Part.cas ∈ kl := by assumption) (h_b_DSF : blkDSF ∈ bl := by assumption) (h_b_GCL : blkGCL ∈ bl := by assumption) (h_b_TIM : blkTIM ∈ bl := by assumption) (h_b_CAS : blkCAS ∈ bl := by assumption) :
    Kept kb kl bl ko (casArrive g c m s) := by
  unfold casArrive
  with_reducible repeat' first
    | assumption
    | (refine mem_guard ?_; with_unfolding_all (first | assumption | exact (by assumption : ∀ n, n ∈ bl) _ | exact blk_n (by decide) (by decide) (by assumption) | exact blk_un (by decide) (by decide) (by decide) (by assumption) | exact blk_ite (by assumption) (by assumption) | exact blk_ite (by exact blk_n (by decide) (by decide) (by assumption)) (by exact blk_n (by decide) (by decide) (by assumption))))
    | (intro sx; refine (have hsx : Kept kb kl bl ko sx := ?_; ?_); on_goal 2 => (try clear_value sx))
    | (intro sx; try clear_value sx)
    | lift_lets
    | apply kept_takeBroadcast
    | apply kept_st_inc
    | apply kept_takeBody
    | apply kept_takeCtrl
    | apply kept_dropContainer
    | apply kept_passOn
    | apply kept_st_setCasGrp
    | apply kept_ite
    | refine Kept.of_mk ?_
    | split

theorem kept_casReceived {g : Nat} {line : List (List Bool)} {s : State} (h_s : Kept kb kl bl ko s) (h_p_cas : Part.cas ∈ kl := by assumption) :
    Kept kb kl bl ko (casReceived g line s).2 := by
  unfold casReceived
  with_reducible repeat' first
    | assumption
    | (intro sx; refine (have hsx : Kept kb kl bl ko sx := ?_; ?_); on_goal 2 => (try clear_value sx))
    | (intro sx; try clear_value sx)
    | lift_lets
    | apply kept_st_setCasGrp
    | refine Kept.of_mk ?_

theorem kept_cascadeArrival {g : Nat} {s : State} (h_s : Kept kb kl bl ko s) (h_p_regs : Part.regs ∈ kl := by assumption) (h_p_pipes : Part.pipes ∈ kl := by assumption) (h_p_cas : Part.cas ∈ kl := by assumption) (h_b_PRS : blkPRS ∈ bl := by assumption) :
    Kept kb kl bl ko (cascadeArrival g s) := by
  unfold cascadeArrival
  with_reducible repeat' first
    | assumption
    | (refine kept_pair1 (by assumption) ?_)
    | (intro sx; refine (have hsx : Kept kb kl bl ko sx := ?_; ?_); on_goal 2 => (try clear_value sx))
    | (intro sx; refine (have hsx : Kept kb kl bl ko sx.1 := ?_; ?_); on_goal 2 => (try clear_value sx))
    | (intro sx; try clear_value sx)
    | split
    | lift_lets
    | apply kept_st_setCasGrp
    | apply kept_offerIdle
    | apply kept_ite
    | apply kept_ite1
    | dsimp only [sx]
    | refine Kept.of_mk ?_

theorem kept_casAccess {s : State} (h_s : Kept kb kl bl ko s) (h_p_regs : Part.regs ∈ kl := by assumption) (h_p_cas : Part.cas ∈ kl := by assumption) (h_b_CAS : blkCAS ∈ bl := by assumption) :
    KeptO kb kl bl ko id (casAccess s) := by
  unfold casAccess
  with_reducible repeat' first
    | assumption
    | (refine mem_guard ?_; with_unfolding_all (first | assumption | exact (by assumption : ∀ n, n ∈ bl) _ | exact blk_n (by decide) (by decide) (by assumption) | exact blk_un (by decide) (by decide) (by decide) (by assumption) | exact blk_ite (by assumption) (by assumption) | exact blk_ite (by exact blk_n (by decide) (by decide) (by assumption)) (by exact blk_n (by decide) (by decide) (by assumption))))
    | (intro sx; refine (have hsx : Kept kb kl bl ko sx := ?_; ?_); on_goal 2 => (try clear_value sx))
    | intro sx
    | lift_lets
    | apply kept_st_setCasRedirect
    | apply kept_st_setCasSlot
    | apply kept_setReg
    | apply kept_ite
    | split
    | dsimp only [sx]
    | refine Kept.of_mk ?_
    | apply kept_none
    | apply kept_some
    | apply kept_some2
    | apply kept_oite
    | (apply kept_omap; intro xo)

theorem kept_casWrite {a : Nat} {v : Word} {o : State} {s : State} (h_o : Kept kb kl bl ko o) (h_s : Kept kb kl bl ko s) (h_p_regs : Part.regs ∈ kl := by assumption) (h_p_cas : Part.cas ∈ kl := by assumption) (h_b_CAS : blkCAS ∈ bl := by assumption) :
    Kept kb kl bl ko (casWrite a v o s) := by
  unfold casWrite
  with_reducible repeat' first
    | assumption
    | (refine mem_guard ?_; with_unfolding_all (first | assumption | exact (by assumption : ∀ n, n ∈ bl) _ | exact blk_n (by decide) (by decide) (by assumption) | exact blk_un (by decide) (by decide) (by decide) (by assumption) | exact blk_ite (by assumption) (by assumption) | exact blk_ite (by exact blk_n (by decide) (by decide) (by assumption)) (by exact blk_n (by decide) (by decide) (by assumption))))
    | (refine kept_ouse (by assumption) ?_)
    | (intro sx; refine (have hsx : Kept kb kl bl ko sx := ?_; ?_); on_goal 2 => (try clear_value sx))
    | (intro sx; try clear_value sx)
    | lift_lets
    | apply kept_casOff
    | apply kept_st_put
    | apply kept_casAccess
    | apply kept_casDetect
    | apply kept_ite
    | split
    | dsimp only [sx]
    | refine Kept.of_mk ?_

end Sys2Proof.Machine
end

