-- ==== Sys2Proof/Laws/KeptDevice.lean ====
section
/-! SUPPORT. What every operation of power, clocks, register access, configuration, the engines and the rows' own helpers keeps: one lemma for each, named after it, which lists the parts of the state that the operation may change. -/

set_option linter.unusedTactic false
set_option linter.unreachableTactic false

namespace Sys2Proof.Machine

set_option linter.unusedVariables false
set_option Elab.async false

variable {β : Type} [Membership Nat β] {kb : Bool} {kl : List Part} {bl : β} {ko : State}

theorem kept_whenUp {f : State → State} {s : State} (hf : ∀ s, Kept kb kl bl ko s → Kept kb kl bl ko (f s)) (h_s : Kept kb kl bl ko s) : Kept kb kl bl ko (whenUp f s) := by
  unfold whenUp
  exact kept_ite (hf s h_s) h_s

theorem kept_whenRuns {b : Nat} {f : State → State} {s : State} (hf : ∀ s, Kept kb kl bl ko s → Kept kb kl bl ko (f s)) (h_s : Kept kb kl bl ko s) :
    Kept kb kl bl ko (whenRuns b f s) := by
  unfold whenRuns
  exact kept_ite (hf s h_s) h_s

theorem kept_showDoze {s : State} (h_s : Kept kb kl bl ko s) (h_p_regs : Part.regs ∈ kl := by assumption) (h_b_PWR : blkPWR ∈ bl := by assumption) :
    Kept kb kl bl ko (showDoze s) := by
  unfold showDoze
  with_reducible repeat' first
    | assumption
    | (refine mem_guard ?_; with_unfolding_all (first | assumption | exact (by assumption : ∀ n, n ∈ bl) _ | exact blk_n (by decide) (by decide) (by assumption) | exact blk_un (by decide) (by decide) (by decide) (by assumption)))
    | apply kept_st_put
    | (apply kept_foldl; intro sy xy hy)
    | (apply kept_foldl2; intro sy xy hy)
    | (apply kept_foldl1; intro sy xy hy)
    | refine Kept.of_mk ?_

theorem kept_showPwr {s : State} (h_s : Kept kb kl bl ko s) (h_p_regs : Part.regs ∈ kl := by assumption) (h_b_PWR : blkPWR ∈ bl := by assumption) :
    Kept kb kl bl ko (showPwr s) := by
  unfold showPwr
  with_reducible repeat' first
    | assumption
    | (refine mem_guard ?_; with_unfolding_all (first | assumption | exact (by assumption : ∀ n, n ∈ bl) _ | exact blk_n (by decide) (by decide) (by assumption) | exact blk_un (by decide) (by decide) (by decide) (by assumption)))
    | (intro sx; refine (have hsx : Kept kb kl bl ko sx := ?_; ?_); on_goal 2 => (try clear_value sx))
    | (intro sx; try clear_value sx)
    | lift_lets
    | apply kept_st_put
    | apply kept_showDoze
    | apply kept_st_wr
    | refine Kept.of_mk ?_

theorem kept_showWakeLog {s : State} (h_s : Kept kb kl bl ko s) (h_p_regs : Part.regs ∈ kl := by assumption) (h_b_PWR : blkPWR ∈ bl := by assumption) :
    Kept kb kl bl ko (showWakeLog s) := by
  unfold showWakeLog
  with_reducible repeat' first
    | assumption
    | (refine mem_guard ?_; with_unfolding_all (first | assumption | exact (by assumption : ∀ n, n ∈ bl) _ | exact blk_n (by decide) (by decide) (by assumption) | exact blk_un (by decide) (by decide) (by decide) (by assumption)))
    | (intro sx; refine (have hsx : Kept kb kl bl ko sx := ?_; ?_); on_goal 2 => (try clear_value sx))
    | (intro sx; try clear_value sx)
    | lift_lets
    | apply kept_st_wr
    | refine Kept.of_mk ?_

theorem kept_entryStart {st : PState} {s : State} (h_s : Kept kb kl bl ko s) (h_p_regs : Part.regs ∈ kl := by assumption) (h_p_cfg : Part.cfg ∈ kl := by assumption) (h_p_flt : Part.flt ∈ kl := by assumption) (h_p_pwr : Part.pwr ∈ kl := by assumption) (h_p_cel : Part.cel ∈ kl := by assumption) (h_p_sch : Part.sch ∈ kl := by assumption) (h_p_kln : Part.kln ∈ kl := by assumption) (h_p_act : Part.act ∈ kl := by assumption) (h_p_ube : Part.ube ∈ kl := by assumption) (h_p_chp : Part.chp ∈ kl := by assumption) (h_p_dsf : Part.dsf ∈ kl := by assumption) (h_p_ohs : Part.ohs ∈ kl := by assumption) (h_p_pipes : Part.pipes ∈ kl := by assumption) (h_p_spc : Part.spc ∈ kl := by assumption) (h_p_tim : Part.tim ∈ kl := by assumption) (h_p_cas : Part.cas ∈ kl := by assumption) (h_b_CFG : blkCFG ∈ bl := by assumption) (h_b_PWR : blkPWR ∈ bl := by assumption) (h_b_FLT : blkFLT ∈ bl := by assumption) (h_b_LPH : blkLPH ∈ bl := by assumption) (h_b_DSF : blkDSF ∈ bl := by assumption) (h_b_ACT : blkACT ∈ bl := by assumption) (h_b_UBE : blkUBE ∈ bl := by assumption) (h_b_CHP : blkCHP ∈ bl := by assumption) (h_b_SPC : blkSPC ∈ bl := by assumption) (h_b_CEL : blkCEL ∈ bl := by assumption) (h_b_KLN : blkKLN ∈ bl := by assumption) (h_b_MAC : blkMAC ∈ bl := by assumption) (h_b_TIM : blkTIM ∈ bl := by assumption) (h_b_CAS : blkCAS ∈ bl := by assumption) :
    Kept kb kl bl ko (entryStart st s) := by
  unfold entryStart
  with_reducible repeat' first
    | assumption
    | (refine mem_guard ?_; with_unfolding_all (first | assumption | exact (by assumption : ∀ n, n ∈ bl) _ | exact blk_n (by decide) (by decide) (by assumption) | exact blk_un (by decide) (by decide) (by decide) (by assumption)))
    | (intro sx; refine (have hsx : Kept kb kl bl ko sx := ?_; ?_); on_goal 2 => (try clear_value sx))
    | intro sx
    | lift_lets
    | apply kept_actRestart
    | apply kept_st_put
    | apply kept_discardQueues
    | apply kept_stopBlocks
    | apply kept_showPwr
    | apply kept_setReg
    | (apply kept_foldl; intro sy xy hy)
    | (apply kept_foldl2; intro sy xy hy)
    | (apply kept_foldl1; intro sy xy hy)
    | refine Kept.of_mk ?_

theorem kept_takeUp {st : PState} {s : State} (h_s : Kept kb kl bl ko s) (h_p_regs : Part.regs ∈ kl := by assumption) (h_p_shadow : Part.shadow ∈ kl := by assumption) (h_p_free : Part.free ∈ kl := by assumption) (h_p_cfg : Part.cfg ∈ kl := by assumption) (h_p_flt : Part.flt ∈ kl := by assumption) (h_p_pwr : Part.pwr ∈ kl := by assumption) (h_p_cel : Part.cel ∈ kl := by assumption) (h_p_sch : Part.sch ∈ kl := by assumption) (h_p_gcl : Part.gcl ∈ kl := by assumption) (h_p_kln : Part.kln ∈ kl := by assumption) (h_p_act : Part.act ∈ kl := by assumption) (h_p_ube : Part.ube ∈ kl := by assumption) (h_p_chp : Part.chp ∈ kl := by assumption) (h_p_dsf : Part.dsf ∈ kl := by assumption) (h_p_ohs : Part.ohs ∈ kl := by assumption) (h_p_pipes : Part.pipes ∈ kl := by assumption) (h_p_cls : Part.cls ∈ kl := by assumption) (h_p_spc : Part.spc ∈ kl := by assumption) (h_p_mac : Part.mac ∈ kl := by assumption) (h_p_lph : Part.lph ∈ kl := by assumption) (h_p_tim : Part.tim ∈ kl := by assumption) (h_p_cas : Part.cas ∈ kl := by assumption) (h_b_CFG : blkCFG ∈ bl := by assumption) (h_b_PWR : blkPWR ∈ bl := by assumption) (h_b_FLT : blkFLT ∈ bl := by assumption) (h_b_LPH : blkLPH ∈ bl := by assumption) (h_b_DSF : blkDSF ∈ bl := by assumption) (h_b_ACT : blkACT ∈ bl := by assumption) (h_b_UBE : blkUBE ∈ bl := by assumption) (h_b_CHP : blkCHP ∈ bl := by assumption) (h_b_CLS : blkCLS ∈ bl := by assumption) (h_b_SPC : blkSPC ∈ bl := by assumption) (h_b_CEL : blkCEL ∈ bl := by assumption) (h_b_GCL : blkGCL ∈ bl := by assumption) (h_b_KLN : blkKLN ∈ bl := by assumption) (h_b_MAC : blkMAC ∈ bl := by assumption) (h_b_TIM : blkTIM ∈ bl := by assumption) (h_b_CAS : blkCAS ∈ bl := by assumption) :
    Kept kb kl bl ko (takeUp st s) := by
  unfold takeUp
  with_reducible repeat' first
    | assumption
    | (intro sx; refine (have hsx : Kept kb kl bl ko sx := ?_; ?_); on_goal 2 => (try clear_value sx))
    | intro sx
    | lift_lets
    | apply kept_servicePower
    | apply kept_entryStart
    | apply kept_showPwr
    | apply kept_ite
    | split
    | dsimp only [sx]
    | refine Kept.of_mk ?_

theorem kept_request {st : PState} {s : State} (h_s : Kept kb kl bl ko s) (h_p_regs : Part.regs ∈ kl := by assumption) (h_p_shadow : Part.shadow ∈ kl := by assumption) (h_p_free : Part.free ∈ kl := by assumption) (h_p_cfg : Part.cfg ∈ kl := by assumption) (h_p_flt : Part.flt ∈ kl := by assumption) (h_p_pwr : Part.pwr ∈ kl := by assumption) (h_p_cel : Part.cel ∈ kl := by assumption) (h_p_sch : Part.sch ∈ kl := by assumption) (h_p_gcl : Part.gcl ∈ kl := by assumption) (h_p_kln : Part.kln ∈ kl := by assumption) (h_p_act : Part.act ∈ kl := by assumption) (h_p_ube : Part.ube ∈ kl := by assumption) (h_p_chp : Part.chp ∈ kl := by assumption) (h_p_dsf : Part.dsf ∈ kl := by assumption) (h_p_ohs : Part.ohs ∈ kl := by assumption) (h_p_pipes : Part.pipes ∈ kl := by assumption) (h_p_cls : Part.cls ∈ kl := by assumption) (h_p_spc : Part.spc ∈ kl := by assumption) (h_p_mac : Part.mac ∈ kl := by assumption) (h_p_lph : Part.lph ∈ kl := by assumption) (h_p_tim : Part.tim ∈ kl := by assumption) (h_p_cas : Part.cas ∈ kl := by assumption) (h_b_CFG : blkCFG ∈ bl := by assumption) (h_b_PWR : blkPWR ∈ bl := by assumption) (h_b_FLT : blkFLT ∈ bl := by assumption) (h_b_LPH : blkLPH ∈ bl := by assumption) (h_b_DSF : blkDSF ∈ bl := by assumption) (h_b_ACT : blkACT ∈ bl := by assumption) (h_b_UBE : blkUBE ∈ bl := by assumption) (h_b_CHP : blkCHP ∈ bl := by assumption) (h_b_CLS : blkCLS ∈ bl := by assumption) (h_b_SPC : blkSPC ∈ bl := by assumption) (h_b_CEL : blkCEL ∈ bl := by assumption) (h_b_GCL : blkGCL ∈ bl := by assumption) (h_b_KLN : blkKLN ∈ bl := by assumption) (h_b_MAC : blkMAC ∈ bl := by assumption) (h_b_TIM : blkTIM ∈ bl := by assumption) (h_b_CAS : blkCAS ∈ bl := by assumption) :
    Kept kb kl bl ko (request st s) := by
  unfold request
  with_reducible repeat' first
    | assumption
    | apply kept_showPwr
    | apply kept_takeUp
    | apply kept_ite
    | refine Kept.of_mk ?_
    | split

theorem kept_transitionEnds {st : PState} {s : State} (h_s : Kept kb kl bl ko s) (h_p_regs : Part.regs ∈ kl := by assumption) (h_p_shadow : Part.shadow ∈ kl := by assumption) (h_p_free : Part.free ∈ kl := by assumption) (h_p_cfg : Part.cfg ∈ kl := by assumption) (h_p_flt : Part.flt ∈ kl := by assumption) (h_p_pwr : Part.pwr ∈ kl := by assumption) (h_p_cel : Part.cel ∈ kl := by assumption) (h_p_sch : Part.sch ∈ kl := by assumption) (h_p_gcl : Part.gcl ∈ kl := by assumption) (h_p_kln : Part.kln ∈ kl := by assumption) (h_p_act : Part.act ∈ kl := by assumption) (h_p_ube : Part.ube ∈ kl := by assumption) (h_p_chp : Part.chp ∈ kl := by assumption) (h_p_dsf : Part.dsf ∈ kl := by assumption) (h_p_ohs : Part.ohs ∈ kl := by assumption) (h_p_pipes : Part.pipes ∈ kl := by assumption) (h_p_cls : Part.cls ∈ kl := by assumption) (h_p_spc : Part.spc ∈ kl := by assumption) (h_p_mac : Part.mac ∈ kl := by assumption) (h_p_lph : Part.lph ∈ kl := by assumption) (h_p_tim : Part.tim ∈ kl := by assumption) (h_p_cas : Part.cas ∈ kl := by assumption) (h_p_power : Part.power ∈ kl := by assumption) (h_b_CFG : blkCFG ∈ bl := by assumption) (h_b_PWR : blkPWR ∈ bl := by assumption) (h_b_FLT : blkFLT ∈ bl := by assumption) (h_b_LPH : blkLPH ∈ bl := by assumption) (h_b_DSF : blkDSF ∈ bl := by assumption) (h_b_ACT : blkACT ∈ bl := by assumption) (h_b_UBE : blkUBE ∈ bl := by assumption) (h_b_CHP : blkCHP ∈ bl := by assumption) (h_b_CLS : blkCLS ∈ bl := by assumption) (h_b_SPC : blkSPC ∈ bl := by assumption) (h_b_CEL : blkCEL ∈ bl := by assumption) (h_b_GCL : blkGCL ∈ bl := by assumption) (h_b_KLN : blkKLN ∈ bl := by assumption) (h_b_MAC : blkMAC ∈ bl := by assumption) (h_b_TIM : blkTIM ∈ bl := by assumption) (h_b_CAS : blkCAS ∈ bl := by assumption) :
    Kept kb kl bl ko (transitionEnds st s) := by
  unfold transitionEnds
  with_reducible repeat' first
    | assumption
    | (refine mem_guard ?_; with_unfolding_all (first | assumption | exact (by assumption : ∀ n, n ∈ bl) _ | exact blk_n (by decide) (by decide) (by assumption) | exact blk_un (by decide) (by decide) (by decide) (by assumption) | exact blk_ite (by assumption) (by assumption) | exact blk_ite (by exact blk_n (by decide) (by decide) (by assumption)) (by exact blk_n (by decide) (by decide) (by assumption))))
    | (intro sx; refine (have hsx : Kept kb kl bl ko sx := ?_; ?_); on_goal 2 => (try clear_value sx))
    | (intro sx; try clear_value sx)
    | lift_lets
    | apply kept_st_put
    | apply kept_showPwr
    | apply kept_takeUp
    | apply kept_ite
    | split
    | dsimp only [sx]
    | refine Kept.of_mk ?_

theorem kept_unitsDone {s : State} (h_s : Kept kb kl bl ko s) (h_p_regs : Part.regs ∈ kl := by assumption) (h_p_shadow : Part.shadow ∈ kl := by assumption) (h_p_free : Part.free ∈ kl := by assumption) (h_p_cfg : Part.cfg ∈ kl := by assumption) (h_p_flt : Part.flt ∈ kl := by assumption) (h_p_pwr : Part.pwr ∈ kl := by assumption) (h_p_cel : Part.cel ∈ kl := by assumption) (h_p_sch : Part.sch ∈ kl := by assumption) (h_p_gcl : Part.gcl ∈ kl := by assumption) (h_p_kln : Part.kln ∈ kl := by assumption) (h_p_act : Part.act ∈ kl := by assumption) (h_p_ube : Part.ube ∈ kl := by assumption) (h_p_chp : Part.chp ∈ kl := by assumption) (h_p_dsf : Part.dsf ∈ kl := by assumption) (h_p_ohs : Part.ohs ∈ kl := by assumption) (h_p_pipes : Part.pipes ∈ kl := by assumption) (h_p_cls : Part.cls ∈ kl := by assumption) (h_p_spc : Part.spc ∈ kl := by assumption) (h_p_mac : Part.mac ∈ kl := by assumption) (h_p_lph : Part.lph ∈ kl := by assumption) (h_p_tim : Part.tim ∈ kl := by assumption) (h_p_cas : Part.cas ∈ kl := by assumption) (h_p_power : Part.power ∈ kl := by assumption) (h_b_CFG : blkCFG ∈ bl := by assumption) (h_b_PWR : blkPWR ∈ bl := by assumption) (h_b_FLT : blkFLT ∈ bl := by assumption) (h_b_LPH : blkLPH ∈ bl := by assumption) (h_b_DSF : blkDSF ∈ bl := by assumption) (h_b_ACT : blkACT ∈ bl := by assumption) (h_b_UBE : blkUBE ∈ bl := by assumption) (h_b_CHP : blkCHP ∈ bl := by assumption) (h_b_CLS : blkCLS ∈ bl := by assumption) (h_b_SPC : blkSPC ∈ bl := by assumption) (h_b_CEL : blkCEL ∈ bl := by assumption) (h_b_GCL : blkGCL ∈ bl := by assumption) (h_b_KLN : blkKLN ∈ bl := by assumption) (h_b_MAC : blkMAC ∈ bl := by assumption) (h_b_TIM : blkTIM ∈ bl := by assumption) (h_b_CAS : blkCAS ∈ bl := by assumption) :
    Kept kb kl bl ko (unitsDone s) := by
  unfold unitsDone
  with_reducible repeat' first
    | assumption
    | apply kept_transitionEnds
    | split
    | refine Kept.of_mk ?_

theorem kept_hartWaits {c : Nat} {s : State} (h_s : Kept kb kl bl ko s) (h_p_regs : Part.regs ∈ kl := by assumption) (h_p_cfg : Part.cfg ∈ kl := by assumption) (h_p_flt : Part.flt ∈ kl := by assumption) (h_p_harts : Part.harts ∈ kl := by assumption) (h_p_pwr : Part.pwr ∈ kl := by assumption) (h_p_cel : Part.cel ∈ kl := by assumption) (h_p_sch : Part.sch ∈ kl := by assumption) (h_p_kln : Part.kln ∈ kl := by assumption) (h_p_act : Part.act ∈ kl := by assumption) (h_p_ube : Part.ube ∈ kl := by assumption) (h_p_chp : Part.chp ∈ kl := by assumption) (h_p_dsf : Part.dsf ∈ kl := by assumption) (h_p_ohs : Part.ohs ∈ kl := by assumption) (h_p_pipes : Part.pipes ∈ kl := by assumption) (h_p_spc : Part.spc ∈ kl := by assumption) (h_p_tim : Part.tim ∈ kl := by assumption) (h_p_cas : Part.cas ∈ kl := by assumption) (h_b_CFG : blkCFG ∈ bl := by assumption) (h_b_PWR : blkPWR ∈ bl := by assumption) (h_b_FLT : blkFLT ∈ bl := by assumption) (h_b_LPH : blkLPH ∈ bl := by assumption) (h_b_DSF : blkDSF ∈ bl := by assumption) (h_b_ACT : blkACT ∈ bl := by assumption) (h_b_UBE : blkUBE ∈ bl := by assumption) (h_b_CHP : blkCHP ∈ bl := by assumption) (h_b_SPC : blkSPC ∈ bl := by assumption) (h_b_CEL : blkCEL ∈ bl := by assumption) (h_b_KLN : blkKLN ∈ bl := by assumption) (h_b_MAC : blkMAC ∈ bl := by assumption) (h_b_TIM : blkTIM ∈ bl := by assumption) (h_b_CAS : blkCAS ∈ bl := by assumption) :
    Kept kb kl bl ko (hartWaits c s) := by
  unfold hartWaits
  with_reducible repeat' first
    | assumption
    | (intro sx; refine (have hsx : Kept kb kl bl ko sx := ?_; ?_); on_goal 2 => (try clear_value sx))
    | (intro sx; try clear_value sx)
    | lift_lets
    | apply kept_entryStart
    | apply kept_st_setHart
    | apply kept_ite
    | split
    | dsimp only [sx]
    | refine Kept.of_mk ?_

theorem Frame.maps {s : State} {a b : SMap Word} {c : SMap Byte} (h : Frame kl ko s) (h_p_regs : Part.regs ∈ kl)
    (h_p_shadow : Part.shadow ∈ kl) (h_p_mem : Part.mem ∈ kl) :
    Frame kl ko { s with regs := a, shadow := b, mem := c } := by
  intro p hp
  cases p
  case regs => exact absurd h_p_regs hp
  case shadow => exact absurd h_p_shadow hp
  case mem => exact absurd h_p_mem hp
  all_goals exact h _ hp

theorem kept_lowPower {st : PState} {s : State} (h_s : Kept kb kl bl ko s) (h_full : ∀ p, p ≠ Part.pending → p ≠ Part.free → p ∈ kl := by assumption) (h_all : ∀ n, n ∈ bl := by assumption) : Kept kb kl bl ko (lowPower st s) := by
  obtain ⟨h_p_regs, h_p_shadow, h_p_mem, h_p_ecc, h_p_readOut, h_p_ticks, h_p_tod, h_p_cfg, h_p_flt, h_p_tsk, h_p_harts, h_p_acu, h_p_pwr, h_p_cel, h_p_sch, h_p_gcl, h_p_kln, h_p_act, h_p_ube, h_p_chp, h_p_dsf, h_p_ohs, h_p_pipes, h_p_cls, h_p_flw, h_p_spc, h_p_mac, h_p_lph, h_p_tim, h_p_cas, h_p_clk, h_p_tap, h_p_boot, h_p_power⟩ := full_parts h_full
  have h_b_CFG : blkCFG ∈ bl := h_all _
  have h_b_CLK : blkCLK ∈ bl := h_all _
  have h_b_PWR : blkPWR ∈ bl := h_all _
  have h_b_FLT : blkFLT ∈ bl := h_all _
  have h_b_TSK : blkTSK ∈ bl := h_all _
  have h_b_ACU : blkACU ∈ bl := h_all _
  have h_b_LPH : blkLPH ∈ bl := h_all _
  have h_b_DSF : blkDSF ∈ bl := h_all _
  have h_b_ACT : blkACT ∈ bl := h_all _
  have h_b_UBE : blkUBE ∈ bl := h_all _
  have h_b_CHP : blkCHP ∈ bl := h_all _
  have h_b_PRS : blkPRS ∈ bl := h_all _
  have h_b_CLS : blkCLS ∈ bl := h_all _
  have h_b_FLW : blkFLW ∈ bl := h_all _
  have h_b_SPC : blkSPC ∈ bl := h_all _
  have h_b_CEL : blkCEL ∈ bl := h_all _
  have h_b_SCH : blkSCH ∈ bl := h_all _
  have h_b_GCL : blkGCL ∈ bl := h_all _
  have h_b_CIP : blkCIP ∈ bl := h_all _
  have h_b_KLN : blkKLN ∈ bl := h_all _
  have h_b_MAC : blkMAC ∈ bl := h_all _
  have h_b_TIM : blkTIM ∈ bl := h_all _
  have h_b_OHS : blkOHS ∈ bl := h_all _
  have h_b_CAS : blkCAS ∈ bl := h_all _
  unfold lowPower
  extract_lets t f1 lph kept c0 p0 f2 f3 f4 f5 chan l0 f6 f7 f8 k0 f9 f10
  have h1 : Kept kb kl bl ko f1 := kept_keepDis h_s (kept_keepFuses h_s inv_reset)
  have hr : ∀ (l : List (Nat × Word)) (m : SMap Word), SMap.wf regReset m = true →
      SMap.wf regReset (l.foldl (fun m (e : Nat × Word) => SMap.set regReset m e.1 e.2) m) = true := by
    intro l
    induction l with
    | nil => intro m h; exact h
    | cons e l ih => intro m h; exact ih _ (SMap.wf_set _ _ _ h)
  clear_value f1
  have hp : ∀ (a b : SMap Word) (c : SMap Byte), (kb = true → SMap.wf regReset a = true) →
      (kb = true → SMap.wf regReset b = true) → (kb = true → SMap.wf memDefault c = true) →
      Kept kb kl bl ko { f1 with regs := a, shadow := b, mem := c } := fun a b c ha hb hc =>
    ⟨fun e => ⟨ha e, hb e, hc e, (h1.1 e).2.2.2⟩, h1.2.1.maps h_p_regs h_p_shadow h_p_mem, fun a ha => absurd (h_all _) ha⟩
  have h2 : Kept kb kl bl ko f2 := by
    refine Kept.of_mk (hp (kept.foldl (fun m (e : Nat × Word) => SMap.set regReset m e.1 e.2) f1.regs)
      (if t then s.shadow.filter (fun e => e.1 == (LPH_DEC_CFG (s.rd PWR_TASTE_CP)).addr) else [])
      (if t then s.mem.filter (fun e => keptByte s e.1) else []) (fun b => hr _ _ (h1.1 b).1) (fun b => ?_) (fun b => ?_))
    · split
      · exact SMap.wfFrom_filter _ _ (h_s.1 b).2.1
      · rfl
    · split
      · exact SMap.wfFrom_filter _ _ (h_s.1 b).2.2.1
      · rfl
  clear_value f2
  have h3 : Kept kb kl bl ko f3 := kept_st_put (kept_st_put h2)
  have h4 : Kept kb kl bl ko f4 := kept_foldl (fun _ _ h => kept_st_put h) h3
  have h5 : Kept kb kl bl ko f5 := kept_st_wr h4
  clear_value f5
  refine kept_showPwr (kept_ite ?_ h5)
  have h6 : Kept kb kl bl ko f6 := Kept.of_mk h5
  have h7 : Kept kb kl bl ko f7 := kept_foldl (fun _ _ h => kept_ite h (kept_st_wr h)) h6
  have h8 : Kept kb kl bl ko f8 := kept_st_wr h7
  have h9 : Kept kb kl bl ko f9 := kept_foldl (fun _ _ h => kept_st_setStack h) h8
  exact kept_ite (kept_st_clrBit (kept_st_setBit h9)) h9

theorem kept_entryDone {s : State} (h_s : Kept kb kl bl ko s) (h_full : ∀ p, p ≠ Part.pending → p ≠ Part.free → p ∈ kl := by assumption) (h_p_free : Part.free ∈ kl := by assumption) (h_all : ∀ n, n ∈ bl := by assumption) :
    Kept kb kl bl ko (entryDone s) := by
  unfold entryDone
  obtain ⟨h_p_regs, h_p_shadow, h_p_mem, h_p_ecc, h_p_readOut, h_p_ticks, h_p_tod, h_p_cfg, h_p_flt, h_p_tsk, h_p_harts, h_p_acu, h_p_pwr, h_p_cel, h_p_sch, h_p_gcl, h_p_kln, h_p_act, h_p_ube, h_p_chp, h_p_dsf, h_p_ohs, h_p_pipes, h_p_cls, h_p_flw, h_p_spc, h_p_mac, h_p_lph, h_p_tim, h_p_cas, h_p_clk, h_p_tap, h_p_boot, h_p_power⟩ := full_parts h_full
  have h_b_CFG : blkCFG ∈ bl := h_all _
  have h_b_CLK : blkCLK ∈ bl := h_all _
  have h_b_PWR : blkPWR ∈ bl := h_all _
  have h_b_FLT : blkFLT ∈ bl := h_all _
  have h_b_TSK : blkTSK ∈ bl := h_all _
  have h_b_ACU : blkACU ∈ bl := h_all _
  have h_b_LPH : blkLPH ∈ bl := h_all _
  have h_b_DSF : blkDSF ∈ bl := h_all _
  have h_b_ACT : blkACT ∈ bl := h_all _
  have h_b_UBE : blkUBE ∈ bl := h_all _
  have h_b_CHP : blkCHP ∈ bl := h_all _
  have h_b_PRS : blkPRS ∈ bl := h_all _
  have h_b_CLS : blkCLS ∈ bl := h_all _
  have h_b_FLW : blkFLW ∈ bl := h_all _
  have h_b_SPC : blkSPC ∈ bl := h_all _
  have h_b_CEL : blkCEL ∈ bl := h_all _
  have h_b_SCH : blkSCH ∈ bl := h_all _
  have h_b_GCL : blkGCL ∈ bl := h_all _
  have h_b_CIP : blkCIP ∈ bl := h_all _
  have h_b_KLN : blkKLN ∈ bl := h_all _
  have h_b_MAC : blkMAC ∈ bl := h_all _
  have h_b_TIM : blkTIM ∈ bl := h_all _
  have h_b_OHS : blkOHS ∈ bl := h_all _
  have h_b_CAS : blkCAS ∈ bl := h_all _
  with_reducible repeat' first
    | assumption
    | (refine mem_guard ?_; with_unfolding_all (first | assumption | exact (by assumption : ∀ n, n ∈ bl) _ | exact blk_n (by decide) (by decide) (by assumption) | exact blk_un (by decide) (by decide) (by decide) (by assumption) | exact blk_ite (by assumption) (by assumption) | exact blk_ite (by exact blk_n (by decide) (by decide) (by assumption)) (by exact blk_n (by decide) (by decide) (by assumption))))
    | (intro sx; refine (have hsx : Kept kb kl bl ko sx := ?_; ?_); on_goal 2 => (try clear_value sx))
    | (intro sx; try clear_value sx)
    | lift_lets
    | apply kept_lowPower
    | apply kept_st_put
    | apply kept_transitionEnds
    | apply kept_ite
    | split
    | dsimp only [sx]
    | refine Kept.of_mk ?_

theorem kept_wakeLatch {src : Nat} {stamp : Nat} {s : State} (h_s : Kept kb kl bl ko s) (h_p_regs : Part.regs ∈ kl := by assumption) (h_p_pwr : Part.pwr ∈ kl := by assumption) (h_b_PWR : blkPWR ∈ bl := by assumption) :
    Kept kb kl bl ko (wakeLatch src stamp s) := by
  unfold wakeLatch
  with_reducible repeat' first
    | assumption
    | (refine mem_guard ?_; with_unfolding_all (first | assumption | exact (by assumption : ∀ n, n ∈ bl) _ | exact blk_n (by decide) (by decide) (by assumption) | exact blk_un (by decide) (by decide) (by decide) (by assumption) | exact blk_ite (by assumption) (by assumption) | exact blk_ite (by exact blk_n (by decide) (by decide) (by assumption)) (by exact blk_n (by decide) (by decide) (by assumption))))
    | (intro sx; refine (have hsx : Kept kb kl bl ko sx := ?_; ?_); on_goal 2 => (try clear_value sx))
    | intro sx
    | lift_lets
    | apply kept_showWakeLog
    | apply kept_st_put
    | apply kept_ite
    | split
    | dsimp only [sx]
    | refine Kept.of_mk ?_

theorem kept_wakeSd {P : Nat} {stamp : Nat} {s : State} (h_s : Kept kb kl bl ko s) (h_p_regs : Part.regs ∈ kl := by assumption) (h_p_pwr : Part.pwr ∈ kl := by assumption) (h_b_PWR : blkPWR ∈ bl := by assumption) :
    Kept kb kl bl ko (wakeSd P stamp s) := by
  unfold wakeSd
  with_reducible repeat' first
    | assumption
    | apply kept_wakeLatch
    | apply kept_ite
    | refine Kept.of_mk ?_
    | split

theorem kept_wakeTimer {stamp : Nat} {s : State} (h_s : Kept kb kl bl ko s) (h_p_regs : Part.regs ∈ kl := by assumption) (h_p_pwr : Part.pwr ∈ kl := by assumption) (h_b_PWR : blkPWR ∈ bl := by assumption) :
    Kept kb kl bl ko (wakeTimer stamp s) := by
  unfold wakeTimer
  with_reducible repeat' first
    | assumption
    | apply kept_wakeLatch
    | apply kept_ite
    | refine Kept.of_mk ?_
    | split

theorem kept_wakeStart {mgr : Bool} {safeN : Bool} {s : State} (h_s : Kept kb kl bl ko s) (h_p_regs : Part.regs ∈ kl := by assumption) (h_p_mem : Part.mem ∈ kl := by assumption) (h_p_ecc : Part.ecc ∈ kl := by assumption) (h_p_cfg : Part.cfg ∈ kl := by assumption) (h_p_flt : Part.flt ∈ kl := by assumption) (h_p_tsk : Part.tsk ∈ kl := by assumption) (h_p_harts : Part.harts ∈ kl := by assumption) (h_p_pwr : Part.pwr ∈ kl := by assumption) (h_p_cel : Part.cel ∈ kl := by assumption) (h_p_sch : Part.sch ∈ kl := by assumption) (h_p_kln : Part.kln ∈ kl := by assumption) (h_p_act : Part.act ∈ kl := by assumption) (h_p_ube : Part.ube ∈ kl := by assumption) (h_p_chp : Part.chp ∈ kl := by assumption) (h_p_dsf : Part.dsf ∈ kl := by assumption) (h_p_ohs : Part.ohs ∈ kl := by assumption) (h_p_pipes : Part.pipes ∈ kl := by assumption) (h_p_spc : Part.spc ∈ kl := by assumption) (h_p_tim : Part.tim ∈ kl := by assumption) (h_p_cas : Part.cas ∈ kl := by assumption) (h_p_boot : Part.boot ∈ kl := by assumption) (h_b_CFG : blkCFG ∈ bl := by assumption) (h_b_CLK : blkCLK ∈ bl := by assumption) (h_b_PWR : blkPWR ∈ bl := by assumption) (h_b_FLT : blkFLT ∈ bl := by assumption) (h_b_TSK : blkTSK ∈ bl := by assumption) (h_b_LPH : blkLPH ∈ bl := by assumption) (h_b_DSF : blkDSF ∈ bl := by assumption) (h_b_ACT : blkACT ∈ bl := by assumption) (h_b_UBE : blkUBE ∈ bl := by assumption) (h_b_CHP : blkCHP ∈ bl := by assumption) (h_b_SPC : blkSPC ∈ bl := by assumption) (h_b_CEL : blkCEL ∈ bl := by assumption) (h_b_KLN : blkKLN ∈ bl := by assumption) (h_b_TIM : blkTIM ∈ bl := by assumption) (h_b_CAS : blkCAS ∈ bl := by assumption) :
    Kept kb kl bl ko (wakeStart mgr safeN s) := by
  unfold wakeStart
  with_reducible repeat' first
    | assumption
    | (refine mem_guard ?_; with_unfolding_all (first | assumption | exact (by assumption : ∀ n, n ∈ bl) _ | exact blk_n (by decide) (by decide) (by assumption) | exact blk_un (by decide) (by decide) (by decide) (by assumption) | exact blk_ite (by assumption) (by assumption) | exact blk_ite (by exact blk_n (by decide) (by decide) (by assumption)) (by exact blk_n (by decide) (by decide) (by assumption))))
    | (intro sx; refine (have hsx : Kept kb kl bl ko sx := ?_; ?_); on_goal 2 => (try clear_value sx))
    | intro sx
    | lift_lets
    | apply kept_st_put
    | apply kept_st_setHart
    | apply kept_showFree
    | apply kept_showPwr
    | apply kept_bootStart
    | apply kept_st_wr
    | apply kept_ite
    | (apply kept_foldl; intro sy xy hy)
    | (apply kept_foldl2; intro sy xy hy)
    | (apply kept_foldl1; intro sy xy hy)
    | refine Kept.of_mk ?_
    | split

theorem kept_wakeRetry {s : State} (h_s : Kept kb kl bl ko s) (h_full : ∀ p, p ≠ Part.pending → p ≠ Part.free → p ∈ kl := by assumption) (h_all : ∀ n, n ∈ bl := by assumption) :
    Kept kb kl bl ko (wakeRetry s) := by
  unfold wakeRetry
  obtain ⟨h_p_regs, h_p_shadow, h_p_mem, h_p_ecc, h_p_readOut, h_p_ticks, h_p_tod, h_p_cfg, h_p_flt, h_p_tsk, h_p_harts, h_p_acu, h_p_pwr, h_p_cel, h_p_sch, h_p_gcl, h_p_kln, h_p_act, h_p_ube, h_p_chp, h_p_dsf, h_p_ohs, h_p_pipes, h_p_cls, h_p_flw, h_p_spc, h_p_mac, h_p_lph, h_p_tim, h_p_cas, h_p_clk, h_p_tap, h_p_boot, h_p_power⟩ := full_parts h_full
  have h_b_CFG : blkCFG ∈ bl := h_all _
  have h_b_CLK : blkCLK ∈ bl := h_all _
  have h_b_PWR : blkPWR ∈ bl := h_all _
  have h_b_FLT : blkFLT ∈ bl := h_all _
  have h_b_TSK : blkTSK ∈ bl := h_all _
  have h_b_ACU : blkACU ∈ bl := h_all _
  have h_b_LPH : blkLPH ∈ bl := h_all _
  have h_b_DSF : blkDSF ∈ bl := h_all _
  have h_b_ACT : blkACT ∈ bl := h_all _
  have h_b_UBE : blkUBE ∈ bl := h_all _
  have h_b_CHP : blkCHP ∈ bl := h_all _
  have h_b_PRS : blkPRS ∈ bl := h_all _
  have h_b_CLS : blkCLS ∈ bl := h_all _
  have h_b_FLW : blkFLW ∈ bl := h_all _
  have h_b_SPC : blkSPC ∈ bl := h_all _
  have h_b_CEL : blkCEL ∈ bl := h_all _
  have h_b_SCH : blkSCH ∈ bl := h_all _
  have h_b_GCL : blkGCL ∈ bl := h_all _
  have h_b_CIP : blkCIP ∈ bl := h_all _
  have h_b_KLN : blkKLN ∈ bl := h_all _
  have h_b_MAC : blkMAC ∈ bl := h_all _
  have h_b_TIM : blkTIM ∈ bl := h_all _
  have h_b_OHS : blkOHS ∈ bl := h_all _
  have h_b_CAS : blkCAS ∈ bl := h_all _
  with_reducible repeat' first
    | assumption
    | (refine mem_guard ?_; with_unfolding_all (first | assumption | exact (by assumption : ∀ n, n ∈ bl) _ | exact blk_n (by decide) (by decide) (by assumption) | exact blk_un (by decide) (by decide) (by decide) (by assumption) | exact blk_ite (by assumption) (by assumption) | exact blk_ite (by exact blk_n (by decide) (by decide) (by assumption)) (by exact blk_n (by decide) (by decide) (by assumption))))
    | (intro sx; refine (have hsx : Kept kb kl bl ko sx := ?_; ?_); on_goal 2 => (try clear_value sx))
    | (intro sx; try clear_value sx)
    | lift_lets
    | apply kept_lowPower
    | apply kept_st_inc
    | apply kept_st_put
    | apply kept_showPwr
    | apply kept_ite
    | split
    | dsimp only [sx]
    | refine Kept.of_mk ?_

theorem kept_wakeDone {s : State} (h_s : Kept kb kl bl ko s) (h_p_regs : Part.regs ∈ kl := by assumption) (h_p_shadow : Part.shadow ∈ kl := by assumption) (h_p_mem : Part.mem ∈ kl := by assumption) (h_p_ecc : Part.ecc ∈ kl := by assumption) (h_p_free : Part.free ∈ kl := by assumption) (h_p_cfg : Part.cfg ∈ kl := by assumption) (h_p_flt : Part.flt ∈ kl := by assumption) (h_p_tsk : Part.tsk ∈ kl := by assumption) (h_p_harts : Part.harts ∈ kl := by assumption) (h_p_pwr : Part.pwr ∈ kl := by assumption) (h_p_cel : Part.cel ∈ kl := by assumption) (h_p_sch : Part.sch ∈ kl := by assumption) (h_p_gcl : Part.gcl ∈ kl := by assumption) (h_p_kln : Part.kln ∈ kl := by assumption) (h_p_act : Part.act ∈ kl := by assumption) (h_p_ube : Part.ube ∈ kl := by assumption) (h_p_chp : Part.chp ∈ kl := by assumption) (h_p_dsf : Part.dsf ∈ kl := by assumption) (h_p_ohs : Part.ohs ∈ kl := by assumption) (h_p_pipes : Part.pipes ∈ kl := by assumption) (h_p_cls : Part.cls ∈ kl := by assumption) (h_p_spc : Part.spc ∈ kl := by assumption) (h_p_mac : Part.mac ∈ kl := by assumption) (h_p_lph : Part.lph ∈ kl := by assumption) (h_p_tim : Part.tim ∈ kl := by assumption) (h_p_cas : Part.cas ∈ kl := by assumption) (h_p_clk : Part.clk ∈ kl := by assumption) (h_p_power : Part.power ∈ kl := by assumption) (h_b_CFG : blkCFG ∈ bl := by assumption) (h_b_PWR : blkPWR ∈ bl := by assumption) (h_b_FLT : blkFLT ∈ bl := by assumption) (h_b_TSK : blkTSK ∈ bl := by assumption) (h_b_LPH : blkLPH ∈ bl := by assumption) (h_b_DSF : blkDSF ∈ bl := by assumption) (h_b_ACT : blkACT ∈ bl := by assumption) (h_b_UBE : blkUBE ∈ bl := by assumption) (h_b_CHP : blkCHP ∈ bl := by assumption) (h_b_CLS : blkCLS ∈ bl := by assumption) (h_b_SPC : blkSPC ∈ bl := by assumption) (h_b_CEL : blkCEL ∈ bl := by assumption) (h_b_GCL : blkGCL ∈ bl := by assumption) (h_b_KLN : blkKLN ∈ bl := by assumption) (h_b_MAC : blkMAC ∈ bl := by assumption) (h_b_TIM : blkTIM ∈ bl := by assumption) (h_b_CAS : blkCAS ∈ bl := by assumption) :
    Kept kb kl bl ko (wakeDone s) := by
  unfold wakeDone
  with_reducible repeat' first
    | assumption
    | (refine mem_guard ?_; with_unfolding_all (first | assumption | exact (by assumption : ∀ n, n ∈ bl) _ | exact blk_n (by decide) (by decide) (by assumption) | exact blk_un (by decide) (by decide) (by decide) (by assumption) | exact blk_ite (by assumption) (by assumption) | exact blk_ite (by exact blk_n (by decide) (by decide) (by assumption)) (by exact blk_n (by decide) (by decide) (by assumption))))
    | (intro sx; refine (have hsx : Kept kb kl bl ko sx := ?_; ?_); on_goal 2 => (try clear_value sx))
    | (intro sx; try clear_value sx)
    | lift_lets
    | apply kept_tskClock
    | apply kept_st_inc
    | apply kept_fltReport
    | apply kept_st_put
    | apply kept_transitionEnds
    | apply kept_ite
    | split
    | dsimp only [sx]
    | refine Kept.of_mk ?_

theorem kept_tasteMiss {stamp : Nat} {s : State} (h_s : Kept kb kl bl ko s) (h_p_regs : Part.regs ∈ kl := by assumption) (h_p_pwr : Part.pwr ∈ kl := by assumption) (h_b_PWR : blkPWR ∈ bl := by assumption) : Kept kb kl bl ko (tasteMiss stamp s) := by
  have h1 : Kept kb kl bl ko ((s.inc PWR_TASTE_STAT_MISSES).inc PWR_TASTE_STAT_MISS_RUN) := kept_st_inc (kept_st_inc h_s)
  unfold tasteMiss
  generalize (s.inc PWR_TASTE_STAT_MISSES).inc PWR_TASTE_STAT_MISS_RUN = t at *
  dsimp only
  split
  · exact kept_wakeLatch (Kept.of_mk h1)
  · exact Kept.of_mk h1

theorem kept_tasteCycle {ready : Bool} {a : Option Bytes} {b : Option Bytes} {stamp : Nat} {s : State} (h_s : Kept kb kl bl ko s) (h_p_regs : Part.regs ∈ kl := by assumption) (h_p_pwr : Part.pwr ∈ kl := by assumption) (h_b_PWR : blkPWR ∈ bl := by assumption) :
    Kept kb kl bl ko (tasteCycle ready a b stamp s) := by
  unfold tasteCycle
  with_reducible repeat' first
    | assumption
    | (refine mem_guard ?_; with_unfolding_all (first | assumption | exact (by assumption : ∀ n, n ∈ bl) _ | exact blk_n (by decide) (by decide) (by assumption) | exact blk_un (by decide) (by decide) (by decide) (by assumption) | exact blk_ite (by assumption) (by assumption) | exact blk_ite (by exact blk_n (by decide) (by decide) (by assumption)) (by exact blk_n (by decide) (by decide) (by assumption))))
    | (intro sx; refine (have hsx : Kept kb kl bl ko sx := ?_; ?_); on_goal 2 => (try clear_value sx))
    | intro sx
    | lift_lets
    | apply kept_st_inc
    | apply kept_tasteMiss
    | apply kept_wakeLatch
    | apply kept_st_wr
    | apply kept_ite
    | split
    | dsimp only [sx]
    | refine Kept.of_mk ?_

theorem kept_tasteTimeout {stamp : Nat} {s : State} (h_s : Kept kb kl bl ko s) (h_p_regs : Part.regs ∈ kl := by assumption) (h_p_pwr : Part.pwr ∈ kl := by assumption) (h_b_PWR : blkPWR ∈ bl := by assumption) :
    Kept kb kl bl ko (tasteTimeout stamp s) := by
  unfold tasteTimeout
  with_reducible repeat' first
    | assumption
    | apply kept_tasteMiss
    | apply kept_ite
    | refine Kept.of_mk ?_
    | split

theorem kept_sleepRxUp {k : Nat} {s : State} (h_s : Kept kb kl bl ko s) (h_p_regs : Part.regs ∈ kl := by assumption) (h_p_free : Part.free ∈ kl := by assumption) (h_p_pwr : Part.pwr ∈ kl := by assumption) (h_p_lph : Part.lph ∈ kl := by assumption) (h_b_LPH : blkLPH ∈ bl := by assumption) :
    Kept kb kl bl ko (sleepRxUp k s) := by
  unfold sleepRxUp
  with_reducible repeat' first
    | assumption
    | (intro sx; refine (have hsx : Kept kb kl bl ko sx := ?_; ?_); on_goal 2 => (try clear_value sx))
    | intro sx
    | lift_lets
    | apply kept_rxUp
    | apply kept_ite
    | refine Kept.of_mk ?_
    | split

theorem kept_modeGo {k : Nat} {s : State} (h_s : Kept kb kl bl ko s) (h_p_regs : Part.regs ∈ kl := by assumption) (h_p_free : Part.free ∈ kl := by assumption) (h_p_pwr : Part.pwr ∈ kl := by assumption) (h_p_lph : Part.lph ∈ kl := by assumption) (h_b_PWR : blkPWR ∈ bl := by assumption) (h_b_LPH : blkLPH ∈ bl := by assumption) :
    Kept kb kl bl ko (modeGo k s) := by
  unfold modeGo
  with_reducible repeat' first
    | assumption
    | (refine mem_guard ?_; with_unfolding_all (first | assumption | exact (by assumption : ∀ n, n ∈ bl) _ | exact blk_n (by decide) (by decide) (by assumption) | exact blk_un (by decide) (by decide) (by decide) (by assumption) | exact blk_ite (by assumption) (by assumption) | exact blk_ite (by exact blk_n (by decide) (by decide) (by assumption)) (by exact blk_n (by decide) (by decide) (by assumption))))
    | (intro sx; refine (have hsx : Kept kb kl bl ko sx := ?_; ?_); on_goal 2 => (try clear_value sx))
    | (intro sx; try clear_value sx)
    | lift_lets
    | apply kept_st_put
    | apply kept_sleepRxUp
    | apply kept_st_setLineSched
    | apply kept_ite
    | refine Kept.of_mk ?_
    | split

theorem kept_wakePair {k : Nat} {s : State} (h_s : Kept kb kl bl ko s) (h_p_regs : Part.regs ∈ kl := by assumption) (h_p_free : Part.free ∈ kl := by assumption) (h_p_cfg : Part.cfg ∈ kl := by assumption) (h_p_pwr : Part.pwr ∈ kl := by assumption) (h_p_cel : Part.cel ∈ kl := by assumption) (h_p_sch : Part.sch ∈ kl := by assumption) (h_p_kln : Part.kln ∈ kl := by assumption) (h_p_act : Part.act ∈ kl := by assumption) (h_p_ube : Part.ube ∈ kl := by assumption) (h_p_chp : Part.chp ∈ kl := by assumption) (h_p_dsf : Part.dsf ∈ kl := by assumption) (h_p_ohs : Part.ohs ∈ kl := by assumption) (h_p_pipes : Part.pipes ∈ kl := by assumption) (h_p_spc : Part.spc ∈ kl := by assumption) (h_p_lph : Part.lph ∈ kl := by assumption) (h_p_tim : Part.tim ∈ kl := by assumption) (h_b_CFG : blkCFG ∈ bl := by assumption) (h_b_PWR : blkPWR ∈ bl := by assumption) (h_b_LPH : blkLPH ∈ bl := by assumption) (h_b_DSF : blkDSF ∈ bl := by assumption) (h_b_ACT : blkACT ∈ bl := by assumption) (h_b_UBE : blkUBE ∈ bl := by assumption) (h_b_CHP : blkCHP ∈ bl := by assumption) (h_b_SPC : blkSPC ∈ bl := by assumption) (h_b_CEL : blkCEL ∈ bl := by assumption) (h_b_KLN : blkKLN ∈ bl := by assumption) (h_b_TIM : blkTIM ∈ bl := by assumption) :
    Kept kb kl bl ko (wakePair k s) := by
  unfold wakePair
  with_reducible repeat' first
    | assumption
    | (refine mem_guard ?_; with_unfolding_all (first | assumption | exact (by assumption : ∀ n, n ∈ bl) _ | exact blk_n (by decide) (by decide) (by assumption) | exact blk_un (by decide) (by decide) (by decide) (by assumption) | exact blk_ite (by assumption) (by assumption) | exact blk_ite (by exact blk_n (by decide) (by decide) (by assumption)) (by exact blk_n (by decide) (by decide) (by assumption))))
    | (intro sx; refine (have hsx : Kept kb kl bl ko sx := ?_; ?_); on_goal 2 => (try clear_value sx))
    | (intro sx; try clear_value sx)
    | lift_lets
    | apply kept_st_put
    | apply kept_sleepRxUp
    | apply kept_st_setSleepOf
    | apply kept_actLof
    | apply kept_ite
    | refine Kept.of_mk ?_
    | split

theorem kept_modeApply {k : Nat} {s : State} (h_s : Kept kb kl bl ko s) (h_p_regs : Part.regs ∈ kl := by assumption) (h_p_shadow : Part.shadow ∈ kl := by assumption) (h_p_free : Part.free ∈ kl := by assumption) (h_p_cfg : Part.cfg ∈ kl := by assumption) (h_p_pwr : Part.pwr ∈ kl := by assumption) (h_p_cel : Part.cel ∈ kl := by assumption) (h_p_sch : Part.sch ∈ kl := by assumption) (h_p_gcl : Part.gcl ∈ kl := by assumption) (h_p_kln : Part.kln ∈ kl := by assumption) (h_p_act : Part.act ∈ kl := by assumption) (h_p_ube : Part.ube ∈ kl := by assumption) (h_p_chp : Part.chp ∈ kl := by assumption) (h_p_dsf : Part.dsf ∈ kl := by assumption) (h_p_ohs : Part.ohs ∈ kl := by assumption) (h_p_pipes : Part.pipes ∈ kl := by assumption) (h_p_cls : Part.cls ∈ kl := by assumption) (h_p_spc : Part.spc ∈ kl := by assumption) (h_p_lph : Part.lph ∈ kl := by assumption) (h_p_tim : Part.tim ∈ kl := by assumption) (h_b_CFG : blkCFG ∈ bl := by assumption) (h_b_PWR : blkPWR ∈ bl := by assumption) (h_b_LPH : blkLPH ∈ bl := by assumption) (h_b_DSF : blkDSF ∈ bl := by assumption) (h_b_ACT : blkACT ∈ bl := by assumption) (h_b_UBE : blkUBE ∈ bl := by assumption) (h_b_CHP : blkCHP ∈ bl := by assumption) (h_b_CLS : blkCLS ∈ bl := by assumption) (h_b_SPC : blkSPC ∈ bl := by assumption) (h_b_CEL : blkCEL ∈ bl := by assumption) (h_b_GCL : blkGCL ∈ bl := by assumption) (h_b_KLN : blkKLN ∈ bl := by assumption) (h_b_TIM : blkTIM ∈ bl := by assumption) : Kept kb kl bl ko (modeApply k s) := by
  unfold modeApply
  split
  · exact h_s
  · rename_i m _
    have h1 : Kept kb kl bl ko ((s.setLineSched k none).setLineDoze k {}) := kept_st_setLineDoze (kept_st_setLineSched h_s)
    have h3 : Kept kb kl bl ko (showDoze ((((s.setLineSched k none).setLineDoze k {}).put (PWR_CP_PM_ASLEEP k) true).setSleepOf k
      (some (m.fc, m.dur)))) := kept_showDoze (kept_st_setSleepOf (kept_st_put h1))
    have h5 : Kept kb kl bl ko (wakePair k ((s.setLineSched k none).setLineDoze k {})) := kept_wakePair h1
    with_reducible
      refine kept_ite h_s (kept_ite (kept_ite ?_ h3) (kept_showDoze (kept_ite (kept_st_setLineDoze h5) h5)))
    with_reducible
      exact kept_ite (kept_rxDown (Kept.of_mk h3)) (Kept.of_mk h3)

theorem kept_dozeDone {k : Nat} {s : State} (h_s : Kept kb kl bl ko s) (h_p_regs : Part.regs ∈ kl := by assumption) (h_p_pwr : Part.pwr ∈ kl := by assumption) (h_b_PWR : blkPWR ∈ bl := by assumption) :
    Kept kb kl bl ko (dozeDone k s) := by
  unfold dozeDone
  with_reducible repeat' first
    | assumption
    | apply kept_showDoze
    | apply kept_st_setLineDoze
    | apply kept_ite
    | split
    | refine Kept.of_mk ?_

theorem kept_sleepEarly {k : Nat} {s : State} (h_s : Kept kb kl bl ko s) (h_p_regs : Part.regs ∈ kl := by assumption) (h_p_free : Part.free ∈ kl := by assumption) (h_p_pwr : Part.pwr ∈ kl := by assumption) (h_p_lph : Part.lph ∈ kl := by assumption) (h_b_LPH : blkLPH ∈ bl := by assumption) :
    Kept kb kl bl ko (sleepEarly k s) := by
  unfold sleepEarly
  with_reducible repeat' first
    | assumption
    | apply kept_sleepRxUp
    | apply kept_ite
    | split
    | refine Kept.of_mk ?_

theorem kept_sleepDone {k : Nat} {s : State} (h_s : Kept kb kl bl ko s) (h_p_regs : Part.regs ∈ kl := by assumption) (h_p_free : Part.free ∈ kl := by assumption) (h_p_cfg : Part.cfg ∈ kl := by assumption) (h_p_pwr : Part.pwr ∈ kl := by assumption) (h_p_cel : Part.cel ∈ kl := by assumption) (h_p_sch : Part.sch ∈ kl := by assumption) (h_p_kln : Part.kln ∈ kl := by assumption) (h_p_act : Part.act ∈ kl := by assumption) (h_p_ube : Part.ube ∈ kl := by assumption) (h_p_chp : Part.chp ∈ kl := by assumption) (h_p_dsf : Part.dsf ∈ kl := by assumption) (h_p_ohs : Part.ohs ∈ kl := by assumption) (h_p_pipes : Part.pipes ∈ kl := by assumption) (h_p_spc : Part.spc ∈ kl := by assumption) (h_p_lph : Part.lph ∈ kl := by assumption) (h_p_tim : Part.tim ∈ kl := by assumption) (h_b_CFG : blkCFG ∈ bl := by assumption) (h_b_PWR : blkPWR ∈ bl := by assumption) (h_b_LPH : blkLPH ∈ bl := by assumption) (h_b_DSF : blkDSF ∈ bl := by assumption) (h_b_ACT : blkACT ∈ bl := by assumption) (h_b_UBE : blkUBE ∈ bl := by assumption) (h_b_CHP : blkCHP ∈ bl := by assumption) (h_b_SPC : blkSPC ∈ bl := by assumption) (h_b_CEL : blkCEL ∈ bl := by assumption) (h_b_KLN : blkKLN ∈ bl := by assumption) (h_b_TIM : blkTIM ∈ bl := by assumption) :
    Kept kb kl bl ko (sleepDone k s) := by
  unfold sleepDone
  with_reducible repeat' first
    | assumption
    | apply kept_wakePair
    | apply kept_ite
    | split
    | refine Kept.of_mk ?_

theorem kept_pwrWrite {a : Nat} {v : Word} {s : State} (h_s : Kept kb kl bl ko s) (h_p_regs : Part.regs ∈ kl := by assumption) (h_p_shadow : Part.shadow ∈ kl := by assumption) (h_p_free : Part.free ∈ kl := by assumption) (h_p_cfg : Part.cfg ∈ kl := by assumption) (h_p_flt : Part.flt ∈ kl := by assumption) (h_p_pwr : Part.pwr ∈ kl := by assumption) (h_p_cel : Part.cel ∈ kl := by assumption) (h_p_sch : Part.sch ∈ kl := by assumption) (h_p_gcl : Part.gcl ∈ kl := by assumption) (h_p_kln : Part.kln ∈ kl := by assumption) (h_p_act : Part.act ∈ kl := by assumption) (h_p_ube : Part.ube ∈ kl := by assumption) (h_p_chp : Part.chp ∈ kl := by assumption) (h_p_dsf : Part.dsf ∈ kl := by assumption) (h_p_ohs : Part.ohs ∈ kl := by assumption) (h_p_pipes : Part.pipes ∈ kl := by assumption) (h_p_cls : Part.cls ∈ kl := by assumption) (h_p_spc : Part.spc ∈ kl := by assumption) (h_p_mac : Part.mac ∈ kl := by assumption) (h_p_lph : Part.lph ∈ kl := by assumption) (h_p_tim : Part.tim ∈ kl := by assumption) (h_p_cas : Part.cas ∈ kl := by assumption) (h_b_CFG : blkCFG ∈ bl := by assumption) (h_b_PWR : blkPWR ∈ bl := by assumption) (h_b_FLT : blkFLT ∈ bl := by assumption) (h_b_LPH : blkLPH ∈ bl := by assumption) (h_b_DSF : blkDSF ∈ bl := by assumption) (h_b_ACT : blkACT ∈ bl := by assumption) (h_b_UBE : blkUBE ∈ bl := by assumption) (h_b_CHP : blkCHP ∈ bl := by assumption) (h_b_CLS : blkCLS ∈ bl := by assumption) (h_b_SPC : blkSPC ∈ bl := by assumption) (h_b_CEL : blkCEL ∈ bl := by assumption) (h_b_GCL : blkGCL ∈ bl := by assumption) (h_b_KLN : blkKLN ∈ bl := by assumption) (h_b_MAC : blkMAC ∈ bl := by assumption) (h_b_TIM : blkTIM ∈ bl := by assumption) (h_b_CAS : blkCAS ∈ bl := by assumption) :
    Kept kb kl bl ko (pwrWrite a v s) := by
  unfold pwrWrite
  with_reducible repeat' first
    | assumption
    | (refine mem_guard ?_; with_unfolding_all (first | assumption | exact (by assumption : ∀ n, n ∈ bl) _ | exact blk_n (by decide) (by decide) (by assumption) | exact blk_un (by decide) (by decide) (by decide) (by assumption) | exact blk_ite (by assumption) (by assumption) | exact blk_ite (by exact blk_n (by decide) (by decide) (by assumption)) (by exact blk_n (by decide) (by decide) (by assumption))))
    | (intro sx; refine (have hsx : Kept kb kl bl ko sx := ?_; ?_); on_goal 2 => (try clear_value sx))
    | intro sx
    | lift_lets
    | apply kept_request
    | apply kept_showWakeLog
    | apply kept_modeGo
    | apply kept_st_put
    | apply kept_ite
    | split
    | dsimp only [sx]
    | refine Kept.of_mk ?_

theorem kept_coreWrite {v : Word} {o : State} {s : State} (h_o : Kept kb kl bl ko o) (h_s : Kept kb kl bl ko s) (h_p_regs : Part.regs ∈ kl := by assumption) (h_b_CLK : blkCLK ∈ bl := by assumption) :
    Kept kb kl bl ko (coreWrite v o s) := by
  unfold coreWrite
  with_reducible repeat' first
    | assumption
    | (refine mem_guard ?_; with_unfolding_all (first | assumption | exact (by assumption : ∀ n, n ∈ bl) _ | exact blk_n (by decide) (by decide) (by assumption) | exact blk_un (by decide) (by decide) (by decide) (by assumption) | exact blk_ite (by assumption) (by assumption) | exact blk_ite (by exact blk_n (by decide) (by decide) (by assumption)) (by exact blk_n (by decide) (by decide) (by assumption))))
    | (intro sx; refine (have hsx : Kept kb kl bl ko sx := ?_; ?_); on_goal 2 => (try clear_value sx))
    | (intro sx; try clear_value sx)
    | lift_lets
    | apply kept_st_put
    | apply kept_ite
    | refine Kept.of_mk ?_
    | split

theorem kept_cpllLocks {s : State} (h_s : Kept kb kl bl ko s) (h_p_regs : Part.regs ∈ kl := by assumption) (h_b_CLK : blkCLK ∈ bl := by assumption) :
    Kept kb kl bl ko (cpllLocks s) := by
  unfold cpllLocks
  with_reducible repeat' first
    | assumption
    | (refine mem_guard ?_; with_unfolding_all (first | assumption | exact (by assumption : ∀ n, n ∈ bl) _ | exact blk_n (by decide) (by decide) (by assumption) | exact blk_un (by decide) (by decide) (by decide) (by assumption) | exact blk_ite (by assumption) (by assumption) | exact blk_ite (by exact blk_n (by decide) (by decide) (by assumption)) (by exact blk_n (by decide) (by decide) (by assumption))))
    | apply kept_st_put
    | apply kept_ite
    | refine Kept.of_mk ?_
    | split

theorem kept_cpllLost {s : State} (h_s : Kept kb kl bl ko s) (h_p_regs : Part.regs ∈ kl := by assumption) (h_p_shadow : Part.shadow ∈ kl := by assumption) (h_p_mem : Part.mem ∈ kl := by assumption) (h_p_ecc : Part.ecc ∈ kl := by assumption) (h_p_free : Part.free ∈ kl := by assumption) (h_p_cfg : Part.cfg ∈ kl := by assumption) (h_p_flt : Part.flt ∈ kl := by assumption) (h_p_tsk : Part.tsk ∈ kl := by assumption) (h_p_harts : Part.harts ∈ kl := by assumption) (h_p_pwr : Part.pwr ∈ kl := by assumption) (h_p_cel : Part.cel ∈ kl := by assumption) (h_p_sch : Part.sch ∈ kl := by assumption) (h_p_gcl : Part.gcl ∈ kl := by assumption) (h_p_kln : Part.kln ∈ kl := by assumption) (h_p_act : Part.act ∈ kl := by assumption) (h_p_ube : Part.ube ∈ kl := by assumption) (h_p_chp : Part.chp ∈ kl := by assumption) (h_p_dsf : Part.dsf ∈ kl := by assumption) (h_p_ohs : Part.ohs ∈ kl := by assumption) (h_p_pipes : Part.pipes ∈ kl := by assumption) (h_p_cls : Part.cls ∈ kl := by assumption) (h_p_spc : Part.spc ∈ kl := by assumption) (h_p_mac : Part.mac ∈ kl := by assumption) (h_p_lph : Part.lph ∈ kl := by assumption) (h_p_tim : Part.tim ∈ kl := by assumption) (h_p_cas : Part.cas ∈ kl := by assumption) (h_b_CFG : blkCFG ∈ bl := by assumption) (h_b_CLK : blkCLK ∈ bl := by assumption) (h_b_PWR : blkPWR ∈ bl := by assumption) (h_b_FLT : blkFLT ∈ bl := by assumption) (h_b_TSK : blkTSK ∈ bl := by assumption) (h_b_LPH : blkLPH ∈ bl := by assumption) (h_b_DSF : blkDSF ∈ bl := by assumption) (h_b_ACT : blkACT ∈ bl := by assumption) (h_b_UBE : blkUBE ∈ bl := by assumption) (h_b_CHP : blkCHP ∈ bl := by assumption) (h_b_CLS : blkCLS ∈ bl := by assumption) (h_b_SPC : blkSPC ∈ bl := by assumption) (h_b_CEL : blkCEL ∈ bl := by assumption) (h_b_GCL : blkGCL ∈ bl := by assumption) (h_b_KLN : blkKLN ∈ bl := by assumption) (h_b_MAC : blkMAC ∈ bl := by assumption) (h_b_TIM : blkTIM ∈ bl := by assumption) (h_b_CAS : blkCAS ∈ bl := by assumption) :
    Kept kb kl bl ko (cpllLost s) := by
  unfold cpllLost
  with_reducible repeat' first
    | assumption
    | (refine mem_guard ?_; with_unfolding_all (first | assumption | exact (by assumption : ∀ n, n ∈ bl) _ | exact blk_n (by decide) (by decide) (by assumption) | exact blk_un (by decide) (by decide) (by decide) (by assumption) | exact blk_ite (by assumption) (by assumption) | exact blk_ite (by exact blk_n (by decide) (by decide) (by assumption)) (by exact blk_n (by decide) (by decide) (by assumption))))
    | (intro sx; refine (have hsx : Kept kb kl bl ko sx := ?_; ?_); on_goal 2 => (try clear_value sx))
    | (intro sx; try clear_value sx)
    | lift_lets
    | apply kept_fltReport
    | apply kept_st_put
    | apply kept_ite
    | refine Kept.of_mk ?_
    | split

theorem kept_spllLost {iosc : Bool} {s : State} (h_s : Kept kb kl bl ko s) (h_p_regs : Part.regs ∈ kl := by assumption) (h_p_shadow : Part.shadow ∈ kl := by assumption) (h_p_mem : Part.mem ∈ kl := by assumption) (h_p_ecc : Part.ecc ∈ kl := by assumption) (h_p_free : Part.free ∈ kl := by assumption) (h_p_cfg : Part.cfg ∈ kl := by assumption) (h_p_flt : Part.flt ∈ kl := by assumption) (h_p_tsk : Part.tsk ∈ kl := by assumption) (h_p_harts : Part.harts ∈ kl := by assumption) (h_p_pwr : Part.pwr ∈ kl := by assumption) (h_p_cel : Part.cel ∈ kl := by assumption) (h_p_sch : Part.sch ∈ kl := by assumption) (h_p_gcl : Part.gcl ∈ kl := by assumption) (h_p_kln : Part.kln ∈ kl := by assumption) (h_p_act : Part.act ∈ kl := by assumption) (h_p_ube : Part.ube ∈ kl := by assumption) (h_p_chp : Part.chp ∈ kl := by assumption) (h_p_dsf : Part.dsf ∈ kl := by assumption) (h_p_ohs : Part.ohs ∈ kl := by assumption) (h_p_pipes : Part.pipes ∈ kl := by assumption) (h_p_cls : Part.cls ∈ kl := by assumption) (h_p_spc : Part.spc ∈ kl := by assumption) (h_p_mac : Part.mac ∈ kl := by assumption) (h_p_lph : Part.lph ∈ kl := by assumption) (h_p_tim : Part.tim ∈ kl := by assumption) (h_p_cas : Part.cas ∈ kl := by assumption) (h_b_CFG : blkCFG ∈ bl := by assumption) (h_b_CLK : blkCLK ∈ bl := by assumption) (h_b_PWR : blkPWR ∈ bl := by assumption) (h_b_FLT : blkFLT ∈ bl := by assumption) (h_b_TSK : blkTSK ∈ bl := by assumption) (h_b_LPH : blkLPH ∈ bl := by assumption) (h_b_DSF : blkDSF ∈ bl := by assumption) (h_b_ACT : blkACT ∈ bl := by assumption) (h_b_UBE : blkUBE ∈ bl := by assumption) (h_b_CHP : blkCHP ∈ bl := by assumption) (h_b_CLS : blkCLS ∈ bl := by assumption) (h_b_SPC : blkSPC ∈ bl := by assumption) (h_b_CEL : blkCEL ∈ bl := by assumption) (h_b_GCL : blkGCL ∈ bl := by assumption) (h_b_KLN : blkKLN ∈ bl := by assumption) (h_b_MAC : blkMAC ∈ bl := by assumption) (h_b_TIM : blkTIM ∈ bl := by assumption) (h_b_CAS : blkCAS ∈ bl := by assumption) :
    Kept kb kl bl ko (spllLost iosc s) := by
  unfold spllLost
  with_reducible repeat' first
    | assumption
    | (refine mem_guard ?_; with_unfolding_all (first | assumption | exact (by assumption : ∀ n, n ∈ bl) _ | exact blk_n (by decide) (by decide) (by assumption) | exact blk_un (by decide) (by decide) (by decide) (by assumption) | exact blk_ite (by assumption) (by assumption) | exact blk_ite (by exact blk_n (by decide) (by decide) (by assumption)) (by exact blk_n (by decide) (by decide) (by assumption))))
    | (intro sx; refine (have hsx : Kept kb kl bl ko sx := ?_; ?_); on_goal 2 => (try clear_value sx))
    | (intro sx; try clear_value sx)
    | lift_lets
    | apply kept_fltReport
    | apply kept_st_put
    | apply kept_ite
    | refine Kept.of_mk ?_
    | split

theorem kept_xtalGone {s : State} (h_s : Kept kb kl bl ko s) (h_p_regs : Part.regs ∈ kl := by assumption) (h_p_shadow : Part.shadow ∈ kl := by assumption) (h_p_mem : Part.mem ∈ kl := by assumption) (h_p_ecc : Part.ecc ∈ kl := by assumption) (h_p_free : Part.free ∈ kl := by assumption) (h_p_cfg : Part.cfg ∈ kl := by assumption) (h_p_flt : Part.flt ∈ kl := by assumption) (h_p_tsk : Part.tsk ∈ kl := by assumption) (h_p_harts : Part.harts ∈ kl := by assumption) (h_p_pwr : Part.pwr ∈ kl := by assumption) (h_p_cel : Part.cel ∈ kl := by assumption) (h_p_sch : Part.sch ∈ kl := by assumption) (h_p_gcl : Part.gcl ∈ kl := by assumption) (h_p_kln : Part.kln ∈ kl := by assumption) (h_p_act : Part.act ∈ kl := by assumption) (h_p_ube : Part.ube ∈ kl := by assumption) (h_p_chp : Part.chp ∈ kl := by assumption) (h_p_dsf : Part.dsf ∈ kl := by assumption) (h_p_ohs : Part.ohs ∈ kl := by assumption) (h_p_pipes : Part.pipes ∈ kl := by assumption) (h_p_cls : Part.cls ∈ kl := by assumption) (h_p_spc : Part.spc ∈ kl := by assumption) (h_p_mac : Part.mac ∈ kl := by assumption) (h_p_lph : Part.lph ∈ kl := by assumption) (h_p_tim : Part.tim ∈ kl := by assumption) (h_p_cas : Part.cas ∈ kl := by assumption) (h_p_clk : Part.clk ∈ kl := by assumption) (h_b_CFG : blkCFG ∈ bl := by assumption) (h_b_CLK : blkCLK ∈ bl := by assumption) (h_b_PWR : blkPWR ∈ bl := by assumption) (h_b_FLT : blkFLT ∈ bl := by assumption) (h_b_TSK : blkTSK ∈ bl := by assumption) (h_b_LPH : blkLPH ∈ bl := by assumption) (h_b_DSF : blkDSF ∈ bl := by assumption) (h_b_ACT : blkACT ∈ bl := by assumption) (h_b_UBE : blkUBE ∈ bl := by assumption) (h_b_CHP : blkCHP ∈ bl := by assumption) (h_b_CLS : blkCLS ∈ bl := by assumption) (h_b_SPC : blkSPC ∈ bl := by assumption) (h_b_CEL : blkCEL ∈ bl := by assumption) (h_b_GCL : blkGCL ∈ bl := by assumption) (h_b_KLN : blkKLN ∈ bl := by assumption) (h_b_MAC : blkMAC ∈ bl := by assumption) (h_b_TIM : blkTIM ∈ bl := by assumption) (h_b_CAS : blkCAS ∈ bl := by assumption) :
    Kept kb kl bl ko (xtalGone s) := by
  unfold xtalGone
  with_reducible repeat' first
    | assumption
    | (refine mem_guard ?_; with_unfolding_all (first | assumption | exact (by assumption : ∀ n, n ∈ bl) _ | exact blk_n (by decide) (by decide) (by assumption) | exact blk_un (by decide) (by decide) (by decide) (by assumption) | exact blk_ite (by assumption) (by assumption) | exact blk_ite (by exact blk_n (by decide) (by decide) (by assumption)) (by exact blk_n (by decide) (by decide) (by assumption))))
    | (intro sx; refine (have hsx : Kept kb kl bl ko sx := ?_; ?_); on_goal 2 => (try clear_value sx))
    | (intro sx; try clear_value sx)
    | lift_lets
    | apply kept_fltReport
    | apply kept_st_put
    | apply kept_ite
    | refine Kept.of_mk ?_
    | split

theorem kept_xtalFails {s : State} (h_s : Kept kb kl bl ko s) (h_p_regs : Part.regs ∈ kl := by assumption) (h_p_shadow : Part.shadow ∈ kl := by assumption) (h_p_mem : Part.mem ∈ kl := by assumption) (h_p_ecc : Part.ecc ∈ kl := by assumption) (h_p_free : Part.free ∈ kl := by assumption) (h_p_cfg : Part.cfg ∈ kl := by assumption) (h_p_flt : Part.flt ∈ kl := by assumption) (h_p_tsk : Part.tsk ∈ kl := by assumption) (h_p_harts : Part.harts ∈ kl := by assumption) (h_p_pwr : Part.pwr ∈ kl := by assumption) (h_p_cel : Part.cel ∈ kl := by assumption) (h_p_sch : Part.sch ∈ kl := by assumption) (h_p_gcl : Part.gcl ∈ kl := by assumption) (h_p_kln : Part.kln ∈ kl := by assumption) (h_p_act : Part.act ∈ kl := by assumption) (h_p_ube : Part.ube ∈ kl := by assumption) (h_p_chp : Part.chp ∈ kl := by assumption) (h_p_dsf : Part.dsf ∈ kl := by assumption) (h_p_ohs : Part.ohs ∈ kl := by assumption) (h_p_pipes : Part.pipes ∈ kl := by assumption) (h_p_cls : Part.cls ∈ kl := by assumption) (h_p_spc : Part.spc ∈ kl := by assumption) (h_p_mac : Part.mac ∈ kl := by assumption) (h_p_lph : Part.lph ∈ kl := by assumption) (h_p_tim : Part.tim ∈ kl := by assumption) (h_p_cas : Part.cas ∈ kl := by assumption) (h_p_clk : Part.clk ∈ kl := by assumption) (h_b_CFG : blkCFG ∈ bl := by assumption) (h_b_CLK : blkCLK ∈ bl := by assumption) (h_b_PWR : blkPWR ∈ bl := by assumption) (h_b_FLT : blkFLT ∈ bl := by assumption) (h_b_TSK : blkTSK ∈ bl := by assumption) (h_b_LPH : blkLPH ∈ bl := by assumption) (h_b_DSF : blkDSF ∈ bl := by assumption) (h_b_ACT : blkACT ∈ bl := by assumption) (h_b_UBE : blkUBE ∈ bl := by assumption) (h_b_CHP : blkCHP ∈ bl := by assumption) (h_b_CLS : blkCLS ∈ bl := by assumption) (h_b_SPC : blkSPC ∈ bl := by assumption) (h_b_CEL : blkCEL ∈ bl := by assumption) (h_b_GCL : blkGCL ∈ bl := by assumption) (h_b_KLN : blkKLN ∈ bl := by assumption) (h_b_MAC : blkMAC ∈ bl := by assumption) (h_b_TIM : blkTIM ∈ bl := by assumption) (h_b_CAS : blkCAS ∈ bl := by assumption) :
    Kept kb kl bl ko (xtalFails s) := by
  unfold xtalFails
  with_reducible repeat' first
    | assumption
    | apply kept_xtalGone
    | apply kept_ite
    | refine Kept.of_mk ?_
    | split

theorem kept_xtalAdopt {s : State} (h_s : Kept kb kl bl ko s) (h_p_regs : Part.regs ∈ kl := by assumption) (h_b_CLK : blkCLK ∈ bl := by assumption) :
    Kept kb kl bl ko (xtalAdopt s) := by
  unfold xtalAdopt
  with_reducible repeat' first
    | assumption
    | (refine mem_guard ?_; with_unfolding_all (first | assumption | exact (by assumption : ∀ n, n ∈ bl) _ | exact blk_n (by decide) (by decide) (by assumption) | exact blk_un (by decide) (by decide) (by decide) (by assumption) | exact blk_ite (by assumption) (by assumption) | exact blk_ite (by exact blk_n (by decide) (by decide) (by assumption)) (by exact blk_n (by decide) (by decide) (by assumption))))
    | apply kept_st_put
    | apply kept_ite
    | refine Kept.of_mk ?_
    | split

theorem kept_xtalLate {s : State} (h_s : Kept kb kl bl ko s) (h_p_regs : Part.regs ∈ kl := by assumption) (h_p_shadow : Part.shadow ∈ kl := by assumption) (h_p_mem : Part.mem ∈ kl := by assumption) (h_p_ecc : Part.ecc ∈ kl := by assumption) (h_p_free : Part.free ∈ kl := by assumption) (h_p_cfg : Part.cfg ∈ kl := by assumption) (h_p_flt : Part.flt ∈ kl := by assumption) (h_p_tsk : Part.tsk ∈ kl := by assumption) (h_p_harts : Part.harts ∈ kl := by assumption) (h_p_pwr : Part.pwr ∈ kl := by assumption) (h_p_cel : Part.cel ∈ kl := by assumption) (h_p_sch : Part.sch ∈ kl := by assumption) (h_p_gcl : Part.gcl ∈ kl := by assumption) (h_p_kln : Part.kln ∈ kl := by assumption) (h_p_act : Part.act ∈ kl := by assumption) (h_p_ube : Part.ube ∈ kl := by assumption) (h_p_chp : Part.chp ∈ kl := by assumption) (h_p_dsf : Part.dsf ∈ kl := by assumption) (h_p_ohs : Part.ohs ∈ kl := by assumption) (h_p_pipes : Part.pipes ∈ kl := by assumption) (h_p_cls : Part.cls ∈ kl := by assumption) (h_p_spc : Part.spc ∈ kl := by assumption) (h_p_mac : Part.mac ∈ kl := by assumption) (h_p_lph : Part.lph ∈ kl := by assumption) (h_p_tim : Part.tim ∈ kl := by assumption) (h_p_cas : Part.cas ∈ kl := by assumption) (h_p_clk : Part.clk ∈ kl := by assumption) (h_b_CFG : blkCFG ∈ bl := by assumption) (h_b_CLK : blkCLK ∈ bl := by assumption) (h_b_PWR : blkPWR ∈ bl := by assumption) (h_b_FLT : blkFLT ∈ bl := by assumption) (h_b_TSK : blkTSK ∈ bl := by assumption) (h_b_LPH : blkLPH ∈ bl := by assumption) (h_b_DSF : blkDSF ∈ bl := by assumption) (h_b_ACT : blkACT ∈ bl := by assumption) (h_b_UBE : blkUBE ∈ bl := by assumption) (h_b_CHP : blkCHP ∈ bl := by assumption) (h_b_CLS : blkCLS ∈ bl := by assumption) (h_b_SPC : blkSPC ∈ bl := by assumption) (h_b_CEL : blkCEL ∈ bl := by assumption) (h_b_GCL : blkGCL ∈ bl := by assumption) (h_b_KLN : blkKLN ∈ bl := by assumption) (h_b_MAC : blkMAC ∈ bl := by assumption) (h_b_TIM : blkTIM ∈ bl := by assumption) (h_b_CAS : blkCAS ∈ bl := by assumption) :
    Kept kb kl bl ko (xtalLate s) := by
  unfold xtalLate
  with_reducible repeat' first
    | assumption
    | apply kept_xtalGone
    | apply kept_ite
    | refine Kept.of_mk ?_
    | split

theorem kept_srefLost {n : Nat} {s : State} (h_s : Kept kb kl bl ko s) (h_p_regs : Part.regs ∈ kl := by assumption) (h_b_CLK : blkCLK ∈ bl := by assumption) :
    Kept kb kl bl ko (srefLost n s) := by
  unfold srefLost
  with_reducible repeat' first
    | assumption
    | (refine mem_guard ?_; with_unfolding_all (first | assumption | exact (by assumption : ∀ n, n ∈ bl) _ | exact blk_n (by decide) (by decide) (by assumption) | exact blk_un (by decide) (by decide) (by decide) (by assumption) | exact blk_ite (by assumption) (by assumption) | exact blk_ite (by exact blk_n (by decide) (by decide) (by assumption)) (by exact blk_n (by decide) (by decide) (by assumption)) | exact (blk_srefBits (by assumption)).1 | exact (blk_srefBits (by assumption)).2))
    | (intro sx; refine (have hsx : Kept kb kl bl ko sx := ?_; ?_); on_goal 2 => (try clear_value sx))
    | intro sx
    | lift_lets
    | apply kept_st_put
    | apply kept_ite
    | refine Kept.of_mk ?_
    | split

theorem kept_srefBack {n : Nat} {s : State} (h_s : Kept kb kl bl ko s) (h_p_regs : Part.regs ∈ kl := by assumption) (h_b_CLK : blkCLK ∈ bl := by assumption) :
    Kept kb kl bl ko (srefBack n s) := by
  unfold srefBack
  with_reducible repeat' first
    | assumption
    | (refine mem_guard ?_; with_unfolding_all (first | assumption | exact (by assumption : ∀ n, n ∈ bl) _ | exact blk_n (by decide) (by decide) (by assumption) | exact blk_un (by decide) (by decide) (by decide) (by assumption) | exact blk_ite (by assumption) (by assumption) | exact blk_ite (by exact blk_n (by decide) (by decide) (by assumption)) (by exact blk_n (by decide) (by decide) (by assumption)) | exact (blk_srefBits (by assumption)).1 | exact (blk_srefBits (by assumption)).2))
    | (intro sx; refine (have hsx : Kept kb kl bl ko sx := ?_; ?_); on_goal 2 => (try clear_value sx))
    | intro sx
    | lift_lets
    | apply kept_st_put
    | apply kept_ite
    | refine Kept.of_mk ?_
    | split

theorem kept_measGo {v : Word} {o : State} {s : State} (h_o : Kept kb kl bl ko o) (h_s : Kept kb kl bl ko s) (h_p_regs : Part.regs ∈ kl := by assumption) (h_b_CLK : blkCLK ∈ bl := by assumption) :
    Kept kb kl bl ko (measGo v o s) := by
  unfold measGo
  with_reducible repeat' first
    | assumption
    | (refine mem_guard ?_; with_unfolding_all (first | assumption | exact (by assumption : ∀ n, n ∈ bl) _ | exact blk_n (by decide) (by decide) (by assumption) | exact blk_un (by decide) (by decide) (by decide) (by assumption) | exact blk_ite (by assumption) (by assumption) | exact blk_ite (by exact blk_n (by decide) (by decide) (by assumption)) (by exact blk_n (by decide) (by decide) (by assumption))))
    | apply kept_st_put
    | apply kept_ite
    | refine Kept.of_mk ?_
    | split

theorem kept_measDone {count : Nat} {s : State} (h_s : Kept kb kl bl ko s) (h_p_regs : Part.regs ∈ kl := by assumption) (h_b_CLK : blkCLK ∈ bl := by assumption) :
    Kept kb kl bl ko (measDone count s) := by
  unfold measDone
  with_reducible repeat' first
    | assumption
    | (refine mem_guard ?_; with_unfolding_all (first | assumption | exact (by assumption : ∀ n, n ∈ bl) _ | exact blk_n (by decide) (by decide) (by assumption) | exact blk_un (by decide) (by decide) (by decide) (by assumption) | exact blk_ite (by assumption) (by assumption) | exact blk_ite (by exact blk_n (by decide) (by decide) (by assumption)) (by exact blk_n (by decide) (by decide) (by assumption))))
    | apply kept_st_put
    | apply kept_st_wr
    | apply kept_ite
    | refine Kept.of_mk ?_
    | split

theorem kept_clkWrite {a : Nat} {v : Word} {o : State} {s : State} (h_o : Kept kb kl bl ko o) (h_s : Kept kb kl bl ko s) (h_p_regs : Part.regs ∈ kl := by assumption) (h_b_CLK : blkCLK ∈ bl := by assumption) :
    Kept kb kl bl ko (clkWrite a v o s) := by
  unfold clkWrite
  with_reducible repeat' first
    | assumption
    | apply kept_coreWrite
    | apply kept_measGo
    | apply kept_ite
    | refine Kept.of_mk ?_
    | split

theorem kept_blkRunWrite {o : State} {s : State} (h_o : Kept kb kl bl ko o) (h_s : Kept kb kl bl ko s) (h_p_regs : Part.regs ∈ kl := by assumption) (h_p_mem : Part.mem ∈ kl := by assumption) (h_p_ecc : Part.ecc ∈ kl := by assumption) (h_p_cfg : Part.cfg ∈ kl := by assumption) (h_p_flt : Part.flt ∈ kl := by assumption) (h_p_tsk : Part.tsk ∈ kl := by assumption) (h_p_cel : Part.cel ∈ kl := by assumption) (h_p_sch : Part.sch ∈ kl := by assumption) (h_p_kln : Part.kln ∈ kl := by assumption) (h_p_act : Part.act ∈ kl := by assumption) (h_p_ube : Part.ube ∈ kl := by assumption) (h_p_chp : Part.chp ∈ kl := by assumption) (h_p_dsf : Part.dsf ∈ kl := by assumption) (h_p_ohs : Part.ohs ∈ kl := by assumption) (h_p_pipes : Part.pipes ∈ kl := by assumption) (h_p_spc : Part.spc ∈ kl := by assumption) (h_p_mac : Part.mac ∈ kl := by assumption) (h_p_tim : Part.tim ∈ kl := by assumption) (h_p_cas : Part.cas ∈ kl := by assumption) (h_b_CFG : blkCFG ∈ bl := by assumption) (h_b_FLT : blkFLT ∈ bl := by assumption) (h_b_TSK : blkTSK ∈ bl := by assumption) (h_b_LPH : blkLPH ∈ bl := by assumption) (h_b_DSF : blkDSF ∈ bl := by assumption) (h_b_ACT : blkACT ∈ bl := by assumption) (h_b_UBE : blkUBE ∈ bl := by assumption) (h_b_CHP : blkCHP ∈ bl := by assumption) (h_b_SPC : blkSPC ∈ bl := by assumption) (h_b_CEL : blkCEL ∈ bl := by assumption) (h_b_KLN : blkKLN ∈ bl := by assumption) (h_b_TIM : blkTIM ∈ bl := by assumption) (h_b_CAS : blkCAS ∈ bl := by assumption) :
    Kept kb kl bl ko (blkRunWrite o s) := by
  unfold blkRunWrite
  with_reducible repeat' first
    | assumption
    | (refine mem_guard ?_; with_unfolding_all (first | assumption | exact (by assumption : ∀ n, n ∈ bl) _ | exact blk_n (by decide) (by decide) (by assumption) | exact blk_un (by decide) (by decide) (by decide) (by assumption) | exact blk_ite (by assumption) (by assumption) | exact blk_ite (by exact blk_n (by decide) (by decide) (by assumption)) (by exact blk_n (by decide) (by decide) (by assumption))))
    | (intro sx; refine (have hsx : Kept kb kl bl ko sx := ?_; ?_); on_goal 2 => (try clear_value sx))
    | (intro sx; try clear_value sx)
    | lift_lets
    | apply kept_macSafe
    | apply kept_blockRestart
    | apply kept_setReg
    | apply kept_ite
    | (apply kept_foldl; intro sy xy hy)
    | (apply kept_foldl2; intro sy xy hy)
    | (apply kept_foldl1; intro sy xy hy)
    | refine Kept.of_mk ?_
    | split

theorem kept_cfgWrite {a : Nat} {v : Word} {o : State} {s : State} (h_o : Kept kb kl bl ko o) (h_s : Kept kb kl bl ko s) (h_full : ∀ p, p ≠ Part.pending → p ≠ Part.free → p ∈ kl := by assumption) (h_all : ∀ n, n ∈ bl := by assumption) :
    Kept kb kl bl ko (cfgWrite a v o s) := by
  unfold cfgWrite
  obtain ⟨h_p_regs, h_p_shadow, h_p_mem, h_p_ecc, h_p_readOut, h_p_ticks, h_p_tod, h_p_cfg, h_p_flt, h_p_tsk, h_p_harts, h_p_acu, h_p_pwr, h_p_cel, h_p_sch, h_p_gcl, h_p_kln, h_p_act, h_p_ube, h_p_chp, h_p_dsf, h_p_ohs, h_p_pipes, h_p_cls, h_p_flw, h_p_spc, h_p_mac, h_p_lph, h_p_tim, h_p_cas, h_p_clk, h_p_tap, h_p_boot, h_p_power⟩ := full_parts h_full
  have h_b_CFG : blkCFG ∈ bl := h_all _
  have h_b_CLK : blkCLK ∈ bl := h_all _
  have h_b_PWR : blkPWR ∈ bl := h_all _
  have h_b_FLT : blkFLT ∈ bl := h_all _
  have h_b_TSK : blkTSK ∈ bl := h_all _
  have h_b_ACU : blkACU ∈ bl := h_all _
  have h_b_LPH : blkLPH ∈ bl := h_all _
  have h_b_DSF : blkDSF ∈ bl := h_all _
  have h_b_ACT : blkACT ∈ bl := h_all _
  have h_b_UBE : blkUBE ∈ bl := h_all _
  have h_b_CHP : blkCHP ∈ bl := h_all _
  have h_b_PRS : blkPRS ∈ bl := h_all _
  have h_b_CLS : blkCLS ∈ bl := h_all _
  have h_b_FLW : blkFLW ∈ bl := h_all _
  have h_b_SPC : blkSPC ∈ bl := h_all _
  have h_b_CEL : blkCEL ∈ bl := h_all _
  have h_b_SCH : blkSCH ∈ bl := h_all _
  have h_b_GCL : blkGCL ∈ bl := h_all _
  have h_b_CIP : blkCIP ∈ bl := h_all _
  have h_b_KLN : blkKLN ∈ bl := h_all _
  have h_b_MAC : blkMAC ∈ bl := h_all _
  have h_b_TIM : blkTIM ∈ bl := h_all _
  have h_b_OHS : blkOHS ∈ bl := h_all _
  have h_b_CAS : blkCAS ∈ bl := h_all _
  with_reducible repeat' first
    | assumption
    | apply kept_deviceReset
    | apply kept_blkRunWrite
    | apply kept_spiGo
    | apply kept_commitGroup
    | apply kept_abortGroup
    | apply kept_ite
    | refine Kept.of_mk ?_
    | split

theorem kept_chpWrite {a : Nat} {v : Word} {s : State} (h_s : Kept kb kl bl ko s) (h_p_chp : Part.chp ∈ kl := by assumption) :
    Kept kb kl bl ko (chpWrite a v s) := by
  unfold chpWrite
  with_reducible repeat' first
    | assumption
    | (intro sx; refine (have hsx : Kept kb kl bl ko sx := ?_; ?_); on_goal 2 => (try clear_value sx))
    | (intro sx; try clear_value sx)
    | lift_lets
    | apply kept_st_setChpCh
    | apply kept_ite
    | refine Kept.of_mk ?_
    | split

theorem kept_storeSx {a : Nat} {r : RegRow} {v : Word} {s : State} (h_s : Kept kb kl bl ko s) (h_p_regs : Part.regs ∈ kl := by assumption) (h_all : ∀ n, n ∈ bl := by assumption) :
    Kept kb kl bl ko (storeSx a r v s) := by
  unfold storeSx
  have h_b_CFG : blkCFG ∈ bl := h_all _
  have h_b_CLK : blkCLK ∈ bl := h_all _
  have h_b_PWR : blkPWR ∈ bl := h_all _
  have h_b_FLT : blkFLT ∈ bl := h_all _
  have h_b_TSK : blkTSK ∈ bl := h_all _
  have h_b_ACU : blkACU ∈ bl := h_all _
  have h_b_LPH : blkLPH ∈ bl := h_all _
  have h_b_DSF : blkDSF ∈ bl := h_all _
  have h_b_ACT : blkACT ∈ bl := h_all _
  have h_b_UBE : blkUBE ∈ bl := h_all _
  have h_b_CHP : blkCHP ∈ bl := h_all _
  have h_b_PRS : blkPRS ∈ bl := h_all _
  have h_b_CLS : blkCLS ∈ bl := h_all _
  have h_b_FLW : blkFLW ∈ bl := h_all _
  have h_b_SPC : blkSPC ∈ bl := h_all _
  have h_b_CEL : blkCEL ∈ bl := h_all _
  have h_b_SCH : blkSCH ∈ bl := h_all _
  have h_b_GCL : blkGCL ∈ bl := h_all _
  have h_b_CIP : blkCIP ∈ bl := h_all _
  have h_b_KLN : blkKLN ∈ bl := h_all _
  have h_b_MAC : blkMAC ∈ bl := h_all _
  have h_b_TIM : blkTIM ∈ bl := h_all _
  have h_b_OHS : blkOHS ∈ bl := h_all _
  have h_b_CAS : blkCAS ∈ bl := h_all _
  with_reducible repeat' first
    | assumption
    | (refine mem_guard ?_; with_unfolding_all (first | assumption | exact (by assumption : ∀ n, n ∈ bl) _ | exact blk_n (by decide) (by decide) (by assumption) | exact blk_un (by decide) (by decide) (by decide) (by assumption) | exact blk_ite (by assumption) (by assumption) | exact blk_ite (by exact blk_n (by decide) (by decide) (by assumption)) (by exact blk_n (by decide) (by decide) (by assumption))))
    | apply kept_st_setBit
    | apply kept_setReg
    | apply kept_ite
    | refine Kept.of_mk ?_
    | split

theorem kept_storeSh {a : Nat} {r : RegRow} {v : Word} {s : State} (h_s : Kept kb kl bl ko s) (h_p_regs : Part.regs ∈ kl := by assumption) (h_p_shadow : Part.shadow ∈ kl := by assumption) (h_all : ∀ n, n ∈ bl := by assumption) :
    Kept kb kl bl ko (storeSh a r v s) := by
  unfold storeSh
  have h_b_CFG : blkCFG ∈ bl := h_all _
  have h_b_CLK : blkCLK ∈ bl := h_all _
  have h_b_PWR : blkPWR ∈ bl := h_all _
  have h_b_FLT : blkFLT ∈ bl := h_all _
  have h_b_TSK : blkTSK ∈ bl := h_all _
  have h_b_ACU : blkACU ∈ bl := h_all _
  have h_b_LPH : blkLPH ∈ bl := h_all _
  have h_b_DSF : blkDSF ∈ bl := h_all _
  have h_b_ACT : blkACT ∈ bl := h_all _
  have h_b_UBE : blkUBE ∈ bl := h_all _
  have h_b_CHP : blkCHP ∈ bl := h_all _
  have h_b_PRS : blkPRS ∈ bl := h_all _
  have h_b_CLS : blkCLS ∈ bl := h_all _
  have h_b_FLW : blkFLW ∈ bl := h_all _
  have h_b_SPC : blkSPC ∈ bl := h_all _
  have h_b_CEL : blkCEL ∈ bl := h_all _
  have h_b_SCH : blkSCH ∈ bl := h_all _
  have h_b_GCL : blkGCL ∈ bl := h_all _
  have h_b_CIP : blkCIP ∈ bl := h_all _
  have h_b_KLN : blkKLN ∈ bl := h_all _
  have h_b_MAC : blkMAC ∈ bl := h_all _
  have h_b_TIM : blkTIM ∈ bl := h_all _
  have h_b_OHS : blkOHS ∈ bl := h_all _
  have h_b_CAS : blkCAS ∈ bl := h_all _
  with_reducible repeat' first
    | assumption
    | (refine mem_guard ?_; with_unfolding_all (first | assumption | exact (by assumption : ∀ n, n ∈ bl) _ | exact blk_n (by decide) (by decide) (by assumption) | exact blk_un (by decide) (by decide) (by decide) (by assumption) | exact blk_ite (by assumption) (by assumption) | exact blk_ite (by exact blk_n (by decide) (by decide) (by assumption)) (by exact blk_n (by decide) (by decide) (by assumption))))
    | apply kept_setSh
    | apply kept_st_put
    | apply kept_ite
    | split
    | refine Kept.of_mk ?_

theorem kept_storeSt {a : Nat} {r : RegRow} {v : Word} {s : State} (h_s : Kept kb kl bl ko s) (h_p_regs : Part.regs ∈ kl := by assumption) (h_p_cfg : Part.cfg ∈ kl := by assumption) (h_b_CFG : blkCFG ∈ bl := by assumption) :
    Kept kb kl bl ko (storeSt a r v s) := by
  unfold storeSt
  with_reducible repeat' first
    | assumption
    | apply kept_stageReg
    | apply kept_ite
    | refine Kept.of_mk ?_
    | split

theorem kept_regStore {a : Nat} {r : RegRow} {v : Word} {s : State} (h_s : Kept kb kl bl ko s) (h_p_regs : Part.regs ∈ kl := by assumption) (h_p_shadow : Part.shadow ∈ kl := by assumption) (h_p_cfg : Part.cfg ∈ kl := by assumption) (h_all : ∀ n, n ∈ bl := by assumption) :
    Kept kb kl bl ko (regStore a r v s) := by
  unfold regStore
  have h_b_CFG : blkCFG ∈ bl := h_all _
  have h_b_CLK : blkCLK ∈ bl := h_all _
  have h_b_PWR : blkPWR ∈ bl := h_all _
  have h_b_FLT : blkFLT ∈ bl := h_all _
  have h_b_TSK : blkTSK ∈ bl := h_all _
  have h_b_ACU : blkACU ∈ bl := h_all _
  have h_b_LPH : blkLPH ∈ bl := h_all _
  have h_b_DSF : blkDSF ∈ bl := h_all _
  have h_b_ACT : blkACT ∈ bl := h_all _
  have h_b_UBE : blkUBE ∈ bl := h_all _
  have h_b_CHP : blkCHP ∈ bl := h_all _
  have h_b_PRS : blkPRS ∈ bl := h_all _
  have h_b_CLS : blkCLS ∈ bl := h_all _
  have h_b_FLW : blkFLW ∈ bl := h_all _
  have h_b_SPC : blkSPC ∈ bl := h_all _
  have h_b_CEL : blkCEL ∈ bl := h_all _
  have h_b_SCH : blkSCH ∈ bl := h_all _
  have h_b_GCL : blkGCL ∈ bl := h_all _
  have h_b_CIP : blkCIP ∈ bl := h_all _
  have h_b_KLN : blkKLN ∈ bl := h_all _
  have h_b_MAC : blkMAC ∈ bl := h_all _
  have h_b_TIM : blkTIM ∈ bl := h_all _
  have h_b_OHS : blkOHS ∈ bl := h_all _
  have h_b_CAS : blkCAS ∈ bl := h_all _
  with_reducible repeat' first
    | assumption
    | (refine mem_guard ?_; with_unfolding_all (first | assumption | exact (by assumption : ∀ n, n ∈ bl) _ | exact blk_n (by decide) (by decide) (by assumption) | exact blk_un (by decide) (by decide) (by decide) (by assumption) | exact blk_ite (by assumption) (by assumption) | exact blk_ite (by exact blk_n (by decide) (by decide) (by assumption)) (by exact blk_n (by decide) (by decide) (by assumption))))
    | (intro sx; refine (have hsx : Kept kb kl bl ko sx := ?_; ?_); on_goal 2 => (try clear_value sx))
    | (intro sx; try clear_value sx)
    | lift_lets
    | apply kept_storeSh
    | apply kept_storeSx
    | apply kept_storeSt
    | apply kept_setReg
    | apply kept_ite
    | refine Kept.of_mk ?_
    | split

theorem kept_blockWrite {level a : Nat} {v : Word} {o s : State} (h_o : Kept kb kl bl ko o) (h_s : Kept kb kl bl ko s) (h_full : ∀ p, p ≠ Part.pending → p ≠ Part.free → p ∈ kl := by assumption) (h_p_free : Part.free ∈ kl := by assumption) (h_all : ∀ n, n ∈ bl := by assumption) : Kept kb kl bl ko (blockWrite level a v o s) := by
  obtain ⟨h_p_regs, h_p_shadow, h_p_mem, h_p_ecc, h_p_readOut, h_p_ticks, h_p_tod, h_p_cfg, h_p_flt, h_p_tsk, h_p_harts, h_p_acu, h_p_pwr, h_p_cel, h_p_sch, h_p_gcl, h_p_kln, h_p_act, h_p_ube, h_p_chp, h_p_dsf, h_p_ohs, h_p_pipes, h_p_cls, h_p_flw, h_p_spc, h_p_mac, h_p_lph, h_p_tim, h_p_cas, h_p_clk, h_p_tap, h_p_boot, h_p_power⟩ := full_parts h_full
  have h_b_CFG : blkCFG ∈ bl := h_all _
  have h_b_CLK : blkCLK ∈ bl := h_all _
  have h_b_PWR : blkPWR ∈ bl := h_all _
  have h_b_FLT : blkFLT ∈ bl := h_all _
  have h_b_TSK : blkTSK ∈ bl := h_all _
  have h_b_ACU : blkACU ∈ bl := h_all _
  have h_b_LPH : blkLPH ∈ bl := h_all _
  have h_b_DSF : blkDSF ∈ bl := h_all _
  have h_b_ACT : blkACT ∈ bl := h_all _
  have h_b_UBE : blkUBE ∈ bl := h_all _
  have h_b_CHP : blkCHP ∈ bl := h_all _
  have h_b_PRS : blkPRS ∈ bl := h_all _
  have h_b_CLS : blkCLS ∈ bl := h_all _
  have h_b_FLW : blkFLW ∈ bl := h_all _
  have h_b_SPC : blkSPC ∈ bl := h_all _
  have h_b_CEL : blkCEL ∈ bl := h_all _
  have h_b_SCH : blkSCH ∈ bl := h_all _
  have h_b_GCL : blkGCL ∈ bl := h_all _
  have h_b_CIP : blkCIP ∈ bl := h_all _
  have h_b_KLN : blkKLN ∈ bl := h_all _
  have h_b_MAC : blkMAC ∈ bl := h_all _
  have h_b_TIM : blkTIM ∈ bl := h_all _
  have h_b_OHS : blkOHS ∈ bl := h_all _
  have h_b_CAS : blkCAS ∈ bl := h_all _
  have h_a : blkOf a ∈ bl := h_all _
  unfold blockWrite
  dsimp only
  refine kept_ite (kept_cfgWrite h_o h_s) ?_
  refine kept_ite (kept_clkWrite h_o h_s) ?_
  refine kept_ite (kept_pwrWrite h_s) ?_
  refine kept_ite (kept_fltWrite h_o h_s) ?_
  refine kept_ite (kept_tskWrite h_o h_s) ?_
  refine kept_ite (kept_acuWrite h_o h_s) ?_
  refine kept_ite (kept_lphWrite h_o h_s) ?_
  refine kept_ite (kept_dsfWrite h_o h_s) ?_
  refine kept_ite (kept_actWrite h_o h_s) ?_
  refine kept_ite (kept_ubeWrite h_o h_s) ?_
  refine kept_ite (kept_chpWrite h_s) ?_
  refine kept_ite (kept_clsWrite h_o h_s) ?_
  refine kept_ite (kept_flwWrite h_o h_s) ?_
  refine kept_ite (kept_celWrite h_o h_s) ?_
  refine kept_ite (kept_schWrite h_o h_s) ?_
  refine kept_ite (kept_cipWrite h_o h_s) ?_
  refine kept_ite (kept_klnWrite h_o h_s) ?_
  refine kept_ite (kept_macWrite h_o h_s) ?_
  refine kept_ite (kept_timWrite h_s) ?_
  refine kept_ite (kept_ohsWrite h_o h_s) ?_
  refine kept_ite (kept_casWrite h_o h_s) ?_
  exact h_s

theorem kept_regWrite {level : Nat} {a : Nat} {v : Word} {s : State} (h_s : Kept kb kl bl ko s) (h_full : ∀ p, p ≠ Part.pending → p ≠ Part.free → p ∈ kl := by assumption) (h_p_free : Part.free ∈ kl := by assumption) (h_all : ∀ n, n ∈ bl := by assumption) :
    Kept kb kl bl ko (regWrite level a v s) := by
  unfold regWrite
  obtain ⟨h_p_regs, h_p_shadow, h_p_mem, h_p_ecc, h_p_readOut, h_p_ticks, h_p_tod, h_p_cfg, h_p_flt, h_p_tsk, h_p_harts, h_p_acu, h_p_pwr, h_p_cel, h_p_sch, h_p_gcl, h_p_kln, h_p_act, h_p_ube, h_p_chp, h_p_dsf, h_p_ohs, h_p_pipes, h_p_cls, h_p_flw, h_p_spc, h_p_mac, h_p_lph, h_p_tim, h_p_cas, h_p_clk, h_p_tap, h_p_boot, h_p_power⟩ := full_parts h_full
  have h_b_CFG : blkCFG ∈ bl := h_all _
  have h_b_CLK : blkCLK ∈ bl := h_all _
  have h_b_PWR : blkPWR ∈ bl := h_all _
  have h_b_FLT : blkFLT ∈ bl := h_all _
  have h_b_TSK : blkTSK ∈ bl := h_all _
  have h_b_ACU : blkACU ∈ bl := h_all _
  have h_b_LPH : blkLPH ∈ bl := h_all _
  have h_b_DSF : blkDSF ∈ bl := h_all _
  have h_b_ACT : blkACT ∈ bl := h_all _
  have h_b_UBE : blkUBE ∈ bl := h_all _
  have h_b_CHP : blkCHP ∈ bl := h_all _
  have h_b_PRS : blkPRS ∈ bl := h_all _
  have h_b_CLS : blkCLS ∈ bl := h_all _
  have h_b_FLW : blkFLW ∈ bl := h_all _
  have h_b_SPC : blkSPC ∈ bl := h_all _
  have h_b_CEL : blkCEL ∈ bl := h_all _
  have h_b_SCH : blkSCH ∈ bl := h_all _
  have h_b_GCL : blkGCL ∈ bl := h_all _
  have h_b_CIP : blkCIP ∈ bl := h_all _
  have h_b_KLN : blkKLN ∈ bl := h_all _
  have h_b_MAC : blkMAC ∈ bl := h_all _
  have h_b_TIM : blkTIM ∈ bl := h_all _
  have h_b_OHS : blkOHS ∈ bl := h_all _
  have h_b_CAS : blkCAS ∈ bl := h_all _
  with_reducible repeat' first
    | assumption
    | (refine mem_guard ?_; with_unfolding_all (first | assumption | exact (by assumption : ∀ n, n ∈ bl) _ | exact blk_n (by decide) (by decide) (by assumption) | exact blk_un (by decide) (by decide) (by decide) (by assumption) | exact blk_ite (by assumption) (by assumption) | exact blk_ite (by exact blk_n (by decide) (by decide) (by assumption)) (by exact blk_n (by decide) (by decide) (by assumption))))
    | apply kept_regStore
    | apply kept_blockWrite
    | apply kept_bankWrite
    | apply kept_ite
    | split
    | refine Kept.of_mk ?_

theorem kept_regRead {a : Nat} {s : State} (h_s : Kept kb kl bl ko s) (h_p_regs : Part.regs ∈ kl := by assumption) (h_all : ∀ n, n ∈ bl := by assumption) :
    Kept kb kl bl ko (regRead a s).2 := by
  unfold regRead
  have h_b_CFG : blkCFG ∈ bl := h_all _
  have h_b_CLK : blkCLK ∈ bl := h_all _
  have h_b_PWR : blkPWR ∈ bl := h_all _
  have h_b_FLT : blkFLT ∈ bl := h_all _
  have h_b_TSK : blkTSK ∈ bl := h_all _
  have h_b_ACU : blkACU ∈ bl := h_all _
  have h_b_LPH : blkLPH ∈ bl := h_all _
  have h_b_DSF : blkDSF ∈ bl := h_all _
  have h_b_ACT : blkACT ∈ bl := h_all _
  have h_b_UBE : blkUBE ∈ bl := h_all _
  have h_b_CHP : blkCHP ∈ bl := h_all _
  have h_b_PRS : blkPRS ∈ bl := h_all _
  have h_b_CLS : blkCLS ∈ bl := h_all _
  have h_b_FLW : blkFLW ∈ bl := h_all _
  have h_b_SPC : blkSPC ∈ bl := h_all _
  have h_b_CEL : blkCEL ∈ bl := h_all _
  have h_b_SCH : blkSCH ∈ bl := h_all _
  have h_b_GCL : blkGCL ∈ bl := h_all _
  have h_b_CIP : blkCIP ∈ bl := h_all _
  have h_b_KLN : blkKLN ∈ bl := h_all _
  have h_b_MAC : blkMAC ∈ bl := h_all _
  have h_b_TIM : blkTIM ∈ bl := h_all _
  have h_b_OHS : blkOHS ∈ bl := h_all _
  have h_b_CAS : blkCAS ∈ bl := h_all _
  with_reducible repeat' first
    | assumption
    | (refine mem_guard ?_; with_unfolding_all (first | assumption | exact (by assumption : ∀ n, n ∈ bl) _ | exact blk_n (by decide) (by decide) (by assumption) | exact blk_un (by decide) (by decide) (by decide) (by assumption) | exact blk_ite (by assumption) (by assumption) | exact blk_ite (by exact blk_n (by decide) (by decide) (by assumption)) (by exact blk_n (by decide) (by decide) (by assumption))))
    | (intro sx; refine (have hsx : Kept kb kl bl ko sx := ?_; ?_); on_goal 2 => (try clear_value sx))
    | (intro sx; try clear_value sx)
    | lift_lets
    | apply kept_todLatch
    | apply kept_setReg
    | apply kept_ite
    | apply kept_ite1
    | apply kept_ite2
    | apply kept_ite21
    | apply kept_ite22
    | (apply kept_foldl; intro sy xy hy)
    | (apply kept_foldl2; intro sy xy hy)
    | (apply kept_foldl1; intro sy xy hy)
    | split
    | dsimp only [sx]
    | refine Kept.of_mk ?_

theorem kept_hartActs {i : Initiator} {s : State} (h_s : Kept kb kl bl ko s) (h_p_harts : Part.harts ∈ kl := by assumption) :
    Kept kb kl bl ko (hartActs i s) := by
  unfold hartActs
  with_reducible repeat' first
    | assumption
    | apply kept_st_setHart
    | split
    | refine Kept.of_mk ?_

theorem kept_memWrite {a : Nat} {v : Word} {s : State} (h_s : Kept kb kl bl ko s) (h_p_regs : Part.regs ∈ kl := by assumption) (h_p_mem : Part.mem ∈ kl := by assumption) (h_p_ecc : Part.ecc ∈ kl := by assumption) (h_p_flt : Part.flt ∈ kl := by assumption) (h_b_FLT : blkFLT ∈ bl := by assumption) :
    Kept kb kl bl ko (memWrite a v s) := by
  unfold memWrite
  with_reducible repeat' first
    | assumption
    | apply kept_st_setWord
    | apply kept_devWrite
    | apply kept_ite
    | split
    | refine Kept.of_mk ?_

theorem kept_busWrite {i : Initiator} {f : AccessForm} {a : Nat} {v : Word} {s : State} (h_s : Kept kb kl bl ko s) (h_full : ∀ p, p ≠ Part.pending → p ≠ Part.free → p ∈ kl := by assumption) (h_p_free : Part.free ∈ kl := by assumption) (h_all : ∀ n, n ∈ bl := by assumption) :
    Kept kb kl bl ko (busWrite i f a v s) := by
  unfold busWrite
  obtain ⟨h_p_regs, h_p_shadow, h_p_mem, h_p_ecc, h_p_readOut, h_p_ticks, h_p_tod, h_p_cfg, h_p_flt, h_p_tsk, h_p_harts, h_p_acu, h_p_pwr, h_p_cel, h_p_sch, h_p_gcl, h_p_kln, h_p_act, h_p_ube, h_p_chp, h_p_dsf, h_p_ohs, h_p_pipes, h_p_cls, h_p_flw, h_p_spc, h_p_mac, h_p_lph, h_p_tim, h_p_cas, h_p_clk, h_p_tap, h_p_boot, h_p_power⟩ := full_parts h_full
  have h_b_CFG : blkCFG ∈ bl := h_all _
  have h_b_CLK : blkCLK ∈ bl := h_all _
  have h_b_PWR : blkPWR ∈ bl := h_all _
  have h_b_FLT : blkFLT ∈ bl := h_all _
  have h_b_TSK : blkTSK ∈ bl := h_all _
  have h_b_ACU : blkACU ∈ bl := h_all _
  have h_b_LPH : blkLPH ∈ bl := h_all _
  have h_b_DSF : blkDSF ∈ bl := h_all _
  have h_b_ACT : blkACT ∈ bl := h_all _
  have h_b_UBE : blkUBE ∈ bl := h_all _
  have h_b_CHP : blkCHP ∈ bl := h_all _
  have h_b_PRS : blkPRS ∈ bl := h_all _
  have h_b_CLS : blkCLS ∈ bl := h_all _
  have h_b_FLW : blkFLW ∈ bl := h_all _
  have h_b_SPC : blkSPC ∈ bl := h_all _
  have h_b_CEL : blkCEL ∈ bl := h_all _
  have h_b_SCH : blkSCH ∈ bl := h_all _
  have h_b_GCL : blkGCL ∈ bl := h_all _
  have h_b_CIP : blkCIP ∈ bl := h_all _
  have h_b_KLN : blkKLN ∈ bl := h_all _
  have h_b_MAC : blkMAC ∈ bl := h_all _
  have h_b_TIM : blkTIM ∈ bl := h_all _
  have h_b_OHS : blkOHS ∈ bl := h_all _
  have h_b_CAS : blkCAS ∈ bl := h_all _
  with_reducible repeat' first
    | assumption
    | (intro sx; refine (have hsx : Kept kb kl bl ko sx := ?_; ?_); on_goal 2 => (try clear_value sx))
    | (intro sx; try clear_value sx)
    | lift_lets
    | apply kept_regWrite
    | apply kept_hartActs
    | apply kept_acuRefuse
    | apply kept_memWrite
    | apply kept_taskPost
    | apply kept_ite
    | split
    | dsimp only [sx]
    | refine Kept.of_mk ?_

theorem kept_busRead {i : Initiator} {f : AccessForm} {a : Nat} {s : State} (h_s : Kept kb kl bl ko s) (h_p_regs : Part.regs ∈ kl := by assumption) (h_p_mem : Part.mem ∈ kl := by assumption) (h_p_ecc : Part.ecc ∈ kl := by assumption) (h_p_free : Part.free ∈ kl := by assumption) (h_p_flt : Part.flt ∈ kl := by assumption) (h_p_tsk : Part.tsk ∈ kl := by assumption) (h_p_harts : Part.harts ∈ kl := by assumption) (h_all : ∀ n, n ∈ bl := by assumption) :
    Kept kb kl bl ko (busRead i f a s).2 := by
  unfold busRead
  have h_b_CFG : blkCFG ∈ bl := h_all _
  have h_b_CLK : blkCLK ∈ bl := h_all _
  have h_b_PWR : blkPWR ∈ bl := h_all _
  have h_b_FLT : blkFLT ∈ bl := h_all _
  have h_b_TSK : blkTSK ∈ bl := h_all _
  have h_b_ACU : blkACU ∈ bl := h_all _
  have h_b_LPH : blkLPH ∈ bl := h_all _
  have h_b_DSF : blkDSF ∈ bl := h_all _
  have h_b_ACT : blkACT ∈ bl := h_all _
  have h_b_UBE : blkUBE ∈ bl := h_all _
  have h_b_CHP : blkCHP ∈ bl := h_all _
  have h_b_PRS : blkPRS ∈ bl := h_all _
  have h_b_CLS : blkCLS ∈ bl := h_all _
  have h_b_FLW : blkFLW ∈ bl := h_all _
  have h_b_SPC : blkSPC ∈ bl := h_all _
  have h_b_CEL : blkCEL ∈ bl := h_all _
  have h_b_SCH : blkSCH ∈ bl := h_all _
  have h_b_GCL : blkGCL ∈ bl := h_all _
  have h_b_CIP : blkCIP ∈ bl := h_all _
  have h_b_KLN : blkKLN ∈ bl := h_all _
  have h_b_MAC : blkMAC ∈ bl := h_all _
  have h_b_TIM : blkTIM ∈ bl := h_all _
  have h_b_OHS : blkOHS ∈ bl := h_all _
  have h_b_CAS : blkCAS ∈ bl := h_all _
  with_reducible repeat' first
    | assumption
    | (refine kept_pair2 (by assumption) ?_)
    | (intro sx; refine (have hsx : Kept kb kl bl ko sx := ?_; ?_); on_goal 2 => (try clear_value sx))
    | (intro sx; refine (have hsx : Kept kb kl bl ko sx.2 := ?_; ?_); on_goal 2 => (try clear_value sx))
    | (intro sx; try clear_value sx)
    | lift_lets
    | apply kept_regRead
    | apply kept_hartActs
    | apply kept_acuRefuse
    | apply kept_draw
    | apply kept_devRead
    | apply kept_ite
    | apply kept_ite1
    | apply kept_ite2
    | apply kept_ite21
    | apply kept_ite22
    | split
    | dsimp only [sx]
    | refine Kept.of_mk ?_

theorem kept_busFetch {i : Initiator} {f : AccessForm} {a : Nat} {s : State} (h_s : Kept kb kl bl ko s) (h_p_regs : Part.regs ∈ kl := by assumption) (h_p_mem : Part.mem ∈ kl := by assumption) (h_p_ecc : Part.ecc ∈ kl := by assumption) (h_p_free : Part.free ∈ kl := by assumption) (h_p_readOut : Part.readOut ∈ kl := by assumption) (h_p_flt : Part.flt ∈ kl := by assumption) (h_p_tsk : Part.tsk ∈ kl := by assumption) (h_p_harts : Part.harts ∈ kl := by assumption) (h_all : ∀ n, n ∈ bl := by assumption) :
    Kept kb kl bl ko (busFetch i f a s) := by
  unfold busFetch
  have h_b_CFG : blkCFG ∈ bl := h_all _
  have h_b_CLK : blkCLK ∈ bl := h_all _
  have h_b_PWR : blkPWR ∈ bl := h_all _
  have h_b_FLT : blkFLT ∈ bl := h_all _
  have h_b_TSK : blkTSK ∈ bl := h_all _
  have h_b_ACU : blkACU ∈ bl := h_all _
  have h_b_LPH : blkLPH ∈ bl := h_all _
  have h_b_DSF : blkDSF ∈ bl := h_all _
  have h_b_ACT : blkACT ∈ bl := h_all _
  have h_b_UBE : blkUBE ∈ bl := h_all _
  have h_b_CHP : blkCHP ∈ bl := h_all _
  have h_b_PRS : blkPRS ∈ bl := h_all _
  have h_b_CLS : blkCLS ∈ bl := h_all _
  have h_b_FLW : blkFLW ∈ bl := h_all _
  have h_b_SPC : blkSPC ∈ bl := h_all _
  have h_b_CEL : blkCEL ∈ bl := h_all _
  have h_b_SCH : blkSCH ∈ bl := h_all _
  have h_b_GCL : blkGCL ∈ bl := h_all _
  have h_b_CIP : blkCIP ∈ bl := h_all _
  have h_b_KLN : blkKLN ∈ bl := h_all _
  have h_b_MAC : blkMAC ∈ bl := h_all _
  have h_b_TIM : blkTIM ∈ bl := h_all _
  have h_b_OHS : blkOHS ∈ bl := h_all _
  have h_b_CAS : blkCAS ∈ bl := h_all _
  with_reducible repeat' first
    | assumption
    | (intro sx; refine (have hsx : Kept kb kl bl ko sx := ?_; ?_); on_goal 2 => (try clear_value sx))
    | (intro sx; refine (have hsx : Kept kb kl bl ko sx.2 := ?_; ?_); on_goal 2 => (try clear_value sx))
    | (intro sx; try clear_value sx)
    | lift_lets
    | apply kept_busRead
    | refine Kept.of_mk ?_

theorem kept_regAccess {i : Initiator} {a : Nat} {v : Word} {s : State} (h_s : Kept kb kl bl ko s) (h_full : ∀ p, p ≠ Part.pending → p ≠ Part.free → p ∈ kl := by assumption) (h_p_free : Part.free ∈ kl := by assumption) (h_all : ∀ n, n ∈ bl := by assumption) :
    Kept kb kl bl ko (regAccess i a v s) := by
  unfold regAccess
  obtain ⟨h_p_regs, h_p_shadow, h_p_mem, h_p_ecc, h_p_readOut, h_p_ticks, h_p_tod, h_p_cfg, h_p_flt, h_p_tsk, h_p_harts, h_p_acu, h_p_pwr, h_p_cel, h_p_sch, h_p_gcl, h_p_kln, h_p_act, h_p_ube, h_p_chp, h_p_dsf, h_p_ohs, h_p_pipes, h_p_cls, h_p_flw, h_p_spc, h_p_mac, h_p_lph, h_p_tim, h_p_cas, h_p_clk, h_p_tap, h_p_boot, h_p_power⟩ := full_parts h_full
  have h_b_CFG : blkCFG ∈ bl := h_all _
  have h_b_CLK : blkCLK ∈ bl := h_all _
  have h_b_PWR : blkPWR ∈ bl := h_all _
  have h_b_FLT : blkFLT ∈ bl := h_all _
  have h_b_TSK : blkTSK ∈ bl := h_all _
  have h_b_ACU : blkACU ∈ bl := h_all _
  have h_b_LPH : blkLPH ∈ bl := h_all _
  have h_b_DSF : blkDSF ∈ bl := h_all _
  have h_b_ACT : blkACT ∈ bl := h_all _
  have h_b_UBE : blkUBE ∈ bl := h_all _
  have h_b_CHP : blkCHP ∈ bl := h_all _
  have h_b_PRS : blkPRS ∈ bl := h_all _
  have h_b_CLS : blkCLS ∈ bl := h_all _
  have h_b_FLW : blkFLW ∈ bl := h_all _
  have h_b_SPC : blkSPC ∈ bl := h_all _
  have h_b_CEL : blkCEL ∈ bl := h_all _
  have h_b_SCH : blkSCH ∈ bl := h_all _
  have h_b_GCL : blkGCL ∈ bl := h_all _
  have h_b_CIP : blkCIP ∈ bl := h_all _
  have h_b_KLN : blkKLN ∈ bl := h_all _
  have h_b_MAC : blkMAC ∈ bl := h_all _
  have h_b_TIM : blkTIM ∈ bl := h_all _
  have h_b_OHS : blkOHS ∈ bl := h_all _
  have h_b_CAS : blkCAS ∈ bl := h_all _
  with_reducible repeat' first
    | assumption
    | apply kept_busWrite
    | refine Kept.of_mk ?_

theorem kept_bankSwap {b : Nat} {s : State} (h_s : Kept kb kl bl ko s) (h_p_regs : Part.regs ∈ kl := by assumption) (h_p_shadow : Part.shadow ∈ kl := by assumption) (h_p_cfg : Part.cfg ∈ kl := by assumption) (h_p_gcl : Part.gcl ∈ kl := by assumption) (h_b_GCL : blkGCL ∈ bl := by assumption) (h_b0 : blkOf b ∈ bl := by with_unfolding_all (first | assumption | exact (by assumption : ∀ n, n ∈ bl) _ | exact blk_n (by decide) (by decide) (by assumption) | exact blk_un (by decide) (by decide) (by decide) (by assumption))) :
    Kept kb kl bl ko (bankSwap b s) := by
  unfold bankSwap
  with_reducible repeat' first
    | assumption
    | (refine mem_guard ?_; with_unfolding_all (first | assumption | exact (by assumption : ∀ n, n ∈ bl) _ | exact blk_n (by decide) (by decide) (by assumption) | exact blk_un (by decide) (by decide) (by decide) (by assumption) | exact blk_ite (by assumption) (by assumption) | exact blk_ite (by exact blk_n (by decide) (by decide) (by assumption)) (by exact blk_n (by decide) (by decide) (by assumption))))
    | apply kept_swapBank
    | apply kept_ite
    | refine Kept.of_mk ?_
    | split

theorem kept_bankCopyDone {b : Bank} {s : State} (h_s : Kept kb kl bl ko s) (h_p_regs : Part.regs ∈ kl := by assumption) (h_p_shadow : Part.shadow ∈ kl := by assumption) (h_p_cfg : Part.cfg ∈ kl := by assumption) (h_p_cel : Part.cel ∈ kl := by assumption) (h_p_sch : Part.sch ∈ kl := by assumption) (h_p_gcl : Part.gcl ∈ kl := by assumption) (h_p_kln : Part.kln ∈ kl := by assumption) (h_p_act : Part.act ∈ kl := by assumption) (h_p_ube : Part.ube ∈ kl := by assumption) (h_p_chp : Part.chp ∈ kl := by assumption) (h_p_dsf : Part.dsf ∈ kl := by assumption) (h_p_ohs : Part.ohs ∈ kl := by assumption) (h_p_pipes : Part.pipes ∈ kl := by assumption) (h_p_spc : Part.spc ∈ kl := by assumption) (h_p_tim : Part.tim ∈ kl := by assumption) (h_b_CFG : blkCFG ∈ bl := by assumption) (h_b_LPH : blkLPH ∈ bl := by assumption) (h_b_DSF : blkDSF ∈ bl := by assumption) (h_b_ACT : blkACT ∈ bl := by assumption) (h_b_UBE : blkUBE ∈ bl := by assumption) (h_b_CHP : blkCHP ∈ bl := by assumption) (h_b_SPC : blkSPC ∈ bl := by assumption) (h_b_CEL : blkCEL ∈ bl := by assumption) (h_b_GCL : blkGCL ∈ bl := by assumption) (h_b_KLN : blkKLN ∈ bl := by assumption) (h_b_TIM : blkTIM ∈ bl := by assumption) (h_b0 : blkOf (bankAddr b) ∈ bl := by with_unfolding_all (first | assumption | exact (by assumption : ∀ n, n ∈ bl) _ | exact blk_n (by decide) (by decide) (by assumption) | exact blk_un (by decide) (by decide) (by decide) (by assumption))) :
    Kept kb kl bl ko (bankCopyDone b s) := by
  unfold bankCopyDone
  with_reducible repeat' first
    | assumption
    | (refine mem_guard ?_; with_unfolding_all (first | assumption | exact (by assumption : ∀ n, n ∈ bl) _ | exact blk_n (by decide) (by decide) (by assumption) | exact blk_un (by decide) (by decide) (by decide) (by assumption)))
    | (intro sx; refine (have hsx : Kept kb kl bl ko sx := ?_; ?_); on_goal 2 => (try clear_value sx))
    | (intro sx; try clear_value sx)
    | lift_lets
    | apply kept_releaseHeld
    | apply kept_bankCopied
    | split
    | dsimp only [sx]
    | refine Kept.of_mk ?_

theorem kept_groupEffect {g : Nat} {s : State} (h_s : Kept kb kl bl ko s) (h_p_regs : Part.regs ∈ kl := by assumption) (h_p_cfg : Part.cfg ∈ kl := by assumption) (h_p_cel : Part.cel ∈ kl := by assumption) (h_p_sch : Part.sch ∈ kl := by assumption) (h_p_ube : Part.ube ∈ kl := by assumption) (h_p_chp : Part.chp ∈ kl := by assumption) (h_p_ohs : Part.ohs ∈ kl := by assumption) (h_p_tim : Part.tim ∈ kl := by assumption) (h_b_CFG : blkCFG ∈ bl := by assumption) (h_b_LPH : blkLPH ∈ bl := by assumption) (h_b_UBE : blkUBE ∈ bl := by assumption) (h_b_CHP : blkCHP ∈ bl := by assumption) (h_b_CEL : blkCEL ∈ bl := by assumption) :
    Kept kb kl bl ko (groupEffect g s) := by
  unfold groupEffect
  with_reducible repeat' first
    | assumption
    | (intro sx; refine (have hsx : Kept kb kl bl ko sx := ?_; ?_); on_goal 2 => (try clear_value sx))
    | (intro sx; try clear_value sx)
    | lift_lets
    | apply kept_timEqd
    | apply kept_applyStaged
    | apply kept_clearPend
    | apply kept_chpReact
    | apply kept_ite
    | refine Kept.of_mk ?_
    | split

theorem kept_recAccess {f : State → State} {s : State} (hf : ∀ s, Kept kb kl bl ko s → Kept kb kl bl ko (f s)) (h_s : Kept kb kl bl ko s) (h_p_harts : Part.harts ∈ kl := by assumption) :
    Kept kb kl bl ko (recAccess f s) := by
  unfold recAccess
  exact kept_st_setHart (hf s h_s)

theorem kept_nextRecord {s : State} (h_s : Kept kb kl bl ko s) (h_p_cfg : Part.cfg ∈ kl := by assumption) :
    Kept kb kl bl ko (nextRecord s) := by
  unfold nextRecord
  with_reducible repeat' first
    | assumption
    | refine Kept.of_mk ?_

theorem kept_configRecord {s : State} (h_s : Kept kb kl bl ko s) (h_full : ∀ p, p ≠ Part.pending → p ≠ Part.free → p ∈ kl := by assumption) (h_p_free : Part.free ∈ kl := by assumption) (h_all : ∀ n, n ∈ bl := by assumption) :
    Kept kb kl bl ko (configRecord s) := by
  unfold configRecord
  obtain ⟨h_p_regs, h_p_shadow, h_p_mem, h_p_ecc, h_p_readOut, h_p_ticks, h_p_tod, h_p_cfg, h_p_flt, h_p_tsk, h_p_harts, h_p_acu, h_p_pwr, h_p_cel, h_p_sch, h_p_gcl, h_p_kln, h_p_act, h_p_ube, h_p_chp, h_p_dsf, h_p_ohs, h_p_pipes, h_p_cls, h_p_flw, h_p_spc, h_p_mac, h_p_lph, h_p_tim, h_p_cas, h_p_clk, h_p_tap, h_p_boot, h_p_power⟩ := full_parts h_full
  have h_b_CFG : blkCFG ∈ bl := h_all _
  have h_b_CLK : blkCLK ∈ bl := h_all _
  have h_b_PWR : blkPWR ∈ bl := h_all _
  have h_b_FLT : blkFLT ∈ bl := h_all _
  have h_b_TSK : blkTSK ∈ bl := h_all _
  have h_b_ACU : blkACU ∈ bl := h_all _
  have h_b_LPH : blkLPH ∈ bl := h_all _
  have h_b_DSF : blkDSF ∈ bl := h_all _
  have h_b_ACT : blkACT ∈ bl := h_all _
  have h_b_UBE : blkUBE ∈ bl := h_all _
  have h_b_CHP : blkCHP ∈ bl := h_all _
  have h_b_PRS : blkPRS ∈ bl := h_all _
  have h_b_CLS : blkCLS ∈ bl := h_all _
  have h_b_FLW : blkFLW ∈ bl := h_all _
  have h_b_SPC : blkSPC ∈ bl := h_all _
  have h_b_CEL : blkCEL ∈ bl := h_all _
  have h_b_SCH : blkSCH ∈ bl := h_all _
  have h_b_GCL : blkGCL ∈ bl := h_all _
  have h_b_CIP : blkCIP ∈ bl := h_all _
  have h_b_KLN : blkKLN ∈ bl := h_all _
  have h_b_MAC : blkMAC ∈ bl := h_all _
  have h_b_TIM : blkTIM ∈ bl := h_all _
  have h_b_OHS : blkOHS ∈ bl := h_all _
  have h_b_CAS : blkCAS ∈ bl := h_all _
  with_reducible repeat' first
    | assumption
    | (refine kept_pair2 (by assumption) ?_)
    | (intro sx; refine (have hsx : Kept kb kl bl ko sx := ?_; ?_); on_goal 2 => (try clear_value sx))
    | (intro sx; refine (have hsx : Kept kb kl bl ko sx.2 := ?_; ?_); on_goal 2 => (try clear_value sx))
    | (intro sx; try clear_value sx)
    | lift_lets
    | apply kept_nextRecord
    | (apply kept_recAccess; intro sh hh)
    | apply kept_busWrite
    | apply kept_acuRefuse
    | apply kept_configFails
    | apply kept_busRead
    | apply kept_configApplied
    | apply kept_ite
    | apply kept_ite2
    | split
    | dsimp only [sx]
    | refine Kept.of_mk ?_

theorem kept_configTimeout {s : State} (h_s : Kept kb kl bl ko s) (h_full : ∀ p, p ≠ Part.pending → p ≠ Part.free → p ∈ kl := by assumption) (h_all : ∀ n, n ∈ bl := by assumption) :
    Kept kb kl bl ko (configTimeout s) := by
  unfold configTimeout
  obtain ⟨h_p_regs, h_p_shadow, h_p_mem, h_p_ecc, h_p_readOut, h_p_ticks, h_p_tod, h_p_cfg, h_p_flt, h_p_tsk, h_p_harts, h_p_acu, h_p_pwr, h_p_cel, h_p_sch, h_p_gcl, h_p_kln, h_p_act, h_p_ube, h_p_chp, h_p_dsf, h_p_ohs, h_p_pipes, h_p_cls, h_p_flw, h_p_spc, h_p_mac, h_p_lph, h_p_tim, h_p_cas, h_p_clk, h_p_tap, h_p_boot, h_p_power⟩ := full_parts h_full
  have h_b_CFG : blkCFG ∈ bl := h_all _
  have h_b_CLK : blkCLK ∈ bl := h_all _
  have h_b_PWR : blkPWR ∈ bl := h_all _
  have h_b_FLT : blkFLT ∈ bl := h_all _
  have h_b_TSK : blkTSK ∈ bl := h_all _
  have h_b_ACU : blkACU ∈ bl := h_all _
  have h_b_LPH : blkLPH ∈ bl := h_all _
  have h_b_DSF : blkDSF ∈ bl := h_all _
  have h_b_ACT : blkACT ∈ bl := h_all _
  have h_b_UBE : blkUBE ∈ bl := h_all _
  have h_b_CHP : blkCHP ∈ bl := h_all _
  have h_b_PRS : blkPRS ∈ bl := h_all _
  have h_b_CLS : blkCLS ∈ bl := h_all _
  have h_b_FLW : blkFLW ∈ bl := h_all _
  have h_b_SPC : blkSPC ∈ bl := h_all _
  have h_b_CEL : blkCEL ∈ bl := h_all _
  have h_b_SCH : blkSCH ∈ bl := h_all _
  have h_b_GCL : blkGCL ∈ bl := h_all _
  have h_b_CIP : blkCIP ∈ bl := h_all _
  have h_b_KLN : blkKLN ∈ bl := h_all _
  have h_b_MAC : blkMAC ∈ bl := h_all _
  have h_b_TIM : blkTIM ∈ bl := h_all _
  have h_b_OHS : blkOHS ∈ bl := h_all _
  have h_b_CAS : blkCAS ∈ bl := h_all _
  with_reducible repeat' first
    | assumption
    | apply kept_configFails
    | apply kept_ite
    | refine Kept.of_mk ?_
    | split

theorem kept_doRegWrite {m : Bytes} {s : State} (h_s : Kept kb kl bl ko s) (h_full : ∀ p, p ≠ Part.pending → p ≠ Part.free → p ∈ kl := by assumption) (h_p_free : Part.free ∈ kl := by assumption) (h_all : ∀ n, n ∈ bl := by assumption) :
    Kept kb kl bl ko (doRegWrite m s).1 := by
  unfold doRegWrite
  obtain ⟨h_p_regs, h_p_shadow, h_p_mem, h_p_ecc, h_p_readOut, h_p_ticks, h_p_tod, h_p_cfg, h_p_flt, h_p_tsk, h_p_harts, h_p_acu, h_p_pwr, h_p_cel, h_p_sch, h_p_gcl, h_p_kln, h_p_act, h_p_ube, h_p_chp, h_p_dsf, h_p_ohs, h_p_pipes, h_p_cls, h_p_flw, h_p_spc, h_p_mac, h_p_lph, h_p_tim, h_p_cas, h_p_clk, h_p_tap, h_p_boot, h_p_power⟩ := full_parts h_full
  have h_b_CFG : blkCFG ∈ bl := h_all _
  have h_b_CLK : blkCLK ∈ bl := h_all _
  have h_b_PWR : blkPWR ∈ bl := h_all _
  have h_b_FLT : blkFLT ∈ bl := h_all _
  have h_b_TSK : blkTSK ∈ bl := h_all _
  have h_b_ACU : blkACU ∈ bl := h_all _
  have h_b_LPH : blkLPH ∈ bl := h_all _
  have h_b_DSF : blkDSF ∈ bl := h_all _
  have h_b_ACT : blkACT ∈ bl := h_all _
  have h_b_UBE : blkUBE ∈ bl := h_all _
  have h_b_CHP : blkCHP ∈ bl := h_all _
  have h_b_PRS : blkPRS ∈ bl := h_all _
  have h_b_CLS : blkCLS ∈ bl := h_all _
  have h_b_FLW : blkFLW ∈ bl := h_all _
  have h_b_SPC : blkSPC ∈ bl := h_all _
  have h_b_CEL : blkCEL ∈ bl := h_all _
  have h_b_SCH : blkSCH ∈ bl := h_all _
  have h_b_GCL : blkGCL ∈ bl := h_all _
  have h_b_CIP : blkCIP ∈ bl := h_all _
  have h_b_KLN : blkKLN ∈ bl := h_all _
  have h_b_MAC : blkMAC ∈ bl := h_all _
  have h_b_TIM : blkTIM ∈ bl := h_all _
  have h_b_OHS : blkOHS ∈ bl := h_all _
  have h_b_CAS : blkCAS ∈ bl := h_all _
  with_reducible repeat' first
    | assumption
    | (intro sx; refine (have hsx : Kept kb kl bl ko sx := ?_; ?_); on_goal 2 => (try clear_value sx))
    | (intro sx; try clear_value sx)
    | lift_lets
    | apply kept_busWrite
    | apply kept_ite
    | apply kept_ite1
    | apply kept_ite2
    | apply kept_ite21
    | apply kept_ite22
    | refine Kept.of_mk ?_
    | split

theorem kept_doRegRead {m : Bytes} {s : State} (h_s : Kept kb kl bl ko s) (h_p_regs : Part.regs ∈ kl := by assumption) (h_p_mem : Part.mem ∈ kl := by assumption) (h_p_ecc : Part.ecc ∈ kl := by assumption) (h_p_free : Part.free ∈ kl := by assumption) (h_p_flt : Part.flt ∈ kl := by assumption) (h_p_tsk : Part.tsk ∈ kl := by assumption) (h_p_harts : Part.harts ∈ kl := by assumption) (h_all : ∀ n, n ∈ bl := by assumption) :
    Kept kb kl bl ko (doRegRead m s).1 := by
  unfold doRegRead
  have h_b_CFG : blkCFG ∈ bl := h_all _
  have h_b_CLK : blkCLK ∈ bl := h_all _
  have h_b_PWR : blkPWR ∈ bl := h_all _
  have h_b_FLT : blkFLT ∈ bl := h_all _
  have h_b_TSK : blkTSK ∈ bl := h_all _
  have h_b_ACU : blkACU ∈ bl := h_all _
  have h_b_LPH : blkLPH ∈ bl := h_all _
  have h_b_DSF : blkDSF ∈ bl := h_all _
  have h_b_ACT : blkACT ∈ bl := h_all _
  have h_b_UBE : blkUBE ∈ bl := h_all _
  have h_b_CHP : blkCHP ∈ bl := h_all _
  have h_b_PRS : blkPRS ∈ bl := h_all _
  have h_b_CLS : blkCLS ∈ bl := h_all _
  have h_b_FLW : blkFLW ∈ bl := h_all _
  have h_b_SPC : blkSPC ∈ bl := h_all _
  have h_b_CEL : blkCEL ∈ bl := h_all _
  have h_b_SCH : blkSCH ∈ bl := h_all _
  have h_b_GCL : blkGCL ∈ bl := h_all _
  have h_b_CIP : blkCIP ∈ bl := h_all _
  have h_b_KLN : blkKLN ∈ bl := h_all _
  have h_b_MAC : blkMAC ∈ bl := h_all _
  have h_b_TIM : blkTIM ∈ bl := h_all _
  have h_b_OHS : blkOHS ∈ bl := h_all _
  have h_b_CAS : blkCAS ∈ bl := h_all _
  with_reducible repeat' first
    | assumption
    | (intro sx; refine (have hsx : Kept kb kl bl ko sx := ?_; ?_); on_goal 2 => (try clear_value sx))
    | (intro sx; refine (have hsx : Kept kb kl bl ko sx.2 := ?_; ?_); on_goal 2 => (try clear_value sx))
    | (intro sx; try clear_value sx)
    | lift_lets
    | apply kept_busRead
    | apply kept_ite
    | apply kept_ite1
    | apply kept_ite2
    | apply kept_ite21
    | apply kept_ite22
    | refine Kept.of_mk ?_
    | split

theorem kept_doWakeList {m : Bytes} {s : State} (h_s : Kept kb kl bl ko s) (h_p_pwr : Part.pwr ∈ kl := by assumption) :
    Kept kb kl bl ko (doWakeList m s).1 := by
  unfold doWakeList
  with_reducible repeat' first
    | assumption
    | refine Kept.of_mk ?_

theorem kept_doTimeOfDay {k : Nat} {m : Bytes} {s : State} (h_s : Kept kb kl bl ko s) (h_p_regs : Part.regs ∈ kl := by assumption) (h_p_shadow : Part.shadow ∈ kl := by assumption) (h_p_tod : Part.tod ∈ kl := by assumption) (h_p_cfg : Part.cfg ∈ kl := by assumption) (h_p_gcl : Part.gcl ∈ kl := by assumption) (h_p_dsf : Part.dsf ∈ kl := by assumption) (h_p_tim : Part.tim ∈ kl := by assumption) (h_b_DSF : blkDSF ∈ bl := by assumption) (h_b_GCL : blkGCL ∈ bl := by assumption) (h_b_TIM : blkTIM ∈ bl := by assumption) :
    Kept kb kl bl ko (doTimeOfDay k m s).1 := by
  unfold doTimeOfDay
  with_reducible repeat' first
    | assumption
    | apply kept_timeOfDay
    | refine Kept.of_mk ?_

theorem kept_secondEvents {s : State} (h_s : Kept kb kl bl ko s) (h_p_regs : Part.regs ∈ kl := by assumption) (h_p_mem : Part.mem ∈ kl := by assumption) (h_p_ecc : Part.ecc ∈ kl := by assumption) (h_p_flt : Part.flt ∈ kl := by assumption) (h_p_tsk : Part.tsk ∈ kl := by assumption) (h_p_cas : Part.cas ∈ kl := by assumption) (h_b_FLT : blkFLT ∈ bl := by assumption) (h_b_TSK : blkTSK ∈ bl := by assumption) :
    Kept kb kl bl ko (secondEvents s) := by
  unfold secondEvents
  with_reducible repeat' first
    | assumption
    | apply kept_sendTime
    | apply kept_hwEvent
    | refine Kept.of_mk ?_

theorem kept_tailsEnd {s : State} (h_s : Kept kb kl bl ko s) (h_p_regs : Part.regs ∈ kl := by assumption) (h_p_ube : Part.ube ∈ kl := by assumption) (h_p_chp : Part.chp ∈ kl := by assumption) (h_b_LPH : blkLPH ∈ bl := by assumption) (h_b_CHP : blkCHP ∈ bl := by assumption) :
    Kept kb kl bl ko (tailsEnd s) := by
  unfold tailsEnd
  with_reducible repeat' first
    | assumption
    | apply kept_endTail
    | (apply kept_foldl; intro sy xy hy)
    | (apply kept_foldl2; intro sy xy hy)
    | (apply kept_foldl1; intro sy xy hy)
    | refine Kept.of_mk ?_

theorem kept_nextSecond {s : State} (h_s : Kept kb kl bl ko s) (h_p_regs : Part.regs ∈ kl := by assumption) (h_p_mem : Part.mem ∈ kl := by assumption) (h_p_ecc : Part.ecc ∈ kl := by assumption) (h_p_ticks : Part.ticks ∈ kl := by assumption) (h_p_tod : Part.tod ∈ kl := by assumption) (h_p_flt : Part.flt ∈ kl := by assumption) (h_p_tsk : Part.tsk ∈ kl := by assumption) (h_p_ube : Part.ube ∈ kl := by assumption) (h_p_chp : Part.chp ∈ kl := by assumption) (h_p_dsf : Part.dsf ∈ kl := by assumption) (h_p_tim : Part.tim ∈ kl := by assumption) (h_p_cas : Part.cas ∈ kl := by assumption) (h_b_FLT : blkFLT ∈ bl := by assumption) (h_b_TSK : blkTSK ∈ bl := by assumption) (h_b_LPH : blkLPH ∈ bl := by assumption) (h_b_DSF : blkDSF ∈ bl := by assumption) (h_b_CHP : blkCHP ∈ bl := by assumption) :
    Kept kb kl bl ko (nextSecond s) := by
  unfold nextSecond
  with_reducible repeat' first
    | assumption
    | apply kept_secondEvents
    | apply kept_tailsEnd
    | apply kept_countToBoundary
    | refine Kept.of_mk ?_

theorem kept_idleTick {s : State} (h_s : Kept kb kl bl ko s) (h_p_regs : Part.regs ∈ kl := by assumption) (h_p_mem : Part.mem ∈ kl := by assumption) (h_p_ecc : Part.ecc ∈ kl := by assumption) (h_p_ticks : Part.ticks ∈ kl := by assumption) (h_p_tod : Part.tod ∈ kl := by assumption) (h_p_flt : Part.flt ∈ kl := by assumption) (h_p_tsk : Part.tsk ∈ kl := by assumption) (h_p_ube : Part.ube ∈ kl := by assumption) (h_p_chp : Part.chp ∈ kl := by assumption) (h_p_dsf : Part.dsf ∈ kl := by assumption) (h_p_tim : Part.tim ∈ kl := by assumption) (h_p_cas : Part.cas ∈ kl := by assumption) (h_b_FLT : blkFLT ∈ bl := by assumption) (h_b_TSK : blkTSK ∈ bl := by assumption) (h_b_LPH : blkLPH ∈ bl := by assumption) (h_b_DSF : blkDSF ∈ bl := by assumption) (h_b_CHP : blkCHP ∈ bl := by assumption) :
    Kept kb kl bl ko (idleTick s) := by
  unfold idleTick
  with_reducible repeat' first
    | assumption
    | (intro sx; refine (have hsx : Kept kb kl bl ko sx := ?_; ?_); on_goal 2 => (try clear_value sx))
    | (intro sx; try clear_value sx)
    | lift_lets
    | apply kept_secondEvents
    | apply kept_casSend
    | apply kept_tailsEnd
    | apply kept_clockTick
    | apply kept_ite
    | refine Kept.of_mk ?_
    | split

theorem kept_takeGrant {k : Nat} {frame : Nat} {g : Grant} {s : State} (h_s : Kept kb kl bl ko s) (h_p_regs : Part.regs ∈ kl := by assumption) (h_p_free : Part.free ∈ kl := by assumption) (h_p_act : Part.act ∈ kl := by assumption) (h_p_ube : Part.ube ∈ kl := by assumption) (h_b_ACT : blkACT ∈ bl := by assumption) (h_b_UBE : blkUBE ∈ bl := by assumption) :
    Kept kb kl bl ko (takeGrant k frame g s) := by
  unfold takeGrant
  with_reducible repeat' first
    | assumption
    | (intro sx; refine (have hsx : Kept kb kl bl ko sx := ?_; ?_); on_goal 2 => (try clear_value sx))
    | (intro sx; try clear_value sx)
    | lift_lets
    | apply kept_discWindow
    | apply kept_st_setUbeCh
    | apply kept_ite
    | refine Kept.of_mk ?_
    | split

theorem kept_mapEntry {k : Nat} {n : Nat} {e : Bytes} {s : State} (h_s : Kept kb kl bl ko s) (h_p_regs : Part.regs ∈ kl := by assumption) (h_p_free : Part.free ∈ kl := by assumption) (h_p_act : Part.act ∈ kl := by assumption) (h_p_ube : Part.ube ∈ kl := by assumption) (h_b_ACT : blkACT ∈ bl := by assumption) (h_b_UBE : blkUBE ∈ bl := by assumption) :
    Kept kb kl bl ko (mapEntry k n e s) := by
  unfold mapEntry
  with_reducible repeat' first
    | assumption
    | (refine mem_guard ?_; with_unfolding_all (first | assumption | exact (by assumption : ∀ n, n ∈ bl) _ | exact blk_n (by decide) (by decide) (by assumption) | exact blk_un (by decide) (by decide) (by decide) (by assumption) | exact blk_ite (by assumption) (by assumption) | exact blk_ite (by exact blk_n (by decide) (by decide) (by assumption)) (by exact blk_n (by decide) (by decide) (by assumption))))
    | (intro sx; refine (have hsx : Kept kb kl bl ko sx := ?_; ?_); on_goal 2 => (try clear_value sx))
    | (intro sx; try clear_value sx)
    | lift_lets
    | apply kept_st_inc
    | apply kept_takeGrant
    | apply kept_ite
    | split
    | dsimp only [sx]
    | refine Kept.of_mk ?_

theorem kept_mapReconcile {k : Nat} {s : State} (h_s : Kept kb kl bl ko s) (h_p_regs : Part.regs ∈ kl := by assumption) (h_p_free : Part.free ∈ kl := by assumption) (h_p_flt : Part.flt ∈ kl := by assumption) (h_p_cel : Part.cel ∈ kl := by assumption) (h_p_sch : Part.sch ∈ kl := by assumption) (h_p_ube : Part.ube ∈ kl := by assumption) (h_b_FLT : blkFLT ∈ bl := by assumption) (h_b_UBE : blkUBE ∈ bl := by assumption) (h_b_CEL : blkCEL ∈ bl := by assumption) :
    Kept kb kl bl ko (mapReconcile k s) := by
  unfold mapReconcile
  with_reducible repeat' first
    | assumption
    | (intro sx; refine (have hsx : Kept kb kl bl ko sx := ?_; ?_); on_goal 2 => (try clear_value sx))
    | (intro sx; try clear_value sx)
    | lift_lets
    | apply kept_reconcile
    | refine Kept.of_mk ?_

theorem kept_selectPort {p : Nat} {s : State} (h_s : Kept kb kl bl ko s) (h_p_regs : Part.regs ∈ kl := by assumption) (h_p_cel : Part.cel ∈ kl := by assumption) (h_p_sch : Part.sch ∈ kl := by assumption) (h_p_ube : Part.ube ∈ kl := by assumption) (h_p_chp : Part.chp ∈ kl := by assumption) (h_p_ohs : Part.ohs ∈ kl := by assumption) (h_b_LPH : blkLPH ∈ bl := by assumption) (h_b_UBE : blkUBE ∈ bl := by assumption) (h_b_CHP : blkCHP ∈ bl := by assumption) (h_b_CEL : blkCEL ∈ bl := by assumption) :
    Kept kb kl bl ko (selectPort p s) := by
  unfold selectPort
  with_reducible repeat' first
    | assumption
    | (refine mem_guard ?_; with_unfolding_all (first | assumption | exact (by assumption : ∀ n, n ∈ bl) _ | exact blk_n (by decide) (by decide) (by assumption) | exact blk_un (by decide) (by decide) (by decide) (by assumption)))
    | apply kept_portSelect
    | apply kept_st_wr
    | refine Kept.of_mk ?_

theorem kept_portOrder {s : State} (h_s : Kept kb kl bl ko s) (h_p_regs : Part.regs ∈ kl := by assumption) (h_p_cel : Part.cel ∈ kl := by assumption) (h_p_sch : Part.sch ∈ kl := by assumption) (h_p_act : Part.act ∈ kl := by assumption) (h_p_ube : Part.ube ∈ kl := by assumption) (h_p_chp : Part.chp ∈ kl := by assumption) (h_p_ohs : Part.ohs ∈ kl := by assumption) (h_b_LPH : blkLPH ∈ bl := by assumption) (h_b_UBE : blkUBE ∈ bl := by assumption) (h_b_CHP : blkCHP ∈ bl := by assumption) (h_b_CEL : blkCEL ∈ bl := by assumption) :
    Kept kb kl bl ko (portOrder s) := by
  unfold portOrder
  with_reducible repeat' first
    | assumption
    | apply kept_selectPort
    | apply kept_ite
    | split
    | refine Kept.of_mk ?_

theorem kept_autoProtect {s : State} (h_s : Kept kb kl bl ko s) (h_p_regs : Part.regs ∈ kl := by assumption) (h_p_cel : Part.cel ∈ kl := by assumption) (h_p_sch : Part.sch ∈ kl := by assumption) (h_p_act : Part.act ∈ kl := by assumption) (h_p_ube : Part.ube ∈ kl := by assumption) (h_p_chp : Part.chp ∈ kl := by assumption) (h_p_ohs : Part.ohs ∈ kl := by assumption) (h_b_LPH : blkLPH ∈ bl := by assumption) (h_b_UBE : blkUBE ∈ bl := by assumption) (h_b_CHP : blkCHP ∈ bl := by assumption) (h_b_CEL : blkCEL ∈ bl := by assumption) :
    Kept kb kl bl ko (autoProtect s) := by
  unfold autoProtect
  with_reducible repeat' first
    | assumption
    | (intro sx; refine (have hsx : Kept kb kl bl ko sx := ?_; ?_); on_goal 2 => (try clear_value sx))
    | (intro sx; try clear_value sx)
    | lift_lets
    | apply kept_selectPort
    | apply kept_ite
    | refine Kept.of_mk ?_
    | split

theorem kept_passCheck {i : Nat} {c : Checks} {p : PassPkt} {s : State} (h_s : Kept kb kl bl ko s) (h_p_regs : Part.regs ∈ kl := by assumption) (h_p_flt : Part.flt ∈ kl := by assumption) (h_b_FLT : blkFLT ∈ bl := by assumption) :
    Kept kb kl bl ko (passCheck i c p s).2 := by
  unfold passCheck
  with_reducible repeat' first
    | assumption
    | (intro sx; refine (have hsx : Kept kb kl bl ko sx := ?_; ?_); on_goal 2 => (try clear_value sx))
    | (intro sx; refine (have hsx : Kept kb kl bl ko sx.2.2 := ?_; ?_); on_goal 2 => (try clear_value sx))
    | (intro sx; try clear_value sx)
    | lift_lets
    | apply kept_checkPacket
    | refine Kept.of_mk ?_

theorem kept_packetPass {i : Nat} {c : Checks} {s : State} (h_s : Kept kb kl bl ko s) (h_p_regs : Part.regs ∈ kl := by assumption) (h_p_shadow : Part.shadow ∈ kl := by assumption) (h_p_mem : Part.mem ∈ kl := by assumption) (h_p_ecc : Part.ecc ∈ kl := by assumption) (h_p_free : Part.free ∈ kl := by assumption) (h_p_cfg : Part.cfg ∈ kl := by assumption) (h_p_flt : Part.flt ∈ kl := by assumption) (h_p_cel : Part.cel ∈ kl := by assumption) (h_p_sch : Part.sch ∈ kl := by assumption) (h_p_gcl : Part.gcl ∈ kl := by assumption) (h_p_pipes : Part.pipes ∈ kl := by assumption) (h_p_cls : Part.cls ∈ kl := by assumption) (h_p_flw : Part.flw ∈ kl := by assumption) (h_p_cas : Part.cas ∈ kl := by assumption) (h_all : ∀ n, n ∈ bl := by assumption) :
    Kept kb kl bl ko (packetPass i c s) := by
  unfold packetPass
  have h_b_CFG : blkCFG ∈ bl := h_all _
  have h_b_CLK : blkCLK ∈ bl := h_all _
  have h_b_PWR : blkPWR ∈ bl := h_all _
  have h_b_FLT : blkFLT ∈ bl := h_all _
  have h_b_TSK : blkTSK ∈ bl := h_all _
  have h_b_ACU : blkACU ∈ bl := h_all _
  have h_b_LPH : blkLPH ∈ bl := h_all _
  have h_b_DSF : blkDSF ∈ bl := h_all _
  have h_b_ACT : blkACT ∈ bl := h_all _
  have h_b_UBE : blkUBE ∈ bl := h_all _
  have h_b_CHP : blkCHP ∈ bl := h_all _
  have h_b_PRS : blkPRS ∈ bl := h_all _
  have h_b_CLS : blkCLS ∈ bl := h_all _
  have h_b_FLW : blkFLW ∈ bl := h_all _
  have h_b_SPC : blkSPC ∈ bl := h_all _
  have h_b_CEL : blkCEL ∈ bl := h_all _
  have h_b_SCH : blkSCH ∈ bl := h_all _
  have h_b_GCL : blkGCL ∈ bl := h_all _
  have h_b_CIP : blkCIP ∈ bl := h_all _
  have h_b_KLN : blkKLN ∈ bl := h_all _
  have h_b_MAC : blkMAC ∈ bl := h_all _
  have h_b_TIM : blkTIM ∈ bl := h_all _
  have h_b_OHS : blkOHS ∈ bl := h_all _
  have h_b_CAS : blkCAS ∈ bl := h_all _
  with_reducible repeat' first
    | assumption
    | (refine kept_pair2 (by assumption) ?_)
    | (intro sx; refine (have hsx : Kept kb kl bl ko sx := ?_; ?_); on_goal 2 => (try clear_value sx))
    | (intro sx; refine (have hsx : Kept kb kl bl ko sx.2 := ?_; ?_); on_goal 2 => (try clear_value sx))
    | (intro sx; try clear_value sx)
    | lift_lets
    | apply kept_runPass
    | apply kept_passCheck
    | apply kept_st_setPipe
    | apply kept_ite
    | apply kept_ite2
    | split
    | dsimp only [sx]
    | refine Kept.of_mk ?_

theorem kept_idleSlot {i : Nat} {s : State} (h_s : Kept kb kl bl ko s) (h_p_regs : Part.regs ∈ kl := by assumption) (h_p_pipes : Part.pipes ∈ kl := by assumption) (h_b_CLS : blkCLS ∈ bl := by assumption) :
    Kept kb kl bl ko (idleSlot i s) := by
  unfold idleSlot
  with_reducible repeat' first
    | assumption
    | (intro sx; refine (have hsx : Kept kb kl bl ko sx := ?_; ?_); on_goal 2 => (try clear_value sx))
    | (intro sx; try clear_value sx)
    | lift_lets
    | apply kept_enterPipe
    | apply kept_st_setPipe
    | apply kept_ite
    | split
    | dsimp only [sx]
    | refine Kept.of_mk ?_

theorem kept_devByteAt {a : Nat} {s : State} (h_s : Kept kb kl bl ko s) (h_p_free : Part.free ∈ kl := by assumption) :
    Kept kb kl bl ko (devByteAt a s).2 := by
  unfold devByteAt
  with_reducible repeat' first
    | assumption
    | (refine kept_pair2 (by assumption) ?_)
    | apply kept_draw
    | apply kept_ite
    | apply kept_ite1
    | apply kept_ite2
    | apply kept_ite21
    | apply kept_ite22
    | split
    | refine Kept.of_mk ?_

theorem kept_devBytes {a : Nat} {n : Nat} {s : State} (h_s : Kept kb kl bl ko s) (h_p_regs : Part.regs ∈ kl := by assumption) (h_p_ecc : Part.ecc ∈ kl := by assumption) (h_p_free : Part.free ∈ kl := by assumption) (h_p_flt : Part.flt ∈ kl := by assumption) (h_b_FLT : blkFLT ∈ bl := by assumption) :
    Kept kb kl bl ko (devBytes a n s).2.2 := by
  unfold devBytes
  with_reducible repeat' first
    | assumption
    | (intro sx; refine (have hsx : Kept kb kl bl ko sx := ?_; ?_); on_goal 2 => (try clear_value sx))
    | (intro sx; refine (have hsx : Kept kb kl bl ko sx.2 := ?_; ?_); on_goal 2 => (try clear_value sx))
    | (intro sx; refine (have hsx : Kept kb kl bl ko sx.1 := ?_; ?_); on_goal 2 => (try clear_value sx))
    | (intro sx; refine (have hsx : Kept kb kl bl ko sx.2.2 := ?_; ?_); on_goal 2 => (try clear_value sx))
    | (intro sx; try clear_value sx)
    | lift_lets
    | apply kept_readChecked
    | apply kept_devByteAt
    | apply kept_fltAddrEvent
    | apply kept_ite
    | apply kept_ite1
    | apply kept_ite2
    | apply kept_ite21
    | apply kept_ite22
    | (apply kept_foldl; intro sy xy hy)
    | (apply kept_foldl2; intro sy xy hy)
    | (apply kept_foldl1; intro sy xy hy)
    | refine Kept.of_mk ?_
    | split

theorem kept_reinjectOffer {s : State} (h_s : Kept kb kl bl ko s) (h_p_regs : Part.regs ∈ kl := by assumption) (h_p_ecc : Part.ecc ∈ kl := by assumption) (h_p_free : Part.free ∈ kl := by assumption) (h_p_flt : Part.flt ∈ kl := by assumption) (h_p_pipes : Part.pipes ∈ kl := by assumption) (h_b_FLT : blkFLT ∈ bl := by assumption) (h_b_PRS : blkPRS ∈ bl := by assumption) (h_b_CLS : blkCLS ∈ bl := by assumption) :
    Kept kb kl bl ko (reinjectOffer s) := by
  unfold reinjectOffer
  with_reducible repeat' first
    | assumption
    | (refine mem_guard ?_; with_unfolding_all (first | assumption | exact (by assumption : ∀ n, n ∈ bl) _ | exact blk_n (by decide) (by decide) (by assumption) | exact blk_un (by decide) (by decide) (by decide) (by assumption) | exact blk_ite (by assumption) (by assumption) | exact blk_ite (by exact blk_n (by decide) (by decide) (by assumption)) (by exact blk_n (by decide) (by decide) (by assumption))))
    | (intro sx; refine (have hsx : Kept kb kl bl ko sx := ?_; ?_); on_goal 2 => (try clear_value sx))
    | (intro sx; refine (have hsx : Kept kb kl bl ko sx.1 := ?_; ?_); on_goal 2 => (try clear_value sx))
    | (intro sx; refine (have hsx : Kept kb kl bl ko sx.2.2 := ?_; ?_); on_goal 2 => (try clear_value sx))
    | (intro sx; try clear_value sx)
    | lift_lets
    | apply kept_devBytes
    | apply kept_st_put
    | apply kept_offerIdle
    | apply kept_ite
    | apply kept_ite1
    | apply kept_ite22
    | refine Kept.of_mk ?_
    | split

theorem kept_sweepEnds {s : State} (h_s : Kept kb kl bl ko s) (h_p_regs : Part.regs ∈ kl := by assumption) (h_p_cls : Part.cls ∈ kl := by assumption) (h_b_CLS : blkCLS ∈ bl := by assumption) :
    Kept kb kl bl ko (sweepEnds s) := by
  unfold sweepEnds
  with_reducible repeat' first
    | assumption
    | (refine mem_guard ?_; with_unfolding_all (first | assumption | exact (by assumption : ∀ n, n ∈ bl) _ | exact blk_n (by decide) (by decide) (by assumption) | exact blk_un (by decide) (by decide) (by decide) (by assumption) | exact blk_ite (by assumption) (by assumption) | exact blk_ite (by exact blk_n (by decide) (by decide) (by assumption)) (by exact blk_n (by decide) (by decide) (by assumption))))
    | (intro sx; refine (have hsx : Kept kb kl bl ko sx := ?_; ?_); on_goal 2 => (try clear_value sx))
    | (intro sx; try clear_value sx)
    | lift_lets
    | apply kept_st_put
    | apply kept_sweepUpTo
    | apply kept_ite
    | refine Kept.of_mk ?_
    | split

theorem kept_commitNow {s : State} (h_s : Kept kb kl bl ko s) (h_p_regs : Part.regs ∈ kl := by assumption) (h_p_shadow : Part.shadow ∈ kl := by assumption) (h_p_cfg : Part.cfg ∈ kl := by assumption) (h_p_gcl : Part.gcl ∈ kl := by assumption) (h_p_cls : Part.cls ∈ kl := by assumption) (h_b_CLS : blkCLS ∈ bl := by assumption) (h_b_GCL : blkGCL ∈ bl := by assumption) :
    Kept kb kl bl ko (commitNow s) := by
  unfold commitNow
  with_reducible repeat' first
    | assumption
    | apply kept_versionCommit
    | apply kept_ite
    | refine Kept.of_mk ?_
    | split

theorem kept_insertEnds {s : State} (h_s : Kept kb kl bl ko s) (h_p_regs : Part.regs ∈ kl := by assumption) (h_p_free : Part.free ∈ kl := by assumption) (h_p_flw : Part.flw ∈ kl := by assumption) (h_b_FLW : blkFLW ∈ bl := by assumption) :
    Kept kb kl bl ko (insertEnds s) := by
  unfold insertEnds
  with_reducible repeat' first
    | assumption
    | (refine kept_pair2 (by assumption) ?_)
    | (intro sx; refine (have hsx : Kept kb kl bl ko sx := ?_; ?_); on_goal 2 => (try clear_value sx))
    | (intro sx; refine (have hsx : Kept kb kl bl ko sx.2 := ?_; ?_); on_goal 2 => (try clear_value sx))
    | (intro sx; try clear_value sx)
    | lift_lets
    | apply kept_flowPlace
    | apply kept_showFlow
    | apply kept_flwStatus
    | apply kept_ite
    | apply kept_ite2
    | split
    | dsimp only [sx]
    | refine Kept.of_mk ?_

theorem kept_learnInsert {s : State} (h_s : Kept kb kl bl ko s) (h_p_regs : Part.regs ∈ kl := by assumption) (h_p_free : Part.free ∈ kl := by assumption) (h_p_flw : Part.flw ∈ kl := by assumption) (h_b_FLW : blkFLW ∈ bl := by assumption) :
    Kept kb kl bl ko (learnInsert s) := by
  unfold learnInsert
  with_reducible repeat' first
    | assumption
    | (refine kept_pair2 (by assumption) ?_)
    | (intro sx; refine (have hsx : Kept kb kl bl ko sx := ?_; ?_); on_goal 2 => (try clear_value sx))
    | (intro sx; refine (have hsx : Kept kb kl bl ko sx.2 := ?_; ?_); on_goal 2 => (try clear_value sx))
    | (intro sx; try clear_value sx)
    | lift_lets
    | apply kept_showFlw
    | apply kept_flowPlace
    | apply kept_ite
    | apply kept_ite2
    | split
    | dsimp only [sx]
    | refine Kept.of_mk ?_

theorem kept_stashOne {i : Nat} {s : State} (h_s : Kept kb kl bl ko s) (h_p_flw : Part.flw ∈ kl := by assumption) :
    Kept kb kl bl ko (stashOne i s) := by
  unfold stashOne
  with_reducible repeat' first
    | assumption
    | (intro sx; refine (have hsx : Kept kb kl bl ko sx := ?_; ?_); on_goal 2 => (try clear_value sx))
    | (intro sx; try clear_value sx)
    | lift_lets
    | apply kept_st_setFlowAt
    | apply kept_ite
    | split
    | dsimp only [sx]
    | refine Kept.of_mk ?_

theorem kept_stashPlace {s : State} (h_s : Kept kb kl bl ko s) (h_p_regs : Part.regs ∈ kl := by assumption) (h_p_flw : Part.flw ∈ kl := by assumption) (h_b_FLW : blkFLW ∈ bl := by assumption) :
    Kept kb kl bl ko (stashPlace s) := by
  unfold stashPlace
  with_reducible repeat' first
    | assumption
    | apply kept_showFlw
    | apply kept_stashOne
    | apply kept_ite
    | (apply kept_foldl; intro sy xy hy)
    | (apply kept_foldl2; intro sy xy hy)
    | (apply kept_foldl1; intro sy xy hy)
    | refine Kept.of_mk ?_
    | split

theorem kept_ageTick {s : State} (h_s : Kept kb kl bl ko s) (h_p_regs : Part.regs ∈ kl := by assumption) (h_p_flw : Part.flw ∈ kl := by assumption) (h_b_FLW : blkFLW ∈ bl := by assumption) :
    Kept kb kl bl ko (ageTick s) := by
  unfold ageTick
  with_reducible repeat' first
    | assumption
    | (refine mem_guard ?_; with_unfolding_all (first | assumption | exact (by assumption : ∀ n, n ∈ bl) _ | exact blk_n (by decide) (by decide) (by assumption) | exact blk_un (by decide) (by decide) (by decide) (by assumption) | exact blk_ite (by assumption) (by assumption) | exact blk_ite (by exact blk_n (by decide) (by decide) (by assumption)) (by exact blk_n (by decide) (by decide) (by assumption))))
    | (intro sx; refine (have hsx : Kept kb kl bl ko sx := ?_; ?_); on_goal 2 => (try clear_value sx))
    | (intro sx; try clear_value sx)
    | lift_lets
    | apply kept_st_inc
    | apply kept_flowDelete
    | apply kept_ite
    | (apply kept_foldl; intro sy xy hy)
    | (apply kept_foldl2; intro sy xy hy)
    | (apply kept_foldl1; intro sy xy hy)
    | refine Kept.of_mk ?_
    | split

theorem kept_ageNotify {e : FlowEntry} {s : State} (h_s : Kept kb kl bl ko s) (h_p_regs : Part.regs ∈ kl := by assumption) (h_p_mem : Part.mem ∈ kl := by assumption) (h_p_ecc : Part.ecc ∈ kl := by assumption) (h_p_free : Part.free ∈ kl := by assumption) (h_p_flt : Part.flt ∈ kl := by assumption) (h_b_FLT : blkFLT ∈ bl := by assumption) (h_b_FLW : blkFLW ∈ bl := by assumption) :
    Kept kb kl bl ko (ageNotify e s) := by
  unfold ageNotify
  with_reducible repeat' first
    | assumption
    | (refine mem_guard ?_; with_unfolding_all (first | assumption | exact (by assumption : ∀ n, n ∈ bl) _ | exact blk_n (by decide) (by decide) (by assumption) | exact blk_un (by decide) (by decide) (by decide) (by assumption) | exact blk_ite (by assumption) (by assumption) | exact blk_ite (by exact blk_n (by decide) (by decide) (by assumption)) (by exact blk_n (by decide) (by decide) (by assumption))))
    | (intro sx; refine (have hsx : Kept kb kl bl ko sx := ?_; ?_); on_goal 2 => (try clear_value sx))
    | (intro sx; refine (have hsx : Kept kb kl bl ko sx.2.2 := ?_; ?_); on_goal 2 => (try clear_value sx))
    | (intro sx; try clear_value sx)
    | lift_lets
    | apply kept_st_inc
    | apply kept_devWrite
    | apply kept_st_wr
    | apply kept_counterValue
    | apply kept_ite
    | apply kept_ite22
    | refine Kept.of_mk ?_
    | split

theorem kept_cidxFree {s : State} (h_s : Kept kb kl bl ko s) (h_p_regs : Part.regs ∈ kl := by assumption) (h_p_mem : Part.mem ∈ kl := by assumption) (h_p_ecc : Part.ecc ∈ kl := by assumption) (h_p_free : Part.free ∈ kl := by assumption) (h_p_flt : Part.flt ∈ kl := by assumption) (h_p_flw : Part.flw ∈ kl := by assumption) (h_b_FLT : blkFLT ∈ bl := by assumption) (h_b_FLW : blkFLW ∈ bl := by assumption) :
    Kept kb kl bl ko (cidxFree s) := by
  unfold cidxFree
  with_reducible repeat' first
    | assumption
    | (intro sx; refine (have hsx : Kept kb kl bl ko sx := ?_; ?_); on_goal 2 => (try clear_value sx))
    | (intro sx; try clear_value sx)
    | split
    | lift_lets
    | apply kept_ageNotify
    | apply kept_zeroCounter
    | apply kept_ite
    | dsimp only [sx]
    | refine Kept.of_mk ?_

theorem kept_deltaFlush {cid : Nat} {s : State} (h_s : Kept kb kl bl ko s) (h_p_regs : Part.regs ∈ kl := by assumption) (h_p_mem : Part.mem ∈ kl := by assumption) (h_p_ecc : Part.ecc ∈ kl := by assumption) (h_p_free : Part.free ∈ kl := by assumption) (h_p_flt : Part.flt ∈ kl := by assumption) (h_p_flw : Part.flw ∈ kl := by assumption) (h_b_FLT : blkFLT ∈ bl := by assumption) :
    Kept kb kl bl ko (deltaFlush cid s) := by
  unfold deltaFlush
  with_reducible repeat' first
    | assumption
    | apply kept_flushDelta
    | apply kept_ite
    | refine Kept.of_mk ?_
    | split

theorem kept_histAdd {a : Nat} {bin : Nat} {s : State} (h_s : Kept kb kl bl ko s) (h_p_regs : Part.regs ∈ kl := by assumption) (h_p_mem : Part.mem ∈ kl := by assumption) (h_p_ecc : Part.ecc ∈ kl := by assumption) (h_p_free : Part.free ∈ kl := by assumption) (h_p_flt : Part.flt ∈ kl := by assumption) (h_b_FLT : blkFLT ∈ bl := by assumption) :
    Kept kb kl bl ko (histAdd a bin s) := by
  unfold histAdd
  with_reducible repeat' first
    | assumption
    | (intro sx; refine (have hsx : Kept kb kl bl ko sx := ?_; ?_); on_goal 2 => (try clear_value sx))
    | (intro sx; refine (have hsx : Kept kb kl bl ko sx.2 := ?_; ?_); on_goal 2 => (try clear_value sx))
    | (intro sx; try clear_value sx)
    | lift_lets
    | apply kept_devWrite
    | apply kept_devRead
    | apply kept_ite
    | apply kept_ite2
    | refine Kept.of_mk ?_
    | split

theorem kept_histLeaf {key : Nat} {s : State} (h_s : Kept kb kl bl ko s) (h_p_regs : Part.regs ∈ kl := by assumption) (h_p_mem : Part.mem ∈ kl := by assumption) (h_p_ecc : Part.ecc ∈ kl := by assumption) (h_p_free : Part.free ∈ kl := by assumption) (h_p_flt : Part.flt ∈ kl := by assumption) (h_b_FLT : blkFLT ∈ bl := by assumption) :
    Kept kb kl bl ko (histLeaf key s) := by
  unfold histLeaf
  with_reducible repeat' first
    | assumption
    | (intro sx; refine (have hsx : Kept kb kl bl ko sx := ?_; ?_); on_goal 2 => (try clear_value sx))
    | (intro sx; try clear_value sx)
    | lift_lets
    | apply kept_histAdd
    | refine Kept.of_mk ?_

theorem kept_histSample {s : State} (h_s : Kept kb kl bl ko s) (h_p_regs : Part.regs ∈ kl := by assumption) (h_p_mem : Part.mem ∈ kl := by assumption) (h_p_ecc : Part.ecc ∈ kl := by assumption) (h_p_free : Part.free ∈ kl := by assumption) (h_p_flt : Part.flt ∈ kl := by assumption) (h_b_FLT : blkFLT ∈ bl := by assumption) (h_b_SCH : blkSCH ∈ bl := by assumption) :
    Kept kb kl bl ko (histSample s) := by
  unfold histSample
  with_reducible repeat' first
    | assumption
    | (refine mem_guard ?_; with_unfolding_all (first | assumption | exact (by assumption : ∀ n, n ∈ bl) _ | exact blk_n (by decide) (by decide) (by assumption) | exact blk_un (by decide) (by decide) (by decide) (by assumption) | exact blk_ite (by assumption) (by assumption) | exact blk_ite (by exact blk_n (by decide) (by decide) (by assumption)) (by exact blk_n (by decide) (by decide) (by assumption))))
    | apply kept_st_inc
    | apply kept_histLeaf
    | apply kept_ite
    | (apply kept_foldl; intro sy xy hy)
    | (apply kept_foldl2; intro sy xy hy)
    | (apply kept_foldl1; intro sy xy hy)
    | refine Kept.of_mk ?_
    | split

theorem kept_gateChange {p : Nat} {s : State} (h_s : Kept kb kl bl ko s) (h_p_regs : Part.regs ∈ kl := by assumption) (h_p_shadow : Part.shadow ∈ kl := by assumption) (h_p_cfg : Part.cfg ∈ kl := by assumption) (h_p_gcl : Part.gcl ∈ kl := by assumption) (h_p_mac : Part.mac ∈ kl := by assumption) (h_b_GCL : blkGCL ∈ bl := by assumption) (h_b_MAC : blkMAC ∈ bl := by assumption) :
    Kept kb kl bl ko (gateChange p s) := by
  unfold gateChange
  with_reducible repeat' first
    | assumption
    | (refine mem_guard ?_; with_unfolding_all (first | assumption | exact (by assumption : ∀ n, n ∈ bl) _ | exact blk_n (by decide) (by decide) (by assumption) | exact blk_un (by decide) (by decide) (by decide) (by assumption) | exact blk_ite (by assumption) (by assumption) | exact blk_ite (by exact blk_n (by decide) (by decide) (by assumption)) (by exact blk_n (by decide) (by decide) (by assumption))))
    | (intro sx; refine (have hsx : Kept kb kl bl ko sx := ?_; ?_); on_goal 2 => (try clear_value sx))
    | intro sx
    | lift_lets
    | apply kept_swapBank
    | apply kept_preFollow
    | apply kept_ite
    | split
    | dsimp only [sx]
    | refine Kept.of_mk ?_

theorem kept_gateEntry {p : Nat} {s : State} (h_s : Kept kb kl bl ko s) (h_p_regs : Part.regs ∈ kl := by assumption) (h_p_gcl : Part.gcl ∈ kl := by assumption) (h_p_mac : Part.mac ∈ kl := by assumption) (h_b_GCL : blkGCL ∈ bl := by assumption) (h_b_MAC : blkMAC ∈ bl := by assumption) :
    Kept kb kl bl ko (gateEntry p s) := by
  unfold gateEntry
  with_reducible repeat' first
    | assumption
    | apply kept_gateEntryStart
    | apply kept_preFollow
    | refine Kept.of_mk ?_

theorem kept_gateHold {p : Nat} {s : State} (h_s : Kept kb kl bl ko s) (h_p_regs : Part.regs ∈ kl := by assumption) (h_p_mac : Part.mac ∈ kl := by assumption) (h_b_GCL : blkGCL ∈ bl := by assumption) (h_b_MAC : blkMAC ∈ bl := by assumption) :
    Kept kb kl bl ko (gateHold p s) := by
  unfold gateHold
  with_reducible repeat' first
    | assumption
    | (refine mem_guard ?_; with_unfolding_all (first | assumption | exact (by assumption : ∀ n, n ∈ bl) _ | exact blk_n (by decide) (by decide) (by assumption) | exact blk_un (by decide) (by decide) (by decide) (by assumption) | exact blk_ite (by assumption) (by assumption) | exact blk_ite (by exact blk_n (by decide) (by decide) (by assumption)) (by exact blk_n (by decide) (by decide) (by assumption))))
    | apply kept_st_put
    | apply kept_preFollow
    | apply kept_ite
    | refine Kept.of_mk ?_
    | split

theorem kept_gateRelease {p : Nat} {s : State} (h_s : Kept kb kl bl ko s) (h_p_regs : Part.regs ∈ kl := by assumption) (h_p_mac : Part.mac ∈ kl := by assumption) (h_b_GCL : blkGCL ∈ bl := by assumption) (h_b_MAC : blkMAC ∈ bl := by assumption) :
    Kept kb kl bl ko (gateRelease p s) := by
  unfold gateRelease
  with_reducible repeat' first
    | assumption
    | (refine mem_guard ?_; with_unfolding_all (first | assumption | exact (by assumption : ∀ n, n ∈ bl) _ | exact blk_n (by decide) (by decide) (by assumption) | exact blk_un (by decide) (by decide) (by decide) (by assumption) | exact blk_ite (by assumption) (by assumption) | exact blk_ite (by exact blk_n (by decide) (by decide) (by assumption)) (by exact blk_n (by decide) (by decide) (by assumption))))
    | apply kept_st_put
    | apply kept_preFollow
    | apply kept_ite
    | refine Kept.of_mk ?_
    | split

theorem kept_gateOutside {k : Nat} {s : State} (h_s : Kept kb kl bl ko s) (h_p_regs : Part.regs ∈ kl := by assumption) (h_p_cfg : Part.cfg ∈ kl := by assumption) (h_p_flt : Part.flt ∈ kl := by assumption) (h_p_cel : Part.cel ∈ kl := by assumption) (h_p_sch : Part.sch ∈ kl := by assumption) (h_p_kln : Part.kln ∈ kl := by assumption) (h_p_act : Part.act ∈ kl := by assumption) (h_p_ube : Part.ube ∈ kl := by assumption) (h_p_chp : Part.chp ∈ kl := by assumption) (h_p_dsf : Part.dsf ∈ kl := by assumption) (h_p_ohs : Part.ohs ∈ kl := by assumption) (h_p_pipes : Part.pipes ∈ kl := by assumption) (h_p_spc : Part.spc ∈ kl := by assumption) (h_p_tim : Part.tim ∈ kl := by assumption) (h_b_CFG : blkCFG ∈ bl := by assumption) (h_b_FLT : blkFLT ∈ bl := by assumption) (h_b_LPH : blkLPH ∈ bl := by assumption) (h_b_DSF : blkDSF ∈ bl := by assumption) (h_b_ACT : blkACT ∈ bl := by assumption) (h_b_UBE : blkUBE ∈ bl := by assumption) (h_b_CHP : blkCHP ∈ bl := by assumption) (h_b_SPC : blkSPC ∈ bl := by assumption) (h_b_CEL : blkCEL ∈ bl := by assumption) (h_b_KLN : blkKLN ∈ bl := by assumption) (h_b_TIM : blkTIM ∈ bl := by assumption) :
    Kept kb kl bl ko (gateOutside k s) := by
  unfold gateOutside
  with_reducible repeat' first
    | assumption
    | apply kept_shutDown
    | apply kept_ite
    | split
    | refine Kept.of_mk ?_

theorem kept_clockLost {k : Nat} {s : State} (h_s : Kept kb kl bl ko s) (h_p_regs : Part.regs ∈ kl := by assumption) (h_p_cfg : Part.cfg ∈ kl := by assumption) (h_p_flt : Part.flt ∈ kl := by assumption) (h_p_cel : Part.cel ∈ kl := by assumption) (h_p_sch : Part.sch ∈ kl := by assumption) (h_p_kln : Part.kln ∈ kl := by assumption) (h_p_act : Part.act ∈ kl := by assumption) (h_p_ube : Part.ube ∈ kl := by assumption) (h_p_chp : Part.chp ∈ kl := by assumption) (h_p_dsf : Part.dsf ∈ kl := by assumption) (h_p_ohs : Part.ohs ∈ kl := by assumption) (h_p_pipes : Part.pipes ∈ kl := by assumption) (h_p_spc : Part.spc ∈ kl := by assumption) (h_p_tim : Part.tim ∈ kl := by assumption) (h_b_CFG : blkCFG ∈ bl := by assumption) (h_b_FLT : blkFLT ∈ bl := by assumption) (h_b_LPH : blkLPH ∈ bl := by assumption) (h_b_DSF : blkDSF ∈ bl := by assumption) (h_b_ACT : blkACT ∈ bl := by assumption) (h_b_UBE : blkUBE ∈ bl := by assumption) (h_b_CHP : blkCHP ∈ bl := by assumption) (h_b_SPC : blkSPC ∈ bl := by assumption) (h_b_CEL : blkCEL ∈ bl := by assumption) (h_b_KLN : blkKLN ∈ bl := by assumption) (h_b_TIM : blkTIM ∈ bl := by assumption) :
    Kept kb kl bl ko (clockLost k s) := by
  unfold clockLost
  with_reducible repeat' first
    | assumption
    | (refine mem_guard ?_; with_unfolding_all (first | assumption | exact (by assumption : ∀ n, n ∈ bl) _ | exact blk_n (by decide) (by decide) (by assumption) | exact blk_un (by decide) (by decide) (by decide) (by assumption) | exact blk_ite (by assumption) (by assumption) | exact blk_ite (by exact blk_n (by decide) (by decide) (by assumption)) (by exact blk_n (by decide) (by decide) (by assumption))))
    | apply kept_shutDown
    | apply kept_st_put
    | apply kept_ite
    | refine Kept.of_mk ?_
    | split

theorem kept_gateTooLong {k : Nat} {symbols : Nat} {s : State} (h_s : Kept kb kl bl ko s) (h_p_regs : Part.regs ∈ kl := by assumption) (h_p_cfg : Part.cfg ∈ kl := by assumption) (h_p_flt : Part.flt ∈ kl := by assumption) (h_p_cel : Part.cel ∈ kl := by assumption) (h_p_sch : Part.sch ∈ kl := by assumption) (h_p_kln : Part.kln ∈ kl := by assumption) (h_p_act : Part.act ∈ kl := by assumption) (h_p_ube : Part.ube ∈ kl := by assumption) (h_p_chp : Part.chp ∈ kl := by assumption) (h_p_dsf : Part.dsf ∈ kl := by assumption) (h_p_ohs : Part.ohs ∈ kl := by assumption) (h_p_pipes : Part.pipes ∈ kl := by assumption) (h_p_spc : Part.spc ∈ kl := by assumption) (h_p_tim : Part.tim ∈ kl := by assumption) (h_b_CFG : blkCFG ∈ bl := by assumption) (h_b_FLT : blkFLT ∈ bl := by assumption) (h_b_LPH : blkLPH ∈ bl := by assumption) (h_b_DSF : blkDSF ∈ bl := by assumption) (h_b_ACT : blkACT ∈ bl := by assumption) (h_b_UBE : blkUBE ∈ bl := by assumption) (h_b_CHP : blkCHP ∈ bl := by assumption) (h_b_SPC : blkSPC ∈ bl := by assumption) (h_b_CEL : blkCEL ∈ bl := by assumption) (h_b_KLN : blkKLN ∈ bl := by assumption) (h_b_TIM : blkTIM ∈ bl := by assumption) :
    Kept kb kl bl ko (gateTooLong k symbols s) := by
  unfold gateTooLong
  with_reducible repeat' first
    | assumption
    | apply kept_shutDown
    | apply kept_ite
    | refine Kept.of_mk ?_
    | split

theorem kept_dividerOff {k : Nat} {diff : Nat} {s : State} (h_s : Kept kb kl bl ko s) (h_p_regs : Part.regs ∈ kl := by assumption) (h_p_cfg : Part.cfg ∈ kl := by assumption) (h_p_flt : Part.flt ∈ kl := by assumption) (h_p_cel : Part.cel ∈ kl := by assumption) (h_p_sch : Part.sch ∈ kl := by assumption) (h_p_kln : Part.kln ∈ kl := by assumption) (h_p_act : Part.act ∈ kl := by assumption) (h_p_ube : Part.ube ∈ kl := by assumption) (h_p_chp : Part.chp ∈ kl := by assumption) (h_p_dsf : Part.dsf ∈ kl := by assumption) (h_p_ohs : Part.ohs ∈ kl := by assumption) (h_p_pipes : Part.pipes ∈ kl := by assumption) (h_p_spc : Part.spc ∈ kl := by assumption) (h_p_tim : Part.tim ∈ kl := by assumption) (h_b_CFG : blkCFG ∈ bl := by assumption) (h_b_FLT : blkFLT ∈ bl := by assumption) (h_b_LPH : blkLPH ∈ bl := by assumption) (h_b_DSF : blkDSF ∈ bl := by assumption) (h_b_ACT : blkACT ∈ bl := by assumption) (h_b_UBE : blkUBE ∈ bl := by assumption) (h_b_CHP : blkCHP ∈ bl := by assumption) (h_b_SPC : blkSPC ∈ bl := by assumption) (h_b_CEL : blkCEL ∈ bl := by assumption) (h_b_KLN : blkKLN ∈ bl := by assumption) (h_b_TIM : blkTIM ∈ bl := by assumption) :
    Kept kb kl bl ko (dividerOff k diff s) := by
  unfold dividerOff
  with_reducible repeat' first
    | assumption
    | apply kept_shutDown
    | apply kept_ite
    | refine Kept.of_mk ?_
    | split

theorem kept_releaseChannel {i : Initiator} {k : Nat} {v : Word} {held : Bool} {pass : Bool} {s : State} (h_s : Kept kb kl bl ko s) (h_full : ∀ p, p ≠ Part.pending → p ≠ Part.free → p ∈ kl := by assumption) (h_p_free : Part.free ∈ kl := by assumption) (h_all : ∀ n, n ∈ bl := by assumption) :
    Kept kb kl bl ko (releaseChannel i k v held pass s) := by
  unfold releaseChannel
  obtain ⟨h_p_regs, h_p_shadow, h_p_mem, h_p_ecc, h_p_readOut, h_p_ticks, h_p_tod, h_p_cfg, h_p_flt, h_p_tsk, h_p_harts, h_p_acu, h_p_pwr, h_p_cel, h_p_sch, h_p_gcl, h_p_kln, h_p_act, h_p_ube, h_p_chp, h_p_dsf, h_p_ohs, h_p_pipes, h_p_cls, h_p_flw, h_p_spc, h_p_mac, h_p_lph, h_p_tim, h_p_cas, h_p_clk, h_p_tap, h_p_boot, h_p_power⟩ := full_parts h_full
  have h_b_CFG : blkCFG ∈ bl := h_all _
  have h_b_CLK : blkCLK ∈ bl := h_all _
  have h_b_PWR : blkPWR ∈ bl := h_all _
  have h_b_FLT : blkFLT ∈ bl := h_all _
  have h_b_TSK : blkTSK ∈ bl := h_all _
  have h_b_ACU : blkACU ∈ bl := h_all _
  have h_b_LPH : blkLPH ∈ bl := h_all _
  have h_b_DSF : blkDSF ∈ bl := h_all _
  have h_b_ACT : blkACT ∈ bl := h_all _
  have h_b_UBE : blkUBE ∈ bl := h_all _
  have h_b_CHP : blkCHP ∈ bl := h_all _
  have h_b_PRS : blkPRS ∈ bl := h_all _
  have h_b_CLS : blkCLS ∈ bl := h_all _
  have h_b_FLW : blkFLW ∈ bl := h_all _
  have h_b_SPC : blkSPC ∈ bl := h_all _
  have h_b_CEL : blkCEL ∈ bl := h_all _
  have h_b_SCH : blkSCH ∈ bl := h_all _
  have h_b_GCL : blkGCL ∈ bl := h_all _
  have h_b_CIP : blkCIP ∈ bl := h_all _
  have h_b_KLN : blkKLN ∈ bl := h_all _
  have h_b_MAC : blkMAC ∈ bl := h_all _
  have h_b_TIM : blkTIM ∈ bl := h_all _
  have h_b_OHS : blkOHS ∈ bl := h_all _
  have h_b_CAS : blkCAS ∈ bl := h_all _
  with_reducible repeat' first
    | assumption
    | (intro sx; refine (have hsx : Kept kb kl bl ko sx := ?_; ?_); on_goal 2 => (try clear_value sx))
    | (intro sx; refine (have hsx : Kept kb kl bl ko sx.1 := ?_; ?_); on_goal 2 => (try clear_value sx))
    | (intro sx; try clear_value sx)
    | lift_lets
    | apply kept_actPoll
    | apply kept_chpRelease
    | apply kept_regAccess
    | apply kept_ite
    | apply kept_ite1
    | refine Kept.of_mk ?_
    | split

theorem kept_casLine {g : Nat} {line : List (List Bool)} {m : CasMore} {s : State} (h_s : Kept kb kl bl ko s) (h_p_regs : Part.regs ∈ kl := by assumption) (h_p_shadow : Part.shadow ∈ kl := by assumption) (h_p_tod : Part.tod ∈ kl := by assumption) (h_p_cfg : Part.cfg ∈ kl := by assumption) (h_p_gcl : Part.gcl ∈ kl := by assumption) (h_p_dsf : Part.dsf ∈ kl := by assumption) (h_p_tim : Part.tim ∈ kl := by assumption) (h_p_cas : Part.cas ∈ kl := by assumption) (h_b_DSF : blkDSF ∈ bl := by assumption) (h_b_GCL : blkGCL ∈ bl := by assumption) (h_b_TIM : blkTIM ∈ bl := by assumption) (h_b_CAS : blkCAS ∈ bl := by assumption) :
    Kept kb kl bl ko (casLine g line m s) := by
  unfold casLine
  with_reducible repeat' first
    | assumption
    | (intro sx; refine (have hsx : Kept kb kl bl ko sx := ?_; ?_); on_goal 2 => (try clear_value sx))
    | (intro sx; refine (have hsx : Kept kb kl bl ko sx.2 := ?_; ?_); on_goal 2 => (try clear_value sx))
    | (intro sx; try clear_value sx)
    | lift_lets
    | apply kept_casReceived
    | apply kept_casArrive
    | refine Kept.of_mk ?_

theorem kept_casTyped {type : Nat} {op : Nat} {g : Nat} {line : List (List Bool)} {m : CasMore} {s : State} (h_s : Kept kb kl bl ko s) (h_p_regs : Part.regs ∈ kl := by assumption) (h_p_shadow : Part.shadow ∈ kl := by assumption) (h_p_tod : Part.tod ∈ kl := by assumption) (h_p_cfg : Part.cfg ∈ kl := by assumption) (h_p_gcl : Part.gcl ∈ kl := by assumption) (h_p_dsf : Part.dsf ∈ kl := by assumption) (h_p_tim : Part.tim ∈ kl := by assumption) (h_p_cas : Part.cas ∈ kl := by assumption) (h_b_DSF : blkDSF ∈ bl := by assumption) (h_b_GCL : blkGCL ∈ bl := by assumption) (h_b_TIM : blkTIM ∈ bl := by assumption) (h_b_CAS : blkCAS ∈ bl := by assumption) :
    Kept kb kl bl ko (casTyped type op g line m s) := by
  unfold casTyped
  with_reducible repeat' first
    | assumption
    | (intro sx; refine (have hsx : Kept kb kl bl ko sx := ?_; ?_); on_goal 2 => (try clear_value sx))
    | (intro sx; refine (have hsx : Kept kb kl bl ko sx.2 := ?_; ?_); on_goal 2 => (try clear_value sx))
    | (intro sx; try clear_value sx)
    | lift_lets
    | apply kept_casReceived
    | apply kept_casArrive
    | apply kept_ite
    | apply kept_ite2
    | refine Kept.of_mk ?_
    | split

theorem kept_fecCount {p : Nat} {corr : Nat} {unc : Nat} {s : State} (h_s : Kept kb kl bl ko s) (h_p_regs : Part.regs ∈ kl := by assumption) (h_b_MAC : blkMAC ∈ bl := by assumption) :
    Kept kb kl bl ko (fecCount p corr unc s) := by
  unfold fecCount
  with_reducible repeat' first
    | assumption
    | (refine mem_guard ?_; with_unfolding_all (first | assumption | exact (by assumption : ∀ n, n ∈ bl) _ | exact blk_n (by decide) (by decide) (by assumption) | exact blk_un (by decide) (by decide) (by decide) (by assumption) | exact blk_ite (by assumption) (by assumption) | exact blk_ite (by exact blk_n (by decide) (by decide) (by assumption)) (by exact blk_n (by decide) (by decide) (by assumption))))
    | apply kept_st_addTo
    | apply kept_ite
    | refine Kept.of_mk ?_
    | split

theorem kept_fwServe {err : Bool} {s : State} (h_s : Kept kb kl bl ko s) (h_p_regs : Part.regs ∈ kl := by assumption) (h_p_mem : Part.mem ∈ kl := by assumption) (h_p_ecc : Part.ecc ∈ kl := by assumption) (h_p_free : Part.free ∈ kl := by assumption) (h_p_flt : Part.flt ∈ kl := by assumption) (h_p_tsk : Part.tsk ∈ kl := by assumption) (h_p_kln : Part.kln ∈ kl := by assumption) (h_b_FLT : blkFLT ∈ bl := by assumption) (h_b_TSK : blkTSK ∈ bl := by assumption) (h_b_CIP : blkCIP ∈ bl := by assumption) (h_b_KLN : blkKLN ∈ bl := by assumption) :
    Kept kb kl bl ko (fwServe err s) := by
  unfold fwServe
  with_reducible repeat' first
    | assumption
    | (intro sx; refine (have hsx : Kept kb kl bl ko sx := ?_; ?_); on_goal 2 => (try clear_value sx))
    | (intro sx; try clear_value sx)
    | lift_lets
    | apply kept_fwDescriptor
    | apply kept_hwEvent
    | apply kept_ite
    | refine Kept.of_mk ?_
    | split

theorem kept_cipherDone {src : CipSrc} {s : State} (h_s : Kept kb kl bl ko s) (h_p_regs : Part.regs ∈ kl := by assumption) (h_p_kln : Part.kln ∈ kl := by assumption) (h_p_pipes : Part.pipes ∈ kl := by assumption) (h_p_spc : Part.spc ∈ kl := by assumption) (h_b_CLS : blkCLS ∈ bl := by assumption) (h_b_SPC : blkSPC ∈ bl := by assumption) (h_b_CIP : blkCIP ∈ bl := by assumption) :
    Kept kb kl bl ko (cipherDone src s) := by
  unfold cipherDone
  with_reducible repeat' first
    | assumption
    | (refine kept_pair2 (by assumption) ?_)
    | (intro sx; refine (have hsx : Kept kb kl bl ko sx := ?_; ?_); on_goal 2 => (try clear_value sx))
    | (intro sx; refine (have hsx : Kept kb kl bl ko sx.2 := ?_; ?_); on_goal 2 => (try clear_value sx))
    | (intro sx; try clear_value sx)
    | lift_lets
    | apply kept_aheadDone
    | apply kept_cipComplete
    | split
    | dsimp only [sx]
    | refine Kept.of_mk ?_

theorem kept_st_withFetchWord {s : State} {nbits : Nat} {w : Nat} (h_s : Kept kb kl bl ko s) (h_p_pending : Part.pending ∈ kl := by assumption) :
    Kept kb kl bl ko (State.withFetchWord s nbits w) := by
  unfold State.withFetchWord
  with_reducible repeat' first
    | assumption
    | split
    | refine Kept.of_mk ?_

end Sys2Proof.Machine
end

