-- ==== Sys2Proof/Laws/Lanes.lean ====
section
/-! SUPPORT. What one lane of a link group sends, one lane receives (R367, R368). -/

namespace Sys2Proof.Machine

/-- A lane that stands as the sender stood takes the sender's data bits, and stands as it stands. -/
theorem laneTake_laneSend (d : List Bool) : ∀ (x : CasLane) (rest : List Bool),
    laneTake d.length x ((laneSend x d).1 ++ rest) = (d, (laneSend x d).2, rest) := by
  induction d with
  | nil => intro x rest; rfl
  | cons b t ih =>
    intro x rest
    by_cases h : x.run = 31 <;> simp [laneSend, laneTake, h, ih]

/-- A byte is the byte of its bits. -/
theorem bitsByte_byteBits (b : Byte) : bitsByte (byteBits b) = b := by
  revert b; decide +kernel

theorem byteBits_length (b : Byte) : (byteBits b).length = 8 := by simp [byteBits]

/-- Bytes are the bytes of their bits. -/
theorem bitsBytes_flatMap (l : Bytes) (rest : List Bool) : bitsBytes l.length (l.flatMap byteBits ++ rest) = l := by
  induction l with
  | nil => rfl
  | cons b t ih =>
    have h := byteBits_length b
    simp [bitsBytes, h, List.append_assoc, bitsByte_byteBits, ih]

/-- Blocks of 64 bits of bytes are the blocks of 8 bytes. -/
theorem flatMap_drop (l : Bytes) (n : Nat) : (l.flatMap byteBits).drop (8 * n) = (l.drop n).flatMap byteBits := by
  induction n generalizing l with
  | zero => rfl
  | succ n ih =>
    cases l with
    | nil => simp
    | cons b t =>
      have h := byteBits_length b
      have e : 8 * (n + 1) = 8 + 8 * n := by omega
      rw [e, ← List.drop_drop]
      simp [h, ih]

/-- The bits of the first bytes come first. -/
theorem flatMap_take (l : Bytes) (n : Nat) : (l.flatMap byteBits).take (8 * n) = (l.take n).flatMap byteBits := by
  induction n generalizing l with
  | zero => rfl
  | succ n ih =>
    cases l with
    | nil => simp
    | cons b t =>
      have h := byteBits_length b
      have e : 8 * (n + 1) = 8 + 8 * n := by omega
      rw [e, List.take_add]
      simp [h, ih]

/-- Blocks of 8 bytes in order are the bytes. -/
theorem flatMap_slice (c : Bytes) (n : Nat) : (List.range n).flatMap (fun k => slice c (8 * k) 8) = c.take (8 * n) := by
  induction n with
  | zero => simp
  | succ n ih => rw [List.range_succ, List.flatMap_append, ih]; simp [slice, Nat.mul_succ, List.take_add]

/-- One lane carries every block. -/
theorem laneBlocks_one (i : Nat) : laneBlocks 1 i 0 = List.range 32 := by
  simp [laneBlocks, laneOf, Nat.mod_one]

/-- One lane carries the bits of the container. -/
theorem laneData_one (i : Nat) (c : Bytes) (h : c.length = 256) : laneData 1 i 0 c = c.flatMap byteBits := by
  rw [laneData, laneBlocks_one, ← List.flatMap_assoc, flatMap_slice, List.take_of_length_le (by omega)]

/-- A group of one lane that stands as the sender stood receives the container. -/
theorem groupTake_groupSend_one (x : CasLane) (i : Nat) (c : Bytes) (h : c.length = 256) :
    (groupTake [x] i (groupSend [x] i c).1).1 = c := by
  have hl : (c.flatMap byteBits).length = 64 * 32 := by
    simp only [List.length_flatMap, byteBits_length, List.map_const', List.sum_replicate, h]; rfl
  have key (y : CasLane) : laneTake 2048 y (laneSend y (c.flatMap byteBits)).1 = (c.flatMap byteBits, (laneSend y (c.flatMap byteBits)).2, []) := by
    have := laneTake_laneSend (c.flatMap byteBits) y []
    rwa [hl, List.append_nil] at this
  have block (k : Nat) (hk : k < 32) : bitsBytes 8 (((c.flatMap byteBits).drop (64 * k)).take 64) = slice c (8 * k) 8 := by
    have e : 64 * k = 8 * (8 * k) := by omega
    have l8 : (slice c (8 * k) 8).length = 8 := by simp [slice]; omega
    have s := bitsBytes_flatMap (slice c (8 * k) 8) []
    rw [l8, List.append_nil] at s
    rw [e, flatMap_drop, ← s]
    congr 1
    have := flatMap_take (c.drop (8 * k)) 8
    simpa [slice] using this
  have done : (List.range 32).flatMap (fun k => bitsBytes 8 (((c.flatMap byteBits).drop (64 * k)).take 64)) = c := by
    have : (List.range 32).flatMap (fun k => bitsBytes 8 (((c.flatMap byteBits).drop (64 * k)).take 64)) =
        (List.range 32).flatMap (fun k => slice c (8 * k) 8) := by
      apply List.flatMap_congr; intro k hk; exact block k (List.mem_range.mp hk)
    rw [this, flatMap_slice, List.take_of_length_le (by omega)]
  by_cases hd : commaPeriod 1 ≤ i
  · have hdrop (l : List Bool) : (commaBits ++ l).drop 40 = l := List.drop_left' rfl
    have hc (l : List Bool) : x.comma (commaBits ++ l) = x.comma commaBits := by
      have e : (commaBits ++ l).take 40 = commaBits := List.take_left' rfl
      have e' : commaBits.take 40 = commaBits := rfl
      rw [CasLane.comma, CasLane.comma, e, e']
    simp [groupTake, groupSend, hd, laneBlocks_one, laneData_one _ _ h, laneOf, Nat.mod_one, hc, hdrop, key, done]
  · simp [groupTake, groupSend, hd, laneBlocks_one, laneData_one _ _ h, laneOf, Nat.mod_one, key, done]

end Sys2Proof.Machine
end

