-- ==== Sys2Proof/Laws/Mem.lean ====
section
/-! SUPPORT. Memory laws: a byte written is the byte read, every other byte is as it was, and a word written reads back. -/

namespace Sys2Proof.Machine

@[simp] theorem memByte_setByte_same (s : State) (a : Nat) (b : Byte) : (s.setByte a b).memByte a = b := SMap.get_set_same _ _ _ _

theorem memByte_setByte_ne (s : State) {a x : Nat} (b : Byte) (h : x ≠ a) : (s.setByte a b).memByte x = s.memByte x :=
  SMap.get_set_ne _ _ _ _ _ h

/-- Bytes outside the range written are as they were. -/
theorem memByte_setBytes_out (s : State) {a x : Nat} (l : Bytes) (h : x < a ∨ a + l.length ≤ x) :
    (s.setBytes a l).memByte x = s.memByte x := by
  induction l generalizing s a with
  | nil => rfl
  | cons b l ih =>
    simp only [List.length_cons] at h
    show (((s.setByte a b).setEcc a 0).setBytes (a + 1) l).memByte x = _
    rw [ih _ (by omega), memByte_setEcc, memByte_setByte_ne _ _ (by omega)]

/-- Bytes in the range read as written. -/
theorem memByte_setBytes_in (s : State) {a i : Nat} (l : Bytes) (h : i < l.length) : (s.setBytes a l).memByte (a + i) = l[i] := by
  induction l generalizing s a i with
  | nil => exact absurd h (by simp)
  | cons b l ih =>
    show (((s.setByte a b).setEcc a 0).setBytes (a + 1) l).memByte (a + i) = _
    cases i with
    | zero => rw [memByte_setBytes_out _ _ (by omega), memByte_setEcc]; exact memByte_setByte_same _ _ _
    | succ i =>
      have := ih ((s.setByte a b).setEcc a 0) (a := a + 1) (i := i) (by simpa using h)
      rw [Nat.add_right_comm, Nat.add_assoc] at this
      simpa [Nat.add_assoc, Nat.add_comm 1 i] using this

theorem length_beBytes (k n : Nat) : (beBytes k n).length = k := by
  induction k with
  | zero => rfl
  | succ k ih => simp [beBytes, ih]

@[simp] theorem length_wordBytes (w : Word) : (wordBytes w).length = 8 := length_beBytes _ _

/-- The bytes of a range after they were written. -/
theorem memBytes_setBytes (s : State) (a : Nat) (l : Bytes) : (s.setBytes a l).memBytes a l.length = l := by
  unfold State.memBytes
  apply List.ext_getElem
  · simp
  · intro i h1 h2
    simp only [List.getElem_map, List.getElem_range]
    exact memByte_setBytes_in s l h2

theorem wordAt_wordBytes (w : Word) : wordAt (wordBytes w) 0 = w := by
  apply BitVec.eq_of_toNat_eq
  have h := w.isLt
  simp only [wordAt, wordBytes, beBytes, beAt, slice, beNat, byte, List.drop_zero, List.take, List.foldl, BitVec.toNat_ofNat]
  omega

/-- A word written reads back. -/
theorem memWord_setWord (s : State) (a : Nat) (v : Word) : (s.setWord a v).memWord a = v := by
  unfold State.memWord State.setWord
  have := memBytes_setBytes s a (wordBytes v)
  rw [length_wordBytes] at this
  rw [this, wordAt_wordBytes]

/-- Writing memory changes memory and the marks of its words, nothing else. -/
theorem setBytes_eq (s : State) (a : Nat) (l : Bytes) :
    s.setBytes a l = { s with mem := (s.setBytes a l).mem, ecc := (s.setBytes a l).ecc } := by
  induction l generalizing s a with
  | nil => rfl
  | cons b l ih =>
    show ((s.setByte a b).setEcc a 0).setBytes (a + 1) l = _
    rw [ih]; rfl

@[simp] theorem reg_setBytes (s : State) (a : Nat) (l : Bytes) (x : Nat) : (s.setBytes a l).reg x = s.reg x := by
  rw [setBytes_eq]; exact reg_mk _ _

end Sys2Proof.Machine
end

