-- ==== Sys2Proof/Laws/Stored.lean ====
section
/-! SUPPORT. How the fields of a written word are stored: each RW field takes its own bits, clamped to its range, each W1C
field loses the bits written 1, and every other field of the register keeps its value. -/

namespace Sys2Proof.Machine

/-- The fields of a row lie in the word. -/
def RegRow.fits (r : RegRow) : Prop := ∀ f ∈ r.fields, f.lo + f.w ≤ 64

/-- Two fields share no bit. -/
def FieldRow.apart (f g : FieldRow) : Prop := f.lo + f.w ≤ g.lo ∨ g.lo + g.w ≤ f.lo

/-- The check of both, for the whole table. -/
def fieldsTidy : List FieldRow → Bool
  | [] => true
  | f :: l => decide (f.lo + f.w ≤ 64) && l.all (fun g => decide (f.lo + f.w ≤ g.lo) || decide (g.lo + g.w ≤ f.lo)) && fieldsTidy l

theorem fieldsTidy_sound {l : List FieldRow} (h : fieldsTidy l = true) :
    (∀ f ∈ l, f.lo + f.w ≤ 64) ∧ l.Pairwise FieldRow.apart := by
  induction l with
  | nil => exact ⟨by simp, List.Pairwise.nil⟩
  | cons f l ih =>
    simp only [fieldsTidy, Bool.and_eq_true, decide_eq_true_eq, List.all_eq_true, Bool.or_eq_true] at h
    obtain ⟨⟨h1, h2⟩, h3⟩ := h
    obtain ⟨a, b⟩ := ih h3
    refine ⟨fun g hg => ?_, List.pairwise_cons.2 ⟨fun g hg => h2 g hg, b⟩⟩
    rcases List.mem_cons.1 hg with rfl | hg
    · exact h1
    · exact a g hg

/-- Every register that a write stores anything in has its fields apart (three time stamps, which are read only, show one
register's words in two layouts). -/
theorem regRows_tidy : regRows.all (fun r => r.fields.all (·.kind == .ro) || fieldsTidy r.fields) = true := by decide +kernel

theorem regRow_tidy {a : Nat} {r : RegRow} (h : regRow? a = some r) (hk : ∃ f ∈ r.fields, f.kind ≠ .ro) :
    (∀ f ∈ r.fields, f.lo + f.w ≤ 64) ∧ r.fields.Pairwise FieldRow.apart := by
  have := List.all_eq_true.1 regRows_tidy r (List.mem_of_find?_eq_some h)
  rcases Bool.or_eq_true _ _ ▸ this with h1 | h1
  · obtain ⟨f, hf, hn⟩ := hk
    exact absurd (by simpa using List.all_eq_true.1 h1 f hf) hn
  · exact fieldsTidy_sound h1

/-- A field that none of a list of written fields shares a bit with is as it was. -/
theorem fieldOf_fold_other {g : Word → FieldRow → Nat} {l : List FieldRow} (hl : ∀ f ∈ l, f.lo + f.w ≤ 64) {lo w : Nat}
    (h : lo + w ≤ 64) (hd : ∀ f ∈ l, f.lo + f.w ≤ lo ∨ lo + w ≤ f.lo) (v : Word) :
    fieldOf (l.foldl (fun u f => setField u f.lo f.w (g u f)) v) lo w = fieldOf v lo w := by
  induction l generalizing v with
  | nil => rfl
  | cons f l ih =>
    rw [List.foldl_cons, ih (fun f hf => hl f (List.mem_cons_of_mem _ hf)) (fun f hf => hd f (List.mem_cons_of_mem _ hf)),
      fieldOf_setField_disj _ (hl f List.mem_cons_self) h _ (hd f List.mem_cons_self)]

/-- A field of the list takes its value, where that depends on the field's old value alone. -/
theorem fieldOf_fold_mem {g : Word → FieldRow → Nat} {l : List FieldRow} (hl : ∀ f ∈ l, f.lo + f.w ≤ 64)
    (hp : l.Pairwise FieldRow.apart) {f : FieldRow} (hf : f ∈ l)
    (hg : ∀ u v, fieldOf u f.lo f.w = fieldOf v f.lo f.w → g u f = g v f) (v : Word) :
    fieldOf (l.foldl (fun u f => setField u f.lo f.w (g u f)) v) f.lo f.w = g v f % 2 ^ f.w := by
  induction l generalizing v with
  | nil => nomatch hf
  | cons x l ih =>
    obtain ⟨h1, h2⟩ := List.pairwise_cons.1 hp
    rw [List.foldl_cons]
    by_cases hm : f ∈ l
    · rw [ih (fun f hf => hl f (List.mem_cons_of_mem _ hf)) h2 hm]
      congr 1
      exact hg _ _ (fieldOf_setField_disj _ (hl x List.mem_cons_self) (hl f hf) _ (h1 f hm))
    · have : f = x := by simpa [hm] using hf
      subst this
      rw [fieldOf_fold_other (fun f hf => hl f (List.mem_cons_of_mem _ hf)) (hl f List.mem_cons_self)
        (fun y hy => (h1 y hy).symm), fieldOf_setField_same _ (hl f List.mem_cons_self)]

/-- The word that a write leaves in a register with RW and W1C fields. -/
def storedWord (r : RegRow) (v u : Word) : Word := storeW1c r v (storeKind .rw r v u)

theorem mem_filter_kind {r : RegRow} {k : Kind} {f : FieldRow} : f ∈ r.fields.filter (·.kind == k) ↔ f ∈ r.fields ∧ f.kind = k := by
  simp

/-- Two fields of a tidy row are one or apart. -/
theorem fields_apart {r : RegRow} (hp : r.fields.Pairwise FieldRow.apart) {f g : FieldRow} (hf : f ∈ r.fields) (hg : g ∈ r.fields)
    (hn : f ≠ g) : f.apart g := by
  revert hp hf hg
  generalize r.fields = l
  intro hp hf hg
  induction l with
  | nil => nomatch hf
  | cons x l ih =>
    obtain ⟨h1, h2⟩ := List.pairwise_cons.1 hp
    rcases List.mem_cons.1 hf with e | hf' <;> rcases List.mem_cons.1 hg with e' | hg'
    · exact absurd (e.trans e'.symm) hn
    · exact e ▸ h1 g hg'
    · exact e' ▸ (h1 f hf').symm
    · exact ih h2 hf' hg'

/-- An RW field takes the value written, moved into its range. -/
theorem stored_rw {a : Nat} {r : RegRow} (h : regRow? a = some r) {f : FieldRow} (hf : f ∈ r.fields) (hk : f.kind = .rw) (v u : Word) :
    fieldOf (storedWord r v u) f.lo f.w = f.clamped v % 2 ^ f.w := by
  obtain ⟨h1, h2⟩ := regRow_tidy h ⟨f, hf, by simp [hk]⟩
  unfold storedWord storeW1c storeKind
  rw [fieldOf_fold_other (fun x hx => h1 x (mem_filter_kind.1 hx).1) (h1 f hf)
    (fun x hx => fields_apart h2 (mem_filter_kind.1 hx).1 hf (by rintro rfl; simp [hk] at hx))]
  exact fieldOf_fold_mem (g := fun _ f => f.clamped v) (fun x hx => h1 x (mem_filter_kind.1 hx).1) (h2.filter _)
    (mem_filter_kind.2 ⟨hf, hk⟩) (fun _ _ _ => rfl) u

/-- A W1C field loses the bits written 1. -/
theorem stored_w1c {a : Nat} {r : RegRow} (h : regRow? a = some r) {f : FieldRow} (hf : f ∈ r.fields) (hk : f.kind = .w1c) (v u : Word) :
    fieldOf (storedWord r v u) f.lo f.w = fieldOf u f.lo f.w - (fieldOf u f.lo f.w &&& fieldOf v f.lo f.w) := by
  obtain ⟨h1, h2⟩ := regRow_tidy h ⟨f, hf, by simp [hk]⟩
  have e : fieldOf (storeKind .rw r v u) f.lo f.w = fieldOf u f.lo f.w :=
    fieldOf_fold_other (g := fun _ f => f.clamped v) (fun x hx => h1 x (mem_filter_kind.1 hx).1) (h1 f hf)
      (fun x hx => fields_apart h2 (mem_filter_kind.1 hx).1 hf (by rintro rfl; simp [hk] at hx)) u
  unfold storedWord storeW1c
  dsimp only
  rw [fieldOf_fold_mem (g := fun w f => fieldOf w f.lo f.w - (fieldOf w f.lo f.w &&& fieldOf v f.lo f.w))
    (fun x hx => h1 x (mem_filter_kind.1 hx).1) (h2.filter _) (mem_filter_kind.2 ⟨hf, hk⟩)
    (fun a b e => by rw [e]), e]
  exact Nat.mod_eq_of_lt (Nat.lt_of_le_of_lt (Nat.sub_le _ _) (fieldOf_lt _ _ _))

/-- A field of another kind keeps its value. -/
theorem stored_other {a : Nat} {r : RegRow} (h : regRow? a = some r) {f : FieldRow} (hf : f ∈ r.fields) (hk : f.kind ≠ .rw)
    (hw : f.kind ≠ .w1c) (ho : ∃ g ∈ r.fields, g.kind ≠ .ro) (v u : Word) : fieldOf (storedWord r v u) f.lo f.w = fieldOf u f.lo f.w := by
  obtain ⟨h1, h2⟩ := regRow_tidy h ho
  unfold storedWord storeW1c storeKind
  rw [fieldOf_fold_other (fun x hx => h1 x (mem_filter_kind.1 hx).1) (h1 f hf)
    (fun x hx => fields_apart h2 (mem_filter_kind.1 hx).1 hf (by rintro rfl; simp [hw] at hx))]
  exact fieldOf_fold_other (g := fun _ f => f.clamped v) (fun x hx => h1 x (mem_filter_kind.1 hx).1) (h1 f hf)
    (fun x hx => fields_apart h2 (mem_filter_kind.1 hx).1 hf (by rintro rfl; simp [hk] at hx)) u

/-- A field that may hold every value of its width is stored as written. -/
theorem clamped_full {f : FieldRow} (h : f.mn = 0) (hx : f.mx = ((2 ^ f.w - 1 : Nat) : Int)) (v : Word) : f.clamped v = fieldOf v f.lo f.w := by
  have hl := fieldOf_lt v f.lo f.w
  unfold FieldRow.clamped clamp
  dsimp only
  rw [h, hx, if_neg (by omega)]
  have e : ((2 ^ f.w - 1 : Nat) : Int).toNat = 2 ^ f.w - 1 := rfl
  rw [e, if_neg (by simp), if_neg (by omega)]

end Sys2Proof.Machine
end

