-- ==== Sys2Proof/WellFormed.lean ====
section
/-! DEFINITION. Commands that the outside can send: byte strings have the lengths that the spec gives them, and an access
other than a whole word addresses a register. -/

namespace Sys2Proof

/-- Line bits of a container: at most four lanes; a lane of one carries 2,048 data bits, a comma and at most 67 stuffed bits
(R367). -/
def lineOk (line : List (List Bool)) : Bool :=
  decide (line.length ≤ 4) && line.all (fun l => decide (l.length ≤ 2155))

/-- The command is well formed. -/
def Instr.wellFormed (x : Instr) : Bool :=
  match x with
  | .powerUp => true
  | .vrEnRise => true
  | .vrEnFall => true
  | .powerLoss _ => true
  | .resetNAssert => true
  | .resetRelease _ _ => true
  | .sfdpReadDone _ _ _ => true
  | .copyHeadersRead a b _ _ => a.length == 1024 && b.length == 1024
  | .copyValidated _ _ => true
  | .hbmBootTraining _ _ _ _ => true
  | .baseFirmwareEntry => true
  | .configRecord => true
  | .configWaitTimeout => true
  | .cfgResetWrite _ _ => true
  | .spiCommand _ _ => true
  | .spiCommandDone _ data => decide (data.length ≤ 256)
  | .hostWrite frame => decide (frame.length ≤ 14)
  | .hostRead _ => true
  | .registerWrite _ f a _ => f == .word || decide (a.toNat ≤ 0xFFFFFFFF)
  | .blockStop _ _ _ => true
  | .blockStopped _ => true
  | .blockRestart _ _ _ => true
  | .sxWrite _ _ _ => true
  | .shWrite _ _ _ => true
  | .stWrite _ _ _ => true
  | .bankSwapRequest _ _ _ => true
  | .bankCancel _ _ _ => true
  | .bankSwap _ => true
  | .bankShadowCopyDone _ => true
  | .groupCommit _ _ => true
  | .groupCommitEffect _ => true
  | .groupAbort _ _ => true
  | .portSelectWrite _ _ => true
  | .portMoveStart => true
  | .portHoldRelease => true
  | .receiverEnable _ _ _ => true
  | .receiverDisable _ _ _ => true
  | .crLockAcquired _ _ _ => true
  | .carrierLoss _ => true
  | .losAssert _ _ => true
  | .losClear _ _ => true
  | .loLineLow _ => true
  | .combLow _ _ => true
  | .transmitterEnable _ _ _ => true
  | .codewordDecoded _ _ _ _ _ _ _ => true
  | .provisionalRelease _ _ _ _ _ => true
  | .calConditionCheck _ _ _ => true
  | .calTrimRequest _ _ _ => true
  | .calTrimStart _ _ _ => true
  | .calTrimComplete _ _ _ => true
  | .eqWindowClose _ w => w.counts.length == 32 && decide (w.aided.length ≤ 248) && decide (w.piloted.length ≤ 248)
  | .laserPoll _ _ _ _ => true
  | .laserSourceAccess _ _ => true
  | .laserAccessDone _ _ => true
  | .fawMatch _ _ _ => true
  | .expectedWindow _ _ _ => true
  | .frameHeader _ hdr ops => hdr.length == 64 && ops.length == 64
  | .flywheelTick _ => true
  | .ohsInsertBlock _ blk => blk.length == 64
  | .ohsShortBlock _ => true
  | .mapEntry _ _ entry => entry.length == 16
  | .fragment _ info _ _ => decide (info.length ≤ 12800000)
  | .reassemblyTimeout _ _ => true
  | .dsfIndRead _ _ => true
  | .dsfIndWrite _ _ => true
  | .actEnable _ _ _ => true
  | .actDisable _ _ _ => true
  | .actRestart _ _ _ => true
  | .actGroupStage _ => true
  | .tAsgExpiry _ => true
  | .tRngExpiry _ => true
  | .tIntExpiry _ => true
  | .stoppedHoldExpiry _ => true
  | .unknownMessage _ _ msg => msg.length == 64
  | .lineParams _ _ msg => msg.length == 64
  | .assignTn _ _ msg => msg.length == 64
  | .rangingTime _ _ msg => msg.length == 64
  | .burstProfile _ _ msg => msg.length == 64
  | .authChallenge _ _ msg => msg.length == 64
  | .keyInstall _ _ msg => msg.length == 64
  | .keyDerive _ _ msg => msg.length == 64
  | .keyEraseIndex _ _ msg => msg.length == 64
  | .keyEraseAll _ _ msg => msg.length == 64
  | .streamAssign _ _ msg => msg.length == 64
  | .allocAssign _ _ msg => msg.length == 64
  | .powerMode _ _ msg => msg.length == 64
  | .timeOfDay _ _ msg => msg.length == 64
  | .disable _ _ msg => msg.length == 64
  | .enable _ _ msg => msg.length == 64
  | .deactivate _ _ msg => msg.length == 64
  | .protSwitch _ _ msg => msg.length == 64
  | .protSwitchEffect => true
  | .autoProtExpiry => true
  | .wakeList _ _ msg => msg.length == 64
  | .regWrite _ _ msg => msg.length == 64
  | .regRead _ _ msg => msg.length == 64
  | .rxqPop _ _ => true
  | .txqSend _ _ => true
  | .mapReconcile _ => true
  | .nofragWaitExpiry _ => true
  | .burstStart _ => true
  | .upstreamFragmentEncode _ _ _ => true
  | .burstLeftModulator _ => true
  | .chpFrameParse _ header entries => header.length == 64 && decide (entries.length ≤ 512) && entries.all (·.length == 16)
  | .shutterDrive _ => true
  | .shutRdyRise _ => true
  | .chpClose _ => true
  | .chpGateOutsideWindow _ => true
  | .chpClockLoss _ => true
  | .chpGateTooLong _ _ => true
  | .chpDutyExceeded _ => true
  | .chpDividerMismatch _ _ => true
  | .chpCopyUncorrectable _ => true
  | .chpFatalShutdown => true
  | .chpRelease _ _ _ _ _ => true
  | .ubeIndRead _ _ => true
  | .ubeIndWrite _ _ => true
  | .packetPass _ => true
  | .idleSlotEntry _ => true
  | .reinjectNewPass _ _ => true
  | .reinjectToQueue _ _ => true
  | .reinjectOffered => true
  | .clsIndRead _ _ => true
  | .clsIndWrite _ _ => true
  | .versionCommitRequest _ _ => true
  | .versionCommit => true
  | .sweepDone => true
  | .spqConsume _ _ _ => true
  | .flowInsert _ _ => true
  | .flowInsertComplete => true
  | .learnInsert => true
  | .flowLookupCmd _ _ => true
  | .flowUpdate _ _ => true
  | .flowDelete _ _ => true
  | .stashPlace => true
  | .ageTick => true
  | .cidxHoldExpiry => true
  | .deltaFlush _ => true
  | .counterRead _ _ => true
  | .ageqConsume _ _ => true
  | .runaheadIssue _ info _ _ => decide (info.length ≤ 12800000)
  | .codewordVerdict _ => true
  | .specTimeout _ => true
  | .spillPageWrite _ => true
  | .spillWriteDone _ _ => true
  | .cellarReturnRead _ => true
  | .returnReadDone _ _ _ => true
  | .hbmConditionCheck _ _ _ => true
  | .hbmRetrainRequest _ _ => true
  | .hbmRetrainStart _ _ => true
  | .hbmRetrainStep _ => true
  | .hbmRetrainDone _ _ _ => true
  | .scrubRead _ => true
  | .hbmRowTest _ => true
  | .hbmRowTestDone _ _ _ => true
  | .celIndRead _ _ => true
  | .celIndWrite _ _ => true
  | .poolWrite _ _ _ => true
  | .scheduleSelect _ => true
  | .shaperRefill _ _ => true
  | .schIndRead _ _ => true
  | .schIndWrite _ _ => true
  | .leafFlush _ _ => true
  | .histogramSample => true
  | .histogramClear _ _ => true
  | .gateEntryStart _ => true
  | .gateListChange _ => true
  | .gateHoldAssert _ => true
  | .gateHoldRelease _ => true
  | .cipherDispatch _ => true
  | .cipherComplete _ => true
  | .keyGenerationDrained _ => true
  | .klnDerive _ _ => true
  | .klnUnwrap _ _ => true
  | .klnLoad _ _ => true
  | .klnErase _ _ => true
  | .klnRootLoad _ _ => true
  | .klnRootErase _ _ => true
  | .klnQuery _ _ => true
  | .bindRead _ _ => true
  | .bindWrite _ _ => true
  | .rkProgram _ _ => true
  | .cipIndRead _ _ => true
  | .cipIndWrite _ _ => true
  | .fwRingPost _ _ => true
  | .fwDescriptor _ => true
  | .portEnable _ _ _ => true
  | .portDisable _ _ _ => true
  | .linkChange _ _ _ _ _ _ _ => true
  | .macReceiveFrame _ frame _ _ _ _ _ _ => decide (frame.length ≤ 16004)
  | .pfcPauseExpiry _ _ => true
  | .pfcXoff _ => true
  | .pfcRefresh _ => true
  | .macTransmit _ _ => true
  | .mmVerifyAttempt _ _ => true
  | .clientLightLow _ => true
  | .secondBoundary => true
  | .ppsOutFall => true
  | .todOutSend => true
  | .todInMessage m => m.length == 16
  | .timeLoad _ _ => true
  | .timeStep _ _ => true
  | .todReadLatch _ => true
  | .tpllHoldover => true
  | .tpllHoldoverExit => true
  | .timeSampleWrite _ _ => true
  | .ppsInEdge => true
  | .servoSampleTimeout => true
  | .servoHoldoverExpiry => true
  | .tsqPop _ _ _ => true
  | .tsqLogClear _ _ _ => true
  | .taskPost _ _ => true
  | .postApply => true
  | .hwEventSource _ => true
  | .taskAssign => true
  | .taskDone _ _ _ => true
  | .taskYield _ _ _ => true
  | .taskCancel _ _ => true
  | .taskEnable _ _ => true
  | .tskIndRead _ _ => true
  | .tskIndWrite _ _ => true
  | .acuWindowRead _ _ => true
  | .acuWindowWrite _ _ => true
  | .powerRequestFull _ _ => true
  | .powerRequestTrim _ _ => true
  | .powerRequestDoze _ _ => true
  | .powerRequestTaste _ _ => true
  | .powerRequestOff _ _ => true
  | .powerEntryStart _ => true
  | .powerEntryComplete => true
  | .powerTransitionEnd => true
  | .lineModeAwake _ _ _ => true
  | .lineModeDoze _ _ _ => true
  | .lineModeSleep _ _ _ => true
  | .lineModeApply _ => true
  | .dozeEnd _ => true
  | .sleepEarlyWake _ => true
  | .sleepEnd _ => true
  | .tasteCycle _ a b _ => (a.all (·.length == 64)) && (b.all (·.length == 64))
  | .tasteCycleTimeout _ => true
  | .wakeI2c _ => true
  | .wakeSpi _ => true
  | .wakeSd _ _ => true
  | .wakeN _ => true
  | .wakeTimer _ => true
  | .wakeStart _ _ => true
  | .wakeRetry => true
  | .wakeComplete => true
  | .wakeLogPop _ _ => true
  | .faultLatch _ _ => true
  | .faultReaction => true
  | .selfTestDone _ _ _ _ => true
  | .quietWindowEnd => true
  | .resetDeviceExpiry => true
  | .tempWarning _ => true
  | .safeNLow => true
  | .safeEnter _ _ => true
  | .safeExit _ _ => true
  | .recordRead _ _ => true
  | .recordRelease _ _ => true
  | .injectArm _ _ => true
  | .injectDisarm _ _ => true
  | .linkGroupEnable _ _ _ => true
  | .terminationProbe _ _ => true
  | .trainDone _ _ _ => true
  | .commaLock c => decide (c.lanes.length ≤ 4)
  | .linkStateTimeout _ => true
  | .linkGroupFail _ _ => true
  | .casEqWindow _ _ _ => true
  | .containerReceive _ line _ _ _ _ _ => lineOk line
  | .caps _ line _ _ _ _ _ => lineOk line
  | .heartbeat _ line _ _ _ _ _ => lineOk line
  | .join _ line _ _ _ _ _ => lineOk line
  | .assign _ line _ _ _ _ _ => lineOk line
  | .view _ line _ _ _ _ _ => lineOk line
  | .readReq _ line _ _ _ _ _ => lineOk line
  | .bootContainer _ line _ _ _ _ _ => lineOk line
  | .time _ line _ _ _ _ _ => lineOk line
  | .probe _ line _ _ _ _ _ => lineOk line
  | .probeResp _ line _ _ _ _ _ => lineOk line
  | .cascadeArrival _ => true
  | .heartbeatTick => true
  | .memberCheckTick _ _ _ => true
  | .electionTimeout _ _ => true
  | .mgrLost => true
  | .joinRetry => true
  | .bootWaitExpiry => true
  | .casIndRead _ _ => true
  | .casIndWrite _ _ => true
  | .coreClockSwitch _ _ => true
  | .cpllConfig _ _ => true
  | .cpllLoss => true
  | .spllLoss _ => true
  | .xtalFail => true
  | .xtalAdopt => true
  | .syncRefLoss _ => true
  | .clockMeasure _ _ => true
  | .clockMeasureDone _ => true
  | .clearingRead _ _ _ => true
  | .loLineRestored _ => true
  | .combRestored _ _ => true
  | .clientLightRestored _ => true
  | .syncRefRestore _ => true
  | .cpllLockAcquired => true
  | .xtalAdoptTimeout => true
  | .ppsInTodWaitExpiry => true
  | .ppsInSourceLost => true
  | .tempWarningRearm _ => true
  | .safeNHigh => true

end Sys2Proof
end

