-- ==== Sys2Proof/Tests/Slice0.lean ====
section
/-! SUPPORT. Tests of the model against the spec's worked examples, and witnesses of the statements' hypotheses. -/

namespace Sys2Proof.Tests
set_option Elab.async false

open Sys2Proof Sys2Proof.Machine Sys2Proof.Spec

/-- The device in a phase of its start, all else as reset leaves it. -/
def phase (b : BootPhase) : State := { State.reset with cfg := { State.reset.cfg with boot := b } }

/-- The device booted, every block running. -/
def ready : State := ((phase .booted).setReg CFG_BLK_STOPPED.addr 0).setReg CFG_BLK_RUN.addr 0xFFFFFFFFFFFFFFFF

/-- Core 0 in machine mode. -/
abbrev m0 : Initiator := .core 0 .m

/-- A command waits in front of the queue. -/
def first (c : Instr) (s : State) : State := { s with pending := [c] }

/-- Commands wait in the queue: the first is the one that runs. -/
theorem test_step_front : step (first (.hostWrite []) ready) = exec (.hostWrite []) { ready with pending := [] } := rfl

/-- StepRunsFrontCommand has no hypothesis; a queue of two commands. -/
theorem wit_StepRunsFrontCommand : ({ ready with pending := [.hostWrite [], .powerUp] } : State).pending = [.hostWrite [], .powerUp] := rfl

/-- EmptyQueueCounts: not up; up below the second; up at its last cycle. -/
theorem wit_EmptyQueueCounts :
    (State.reset.pending = [] ∧ isUp State.reset = false) ∧
    (ready.pending = [] ∧ isUp ready = true ∧ ready.tod.f + (2 ^ 49 + timRate ready * 2 ^ 9).toNat < secF) ∧
    (let s : State := { ready with tod := ⟨0, secF - 1⟩ }
     s.pending = [] ∧ isUp s = true ∧ secF ≤ s.tod.f + (2 ^ 49 + timRate s * 2 ^ 9).toNat) := by decide +kernel

/-- StepKeepsInvariant: a sound state with a command, and one with an empty queue. -/
theorem wit_StepKeepsInvariant : Machine.Inv State.reset ∧ Machine.Inv (first .powerUp ready) ∧
    (∃ t, step State.reset = .next t) ∧ (∃ t, step (first .powerUp ready) = .next t) :=
  ⟨by unfold Machine.Inv Canon; decide +kernel, by unfold Machine.Inv Canon; decide +kernel, ⟨_, rfl⟩, ⟨_, rfl⟩⟩

/-- A command whose reach is bounded, and that it ends in a next state. -/
theorem test_reach_bounded : Sys2Proof.Spec.reach .portMoveStart = some ([.lph], some []) ∧
    ∃ t, exec .portMoveStart State.reset = .next t := ⟨rfl, _, rfl⟩

/-- Subscriber 8,191 is to move to port 63, written through SCH_IND_DATA0. -/
def portMove : State := ready.setReg (SCH_IND_DATA 0).addr 63
/-- The same, its last leaf holding one cell. -/
def portHeld : State := portMove.setLq (leafOfSub 0 8191 15) { q := 1 }
/-- Table 1, INDEX 8,191. -/
def subWord : Word := BitVec.ofNat 64 (2 ^ 56 + 8191)

/-- SubscriberPortHeld: the last leaf not idle, and every leaf idle. -/
theorem wit_SubscriberPortHeld :
    (Accepted m0 SCH_IND_CMD.addr (schGo subWord 0) portHeld ∧ portHeld.bit SCH_IND_CMD_GO = false ∧ fieldOf subWord 56 3 = 1 ∧
      0 = fieldOf subWord 60 1 ∧ 8191 = fieldOf subWord 0 17 ∧ 63 = fieldOf (portHeld.reg (SCH_IND_DATA 0).addr) 0 12 ∧
      63 ≠ (portHeld.sub (0 * 8192 + 8191)).port ∧ ¬ LeafIdle portHeld (leafOfSub 0 8191 15)) ∧
    (Accepted m0 SCH_IND_CMD.addr (schGo subWord 0) portMove ∧ portMove.bit SCH_IND_CMD_GO = false ∧
      63 = fieldOf (portMove.reg (SCH_IND_DATA 0).addr) 0 12 ∧ 63 ≠ (portMove.sub (0 * 8192 + 8191)).port ∧
      ∀ j, j < 16 → LeafIdle portMove (leafOfSub 0 8191 j)) := by
  unfold LeafIdle
  decide +kernel

/-- TemperatureWarning: 100.1 °C above the reset TEMP_WARN of 100 °C; 100.0 °C; one already raised; the re-arming at 98.0 °C. -/
theorem wit_TemperatureWarning :
    (isUp ready = true ∧ (1001 : BitVec 16).toInt < 1100 ∧ (ready.rd FLT_CFG_TEMP_WARN : Int) * 10 < (1001 : BitVec 16).toInt ∧
      ready.flt.tempWarned = false) ∧
    ((1000 : BitVec 16).toInt < 1100 ∧ (1000 : BitVec 16).toInt ≤ (ready.rd FLT_CFG_TEMP_WARN : Int) * 10) ∧
    (isUp { ready with flt := { ready.flt with tempWarned := true } } = true ∧
      ({ ready with flt := { ready.flt with tempWarned := true } } : State).flt.tempWarned = true) ∧
    ¬ (ready.rd FLT_CFG_TEMP_WARN : Int) * 10 - 20 < (980 : BitVec 16).toInt := by decide +kernel

/-- ResetWriteLevels: the host (level 3), a hart in user mode (level 2), and core 0 in machine mode (level 0). -/
theorem wit_ResetWriteLevels :
    (canAccess ready .host CFG_RESET.addr = true ∧ 1 < levelOf .host) ∧
    (canAccess ready (.core 7 .u) CFG_RESET.addr = true ∧ 1 < levelOf (.core 7 .u)) ∧
    (canAccess ready m0 CFG_RESET.addr = true ∧ levelOf m0 ≤ 1 ∧ acuAllows ready m0 true CFG_RESET.addr = true) := by decide +kernel

/-- SHA-384 of the one section, a public key and its hash, and a signature made with its private key outside the package. -/
def goodDigest : Nat := 0x9B5CD6642EEDB146C00B494BF709C53D514E389B7EBC883D8F37EF6E0119B83031519D45129998D110D01370C237F0EA
/-- The public key's coordinates. -/
def goodX : Nat := 0xBC35AB874F5658E1819F8F44C695BA09F716E07D8013D68230D339081722059B875329524ECDDAF7FA4250438E16CC5C
/-- The second coordinate. -/
def goodY : Nat := 0x55929DD5D06453BC578516476529A635D2177A2715C88BA1DAD27C0E68E1E6C4C2579323F25643C94C9E17C047D0BDBD
/-- SHA-384 of the public key, as the fuses hold it. -/
def goodHash : Nat := 0xA8113A95ADBD5F03F8CFD9B7FD260BF94181A59751C4070A344FC9FEB50136BD1DC6706C63BB4AB09B72C87A3DAF93A0
/-- The two halves of the signature of the header with SEQ 7. -/
def goodR : Nat := 0x4E47A237CC608F03D38BF953C2C25C8CB99DE4BBADA9288A6B43656520B2559143F1FD344DDE210802BBC630315996BE
/-- The second half. -/
def goodS : Nat := 0xA60814893AD0619BE4AE94BF60DB8FAA25B91997149E1144AEDFFEECACC46ACF8F4F965076F00DB276134AD9620DD350

/-- A header that passes checks 1 to 7: magic, format, a SEQ, one firmware section of 16 bytes for the shared L2, its digest,
the public key, the signature of the header with SEQ 7. -/
def goodHeader (seq : Nat) : Bytes :=
  padTo 1024 <| padTo 0x300 (padTo 0x280 (beBytes 4 0x525A4258 ++ beBytes 2 1 ++ beBytes 2 1 ++ beBytes 4 seq ++ beBytes 4 0x2000 ++
    List.replicate 16 0 ++ beBytes 4 0x01000000 ++ beBytes 4 0x400 ++ beBytes 4 16 ++ beBytes 4 0 ++ beBytes 8 0x000110000000 ++
    beBytes 48 goodDigest) ++ 4 :: (beBytes 48 goodX ++ beBytes 48 goodY)) ++ beBytes 48 goodR ++ beBytes 48 goodS

/-- The bytes of its section. -/
def goodData : List Bytes := [(List.range 16).map (fun n => BitVec.ofNat 8 (n + 1))]

/-- Headers read, copy A ranked first. -/
def headersIn : State :=
  { phase .headersRead with cfg := { (phase .headersRead).cfg with hdrA := goodHeader 7, hdrB := goodHeader 6,
                                                                   keyHash := BitVec.ofNat 384 goodHash } }

/-- The same after copy A has failed. -/
def secondCopy : State := { headersIn with cfg := { headersIn.cfg with firstFailed := true } }

/-- The copy signed in `goodHeader 7` is valid: its key is that of the fuses, its signature and its digest hold. -/
theorem test_copy_valid : copyResult (BitVec.ofNat 384 goodHash) (goodHeader 7) true goodData = 1 := by decide +kernel

/-- With another SEQ the signature no longer holds. -/
theorem test_copy_bad_signature : copyResult (BitVec.ofNat 384 goodHash) (goodHeader 6) true goodData = 5 := by decide +kernel

/-- With another key hash the key does not hold; the header lacks nothing else. -/
theorem test_copy_bad_key : copyResult 1 (goodHeader 7) true goodData = 4 := by decide +kernel

/-- Without the sections the digest fails. -/
theorem test_copy_bad_digest : copyResult (BitVec.ofNat 384 goodHash) (goodHeader 7) true [] = 7 := by decide +kernel

/-- BootSequenceRows, clause by clause. -/
theorem wit_BootSequenceRows :
    (phase .inReset).cfg.boot = .inReset ∧ ((phase .rom).cfg.boot = .rom ∧ 32 ≤ (32 : BitVec 16).toNat ∧ (31 : BitVec 16).toNat < 32) ∧
    ((phase .sfdpDone).cfg.boot = .sfdpDone ∧ (phase .sfdpDone).cfg.casBoot = false ∧ hdrCode false (goodHeader 7) = 0 ∧
      hdrCode true (goodHeader 7) ≠ 0) ∧
    (headersIn.cfg.boot = .headersRead ∧ copyResult headersIn.cfg.keyHash (hdrOf headersIn (copyNow headersIn)) true goodData = 1) ∧
    (copyResult headersIn.cfg.keyHash (hdrOf headersIn (copyNow headersIn)) true [] ≠ 1 ∧ headersIn.cfg.firstFailed = false ∧
      headersIn.rd (copyCode (!copyNow headersIn)) = 0) ∧
    (secondCopy.cfg.boot = .headersRead ∧ copyResult secondCopy.cfg.keyHash (hdrOf secondCopy (copyNow secondCopy)) true goodData ≠ 1 ∧
      secondCopy.cfg.firstFailed = true) ∧
    (Machine.Inv (phase .copyChosen) ∧ (phase .copyChosen).cfg.boot = .copyChosen ∧ (phase .copyChosen).rd (CEL_TRAIN_STATE 3) = 0 ∧
      (phase .copyChosen).stackOk 3 = false ∧ (1 : Fin 4) ≠ 0) ∧
    (((phase .copyChosen).put FLT_SUMMARY_SAFE_N true).bit FLT_SUMMARY_SAFE_N = true ∧
      ((phase .copyChosen).put FLT_SUMMARY_SAFE_N true).tsk.tasks = [] ∧
      ∀ n : Fin 64, ((phase .copyChosen).put FLT_SUMMARY_SAFE_N true).bit (TSK_SRC_EN n) = false) := by unfold Machine.Inv Canon; decide +kernel

/-- A record in memory at 0x1_1000_0000: its opcode, and the word beside it. -/
def record (op : Nat) : State :=
  ({ ready with cfg := { ready.cfg with cfgAt := some (0x000110000000, 16) } }).setBytes 0x000110000000
    (beBytes 8 (op * 2 ^ 56 + 0x000100000000) ++ beBytes 8 5)

/-- The record that writes, with a window of the access unit that lets core 0 at level 2 write it. -/
def recordOk : State := (record 1).setAcuWin 0 { en := true, base := 0, limit := 2 ^ 36 - 1, perm := 0xFFF }

/-- ConfigurationRows: the four opcodes, an undefined one, a section too short, and a wait that times out. -/
theorem wit_ConfigurationRows :
    (Configuring (record 1) 0x000110000000 16 ∧ 16 * (record 1).cfg.recIdx + 16 ≤ 16 ∧ fieldOf (recordAt (record 1) 0x000110000000).1 56 8 = 1 ∧
      accessRefused recInit .word true (fieldOf (recordAt (record 1) 0x000110000000).1 0 48) (recordAt (record 1) 0x000110000000).2 (record 1) = true) ∧
    (Configuring recordOk 0x000110000000 16 ∧ 16 * recordOk.cfg.recIdx + 16 ≤ 16 ∧ fieldOf (recordAt recordOk 0x000110000000).1 56 8 = 1 ∧
      accessRefused recInit .word true (fieldOf (recordAt recordOk 0x000110000000).1 0 48) (recordAt recordOk 0x000110000000).2 recordOk = false) ∧
    (Configuring (record 2) 0x000110000000 16 ∧ fieldOf (recordAt (record 2) 0x000110000000).1 56 8 = 2) ∧
    (Configuring (record 3) 0x000110000000 16 ∧ fieldOf (recordAt (record 3) 0x000110000000).1 56 8 = 3) ∧
    (Configuring (record 4) 0x000110000000 16 ∧ 3 < fieldOf (recordAt (record 4) 0x000110000000).1 56 8) ∧
    (({ ready with cfg := { ready.cfg with waiting := true } } : State).cfg.boot = .booted ∧
      ({ ready with cfg := { ready.cfg with waiting := true } } : State).cfg.waiting = true) := by decide +kernel

/-- CfgOwnRows: a reset; a flash read; a program of the copy that booted; a second GO while one runs; its end. -/
theorem wit_CfgOwnRows_flash :
    Accepted m0 CFG_RESET.addr (withField 0 CFG_RESET_KEY 0xD1E5) ready ∧
    (Accepted m0 CFG_SPI_CMD.addr (withField 0 CFG_SPI_CMD_GO 1) ready ∧ ready.bit CFG_SPI_CMD_GO = false ∧
      flashProtected ready (inField 0 CFG_SPI_CMD_OPCODE) (inField 0 CFG_SPI_CMD_ADDR) (min 256 (inField 0 CFG_SPI_CMD_LEN)) = false) ∧
    (let v := withField 0 CFG_SPI_CMD_OPCODE 2
     Accepted m0 CFG_SPI_CMD.addr (withField v CFG_SPI_CMD_GO 1) ready ∧
      flashProtected ready (inField v CFG_SPI_CMD_OPCODE) (inField v CFG_SPI_CMD_ADDR) (min 256 (inField v CFG_SPI_CMD_LEN)) = true) ∧
    (Accepted m0 CFG_SPI_CMD.addr (withField 0 CFG_SPI_CMD_GO 1) (ready.put CFG_SPI_CMD_GO true) ∧
      (ready.put CFG_SPI_CMD_GO true).bit CFG_SPI_CMD_GO = true) ∧
    (isUp { ready with cfg := { ready.cfg with spi := some (3, 256) } } = true) := by decide +kernel

/-- The device with every block running but CLS, which has been stopped or is to stop. -/
def clsStops (done : Bool) : State :=
  (ready.setReg CFG_BLK_RUN.addr (~~~(1 <<< blkCLS))).setReg CFG_BLK_STOPPED.addr (if done then 1 <<< blkCLS else 0)

/-- The value written to CFG_BLK_RUN that keeps every other block. -/
def runWord : Word := ~~~(1 <<< blkCLS)

/-- CfgOwnRows: BLOCK_STOP, BLOCK_STOPPED and BLOCK_RESTART of CLS. -/
theorem wit_CfgOwnRows_blocks :
    (Accepted m0 CFG_BLK_RUN.addr (withField runWord ⟨0, 17, 1⟩ 0) ready ∧
      (∀ m ∈ allBlocks, m ≠ blkCFG → keptRun (withField runWord ⟨0, 17, 1⟩ 0) m = true → (ready.reg CFG_BLK_RUN.addr).toNat.testBit m = true) ∧
      (ready.reg CFG_BLK_RUN.addr).toNat.testBit blkCFG = true) ∧
    (isUp (clsStops false) = true ∧ 17 ∈ allBlocks ∧ 17 ∉ [blkCFG, blkCHP, blkCAS] ∧ ((clsStops false).rd CFG_BLK_RUN).testBit 17 = false ∧
      ((clsStops false).rd CFG_BLK_STOPPED).testBit 17 = false) ∧
    (Accepted m0 CFG_BLK_RUN.addr (withField runWord ⟨0, 17, 1⟩ 1) (clsStops true) ∧ 17 ∈ allBlocks ∧ 17 ∉ [blkCFG, blkACT, blkTSK, blkCAS] ∧
      (∀ m ∈ allBlocks, m ≠ 17 → m ≠ blkCFG → keptRun (withField runWord ⟨0, 17, 1⟩ 1) m = true → ((clsStops true).reg CFG_BLK_RUN.addr).toNat.testBit m = true) ∧
      ((clsStops true).reg CFG_BLK_RUN.addr).toNat.testBit blkCFG = true ∧ ((clsStops true).reg CFG_BLK_RUN.addr).toNat.testBit 17 = false ∧
      ((clsStops true).rd CFG_BLK_STOPPED).testBit 17 = true ∧
      keptRun (withField runWord ⟨0, 17, 1⟩ 1) blkMAC = true ∧ (clsStops true).cfg.boot ≠ .failed ∧ 17 ∉ [blkLPH, blkUBE, blkCHP, blkMAC]) := by decide +kernel

/-- The device once an access has been refused and recorded. -/
def refusedOnce : State := ready.put ACU_FAULT_INFO_VALID true

/-- AccessRows: no access in reset; a word of core 0's SRAM; a register of PRS; an address of no register; a refused write. -/
theorem wit_AccessRows_writes :
    canAccess State.reset m0 0 = false ∧
    (Accepted m0 0x000100000000 5 ready ∧ regionOf 0x000100000000 = .sram) ∧
    (Accepted m0 (PRS_SRC_CFG 0).addr 0 ready ∧ regionOf (PRS_SRC_CFG 0).addr = .regs ∧ (regRow? (PRS_SRC_CFG 0).addr).isSome = true ∧
      blkOf (PRS_SRC_CFG 0).addr ∈ [blkPRS, blkSPC] ∧ (regRow? (PRS_SRC_CFG 0).addr).any (fun r => r.has .rw && !r.has .sx && !r.has .sh && !r.has .st) = true) ∧
    (Accepted m0 0x01FFFFF8 0 ready ∧ regionOf 0x01FFFFF8 = .regs ∧ regRow? 0x01FFFFF8 = none ∧ 0x01FFFFF8 ≠ TSK_POST.addr) ∧
    (canAccess refusedOnce .host CFG_RESET.addr = true ∧ accessRefused .host .word true CFG_RESET.addr 0 refusedOnce = true ∧
      refusedOnce.bit ACU_FAULT_INFO_VALID = true) := by decide +kernel

/-- AccessRows: a host frame of 14 bytes and one of 13; reads by the host and by a core, of a register and of none; a refused read. -/
theorem wit_AccessRows_reads :
    ((List.replicate 14 0 : Bytes).length = 14 ∧ (List.replicate 13 0 : Bytes).length ≠ 14) ∧
    (Readable .host CFG_WWR.addr ready ∧ regionOf CFG_WWR.addr = .regs ∧ (regRow? CFG_WWR.addr).isSome = true ∧ CFG_WWR.addr ≠ TIM_TOD_S.addr ∧
      Readable .host 0x01FFFFF8 ready ∧ regRow? 0x01FFFFF8 = none) ∧
    Readable (.core 7 .m) CFG_WWR.addr ready ∧
    (canAccess refusedOnce .host ACU_CNT.addr = true ∧ accessRefused .host .word false ACU_CNT.addr 0 refusedOnce = true) := by
  unfold Readable; decide +kernel

/-- The registers that the witnesses of SX, SH and ST writes name: one of PRS, one of LPH, one of CHP. -/
abbrev sxAt : BitVec 48 := 0x10100020
/-- An SH register of LPH. -/
abbrev shAt : BitVec 48 := 0x08000028
/-- An ST register of CHP. -/
abbrev stAt : BitVec 48 := 0x0C000800

/-- StagedWriteRows: nothing is set off by a write of those registers. -/
theorem wit_StagedWriteRows_plain : Plain sxAt.toNat ∧ Plain shAt.toNat ∧ Plain stAt.toNat :=
  ⟨fun _ _ _ _ => rfl, fun _ _ _ _ => rfl, fun _ _ _ _ => rfl⟩

/-- StagedWriteRows: the three writes, each with its block as the clause asks. -/
theorem wit_StagedWriteRows_writes :
    (Accepted m0 sxAt.toNat 1 ready ∧ regionOf sxAt.toNat = .regs ∧ bankOf sxAt.toNat = none ∧ sxAt.toNat ≠ TSK_POST.addr ∧
      (regRow? sxAt.toNat).any (fun r => r.fields.all (·.kind == .sx) && !r.fields.isEmpty && ready.runs r.blk) = true) ∧
    (Accepted m0 shAt.toNat 1 ready ∧ regionOf shAt.toNat = .regs ∧ bankOf shAt.toNat = some (LPH_BANK 0).addr ∧
      (LPH_BANK 0).addr ≠ shAt.toNat ∧ ready.bit (bankPending (LPH_BANK 0).addr) = false ∧
      (regRow? shAt.toNat).any (fun r => r.fields.all (·.kind == .sh) && !r.fields.isEmpty) = true) ∧
    (Accepted m0 stAt.toNat 1 ready ∧ regionOf stAt.toNat = .regs ∧ bankOf stAt.toNat = none ∧ (ready.group (groupOf stAt.toNat)).pend = false ∧
      16 ≤ groupOf stAt.toNat ∧ groupOf (CHP_COPY 3).addr = 3 ∧
      (regRow? stAt.toNat).any (fun r => r.fields.all (·.kind == .st) && !r.fields.isEmpty) = true) := by decide +kernel

/-- Group 63 has a commit that takes effect at once. -/
def groupDue : State := ready.setGroup 63 { (ready.group 63) with pend := true, when_ := false }

/-- StagedWriteRows: a commit of group 63, its effect, and an abort, with the group idle and with its commit pending. -/
theorem wit_StagedWriteRows_groups :
    (Accepted m0 CFG_GRP_COMMIT.addr 3 ready ∧ fieldOf 3 0 6 < 16) ∧
    (Accepted m0 CFG_GRP_COMMIT.addr 63 ready ∧ 16 ≤ fieldOf 63 0 6 ∧ (ready.group (fieldOf 63 0 6)).pend = false) ∧
    (isUp groupDue = true ∧ commitDue groupDue 63 = true ∧ 16 ≤ (63 : Fin 64).val ∧
      SMap.wf (fun _ => (none : Option Word)) groupDue.cfg.staged = true) ∧
    (Accepted m0 CFG_GRP_ABORT.addr 63 ready ∧ Accepted m0 CFG_GRP_ABORT.addr 63 groupDue ∧ (groupDue.group (fieldOf 63 0 6)).pend = true) := by
  decide +kernel

/-- A bank of LPH in a phase. -/
def lphBank (ph : BankPhase) (s : State) : State := s.setBank (bankAddr (.lph 15)) { (s.bank (bankAddr (.lph 15))) with phase := ph }

/-- BankRows: a request, a withdrawal, a swap that is due and one that is not, the end of a copy and none. -/
theorem wit_BankRows :
    (Accepted m0 (bankAddr (.lph 15)) (withField 0 ⟨0, 3, 1⟩ 1) ready ∧ fieldOf (0 : Word) 4 1 = 0 ∧ (ready.bank (bankAddr (.lph 15))).phase = .idle ∧
      bankKind (bankAddr (.lph 15)) (fieldOf (0 : Word) 0 3) ≠ 3) ∧
    (Accepted m0 (bankAddr (.lph 15)) (withField 0 ⟨0, 4, 1⟩ 1) (lphBank .waiting ready) ∧ fieldOf (0 : Word) 3 1 = 0 ∧
      ((lphBank .waiting ready).bank (bankAddr (.lph 15))).phase = .waiting ∧ blkOf (bankAddr (.lph 15)) ≠ blkGCL) ∧
    (isUp (lphBank .waiting ready) = true ∧ bankDue (lphBank .waiting ready) (bankAddr (.lph 15)) = true ∧ bankDue ready (bankAddr (.lph 15)) = false) ∧
    (((lphBank .copying ready).bank (bankAddr (.lph 15))).phase = .copying ∧ (ready.bank (bankAddr (.lph 15))).phase ≠ .copying) := by decide +kernel

/-- The receiver of channel 15 is enabled. -/
def rxOn : State := ready.put (LPH_CH_CTL_RX_EN 15) true

/-- LinePortRows, clause by clause: SEL with no move and with one; a move that starts and one that a gate holds; its end; the
enables of channel 15. -/
theorem wit_LinePortRows :
    (Accepted m0 LPH_PORT.addr 1 ready ∧ ready.lph.moving = none) ∧
    (let s : State := { ready with lph := { ready.lph with moving := some 1 } }
     Accepted m0 LPH_PORT.addr 1 s ∧ s.lph.moving.isSome = true ∧ isUp s = true ∧ s.lph.moving = some 1) ∧
    (let s := ready.put LPH_PORT_PENDING true
     isUp s = true ∧ s.bit LPH_PORT_PENDING = true ∧ s.lph.moving = none ∧ ∀ k < 16, s.bit (CHP_STATUS_GATE k) = false) ∧
    (isUp (ready.put (CHP_STATUS_GATE 15) true) = true ∧ (ready.put (CHP_STATUS_GATE 15) true).bit (CHP_STATUS_GATE 15) = true) ∧
    (Accepted m0 (LPH_CH_CTL 15).addr (withField 0 (LPH_CH_CTL_RX_EN 15) 1) ready ∧ ready.bit (LPH_CH_CTL_RX_EN 15) = false) ∧
    (Accepted m0 (LPH_CH_CTL 15).addr (withField 0 (LPH_CH_CTL_RX_EN 15) 0) rxOn ∧ rxOn.bit (LPH_CH_CTL_RX_EN 15) = true) ∧
    (Accepted m0 (LPH_CH_CTL 15).addr (withField 0 (LPH_CH_CTL_TX_EN 15) 1) ready ∧ ready.bit (LPH_CH_CTL_TX_EN 15) = false ∧
      inField 0 (LPH_CH_CTL_RX_EN 15) = ready.rd (LPH_CH_CTL_RX_EN 15)) := by decide +kernel

/-- LineSignalRows: the receiver of channel 15 has power and its line light, and locks; it is locked and loses its carrier; the light at
both sides of −28 and −27 dBm; the comb at both sides of 12 dBm. -/
theorem wit_LineSignalRows :
    (isUp rxOn = true ∧ rxPowered rxOn 15 = true ∧ (rxOn.lphCh 15).loLow = false ∧ rxOn.bit (LPH_RX_STATUS_RX_LOS 15) = true ∧
      let s := rxOn.put (LPH_RX_STATUS_RX_LOS 15) false
      isUp s = true ∧ rxPowered s 15 = true ∧ (s.lphCh 15).loLow = false ∧ s.bit (LPH_RX_STATUS_RX_LOS 15) = false) ∧
    ((rxOn.put (LPH_RX_STATUS_CR_LOCK 15) true).bit (LPH_RX_STATUS_CR_LOCK 15) = true ∧ rxOn.bit (LPH_RX_STATUS_CR_LOCK 15) = false) ∧
    ((BitVec.ofInt 16 (-281)).toInt < -280 ∧ (rxOn.put (LPH_RX_STATUS_RX_LOS 15) false).bit (LPH_RX_STATUS_RX_LOS 15) = false ∧
      rxPowered (rxOn.put (LPH_RX_STATUS_RX_LOS 15) false) 15 = true) ∧
    -270 ≤ (BitVec.ofInt 16 (-270)).toInt ∧ rxPowered ready 15 = false ∧
    (rxPowered (rxOn.put (LPH_RX_STATUS_LO_LOCK 15) true) 15 = true ∧ (rxOn.put (LPH_RX_STATUS_LO_LOCK 15) true).bit (LPH_RX_STATUS_LO_LOCK 15) = true) ∧
    ((119 : BitVec 16).toInt < 120 ∧ 120 ≤ (120 : BitVec 16).toInt) ∧
    ((ready.put (LPH_TX_STATUS_COMB_LOW 15) false).bit (LPH_TX_STATUS_COMB_LOW 15) = false ∧
      (ready.put (LPH_TX_STATUS_COMB_LOW 15) true).bit (LPH_TX_STATUS_COMB_LOW 15) = true) := by decide +kernel

/-- Conditions at 25.0 °C and the same ones 20 °C higher. -/
def cond (t : BitVec 16) : CalCond := { txT := t, rxT := t, duty := 0, pwr := 0 }

/-- Channel 15's receiver is being trimmed, from a start at 25 °C, with no restart left and with three left. -/
def trimming (n : Nat) : State :=
  (ready.wr (LPH_CAL_RX_STATE 15) 3).setLphCh 15 { (ready.lphCh 15) with rxStart := some (calPair false (cond 250)), rxRestarts := n }

/-- LineCalibrationRows: codewords with no check unsatisfied and with some, iterations at and below MAX_ITER; a provisional release
at the bound of PROV_SYN. -/
theorem wit_LineCalibrationRows_decoder :
    (isUp ready = true ∧ ready.runs blkLPH = true ∧ syndromeWeight ((0 : BitVec 20480) ++ (0 : BitVec 4020)).toNat = 0 ∧
      syndromeWeight ((0 : BitVec 20480) ++ (1 : BitVec 4020)).toNat = 1 ∧
      ready.rd (LPH_DEC_CFG_MAX_ITER 15) ≤ (255 : BitVec 8).toNat) ∧
    ((0 : BitVec 8).toNat < (ready.wr (LPH_DEC_CFG_MAX_ITER 15) 1).rd (LPH_DEC_CFG_MAX_ITER 15)) ∧
    (let s := (ready.put (LPH_DEC_CFG_PROV_EN 15) true).wr (LPH_DEC_CFG_PROV_SYN 15) 1
     isUp s = true ∧ s.runs blkLPH = true ∧ s.bit (LPH_DEC_CFG_PROV_EN 15) = true ∧ 1 ≤ s.rd (LPH_DEC_CFG_PROV_SYN 15)) := by
  decide +kernel

/-- LineCalibrationRows: conditions outside a trim's windows, checks with no trim in progress, trims that start and end, equaliser
windows that freeze and resume. -/
theorem wit_LineCalibrationRows_trim :
    (ready.rd (LPH_CAL_RX_STATE 15) ≠ 3 ∧ ready.rd (LPH_CAL_TX_STATE 15) ≠ 3) ∧
    (isUp (trimming 2) = true ∧ (trimming 2).rd (LPH_CAL_RX_STATE 15) = 3 ∧ ((trimming 2).lphCh 15).rxStart = some (calPair false (cond 250)) ∧
      (trimming 2).rd (LPH_CAL_TX_STATE 15) = 0 ∧ Outside (calWindow (trimming 2) 15 false) (calPair false (cond 250)) (calPair false (cond 3000)) ∧
      ((trimming 2).lphCh 15).rxRestarts < 3 ∧ 3 ≤ ((trimming 3).lphCh 15).rxRestarts) ∧
    Accepted m0 (LPH_CAL_CTL 15).addr 3 ready ∧
    ((ready.wr (calState 15 true) 2).rd (calState 15 true) = 2 ∧ (ready.wr (calState 15 false) 2).rd (calState 15 false) = 2) ∧
    ((ready.wr (LPH_CAL_TX_STATE 15) 3).rd (LPH_CAL_TX_STATE 15) = 3 ∧ ready.rd (calState 15 true) ≠ 3) ∧
    (let s := ready.wr (LPH_EQ_DIV_DIV_MIN 15) 9
     s.bit (LPH_RX_STATUS_FROZEN 15) = false ∧ (8 : BitVec 17).toNat < s.rd (LPH_EQ_DIV_DIV_MIN 15)) ∧
    (let s := (ready.wr (LPH_EQ_DIV_DIV_MIN 15) 9).put (LPH_RX_STATUS_FROZEN 15) true
     s.bit (LPH_RX_STATUS_FROZEN 15) = true ∧ s.rd (LPH_EQ_DIV_DIV_MIN 15) ≤ (9 : BitVec 17).toNat) := by
  unfold Outside; decide +kernel

/-- A source that answers, ready, with no alarm. -/
def source : SrcReading := ⟨true, true, false⟩

/-- LaserRows: polling with the sources at four addresses, with two at one, and off; an access that starts and one that ends. -/
theorem wit_LaserRows :
    (let s := ((((ready.put LPH_LSRC_CTL_POLL_EN true).wr LPH_LSRC_CTL_ADDR0 1).wr LPH_LSRC_CTL_ADDR1 2).wr MAC_LSRC_CTL_ADDR2 3).wr MAC_LSRC_CTL_ADDR3 4
     isUp s = true ∧ s.bit LPH_LSRC_CTL_POLL_EN = true ∧ s.runs blkLPH = true ∧ s.bit LPH_LSRC_CMD_GO = false ∧ (∀ i < 4, ¬ Shared s i) ∧ source.ack = true ∧ source.alarm = false) ∧
    (ready.put LPH_LSRC_CTL_POLL_EN false).bit LPH_LSRC_CTL_POLL_EN = false ∧
    (Accepted m0 LPH_LSRC_CMD.addr (withField 0 LPH_LSRC_CMD_GO 1) ready ∧ ready.bit LPH_LSRC_CMD_GO = false) ∧
    Accepted m0 LPH_LSRC_CMD.addr (withField 0 LPH_LSRC_CMD_GO 1) (ready.put LPH_LSRC_CMD_GO true) ∧
    (isUp (ready.put LPH_LSRC_CMD_GO true) = true ∧ (ready.put LPH_LSRC_CMD_GO true).bit LPH_LSRC_CMD_GO = true) := by
  unfold Shared; decide +kernel

/-- Channel 15 in a state of the alignment machine, its receiver enabled, three misses counted. -/
def align (n : Nat) : State := ((rxOn.wr (DSF_SYNC_STATE 15) n).wr (DSF_SYNC_MISS 15) 3).setDsfCh 15 { (rxOn.dsfCh 15) with hdrOk := true }

/-- A header of channel 15 with no entry and no message (Table 4.4). -/
def headerBytes : Bytes := withCrc32c (beBytes 8 0 ++ beBytes 8 (15 * 2 ^ 48) ++ List.replicate 44 0)

/-- AlignmentRows: the frame alignment word at the amplitude bound matches under hypothesis 0, a window of zeros under none; the states of
channel 15 in which windows and headers come, with the miss count at its bound and below. -/
theorem wit_AlignmentRows :
    (isUp (align 0) = true ∧ (align 0).rd (DSF_SYNC_STATE 15) = 0 ∧ (align 0).bit (LPH_CH_CTL_RX_EN 15) = true ∧
      fawUnder (align 0) 15 (32768 : BitVec 32).toNat (BitVec.ofNat 256 fawWord).toNat 0 = true ∧
      ∀ h < 32, fawUnder (align 0) 15 (32769 : BitVec 32).toNat (BitVec.ofNat 256 fawWord).toNat h = false) ∧
    (isUp (align 3) = true ∧ (align 3).rd (DSF_SYNC_STATE 15) = 3 ∧ (align 3).rd (DSF_SYNC_MISS 15) = 3 ∧ (align 3).rd (DSF_SYNC_HYP 15) = 0 ∧
      fawUnder (align 3) 15 32768 fawWord 0 = true ∧ fawUnder (align 3) 15 32769 fawWord 0 = false ∧
      ((align 3).wr (DSF_SYNC_MISS 15) 2).rd (DSF_SYNC_MISS 15) < 3) ∧
    (isUp (align 1) = true ∧ (align 1).rd (DSF_SYNC_STATE 15) = 1 ∧ (align 2).rd (DSF_SYNC_STATE 15) = 2 ∧ ((align 2).dsfCh 15).hdrOk = true) ∧
    (headerOk 15 (((align 1).dsfCh 15).badNext.contains 0) headerBytes = true ∧
      headerOk 15 (((align 1).dsfCh 15).badNext.contains 0) (List.replicate 64 0) = false) := by decide +kernel

/-- Overhead port 3 feeds channel 15. -/
def portFeeds : State := (ready.put (OHS_CTL_I_EN 3) true).wr (OHS_CTL_I_DST 3) 15

/-- Channel 15 in the middle of a frame of one map entry, at the payload's start; stream 7 of it has context 9. -/
def inFrame : State :=
  (((ready.setDsfCh 15 { hdrOk := true, live := true, mapN := 1, pos := 4096 }).setSpcCh 15 { next := some 5000 }).setStreamMap (15 * 65536 + 7) ⟨true, 9⟩).setStreamCtx 9
    { maxpkt := 1500 }

/-- A header word (Table 4.6): SID, a payload of 8 bytes, FIRST set, not LAST. -/
def fragWord (sid : Nat) : Nat := withHec (sid * 2 ^ 48 + 8 * 2 ^ 34 + 2 ^ 30)

/-- A fragment of a stream, its payload zeros. -/
def fragBytes (sid : Nat) : Bytes := beBytes 8 (fragWord sid) ++ List.replicate 8 0

/-- The map entry of channel 15's frame: terminal 5's default allocation, LEN as given. -/
def entryBytes (len : Nat) : Bytes := withCrc32c (beBytes 8 (5 * 2 ^ 50 + len * 2 ^ 18) ++ beBytes 4 0)

/-- Pair 15 operates as terminal 5, its shutter ready, burst profile 0 valid. -/
def served : State :=
  (((((inFrame.wr (ACT_CP_STATE_STATE 15) 4).put (UBE_CH_STAT_SHUT_RDY 15) true).put (UBE_PROF_VALID 15 0) true).wr (UBE_PROF_PRE_LEN 15 0) 1024).wr
    (UBE_CH_CFG_MAX_LEN 15) 60000).setUbeCh 15 { (inFrame.ubeCh 15) with copy := { tnV := true, tn := 5 } }

/-- FramingTableRows: the overhead port and the map entries: one that is ignored, one discarded, one accepted. -/
theorem wit_FramingTableRows_entries :
    (isUp portFeeds = true ∧ portFeeds.bit (OHS_CTL_I_EN 3) = true ∧ portFeeds.runs blkOHS = true ∧
      ohsFeeder portFeeds (portFeeds.rd (OHS_CTL_I_DST 3)) = some 3) ∧
    (isUp inFrame = true ∧ (inFrame.dsfCh 15).live = true ∧ (inFrame.dsfCh 15).hdrOk = true ∧ inFrame.runs blkUBE = true ∧
      (0 : Fin 512).val < (inFrame.dsfCh 15).mapN ∧ crc32cOk 16 (entryBytes 1000) = true ∧ spanGood (inFrame.dsfCh 15).bad 128 16 = true ∧
      judge inFrame 15 (grantOf (entryBytes 1000)) = .ignored) ∧
    ((served.dsfCh 15).live = true ∧ crc32cOk 16 (entryBytes 0) = true ∧ judge served 15 (grantOf (entryBytes 0)) = .discarded ∧
      judge served 15 (grantOf (entryBytes 1000)) = .accepted) := by decide +kernel

/-- FramingTableRows: an idle fragment, a first fragment of a stream, an assembly at its time-out and one before it. -/
theorem wit_FramingTableRows_fragments :
    AtFragment 15 (fragBytes 0xFFFF) (fragWord 0xFFFF) inFrame ∧ hdrSid (fragWord 0xFFFF) = 0xFFFF ∧
    (AtFragment 15 (fragBytes 7) (fragWord 7) inFrame ∧ ({} : Checks).flips = [] ∧ injArmed blkDSF ({} : Checks).idx.toNat inFrame = false ∧
      hdrSid (fragWord 7) ≠ 0xFFFF ∧ streamOf inFrame 15 (hdrSid (fragWord 7)) = some 9 ∧
      (inFrame.streamCtx 9).type = 0 ∧ (inFrame.streamCtx 9).reqEnc = false ∧ hdrKi (fragWord 7) = 0 ∧ 0 < hdrPlen (fragWord 7) ∧
      hdrFirst (fragWord 7) = true ∧ hdrFseq (fragWord 7) = 0 ∧ hdrLast (fragWord 7) = false ∧
      (inFrame.spcCh 15).twins.contains ((inFrame.dsfCh 15).fc, (inFrame.dsfCh 15).pos) = false ∧ asmOf inFrame 15 (hdrSid (fragWord 7)) = none ∧
      (slice (fragBytes 7) 8 (hdrPlen (fragWord 7))).length ≤ (inFrame.streamCtx 9).maxpkt ∧
      inFrame.cel.raUsed + cellCount 0 (slice (fragBytes 7) 8 (hdrPlen (fragWord 7))).length false ≤ inFrame.rd CEL_POOL_RA_RA) ∧
    (let a : Assembly := ⟨[], 0, 1, inFrame.rd (DSF_CH_CFG_RTO 15), ⟨0, 0⟩, 0, 0, false⟩
     asmOf (inFrame.setDsfCh 15 { (inFrame.dsfCh 15) with asm := [(7, some a)] }) 15 (7 : BitVec 16).toNat = some a ∧
      inFrame.rd (DSF_CH_CFG_RTO 15) ≤ a.ticks) ∧
    asmOf inFrame 15 (7 : BitVec 16).toNat = none := by unfold AtFragment; decide +kernel

/-- FramingTableRows: accesses of DSF's tables at the bounds of their indexes, and beyond them. -/
theorem wit_FramingTableRows_tables :
    (Accepted m0 DSF_IND_CMD.addr (dsfGo (2 ^ 57 + 255) 1) ready ∧ ready.bit DSF_IND_CMD_GO = false ∧ fieldOf (2 ^ 57 + 255 : Word) 56 2 < 3 ∧
      fieldOf (2 ^ 57 + 255 : Word) 56 2 = 2 ∧ fieldOf (2 ^ 57 + 255 : Word) 0 20 ≤ 255) ∧
    (Accepted m0 DSF_IND_CMD.addr (dsfGo 0xFFFFF 0) ready ∧ fieldOf (0xFFFFF : Word) 56 2 = 0 ∧
      fieldOf (ready.reg (DSF_IND_DATA 0).addr) 63 1 = 0) ∧
    (Accepted m0 DSF_IND_CMD.addr (dsfGo (2 ^ 57 + 256) 0) ready ∧ fieldOf (2 ^ 57 + 256 : Word) 56 2 = 2 ∧ 255 < fieldOf (2 ^ 57 + 256 : Word) 0 20) := by
  decide +kernel

/-- StartAndLineComplete: an end record, a wait in a retry and out of one; a receiver that locks, whose lock is lost, whose line is lit. -/
theorem wit_StartAndLineComplete_start :
    (Configuring (record 3) 0x000110000000 16 ∧ 16 * (record 3).cfg.recIdx + 16 ≤ 16 ∧ fieldOf (recordAt (record 3) 0x000110000000).1 56 8 = 3) ∧
    (let s : State := { ready with cfg := { ready.cfg with waiting := true } }
     s.cfg.boot = .booted ∧ s.cfg.waiting = true ∧ s.bit CFG_BOOT_STATUS_RETRY = false ∧
      (s.put CFG_BOOT_STATUS_RETRY true).cfg.boot = .booted ∧ (s.put CFG_BOOT_STATUS_RETRY true).cfg.waiting = true ∧
      (s.put CFG_BOOT_STATUS_RETRY true).bit CFG_BOOT_STATUS_RETRY = true) ∧
    (let s := (rxOn.put (LPH_RX_STATUS_RX_LOS 15) false).put (LPH_RX_STATUS_LO_LOCK 15) true
     isUp s = true ∧ rxPowered s 15 = true ∧ (s.lphCh 15).loLow = false ∧ s.bit (LPH_RX_STATUS_RX_LOS 15) = false ∧
      s.bit (LPH_RX_STATUS_LO_LOCK 15) = true ∧ (BitVec.ofInt 16 (-281)).toInt < -280 ∧ -270 ≤ (BitVec.ofInt 16 (-270)).toInt) ∧
    (isUp (rxOn.put (LPH_RX_STATUS_CR_LOCK 15) true) = true ∧ (rxOn.put (LPH_RX_STATUS_CR_LOCK 15) true).bit (LPH_RX_STATUS_CR_LOCK 15) = true) ∧
    (isUp ready = true ∧ (119 : BitVec 16).toInt < 120 ∧ 120 ≤ (120 : BitVec 16).toInt) := by decide +kernel

/-- StartAndLineComplete: a window in HUNT and in SYNC, a valid header in SYNC. -/
theorem wit_StartAndLineComplete_frames :
    (isUp (align 0) = true ∧ (align 0).rd (DSF_SYNC_STATE 15) = 0 ∧ (align 0).bit (LPH_CH_CTL_RX_EN 15) = true ∧
      fawUnder (align 0) 15 (32768 : BitVec 32).toNat (BitVec.ofNat 256 fawWord).toNat 0 = true) ∧
    (isUp (align 3) = true ∧ (align 3).rd (DSF_SYNC_STATE 15) = 3 ∧ fawUnder (align 3) 15 (32768 : BitVec 32).toNat (BitVec.ofNat 256 fawWord).toNat ((align 3).rd (DSF_SYNC_HYP 15)) = true ∧
      headerOk 15 (((align 3).dsfCh 15).badNext.contains 0) headerBytes = true) := by decide +kernel

/-- Channel `k` is in SYNC. -/
def synced (k : Chan) (s : State) : State := s.wr (DSF_SYNC_STATE k) 3

/-- Pair `k` is in a state. -/
def inState (k : Chan) (n : Nat) (s : State) : State := s.wr (ACT_CP_STATE_STATE k) n

/-- PairTimersComplete: states for the controls of ACT. -/
theorem wit_PairTimersComplete_controls :
    (let s := synced 15 ready
     Accepted m0 (ACT_CP_CTL 15).addr (withField 0 (ACT_CP_CTL_EN 15) 1) s ∧ inField 0 (ACT_CP_CTL_RESTART 15) = 0 ∧ s.runs blkACT = true ∧
      pairState s 15 = 0 ∧ inSync s 15 = true ∧ s.bit (ACT_CP_STATE_CHP_SIL 15) = false ∧ disabled s 15 = false ∧
      s.bit (ACT_CP_STATE_PARAMS_OK 15) = false) ∧
    (Accepted m0 (ACT_CP_CTL 0).addr (withField 0 (ACT_CP_CTL_EN 0) 1) ready ∧ inField 0 (ACT_CP_CTL_RESTART 0) = 0 ∧ pairState ready 0 = 0 ∧
      inSync ready 0 = false) ∧
    (Accepted m0 (ACT_CP_CTL 3).addr (withField 0 (ACT_CP_CTL_EN 3) 0) ready ∧ ready.runs blkACT = true) ∧
    (Accepted m0 (ACT_CP_CTL 3).addr (withField 0 (ACT_CP_CTL_RESTART 3) 1) ready ∧ inSync ready 3 = false) := by decide +kernel

/-- PairTimersComplete: states for a waiting change and for each timer at its end. -/
theorem wit_PairTimersComplete_timers :
    (let s := (synced 15 (ready.setPair 15 { pend := [(0, {})] })).setBseq 15 1
     isUp s = true ∧ inSync s 15 = true ∧ (s.pair 15).pend = [(0, {})] ∧ 0 < s.bseq 15 ∧ (s.group 15).pend = false) ∧
    (let s := inState 15 2 (ready.setPair 15 { tAsg := some 0 })
     isUp s = true ∧ s.runs blkACT = true ∧ pairState s 15 = 2 ∧ (s.pair 15).tAsg = some 0) ∧
    (let s := inState 15 3 (ready.setPair 15 { tRng := some 0 })
     pairState s 15 = 3 ∧ s.runs blkACT = true ∧ isUp s = true ∧ (s.pair 15).tRng = some 0 ∧ disabled s 15 = false ∧
      s.bit (ACT_CP_STATE_PARAMS_OK 15) = false) ∧
    (let s := inState 15 5 (ready.setPair 15 { tInt := some 0 })
     pairState s 15 = 5 ∧ s.runs blkACT = true ∧ isUp s = true ∧ (s.pair 15).tInt = some 0 ∧ inSync s 15 = false) ∧
    (let s := inState 0 6 (ready.setPair 0 { hold := some 0 })
     pairState s 0 = 6 ∧ s.runs blkACT = true ∧ isUp s = true ∧ (s.pair 0).hold = some 0 ∧ s.bit (ACT_CP_CTL_EN 0) = false) := by decide +kernel

/-- A downstream message with its MCRC (Table 5.2): type, terminal number, sequence, the rest of word 0, further words. -/
def dsMsg (type tnum seq w0 : Nat) (rest : List Nat) : Bytes := fillMsg tnum seq (msgBody type w0 rest)

/-- The serial number 77, which this device's fuses hold (its reset value is not fixed). -/
def serial77 (s : State) : State :=
  { s with regs := s.regs.filter (fun e => decide (e.1 < ACT_SN.addr)) ++ (ACT_SN.addr, 77) :: s.regs.filter (fun e => decide (ACT_SN.addr < e.1)) }

/-- Pair 15 in a state, in the middle of a frame with 64 message areas; its terminal number is 5, the serial number 77. -/
def hears (st : Nat) : State :=
  (((inState 15 st (serial77 ready)).put (ACT_CP_STATE_TN_VALID 15) true).wr (ACT_CP_STATE_TN 15) 5).setDsfCh 15
    { hdrOk := true, live := true, msgN := 64, pos := 5000 }

/-- MessagesComplete: messages that are no message. -/
theorem wit_MessagesComplete_unknown :
    (isUp (hears 4) = true ∧ (hears 4).runs blkACT = true ∧ msgArea (hears 4) 15 63 = true ∧ crc32cOk 64 (zeros 64) = false) ∧
    (crc32cOk 64 (dsMsg 0x3E 5 1 0 []) = true ∧ msgRule (msgType (dsMsg 0x3E 5 1 0 [])) = none) := by decide +kernel

/-- MessagesComplete: line parameters, an assignment, a ranging time of each path, a burst profile at the ends of its ranges. -/
theorem wit_MessagesComplete_line :
    (Taken (hears 3) 15 63 1 (dsMsg 1 1023 1 0 [eqdMax]) ∧ pairState (hears 3) 15 = 3 ∧ msgF (dsMsg 1 1023 1 0 [eqdMax]) 1 0 32 ≤ eqdMax) ∧
    (let s := (hears 2).setAllocCtx 0 ⟨true, 15, 5, true⟩
     let m := dsMsg 2 1023 1 1022 [77]
     isUp s = true ∧ Taken s 15 63 2 m ∧ msgF m 0 0 10 ≠ 1023 ∧ (claimDefault 15 (msgF m 0 0 10) s).isSome = true) ∧
    (let m := dsMsg 3 5 1 eqdMax []
     Taken (hears 3) 15 63 3 m ∧ msgF m 0 38 1 = 0 ∧ msgF m 0 0 32 ≤ eqdMax ∧ msgF m 0 37 1 = activePort (hears 3)) ∧
    (let m := dsMsg 3 5 1 (2 ^ 37 + 7) []
     Taken (hears 3) 15 63 3 m ∧ msgF m 0 38 1 = 0 ∧ msgF m 0 0 32 ≤ eqdMax ∧ msgF m 0 37 1 ≠ activePort (hears 3)) ∧
    (let m := dsMsg 4 1023 1 (16384 * 2 ^ 16 + 4000) []
     Taken (hears 4) 15 63 4 m ∧ pairState (hears 4) 15 = 4 ∧ msgF m 0 16 16 % 64 = 0 ∧ 1024 ≤ msgF m 0 16 16 ∧ msgF m 0 16 16 ≤ 16384 ∧
      64 ≤ msgF m 0 0 12 ∧ msgF m 0 0 12 ≤ 4000 ∧ ((hears 4).bank (UBE_BANK 15).addr).phase = .idle) := by
  simp only [Taken]; decide +kernel

/-- MessagesComplete: DISABLE, ENABLE, DEACTIVATE and PROT_SWITCH. -/
theorem wit_MessagesComplete_orders :
    (let m := dsMsg 0xB 1023 1 0 [77]
     Taken (hears 4) 15 63 0xB m ∧ msgF m 0 38 1 = 0) ∧
    (let s := synced 15 (hears 7)
     let m := dsMsg 0xC 1023 1 0 [77]
     isUp s = true ∧ Taken s 15 63 0xC m ∧ msgF m 0 38 1 = 0) ∧
    Taken (hears 4) 15 63 0xD (dsMsg 0xD 5 1 0xFFFF []) ∧
    Taken ((hears 4).put (ACT_CP_CTL_PROT_AUTH 15) true) 15 63 0xE (dsMsg 0xE 1023 1 (2 ^ 38) [77]) := by simp only [Taken]; decide +kernel

/-- The wrapped key of RFC 3394, 4.6. -/
def wrapped256 : List Nat := [0x28C9F404C4B810F4, 0xCBCCB35CFB87F826, 0x3F5786E2D80ED326, 0xCBC7F0E71A99F43B, 0xFB988B9B7A02DD21]

/-- Its KEK: the bytes 0, 1 to 31. -/
def kek256 : Bytes := (List.range 32).map (fun i => BitVec.ofNat 8 i)

/-- The registers A and R1 to R4 of the unwrapping. -/
def keyRegs (a : Nat) (r : List Nat) : Bytes × List Bytes := (beBytes 8 a, r.map (beBytes 8))

/-- Steps 24 - j of the unwrapping, for each j of a list. -/
def unwrapTurns (l : List Nat) (p : Bytes × List Bytes) : Bytes × List Bytes := l.foldl (fun p j => unwrapStep kek256 4 (24 - j) p) p

theorem unwrap_turns_0 : unwrapTurns [0, 1, 2, 3]
    (keyRegs 0x28c9f404c4b810f4 [0xcbccb35cfb87f826, 0x3f5786e2d80ed326, 0xcbc7f0e71a99f43b, 0xfb988b9b7a02dd21]) =
    (keyRegs 0xd058823360f88a23 [0x1bb8c765a84195e7, 0xf7edad518c960d36, 0x1cfbf6b4c24cb982, 0x7dfe775b9687e73]) := by decide +kernel
theorem unwrap_turns_1 : unwrapTurns [4, 5, 6, 7]
    (keyRegs 0xd058823360f88a23 [0x1bb8c765a84195e7, 0xf7edad518c960d36, 0x1cfbf6b4c24cb982, 0x7dfe775b9687e73]) =
    (keyRegs 0x5075496800978b5a [0x4745856af333f01f, 0xbca418bbf7dce60b, 0xc272e9466aae98f9, 0x40f68c91db49702c]) := by decide +kernel
theorem unwrap_turns_2 : unwrapTurns [8, 9, 10, 11]
    (keyRegs 0x5075496800978b5a [0x4745856af333f01f, 0xbca418bbf7dce60b, 0xc272e9466aae98f9, 0x40f68c91db49702c]) =
    (keyRegs 0xf9ed8a1429515669 [0xd6ae29ece7192d43, 0xfbec169fa5c0f6ba, 0xf56701daf0388216, 0x3cf149e90e8c04d9]) := by decide +kernel
theorem unwrap_turns_3 : unwrapTurns [12, 13, 14, 15]
    (keyRegs 0xf9ed8a1429515669 [0xd6ae29ece7192d43, 0xfbec169fa5c0f6ba, 0xf56701daf0388216, 0x3cf149e90e8c04d9]) =
    (keyRegs 0xc58b9d3ac6d5b946 [0xe7d1194d853e53f8, 0xefd48ba304945576, 0xc365b66943e2d760, 0x73e3b6cbe5d05d74]) := by decide +kernel
theorem unwrap_turns_4 : unwrapTurns [16, 17, 18, 19]
    (keyRegs 0xc58b9d3ac6d5b946 [0xe7d1194d853e53f8, 0xefd48ba304945576, 0xc365b66943e2d760, 0x73e3b6cbe5d05d74]) =
    (keyRegs 0x564408fdd0dd2ea0 [0xf661bd9f31fbfa31, 0xf60e0cdb7f429fe8, 0x6ca405593a3b5154, 0xe5923cb9fdb56fbc]) := by decide +kernel
theorem unwrap_turns_5 : unwrapTurns [20, 21, 22, 23]
    (keyRegs 0x564408fdd0dd2ea0 [0xf661bd9f31fbfa31, 0xf60e0cdb7f429fe8, 0x6ca405593a3b5154, 0xe5923cb9fdb56fbc]) =
    (keyRegs 0xa6a6a6a6a6a6a6a6 [0x11223344556677, 0x8899aabbccddeeff, 0x1020304050607, 0x8090a0b0c0d0e0f]) := by decide +kernel
theorem unwrap_turns : unwrapTurns (List.range 24) (keyRegs 0x28c9f404c4b810f4 [0xcbccb35cfb87f826, 0x3f5786e2d80ed326, 0xcbc7f0e71a99f43b, 0xfb988b9b7a02dd21]) =
    (keyRegs 0xa6a6a6a6a6a6a6a6 [0x11223344556677, 0x8899aabbccddeeff, 0x1020304050607, 0x8090a0b0c0d0e0f]) := by
  rw [show List.range 24 = [0, 1, 2, 3] ++ ([4, 5, 6, 7] ++ ([8, 9, 10, 11] ++ ([12, 13, 14, 15] ++ ([16, 17, 18, 19] ++ [20, 21, 22, 23])))) from by decide]
  have app : ∀ a b p, unwrapTurns (a ++ b) p = unwrapTurns b (unwrapTurns a p) := fun a b p => List.foldl_append
  rw [app, unwrap_turns_0, app, unwrap_turns_1, app, unwrap_turns_2, app, unwrap_turns_3, app, unwrap_turns_4, unwrap_turns_5]
theorem keyUnwrap_of_length {kek c : Bytes} {n : Nat} (h : c.length / 8 - 1 = n) :
    keyUnwrap kek c =
      if ((List.range (6 * n)).foldl (fun p j => unwrapStep kek n (6 * n - j) p)
          (c.take 8, (List.range n).map (fun i => slice c (8 * (i + 1)) 8))).1 = List.replicate 8 (0xA6 : Byte)
      then some ((List.range (6 * n)).foldl (fun p j => unwrapStep kek n (6 * n - j) p)
          (c.take 8, (List.range n).map (fun i => slice c (8 * (i + 1)) 8))).2.flatten else none := by
  subst h; rfl

/-- The wrapped key unwraps under its KEK. -/
theorem test_key_unwrap : keyUnwrap kek256 (wrapped256.flatMap (beBytes 8)) =
    some ([0x00112233445566778899AABBCCDDEEFF, 0x000102030405060708090A0B0C0D0E0F].flatMap (beBytes 16)) := by
  have e : ((wrapped256.flatMap (beBytes 8)).take 8, (List.range 4).map (fun i => slice (wrapped256.flatMap (beBytes 8)) (8 * (i + 1)) 8)) =
      (keyRegs 0x28c9f404c4b810f4 [0xcbccb35cfb87f826, 0x3f5786e2d80ed326, 0xcbc7f0e71a99f43b, 0xfb988b9b7a02dd21]) := by decide +kernel
  have f := unwrap_turns
  unfold unwrapTurns at f
  rw [keyUnwrap_of_length (n := 4) (by decide +kernel), e, show 6 * 4 = 24 from rfl, f]
  decide +kernel

/-- Pair 15 in Operating, authenticated, with register access by messages. -/
def trusted : State := ((hears 4).put (ACT_CP_STATE_AUTH_SENT 15) true).put (ACT_CP_CTL_MGMT_EN 15) true

/-- KeyAndFirmwareMessagesComplete: a challenge with RK programmed, and the operations of KEY_CONTROL. -/
theorem wit_KeyAndFirmwareMessagesComplete_keys :
    (let s := { trusted with kln := { trusted.kln with rk := some kek256 } }
     isUp s = true ∧ Taken s 15 63 5 (dsMsg 5 5 1 0 [1, 2, 3, 4]) ∧ s.kln.rk = some kek256) ∧
    (let m := dsMsg 6 5 1 (2 * 2 ^ 34 + 2 * 2 ^ 32 + 7) wrapped256
     Taken (trusted.setKek 15 (some kek256)) 15 63 6 m ∧ msgF m 0 36 3 = 0 ∧ msgF m 0 34 2 ≠ 3 ∧ msgF m 0 32 2 ∈ [1, 2] ∧
      (trusted.setKek 15 (some kek256)).kek 15 = some kek256 ∧ (keyUnwrap kek256 (slice m 8 40)).isSome = true) ∧
    (let s := (trusted.setRoot 47 (some kek256)).setLastEpoch 47 (some 6)
     let m := dsMsg 6 5 1 (2 ^ 36 + 2 * 2 ^ 34 + 2 * 2 ^ 32 + 7) []
     Taken s 15 63 6 m ∧ msgF m 0 36 3 = 1 ∧ msgF m 0 34 2 ≠ 3 ∧ msgF m 0 32 2 ∈ [1, 2] ∧
      (s.root (3 * 15 + msgF m 0 34 2)).isSome = true ∧ (s.lastEpoch (3 * 15 + msgF m 0 34 2)).all (fun e => decide (e < msgF m 0 0 32)) = true) ∧
    (let m := dsMsg 6 5 1 (2 * 2 ^ 36 + 2 ^ 32) []
     Taken trusted 15 63 6 m ∧ msgF m 0 36 3 = 2 ∧ msgF m 0 34 2 ≠ 3 ∧ msgF m 0 32 2 ∈ [1, 2]) ∧
    (let m := dsMsg 6 5 1 (3 * 2 ^ 36 + 2 * 2 ^ 34 + 2 ^ 32) []
     Taken trusted 15 63 6 m ∧ msgF m 0 36 3 = 3 ∧ msgF m 0 34 2 ≠ 3 ∧ msgF m 0 32 2 ∈ [1, 2]) := by
  have e : slice (dsMsg 6 5 1 (2 * 2 ^ 34 + 2 * 2 ^ 32 + 7) wrapped256) 8 40 = wrapped256.flatMap (beBytes 8) := by decide +kernel
  dsimp only
  rw [e, test_key_unwrap]
  simp only [Taken]; decide +kernel

/-- Window 2 lets every level reach the core memory. -/
def opened (s : State) : State := s.setAcuWin 2 ⟨true, false, 0, 63, 0x100000, 0x1007FF⟩

/-- KeyAndFirmwareMessagesComplete: messages for firmware, the time of day, a wake list, and accesses to core memory. -/
theorem wit_KeyAndFirmwareMessagesComplete_rest :
    Taken trusted 15 63 7 (dsMsg 7 5 1 0 []) ∧ trusted.act.rxq.length < 256 ∧ Taken trusted 15 63 8 (dsMsg 8 5 1 0 []) ∧
    Taken trusted 15 63 9 (dsMsg 9 5 1 0 []) ∧
    (Taken trusted 15 63 0xA (dsMsg 0xA 1023 1 0 []) ∧ pairState trusted 15 = 4 ∧ (timSource trusted ≠ 1 ∨ shownPair trusted ≠ some (15 : Chan).val)) ∧
    Taken trusted 15 63 0xF (dsMsg 0xF 1023 1 0 []) ∧
    (let s := opened trusted
     let m := dsMsg 0x10 5 1 0 [0x100000000, 99]
     Taken s 15 63 0x10 m ∧ canAccess s .mgmt (msgF m 1 0 48) = true ∧ accessRefused .mgmt .word true (msgF m 1 0 48) (wordAt m 16) s = false ∧
      regionOf (msgF m 1 0 48) = .sram) ∧
    (let s := opened trusted
     let m := dsMsg 0x11 5 1 0 [0x100000000]
     Taken s 15 63 0x11 m ∧ canAccess s .mgmt (msgF m 1 0 48) = true ∧ accessRefused .mgmt .word false (msgF m 1 0 48) 0 s = false ∧
      regionOf (msgF m 1 0 48) = .sram) := by simp only [Taken]; decide +kernel

/-- MessageQueuesComplete: an order whose frame has come; every enabled channel lost for PROT_LOS ms; a pop and a send. -/
theorem wit_MessageQueuesComplete :
    (let s := { (ready.setBseq 15 1).setLastB 15 9 with act := { ready.act with order := some (1, 9, 15, 0) } }
     isUp s = true ∧ s.act.order = some (1, 9, 15, 0) ∧ 0 < s.bseq 15 ∧ 9 ≤ s.lastB 15) ∧
    (let s := { ((((ready.put ACT_PROT_AUTO_PROT true).put (LPH_CH_CTL_RX_EN 3) true).put (LPH_RX_STATUS_RX_LOS 3) true).setLphCh 3
        { ready.lphCh 3 with losAt := some 0 }) with ticks := 10 ^ 12 }
     isUp s = true ∧ s.bit ACT_PROT_AUTO_PROT = true ∧ s.runs blkACT = true ∧ s.act.autoMoved = none ∧
      s.bit (LPH_CH_CTL_RX_EN 3) = true ∧ s.pwr.cpOn.testBit 3 = true ∧
      ∀ k < 16, s.bit (LPH_CH_CTL_RX_EN k) = true → s.pwr.cpOn.testBit k = true → lostLong s k = true) ∧
    Accepted m0 ACT_RXQ_CTL.addr (withField 0 ACT_RXQ_CTL_POP 1) ready ∧ ready.act.rxq.length ≤ 256 ∧
    (let s := (inState 15 4 ready).setReg (ACT_TXQ_DATA 0).addr (0x21 * 2 ^ 58)
     let v := withField 0 ACT_TXQ_CMD_CP 15
     Accepted m0 ACT_TXQ_CMD.addr (withField v ACT_TXQ_CMD_GO 1) s ∧ inField v ACT_TXQ_CMD_CP = 15 ∧
      msgType (txqMsg s) ∈ [0x21, 0x23, 0x24] ∧ inService s 15 = true ∧ (s.pair 15).msgq.length < 16) := by decide +kernel

/-- Everything the Chaperone's shutter of channel 15 asks for holds. -/
def litUp : State :=
  (((((synced 15 ready).put (CHP_COPY_TN_V 15) true).put (CHP_STATUS_TIME_OK 15) true).put (LPH_RX_STATUS_RX_LOS 15) false).put
    (LPH_RX_STATUS_CR_LOCK 15) true).setChpCh 15 { phased := true }

/-- A burst of channel 15 that is being sent. -/
def onAir : Burst :=
  { frame := 7, seq := 0, grant := ⟨5, 100, 200, 0, false, false⟩, ctx := none, phase := .started, prof := ⟨true, 0, false, 1024, 64⟩, eqd := 0,
    tn := 5, dflt := true, mand := 80, carries := false, area := 0, ki := 0, pieces := [], skipped := [], nofrag := [], rnd := 0, msg := none,
    out := [], encoded := 0, late := false }

/-- It is on the air. -/
def sends (s : State) : State := s.setUbeCh 15 { s.ubeCh 15 with bursts := [onAir] }

/-- A map entry with its check (Table 4.5). -/
def mapEntry5 : Bytes := withCrc32c (beBytes 8 (5 * 2 ^ 50 + 100 * 2 ^ 34 + 200 * 2 ^ 18) ++ zeros 4)

/-- A header of channel 15 with one map entry. -/
def header1 : Bytes := withCrc32c (beBytes 8 (8 * 2 ^ 16 + 2 ^ 6) ++ beBytes 8 (15 * 2 ^ 48) ++ List.replicate 44 0)

/-- ChaperoneComplete: frames, the shutter, and closing. -/
theorem wit_ChaperoneComplete_windows :
    (isUp litUp = true ∧ headerOk 15 ((litUp.dsfCh 15).bad.contains 0) (zeros 64) = false) ∧
    (let s := (litUp.wr (CHP_COPY_TN 15) 5).wr (CHP_LIMIT_MAX_LEN 15) 200
     headerOk 15 ((s.dsfCh 15).bad.contains 0) header1 = true ∧ fieldOf (wordAt header1 0) 6 10 = 1 ∧ spanGood (s.dsfCh 15).bad 128 16 = true ∧
      crc32cOk 16 mapEntry5 = true ∧ chpWindow s 15 (fieldOf (wordAt header1 0) 16 48) mapEntry5 = some ⟨8, 24872, 75128⟩) ∧
    (shutterConds litUp 15 = true ∧ litUp.bit (CHP_STATUS_SHUTTER 15) = false) ∧
    (let s := (synced 15 (litUp.put (CHP_STATUS_SHUTTER 15) true)).wr (DSF_SYNC_STATE 15) 0
     isUp s = true ∧ s.bit (CHP_STATUS_SHUTTER 15) = true ∧ inSync s 15 = false) := by decide +kernel

/-- ChaperoneComplete: each cause of a shutdown, and a release. -/
theorem wit_ChaperoneComplete_causes :
    (isUp (sends litUp) = true ∧ (sends litUp).bit (CHP_STATUS_SIL 15) = false ∧ beGate (sends litUp) 15 = some onAir ∧
      gateCovered (sends litUp) 15 onAir = false ∧ oscNeeded litUp 15 = true ∧ gateLimit (sends litUp) 15 < 2 ^ 32 - 1) ∧
    dutyExceeded (litUp.setChpCh 15 { litUp.chpCh 15 with open8 := [2 ^ 40] }) 15 = true ∧
    (inSync litUp 15 = true ∧ (litUp.chpCh 15).phased = true ∧ 2 < (3 : BitVec 16).toNat) ∧
    (isUp (ready.put FLT_SUMMARY_FATAL true) = true ∧ (ready.put FLT_SUMMARY_FATAL true).bit FLT_SUMMARY_FATAL = true) ∧
    (let s := (litUp.put (CHP_STATUS_SIL 15) true).put (CHP_STATUS_CLK_OK 15) true
     Accepted m0 (CHP_CTL 15).addr (withField 0 (CHP_CTL_RELEASE 15) 1) s ∧ s.bit (CHP_STATUS_SIL 15) = true ∧ s.runs blkCHP = true ∧
      s.bit (CHP_STATUS_CLK_OK 15) = true ∧ s.bit FLT_SUMMARY_FATAL = false) := by decide +kernel

/-- The frame of channel 15 has its header; one grant of its map is accepted. -/
def judged : State :=
  ((ready.put (UBE_CH_CFG_PRED_EN 15) false).setDsfCh 15 { live := true, hdrOk := true, fc := 7 }).setUbeCh 15 { accepted := [⟨5, 100, 200, 0, false, false⟩] }

/-- A packet of stream context 9, passed over in as many frames as NF_WAIT allows, at the head of a leaf of allocation context 0. -/
def waiting : State :=
  let s := (ready.setAllocCtx 0 { valid := true, cp := 15, alloc := 2000 }).setUpStream 9 { valid := true, nofrag := true }
  { s with cel := { s.cel with queues := [(131072, { pkts := [{ id := 1, bytes := zeros 64, sctx := 9, passed := 80, cells := [], adm := 0, ingress := ⟨0, 0⟩, inPort := 0, poisoned := false, origin := false, spec := none, off := 0, fseq := 0, doomed := false }] })] } }

/-- The burst before it begins. -/
def nextUp : State := (litUp.put (CHP_STATUS_SHUT_RDY 15) true).setUbeCh 15 { bursts := [{ onAir with phase := .built }] }

/-- A burst of channel 15 on the air with one clear piece. -/
def piece64 : Piece :=
  { pkt := { id := 1, bytes := zeros 64, sctx := 9, passed := 0, cells := [], adm := 0, ingress := ⟨0, 0⟩, inPort := 0, poisoned := false, origin := false, spec := none, off := 0, fseq := 0, doomed := false }, leaf := 131072, plen := 64, last := true, rel := true, charge := ⟨131072, 0, 0, false, false, 0⟩, up := {} }

/-- Its piece has still to be encoded. -/
def onAir64 : Burst := { onAir with pieces := [piece64], area := 72 }

/-- BurstsComplete: a judged map, a NOFRAG packet, a burst begun, encoded and sent. -/
theorem wit_BurstsComplete_bursts :
    (isUp judged = true ∧ judged.runs blkUBE = true ∧ (judged.dsfCh 15).live = true ∧ (judged.dsfCh 15).hdrOk = true ∧
      (judged.ubeCh 15).accepted = [⟨5, 100, 200, 0, false, false⟩] ∧ (5 : Nat) ≠ allocDisc ∧ (judged.ubeCh 15).bursts = [] ∧
      judged.bit (UBE_CH_CFG_PRED_EN 15) = false) ∧
    (isUp waiting = true ∧ dirOf 131072 = 1 ∧ (waiting.allocCtx (leafAlloc waiting (131072 % 131072))).cp = 15 ∧
      waiting.rd (UBE_CH_CFG_NF_WAIT 15) ≤ 80 ∧ (waiting.upStream 9).nofrag = true) ∧
    (isUp nextUp = true ∧ nextBurst nextUp 15 = some { onAir with phase := .built } ∧ nextUp.runs blkUBE = true ∧ sending nextUp 15 = none ∧
      leadTooEarly nextUp 15 { onAir with phase := .built } = false ∧
      nextUp.bit (CHP_STATUS_SHUT_RDY 15) = true) ∧
    (let s := litUp.setUbeCh 15 { bursts := [onAir64] }
     isUp s = true ∧ sending s 15 = some onAir64 ∧ onAir64.grant.alloc ≠ allocDisc ∧ onAir64.pieces[onAir64.encoded]? = some piece64 ∧
      piece64.up.reqEnc = false ∧ piece64.pkt.poisoned = false ∧ injArmed blkUBE 0 s = false) ∧
    (let b := { onAir with out := zeros 80 }
     let s := litUp.setUbeCh 15 { bursts := [b] }
     isUp s = true ∧ sending s 15 = some b ∧ burstWhole b = true) := by decide +kernel

/-- BurstsComplete: accesses to the tables of UBE. -/
theorem wit_BurstsComplete_tables :
    (let v := withField 0 UBE_IND_CMD_INDEX 4095
     Accepted m0 UBE_IND_CMD.addr (ubeGo v 1) ready ∧ ready.bit UBE_IND_CMD_GO = false ∧ inField v UBE_IND_CMD_TABLE = 0 ∧
      inField v UBE_IND_CMD_INDEX = 4095) ∧
    (let v := withField (withField 0 UBE_IND_CMD_INDEX 65535) UBE_IND_CMD_TABLE 1
     Accepted m0 UBE_IND_CMD.addr (ubeGo v 1) ready ∧ Accepted m0 UBE_IND_CMD.addr (ubeGo v 0) ready ∧ inField v UBE_IND_CMD_TABLE = 1 ∧
      inField v UBE_IND_CMD_INDEX = 65535 ∧ fieldOf (ready.reg UBE_IND_DATA.addr) 0 16 ≠ 0xFFFF) ∧
    (let v := withField 0 UBE_IND_CMD_INDEX 4095
     let s := ready.setReg UBE_IND_DATA.addr (2 ^ 63 + 15 * 2 ^ 56 + 16382 * 2 ^ 40)
     let d := s.reg UBE_IND_DATA.addr
     Accepted m0 UBE_IND_CMD.addr (ubeGo v 0) s ∧ s.bit UBE_IND_CMD_GO = false ∧ inField v UBE_IND_CMD_TABLE = 0 ∧ 1024 ≤ fieldOf d 40 14 ∧
      fieldOf d 40 14 ≤ 16382 ∧ pairContexts s (fieldOf d 56 4) false (some 4095) < 256 ∧ (s.group (16 + fieldOf d 56 4)).pend = false ∧
      (s.allocCtx 4095).dflt = false) := by decide +kernel

/-- The device booted with every unit powered. -/
def lit : State := { ready with pwr := { ready.pwr with off := 0, cpOn := 0xFFFF, portOn := 0xFFFF, pipeOn := 0xFFFF } }

/-- A frame to no rule in a pipeline's input. -/
def passing (p : PassPkt) : State := ((lit.setPipe 15 { input := [p, p] }).wr (PRS_SRC_CFG_DEPTH 30) 255).wr (PRS_SRC_CFG_MAXHDR 30) 16

/-- A packet of 64 zero bytes from logical port 14, upstream. -/
def pkt64 : PassPkt := { bytes := List.replicate 64 0, dir := 1, src := 14, sid := 0 }

/-- RulesComplete: passes, idle slots and reinjections. -/
theorem wit_RulesComplete_passes :
    (let s := passing pkt64
     isUp s = true ∧ s.runs blkPRS = true ∧ s.runs blkCLS = true ∧ s.runs blkFLW = true ∧ celAccepts s = true ∧ pipeOn s (15 : Pipe) = true ∧
      (s.pipe (15 : Pipe)).input = [pkt64, pkt64] ∧ injArmed blkPRS 0 s = false ∧ pkt64.toLeaf = none ∧ pkt64.spec = none ∧
      passLooksUp s pkt64 (parse (parseCfg s pkt64) pkt64.bytes pkt64.hid) = true ∧ passRule s pkt64 (parse (parseCfg s pkt64) pkt64.bytes pkt64.hid) = none) ∧
    (let s := lit.setPipe 15 { idle := [(.slow, pkt64), (.recirc, pkt64)] }
     isUp s = true ∧ pipeOn s (15 : Pipe) = true ∧ idlePick (s.pipe (15 : Pipe)).idle = some (.recirc, pkt64) ∧ pipeOf pkt64.dir pkt64.src = 15) ∧
    (∀ n ∈ [0, 1], Accepted m0 CLS_RI_CMD.addr (riGo (withField 0 CLS_RI_CMD_LEN 16000) n) lit) ∧ lit.bit CLS_RI_CMD_GO = false ∧
    inField (withField 0 CLS_RI_CMD_LEN 16000) CLS_RI_CMD_LEN = 16000 ∧
    (let s := ((lit.put CLS_RI_CMD_GO true).wr CLS_RI_CMD_LEN 64).wr CLS_RI_ADDR_ADDR 0x100000000
     isUp s = true ∧ s.bit CLS_RI_CMD_GO = true ∧ pipeOn s (pipeOf (s.rd CLS_RI_CMD_DIR) (s.rd CLS_RI_CMD_SRC)) = true ∧
      (s.pipe (pipeOf (s.rd CLS_RI_CMD_DIR) (s.rd CLS_RI_CMD_SRC))).idle.length < 512 ∧
      ∀ n ≤ s.rd CLS_RI_CMD_LEN, regionOf (s.rd CLS_RI_ADDR_ADDR + n) = .sram) := by decide +kernel

/-- RulesComplete: tables, versions, sweeps, queues. -/
theorem wit_RulesComplete_tables :
    (∀ x ∈ [0x7FFF, 0x0100000000003FFF, 0x020000000000000F], Accepted m0 CLS_IND_CMD.addr (clsGo (BitVec.ofNat 64 x) 0) lit ∧
      Accepted m0 CLS_IND_CMD.addr (clsGo (BitVec.ofNat 64 x) 1) lit ∧ inField (BitVec.ofNat 64 x) CLS_IND_CMD_TABLE < 3) ∧
    (lit.bit CLS_IND_CMD_GO = false ∧ lit.cls.sweeping = false ∧ inField 0x0100000000003FFF CLS_IND_CMD_INDEX = 16383 ∧
      inField 0x020000000000000F CLS_IND_CMD_INDEX = 15 ∧ listBad ((List.range 8).map (clsD lit)) = false ∧ listRefs lit 16383 = 0) ∧
    (let s := (lit.setReg (CLS_IND_DATA 0).addr (BitVec.ofNat 64 (2 ^ 63 + 2 ^ 61 + 2 ^ 32 + 7))).setReg (CLS_IND_DATA 1).addr 65536
     s.cls.sweeping = false ∧ (ruleAccept s (s.rule 32767) (ruleFrom (clsD s))).isSome = true) ∧
    Accepted m0 CLS_VER_COMMIT.addr (withField 0 CLS_VER_COMMIT_GO 1) lit ∧
    (let s := (lit.put CLS_VER_PENDING true).wr CLS_VER_CUR 65535
     isUp s = true ∧ s.runs blkCLS = true ∧ s.bit CLS_VER_PENDING = true ∧ s.cls.sweepQueued = false ∧
      s.rd (CLS_DRAIN_COUNT ((s.rd CLS_VER_CUR + 1) % 4)) = 0) ∧
    (let s : State := { lit with cls := { lit.cls with sweeping := true, sweepPos := 32767 } }
     isUp s = true ∧ s.runs blkCLS = true ∧ s.cls.sweeping = true) ∧
    (let s := (lit.wr (CLS_SPQ_PROD 7) 0)
     Accepted m0 (CLS_SPQ 7).addr (withField 0 (CLS_SPQ_CONS 7) 4096) s ∧
      (s.rd (CLS_SPQ_PROD 7) + 8192 - inField (withField 0 (CLS_SPQ_CONS 7) 4096) (CLS_SPQ_CONS 7)) % 8192 ≤ 4096) := by decide +kernel

/-- A short entry, of format 1. -/
def flow9 : FlowEntry := { valid := true, fmt := 1, tuple := zeros 12 ++ List.replicate 4 9 ++ zeros 12 ++ List.replicate 4 7 ++ [0, 1, 0, 2, 6, 0, 0, 0], alistLo := 0x3FFF, alistHi := 0x3FFF }

/-- The place of its key in an empty table. -/
def place9 : Nat := (bucketsOf lit flow9.tuple).1 * 4

/-- The device with the entry in the data words. -/
def keyed9 : State := (List.range 8).foldl (fun s i => s.setReg (FLW_IND_DATA i).addr (BitVec.ofNat 64 ((flowWords flow9).getD i 0))) lit

/-- The device with the entry in its place, too. -/
def stored9 : State := keyed9.setFlowAt place9 flow9

/-- FlowsComplete: the table. -/
theorem wit_FlowsComplete_table :
    (∀ n ∈ [0, 1, 2, 3], Accepted m0 FLW_IND_CMD.addr (flwGo 0 n) keyed9 ∧ Accepted m0 FLW_IND_CMD.addr (flwGo 0 n) stored9) ∧
    keyed9.bit FLW_IND_CMD_GO = false ∧ (flwEntry keyed9).fmt ≠ 3 ∧ (flwEntry stored9).fmt ≠ 3 ∧ listOk keyed9 (flwEntry keyed9).alistLo = true ∧
    listOk keyed9 (flwEntry keyed9).alistHi = true ∧ flowFind keyed9 (flwEntry keyed9).fmt (flwEntry keyed9).tuple = none ∧
    stored9.bit FLW_IND_CMD_GO = false ∧ flowFind stored9 (flwEntry stored9).fmt (flwEntry stored9).tuple = some place9 ∧
    listOk stored9 (flwEntry stored9).alistLo = true ∧ listOk stored9 (flwEntry stored9).alistHi = true := by decide +kernel

/-- FlowsComplete: the engine. -/
theorem wit_FlowsComplete_engine :
    (let s : State := { lit with flw := { lit.flw with plan := some ⟨flow9, [], some (stashBase + 15)⟩ } }
     isUp s = true ∧ s.runs blkFLW = true ∧ s.flw.plan = some ⟨flow9, [], some (stashBase + 15)⟩ ∧ stashBase + 15 < 2 ^ 21 ∧ CidxFree s) ∧
    (let s : State := { lit with flw := { lit.flw with learnQ := [⟨1, flow9.tuple, 1, 2⟩] } }
     s.flw.plan = none ∧ s.flw.learnQ = [⟨1, flow9.tuple, 1, 2⟩] ∧ flowFind s 1 flow9.tuple = none ∧
      freeIn s (1 == 2) (bucketsOf s flow9.tuple).1 = some place9 ∧ CidxFree s) ∧
    (let s := lit.setFlowAt (stashBase + 15) flow9
     s.flw.plan = none ∧ s.flw.learnQ = [] ∧ (s.flowAt (stashBase + (15 : Fin 16))).valid = true ∧
      (∀ j < 16, j ≠ (15 : Fin 16).val → (s.flowAt (stashBase + j)).valid = false) ∧
      freeIn s ((s.flowAt (stashBase + (15 : Fin 16))).fmt == 2) (bucketsOf s (s.flowAt (stashBase + (15 : Fin 16))).tuple).1 = some place9) ∧
    (let s : State := ({ stored9 with flw := { stored9.flw with now := 65535 } }).put FLW_CFG_AGE_EN true
     isUp s = true ∧ s.runs blkFLW = true ∧ s.bit FLW_CFG_AGE_EN = true) ∧
    (let s : State := ({ lit with flw := { lit.flw with held := [⟨flow9, true⟩] } }).put FLW_CFG_AGE_NOTIFY true
     s.flw.held = [⟨flow9, true⟩] ∧ s.bit FLW_CFG_AGE_NOTIFY = true ∧ (s.rd FLW_AGEQ_PROD + 32768 - s.rd FLW_AGEQ_CONS) % 32768 < 16384) := by
  have free : ∀ s : State, (∀ e ∈ s.flw.entries, e.2.valid = true → e.2.cidx ≠ 5) → (∀ h ∈ s.flw.held, h.entry.cidx ≠ 5) → CidxFree s :=
    fun s h1 h2 => ⟨5, by decide, h1, h2⟩
  refine ⟨⟨?_, ?_, ?_, ?_, free _ ?_ ?_⟩, ⟨?_, ?_, ?_, ?_, free _ ?_ ?_⟩, ?_⟩
  all_goals decide +kernel

/-- FlowsComplete: counters and the age ring. -/
theorem wit_FlowsComplete_counters :
    (let s := ((lit.setDelta 7 (2 ^ 39 + 2 ^ 41)).wr FLW_CBASE_BASE 0x2000000000).wr CEL_STATUS_STK_OK 1
     flushDue s (7 : BitVec 22).toNat = true ∧ s.flw.flushing.any (fun e => e.1 == 7) = false ∧ inCellar (counterAddr s 7) = true ∧
      inCellar (counterAddr s 7 + 8) = true ∧ s.stackOk (stackOf (counterAddr s 7)) = true ∧ s.rd FLW_CBASE_BASE % 16 = 0 ∧ s.eccOf (counterAddr s 7) = 0 ∧ s.eccOf (counterAddr s 7 + 8) = 0) ∧
    Accepted m0 FLW_CRD_CMD.addr (withField (withField 7 FLW_CRD_CMD_CLR 1) FLW_CRD_CMD_GO 1) lit ∧
    (let s := lit.wr FLW_AGEQ_PROD 16384
     Accepted m0 FLW_AGEQ.addr 0 s ∧ (s.rd FLW_AGEQ_PROD + 32768 - inField 0 FLW_AGEQ_CONS) % 32768 ≤ 16384) := by decide +kernel

/-- A clear fragment of stream 9: first and last, of 64 bytes. -/
def oneHdr : Nat := withHec (9 * 2 ^ 48 + 64 * 2 ^ 34 + 2 ^ 33 + 2 ^ 30)

/-- The fragment: its header, and 64 bytes that end in their FCS. -/
def oneFrag : Bytes := beBytes 8 oneHdr ++ List.replicate 60 3 ++ fcsBytes (List.replicate 60 3)

/-- Channel 15 in a frame, the run-ahead on, stream 9 mapped to context 4. -/
def ahead : State :=
  ((((lit.wr SPC_CTL_EN 32768).setDsfCh 15 { live := true, hdrOk := true, pos := 128 }).setSpcCh 15 { stopped := false, next := some 0 }).setStreamMap
    (15 * 65536 + 9) { valid := true, ctx := 4 }).setStreamCtx 4 { maxpkt := 64 } |>.wr CEL_POOL_RA_RA 100

/-- SpeculationComplete: the run-ahead. -/
theorem wit_SpeculationComplete_ahead :
    (AheadReads (15 : Chan) oneFrag 128 oneHdr ahead ∧ hecOk oneHdr = true ∧ 128 + occupancy oneHdr ≤ frameEnd ∧ occupancy oneHdr ≤ oneFrag.length ∧
      AheadIssues (15 : Chan) oneFrag 128 oneHdr 4 ahead ∧ injArmed blkSPC (0 : BitVec 10).toNat ahead = false) ∧
    (AheadReads (15 : Chan) (zeros 8) 128 0 ahead ∧ hecOk 0 = false ∧ isUp ahead = true) := by
  unfold AheadReads AheadIssues; decide +kernel

/-- A packet of the run-ahead that ends in codeword 7. -/
def tentative : SpecPkt := { num := 1, fc := 0, hdr := 128, sid := 9, lo := 7, hi := 7, stamp := 0 }

/-- SpeculationComplete: verdicts and the timeout. -/
theorem wit_SpeculationComplete_verdicts :
    (∀ b ∈ [true, false], let s := lit.setSpcCh 15 { pkts := [tentative], next := some 7, ended := [(7, some b)] }
     isUp s = true ∧ (s.spcCh (15 : Chan)).next = some 7 ∧ SMap.get (fun _ => (none : Option Bool)) (s.spcCh (15 : Chan)).ended 7 = some b ∧
      tentative ∈ (s.spcCh (15 : Chan)).pkts ∧ (s.spcCh (15 : Chan)).pkts ≠ []) ∧ tentative.hi ≤ 7 ∧ 7 ≤ tentative.hi := by decide +kernel

/-- Sixty-four committed packets of two cells in staging. -/
def tail64 : List QPkt :=
  (List.range 64).map (fun n => { id := n, bytes := [], cells := [.stg, .stg], adm := 0, ingress := ⟨0, 0⟩, inPort := 0, poisoned := false, origin := false,
                                  sctx := 0, spec := none, off := 0, fseq := 0, passed := 0, doomed := false })

/-- A queue that spills, on a device with stack 0. -/
def spilling (q : LeafQ) : State := (lit.wr CEL_STATUS_STK_OK 1).setLq 262143 { q with s := true, pkts := tail64 }

/-- Its page is being written, or being read, and waits in its turn. -/
def paged (w r : Bool) : State :=
  let s := spilling { pages := [⟨0, w, r, [], none, none, 262143, 0⟩], c := 62, q := 66 }
  { s with cel := { s.cel with waits := [⟨3, 0⟩] } }

/-- CellarPagesComplete: pages. -/
theorem wit_CellarPagesComplete_pages :
    (let s := spilling {}
     isUp s = true ∧ s.runs blkCEL = true ∧ (s.lq (262143 : Fin 262144)).s = true ∧ (s.lq (262143 : Fin 262144)).pkts.all (fun p => p.spec == none) = true ∧
      (s.lq (262143 : Fin 262144)).headCells + (s.lq (262143 : Fin 262144)).celCells + 62 ≤ (s.lq (262143 : Fin 262144)).cells.length ∧
      (takePage s).isSome = true) ∧
    (let s := paged true false
     hbmTurn s (0 : BitVec 24).toNat = true ∧ (0 : BitVec 24).toNat ∉ s.cel.orphans ∧
      ∃ p ∈ (s.lq (262143 : Fin 262144)).pages, p.writing = true ∧ p.no = (0 : BitVec 24).toNat) ∧
    (let s := (paged false false).setReg CEL_POOL_US.addr 62
     isUp s = true ∧ s.runs blkCEL = true ∧ returnDue s (262143 : Fin 262144) = true ∧
      (s.lq (262143 : Fin 262144)).pages.find? (fun p => !p.reading) = some ⟨0, false, false, [], none, none, 262143, 0⟩) ∧
    (let s := paged false true
     isUp s = true ∧ hbmTurn s (0 : BitVec 24).toNat = true ∧ (0 : BitVec 24).toNat ∉ s.cel.orphans ∧ pageFlips s (0 : BitVec 24).toNat [] = [] ∧
      ∃ p ∈ (s.lq (262143 : Fin 262144)).pages, p.reading = true ∧ p.no = (0 : BitVec 24).toNat) := by decide +kernel

/-- CellarPagesComplete: tables. -/
theorem wit_CellarPagesComplete_tables :
    (∀ x ∈ [0xFF, 0x010000000003FFFF], Accepted m0 CEL_IND_CMD.addr (celGo (BitVec.ofNat 64 x) 0) lit ∧
      Accepted m0 CEL_IND_CMD.addr (celGo (BitVec.ofNat 64 x) 1) lit) ∧
    (lit.bit CEL_IND_CMD_GO = false ∧ inField 0xFF CEL_IND_CMD_TABLE = 0 ∧ inField 0xFF CEL_IND_CMD_INDEX = 255 ∧
      inField 0x010000000003FFFF CEL_IND_CMD_TABLE = 1) ∧
    (let s := (lit.setReg (CEL_IND_DATA 0).addr (BitVec.ofNat 64 (65536 * 2 ^ 44 + 128 * 2 ^ 24 + 128 * 16 + 7))).setReg (CEL_IND_DATA 1).addr 1
     profileOk (celProfile s) ∧ s.bit CEL_IND_CMD_GO = false) ∧
    (fieldOf (celData lit 0) 47 1 = b2n (lit.lq 262143).s ∧ fieldOf (celData lit 0) 24 20 = (lit.lq 262143).q ∧
      fieldOf (celData lit 1) 0 31 = (lit.lq 262143).c) ∧
    (let s := lit.setReg CFG_BLK_STOPPED.addr (BitVec.ofNat 64 (2 ^ blkCEL))
     (∀ n < 4, Accepted m0 (poolAddr n) 1 s) ∧ s.runs blkCEL = false ∧ ∀ n < 3, poolTotal (s.setReg (poolAddr n) 1) ≤ 786432) := by
  unfold profileOk; decide +kernel

/-- Stack 3 of a device with four stacks is in a state of its training. -/
def training (n : Nat) : State := (lit.wr CEL_STATUS_STK_OK 15).wr (CEL_TRAIN_STATE 3) n

/-- StacksComplete: conditions and retraining. -/
theorem wit_StacksComplete_training :
    (let s := (training 1).wr CEL_TRAIN_WIN_DT 5
     isUp s = true ∧ s.rd (CEL_TRAIN_STATE (3 : Fin 4)) = 1 ∧
      stackOut s (signed 16 (s.rd (CEL_TRAIN_T (3 : Fin 4)))) (s.rd (CEL_TRAIN_DUTY (3 : Fin 4)) : Nat) (0xFFF0 : BitVec 16).toInt (0 : BitVec 8).toNat = true ∧
      Accepted m0 CEL_TRAIN_CTL.addr 15 s) ∧
    (let s := training 2
     isUp s = true ∧ (∀ j < 4, s.rd (CEL_TRAIN_STATE j) ≠ 3) ∧ s.rd (CEL_TRAIN_STATE 3) = 2 ∧ ∀ j < 3, s.rd (CEL_TRAIN_STATE j) ≠ 2) ∧
    (let s := (training 3).setStack 3 { steps := 511 }
     let u := (training 3).setStack 3 { steps := 512, selfRefresh := true }
     isUp s = true ∧ s.rd (CEL_TRAIN_STATE (3 : Fin 4)) = 3 ∧ (s.stack (3 : Fin 4)).steps < 512 ∧ isUp u = true ∧
      u.rd (CEL_TRAIN_STATE (3 : Fin 4)) = 3 ∧ (u.stack (3 : Fin 4)).steps = 512) := by decide +kernel

/-- StacksComplete: scrubbing and row tests. -/
theorem wit_StacksComplete_words :
    (let s := ((training 1).put CEL_SCRUB_EN true)
     let u : State := { s with cel := { s.cel with scrubWord := 4 * stackWords - 1, scrubBack := some (0x2000000000, 1) } }
     isUp u = true ∧ u.runs blkCEL = true ∧ u.bit CEL_SCRUB_EN = true ∧ u.cel.scrubWord < 4 * stackWords ∧
      u.stackOk (u.cel.scrubWord / stackWords) = true ∧ stackBusy u (u.cel.scrubWord / stackWords) = false ∧
      u.eccOf (0x2000000000 + 8 * u.cel.scrubWord) = 0 ∧ u.bit FLT_INJ_ARM = false) ∧
    (inCellar (0x2000000401 : BitVec 48).toNat = true ∧ (∀ f ∈ lit.cel.fences, f.1 ≠ rowOf (0x2000000401 : BitVec 48).toNat) ∧
      rowOf (0x2000000401 : BitVec 48).toNat ∉ lit.cel.fenceWait ∧ lit.cel.fences.length < 8) ∧
    (let s : State := { lit with cel := { lit.cel with fences := (List.range 8).map (fun n => (0x3000000000 + 1024 * n, false)) } }
     isUp s = true ∧ (∀ f ∈ s.cel.fences, f.1 ≠ rowOf (0x2000000401 : BitVec 48).toNat) ∧ 8 ≤ s.cel.fences.length ∧
      (rowOf (0x3000000401 : BitVec 48).toNat, false) ∈ s.cel.fences ∧ s.flt.testing = false ∧ s.cel.fenceWait = []) := by decide +kernel

/-- Logical port 63 enabled with its link up. -/
def port63 : State :=
  (((lit.wr (MAC_PHY_CTL_BRK 15) 2).put (MAC_PHY_CTL_EN 15) true).put (MAC_PORT_CFG_EN 63) true).put (MAC_PORT_STAT_LINK 63) true

/-- A committed packet of 64 bytes in one cell. -/
def qpkt : QPkt :=
  { id := 9, bytes := List.replicate 64 1, cells := [.res], adm := 0, ingress := ⟨0, 0⟩, inPort := 0, poisoned := false, origin := false, sctx := 0, spec := none,
    off := 0, fseq := 0, passed := 0, doomed := false }

/-- Leaf 131071 downstream holds two packets, its objects and those above it enabled, up to port 63. -/
def oneLeaf : State :=
  let on : SchObj := { en := true }
  ((((port63.setLq 131071 { pkts := [qpkt, qpkt], q := 2, res := 2 }).setLeafObj 131071 on).setSub 8191 ⟨true, 63⟩).setSvc 1023 on).setPortObj 63 on

/-- SchedulingComplete: selection, refills, flushes, histograms. -/
theorem wit_SchedulingComplete_select :
    (isUp oneLeaf = true ∧ oneLeaf.runs blkSCH = true ∧ macReady oneLeaf (63 : LPort) false = true ∧
      portPick (guardBand (63 : LPort) false oneLeaf) (fun _ => false)
        (fun n _ => nodeOpen (guardBand (63 : LPort) false oneLeaf) (63 : LPort) false n) (63 : LPort) = some (1023, 131071) ∧
      (oneLeaf.lq 131071).pkts = [qpkt, qpkt] ∧ qpkt.poisoned = false) ∧
    (SMap.wf (fun _ => ({} : SchObj)) oneLeaf.sch.leaves = true ∧ SMap.wf (fun _ => ({} : SchObj)) oneLeaf.sch.svcs = true ∧
      SMap.wf (fun _ => ({} : SchObj)) oneLeaf.sch.ports = true) ∧
    (Accepted m0 SCH_FLUSH.addr (withField 131071 SCH_FLUSH_GO 1) oneLeaf ∧ inUnsentBurst oneLeaf qpkt = false) ∧
    (oneLeaf.put SCH_HIST_CTL_EN true).bit SCH_HIST_CTL_EN = true ∧
    (let s := (oneLeaf.wr SCH_HIST_BASE_BASE 0x2000000000).wr CEL_STATUS_STK_OK 1
     Accepted m0 SCH_HIST_CTL.addr (withField 0 SCH_HIST_CTL_CLR 1) s ∧ inCellar (s.rd SCH_HIST_BASE_BASE) = true ∧
      s.stackOk (stackOf (s.rd SCH_HIST_BASE_BASE)) = true) := by decide +kernel

/-- SchedulingComplete: the indirect tables. -/
theorem wit_SchedulingComplete_tables :
    (let s := lit.setReg (SCH_IND_DATA 0).addr 1
     (∀ x ∈ [(0, 0, 131071), (1, 1, 8191), (2, 0, 1023), (3, 1, 4095), (4, 0, 65535)], ∀ r ∈ [0, 1],
       SchGoes m0 (BitVec.ofNat 64 (x.1 * 2 ^ 56 + x.2.1 * 2 ^ 60 + x.2.2)) r x.1 x.2.1 x.2.2 s) ∧
      objRefused (schData s 0) (schData s 1) (schData s 2) = false ∧ schData s 0 % 4096 ≤ 63 ∧ subIdle s (1 * 8192 + 8191) = true) := by
  unfold SchGoes; decide +kernel

/-- A list of one entry in the shadow bank of port 63, whose change time has come; and one in force, with an operation. -/
def gated (op : Nat) : State :=
  let w : Word := BitVec.ofNat 64 (op * 2 ^ 62 + 5 * 2 ^ 48 + 1000)
  let a : Word := BitVec.ofNat 64 (2 ^ 63 + 2 ^ 48)
  ((((((lit.setSh (GCL_ADMIN 63).addr a).setSh (GCL_ADMIN_CYC 63).addr 1000).setSh (GCL_LIST 63 0).addr w).setReg (GCL_ADMIN 63).addr a).setReg
    (GCL_ADMIN_CYC 63).addr 1000).setReg (GCL_LIST 63 0).addr w).setReg (GCL_PREEMPT 63).addr (BitVec.ofNat 64 (2000 * 2 ^ 32 + 2000 * 2 ^ 16))

/-- SchedulingComplete: gate lists. -/
theorem wit_SchedulingComplete_gates :
    isUp (gated 1) = true ∧
    (let s := ((gated 1).setGclPort 63 { cct := some ⟨0, 0⟩ }).setBank (GCL_BANK 63).addr { phase := .waiting, kind := 3, atEn := false, at_ := 0, late := false, seq := 0 }
     isUp s = true ∧ (s.gclPort (63 : LPort)).cct = some ⟨0, 0⟩ ∧ (⟨0, 0⟩ : Tod).inNs ≤ s.nowNs ∧
      (s.bank (GCL_BANK 63).addr).phase = .waiting ∧ (s.bank (GCL_BANK 63).addr).kind = 3) ∧
    opWithin (gated 1) (63 : LPort) 1 ((gated 1).rd (GCL_PREEMPT_HOLD_ADV 63)) = true ∧
    opWithin (gated 2) (63 : LPort) 2 ((gated 2).rd (GCL_PREEMPT_REL_ADV 63)) = true := by decide +kernel

/-- The Kiln with a root for firmware, a slot in a state, and data words. -/
def kilned (st : SlotState) (use : Nat) (l : List Nat) : State :=
  (l.zipIdx.foldl (fun s e => s.setKlnData e.2 (BitVec.ofNat 64 e.1)) lit).setRoot 63 (some kek256) |>.setSlot 8191
    { st := st, use := use, cur := if st = .empty then none else some ⟨5, kek256, 9, 0, false⟩ }

/-- A command word for root 63 and slot 8191. -/
def kilnWord (use : Nat) : Word := BitVec.ofNat 64 (63 * 2 ^ 42 + use * 2 ^ 16 + 8191)

/-- KilnComplete: commands. -/
theorem wit_KilnComplete_commands :
    (∀ u ∈ [2, 3], let s := kilned .empty u [(6 - u) * 2 ^ 56]
      KlnGoes m0 (kilnWord u) 0 63 u 8191 s ∧ SlotTakes s 8191 u ∧ s.root 63 = some kek256) ∧
    beAt (klnBytes (kilned .empty 3 [3 * 2 ^ 56]) 4) 0 1 = 3 ∧ beAt (klnBytes (kilned .empty 2 [4 * 2 ^ 56]) 4) 0 1 = 4 ∧
    (let s := kilned .retired 2 wrapped256
     KlnGoes m0 (kilnWord 2) 1 63 2 8191 s ∧ SlotTakes s 8191 2 ∧ s.root 63 = some kek256 ∧ KlnGoes m0 (kilnWord 2) 2 63 2 8191 s) ∧
    (let s := kilned .live 3 []
     (∀ op ∈ [3, 4, 5, 6], KlnGoes m0 (kilnWord 0) op 63 0 8191 s) ∧ (s.slot 8191).use = 3 ∧ (s.slot 8191).st = .live ∧
      undrained (s.slot 8191).cur = none ∧ undrained (s.slot 8191).prev = none) := by
  unfold KlnGoes SlotTakes; decide +kernel

/-- KilnComplete: the data words of an unwrap hold a key that its KEK unwraps. -/
theorem wit_KilnComplete_unwrap : (keyUnwrap kek256 (klnBytes (kilned .retired 2 wrapped256) 5)).isSome = true := by
  rw [show klnBytes (kilned .retired 2 wrapped256) 5 = slice (dsMsg 6 5 1 (2 * 2 ^ 34 + 2 * 2 ^ 32 + 7) wrapped256) 8 40 from by decide +kernel]
  exact wit_KeyAndFirmwareMessagesComplete_keys.2.1.2.2.2.2.2

/-- KilnComplete: bindings, the registration key, drained generations. -/
theorem wit_KilnComplete_bindings :
    (let s := (lit.put KLN_BIND_DATA_VALID true).wr KLN_BIND_DATA_BASE 8191
     (∀ n ∈ [0, 1], Accepted m0 KLN_BIND_CMD.addr (withField (withField 4095 KLN_BIND_CMD_GO 1) KLN_BIND_CMD_RD n) s) ∧
      s.bit KLN_BIND_CMD_GO = false ∧ bindRefused s (inField 4095 KLN_BIND_CMD_INDEX) (bindFrom s) = false) ∧
    (Accepted m0 KLN_RK.addr (withField 0 KLN_RK_PROG 1) { lit with kln := { lit.kln with rk := none } } ∧
      { lit with kln := { lit.kln with rk := none } }.kln.rk = none) ∧
    (let s := lit.setSlot 8191 { st := .live, prev := some ⟨1, [], 0, 0, false⟩, held := some kek256 }
     isUp s = true ∧ (s.slot (8191 : Fin 8192)).st = .live ∧ (s.slot (8191 : Fin 8192)).prev = some ⟨1, [], 0, 0, false⟩ ∧
      (s.slot (8191 : Fin 8192)).held = some kek256) ∧
    (let s := lit.setSlot 8191 { st := .erasing, prev := some ⟨1, [], 0, 0, false⟩ }
     (s.slot (8191 : Fin 8192)).st = .erasing ∧ undrained (s.slot (8191 : Fin 8192)).cur = none ∧ undrained (s.slot (8191 : Fin 8192)).prev = none ∧
      (s.slot (8191 : Fin 8192)).waiting = none) := by decide +kernel

/-- Requests of two sources, the first dispatched. -/
def asked : State :=
  { lit with kln := { lit.kln with queue := [⟨.macRx, 1, 2, some 5, none⟩, ⟨.lineDs, 1, 2, none, none⟩, ⟨.macRx, 1, 3, none, none⟩] } }

/-- The firmware ring with a descriptor to encrypt: 5 bytes of AAD, 20 of data, at an address of the Cellar; slot 8191 has the key. -/
def ringed : State :=
  let w : Word := BitVec.ofNat 64 (2 ^ 60 + 2 ^ 59 + 5 * 2 ^ 52 + 20 * 2 ^ 38 + 8191)
  (((((((lit.wr CEL_STATUS_STK_OK 15).wr CIP_FWQ_BASE_BASE 0x2000000000).put CIP_FWQ_EN true).wr CIP_FWQ_CONS 2047).setSlot 8191
    { st := .live, use := 3, cur := some ⟨5, List.replicate 32 7, 0, 0, false⟩ }).setBytes 0x2000007FE0 (wordBytes w)).setBytes
    0x2000007FF8 (beBytes 8 0x2000010000)).setBytes 0x2000010040 (List.replicate 20 9)

/-- CipherComplete: requests, associations. -/
theorem wit_CipherComplete_requests :
    (isUp asked = true ∧ asked.runs blkCIP = true ∧ (79 : Fin 80).val ∉ asked.kln.lanesOut ∧ cipNext asked = some .lineDs ∧
      asked.kln.queue.find? (fun r => r.src == .macRx) = some ⟨.macRx, 1, 2, some 5, none⟩) ∧
    (let s := lit.setReg (CIP_IND_DATA 1).addr 1
     (∀ r ∈ [0, 1], CipGoes m0 255 r 0 255 s ∧ CipGoes m0 0x01000000000003FF r 1 1023 s) ∧ cipData s 1 ≠ 0) ∧
    (let s := lit.wr CIP_FWQ_CONS 1024
     Accepted m0 CIP_FWQ.addr 2047 s ∧ (inField 2047 CIP_FWQ_PROD + 2048 - s.rd CIP_FWQ_CONS) % 2048 ≤ 1024) := by
  unfold CipGoes; decide +kernel

/-- CipherComplete: the firmware ring. -/
theorem wit_CipherComplete_ring :
    isUp ringed = true ∧ ringed.bit CIP_FWQ_EN = true ∧ ringed.rd CIP_FWQ_CONS ≠ ringed.rd CIP_FWQ_PROD ∧
    (let w := ringed.memWord (descAt ringed)
     fieldOf w 60 4 = 1 ∧ fieldOf w 59 1 = 1 ∧ fieldOf w 52 7 = 5 ∧ fieldOf w 38 14 = 20 ∧ fieldOf w 0 13 = 8191) ∧
    fieldOf (ringed.memWord (descAt ringed + 24)) 0 48 = 0x2000010000 ∧ (∀ n < 4, ringed.stackOk n = true) ∧ ringed.ecc = [] ∧
    ringed.bit FLT_INJ_ARM = false ∧ ringed.bit TSK_TRC_CTL_EN = false ∧ ringed.rd CIP_FWQ_BASE_BASE % 32 = 0 ∧ inCellar (descAt ringed) = true ∧
    inCellar (descAt ringed + 31) = true ∧ inCellar 0x2000010000 = true ∧ inCellar (0x2000010000 + 64 + 20 + 16) = true ∧
    descAt ringed + 32 ≤ 0x2000010000 ∧ (ringed.slot 8191).st = .live ∧ (ringed.slot 8191).use = 3 ∧
    (ringed.slot 8191).cur = some ⟨5, List.replicate 32 7, 0, 0, false⟩ := by decide +kernel

/-- A frame of 64 bytes of type 0. -/
def frame64 : Bytes := List.replicate 60 1 ++ fcsBytes (List.replicate 60 1)

/-- ClientsComplete: ports, links, reception. -/
theorem wit_ClientsComplete_ports :
    (Accepted m0 (MAC_PHY_CTL 15).addr (withField 0x4000000000000000 (MAC_PHY_CTL_EN 15) 1) lit ∧ lit.bit (MAC_PHY_CTL_EN 15) = false ∧
      inField 0x4000000000000000 (MAC_PHY_CTL_BRK 15) = 2) ∧
    (Accepted m0 (MAC_PHY_CTL 15).addr (withField 0x4000000000000000 (MAC_PHY_CTL_EN 15) 0) port63 ∧ port63.bit (MAC_PHY_CTL_EN 15) = true ∧
      inField 0x4000000000000000 (MAC_PHY_CTL_BRK 15) = port63.rd (MAC_PHY_CTL_BRK 15) ∧
      inField 0x4000000000000000 (MAC_PHY_CTL_LOOP 15) = port63.rd (MAC_PHY_CTL_LOOP 15)) ∧
    (isUp port63 = true ∧ pcsOn port63 (63 : LPort) = true ∧
      (0xFF : BitVec 8).toNat &&& subLanes (port63.rd (MAC_PHY_CTL_BRK 15)) (63 / 16) = subLanes (port63.rd (MAC_PHY_CTL_BRK 15)) (63 / 16)) ∧
    (let s := port63.wr (MAC_PORT_CFG_MAXLEN 63) 64
     s.rd (MAC_PHY_CTL_LOOP 15) ≠ 1 ∧ Linked s (63 : LPort) ∧ 64 ≤ frame64.length ∧ frame64.length ≤ s.rd (MAC_PORT_CFG_MAXLEN 63) ∧
      frame64.drop (frame64.length - 4) = fcsBytes (frame64.take (frame64.length - 4)) ∧ beAt frame64 (typeOff frame64) 2 ≠ 0x8808 ∧
      rxQueue s (63 : LPort) frame64 = some 0 ∧ s.bit (MAC_SEC_CFG_RX_EN 63) = false ∧ s.runs blkPRS = true ∧ pipeOn s (pipeOf 1 63) = true) := by
  unfold Linked; decide +kernel

/-- ClientsComplete: flow control, transmission, verification. -/
theorem wit_ClientsComplete_sending :
    ((port63.macPort (63 : LPort)).pauseAt.getD (7 : Fin 8) none ≠ some port63.ticks) ∧
    (let s := (port63.wr (MAC_PFC_CFG_PFC_TX 63) 128).wr MAC_PFC_POOL_POOL_XOFF 1
     portLive s (63 : LPort) = true ∧ macRuns s = true ∧ (∃ q < 8, xoffNext s (63 : LPort) q = true ∧ (s.rd (MAC_PFC_STAT_XOFF 63)).testBit q = false) ∧
      (s.wr (MAC_PFC_STAT_XOFF 63) 128).rd (MAC_PFC_STAT_XOFF 63) &&& (s.wr (MAC_PFC_STAT_XOFF 63) 128).rd (MAC_PFC_CFG_PFC_TX 63) ≠ 0) ∧
    (let s := port63.setToMac 63 [(0, qpkt)]
     Linked s (63 : LPort) ∧ (s.macPort (63 : LPort)).pfcOut = [] ∧ s.toMac (63 : LPort) = [(0, qpkt)] ∧ preemptable s (63 : LPort) 0 = false ∧
      qpkt.poisoned = false ∧ injArmed blkMAC 0 s = false ∧ secured s (63 : LPort) qpkt.bytes = false ∧
      secured s (63 : LPort) (macPad qpkt.bytes) = false ∧ ptpAt qpkt.bytes = none ∧ s.rd (MAC_PHY_CTL_LOOP 15) = 0) ∧
    (let s := (port63.wr (MAC_MM_CFG_VERIFY_ST 63) 2).put (MAC_MM_CFG_MM_EN 63) true
     Linked s (63 : LPort) ∧ s.rd (MAC_MM_CFG_VERIFY_ST 63) = 2 ∧ s.bit (MAC_MM_CFG_MM_EN 63) = true) := by unfold Linked; decide +kernel

/-- A time-of-day message of second 7. -/
def todMsg7 : Bytes := todMessage lit 7

/-- TimeComplete: boundaries, lines, loads. -/
theorem wit_TimeComplete_counter :
    (isUp lit = true ∧ lit.tod.f < secF) ∧
    (({ lit with tim := { lit.tim with todDue := some 7 } } : State).tim.todDue = some 7) ∧
    (lit.runs blkTIM = true ∧ (lit.put TIM_TODS_TODI_EN true).bit TIM_TODS_TODI_EN = true ∧ todGood todMsg7 = true) ∧
    (Accepted m0 TIM_CTL.addr (withField 0x100 TIM_CTL_LOAD 1) lit ∧ inField 0x100 TIM_CTL_STEP = 0) ∧
    (Accepted m0 TIM_CTL.addr (withField 0x100 TIM_CTL_STEP 1) lit ∧ inField 0x100 TIM_CTL_LOAD = 0) ∧
    (canAccess lit m0 TIM_TOD_S.addr = true ∧ accessRefused m0 .word false TIM_TOD_S.addr 0 lit = false) ∧
    (let s := lit.wr TIM_CTL_FSRC 2
     freqValid s = false ∧ s.bit TIM_STATUS_F_HOLD = false) ∧
    (let s := lit.put TIM_STATUS_F_HOLD true
     freqValid s = true) := by decide +kernel

/-- TimeComplete: the servo, PPS_IN and the queues. -/
theorem wit_TimeComplete_servo :
    (let s := lit.wr TIM_CTL_TSRC 3
     Accepted m0 TIM_SAMPLE.addr 5 s ∧ s.rd TIM_CTL_TSRC = 3 ∧ s.rd TIM_STATUS_STATE = 0 ∧ overStep (s.wr TIM_SERVO_STEP_TH 1) (signed 64 5) = false) ∧
    (let s := lit.put TIM_PPS_PPS_IN_EN true
     s.bit TIM_PPS_PPS_IN_EN = true ∧ s.tim.ppsLast = none) ∧
    (let s := { lit.wr TIM_CTL_TSRC 2 with tim := { lit.tim with ppsWait := [⟨lit.tod.cut, 0, false⟩] } }
     s.tim.ppsWait = [⟨lit.tod.cut, 0, false⟩] ∧ s.rd TIM_CTL_TSRC = 2 ∧ (s.wr TIM_STATUS_STATE 2).rd TIM_STATUS_STATE = 2 ∧
      (s.wr TIM_STATUS_STATE 3).rd TIM_STATUS_STATE = 3) ∧
    (let s := lit.setTsqOf (63 : LPort) (List.replicate 512 ⟨lit.tod, 0, 0, 0⟩)
     Accepted m0 (TIM_TSQ_CTL 63).addr (withField 0 (TIM_TSQ_CTL_POP 63) 1) s ∧ (s.tsqOf (63 : LPort)).length ≤ 512 ∧
      inField 0 (TIM_TSQ_CTL_LOG_CLR 63) = 0 ∧ Accepted m0 (TIM_TSQ_CTL 63).addr (withField 0 (TIM_TSQ_CTL_LOG_CLR 63) 1) s) := by decide +kernel

/-- A window open to TSK's registers. -/
def posting : State := ready.setAcuWin 2 ⟨true, false, 0, 63, 0x5000, 0x5FFF⟩

/-- Task 4095 is READY; core 7 takes tasks. -/
def oneReady : State :=
  let s := (ready.setTask 4095 { en := true, st := .ready, prio := 15, aff := 128, mask := 3, evt := 1 }).put (TSK_CORE_CMD_ACCEPT 7) true
  { s with tsk := { s.tsk with readyOrder := [4095] } }

/-- Core 7 holds task 4095. -/
def oneRuns : State := (((ready.setTask 4095 { en := true, st := .running, depInit := 2 }).put (TSK_CORE_CUR_VALID 7) true).wr (TSK_CORE_CUR_TASK 7) 4095)

/-- TasksComplete: posts, sources, assignment, completion. -/
theorem wit_TasksComplete_run :
    (let v := withField (withField 0 TSK_POST_TASK 4095) TSK_POST_FLAG 63
     Accepted (.core 7 .u) TSK_POST.addr v posting ∧ posting.tsk.posts.length < 1024 ∧
      (let s : State := { posting with tsk := { posting.tsk with posts := List.replicate 1024 (0, 0) } }
       Accepted (.core 7 .u) TSK_POST.addr v s ∧ 1024 ≤ s.tsk.posts.length)) ∧
    (let s : State := { ready with tsk := { ready.tsk with posts := [(4095, 63)] } }
     isUp s = true ∧ s.runs blkTSK = true ∧ s.tsk.posts = (4095, 63) :: [] ∧ s.tsk.stalled = []) ∧
    ((ready.put (TSK_SRC_EN 14) true).bit (TSK_SRC_EN 14) = true) ∧
    (isUp oneReady = true ∧ oneReady.runs blkTSK = true ∧ readyInOrder oneReady = [4095] ∧ coreFor oneReady (oneReady.task 4095) = some 7 ∧
      (oneReady.task 4095).prio < 16 ∧ (oneReady.task 4095).evt &&& (oneReady.task 4095).mask < 2 ^ 64) ∧
    (∀ n ∈ [0, 1], Accepted m0 (TSK_CORE_CMD (7 : Fin 8)).addr (withField (withField 0 (TSK_CORE_CMD_DONE (7 : Fin 8)) 1) (TSK_CORE_CMD_REQUEUE (7 : Fin 8)) n) oneRuns) ∧
    oneRuns.bit (TSK_CORE_CUR_VALID (7 : Fin 8)) = true ∧ oneRuns.rd (TSK_CORE_CUR_TASK (7 : Fin 8)) = 4095 := by decide +kernel

/-- TasksComplete: commands, contexts and windows. -/
theorem wit_TasksComplete_tables :
    (Accepted m0 TSK_TASK_CMD.addr (withField 4095 TSK_TASK_CMD_OP 1) ready ∧ Accepted m0 TSK_TASK_CMD.addr (withField 4095 TSK_TASK_CMD_OP 2) ready) ∧
    (let s := ready.setReg (TSK_IND_DATA 0).addr (2 ^ 48)
     let u := taskFrom (s.task 4095) (tskData s)
     Accepted m0 TSK_IND_CMD.addr (tskGo 4095 1) s ∧ Accepted m0 TSK_IND_CMD.addr (tskGo 4095 0) s ∧ s.bit TSK_IND_CMD_GO = false ∧
      inField 4095 TSK_IND_CMD_INDEX = 4095 ∧ (s.task 4095).en = false ∧ (s.task 4095).st = .idle ∧ u.aff ≠ 0 ∧
      [u.s0, u.s1, u.s2].any (fun x => x.v && x.task == 4095) = false) ∧
    (Accepted m0 ACU_IND_CMD.addr (tskGo 255 1) ready ∧ Accepted m0 ACU_IND_CMD.addr (tskGo 255 0) ready ∧ ready.bit ACU_IND_CMD_GO = false ∧
      inField 255 ACU_IND_CMD_INDEX = 255 ∧
      fieldOf (ready.reg (ACU_WIN_DATA 0).addr) 12 36 ≤ fieldOf (ready.reg (ACU_WIN_DATA 1).addr) 12 36) := by decide +kernel

/-- The device in a power state, sources armed; a transition, a pending request and causes as given. -/
def powered (c : PState) (x : Option (PTrans × PState)) (p : Option PState) (f : List (Nat × Nat)) : State :=
  { ready with pwr := { ready.pwr with cur := c, trans := x, pend := p, fifo := f, armed := true, wanted := true } }

/-- PowerStatesComplete: requests, entries, transitions. -/
theorem wit_PowerStatesComplete_requests :
    (∀ n ∈ [0, 1, 2, 3, 4], Accepted m0 PWR_REQ.addr (reqGo 0 n) ready) ∧ ready.pwr.trans = none ∧
    (let s := powered .full none (some .off) []
     isUp s = true ∧ s.pwr.trans = none ∧ s.pwr.pend = some .off ∧ lowState s = false ∧
      (∀ n < 8, n ≠ (7 : Fin 8).val → (s.hart n).running = true → (s.hart n).wfi = true)) ∧
    ((powered .full (some (.entry, .taste)) none [(4, 9)]).pwr.trans = some (.entry, .taste) ∧
      (powered .full (some (.entry, .taste)) none [(4, 9)]).pwr.fifo ≠ []) ∧
    ((powered .full (some (.units, .doze)) none []).pwr.trans = some (.units, .doze) ∧
      (powered .full (some (.units, .doze)) none []).pwr.pend = none) := by decide +kernel

/-- PowerStatesComplete: sources, wakes, the log. -/
theorem wit_PowerStatesComplete_wakes :
    (let s := ((powered .taste none none (List.replicate 7 (1, 2))).wr PWR_WAKE_EN_EN 127).wr PWR_WAKE_EN_SD_PORT 32768 |>.wr PWR_TMR_MS 1
     (∀ n ∈ [1, 2, 3, 4, 5], Latches n s) ∧ (s.rd PWR_WAKE_EN_SD_PORT).testBit (15 : PPort) = true ∧ lowState s = true ∧ s.rd PWR_TMR_MS ≠ 0) ∧
    ((powered .taste none none []).pwr.wanted = true ∧ (powered .taste none none []).pwr.cur = .taste ∧ (powered .taste none none []).pwr.trans = none ∧
      (powered .off none none []).pwr.wanted = true ∧ (powered .off none none []).pwr.cur = .off) ∧
    (let s := powered .taste (some (.wake, .full)) none []
     let u : State := { s with pwr := { s.pwr with attempts := 3 } }
     s.pwr.trans = some (.wake, .full) ∧ s.pwr.attempts < 3 ∧ u.pwr.trans = some (.wake, .full) ∧ 3 ≤ u.pwr.attempts ∧ s.pwr.pend = none) ∧
    (Accepted m0 PWR_WAKE_LOG.addr (withField 0 PWR_WAKE_LOG_POP 1) (powered .full none none [(4, 9)])) := by
  unfold Latches; decide +kernel

/-- A header of channel 15 whose wake flags are those of terminals 3 and 200. -/
def wakeHeader : Bytes :=
  withCrc32c (beBytes 8 0 ++ beBytes 8 (15 * 2 ^ 48) ++ beBytes 8 (2 ^ 8) ++ List.replicate 16 0 ++ beBytes 8 (2 ^ 3) ++ List.replicate 12 0)

/-- LineModesComplete: modes asked for and applied. -/
theorem wit_LineModesComplete_modes :
    (let s := (inState 15 4 ready).wr (PWR_CP_FC_FC_EFF 15) 2
     (∀ n ∈ [0, 1, 2], Accepted m0 (PWR_CP_PM 15).addr (modeWord 15 (withField 0 (PWR_CP_PM_DUR 15) 192) n) s) ∧
      frameNow s 15 + 2 ≤ s.rd (PWR_CP_FC_FC_EFF 15) ∧ s.rd (ACT_CP_STATE_STATE 15) = 4 ∧
      inField (withField 0 (PWR_CP_PM_DUR 15) 192) (PWR_CP_PM_DUR 15) = 192) ∧
    (let s := (ready.setLineSched 15 (some ⟨2, 0, 9⟩)).setLineSched 0 (some ⟨1, 0, 0⟩)
     isUp s = true ∧ s.lineSched (15 : Chan) = some ⟨2, 0, 9⟩ ∧ s.lineSched (0 : Chan) = some ⟨1, 0, 0⟩ ∧ 0 ≤ frameNow s 15) := by decide +kernel

/-- LineModesComplete: dozes and sleeps that end. -/
theorem wit_LineModesComplete_ends :
    (let s := ready.setLineDoze 15 ⟨true, some 0⟩
     isUp s = true ∧ s.lineDoze (15 : Chan) = ⟨true, some 0⟩ ∧ 0 ≤ frameNow s 15) ∧
    (let s := (ready.setSleepOf 15 (some (0, 8))).put (PWR_CP_PM_ASLEEP 15) true
     let u : State := { s with pwr := { s.pwr with rxOff := 32768 } }
     let x := (synced 15 s).wr (DSF_SYNC_FC 15) 16
     isUp u = true ∧ u.sleepOf (15 : Chan) = some (0, 8) ∧ 0 + 8 ≤ frameNow u 15 + 8 ∧ u.pwr.rxOff.testBit (15 : Chan) = true ∧
      isUp x = true ∧ x.sleepOf (15 : Chan) = some (0, 8) ∧ 0 + 8 + 8 ≤ frameNow x 15 ∧ x.bit (PWR_CP_PM_ASLEEP 15) = true ∧
      x.rd (DSF_SYNC_STATE 15) = 3) := by decide +kernel

/-- LineModesComplete: the cycles of Taste. -/
theorem wit_LineModesComplete_taste :
    (let s := ((powered .taste none none []).wr PWR_TASTE_CP 15).wr PWR_TASTE_TN 200
     s.pwr.cur = .taste ∧ s.pwr.trans = none ∧ s.pwr.cycle = false ∧ tasteHit s wakeHeader = true) ∧
    (let s : State := { ready with pwr := { ready.pwr with cycle := true } }
     s.pwr.cycle = true) := by decide +kernel

/-- A reaction to an error of a pipeline runs in `ready`; its code, resource and record as given. -/
def reacting (code : Nat) (res : Resource) (testing : Bool) : State :=
  (({ ready with flt := { ready.flt with running := some ⟨blkPRS, 15, 2, code, res⟩, testing := testing } } : State).setFrec blkPRS
    { valid := true, cls := 2, kind := 4, unit := 15, count := 1 })

/-- FaultsComplete: reports, reactions, self-tests, windows. -/
theorem wit_FaultsComplete_reactions :
    (Unrecorded 63 65535 ready ∧ injArmed (63 : Fin 64).val (0 : BitVec 10).toNat ready = false ∧
      checkFlipped 5 (2 ^ 8) = .corrected 5 (checkByte 5)) ∧
    (let s := reacting 1 .none false
     isUp s = true ∧ s.flt.running = some ⟨blkPRS, 15, 2, 1, .none⟩ ∧ s.flt.acted = false ∧ (s.frec blkPRS).valid = true) ∧
    ((reacting 5 .none false).flt.running = some ⟨blkPRS, 15, 2, 5, .none⟩ ∧ (reacting 5 .none false).flt.acted = false ∧
      (reacting 5 .none false).bit FLT_SUMMARY_SAFE = false) ∧
    (let s := reacting 2 (.cellRow 7) true
     isUp s = true ∧ s.flt.running = some ⟨blkPRS, 15, 2, 2, .cellRow 7⟩ ∧ s.flt.testing = true ∧ (s.frec blkPRS).valid = true ∧
      rowArray (.cellRow 7) = some 0x100 ∧ s.fltSpares 0x100 < 2) ∧
    (let s : State := { ready with flt := { ready.flt with windows := [⟨1, 0, false, false⟩, ⟨2, 0, false, true⟩] } }
     isUp s = true ∧ s.flt.windows = [⟨1, 0, false, false⟩] ++ ⟨2, 0, false, true⟩ :: [] ∧
      (∀ x ∈ [(⟨1, 0, false, false⟩ : QuietWin)], x.ended = false)) ∧
    (isUp ({ ready with flt := { ready.flt with resetDue := true } } : State) = true) := by
  unfold Unrecorded; decide +kernel

/-- FaultsComplete: the safe state, records, injection. -/
theorem wit_FaultsComplete_commands :
    (isUp ready = true ∧ ready.runs blkFLT = true ∧ ready.bit FLT_SUMMARY_SAFE = false ∧
      Accepted m0 FLT_SAFE.addr (withField 0 FLT_SAFE_ENTER 1) ready ∧ levelOf m0 = 0 ∧ inField 0 FLT_SAFE_EXIT = 0) ∧
    (let s := (ready.put FLT_SUMMARY_SAFE_N true).put FLT_SUMMARY_SAFE true
     Accepted m0 FLT_SAFE.addr (withField 0 FLT_SAFE_EXIT 1) s ∧ inField 0 FLT_SAFE_ENTER = 0 ∧ s.bit FLT_SUMMARY_SAFE_N = true ∧
      s.bit FLT_SUMMARY_FATAL = false ∧ s.cfg.boot ≠ .failed) ∧
    (let s := ready.setFrec 63 { valid := true, cls := 2, kind := 4, unit := 15, count := 1 }
     Accepted m0 FLT_REC_CMD.addr (recGo 63 0) s ∧ Accepted m0 FLT_REC_CMD.addr (recGo 63 1) s ∧ s.bit FLT_REC_CMD_GO = false ∧
      inField 63 FLT_REC_CMD_INDEX = 63 ∧ (s.frec 63).valid = true ∧ s.flt.running.map (·.src) ≠ some 63) ∧
    (let v := withField 0 FLT_INJ_MASK 0x81
     Accepted m0 FLT_INJ.addr (withField v FLT_INJ_ARM 1) ready ∧ popcount 8 (inField v FLT_INJ_MASK) = 2 ∧
      Accepted m0 FLT_INJ.addr (withField (withField 0 FLT_INJ_ARM 0) FLT_INJ_CONT 1) ready) := by decide +kernel

/-- A device whose link groups are in a bring-up state, on lane 3. -/
def linked (st : Nat) : State :=
  let s := (lit.wr (CAS_GRP_STAT_STATE 1) st).wr (CAS_GRP_STAT_STATE 0) st
  let c : CasGrp := { lanes := 8, offerLanes := 8, tx := [{}], txAt := 2048, rxl := [{}], rxAt := 2048, passes := [1, 1, 1, 1] }
  (s.setCasGrp 0 c).setCasGrp 1 c

/-- The line bits of a container on one lane. -/
def lineOf (c : Bytes) : List (List Bool) := (groupSend [{}] 2048 c).1

/-- A PKT container for member 7. -/
def pktFor7 : Bytes := casContainer (casHead 1 2 7 false true true 5 20) (List.replicate 20 9)

/-- A member of ID `n` whose link groups are ACTIVE. -/
def memberOf (n : Nat) : State := ((linked 5).put CAS_ROLE_ID_V true).wr CAS_ROLE_ID n

/-- CascadeLinksComplete: bring-up. -/
theorem wit_CascadeLinksComplete_bringup :
    (Accepted m0 (CAS_GRP_CTL 1).addr 0x8F00000000001000 (linked 0) ∧ inField 0x8F00000000001000 (CAS_GRP_CTL_EN 1) = 1 ∧
      (linked 0).runs blkCAS = true ∧ grpState (linked 0) (1 : Fin 2) = 0) ∧
    (Accepted m0 (CAS_GRP_CTL 1).addr 0x0F00000000001000 (linked 5) ∧ inField 0x0F00000000001000 (CAS_GRP_CTL_EN 1) = 0 ∧
      grpActive (linked 5) (1 : Fin 2) = true) ∧
    (isUp (linked 1) = true ∧ grpState (linked 1) (1 : Fin 2) = 1 ∧ (8 : BitVec 4).toNat &&& ((linked 1).casGrp (1 : Fin 2)).offerLanes ≠ 0) ∧
    (grpState (linked 2) (1 : Fin 2) = 2 ∧ (8 : BitVec 4).toNat &&& ((linked 2).casGrp (1 : Fin 2)).lanes = ((linked 2).casGrp (1 : Fin 2)).lanes) ∧
    (grpState (linked 3) (1 : Fin 2) = 3 ∧ [((0 : BitVec 58), (5 : BitVec 32))].length = popcount 4 ((linked 3).casGrp (1 : Fin 2)).lanes ∧
      lanesAligned [5] = true) ∧
    (let s := (linked 5).setCasGrp 1 { (linked 5).casGrp 1 with errs := List.replicate 11 0 }
     grpState s (1 : Fin 2) = 5 ∧ s.rd CAS_CTL_ERR_MAX < recentErrs s (1 : Fin 2)) ∧
    ((65535 : BitVec 17).toNat ≥ (linked 2).rd (CAS_GRP_CTL_DENS_MIN (1 : Fin 2)) ∧
      (0 : BitVec 17).toNat < (linked 2).rd (CAS_GRP_CTL_DENS_MIN (1 : Fin 2)) ∧
      1 ≤ ((linked 2).casGrp (1 : Fin 2)).passes.getD (3 : Fin 4) 0) := by decide +kernel

/-- The lanes of `linked` carry the container that was put on them. -/
theorem carried_lineOf (c : Bytes) (s : State) (h : c.length = 256 ∧ (s.casGrp 1).rxl = [{}] ∧ (s.casGrp 1).rxAt = 2048) :
    Carried (1 : Fin 2) (lineOf c) s = c := by
  show (groupTake (s.casGrp 1).rxl (s.casGrp 1).rxAt (lineOf c)).1 = c
  rw [h.2.1, h.2.2]
  exact groupTake_groupSend_one {} 2048 c h.1

/-- CascadeLinksComplete: containers. -/
theorem wit_CascadeLinksComplete_containers :
    (4 ≤ grpState (linked 4) (1 : Fin 2) ∧ casGood (Carried (1 : Fin 2) (lineOf (List.replicate 256 1)) (linked 4)) = false) ∧
    (Sound (1 : Fin 2) (lineOf pktFor7) (memberOf 7) ∧ grpActive (memberOf 7) (1 : Fin 2) = true ∧
      headF (Carried (1 : Fin 2) (lineOf pktFor7) (memberOf 7)) 60 4 = 1 ∧ (memberOf 7).bit CAS_ROLE_ID_V = true ∧
      headF (Carried (1 : Fin 2) (lineOf pktFor7) (memberOf 7)) 52 4 = (memberOf 7).rd CAS_ROLE_ID ∧
      headF (Carried (1 : Fin 2) (lineOf pktFor7) (memberOf 7)) 50 1 = 1 ∧ headF (Carried (1 : Fin 2) (lineOf pktFor7) (memberOf 7)) 49 1 = 1) ∧
    (Sound (1 : Fin 2) (lineOf pktFor7) (memberOf 6) ∧ grpActive (memberOf 6) (1 - (1 : Fin 2).val) = true ∧
      headF (Carried (1 : Fin 2) (lineOf pktFor7) (memberOf 6)) 60 4 = 1 ∧
      headF (Carried (1 : Fin 2) (lineOf pktFor7) (memberOf 6)) 52 4 ≠ (memberOf 6).rd CAS_ROLE_ID ∧
      headF (Carried (1 : Fin 2) (lineOf pktFor7) (memberOf 6)) 45 4 ≠ 0 ∧ (memberOf 6).rd CAS_ROLE_ROLE ≠ 3) := by
  unfold Sound
  rw [carried_lineOf, carried_lineOf, carried_lineOf] <;> decide +kernel

/-- CascadeLinksComplete: arrivals and indirect entries. -/
theorem wit_CascadeLinksComplete_tables :
    (let l : Bytes := List.replicate 90 0
     let s := (linked 5).setCasGrp 1 { (linked 5).casGrp 1 with arrived := [l] }
     (s.casGrp (1 : Fin 2)).arrived = l :: [] ∧ pipeOn s (pipeOf 0 0) = true ∧ (s.pipe (pipeOf 0 0)).idle.length < 512) ∧
    (Accepted m0 CAS_IND_CMD.addr (casGo 15 1) lit ∧ lit.bit CAS_IND_CMD_GO = false ∧ inField 15 CAS_IND_CMD_TABLE = 0) ∧
    (inField 0x20000000000000F CAS_IND_CMD_TABLE = 2 ∧ inField 0x20000000000000F CAS_IND_CMD_INDEX < 16) ∧
    (Accepted m0 CAS_IND_CMD.addr (casGo 0x1000000000000FF 0) lit ∧ inField 0x1000000000000FF CAS_IND_CMD_TABLE = 1 ∧
      inField 0x1000000000000FF CAS_IND_CMD_INDEX < 256 ∧ fieldOf (lit.reg (CAS_IND_DATA 0).addr) 0 16 ≠ 0xFFFF) := by decide +kernel

/-- LanesCarryContainers. -/
theorem wit_LanesCarryContainers : ([{}, {}] : List CasLane) ≠ [] ∧ pktFor7.length = 256 := by decide +kernel

/-- A CTRL container of member 9, broadcast or to member 7, with an operation and the words after it. -/
def ctrl9 (bc : Bool) (op : Nat) (words : List Nat) : Bytes :=
  casContainer (casHead 2 9 7 bc true true 5 8) (((op * 2 ^ 56 + 5 * 2 ^ 40) :: words).map (beBytes 8)).flatten

/-- A device whose serial number is 77. -/
def sn77 (s : State) : State := { s with regs := SMap.set (fun _ => 0) s.regs ACT_SN.addr 77 }

/-- CAPS, HEARTBEAT, READ_REQ, BOOT, JOIN, ASSIGN, VIEW and TIME containers, and states that they meet. -/
def capsC : Bytes := ctrl9 false 1 [1, 2 ^ 56 + 8 * 2 ^ 52]
def heartC : Bytes := ctrl9 false 2 [1, 2 ^ 59, 0]
def heartS : State := { linked 5 with cas := { (linked 5).cas with candSerial := 5 } }
def readC : Bytes := ctrl9 false 6 [0, 248]
def readS : State := (memberOf 7).wr CAS_ROLE_ROLE 1
def bootC : Bytes := casContainer (casHead 3 9 7 false true true 5 4) [1, 2, 3, 4]
def joinC : Bytes := ctrl9 true 3 [77]
def joinS : State := (memberOf 0).wr CAS_ROLE_ROLE 1
def assignC : Bytes := ctrl9 true 4 [77, 15 * 2 ^ 60]
def assignS : State := sn77 (linked 5)
def viewC : Bytes := ctrl9 true 5 [7 * 2 ^ 48 + 0x208 * 2 ^ 32 + 2 ^ 31 + 2 * 2 ^ 24, 0x9300000000000000]
def viewS : State := (memberOf 3).wr CAS_ROLE_ROLE 2
def timeC : Bytes := ctrl9 true 7 [0, 0, 0]
def timeS : State := (viewS.put CAS_CTL_TIME_EN true).wr TIM_CTL_TSRC 3

/-- CascadeGroupComplete: CAPS. -/
theorem wit_CascadeGroupComplete_caps :
    Ctrl 1 (1 : Fin 2) (lineOf capsC) (linked 4) ∧ grpState (linked 4) (1 : Fin 2) = 4 ∧
      fieldOf (wordAt (Payload (1 : Fin 2) (lineOf capsC) (linked 4)) 16) 56 8 = 1 ∧
      ((linked 4).casGrp (1 : Fin 2)).lanes &&& fieldOf (wordAt (Payload (1 : Fin 2) (lineOf capsC) (linked 4)) 16) 52 4 ≠ 0 := by
  unfold Ctrl Sound Payload
  rw [carried_lineOf] <;> decide +kernel

/-- CascadeGroupComplete: HEARTBEAT. -/
theorem wit_CascadeGroupComplete_heartbeat :
    Ctrl 2 (1 : Fin 2) (lineOf heartC) heartS ∧ keyLower (fieldOf (wordAt (Payload (1 : Fin 2) (lineOf heartC) heartS) 16) 58 1 == 0)
      (wordAt (Payload (1 : Fin 2) (lineOf heartC) heartS) 24) heartS.cas.candLow heartS.cas.candSerial = true := by
  unfold Ctrl Sound Payload
  rw [carried_lineOf] <;> decide +kernel

/-- CascadeGroupComplete: READ_REQ. -/
theorem wit_CascadeGroupComplete_readReq :
    Ctrl 6 (1 : Fin 2) (lineOf readC) readS ∧ grpActive readS (1 : Fin 2) = true ∧ headF (Carried (1 : Fin 2) (lineOf readC) readS) 51 1 = 0 ∧
      readS.bit CAS_ROLE_ID_V = true ∧ headF (Carried (1 : Fin 2) (lineOf readC) readS) 52 4 = readS.rd CAS_ROLE_ID ∧ readS.rd CAS_ROLE_ROLE = 1 := by
  unfold Ctrl Sound
  rw [carried_lineOf] <;> decide +kernel

/-- CascadeGroupComplete: PROBE and PROBE_RESP. -/
theorem wit_CascadeGroupComplete_probes :
    Ctrl 8 (1 : Fin 2) (lineOf (ctrl9 false 8 [1, 2])) (linked 5) ∧ Ctrl 9 (1 : Fin 2) (lineOf (ctrl9 false 9 [1, 2, 3, 4, 5, 6])) (linked 5) := by
  unfold Ctrl Sound
  rw [carried_lineOf, carried_lineOf] <;> decide +kernel

/-- CascadeGroupComplete: BOOT. -/
theorem wit_CascadeGroupComplete_bootContainer :
    Sound (1 : Fin 2) (lineOf bootC) (memberOf 7) ∧ grpActive (memberOf 7) (1 : Fin 2) = true ∧
      casIs 3 0 (Carried (1 : Fin 2) (lineOf bootC) (memberOf 7)) = true ∧ headF (Carried (1 : Fin 2) (lineOf bootC) (memberOf 7)) 60 4 = 3 ∧
      (memberOf 7).bit CAS_ROLE_ID_V = true ∧ headF (Carried (1 : Fin 2) (lineOf bootC) (memberOf 7)) 52 4 = (memberOf 7).rd CAS_ROLE_ID ∧
      headF (Carried (1 : Fin 2) (lineOf bootC) (memberOf 7)) 50 1 = 1 ∧ headF (Carried (1 : Fin 2) (lineOf bootC) (memberOf 7)) 49 1 = 1 := by
  unfold Sound
  rw [carried_lineOf] <;> decide +kernel

/-- A broadcast is news where nothing of its sender has been taken. -/
theorem news_of (op : Nat) (c : Bytes) (s : State) (h : c.length = 256 ∧ (s.casGrp 1).rxl = [{}] ∧ (s.casGrp 1).rxAt = 2048)
    (h2 : (isUp s = true ∧ s.runs blkCAS = true ∧ 4 ≤ grpState s (1 : Fin 2) ∧ casGood c = true ∧
      ((s.casGrp (1 : Fin 2)).rxDrop = false ∨ (beAt c 0 8).testBit 50 = true)) ∧ casIs 2 op c = true ∧ headF c 60 4 = 2)
    (h3 : grpActive s (1 : Fin 2) = true ∧ headF c 51 1 = 1 ∧ (s.bit CAS_ROLE_ID_V = true → headF c 56 4 ≠ s.rd CAS_ROLE_ID))
    (h4 : s.casLastSeq (headF c 56 4) = none) : News op (1 : Fin 2) (lineOf c) s := by
  unfold News Ctrl Sound
  rw [carried_lineOf c s h]
  exact ⟨h2, h3.1, h3.2.1, h3.2.2, fun x hx => by rw [h4] at hx; cases hx⟩

/-- CascadeGroupComplete: JOIN and ASSIGN. -/
theorem wit_CascadeGroupComplete_join :
    (News 3 (1 : Fin 2) (lineOf joinC) joinS ∧ joinS.rd CAS_ROLE_ROLE = 1 ∧
      joinId joinS (wordAt (Payload (1 : Fin 2) (lineOf joinC) joinS) 8) = some 0) ∧
    (News 4 (1 : Fin 2) (lineOf assignC) assignS ∧ assignS.rd CAS_ROLE_ROLE ≠ 1 ∧
      wordAt (Payload (1 : Fin 2) (lineOf assignC) assignS) 8 = serial assignS ∧
      fieldOf (wordAt (Payload (1 : Fin 2) (lineOf assignC) assignS) 16) 59 1 = 0) := by
  refine ⟨⟨news_of 3 _ _ (by decide +kernel) (by decide +kernel) (by decide +kernel) (by decide +kernel), ?_⟩,
    ⟨news_of 4 _ _ (by decide +kernel) (by decide +kernel) (by decide +kernel) (by decide +kernel), ?_⟩⟩
  all_goals
    unfold Payload
    rw [carried_lineOf] <;> decide +kernel

/-- CascadeGroupComplete: VIEW and TIME. -/
theorem wit_CascadeGroupComplete_view :
    (News 5 (1 : Fin 2) (lineOf viewC) viewS ∧ viewS.rd CAS_ROLE_ROLE = 2 ∧ viewS.cas.ring = [] ∧
      (viewOf (Payload (1 : Fin 2) (lineOf viewC) viewS)).2.1.testBit (viewS.rd CAS_ROLE_ID) = true) ∧
    (News 7 (1 : Fin 2) (lineOf timeC) timeS ∧ timeS.bit CAS_CTL_TIME_EN = true ∧ timeS.rd CAS_ROLE_ROLE = 2 ∧ timeS.rd TIM_CTL_TSRC = 3) := by
  refine ⟨⟨news_of 5 _ _ (by decide +kernel) (by decide +kernel) (by decide +kernel) (by decide +kernel), ?_⟩,
    ⟨news_of 7 _ _ (by decide +kernel) (by decide +kernel) (by decide +kernel) (by decide +kernel), by decide +kernel⟩⟩
  unfold Payload
  rw [carried_lineOf] <;> decide +kernel

/-- CascadeGroupComplete: ticks and elections. -/
theorem wit_CascadeGroupComplete_ticks :
    (isUp (linked 5) = true ∧ (linked 5).runs blkCAS = true ∧ grpActive (linked 5) (1 : Fin 2) = true) ∧
    (let s := ((lit.wr CAS_ROLE_ROLE 1).wr CAS_ROLE_PRESENT 0x8001).setCasEmpties 15 2
     s.rd CAS_ROLE_ROLE = 1 ∧ (s.rd CAS_ROLE_PRESENT).testBit 15 = true ∧ 15 ≠ s.rd CAS_ROLE_ID ∧ s.cas.heard.testBit 15 = false ∧
      2 ≤ s.casEmpties 15) ∧
    (candOwn (candReset (sn77 lit)) = true ∧ (candReset (sn77 lit)).rd CAS_ROLE_ROLE = 0 ∧ isUp (candReset (sn77 lit)) = true) ∧
    (let s := { lit.wr CAS_ROLE_ROLE 2 with cas := { lit.cas with mgrEmpty := 3 } }
     s.rd CAS_ROLE_ROLE = 2 ∧ 3 ≤ s.cas.mgrEmpty ∧ (s.wr CAS_ROLE_ROLE 3).rd CAS_ROLE_ROLE = 3 ∧ s.runs blkCAS = true) ∧
    (let s := { lit with cfg := { lit.cfg with boot := .sfdpDone, casBoot := true } }
     isUp s = true ∧ s.cfg.casBoot = true ∧ s.cfg.boot = .sfdpDone ∧ s.rd CAS_ROLE_ROLE ≠ 2) := by decide +kernel

/-- CPLL enabled and locked. -/
def cpllUp : State := (ready.put CLK_CORE_CPLL_EN true).put CLK_STATUS_CPLL_LOCK true

/-- ClocksComplete: a switch to CPLL and its setting; lock and loss of CPLL, SPLL and IOSC. -/
theorem wit_ClocksComplete_plls :
    (let v := withField (withField (withField 0 CLK_CORE_FREQ (cpllUp.rd CLK_CORE_FREQ)) CLK_CORE_CPLL_EN 1) CLK_CORE_SEL 1
     Accepted m0 CLK_CORE.addr v cpllUp ∧ 8 ≤ inField v CLK_CORE_FREQ ∧ inField v CLK_CORE_FREQ ≤ 20 ∧ inField v CLK_CORE_FREQ = cpllUp.rd CLK_CORE_FREQ ∧
      inField v CLK_CORE_CPLL_EN = cpllUp.rd CLK_CORE_CPLL_EN ∧ inField v CLK_CORE_SEL = 1 ∧ cpllUp.bit CLK_STATUS_CPLL_LOCK = true) ∧
    (let v := withField (withField 0 CLK_CORE_FREQ 20) CLK_CORE_CPLL_EN 1
     Accepted m0 CLK_CORE.addr v ready ∧ 8 ≤ inField v CLK_CORE_FREQ ∧ inField v CLK_CORE_FREQ ≤ 20 ∧ inField v CLK_CORE_SEL = 0 ∧
      ready.bit CLK_CORE_SEL = false ∧ ready.bit CLK_STATUS_CORE_SRC = false ∧ inField v CLK_CORE_CPLL_EN ≠ ready.rd CLK_CORE_CPLL_EN) ∧
    (isUp cpllUp = true ∧ cpllUp.bit CLK_CORE_CPLL_EN = true ∧ (cpllUp.put CLK_STATUS_CORE_SRC true).bit CLK_STATUS_CPLL_LOCK = true ∧
      (cpllUp.put CLK_STATUS_CORE_SRC true).bit CLK_STATUS_CORE_SRC = true) ∧
    ((cpllUp.put CLK_STATUS_SPLL_LOCK true).bit CLK_STATUS_SPLL_LOCK = true ∧ (cpllUp.put CLK_STATUS_IOSC_OK true).bit CLK_STATUS_IOSC_OK = true) := by
  decide +kernel

/-- ClocksComplete: the crystal, a reference, a measurement. -/
theorem wit_ClocksComplete_others :
    ((ready.put CLK_STATUS_XTAL_OK true).bit CLK_STATUS_XTAL_OK = true ∧ (ready.put CLK_STATUS_XTAL_OK true).clk.xtalDead = false ∧
      ready.bit CLK_STATUS_XTAL_OK = false ∧ ready.clk.xtalDead = false) ∧
    (isUp ready = true ∧ (ready.put (srefBits 1).1 true).bit (srefBits 1).1 = true ∧ (ready.wr (srefBits 1).2.2 0).rd (srefBits 1).2.2 ≠ 3) ∧
    (let v := withField 0 CLK_MEAS_DOM 58
     Accepted m0 CLK_MEAS.addr (withField v CLK_MEAS_GO 1) ready ∧ ready.bit CLK_MEAS_GO = false ∧ inField v CLK_MEAS_DOM ≤ 58) ∧
    (isUp (ready.put CLK_MEAS_GO true) = true ∧ (ready.put CLK_MEAS_GO true).bit CLK_MEAS_GO = true) := by decide +kernel

/-! ### Commands that are not well formed -/

theorem test_ill_formed_copyHeadersRead : Instr.wellFormed (.copyHeadersRead (List.replicate 1024 0) [] false false) = false := by decide +kernel
theorem test_ill_formed_copyHeadersRead_a : Instr.wellFormed (.copyHeadersRead [] (List.replicate 1024 0) false false) = false := by decide +kernel
theorem test_ill_formed_spiCommandDone : Instr.wellFormed (.spiCommandDone true (List.replicate 257 0)) = false := by decide +kernel
theorem test_ill_formed_hostWrite : Instr.wellFormed (.hostWrite (List.replicate 15 0)) = false := by decide +kernel
theorem test_ill_formed_registerWrite : Instr.wellFormed (.registerWrite .host .narrow 0x000100000000 0) = false := by decide +kernel
theorem test_ill_formed_eqWindowClose : Instr.wellFormed (.eqWindowClose 0 ⟨List.replicate 31 0, [], []⟩) = false := by decide +kernel
theorem test_ill_formed_eqWindowClose_aided : Instr.wellFormed (.eqWindowClose 0 ⟨List.replicate 32 0, List.replicate 249 0, []⟩) = false := by decide +kernel
theorem test_ill_formed_eqWindowClose_piloted : Instr.wellFormed (.eqWindowClose 0 ⟨List.replicate 32 0, [], List.replicate 249 0⟩) = false := by decide +kernel
theorem test_ill_formed_frameHeader : Instr.wellFormed (.frameHeader 0 [] (List.replicate 64 0)) = false := by decide +kernel
theorem test_ill_formed_frameHeader_ops : Instr.wellFormed (.frameHeader 0 (List.replicate 64 0) []) = false := by decide +kernel
theorem test_ill_formed_ohsInsertBlock : Instr.wellFormed (.ohsInsertBlock 0 (List.replicate 63 0)) = false := by decide +kernel
theorem test_ill_formed_mapEntry : Instr.wellFormed (.mapEntry 0 0 (List.replicate 15 0)) = false := by decide +kernel
/-- One byte more than a frame's information. -/
theorem test_ill_formed_fragment (l : Bytes) (h : l.length = 12800001) : Instr.wellFormed (.fragment 0 l false {}) = false := by
  show decide (l.length ≤ 12800000) = false
  rw [h]; decide
theorem test_ill_formed_unknownMessage : Instr.wellFormed (.unknownMessage 0 0 (List.replicate 63 0)) = false := by decide +kernel
theorem test_ill_formed_lineParams : Instr.wellFormed (.lineParams 0 0 (List.replicate 63 0)) = false := by decide +kernel
theorem test_ill_formed_assignTn : Instr.wellFormed (.assignTn 0 0 (List.replicate 63 0)) = false := by decide +kernel
theorem test_ill_formed_rangingTime : Instr.wellFormed (.rangingTime 0 0 (List.replicate 63 0)) = false := by decide +kernel
theorem test_ill_formed_burstProfile : Instr.wellFormed (.burstProfile 0 0 (List.replicate 63 0)) = false := by decide +kernel
theorem test_ill_formed_authChallenge : Instr.wellFormed (.authChallenge 0 0 (List.replicate 63 0)) = false := by decide +kernel
theorem test_ill_formed_keyInstall : Instr.wellFormed (.keyInstall 0 0 (List.replicate 63 0)) = false := by decide +kernel
theorem test_ill_formed_keyDerive : Instr.wellFormed (.keyDerive 0 0 (List.replicate 63 0)) = false := by decide +kernel
theorem test_ill_formed_keyEraseIndex : Instr.wellFormed (.keyEraseIndex 0 0 (List.replicate 63 0)) = false := by decide +kernel
theorem test_ill_formed_keyEraseAll : Instr.wellFormed (.keyEraseAll 0 0 (List.replicate 63 0)) = false := by decide +kernel
theorem test_ill_formed_streamAssign : Instr.wellFormed (.streamAssign 0 0 (List.replicate 63 0)) = false := by decide +kernel
theorem test_ill_formed_allocAssign : Instr.wellFormed (.allocAssign 0 0 (List.replicate 63 0)) = false := by decide +kernel
theorem test_ill_formed_powerMode : Instr.wellFormed (.powerMode 0 0 (List.replicate 63 0)) = false := by decide +kernel
theorem test_ill_formed_timeOfDay : Instr.wellFormed (.timeOfDay 0 0 (List.replicate 63 0)) = false := by decide +kernel
theorem test_ill_formed_disable : Instr.wellFormed (.disable 0 0 (List.replicate 63 0)) = false := by decide +kernel
theorem test_ill_formed_enable : Instr.wellFormed (.enable 0 0 (List.replicate 63 0)) = false := by decide +kernel
theorem test_ill_formed_deactivate : Instr.wellFormed (.deactivate 0 0 (List.replicate 63 0)) = false := by decide +kernel
theorem test_ill_formed_protSwitch : Instr.wellFormed (.protSwitch 0 0 (List.replicate 63 0)) = false := by decide +kernel
theorem test_ill_formed_wakeList : Instr.wellFormed (.wakeList 0 0 (List.replicate 63 0)) = false := by decide +kernel
theorem test_ill_formed_regWrite : Instr.wellFormed (.regWrite 0 0 (List.replicate 63 0)) = false := by decide +kernel
theorem test_ill_formed_regRead : Instr.wellFormed (.regRead 0 0 (List.replicate 63 0)) = false := by decide +kernel
theorem test_ill_formed_chpFrameParse : Instr.wellFormed (.chpFrameParse 0 (List.replicate 63 0) []) = false := by decide +kernel
theorem test_ill_formed_chpFrameParse_entry : Instr.wellFormed (.chpFrameParse 0 (List.replicate 64 0) [[0]]) = false := by decide +kernel
theorem test_ill_formed_chpFrameParse_count : Instr.wellFormed (.chpFrameParse 0 (List.replicate 64 0) (List.replicate 513 (List.replicate 16 0))) = false := by decide +kernel
/-- One byte more than a frame's information. -/
theorem test_ill_formed_runaheadIssue (l : Bytes) (h : l.length = 12800001) : Instr.wellFormed (.runaheadIssue 0 l 0 []) = false := by
  show decide (l.length ≤ 12800000) = false
  rw [h]; decide
/-- One byte more than a frame's limit. -/
theorem test_ill_formed_macReceiveFrame (l : Bytes) (h : l.length = 16005) : Instr.wellFormed (.macReceiveFrame 0 l false false 0 false 0 0) = false := by
  show decide (l.length ≤ 16004) = false
  rw [h]; decide
theorem test_ill_formed_todInMessage : Instr.wellFormed (.todInMessage (List.replicate 15 0)) = false := by decide +kernel
theorem test_ill_formed_tasteCycle : Instr.wellFormed (.tasteCycle true (some []) none 0) = false := by decide +kernel
theorem test_ill_formed_tasteCycle_b : Instr.wellFormed (.tasteCycle true none (some []) 0) = false := by decide +kernel
theorem test_ill_formed_containerReceive : Instr.wellFormed (.containerReceive 0 (List.replicate 5 []) (⟨0, 0, 0⟩ : Stamp) (⟨0, 0, 0⟩ : Stamp) [] false none) = false := by decide +kernel
theorem test_ill_formed_commaLock : Instr.wellFormed (.commaLock ⟨0, List.replicate 5 (0, 0)⟩) = false := by decide +kernel
/-- One line bit more than a container's share of one lane. -/
theorem test_ill_formed_containerReceive_lane : Instr.wellFormed (.containerReceive 0 [List.replicate 2156 true] (⟨0, 0, 0⟩ : Stamp) (⟨0, 0, 0⟩ : Stamp) [] false none) = false := by decide +kernel
theorem test_ill_formed_caps : Instr.wellFormed (.caps 0 (List.replicate 5 []) (⟨0, 0, 0⟩ : Stamp) (⟨0, 0, 0⟩ : Stamp) [] false none) = false := by decide +kernel
theorem test_ill_formed_heartbeat : Instr.wellFormed (.heartbeat 0 (List.replicate 5 []) (⟨0, 0, 0⟩ : Stamp) (⟨0, 0, 0⟩ : Stamp) [] false none) = false := by decide +kernel
theorem test_ill_formed_join : Instr.wellFormed (.join 0 (List.replicate 5 []) (⟨0, 0, 0⟩ : Stamp) (⟨0, 0, 0⟩ : Stamp) [] false none) = false := by decide +kernel
theorem test_ill_formed_assign : Instr.wellFormed (.assign 0 (List.replicate 5 []) (⟨0, 0, 0⟩ : Stamp) (⟨0, 0, 0⟩ : Stamp) [] false none) = false := by decide +kernel
theorem test_ill_formed_view : Instr.wellFormed (.view 0 (List.replicate 5 []) (⟨0, 0, 0⟩ : Stamp) (⟨0, 0, 0⟩ : Stamp) [] false none) = false := by decide +kernel
theorem test_ill_formed_readReq : Instr.wellFormed (.readReq 0 (List.replicate 5 []) (⟨0, 0, 0⟩ : Stamp) (⟨0, 0, 0⟩ : Stamp) [] false none) = false := by decide +kernel
theorem test_ill_formed_bootContainer : Instr.wellFormed (.bootContainer 0 (List.replicate 5 []) (⟨0, 0, 0⟩ : Stamp) (⟨0, 0, 0⟩ : Stamp) [] false none) = false := by decide +kernel
theorem test_ill_formed_time : Instr.wellFormed (.time 0 (List.replicate 5 []) (⟨0, 0, 0⟩ : Stamp) (⟨0, 0, 0⟩ : Stamp) [] false none) = false := by decide +kernel
theorem test_ill_formed_probe : Instr.wellFormed (.probe 0 (List.replicate 5 []) (⟨0, 0, 0⟩ : Stamp) (⟨0, 0, 0⟩ : Stamp) [] false none) = false := by decide +kernel
theorem test_ill_formed_probeResp : Instr.wellFormed (.probeResp 0 (List.replicate 5 []) (⟨0, 0, 0⟩ : Stamp) (⟨0, 0, 0⟩ : Stamp) [] false none) = false := by decide +kernel
theorem test_well_formed_hostWrite : Instr.wellFormed (.hostWrite (List.replicate 14 0)) = true := by decide +kernel

/-! ### Worked examples of the spec -/

/-- Chapter 6: under DP-16QAM with PRE_LEN 2,048 and GUARD 256 a grant of LEN 1,000 carries 202,288 bytes. -/
theorem test_capacity_1000 : capacity 1000 ⟨true, 0, false, 2048, 256⟩ = 202288 := by decide +kernel
/-- Chapter 6: LEN 600 carries 120,368 bytes. -/
theorem test_capacity_600 : capacity 600 ⟨true, 0, false, 2048, 256⟩ = 120368 := by decide +kernel
/-- R125: a full-frame grant carries 12,797,488 bytes. -/
theorem test_capacity_full : capacity 62500 ⟨true, 0, false, 2048, 256⟩ = 12797488 := by decide +kernel
/-- Chapter 20: RX_OVERSIZE of logical port 35 lies at 0x0000_1C23_0220. -/
theorem test_register_address : (MAC_CNT 35 4).addr = 0x1C230220 := by decide +kernel
/-- Chapter 1: the word 7 has check byte 0x01. -/
theorem test_check_byte : checkByte 7 = 0x01 := by decide +kernel
/-- Chapter 2: copies A with SEQ 41 and B with SEQ 42: B ranks first, and A in a retry. -/
theorem test_boot_ranking : decide (hdrSeq (goodHeader 41) < hdrSeq (goodHeader 42)) = true := by decide +kernel

end Sys2Proof.Tests
end

section
/-! PROOFS. The rules and pipelines family (chapters 01 and 07): what a write of a register of CLS comes to, the sweep, a commit,
the idle-slot port, and what a pass leaves of its pipeline; then O30. -/

namespace Sys2Proof.Machine
open Sys2Proof.Spec

/-! ### Writes of CLS registers -/

theorem blkOf_cls {a : Nat} (h : blkOf a = blkCLS) : 0x11000000 ≤ a ∧ a < 0x12000000 := by
  have h' : a / 0x1000000 = 0x11 := h
  omega

theorem regionOf_cls {a : Nat} (h : blkOf a = blkCLS) : regionOf a = .regs := by
  have := blkOf_cls h
  exact if_pos (by omega)

theorem bankOf_cls {a : Nat} (h : blkOf a = blkCLS) : bankOf a = some CLS_BANK.addr := by
  unfold bankOf
  rw [h]
  rfl

theorem blockWrite_cls {l a : Nat} {v : Word} {o s : State} (h : blkOf a = blkCLS) :
    blockWrite l a v o s = clsWrite a v o s := by
  unfold blockWrite
  rw [h]
  rfl

/-- An accepted write of a register of CLS other than the bank's stores its fields and acts in CLS. -/
theorem regAccess_cls {i : Initiator} {a : Nat} {v : Word} {s : State} {r : RegRow} (hA : Accepted i a v s)
    (hr : regRow? a = some r) (hb : blkOf a = blkCLS) (hn : CLS_BANK.addr ≠ a) :
    regAccess i a v s = clsWrite a v (hartActs i s) (regStore a r v (hartActs i s)) := by
  have hp : a ≠ TSK_POST.addr := by
    rintro rfl
    exact absurd hb (by decide)
  rw [regAccess_eq hA.1 hA.2 (regionOf_cls hb) hp,
    regWrite_eq hr (by rw [bankOf_cls hb]; simpa using hn), blockWrite_cls hb]

/-- A write stores at once and nowhere else. -/
def RegRow.plain (r : RegRow) : Bool := (r.has .rw || r.has .w1c) && !r.has .sx && !r.has .sh && !r.has .st

/-- The state in which the plain fields of a write are stored, the hart that makes it acting. -/
def storedBy (i : Initiator) (a : Nat) (r : RegRow) (v : Word) (s : State) : State :=
  (hartActs i s).setReg a (storedWord r v (s.reg a))

theorem regAccess_clsPlain {i : Initiator} {a : Nat} {v : Word} {s : State} {r : RegRow} (hA : Accepted i a v s)
    (hr : regRow? a = some r) (hk : r.plain = true) (hb : blkOf a = blkCLS) (hn : CLS_BANK.addr ≠ a) :
    regAccess i a v s = clsWrite a v (hartActs i s) (storedBy i a r v s) := by
  simp only [RegRow.plain, Bool.and_eq_true, Bool.not_eq_true'] at hk
  obtain ⟨⟨⟨hrw, hsx⟩, hsh⟩, hst⟩ := hk
  rw [regAccess_cls hA hr hb hn, regStore_rw hrw hsx hsh hst, hartActs_reg]
  rfl

theorem hartActs_cls (i : Initiator) (s : State) : (hartActs i s).cls = s.cls := by cases i <;> rfl
theorem hartActs_flw (i : Initiator) (s : State) : (hartActs i s).flw = s.flw := by cases i <;> rfl

section
variable {i : Initiator} {a : Nat} {r : RegRow} {v : Word} {s : State}

@[simp] theorem storedBy_cls : (storedBy i a r v s).cls = s.cls := hartActs_cls i s
@[simp] theorem storedBy_flw : (storedBy i a r v s).flw = s.flw := hartActs_flw i s
theorem storedBy_reg_ne {b : Nat} (h : b ≠ a) : (storedBy i a r v s).reg b = s.reg b := by
  rw [storedBy, reg_setReg_ne _ _ h, hartActs_reg]
theorem storedBy_rd_ne {q : RF} (h : q.addr ≠ a) : (storedBy i a r v s).rd q = s.rd q := by
  rw [rd_eq, storedBy_reg_ne h, rd_eq]
theorem storedBy_bit_ne {q : RF} (h : q.addr ≠ a) : (storedBy i a r v s).bit q = s.bit q := by
  rw [bit_eq, storedBy_rd_ne h, bit_eq]

/-- An RW field without a narrower range reads as the word gives it. -/
theorem storedBy_rd_rw (q : RF) (ha : q.addr = a) (hr : regRow? a = some r)
    (hf : ⟨q.lo, q.w, .rw, 0, ((2 ^ q.w - 1 : Nat) : Int)⟩ ∈ r.fields) : (storedBy i a r v s).rd q = inField v q := by
  subst ha
  rw [storedBy, rd_setReg_same]
  have h := stored_rw hr hf rfl v (s.reg q.addr)
  rw [clamped_full rfl rfl] at h
  exact h.trans (Nat.mod_eq_of_lt (fieldOf_lt _ _ _))

end

theorem inField_withField_same (v : Word) {r : RF} (n : Nat) (h : r.lo + r.w ≤ 64) (hn : n < 2 ^ r.w) :
    inField (withField v r n) r = n :=
  (fieldOf_setField_same v h n).trans (Nat.mod_eq_of_lt hn)

theorem inField_withField_disj (v : Word) {r q : RF} (n : Nat) (h : r.lo + r.w ≤ 64) (h' : q.lo + q.w ≤ 64)
    (hd : r.lo + r.w ≤ q.lo ∨ q.lo + q.w ≤ r.lo) : inField (withField v r n) q = inField v q :=
  fieldOf_setField_disj v h h' n hd

/-- The row of CLS_RI_CMD. -/
def rowRiCmd : RegRow :=
  ⟨0x11, 0x11000000, 1, 0x190, 1, 8, 0x0,
    [⟨63, 1, .w1s, 0, 1⟩, ⟨62, 1, .w1c, 0, 1⟩, ⟨61, 1, .rw, 0, 1⟩, ⟨60, 1, .rw, 0, 1⟩,
     ⟨59, 1, .w1c, 0, 1⟩, ⟨50, 6, .rw, 0, 63⟩, ⟨34, 16, .rw, 0, 65535⟩, ⟨20, 14, .rw, 0, 16383⟩,
     ⟨0, 17, .rw, 0, 131071⟩]⟩

theorem regRow_riCmd : regRow? CLS_RI_CMD.addr = some rowRiCmd := by decide +kernel

theorem clsWrite_riCmd {v : Word} {o s : State} (hg : inField v CLS_RI_CMD_GO = 1) :
    clsWrite CLS_RI_CMD.addr v o s =
      if o.bit CLS_RI_CMD_GO || decide (inField v CLS_RI_CMD_LEN < 64) || decide (16000 < inField v CLS_RI_CMD_LEN) then
        o.put CLS_RI_CMD_ERR true
      else s.put CLS_RI_CMD_GO true := by
  unfold clsWrite
  rw [if_neg (fun h => absurd h.1 (by decide)), if_neg (by decide), if_neg (by decide), if_neg (by decide), if_pos ⟨rfl, hg⟩]
  rfl

section
variable {i : Initiator} {v : Word} {m : Nat} {s : State}

theorem riGo_go : inField (riGo v m) CLS_RI_CMD_GO = 1 := by
  rw [riGo, inField_withField_disj _ _ (by decide) (by decide) (by decide), inField_withField_same _ _ (by decide) (by decide)]

theorem riGo_mode (h : m < 2) : inField (riGo v m) CLS_RI_CMD_MODE = m :=
  inField_withField_same _ _ (by decide) h

/-- What CLS_RI_CMD asks for beside GO and MODE is as the word gives it. -/
theorem riGo_other {q : RF} (h : q.lo + q.w ≤ 61) : inField (riGo v m) q = inField v q := by
  have e : CLS_RI_CMD_GO.lo = 63 ∧ CLS_RI_CMD_GO.w = 1 ∧ CLS_RI_CMD_MODE.lo = 61 ∧ CLS_RI_CMD_MODE.w = 1 := by decide
  obtain ⟨h1, h2, h3, h4⟩ := e
  rw [riGo, inField_withField_disj _ _ (by decide) (by omega) (by omega),
    inField_withField_disj _ _ (by decide) (by omega) (by omega)]

/-- A reinjection that R158 accepts is under way, its fields as written. -/
theorem reinject_accepted (hA : Accepted i CLS_RI_CMD.addr (riGo v m) s) (hg : s.bit CLS_RI_CMD_GO = false)
    (hlo : 64 ≤ inField v CLS_RI_CMD_LEN) (hhi : inField v CLS_RI_CMD_LEN ≤ 16000) :
    regAccess i CLS_RI_CMD.addr (riGo v m) s =
      (storedBy i CLS_RI_CMD.addr rowRiCmd (riGo v m) s).put CLS_RI_CMD_GO true := by
  rw [regAccess_clsPlain hA regRow_riCmd (by decide) (by decide) (by decide), clsWrite_riCmd riGo_go,
    riGo_other (by decide), hartActs_bit, hg, if_neg]
  simp
  omega

theorem reinject_rd (q : RF) (ha : q.addr = CLS_RI_CMD.addr) (hq : q.lo + q.w ≤ 63)
    (hf : ⟨q.lo, q.w, .rw, 0, ((2 ^ q.w - 1 : Nat) : Int)⟩ ∈ rowRiCmd.fields) :
    ((storedBy i CLS_RI_CMD.addr rowRiCmd (riGo v m) s).put CLS_RI_CMD_GO true).rd q = inField (riGo v m) q := by
  rw [rd_put_other _ _ (by decide) (by omega) (Or.inr (Or.inr hq)), storedBy_rd_rw q ha regRow_riCmd hf]
end

/-! ### Reinjections requested (R158) -/

/-- REINJECT_NEW_PASS (R158). -/
theorem reinjectNewPass_completes {i : Initiator} {v : Word} {s : State} (hA : Accepted i CLS_RI_CMD.addr (riGo v 0) s)
    (hg : s.bit CLS_RI_CMD_GO = false) (hlo : 64 ≤ inField v CLS_RI_CMD_LEN) (hhi : inField v CLS_RI_CMD_LEN ≤ 16000) :
    ∃ t, exec (.reinjectNewPass i v) s = .next t ∧ t.bit CLS_RI_CMD_GO = true ∧ t.bit CLS_RI_CMD_MODE = false ∧
      t.rd CLS_RI_CMD_LEN = inField v CLS_RI_CMD_LEN := by
  refine ⟨_, congrArg Host.Outcome.next (reinject_accepted hA hg hlo hhi), bit_put_same _ _ (by decide) rfl, ?_, ?_⟩
  · rw [bit_eq, reinject_rd CLS_RI_CMD_MODE rfl (by decide) (by decide), riGo_mode (by decide)]
    rfl
  · rw [reinject_rd CLS_RI_CMD_LEN rfl (by decide) (by decide), riGo_other (by decide)]

/-- REINJECT_TO_QUEUE (R158). -/
theorem reinjectToQueue_completes {i : Initiator} {v : Word} {s : State} (hA : Accepted i CLS_RI_CMD.addr (riGo v 1) s)
    (hg : s.bit CLS_RI_CMD_GO = false) (hlo : 64 ≤ inField v CLS_RI_CMD_LEN) (hhi : inField v CLS_RI_CMD_LEN ≤ 16000) :
    ∃ t, exec (.reinjectToQueue i v) s = .next t ∧ t.bit CLS_RI_CMD_GO = true ∧ t.bit CLS_RI_CMD_MODE = true ∧
      t.rd CLS_RI_CMD_QUEUE = inField v CLS_RI_CMD_QUEUE := by
  refine ⟨_, congrArg Host.Outcome.next (reinject_accepted hA hg hlo hhi), bit_put_same _ _ (by decide) rfl, ?_, ?_⟩
  · rw [bit_eq, reinject_rd CLS_RI_CMD_MODE rfl (by decide) (by decide), riGo_mode (by decide)]
    rfl
  · rw [reinject_rd CLS_RI_CMD_QUEUE rfl (by decide) (by decide), riGo_other (by decide)]

/-! ### Indirect accesses (R179) -/

/-- The row of CLS_IND_CMD. -/
def rowIndCmd : RegRow :=
  ⟨0x11, 0x11000000, 1, 0x20, 1, 8, 0x0,
    [⟨63, 1, .w1s, 0, 1⟩, ⟨62, 1, .w1c, 0, 1⟩, ⟨61, 1, .rw, 0, 1⟩, ⟨56, 2, .rw, 0, 3⟩, ⟨0, 15, .rw, 0, 32767⟩]⟩

theorem regRow_indCmd : regRow? CLS_IND_CMD.addr = some rowIndCmd := by decide +kernel

/-- An access that is asked for while none is in progress, and that is not refused, ends with GO 0. -/
theorem clsWrite_indCmd {v : Word} {o s t : State} (hg : inField v CLS_IND_CMD_GO = 1) (ho : o.bit CLS_IND_CMD_GO = false)
    (ht : clsAccess (sweepNow s) = some t) : clsWrite CLS_IND_CMD.addr v o s = t.put CLS_IND_CMD_GO false := by
  unfold clsWrite
  rw [if_pos ⟨rfl, hg⟩, ho, if_neg Bool.false_ne_true, ht]
  rfl

section
variable {i : Initiator} {v : Word} {m : Nat} {s : State}

theorem clsGo_go : inField (clsGo v m) CLS_IND_CMD_GO = 1 := by
  rw [clsGo, inField_withField_disj _ _ (by decide) (by decide) (by decide), inField_withField_same _ _ (by decide) (by decide)]

theorem clsGo_rd (h : m < 2) : inField (clsGo v m) CLS_IND_CMD_RD = m :=
  inField_withField_same _ _ (by decide) h

theorem clsGo_other {q : RF} (h : q.lo + q.w ≤ 61) : inField (clsGo v m) q = inField v q := by
  have e : CLS_IND_CMD_GO.lo = 63 ∧ CLS_IND_CMD_GO.w = 1 ∧ CLS_IND_CMD_RD.lo = 61 ∧ CLS_IND_CMD_RD.w = 1 := by decide
  obtain ⟨h1, h2, h3, h4⟩ := e
  rw [clsGo, inField_withField_disj _ _ (by decide) (by omega) (by omega),
    inField_withField_disj _ _ (by decide) (by omega) (by omega)]

/-- The state in which an access through CLS_IND_CMD is carried out: the command's fields are stored, and a running sweep has
caught up. -/
def indState (i : Initiator) (v : Word) (s : State) : State := sweepNow (storedBy i CLS_IND_CMD.addr rowIndCmd v s)

/-- An access that is not refused ends at once with GO 0. -/
theorem indAccess_accepted {t : State} (hA : Accepted i CLS_IND_CMD.addr (clsGo v m) s) (hg : s.bit CLS_IND_CMD_GO = false)
    (ht : clsAccess (indState i (clsGo v m) s) = some t) :
    regAccess i CLS_IND_CMD.addr (clsGo v m) s = t.put CLS_IND_CMD_GO false := by
  rw [regAccess_clsPlain hA regRow_indCmd (by decide) (by decide) (by decide)]
  exact clsWrite_indCmd clsGo_go (by rwa [hartActs_bit]) ht
end

/-! ### The sweep -/

section
variable {s : State}

/-- The sweep changes rules and its own place, and counts in RETIRED. -/
theorem sweepNext_cls (s : State) : ∃ rules pos, (sweepNext s).cls = { s.cls with rules := rules, sweepPos := pos } := by
  unfold sweepNext
  dsimp only
  split <;> exact ⟨_, _, rfl⟩

theorem sweepUpTo_cls (n : Nat) (s : State) : ∃ rules pos, (sweepUpTo n s).cls = { s.cls with rules := rules, sweepPos := pos } := by
  unfold sweepUpTo
  generalize List.range (n - s.cls.sweepPos) = l
  induction l generalizing s with
  | nil => exact ⟨_, _, rfl⟩
  | cons x l ih =>
    obtain ⟨r, p, h⟩ := sweepNext_cls s
    obtain ⟨r', p', h'⟩ := ih (sweepNext s)
    exact ⟨r', p', h'.trans (by rw [h])⟩

theorem sweepNow_cls (s : State) : ∃ rules pos, (sweepNow s).cls = { s.cls with rules := rules, sweepPos := pos } := by
  unfold sweepNow
  split
  · exact sweepUpTo_cls _ _
  · exact ⟨_, _, rfl⟩

/-- The sweep leaves every field outside RETIRED alone. -/
theorem sweepNext_rd {q : RF} (h : q.lo + q.w ≤ 64) (hq : q.addr ≠ CLS_CNT0.addr ∨ 16 ≤ q.lo) : (sweepNext s).rd q = s.rd q := by
  unfold sweepNext
  dsimp only
  split
  · exact rd_inc_other s (by decide) h (hq.imp id Or.inl)
  · rfl

theorem sweepUpTo_rd {q : RF} (n : Nat) (h : q.lo + q.w ≤ 64) (hq : q.addr ≠ CLS_CNT0.addr ∨ 16 ≤ q.lo) :
    (sweepUpTo n s).rd q = s.rd q := by
  unfold sweepUpTo
  generalize List.range (n - s.cls.sweepPos) = l
  induction l generalizing s with
  | nil => rfl
  | cons x l ih => exact ih.trans (sweepNext_rd h hq)

theorem sweepNow_rd {q : RF} (h : q.lo + q.w ≤ 64) (hq : q.addr ≠ CLS_CNT0.addr ∨ 16 ≤ q.lo) : (sweepNow s).rd q = s.rd q := by
  unfold sweepNow
  split
  · exact sweepUpTo_rd _ h hq
  · rfl

theorem sweepNow_idle (h : s.cls.sweeping = false) : sweepNow s = s := by
  unfold sweepNow
  rw [h]
  rfl

theorem sweepNow_alist (n : Nat) : (sweepNow s).alist n = s.alist n := by
  obtain ⟨r, p, h⟩ := sweepNow_cls s
  unfold State.alist
  rw [h]

theorem sweepNow_member (n : Nat) : (sweepNow s).member n = s.member n := by
  obtain ⟨r, p, h⟩ := sweepNow_cls s
  unfold State.member
  rw [h]
end

section
variable {i : Initiator} {v : Word} {m : Nat} {s : State}

/-- The fields of a command as its access sees them. -/
theorem indState_rd (q : RF) (ha : q.addr = CLS_IND_CMD.addr) (hq : q.lo + q.w ≤ 64)
    (hf : ⟨q.lo, q.w, .rw, 0, ((2 ^ q.w - 1 : Nat) : Int)⟩ ∈ rowIndCmd.fields) : (indState i v s).rd q = inField v q := by
  rw [indState, sweepNow_rd hq (Or.inl (by rw [ha]; decide)), storedBy_rd_rw q ha regRow_indCmd hf]

theorem indState_table : (indState i (clsGo v m) s).rd CLS_IND_CMD_TABLE = inField v CLS_IND_CMD_TABLE := by
  rw [indState_rd CLS_IND_CMD_TABLE rfl (by decide) (by decide), clsGo_other (by decide)]

theorem indState_index : (indState i (clsGo v m) s).rd CLS_IND_CMD_INDEX = inField v CLS_IND_CMD_INDEX := by
  rw [indState_rd CLS_IND_CMD_INDEX rfl (by decide) (by decide), clsGo_other (by decide)]

theorem indState_read (h : m < 2) : (indState i (clsGo v m) s).bit CLS_IND_CMD_RD = (m != 0) := by
  rw [bit_eq, indState_rd CLS_IND_CMD_RD rfl (by decide) (by decide), clsGo_rd h]

theorem indState_alist (n : Nat) : (indState i v s).alist n = s.alist n := by
  rw [indState, sweepNow_alist]
  unfold State.alist
  rw [storedBy_cls]

theorem indState_member (n : Nat) : (indState i v s).member n = s.member n := by
  rw [indState, sweepNow_member]
  unfold State.member
  rw [storedBy_cls]

/-- Without a sweep the rules stand as they did. -/
theorem indState_idle (h : s.cls.sweeping = false) : indState i v s = storedBy i CLS_IND_CMD.addr rowIndCmd v s :=
  sweepNow_idle (by rwa [storedBy_cls])

theorem clsDataAddr_ne (n : Nat) (h : n < 22) {a : Nat} (ha : a < 0x11000028 ∨ 0x110000d8 ≤ a) : (CLS_IND_DATA n).addr ≠ a := by
  have e : (CLS_IND_DATA n).addr = 0x11000028 + n % 4096 * 8 := rfl
  omega

theorem indState_data {n : Nat} (h : n < 22) : clsData (indState i v s) n = clsD s n := by
  have hc : (CLS_IND_DATA n).addr ≠ CLS_CNT0.addr := clsDataAddr_ne n h (by decide)
  have e : (indState i v s).rd (CLS_IND_DATA n) = s.rd (CLS_IND_DATA n) := by
    rw [indState, sweepNow_rd (le_refl 64) (Or.inl hc), storedBy_rd_ne (clsDataAddr_ne n h (by decide))]
  have w : ∀ x : State, x.rd (CLS_IND_DATA n) = (x.reg (CLS_IND_DATA n).addr).toNat := fun x => by
    rw [rd_eq]
    show fieldOf _ 0 64 = _
    simp only [fieldOf, Nat.shiftRight_zero]
    exact Nat.mod_eq_of_lt (BitVec.isLt _)
  rw [w, w] at e
  exact BitVec.eq_of_toNat_eq e
end

/-! ### The data words shown -/

theorem showClsData_cls (l : List Nat) (s : State) : (showClsData l s).cls = s.cls := by
  unfold showClsData
  generalize List.range l.length = r
  induction r generalizing s with
  | nil => rfl
  | cons x r ih => exact (ih _).trans (setReg_cls _ _ _)

/-- The first words of a list, shown one after the other. -/
theorem reg_showWords (f : Nat → Word) (s : State) {m n : Nat} (hm : m ≤ 4096) (hn : n < m) :
    ((List.range m).foldl (fun s i => s.setReg (CLS_IND_DATA i).addr (f i)) s).reg (CLS_IND_DATA n).addr = f n := by
  induction m with
  | zero => omega
  | succ m ih =>
    rw [List.range_succ, List.foldl_append]
    simp only [List.foldl_cons, List.foldl_nil]
    by_cases h : n = m
    · rw [h, reg_setReg_same]
    · rw [reg_setReg_ne, ih (by omega) (by omega)]
      simp only [CLS_IND_DATA]
      omega

theorem clsD_showClsData {l : List Nat} {s : State} {n : Nat} (hl : l.length ≤ 22) (hn : n < l.length) (b : Bool) :
    clsD ((showClsData l s).put CLS_IND_CMD_GO b) n = BitVec.ofNat 64 (l.getD n 0) :=
  (reg_setReg_ne _ _ (clsDataAddr_ne n (by omega) (by decide))).trans
    (reg_showWords (fun i => BitVec.ofNat 64 (l.getD i 0)) s (by omega) hn)

/-- The data words after a list is shown. -/
theorem clsD_shown {l : List Nat} (s : State) (hl : l.length ≤ 22) (b : Bool) :
    (List.range l.length).map (clsD ((showClsData l s).put CLS_IND_CMD_GO b)) = l.map (BitVec.ofNat 64) := by
  apply List.ext_getElem
  · simp
  · intro n hn hn'
    have hnl : n < l.length := by simpa using hn
    rw [List.getElem_map, List.getElem_range, clsD_showClsData hl hnl, List.getElem_map, List.getD_eq_getElem _ _ hnl]

theorem length_ruleWords (r : Rule) : (ruleWords r).length = 22 := by simp [ruleWords]

section
variable {s : State}

theorem clsAccess_readRule (hr : s.bit CLS_IND_CMD_RD = true) (ht : s.rd CLS_IND_CMD_TABLE = 0) :
    clsAccess s = some (showClsData (ruleWords (s.rule (s.rd CLS_IND_CMD_INDEX))) s) := by
  simp [clsAccess, hr, ht]

theorem clsAccess_readList (hr : s.bit CLS_IND_CMD_RD = true) (ht : s.rd CLS_IND_CMD_TABLE = 1) {n : Nat}
    (hi : s.rd CLS_IND_CMD_INDEX = n) (hn : n ≤ 16383) :
    clsAccess s = some (showClsData ((List.range 8).map (fun i => (((s.alist n).words.getD i 0) : Word).toNat) ++ [listRefs s n]) s) := by
  simp [clsAccess, hr, ht, hi, hn]

theorem clsAccess_readGroup (hr : s.bit CLS_IND_CMD_RD = true) (ht : s.rd CLS_IND_CMD_TABLE = 2) {n : Nat}
    (hi : s.rd CLS_IND_CMD_INDEX = n) (hn : n ≤ 15) :
    clsAccess s = some (showClsData ((List.range 8).map (fun i =>
      memberWord (s.member (n * 16 + 2 * i)) * 2 ^ 32 + memberWord (s.member (n * 16 + (2 * i + 1))))) s) := by
  simp only [clsAccess, hr, ht, hi, hn, ↓reduceIte]
  rfl

theorem clsAccess_writeRule (hr : s.bit CLS_IND_CMD_RD = false) (ht : s.rd CLS_IND_CMD_TABLE = 0) {n : Nat}
    (hi : s.rd CLS_IND_CMD_INDEX = n) : clsAccess s = (ruleAccept s (s.rule n) (ruleFrom (clsData s))).map (fun r => s.setRule n r) := by
  simp [clsAccess, hr, ht, hi]

theorem clsAccess_writeList (hr : s.bit CLS_IND_CMD_RD = false) (ht : s.rd CLS_IND_CMD_TABLE = 1) {n : Nat}
    (hi : s.rd CLS_IND_CMD_INDEX = n) (hn : n ≤ 16383) (hb : listBad ((List.range 8).map (clsData s)) = false)
    (h0 : listRefs s n = 0) :
    clsAccess s = some (s.setAlist n { words := (List.range 8).map (clsData s), defined := true }) := by
  simp only [clsAccess, hr, ht, hi, Bool.false_eq_true, ↓reduceIte]
  rw [if_pos ⟨hn, by simp [hb], h0⟩]

theorem clsAccess_writeGroup (hr : s.bit CLS_IND_CMD_RD = false) (ht : s.rd CLS_IND_CMD_TABLE = 2) {n : Nat}
    (hi : s.rd CLS_IND_CMD_INDEX = n) (hn : n ≤ 15) :
    clsAccess s = some ((List.range 16).foldl (fun t i => t.setMember (n * 16 + i)
      ⟨(fieldOf (clsData s (i / 2)) (if i % 2 = 0 then 32 else 0) 32).testBit 31,
        fieldOf (clsData s (i / 2)) (if i % 2 = 0 then 32 else 0) 32 / 2 ^ 24 % 16,
        fieldOf (clsData s (i / 2)) (if i % 2 = 0 then 32 else 0) 32 % 65536⟩) s) := by
  simp only [clsAccess, hr, ht, hi, hn, Bool.false_eq_true, ↓reduceIte]

/-- A member as its half word gives it, read from the half or from the whole word. -/
theorem member_halfWord (d : Word) (lo : Nat) :
    (⟨(fieldOf d lo 32).testBit 31, fieldOf d lo 32 / 2 ^ 24 % 16, fieldOf d lo 32 % 65536⟩ : Member) =
      ⟨fieldOf d (lo + 31) 1 == 1, fieldOf d (lo + 24) 4, fieldOf d lo 16⟩ := by
  simp only [fieldOf, Nat.testBit_eq_decide_div_mod_eq, Nat.shiftRight_add, Nat.shiftRight_eq_div_pow _ 31,
    Nat.shiftRight_eq_div_pow _ 24]
  generalize d.toNat >>> lo = x
  congr 1
  · rw [Bool.eq_iff_iff]
    simp
    omega
  · omega
  · omega

/-- Members written one after the other read as written. -/
theorem member_setMembers (k : Nat) (f : Nat → Member) (s : State) {m j : Nat} (hj : j < m) :
    ((List.range m).foldl (fun t i => t.setMember (k + i) (f i)) s).member (k + j) = f j := by
  induction m with
  | zero => omega
  | succ m ih =>
    rw [List.range_succ, List.foldl_append]
    simp only [List.foldl_cons, List.foldl_nil]
    by_cases h : j = m
    · rw [h, member_setMember]
    · rw [member_setMember_ne _ _ (by omega), ih (by omega)]
end

/-! ### Reads and writes of the rule tables (R176, R177, R179) -/

section
variable {i : Initiator} {v : Word} {s : State}

/-- CLS_IND_READ of each table (R179). -/
theorem clsIndRead_completes (hA : Accepted i CLS_IND_CMD.addr (clsGo v 1) s) (hg : s.bit CLS_IND_CMD_GO = false)
    (hT : inField v CLS_IND_CMD_TABLE < 3)
    (h1 : inField v CLS_IND_CMD_TABLE = 1 → inField v CLS_IND_CMD_INDEX ≤ 16383)
    (h2 : inField v CLS_IND_CMD_TABLE = 2 → inField v CLS_IND_CMD_INDEX ≤ 15) :
    ∃ t, exec (.clsIndRead i v) s = .next t ∧ t.bit CLS_IND_CMD_GO = false ∧
      (inField v CLS_IND_CMD_TABLE = 0 → (List.range 22).map (clsD t) =
        (ruleWords (t.rule (inField v CLS_IND_CMD_INDEX))).map (BitVec.ofNat 64)) ∧
      (inField v CLS_IND_CMD_TABLE = 1 → ∀ n < 8, clsD t n = (s.alist (inField v CLS_IND_CMD_INDEX)).words.getD n 0) ∧
      (inField v CLS_IND_CMD_TABLE = 2 → ∀ n < 8, clsD t n =
        BitVec.ofNat 64 (memberWord (s.member (inField v CLS_IND_CMD_INDEX * 16 + 2 * n)) * 2 ^ 32 +
          memberWord (s.member (inField v CLS_IND_CMD_INDEX * 16 + 2 * n + 1)))) := by
  have hr : (indState i (clsGo v 1) s).bit CLS_IND_CMD_RD = true := indState_read (by decide)
  have ht := indState_table (i := i) (v := v) (m := 1) (s := s)
  have hx := indState_index (i := i) (v := v) (m := 1) (s := s)
  have hgo : ∀ t : State, (t.put CLS_IND_CMD_GO false).bit CLS_IND_CMD_GO = false :=
    fun t => bit_put_same _ _ (by decide) rfl
  obtain hT | hT | hT : inField v CLS_IND_CMD_TABLE = 0 ∨ inField v CLS_IND_CMD_TABLE = 1 ∨ inField v CLS_IND_CMD_TABLE = 2 := by
    omega
  · rw [hT] at ht
    refine ⟨_, congrArg Host.Outcome.next (indAccess_accepted hA hg (clsAccess_readRule hr ht)), hgo _, fun _ => ?_,
      fun h => by omega, fun h => by omega⟩
    have hrule : ∀ l n, ((showClsData l (indState i (clsGo v 1) s)).put CLS_IND_CMD_GO false).rule n =
        (indState i (clsGo v 1) s).rule n := fun l n => by
      unfold State.rule
      rw [put_cls, showClsData_cls]
    have hlen := length_ruleWords ((indState i (clsGo v 1) s).rule (inField v CLS_IND_CMD_INDEX))
    rw [hrule, hx, ← clsD_shown (indState i (clsGo v 1) s) hlen.le, hlen]
  · rw [hT] at ht
    refine ⟨_, congrArg Host.Outcome.next (indAccess_accepted hA hg (clsAccess_readList hr ht hx (h1 hT))), hgo _,
      fun h => by omega, fun _ n hn => ?_, fun h => by omega⟩
    rw [clsD_showClsData (by simp) (by simp; omega), List.getD_eq_getElem _ _ (by simp; omega),
      List.getElem_append_left (by simpa using hn), List.getElem_map, List.getElem_range, indState_alist, BitVec.ofNat_toNat,
      BitVec.setWidth_eq]
  · rw [hT] at ht
    refine ⟨_, congrArg Host.Outcome.next (indAccess_accepted hA hg (clsAccess_readGroup hr ht hx (h2 hT))), hgo _,
      fun h => by omega, fun h => by omega, fun _ n hn => ?_⟩
    rw [clsD_showClsData (by simp) (by simpa using hn), List.getD_eq_getElem _ _ (by simpa using hn), List.getElem_map,
      List.getElem_range, indState_member, indState_member]
    rfl

/-- A rule is judged on the versions alone. -/
theorem ruleAccept_congr {s t : State} (hc : s.rd CLS_VER_CUR = t.rd CLS_VER_CUR) (hp : s.bit CLS_VER_PENDING = t.bit CLS_VER_PENDING)
    (old new : Rule) : ruleAccept s old new = ruleAccept t old new := by
  unfold ruleAccept
  rw [hc, hp]

theorem ruleFrom_congr {d e : Nat → Word} (h : ∀ n < 22, d n = e n) : ruleFrom d = ruleFrom e := by
  unfold ruleFrom
  simp only [List.range, List.range.loop, List.foldl_cons, List.foldl_nil, h, Nat.reduceLT, Nat.reduceAdd]

/-- CLS_IND_WRITE of a rule that R176 accepts. -/
theorem clsIndWrite_rule (hA : Accepted i CLS_IND_CMD.addr (clsGo v 0) s) (hg : s.bit CLS_IND_CMD_GO = false)
    (hs : s.cls.sweeping = false) (hT : inField v CLS_IND_CMD_TABLE = 0) {r : Rule}
    (hr : ruleAccept s (s.rule (inField v CLS_IND_CMD_INDEX)) (ruleFrom (clsD s)) = some r) :
    ∃ t, exec (.clsIndWrite i v) s = .next t ∧ t.bit CLS_IND_CMD_GO = false ∧ t.rule (inField v CLS_IND_CMD_INDEX) = r := by
  have ht : clsAccess (indState i (clsGo v 0) s) = some ((indState i (clsGo v 0) s).setRule (inField v CLS_IND_CMD_INDEX) r) := by
    have hrule : (indState i (clsGo v 0) s).rule (inField v CLS_IND_CMD_INDEX) = s.rule (inField v CLS_IND_CMD_INDEX) := by
      unfold State.rule
      rw [indState_idle hs, storedBy_cls]
    have hc : (indState i (clsGo v 0) s).rd CLS_VER_CUR = s.rd CLS_VER_CUR := by
      rw [indState_idle hs, storedBy_rd_ne (by decide)]
    have hp : (indState i (clsGo v 0) s).bit CLS_VER_PENDING = s.bit CLS_VER_PENDING := by
      rw [indState_idle hs, storedBy_bit_ne (by decide)]
    rw [clsAccess_writeRule (indState_read (by decide)) (indState_table.trans hT) indState_index, hrule, ruleAccept_congr hc hp,
      ruleFrom_congr (fun n hn => indState_data hn), hr]
    rfl
  exact ⟨_, congrArg Host.Outcome.next (indAccess_accepted hA hg ht), bit_put_same _ _ (by decide) rfl, rule_setRule _ _ _⟩

theorem clsData_list : (List.range 8).map (clsData (indState i v s)) = (List.range 8).map (clsD s) :=
  List.map_congr_left (fun n hn => indState_data (by have := List.mem_range.1 hn; omega))

/-- CLS_IND_WRITE of an action list that nothing refers to (R164, R177). -/
theorem clsIndWrite_list (hA : Accepted i CLS_IND_CMD.addr (clsGo v 0) s) (hg : s.bit CLS_IND_CMD_GO = false)
    (hs : s.cls.sweeping = false) (hT : inField v CLS_IND_CMD_TABLE = 1) (hi : inField v CLS_IND_CMD_INDEX ≤ 16383)
    (hb : listBad ((List.range 8).map (clsD s)) = false) (h0 : listRefs s (inField v CLS_IND_CMD_INDEX) = 0) :
    ∃ t, exec (.clsIndWrite i v) s = .next t ∧ t.bit CLS_IND_CMD_GO = false ∧
      (t.alist (inField v CLS_IND_CMD_INDEX)).words = (List.range 8).map (clsD s) ∧
      (t.alist (inField v CLS_IND_CMD_INDEX)).defined = true := by
  have hrefs : listRefs (indState i (clsGo v 0) s) (inField v CLS_IND_CMD_INDEX) = 0 := by
    rw [indState_idle hs]
    unfold listRefs at h0 ⊢
    rwa [storedBy_cls, storedBy_flw]
  have ht := clsAccess_writeList (indState_read (i := i) (v := v) (m := 0) (s := s) (by decide)) (indState_table.trans hT)
    indState_index hi (by rwa [clsData_list]) hrefs
  rw [clsData_list] at ht
  have hl : ∀ (t : State) x, ((t.setAlist (inField v CLS_IND_CMD_INDEX) x).put CLS_IND_CMD_GO false).alist (inField v CLS_IND_CMD_INDEX) = x :=
    fun t x => alist_setAlist t _ x
  refine ⟨_, congrArg Host.Outcome.next (indAccess_accepted hA hg ht), bit_put_same _ _ (by decide) rfl, ?_, ?_⟩ <;> rw [hl]

/-- CLS_IND_WRITE of a channel-pair group (Table 7.8). -/
theorem clsIndWrite_group (hA : Accepted i CLS_IND_CMD.addr (clsGo v 0) s) (hg : s.bit CLS_IND_CMD_GO = false)
    (hT : inField v CLS_IND_CMD_TABLE = 2) (hi : inField v CLS_IND_CMD_INDEX ≤ 15) :
    ∃ t, exec (.clsIndWrite i v) s = .next t ∧ t.bit CLS_IND_CMD_GO = false ∧
      ∀ n < 8, t.member (inField v CLS_IND_CMD_INDEX * 16 + 2 * n) =
          ⟨fieldOf (clsD s n) 63 1 == 1, fieldOf (clsD s n) 56 4, fieldOf (clsD s n) 32 16⟩ ∧
        t.member (inField v CLS_IND_CMD_INDEX * 16 + 2 * n + 1) =
          ⟨fieldOf (clsD s n) 31 1 == 1, fieldOf (clsD s n) 24 4, fieldOf (clsD s n) 0 16⟩ := by
  have ht := clsAccess_writeGroup (indState_read (i := i) (v := v) (m := 0) (s := s) (by decide)) (indState_table.trans hT)
    indState_index hi
  have hput : ∀ (t : State) k, (t.put CLS_IND_CMD_GO false).member k = t.member k := fun _ _ => rfl
  refine ⟨_, congrArg Host.Outcome.next (indAccess_accepted hA hg ht), bit_put_same _ _ (by decide) rfl, fun n hn => ⟨?_, ?_⟩⟩
  · rw [hput, member_setMembers _ _ _ (by omega), show 2 * n / 2 = n by omega, if_pos (by omega), indState_data (by omega)]
    exact member_halfWord _ 32
  · rw [hput, Nat.add_assoc, member_setMembers _ _ _ (by omega), show (2 * n + 1) / 2 = n by omega, if_neg (by omega),
      indState_data (by omega)]
    exact member_halfWord _ 0
end

/-! ### Versions: a commit requested, made, and its sweep -/

theorem regRow_verCommit : regRow? CLS_VER_COMMIT.addr = some ⟨0x11, 0x11000000, 1, 0x108, 1, 8, 0x0, [⟨0, 1, .wo, 0, 1⟩]⟩ := by
  decide +kernel

theorem clsWrite_verCommit {v : Word} {o s : State} (hg : inField v CLS_VER_COMMIT_GO = 1) :
    clsWrite CLS_VER_COMMIT.addr v o s = s.put CLS_VER_PENDING true := by
  unfold clsWrite
  rw [if_neg (fun h => absurd h.1 (by decide)), if_neg (by decide), if_pos rfl]
  exact if_pos hg

/-- VERSION_COMMIT_REQUEST (R174). -/
theorem versionCommitRequest_completes {i : Initiator} {v : Word} {s : State}
    (hA : Accepted i CLS_VER_COMMIT.addr (withField v CLS_VER_COMMIT_GO 1) s) :
    ∃ t, exec (.versionCommitRequest i v) s = .next t ∧ t.bit CLS_VER_PENDING = true ∧ t.rd CLS_VER_CUR = s.rd CLS_VER_CUR := by
  have h : regAccess i CLS_VER_COMMIT.addr (withField v CLS_VER_COMMIT_GO 1) s = (hartActs i s).put CLS_VER_PENDING true := by
    rw [regAccess_cls hA regRow_verCommit (by decide) (by decide), regStore_none (by decide) (by decide) (by decide) (by decide),
      clsWrite_verCommit (inField_withField_same v 1 (by decide) (by decide))]
  refine ⟨_, congrArg Host.Outcome.next h, bit_put_same _ _ (by decide) rfl, ?_⟩
  rw [rd_put_other _ _ (by decide) (by decide) (by decide), hartActs_rd]

/-- An exchange of banks leaves a register without SH fields alone. -/
theorem reg_exchangeBanks {b a : Nat} {s : State} (hm : shMask a = 0) (hb : a ≠ b) : (exchangeBanks b s).reg a = s.reg a := by
  unfold exchangeBanks
  dsimp only
  refine (reg_setReg_ne _ _ hb).trans ?_
  generalize bankKeys s b = l
  suffices h : ∀ (t : State), (l.foldl (fun t x => if shMask x = 0 then t
      else (t.setReg x (mergeMask (shMask x) (s.reg x) (s.shReg x))).setSh x (mergeMask (shMask x) (s.shReg x) (s.reg x))) t).reg a = t.reg a from
    h s
  induction l with
  | nil => exact fun t => rfl
  | cons x l ih =>
    intro t
    rw [List.foldl_cons, ih]
    split
    · rfl
    · next hx => exact (reg_setReg_ne t _ (by rintro rfl; exact hx hm))

/-- The swap of CLS's bank leaves a register without SH fields alone. -/
theorem reg_swapBank_cls {a : Nat} {s : State} (hm : shMask a = 0) (hb : a ≠ CLS_BANK.addr) :
    (swapBank CLS_BANK.addr s).reg a = s.reg a := by
  unfold swapBank
  rw [if_neg (by decide)]
  exact (reg_setBank _ _ _ _).trans (reg_exchangeBanks hm hb)

theorem shMask_ver : shMask CLS_VER.addr = 0 := by decide +kernel
theorem shMask_cnt0 : shMask CLS_CNT0.addr = 0 := by decide +kernel

theorem startSweep_rd {q : RF} {s : State} (h : q.lo + q.w ≤ 64) (hq : q.addr ≠ CLS_VER.addr ∨ q.lo + q.w ≤ 33) :
    (startSweep s).rd q = s.rd q := by
  unfold startSweep
  dsimp only
  rw [rd_put_other _ _ (by decide) h (hq.imp id Or.inr)]
  split <;> rfl

/-- The part of a commit before its sweep. -/
def commitSwap (s : State) : State :=
  let s := (s.wr CLS_VER_CUR (s.rd CLS_VER_CUR + 1)).put CLS_VER_PENDING false
  if (s.bank CLS_BANK.addr).phase = .waiting ∧ (s.bank CLS_BANK.addr).kind = 4 then swapBank CLS_BANK.addr s else s

theorem versionCommit_eq (s : State) :
    versionCommit s = startSweep ((commitSwap s).wr CLS_VER_OLDEST (oldestOf (commitSwap s))) := rfl

theorem commitSwap_rd (q : RF) {s : State} (hm : shMask q.addr = 0) (hb : q.addr ≠ CLS_BANK.addr) :
    (commitSwap s).rd q = ((s.wr CLS_VER_CUR (s.rd CLS_VER_CUR + 1)).put CLS_VER_PENDING false).rd q := by
  unfold commitSwap
  dsimp only
  split
  · exact congrArg (fieldOf · q.lo q.w) (reg_swapBank_cls hm hb)
  · rfl

theorem versionCommit_cur (s : State) : (versionCommit s).rd CLS_VER_CUR = (s.rd CLS_VER_CUR + 1) % 65536 := by
  rw [versionCommit_eq, startSweep_rd (by decide) (by decide), rd_wr_other _ _ (by decide) (by decide) (by decide),
    commitSwap_rd CLS_VER_CUR shMask_ver (by decide), rd_put_other _ _ (by decide) (by decide) (by decide), rd_wr_same _ _ (by decide)]
  rfl

theorem versionCommit_pending (s : State) : (versionCommit s).bit CLS_VER_PENDING = false := by
  rw [bit_eq, versionCommit_eq, startSweep_rd (by decide) (by decide), rd_wr_other _ _ (by decide) (by decide) (by decide),
    commitSwap_rd CLS_VER_PENDING shMask_ver (by decide), rd_put_same _ _ (by decide) rfl]
  rfl

theorem startSweep_sweep (s : State) : (startSweep s).bit CLS_VER_SWEEP = true := bit_put_same _ _ (by decide) rfl

theorem startSweep_sweeping (s : State) : (startSweep s).cls.sweeping = true := by
  unfold startSweep
  split
  · assumption
  · rfl

/-- VERSION_COMMIT (R174). -/
theorem versionCommit_completes {s : State} (hup : isUp s = true) (hr : s.runs blkCLS = true) (hp : s.bit CLS_VER_PENDING = true)
    (hs : s.cls.sweeping = false) (hq : s.cls.sweepQueued = false) (h0 : s.rd (CLS_DRAIN_COUNT ((s.rd CLS_VER_CUR + 1) % 4)) = 0) :
    ∃ t, exec .versionCommit s = .next t ∧ t.rd CLS_VER_CUR = (s.rd CLS_VER_CUR + 1) % 65536 ∧ t.bit CLS_VER_PENDING = false ∧
      t.bit CLS_VER_SWEEP = true ∧ t.cls.sweeping = true := by
  have h : whenUp (fun s => commitNow s) s = versionCommit s := by
    unfold whenUp commitNow commitReady
    simp [hup, hr, hp, hs, hq, h0]
  exact ⟨_, congrArg Host.Outcome.next h, versionCommit_cur s, versionCommit_pending s, startSweep_sweep _, startSweep_sweeping _⟩

/-- SWEEP_DONE: a sweep ends, or the queued one begins (R175). -/
theorem sweepDone_completes {s : State} (hup : isUp s = true) (hr : s.runs blkCLS = true) (hs : s.cls.sweeping = true) :
    ∃ t, exec .sweepDone s = .next t ∧ t.cls.sweeping = s.cls.sweepQueued ∧ t.cls.sweepQueued = false ∧
      t.bit CLS_VER_SWEEP = s.cls.sweepQueued := by
  obtain ⟨rules, pos, hc⟩ := sweepUpTo_cls 32768 s
  have hq : (sweepUpTo 32768 s).cls.sweepQueued = s.cls.sweepQueued := by rw [hc]
  refine ⟨sweepEnds s, congrArg Host.Outcome.next (if_pos hup), ?_⟩
  unfold sweepEnds
  simp only [hs, hr, hq, Bool.not_true, Bool.or_self, Bool.false_eq_true, ↓reduceIte]
  exact ⟨rfl, rfl, bit_put_same _ _ (by decide) rfl⟩

/-! ### Slow-path queues (R180) -/

/-- The row of CLS_SPQ. -/
def rowSpq : RegRow :=
  ⟨0x11, 0x11000000, 1, 0x148, 8, 8, 0x0,
    [⟨63, 1, .rw, 0, 1⟩, ⟨32, 16, .rw, 0, 65535⟩, ⟨16, 13, .ro, 0, 8191⟩, ⟨0, 13, .rw, 0, 8191⟩]⟩

theorem spq_place : ∀ q : Fin 8, blkOf (CLS_SPQ q).addr = blkCLS ∧ CLS_BANK.addr ≠ (CLS_SPQ q).addr := by decide

theorem regRow_spq : ∀ q : Fin 8, regRow? (CLS_SPQ q).addr = some rowSpq := by decide +kernel

theorem clsWrite_spq {v : Word} {o s : State} (q : Fin 8)
    (hc : (o.rd (CLS_SPQ_PROD q) + 8192 - inField v (CLS_SPQ_CONS q)) % 8192 ≤ 4096) : clsWrite (CLS_SPQ q).addr v o s = s := by
  have ha : (CLS_SPQ q).addr = 0x11000148 + q % 4096 * 8 := rfl
  have hi : CLS_IND_CMD.addr = 0x11000020 := rfl
  have hm : (CLS_MIR 0).addr = 0x11000200 := rfl
  have hv : CLS_VER_COMMIT.addr = 0x11000108 := rfl
  have h0 : (CLS_SPQ 0).addr = 0x11000148 := rfl
  have h7 : (CLS_SPQ 7).addr = 0x11000180 := rfl
  have hq : ((CLS_SPQ q).addr - (CLS_SPQ 0).addr) / 8 = q := by omega
  unfold clsWrite
  rw [if_neg (by omega), if_neg (by omega), if_neg (by omega), if_pos (by omega), hq]
  exact if_pos (decide_eq_true hc)

/-- SPQ_CONSUME with a consumer index in range (R180). -/
theorem spqConsume_completes {i : Initiator} (q : Fin 8) {v : Word} {s : State} (hA : Accepted i (CLS_SPQ q).addr v s)
    (hc : (s.rd (CLS_SPQ_PROD q) + 8192 - inField v (CLS_SPQ_CONS q)) % 8192 ≤ 4096) :
    ∃ t, exec (.spqConsume i q v) s = .next t ∧ t.rd (CLS_SPQ_CONS q) = inField v (CLS_SPQ_CONS q) := by
  obtain ⟨hb, hn⟩ := spq_place q
  have h : regAccess i (CLS_SPQ q).addr v s = storedBy i (CLS_SPQ q).addr rowSpq v s := by
    rw [regAccess_clsPlain hA (regRow_spq q) (by decide) hb hn, clsWrite_spq q (by rwa [hartActs_rd])]
  exact ⟨_, congrArg Host.Outcome.next h, storedBy_rd_rw (CLS_SPQ_CONS q) rfl (regRow_spq q) (by simp [rowSpq, CLS_SPQ_CONS])⟩

/-! ### Idle slots and reinjections (R14, R158) -/

theorem enterPipe_pipe (p : PassPkt) (s : State) :
    (enterPipe p s).pipe (pipeOf p.dir p.src) =
      { s.pipe (pipeOf p.dir p.src) with
        input := (s.pipe (pipeOf p.dir p.src)).input ++ [{ p with ver := some (p.ver.getD (s.rd CLS_VER_CUR)) }] } := by
  unfold enterPipe
  dsimp only
  rw [pipe_setPipe]
  split <;> rfl

/-- IDLE_SLOT_ENTRY (R14). -/
theorem idleSlotEntry_completes (n : Pipe) {e : IdleClass × PassPkt} {s : State} (hup : isUp s = true) (hr : s.runs blkPRS = true)
    (hn : pipeOn s n = true) (he : idlePick (s.pipe n).idle = some e) (hp : pipeOf e.2.dir e.2.src = n) :
    ∃ t, exec (.idleSlotEntry n) s = .next t ∧ (t.pipe n).idle = (s.pipe n).idle.erase e ∧
      (t.pipe n).input = (s.pipe n).input ++ [{ e.2 with ver := some (e.2.ver.getD (s.rd CLS_VER_CUR)) }] := by
  have h : whenUp (fun s => idleSlot n s) s = enterPipe e.2 (s.setPipe n { s.pipe n with idle := (s.pipe n).idle.erase e }) := by
    unfold whenUp idleSlot
    simp only [hup, hr, hn, he, Bool.and_self, Bool.not_true, Bool.false_eq_true, ↓reduceIte]
  have hpipe := enterPipe_pipe e.2 (s.setPipe n { s.pipe n with idle := (s.pipe n).idle.erase e })
  rw [hp, pipe_setPipe, rd_setPipe] at hpipe
  refine ⟨_, congrArg Host.Outcome.next h, ?_, ?_⟩ <;> rw [hpipe]

theorem inCellar_below {a : Nat} (h : a < 0x002000000000) : inCellar a = false := by
  simp only [inCellar, Bool.and_eq_false_iff, decide_eq_false_iff_not]
  omega

theorem sram_below {a : Nat} (h : regionOf a = .sram) : a < 0x002000000000 := by
  unfold regionOf at h
  split at h
  · cases h
  split at h
  · omega
  split at h
  · omega
  split at h
  · cases h
  split at h <;> cases h

/-- Words below the Cellar are not checked as the device reads them. -/
theorem readChecks_below {l : List Nat} (hl : ∀ w ∈ l, 8 * w < 0x002000000000) (s : State) :
    l.foldl (fun s w => if inCellar (8 * w) && s.stackOk (stackOf (8 * w)) then (readChecked (8 * w) s).2.2 else s) s = s := by
  induction l with
  | nil => rfl
  | cons w l ih =>
    rw [List.foldl_cons, inCellar_below (hl w List.mem_cons_self)]
    exact ih (fun x hx => hl x (List.mem_cons_of_mem _ hx))

/-- The bytes of core SRAM or L2, read one after the other, and the last one first. -/
theorem devBytes_fold {a n : Nat} {s : State} (h : ∀ i < n, regionOf (a + i) = .sram) :
    (List.range n).foldl (fun (x : Bytes × State) i =>
      let d := devByteAt (a + i) x.2
      (d.1 :: x.1, d.2)) ([], s) = (((List.range n).map (fun i => s.memByte (a + i))).reverse, s) := by
  induction n with
  | zero => rfl
  | succ n ih =>
    have hd : devByteAt (a + n) s = (s.memByte (a + n), s) := by
      unfold devByteAt
      rw [h n (Nat.lt_succ_self n)]
    rw [List.range_succ, List.foldl_append, ih (fun i hi => h i (by omega)), List.map_append, List.reverse_append]
    simp only [List.foldl_cons, List.foldl_nil, hd]
    rfl

/-- Bytes that the device reads from core SRAM or L2 are what memory holds, and reading them changes nothing. -/
theorem devBytes_sram {a n : Nat} {s : State} (h : ∀ i ≤ n, regionOf (a + i) = .sram) :
    (devBytes a n s).1 = (List.range n).map (fun i => s.memByte (a + i)) ∧ (devBytes a n s).2.2 = s := by
  have ha : a < 0x002000000000 := sram_below (h 0 (Nat.zero_le _))
  have hn : a + n < 0x002000000000 := sram_below (h n (le_refl _))
  unfold devBytes
  dsimp only
  rw [readChecks_below _ s, inCellar_below ha, Bool.false_and, if_neg Bool.false_ne_true, devBytes_fold (fun i hi => h i hi.le)]
  · exact ⟨List.reverse_reverse _, rfl⟩
  · intro w hw
    rcases List.mem_cons.1 hw with rfl | hw
    · omega
    · have := (List.mem_filter.1 hw).2
      simp at this
      omega

/-- An idle-slot port with room takes the packet offered. -/
theorem offerIdle_room {c : IdleClass} {p : PassPkt} {s : State} (h : (s.pipe (pipeOf p.dir p.src)).idle.length < 512) :
    offerIdle c p s = (s.setPipe (pipeOf p.dir p.src)
      { s.pipe (pipeOf p.dir p.src) with idle := (s.pipe (pipeOf p.dir p.src)).idle ++ [(c, p)] }, true) :=
  if_pos h

/-- The packet that CLS_RI_CMD describes, its bytes being given (R158). -/
def riPacket (s : State) (bytes : Bytes) (poisoned : Bool) : PassPkt :=
  { bytes := withFcs bytes, dir := s.rd CLS_RI_CMD_DIR, src := s.rd CLS_RI_CMD_SRC,
    sid := if s.rd CLS_RI_CMD_DIR = 1 && !s.bit CLS_RI_CMD_MODE then 0 else s.rd CLS_RI_CMD_SID,
    ingress := s.tod.cut, origin := s.bit CLS_RI_CMD_MODE, poisoned := poisoned,
    toLeaf := if s.bit CLS_RI_CMD_MODE then some (s.rd CLS_RI_CMD_QUEUE) else none }

theorem reinjectOffer_eq {s : State} (hr : s.runs blkPRS = true) (hg : s.bit CLS_RI_CMD_GO = true)
    (hn : pipeOn s (pipeOf (s.rd CLS_RI_CMD_DIR) (s.rd CLS_RI_CMD_SRC)) = true) :
    reinjectOffer s =
      let u := s.put CLS_RI_CMD_GO false
      let r := devBytes (s.rd CLS_RI_ADDR_ADDR) (s.rd CLS_RI_CMD_LEN) u
      let o := offerIdle .slow (riPacket s r.1 r.2.1) r.2.2
      if o.2 then o.1 else o.1.put CLS_RI_CMD_DROP true := by
  have hrd : ∀ q : RF, q.lo + q.w ≤ 63 → (s.put CLS_RI_CMD_GO false).rd q = s.rd q :=
    fun q h => rd_put_other s false (by decide) (by omega) (Or.inr (Or.inr h))
  have hm : (s.put CLS_RI_CMD_GO false).bit CLS_RI_CMD_MODE = s.bit CLS_RI_CMD_MODE := by
    rw [bit_eq, hrd _ (by decide), bit_eq]
  have hn' : pipeOn (s.put CLS_RI_CMD_GO false) (pipeOf (s.rd CLS_RI_CMD_DIR) (s.rd CLS_RI_CMD_SRC)) = true := hn
  unfold reinjectOffer
  simp only [hg, hr, hn', hm, hrd CLS_RI_CMD_SID (by decide), hrd CLS_RI_CMD_LEN (by decide), hrd CLS_RI_ADDR_ADDR (by decide),
    hrd CLS_RI_CMD_QUEUE (by decide), Bool.not_true, Bool.or_self, Bool.false_eq_true, ↓reduceIte]
  rfl

/-- REINJECT_OFFERED, its bytes in core SRAM or L2 (R158). -/
theorem reinjectOffered_completes {s : State} (hup : isUp s = true) (hr : s.runs blkPRS = true) (hg : s.bit CLS_RI_CMD_GO = true)
    (hn : pipeOn s (pipeOf (s.rd CLS_RI_CMD_DIR) (s.rd CLS_RI_CMD_SRC)) = true)
    (hl : (s.pipe (pipeOf (s.rd CLS_RI_CMD_DIR) (s.rd CLS_RI_CMD_SRC))).idle.length < 512)
    (hm : ∀ n ≤ s.rd CLS_RI_CMD_LEN, regionOf (s.rd CLS_RI_ADDR_ADDR + n) = .sram) :
    ∃ t p, exec .reinjectOffered s = .next t ∧ t.bit CLS_RI_CMD_GO = false ∧
      (t.pipe (pipeOf (s.rd CLS_RI_CMD_DIR) (s.rd CLS_RI_CMD_SRC))).idle =
        (s.pipe (pipeOf (s.rd CLS_RI_CMD_DIR) (s.rd CLS_RI_CMD_SRC))).idle ++ [(.slow, p)] ∧
      p.bytes = withFcs ((List.range (s.rd CLS_RI_CMD_LEN)).map (fun n => s.memByte (s.rd CLS_RI_ADDR_ADDR + n))) ∧
      p.toLeaf = (if s.bit CLS_RI_CMD_MODE then some (s.rd CLS_RI_CMD_QUEUE) else none) := by
  obtain ⟨hbytes, hstate⟩ := devBytes_sram (s := s.put CLS_RI_CMD_GO false) hm
  have h := reinjectOffer_eq hr hg hn
  dsimp only at h
  rw [hbytes, hstate, offerIdle_room (p := riPacket s _ _) (s := s.put CLS_RI_CMD_GO false) hl] at h
  generalize (devBytes (s.rd CLS_RI_ADDR_ADDR) (s.rd CLS_RI_CMD_LEN) (s.put CLS_RI_CMD_GO false)).2.1 = bad at h
  refine ⟨_, riPacket s ((List.range (s.rd CLS_RI_CMD_LEN)).map (fun n => s.memByte (s.rd CLS_RI_ADDR_ADDR + n))) bad,
    congrArg Host.Outcome.next ((if_pos hup).trans h), bit_put_same s false (by decide) rfl, ?_, rfl, rfl⟩
  exact congrArg Pipeline.idle (pipe_setPipe _ _ _)

/-! ### What a pass keeps: the arrivals of a pipeline and its count of passes -/

/-- A pipeline's arrivals and the register of its passes are as they were. -/
def PassesKept (i : Nat) (o s : State) : Prop :=
  (s.pipe i).input = (o.pipe i).input ∧ s.reg (PRS_CNT0 i).addr = o.reg (PRS_CNT0 i).addr

/-- The parts that the effects of a pass may change beside the pipelines. -/
def effParts : List Part := [.regs, .shadow, .mem, .ecc, .free, .cfg, .flt, .cel, .sch, .gcl, .cls, .flw, .cas]

/-- The blocks whose registers they may write beside PRS. -/
def effBlocks : List Nat := [blkFLT, blkCLS, blkFLW, blkCEL, blkSCH, blkGCL, blkCAS]

/-- An effect that counts in no register of passes; what it forwards is no speculative packet. -/
def Eff.apart (i : Nat) : Eff → Prop
  | .cnt a _ _ => a ≠ (PRS_CNT0 i).addr
  | .cascade _ _ _ _ p => p.spec = none
  | _ => True

theorem blkOf_passes (i : Nat) : blkOf (PRS_CNT0 i).addr = 16 := by
  show (0x10000020 + i % 256 * 0x10000) / 0x1000000 = 16
  omega

/-- A register beyond PRS is none of passes. -/
theorem apart_of_ge (i : Nat) {a : Nat} (h : 0x11000000 ≤ a) : a ≠ (PRS_CNT0 i).addr := by
  have e : (PRS_CNT0 i).addr = 0x10000020 + i % 256 * 0x10000 := rfl
  omega

theorem apart_ispCnt (i j : Nat) : (PRS_ISP_CNT j).addr ≠ (PRS_CNT0 i).addr := by
  have e : (PRS_CNT0 i).addr = 0x10000020 + i % 256 * 0x10000 := rfl
  have e' : (PRS_ISP_CNT j).addr = 0x10000030 + j % 256 * 0x10000 := rfl
  omega

/-- Both are kept by what reaches neither the pipelines nor PRS. -/
theorem PassesKept.of_kept {i : Nat} {o s t : State} (h : PassesKept i o s) (hk : Kept false effParts effBlocks s t) : PassesKept i o t := by
  obtain ⟨h1, h2⟩ := h
  have hp : t.pipes = s.pipes := hk.frame .pipes (by decide)
  have hb : blkOf (PRS_CNT0 i).addr = 16 := blkOf_passes i
  refine ⟨?_, (hk.regFrame _ (by rw [hb]; decide)).trans h2⟩
  unfold State.pipe at h1 ⊢
  rw [hp, h1]

theorem PassesKept.refl (i : Nat) (s : State) : PassesKept i s s := ⟨rfl, rfl⟩

theorem PassesKept.inc {i : Nat} {o s : State} (h : PassesKept i o s) {r : RF} (hr : r.addr ≠ (PRS_CNT0 i).addr) :
    PassesKept i o (s.inc r) :=
  ⟨h.1, (reg_setReg_ne s _ hr.symm).trans h.2⟩

/-! #### Placing a packet in a leaf -/

theorem leafTouch_pipes (key : Nat) (s : State) : (leafTouch key s).pipes = s.pipes := by
  have h : Kept false [Part.sch] ([] : List Nat) s (leafTouch key s) := kept_leafTouch Kept.rfl_frame (by decide)
  exact h.frame .pipes (by decide)

theorem admitCells_pipes {key n : Nat} {p : QPkt} (hp : p.spec = none) (s : State) : (admitCells key n p s).1.pipes = s.pipes := by
  unfold admitCells countFor
  simp only [hp]
  split
  · rfl
  · rfl
  · rfl
  · exact (apply_ite State.pipes _ _ _).trans (ite_self s.pipes)

theorem enqueue_pipes {key n : Nat} {p : QPkt} (hp : p.spec = none) (s : State) : (enqueue key n p s).1.pipes = s.pipes := by
  unfold enqueue countFor
  simp only [hp]
  split
  · exact (leafTouch_pipes _ _).trans (admitCells_pipes hp s)
  · rfl

/-- Placing a packet that is not speculative reaches no pipeline. -/
theorem PassesKept.placeLeaf {i : Nat} {o s : State} (h : PassesKept i o s) (dir leaf sid n : Nat) {p : QPkt} (hp : p.spec = none) :
    PassesKept i o (placeLeaf dir leaf sid n p s).1 := by
  have hpipes : (Machine.placeLeaf dir leaf sid n p s).1.pipes = s.pipes := by
    unfold Machine.placeLeaf
    dsimp only
    split
    · exact enqueue_pipes hp s
    · split
      · next x _ => exact enqueue_pipes (p := { p with sctx := x }) hp s
      · rfl
  have hk : Kept false (Part.pipes :: effParts) effBlocks s (Machine.placeLeaf dir leaf sid n p s).1 :=
    kept_placeLeaf Kept.rfl_frame (by decide) (by decide) (by decide) (by decide) (by decide) (by decide)
  obtain ⟨h1, h2⟩ := h
  have hb : blkOf (PRS_CNT0 i).addr = 16 := blkOf_passes i
  refine ⟨?_, (hk.regFrame _ (by rw [hb]; decide)).trans h2⟩
  unfold State.pipe at h1 ⊢
  rw [hpipes, h1]

/-- What placing a packet may count (R170). -/
theorem placeLeaf_effect (dir leaf sid n : Nat) (p : QPkt) (s : State) :
    (placeLeaf dir leaf sid n p s).2 = none ∨ (placeLeaf dir leaf sid n p s).2 = some (effCnt CLS_CNT1_QMIS) := by
  unfold placeLeaf
  dsimp only
  split
  · exact Or.inl rfl
  · split
    · exact Or.inl rfl
    · exact Or.inr rfl

/-- A packet on its way to the cascade, or placed locally, reaches no pipeline (R378). -/
theorem PassesKept.casForward {i : Nat} {o s : State} (h : PassesKept i o s) (dir leaf sid h2 : Nat) {p : QPkt} (hp : p.spec = none) :
    PassesKept i o (casForward dir leaf sid h2 p s) := by
  unfold Machine.casForward
  split
  · exact h.of_kept (kept_fltSourceEvent Kept.rfl_frame (by decide) (by decide) (by decide) (by decide))
  split
  · exact h.inc (apart_of_ge i (by decide))
  · next x _ =>
    split
    · have hl := h.placeLeaf dir x.rleaf x.rsid (cellCount p.start p.bytes.length p.headCell) hp
      dsimp only
      rcases placeLeaf_effect dir x.rleaf x.rsid (cellCount p.start p.bytes.length p.headCell) p s with e | e
      · rw [e]; exact hl
      · rw [e]; exact hl.inc (apart_of_ge i (by decide))
    · dsimp only
      split
      · exact h.inc (apart_of_ge i (by decide))
      · exact h.of_kept (kept_casQueue Kept.rfl_frame (by decide))

theorem PassesKept.slowNow {i : Nat} {o s : State} (h : PassesKept i o s) (x : SlowEntry) : PassesKept i o (slowNow x s) :=
  h.of_kept (kept_slowNow Kept.rfl_frame (by decide) (by decide) (by decide) (by decide) (by decide) (by decide) (by decide))

/-- An effect that counts no pass changes neither the arrivals nor the passes of a pipeline. -/
theorem PassesKept.applyEff {i : Nat} {o s : State} (h : PassesKept i o s) {e : Eff} (he : e.apart i) : PassesKept i o (applyEff e s) := by
  cases e with
  | cnt a lo w => exact h.inc (r := ⟨a, lo, w⟩) he
  | flow cid len =>
    exact h.of_kept (kept_countFlow Kept.rfl_frame (by decide) (by decide) (by decide) (by decide) (by decide) (by decide) (by decide))
  | hit c tick hi flags =>
    unfold Machine.applyEff
    dsimp only
    split
    · exact h.of_kept (kept_st_setFlowAt Kept.rfl_frame (by decide))
    · exact h
  | learn r x =>
    exact h.of_kept (kept_learnNow Kept.rfl_frame (by decide) (by decide) (by decide) (by decide) (by decide) (by decide) (by decide)
      (by decide) (by decide))
  | debit n c q red => exact h.of_kept (kept_debitPolicer Kept.rfl_frame (by decide))
  | slow x => exact h.of_kept (kept_slowWrite Kept.rfl_frame (by decide) (by decide) (by decide) (by decide) (by decide) (by decide))
  | cascade dir leaf sid h2 p => exact h.casForward dir leaf sid h2 he
  | drain v =>
    exact h.of_kept (kept_drainFall Kept.rfl_frame (by decide) (by decide) (by decide) (by decide) (by decide) (by decide) (by decide))

theorem PassesKept.emitAll {i : Nat} {o s : State} (h : PassesKept i o s) {l : List Eff} (hl : ∀ e ∈ l, e.apart i) :
    PassesKept i o (emitAll none l s) := by
  unfold Machine.emitAll
  induction l generalizing s with
  | nil => exact h
  | cons e l ih => exact ih (h.applyEff (hl e List.mem_cons_self)) (fun x hx => hl x (List.mem_cons_of_mem _ hx))

/-- A function of the state that keeps both, repeated. -/
theorem PassesKept.foldl {α : Type} {i : Nat} {o s : State} {f : State → α → State} (hf : ∀ s x, PassesKept i o s → PassesKept i o (f s x))
    (l : List α) (h : PassesKept i o s) : PassesKept i o (l.foldl f s) := by
  induction l generalizing s with
  | nil => exact h
  | cons x l ih => exact ih (hf s x h)

section
variable {i : Nat} {o s : State} {p : PassPkt}

theorem apart_placed (dir leaf sid n : Nat) (q : QPkt) (s : State) : ∀ e ∈ (placeLeaf dir leaf sid n q s).2.toList, e.apart i := by
  intro e he
  rcases placeLeaf_effect dir leaf sid n q s with h | h
  · rw [h] at he; nomatch he
  · rw [h] at he
    obtain rfl : e = effCnt CLS_CNT1_QMIS := by simpa using he
    exact apart_of_ge i (by decide)

theorem PassesKept.bumpId (h : PassesKept i o s) : PassesKept i o (bumpId s) := h.of_kept (kept_bumpId Kept.rfl_frame (by decide))

theorem PassesKept.runMirrors (h : PassesKept i o s) (hp : p.spec = none) (bytes : Bytes) (l : List Word) :
    PassesKept i o (runMirrors p bytes l s) := by
  unfold Machine.runMirrors
  refine PassesKept.foldl (fun s w h => ?_) _ h
  dsimp only
  split
  · rw [hp]
    exact (h.bumpId.placeLeaf _ _ _ _ hp).emitAll (apart_placed _ _ _ _ _ _)
  · exact h

theorem PassesKept.trackFlow (h : PassesKept i o s) (hp : p.spec = none) (r : Parsed) (h1 h2 : Nat) (x : SlowEntry) (l : List Word) :
    PassesKept i o (trackFlow p r h1 h2 x l s).2 := by
  unfold Machine.trackFlow
  rw [hp]
  split
  · exact h
  dsimp only
  split
  · exact h.emitAll (by simp [Eff.apart])
  · have hm : PassesKept i o (emit none (effCnt FLW_CNT0_MISS) s) := h.applyEff (apart_of_ge i (by decide))
    split
    · exact hm.applyEff trivial
    · exact hm

theorem PassesKept.runPolice (h : PassesKept i o s) (len : Nat) (l : List Word) : PassesKept i o (runPolice none len l s).2 := by
  have key : ∀ (l : List Word) (a : Colour × Bool × State), PassesKept i o a.2.2 → PassesKept i o (l.foldl (policeWord none len) a).2.2 := by
    intro l
    induction l with
    | nil => exact fun _ h => h
    | cons w l ih => exact fun a h => ih _ (h.applyEff trivial)
  exact key _ _ h

/-- Forwarding a packet that is not speculative keeps both, and its effect counts no pass. -/
theorem PassesKept.forwardLeaf (h : PassesKept i o s) {q : QPkt} (hq : q.spec = none) (dir leaf sid h2 n : Nat) :
    PassesKept i o (forwardLeaf dir leaf sid h2 n q s).1 ∧ ∀ e ∈ (Machine.forwardLeaf dir leaf sid h2 n q s).2.toList, e.apart i := by
  unfold Machine.forwardLeaf
  split
  · split
    · refine ⟨h, fun e he => ?_⟩
      obtain rfl : e = .cnt CLS_CNT1_QMIS.addr CLS_CNT1_QMIS.lo CLS_CNT1_QMIS.w := by simpa using he
      exact apart_of_ge i (by decide)
    · refine ⟨h, fun e he => ?_⟩
      obtain rfl : e = .cascade dir leaf sid h2 { q with spec := none } := by simpa using he
      rfl
  · exact ⟨h.placeLeaf _ _ _ _ hq, apart_placed _ _ _ _ _ _⟩

theorem PassesKept.passForward (h : PassesKept i o s) (hp : p.spec = none) (h1 h2 : Nat) (ed : Edit) (l : List Word) :
    PassesKept i o (passForward p h1 h2 ed l s) := by
  unfold Machine.passForward
  rw [hp]
  split
  · exact h.applyEff (apart_of_ge i (by decide))
  dsimp only
  generalize (if p.dir = 0 then (some 0, false) else chosenStream s h1 l p.sid) = c
  split
  · exact h.applyEff (apart_of_ge i (by decide))
  split
  · exact h.applyEff (apart_of_ge i (by decide))
  · obtain ⟨hk, he⟩ := h.bumpId.forwardLeaf (q := { toQPkt s p ed.bytes with start := ed.start % 128, headCell := ed.head }) hp _ _ _ _ _
    exact hk.emitAll he

theorem PassesKept.passFinish (h : PassesKept i o s) (hp : p.spec = none) (j : Nat) (r : Parsed) (rule h1 h2 : Nat) (ed : Edit)
    (l : List Word) : PassesKept i o (passFinish j p r rule h1 h2 ed l s) := by
  unfold Machine.passFinish
  simp only [hp]
  have hpol := h.runPolice ed.bytes.length l
  generalize Machine.runPolice none ed.bytes.length l s = pol at hpol
  have hrec : PassesKept i o (if p.second && l.any (fun w => opOf w == 0x08) then emit none (effCnt (PRS_ISP_CNT_RECIRC2 j)) pol.2 else pol.2) := by
    split
    · exact hpol.applyEff (apart_ispCnt i j)
    · exact hpol
  generalize (if p.second && l.any (fun w => opOf w == 0x08) then emit none (effCnt (PRS_ISP_CNT_RECIRC2 j)) pol.2 else pol.2) = u at hrec
  split
  · exact hrec
  split
  · exact hrec.slowNow _
  split
  · exact hrec.slowNow _
  · exact hrec.passForward hp h1 h2 ed l

/-- An offer to an idle-slot port adds to no arrivals; what it counts is no pass (R14). -/
theorem PassesKept.offerIdle (h : PassesKept i o s) (c : IdleClass) (hp : p.spec = none) : PassesKept i o (offerIdle c p s).1 := by
  unfold Machine.offerIdle
  dsimp only
  split
  · refine ⟨?_, h.2⟩
    by_cases hi : i = pipeOf p.dir p.src
    · subst hi
      rw [pipe_setPipe]
      exact h.1
    · rw [pipe_setPipe_ne _ _ hi]
      exact h.1
  · unfold countFor
    rw [hp]
    exact h.inc (apart_ispCnt i _)

theorem recircNext_spec (p : PassPkt) (r : Parsed) (ed : Edit) (l : List Word) : (recircNext p r ed l).1.spec = p.spec := by
  unfold recircNext
  dsimp only
  split
  · split <;> rfl
  · rfl

theorem PassesKept.passList (h : PassesKept i o s) (hp : p.spec = none) (j : Nat) (r : Parsed) (rule h1 h2 : Nat) (l : List Word) :
    PassesKept i o (passList j p r rule h1 h2 l s) := by
  unfold Machine.passList
  simp only [hp]
  have hcnt := h.emitAll (l := (l.filter (fun w => opOf w == 0x06)).map (fun w => Eff.flow (csetBase + fieldOf w 0 16) p.bytes.length))
    (fun e he => by obtain ⟨w, -, rfl⟩ := List.mem_map.1 he; trivial)
  have hmiss := (hcnt.runMirrors hp p.bytes l).emitAll
    (l := List.replicate (runEdits r.bytes r.stack p.start p.headCell l).miss (effCnt CLS_CNT1_EDIT_MISS))
    (fun e he => by rw [List.eq_of_mem_replicate he]; exact apart_of_ge i (by decide))
  have hslow := hmiss.foldl (f := fun s w => slowSend none (slowEntry p r 4 (fieldOf w 0 3) rule h1 h2) s)
    (fun s w h => h.slowNow _) (l.filter (fun w => opOf w == 0x10 && fieldOf w 8 1 == 1))
  revert hslow
  generalize List.foldl _ _ (l.filter (fun w => opOf w == 0x10 && fieldOf w 8 1 == 1)) = u
  generalize runEdits r.bytes r.stack p.start p.headCell l = ed
  intro hslow
  split
  · refine hslow.emitAll (fun e he => ?_)
    rcases List.mem_cons.1 he with rfl | he
    · exact apart_of_ge i (by decide)
    · obtain rfl := List.mem_singleton.1 he
      trivial
  split
  · have hstrip : PassesKept i o (if (recircNext p r ed l).2 then emit none (effCnt CLS_CNT1_EDIT_MISS) u else u) := by
      split
      · exact hslow.applyEff (apart_of_ge i (by decide))
      · exact hslow
    revert hstrip
    generalize (if (recircNext p r ed l).2 then emit none (effCnt CLS_CNT1_EDIT_MISS) u else u) = x
    intro hstrip
    have ho := hstrip.offerIdle .recirc ((recircNext_spec p r ed l).trans hp)
    split
    · exact ho
    · exact ho.applyEff trivial
  · exact (hslow.passFinish hp j r rule h1 h2 ed l).applyEff trivial

theorem PassesKept.passActions (h : PassesKept i o s) (hp : p.spec = none) (j : Nat) (r : Parsed) : PassesKept i o (passActions j p r s) := by
  unfold Machine.passActions
  simp only [hp]
  split
  · refine h.emitAll (fun e he => ?_)
    rcases List.mem_cons.1 he with rfl | he
    · exact apart_of_ge i (by decide)
    · obtain rfl := List.mem_singleton.1 he
      trivial
  · have hh : PassesKept i o (emit none (effCnt CLS_CNT0_HIT) s) := h.applyEff (apart_of_ge i (by decide))
    split
    · exact hh.applyEff trivial
    · exact (hh.trackFlow hp _ _ _ _ _).passList hp _ _ _ _ _ _
end

/-! ### PACKET_PASS -/

/-- What a pass of an ordinary packet counts first: the pass itself, and its header stack too deep or trimmed (R155). -/
def passCounts (i : Nat) (r : Parsed) (s : State) : State :=
  emitAll none (effCnt (PRS_CNT0_PASSES i) :: (if r.deep then [effCnt (PRS_CNT0_DEEP i)] else [])
    ++ (if r.trim then [effCnt (PRS_CNT1_TRIM i)] else [])) s

section
variable {i : Nat} {r : Parsed} {s : State}

theorem passCounts_cls : (passCounts i r s).cls = s.cls := by
  unfold passCounts
  cases r.deep <;> cases r.trim <;> rfl

theorem passCounts_pipes : (passCounts i r s).pipes = s.pipes := by
  unfold passCounts
  cases r.deep <;> cases r.trim <;> rfl

theorem passCounts_eq : passCounts i r s =
    (if r.trim then fun t : State => t.inc (PRS_CNT1_TRIM i) else id)
      ((if r.deep then fun t : State => t.inc (PRS_CNT0_DEEP i) else id) (s.inc (PRS_CNT0_PASSES i))) := by
  unfold passCounts
  cases r.deep <;> cases r.trim <;> rfl

/-- Only the two registers of counts change. -/
theorem passCounts_rd {q : RF} (h0 : q.addr ≠ (PRS_CNT0 i).addr) (h1 : q.addr ≠ (PRS_CNT1 i).addr) :
    (passCounts i r s).rd q = s.rd q := by
  rw [passCounts_eq]
  have ht : ∀ t : State, (t.inc (PRS_CNT1_TRIM i)).rd q = t.rd q := fun t => rd_wr_ne _ _ h1
  have hd : ∀ t : State, (t.inc (PRS_CNT0_DEEP i)).rd q = t.rd q := fun t => rd_wr_ne _ _ h0
  have hp : (s.inc (PRS_CNT0_PASSES i)).rd q = s.rd q := rd_wr_ne _ _ h0
  split <;> split <;> simp only [id_eq, ht, hd, hp]

/-- The pass is counted. -/
theorem passCounts_passes :
    (passCounts i r s).rd (PRS_CNT0_PASSES i) = satAdd (PRS_CNT0_PASSES i).w (s.rd (PRS_CNT0_PASSES i)) 1 := by
  rw [passCounts_eq]
  have ht : ∀ t : State, (t.inc (PRS_CNT1_TRIM i)).rd (PRS_CNT0_PASSES i) = t.rd (PRS_CNT0_PASSES i) := fun t =>
    rd_wr_ne _ _ (by show 0x10000020 + i % 256 * 0x10000 ≠ 0x10000028 + i % 256 * 0x10000; omega)
  have hd : ∀ t : State, (t.inc (PRS_CNT0_DEEP i)).rd (PRS_CNT0_PASSES i) = t.rd (PRS_CNT0_PASSES i) := fun t =>
    rd_wr_disj _ _ rfl (show 0 + 32 ≤ 64 by decide) (show 32 + 32 ≤ 64 by decide) (Or.inl (le_refl 32))
  have hp : (s.inc (PRS_CNT0_PASSES i)).rd (PRS_CNT0_PASSES i) = satAdd (PRS_CNT0_PASSES i).w (s.rd (PRS_CNT0_PASSES i)) 1 :=
    rd_inc_same _ (le_refl 64)
  split <;> split <;> simp only [id_eq, ht, hd, hp]
end

section
variable {i : Nat} {p : PassPkt} {s : State}

theorem srcCfg_apart (i n : Nat) : (PRS_SRC_CFG n).addr ≠ (PRS_CNT0 i).addr ∧ (PRS_SRC_CFG n).addr ≠ (PRS_CNT1 i).addr := by
  have e : (PRS_CNT0 i).addr = 0x10000020 + i % 256 * 0x10000 := rfl
  have e1 : (PRS_CNT1 i).addr = 0x10000028 + i % 256 * 0x10000 := rfl
  have e' : (PRS_SRC_CFG n).addr = 0x10101000 + n % 4096 * 8 := rfl
  omega

/-- The other counters of the pipelines are none of passes. -/
theorem apart_prs (i j : Nat) : (PRS_CNT1 j).addr ≠ (PRS_CNT0 i).addr ∧ ∀ n, (PRS_MALF j n).addr ≠ (PRS_CNT0 i).addr := by
  have e : (PRS_CNT0 i).addr = 0x10000020 + i % 256 * 0x10000 := rfl
  have e1 : (PRS_CNT1 j).addr = 0x10000028 + j % 256 * 0x10000 := rfl
  refine ⟨by omega, fun n => ?_⟩
  have e2 : (PRS_MALF j n).addr = 0x10000040 + j % 256 * 0x10000 + n % 4096 * 8 := rfl
  omega

/-- Counting first does not change where the pass goes on. -/
theorem passCounts_looksUp (r r' : Parsed) : passLooksUp (passCounts i r s) p r' = passLooksUp s p r' := by
  unfold passLooksUp
  rw [passCounts_rd (q := PRS_SRC_CFG_DEEP_POL _) (srcCfg_apart i _).1 (srcCfg_apart i _).2]

theorem passRule_congr {s t : State} (h : s.cls = t.cls) (p : PassPkt) (r : Parsed) : passRule s p r = passRule t p r := by
  unfold passRule ruleMatch
  rw [h]

/-- A pass that is sent to the slow path for what the parser found, and its classification final (R156). -/
def passSend (p : PassPkt) (r : Parsed) (h1 h2 reason : Nat) (u : State) : State :=
  emit none (.drain (p.ver.getD 0)) (slowSend none (slowEntry p r reason (spMap u reason) 0 h1 h2) u)

/-- What an ordinary packet's pass comes to after it is counted (R155). -/
def passOutcome (i : Nat) (p : PassPkt) (r : Parsed) (malfPol h1 h2 : Nat) (u : State) : State :=
  if r.malf ≠ 0 then
    if malfPol == 1 || (malfPol == 3 && r.malf != 11) then passSend p r h1 h2 1 u
    else emitAll none [effCnt (PRS_MALF_COUNT i (r.malf - 1)), .drain (p.ver.getD 0)] u
  else if r.frag then passSend p r h1 h2 2 (emit none (effCnt (PRS_CNT1_FRAG i)) u)
  else if r.deep && u.rd (PRS_SRC_CFG_DEEP_POL (srcCfg p.dir p.src)) == 1 then passSend p r h1 h2 3 u
  else passActions i p r u

theorem runPass_eq (hp : p.spec = none) (hl : p.toLeaf = none) :
    let r := parse (parseCfg s p) p.bytes p.hid
    runPass i p s =
      passOutcome i p r (parseCfg s p).malfPol (hash1 (hashSeed s) r.tuple.1) (hash2 (hashSeed s) r.tuple.1) (passCounts i r s) := by
  unfold runPass
  simp only [hl, hp]
  rfl

theorem passOutcome_looksUp {r : Parsed} {malfPol h1 h2 : Nat} {u : State} (h : passLooksUp u p r = true) :
    passOutcome i p r malfPol h1 h2 u = passActions i p r u := by
  simp only [passLooksUp, Bool.and_eq_true, beq_iff_eq, Bool.not_eq_true'] at h
  obtain ⟨⟨hm, hf⟩, hd⟩ := h
  unfold passOutcome
  rw [if_neg (not_not.2 hm), hf, hd]
  rfl

theorem PassesKept.passOutcome {o u : State} (h : PassesKept i o u) (hp : p.spec = none) (r : Parsed) (malfPol h1 h2 : Nat) :
    PassesKept i o (passOutcome i p r malfPol h1 h2 u) := by
  have hsend : ∀ {u : State} (reason : Nat), PassesKept i o u → PassesKept i o (passSend p r h1 h2 reason u) :=
    fun _ h => (h.slowNow _).applyEff trivial
  unfold Machine.passOutcome
  split
  · split
    · exact hsend 1 h
    · refine h.emitAll (fun e he => ?_)
      rcases List.mem_cons.1 he with rfl | he
      · exact (apart_prs i i).2 _
      · obtain rfl := List.mem_singleton.1 he
        trivial
  split
  · exact hsend 2 (h.applyEff (apart_prs i i).1)
  split
  · exact hsend 3 h
  · exact h.passActions hp i r

/-- A checker that finds nothing to do gives a packet back as it was (R20 to R22). -/
theorem passCheck_idle {c : Checks} (hf : c.flips = []) (hi : injArmed blkPRS c.idx.toNat s = false) : passCheck i c p s = (p, s) := by
  unfold passCheck checkPacket
  simp [hf, hi]

theorem packetPass_eq {c : Checks} {q : List PassPkt} (hP : s.runs blkPRS = true) (hC : s.runs blkCLS = true) (hF : s.runs blkFLW = true)
    (hcel : celAccepts s = true) (hn : pipeOn s i = true) (hin : (s.pipe i).input = p :: q) (hf : c.flips = [])
    (hi : injArmed blkPRS c.idx.toNat s = false) : packetPass i c s = runPass i p (s.setPipe i { s.pipe i with input := q }) := by
  have hi' : injArmed blkPRS c.idx.toNat (s.setPipe i { s.pipe i with input := q }) = false := hi
  unfold packetPass
  simp only [hP, hC, hF, hcel, hn, hin, passCheck_idle hf hi', Bool.and_self, Bool.not_true, Bool.false_eq_true, ↓reduceIte, Bool.and_false,
    Bool.false_and, Bool.or_self]

theorem versionCommit_miss (s : State) : (versionCommit s).rd CLS_CNT0_MISS = s.rd CLS_CNT0_MISS := by
  rw [versionCommit_eq, startSweep_rd (by decide) (by decide), rd_wr_other _ _ (by decide) (by decide) (by decide),
    commitSwap_rd CLS_CNT0_MISS shMask_cnt0 (by decide), rd_put_other _ _ (by decide) (by decide) (by decide),
    rd_wr_other _ _ (by decide) (by decide) (by decide)]

/-- The fall of a drain counter, with what it sets off, counts no miss. -/
theorem drainFall_miss (v : Nat) (s : State) : (drainFall v s).rd CLS_CNT0_MISS = s.rd CLS_CNT0_MISS := by
  have hne : CLS_CNT0_MISS.addr ≠ (CLS_DRAIN_COUNT (v % 4)).addr := by
    show 0x11000198 ≠ 0x11000110 + v % 4 % 4096 * 8
    omega
  have hw : ∀ n, (s.wr (CLS_DRAIN_COUNT (v % 4)) n).rd CLS_CNT0_MISS = s.rd CLS_CNT0_MISS := fun n => rd_wr_ne s n hne
  unfold drainFall
  dsimp only
  split
  · rw [versionCommit_miss, hw]
  split
  · exact hw _
  · rw [startSweep_rd (by decide) (by decide), rd_wr_other _ _ (by decide) (by decide) (by decide), sweepNow_rd (by decide) (by decide), hw]

/-- A packet that no rule matches is counted as a miss. -/
theorem passActions_miss {r : Parsed} (hp : p.spec = none) (hr : passRule s p r = none) :
    (passActions i p r s).rd CLS_CNT0_MISS = satAdd CLS_CNT0_MISS.w (s.rd CLS_CNT0_MISS) 1 := by
  unfold passActions
  simp only [hp, hr]
  exact (drainFall_miss _ _).trans (rd_inc_same s (by decide))

/-- PACKET_PASS of an ordinary packet with no word in error (R155). -/
theorem packetPass_completes (n : Pipe) {c : Checks} {q : List PassPkt} (hup : isUp s = true) (hP : s.runs blkPRS = true)
    (hC : s.runs blkCLS = true) (hF : s.runs blkFLW = true) (hcel : celAccepts s = true) (hn : pipeOn s n = true)
    (hin : (s.pipe n).input = p :: q) (hf : c.flips = []) (hi : injArmed blkPRS c.idx.toNat s = false) (hl : p.toLeaf = none)
    (hp : p.spec = none) :
    ∃ t, exec (.packetPass ⟨n, c⟩) s = .next t ∧ (t.pipe n).input = q ∧
      t.rd (PRS_CNT0_PASSES n) = satAdd (PRS_CNT0_PASSES n).w (s.rd (PRS_CNT0_PASSES n)) 1 ∧
      (passLooksUp s p (parse (parseCfg s p) p.bytes p.hid) = true → passRule s p (parse (parseCfg s p) p.bytes p.hid) = none →
        t.rd CLS_CNT0_MISS = satAdd CLS_CNT0_MISS.w (s.rd CLS_CNT0_MISS) 1) := by
  have h : whenUp (fun s => packetPass n c s) s = runPass n p (s.setPipe n { s.pipe n with input := q }) :=
    (if_pos hup).trans (packetPass_eq hP hC hF hcel hn hin hf hi)
  have hcfg : parseCfg (s.setPipe n { s.pipe n with input := q }) p = parseCfg s p := rfl
  have hcls : (s.setPipe n { s.pipe n with input := q }).cls = s.cls := rfl
  have hlooks : ∀ r, passLooksUp (s.setPipe n { s.pipe n with input := q }) p r = passLooksUp s p r := fun _ => rfl
  have hinput : ((s.setPipe n { s.pipe n with input := q }).pipe n).input = q := by rw [pipe_setPipe]
  have hrd : ∀ x, (s.setPipe n { s.pipe n with input := q }).rd x = s.rd x := fun _ => rd_setPipe _ _ _ _
  rw [runPass_eq hp hl, hcfg] at h
  generalize s.setPipe n { s.pipe n with input := q } = u at h hcls hlooks hinput hrd
  generalize parse (parseCfg s p) p.bytes p.hid = r at h ⊢
  refine ⟨_, congrArg Host.Outcome.next h, ?_, ?_, fun hlook hrule => ?_⟩
  · rw [((PassesKept.refl n (passCounts n r u)).passOutcome hp _ _ _ _).1]
    unfold State.pipe at hinput ⊢
    rw [passCounts_pipes, hinput]
  · rw [rd_eq]
    show fieldOf (State.reg _ (PRS_CNT0 n).addr) _ _ = _
    rw [((PassesKept.refl n (passCounts n r u)).passOutcome hp _ _ _ _).2]
    exact passCounts_passes.trans (by rw [hrd])
  · rw [passOutcome_looksUp (by rw [passCounts_looksUp, hlooks, hlook]),
      passActions_miss hp (by rw [passRule_congr (passCounts_cls.trans hcls), hrule]), passCounts_rd, hrd]
    · exact apart_of_ge n (by decide)
    · show 0x11000198 ≠ 0x10000028 + n.val % 256 * 0x10000
      omega
end

/-- Settles O30: each clause by the lemma that says what its command comes to. -/
theorem rulesComplete : Obligations.RulesComplete := by
  unfold Obligations.RulesComplete
  refine ⟨fun n c p q s hup hP hC hF hcel hn hin hf hi hl hp => packetPass_completes n hup hP hC hF hcel hn hin hf hi hl hp,
    fun n e s hup hr hn he hp => idleSlotEntry_completes n hup hr hn he hp,
    fun i v s hA hg hlo hhi => reinjectNewPass_completes hA hg hlo hhi,
    fun i v s hA hg hlo hhi => reinjectToQueue_completes hA hg hlo hhi,
    fun s hup hr hg hn hl hm => reinjectOffered_completes hup hr hg hn hl hm,
    fun i v s hA hg hT h1 h2 => clsIndRead_completes hA hg hT h1 h2,
    fun i v r s hA hg hs hT hr => clsIndWrite_rule hA hg hs hT hr,
    fun i v s hA hg hs hT hi hb h0 => clsIndWrite_list hA hg hs hT hi hb h0,
    fun i v s hA hg hT hi => clsIndWrite_group hA hg hT hi,
    fun i v s hA => versionCommitRequest_completes hA,
    fun s hup hr hp hs hq h0 => versionCommit_completes hup hr hp hs hq h0,
    fun s hup hr hs => sweepDone_completes hup hr hs,
    fun i q v s hA hc => spqConsume_completes q hA hc⟩

end Sys2Proof.Machine
end

section
/-! PROOFS. The start and configuration family (chapter 02): resets and the boot sequence, configuration records, register accesses,
staged writes, groups and banks; and the signal and frame rows that O23 names. -/

namespace Sys2Proof.Machine
open Sys2Proof.Spec

set_option Elab.async false

/-! ### Registers: what a write of a field leaves alone -/

theorem reg_wr_ne (s : State) {r : RF} {a : Nat} (n : Nat) (h : a ≠ r.addr) : (s.wr r n).reg a = s.reg a := reg_setReg_ne s _ h

theorem reg_put_ne (s : State) {r : RF} {a : Nat} (b : Bool) (h : a ≠ r.addr) : (s.put r b).reg a = s.reg a := reg_wr_ne s _ h

theorem reg_inc_ne (s : State) {r : RF} {a : Nat} (h : a ≠ r.addr) : (s.inc r).reg a = s.reg a := reg_wr_ne s _ h

theorem reg_setBit_ne (s : State) {r : RF} {a : Nat} (i : Nat) (h : a ≠ r.addr) : (s.setBit r i).reg a = s.reg a := reg_wr_ne s _ h

theorem reg_clrBit_ne (s : State) {r : RF} {a : Nat} (i : Nat) (h : a ≠ r.addr) : (s.clrBit r i).reg a = s.reg a := reg_wr_ne s _ h

/-- A read depends on its register alone. -/
theorem rd_congr {s t : State} {q : RF} (h : t.reg q.addr = s.reg q.addr) : t.rd q = s.rd q :=
  congrArg (fieldOf · q.lo q.w) h

theorem bit_congr {s t : State} {q : RF} (h : t.reg q.addr = s.reg q.addr) : t.bit q = s.bit q :=
  congrArg (· != 0) (rd_congr h)

/-! ### States that differ in some registers alone -/

section
variable {as : List Nat} {o s : State}

theorem onlyRegs_refl : OnlyRegs as s s := ⟨rfl, fun _ _ => rfl⟩

theorem onlyRegs_setReg {a : Nat} {v : Word} (h : OnlyRegs as o s) (ha : a ∈ as) : OnlyRegs as o (s.setReg a v) := by
  obtain ⟨h1, h2⟩ := h
  refine ⟨?_, fun x hx => (reg_setReg_ne s v fun e => hx (by rwa [e])).trans (h2 x hx)⟩
  conv_lhs => rw [h1]
  rfl

theorem onlyRegs_wr {r : RF} {n : Nat} (h : OnlyRegs as o s) (ha : r.addr ∈ as) : OnlyRegs as o (s.wr r n) := onlyRegs_setReg h ha

theorem onlyRegs_put {r : RF} {b : Bool} (h : OnlyRegs as o s) (ha : r.addr ∈ as) : OnlyRegs as o (s.put r b) := onlyRegs_setReg h ha

theorem onlyRegs_ite {c : Prop} [Decidable c] {t u : State} (ht : OnlyRegs as o t) (hu : OnlyRegs as o u) :
    OnlyRegs as o (if c then t else u) := by
  split <;> assumption

theorem onlyRegs_reg (h : OnlyRegs as o s) {a : Nat} (ha : a ∉ as) : s.reg a = o.reg a := h.2 a ha

theorem onlyRegs_cfg (h : OnlyRegs as o s) : s.cfg = o.cfg := by rw [h.1]

theorem onlyRegs_sch (h : OnlyRegs as o s) : s.sch = o.sch := by rw [h.1]

theorem onlyRegs_shadow (h : OnlyRegs as o s) : s.shadow = o.shadow := by rw [h.1]
end

/-- Every part but the queue. -/
def allParts : List Part :=
  [.regs, .shadow, .mem, .ecc, .free, .readOut, .ticks, .tod, .cfg, .flt, .tsk, .harts, .acu, .pwr, .cel, .sch, .gcl, .kln, .act, .ube, .chp,
    .dsf, .ohs, .pipes, .cls, .flw, .spc, .mac, .lph, .tim, .cas, .clk, .tap, .boot, .power]

theorem mem_allParts {p : Part} (h : p ≠ .pending) : p ∈ allParts := by
  cases p
  case pending => exact absurd rfl h
  all_goals decide

/-- A bound between numbers that evaluate. -/
theorem le_of_eval {a b : Nat} (h : Nat.ble a b = true := by rfl) : a ≤ b := Nat.le_of_ble_eq_true h

/-! ### The part of the state that CFG keeps -/

/-- The state with another part of CFG. -/
def withCfg (c : CfgSt) (s : State) : State := { s with cfg := c }

@[simp] theorem withCfg_cfg (c : CfgSt) (s : State) : (withCfg c s).cfg = c := rfl
@[simp] theorem withCfg_reg (c : CfgSt) (s : State) (a : Nat) : (withCfg c s).reg a = s.reg a := reg_mk s a
@[simp] theorem withCfg_rd (c : CfgSt) (s : State) (q : RF) : (withCfg c s).rd q = s.rd q := rd_mk s q
@[simp] theorem withCfg_bit (c : CfgSt) (s : State) (q : RF) : (withCfg c s).bit q = s.bit q := bit_mk s q

theorem kept_withCfg {β : Type} [Membership Nat β] {kb : Bool} {kl : List Part} {bl : β} {ko s : State} {c : CfgSt}
    (h : Kept kb kl bl ko s) (hc : Part.cfg ∈ kl) (hb : c.boot = s.cfg.boot ∨ Part.boot ∈ kl) : Kept kb kl bl ko (withCfg c s) :=
  Kept.of_mk h (c_cfg := Or.inr hc) (c_boot := hb)

/-! ### What a reset clears and keeps (R103, R406) -/

/-- The disable flags of the first channels carried over. -/
def keepDisUpTo (n : Nat) (o s : State) : State :=
  (List.range n).foldl (fun s k =>
    (s.put (ACT_CP_STATE_DIS_CP k) (o.bit (ACT_CP_STATE_DIS_CP k))).put (ACT_CP_STATE_DIS_DEV k) (o.bit (ACT_CP_STATE_DIS_DEV k))) s

theorem keepDis_eq (o s : State) : keepDis o s = keepDisUpTo 16 o s := rfl

theorem keepDisUpTo_succ (n : Nat) (o s : State) :
    keepDisUpTo (n + 1) o s = ((keepDisUpTo n o s).put (ACT_CP_STATE_DIS_CP n) (o.bit (ACT_CP_STATE_DIS_CP n))).put
      (ACT_CP_STATE_DIS_DEV n) (o.bit (ACT_CP_STATE_DIS_DEV n)) := by
  unfold keepDisUpTo
  rw [List.range_succ, List.foldl_append]
  rfl

theorem cpState_ne {j k : Nat} (hj : j < 256) (hk : k < 256) (h : j ≠ k) : (ACT_CP_STATE j).addr ≠ (ACT_CP_STATE k).addr := by
  show 0xA000030 + j % 256 * 0x10000 ≠ 0xA000030 + k % 256 * 0x10000
  omega

theorem mem_disRegs {k : Nat} (h : k < 16) : (ACT_CP_STATE k).addr ∈ disRegs :=
  List.mem_map.2 ⟨k, List.mem_range.2 h, rfl⟩

/-- Carrying the disable flags changes their registers alone. -/
theorem keepDisUpTo_regs {n : Nat} (hn : n ≤ 16) (o s : State) : OnlyRegs disRegs s (keepDisUpTo n o s) := by
  induction n with
  | zero => exact onlyRegs_refl
  | succ n ih =>
    rw [keepDisUpTo_succ]
    exact onlyRegs_put (onlyRegs_put (ih (by omega)) (mem_disRegs (by omega))) (mem_disRegs (by omega))

/-- Each flag carried reads as it did before. -/
theorem keepDisUpTo_bit {n : Nat} (hn : n ≤ 256) (o s : State) {k : Nat} (hk : k < n) :
    (keepDisUpTo n o s).bit (ACT_CP_STATE_DIS_CP k) = o.bit (ACT_CP_STATE_DIS_CP k) ∧
      (keepDisUpTo n o s).bit (ACT_CP_STATE_DIS_DEV k) = o.bit (ACT_CP_STATE_DIS_DEV k) := by
  induction n with
  | zero => omega
  | succ n ih =>
    rw [keepDisUpTo_succ]
    generalize keepDisUpTo n o s = t at ih ⊢
    by_cases h : k = n
    · subst h
      refine ⟨?_, bit_put_same _ _ le_of_eval rfl⟩
      exact (bit_put_other _ _ le_of_eval le_of_eval (Or.inr (Or.inl le_of_eval))).trans (bit_put_same _ _ le_of_eval rfl)
    · have ha : (ACT_CP_STATE k).addr ≠ (ACT_CP_STATE n).addr := cpState_ne (by omega) (by omega) h
      have hr : ∀ b c : Bool,
          ((t.put (ACT_CP_STATE_DIS_CP n) b).put (ACT_CP_STATE_DIS_DEV n) c).reg (ACT_CP_STATE k).addr = t.reg (ACT_CP_STATE k).addr :=
        fun b c => (reg_put_ne (r := ACT_CP_STATE_DIS_DEV n) _ _ ha).trans (reg_put_ne (r := ACT_CP_STATE_DIS_CP n) _ _ ha)
      obtain ⟨h1, h2⟩ := ih (by omega) (by omega)
      exact ⟨(bit_congr (q := ACT_CP_STATE_DIS_CP k) (hr _ _)).trans h1, (bit_congr (q := ACT_CP_STATE_DIS_DEV k) (hr _ _)).trans h2⟩

/-- The state that a reset leaves, but for the registers of the disable flags, is that of `State.reset` with what the fuses and the
always-on domain hold. -/
theorem resetTo_eq (phase : BootPhase) (s : State) : resetTo phase s =
    { keepFuses s State.reset with
      regs := (keepDisUpTo 16 s (keepFuses s State.reset)).regs
      cfg := { (keepFuses s State.reset).cfg with
        boot := phase, bootRetry := s.cfg.bootRetry, vrEn := s.cfg.vrEn, supplied := s.cfg.supplied }
      tap := s.tap } := by
  unfold resetTo
  rw [keepDis_eq, (keepDisUpTo_regs (le_refl 16) s (keepFuses s State.reset)).1]

theorem resetTo_reg (phase : BootPhase) (s : State) (a : Nat) :
    (resetTo phase s).reg a = (keepDisUpTo 16 s (keepFuses s State.reset)).reg a := by
  rw [resetTo_eq, reg_mk]

/-- A reset leaves every register at its reset value but the one that shows the fuses and those of the disable flags, memory empty
and no key. -/
theorem resetTo_cleared (phase : BootPhase) (s : State) : Cleared (KLN_RK.addr :: disRegs) (resetTo phase s) := by
  refine ⟨fun a ha => ?_, ?_, ?_, ?_⟩
  · obtain ⟨hk, hd⟩ := not_or.1 (mt List.mem_cons.2 ha)
    rw [resetTo_reg, onlyRegs_reg (keepDisUpTo_regs (le_refl 16) s (keepFuses s State.reset)) hd]
    exact reg_put_ne _ _ hk
  all_goals
    rw [resetTo_eq]
    rfl

theorem resetTo_disKept (phase : BootPhase) (s : State) : DisKept s (resetTo phase s) := by
  intro k
  obtain ⟨h1, h2⟩ := keepDisUpTo_bit (by decide : 16 ≤ 256) s (keepFuses s State.reset) k.isLt
  exact ⟨(bit_congr (q := ACT_CP_STATE_DIS_CP k) (resetTo_reg phase s _)).trans h1,
    (bit_congr (q := ACT_CP_STATE_DIS_DEV k) (resetTo_reg phase s _)).trans h2⟩

theorem resetTo_boot (phase : BootPhase) (s : State) : (resetTo phase s).cfg.boot = phase := rfl

theorem resetTo_bootRetry (phase : BootPhase) (s : State) : (resetTo phase s).cfg.bootRetry = s.cfg.bootRetry := rfl

theorem resetTo_pending (phase : BootPhase) (s : State) : (resetTo phase s).pending = s.pending := by
  rw [resetTo_eq]
  rfl

/-! ### Refused accesses (R329) -/

/-- A refused access is counted. -/
theorem acuRefuse_count (i : Initiator) (wr : Bool) (a : Nat) (s : State) :
    (acuRefuse i wr a s).rd ACU_CNT_REFUSED = satAdd ACU_CNT_REFUSED.w (s.rd ACU_CNT_REFUSED) 1 := by
  have hi : (s.inc ACU_CNT_REFUSED).rd ACU_CNT_REFUSED = satAdd ACU_CNT_REFUSED.w (s.rd ACU_CNT_REFUSED) 1 := rd_inc_same s (by decide)
  unfold acuRefuse
  dsimp only
  split
  · exact hi
  · refine Eq.trans (rd_congr ?_) hi
    have hk := fun t : State => (kept_tskClock (kb := false) (kl := [.regs, .mem, .ecc, .flt, .tsk]) (bl := [blkFLT, blkTSK]) (ko := t)
      Kept.rfl_frame (by decide) (by decide) (by decide) (by decide) (by decide) (by decide) (by decide)).regFrame
    rw [hk _ _ (by decide), reg_setReg_ne _ _ (by decide), reg_setReg_ne _ _ (by decide)]

/-- A refused access changes its own count and record, and what the event it raises leads to. -/
theorem acuRefuse_frame (i j : Initiator) (wr : Bool) (a : Nat) (s : State) :
    RegFrame [blkACU, blkTSK, blkFLT] s (acuRefuse i wr a (hartActs j s)) ∧
      Frame [.regs, .mem, .ecc, .flt, .tsk, .harts] s (acuRefuse i wr a (hartActs j s)) := by
  have h : Kept false [.regs, .mem, .ecc, .flt, .tsk, .harts] [blkACU, blkTSK, blkFLT] s (acuRefuse i wr a (hartActs j s)) :=
    kept_acuRefuse (kept_hartActs Kept.rfl_frame (by decide)) (by decide) (by decide) (by decide) (by decide) (by decide) (by decide)
      (by decide) (by decide)
  exact ⟨h.regFrame, h.frame⟩

/-! ### CFG_RESET (R46) -/

theorem regRow_reset : regRow? CFG_RESET.addr = some ⟨0x1, 0x1000000, 1, 0x8, 1, 8, 0x0, [⟨0, 16, .wo, 0, 65535⟩]⟩ := by decide +kernel

theorem writeLimit_reset (v : Word) : writeLimit CFG_RESET.addr v = 1 := by
  unfold writeLimit
  rw [if_neg (by decide), if_pos (Or.inl rfl)]

/-- Whether a write of CFG_RESET is refused is a matter of the level and of the windows. -/
theorem resetRefused_iff (i : Initiator) (v : Word) (s : State) :
    accessRefused i .word true CFG_RESET.addr v s = (decide (1 < levelOf i) || !acuAllows s i true CFG_RESET.addr) := by
  have hr : regionOf CFG_RESET.addr = .regs := by decide
  have ho : (CFG_RESET.addr % 8 != 0) = false := by decide
  unfold accessRefused
  simp only [hr, ho, writeLimit_reset, ↓reduceIte, bne_self_eq_false, BEq.rfl, Bool.or_self, Bool.and_false]
  cases i <;> rfl

/-- A word that holds the KEY resets the device. -/
theorem cfgWrite_reset (v : Word) (o s : State) : cfgWrite CFG_RESET.addr (withField v CFG_RESET_KEY 0xD1E5) o s = deviceReset s := by
  have hk : fieldOf (withField v CFG_RESET_KEY 0xD1E5) 0 16 = 0xD1E5 := inField_withField_same v (r := CFG_RESET_KEY) _ (by decide) (by decide)
  unfold cfgWrite
  rw [if_neg (by decide), if_pos rfl, if_pos hk]

theorem blockWrite_cfg {l a : Nat} {v : Word} {o s : State} (h : blkOf a = blkCFG) : blockWrite l a v o s = cfgWrite a v o s := if_pos h

/-- A register of CFG belongs to no bank. -/
theorem bankOf_cfg {a : Nat} (h : blkOf a = blkCFG) : bankOf a = none := by
  unfold bankOf
  rw [h]
  rfl

theorem regionOf_cfg {a : Nat} (h : blkOf a = blkCFG) : regionOf a = .regs := by
  have h' : a / 0x1000000 = 1 := h
  exact if_pos (by omega)

/-- An accepted write of a register of CFG stores its fields and acts in CFG. -/
theorem regAccess_cfg {i : Initiator} {a : Nat} {v : Word} {s : State} {r : RegRow} (hA : Accepted i a v s) (hr : regRow? a = some r)
    (hb : blkOf a = blkCFG) : regAccess i a v s = cfgWrite a v (hartActs i s) (regStore a r v (hartActs i s)) := by
  have hp : a ≠ TSK_POST.addr := by
    rintro rfl
    exact absurd hb (by decide)
  rw [regAccess_eq hA.1 hA.2 (regionOf_cfg hb) hp, regWrite_eq hr (by rw [bankOf_cfg hb]; nofun), blockWrite_cfg hb]

/-- An accepted write of CFG_RESET with its KEY resets the device. -/
theorem regAccess_reset {i : Initiator} {v : Word} {s : State} (hA : Accepted i CFG_RESET.addr (withField v CFG_RESET_KEY 0xD1E5) s) :
    regAccess i CFG_RESET.addr (withField v CFG_RESET_KEY 0xD1E5) s = deviceReset (hartActs i s) := by
  rw [regAccess_cfg hA regRow_reset (by decide), cfgWrite_reset,
    regStore_none (by decide) (by decide) (by decide) (by decide)]

/-- Settles O10: which writes are refused is `resetRefused_iff`; a refused one is the refusal's, an accepted one resets the device. -/
theorem resetWriteLevels : Obligations.ResetWriteLevels := by
  unfold Obligations.ResetWriteLevels
  refine ⟨fun i v s hc hl => ?_, fun i v s hc hl hw => ?_⟩
  · have hr : accessRefused i .word true CFG_RESET.addr (withField v CFG_RESET_KEY 0xD1E5) s = true := by
      rw [resetRefused_iff, decide_eq_true hl, Bool.true_or]
    refine ⟨_, congrArg Host.Outcome.next (busWrite_refused hc hr), ?_, acuRefuse_frame i i true CFG_RESET.addr s⟩
    rw [acuRefuse_count, hartActs_rd]
  · have hr : accessRefused i .word true CFG_RESET.addr (withField v CFG_RESET_KEY 0xD1E5) s = false := by
      rw [resetRefused_iff, decide_eq_false (Nat.not_lt.2 hl), hw]
      rfl
    exact ⟨_, congrArg Host.Outcome.next (regAccess_reset ⟨hc, hr⟩), resetTo_cleared _ _, rfl⟩

/-! ### CFG_SPI_CMD (R33, R34) -/

theorem hartActs_cfg (i : Initiator) (s : State) : (hartActs i s).cfg = s.cfg := by cases i <;> rfl

/-- A field whose range is that of its width reads as the nearer end of its range. -/
theorem clamped_min {f : FieldRow} {m : Nat} (h : f.mn = 0) (hx : f.mx = (m : Int)) (v : Word) : f.clamped v = min m (fieldOf v f.lo f.w) := by
  unfold FieldRow.clamped clamp
  dsimp only
  rw [h, hx, if_neg (by omega), Int.toNat_natCast, if_neg (by simp)]
  split <;> omega

/-- An RW field whose range begins at 0 reads as the word gives it, moved to the range's end. -/
theorem storedBy_rd_min {i : Initiator} {a m : Nat} {r : RegRow} {v : Word} {s : State} (q : RF) (ha : q.addr = a) (hr : regRow? a = some r)
    (hf : ⟨q.lo, q.w, .rw, 0, (m : Int)⟩ ∈ r.fields) (hm : m < 2 ^ q.w) :
    (storedBy i a r v s).rd q = min m (inField v q) := by
  subst ha
  rw [storedBy, rd_setReg_same]
  have h := stored_rw hr hf rfl v (s.reg q.addr)
  rw [clamped_min rfl rfl] at h
  exact h.trans (Nat.mod_eq_of_lt (lt_of_le_of_lt (Nat.min_le_left _ _) hm))

/-- An accepted write of a register of CFG whose fields are stored at once. -/
theorem regAccess_cfgPlain {i : Initiator} {a : Nat} {v : Word} {s : State} {r : RegRow} (hA : Accepted i a v s)
    (hr : regRow? a = some r) (hk : r.plain = true) (hb : blkOf a = blkCFG) :
    regAccess i a v s = cfgWrite a v (hartActs i s) (storedBy i a r v s) := by
  simp only [RegRow.plain, Bool.and_eq_true, Bool.not_eq_true'] at hk
  obtain ⟨⟨⟨hrw, hsx⟩, hsh⟩, hst⟩ := hk
  rw [regAccess_cfg hA hr hb, regStore_rw hrw hsx hsh hst, hartActs_reg]
  rfl

/-- The row of CFG_SPI_CMD. -/
def rowSpiCmd : RegRow :=
  ⟨0x1, 0x1000000, 1, 0x48, 1, 8, 0x0, [⟨63, 1, .w1s, 0, 1⟩, ⟨40, 9, .rw, 0, 256⟩, ⟨32, 8, .rw, 0, 255⟩, ⟨0, 32, .rw, 0, 4294967295⟩]⟩

theorem regRow_spiCmd : regRow? CFG_SPI_CMD.addr = some rowSpiCmd := by decide +kernel

section
variable {i : Initiator} {v : Word} {s : State}

/-- The state in which the fields of a flash command are stored. -/
def spiStored (i : Initiator) (v : Word) (s : State) : State := storedBy i CFG_SPI_CMD.addr rowSpiCmd (withField v CFG_SPI_CMD_GO 1) s

theorem spiStored_reg_ne {a : Nat} (h : a ≠ CFG_SPI_CMD.addr) : (spiStored i v s).reg a = s.reg a := storedBy_reg_ne h

theorem spiStored_cfg : (spiStored i v s).cfg = s.cfg := hartActs_cfg i s

/-- What a flash command asks for beside GO is as the word gives it. -/
theorem spiGo_inField {q : RF} (h : q.lo + q.w ≤ 63) : inField (withField v CFG_SPI_CMD_GO 1) q = inField v q :=
  inField_withField_disj v 1 (by decide) (by omega) (Or.inr h)

theorem spiStored_op : (spiStored i v s).rd CFG_SPI_CMD_OPCODE = inField v CFG_SPI_CMD_OPCODE :=
  (storedBy_rd_rw CFG_SPI_CMD_OPCODE rfl regRow_spiCmd (by decide)).trans (spiGo_inField (by decide))

theorem spiStored_addr : (spiStored i v s).rd CFG_SPI_CMD_ADDR = inField v CFG_SPI_CMD_ADDR :=
  (storedBy_rd_rw CFG_SPI_CMD_ADDR rfl regRow_spiCmd (by decide)).trans (spiGo_inField (by decide))

theorem spiStored_len : (spiStored i v s).rd CFG_SPI_CMD_LEN = min 256 (inField v CFG_SPI_CMD_LEN) :=
  (storedBy_rd_min (m := 256) CFG_SPI_CMD_LEN rfl regRow_spiCmd (by decide) (by decide)).trans
    (congrArg (min 256) (spiGo_inField (by decide)))

/-- Whether bytes are protected is a matter of the boot phase and of the copy that booted. -/
theorem flashProtected_congr {t : State} {op addr len : Nat} (hb : t.cfg.boot = s.cfg.boot)
    (hc : t.rd CFG_BOOT_STATUS_COPY = s.rd CFG_BOOT_STATUS_COPY) : flashProtected t op addr len = flashProtected s op addr len := by
  unfold flashProtected
  rw [hb, hc]

/-- An accepted GO starts the command written, or is refused with PROT, or meets one in progress. -/
theorem regAccess_spi (hA : Accepted i CFG_SPI_CMD.addr (withField v CFG_SPI_CMD_GO 1) s) :
    regAccess i CFG_SPI_CMD.addr (withField v CFG_SPI_CMD_GO 1) s =
      if s.bit CFG_SPI_CMD_GO then hartActs i s
      else if flashProtected s (inField v CFG_SPI_CMD_OPCODE) (inField v CFG_SPI_CMD_ADDR) (min 256 (inField v CFG_SPI_CMD_LEN)) then
        ((spiStored i v s).put CFG_SPI_CMD_GO false).put CFG_SPI_STATUS_PROT true
      else withCfg { s.cfg with spi := some (inField v CFG_SPI_CMD_OPCODE, min 256 (inField v CFG_SPI_CMD_LEN)) }
        ((spiStored i v s).put CFG_SPI_CMD_GO true) := by
  have hgo : fieldOf (withField v CFG_SPI_CMD_GO 1) 63 1 = 1 := inField_withField_same v (r := CFG_SPI_CMD_GO) 1 (by decide) (by decide)
  have hp := fun op addr len => flashProtected_congr (s := s) (t := spiStored i v s) (op := op) (addr := addr) (len := len)
    (congrArg CfgSt.boot spiStored_cfg) (rd_congr (spiStored_reg_ne (by decide)))
  rw [regAccess_cfgPlain hA regRow_spiCmd (by decide) (by decide)]
  unfold cfgWrite spiGo
  rw [if_neg (by decide), if_neg (by decide), if_neg (by decide), if_neg (by decide), if_pos ⟨rfl, hgo⟩, hartActs_bit]
  show (if s.bit CFG_SPI_CMD_GO then _ else if flashProtected (spiStored i v s) ((spiStored i v s).rd CFG_SPI_CMD_OPCODE)
    ((spiStored i v s).rd CFG_SPI_CMD_ADDR) ((spiStored i v s).rd CFG_SPI_CMD_LEN) then
      ((spiStored i v s).put CFG_SPI_CMD_GO false).put CFG_SPI_STATUS_PROT true
    else withCfg { (spiStored i v s).cfg with spi := some ((spiStored i v s).rd CFG_SPI_CMD_OPCODE, (spiStored i v s).rd CFG_SPI_CMD_LEN) }
      ((spiStored i v s).put CFG_SPI_CMD_GO true)) = _
  rw [hp, spiStored_op, spiStored_addr, spiStored_len, spiStored_cfg]

/-- A flash command that nothing forbids is in progress. -/
theorem spiCommand_starts (hA : Accepted i CFG_SPI_CMD.addr (withField v CFG_SPI_CMD_GO 1) s) (hg : s.bit CFG_SPI_CMD_GO = false)
    (hp : flashProtected s (inField v CFG_SPI_CMD_OPCODE) (inField v CFG_SPI_CMD_ADDR) (min 256 (inField v CFG_SPI_CMD_LEN)) = false) :
    Gives (.spiCommand i v) s fun t => t.bit CFG_SPI_CMD_GO = true ∧
      t.cfg = { s.cfg with spi := some (inField v CFG_SPI_CMD_OPCODE, (min 256 (inField v CFG_SPI_CMD_LEN))) } ∧
      (∀ a, a ≠ CFG_SPI_CMD.addr → t.reg a = s.reg a) ∧ Frame [.regs, .cfg, .harts] s t := by
  have h := regAccess_spi hA
  rw [hg, if_neg Bool.false_ne_true, hp, if_neg Bool.false_ne_true] at h
  refine ⟨_, congrArg Host.Outcome.next h, ?_, rfl, fun a ha => ?_, ?_⟩
  · rw [withCfg_bit]
    exact bit_put_same _ _ (by decide) rfl
  · rw [withCfg_reg]
    exact (reg_put_ne (r := CFG_SPI_CMD_GO) _ _ ha).trans (spiStored_reg_ne ha)
  · have hk : Kept false [.regs, .cfg, .harts] (Set.univ : Set Nat) s ((spiStored i v s).put CFG_SPI_CMD_GO true) :=
      kept_st_put (kept_setReg (kept_hartActs Kept.rfl_frame (by decide)) (by decide) (Set.mem_univ _)) (by decide) (Set.mem_univ _)
    refine (kept_withCfg hk (by decide) (Or.inl ?_)).frame
    rw [put_cfg, spiStored_cfg]

/-- A flash command that would touch the copy that booted sets PROT and starts nothing. -/
theorem spiCommand_protected (hA : Accepted i CFG_SPI_CMD.addr (withField v CFG_SPI_CMD_GO 1) s) (hg : s.bit CFG_SPI_CMD_GO = false)
    (hp : flashProtected s (inField v CFG_SPI_CMD_OPCODE) (inField v CFG_SPI_CMD_ADDR) (min 256 (inField v CFG_SPI_CMD_LEN)) = true) :
    Gives (.spiCommand i v) s fun t => t.bit CFG_SPI_CMD_GO = false ∧ t.bit CFG_SPI_STATUS_PROT = true ∧
      (∀ a, a ∉ [CFG_SPI_CMD.addr, CFG_SPI_STATUS.addr] → t.reg a = s.reg a) ∧ Frame [.regs, .harts] s t := by
  have h := regAccess_spi hA
  rw [hg, if_neg Bool.false_ne_true, hp, if_pos rfl] at h
  refine ⟨_, congrArg Host.Outcome.next h, ?_, bit_put_same _ _ (by decide) rfl, fun a ha => ?_, ?_⟩
  · rw [bit_put_other _ _ (by decide) (by decide) (by decide), bit_put_same _ _ (by decide) rfl]
  · simp only [List.mem_cons, List.not_mem_nil, or_false, not_or] at ha
    exact (reg_put_ne (r := CFG_SPI_STATUS_PROT) _ _ ha.2).trans
      ((reg_put_ne (r := CFG_SPI_CMD_GO) _ _ ha.1).trans (spiStored_reg_ne ha.1))
  · have hk : Kept false [.regs, .harts] (Set.univ : Set Nat) s (((spiStored i v s).put CFG_SPI_CMD_GO false).put CFG_SPI_STATUS_PROT true) :=
      kept_st_put (kept_st_put (kept_setReg (kept_hartActs Kept.rfl_frame (by decide)) (by decide) (Set.mem_univ _)) (by decide)
        (Set.mem_univ _)) (by decide) (Set.mem_univ _)
    exact hk.frame

/-- A flash that does not respond ends the command with ERR. -/
theorem spiCommandDone_err (data : Bytes) {op len : Nat} (hup : isUp s = true) (hs : s.cfg.spi = some (op, len)) :
    Gives (.spiCommandDone false data) s fun t =>
      t.bit CFG_SPI_CMD_GO = false ∧ t.bit CFG_SPI_STATUS_ERR = true ∧ t.cfg = { s.cfg with spi := none } ∧
      (∀ a, a ∉ [CFG_SPI_CMD.addr, CFG_SPI_STATUS.addr] → t.reg a = s.reg a) ∧ Frame [.regs, .cfg] s t := by
  have h : whenUp (fun s => spiDone false data s) s =
      ((withCfg { s.cfg with spi := none } s).put CFG_SPI_CMD_GO false).put CFG_SPI_STATUS_ERR true := by
    refine (if_pos hup).trans ?_
    show spiDone false data s = _
    unfold spiDone
    rw [hs]
    rfl
  refine ⟨_, congrArg Host.Outcome.next h, ?_, bit_put_same _ _ (by decide) rfl, rfl, fun a ha => ?_, ?_⟩
  · rw [bit_put_other _ _ (by decide) (by decide) (by decide), bit_put_same _ _ (by decide) rfl]
  · simp only [List.mem_cons, List.not_mem_nil, or_false, not_or] at ha
    exact (reg_put_ne (r := CFG_SPI_STATUS_ERR) _ _ ha.2).trans ((reg_put_ne (r := CFG_SPI_CMD_GO) _ _ ha.1).trans (withCfg_reg _ s a))
  · have hk : Kept false [.regs, .cfg] [blkCFG] s (whenUp (fun s => spiDone false data s) s) :=
      kept_whenUp (fun _ hs => kept_spiDone hs (by decide) (by decide) (by decide)) Kept.rfl_frame
    rw [h] at hk
    exact hk.frame
end

/-! ### CFG_BLK_RUN (R37) -/

theorem fieldOf_whole (v : Word) : fieldOf v 0 64 = v.toNat := by
  unfold fieldOf
  rw [Nat.shiftRight_zero]
  exact Nat.mod_eq_of_lt v.isLt

theorem withBit_lt {n i w : Nat} (b : Bool) (h : n < 2 ^ w) (hi : i < w) : withBit n i b < 2 ^ w := by
  refine Nat.lt_pow_two_of_testBit _ fun j hj => ?_
  rw [testBit_withBit, if_neg (by omega)]
  exact Nat.testBit_lt_two_pow (lt_of_lt_of_le h (Nat.pow_le_pow_right (by decide) hj))

/-- What CFG_BLK_RUN holds after a word is written to it. -/
def runWord (w : Word) : Nat := withBit (w.toNat &&& blockMask) blkCFG true

theorem blockMask_testBit : ∀ m < 64, blockMask.testBit m = allBlocks.contains m := by decide +kernel

theorem runWord_lt (w : Word) : runWord w < 2 ^ 64 :=
  withBit_lt _ (lt_of_le_of_lt Nat.and_le_left w.isLt) (by decide)

theorem runWord_testBit (w : Word) {m : Nat} (hm : m < 64) : (runWord w).testBit m = keptRun w m := by
  unfold runWord keptRun
  rw [testBit_withBit, Nat.testBit_and, blockMask_testBit m hm, Bool.and_comm]
  by_cases h : m = blkCFG <;> simp [h]

theorem mem_allBlocks_lt : ∀ m ∈ allBlocks, m < 64 := by decide

/-- The row of CFG_BLK_RUN. -/
def rowBlkRun : RegRow := ⟨0x1, 0x1000000, 1, 0x10, 1, 8, 0x2, [⟨0, 64, .rw, 0, 0xFFFFFFFFFFFFFFFF⟩]⟩

theorem regRow_blkRun : regRow? CFG_BLK_RUN.addr = some rowBlkRun := by decide +kernel

/-- Steps that change nothing of a state leave it as it was. -/
theorem foldl_fixed {α β : Type} {f : β → α → β} {l : List α} {b : β} (h : ∀ x ∈ l, f b x = b) : l.foldl f b = b := by
  induction l with
  | nil => rfl
  | cons x l ih =>
    rw [List.foldl_cons, h x List.mem_cons_self]
    exact ih fun y hy => h y (List.mem_cons_of_mem _ hy)

/-- Where all elements but one change nothing, one step is left. -/
theorem foldl_only {α β : Type} {f : β → α → β} {l : List α} {a : α} (ha : a ∈ l) (hd : l.Nodup)
    (h : ∀ b, ∀ x ∈ l, x ≠ a → f b x = b) {b : β} : l.foldl f b = f b a := by
  obtain ⟨l₁, l₂, rfl⟩ := List.append_of_mem ha
  obtain ⟨-, hd₂, hx⟩ := List.nodup_append.1 hd
  obtain ⟨ha₂, -⟩ := List.nodup_cons.1 hd₂
  rw [List.foldl_append, List.foldl_cons,
    foldl_fixed fun x hm => h _ x (List.mem_append_left _ hm) (hx x hm a List.mem_cons_self)]
  exact foldl_fixed fun x hm => h _ x (List.mem_append_right _ (List.mem_cons_of_mem _ hm)) fun e => ha₂ (e ▸ hm)

/-- The blocks whose bit rises restart (R37). -/
def restartRisen (run was : Nat) (s : State) : State :=
  allBlocks.foldl (fun s n => if run.testBit n && !was.testBit n then blockRestart n s else s) s

section
variable {i : Initiator} {w : Word} {s : State}

/-- The state in which the run bits of a word are stored. -/
def runStored (i : Initiator) (w : Word) (s : State) : State :=
  (storedBy i CFG_BLK_RUN.addr rowBlkRun w s).setReg CFG_BLK_RUN.addr (BitVec.ofNat 64 (runWord w))

theorem runStored_reg_ne {a : Nat} (h : a ≠ CFG_BLK_RUN.addr) : (runStored i w s).reg a = s.reg a := by
  rw [runStored, reg_setReg_ne _ _ h, storedBy_reg_ne h]

theorem runStored_cfg : (runStored i w s).cfg = s.cfg := hartActs_cfg i s

theorem runStored_testBit {m : Nat} (h : m < 64) : ((runStored i w s).reg CFG_BLK_RUN.addr).toNat.testBit m = keptRun w m := by
  rw [runStored, reg_setReg_same, BitVec.toNat_ofNat, Nat.mod_eq_of_lt (runWord_lt w), runWord_testBit w h]

theorem runStored_kept : Kept false [.regs, .harts] (Set.univ : Set Nat) s (runStored i w s) :=
  kept_setReg (kept_setReg (kept_hartActs Kept.rfl_frame (by decide)) (by decide) (Set.mem_univ _)) (by decide) (Set.mem_univ _)

theorem runStored_mac : (runStored i w s).mac = s.mac := runStored_kept.frame .mac (by decide)
theorem runStored_sch : (runStored i w s).sch = s.sch := runStored_kept.frame .sch (by decide)

theorem runStored_macPort (p : Nat) : (runStored i w s).macPort p = s.macPort p := by
  unfold State.macPort
  rw [runStored_mac]

/-- An accepted write of CFG_BLK_RUN: the bits are stored, MAC ends its frames as its bit falls, and blocks whose bit rises restart. -/
theorem regAccess_blkRun (hA : Accepted i CFG_BLK_RUN.addr w s) :
    regAccess i CFG_BLK_RUN.addr w s = restartRisen (runWord w) (s.reg CFG_BLK_RUN.addr).toNat
      (if (s.reg CFG_BLK_RUN.addr).toNat.testBit blkMAC && !keptRun w blkMAC then macSafe (runStored i w s) else runStored i w s) := by
  have hw : ((storedBy i CFG_BLK_RUN.addr rowBlkRun w s).reg CFG_BLK_RUN.addr).toNat = w.toNat := by
    have h := storedBy_rd_rw (i := i) (v := w) (s := s) CFG_BLK_RUN rfl regRow_blkRun (by decide)
    rwa [rd_eq, show fieldOf _ CFG_BLK_RUN.lo CFG_BLK_RUN.w = _ from fieldOf_whole _,
      show inField w CFG_BLK_RUN = _ from fieldOf_whole w] at h
  rw [regAccess_cfgPlain hA regRow_blkRun (by decide) (by decide), ← runWord_testBit w (by decide : blkMAC < 64)]
  unfold cfgWrite blkRunWrite
  rw [if_pos rfl, hw, hartActs_reg]
  rfl

theorem restartRisen_fixed {run was m : Nat} (h : run.testBit m = true → was.testBit m = true) (t : State) :
    (if run.testBit m && !was.testBit m then blockRestart m t else t) = t := by
  refine if_neg fun hc => ?_
  obtain ⟨hr, hw⟩ := Bool.and_eq_true_iff.1 hc
  rw [h hr] at hw
  exact Bool.false_ne_true hw

/-- Where no bit rises nothing restarts. -/
theorem restartRisen_none {run was : Nat} (h : ∀ m ∈ allBlocks, run.testBit m = true → was.testBit m = true) : restartRisen run was s = s :=
  foldl_fixed fun m hm => restartRisen_fixed (h m hm) _

/-- Where one bit alone rises its block alone restarts. -/
theorem restartRisen_one {run was n : Nat} (hn : n ∈ allBlocks) (hr : run.testBit n = true) (hw : was.testBit n = false)
    (h : ∀ m ∈ allBlocks, m ≠ n → run.testBit m = true → was.testBit m = true) : restartRisen run was s = blockRestart n s := by
  unfold restartRisen
  rw [foldl_only hn (by decide) fun t m hm hmn => restartRisen_fixed (h m hm hmn) t, hr, hw]
  rfl

/-! #### The stop of a block -/

/-- MAC's frames in progress end for the first ports. -/
def macSafeUpTo (n : Nat) (s : State) : State :=
  (List.range n).foldl (fun s p => (s.setToMac p []).setMacPort p { s.macPort p with pre := none }) s

theorem macSafeUpTo_ports (n : Nat) {p : Nat} :
    (macSafeUpTo n s).toMac p = (if p < n then [] else s.toMac p) ∧
      (macSafeUpTo n s).macPort p = if p < n then { s.macPort p with pre := none } else s.macPort p := by
  induction n with
  | zero => exact ⟨rfl, rfl⟩
  | succ n ih =>
    obtain ⟨h1, h2⟩ := ih
    have e : macSafeUpTo (n + 1) s =
        ((macSafeUpTo n s).setToMac n []).setMacPort n { (macSafeUpTo n s).macPort n with pre := none } := by
      unfold macSafeUpTo
      rw [List.range_succ, List.foldl_append]
      rfl
    rw [e]
    by_cases h : p = n
    · subst h
      rw [if_pos (Nat.lt_succ_self p), if_pos (Nat.lt_succ_self p), macPort_setMacPort, h2, if_neg (lt_irrefl p)]
      exact ⟨toMac_setToMac _ _ _, rfl⟩
    · have hlt : p < n + 1 ↔ p < n := by omega
      rw [macPort_setMacPort_ne _ _ h]
      simp only [hlt]
      exact ⟨(toMac_setToMac_ne _ _ h).trans h1, h2⟩

/-- A stop of MAC ends what was handed to it and changes nothing else of a port. -/
theorem macSafe_port (p : Fin 64) : (macSafe s).toMac p = [] ∧ (macSafe s).macPort p = { s.macPort p with pre := none } := by
  have h := macSafeUpTo_ports (s := s) 64 (p := p)
  rwa [if_pos p.isLt, if_pos p.isLt] at h

theorem macSafe_reg (a : Nat) : (macSafe s).reg a = s.reg a := by
  have h : Kept false [.sch, .mac] ([] : List Nat) s (macSafe s) := kept_macSafe Kept.rfl_frame (by decide) (by decide)
  exact h.regFrame a List.not_mem_nil

/-- BLOCK_STOP that raises no bit. -/
theorem blockStop_stores {n : Fin 64} {v : Word} (hA : Accepted i CFG_BLK_RUN.addr (withField v ⟨0, n.val, 1⟩ 0) s)
    (hm : ∀ m ∈ allBlocks, m ≠ blkCFG → keptRun (withField v ⟨0, n.val, 1⟩ 0) m = true →
      (s.reg CFG_BLK_RUN.addr).toNat.testBit m = true)
    (hc : (s.reg CFG_BLK_RUN.addr).toNat.testBit blkCFG = true) :
    Gives (.blockStop i n v) s fun t =>
      (∀ m : Fin 64, (t.reg CFG_BLK_RUN.addr).toNat.testBit m = keptRun (withField v ⟨0, n.val, 1⟩ 0) m) ∧
      (∀ a, a ≠ CFG_BLK_RUN.addr → t.reg a = s.reg a) ∧ Frame [.regs, .harts, .sch, .mac] s t ∧
      (if (s.reg CFG_BLK_RUN.addr).toNat.testBit blkMAC = true ∧ keptRun (withField v ⟨0, n.val, 1⟩ 0) blkMAC = false
       then ∀ p : Fin 64, t.toMac p = [] ∧ t.macPort p = { s.macPort p with pre := none }
       else t.sch = s.sch ∧ t.mac = s.mac) := by
  have h : exec (.blockStop i n v) s = .next _ := congrArg Host.Outcome.next (regAccess_blkRun hA)
  generalize withField v ⟨0, n.val, 1⟩ 0 = w at h hm ⊢
  rw [restartRisen_none fun m hb hr => by
    by_cases e : m = blkCFG
    · rwa [e]
    · exact hm m hb e ((runWord_testBit w (mem_allBlocks_lt m hb)).symm.trans hr)] at h
  have hk : Kept false [.regs, .harts, .sch, .mac] (Set.univ : Set Nat) s (runStored i w s) :=
    kept_setReg (kept_setReg (kept_hartActs Kept.rfl_frame (by decide)) (by decide) (Set.mem_univ _)) (by decide) (Set.mem_univ _)
  cases hs : (s.reg CFG_BLK_RUN.addr).toNat.testBit blkMAC && !keptRun w blkMAC
  case true =>
    rw [hs, if_pos rfl] at h
    obtain ⟨h1, h2⟩ := Bool.and_eq_true_iff.1 hs
    refine ⟨_, h, fun m => ?_, fun a ha => ?_, ?_, ?_⟩
    · rw [macSafe_reg, runStored_testBit m.isLt]
    · rw [macSafe_reg, runStored_reg_ne ha]
    · exact (kept_macSafe hk (by decide) (by decide)).frame
    · rw [if_pos ⟨h1, by simpa using h2⟩]
      intro p
      obtain ⟨ht, hp⟩ := macSafe_port (s := runStored i w s) p
      rw [runStored_macPort] at hp
      exact ⟨ht, hp⟩
  case false =>
    rw [hs, if_neg Bool.false_ne_true] at h
    refine ⟨_, h, fun m => runStored_testBit m.isLt, fun a ha => runStored_reg_ne ha, hk.frame, ?_⟩
    rw [if_neg fun hc => by rw [hc.1, hc.2] at hs; exact Bool.false_ne_true hs.symm]
    exact ⟨runStored_sch, runStored_mac⟩

/-! #### A block stopped, and its restart -/

theorem rd_setBit_same {r : RF} {n : Nat} (h : r.lo + r.w ≤ 64) (hn : n < r.w) : (s.setBit r n).rd r = withBit (s.rd r) n true :=
  (rd_wr_same s _ h).trans (Nat.mod_eq_of_lt (withBit_lt _ (rd_lt s r) hn))

theorem rd_clrBit_same {r : RF} {n : Nat} (h : r.lo + r.w ≤ 64) (hn : n < r.w) : (s.clrBit r n).rd r = withBit (s.rd r) n false :=
  (rd_wr_same s _ h).trans (Nat.mod_eq_of_lt (withBit_lt _ (rd_lt s r) hn))

/-- BLOCK_STOPPED of a block whose stop means nothing elsewhere. -/
theorem blockStopped_shows {n : Fin 64} (hup : isUp s = true) (hb : n.val ∈ allBlocks) (hn : n.val ∉ [blkCFG, blkCHP, blkCAS])
    (hr : (s.rd CFG_BLK_RUN).testBit n = false) (hs : (s.rd CFG_BLK_STOPPED).testBit n = false) :
    Gives (.blockStopped n) s fun t => t.rd CFG_BLK_STOPPED = withBit (s.rd CFG_BLK_STOPPED) n true ∧ OnlyRegs [CFG_BLK_STOPPED.addr] s t := by
  simp only [List.mem_cons, List.not_mem_nil, or_false, not_or] at hn
  obtain ⟨hcfg, hchp, hcas⟩ := hn
  have h : whenUp (fun s => if allBlocks.contains n.val && n.val != blkCFG && !(s.rd CFG_BLK_RUN).testBit n then blockStopped n s else s) s =
      s.setBit CFG_BLK_STOPPED n := by
    refine (if_pos hup).trans ((if_pos ?_).trans ?_)
    · rw [hr, List.contains_iff_mem.2 hb, bne_iff_ne.2 hcfg]
      rfl
    · unfold blockStopped
      rw [hs, if_neg Bool.false_ne_true, if_neg hchp, if_neg hcas]
  refine ⟨_, congrArg Host.Outcome.next h, rd_setBit_same (by decide) n.isLt, rfl, fun a ha => ?_⟩
  exact reg_setBit_ne s _ (by simpa using ha)

/-- A restart that is allowed clears the block's bit, where nothing else follows from it. -/
theorem blockRestart_eq {n : Nat} (hs : (s.rd CFG_BLK_STOPPED).testBit n = true) (ha : startAllowed s n = true)
    (hn : n ∉ [blkACT, blkTSK, blkCAS]) : blockRestart n s = s.clrBit CFG_BLK_STOPPED n := by
  simp only [List.mem_cons, List.not_mem_nil, or_false, not_or] at hn
  obtain ⟨hact, htsk, hcas⟩ := hn
  unfold blockRestart
  rw [hs, ha, if_neg (by decide), if_neg hact, if_neg htsk, if_neg hcas]

/-- BLOCK_RESTART of one block, where it may start. -/
theorem blockRestart_starts {n : Fin 64} {v : Word} (hA : Accepted i CFG_BLK_RUN.addr (withField v ⟨0, n.val, 1⟩ 1) s)
    (hb : n.val ∈ allBlocks) (hn : n.val ∉ [blkCFG, blkACT, blkTSK, blkCAS])
    (hm : ∀ m ∈ allBlocks, m ≠ n.val → m ≠ blkCFG → keptRun (withField v ⟨0, n.val, 1⟩ 1) m = true →
      (s.reg CFG_BLK_RUN.addr).toNat.testBit m = true)
    (hc : (s.reg CFG_BLK_RUN.addr).toNat.testBit blkCFG = true) (hw : (s.reg CFG_BLK_RUN.addr).toNat.testBit n = false)
    (hs : (s.rd CFG_BLK_STOPPED).testBit n = true)
    (hmac : keptRun (withField v ⟨0, n.val, 1⟩ 1) blkMAC = false → (s.reg CFG_BLK_RUN.addr).toNat.testBit blkMAC = false)
    (hf : s.cfg.boot ≠ .failed) (hd : s.cfg.cfgDone = true ∨ n.val ∉ [blkLPH, blkUBE, blkCHP, blkMAC]) :
    Gives (.blockRestart i n v) s fun t => (t.reg CFG_BLK_RUN.addr).toNat.testBit n = true ∧
      t.rd CFG_BLK_STOPPED = withBit (s.rd CFG_BLK_STOPPED) n false ∧
      (∀ a, a ∉ [CFG_BLK_RUN.addr, CFG_BLK_STOPPED.addr] → t.reg a = s.reg a) ∧ Frame [.regs, .harts] s t := by
  have hrun : keptRun (withField v ⟨0, n.val, 1⟩ 1) n = true := by
    have hbit : (withField v ⟨0, n.val, 1⟩ 1).toNat.testBit n = true := by
      unfold withField
      rw [testBit_setField v (show n.val + 1 ≤ 64 from n.isLt) 1 n n.isLt, if_pos (by omega), Nat.sub_self]
      rfl
    unfold keptRun
    rw [List.contains_iff_mem.2 hb, hbit, Bool.and_self, Bool.or_true]
  have h : exec (.blockRestart i n v) s = .next _ := congrArg Host.Outcome.next (regAccess_blkRun hA)
  generalize withField v ⟨0, n.val, 1⟩ 1 = w at h hm hmac hrun
  have hstop : ((s.reg CFG_BLK_RUN.addr).toNat.testBit blkMAC && !keptRun w blkMAC) = false := by
    cases hk : keptRun w blkMAC
    · rw [hmac hk]
      rfl
    · exact Bool.and_false _
  have hstopped : (runStored i w s).rd CFG_BLK_STOPPED = s.rd CFG_BLK_STOPPED := rd_congr (runStored_reg_ne (by decide))
  have hallow : startAllowed (runStored i w s) n = true := by
    unfold startAllowed
    rw [runStored_cfg, bne_iff_ne.2 hf, Bool.true_and, Bool.or_eq_true]
    exact hd.imp id fun hn => by rw [Bool.not_eq_true', Bool.eq_false_iff]; exact mt List.contains_iff_mem.1 hn
  rw [hstop, if_neg Bool.false_ne_true, restartRisen_one hb ((runWord_testBit w n.isLt).trans hrun) hw fun m hb' hmn hr => by
    by_cases e : m = blkCFG
    · rwa [e]
    · exact hm m hb' hmn e ((runWord_testBit w (mem_allBlocks_lt m hb')).symm.trans hr),
    blockRestart_eq (by rwa [hstopped]) hallow (fun hx => hn (List.mem_cons_of_mem _ hx))] at h
  refine ⟨_, h, ?_, ?_, fun a ha => ?_, ?_⟩
  · rw [reg_clrBit_ne _ _ (by decide), runStored_testBit n.isLt, hrun]
  · rw [rd_clrBit_same (by decide) n.isLt, hstopped]
  · simp only [List.mem_cons, List.not_mem_nil, or_false, not_or] at ha
    rw [reg_clrBit_ne _ _ ha.2, runStored_reg_ne ha.1]
  · have hk : Kept false [.regs, .harts] (Set.univ : Set Nat) s ((runStored i w s).clrBit CFG_BLK_STOPPED n) :=
      kept_st_clrBit runStored_kept (by decide) (Set.mem_univ _)
    exact hk.frame
end

/-- Settles O13: each clause by the lemma that says what its command comes to. -/
theorem cfgOwnRows : Obligations.CfgOwnRows := by
  unfold Obligations.CfgOwnRows
  refine ⟨fun i v s hA => ?_, fun i v s hA hg hp => spiCommand_starts hA hg hp, fun i v s hA hg hp => spiCommand_protected hA hg hp,
    fun i v s hA hg => ⟨_, congrArg Host.Outcome.next ((regAccess_spi hA).trans (if_pos hg)), rfl⟩,
    fun data s op len hup hs => spiCommandDone_err data hup hs, fun i n v s hA hm hc => blockStop_stores hA hm hc,
    fun n s hup hb hn hr hs => blockStopped_shows hup hb hn hr hs,
    fun i n v s hA hb hn hm hc hw hs hmac hf hd => blockRestart_starts hA hb hn hm hc hw hs hmac hf hd⟩
  refine ⟨_, congrArg Host.Outcome.next (regAccess_reset hA), resetTo_cleared _ _, fun k => ?_, rfl, ?_, ?_⟩
  · rw [← hartActs_bit i s, ← hartActs_bit i s]
    exact resetTo_disKept _ _ k
  · rw [show (deviceReset (hartActs i s)).cfg.bootRetry = (hartActs i s).cfg.bootRetry from rfl, hartActs_cfg]
  · rw [show (deviceReset (hartActs i s)).pending = (hartActs i s).pending from resetTo_pending _ _, hartActs_eq]

/-! ### BLOCK_BANK (R41 to R43) -/

/-- The place of every BLOCK_BANK: it belongs to the bank it names, holds no SH field and is no post. -/
theorem bankAddr_place (b : Bank) : bankOf (bankAddr b) = some (bankAddr b) ∧ regionOf (bankAddr b) = .regs ∧
    bankAddr b ≠ TSK_POST.addr := by
  have h16 : ∀ k : Fin 16,
      (bankOf (LPH_BANK k).addr = some (LPH_BANK k).addr ∧ regionOf (LPH_BANK k).addr = .regs ∧ (LPH_BANK k).addr ≠ TSK_POST.addr) ∧
      (bankOf (DSF_BANK k).addr = some (DSF_BANK k).addr ∧ regionOf (DSF_BANK k).addr = .regs ∧ (DSF_BANK k).addr ≠ TSK_POST.addr) ∧
      (bankOf (ACT_BANK k).addr = some (ACT_BANK k).addr ∧ regionOf (ACT_BANK k).addr = .regs ∧ (ACT_BANK k).addr ≠ TSK_POST.addr) ∧
      bankOf (UBE_BANK k).addr = some (UBE_BANK k).addr ∧ regionOf (UBE_BANK k).addr = .regs ∧ (UBE_BANK k).addr ≠ TSK_POST.addr := by
    decide
  have h64 : ∀ p : Fin 64,
      bankOf (GCL_BANK p).addr = some (GCL_BANK p).addr ∧ regionOf (GCL_BANK p).addr = .regs ∧ (GCL_BANK p).addr ≠ TSK_POST.addr := by
    decide
  cases b with
  | lph k => exact (h16 k).1
  | dsf k => exact (h16 k).2.1
  | act k => exact (h16 k).2.2.1
  | ube k => exact (h16 k).2.2.2
  | cls => exact ⟨by decide, by decide, by decide⟩
  | sch => exact ⟨by decide, by decide, by decide⟩
  | gcl p => exact h64 p

/-- The block's first window, how many windows it has, and the window a bank is of. -/
def bankWindow : Bank → Nat × Nat × Nat
  | .lph k => (0x8000000, 16, k.val)
  | .dsf k => (0x9000000, 16, k.val)
  | .act k => (0xA000000, 16, k.val)
  | .ube k => (0xB000000, 16, k.val)
  | .cls => (0x11000000, 1, 0)
  | .sch => (0x15000000, 1, 0)
  | .gcl p => (0x16000000, 64, p.val)

theorem bankAddr_window (b : Bank) :
    bankAddr b = (bankWindow b).1 + 0x10 + (bankWindow b).2.2 * 0x10000 ∧ (bankWindow b).2.2 < (bankWindow b).2.1 := by
  have hmod : ∀ {n : Nat} (u : Fin n), n ≤ 256 → u.val % 256 = u.val := fun u hn => Nat.mod_eq_of_lt (u.isLt.trans_le hn)
  cases b with
  | lph k => exact ⟨congrArg (0x8000010 + · * 0x10000) (hmod k (by decide)), k.isLt⟩
  | dsf k => exact ⟨congrArg (0x9000010 + · * 0x10000) (hmod k (by decide)), k.isLt⟩
  | act k => exact ⟨congrArg (0xA000010 + · * 0x10000) (hmod k (by decide)), k.isLt⟩
  | ube k => exact ⟨congrArg (0xB000010 + · * 0x10000) (hmod k (by decide)), k.isLt⟩
  | cls => exact ⟨rfl, Nat.zero_lt_one⟩
  | sch => exact ⟨rfl, Nat.zero_lt_one⟩
  | gcl p => exact ⟨congrArg (0x16000010 + · * 0x10000) (hmod p (by decide)), p.isLt⟩

/-- The row stands at the offset of BLOCK_BANK in each of `n` windows from `base` on. -/
def atBankWord (base n : Nat) (r : RegRow) : Bool := r.base == base && n ≤ r.units && r.off == 0x10 && 0 < r.cnt

theorem regRow?_isSome_of_atBankWord {base n u : Nat} (h : regRows.any (atBankWord base n) = true) (hu : u < n) :
    (regRow? (base + 0x10 + u * 0x10000)).isSome = true := by
  obtain ⟨r, hr, hw⟩ := List.any_eq_true.1 h
  simp only [atBankWord, Bool.and_eq_true, beq_iff_eq, decide_eq_true_eq] at hw
  obtain ⟨⟨⟨hb, hn⟩, ho⟩, hc⟩ := hw
  have hdiv : (base + 0x10 + u * 0x10000 - base) / 0x10000 = u := by omega
  have hoff : (base + 0x10 + u * 0x10000 - base) % 0x10000 = 0x10 := by omega
  refine List.find?_isSome.2 ⟨r, hr, ?_⟩
  unfold RegRow.at?
  rw [hb, if_neg (by omega)]
  simp only [hdiv, hoff, ho]
  rw [if_pos ⟨by omega, le_rfl, by simp, by simpa using hc⟩]
  rfl

theorem regRow?_bankAddr (b : Bank) : (regRow? (bankAddr b)).isSome = true := by
  have hrows : ([(0x8000000, 16), (0x9000000, 16), (0xA000000, 16), (0xB000000, 16), (0x11000000, 1), (0x15000000, 1), (0x16000000, 64)] :
      List (Nat × Nat)).all (fun w => regRows.any (atBankWord w.1 w.2)) = true := by decide +kernel
  have hwin : regRows.any (atBankWord (bankWindow b).1 (bankWindow b).2.1) = true :=
    List.all_eq_true.1 hrows ((bankWindow b).1, (bankWindow b).2.1) (by cases b <;> simp [bankWindow])
  obtain ⟨ha, hu⟩ := bankAddr_window b
  rw [ha]
  exact regRow?_isSome_of_atBankWord hwin hu

/-- The row's windows are aligned, and it holds no SH field or does not stand at the offset of BLOCK_BANK. -/
def bankWordClear (r : RegRow) : Bool :=
  r.base % 0x10000 == 0 && (r.fields.all (·.kind != .sh) || !decide (r.off ≤ 0x10 ∧ (0x10 - r.off) % r.step = 0 ∧ (0x10 - r.off) / r.step < r.cnt))

/-- No word at the offset of BLOCK_BANK, in any window, holds an SH field. -/
theorem shMask_eq_zero_of_offset {a : Nat} (ha : a % 0x10000 = 0x10) : shMask a = 0 := by
  have hrows : regRows.all bankWordClear = true := by decide +kernel
  unfold shMask
  split
  · rfl
  · next r hr =>
    have hclear := List.all_eq_true.1 hrows r (List.mem_of_find?_eq_some hr)
    have hat : (r.at? a).isSome = true := List.find?_some (p := fun r : RegRow => (r.at? a).isSome) hr
    simp only [bankWordClear, Bool.and_eq_true, beq_iff_eq, Bool.or_eq_true, Bool.not_eq_true', decide_eq_false_iff_not] at hclear
    obtain ⟨hbase, hfields⟩ := hclear
    have hoff : r.base ≤ a → (a - r.base) % 0x10000 = 0x10 := by omega
    have hnone : r.fields.filter (·.kind == .sh) = [] := by
      refine List.filter_eq_nil_iff.2 fun f hf hk => ?_
      rcases hfields with hall | hout
      · exact bne_iff_ne.1 (List.all_eq_true.1 hall f hf) (beq_iff_eq.1 hk)
      · unfold RegRow.at? at hat
        split at hat
        · exact Bool.false_ne_true hat
        · next hle =>
          simp only [hoff (not_lt.1 hle)] at hat
          split at hat
          · next hin => exact hout hin.2
          · exact Bool.false_ne_true hat
    rw [hnone]
    rfl

theorem bankWord_offset {base u : Nat} (hb : base % 0x10000 = 0) : (base + 0x10 + u * 0x10000) % 0x10000 = 0x10 := by omega

theorem shMask_bankAddr (b : Bank) : shMask (bankAddr b) = 0 := by
  have hbase : (bankWindow b).1 % 0x10000 = 0 := by cases b <;> simp [bankWindow]
  obtain ⟨ha, -⟩ := bankAddr_window b
  rw [ha]
  exact shMask_eq_zero_of_offset (bankWord_offset hbase)

/-- An accepted write of a BLOCK_BANK. -/
theorem regAccess_bank {i : Initiator} {b : Bank} {v : Word} {s : State} (hA : Accepted i (bankAddr b) v s) :
    regAccess i (bankAddr b) v s = bankWrite (bankAddr b) v (hartActs i s) := by
  obtain ⟨hb, hr, hp⟩ := bankAddr_place b
  obtain ⟨r, hrow⟩ := Option.isSome_iff_exists.1 (regRow?_bankAddr b)
  rw [regAccess_eq hA.1 hA.2 hr hp]
  unfold regWrite
  rw [hrow]
  exact if_pos hb

section
variable {b : Nat} {v : Word} {s : State}

/-- The state in which the fields of BLOCK_BANK are stored. -/
def bankStored (b : Nat) (v : Word) (s : State) : State :=
  let s := (s.wr (bankRdsel b) (fieldOf v 7 1)).wr (bankBoundary b) (fieldOf v 0 3)
  let s := if fieldOf v 9 1 = 1 then s.put (bankLate b) false else s
  if fieldOf v 8 1 = 1 then s.put (bankWpend b) false else s

theorem bankWrite_eq (b : Nat) (v : Word) (s : State) :
    bankWrite b v s =
      let t := if fieldOf v 4 1 = 1 then bankWithdraw b (bankStored b v s) else bankStored b v s
      if fieldOf v 3 1 = 1 ∧ (t.bank b).phase = .idle then bankRequest b t else t := rfl

/-- The fields of BLOCK_BANK that its own part of the state shows do not matter to one that is read below them. -/
theorem put_rd_low (r : RF) (x : Bool) {q : RF} (h : r.lo + r.w ≤ 64) (h' : q.lo + q.w ≤ r.lo) : (s.put r x).rd q = s.rd q :=
  rd_put_other s x h (by omega) (Or.inr (Or.inr h'))

theorem bankStored_rd {q : RF} (h : q.lo + q.w ≤ 8) :
    (bankStored b v s).rd q = ((s.wr (bankRdsel b) (fieldOf v 7 1)).wr (bankBoundary b) (fieldOf v 0 3)).rd q := by
  have h8 : (bankWpend b).lo = 8 ∧ (bankWpend b).w = 1 := ⟨rfl, rfl⟩
  have h9 : (bankLate b).lo = 9 ∧ (bankLate b).w = 1 := ⟨rfl, rfl⟩
  unfold bankStored
  dsimp only
  split
  · rw [put_rd_low _ _ (by omega) (by omega)]
    split
    · exact put_rd_low _ _ (by omega) (by omega)
    · rfl
  · split
    · exact put_rd_low _ _ (by omega) (by omega)
    · rfl

theorem bankStored_boundary : (bankStored b v s).rd (bankBoundary b) = fieldOf v 0 3 := by
  rw [bankStored_rd le_of_eval, rd_wr_same _ _ le_of_eval]
  exact Nat.mod_eq_of_lt (fieldOf_lt _ _ _)

theorem bankStored_rdsel : (bankStored b v s).bit (bankRdsel b) = (fieldOf v 7 1 == 1) := by
  have h : fieldOf v 7 1 < 2 := fieldOf_lt v 7 1
  rw [bit_eq, bankStored_rd le_of_eval, rd_wr_other _ _ le_of_eval le_of_eval (Or.inr (Or.inl le_of_eval)), rd_wr_same _ _ le_of_eval]
  show (fieldOf v 7 1 % 2 != 0) = _
  generalize fieldOf v 7 1 = n at h
  interval_cases n <;> rfl

/-- Storing the fields of BLOCK_BANK changes its register alone. -/
theorem bankStored_regs (b : Nat) (v : Word) (s : State) : OnlyRegs [b] s (bankStored b v s) := by
  have hb : b ∈ [b] := List.mem_singleton_self b
  have h : OnlyRegs [b] s ((s.wr (bankRdsel b) (fieldOf v 7 1)).wr (bankBoundary b) (fieldOf v 0 3)) := onlyRegs_wr (onlyRegs_wr onlyRegs_refl hb) hb
  have h9 := onlyRegs_ite (c := fieldOf v 9 1 = 1) (onlyRegs_put (r := bankLate b) (b := false) h hb) h
  exact onlyRegs_ite (onlyRegs_put (r := bankWpend b) (b := false) h9 hb) h9

theorem bankStored_bank {n : Nat} : (bankStored b v s).bank n = s.bank n := by
  rw [(bankStored_regs b v s).1]
  rfl

/-! #### A request (R41) -/

/-- The state in which a request stands, but for what BLOCK_BANK shows of it. -/
def bankAsked (b : Nat) (s : State) : State :=
  let k := bankKind b (s.rd (bankBoundary b))
  let ch := bankUnit b
  let atEn := s.bit ⟨b + 8, 48, 1⟩
  let at_ := s.rd ⟨b + 8, 0, 48⟩
  let late := k == 1 && atEn && decide (0 < s.bseq ch) && decide (at_ ≤ s.lastB ch)
  let s := s.setBank b { phase := .waiting, kind := k, atEn := atEn, at_ := at_, late := late, seq := s.bseq ch }
  if k = 2 then { s with sch := { s.sch with refilled := [] } } else s

theorem bankAsked_bank : ((bankAsked b s).bank b).phase = .waiting ∧ ((bankAsked b s).bank b).kind = bankKind b (s.rd (bankBoundary b)) := by
  unfold bankAsked
  dsimp only
  split
  · exact ⟨congrArg BankSt.phase (bank_setBank s b _), congrArg BankSt.kind (bank_setBank s b _)⟩
  · rw [bank_setBank]
    exact ⟨rfl, rfl⟩

theorem bankAsked_reg (a : Nat) : (bankAsked b s).reg a = s.reg a := by
  unfold bankAsked
  dsimp only
  split <;> rfl

theorem bankAsked_shadow : (bankAsked b s).shadow = s.shadow := by
  unfold bankAsked
  dsimp only
  split <;> rfl

/-- A request for a master tick counts the refills anew. -/
theorem bankAsked_refilled (h : bankKind b (s.rd (bankBoundary b)) = 2) : (bankAsked b s).sch.refilled = [] := by
  unfold bankAsked
  dsimp only
  rw [if_pos h]

/-- A request shows PENDING, and LATE where its frame has passed. -/
theorem bankRequest_eq (hk : bankKind b (s.rd (bankBoundary b)) ≠ 3) :
    ∃ late, bankRequest b s =
      if late = true then ((bankAsked b s).put (bankPending b) true).put (bankLate b) true else (bankAsked b s).put (bankPending b) true := by
  unfold bankRequest
  dsimp only
  rw [if_neg hk]
  exact ⟨_, rfl⟩

theorem bankRequest_regs (hk : bankKind b (s.rd (bankBoundary b)) ≠ 3) : OnlyRegs [b] (bankAsked b s) (bankRequest b s) := by
  have hb : b ∈ [b] := List.mem_singleton_self b
  have h : OnlyRegs [b] (bankAsked b s) ((bankAsked b s).put (bankPending b) true) := onlyRegs_put onlyRegs_refl hb
  obtain ⟨late, e⟩ := bankRequest_eq hk
  rw [e]
  exact onlyRegs_ite (onlyRegs_put h hb) h

theorem bankRequest_pending (hk : bankKind b (s.rd (bankBoundary b)) ≠ 3) : (bankRequest b s).bit (bankPending b) = true := by
  have h : ((bankAsked b s).put (bankPending b) true).bit (bankPending b) = true := bit_put_same _ _ le_of_eval rfl
  obtain ⟨late, e⟩ := bankRequest_eq hk
  rw [e]
  split
  · rw [bit_put_other _ _ le_of_eval le_of_eval (Or.inr (Or.inr le_of_eval)), h]
  · exact h

/-- BOUNDARY reads as it did. -/
theorem bankRequest_boundary (hk : bankKind b (s.rd (bankBoundary b)) ≠ 3) : (bankRequest b s).rd (bankBoundary b) = s.rd (bankBoundary b) := by
  have h : ((bankAsked b s).put (bankPending b) true).rd (bankBoundary b) = s.rd (bankBoundary b) :=
    (put_rd_low _ _ le_of_eval le_of_eval).trans (rd_congr (bankAsked_reg _))
  obtain ⟨late, e⟩ := bankRequest_eq hk
  rw [e]
  split
  · rw [put_rd_low _ _ le_of_eval le_of_eval, h]
  · exact h

/-- RDSEL reads as it did. -/
theorem bankRequest_rdsel (hk : bankKind b (s.rd (bankBoundary b)) ≠ 3) : (bankRequest b s).bit (bankRdsel b) = s.bit (bankRdsel b) := by
  have h : ((bankAsked b s).put (bankPending b) true).bit (bankRdsel b) = s.bit (bankRdsel b) :=
    (bit_put_other _ _ le_of_eval le_of_eval (Or.inr (Or.inl le_of_eval))).trans (bit_congr (bankAsked_reg _))
  obtain ⟨late, e⟩ := bankRequest_eq hk
  rw [e]
  split
  · rw [bit_put_other _ _ le_of_eval le_of_eval (Or.inr (Or.inr le_of_eval)), h]
  · exact h

theorem bank_congr {s t : State} (h : t.cfg = s.cfg) (n : Nat) : t.bank n = s.bank n := by
  unfold State.bank
  rw [h]

/-- A request whose boundary is a master tick waits until every level has refilled. -/
theorem bankDue_masterTick (hk : (s.bank b).kind = 2) (hr : s.sch.refilled = []) : bankDue s b = false := by
  have hm : masterTick s = false := by
    unfold masterTick
    rw [hr]
    rfl
  unfold bankDue
  simp [hk, hm]

end

section
variable {i : Initiator} {b : Bank} {v : Word} {s : State}

/-- BANK_SWAP_REQUEST on an idle bank (R41). -/
theorem bankSwapRequest_waits (hA : Accepted i (bankAddr b) (withField v ⟨0, 3, 1⟩ 1) s) (hc : fieldOf v 4 1 = 0)
    (hi : (s.bank (bankAddr b)).phase = .idle) (hk : bankKind (bankAddr b) (fieldOf v 0 3) ≠ 3) :
    Gives (.bankSwapRequest i b v) s fun t =>
      (t.bank (bankAddr b)).phase = .waiting ∧ (t.bank (bankAddr b)).kind = bankKind (bankAddr b) (fieldOf v 0 3) ∧
      t.bit (bankPending (bankAddr b)) = true ∧ t.rd (bankBoundary (bankAddr b)) = fieldOf v 0 3 ∧
      t.bit (bankRdsel (bankAddr b)) = (fieldOf v 7 1 == 1) ∧ (∀ a, a ≠ bankAddr b → t.reg a = s.reg a) ∧ t.shadow = s.shadow ∧
      (bankKind (bankAddr b) (fieldOf v 0 3) = 2 → bankDue t (bankAddr b) = false) := by
  have hgo : fieldOf (withField v ⟨0, 3, 1⟩ 1) 3 1 = 1 := fieldOf_setField_same v (by decide) 1
  have hf : ∀ lo w, lo + w ≤ 3 ∨ 4 ≤ lo → lo + w ≤ 64 → fieldOf (withField v ⟨0, 3, 1⟩ 1) lo w = fieldOf v lo w :=
    fun lo w hd h => fieldOf_setField_disj v (by decide) h 1 (by simp only; omega)
  have h : exec (.bankSwapRequest i b v) s = .next _ := congrArg Host.Outcome.next (regAccess_bank hA)
  generalize withField v ⟨0, 3, 1⟩ 1 = w at h hgo hf
  have hbank : ∀ n, (bankStored (bankAddr b) w (hartActs i s)).bank n = s.bank n := fun n =>
    bankStored_bank.trans (bank_congr (hartActs_cfg i s) n)
  have hreg : ∀ a, a ≠ bankAddr b → (bankStored (bankAddr b) w (hartActs i s)).reg a = s.reg a := fun a ha =>
    (onlyRegs_reg (bankStored_regs _ _ _) (by simpa using ha)).trans (hartActs_reg i s a)
  have hbd : (bankStored (bankAddr b) w (hartActs i s)).rd (bankBoundary (bankAddr b)) = fieldOf v 0 3 :=
    bankStored_boundary.trans (hf 0 3 (by decide) (by decide))
  have hsel : (bankStored (bankAddr b) w (hartActs i s)).bit (bankRdsel (bankAddr b)) = (fieldOf v 7 1 == 1) :=
    bankStored_rdsel.trans (by rw [hf 7 1 (by decide) (by decide)])
  have hsh : (bankStored (bankAddr b) w (hartActs i s)).shadow = s.shadow := by
    rw [onlyRegs_shadow (bankStored_regs _ _ _), hartActs_eq]
  rw [bankWrite_eq, hf 4 1 (by decide) (by decide), hc] at h
  simp only [zero_ne_one, ↓reduceIte, hgo, hbank, hi, and_self] at h
  generalize bankStored (bankAddr b) w (hartActs i s) = u at h hreg hbd hsel hsh
  rw [← hbd] at hk ⊢
  have hr := bankRequest_regs hk
  have hb := bankAsked_bank (b := bankAddr b) (s := u)
  refine ⟨_, h, ?_, ?_, bankRequest_pending hk, bankRequest_boundary hk, (bankRequest_rdsel hk).trans hsel, fun a ha => ?_, ?_, fun h2 => ?_⟩
  · rw [bank_congr (onlyRegs_cfg hr), hb.1]
  · rw [bank_congr (onlyRegs_cfg hr), hb.2]
  · rw [onlyRegs_reg hr (by simpa using ha), bankAsked_reg, hreg a ha]
  · rw [onlyRegs_shadow hr, bankAsked_shadow, hsh]
  · exact bankDue_masterTick (by rw [bank_congr (onlyRegs_cfg hr), hb.2, h2]) (by rw [onlyRegs_sch hr, bankAsked_refilled h2])

/-- BANK_CANCEL on a bank that waits (R42). -/
theorem bankCancel_withdraws (hA : Accepted i (bankAddr b) (withField v ⟨0, 4, 1⟩ 1) s) (hc : fieldOf v 3 1 = 0)
    (hw : (s.bank (bankAddr b)).phase = .waiting) (hg : blkOf (bankAddr b) ≠ blkGCL) :
    Gives (.bankCancel i b v) s fun t =>
      t.bank (bankAddr b) = {} ∧ t.bit (bankPending (bankAddr b)) = false ∧ (∀ a, a ≠ bankAddr b → t.reg a = s.reg a) ∧
      t.shadow = s.shadow := by
  have hgo : fieldOf (withField v ⟨0, 4, 1⟩ 1) 4 1 = 1 := fieldOf_setField_same v (by decide) 1
  have h3 : fieldOf (withField v ⟨0, 4, 1⟩ 1) 3 1 = 0 := (fieldOf_setField_disj v (by decide) (by decide) 1 (by decide)).trans hc
  have h : exec (.bankCancel i b v) s = .next _ := congrArg Host.Outcome.next (regAccess_bank hA)
  generalize withField v ⟨0, 4, 1⟩ 1 = w at h hgo h3
  have hbank : (bankStored (bankAddr b) w (hartActs i s)).bank (bankAddr b) = s.bank (bankAddr b) :=
    bankStored_bank.trans (bank_congr (hartActs_cfg i s) _)
  have hdraw : bankWithdraw (bankAddr b) (bankStored (bankAddr b) w (hartActs i s)) =
      ((bankStored (bankAddr b) w (hartActs i s)).setBank (bankAddr b) {}).put (bankPending (bankAddr b)) false := by
    unfold bankWithdraw
    rw [hbank, if_pos hw]
    exact if_neg hg
  rw [bankWrite_eq, hgo, h3, hdraw] at h
  simp only [zero_ne_one, false_and, ↓reduceIte] at h
  refine ⟨_, h, bank_setBank _ _ _, bit_put_same _ _ le_of_eval rfl, fun a ha => ?_, ?_⟩
  · refine (reg_put_ne (r := bankPending (bankAddr b)) _ _ ha).trans ((reg_setBank _ _ _ _).trans ?_)
    exact (onlyRegs_reg (bankStored_regs _ _ _) (by simpa using ha)).trans (hartActs_reg i s a)
  · show (bankStored (bankAddr b) w (hartActs i s)).shadow = s.shadow
    rw [onlyRegs_shadow (bankStored_regs _ _ _), hartActs_eq]
end

/-! #### The exchange of the banks and the shadow copy (R41) -/

/-- No register has SH fields beyond its 64 bits. -/
theorem shMask_lt (a : Nat) : shMask a < 2 ^ 64 := by
  have h : regRows.all (fun r => decide ((r.fields.filter (·.kind == .sh)).foldl (fun m f => m ||| ((2 ^ f.w - 1) * 2 ^ f.lo)) 0 < 2 ^ 64)) =
      true := by decide +kernel
  unfold shMask
  split
  · decide
  · next r hr => exact of_decide_eq_true (List.all_eq_true.1 h r (List.mem_of_find?_eq_some hr))

/-- Each bit of a merged word comes from one of the two. -/
theorem testBit_mergeMask {m : Nat} (hm : m < 2 ^ 64) (u v : Word) {i : Nat} (hi : i < 64) :
    (mergeMask m u v).toNat.testBit i = if m.testBit i then v.toNat.testBit i else u.toNat.testBit i := by
  unfold mergeMask
  rw [BitVec.toNat_ofNat, Nat.testBit_mod_two_pow, Nat.testBit_or, Nat.testBit_and, Nat.testBit_and,
    show 2 ^ 64 - 1 - m = 2 ^ 64 - (m + 1) by omega, Nat.testBit_two_pow_sub_succ hm]
  cases m.testBit i <;> simp [hi]

theorem word_eq_of_testBit {u v : Word} (h : ∀ i < 64, u.toNat.testBit i = v.toNat.testBit i) : u = v := by
  refine BitVec.eq_of_toNat_eq (Nat.eq_of_testBit_eq fun i => ?_)
  by_cases hi : i < 64
  · exact h i hi
  · have hlt : ∀ w : Word, w.toNat.testBit i = false := fun w =>
      Nat.testBit_lt_two_pow (lt_of_lt_of_le w.isLt (Nat.pow_le_pow_right (by decide) (by omega)))
    rw [hlt u, hlt v]

theorem mergeMask_zero (u v : Word) : mergeMask 0 u v = u :=
  word_eq_of_testBit fun i hi => by rw [testBit_mergeMask (by decide) u v hi, Nat.zero_testBit, if_neg Bool.false_ne_true]

theorem mergeMask_same {m : Nat} (hm : m < 2 ^ 64) (u : Word) : mergeMask m u u = u :=
  word_eq_of_testBit fun i hi => by rw [testBit_mergeMask hm u u hi, ite_self]

theorem mergeMask_twice {m : Nat} (hm : m < 2 ^ 64) (u v : Word) : mergeMask m (mergeMask m u v) v = mergeMask m u v :=
  word_eq_of_testBit fun i hi => by
    rw [testBit_mergeMask hm _ v hi, testBit_mergeMask hm u v hi]
    split <;> rfl

theorem mem_eraseDups_loop_of {as bs : List Nat} {x : Nat} (h : x ∈ as ∨ x ∈ bs) : x ∈ List.eraseDupsBy.loop (· == ·) as bs := by
  induction as generalizing bs with
  | nil => simpa [List.eraseDupsBy.loop] using h
  | cons a as ih =>
    unfold List.eraseDupsBy.loop
    split
    · next hany =>
      refine ih (h.elim (fun hx => (List.mem_cons.1 hx).elim (fun e => Or.inr ?_) Or.inl) Or.inr)
      simpa [e] using hany
    · refine ih (h.elim (fun hx => (List.mem_cons.1 hx).elim (fun e => Or.inr ?_) Or.inl) fun hx => Or.inr (List.mem_cons_of_mem _ hx))
      rw [e]
      exact List.mem_cons_self

/-- A register of a bank that is not among the bank's keys is listed nowhere, so that both banks hold its reset value. -/
theorem unlisted_of_not_mem_bankKeys {s : State} {a b : Nat} (hb : bankOf a = some b) (h : a ∉ bankKeys s b) : s.shReg a = s.reg a := by
  have hn : a ∉ s.regs.map (·.1) ++ s.shadow.map (·.1) := fun hm => h (by
    unfold bankKeys List.eraseDups List.eraseDupsBy
    exact mem_eraseDups_loop_of (Or.inl (List.mem_filter.2 ⟨hm, by simp [hb]⟩)))
  simp only [List.mem_append, not_or] at hn
  have hd : ∀ m : SMap Word, a ∉ m.map (·.1) → SMap.get regReset m a = regReset a := fun m hm => by
    by_contra hc
    exact hm (List.mem_map_of_mem (SMap.mem_of_get regReset m a hc))
  exact (hd _ hn.2).trans (hd _ hn.1).symm

section
variable {b : Nat} {s : State}

/-- One register's SH fields exchanged, as they stood before the exchange. -/
def exchangeStep (o t : State) (a : Nat) : State :=
  if shMask a = 0 then t
  else (t.setReg a (mergeMask (shMask a) (o.reg a) (o.shReg a))).setSh a (mergeMask (shMask a) (o.shReg a) (o.reg a))

theorem exchangeBanks_eq (b : Nat) (s : State) : exchangeBanks b s =
    ((bankKeys s b).foldl (exchangeStep s) s).wr (bankActive b) (1 - ((bankKeys s b).foldl (exchangeStep s) s).rd (bankActive b)) := rfl

theorem shReg_setSh_same (s : State) (a : Nat) (v : Word) : (s.setSh a v).shReg a = v := SMap.get_set_same _ _ _ _

theorem shReg_setSh_ne (s : State) {a x : Nat} (v : Word) (h : x ≠ a) : (s.setSh a v).shReg x = s.shReg x := SMap.get_set_ne _ _ _ _ _ h

theorem exchangeStep_at {o t : State} {x a : Nat} :
    (exchangeStep o t x).reg a = (if a = x ∧ shMask x ≠ 0 then mergeMask (shMask a) (o.reg a) (o.shReg a) else t.reg a) ∧
      (exchangeStep o t x).shReg a = if a = x ∧ shMask x ≠ 0 then mergeMask (shMask a) (o.shReg a) (o.reg a) else t.shReg a := by
  unfold exchangeStep
  by_cases hm : shMask x = 0
  · rw [if_pos hm, if_neg (fun h => h.2 hm), if_neg (fun h => h.2 hm)]
    exact ⟨rfl, rfl⟩
  · rw [if_neg hm, reg_setSh]
    by_cases ha : a = x
    · subst ha
      rw [reg_setReg_same, shReg_setSh_same, if_pos ⟨rfl, hm⟩, if_pos ⟨rfl, hm⟩]
      exact ⟨rfl, rfl⟩
    · rw [reg_setReg_ne _ _ ha, shReg_setSh_ne _ _ ha, shReg_setReg, if_neg (fun h => ha h.1), if_neg (fun h => ha h.1)]
      exact ⟨rfl, rfl⟩

/-- The registers listed take each other's SH fields; every other register keeps its own. -/
theorem exchange_at (l : List Nat) {o t : State} {a : Nat} :
    (l.foldl (exchangeStep o) t).reg a =
        (if a ∈ l ∧ shMask a ≠ 0 then mergeMask (shMask a) (o.reg a) (o.shReg a) else t.reg a) ∧
      (l.foldl (exchangeStep o) t).shReg a = if a ∈ l ∧ shMask a ≠ 0 then mergeMask (shMask a) (o.shReg a) (o.reg a) else t.shReg a := by
  induction l generalizing t with
  | nil => simp
  | cons x l ih =>
    obtain ⟨h1, h2⟩ := exchangeStep_at (o := o) (t := t) (x := x) (a := a)
    rw [List.foldl_cons, ih.1, ih.2, h1, h2]
    by_cases ha : a = x
    · subst ha
      by_cases hm : shMask a = 0 <;> by_cases hl : a ∈ l <;> simp [hm, hl]
    · simp [ha]

/-- An exchange exchanges every SH field of the bank. -/
theorem exchangeBanks_at {a : Nat} (hb : bankOf a = some b) :
    ((bankKeys s b).foldl (exchangeStep s) s).reg a = mergeMask (shMask a) (s.reg a) (s.shReg a) ∧
      ((bankKeys s b).foldl (exchangeStep s) s).shReg a = mergeMask (shMask a) (s.shReg a) (s.reg a) := by
  obtain ⟨h1, h2⟩ := exchange_at (bankKeys s b) (o := s) (t := s) (a := a)
  rw [h1, h2]
  by_cases hm : shMask a = 0
  · rw [hm, if_neg (by simp), if_neg (by simp), mergeMask_zero, mergeMask_zero]
    exact ⟨rfl, rfl⟩
  · by_cases hk : a ∈ bankKeys s b
    · rw [if_pos ⟨hk, hm⟩, if_pos ⟨hk, hm⟩]
      exact ⟨rfl, rfl⟩
    · rw [if_neg (fun h => hk h.1), if_neg (fun h => hk h.1), unlisted_of_not_mem_bankKeys hb hk, mergeMask_same (shMask_lt a)]
      exact ⟨rfl, rfl⟩

/-- A register outside the bank keeps both its values, and so does one without SH fields. -/
theorem exchangeBanks_off {a : Nat} (h : bankOf a ≠ some b ∨ shMask a = 0) :
    ((bankKeys s b).foldl (exchangeStep s) s).reg a = s.reg a ∧ ((bankKeys s b).foldl (exchangeStep s) s).shReg a = s.shReg a := by
  obtain ⟨h1, h2⟩ := exchange_at (bankKeys s b) (o := s) (t := s) (a := a)
  have hn : ¬ (a ∈ bankKeys s b ∧ shMask a ≠ 0) := fun hc => h.elim (fun h => h (mem_bankKeys hc.1)) hc.2
  rw [h1, h2, if_neg hn, if_neg hn]
  exact ⟨rfl, rfl⟩

/-- A swap that takes place outside GCL: the exchange, and the copy begins. -/
theorem swapBank_eq (hg : blkOf b ≠ blkGCL) :
    swapBank b s = (exchangeBanks b s).setBank b { (exchangeBanks b s).bank b with phase := .copying } := if_neg hg

/-- The shadow takes one register's SH fields from the active bank. -/
def copyStep (t : State) (a : Nat) : State :=
  if shMask a = 0 then t else t.setSh a (mergeMask (shMask a) (t.shReg a) (t.reg a))

theorem bankCopied_eq (h : (s.bank b).phase = .copying) :
    bankCopied b s = (((bankKeys s b).foldl copyStep s).setBank b {}).put (bankPending b) false := if_pos h

theorem copy_reg (l : List Nat) {t : State} (a : Nat) : (l.foldl copyStep t).reg a = t.reg a := by
  induction l generalizing t with
  | nil => rfl
  | cons x l ih =>
    rw [List.foldl_cons, ih]
    unfold copyStep
    split <;> rfl

/-- The registers listed have their SH fields in the shadow as in effect. -/
theorem copy_shReg (l : List Nat) {t : State} {a : Nat} :
    (l.foldl copyStep t).shReg a = if a ∈ l then mergeMask (shMask a) (t.shReg a) (t.reg a) else t.shReg a := by
  induction l generalizing t with
  | nil => simp
  | cons x l ih =>
    have hreg : (copyStep t x).reg a = t.reg a := copy_reg [x] a
    have hx : (copyStep t x).shReg a = if a = x then mergeMask (shMask a) (t.shReg a) (t.reg a) else t.shReg a := by
      unfold copyStep
      by_cases ha : a = x
      · subst ha
        rw [if_pos rfl]
        by_cases hm : shMask a = 0
        · rw [if_pos hm, hm, mergeMask_zero]
        · rw [if_neg hm, shReg_setSh_same]
      · rw [if_neg ha]
        split
        · rfl
        · exact shReg_setSh_ne _ _ ha
    rw [List.foldl_cons, ih, hx, hreg]
    by_cases ha : a = x
    · simp only [ha, ↓reduceIte, List.mem_cons, true_or, mergeMask_twice (shMask_lt x), ite_self]
    · simp only [ha, ↓reduceIte, List.mem_cons, false_or]

end

section
variable {b : Bank} {s : State}

/-- BANK_SWAP once its boundary has come (R41). -/
theorem bankSwap_exchanges (hup : isUp s = true) (hd : bankDue s (bankAddr b) = true) (hg : blkOf (bankAddr b) ≠ blkGCL) :
    Gives (.bankSwap b) s fun t =>
      (t.bank (bankAddr b)).phase = .copying ∧ t.bit (bankActive (bankAddr b)) = !s.bit (bankActive (bankAddr b)) ∧
      (∀ a, bankOf a = some (bankAddr b) → a ≠ bankAddr b →
        t.reg a = mergeMask (shMask a) (s.reg a) (s.shReg a) ∧ t.shReg a = mergeMask (shMask a) (s.shReg a) (s.reg a)) ∧
      (∀ a, bankOf a ≠ some (bankAddr b) → a ≠ bankAddr b → t.reg a = s.reg a ∧ t.shReg a = s.shReg a) := by
  have h : exec (.bankSwap b) s = .next (swapBank (bankAddr b) s) := congrArg Host.Outcome.next ((if_pos hup).trans (if_pos hd))
  have hact := bit_congr (q := bankActive (bankAddr b)) (exchangeBanks_off (b := bankAddr b) (s := s) (Or.inr (shMask_bankAddr b))).1
  rw [swapBank_eq hg, exchangeBanks_eq] at h
  have hat := fun a (ha : bankOf a = some (bankAddr b)) => exchangeBanks_at (b := bankAddr b) (s := s) ha
  have hoff := fun a (ha : bankOf a ≠ some (bankAddr b)) => exchangeBanks_off (b := bankAddr b) (s := s) (Or.inl ha)
  generalize (bankKeys s (bankAddr b)).foldl (exchangeStep s) s = u at h hact hat hoff
  have hreg : ∀ a, a ≠ bankAddr b → (u.wr (bankActive (bankAddr b)) (1 - u.rd (bankActive (bankAddr b)))).reg a = u.reg a :=
    fun a ha => reg_wr_ne (r := bankActive (bankAddr b)) _ _ ha
  refine ⟨_, h, congrArg BankSt.phase (bank_setBank _ _ _), ?_, fun a hb ha => ?_, fun a hb ha => ?_⟩
  · rw [bit_setBank, ← hact, bit_eq, rd_wr_same _ _ le_of_eval, bit_eq]
    have hlt : u.rd (bankActive (bankAddr b)) < 2 := rd_lt u (bankActive (bankAddr b))
    generalize u.rd (bankActive (bankAddr b)) = n at hlt ⊢
    interval_cases n <;> rfl
  · obtain ⟨h1, h2⟩ := hat a hb
    exact ⟨(hreg a ha).trans h1, h2⟩
  · obtain ⟨h1, h2⟩ := hoff a hb
    exact ⟨(hreg a ha).trans h1, h2⟩

/-- Where no message waits for the bank, the end of a shadow copy is the copy. -/
theorem bankCopyDone_eq (hb : ∀ k, b ≠ .ube k) : bankCopyDone b s = bankCopied (bankAddr b) s := by
  cases b with
  | ube k => exact absurd rfl (hb k)
  | _ => rfl

/-- BANK_SHADOW_COPY_DONE (R41). -/
theorem bankShadowCopyDone_idles (hup : isUp s = true) (hp : (s.bank (bankAddr b)).phase = .copying) (hb : ∀ k, b ≠ .ube k) :
    Gives (.bankShadowCopyDone b) s fun t =>
      t.bank (bankAddr b) = {} ∧ t.bit (bankPending (bankAddr b)) = false ∧
      (∀ a, bankOf a = some (bankAddr b) → t.shReg a = mergeMask (shMask a) (s.shReg a) (s.reg a)) ∧
      (∀ a, bankOf a ≠ some (bankAddr b) → t.shReg a = s.shReg a) ∧ (∀ a, a ≠ bankAddr b → t.reg a = s.reg a) := by
  have h : exec (.bankShadowCopyDone b) s = .next _ :=
    congrArg Host.Outcome.next ((if_pos hup).trans ((bankCopyDone_eq hb).trans (bankCopied_eq hp)))
  refine ⟨_, h, bank_setBank _ _ _, bit_put_same _ _ le_of_eval rfl, fun a ha => ?_, fun a ha => ?_, fun a ha => ?_⟩
  · refine (copy_shReg (bankKeys s (bankAddr b))).trans ?_
    by_cases hk : a ∈ bankKeys s (bankAddr b)
    · rw [if_pos hk]
    · rw [if_neg hk, unlisted_of_not_mem_bankKeys ha hk, mergeMask_same (shMask_lt a)]
  · exact (copy_shReg (bankKeys s (bankAddr b))).trans (if_neg fun hk => ha (mem_bankKeys hk))
  · exact (reg_put_ne (r := bankPending (bankAddr b)) _ _ ha).trans ((reg_setBank _ _ _ _).trans (copy_reg _ a))
end

/-- Settles O16: each clause by the lemma that says what its command leaves. -/
theorem bankRows : Obligations.BankRows := by
  unfold Obligations.BankRows
  exact ⟨fun i b v s hA hc hi hk => bankSwapRequest_waits hA hc hi hk, fun i b v s hA hc hw hg => bankCancel_withdraws hA hc hw hg,
    fun b s hup hd hg => bankSwap_exchanges hup hd hg,
    fun b s hup hd => ⟨s, congrArg Host.Outcome.next ((if_pos hup).trans (if_neg (by rw [hd]; decide))), rfl⟩,
    fun b s hup hp hb => bankShadowCopyDone_idles hup hp hb,
    fun b s hup hp hb => ⟨s, congrArg Host.Outcome.next ((if_pos hup).trans ((bankCopyDone_eq hb).trans (if_neg hp))), rfl⟩⟩

/-! ### Registers whose fields are all of one kind (R39, R41, R45) -/

/-- The fields of a kind, all of the register, read as written. -/
theorem storeKind_taken {a : Nat} {r : RegRow} {k : Kind} (hr : regRow? a = some r) (ha : AllOf k r) (hk : k ≠ .ro) (v u : Word) :
    TakenAs r v (storeKind k r v u) := by
  intro f hf
  obtain ⟨h1, h2⟩ := regRow_tidy hr ⟨f, hf, by rw [ha f hf]; exact hk⟩
  unfold storeKind
  exact fieldOf_fold_mem (g := fun _ f => f.clamped v) (fun x hx => h1 x (mem_filter_kind.1 hx).1) (h2.filter _)
    (mem_filter_kind.2 ⟨hf, ha f hf⟩) (fun _ _ _ => rfl) u

theorem has_of_allOf {r : RegRow} {k : Kind} (ha : AllOf k r) (hf : r.fields ≠ []) (k' : Kind) : r.has k' = decide (k' = k) := by
  unfold RegRow.has
  obtain ⟨f, hm⟩ := List.exists_mem_of_ne_nil _ hf
  rw [Bool.eq_iff_iff, List.any_eq_true, decide_eq_true_eq]
  constructor
  · rintro ⟨g, hg, e⟩
    exact (beq_iff_eq.1 e).symm.trans (ha g hg)
  · rintro rfl
    exact ⟨f, hm, beq_iff_eq.2 (ha f hm)⟩

section
variable {a : Nat} {r : RegRow} {v : Word} {s : State}

/-- A register with SX fields alone stores nothing but these. -/
theorem regStore_allSx (ha : AllOf .sx r) (hf : r.fields ≠ []) : regStore a r v s =
    if s.runs r.blk then s.setBit CFG_WWR r.blk else s.setReg a (storeKind .sx r v (s.reg a)) := by
  unfold regStore storeSt storeSh storeSx
  simp [has_of_allOf ha hf]

/-- A register with SH fields alone stores nothing but these. -/
theorem regStore_allSh {b : Nat} (ha : AllOf .sh r) (hf : r.fields ≠ []) (hb : bankOf a = some b) : regStore a r v s =
    if s.bit (bankPending b) then s.put (bankWpend b) true else s.setSh a (storeKind .sh r v (s.shReg a)) := by
  unfold regStore storeSt storeSh storeSx
  simp [has_of_allOf ha hf, hb]

/-- A register with ST fields alone stores nothing but these. -/
theorem regStore_allSt (ha : AllOf .st r) (hf : r.fields ≠ []) :
    regStore a r v s = stageReg a (storeKind .st r v ((s.stagedReg a).getD (s.reg a))) s := by
  unfold regStore storeSt storeSh storeSx
  simp [has_of_allOf ha hf]

/-- An accepted write of a register whose write sets nothing off stores its fields. -/
theorem regAccess_plain {i : Initiator} (hA : Accepted i a v s) (hR : regionOf a = .regs) (hr : regRow? a = some r) (hb : bankOf a ≠ some a)
    (hp : Plain a) (hn : a ≠ TSK_POST.addr) : regAccess i a v s = regStore a r v (hartActs i s) := by
  rw [regAccess_eq hA.1 hA.2 hR hn, regWrite_eq hr hb, hp]

theorem hartActs_kept {l : List Part} (i : Initiator) (s : State) (h : .harts ∈ l) : Kept false l (Set.univ : Set Nat) s (hartActs i s) :=
  kept_hartActs Kept.rfl_frame h

theorem hartActs_stagedReg (i : Initiator) (s : State) (a : Nat) : (hartActs i s).stagedReg a = s.stagedReg a := by
  unfold State.stagedReg
  rw [hartActs_cfg]

theorem hartActs_group (i : Initiator) (s : State) (g : Nat) : (hartActs i s).group g = s.group g := by
  unfold State.group
  rw [hartActs_cfg]

theorem hartActs_shadow (i : Initiator) (s : State) : (hartActs i s).shadow = s.shadow := by rw [hartActs_eq]

/-! #### Writes of SX, SH and ST registers -/

/-- An SX write: taken where the block is stopped, shown in CFG_WWR where it runs. -/
theorem sxWrite_rule {i : Initiator} {a : BitVec 48} (hA : Accepted i a.toNat v s) (hR : regionOf a.toNat = .regs)
    (hr : regRow? a.toNat = some r) (hb : bankOf a.toNat = none) (ha : AllOf .sx r) (hf : r.fields ≠ []) (hp : Plain a.toNat)
    (hn : a.toNat ≠ TSK_POST.addr) : Gives (.sxWrite i a v) s fun t =>
      (s.runs r.blk = false → TakenAs r v (t.reg a.toNat) ∧ (∀ b, b ≠ a.toNat → t.reg b = s.reg b)) ∧
      (s.runs r.blk = true → t.rd CFG_WWR = withBit (s.rd CFG_WWR) r.blk true % 2 ^ CFG_WWR.w ∧ ∀ b, b ≠ CFG_WWR.addr → t.reg b = s.reg b) ∧
      Frame [.regs, .harts] s t := by
  have h := (regAccess_plain hA hR hr (by rw [hb]; nofun) hp hn).trans (regStore_allSx ha hf)
  have hk := hartActs_kept (l := [.regs, .harts]) i s (by decide)
  rw [hartActs_runs] at h
  refine ⟨_, congrArg Host.Outcome.next h, ?_⟩
  cases s.runs r.blk
  case false =>
    refine ⟨fun _ => ⟨?_, fun b hne => ?_⟩, nofun, (kept_setReg hk (by decide) (Set.mem_univ _)).frame⟩
    · rw [if_neg Bool.false_ne_true, reg_setReg_same]
      exact storeKind_taken hr ha (by decide) v _
    · rw [if_neg Bool.false_ne_true, reg_setReg_ne _ _ hne, hartActs_reg]
  case true =>
    refine ⟨nofun, fun _ => ⟨?_, fun b hne => ?_⟩, (kept_st_setBit hk (by decide) (Set.mem_univ _)).frame⟩
    · refine (rd_wr_same _ _ (by decide)).trans ?_
      rw [hartActs_rd]
    · rw [if_pos rfl, reg_setBit_ne _ _ hne, hartActs_reg]

/-- An SH write: to the shadow bank, or shown in WPEND while a swap is pending. -/
theorem shWrite_rule {i : Initiator} {a : BitVec 48} {b : Nat} (hA : Accepted i a.toNat v s) (hR : regionOf a.toNat = .regs)
    (hr : regRow? a.toNat = some r) (hb : bankOf a.toNat = some b) (hba : b ≠ a.toNat) (ha : AllOf .sh r) (hf : r.fields ≠ [])
    (hp : Plain a.toNat) (hn : a.toNat ≠ TSK_POST.addr) : Gives (.shWrite i a v) s fun t =>
      (s.bit (bankPending b) = false → TakenAs r v (t.shReg a.toNat) ∧ (∀ x, x ≠ a.toNat → t.shReg x = s.shReg x) ∧ t.regs = s.regs) ∧
      (s.bit (bankPending b) = true → t.bit (bankWpend b) = true ∧ t.shadow = s.shadow ∧ ∀ x, x ≠ b → t.reg x = s.reg x) ∧
      Frame [.regs, .shadow, .harts] s t := by
  have h := (regAccess_plain hA hR hr (by rw [hb]; exact fun e => hba (Option.some.inj e)) hp hn).trans (regStore_allSh ha hf hb)
  have hk := hartActs_kept (l := [.regs, .shadow, .harts]) i s (by decide)
  rw [hartActs_bit] at h
  refine ⟨_, congrArg Host.Outcome.next h, ?_⟩
  cases s.bit (bankPending b)
  case false =>
    rw [if_neg Bool.false_ne_true]
    refine ⟨fun _ => ⟨?_, fun x hne => ?_, hartActs_regs i s⟩, nofun, (kept_setSh hk (by decide)).frame⟩
    · rw [shReg_setSh_same]
      exact storeKind_taken hr ha (by decide) v _
    · rw [shReg_setSh_ne _ _ hne, hartActs_shReg]
  case true =>
    rw [if_pos rfl]
    refine ⟨nofun, fun _ => ⟨bit_put_same _ _ le_of_eval rfl, ?_, fun x hne => ?_⟩, (kept_st_put hk (by decide) (Set.mem_univ _)).frame⟩
    · exact hartActs_shadow i s
    · rw [reg_put_ne (r := bankWpend b) _ _ hne, hartActs_reg]

/-- An ST write: staged, or shown in CFG_GRP_WDISC while its group's commit is pending; nothing for ACT's groups. -/
theorem stWrite_rule {i : Initiator} {a : BitVec 48} (hA : Accepted i a.toNat v s) (hR : regionOf a.toNat = .regs)
    (hr : regRow? a.toNat = some r) (hb : bankOf a.toNat = none) (ha : AllOf .st r) (hf : r.fields ≠ []) (hp : Plain a.toNat)
    (hn : a.toNat ≠ TSK_POST.addr) : Gives (.stWrite i a v) s fun t =>
      (groupOf a.toNat < 16 → t.cfg = s.cfg ∧ t.regs = s.regs) ∧
      (16 ≤ groupOf a.toNat → (s.group (groupOf a.toNat)).pend = false → (∃ w, t.stagedReg a.toNat = some w ∧ TakenAs r v w) ∧
        (∀ x, x ≠ a.toNat → t.stagedReg x = s.stagedReg x) ∧ t.regs = s.regs) ∧
      (16 ≤ groupOf a.toNat → (s.group (groupOf a.toNat)).pend = true → t.rd grpWdisc = withBit (s.rd grpWdisc) (groupOf a.toNat) true % 2 ^ 64 ∧
        t.cfg = s.cfg ∧ ∀ x, x ≠ CFG_GRP_WDISC.addr → t.reg x = s.reg x) ∧ Frame [.regs, .cfg, .harts] s t := by
  have h := (regAccess_plain hA hR hr (by rw [hb]; nofun) hp hn).trans (regStore_allSt ha hf)
  have hk := hartActs_kept (l := [.regs, .cfg, .harts]) i s (by decide)
  unfold stageReg at h
  rw [hartActs_group] at h
  refine ⟨_, congrArg Host.Outcome.next h, ?_⟩
  by_cases hg : groupOf a.toNat < 16
  · rw [if_pos hg]
    exact ⟨fun _ => ⟨hartActs_cfg i s, hartActs_regs i s⟩, fun h => absurd hg (Nat.not_lt.2 h), fun h => absurd hg (Nat.not_lt.2 h), hk.frame⟩
  · rw [if_neg hg]
    cases (s.group (groupOf a.toNat)).pend
    case false =>
      rw [if_neg Bool.false_ne_true]
      refine ⟨fun h => absurd h hg, fun _ _ => ⟨⟨_, stagedReg_setStagedReg _ _ _, storeKind_taken hr ha (by decide) v _⟩, fun x hne => ?_,
        hartActs_regs i s⟩, nofun, (kept_st_setStagedReg hk (by decide)).frame⟩
      rw [stagedReg_setStagedReg_ne _ _ hne, hartActs_stagedReg]
    case true =>
      rw [if_pos rfl]
      refine ⟨fun h => absurd h hg, nofun, fun _ _ => ⟨?_, hartActs_cfg i s, fun x hne => ?_⟩, (kept_st_setBit hk (by decide) (Set.mem_univ _)).frame⟩
      · refine (rd_wr_same _ _ (by decide)).trans ?_
        rw [hartActs_rd]
        rfl
      · rw [reg_setBit_ne (r := grpWdisc) _ _ hne, hartActs_reg]
end

/-! ### Consistency groups (R44, R45) -/

/-- A part that every step keeps is as it was. -/
theorem foldl_keeps {α β γ : Type} (p : β → γ) {f : β → α → β} (h : ∀ b x, p (f b x) = p b) (l : List α) (b : β) :
    p (l.foldl f b) = p b := by
  induction l generalizing b with
  | nil => rfl
  | cons x l ih => rw [List.foldl_cons, ih, h]

theorem regRow_grpCommit : regRow? CFG_GRP_COMMIT.addr =
    some ⟨0x1, 0x1000000, 1, 0x28, 1, 8, 0x0, [⟨8, 4, .wo, 0, 15⟩, ⟨7, 1, .wo, 0, 1⟩, ⟨0, 6, .wo, 0, 63⟩]⟩ := by decide +kernel

theorem regRow_grpAbort : regRow? CFG_GRP_ABORT.addr = some ⟨0x1, 0x1000000, 1, 0x30, 1, 8, 0x0, [⟨0, 6, .wo, 0, 63⟩]⟩ := by decide +kernel

section
variable {i : Initiator} {v : Word} {s : State}

theorem regAccess_grpCommit (hA : Accepted i CFG_GRP_COMMIT.addr v s) : regAccess i CFG_GRP_COMMIT.addr v s =
    commitGroup (fieldOf v 0 6) (fieldOf v 7 1 == 1) (fieldOf v 8 4) (hartActs i s) := by
  rw [regAccess_cfg hA regRow_grpCommit (by decide), regStore_none (by decide) (by decide) (by decide) (by decide)]
  unfold cfgWrite
  rw [if_neg (by decide), if_neg (by decide), if_pos rfl]

theorem regAccess_grpAbort (hA : Accepted i CFG_GRP_ABORT.addr v s) :
    regAccess i CFG_GRP_ABORT.addr v s = abortGroup (fieldOf v 0 6) (hartActs i s) := by
  rw [regAccess_cfg hA regRow_grpAbort (by decide), regStore_none (by decide) (by decide) (by decide) (by decide)]
  unfold cfgWrite
  rw [if_neg (by decide), if_neg (by decide), if_neg (by decide), if_pos rfl]

/-- GROUP_COMMIT makes the group pending. -/
theorem groupCommit_pends (hA : Accepted i CFG_GRP_COMMIT.addr v s) (hg : 16 ≤ fieldOf v 0 6)
    (hp : (s.group (fieldOf v 0 6)).pend = false) : Gives (.groupCommit i v) s fun t =>
      (t.group (fieldOf v 0 6)).pend = true ∧ (t.group (fieldOf v 0 6)).when_ = (fieldOf v 7 1 == 1) ∧
        (t.group (fieldOf v 0 6)).ch = fieldOf v 8 4 ∧
      (∀ g, g ≠ fieldOf v 0 6 → t.group g = s.group g) ∧ t.rd grpPend = withBit (s.rd grpPend) (fieldOf v 0 6) true % 2 ^ 64 ∧
      t.cfg.staged = s.cfg.staged ∧ (∀ x, x ≠ CFG_GRP_PEND.addr → t.reg x = s.reg x) := by
  have h : exec (.groupCommit i v) s = .next _ := congrArg Host.Outcome.next (regAccess_grpCommit hA)
  generalize fieldOf v 0 6 = g, (fieldOf v 7 1 == 1) = w, fieldOf v 8 4 = c at h hg hp ⊢
  unfold commitGroup requestCommit at h
  rw [if_neg (Nat.not_lt.2 hg), hartActs_group, hp, if_neg Bool.false_ne_true] at h
  have hgr := group_setGroup (hartActs i s) g { pend := true, when_ := w, ch := c, seq := (hartActs i s).bseq c }
  refine ⟨_, h, congrArg GroupSt.pend hgr, congrArg GroupSt.when_ hgr, congrArg GroupSt.ch hgr, fun j hj => ?_, ?_, ?_, fun x hx => ?_⟩
  · exact (group_setGroup_ne _ _ hj).trans (hartActs_group i s j)
  · refine (rd_wr_same _ _ (by decide)).trans ?_
    rw [rd_setGroup, hartActs_rd]
    rfl
  · show (hartActs i s).cfg.staged = s.cfg.staged
    rw [hartActs_cfg]
  · rw [reg_setBit_ne (r := grpPend) _ _ hx, reg_setGroup, hartActs_reg]

/-- The staged values of a group are those of its registers. -/
theorem mem_stagedOf_iff (hw : SMap.wf (fun _ => (none : Option Word)) s.cfg.staged = true) {a g : Nat} {w : Word} :
    (a, w) ∈ stagedOf s g ↔ s.stagedReg a = some w ∧ InGroup a g := by
  unfold stagedOf State.stagedReg
  rw [List.mem_filterMap]
  constructor
  · rintro ⟨⟨b, x⟩, hm, he⟩
    cases x with
    | none => nomatch he
    | some u =>
      dsimp only at he
      split at he
      · next hin =>
        cases he
        exact ⟨SMap.get_of_mem _ hw hm, hin⟩
      · nomatch he
  · rintro ⟨he, hin⟩
    refine ⟨(a, some w), ?_, if_pos hin⟩
    have hm := SMap.mem_of_get (fun _ => (none : Option Word)) s.cfg.staged a (by rw [he]; nofun)
    rwa [he] at hm

/-- The registers of a group with a staged value. -/
theorem mem_stagedOf_keys (hw : SMap.wf (fun _ => (none : Option Word)) s.cfg.staged = true) {a g : Nat} :
    a ∈ (stagedOf s g).map (·.1) ↔ s.stagedReg a ≠ none ∧ InGroup a g := by
  rw [List.mem_map]
  constructor
  · rintro ⟨⟨b, w⟩, hm, rfl⟩
    obtain ⟨he, hin⟩ := (mem_stagedOf_iff hw).1 hm
    exact ⟨by rw [he]; nofun, hin⟩
  · rintro ⟨hne, hin⟩
    obtain ⟨w, he⟩ := Option.ne_none_iff_exists'.1 hne
    exact ⟨(a, w), (mem_stagedOf_iff hw).2 ⟨he, hin⟩, rfl⟩

/-- Unstaging a list of registers. -/
theorem unstage_stagedReg (l : List (Nat × Word)) (s : State) (a : Nat) :
    (l.foldl (fun s e => s.setStagedReg e.1 none) s).stagedReg a = if a ∈ l.map (·.1) then none else s.stagedReg a := by
  induction l generalizing s with
  | nil => rfl
  | cons e l ih =>
    rw [List.foldl_cons, ih, List.map_cons]
    by_cases he : a = e.1
    · subst he
      rw [stagedReg_setStagedReg, ite_self, if_pos List.mem_cons_self]
    · rw [stagedReg_setStagedReg_ne _ _ he]
      simp [he]

/-- A discard leaves no staged value of the group, and those of the others as they were. -/
theorem discardStaged_stagedReg {t : State} (hw : SMap.wf (fun _ => (none : Option Word)) t.cfg.staged = true) (g a : Nat) :
    (discardStaged g t).stagedReg a = if InGroup a g then none else t.stagedReg a := by
  unfold discardStaged
  dsimp only
  refine (foldl_keeps (fun t : State => t.stagedReg a) (fun _ _ => by rfl) _ _).trans ?_
  rw [unstage_stagedReg]
  by_cases hin : InGroup a g
  · rw [if_pos hin]
    by_cases hs : t.stagedReg a = none
    · rw [hs, ite_self]
    · exact if_pos ((mem_stagedOf_keys hw).2 ⟨hs, hin⟩)
  · rw [if_neg hin, if_neg fun hm => hin ((mem_stagedOf_keys hw).1 hm).2]

theorem discardStaged_reg (g : Nat) (t : State) (a : Nat) : (discardStaged g t).reg a = t.reg a := by
  unfold discardStaged
  dsimp only
  rw [foldl_keeps (fun t : State => t.reg a) (fun t _ => reg_setStagedCtx t _ _ a),
    foldl_keeps (fun t : State => t.reg a) (fun t _ => reg_setStagedReg t _ _ a)]

theorem discardStaged_regs (g : Nat) (t : State) : (discardStaged g t).regs = t.regs := by
  unfold discardStaged
  dsimp only
  exact (foldl_keeps State.regs (fun _ _ => by rfl) _ _).trans (foldl_keeps State.regs (fun _ _ => by rfl) _ _)

/-- GROUP_ABORT. -/
theorem groupAbort_discards (hA : Accepted i CFG_GRP_ABORT.addr v s) : Gives (.groupAbort i v) s fun t =>
      (fieldOf v 0 6 < 16 ∨ (s.group (fieldOf v 0 6)).pend = true → t.cfg = s.cfg) ∧
      (16 ≤ fieldOf v 0 6 → (s.group (fieldOf v 0 6)).pend = false → SMap.wf (fun _ => (none : Option Word)) s.cfg.staged = true →
        ∀ a, t.stagedReg a = if InGroup a (fieldOf v 0 6) then none else s.stagedReg a) ∧
      t.regs = s.regs := by
  have h : exec (.groupAbort i v) s = .next _ := congrArg Host.Outcome.next (regAccess_grpAbort hA)
  generalize fieldOf v 0 6 = g at h ⊢
  unfold abortGroup at h
  rw [hartActs_group] at h
  refine ⟨_, h, ?_⟩
  by_cases hg : g < 16 ∨ (s.group g).pend = true
  · rw [if_pos hg]
    refine ⟨fun _ => hartActs_cfg i s, fun h16 hp _ => ?_, hartActs_regs i s⟩
    rcases hg with hlt | hpe
    · omega
    · rw [hp] at hpe
      exact absurd hpe Bool.false_ne_true
  · rw [if_neg hg]
    refine ⟨fun h => absurd h hg, fun _ _ hw a => ?_, (discardStaged_regs _ _).trans (hartActs_regs i s)⟩
    rw [discardStaged_stagedReg (by rwa [hartActs_cfg]), hartActs_stagedReg]

/-- Values written to registers one after another, where those of one register agree. -/
theorem setRegs_reg_mem {a : Nat} {w : Word} {l : List (Nat × Word)} (hu : ∀ e ∈ l, e.1 = a → e.2 = w) (s : State)
    (hm : (a, w) ∈ l ∨ s.reg a = w) : (l.foldl (fun s e => s.setReg e.1 e.2) s).reg a = w := by
  induction l generalizing s with
  | nil => exact hm.resolve_left List.not_mem_nil
  | cons e l ih =>
    refine ih (fun x hx => hu x (List.mem_cons_of_mem _ hx)) _ ?_
    by_cases he : e.1 = a
    · refine Or.inr ?_
      rw [← he, reg_setReg_same, hu e List.mem_cons_self he]
    · refine hm.imp (fun hm => ?_) fun hs => (reg_setReg_ne _ _ (Ne.symm he)).trans hs
      rcases List.mem_cons.1 hm with rfl | hm
      · exact absurd rfl he
      · exact hm

theorem setRegs_reg_ne {a : Nat} {l : List (Nat × Word)} (hn : a ∉ l.map (·.1)) (s : State) :
    (l.foldl (fun s e => s.setReg e.1 e.2) s).reg a = s.reg a := by
  induction l generalizing s with
  | nil => rfl
  | cons e l ih =>
    rw [List.map_cons, List.mem_cons, not_or] at hn
    rw [List.foldl_cons, ih hn.2, reg_setReg_ne _ _ hn.1]

/-- The contexts with a staged value take it. -/
def applyCtxs (l : List (Nat × Bool × Nat)) (s : State) : State :=
  l.foldl (fun s e =>
    let c := s.allocCtx e.1
    if c.dflt then s else s.setAllocCtx e.1 { c with valid := e.2.1, alloc := e.2.2 }) s

theorem applyCtxs_kept (l : List (Nat × Bool × Nat)) (s : State) :
    (applyCtxs l s).cfg = s.cfg ∧ ∀ a, (applyCtxs l s).reg a = s.reg a := by
  refine ⟨foldl_keeps State.cfg (fun t e => ?_) l s, fun a => foldl_keeps (fun t : State => t.reg a) (fun t e => ?_) l s⟩
  all_goals
    dsimp only
    split
    · rfl
    · rfl

/-- The staged registers of a group in effect. -/
def stagedApplied (g : Nat) (s : State) : State := (stagedOf s g).foldl (fun s e => s.setReg e.1 e.2) s

theorem applyStaged_eq {g : Nat} (h : 16 ≤ g) (s : State) :
    applyStaged g s = discardStaged g (applyCtxs (stagedCtxOf s g) (stagedApplied g s)) := if_neg (Nat.not_lt.2 h)

theorem stagedApplied_cfg (g : Nat) (s : State) : (stagedApplied g s).cfg = s.cfg := foldl_keeps State.cfg (fun _ _ => by rfl) _ s

/-- GROUP_COMMIT_EFFECT of a group that is not ACT's. -/
theorem groupCommitEffect_applies {g : Fin 64} (hup : isUp s = true) (hd : commitDue s g = true) (hg : 16 ≤ g.val)
    (hw : SMap.wf (fun _ => (none : Option Word)) s.cfg.staged = true) : Gives (.groupCommitEffect g) s fun t =>
      (t.group g).pend = false ∧
      (∀ a w, s.stagedReg a = some w → InGroup a g → t.reg a = w ∧ t.stagedReg a = none) ∧
      (∀ a, (s.stagedReg a = none ∨ ¬ InGroup a g) → a ≠ CFG_GRP_PEND.addr → t.reg a = s.reg a ∧ t.stagedReg a = s.stagedReg a) := by
  have h : whenUp (fun s => groupEffect g s) s = clearPend g (applyStaged g s) :=
    (if_pos hup).trans ((if_pos hd).trans (if_neg (Nat.not_lt.2 hg)))
  obtain ⟨hc, hr⟩ := applyCtxs_kept (stagedCtxOf s g) (stagedApplied g s)
  rw [stagedApplied_cfg] at hc
  have hst : ∀ a, (clearPend g (applyStaged g s)).stagedReg a = if InGroup a g then none else s.stagedReg a := fun a => by
    have he : (applyCtxs (stagedCtxOf s g) (stagedApplied g s)).stagedReg a = s.stagedReg a := by
      unfold State.stagedReg
      rw [hc]
    rw [← he, ← discardStaged_stagedReg (by rwa [hc]), ← applyStaged_eq hg]
    rfl
  have hreg : ∀ a, a ≠ CFG_GRP_PEND.addr → (clearPend g (applyStaged g s)).reg a = (stagedApplied g s).reg a := fun a ha => by
    unfold clearPend
    rw [reg_clrBit_ne (r := grpPend) _ _ ha, reg_setGroup, applyStaged_eq hg, discardStaged_reg, hr]
  refine ⟨_, congrArg Host.Outcome.next h, congrArg GroupSt.pend (group_setGroup _ _ _), fun a w hs hin => ⟨?_, ?_⟩, fun a hn ha => ⟨?_, ?_⟩⟩
  · rw [hreg a fun e => by rw [e] at hin; exact absurd hin.1 (by decide)]
    refine setRegs_reg_mem (fun e he ha => ?_) s (Or.inl ((mem_stagedOf_iff hw).2 ⟨hs, hin⟩))
    have he' := ((mem_stagedOf_iff hw).1 he).1
    rw [ha, hs] at he'
    exact (Option.some.inj he').symm
  · rw [hst, if_pos hin]
  · rw [hreg a ha]
    refine setRegs_reg_ne (fun hm => ?_) s
    obtain ⟨h1, h2⟩ := (mem_stagedOf_keys hw).1 hm
    exact hn.elim h1 fun h => h h2
  · rw [hst]
    by_cases hin : InGroup a g
    · rw [if_pos hin, hn.resolve_right (not_not_intro hin)]
    · exact if_neg hin
end

/-- Settles O15: the three kinds of write by what `regStore` comes to for them, the groups by what is staged of one. -/
theorem stagedWriteRows : Obligations.StagedWriteRows := by
  unfold Obligations.StagedWriteRows
  refine ⟨fun i a v s r hA hR hr hb ha hf hp hn => sxWrite_rule hA hR hr hb ha hf hp hn,
    fun i a v s r b hA hR hr hb hba ha hf hp hn => shWrite_rule hA hR hr hb hba ha hf hp hn,
    fun i a v s r hA hR hr hb ha hf hp hn => stWrite_rule hA hR hr hb ha hf hp hn, fun i v s hA hg => ?_,
    fun i v s hA hg hp => groupCommit_pends hA hg hp, fun g s hup hd hg hw => groupCommitEffect_applies hup hd hg hw,
    fun i v s hA => groupAbort_discards hA⟩
  exact ⟨_, congrArg Host.Outcome.next ((regAccess_grpCommit hA).trans (if_pos hg)), hartActs_cfg i s, hartActs_regs i s⟩

/-! ### Accesses (R36, R318, R319, R407) -/

section
variable {i : Initiator} {f : AccessForm} {a : Nat} {v : Word} {s : State}

/-- An accepted write of an address that is no register's goes to memory. -/
theorem busWrite_memory (hA : Accepted i a v s) (hR : regionOf a ≠ .regs) : busWrite i .word a v s = memWrite a v (hartActs i s) := by
  unfold busWrite
  simp only [hA.1, Bool.not_true, Bool.false_eq_true, ↓reduceIte, accessRefused_hartActs, hA.2, hR]

/-- A word written to SRAM reads back, and nothing else of memory changes. -/
theorem registerWrite_sram {a : BitVec 48} (hA : Accepted i a.toNat v s) (hR : regionOf a.toNat = .sram) :
    Gives (.registerWrite i .word a v) s fun t =>
      t.memWord a.toNat = v ∧ (∀ x, x < a.toNat ∨ a.toNat + 8 ≤ x → t.memByte x = s.memByte x) ∧ Frame [.mem, .ecc, .harts] s t := by
  have h : busWrite i .word a.toNat v s = (hartActs i s).setWord a.toNat v := by
    rw [busWrite_memory hA (by rw [hR]; nofun)]
    unfold memWrite
    rw [hR]
  refine ⟨_, congrArg Host.Outcome.next h, memWord_setWord _ _ _, fun x hx => ?_, ?_⟩
  · exact (memByte_setBytes_out _ _ (by rwa [length_wordBytes])).trans (hartActs_memByte i s x)
  · exact (kept_st_setWord (hartActs_kept (l := [.mem, .ecc, .harts]) i s (by decide)) (by decide) (by decide)).frame

/-- PRS and SPC act on no write, and have no bank. -/
theorem plain_prsSpc (hb : blkOf a ∈ [blkPRS, blkSPC]) : Plain a ∧ bankOf a = none ∧ a ≠ TSK_POST.addr := by
  have hp : a ≠ TSK_POST.addr := by
    rintro rfl
    exact absurd hb (by decide)
  simp only [List.mem_cons, List.not_mem_nil, or_false] at hb
  refine ⟨fun l v o s => ?_, ?_, hp⟩
  · unfold blockWrite
    rcases hb with hb | hb <;> rw [hb] <;> rfl
  · unfold bankOf
    rcases hb with hb | hb <;> rw [hb] <;> rfl

/-- A register with RW fields in a block without actions of its own takes each as written; its other fields stay. -/
theorem registerWrite_fields {a : BitVec 48} {r : RegRow} (hA : Accepted i a.toNat v s) (hR : regionOf a.toNat = .regs)
    (hr : regRow? a.toNat = some r) (hb : blkOf a.toNat ∈ [blkPRS, blkSPC]) (hrw : r.has .rw = true) (hsx : r.has .sx = false)
    (hsh : r.has .sh = false) (hst : r.has .st = false) : Gives (.registerWrite i .word a v) s fun t =>
      (∀ f ∈ r.fields, f.kind = .rw → fieldOf (t.reg a.toNat) f.lo f.w = f.clamped v % 2 ^ f.w) ∧
      (∀ f ∈ r.fields, f.kind = .ro → fieldOf (t.reg a.toNat) f.lo f.w = fieldOf (s.reg a.toNat) f.lo f.w) ∧
      (∀ b, b ≠ a.toNat → t.reg b = s.reg b) ∧ Frame [.regs, .harts] s t := by
  obtain ⟨hp, hbank, hn⟩ := plain_prsSpc hb
  have h : regAccess i a.toNat v s = (hartActs i s).setReg a.toNat (storedWord r v (s.reg a.toNat)) := by
    rw [regAccess_plain hA hR hr (by rw [hbank]; nofun) hp hn, regStore_rw (by rw [hrw, Bool.true_or]) hsx hsh hst, hartActs_reg]
    rfl
  obtain ⟨g, hg, hk⟩ := List.any_eq_true.1 hrw
  refine ⟨_, congrArg Host.Outcome.next h, fun f hf hrw => ?_, fun f hf hro => ?_, fun b hne => ?_, ?_⟩
  · rw [reg_setReg_same]
    exact stored_rw hr hf hrw v _
  · rw [reg_setReg_same]
    exact stored_other hr hf (by rw [hro]; decide) (by rw [hro]; decide) ⟨g, hg, by rw [beq_iff_eq.1 hk]; decide⟩ v _
  · rw [reg_setReg_ne _ _ hne, hartActs_reg]
  · exact (kept_setReg (hartActs_kept (l := [.regs, .harts]) i s (by decide)) (by decide) (Set.mem_univ _)).frame

/-- A write at an unoccupied address is discarded. -/
theorem regAccess_unoccupied (hA : Accepted i a v s) (hR : regionOf a = .regs) (hr : regRow? a = none) (hn : a ≠ TSK_POST.addr) :
    regAccess i a v s = hartActs i s := by
  rw [regAccess_eq hA.1 hA.2 hR hn]
  unfold regWrite
  rw [hr]

/-- Where a fault is shown already, a refused access is counted and nothing else. -/
theorem acuRefuse_shown {wr : Bool} (hv : s.bit ACU_FAULT_INFO_VALID = true) :
    acuRefuse i wr a (hartActs i s) = (hartActs i s).inc ACU_CNT_REFUSED := by
  refine if_pos ((bit_congr (reg_inc_ne _ (by decide))).trans ?_)
  rw [hartActs_bit, hv]

/-- The state in which a refused access is counted. -/
def refusalCounted (i : Initiator) (s : State) : State := (hartActs i s).inc ACU_CNT_REFUSED

theorem refusalCounted_rd :
    (refusalCounted i s).rd ACU_CNT_REFUSED = satAdd ACU_CNT_REFUSED.w (s.rd ACU_CNT_REFUSED) 1 :=
  (rd_inc_same _ (by decide)).trans (by rw [hartActs_rd]; rfl)

theorem refusalCounted_reg {b : Nat} (h : b ≠ ACU_CNT_REFUSED.addr) : (refusalCounted i s).reg b = s.reg b :=
  (reg_inc_ne _ h).trans (hartActs_reg i s b)

theorem refusalCounted_kept {l : List Part} (hr : .regs ∈ l) (hh : .harts ∈ l) :
    Kept false l (Set.univ : Set Nat) s (refusalCounted i s) :=
  kept_st_inc (hartActs_kept i s hh) hr (Set.mem_univ _)

/-! #### The bytes of a host frame (R407) -/

theorem beNat_lt (l : Bytes) : beNat l < 256 ^ l.length := by
  suffices h : ∀ n, l.foldl (fun a b => a * 256 + b.toNat) n < (n + 1) * 256 ^ l.length by simpa [beNat] using h 0
  induction l with
  | nil => simp
  | cons b l ih =>
    intro n
    have hb : b.toNat < 256 := b.isLt
    calc (b :: l).foldl (fun a b => a * 256 + b.toNat) n < (n * 256 + b.toNat + 1) * 256 ^ l.length := ih _
      _ ≤ ((n + 1) * 256) * 256 ^ l.length := Nat.mul_le_mul_right _ (by omega)
      _ = (n + 1) * 256 ^ (b :: l).length := by rw [List.length_cons, Nat.pow_succ]; ring

/-- Six bytes spell an address. -/
theorem frameAddress (fr : Bytes) : (BitVec.ofNat 48 (beAt fr 0 6)).toNat = beAt fr 0 6 := by
  rw [BitVec.toNat_ofNat]
  refine Nat.mod_eq_of_lt (lt_of_lt_of_le (beNat_lt (slice fr 0 6)) ?_)
  calc 256 ^ (slice fr 0 6).length ≤ 256 ^ 6 := Nat.pow_le_pow_right (by omega) (List.length_take_le _ _)
    _ = 2 ^ 48 := by norm_num

/-! #### Reads -/

/-- The value that a read gives to its initiator. -/
def readGives (v : Word) (s : State) : State := { s with readOut := v }

theorem readGives_reg (s : State) : (readGives v s).reg a = s.reg a := reg_mk s a
theorem readGives_rd (s : State) (q : RF) : (readGives v s).rd q = s.rd q := rd_mk s q

theorem readGives_kept {l : List Part} {o : State} (h : Kept false l (Set.univ : Set Nat) o s) (hl : .readOut ∈ l) :
    Kept false l (Set.univ : Set Nat) o (readGives v s) :=
  Kept.of_mk h (c_readOut := Or.inr hl)

theorem regValue_hartActs : regValue (hartActs i s) a = regValue s a := by
  unfold regValue
  simp only [hartActs_bit, hartActs_reg, hartActs_shReg]

/-- An RC register with its fields cleared (R6). -/
def rcCleared (a : Nat) (r : RegRow) (s : State) : State :=
  if r.has .rc then s.setReg a ((r.fields.filter (·.kind == .rc)).foldl (fun w f => setField w f.lo f.w 0) (s.reg a)) else s

/-- A read of an occupied register other than the time's latch. -/
theorem regRead_eq {r : RegRow} (hr : regRow? a = some r) (ht : a ≠ TIM_TOD_S.addr) : regRead a s = (regValue s a, rcCleared a r s) := by
  unfold regRead rcCleared
  rw [hr]
  dsimp only
  rw [if_neg ht]
  split <;> rfl

theorem regRead_none (hr : regRow? a = none) : regRead a s = (0, s) := by
  unfold regRead
  rw [hr]

/-- The RC fields read 0 after a read. -/
theorem rcCleared_rc {r : RegRow} (hr : regRow? a = some r) {f : FieldRow} (hf : f ∈ r.fields) (hk : f.kind = .rc) :
    fieldOf ((rcCleared a r s).reg a) f.lo f.w = 0 := by
  obtain ⟨h1, h2⟩ := regRow_tidy hr ⟨f, hf, by rw [hk]; decide⟩
  have hrc : r.has .rc = true := List.any_eq_true.2 ⟨f, hf, beq_iff_eq.2 hk⟩
  unfold rcCleared
  rw [if_pos hrc, reg_setReg_same]
  exact (fieldOf_fold_mem (g := fun _ _ => 0) (fun x hx => h1 x (mem_filter_kind.1 hx).1) (h2.filter _)
    (mem_filter_kind.2 ⟨hf, hk⟩) (fun _ _ _ => rfl) _).trans (Nat.zero_mod _)

theorem rcCleared_fixed {r : RegRow} (h : r.has .rc = false) : rcCleared a r s = s := if_neg (by rw [h]; exact Bool.false_ne_true)

theorem rcCleared_reg_ne {r : RegRow} {b : Nat} (h : b ≠ a) : (rcCleared a r s).reg b = s.reg b := by
  unfold rcCleared
  split
  · exact reg_setReg_ne _ _ h
  · rfl

theorem rcCleared_kept {l : List Part} {r : RegRow} {o : State} (h : Kept false l (Set.univ : Set Nat) o s) (hl : .regs ∈ l) :
    Kept false l (Set.univ : Set Nat) o (rcCleared a r s) := by
  unfold rcCleared
  split
  · exact kept_setReg h hl (Set.mem_univ _)
  · exact h

/-- A read of a register returns its value and clears its RC fields. -/
theorem busFetch_readOf {r : RegRow} (hA : Readable i a s) (hR : regionOf a = .regs) (hr : regRow? a = some r) (ht : a ≠ TIM_TOD_S.addr) :
    ∃ t, busFetch i .word a s = t ∧ ReadOf a r s t := by
  have h : busFetch i .word a s = readGives (regValue s a) (rcCleared a r (hartActs i s)) := by
    unfold busFetch
    rw [busRead_regs hA.1 hA.2 hR, regRead_eq hr ht, regValue_hartActs]
    rfl
  refine ⟨_, h, rfl, fun f hf hk => ?_, fun hrc => ?_, fun b hb => ?_, ?_⟩
  · rw [readGives_reg, rcCleared_rc hr hf hk]
  · rw [readGives_reg, rcCleared_fixed hrc, hartActs_reg]
  · rw [readGives_reg, rcCleared_reg_ne hb, hartActs_reg]
  · exact (readGives_kept (rcCleared_kept (hartActs_kept (l := [.regs, .readOut, .harts]) i s (by decide)) (by decide)) (by decide)).frame
end

/-- Settles O14: each clause by what its access comes to. -/
theorem accessRows : Obligations.AccessRows := by
  unfold Obligations.AccessRows
  refine ⟨fun i f a v s hc => ⟨_, congrArg Host.Outcome.next (busWrite_blocked hc), rfl⟩,
    fun i a v s hA hR => registerWrite_sram hA hR,
    fun i a v s r hA hR hr hb hrw hsx hsh hst => registerWrite_fields hA hR hr hb hrw hsx hsh hst,
    fun i a v s hA hR hr hn => ⟨_, congrArg Host.Outcome.next (regAccess_unoccupied hA hR hr hn), rfl⟩,
    fun i f a v s hc hr hv => ?_, fun fr s hl => ⟨_, congrArg Host.Outcome.next (if_neg hl), rfl⟩, fun fr s hl => ?_,
    fun a n s hn => ?_, fun a s r hA hR hr ht => ?_, fun c mode a s r hA hR hr ht => ?_, fun a s hA hR hr => ?_, fun a s hc hr hv => ?_⟩
  · have h : busWrite i f a.toNat v s = refusalCounted i s := (busWrite_refused hc hr).trans (acuRefuse_shown hv)
    exact ⟨_, congrArg Host.Outcome.next h, refusalCounted_rd, fun b hb => refusalCounted_reg hb,
      (refusalCounted_kept (by decide) (by decide)).frame⟩
  · refine ⟨_, congrArg Host.Outcome.next (if_pos hl), _, rfl, ?_⟩
    rw [frameAddress]
  · have hn8 : ¬ n.val = 8 := fun e => hn (Fin.ext e)
    exact ⟨_, congrArg Host.Outcome.next (if_neg hn8), rfl⟩
  · obtain ⟨t, h, hP⟩ := busFetch_readOf hA hR hr ht
    exact ⟨t, congrArg Host.Outcome.next h, hP⟩
  · obtain ⟨t, h, hP⟩ := busFetch_readOf hA hR hr ht
    exact ⟨t, congrArg Host.Outcome.next h, hP⟩
  · have h : busFetch .host .word a.toNat s = readGives 0 (hartActs .host s) := by
      unfold busFetch
      rw [busRead_regs hA.1 hA.2 hR, regRead_none hr]
      rfl
    exact ⟨_, congrArg Host.Outcome.next h, rfl,
      (readGives_kept (hartActs_kept (l := [.readOut, .harts]) .host s (by decide)) (by decide)).frame⟩
  · have h : busFetch .host .word a.toNat s = readGives 0 (refusalCounted .host s) := by
      unfold busFetch
      rw [busRead_refused hc hr, acuRefuse_shown hv]
      rfl
    refine ⟨_, congrArg Host.Outcome.next h, rfl, ?_, fun b hb => ?_, ?_⟩
    · rw [readGives_rd, refusalCounted_rd]
    · rw [readGives_reg, refusalCounted_reg hb]
    · exact (readGives_kept (refusalCounted_kept (l := [.regs, .readOut, .harts]) (by decide) (by decide)) (by decide)).frame

/-! ### Configuration records (R29 to R32) -/

section
variable {s : State}

/-- A failed boot is shown in the phase of the boot (R28). -/
theorem bootFailed_boot (s : State) : (bootFailed s).cfg.boot = .failed := rfl

/-! #### A failure (R32) -/

/-- The state in which a record's failure is noted. -/
def failureNoted (cause : Nat) (s : State) : State :=
  withCfg { s.cfg with cfgFailed := true, waiting := false }
    ((s.wr CFG_BOOT_STATUS_CFG_IDX (min 1023 s.cfg.recIdx)).setReg CFG_REC_FAIL.addr
      (BitVec.ofNat 64 (2 ^ 63 + cause * 2 ^ 20 + min 1048575 s.cfg.recIdx)))

theorem configFails_eq (cause : Nat) (s : State) : configFails cause s =
    if (failureNoted cause s).bit CFG_BOOT_STATUS_RETRY then bootFailed ((failureNoted cause s).put CFG_BOOT_STATUS_CFG_FAIL true)
    else deviceReset (withCfg { (failureNoted cause s).cfg with bootRetry := true } (failureNoted cause s)) := rfl

theorem failureNoted_retry (cause : Nat) (s : State) : (failureNoted cause s).bit CFG_BOOT_STATUS_RETRY = s.bit CFG_BOOT_STATUS_RETRY := by
  unfold failureNoted
  rw [withCfg_bit, bit_eq, rd_congr (reg_setReg_ne _ _ (by decide)),
    rd_wr_other (r := CFG_BOOT_STATUS_CFG_IDX) _ _ (by decide) (by decide) (Or.inr (by decide)), ← bit_eq]

/-- A failed record resets the device with boot_retry set, or in a retry fails the boot. -/
theorem configFails_outcome (cause : Nat) (s : State) : ConfigFailed s (configFails cause s) := by
  unfold ConfigFailed
  rw [configFails_eq, failureNoted_retry]
  split
  · exact bootFailed_boot _
  · exact ⟨resetTo_boot _ _, resetTo_bootRetry _ _⟩

/-! #### The end record (R31) -/

/-- The blocks that can emit light or frames restart as any block without work of its own to take up. -/
theorem emitterRestart_eq {n : Nat} (hn : n ∈ emitters) (ha : startAllowed s n = true) :
    blockRestart n s = if (s.rd CFG_BLK_STOPPED).testBit n then s.clrBit CFG_BLK_STOPPED n else s := by
  have hx : ∀ n ∈ emitters, n ∉ [blkACT, blkTSK, blkCAS] := by decide
  split
  · next h => exact blockRestart_eq h ha (hx n hn)
  · next h =>
    unfold blockRestart
    rw [Bool.eq_false_iff.2 h]
    rfl

/-- The restart of the emitters that CFG_BLK_RUN asks for. -/
def startEmitters (l : List Nat) (s : State) : State :=
  l.foldl (fun s n => if (s.rd CFG_BLK_RUN).testBit n then blockRestart n s else s) s

/-- The emitters asked for run, and nothing but their bits of CFG_BLK_STOPPED changes. -/
theorem startEmitters_run {l : List Nat} (hl : ∀ n ∈ l, n ∈ emitters) (ha : ∀ n, startAllowed s n = true) :
    OnlyRegs [CFG_BLK_STOPPED.addr] s (startEmitters l s) ∧
      ∀ n, ((startEmitters l s).rd CFG_BLK_STOPPED).testBit n =
        ((s.rd CFG_BLK_STOPPED).testBit n && !(decide (n ∈ l) && (s.rd CFG_BLK_RUN).testBit n)) := by
  induction l generalizing s with
  | nil => exact ⟨onlyRegs_refl, fun n => by simp [startEmitters]⟩
  | cons m l ih =>
    have hm := hl m List.mem_cons_self
    have hm64 : m < 64 := (by decide : ∀ n ∈ emitters, n < 64) m hm
    have hstep : startEmitters (m :: l) s =
        startEmitters l (if (s.rd CFG_BLK_RUN).testBit m ∧ (s.rd CFG_BLK_STOPPED).testBit m then s.clrBit CFG_BLK_STOPPED m else s) := by
      unfold startEmitters
      rw [List.foldl_cons, emitterRestart_eq hm (ha m)]
      congr 1
      split
      · next h => simp [h]
      · next h => simp [h]
    have hl' := fun n hn => hl n (List.mem_cons_of_mem _ hn)
    rw [hstep]
    by_cases hc : (s.rd CFG_BLK_RUN).testBit m ∧ (s.rd CFG_BLK_STOPPED).testBit m
    · rw [if_pos hc]
      obtain ⟨h1, h2⟩ := ih (s := s.clrBit CFG_BLK_STOPPED m) hl' fun n => ha n
      have hrun : (s.clrBit CFG_BLK_STOPPED m).rd CFG_BLK_RUN = s.rd CFG_BLK_RUN := rd_congr (reg_clrBit_ne _ _ (by decide))
      refine ⟨⟨h1.1, fun a ha => (h1.2 a ha).trans (reg_clrBit_ne _ _ (by simpa using ha))⟩, fun n => ?_⟩
      rw [h2, hrun, rd_clrBit_same (by decide) hm64, testBit_withBit]
      by_cases hn : n = m
      · subst hn
        simp [hc.1]
      · simp [hn]
    · rw [if_neg hc]
      obtain ⟨h1, h2⟩ := ih (s := s) hl' ha
      refine ⟨h1, fun n => ?_⟩
      rw [h2]
      by_cases hn : n = m
      · subst hn
        cases hr : (s.rd CFG_BLK_RUN).testBit n
        · simp
        · have hs : (s.rd CFG_BLK_STOPPED).testBit n = false := by simpa [hr] using hc
          simp [hs]
      · simp [hn]

/-- The state in which the end of the configuration is noted. -/
def configEnded (s : State) : State := withCfg { s.cfg with cfgDone := true, waiting := false } s

theorem configApplied_eq (s : State) : configApplied s = startEmitters emitters (configEnded s) := rfl

/-- The end of the configuration, in a booted device. -/
theorem configApplied_starts (hb : s.cfg.boot = .booted) :
    (configApplied s).cfg = { s.cfg with cfgDone := true, waiting := false } ∧ (configApplied s).mem = s.mem ∧
      (∀ a, a ≠ CFG_BLK_STOPPED.addr → (configApplied s).reg a = s.reg a) ∧
      ∀ n, n ∈ [blkLPH, blkUBE, blkCHP, blkMAC] → (s.rd CFG_BLK_RUN).testBit n = true → (configApplied s).runs n = true := by
  have hallow : ∀ n, startAllowed (configEnded s) n = true := fun n => by
    unfold startAllowed
    rw [show (configEnded s).cfg.boot = s.cfg.boot from rfl, hb]
    rfl
  obtain ⟨ho, hr⟩ := startEmitters_run (fun _ h => h) hallow
  rw [configApplied_eq]
  refine ⟨(onlyRegs_cfg ho).trans rfl, ?_, fun a ha => ?_, fun n hn hrun => ?_⟩
  · rw [ho.1]
    rfl
  · rw [onlyRegs_reg ho (by simpa using ha)]
    exact withCfg_reg _ _ _
  · unfold State.runs
    rw [hr, show (configEnded s).rd CFG_BLK_RUN = s.rd CFG_BLK_RUN from withCfg_rd _ _ _, hrun, decide_eq_true (show n ∈ emitters from hn)]
    simp

/-! #### One record (R29, R30) -/

section
variable {base size : Nat}

/-- A record within the section is what its operation says. -/
theorem configRecord_eq (hc : Configuring s base size) (hs : 16 * s.cfg.recIdx + 16 ≤ size) : configRecord s =
    if fieldOf (recordAt s base).1 56 8 = 1 then
      if accessRefused recInit .word true (fieldOf (recordAt s base).1 0 48) (recordAt s base).2 s then
        configFails 1 (acuRefuse recInit true (fieldOf (recordAt s base).1 0 48) s)
      else nextRecord (recAccess (busWrite recInit .word (fieldOf (recordAt s base).1 0 48) (recordAt s base).2) s)
    else if fieldOf (recordAt s base).1 56 8 = 2 then
      let r := busRead recInit .word (fieldOf (recordAt s base).1 0 48) s
      let t := recAccess (fun _ => r.2) s
      if r.1 = (recordAt s base).2 then nextRecord t else withCfg { t.cfg with waiting := true } t
    else if fieldOf (recordAt s base).1 56 8 = 3 then configApplied s
    else configFails 3 s := by
  obtain ⟨hb, hat, hd, hf⟩ := hc
  unfold configRecord
  rw [hb, hd, hf, hat]
  exact if_neg (Nat.not_lt.2 hs)

/-- Base firmware goes on in its own mode after a record's access. -/
theorem recAccess_mode (f : State → State) (s : State) : ((nextRecord (recAccess f s)).hart 0).mode = (s.hart 0).mode := by
  show (((f s).setHart 0 _).hart 0).mode = _
  rw [hart_setHart]

/-- A record beyond the section fails. -/
theorem configRecord_beyond (hc : Configuring s base size) (hs : size < 16 * s.cfg.recIdx + 16) : configRecord s = configFails 4 s := by
  obtain ⟨hb, hat, hd, hf⟩ := hc
  unfold configRecord
  rw [hb, hd, hf, hat]
  exact if_pos hs

/-- The end record. -/
theorem configRecord_end (hc : Configuring s base size) (hs : 16 * s.cfg.recIdx + 16 ≤ size) (ho : fieldOf (recordAt s base).1 56 8 = 3) :
    configRecord s = configApplied s := by
  rw [configRecord_eq hc hs, ho]
  rfl

/-- A record refused, of another kind, or beyond the section. -/
theorem configRecord_fails (hc : Configuring s base size)
    (h : size < 16 * s.cfg.recIdx + 16 ∨ fieldOf (recordAt s base).1 56 8 = 0 ∨ 3 < fieldOf (recordAt s base).1 56 8) :
    ConfigFailed s (configRecord s) := by
  rcases Nat.lt_or_ge size (16 * s.cfg.recIdx + 16) with hs | hs
  · rw [configRecord_beyond hc hs]
    exact configFails_outcome 4 s
  · have ho := h.resolve_left (Nat.not_lt.2 hs)
    rw [configRecord_eq hc hs, if_neg (by omega), if_neg (by omega), if_neg (by omega)]
    exact configFails_outcome 3 s
end

/-- A wait that times out. -/
theorem configTimeout_eq (hb : s.cfg.boot = .booted) (hw : s.cfg.waiting = true) : configTimeout s = configFails 2 s := by
  unfold configTimeout
  rw [hb, hw]
  rfl
end

/-- Settles O12: `configRecord_eq` says what a record does, `configApplied_starts` what the end of the configuration does,
`configFails_outcome` what a failure does. -/
theorem configurationRows : Obligations.ConfigurationRows := by
  unfold Obligations.ConfigurationRows
  refine ⟨fun s base size hc hs ho hr => ?_, fun s base size hc hs ho hr => ?_, fun s base size hc hs ho => ?_,
    fun s base size hc hs ho => ⟨_, congrArg Host.Outcome.next (configRecord_end hc hs ho), configApplied_starts hc.1⟩,
    fun s base size hc h => ⟨_, rfl, configRecord_fails hc h⟩,
    fun s hb hw => ⟨_, congrArg Host.Outcome.next (configTimeout_eq hb hw), configFails_outcome 2 s⟩⟩
  · have h := configRecord_eq hc hs
    rw [ho, if_pos rfl, hr, if_neg Bool.false_ne_true] at h
    exact ⟨_, congrArg Host.Outcome.next h, rfl, rfl, rfl, recAccess_mode _ s⟩
  · have h := configRecord_eq hc hs
    rw [ho, if_pos rfl, hr, if_pos rfl] at h
    refine ⟨_, congrArg Host.Outcome.next h, ?_⟩
    have hf := configFails_outcome 1 (acuRefuse recInit true (fieldOf (recordAt s base).1 0 48) s)
    unfold ConfigFailed at hf
    split at hf
    · exact Or.inl hf
    · exact Or.inr hf
  · have h := configRecord_eq hc hs
    rw [ho, if_neg (by decide), if_pos rfl] at h
    refine ⟨_, congrArg Host.Outcome.next h, ?_⟩
    dsimp only
    split
    · next he => exact ⟨fun _ => rfl, fun hn => absurd he hn, rfl⟩
    · next he => exact ⟨fun hn => absurd hn he, fun _ => rfl, rfl⟩

/-! ### What the pair's machines leave of the line's registers

The registers of LPH and DSF but LPH_TX_STATUS, which shows the Chaperone's drives, and DSF_RA_CNT, which counts the reassemblies that a
pair's machine aborts. -/

/-- Every block but LPH and DSF. -/
def offLine : List Nat := allBlocks.filter fun n => n != blkLPH && n != blkDSF

/-- A register of LPH or DSF, but LPH_TX_STATUS and DSF_RA_CNT. -/
def lineReg (a : Nat) : Prop := (blkOf a = blkLPH ∨ blkOf a = blkDSF) ∧ a % 0x10000 ≠ 0x58 ∧ a % 0x10000 ≠ 0x38

/-- Those registers are as they were. -/
def LineKept (o s : State) : Prop := ∀ a, lineReg a → s.reg a = o.reg a

theorem offLine_off {a : Nat} (h : blkOf a ∈ offLine) : ¬ lineReg a := by
  rintro ⟨hb | hb, -⟩ <;> (rw [hb] at h; exact absurd h (by decide))

section
variable {o s t : State} {k : Nat}

theorem LineKept.refl : LineKept s s := fun _ _ => rfl

theorem LineKept.trans (h : LineKept o s) (ht : LineKept s t) : LineKept o t := fun a ha => (ht a ha).trans (h a ha)

/-- What keeps to the registers of other blocks. -/
theorem LineKept.far (h : LineKept o s) (ht : Kept false allParts offLine s t) : LineKept o t :=
  h.trans fun a ha => ht.regFrame a fun hm => offLine_off hm ha

theorem LineKept.sameRegs (h : LineKept o s) (ht : ∀ a, t.reg a = s.reg a) : LineKept o t := h.trans fun a _ => ht a

theorem LineKept.setReg {a : Nat} {v : Word} (h : LineKept o s) (ha : ¬ lineReg a) : LineKept o (s.setReg a v) :=
  h.trans fun _ hx => reg_setReg_ne s v fun e => ha (e ▸ hx)

theorem LineKept.wr {r : RF} {n : Nat} (h : LineKept o s) (hr : ¬ lineReg r.addr) : LineKept o (s.wr r n) := h.setReg hr

theorem LineKept.put {r : RF} {b : Bool} (h : LineKept o s) (hr : ¬ lineReg r.addr) : LineKept o (s.put r b) := h.setReg hr

theorem LineKept.inc {r : RF} (h : LineKept o s) (hr : ¬ lineReg r.addr) : LineKept o (s.inc r) := h.setReg hr

theorem LineKept.ite {c : Prop} [Decidable c] {u : State} (ht : LineKept o t) (hu : LineKept o u) : LineKept o (if c then t else u) := by
  split <;> assumption

theorem LineKept.foldl {α : Type} {f : State → α → State} (hf : ∀ s x, LineKept o s → LineKept o (f s x)) (l : List α)
    (h : LineKept o s) : LineKept o (l.foldl f s) := by
  induction l generalizing s with
  | nil => exact h
  | cons x l ih => exact ih (hf s x h)

theorem txStatus_off : ¬ lineReg (LPH_TX_STATUS k).addr := fun h => h.2.1 (by show (0x8000058 + k % 256 * 0x10000) % 0x10000 = 0x58; omega)
theorem raCnt_off : ¬ lineReg (DSF_RA_CNT k).addr := fun h => h.2.2 (by show (0x9000038 + k % 256 * 0x10000) % 0x10000 = 0x38; omega)
theorem actState_off : ¬ lineReg (ACT_CP_STATE k).addr := offLine_off (blk_n (by decide) (by decide) (by decide))
theorem actEvt_off : ¬ lineReg (ACT_CP_EVT k).addr := offLine_off (blk_n (by decide) (by decide) (by decide))
theorem actCnt_off : ¬ lineReg (ACT_CP_CNT k).addr := offLine_off (blk_n (by decide) (by decide) (by decide))
theorem ubeStat_off : ¬ lineReg (UBE_CH_STAT k).addr := offLine_off (blk_n (by decide) (by decide) (by decide))
theorem ubeCnt_off : ¬ lineReg (UBE_CH_CNT1 k).addr := offLine_off (blk_n (by decide) (by decide) (by decide))
theorem chpCopy_off : ¬ lineReg (CHP_COPY k).addr := offLine_off (blk_n (by decide) (by decide) (by decide))
theorem chpStatus_off : ¬ lineReg (CHP_STATUS k).addr := offLine_off (blk_n (by decide) (by decide) (by decide))
theorem chpCnt_off : ¬ lineReg (CHP_CNT k).addr := offLine_off (blk_n (by decide) (by decide) (by decide))

/-! #### Operations that reach no register of LPH or DSF -/

theorem lineKept_removeBurst {k : Nat} {b : Burst} (h : LineKept o s) : LineKept o (removeBurst k b s) :=
  h.far (kept_removeBurst Kept.rfl_frame (by decide))

theorem lineKept_opsBack {b : Burst} (h : LineKept o s) : LineKept o (opsBack b s) :=
  h.far (kept_opsBack Kept.rfl_frame (by decide))

theorem lineKept_refund {x : Piece} (h : LineKept o s) : LineKept o (refund x s) :=
  h.far (kept_refund Kept.rfl_frame (by decide))

theorem lineKept_purge {k : Nat} {id : Nat} {off : Nat} (h : LineKept o s) : LineKept o (purge k id off s) :=
  h.far (kept_purge Kept.rfl_frame (by decide) (by decide))

theorem lineKept_giveBack {k : Nat} {key : Nat} {p : QPkt} (h : LineKept o s) : LineKept o (giveBack k key p s) :=
  h.far (kept_giveBack Kept.rfl_frame (by decide) (by decide) (by decide) (by decide) (by decide))

theorem lineKept_ubeShow {k : Nat} (h : LineKept o s) : LineKept o (ubeShow k s) :=
  h.far (kept_ubeShow Kept.rfl_frame (by decide) (by decide))

theorem lineKept_countOpen {k : Nat} {n : Nat} (h : LineKept o s) : LineKept o (countOpen k n s) :=
  h.far (kept_countOpen Kept.rfl_frame (by decide))

theorem lineKept_returnBurst {k : Nat} {b : Burst} (h : LineKept o s) : LineKept o (returnBurst k b s) :=
  h.far (kept_returnBurst Kept.rfl_frame (by decide) (by decide) (by decide) (by decide) (by decide) (by decide))

theorem lineKept_dropAnnounce {k : Nat} (h : LineKept o s) : LineKept o (dropAnnounce k s) :=
  h.far (kept_dropAnnounce Kept.rfl_frame (by decide) (by decide) (by decide))

theorem lineKept_klnForget {k : Nat} (h : LineKept o s) : LineKept o (klnForget k s) :=
  h.far (kept_klnForget Kept.rfl_frame (by decide) (by decide) (by decide))

theorem lineKept_releaseContexts {k : Nat} (h : LineKept o s) : LineKept o (releaseContexts k s) :=
  h.far (kept_releaseContexts Kept.rfl_frame (by decide))

theorem lineKept_forgetPair {k : Nat} (h : LineKept o s) : LineKept o (forgetPair k s) :=
  h.far (kept_forgetPair Kept.rfl_frame (by decide) (by decide) (by decide))

theorem lineKept_discardStaged {g : Nat} (h : LineKept o s) : LineKept o (discardStaged g s) :=
  h.far (kept_discardStaged Kept.rfl_frame (by decide))

theorem lineKept_clearPend {g : Nat} (h : LineKept o s) : LineKept o (clearPend g s) :=
  h.far (kept_clearPend Kept.rfl_frame (by decide) (by decide) (by decide))

theorem lineKept_takeCopy {k : Nat} (h : LineKept o s) : LineKept o (takeCopy k s) :=
  h.far (kept_takeCopy Kept.rfl_frame (by decide))

theorem lineKept_lineChange {k : Nat} {f : LineCopy → LineCopy} (h : LineKept o s) : LineKept o (lineChange k f s) :=
  h.far (kept_lineChange Kept.rfl_frame (by decide))

theorem lineKept_releaseDefault {k : Nat} (h : LineKept o s) : LineKept o (releaseDefault k s) :=
  h.far (kept_releaseDefault Kept.rfl_frame (by decide))

theorem lineKept_keyAnswer {k : Nat} (h : LineKept o s) : LineKept o (keyAnswer k s) :=
  h.far (kept_keyAnswer Kept.rfl_frame (by decide) (by decide) (by decide))

theorem lineKept_timPoll (h : LineKept o s) : LineKept o (timPoll s) :=
  h.far (kept_timPoll Kept.rfl_frame (by decide) (by decide) (by decide))

theorem lineKept_actStage {k : Nat} (h : LineKept o s) : LineKept o (actStage k s) :=
  h.far (kept_actStage Kept.rfl_frame (by decide) (by decide) (by decide) (by decide) (by decide) (by decide))

theorem lineKept_squashStream {k : Nat} {sid : Nat} (h : LineKept o s) : LineKept o (squashStream k sid s) :=
  h.far (kept_squashStream Kept.rfl_frame (by decide) (by decide) (by decide) (by decide) (by decide) (by decide) (by decide))

theorem lineKept_squashWhere {ch : Nat} {f : SpecPkt → Bool} (h : LineKept o s) : LineKept o (squashWhere ch f s) :=
  h.far (kept_squashWhere Kept.rfl_frame (by decide) (by decide) (by decide) (by decide) (by decide) (by decide) (by decide))

theorem lineKept_dropStamps {k : Nat} (h : LineKept o s) : LineKept o (dropStamps k s) :=
  h.far (kept_dropStamps Kept.rfl_frame (by decide) (by decide) (by decide) (by decide) (by decide) (by decide) (by decide) (by decide))

theorem lineKept_timLost {k : Nat} (h : LineKept o s) : LineKept o (timLost k s) :=
  h.far (kept_timLost Kept.rfl_frame (by decide))

theorem lineKept_klnHeader {k : Nat} {fc : Nat} {kiDs : Nat} {kiUs : Nat} (h : LineKept o s) : LineKept o (klnHeader k fc kiDs kiUs s) :=
  h.far (kept_klnHeader Kept.rfl_frame (by decide) (by decide) (by decide))

theorem lineKept_startFrame {k : Nat} {usable : Bool} (h : LineKept o s) : LineKept o (startFrame k usable s) :=
  h.far (kept_startFrame Kept.rfl_frame (by decide) (by decide) (by decide) (by decide) (by decide) (by decide) (by decide) (by decide) (by decide))

theorem lineKept_timHeader {k : Nat} {fc : Nat} (h : LineKept o s) : LineKept o (timHeader k fc s) :=
  h.far (kept_timHeader Kept.rfl_frame (by decide))

theorem lineKept_setPair {v : ActPair} (h : LineKept o s) : LineKept o (s.setPair k v) := h.sameRegs (reg_setPair s k v)

/-! #### The Chaperone -/

theorem lineKept_gateDown {n : Nat} (h : LineKept o s) : LineKept o (gateDown k n s) := by
  unfold gateDown
  exact .put (.put (.put (.ite (lineKept_countOpen h) h) chpStatus_off) chpStatus_off) txStatus_off

theorem lineKept_endTail (h : LineKept o s) : LineKept o (endTail k s) := by
  unfold endTail
  dsimp only
  split
  · exact LineKept.ite (lineKept_gateDown (h.sameRegs (reg_setUbeCh _ _ _))) h
  · exact h

theorem lineKept_showShutter (h : LineKept o s) : LineKept o (showShutter k s) := by
  unfold showShutter
  exact .put (.put (.put h ubeStat_off) txStatus_off) txStatus_off

theorem lineKept_cutBurst {b : Burst} (h : LineKept o s) : LineKept o (cutBurst k b s) := by
  unfold cutBurst
  refine lineKept_ubeShow (LineKept.inc (LineKept.foldl (fun t e ht => lineKept_giveBack (lineKept_purge ht)) _ ?_) ubeCnt_off)
  exact LineKept.foldl (fun t x ht => lineKept_refund ht) _ (lineKept_opsBack (lineKept_gateDown (lineKept_removeBurst h)))

theorem lineKept_cutStarted (h : LineKept o s) : LineKept o (cutStarted k s) := by
  unfold cutStarted
  split
  · exact lineKept_cutBurst h
  · exact h

theorem lineKept_chpDark (h : LineKept o s) : LineKept o (chpDark k s) := by
  unfold chpDark
  exact lineKept_showShutter (lineKept_gateDown (lineKept_cutStarted (lineKept_endTail (.put (.put h chpStatus_off) chpStatus_off))))

/-- TIME_OK follows the frame alignment. -/
def chpTimed (k : Nat) (s : State) : State := s.put (CHP_STATUS_TIME_OK k) ((s.chpCh k).phased && inSync s k)

/-- CLK_OK falls where no oscillator need run. -/
def chpClocked (k : Nat) (s : State) : State := if oscNeeded s k then s else s.put (CHP_STATUS_CLK_OK k) false

theorem chpReact_eq (k : Nat) (s : State) : chpReact k s =
    if (chpClocked k (chpTimed k s)).bit (CHP_STATUS_SHUTTER k) && !shutterConds (chpClocked k (chpTimed k s)) k then
      (chpDark k (chpClocked k (chpTimed k s))).inc (CHP_CNT_CLOSES k)
    else chpClocked k (chpTimed k s) := rfl

theorem lineKept_chpReact (h : LineKept o s) : LineKept o (chpReact k s) := by
  rw [chpReact_eq]
  have h1 : LineKept o (chpTimed k s) := by
    unfold chpTimed
    exact .put h chpStatus_off
  have h2 : LineKept o (chpClocked k (chpTimed k s)) := .ite h1 (.put h1 chpStatus_off)
  exact .ite (.inc (lineKept_chpDark h2) chpCnt_off) h2

/-! #### The pair's machine -/

theorem lineKept_ubeLeave (h : LineKept o s) : LineKept o (ubeLeave k s) := by
  unfold ubeLeave
  refine lineKept_ubeShow (LineKept.sameRegs (LineKept.foldl (fun t b ht => ?_) _ h) (reg_setUbeCh _ _ _))
  split
  · exact ht
  · exact LineKept.ite (lineKept_cutBurst ht) (LineKept.inc (lineKept_returnBurst ht) ubeCnt_off)

theorem lineKept_lineClear (h : LineKept o s) : LineKept o (lineClear k s) := by
  unfold lineClear
  refine lineKept_chpReact (lineKept_takeCopy (LineKept.put (LineKept.put ?_ chpCopy_off) chpCopy_off))
  exact lineKept_setPair (lineKept_discardStaged (lineKept_clearPend h))

theorem lineKept_abortAsm {sid : Nat} (h : LineKept o s) : LineKept o (abortAsm k sid s) := by
  unfold abortAsm
  dsimp only
  split
  · exact h
  · next x hx =>
    have h1 := h.sameRegs (reg_setDsfCh s k { s.dsfCh k with
      asm := SMap.set (fun _ => none) (s.dsfCh k).asm sid none, pm := { (s.dsfCh k).pm with fdrop := (s.dsfCh k).pm.fdrop + x.frags } })
    exact (h1.inc (r := DSF_RA_CNT_ABORT k) raCnt_off).sameRegs fun a => reg_mk _ a

theorem lineKept_clearStreams (h : LineKept o s) : LineKept o (clearStreams k s) := by
  unfold clearStreams
  exact LineKept.foldl (fun _ _ ht => lineKept_squashStream (lineKept_abortAsm (ht.sameRegs (reg_setStreamMap _ _ _)))) _ h

/-- Leaving the states with grants, and the announcement. -/
def leaveLine (k old new : Nat) (s : State) : State := if (old = 3 ∨ old = 4) ∧ ¬ (new = 3 ∨ new = 4) then ubeLeave k s else s

/-- An announcement ends. -/
def leaveAnnounce (k old new : Nat) (s : State) : State := if old = 2 ∧ new ≠ 2 then dropAnnounce k s else s

/-- The state that is entered is shown. -/
def noteState (k old new : Nat) (s : State) : State :=
  if old = new ∧ ¬ (new = 0 ∨ new = 6 ∨ new = 7) then s.wr (ACT_CP_STATE_STATE k) new
  else (s.wr (ACT_CP_STATE_STATE k) new).put (ACT_CP_EVT_STATE_CHG k) true

/-- The keys that wait are forgotten where the pair is no longer active. -/
def forgetWaits (k new : Nat) (s : State) : State := if new ≤ 1 ∨ 6 ≤ new then s.setPair k { s.pair k with keyWaits := [] } else s

/-- What a change of state does before the new state's own work. -/
def leaveState (k old new : Nat) (s : State) : State := forgetWaits k new (noteState k old new (leaveAnnounce k old new (leaveLine k old new s)))

/-- The timers of a pair stop. -/
def timersOff (k : Nat) (s : State) : State := s.setPair k { s.pair k with tAsg := none, tRng := none, tInt := none, hold := none }

/-- The work of a state with neither activation nor line. -/
def becomeIdle (k new : Nat) (s : State) : State :=
  let s := klnForget k (releaseContexts k (clearStreams k (forgetPair k (timersOff k s))))
  let s := lineClear k s
  if new = 0 then
    let s := s.put (ACT_CP_STATE_PARAMS_OK k) false
    s.setPair k { s.pair k with mseq := [], heCand := none }
  else s

/-- The work of the state that listens. -/
def becomeListening (k old : Nat) (s : State) : State :=
  let s := timersOff k (s.wr (ACT_CP_STATE_HE_ID k) (s.pair k).heLast)
  let s := s.setPair k { s.pair k with profGot := 0, heCand := none }
  if old = 2 then lineChange k (fun v => { v with ann := false }) s
  else if old = 3 then
    let s := releaseDefault k ((s.put (ACT_CP_STATE_TN_VALID k) false).wr (ACT_CP_STATE_TN k) 0)
    lineClear k (s.setPair k { s.pair k with msgq := [] })
  else s

/-- The work of the states in which the pair speaks. -/
def becomeSpeaking (k new : Nat) (s : State) : State :=
  if new = 2 then
    let s := s.wr (ACT_CP_STATE_ANN_CNT k) 0
    let s := s.setPair k { s.pair k with backoff := 0 }
    lineChange k (fun v => { v with ann := true, eqd := (s.pair k).preEqd }) s
  else if new = 3 then
    let s := (timersOff k s).put (ACT_CP_STATE_AUTH_SENT k) false
    let s := s.setPair k { s.pair k with tRng := some (ticksOf (s.rd (ACT_CP_TMR_T_RNG k))) }
    lineChange k (fun v => { v with ann := false, tnV := true, tn := s.rd (ACT_CP_STATE_TN k), eqd := (s.pair k).preEqd }) s
  else if new = 4 then
    let s := (timersOff k s).setTimLine k none
    lineChange k (fun v => { v with eqd := s.rd (eqdOf k (activePort s)) }) s
  else
    let s := timersOff k s
    s.setPair k { s.pair k with tInt := some (ticksOf (s.rd (ACT_CP_TMR_T_INT k))) }

theorem enterState_eq (k new : Nat) (s : State) : enterState k new s =
    if new = 0 ∨ new = 6 ∨ new = 7 then becomeIdle k new (leaveState k (pairState s k) new s)
    else if new = 1 then becomeListening k (pairState s k) (leaveState k (pairState s k) new s)
    else becomeSpeaking k new (leaveState k (pairState s k) new s) := rfl

theorem lineKept_timersOff (h : LineKept o s) : LineKept o (timersOff k s) := lineKept_setPair h

theorem lineKept_leaveState {old new : Nat} (h : LineKept o s) : LineKept o (leaveState k old new s) := by
  have h1 : LineKept o (leaveLine k old new s) := .ite (lineKept_ubeLeave h) h
  have h2 : LineKept o (leaveAnnounce k old new (leaveLine k old new s)) := .ite (lineKept_dropAnnounce h1) h1
  have h3 : LineKept o (noteState k old new (leaveAnnounce k old new (leaveLine k old new s))) :=
    .ite (.wr h2 actState_off) (.put (.wr h2 actState_off) actEvt_off)
  exact .ite (lineKept_setPair h3) h3

theorem lineKept_becomeIdle {new : Nat} (h : LineKept o s) : LineKept o (becomeIdle k new s) := by
  have h1 := lineKept_lineClear (k := k) (lineKept_klnForget (k := k)
    (lineKept_releaseContexts (k := k) (lineKept_clearStreams (k := k) (lineKept_forgetPair (k := k) (lineKept_timersOff (k := k) h)))))
  exact .ite (lineKept_setPair (.put h1 actState_off)) h1

theorem lineKept_becomeListening {old : Nat} (h : LineKept o s) : LineKept o (becomeListening k old s) := by
  unfold becomeListening
  have h1 := lineKept_timersOff (k := k) (h.wr (r := ACT_CP_STATE_HE_ID k) (n := (s.pair k).heLast) actState_off)
  refine .ite (lineKept_lineChange (lineKept_setPair h1)) (.ite ?_ (lineKept_setPair h1))
  exact lineKept_lineClear (lineKept_setPair (lineKept_releaseDefault (.wr (.put (lineKept_setPair h1) actState_off) actState_off)))

theorem lineKept_becomeSpeaking {new : Nat} (h : LineKept o s) : LineKept o (becomeSpeaking k new s) := by
  unfold becomeSpeaking
  refine .ite (lineKept_lineChange (lineKept_setPair (.wr h actState_off))) (.ite ?_ (.ite ?_ (lineKept_setPair (lineKept_timersOff h))))
  · exact lineKept_lineChange (lineKept_setPair (.put (lineKept_timersOff h) actState_off))
  · exact lineKept_lineChange (.sameRegs (lineKept_timersOff h) (reg_setTimLine _ _ _))

theorem lineKept_enterState {new : Nat} (h : LineKept o s) : LineKept o (enterState k new s) := by
  rw [enterState_eq]
  exact LineKept.ite (lineKept_becomeIdle (lineKept_leaveState h))
    (LineKept.ite (lineKept_becomeListening (lineKept_leaveState h)) (lineKept_becomeSpeaking (lineKept_leaveState h)))

theorem lineKept_pollOnce (h : LineKept o s) : LineKept o (pollOnce k s) := by
  unfold pollOnce
  exact .ite (.ite (lineKept_enterState h) (lineKept_enterState h)) (.ite (lineKept_enterState h) (.ite (lineKept_enterState h)
    (.ite (.ite (lineKept_enterState h) (lineKept_enterState h)) (.ite (lineKept_enterState h) h))))

theorem lineKept_actPoll (h : LineKept o s) : LineKept o (actPoll k s) := by
  unfold actPoll
  exact lineKept_timPoll (.ite (lineKept_keyAnswer (lineKept_pollOnce (lineKept_pollOnce (lineKept_pollOnce (lineKept_pollOnce h))))) h)

theorem lineKept_actLof (h : LineKept o s) : LineKept o (actLof k s) := by
  unfold actLof
  have h1 := lineKept_actStage (k := k) h
  exact .ite h (.ite h1 (lineKept_actPoll (.ite (lineKept_enterState h1) (.ite (lineKept_enterState h1) h1))))

theorem lineKept_actHeader {he : Nat} (h : LineKept o s) : LineKept o (actHeader k he s) := by
  unfold actHeader
  refine .ite h (.ite (lineKept_setPair h) (.ite (.ite (lineKept_setPair h) (.ite ?_ ?_)) ?_))
  · exact (lineKept_setPair h).wr actState_off
  · exact lineKept_actPoll ((lineKept_enterState (lineKept_setPair h)).put actEvt_off)
  · exact (lineKept_setPair h).inc actCnt_off

theorem lineKept_abortAll (h : LineKept o s) : LineKept o (abortAll k s) := by
  unfold abortAll
  exact LineKept.foldl (fun _ _ ht => lineKept_abortAsm ht) _ h
end

/-! ### Signal, carrier and comb lines (R57, R58, R64) -/

section
variable {o s t : State} {k : Nat}

theorem blkOf_rxStatus : blkOf (LPH_RX_STATUS k).addr = blkLPH := blkOf_array (by decide) (array_le (by decide))
theorem blkOf_rxEvt : blkOf (LPH_RX_EVT k).addr = blkLPH := blkOf_array (by decide) (array_le (by decide))

theorem rxStatus_line : lineReg (LPH_RX_STATUS k).addr := by
  refine ⟨Or.inl blkOf_rxStatus, ?_, ?_⟩
  all_goals
    show (0x8000048 + k % 256 * 0x10000) % 0x10000 ≠ _
    omega

theorem rxEvt_line : lineReg (LPH_RX_EVT k).addr := by
  refine ⟨Or.inl blkOf_rxEvt, ?_, ?_⟩
  all_goals
    show (0x8000050 + k % 256 * 0x10000) % 0x10000 ≠ _
    omega

theorem sync_line : lineReg (DSF_SYNC k).addr := by
  refine ⟨Or.inr (blkOf_array (by decide) (array_le (by decide))), ?_, ?_⟩
  all_goals
    show (0x9000028 + k % 256 * 0x10000) % 0x10000 ≠ _
    omega

theorem rxStatus_ne_rxEvt : (LPH_RX_STATUS k).addr ≠ (LPH_RX_EVT k).addr := by
  show 0x8000048 + k % 256 * 0x10000 ≠ 0x8000050 + k % 256 * 0x10000
  omega

/-! #### The registers of LPH over a loss of frame -/

/-- The registers of LPH but LPH_TX_STATUS are as they were. -/
def LphKept (o s : State) : Prop := ∀ a, lineReg a → blkOf a = blkLPH → s.reg a = o.reg a

theorem LphKept.line (h : LphKept o s) (ht : LineKept s t) : LphKept o t := fun a ha hb => (ht a ha).trans (h a ha hb)

theorem LphKept.setReg {a : Nat} {v : Word} (h : LphKept o s) (ha : blkOf a = blkDSF) : LphKept o (s.setReg a v) := fun x hx hb =>
  (reg_setReg_ne s v fun e => absurd (hb.symm.trans ((congrArg blkOf e).trans ha)) (by decide)).trans (h x hx hb)

theorem LphKept.wr {r : RF} {n : Nat} (h : LphKept o s) (hr : blkOf r.addr = blkDSF) : LphKept o (s.wr r n) := h.setReg hr

theorem LphKept.put {r : RF} {b : Bool} (h : LphKept o s) (hr : blkOf r.addr = blkDSF) : LphKept o (s.put r b) := h.setReg hr

theorem LphKept.ite {c : Prop} [Decidable c] {u : State} (ht : LphKept o t) (hu : LphKept o u) : LphKept o (if c then t else u) := by
  split <;> assumption

theorem blkOf_sync : blkOf (DSF_SYNC k).addr = blkDSF := blkOf_array (by decide) (array_le (by decide))
theorem blkOf_dsfEvt : blkOf (DSF_EVT k).addr = blkDSF := blkOf_array (by decide) (array_le (by decide))

/-- HUNT is shown. -/
def huntShown (k : Nat) (s : State) : State := ((s.wr (DSF_SYNC_STATE k) 0).wr (DSF_SYNC_MISS k) 0).wr (DSF_SYNC_HYP k) 0

/-- What the channel held of its frames is dropped. -/
def huntEmptied (k : Nat) (s : State) : State :=
  let c := s.dsfCh k
  let s := s.setDsfCh k { c with hdrOk := false, live := false, ops := none, ces := [], bad := [], badNext := [], pos := 12800000 }
  let s := dropStamps k (squashWhere k (fun _ => true) s)
  s.setSpcCh k { ({} : SpcCh) with nextNum := (s.spcCh k).nextNum }

theorem dsfHunt_eq (k : Nat) (s : State) : dsfHunt k s =
    if s.rd (DSF_SYNC_STATE k) = 3 then
      timPoll (timLost k (chpReact k (actLof k (abortAll k (assertLof k (huntEmptied k (huntShown k s)))))))
    else huntEmptied k (huntShown k s) := rfl

theorem lineKept_huntEmptied (h : LineKept o s) : LineKept o (huntEmptied k s) := by
  unfold huntEmptied
  exact .sameRegs (lineKept_dropStamps (lineKept_squashWhere (h.sameRegs (reg_setDsfCh _ _ _)))) (reg_setSpcCh _ _ _)

theorem lphKept_assertLof (h : LphKept o s) : LphKept o (assertLof k s) := by
  unfold assertLof
  exact .ite h (.put (.put h blkOf_sync) blkOf_dsfEvt)

theorem lphKept_huntShown (h : LphKept o s) : LphKept o (huntShown k s) := by
  unfold huntShown
  exact .wr (.wr (.wr h blkOf_sync) blkOf_sync) blkOf_sync

theorem lphKept_dsfLost (h : LphKept o s) : LphKept o (dsfLost k s) := by
  unfold dsfLost
  rw [dsfHunt_eq]
  have h1 : LphKept o (huntEmptied k (huntShown k s)) := (lphKept_huntShown h).line (lineKept_huntEmptied .refl)
  refine .ite h (.ite ((lphKept_assertLof (k := k) h1).line (s := assertLof k (huntEmptied k (huntShown k s))) ?_) h1)
  exact lineKept_timPoll (lineKept_timLost (lineKept_chpReact (lineKept_actLof (lineKept_abortAll .refl))))

/-- What a lock lost changes of the registers of LPH. -/
def lockFallen (k : Nat) (s : State) : State :=
  if s.bit (LPH_RX_STATUS_CR_LOCK k) then (s.put (LPH_RX_STATUS_CR_LOCK k) false).put (LPH_RX_EVT_CR_UNLOCK k) true else s

theorem lphKept_crFall : LphKept (lockFallen k s) (crFall k s) := by
  unfold crFall lockFallen
  split
  · exact LphKept.line (lphKept_dsfLost fun _ _ _ => rfl) (lineKept_chpReact .refl)
  · exact fun _ _ _ => rfl

theorem lockFallen_crLock : (lockFallen k s).bit (LPH_RX_STATUS_CR_LOCK k) = false := by
  unfold lockFallen
  split
  · rw [bit_put_other (r := LPH_RX_EVT_CR_UNLOCK k) (q := LPH_RX_STATUS_CR_LOCK k) _ _ le_of_eval le_of_eval (Or.inl rxStatus_ne_rxEvt),
      bit_put_same _ _ le_of_eval rfl]
  · next h => exact Bool.eq_false_iff.2 h

/-- Every other field is as it was. -/
theorem lockFallen_rd {q : RF} (h64 : q.lo + q.w ≤ 64) (hs : q.addr ≠ (LPH_RX_STATUS k).addr ∨ q.lo + q.w ≤ 63)
    (he : q.addr ≠ (LPH_RX_EVT k).addr ∨ 2 ≤ q.lo) : (lockFallen k s).rd q = s.rd q := by
  unfold lockFallen
  split
  · rw [rd_put_other (r := LPH_RX_EVT_CR_UNLOCK k) _ _ le_of_eval h64 (he.imp_right Or.inl),
      rd_put_other (r := LPH_RX_STATUS_CR_LOCK k) _ _ le_of_eval h64 (hs.imp_right Or.inr)]
  · rfl

theorem LphKept.rd (h : LphKept o s) {q : RF} (hl : lineReg q.addr) (hb : blkOf q.addr = blkLPH) : s.rd q = o.rd q := rd_congr (h _ hl hb)

theorem LphKept.bit (h : LphKept o s) {q : RF} (hl : lineReg q.addr) (hb : blkOf q.addr = blkLPH) : s.bit q = o.bit q :=
  bit_congr (h _ hl hb)

theorem unsigned_lt (w : Nat) (i : Int) : unsigned w i < 2 ^ w := by
  have h1 : i % (2 ^ w : Nat) < (2 ^ w : Nat) := Int.emod_lt_of_pos _ (by positivity)
  have h2 : 0 ≤ i % (2 ^ w : Nat) := Int.emod_nonneg _ (by positivity)
  unfold unsigned
  omega

theorem rxPowered_setLphCh {c : LphCh} : rxPowered (s.setLphCh k c) k = rxPowered s k := by
  unfold rxPowered
  rw [bit_setLphCh]
  rfl

/-! #### The clauses on signal and carrier -/

/-- CR_LOCK_ACQUIRED: the lock with its dispersion and offset. -/
theorem crLock_shows {cd fofs : Nat} (hcd : cd < 2 ^ 16) (hf : fofs < 2 ^ 16) (hp : rxPowered s k = true) (hlo : (s.lphCh k).loLow = false)
    (hlos : s.bit (LPH_RX_STATUS_RX_LOS k) = false) :
    (crLock k cd fofs s).bit (LPH_RX_STATUS_CR_LOCK k) = true ∧ (crLock k cd fofs s).bit (LPH_RX_STATUS_LO_LOCK k) = true ∧
      (crLock k cd fofs s).rd (LPH_RX_STATUS_CD_EST k) = cd ∧ (crLock k cd fofs s).rd (LPH_RX_STATUS_FOFS k) = fofs := by
  have hc : ¬ (!rxPowered s k || (s.lphCh k).loLow || s.bit (LPH_RX_STATUS_RX_LOS k)) = true := by
    rw [hp, hlo, hlos]
    exact Bool.false_ne_true
  unfold crLock
  rw [if_neg hc]
  simp only [bit_setLphCh, rd_setLphCh, bit_draw, rd_draw]
  refine ⟨?_, ?_, ?_, ?_⟩
  · rw [bit_eq, rd_wr_other _ _ le_of_eval le_of_eval (Or.inr (Or.inl le_of_eval)),
      rd_wr_other _ _ le_of_eval le_of_eval (Or.inr (Or.inl le_of_eval)), ← bit_eq,
      bit_put_other _ _ le_of_eval le_of_eval (Or.inr (Or.inl le_of_eval)), bit_put_same _ _ le_of_eval rfl]
  · rw [bit_eq, rd_wr_other _ _ le_of_eval le_of_eval (Or.inr (Or.inl le_of_eval)),
      rd_wr_other _ _ le_of_eval le_of_eval (Or.inr (Or.inl le_of_eval)), ← bit_eq, bit_put_same _ _ le_of_eval rfl]
  · rw [rd_wr_other _ _ le_of_eval le_of_eval (Or.inr (Or.inr le_of_eval)), rd_wr_same _ _ le_of_eval]
    exact Nat.mod_eq_of_lt hcd
  · rw [rd_wr_same _ _ le_of_eval]
    exact Nat.mod_eq_of_lt hf

/-- CARRIER_LOSS: the lock is gone, and CR_UNLOCK set. -/
theorem crFall_shows (h : s.bit (LPH_RX_STATUS_CR_LOCK k) = true) :
    (crFall k s).bit (LPH_RX_STATUS_CR_LOCK k) = false ∧ (crFall k s).bit (LPH_RX_EVT_CR_UNLOCK k) = true := by
  refine ⟨(lphKept_crFall.bit (q := LPH_RX_STATUS_CR_LOCK k) rxStatus_line blkOf_rxStatus).trans lockFallen_crLock,
    (lphKept_crFall.bit (q := LPH_RX_EVT_CR_UNLOCK k) rxEvt_line blkOf_rxEvt).trans ?_⟩
  unfold lockFallen
  rw [if_pos h, bit_put_same _ _ le_of_eval rfl]

/-- The state in which a loss of signal is shown. -/
def losShown (k : Nat) (p : Int) (s : State) : State :=
  ((showPower k p s).put (LPH_RX_STATUS_RX_LOS k) true).put (LPH_RX_EVT_LOS k) true

theorem losAssert_eq {p : Int} (hp : rxPowered s k = true) (h : p < -280) (hlos : s.bit (LPH_RX_STATUS_RX_LOS k) = false) :
    ∃ c, losAssert k p s = chpReact k (dsfLost k (crFall k ((losShown k p s).setLphCh k c))) := by
  have hb : (showPower k p s).bit (LPH_RX_STATUS_RX_LOS k) = false := by
    unfold showPower
    rw [bit_eq, rd_wr_other _ _ le_of_eval le_of_eval (Or.inr (Or.inl le_of_eval)), ← bit_eq, hlos]
  unfold losAssert
  simp only [hp, Bool.not_true, Bool.false_eq_true, ↓reduceIte, h, hb, not_false_eq_true, and_self]
  exact ⟨_, rfl⟩

/-- LOS_ASSERT: loss of signal with the power, and no carrier lock. -/
theorem losAssert_shows {p : Int} (hp : rxPowered s k = true) (h : p < -280) (hlos : s.bit (LPH_RX_STATUS_RX_LOS k) = false) :
    (losAssert k p s).bit (LPH_RX_STATUS_RX_LOS k) = true ∧ (losAssert k p s).bit (LPH_RX_EVT_LOS k) = true ∧
      (losAssert k p s).bit (LPH_RX_STATUS_CR_LOCK k) = false ∧
      (losAssert k p s).rd (LPH_RX_STATUS_PWR k) = unsigned 16 (clampInt (-400) 150 p) := by
  obtain ⟨c, e⟩ := losAssert_eq hp h hlos
  rw [e]
  have hk : LphKept (lockFallen k ((losShown k p s).setLphCh k c)) (chpReact k (dsfLost k (crFall k ((losShown k p s).setLphCh k c)))) :=
    (lphKept_dsfLost lphKept_crFall).line (lineKept_chpReact .refl)
  refine ⟨?_, ?_, ?_, ?_⟩
  · rw [hk.bit (q := LPH_RX_STATUS_RX_LOS k) rxStatus_line blkOf_rxStatus, bit_eq,
      lockFallen_rd (q := LPH_RX_STATUS_RX_LOS k) le_of_eval (Or.inr le_of_eval) (Or.inl rxStatus_ne_rxEvt), ← bit_eq, bit_setLphCh, losShown,
      bit_put_other (r := LPH_RX_EVT_LOS k) (q := LPH_RX_STATUS_RX_LOS k) _ _ le_of_eval le_of_eval (Or.inl rxStatus_ne_rxEvt),
      bit_put_same _ _ le_of_eval rfl]
  · rw [hk.bit (q := LPH_RX_EVT_LOS k) rxEvt_line blkOf_rxEvt, bit_eq,
      lockFallen_rd (q := LPH_RX_EVT_LOS k) le_of_eval (Or.inl rxStatus_ne_rxEvt.symm) (Or.inr le_of_eval), ← bit_eq, bit_setLphCh, losShown,
      bit_put_same _ _ le_of_eval rfl]
  · exact (hk.bit (q := LPH_RX_STATUS_CR_LOCK k) rxStatus_line blkOf_rxStatus).trans lockFallen_crLock
  · rw [hk.rd (q := LPH_RX_STATUS_PWR k) rxStatus_line blkOf_rxStatus,
      lockFallen_rd (q := LPH_RX_STATUS_PWR k) le_of_eval (Or.inr le_of_eval) (Or.inl rxStatus_ne_rxEvt), rd_setLphCh, losShown,
      rd_put_other (r := LPH_RX_EVT_LOS k) (q := LPH_RX_STATUS_PWR k) _ _ le_of_eval le_of_eval (Or.inl rxStatus_ne_rxEvt),
      rd_put_other _ _ le_of_eval le_of_eval (Or.inr (Or.inr le_of_eval)), showPower, rd_wr_same _ _ le_of_eval]
    exact Nat.mod_eq_of_lt (unsigned_lt _ _)

/-- LOS_CLEAR. -/
theorem losClear_shows {p : Int} (hp : rxPowered s k = true) (h : -270 ≤ p) :
    (losClear k p s).bit (LPH_RX_STATUS_RX_LOS k) = false ∧
      (losClear k p s).rd (LPH_RX_STATUS_PWR k) = unsigned 16 (clampInt (-400) 150 p) := by
  unfold losClear
  simp only [hp, Bool.not_true, Bool.false_eq_true, ↓reduceIte, h, bit_setLphCh, rd_setLphCh]
  refine ⟨bit_put_same _ _ le_of_eval rfl, ?_⟩
  rw [rd_put_other _ _ le_of_eval le_of_eval (Or.inr (Or.inr le_of_eval)), showPower, rd_wr_same _ _ le_of_eval]
  exact Nat.mod_eq_of_lt (unsigned_lt _ _)

/-- LO_LINE_LOW of a locked oscillator. -/
theorem loLine_low (hp : rxPowered s k = true) (h : s.bit (LPH_RX_STATUS_LO_LOCK k) = true) :
    (loLine k true s).bit (LPH_RX_STATUS_LO_LOCK k) = false ∧ (loLine k true s).bit (LPH_RX_EVT_LO_UNLOCK k) = true := by
  unfold loLine
  simp only [rxPowered_setLphCh, hp, Bool.not_true, Bool.false_eq_true, ↓reduceIte, bit_setLphCh, h]
  refine ⟨?_, bit_put_same _ _ le_of_eval rfl⟩
  rw [bit_put_other (r := LPH_RX_EVT_LO_UNLOCK k) (q := LPH_RX_STATUS_LO_LOCK k) _ _ le_of_eval le_of_eval (Or.inl rxStatus_ne_rxEvt),
    bit_put_same _ _ le_of_eval rfl]

/-- LO_LINE_RESTORED. -/
theorem loLine_restored (hp : rxPowered s k = true) :
    (loLine k false s).bit (LPH_RX_STATUS_LO_LOCK k) = true ∧ ((loLine k false s).lphCh k).loLow = false := by
  have e : loLine k false s = (s.setLphCh k { s.lphCh k with loLow := false }).put (LPH_RX_STATUS_LO_LOCK k) true := by
    unfold loLine
    simp only [rxPowered_setLphCh, hp, Bool.not_true, Bool.false_eq_true, ↓reduceIte]
  rw [e]
  exact ⟨bit_put_same _ _ le_of_eval rfl, congrArg LphCh.loLow (lphCh_setLphCh s k _)⟩

theorem blkOf_txStatus : blkOf (LPH_TX_STATUS k).addr = blkLPH := blkOf_array (by decide) (array_le (by decide))

/-- COMB_LOW and COMB_RESTORED show the line and its power. -/
theorem combPower_shows (p : Int) : (combPower k p s).bit (LPH_TX_STATUS_COMB_LOW k) = decide (p < 120) ∧
    (combPower k p s).rd (LPH_TX_STATUS_COMB_PWR k) = unsigned 16 p := by
  have hr : (combPower k p s).reg (LPH_TX_STATUS k).addr = ((s.wr (LPH_TX_STATUS_COMB_PWR k) (unsigned 16 p)).put
      (LPH_TX_STATUS_COMB_LOW k) (decide (p < 120))).reg (LPH_TX_STATUS k).addr := by
    unfold combPower
    dsimp only
    split
    · have hk := fun t : State => (kept_fltEvent (kb := false) (kl := allParts) (bl := [blkFLT]) (ko := t) (src := blkLPH) (unit := k)
        Kept.rfl_frame (by decide) (by decide) (by decide)).regFrame
      exact hk _ _ (by rw [blkOf_txStatus]; decide)
    · rfl
  refine ⟨(bit_congr (q := LPH_TX_STATUS_COMB_LOW k) hr).trans (bit_put_same _ _ le_of_eval rfl),
    (rd_congr (q := LPH_TX_STATUS_COMB_PWR k) hr).trans ?_⟩
  rw [rd_put_other _ _ le_of_eval le_of_eval (Or.inr (Or.inr le_of_eval)), rd_wr_same _ _ le_of_eval]
  exact Nat.mod_eq_of_lt (unsigned_lt _ _)

/-! ### Alignment and frames (R74 to R79) -/

/-- Of two hypotheses the one that differs less. -/
def closerHyp (signs : Nat) (b : Option Nat) (h : Nat) : Option Nat :=
  match b with
  | none => some h
  | some x => if fawDiff signs h < fawDiff signs x then some h else some x

theorem closerHyp_cases (signs h : Nat) (b : Option Nat) : closerHyp signs b h = some h ∨ closerHyp signs b h = b ∧ b.isSome := by
  unfold closerHyp
  split
  · exact Or.inl rfl
  · split
    · exact Or.inl rfl
    · exact Or.inr ⟨rfl, rfl⟩

/-- Of a list with an element the closest is one of its elements. -/
theorem closest_mem (signs : Nat) (P : Nat → Prop) {l : List Nat} (hl : ∀ x ∈ l, P x) {b : Option Nat} (hb : ∀ x, b = some x → P x)
    (hn : b.isSome ∨ l ≠ []) : ∃ x, l.foldl (closerHyp signs) b = some x ∧ P x := by
  induction l generalizing b with
  | nil =>
    obtain ⟨x, hx⟩ := Option.isSome_iff_exists.1 (hn.resolve_right fun h => h rfl)
    exact ⟨x, hx, hb x hx⟩
  | cons h l ih =>
    refine ih (fun x hx => hl x (List.mem_cons_of_mem _ hx)) (fun x hx => ?_) (Or.inl ?_)
    · rcases closerHyp_cases signs h b with e | ⟨e, -⟩
      · rw [e] at hx
        exact Option.some.inj hx ▸ hl h List.mem_cons_self
      · exact hb x (e ▸ hx)
    · rcases closerHyp_cases signs h b with e | ⟨e, hs⟩
      · rw [e]
        rfl
      · rwa [e]

/-- Where a window matches under a hypothesis, it is taken under one under which it matches. -/
theorem fawBest_matches {amp signs h : Nat} (hh : h < 32) (hu : fawUnder s k amp signs h = true) :
    ∃ x, fawBest s k amp signs = some x ∧ x < 32 ∧ fawUnder s k amp signs x = true := by
  refine closest_mem signs (fun x => x < 32 ∧ fawUnder s k amp signs x = true) (fun x hx => ?_) (b := none) nofun (Or.inr ?_)
  · obtain ⟨h1, h2⟩ := List.mem_filter.1 hx
    exact ⟨List.mem_range.1 h1, h2⟩
  · exact List.ne_nil_of_mem (List.mem_filter.2 ⟨List.mem_range.2 hh, hu⟩)

/-- FAW_MATCH in HUNT: one header is awaited under a hypothesis under which the window matches. -/
theorem fawMatch_takes {amp signs h : Nat} (hst : s.rd (DSF_SYNC_STATE k) = 0) (hen : s.bit (LPH_CH_CTL_RX_EN k) = true) (hh : h < 32)
    (hu : fawUnder s k amp signs h = true) : (fawMatch k amp signs s).rd (DSF_SYNC_STATE k) = 1 ∧
      fawUnder s k amp signs ((fawMatch k amp signs s).rd (DSF_SYNC_HYP k)) = true := by
  obtain ⟨x, hx, hlt, hux⟩ := fawBest_matches hh hu
  unfold fawMatch
  rw [if_pos ⟨hst, hen⟩, hx]
  simp only [rd_setSpcCh, rd_setDsfCh]
  refine ⟨?_, ?_⟩
  · rw [rd_wr_other _ _ le_of_eval le_of_eval (Or.inr (Or.inl le_of_eval)), rd_wr_same _ _ le_of_eval]
    rfl
  · rw [rd_wr_same _ _ le_of_eval, Nat.mod_eq_of_lt (show x < 2 ^ (DSF_SYNC_HYP k).w from hlt), hux]

/-- A frame boundary changes no register, and counts. -/
theorem frameBoundary_counts : (∀ a, (frameBoundary k s).reg a = s.reg a) ∧ (frameBoundary k s).bseq k = s.bseq k + 1 := by
  refine ⟨fun a => ?_, ?_⟩
  · have h : Kept false allParts ([] : List Nat) s (frameBoundary k s) := kept_frameBoundary Kept.rfl_frame (by decide) (by decide)
    exact h.regFrame a List.not_mem_nil
  · unfold frameBoundary
    dsimp only
    generalize (s.rd (DSF_SYNC_FC k) + 1) % 2 ^ 48 = fc
    have h : Kept false [.tim] ([] : List Nat) ((s.setBseq k (s.bseq k + 1)).setLastB k fc)
        (timCapture k fc ((s.setBseq k (s.bseq k + 1)).setLastB k fc)) := kept_timCapture Kept.rfl_frame (by decide)
    have hc : (timCapture k fc ((s.setBseq k (s.bseq k + 1)).setLastB k fc)).cfg = ((s.setBseq k (s.bseq k + 1)).setLastB k fc).cfg :=
      h.frame .cfg (by decide)
    unfold State.bseq at *
    rw [hc]
    exact bseq_setBseq s k _

/-- EXPECTED_WINDOW in SYNC that matches. -/
theorem expectedWindow_counts {amp signs : Nat} (hst : s.rd (DSF_SYNC_STATE k) = 3)
    (hu : fawUnder s k amp signs (s.rd (DSF_SYNC_HYP k)) = true) :
    (expectedWindow k amp signs s).rd (DSF_SYNC_STATE k) = 3 ∧ (expectedWindow k amp signs s).rd (DSF_SYNC_MISS k) = 0 ∧
      (expectedWindow k amp signs s).bseq k = s.bseq k + 1 := by
  have e : expectedWindow k amp signs s = frameBoundary k (s.wr (DSF_SYNC_MISS k) 0) := by
    unfold expectedWindow
    simp only [hst, hu, ↓reduceIte, OfNat.ofNat_ne_zero, Nat.reduceEqDiff]
  obtain ⟨hr, hb⟩ := frameBoundary_counts (k := k) (s := s.wr (DSF_SYNC_MISS k) 0)
  rw [e]
  refine ⟨?_, ?_, hb⟩
  · rw [rd_congr (hr _), rd_wr_other _ _ le_of_eval le_of_eval (Or.inr (Or.inl le_of_eval)), hst]
  · rw [rd_congr (hr _), rd_wr_same _ _ le_of_eval]
    rfl

theorem lineKept_headerNews {h : Bytes} (hs : LineKept o s) : LineKept o (headerNews k h s) := by
  unfold headerNews
  exact lineKept_actHeader (lineKept_klnHeader (hs.sameRegs (reg_setDsfCh _ _ _)))

theorem sync_ne_dsfEvt : (DSF_SYNC k).addr ≠ (DSF_EVT k).addr := by
  show 0x9000028 + k % 256 * 0x10000 ≠ 0x9000030 + k % 256 * 0x10000
  omega

/-- The state in which the counter of a good header is shown. -/
def counterShown (k fc : Nat) (s : State) : State :=
  let u := timHeader k fc (s.wr (DSF_SYNC_FC k) fc)
  if fc != (s.rd (DSF_SYNC_FC k) + 1) % 2 ^ 48 then u.put (DSF_EVT_FC_JUMP k) true else u

theorem counterShown_reg {fc : Nat} : (counterShown k fc s).reg (DSF_SYNC k).addr = (s.wr (DSF_SYNC_FC k) fc).reg (DSF_SYNC k).addr := by
  have h := fun t : State => lineKept_timHeader (k := k) (fc := fc) (LineKept.refl (s := t)) _ (sync_line (k := k))
  unfold counterShown
  dsimp only
  split
  · exact (reg_put_ne (r := DSF_EVT_FC_JUMP k) _ _ sync_ne_dsfEvt).trans (h _)
  · exact h _

/-- A good header in SYNC shows its counter, and then changes no register of DSF's alignment. -/
theorem frameHeader_sync {h ops : Bytes} (hst : s.rd (DSF_SYNC_STATE k) = 3)
    (hok : headerOk k ((s.dsfCh k).badNext.contains 0) h = true) :
    LineKept (counterShown k (fieldOf (wordAt h 0) 16 48) (takeFrame k s)) (frameHeader k h ops s) := by
  have hbad : ((takeFrame k s).dsfCh k).bad = (s.dsfCh k).badNext := by
    unfold takeFrame
    exact congrArg DsfCh.bad (dsfCh_setDsfCh _ _ _)
  unfold frameHeader
  simp only [hst, hbad, hok, ↓reduceIte, OfNat.ofNat_ne_zero, Nat.reduceEqDiff, Bool.true_and]
  refine lineKept_headerNews (lineKept_startFrame ?_)
  exact LineKept.refl.sameRegs fun a => by simp only [reg_setDsfCh, reg_setUbeCh, counterShown]

theorem takeFrame_reg {a : Nat} : (takeFrame k s).reg a = s.reg a := by
  have h : Kept false allParts ([] : List Nat) s (takeFrame k s) := kept_takeFrame Kept.rfl_frame (by decide) (by decide)
  exact h.regFrame a List.not_mem_nil

/-- FRAME_HEADER in SYNC with a good header. -/
theorem frameHeader_shows {h ops : Bytes} (hst : s.rd (DSF_SYNC_STATE k) = 3)
    (hok : headerOk k ((s.dsfCh k).badNext.contains 0) h = true) :
    (frameHeader k h ops s).rd (DSF_SYNC_STATE k) = 3 ∧ (frameHeader k h ops s).rd (DSF_SYNC_FC k) = fieldOf (wordAt h 0) 16 48 := by
  have hr := (frameHeader_sync (ops := ops) hst hok _ (sync_line (k := k))).trans counterShown_reg
  refine ⟨(rd_congr (q := DSF_SYNC_STATE k) hr).trans ?_, (rd_congr (q := DSF_SYNC_FC k) hr).trans ?_⟩
  · rw [rd_wr_other _ _ le_of_eval le_of_eval (Or.inr (Or.inl le_of_eval)), rd_congr takeFrame_reg, hst]
  · rw [rd_wr_same _ _ le_of_eval]
    exact Nat.mod_eq_of_lt (fieldOf_lt _ _ _)

/-- The circuits' frames change nothing of a channel's framing. -/
theorem cesTick_dsfCh {j : Nat} : (cesTick k s).dsfCh j = s.dsfCh j := by
  refine foldl_keeps (fun t : State => t.dsfCh j) (fun t e => ?_) _ _
  have h := fun (t : State) (p : PassPkt) => (kept_enterPipe (kb := false) (kl := [.regs, .pipes]) (bl := [blkCLS]) (ko := t) (p := p)
    Kept.rfl_frame (by decide) (by decide) (by decide)).frame .dsf (by decide)
  dsimp only
  unfold State.dsfCh
  rw [show (enterPipe _ _).dsf = _ from h _ _]
  rfl

/-- FLYWHEEL_TICK counts since the last frame. -/
theorem flywheelTick_counts : ((flywheelTick k s).dsfCh k).since = (s.dsfCh k).since + 1 := by
  have h : ∀ t : State, (actTick k (ohsTick k t)).dsfCh k = t.dsfCh k := fun t => by
    have ho : Kept false [.regs, .ohs, .act] [blkOHS] t (actTick k (ohsTick k t)) :=
      kept_actTick (kept_ohsTick Kept.rfl_frame (by decide) (by decide) (by decide)) (by decide)
    have hd : (actTick k (ohsTick k t)).dsf = t.dsf := ho.frame .dsf (by decide)
    unfold State.dsfCh
    rw [hd]
  unfold flywheelTick
  dsimp only
  rw [h]
  split
  · rw [cesTick_dsfCh, dsfCh_setDsfCh]
  · rw [dsfCh_setDsfCh]
end

/-- Settles O23: configuration by `configApplied_starts` and `configFails_outcome`, the line by what each of its operations shows. -/
theorem startAndLineComplete : Obligations.StartAndLineComplete := by
  unfold Obligations.StartAndLineComplete
  refine ⟨fun s base size hc hs ho => ?_, fun s hb hw hr => ?_, fun s hb hw hr => ?_,
    fun k cd fofs s hup hp hlo hlos => ⟨_, congrArg Host.Outcome.next (if_pos hup), crLock_shows cd.isLt fofs.isLt hp hlo hlos⟩,
    fun k s hup h => ⟨_, congrArg Host.Outcome.next (if_pos hup), crFall_shows h⟩,
    fun k p s hup hp h hlos => ⟨_, congrArg Host.Outcome.next (if_pos hup), losAssert_shows hp h hlos⟩,
    fun k p s hup hp h => ⟨_, congrArg Host.Outcome.next (if_pos hup), losClear_shows hp h⟩,
    fun k s hup hp h => ⟨_, congrArg Host.Outcome.next (if_pos hup), loLine_low hp h⟩,
    fun k s hup hp => ⟨_, congrArg Host.Outcome.next (if_pos hup), loLine_restored hp⟩, fun k p s hup h => ?_, fun k p s hup h => ?_,
    fun k amp signs s h hup hst hen hh hu => ?_,
    fun k amp signs s hup hst hu => ⟨_, congrArg Host.Outcome.next (if_pos hup), expectedWindow_counts hst hu⟩,
    fun k hdr ops s hup hst hok => ⟨_, congrArg Host.Outcome.next (if_pos hup), frameHeader_shows hst hok⟩,
    fun k s hup => ⟨_, congrArg Host.Outcome.next (if_pos hup), flywheelTick_counts⟩⟩
  · obtain ⟨hcfg, hmem, -⟩ := configApplied_starts hc.1
    exact ⟨_, congrArg Host.Outcome.next (configRecord_end hc hs ho), hcfg, hmem⟩
  · have hf := configFails_outcome 2 s
    rw [ConfigFailed, hr, if_neg Bool.false_ne_true] at hf
    exact ⟨_, congrArg Host.Outcome.next (configTimeout_eq hb hw), hf⟩
  · have hf := configFails_outcome 2 s
    rw [ConfigFailed, hr, if_pos rfl] at hf
    exact ⟨_, congrArg Host.Outcome.next (configTimeout_eq hb hw), hf⟩
  · obtain ⟨h1, h2⟩ := combPower_shows (s := s) (k := k) p.toInt
    exact ⟨_, congrArg Host.Outcome.next (if_pos hup), h1.trans (decide_eq_true h), h2⟩
  · obtain ⟨h1, h2⟩ := combPower_shows (s := s) (k := k) p.toInt
    exact ⟨_, congrArg Host.Outcome.next (if_pos hup), h1.trans (decide_eq_false (by omega)), h2⟩
  · exact ⟨_, congrArg Host.Outcome.next (if_pos hup), fawMatch_takes hst hen hh hu⟩

/-! ### The boot sequence (R23 to R28) -/

section
variable {s : State}

/-! #### Release (R23) -/

/-- The restart of CAS changes registers and CAS's own part. -/
theorem runCas_kept (s : State) : Kept false [.regs, .cas] (Set.univ : Set Nat) s (runBlocks [blkCAS] s) := by
  have hrun : Kept false [.regs, .cas] (Set.univ : Set Nat) s (s.setBit CFG_BLK_RUN blkCAS) :=
    kept_st_setBit Kept.rfl_frame (by decide) (Set.mem_univ _)
  unfold runBlocks
  rw [List.foldl_cons, List.foldl_nil]
  unfold blockRestart
  refine kept_ite hrun ?_
  have hclr := kept_st_clrBit (r := CFG_BLK_STOPPED) (i := blkCAS) hrun (by decide) (Set.mem_univ _)
  exact kept_foldl (fun t g ht => kept_ite (kept_casDetect ht (by decide) (by decide) (Set.mem_univ _)) ht) hclr

/-- The state that release shows before CAS starts. -/
def released (mgr safeN : Bool) (s : State) : State :=
  let s := { s with cfg := { s.cfg with boot := .rom, mgrStrap := mgr }, cas := { s.cas with candLow := !mgr, candSerial := serial s } }
  let s := ((s.put CLK_STATUS_IOSC_OK true).put FLT_SUMMARY_SAFE_N safeN).put CAS_ROLE_STRAP mgr
  showFree 0 (showFree 1 (s.setHart 0 { running := true, mode := .m, pc := romBase }))

theorem bootStart_eq (mgr safeN : Bool) (s : State) : bootStart mgr safeN s = runBlocks [blkCAS] (released mgr safeN s) := rfl

/-- RESET_RELEASE starts core 0 at the boot ROM. -/
theorem resetRelease_starts (mgr safeN : Bool) (h : s.cfg.boot = .inReset) :
    (resetRelease mgr safeN s).cfg.boot = .rom ∧ (resetRelease mgr safeN s).cfg.mgrStrap = mgr ∧
      (resetRelease mgr safeN s).hart 0 = { running := true, mode := .m, pc := romBase } := by
  have hk := (runCas_kept (released mgr safeN s)).frame
  have hc : (runBlocks [blkCAS] (released mgr safeN s)).cfg = (released mgr safeN s).cfg := hk .cfg (by decide)
  have hh : (runBlocks [blkCAS] (released mgr safeN s)).harts = (released mgr safeN s).harts := hk .harts (by decide)
  unfold resetRelease
  rw [if_pos h, bootStart_eq, hc]
  refine ⟨rfl, rfl, ?_⟩
  unfold State.hart
  rw [hh]
  exact SMap.get_set_same _ _ _ _

/-! #### The flash (R24) -/

/-- The state in which the oscillators are shown. -/
def flashRead (s : State) : State := (s.put CLK_STATUS_SPLL_LOCK true).put CLK_STATUS_REF_OK true

theorem flashRead_bits : (flashRead s).bit CLK_STATUS_SPLL_LOCK = true ∧ (flashRead s).bit CLK_STATUS_REF_OK = true := by
  refine ⟨?_, bit_put_same _ _ (by decide) rfl⟩
  unfold flashRead
  rw [bit_put_other _ _ (by decide) (by decide) (by decide), bit_put_same _ _ (by decide) rfl]

theorem sfdpDone_eq (answered : Bool) (width mib : Nat) (h : s.cfg.boot = .rom) : sfdpDone answered width mib s =
    if answered = false then withCfg { s.cfg with boot := .sfdpDone, casBoot := true } (flashRead s)
    else if mib < 32 then bothFail 6 (flashRead s)
    else (withCfg { s.cfg with boot := .sfdpDone } (flashRead s)).wr CFG_BOOT_STATUS_IOW width := by
  unfold sfdpDone
  rw [if_neg (not_not_intro h)]
  cases answered <;> rfl

theorem flashLines_lt (w : FlashWidth) : flashLines w < 2 ^ CFG_BOOT_STATUS_IOW.w := by cases w <;> decide

/-! #### The choice of a copy (R26, R27) -/

/-- The codes of the copies, and boot_retry, are shown. -/
def codesShown (ca cb : Nat) (s : State) : State :=
  ((s.wr CFG_BOOT_STATUS_FAIL_A ca).wr CFG_BOOT_STATUS_FAIL_B cb).put CFG_BOOT_STATUS_RETRY s.cfg.bootRetry

/-- Copy B is ranked first. -/
def rankedB (ca cb : Nat) (a b : Bytes) (retry : Bool) : Bool :=
  (if ca = 0 ∧ cb = 0 then decide (hdrSeq a < hdrSeq b) else decide (ca ≠ 0 ∧ cb = 0)) != retry

/-- The state in which the copies are ranked. -/
def copiesRanked (a b : Bytes) (ca cb : Nat) (s : State) : State :=
  withCfg { s.cfg with
    boot := .headersRead, hdrA := a, hdrB := b, firstB := rankedB ca cb a b s.cfg.bootRetry
    firstFailed := (if rankedB ca cb a b s.cfg.bootRetry then cb else ca) != 0, bootRetry := false } (codesShown ca cb s)

theorem headersRead_eq {a b : Bytes} {errA errB : Bool} (h : s.cfg.boot = .sfdpDone) (hc : s.cfg.casBoot = false) :
    headersRead a b errA errB s =
      if hdrCode errA a ≠ 0 ∧ hdrCode errB b ≠ 0 then bootFailed (copiesRanked a b (hdrCode errA a) (hdrCode errB b) s)
      else copiesRanked a b (hdrCode errA a) (hdrCode errB b) s := by
  unfold headersRead
  rw [if_neg (by rw [h, hc]; simp)]
  rfl

theorem codesShown_reads (ca cb : Nat) : (codesShown ca cb s).bit CFG_BOOT_STATUS_RETRY = s.cfg.bootRetry ∧
    (codesShown ca cb s).rd CFG_BOOT_STATUS_FAIL_A = ca % 16 ∧ (codesShown ca cb s).rd CFG_BOOT_STATUS_FAIL_B = cb % 16 ∧
    ∀ x, x ≠ CFG_BOOT_STATUS.addr → (codesShown ca cb s).reg x = s.reg x := by
  unfold codesShown
  refine ⟨bit_put_same _ _ (by decide) rfl, ?_, ?_, fun x hx => ?_⟩
  · rw [rd_put_other _ _ (by decide) (by decide) (by decide), rd_wr_other _ _ (by decide) (by decide) (by decide), rd_wr_same _ _ (by decide)]
    rfl
  · rw [rd_put_other _ _ (by decide) (by decide) (by decide), rd_wr_same _ _ (by decide)]
    rfl
  · rw [reg_put_ne (r := CFG_BOOT_STATUS_RETRY) _ _ hx, reg_wr_ne (r := CFG_BOOT_STATUS_FAIL_B) _ _ hx,
      reg_wr_ne (r := CFG_BOOT_STATUS_FAIL_A) _ _ hx]

/-- The code of one copy and that of the other are fields apart. -/
theorem copyCode_apart (b : Bool) : (copyCode (!b)).lo + (copyCode (!b)).w ≤ (copyCode b).lo ∨
    (copyCode b).lo + (copyCode b).w ≤ (copyCode (!b)).lo := by cases b <;> decide

theorem copyCode_fits (b : Bool) : 4 ≤ (copyCode b).lo ∧ (copyCode b).lo + (copyCode b).w ≤ 12 ∧ (copyCode b).w = 4 := by cases b <;> decide

/-- The copy that boots is shown (R27). -/
def copyShown (b fallback src : Bool) (seq : Nat) (s : State) : State :=
  ((((s.wr (copyCode b) 1).put CFG_BOOT_STATUS_COPY b).put CFG_BOOT_STATUS_FALLBACK fallback).wr CFG_BOOT_STATUS_SEQ seq).put
    CFG_BOOT_STATUS_SRC src

theorem copyShown_reads (b fallback src : Bool) (seq : Nat) : (copyShown b fallback src seq s).bit CFG_BOOT_STATUS_COPY = b ∧
    (copyShown b fallback src seq s).bit CFG_BOOT_STATUS_FALLBACK = fallback ∧
    (copyShown b fallback src seq s).rd CFG_BOOT_STATUS_SEQ = seq % 2 ^ 32 ∧ (copyShown b fallback src seq s).rd (copyCode b) = 1 := by
  obtain ⟨h4, h12, hw⟩ := copyCode_fits b
  have h64 : (copyCode b).lo + (copyCode b).w ≤ 64 := by omega
  unfold copyShown
  refine ⟨?_, ?_, ?_, ?_⟩
  · rw [bit_put_other _ _ (by decide) (by decide) (by decide), bit_eq, rd_wr_other _ _ (by decide) (by decide) (by decide), ← bit_eq,
      bit_put_other _ _ (by decide) (by decide) (by decide), bit_put_same _ _ (by decide) rfl]
  · rw [bit_put_other _ _ (by decide) (by decide) (by decide), bit_eq, rd_wr_other _ _ (by decide) (by decide) (by decide), ← bit_eq,
      bit_put_same _ _ (by decide) rfl]
  · rw [rd_put_other _ _ (by decide) (by decide) (by decide), rd_wr_same _ _ (by decide)]
    rfl
  · rw [rd_put_other (r := CFG_BOOT_STATUS_SRC) _ _ (by decide) h64 (Or.inr (Or.inl h4)),
      rd_wr_other (r := CFG_BOOT_STATUS_SEQ) _ _ (by decide) h64 (Or.inr (Or.inr (le_trans h12 (by decide)))),
      rd_put_other (r := CFG_BOOT_STATUS_FALLBACK) _ _ (by decide) h64 (Or.inr (Or.inl (le_trans (by decide) h4))),
      rd_put_other (r := CFG_BOOT_STATUS_COPY) _ _ (by decide) h64 (Or.inr (Or.inl (le_trans (by decide) h4))), rd_wr_same _ _ h64, hw]
    rfl

theorem copyValidated_passes {readOk : Bool} {data : List Bytes} (h : s.cfg.boot = .headersRead)
    (hp : copyResult s.cfg.keyHash (hdrOf s (copyNow s)) readOk data = 1) : copyValidated readOk data s =
      loadSections (sectionsOf (hdrOf s (copyNow s))) data (withCfg { s.cfg with boot := .copyChosen, casBoot := false }
        (copyShown (copyNow s) s.cfg.firstFailed s.cfg.casBoot (hdrSeq (hdrOf s (copyNow s))) s)) := by
  unfold copyValidated
  simp only [h, hp, ne_eq, not_true_eq_false, ↓reduceIte]
  rfl

theorem copyValidated_fails {readOk : Bool} {data : List Bytes} (h : s.cfg.boot = .headersRead)
    (hp : copyResult s.cfg.keyHash (hdrOf s (copyNow s)) readOk data ≠ 1) : copyValidated readOk data s =
      copyFails (copyResult s.cfg.keyHash (hdrOf s (copyNow s)) readOk data) s := by
  unfold copyValidated
  rw [if_neg (not_not_intro h)]
  exact if_pos hp

/-- The sections loaded change memory alone. -/
theorem loadSections_kept (l : List Section) (data : List Bytes) (s : State) :
    (loadSections l data s).cfg = s.cfg ∧ ∀ a, (loadSections l data s).reg a = s.reg a := by
  have h : Kept false [.mem, .ecc] ([] : List Nat) s (loadSections l data s) := kept_loadSections Kept.rfl_frame (by decide) (by decide)
  exact ⟨h.frame .cfg (by decide), fun a => h.regFrame a List.not_mem_nil⟩

/-- COPY_VALIDATED of a copy that passes. -/
theorem copyValidated_boots {readOk : Bool} {data : List Bytes} (h : s.cfg.boot = .headersRead)
    (hp : copyResult s.cfg.keyHash (hdrOf s (copyNow s)) readOk data = 1) :
    (copyValidated readOk data s).cfg.boot = .copyChosen ∧ (copyValidated readOk data s).bit CFG_BOOT_STATUS_COPY = copyNow s ∧
      (copyValidated readOk data s).bit CFG_BOOT_STATUS_FALLBACK = s.cfg.firstFailed ∧
      (copyValidated readOk data s).rd CFG_BOOT_STATUS_SEQ = hdrSeq (hdrOf s (copyNow s)) % 2 ^ 32 ∧
      (copyValidated readOk data s).rd (copyCode (copyNow s)) = 1 := by
  rw [copyValidated_passes h hp]
  obtain ⟨hc, hr⟩ := loadSections_kept (sectionsOf (hdrOf s (copyNow s))) data (withCfg { s.cfg with boot := .copyChosen, casBoot := false }
    (copyShown (copyNow s) s.cfg.firstFailed s.cfg.casBoot (hdrSeq (hdrOf s (copyNow s))) s))
  obtain ⟨h1, h2, h3, h4⟩ := copyShown_reads (s := s) (copyNow s) s.cfg.firstFailed s.cfg.casBoot (hdrSeq (hdrOf s (copyNow s)))
  refine ⟨by rw [hc, withCfg_cfg], ?_, ?_, ?_, ?_⟩
  · rw [bit_congr (hr _), withCfg_bit, h1]
  · rw [bit_congr (hr _), withCfg_bit, h2]
  · rw [rd_congr (hr _), withCfg_rd, h3]
  · rw [rd_congr (hr _), withCfg_rd, h4]

/-- A copy that fails, with the other left: the other is next. -/
theorem copyFails_turns {code : Nat} (hf : s.cfg.firstFailed = false) (hn : s.rd (copyCode (!copyNow s)) = 0) :
    copyFails code s = withCfg { s.cfg with firstFailed := true } (s.wr (copyCode (copyNow s)) code) := by
  have h64 : ∀ b, (copyCode b).lo + (copyCode b).w ≤ 64 := fun b => le_trans (copyCode_fits b).2.1 (by decide)
  have hr : (s.wr (copyCode (copyNow s)) code).rd (copyCode (!copyNow s)) = 0 := by
    rw [rd_wr_other _ _ (h64 _) (h64 _) (Or.inr (copyCode_apart _).symm), hn]
  unfold copyFails
  refine if_neg ?_
  rintro (h | h)
  · exact absurd (hf.symm.trans h) Bool.false_ne_true
  · exact h hr

/-- A copy that fails with none left: the boot has failed. -/
theorem copyFails_last {code : Nat} (hf : s.cfg.firstFailed = true) :
    copyFails code s = bootFailed (s.wr (copyCode (copyNow s)) code) := if_pos (Or.inl hf)

/-! #### Boot training (R216) -/

/-- Entries taken away by their key read as unlisted ones do. -/
theorem SMap.get_filter {α : Type} [DecidableEq α] {d : Nat → α} {lo : Nat} {m : SMap α} (h : SMap.wfFrom d lo m = true) (p : Nat → Bool) (k : Nat) :
    SMap.get d (m.filter fun e => p e.1) k = if p k then SMap.get d m k else d k := by
  have hf : SMap.wfFrom d lo (m.filter fun e => p e.1) = true := SMap.wfFrom_filter d _ h
  by_cases hg : SMap.get d (m.filter fun e => p e.1) k = d k
  · rw [hg]
    by_cases hp : p k = true
    · rw [if_pos hp]
      by_contra hm
      have hmem := (List.mem_filter (p := fun e : Nat × α => p e.1)).2 ⟨SMap.mem_of_get d m k (Ne.symm hm), hp⟩
      exact hm ((SMap.get_of_mem d hf hmem).symm.trans hg).symm
    · rw [if_neg hp]
  · have hmem := SMap.mem_of_get d (m.filter fun e => p e.1) k hg
    obtain ⟨hm, hp⟩ := List.mem_filter.1 hmem
    rw [if_pos hp]
    exact (SMap.get_of_mem d h hm).symm

/-- Memory of a stack reads 0 after it is cleared, all other memory as it did. -/
theorem memByte_zeroStack (n : Nat) (hi : Machine.Inv s) (a : Nat) :
    (zeroStack n s).memByte a = if inCellar a = true ∧ stackOf a = n then 0 else s.memByte a := by
  obtain ⟨-, -, hm, -, -⟩ := hi
  have h := SMap.get_filter hm (fun x => !(inCellar x && stackOf x == n)) a
  refine h.trans ?_
  by_cases hc : inCellar a = true ∧ stackOf a = n
  · obtain ⟨h1, h2⟩ := hc
    rw [h1, h2, if_neg (by simp), if_pos ⟨rfl, rfl⟩]
    have hlo : 0x002000000000 ≤ a := by
      unfold inCellar at h1
      simp only [Bool.and_eq_true, decide_eq_true_eq] at h1
      exact h1.1
    exact if_neg (by omega)
  · rw [if_neg hc, if_pos (by simpa [imp_iff_not_or] using hc)]
    rfl

/-- The stack is present, cleared and stamped, before the free pages are shown. -/
def stackTrained (n : Nat) (t duty : Int) (s : State) : State := stackStamp n t duty (zeroStack n (s.setBit CEL_STATUS_STK_OK n))

theorem bootTrain_eq {n tries : Nat} {t duty : Int} (hb : s.cfg.boot = .copyChosen) (hst : s.rd (CEL_TRAIN_STATE n) = 0)
    (hok : s.stackOk n = false) (h1 : 1 ≤ tries) (h3 : tries ≤ 3) : bootTrain n tries t duty s = showPages (stackTrained n t duty s) := by
  unfold bootTrain
  rw [if_neg (by rw [hb, hst, hok]; simp), if_pos ⟨h1, h3⟩]
  rfl

theorem memByte_congr {o : State} (h : s.mem = o.mem) {a : Nat} : s.memByte a = o.memByte a := by
  unfold State.memByte
  rw [h]

/-- The stamp of a stack depends on CEL's part and the ticks alone. -/
theorem stamp_congr {o : State} (hc : s.cel = o.cel) (ht : s.ticks = o.ticks) (n : Nat) :
    (s.setStack n { s.stack n with stampAt := s.ticks, steps := 0, restarts := 0 }).cel.hbm =
      (o.setStack n { o.stack n with stampAt := o.ticks, steps := 0, restarts := 0 }).cel.hbm := by
  unfold State.setStack State.stack
  rw [hc, ht]

theorem zeroStack_cel (n : Nat) : (zeroStack n s).cel = s.cel ∧ (zeroStack n s).ticks = s.ticks := ⟨rfl, rfl⟩

theorem stackStamp_hbm {n : Nat} {t duty : Int} : (stackStamp n t duty s).cel.hbm =
    (s.setStack n { s.stack n with stampAt := s.ticks, steps := 0, restarts := 0 }).cel.hbm := by
  unfold stackStamp
  exact stamp_congr (by simp only [wr_cel]) (by simp only [wr_ticks]) n

theorem stackTrained_hbm {n : Nat} {t duty : Int} : (stackTrained n t duty s).cel.hbm =
    (s.setStack n { s.stack n with stampAt := s.ticks, steps := 0, restarts := 0 }).cel.hbm := by
  obtain ⟨hc, ht⟩ := zeroStack_cel (s := s.setBit CEL_STATUS_STK_OK n) n
  unfold stackTrained
  rw [stackStamp_hbm]
  exact stamp_congr (hc.trans (setBit_cel s _ n)) (ht.trans (setBit_ticks s _ n)) n

theorem stackTrained_mem {n : Nat} {t duty : Int} : (stackTrained n t duty s).mem = (zeroStack n (s.setBit CEL_STATUS_STK_OK n)).mem := by
  have h : Kept false [.regs, .cel] (Set.univ : Set Nat) (zeroStack n (s.setBit CEL_STATUS_STK_OK n)) (stackTrained n t duty s) :=
    kept_stackStamp Kept.rfl_frame (by decide) (by decide) (Set.mem_univ _)
  exact h.frame .mem (by decide)

/-- HBM_BOOT_TRAINING of a stack that trains. -/
theorem bootTrain_trains {n tries : Nat} {t duty : Int} (hi : Machine.Inv s) (hb : s.cfg.boot = .copyChosen)
    (hst : s.rd (CEL_TRAIN_STATE n) = 0) (hok : s.stackOk n = false) (h1 : 1 ≤ tries) (h3 : tries ≤ 3) :
    (bootTrain n tries t duty s).cel.hbm = (s.setStack n { s.stack n with stampAt := s.ticks, steps := 0, restarts := 0 }).cel.hbm ∧
      ∀ a, (bootTrain n tries t duty s).memByte a = if inCellar a = true ∧ stackOf a = n then 0 else s.memByte a := by
  have hp := kept_showPages (kb := false) (kl := [.regs]) (bl := (Set.univ : Set Nat)) (Kept.rfl_frame (s := stackTrained n t duty s))
    (by decide) (Set.mem_univ _)
  have hcel : (showPages (stackTrained n t duty s)).cel = (stackTrained n t duty s).cel := hp.frame .cel (by decide)
  have hmem : (showPages (stackTrained n t duty s)).mem = (stackTrained n t duty s).mem := hp.frame .mem (by decide)
  have hi' : Machine.Inv (s.setBit CEL_STATUS_STK_OK n) :=
    (kept_st_setBit (kl := [.regs]) (bl := (Set.univ : Set Nat)) (Kept.refl hi) (by decide) (Set.mem_univ _)).inv
  rw [bootTrain_eq hb hst hok h1 h3, hcel, stackTrained_hbm]
  refine ⟨rfl, fun a => ?_⟩
  rw [memByte_congr hmem, memByte_congr stackTrained_mem, memByte_zeroStack n hi', memByte_setBit]

/-! #### Base firmware (R23) -/

/-- The registers that the first blocks to run may change. -/
def firstRunRegs : List Nat := [CFG_BLK_RUN.addr, CFG_BLK_STOPPED.addr, TSK_STATUS.addr]

section
variable {o : State}

theorem tskSrc_off : ∀ n : Fin 64, (TSK_SRC_EN n).addr ∉ firstRunRegs := by decide

theorem tskQuiet_onlyRegs (h : OnlyRegs firstRunRegs o s) (hq : TskQuiet o) : TskQuiet s := by
  obtain ⟨ht, hs⟩ := hq
  refine ⟨?_, fun n => (bit_congr (onlyRegs_reg h (tskSrc_off n))).trans (hs n)⟩
  rw [h.1]
  exact ht

/-- Where every source is off, the level sources change nothing. -/
theorem levelSources_quiet (hq : TskQuiet s) : levelSources s = s := by
  unfold levelSources
  refine foldl_fixed fun n hn => ?_
  have hoff : routeSource n s = s := by
    unfold routeSource
    rw [hq.2 ⟨n, by have := List.mem_range.1 hn; omega⟩]
    exact if_neg Bool.false_ne_true
  rw [hoff, ite_self]

/-- A TSK clock with no task and no source only shows so. -/
theorem tskClock_quiet (hq : TskQuiet s) : OnlyRegs firstRunRegs s (tskClock s) := by
  have hshow : OnlyRegs firstRunRegs s (showTsk s) := onlyRegs_wr (onlyRegs_wr onlyRegs_refl (by decide)) (by decide)
  have hset : tskSettle s = showTsk s := by
    unfold tskSettle
    rw [hq.1]
    exact ite_self _
  unfold tskClock
  rw [levelSources_quiet hq, hset]
  exact onlyRegs_ite hshow onlyRegs_refl

theorem onlyRegs_trans {as : List Nat} {t : State} (h : OnlyRegs as o s) (ht : OnlyRegs as s t) : OnlyRegs as o t := by
  refine ⟨?_, fun a ha => (ht.2 a ha).trans (h.2 a ha)⟩
  rw [ht.1, h.1]

/-- A block started with TSK quiet changes no more than these registers. -/
theorem blockRestart_quiet {n : Nat} (hn : n ∉ [blkACT, blkCAS]) (hq : TskQuiet s) : OnlyRegs firstRunRegs s (blockRestart n s) := by
  have hclr : OnlyRegs firstRunRegs s (s.clrBit CFG_BLK_STOPPED n) := onlyRegs_wr onlyRegs_refl (by decide)
  simp only [List.mem_cons, List.not_mem_nil, or_false, not_or] at hn
  obtain ⟨hact, hcas⟩ := hn
  unfold blockRestart
  rw [if_neg hact, if_neg hcas]
  exact onlyRegs_ite onlyRegs_refl (onlyRegs_ite (onlyRegs_trans hclr (tskClock_quiet (tskQuiet_onlyRegs hclr hq))) hclr)

theorem runBlocks_quiet {l : List Nat} (hl : ∀ n ∈ l, n ∉ [blkACT, blkCAS]) (hq : TskQuiet s) : OnlyRegs firstRunRegs s (runBlocks l s) := by
  induction l generalizing s with
  | nil => exact onlyRegs_refl
  | cons n l ih =>
    have hrun : OnlyRegs firstRunRegs s (s.setBit CFG_BLK_RUN n) := onlyRegs_wr onlyRegs_refl (by decide)
    have h1 := onlyRegs_trans hrun (blockRestart_quiet (hl n List.mem_cons_self) (tskQuiet_onlyRegs hrun hq))
    exact onlyRegs_trans h1 (ih (fun m hm => hl m (List.mem_cons_of_mem _ hm)) (tskQuiet_onlyRegs h1 hq))
end

/-- The customer configuration section of the copy that boots. -/
def configSection (s : State) : Option (Nat × Nat) :=
  ((sectionsOf (hdrOf s (s.bit CFG_BOOT_STATUS_COPY))).find? (fun x => x.type == 2)).map (fun x => (x.load, x.size))

/-- The load address of base firmware. -/
def firmwareAt (s : State) : Nat := ((sectionsOf (hdrOf s (s.bit CFG_BOOT_STATUS_COPY))).find? (fun x => x.type == 1)).elim 0 (·.load)

/-- Core 0 is at base firmware, with the configuration at hand. -/
def firmwareReady (s : State) : State :=
  (withCfg { s.cfg with
    boot := .booted, cfgAt := configSection s, cfgDone := (configSection s).isNone, recIdx := 0, waiting := false } s).setHart 0
    { running := true, mode := .s, pc := firmwareAt s }

theorem firmwareEntry_eq (h : s.cfg.boot = .copyChosen) :
    firmwareEntry s = safeNActs (runBlocks [blkCLK, blkPWR, blkFLT, blkTSK, blkACU] (firmwareReady s)) := by
  unfold firmwareEntry
  rw [if_neg (not_not_intro h)]
  rfl

/-- With SAFE_N high nothing acts. -/
theorem safeNActs_high (h : s.bit FLT_SUMMARY_SAFE_N = true) : safeNActs s = s := if_neg fun hc => hc.2 h

/-- BASE_FIRMWARE_ENTRY with SAFE_N high and TSK quiet. -/
theorem firmwareEntry_enters (h : s.cfg.boot = .copyChosen) (hn : s.bit FLT_SUMMARY_SAFE_N = true) (hq : TskQuiet s) :
    (firmwareEntry s).cfg.boot = .booted ∧ (firmwareEntry s).cfg.cfgAt = configSection s ∧
      (firmwareEntry s).hart 0 = { running := true, mode := .s, pc := firmwareAt s } := by
  have hready : ∀ q, (firmwareReady s).bit q = s.bit q := fun q => (bit_setHart _ _ _ q).trans (withCfg_bit _ s q)
  have hk : OnlyRegs firstRunRegs (firmwareReady s) (runBlocks [blkCLK, blkPWR, blkFLT, blkTSK, blkACU] (firmwareReady s)) :=
    runBlocks_quiet (by decide) ⟨hq.1, fun n => (hready _).trans (hq.2 n)⟩
  have hhigh := (bit_congr (q := FLT_SUMMARY_SAFE_N) (onlyRegs_reg hk (by decide))).trans ((hready _).trans hn)
  rw [firmwareEntry_eq h, safeNActs_high hhigh, onlyRegs_cfg hk]
  refine ⟨rfl, rfl, ?_⟩
  have hh : ∀ t, OnlyRegs firstRunRegs (firmwareReady s) t → t.hart 0 = (firmwareReady s).hart 0 := fun t ht => by
    unfold State.hart
    rw [ht.1]
  exact (hh _ hk).trans (hart_setHart _ 0 _)
end

/-- Settles O11: each row by what its step comes to. -/
theorem bootSequenceRows : Obligations.BootSequenceRows := by
  unfold Obligations.BootSequenceRows
  refine ⟨fun mgr safeN s h => ⟨_, rfl, resetRelease_starts mgr safeN h⟩, fun width mib s h hm => ?_, fun width mib s h hm => ?_,
    fun width mib s h => ⟨_, congrArg Host.Outcome.next (sfdpDone_eq false (flashLines width) mib.toNat h), rfl, rfl⟩,
    fun a b errA errB s h hc hor => ?_, fun a b errA errB s h hc ha hb => ?_,
    fun c data s h hp => ⟨_, rfl, copyValidated_boots h hp⟩, fun c data s h hp hf hn => ?_, fun c data s h hp hf => ?_,
    fun n tries temp duty s hi hb hst hok ht => ?_, fun s h hn hq => ⟨_, rfl, firmwareEntry_enters h hn hq⟩⟩
  · have he := sfdpDone_eq true (flashLines width) mib.toNat h
    rw [if_neg (by decide), if_neg (Nat.not_lt.2 hm)] at he
    obtain ⟨h1, h2⟩ := flashRead_bits (s := s)
    refine ⟨_, congrArg Host.Outcome.next he, rfl, rfl, ?_, ?_, ?_⟩
    · rw [rd_wr_same _ _ (by decide), Nat.mod_eq_of_lt (flashLines_lt width)]
    · rw [bit_congr (reg_wr_ne _ _ (by decide)), withCfg_bit, h1]
    · rw [bit_congr (reg_wr_ne _ _ (by decide)), withCfg_bit, h2]
  · have he := sfdpDone_eq true (flashLines width) mib.toNat h
    rw [if_neg (by decide), if_pos hm] at he
    exact ⟨_, congrArg Host.Outcome.next he, bootFailed_boot _⟩
  · have he := headersRead_eq (a := a) (b := b) (errA := errA) (errB := errB) h hc
    rw [if_neg fun hn => hor.elim hn.1 hn.2] at he
    obtain ⟨h1, h2, h3, h4⟩ := codesShown_reads (s := s) (hdrCode errA a) (hdrCode errB b)
    refine ⟨_, congrArg Host.Outcome.next he, rfl, rfl, ?_, ?_, ?_, fun ha hb => ?_, fun x hx => ?_⟩
    · rw [copiesRanked, withCfg_bit, h1]
    · rw [copiesRanked, withCfg_rd, h2]
    · rw [copiesRanked, withCfg_rd, h3]
    · rw [copiesRanked, withCfg_cfg, rankedB, if_pos ⟨ha, hb⟩]
    · rw [copiesRanked, withCfg_reg, h4 x hx]
  · have he := headersRead_eq (a := a) (b := b) (errA := errA) (errB := errB) h hc
    rw [if_pos ⟨ha, hb⟩] at he
    exact ⟨_, congrArg Host.Outcome.next he, bootFailed_boot _⟩
  · have he := (copyValidated_fails h hp).trans (copyFails_turns hf hn)
    refine ⟨_, congrArg Host.Outcome.next he, h, rfl, ?_⟩
    obtain ⟨-, h12, hw⟩ := copyCode_fits (copyNow s)
    rw [withCfg_rd, rd_wr_same _ _ (le_trans h12 (by decide)), hw]
    rfl
  · exact ⟨_, congrArg Host.Outcome.next ((copyValidated_fails h hp).trans (copyFails_last hf)), bootFailed_boot _⟩
  · have h1 : 1 ≤ tries.val := Nat.one_le_iff_ne_zero.2 fun e => ht (Fin.ext e)
    exact ⟨_, rfl, bootTrain_trains hi hb hst hok h1 (by omega)⟩

/-! ### Every command completes (INDEX.md) -/

section
variable {β : Type} [Membership Nat β] {kb : Bool} {kl : List Part} {bl : β} {ko : State}

/-- Where every register may change, those of each block may. -/
theorem full_blocks (h : ∀ n, n ∈ bl) :
    blkCFG ∈ bl ∧ blkCLK ∈ bl ∧ blkPWR ∈ bl ∧ blkFLT ∈ bl ∧ blkTSK ∈ bl ∧ blkACU ∈ bl ∧ blkLPH ∈ bl ∧ blkDSF ∈ bl ∧
    blkACT ∈ bl ∧ blkUBE ∈ bl ∧ blkCHP ∈ bl ∧ blkPRS ∈ bl ∧ blkCLS ∈ bl ∧ blkFLW ∈ bl ∧ blkSPC ∈ bl ∧ blkCEL ∈ bl ∧
    blkSCH ∈ bl ∧ blkGCL ∈ bl ∧ blkCIP ∈ bl ∧ blkKLN ∈ bl ∧ blkMAC ∈ bl ∧ blkTIM ∈ bl ∧ blkOHS ∈ bl ∧ blkCAS ∈ bl :=
  ⟨h _, h _, h _, h _, h _, h _, h _, h _, h _, h _, h _, h _, h _, h _, h _, h _, h _, h _, h _, h _, h _, h _, h _, h _⟩

/-- Every command answers a next state, which keeps the invariant and every part outside a list of all but the queue: each arm by the law
of its own meaning. -/
theorem exec_kept (c : Instr) {s : State} (h : Kept kb kl bl ko s) (h_full : ∀ p, p ≠ Part.pending → p ≠ Part.free → p ∈ kl)
    (h_p_free : Part.free ∈ kl) (h_all : ∀ n, n ∈ bl) : ∃ t, exec c s = .next t ∧ Kept kb kl bl ko t := by
  obtain ⟨h_p_regs, h_p_shadow, h_p_mem, h_p_ecc, h_p_readOut, h_p_ticks, h_p_tod, h_p_cfg, h_p_flt, h_p_tsk, h_p_harts, h_p_acu, h_p_pwr,
    h_p_cel, h_p_sch, h_p_gcl, h_p_kln, h_p_act, h_p_ube, h_p_chp, h_p_dsf, h_p_ohs, h_p_pipes, h_p_cls, h_p_flw, h_p_spc, h_p_mac,
    h_p_lph, h_p_tim, h_p_cas, h_p_clk, h_p_tap, h_p_boot, h_p_power⟩ := full_parts h_full
  obtain ⟨h_b_CFG, h_b_CLK, h_b_PWR, h_b_FLT, h_b_TSK, h_b_ACU, h_b_LPH, h_b_DSF, h_b_ACT, h_b_UBE, h_b_CHP, h_b_PRS, h_b_CLS, h_b_FLW,
    h_b_SPC, h_b_CEL, h_b_SCH, h_b_GCL, h_b_CIP, h_b_KLN, h_b_MAC, h_b_TIM, h_b_OHS, h_b_CAS⟩ := full_blocks h_all
  cases c
  case powerUp => exact ⟨_, rfl, kept_powerUp h⟩
  case vrEnRise => exact ⟨_, rfl, kept_vrEnRise h⟩
  case vrEnFall => exact ⟨_, rfl, kept_vrEnFall h⟩
  case powerLoss => exact ⟨_, rfl, kept_powerLoss h⟩
  case resetNAssert => exact ⟨_, rfl, kept_resetPin h⟩
  case resetRelease => exact ⟨_, rfl, kept_resetRelease h⟩
  case sfdpReadDone => exact ⟨_, rfl, kept_sfdpDone h⟩
  case copyHeadersRead => exact ⟨_, rfl, kept_headersRead h⟩
  case copyValidated => exact ⟨_, rfl, kept_copyValidated h⟩
  case hbmBootTraining => exact ⟨_, rfl, kept_bootTrain h⟩
  case baseFirmwareEntry => exact ⟨_, rfl, kept_firmwareEntry h⟩
  case configRecord => exact ⟨_, rfl, kept_configRecord h⟩
  case configWaitTimeout => exact ⟨_, rfl, kept_configTimeout h⟩
  case cfgResetWrite | spiCommand | blockStop | blockRestart | bankSwapRequest | bankCancel | groupCommit | groupAbort | portSelectWrite |
      receiverEnable | receiverDisable | transmitterEnable | calTrimRequest | laserSourceAccess | dsfIndRead | dsfIndWrite | actEnable |
      actDisable | actRestart | rxqPop | txqSend | ubeIndRead | ubeIndWrite | reinjectNewPass | reinjectToQueue | clsIndRead | clsIndWrite
      | versionCommitRequest | spqConsume | flowInsert | flowLookupCmd | flowUpdate | flowDelete | counterRead | ageqConsume |
      hbmRetrainRequest | celIndRead | celIndWrite | poolWrite | schIndRead | schIndWrite | leafFlush | histogramClear | klnDerive |
      klnUnwrap | klnLoad | klnErase | klnRootLoad | klnRootErase | klnQuery | bindRead | bindWrite | rkProgram | cipIndRead | cipIndWrite
      | fwRingPost | portEnable | portDisable | timeLoad | timeStep | timeSampleWrite | tsqPop | tsqLogClear | taskPost | taskDone |
      taskYield | taskCancel | taskEnable | tskIndRead | tskIndWrite | acuWindowRead | acuWindowWrite | powerRequestFull |
      powerRequestTrim | powerRequestDoze | powerRequestTaste | powerRequestOff | lineModeAwake | lineModeDoze | lineModeSleep |
      wakeLogPop | safeEnter | safeExit | recordRead | recordRelease | injectArm | injectDisarm | linkGroupEnable | casIndRead |
      casIndWrite | coreClockSwitch | cpllConfig | clockMeasure =>
    exact ⟨_, rfl, kept_regAccess h⟩
  case spiCommandDone => exact ⟨_, rfl, kept_whenUp (fun s hs => kept_spiDone hs) h⟩
  case registerWrite | sxWrite | shWrite | stWrite => exact ⟨_, rfl, kept_busWrite h⟩
  case bankSwap => exact ⟨_, rfl, kept_whenUp (fun s hs => kept_bankSwap hs) h⟩
  case bankShadowCopyDone => exact ⟨_, rfl, kept_whenUp (fun s hs => kept_bankCopyDone hs) h⟩
  case groupCommitEffect => exact ⟨_, rfl, kept_whenUp (fun s hs => kept_groupEffect hs) h⟩
  case portMoveStart => exact ⟨_, rfl, kept_whenUp (fun s hs => kept_portMoveStart hs) h⟩
  case portHoldRelease => exact ⟨_, rfl, kept_whenUp (fun s hs => kept_portRelease hs) h⟩
  case crLockAcquired => exact ⟨_, rfl, kept_whenUp (fun s hs => kept_crLock hs) h⟩
  case carrierLoss => exact ⟨_, rfl, kept_whenUp (fun s hs => kept_crFall hs) h⟩
  case losAssert => exact ⟨_, rfl, kept_whenUp (fun s hs => kept_losAssert hs) h⟩
  case losClear => exact ⟨_, rfl, kept_whenUp (fun s hs => kept_losClear hs) h⟩
  case loLineLow | loLineRestored => exact ⟨_, rfl, kept_whenUp (fun s hs => kept_loLine hs) h⟩
  case combLow | combRestored => exact ⟨_, rfl, kept_whenUp (fun s hs => kept_combPower hs) h⟩
  case codewordDecoded => exact ⟨_, rfl, kept_whenUp (fun s hs => kept_codewordDecoded hs) h⟩
  case provisionalRelease => exact ⟨_, rfl, kept_whenUp (fun s hs => kept_provisionalRelease hs) h⟩
  case calConditionCheck => exact ⟨_, rfl, kept_whenUp (fun s hs => kept_calCheck hs) h⟩
  case calTrimStart => exact ⟨_, rfl, kept_whenUp (fun s hs => kept_calStart hs) h⟩
  case calTrimComplete => exact ⟨_, rfl, kept_whenUp (fun s hs => kept_calComplete hs) h⟩
  case eqWindowClose => exact ⟨_, rfl, kept_whenUp (fun s hs => kept_eqWindow hs) h⟩
  case laserPoll => exact ⟨_, rfl, kept_whenUp (fun s hs => kept_laserPoll hs) h⟩
  case laserAccessDone => exact ⟨_, rfl, kept_whenUp (fun s hs => kept_laserDone hs) h⟩
  case fawMatch => exact ⟨_, rfl, kept_whenUp (fun s hs => kept_fawMatch hs) h⟩
  case expectedWindow => exact ⟨_, rfl, kept_whenUp (fun s hs => kept_expectedWindow hs) h⟩
  case frameHeader => exact ⟨_, rfl, kept_whenUp (fun s hs => kept_frameHeader hs) h⟩
  case flywheelTick => exact ⟨_, rfl, kept_whenUp (fun s hs => kept_flywheelTick hs) h⟩
  case ohsInsertBlock => exact ⟨_, rfl, kept_whenUp (fun s hs => kept_ohsBlock hs) h⟩
  case ohsShortBlock => exact ⟨_, rfl, kept_whenUp (fun s hs => kept_ohsShort hs) h⟩
  case mapEntry => exact ⟨_, rfl, kept_whenUp (fun s hs => kept_mapEntry hs) h⟩
  case fragment => exact ⟨_, rfl, kept_whenUp (fun s hs => kept_fragmentStep hs) h⟩
  case reassemblyTimeout => exact ⟨_, rfl, kept_whenUp (fun s hs => kept_reassemblyTimeout hs) h⟩
  case actGroupStage => exact ⟨_, rfl, kept_whenUp (fun s hs => kept_actStage hs) h⟩
  case tAsgExpiry => exact ⟨_, rfl, kept_whenUp (fun s hs => kept_tAsgExpire hs) h⟩
  case tRngExpiry => exact ⟨_, rfl, kept_whenUp (fun s hs => kept_tRngExpire hs) h⟩
  case tIntExpiry => exact ⟨_, rfl, kept_whenUp (fun s hs => kept_tIntExpire hs) h⟩
  case stoppedHoldExpiry => exact ⟨_, rfl, kept_whenUp (fun s hs => kept_holdExpire hs) h⟩
  case unknownMessage => exact ⟨_, rfl, kept_whenUp (fun s hs => kept_unknownMsg hs) h⟩
  case lineParams => exact ⟨_, rfl, kept_whenUp (fun s hs => kept_takeMsg (fun s hs => kept_doLineParams hs) hs) h⟩
  case assignTn => exact ⟨_, rfl, kept_whenUp (fun s hs => kept_takeMsg (fun s hs => kept_doAssignTn hs) hs) h⟩
  case rangingTime => exact ⟨_, rfl, kept_whenUp (fun s hs => kept_takeMsg (fun s hs => kept_doRangingTime hs) hs) h⟩
  case burstProfile => exact ⟨_, rfl, kept_whenUp (fun s hs => kept_takeMsg (fun s hs => kept_doBurstProfile hs) hs) h⟩
  case authChallenge => exact ⟨_, rfl, kept_whenUp (fun s hs => kept_takeMsg (fun s hs => kept_doAuth hs) hs) h⟩
  case keyInstall | keyDerive | keyEraseIndex | keyEraseAll =>
    exact ⟨_, rfl, kept_whenUp (fun s hs => kept_takeMsg (fun s hs => kept_doKeyControl hs) hs) h⟩
  case streamAssign | allocAssign | powerMode =>
    exact ⟨_, rfl, kept_whenUp (fun s hs => kept_takeMsg (fun s hs => kept_doFirmware hs) hs) h⟩
  case timeOfDay => exact ⟨_, rfl, kept_whenUp (fun s hs => kept_takeMsg (fun s hs => kept_doTimeOfDay hs) hs) h⟩
  case disable => exact ⟨_, rfl, kept_whenUp (fun s hs => kept_takeMsg (fun s hs => kept_doDisable hs) hs) h⟩
  case enable => exact ⟨_, rfl, kept_whenUp (fun s hs => kept_takeMsg (fun s hs => kept_doEnable hs) hs) h⟩
  case deactivate => exact ⟨_, rfl, kept_whenUp (fun s hs => kept_takeMsg (fun s hs => kept_doDeactivate hs) hs) h⟩
  case protSwitch => exact ⟨_, rfl, kept_whenUp (fun s hs => kept_takeMsg (fun s hs => kept_doProtSwitch hs) hs) h⟩
  case wakeList => exact ⟨_, rfl, kept_whenUp (fun s hs => kept_takeMsg (fun s hs => kept_doWakeList hs) hs) h⟩
  case regWrite => exact ⟨_, rfl, kept_whenUp (fun s hs => kept_takeMsg (fun s hs => kept_doRegWrite hs) hs) h⟩
  case regRead => exact ⟨_, rfl, kept_whenUp (fun s hs => kept_takeMsg (fun s hs => kept_doRegRead hs) hs) h⟩
  case protSwitchEffect => exact ⟨_, rfl, kept_whenUp (fun s hs => kept_portOrder hs) h⟩
  case autoProtExpiry => exact ⟨_, rfl, kept_whenUp (fun s hs => kept_autoProtect hs) h⟩
  case mapReconcile => exact ⟨_, rfl, kept_whenUp (fun s hs => kept_mapReconcile hs) h⟩
  case nofragWaitExpiry => exact ⟨_, rfl, kept_whenUp (fun s hs => kept_nofragExpire hs) h⟩
  case burstStart => exact ⟨_, rfl, kept_whenUp (fun s hs => kept_burstStart hs) h⟩
  case upstreamFragmentEncode => exact ⟨_, rfl, kept_whenUp (fun s hs => kept_encodeFragment hs) h⟩
  case burstLeftModulator => exact ⟨_, rfl, kept_whenUp (fun s hs => kept_burstLeft hs) h⟩
  case chpFrameParse => exact ⟨_, rfl, kept_whenUp (fun s hs => kept_chpParse hs) h⟩
  case shutterDrive => exact ⟨_, rfl, kept_whenUp (fun s hs => kept_chpDrive hs) h⟩
  case shutRdyRise => exact ⟨_, rfl, kept_whenUp (fun s hs => kept_chpReady hs) h⟩
  case chpClose => exact ⟨_, rfl, kept_whenUp (fun s hs => kept_chpReact hs) h⟩
  case chpGateOutsideWindow => exact ⟨_, rfl, kept_whenUp (fun s hs => kept_gateOutside hs) h⟩
  case chpClockLoss => exact ⟨_, rfl, kept_whenUp (fun s hs => kept_clockLost hs) h⟩
  case chpGateTooLong => exact ⟨_, rfl, kept_whenUp (fun s hs => kept_gateTooLong hs) h⟩
  case chpDividerMismatch => exact ⟨_, rfl, kept_whenUp (fun s hs => kept_dividerOff hs) h⟩
  case chpCopyUncorrectable => exact ⟨_, rfl, kept_whenUp (fun s hs => kept_shutDown hs) h⟩
  case chpRelease => exact ⟨_, rfl, kept_releaseChannel h⟩
  case packetPass => exact ⟨_, rfl, kept_whenUp (fun s hs => kept_packetPass hs) h⟩
  case idleSlotEntry => exact ⟨_, rfl, kept_whenUp (fun s hs => kept_idleSlot hs) h⟩
  case reinjectOffered => exact ⟨_, rfl, kept_whenUp (fun s hs => kept_reinjectOffer hs) h⟩
  case versionCommit => exact ⟨_, rfl, kept_whenUp (fun s hs => kept_commitNow hs) h⟩
  case sweepDone => exact ⟨_, rfl, kept_whenUp (fun s hs => kept_sweepEnds hs) h⟩
  case flowInsertComplete => exact ⟨_, rfl, kept_whenUp (fun s hs => kept_insertEnds hs) h⟩
  case learnInsert => exact ⟨_, rfl, kept_whenUp (fun s hs => kept_learnInsert hs) h⟩
  case stashPlace => exact ⟨_, rfl, kept_whenUp (fun s hs => kept_stashPlace hs) h⟩
  case ageTick => exact ⟨_, rfl, kept_whenUp (fun s hs => kept_ageTick hs) h⟩
  case cidxHoldExpiry => exact ⟨_, rfl, kept_whenUp (fun s hs => kept_cidxFree hs) h⟩
  case deltaFlush => exact ⟨_, rfl, kept_whenUp (fun s hs => kept_deltaFlush hs) h⟩
  case runaheadIssue => exact ⟨_, rfl, kept_whenUp (fun s hs => kept_runAhead hs) h⟩
  case codewordVerdict => exact ⟨_, rfl, kept_whenUp (fun s hs => kept_codewordVerdict hs) h⟩
  case specTimeout => exact ⟨_, rfl, kept_whenUp (fun s hs => kept_specTimeout hs) h⟩
  case spillPageWrite => exact ⟨_, rfl, kept_whenRuns (fun s hs => kept_spillWrite hs) h⟩
  case spillWriteDone => exact ⟨_, rfl, kept_whenUp (fun s hs => kept_spillWriteDone hs) h⟩
  case cellarReturnRead => exact ⟨_, rfl, kept_whenRuns (fun s hs => kept_returnRead hs) h⟩
  case returnReadDone => exact ⟨_, rfl, kept_whenUp (fun s hs => kept_returnDone hs) h⟩
  case hbmConditionCheck => exact ⟨_, rfl, kept_whenUp (fun s hs => kept_stackCheck hs) h⟩
  case hbmRetrainStart => exact ⟨_, rfl, kept_whenUp (fun s hs => kept_retrainStart hs) h⟩
  case hbmRetrainStep => exact ⟨_, rfl, kept_whenUp (fun s hs => kept_retrainStep hs) h⟩
  case hbmRetrainDone => exact ⟨_, rfl, kept_whenUp (fun s hs => kept_retrainDone hs) h⟩
  case scrubRead => exact ⟨_, rfl, kept_whenUp (fun s hs => kept_scrubRead hs) h⟩
  case hbmRowTest => exact ⟨_, rfl, kept_whenUp (fun s hs => kept_rowTest hs) h⟩
  case hbmRowTestDone => exact ⟨_, rfl, kept_whenUp (fun s hs => kept_hbmTestDone hs) h⟩
  case scheduleSelect => exact ⟨_, rfl, kept_whenUp (fun s hs => kept_scheduleSelect hs) h⟩
  case shaperRefill => exact ⟨_, rfl, kept_whenRuns (fun s hs => kept_refillLevel hs) h⟩
  case histogramSample => exact ⟨_, rfl, kept_whenUp (fun s hs => kept_histSample hs) h⟩
  case gateEntryStart => exact ⟨_, rfl, kept_whenUp (fun s hs => kept_gateEntry hs) h⟩
  case gateListChange => exact ⟨_, rfl, kept_whenUp (fun s hs => kept_gateChange hs) h⟩
  case gateHoldAssert => exact ⟨_, rfl, kept_whenUp (fun s hs => kept_gateHold hs) h⟩
  case gateHoldRelease => exact ⟨_, rfl, kept_whenUp (fun s hs => kept_gateRelease hs) h⟩
  case cipherDispatch => exact ⟨_, rfl, kept_whenUp (fun s hs => kept_cipDispatch hs) h⟩
  case cipherComplete => exact ⟨_, rfl, kept_whenUp (fun s hs => kept_cipherDone hs) h⟩
  case fwDescriptor => exact ⟨_, rfl, kept_whenUp (fun s hs => kept_fwServe hs) h⟩
  case linkChange => exact ⟨_, rfl, kept_whenUp (fun s hs => kept_linkChange hs) h⟩
  case pfcPauseExpiry => exact ⟨_, rfl, kept_whenUp (fun s hs => kept_pauseEnds hs) h⟩
  case pfcXoff => exact ⟨_, rfl, kept_whenUp (fun s hs => kept_pfcChange hs) h⟩
  case pfcRefresh => exact ⟨_, rfl, kept_whenUp (fun s hs => kept_pfcRefresh hs) h⟩
  case macTransmit => exact ⟨_, rfl, kept_whenUp (fun s hs => kept_macTransmit hs) h⟩
  case mmVerifyAttempt => exact ⟨_, rfl, kept_whenUp (fun s hs => kept_verifyAttempt hs) h⟩
  case clientLightLow | clientLightRestored => exact ⟨_, rfl, kept_whenUp (fun s hs => kept_clientLight hs) h⟩
  case secondBoundary => exact ⟨_, rfl, kept_whenUp (fun s hs => kept_nextSecond hs) h⟩
  case ppsOutFall => exact ⟨_, rfl, kept_whenUp (fun s hs => kept_ppsFall hs) h⟩
  case todOutSend => exact ⟨_, rfl, kept_whenUp (fun s hs => kept_todSend hs) h⟩
  case todInMessage => exact ⟨_, rfl, kept_whenRuns (fun s hs => kept_todIn hs) h⟩
  case todReadLatch | clearingRead => exact ⟨_, rfl, kept_busFetch h⟩
  case tpllHoldover => exact ⟨_, rfl, kept_whenUp (fun s hs => kept_tpllHoldover hs) h⟩
  case tpllHoldoverExit => exact ⟨_, rfl, kept_whenUp (fun s hs => kept_tpllExit hs) h⟩
  case ppsInEdge => exact ⟨_, rfl, kept_whenRuns (fun s hs => kept_ppsEdge hs) h⟩
  case servoSampleTimeout => exact ⟨_, rfl, kept_whenUp (fun s hs => kept_sampleTimeout hs) h⟩
  case servoHoldoverExpiry => exact ⟨_, rfl, kept_whenUp (fun s hs => kept_holdoverEnds hs) h⟩
  case postApply => exact ⟨_, rfl, kept_whenUp (fun s hs => kept_postApply hs) h⟩
  case hwEventSource => exact ⟨_, rfl, kept_whenUp (fun s hs => kept_hwEvent hs) h⟩
  case taskAssign => exact ⟨_, rfl, kept_whenUp (fun s hs => kept_tskAssign hs) h⟩
  case powerEntryStart => exact ⟨_, rfl, kept_whenUp (fun s hs => kept_hartWaits hs) h⟩
  case powerEntryComplete => exact ⟨_, rfl, kept_entryDone h⟩
  case powerTransitionEnd => exact ⟨_, rfl, kept_unitsDone h⟩
  case lineModeApply => exact ⟨_, rfl, kept_whenUp (fun s hs => kept_modeApply hs) h⟩
  case dozeEnd => exact ⟨_, rfl, kept_whenUp (fun s hs => kept_dozeDone hs) h⟩
  case sleepEarlyWake => exact ⟨_, rfl, kept_whenUp (fun s hs => kept_sleepEarly hs) h⟩
  case sleepEnd => exact ⟨_, rfl, kept_whenUp (fun s hs => kept_sleepDone hs) h⟩
  case tasteCycle => exact ⟨_, rfl, kept_tasteCycle h⟩
  case tasteCycleTimeout => exact ⟨_, rfl, kept_tasteTimeout h⟩
  case wakeI2c | wakeSpi | wakeN => exact ⟨_, rfl, kept_wakeLatch h⟩
  case wakeSd => exact ⟨_, rfl, kept_wakeSd h⟩
  case wakeTimer => exact ⟨_, rfl, kept_wakeTimer h⟩
  case wakeStart => exact ⟨_, rfl, kept_wakeStart h⟩
  case wakeRetry => exact ⟨_, rfl, kept_wakeRetry h⟩
  case wakeComplete => exact ⟨_, rfl, kept_wakeDone h⟩
  case faultLatch => exact ⟨_, rfl, kept_whenUp (fun s hs => kept_faultLatch hs) h⟩
  case faultReaction => exact ⟨_, rfl, kept_whenUp (fun s hs => kept_runReaction hs) h⟩
  case selfTestDone => exact ⟨_, rfl, kept_whenUp (fun s hs => kept_selfTestDone hs) h⟩
  case quietWindowEnd => exact ⟨_, rfl, kept_whenUp (fun s hs => kept_quietEnds hs) h⟩
  case tempWarning => exact ⟨_, rfl, kept_whenUp (fun s hs => kept_tempReading hs) h⟩
  case safeNLow => exact ⟨_, rfl, kept_whenUp (fun s hs => kept_safeNLow hs) h⟩
  case terminationProbe => exact ⟨_, rfl, kept_whenUp (fun s hs => kept_terminationProbe hs) h⟩
  case trainDone => exact ⟨_, rfl, kept_whenUp (fun s hs => kept_trainDone hs) h⟩
  case commaLock => exact ⟨_, rfl, kept_whenUp (fun s hs => kept_commaLock hs) h⟩
  case linkStateTimeout => exact ⟨_, rfl, kept_whenUp (fun s hs => kept_linkTimeout hs) h⟩
  case linkGroupFail => exact ⟨_, rfl, kept_whenUp (fun s hs => kept_groupFails hs) h⟩
  case casEqWindow => exact ⟨_, rfl, kept_whenUp (fun s hs => kept_casWindow hs) h⟩
  case containerReceive => exact ⟨_, rfl, kept_whenUp (fun s hs => kept_casLine hs) h⟩
  case caps | heartbeat | join | assign | view | readReq | bootContainer | time | probe | probeResp =>
    exact ⟨_, rfl, kept_whenUp (fun s hs => kept_casTyped hs) h⟩
  case cascadeArrival => exact ⟨_, rfl, kept_whenUp (fun s hs => kept_cascadeArrival hs) h⟩
  case heartbeatTick => exact ⟨_, rfl, kept_whenUp (fun s hs => kept_heartbeatTick hs) h⟩
  case memberCheckTick => exact ⟨_, rfl, kept_whenUp (fun s hs => kept_memberCheck hs) h⟩
  case electionTimeout => exact ⟨_, rfl, kept_whenUp (fun s hs => kept_becomeManager hs) h⟩
  case mgrLost => exact ⟨_, rfl, kept_whenUp (fun s hs => kept_managerLost hs) h⟩
  case joinRetry => exact ⟨_, rfl, kept_whenUp (fun s hs => kept_joinRetry hs) h⟩
  case bootWaitExpiry => exact ⟨_, rfl, kept_whenUp (fun s hs => kept_bootWaitEnds hs) h⟩
  case cpllLoss => exact ⟨_, rfl, kept_whenUp (fun s hs => kept_cpllLost hs) h⟩
  case spllLoss => exact ⟨_, rfl, kept_whenUp (fun s hs => kept_spllLost hs) h⟩
  case xtalFail => exact ⟨_, rfl, kept_xtalFails h⟩
  case xtalAdopt => exact ⟨_, rfl, kept_xtalAdopt h⟩
  case syncRefLoss => exact ⟨_, rfl, kept_whenUp (fun s hs => kept_srefLost hs) h⟩
  case clockMeasureDone => exact ⟨_, rfl, kept_whenUp (fun s hs => kept_measDone hs) h⟩
  case syncRefRestore => exact ⟨_, rfl, kept_whenUp (fun s hs => kept_srefBack hs) h⟩
  case cpllLockAcquired => exact ⟨_, rfl, kept_whenUp (fun s hs => kept_cpllLocks hs) h⟩
  case xtalAdoptTimeout => exact ⟨_, rfl, kept_xtalLate h⟩
  case ppsInTodWaitExpiry => exact ⟨_, rfl, kept_whenUp (fun s hs => kept_ppsWaitEnds hs) h⟩
  case tempWarningRearm => exact ⟨_, rfl, kept_whenUp (fun s hs => kept_tempRearm hs) h⟩
  case safeNHigh => exact ⟨_, rfl, kept_whenUp (fun s hs => kept_safeNHigh hs) h⟩
  case hostWrite => exact ⟨_, rfl, kept_ite (kept_busWrite h) h⟩
  case hostRead => exact ⟨_, rfl, kept_ite (kept_busFetch h) h⟩
  case blockStopped => exact ⟨_, rfl, kept_whenUp (fun s hs => kept_ite (kept_blockStopped hs) hs) h⟩
  case chpDutyExceeded => exact ⟨_, rfl, kept_whenUp (fun s hs => kept_ite (kept_shutDown hs) hs) h⟩
  case chpFatalShutdown => exact ⟨_, rfl, kept_whenUp (fun s hs => kept_ite (kept_shutDownAll hs) hs) h⟩
  case resetDeviceExpiry => exact ⟨_, rfl, kept_whenUp (fun s hs => kept_ite (kept_deviceReset hs) hs) h⟩
  case ppsInSourceLost => exact ⟨_, rfl, kept_whenUp (fun s hs => kept_ite (kept_servoHold hs) hs) h⟩
  case keyGenerationDrained => exact ⟨_, rfl, kept_whenUp (fun s hs => kept_keyAnswers (kept_slotDrained hs)) h⟩
  case macReceiveFrame => exact ⟨_, rfl, kept_whenUp (fun s hs => kept_macArrive (kept_fecCount hs)) h⟩
end

/-- Settles O3: no law of a command's meaning lists the queue among the parts that may change. -/
theorem everyCommandCompletes : Obligations.EveryCommandCompletes := by
  unfold Obligations.EveryCommandCompletes
  intro c s
  have h : Kept false allParts (Set.univ : Set Nat) s s := Kept.rfl_frame
  obtain ⟨t, ht, hk⟩ := exec_kept c h (fun p hp _ => mem_allParts hp) (by decide) Set.mem_univ
  exact ⟨t, ht, hk.frame .pending (by decide)⟩

end Sys2Proof.Machine
end

section
/-! PROOFS. The line optics and coding family (chapter 03): the laser sources, signal and carrier, calibration and the equaliser, the
port switch, and receivers and transmitters enabled and disabled. -/

namespace Sys2Proof.Machine
open Sys2Proof.Spec

set_option Elab.async false

/-! ### Writes of LPH registers -/

theorem regionOf_lph {a : Nat} (h : blkOf a = blkLPH) : regionOf a = .regs := by
  have h' : a / 0x1000000 = 8 := h
  exact if_pos (by omega)

theorem blockWrite_lph {l a : Nat} {v : Word} {o s : State} (h : blkOf a = blkLPH) : blockWrite l a v o s = lphWrite a v o s := by
  unfold blockWrite
  rw [h]
  rfl

/-- An accepted write of a register of LPH whose fields are stored at once. -/
theorem regAccess_lph {i : Initiator} {a : Nat} {v : Word} {s : State} {r : RegRow} (hA : Accepted i a v s)
    (hr : regRow? a = some r) (hk : r.plain = true) (hb : blkOf a = blkLPH) (hn : bankOf a ≠ some a) :
    regAccess i a v s = lphWrite a v (hartActs i s) (storedBy i a r v s) := by
  simp only [RegRow.plain, Bool.and_eq_true, Bool.not_eq_true'] at hk
  obtain ⟨⟨⟨hrw, hsx⟩, hsh⟩, hst⟩ := hk
  have hp : a ≠ TSK_POST.addr := by
    rintro rfl
    exact absurd hb (by decide)
  rw [regAccess_eq hA.1 hA.2 (regionOf_lph hb) hp, regWrite_eq hr hn, blockWrite_lph hb, regStore_rw hrw hsx hsh hst, hartActs_reg]
  rfl

/-- A field that a write neither stores nor clears reads as before. -/
theorem storedBy_rd_kept {i : Initiator} {a : Nat} {r : RegRow} {v : Word} {s : State} (q : RF) {k : Kind} {mx : Int} (ha : q.addr = a)
    (hr : regRow? a = some r) (hf : ⟨q.lo, q.w, k, 0, mx⟩ ∈ r.fields) (hk : k ≠ .rw ∧ k ≠ .w1c) (ho : ∃ g ∈ r.fields, g.kind ≠ .ro) :
    (storedBy i a r v s).rd q = s.rd q := by
  subst ha
  rw [storedBy, rd_setReg_same]
  exact stored_other hr hf hk.1 hk.2 ho v _

theorem storedBy_kept {i : Initiator} {a : Nat} {r : RegRow} {v : Word} {s : State} :
    Kept false [.regs, .harts] (Set.univ : Set Nat) s (storedBy i a r v s) :=
  kept_setReg (hartActs_kept i s (by decide)) (by decide) (Set.mem_univ _)

theorem onlyRegs_kept {as : List Nat} {o s : State} {kl : List Part} (h : OnlyRegs as o s) (hr : .regs ∈ kl) :
    Kept false kl (Set.univ : Set Nat) o s := by
  rw [h.1]
  exact ⟨nofun, Frame.regs (fun p _ => p.same_refl o) hr, fun a ha => absurd (Set.mem_univ _) ha⟩

/-! ### Laser sources (R62, R70) -/

/-- The readings of a poll, by source. -/
def readings (r0 r1 r2 r3 : SrcReading) : Nat → SrcReading
  | 0 => r0
  | 1 => r1
  | 2 => r2
  | _ => r3

/-- The first sources are polled. -/
def polledUpTo (n : Nat) (r : Nat → SrcReading) (s : State) : State := (List.range n).foldl (fun t i => laserPollOne i (r i) t) s

theorem polledUpTo_succ (n : Nat) (r : Nat → SrcReading) (s : State) :
    polledUpTo (n + 1) r s = laserPollOne n (r n) (polledUpTo n r s) := by
  unfold polledUpTo
  rw [List.range_succ, List.foldl_append]
  rfl

/-- The state in which the bits of a source are shown: a poll but for the fault it raises. -/
def sourcePut (b : RF × RF × RF) (clash : Bool) (r : SrcReading) (s : State) : State :=
  if clash then ((s.put b.1 false).put b.2.1 false).put b.2.2 true
  else if !r.ack then s.put b.2.2 true
  else (s.put b.1 r.ready).put b.2.1 r.alarm

section
variable {s t : State} {i j : Nat} {r : SrcReading}

theorem fltSourceEvent_reg {src a : Nat} (h : blkOf a ≠ blkFLT) : (fltSourceEvent src s).reg a = s.reg a := by
  have hk : Kept false allParts [blkFLT] s (fltSourceEvent src s) :=
    kept_fltSourceEvent Kept.rfl_frame (by decide) (by decide) (by decide) (by decide)
  exact hk.regFrame a (by simpa using h)

/-- A poll of one source shows its bits and raises no more than a fault. -/
theorem laserPollOne_reg {a : Nat} (h : blkOf a ≠ blkFLT) :
    (laserPollOne i r s).reg a = (sourcePut (laserBits i) (laserClash s i) r s).reg a := by
  unfold laserPollOne sourcePut
  dsimp only
  split
  · rfl
  split
  · exact fltSourceEvent_reg h
  · split
    · exact fltSourceEvent_reg h
    · rfl

/-- A field that shares no bit with those of a source. -/
def apartFrom (b : RF × RF × RF) (q : RF) : Bool :=
  decide (q.lo + q.w ≤ 64) &&
    [b.1, b.2.1, b.2.2].all fun p => decide (p.lo + p.w ≤ 64 ∧ (q.addr ≠ p.addr ∨ p.lo + p.w ≤ q.lo ∨ q.lo + q.w ≤ p.lo))

theorem sourcePut_rd {b : RF × RF × RF} {c : Bool} {q : RF} (h : apartFrom b q = true) : (sourcePut b c r s).rd q = s.rd q := by
  simp only [apartFrom, Bool.and_eq_true, List.all_eq_true, decide_eq_true_eq] at h
  obtain ⟨hq, hb⟩ := h
  have hput : ∀ p ∈ [b.1, b.2.1, b.2.2], ∀ (t : State) (x : Bool), (t.put p x).rd q = t.rd q :=
    fun p hp t x => rd_put_other t x (hb p hp).1 hq (hb p hp).2
  have h1 := hput b.1 (by simp)
  have h2 := hput b.2.1 (by simp)
  have h3 := hput b.2.2 (by simp)
  unfold sourcePut
  split
  · rw [h3, h2, h1]
  split
  · rw [h3]
  · rw [h2, h1]

/-- The bits of the sources are apart from each other and from the addresses. -/
theorem laserBits_apart : ∀ i < 4, ∀ j < 4, i = j ∨ ∀ q ∈ [(laserBits j).1, (laserBits j).2.1, (laserBits j).2.2], apartFrom (laserBits i) q = true := by
  decide

theorem laserAddr_apart : ∀ i < 4,
    ∀ q ∈ [LPH_LSRC_CTL_ADDR0, LPH_LSRC_CTL_ADDR1, MAC_LSRC_CTL_ADDR2, MAC_LSRC_CTL_ADDR3], apartFrom (laserBits i) q = true := by
  decide

theorem laserBits_notFlt : ∀ i < 4, ∀ q ∈ [(laserBits i).1, (laserBits i).2.1, (laserBits i).2.2], blkOf q.addr ≠ blkFLT := by decide

theorem laserPollOne_rd {q : RF} (h : apartFrom (laserBits i) q = true) (hf : blkOf q.addr ≠ blkFLT) : (laserPollOne i r s).rd q = s.rd q :=
  (rd_congr (laserPollOne_reg hf)).trans (sourcePut_rd h)

theorem laserAddr_congr
    (h : ∀ q ∈ [LPH_LSRC_CTL_ADDR0, LPH_LSRC_CTL_ADDR1, MAC_LSRC_CTL_ADDR2, MAC_LSRC_CTL_ADDR3], t.rd q = s.rd q) (j : Nat) :
    laserAddr t j = laserAddr s j := by
  unfold laserAddr
  split <;> exact h _ (by simp)

theorem laserClash_congr (h : ∀ j, laserAddr t j = laserAddr s j) (j : Nat) : laserClash t j = laserClash s j := by
  unfold laserClash
  simp only [h]

theorem laserClash_iff : laserClash s i = true ↔ Shared s i := by
  unfold laserClash Shared
  simp

theorem sourceShown_congr {b : RF × RF × RF} {c : Bool} (h : ∀ q ∈ [b.1, b.2.1, b.2.2], t.rd q = s.rd q) (hs : SourceShown b c r s) :
    SourceShown b c r t := by
  have hb : ∀ q ∈ [b.1, b.2.1, b.2.2], t.bit q = s.bit q := fun q hq => congrArg (· != 0) (h q hq)
  unfold SourceShown at hs ⊢
  rwa [hb b.1 (by simp), hb b.2.1 (by simp), hb b.2.2 (by simp)]

/-- The three bits of a source are apart, and of one bit each. -/
def Bits (b : RF × RF × RF) : Prop :=
  (∀ q ∈ [b.1, b.2.1, b.2.2], q.lo + q.w ≤ 64 ∧ q.w = 1) ∧ (b.1.lo + b.1.w ≤ b.2.1.lo) ∧ (b.2.1.lo + b.2.1.w ≤ b.2.2.lo)

theorem laserBits_bits : ∀ i < 4, Bits (laserBits i) := by
  unfold Bits
  decide

theorem sourcePut_shown {b : RF × RF × RF} {c : Bool} (hb : Bits b) : SourceShown b c r (sourcePut b c r s) := by
  obtain ⟨hw, h12, h23⟩ := hb
  obtain ⟨h1, w1⟩ := hw b.1 (by simp)
  obtain ⟨h2, w2⟩ := hw b.2.1 (by simp)
  obtain ⟨h3, w3⟩ := hw b.2.2 (by simp)
  unfold SourceShown sourcePut
  split
  · refine ⟨?_, ?_, bit_put_same _ _ h3 w3⟩
    · rw [bit_put_other _ _ h3 h1 (by omega), bit_put_other _ _ h2 h1 (by omega), bit_put_same _ _ h1 w1]
    · rw [bit_put_other _ _ h3 h2 (by omega), bit_put_same _ _ h2 w2]
  · cases r.ack
    · exact bit_put_same _ _ h3 w3
    · refine ⟨?_, bit_put_same _ _ h2 w2⟩
      exact (bit_put_other _ _ h2 h1 (by omega)).trans (bit_put_same _ _ h1 w1)

/-- A source that is polled shows what it answers. -/
theorem laserPollOne_shown (hi : i < 4) : SourceShown (laserBits i) (laserClash s i) r (laserPollOne i r s) :=
  sourceShown_congr (fun q hq => rd_congr (laserPollOne_reg (laserBits_notFlt i hi q hq))) (sourcePut_shown (laserBits_bits i hi))

end

section
variable {s : State} {r : Nat → SrcReading}

/-- No poll moves a source to another address. -/
theorem polledUpTo_addr {n : Nat} (hn : n ≤ 4) (j : Nat) : laserAddr (polledUpTo n r s) j = laserAddr s j := by
  induction n generalizing j with
  | zero => rfl
  | succ n ih =>
    rw [polledUpTo_succ, laserAddr_congr fun q hq => ?_, ih (by omega)]
    exact laserPollOne_rd (laserAddr_apart n (by omega) q hq)
      ((by decide : ∀ q ∈ [LPH_LSRC_CTL_ADDR0, LPH_LSRC_CTL_ADDR1, MAC_LSRC_CTL_ADDR2, MAC_LSRC_CTL_ADDR3], blkOf q.addr ≠ blkFLT) q hq)

theorem polledUpTo_clash {n : Nat} (hn : n ≤ 4) (j : Nat) : laserClash (polledUpTo n r s) j = laserClash s j :=
  laserClash_congr (polledUpTo_addr hn) j

/-- Every source polled shows what it answered. -/
theorem polledUpTo_shown {n : Nat} (hn : n ≤ 4) : ∀ i < n, SourceShown (laserBits i) (laserClash s i) (r i) (polledUpTo n r s) := by
  induction n with
  | zero => exact nofun
  | succ n ih =>
    intro i hi
    rw [polledUpTo_succ]
    by_cases h : i = n
    · subst h
      rw [← polledUpTo_clash (r := r) (s := s) (by omega : i ≤ 4) i]
      exact laserPollOne_shown (by omega)
    · refine sourceShown_congr (fun q hq => ?_) (ih (by omega) i (by omega))
      exact laserPollOne_rd ((laserBits_apart n (by omega) i (by omega)).resolve_left (Ne.symm h) q hq) (laserBits_notFlt i (by omega) q hq)

/-- Where every source answers without an alarm and no address is shared, nothing but the bits shown changes. -/
theorem polledUpTo_quiet {n : Nat} (hn : n ≤ 4) (hc : ∀ i < 4, laserClash s i = false) (hr : ∀ i < 4, (r i).ack = true ∧ (r i).alarm = false) :
    OnlyRegs [LPH_LSRC_STATUS.addr, MAC_LSRC_STATUS.addr] s (polledUpTo n r s) := by
  induction n with
  | zero => exact onlyRegs_refl
  | succ n ih =>
    obtain ⟨hack, halarm⟩ := hr n (by omega)
    have hm : (laserBits n).1.addr ∈ [LPH_LSRC_STATUS.addr, MAC_LSRC_STATUS.addr] ∧
        (laserBits n).2.1.addr ∈ [LPH_LSRC_STATUS.addr, MAC_LSRC_STATUS.addr] :=
      (by decide : ∀ n < 4, (laserBits n).1.addr ∈ [LPH_LSRC_STATUS.addr, MAC_LSRC_STATUS.addr] ∧
        (laserBits n).2.1.addr ∈ [LPH_LSRC_STATUS.addr, MAC_LSRC_STATUS.addr]) n (by omega)
    have e : laserPollOne n (r n) (polledUpTo n r s) =
        ((polledUpTo n r s).put (laserBits n).1 (r n).ready).put (laserBits n).2.1 false := by
      unfold laserPollOne
      simp only [polledUpTo_clash (by omega : n ≤ 4), hc n (by omega), hack, halarm, Bool.false_eq_true, Bool.not_true, ↓reduceIte]
    rw [polledUpTo_succ, e]
    exact onlyRegs_put (onlyRegs_put (ih (by omega)) hm.1) hm.2
end

section
variable {s : State} {r0 r1 r2 r3 : SrcReading}

/-- A clash is shown to the next poll. -/
def clashNoted (c : Bool) (s : State) : State := { s with lph := { s.lph with clash := c } }

theorem laserPoll_eq (hp : s.bit LPH_LSRC_CTL_POLL_EN = true) (hr : s.runs blkLPH = true) (hg : s.bit LPH_LSRC_CMD_GO = false) :
    laserPoll r0 r1 r2 r3 s = clashNoted ((List.range 4).any (laserClash s))
      (if (List.range 4).any (laserClash s) && !(polledUpTo 4 (readings r0 r1 r2 r3) s).lph.clash then
        fltSourceEvent blkLPH (polledUpTo 4 (readings r0 r1 r2 r3) s) else polledUpTo 4 (readings r0 r1 r2 r3) s) := by
  unfold laserPoll
  rw [hp, hr, hg]
  rfl

theorem laserPoll_off (h : s.bit LPH_LSRC_CTL_POLL_EN = false ∨ s.runs blkLPH = false ∨ s.bit LPH_LSRC_CMD_GO = true) :
    laserPoll r0 r1 r2 r3 s = s := by
  refine if_pos ?_
  rcases h with h | h | h <;> simp [h]

/-- The sources after a poll. -/
theorem laserPoll_reg (hp : s.bit LPH_LSRC_CTL_POLL_EN = true) (hr : s.runs blkLPH = true) (hg : s.bit LPH_LSRC_CMD_GO = false) {a : Nat}
    (ha : blkOf a ≠ blkFLT) : (laserPoll r0 r1 r2 r3 s).reg a = (polledUpTo 4 (readings r0 r1 r2 r3) s).reg a := by
  rw [laserPoll_eq hp hr hg]
  refine (reg_mk _ a).trans ?_
  split
  · exact fltSourceEvent_reg ha
  · rfl

theorem laserPoll_shown (hp : s.bit LPH_LSRC_CTL_POLL_EN = true) (hr : s.runs blkLPH = true) (hg : s.bit LPH_LSRC_CMD_GO = false) {i : Nat}
    (hi : i < 4) : SourceShown (laserBits i) (laserClash s i) (readings r0 r1 r2 r3 i) (laserPoll r0 r1 r2 r3 s) :=
  sourceShown_congr (fun q hq => rd_congr (laserPoll_reg hp hr hg (laserBits_notFlt i hi q hq))) (polledUpTo_shown (le_refl 4) i hi)

/-- A poll without a clash, an alarm or a source that does not answer. -/
theorem laserPoll_quiet (hp : s.bit LPH_LSRC_CTL_POLL_EN = true) (hr : s.runs blkLPH = true) (hg : s.bit LPH_LSRC_CMD_GO = false)
    (hc : ∀ i < 4, ¬ Shared s i) (ha : ∀ r ∈ [r0, r1, r2, r3], r.ack = true ∧ r.alarm = false) :
    (∀ a, a ∉ [LPH_LSRC_STATUS.addr, MAC_LSRC_STATUS.addr] → (laserPoll r0 r1 r2 r3 s).reg a = s.reg a) ∧
      Frame [.regs, .lph] s (laserPoll r0 r1 r2 r3 s) := by
  have hc' : ∀ i < 4, laserClash s i = false := fun i hi => Bool.eq_false_iff.2 fun h => hc i hi (laserClash_iff.1 h)
  have hany : (List.range 4).any (laserClash s) = false := by
    rw [List.any_eq_false]
    exact fun i hi => by rw [hc' i (List.mem_range.1 hi)]; exact Bool.false_ne_true
  have hr' : ∀ i < 4, (readings r0 r1 r2 r3 i).ack = true ∧ (readings r0 r1 r2 r3 i).alarm = false := by
    intro i hi
    refine ha _ ?_
    interval_cases i <;> simp [readings]
  have ho := polledUpTo_quiet (le_refl 4) hc' hr'
  rw [laserPoll_eq hp hr hg, hany, Bool.false_and, if_neg Bool.false_ne_true]
  refine ⟨fun a h => (reg_mk _ a).trans (onlyRegs_reg ho h), ?_⟩
  exact (Kept.of_mk (onlyRegs_kept (kl := [.regs, .lph]) ho (by decide)) (c_lph := Or.inr (by decide))).frame
end

/-! #### A byte access (R70) -/

/-- The row of LPH_LSRC_CMD. -/
def rowLsrcCmd : RegRow :=
  ⟨0x8, 0x8100000, 1, 0x38, 1, 8, 0x0,
    [⟨63, 1, .w1s, 0, 1⟩, ⟨62, 1, .w1c, 0, 1⟩, ⟨56, 2, .rw, 0, 3⟩, ⟨55, 1, .rw, 0, 1⟩,
     ⟨40, 8, .rw, 0, 255⟩, ⟨32, 8, .rw, 0, 255⟩, ⟨0, 8, .rw, 0, 255⟩]⟩

theorem regRow_lsrcCmd : regRow? LPH_LSRC_CMD.addr = some rowLsrcCmd := by decide +kernel

section
variable {i : Initiator} {v : Word} {s : State}

/-- The state in which the fields of a byte access are stored. -/
def laserStored (i : Initiator) (v : Word) (s : State) : State :=
  storedBy i LPH_LSRC_CMD.addr rowLsrcCmd (withField v LPH_LSRC_CMD_GO 1) s

theorem laserStored_go : (laserStored i v s).bit LPH_LSRC_CMD_GO = s.bit LPH_LSRC_CMD_GO := by
  exact congrArg (· != 0) (storedBy_rd_kept LPH_LSRC_CMD_GO (k := .w1s) (mx := 1) rfl regRow_lsrcCmd (by decide) (by decide) (by decide))

theorem laserStored_rw {q : RF} (ha : q.addr = LPH_LSRC_CMD.addr) (h : q.lo + q.w ≤ 63)
    (hf : ⟨q.lo, q.w, .rw, 0, ((2 ^ q.w - 1 : Nat) : Int)⟩ ∈ rowLsrcCmd.fields) : (laserStored i v s).rd q = inField v q :=
  (storedBy_rd_rw q ha regRow_lsrcCmd hf).trans (inField_withField_disj v 1 (by decide) (by omega) (Or.inr h))

theorem laserStored_clash (j : Nat) : laserClash (laserStored i v s) j = laserClash s j :=
  laserClash_congr (laserAddr_congr fun q hq => storedBy_rd_ne
    ((by decide : ∀ q ∈ [LPH_LSRC_CTL_ADDR0, LPH_LSRC_CTL_ADDR1, MAC_LSRC_CTL_ADDR2, MAC_LSRC_CTL_ADDR3], q.addr ≠ LPH_LSRC_CMD.addr) q hq)) j

/-- An accepted GO starts the access of a source of its own address, is refused with ERR, or meets one in progress. -/
theorem regAccess_laser (hA : Accepted i LPH_LSRC_CMD.addr (withField v LPH_LSRC_CMD_GO 1) s) :
    regAccess i LPH_LSRC_CMD.addr (withField v LPH_LSRC_CMD_GO 1) s =
      if s.bit LPH_LSRC_CMD_GO then hartActs i s
      else if laserClash s (inField v LPH_LSRC_CMD_SRC) then (laserStored i v s).put LPH_LSRC_CMD_ERR true
      else (laserStored i v s).put LPH_LSRC_CMD_GO true := by
  have hgo : fieldOf (withField v LPH_LSRC_CMD_GO 1) 63 1 = 1 := inField_withField_same v (r := LPH_LSRC_CMD_GO) 1 (by decide) (by decide)
  rw [regAccess_lph hA regRow_lsrcCmd (by decide) (by decide) (by decide), ← hartActs_bit i s, ← laserStored_clash (i := i) (v := v),
    ← laserStored_rw (i := i) (v := v) (s := s) (q := LPH_LSRC_CMD_SRC) rfl (by decide) (by decide)]
  unfold lphWrite
  rw [if_neg (by decide), if_pos rfl, if_pos hgo]
  rfl

/-- LASER_SOURCE_ACCESS with no access in progress. -/
theorem laserSourceAccess_starts (hA : Accepted i LPH_LSRC_CMD.addr (withField v LPH_LSRC_CMD_GO 1) s) (hg : s.bit LPH_LSRC_CMD_GO = false) :
    Gives (.laserSourceAccess i v) s fun t =>
      (¬ Shared s (inField v LPH_LSRC_CMD_SRC) → t.bit LPH_LSRC_CMD_GO = true) ∧
      (Shared s (inField v LPH_LSRC_CMD_SRC) → t.bit LPH_LSRC_CMD_GO = false ∧ t.bit LPH_LSRC_CMD_ERR = true) ∧
      t.rd LPH_LSRC_CMD_SRC = inField v LPH_LSRC_CMD_SRC ∧ t.rd LPH_LSRC_CMD_REG = inField v LPH_LSRC_CMD_REG ∧
      (∀ a, a ∉ [LPH_LSRC_CMD.addr] → t.reg a = s.reg a) ∧ Frame [.regs, .harts] s t := by
  have h : exec (.laserSourceAccess i v) s = .next _ := congrArg Host.Outcome.next (regAccess_laser hA)
  rw [hg, if_neg Bool.false_ne_true] at h
  have hsrc := laserStored_rw (i := i) (v := v) (s := s) (q := LPH_LSRC_CMD_SRC) rfl (by decide) (by decide)
  have hreg := laserStored_rw (i := i) (v := v) (s := s) (q := LPH_LSRC_CMD_REG) rfl (by decide) (by decide)
  have hframe : ∀ (q : RF) (b : Bool), q.addr = LPH_LSRC_CMD.addr →
      (∀ a, a ∉ [LPH_LSRC_CMD.addr] → ((laserStored i v s).put q b).reg a = s.reg a) ∧ Frame [.regs, .harts] s ((laserStored i v s).put q b) := by
    refine fun q b hq => ⟨fun a ha => ?_, (kept_st_put storedBy_kept (by decide) (Set.mem_univ _)).frame⟩
    have hne : a ≠ LPH_LSRC_CMD.addr := by simpa using ha
    exact (reg_put_ne _ _ (hq ▸ hne)).trans (storedBy_reg_ne hne)
  by_cases hc : Shared s (inField v LPH_LSRC_CMD_SRC)
  · rw [if_pos (laserClash_iff.2 hc)] at h
    refine ⟨_, h, fun hn => absurd hc hn, fun _ => ⟨?_, bit_put_same _ _ (by decide) rfl⟩, ?_, ?_, hframe _ _ rfl⟩
    · rw [bit_put_other _ _ (by decide) (by decide) (by decide), laserStored_go, hg]
    · rw [rd_put_other _ _ (by decide) (by decide) (by decide), hsrc]
    · rw [rd_put_other _ _ (by decide) (by decide) (by decide), hreg]
  · rw [if_neg (mt laserClash_iff.1 hc)] at h
    refine ⟨_, h, fun _ => bit_put_same _ _ (by decide) rfl, fun hs => absurd hs hc, ?_, ?_, hframe _ _ rfl⟩
    · rw [rd_put_other _ _ (by decide) (by decide) (by decide), hsrc]
    · rw [rd_put_other _ _ (by decide) (by decide) (by decide), hreg]

/-- LASER_ACCESS_DONE of an access in progress. -/
theorem laserDone_shows (ack : Bool) (data : BitVec 8) (hg : s.bit LPH_LSRC_CMD_GO = true) :
    (laserDone ack data.toNat s).bit LPH_LSRC_CMD_GO = false ∧
      (laserDone ack data.toNat s).bit LPH_LSRC_CMD_ERR = (!ack || s.bit LPH_LSRC_CMD_ERR) ∧
      (laserDone ack data.toNat s).rd LPH_LSRC_CMD_DATA = (if ack && s.bit LPH_LSRC_CMD_RD then data.toNat else s.rd LPH_LSRC_CMD_DATA) ∧
      OnlyRegs [LPH_LSRC_CMD.addr] s (laserDone ack data.toNat s) := by
  have hm : LPH_LSRC_CMD.addr ∈ [LPH_LSRC_CMD.addr] := List.mem_singleton_self _
  have hgo : (s.put LPH_LSRC_CMD_GO false).bit LPH_LSRC_CMD_GO = false := bit_put_same _ _ (by decide) rfl
  have herr : (s.put LPH_LSRC_CMD_GO false).bit LPH_LSRC_CMD_ERR = s.bit LPH_LSRC_CMD_ERR :=
    bit_put_other _ _ (by decide) (by decide) (by decide)
  have hrd : (s.put LPH_LSRC_CMD_GO false).bit LPH_LSRC_CMD_RD = s.bit LPH_LSRC_CMD_RD :=
    bit_put_other _ _ (by decide) (by decide) (by decide)
  have hdata : (s.put LPH_LSRC_CMD_GO false).rd LPH_LSRC_CMD_DATA = s.rd LPH_LSRC_CMD_DATA :=
    rd_put_other _ _ (by decide) (by decide) (by decide)
  have ho : OnlyRegs [LPH_LSRC_CMD.addr] s (s.put LPH_LSRC_CMD_GO false) := onlyRegs_put onlyRegs_refl hm
  unfold laserDone
  rw [hg]
  simp only [Bool.not_true, Bool.false_eq_true, ↓reduceIte, hrd]
  cases ack
  case false =>
    refine ⟨?_, bit_put_same _ _ (by decide) rfl, ?_, onlyRegs_put ho hm⟩
    · exact (bit_put_other _ _ (by decide) (by decide) (by decide)).trans hgo
    · exact (rd_put_other _ _ (by decide) (by decide) (by decide)).trans hdata
  case true =>
    cases s.bit LPH_LSRC_CMD_RD
    case false => exact ⟨hgo, herr, hdata, ho⟩
    case true =>
      refine ⟨?_, ?_, ?_, onlyRegs_wr ho hm⟩
      · exact (congrArg (· != 0) (rd_wr_other _ _ (by decide) (by decide) (by decide))).trans hgo
      · exact (congrArg (· != 0) (rd_wr_other _ _ (by decide) (by decide) (by decide))).trans herr
      · exact (rd_wr_same _ _ (by decide)).trans (Nat.mod_eq_of_lt data.isLt)
end

/-- Settles O20: a poll source by source, a byte access by what a write of LPH_LSRC_CMD comes to. -/
theorem laserRows : Obligations.LaserRows := by
  unfold Obligations.LaserRows
  refine ⟨fun r0 r1 r2 r3 s hup hp hr hg => ?_,
    fun r0 r1 r2 r3 s hup hp hr hg hc ha => ⟨_, congrArg Host.Outcome.next (if_pos hup), laserPoll_quiet hp hr hg hc ha⟩,
    fun r0 r1 r2 r3 s hup h => ⟨_, congrArg Host.Outcome.next ((if_pos hup).trans (laserPoll_off h)), rfl⟩,
    fun i v s hA hg => laserSourceAccess_starts hA hg,
    fun i v s hA hg => ⟨_, congrArg Host.Outcome.next ((regAccess_laser hA).trans (if_pos hg)), rfl⟩,
    fun ack data s hup hg => ⟨_, congrArg Host.Outcome.next (if_pos hup), laserDone_shows ack data hg⟩⟩
  have hk : Kept false [.regs, .free, .flt, .lph] [blkFLT, blkLPH, blkMAC] s (laserPoll r0 r1 r2 r3 s) :=
    kept_laserPoll Kept.rfl_frame (by decide) (by decide) (by decide) (by decide) (by decide) (by decide) (by decide)
  have hs := fun i (hi : i < 4) => laserPoll_shown (r0 := r0) (r1 := r1) (r2 := r2) (r3 := r3) hp hr hg hi
  exact ⟨_, congrArg Host.Outcome.next (if_pos hup), hs 0 (by decide), hs 1 (by decide), hs 2 (by decide), hs 3 (by decide),
    fun i => laserClash_iff, hk.regFrame, hk.frame⟩
/-! ### Signal and carrier (R57, R58) -/

/-- The parts of the state that a lost carrier reaches. -/
def carrierParts : List Part := [.regs, .shadow, .cfg, .cel, .sch, .gcl, .kln, .act, .ube, .chp, .dsf, .ohs, .pipes, .cls, .spc, .tim]

section
variable {s : State} {k : Nat}

theorem kept_chpReact_carrier {o : State} (h : Kept false carrierParts allBlocks o s) : Kept false carrierParts allBlocks o (chpReact k s) := by
  apply @kept_chpReact
  · exact h
  all_goals decide

theorem kept_dsfLost_carrier {o : State} (h : Kept false carrierParts allBlocks o s) : Kept false carrierParts allBlocks o (dsfLost k s) := by
  apply @kept_dsfLost
  · exact h
  all_goals decide

theorem kept_crFall_carrier {o : State} (h : Kept false carrierParts allBlocks o s) : Kept false carrierParts allBlocks o (crFall k s) := by
  apply @kept_crFall
  · exact h
  all_goals decide

/-- A loss of carrier reaches neither memory nor faults, nor what LPH keeps of its channels. -/
theorem carrier_parts {o t : State} (h : Kept false carrierParts allBlocks o t) : t.mem = o.mem ∧ t.flt = o.flt ∧ t.lph = o.lph :=
  ⟨h.frame .mem (by decide), h.frame .flt (by decide), h.frame .lph (by decide)⟩

/-- The state in which a lock is shown. -/
def lockShown (k cd fofs : Nat) (s : State) : State :=
  (((s.put (LPH_RX_STATUS_CR_LOCK k) true).put (LPH_RX_STATUS_LO_LOCK k) true).wr (LPH_RX_STATUS_CD_EST k) cd).wr (LPH_RX_STATUS_FOFS k) fofs

theorem lockShown_regs (k cd fofs : Nat) (s : State) : OnlyRegs [(LPH_RX_STATUS k).addr] s (lockShown k cd fofs s) := by
  have hm : (LPH_RX_STATUS k).addr ∈ [(LPH_RX_STATUS k).addr] := List.mem_singleton_self _
  unfold lockShown
  exact onlyRegs_wr (onlyRegs_wr (onlyRegs_put (onlyRegs_put onlyRegs_refl hm) hm) hm) hm

/-- What a receiver works with once it has locked. -/
def lockedRx (k cd : Nat) (s : State) : RxState :=
  { (s.lphCh k).rx with cd := some cd, ring := (s.lphCh k).rx.ring <|> some s.draw.1 }

theorem crLock_eq {cd fofs : Nat} (hp : rxPowered s k = true) (hlo : (s.lphCh k).loLow = false) (hlos : s.bit (LPH_RX_STATUS_RX_LOS k) = false) :
    crLock k cd fofs s =
      (lockShown k cd fofs s).draw.2.setLphCh k { s.lphCh k with rx := lockedRx k cd s, warm := some (lockedRx k cd s) } := by
  have hc : ¬ (!rxPowered s k || (s.lphCh k).loLow || s.bit (LPH_RX_STATUS_RX_LOS k)) = true := by
    rw [hp, hlo, hlos]
    exact Bool.false_ne_true
  unfold crLock
  rw [if_neg hc]
  rfl

/-- A lock stores what the receiver works with, its ring locked; it changes no register but the one that shows it. -/
theorem crLock_stores {cd fofs : Nat} (hp : rxPowered s k = true) (hlo : (s.lphCh k).loLow = false)
    (hlos : s.bit (LPH_RX_STATUS_RX_LOS k) = false) :
    ((crLock k cd fofs s).lphCh k).warm = some ((crLock k cd fofs s).lphCh k).rx ∧ ((crLock k cd fofs s).lphCh k).rx.cd = some cd ∧
      ((crLock k cd fofs s).lphCh k).rx.ring.isSome = true ∧
      (∀ a, a ∉ [(LPH_RX_STATUS k).addr] → (crLock k cd fofs s).reg a = s.reg a) ∧ Frame [.regs, .lph, .free] s (crLock k cd fofs s) := by
  have hk : Kept false [.regs, .lph, .free] [blkLPH] s (crLock k cd fofs s) := kept_crLock Kept.rfl_frame (by decide) (by decide) (by decide) (by decide)
  rw [crLock_eq hp hlo hlos] at hk ⊢
  rw [lphCh_setLphCh]
  refine ⟨rfl, rfl, ?_, fun a ha => ?_, hk.frame⟩
  · unfold lockedRx
    cases (s.lphCh k).rx.ring <;> rfl
  · rw [reg_setLphCh, reg_draw, onlyRegs_reg (lockShown_regs k cd fofs s) ha]

/-- There is no lock without power, with the oscillator's line low or without signal. -/
theorem crLock_refused {cd fofs : Nat}
    (h : rxPowered s k = false ∨ (s.lphCh k).loLow = true ∨ s.bit (LPH_RX_STATUS_RX_LOS k) = true) : crLock k cd fofs s = s := by
  refine if_pos ?_
  rcases h with h | h | h <;> simp [h]

/-- A lost lock leaves the signal's status as it was. -/
theorem crFall_leaves : (crFall k s).bit (LPH_RX_STATUS_RX_LOS k) = s.bit (LPH_RX_STATUS_RX_LOS k) ∧ (crFall k s).mem = s.mem ∧
    (crFall k s).flt = s.flt ∧ (crFall k s).lph = s.lph := by
  refine ⟨?_, carrier_parts (kept_crFall_carrier Kept.rfl_frame)⟩
  rw [lphKept_crFall.bit (q := LPH_RX_STATUS_RX_LOS k) rxStatus_line blkOf_rxStatus, bit_eq, bit_eq,
    lockFallen_rd (q := LPH_RX_STATUS_RX_LOS k) le_of_eval (Or.inr le_of_eval) (Or.inl rxStatus_ne_rxEvt)]

/-- A loss of signal reaches neither memory nor faults; of what LPH keeps it notes when the signal was lost. -/
theorem losAssert_leaves {p : Int} (hp : rxPowered s k = true) (h : p < -280) (hlos : s.bit (LPH_RX_STATUS_RX_LOS k) = false) :
    (losAssert k p s).mem = s.mem ∧ (losAssert k p s).flt = s.flt ∧
      (losAssert k p s).lph = (s.setLphCh k { s.lphCh k with losAt := some s.ticks }).lph := by
  have hb : (showPower k p s).bit (LPH_RX_STATUS_RX_LOS k) = false := by
    unfold showPower
    rw [bit_eq, rd_wr_other _ _ le_of_eval le_of_eval (Or.inr (Or.inl le_of_eval)), ← bit_eq, hlos]
  have e : losAssert k p s =
      chpReact k (dsfLost k (crFall k ((losShown k p s).setLphCh k { s.lphCh k with losAt := some s.ticks }))) := by
    unfold losAssert
    simp only [hp, Bool.not_true, Bool.false_eq_true, ↓reduceIte, h, hb, not_false_eq_true, and_self]
    rfl
  obtain ⟨hmem, hflt, hlph⟩ := carrier_parts (kept_chpReact_carrier (k := k) (kept_dsfLost_carrier (k := k) (kept_crFall_carrier (k := k)
    (s := (losShown k p s).setLphCh k { s.lphCh k with losAt := some s.ticks }) Kept.rfl_frame)))
  rw [e]
  exact ⟨hmem, hflt, hlph⟩

/-- Signal back changes the receiver's status and forgets when it was lost. -/
theorem losClear_leaves {p : Int} (hp : rxPowered s k = true) (h : -270 ≤ p) :
    (∀ a, a ∉ [(LPH_RX_STATUS k).addr] → (losClear k p s).reg a = s.reg a) ∧
      (losClear k p s).lphCh k = { s.lphCh k with losAt := none } ∧ Frame [.regs, .lph] s (losClear k p s) := by
  have hk : Kept false [.regs, .lph] [blkLPH] s (losClear k p s) := kept_losClear Kept.rfl_frame (by decide) (by decide) (by decide)
  have e : losClear k p s = ((showPower k p s).put (LPH_RX_STATUS_RX_LOS k) false).setLphCh k { s.lphCh k with losAt := none } := by
    unfold losClear
    simp only [hp, Bool.not_true, Bool.false_eq_true, ↓reduceIte, h]
    rfl
  refine ⟨fun a ha => ?_, ?_, hk.frame⟩
  · have ha : a ≠ (LPH_RX_STATUS k).addr := by simpa using ha
    rw [e, reg_setLphCh, reg_put_ne (r := LPH_RX_STATUS_RX_LOS k) _ _ ha, showPower, reg_wr_ne (r := LPH_RX_STATUS_PWR k) _ _ ha]
  · rw [e, lphCh_setLphCh]

theorem losAssert_unpowered {p : Int} (hp : rxPowered s k = false) : losAssert k p s = s := if_pos (by rw [hp]; rfl)

theorem losClear_unpowered {p : Int} (hp : rxPowered s k = false) : losClear k p s = s := if_pos (by rw [hp]; rfl)

/-! ### Oscillator lines and comb lines (R64) -/

theorem loLine_leaves {low : Bool} (hp : rxPowered s k = true) (h : low = true → s.bit (LPH_RX_STATUS_LO_LOCK k) = true) :
    ((loLine k low s).lphCh k).loLow = low ∧ Frame [.regs, .lph] s (loLine k low s) ∧
      ∀ a, a ≠ (LPH_RX_STATUS k).addr → (low = true → a ≠ (LPH_RX_EVT k).addr) → (loLine k low s).reg a = s.reg a := by
  have hk : Kept false [.regs, .lph] [blkLPH] s (loLine k low s) := kept_loLine Kept.rfl_frame (by decide) (by decide) (by decide)
  cases low
  case false =>
    have e : loLine k false s = (s.setLphCh k { s.lphCh k with loLow := false }).put (LPH_RX_STATUS_LO_LOCK k) true := by
      unfold loLine
      simp only [rxPowered_setLphCh, hp, Bool.not_true, Bool.false_eq_true, ↓reduceIte]
    refine ⟨?_, hk.frame, fun a ha _ => ?_⟩
    · rw [e]
      exact congrArg LphCh.loLow (lphCh_setLphCh s k _)
    · rw [e, reg_put_ne (r := LPH_RX_STATUS_LO_LOCK k) _ _ ha, reg_setLphCh]
  case true =>
    have e : loLine k true s = ((s.setLphCh k { s.lphCh k with loLow := true }).put (LPH_RX_STATUS_LO_LOCK k) false).put
        (LPH_RX_EVT_LO_UNLOCK k) true := by
      unfold loLine
      simp only [rxPowered_setLphCh, hp, Bool.not_true, Bool.false_eq_true, ↓reduceIte, bit_setLphCh, h rfl]
    refine ⟨?_, hk.frame, fun a ha hv => ?_⟩
    · rw [e]
      exact congrArg LphCh.loLow (lphCh_setLphCh s k _)
    · rw [e, reg_put_ne (r := LPH_RX_EVT_LO_UNLOCK k) _ _ (hv rfl), reg_put_ne (r := LPH_RX_STATUS_LO_LOCK k) _ _ ha, reg_setLphCh]

/-- The state in which a comb line's power is shown. -/
def combShown (k : Nat) (p : Int) (s : State) : State :=
  (s.wr (LPH_TX_STATUS_COMB_PWR k) (unsigned 16 p)).put (LPH_TX_STATUS_COMB_LOW k) (decide (p < 120))

theorem combShown_regs (k : Nat) (p : Int) (s : State) : OnlyRegs [(LPH_TX_STATUS k).addr] s (combShown k p s) :=
  onlyRegs_put (onlyRegs_wr onlyRegs_refl (List.mem_singleton_self _)) (List.mem_singleton_self _)

/-- A comb line that becomes low raises its fault. -/
theorem combPower_falls {p : Int} (h : p < 120) (hl : s.bit (LPH_TX_STATUS_COMB_LOW k) = false) :
    combPower k p s = fltEvent blkLPH k (combShown k p s) := if_pos ⟨h, by rw [hl]; exact Bool.false_ne_true⟩

/-- One that is low already, or not low, shows its power alone. -/
theorem combPower_regs {p : Int} (h : p < 120 → s.bit (LPH_TX_STATUS_COMB_LOW k) = true) : OnlyRegs [(LPH_TX_STATUS k).addr] s (combPower k p s) := by
  have e : combPower k p s = combShown k p s := if_neg fun hc => hc.2 (h hc.1)
  rw [e]
  exact combShown_regs k p s
end

/-- Settles O18: what each operation shows, and what it leaves. -/
theorem lineSignalRows : Obligations.LineSignalRows := by
  unfold Obligations.LineSignalRows
  refine ⟨fun k cd fofs s hup hp hlo hlos => ?_, fun k cd fofs s hup h => ⟨_, congrArg Host.Outcome.next ((if_pos hup).trans (crLock_refused h)), rfl⟩,
    fun k s hup h => ?_, fun k s hup h => ⟨_, congrArg Host.Outcome.next ((if_pos hup).trans (if_neg (by rw [h]; exact Bool.false_ne_true))), rfl⟩,
    fun k p s hup hp h hlos => ?_, fun k p s hup hp h => ?_,
    fun k p s hup hp => ⟨⟨_, congrArg Host.Outcome.next ((if_pos hup).trans (losAssert_unpowered hp)), rfl⟩,
      ⟨_, congrArg Host.Outcome.next ((if_pos hup).trans (losClear_unpowered hp)), rfl⟩⟩,
    fun k s hup hp h => ?_, fun k s hup hp => ?_, fun k p s hup h => ?_, fun k p s hup h => ?_⟩
  · obtain ⟨h1, h2, h3, h4⟩ := crLock_shows (k := k) cd.isLt fofs.isLt hp hlo hlos
    exact ⟨_, congrArg Host.Outcome.next (if_pos hup), h1, h2, h3, h4, crLock_stores hp hlo hlos⟩
  · obtain ⟨h1, h2⟩ := crFall_shows h
    exact ⟨_, congrArg Host.Outcome.next (if_pos hup), h1, h2, crFall_leaves⟩
  · obtain ⟨h1, h2, h3, h4⟩ := losAssert_shows hp h hlos
    exact ⟨_, congrArg Host.Outcome.next (if_pos hup), h1, h2, h3, h4, losAssert_leaves hp h hlos⟩
  · obtain ⟨h1, h2⟩ := losClear_shows hp h
    exact ⟨_, congrArg Host.Outcome.next (if_pos hup), h1, h2, losClear_leaves hp h⟩
  · obtain ⟨h1, h2⟩ := loLine_low hp h
    obtain ⟨h3, h4, h5⟩ := loLine_leaves hp fun _ => h
    refine ⟨_, congrArg Host.Outcome.next (if_pos hup), h1, h2, h3, fun a ha => ?_, h4⟩
    simp only [List.mem_cons, List.not_mem_nil, or_false, not_or] at ha
    exact h5 a ha.1 fun _ => ha.2
  · obtain ⟨h1, h2⟩ := loLine_restored hp
    obtain ⟨-, h4, h5⟩ := loLine_leaves (low := false) hp nofun
    exact ⟨_, congrArg Host.Outcome.next (if_pos hup), h1, h2, fun a ha => h5 a (by simpa using ha) nofun, h4⟩
  · obtain ⟨h1, h2⟩ := combPower_shows (s := s) (k := k) p.toInt
    have hk : Kept false [.regs, .flt] [blkFLT, blkLPH] s (combPower k p.toInt s) :=
      kept_combPower Kept.rfl_frame (by decide) (by decide) (by decide) (by decide)
    refine ⟨_, congrArg Host.Outcome.next (if_pos hup), h1.trans (decide_eq_true h), h2, hk.regFrame, hk.frame,
      fun hl => combPower_regs fun _ => hl, fun hl => ⟨_, combPower_falls h hl, combShown_regs k _ s⟩⟩
  · obtain ⟨h1, h2⟩ := combPower_shows (s := s) (k := k) p.toInt
    exact ⟨_, congrArg Host.Outcome.next (if_pos hup), h1.trans (decide_eq_false (by omega)), h2, combPower_regs fun hc => absurd hc (by omega)⟩

/-! ### Codewords (R55, R96, R197) -/

/-- What a codeword that has ended adds to its channel's counts, and to its frame's uncorrectable codewords. -/
def codewordEnded (good next : Bool) (cw bitc : Nat) (c : DsfCh) : DsfCh :=
  let c := { c with pm := { c.pm with cw := c.pm.cw + 1, cwc := c.pm.cwc + b2n (good && bitc != 0),
                                      bitc := c.pm.bitc + (if good then bitc else 0), cwu := c.pm.cwu + b2n (!good) } }
  if good then c else if next then { c with badNext := cw :: c.badNext } else { c with bad := cw :: c.bad }

section
variable {s : State} {k cw iter bitc code : Nat} {next : Bool}

/-- A codeword ends good with no check unsatisfied, and uncorrectable after the last iteration. -/
theorem codewordDecoded_ends (hr : s.runs blkLPH = true) (h : syndromeWeight code ≠ 0 → s.rd (LPH_DEC_CFG_MAX_ITER k) ≤ iter) :
    (codewordDecoded k next cw iter bitc code s).dsfCh k = codewordEnded (syndromeWeight code == 0) next cw bitc (s.dsfCh k) := by
  have hn : ¬ ((!s.runs blkLPH) = true ∨ (syndromeWeight code ≠ 0 ∧ iter < s.rd (LPH_DEC_CFG_MAX_ITER k))) := by
    rw [hr]
    rintro (h1 | ⟨h1, h2⟩)
    · exact Bool.false_ne_true h1
    · exact absurd (h h1) (Nat.not_le.2 h2)
  have hw : ∀ (n : Nat) (t : State), (withdrawAhead k n t).dsf = t.dsf := fun n t =>
    (kept_withdrawAhead (kb := false) (kl := [.regs, .kln, .spc]) (bl := [blkCIP]) (ko := t) Kept.rfl_frame (by decide) (by decide) (by decide)
      (by decide)).frame .dsf (by decide)
  unfold codewordDecoded
  generalize syndromeWeight code = synd at hn ⊢
  rw [if_neg hn]
  unfold State.dsfCh
  dsimp only
  rw [hw]
  exact dsfCh_setDsfCh s k _

/-- A good codeword counts its corrected bits, and itself as corrected where there were some. -/
theorem codewordDecoded_good (bitc : BitVec 16) (hr : s.runs blkLPH = true) (h : syndromeWeight code = 0) :
    let c := (codewordDecoded k next cw iter bitc.toNat code s).dsfCh k
    c.pm.cw = (s.dsfCh k).pm.cw + 1 ∧ c.pm.bitc = (s.dsfCh k).pm.bitc + bitc.toNat ∧
      c.pm.cwc = (s.dsfCh k).pm.cwc + (if bitc = 0 then 0 else 1) ∧ c.pm.cwu = (s.dsfCh k).pm.cwu ∧ c.bad = (s.dsfCh k).bad := by
  have hb : b2n (bitc.toNat != 0) = if bitc = 0 then 0 else 1 := by
    by_cases hz : bitc = 0
    · rw [if_pos hz, hz]
      rfl
    · have hn : (bitc.toNat != 0) = true := bne_iff_ne.2 fun e => hz (BitVec.eq_of_toNat_eq e)
      rw [if_neg hz, hn]
      rfl
  have hd := codewordDecoded_ends (k := k) (next := next) (cw := cw) (iter := iter) (bitc := bitc.toNat) hr fun hn => absurd h hn
  rw [h] at hd
  dsimp only
  rw [hd, ← hb]
  exact ⟨rfl, rfl, rfl, rfl, rfl⟩

/-- One that is uncorrectable is noted for its frame. -/
theorem codewordDecoded_bad (hr : s.runs blkLPH = true) (h : syndromeWeight code ≠ 0) (hi : s.rd (LPH_DEC_CFG_MAX_ITER k) ≤ iter) :
    let c := (codewordDecoded k next cw iter bitc code s).dsfCh k
    c.pm.cw = (s.dsfCh k).pm.cw + 1 ∧ c.pm.cwu = (s.dsfCh k).pm.cwu + 1 ∧ c.pm.cwc = (s.dsfCh k).pm.cwc ∧
      c.pm.bitc = (s.dsfCh k).pm.bitc ∧ cw ∈ (if next then c.badNext else c.bad) := by
  have hd := codewordDecoded_ends (k := k) (next := next) (cw := cw) (bitc := bitc) (code := code) hr fun _ => hi
  rw [beq_eq_false_iff_ne.2 h] at hd
  dsimp only
  rw [hd]
  cases next <;> exact ⟨rfl, rfl, rfl, rfl, List.mem_cons_self⟩

/-- Nothing ends while LPH is stopped, or before the last iteration with a check unsatisfied. -/
theorem codewordDecoded_waits (h : s.runs blkLPH = false ∨ (syndromeWeight code ≠ 0 ∧ iter < s.rd (LPH_DEC_CFG_MAX_ITER k))) :
    codewordDecoded k next cw iter bitc code s = s :=
  if_pos (h.imp (fun h => by rw [h]; rfl) id)

theorem codewordDecoded_kept : Kept false [.regs, .kln, .dsf, .spc] [blkCIP] s (codewordDecoded k next cw iter bitc code s) :=
  kept_codewordDecoded Kept.rfl_frame (by decide) (by decide) (by decide) (by decide) (by decide)

/-- A provisional release keeps its digest. -/
theorem provisionalRelease_keeps (hr : s.runs blkLPH = true) (he : s.bit (LPH_DEC_CFG_PROV_EN k) = true) (h0 : 0 < syndromeWeight code)
    (h1 : syndromeWeight code ≤ s.rd (LPH_DEC_CFG_PROV_SYN k)) :
    SMap.get (fun _ => none) ((provisionalRelease k next cw code s).spcCh k).digests (cwNumber s k next cw) = some (digest (codewordInfo cw code)) ∧
      Frame [.spc] s (provisionalRelease k next cw code s) := by
  have hk : Kept false [.spc] ([] : List Nat) s (provisionalRelease k next cw code s) := kept_provisionalRelease Kept.rfl_frame (by decide)
  refine ⟨?_, hk.frame⟩
  have hc : (s.runs blkLPH && s.bit (LPH_DEC_CFG_PROV_EN k) && decide (0 < syndromeWeight code) &&
      decide (syndromeWeight code ≤ s.rd (LPH_DEC_CFG_PROV_SYN k))) = true := by
    rw [hr, he, decide_eq_true h0, decide_eq_true h1]
    rfl
  unfold provisionalRelease
  dsimp only
  rw [if_pos hc, spcCh_setSpcCh]
  exact SMap.get_set_same _ _ _ _
end

/-! ### Calibration (R65) -/

/-- Registers of an array at different offsets are different. -/
theorem window_ne {A B u v : Nat} (h : A % 0x10000 ≠ B % 0x10000) : A + u % 256 * 0x10000 ≠ B + v % 256 * 0x10000 := by omega

/-- A register of an array at another offset than that of a single one. -/
theorem window_ne_single {A B u : Nat} (h : A % 0x10000 ≠ B % 0x10000) : A + u % 256 * 0x10000 ≠ B := by omega

theorem frame_mono {kl kl' : List Part} {o s : State} (h : Frame kl o s) (hl : ∀ p ∈ kl, p ∈ kl') : Frame kl' o s :=
  fun p hp => h p fun hm => hp (hl p hm)

theorem frame_trans {kl : List Part} {o s t : State} (h1 : Frame kl o s) (h2 : Frame kl s t) : Frame kl o t := fun p hp => by
  have e1 := h1 p hp
  have e2 := h2 p hp
  cases p <;> exact e2.trans e1

theorem unsigned_toInt {w : Nat} (x : BitVec w) : unsigned w x.toInt = x.toNat := by
  unfold unsigned
  rw [← BitVec.toNat_ofInt, BitVec.ofInt_toInt]

theorem unsigned_natCast {w : Nat} (x : BitVec w) : unsigned w ((x.toNat : Nat) : Int) = x.toNat := by
  unfold unsigned
  rw [← Int.natCast_emod, Int.toNat_natCast]
  exact Nat.mod_eq_of_lt x.isLt

theorem calOut_iff {w : Nat × Nat} {x now : Int × Int} : calOut w x now = true ↔ Outside w x now := by
  unfold calOut Outside
  rw [Bool.or_eq_true, decide_eq_true_eq, decide_eq_true_eq]

section
variable {s t : State} {k : Nat} {tx : Bool}

theorem calState_fits : (calState k tx).lo = 62 ∧ (calState k tx).w = 2 := by cases tx <;> exact ⟨rfl, rfl⟩

theorem calState_le : (calState k tx).lo + (calState k tx).w ≤ 64 := by
  rw [calState_fits.1, calState_fits.2]

theorem calState_ne : (calState k tx).addr ≠ (calState k (!tx)).addr := by
  cases tx
  · exact window_ne (A := 0x8000068) (B := 0x8000070) (by decide)
  · exact window_ne (A := 0x8000070) (B := 0x8000068) (by decide)

theorem calWin_ne : (LPH_CAL_WIN k).addr ≠ (calState k tx).addr := by
  cases tx
  · exact window_ne (A := 0x8000060) (B := 0x8000068) (by decide)
  · exact window_ne (A := 0x8000060) (B := 0x8000070) (by decide)

theorem rd_calState_same {n : Nat} (hn : n < 4) : (s.wr (calState k tx) n).rd (calState k tx) = n := by
  rw [rd_wr_same _ _ calState_le, calState_fits.2]
  exact Nat.mod_eq_of_lt hn

theorem calWindow_congr (h : t.reg (LPH_CAL_WIN k).addr = s.reg (LPH_CAL_WIN k).addr) : calWindow t k tx = calWindow s k tx := by
  have hr : ∀ q : RF, q.addr = (LPH_CAL_WIN k).addr → t.rd q = s.rd q := fun q hq => rd_congr (by rw [hq, h])
  unfold calWindow
  rw [hr (LPH_CAL_WIN_TX_DT k) rfl, hr (LPH_CAL_WIN_TX_DD k) rfl, hr (LPH_CAL_WIN_RX_DT k) rfl, hr (LPH_CAL_WIN_RX_DP k) rfl]

theorem calStamp_congr (h : t.reg (calState k tx).addr = s.reg (calState k tx).addr) : calStamp t k tx = calStamp s k tx := by
  have hr : ∀ q : RF, q.addr = (calState k tx).addr → t.rd q = s.rd q := fun q hq => rd_congr (by rw [hq, h])
  unfold calStamp
  cases tx
  · rw [if_neg Bool.false_ne_true, if_neg Bool.false_ne_true, hr (LPH_CAL_RX_T k) rfl, hr (LPH_CAL_RX_P k) rfl]
  · rw [if_pos rfl, if_pos rfl, hr (LPH_CAL_TX_T k) rfl, hr (LPH_CAL_TX_DUTY k) rfl]

/-! #### The check of one calibration with no trim in progress -/

theorem calCheckOne_untrimmed {now avg : Int × Int} (h : s.rd (calState k tx) ≠ 3) : calCheckOne k tx now avg s =
    if s.rd (calState k tx) = 1 ∧ calOut (calWindow s k tx) (calStamp s k tx) now = true then s.wr (calState k tx) 2 else s := by
  unfold calCheckOne
  dsimp only
  by_cases h1 : s.rd (calState k tx) = 1
  · by_cases ho : calOut (calWindow s k tx) (calStamp s k tx) now = true
    · rw [if_pos h1, if_pos ho, if_pos ⟨h1, ho⟩]
    · rw [if_pos h1, if_neg ho, if_neg fun hc => ho hc.2]
  · rw [if_neg h1, if_neg h, if_neg fun hc => h1 hc.1]

theorem calCheckOne_regs {now avg : Int × Int} (h : s.rd (calState k tx) ≠ 3) :
    OnlyRegs [(calState k tx).addr] s (calCheckOne k tx now avg s) := by
  rw [calCheckOne_untrimmed h]
  exact onlyRegs_ite (onlyRegs_wr onlyRegs_refl (List.mem_singleton_self _)) onlyRegs_refl

/-- STAMPED becomes DRIFTED outside the windows; otherwise the state stays. -/
theorem calCheckOne_drifts {now avg : Int × Int} (h : s.rd (calState k tx) ≠ 3) :
    (Outside (calWindow s k tx) (calStamp s k tx) now → s.rd (calState k tx) = 1 → (calCheckOne k tx now avg s).rd (calState k tx) = 2) ∧
      (¬ Outside (calWindow s k tx) (calStamp s k tx) now ∨ s.rd (calState k tx) ≠ 1 →
        (calCheckOne k tx now avg s).rd (calState k tx) = s.rd (calState k tx)) := by
  rw [calCheckOne_untrimmed h]
  refine ⟨fun ho h1 => ?_, fun hn => ?_⟩
  · rw [if_pos ⟨h1, calOut_iff.2 ho⟩, rd_calState_same (by decide)]
  · rw [if_neg fun hc => hn.elim (fun hn => hn (calOut_iff.1 hc.2)) fun hn => hn hc.1]

/-! #### The end of a trim -/

/-- The end of a trim shows STAMPED. -/
theorem calDone_state {c : Int × Int} : (calDone k tx c s).rd (calState k tx) = 1 := by
  have h1 : (s.wr (calState k tx) 1).rd (calState k tx) = 1 := rd_calState_same (by decide)
  unfold calDone
  cases tx
  case false =>
    rw [if_neg Bool.false_ne_true, rd_setLphCh]
    exact (rd_wr_other _ _ (r := LPH_CAL_RX_P k) le_of_eval calState_le (Or.inr (Or.inl le_of_eval))).trans
      ((rd_wr_other _ _ (r := LPH_CAL_RX_T k) le_of_eval calState_le (Or.inr (Or.inl le_of_eval))).trans h1)
  case true =>
    rw [if_pos rfl, rd_setLphCh]
    exact (rd_wr_other _ _ (r := LPH_CAL_TX_DUTY k) le_of_eval calState_le (Or.inr (Or.inl le_of_eval))).trans
      ((rd_wr_other _ _ (r := LPH_CAL_TX_T k) le_of_eval calState_le (Or.inr (Or.inl le_of_eval))).trans h1)

/-- It changes its calibration's register alone. -/
theorem calDone_reg {c : Int × Int} {a : Nat} (h : a ≠ (calState k tx).addr) : (calDone k tx c s).reg a = s.reg a := by
  unfold calDone
  cases tx
  case false =>
    rw [if_neg Bool.false_ne_true, reg_setLphCh, reg_wr_ne (r := LPH_CAL_RX_P k) _ _ h, reg_wr_ne (r := LPH_CAL_RX_T k) _ _ h, reg_wr_ne _ _ h]
  case true =>
    rw [if_pos rfl, reg_setLphCh, reg_wr_ne (r := LPH_CAL_TX_DUTY k) _ _ h, reg_wr_ne (r := LPH_CAL_TX_T k) _ _ h, reg_wr_ne _ _ h]

/-- The averages over a trim of the receiver. -/
theorem calDone_rx {avg : CalCond} : (calDone k false (calPair false avg) s).rd (LPH_CAL_RX_T k) = avg.rxT.toNat ∧
    (calDone k false (calPair false avg) s).rd (LPH_CAL_RX_P k) = avg.pwr.toNat ∧ ((calDone k false (calPair false avg) s).lphCh k).rxKept = true := by
  unfold calDone
  rw [if_neg Bool.false_ne_true, rd_setLphCh, rd_setLphCh, lphCh_setLphCh]
  refine ⟨?_, ?_, rfl⟩
  · rw [rd_wr_other _ _ (r := LPH_CAL_RX_P k) le_of_eval le_of_eval (Or.inr (Or.inl le_of_eval)), rd_wr_same _ _ le_of_eval]
    exact (Nat.mod_eq_of_lt (unsigned_lt 16 _)).trans (unsigned_toInt avg.rxT)
  · rw [rd_wr_same _ _ le_of_eval]
    exact (Nat.mod_eq_of_lt (unsigned_lt 16 _)).trans (unsigned_toInt avg.pwr)

/-- The averages over a trim of the transmitter. -/
theorem calDone_tx {avg : CalCond} : (calDone k true (calPair true avg) s).rd (LPH_CAL_TX_T k) = avg.txT.toNat ∧
    (calDone k true (calPair true avg) s).rd (LPH_CAL_TX_DUTY k) = avg.duty.toNat ∧ ((calDone k true (calPair true avg) s).lphCh k).txKept = true := by
  unfold calDone
  rw [if_pos rfl, rd_setLphCh, rd_setLphCh, lphCh_setLphCh]
  refine ⟨?_, ?_, rfl⟩
  · rw [rd_wr_other _ _ (r := LPH_CAL_TX_DUTY k) le_of_eval le_of_eval (Or.inr (Or.inl le_of_eval)), rd_wr_same _ _ le_of_eval]
    exact (Nat.mod_eq_of_lt (unsigned_lt 16 _)).trans (unsigned_toInt avg.txT)
  · rw [rd_wr_same _ _ le_of_eval]
    exact (Nat.mod_eq_of_lt (unsigned_lt 8 _)).trans (unsigned_natCast avg.duty)

theorem calComplete_eq {avg : CalCond} (h : s.rd (calState k tx) = 3) : calComplete k tx avg s = calDone k tx (calPair tx avg) s := if_pos h

theorem calComplete_kept {avg : CalCond} : Kept false [.regs, .lph] [blkLPH] s (calComplete k tx avg s) :=
  kept_calComplete Kept.rfl_frame (by decide) (by decide) (by decide)

/-! #### The check of the receiver while it is trimmed -/

theorem calCheckOne_restarts {now avg x : Int × Int} (h : s.rd (LPH_CAL_RX_STATE k) = 3) (hs : (s.lphCh k).rxStart = some x)
    (ho : Outside (calWindow s k false) x now) (hn : (s.lphCh k).rxRestarts < 3) :
    calCheckOne k false now avg s = s.setLphCh k { s.lphCh k with rxStart := some now, rxRestarts := (s.lphCh k).rxRestarts + 1 } := by
  have h3 : s.rd (calState k false) = 3 := h
  unfold calCheckOne
  simp only [h3, Bool.false_eq_true, OfNat.ofNat_ne_one, ↓reduceIte, hs, calOut_iff.2 ho, Bool.not_true, Nat.not_le.2 hn]

theorem calCheckOne_ends {now avg x : Int × Int} (h : s.rd (LPH_CAL_RX_STATE k) = 3) (hs : (s.lphCh k).rxStart = some x)
    (ho : Outside (calWindow s k false) x now) (hn : 3 ≤ (s.lphCh k).rxRestarts) :
    calCheckOne k false now avg s = (calDone k false avg s).put (LPH_CAL_CTL_RX_UNST k) true := by
  have h3 : s.rd (calState k false) = 3 := h
  unfold calCheckOne
  simp only [h3, Bool.false_eq_true, OfNat.ofNat_ne_one, ↓reduceIte, hs, calOut_iff.2 ho, Bool.not_true, hn]

/-! #### The check of a channel -/

/-- The state in which the monitors of a channel are shown. -/
def monitorsShown (k : Nat) (now : CalCond) (s : State) : State :=
  let s := (s.wr LPH_TEMP_TX_ENG now.txT.toNat).wr LPH_TEMP_RX_ENG now.rxT.toNat
  if rxPowered s k then showPower k now.pwr.toInt s else s

theorem calCheck_eq (now avg : CalCond) : calCheck k now avg s =
    calCheckOne k true (calPair true now) (calPair true avg) (calCheckOne k false (calPair false now) (calPair false avg) (monitorsShown k now s)) := rfl

theorem monitorsShown_regs {now : CalCond} : OnlyRegs [LPH_TEMP.addr, (LPH_RX_STATUS k).addr] s (monitorsShown k now s) := by
  have h : OnlyRegs [LPH_TEMP.addr, (LPH_RX_STATUS k).addr] s ((s.wr LPH_TEMP_TX_ENG now.txT.toNat).wr LPH_TEMP_RX_ENG now.rxT.toNat) :=
    onlyRegs_wr (onlyRegs_wr onlyRegs_refl List.mem_cons_self) List.mem_cons_self
  exact onlyRegs_ite (onlyRegs_wr (r := LPH_RX_STATUS_PWR k) h (List.mem_cons_of_mem _ (List.mem_singleton_self _))) h

theorem monitorsShown_temps {now : CalCond} : (monitorsShown k now s).rd LPH_TEMP_TX_ENG = now.txT.toNat ∧
    (monitorsShown k now s).rd LPH_TEMP_RX_ENG = now.rxT.toNat := by
  have hne : LPH_TEMP.addr ≠ (LPH_RX_STATUS k).addr := (window_ne_single (A := 0x8000048) (B := 0x8100040) (by decide)).symm
  have hr : (monitorsShown k now s).reg LPH_TEMP.addr = ((s.wr LPH_TEMP_TX_ENG now.txT.toNat).wr LPH_TEMP_RX_ENG now.rxT.toNat).reg LPH_TEMP.addr := by
    unfold monitorsShown
    dsimp only
    split
    · exact reg_wr_ne (r := LPH_RX_STATUS_PWR k) _ _ hne
    · rfl
  refine ⟨(rd_congr (q := LPH_TEMP_TX_ENG) hr).trans ?_, (rd_congr (q := LPH_TEMP_RX_ENG) hr).trans ?_⟩
  · rw [rd_wr_other _ _ (by decide) (by decide) (by decide), rd_wr_same _ _ (by decide)]
    exact Nat.mod_eq_of_lt now.txT.isLt
  · rw [rd_wr_same _ _ (by decide)]
    exact Nat.mod_eq_of_lt now.rxT.isLt

/-- The registers of a channel's calibrations and of its windows are none of the monitors'. -/
theorem calState_unmonitored : (calState k tx).addr ∉ [LPH_TEMP.addr, (LPH_RX_STATUS k).addr] := by
  simp only [List.mem_cons, List.not_mem_nil, or_false, not_or]
  cases tx
  · exact ⟨window_ne_single (A := 0x8000068) (B := 0x8100040) (by decide), window_ne (A := 0x8000068) (B := 0x8000048) (by decide)⟩
  · exact ⟨window_ne_single (A := 0x8000070) (B := 0x8100040) (by decide), window_ne (A := 0x8000070) (B := 0x8000048) (by decide)⟩

theorem calWin_unmonitored : (LPH_CAL_WIN k).addr ∉ [LPH_TEMP.addr, (LPH_RX_STATUS k).addr] := by
  simp only [List.mem_cons, List.not_mem_nil, or_false, not_or]
  exact ⟨window_ne_single (A := 0x8000060) (B := 0x8100040) (by decide), window_ne (A := 0x8000060) (B := 0x8000048) (by decide)⟩

theorem monitorsShown_calState {now : CalCond} : (monitorsShown k now s).reg (calState k tx).addr = s.reg (calState k tx).addr :=
  onlyRegs_reg monitorsShown_regs calState_unmonitored

theorem monitorsShown_window {now : CalCond} : calWindow (monitorsShown k now s) k tx = calWindow s k tx :=
  calWindow_congr (onlyRegs_reg monitorsShown_regs calWin_unmonitored)

theorem monitorsShown_lphCh {now : CalCond} : (monitorsShown k now s).lphCh k = s.lphCh k := by
  unfold State.lphCh
  rw [monitorsShown_regs.1]

/-- The check of a channel of which no trim is in progress. -/
theorem calCheck_untrimmed (now avg : CalCond) (hrx : s.rd (LPH_CAL_RX_STATE k) ≠ 3) (htx : s.rd (LPH_CAL_TX_STATE k) ≠ 3) :
    (calCheck k now avg s).rd LPH_TEMP_TX_ENG = now.txT.toNat ∧ (calCheck k now avg s).rd LPH_TEMP_RX_ENG = now.rxT.toNat ∧
    (Outside (calWindow s k true) (calStamp s k true) (calPair true now) → s.rd (LPH_CAL_TX_STATE k) = 1 →
      (calCheck k now avg s).rd (LPH_CAL_TX_STATE k) = 2) ∧
    (Outside (calWindow s k false) (calStamp s k false) (calPair false now) → s.rd (LPH_CAL_RX_STATE k) = 1 →
      (calCheck k now avg s).rd (LPH_CAL_RX_STATE k) = 2) ∧
    (¬ Outside (calWindow s k true) (calStamp s k true) (calPair true now) ∨ s.rd (LPH_CAL_TX_STATE k) ≠ 1 →
      (calCheck k now avg s).rd (LPH_CAL_TX_STATE k) = s.rd (LPH_CAL_TX_STATE k)) ∧
    (¬ Outside (calWindow s k false) (calStamp s k false) (calPair false now) ∨ s.rd (LPH_CAL_RX_STATE k) ≠ 1 →
      (calCheck k now avg s).rd (LPH_CAL_RX_STATE k) = s.rd (LPH_CAL_RX_STATE k)) ∧
    (∀ a, a ∉ [LPH_TEMP.addr, (LPH_RX_STATUS k).addr, (LPH_CAL_RX k).addr, (LPH_CAL_TX k).addr] → (calCheck k now avg s).reg a = s.reg a) ∧
    Frame [.regs] s (calCheck k now avg s) := by
  have hmon := monitorsShown_regs (s := s) (k := k) (now := now)
  obtain ⟨htemp1, htemp2⟩ := monitorsShown_temps (s := s) (k := k) (now := now)
  have hreg := fun tx => monitorsShown_calState (s := s) (k := k) (now := now) (tx := tx)
  have hwin := fun tx => monitorsShown_window (s := s) (k := k) (now := now) (tx := tx)
  rw [calCheck_eq]
  generalize monitorsShown k now s = u at hmon htemp1 htemp2 hreg hwin ⊢
  have hst := fun tx => rd_congr (q := calState k tx) (hreg tx)
  have hstamp := fun tx => calStamp_congr (hreg tx)
  -- the check of the receiver
  have hu3 : u.rd (calState k false) ≠ 3 := by rwa [hst]
  have hv := calCheckOne_regs (now := calPair false now) (avg := calPair false avg) hu3
  obtain ⟨hrx1, hrx2⟩ := calCheckOne_drifts (now := calPair false now) (avg := calPair false avg) hu3
  rw [hwin, hstamp, hst] at hrx1 hrx2
  generalize calCheckOne k false (calPair false now) (calPair false avg) u = v at hv hrx1 hrx2 ⊢
  -- the check of the transmitter reads what it would have read before
  have hvreg : ∀ a, a ≠ (calState k false).addr → v.reg a = u.reg a := fun a ha => onlyRegs_reg hv (by simpa using ha)
  have hvst : v.rd (calState k true) = s.rd (calState k true) := (rd_congr (hvreg _ calState_ne)).trans (hst true)
  have hv3 : v.rd (calState k true) ≠ 3 := by rwa [hvst]
  have ht := calCheckOne_regs (now := calPair true now) (avg := calPair true avg) hv3
  obtain ⟨htx1, htx2⟩ := calCheckOne_drifts (now := calPair true now) (avg := calPair true avg) hv3
  rw [calWindow_congr (hvreg _ calWin_ne), calStamp_congr (hvreg _ calState_ne), hwin, hstamp, hvst] at htx1 htx2
  generalize calCheckOne k true (calPair true now) (calPair true avg) v = t at ht htx1 htx2 ⊢
  have htreg : ∀ a, a ≠ (calState k true).addr → t.reg a = v.reg a := fun a ha => onlyRegs_reg ht (by simpa using ha)
  have hrxt : t.rd (calState k false) = v.rd (calState k false) := rd_congr (htreg _ calState_ne)
  have htemp : t.reg LPH_TEMP.addr = u.reg LPH_TEMP.addr :=
    (htreg _ fun e => calState_unmonitored (k := k) (tx := true) (e ▸ List.mem_cons_self)).trans
      (hvreg _ fun e => calState_unmonitored (k := k) (tx := false) (e ▸ List.mem_cons_self))
  refine ⟨(rd_congr (q := LPH_TEMP_TX_ENG) htemp).trans htemp1, (rd_congr (q := LPH_TEMP_RX_ENG) htemp).trans htemp2, htx1,
    fun ho h1 => hrxt.trans (hrx1 ho h1), htx2, fun hn => hrxt.trans (hrx2 hn), fun a ha => ?_, ?_⟩
  · simp only [List.mem_cons, List.not_mem_nil, or_false, not_or] at ha
    obtain ⟨h1, h2, h3, h4⟩ := ha
    rw [htreg a h4, hvreg a h3, onlyRegs_reg hmon (by simp [h1, h2])]
  · exact frame_trans (onlyRegs_kept hmon (by decide)).frame
      (frame_trans (onlyRegs_kept hv (by decide)).frame (onlyRegs_kept ht (by decide)).frame)

end
section
variable {s : State} {k : Nat} {now avg : CalCond} {x : Int × Int}

/-- A calibration that is not enabled is not checked. -/
theorem calCheckOne_off {tx : Bool} {now avg : Int × Int} (h : s.rd (calState k tx) = 0) : calCheckOne k tx now avg s = s := by
  rw [calCheckOne_untrimmed (by rw [h]; decide), if_neg fun hc => by rw [h] at hc; exact absurd hc.1 (by decide)]

/-- A condition outside its window in a trim of the receiver: the trim restarts, the fourth time it ends as unsteady (R65). -/
theorem calCheck_rxTrimmed (h : s.rd (LPH_CAL_RX_STATE k) = 3) (hs : (s.lphCh k).rxStart = some x) (htx : s.rd (LPH_CAL_TX_STATE k) = 0)
    (ho : Outside (calWindow s k false) x (calPair false now)) :
    ((s.lphCh k).rxRestarts < 3 → (calCheck k now avg s).rd (LPH_CAL_RX_STATE k) = 3 ∧
      ((calCheck k now avg s).lphCh k).rxStart = some (calPair false now) ∧
      ((calCheck k now avg s).lphCh k).rxRestarts = (s.lphCh k).rxRestarts + 1) ∧
    (3 ≤ (s.lphCh k).rxRestarts → (calCheck k now avg s).rd (LPH_CAL_RX_STATE k) = 1 ∧
      (calCheck k now avg s).bit (LPH_CAL_CTL_RX_UNST k) = true) := by
  have hreg := fun tx => monitorsShown_calState (s := s) (k := k) (now := now) (tx := tx)
  have hwin := monitorsShown_window (s := s) (k := k) (now := now) (tx := false)
  have hch := monitorsShown_lphCh (s := s) (k := k) (now := now)
  rw [calCheck_eq]
  generalize monitorsShown k now s = u at hreg hwin hch ⊢
  have h3 : u.rd (LPH_CAL_RX_STATE k) = 3 := (rd_congr (hreg false)).trans h
  have h0 : u.rd (calState k true) = 0 := (rd_congr (hreg true)).trans htx
  rw [← hwin] at ho
  rw [← hch] at hs ⊢
  refine ⟨fun hn => ?_, fun hn => ?_⟩
  · rw [calCheckOne_restarts h3 hs ho hn, calCheckOne_off (by rw [rd_setLphCh]; exact h0), lphCh_setLphCh, rd_setLphCh]
    exact ⟨h3, rfl, rfl⟩
  · have hctl : ∀ tx, (calState k tx).addr ≠ (LPH_CAL_CTL_RX_UNST k).addr := fun tx => by
      cases tx
      · exact window_ne (A := 0x8000068) (B := 0x8000078) (by decide)
      · exact window_ne (A := 0x8000070) (B := 0x8000078) (by decide)
    have htx' : (calDone k false (calPair false avg) u).rd (calState k true) = 0 :=
      (rd_congr (calDone_reg (tx := false) calState_ne)).trans h0
    rw [calCheckOne_ends h3 hs ho hn, calCheckOne_off ((rd_congr (reg_put_ne _ _ (hctl true))).trans htx')]
    exact ⟨(rd_congr (q := calState k false) (reg_put_ne _ _ (hctl false))).trans calDone_state, bit_put_same _ _ le_of_eval rfl⟩
end

/-! #### A trim asked for, started -/

/-- The row of LPH_CAL_CTL. -/
def rowCalCtl : RegRow :=
  ⟨0x8, 0x8000000, 16, 0x78, 1, 8, 0x0, [⟨3, 1, .w1c, 0, 1⟩, ⟨2, 1, .w1c, 0, 1⟩, ⟨1, 1, .w1s, 0, 1⟩, ⟨0, 1, .w1s, 0, 1⟩]⟩

theorem regRow_calCtl : ∀ k : Chan, regRow? (LPH_CAL_CTL k).addr = some rowCalCtl := by decide +kernel

theorem bankOf_calCtl : ∀ k : Chan, bankOf (LPH_CAL_CTL k).addr ≠ some (LPH_CAL_CTL k).addr := by decide +kernel

theorem blkOf_calCtl : ∀ k : Chan, blkOf (LPH_CAL_CTL k).addr = blkLPH := by decide

/-- A trim is asked for where its bit is set. -/
def trimAsked (k : Nat) (tx : Bool) (n : Nat) (s : State) : State := if n = 1 then calRequest k tx s else s

theorem lphWrite_calCtl (k : Chan) (v : Word) (o s : State) :
    lphWrite (LPH_CAL_CTL k).addr v o s = trimAsked k false (fieldOf v 0 1) (trimAsked k true (fieldOf v 1 1) s) := by
  have hu : (LPH_CAL_CTL k).addr % 0x1000000 / 0x10000 = k := (by decide : ∀ k : Chan, (LPH_CAL_CTL k).addr % 0x1000000 / 0x10000 = k) k
  have hne : ∀ k : Chan, (LPH_CAL_CTL k).addr ≠ LPH_PORT.addr ∧ (LPH_CAL_CTL k).addr ≠ LPH_LSRC_CMD.addr ∧
      (LPH_CAL_CTL k).addr ≠ (LPH_CH_CTL k).addr := by decide
  obtain ⟨h1, h2, h3⟩ := hne k
  unfold lphWrite
  dsimp only
  rw [hu, if_neg h1, if_neg h2, if_neg (Nat.not_le.2 k.isLt), if_neg h3, if_pos rfl]
  rfl

section
variable {s : State} {k n : Nat} {tx : Bool}

theorem trimAsked_regs : OnlyRegs [(calState k tx).addr] s (trimAsked k tx n s) :=
  onlyRegs_ite (onlyRegs_ite (onlyRegs_wr onlyRegs_refl (List.mem_singleton_self _)) onlyRegs_refl) onlyRegs_refl

theorem trimAsked_state :
    (trimAsked k tx n s).rd (calState k tx) = if n = 1 ∧ s.rd (calState k tx) = 1 then 2 else s.rd (calState k tx) := by
  unfold trimAsked calRequest
  by_cases hn : n = 1
  · by_cases h1 : s.rd (calState k tx) = 1
    · rw [if_pos hn, if_pos h1, if_pos ⟨hn, h1⟩, rd_calState_same (by decide)]
    · rw [if_pos hn, if_neg h1, if_neg fun hc => h1 hc.2]
  · rw [if_neg hn, if_neg fun hc => hn hc.1]

theorem trimAsked_other : (trimAsked k tx n s).rd (calState k (!tx)) = s.rd (calState k (!tx)) :=
  rd_congr (onlyRegs_reg trimAsked_regs fun hc => calState_ne (List.mem_singleton.1 hc).symm)
end

/-- A request turns STAMPED into DRIFTED, calibration by calibration. -/
theorem calTrimRequest_asks {i : Initiator} {k : Chan} {v : Word} {s : State} (hA : Accepted i (LPH_CAL_CTL k).addr v s) :
    Gives (.calTrimRequest i k v) s fun t =>
      t.rd (LPH_CAL_RX_STATE k) = (if fieldOf v 0 1 = 1 ∧ s.rd (LPH_CAL_RX_STATE k) = 1 then 2 else s.rd (LPH_CAL_RX_STATE k)) ∧
      t.rd (LPH_CAL_TX_STATE k) = (if fieldOf v 1 1 = 1 ∧ s.rd (LPH_CAL_TX_STATE k) = 1 then 2 else s.rd (LPH_CAL_TX_STATE k)) ∧
      (∀ a, a ∉ [(LPH_CAL_CTL k).addr, (LPH_CAL_RX k).addr, (LPH_CAL_TX k).addr] → t.reg a = s.reg a) ∧ Frame [.regs, .harts] s t := by
  have hw := regAccess_lph hA (regRow_calCtl k) rfl (blkOf_calCtl k) (bankOf_calCtl k)
  rw [lphWrite_calCtl] at hw
  refine ⟨_, congrArg Host.Outcome.next hw, ?_⟩
  have hframe := (storedBy_kept (i := i) (a := (LPH_CAL_CTL k).addr) (r := rowCalCtl) (v := v) (s := s)).frame
  have hreg : ∀ a, a ≠ (LPH_CAL_CTL k).addr → (storedBy i (LPH_CAL_CTL k).addr rowCalCtl v s).reg a = s.reg a := fun a ha => storedBy_reg_ne ha
  generalize storedBy i (LPH_CAL_CTL k).addr rowCalCtl v s = u at hframe hreg ⊢
  have hctl : ∀ tx, u.rd (calState k tx) = s.rd (calState k tx) := fun tx => rd_congr (hreg _ (by
    cases tx
    · exact window_ne (A := 0x8000068) (B := 0x8000078) (by decide)
    · exact window_ne (A := 0x8000070) (B := 0x8000078) (by decide)))
  have h1 := trimAsked_regs (s := u) (k := k) (n := fieldOf v 1 1) (tx := true)
  have h2 := trimAsked_regs (s := trimAsked k true (fieldOf v 1 1) u) (k := k) (n := fieldOf v 0 1) (tx := false)
  refine ⟨?_, ?_, fun a ha => ?_, frame_trans hframe (frame_trans (onlyRegs_kept h1 (by decide)).frame (onlyRegs_kept h2 (by decide)).frame)⟩
  · have e := trimAsked_state (s := trimAsked k true (fieldOf v 1 1) u) (k := k) (n := fieldOf v 0 1) (tx := false)
    have ho : (trimAsked k true (fieldOf v 1 1) u).rd (calState k false) = s.rd (calState k false) :=
      (trimAsked_other (tx := true)).trans (hctl false)
    rw [ho] at e
    exact e
  · refine (trimAsked_other (tx := false)).trans ?_
    have e := trimAsked_state (s := u) (k := k) (n := fieldOf v 1 1) (tx := true)
    rw [hctl] at e
    exact e
  · simp only [List.mem_cons, List.not_mem_nil, or_false, not_or] at ha
    obtain ⟨ha1, ha2, ha3⟩ := ha
    rw [onlyRegs_reg h2 fun hc => ha2 (List.mem_singleton.1 hc), onlyRegs_reg h1 fun hc => ha3 (List.mem_singleton.1 hc), hreg a ha1]

section
variable {s : State} {k : Nat} {tx : Bool} {now : CalCond}

/-- A DRIFTED calibration starts its trim; the conditions are recorded. -/
theorem calStart_records (h : s.rd (calState k tx) = 2) :
    (calStart k tx now s).rd (calState k tx) = 3 ∧
      (if tx then ((calStart k tx now s).lphCh k).txStart else ((calStart k tx now s).lphCh k).rxStart) = some (calPair tx now) ∧
      (∀ a, a ∉ [(calState k tx).addr] → (calStart k tx now s).reg a = s.reg a) ∧ Frame [.regs, .lph] s (calStart k tx now s) := by
  have hk : Kept false [.regs, .lph] [blkLPH] s (calStart k tx now s) := kept_calStart Kept.rfl_frame (by decide) (by decide) (by decide)
  refine ⟨?_, ?_, fun a ha => ?_, hk.frame⟩ <;> unfold calStart <;> rw [if_pos h]
  · rw [rd_setLphCh, rd_calState_same (by decide)]
  · rw [lphCh_setLphCh]
    cases tx <;> rfl
  · rw [reg_setLphCh, reg_wr_ne _ _ (by simpa using ha)]
end
/-! ### The equaliser's diversity windows (R68) -/

section
variable {s : State} {k : Nat}

theorem setTaps_lphCh {taps : List Int} : ((setTaps k taps s).lphCh k).rx.taps = taps ∧ ((setTaps k taps s).lphCh k).passes = (s.lphCh k).passes := by
  unfold setTaps
  rw [lphCh_setLphCh]
  exact ⟨rfl, rfl⟩

/-- A window passes: every point was met often enough. -/
theorem windowPasses_iff {counts : List (BitVec 17)} {m : Nat} :
    (counts.map (·.toNat)).all (fun c => decide (m ≤ c)) = true ↔ ∀ c ∈ counts, m ≤ c.toNat := by
  simp only [List.all_map, List.all_eq_true, Function.comp_apply, decide_eq_true_eq]

section
variable {counts : List (BitVec 17)} {aided piloted : List (BitVec 32)}

/-- While it is not frozen, a window that passes applies its data-aided updates. -/
theorem eqWindow_adapts (hf : s.bit (LPH_RX_STATUS_FROZEN k) = false) (hp : ∀ c ∈ counts, s.rd (LPH_EQ_DIV_DIV_MIN k) ≤ c.toNat) :
    eqWindow k (counts.map (·.toNat)) aided piloted s = setTaps k (addTaps (eqShift s k) (s.lphCh k).rx.taps aided) s := by
  have hb : (setTaps k (addTaps (eqShift s k) (s.lphCh k).rx.taps aided) s).bit (LPH_RX_STATUS_FROZEN k) = false := hf
  unfold eqWindow
  simp only [hf, windowPasses_iff.2 hp, hb, Bool.false_eq_true, Bool.not_false, ↓reduceIte]

/-- A window with a point below DIV_MIN freezes it. -/
theorem eqWindow_freezes {c : BitVec 17} (hf : s.bit (LPH_RX_STATUS_FROZEN k) = false) (hc : c ∈ counts)
    (hm : c.toNat < s.rd (LPH_EQ_DIV_DIV_MIN k)) :
    eqWindow k (counts.map (·.toNat)) aided piloted s =
      ((s.put (LPH_RX_STATUS_FROZEN k) true).put (LPH_RX_EVT_FREEZE k) true).setLphCh k { s.lphCh k with passes := 0 } := by
  have hp : (counts.map (·.toNat)).all (fun c => decide (s.rd (LPH_EQ_DIV_DIV_MIN k) ≤ c)) = false :=
    Bool.eq_false_iff.2 fun h => absurd (windowPasses_iff.1 h c hc) (Nat.not_le.2 hm)
  unfold eqWindow
  simp only [hf, hp, Bool.false_eq_true, Bool.not_false, ↓reduceIte]

/-- While it is frozen, a window that passes applies its pilot-aided updates and counts towards the end of the freeze. -/
theorem eqWindow_frozen (hf : s.bit (LPH_RX_STATUS_FROZEN k) = true) (hp : ∀ c ∈ counts, s.rd (LPH_EQ_DIV_DIV_MIN k) ≤ c.toNat) :
    let t := setTaps k (addTaps (pilotShift s k) (s.lphCh k).rx.taps piloted) s
    eqWindow k (counts.map (·.toNat)) aided piloted s =
      if s.rd (LPH_EQ_DIV_DIV_RESUME k) ≤ (s.lphCh k).passes + 1 then
        (t.put (LPH_RX_STATUS_FROZEN k) false).setLphCh k { t.lphCh k with passes := 0 }
      else t.setLphCh k { t.lphCh k with passes := (s.lphCh k).passes + 1 } := by
  have hb : (setTaps k (addTaps (pilotShift s k) (s.lphCh k).rx.taps piloted) s).bit (LPH_RX_STATUS_FROZEN k) = true := hf
  have hn : (setTaps k (addTaps (pilotShift s k) (s.lphCh k).rx.taps piloted) s).rd (LPH_EQ_DIV_DIV_RESUME k) =
      s.rd (LPH_EQ_DIV_DIV_RESUME k) := rfl
  unfold eqWindow
  simp only [hf, windowPasses_iff.2 hp, hb, hn, setTaps_lphCh.2, Bool.not_true, Bool.false_eq_true, ↓reduceIte]

theorem eqWindow_kept : Kept false [.regs, .lph] [blkLPH] s (eqWindow k (counts.map (·.toNat)) aided piloted s) :=
  kept_eqWindow Kept.rfl_frame (by decide) (by decide) (by decide)

/-- What a window that freezes the equaliser shows. -/
theorem eqWindow_freezes_shows {c : BitVec 17} (hf : s.bit (LPH_RX_STATUS_FROZEN k) = false) (hc : c ∈ counts)
    (hm : c.toNat < s.rd (LPH_EQ_DIV_DIV_MIN k)) :
    let t := eqWindow k (counts.map (·.toNat)) aided piloted s
    t.bit (LPH_RX_STATUS_FROZEN k) = true ∧ t.bit (LPH_RX_EVT_FREEZE k) = true ∧ (t.lphCh k).passes = 0 ∧ (t.lphCh k).rx = (s.lphCh k).rx ∧
      ∀ a, a ∉ [(LPH_RX_STATUS k).addr, (LPH_RX_EVT k).addr] → t.reg a = s.reg a := by
  dsimp only
  rw [eqWindow_freezes hf hc hm, bit_setLphCh, bit_setLphCh, lphCh_setLphCh]
  refine ⟨?_, bit_put_same _ _ le_of_eval rfl, rfl, rfl, fun a ha => ?_⟩
  · exact (bit_put_other (q := LPH_RX_STATUS_FROZEN k) (r := LPH_RX_EVT_FREEZE k) _ _ le_of_eval le_of_eval (Or.inl rxStatus_ne_rxEvt)).trans
      (bit_put_same _ _ le_of_eval rfl)
  · simp only [List.mem_cons, List.not_mem_nil, or_false, not_or] at ha
    rw [reg_setLphCh, reg_put_ne (r := LPH_RX_EVT_FREEZE k) _ _ ha.2, reg_put_ne (r := LPH_RX_STATUS_FROZEN k) _ _ ha.1]

/-- What a window that passes during a freeze shows. -/
theorem eqWindow_frozen_shows (hf : s.bit (LPH_RX_STATUS_FROZEN k) = true) (hp : ∀ c ∈ counts, s.rd (LPH_EQ_DIV_DIV_MIN k) ≤ c.toNat) :
    let t := eqWindow k (counts.map (·.toNat)) aided piloted s
    t.bit (LPH_RX_STATUS_FROZEN k) = decide ((s.lphCh k).passes + 1 < s.rd (LPH_EQ_DIV_DIV_RESUME k)) ∧
      ((s.lphCh k).passes + 1 < s.rd (LPH_EQ_DIV_DIV_RESUME k) → (t.lphCh k).passes = (s.lphCh k).passes + 1) ∧
      (t.lphCh k).rx.taps = addTaps (pilotShift s k) (s.lphCh k).rx.taps piloted ∧
      ∀ a, a ∉ [(LPH_RX_STATUS k).addr] → t.reg a = s.reg a := by
  dsimp only
  rw [eqWindow_frozen hf hp]
  by_cases h : s.rd (LPH_EQ_DIV_DIV_RESUME k) ≤ (s.lphCh k).passes + 1
  · rw [if_pos h, bit_setLphCh, lphCh_setLphCh]
    refine ⟨?_, fun hc => absurd hc (Nat.not_lt.2 h), setTaps_lphCh.1, fun a ha => ?_⟩
    · rw [bit_put_same _ _ le_of_eval rfl, decide_eq_false (Nat.not_lt.2 h)]
    · exact reg_put_ne (r := LPH_RX_STATUS_FROZEN k) _ _ fun hc => ha (List.mem_singleton.2 hc)
  · rw [if_neg h, bit_setLphCh, lphCh_setLphCh, decide_eq_true (Nat.not_le.1 h)]
    exact ⟨hf, fun _ => rfl, setTaps_lphCh.1, fun a _ => rfl⟩
end
end

/-- Settles O19: what each operation shows, and what it leaves. -/
theorem lineCalibrationRows : Obligations.LineCalibrationRows := by
  unfold Obligations.LineCalibrationRows
  refine ⟨fun k next cw iter bitc info parity s hup hr hs => ?_, fun k next cw iter bitc info parity s hup hr hs hi => ?_,
    fun k next cw iter bitc info parity s hup h => ⟨_, congrArg Host.Outcome.next ((if_pos hup).trans (codewordDecoded_waits h)), rfl⟩,
    fun k next cw info parity s hup hr he h0 h1 => ⟨_, congrArg Host.Outcome.next (if_pos hup), provisionalRelease_keeps hr he h0 h1⟩,
    fun k now avg s hup hrx htx => ⟨_, congrArg Host.Outcome.next (if_pos hup), calCheck_untrimmed now avg hrx htx⟩,
    fun k now avg s x hup h hs htx ho => ?_, fun i k v s hA => calTrimRequest_asks hA,
    fun k tx now s hup h => ⟨_, congrArg Host.Outcome.next (if_pos hup), calStart_records h⟩,
    fun k avg s hup h => ?_, fun k avg s hup h => ?_,
    fun k tx avg s hup h => ⟨_, congrArg Host.Outcome.next ((if_pos hup).trans (if_neg h)), rfl⟩,
    fun k counts aided piloted s hup hf hp => ?_,
    fun k counts aided piloted s c hup hf hc hm => ?_, fun k counts aided piloted s hup hf hp => ?_⟩
  · obtain ⟨h1, h2, h3, h4, h5⟩ := codewordDecoded_good (k := k) (next := next) (cw := cw) (iter := iter.toNat) bitc hr hs
    exact ⟨_, congrArg Host.Outcome.next (if_pos hup), h1, h2, h3, h4, h5, codewordDecoded_kept.regFrame, codewordDecoded_kept.frame⟩
  · obtain ⟨h1, h2, h3, h4, h5⟩ := codewordDecoded_bad (k := k) (next := next) (cw := cw) (bitc := bitc.toNat) hr hs hi
    exact ⟨_, congrArg Host.Outcome.next (if_pos hup), h1, h2, h3, h4, h5, codewordDecoded_kept.regFrame, codewordDecoded_kept.frame⟩
  · have hk : Kept false [.regs, .lph] [blkLPH] s (calCheck k now avg s) := kept_calCheck Kept.rfl_frame (by decide) (by decide) (by decide)
    obtain ⟨h1, h2⟩ := calCheck_rxTrimmed (now := now) (avg := avg) h hs htx ho
    exact ⟨_, congrArg Host.Outcome.next (if_pos hup), h1, h2, hk.frame⟩
  · have e : calComplete k false avg s = calDone k false (calPair false avg) s := calComplete_eq h
    have hk := calComplete_kept (k := k) (tx := false) (avg := avg) (s := s)
    rw [e] at hk
    obtain ⟨h1, h2, h3⟩ := calDone_rx (k := k) (avg := avg) (s := s)
    exact ⟨_, congrArg Host.Outcome.next ((if_pos hup).trans e), calDone_state (tx := false), h1, h2, h3,
      fun a ha => calDone_reg (tx := false) fun hc => ha (List.mem_singleton.2 hc), hk.frame⟩
  · have e : calComplete k true avg s = calDone k true (calPair true avg) s := calComplete_eq h
    have hk := calComplete_kept (k := k) (tx := true) (avg := avg) (s := s)
    rw [e] at hk
    obtain ⟨h1, h2, h3⟩ := calDone_tx (k := k) (avg := avg) (s := s)
    exact ⟨_, congrArg Host.Outcome.next ((if_pos hup).trans e), calDone_state (tx := true), h1, h2, h3,
      fun a ha => calDone_reg (tx := true) fun hc => ha (List.mem_singleton.2 hc), hk.frame⟩
  · have hk : Kept false [.lph] ([] : List Nat) s (setTaps k (addTaps (eqShift s k) (s.lphCh k).rx.taps aided) s) :=
      kept_setTaps Kept.rfl_frame (by decide)
    exact ⟨_, congrArg Host.Outcome.next ((if_pos hup).trans (eqWindow_adapts hf hp)), setTaps_lphCh.1, hk.frame⟩
  · obtain ⟨h1, h2, h3, h4, h5⟩ := eqWindow_freezes_shows (aided := aided) (piloted := piloted) hf hc hm
    exact ⟨_, congrArg Host.Outcome.next (if_pos hup), h1, h2, h3, h4, h5, eqWindow_kept.frame⟩
  · obtain ⟨h1, h2, h3, h4⟩ := eqWindow_frozen_shows (aided := aided) (piloted := piloted) hf hp
    exact ⟨_, congrArg Host.Outcome.next (if_pos hup), h1, h2, h3, h4, eqWindow_kept.frame⟩
/-! ### The port-move hold (R48) -/

/-- The holds are as they were. -/
def HoldKept (o s : State) : Prop := ∀ j, (s.chpCh j).portHold = (o.chpCh j).portHold

/-- What a burst that is cut reaches besides its Chaperone. -/
def cutParts : List Part := [.regs, .cel, .sch, .ube, .ohs]

section
variable {o s t : State} {k : Nat}

theorem HoldKept.refl : HoldKept s s := fun _ => rfl

theorem HoldKept.sameChp (h : HoldKept o s) (ht : t.chp = s.chp) : HoldKept o t := fun j => by
  unfold State.chpCh
  rw [ht]
  exact h j

/-- What leaves the Chaperones alone keeps their holds. -/
theorem HoldKept.far (h : HoldKept o s) (ht : Kept false cutParts allBlocks s t) : HoldKept o t := h.sameChp (ht.frame .chp (by decide))

theorem HoldKept.ite {c : Prop} [Decidable c] {u : State} (ht : HoldKept o t) (hu : HoldKept o u) : HoldKept o (if c then t else u) := by
  split <;> assumption

theorem HoldKept.foldl {α : Type} {f : State → α → State} (hf : ∀ s x, HoldKept o s → HoldKept o (f s x)) (l : List α)
    (h : HoldKept o s) : HoldKept o (l.foldl f s) := by
  induction l generalizing s with
  | nil => exact h
  | cons x l ih => exact ih (hf s x h)

theorem holdKept_countOpen {n : Nat} (h : HoldKept o s) : HoldKept o (countOpen k n s) := fun j => by
  unfold countOpen
  by_cases hj : j = k
  · rw [hj, chpCh_setChpCh]
    exact h k
  · rw [chpCh_setChpCh_ne _ _ hj]
    exact h j

theorem holdKept_gateDown {n : Nat} (h : HoldKept o s) : HoldKept o (gateDown k n s) := by
  have hc : HoldKept o (if s.bit (CHP_STATUS_GATE k) then countOpen k n s else s) := .ite (holdKept_countOpen h) h
  exact hc.sameChp rfl

theorem holdKept_endTail (h : HoldKept o s) : HoldKept o (endTail k s) := by
  unfold endTail
  dsimp only
  split
  · exact .ite (holdKept_gateDown (h.sameChp rfl)) h
  · exact h

theorem holdKept_cutBurst {b : Burst} (h : HoldKept o s) : HoldKept o (cutBurst k b s) := by
  have hgate : HoldKept o (gateDown k (openSymbols s b) (removeBurst k b s)) := holdKept_gateDown (h.sameChp rfl)
  have hops : HoldKept o (opsBack b (gateDown k (openSymbols s b) (removeBurst k b s))) := hgate.far (kept_opsBack Kept.rfl_frame (by decide))
  unfold cutBurst
  refine HoldKept.far (s := State.inc _ _) (HoldKept.sameChp (HoldKept.foldl (fun t e ht => ?_) _
    (HoldKept.foldl (fun t x ht => ?_) _ hops)) rfl) (kept_ubeShow Kept.rfl_frame (by decide) (by decide))
  · exact (ht.far (kept_purge Kept.rfl_frame (by decide) (by decide))).far
      (kept_giveBack Kept.rfl_frame (by decide) (by decide) (by decide) (by decide) (by decide))
  · exact ht.far (kept_refund Kept.rfl_frame (by decide))

theorem holdKept_cutStarted (h : HoldKept o s) : HoldKept o (cutStarted k s) := by
  unfold cutStarted
  split
  · exact holdKept_cutBurst h
  · exact h

theorem holdKept_put {r : RF} {b : Bool} (h : HoldKept o s) : HoldKept o (s.put r b) := h.sameChp (put_chp s r b)

theorem holdKept_inc {r : RF} (h : HoldKept o s) : HoldKept o (s.inc r) := h.sameChp (inc_chp s r)

theorem holdKept_chpDark (h : HoldKept o s) : HoldKept o (chpDark k s) := by
  unfold chpDark showShutter
  exact holdKept_put (holdKept_put (holdKept_put (holdKept_gateDown (holdKept_cutStarted (holdKept_endTail (holdKept_put (holdKept_put h)))))))

theorem holdKept_chpReact (h : HoldKept o s) : HoldKept o (chpReact k s) := by
  have h1 : HoldKept o (chpTimed k s) := by
    unfold chpTimed
    exact holdKept_put h
  have h2 : HoldKept o (chpClocked k (chpTimed k s)) := .ite h1 (holdKept_put h1)
  rw [chpReact_eq]
  exact .ite (holdKept_inc (holdKept_chpDark h2)) h2

/-- The first Chaperones are given the hold. -/
def heldUpTo (b : Bool) (n : Nat) (s : State) : State :=
  (List.range n).foldl (fun s k => chpReact k (s.setChpCh k { s.chpCh k with portHold := b })) s

theorem heldUpTo_succ (b : Bool) (n : Nat) (s : State) : heldUpTo b (n + 1) s =
    chpReact n ((heldUpTo b n s).setChpCh n { (heldUpTo b n s).chpCh n with portHold := b }) := by
  unfold heldUpTo
  rw [List.range_succ, List.foldl_append]
  rfl

theorem heldUpTo_hold {b : Bool} {n : Nat} : ∀ j < n, ((heldUpTo b n s).chpCh j).portHold = b := by
  induction n with
  | zero => exact nofun
  | succ n ih =>
    intro j hj
    rw [heldUpTo_succ, holdKept_chpReact .refl]
    by_cases h : j = n
    · rw [h, chpCh_setChpCh]
    · rw [chpCh_setChpCh_ne _ _ h]
      exact ih j (by omega)

theorem setHold_hold {b : Bool} : ∀ j < 16, ((setHold b s).chpCh j).portHold = b := heldUpTo_hold

theorem lineKept_setHold {b : Bool} (h : LineKept o s) : LineKept o (setHold b s) :=
  LineKept.foldl (fun _ _ ht => lineKept_chpReact (ht.sameRegs (reg_setChpCh _ _ _))) _ h

/-! ### The port switch (R48) -/

theorem port_line : lineReg LPH_PORT.addr := ⟨Or.inl (by decide), by decide, by decide⟩

/-- What SEL comes to while the switch does not move. -/
theorem portSelect_eq (h : s.lph.moving = none) : portSelect s =
    if s.rd LPH_PORT_SEL ≠ s.rd LPH_PORT_ACTIVE then setHold true (s.put LPH_PORT_PENDING true)
    else if s.bit LPH_PORT_PENDING then setHold false (s.put LPH_PORT_PENDING false) else s :=
  if_neg (by rw [h]; exact Bool.false_ne_true)

/-- A port that differs is asked for, with every hold. -/
theorem portSelect_asks (h : s.lph.moving = none) (hs : s.rd LPH_PORT_SEL ≠ s.rd LPH_PORT_ACTIVE) :
    portSelect s = setHold true (s.put LPH_PORT_PENDING true) := by
  rw [portSelect_eq h, if_pos hs]

/-- The port in use ends a request. -/
theorem portSelect_ends (h : s.lph.moving = none) (hs : s.rd LPH_PORT_SEL = s.rd LPH_PORT_ACTIVE) (hp : s.bit LPH_PORT_PENDING = true) :
    portSelect s = setHold false (s.put LPH_PORT_PENDING false) := by
  rw [portSelect_eq h, if_neg fun hn => hn hs, if_pos hp]

theorem portSelect_idle (h : s.lph.moving = none) (hs : s.rd LPH_PORT_SEL = s.rd LPH_PORT_ACTIVE) (hp : s.bit LPH_PORT_PENDING = false) :
    portSelect s = s := by
  rw [portSelect_eq h, if_neg fun hn => hn hs, if_neg (by rw [hp]; exact Bool.false_ne_true)]

theorem setHold_pending {b c : Bool} : (setHold b (s.put LPH_PORT_PENDING c)).bit LPH_PORT_PENDING = c :=
  (bit_congr (q := LPH_PORT_PENDING) (lineKept_setHold .refl _ port_line)).trans (bit_put_same _ _ (by decide) rfl)

/-- PENDING shows whether SEL differs from ACTIVE. -/
theorem portSelect_pending (h : s.lph.moving = none) :
    (portSelect s).bit LPH_PORT_PENDING = decide (s.rd LPH_PORT_SEL ≠ s.rd LPH_PORT_ACTIVE) := by
  by_cases hs : s.rd LPH_PORT_SEL = s.rd LPH_PORT_ACTIVE
  · rw [decide_eq_false fun hn => hn hs]
    cases hp : s.bit LPH_PORT_PENDING
    case false => rw [portSelect_idle h hs hp, hp]
    case true => rw [portSelect_ends h hs hp, setHold_pending]
  · rw [portSelect_asks h hs, setHold_pending, decide_eq_true hs]

/-- The holds follow PENDING. -/
theorem portSelect_holds (h : s.lph.moving = none) :
    (s.rd LPH_PORT_SEL ≠ s.rd LPH_PORT_ACTIVE → ∀ k < 16, ((portSelect s).chpCh k).portHold = true) ∧
      (s.rd LPH_PORT_SEL = s.rd LPH_PORT_ACTIVE → s.bit LPH_PORT_PENDING = true → ∀ k < 16, ((portSelect s).chpCh k).portHold = false) := by
  refine ⟨fun hs => ?_, fun hs hp => ?_⟩
  · rw [portSelect_asks h hs]
    exact setHold_hold
  · rw [portSelect_ends h hs hp]
    exact setHold_hold

/-- The other fields of LPH_PORT are as they were. -/
theorem portSelect_rd {q : RF} (ha : q.addr = LPH_PORT.addr) (hq : q.lo + q.w ≤ 2 ∨ q.lo = 3 ∧ q.w = 1) : (portSelect s).rd q = s.rd q := by
  have hput : ∀ b c, (setHold b (s.put LPH_PORT_PENDING c)).rd q = s.rd q := fun b c =>
    (rd_congr (lineKept_setHold .refl _ (ha ▸ port_line))).trans (rd_put_other _ _ (by decide) (by omega)
      (hq.elim (fun h => Or.inr (Or.inr h)) fun h => Or.inr (Or.inl (le_of_eq h.1.symm))))
  unfold portSelect
  split
  · rfl
  split
  · exact hput _ _
  split
  · exact hput _ _
  · rfl
end
/-! #### SEL written -/

/-- The row of LPH_PORT. -/
def rowPort : RegRow :=
  ⟨0x8, 0x8100000, 1, 0x20, 1, 8, 0x0, [⟨3, 1, .w1c, 0, 1⟩, ⟨2, 1, .ro, 0, 1⟩, ⟨1, 1, .ro, 0, 1⟩, ⟨0, 1, .rw, 0, 1⟩]⟩

theorem regRow_port : regRow? LPH_PORT.addr = some rowPort := by decide +kernel

section
variable {i : Initiator} {v : Word} {s : State}

/-- The state in which SEL is stored. -/
def portStored (i : Initiator) (v : Word) (s : State) : State := storedBy i LPH_PORT.addr rowPort v s

theorem lphWrite_port {o : State} : lphWrite LPH_PORT.addr v o s = portSelect s := by
  unfold lphWrite
  exact if_pos rfl

theorem regAccess_port (hA : Accepted i LPH_PORT.addr v s) : regAccess i LPH_PORT.addr v s = portSelect (portStored i v s) :=
  (regAccess_lph hA regRow_port rfl (by decide) (by decide)).trans lphWrite_port

theorem portStored_sel : (portStored i v s).rd LPH_PORT_SEL = inField v LPH_PORT_SEL := storedBy_rd_rw LPH_PORT_SEL rfl regRow_port (by decide)

theorem portStored_active : (portStored i v s).rd LPH_PORT_ACTIVE = s.rd LPH_PORT_ACTIVE :=
  storedBy_rd_kept LPH_PORT_ACTIVE (k := .ro) (mx := 1) rfl regRow_port (by decide) (by decide) (by decide)

theorem portStored_pending : (portStored i v s).bit LPH_PORT_PENDING = s.bit LPH_PORT_PENDING :=
  congrArg (· != 0) (storedBy_rd_kept LPH_PORT_PENDING (k := .ro) (mx := 1) rfl regRow_port (by decide) (by decide) (by decide))

theorem portStored_lph : (portStored i v s).lph = s.lph := storedBy_kept.frame .lph (by decide)

/-- SEL written while the switch does not move. -/
theorem portSelectWrite_asks (hA : Accepted i LPH_PORT.addr v s) (hm : s.lph.moving = none) :
    Gives (.portSelectWrite i v) s fun t =>
      t.rd LPH_PORT_SEL = inField v LPH_PORT_SEL ∧ t.rd LPH_PORT_ACTIVE = s.rd LPH_PORT_ACTIVE ∧
      (inField v LPH_PORT_SEL ≠ s.rd LPH_PORT_ACTIVE → t.bit LPH_PORT_PENDING = true ∧ ∀ k < 16, (t.chpCh k).portHold = true) ∧
      (inField v LPH_PORT_SEL = s.rd LPH_PORT_ACTIVE → t.bit LPH_PORT_PENDING = false ∧
        (s.bit LPH_PORT_PENDING = true → ∀ k < 16, (t.chpCh k).portHold = false)) ∧
      RegFrame [blkCEL, blkCHP, blkLPH, blkUBE] s t ∧ Frame [.regs, .cel, .sch, .ube, .chp, .ohs, .harts] s t := by
  have hm' : (portStored i v s).lph.moving = none := by rw [portStored_lph, hm]
  have hp := portSelect_pending hm'
  obtain ⟨hon, hoff⟩ := portSelect_holds hm'
  rw [portStored_sel, portStored_active] at hp hon hoff
  rw [portStored_pending] at hoff
  have hk : Kept false [.regs, .cel, .sch, .ube, .chp, .ohs] [blkCEL, blkCHP, blkLPH, blkUBE] (portStored i v s) (portSelect (portStored i v s)) := by
    apply @kept_portSelect
    · exact Kept.rfl_frame
    all_goals decide
  refine ⟨_, congrArg Host.Outcome.next (regAccess_port hA), (portSelect_rd (q := LPH_PORT_SEL) rfl (by decide)).trans portStored_sel,
    (portSelect_rd (q := LPH_PORT_ACTIVE) rfl (by decide)).trans portStored_active, fun hn => ⟨hp.trans (decide_eq_true hn), hon hn⟩,
    fun he => ⟨hp.trans (decide_eq_false fun hn => hn he), hoff he⟩, fun a ha => ?_, ?_⟩
  · refine (hk.regFrame a ha).trans (storedBy_reg_ne fun e => ha ?_)
    rw [e]
    decide
  · exact frame_trans (frame_mono storedBy_kept.frame (by decide)) (frame_mono hk.frame (by decide))

/-- SEL written while it moves. -/
theorem portSelectWrite_moving (hA : Accepted i LPH_PORT.addr v s) (hm : s.lph.moving.isSome = true) :
    Gives (.portSelectWrite i v) s fun t =>
      t.rd LPH_PORT_SEL = inField v LPH_PORT_SEL ∧ t.bit LPH_PORT_PENDING = s.bit LPH_PORT_PENDING ∧
      (∀ a, a ∉ [LPH_PORT.addr] → t.reg a = s.reg a) ∧ Frame [.regs, .harts] s t := by
  have e : portSelect (portStored i v s) = portStored i v s := if_pos (by rw [portStored_lph]; exact hm)
  exact ⟨_, congrArg Host.Outcome.next ((regAccess_port hA).trans e), portStored_sel, portStored_pending,
    fun a ha => storedBy_reg_ne fun hc => ha (List.mem_singleton.2 hc), storedBy_kept.frame⟩
end

/-! #### The switch moves -/

section
variable {s o : State} {k p : Nat}

theorem gatesClosed_iff : gatesClosed s = true ↔ ∀ k < 16, s.bit (CHP_STATUS_GATE k) = false := by
  unfold gatesClosed
  simp only [List.all_eq_true, List.mem_range, Bool.not_eq_true']

theorem portMoveStart_moves (hp : s.bit LPH_PORT_PENDING = true) (hm : s.lph.moving = none) (hg : ∀ k < 16, s.bit (CHP_STATUS_GATE k) = false) :
    portMoveStart s = { s with lph := { s.lph with moving := some (s.rd LPH_PORT_SEL) } } :=
  if_pos (by rw [hp, hm, gatesClosed_iff.2 hg]; rfl)

/-- A gate that is open holds the switch. -/
theorem portMoveStart_waits (hk : k < 16) (hg : s.bit (CHP_STATUS_GATE k) = true) : portMoveStart s = s := by
  refine if_neg fun h => ?_
  rw [Bool.and_eq_true] at h
  exact Bool.false_ne_true ((gatesClosed_iff.1 h.2 k hk).symm.trans hg)

/-- LPH_PORT and the move are as they were. -/
def PortKept (o s : State) : Prop := s.reg LPH_PORT.addr = o.reg LPH_PORT.addr ∧ s.lph.moving = o.lph.moving

theorem PortKept.refl : PortKept s s := ⟨rfl, rfl⟩

theorem PortKept.trans {t : State} (h : PortKept o s) (ht : PortKept s t) : PortKept o t := ⟨ht.1.trans h.1, ht.2.trans h.2⟩

theorem portKept_rxRestart : PortKept s (rxRestart k s) := by
  have hne : LPH_PORT.addr ≠ (LPH_RX_STATUS k).addr ∧ LPH_PORT.addr ≠ (LPH_RX_EVT k).addr :=
    ⟨(window_ne_single (A := 0x8000048) (B := 0x8100020) (by decide)).symm, (window_ne_single (A := 0x8000050) (B := 0x8100020) (by decide)).symm⟩
  have hfall : PortKept s (crFall k s) := by
    refine ⟨(lphKept_crFall _ port_line (by decide)).trans ?_, congrArg LphSt.moving (carrier_parts (kept_crFall_carrier Kept.rfl_frame)).2.2⟩
    unfold lockFallen
    split
    · rw [reg_put_ne (r := LPH_RX_EVT_CR_UNLOCK k) _ _ hne.2, reg_put_ne (r := LPH_RX_STATUS_CR_LOCK k) _ _ hne.1]
    · rfl
  have hstart : ∀ t, PortKept t (rxStarts k true t) := fun t => by
    unfold rxStarts
    dsimp only
    split
    · exact .refl
    · split <;> exact .refl
  unfold rxRestart
  split
  · exact hfall.trans (hstart _)
  · exact .refl

/-- What a channel does as the switch arrives. -/
def channelArrived (s : State) (k : Nat) : State := actStage k (portEqd k (rxRestart k s))

theorem portKept_channelArrived : PortKept s (channelArrived s k) := by
  have he : ∀ t, PortKept t (portEqd k t) := fun t => by
    have hk : Kept false [.act] ([] : List Nat) t (portEqd k t) := kept_portEqd Kept.rfl_frame (by decide)
    exact ⟨hk.regFrame _ (by decide), congrArg LphSt.moving (hk.frame .lph (by decide))⟩
  have hs : ∀ t, PortKept t (actStage k t) := fun t => by
    have hk : Kept false [.regs, .cfg, .act, .ube] [blkCFG, blkCHP] t (actStage k t) :=
      kept_actStage Kept.rfl_frame (by decide) (by decide) (by decide) (by decide) (by decide) (by decide)
    exact ⟨hk.regFrame _ (by decide), congrArg LphSt.moving (hk.frame .lph (by decide))⟩
  exact portKept_rxRestart.trans ((he _).trans (hs _))

theorem portKept_arrivals (l : List Nat) : PortKept s (l.foldl channelArrived s) := by
  induction l generalizing s with
  | nil => exact .refl
  | cons x l ih => exact portKept_channelArrived.trans ih

theorem portKept_setHold {b : Bool} : PortKept s (setHold b s) := by
  refine ⟨lineKept_setHold .refl _ port_line, congrArg LphSt.moving ?_⟩
  have hk : Kept false [.regs, .cel, .sch, .ube, .chp, .ohs] allBlocks s (setHold b s) := by
    apply @kept_setHold
    · exact Kept.rfl_frame
    all_goals decide
  exact hk.frame .lph (by decide)

/-- The switch has arrived: ACTIVE takes the port. -/
def portArrived (p : Nat) (s : State) : State :=
  let s := { s with lph := { s.lph with moving := none } }
  ((s.wr LPH_PORT_ACTIVE p).put LPH_PORT_DONE true).put LPH_PORT_PENDING false

theorem portRelease_eq (h : s.lph.moving = some p) : portRelease s =
    timPoll (portSelect (setHold false ((List.range 16).foldl channelArrived (portArrived p s)))) := by
  unfold portRelease
  rw [h]
  rfl

theorem portArrived_shows (hp : p < 2) : (portArrived p s).rd LPH_PORT_SEL = s.rd LPH_PORT_SEL ∧ (portArrived p s).rd LPH_PORT_ACTIVE = p ∧
    (portArrived p s).bit LPH_PORT_DONE = true ∧ (portArrived p s).bit LPH_PORT_PENDING = false ∧ (portArrived p s).lph.moving = none := by
  unfold portArrived
  dsimp only
  refine ⟨?_, ?_, ?_, bit_put_same _ _ (by decide) rfl, rfl⟩
  · rw [rd_put_other _ _ (by decide) (by decide) (by decide), rd_put_other _ _ (by decide) (by decide) (by decide),
      rd_wr_other _ _ (by decide) (by decide) (by decide)]
    exact rd_mk s _
  · rw [rd_put_other _ _ (by decide) (by decide) (by decide), rd_put_other _ _ (by decide) (by decide) (by decide), rd_wr_same _ _ (by decide)]
    exact Nat.mod_eq_of_lt hp
  · rw [bit_put_other _ _ (by decide) (by decide) (by decide), bit_put_same _ _ (by decide) rfl]

/-- What the end of a move shows. -/
theorem portRelease_shows (h : s.lph.moving = some p) (hp : p < 2) :
    (portRelease s).rd LPH_PORT_ACTIVE = p ∧ (portRelease s).bit LPH_PORT_DONE = true ∧ (portRelease s).lph.moving = none ∧
      (portRelease s).bit LPH_PORT_PENDING = decide (s.rd LPH_PORT_SEL ≠ p) ∧
      ∀ k < 16, ((portRelease s).chpCh k).portHold = decide (s.rd LPH_PORT_SEL ≠ p) := by
  obtain ⟨hsel, hact, hdone, hpend, hmove⟩ := portArrived_shows (s := s) hp
  rw [portRelease_eq h]
  obtain ⟨hreg, hlph⟩ := (portKept_arrivals (s := portArrived p s) (List.range 16)).trans (portKept_setHold (b := false))
  have hheld : ∀ k < 16, ((setHold false ((List.range 16).foldl channelArrived (portArrived p s))).chpCh k).portHold = false := setHold_hold
  generalize setHold false ((List.range 16).foldl channelArrived (portArrived p s)) = u at hreg hlph hheld ⊢
  have hm : u.lph.moving = none := hlph.trans hmove
  have hrd : ∀ q : RF, q.addr = LPH_PORT.addr → u.rd q = (portArrived p s).rd q := fun q hq => rd_congr (by rw [hq, hreg])
  have husel : u.rd LPH_PORT_SEL = s.rd LPH_PORT_SEL := (hrd LPH_PORT_SEL rfl).trans hsel
  have huact : u.rd LPH_PORT_ACTIVE = p := (hrd LPH_PORT_ACTIVE rfl).trans hact
  have hudone : u.rd LPH_PORT_DONE = (portArrived p s).rd LPH_PORT_DONE := hrd LPH_PORT_DONE rfl
  have hupend : u.bit LPH_PORT_PENDING = false := (congrArg (· != 0) (hrd LPH_PORT_PENDING rfl)).trans hpend
  have hk : Kept false [.regs, .cel, .sch, .ube, .chp, .ohs] allBlocks u (portSelect u) := by
    apply @kept_portSelect
    · exact Kept.rfl_frame
    all_goals decide
  have ht : Kept false [.regs, .tim] [blkTIM] (portSelect u) (timPoll (portSelect u)) := kept_timPoll Kept.rfl_frame (by decide) (by decide) (by decide)
  have htreg : (timPoll (portSelect u)).reg LPH_PORT.addr = (portSelect u).reg LPH_PORT.addr := ht.regFrame _ (by decide)
  have hchp : ∀ k, (timPoll (portSelect u)).chpCh k = (portSelect u).chpCh k := fun k => by
    unfold State.chpCh
    rw [ht.frame .chp (by decide)]
  have hpd := portSelect_pending hm
  have hhd := (portSelect_holds hm).1
  rw [husel, huact] at hpd hhd
  refine ⟨(rd_congr (q := LPH_PORT_ACTIVE) htreg).trans ((portSelect_rd (q := LPH_PORT_ACTIVE) rfl (by decide)).trans huact),
    (bit_congr (q := LPH_PORT_DONE) htreg).trans ((congrArg (· != 0) ((portSelect_rd (q := LPH_PORT_DONE) rfl (by decide)).trans hudone)).trans hdone),
    ?_, (bit_congr (q := LPH_PORT_PENDING) htreg).trans hpd, fun k hk16 => ?_⟩
  · rw [ht.frame .lph (by decide), hk.frame .lph (by decide), hm]
  · rw [hchp]
    by_cases hs : s.rd LPH_PORT_SEL = p
    · rw [portSelect_idle hm (by rw [husel, huact, hs]) hupend, decide_eq_false fun hn => hn hs]
      exact hheld k hk16
    · rw [decide_eq_true hs]
      exact hhd hs k hk16

theorem portRelease_leaves : (portRelease s).mem = s.mem ∧ (portRelease s).flt = s.flt := by
  have hk : Kept false (.lph :: carrierParts) allBlocks s (portRelease s) := by
    apply @kept_portRelease
    · exact Kept.rfl_frame
    all_goals decide
  exact ⟨hk.frame .mem (by decide), hk.frame .flt (by decide)⟩
end
/-! ### Receivers and transmitters enabled and disabled (R52, R58, R65, R388) -/

/-- The row of LPH_CH_CTL. -/
def rowChCtl : RegRow :=
  ⟨0x8, 0x8000000, 16, 0x20, 1, 8, 0x0, [⟨2, 1, .rw, 0, 1⟩, ⟨1, 1, .rw, 0, 1⟩, ⟨0, 1, .rw, 0, 1⟩]⟩

theorem regRow_chCtl : ∀ k : Chan, regRow? (LPH_CH_CTL k).addr = some rowChCtl := by decide +kernel

theorem bankOf_chCtl : ∀ k : Chan, bankOf (LPH_CH_CTL k).addr ≠ some (LPH_CH_CTL k).addr := by decide +kernel

theorem blkOf_chCtl : ∀ k : Chan, blkOf (LPH_CH_CTL k).addr = blkLPH := by decide

/-- The clock of a receiver that is enabled runs. -/
def clockStarted (k : Nat) (s : State) : State :=
  let s := s.put (CHP_STATUS_CLK_OK k) true
  s.setLphCh k { s.lphCh k with losAt := some s.ticks }

/-- It is powered up, unless it sleeps or is trimmed. -/
def poweredUp (k : Nat) (s : State) : State := if rxPowered s k then rxUp k (s.bit (LPH_CH_CTL_WARM k)) s else s

/-- A receiver that is enabled runs its clock, is powered up and trimmed, and is out of frame. -/
def rxEnabled (k : Nat) (s : State) : State := assertLof k (calEnable k false true (poweredUp k (clockStarted k s)))

/-- RX_EN has been written: `was`, its value before. -/
def rxSwitch (k : Nat) (was : Bool) (s : State) : State :=
  if s.bit (LPH_CH_CTL_RX_EN k) && !was then rxEnabled k s
  else if !s.bit (LPH_CH_CTL_RX_EN k) && was then calEnable k false false (rxDown k s)
  else s

/-- TX_EN has been written. -/
def txSwitch (k : Nat) (was tx : Bool) (s : State) : State := if tx != was then calEnable k true tx s else s

theorem chCtlWritten_eq (k : Nat) (o s : State) : chCtlWritten k o s =
    txSwitch k (o.bit (LPH_CH_CTL_TX_EN k)) (s.bit (LPH_CH_CTL_TX_EN k)) (rxSwitch k (o.bit (LPH_CH_CTL_RX_EN k)) s) := rfl

section
variable {i : Initiator} {k : Chan} {v : Word} {s : State}

/-- The state in which the fields of LPH_CH_CTL are stored. -/
def chCtlStored (i : Initiator) (k : Chan) (v : Word) (s : State) : State := storedBy i (LPH_CH_CTL k).addr rowChCtl v s

theorem lphWrite_chCtl (o : State) : lphWrite (LPH_CH_CTL k).addr v o s = chCtlWritten k o s := by
  have hu : (LPH_CH_CTL k).addr % 0x1000000 / 0x10000 = k := (by decide : ∀ k : Chan, (LPH_CH_CTL k).addr % 0x1000000 / 0x10000 = k) k
  have hne : ∀ k : Chan, (LPH_CH_CTL k).addr ≠ LPH_PORT.addr ∧ (LPH_CH_CTL k).addr ≠ LPH_LSRC_CMD.addr := by decide
  unfold lphWrite
  dsimp only
  rw [hu, if_neg (hne k).1, if_neg (hne k).2, if_neg (Nat.not_le.2 k.isLt), if_pos rfl]

theorem regAccess_chCtl (hA : Accepted i (LPH_CH_CTL k).addr v s) : regAccess i (LPH_CH_CTL k).addr v s =
    txSwitch k (s.bit (LPH_CH_CTL_TX_EN k)) ((chCtlStored i k v s).bit (LPH_CH_CTL_TX_EN k))
      (rxSwitch k (s.bit (LPH_CH_CTL_RX_EN k)) (chCtlStored i k v s)) := by
  rw [regAccess_lph hA (regRow_chCtl k) rfl (blkOf_chCtl k) (bankOf_chCtl k), lphWrite_chCtl, chCtlWritten_eq, hartActs_bit, hartActs_bit]
  rfl

theorem chCtlStored_rd {q : RF} (ha : q.addr = (LPH_CH_CTL k).addr)
    (hf : ⟨q.lo, q.w, .rw, 0, ((2 ^ q.w - 1 : Nat) : Int)⟩ ∈ rowChCtl.fields) : (chCtlStored i k v s).rd q = inField v q :=
  storedBy_rd_rw q ha (regRow_chCtl k) hf

theorem chCtlStored_reg {a : Nat} (h : a ≠ (LPH_CH_CTL k).addr) : (chCtlStored i k v s).reg a = s.reg a := storedBy_reg_ne h

theorem chCtlStored_frame : Frame [.regs, .harts] s (chCtlStored i k v s) := storedBy_kept.frame
end

section
variable {s : State} {k : Nat} {tx on was : Bool} {a : Nat}

/-! #### A calibration enabled or disabled -/

theorem calEnable_state : (calEnable k tx on s).rd (calState k tx) = if on then 3 else 0 := by
  unfold calEnable
  exact rd_calState_same (by cases on <;> decide)

theorem calEnable_reg (h : a ≠ (calState k tx).addr) : (calEnable k tx on s).reg a = s.reg a := by
  unfold calEnable
  dsimp only
  rw [reg_wr_ne _ _ h, reg_setLphCh]

theorem calEnable_kept : Kept false [.regs, .lph] [blkLPH] s (calEnable k tx on s) := kept_calEnable Kept.rfl_frame (by decide) (by decide) (by decide)

theorem calEnable_txStart : ((calEnable k true on s).lphCh k).txStart = none := by
  unfold calEnable
  exact congrArg LphCh.txStart (lphCh_setLphCh s k _)

theorem txSwitch_reg (h : a ≠ (LPH_CAL_TX k).addr) : (txSwitch k was tx s).reg a = s.reg a := by
  unfold txSwitch
  split
  · exact calEnable_reg (tx := true) h
  · rfl

theorem txSwitch_kept : Kept false [.regs, .lph] [blkLPH] s (txSwitch k was tx s) := by
  unfold txSwitch
  split
  · exact calEnable_kept
  · exact Kept.rfl_frame

/-! #### A receiver powered up and enabled -/

theorem rxStarts_reg {warm : Bool} : (rxStarts k warm s).reg a = s.reg a := by
  unfold rxStarts
  dsimp only
  split
  · rfl
  · split <;> rfl

/-- A receiver that is powered up shows the power it measures. -/
theorem rxUp_reg {warm : Bool} (h : a ≠ (LPH_RX_STATUS k).addr) : (rxUp k warm s).reg a = s.reg a := by
  unfold rxUp showPower
  dsimp only
  rw [reg_wr_ne (r := LPH_RX_STATUS_PWR k) _ _ h, reg_draw, rxStarts_reg, reg_setLphCh]

theorem rxUp_los {warm : Bool} : (rxUp k warm s).bit (LPH_RX_STATUS_RX_LOS k) = s.bit (LPH_RX_STATUS_RX_LOS k) := by
  unfold rxUp showPower
  dsimp only
  rw [bit_eq, rd_wr_other (r := LPH_RX_STATUS_PWR k) (q := LPH_RX_STATUS_RX_LOS k) _ _ le_of_eval le_of_eval (Or.inr (Or.inl le_of_eval)), ← bit_eq,
    bit_draw]
  exact bit_congr (rxStarts_reg.trans (reg_setLphCh _ _ _ _))

theorem assertLof_lof : (assertLof k s).bit (DSF_SYNC_LOF k) = true := by
  unfold assertLof
  split
  · assumption
  · have hne : (DSF_SYNC_LOF k).addr ≠ (DSF_EVT_LOF k).addr := window_ne (A := 0x9000028) (B := 0x9000030) (by decide)
    rw [bit_put_other _ _ le_of_eval le_of_eval (Or.inl hne), bit_put_same _ _ le_of_eval rfl]

theorem assertLof_kept : Kept false [.regs] [blkDSF] s (assertLof k s) := kept_assertLof Kept.rfl_frame (by decide) (by decide)

theorem rxEnabled_kept : Kept false [.regs, .lph, .free] [blkCHP, blkDSF, blkLPH] s (rxEnabled k s) := by
  have hclk : Kept false [.regs, .lph, .free] [blkCHP, blkDSF, blkLPH] s (clockStarted k s) :=
    kept_st_setLphCh (kept_st_put Kept.rfl_frame (by decide) (blk_n (by decide) (by decide) (by decide))) (by decide)
  have hup : Kept false [.regs, .lph, .free] [blkCHP, blkDSF, blkLPH] s (poweredUp k (clockStarted k s)) :=
    kept_ite (kept_rxUp hclk (by decide) (by decide) (by decide) (by decide)) hclk
  exact kept_assertLof (kept_calEnable hup (by decide) (by decide) (by decide)) (by decide) (by decide)

theorem poweredUp_reg (h : a ≠ (LPH_RX_STATUS k).addr) : (poweredUp k s).reg a = s.reg a := by
  unfold poweredUp
  split
  · exact rxUp_reg h
  · rfl

theorem poweredUp_los : (poweredUp k s).bit (LPH_RX_STATUS_RX_LOS k) = s.bit (LPH_RX_STATUS_RX_LOS k) := by
  unfold poweredUp
  split
  · exact rxUp_los
  · rfl

theorem clockStarted_reg (h : a ≠ (CHP_STATUS k).addr) : (clockStarted k s).reg a = s.reg a := reg_put_ne (r := CHP_STATUS_CLK_OK k) _ _ h

theorem blkOf_chpStatus : blkOf (CHP_STATUS k).addr = blkCHP := blkOf_array (by decide) (array_le (by decide))

theorem blkOf_calState : blkOf (calState k tx).addr = blkLPH := by cases tx <;> exact blkOf_array (by decide) (array_le (by decide))

/-- A register that the rest of an enabling leaves. -/
theorem rxEnabled_reg (hb : blkOf a ≠ blkDSF) (hc : a ≠ (LPH_CAL_RX k).addr) : (rxEnabled k s).reg a = (poweredUp k (clockStarted k s)).reg a :=
  (assertLof_kept.regFrame a (by simpa using hb)).trans (calEnable_reg (tx := false) hc)

/-- What the registers show of a receiver that has been enabled. -/
theorem rxEnabled_shows : (rxEnabled k s).bit (LPH_CH_CTL_RX_EN k) = s.bit (LPH_CH_CTL_RX_EN k) ∧ (rxEnabled k s).rd (LPH_CAL_RX_STATE k) = 3 ∧
    (rxEnabled k s).bit (CHP_STATUS_CLK_OK k) = true ∧ (rxEnabled k s).bit (LPH_RX_STATUS_RX_LOS k) = s.bit (LPH_RX_STATUS_RX_LOS k) ∧
    (rxEnabled k s).bit (DSF_SYNC_LOF k) = true := by
  have hctl : blkOf (LPH_CH_CTL k).addr = blkLPH := blkOf_array (by decide) (array_le (by decide))
  have hchp : ∀ {b}, blkOf b = blkLPH → b ≠ (CHP_STATUS k).addr := fun hb e => by
    rw [e, blkOf_chpStatus] at hb
    exact absurd hb (by decide)
  have hdsf : ∀ {b}, blkOf b = blkLPH → blkOf b ≠ blkDSF := fun hb => by
    rw [hb]
    decide
  refine ⟨bit_congr (q := LPH_CH_CTL_RX_EN k) ?_, ?_, ?_, ?_, assertLof_lof⟩
  · refine (rxEnabled_reg (a := (LPH_CH_CTL k).addr) (hdsf hctl) (window_ne (A := 0x8000020) (B := 0x8000068) (by decide))).trans ?_
    exact (poweredUp_reg (window_ne (A := 0x8000020) (B := 0x8000048) (by decide))).trans (clockStarted_reg (hchp hctl))
  · refine (rd_congr (q := calState k false) (assertLof_kept.regFrame _ ?_)).trans calEnable_state
    rw [blkOf_calState]
    decide
  · have hclk : (clockStarted k s).bit (CHP_STATUS_CLK_OK k) = true := bit_put_same _ _ le_of_eval rfl
    refine (bit_congr (q := CHP_STATUS_CLK_OK k) ?_).trans hclk
    exact (rxEnabled_reg (by rw [blkOf_chpStatus]; decide) (hchp (blkOf_calState (tx := false))).symm).trans
      (poweredUp_reg (hchp blkOf_rxStatus).symm)
  · refine (bit_congr (q := LPH_RX_STATUS_RX_LOS k) (rxEnabled_reg (hdsf blkOf_rxStatus) ?_)).trans ?_
    · exact window_ne (A := 0x8000048) (B := 0x8000068) (by decide)
    · exact poweredUp_los.trans (bit_congr (q := LPH_RX_STATUS_RX_LOS k) (clockStarted_reg (hchp blkOf_rxStatus)))

/-! #### A receiver powered down and disabled -/

/-- What the status of a receiver that is powered down reads. -/
def rxDownShown (k : Nat) (s : State) : State :=
  let c := s.lphCh k
  let asleep := s.bit (LPH_CH_CTL_RX_EN k) && s.pwr.cpOn.testBit k
  let s := s.setLphCh k { c with losAt := if asleep then c.losAt <|> some s.ticks else none }
  let s := ((s.put (LPH_RX_STATUS_RX_LOS k) true).put (LPH_RX_STATUS_CR_LOCK k) false).put (LPH_RX_STATUS_LO_LOCK k) false
  s.wr (LPH_RX_STATUS_PWR k) 0x8000

theorem rxDown_eq (k : Nat) (s : State) : rxDown k s = timPoll (chpReact k (dsfLost k (rxDownShown k s))) := rfl

theorem lphKept_rxDown : LphKept (rxDownShown k s) (rxDown k s) := by
  rw [rxDown_eq]
  exact (lphKept_dsfLost fun _ _ _ => rfl).line (lineKept_timPoll (lineKept_chpReact .refl))

theorem chCtl_line : lineReg (LPH_CH_CTL k).addr := by
  refine ⟨Or.inl (blkOf_array (by decide) (array_le (by decide))), ?_, ?_⟩
  all_goals
    show (0x8000020 + k % 256 * 0x10000) % 0x10000 ≠ _
    omega

theorem rxDownShown_reg (h : a ≠ (LPH_RX_STATUS k).addr) : (rxDownShown k s).reg a = s.reg a := by
  unfold rxDownShown
  dsimp only
  rw [reg_wr_ne (r := LPH_RX_STATUS_PWR k) _ _ h, reg_put_ne (r := LPH_RX_STATUS_LO_LOCK k) _ _ h,
    reg_put_ne (r := LPH_RX_STATUS_CR_LOCK k) _ _ h, reg_put_ne (r := LPH_RX_STATUS_RX_LOS k) _ _ h, reg_setLphCh]

theorem rxDownShown_status : (rxDownShown k s).bit (LPH_RX_STATUS_RX_LOS k) = true ∧ (rxDownShown k s).bit (LPH_RX_STATUS_CR_LOCK k) = false ∧
    (rxDownShown k s).bit (LPH_RX_STATUS_LO_LOCK k) = false ∧ (rxDownShown k s).rd (LPH_RX_STATUS_PWR k) = 0x8000 := by
  have hpwr : ∀ {q : RF} (t : State) (n : Nat), q.lo + q.w ≤ 64 → (LPH_RX_STATUS_PWR k).lo + (LPH_RX_STATUS_PWR k).w ≤ q.lo →
      (t.wr (LPH_RX_STATUS_PWR k) n).bit q = t.bit q := fun t n h h' => by rw [bit_eq, rd_wr_other _ _ le_of_eval h (Or.inr (Or.inl h')), ← bit_eq]
  unfold rxDownShown
  dsimp only
  refine ⟨?_, ?_, ?_, rd_wr_same _ _ le_of_eval⟩
  · rw [hpwr _ _ le_of_eval le_of_eval, bit_put_other _ _ le_of_eval le_of_eval (Or.inr (Or.inr le_of_eval)),
      bit_put_other _ _ le_of_eval le_of_eval (Or.inr (Or.inr le_of_eval)), bit_put_same _ _ le_of_eval rfl]
  · rw [hpwr _ _ le_of_eval le_of_eval, bit_put_other _ _ le_of_eval le_of_eval (Or.inr (Or.inl le_of_eval)), bit_put_same _ _ le_of_eval rfl]
  · rw [hpwr _ _ le_of_eval le_of_eval, bit_put_same _ _ le_of_eval rfl]

theorem rxDown_leaves : (rxDown k s).mem = s.mem ∧ (rxDown k s).flt = s.flt := by
  have hk : Kept false (.lph :: carrierParts) allBlocks s (rxDown k s) := by
    apply @kept_rxDown
    · exact Kept.rfl_frame
    all_goals decide
  exact ⟨hk.frame .mem (by decide), hk.frame .flt (by decide)⟩
end
/-! #### The writes of LPH_CH_CTL -/

section
variable {i : Initiator} {k : Chan} {v : Word} {s : State}

theorem fieldBit_one {n : Nat} (h : n = 1) : (n != 0) = true := by rw [h]; rfl

theorem fieldBit_zero {n : Nat} (h : n = 0) : (n != 0) = false := by rw [h]; rfl

theorem chCtlStored_rxEn : (chCtlStored i k v s).rd (LPH_CH_CTL_RX_EN k) = inField v (LPH_CH_CTL_RX_EN k) :=
  chCtlStored_rd rfl (by decide : ⟨0, 1, .rw, 0, 1⟩ ∈ rowChCtl.fields)

theorem chCtlStored_txEn : (chCtlStored i k v s).rd (LPH_CH_CTL_TX_EN k) = inField v (LPH_CH_CTL_TX_EN k) :=
  chCtlStored_rd rfl (by decide : ⟨1, 1, .rw, 0, 1⟩ ∈ rowChCtl.fields)

/-- What a write of LPH_CH_CTL comes to: its fields are stored, then the receiver and the transmitter follow. -/
theorem regAccess_chCtl_stored (hA : Accepted i (LPH_CH_CTL k).addr v s) : ∃ u,
    regAccess i (LPH_CH_CTL k).addr v s =
      txSwitch k (s.bit (LPH_CH_CTL_TX_EN k)) (u.bit (LPH_CH_CTL_TX_EN k)) (rxSwitch k (s.bit (LPH_CH_CTL_RX_EN k)) u) ∧
    u.rd (LPH_CH_CTL_RX_EN k) = inField v (LPH_CH_CTL_RX_EN k) ∧ u.rd (LPH_CH_CTL_TX_EN k) = inField v (LPH_CH_CTL_TX_EN k) ∧
    (∀ a, a ≠ (LPH_CH_CTL k).addr → u.reg a = s.reg a) ∧ Frame [.regs, .harts] s u :=
  ⟨_, regAccess_chCtl hA, chCtlStored_rxEn, chCtlStored_txEn, fun _ => chCtlStored_reg, chCtlStored_frame⟩

theorem chCtl_ne_calTx (k : Nat) : (LPH_CH_CTL k).addr ≠ (LPH_CAL_TX k).addr := window_ne (A := 0x8000020) (B := 0x8000070) (by decide)

theorem calRx_ne_calTx (k : Nat) : (LPH_CAL_RX k).addr ≠ (LPH_CAL_TX k).addr := window_ne (A := 0x8000068) (B := 0x8000070) (by decide)

theorem rxStatus_ne_calTx (k : Nat) : (LPH_RX_STATUS k).addr ≠ (LPH_CAL_TX k).addr := window_ne (A := 0x8000048) (B := 0x8000070) (by decide)

theorem rxStatus_ne_chCtl (k : Nat) : (LPH_RX_STATUS k).addr ≠ (LPH_CH_CTL k).addr := window_ne (A := 0x8000048) (B := 0x8000020) (by decide)

theorem rxEvt_ne_calTx (k : Nat) : (LPH_RX_EVT k).addr ≠ (LPH_CAL_TX k).addr := window_ne (A := 0x8000050) (B := 0x8000070) (by decide)

theorem rxEvt_ne_chCtl (k : Nat) : (LPH_RX_EVT k).addr ≠ (LPH_CH_CTL k).addr := window_ne (A := 0x8000050) (B := 0x8000020) (by decide)

/-- RX_EN written 1 where it was 0. -/
theorem receiverEnable_shows (hA : Accepted i (LPH_CH_CTL k).addr (withField v (LPH_CH_CTL_RX_EN k) 1) s) (h0 : s.bit (LPH_CH_CTL_RX_EN k) = false) :
    Gives (.receiverEnable i k v) s fun t => t.bit (LPH_CH_CTL_RX_EN k) = true ∧ t.rd (LPH_CAL_RX_STATE k) = 3 ∧
      t.bit (CHP_STATUS_CLK_OK k) = true ∧ t.bit (LPH_RX_STATUS_RX_LOS k) = s.bit (LPH_RX_STATUS_RX_LOS k) ∧
      t.bit (DSF_SYNC_LOF k) = true ∧ RegFrame [blkCHP, blkDSF, blkLPH] s t ∧ Frame [.regs, .lph, .free, .harts] s t := by
  obtain ⟨u, hw, hrd, -, hreg, hframe⟩ := regAccess_chCtl_stored hA
  have hen : u.bit (LPH_CH_CTL_RX_EN k) = true := fieldBit_one (hrd.trans (inField_withField_same v 1 le_of_eval (by decide : 1 < 2 ^ 1)))
  have hrx : rxSwitch k false u = rxEnabled k u := if_pos (by rw [hen]; rfl)
  rw [h0, hrx] at hw
  refine ⟨_, congrArg Host.Outcome.next hw, ?_⟩
  obtain ⟨h1, h2, h3, h4, h5⟩ := rxEnabled_shows (k := k) (s := u)
  have hk := rxEnabled_kept (k := k) (s := u)
  generalize rxEnabled k u = r at h1 h2 h3 h4 h5 hk
  have hk2 := txSwitch_kept (k := k) (was := s.bit (LPH_CH_CTL_TX_EN k)) (tx := u.bit (LPH_CH_CTL_TX_EN k)) (s := r)
  have htx : ∀ a, a ≠ (LPH_CAL_TX k).addr →
      (txSwitch k (s.bit (LPH_CH_CTL_TX_EN k)) (u.bit (LPH_CH_CTL_TX_EN k)) r).reg a = r.reg a := fun a ha => txSwitch_reg ha
  generalize txSwitch k (s.bit (LPH_CH_CTL_TX_EN k)) (u.bit (LPH_CH_CTL_TX_EN k)) r = t at hk2 htx ⊢
  have hcaltx : blkOf (LPH_CAL_TX k).addr = blkLPH := blkOf_calState (tx := true)
  have hblk : ∀ {b}, blkOf b ≠ blkLPH → b ≠ (LPH_CAL_TX k).addr := fun hb e => hb (e ▸ hcaltx)
  refine ⟨(bit_congr (q := LPH_CH_CTL_RX_EN k) (htx _ (chCtl_ne_calTx k))).trans (h1.trans hen),
    (rd_congr (q := LPH_CAL_RX_STATE k) (htx _ (calRx_ne_calTx k))).trans h2,
    (bit_congr (q := CHP_STATUS_CLK_OK k) (htx _ (hblk (b := (CHP_STATUS k).addr) (by rw [blkOf_chpStatus]; decide)))).trans h3,
    (bit_congr (q := LPH_RX_STATUS_RX_LOS k) (htx _ (rxStatus_ne_calTx k))).trans
      (h4.trans (bit_congr (q := LPH_RX_STATUS_RX_LOS k) (hreg _ (rxStatus_ne_chCtl k)))),
    (bit_congr (q := DSF_SYNC_LOF k) (htx _ (hblk (b := (DSF_SYNC k).addr) (by rw [blkOf_sync]; decide)))).trans h5, fun a ha => ?_, ?_⟩
  · have hl : blkOf a ≠ blkLPH := fun e => ha (by rw [e]; decide)
    rw [htx a (hblk hl), hk.regFrame a ha, hreg a fun e => hl (e ▸ blkOf_chCtl k)]
  · exact frame_trans (frame_mono hframe (by decide)) (frame_trans (frame_mono hk.frame (by decide)) (frame_mono hk2.frame (by decide)))

/-- RX_EN written 0 where it was 1. -/
theorem receiverDisable_shows (hA : Accepted i (LPH_CH_CTL k).addr (withField v (LPH_CH_CTL_RX_EN k) 0) s) (h1 : s.bit (LPH_CH_CTL_RX_EN k) = true) :
    Gives (.receiverDisable i k v) s fun t => t.bit (LPH_CH_CTL_RX_EN k) = false ∧ t.bit (LPH_RX_STATUS_RX_LOS k) = true ∧
      t.bit (LPH_RX_STATUS_CR_LOCK k) = false ∧ t.bit (LPH_RX_STATUS_LO_LOCK k) = false ∧ t.rd (LPH_RX_STATUS_PWR k) = 0x8000 ∧
      t.reg (LPH_RX_EVT k).addr = s.reg (LPH_RX_EVT k).addr ∧ t.rd (LPH_CAL_RX_STATE k) = 0 ∧ t.mem = s.mem ∧ t.flt = s.flt := by
  obtain ⟨u, hw, hrd, -, hreg, hframe⟩ := regAccess_chCtl_stored hA
  have hen : u.bit (LPH_CH_CTL_RX_EN k) = false := fieldBit_zero (hrd.trans (inField_withField_same v 0 le_of_eval (by decide : 0 < 2 ^ 1)))
  have hrx : rxSwitch k true u = calEnable k false false (rxDown k u) := by
    unfold rxSwitch
    rw [hen]
    rfl
  rw [h1, hrx] at hw
  refine ⟨_, congrArg Host.Outcome.next hw, ?_⟩
  -- what the receiver shows powered down
  obtain ⟨hlos, hcr, hlo, hpwr⟩ := rxDownShown_status (k := k) (s := u)
  obtain ⟨hmem, hflt⟩ := rxDown_leaves (k := k) (s := u)
  have hdown := lphKept_rxDown (k := k) (s := u)
  have hst : (calEnable k false false (rxDown k u)).reg (LPH_RX_STATUS k).addr = (rxDownShown k u).reg (LPH_RX_STATUS k).addr :=
    (calEnable_reg (tx := false) (window_ne (A := 0x8000048) (B := 0x8000068) (by decide))).trans (hdown _ rxStatus_line blkOf_rxStatus)
  have hev : (calEnable k false false (rxDown k u)).reg (LPH_RX_EVT k).addr = u.reg (LPH_RX_EVT k).addr :=
    (calEnable_reg (tx := false) (window_ne (A := 0x8000050) (B := 0x8000068) (by decide))).trans
      ((hdown _ rxEvt_line blkOf_rxEvt).trans (rxDownShown_reg rxStatus_ne_rxEvt.symm))
  have hcl : (calEnable k false false (rxDown k u)).reg (LPH_CH_CTL k).addr = u.reg (LPH_CH_CTL k).addr :=
    (calEnable_reg (tx := false) (window_ne (A := 0x8000020) (B := 0x8000068) (by decide))).trans
      ((hdown _ chCtl_line (blkOf_chCtl k)).trans (rxDownShown_reg (rxStatus_ne_chCtl k).symm))
  have hcal : (calEnable k false false (rxDown k u)).rd (LPH_CAL_RX_STATE k) = 0 := calEnable_state (tx := false)
  have hkc := (calEnable_kept (k := k) (tx := false) (on := false) (s := rxDown k u)).frame
  generalize calEnable k false false (rxDown k u) = r at hst hev hcl hcal hkc
  have hk2 := (txSwitch_kept (k := k) (was := s.bit (LPH_CH_CTL_TX_EN k)) (tx := u.bit (LPH_CH_CTL_TX_EN k)) (s := r)).frame
  have htx : ∀ a, a ≠ (LPH_CAL_TX k).addr →
      (txSwitch k (s.bit (LPH_CH_CTL_TX_EN k)) (u.bit (LPH_CH_CTL_TX_EN k)) r).reg a = r.reg a := fun a ha => txSwitch_reg ha
  generalize txSwitch k (s.bit (LPH_CH_CTL_TX_EN k)) (u.bit (LPH_CH_CTL_TX_EN k)) r = t at hk2 htx ⊢
  have htst := (htx _ (rxStatus_ne_calTx k)).trans hst
  refine ⟨(bit_congr (q := LPH_CH_CTL_RX_EN k) ((htx _ (chCtl_ne_calTx k)).trans hcl)).trans hen,
    (bit_congr (q := LPH_RX_STATUS_RX_LOS k) htst).trans hlos, (bit_congr (q := LPH_RX_STATUS_CR_LOCK k) htst).trans hcr,
    (bit_congr (q := LPH_RX_STATUS_LO_LOCK k) htst).trans hlo, (rd_congr (q := LPH_RX_STATUS_PWR k) htst).trans hpwr,
    (htx _ (rxEvt_ne_calTx k)).trans (hev.trans (hreg _ (rxEvt_ne_chCtl k))),
    (rd_congr (q := LPH_CAL_RX_STATE k) (htx _ (calRx_ne_calTx k))).trans hcal, ?_, ?_⟩
  · exact (hk2 .mem (by decide)).trans ((hkc .mem (by decide)).trans (hmem.trans (hframe .mem (by decide))))
  · exact (hk2 .flt (by decide)).trans ((hkc .flt (by decide)).trans (hflt.trans (hframe .flt (by decide))))

/-- TX_EN written 1 where it was 0, RX_EN left as it is. -/
theorem transmitterEnable_shows (hA : Accepted i (LPH_CH_CTL k).addr (withField v (LPH_CH_CTL_TX_EN k) 1) s)
    (h0 : s.bit (LPH_CH_CTL_TX_EN k) = false) (hrx : inField v (LPH_CH_CTL_RX_EN k) = s.rd (LPH_CH_CTL_RX_EN k)) :
    Gives (.transmitterEnable i k v) s fun t => t.bit (LPH_CH_CTL_TX_EN k) = true ∧ t.rd (LPH_CAL_TX_STATE k) = 3 ∧
      (t.lphCh k).txStart = none ∧ (∀ a, a ∉ [(LPH_CH_CTL k).addr, (LPH_CAL_TX k).addr] → t.reg a = s.reg a) ∧
      Frame [.regs, .lph, .harts] s t := by
  obtain ⟨u, hw, hrd, htd, hreg, hframe⟩ := regAccess_chCtl_stored hA
  have hen : u.bit (LPH_CH_CTL_TX_EN k) = true := fieldBit_one (htd.trans (inField_withField_same v 1 le_of_eval (by decide : 1 < 2 ^ 1)))
  have hsame : u.bit (LPH_CH_CTL_RX_EN k) = s.bit (LPH_CH_CTL_RX_EN k) :=
    congrArg (· != 0) (hrd.trans ((inField_withField_disj v 1 le_of_eval le_of_eval (Or.inr le_of_eval)).trans hrx))
  have hstay : rxSwitch k (s.bit (LPH_CH_CTL_RX_EN k)) u = u := by
    unfold rxSwitch
    rw [hsame, Bool.and_not_self, Bool.not_and_self]
    rfl
  have hstart : txSwitch k false true u = calEnable k true true u := rfl
  rw [hstay, h0, hen, hstart] at hw
  refine ⟨_, congrArg Host.Outcome.next hw, (bit_congr (q := LPH_CH_CTL_TX_EN k) (calEnable_reg (tx := true) (chCtl_ne_calTx k))).trans hen,
    calEnable_state (tx := true), calEnable_txStart, fun a ha => ?_, ?_⟩
  · simp only [List.mem_cons, List.not_mem_nil, or_false, not_or] at ha
    exact (calEnable_reg (tx := true) ha.2).trans (hreg a ha.1)
  · exact frame_trans (frame_mono hframe (by decide)) (frame_mono calEnable_kept.frame (by decide))
end

/-- Settles O17: SEL written, the move and its end, and the enables written. -/
theorem linePortRows : Obligations.LinePortRows := by
  unfold Obligations.LinePortRows
  refine ⟨fun i v s hA hm => portSelectWrite_asks hA hm, fun i v s hA hm => portSelectWrite_moving hA hm,
    fun s hup hp hm hg => ⟨_, congrArg Host.Outcome.next ((if_pos hup).trans (portMoveStart_moves hp hm hg)), rfl⟩,
    fun s k hup hk hg => ⟨_, congrArg Host.Outcome.next ((if_pos hup).trans (portMoveStart_waits hk hg)), rfl⟩,
    fun s p hup hm hp => ?_, fun i k v s hA h => receiverEnable_shows hA h, fun i k v s hA h => receiverDisable_shows hA h,
    fun i k v s hA h hrx => transmitterEnable_shows hA h hrx⟩
  obtain ⟨h1, h2, h3, h4, h5⟩ := portRelease_shows hm hp
  exact ⟨_, congrArg Host.Outcome.next (if_pos hup), h1, h2, h3, h4, h5, portRelease_leaves⟩
end Sys2Proof.Machine
end


section
/-! PROOFS. The downstream framing family (chapter 04): the alignment machine, frame headers and the flywheel, then O21; the overhead
ports, map entries, fragments and DSF's tables, then O22. -/

namespace Sys2Proof.Machine
open Sys2Proof.Spec

set_option Elab.async false

/-! ### The hypothesis a window is taken under (R74) -/

/-- A hypothesis differs less than another, or as much and is no higher. -/
def NoFarther (signs x y : Nat) : Prop := fawDiff signs x < fawDiff signs y ∨ fawDiff signs x = fawDiff signs y ∧ x ≤ y

theorem NoFarther.trans {signs x y z : Nat} (h : NoFarther signs x y) (h' : NoFarther signs y z) : NoFarther signs x z := by
  unfold NoFarther at *
  omega

/-- Of rising hypotheses the one found is no farther than any of them, nor than the one begun with, which is lower. -/
theorem closest_noFarther {signs x : Nat} {l : List Nat} (hl : l.Pairwise (· < ·)) {b : Option Nat} (hb : ∀ y, b = some y → ∀ z ∈ l, y < z)
    (hx : l.foldl (closerHyp signs) b = some x) : (∀ y ∈ l, NoFarther signs x y) ∧ ∀ y, b = some y → NoFarther signs x y := by
  induction l generalizing b with
  | nil =>
    refine ⟨nofun, fun y hy => ?_⟩
    cases hy.symm.trans hx
    exact Or.inr ⟨rfl, le_rfl⟩
  | cons h l ih =>
    obtain ⟨hh, hl⟩ := List.pairwise_cons.1 hl
    have hkeep : ∀ y, b = some y → y < h := fun y hy => hb y hy h List.mem_cons_self
    rcases b with _ | y
    · obtain ⟨hrest, hfirst⟩ := ih hl (b := some h) (fun y hy => by cases hy; exact hh) hx
      exact ⟨List.forall_mem_cons.2 ⟨hfirst h rfl, hrest⟩, nofun⟩
    · by_cases hlt : fawDiff signs h < fawDiff signs y
      · obtain ⟨hrest, hfirst⟩ := ih hl (b := some h) (fun y hy => by cases hy; exact hh) (by simpa [closerHyp, hlt] using hx)
        refine ⟨List.forall_mem_cons.2 ⟨hfirst h rfl, hrest⟩, fun z hz => ?_⟩
        cases hz
        exact (hfirst h rfl).trans (Or.inl hlt)
      · obtain ⟨hrest, hfirst⟩ := ih hl (b := some y) (fun z hz w hw => hb z hz w (List.mem_cons_of_mem _ hw))
          (by simpa [closerHyp, hlt] using hx)
        have hyh : NoFarther signs y h := by
          have := hkeep y rfl
          unfold NoFarther
          omega
        exact ⟨List.forall_mem_cons.2 ⟨(hfirst y rfl).trans hyh, hrest⟩, hfirst⟩

section
variable {o s t : State} {k amp signs : Nat}

/-- Where a window matches under some hypothesis, it is taken under the best. -/
theorem fawBest_best {h : Nat} (hh : h < 32) (hu : fawUnder s k amp signs h = true) :
    ∃ x, fawBest s k amp signs = some x ∧ BestHyp s k amp signs x := by
  obtain ⟨x, hx, hlt, hux⟩ := fawBest_matches hh hu
  have hrise : ((List.range 32).filter (fawUnder s k amp signs)).Pairwise (· < ·) := List.pairwise_lt_range.filter _
  refine ⟨x, hx, hlt, hux, fun j hj huj => (closest_noFarther hrise (b := none) nofun hx).1 j ?_⟩
  exact List.mem_filter.2 ⟨List.mem_range.2 hj, huj⟩

theorem fawBest_none (h : ∀ j < 32, fawUnder s k amp signs j = false) : fawBest s k amp signs = none := by
  have hnil : (List.range 32).filter (fawUnder s k amp signs) = [] :=
    List.filter_eq_nil_iff.2 fun j hj => by rw [h j (List.mem_range.1 hj)]; exact Bool.false_ne_true
  unfold fawBest
  rw [hnil]
  rfl

/-- FAW_MATCH in HUNT on an enabled receiver. -/
theorem fawMatch_takesBest {h : Nat} (hst : s.rd (DSF_SYNC_STATE k) = 0) (hen : s.bit (LPH_CH_CTL_RX_EN k) = true) (hh : h < 32)
    (hu : fawUnder s k amp signs h = true) : (fawMatch k amp signs s).rd (DSF_SYNC_STATE k) = 1 ∧
      BestHyp s k amp signs ((fawMatch k amp signs s).rd (DSF_SYNC_HYP k)) ∧
      (∀ a, a ∉ [(DSF_SYNC k).addr] → (fawMatch k amp signs s).reg a = s.reg a) ∧ Frame [.regs, .dsf, .spc] s (fawMatch k amp signs s) := by
  obtain ⟨x, hx, hbest⟩ := fawBest_best hh hu
  have hreg : ∀ a, (fawMatch k amp signs s).reg a = ((s.wr (DSF_SYNC_STATE k) 1).wr (DSF_SYNC_HYP k) x).reg a := fun a => by
    unfold fawMatch
    rw [if_pos ⟨hst, hen⟩, hx]
    simp only [reg_setSpcCh, reg_setDsfCh]
  have hk : Kept false [.regs, .dsf, .spc] [blkDSF] s (fawMatch k amp signs s) :=
    kept_fawMatch Kept.rfl_frame (by decide) (by decide) (by decide) (by decide)
  have hhyp : (fawMatch k amp signs s).rd (DSF_SYNC_HYP k) = x := by
    rw [rd_congr (hreg _), rd_wr_same _ _ le_of_eval]
    exact Nat.mod_eq_of_lt hbest.1
  refine ⟨(fawMatch_takes hst hen hh hu).1, hhyp.symm ▸ hbest, fun a ha => ?_, hk.frame⟩
  have ha : a ≠ (DSF_SYNC k).addr := by simpa using ha
  rw [hreg, reg_wr_ne (r := DSF_SYNC_HYP k) _ _ ha, reg_wr_ne (r := DSF_SYNC_STATE k) _ _ ha]

/-- FAW_MATCH with no match, or out of HUNT. -/
theorem fawMatch_idle (h : (∀ j < 32, fawUnder s k amp signs j = false) ∨ s.rd (DSF_SYNC_STATE k) ≠ 0) : fawMatch k amp signs s = s := by
  unfold fawMatch
  split
  · next hc =>
    rw [fawBest_none (h.resolve_right fun hn => hn hc.1)]
  · rfl

/-! ### The window at the expected position in SYNC (R75) -/

theorem expectedWindow_hit (hst : s.rd (DSF_SYNC_STATE k) = 3) (hu : fawUnder s k amp signs (s.rd (DSF_SYNC_HYP k)) = true) :
    expectedWindow k amp signs s = frameBoundary k (s.wr (DSF_SYNC_MISS k) 0) := by
  unfold expectedWindow
  simp only [hst, hu, ↓reduceIte, OfNat.ofNat_ne_zero, Nat.reduceEqDiff]

theorem expectedWindow_miss (hst : s.rd (DSF_SYNC_STATE k) = 3) (hu : fawUnder s k amp signs (s.rd (DSF_SYNC_HYP k)) = false) :
    expectedWindow k amp signs s =
      if s.rd (DSF_SYNC_MISS k) < 3 then frameBoundary k (s.wr (DSF_SYNC_MISS k) (s.rd (DSF_SYNC_MISS k) + 1)) else dsfHunt k s := by
  unfold expectedWindow
  simp only [hst, hu, ↓reduceIte, OfNat.ofNat_ne_zero, Nat.reduceEqDiff, Bool.false_eq_true]

/-- The frame that starts at a boundary has the counter after the last. -/
theorem frameBoundary_lastB : (frameBoundary k s).lastB k = (s.rd (DSF_SYNC_FC k) + 1) % 2 ^ 48 := by
  unfold frameBoundary
  dsimp only
  generalize (s.rd (DSF_SYNC_FC k) + 1) % 2 ^ 48 = fc
  have h : Kept false [.tim] ([] : List Nat) ((s.setBseq k (s.bseq k + 1)).setLastB k fc)
      (timCapture k fc ((s.setBseq k (s.bseq k + 1)).setLastB k fc)) := kept_timCapture Kept.rfl_frame (by decide)
  have hc : (timCapture k fc ((s.setBseq k (s.bseq k + 1)).setLastB k fc)).cfg = ((s.setBseq k (s.bseq k + 1)).setLastB k fc).cfg :=
    h.frame .cfg (by decide)
  unfold State.lastB
  rw [hc]
  exact lastB_setLastB _ k fc

/-- A boundary at which MISS is counted or cleared changes no other field, and the channel's counts. -/
theorem syncBoundary_shows {m : Nat} (hm : m < 4) (hst : s.rd (DSF_SYNC_STATE k) = 3) (ht : t = frameBoundary k (s.wr (DSF_SYNC_MISS k) m)) :
    t.rd (DSF_SYNC_STATE k) = 3 ∧ t.rd (DSF_SYNC_MISS k) = m ∧ t.bseq k = s.bseq k + 1 ∧ t.lastB k = (s.rd (DSF_SYNC_FC k) + 1) % 2 ^ 48 ∧
      (∀ a, a ∉ [(DSF_SYNC k).addr] → t.reg a = s.reg a) ∧ Frame [.regs, .cfg, .tim] s t := by
  subst ht
  obtain ⟨hr, hb⟩ := frameBoundary_counts (k := k) (s := s.wr (DSF_SYNC_MISS k) m)
  have hk : Kept false [.regs, .cfg, .tim] (Set.univ : Set Nat) s (frameBoundary k (s.wr (DSF_SYNC_MISS k) m)) :=
    kept_frameBoundary (kept_st_wr Kept.rfl_frame (by decide) (Set.mem_univ _)) (by decide) (by decide)
  refine ⟨?_, ?_, hb, ?_, fun a ha => ?_, hk.frame⟩
  · rw [rd_congr (hr _), rd_wr_other _ _ le_of_eval le_of_eval (Or.inr (Or.inl le_of_eval)), hst]
  · rw [rd_congr (hr _), rd_wr_same _ _ le_of_eval]
    exact Nat.mod_eq_of_lt hm
  · rw [frameBoundary_lastB, rd_wr_other _ _ le_of_eval le_of_eval (Or.inr (Or.inr le_of_eval))]
  · have ha : a ≠ (DSF_SYNC k).addr := by simpa using ha
    rw [hr, reg_wr_ne (r := DSF_SYNC_MISS k) _ _ ha]

/-! ### The return to HUNT (R77) -/

theorem lineKept_dsfHunt : LineKept (if s.rd (DSF_SYNC_STATE k) = 3 then assertLof k (huntEmptied k (huntShown k s)) else huntShown k s)
    (dsfHunt k s) := by
  rw [dsfHunt_eq]
  split
  · exact lineKept_timPoll (lineKept_timLost (lineKept_chpReact (lineKept_actLof (lineKept_abortAll .refl))))
  · exact lineKept_huntEmptied .refl

/-- LOF asserted changes no other field of DSF_SYNC. -/
theorem assertLof_rd {q : RF} (ha : q.addr = (DSF_SYNC k).addr) (hq : 62 ≤ q.lo ∧ q.lo + q.w ≤ 64 ∨ q.lo + q.w ≤ 61) :
    (assertLof k s).rd q = s.rd q := by
  unfold assertLof
  split
  · rfl
  · rw [rd_put_other (r := DSF_EVT_LOF k) _ _ le_of_eval (by omega) (Or.inl (ha.symm ▸ sync_ne_dsfEvt)),
      rd_put_other (r := DSF_SYNC_LOF k) _ _ le_of_eval (by omega) (Or.inr (hq.imp And.left id))]

theorem huntShown_state : (huntShown k s).rd (DSF_SYNC_STATE k) = 0 := by
  unfold huntShown
  rw [rd_wr_other _ _ le_of_eval le_of_eval (Or.inr (Or.inl le_of_eval)),
    rd_wr_other _ _ le_of_eval le_of_eval (Or.inr (Or.inl le_of_eval)), rd_wr_same _ _ le_of_eval]
  rfl

theorem dsfHunt_state : (dsfHunt k s).rd (DSF_SYNC_STATE k) = 0 := by
  rw [rd_congr (q := DSF_SYNC_STATE k) (lineKept_dsfHunt _ sync_line)]
  split
  · rw [assertLof_rd (q := DSF_SYNC_STATE k) rfl (Or.inl ⟨le_of_eval, le_of_eval⟩), rd_congr (q := DSF_SYNC_STATE k) (lineKept_huntEmptied .refl _ sync_line),
      huntShown_state]
  · exact huntShown_state

/-- From SYNC it is loss of frame. -/
theorem dsfHunt_lof (hst : s.rd (DSF_SYNC_STATE k) = 3) : (dsfHunt k s).bit (DSF_SYNC_LOF k) = true := by
  rw [bit_congr (q := DSF_SYNC_LOF k) (lineKept_dsfHunt _ sync_line), if_pos hst, assertLof_lof]

theorem kept_expectedWindow_carrier : Kept false carrierParts allBlocks s (expectedWindow k amp signs s) := by
  apply @kept_expectedWindow
  · exact Kept.rfl_frame
  all_goals decide

theorem kept_frameHeader_carrier {h ops : Bytes} : Kept false carrierParts allBlocks s (frameHeader k h ops s) := by
  apply @kept_frameHeader
  · exact Kept.rfl_frame
  all_goals decide

/-- EXPECTED_WINDOW in SYNC, the fourth mismatch. -/
theorem expectedWindow_loses (hst : s.rd (DSF_SYNC_STATE k) = 3) (hm : s.rd (DSF_SYNC_MISS k) = 3)
    (hu : fawUnder s k amp signs (s.rd (DSF_SYNC_HYP k)) = false) :
    (expectedWindow k amp signs s).rd (DSF_SYNC_STATE k) = 0 ∧ (expectedWindow k amp signs s).bit (DSF_SYNC_LOF k) = true ∧
      (expectedWindow k amp signs s).mem = s.mem ∧ (expectedWindow k amp signs s).flt = s.flt := by
  obtain ⟨hmem, hflt, -⟩ := carrier_parts (kept_expectedWindow_carrier (k := k) (amp := amp) (signs := signs) (s := s))
  have e : expectedWindow k amp signs s = dsfHunt k s := (expectedWindow_miss hst hu).trans (if_neg (by omega))
  exact ⟨e ▸ dsfHunt_state, e ▸ dsfHunt_lof hst, hmem, hflt⟩

/-! ### The window at the expected position in PRESYNC (R75, R76) -/

theorem lineKept_ohsRephase (h : LineKept o s) : LineKept o (ohsRephase k s) :=
  h.far (kept_ohsRephase Kept.rfl_frame (by decide) (by decide) (by decide))

theorem lineKept_chpPhase (h : LineKept o s) : LineKept o (chpPhase k s) :=
  h.far (kept_chpPhase Kept.rfl_frame (by decide) (by decide) (by decide))

/-- SYNC is shown with the counter of the frame that starts. -/
def syncShown (k : Nat) (s : State) : State :=
  let t := (((s.wr (DSF_SYNC_STATE k) 3).wr (DSF_SYNC_MISS k) 0).put (DSF_SYNC_LOF k) false).put (DSF_EVT_SYNC_GAIN k) true
  let jump := (s.dsfCh k).prevV && (s.dsfCh k).fc != (s.rd (DSF_SYNC_FC k) + 1) % 2 ^ 48
  (if jump then t.put (DSF_EVT_FC_JUMP k) true else t).wr (DSF_SYNC_FC k) (s.dsfCh k).fc

/-- A frame's delineation begins, the framer's channel before it given. -/
def delineated (k : Nat) (c : DsfCh) (s : State) : State :=
  startFrame k (s.runs blkDSF)
    (s.setDsfCh k { c with prevV := true, live := s.runs blkDSF, ops := if s.runs blkDSF then c.ops else none })

/-- SYNC on the port of the last autonomous move allows a further one (R115). -/
def moveAnswered (s : State) : State :=
  if s.act.autoMoved = some (activePort s) ∨ (s.act.autoMoved.isSome ∧ s.act.autoMoved = s.lph.moving) then
    { s with act := { s.act with autoMoved := none } }
  else s

theorem gainSync_eq (k : Nat) (s : State) :
    gainSync k s = actPoll k (ohsRephase k (chpPhase k (moveAnswered (delineated k (s.dsfCh k) (syncShown k s))))) := rfl

theorem lineKept_moveAnswered (h : LineKept o s) : LineKept o (moveAnswered s) := .ite (h.sameRegs fun a => reg_mk s a) h

theorem lineKept_gainSync : LineKept (syncShown k s) (gainSync k s) := by
  rw [gainSync_eq]
  have h : LineKept (syncShown k s) (delineated k (s.dsfCh k) (syncShown k s)) :=
    lineKept_startFrame (LineKept.refl.sameRegs (reg_setDsfCh _ _ _))
  exact lineKept_actPoll (lineKept_ohsRephase (lineKept_chpPhase (lineKept_moveAnswered h)))

/-- The counter shown is apart from the other fields of DSF_SYNC, and the events are in another register. -/
theorem syncShown_rd {q : RF} (ha : q.addr = (DSF_SYNC k).addr) (hq : 48 ≤ q.lo ∧ q.lo + q.w ≤ 64) :
    (syncShown k s).rd q = (((s.wr (DSF_SYNC_STATE k) 3).wr (DSF_SYNC_MISS k) 0).put (DSF_SYNC_LOF k) false).rd q := by
  have hne : q.addr ≠ (DSF_EVT k).addr := ha.symm ▸ sync_ne_dsfEvt
  unfold syncShown
  dsimp only
  rw [rd_wr_other (r := DSF_SYNC_FC k) _ _ le_of_eval hq.2 (Or.inr (Or.inl hq.1))]
  split
  · rw [rd_put_other (r := DSF_EVT_FC_JUMP k) _ _ le_of_eval hq.2 (Or.inl hne), rd_put_other (r := DSF_EVT_SYNC_GAIN k) _ _ le_of_eval hq.2 (Or.inl hne)]
  · rw [rd_put_other (r := DSF_EVT_SYNC_GAIN k) _ _ le_of_eval hq.2 (Or.inl hne)]

/-- SYNC gained shows the state, no loss of frame, and the counter. -/
theorem gainSync_shows : (gainSync k s).rd (DSF_SYNC_STATE k) = 3 ∧ (gainSync k s).bit (DSF_SYNC_LOF k) = false ∧
    (gainSync k s).rd (DSF_SYNC_FC k) = (s.dsfCh k).fc % 2 ^ 48 := by
  have hk := lineKept_gainSync (k := k) (s := s) _ (sync_line (k := k))
  refine ⟨?_, ?_, ?_⟩
  · rw [rd_congr (q := DSF_SYNC_STATE k) hk, syncShown_rd (q := DSF_SYNC_STATE k) rfl ⟨le_of_eval, le_of_eval⟩,
      rd_put_other _ _ le_of_eval le_of_eval (Or.inr (Or.inl le_of_eval)),
      rd_wr_other _ _ le_of_eval le_of_eval (Or.inr (Or.inl le_of_eval)), rd_wr_same _ _ le_of_eval]
    rfl
  · rw [bit_congr (q := DSF_SYNC_LOF k) hk, bit_eq, syncShown_rd (q := DSF_SYNC_LOF k) rfl ⟨le_of_eval, le_of_eval⟩, ← bit_eq, bit_put_same _ _ le_of_eval rfl]
  · rw [rd_congr (q := DSF_SYNC_FC k) hk]
    exact rd_wr_same _ _ le_of_eval

theorem expectedWindow_pre1 (hst : s.rd (DSF_SYNC_STATE k) = 1) : expectedWindow k amp signs s =
    if fawUnder s k amp signs (s.rd (DSF_SYNC_HYP k)) && (s.dsfCh k).hdrOk then
      ((s.wr (DSF_SYNC_STATE k) 2).setDsfCh k { s.dsfCh k with fcA := (s.dsfCh k).fc, hdrOk := false }).setTrx (16 + k) s.tod.cut
    else dsfHunt k s := by
  unfold expectedWindow
  rw [hst]
  rfl

theorem expectedWindow_pre2 (hst : s.rd (DSF_SYNC_STATE k) = 2) : expectedWindow k amp signs s =
    if fawUnder s k amp signs (s.rd (DSF_SYNC_HYP k)) && (s.dsfCh k).hdrOk then gainSync k (s.setTrx (16 + k) s.tod.cut) else dsfHunt k s := by
  unfold expectedWindow
  rw [hst]
  rfl

/-- EXPECTED_WINDOW in PRESYNC: on, with a match and a valid header. -/
theorem expectedWindow_advances (hst : s.rd (DSF_SYNC_STATE k) = 1 ∨ s.rd (DSF_SYNC_STATE k) = 2)
    (hu : fawUnder s k amp signs (s.rd (DSF_SYNC_HYP k)) = true) (hok : (s.dsfCh k).hdrOk = true) :
    (expectedWindow k amp signs s).rd (DSF_SYNC_STATE k) = s.rd (DSF_SYNC_STATE k) + 1 ∧
      (s.rd (DSF_SYNC_STATE k) = 2 → (expectedWindow k amp signs s).bit (DSF_SYNC_LOF k) = false ∧
        (expectedWindow k amp signs s).rd (DSF_SYNC_FC k) = (s.dsfCh k).fc % 2 ^ 48) := by
  have hc : (fawUnder s k amp signs (s.rd (DSF_SYNC_HYP k)) && (s.dsfCh k).hdrOk) = true := by rw [hu, hok]; rfl
  rcases hst with hst | hst
  · rw [expectedWindow_pre1 hst, if_pos hc, rd_setTrx, rd_setDsfCh, rd_wr_same _ _ le_of_eval, hst]
    exact ⟨rfl, nofun⟩
  · obtain ⟨h1, h2, h3⟩ := gainSync_shows (k := k) (s := s.setTrx (16 + k) s.tod.cut)
    rw [expectedWindow_pre2 hst, if_pos hc, hst]
    exact ⟨h1, fun _ => ⟨h2, h3⟩⟩

/-- EXPECTED_WINDOW in PRESYNC: back to HUNT else. -/
theorem expectedWindow_returns (hst : s.rd (DSF_SYNC_STATE k) = 1 ∨ s.rd (DSF_SYNC_STATE k) = 2)
    (h : fawUnder s k amp signs (s.rd (DSF_SYNC_HYP k)) = false ∨ (s.dsfCh k).hdrOk = false) :
    (expectedWindow k amp signs s).rd (DSF_SYNC_STATE k) = 0 := by
  have hc : ¬ (fawUnder s k amp signs (s.rd (DSF_SYNC_HYP k)) && (s.dsfCh k).hdrOk) = true := by
    rcases h with h | h <;> simp [h]
  rcases hst with hst | hst
  · rw [expectedWindow_pre1 hst, if_neg hc, dsfHunt_state]
  · rw [expectedWindow_pre2 hst, if_neg hc, dsfHunt_state]

/-! ### Frame headers (R75, R79) -/

section
variable {h ops : Bytes}

theorem takeFrame_bad : ((takeFrame k s).dsfCh k).bad = (s.dsfCh k).badNext := congrArg DsfCh.bad (dsfCh_setDsfCh _ _ _)

/-- A bad header sets events alone. -/
theorem badHeader_sync : (badHeader k h s).reg (DSF_SYNC k).addr = s.reg (DSF_SYNC k).addr := by
  unfold badHeader
  dsimp only
  split
  · rw [reg_put_ne (r := DSF_EVT_CH_MIS k) _ _ sync_ne_dsfEvt, reg_put_ne (r := DSF_EVT_HEC k) _ _ sync_ne_dsfEvt, reg_setDsfCh]
  · rw [reg_put_ne (r := DSF_EVT_HEC k) _ _ sync_ne_dsfEvt, reg_setDsfCh]

/-- A bad header in SYNC: of DSF_SYNC the expected counter alone is new. -/
theorem frameHeader_syncBad (hst : s.rd (DSF_SYNC_STATE k) = 3) (hbad : headerOk k ((s.dsfCh k).badNext.contains 0) h = false) :
    (frameHeader k h ops s).reg (DSF_SYNC k).addr =
      ((takeFrame k s).wr (DSF_SYNC_FC k) (((takeFrame k s).rd (DSF_SYNC_FC k) + 1) % 2 ^ 48)).reg (DSF_SYNC k).addr := by
  have hstart : ∀ t : State, (startFrame k false t).reg (DSF_SYNC k).addr = t.reg (DSF_SYNC k).addr :=
    fun t => lineKept_startFrame (LineKept.refl (s := t)) _ sync_line
  unfold frameHeader
  simp only [hst, takeFrame_bad, hbad, ↓reduceIte, OfNat.ofNat_ne_zero, Nat.reduceEqDiff, Bool.false_and, Bool.false_eq_true]
  split <;> simp only [reg_setDsfCh, hstart, badHeader_sync, reg_setUbeCh]

/-- FRAME_HEADER in SYNC: of DSF_SYNC the counter alone is new. -/
theorem frameHeader_counts (hst : s.rd (DSF_SYNC_STATE k) = 3) : (frameHeader k h ops s).rd (DSF_SYNC_STATE k) = 3 ∧
    (frameHeader k h ops s).rd (DSF_SYNC_MISS k) = s.rd (DSF_SYNC_MISS k) ∧
    (frameHeader k h ops s).rd (DSF_SYNC_FC k) = (if headerOk k ((s.dsfCh k).badNext.contains 0) h = true then fieldOf (wordAt h 0) 16 48
      else (s.rd (DSF_SYNC_FC k) + 1) % 2 ^ 48) := by
  have key : ∀ fc < 2 ^ 48, (frameHeader k h ops s).reg (DSF_SYNC k).addr = ((takeFrame k s).wr (DSF_SYNC_FC k) fc).reg (DSF_SYNC k).addr →
      (frameHeader k h ops s).rd (DSF_SYNC_STATE k) = 3 ∧ (frameHeader k h ops s).rd (DSF_SYNC_MISS k) = s.rd (DSF_SYNC_MISS k) ∧
        (frameHeader k h ops s).rd (DSF_SYNC_FC k) = fc := by
    refine fun fc hfc hr => ⟨?_, ?_, ?_⟩
    · rw [rd_congr (q := DSF_SYNC_STATE k) hr, rd_wr_other _ _ le_of_eval le_of_eval (Or.inr (Or.inl le_of_eval)), rd_congr takeFrame_reg, hst]
    · rw [rd_congr (q := DSF_SYNC_MISS k) hr, rd_wr_other _ _ le_of_eval le_of_eval (Or.inr (Or.inl le_of_eval)), rd_congr takeFrame_reg]
    · rw [rd_congr (q := DSF_SYNC_FC k) hr, rd_wr_same _ _ le_of_eval]
      exact Nat.mod_eq_of_lt hfc
  cases hok : headerOk k ((s.dsfCh k).badNext.contains 0) h
  · rw [if_neg Bool.false_ne_true, ← rd_congr (q := DSF_SYNC_FC k) (takeFrame_reg (k := k) (s := s))]
    exact key _ (Nat.mod_lt _ (Nat.two_pow_pos 48)) (frameHeader_syncBad hst hok)
  · rw [if_pos rfl]
    exact key _ (fieldOf_lt _ _ _) ((frameHeader_sync hst hok _ sync_line).trans counterShown_reg)

/-- FRAME_HEADER in PRESYNC: a bad header. -/
theorem frameHeader_returns (hst : s.rd (DSF_SYNC_STATE k) = 1 ∨ s.rd (DSF_SYNC_STATE k) = 2)
    (hbad : headerOk k ((s.dsfCh k).badNext.contains 0) h = false) : (frameHeader k h ops s).rd (DSF_SYNC_STATE k) = 0 := by
  have e : frameHeader k h ops s = dsfHunt k (badHeader k h (takeFrame k s)) := by
    unfold frameHeader
    rcases hst with hst | hst <;>
      simp only [hst, takeFrame_bad, hbad, ↓reduceIte, OfNat.ofNat_ne_zero, OfNat.ofNat_ne_one, one_ne_zero, Bool.false_eq_true, Bool.not_false]
  rw [e, dsfHunt_state]

/-- FRAME_HEADER in the first state of PRESYNC: a good header leaves it there. -/
theorem frameHeader_waits (hst : s.rd (DSF_SYNC_STATE k) = 1) (hok : headerOk k ((s.dsfCh k).badNext.contains 0) h = true) :
    (frameHeader k h ops s).rd (DSF_SYNC_STATE k) = 1 := by
  have e : frameHeader k h ops s = headerNews k h (takeFrame k s) := by
    unfold frameHeader
    simp only [hst, takeFrame_bad, hok, ↓reduceIte, one_ne_zero]
  rw [e, rd_congr (q := DSF_SYNC_STATE k) (lineKept_headerNews .refl _ sync_line), rd_congr takeFrame_reg, hst]

end

/-! ### The flywheel (R77) -/

/-- A channel of the framer after a tick. -/
def ticked (k : Nat) (s : State) : DsfCh :=
  let c := s.dsfCh k
  { c with since := c.since + 1, tickAt := some s.tod, asm := c.asm.map fun e => (e.1, e.2.map fun a => { a with ticks := a.ticks + 1 }),
           pm := { c.pm with flost := c.pm.flost + b2n (s.bit (LPH_CH_CTL_RX_EN k) && s.rd (DSF_SYNC_STATE k) != 3) } }

theorem flywheelTick_dsfCh : (flywheelTick k s).dsfCh k = ticked k s := by
  have h : ∀ t : State, (actTick k (ohsTick k t)).dsfCh k = t.dsfCh k := fun t => by
    have ho : Kept false [.regs, .ohs, .act] [blkOHS] t (actTick k (ohsTick k t)) :=
      kept_actTick (kept_ohsTick Kept.rfl_frame (by decide) (by decide) (by decide)) (by decide)
    have hd : (actTick k (ohsTick k t)).dsf = t.dsf := ho.frame .dsf (by decide)
    unfold State.dsfCh
    rw [hd]
  unfold flywheelTick
  dsimp only
  rw [h]
  split
  · rw [cesTick_dsfCh, dsfCh_setDsfCh]
    rfl
  · rw [dsfCh_setDsfCh]
    rfl

theorem flywheelTick_flost : ((flywheelTick k s).dsfCh k).pm.flost = (s.dsfCh k).pm.flost +
    (if s.bit (LPH_CH_CTL_RX_EN k) = true ∧ s.rd (DSF_SYNC_STATE k) ≠ 3 then 1 else 0) := by
  rw [flywheelTick_dsfCh]
  simp only [ticked, b2n, Bool.and_eq_true, bne_iff_ne]

end

/-- Settles O21: windows by what `fawMatch` and `expectedWindow` come to in each state, headers by what is left of DSF_SYNC. -/
theorem alignmentRows : Obligations.AlignmentRows := by
  unfold Obligations.AlignmentRows
  refine ⟨fun k amp signs s h hup hst hen hh hu => ⟨_, congrArg Host.Outcome.next (if_pos hup), fawMatch_takesBest hst hen hh hu⟩,
    fun k amp signs s hup h => ⟨_, congrArg Host.Outcome.next ((if_pos hup).trans (fawMatch_idle h)), rfl⟩,
    fun k amp signs s hup hst hu => ⟨_, congrArg Host.Outcome.next (if_pos hup), syncBoundary_shows (by decide) hst (expectedWindow_hit hst hu)⟩,
    fun k amp signs s hup hst hm hu => ?_,
    fun k amp signs s hup hst hm hu => ⟨_, congrArg Host.Outcome.next (if_pos hup), expectedWindow_loses hst hm hu⟩,
    fun k amp signs s hup hst => ?_,
    fun k amp signs s hup hst => ⟨_, congrArg Host.Outcome.next ((if_pos hup).trans (if_pos hst)), rfl⟩,
    fun k hdr ops s hup hst => ?_,
    fun k hdr ops s hup hst hbad => ⟨_, congrArg Host.Outcome.next (if_pos hup), frameHeader_returns hst hbad⟩,
    fun k hdr ops s hup hst hok => ⟨_, congrArg Host.Outcome.next (if_pos hup), frameHeader_waits hst hok,
      (carrier_parts kept_frameHeader_carrier).1⟩,
    fun k hdr ops s hup hst => ⟨_, congrArg Host.Outcome.next ((if_pos hup).trans (if_pos hst)), rfl⟩, fun k s hup => ?_⟩
  · have e := (expectedWindow_miss hst hu).trans (if_pos hm)
    obtain ⟨h1, h2, h3, -, h5⟩ := syncBoundary_shows (by omega) hst e
    exact ⟨_, congrArg Host.Outcome.next (if_pos hup), h1, h2, h3, h5⟩
  · obtain ⟨hmem, hflt, -⟩ := carrier_parts (kept_expectedWindow_carrier (k := k) (amp := amp.toNat) (signs := signs.toNat) (s := s))
    exact ⟨_, congrArg Host.Outcome.next (if_pos hup), fun h => expectedWindow_advances hst h.1 h.2, expectedWindow_returns hst, hmem, hflt⟩
  · obtain ⟨h1, h2, h3⟩ := frameHeader_counts (h := hdr) (ops := ops) hst
    obtain ⟨hmem, hflt, -⟩ := carrier_parts (kept_frameHeader_carrier (k := k) (h := hdr) (ops := ops) (s := s))
    exact ⟨_, congrArg Host.Outcome.next (if_pos hup), h1, h2, h3, hmem, hflt⟩
  · have hk : Kept false [.regs, .ticks, .act, .dsf, .ohs, .pipes] [blkCLS, blkOHS] s (flywheelTick k s) :=
      kept_flywheelTick Kept.rfl_frame (by decide) (by decide) (by decide) (by decide) (by decide) (by decide) (by decide) (by decide)
    exact ⟨_, congrArg Host.Outcome.next (if_pos hup), flywheelTick_counts, flywheelTick_flost, hk.regFrame, hk.frame⟩

/-! ### The overhead serial ports (R95) -/

section
variable {s : State} {p : Nat} {b : Bytes}

theorem ohsCnt_ne_ohsStat : (OHS_CNT p).addr ≠ (OHS_STAT p).addr := by
  show 0x1E000030 + p % 1024 * 32 ≠ 0x1E000028 + p % 1024 * 32
  omega

/-- A block that replaces one is counted. -/
def overwriteCounted (p : Nat) (s : State) : State := if (s.ohsPort p).held.isSome then s.inc (OHS_CNT_OVW p) else s

theorem overwriteCounted_ovw : (overwriteCounted p s).rd (OHS_CNT_OVW p) =
    if (s.ohsPort p).held.isSome = true then satAdd (OHS_CNT_OVW p).w (s.rd (OHS_CNT_OVW p)) 1 else s.rd (OHS_CNT_OVW p) := by
  unfold overwriteCounted
  split
  · exact rd_inc_same _ le_of_eval
  · rfl

theorem overwriteCounted_reg {a : Nat} (h : a ≠ (OHS_CNT p).addr) : (overwriteCounted p s).reg a = s.reg a := by
  unfold overwriteCounted
  split
  · exact reg_inc_ne (r := OHS_CNT_OVW p) _ h
  · rfl

theorem ohsBlock_eq (he : s.bit (OHS_CTL_I_EN p) = true) (hr : s.runs blkOHS = true) (hf : ohsFeeder s (s.rd (OHS_CTL_I_DST p)) = some p) :
    ohsBlock p b s =
      ((overwriteCounted p s).setOhsPort p { s.ohsPort p with held := some b, taken := false, partialBlk := false }).put (OHS_STAT_I_READY p) true := by
  unfold ohsBlock showOhs
  simp only [he, hr, hf, ohsPort_setOhsPort, Bool.not_true, Bool.or_self, Bool.false_eq_true, ↓reduceIte, ne_eq, not_true_eq_false,
    Option.isSome_some]
  rfl

/-- OHS_INSERT_BLOCK at the port that feeds its channel. -/
theorem ohsBlock_holds (he : s.bit (OHS_CTL_I_EN p) = true) (hr : s.runs blkOHS = true)
    (hf : ohsFeeder s (s.rd (OHS_CTL_I_DST p)) = some p) :
    ((ohsBlock p b s).ohsPort p).held = some b ∧ (ohsBlock p b s).bit (OHS_STAT_I_READY p) = true ∧
      (ohsBlock p b s).rd (OHS_CNT_OVW p) = (if (s.ohsPort p).held.isSome = true then satAdd (OHS_CNT_OVW p).w (s.rd (OHS_CNT_OVW p)) 1
        else s.rd (OHS_CNT_OVW p)) ∧
      (∀ a, a ∉ [(OHS_STAT p).addr, (OHS_CNT p).addr] → (ohsBlock p b s).reg a = s.reg a) ∧ Frame [.regs, .ohs] s (ohsBlock p b s) := by
  have hk : Kept false [.regs, .ohs] [blkOHS] s (ohsBlock p b s) := kept_ohsBlock Kept.rfl_frame (by decide) (by decide) (by decide)
  rw [ohsBlock_eq he hr hf] at hk ⊢
  refine ⟨congrArg OhsPort.held (ohsPort_setOhsPort _ p _), bit_put_same _ _ le_of_eval rfl, ?_, fun a ha => ?_, hk.frame⟩
  · rw [rd_put_other (r := OHS_STAT_I_READY p) (q := OHS_CNT_OVW p) _ _ le_of_eval le_of_eval (Or.inl ohsCnt_ne_ohsStat), rd_setOhsPort, overwriteCounted_ovw]
  · simp only [List.mem_cons, List.not_mem_nil, or_false, not_or] at ha
    rw [reg_put_ne (r := OHS_STAT_I_READY p) _ _ ha.1, reg_setOhsPort, overwriteCounted_reg ha.2]

/-- OHS_SHORT_BLOCK. -/
theorem ohsShort_counts (he : s.bit (OHS_CTL_I_EN p) = true) (hr : s.runs blkOHS = true) :
    (ohsShort p s).rd (OHS_CNT_SHORT p) = satAdd (OHS_CNT_SHORT p).w (s.rd (OHS_CNT_SHORT p)) 1 ∧
      ((ohsShort p s).ohsPort p).held = (s.ohsPort p).held ∧ (∀ a, a ∉ [(OHS_CNT p).addr] → (ohsShort p s).reg a = s.reg a) ∧
      Frame [.regs, .ohs] s (ohsShort p s) := by
  have hk : Kept false [.regs, .ohs] [blkOHS] s (ohsShort p s) := kept_ohsShort Kept.rfl_frame (by decide) (by decide) (by decide)
  have e : ohsShort p s = (s.setOhsPort p { s.ohsPort p with partialBlk := true }).inc (OHS_CNT_SHORT p) := if_pos (by rw [he, hr]; rfl)
  rw [e] at hk ⊢
  have hheld := congrArg OhsPort.held (ohsPort_setOhsPort s p { s.ohsPort p with partialBlk := true })
  refine ⟨?_, hheld, fun a ha => ?_, hk.frame⟩
  · rw [rd_inc_same _ le_of_eval, rd_setOhsPort]
    rfl
  · have ha : a ≠ (OHS_CNT p).addr := by simpa using ha
    rw [reg_inc_ne (r := OHS_CNT_SHORT p) _ ha, reg_setOhsPort]
end

/-! ### Map entries (R80, R120) -/

section
variable {s : State} {k n : Nat} {e : Bytes}

/-- What becomes of a readable map entry. -/
def entryTaken (k : Nat) (e : Bytes) (s : State) : State :=
  match judge s k (grantOf e) with
  | .ignored => s
  | .discarded => s.inc (UBE_CH_CNT0_GRANT_BAD k)
  | .accepted => takeGrant k (s.dsfCh k).fc (grantOf e) s

theorem mapEntry_eq (k n : Nat) (e : Bytes) (s : State) : mapEntry k n e s =
    if !((s.dsfCh k).live && (s.dsfCh k).hdrOk && s.runs blkUBE) || decide ((s.dsfCh k).mapN ≤ n) then s
    else if !crc32cOk 16 e || !spanGood (s.dsfCh k).bad (128 + 16 * n) 16 then s else entryTaken k e s := rfl

theorem mapEntry_readable (hl : (s.dsfCh k).live = true) (hh : (s.dsfCh k).hdrOk = true) (hr : s.runs blkUBE = true)
    (hn : n < (s.dsfCh k).mapN) (hc : crc32cOk 16 e = true) (hs : spanGood (s.dsfCh k).bad (128 + 16 * n) 16 = true) :
    mapEntry k n e s = entryTaken k e s := by
  rw [mapEntry_eq, hl, hh, hr, hc, hs, decide_eq_false (by omega : ¬ (s.dsfCh k).mapN ≤ n)]
  rfl

/-- A message drawn up for a discovery window takes no grant of the frame's. -/
theorem discWindow_accepted (frame : Nat) (g : Grant) : ((discWindow k frame g s).ubeCh k).accepted = (s.ubeCh k).accepted := by
  have hshow : ∀ t : State, (ubeShow k t).ubeCh k = t.ubeCh k := fun t => by
    have hk : Kept false [.regs] [blkUBE] t (ubeShow k t) := kept_ubeShow Kept.rfl_frame (by decide) (by decide)
    unfold State.ubeCh
    rw [show (ubeShow k t).ube = t.ube from hk.frame .ube (by decide)]
  unfold discWindow
  dsimp only
  split
  · rfl
  · split
    · rfl
    · rw [hshow, ubeCh_setUbeCh]
      rfl

theorem takeGrant_accepted (frame : Nat) (g : Grant) : ((takeGrant k frame g s).ubeCh k).accepted = (s.ubeCh k).accepted ++ [g] := by
  have h : ((s.setUbeCh k { s.ubeCh k with accepted := (s.ubeCh k).accepted ++ [g] }).ubeCh k).accepted = (s.ubeCh k).accepted ++ [g] :=
    congrArg UbeCh.accepted (ubeCh_setUbeCh s k _)
  unfold takeGrant
  dsimp only
  split
  · rw [discWindow_accepted, h]
  · exact h

/-- MAP_ENTRY, a readable entry by its judgement. -/
theorem entryTaken_rows :
    (judge s k (grantOf e) = .ignored → entryTaken k e s = s) ∧
    (judge s k (grantOf e) = .discarded →
      (entryTaken k e s).rd (UBE_CH_CNT0_GRANT_BAD k) = satAdd (UBE_CH_CNT0_GRANT_BAD k).w (s.rd (UBE_CH_CNT0_GRANT_BAD k)) 1 ∧
      OnlyRegs [(UBE_CH_CNT0 k).addr] s (entryTaken k e s)) ∧
    (judge s k (grantOf e) = .accepted → ((entryTaken k e s).ubeCh k).accepted = (s.ubeCh k).accepted ++ [grantOf e]) := by
  unfold entryTaken
  refine ⟨fun h => by rw [h], fun h => ?_, fun h => ?_⟩ <;> rw [h]
  · exact ⟨rd_inc_same _ le_of_eval, onlyRegs_wr onlyRegs_refl (List.mem_singleton_self _)⟩
  · exact takeGrant_accepted _ _
end

/-! ### Assemblies (R88, R89) -/

section
variable {s t : State} {k sid : Nat}

theorem asmOf_congr (h : t.dsf = s.dsf) : asmOf t k sid = asmOf s k sid := by
  unfold asmOf State.dsfCh
  rw [h]

theorem abortAsm_none (h : asmOf s k sid = none) : abortAsm k sid s = s := by
  unfold asmOf at h
  unfold abortAsm
  simp only [h]

/-- A channel of the framer with a stream's assembly aborted, its fragments counted dropped. -/
def aborted (a : Assembly) (sid : Nat) (c : DsfCh) : DsfCh :=
  { c with asm := SMap.set (fun _ => none) c.asm sid none, pm := { c.pm with fdrop := c.pm.fdrop + a.frags } }

/-- The reassembly pool has an assembly's cells back. -/
def cellsFreed (a : Assembly) (s : State) : State :=
  { s with cel := { s.cel with raUsed := s.cel.raUsed - cellCount 0 a.bytes.length false } }

theorem abortAsm_some {a : Assembly} (h : asmOf s k sid = some a) :
    abortAsm k sid s = cellsFreed a ((s.setDsfCh k (aborted a sid (s.dsfCh k))).inc (DSF_RA_CNT_ABORT k)) := by
  unfold asmOf at h
  unfold abortAsm
  simp only [h]
  rfl

theorem abortAsm_dsfCh {a : Assembly} (h : asmOf s k sid = some a) : (abortAsm k sid s).dsfCh k = aborted a sid (s.dsfCh k) := by
  rw [abortAsm_some h]
  exact dsfCh_setDsfCh s k _

theorem abortAsm_gone : asmOf (abortAsm k sid s) k sid = none := by
  cases h : asmOf s k sid
  case none => rw [abortAsm_none h, h]
  case some a =>
    unfold asmOf
    rw [abortAsm_dsfCh h]
    exact SMap.get_set_same _ _ _ _

theorem abortAsm_streamMap (n : Nat) : (abortAsm k sid s).streamMap n = s.streamMap n := by
  cases h : asmOf s k sid
  case none => rw [abortAsm_none h]
  case some a =>
    rw [abortAsm_some h]
    rfl

/-- REASSEMBLY_TIMEOUT of an assembly that is due. -/
theorem reassemblyTimeout_aborts {a : Assembly} (h : asmOf s k sid = some a) (hd : s.rd (DSF_CH_CFG_RTO k) ≤ a.ticks) :
    asmOf (reassemblyTimeout k sid s) k sid = none ∧
      ((reassemblyTimeout k sid s).dsfCh k).pm.fdrop = (s.dsfCh k).pm.fdrop + a.frags ∧
      (reassemblyTimeout k sid s).rd (DSF_RA_CNT_ABORT k) = satAdd (DSF_RA_CNT_ABORT k).w (s.rd (DSF_RA_CNT_ABORT k)) 1 ∧
      (∀ a, a ∉ [(DSF_RA_CNT k).addr] → (reassemblyTimeout k sid s).reg a = s.reg a) ∧
      Frame [.regs, .cel, .dsf] s (reassemblyTimeout k sid s) := by
  have hk : Kept false [.regs, .cel, .dsf] [blkDSF] s (reassemblyTimeout k sid s) :=
    kept_reassemblyTimeout Kept.rfl_frame (by decide) (by decide) (by decide) (by decide)
  have e : reassemblyTimeout k sid s = abortAsm k sid s := by
    have h' := h
    unfold asmOf at h'
    unfold reassemblyTimeout
    simp only [h', hd, ↓reduceIte]
  rw [e] at hk ⊢
  refine ⟨abortAsm_gone, by rw [abortAsm_dsfCh h]; rfl, ?_, fun x hx => ?_, hk.frame⟩
  · rw [abortAsm_some h, cellsFreed, rd_mk, rd_inc_same _ le_of_eval, rd_setDsfCh]
    rfl
  · have hx : x ≠ (DSF_RA_CNT k).addr := by simpa using hx
    rw [abortAsm_some h, cellsFreed, reg_mk, reg_inc_ne (r := DSF_RA_CNT_ABORT k) _ hx, reg_setDsfCh]

/-- REASSEMBLY_TIMEOUT of no assembly, or of one that is not due. -/
theorem reassemblyTimeout_waits (h : ∀ a, asmOf s k sid = some a → a.ticks < s.rd (DSF_CH_CFG_RTO k)) : reassemblyTimeout k sid s = s := by
  unfold asmOf at h
  unfold reassemblyTimeout
  split
  · next a ha => exact if_neg (by have := h a ha; omega)
  · rfl

theorem streamTouched_gone : asmOf (streamTouched k sid s) k sid = none := by
  have hk : Kept false [.regs, .cel, .sch, .pipes, .spc] [blkSPC, blkCEL] (abortAsm k sid s) (streamTouched k sid s) :=
    kept_squashStream Kept.rfl_frame (by decide) (by decide) (by decide) (by decide) (by decide) (by decide) (by decide)
  exact (asmOf_congr (hk.frame .dsf (by decide))).trans abortAsm_gone

theorem streamTouched_streamMap (n : Nat) : (streamTouched k sid s).streamMap n = s.streamMap n := by
  have hk : Kept false [.regs, .cel, .sch, .pipes, .spc] [blkSPC, blkCEL] (abortAsm k sid s) (streamTouched k sid s) :=
    kept_squashStream Kept.rfl_frame (by decide) (by decide) (by decide) (by decide) (by decide) (by decide) (by decide)
  unfold State.streamMap
  rw [show (streamTouched k sid s).dsf = (abortAsm k sid s).dsf from hk.frame .dsf (by decide)]
  exact abortAsm_streamMap n

/-- A stream's assembly replaced: it, the delineator's place, and the cells of the pool. -/
theorem setAsm_shows (a : Option Assembly) (h : asmOf s k sid = none) : asmOf (setAsm k sid a s) k sid = a ∧
    ((setAsm k sid a s).dsfCh k).pos = (s.dsfCh k).pos ∧
    (setAsm k sid a s).cel.raUsed = s.cel.raUsed + a.elim 0 fun y => cellCount 0 y.bytes.length false := by
  have hc : (setAsm k sid a s).dsfCh k = { s.dsfCh k with asm := SMap.set (fun _ => none) (s.dsfCh k).asm sid a } := dsfCh_setDsfCh s k _
  refine ⟨?_, by rw [hc], ?_⟩
  · unfold asmOf
    rw [hc]
    exact SMap.get_set_same _ _ _ _
  · unfold setAsm
    rw [h]
    rfl
end

/-! ### Fragments (R82 to R87) -/

section
variable {s : State} {k w ctx : Nat} {info : Bytes} {busy : Bool} {x : Checks}

/-- The delineator has moved on. -/
def movedTo (k p : Nat) (s : State) : State := s.setDsfCh k { s.dsfCh k with pos := p }

theorem movedTo_dsfCh (p : Nat) : (movedTo k p s).dsfCh k = { s.dsfCh k with pos := p } := dsfCh_setDsfCh s k _

theorem frameWord_here (p : Nat) (h : 8 ≤ info.length) : frameWord info p p = some (wordAt info 0).toNat := by
  unfold frameWord
  rw [if_pos ⟨le_rfl, by omega⟩, Nat.sub_self]

/-- The delineator at a readable header takes its fragment. -/
theorem fragmentStep_reads (h : AtFragment k info w s) : fragmentStep k info busy x s = readableFragment k (s.dsfCh k).pos w info busy x s := by
  obtain ⟨hlive, hpos, hbad, hlen, hw, hhec, -, hocc, -, hv⟩ := h
  have hgo : (!(s.dsfCh k).live || decide (frameEnd ≤ (s.dsfCh k).pos) || !verdictsGiven s k (s.dsfCh k).pos info.length) = false := by
    rw [hlive, hv, decide_eq_false (by omega)]
    rfl
  have hgiven : (hecOk w && decide (min ((s.dsfCh k).pos + occupancy w) frameEnd - (s.dsfCh k).pos ≤ info.length)) = true := by
    rw [hhec, decide_eq_true (by omega)]
    rfl
  unfold fragmentStep
  simp only [hgo, hbad, frameWord_here _ hlen, ← hw, hgiven, Bool.false_eq_true, ↓reduceIte]

/-- An idle fragment and one of a stream that is not the terminal's move the delineator on. -/
theorem readableFragment_skips {pos : Nat} (hend : pos + occupancy w ≤ frameEnd) (hspan : spanGood (s.dsfCh k).bad pos (occupancy w) = true)
    (h : hdrSid w = 0xFFFF ∨ streamOf s k (hdrSid w) = none) : readableFragment k pos w info busy x s = movedTo k (pos + occupancy w) s := by
  unfold readableFragment
  simp only [hspan, Bool.not_true, Bool.false_eq_true, if_neg (show ¬ frameEnd < pos + occupancy w by omega), ↓reduceIte]
  by_cases hi : hdrSid w = 0xFFFF
  · rw [if_pos hi]
    rfl
  · rw [if_neg hi, h.resolve_left hi]
    rfl

/-- No word inverted, and none to be: what is checked is as it was. -/
theorem checkPacket_clean {src unit : Nat} {l : Bytes} (hf : x.flips = []) (hi : injArmed src x.idx.toNat s = false) :
    checkPacket src unit x l s = (l, false, s) := if_pos ⟨hf, by rw [hi]; exact Bool.false_ne_true⟩

theorem readableFragment_packet {pos : Nat} (hend : pos + occupancy w ≤ frameEnd)
    (hspan : spanGood (s.dsfCh k).bad pos (occupancy w) = true) (hf : x.flips = []) (hi : injArmed blkDSF x.idx.toNat s = false)
    (hs : hdrSid w ≠ 0xFFFF) (hm : streamOf s k (hdrSid w) = some ctx) (ht : (s.streamCtx ctx).type = 0) :
    readableFragment k pos w info busy x s =
      packetFragment k pos w ctx (slice info 8 (hdrPlen w)) false busy (movedTo k (pos + occupancy w) s) := by
  have ht' : ((movedTo k (pos + occupancy w) s).streamCtx ctx).type = 0 := ht
  unfold movedTo at ht'
  unfold readableFragment
  simp only [hspan, Bool.not_true, Bool.false_eq_true, if_neg (show ¬ frameEnd < pos + occupancy w by omega), ↓reduceIte, hs, hm,
    checkPacket_clean hf hi, ht', zero_ne_one]
  rfl

/-- The assembly that a first fragment in clear opens. -/
def opened (k pos : Nat) (payload : Bytes) (s : State) : Assembly :=
  ⟨payload, 0, 1, (s.dsfCh k).since, arrival s k pos, (s.dsfCh k).fc, pos, false⟩

theorem fragForbidden_clear {c : StreamCtx} (he : c.reqEnc = false) (hk : hdrKi w = 0) (hp : 0 < hdrPlen w) : fragForbidden c w = false := by
  have hn : (hdrPlen w == 0) = false := beq_eq_false_iff_ne.2 (by omega)
  unfold fragForbidden
  rw [he, hk, hn]
  rfl

/-- A first fragment in clear that its context and the pool allow opens an assembly. -/
theorem packetFragment_opens {pos : Nat} {payload : Bytes} (he : (s.streamCtx ctx).reqEnc = false) (hk : hdrKi w = 0) (hp : 0 < hdrPlen w)
    (hfirst : hdrFirst w = true) (hseq : hdrFseq w = 0) (hlast : hdrLast w = false)
    (htwin : (s.spcCh k).twins.contains ((s.dsfCh k).fc, pos) = false) (hasm : asmOf s k (hdrSid w) = none)
    (hmax : payload.length ≤ (s.streamCtx ctx).maxpkt) (hpool : s.cel.raUsed + cellCount 0 payload.length false ≤ s.rd CEL_POOL_RA_RA) :
    packetFragment k pos w ctx payload false busy s = setAsm k (hdrSid w) (some (opened k pos payload s)) s := by
  have hplain : fragPlain .lineDs true k (s.dsfCh k).fc pos w (s.streamCtx ctx) payload s = (some payload, s) := if_pos hk
  have hroom : ¬ s.rd CEL_POOL_RA_RA < s.cel.raUsed + (cellCount 0 payload.length false - cellCount 0 ([] : Bytes).length false) := by omega
  have hfit : ¬ (s.streamCtx ctx).maxpkt < ([] : Bytes).length + payload.length := by
    rw [List.length_nil]
    omega
  unfold packetFragment
  simp only [htwin, fragForbidden_clear he hk hp, hplain, hfirst, hseq, hlast, abortAsm_none hasm, hfit, hroom, List.nil_append,
    Bool.false_eq_true, ↓reduceIte, ne_eq, not_true_eq_false, and_false, Bool.not_true, Bool.false_and, Bool.or_self, opened, Nat.zero_add]

/-- FRAGMENT of an idle or a foreign stream. -/
theorem fragment_skips (h : AtFragment k info w s) (hs : hdrSid w = 0xFFFF ∨ streamOf s k (hdrSid w) = none) :
    (fragmentStep k info busy x s).dsfCh k = { s.dsfCh k with pos := (s.dsfCh k).pos + occupancy w } ∧
      Frame [.dsf] s (fragmentStep k info busy x s) := by
  have hk : Kept false [.dsf] ([] : List Nat) s (movedTo k ((s.dsfCh k).pos + occupancy w) s) := kept_st_setDsfCh Kept.rfl_frame (by decide)
  have e := fragmentStep_reads (busy := busy) (x := x) h
  obtain ⟨-, -, -, -, -, -, hend, -, hspan, -⟩ := h
  rw [e, readableFragment_skips hend hspan hs]
  exact ⟨movedTo_dsfCh _, hk.frame⟩

/-- FRAGMENT, the first of a packet in clear. -/
theorem fragment_opens (h : AtFragment k info w s) (hf : x.flips = []) (hi : injArmed blkDSF x.idx.toNat s = false)
    (hs : hdrSid w ≠ 0xFFFF) (hm : streamOf s k (hdrSid w) = some ctx) (ht : (s.streamCtx ctx).type = 0)
    (he : (s.streamCtx ctx).reqEnc = false) (hk : hdrKi w = 0) (hp : 0 < hdrPlen w) (hfirst : hdrFirst w = true) (hseq : hdrFseq w = 0)
    (hlast : hdrLast w = false) (htwin : (s.spcCh k).twins.contains ((s.dsfCh k).fc, (s.dsfCh k).pos) = false)
    (hasm : asmOf s k (hdrSid w) = none) (hmax : (slice info 8 (hdrPlen w)).length ≤ (s.streamCtx ctx).maxpkt)
    (hpool : s.cel.raUsed + cellCount 0 (slice info 8 (hdrPlen w)).length false ≤ s.rd CEL_POOL_RA_RA) :
    asmOf (fragmentStep k info busy x s) k (hdrSid w) = some (opened k (s.dsfCh k).pos (slice info 8 (hdrPlen w)) s) ∧
      ((fragmentStep k info busy x s).dsfCh k).pos = (s.dsfCh k).pos + occupancy w ∧
      (fragmentStep k info busy x s).cel.raUsed = s.cel.raUsed + cellCount 0 (slice info 8 (hdrPlen w)).length false ∧
      Frame [.cel, .dsf] s (fragmentStep k info busy x s) := by
  have e := fragmentStep_reads (busy := busy) (x := x) h
  obtain ⟨-, -, -, -, -, -, hend, -, hspan, -⟩ := h
  rw [readableFragment_packet hend hspan hf hi hs hm ht] at e
  generalize hq : (s.dsfCh k).pos + occupancy w = q at e ⊢
  have hc := movedTo_dsfCh (k := k) (s := s) q
  have hasm' : asmOf (movedTo k q s) k (hdrSid w) = none := by
    unfold asmOf at hasm ⊢
    rwa [hc]
  have hopen : opened k (s.dsfCh k).pos (slice info 8 (hdrPlen w)) (movedTo k q s) = opened k (s.dsfCh k).pos (slice info 8 (hdrPlen w)) s := by
    unfold opened
    rw [hc]
    rfl
  have hpool' : (movedTo k q s).cel.raUsed + cellCount 0 (slice info 8 (hdrPlen w)).length false ≤ (movedTo k q s).rd CEL_POOL_RA_RA := by
    unfold movedTo
    rw [rd_setDsfCh]
    exact hpool
  rw [packetFragment_opens (s := movedTo k q s) he hk hp hfirst hseq hlast (by rw [hc]; exact htwin) hasm' hmax hpool', hopen] at e
  obtain ⟨h1, h2, h3⟩ := setAsm_shows (some (opened k (s.dsfCh k).pos (slice info 8 (hdrPlen w)) s)) hasm'
  have hkept : Kept false [.cel, .dsf] ([] : List Nat) s (setAsm k (hdrSid w) (some (opened k (s.dsfCh k).pos (slice info 8 (hdrPlen w)) s)) (movedTo k q s)) :=
    kept_setAsm (kept_st_setDsfCh Kept.rfl_frame (by decide)) (by decide) (by decide)
  rw [e]
  exact ⟨h1, h2.trans (congrArg DsfCh.pos hc), h3, hkept.frame⟩
end

/-! ### DSF's tables (R97) -/

theorem regionOf_dsf {a : Nat} (h : blkOf a = blkDSF) : regionOf a = .regs := by
  have h' : a / 0x1000000 = 9 := h
  exact if_pos (by omega)

theorem blockWrite_dsf {l a : Nat} {v : Word} {o s : State} (h : blkOf a = blkDSF) : blockWrite l a v o s = dsfWrite a v o s := by
  unfold blockWrite
  rw [h]
  rfl

/-- The row of DSF_IND_CMD. -/
def rowDsfIndCmd : RegRow :=
  ⟨0x9, 0x9100000, 1, 0x20, 1, 8, 0x0,
    [⟨63, 1, .w1s, 0, 1⟩, ⟨62, 1, .w1c, 0, 1⟩, ⟨61, 1, .rw, 0, 1⟩, ⟨56, 2, .rw, 0, 3⟩, ⟨0, 20, .rw, 0, 1048575⟩]⟩

theorem regRow_dsfIndCmd : regRow? DSF_IND_CMD.addr = some rowDsfIndCmd := by decide +kernel

theorem bankOf_dsfIndCmd : bankOf DSF_IND_CMD.addr ≠ some DSF_IND_CMD.addr := by decide +kernel

section
variable {i : Initiator} {v : Word} {m : Nat} {s t : State}

theorem dsfGo_go : inField (dsfGo v m) DSF_IND_CMD_GO = 1 := by
  rw [dsfGo, inField_withField_disj _ _ (by decide) (by decide) (by decide), inField_withField_same _ _ (by decide) (by decide)]

theorem dsfGo_rd (h : m < 2) : inField (dsfGo v m) DSF_IND_CMD_RD = m := inField_withField_same _ _ (by decide) h

theorem dsfGo_other {q : RF} (h : q.lo + q.w ≤ 61) : inField (dsfGo v m) q = inField v q := by
  have e : DSF_IND_CMD_GO.lo = 63 ∧ DSF_IND_CMD_GO.w = 1 ∧ DSF_IND_CMD_RD.lo = 61 ∧ DSF_IND_CMD_RD.w = 1 := by decide
  obtain ⟨h1, h2, h3, h4⟩ := e
  rw [dsfGo, inField_withField_disj _ _ (by decide) (by omega) (by omega), inField_withField_disj _ _ (by decide) (by omega) (by omega)]

/-- The state in which an access through DSF_IND_CMD is carried out. -/
def dsfStored (i : Initiator) (v : Word) (m : Nat) (s : State) : State := storedBy i DSF_IND_CMD.addr rowDsfIndCmd (dsfGo v m) s

theorem dsfStored_table : (dsfStored i v m s).rd DSF_IND_CMD_TABLE = fieldOf v 56 2 :=
  (storedBy_rd_rw DSF_IND_CMD_TABLE rfl regRow_dsfIndCmd (by decide)).trans (dsfGo_other (by decide))

theorem dsfStored_index : (dsfStored i v m s).rd DSF_IND_CMD_INDEX = fieldOf v 0 20 :=
  (storedBy_rd_rw DSF_IND_CMD_INDEX rfl regRow_dsfIndCmd (by decide)).trans (dsfGo_other (by decide))

theorem dsfStored_read (h : m < 2) : (dsfStored i v m s).bit DSF_IND_CMD_RD = (m != 0) :=
  congrArg (· != 0) ((storedBy_rd_rw DSF_IND_CMD_RD rfl regRow_dsfIndCmd (by decide)).trans (dsfGo_rd h))

theorem dsfStored_kept : Kept false [.regs, .harts] [blkDSF] s (dsfStored i v m s) :=
  ⟨nofun, storedBy_kept.frame, fun _ ha => storedBy_reg_ne fun e => ha (e ▸ by decide)⟩

theorem dsfStored_dsf : (dsfStored i v m s).dsf = s.dsf := dsfStored_kept.frame .dsf (by decide)

theorem dsfDataAddr_ne (n : Nat) : (DSF_IND_DATA n).addr ≠ DSF_IND_CMD.addr := by
  show 0x9100028 + n % 4096 * 8 ≠ 0x9100020
  omega

theorem dsfStored_data (n : Nat) : dsfData (dsfStored i v m s) n = s.reg (DSF_IND_DATA n).addr := storedBy_reg_ne (dsfDataAddr_ne n)

theorem regAccess_dsfIndCmd (hA : Accepted i DSF_IND_CMD.addr (dsfGo v m) s) : regAccess i DSF_IND_CMD.addr (dsfGo v m) s =
    dsfWrite DSF_IND_CMD.addr (dsfGo v m) (hartActs i s) (dsfStored i v m s) := by
  rw [regAccess_eq hA.1 hA.2 (regionOf_dsf (by decide)) (by decide), regWrite_eq regRow_dsfIndCmd bankOf_dsfIndCmd, blockWrite_dsf (by decide),
    regStore_rw (by decide) (by decide) (by decide) (by decide), hartActs_reg]
  rfl

/-- An access that is not refused ends at once with GO 0. -/
theorem dsfInd_accepted (hA : Accepted i DSF_IND_CMD.addr (dsfGo v m) s) (hg : s.bit DSF_IND_CMD_GO = false)
    (ht : dsfAccess (dsfStored i v m s) = some t) : regAccess i DSF_IND_CMD.addr (dsfGo v m) s = t.put DSF_IND_CMD_GO false := by
  rw [regAccess_dsfIndCmd hA]
  unfold dsfWrite
  rw [if_pos ⟨rfl, dsfGo_go⟩, hartActs_bit, hg, if_neg Bool.false_ne_true, ht]

/-- One that is refused sets ERR. -/
theorem dsfInd_refused (hA : Accepted i DSF_IND_CMD.addr (dsfGo v m) s) (hg : s.bit DSF_IND_CMD_GO = false)
    (ht : dsfAccess (dsfStored i v m s) = none) : regAccess i DSF_IND_CMD.addr (dsfGo v m) s =
      ((dsfStored i v m s).put DSF_IND_CMD_GO false).put DSF_IND_CMD_ERR true := by
  rw [regAccess_dsfIndCmd hA]
  unfold dsfWrite
  rw [if_pos ⟨rfl, dsfGo_go⟩, hartActs_bit, hg, if_neg Bool.false_ne_true, ht]

/-! #### The words shown -/

/-- The words of a list shown from a data word on. -/
def showFrom (j : Nat) (l : List Nat) (s : State) : State :=
  (l.zipIdx j).foldl (fun s e => s.setReg (DSF_IND_DATA e.2).addr (BitVec.ofNat 64 e.1)) s

theorem showFrom_cons (j y : Nat) (l : List Nat) (s : State) :
    showFrom j (y :: l) s = showFrom (j + 1) l (s.setReg (DSF_IND_DATA j).addr (BitVec.ofNat 64 y)) := rfl

theorem dsfDataAddr_inj {n j : Nat} (hn : n < 4096) (hj : j < 4096) (h : n ≠ j) : (DSF_IND_DATA n).addr ≠ (DSF_IND_DATA j).addr := by
  show 0x9100028 + n % 4096 * 8 ≠ 0x9100028 + j % 4096 * 8
  omega

theorem showFrom_below {n j : Nat} {l : List Nat} (h : n < j) (hl : j + l.length ≤ 4096) (s : State) :
    (showFrom j l s).reg (DSF_IND_DATA n).addr = s.reg (DSF_IND_DATA n).addr := by
  induction l generalizing j s with
  | nil => rfl
  | cons y l ih =>
    rw [List.length_cons] at hl
    rw [showFrom_cons, ih (by omega) (by omega), reg_setReg_ne _ _ (dsfDataAddr_inj (by omega) (by omega) (by omega))]

theorem showFrom_at {n j y : Nat} {l : List Nat} (h : l[n]? = some y) (hl : j + l.length ≤ 4096) (s : State) :
    (showFrom j l s).reg (DSF_IND_DATA (j + n)).addr = BitVec.ofNat 64 y := by
  induction l generalizing j n s with
  | nil => cases h
  | cons z l ih =>
    rw [List.length_cons] at hl
    rw [showFrom_cons]
    cases n with
    | zero =>
      cases h
      rw [Nat.add_zero, showFrom_below (by omega) (by omega)]
      exact reg_setReg_same _ _ _
    | succ n =>
      rw [← ih (j := j + 1) (by simpa using h) (by omega), show j + (n + 1) = j + 1 + n by omega]

theorem dsfWords_length (s : State) (table n : Nat) : (dsfWords s table n).length ≤ 9 := by
  unfold dsfWords
  split <;> simp

theorem dsfWords_congr (h : t.dsf = s.dsf) (table n : Nat) : dsfWords t table n = dsfWords s table n := by
  unfold dsfWords State.streamMap State.streamCtx State.circuit
  rw [h]

/-! #### Reads and writes -/

/-- A read within the table's range shows the entry's words. -/
theorem dsfAccess_reads (hr : s.bit DSF_IND_CMD_RD = true) (ht : s.rd DSF_IND_CMD_TABLE < 3)
    (h1 : s.rd DSF_IND_CMD_TABLE = 1 → s.rd DSF_IND_CMD_INDEX ≤ 262143) (h2 : s.rd DSF_IND_CMD_TABLE = 2 → s.rd DSF_IND_CMD_INDEX ≤ 255) :
    dsfAccess s = some (showDsf (dsfWords s (s.rd DSF_IND_CMD_TABLE) (s.rd DSF_IND_CMD_INDEX)) s) := by
  unfold dsfAccess
  obtain h | h | h : s.rd DSF_IND_CMD_TABLE = 0 ∨ s.rd DSF_IND_CMD_TABLE = 1 ∨ s.rd DSF_IND_CMD_TABLE = 2 := by omega
  · simp only [h, hr, ↓reduceIte]
    rfl
  · simp only [h, hr, ↓reduceIte, if_neg (show ¬ 262143 < s.rd DSF_IND_CMD_INDEX by have := h1 h; omega)]
    rfl
  · simp only [h, hr, ↓reduceIte, if_neg (show ¬ 255 < s.rd DSF_IND_CMD_INDEX by have := h2 h; omega)]
    rfl

/-- A write of a map entry that adds none to a full map is stored, and touches its stream. -/
theorem dsfAccess_writesMap (hr : s.bit DSF_IND_CMD_RD = false) (ht : s.rd DSF_IND_CMD_TABLE = 0) {n : Nat} (hn : s.rd DSF_IND_CMD_INDEX = n)
    (h : fieldOf (dsfData s 0) 63 1 = 0 ∨ mapCount s (n / 65536) < 16384) :
    dsfAccess s = some (streamTouched (n / 65536) (n % 65536)
      (s.setStreamMap n ⟨fieldOf (dsfData s 0) 63 1 == 1, fieldOf (dsfData s 0) 0 18⟩)) := by
  have hfull : ((fieldOf (dsfData s 0) 63 1 == 1) && !(s.streamMap n).valid && decide (16384 ≤ mapCount s (n / 65536))) = false := by
    rcases h with h | h
    · rw [h]
      rfl
    · rw [decide_eq_false (by omega), Bool.and_false]
  unfold dsfAccess
  simp only [hr, ht, hn, hfull, Bool.false_eq_true, ↓reduceIte]

theorem dsfAccess_beyond (h : s.rd DSF_IND_CMD_TABLE = 3 ∨ (s.rd DSF_IND_CMD_TABLE = 1 ∧ 262143 < s.rd DSF_IND_CMD_INDEX) ∨
    (s.rd DSF_IND_CMD_TABLE = 2 ∧ 255 < s.rd DSF_IND_CMD_INDEX)) : dsfAccess s = none := by
  unfold dsfAccess
  rcases h with h | ⟨h, hi⟩ | ⟨h, hi⟩
  · simp only [h]
  · simp only [h, hi, ↓reduceIte]
  · simp only [h, hi, ↓reduceIte]

/-- DSF_IND_READ. -/
theorem dsfIndRead_shows (hA : Accepted i DSF_IND_CMD.addr (dsfGo v 1) s) (hg : s.bit DSF_IND_CMD_GO = false) (ht : fieldOf v 56 2 < 3)
    (h1 : fieldOf v 56 2 = 1 → fieldOf v 0 20 ≤ 262143) (h2 : fieldOf v 56 2 = 2 → fieldOf v 0 20 ≤ 255) :
    Gives (.dsfIndRead i v) s fun t =>
      (∀ n (x : Nat), (dsfWords s (fieldOf v 56 2) (fieldOf v 0 20))[n]? = some x → t.reg (DSF_IND_DATA n).addr = BitVec.ofNat 64 x) ∧
      t.bit DSF_IND_CMD_GO = false ∧ t.dsf = s.dsf ∧ RegFrame [blkDSF] s t ∧ Frame [.regs, .harts] s t := by
  have hacc := dsfAccess_reads (s := dsfStored i v 1 s) (dsfStored_read (by decide)) (by rwa [dsfStored_table])
    (by rwa [dsfStored_table, dsfStored_index]) (by rwa [dsfStored_table, dsfStored_index])
  rw [dsfStored_table, dsfStored_index, dsfWords_congr dsfStored_dsf] at hacc
  have hk : Kept false [.regs, .harts] [blkDSF] s
      ((showDsf (dsfWords s (fieldOf v 56 2) (fieldOf v 0 20)) (dsfStored i v 1 s)).put DSF_IND_CMD_GO false) :=
    kept_st_put (kept_showDsf dsfStored_kept (by decide) (by decide)) (by decide) (by decide)
  refine ⟨_, congrArg Host.Outcome.next (dsfInd_accepted hA hg hacc), fun n y hy => ?_, bit_put_same _ _ (by decide) rfl,
    hk.frame .dsf (by decide), hk.regFrame, hk.frame⟩
  rw [reg_put_ne (r := DSF_IND_CMD_GO) _ _ (dsfDataAddr_ne n)]
  have hlen := dsfWords_length s (fieldOf v 56 2) (fieldOf v 0 20)
  exact Nat.zero_add n ▸ showFrom_at (j := 0) hy (by omega) _

/-- DSF_IND_WRITE of a stream map entry. -/
theorem dsfIndWrite_map (hA : Accepted i DSF_IND_CMD.addr (dsfGo v 0) s) (hg : s.bit DSF_IND_CMD_GO = false) (ht : fieldOf v 56 2 = 0)
    (h : fieldOf (s.reg (DSF_IND_DATA 0).addr) 63 1 = 0 ∨ mapCount s (fieldOf v 0 20 / 65536) < 16384) :
    Gives (.dsfIndWrite i v) s fun t =>
      t.streamMap (fieldOf v 0 20) = ⟨fieldOf (s.reg (DSF_IND_DATA 0).addr) 63 1 == 1, fieldOf (s.reg (DSF_IND_DATA 0).addr) 0 18⟩ ∧
      asmOf t (fieldOf v 0 20 / 65536) (fieldOf v 0 20 % 65536) = none ∧ t.bit DSF_IND_CMD_GO = false ∧ t.mem = s.mem := by
  have hcount : mapCount (dsfStored i v 0 s) (fieldOf v 0 20 / 65536) = mapCount s (fieldOf v 0 20 / 65536) := by
    unfold mapCount
    rw [dsfStored_dsf]
  have hacc := dsfAccess_writesMap (s := dsfStored i v 0 s) (dsfStored_read (by decide)) (dsfStored_table.trans ht) dsfStored_index
    (by rwa [dsfStored_data, hcount])
  rw [dsfStored_data] at hacc
  generalize hu : (dsfStored i v 0 s).setStreamMap (fieldOf v 0 20) _ = u at hacc
  have hk : Kept false [.regs, .cel, .sch, .dsf, .pipes, .spc] [blkDSF, blkSPC, blkCEL] u
      (streamTouched (fieldOf v 0 20 / 65536) (fieldOf v 0 20 % 65536) u) :=
    kept_streamTouched Kept.rfl_frame (by decide) (by decide) (by decide) (by decide) (by decide) (by decide) (by decide) (by decide) (by decide)
  have hmem : u.mem = s.mem := by
    rw [← hu]
    exact (dsfStored_kept (i := i) (v := v) (m := 0) (s := s)).frame .mem (by decide)
  refine ⟨_, congrArg Host.Outcome.next (dsfInd_accepted hA hg hacc), ?_, (asmOf_congr (put_dsf _ _ _)).trans streamTouched_gone,
    bit_put_same _ _ (by decide) rfl, (hk.frame .mem (by decide)).trans hmem⟩
  refine (streamTouched_streamMap (fieldOf v 0 20)).trans ?_
  rw [← hu, streamMap_setStreamMap]

/-- DSF_IND_WRITE beyond the tables. -/
theorem dsfIndWrite_refused (hA : Accepted i DSF_IND_CMD.addr (dsfGo v 0) s) (hg : s.bit DSF_IND_CMD_GO = false)
    (h : fieldOf v 56 2 = 3 ∨ (fieldOf v 56 2 = 1 ∧ 262143 < fieldOf v 0 20) ∨ (fieldOf v 56 2 = 2 ∧ 255 < fieldOf v 0 20)) :
    Gives (.dsfIndWrite i v) s fun t =>
      t.bit DSF_IND_CMD_ERR = true ∧ t.bit DSF_IND_CMD_GO = false ∧ (∀ a, a ∉ [DSF_IND_CMD.addr] → t.reg a = s.reg a) ∧
      Frame [.regs, .harts] s t := by
  have hacc : dsfAccess (dsfStored i v 0 s) = none := dsfAccess_beyond (by rwa [dsfStored_table, dsfStored_index])
  have hk : Kept false [.regs, .harts] [blkDSF] s (((dsfStored i v 0 s).put DSF_IND_CMD_GO false).put DSF_IND_CMD_ERR true) :=
    kept_st_put (kept_st_put dsfStored_kept (by decide) (by decide)) (by decide) (by decide)
  refine ⟨_, congrArg Host.Outcome.next (dsfInd_refused hA hg hacc), bit_put_same _ _ (by decide) rfl, ?_, fun a ha => ?_, hk.frame⟩
  · rw [bit_put_other _ _ (by decide) (by decide) (by decide), bit_put_same _ _ (by decide) rfl]
  · have ha : a ≠ DSF_IND_CMD.addr := by simpa using ha
    rw [reg_put_ne (r := DSF_IND_CMD_ERR) _ _ ha, reg_put_ne (r := DSF_IND_CMD_GO) _ _ ha]
    exact storedBy_reg_ne ha
end

/-- Settles O22: each port, entry and fragment by what its operation comes to, the tables by what `dsfAccess` answers. -/
theorem framingTableRows : Obligations.FramingTableRows := by
  unfold Obligations.FramingTableRows
  refine ⟨fun p blk s hup he hr hf => ⟨_, congrArg Host.Outcome.next (if_pos hup), ohsBlock_holds he hr hf⟩,
    fun p s hup he hr => ⟨_, congrArg Host.Outcome.next (if_pos hup), ohsShort_counts he hr⟩,
    fun k n e s hup hl hh hr hn hc hs => ?_,
    fun k info busy x w s hup h hs => ⟨_, congrArg Host.Outcome.next (if_pos hup), fragment_skips h hs⟩,
    fun k info busy x w ctx s hup h hf hi hs hm ht he hk hp hfirst hseq hlast htwin hasm hmax hpool =>
      ⟨_, congrArg Host.Outcome.next (if_pos hup), fragment_opens h hf hi hs hm ht he hk hp hfirst hseq hlast htwin hasm hmax hpool⟩,
    fun k sid a s hup h hd => ⟨_, congrArg Host.Outcome.next (if_pos hup), reassemblyTimeout_aborts h hd⟩,
    fun k sid s hup h => ⟨_, congrArg Host.Outcome.next ((if_pos hup).trans (reassemblyTimeout_waits h)), rfl⟩,
    fun i v s hA hg ht h1 h2 => dsfIndRead_shows hA hg ht h1 h2, fun i v s hA hg ht h => dsfIndWrite_map hA hg ht h,
    fun i v s hA hg h => dsfIndWrite_refused hA hg h⟩
  have hk : Kept false [.regs, .free, .act, .ube] [blkACT, blkUBE] s (mapEntry k n e s) :=
    kept_mapEntry Kept.rfl_frame (by decide) (by decide) (by decide) (by decide) (by decide) (by decide)
  obtain ⟨h1, h2, h3⟩ := entryTaken_rows (s := s) (k := k) (e := e)
  rw [mapEntry_readable hl hh hr hn hc hs] at hk
  exact ⟨_, congrArg Host.Outcome.next ((if_pos hup).trans (mapEntry_readable hl hh hr hn hc hs)), h1, h2, h3, hk.regFrame, hk.frame⟩
end Sys2Proof.Machine
end

section
/-! PROOFS. The activation and ranging family (chapter 05): what the pair's machine leaves of the registers of ACT, its controls and
timers (O24), the messages that ACT takes (O25, O26), and the port orders and message queues of firmware (O27). -/

namespace Sys2Proof.Machine
open Sys2Proof.Spec

set_option Elab.async false

/-! ### The fields of a pair

The fields of a pair's window of ACT are written here as those of pair 0, so that what shares a bit with what is decided on numbers. -/

/-- Every block but ACT. -/
def offAct : List Nat := allBlocks.filter fun n => n != blkACT

/-- The field of pair `k` that stands where a field of pair 0 does. -/
def ofPair (k : Nat) (q : RF) : RF := ⟨q.addr + k % 256 * 0x10000, q.lo, q.w⟩

/-- A field of pair 0 that shares no bit with those of a list. -/
def clearOf (l : List RF) (q : RF) : Bool :=
  decide (0xA000000 ≤ q.addr ∧ q.addr < 0xA010000 ∧ q.lo + q.w ≤ 64) &&
    l.all fun r => decide (r.lo + r.w ≤ 64 ∧ (q.addr ≠ r.addr ∨ r.lo + r.w ≤ q.lo ∨ q.lo + q.w ≤ r.lo))

/-- The fields of pair `k` read as they did, but for those that share a bit with a list's. -/
def PairKept (k : Nat) (l : List RF) (o s : State) : Prop := ∀ q, clearOf l q = true → s.rd (ofPair k q) = o.rd (ofPair k q)

section
variable {k : Nat} {l l' : List RF} {o s t : State}

theorem clearOf_mono (h : ∀ r ∈ l, r ∈ l') {q : RF} (hq : clearOf l' q = true) : clearOf l q = true := by
  simp only [clearOf, Bool.and_eq_true, List.all_eq_true] at hq ⊢
  exact ⟨hq.1, fun r hr => hq.2 r (h r hr)⟩

theorem clearOf_window {q : RF} (hq : clearOf l q = true) : blkOf (ofPair k q).addr = blkACT := by
  simp only [clearOf, Bool.and_eq_true, decide_eq_true_eq] at hq
  show (q.addr + k % 256 * 0x10000) / 0x1000000 = 0xA
  omega

theorem PairKept.refl : PairKept k l s s := fun _ _ => rfl

theorem PairKept.trans (h : PairKept k l o s) (ht : PairKept k l s t) : PairKept k l o t := fun q hq => (ht q hq).trans (h q hq)

theorem PairKept.mono (h : PairKept k l o s) (hl : ∀ r ∈ l, r ∈ l') : PairKept k l' o s := fun q hq => h q (clearOf_mono hl hq)

/-- A field apart from those listed reads as it did. -/
theorem PairKept.rd (h : PairKept k l o s) (F : Nat → RF) (hF : F k = ofPair k (F 0) := by rfl) (hc : clearOf l (F 0) = true := by decide) :
    s.rd (F k) = o.rd (F k) := by
  rw [hF]
  exact h _ hc

theorem PairKept.bit (h : PairKept k l o s) (F : Nat → RF) (hF : F k = ofPair k (F 0) := by rfl) (hc : clearOf l (F 0) = true := by decide) :
    s.bit (F k) = o.bit (F k) := congrArg (· != 0) (h.rd F hF hc)

/-- What writes no register of ACT. -/
theorem PairKept.far (h : PairKept k l o s) (ht : Kept false allParts offAct s t) : PairKept k l o t :=
  h.trans fun q hq => rd_congr (ht.regFrame _ (by rw [clearOf_window hq]; decide))

theorem PairKept.sameRegs (h : PairKept k l o s) (ht : ∀ a, t.reg a = s.reg a) : PairKept k l o t := h.trans fun _ _ => rd_congr (ht _)

/-- A field of the list is written. -/
theorem PairKept.wr {F : Nat → RF} {n : Nat} (h : PairKept k l o s) (hF : F k = ofPair k (F 0) := by rfl) (hm : F 0 ∈ l := by decide) :
    PairKept k l o (s.wr (F k) n) := by
  refine h.trans fun q hq => ?_
  simp only [clearOf, Bool.and_eq_true, List.all_eq_true, decide_eq_true_eq] at hq
  obtain ⟨⟨_, _, hw⟩, hl⟩ := hq
  obtain ⟨hr, hd⟩ := hl _ hm
  rw [hF]
  refine rd_wr_other s n hr hw (hd.imp_left fun hne e => hne ?_)
  exact Nat.add_right_cancel e

theorem PairKept.put {F : Nat → RF} {b : Bool} (h : PairKept k l o s) (hF : F k = ofPair k (F 0) := by rfl) (hm : F 0 ∈ l := by decide) :
    PairKept k l o (s.put (F k) b) := h.wr hF hm

theorem PairKept.ite {c : Prop} [Decidable c] {u : State} (ht : PairKept k l o t) (hu : PairKept k l o u) :
    PairKept k l o (if c then t else u) := by
  split <;> assumption

theorem PairKept.foldl {α : Type} {f : State → α → State} (hf : ∀ s x, PairKept k l o s → PairKept k l o (f s x)) (xs : List α)
    (h : PairKept k l o s) : PairKept k l o (xs.foldl f s) := by
  induction xs generalizing s with
  | nil => exact h
  | cons x xs ih => exact ih (hf s x h)

theorem pairKept_setPair {v : ActPair} (h : PairKept k l o s) : PairKept k l o (s.setPair k v) := h.sameRegs (reg_setPair s k v)

/-! #### Operations that reach no register of ACT -/

theorem pairKept_ubeLeave (h : PairKept k l o s) : PairKept k l o (ubeLeave k s) := by
  refine h.far ?_
  apply @kept_ubeLeave
  · exact Kept.rfl_frame
  all_goals decide

theorem pairKept_dropAnnounce (h : PairKept k l o s) : PairKept k l o (dropAnnounce k s) :=
  h.far (kept_dropAnnounce Kept.rfl_frame (by decide) (by decide) (by decide))

theorem pairKept_clearStreams (h : PairKept k l o s) : PairKept k l o (clearStreams k s) := by
  refine h.far ?_
  apply @kept_clearStreams
  · exact Kept.rfl_frame
  all_goals decide

theorem pairKept_releaseContexts (h : PairKept k l o s) : PairKept k l o (releaseContexts k s) :=
  h.far (kept_releaseContexts Kept.rfl_frame (by decide))

theorem pairKept_releaseDefault (h : PairKept k l o s) : PairKept k l o (releaseDefault k s) :=
  h.far (kept_releaseDefault Kept.rfl_frame (by decide))

theorem pairKept_klnForget (h : PairKept k l o s) : PairKept k l o (klnForget k s) :=
  h.far (kept_klnForget Kept.rfl_frame (by decide) (by decide) (by decide))

theorem pairKept_lineClear (h : PairKept k l o s) : PairKept k l o (lineClear k s) := by
  refine h.far ?_
  apply @kept_lineClear
  · exact Kept.rfl_frame
  all_goals decide

theorem pairKept_lineChange {f : LineCopy → LineCopy} (h : PairKept k l o s) : PairKept k l o (lineChange k f s) :=
  h.far (kept_lineChange Kept.rfl_frame (by decide))

theorem pairKept_timPoll (h : PairKept k l o s) : PairKept k l o (timPoll s) :=
  h.far (kept_timPoll Kept.rfl_frame (by decide) (by decide) (by decide))

/-! #### A change of state -/

/-- The fields that show a change of state. -/
def stateFields : List RF := [ACT_CP_STATE_STATE 0, ACT_CP_EVT_STATE_CHG 0]

/-- The fields that a pair's oblivion writes (R102). -/
def forgetFields : List RF :=
  [ACT_CP_STATE_TN_VALID 0, ACT_CP_STATE_TN 0, ACT_CP_STATE_EQD0_V 0, ACT_CP_STATE_EQD1_V 0, ACT_CP_STATE_AUTH_SENT 0]

/-- The fields that the work of a state writes. -/
def workFields : List RF := forgetFields ++ [ACT_CP_STATE_PARAMS_OK 0, ACT_CP_STATE_HE_ID 0, ACT_CP_STATE_ANN_CNT 0]

theorem pairKept_leaveState {old new : Nat} : PairKept k stateFields s (leaveState k old new s) := by
  have h1 : PairKept k stateFields s (leaveLine k old new s) := .ite (pairKept_ubeLeave .refl) .refl
  have h2 : PairKept k stateFields s (leaveAnnounce k old new (leaveLine k old new s)) := .ite (pairKept_dropAnnounce h1) h1
  have h3 : PairKept k stateFields s (noteState k old new (leaveAnnounce k old new (leaveLine k old new s))) :=
    .ite (.wr (F := ACT_CP_STATE_STATE) h2) (.put (F := ACT_CP_EVT_STATE_CHG) (.wr (F := ACT_CP_STATE_STATE) h2))
  exact .ite (pairKept_setPair h3) h3

/-- The state that is entered is shown. -/
theorem leaveState_state {old new : Nat} (hn : new < 8) : pairState (leaveState k old new s) k = new := by
  have hwr : ∀ u : State, (u.wr (ACT_CP_STATE_STATE k) new).rd (ACT_CP_STATE_STATE k) = new := fun u =>
    (rd_wr_same u new le_of_eval).trans (Nat.mod_eq_of_lt hn)
  have hnote : ∀ u : State, pairState (noteState k old new u) k = new := fun u => by
    unfold noteState pairState
    split
    · exact hwr u
    · exact (PairKept.rd (.put (F := ACT_CP_EVT_STATE_CHG) (l := [ACT_CP_EVT_STATE_CHG 0]) .refl) ACT_CP_STATE_STATE).trans (hwr u)
  unfold leaveState forgetWaits
  split
  · exact (rd_setPair _ _ _ _).trans (hnote _)
  · exact hnote _

theorem pairKept_forgetPair : PairKept k forgetFields s (forgetPair k s) := by
  unfold forgetPair
  exact pairKept_setPair (.put (F := ACT_CP_STATE_AUTH_SENT) (.put (F := ACT_CP_STATE_EQD1_V) (.put (F := ACT_CP_STATE_EQD0_V)
    (.wr (F := ACT_CP_STATE_TN) (.put (F := ACT_CP_STATE_TN_VALID) .refl)))))

/-- A pair that is forgotten has no terminal number. -/
theorem forgetPair_tnValid : (forgetPair k s).bit (ACT_CP_STATE_TN_VALID k) = false := by
  have h : PairKept k forgetFields.tail (s.put (ACT_CP_STATE_TN_VALID k) false) (forgetPair k s) := by
    unfold forgetPair
    exact pairKept_setPair (.put (F := ACT_CP_STATE_AUTH_SENT) (.put (F := ACT_CP_STATE_EQD1_V) (.put (F := ACT_CP_STATE_EQD0_V)
      (.wr (F := ACT_CP_STATE_TN) .refl))))
  exact (h.bit ACT_CP_STATE_TN_VALID).trans (bit_put_same _ _ le_of_eval rfl)

/-- The pair is forgotten, with its streams, contexts, keys and line values. -/
def forgotten (k : Nat) (s : State) : State :=
  lineClear k (klnForget k (releaseContexts k (clearStreams k (forgetPair k (timersOff k s)))))

theorem becomeIdle_eq (new : Nat) : becomeIdle k new s =
    if new = 0 then
      ((forgotten k s).put (ACT_CP_STATE_PARAMS_OK k) false).setPair k
        { ((forgotten k s).put (ACT_CP_STATE_PARAMS_OK k) false).pair k with mseq := [], heCand := none }
    else forgotten k s := rfl

theorem pairKept_forgotten : PairKept k l (forgetPair k (timersOff k s)) (forgotten k s) :=
  pairKept_lineClear (pairKept_klnForget (pairKept_releaseContexts (pairKept_clearStreams .refl)))

theorem pairKept_becomeIdle {new : Nat} : PairKept k workFields s (becomeIdle k new s) := by
  have h : PairKept k workFields s (forgotten k s) :=
    PairKept.trans (pairKept_setPair .refl) ((pairKept_forgetPair.mono (by decide)).trans pairKept_forgotten)
  rw [becomeIdle_eq]
  exact .ite (pairKept_setPair (h.put (F := ACT_CP_STATE_PARAMS_OK))) h

theorem becomeIdle_tnValid {new : Nat} : (becomeIdle k new s).bit (ACT_CP_STATE_TN_VALID k) = false := by
  have h : (forgotten k s).bit (ACT_CP_STATE_TN_VALID k) = false :=
    ((pairKept_forgotten (l := [])).bit ACT_CP_STATE_TN_VALID).trans forgetPair_tnValid
  have hp : PairKept k [ACT_CP_STATE_PARAMS_OK 0] (forgotten k s) (becomeIdle k new s) := by
    rw [becomeIdle_eq]
    exact .ite (pairKept_setPair (.put (F := ACT_CP_STATE_PARAMS_OK) .refl)) .refl
  exact (hp.bit ACT_CP_STATE_TN_VALID).trans h

/-- Initial: the parameters are not known. -/
theorem becomeIdle_params : (becomeIdle k 0 s).bit (ACT_CP_STATE_PARAMS_OK k) = false := by
  rw [becomeIdle_eq, if_pos rfl, bit_setPair]
  exact bit_put_same _ _ le_of_eval rfl

/-- The fields that the work of the state that listens writes. -/
def listenFields : List RF := [ACT_CP_STATE_HE_ID 0, ACT_CP_STATE_TN_VALID 0, ACT_CP_STATE_TN 0]

theorem pairKept_becomeListening {old : Nat} : PairKept k listenFields s (becomeListening k old s) := by
  unfold becomeListening
  have h : PairKept k listenFields s
      (timersOff k (s.wr (ACT_CP_STATE_HE_ID k) (s.pair k).heLast)) := pairKept_setPair (.wr (F := ACT_CP_STATE_HE_ID) .refl)
  refine .ite (pairKept_lineChange (pairKept_setPair h)) (.ite ?_ (pairKept_setPair h))
  exact pairKept_lineClear (pairKept_setPair (pairKept_releaseDefault
    (.wr (F := ACT_CP_STATE_TN) (.put (F := ACT_CP_STATE_TN_VALID) (pairKept_setPair h)))))

/-- A pair that leaves Ranging for Listening has no terminal number. -/
theorem becomeListening_tnValid : (becomeListening k 3 s).bit (ACT_CP_STATE_TN_VALID k) = false := by
  unfold becomeListening
  rw [if_neg (by decide), if_pos rfl]
  exact (PairKept.bit (l := [ACT_CP_STATE_TN 0]) (pairKept_lineClear (pairKept_setPair (pairKept_releaseDefault
    (.wr (F := ACT_CP_STATE_TN) .refl)))) ACT_CP_STATE_TN_VALID).trans (bit_put_same _ _ le_of_eval rfl)

/-- The fields that the work of the states that speak writes. -/
def speakFields : List RF := [ACT_CP_STATE_ANN_CNT 0, ACT_CP_STATE_AUTH_SENT 0]

theorem pairKept_becomeSpeaking {new : Nat} : PairKept k speakFields s (becomeSpeaking k new s) := by
  have ht : PairKept k speakFields s (timersOff k s) := pairKept_setPair .refl
  unfold becomeSpeaking
  refine .ite (pairKept_lineChange (pairKept_setPair (.wr (F := ACT_CP_STATE_ANN_CNT) .refl))) (.ite ?_ (.ite ?_ (pairKept_setPair ht)))
  · exact pairKept_lineChange (pairKept_setPair (ht.put (F := ACT_CP_STATE_AUTH_SENT)))
  · exact pairKept_lineChange (ht.sameRegs (reg_setTimLine _ _ _))

/-- The work of a state leaves its number alone, and all that no state's work writes. -/
theorem enterState_work (k new : Nat) (s : State) : PairKept k workFields (leaveState k (pairState s k) new s) (enterState k new s) := by
  rw [enterState_eq]
  exact .ite pairKept_becomeIdle (.ite (pairKept_becomeListening.mono (by decide)) (pairKept_becomeSpeaking.mono (by decide)))

/-- The fields that the pair's machine writes. -/
def machineFields : List RF := stateFields ++ workFields

theorem pairKept_enterState {new : Nat} (h : PairKept k machineFields o s) : PairKept k machineFields o (enterState k new s) :=
  h.trans ((pairKept_leaveState.mono (by decide)).trans ((enterState_work k new s).mono (by decide)))

theorem enterState_state {new : Nat} (hn : new < 8) : pairState (enterState k new s) k = new :=
  ((enterState_work k new s).rd ACT_CP_STATE_STATE).trans (leaveState_state hn)

/-- Initial, Stopped and Silenced have no terminal number. -/
theorem enterState_idle_tnValid {new : Nat} (h : new = 0 ∨ new = 6 ∨ new = 7) :
    (enterState k new s).bit (ACT_CP_STATE_TN_VALID k) = false := by
  rw [enterState_eq, if_pos h]
  exact becomeIdle_tnValid

theorem enterState_initial_params : (enterState k 0 s).bit (ACT_CP_STATE_PARAMS_OK k) = false := by
  rw [enterState_eq, if_pos (Or.inl rfl)]
  exact becomeIdle_params

/-- What Listening leaves as it is. -/
theorem enterState_listening : PairKept k (stateFields ++ listenFields) s (enterState k 1 s) := by
  rw [enterState_eq, if_neg (by decide), if_pos rfl]
  exact (pairKept_leaveState.mono (by decide)).trans (pairKept_becomeListening.mono (by decide))

theorem enterState_listening_tnValid (h : pairState s k = 3) : (enterState k 1 s).bit (ACT_CP_STATE_TN_VALID k) = false := by
  rw [enterState_eq, if_neg (by decide), if_pos rfl, h]
  exact becomeListening_tnValid

/-- What Announcing, Ranging, Operating and Intermittent leave as it is. -/
theorem enterState_speaking {new : Nat} (h : new ∈ [2, 3, 4, 5]) : PairKept k (stateFields ++ speakFields) s (enterState k new s) := by
  have hne : ¬ (new = 0 ∨ new = 6 ∨ new = 7) ∧ new ≠ 1 := by
    simp only [List.mem_cons, List.not_mem_nil, or_false] at h
    omega
  rw [enterState_eq, if_neg hne.1, if_neg hne.2]
  exact (pairKept_leaveState.mono (by decide)).trans (pairKept_becomeSpeaking.mono (by decide))
end

/-! ### The conditions of a pair (Table 5.1) -/

section
variable {k : Nat} {o s t u : State}

/-- Announcing, Ranging, Operating and Stopped wait for an event. -/
theorem pollOnce_waits (h : pairState s k ∈ [2, 3, 4, 6]) : pollOnce k s = s := by
  simp only [List.mem_cons, List.not_mem_nil, or_false] at h
  unfold pollOnce
  dsimp only
  rw [if_neg (fun hc => by omega), if_neg (fun hc => by omega), if_neg (fun hc => by omega), if_neg (fun hc => by omega),
    if_neg (fun hc => by omega)]

/-- Initial waits for EN and for the frame alignment. -/
theorem pollOnce_initial (h : pairState s k = 0) (hw : s.bit (ACT_CP_CTL_EN k) = false ∨ inSync s k = false) : pollOnce k s = s := by
  unfold pollOnce
  dsimp only
  rw [h, if_neg ?_, if_neg (fun hc => absurd hc.1 (by decide)), if_neg (fun hc => absurd hc.1 (by decide)),
    if_neg (fun hc => absurd hc.1 (by decide)), if_neg (fun hc => absurd hc.1 (by decide))]
  rintro ⟨-, he, hs⟩
  rcases hw with hw | hw
  · exact Bool.false_ne_true (hw.symm.trans he)
  · exact Bool.false_ne_true (hw.symm.trans hs)

/-- A pair that is enabled, in SYNC and not shut down goes on to Listening. -/
theorem pollOnce_listens (h : pairState s k = 0) (he : s.bit (ACT_CP_CTL_EN k) = true) (hs : inSync s k = true)
    (hc : s.bit (ACT_CP_STATE_CHP_SIL k) = false) : pollOnce k s = enterState k 1 s := by
  unfold pollOnce
  dsimp only
  rw [if_pos ⟨h, he, hs⟩, if_neg (by rw [hc]; exact Bool.false_ne_true)]

/-- Listening waits for the parameters where nothing disables it. -/
theorem pollOnce_listening (h : pairState s k = 1) (hd : disabled s k = false) (hp : s.bit (ACT_CP_STATE_PARAMS_OK k) = false) :
    pollOnce k s = s := by
  unfold pollOnce
  dsimp only
  rw [h, hd, hp, if_neg (fun hc => absurd hc.1 (by decide)), if_neg (fun hc => absurd hc.2 Bool.false_ne_true),
    if_neg (fun hc => absurd hc.2.1 Bool.false_ne_true), if_neg (fun hc => absurd hc.1 (by decide)),
    if_neg (fun hc => absurd hc.1 (by decide))]

/-- Silenced waits while the pair is disabled. -/
theorem pollOnce_silenced (h : pairState s k = 7) (hd : disabled s k = true) : pollOnce k s = s := by
  unfold pollOnce
  dsimp only
  rw [h, if_neg (fun hc => absurd hc.1 (by decide)), if_neg (fun hc => absurd hc.1 (by decide)), if_neg (fun hc => absurd hc.1 (by decide)),
    if_neg (fun hc => absurd hc.1 (by decide)), if_neg (fun hc => absurd hd hc.2.1)]

theorem pairKept_pollOnce (h : PairKept k machineFields o s) : PairKept k machineFields o (pollOnce k s) := by
  unfold pollOnce
  exact .ite (.ite (pairKept_enterState h) (pairKept_enterState h)) (.ite (pairKept_enterState h) (.ite (pairKept_enterState h)
    (.ite (.ite (pairKept_enterState h) (pairKept_enterState h)) (.ite (pairKept_enterState h) h))))

/-! ### Answers and what they leave

An answer to a message, at once or when its key slots are complete, touches the pair's queue and what it remembers of messages. -/

/-- From `o` to `s` pair `k` has recorded and queued messages, and nothing else of it or of the device has changed but what TIM and KLN
show and the pair in use for time. -/
structure Answered (k : Nat) (o s : State) : Prop where
  kept : Kept false [.regs, .act, .tim] [blkACT, blkKLN, blkTIM] o s
  fields : PairKept k [ACT_CP_EVT_UQ_OVF 0] o s
  pair : s.pair k = { o.pair k with
    msgq := (s.pair k).msgq, mseq := (s.pair k).mseq, last := (s.pair k).last, keyWaits := (s.pair k).keyWaits }
  act : s.act = { o.act with pairs := s.act.pairs }
  line : s.tim.line = o.tim.line

theorem Answered.refl : Answered k s s := ⟨Kept.rfl_frame, .refl, rfl, rfl, rfl⟩

theorem kept_trans {kl : List Part} {bl : List Nat} (h : Kept false kl bl o s) (ht : Kept false kl bl s t) : Kept false kl bl o t :=
  ⟨nofun, frame_trans h.frame ht.frame, fun a ha => (ht.regFrame a ha).trans (h.regFrame a ha)⟩

theorem Answered.trans (h : Answered k o s) (ht : Answered k s t) : Answered k o t where
  kept := kept_trans h.kept ht.kept
  fields := h.fields.trans ht.fields
  pair := by rw [ht.pair, h.pair]
  act := by rw [ht.act, h.act]
  line := ht.line.trans h.line

theorem Answered.ite {c : Prop} [Decidable c] (hs : Answered k o s) (ht : Answered k o t) : Answered k o (if c then s else t) := by
  split <;> assumption

theorem Answered.foldl {α : Type} {f : State → α → State} (hf : ∀ s x, Answered k s (f s x)) (xs : List α) : Answered k s (xs.foldl f s) := by
  induction xs generalizing s with
  | nil => exact .refl
  | cons x xs ih => exact (hf s x).trans ih

/-- The pair's queue and memory of messages are replaced. -/
theorem answered_setPair {q : List Bytes} {n : SMap Nat} {l : SMap (Option LastMsg)} {w : List KeyWait} :
    Answered k s (s.setPair k { s.pair k with msgq := q, mseq := n, last := l, keyWaits := w }) where
  kept := kept_st_setPair Kept.rfl_frame (by decide)
  fields := pairKept_setPair .refl
  pair := by rw [pair_setPair]
  act := rfl
  line := rfl

theorem answered_overflow : Answered k s (s.put (ACT_CP_EVT_UQ_OVF k) true) where
  kept := kept_st_put Kept.rfl_frame (by decide) (blk_n (by decide) (by decide) (by decide))
  fields := .put (F := ACT_CP_EVT_UQ_OVF) .refl
  pair := rfl
  act := rfl
  line := rfl

/-- A refusal of KEY_CONTROL is counted in KLN. -/
theorem answered_refusal : Answered k s (s.inc KLN_CNT_KC_REJ) where
  kept := kept_st_inc Kept.rfl_frame (by decide) (by decide)
  fields := .far .refl (kept_st_inc Kept.rfl_frame (by decide) (by decide))
  pair := rfl
  act := rfl
  line := rfl

theorem timPoll_line : (timPoll s).tim.line = s.tim.line := by
  unfold timPoll servoHold
  dsimp only
  split
  · rfl
  · split
    · split <;> rfl
    · rfl

theorem timPoll_act : (timPoll s).act = s.act :=
  (kept_timPoll (kl := [.regs, .tim]) (bl := [blkTIM]) Kept.rfl_frame (by decide) (by decide) (by decide)).frame .act (by decide)

theorem answered_timPoll : Answered k s (timPoll s) := by
  have hk : Kept false [.regs, .tim] [blkTIM] s (timPoll s) := kept_timPoll Kept.rfl_frame (by decide) (by decide) (by decide)
  refine ⟨⟨nofun, frame_mono hk.frame (by decide), fun a h => hk.regFrame a fun hm => h (List.mem_cons_of_mem _ (List.mem_cons_of_mem _ hm))⟩,
    pairKept_timPoll .refl, ?_, by rw [timPoll_act], timPoll_line⟩
  unfold State.pair
  rw [timPoll_act]

/-- The state in which a message has its number. -/
def numbered (k type : Nat) (s : State) : State := (nextSeq k type s).2

theorem queueUp_eq (k : Nat) (m : Bytes) (s : State) : queueUp k m s =
    if 16 ≤ (s.pair k).msgq.length then s.put (ACT_CP_EVT_UQ_OVF k) true
    else (numbered k (msgType m) s).setPair k { (numbered k (msgType m) s).pair k with
      msgq := (s.pair k).msgq ++ [fillMsg (ownTnum s k) (SMap.get (fun _ => 0) (s.pair k).mseq (msgType m)) m] } := by
  have hq : ((numbered k (msgType m) s).pair k).msgq = (s.pair k).msgq := by
    unfold numbered nextSeq
    dsimp only
    rw [pair_setPair]
  unfold queueUp
  dsimp only
  rw [show (nextSeq k (msgType m) s).2 = numbered k (msgType m) s from rfl, hq]
  rfl

theorem answered_queueUp {m : Bytes} : Answered k s (queueUp k m s) := by
  rw [queueUp_eq]
  exact .ite answered_overflow (.trans (s := numbered k (msgType m) s) answered_setPair answered_setPair)

theorem answered_recordMsg {m : Bytes} {r : Option Bytes} : Answered k s (recordMsg k m r s) := answered_setPair

theorem answered_sendReply {a : Addressing} {m : Bytes} {r : Reply} : Answered k s (sendReply k a m r s) := by
  unfold sendReply
  dsimp only
  split
  · exact .refl
  · exact .ite (.trans (.ite answered_refusal .refl) answered_queueUp) .refl

theorem answered_settleMsg {a : Addressing} {m : Bytes} {r : Reply} : Answered k s (settleMsg k a m r s) := by
  unfold settleMsg
  dsimp only
  exact .ite (answered_recordMsg.trans answered_sendReply) (answered_recordMsg.trans answered_setPair)

theorem answered_keyAnswer : Answered k s (keyAnswer k s) := by
  unfold keyAnswer
  refine Answered.foldl (fun t w => ?_) _
  dsimp only
  exact .ite .refl (.ite (answered_setPair.trans answered_queueUp) answered_setPair)

/-- A pair whose conditions call for no transition answers what it can. -/
theorem answered_actPoll (h : pollOnce k s = s) : Answered k s (actPoll k s) := by
  unfold actPoll
  rw [h, h, h, h]
  exact .trans (.ite answered_keyAnswer .refl) answered_timPoll

/-- One transition, after which the conditions call for none. -/
theorem answered_actPoll_once (hr : s.runs blkACT = true) (h : pollOnce k s = u) (hu : pollOnce k u = u) : Answered k u (actPoll k s) := by
  unfold actPoll
  rw [h, hu, hu, hu, if_pos hr]
  exact answered_keyAnswer.trans answered_timPoll

/-- The fields that the pair's machine writes, with the overflow of its queue. -/
def polledFields : List RF := ACT_CP_EVT_UQ_OVF 0 :: machineFields

/-- What the pair's machine leaves as it is while it judges its conditions. -/
theorem pairKept_actPoll : PairKept k polledFields s (actPoll k s) := by
  have h : PairKept k polledFields s (pollOnce k (pollOnce k (pollOnce k (pollOnce k s)))) :=
    PairKept.mono (pairKept_pollOnce (pairKept_pollOnce (pairKept_pollOnce (pairKept_pollOnce .refl)))) (by decide)
  unfold actPoll
  exact pairKept_timPoll (.ite (h.trans (answered_keyAnswer.fields.mono (by decide))) .refl)
end

/-! ### Entering Initial (R100, R102) -/

section
variable {k : Nat} {s t : State}

theorem inSync_congr (h : t.reg (DSF_SYNC k).addr = s.reg (DSF_SYNC k).addr) : inSync t k = inSync s k :=
  congrArg (· == 3) (rd_congr (q := DSF_SYNC_STATE k) h)

/-- A pair that enters Initial stays there while EN is 0 or the channel is out of SYNC, without terminal number and parameters. -/
theorem actPoll_initial (h : s.bit (ACT_CP_CTL_EN k) = false ∨ inSync s k = false) :
    pairState (actPoll k (enterState k 0 s)) k = 0 ∧ (actPoll k (enterState k 0 s)).bit (ACT_CP_STATE_PARAMS_OK k) = false ∧
      (actPoll k (enterState k 0 s)).bit (ACT_CP_STATE_TN_VALID k) = false ∧
      (actPoll k (enterState k 0 s)).bit (ACT_CP_CTL_EN k) = s.bit (ACT_CP_CTL_EN k) := by
  have hst : pairState (enterState k 0 s) k = 0 := enterState_state (by decide)
  have hen : (enterState k 0 s).bit (ACT_CP_CTL_EN k) = s.bit (ACT_CP_CTL_EN k) := (pairKept_enterState .refl).bit ACT_CP_CTL_EN
  have hsync : inSync (enterState k 0 s) k = inSync s k := inSync_congr (lineKept_enterState .refl _ sync_line)
  have hans := (answered_actPoll (pollOnce_initial hst (by rwa [hen, hsync]))).fields
  exact ⟨(hans.rd ACT_CP_STATE_STATE).trans hst, (hans.bit ACT_CP_STATE_PARAMS_OK).trans enterState_initial_params,
    (hans.bit ACT_CP_STATE_TN_VALID).trans (enterState_idle_tnValid (Or.inl rfl)), (hans.bit ACT_CP_CTL_EN).trans hen⟩
end

/-! ### Writes of ACT registers -/

theorem regionOf_act {a : Nat} (h : blkOf a = blkACT) : regionOf a = .regs := by
  have h' : a / 0x1000000 = 0xA := h
  exact if_pos (by omega)

theorem blockWrite_act {l a : Nat} {v : Word} {o s : State} (h : blkOf a = blkACT) : blockWrite l a v o s = actWrite a v o s := by
  unfold blockWrite
  rw [h]
  rfl

/-- An accepted write of a register of ACT whose fields are stored at once. -/
theorem regAccess_act {i : Initiator} {a : Nat} {v : Word} {s : State} {r : RegRow} (hA : Accepted i a v s)
    (hr : regRow? a = some r) (hk : r.plain = true) (hb : blkOf a = blkACT) (hn : bankOf a ≠ some a) :
    regAccess i a v s = actWrite a v (hartActs i s) (storedBy i a r v s) := by
  simp only [RegRow.plain, Bool.and_eq_true, Bool.not_eq_true'] at hk
  obtain ⟨⟨⟨hrw, hsx⟩, hsh⟩, hst⟩ := hk
  have hp : a ≠ TSK_POST.addr := by
    rintro rfl
    exact absurd hb (by decide)
  rw [regAccess_eq hA.1 hA.2 (regionOf_act hb) hp, regWrite_eq hr hn, blockWrite_act hb, regStore_rw hrw hsx hsh hst, hartActs_reg]
  rfl

/-! ### The controls of a pair (R100) -/

/-- The row of ACT_CP_CTL. -/
def rowCpCtl : RegRow :=
  ⟨0xA, 0xA000000, 16, 0x20, 1, 8, 0x0, [⟨3, 1, .rw, 0, 1⟩, ⟨2, 1, .rw, 0, 1⟩, ⟨1, 1, .w1s, 0, 1⟩, ⟨0, 1, .rw, 0, 1⟩]⟩

theorem regRow_cpCtl : ∀ k : Chan, regRow? (ACT_CP_CTL k).addr = some rowCpCtl := by decide +kernel

theorem bankOf_cpCtl : ∀ k : Chan, bankOf (ACT_CP_CTL k).addr ≠ some (ACT_CP_CTL k).addr := by decide +kernel

theorem blkOf_cpCtl : ∀ k : Chan, blkOf (ACT_CP_CTL k).addr = blkACT := by decide

section
variable {i : Initiator} {k : Chan} {v : Word} {s : State}

/-- The state in which the fields of ACT_CP_CTL are stored. -/
def cpCtlStored (i : Initiator) (k : Chan) (v : Word) (s : State) : State := storedBy i (ACT_CP_CTL k).addr rowCpCtl v s

theorem actWrite_cpCtl {o : State} : actWrite (ACT_CP_CTL k).addr v o s =
    if inField v (ACT_CP_CTL_EN k) = 0 ∨ inField v (ACT_CP_CTL_RESTART k) = 1 then actRestart k s else actPoll k s := by
  have hu : (ACT_CP_CTL k).addr % 0x1000000 / 0x10000 = k := (by decide : ∀ k : Chan, (ACT_CP_CTL k).addr % 0x1000000 / 0x10000 = k) k
  unfold actWrite
  dsimp only
  rw [hu, if_pos ⟨k.isLt, rfl⟩]
  rfl

/-- EN written 0, or RESTART written 1, is a restart; any other write has the pair's conditions judged. -/
theorem regAccess_cpCtl (hA : Accepted i (ACT_CP_CTL k).addr v s) : regAccess i (ACT_CP_CTL k).addr v s =
    if inField v (ACT_CP_CTL_EN k) = 0 ∨ inField v (ACT_CP_CTL_RESTART k) = 1 then actRestart k (cpCtlStored i k v s)
    else actPoll k (cpCtlStored i k v s) :=
  (regAccess_act hA (regRow_cpCtl k) rfl (blkOf_cpCtl k) (bankOf_cpCtl k)).trans actWrite_cpCtl

theorem cpCtlStored_en : (cpCtlStored i k v s).bit (ACT_CP_CTL_EN k) = (inField v (ACT_CP_CTL_EN k) != 0) :=
  congrArg (· != 0) (storedBy_rd_rw (ACT_CP_CTL_EN k) rfl (regRow_cpCtl k) (by decide : ⟨0, 1, .rw, 0, 1⟩ ∈ rowCpCtl.fields))

theorem cpCtlStored_state (q : RF) (h : q.addr = (ACT_CP_STATE k).addr) : (cpCtlStored i k v s).rd q = s.rd q := by
  refine storedBy_rd_ne ?_
  rw [h]
  exact window_ne (A := 0xA000030) (B := 0xA000020) (by decide)

theorem cpCtlStored_sync : inSync (cpCtlStored i k v s) k = inSync s k :=
  inSync_congr (storedBy_reg_ne fun h => absurd (congrArg blkOf h) (by rw [blkOf_cpCtl, blkOf_sync]; decide))

theorem cpCtlStored_runs (n : Nat) : (cpCtlStored i k v s).runs n = s.runs n := by
  unfold State.runs
  rw [cpCtlStored, storedBy_rd_ne fun h => absurd ((congrArg blkOf h).trans (blkOf_cpCtl k)) (by decide)]

/-- A write of ACT_CP_CTL that restarts the pair leaves it in Initial where that is not left at once. -/
theorem cpCtl_restarts (hA : Accepted i (ACT_CP_CTL k).addr v s) (hr : s.runs blkACT = true)
    (hc : inField v (ACT_CP_CTL_EN k) = 0 ∨ inField v (ACT_CP_CTL_RESTART k) = 1)
    (hw : inField v (ACT_CP_CTL_EN k) = 0 ∨ inSync s k = false) :
    ∃ t, regAccess i (ACT_CP_CTL k).addr v s = t ∧ t.bit (ACT_CP_CTL_EN k) = (inField v (ACT_CP_CTL_EN k) != 0) ∧ pairState t k = 0 ∧
      t.bit (ACT_CP_STATE_PARAMS_OK k) = false ∧ t.bit (ACT_CP_STATE_TN_VALID k) = false := by
  have hidle : (cpCtlStored i k v s).bit (ACT_CP_CTL_EN k) = false ∨ inSync (cpCtlStored i k v s) k = false := by
    rw [cpCtlStored_sync, cpCtlStored_en]
    exact hw.imp_left fieldBit_zero
  obtain ⟨hst, hp, ht, hen⟩ := actPoll_initial hidle
  refine ⟨actPoll k (enterState k 0 (cpCtlStored i k v s)), ?_, hen.trans cpCtlStored_en, hst, hp, ht⟩
  rw [regAccess_cpCtl hA, if_pos hc]
  exact if_pos (by rw [cpCtlStored_runs, hr])

/-- EN written 1, RESTART 0. -/
theorem regAccess_enable (hA : Accepted i (ACT_CP_CTL k).addr (withField v (ACT_CP_CTL_EN k) 1) s)
    (hr : inField v (ACT_CP_CTL_RESTART k) = 0) : regAccess i (ACT_CP_CTL k).addr (withField v (ACT_CP_CTL_EN k) 1) s =
      actPoll k (cpCtlStored i k (withField v (ACT_CP_CTL_EN k) 1) s) ∧
    (cpCtlStored i k (withField v (ACT_CP_CTL_EN k) 1) s).bit (ACT_CP_CTL_EN k) = true := by
  have hen : inField (withField v (ACT_CP_CTL_EN k) 1) (ACT_CP_CTL_EN k) = 1 := inField_withField_same v 1 le_of_eval (by decide : 1 < 2 ^ 1)
  have hre : inField (withField v (ACT_CP_CTL_EN k) 1) (ACT_CP_CTL_RESTART k) = 0 :=
    (inField_withField_disj v 1 le_of_eval le_of_eval (Or.inl le_of_eval)).trans hr
  refine ⟨?_, cpCtlStored_en.trans (by rw [hen]; rfl)⟩
  rw [regAccess_cpCtl hA, hen, hre, if_neg (by decide)]

/-- A pair that is enabled in SYNC listens. -/
theorem actEnable_listens (hA : Accepted i (ACT_CP_CTL k).addr (withField v (ACT_CP_CTL_EN k) 1) s)
    (hre : inField v (ACT_CP_CTL_RESTART k) = 0) (hr : s.runs blkACT = true) (h0 : pairState s k = 0) (hs : inSync s k = true)
    (hc : s.bit (ACT_CP_STATE_CHP_SIL k) = false) (hd : disabled s k = false) (hp : s.bit (ACT_CP_STATE_PARAMS_OK k) = false) :
    Gives (.actEnable i k v) s fun t => t.bit (ACT_CP_CTL_EN k) = true ∧ pairState t k = 1 := by
  obtain ⟨e, hen⟩ := regAccess_enable hA hre
  refine ⟨_, congrArg Host.Outcome.next e, ?_⟩
  have hstate : ∀ q : RF, q.addr = (ACT_CP_STATE k).addr →
      (cpCtlStored i k (withField v (ACT_CP_CTL_EN k) 1) s).bit q = s.bit q := fun q hq => congrArg (· != 0) (cpCtlStored_state q hq)
  have h0' := (cpCtlStored_state (i := i) (v := withField v (ACT_CP_CTL_EN k) 1) (s := s) (ACT_CP_STATE_STATE k) rfl).trans h0
  have hs' := (cpCtlStored_sync (i := i) (k := k) (v := withField v (ACT_CP_CTL_EN k) 1) (s := s)).trans hs
  have hr' := (cpCtlStored_runs (i := i) (k := k) (v := withField v (ACT_CP_CTL_EN k) 1) (s := s) blkACT).trans hr
  have hc' := (hstate (ACT_CP_STATE_CHP_SIL k) rfl).trans hc
  have hp' := (hstate (ACT_CP_STATE_PARAMS_OK k) rfl).trans hp
  have hd' : disabled (cpCtlStored i k (withField v (ACT_CP_CTL_EN k) 1) s) k = false := by
    unfold disabled
    rw [hstate (ACT_CP_STATE_DIS_CP k) rfl, hstate (ACT_CP_STATE_DIS_DEV k) rfl]
    exact hd
  generalize cpCtlStored i k (withField v (ACT_CP_CTL_EN k) 1) s = u at *
  have hl := enterState_listening (k := k) (s := u)
  have hst : pairState (enterState k 1 u) k = 1 := enterState_state (by decide)
  have hdis : disabled (enterState k 1 u) k = false := by
    unfold disabled
    rw [hl.bit ACT_CP_STATE_DIS_CP, hl.bit ACT_CP_STATE_DIS_DEV]
    exact hd'
  have hans := (answered_actPoll_once hr' (pollOnce_listens h0' hen hs' hc')
    (pollOnce_listening hst hdis ((hl.bit ACT_CP_STATE_PARAMS_OK).trans hp'))).fields
  exact ⟨(hans.bit ACT_CP_CTL_EN).trans ((hl.bit ACT_CP_CTL_EN).trans hen), (hans.rd ACT_CP_STATE_STATE).trans hst⟩

/-- Out of SYNC it stays in Initial. -/
theorem actEnable_waits (hA : Accepted i (ACT_CP_CTL k).addr (withField v (ACT_CP_CTL_EN k) 1) s)
    (hre : inField v (ACT_CP_CTL_RESTART k) = 0) (h0 : pairState s k = 0) (hs : inSync s k = false) :
    Gives (.actEnable i k v) s fun t => t.bit (ACT_CP_CTL_EN k) = true ∧ pairState t k = 0 := by
  obtain ⟨e, hen⟩ := regAccess_enable hA hre
  have h0' := (cpCtlStored_state (i := i) (v := withField v (ACT_CP_CTL_EN k) 1) (s := s) (ACT_CP_STATE_STATE k) rfl).trans h0
  have hans := (answered_actPoll (pollOnce_initial h0' (Or.inr (cpCtlStored_sync.trans hs)))).fields
  exact ⟨_, congrArg Host.Outcome.next e, (hans.bit ACT_CP_CTL_EN).trans hen, (hans.rd ACT_CP_STATE_STATE).trans h0'⟩

theorem actDisable_restarts (hA : Accepted i (ACT_CP_CTL k).addr (withField v (ACT_CP_CTL_EN k) 0) s) (hr : s.runs blkACT = true) :
    Gives (.actDisable i k v) s fun t => t.bit (ACT_CP_CTL_EN k) = false ∧ pairState t k = 0 ∧
      t.bit (ACT_CP_STATE_PARAMS_OK k) = false ∧ t.bit (ACT_CP_STATE_TN_VALID k) = false := by
  have hen : inField (withField v (ACT_CP_CTL_EN k) 0) (ACT_CP_CTL_EN k) = 0 := inField_withField_same v 0 le_of_eval (by decide : 0 < 2 ^ 1)
  obtain ⟨t, e, hbit, hrest⟩ := cpCtl_restarts hA hr (Or.inl hen) (Or.inl hen)
  exact ⟨t, congrArg Host.Outcome.next e, hbit.trans (fieldBit_zero hen), hrest⟩

theorem actRestart_restarts (hA : Accepted i (ACT_CP_CTL k).addr (withField v (ACT_CP_CTL_RESTART k) 1) s) (hr : s.runs blkACT = true)
    (hs : inSync s k = false) : Gives (.actRestart i k v) s fun t => pairState t k = 0 ∧
      t.bit (ACT_CP_STATE_PARAMS_OK k) = false ∧ t.bit (ACT_CP_STATE_TN_VALID k) = false := by
  obtain ⟨t, e, -, hrest⟩ := cpCtl_restarts hA hr
    (Or.inr (inField_withField_same v 1 le_of_eval (by decide : 1 < 2 ^ 1))) (Or.inr hs)
  exact ⟨t, congrArg Host.Outcome.next e, hrest⟩
end

/-! ### Values carried to UBE, and the timers of a pair (R100, R110, R113) -/

section
variable {k : Nat} {s : State}

/-- The state in which a waiting change is the staged value of CHP_COPY, the rest of the changes left. -/
def changeStaged (k : Nat) (c : LineCopy) (l : List (Nat × LineCopy)) (s : State) : State :=
  stageCopy k c (s.setPair k { s.pair k with pend := l })

theorem actStage_eq {n : Nat} {c : LineCopy} {l : List (Nat × LineCopy)} (hs : inSync s k = true) (hp : (s.pair k).pend = (n, c) :: l)
    (hn : n < s.bseq k) (hg : (s.group k).pend = false) : actStage k s = requestCommit k true k (changeStaged k c l s) := by
  unfold actStage
  dsimp only
  rw [hs, if_pos rfl, hp]
  refine if_neg fun h => ?_
  rcases h with h | h
  · exact absurd hn (Nat.not_lt.2 h)
  · exact Bool.false_ne_true (hg.symm.trans h)

/-- The first change of an earlier frame is staged, and the commit of ACT's group asked for. -/
theorem actStage_commits {n : Nat} {c : LineCopy} {l : List (Nat × LineCopy)} (hs : inSync s k = true) (hp : (s.pair k).pend = (n, c) :: l)
    (hn : n < s.bseq k) (hg : (s.group k).pend = false) : (actStage k s).stagedReg (CHP_COPY k).addr = some (copyWord c) ∧
      ((actStage k s).pair k).pend = l ∧ (actStage k s).group k = { pend := true, when_ := true, ch := k, seq := s.bseq k } := by
  have hreq : requestCommit k true k (changeStaged k c l s) =
      ((changeStaged k c l s).setGroup k { pend := true, when_ := true, ch := k, seq := s.bseq k }).setBit grpPend k :=
    if_neg fun h => Bool.false_ne_true (hg.symm.trans h)
  rw [actStage_eq hs hp hn hg, hreq]
  exact ⟨stagedReg_setStagedReg _ _ _, congrArg ActPair.pend (pair_setPair s k _), group_setGroup _ _ _⟩

/-- T_ASG ends with a new backoff. -/
theorem tAsgExpire_draws (hr : s.runs blkACT = true) (h : pairState s k = 2) (ht : (s.pair k).tAsg = some 0) :
    ((tAsgExpire k s).pair k).tAsg = none ∧
      ((tAsgExpire k s).pair k).backoff < 2 ^ min (s.rd (ACT_CP_STATE_ANN_CNT k)) (s.rd (ACT_CP_TMR_BO_MAX k)) ∧
      Frame [.free, .act] s (tAsgExpire k s) := by
  have e : tAsgExpire k s = s.draw.2.setPair k { s.pair k with
      tAsg := none, backoff := s.draw.1.toNat % 2 ^ min (s.rd (ACT_CP_STATE_ANN_CNT k)) (s.rd (ACT_CP_TMR_BO_MAX k)) } := if_pos ⟨hr, h, ht⟩
  have hk : Kept false [.free, .act] ([] : List Nat) s (tAsgExpire k s) := by
    rw [e]
    exact kept_st_setPair (kept_draw Kept.rfl_frame (by decide)) (by decide)
  refine ⟨?_, ?_, hk.frame⟩
  · rw [e, pair_setPair]
  · rw [e, pair_setPair]
    exact Nat.mod_lt _ (Nat.two_pow_pos _)

/-- T_RNG ends Ranging: the pair listens again without a terminal number. -/
theorem tRngExpire_listens (hr : s.runs blkACT = true) (h : pairState s k = 3) (ht : (s.pair k).tRng = some 0) (hd : disabled s k = false)
    (hp : s.bit (ACT_CP_STATE_PARAMS_OK k) = false) :
    pairState (tRngExpire k s) k = 1 ∧ (tRngExpire k s).bit (ACT_CP_STATE_TN_VALID k) = false := by
  have hl := enterState_listening (k := k) (s := s)
  have hst : pairState (enterState k 1 s) k = 1 := enterState_state (by decide)
  have hdis : disabled (enterState k 1 s) k = false := by
    unfold disabled
    rw [hl.bit ACT_CP_STATE_DIS_CP, hl.bit ACT_CP_STATE_DIS_DEV]
    exact hd
  have hans := (answered_actPoll (pollOnce_listening hst hdis ((hl.bit ACT_CP_STATE_PARAMS_OK).trans hp))).fields
  rw [show tRngExpire k s = actPoll k (enterState k 1 s) from if_pos ⟨hr, h, ht⟩]
  exact ⟨(hans.rd ACT_CP_STATE_STATE).trans hst, (hans.bit ACT_CP_STATE_TN_VALID).trans (enterState_listening_tnValid h)⟩
end

/-- Settles O24: the controls by the write of ACT_CP_CTL, each timer by the state that its end enters. -/
theorem pairTimersComplete : Obligations.PairTimersComplete := by
  unfold Obligations.PairTimersComplete
  refine ⟨fun i k v s hA hre hr h0 hs hc hd hp => actEnable_listens hA hre hr h0 hs hc hd hp,
    fun i k v s hA hre h0 hs => actEnable_waits hA hre h0 hs, fun i k v s hA hr => actDisable_restarts hA hr,
    fun i k v s hA hr hs => actRestart_restarts hA hr hs,
    fun k n c l s hup hs hp hn hg => ⟨_, congrArg Host.Outcome.next (if_pos hup), actStage_commits hs hp hn hg⟩,
    fun k s hup hr h ht => ⟨_, congrArg Host.Outcome.next (if_pos hup), tAsgExpire_draws hr h ht⟩,
    fun k s hup hr h ht hd hp => ⟨_, congrArg Host.Outcome.next (if_pos hup), tRngExpire_listens hr h ht hd hp⟩,
    fun k s hup hr h ht hw => ?_, fun k s hup hr h ht hw => ?_⟩
  · obtain ⟨hst, hp, htn, -⟩ := actPoll_initial hw
    exact ⟨_, congrArg Host.Outcome.next ((if_pos hup).trans (if_pos ⟨hr, h, ht⟩)), hst, hp, htn⟩
  · obtain ⟨hst, hp, htn, -⟩ := actPoll_initial hw
    exact ⟨_, congrArg Host.Outcome.next ((if_pos hup).trans (if_pos ⟨hr, h, ht⟩)), hst, hp, htn⟩

/-! ### A message taken (R105, R106) -/

section
variable {k n type : Nat} {m : Bytes} {s t u : State} {is : Bytes → Bool} {h : State → State × Reply}

/-- One more accepted message is counted. -/
def counted (k : Nat) (s : State) : State := s.inc (ACT_CP_CNT_MSG_OK k)

theorem pairKept_counted : PairKept k [ACT_CP_CNT_MSG_OK 0] s (counted k s) := .wr (F := ACT_CP_CNT_MSG_OK) .refl

theorem counted_reg {a : Nat} (ha : a ≠ (ACT_CP_CNT k).addr) : (counted k s).reg a = s.reg a := reg_inc_ne (r := ACT_CP_CNT_MSG_OK k) s ha

theorem counted_kept : Kept false [.regs] [blkACT] s (counted k s) :=
  kept_st_inc Kept.rfl_frame (by decide) (blk_n (by decide) (by decide) (by decide))

theorem counted_state : pairState (counted k s) k = pairState s k := pairKept_counted.rd ACT_CP_STATE_STATE

/-- What leaves the count of accepted messages alone leaves it one higher. -/
theorem counted_shown {l : List RF} (ht : PairKept k l (counted k s) t) (hc : clearOf l (ACT_CP_CNT_MSG_OK 0) = true := by decide) :
    Counted k s t := (ht.rd ACT_CP_CNT_MSG_OK rfl hc).trans (rd_inc_same s le_of_eval)

theorem Answered.counted {l : List RF} (h : Answered k u t) (hu : PairKept k l (counted k s) u)
    (hc : clearOf l (ACT_CP_CNT_MSG_OK 0) = true := by decide) : Counted k s t :=
  (h.fields.rd ACT_CP_CNT_MSG_OK).trans (counted_shown hu hc)

theorem taken_type (hT : Taken s k n type m) : msgType m = type := hT.1.2.2.2

theorem taken_mirror (hT : Taken s k n type m) : s.bit ACT_RXQ_CTL_MIRROR = false := hT.2.2.1

/-- The states that a message of its type is taken in. -/
theorem taken_state {a : Addressing} {l : List Nat} {need : MsgNeed} (hT : Taken s k n type m) (hr : msgRule type = some (a, l, need)) :
    pairState s k ∈ l := by
  have h := hT.2.1
  rw [hr, Option.any_some, Bool.and_eq_true, Bool.and_eq_true] at h
  exact List.contains_iff_mem.1 h.1.2

/-- A message that is taken is counted and handled. -/
theorem takeMsg_new (hT : Taken s k n type m) (hi : is m = true) : ∃ a, takeMsg k n m is h s = acceptMsg.acceptNew k m h a (counted k s) := by
  obtain ⟨⟨hr, ha, hc, ht⟩, hrule, -, hlast⟩ := hT
  have hacc : takeMsg k n m is h s = acceptMsg k m h s := if_pos (by rw [hr, ha, hc, hi]; rfl)
  rw [hacc]
  unfold acceptMsg
  rw [ht]
  match hm : msgRule type with
  | none =>
    rw [hm] at hrule
    exact absurd hrule Bool.false_ne_true
  | some (a, states, need) =>
    rw [hm, Option.any_some, Bool.and_eq_true, Bool.and_eq_true] at hrule
    obtain ⟨⟨h1, h2⟩, h3⟩ := hrule
    refine ⟨a, ?_⟩
    dsimp only
    rw [h1, h2, h3, if_neg (by decide), if_neg (by decide)]
    change (match SMap.get (fun _ => (none : Option LastMsg)) (s.pair k).last type with
      | some l => _
      | none => _) = _
    match hl : SMap.get (fun _ => (none : Option LastMsg)) (s.pair k).last type with
    | none => rfl
    | some l =>
      rw [hl, Option.all_some, bne_iff_ne] at hlast
      exact if_neg hlast

/-- A message that ACT handles itself is handled, its answer recorded and sent, and the pair's conditions judged. -/
theorem takeMsg_handled (hT : Taken s k n type m) (hi : is m = true) (hf : forFirmware type = false) :
    ∃ a, takeMsg k n m is h s = actPoll k (settleMsg k a m (h (counted k s)).2 (h (counted k s)).1) := by
  obtain ⟨a, e⟩ := takeMsg_new (h := h) hT hi
  have hmir : (counted k s).bit ACT_RXQ_CTL_MIRROR = false :=
    (bit_congr (counted_reg (window_ne_single (A := 0xA000048) (B := 0xA100030) (by decide)).symm)).trans (taken_mirror hT)
  refine ⟨a, e.trans ?_⟩
  unfold acceptMsg.acceptNew
  rw [taken_type hT, hf, hmir]
  rfl

/-- A pair in a state that only an event ends. -/
def Quiet (k : Nat) (s : State) : Prop := pairState s k ∈ [2, 3, 4, 6] ∨ pairState s k = 7 ∧ disabled s k = true

theorem Quiet.poll (hq : Quiet k s) : pollOnce k s = s := hq.elim pollOnce_waits fun h => pollOnce_silenced h.1 h.2

theorem disabled_congr {l : List RF} (ht : PairKept k l s t) (h1 : clearOf l (ACT_CP_STATE_DIS_CP 0) = true)
    (h2 : clearOf l (ACT_CP_STATE_DIS_DEV 0) = true) : disabled t k = disabled s k := by
  unfold disabled
  rw [ht.bit ACT_CP_STATE_DIS_CP rfl h1, ht.bit ACT_CP_STATE_DIS_DEV rfl h2]

theorem Quiet.answered (hq : Quiet k s) (ht : Answered k s t) : Quiet k t := by
  have hst : pairState t k = pairState s k := ht.fields.rd ACT_CP_STATE_STATE
  have hd : disabled t k = disabled s k := disabled_congr ht.fields (by decide) (by decide)
  unfold Quiet
  rwa [hst, hd]

/-- After the handler, where no condition calls for a transition, there is the answer alone. -/
theorem takeMsg_answered (hT : Taken s k n type m) (hi : is m = true) (hf : forFirmware type = false) (hu : (h (counted k s)).1 = u)
    (hq : Quiet k u) : Answered k u (takeMsg k n m is h s) := by
  obtain ⟨a, e⟩ := takeMsg_handled (h := h) hT hi hf
  rw [e, hu]
  have hs : Answered k u (settleMsg k a m (h (counted k s)).2 u) := answered_settleMsg
  exact hs.trans (answered_actPoll (hq.answered hs).poll)

theorem isType_taken (hT : Taken s k n type m) : isType type m = true := beq_iff_eq.2 (taken_type hT)

/-! ### Messages that are no message (R105) -/

theorem unknownMsg_crc (hr : s.runs blkACT = true) (ha : msgArea s k n = true) (hc : crc32cOk 64 m = false) :
    unknownMsg k n m s = s.inc (ACT_CP_CNT_MSG_CRC k) := by
  unfold unknownMsg
  rw [hr, ha, hc]
  rfl

theorem unknownMsg_type (hr : s.runs blkACT = true) (ha : msgArea s k n = true) (hc : crc32cOk 64 m = true) (ht : msgRule (msgType m) = none) :
    unknownMsg k n m s = s.inc (ACT_CP_CNT_MSG_REJ k) := by
  unfold unknownMsg
  rw [hr, ha, hc, ht]
  rfl

/-! ### The handlers of ACT (R107 to R113) -/

/-- The values of LINE_PARAMS are stored. -/
def paramsStored (k : Nat) (m : Bytes) (s : State) : State :=
  (s.put (ACT_CP_STATE_PARAMS_OK k) true).setPair k
    { s.pair k with annEn := msgF m 0 38 1 == 1, discProf := msgF m 0 36 2, rndMax := msgF m 0 0 16, preEqd := msgF m 1 0 32 }

theorem paramsStored_state : pairState (paramsStored k m s) k = pairState s k :=
  PairKept.rd (l := [ACT_CP_STATE_PARAMS_OK 0]) (pairKept_setPair (.put (F := ACT_CP_STATE_PARAMS_OK) .refl)) ACT_CP_STATE_STATE

/-- The line values that are carried are no part of what the pair keeps. -/
theorem lineChange_pair (f : LineCopy → LineCopy) : (lineChange k f s).pair k =
    { s.pair k with want := ((lineChange k f s).pair k).want, pend := ((lineChange k f s).pair k).pend } := by
  unfold lineChange
  dsimp only
  rw [pair_setPair]

/-- PRE_EQD is carried to the line where it changes before the pair operates. -/
def paramsCarried (k : Nat) (m : Bytes) (s : State) : State :=
  if msgF m 1 0 32 ≠ (s.pair k).preEqd ∧ (pairState (paramsStored k m s) k = 2 ∨ pairState (paramsStored k m s) k = 3) then
    lineChange k (fun v => { v with eqd := msgF m 1 0 32 }) (paramsStored k m s)
  else paramsStored k m s

theorem pairKept_paramsCarried : PairKept k [] (paramsStored k m s) (paramsCarried k m s) := .ite (pairKept_lineChange .refl) .refl

theorem doLineParams_eq (hp : msgF m 1 0 32 ≤ eqdMax) : (doLineParams k m s).1 =
    if pairState (paramsCarried k m s) k = 2 ∧ !(msgF m 0 38 1 == 1) then enterState k 1 (paramsCarried k m s) else paramsCarried k m s := by
  unfold doLineParams
  dsimp only
  rw [if_neg (Nat.not_lt.2 hp)]
  rfl

theorem paramsCarried_pair : ((paramsCarried k m s).pair k).annEn = (msgF m 0 38 1 == 1) ∧
    ((paramsCarried k m s).pair k).discProf = msgF m 0 36 2 ∧ ((paramsCarried k m s).pair k).rndMax = msgF m 0 0 16 ∧
    ((paramsCarried k m s).pair k).preEqd = msgF m 1 0 32 := by
  have hstored : (paramsStored k m s).pair k = { s.pair k with
      annEn := msgF m 0 38 1 == 1, discProf := msgF m 0 36 2, rndMax := msgF m 0 0 16, preEqd := msgF m 1 0 32 } := pair_setPair _ _ _
  unfold paramsCarried
  split
  · rw [lineChange_pair, hstored]
    exact ⟨rfl, rfl, rfl, rfl⟩
  · rw [hstored]
    exact ⟨rfl, rfl, rfl, rfl⟩

/-- LINE_PARAMS in Ranging or Operating stores what it carries. -/
theorem doLineParams_stores (hst : pairState s k = 3 ∨ pairState s k = 4) (hp : msgF m 1 0 32 ≤ eqdMax) :
    (doLineParams k m s).1 = paramsCarried k m s := by
  have e : pairState (paramsCarried k m s) k = pairState s k :=
    (pairKept_paramsCarried.rd ACT_CP_STATE_STATE).trans paramsStored_state
  rw [doLineParams_eq hp, e]
  exact if_neg fun hc => by omega
end

section
variable {k : Nat} {m : Bytes} {s u : State}

/-- A default allocation is claimed from the contexts, whatever the registers hold. -/
theorem claimDefault_counted {tn : Nat} : (claimDefault k tn (counted k s)).isSome = (claimDefault k tn s).isSome := by
  have hu : (counted k s).ube = s.ube := rfl
  have hc : ∀ now, pairContexts (counted k s) k now none = pairContexts s k now none := fun _ => rfl
  have hd : (counted k s).draw.1 = s.draw.1 := rfl
  unfold claimDefault
  dsimp only
  rw [hu, hc, hc, hd]
  split
  · rfl
  · split
    · rfl
    · rw [Option.isSome_map, Option.isSome_map]

/-- The terminal number that ASSIGN_TN gives is stored. -/
def tnStored (k tn : Nat) (s : State) : State := (s.put (ACT_CP_STATE_TN_VALID k) true).wr (ACT_CP_STATE_TN k) tn

/-- In service, the stored EQDs are valid no longer. -/
def eqdsDropped (k : Nat) (s : State) : State :=
  if inService s k then (s.put (ACT_CP_STATE_EQD0_V k) false).put (ACT_CP_STATE_EQD1_V k) false else s

theorem doAssignTn_eq (hn : msgF m 0 0 10 ≠ 1023) (hc : claimDefault k (msgF m 0 0 10) s = some u) : doAssignTn k m s =
    ((enterState k 3 (eqdsDropped k (tnStored k (msgF m 0 0 10) u))).put (ACT_CP_EVT_ASSIGNED k) true, .status 0) := by
  unfold doAssignTn
  dsimp only
  rw [if_neg hn, hc]
  rfl

/-- The fields that follow the terminal number in ASSIGN_TN. -/
def assignFields : List RF :=
  stateFields ++ speakFields ++ [ACT_CP_STATE_EQD0_V 0, ACT_CP_STATE_EQD1_V 0, ACT_CP_EVT_ASSIGNED 0]

/-- ASSIGN_TN takes the terminal number to Ranging. -/
theorem doAssignTn_shows (hn : msgF m 0 0 10 ≠ 1023) (hc : claimDefault k (msgF m 0 0 10) s = some u) :
    pairState (doAssignTn k m s).1 k = 3 ∧ (doAssignTn k m s).1.bit (ACT_CP_STATE_TN_VALID k) = true ∧
      (doAssignTn k m s).1.rd (ACT_CP_STATE_TN k) = msgF m 0 0 10 ∧
      PairKept k (ACT_CP_STATE_TN_VALID 0 :: ACT_CP_STATE_TN 0 :: assignFields) s (doAssignTn k m s).1 := by
  have hclaim : Kept false [.free, .ube] offAct s u := kept_ouse hc (kept_claimDefault Kept.rfl_frame (by decide) (by decide))
  have hs : PairKept k [ACT_CP_STATE_TN_VALID 0, ACT_CP_STATE_TN 0] s (tnStored k (msgF m 0 0 10) u) :=
    .wr (F := ACT_CP_STATE_TN) (.put (F := ACT_CP_STATE_TN_VALID)
      (.far .refl ⟨nofun, frame_mono hclaim.frame (by decide), hclaim.regFrame⟩))
  have he : PairKept k [ACT_CP_STATE_EQD0_V 0, ACT_CP_STATE_EQD1_V 0] (tnStored k (msgF m 0 0 10) u)
      (eqdsDropped k (tnStored k (msgF m 0 0 10) u)) := .ite (.put (F := ACT_CP_STATE_EQD1_V) (.put (F := ACT_CP_STATE_EQD0_V) .refl)) .refl
  have ht : PairKept k assignFields (tnStored k (msgF m 0 0 10) u) (doAssignTn k m s).1 := by
    rw [doAssignTn_eq hn hc]
    exact .put (F := ACT_CP_EVT_ASSIGNED) ((he.mono (by decide)).trans ((enterState_speaking (by decide)).mono (by decide)))
  refine ⟨?_, (ht.bit ACT_CP_STATE_TN_VALID).trans ?_, (ht.rd ACT_CP_STATE_TN).trans ?_, (hs.mono (by decide)).trans (ht.mono (by decide))⟩
  · rw [doAssignTn_eq hn hc]
    exact (PairKept.rd (.put (F := ACT_CP_EVT_ASSIGNED) (l := [ACT_CP_EVT_ASSIGNED 0]) .refl) ACT_CP_STATE_STATE).trans
      (enterState_state (by decide))
  · exact (PairKept.bit (.wr (F := ACT_CP_STATE_TN) (l := [ACT_CP_STATE_TN 0]) .refl) ACT_CP_STATE_TN_VALID).trans (bit_put_same _ _ le_of_eval rfl)
  · exact (rd_wr_same _ _ le_of_eval).trans (Nat.mod_eq_of_lt (fieldOf_lt _ _ _))

/-! #### RANGING_TIME -/

theorem eqdOf_zero : eqdOf k 0 = ACT_CP_EQD_EQD0 k := rfl
theorem eqdV_zero : eqdV k 0 = ACT_CP_STATE_EQD0_V k := rfl

/-- The EQD of a path is stored and valid. -/
def eqdStored (k path eqd : Nat) (s : State) : State := (s.wr (eqdOf k path) eqd).put (eqdV k path) true

/-- A path of a pair: the fields of its EQD. -/
def eqdFields : List RF := [ACT_CP_EQD_EQD0 0, ACT_CP_EQD_EQD1 0, ACT_CP_STATE_EQD0_V 0, ACT_CP_STATE_EQD1_V 0]

theorem eqdStored_shows {path eqd : Nat} (h : eqd < 2 ^ 32) : (eqdStored k path eqd s).rd (eqdOf k path) = eqd ∧
    (eqdStored k path eqd s).bit (eqdV k path) = true ∧ PairKept k eqdFields s (eqdStored k path eqd s) := by
  unfold eqdStored eqdOf eqdV
  split
  · refine ⟨?_, bit_put_same _ _ le_of_eval rfl, .put (F := ACT_CP_STATE_EQD0_V) (.wr (F := ACT_CP_EQD_EQD0) .refl)⟩
    exact (PairKept.rd (.put (F := ACT_CP_STATE_EQD0_V) (l := [ACT_CP_STATE_EQD0_V 0]) .refl) ACT_CP_EQD_EQD0).trans
      ((rd_wr_same s eqd le_of_eval).trans (Nat.mod_eq_of_lt h))
  · refine ⟨?_, bit_put_same _ _ le_of_eval rfl, .put (F := ACT_CP_STATE_EQD1_V) (.wr (F := ACT_CP_EQD_EQD1) .refl)⟩
    exact (PairKept.rd (.put (F := ACT_CP_STATE_EQD1_V) (l := [ACT_CP_STATE_EQD1_V 0]) .refl) ACT_CP_EQD_EQD1).trans
      ((rd_wr_same s eqd le_of_eval).trans (Nat.mod_eq_of_lt h))

/-- What leaves the fields of both paths alone leaves each path's EQD. -/
theorem eqd_kept {l : List RF} {t : State} (h : PairKept k l s t) (path : Nat) (hc : ∀ q ∈ eqdFields, clearOf l q = true) :
    t.rd (eqdOf k path) = s.rd (eqdOf k path) ∧ t.bit (eqdV k path) = s.bit (eqdV k path) := by
  unfold eqdOf eqdV
  split
  · exact ⟨h.rd ACT_CP_EQD_EQD0 rfl (hc _ (by decide)), h.bit ACT_CP_STATE_EQD0_V rfl (hc _ (by decide))⟩
  · exact ⟨h.rd ACT_CP_EQD_EQD1 rfl (hc _ (by decide)), h.bit ACT_CP_STATE_EQD1_V rfl (hc _ (by decide))⟩

/-- The EQD of the path in use takes a pair from Ranging to Operating, and is carried to the line of one in Operating. -/
def eqdTaken (k path eqd : Nat) (s : State) : State :=
  if path = activePort s then (if pairState s k = 3 then enterState k 4 s else lineChange k (fun c => { c with eqd := eqd }) s) else s

theorem doRangingTime_eq (ha : msgF m 0 38 1 = 0) (he : msgF m 0 0 32 ≤ eqdMax) :
    (doRangingTime k m s).1 = eqdTaken k (msgF m 0 37 1) (msgF m 0 0 32) (eqdStored k (msgF m 0 37 1) (msgF m 0 0 32) s) := by
  have hadj : (msgF m 0 38 1 == 1) = false := by rw [ha]; rfl
  unfold doRangingTime
  dsimp only
  rw [hadj, if_neg Bool.false_ne_true, Bool.false_and, if_neg Bool.false_ne_true, if_neg (by omega), if_neg Bool.false_ne_true,
    Int.toNat_natCast]
  rfl

theorem pairKept_eqdTaken {path eqd : Nat} : PairKept k (stateFields ++ speakFields) s (eqdTaken k path eqd s) :=
  .ite (.ite (enterState_speaking (by decide)) (pairKept_lineChange .refl)) .refl

theorem eqdTaken_state {path eqd : Nat} (h : pairState s k = 3 ∨ pairState s k = 4) :
    pairState (eqdTaken k path eqd s) k = if path = activePort s then 4 else pairState s k := by
  unfold eqdTaken
  split
  · split
    · exact enterState_state (by decide)
    · next hne =>
      exact (PairKept.rd (l := []) (pairKept_lineChange .refl) ACT_CP_STATE_STATE).trans (h.resolve_left hne)
  · rfl

theorem eqdStored_port {path eqd : Nat} : activePort (eqdStored k path eqd s) = activePort s := by
  have hne : ∀ b, blkOf b = blkACT → LPH_PORT.addr ≠ b := fun b hb e => absurd (congrArg blkOf e) (by rw [hb]; decide)
  have hite : ∀ c : Prop, [Decidable c] → ∀ x y : RF, blkOf x.addr = blkACT → blkOf y.addr = blkACT →
      blkOf (if c then x else y).addr = blkACT := fun c _ x y hx hy => by split <;> assumption
  have heqd : blkOf (eqdOf k path).addr = blkACT :=
    hite _ _ _ (blkOf_array (by decide) (array_le (by decide))) (blkOf_array (by decide) (array_le (by decide)))
  have hvalid : blkOf (eqdV k path).addr = blkACT :=
    hite _ _ _ (blkOf_array (by decide) (array_le (by decide))) (blkOf_array (by decide) (array_le (by decide)))
  exact rd_congr (q := LPH_PORT_ACTIVE) ((reg_put_ne _ _ (hne _ hvalid)).trans (reg_wr_ne _ _ (hne _ heqd)))

/-! #### BURST_PROFILE -/

/-- The swap of UBE's bank is asked for at FC_EFF, the profile in the shadow. -/
def profileAsked (k : Nat) (m : Bytes) (s : State) : State :=
  let s := bankWithdraw (UBE_BANK k).addr s
  let s := s.setSh (UBE_PROF k (msgF m 0 37 2)).addr (profWord m)
  let s := (s.wr (UBE_BANK_AT_AT_EN k) 1).wr (UBE_BANK_AT_AT k) (msgF m 1 0 48)
  bankRequest (UBE_BANK k).addr (s.wr (bankBoundary (UBE_BANK k).addr) 1)

theorem doBurstProfile_eq (h64 : msgF m 0 16 16 % 64 = 0) (hp1 : 1024 ≤ msgF m 0 16 16) (hp2 : msgF m 0 16 16 ≤ 16384)
    (hg1 : 64 ≤ msgF m 0 0 12) (hg2 : msgF m 0 0 12 ≤ 4000) (hb : (s.bank (UBE_BANK k).addr).phase = .idle) :
    (doBurstProfile k m s).1 = (profileAsked k m s).setPair k
      { (profileAsked k m s).pair k with profGot := withBit ((profileAsked k m s).pair k).profGot (msgF m 0 37 2) true } := by
  unfold doBurstProfile
  dsimp only
  rw [if_neg (by omega), hb]
  dsimp only
  rw [if_neg fun h => absurd h.1 (by decide)]
  rfl

theorem profileAsked_kept : Kept false [.regs, .shadow, .cfg, .sch, .gcl] [blkUBE, blkGCL] s (profileAsked k m s) := by
  have hb : blkOf (UBE_BANK k).addr = blkUBE := blkOf_array (by decide) (array_le (by decide))
  have hw : Kept false [.regs, .shadow, .cfg, .sch, .gcl] [blkUBE, blkGCL] s (bankWithdraw (UBE_BANK k).addr s) :=
    kept_bankWithdraw Kept.rfl_frame (by decide) (by decide) (by decide) (by decide) (by rw [hb]; decide)
  refine kept_bankRequest (kept_st_wr (kept_st_wr (kept_st_wr (kept_setSh hw (by decide)) (by decide) ?_) (by decide) ?_) (by decide) ?_)
    (by decide) (by decide) (by decide) (by decide) (by decide) (by rw [hb]; decide)
  · exact blk_n (by decide) (by decide) (by decide)
  · exact blk_n (by decide) (by decide) (by decide)
  · exact blk_n (by decide) (by decide) (by decide)

/-- Kind 3 is the gate lists' alone. -/
theorem bankKind_ne_three {b n : Nat} (h : blkOf b ≠ blkGCL) : bankKind b n ≠ 3 := by
  unfold bankKind
  dsimp only
  split
  · decide
  split
  · decide
  split
  · next hc => exact absurd hc.2 h
  split <;> decide

/-- The profile is in UBE's shadow bank and the swap waits. -/
theorem profileAsked_shows : (profileAsked k m s).shReg (UBE_PROF k (msgF m 0 37 2)).addr = profWord m ∧
    ((profileAsked k m s).bank (UBE_BANK k).addr).phase = .waiting := by
  have hb : blkOf (UBE_BANK k).addr = blkUBE := blkOf_array (by decide) (array_le (by decide))
  have hkind : ∀ n, bankKind (UBE_BANK k).addr n ≠ 3 := fun n => bankKind_ne_three (by rw [hb]; decide)
  unfold profileAsked
  dsimp only
  generalize bankWithdraw (UBE_BANK k).addr s = v
  constructor
  · refine Eq.trans ?_ (shReg_setSh_same v (UBE_PROF k (msgF m 0 37 2)).addr (profWord m))
    unfold State.shReg
    rw [onlyRegs_shadow (bankRequest_regs (hkind _)), bankAsked_shadow]
    rfl
  · rw [bank_congr (onlyRegs_cfg (bankRequest_regs (hkind _)))]
    exact bankAsked_bank.1

theorem doBurstProfile_shows (h64 : msgF m 0 16 16 % 64 = 0) (hp1 : 1024 ≤ msgF m 0 16 16) (hp2 : msgF m 0 16 16 ≤ 16384)
    (hg1 : 64 ≤ msgF m 0 0 12) (hg2 : msgF m 0 0 12 ≤ 4000) (hb : (s.bank (UBE_BANK k).addr).phase = .idle) :
    (doBurstProfile k m s).1.shReg (UBE_PROF k (msgF m 0 37 2)).addr = profWord m ∧
      ((doBurstProfile k m s).1.bank (UBE_BANK k).addr).phase = .waiting ∧ PairKept k [] s (doBurstProfile k m s).1 := by
  rw [doBurstProfile_eq h64 hp1 hp2 hg1 hg2 hb]
  obtain ⟨hprof, hphase⟩ := profileAsked_shows (k := k) (m := m) (s := s)
  have hkept := profileAsked_kept (k := k) (m := m) (s := s)
  generalize profileAsked k m s = v at *
  exact ⟨hprof, hphase, pairKept_setPair (.far .refl ⟨nofun, frame_mono hkept.frame (by decide), fun a ha =>
    hkept.regFrame a fun hm => ha ((by decide : ∀ b ∈ [blkUBE, blkGCL], b ∈ offAct) _ hm)⟩)⟩
end

/-! ### Messages that ACT handles itself (O25) -/

section
variable {k : Chan} {n : Fin 64} {m : Bytes} {s : State}

theorem unknownMessage_counts_crc (hup : isUp s = true) (hr : s.runs blkACT = true) (ha : msgArea s k n = true) (hc : crc32cOk 64 m = false) :
    Gives (.unknownMessage k n m) s fun t => t.rd (ACT_CP_CNT_MSG_CRC k) = satAdd (ACT_CP_CNT_MSG_CRC k).w (s.rd (ACT_CP_CNT_MSG_CRC k)) 1 ∧
      OnlyRegs [(ACT_CP_CNT k).addr] s t :=
  ⟨_, congrArg Host.Outcome.next ((if_pos hup).trans (unknownMsg_crc hr ha hc)), rd_inc_same s le_of_eval,
    onlyRegs_setReg onlyRegs_refl List.mem_cons_self⟩

theorem unknownMessage_counts_type (hup : isUp s = true) (hr : s.runs blkACT = true) (ha : msgArea s k n = true) (hc : crc32cOk 64 m = true)
    (ht : msgRule (msgType m) = none) : Gives (.unknownMessage k n m) s fun t =>
      t.rd (ACT_CP_CNT_MSG_REJ k) = satAdd (ACT_CP_CNT_MSG_REJ k).w (s.rd (ACT_CP_CNT_MSG_REJ k)) 1 ∧ OnlyRegs [(ACT_CP_CNT k).addr] s t :=
  ⟨_, congrArg Host.Outcome.next ((if_pos hup).trans (unknownMsg_type hr ha hc ht)), rd_inc_same s le_of_eval,
    onlyRegs_setReg onlyRegs_refl List.mem_cons_self⟩

theorem lineParams_stores (hup : isUp s = true) (hT : Taken s k n 1 m) (hst : pairState s k = 3 ∨ pairState s k = 4)
    (hp : msgF m 1 0 32 ≤ eqdMax) : Gives (.lineParams k n m) s fun t => t.bit (ACT_CP_STATE_PARAMS_OK k) = true ∧ Counted k s t ∧
      (t.pair k).annEn = (msgF m 0 38 1 == 1) ∧ (t.pair k).discProf = msgF m 0 36 2 ∧ (t.pair k).rndMax = msgF m 0 0 16 ∧
      (t.pair k).preEqd = msgF m 1 0 32 := by
  have hu := doLineParams_stores (m := m) (s := counted k s) (by rwa [counted_state]) hp
  have hkept : PairKept k [ACT_CP_STATE_PARAMS_OK 0] (counted k s) (paramsCarried k m (counted k s)) :=
    PairKept.trans (pairKept_setPair (.put (F := ACT_CP_STATE_PARAMS_OK) .refl)) (pairKept_paramsCarried.mono (by decide))
  have hstate : pairState (paramsCarried k m (counted k s)) k = pairState s k := (hkept.rd ACT_CP_STATE_STATE).trans counted_state
  have hans := takeMsg_answered hT (isType_taken hT) rfl hu (Or.inl (by rw [hstate]; rcases hst with h | h <;> rw [h] <;> decide))
  refine ⟨_, congrArg Host.Outcome.next (if_pos hup), ?_, hans.counted hkept, ?_⟩
  · refine (hans.fields.bit ACT_CP_STATE_PARAMS_OK).trans ((pairKept_paramsCarried.bit ACT_CP_STATE_PARAMS_OK).trans ?_)
    exact (bit_setPair _ _ _ _).trans (bit_put_same _ _ le_of_eval rfl)
  · rw [hans.pair]
    exact paramsCarried_pair

theorem assignTn_ranges (hup : isUp s = true) (hT : Taken s k n 2 m) (hn : msgF m 0 0 10 ≠ 1023)
    (hc : (claimDefault k (msgF m 0 0 10) s).isSome = true) : Gives (.assignTn k n m) s fun t => pairState t k = 3 ∧
      t.bit (ACT_CP_STATE_TN_VALID k) = true ∧ t.rd (ACT_CP_STATE_TN k) = msgF m 0 0 10 ∧ Counted k s t := by
  obtain ⟨u, hu⟩ := Option.isSome_iff_exists.1 (claimDefault_counted.trans hc)
  obtain ⟨hst, hv, htn, hkept⟩ := doAssignTn_shows hn hu
  have hans := takeMsg_answered hT (isType_taken hT) rfl rfl (Or.inl (by rw [hst]; decide))
  exact ⟨_, congrArg Host.Outcome.next (if_pos hup), (hans.fields.rd ACT_CP_STATE_STATE).trans hst,
    (hans.fields.bit ACT_CP_STATE_TN_VALID).trans hv, (hans.fields.rd ACT_CP_STATE_TN).trans htn, hans.counted hkept⟩

theorem rangingTime_stores (hup : isUp s = true) (hT : Taken s k n 3 m) (ha : msgF m 0 38 1 = 0) (he : msgF m 0 0 32 ≤ eqdMax) :
    Gives (.rangingTime k n m) s fun t => t.rd (eqdOf k (msgF m 0 37 1)) = msgF m 0 0 32 ∧ t.bit (eqdV k (msgF m 0 37 1)) = true ∧
      pairState t k = (if msgF m 0 37 1 = activePort s then 4 else pairState s k) ∧ Counted k s t := by
  obtain ⟨heqd, hvalid, hstored⟩ := eqdStored_shows (k := k) (s := counted k s) (path := msgF m 0 37 1) (eqd := msgF m 0 0 32) (fieldOf_lt _ _ _)
  have hstate : pairState (eqdStored k (msgF m 0 37 1) (msgF m 0 0 32) (counted k s)) k = pairState s k :=
    (hstored.rd ACT_CP_STATE_STATE).trans counted_state
  have hport : activePort (eqdStored k (msgF m 0 37 1) (msgF m 0 0 32) (counted k s)) = activePort s :=
    eqdStored_port.trans (rd_congr (q := LPH_PORT_ACTIVE) (counted_reg (window_ne_single (A := 0xA000048) (B := 0x8100020) (by decide)).symm))
  have hin : pairState s k = 3 ∨ pairState s k = 4 := by simpa using taken_state hT (rfl : msgRule 3 = _)
  have hst := eqdTaken_state (k := k) (path := msgF m 0 37 1) (eqd := msgF m 0 0 32) (hstate.symm ▸ hin)
  rw [hport, hstate] at hst
  have htaken := pairKept_eqdTaken (k := k) (path := msgF m 0 37 1) (eqd := msgF m 0 0 32)
    (s := eqdStored k (msgF m 0 37 1) (msgF m 0 0 32) (counted k s))
  have hans := takeMsg_answered hT (isType_taken hT) rfl (doRangingTime_eq ha he) (Or.inl (by
    rw [hst]
    split
    · decide
    · rcases hin with h | h <;> rw [h] <;> decide))
  obtain ⟨h1, h2⟩ := eqd_kept htaken (msgF m 0 37 1) (by decide)
  obtain ⟨h3, h4⟩ := eqd_kept hans.fields (msgF m 0 37 1) (by decide)
  exact ⟨_, congrArg Host.Outcome.next (if_pos hup), h3.trans (h1.trans heqd), h4.trans (h2.trans hvalid),
    (hans.fields.rd ACT_CP_STATE_STATE).trans hst,
    hans.counted (l := eqdFields ++ stateFields ++ speakFields) ((hstored.mono (by decide)).trans (htaken.mono (by decide)))⟩

theorem burstProfile_asks (hup : isUp s = true) (hT : Taken s k n 4 m) (hst : pairState s k = 3 ∨ pairState s k = 4)
    (h64 : msgF m 0 16 16 % 64 = 0) (hp1 : 1024 ≤ msgF m 0 16 16) (hp2 : msgF m 0 16 16 ≤ 16384) (hg1 : 64 ≤ msgF m 0 0 12)
    (hg2 : msgF m 0 0 12 ≤ 4000) (hb : (s.bank (UBE_BANK k).addr).phase = .idle) : Gives (.burstProfile k n m) s fun t =>
      t.shReg (UBE_PROF k (msgF m 0 37 2)).addr = profWord m ∧ (t.bank (UBE_BANK k).addr).phase = .waiting ∧ Counted k s t := by
  obtain ⟨hprof, hphase, hkept⟩ := doBurstProfile_shows (k := k) (m := m) (s := counted k s) h64 hp1 hp2 hg1 hg2 hb
  have hstate : pairState (doBurstProfile k m (counted k s)).1 k = pairState s k := (hkept.rd ACT_CP_STATE_STATE).trans counted_state
  have hans := takeMsg_answered hT (isType_taken hT) rfl rfl (Or.inl (by rw [hstate]; rcases hst with h | h <;> rw [h] <;> decide))
  refine ⟨_, congrArg Host.Outcome.next (if_pos hup), ?_, ?_, hans.counted hkept⟩
  · refine Eq.trans ?_ hprof
    unfold State.shReg
    rw [hans.kept.frame .shadow (by decide)]
  · exact (congrArg BankSt.phase (bank_congr (hans.kept.frame .cfg (by decide)) _)).trans hphase

theorem disable_silences (hup : isUp s = true) (hT : Taken s k n 0xB m) (ha : msgF m 0 38 1 = 0) : Gives (.disable k n m) s fun t =>
    pairState t k = 7 ∧ t.bit (ACT_CP_STATE_DIS_CP k) = true ∧ Counted k s t := by
  have hu : (doDisable k m (counted k s)).1 = enterState k 7 ((counted k s).put (ACT_CP_STATE_DIS_CP k) true) := by
    unfold doDisable
    rw [if_neg (by rw [ha]; decide)]
  have hent := pairKept_enterState (k := k) (new := 7) (s := (counted k s).put (ACT_CP_STATE_DIS_CP k) true) .refl
  have hst : pairState (enterState k 7 ((counted k s).put (ACT_CP_STATE_DIS_CP k) true)) k = 7 := enterState_state (by decide)
  have hdis : (enterState k 7 ((counted k s).put (ACT_CP_STATE_DIS_CP k) true)).bit (ACT_CP_STATE_DIS_CP k) = true :=
    (hent.bit ACT_CP_STATE_DIS_CP).trans (bit_put_same _ _ le_of_eval rfl)
  have hans := takeMsg_answered hT (isType_taken hT) rfl hu (Or.inr ⟨hst, by unfold disabled; rw [hdis, Bool.true_or]⟩)
  exact ⟨_, congrArg Host.Outcome.next (if_pos hup), (hans.fields.rd ACT_CP_STATE_STATE).trans hst,
    (hans.fields.bit ACT_CP_STATE_DIS_CP).trans hdis, hans.counted (l := ACT_CP_STATE_DIS_CP 0 :: machineFields)
      (PairKept.trans (.put (F := ACT_CP_STATE_DIS_CP) .refl) (hent.mono (by decide)))⟩

/-- The pair may go on from Silenced at once, its flag clear. -/
theorem enable_clears (hup : isUp s = true) (hT : Taken s k n 0xC m) (ha : msgF m 0 38 1 = 0) : Gives (.enable k n m) s fun t =>
    t.bit (ACT_CP_STATE_DIS_CP k) = false ∧ Counted k s t := by
  have hu : (doEnable k m (counted k s)).1 = (counted k s).put (ACT_CP_STATE_DIS_CP k) false := by
    unfold doEnable
    rw [if_neg (by rw [ha]; decide)]
  obtain ⟨a, e⟩ := takeMsg_handled (h := doEnable k m) hT (isType_taken hT) rfl
  rw [hu] at e
  have hkept : PairKept k polledFields ((counted k s).put (ACT_CP_STATE_DIS_CP k) false) (takeMsg k n m (isType 0xC) (doEnable k m) s) := by
    rw [e]
    exact (answered_settleMsg.fields.mono (by decide)).trans pairKept_actPoll
  exact ⟨_, congrArg Host.Outcome.next (if_pos hup), (hkept.bit ACT_CP_STATE_DIS_CP).trans (bit_put_same _ _ le_of_eval rfl),
    counted_shown (l := ACT_CP_STATE_DIS_CP 0 :: polledFields) (PairKept.trans (.put (F := ACT_CP_STATE_DIS_CP) .refl) (hkept.mono (by decide)))⟩

theorem deactivate_stops (hup : isUp s = true) (hT : Taken s k n 0xD m) : Gives (.deactivate k n m) s fun t => pairState t k = 6 ∧
    (t.pair k).hold = (if msgF m 0 0 16 = 0 then none else some (8 * msgF m 0 0 16)) ∧ Counted k s t := by
  have hent : PairKept k machineFields (counted k s) (doDeactivate k m (counted k s)).1 := pairKept_setPair (pairKept_enterState .refl)
  have hst : pairState (doDeactivate k m (counted k s)).1 k = 6 := (rd_setPair _ _ _ _).trans (enterState_state (by decide))
  have hans := takeMsg_answered hT (isType_taken hT) rfl rfl (Or.inl (by rw [hst]; decide))
  refine ⟨_, congrArg Host.Outcome.next (if_pos hup), (hans.fields.rd ACT_CP_STATE_STATE).trans hst, ?_, hans.counted hent⟩
  rw [hans.pair]
  exact congrArg ActPair.hold (pair_setPair _ _ _)

theorem protSwitch_orders (hup : isUp s = true) (hT : Taken s k n 0xE m) : Gives (.protSwitch k n m) s fun t =>
    t.act.order = some (msgF m 0 38 1, msgF m 1 0 48, k.val, s.bseq k) ∧ pairState t k = 4 ∧ Counted k s t := by
  have hkept : PairKept k [] (counted k s) (doProtSwitch k m (counted k s)).1 := .sameRegs .refl fun a => reg_mk _ a
  have hst : pairState (doProtSwitch k m (counted k s)).1 k = 4 :=
    (hkept.rd ACT_CP_STATE_STATE).trans (counted_state.trans (by simpa using taken_state hT (rfl : msgRule 0xE = _)))
  have hans := takeMsg_answered hT (isType_taken hT) rfl rfl (Or.inl (by rw [hst]; decide))
  refine ⟨_, congrArg Host.Outcome.next (if_pos hup), ?_, (hans.fields.rd ACT_CP_STATE_STATE).trans hst, hans.counted hkept⟩
  rw [hans.act]
  rfl
end

/-- Settles O25: each message by what its handler leaves, which its answer does not touch. -/
theorem messagesComplete : Obligations.MessagesComplete := by
  unfold Obligations.MessagesComplete
  exact ⟨fun k n m s hup hr ha hc => unknownMessage_counts_crc hup hr ha hc,
    fun k n m s hup hr ha hc ht => unknownMessage_counts_type hup hr ha hc ht,
    fun k n m s hup hT hst hp => lineParams_stores hup hT hst hp, fun k n m s hup hT hn hc => assignTn_ranges hup hT hn hc,
    fun k n m s hup hT ha he => rangingTime_stores hup hT ha he,
    fun k n m s hup hT hst h64 hp1 hp2 hg1 hg2 hb => burstProfile_asks hup hT hst h64 hp1 hp2 hg1 hg2 hb,
    fun k n m s hup hT ha => disable_silences hup hT ha, fun k n m s hup hT ha => enable_clears hup hT ha,
    fun k n m s hup hT => deactivate_stops hup hT, fun k n m s hup hT => protSwitch_orders hup hT⟩

/-! ### What the operations of KEY_CONTROL leave in KLN (R268, R269) -/

/-- From `o` to `s` KLN holds the roots and epochs that it held. -/
structure SlotsOnly (o s : State) : Prop where
  root (n : Nat) : s.root n = o.root n
  lastEpoch (n : Nat) : s.lastEpoch n = o.lastEpoch n
  epoch (n : Nat) : s.epoch n = o.epoch n

/-- An index of a pair is fresh under an epoch, the last its usage has accepted, with the root given. -/
def Keyed (k usage kidx epoch : Nat) (root : Option Bytes) (s : State) : Prop :=
  s.root (3 * k + usage) = root ∧ s.lastEpoch (3 * k + usage) = some epoch ∧ s.epoch (epochKey k usage kidx) = ⟨some epoch, false, true⟩

section
variable {k usage kidx epoch : Nat} {root : Option Bytes} {wrapped : Bytes} {o s t : State}

theorem SlotsOnly.trans (h : SlotsOnly o s) (ht : SlotsOnly s t) : SlotsOnly o t :=
  ⟨fun n => (ht.root n).trans (h.root n), fun n => (ht.lastEpoch n).trans (h.lastEpoch n), fun n => (ht.epoch n).trans (h.epoch n)⟩

theorem slotsOnly_refl : SlotsOnly s s := ⟨fun _ => rfl, fun _ => rfl, fun _ => rfl⟩

theorem slotsOnly_setSlot {n : Nat} {v : KeySlot} : SlotsOnly s (s.setSlot n v) := ⟨fun _ => rfl, fun _ => rfl, fun _ => rfl⟩

theorem slotsOnly_slotTake {n use : Nat} {key : Bytes} : SlotsOnly s (slotTake n use key s) := ⟨fun _ => rfl, fun _ => rfl, fun _ => rfl⟩

theorem slotsOnly_slotRewrite {n use : Nat} {key : Bytes} : SlotsOnly s (slotRewrite n use key s) := by
  unfold slotRewrite
  dsimp only
  split
  · exact slotsOnly_slotTake
  · exact slotsOnly_slotTake
  · split
    · exact slotsOnly_slotTake
    · exact slotsOnly_setSlot
  · exact slotsOnly_setSlot

theorem SlotsOnly.of_kln (h : t.kln = s.kln) : SlotsOnly s t := by
  constructor <;> intro n
  · exact congrArg (fun c : KlnSt => SMap.get (fun _ => none) c.roots n) h
  · exact congrArg (fun c : KlnSt => SMap.get (fun _ => none) c.lastEpoch n) h
  · exact congrArg (fun c : KlnSt => SMap.get (fun _ => {}) c.epochs n) h

theorem klnShow_kln : (klnShow k s).kln = s.kln :=
  (kept_klnShow (kl := [.regs]) (bl := [blkKLN]) Kept.rfl_frame (by decide) (by decide)).frame .kln (by decide)

theorem slotsOnly_klnShow : SlotsOnly s (klnShow k s) := .of_kln klnShow_kln

theorem Keyed.slots (h : Keyed k usage kidx epoch root s) (ht : SlotsOnly s t) : Keyed k usage kidx epoch root t := by
  unfold Keyed
  rwa [ht.root, ht.lastEpoch, ht.epoch]

/-- Deriving the index of a binding leaves it fresh. -/
theorem Keyed.deriveIndex {b : Binding} (h : Keyed k usage kidx epoch root s) (hc : b.cp = k) (hu : b.usage = usage) :
    Keyed k usage kidx epoch root (deriveIndex b kidx s) := by
  subst hc hu
  obtain ⟨hroot, hlast, hep⟩ := h
  unfold Machine.deriveIndex
  dsimp only
  split
  · split
    · exact ⟨hroot, hlast, hep⟩
    · refine ⟨(slotsOnly_slotRewrite.root _).trans hroot, (slotsOnly_slotRewrite.lastEpoch _).trans hlast, ?_⟩
      refine (epoch_setEpoch _ _ _).trans ?_
      rw [hep]
  · exact ⟨hroot, hlast, hep⟩

/-- Setting an index's epoch leaves it fresh, and its usage's root alone. -/
theorem keyIndex_keyed : Keyed k usage kidx epoch (s.root (3 * k + usage)) (keyIndex k usage kidx epoch s) := by
  unfold keyIndex
  dsimp only
  refine List.foldlRecOn (motive := Keyed k usage kidx epoch (s.root (3 * k + usage))) _ _ ⟨rfl, ?_, epoch_setEpoch _ _ _⟩ fun u hu b hb => ?_
  · exact lastEpoch_setLastEpoch _ _ _
  · have hm := (List.mem_filter.1 hb).2
    simp only [Bool.and_eq_true, beq_iff_eq] at hm
    exact hu.deriveIndex hm.1.2 hm.2

theorem eraseIndex_epoch : ((eraseIndex k usage kidx s).epoch (epochKey k usage kidx)).keyed = false :=
  congrArg EpochSt.keyed (epoch_setEpoch _ _ _)

section
variable (hu : usage ≠ 3) (hi : kidx ∈ [1, 2])
include hu hi

/-- A usage and an index that are defined. -/
theorem keyControl_defined : ¬ (usage = 3 ∨ kidx = 0 ∨ kidx = 3) := by
  rcases List.mem_pair.1 hi with h | h <;> omega

/-- OP 0 with a good wrapped root. -/
theorem keyControl_install {kek key : Bytes} (hk : s.kek k = some kek) (hw : keyUnwrap kek wrapped = some key) :
    Keyed k usage kidx epoch (some key) (keyControl k 0 usage kidx epoch wrapped s).1 := by
  unfold keyControl
  rw [if_neg (keyControl_defined hu hi), if_neg (by decide), hk, Option.bind_some, hw]
  exact ((root_setRoot s _ _).symm ▸ keyIndex_keyed (s := (s.setRoot _ _).setEpoch _ _)).slots slotsOnly_klnShow

/-- OP 1 with a root and a higher epoch. -/
theorem keyControl_derive (hr : (s.root (3 * k + usage)).isSome = true)
    (he : (s.lastEpoch (3 * k + usage)).all (fun e => decide (e < epoch)) = true) :
    Keyed k usage kidx epoch (s.root (3 * k + usage)) (keyControl k 1 usage kidx epoch wrapped s).1 := by
  have hnone : (s.root (3 * k + usage)).isNone = false := by rw [Option.isNone_eq_false_iff, hr]
  have hlow : ((s.lastEpoch (3 * k + usage)).map fun e => decide (epoch ≤ e)).getD false = false := by
    cases hl : s.lastEpoch (3 * k + usage) with
    | none => rfl
    | some e =>
      rw [hl, Option.all_some, decide_eq_true_eq] at he
      exact decide_eq_false (Nat.not_le.2 he)
  unfold keyControl
  rw [if_neg (keyControl_defined hu hi), if_neg (by decide)]
  dsimp only
  rw [hnone, hlow, if_neg Bool.false_ne_true, if_neg Bool.false_ne_true]
  exact keyIndex_keyed.slots slotsOnly_klnShow

/-- OP 2 leaves the index without a key. -/
theorem keyControl_eraseIndex : ((keyControl k 2 usage kidx epoch wrapped s).1.epoch (epochKey k usage kidx)).keyed = false := by
  unfold keyControl
  rw [if_neg (keyControl_defined hu hi), if_neg (by decide)]
  exact (congrArg EpochSt.keyed (slotsOnly_klnShow.epoch _)).trans eraseIndex_epoch

/-- OP 3 ends by forgetting the usage's root and both its indexes. -/
theorem keyControl_forgets : ∃ u : State, (keyControl k 3 usage kidx epoch wrapped s).1 = klnShow k
    ((((u.setRoot (3 * k + usage) none).setLastEpoch (3 * k + usage) none).setEpoch (epochKey k usage 1) {}).setEpoch (epochKey k usage 2) {}) := by
  refine ⟨eraseIndex k usage 2 (eraseIndex k usage 1 s), ?_⟩
  unfold keyControl
  rw [if_neg (keyControl_defined hu hi), if_neg (by decide)]
  rfl

theorem keyControl_eraseAll :
    (keyControl k 3 usage kidx epoch wrapped s).1.root (3 * k + usage) = none ∧
      (keyControl k 3 usage kidx epoch wrapped s).1.lastEpoch (3 * k + usage) = none ∧
      (keyControl k 3 usage kidx epoch wrapped s).1.epoch (epochKey k usage 1) = {} ∧
      (keyControl k 3 usage kidx epoch wrapped s).1.epoch (epochKey k usage 2) = {} := by
  have hne : epochKey k usage 1 ≠ epochKey k usage 2 := by unfold epochKey; omega
  obtain ⟨u, e⟩ := keyControl_forgets (k := k) (epoch := epoch) (wrapped := wrapped) (s := s) hu hi
  rw [e, slotsOnly_klnShow.root, slotsOnly_klnShow.lastEpoch, slotsOnly_klnShow.epoch, slotsOnly_klnShow.epoch]
  exact ⟨root_setRoot _ _ _, lastEpoch_setLastEpoch _ _ _, (epoch_setEpoch_ne _ _ hne).trans (epoch_setEpoch _ _ _), epoch_setEpoch _ _ _⟩
end
end

/-! ### Key messages, messages for firmware and accesses (O26) -/

/-! #### The firmware receive queue (R117) -/

section
variable {k a : Nat} {m : Bytes} {s : State}

/-- The receive queue shows itself in its own registers. -/
theorem showRxq_reg (ha : a < 0xA100030) : (showRxq s).reg a = s.reg a := by
  have hne : ∀ b, 0xA100030 ≤ b → a ≠ b := fun b hb e => Nat.not_lt.2 hb (e ▸ ha)
  unfold showRxq
  dsimp only
  split
  · exact reg_wr_ne s _ (hne _ (by decide))
  · refine (foldl_keeps (fun u : State => u.reg a) (fun u i => reg_setReg_ne u _ (hne _ ?_)) _ _).trans ?_
    · exact show 0xA100030 ≤ 0xA100040 + i % 4096 * 8 by omega
    exact (reg_wr_ne _ _ (hne _ (by decide))).trans ((reg_wr_ne _ _ (hne _ (by decide))).trans (reg_wr_ne s _ (hne _ (by decide))))

theorem showRxq_act : (showRxq s).act = s.act :=
  (kept_showRxq (kl := [.regs]) (bl := [blkACT]) Kept.rfl_frame (by decide) (by decide)).frame .act (by decide)

theorem pairKept_showRxq (hk : k < 16) : PairKept k [] s (showRxq s) := fun q hq => by
  simp only [clearOf, Bool.and_eq_true, decide_eq_true_eq] at hq
  exact rd_congr (showRxq_reg (show q.addr + k % 256 * 0x10000 < 0xA100030 by omega))

/-- The receive queue with a message more. -/
def pushed (k : Nat) (m : Bytes) (s : State) : State :=
  showRxq { s with act := { s.act with rxq := s.act.rxq ++ [⟨k, (s.dsfCh k).fc, m⟩] } }

theorem pushRxq_room (h : s.act.rxq.length < 256) : pushRxq k m s = (pushed k m s, true) := if_neg (Nat.not_le.2 h)

theorem pairKept_pushed (hk : k < 16) : PairKept k [] s (pushed k m s) :=
  .trans (.sameRegs .refl fun a => reg_mk _ a) (pairKept_showRxq hk)
end

section
variable {k : Chan} {n : Fin 64} {m : Bytes} {s : State} {type : Nat}

/-- A message that firmware handles joins the receive queue when it has room. -/
theorem takeMsg_firmware (hT : Taken s k n type m) (hf : forFirmware type = true) (hl : s.act.rxq.length < 256)
    (hst : pairState s k ∈ [3, 4]) : (takeMsg k n m (isType type) doFirmware s).act.rxq = s.act.rxq ++ [⟨k, (s.dsfCh k).fc, m⟩] ∧
      Counted k s (takeMsg k n m (isType type) doFirmware s) := by
  obtain ⟨a, e⟩ := takeMsg_new (h := doFirmware) hT (isType_taken hT)
  have he : takeMsg k n m (isType type) doFirmware s = actPoll k (settleMsg k a m .none (pushed k m (counted k s))) := by
    rw [e]
    unfold acceptMsg.acceptNew
    rw [taken_type hT, hf]
    dsimp only
    rw [Bool.true_or, if_pos rfl, pushRxq_room (s := counted k s) hl]
    rfl
  have hkept : PairKept k [] (counted k s) (pushed k m (counted k s)) := pairKept_pushed k.isLt
  have hstate : pairState (pushed k m (counted k s)) k = pairState s k := (hkept.rd ACT_CP_STATE_STATE).trans counted_state
  have hq : Quiet k (pushed k m (counted k s)) := Or.inl (by rw [hstate]; exact (by decide : ∀ x ∈ [3, 4], x ∈ [2, 3, 4, 6]) _ hst)
  have hs : Answered k (pushed k m (counted k s)) (settleMsg k a m .none (pushed k m (counted k s))) := answered_settleMsg
  have hans := hs.trans (answered_actPoll (hq.answered hs).poll)
  rw [he]
  refine ⟨?_, hans.counted hkept⟩
  rw [hans.act]
  exact congrArg ActSt.rxq showRxq_act
end

/-! #### AUTH_CHALLENGE (R267) -/

section
variable {k : Nat} {m rk : Bytes} {s : State}

theorem doAuth_eq (h : s.kln.rk = some rk) : (doAuth k m s).1 =
    klnShow k (s.setKek k (some (kdf rk (kdfLabel 5 k (s.rd (ACT_CP_STATE_TN k)) 0 0 0 (serial s)) (slice m 8 32)))) := by
  unfold doAuth klnAuth
  rw [h, Option.map_some]

theorem doAuth_kek (h : s.kln.rk = some rk) : (doAuth k m s).1.kek k =
    some (kdf rk (kdfLabel 5 k (s.rd (ACT_CP_STATE_TN k)) 0 0 0 (serial s)) (slice m 8 32)) := by
  rw [doAuth_eq h]
  exact (congrArg (fun c : KlnSt => SMap.get (fun _ => none) c.keks k) klnShow_kln).trans (kek_setKek s k _)

theorem pairKept_doAuth (h : s.kln.rk = some rk) : PairKept k [] s (doAuth k m s).1 := by
  rw [doAuth_eq h]
  exact .far .refl (kept_klnShow (kept_st_setKek Kept.rfl_frame (by decide)) (by decide) (by decide))
end

section
variable {k : Chan} {n : Fin 64} {m : Bytes} {s t u : State}

theorem Answered.kln (h : Answered k u t) : t.kln = u.kln := h.kept.frame .kln (by decide)

theorem authChallenge_derives {rk : Bytes} (hup : isUp s = true) (hT : Taken s k n 5 m) (hrk : s.kln.rk = some rk) :
    Gives (.authChallenge k n m) s fun t => Counted k s t ∧
      t.kek k = some (kdf rk (kdfLabel 5 k (s.rd (ACT_CP_STATE_TN k)) 0 0 0 (serial s)) (slice m 8 32)) := by
  have hin : pairState s k ∈ [3, 4] := taken_state hT rfl
  have hrk' : (counted k s).kln.rk = some rk := hrk
  have hkept : PairKept k [] (counted k s) (doAuth k m (counted k s)).1 := pairKept_doAuth hrk'
  have hstate : pairState (doAuth k m (counted k s)).1 k = pairState s k := (hkept.rd ACT_CP_STATE_STATE).trans counted_state
  have hans := takeMsg_answered hT (isType_taken hT) rfl rfl
    (Or.inl (by rw [hstate]; exact (by decide : ∀ x ∈ [3, 4], x ∈ [2, 3, 4, 6]) _ hin))
  have htn : (counted k s).rd (ACT_CP_STATE_TN k) = s.rd (ACT_CP_STATE_TN k) := pairKept_counted.rd ACT_CP_STATE_TN
  have hsn : serial (counted k s) = serial s := counted_reg (window_ne_single (A := 0xA000048) (B := 0xA100028) (by decide)).symm
  refine ⟨_, congrArg Host.Outcome.next (if_pos hup), hans.counted hkept, ?_⟩
  refine (congrArg (fun c : KlnSt => SMap.get (fun _ => none) c.keks k) hans.kln).trans ((doAuth_kek hrk').trans ?_)
  rw [htn, hsn]

/-! #### KEY_CONTROL (R268) -/

/-- An operation of KEY_CONTROL is counted and answered. -/
theorem takeMsg_keyOp {op : Nat} (hT : Taken s k n 6 m) (hop : msgF m 0 36 3 = op) :
    Counted k s (takeMsg k n m (isKeyOp op) (doKeyControl k m) s) ∧
      (takeMsg k n m (isKeyOp op) (doKeyControl k m) s).kln =
        (keyControl k op (msgF m 0 34 2) (msgF m 0 32 2) (msgF m 0 0 32) (slice m 8 40) (counted k s)).1.kln := by
  subst hop
  have hin : pairState s k = 4 := by simpa using taken_state hT (rfl : msgRule 6 = _)
  have hkept : PairKept k [] (counted k s) (doKeyControl k m (counted k s)).1 :=
    .far .refl (kept_keyControl Kept.rfl_frame (by decide) (by decide) (by decide))
  have hstate : pairState (doKeyControl k m (counted k s)).1 k = 4 := (hkept.rd ACT_CP_STATE_STATE).trans (counted_state.trans hin)
  have hi : isKeyOp (msgF m 0 36 3) m = true := Bool.and_eq_true_iff.2 ⟨isType_taken hT, beq_self_eq_true _⟩
  have hans := takeMsg_answered hT hi rfl rfl (Or.inl (by rw [hstate]; decide))
  exact ⟨hans.counted hkept, hans.kln⟩

variable (hup : isUp s = true) (hT : Taken s k n 6 m) (hu : msgF m 0 34 2 ≠ 3) (hi : msgF m 0 32 2 ∈ [1, 2])
include hup hT hu hi

theorem keyInstall_keys {kek root : Bytes} (hop : msgF m 0 36 3 = 0) (hk : s.kek k = some kek)
    (hw : keyUnwrap kek (slice m 8 40) = some root) : Gives (.keyInstall k n m) s fun t => Counted k s t ∧
      Keyed k (msgF m 0 34 2) (msgF m 0 32 2) (msgF m 0 0 32) (some root) t := by
  obtain ⟨hc, hkln⟩ := takeMsg_keyOp hT hop
  exact ⟨_, congrArg Host.Outcome.next (if_pos hup), hc, (keyControl_install (s := counted k s) hu hi hk hw).slots (.of_kln hkln)⟩

theorem keyDerive_keys (hop : msgF m 0 36 3 = 1) (hr : (s.root (3 * k + msgF m 0 34 2)).isSome = true)
    (he : (s.lastEpoch (3 * k + msgF m 0 34 2)).all (fun e => decide (e < msgF m 0 0 32)) = true) :
    Gives (.keyDerive k n m) s fun t => Counted k s t ∧
      Keyed k (msgF m 0 34 2) (msgF m 0 32 2) (msgF m 0 0 32) (s.root (3 * k + msgF m 0 34 2)) t := by
  obtain ⟨hc, hkln⟩ := takeMsg_keyOp hT hop
  exact ⟨_, congrArg Host.Outcome.next (if_pos hup), hc, (keyControl_derive (s := counted k s) hu hi hr he).slots (.of_kln hkln)⟩

theorem keyEraseIndex_erases (hop : msgF m 0 36 3 = 2) : Gives (.keyEraseIndex k n m) s fun t => Counted k s t ∧
    (t.epoch (epochKey k (msgF m 0 34 2) (msgF m 0 32 2))).keyed = false := by
  obtain ⟨hc, hkln⟩ := takeMsg_keyOp hT hop
  exact ⟨_, congrArg Host.Outcome.next (if_pos hup), hc,
    (congrArg EpochSt.keyed ((SlotsOnly.of_kln hkln).epoch _)).trans (keyControl_eraseIndex hu hi)⟩

theorem keyEraseAll_forgets (hop : msgF m 0 36 3 = 3) : Gives (.keyEraseAll k n m) s fun t => Counted k s t ∧
    t.root (3 * k + msgF m 0 34 2) = none ∧ t.lastEpoch (3 * k + msgF m 0 34 2) = none ∧
      t.epoch (epochKey k (msgF m 0 34 2) 1) = {} ∧ t.epoch (epochKey k (msgF m 0 34 2) 2) = {} := by
  obtain ⟨hc, hkln⟩ := takeMsg_keyOp hT hop
  have hs := SlotsOnly.of_kln hkln
  obtain ⟨h1, h2, h3, h4⟩ := keyControl_eraseAll (k := k) (epoch := msgF m 0 0 32) (wrapped := slice m 8 40) (s := counted k s) hu hi
  exact ⟨_, congrArg Host.Outcome.next (if_pos hup), hc, (hs.root _).trans h1, (hs.lastEpoch _).trans h2, (hs.epoch _).trans h3,
    (hs.epoch _).trans h4⟩
end

/-! #### Time of day, wake lists and accesses (R116, R300) -/

section
variable {k : Chan} {n : Fin 64} {m : Bytes} {s t : State}

/-- Counting a message changes none of what an access is judged by. -/
theorem canAccess_counted {i : Initiator} {a : Nat} : canAccess (counted k s) i a = canAccess s i a := rfl

theorem accessRefused_counted {i : Initiator} {f : AccessForm} {wr : Bool} {a : Nat} {v : Word} :
    accessRefused i f wr a v (counted k s) = accessRefused i f wr a v s := rfl

theorem counted_far {a : Nat} (ha : blkOf a ≠ blkACT) : (counted k s).reg a = s.reg a :=
  counted_kept.regFrame a fun h => ha (List.mem_singleton.1 h)

/-- A TIME_OF_DAY on a pair that is not the source in use is ignored, its TEQ and ASYM kept. -/
theorem timeOfDay_ignored (h : timSource s ≠ 1 ∨ shownPair s ≠ some k.val) : timeOfDay k m s =
    (s.setTimLine k (some (fieldOf (wordAt m 24) 0 32, signed 16 (fieldOf (wordAt m 32) 48 16)))).inc TIM_CNT_TOD_IGN := if_pos h

theorem timeOfDay_keeps (hup : isUp s = true) (hT : Taken s k n 0xA m) (hst : pairState s k = 3 ∨ pairState s k = 4)
    (h : timSource s ≠ 1 ∨ shownPair s ≠ some k.val) : Gives (.timeOfDay k n m) s fun t => Counted k s t ∧
      t.timLine k = some (fieldOf (wordAt m 24) 0 32, signed 16 (fieldOf (wordAt m 32) 48 16)) := by
  have hctl : timSource (counted k s) = timSource s := by
    unfold timSource
    rw [rd_congr (q := TIM_CTL_TSRC) (counted_far (by decide))]
  have hshown : shownPair (counted k s) = shownPair s := by
    have hr : (counted k s).reg TIM_STATUS.addr = s.reg TIM_STATUS.addr := counted_far (by decide)
    unfold shownPair
    rw [bit_congr (q := TIM_STATUS_CP_V) hr, rd_congr (q := TIM_STATUS_CP) hr]
  have hu := timeOfDay_ignored (m := m) (s := counted k s) (by rwa [hctl, hshown])
  have hkept : PairKept k [] (counted k s) (timeOfDay k m (counted k s)) := by
    rw [hu]
    exact .far .refl (kept_st_inc (kept_st_setTimLine Kept.rfl_frame (by decide)) (by decide) (by decide))
  have hstate : pairState (timeOfDay k m (counted k s)) k = pairState s k := (hkept.rd ACT_CP_STATE_STATE).trans counted_state
  have hans := takeMsg_answered (h := doTimeOfDay k m) hT (isType_taken hT) rfl rfl
    (Or.inl (by rw [doTimeOfDay, hstate]; rcases hst with h | h <;> rw [h] <;> decide))
  refine ⟨_, congrArg Host.Outcome.next (if_pos hup), hans.counted hkept, ?_⟩
  refine (congrArg (fun l => SMap.get (fun _ => none) l k.val) (hans.line.trans (congrArg (·.tim.line) hu))).trans ?_
  exact SMap.get_set_same _ _ _ _

theorem wakeList_holds (hup : isUp s = true) (hT : Taken s k n 0xF m) (hst : pairState s k = 3 ∨ pairState s k = 4) :
    Gives (.wakeList k n m) s fun t => t.pwr.wakeList = some m ∧ Counted k s t := by
  have hkept : PairKept k [] (counted k s) (doWakeList m (counted k s)).1 := .sameRegs .refl fun a => reg_mk _ a
  have hstate : pairState (doWakeList m (counted k s)).1 k = pairState s k := (hkept.rd ACT_CP_STATE_STATE).trans counted_state
  have hans := takeMsg_answered hT (isType_taken hT) rfl rfl (Or.inl (by rw [hstate]; rcases hst with h | h <;> rw [h] <;> decide))
  refine ⟨_, congrArg Host.Outcome.next (if_pos hup), ?_, hans.counted hkept⟩
  rw [hans.kept.frame .pwr (by decide)]
  rfl

/-- A REG_WRITE that the ACU allows to an SRAM word stores it. -/
theorem regWrite_stores (hup : isUp s = true) (hT : Taken s k n 0x10 m) (hc : canAccess s .mgmt (msgF m 1 0 48) = true)
    (hr : accessRefused .mgmt .word true (msgF m 1 0 48) (wordAt m 16) s = false) (hR : regionOf (msgF m 1 0 48) = .sram) :
    Gives (.regWrite k n m) s fun t => Counted k s t ∧ t.memWord (msgF m 1 0 48) = wordAt m 16 ∧ Frame [.regs, .act, .tim, .mem, .ecc] s t := by
  have hin : pairState s k = 4 := by simpa using taken_state hT (rfl : msgRule 0x10 = _)
  have hu : (doRegWrite m (counted k s)).1 = (counted k s).setWord (msgF m 1 0 48) (wordAt m 16) := by
    refine (busWrite_memory (i := .mgmt) (s := counted k s) ⟨hc, hr⟩ (by rw [hR]; nofun)).trans ?_
    unfold memWrite
    rw [hR]
    rfl
  have hword : Kept false [.mem, .ecc] offAct (counted k s) ((counted k s).setWord (msgF m 1 0 48) (wordAt m 16)) :=
    kept_st_setWord Kept.rfl_frame (by decide) (by decide)
  have hkept : PairKept k [] (counted k s) ((counted k s).setWord (msgF m 1 0 48) (wordAt m 16)) :=
    .far .refl ⟨nofun, frame_mono hword.frame (by decide), hword.regFrame⟩
  have hstate : pairState ((counted k s).setWord (msgF m 1 0 48) (wordAt m 16)) k = 4 :=
    (hkept.rd ACT_CP_STATE_STATE).trans (counted_state.trans hin)
  have hans := takeMsg_answered hT (isType_taken hT) rfl hu (Or.inl (by rw [hstate]; decide))
  refine ⟨_, congrArg Host.Outcome.next (if_pos hup), hans.counted hkept, ?_, ?_⟩
  · refine Eq.trans ?_ (memWord_setWord (counted k s) (msgF m 1 0 48) (wordAt m 16))
    unfold State.memWord State.memBytes State.memByte
    rw [hans.kept.frame .mem (by decide)]
  · exact frame_trans (frame_mono counted_kept.frame (by decide))
      (frame_trans (frame_mono hword.frame (by decide)) (frame_mono hans.kept.frame (by decide)))

/-! The record of the last message of a type. -/

/-- The record of the last message of a type. -/
def lastOf (k type : Nat) (s : State) : Option LastMsg := SMap.get (fun _ => none) (s.pair k).last type

section
variable {k type : Nat}

theorem lastOf_congr (h : (t.pair k).last = (s.pair k).last) : lastOf k type t = lastOf k type s :=
  congrArg (fun l => SMap.get (fun _ => none) l type) h

theorem numbered_last : ((numbered k type s).pair k).last = (s.pair k).last := by
  unfold numbered nextSeq
  dsimp only
  rw [pair_setPair]

theorem queueUp_last : ((queueUp k m s).pair k).last = (s.pair k).last := by
  rw [queueUp_eq]
  split
  · rfl
  · exact (congrArg ActPair.last (pair_setPair _ _ _)).trans numbered_last

theorem sendReply_last {a : Addressing} {r : Reply} : ((sendReply k a m r s).pair k).last = (s.pair k).last := by
  have hcount : ∀ (c : Prop) [Decidable c], ((if c then s.inc KLN_CNT_KC_REJ else s).pair k).last = (s.pair k).last := fun c _ => by
    split <;> rfl
  have hsend : ∀ (c : Bool) (b : Bytes) (u : State), (u.pair k).last = (s.pair k).last →
      ((if c then queueUp k b u else s).pair k).last = (s.pair k).last := fun c b u hu => by
    split
    · exact queueUp_last.trans hu
    · rfl
  unfold sendReply
  dsimp only
  split
  · rfl
  · exact hsend _ _ _ (hcount _)

theorem lastOf_setPair {q : List KeyWait} {l : SMap (Option LastMsg)} :
    lastOf k type (s.setPair k { s.pair k with keyWaits := q, last := l }) = SMap.get (fun _ => none) l type :=
  congrArg (fun p : ActPair => SMap.get (fun _ => none) p.last type) (pair_setPair _ _ _)

/-- An answer that has waited for its key slots is recorded of KEY_CONTROL. -/
theorem keyAnswer_last (ht : type ≠ 6) : lastOf k type (keyAnswer k s) = lastOf k type s := by
  unfold keyAnswer
  refine foldl_keeps (lastOf k type) (fun t w => ?_) _ _
  dsimp only
  split
  · rfl
  · rw [apply_ite (lastOf k type), lastOf_congr queueUp_last, ite_self, lastOf_setPair]
    split
    · split
      · exact SMap.get_set_ne _ _ _ _ _ ht
      · rfl
    · rfl

/-- A pair whose conditions call for no transition keeps its records. -/
theorem actPoll_last (ht : type ≠ 6) (h : pollOnce k s = s) : lastOf k type (actPoll k s) = lastOf k type s := by
  unfold actPoll
  rw [h, h, h, h, lastOf_congr (congrArg (fun c : ActSt => (SMap.get (fun _ => ({} : ActPair)) c.pairs k).last) timPoll_act),
    apply_ite (lastOf k type), keyAnswer_last ht, ite_self]

theorem settleMsg_last {a : Addressing} {r : Reply} (ht : msgType m ≠ 6) :
    lastOf k (msgType m) (settleMsg k a m r s) = some ⟨msgSeq m, replyBody m r⟩ := by
  have hnone : keyPending k m r s = [] := if_neg fun h => ht h.1
  unfold settleMsg
  dsimp only
  rw [hnone, if_pos List.isEmpty_nil]
  unfold lastOf
  rw [sendReply_last]
  exact (congrArg (fun p : ActPair => SMap.get (fun _ => none) p.last (msgType m)) (pair_setPair _ _ _)).trans (SMap.get_set_same _ _ _ _)
end

/-- The answer to a REG_READ of memory. -/
def readBody (m : Bytes) (s : State) : Bytes := regValueBody (msgSeq m) 0 (msgF m 1 0 48) (s.memWord (msgF m 1 0 48)).toNat

theorem doRegRead_sram (hc : canAccess s .mgmt (msgF m 1 0 48) = true) (hr : accessRefused .mgmt .word false (msgF m 1 0 48) 0 s = false)
    (hR : regionOf (msgF m 1 0 48) = .sram) : doRegRead m s = (s, .body 0 (readBody m s)) := by
  have hread : busRead .mgmt .word (msgF m 1 0 48) s = (s.memWord (msgF m 1 0 48), s) := by
    unfold busRead
    rw [hc, if_neg (by decide)]
    dsimp only
    rw [accessRefused_hartActs, hr, if_neg Bool.false_ne_true, hR]
    rfl
  unfold doRegRead
  dsimp only
  rw [hread, hr, if_neg Bool.false_ne_true]
  rfl

/-- A REG_READ that the ACU allows of an SRAM word records an answer with the value read. -/
theorem regRead_answers (hup : isUp s = true) (hT : Taken s k n 0x11 m) (hc : canAccess s .mgmt (msgF m 1 0 48) = true)
    (hr : accessRefused .mgmt .word false (msgF m 1 0 48) 0 s = false) (hR : regionOf (msgF m 1 0 48) = .sram) :
    Gives (.regRead k n m) s fun t => Counted k s t ∧ Frame [.regs, .act, .tim] s t ∧
      lastOf k 0x11 t = some ⟨msgSeq m, some (readBody m s)⟩ := by
  have hin : pairState s k = 4 := by simpa using taken_state hT (rfl : msgRule 0x11 = _)
  have ht := taken_type hT
  obtain ⟨a, e⟩ := takeMsg_handled (h := doRegRead m) hT (isType_taken hT) rfl
  rw [doRegRead_sram (s := counted k s) hc hr hR] at e
  have hs : Answered k (counted k s) (settleMsg k a m (.body 0 (readBody m s)) (counted k s)) := answered_settleMsg
  have hq : Quiet k (counted k s) := Or.inl (by rw [counted_state, hin]; decide)
  have hpoll := (hq.answered hs).poll
  have hans : Answered k (counted k s) (takeMsg k n m (isType 0x11) (doRegRead m) s) := e ▸ hs.trans (answered_actPoll hpoll)
  refine ⟨_, congrArg Host.Outcome.next (if_pos hup), hans.counted (l := []) .refl,
    frame_trans (frame_mono counted_kept.frame (by decide)) (frame_mono hans.kept.frame (by decide)), ?_⟩
  refine (congrArg (lastOf k 0x11) e).trans ((actPoll_last (by decide) hpoll).trans ?_)
  rw [← ht]
  exact settleMsg_last (by rw [ht]; decide)
end

/-- Settles O26: each message by what its handler leaves; the answer and the pair's conditions touch none of it. -/
theorem keyAndFirmwareMessagesComplete : Obligations.KeyAndFirmwareMessagesComplete := by
  unfold Obligations.KeyAndFirmwareMessagesComplete
  have h4 : ∀ {s : State} {k : Nat}, pairState s k ∈ [4] → pairState s k ∈ [3, 4] := fun h => List.mem_cons_of_mem _ h
  refine ⟨fun k n m rk s hup hT hrk => authChallenge_derives hup hT hrk,
    fun k n m kek root s hup hT hop hu hi hk hw => keyInstall_keys hup hT hu hi hop hk hw,
    fun k n m s hup hT hop hu hi hr he => keyDerive_keys hup hT hu hi hop hr he,
    fun k n m s hup hT hop hu hi => keyEraseIndex_erases hup hT hu hi hop,
    fun k n m s hup hT hop hu hi => keyEraseAll_forgets hup hT hu hi hop, fun k n m s hup hT hl => ?_, fun k n m s hup hT hl => ?_,
    fun k n m s hup hT hl => ?_, fun k n m s hup hT hst h => timeOfDay_keeps hup hT hst h,
    fun k n m s hup hT hst => wakeList_holds hup hT hst, fun k n m s hup hT hc hr hR => regWrite_stores hup hT hc hr hR,
    fun k n m s hup hT hc hr hR => regRead_answers hup hT hc hr hR⟩
  · exact ⟨_, congrArg Host.Outcome.next (if_pos hup), takeMsg_firmware hT rfl hl (h4 (taken_state hT rfl))⟩
  · exact ⟨_, congrArg Host.Outcome.next (if_pos hup), takeMsg_firmware hT rfl hl (taken_state hT rfl)⟩
  · exact ⟨_, congrArg Host.Outcome.next (if_pos hup), takeMsg_firmware hT rfl hl (h4 (taken_state hT rfl))⟩

/-! ### Port orders (R115) -/

section
variable {p : Nat} {s : State}

/-- The port is selected, whether or not the switch moves at once, and ACT keeps what it holds. -/
theorem selectPort_shows (hp : p < 2) : (selectPort p s).rd LPH_PORT_SEL = p ∧ (selectPort p s).act = s.act := by
  constructor
  · refine (portSelect_rd (q := LPH_PORT_SEL) rfl (by decide)).trans ((rd_wr_same s p le_of_eval).trans ?_)
    exact Nat.mod_eq_of_lt hp
  · exact (kept_selectPort (kl := [.regs, .cel, .sch, .ube, .chp, .ohs]) (bl := (Set.univ : Set Nat)) (p := p) (Kept.rfl_frame (s := s))
      (by decide) (by decide) (by decide) (by decide) (by decide) (by decide)
      (Set.mem_univ _) (Set.mem_univ _) (Set.mem_univ _) (Set.mem_univ _)).frame .act (by decide)

/-- An order whose frame has come is carried out. -/
theorem portOrder_selects {fc k seq : Nat} (ho : s.act.order = some (p, fc, k, seq)) (hs : seq < s.bseq k) (hf : fc ≤ s.lastB k)
    (hp : p < 2) : (portOrder s).act.order = none ∧ (portOrder s).rd LPH_PORT_SEL = p := by
  have e : portOrder s = selectPort p { s with act := { s.act with order := none } } := by
    unfold portOrder
    rw [ho]
    exact if_neg fun h => by omega
  obtain ⟨hsel, hact⟩ := selectPort_shows (s := { s with act := { s.act with order := none } }) hp
  rw [e]
  exact ⟨congrArg ActSt.order hact, hsel⟩

/-- The port that is not active is selected once every enabled channel has been lost long enough. -/
theorem autoProtect_selects (ha : s.bit ACT_PROT_AUTO_PROT = true) (hr : s.runs blkACT = true) (hm : s.act.autoMoved = none)
    (hsome : ∃ k < 16, s.bit (LPH_CH_CTL_RX_EN k) = true ∧ s.pwr.cpOn.testBit k = true)
    (hlost : ∀ k < 16, s.bit (LPH_CH_CTL_RX_EN k) = true → s.pwr.cpOn.testBit k = true → lostLong s k = true) :
    (autoProtect s).act.autoMoved = some (1 - s.rd LPH_PORT_ACTIVE) ∧ (autoProtect s).rd LPH_PORT_SEL = 1 - s.rd LPH_PORT_ACTIVE := by
  have hon : ∀ k, k ∈ (List.range 16).filter (fun k => s.bit (LPH_CH_CTL_RX_EN k) && s.pwr.cpOn.testBit k) ↔
      k < 16 ∧ s.bit (LPH_CH_CTL_RX_EN k) = true ∧ s.pwr.cpOn.testBit k = true := fun k => by
    rw [List.mem_filter, List.mem_range, Bool.and_eq_true]
  have e : autoProtect s = selectPort (1 - s.rd LPH_PORT_ACTIVE) { s with act := { s.act with autoMoved := some (1 - s.rd LPH_PORT_ACTIVE) } } := by
    unfold autoProtect
    dsimp only
    refine if_pos ?_
    obtain ⟨k, hk, hen, hcp⟩ := hsome
    have hne := List.ne_nil_of_mem ((hon k).2 ⟨hk, hen, hcp⟩)
    rw [ha, hr, hm, Bool.and_eq_true, List.all_eq_true]
    refine ⟨?_, fun j hj => ?_⟩
    · rw [List.isEmpty_eq_false_iff.2 hne]
      rfl
    · obtain ⟨hj16, hjen, hjcp⟩ := (hon j).1 hj
      exact hlost j hj16 hjen hjcp
  obtain ⟨hsel, hact⟩ := selectPort_shows (p := 1 - s.rd LPH_PORT_ACTIVE)
    (s := { s with act := { s.act with autoMoved := some (1 - s.rd LPH_PORT_ACTIVE) } }) (by omega)
  rw [e]
  exact ⟨congrArg ActSt.autoMoved hact, hsel⟩
end

/-! ### The message queues of firmware (R117, R118) -/

/-- The row of ACT_RXQ_CTL. -/
def rowRxqCtl : RegRow :=
  ⟨0xA, 0xA100000, 1, 0x30, 1, 8, 0x0, [⟨63, 1, .w1s, 0, 1⟩, ⟨62, 1, .w1c, 0, 1⟩, ⟨61, 1, .rw, 0, 1⟩, ⟨32, 9, .ro, 0, 511⟩, ⟨0, 4, .ro, 0, 15⟩]⟩

theorem regRow_rxqCtl : regRow? ACT_RXQ_CTL.addr = some rowRxqCtl := by decide +kernel

/-- The row of ACT_TXQ_CMD. -/
def rowTxqCmd : RegRow := ⟨0xA, 0xA100000, 1, 0x80, 1, 8, 0x0, [⟨63, 1, .w1s, 0, 1⟩, ⟨62, 1, .w1c, 0, 1⟩, ⟨0, 4, .rw, 0, 15⟩]⟩

theorem regRow_txqCmd : regRow? ACT_TXQ_CMD.addr = some rowTxqCmd := by decide +kernel

section
variable {i : Initiator} {v : Word} {k : Nat} {s t : State}

theorem storedBy_act {a : Nat} {r : RegRow} : (storedBy i a r v s).act = s.act := storedBy_kept.frame .act (by decide)

/-- The queue shows how many messages it holds. -/
theorem showRxq_count : (showRxq s).rd ACT_RXQ_CTL_COUNT = s.act.rxq.length % 2 ^ 9 := by
  have hcount : (s.wr ACT_RXQ_CTL_COUNT s.act.rxq.length).rd ACT_RXQ_CTL_COUNT = s.act.rxq.length % 2 ^ 9 := rd_wr_same s _ le_of_eval
  unfold showRxq
  dsimp only
  split
  · exact hcount
  · refine (foldl_keeps (fun u : State => u.rd ACT_RXQ_CTL_COUNT) (fun u j => rd_setReg_ne u _ ?_) _ _).trans ?_
    · exact show 0xA100030 ≠ 0xA100040 + j % 4096 * 8 by omega
    · exact (rd_wr_ne _ _ (by decide)).trans ((rd_wr_other _ _ (by decide) (by decide) (by decide)).trans hcount)

/-- An accepted POP takes the head of the receive queue away. -/
theorem regAccess_rxqPop (hA : Accepted i ACT_RXQ_CTL.addr (withField v ACT_RXQ_CTL_POP 1) s) :
    ∃ u : State, regAccess i ACT_RXQ_CTL.addr (withField v ACT_RXQ_CTL_POP 1) s =
      showRxq { u with act := { s.act with rxq := s.act.rxq.drop 1 } } := by
  have hpop : fieldOf (withField v ACT_RXQ_CTL_POP 1) 63 1 = 1 := inField_withField_same v (r := ACT_RXQ_CTL_POP) 1 le_of_eval (by decide)
  have hact := storedBy_act (i := i) (v := withField v ACT_RXQ_CTL_POP 1) (s := s) (a := ACT_RXQ_CTL.addr) (r := rowRxqCtl)
  refine ⟨storedBy i ACT_RXQ_CTL.addr rowRxqCtl (withField v ACT_RXQ_CTL_POP 1) s, ?_⟩
  rw [regAccess_act hA regRow_rxqCtl rfl (by decide) (by decide)]
  unfold actWrite
  dsimp only
  rw [if_neg (fun h => absurd h.1 (by decide)), if_pos ⟨rfl, hpop⟩, hact]

theorem rxqPop_takes (hA : Accepted i ACT_RXQ_CTL.addr (withField v ACT_RXQ_CTL_POP 1) s) : Gives (.rxqPop i v) s fun t =>
    t.act.rxq = s.act.rxq.drop 1 ∧ (s.act.rxq.length ≤ 256 → t.rd ACT_RXQ_CTL_COUNT = s.act.rxq.length - 1) := by
  obtain ⟨u, e⟩ := regAccess_rxqPop hA
  refine ⟨_, congrArg Host.Outcome.next e, congrArg ActSt.rxq showRxq_act, fun hl => showRxq_count.trans ?_⟩
  refine (congrArg (· % 2 ^ 9) List.length_drop).trans (Nat.mod_eq_of_lt ?_)
  omega

/-- Firmware's ACK of a pair's last message of a type is kept as the answer to it. -/
def ackNoted (k : Nat) (m : Bytes) (s : State) : State :=
  if msgType m = 0x21 then
    match SMap.get (fun _ => none) (s.pair k).last (msgF m 0 32 6) with
    | some l =>
      if l.mseq = msgF m 0 24 8 then
        s.setPair k { s.pair k with last := SMap.set (fun _ => none) (s.pair k).last (msgF m 0 32 6) (some { l with answer := some m }) }
      else s
    | none => s
  else s

theorem ackNoted_msgq {m : Bytes} : ((ackNoted k m s).pair k).msgq = (s.pair k).msgq := by
  unfold ackNoted
  split
  · split
    · split
      · rw [pair_setPair]
      · rfl
    · rfl
  · rfl

theorem txqSend_eq : txqSend s =
    if !(msgType (txqMsg s) == 0x21 || msgType (txqMsg s) == 0x23 || msgType (txqMsg s) == 0x24) || !inService s (s.rd ACT_TXQ_CMD_CP) ||
        decide (16 ≤ (s.pair (s.rd ACT_TXQ_CMD_CP)).msgq.length) then s.put ACT_TXQ_CMD_ERR true
    else ackNoted (s.rd ACT_TXQ_CMD_CP) (txqMsg s) (queueUp (s.rd ACT_TXQ_CMD_CP) (txqMsg s) s) := rfl

theorem queueUp_msgq {m : Bytes} (hl : (s.pair k).msgq.length < 16) : ((queueUp k m s).pair k).msgq =
    (s.pair k).msgq ++ [fillMsg (ownTnum s k) (SMap.get (fun _ => 0) (s.pair k).mseq (msgType m)) m] := by
  rw [queueUp_eq, if_neg (Nat.not_le.2 hl), pair_setPair]

/-- A message of ACT_TXQ_DATA that may be sent joins its pair's queue. -/
theorem txqSend_queues (hk : s.rd ACT_TXQ_CMD_CP = k) (ht : msgType (txqMsg s) ∈ [0x21, 0x23, 0x24]) (hs : inService s k = true)
    (hl : (s.pair k).msgq.length < 16) : ((txqSend s).pair k).msgq = (s.pair k).msgq ++
      [fillMsg (ownTnum s k) (SMap.get (fun _ => 0) (s.pair k).mseq (msgType (txqMsg s))) (txqMsg s)] := by
  have htype : (msgType (txqMsg s) == 0x21 || msgType (txqMsg s) == 0x23 || msgType (txqMsg s) == 0x24) = true := by
    simpa [or_assoc] using ht
  rw [txqSend_eq, hk, htype, hs, decide_eq_false (Nat.not_le.2 hl), if_neg (by decide), ackNoted_msgq, queueUp_msgq hl]

/-- An accepted GO sends it: storing the command changes nothing that the message is made of. -/
theorem txqSend_sends (hA : Accepted i ACT_TXQ_CMD.addr (withField v ACT_TXQ_CMD_GO 1) s) (hk : k = inField v ACT_TXQ_CMD_CP)
    (ht : msgType (txqMsg s) ∈ [0x21, 0x23, 0x24]) (hs : inService s k = true) (hl : (s.pair k).msgq.length < 16) :
    Gives (.txqSend i v) s fun t => (t.pair k).msgq = (s.pair k).msgq ++
      [fillMsg (ownTnum s k) (SMap.get (fun _ => 0) (s.pair k).mseq (msgType (txqMsg s))) (txqMsg s)] := by
  have hgo : fieldOf (withField v ACT_TXQ_CMD_GO 1) 63 1 = 1 := inField_withField_same v (r := ACT_TXQ_CMD_GO) 1 le_of_eval (by decide)
  have e : regAccess i ACT_TXQ_CMD.addr (withField v ACT_TXQ_CMD_GO 1) s =
      txqSend (storedBy i ACT_TXQ_CMD.addr rowTxqCmd (withField v ACT_TXQ_CMD_GO 1) s) := by
    rw [regAccess_act hA regRow_txqCmd rfl (by decide) (by decide)]
    unfold actWrite
    dsimp only
    rw [if_neg (fun h => absurd h.1 (by decide)), if_neg (fun h => absurd h.1 (by decide)), if_pos ⟨rfl, hgo⟩]
  refine ⟨_, congrArg Host.Outcome.next e, ?_⟩
  have hcp : (storedBy i ACT_TXQ_CMD.addr rowTxqCmd (withField v ACT_TXQ_CMD_GO 1) s).rd ACT_TXQ_CMD_CP = k :=
    (storedBy_rd_rw ACT_TXQ_CMD_CP rfl regRow_txqCmd (by decide)).trans
      ((inField_withField_disj v 1 le_of_eval le_of_eval (by decide)).trans hk.symm)
  have hpair : (storedBy i ACT_TXQ_CMD.addr rowTxqCmd (withField v ACT_TXQ_CMD_GO 1) s).pair k = s.pair k := by
    unfold State.pair
    rw [storedBy_act]
  have hstate : ∀ q : RF, q.addr = (ACT_CP_STATE k).addr →
      (storedBy i ACT_TXQ_CMD.addr rowTxqCmd (withField v ACT_TXQ_CMD_GO 1) s).rd q = s.rd q := fun q hq =>
    storedBy_rd_ne (by rw [hq]; exact window_ne_single (A := 0xA000030) (B := 0xA100080) (by decide))
  have hmsg : txqMsg (storedBy i ACT_TXQ_CMD.addr rowTxqCmd (withField v ACT_TXQ_CMD_GO 1) s) = txqMsg s := by
    unfold txqMsg
    refine congrArg List.flatten (List.map_congr_left fun j _ => congrArg wordBytes (storedBy_reg_ne ?_))
    exact show 0xA100088 + j % 4096 * 8 ≠ 0xA100080 by omega
  generalize storedBy i ACT_TXQ_CMD.addr rowTxqCmd (withField v ACT_TXQ_CMD_GO 1) s = u at *
  have hserv : inService u k = inService s k := congrArg (fun n => n == 3 || n == 4) (hstate (ACT_CP_STATE_STATE k) rfl)
  have htn : ownTnum u k = ownTnum s k := by
    unfold ownTnum
    rw [show u.bit (ACT_CP_STATE_TN_VALID k) = _ from congrArg (· != 0) (hstate (ACT_CP_STATE_TN_VALID k) rfl), hstate (ACT_CP_STATE_TN k) rfl]
    rfl
  refine (txqSend_queues hcp (by rwa [hmsg]) (by rwa [hserv]) (by rwa [hpair])).trans ?_
  rw [hpair, htn, hmsg]
end

/-- Settles O27: the orders by the port they select, the queues by the write that pops or sends. -/
theorem messageQueuesComplete : Obligations.MessageQueuesComplete := by
  unfold Obligations.MessageQueuesComplete
  exact ⟨fun s p fc k seq hup ho hs hf hp => ⟨_, congrArg Host.Outcome.next (if_pos hup), portOrder_selects ho hs hf hp⟩,
    fun s hup ha hr hm hsome hlost => ⟨_, congrArg Host.Outcome.next (if_pos hup), autoProtect_selects ha hr hm hsome hlost⟩,
    fun i v s hA => rxqPop_takes hA, fun i v k s hA hk ht hs hl => txqSend_sends hA hk ht hs hl⟩
end Sys2Proof.Machine
end

section
/-! PROOFS. The upstream burst family (chapter 06): what an operation leaves of the Chaperones' registers, frames, the shutter, closing,
shutdowns and releases, then O28; NOFRAG waits, a burst begun, encoded and sent, the tables of UBE, and reconciliation, then O29. -/

namespace Sys2Proof.Machine
open Sys2Proof.Spec

set_option Elab.async false

/-! ### Fields of the Chaperones that an operation leaves alone -/

/-- Every block but CHP. -/
def offChp : List Nat := allBlocks.filter fun n => n != blkCHP

/-- A field of channel 0's Chaperone that shares no bit with those of a list. -/
def chpClear (l : List RF) (q : RF) : Bool :=
  decide (0xC000000 ≤ q.addr ∧ q.addr < 0xC010000 ∧ q.lo + q.w ≤ 64) &&
    l.all fun r => decide (0xC000000 ≤ r.addr ∧ r.addr < 0xC010000 ∧ r.lo + r.w ≤ 64 ∧
      (q.addr ≠ r.addr ∨ r.lo + r.w ≤ q.lo ∨ q.lo + q.w ≤ r.lo))

/-- The fields of every channel's Chaperone read as they did, but for those that share a bit with a list's. -/
def ChpKept (l : List RF) (o s : State) : Prop := ∀ k q, chpClear l q = true → s.rd (ofPair k q) = o.rd (ofPair k q)

section
variable {k : Nat} {l l' : List RF} {o s t : State}

theorem chpClear_mono (h : ∀ r ∈ l, r ∈ l') {q : RF} (hq : chpClear l' q = true) : chpClear l q = true := by
  simp only [chpClear, Bool.and_eq_true, List.all_eq_true] at hq ⊢
  exact ⟨hq.1, fun r hr => hq.2 r (h r hr)⟩

theorem chpClear_window {q : RF} (hq : chpClear l q = true) : blkOf (ofPair k q).addr = blkCHP := by
  simp only [chpClear, Bool.and_eq_true, decide_eq_true_eq] at hq
  show (q.addr + k % 256 * 0x10000) / 0x1000000 = 0xC
  omega

theorem ChpKept.refl : ChpKept l s s := fun _ _ _ => rfl

theorem ChpKept.trans (h : ChpKept l o s) (ht : ChpKept l s t) : ChpKept l o t := fun k q hq => (ht k q hq).trans (h k q hq)

theorem ChpKept.mono (h : ChpKept l o s) (hl : ∀ r ∈ l, r ∈ l' := by decide) : ChpKept l' o s := fun k q hq => h k q (chpClear_mono hl hq)

/-- A field apart from those listed reads as it did. -/
theorem ChpKept.rd (h : ChpKept l o s) (F : Nat → RF) (hF : F k = ofPair k (F 0) := by rfl) (hc : chpClear l (F 0) = true := by decide) :
    s.rd (F k) = o.rd (F k) := by
  rw [hF]
  exact h k _ hc

theorem ChpKept.bit (h : ChpKept l o s) (F : Nat → RF) (hF : F k = ofPair k (F 0) := by rfl) (hc : chpClear l (F 0) = true := by decide) :
    s.bit (F k) = o.bit (F k) := congrArg (· != 0) (h.rd F hF hc)

/-- What writes no register of CHP. -/
theorem ChpKept.far (h : ChpKept l o s) (ht : Kept false allParts offChp s t) : ChpKept l o t :=
  h.trans fun _ _ hq => rd_congr (ht.regFrame _ (by rw [chpClear_window hq]; decide))

theorem ChpKept.sameRegs (h : ChpKept l o s) (ht : ∀ a, t.reg a = s.reg a) : ChpKept l o t := h.trans fun _ _ _ => rd_congr (ht _)

/-- A field of the list is written. -/
theorem ChpKept.wr {F : Nat → RF} {n : Nat} (h : ChpKept l o s) (hF : F k = ofPair k (F 0) := by rfl) (hm : F 0 ∈ l := by decide) :
    ChpKept l o (s.wr (F k) n) := by
  refine h.trans fun j q hq => ?_
  simp only [chpClear, Bool.and_eq_true, List.all_eq_true, decide_eq_true_eq] at hq
  obtain ⟨⟨hq1, hq2, hw⟩, hl⟩ := hq
  obtain ⟨hr1, hr2, hr, hd⟩ := hl _ hm
  rw [hF]
  refine rd_wr_other s n hr hw (hd.imp_left fun hne e => hne ?_)
  have e' : q.addr + j % 256 * 0x10000 = (F 0).addr + k % 256 * 0x10000 := e
  omega

theorem ChpKept.put {F : Nat → RF} {b : Bool} (h : ChpKept l o s) (hF : F k = ofPair k (F 0) := by rfl) (hm : F 0 ∈ l := by decide) :
    ChpKept l o (s.put (F k) b) := h.wr hF hm

theorem ChpKept.inc {F : Nat → RF} (h : ChpKept l o s) (hF : F k = ofPair k (F 0) := by rfl) (hm : F 0 ∈ l := by decide) :
    ChpKept l o (s.inc (F k)) := h.wr hF hm

theorem ChpKept.ite {c : Prop} [Decidable c] {u : State} (ht : ChpKept l o t) (hu : ChpKept l o u) : ChpKept l o (if c then t else u) := by
  split <;> assumption

theorem ChpKept.foldl {α : Type} {f : State → α → State} (hf : ∀ s x, ChpKept l o s → ChpKept l o (f s x)) (xs : List α)
    (h : ChpKept l o s) : ChpKept l o (xs.foldl f s) := by
  induction xs generalizing s with
  | nil => exact h
  | cons x xs ih => exact ih (hf s x h)

/-! #### The gate and the drives -/

/-- The fields that a gate which falls clears. -/
def gateFields : List RF := [CHP_STATUS_GATE 0, CHP_STATUS_WIN 0]

/-- The fields that a channel without drives clears. -/
def darkFields : List RF := CHP_STATUS_SHUTTER 0 :: CHP_STATUS_SHUT_RDY 0 :: gateFields

theorem offChp_lphTx : blkOf (LPH_TX_STATUS k).addr ∈ offChp := blk_n (by decide) (by decide) (by decide)
theorem offChp_ubeCnt : blkOf (UBE_CH_CNT1 k).addr ∈ offChp := blk_n (by decide) (by decide) (by decide)

/-- A register of another block is written. -/
theorem ChpKept.setOff {a : Nat} {v : Word} (h : ChpKept l o s) (ha : blkOf a ∈ offChp) : ChpKept l o (s.setReg a v) :=
  h.far (kept_setReg Kept.rfl_frame (by decide) ha)

theorem chpKept_gateDown {n : Nat} (h : ChpKept gateFields o s) : ChpKept gateFields o (gateDown k n s) := by
  have hc : ChpKept gateFields o (countOpen k n s) := h.far (kept_countOpen Kept.rfl_frame (by decide))
  unfold gateDown
  exact ChpKept.setOff (.put (F := CHP_STATUS_WIN) (.put (F := CHP_STATUS_GATE) (.ite hc h))) offChp_lphTx

theorem chpKept_endTail (h : ChpKept gateFields o s) : ChpKept gateFields o (endTail k s) := by
  unfold endTail
  dsimp only
  split
  · exact .ite (chpKept_gateDown (h.sameRegs (reg_setUbeCh _ _ _))) h
  · exact h

theorem chpKept_cutBurst {b : Burst} (h : ChpKept gateFields o s) : ChpKept gateFields o (cutBurst k b s) := by
  have hgate : ChpKept gateFields o (gateDown k (openSymbols s b) (removeBurst k b s)) :=
    chpKept_gateDown (h.far (kept_removeBurst Kept.rfl_frame (by decide)))
  have hops : ChpKept gateFields o (opsBack b (gateDown k (openSymbols s b) (removeBurst k b s))) :=
    hgate.far (kept_opsBack Kept.rfl_frame (by decide))
  unfold cutBurst
  refine ChpKept.far (ChpKept.setOff (ChpKept.foldl (fun t e ht => ?_) _ (ChpKept.foldl (fun t x ht => ?_) _ hops)) offChp_ubeCnt)
    (kept_ubeShow Kept.rfl_frame (by decide) (by decide))
  · exact (ht.far (kept_purge Kept.rfl_frame (by decide) (by decide))).far
      (kept_giveBack Kept.rfl_frame (by decide) (by decide) (by decide) (by decide) (by decide))
  · exact ht.far (kept_refund Kept.rfl_frame (by decide))

theorem chpKept_cutStarted (h : ChpKept gateFields o s) : ChpKept gateFields o (cutStarted k s) := by
  unfold cutStarted
  split
  · exact chpKept_cutBurst h
  · exact h

theorem chpKept_showShutter (h : ChpKept l o s) : ChpKept l o (showShutter k s) :=
  h.far (kept_showShutter Kept.rfl_frame (by decide) (by decide) (by decide))

/-- The drives removed, and the gate down. -/
def darkened (k : Nat) (s : State) : State :=
  cutStarted k (endTail k ((s.put (CHP_STATUS_SHUTTER k) false).put (CHP_STATUS_SHUT_RDY k) false))

theorem chpKept_darkened : ChpKept gateFields ((s.put (CHP_STATUS_SHUTTER k) false).put (CHP_STATUS_SHUT_RDY k) false) (darkened k s) :=
  chpKept_cutStarted (chpKept_endTail .refl)

theorem chpKept_chpDark_gate : ChpKept gateFields ((s.put (CHP_STATUS_SHUTTER k) false).put (CHP_STATUS_SHUT_RDY k) false) (chpDark k s) :=
  chpKept_showShutter (chpKept_gateDown chpKept_darkened)

theorem chpKept_chpDark (h : ChpKept darkFields o s) : ChpKept darkFields o (chpDark k s) :=
  (ChpKept.put (F := CHP_STATUS_SHUT_RDY) (ChpKept.put (F := CHP_STATUS_SHUTTER) h)).trans chpKept_chpDark_gate.mono

theorem gateDown_gate {n : Nat} : (gateDown k n s).bit (CHP_STATUS_GATE k) = false := by
  unfold gateDown
  rw [bit_put_other (q := CHP_STATUS_GATE k) (r := LPH_TX_STATUS_GATE k) _ _ le_of_eval le_of_eval
      (Or.inl (window_ne (A := 0xC000038) (B := 0x8000058) (by decide))),
    bit_put_other (q := CHP_STATUS_GATE k) (r := CHP_STATUS_WIN k) _ _ le_of_eval le_of_eval (Or.inr (Or.inl le_of_eval)),
    bit_put_same _ _ le_of_eval rfl]

/-- A channel without drives: shutter, ready and gate read 0. -/
theorem chpDark_shows : (chpDark k s).bit (CHP_STATUS_SHUTTER k) = false ∧ (chpDark k s).bit (CHP_STATUS_SHUT_RDY k) = false ∧
    (chpDark k s).bit (CHP_STATUS_GATE k) = false := by
  refine ⟨(chpKept_chpDark_gate.bit CHP_STATUS_SHUTTER).trans ?_, (chpKept_chpDark_gate.bit CHP_STATUS_SHUT_RDY).trans ?_, ?_⟩
  · rw [bit_put_other (q := CHP_STATUS_SHUTTER k) (r := CHP_STATUS_SHUT_RDY k) _ _ le_of_eval le_of_eval (Or.inr (Or.inr le_of_eval))]
    exact bit_put_same _ _ le_of_eval rfl
  · exact bit_put_same _ _ le_of_eval rfl
  · exact ((chpKept_showShutter (l := []) .refl).bit CHP_STATUS_GATE).trans gateDown_gate

end

section
variable {k : Nat} {o s t : State}

/-! #### What the pair's machine writes of its Chaperone -/

/-- The fields that the judging of a channel's conditions, and the pair's machine, may write. -/
def reactFields : List RF :=
  [CHP_STATUS_TIME_OK 0, CHP_STATUS_CLK_OK 0, CHP_CNT_CLOSES 0, CHP_COPY_TN_V 0, CHP_COPY_ANN 0] ++ darkFields

/-- TIME_OK and CLK_OK follow their conditions. -/
def timeFields : List RF := [CHP_STATUS_TIME_OK 0, CHP_STATUS_CLK_OK 0]

theorem chpKept_clocked : ChpKept timeFields s (chpClocked k (chpTimed k s)) := by
  have ht : ChpKept timeFields s (chpTimed k s) := by
    unfold chpTimed
    exact .put (F := CHP_STATUS_TIME_OK) .refl
  exact .ite ht (.put (F := CHP_STATUS_CLK_OK) ht)

theorem chpKept_chpReact (h : ChpKept reactFields o s) : ChpKept reactFields o (chpReact k s) := by
  have hc : ChpKept reactFields o (chpClocked k (chpTimed k s)) := h.trans chpKept_clocked.mono
  have hd : ChpKept reactFields o (chpDark k (chpClocked k (chpTimed k s))) := hc.trans (chpKept_chpDark .refl).mono
  rw [chpReact_eq]
  exact .ite (.inc (F := CHP_CNT_CLOSES) hd) hc

theorem chpKept_lineClear (h : ChpKept reactFields o s) : ChpKept reactFields o (lineClear k s) := by
  have hd : ChpKept reactFields o (discardStaged k (clearPend k s)) :=
    (h.far (kept_clearPend Kept.rfl_frame (by decide) (by decide) (by decide))).far (kept_discardStaged Kept.rfl_frame (by decide))
  unfold lineClear
  exact chpKept_chpReact (ChpKept.far (ChpKept.put (F := CHP_COPY_ANN) (ChpKept.put (F := CHP_COPY_TN_V) (hd.sameRegs (reg_setPair _ _ _))))
    (kept_takeCopy Kept.rfl_frame (by decide)))

theorem chpKept_ubeLeave (h : ChpKept reactFields o s) : ChpKept reactFields o (ubeLeave k s) := by
  unfold ubeLeave
  refine ChpKept.far (ChpKept.sameRegs (ChpKept.foldl (fun t b ht => ?_) _ h) (reg_setUbeCh _ _ _))
    (kept_ubeShow Kept.rfl_frame (by decide) (by decide))
  split
  · exact ht
  · refine .ite (ht.trans (chpKept_cutBurst .refl).mono) (ChpKept.setOff (ht.far ?_) offChp_ubeCnt)
    exact kept_returnBurst Kept.rfl_frame (by decide) (by decide) (by decide) (by decide) (by decide) (by decide)

theorem offChp_actState : blkOf (ACT_CP_STATE k).addr ∈ offChp := blk_n (by decide) (by decide) (by decide)
theorem offChp_actEvt : blkOf (ACT_CP_EVT k).addr ∈ offChp := blk_n (by decide) (by decide) (by decide)

theorem chpKept_leaveState {old new : Nat} (h : ChpKept reactFields o s) : ChpKept reactFields o (leaveState k old new s) := by
  have h1 : ChpKept reactFields o (leaveLine k old new s) := .ite (chpKept_ubeLeave h) h
  have h2 : ChpKept reactFields o (leaveAnnounce k old new (leaveLine k old new s)) :=
    .ite (h1.far (kept_dropAnnounce Kept.rfl_frame (by decide) (by decide) (by decide))) h1
  have h3 : ChpKept reactFields o (noteState k old new (leaveAnnounce k old new (leaveLine k old new s))) :=
    .ite (h2.setOff offChp_actState) (ChpKept.setOff (h2.setOff offChp_actState) offChp_actEvt)
  exact .ite (h3.sameRegs (reg_setPair _ _ _)) h3

theorem chpKept_becomeIdle {new : Nat} (h : ChpKept reactFields o s) : ChpKept reactFields o (becomeIdle k new s) := by
  have hf : ChpKept reactFields o (clearStreams k (forgetPair k (timersOff k s))) := by
    refine ChpKept.far (s := forgetPair k (timersOff k s)) (ChpKept.far (h.sameRegs (reg_setPair _ _ _))
      (kept_forgetPair Kept.rfl_frame (by decide) (by decide) (by decide))) ?_
    apply @kept_clearStreams
    · exact Kept.rfl_frame
    all_goals decide
  have hl : ChpKept reactFields o (forgotten k s) := chpKept_lineClear (ChpKept.far
    (hf.far (kept_releaseContexts Kept.rfl_frame (by decide))) (kept_klnForget Kept.rfl_frame (by decide) (by decide) (by decide)))
  rw [becomeIdle_eq]
  exact .ite (ChpKept.sameRegs (hl.setOff offChp_actState) (reg_setPair _ _ _)) hl

theorem chpKept_lineChange {f : LineCopy → LineCopy} (h : ChpKept reactFields o s) : ChpKept reactFields o (lineChange k f s) :=
  h.far (kept_lineChange Kept.rfl_frame (by decide))

theorem chpKept_setPair {v : ActPair} (h : ChpKept reactFields o s) : ChpKept reactFields o (s.setPair k v) := h.sameRegs (reg_setPair s k v)

theorem chpKept_becomeListening {old : Nat} (h : ChpKept reactFields o s) : ChpKept reactFields o (becomeListening k old s) := by
  have h1 : ChpKept reactFields o (timersOff k (s.wr (ACT_CP_STATE_HE_ID k) (s.pair k).heLast)) := chpKept_setPair (h.setOff offChp_actState)
  unfold becomeListening
  refine .ite (chpKept_lineChange (chpKept_setPair h1)) (.ite ?_ (chpKept_setPair h1))
  exact chpKept_lineClear (chpKept_setPair (ChpKept.far (ChpKept.setOff (ChpKept.setOff (chpKept_setPair h1) offChp_actState) offChp_actState)
    (kept_releaseDefault Kept.rfl_frame (by decide))))

theorem chpKept_becomeSpeaking {new : Nat} (h : ChpKept reactFields o s) : ChpKept reactFields o (becomeSpeaking k new s) := by
  have ht : ChpKept reactFields o (timersOff k s) := chpKept_setPair h
  unfold becomeSpeaking
  refine .ite (chpKept_lineChange (chpKept_setPair (h.setOff offChp_actState))) (.ite ?_ (.ite ?_ (chpKept_setPair ht)))
  · exact chpKept_lineChange (chpKept_setPair (ht.setOff offChp_actState))
  · exact chpKept_lineChange (ht.sameRegs (reg_setTimLine _ _ _))

theorem chpKept_enterState {new : Nat} (h : ChpKept reactFields o s) : ChpKept reactFields o (enterState k new s) := by
  rw [enterState_eq]
  exact .ite (chpKept_becomeIdle (chpKept_leaveState h))
    (.ite (chpKept_becomeListening (chpKept_leaveState h)) (chpKept_becomeSpeaking (chpKept_leaveState h)))

theorem chpKept_pollOnce (h : ChpKept reactFields o s) : ChpKept reactFields o (pollOnce k s) := by
  have hn {n : Nat} : ChpKept reactFields o (enterState k n s) := chpKept_enterState h
  unfold pollOnce
  exact .ite (.ite hn hn) (.ite hn (.ite hn (.ite (.ite hn hn) (.ite hn h))))

theorem chpKept_actPoll (h : ChpKept reactFields o s) : ChpKept reactFields o (actPoll k s) := by
  have hk : ChpKept reactFields o (keyAnswer k (pollOnce k (pollOnce k (pollOnce k (pollOnce k s))))) :=
    ChpKept.far (chpKept_pollOnce (chpKept_pollOnce (chpKept_pollOnce (chpKept_pollOnce h))))
      (kept_keyAnswer Kept.rfl_frame (by decide) (by decide) (by decide))
  exact ChpKept.far (.ite hk h) (kept_timPoll Kept.rfl_frame (by decide) (by decide) (by decide))

theorem chpKept_actShutdown (h : ChpKept reactFields o s) : ChpKept reactFields o (actShutdown k s) :=
  .ite (chpKept_actPoll (chpKept_enterState h)) h

theorem chpKept_chpReport {cause : Nat} {inj : Bool} (h : ChpKept reactFields o s) : ChpKept reactFields o (chpReport k cause inj s) :=
  h.far (kept_chpReport Kept.rfl_frame (by decide) (by decide) (by decide))

/-! ### Frames (R140) -/

/-- A channel's Chaperone as a frame of its gate count begins. -/
def frameCounted (k : Nat) (s : State) : ChpCh := { s.chpCh k with open8 := (0 :: (s.chpCh k).open8).take 8 }

theorem chpParse_badHeader {bad : List Nat} {header : Bytes} {entries : List Bytes} (hh : headerOk k (bad.contains 0) header = false) :
    ((chpParse k bad header entries s).chpCh k).windows = (s.chpCh k).windows ∧
      (chpParse k bad header entries s).rd (CHP_CNT_HDR_ERR k) = satAdd (CHP_CNT_HDR_ERR k).w (s.rd (CHP_CNT_HDR_ERR k)) 1 := by
  have e : chpParse k bad header entries s = (s.setChpCh k (frameCounted k s)).inc (CHP_CNT_HDR_ERR k) := if_pos (by rw [hh]; rfl)
  rw [e]
  exact ⟨(congrArg ChpCh.windows (chpCh_setChpCh s k (frameCounted k s))).trans rfl, rd_inc_same _ le_of_eval⟩

theorem chpWindow_congr (h : ∀ a, t.reg a = s.reg a) (frame : Nat) (e : Bytes) : chpWindow t k frame e = chpWindow s k frame e := by
  unfold chpWindow
  dsimp only
  rw [h, rd_congr (h _), rd_congr (h _), bit_congr (h _), bit_congr (h _)]

/-- The one entry of a good frame adds its window to those kept of the frame before. -/
theorem chpParse_window {bad : List Nat} {header e : Bytes} {w : Window} (hh : headerOk k (bad.contains 0) header = true)
    (hn : fieldOf (wordAt header 0) 6 10 = 1) (hb : spanGood bad 128 16 = true) (hc : crc32cOk 16 e = true)
    (hw : chpWindow s k (fieldOf (wordAt header 0) 16 48) e = some w) :
    ((chpParse k bad header [e] s).chpCh k).windows =
        mergeWindow w ((s.chpCh k).windows.filter fun v : Window => (v.frame + 1) % 2 ^ 48 == fieldOf (wordAt header 0) 16 48) ∧
      (chpParse k bad header [e] s).rd (CHP_CNT_WINDOWS k) = satAdd (CHP_CNT_WINDOWS k).w (s.rd (CHP_CNT_WINDOWS k)) 1 := by
  unfold chpParse
  dsimp only
  rw [hh, if_neg (by decide), hn]
  simp only [List.range_one, List.zip_cons_cons, List.zip_nil_right, List.foldl_cons, List.foldl_nil]
  rw [if_neg (by simp [hb, hc]), chpWindow_congr (s := s) fun a => reg_setChpCh _ _ _ a, hw, chpCh_setChpCh]
  dsimp only
  exact ⟨congrArg ChpCh.windows (chpCh_setChpCh _ k _), rd_inc_same _ le_of_eval⟩

end

section
variable {k : Nat} {o s t : State}

/-! ### The shutter (R141) -/

theorem lphTx_ne_ubeStat : (LPH_TX_STATUS k).addr ≠ (UBE_CH_STAT k).addr := window_ne (A := 0x8000058) (B := 0xB000048) (by decide)
theorem ubeStat_ne_chpStatus : (UBE_CH_STAT k).addr ≠ (CHP_STATUS k).addr := window_ne (A := 0xB000048) (B := 0xC000038) (by decide)

theorem bit_put_ne {r q : RF} {b : Bool} (h : q.addr ≠ r.addr) : (s.put r b).bit q = s.bit q := bit_congr (reg_setReg_ne s _ h)

/-- The drives are shown at LPH and UBE as they stand at the Chaperone. -/
theorem showShutter_shows : (showShutter k s).bit (UBE_CH_STAT_SHUT_RDY k) = s.bit (CHP_STATUS_SHUT_RDY k) ∧
    (showShutter k s).bit (LPH_TX_STATUS_GATE k) = s.bit (CHP_STATUS_GATE k) ∧
    (showShutter k s).bit (LPH_TX_STATUS_SHUTTER k) = s.bit (CHP_STATUS_SHUTTER k) := by
  have hlu : (UBE_CH_STAT_SHUT_RDY k).addr ≠ (LPH_TX_STATUS k).addr := lphTx_ne_ubeStat.symm
  have hg : (CHP_STATUS_GATE k).addr ≠ (UBE_CH_STAT k).addr := ubeStat_ne_chpStatus.symm
  have hs : (CHP_STATUS_SHUTTER k).addr ≠ (UBE_CH_STAT k).addr := ubeStat_ne_chpStatus.symm
  unfold showShutter
  dsimp only
  refine ⟨?_, ?_, ?_⟩
  · rw [bit_put_ne (r := LPH_TX_STATUS_SHUTTER k) hlu, bit_put_ne (r := LPH_TX_STATUS_GATE k) hlu]
    exact bit_put_same _ _ le_of_eval rfl
  · rw [bit_put_other (q := LPH_TX_STATUS_GATE k) (r := LPH_TX_STATUS_SHUTTER k) _ _ le_of_eval le_of_eval (Or.inr (Or.inl le_of_eval)),
      bit_put_ne (q := CHP_STATUS_GATE k) (r := UBE_CH_STAT_SHUT_RDY k) hg]
    exact bit_put_same _ _ le_of_eval rfl
  · rw [bit_put_ne (q := CHP_STATUS_SHUTTER k) (r := UBE_CH_STAT_SHUT_RDY k) hs]
    exact bit_put_same _ _ le_of_eval rfl

/-- A shutter whose conditions hold is driven. -/
theorem chpDrive_drives (hc : shutterConds s k = true) (hs : s.bit (CHP_STATUS_SHUTTER k) = false) :
    (chpDrive k s).bit (CHP_STATUS_SHUTTER k) = true ∧ (chpDrive k s).bit (LPH_TX_STATUS_SHUTTER k) = true := by
  have e : chpDrive k s = showShutter k (s.put (CHP_STATUS_SHUTTER k) true) := if_pos (by rw [hc, hs]; rfl)
  have hd : (s.put (CHP_STATUS_SHUTTER k) true).bit (CHP_STATUS_SHUTTER k) = true := bit_put_same _ _ le_of_eval rfl
  rw [e]
  exact ⟨((chpKept_showShutter (l := []) .refl).bit CHP_STATUS_SHUTTER).trans hd, showShutter_shows.2.2.trans hd⟩

/-- A driven shutter gets ready. -/
theorem chpReady_readies (hs : s.bit (CHP_STATUS_SHUTTER k) = true) :
    (chpReady k s).bit (CHP_STATUS_SHUT_RDY k) = true ∧ (chpReady k s).bit (UBE_CH_STAT_SHUT_RDY k) = true := by
  have e : chpReady k s = showShutter k (s.put (CHP_STATUS_SHUT_RDY k) true) := if_pos hs
  have hr : (s.put (CHP_STATUS_SHUT_RDY k) true).bit (CHP_STATUS_SHUT_RDY k) = true := bit_put_same _ _ le_of_eval rfl
  rw [e]
  exact ⟨((chpKept_showShutter (l := []) .refl).bit CHP_STATUS_SHUT_RDY).trans hr, showShutter_shows.1.trans hr⟩

/-! ### Closing (R142, Table 6.9) -/

theorem clocked_sync : inSync (chpClocked k (chpTimed k s)) k = inSync s k := by
  have hne : (DSF_SYNC k).addr ≠ (CHP_STATUS k).addr := window_ne (A := 0x9000028) (B := 0xC000038) (by decide)
  have ht : inSync (chpTimed k s) k = inSync s k := inSync_congr (reg_setReg_ne _ _ hne)
  unfold chpClocked
  split
  · exact ht
  · exact (inSync_congr (reg_setReg_ne _ _ hne)).trans ht

/-- No shutter out of SYNC. -/
theorem shutterConds_sync (h : inSync s k = false) : shutterConds s k = false := by
  unfold shutterConds
  simp [h]

/-- A driven shutter out of SYNC is closed, and the close is counted. -/
theorem chpReact_closes (hs : s.bit (CHP_STATUS_SHUTTER k) = true) (hy : inSync s k = false) :
    (chpReact k s).bit (CHP_STATUS_SHUTTER k) = false ∧ (chpReact k s).bit (CHP_STATUS_SHUT_RDY k) = false ∧
      (chpReact k s).bit (CHP_STATUS_GATE k) = false ∧
      (chpReact k s).rd (CHP_CNT_CLOSES k) = satAdd (CHP_CNT_CLOSES k).w (s.rd (CHP_CNT_CLOSES k)) 1 := by
  have e : chpReact k s = (chpDark k (chpClocked k (chpTimed k s))).inc (CHP_CNT_CLOSES k) := by
    rw [chpReact_eq, chpKept_clocked.bit CHP_STATUS_SHUTTER, hs, shutterConds_sync (clocked_sync.trans hy)]
    exact if_pos rfl
  have hcnt : ∀ u : State, ChpKept [CHP_CNT_CLOSES 0] u (u.inc (CHP_CNT_CLOSES k)) := fun _ => .inc (F := CHP_CNT_CLOSES) .refl
  have hclosed : (chpDark k (chpClocked k (chpTimed k s))).rd (CHP_CNT_CLOSES k) = s.rd (CHP_CNT_CLOSES k) :=
    ((chpKept_chpDark .refl).rd CHP_CNT_CLOSES).trans (chpKept_clocked.rd CHP_CNT_CLOSES)
  obtain ⟨hshut, hrdy, hgate⟩ := chpDark_shows (k := k) (s := chpClocked k (chpTimed k s))
  rw [e]
  refine ⟨((hcnt _).bit CHP_STATUS_SHUTTER).trans hshut, ((hcnt _).bit CHP_STATUS_SHUT_RDY).trans hrdy, ((hcnt _).bit CHP_STATUS_GATE).trans hgate,
    (rd_inc_same _ le_of_eval).trans ?_⟩
  rw [hclosed]
  rfl

/-! ### Shutdowns (R142) -/

/-- CHP_SIL stands apart from CAUSE, whatever the channels. -/
theorem sil_wr_cause {j n : Nat} : (s.wr (CHP_STATUS_CAUSE k) n).rd (CHP_STATUS_SIL j) = s.rd (CHP_STATUS_SIL j) :=
  rd_wr_other s n le_of_eval le_of_eval (Or.inr (Or.inl le_of_eval))

/-- A channel without drives, silenced with a cause. -/
def silenced (k cause : Nat) (s : State) : State := (showSil k true (chpDark k s)).wr (CHP_STATUS_CAUSE k) cause

theorem chpShut_eq {cause : Nat} (h : s.bit (CHP_STATUS_SIL k) = false) : chpShut k cause s =
    clearCopy k ((silenced k cause s).setChpCh k { (silenced k cause s).chpCh k with windows := [], relReq := false }) := by
  unfold chpShut
  exact if_neg (by rw [h]; decide)

/-- What clears a copy leaves every status register alone. -/
theorem clearCopy_rd {q : RF} (hq : q.addr % 0x10000 = 0x38) : (clearCopy k s).rd q = s.rd q := by
  have hcopy : q.addr ≠ (CHP_COPY k).addr := fun e => by
    have h : (0xC000020 + k % 256 * 0x10000) % 0x10000 = 0x38 := (congrArg (· % 0x10000) e).symm.trans hq
    omega
  unfold clearCopy
  refine (foldl_keeps (fun u : State => u.rd q) (fun u n => rd_setReg_ne u _ fun e => ?_) _ _).trans ?_
  · have h : (0xC000800 + k % 256 * 0x10000 + n % 4096 * 8) % 0x10000 = 0x38 := (congrArg (· % 0x10000) e).symm.trans hq
    omega
  · exact (rd_setReg_ne _ _ hcopy).trans (rd_setReg_ne _ _ hcopy)

/-- CHP_SIL is shown elsewhere in no status register. -/
theorem showSil_rd {b : Bool} {q : RF} (hq : q.addr % 0x10000 = 0x38) : (showSil k b s).rd q = (s.put (CHP_STATUS_SIL k) b).rd q := by
  have hact : q.addr ≠ (ACT_CP_STATE k).addr := fun e => by
    have h : (0xA000030 + k % 256 * 0x10000) % 0x10000 = 0x38 := (congrArg (· % 0x10000) e).symm.trans hq
    omega
  have hall : q.addr ≠ CHP_SIL_ALL.addr := fun e => absurd ((congrArg (· % 0x10000) e).symm.trans hq) (by decide)
  unfold showSil
  dsimp only
  split <;> exact (rd_setReg_ne _ _ hall).trans (rd_setReg_ne _ _ hact)

theorem chpStatus_offset : (CHP_STATUS k).addr % 0x10000 = 0x38 := by
  show (0xC000038 + k % 256 * 0x10000) % 0x10000 = 0x38
  omega

/-- A channel that is shut down has CHP_SIL and its cause. -/
theorem chpShut_shuts {cause : Nat} (h : s.bit (CHP_STATUS_SIL k) = false) (hc : cause < 8) : 
    (chpShut k cause s).bit (CHP_STATUS_SIL k) = true ∧ (chpShut k cause s).rd (CHP_STATUS_CAUSE k) = cause := by
  have hoff := chpStatus_offset (k := k)
  rw [chpShut_eq h]
  constructor
  · rw [bit_eq, clearCopy_rd (q := CHP_STATUS_SIL _) hoff, rd_setChpCh, silenced, sil_wr_cause, showSil_rd (q := CHP_STATUS_SIL _) hoff]
    exact bit_put_same _ _ le_of_eval rfl
  · rw [clearCopy_rd (q := CHP_STATUS_CAUSE _) hoff, rd_setChpCh]
    exact (rd_wr_same _ _ le_of_eval).trans (Nat.mod_eq_of_lt hc)

/-- A channel that is shut down stays so while others are. -/
theorem chpShut_keeps {cause j : Nat} (h : s.bit (CHP_STATUS_SIL j) = true) : (chpShut k cause s).bit (CHP_STATUS_SIL j) = true := by
  have hoff := chpStatus_offset (k := j)
  cases hk : s.bit (CHP_STATUS_SIL k) with
  | true =>
    unfold chpShut
    rw [hk, if_pos rfl]
    exact h
  | false =>
    have hdark : (chpDark k s).rd (CHP_STATUS_SIL j) = s.rd (CHP_STATUS_SIL j) := (chpKept_chpDark .refl).rd CHP_STATUS_SIL
    rw [chpShut_eq hk, bit_eq, clearCopy_rd (q := CHP_STATUS_SIL _) hoff, rd_setChpCh, silenced, sil_wr_cause,
      showSil_rd (q := CHP_STATUS_SIL _) hoff]
    by_cases ha : (CHP_STATUS j).addr = (CHP_STATUS k).addr
    · rw [show CHP_STATUS_SIL j = CHP_STATUS_SIL k from congrArg (fun a => (⟨a, 63, 1⟩ : RF)) ha]
      exact bit_put_same _ _ le_of_eval rfl
    · rw [rd_put_other (q := CHP_STATUS_SIL j) (r := CHP_STATUS_SIL k) _ _ le_of_eval le_of_eval (Or.inl ha), hdark]
      exact h

/-- A shutdown of a channel that has none leaves it with its cause. -/
theorem shutDown_shuts {k : Chan} {cause : Nat} {inj : Bool} (h : s.bit (CHP_STATUS_SIL k) = false) (hc : cause < 8) :
    ShutDown k cause (shutDown k cause inj s) := by
  have e : shutDown k cause inj s = actShutdown k (chpReport k cause inj (chpShut k cause s)) := if_neg (by rw [h]; decide)
  have hk : ChpKept reactFields (chpShut k cause s) (shutDown k cause inj s) := by
    rw [e]
    exact chpKept_actShutdown (chpKept_chpReport .refl)
  obtain ⟨hsil, hcause⟩ := chpShut_shuts h hc
  exact ⟨(hk.bit CHP_STATUS_SIL).trans hsil, (hk.rd CHP_STATUS_CAUSE).trans hcause⟩

/-- The channels below `n` are shut down for the whole device. -/
def shutUpTo (n : Nat) (s : State) : State := (List.range n).foldl (fun s k => actShutdown k (chpShut k 7 s)) s

theorem shutUpTo_succ (n : Nat) (s : State) : shutUpTo (n + 1) s = actShutdown n (chpShut n 7 (shutUpTo n s)) := by
  unfold shutUpTo
  rw [List.range_succ, List.foldl_append]
  rfl

theorem shutUpTo_shuts {n j : Nat} (h : j < n) : (shutUpTo n s).bit (CHP_STATUS_SIL j) = true := by
  induction n with
  | zero => exact absurd h (Nat.not_lt_zero j)
  | succ n ih =>
    rw [shutUpTo_succ]
    refine ((chpKept_actShutdown .refl).bit CHP_STATUS_SIL).trans ?_
    rcases Nat.lt_succ_iff_lt_or_eq.1 h with hj | rfl
    · exact chpShut_keeps (ih hj)
    · cases hs : (shutUpTo j s).bit (CHP_STATUS_SIL j) with
      | true => exact chpShut_keeps hs
      | false => exact (chpShut_shuts hs (by decide)).1

theorem shutDownAll_shuts {j : Nat} (h : j < 16) : (shutDownAll s).bit (CHP_STATUS_SIL j) = true := by
  have hr : ChpKept reactFields (shutUpTo 16 s) (shutDownAll s) := .ite (chpKept_chpReport .refl) .refl
  exact (hr.bit CHP_STATUS_SIL).trans (shutUpTo_shuts h)
end

/-! ### A release (R144) -/

theorem regionOf_chp {a : Nat} (h : blkOf a = blkCHP) : regionOf a = .regs := by
  have h' : a / 0x1000000 = 0xC := h
  exact if_pos (by omega)

theorem blockWrite_chp {l a : Nat} {v : Word} {o s : State} (h : blkOf a = blkCHP) : blockWrite l a v o s = chpWrite a v s := by
  unfold blockWrite
  rw [h]
  rfl

/-- The row of CHP_CTL. -/
def rowChpCtl : RegRow := ⟨0xC, 0xC000000, 16, 0x30, 1, 8, 0x0, [⟨1, 1, .w1c, 0, 1⟩, ⟨0, 1, .w1s, 0, 1⟩]⟩

theorem regRow_chpCtl : ∀ k : Chan, regRow? (CHP_CTL k).addr = some rowChpCtl := by decide +kernel

theorem bankOf_chpCtl : ∀ k : Chan, bankOf (CHP_CTL k).addr ≠ some (CHP_CTL k).addr := by decide +kernel

theorem blkOf_chpCtl : ∀ k : Chan, blkOf (CHP_CTL k).addr = blkCHP := by decide

theorem unit_chpCtl : ∀ k : Chan, (CHP_CTL k).addr % 0x1000000 / 0x10000 = k := by decide

section
variable {i : Initiator} {k : Chan} {v : Word} {held pass : Bool} {s u : State}

/-- The state in which a release of a channel is asked for. -/
def releaseAsked (i : Initiator) (k : Chan) (v : Word) (s : State) : State :=
  let t := storedBy i (CHP_CTL k).addr rowChpCtl (withField v (CHP_CTL_RELEASE k) 1) s
  t.setChpCh k { t.chpCh k with relReq := true }

/-- An accepted write of RELEASE asks for the release. -/
theorem regAccess_release (hA : Accepted i (CHP_CTL k).addr (withField v (CHP_CTL_RELEASE k) 1) s) :
    regAccess i (CHP_CTL k).addr (withField v (CHP_CTL_RELEASE k) 1) s = releaseAsked i k v s := by
  have hgo : fieldOf (withField v (CHP_CTL_RELEASE k) 1) 0 1 = 1 :=
    inField_withField_same v (r := CHP_CTL_RELEASE k) 1 le_of_eval (by decide : 1 < 2 ^ 1)
  have hp : (CHP_CTL k).addr ≠ TSK_POST.addr := fun e => absurd ((blkOf_chpCtl k).symm.trans (congrArg blkOf e)) (by decide)
  rw [regAccess_eq hA.1 hA.2 (regionOf_chp (blkOf_chpCtl k)) hp, regWrite_eq (regRow_chpCtl k) (bankOf_chpCtl k), blockWrite_chp (blkOf_chpCtl k),
    regStore_rw (by decide) (by decide) (by decide) (by decide), hartActs_reg]
  unfold chpWrite
  dsimp only
  rw [unit_chpCtl k, if_pos ⟨k.isLt, rfl, hgo⟩]
  rfl

theorem releaseAsked_rd {q : RF} (h : q.addr ≠ (CHP_CTL k).addr) : (releaseAsked i k v s).rd q = s.rd q :=
  (rd_setChpCh _ _ _ _).trans (storedBy_rd_ne h)

theorem releaseAsked_bit (q : RF) (h : q.addr ≠ (CHP_CTL k).addr) : (releaseAsked i k v s).bit q = s.bit q :=
  congrArg (· != 0) (releaseAsked_rd h)

theorem releaseAsked_far (q : RF) (h : blkOf q.addr ≠ blkCHP) : (releaseAsked i k v s).rd q = s.rd q :=
  releaseAsked_rd fun e => h ((congrArg blkOf e).trans (blkOf_chpCtl k))

theorem chpStatus_ne_chpCtl : (CHP_STATUS k).addr ≠ (CHP_CTL k).addr := window_ne (A := 0xC000038) (B := 0xC000030) (by decide)

/-- The request is no longer open. -/
def releaseTaken (k : Nat) (s : State) : State := s.setChpCh k { s.chpCh k with relReq := false }

/-- What an open request comes to on a channel that is shut down. -/
theorem chpRelease_eq (hr : (s.chpCh k).relReq = true) (hs : s.bit (CHP_STATUS_SIL k) = true) : chpRelease k held pass s =
    if s.runs blkCHP && s.bit (CHP_STATUS_CLK_OK k) && held && !s.bit FLT_SUMMARY_FATAL && pass then
      (showSil k false ((releaseTaken k s).wr (CHP_STATUS_CAUSE k) 0), true)
    else ((releaseTaken k s).put (CHP_CTL_REL_FAIL k) true, false) := by
  have e : ∀ q, (releaseTaken k s).bit q = s.bit q := bit_setChpCh s k _
  unfold chpRelease
  rw [if_pos hr]
  dsimp only
  change (if !(releaseTaken k s).bit (CHP_STATUS_SIL k) then _ else if (releaseTaken k s).runs blkCHP && (releaseTaken k s).bit (CHP_STATUS_CLK_OK k)
    && held && !(releaseTaken k s).bit FLT_SUMMARY_FATAL && pass then _ else _) = _
  rw [e, e, e, hs, if_neg (by decide), show (releaseTaken k s).runs blkCHP = s.runs blkCHP from runs_setChpCh s k _ _]
  rfl

theorem releaseAsked_request : ((releaseAsked i k v s).chpCh k).relReq = true := congrArg ChpCh.relReq (chpCh_setChpCh _ _ _)

theorem releaseAsked_sil : (releaseAsked i k v s).bit (CHP_STATUS_SIL k) = s.bit (CHP_STATUS_SIL k) :=
  releaseAsked_bit (CHP_STATUS_SIL k) chpStatus_ne_chpCtl

/-- What an accepted RELEASE of a channel that is shut down comes to. -/
theorem releaseChannel_eq (hA : Accepted i (CHP_CTL k).addr (withField v (CHP_CTL_RELEASE k) 1) s) (hs : s.bit (CHP_STATUS_SIL k) = true) :
    releaseChannel i k v held pass s =
      if s.runs blkCHP && s.bit (CHP_STATUS_CLK_OK k) && held && !s.bit FLT_SUMMARY_FATAL && pass then
        actPoll k (showSil k false ((releaseTaken k (releaseAsked i k v s)).wr (CHP_STATUS_CAUSE k) 0))
      else (releaseTaken k (releaseAsked i k v s)).put (CHP_CTL_REL_FAIL k) true := by
  have hrun : (releaseAsked i k v s).runs blkCHP = s.runs blkCHP := by
    unfold State.runs
    rw [releaseAsked_far _ (by decide)]
  have hfat : (releaseAsked i k v s).bit FLT_SUMMARY_FATAL = s.bit FLT_SUMMARY_FATAL :=
    congrArg (· != 0) (releaseAsked_far FLT_SUMMARY_FATAL (by decide))
  unfold releaseChannel
  dsimp only
  rw [regAccess_release hA, chpRelease_eq releaseAsked_request (releaseAsked_sil.trans hs), hrun,
    releaseAsked_bit (CHP_STATUS_CLK_OK k) chpStatus_ne_chpCtl, hfat]
  split
  · exact if_pos rfl
  · exact if_neg Bool.false_ne_true

/-- A release that succeeds clears CHP_SIL and the cause. -/
theorem releaseChannel_releases (hA : Accepted i (CHP_CTL k).addr (withField v (CHP_CTL_RELEASE k) 1) s) (hs : s.bit (CHP_STATUS_SIL k) = true)
    (hr : s.runs blkCHP = true) (hc : s.bit (CHP_STATUS_CLK_OK k) = true) (hf : s.bit FLT_SUMMARY_FATAL = false) :
    (releaseChannel i k v true true s).bit (CHP_STATUS_SIL k) = false ∧
      (releaseChannel i k v true true s).rd (CHP_STATUS_CAUSE k) = 0 := by
  rw [releaseChannel_eq hA hs, hr, hc, hf, if_pos (by decide)]
  refine ⟨((chpKept_actPoll .refl).bit CHP_STATUS_SIL).trans ?_, ((chpKept_actPoll .refl).rd CHP_STATUS_CAUSE).trans ?_⟩
  · rw [bit_eq, showSil_rd (q := CHP_STATUS_SIL k) chpStatus_offset]
    exact bit_put_same _ _ le_of_eval rfl
  · rw [showSil_rd (q := CHP_STATUS_CAUSE k) chpStatus_offset,
      rd_put_other (q := CHP_STATUS_CAUSE k) (r := CHP_STATUS_SIL k) _ _ le_of_eval le_of_eval (Or.inr (Or.inr le_of_eval))]
    exact rd_wr_same _ _ le_of_eval

/-- A release that fails sets REL_FAIL, and the channel stays shut down. -/
theorem releaseChannel_fails (hA : Accepted i (CHP_CTL k).addr (withField v (CHP_CTL_RELEASE k) 1) s) (hs : s.bit (CHP_STATUS_SIL k) = true)
    (hn : held = false ∨ pass = false ∨ s.bit FLT_SUMMARY_FATAL = true) :
    (releaseChannel i k v held pass s).bit (CHP_STATUS_SIL k) = true ∧
      (releaseChannel i k v held pass s).bit (CHP_CTL_REL_FAIL k) = true := by
  have hno : (s.runs blkCHP && s.bit (CHP_STATUS_CLK_OK k) && held && !s.bit FLT_SUMMARY_FATAL && pass) = false := by
    rcases hn with h | h | h <;> simp [h]
  rw [releaseChannel_eq hA hs, hno, if_neg (by decide)]
  refine ⟨?_, bit_put_same _ _ le_of_eval rfl⟩
  exact (bit_put_ne (q := CHP_STATUS_SIL k) (r := CHP_CTL_REL_FAIL k) chpStatus_ne_chpCtl).trans
    ((bit_setChpCh _ _ _ _).trans (releaseAsked_sil.trans hs))
end

/-! ### ChaperoneComplete -/

/-- Settles O28: the frames by the windows they leave, the shutter by what is shown, each cause by the shutdown it comes to, a release by
what an open request does. -/
theorem chaperoneComplete : Obligations.ChaperoneComplete := by
  unfold Obligations.ChaperoneComplete
  refine ⟨fun k header entries s hup hh => ?_, fun k header e w s hup hh hn hb hc hw => ?_, fun k s hup hc hs => ?_, fun k s hup hs => ?_,
    fun k s hup hs hy => ?_, fun k b s hup hs hb hg => ?_, fun k s hup hs ho => ?_, fun k n s hup hs hb hl => ?_, fun k s hup hs hd => ?_,
    fun k n s hup hs hy hp hn => ?_, fun k s hup hs => ?_, fun s hup hf => ?_, fun i k v s hA hs hr hc hf => ?_,
    fun i k v held pass s hA hs hn => ?_⟩
  · exact ⟨_, congrArg Host.Outcome.next (if_pos hup), chpParse_badHeader hh⟩
  · exact ⟨_, congrArg Host.Outcome.next (if_pos hup), chpParse_window hh hn hb hc hw⟩
  · exact ⟨_, congrArg Host.Outcome.next (if_pos hup), chpDrive_drives hc hs⟩
  · exact ⟨_, congrArg Host.Outcome.next (if_pos hup), chpReady_readies hs⟩
  · exact ⟨_, congrArg Host.Outcome.next (if_pos hup), chpReact_closes hs hy⟩
  · have e : gateOutside k s = shutDown k 1 false s := by
      unfold gateOutside
      rw [hb]
      exact if_neg (by rw [hg]; decide)
    exact ⟨_, congrArg Host.Outcome.next ((if_pos hup).trans e), shutDown_shuts hs (by decide)⟩
  · have e : clockLost k s = shutDown k 2 false (s.put (CHP_STATUS_CLK_OK k) false) := if_pos ho
    refine ⟨_, congrArg Host.Outcome.next ((if_pos hup).trans e), shutDown_shuts ?_ (by decide)⟩
    exact (bit_put_other (q := CHP_STATUS_SIL k) (r := CHP_STATUS_CLK_OK k) _ _ le_of_eval le_of_eval (Or.inr (Or.inl le_of_eval))).trans hs
  · have e : gateTooLong k n.toNat s = shutDown k 3 false s := if_pos (by rw [hb, decide_eq_true hl]; rfl)
    exact ⟨_, congrArg Host.Outcome.next ((if_pos hup).trans e), shutDown_shuts hs (by decide)⟩
  · exact ⟨_, congrArg Host.Outcome.next ((if_pos hup).trans (if_pos hd)), shutDown_shuts hs (by decide)⟩
  · have e : dividerOff k n.toNat s = shutDown k 5 false s := if_pos (by rw [hy, hp, decide_eq_true hn]; rfl)
    exact ⟨_, congrArg Host.Outcome.next ((if_pos hup).trans e), shutDown_shuts hs (by decide)⟩
  · exact ⟨_, congrArg Host.Outcome.next (if_pos hup), shutDown_shuts hs (by decide)⟩
  · exact ⟨_, congrArg Host.Outcome.next ((if_pos hup).trans (if_pos (by rw [hf]; rfl))), fun k hk => shutDownAll_shuts hk⟩
  · exact ⟨_, rfl, releaseChannel_releases hA hs hr hc hf⟩
  · exact ⟨_, rfl, releaseChannel_fails hA hs hn⟩

/-! ### The channels of UBE -/

section
variable {k key : Nat} {b : Burst} {p : QPkt} {o s t : State}

theorem ubeCh_congr (h : t.ube = s.ube) : t.ubeCh k = s.ubeCh k := congrArg (fun u : UbeSt => SMap.get (fun _ => ({} : UbeCh)) u.chans k) h

theorem chpCh_congr (h : t.chp = s.chp) : t.chpCh k = s.chpCh k := congrArg (fun u => SMap.get (fun _ => ({} : ChpCh)) u k) h

theorem ubeShow_ubeCh : (ubeShow k s).ubeCh k = s.ubeCh k := by
  have h : Kept false [.regs] [blkUBE] s (ubeShow k s) := kept_ubeShow Kept.rfl_frame (by decide) (by decide)
  exact ubeCh_congr (h.frame .ube (by decide))

theorem ubeCnt0_ne_ubeStat : (UBE_CH_CNT0 k).addr ≠ (UBE_CH_STAT k).addr := window_ne (A := 0xB000050) (B := 0xB000048) (by decide)

theorem ubeShow_rd {q : RF} (h : q.addr ≠ (UBE_CH_STAT k).addr) : (ubeShow k s).rd q = s.rd q := (rd_setReg_ne _ _ h).trans (rd_setReg_ne _ _ h)

/-- A burst that replaces a held one is held. -/
theorem mem_putBurst {new : Burst} (h : b ∈ (s.ubeCh k).bursts) : new ∈ ((putBurst k b new s).ubeCh k).bursts := by
  unfold putBurst
  rw [ubeCh_setUbeCh]
  exact List.mem_map.2 ⟨b, h, if_pos rfl⟩

theorem mem_of_sending (h : sending s k = some b) : b ∈ (s.ubeCh k).bursts := List.mem_of_find?_eq_some h

theorem mem_of_nextBurst (h : nextBurst s k = some b) : b ∈ (s.ubeCh k).bursts := List.mem_of_find?_eq_some h

/-! ### NOFRAG waits (R130) -/

theorem lq_single {q : LeafQ} (h : s.cel.queues = [(key, q)]) : s.lq key = q := by
  unfold State.lq
  rw [h]
  simp [SMap.get]

/-- The packet at a leaf's head is dropped, and the drop is counted. -/
theorem dropHead_counts {l : List QPkt} (h : (s.lq key).pkts = p :: l) : (dropHead k key s).rd (UBE_CH_CNT1_PKT_DROP k) =
    satAdd (UBE_CH_CNT1_PKT_DROP k).w (s.rd (UBE_CH_CNT1_PKT_DROP k)) 1 := by
  have e : dropHead k key s = leafTouch key (dropPkt k key p (popHead key s)) := by
    unfold dropHead
    rw [h]
  have htouch : ∀ u : State, Kept false [.sch] ([] : List Nat) u (leafTouch key u) := fun _ => kept_leafTouch Kept.rfl_frame (by decide)
  have hfree : Kept false [.regs, .cel] [blkCEL] s (freeCells key p.cells (popHead key s)) :=
    kept_freeCells (kept_popHead Kept.rfl_frame (by decide)) (by decide) (by decide) (by decide)
  have hblk : blkOf (UBE_CH_CNT1_PKT_DROP k).addr = blkUBE := blkOf_array (B := 0xB000058) (by decide) (array_le (by decide))
  rw [e, rd_congr ((htouch _).regFrame _ nofun)]
  refine (rd_inc_same _ le_of_eval).trans ?_
  rw [rd_congr (hfree.regFrame _ (by rw [hblk]; decide))]
  rfl

/-- The one packet that has waited long enough is dropped. -/
theorem nofragExpire_eq {q : LeafQ} {l : List QPkt} (hq : s.cel.queues = [(key, q)]) (hp : q.pkts = p :: l) (hd : dirOf key = 1)
    (hc : (s.allocCtx (leafAlloc s (key % 131072))).cp = k) (hw : s.rd (UBE_CH_CFG_NF_WAIT k) ≤ p.passed)
    (hn : (s.upStream p.sctx).nofrag = true) (ho : p.off = 0) : nofragExpire k s = dropHead k key s := by
  unfold nofragExpire
  dsimp only
  rw [hq, List.foldl_cons, List.foldl_nil, if_pos ⟨hd, hc⟩, lq_single hq, hp]
  exact if_pos (by rw [decide_eq_true hw, hn, ho]; rfl)

/-! ### A burst begun (R121) -/

theorem gateDown_ube {n : Nat} : (gateDown k n s).ube = s.ube := by
  have h : Kept false [.regs, .chp] [blkLPH, blkCHP] s (gateDown k n s) :=
    kept_gateDown Kept.rfl_frame (by decide) (by decide) (by decide) (by decide)
  exact h.frame .ube (by decide)

theorem gateDown_windows {n : Nat} : ((gateDown k n s).chpCh k).windows = (s.chpCh k).windows := by
  have e : (gateDown k n s).chpCh k = (if s.bit (CHP_STATUS_GATE k) then countOpen k n s else s).chpCh k := rfl
  rw [e]
  split
  · unfold countOpen
    rw [chpCh_setChpCh]
  · rfl

/-- The end of a gate tail leaves the bursts and the windows alone. -/
theorem endTail_keeps : ((endTail k s).ubeCh k).bursts = (s.ubeCh k).bursts ∧ ((endTail k s).chpCh k).windows = (s.chpCh k).windows := by
  unfold endTail
  dsimp only
  split
  · split
    · constructor
      · rw [ubeCh_congr gateDown_ube, ubeCh_setUbeCh]
      · exact gateDown_windows
    · exact ⟨rfl, rfl⟩
  · exact ⟨rfl, rfl⟩

theorem gateCovered_congr (h : (t.chpCh k).windows = (s.chpCh k).windows) : gateCovered t k b = gateCovered s k b := by
  unfold gateCovered
  rw [h]

/-- The gate opens where a window covers a burst. -/
def gateOpened (k : Nat) (b : Burst) (s : State) : State :=
  showShutter k ((s.put (CHP_STATUS_GATE k) (gateCovered s k b)).put (CHP_STATUS_WIN k) (gateCovered s k b))

theorem gateOpened_shows : (gateOpened k b s).bit (CHP_STATUS_GATE k) = gateCovered s k b ∧
    (gateOpened k b s).bit (LPH_TX_STATUS_GATE k) = gateCovered s k b ∧ (gateOpened k b s).ubeCh k = s.ubeCh k := by
  have hg : ((s.put (CHP_STATUS_GATE k) (gateCovered s k b)).put (CHP_STATUS_WIN k) (gateCovered s k b)).bit (CHP_STATUS_GATE k) =
      gateCovered s k b :=
    (bit_put_other (q := CHP_STATUS_GATE k) (r := CHP_STATUS_WIN k) _ _ le_of_eval le_of_eval (Or.inr (Or.inl le_of_eval))).trans
      (bit_put_same _ _ le_of_eval rfl)
  exact ⟨((chpKept_showShutter (l := []) .refl).bit CHP_STATUS_GATE).trans hg, showShutter_shows.2.1.trans hg, rfl⟩

/-- A burst as it begins: its message, its mandatory parts, the port whose block it carries, and when. -/
def begun (b : Burst) (m : Option Bytes) (out : Bytes) (q : Option Nat) (n : Nat) : Burst :=
  { b with phase := .started, msg := m, out := out, opsOf := q, leadAt := n }

/-- What the beginning of the next burst comes to. -/
theorem burstStart_eq (hn : nextBurst s k = some b) (hr : s.runs blkUBE = true) (hs : sending s k = none) (hl : leadTooEarly s k b = false)
    (hrdy : s.bit (CHP_STATUS_SHUT_RDY k) = true) : ∃ m out q n,
      burstStart k s = gateOpened k b (putBurst k b (begun b m out q n) (opsTake q (endTail k s))) := by
  unfold burstStart
  rw [hn]
  dsimp only
  rw [hr, hs, if_neg (by decide), hl, hrdy, if_neg (by decide)]
  exact ⟨_, _, _, _, rfl⟩

/-- The next burst is begun, and the gate opens where a window covers it. -/
theorem burstStart_begins (hn : nextBurst s k = some b) (hr : s.runs blkUBE = true) (hs : sending s k = none) (hl : leadTooEarly s k b = false)
    (hrdy : s.bit (CHP_STATUS_SHUT_RDY k) = true) : (burstStart k s).bit (CHP_STATUS_GATE k) = gateCovered s k b ∧
      (burstStart k s).bit (LPH_TX_STATUS_GATE k) = gateCovered s k b ∧
      ∃ b' ∈ ((burstStart k s).ubeCh k).bursts, b'.phase = .started ∧ b'.grant = b.grant := by
  obtain ⟨m, out, q, n, e⟩ := burstStart_eq hn hr hs hl hrdy
  obtain ⟨hbursts, hwindows⟩ := endTail_keeps (k := k) (s := s)
  have htake : Kept false [.ohs] ([] : List Nat) (endTail k s) (opsTake q (endTail k s)) := kept_opsTake Kept.rfl_frame (by decide)
  have hput : Kept false [.ohs, .ube] ([] : List Nat) (endTail k s) (putBurst k b (begun b m out q n) (opsTake q (endTail k s))) :=
    kept_putBurst (kept_opsTake Kept.rfl_frame (by decide)) (by decide)
  have hcov := gateCovered_congr (b := b) ((congrArg ChpCh.windows (chpCh_congr (k := k) (hput.frame .chp (by decide)))).trans hwindows)
  have hheld : b ∈ ((opsTake q (endTail k s)).ubeCh k).bursts := by
    rw [ubeCh_congr (htake.frame .ube (by decide)), hbursts]
    exact mem_of_nextBurst hn
  obtain ⟨hgate, hlph, hube⟩ := gateOpened_shows (k := k) (b := b) (s := putBurst k b (begun b m out q n) (opsTake q (endTail k s)))
  rw [e, hube]
  exact ⟨hgate.trans hcov, hlph.trans hcov, _, mem_putBurst hheld, rfl, rfl⟩

/-! ### Fragments encoded (R128, R129) -/

/-- The next piece of a burst, whole and clear, is encoded as its header and bytes. -/
theorem encodeFragment_clear {x : Piece} (hs : sending s k = some b) (ha : b.grant.alloc ≠ allocDisc) (hx : b.pieces[b.encoded]? = some x)
    (hu : x.up.reqEnc = false) (hp : x.pkt.poisoned = false) (hi : injArmed blkUBE 0 s = false) :
    encodeFragment k false {} s = putBurst k b
      { b with out := b.out ++ padTo (pieceOcc x.plen false) (pieceHeader x.up b.ki x ++ slice (leavingBytes x.pkt) x.pkt.off x.plen),
               encoded := b.encoded + 1 } s := by
  have hcheck : checkPacket blkUBE k {} (slice (leavingBytes x.pkt) x.pkt.off x.plen) s = (slice (leavingBytes x.pkt) x.pkt.off x.plen, false, s) :=
    checkPacket_clean rfl hi
  unfold encodeFragment
  rw [hs]
  dsimp only
  rw [if_neg ha, hx]
  dsimp only
  rw [hu, hp, hcheck]
  rfl

/-! ### A burst sent (R136) -/

/-- What has left the modulator is held no longer, and its gate tail follows. -/
def departed (k : Nat) (b : Burst) (s : State) : State :=
  let u := burstDeparts b (removeBurst k b s)
  u.setUbeCh k { u.ubeCh k with lastTail := some (b.seq, (burstSpan b).2, b.eqd), sent := some b, tail := true }

/-- The message that a burst has carried leaves its queue (R106). -/
def messageLeft (k : Nat) (b : Burst) (s : State) : State :=
  let ann := b.grant.alloc == allocDisc
  let p := s.pair k
  match b.msg with
  | some m =>
    if !ann && p.msgq.head? == some m then
      let s := s.setPair k { p with msgq := p.msgq.tail }
      if msgType m = 0x22 then s.put (ACT_CP_STATE_AUTH_SENT k) true else s
    else s
  | none => s

theorem burstLeft_eq (hs : sending s k = some b) (hw : burstWhole b = true) :
    burstLeft k s = ubeShow k ((opsConsume b (messageLeft k b (departed k b s))).inc (UBE_CH_CNT0_BURSTS k)) := by
  unfold burstLeft
  rw [hs]
  dsimp only
  rw [hw, if_neg (by decide)]
  rfl

theorem kept_messageLeft : Kept false [.regs, .act, .ohs] [blkACT, blkOHS] s (messageLeft k b s) := by
  have hpair : ∀ v, Kept false [.regs, .act, .ohs] [blkACT, blkOHS] s (s.setPair k v) := fun _ => kept_st_setPair Kept.rfl_frame (by decide)
  unfold messageLeft
  dsimp only
  split
  · exact kept_ite (kept_ite (kept_st_put (hpair _) (by decide) (blk_n (by decide) (by decide) (by decide))) (hpair _)) Kept.rfl_frame
  · exact Kept.rfl_frame

theorem departed_ubeCh : (departed k b s).ubeCh k =
    { s.ubeCh k with bursts := (s.ubeCh k).bursts.erase b, lastTail := some (b.seq, (burstSpan b).2, b.eqd), sent := some b, tail := true } := by
  have hd : Kept false [.regs, .cel, .sch] [blkCEL] (removeBurst k b s) (burstDeparts b (removeBurst k b s)) :=
    kept_burstDeparts Kept.rfl_frame (by decide) (by decide) (by decide) (by decide)
  unfold departed
  dsimp only
  rw [ubeCh_setUbeCh, ubeCh_congr (hd.frame .ube (by decide))]
  unfold removeBurst
  rw [ubeCh_setUbeCh]

theorem departed_rd {q : RF} (hq : blkOf q.addr ≠ blkCEL) : (departed k b s).rd q = s.rd q := by
  have hd : Kept false [.regs, .cel, .sch, .ube] [blkCEL] s (burstDeparts b (removeBurst k b s)) :=
    kept_burstDeparts (kept_removeBurst Kept.rfl_frame (by decide)) (by decide) (by decide) (by decide) (by decide)
  exact (rd_setUbeCh _ _ _ _).trans (rd_congr (hd.regFrame _ fun hm => hq (List.mem_singleton.1 hm)))

/-- A whole burst leaves the modulator. -/
theorem burstLeft_leaves (hs : sending s k = some b) (hw : burstWhole b = true) :
    ((burstLeft k s).ubeCh k).bursts = (s.ubeCh k).bursts.erase b ∧ ((burstLeft k s).ubeCh k).sent = some b ∧ ((burstLeft k s).ubeCh k).tail = true ∧
      (burstLeft k s).rd (UBE_CH_CNT0_BURSTS k) = satAdd (UBE_CH_CNT0_BURSTS k).w (s.rd (UBE_CH_CNT0_BURSTS k)) 1 := by
  have hblk : blkOf (UBE_CH_CNT0_BURSTS k).addr = blkUBE := blkOf_array (B := 0xB000050) (by decide) (array_le (by decide))
  have hk : Kept false [.regs, .act, .ohs] [blkACT, blkOHS] (departed k b s) (opsConsume b (messageLeft k b (departed k b s))) :=
    kept_opsConsume kept_messageLeft (by decide) (by decide) (by decide)
  have hube : (burstLeft k s).ubeCh k = (departed k b s).ubeCh k := by
    rw [burstLeft_eq hs hw, ubeShow_ubeCh]
    exact ubeCh_congr (hk.frame .ube (by decide))
  rw [hube, departed_ubeCh]
  refine ⟨rfl, rfl, rfl, ?_⟩
  rw [burstLeft_eq hs hw, ubeShow_rd (q := UBE_CH_CNT0_BURSTS k) ubeCnt0_ne_ubeStat]
  refine (rd_inc_same _ le_of_eval).trans ?_
  rw [rd_congr (hk.regFrame _ (by rw [hblk]; decide)), departed_rd (by rw [hblk]; decide)]
  rfl
end

/-! ### The tables of UBE (R146) -/

theorem regionOf_ube {a : Nat} (h : blkOf a = blkUBE) : regionOf a = .regs := by
  have h' : a / 0x1000000 = 0xB := h
  exact if_pos (by omega)

theorem blockWrite_ube {l a : Nat} {v : Word} {o s : State} (h : blkOf a = blkUBE) : blockWrite l a v o s = ubeWrite a v o s := by
  unfold blockWrite
  rw [h]
  rfl

/-- The row of UBE_IND_CMD. -/
def rowUbeCmd : RegRow :=
  ⟨0xB, 0xB100000, 1, 0x20, 1, 8, 0x0, [⟨63, 1, .w1s, 0, 1⟩, ⟨62, 1, .w1c, 0, 1⟩, ⟨61, 1, .rw, 0, 1⟩, ⟨56, 2, .rw, 0, 3⟩, ⟨0, 18, .rw, 0, 262143⟩]⟩

theorem regRow_ubeCmd : regRow? UBE_IND_CMD.addr = some rowUbeCmd := by decide +kernel

section
variable {i : Initiator} {v d : Word} {n rd : Nat} {s t : State}

/-- The state in which a command for the tables is stored. -/
def ubeStored (i : Initiator) (v : Word) (s : State) : State := storedBy i UBE_IND_CMD.addr rowUbeCmd v s

/-- An accepted command with GO makes its access, where none is in progress. -/
theorem regAccess_ubeGo (hA : Accepted i UBE_IND_CMD.addr (ubeGo v rd) s) (hg : s.bit UBE_IND_CMD_GO = false)
    (h : ubeAccess (ubeStored i (ubeGo v rd) s) = some t) : regAccess i UBE_IND_CMD.addr (ubeGo v rd) s = t := by
  have hgo : fieldOf (ubeGo v rd) 63 1 = 1 :=
    (inField_withField_disj (r := UBE_IND_CMD_RD) (q := UBE_IND_CMD_GO) _ rd le_of_eval le_of_eval (Or.inl le_of_eval)).trans
      (inField_withField_same v (r := UBE_IND_CMD_GO) 1 le_of_eval (by decide))
  have hstore : regStore UBE_IND_CMD.addr rowUbeCmd (ubeGo v rd) (hartActs i s) = ubeStored i (ubeGo v rd) s := by
    rw [regStore_rw (by decide) (by decide) (by decide) (by decide), hartActs_reg]
    rfl
  rw [regAccess_eq hA.1 hA.2 (regionOf_ube (by decide)) (by decide), regWrite_eq regRow_ubeCmd (by decide), blockWrite_ube (by decide), hstore]
  unfold ubeWrite
  rw [if_pos ⟨rfl, hgo⟩, hartActs_bit, hg, if_neg Bool.false_ne_true, h]

theorem ubeStored_kept : Kept false [.regs, .harts] (Set.univ : Set Nat) s (ubeStored i v s) := storedBy_kept

theorem ubeStored_data : (ubeStored i v s).reg UBE_IND_DATA.addr = s.reg UBE_IND_DATA.addr := storedBy_reg_ne (by decide)

/-- A field of the command as it is stored. -/
theorem ubeStored_rd (q : RF) (ha : q.addr = UBE_IND_CMD.addr) (hq : ⟨q.lo, q.w, .rw, 0, ((2 ^ q.w - 1 : Nat) : Int)⟩ ∈ rowUbeCmd.fields) :
    (ubeStored i v s).rd q = inField v q := storedBy_rd_rw q ha regRow_ubeCmd hq

/-- A field of the command but GO and RD reads as the word gives it. -/
theorem ubeGo_rd (q : RF) (ha : q.addr = UBE_IND_CMD.addr) (hq : ⟨q.lo, q.w, .rw, 0, ((2 ^ q.w - 1 : Nat) : Int)⟩ ∈ rowUbeCmd.fields)
    (hl : q.lo + q.w ≤ 61) : (ubeStored i (ubeGo v rd) s).rd q = inField v q := by
  refine (ubeStored_rd q ha hq).trans ?_
  have hd : ∀ lo, 61 ≤ lo → q.lo + q.w ≤ lo := fun _ h => hl.trans h
  exact (inField_withField_disj (r := UBE_IND_CMD_RD) _ rd le_of_eval (hd 64 (by decide)) (Or.inr (hd 61 (by decide)))).trans
    (inField_withField_disj (r := UBE_IND_CMD_GO) v 1 le_of_eval (hd 64 (by decide)) (Or.inr (hd 63 (by decide))))

theorem ubeGo_table : (ubeStored i (ubeGo v rd) s).rd UBE_IND_CMD_TABLE = inField v UBE_IND_CMD_TABLE :=
  ubeGo_rd UBE_IND_CMD_TABLE rfl (by decide) (by decide)

theorem ubeGo_index : (ubeStored i (ubeGo v rd) s).rd UBE_IND_CMD_INDEX = inField v UBE_IND_CMD_INDEX :=
  ubeGo_rd UBE_IND_CMD_INDEX rfl (by decide) (by decide)

theorem ubeGo_dir (h : rd < 2) : (ubeStored i (ubeGo v rd) s).bit UBE_IND_CMD_RD = (rd != 0) :=
  congrArg (· != 0) ((ubeStored_rd UBE_IND_CMD_RD rfl (by decide)).trans (inField_withField_same _ rd le_of_eval h))

theorem ubeStored_allocCtx : (ubeStored i v s).allocCtx n = s.allocCtx n :=
  congrArg (fun u : UbeSt => SMap.get (fun _ => ({} : AllocCtx)) u.allocs n) (ubeStored_kept.frame .ube (by decide))

theorem ubeStored_upStream : (ubeStored i v s).upStream n = s.upStream n :=
  congrArg (fun u : UbeSt => SMap.get (fun _ => ({} : UpStream)) u.streams n) (ubeStored_kept.frame .ube (by decide))

/-- An allocation context as UBE_IND_DATA shows it. -/
def allocWord (c : AllocCtx) : Nat := 2 ^ 63 * b2n c.valid + 2 ^ 56 * c.cp + 2 ^ 40 * c.alloc

/-- A stream context as UBE_IND_DATA shows it. -/
def streamWord (u : UpStream) : Nat :=
  2 ^ 63 * b2n u.valid + 2 ^ 62 * b2n u.reqEnc + 2 ^ 61 * b2n u.nofrag + 2 ^ 48 * u.kslot + 2 ^ 36 * u.actx + u.sid

/-- A stream context as UBE_IND_DATA gives it. -/
def streamFrom (d : Word) : UpStream :=
  { valid := fieldOf d 63 1 == 1, reqEnc := fieldOf d 62 1 == 1, nofrag := fieldOf d 61 1 == 1, kslot := fieldOf d 48 13,
    actx := fieldOf d 36 12, sid := fieldOf d 0 16 }

/-! What an access comes to, by table and direction. -/

theorem ubeAccess_readAlloc (ht : s.rd UBE_IND_CMD_TABLE = 0) (hi : s.rd UBE_IND_CMD_INDEX = n) (hr : s.bit UBE_IND_CMD_RD = true) (hn : n < 4096) :
    ubeAccess s = some (s.setReg UBE_IND_DATA.addr (BitVec.ofNat 64 (allocWord (s.allocCtx n)))) := by
  unfold ubeAccess
  dsimp only
  rw [ht, hi, hr]
  exact (if_neg (by omega)).trans (if_pos rfl)

theorem ubeAccess_readStream (ht : s.rd UBE_IND_CMD_TABLE = 1) (hi : s.rd UBE_IND_CMD_INDEX = n) (hr : s.bit UBE_IND_CMD_RD = true) :
    ubeAccess s = some (s.setReg UBE_IND_DATA.addr (BitVec.ofNat 64 (streamWord (s.upStream n)))) := by
  unfold ubeAccess
  dsimp only
  rw [ht, hi, hr]
  exact if_pos rfl

theorem ubeAccess_writeStream (ht : s.rd UBE_IND_CMD_TABLE = 1) (hi : s.rd UBE_IND_CMD_INDEX = n) (hr : s.bit UBE_IND_CMD_RD = false)
    (hs : fieldOf (s.reg UBE_IND_DATA.addr) 0 16 ≠ 0xFFFF) :
    ubeAccess s = some ((dropRemainder n s).setUpStream n (streamFrom (s.reg UBE_IND_DATA.addr))) := by
  unfold ubeAccess
  dsimp only
  rw [ht, hi, hr]
  exact (if_neg Bool.false_ne_true).trans (if_neg hs)

/-- A context of a pair with room, whose group has no commit pending, is given to the pair, and its values wait for the commit. -/
theorem ubeAccess_writeAlloc (ht : s.rd UBE_IND_CMD_TABLE = 0) (hi : s.rd UBE_IND_CMD_INDEX = n) (hr : s.bit UBE_IND_CMD_RD = false) (hn : n < 4096)
    (hd : s.reg UBE_IND_DATA.addr = d) (hlo : 1024 ≤ fieldOf d 40 14) (hhi : fieldOf d 40 14 ≤ 16382)
    (hp : pairContexts s (fieldOf d 56 4) false (some n) < 256) (hg : (s.group (16 + fieldOf d 56 4)).pend = false)
    (hf : (s.allocCtx n).dflt = false) :
    ubeAccess s = some ((s.setAllocCtx n { s.allocCtx n with cp := fieldOf d 56 4 }).setStagedCtx n
      (some (fieldOf d 63 1 == 1, fieldOf d 40 14))) := by
  have hb : b2n (fieldOf d 63 1 == 1) ≤ 1 := by cases (fieldOf d 63 1 == 1) <;> decide
  unfold ubeAccess
  dsimp only
  rw [ht, hi, hr, hd]
  refine (if_neg (by omega)).trans ((if_neg Bool.false_ne_true).trans ((if_neg ?_).trans ((if_neg ?_).trans (if_neg ?_))))
  · omega
  · rw [hg]; decide
  · rw [hf]; decide

theorem pairContexts_stored {k : Nat} {now : Bool} {but : Option Nat} :
    pairContexts (ubeStored i v s) k now but = pairContexts s k now but := by
  have hube : (ubeStored i v s).ube = s.ube := ubeStored_kept.frame .ube (by decide)
  have hcfg : (ubeStored i v s).cfg = s.cfg := ubeStored_kept.frame .cfg (by decide)
  unfold pairContexts ctxValid State.allocCtx State.stagedCtx
  rw [hube, hcfg]

theorem group_stored {g : Nat} : (ubeStored i v s).group g = s.group g := by
  have hcfg : (ubeStored i v s).cfg = s.cfg := ubeStored_kept.frame .cfg (by decide)
  unfold State.group
  rw [hcfg]

/-! The accesses of a command. -/

theorem readAlloc_shows (hA : Accepted i UBE_IND_CMD.addr (ubeGo v 1) s) (hg : s.bit UBE_IND_CMD_GO = false) (ht : inField v UBE_IND_CMD_TABLE = 0)
    (hn : inField v UBE_IND_CMD_INDEX < 4096) : (regAccess i UBE_IND_CMD.addr (ubeGo v 1) s).reg UBE_IND_DATA.addr =
      BitVec.ofNat 64 (allocWord (s.allocCtx (inField v UBE_IND_CMD_INDEX))) := by
  rw [regAccess_ubeGo hA hg (ubeAccess_readAlloc (ubeGo_table.trans ht) ubeGo_index (ubeGo_dir (by decide)) hn), reg_setReg_same, ubeStored_allocCtx]

theorem readStream_shows (hA : Accepted i UBE_IND_CMD.addr (ubeGo v 1) s) (hg : s.bit UBE_IND_CMD_GO = false) (ht : inField v UBE_IND_CMD_TABLE = 1) :
    (regAccess i UBE_IND_CMD.addr (ubeGo v 1) s).reg UBE_IND_DATA.addr =
      BitVec.ofNat 64 (streamWord (s.upStream (inField v UBE_IND_CMD_INDEX))) := by
  rw [regAccess_ubeGo hA hg (ubeAccess_readStream (ubeGo_table.trans ht) ubeGo_index (ubeGo_dir (by decide))), reg_setReg_same, ubeStored_upStream]

theorem writeStream_takes (hA : Accepted i UBE_IND_CMD.addr (ubeGo v 0) s) (hg : s.bit UBE_IND_CMD_GO = false) (ht : inField v UBE_IND_CMD_TABLE = 1)
    (hs : fieldOf (s.reg UBE_IND_DATA.addr) 0 16 ≠ 0xFFFF) :
    (regAccess i UBE_IND_CMD.addr (ubeGo v 0) s).upStream (inField v UBE_IND_CMD_INDEX) = streamFrom (s.reg UBE_IND_DATA.addr) := by
  rw [regAccess_ubeGo hA hg (ubeAccess_writeStream (ubeGo_table.trans ht) ubeGo_index (ubeGo_dir (by decide)) (by rwa [ubeStored_data])),
    upStream_setUpStream, ubeStored_data]

theorem writeAlloc_stages (hA : Accepted i UBE_IND_CMD.addr (ubeGo v 0) s) (hg : s.bit UBE_IND_CMD_GO = false) (ht : inField v UBE_IND_CMD_TABLE = 0)
    (hn : inField v UBE_IND_CMD_INDEX = n) (hlt : n < 4096) (hd : s.reg UBE_IND_DATA.addr = d) (hlo : 1024 ≤ fieldOf d 40 14)
    (hhi : fieldOf d 40 14 ≤ 16382) (hp : pairContexts s (fieldOf d 56 4) false (some n) < 256) (hc : (s.group (16 + fieldOf d 56 4)).pend = false)
    (hf : (s.allocCtx n).dflt = false) :
    (regAccess i UBE_IND_CMD.addr (ubeGo v 0) s).stagedCtx n = some (fieldOf d 63 1 == 1, fieldOf d 40 14) ∧
      (regAccess i UBE_IND_CMD.addr (ubeGo v 0) s).allocCtx n = { s.allocCtx n with cp := fieldOf d 56 4 } := by
  have e := regAccess_ubeGo hA hg (ubeAccess_writeAlloc (ubeGo_table.trans ht) (ubeGo_index.trans hn) (ubeGo_dir (by decide)) hlt
    (ubeStored_data.trans hd) hlo hhi (by rwa [pairContexts_stored]) (by rwa [group_stored]) (by rwa [ubeStored_allocCtx]))
  rw [e]
  refine ⟨stagedCtx_setStagedCtx _ _ _, (allocCtx_setAllocCtx _ _ _).trans ?_⟩
  rw [ubeStored_allocCtx]
end

/-! ### Filling a burst (R129 to R132) -/

section
variable {k port : Nat} {b : Burst} {g : Grant} {o s t : State}

/-- What passing over a leaf, dropping a packet, reporting a poisoned one and placing one all keep, a filling keeps. -/
theorem fillLoop_keeps {P : Burst → State → Prop} (hskip : ∀ b s l m, P b s → P { b with skipped := l, nofrag := m } s)
    (hdrop : ∀ b s key, P b s → P b (dropHead k key s)) (hflt : ∀ b s, P b s → P b (fltSourceEvent blkCEL s))
    (hplace : ∀ b s n key plain last, P b s → P (placeHead n key plain last b s).1 (placeHead n key plain last b s).2)
    (fuel : Nat) (skip : List Nat) (b : Burst) (s : State) (h : P b s) :
    P (fillLoop k port fuel skip b s).1 (fillLoop k port fuel skip b s).2 := by
  induction fuel generalizing skip b s with
  | zero => exact h
  | succ fuel ih =>
    unfold fillLoop
    dsimp only
    split
    · exact h
    split
    · exact h
    split
    · exact h
    split
    · refine ih _ _ _ (hdrop _ _ _ ?_)
      split
      · exact hflt _ _ h
      · exact h
    split
    · exact ih _ _ _ h
    split
    · exact ih _ _ _ (hskip _ _ _ _ h)
    split
    · exact ih _ _ _ (hplace _ _ _ _ _ _ h)
    split
    · exact ih _ _ _ (hskip _ _ _ _ h)
    · exact ih _ _ _ h

/-- The grant, the frame and the phase of a burst. -/
def burstOf (b : Burst) : Grant × Nat × BurstPhase := (b.grant, b.frame, b.phase)

theorem placeHead_burstOf {n key plain : Nat} {last : Bool} : burstOf (placeHead n key plain last b s).1 = burstOf b := by
  unfold placeHead
  split <;> rfl

theorem fillBurst_burstOf : burstOf (fillBurst k b s).1 = burstOf b := by
  unfold fillBurst
  split
  · rfl
  · exact fillLoop_keeps (P := fun c _ => burstOf c = burstOf b) (fun _ _ _ _ h => h) (fun _ _ _ h => h) (fun _ _ h => h)
      (fun _ _ _ _ _ _ h => placeHead_burstOf.trans h) _ _ _ _ rfl

theorem chCfg_ne_cnt1 : (UBE_CH_CFG k).addr ≠ (UBE_CH_CNT1 k).addr := window_ne (A := 0xB000040) (B := 0xB000058) (by decide)

theorem blkOf_chCfg : blkOf (UBE_CH_CFG k).addr = blkUBE := blkOf_array (B := 0xB000040) (by decide) (array_le (by decide))

/-- A packet dropped leaves the channel's settings alone. -/
theorem dropHead_cfg {key : Nat} : (dropHead k key s).reg (UBE_CH_CFG k).addr = s.reg (UBE_CH_CFG k).addr := by
  unfold dropHead
  split
  · rfl
  · next p _ _ =>
    have htouch : ∀ u : State, Kept false [.sch] ([] : List Nat) u (leafTouch key u) := fun _ => kept_leafTouch Kept.rfl_frame (by decide)
    have hfree : Kept false [.regs, .cel] [blkCEL] s (freeCells key p.cells (popHead key s)) :=
      kept_freeCells (kept_popHead Kept.rfl_frame (by decide)) (by decide) (by decide) (by decide)
    refine ((htouch _).regFrame _ nofun).trans ((reg_setReg_ne _ _ chCfg_ne_cnt1).trans ?_)
    exact hfree.regFrame _ (by rw [blkOf_chCfg]; decide)

/-- A filling leaves the channel's settings alone. -/
theorem fillBurst_cfg : (fillBurst k b s).2.reg (UBE_CH_CFG k).addr = s.reg (UBE_CH_CFG k).addr := by
  have hflt : ∀ u : State, Kept false [.regs, .free, .flt] [blkFLT] u (fltSourceEvent blkCEL u) := fun _ =>
    kept_fltSourceEvent Kept.rfl_frame (by decide) (by decide) (by decide) (by decide)
  have hplace : ∀ (u : State) (c : Burst) (n key plain : Nat) (last : Bool),
      Kept false [.cel, .sch] ([] : List Nat) u (placeHead n key plain last c u).2 :=
    fun _ _ _ _ _ _ => kept_placeHead Kept.rfl_frame (by decide) (by decide)
  unfold fillBurst
  split
  · rfl
  · exact fillLoop_keeps (P := fun _ u => u.reg (UBE_CH_CFG k).addr = s.reg (UBE_CH_CFG k).addr) (fun _ _ _ _ h => h)
      (fun _ _ _ h => dropHead_cfg.trans h) (fun _ u h => ((hflt u).regFrame _ (by rw [blkOf_chCfg]; decide)).trans h)
      (fun c u n key plain last h => ((hplace u c n key plain last).regFrame _ nofun).trans h) _ _ _ _ rfl

theorem fillBurst_ubeCh : (fillBurst k b s).2.ubeCh k = s.ubeCh k := by
  have h : Kept false [.regs, .free, .flt, .cel, .sch] [blkFLT, blkUBE, blkCEL] s (fillBurst k b s).2 := by
    apply @kept_fillBurst
    · exact Kept.rfl_frame
    all_goals decide
  exact ubeCh_congr (h.frame .ube (by decide))

/-! ### Reconciliation (R134, Table 6.6) -/

theorem dropKeyless_empty (h : b.pieces = []) : dropKeyless k b s = (b, s, false) := by
  obtain ⟨⟩ := b
  subst h
  rfl

/-- One grant without a predicted burst: its burst is filled. -/
theorem settle_one (h : b.pieces = []) : settle k 2 [{ burst := b, pred := none }] [] s = ([(fillBurst k b s).1], (fillBurst k b s).2) := by
  have hc : ∀ c : Bool, (if c then clearLater k (b.ctx.getD 0) [] s else ([], s)) = (([] : List Work), s) := fun c => ite_self _
  have hx : decide (b.area < usedArea b.pieces) = false := by rw [h]; exact decide_eq_false (Nat.not_lt_zero _)
  unfold settle
  dsimp only
  rw [dropKeyless_empty h]
  dsimp only
  rw [hx, hc]
  rfl

/-- The channel without the bursts and the accepted grants of the map that has been judged. -/
def mapTaken (k : Nat) (s : State) : State := s.setUbeCh k { s.ubeCh k with bursts := [], accepted := [] }

/-- The burst of one grant, filled. -/
def oneFilled (k frame : Nat) (g : Grant) (s : State) : Burst × State := fillBurst k (emptyBurst (mapTaken k s) k frame g) (mapTaken k s)

/-- It is the channel's one burst. -/
def oneHeld (k frame : Nat) (g : Grant) (s : State) : State :=
  (countPassed [(oneFilled k frame g s).1] (oneFilled k frame g s).2).setUbeCh k
    { s.ubeCh k with bursts := [(oneFilled k frame g s).1], accepted := [] }

theorem countPassed_kept {l : List Burst} : Kept false [.cel] ([] : List Nat) s (countPassed l s) := kept_countPassed Kept.rfl_frame (by decide)

theorem oneFilled_ubeCh {frame : Nat} : (countPassed [(oneFilled k frame g s).1] (oneFilled k frame g s).2).ubeCh k =
    { s.ubeCh k with bursts := [], accepted := [] } := by
  rw [ubeCh_congr (countPassed_kept.frame .ube (by decide)), oneFilled, fillBurst_ubeCh]
  exact ubeCh_setUbeCh _ _ _

/-- What follows once the bursts of a map have been reconciled: the packets passed over are counted, the bursts held and corrected, and the
next frame predicted. -/
def afterSettle (k frame : Nat) (gs : List Grant) (r : List Burst × State) : State :=
  let s := countPassed r.1 r.2
  let u := s.ubeCh k
  let s := r.1.foldl (fun s b => correctBurst k b s)
    (s.setUbeCh k { u with bursts := sortBy (fun b => b.seq * 65536 + b.grant.start) (u.bursts ++ r.1) })
  ubeShow k (predict k (frame + 1) gs s)

/-- What a judged map with one accepted grant comes to on a channel that holds no burst. -/
theorem reconcile_one {frame : Nat} (ha : (s.ubeCh k).accepted = [g]) (hg : g.alloc ≠ allocDisc) (hb : (s.ubeCh k).bursts = []) :
    reconcile k frame true s =
      ubeShow k (predict k (frame + 1) [g] (correctBurst k (oneFilled k frame g s).1 (oneHeld k frame g s))) := by
  have hgs : byStart ([g].filter fun g => g.alloc != allocDisc) = [g] := by
    rw [List.filter_cons_of_pos (by simpa using hg)]
    rfl
  unfold reconcile
  dsimp only
  rw [hb, ha, hgs]
  change afterSettle k frame [g] (settle k 2 [{ burst := emptyBurst (mapTaken k s) k frame g, pred := none }] [] (mapTaken k s)) = _
  rw [settle_one rfl]
  change afterSettle k frame [g] ([(oneFilled k frame g s).1], (oneFilled k frame g s).2) = _
  unfold afterSettle
  dsimp only
  rw [oneFilled_ubeCh]
  rfl

/-- The channel holds one built burst, of a grant and a frame, and no accepted grant. -/
def HoldsOne (k : Nat) (g : Grant) (frame : Nat) (s : State) : Prop :=
  (s.ubeCh k).accepted = [] ∧ ∃ b, (s.ubeCh k).bursts = [b] ∧ burstOf b = (g, frame, .built)

theorem HoldsOne.congr {frame : Nat} (h : HoldsOne k g frame s) (ht : t.ubeCh k = s.ubeCh k) : HoldsOne k g frame t := by
  unfold HoldsOne
  rw [ht]
  exact h

/-- Packets corrected leave the burst's grant, frame and phase alone. -/
theorem setCorr_holdsOne {frame id leaf : Nat} {c : Option Bytes} (h : HoldsOne k g frame s) : HoldsOne k g frame (setCorr k id leaf c s) := by
  obtain ⟨ha, b, hb, hg⟩ := h
  have e : (setCorr k id leaf c s).ubeCh k = { s.ubeCh k with bursts := (s.ubeCh k).bursts.map (fun (b : Burst) =>
      { b with pieces := b.pieces.map (fun (x : Piece) => { x with pkt := if x.pkt.id = id then { x.pkt with corr := c } else x.pkt }) }) } :=
    ubeCh_setUbeCh s k _
  unfold HoldsOne
  rw [e, hb]
  exact ⟨ha, _, rfl, hg⟩

theorem correctBurst_holdsOne {frame : Nat} (h : HoldsOne k g frame s) : HoldsOne k g frame (correctBurst k b s) := by
  have hfold : ∀ (f : Nat × State → Piece → Nat × State), (∀ a x, HoldsOne k g frame a.2 → HoldsOne k g frame (f a x).2) →
      ∀ (l : List Piece) (a : Nat × State), HoldsOne k g frame a.2 → HoldsOne k g frame (l.foldl f a).2 := fun f hf l => by
    induction l with
    | nil => exact fun _ h => h
    | cons x l ih => exact fun a h => ih _ (hf a x h)
  unfold correctBurst
  refine hfold _ (fun a x ha => ?_) _ _ h
  dsimp only
  split
  · exact setCorr_holdsOne ha
  · exact ha

theorem oneHeld_holdsOne {frame : Nat} : HoldsOne k g frame (oneHeld k frame g s) := by
  unfold HoldsOne oneHeld
  rw [ubeCh_setUbeCh]
  exact ⟨rfl, _, rfl, fillBurst_burstOf⟩

theorem oneHeld_cfg {frame : Nat} : (oneHeld k frame g s).reg (UBE_CH_CFG k).addr = s.reg (UBE_CH_CFG k).addr := by
  refine (reg_setUbeCh _ _ _ _).trans ((countPassed_kept.regFrame _ nofun).trans ?_)
  exact fillBurst_cfg.trans (reg_setUbeCh _ _ _ _)

/-- Nothing is predicted where prediction is off. -/
theorem predict_off {frame : Nat} {gs : List Grant} (h : s.bit (UBE_CH_CFG_PRED_EN k) = false) : predict k frame gs s = s := by
  refine if_neg ?_
  rw [h]
  exact Bool.false_ne_true

/-- A judged map with one accepted grant leaves its one built burst. -/
theorem reconcile_holdsOne {frame : Nat} (ha : (s.ubeCh k).accepted = [g]) (hg : g.alloc ≠ allocDisc) (hb : (s.ubeCh k).bursts = [])
    (hp : s.bit (UBE_CH_CFG_PRED_EN k) = false) : HoldsOne k g frame (reconcile k frame true s) := by
  have hcorr : ∀ u : State, Kept false [.cel, .ube] ([] : List Nat) u (correctBurst k (oneFilled k frame g s).1 u) := fun _ =>
    kept_correctBurst Kept.rfl_frame (by decide) (by decide)
  have hoff : (correctBurst k (oneFilled k frame g s).1 (oneHeld k frame g s)).bit (UBE_CH_CFG_PRED_EN k) = false :=
    (bit_congr (q := UBE_CH_CFG_PRED_EN k) (((hcorr _).regFrame _ nofun).trans oneHeld_cfg)).trans hp
  rw [reconcile_one ha hg hb, predict_off hoff]
  exact (correctBurst_holdsOne oneHeld_holdsOne).congr ubeShow_ubeCh
end

/-! ### BurstsComplete -/

/-- Settles O29: the map by the burst that its grant is filled into, a packet that waits by its drop, a burst by what its beginning, its
next piece and its end come to, the tables by what an access answers. -/
theorem burstsComplete : Obligations.BurstsComplete := by
  unfold Obligations.BurstsComplete
  refine ⟨fun k g s hup hr hl hh ha hg hb hp => ?_, fun k key q p l s hup hq hpk hd hc hw hn ho => ?_,
    fun k b s hup hn hr hs hl hrdy => ?_, fun k b x s hup hs ha hx hu hp hi => ?_, fun k b s hup hs hw => ?_,
    fun i v n s hA hg ht hn hlt => ?_, fun i v n s hA hg ht hn => ?_, fun i v n d s hA hg ht hn hd hs => ?_,
    fun i v n d s hA hg ht hn hlt hd hlo hhi hp hc hf => ?_⟩
  · have e : mapReconcile k s = reconcile k (s.dsfCh k).fc true s := by
      unfold mapReconcile
      dsimp only
      rw [hl, hh, hr]
      rfl
    obtain ⟨hacc, b, hbs, hof⟩ := reconcile_holdsOne (frame := (s.dsfCh k).fc) ha hg hb hp
    exact ⟨_, congrArg Host.Outcome.next ((if_pos hup).trans e), hacc, b, hbs, congrArg (·.1) hof, congrArg (·.2.2) hof, congrArg (·.2.1) hof⟩
  · exact ⟨_, congrArg Host.Outcome.next ((if_pos hup).trans (nofragExpire_eq hq hpk hd hc hw hn ho)),
      dropHead_counts ((congrArg LeafQ.pkts (lq_single hq)).trans hpk)⟩
  · exact ⟨_, congrArg Host.Outcome.next (if_pos hup), burstStart_begins hn hr hs hl hrdy⟩
  · exact ⟨_, congrArg Host.Outcome.next ((if_pos hup).trans (encodeFragment_clear hs ha hx hu hp hi)), mem_putBurst (mem_of_sending hs)⟩
  · exact ⟨_, congrArg Host.Outcome.next (if_pos hup), burstLeft_leaves hs hw⟩
  · subst hn
    exact ⟨_, rfl, readAlloc_shows hA hg ht hlt⟩
  · subst hn
    exact ⟨_, rfl, readStream_shows hA hg ht⟩
  · subst hn hd
    exact ⟨_, rfl, writeStream_takes hA hg ht hs⟩
  · obtain ⟨hstaged, hctx⟩ := writeAlloc_stages hA hg ht hn.symm hlt hd.symm hlo hhi hp hc hf
    exact ⟨_, rfl, hstaged, congrArg AllocCtx.cp hctx, (congrArg AllocCtx.valid hctx).trans rfl⟩
end Sys2Proof.Machine
end

section
/-! PROOFS. The flows and speculation family (chapter 08): the counter read that refutes O31; where the run-ahead stands, a packet issued,
and what commits and squashes leave; then O32. -/

namespace Sys2Proof.Machine
open Sys2Proof.Spec

/-! ### Counter reads past the last counter (R195, R415) -/

/-- A booted device whose counters lie in stack 0; the last counter of FLW has a delta of 5 bytes. -/
def lastCounted : State :=
  (({ State.reset with cfg := { State.reset.cfg with boot := .booted } }.wr FLW_CBASE_BASE 0x2000000000).wr CEL_STATUS_STK_OK 1).setDelta 2162687 5

/-- A read of the CID above the last one. -/
def pastLast : Word := BitVec.ofNat 64 2162688

theorem pastLast_accepted : Accepted (.core 0 .m) FLW_CRD_CMD.addr (withField pastLast FLW_CRD_CMD_GO 1) lastCounted := by decide +kernel

/-- The CID stored is the last one (R415), so the read shows its 5 bytes. -/
theorem pastLast_shows_last :
    (regAccess (.core 0 .m) FLW_CRD_CMD.addr (withField pastLast FLW_CRD_CMD_GO 1) lastCounted).reg FLW_CRD_BYTES.addr = 5#64 := by decide +kernel

/-- The CID written has counted nothing. -/
theorem pastLast_counts_none : (counterValue (inField pastLast FLW_CRD_CMD_CID) lastCounted).1 = 0 := by decide +kernel

/-- Refutes O31: FLW_CRD_CMD.CID ranges to 2,162,687, so a read of CID 2,162,688 is stored as one of the last counter (R415) and shows that
counter's bytes, not those of the CID written. -/
theorem not_flowsComplete : ¬ Obligations.FlowsComplete := by
  unfold Obligations.FlowsComplete
  rintro ⟨-, -, -, -, -, -, -, -, -, -, hread, -⟩
  obtain ⟨t, ht, -, hbytes, -⟩ := hread (.core 0 .m) pastLast lastCounted pastLast_accepted
  obtain rfl : regAccess (.core 0 .m) FLW_CRD_CMD.addr (withField pastLast FLW_CRD_CMD_GO 1) lastCounted = t := Host.Outcome.next.inj ht
  rw [pastLast_shows_last, pastLast_counts_none] at hbytes
  exact absurd hbytes (by decide)

/-! ### What is left of a channel of SPC -/

section
variable {s t : State} {k : Nat}

/-- What leaves SPC alone leaves its channels alone. -/
theorem spcCh_frame {kl : List Part} (h : Frame kl s t) (hn : Part.spc ∉ kl) : t.spcCh k = s.spcCh k :=
  congrArg (fun m : SMap SpcCh => SMap.get (fun _ => ({} : SpcCh)) m k) (h .spc hn)

theorem spcCh_inc (r : RF) : (s.inc r).spcCh k = s.spcCh k := rfl

theorem enterPipe_spcCh (p : PassPkt) : (enterPipe p s).spcCh k = s.spcCh k :=
  spcCh_frame (kept_enterPipe (kb := false) (kl := [.regs, .pipes]) (bl := [blkCLS]) Kept.rfl_frame (by decide) (by decide) (by decide)).frame (by decide)

theorem checkPacket_spcCh (src unit : Nat) (c : Checks) (l : Bytes) : (checkPacket src unit c l s).2.2.spcCh k = s.spcCh k :=
  spcCh_frame (kept_checkPacket (kb := false) (kl := [.regs, .flt]) (bl := [blkFLT]) Kept.rfl_frame (by decide) (by decide) (by decide)).frame (by decide)

theorem cipAhead_spcCh (ch num n : Nat) : (cipAhead ch num n s).2.spcCh k = s.spcCh k := by
  have h : ∀ fc, Kept false [.regs, .kln] [blkCIP, blkKLN] s (cipRequest .runAhead n fc s).2 := fun _ =>
    kept_cipRequest Kept.rfl_frame (by decide) (by decide) (by decide) (by decide)
  refine Eq.trans ?_ (spcCh_frame (h none).frame (by decide))
  unfold cipAhead
  split
  · next e => rw [e]; rfl
  · rfl
end

/-! ### Where the run-ahead stands (R196) -/

section
variable {s : State} {k : Nat}

theorem takeStamp_pos (fc hdr : Nat) : ((takeStamp k fc hdr s).2.spcCh k).pos = (s.spcCh k).pos := by
  unfold takeStamp
  dsimp only
  split
  · rw [spcCh_setSpcCh]
  · rfl

theorem issueAhead_pos (p : SpecPkt) (ctx : Nat) (plain : Bytes) (bad : Bool) (d : Tod) :
    ((issueAhead k p ctx plain bad d s).spcCh k).pos = (s.spcCh k).pos := by
  unfold issueAhead
  dsimp only
  rw [enterPipe_spcCh, spcCh_setSpcCh]
  exact takeStamp_pos p.fc p.hdr

theorem finishAhead_pos (w : AheadWait) : ((finishAhead k w s).spcCh k).pos = (s.spcCh k).pos := by
  unfold finishAhead
  split
  · rw [spcCh_inc]
  · next plain _ =>
    dsimp only
    split
    · rfl
    split
    · rfl
    split
    · rw [spcCh_inc]
    · exact issueAhead_pos w.pkt w.ctx plain w.poisoned w.t

theorem flushAhead_pos (l : List AheadWait) : ((flushAhead k l s).spcCh k).pos = (s.spcCh k).pos := by
  induction l generalizing s with
  | nil =>
    unfold flushAhead
    rw [spcCh_setSpcCh]
  | cons w l ih =>
    unfold flushAhead
    split
    · rw [ih, finishAhead_pos]
    · rw [spcCh_setSpcCh]

/-- A packet that is numbered and queued moves the run-ahead no further. -/
theorem numbered_pos (l : List AheadWait) (n : Nat) :
    ((flushAhead k l (s.setSpcCh k { s.spcCh k with nextNum := n })).spcCh k).pos = (s.spcCh k).pos := by
  rw [flushAhead_pos, spcCh_setSpcCh]

theorem startAhead_pos (pos w ctx : Nat) (payload : Bytes) (bad : Bool) :
    ((startAhead k pos w ctx payload bad s).spcCh k).pos = (s.spcCh k).pos := by
  unfold startAhead
  dsimp only
  split
  · exact numbered_pos _ _
  split
  · rfl
  have hc := cipAhead_spcCh (s := s) (k := k) k (s.spcCh k).nextNum (kiSlot (s.streamCtx ctx).kslot (hdrKi w))
  split
  · next key u e =>
    rw [e] at hc
    rw [numbered_pos, hc]
  · next u _ e =>
    rw [e] at hc
    rw [hc]

variable {info : Bytes} {y : Checks} {pos w ctx : Nat}

theorem aheadTo_spcCh : (aheadTo k pos s).spcCh k = { s.spcCh k with pos := pos } := spcCh_setSpcCh s k _
theorem aheadTo_streamCtx : (aheadTo k pos s).streamCtx ctx = s.streamCtx ctx := rfl
theorem aheadTo_rd (q : RF) : (aheadTo k pos s).rd q = s.rd q := rd_setSpcCh s k _ q
theorem aheadTo_cel : (aheadTo k pos s).cel = s.cel := rfl

/-- The run-ahead at a whole header goes on with its fragment. -/
theorem aheadReads_goes (h : AheadReads k info pos w s) :
    (!s.runs blkSPC || !(s.rd SPC_CTL_EN).testBit k || !(s.dsfCh k).live || !(s.dsfCh k).hdrOk || (s.spcCh k).stopped ||
      decide (frameEnd ≤ pos)) = false := by
  obtain ⟨hr, hen, hl, hh, hs, -, hlt, -⟩ := h
  rw [hr, hen, hl, hh, hs, decide_eq_false (by omega)]
  rfl

/-- A header with a bad check stops the run-ahead for the frame. -/
theorem runAhead_stops (h : AheadReads k info pos w s) (hbad : hecOk w = false) :
    runAhead k info y s = s.setSpcCh k { s.spcCh k with stopped := true } := by
  have hgo := aheadReads_goes h
  obtain ⟨-, -, -, -, -, hp, -, hw⟩ := h
  unfold runAhead
  simp only [← hp, hgo, hw, hbad, Bool.false_eq_true, ↓reduceIte, Bool.not_false, Bool.true_or]

/-- After a good header the run-ahead stands behind its fragment. -/
theorem runAhead_pos (h : AheadReads k info pos w s) (hgood : hecOk w = true) (hend : pos + occupancy w ≤ frameEnd)
    (hlen : occupancy w ≤ info.length) : ((runAhead k info y s).spcCh k).pos = pos + occupancy w := by
  have hgo := aheadReads_goes h
  have hto : ((aheadTo k (pos + occupancy w) s).spcCh k).pos = pos + occupancy w := by rw [aheadTo_spcCh]
  obtain ⟨-, -, -, -, -, hp, -, hw⟩ := h
  unfold runAhead
  simp only [← hp, hgo, hw, hgood, decide_eq_false (Nat.not_lt.2 hend), Nat.not_lt.2 hlen, Bool.false_eq_true, ↓reduceIte, Bool.not_true,
    Bool.or_self]
  split
  · exact hto
  split
  · exact hto
  split
  · exact hto
  split
  · rw [spcCh_setSpcCh]
    exact hto
  split
  · exact hto
  · rw [startAhead_pos, checkPacket_spcCh, hto]
end

/-! ### A packet issued (R196) -/

section
variable {s : State} {k : Nat} {info plain : Bytes} {y : Checks} {pos w ctx : Nat}

/-- The packet that a header at byte `pos` begins. -/
def aheadPkt (k pos w : Nat) (s : State) : SpecPkt :=
  { num := (s.spcCh k).nextNum, fc := (s.dsfCh k).fc, hdr := pos, sid := hdrSid w, lo := (s.dsfCh k).frames * 5000 + pos / 2560,
    hi := (s.dsfCh k).frames * 5000 + (pos + occupancy w - 1) / 2560, stamp := 0 }

/-- The next packet's number is taken. -/
def aheadNumbered (k : Nat) (s : State) : State := s.setSpcCh k { s.spcCh k with nextNum := (s.spcCh k).nextNum + 1 }

/-- A packet in clear behind no other leaves at once. -/
theorem startAhead_clear {bad : Bool} (hk : hdrKi w = 0) (hw : (s.spcCh k).waits = []) :
    startAhead k pos w ctx plain bad s = flushAhead k [] (finishAhead k ⟨aheadPkt k pos w s, ctx, some plain, arrival s k pos, true, bad⟩
      (aheadNumbered k s)) := by
  have e : startAhead k pos w ctx plain bad s = flushAhead k
    ((s.spcCh k).waits ++ [⟨aheadPkt k pos w s, ctx, some plain, arrival s k pos, true, bad⟩]) (aheadNumbered k s) := if_pos hk
  rw [e, hw]
  rfl

/-- Every check passed, the packet is issued. -/
theorem finishAhead_issues {x : AheadWait} (hx : x.plain = some plain) (hlen : 64 ≤ plain.length)
    (hfcs : fcsBytes (plain.take (plain.length - 4)) = plain.drop (plain.length - 4))
    (hv : verdictAhead (s.spcCh k) x.pkt.lo x.pkt.hi = true) (hb : (s.spcCh k).bytes + plain.length + 20 ≤ 12500000)
    (hr : recordsDue s (pipeOf 0 k) < 4096) : finishAhead k x s = issueAhead k x.pkt x.ctx plain x.poisoned x.t s := by
  have hlimit : (!verdictAhead (s.spcCh k) x.pkt.lo x.pkt.hi || (x.pkt.lo / 5000 == (s.dsfCh k).frames &&
      decide (12500000 < (s.spcCh k).bytes + plain.length + 20))) = false := by
    rw [hv, decide_eq_false (by omega), Bool.and_false]
    rfl
  unfold finishAhead
  rw [hx]
  dsimp only
  rw [if_neg (by rintro (h | h) <;> [omega; exact h hfcs]), hlimit, if_neg Bool.false_ne_true, if_neg (by omega)]

/-- Where no stamp is kept, the packet issued is the last of its channel, with the present version, and waits at its pipeline. -/
theorem issueAhead_issues {p : SpecPkt} {bad : Bool} {d : Tod} (hs : (s.spcCh k).stamps = []) :
    ((issueAhead k p ctx plain bad d s).spcCh k).pkts = (s.spcCh k).pkts ++ [{ p with stamp := s.rd CLS_VER_CUR }] ∧
      ((issueAhead k p ctx plain bad d s).pipe (pipeOf 0 k)).input.length = (s.pipe (pipeOf 0 k)).input.length + 1 := by
  have ht : takeStamp k p.fc p.hdr s = (none, s) := by
    unfold takeStamp
    dsimp only
    rw [hs]
    rfl
  unfold issueAhead
  dsimp only
  rw [ht, enterPipe_spcCh, spcCh_setSpcCh]
  refine ⟨rfl, ?_⟩
  rw [enterPipe_pipe, List.length_append]
  rfl

/-- The bytes of a fragment's payload that have been given. -/
theorem length_payload (h : occupancy w ≤ info.length) : (slice info 8 (hdrPlen w)).length = hdrPlen w := by
  unfold occupancy at h
  unfold slice
  rw [List.length_take, List.length_drop]
  omega

/-- A payload's FCS is checked over all its bytes but the last four. -/
theorem payload_fcs (hlen : occupancy w ≤ info.length) (hp : 64 ≤ hdrPlen w)
    (h : fcsBytes (slice info 8 (hdrPlen w - 4)) = slice info (hdrPlen w + 4) 4) :
    fcsBytes ((slice info 8 (hdrPlen w)).take ((slice info 8 (hdrPlen w)).length - 4)) =
      (slice info 8 (hdrPlen w)).drop ((slice info 8 (hdrPlen w)).length - 4) := by
  have hn : hdrPlen w - (hdrPlen w - 4) = 4 := by omega
  have ho : 8 + (hdrPlen w - 4) = hdrPlen w + 4 := by omega
  rw [length_payload hlen]
  unfold slice at h ⊢
  rw [List.take_take, min_eq_left (Nat.sub_le _ _), h, List.drop_take, List.drop_drop, hn, ho]

/-- The run-ahead takes up the packet of a fragment that R196 lets it issue. -/
theorem runAhead_starts (h : AheadReads k info pos w s) (hgood : hecOk w = true) (hend : pos + occupancy w ≤ frameEnd)
    (hlen : occupancy w ≤ info.length) (hi : AheadIssues k info pos w ctx s) (hf : y.flips = []) (hj : injArmed blkSPC y.idx.toNat s = false) :
    runAhead k info y s = startAhead k pos w ctx (slice info 8 (hdrPlen w)) false (aheadTo k (pos + occupancy w) s) := by
  have hgo := aheadReads_goes h
  obtain ⟨-, -, -, -, -, hp, -, hw⟩ := h
  obtain ⟨hsid, hctx, htype, hfirst, hlast, hki, hseq, hreq, h64, hmax, hblk, hpkts, hwaits, htwins, -, hra, hbytes, hv, -⟩ := hi
  have hctx' : streamOf (aheadTo k (pos + occupancy w) s) k (hdrSid w) = some ctx := hctx
  have hforb : fragForbidden (s.streamCtx ctx) w = false := fragForbidden_clear hreq hki (by omega)
  unfold runAhead
  simp only [← hp, hgo, hw, hgood, decide_eq_false (Nat.not_lt.2 hend), Nat.not_lt.2 hlen, Bool.false_eq_true, ↓reduceIte, Bool.not_true,
    Bool.or_self, hsid, hctx', hpkts, hwaits, htwins, List.contains_nil, List.any_nil]
  have hplen : hdrPlen w - 8 * b2n (hdrKi w != 0) = hdrPlen w := by
    rw [hki]
    rfl
  simp only [aheadTo_streamCtx, aheadTo_rd, aheadTo_cel, htype, hfirst, hlast, hplen, hforb, hv, hblk, hseq, List.contains_eq_mem,
    checkPacket_clean hf (s := aheadTo _ _ s) hj, decide_eq_false (Nat.not_lt.2 hmax), decide_eq_false (Nat.not_lt.2 hra),
    decide_eq_false (Nat.not_lt.2 hbytes), Bool.and_self, Bool.not_true, Bool.false_eq_true, ↓reduceIte, Bool.or_self, decide_false,
    bne_self_eq_false]
end

/-! ### Commits and squashes (R199, R200) -/

section
variable {s : State} {k : Nat}

theorem showHeld_spcCh (i : Nat) : (showHeld i s).spcCh k = s.spcCh k := by
  unfold showHeld
  split <;> rfl

theorem unlink_spcCh (f : QPkt → Bool) : (unlink f s).spcCh k = s.spcCh k :=
  spcCh_frame (kept_unlink (kb := false) (kl := [.regs, .cel, .sch]) (bl := [blkCEL]) Kept.rfl_frame (by decide) (by decide) (by decide) (by decide)).frame
    (by decide)

/-- A channel after a commit: the packet is no longer speculative, and its place is kept for the final delineator. -/
def committed (x : SpecPkt) (c : SpcCh) : SpcCh :=
  { c with pkts := c.pkts.filter (fun y => y.num != x.num), twins := (x.fc, x.hdr) :: c.twins }

/-- A channel after a squash: the packet has gone, and its stamp is kept. -/
def squashed (x : SpecPkt) (c : SpcCh) : SpcCh :=
  { c with pkts := c.pkts.filter (fun y => y.num != x.num), stamps := (x.fc, x.hdr, x.stamp) :: c.stamps }

theorem applyEff_spcCh (e : Eff) : (applyEff e s).spcCh k = s.spcCh k :=
  spcCh_frame (kept_applyEff (kb := false) (bl := (Set.univ : Set Nat))
    (kl := [.regs, .shadow, .mem, .ecc, .free, .cfg, .flt, .cel, .sch, .gcl, .pipes, .cls, .flw, .cas]) Kept.rfl_frame
    (by decide) (by decide) (by decide) (by decide) (by decide) (by decide) (by decide) (by decide) (by decide) (by decide) (by decide) (by decide)
    (by decide) (by decide) Set.mem_univ).frame (by decide)

theorem commitSpec_spcCh (x : SpecPkt) : (commitSpec k x s).spcCh k = committed x (s.spcCh k) := by
  unfold commitSpec
  dsimp only
  split
  · refine (foldl_keeps (fun t : State => t.spcCh k) (fun t e => ?_) _ _).trans
      ((spcCh_setSpcCh _ _ _).trans (congrArg (committed x) (showHeld_spcCh _)))
    cases e
    case drain v => exact applyEff_spcCh (.drain v)
    all_goals rfl
  · exact (foldl_keeps (fun t : State => t.spcCh k) (fun t e => applyEff_spcCh e) _ _).trans
      ((spcCh_setSpcCh _ _ _).trans (congrArg (committed x) (showHeld_spcCh _)))

theorem squashSpec_spcCh (x : SpecPkt) : (squashSpec k x s).spcCh k = squashed x (s.spcCh k) := by
  unfold squashSpec
  dsimp only
  exact (spcCh_setSpcCh _ _ _).trans (congrArg (squashed x) ((unlink_spcCh _).trans (showHeld_spcCh _)))

/-- Operations that each take one packet out of a channel take out all of a list, and give no verdict. -/
theorem foldl_removes {f : State → SpecPkt → State}
    (hp : ∀ s x, ((f s x).spcCh k).pkts = (s.spcCh k).pkts.filter (fun y => y.num != x.num))
    (hn : ∀ s x, ((f s x).spcCh k).next = (s.spcCh k).next) (l : List SpecPkt) (s : State) :
    ((l.foldl f s).spcCh k).next = (s.spcCh k).next ∧ ∀ p ∈ ((l.foldl f s).spcCh k).pkts, p ∈ (s.spcCh k).pkts ∧ p ∉ l := by
  refine ⟨foldl_keeps (fun t : State => (t.spcCh k).next) hn l s, ?_⟩
  induction l generalizing s with
  | nil => exact fun p hm => ⟨hm, List.not_mem_nil⟩
  | cons x l ih =>
    intro p hm
    obtain ⟨h1, h2⟩ := ih (f s x) p hm
    rw [hp, List.mem_filter, bne_iff_ne] at h1
    refine ⟨h1.1, fun h => ?_⟩
    rcases List.mem_cons.1 h with rfl | h
    · exact h1.2 rfl
    · exact h2 h

/-- A squash takes out of its channel every packet that the test picks, and gives no verdict. -/
theorem squashWhere_removes (f : SpecPkt → Bool) : ((squashWhere k f s).spcCh k).next = (s.spcCh k).next ∧
    ∀ p ∈ ((squashWhere k f s).spcCh k).pkts, p ∈ (s.spcCh k).pkts ∧ f p = false := by
  unfold squashWhere
  dsimp only
  obtain ⟨hn, hp⟩ := foldl_removes (k := k) (f := fun t x => squashSpec k x t) (fun _ x => by rw [squashSpec_spcCh]; rfl)
    (fun _ x => by rw [squashSpec_spcCh]; rfl) ((s.spcCh k).pkts.filter f)
    (s.setSpcCh k { s.spcCh k with waits := (s.spcCh k).waits.filter (fun w => !f w.pkt) })
  rw [spcCh_setSpcCh] at hn hp ⊢
  refine ⟨hn, fun p hm => ?_⟩
  obtain ⟨h1, h2⟩ := hp p hm
  exact ⟨h1, Bool.eq_false_iff.2 fun hf => h2 (List.mem_filter.2 ⟨h1, hf⟩)⟩
end

section
variable {s : State} {k : Chan}

theorem showHeld_cwc (i : Nat) : (showHeld i s).reg (SPC_CWC k).addr = s.reg (SPC_CWC k).addr := by
  unfold showHeld
  split
  · refine reg_wr_ne _ _ ?_
    show 0x13000200 + k.val % 4096 * 8 ≠ 0x13000300 + i % 4096 * 8
    omega
  · rfl

theorem unlink_cwc (f : QPkt → Bool) : (unlink f s).reg (SPC_CWC k).addr = s.reg (SPC_CWC k).addr := by
  have hb : blkOf (SPC_CWC k).addr = blkSPC := blkOf_array (B := 0x13000200) (by decide) (array_le (u := k) (m := 4096) (s := 8) (by decide))
  refine (kept_unlink (kb := false) (kl := [.regs, .cel, .sch]) (bl := [blkCEL]) Kept.rfl_frame (by decide) (by decide) (by decide)
    (by decide)).regFrame _ ?_
  rw [hb]
  decide

/-- The counts of a channel's verdicts and timeouts lie in no register that a squash writes. -/
theorem squashSpec_cwc (x : SpecPkt) : (squashSpec k x s).reg (SPC_CWC k).addr = s.reg (SPC_CWC k).addr := by
  have hcnt : (SPC_CWC k).addr ≠ (SPC_CNT k).addr := by
    show 0x13000200 + k.val % 4096 * 8 ≠ 0x13000100 + k.val % 4096 * 8
    omega
  unfold squashSpec
  dsimp only
  exact (reg_inc_ne (r := SPC_CNT_SQUASH k) _ hcnt).trans
    ((reg_setSpcCh _ _ _ _).trans ((unlink_cwc _).trans ((showHeld_cwc _).trans (reg_setPipe _ _ _ _))))

theorem squashWhere_rd (f : SpecPkt → Bool) {q : RF} (hq : q.addr = (SPC_CWC k).addr) : (squashWhere k f s).rd q = s.rd q := by
  refine rd_congr ?_
  unfold squashWhere
  rw [hq, foldl_keeps (fun t : State => t.reg (SPC_CWC k).addr) fun t x => squashSpec_cwc x]
  exact reg_setSpcCh _ _ _ _

/-- A squash after which the run-ahead resumes: the packets picked have gone, no verdict is given, and no verdict or timeout is counted. -/
theorem aheadSquashed (f : SpecPkt → Bool) :
    ((aheadResumes k (squashWhere k f s)).spcCh k).next = (s.spcCh k).next ∧
      (∀ p ∈ ((aheadResumes k (squashWhere k f s)).spcCh k).pkts, f p = false) ∧
      ∀ q : RF, q.addr = (SPC_CWC k).addr → (aheadResumes k (squashWhere k f s)).rd q = s.rd q := by
  obtain ⟨hnext, hgone⟩ := squashWhere_removes (s := s) (k := k) f
  unfold aheadResumes
  rw [spcCh_setSpcCh]
  exact ⟨hnext, fun p hm => (hgone p hm).2, fun q hq => (rd_setSpcCh _ _ _ _).trans (squashWhere_rd f hq)⟩

/-! ### Verdicts and the timeout (R197, R199 to R201) -/

/-- The next codeword's verdict is given. -/
def verdictGiven (k n : Nat) (s : State) : State :=
  s.setSpcCh k { s.spcCh k with next := some (n + 1), ended := SMap.set (fun _ => none) (s.spcCh k).ended n none }

variable {n : Nat}

theorem codewordVerdict_match (hn : (s.spcCh k).next = some n)
    (he : SMap.get (fun _ => (none : Option Bool)) (s.spcCh k).ended n = some true) : codewordVerdict k s =
      ((s.spcCh k).pkts.filter (fun p => decide (p.hi ≤ n))).foldl (fun s p => commitSpec k p s) (verdictGiven k n s) := by
  unfold codewordVerdict
  simp only [hn, he, spcCh_setSpcCh, ↓reduceIte]
  rfl

/-- A mismatch is noted and counted. -/
def mismatchGiven (k n : Nat) (s : State) : State :=
  ((verdictGiven k n s).setSpcCh k { (verdictGiven k n s).spcCh k with lastBad := some n }).inc (SPC_CWC_MISMATCH k)

theorem codewordVerdict_mismatch (hn : (s.spcCh k).next = some n)
    (he : SMap.get (fun _ => (none : Option Bool)) (s.spcCh k).ended n = some false) :
    codewordVerdict k s = aheadResumes k (squashWhere k (fun p => decide (n ≤ p.hi)) (mismatchGiven k n s)) := by
  unfold codewordVerdict
  simp only [hn, he, Bool.false_eq_true, ↓reduceIte]
  rfl

theorem verdictGiven_next : ((verdictGiven k n s).spcCh k).next = some (n + 1) := by
  unfold verdictGiven
  rw [spcCh_setSpcCh]

theorem mismatchGiven_next : ((mismatchGiven k n s).spcCh k).next = some (n + 1) := by
  unfold mismatchGiven
  rw [spcCh_inc, spcCh_setSpcCh]
  exact verdictGiven_next

theorem mismatchGiven_counts :
    (mismatchGiven k n s).rd (SPC_CWC_MISMATCH k) = satAdd (SPC_CWC_MISMATCH k).w (s.rd (SPC_CWC_MISMATCH k)) 1 := by
  unfold mismatchGiven verdictGiven
  rw [rd_inc_same _ le_of_eval, rd_setSpcCh, rd_setSpcCh]
  rfl

/-- CODEWORD_VERDICT, on a match. -/
theorem codewordVerdict_commits (hn : (s.spcCh k).next = some n)
    (he : SMap.get (fun _ => (none : Option Bool)) (s.spcCh k).ended n = some true) :
    ((codewordVerdict k s).spcCh k).next = some (n + 1) ∧
      ∀ p ∈ (s.spcCh k).pkts, p.hi ≤ n → p ∉ ((codewordVerdict k s).spcCh k).pkts := by
  obtain ⟨hnext, hgone⟩ := foldl_removes (k := k) (f := fun t x => commitSpec k x t) (fun _ x => by rw [commitSpec_spcCh]; rfl)
    (fun _ x => by rw [commitSpec_spcCh]; rfl) ((s.spcCh k).pkts.filter (fun p => decide (p.hi ≤ n))) (verdictGiven k n s)
  rw [codewordVerdict_match hn he]
  refine ⟨hnext.trans verdictGiven_next, fun p hp hle hm => ?_⟩
  exact (hgone p hm).2 (List.mem_filter.2 ⟨hp, decide_eq_true hle⟩)

/-- CODEWORD_VERDICT, on a mismatch. -/
theorem codewordVerdict_squashes (hn : (s.spcCh k).next = some n)
    (he : SMap.get (fun _ => (none : Option Bool)) (s.spcCh k).ended n = some false) :
    ((codewordVerdict k s).spcCh k).next = some (n + 1) ∧
      (codewordVerdict k s).rd (SPC_CWC_MISMATCH k) = satAdd (SPC_CWC_MISMATCH k).w (s.rd (SPC_CWC_MISMATCH k)) 1 ∧
      ∀ p ∈ (s.spcCh k).pkts, n ≤ p.hi → p ∉ ((codewordVerdict k s).spcCh k).pkts := by
  obtain ⟨hnext, hgone, hrd⟩ := aheadSquashed (s := mismatchGiven k n s) (k := k) (fun p => decide (n ≤ p.hi))
  rw [codewordVerdict_mismatch hn he]
  exact ⟨hnext.trans mismatchGiven_next, (hrd (SPC_CWC_MISMATCH k) rfl).trans mismatchGiven_counts,
    fun p _ hle hm => of_decide_eq_false (hgone p hm) hle⟩

/-- SPEC_TIMEOUT. -/
theorem specTimeout_squashes (hp : (s.spcCh k).pkts ≠ []) : ((specTimeout k s).spcCh k).pkts = [] ∧
    (specTimeout k s).rd (SPC_CWC_TIMEOUT k) = satAdd (SPC_CWC_TIMEOUT k).w (s.rd (SPC_CWC_TIMEOUT k)) 1 := by
  have e : specTimeout k s = aheadResumes k (squashWhere k (fun _ => true) (s.inc (SPC_CWC_TIMEOUT k))) := by
    unfold specTimeout
    split
    · next h => exact absurd h hp
    · rfl
  obtain ⟨-, hgone, hrd⟩ := aheadSquashed (s := s.inc (SPC_CWC_TIMEOUT k)) (k := k) fun _ => true
  rw [e]
  exact ⟨List.eq_nil_iff_forall_not_mem.2 fun p hm => (nomatch hgone p hm),
    (hrd (SPC_CWC_TIMEOUT k) rfl).trans (rd_inc_same _ le_of_eval)⟩
end

/-! ### SpeculationComplete -/

section
variable {s : State} {k : Nat} {info : Bytes} {y : Checks} {pos w ctx : Nat}

/-- RUNAHEAD_ISSUE of a packet that R196 lets the run-ahead issue: the one speculative packet of its channel, at its pipeline's entrance. -/
theorem runAhead_issues (h : AheadReads k info pos w s) (hgood : hecOk w = true) (hend : pos + occupancy w ≤ frameEnd)
    (hlen : occupancy w ≤ info.length) (hi : AheadIssues k info pos w ctx s) (hf : y.flips = []) (hj : injArmed blkSPC y.idx.toNat s = false) :
    ((runAhead k info y s).spcCh k).pkts = [{ aheadPkt k pos w s with stamp := s.rd CLS_VER_CUR }] ∧
      ((runAhead k info y s).pipe (pipeOf 0 k)).input.length = (s.pipe (pipeOf 0 k)).input.length + 1 := by
  rw [runAhead_starts h hgood hend hlen hi hf hj]
  obtain ⟨-, -, -, -, -, hki, -, -, h64, -, -, hpkts, hwaits, -, hstamps, -, hbytes, hv, hfcs, hrec⟩ := hi
  have hplain := length_payload hlen
  obtain ⟨u, hu⟩ : ∃ u, u = aheadNumbered k (aheadTo k (pos + occupancy w) s) := ⟨_, rfl⟩
  have hch : u.spcCh k = { s.spcCh k with pos := pos + occupancy w, nextNum := (s.spcCh k).nextNum + 1 } := by
    rw [hu, aheadNumbered, spcCh_setSpcCh, aheadTo_spcCh]
  have hpkt : aheadPkt k pos w (aheadTo k (pos + occupancy w) s) = aheadPkt k pos w s := by
    unfold aheadPkt
    rw [aheadTo_spcCh]
    rfl
  have hdue : recordsDue u (pipeOf 0 k) = recordsDue s (pipeOf 0 k) := hu ▸ rfl
  have hpipe : u.pipe (pipeOf 0 k) = s.pipe (pipeOf 0 k) := hu ▸ rfl
  have hcur : u.rd CLS_VER_CUR = s.rd CLS_VER_CUR := hu ▸ (rd_setSpcCh _ _ _ _).trans (aheadTo_rd _)
  rw [startAhead_clear hki (by rw [aheadTo_spcCh]; exact hwaits), hpkt, ← hu,
    finishAhead_issues rfl (by omega) (payload_fcs hlen h64 hfcs) (by rw [hch]; exact hv) (by rw [hch, hplain]; exact hbytes) (by omega)]
  obtain ⟨hone, hin⟩ := issueAhead_issues (k := k) (s := u) (p := aheadPkt k pos w s) (ctx := ctx) (plain := slice info 8 (hdrPlen w)) (bad := false)
    (d := arrival (aheadTo k (pos + occupancy w) s) k pos) (by rw [hch]; exact hstamps)
  rw [hch, hcur] at hone
  rw [hpipe] at hin
  exact ⟨(congrArg SpcCh.pkts (spcCh_setSpcCh _ _ _)).trans (hone.trans (congrArg (· ++ _) hpkts)), hin⟩
end

/-- Settles O32: the run-ahead by where it stands after a fragment and by the packet it issues, verdicts and the timeout by what commits and
squashes leave of their channel. -/
theorem speculationComplete : Obligations.SpeculationComplete := by
  unfold Obligations.SpeculationComplete
  refine ⟨fun k info idx flips pos w s hup h hbad => ?_, fun k info idx flips pos w s hup h hgood hend hlen => ?_,
    fun k n s hup hn he => ⟨_, congrArg Host.Outcome.next (if_pos hup), codewordVerdict_commits hn he⟩,
    fun k n s hup hn he => ⟨_, congrArg Host.Outcome.next (if_pos hup), codewordVerdict_squashes hn he⟩,
    fun k s hup hp => ⟨_, congrArg Host.Outcome.next (if_pos hup), specTimeout_squashes hp⟩⟩
  · refine ⟨_, congrArg Host.Outcome.next ((if_pos hup).trans (runAhead_stops h hbad)), ?_⟩
    rw [spcCh_setSpcCh]
    exact ⟨rfl, rfl⟩
  · refine ⟨_, congrArg Host.Outcome.next (if_pos hup), runAhead_pos h hgood hend hlen, fun ctx hi hf hj => ?_⟩
    obtain ⟨hpkts, hinput⟩ := runAhead_issues (y := ⟨idx, flips⟩) h hgood hend hlen hi hf hj
    exact ⟨⟨_, hpkts, rfl, rfl, rfl, rfl⟩, hinput⟩
end Sys2Proof.Machine
end

section
/-! PROOFS. The cell buffer and Cellar family (chapter 09): what the accounting of pools and pages leaves alone, spill and return of a page,
the indirect tables and the pool sizes (O33); then the stacks' training, the scrubber and the row tests (O34). -/

namespace Sys2Proof.Machine
open Sys2Proof.Spec

/-! ### Pools and pages counted (R207, R211) -/

section
variable {s t : State} {dir key p n no : Nat} {l : List Loc}

/-- What leaves the registers alone leaves each alone. -/
theorem reg_frame {kl : List Part} (h : Frame kl s t) (hn : Part.regs ∉ kl) (a : Nat) : t.reg a = s.reg a :=
  congrArg (fun m : SMap Word => SMap.get regReset m a) (h .regs hn)

/-- A queue is as CEL's part holds it. -/
theorem lq_congr (h : t.cel.queues = s.cel.queues) (k : Nat) : t.lq k = s.lq k :=
  congrArg (fun m : SMap LeafQ => SMap.get (fun _ => ({} : LeafQ)) m k) h

/-- So is a profile. -/
theorem profile_congr (h : t.cel.profiles = s.cel.profiles) (k : Nat) : t.profile k = s.profile k :=
  congrArg (fun m : SMap Profile => SMap.get (fun _ => ({} : Profile)) m k) h

@[simp] theorem givePool_lq (k : Nat) : (givePool dir p n s).lq k = s.lq k := rfl

@[simp] theorem givePool_waits : (givePool dir p n s).cel.waits = s.cel.waits := rfl

@[simp] theorem takePool_lq (k : Nat) : (takePool dir p n s).lq k = s.lq k := rfl

@[simp] theorem takePool_waits : (takePool dir p n s).cel.waits = s.cel.waits := rfl

theorem takePool_used : (takePool dir p n s).poolUsed (dir * 3 + p) = s.poolUsed (dir * 3 + p) + n :=
  poolUsed_setPoolUsed s _ _

theorem givePage_queues : (givePage no s).cel.queues = s.cel.queues := by
  unfold givePage
  dsimp only
  split <;> rfl

@[simp] theorem givePage_lq (k : Nat) : (givePage no s).lq k = s.lq k := lq_congr givePage_queues k

@[simp] theorem givePage_waits : (givePage no s).cel.waits = s.cel.waits := by
  unfold givePage
  dsimp only
  split <;> rfl

theorem mem_insertBy {α : Type} {key : α → Nat} {x y : α} {l : List α} : y ∈ insertBy key x l ↔ y = x ∨ y ∈ l := by
  induction l with
  | nil => simp [insertBy]
  | cons z l ih =>
    unfold insertBy
    split
    · simp
    · simp only [List.mem_cons, ih]
      tauto

theorem mem_sortBy {α : Type} {key : α → Nat} {y : α} {l : List α} : y ∈ sortBy key l ↔ y ∈ l := by
  have h : ∀ a : List α, y ∈ l.foldl (fun a x => insertBy key x a) a ↔ y ∈ a ∨ y ∈ l := by
    induction l with
    | nil => simp
    | cons x l ih =>
      intro a
      rw [List.foldl_cons, ih, mem_insertBy, List.mem_cons]
      tauto
  exact (h []).trans (by simp)

/-- A page taken is in use; what waits is as before. -/
theorem takePage_some {u : State} (h : takePage s = some (no, u)) :
    no ∈ u.cel.pagesUsed ∧ u.cel.waits = s.cel.waits := by
  unfold takePage at h
  split at h
  · cases h
  · cases h
    exact ⟨mem_sortBy.2 List.mem_cons_self, rfl⟩

@[simp] theorem poolUsed_setLq (k j : Nat) (q : LeafQ) : (s.setLq k q).poolUsed j = s.poolUsed j := rfl

@[simp] theorem hbmAsk_poolUsed (c j : Nat) : (hbmAsk c no s).poolUsed j = s.poolUsed j := rfl

@[simp] theorem hbmAsk_lq (c k : Nat) : (hbmAsk c no s).lq k = s.lq k := rfl

@[simp] theorem hbmAsk_waits (c : Nat) : (hbmAsk c no s).cel.waits = s.cel.waits ++ [⟨c, no⟩] := rfl

/-- An access that has been served waits no longer. -/
theorem hbmServed_gone {r : HbmReq} (h : r ∈ (hbmServed no s).cel.waits) : r.page ≠ no := by
  simpa using (List.mem_filter.1 h).2
end

/-! ### A page spilled (R211) -/

/-- A queue whose tail's first 62 cells start to be written to a page: the page is the queue's last, linked from the one before. -/
def spillTo (key no : Nat) (q : LeafQ) : LeafQ :=
  let start := q.headCells + q.celCells
  { q with
    pkts := mapCells (fun i l => if start ≤ i ∧ i < start + 62 then l.startWrite else l) 0 q.pkts
    pages := (match q.pages.reverse with
        | [] => []
        | x :: t => (({ x with linkA := some no, linkB := some no } : Page) :: t).reverse) ++
      [{ no := no, writing := true, reading := false, key := key, epoch := q.epoch, desc := ((cellNames q.pkts).drop start).take 62 }] }

theorem spillTo_pages (key no : Nat) (q : LeafQ) : (spillTo key no q).pages.map (·.no) = q.pages.map (·.no) ++ [no] := by
  have h : ∀ l : List Page, q.pages.reverse = l → q.pages = l.reverse := fun l e => by rw [← e, List.reverse_reverse]
  unfold spillTo
  rw [List.map_append]
  split
  · next e => rw [h _ e]; rfl
  · next e => rw [h _ e]; simp

section
variable {s u : State} {key no : Nat} {pg : Page}

/-- No tentative packet has a cell in the tail's first 62 (R211). -/
theorem all_committed {f : Nat → Loc → Loc} {l : List QPkt} (h : ∀ p ∈ l, p.spec = none) :
    ((mapCells f 0 l).zip l).all (fun p => p.1.cells == p.2.cells || p.2.spec.isNone) = true := by
  rw [List.all_eq_true]
  rintro ⟨x, p⟩ hm
  rw [h p (List.of_mem_zip hm).2]
  exact Bool.or_true _

theorem spillWrite_takes (hs : (s.lq key).s = true) (hc : ∀ p ∈ (s.lq key).pkts, p.spec = none)
    (hn : (s.lq key).headCells + (s.lq key).celCells + 62 ≤ (s.lq key).cells.length) (hp : takePage s = some (no, u)) :
    spillWrite key s = hbmAsk 4 no (pageClean no (u.setLq key (spillTo key no (s.lq key)))) := by
  unfold spillWrite
  dsimp only
  refine (if_pos (by rw [hs, decide_eq_true hn, all_committed hc]; rfl)).trans ?_
  rw [hp]
  rfl

/-- SPILL_PAGE_WRITE of a tail whose first 62 cells are committed. -/
theorem spillWrite_waits (hs : (s.lq key).s = true) (hc : ∀ p ∈ (s.lq key).pkts, p.spec = none)
    (hn : (s.lq key).headCells + (s.lq key).celCells + 62 ≤ (s.lq key).cells.length) (hp : (takePage s).isSome = true) :
    ∃ no, ((spillWrite key s).lq key).pages.map (·.no) = (s.lq key).pages.map (·.no) ++ [no] ∧
      (spillWrite key s).cel.waits = s.cel.waits ++ [⟨4, no⟩] ∧ no ∈ (spillWrite key s).cel.pagesUsed := by
  obtain ⟨⟨no, u⟩, hp⟩ := Option.isSome_iff_exists.1 hp
  obtain ⟨hused, hwaits⟩ := takePage_some hp
  have hlq : (hbmAsk 4 no (pageClean no (u.setLq key (spillTo key no (s.lq key))))).lq key = spillTo key no (s.lq key) := lq_setLq u key _
  rw [spillWrite_takes hs hc hn hp]
  refine ⟨no, ?_, congrArg (· ++ [(⟨4, no⟩ : HbmReq)]) hwaits, hused⟩
  rw [hlq, spillTo_pages]

/-- A page that is being written has its place among those that are. -/
theorem findIdx_writing (h : ∃ p ∈ (s.lq key).pages, p.writing = true ∧ p.no = no) :
    ∃ i, ((s.lq key).pages.filter (·.writing)).findIdx? (fun p => p.no == no) = some i := by
  obtain ⟨p, hp, hw, hno⟩ := h
  refine Option.isSome_iff_exists.1 ?_
  rw [List.findIdx?_isSome, List.any_eq_true]
  exact ⟨p, List.mem_filter.2 ⟨hp, hw⟩, by simp [hno]⟩

/-- SPILL_WRITE_DONE in its turn. -/
theorem spillWriteDone_completes (ht : hbmTurn s no = true) (ho : no ∉ s.cel.orphans)
    (h : ∃ p ∈ (s.lq key).pages, p.writing = true ∧ p.no = no) :
    ((spillWriteDone key no s).lq key).c = (s.lq key).c + 62 ∧ ((spillWriteDone key no s).lq key).q = (s.lq key).q - 62 ∧
      (∀ p ∈ ((spillWriteDone key no s).lq key).pages, p.no = no → p.writing = false) ∧
      ∀ r ∈ (spillWriteDone key no s).cel.waits, r.page ≠ no := by
  obtain ⟨i, hi⟩ := findIdx_writing h
  unfold spillWriteDone
  dsimp only
  rw [ht, if_neg (by decide), if_neg (by simpa using ho), hi]
  simp only [givePool_lq, lq_setLq, givePool_waits]
  refine ⟨trivial, trivial, fun p hp hno => ?_, fun r hr => hbmServed_gone hr⟩
  obtain ⟨x, -, rfl⟩ := List.mem_map.1 hp
  by_cases hx : x.no = no
  · rw [if_pos hx]
  · rw [if_neg hx] at hno
    exact absurd hno hx

/-! ### A page returned (R212, R221) -/

/-- CELLAR_RETURN_READ of a return that is due. -/
theorem returnRead_waits (hd : returnDue s key = true) (hf : (s.lq key).pages.find? (fun p => !p.reading) = some pg) (hw : pg.writing = false) :
    (returnRead key s).cel.waits = s.cel.waits ++ [⟨3, pg.no⟩] ∧
      (returnRead key s).poolUsed (dirOf key * 3 + 2) = s.poolUsed (dirOf key * 3 + 2) + 62 ∧
      ∀ p ∈ ((returnRead key s).lq key).pages, p.no = pg.no → p.reading = true := by
  unfold returnRead
  dsimp only
  rw [hf]
  dsimp only
  rw [hd, hw, if_pos (by decide)]
  simp only [hbmAsk_waits, takePool_waits, hbmAsk_poolUsed, takePool_used, poolUsed_setLq, hbmAsk_lq, takePool_lq, lq_setLq]
  refine ⟨rfl, trivial, fun p hp hno => ?_⟩
  obtain ⟨x, -, rfl⟩ := List.mem_map.1 hp
  by_cases hx : x.no = pg.no
  · rw [if_pos hx]
  · rw [if_neg hx] at hno
    exact absurd hno hx

/-- The tail's joining changes the head segment and S alone. -/
theorem joinTail_keeps : (joinTail key s).cel.waits = s.cel.waits ∧ ((joinTail key s).lq key).c = (s.lq key).c ∧
    ((joinTail key s).lq key).q = (s.lq key).q ∧ ((joinTail key s).lq key).pages = (s.lq key).pages := by
  unfold joinTail
  dsimp only
  split
  · rw [lq_setLq]
    exact ⟨rfl, rfl, rfl, rfl⟩
  · exact ⟨rfl, rfl, rfl, rfl⟩

/-- RETURN_READ_DONE in its turn of a page without an inverted bit. -/
theorem returnDone_completes (ht : hbmTurn s no = true) (ho : no ∉ s.cel.orphans)
    (h : ∃ p ∈ (s.lq key).pages, p.reading = true ∧ p.no = no) (hf : pageFlips s no [] = []) :
    ((returnDone key no [] s).lq key).c = (s.lq key).c - 62 ∧ ((returnDone key no [] s).lq key).q = (s.lq key).q + 62 ∧
      (∀ p ∈ ((returnDone key no [] s).lq key).pages, p.no ≠ no) ∧ ∀ r ∈ (returnDone key no [] s).cel.waits, r.page ≠ no := by
  obtain ⟨i, hi⟩ : ∃ i, (s.lq key).pages.findIdx? (fun p => p.no == no && p.reading) = some i := by
    obtain ⟨p, hp, hr, hno⟩ := h
    refine Option.isSome_iff_exists.1 ?_
    rw [List.findIdx?_isSome, List.any_eq_true]
    exact ⟨p, hp, by simp [hno, hr]⟩
  unfold returnDone
  rw [ht, if_neg (by decide), if_neg (by simpa using ho), hi]
  dsimp only
  rw [hf]
  obtain ⟨hwaits, hc, hq, hpages⟩ := joinTail_keeps (key := key)
    (s := givePage no ((pageClean no (pageCheck no [] (hbmServed no s)).2).setLq key
      { s.lq key with pkts := finishRead (fun _ => false) (62 * i) (62 * i + 62) 0 (s.lq key).pkts,
                      pages := (s.lq key).pages.filter (fun p => p.no != no),
                      head := (s.lq key).head + 62, c := (s.lq key).c - 62, q := (s.lq key).q + 62 }))
  rw [givePage_lq, lq_setLq] at hc hq hpages
  refine ⟨hc, hq, fun p hp => ?_, fun r hr => ?_⟩
  · have hp' := hpages ▸ hp
    simpa using (List.mem_filter.1 hp').2
  · have hr' := (hwaits.trans givePage_waits) ▸ hr
    exact hbmServed_gone (s := s) hr'
end

/-! ### Writes of CEL registers (R225) -/

theorem regionOf_cel {a : Nat} (h : blkOf a = blkCEL) : regionOf a = .regs := by
  have h' : a / 0x1000000 = 0x14 := h
  exact if_pos (by omega)

theorem bankOf_cel {a : Nat} (h : blkOf a = blkCEL) : bankOf a = none := by
  unfold bankOf
  rw [h]
  rfl

theorem blockWrite_cel {l a : Nat} {v : Word} {o s : State} (h : blkOf a = blkCEL) : blockWrite l a v o s = celWrite a v o s := by
  unfold blockWrite
  rw [h]
  rfl

/-- An accepted write of a register of CEL stores its fields and acts in CEL. -/
theorem regAccess_cel {i : Initiator} {a : Nat} {v : Word} {s : State} {r : RegRow} (hA : Accepted i a v s) (hr : regRow? a = some r)
    (hb : blkOf a = blkCEL) : regAccess i a v s = celWrite a v (hartActs i s) (regStore a r v (hartActs i s)) := by
  have hp : a ≠ TSK_POST.addr := by
    rintro rfl
    exact absurd hb (by decide)
  rw [regAccess_eq hA.1 hA.2 (regionOf_cel hb) hp, regWrite_eq hr (by rw [bankOf_cel hb]; nofun), blockWrite_cel hb]

/-! ### The indirect tables (Table 9.6, R225) -/

/-- The row of CEL_IND_CMD. -/
def rowCelIndCmd : RegRow :=
  ⟨0x14, 0x14000000, 1, 0x58, 1, 8, 0x0,
    [⟨63, 1, .w1s, 0, 1⟩, ⟨62, 1, .w1c, 0, 1⟩, ⟨61, 1, .rw, 0, 1⟩, ⟨56, 2, .rw, 0, 3⟩, ⟨0, 18, .rw, 0, 262143⟩]⟩

theorem regRow_celIndCmd : regRow? CEL_IND_CMD.addr = some rowCelIndCmd := by decide +kernel

section
variable {i : Initiator} {v : Word} {m n : Nat} {s t : State}

theorem celGo_go : inField (celGo v m) CEL_IND_CMD_GO = 1 := by
  rw [celGo, inField_withField_disj _ _ (by decide) (by decide) (by decide), inField_withField_same _ _ (by decide) (by decide)]

theorem celGo_other {q : RF} (h : q.lo + q.w ≤ 61) : inField (celGo v m) q = inField v q := by
  have hd : ∀ lo, 61 ≤ lo → q.lo + q.w ≤ lo := fun _ hl => h.trans hl
  exact (inField_withField_disj (r := CEL_IND_CMD_RD) _ m le_of_eval (hd 64 (by decide)) (Or.inr (hd 61 (by decide)))).trans
    (inField_withField_disj (r := CEL_IND_CMD_GO) v 1 le_of_eval (hd 64 (by decide)) (Or.inr (hd 63 (by decide))))

/-- The state in which an access through CEL_IND_CMD is carried out. -/
def celStored (i : Initiator) (v : Word) (m : Nat) (s : State) : State := storedBy i CEL_IND_CMD.addr rowCelIndCmd (celGo v m) s

theorem celStored_table : (celStored i v m s).rd CEL_IND_CMD_TABLE = inField v CEL_IND_CMD_TABLE :=
  (storedBy_rd_rw CEL_IND_CMD_TABLE rfl regRow_celIndCmd (by decide)).trans (celGo_other (by decide))

theorem celStored_index : (celStored i v m s).rd CEL_IND_CMD_INDEX = inField v CEL_IND_CMD_INDEX :=
  (storedBy_rd_rw CEL_IND_CMD_INDEX rfl regRow_celIndCmd (by decide)).trans (celGo_other (by decide))

theorem celStored_read (h : m < 2) : (celStored i v m s).bit CEL_IND_CMD_RD = (m != 0) :=
  congrArg (· != 0) ((storedBy_rd_rw CEL_IND_CMD_RD rfl regRow_celIndCmd (by decide)).trans (inField_withField_same _ _ (by decide) h))

theorem celStored_data (h : n < 2) : celData (celStored i v m s) n = celData s n := by
  refine storedBy_reg_ne ?_
  show 0x14000060 + n % 4096 * 8 ≠ 0x14000058
  omega

theorem celStored_cel : (celStored i v m s).cel = s.cel := storedBy_kept.frame .cel (by decide)

theorem celStored_lq : (celStored i v m s).lq n = s.lq n := lq_congr (congrArg CelSt.queues celStored_cel) n

theorem celStored_profile : (celStored i v m s).profile n = s.profile n := profile_congr (congrArg CelSt.profiles celStored_cel) n

theorem celStored_celProfile : celProfile (celStored i v m s) = celProfile s := by
  unfold celProfile
  rw [celStored_data (by decide), celStored_data (by decide)]

/-- An access that is not refused ends at once with GO 0. -/
theorem celInd_accepted (hA : Accepted i CEL_IND_CMD.addr (celGo v m) s) (hg : s.bit CEL_IND_CMD_GO = false)
    (ht : celAccess (celStored i v m s) = some t) : regAccess i CEL_IND_CMD.addr (celGo v m) s = t.put CEL_IND_CMD_GO false := by
  have hstore : regStore CEL_IND_CMD.addr rowCelIndCmd (celGo v m) (hartActs i s) = celStored i v m s := by
    rw [regStore_rw (by decide) (by decide) (by decide) (by decide), hartActs_reg]
    rfl
  rw [regAccess_cel hA regRow_celIndCmd (by decide), hstore]
  unfold celWrite
  rw [if_pos ⟨rfl, celGo_go⟩, hartActs_bit, hg, if_neg Bool.false_ne_true, ht]
  rfl

/-! What an access comes to, by table and direction. -/

/-- The data words that show a profile. -/
def profileWords (p : Profile) : Nat × Nat := (p.minRes * 2 ^ 44 + p.headKeep * 2 ^ 24 + p.spillHi * 16 + p.alpha, p.qmax)

/-- The data words that show a queue entry. -/
def queueWords (q : LeafQ) : Nat × Nat := (2 ^ 63 * b2n q.spillEn + 2 ^ 48 * q.prof + 2 ^ 47 * b2n q.s + 2 ^ 24 * q.q, q.c)

theorem celAccess_readProfile (ht : s.rd CEL_IND_CMD_TABLE = 0) (hi : s.rd CEL_IND_CMD_INDEX = n) (hn : n ≤ 255) (hr : s.bit CEL_IND_CMD_RD = true) :
    celAccess s = some (showCel (profileWords (s.profile n)).1 (profileWords (s.profile n)).2 s) := by
  unfold celAccess
  dsimp only
  rw [ht, hi, hr]
  exact (if_neg (by omega)).trans (if_pos rfl)

theorem celAccess_readQueue (ht : s.rd CEL_IND_CMD_TABLE = 1) (hi : s.rd CEL_IND_CMD_INDEX = n) (hr : s.bit CEL_IND_CMD_RD = true) :
    celAccess s = some (showCel (queueWords (s.lq n)).1 (queueWords (s.lq n)).2 s) := by
  unfold celAccess
  dsimp only
  rw [ht, hi, hr]
  exact if_pos rfl

theorem celAccess_writeProfile (ht : s.rd CEL_IND_CMD_TABLE = 0) (hi : s.rd CEL_IND_CMD_INDEX = n) (hn : n ≤ 255) (hr : s.bit CEL_IND_CMD_RD = false)
    (hp : profileOk (celProfile s)) : celAccess s = some (s.setProfile n (celProfile s)) := by
  unfold celAccess
  dsimp only
  rw [ht, hi, hr]
  exact (if_neg (by omega)).trans ((if_neg Bool.false_ne_true).trans (if_pos hp))

theorem celAccess_writeQueue (ht : s.rd CEL_IND_CMD_TABLE = 1) (hi : s.rd CEL_IND_CMD_INDEX = n) (hr : s.bit CEL_IND_CMD_RD = false)
    (hs : fieldOf (celData s 0) 47 1 = b2n (s.lq n).s) (hq : fieldOf (celData s 0) 24 20 = (s.lq n).q) (hc : fieldOf (celData s 1) 0 31 = (s.lq n).c) :
    celAccess s = some (s.setLq n { s.lq n with spillEn := fieldOf (celData s 0) 63 1 == 1, prof := fieldOf (celData s 0) 48 8 }) := by
  unfold celAccess
  dsimp only
  rw [ht, hi, hr]
  exact (if_neg Bool.false_ne_true).trans (if_pos ⟨hs, hq, hc⟩)

/-- What an accepted access has shown stays shown as it ends. -/
theorem showCel_shows {d : Nat × Nat} : celData ((showCel d.1 d.2 s).put CEL_IND_CMD_GO false) 0 = BitVec.ofNat 64 d.1 ∧
    celData ((showCel d.1 d.2 s).put CEL_IND_CMD_GO false) 1 = BitVec.ofNat 64 d.2 := by
  unfold celData showCel
  rw [reg_put_ne _ _ (by decide), reg_put_ne _ _ (by decide), reg_setReg_same, reg_setReg_ne _ _ (by decide), reg_setReg_same]
  exact ⟨rfl, rfl⟩

/-- CEL_IND_READ of a profile. -/
theorem celIndRead_profile (hA : Accepted i CEL_IND_CMD.addr (celGo v 1) s) (hg : s.bit CEL_IND_CMD_GO = false)
    (ht : inField v CEL_IND_CMD_TABLE = 0) (hn : inField v CEL_IND_CMD_INDEX ≤ 255) : Gives (.celIndRead i v) s fun t =>
      t.bit CEL_IND_CMD_GO = false ∧ celData t 0 = BitVec.ofNat 64 (profileWords (s.profile (inField v CEL_IND_CMD_INDEX))).1 ∧
      celData t 1 = BitVec.ofNat 64 (profileWords (s.profile (inField v CEL_IND_CMD_INDEX))).2 := by
  have hacc := celAccess_readProfile (celStored_table.trans ht) celStored_index hn (celStored_read (i := i) (v := v) (s := s) (m := 1) (by decide))
  rw [celStored_profile] at hacc
  exact ⟨_, congrArg Host.Outcome.next (celInd_accepted hA hg hacc), bit_put_same _ _ (by decide) rfl, showCel_shows⟩

/-- CEL_IND_READ of a queue entry. -/
theorem celIndRead_queue (hA : Accepted i CEL_IND_CMD.addr (celGo v 1) s) (hg : s.bit CEL_IND_CMD_GO = false)
    (ht : inField v CEL_IND_CMD_TABLE = 1) : Gives (.celIndRead i v) s fun t =>
      t.bit CEL_IND_CMD_GO = false ∧ celData t 0 = BitVec.ofNat 64 (queueWords (s.lq (inField v CEL_IND_CMD_INDEX))).1 ∧
      celData t 1 = BitVec.ofNat 64 (queueWords (s.lq (inField v CEL_IND_CMD_INDEX))).2 := by
  have hacc := celAccess_readQueue (celStored_table.trans ht) celStored_index (celStored_read (i := i) (v := v) (s := s) (m := 1) (by decide))
  rw [celStored_lq] at hacc
  exact ⟨_, congrArg Host.Outcome.next (celInd_accepted hA hg hacc), bit_put_same _ _ (by decide) rfl, showCel_shows⟩

/-- CEL_IND_WRITE of a profile in its ranges. -/
theorem celIndWrite_profile (hA : Accepted i CEL_IND_CMD.addr (celGo v 0) s) (hg : s.bit CEL_IND_CMD_GO = false)
    (ht : inField v CEL_IND_CMD_TABLE = 0) (hn : inField v CEL_IND_CMD_INDEX ≤ 255) (hp : profileOk (celProfile s)) :
    Gives (.celIndWrite i v) s fun t => t.bit CEL_IND_CMD_GO = false ∧ t.profile (inField v CEL_IND_CMD_INDEX) = celProfile s := by
  have hacc := celAccess_writeProfile (celStored_table.trans ht) celStored_index hn (celStored_read (i := i) (v := v) (s := s) (m := 0) (by decide))
    (by rwa [celStored_celProfile])
  rw [celStored_celProfile] at hacc
  exact ⟨_, congrArg Host.Outcome.next (celInd_accepted hA hg hacc), bit_put_same _ _ (by decide) rfl,
    (profile_congr (congrArg CelSt.profiles (put_cel _ _ _)) _).trans (profile_setProfile _ _ _)⟩

/-- CEL_IND_WRITE of a queue entry that repeats its live state. -/
theorem celIndWrite_queue (hA : Accepted i CEL_IND_CMD.addr (celGo v 0) s) (hg : s.bit CEL_IND_CMD_GO = false)
    (ht : inField v CEL_IND_CMD_TABLE = 1) (hn : inField v CEL_IND_CMD_INDEX = n) (hs : fieldOf (celData s 0) 47 1 = b2n (s.lq n).s)
    (hq : fieldOf (celData s 0) 24 20 = (s.lq n).q) (hc : fieldOf (celData s 1) 0 31 = (s.lq n).c) :
    Gives (.celIndWrite i v) s fun t => t.bit CEL_IND_CMD_GO = false ∧
      t.lq n = { s.lq n with spillEn := fieldOf (celData s 0) 63 1 == 1, prof := fieldOf (celData s 0) 48 8 } := by
  have hacc := celAccess_writeQueue (celStored_table.trans ht) (celStored_index.trans hn)
    (celStored_read (i := i) (v := v) (s := s) (m := 0) (by decide))
    (by rwa [celStored_data (by decide), celStored_lq]) (by rwa [celStored_data (by decide), celStored_lq])
    (by rwa [celStored_data (by decide), celStored_lq])
  rw [celStored_data (by decide), celStored_lq] at hacc
  exact ⟨_, congrArg Host.Outcome.next (celInd_accepted hA hg hacc), bit_put_same _ _ (by decide) rfl,
    (lq_congr (congrArg CelSt.queues (put_cel _ _ _)) _).trans (lq_setLq _ _ _)⟩
end

/-! ### What a discard of the queues leaves alone (R220, R224) -/

/-- The registers in which CEL shows its free places and pages and counts the cells it has discarded. -/
def shownRegs : List Nat := [CEL_FREE_DS.addr, CEL_FREE_US.addr, CEL_STATUS.addr, CEL_CNT2.addr]

section
variable {s : State} {a dir key p n no : Nat} {l : List Loc}

theorem showFree_reg (h : a ∉ shownRegs) : (showFree dir s).reg a = s.reg a := by
  refine reg_setReg_ne _ _ fun e => h ?_
  rw [e]
  unfold freeReg
  split <;> decide

theorem showPages_reg (h : a ∉ shownRegs) : (showPages s).reg a = s.reg a :=
  reg_wr_ne _ _ fun e => h (by rw [e]; decide)

theorem givePool_reg (h : a ∉ shownRegs) : (givePool dir p n s).reg a = s.reg a := (showFree_reg h).trans (reg_setPoolUsed _ _ _ _)

theorem givePage_reg (h : a ∉ shownRegs) : (givePage no s).reg a = s.reg a := by
  unfold givePage
  rw [showPages_reg h]
  split <;> rfl

theorem freeCells_reg (h : a ∉ shownRegs) : (freeCells key l s).reg a = s.reg a := by
  unfold freeCells
  rw [givePool_reg h, givePool_reg h, givePool_reg h]
  rfl

theorem flushLeaf_reg {keep : QPkt → Bool} (h : a ∉ shownRegs) : (flushLeaf keep key s).1.reg a = s.reg a := by
  unfold flushLeaf
  dsimp only
  rw [foldl_keeps (fun x : State => x.reg a) (fun _ _ => givePage_reg h), reg_mk, freeCells_reg h, reg_setLq]

theorem flushKey_reg (h : a ∉ shownRegs) : (flushKey key s).1.reg a = s.reg a := by
  have hmark : Kept false [.spc] ([] : List Nat) s (markFlushed key s) := kept_markFlushed Kept.rfl_frame (by decide)
  have htouch : ∀ u, Kept false [.sch, .ube] ([] : List Nat) u (leafTouch key (doomPieces key u)) := fun u =>
    kept_leafTouch (kept_doomPieces Kept.rfl_frame (by decide)) (by decide)
  exact (reg_frame (htouch _).frame (by decide) a).trans ((flushLeaf_reg h).trans (reg_frame hmark.frame (by decide) a))

theorem discardQueues_reg (h : a ∉ shownRegs) : (discardQueues s).reg a = s.reg a := by
  unfold discardQueues
  dsimp only
  refine (reg_wr_ne _ _ fun e => h (by rw [e]; decide)).trans ?_
  exact foldl_keeps (fun x : State × Nat => x.1.reg a) (fun _ _ => flushKey_reg h) _ _
end

/-! ### Pool sizes and floors (R224) -/

/-- The sizes of the seven pools. -/
def poolFields : List RF :=
  [CEL_POOL_RA_RA, CEL_POOL_DS_RES, CEL_POOL_DS_SHR, CEL_POOL_DS_STG, CEL_POOL_US_RES, CEL_POOL_US_SHR, CEL_POOL_US_STG]

theorem poolTotal_congr {s t : State} (h : ∀ q ∈ poolFields, t.rd q = s.rd q) : poolTotal t = poolTotal s := by
  have e : ∀ u : State, poolTotal u = u.rd CEL_POOL_RA_RA +
      [u.rd CEL_POOL_DS_RES + u.rd CEL_POOL_DS_SHR + u.rd CEL_POOL_DS_STG, u.rd CEL_POOL_US_RES + u.rd CEL_POOL_US_SHR + u.rd CEL_POOL_US_STG].sum :=
    fun _ => rfl
  simp only [poolFields, List.forall_mem_cons] at h
  obtain ⟨h1, h2, h3, h4, h5, h6, h7, -⟩ := h
  rw [e, e, h1, h2, h3, h4, h5, h6, h7]

/-- The row of CEL_POOL_RA. -/
def rowPoolRa : RegRow := ⟨0x14, 0x14000000, 1, 0x20, 1, 8, 0x4000, [⟨0, 20, .sx, 0, 1048575⟩]⟩

/-- The row of CEL_POOL_DS. -/
def rowPoolDs : RegRow :=
  ⟨0x14, 0x14000000, 1, 0x28, 1, 8, 0x10000400000E000, [⟨40, 20, .sx, 0, 1048575⟩, ⟨20, 20, .sx, 0, 1048575⟩, ⟨0, 20, .sx, 0, 1048575⟩]⟩

/-- The row of CEL_POOL_US. -/
def rowPoolUs : RegRow :=
  ⟨0x14, 0x14000000, 1, 0x30, 1, 8, 0x10000400000E000, [⟨40, 20, .sx, 0, 1048575⟩, ⟨20, 20, .sx, 0, 1048575⟩, ⟨0, 20, .sx, 0, 1048575⟩]⟩

/-- The row of CEL_FLOOR. -/
def rowFloor : RegRow :=
  ⟨0x14, 0x14000000, 1, 0x38, 1, 8, 0x2, [⟨24, 8, .sx, 0, 32⟩, ⟨16, 8, .sx, 0, 32⟩, ⟨8, 8, .sx, 0, 32⟩, ⟨0, 8, .sx, 0, 32⟩]⟩

theorem regRow_poolRa : regRow? CEL_POOL_RA.addr = some rowPoolRa := by decide +kernel

theorem regRow_poolDs : regRow? CEL_POOL_DS.addr = some rowPoolDs := by decide +kernel

theorem regRow_poolUs : regRow? CEL_POOL_US.addr = some rowPoolUs := by decide +kernel

theorem regRow_floor : regRow? CEL_FLOOR.addr = some rowFloor := by decide +kernel

section
variable {i : Initiator} {v : Word} {a : Nat} {r : RegRow} {s : State}

/-- The state in which the SX fields of a register are stored, the hart that writes it acting. -/
def sxStored (i : Initiator) (a : Nat) (r : RegRow) (v : Word) (s : State) : State :=
  (hartActs i s).setReg a (storeKind .sx r v (s.reg a))

/-- With CEL stopped a write of SX fields is stored, and acts in CEL. -/
theorem regAccess_celSx (hA : Accepted i a v s) (hr : regRow? a = some r) (hb : blkOf a = blkCEL) (ha : AllOf .sx r) (hf : r.fields ≠ [])
    (hs : s.runs r.blk = false) : regAccess i a v s = celWrite a v (hartActs i s) (sxStored i a r v s) := by
  rw [regAccess_cel hA hr hb, regStore_allSx ha hf, hartActs_runs, hs, if_neg Bool.false_ne_true, hartActs_reg]
  rfl

theorem sxStored_taken (hr : regRow? a = some r) (ha : AllOf .sx r) : TakenAs r v ((sxStored i a r v s).reg a) := by
  unfold sxStored
  rw [reg_setReg_same]
  exact storeKind_taken hr ha (by decide) v _

/-- An SX field without a narrower range reads as the word gives it. -/
theorem sxStored_rd (hr : regRow? a = some r) (ha : AllOf .sx r) {q : RF} (hq : q.addr = a)
    (hf : ⟨q.lo, q.w, .sx, 0, ((2 ^ q.w - 1 : Nat) : Int)⟩ ∈ r.fields) : (sxStored i a r v s).rd q = inField v q := by
  subst hq
  refine (sxStored_taken hr ha _ hf).trans ?_
  rw [clamped_full rfl rfl]
  exact Nat.mod_eq_of_lt (fieldOf_lt _ _ _)

/-- The pools total what they would with the whole word stored: a pool register holds nothing but sizes. -/
theorem sxStored_poolTotal (hr : regRow? a = some r) (ha : AllOf .sx r)
    (hf : ∀ q ∈ poolFields, q.addr = a → ⟨q.lo, q.w, .sx, 0, ((2 ^ q.w - 1 : Nat) : Int)⟩ ∈ r.fields) :
    poolTotal (sxStored i a r v s) = poolTotal (s.setReg a v) := by
  refine poolTotal_congr fun q hq => ?_
  by_cases hqa : q.addr = a
  · rw [sxStored_rd hr ha hqa (hf q hq hqa), ← hqa, rd_setReg_same]
    rfl
  · rw [rd_setReg_ne _ _ hqa]
    exact (rd_setReg_ne _ _ hqa).trans (hartActs_rd i s q)

/-- A write of pool sizes whose pools total no more than the places there are is stored. -/
theorem poolWrite_stores (ha : a = CEL_POOL_RA.addr ∨ a = CEL_POOL_DS.addr ∨ a = CEL_POOL_US.addr) {o : State} (ht : poolTotal s ≤ 786432) :
    (celWrite a v o s).reg a = s.reg a := by
  have hn : a ∉ shownRegs ∧ a ≠ CEL_IND_CMD.addr := by
    rcases ha with rfl | rfl | rfl <;> decide
  obtain ⟨hn, hc⟩ := hn
  unfold celWrite
  rw [if_neg (fun h => hc h.1), if_pos ha, if_neg (Nat.not_lt.2 ht)]
  split
  · rw [showFree_reg hn, showFree_reg hn]
  · rw [showFree_reg hn, showFree_reg hn, discardQueues_reg hn]

/-- An accepted write of pool sizes in bounds, with CEL stopped. -/
theorem poolAccess_stores (hA : Accepted i a v s) (ha : a = CEL_POOL_RA.addr ∨ a = CEL_POOL_DS.addr ∨ a = CEL_POOL_US.addr)
    (hr : regRow? a = some r) (hb : r.blk = blkCEL) (hx : AllOf .sx r) (hne : r.fields ≠ [])
    (hf : ∀ q ∈ poolFields, q.addr = a → ⟨q.lo, q.w, .sx, 0, ((2 ^ q.w - 1 : Nat) : Int)⟩ ∈ r.fields)
    (hs : s.runs blkCEL = false) (ht : poolTotal (s.setReg a v) ≤ 786432) :
    ∀ q ∈ poolFields, q.addr = a → (regAccess i a v s).rd q = inField v q := by
  have hblk : blkOf a = blkCEL := by rcases ha with rfl | rfl | rfl <;> decide
  intro q hq hqa
  rw [regAccess_celSx hA hr hblk hx hne (hb ▸ hs), ← sxStored_rd (i := i) (s := s) hr hx hqa (hf q hq hqa)]
  refine rd_congr ?_
  rw [hqa]
  exact poolWrite_stores ha ((sxStored_poolTotal hr hx hf).trans_le ht)

/-- The field of a stack's floor. -/
def floorField (n : Nat) : RF := ⟨CEL_FLOOR.addr, 8 * n, 8⟩

/-- Each floor is taken as 32 GiB at most. -/
theorem floors_capped {l : List Nat} (hl : ∀ n ∈ l, n < 4) {j : Nat} (hj : j < 4) :
    (l.foldl (fun s n => s.wr (floorField n) (min 32 (s.rd (floorField n)))) s).rd (floorField j) =
      if j ∈ l then min 32 (s.rd (floorField j)) else s.rd (floorField j) := by
  induction l generalizing s with
  | nil => rfl
  | cons n l ih =>
    obtain ⟨hn, hl⟩ := List.forall_mem_cons.1 hl
    have hw : ∀ m < 4, (floorField m).lo + (floorField m).w ≤ 64 := fun m hm => show 8 * m + 8 ≤ 64 by omega
    rw [List.foldl_cons, ih hl]
    by_cases hjn : j = n
    · subst hjn
      have e : (s.wr (floorField j) (min 32 (s.rd (floorField j)))).rd (floorField j) = min 32 (s.rd (floorField j)) :=
        (rd_wr_same s _ (hw j hj)).trans (Nat.mod_eq_of_lt (show _ < 256 by omega))
      rw [e, if_pos List.mem_cons_self]
      split <;> omega
    · have e : (s.wr (floorField n) (min 32 (s.rd (floorField n)))).rd (floorField j) = s.rd (floorField j) :=
        rd_wr_other s _ (hw n hn) (hw j hj) (Or.inr (show 8 * n + 8 ≤ 8 * j ∨ 8 * j + 8 ≤ 8 * n by omega))
      rw [e]
      simp [hjn]

/-- An accepted write of the floors, with CEL stopped. -/
theorem floorAccess_stores (hA : Accepted i CEL_FLOOR.addr v s) (hs : s.runs blkCEL = false) {j : Nat} (hj : j < 4) :
    floorGib (regAccess i CEL_FLOOR.addr v s) j = min 32 (fieldOf v (8 * j) 8) := by
  have hx : AllOf .sx rowFloor := by unfold AllOf; decide
  have hn : CEL_FLOOR.addr ∉ shownRegs := by decide
  have hfield : ⟨8 * j, 8, .sx, 0, 32⟩ ∈ rowFloor.fields := by
    have : ∀ j < 4, (⟨8 * j, 8, .sx, 0, 32⟩ : FieldRow) ∈ rowFloor.fields := by decide
    exact this j hj
  have hstored : min 32 ((sxStored i CEL_FLOOR.addr rowFloor v s).rd (floorField j)) = min 32 (fieldOf v (8 * j) 8) := by
    have h : (sxStored i CEL_FLOOR.addr rowFloor v s).rd (floorField j) = clamp 0 32 (fieldOf v (8 * j) 8) % 256 :=
      sxStored_taken regRow_floor hx _ hfield
    rw [h]
    unfold clamp
    split
    · omega
    · split <;> omega
  rw [regAccess_celSx hA regRow_floor (by decide) hx (by decide) hs, ← hstored]
  refine Eq.trans ?_ ((floors_capped (l := List.range 4) (fun n hn => List.mem_range.1 hn) hj).trans (if_pos (List.mem_range.2 hj)))
  unfold celWrite
  rw [if_neg (fun h => absurd h.1 (by decide)), if_neg (by decide), if_pos rfl]
  dsimp only
  split
  · rfl
  · refine congrArg (fieldOf · (8 * j) 8) ?_
    rw [showPages_reg hn, discardQueues_reg hn]
    rfl

theorem poolRa_stores (hA : Accepted i CEL_POOL_RA.addr v s) (hs : s.runs blkCEL = false) (ht : poolTotal (s.setReg CEL_POOL_RA.addr v) ≤ 786432) :
    (regAccess i CEL_POOL_RA.addr v s).rd CEL_POOL_RA_RA = inField v CEL_POOL_RA_RA :=
  poolAccess_stores hA (Or.inl rfl) regRow_poolRa rfl (by unfold AllOf; decide) (by decide) (by decide) hs ht CEL_POOL_RA_RA (by decide) rfl

/-- The three sizes of a direction. -/
theorem poolDir_stores (hA : Accepted i a v s) (ha : a = CEL_POOL_DS.addr ∨ a = CEL_POOL_US.addr) (hs : s.runs blkCEL = false)
    (ht : poolTotal (s.setReg a v) ≤ 786432) {lo : Nat} (hlo : lo ∈ [0, 20, 40]) :
    fieldOf ((regAccess i a v s).reg a) lo 20 = fieldOf v lo 20 := by
  have hq : ∀ a ∈ [CEL_POOL_DS.addr, CEL_POOL_US.addr], ∀ lo ∈ [0, 20, 40], (⟨a, lo, 20⟩ : RF) ∈ poolFields := by decide
  rcases ha with rfl | rfl
  · exact poolAccess_stores hA (Or.inr (Or.inl rfl)) regRow_poolDs rfl (by unfold AllOf; decide) (by decide) (by decide) hs ht
      ⟨_, lo, 20⟩ (hq _ (by decide) lo hlo) rfl
  · exact poolAccess_stores hA (Or.inr (Or.inr rfl)) regRow_poolUs rfl (by unfold AllOf; decide) (by decide) (by decide) hs ht
      ⟨_, lo, 20⟩ (hq _ (by decide) lo hlo) rfl

/-- POOL_WRITE with CEL stopped, of pool sizes in bounds or of floors. -/
theorem poolWrite_completes {n : Fin 4} (hA : Accepted i (poolAddr n) v s) (hs : s.runs blkCEL = false)
    (ht : n ≠ 3 → poolTotal (s.setReg (poolAddr n) v) ≤ 786432) : Gives (.poolWrite i n v) s fun t =>
      (n = 0 → t.rd CEL_POOL_RA_RA = inField v CEL_POOL_RA_RA) ∧
      (n = 1 ∨ n = 2 → ∀ lo ∈ [0, 20, 40], fieldOf (t.reg (poolAddr n)) lo 20 = fieldOf v lo 20) ∧
      (n = 3 → ∀ j < 4, floorGib t j = min 32 (fieldOf v (8 * j) 8)) := by
  refine ⟨_, rfl, ?_, ?_, ?_⟩
  · rintro rfl
    exact poolRa_stores hA hs (ht (by decide))
  · rintro (rfl | rfl) lo hlo
    · exact poolDir_stores hA (Or.inl rfl) hs (ht (by decide)) hlo
    · exact poolDir_stores hA (Or.inr rfl) hs (ht (by decide)) hlo
  · rintro rfl j hj
    exact floorAccess_stores hA hs hj
end

/-! ### CellarPagesComplete -/

/-- Settles O33: pages by the queue and the waiting accesses that each operation leaves, tables by what `celAccess` answers, pool sizes by what is
stored before the queues are discarded. -/
theorem cellarPagesComplete : Obligations.CellarPagesComplete := by
  unfold Obligations.CellarPagesComplete
  refine ⟨fun key s hup hr hs hc hn hp => ?_,
    fun key page s hup ht ho h => ⟨_, congrArg Host.Outcome.next (if_pos hup), spillWriteDone_completes ht ho h⟩,
    fun key pg s hup hr hd hf hw => ⟨_, congrArg Host.Outcome.next (if_pos (by rw [hup, hr]; rfl)), returnRead_waits hd hf hw⟩,
    fun key page s hup ht ho h hf => ⟨_, congrArg Host.Outcome.next (if_pos hup), returnDone_completes ht ho h hf⟩,
    fun i v s hA hg ht hn => celIndRead_profile hA hg ht hn, fun i v s hA hg ht => celIndRead_queue hA hg ht,
    fun i v s hA hg ht hn hp => celIndWrite_profile hA hg ht hn hp, fun i v s hA hg ht hs hq hc => celIndWrite_queue hA hg ht rfl hs hq hc,
    fun i n v s hA hs ht => poolWrite_completes hA hs ht⟩
  obtain ⟨no, h⟩ := spillWrite_waits hs hc hn hp
  exact ⟨_, no, congrArg Host.Outcome.next (if_pos (by rw [hup, hr]; rfl)), h⟩

/-! ### Training and retraining (R217, R219, Table 9.5) -/

section
variable {s : State} {n m : Nat} {v : Word} {x : BitVec 16} {d : BitVec 8} {l : List Nat}

/-- STAMPED with a condition outside its window becomes DRIFTED. -/
theorem stackCheck_drifts {t duty : Int} (hst : s.rd (CEL_TRAIN_STATE n) = 1)
    (ho : stackOut s (signed 16 (s.rd (CEL_TRAIN_T n))) (s.rd (CEL_TRAIN_DUTY n) : Nat) t duty = true) :
    (stackCheck n t duty s).rd (CEL_TRAIN_STATE n) = 2 := by
  unfold stackCheck
  rw [if_pos hst, ho, Bool.true_or, if_pos rfl]
  exact rd_wr_same _ _ le_of_eval

/-- What RETRAIN makes of the state of a stack: STAMPED becomes DRIFTED where its bit is written 1. -/
def requested (v : Word) (n st : Nat) : Nat := if v.getLsbD n && st == 1 then 2 else st

theorem requested_twice (st : Nat) : requested v n (requested v n st) = requested v n st := by
  unfold requested
  cases h : v.getLsbD n && st == 1 with
  | true => exact if_neg (by simp)
  | false => exact if_neg (by rw [if_neg Bool.false_ne_true, h]; exact Bool.false_ne_true)

/-- RETRAIN at one stack. -/
def requestStep (v : Word) (s : State) (n : Nat) : State :=
  if v.toNat.testBit n && s.rd (CEL_TRAIN_STATE n) == 1 then s.wr (CEL_TRAIN_STATE n) 2 else s

theorem requestStep_same : (requestStep v s n).rd (CEL_TRAIN_STATE n) = requested v n (s.rd (CEL_TRAIN_STATE n)) := by
  unfold requestStep requested
  rw [BitVec.testBit_toNat]
  split
  · exact rd_wr_same _ _ le_of_eval
  · rfl

theorem requestStep_other (hn : n < 4) (hm : m < 4) (h : n ≠ m) : (requestStep v s m).rd (CEL_TRAIN_STATE n) = s.rd (CEL_TRAIN_STATE n) := by
  unfold requestStep
  split
  · exact rd_wr_ne _ _ (show 0x14000080 + n % 4096 * 8 ≠ 0x14000080 + m % 4096 * 8 by omega)
  · rfl

theorem requests_rd (hl : ∀ m ∈ l, m < 4) (hn : n < 4) : (l.foldl (requestStep v) s).rd (CEL_TRAIN_STATE n) =
    if n ∈ l then requested v n (s.rd (CEL_TRAIN_STATE n)) else s.rd (CEL_TRAIN_STATE n) := by
  induction l generalizing s with
  | nil => rfl
  | cons m l ih =>
    obtain ⟨hm, hl⟩ := List.forall_mem_cons.1 hl
    rw [List.foldl_cons, ih hl]
    by_cases h : n = m
    · subst h
      rw [requestStep_same, requested_twice, ite_self, if_pos List.mem_cons_self]
    · rw [requestStep_other hn hm h]
      simp [h]

/-- The row of CEL_TRAIN_CTL. -/
def rowTrainCtl : RegRow := ⟨0x14, 0x14000000, 1, 0x78, 1, 8, 0x0, [⟨4, 4, .w1c, 0, 15⟩, ⟨0, 4, .w1s, 0, 15⟩]⟩

theorem regRow_trainCtl : regRow? CEL_TRAIN_CTL.addr = some rowTrainCtl := by decide +kernel

/-- HBM_RETRAIN_REQUEST, accepted. -/
theorem retrainRequest_drifts {i : Initiator} (hA : Accepted i CEL_TRAIN_CTL.addr v s) (hn : n < 4) :
    (regAccess i CEL_TRAIN_CTL.addr v s).rd (CEL_TRAIN_STATE n) = requested v n (s.rd (CEL_TRAIN_STATE n)) := by
  have hstore : regStore CEL_TRAIN_CTL.addr rowTrainCtl v (hartActs i s) = storedBy i CEL_TRAIN_CTL.addr rowTrainCtl v s := by
    rw [regStore_rw (by decide) (by decide) (by decide) (by decide), hartActs_reg]
    rfl
  have hkept : (storedBy i CEL_TRAIN_CTL.addr rowTrainCtl v s).rd (CEL_TRAIN_STATE n) = s.rd (CEL_TRAIN_STATE n) :=
    storedBy_rd_ne (show 0x14000080 + n % 4096 * 8 ≠ 0x14000078 by omega)
  rw [regAccess_cel hA regRow_trainCtl (by decide), hstore, ← hkept]
  unfold celWrite
  rw [if_neg (fun h => absurd h.1 (by decide)), if_neg (by decide), if_neg (by decide), if_pos rfl]
  exact (requests_rd (l := List.range 4) (fun m hm => List.mem_range.1 hm) hn).trans (if_pos (List.mem_range.2 hn))

/-- HBM_RETRAIN_START takes the lowest stack that has drifted. -/
theorem retrainStart_lowest {t duty : Int} (hn : n < 4) (h3 : ∀ j < 4, s.rd (CEL_TRAIN_STATE j) ≠ 3) (h2 : s.rd (CEL_TRAIN_STATE n) = 2)
    (hl : ∀ j < n, s.rd (CEL_TRAIN_STATE j) ≠ 2) : retrainStart t duty s =
      (s.wr (CEL_TRAIN_STATE n) 3).setStack n { s.stack n with startT := t, startD := duty.toNat, steps := 0, restarts := 0 } := by
  have hnone : (List.range 4).any (fun n => s.rd (CEL_TRAIN_STATE n) == 3) = false := by
    simpa using h3
  have hfind : (List.range 4).find? (fun n => s.rd (CEL_TRAIN_STATE n) == 2) = some n :=
    List.find?_range_eq_some.2 ⟨by simpa using h2, List.mem_range.2 hn, fun j hj => by simpa using hl j hj⟩
  unfold retrainStart
  dsimp only
  rw [hnone, if_neg Bool.false_ne_true, hfind]

theorem retrainStart_records (hn : n < 4) (h3 : ∀ j < 4, s.rd (CEL_TRAIN_STATE j) ≠ 3) (h2 : s.rd (CEL_TRAIN_STATE n) = 2)
    (hl : ∀ j < n, s.rd (CEL_TRAIN_STATE j) ≠ 2) :
    (retrainStart x.toInt d.toNat s).rd (CEL_TRAIN_STATE n) = 3 ∧ ((retrainStart x.toInt d.toNat s).stack n).startT = x.toInt ∧
      ((retrainStart x.toInt d.toNat s).stack n).startD = d.toNat ∧ ((retrainStart x.toInt d.toNat s).stack n).steps = 0 := by
  rw [retrainStart_lowest hn h3 h2 hl, rd_setStack, stack_setStack]
  exact ⟨rd_wr_same _ _ le_of_eval, rfl, rfl, rfl⟩

theorem retrainStep_counts (hst : s.rd (CEL_TRAIN_STATE n) = 3) (hs : (s.stack n).steps < 512) :
    ((retrainStep n s).stack n).steps = (s.stack n).steps + 1 := by
  unfold retrainStep
  dsimp only
  rw [if_pos ⟨hst, hs⟩, stack_setStack]

/-- A stack that is stamped shows its conditions, and its count of retrains as before. -/
theorem stackStamp_shows : (stackStamp n x.toInt d.toNat s).rd (CEL_TRAIN_STATE n) = 1 ∧
    (stackStamp n x.toInt d.toNat s).rd (CEL_TRAIN_T n) = x.toNat ∧ (stackStamp n x.toInt d.toNat s).rd (CEL_TRAIN_DUTY n) = d.toNat ∧
    (stackStamp n x.toInt d.toNat s).rd (CEL_TRAIN_RETRAINS n) = s.rd (CEL_TRAIN_RETRAINS n) := by
  have hT : ∀ u : State, (u.wr (CEL_TRAIN_T n) (unsigned 16 x.toInt)).rd (CEL_TRAIN_T n) = x.toNat := fun u => by
    rw [unsigned_toInt]
    exact (rd_wr_same u _ le_of_eval).trans (Nat.mod_eq_of_lt x.isLt)
  have hD : ∀ u : State, (u.wr (CEL_TRAIN_DUTY n) (unsigned 8 (d.toNat : Nat))).rd (CEL_TRAIN_DUTY n) = d.toNat := fun u => by
    rw [unsigned_natCast]
    exact (rd_wr_same u _ le_of_eval).trans (Nat.mod_eq_of_lt d.isLt)
  unfold stackStamp
  simp only [rd_setStack]
  refine ⟨rd_wr_same _ _ le_of_eval, ?_, ?_, ?_⟩
  · rw [rd_wr_disj (r := CEL_TRAIN_STATE n) (q := CEL_TRAIN_T n) _ _ rfl le_of_eval le_of_eval (Or.inr le_of_eval),
      rd_wr_disj (r := CEL_TRAIN_DUTY n) (q := CEL_TRAIN_T n) _ _ rfl le_of_eval le_of_eval (Or.inl le_of_eval), hT]
  · rw [rd_wr_disj (r := CEL_TRAIN_STATE n) (q := CEL_TRAIN_DUTY n) _ _ rfl le_of_eval le_of_eval (Or.inr le_of_eval), hD]
  · rw [rd_wr_disj (r := CEL_TRAIN_STATE n) (q := CEL_TRAIN_RETRAINS n) _ _ rfl le_of_eval le_of_eval (Or.inr le_of_eval),
      rd_wr_disj (r := CEL_TRAIN_DUTY n) (q := CEL_TRAIN_RETRAINS n) _ _ rfl le_of_eval le_of_eval (Or.inl le_of_eval),
      rd_wr_disj (r := CEL_TRAIN_T n) (q := CEL_TRAIN_RETRAINS n) _ _ rfl le_of_eval le_of_eval (Or.inr le_of_eval)]

/-- HBM_RETRAIN_DONE after the last step. -/
theorem retrainDone_stamps (hst : s.rd (CEL_TRAIN_STATE n) = 3) (hs : (s.stack n).steps = 512) :
    (retrainDone n x.toInt d.toNat s).rd (CEL_TRAIN_STATE n) = 1 ∧ (retrainDone n x.toInt d.toNat s).rd (CEL_TRAIN_T n) = x.toNat ∧
      (retrainDone n x.toInt d.toNat s).rd (CEL_TRAIN_DUTY n) = d.toNat ∧ ((retrainDone n x.toInt d.toNat s).stack n).selfRefresh = false ∧
      (retrainDone n x.toInt d.toNat s).rd (CEL_TRAIN_RETRAINS n) = satAdd (CEL_TRAIN_RETRAINS n).w (s.rd (CEL_TRAIN_RETRAINS n)) 1 := by
  obtain ⟨hS, hT, hD, hR⟩ := stackStamp_shows (s := s) (n := n) (x := x) (d := d)
  unfold retrainDone
  rw [if_pos ⟨hst, hs⟩]
  unfold retrainEnds
  simp only [rd_setStack, stack_setStack]
  refine ⟨?_, ?_, ?_, trivial, ?_⟩
  · rw [rd_inc_other _ le_of_eval le_of_eval (Or.inr (Or.inl le_of_eval)), hS]
  · rw [rd_inc_other _ le_of_eval le_of_eval (Or.inr (Or.inl le_of_eval)), hT]
  · rw [rd_inc_other _ le_of_eval le_of_eval (Or.inr (Or.inr le_of_eval)), hD]
  · rw [rd_inc_same _ le_of_eval, hR]
    rfl
end

/-! ### Scrubbing (R222) -/

section
variable {s : State} {a w : Nat} {flip : BitVec 72}

/-- A word without an inverted bit is good. -/
theorem checkFlipped_zero (x : Word) : checkFlipped x 0 = .good := by
  have hd : x ^^^ flipData 0 = x := BitVec.xor_zero
  have hc : checkByte x ^^^ flipCheck 0 = checkByte x := BitVec.xor_zero
  unfold checkFlipped checkWord
  rw [hd, hc]
  exact if_pos (BitVec.xor_self)

/-- With no injection armed a word without an inverted bit passes its checker unnoticed. -/
theorem checkOne_zero {src unit idx addr : Nat} {res : Resource} {x : Word} (h : s.bit FLT_INJ_ARM = false) :
    checkOne src unit idx addr res x 0 s = (x, none, s) := by
  have hj : injTake src idx s = (0, s) := if_neg (by unfold injArmed; rw [h]; exact Bool.false_ne_true)
  have hf : (0 : BitVec 72) ^^^ 0 = 0 := BitVec.xor_zero
  unfold checkOne
  dsimp only
  rw [hj, hf, checkFlipped_zero]
  exact congrArg (·, none, s) BitVec.xor_zero

theorem eccOf_setEcc_zero (h : s.eccOf a = 0) (b : Nat) : (s.setEcc b 0).eccOf a = 0 := by
  unfold State.eccOf State.setEcc at *
  rw [SMap.get_set, h, ite_self]

/-- The write-back that waits, or none. -/
def withBack (b : Option (Nat × BitVec 72)) (s : State) : State := { s with cel := { s.cel with scrubBack := b } }

theorem withBack_eccOf (b : Option (Nat × BitVec 72)) : (withBack b s).eccOf a = s.eccOf a := rfl

theorem withBack_bit (b : Option (Nat × BitVec 72)) (q : RF) : (withBack b s).bit q = s.bit q := bit_mk s q

theorem scrubWriteBack_some {f : BitVec 72} (h : s.cel.scrubBack = some (a, f)) :
    scrubWriteBack s = if (withBack none s).eccOf a = f then (withBack none s).setEcc a 0 else withBack none s := by
  unfold scrubWriteBack
  rw [h]
  rfl

/-- A write-back made or dropped waits no longer; it inverts no bit, and changes no register. -/
theorem scrubWriteBack_done : (scrubWriteBack s).cel.scrubBack = none ∧ (s.eccOf a = 0 → (scrubWriteBack s).eccOf a = 0) ∧
    (∀ q, (scrubWriteBack s).bit q = s.bit q) := by
  cases h : s.cel.scrubBack with
  | none =>
    have e : scrubWriteBack s = s := by
      unfold scrubWriteBack
      rw [h]
    rw [e]
    exact ⟨h, id, fun _ => rfl⟩
  | some b =>
    rw [scrubWriteBack_some h]
    split
    · exact ⟨by rw [setEcc_cel]; rfl, fun h => eccOf_setEcc_zero ((withBack_eccOf none).trans h) _, fun q => (bit_setEcc _ _ _ q).trans (withBack_bit none q)⟩
    · exact ⟨rfl, (withBack_eccOf none).trans, withBack_bit none⟩

/-- What the check of a scrubbed word leaves: an error is reported, and waits for its write-back where it could be corrected (log 191). -/
def scrubChecked (w : Nat) (flip : BitVec 72) (s : State) : State :=
  let a := 0x2000000000 + 8 * w
  let f := s.eccOf a ^^^ flip
  let r := checkOne blkCEL (w / stackWords) 0 a (.hbmRow (BitVec.ofNat 48 a)) (s.memWord a) f (s.setEcc a f)
  match r.2.1 with
  | some b => reportBad blkCEL (w / stackWords) .contained 2 a (.hbmRow (BitVec.ofNat 48 a)) b r.2.2
  | none => if f = 0 then r.2.2 else withBack (some (a, f)) r.2.2

/-- A lost page is freed as the scrubber reads it (R221). -/
def freeLost (page : Nat) (s : State) : State :=
  if s.cel.lost.contains page then givePage page { s with cel := { s.cel with lost := s.cel.lost.filter (· != page) } } else s

theorem scrubWordAt_cel : (scrubWordAt w flip s).cel =
    { (freeLost (8 * w / 8192) (scrubChecked w flip s)).cel with scrubWord := (w + 1) % (4 * stackWords) } := rfl

theorem givePage_scrubBack (p : Nat) : (givePage p s).cel.scrubBack = s.cel.scrubBack := by
  unfold givePage
  dsimp only
  split <;> rfl

theorem freeLost_scrubBack (p : Nat) : (freeLost p s).cel.scrubBack = s.cel.scrubBack := by
  unfold freeLost
  split
  · rw [givePage_scrubBack]
  · rfl

/-- A good word is left as it is. -/
theorem scrubChecked_clean (he : s.eccOf (0x2000000000 + 8 * w) = 0) (hi : s.bit FLT_INJ_ARM = false) :
    scrubChecked w 0 s = s.setEcc (0x2000000000 + 8 * w) 0 := by
  have hf : (0 : BitVec 72) ^^^ 0 = 0 := BitVec.xor_zero
  unfold scrubChecked
  dsimp only
  rw [he, hf, checkOne_zero (by rwa [bit_setEcc])]
  exact if_pos rfl

theorem scrubWordAt_clean (hb : s.cel.scrubBack = none) (he : s.eccOf (0x2000000000 + 8 * w) = 0) (hi : s.bit FLT_INJ_ARM = false) :
    (scrubWordAt w 0 s).cel.scrubBack = none := by
  rw [scrubWordAt_cel, scrubChecked_clean he hi]
  exact (freeLost_scrubBack _).trans hb

/-- SCRUB_READ at a word of a present stack where nothing waits. -/
theorem scrubRead_reads (hr : s.runs blkCEL = true) (he : s.bit CEL_SCRUB_EN = true) (hw : s.cel.scrubWord < 4 * stackWords)
    (hok : s.stackOk (s.cel.scrubWord / stackWords) = true) (hb : stackBusy s (s.cel.scrubWord / stackWords) = false) :
    scrubRead flip s = scrubWordAt s.cel.scrubWord flip (scrubWriteBack s) := by
  unfold scrubRead
  dsimp only
  rw [hr, he, if_neg (by decide), List.find?_cons_of_pos (by rw [hok, decide_eq_true hw]; rfl)]
  dsimp only
  rw [hb, if_neg Bool.false_ne_true]

theorem scrubRead_advances (hr : s.runs blkCEL = true) (he : s.bit CEL_SCRUB_EN = true) (hw : s.cel.scrubWord < 4 * stackWords)
    (hok : s.stackOk (s.cel.scrubWord / stackWords) = true) (hb : stackBusy s (s.cel.scrubWord / stackWords) = false) :
    (scrubRead flip s).cel.scrubWord = (s.cel.scrubWord + 1) % (4 * stackWords) ∧
      (flip = 0 → s.eccOf (0x2000000000 + 8 * s.cel.scrubWord) = 0 → s.bit FLT_INJ_ARM = false → (scrubRead flip s).cel.scrubBack = none) := by
  rw [scrubRead_reads hr he hw hok hb]
  refine ⟨by rw [scrubWordAt_cel], ?_⟩
  rintro rfl hecc hi
  obtain ⟨hback, hzero, hbit⟩ := scrubWriteBack_done (s := s) (a := 0x2000000000 + 8 * s.cel.scrubWord)
  exact scrubWordAt_clean hback (hzero hecc) ((hbit _).trans hi)
end

/-! ### Row tests (R223) -/

section
variable {s : State} {r : Nat} {a : BitVec 48} {pass spare : Bool}

@[simp] theorem correctRow_cel : (correctRow r s).cel = s.cel := rfl

@[simp] theorem correctRow_rd (q : RF) : (correctRow r s).rd q = s.rd q := rd_mk s q

@[simp] theorem showFences_cel : (showFences s).cel = s.cel := rfl

theorem showFences_rd_result : (showFences s).rd CEL_REPAIR_RESULT = s.rd CEL_REPAIR_RESULT :=
  rd_wr_disj s _ rfl le_of_eval le_of_eval (Or.inr le_of_eval)

theorem showFences_rd_addr : (showFences s).rd CEL_REPAIR_ADDR = s.rd CEL_REPAIR_ADDR :=
  rd_wr_disj s _ rfl le_of_eval le_of_eval (Or.inr le_of_eval)

theorem showFences_shows (h : s.cel.fences.length < 16) : (showFences s).rd CEL_REPAIR_FENCED = s.cel.fences.length :=
  (rd_wr_same _ _ le_of_eval).trans (Nat.mod_eq_of_lt h)

/-- HBM_ROW_TEST of a row that is neither fenced nor waits for a fence. -/
theorem rowTest_fences {a : Nat} (hc : inCellar a = true) (hf : ∀ f ∈ s.cel.fences, f.1 ≠ rowOf a) (hw : rowOf a ∉ s.cel.fenceWait) :
    (s.cel.fences.length < 8 → (rowTest a s).cel.fences = s.cel.fences ++ [(rowOf a, false)] ∧
      (rowTest a s).rd CEL_REPAIR_FENCED = s.cel.fences.length + 1) ∧
    (8 ≤ s.cel.fences.length → (rowTest a s).cel.fenceWait = s.cel.fenceWait ++ [rowOf a]) := by
  have hnew : ¬ (!inCellar a ∨ s.cel.fences.any (fun f => f.1 == rowOf a) ∨ s.cel.fenceWait.contains (rowOf a)) := by
    simpa [hc, hw] using ⟨fun hm => hf _ hm rfl, fun hm => hf _ hm rfl⟩
  unfold rowTest
  dsimp only
  rw [if_neg hnew]
  refine ⟨fun h => ?_, fun h => ?_⟩
  · rw [if_pos h, correctRow_cel, showFences_cel, correctRow_rd, showFences_shows]
    · simp
    · simp only [List.length_append, List.length_singleton]
      omega
  · rw [if_neg (by omega)]

/-- A test that no reaction has ordered ends with CEL's own part of it. -/
theorem hbmTestDone_unordered {a : Nat} (h : s.flt.testing = false) : hbmTestDone a pass spare s = (rowTestDone a pass spare s).1 := by
  unfold hbmTestDone
  dsimp only
  split
  · rw [h, Bool.false_and, if_neg Bool.false_ne_true]
  · rfl

theorem rowResult_cel (k : Nat) : (rowResult r k s).cel = s.cel := by
  unfold rowResult
  rw [wr_cel, wr_cel]

theorem rowResult_rd_result {k : Nat} (h : k < 4) : (rowResult r k s).rd CEL_REPAIR_RESULT = k :=
  (rd_wr_same _ k le_of_eval).trans (Nat.mod_eq_of_lt h)

theorem rowResult_rd_addr {k : Nat} (h : r < 2 ^ 48) : (rowResult r k s).rd CEL_REPAIR_ADDR = r := by
  unfold rowResult
  rw [rd_wr_disj (r := CEL_REPAIR_RESULT) (q := CEL_REPAIR_ADDR) _ _ rfl le_of_eval le_of_eval (Or.inr le_of_eval), rd_wr_same _ _ le_of_eval]
  exact Nat.mod_eq_of_lt h

theorem rowTestDone_good {a : Nat} (hf : (rowOf a, false) ∈ s.cel.fences) (h : pass = true ∨ spare = true) :
    (rowTestDone a pass spare s).1 = fenceFree (rowOf a) (rowResult (rowOf a) (if pass then 1 else 2) s) := by
  unfold rowTestDone
  dsimp only
  rw [List.contains_iff_mem.2 hf, if_neg (by decide)]
  cases pass with
  | true => rfl
  | false =>
    rw [h.resolve_left Bool.false_ne_true]
    rfl

/-- The fences left when one is released. -/
def withoutFence (r : Nat) (s : State) : State := { s with cel := { s.cel with fences := s.cel.fences.filter (fun f => f.1 != r) } }

theorem withoutFence_rd (q : RF) : (withoutFence r s).rd q = s.rd q := rd_mk s q

/-- A fence for which no test waits is released. -/
theorem fenceFree_releases (h : s.cel.fenceWait = []) : fenceFree r s = showFences (withoutFence r s) := by
  unfold fenceFree
  split
  · rfl
  · next h' => cases h.symm.trans h'

/-- HBM_ROW_TEST_DONE of a row that passed or was repaired. -/
theorem rowTestDone_shows (hf : (rowOf a.toNat, false) ∈ s.cel.fences) (h : pass = true ∨ spare = true) (ht : s.flt.testing = false)
    (hw : s.cel.fenceWait = []) :
    (hbmTestDone a.toNat pass spare s).rd CEL_REPAIR_RESULT = (if pass then 1 else 2) ∧
      (hbmTestDone a.toNat pass spare s).rd CEL_REPAIR_ADDR = rowOf a.toNat ∧
      ∀ f ∈ (hbmTestDone a.toNat pass spare s).cel.fences, f.1 ≠ rowOf a.toNat := by
  have hrow : rowOf a.toNat < 2 ^ 48 := Nat.lt_of_le_of_lt (Nat.div_mul_le_self _ _) a.isLt
  rw [hbmTestDone_unordered ht, rowTestDone_good hf h, fenceFree_releases (by rwa [rowResult_cel])]
  refine ⟨?_, ?_, fun f hm => ?_⟩
  · rw [showFences_rd_result, withoutFence_rd]
    exact rowResult_rd_result (by split <;> decide)
  · rw [showFences_rd_addr, withoutFence_rd, rowResult_rd_addr hrow]
  · simpa using (List.mem_filter.1 hm).2
end

/-! ### StacksComplete -/

/-- Settles O34: a stack's training by Table 9.5's rows, the scrubber by the word it reads, a row test by the fence it takes
and releases. When the write-back of a scrubbed word is made is the model's choice (log 191). -/
theorem stacksComplete : Obligations.StacksComplete := by
  unfold Obligations.StacksComplete
  exact ⟨fun n x d s hup hst ho => ⟨_, congrArg Host.Outcome.next (if_pos hup), stackCheck_drifts hst ho⟩,
    fun i v s hA => ⟨_, rfl, fun n hn => retrainRequest_drifts hA hn⟩,
    fun x d n s hup hn h3 h2 hl => ⟨_, congrArg Host.Outcome.next (if_pos hup), retrainStart_records hn h3 h2 hl⟩,
    fun n s hup hst hs => ⟨_, congrArg Host.Outcome.next (if_pos hup), retrainStep_counts hst hs⟩,
    fun n x d s hup hst hs => ⟨_, congrArg Host.Outcome.next (if_pos hup), retrainDone_stamps hst hs⟩,
    fun flip s hup hr he hw hok hb => ⟨_, congrArg Host.Outcome.next (if_pos hup), scrubRead_advances hr he hw hok hb⟩,
    fun a s hup hc hf hw => ⟨_, congrArg Host.Outcome.next (if_pos hup), rowTest_fences hc hf hw⟩,
    fun a pass spare s hup hf h ht hw => ⟨_, congrArg Host.Outcome.next (if_pos hup), rowTestDone_shows hf h ht hw⟩⟩
end Sys2Proof.Machine
end

section
/-! PROOFS. The scheduling and shaping family (chapter 10): what a write of a register of SCH comes to, the indirect tables (O7); flushes,
histograms and refills; what a selection takes; what the gates of a port show and what a list's change leaves; then O35. -/

namespace Sys2Proof.Machine
open Sys2Proof.Spec

/-! ### Writes of SCH registers -/

theorem regionOf_sch {a : Nat} (h : blkOf a = blkSCH) : regionOf a = .regs := by
  have h' : a / 0x1000000 = 0x15 := h
  exact if_pos (by omega)

theorem bankOf_sch {a : Nat} (h : blkOf a = blkSCH) : bankOf a = some SCH_BANK.addr := by
  unfold bankOf
  rw [h]
  rfl

theorem blockWrite_sch {l a : Nat} {v : Word} {o s : State} (h : blkOf a = blkSCH) : blockWrite l a v o s = schWrite a v o s := by
  unfold blockWrite
  rw [h]
  rfl

/-- An accepted write of a register of SCH whose fields are stored at once acts in SCH. -/
theorem regAccess_sch {i : Initiator} {a : Nat} {v : Word} {s : State} {r : RegRow} (hA : Accepted i a v s) (hr : regRow? a = some r)
    (hk : r.plain = true) (hb : blkOf a = blkSCH) (hn : SCH_BANK.addr ≠ a) :
    regAccess i a v s = schWrite a v (hartActs i s) (storedBy i a r v s) := by
  simp only [RegRow.plain, Bool.and_eq_true, Bool.not_eq_true'] at hk
  obtain ⟨⟨⟨hrw, hsx⟩, hsh⟩, hst⟩ := hk
  have hp : a ≠ TSK_POST.addr := by
    rintro rfl
    exact absurd hb (by decide)
  rw [regAccess_eq hA.1 hA.2 (regionOf_sch hb) hp, regWrite_eq hr (by rw [bankOf_sch hb]; simpa using hn), blockWrite_sch hb,
    regStore_rw hrw hsx hsh hst, hartActs_reg]
  rfl

/-! ### The indirect tables (Table 10.4, R249) -/

/-- The row of SCH_IND_CMD. -/
def rowSchIndCmd : RegRow :=
  ⟨0x15, 0x15000000, 1, 0x30, 1, 8, 0x0,
    [⟨63, 1, .w1s, 0, 1⟩, ⟨62, 1, .w1c, 0, 1⟩, ⟨61, 1, .rw, 0, 1⟩, ⟨60, 1, .rw, 0, 1⟩, ⟨56, 3, .rw, 0, 7⟩, ⟨0, 17, .rw, 0, 131071⟩]⟩

theorem regRow_schIndCmd : regRow? SCH_IND_CMD.addr = some rowSchIndCmd := by decide +kernel

section
variable {i : Initiator} {v : Word} {m n : Nat} {s t : State}

theorem schGo_go : inField (schGo v m) SCH_IND_CMD_GO = 1 := by
  rw [schGo, inField_withField_disj _ _ (by decide) (by decide) (by decide), inField_withField_same _ _ (by decide) (by decide)]

/-- What SCH_IND_CMD asks for beside GO and RD is as the word gives it. -/
theorem schGo_other {q : RF} (h : q.lo + q.w ≤ 61) : inField (schGo v m) q = inField v q := by
  have hd : ∀ lo, 61 ≤ lo → q.lo + q.w ≤ lo := fun _ hl => h.trans hl
  exact (inField_withField_disj (r := SCH_IND_CMD_RD) _ m le_of_eval (hd 64 (by decide)) (Or.inr (hd 61 (by decide)))).trans
    (inField_withField_disj (r := SCH_IND_CMD_GO) v 1 le_of_eval (hd 64 (by decide)) (Or.inr (hd 63 (by decide))))

/-- The state in which an access through SCH_IND_CMD is carried out. -/
def schStored (i : Initiator) (v : Word) (m : Nat) (s : State) : State := storedBy i SCH_IND_CMD.addr rowSchIndCmd (schGo v m) s

theorem schStored_table : (schStored i v m s).rd SCH_IND_CMD_TABLE = inField v SCH_IND_CMD_TABLE :=
  (storedBy_rd_rw SCH_IND_CMD_TABLE rfl regRow_schIndCmd (by decide)).trans (schGo_other (by decide))

theorem schStored_dir : (schStored i v m s).rd SCH_IND_CMD_DIR = inField v SCH_IND_CMD_DIR :=
  (storedBy_rd_rw SCH_IND_CMD_DIR rfl regRow_schIndCmd (by decide)).trans (schGo_other (by decide))

theorem schStored_index : (schStored i v m s).rd SCH_IND_CMD_INDEX = inField v SCH_IND_CMD_INDEX :=
  (storedBy_rd_rw SCH_IND_CMD_INDEX rfl regRow_schIndCmd (by decide)).trans (schGo_other (by decide))

theorem schStored_read (h : m < 2) : (schStored i v m s).bit SCH_IND_CMD_RD = (m != 0) :=
  congrArg (· != 0) ((storedBy_rd_rw SCH_IND_CMD_RD rfl regRow_schIndCmd (by decide)).trans (inField_withField_same _ _ (by decide) h))

theorem schStored_kept : Kept false [.regs, .harts] [blkSCH] s (schStored i v m s) :=
  ⟨nofun, storedBy_kept.frame, fun _ ha => storedBy_reg_ne fun e => ha (e ▸ by decide)⟩

theorem schStored_reg {a : Nat} (h : a ≠ SCH_IND_CMD.addr) : (schStored i v m s).reg a = s.reg a := storedBy_reg_ne h

theorem schStored_sch : (schStored i v m s).sch = s.sch := schStored_kept.frame .sch (by decide)

theorem schDataAddr_ne (n : Nat) : (SCH_IND_DATA n).addr ≠ SCH_IND_CMD.addr := by
  show 0x15000038 + n % 4096 * 8 ≠ 0x15000030
  omega

theorem schStored_data : schData (schStored i v m s) = schData s :=
  funext fun n => congrArg BitVec.toNat (schStored_reg (schDataAddr_ne n))

theorem regAccess_schIndCmd (hA : Accepted i SCH_IND_CMD.addr (schGo v m) s) : regAccess i SCH_IND_CMD.addr (schGo v m) s =
    schWrite SCH_IND_CMD.addr (schGo v m) (hartActs i s) (schStored i v m s) :=
  regAccess_sch hA regRow_schIndCmd (by decide) (by decide) (by decide)

/-- An access that is not refused ends at once with GO 0. -/
theorem schInd_accepted (hA : Accepted i SCH_IND_CMD.addr (schGo v m) s) (hg : s.bit SCH_IND_CMD_GO = false)
    (ht : schAccess (schStored i v m s) = some t) : regAccess i SCH_IND_CMD.addr (schGo v m) s = t.put SCH_IND_CMD_GO false := by
  rw [regAccess_schIndCmd hA]
  unfold schWrite
  rw [if_pos ⟨rfl, schGo_go⟩, hartActs_bit, hg, if_neg Bool.false_ne_true, ht]
  rfl

/-- One that is refused sets ERR. -/
theorem schInd_refused (hA : Accepted i SCH_IND_CMD.addr (schGo v m) s) (hg : s.bit SCH_IND_CMD_GO = false)
    (ht : schAccess (schStored i v m s) = none) : regAccess i SCH_IND_CMD.addr (schGo v m) s =
      ((schStored i v m s).put SCH_IND_CMD_GO false).put SCH_IND_CMD_ERR true := by
  rw [regAccess_schIndCmd hA]
  unfold schWrite
  rw [if_pos ⟨rfl, schGo_go⟩, hartActs_bit, hg, if_neg Bool.false_ne_true, ht]
  rfl

/-! #### What SCH's tables hold depends on its part of the state -/

theorem leafObj_congr (h : t.sch = s.sch) (k : Nat) : t.leafObj k = s.leafObj k :=
  congrArg (fun c : SchSt => SMap.get (fun _ => ({} : SchObj)) c.leaves k) h

theorem svc_congr (h : t.sch = s.sch) (k : Nat) : t.svc k = s.svc k :=
  congrArg (fun c : SchSt => SMap.get (fun _ => ({} : SchObj)) c.svcs k) h

theorem portObj_congr (h : t.sch = s.sch) (k : Nat) : t.portObj k = s.portObj k :=
  congrArg (fun c : SchSt => SMap.get (fun _ => ({} : SchObj)) c.ports k) h

theorem sub_congr (h : t.sch = s.sch) (k : Nat) : t.sub k = s.sub k :=
  congrArg (fun c : SchSt => SMap.get (fun _ => ({} : Subscriber)) c.subs k) h

theorem policer_congr (h : t.sch = s.sch) (k : Nat) : t.policer k = s.policer k :=
  congrArg (fun c : SchSt => SMap.get (fun _ => ({} : Policer)) c.policers k) h

theorem toMac_congr (h : t.sch = s.sch) (k : Nat) : t.toMac k = s.toMac k :=
  congrArg (fun c : SchSt => SMap.get (fun _ => ([] : List (Nat × QPkt))) c.toMac k) h

/-! #### What an access comes to, by table and direction -/

/-- An index lies in its table (Table 10.4). -/
structure SchInRange (tbl dir n : Nat) : Prop where
  table : tbl < 5
  sub : tbl = 1 → n ≤ 8191
  svc : tbl = 2 → n ≤ if dir = 0 then 1023 else 65535
  port : tbl = 3 → n ≤ if dir = 0 then 63 else 4095
  policer : tbl = 4 → n ≤ 65535

/-- An entry shown in the data words. -/
def schShown (tbl dir n : Nat) (s : State) : State :=
  match tbl with
  | 0 => showObj (s.leafObj (leafKey dir n)) true false s
  | 1 => putSchData (2 ^ 63 * b2n (s.sub (dir * 8192 + n)).en + (s.sub (dir * 8192 + n)).port) 0 0 0 s
  | 2 => showObj (s.svc (dir * 131072 + n)) true true s
  | 3 => showObj (s.portObj (dir * 8192 + n)) false false s
  | _ =>
    let p := (s.policer n).refill s.polNow
    putSchData (2 ^ 63 * b2n p.en + 2 ^ 62 * b2n p.mode + p.red) (p.rates.cir * 2 ^ 32 + p.rates.pir)
      (p.rates.cbs * 2 ^ 24 + p.rates.pbs) (p.tokC / 65536 * 2 ^ 32 + p.tokP / 65536) s

/-- A policer as the data words describe it, its buckets full where it is switched on (R238). -/
def polFrom (p : Policer) (now : Nat) (d : Nat → Nat) : Policer :=
  let r : Rates := { cir := d 1 / 2 ^ 32, pir := d 1 % 2 ^ 32, cbs := d 2 / 2 ^ 24 % 2 ^ 24, pbs := d 2 % 2 ^ 24 }
  let full := (d 0).testBit 63 && !p.en
  { en := (d 0).testBit 63, mode := (d 0).testBit 62, red := 0, rates := r, last := now, bad := false,
    tokC := if full then 65536 * r.cbs else min p.tokC (65536 * r.cbs),
    tokP := if full then 65536 * r.pbs else min p.tokP (65536 * r.pbs) }

/-- An entry stored from the data words. -/
def schTaken (tbl dir n : Nat) (s : State) : State :=
  let d := schData s
  match tbl with
  | 0 => s.setLeafObj (leafKey dir n) (objFrom (s.leafObj (leafKey dir n)) true false (d 0) (d 1) (d 2))
  | 1 => s.setSub (dir * 8192 + n) ⟨(d 0).testBit 63, d 0 % 4096⟩
  | 2 => s.setSvc (dir * 131072 + n) (objFrom (s.svc (dir * 131072 + n)) true true (d 0) (d 1) (d 2))
  | 3 => s.setPortObj (dir * 8192 + n) (objFrom (s.portObj (dir * 8192 + n)) false false (d 0) (d 1) (d 2))
  | _ => s.setPolicer n (polFrom ((s.policer n).refill s.polNow) s.polNow d)

/-- A write of a subscriber is refused: its port is out of range, or it is to change while a leaf is not idle (R227). -/
def SubRefused (dir n : Nat) (s : State) : Prop :=
  (dir = 0 ∧ 63 < schData s 0 % 4096) ∨ (schData s 0 % 4096 ≠ (s.sub (dir * 8192 + n)).port ∧ ¬ subIdle s (dir * 8192 + n) = true)

section
variable {tbl dir : Nat} (ht : s.rd SCH_IND_CMD_TABLE = tbl) (hd : s.rd SCH_IND_CMD_DIR = dir) (hi : s.rd SCH_IND_CMD_INDEX = n)
include ht hd hi

theorem schAccess_reads (hr : s.bit SCH_IND_CMD_RD = true) (h : SchInRange tbl dir n) : schAccess s = some (schShown tbl dir n s) := by
  obtain ⟨htbl, hsub, hsvc, hport, hpol⟩ := h
  unfold schAccess
  dsimp only
  rw [ht, hd, hi, hr]
  interval_cases tbl
  · exact if_pos rfl
  · exact (if_neg (Nat.not_lt.2 (hsub rfl))).trans (if_pos rfl)
  · exact (if_neg (Nat.not_lt.2 (hsvc rfl))).trans (if_pos rfl)
  · exact (if_neg (Nat.not_lt.2 (hport rfl))).trans (if_pos rfl)
  · exact (if_neg (Nat.not_lt.2 (hpol rfl))).trans (if_pos rfl)

theorem schAccess_writes (hr : s.bit SCH_IND_CMD_RD = false) (h : SchInRange tbl dir n)
    (ho : tbl = 0 ∨ tbl = 2 → objRefused (schData s 0) (schData s 1) (schData s 2) = false) (hs : tbl = 1 → ¬ SubRefused dir n s) :
    schAccess s = some (schTaken tbl dir n s) := by
  obtain ⟨htbl, hsub, hsvc, hport, hpol⟩ := h
  have hw : ¬ false = true := Bool.false_ne_true
  unfold schAccess
  dsimp only
  rw [ht, hd, hi, hr]
  interval_cases tbl
  · exact (if_neg hw).trans (if_neg (by rw [ho (Or.inl rfl)]; exact hw))
  · refine (if_neg (Nat.not_lt.2 (hsub rfl))).trans ((if_neg hw).trans (if_neg ?_))
    simpa [SubRefused] using hs rfl
  · exact (if_neg (Nat.not_lt.2 (hsvc rfl))).trans ((if_neg hw).trans (if_neg (by rw [ho (Or.inr rfl)]; exact hw)))
  · exact (if_neg (Nat.not_lt.2 (hport rfl))).trans (if_neg hw)
  · exact (if_neg (Nat.not_lt.2 (hpol rfl))).trans (if_neg hw)

/-- A write that R227 refuses. -/
theorem schAccess_refusesSub (hr : s.bit SCH_IND_CMD_RD = false) (h1 : tbl = 1) (hn : n ≤ 8191) (hs : SubRefused dir n s) :
    schAccess s = none := by
  subst h1
  unfold schAccess
  dsimp only
  rw [ht, hd, hi, hr]
  refine (if_neg (Nat.not_lt.2 hn)).trans ((if_neg Bool.false_ne_true).trans (if_pos ?_))
  simpa [SubRefused] using hs
end
end

/-! ### A subscriber's PORT (R227) -/

section
variable {i : Initiator} {v : Word} {s t : State} {dir n : Nat}

/-- A subscriber is idle when its sixteen leaves are. -/
theorem subIdle_iff : subIdle s (dir * 8192 + n) = true ↔ ∀ j < 16, LeafIdle s (leafOfSub dir n j) := by
  have hk : ∀ j, (dir * 8192 + n) / 8192 * 131072 + (dir * 8192 + n) % 8192 * 16 + j = leafOfSub dir n j := fun j => by
    unfold leafOfSub
    omega
  unfold subIdle
  rw [List.all_eq_true]
  simp only [List.mem_range, hk]
  refine forall₂_congr fun j _ => ?_
  simp [LeafIdle, and_assoc]

/-- What a leaf holds is CEL's and UBE's to say. -/
theorem subIdle_congr (hc : t.cel = s.cel) (hu : t.ube = s.ube) (k : Nat) : subIdle t k = subIdle s k := by
  unfold subIdle
  simp only [lq_congr (congrArg CelSt.queues hc), hu]

theorem subRefused_stored {m : Nat} : SubRefused dir n (schStored i v m s) ↔ SubRefused dir n s := by
  unfold SubRefused
  rw [schStored_data, sub_congr schStored_sch,
    subIdle_congr (schStored_kept.frame .cel (by decide)) (schStored_kept.frame .ube (by decide))]

/-- SCH_IND_WRITE of a subscriber that R227 refuses. -/
theorem subWrite_refused (hA : Accepted i SCH_IND_CMD.addr (schGo v 0) s) (hg : s.bit SCH_IND_CMD_GO = false)
    (ht : inField v SCH_IND_CMD_TABLE = 1) (hd : inField v SCH_IND_CMD_DIR = dir) (hi : inField v SCH_IND_CMD_INDEX = n) (hn : n < 8192)
    (h : SubRefused dir n s) : Gives (.schIndWrite i v) s fun t =>
      t.bit SCH_IND_CMD_ERR = true ∧ t.bit SCH_IND_CMD_GO = false ∧ (∀ a, a ∉ [SCH_IND_CMD.addr] → t.reg a = s.reg a) ∧
      Frame [.regs, .harts] s t := by
  have hacc := schAccess_refusesSub (s := schStored i v 0 s) (schStored_table.trans ht) (schStored_dir.trans hd) (schStored_index.trans hi)
    (schStored_read (by decide)) rfl (Nat.le_of_lt_succ hn) (subRefused_stored.2 h)
  have hk : Kept false [.regs, .harts] [blkSCH] s (((schStored i v 0 s).put SCH_IND_CMD_GO false).put SCH_IND_CMD_ERR true) :=
    kept_st_put (kept_st_put schStored_kept (by decide) (by decide)) (by decide) (by decide)
  refine ⟨_, congrArg Host.Outcome.next (schInd_refused hA hg hacc), bit_put_same _ _ (by decide) rfl, ?_, fun a ha => ?_, hk.frame⟩
  · rw [bit_put_other _ _ (by decide) (by decide) (by decide), bit_put_same _ _ (by decide) rfl]
  · have ha : a ≠ SCH_IND_CMD.addr := by simpa using ha
    rw [reg_put_ne (r := SCH_IND_CMD_ERR) _ _ ha, reg_put_ne (r := SCH_IND_CMD_GO) _ _ ha]
    exact schStored_reg ha

/-- SCH_IND_WRITE of a subscriber that it takes. -/
theorem subWrite_taken (hA : Accepted i SCH_IND_CMD.addr (schGo v 0) s) (hg : s.bit SCH_IND_CMD_GO = false)
    (ht : inField v SCH_IND_CMD_TABLE = 1) (hd : inField v SCH_IND_CMD_DIR = dir) (hi : inField v SCH_IND_CMD_INDEX = n) (hn : n < 8192)
    (h : ¬ SubRefused dir n s) : Gives (.schIndWrite i v) s fun t =>
      t.sub (dir * 8192 + n) = ⟨(schData s 0).testBit 63, schData s 0 % 4096⟩ ∧
      (∀ k, k ≠ dir * 8192 + n → t.sub k = s.sub k) ∧ t.bit SCH_IND_CMD_GO = false ∧
      (∀ a, a ∉ [SCH_IND_CMD.addr] → t.reg a = s.reg a) ∧ Frame [.regs, .sch, .harts] s t := by
  have hacc := schAccess_writes (s := schStored i v 0 s) (schStored_table.trans ht) (schStored_dir.trans hd) (schStored_index.trans hi)
    (schStored_read (by decide)) ⟨by decide, fun _ => Nat.le_of_lt_succ hn, nofun, nofun, nofun⟩ (by omega) (fun _ => mt subRefused_stored.1 h)
  have hk0 : Kept false [.regs, .sch, .harts] [blkSCH] s (schStored i v 0 s) :=
    ⟨nofun, frame_mono schStored_kept.frame (by decide), schStored_kept.regFrame⟩
  have hk : Kept false [.regs, .sch, .harts] [blkSCH] s ((schTaken 1 dir n (schStored i v 0 s)).put SCH_IND_CMD_GO false) :=
    kept_st_put (kept_st_setSub hk0 (by decide)) (by decide) (by decide)
  refine ⟨_, congrArg Host.Outcome.next (schInd_accepted hA hg hacc), ?_, fun k hne => ?_, bit_put_same _ _ (by decide) rfl, fun a ha => ?_,
    hk.frame⟩
  · rw [sub_congr (put_sch _ _ _), ← schStored_data (i := i) (v := v) (m := 0)]
    exact sub_setSub _ _ _
  · rw [sub_congr (put_sch _ _ _)]
    exact (sub_setSub_ne _ _ hne).trans (sub_congr schStored_sch k)
  · have ha : a ≠ SCH_IND_CMD.addr := by simpa using ha
    rw [reg_put_ne (r := SCH_IND_CMD_GO) _ _ ha]
    exact (reg_setSub _ _ _ _).trans (schStored_reg ha)

theorem fieldOf_low (v : Word) (w : Nat) : fieldOf v 0 w = v.toNat % 2 ^ w := rfl

theorem fieldOf_bit (v : Word) (j : Nat) : (fieldOf v j 1 == 1) = v.toNat.testBit j := by
  unfold fieldOf
  rw [Nat.testBit_eq_decide_div_mod_eq, Nat.shiftRight_eq_div_pow, pow_one, beq_eq_decide]
end

/-- Settles O7: a write that changes PORT is refused unless the subscriber is idle, which is to say its leaves are. -/
theorem subscriberPortHeld : Obligations.SubscriberPortHeld := by
  unfold Obligations.SubscriberPortHeld
  intro i v s dir n port hA hg ht hd hi hn hp hne
  have hport : schData s 0 % 4096 = port := hp.symm
  refine ⟨fun ⟨j, hj, hl⟩ => subWrite_refused hA hg ht hd.symm hi.symm hn (Or.inr ⟨hport ▸ hne, fun h => hl (subIdle_iff.1 h j hj)⟩),
    fun hl hr => ?_⟩
  have h : ¬ SubRefused dir n s := by
    rintro (⟨h0, h63⟩ | ⟨-, h⟩)
    · exact absurd (hr h0) (by omega)
    · exact h (subIdle_iff.2 hl)
  rw [fieldOf_bit]
  exact hport ▸ subWrite_taken hA hg ht hd.symm hi.symm hn h

/-! ### Entries shown and stored (R249) -/

section
variable {i : Initiator} {v : Word} {tbl dir n : Nat} {s t : State}

theorem schWords_putGo (b : Bool) : schWords (t.put SCH_IND_CMD_GO b) = schWords t :=
  List.map_congr_left fun n _ => congrArg BitVec.toNat (reg_put_ne (r := SCH_IND_CMD_GO) _ _ (schDataAddr_ne n))

theorem schWords_putSchData (d0 d1 d2 d3 : Nat) :
    schWords (putSchData d0 d1 d2 d3 s) = [d0 % 2 ^ 64, d1 % 2 ^ 64, d2 % 2 ^ 64, d3 % 2 ^ 64] := by
  simp [schWords, schData, putSchData, reg_setReg, SCH_IND_DATA, List.range_succ]

/-- The words of an object do not depend on what the data words held. -/
theorem schWords_showObj (o : SchObj) (child svc : Bool) : schWords (showObj o child svc t) = schWords (showObj o child svc s) := by
  unfold showObj
  dsimp only
  rw [schWords_putSchData, schWords_putSchData]

theorem schWords_shown (h : t.sch = s.sch) (hk : t.ticks = s.ticks) : schWords (schShown tbl dir n t) = schWords (schShown tbl dir n s) := by
  unfold schShown State.polNow
  split
  · rw [leafObj_congr h]
    exact schWords_showObj _ _ _
  · rw [sub_congr h, schWords_putSchData, schWords_putSchData]
  · rw [svc_congr h]
    exact schWords_showObj _ _ _
  · rw [portObj_congr h]
    exact schWords_showObj _ _ _
  · dsimp only
    rw [policer_congr h, hk, schWords_putSchData, schWords_putSchData]

theorem setLeafObj_sch (h : t.sch = s.sch) (k : Nat) (o : SchObj) : (t.setLeafObj k o).sch = (s.setLeafObj k o).sch := by
  unfold State.setLeafObj
  rw [h]

theorem setSub_sch (h : t.sch = s.sch) (k : Nat) (x : Subscriber) : (t.setSub k x).sch = (s.setSub k x).sch := by
  unfold State.setSub
  rw [h]

theorem setSvc_sch (h : t.sch = s.sch) (k : Nat) (o : SchObj) : (t.setSvc k o).sch = (s.setSvc k o).sch := by
  unfold State.setSvc
  rw [h]

theorem setPortObj_sch (h : t.sch = s.sch) (k : Nat) (o : SchObj) : (t.setPortObj k o).sch = (s.setPortObj k o).sch := by
  unfold State.setPortObj
  rw [h]

theorem setPolicer_sch (h : t.sch = s.sch) (k : Nat) (x : Policer) : (t.setPolicer k x).sch = (s.setPolicer k x).sch := by
  unfold State.setPolicer
  rw [h]

/-- What a write stores depends on SCH's part, the time and the data words. -/
theorem schTaken_sch (h : t.sch = s.sch) (hk : t.ticks = s.ticks) (hd : schData t = schData s) :
    (schTaken tbl dir n t).sch = (schTaken tbl dir n s).sch := by
  unfold schTaken State.polNow
  rw [hd, leafObj_congr h, svc_congr h, portObj_congr h, policer_congr h, hk]
  split
  case h_1 => exact setLeafObj_sch h _ _
  case h_2 => exact setSub_sch h _ _
  case h_3 => exact setSvc_sch h _ _
  case h_4 => exact setPortObj_sch h _ _
  case h_5 => exact setPolicer_sch h _ _

/-- SCH_IND_READ of an entry of a table. -/
theorem schIndRead_shows (h : SchGoes i v 1 tbl dir n s) (hr : SchInRange tbl dir n) : Gives (.schIndRead i v) s fun t =>
    t.bit SCH_IND_CMD_GO = false ∧ schWords t = schWords (schShown tbl dir n s) := by
  obtain ⟨hA, hg, ht, hd, hi⟩ := h
  have hacc := schAccess_reads (s := schStored i v 1 s) (schStored_table.trans ht) (schStored_dir.trans hd) (schStored_index.trans hi)
    (schStored_read (by decide)) hr
  exact ⟨_, congrArg Host.Outcome.next (schInd_accepted hA hg hacc), bit_put_same _ _ (by decide) rfl,
    (schWords_putGo _).trans (schWords_shown schStored_sch (schStored_kept.frame .ticks (by decide)))⟩

/-- SCH_IND_WRITE of an entry of a table, of values that are not refused. -/
theorem schIndWrite_stores (h : SchGoes i v 0 tbl dir n s) (hr : SchInRange tbl dir n)
    (ho : tbl = 0 ∨ tbl = 2 → objRefused (schData s 0) (schData s 1) (schData s 2) = false) (hs : tbl = 1 → ¬ SubRefused dir n s) :
    Gives (.schIndWrite i v) s fun t => t.bit SCH_IND_CMD_GO = false ∧ t.sch = (schTaken tbl dir n s).sch := by
  obtain ⟨hA, hg, ht, hd, hi⟩ := h
  have hacc := schAccess_writes (s := schStored i v 0 s) (schStored_table.trans ht) (schStored_dir.trans hd) (schStored_index.trans hi)
    (schStored_read (by decide)) hr (by rwa [schStored_data]) (fun h1 => mt subRefused_stored.1 (hs h1))
  exact ⟨_, congrArg Host.Outcome.next (schInd_accepted hA hg hacc), bit_put_same _ _ (by decide) rfl,
    (put_sch _ _ _).trans (schTaken_sch schStored_sch (schStored_kept.frame .ticks (by decide)) schStored_data)⟩
end

/-! ### Leaves flushed (R237) -/

/-- The row of SCH_FLUSH. -/
def rowSchFlush : RegRow :=
  ⟨0x15, 0x15000000, 1, 0x58, 1, 8, 0x0,
    [⟨63, 1, .w1s, 0, 1⟩, ⟨60, 1, .rw, 0, 1⟩, ⟨24, 32, .ro, 0, 4294967295⟩, ⟨0, 17, .rw, 0, 131071⟩]⟩

theorem regRow_schFlush : regRow? SCH_FLUSH.addr = some rowSchFlush := by decide +kernel

section
variable {i : Initiator} {v : Word} {key : Nat} {s t : State}

/-- What leaves CEL's part alone leaves its queues alone. -/
theorem lq_frame {kl : List Part} (h : Frame kl s t) (hn : Part.cel ∉ kl) (k : Nat) : t.lq k = s.lq k :=
  lq_congr (congrArg CelSt.queues (h .cel hn)) k

theorem inUnsentBurst_congr (h : t.ube = s.ube) : inUnsentBurst t = inUnsentBurst s := by
  unfold inUnsentBurst
  rw [h]

theorem freeCells_pkts (l : List Loc) : ((freeCells key l s).lq key).pkts = (s.lq key).pkts := by
  unfold freeCells
  dsimp only
  rw [givePool_lq, givePool_lq, givePool_lq, lq_setLq]

theorem lq_orphans (l : List Nat) (k : Nat) : ({ s with cel := { s.cel with orphans := l } } : State).lq k = s.lq k := rfl

theorem leafTouch_lq (k : Nat) : (leafTouch key s).lq k = s.lq k :=
  lq_frame (kept_leafTouch (kb := false) (kl := [.sch]) (bl := ([] : List Nat)) Kept.rfl_frame (by decide)).frame (by decide) k

/-- A flush that keeps no packet empties its queue, and counts the packets. -/
theorem flushLeaf_empties {keep : QPkt → Bool} (h : ∀ p ∈ (s.lq key).pkts, keep p = false) :
    ((flushLeaf keep key s).1.lq key).pkts = [] ∧ (flushLeaf keep key s).2.1 = (s.lq key).pkts.length := by
  have hkept : (s.lq key).pkts.filter keep = [] := List.filter_eq_nil_iff.2 fun p hp => by rw [h p hp]; decide
  have hgone : (s.lq key).pkts.filter (fun p => !keep p) = (s.lq key).pkts := List.filter_eq_self.2 fun p hp => by rw [h p hp]; rfl
  unfold flushLeaf
  dsimp only
  rw [hkept, hgone]
  refine ⟨(foldl_keeps (fun x : State => (x.lq key).pkts) (fun _ _ => congrArg LeafQ.pkts (givePage_lq key)) _ _).trans ?_, rfl⟩
  rw [lq_orphans, freeCells_pkts, lq_setLq]
  rfl

/-- So does a flush of a leaf none of whose packets lies in an unsent burst. -/
theorem flushKey_empties (h : ∀ p ∈ (s.lq key).pkts, inUnsentBurst s p = false) :
    ((flushKey key s).1.lq key).pkts = [] ∧ (flushKey key s).2.1 = (s.lq key).pkts.length := by
  have hm : Kept false [.spc] ([] : List Nat) s (markFlushed key s) := kept_markFlushed Kept.rfl_frame (by decide)
  have hlq := lq_frame hm.frame (by decide) key
  obtain ⟨hempty, hcount⟩ := flushLeaf_empties (s := markFlushed key s) (key := key)
    (keep := fun p => p.spec.isNone && inUnsentBurst (markFlushed key s) p) fun p hp => by
      rw [inUnsentBurst_congr (hm.frame .ube (by decide)), h p (hlq ▸ hp), Bool.and_false]
  have hdoom : ∀ u : State, (doomPieces key u).lq key = u.lq key := fun _ => rfl
  unfold flushKey
  dsimp only
  rw [leafTouch_lq, hdoom]
  exact ⟨hempty, hcount.trans (congrArg (fun q : LeafQ => q.pkts.length) hlq)⟩

theorem schWrite_flush {o : State} (hg : inField v SCH_FLUSH_GO = 1) : schWrite SCH_FLUSH.addr v o s =
    (flushKey (leafKey (s.rd SCH_FLUSH_DIR) (s.rd SCH_FLUSH_LEAF)) s).1.wr SCH_FLUSH_PKTS
      (flushKey (leafKey (s.rd SCH_FLUSH_DIR) (s.rd SCH_FLUSH_LEAF)) s).2.1 := by
  unfold schWrite
  rw [if_neg (fun h => absurd h.1 (by decide)), if_pos ⟨rfl, hg⟩]

/-- LEAF_FLUSH of a leaf none of whose packets lies in an unsent burst. -/
theorem leafFlush_empties (hA : Accepted i SCH_FLUSH.addr (withField v SCH_FLUSH_GO 1) s)
    (hk : key = leafKey (inField v SCH_FLUSH_DIR) (inField v SCH_FLUSH_LEAF)) (h : ∀ p ∈ (s.lq key).pkts, inUnsentBurst s p = false) :
    Gives (.leafFlush i v) s fun t => (t.lq key).pkts = [] ∧ t.rd SCH_FLUSH_PKTS = (s.lq key).pkts.length % 2 ^ 32 := by
  have hgo : inField (withField v SCH_FLUSH_GO 1) SCH_FLUSH_GO = 1 := inField_withField_same _ _ (by decide) (by decide)
  have heq := regAccess_sch hA regRow_schFlush (by decide) (by decide) (by decide)
  have hfield : ∀ q : RF, q.addr = SCH_FLUSH.addr → q.lo + q.w ≤ 63 → ⟨q.lo, q.w, .rw, 0, ((2 ^ q.w - 1 : Nat) : Int)⟩ ∈ rowSchFlush.fields →
      (storedBy i SCH_FLUSH.addr rowSchFlush (withField v SCH_FLUSH_GO 1) s).rd q = inField v q := fun q ha hq hf =>
    (storedBy_rd_rw q ha regRow_schFlush hf).trans
      (inField_withField_disj (r := SCH_FLUSH_GO) v 1 le_of_eval (hq.trans (by decide)) (Or.inr hq))
  rw [schWrite_flush hgo, hfield SCH_FLUSH_DIR rfl (by decide) (by decide), hfield SCH_FLUSH_LEAF rfl (by decide) (by decide), ← hk] at heq
  have hs : Frame [.regs, .harts] s (storedBy i SCH_FLUSH.addr rowSchFlush (withField v SCH_FLUSH_GO 1) s) := storedBy_kept.frame
  generalize storedBy i SCH_FLUSH.addr rowSchFlush (withField v SCH_FLUSH_GO 1) s = u at heq hs
  have hlq := lq_frame hs (by decide) key
  obtain ⟨hempty, hcount⟩ := flushKey_empties (s := u) (key := key) fun p hp => by
    rw [inUnsentBurst_congr (hs .ube (by decide))]
    exact h p (hlq ▸ hp)
  refine ⟨_, congrArg Host.Outcome.next heq, hempty, ?_⟩
  rw [rd_wr_same _ _ (by decide), hcount, hlq]
  rfl
end

/-! ### Histograms (R240, R241) -/

/-- The row of SCH_HIST_CTL. -/
def rowHistCtl : RegRow :=
  ⟨0x15, 0x15000000, 1, 0x68, 1, 8, 0x0, [⟨63, 1, .rw, 0, 1⟩, ⟨62, 1, .w1s, 0, 1⟩, ⟨0, 32, .ro, 0, 4294967295⟩]⟩

theorem regRow_histCtl : regRow? SCH_HIST_CTL.addr = some rowHistCtl := by decide +kernel

section
variable {i : Initiator} {v : Word} {s : State}

/-- A sample of a leaf changes memory, and registers of FLT where it is reported (R216). -/
theorem histLeaf_keeps (key : Nat) : (histLeaf key s).reg SCH_HIST_CTL.addr = s.reg SCH_HIST_CTL.addr :=
  (kept_histLeaf (kb := false) (kl := [.regs, .mem, .ecc, .free, .flt]) (bl := [blkFLT]) Kept.rfl_frame (by decide) (by decide) (by decide)
    (by decide) (by decide) (by decide)).regFrame _ (by decide)

/-- A period that has ended is counted. -/
theorem histSample_counts (hr : s.runs blkSCH = true) (he : s.bit SCH_HIST_CTL_EN = true) :
    (histSample s).rd SCH_HIST_CTL_SAMPLES = satAdd SCH_HIST_CTL_SAMPLES.w (s.rd SCH_HIST_CTL_SAMPLES) 1 := by
  have hleaves : ∀ l : List Nat, (l.foldl (fun s key => histLeaf key s) s).rd SCH_HIST_CTL_SAMPLES = s.rd SCH_HIST_CTL_SAMPLES := fun l =>
    rd_congr (foldl_keeps (fun x : State => x.reg SCH_HIST_CTL.addr) (fun _ key => histLeaf_keeps key) l s)
  unfold histSample
  rw [he, hr, if_neg (by decide), rd_inc_same _ (by decide), hleaves]
  rfl

/-- Bytes cleared read as those of an address never written. -/
theorem memByte_clearMem {a n x : Nat} (hlo : a ≤ x) (hhi : x < a + n) : (clearMem a n s).memByte x = memDefault x := by
  by_contra hc
  have hm := (List.mem_filter.1 (SMap.mem_of_get memDefault (clearMem a n s).mem x hc)).2
  simp only [Bool.or_eq_true, decide_eq_true_eq] at hm
  omega

/-- The Cellar lies above the boot ROM. -/
theorem memDefault_cellar {a : Nat} (h : 0x2000000000 ≤ a) : memDefault a = 0 := if_neg (by omega)

theorem schWrite_histClear {o : State} (hc : inField v SCH_HIST_CTL_CLR = 1) : schWrite SCH_HIST_CTL.addr v o s =
    (if inCellar (s.rd SCH_HIST_BASE_BASE) && s.stackOk (stackOf (s.rd SCH_HIST_BASE_BASE)) then clearMem (s.rd SCH_HIST_BASE_BASE) 33554432 s
      else s).wr SCH_HIST_CTL_SAMPLES 0 := by
  unfold schWrite
  rw [if_neg (fun h => absurd h.1 (by decide)), if_neg (fun h => absurd h.1 (by decide)), if_pos ⟨rfl, hc⟩]

/-- HISTOGRAM_CLEAR. -/
theorem histogramClear_clears (hA : Accepted i SCH_HIST_CTL.addr (withField v SCH_HIST_CTL_CLR 1) s) :
    Gives (.histogramClear i v) s fun t => t.rd SCH_HIST_CTL_SAMPLES = 0 ∧
      (inCellar (s.rd SCH_HIST_BASE_BASE) = true → s.stackOk (stackOf (s.rd SCH_HIST_BASE_BASE)) = true →
        ∀ n < 33554432, t.memByte (s.rd SCH_HIST_BASE_BASE + n) = 0) := by
  have hclr : inField (withField v SCH_HIST_CTL_CLR 1) SCH_HIST_CTL_CLR = 1 := inField_withField_same _ _ (by decide) (by decide)
  have heq := regAccess_sch hA regRow_histCtl (by decide) (by decide) (by decide)
  have hbase : ∀ u, (storedBy i SCH_HIST_CTL.addr rowHistCtl u s).rd SCH_HIST_BASE_BASE = s.rd SCH_HIST_BASE_BASE := fun _ =>
    storedBy_rd_ne (by decide)
  have hok : ∀ u n, (storedBy i SCH_HIST_CTL.addr rowHistCtl u s).stackOk n = s.stackOk n := fun _ n =>
    congrArg (Nat.testBit · n) (storedBy_rd_ne (q := CEL_STATUS_STK_OK) (by decide))
  rw [schWrite_histClear hclr, hbase, hok] at heq
  refine ⟨_, congrArg Host.Outcome.next heq, rd_wr_same _ _ (by decide), fun hin hst n hn => ?_⟩
  have hlow : 0x2000000000 ≤ s.rd SCH_HIST_BASE_BASE := by
    unfold inCellar at hin
    simp only [Bool.and_eq_true, decide_eq_true_eq] at hin
    exact hin.1
  rw [hin, hst, memByte_wr, if_pos (by decide), memByte_clearMem (Nat.le_add_right _ n) (Nat.add_lt_add_left hn _)]
  exact memDefault_cellar (hlow.trans (Nat.le_add_right _ n))
end

/-! ### Refills (R233, R234) -/

section
variable {α : Type} [DecidableEq α] {d : Nat → α} {f : Nat → α → α} {m : SMap α} {lo k : Nat}

/-- A key below those listed is unlisted. -/
theorem SMap.get_of_lt (h : SMap.wfFrom d lo m = true) (hk : k < lo) : SMap.get d m k = d k := by
  by_contra hc
  have := SMap.wfFrom_le d h (SMap.mem_of_get d m k hc)
  omega

/-- A function that keeps what unlisted keys read as acts on every key. -/
theorem SMap.get_mapVals (h : SMap.wfFrom d lo m = true) (hf : ∀ k, f k (d k) = d k) :
    SMap.get d (SMap.mapVals d f m) k = f k (SMap.get d m k) := by
  induction m generalizing lo with
  | nil => exact (hf k).symm
  | cons e m ih =>
    obtain ⟨j, w⟩ := e
    simp only [SMap.wfFrom, Bool.and_eq_true, decide_eq_true_eq] at h
    obtain ⟨-, hm⟩ := h
    have ih := ih hm
    have hmap : SMap.mapVals d f ((j, w) :: m) = if f j w = d j then SMap.mapVals d f m else (j, f j w) :: SMap.mapVals d f m := by
      unfold SMap.mapVals
      by_cases hw : f j w = d j <;> simp [hw]
    rw [hmap]
    by_cases hkj : k ≤ j
    · rw [SMap.get_of_lt hm (Nat.lt_succ_of_le hkj), hf] at ih
      by_cases hw : f j w = d j
      · rw [if_pos hw, ih, SMap.get]
        split
        · exact (hf k).symm
        · have e : k = j := by omega
          rw [if_pos e, e, hw]
      · rw [if_neg hw, SMap.get, SMap.get]
        split
        · exact (hf k).symm
        · have e : k = j := by omega
          rw [if_pos e, if_pos e, e]
    · have hget : ∀ x, SMap.get d ((j, x) :: m) k = SMap.get d m k := fun x => by rw [SMap.get, if_neg (by omega), if_neg (by omega)]
      rw [hget]
      split
      · exact ih
      · rw [SMap.get, if_neg (by omega), if_neg (by omega)]
        exact ih
end

section
variable {s : State}

/-- An unlisted object is as it was after a refill. -/
theorem refill_default : ({} : SchObj).refill = {} := rfl

/-- The objects of a level whose direction is refilled. -/
def refillMap (dir per : Nat) (m : SMap SchObj) : SMap SchObj :=
  SMap.mapVals (fun _ => ({} : SchObj)) (fun n o => if n / per = dir then o.refill else o) m

theorem get_refillMap {dir per : Nat} {m : SMap SchObj} (h : SMap.wf (fun _ => ({} : SchObj)) m = true) (k : Nat) :
    SMap.get (fun _ => ({} : SchObj)) (refillMap dir per m) k =
      if k / per = dir then (SMap.get (fun _ => ({} : SchObj)) m k).refill else SMap.get (fun _ => ({} : SchObj)) m k := by
  unfold refillMap
  rw [SMap.get_mapVals h]
  intro k
  split
  · exact refill_default
  · rfl

/-- A refill acts on the objects of its level and direction. -/
theorem refillLevel_refills (d : Nat) (lev : Fin 3) (hl : SMap.wf (fun _ => ({} : SchObj)) s.sch.leaves = true)
    (hs : SMap.wf (fun _ => ({} : SchObj)) s.sch.svcs = true) (hp : SMap.wf (fun _ => ({} : SchObj)) s.sch.ports = true) (k : Nat) :
    (refillLevel d lev s).leafObj k = (if lev = 0 ∧ k / 131072 = d then (s.leafObj k).refill else s.leafObj k) ∧
      (refillLevel d lev s).svc k = (if lev = 1 ∧ k / 131072 = d then (s.svc k).refill else s.svc k) ∧
      (refillLevel d lev s).portObj k = (if lev = 2 ∧ k / 8192 = d then (s.portObj k).refill else s.portObj k) := by
  match lev with
  | 0 => simpa using ⟨get_refillMap hl k, rfl, rfl⟩
  | 1 => simpa using ⟨rfl, get_refillMap hs k, rfl⟩
  | 2 => simpa using ⟨rfl, rfl, get_refillMap hp k⟩
end

/-! ### Selections (R228 to R231) -/

/-- Every service node has its class, and every MAC what was handed to it. -/
def SelKept (s t : State) : Prop := (∀ k, (t.svc k).tc = (s.svc k).tc) ∧ ∀ k, t.toMac k = s.toMac k

section
variable {s t u : State} {p n key : Nat} {x : QPkt} {l : List QPkt}

theorem SelKept.trans (h : SelKept s t) (h' : SelKept t u) : SelKept s u :=
  ⟨fun k => (h'.1 k).trans (h.1 k), fun k => (h'.2 k).trans (h.2 k)⟩

theorem SelKept.refl : SelKept s s := ⟨fun _ => rfl, fun _ => rfl⟩

theorem SelKept.of_sch (h : t.sch = s.sch) : SelKept s t := ⟨fun k => congrArg SchObj.tc (svc_congr h k), toMac_congr h⟩

theorem selKept_setLeafObj (k : Nat) (o : SchObj) : SelKept s (s.setLeafObj k o) := ⟨fun _ => rfl, fun _ => rfl⟩

theorem selKept_setPortObj (k : Nat) (o : SchObj) : SelKept s (s.setPortObj k o) := ⟨fun _ => rfl, fun _ => rfl⟩

theorem selKept_setSvc {k : Nat} {o : SchObj} (h : o.tc = (s.svc k).tc) : SelKept s (s.setSvc k o) := by
  refine ⟨fun j => ?_, fun _ => rfl⟩
  by_cases hj : j = k
  · rw [hj, svc_setSvc, h]
  · rw [svc_setSvc_ne _ _ hj]

theorem advanceTags_keeps (amount : Int) : SelKept s (advanceTags n key amount s) := by
  unfold advanceTags
  dsimp only
  split
  · exact SelKept.trans (selKept_setLeafObj _ _) (selKept_setSvc rfl)
  · refine SelKept.trans ?_ (selKept_setSvc ?_)
    · refine SelKept.trans ?_ (selKept_setPortObj _ _)
      exact SelKept.trans (selKept_setLeafObj _ _) (selKept_setSvc rfl)
    · rfl

theorem chargeNow_keeps (c : Charge) : SelKept s (chargeNow c s) := by
  have hdebit : ∀ (o : SchObj) b, (o.debit b c.amount).tc = o.tc := fun o b => by
    unfold SchObj.debit
    split <;> rfl
  unfold chargeNow onCharge
  exact (selKept_setLeafObj _ _).trans ((selKept_setSvc (hdebit _ _)).trans (selKept_setPortObj _ _))

theorem leafTouch_keeps : SelKept s (leafTouch key s) := by
  unfold leafTouch
  dsimp only
  split
  · split
    · exact selKept_setLeafObj _ _
    · exact (selKept_setLeafObj _ _).trans (selKept_setSvc rfl)
  · split
    · split
      · exact selKept_setLeafObj _ _
      · exact (selKept_setLeafObj _ _).trans (selKept_setSvc rfl)
    · exact SelKept.refl

theorem joinIfDry_pkts : ((joinIfDry key s).lq key).pkts = (s.lq key).pkts := by
  unfold joinIfDry joinTail
  dsimp only
  split
  · split
    · rw [lq_setLq]
    · rfl
  · rfl

/-- The first packet is taken out of its queue. -/
theorem popHead_pkts (h : (s.lq key).pkts = x :: l) : ((popHead key s).lq key).pkts = l := by
  unfold popHead
  dsimp only
  rw [h]
  exact joinIfDry_pkts.trans (congrArg LeafQ.pkts (lq_setLq _ _ _))

/-- The state in which a selected packet has left its queue and been charged. -/
def charged (n key : Nat) (x : QPkt) (s : State) : State :=
  let amount := dsCharge s x.bytes.length
  leafTouch key (freeCells key x.cells (popHead key (advanceTags n key amount (chargeNow (chargeOf s n key amount) s))))

theorem charged_keeps : SelKept s (charged n key x s) := by
  have hcel : ∀ u : State, (freeCells key x.cells (popHead key u)).sch = u.sch := fun u =>
    (kept_freeCells (kb := false) (kl := [.regs, .cel]) (bl := [blkCEL]) (kept_popHead Kept.rfl_frame (by decide)) (by decide) (by decide)
      (by decide)).frame .sch (by decide)
  unfold charged
  exact (chargeNow_keeps _).trans ((advanceTags_keeps _).trans ((SelKept.of_sch (hcel _)).trans leafTouch_keeps))

theorem charged_pkts (h : (s.lq key).pkts = x :: l) : ((charged n key x s).lq key).pkts = l := by
  have hsch : ∀ c amount, Kept false [.sch] ([] : List Nat) s (advanceTags n key amount (chargeNow c s)) := fun c amount =>
    kept_advanceTags (kept_chargeNow Kept.rfl_frame (by decide)) (by decide)
  unfold charged
  dsimp only
  rw [leafTouch_lq, freeCells_pkts]
  refine popHead_pkts (x := x) ?_
  rw [lq_frame (hsch _ _).frame (by decide), h]

/-- A packet selected that is not poisoned is handed to the MAC. -/
theorem takeSelected_eq (h : (s.lq key).pkts = x :: l) (hp : x.poisoned = false) : ∃ m, takeSelected p n key s =
    ((charged n key x s).setMacPort p m).setToMac p ((charged n key x s).toMac p ++ [(((charged n key x s).svc n).tc, x)]) := by
  unfold takeSelected
  rw [h]
  exact ⟨_, if_neg (by rw [hp]; decide)⟩

theorem takeSelected_hands (h : (s.lq key).pkts = x :: l) (hp : x.poisoned = false) :
    (takeSelected p n key s).toMac p = s.toMac p ++ [((s.svc n).tc, x)] ∧ ((takeSelected p n key s).lq key).pkts = l := by
  have hlq : ∀ (u : State) m v, ((u.setMacPort p m).setToMac p v).lq key = u.lq key := fun _ _ _ => rfl
  obtain ⟨m, he⟩ := takeSelected_eq (p := p) (n := n) h hp
  obtain ⟨htc, hmac⟩ := charged_keeps (s := s) (n := n) (key := key) (x := x)
  constructor
  · rw [he, toMac_setToMac, htc, hmac]
  · rw [he, hlq, charged_pkts h]

/-- The guard band passes over service nodes, and changes no queue, no node and no MAC. -/
theorem guardBand_frame (pre : Bool) : Frame [.regs, .gcl] s (guardBand p pre s) :=
  (kept_guardBand (kb := false) (kl := [.regs, .gcl]) (bl := [blkGCL]) Kept.rfl_frame (by decide) (by decide) (by decide)).frame

/-- SCHEDULE_SELECT at a port that can take an express packet, and has one. -/
theorem scheduleSelect_hands (hr : s.runs blkSCH = true) (hm : macReady s p false = true)
    (hpick : portPick (guardBand p false s) (fun _ => false) (fun n _ => nodeOpen (guardBand p false s) p false n) p = some (n, key))
    (h : (s.lq key).pkts = x :: l) (hp : x.poisoned = false) :
    (scheduleSelect p s).toMac p = s.toMac p ++ [((s.svc n).tc, x)] ∧ ((scheduleSelect p s).lq key).pkts = l := by
  have hf := guardBand_frame (s := s) (p := p) false
  have hsch : (guardBand p false s).sch = s.sch := hf .sch (by decide)
  have hhands := takeSelected_hands (p := p) (n := n) ((congrArg LeafQ.pkts (lq_frame hf (by decide) key)).trans h) hp
  rw [toMac_congr hsch, svc_congr hsch] at hhands
  have hsel : selectKind p false s = some (takeSelected p n key (guardBand p false s)) := by
    unfold selectKind
    rw [if_pos hm]
    dsimp only
    rw [hpick]
  have heq : scheduleSelect p s = takeSelected p n key (guardBand p false s) := by
    unfold scheduleSelect
    rw [hr, if_neg (by decide), hsel]
    refine if_pos ?_
    show (s.toMac p).length < ((takeSelected p n key (guardBand p false s)).toMac p).length
    rw [hhands.1, List.length_append]
    exact Nat.lt_succ_self _
  rwa [heq]
end

/-! ### Gates shown (R242, R245, R246) -/

section
variable {s t : State} {p a : Nat}

/-- What leaves GCL's part alone leaves each port's gate control alone. -/
theorem gclPort_frame {kl : List Part} (h : Frame kl s t) (hn : Part.gcl ∉ kl) (k : Nat) : t.gclPort k = s.gclPort k :=
  congrArg (fun m : SMap GclPort => SMap.get (fun _ => ({} : GclPort)) m k) (h .gcl hn)

/-- A preemption is counted, at the port's MAC and its gate control, and changes no other register. -/
theorem preempt_reg (hm : a ≠ (MAC_CNT p 19).addr) (hg : a ≠ (GCL_CNT p).addr) : (preempt p s).reg a = s.reg a := by
  unfold preempt
  dsimp only
  split
  · split
    · rfl
    · split
      · exact reg_setMacPort _ _ _ _
      · split
        · refine (reg_inc_ne (r := GCL_CNT_PREEMPT p) _ hg).trans ?_
          exact (reg_inc_ne (r := MAC_CNT p 19) _ hm).trans (reg_setMacPort _ _ _ _)
        · rfl
  · rfl

theorem preFollow_reg (hlt : a < 0x1C000000) (hn : a % 0x10000 ≠ 0x68) : (preFollow p s).reg a = s.reg a := by
  have hm : a ≠ (MAC_CNT p 19).addr := by
    show a ≠ 0x1C000200 + p % 256 * 0x10000 + 19 % 4096 * 8
    omega
  have hg : a ≠ (GCL_CNT p).addr := by
    show a ≠ 0x16000068 + p % 256 * 0x10000
    omega
  unfold preFollow
  split
  · exact preempt_reg hm hg
  · exact reg_frame (kept_preResume (kb := false) (kl := [.mac]) (bl := ([] : List Nat)) Kept.rfl_frame (by decide)).frame (by decide) a

theorem preFollow_frame : Frame [.regs, .mac] s (preFollow p s) :=
  (kept_preFollow (kb := false) (kl := [.regs, .mac]) (bl := [blkGCL, blkMAC]) Kept.rfl_frame (by decide) (by decide) (by decide)
    (by decide)).frame

/-- What follows the gates leaves what is shown of them. -/
theorem preFollow_oper : (preFollow p s).reg (GCL_OPER p).addr = s.reg (GCL_OPER p).addr := by
  have e : (GCL_OPER p).addr = 0x16000048 + p % 256 * 0x10000 := rfl
  rw [e]
  exact preFollow_reg (by omega) (by omega)

theorem showGates_reg (h : a ≠ (GCL_OPER p).addr) : (showGates p s).reg a = s.reg a := by
  unfold showGates
  dsimp only
  rw [reg_put_ne (r := GCL_OPER_RUN p) _ _ h, reg_wr_ne (r := GCL_OPER_OPER_LEN p) _ _ h, reg_wr_ne (r := GCL_OPER_ENTRY p) _ _ h,
    reg_wr_ne (r := GCL_OPER_GATES p) _ _ h]

theorem showGates_frame : Frame [.regs] s (showGates p s) :=
  (kept_showGates (kb := false) (kl := [.regs]) (bl := [blkGCL]) Kept.rfl_frame (by decide) (by decide)).frame

theorem showGates_gates : (showGates p s).rd (GCL_OPER_GATES p) = gatesAt s p s.nowNs % 256 := by
  unfold showGates
  dsimp only
  rw [put_eq, rd_wr_disj (r := GCL_OPER_RUN p) (q := GCL_OPER_GATES p) _ _ rfl le_of_eval le_of_eval (Or.inr le_of_eval),
    rd_wr_disj (r := GCL_OPER_OPER_LEN p) (q := GCL_OPER_GATES p) _ _ rfl le_of_eval le_of_eval (Or.inr le_of_eval),
    rd_wr_disj (r := GCL_OPER_ENTRY p) (q := GCL_OPER_GATES p) _ _ rfl le_of_eval le_of_eval (Or.inr le_of_eval),
    rd_wr_same (r := GCL_OPER_GATES p) _ _ le_of_eval]
  rfl

theorem showGates_run : (showGates p s).bit (GCL_OPER_RUN p) = (operList s p).en := bit_put_same _ _ le_of_eval rfl

/-- GATE_ENTRY_START. -/
theorem gateEntry_shows : (gateEntry p s).rd (GCL_OPER_GATES p) = gatesAt s p s.nowNs % 256 ∧
    (gateEntry p s).bit (GCL_OPER_RUN p) = (operList s p).en := by
  have h : (gateEntry p s).reg (GCL_OPER p).addr = (showGates p s).reg (GCL_OPER p).addr := by
    unfold gateEntry gateEntryStart
    exact preFollow_oper.trans (reg_setGclPort _ _ _ _)
  exact ⟨(rd_congr (q := GCL_OPER_GATES p) h).trans showGates_gates, (bit_congr (q := GCL_OPER_RUN p) h).trans showGates_run⟩

/-- GATE_HOLD_ASSERT within the advance of an entry that sets hold. -/
theorem gateHold_holds (h : opWithin s p 1 (s.rd (GCL_PREEMPT_HOLD_ADV p)) = true) : (gateHold p s).bit (GCL_OPER_HOLD p) = true := by
  unfold gateHold
  rw [if_pos h]
  exact (bit_congr (q := GCL_OPER_HOLD p) preFollow_oper).trans (bit_put_same _ _ le_of_eval rfl)

/-- GATE_HOLD_RELEASE within the advance of an entry that releases it. -/
theorem gateRelease_releases (h : opWithin s p 2 (s.rd (GCL_PREEMPT_REL_ADV p)) = true) :
    (gateRelease p s).bit (GCL_OPER_HOLD p) = false := by
  unfold gateRelease
  rw [if_pos h]
  exact (bit_congr (q := GCL_OPER_HOLD p) preFollow_oper).trans (bit_put_same _ _ le_of_eval rfl)
end

/-! ### A list's change (R41, R243) -/

section
variable {m lo w : Nat} {u v : Word}

/-- A field all of whose bits the mask takes is the second word's. -/
theorem fieldOf_mergeMask (hm : m < 2 ^ 64) (h : lo + w ≤ 64) (hb : ∀ i < w, m.testBit (lo + i) = true) :
    fieldOf (mergeMask m u v) lo w = fieldOf v lo w := by
  refine Nat.eq_of_testBit_eq fun i => ?_
  rw [testBit_fieldOf, testBit_fieldOf]
  by_cases hi : i < w
  · rw [testBit_mergeMask hm u v (by omega), hb i hi, if_pos rfl]
  · rw [decide_eq_false hi, Bool.false_and, Bool.false_and]
end

/-- A row names addresses of its own block only. -/
theorem blkOf_of_at? {r : RegRow} {a : Nat} (hr : r ∈ regRows) (h : (r.at? a).isSome = true) : blkOf r.base = blkOf a := by
  have hrows : regRows.all (fun r => decide (r.base % 0x1000000 + r.units * 0x10000 ≤ 0x1000000)) = true := by decide +kernel
  have hfit := of_decide_eq_true (List.all_eq_true.1 hrows r hr)
  unfold RegRow.at? at h
  split at h
  · exact absurd h Bool.false_ne_true
  · dsimp only at h
    split at h
    · next hin =>
      obtain ⟨hu, -⟩ := hin
      unfold blkOf
      omega
    · exact absurd h Bool.false_ne_true

/-- A register of GCL is one of GCL's rows. -/
theorem regRow?_gcl {a : Nat} (h : blkOf a = blkGCL) : regRow? a = (rowsGCL0 ++ rowsGCL1).find? fun r => (r.at? a).isSome := by
  have hrows : regRows.filter (fun r => blkOf r.base == blkGCL) = rowsGCL0 ++ rowsGCL1 := by decide +kernel
  rw [← hrows, List.find?_filter]
  unfold regRow?
  refine List.find?_congr fun r hr => ?_
  by_cases hat : (r.at? a).isSome = true
  · simp [hat, blkOf_of_at? hr hat, h]
  · simp [hat]

section
variable {s t : State} {p : LPort}

theorem bankUnit_gcl : ∀ p : LPort, bankUnit (GCL_BANK p).addr = p := by decide

theorem blkOf_gclBank : ∀ p : LPort, blkOf (GCL_BANK p).addr = blkGCL := by decide

/-- The fields of a list that say whether it runs, how long it is, and when its cycles start and end. -/
def listFields (p : Nat) : List RF := [GCL_ADMIN_GATE_EN p, GCL_ADMIN_LEN p, GCL_ADMIN_BTS_BT_S p, GCL_ADMIN_BTN_BT_NS p, GCL_ADMIN_CYC_CT p]

theorem listFields_banked : ∀ p : LPort, ∀ q ∈ listFields p, bankOf q.addr = some (GCL_BANK p).addr ∧ q.addr ≠ (GCL_BANK p).addr ∧
    q.addr ≠ (GCL_OPER p).addr ∧ q.addr ≠ (GCL_EVT p).addr ∧ q.addr < 0x1C000000 ∧ q.addr % 0x10000 ≠ 0x68 := by decide +kernel

/-- They are SH fields. -/
theorem listFields_sh : ∀ p : LPort, ∀ q ∈ listFields p, shMask q.addr &&& ((2 ^ q.w - 1) * 2 ^ q.lo) = (2 ^ q.w - 1) * 2 ^ q.lo := by
  have hblk : ∀ p : LPort, ∀ q ∈ listFields p, blkOf q.addr = blkGCL := by decide
  intro p q hq
  unfold shMask
  rw [regRow?_gcl (hblk p q hq)]
  revert p q
  decide +kernel

theorem listFields_mask {q : RF} (hq : q ∈ listFields p) {i : Nat} (hi : i < q.w) : (shMask q.addr).testBit (q.lo + i) = true := by
  have h := congrArg (Nat.testBit · (q.lo + i)) (listFields_sh p q hq)
  simp only [Nat.testBit_and, Nat.testBit_mul_two_pow, Nat.testBit_two_pow_sub_one, Nat.add_sub_cancel_left, hi] at h
  simpa using h

theorem listFields_word {q : RF} (hq : q ∈ listFields p) : q.lo + q.w ≤ 64 := by
  have hword : ∀ p : LPort, ∀ q ∈ listFields p, q.lo + q.w ≤ 64 := by decide
  exact hword p q hq

/-- The exchange puts the administrative list's fields into effect. -/
theorem exchangeBanks_field {q : RF} (hq : q ∈ listFields p) : (exchangeBanks (GCL_BANK p).addr s).rd q = s.rdSh q := by
  obtain ⟨hbank, hne, -⟩ := listFields_banked p q hq
  rw [exchangeBanks_eq, rd_congr (reg_wr_ne (r := bankActive (GCL_BANK p).addr) _ _ hne), rd_eq, (exchangeBanks_at hbank).1]
  exact fieldOf_mergeMask (shMask_lt _) (listFields_word hq) fun i hi => listFields_mask hq hi

theorem operList_eq (h : ∀ q ∈ listFields p, t.rd q = s.rdSh q) : (operList t p).en = (adminList s p).en ∧
    (operList t p).len = (adminList s p).len ∧ (operList t p).ct = (adminList s p).ct ∧ (operList t p).bt = (adminList s p).bt := by
  simp only [listFields, List.forall_mem_cons] at h
  obtain ⟨hen, hlen, hs, hns, hct, -⟩ := h
  refine ⟨congrArg (· != 0) hen, hlen, hct, ?_⟩
  show (t.rd (GCL_ADMIN_BTS_BT_S p) : Int) * 1000000000 + t.rd (GCL_ADMIN_BTN_BT_NS p) = _
  rw [hs, hns]
  rfl

/-- The state in which the banks of a port's lists are exchanged, and the copy begins. -/
def gateSwapped (p : Nat) (s : State) : State :=
  (exchangeBanks (GCL_BANK p).addr s).setBank (GCL_BANK p).addr
    { (exchangeBanks (GCL_BANK p).addr s).bank (GCL_BANK p).addr with phase := .copying }

theorem gateSwapped_frame : Frame [.regs, .shadow, .cfg] s (gateSwapped p s) :=
  (kept_st_setBank (kb := false) (kl := [.regs, .shadow, .cfg]) (bl := [blkGCL])
    (kept_exchangeBanks Kept.rfl_frame (by decide) (by decide) (by rw [blkOf_gclBank]; decide)) (by decide)).frame

theorem gateChange_eq {c : Tod} (hc : (s.gclPort p).cct = some c) (hn : c.inNs ≤ s.nowNs) (hph : (s.bank (GCL_BANK p).addr).phase = .waiting)
    (hk : (s.bank (GCL_BANK p).addr).kind = 3) : gateChange p s = preFollow p (gclSwapped p (gateSwapped p s)) := by
  have hswap : swapBank (GCL_BANK p).addr s = gclSwapped p (gateSwapped p s) :=
    (if_pos (blkOf_gclBank p)).trans (by rw [bankUnit_gcl]; rfl)
  unfold gateChange
  dsimp only
  rw [hc, ← hswap]
  exact if_pos ⟨hn, hph, hk⟩

theorem gclSwapped_frame : Frame [.regs, .gcl] s (gclSwapped p s) :=
  (kept_gclSwapped (kb := false) (kl := [.regs, .gcl]) (bl := [blkGCL]) Kept.rfl_frame (by decide) (by decide) (by decide)).frame

/-- The new list runs from its change time, which is no longer pending. -/
theorem gclSwapped_port : (gclSwapped p s).gclPort p =
    { s.gclPort p with cct := none, cycStart := (s.gclPort p).cct.getD s.tod, held := [] } := by
  unfold gclSwapped
  dsimp only
  rw [gclPort_frame showGates_frame (by decide)]
  exact gclPort_setGclPort _ _ _

theorem gclSwapped_changed : (gclSwapped p s).bit (GCL_EVT_CHANGED p) = true := by
  unfold gclSwapped
  dsimp only
  have hne : (GCL_EVT_CHANGED p).addr ≠ (GCL_OPER p).addr := by
    show 0x16000060 + p.val % 256 * 0x10000 ≠ 0x16000048 + p.val % 256 * 0x10000
    omega
  exact (bit_congr (showGates_reg hne)).trans (bit_put_same _ _ le_of_eval rfl)

theorem gclSwapped_reg {a : Nat} (ho : a ≠ (GCL_OPER p).addr) (he : a ≠ (GCL_EVT p).addr) : (gclSwapped p s).reg a = s.reg a := by
  unfold gclSwapped
  dsimp only
  rw [showGates_reg ho, reg_put_ne (r := GCL_EVT_CHANGED p) _ _ he, reg_setGclPort]

/-- GATE_LIST_CHANGE at the config change time. -/
theorem gateChange_changes {c : Tod} (hc : (s.gclPort p).cct = some c) (hn : c.inNs ≤ s.nowNs)
    (hph : (s.bank (GCL_BANK p).addr).phase = .waiting) (hk : (s.bank (GCL_BANK p).addr).kind = 3) :
    ((gateChange p s).gclPort p).cct = none ∧ ((gateChange p s).gclPort p).cycStart = c ∧ (gateChange p s).bit (GCL_EVT_CHANGED p) = true ∧
      ((gateChange p s).bank (GCL_BANK p).addr).phase = .copying ∧ (operList (gateChange p s) p).en = (adminList s p).en ∧
      (operList (gateChange p s) p).len = (adminList s p).len ∧ (operList (gateChange p s) p).ct = (adminList s p).ct ∧
      (operList (gateChange p s) p).bt = (adminList s p).bt := by
  have hevt : (GCL_EVT_CHANGED p).addr = 0x16000060 + p.val % 256 * 0x10000 := rfl
  have hport := gclPort_frame (gateSwapped_frame (s := s) (p := p)) (by decide) p
  have hcfg : (preFollow p (gclSwapped p (gateSwapped p s))).cfg = (gateSwapped p s).cfg :=
    (preFollow_frame .cfg (by decide)).trans (gclSwapped_frame .cfg (by decide))
  rw [gateChange_eq hc hn hph hk, gclPort_frame preFollow_frame (by decide), gclSwapped_port, hport, hc]
  refine ⟨rfl, rfl, ?_, ?_, operList_eq fun q hq => ?_⟩
  · exact (bit_congr (q := GCL_EVT_CHANGED p) (preFollow_reg (by rw [hevt]; omega) (by rw [hevt]; omega))).trans gclSwapped_changed
  · refine (congrArg (fun c : CfgSt => (SMap.get (fun _ => ({} : BankSt)) c.banks (GCL_BANK p).addr).phase) hcfg).trans ?_
    exact congrArg BankSt.phase (bank_setBank _ _ _)
  · obtain ⟨-, -, ho, he, hlt, hcnt⟩ := listFields_banked p q hq
    rw [rd_congr (preFollow_reg hlt hcnt), rd_congr (gclSwapped_reg ho he), ← exchangeBanks_field hq]
    exact rd_setBank _ _ _ _
end

/-! ### SchedulingComplete -/

section
variable {i : Initiator} {v : Word} {tbl dir n : Nat} {s : State}

/-- SCH_IND_READ, table by table. -/
theorem schIndRead_tables (h : SchGoes i v 1 tbl dir n s) (hr : SchInRange tbl dir n) : Gives (.schIndRead i v) s fun t =>
    t.bit SCH_IND_CMD_GO = false ∧
      (tbl = 0 → schWords t = schWords (showObj (s.leafObj (leafKey dir n)) true false s)) ∧
      (tbl = 1 → schWords t = [(2 ^ 63 * b2n (s.sub (dir * 8192 + n)).en + (s.sub (dir * 8192 + n)).port) % 2 ^ 64, 0, 0, 0]) ∧
      (tbl = 2 → schWords t = schWords (showObj (s.svc (dir * 131072 + n)) true true s)) ∧
      (tbl = 3 → schWords t = schWords (showObj (s.portObj (dir * 8192 + n)) false false s)) ∧
      (tbl = 4 → (schWords t).take 2 = [(2 ^ 63 * b2n (s.policer n).en + 2 ^ 62 * b2n (s.policer n).mode + (s.policer n).red) % 2 ^ 64,
        ((s.policer n).rates.cir * 2 ^ 32 + (s.policer n).rates.pir) % 2 ^ 64]) := by
  obtain ⟨t, ht, hgo, hw⟩ := schIndRead_shows h hr
  refine ⟨t, ht, hgo, ?_, ?_, ?_, ?_, ?_⟩ <;> (rintro rfl; rw [hw])
  · rfl
  · exact schWords_putSchData _ _ _ _
  · rfl
  · rfl
  · exact congrArg (List.take 2) (schWords_putSchData _ _ _ _)

/-- SCH_IND_WRITE, table by table. -/
theorem schIndWrite_tables (h : SchGoes i v 0 tbl dir n s) (hr : SchInRange tbl dir n)
    (ho : tbl = 0 ∨ tbl = 2 → objRefused (schData s 0) (schData s 1) (schData s 2) = false) (hs : tbl = 1 → ¬ SubRefused dir n s) :
    Gives (.schIndWrite i v) s fun t => t.bit SCH_IND_CMD_GO = false ∧
      (tbl = 0 → t.leafObj (leafKey dir n) = objFrom (s.leafObj (leafKey dir n)) true false (schData s 0) (schData s 1) (schData s 2)) ∧
      (tbl = 1 → t.sub (dir * 8192 + n) = ⟨(schData s 0).testBit 63, schData s 0 % 4096⟩) ∧
      (tbl = 2 → t.svc (dir * 131072 + n) = objFrom (s.svc (dir * 131072 + n)) true true (schData s 0) (schData s 1) (schData s 2)) ∧
      (tbl = 3 → t.portObj (dir * 8192 + n) = objFrom (s.portObj (dir * 8192 + n)) false false (schData s 0) (schData s 1) (schData s 2)) ∧
      (tbl = 4 → t.policer n = polFrom ((s.policer n).refill s.polNow) s.polNow (schData s)) := by
  obtain ⟨t, ht, hgo, hsch⟩ := schIndWrite_stores h hr ho hs
  refine ⟨t, ht, hgo, ?_, ?_, ?_, ?_, ?_⟩ <;> rintro rfl
  · exact (leafObj_congr hsch _).trans (leafObj_setLeafObj _ _ _)
  · exact (sub_congr hsch _).trans (sub_setSub _ _ _)
  · exact (svc_congr hsch _).trans (svc_setSvc _ _ _)
  · exact (portObj_congr hsch _).trans (portObj_setPortObj _ _ _)
  · exact (policer_congr hsch _).trans (policer_setPolicer _ _ _)
end

/-- Settles O35: a selection by the packet handed over, refills by what an unlisted object is after one, tables by what `schAccess` answers,
a flush by the packets it keeps, histograms by what a sample leaves of SCH's registers, gate lists by the banks' exchange. -/
theorem schedulingComplete : Obligations.SchedulingComplete := by
  unfold Obligations.SchedulingComplete
  refine ⟨fun p n key x l s hup hr hm hpick h hp => ⟨_, congrArg Host.Outcome.next (if_pos hup), scheduleSelect_hands hr hm hpick h hp⟩,
    fun d lev s hup hr hl hs hp => ⟨_, congrArg Host.Outcome.next (if_pos (by rw [hup, hr]; rfl)), refillLevel_refills d lev hl hs hp⟩,
    fun i v tbl dir n s h h5 h1 h2 h3 h4 => schIndRead_tables h ⟨h5, h1, h2, h3, h4⟩,
    fun i v tbl dir n s h h5 h1 h2 h3 h4 ho hs => ?_, fun i v s hA h => leafFlush_empties hA rfl h,
    fun s hup hr he => ⟨_, congrArg Host.Outcome.next (if_pos hup), histSample_counts hr he⟩, fun i v s hA => histogramClear_clears hA,
    fun p s hup => ⟨_, congrArg Host.Outcome.next (if_pos hup), gateEntry_shows⟩,
    fun p c s hup hc hn hph hk => ⟨_, congrArg Host.Outcome.next (if_pos hup), gateChange_changes hc hn hph hk⟩,
    fun p s hup h => ⟨_, congrArg Host.Outcome.next (if_pos hup), gateHold_holds h⟩,
    fun p s hup h => ⟨_, congrArg Host.Outcome.next (if_pos hup), gateRelease_releases h⟩⟩
  have hsub : tbl = 1 → ¬ SubRefused dir n s := by
    rintro h1 (⟨h0, h63⟩ | ⟨hne, hidle⟩)
    · exact absurd ((hs h1).1 h0) (by omega)
    · exact (hs h1).2.elim (fun e => hne e.symm) hidle
  obtain ⟨t, ht, hgo, hleaf, hsubs, hsvc, hport, hpol⟩ := schIndWrite_tables h ⟨h5, h1, h2, h3, h4⟩ ho hsub
  refine ⟨t, ht, hgo, hleaf, hsubs, hsvc, hport, fun e => ?_⟩
  rw [hpol e]
  exact ⟨rfl, rfl, rfl, rfl⟩
end Sys2Proof.Machine
end
